-- ==== Sys2Proof/Word.lean ====
section
/-!
DEFINITION. The words the spec treats as bits, and two's complement.
-/

namespace Sys2Proof

/-- One byte. -/
abbrev Byte := BitVec 8

/-- The contents of one register, 32-bit registers in the low half (R28). -/
abbrev Word := BitVec 64

/-- The signed value of the low w bits of n, two's complement. -/
def toSigned (w n : Nat) : Int :=
  let m := n % 2 ^ w
  if 2 * m < 2 ^ w then (m : Int) else (m : Int) - (2 ^ w : Nat)

/-- The w-bit two's complement of an integer, as a natural number. -/
def ofSigned (w : Nat) (i : Int) : Nat := (i % ((2 ^ w : Nat) : Int)).toNat

/-- The nearer limit of the range lo to hi. -/
def clampNat (lo hi n : Nat) : Nat := if n < lo then lo else if hi < n then hi else n

/-- The nearer limit of the range lo to hi, on integers. -/
def clampInt (lo hi i : Int) : Int := if i < lo then lo else if hi < i then hi else i

/-- Little-endian bytes of n, `len` of them (R28). -/
def leBytes (len n : Nat) : List Byte := (List.range len).map fun i => BitVec.ofNat 8 (n / 2 ^ (8 * i))

/-- The number that little-endian bytes spell (R28). -/
def ofLeBytes (bs : List Byte) : Nat := bs.foldr (fun b n => b.toNat + 256 * n) 0

end Sys2Proof
end

