-- ==== Sys2Proof/Syntax.lean ====
section
/-!
DEFINITION. The commands the block takes: one constructor for each row of spec/opcode_table.json, with the row's operands, and
the types of what an operand carries (a received message, a frame, an image). Device-time operands are in ns unless
their docstring says otherwise.
-/

namespace Sys2Proof

/-- Who makes a register access (R31): a host through P0 or P1, or an internal block. All internal blocks are one master, with one
holding register (R30). Log entry 169 (DESIGN CHOICE). -/
inductive Master where
  | p0 | p1 | internal
deriving DecidableEq, Repr, Inhabited

/-- What starts a power-on reset: PORn, a supply leaving its range (R59), or a PLL losing lock is its own command (R380). -/
inductive PorCause where
  | porn | supply
deriving DecidableEq, Repr, Inhabited

/-- The rails (R375). -/
inductive Rail where
  | vdd | vdds | vddq | vddhl | vddhh | vdda | vio18 | vio33 | vbat | agnd | vss
deriving DecidableEq, Repr, Inhabited

/-- The instructions of the test access port (R381). -/
inductive TapInstr where
  | bypass | idcode | samplePreload | extest | extestPulse | extestTrain | clamp | highz
deriving DecidableEq, Repr, Inhabited

/-- Where a Pattern image arrives from (R49, R50, R51). -/
inductive ImageSource where
  | flashA | flashB | mailbox
deriving DecidableEq, Repr, Inhabited

/-- The functions that R72 to R74 govern. -/
inductive Func where
  | dec | enc
  | q (n : Fin 4)
  | f0
  | eth (e : Fin 2)
  | cam (c : Fin 8)
  | nzh
  | mot (n : Fin 4)
  | srv (a : Fin 2)
deriving DecidableEq, Repr, Inhabited

/-- What a cast-on step finds in the hardware that the model does not hold: the outcome that ends the step (R63). -/
structure StepInfo where
  /-- Steps 11 and 12: the links whose training or head check failed. -/
  links : BitVec 32 := 0
  /-- Step 14: the cameras whose probe failed. -/
  cams : BitVec 8 := 0
  /-- Step 9: the engine diagnosis passed, PEA and PEB. -/
  passA : Bool := true
  passB : Bool := true
  /-- Step 1: fuse bits whose three copies disagreed are in the state; SRAM rows are not. -/
  sramBad : Bool := false
  /-- Step 4: new faulty rows could not be repaired. Step 6: the lanes that fail training (channel, rank, lane). -/
  lanes : List (Fin 2 × Fin 2 × Fin 11) := []
  /-- Step 15: the reading of each analog channel at its check, signed. -/
  analog : List Int := []
  /-- Step 15: the currents that each stepper axis's check senses, as the signed values V of R355: phase A in each polarity, then phase B (R332);
  an axis without an entry draws its target. -/
  currents : List (List Int) := []
deriving DecidableEq, Repr, Inhabited

/-- Transport of a PTP message (R85). -/
inductive Transport where
  | l2 | udp
deriving DecidableEq, Repr, Inhabited

/-- How a PTP message arrived: its transport, its domain, and its capture time by the MAC in 2^-16 ns (R85, R87). -/
structure PtpForm where
  transport : Transport := .l2
  domain : Nat := 0
  capture : Nat := 0
deriving DecidableEq, Repr, Inhabited

/-- A PTP port identity. -/
structure PortId where
  clock : BitVec 64 := 0
  port : BitVec 16 := 0
deriving DecidableEq, Repr, Inhabited

/-- An Announce message (R84): the fields that best-master selection compares. -/
structure Announce where
  src : PortId := {}
  originSec : Nat := 0
  originNs : Nat := 0
  priority1 : Nat := 128
  clockClass : Nat := 248
  accuracy : Nat := 254
  variance : Nat := 65535
  priority2 : Nat := 128
  gm : BitVec 64 := 0
  stepsRemoved : Nat := 0
  logInterval : Int := 1
deriving DecidableEq, Repr, Inhabited

/-- A Sync message. Corrections are in 2^-16 ns. -/
structure SyncMsg where
  src : PortId := {}
  seq : BitVec 16 := 0
  twoStep : Bool := false
  originSec : Nat := 0
  originNs : Nat := 0
  corr : Int := 0
  logInterval : Int := 0
deriving DecidableEq, Repr, Inhabited

/-- A Follow_Up message. -/
structure FollowUp where
  src : PortId := {}
  seq : BitVec 16 := 0
  originSec : Nat := 0
  originNs : Nat := 0
  corr : Int := 0
deriving DecidableEq, Repr, Inhabited

/-- A Delay_Resp message: the answer to the device's Delay_Req of that sequence number if `mine`. -/
structure DelayResp where
  src : PortId := {}
  seq : BitVec 16 := 0
  mine : Bool := true
  rxSec : Nat := 0
  rxNs : Nat := 0
  corr : Int := 0
  logInterval : Int := 0
deriving DecidableEq, Repr, Inhabited

/-- A Pdelay_Req message, and the capture time at which the device's answer leaves, in 2^-16 ns. -/
structure PdelayReq where
  src : PortId := {}
  seq : BitVec 16 := 0
  answer : Nat := 0
  corr : Int := 0
deriving DecidableEq, Repr, Inhabited

/-- A Pdelay_Resp (`followUp` false) or Pdelay_Resp_Follow_Up. -/
structure PdelayResp where
  src : PortId := {}
  seq : BitVec 16 := 0
  mine : Bool := true
  followUp : Bool := false
  twoStep : Bool := true
  sec : Nat := 0
  ns : Nat := 0
  corr : Int := 0
deriving DecidableEq, Repr, Inhabited

/-- A fault that the environment puts into one line build, so that the checks of R170 and R171 have something to find. `none` is a
healthy engine. -/
inductive LineFault where
  | none
  /-- A word of the slice arrives changed in the bits that v has set (check 1). -/
  | slice (i : Fin 66) (v : BitVec 64)
  /-- The slice names this head, row and line (check 2). -/
  | answer (h : Fin 32) (row : Fin 2) (n : Int)
  /-- The fire time is moved by whole quarter-nanoseconds (check 3). -/
  | fire (dq : Int)
  /-- The primary datapath replaces the code of one nozzle (check 4). -/
  | code (k : Fin 2048) (v : BitVec 8)
  /-- Both datapaths replace the code of one nozzle (check 5). -/
  | both (k : Fin 2048) (v : BitVec 8)
  /-- The line arrives at the output stage with a wrong CRC (R171). -/
  | transfer
deriving DecidableEq, Repr, Inhabited

/-- A STATUS frame's body (R194); T2 and T3 are in 2^-16 ns, 64 bits. -/
structure StatusFrame where
  seq : BitVec 8 := 0
  beatSeen : BitVec 16 := 0
  stepsSeen : BitVec 8 := 0
  flags : BitVec 8 := 0
  t2 : BitVec 64 := 0
  t3 : BitVec 64 := 0
  fired : BitVec 32 := 0
  discarded : BitVec 16 := 0
  crcErrs : BitVec 16 := 0
  sensors : Nat := 1
  temps : List (BitVec 16) := []
deriving DecidableEq, Repr, Inhabited

/-- A TS ordered set from the head (R201). -/
structure TrainingSet where
  phase : Nat := 0
  link : BitVec 8 := 0
  req : BitVec 8 := 0
  reqSeq : BitVec 8 := 0
  ack : BitVec 8 := 0
  ackSeq : BitVec 8 := 0
  pre : Nat := 0
  main : Nat := 0
  post : Nat := 0
  caps : BitVec 16 := 0
  crcOk : Bool := true
  /-- Time it is received, ns. -/
  t : Nat := 0
deriving DecidableEq, Repr, Inhabited

/-- A CSI-2 long packet of virtual channel 0 and the configured data type (R209, R210): the header's ECC, the payload and
its CRC-16, and when its last byte arrives. -/
structure CsiPacket where
  eccOk : Bool := true
  payload : List Byte := []
  crcOk : Bool := true
  t : Nat := 0
deriving DecidableEq, Repr, Inhabited

/-- A CSI-2 packet of another kind (R209). -/
inductive CsiOther where
  /-- Line Start, Line End, embedded data or a generic short packet: discarded without effect. -/
  | harmless
  /-- A long packet on another virtual channel or of another data type: BAD_LINE. -/
  | wrongLong
  /-- A short packet whose header is uncorrectable. -/
  | badShort
deriving DecidableEq, Repr, Inhabited

/-- One symbol of a granule that reads back wrong: the code word 0 to 7, the symbol's position 0 to 19 and the difference. -/
structure SymbolError where
  word : Fin 8 := 0
  sym : Fin 20 := 0
  diff : Byte := 0
deriving DecidableEq, Repr, Inhabited

/-- A request raised at a memory-front arbiter: the requester, the rank it addresses, how long ago it was raised, in ns, and the bank it
addresses, bank group x 4 + bank (R263, R265, R269). Log entry 18 (DEDUCED). -/
structure MemReq where
  r : Fin 20
  rank : Fin 2 := 0
  age : Nat := 0
  bank : Fin 32 := 0
deriving DecidableEq, Repr, Inhabited

/-- A tamper cause (R310) other than FORCE. -/
inductive TamperCause where
  | temperature | vbat
deriving DecidableEq, Repr, Inhabited

/-- The body of an AUTH frame from the head (R198). -/
structure AuthBody where
  seq : BitVec 8 := 0
  hserial : BitVec 64 := 0
  nonce : BitVec 128 := 0
  usage : BitVec 64 := 0
  mac : BitVec 128 := 0
deriving DecidableEq, Repr, Inhabited

/-- What an absolute encoder returns in one frame (R336): no start bit within 16 sampled bits, or its 42 bits. -/
structure AbsFrame where
  started : Bool := true
  bits : BitVec 42 := 0
deriving DecidableEq, Repr, Inhabited

/-- A PCIe configuration write (R281 to R283, R291), a write of the MSI-X table in BAR4 among them. Log entry 162 (DEDUCED). -/
inductive ConfigWrite where
  | power (d3hot : Bool)
  | busMaster (en : Bool)
  /-- Max_Payload_Size in bytes. -/
  | maxPayload (bytes : Nat)
  /-- BAR0, BAR2 or BAR4. -/
  | bar (n : Fin 3) (val : Nat)
  /-- MSI-X Enable and Function Mask. -/
  | msixControl (enable mask : Bool)
  /-- An entry of the MSI-X table. -/
  | msixEntry (v : Fin 2) (addr data : Nat) (masked : Bool)
  /-- Write-one-to-clear of the Uncorrectable Error Status. -/
  | aerClear (bits : Nat)
deriving DecidableEq, Repr, Inhabited

/-- The commands, in the order of spec/opcode_table.json. -/
inductive Instr where
  /-- REGISTER_WRITE (R8): A host or internal write to a register that has no row of its own is checked under R31 and applied by its field types. -/
  | registerWrite (m : Master) (addr bytes val : Nat)
  /-- LOW_WORD_READ (R30): A 32-bit read of the low word of a 64-bit register latches the high word for the reading master. -/
  | lowWordRead (m : Master) (addr bytes : Nat)
  /-- TB_NOW_READ (R75): A read of TB_NOW latches the sub-nanosecond fraction into TB_NOW_FRAC for the reading master. -/
  | tbNowRead (m : Master) (bytes : Nat)
  /-- HST_APBASE_WRITE (R27): A write to a port's aperture base applies to BAR2 accesses that arrive after the write completes. -/
  | hstApbaseWrite (m : Master) (p : Fin 2) (val : Nat)
  /-- BAR2_READ (R26): A PCIe read through BAR2 reaches DRAM at HST_APBASE plus the offset, subject to R31. -/
  | bar2Read (p : Fin 2) (off len : Nat)
  /-- BAR2_WRITE (R26): A posted PCIe write through BAR2 reaches DRAM at HST_APBASE plus the offset, subject to R31 and R254. -/
  | bar2Write (p : Fin 2) (off : Nat) (data : List (BitVec 8))
  /-- SNAP_REQ (R34): A write of REQ requests a snapshot epoch flip at the closing boundary of the current beat. -/
  | snapReq (m : Master) (val : Nat)
  /-- BEAT_BOUNDARY (R78): The timebase addition that makes TB_NOW reach the next multiple of 4,000 ns closes one beat and opens the next. -/
  | beatBoundary (tj : Int)
  /-- POWER_ON_RESET (R59): PORn asserted, or a supply leaving its range, starts a power-on reset. rails are those that are out of range. -/
  | powerOnReset (c : PorCause) (rails : List Rail := [])
  /-- PORN_RELEASE (R377): The rising edge of PORn releases reset, samples BOOTSEL and starts cast-on step 1. rails are those that are still out of range (R376). -/
  | pornRelease (lowNs : Nat) (bootsel : Fin 4) (rails : List Rail := [])
  /-- RSTN_ASSERT (R62): A filtered RSTn low pulse of 100 ns or more latches a warm reset. -/
  | rstnAssert (lowNs : Nat)
  /-- SYS_RESET_WARM (R59): A keyed write of KIND = WARM to SYS_RESET latches a warm reset. -/
  | sysResetWarm (m : Master) (val : Nat)
  /-- SYS_RESET_COLD (R59): A keyed write of KIND = COLD to SYS_RESET latches a cold reset. -/
  | sysResetCold (m : Master) (val : Nat)
  /-- AUTO_RESET (R68): An automatic policy reset begins within 1 ms of a failed cast-on step's decision. -/
  | autoReset
  /-- RESET_DRAM_SELF_REFRESH (R62): Within 2,000 ns of a warm reset latch both DRAM channels have entered self-refresh. -/
  | resetDramSelfRefresh
  /-- RESET_FIRE_SILENCE (R62): Within 8,000 ns of the latch firing is silenced through the FIRE_INHIBITn path. -/
  | resetFireSilence
  /-- RESET_LOGIC_ASSERT (R62): At 10,000 ns after the latch logic reset is asserted and the vault isolated. -/
  | resetLogicAssert
  /-- RESET_RELEASE (R62): At the later of RSTn rising plus 1,000 ns and 12,000 ns reset is released, BOOTSEL is sampled and cast-on starts. -/
  | resetRelease (bootsel : Fin 4)
  /-- CAST_ON_STEP_DONE (R63): A cast-on step meets its completion condition and the next step starts. -/
  | castOnStepDone (info : StepInfo)
  /-- CAST_ON_STEP_LIMIT (R63): A cast-on step that has not completed by its limit fails with its code. -/
  | castOnStepLimit (info : StepInfo)
  /-- PATTERN_IMAGE_ARRIVED (R52): A Pattern image arrives from flash or mailbox and is verified and applied. -/
  | patternImageArrived (src : ImageSource) (complete : Bool) (img : List (BitVec 8))
  /-- MBOX_GO (R51): A write of GO to PAT_MBOX_CTRL begins verification of the staged full image. -/
  | mboxGo (m : Master) (val : Nat)
  /-- MBOX_ABORT (R52): A write of ABORT ends a verification in progress with ERR ABORTED. -/
  | mboxAbort (m : Master) (val : Nat)
  /-- MBOX_TIMEOUT (R51): With no GO within 60 s of reset release the mailbox source fails with SOURCE_EMPTY. -/
  | mboxTimeout
  /-- STAGING_WRITE (R56): A write to the staging area loads image bytes, or is ignored and sets MBOX_BUSY during a re-pattern. -/
  | stagingWrite (m : Master) (addr bytes val : Nat)
  /-- REPATTERN_GO (R55): A write of GO to PAT_REPAT_CTRL begins verification of a re-pattern image and holds page starts. -/
  | repatternGo (m : Master) (val : Nat)
  /-- REPATTERN_VERIFY_DONE (R55): Re-pattern verification reaches step 11, which tests the re-pattern conditions. -/
  | repatternVerifyDone
  /-- REPATTERN_APPLY (R57): At the first boundary after step 11 the image is applied or refused and the result is posted. -/
  | repatternApply
  /-- CLOG_CLEAR (R69): A write of CLEAR clears attempt counts, skip bits and directives from the next cast-on. -/
  | clogClear (m : Master) (val : Nat)
  /-- BINDOFF_GO (R70): A Secure write of GO, with ABORT_PAGE and NO_CAP as options, starts or holds bind-off. -/
  | bindoffGo (m : Master) (val : Nat)
  /-- BINDOFF_STEP_DONE (R70): A bind-off step reaches its end condition and the next step starts. -/
  | bindoffStepDone
  /-- BINDOFF_CAP_TIMEOUT (R70): Capping not done within 30 s posts BIND_OFF_CAP_FAIL and bind-off continues. -/
  | bindoffCapTimeout
  /-- FUNCTION_ENABLE_WRITE (R72): A write to a function's enable field starts a transition, or is held while one runs. -/
  | functionEnableWrite (m : Master) (f : Func) (en : Bool)
  /-- FUNCTION_TRANSITION_DONE (R72): A function's start or stop work ends, and a kept request starts the matching transition. -/
  | functionTransitionDone (f : Func)
  /-- FUNCTION_WEDGED (R73): A transition exceeding its limit makes the function WEDGED and unconnects its outputs. -/
  | functionWedged (f : Func)
  /-- TB_INCR_WRITE (R76): In manual mode a write to TB_INCR sets the increment, clamped to the R76 range. -/
  | tbIncrWrite (m : Master) (bytes : Nat) (val : Nat)
  /-- TB_STEP_WRITE (R80): In manual mode a write to TB_STEP sets a pending step, subject to R82. -/
  | tbStepWrite (m : Master) (bytes : Nat) (val : Nat)
  /-- TB_MANUAL_WRITE (R89): A write of MANUAL moves time discipline to FREE or back to ACQUIRING. -/
  | tbManualWrite (m : Master) (val : Nat)
  /-- TB_RESYNC (R83): A write of RESYNC arms or disarms RESYNC in STEP_GUARD mode. -/
  | tbResync (m : Master) (val : Nat)
  /-- ANNOUNCE_RX (R84): A received Announce is used for best-master selection unless discarded. -/
  | announceRx (e : Fin 2) (f : PtpForm) (msg : Announce)
  /-- SYNC_RX (R88): A received Sync gives, alone or with its Follow_Up, an offset sample for the servo. -/
  | syncRx (e : Fin 2) (f : PtpForm) (msg : SyncMsg)
  /-- FOLLOW_UP_RX (R84): A received Follow_Up supplies the precise origin time of a two-step Sync. -/
  | followUpRx (e : Fin 2) (f : PtpForm) (msg : FollowUp)
  /-- DELAY_RESP_RX (R84): A received Delay_Resp updates the E2E mean path delay. -/
  | delayRespRx (e : Fin 2) (f : PtpForm) (msg : DelayResp)
  /-- PDELAY_REQ_RX (R84): A received Pdelay_Req is answered two-step. -/
  | pdelayReqRx (e : Fin 2) (f : PtpForm) (msg : PdelayReq)
  /-- PDELAY_RESP_RX (R84): A received Pdelay_Resp or Pdelay_Resp_Follow_Up updates the peer delay. -/
  | pdelayRespRx (e : Fin 2) (f : PtpForm) (msg : PdelayResp)
  /-- PTP_OTHER_RX (R84): A Signaling or Management message, or one of the wrong mechanism or transport, is discarded and counted. -/
  | ptpOtherRx (e : Fin 2)
  /-- DELAY_REQ_TX (R84): At the interval the master requests the device sends Delay_Req in E2E. -/
  | delayReqTx (e : Fin 2) (capture : Nat)
  /-- PDELAY_REQ_TX (R84): Every 2^LOG_PDELAY s the device sends Pdelay_Req in P2P. -/
  | pdelayReqTx (e : Fin 2) (capture : Nat)
  /-- TIME_STEP_APPLY (R81): At the opening boundary of an idle beat a pending step moves device time and shifts tracker times. -/
  | timeStepApply
  /-- ANNOUNCE_TIMEOUT (R86): ANN_TIMEOUT Announce intervals without an Announce lose the selected master. -/
  | announceTimeout
  /-- SYNC_TIMEOUT (R86): Eight Sync intervals without a usable Sync lose the selected master. -/
  | syncTimeout
  /-- QUAD_TRANSITION (R92): An accepted change on a quadrature channel counts, or is an illegal transition. -/
  | quadTransition (n : Fin 4) (a b : Bool) (t : Nat)
  /-- F0_STEP (R94): An accepted rising edge of F0 STEP counts one step in the sign of DIR. setupOk: DIR was stable for its setup time. -/
  | f0Step (dir setupOk : Bool) (t : Nat)
  /-- INDEX_EDGE (R95): An accepted index edge latches and clears the counter according to IDX_MODE. -/
  | indexEdge (n : Fin 4) (t : Nat)
  /-- IDX_ARM (R95): A write of IDX_ARM arms ONCE_ARMED index latching. -/
  | idxArm (m : Master) (n : Fin 4)
  /-- WT_SCALE_WRITE (R96): A write to WT_SCALE takes effect in STILL, otherwise it is ignored and sets SCALE_REFUSED. -/
  | wtScaleWrite (m : Master) (val : Nat)
  /-- WEB_STANDSTILL (R100): No legal edge for STILL_T puts the observer in STILL. -/
  | webStandstill
  /-- WEB_SETTLED (R100): The eighth legal edge since STILL moves the observer from SETTLING to TRACKING. -/
  | webSettled
  /-- WEB_RECOVERED (R100): 1 ms with no QERR and at least 16 legal edges returns COASTING to TRACKING with a re-base. -/
  | webRecovered
  /-- WEB_COAST_EXHAUSTED (R101): The coasting count reaching COAST_MAX suspends firing. -/
  | webCoastExhausted
  /-- WEB_REVERSED (R102): Reverse debt rising above REV_LIMIT posts WEB_REVERSED and suspends firing. -/
  | webReversed
  /-- PAGE_CUE (R107): An accepted rising edge on PAGE_CUE is a cue that starts a page or is rejected. -/
  | pageCue (t : Nat)
  /-- SOFT_CUE (R107): A write of SOFT to WT_CUE_CFG issues a cue stamped at the write. -/
  | softCue (m : Master) (bytes : Nat) (val : Nat)
  /-- SOFT_CUE_ACCEPT (R107): 1,000 ns after its stamp a SOFT cue is accepted and taken like a pin cue. -/
  | softCueAccept
  /-- CMP_ENTRY_WRITE (R111): A write to a compare entry takes effect from the next boundary, and enabling resets j. -/
  | cmpEntryWrite (m : Master) (addr bytes val : Nat)
  /-- MARK_PULSE_START (R110): At an occurrence time the selected MARK pins rise. -/
  | markPulseStart
  /-- MARK_PULSE_END (R110): WIDTH ns after its occurrence a MARK pulse ends unless another overlaps. -/
  | markPulseEnd
  /-- PAGE_PUSH (R116): A 64-bit or high-word write to CD_PAGE_PUSH pushes a descriptor address, or is discarded when 64 are counted. -/
  | pagePush (m : Master) (bytes val : Nat)
  /-- PAGE_PUSH_LOW_WRITE (R116): A 32-bit write to the low word of CD_PAGE_PUSH stores address bits and pushes nothing. -/
  | pagePushLowWrite (m : Master) (val : Nat)
  /-- DESCRIPTOR_CHECK (R116): The codec reads and checks a pushed descriptor, queuing the page or posting PAGE_REJECTED. -/
  | descriptorCheck
  /-- BAND_DECODE_START (R125): A lane begins the next band of its strip once the page is queued and a buffer is free. -/
  | bandDecodeStart (lane : Fin 17)
  /-- BAND_DECODE_DONE (R124): A band ends in one result, is CRC-checked if CHECK is set, and errors are posted. -/
  | bandDecodeDone (lane : Fin 17) (err : Option (Nat × BitVec 8))
  /-- SPARE_DECODE_DONE (R128): The spare lane's second decode matches or fails OUT_CRC, sparing the lane or ending the band CRC. -/
  | spareDecodeDone (err : Option (Nat × BitVec 8))
  /-- STRIP_LINE_WRITE (R126): A decoded strip line is written to the line window once cue, band, CRC and release allow. -/
  | stripLineWrite (strip : Fin 16)
  /-- ENCODE_GO (R133): A write of GO starts an encode job, ignored while the lane is RUNNING or STARVED. -/
  | encodeGo (m : Master) (n : Fin 4) (val : Nat)
  /-- ENCODE_KICK (R132): A write of KICK makes a starved lane test for the next skein buffer again. -/
  | encodeKick (m : Master) (n : Fin 4)
  /-- SKEIN_BUFFER_FULL (R131): A full skein buffer is released to the host and the lane moves on or stalls STARVED. -/
  | skeinBufferFull (n : Fin 4)
  /-- ENCODE_READ_FAIL (R133): A refused or uncorrectable source read ends the job with ERR = 1. -/
  | encodeReadFail (n : Fin 4)
  /-- ENCODE_DONE (R131): The end of the input finishes the job and posts ENCODE_DONE. -/
  | encodeDone (n : Fin 4)
  /-- WINDOW_READ_RETURN (R143): A window read for a slice returns its segment, or uncorrectable data that zeroes it with LOST. -/
  | windowReadReturn (en : Fin 2) (h : Fin 32) (row : Fin 2) (strip : Fin 16) (pair : Bool)
  /-- WINDOW_READ_DEADLINE (R143): A window read not returned 3,000 ns after the opening boundary zeroes its segment with LATE. -/
  | windowReadDeadline
  /-- LINE_BUILD (R157): An engine forms drive codes from a completed slice, attaches FIRE, self-checks and hands the line over. -/
  | lineBuild (en : Fin 2) (h : Fin 32) (row : Fin 2) (flt : LineFault)
  /-- SHIFT_WRITE (R148): A write of HOST to LA_SHIFT is scheduled at a switch point under WHEN. -/
  | shiftWrite (m : Master) (val : Nat)
  /-- AUTO_UPDATE (R147): An AUTO value from nozzle health is scheduled at a switch point under AUTO_WHEN. -/
  | autoUpdate (v : Int)
  /-- BLEND_COMMIT (R148): A write of COMMIT schedules MODE, the mask and LA_MARGIN at a switch point. -/
  | blendCommit (m : Master) (val : Nat)
  /-- SWATCH_ARM (R150): A write of ARM to LA_SWATCH requests a swatch in the next page. -/
  | swatchArm (m : Master) (bytes val : Nat)
  /-- PE_SHARED_WRITE (R166): A write to a shared PE table through either window updates both engines' copies. -/
  | peSharedWrite (m : Master) (addr bytes val : Nat)
  /-- TRIM_COMMIT (R166): A write of COMMIT to PE_TRIM_CTRL puts the trim shadow in use from the next boundary. -/
  | trimCommit (m : Master) (en : Fin 2) (val : Nat)
  /-- HEAD_TEMP_STALE (R161): No temperature report for TIMEOUT ms puts a head in HOT with cause STALE. -/
  | headTempStale (h : Fin 32)
  /-- CLAIM_WRITE (R174): A write to PE_CLAIM sets the claim from the next sample, or with 0 drops it permanently. -/
  | claimWrite (m : Master) (en : Fin 2) (val : Nat)
  /-- ENGINE_SRAM_ERROR (R174): An uncorrectable SRAM error in an engine's storage drops its claim with cause 3. -/
  | engineSramError (en : Fin 2)
  /-- ENGINE_FAIL_RATE (R174): FAIL_LIMIT check failures within 1,024 beats drop the engine's claim with cause 2. -/
  | engineFailRate (en : Fin 2)
  /-- FIRE_INHIBITN_CHANGE (R177): An accepted change of FIRE_INHIBITn asserts or releases the internal inhibit. -/
  | fireInhibitnChange (level : Bool) (t : Nat)
  /-- INHIBIT_WRITE (R177): A write of INHIBIT to HL_INHIBIT_CTRL asserts or releases the internal inhibit. -/
  | inhibitWrite (m : Master) (val : Nat)
  /-- FRAME_TX_DONE (R187): At a gap between frames an output stage chooses and starts the next BEACON, LINE, FIRE_ADJ, AUTH or MGMT frame. t, the time at which the frame would start, is in 2^-16 ns. -/
  | frameTxDone (l : Fin 32) (t : Nat)
  /-- HL_FIRE_ADJ_WRITE (R189): A write to HL_FIRE_ADJ causes a FIRE_ADJ frame effective three beats later. -/
  | hlFireAdjWrite (m : Master) (l : Fin 32) (val : Nat)
  /-- STATUS_RX (R194): A STATUS frame updates temperatures, head counters, flags and the delay estimate. t4 is in 2^-16 ns. -/
  | statusRx (l : Fin 32) (st : StatusFrame) (t4 : Nat)
  /-- DELAY_RESTART (R191): Sixteen consecutive rejected samples empty the estimator and take the link out of service. -/
  | delayRestart (l : Fin 32)
  /-- UPSTREAM_FRAME_BAD (R184): An upstream frame failing CRC, type or length checks is discarded and counted. -/
  | upstreamFrameBad (l : Fin 32)
  /-- MGMT_GO (R197): A write of GO to HL_MGMT_CMD queues a head register request for round-robin grant. -/
  | mgmtGo (m : Master) (l : Fin 32) (p : Fin 2) (val : Nat)
  /-- MGMT_CANCEL (R197): A write of CANCEL withdraws a request or discards its awaited response. -/
  | mgmtCancel (m : Master) (l : Fin 32) (p : Fin 2)
  /-- MGMT_READ_RESP_RX (R195): A READ_RESP frame completes the outstanding read and posts MGMT_DONE. -/
  | mgmtReadRespRx (l : Fin 32) (tag result : Nat) (data : List (BitVec 32))
  /-- MGMT_WRITE_RESP_RX (R195): A WRITE_RESP frame completes the outstanding write and posts MGMT_DONE. -/
  | mgmtWriteRespRx (l : Fin 32) (tag result : Nat)
  /-- MGMT_TIMEOUT (R195): No answer within 1 ms ends a management request with TIMEOUT. -/
  | mgmtTimeout (l : Fin 32)
  /-- HEAD_CHECK_DONE (R206): The head checks of R196 complete, and the link enters or leaves service. -/
  | headCheckDone (l : Fin 32)
  /-- HEAD_BURST_DETECT (R200): Detected head wake bursts answer the device's wake or force RECOVERY with HEAD_WAKE. -/
  | headBurstDetect (l : Fin 32) (gen : Nat)
  /-- RX_LOCK_ACQUIRED (R182): The link receiver reaches lock on K28.5 sets or HL3 sync headers. -/
  | rxLockAcquired (l : Fin 32)
  /-- RX_LOCK_LOST (R182): The link receiver loses lock and an ACTIVE link enters RECOVERY. -/
  | rxLockLost (l : Fin 32)
  /-- TS_RX (R201): A received TS ordered set drives alignment, equalisation requests and confirmation. -/
  | tsRx (l : Fin 32) (ts : TrainingSet)
  /-- EQ_DWELL_DONE (R203): After a 2 µs dwell the device measures eye width and steps the next tap. -/
  | eqDwellDone (l : Fin 32) (eye : Nat)
  /-- EQ_REQUEST_TIMEOUT (R203): An equalisation request unanswered after 20 µs is repeated, and the third fails EQ_TIMEOUT. -/
  | eqRequestTimeout (l : Fin 32)
  /-- CONFIRM_COMPLETE (R204): 1,024 clean TS each way with EYE at least EYE_MIN make the link ACTIVE. -/
  | confirmComplete (l : Fin 32) (eye : Nat)
  /-- LINK_TRAIN_TIMEOUT (R204): A training state's limit expires and the attempt fails with its cause. -/
  | linkTrainTimeout (l : Fin 32)
  /-- LINK_UP (R204): Sixteen accepted delay samples with D_DN within 500 ns and realigned time set UP. -/
  | linkUp (l : Fin 32)
  /-- STATUS_LOST (R204): No valid STATUS for 4 ms sends an ACTIVE link to RECOVERY. -/
  | statusLost (l : Fin 32)
  /-- CRC_RATE (R204): ERR_LIMIT CRC errors within 1,024 beats send an ACTIVE link to RECOVERY. -/
  | crcRate (l : Fin 32)
  /-- LINK_RETRAIN (R204): A write of RETRAIN restarts an ACTIVE or DOWN link at GEN_MAX. -/
  | linkRetrain (m : Master) (l : Fin 32)
  /-- LINK_TEST (R204): A write of TEST moves a DOWN link into PRBS test or back to DOWN. -/
  | linkTest (m : Master) (l : Fin 32) (en : Bool)
  /-- DN_SLEEP_ENTER (R207): With no line selected for DN_SLEEP_BEATS and nothing waiting the downstream direction sleeps. -/
  | dnSleepEnter (l : Fin 32)
  /-- DN_WAKE (R207): A cue, a due frame or a 512-beat boundary wakes the downstream direction. -/
  | dnWake (l : Fin 32)
  /-- UP_SLEEP_RX (R207): The head's sleep ordered sets put the upstream direction to sleep. -/
  | upSleepRx (l : Fin 32)
  /-- WAKE_RELOCK_TIMEOUT (R207): A receiver not locked 4,000 ns after a wake sends the link to RECOVERY. -/
  | wakeRelockTimeout (l : Fin 32)
  /-- CAMERA_TRIGGER (R214): A position compare trigger reaches a camera, schedules its strobe or is dropped as OVERLAP. -/
  | cameraTrigger (c : Fin 8)
  /-- STROBE_START (R213): At t0 + DELAY the camera's strobe goes active. -/
  | strobeStart (c : Fin 8)
  /-- STROBE_END (R213): After WIDTH the camera's strobe goes inactive. -/
  | strobeEnd (c : Fin 8)
  /-- CSI_FRAME_START (R215): A Frame Start short packet closes any open frame and opens a new one. -/
  | csiFrameStart (c : Fin 8)
  /-- CSI_FRAME_END (R215): A Frame End short packet closes the open frame. -/
  | csiFrameEnd (c : Fin 8)
  /-- CSI_LONG_PACKET (R210): A camera line is validated and paired with the oldest trigger or discarded as orphan. -/
  | csiLongPacket (c : Fin 8) (pk : CsiPacket)
  /-- CSI_OTHER_PACKET (R209): A packet of another kind, channel or type is discarded, some counted as BAD_LINE. -/
  | csiOtherPacket (c : Fin 8) (kind : CsiOther)
  /-- CAM_LINE_MISSED (R214): A trigger unpaired LINE_TMO after its strobe ends counts as missing. -/
  | camLineMissed (c : Fin 8)
  /-- FRAME_IDLE_TIMEOUT (R215): 50 ms after its last line a frame closes. -/
  | frameIdleTimeout (c : Fin 8)
  /-- CAM_LINE_PROCESS (R224): At the first boundary after its last byte a valid line runs the pipeline and goes to nozzle health. -/
  | camLineProcess (c : Fin 8)
  /-- INS_COMMIT (R226): A write of COMMIT copies every inspection shadow to a pending set. -/
  | insCommit (m : Master)
  /-- I2C_GO (R212): A write of GO starts a sensor I2C transaction, held during a probe. -/
  | i2cGo (m : Master) (k : Fin 2) (val : Nat)
  /-- I2C_COMPLETE (R212): An I2C transaction ends OK or with a NACK and posts I2C_DONE. -/
  | i2cComplete (k : Fin 2) (result : Nat) (data : Nat)
  /-- I2C_TIMEOUT (R212): SCL held low for more than 25 ms ends the transaction with TIMEOUT. -/
  | i2cTimeout (k : Fin 2)
  /-- NZH_CAM_LINE (R231): Nozzle health takes a compared camera line and accumulates sole, swatch and registration readings. -/
  | nzhCamLine (c : Fin 8)
  /-- HEALTH_WINDOW_CLOSE (R232): A nozzle's readings reaching WIN_READINGS give a verdict and a state transition. -/
  | healthWindowClose (nz : Fin 131072)
  /-- SWATCH_VERDICT (R234): Once every ON camera is past the swatch, nozzle health forms swatch verdicts and posts SWATCH_READ. -/
  | swatchVerdict
  /-- NZH_SWATCH_PAGES (R235): Every SWATCH_PAGES accepted cues nozzle health arms a swatch. -/
  | nzhSwatchPages
  /-- SUBST_APPLY (R241): An NZH map change is written at the closing boundary and audited. -/
  | substApply
  /-- SUBST_HOST_WRITE (R242): A host write to LA_SUBST changes entries from the next beat and sets health states. -/
  | substHostWrite (m : Master) (addr bytes val : Nat)
  /-- DRAM_READ_COMPLETE (R252): A granule read is decoded, corrected or reported uncorrectable, with chip errors counted. -/
  | dramReadComplete (rq : Fin 20) (addr : Nat) (errs : List SymbolError)
  /-- DRAM_RMW (R254): A narrow write reads, merges and rewrites each touched granule, or is refused on uncorrectable data. -/
  | dramRmw (rq : Fin 20) (addr : Nat) (data : List (BitVec 8))
  /-- CE_DECAY (R255): Every second each lane's CE counter decrements. -/
  | ceDecay
  /-- REBUILD_GRANULE (R257): The rebuild sweep rewrites the next granule with MARK1's symbols on lane 10. -/
  | rebuildGranule (ch : Fin 2) (errs : List SymbolError := [])
  /-- SCRUB_GRANULE (R259): The patrol scrub reads the next granule and rewrites it if corrected. -/
  | scrubGranule (ch : Fin 2) (errs : List SymbolError)
  /-- PPR_REPAIR (R260): With the bar idle a candidate row is repaired by soft post-package repair. -/
  | pprRepair (ch rank : Fin 2) (lane : Fin 11) (errs : List (Fin 64 × SymbolError) := [])
  /-- RETRAIN_PAUSE (R261): A retraining pause tests one delay point of a lane, and the last pause of a pass decides. -/
  | retrainPause (ch rank : Fin 2) (lane : Fin 11) (pass : Bool)
  /-- TREFI_TICK (R263): Every tREFI a rank's count of owed refreshes increments. -/
  | trefiTick (ch rank : Fin 2)
  /-- REF_FORCED (R263): Owed refreshes reaching 4 force a REF at the next granule boundary. -/
  | refForced (ch rank : Fin 2)
  /-- DRAM_TEMP_POLL (R263): Every 1 ms the controller reads device temperature and sets HOT. -/
  | dramTempPoll (ch rank : Fin 2) (doubled tooHot : BitVec 11)
  /-- CHIP_MARK_HOST (R255): A write of MARK marks a lane with cause 3. -/
  | chipMarkHost (m : Master) (ch : Fin 2) (val : Nat)
  /-- MARK_FORGET (R255): A write of FORGET clears marks and spare state at the next cold cast-on. -/
  | markForget (m : Master) (ch : Fin 2)
  /-- SPEED_CHANGE_GO (R266): A write of GO starts a DRAM speed change or refuses it with RESULT. -/
  | speedChangeGo (m : Master) (ch : Fin 2) (val : Nat)
  /-- SPEED_CHANGE_DONE (R266): Retraining at the new speed ends and SPEED_CHANGED is posted. lanes are the lanes that fail it (channel, rank, lane). -/
  | speedChangeDone (lanes : List (Fin 2 × Fin 2 × Fin 11) := [])
  /-- ARBITER_GRANT (R269): At a free granule boundary the channel arbiter grants a waiter by class or starvation. reqs are the requests raised. -/
  | arbiterGrant (ch : Fin 2) (reqs : List MemReq)
  /-- HOLD_CUT (R270): A grant held for HOLD_MAX ns is cut off at the next granule boundary. -/
  | holdCut (ch : Fin 2)
  /-- REQUEST_WITHDRAW (R270): A holder dropping its request ends its grant. -/
  | requestWithdraw (ch : Fin 2) (r : Fin 20)
  /-- SLOT_OPEN (R273): A beat slot opens and its table entry decides refresh, owner or urgent service. reqs are the requests raised; stream tells that a lane whose writes are urgent waits for stream data. -/
  | slotOpen (ch : Fin 2) (slot : Fin 64) (reqs : List MemReq) (stream : Bool)
  /-- MF_CLASS_WRITE (R271): A write to MF_CLASS changes classes at the end of the cycle, with hosts kept out of class 0. -/
  | mfClassWrite (m : Master) (bytes val : Nat)
  /-- SLOT_ACTIVE_WRITE (R274): A write to an active slot table is refused and sets ACTIVE_WRITE. -/
  | slotActiveWrite (m : Master) (word : Fin 32) (val : Nat)
  /-- SLOT_ARM (R274): A write of ARM schedules a slot table swap at SWAP_BEAT or refuses it as PAST. -/
  | slotArm (m : Master) (val : Nat)
  /-- SLOT_SWAP (R275): At the swap boundary the shadows are tested and swapped or refused. -/
  | slotSwap
  /-- PCIE_PORT_RESET (R284): A hot reset, link-down or PERSTn resets one port's state and posts PORT_LINK. perst tells that PERSTn fell (R373). -/
  | pciePortReset (p : Fin 2) (perst : Bool := false)
  /-- PCIE_LINK_UP (R284): A port's link coming up posts PORT_LINK to the other port. perst is the level of PERSTn (R373). -/
  | pcieLinkUp (p : Fin 2) (speed width : Nat) (perst : Bool := true)
  /-- DOORBELL_WRITE (R287): A write to HST_DOORBELL posts HOST_DOORBELL to the other port. -/
  | doorbellWrite (m : Master) (p : Fin 2) (val : Nat)
  /-- EVENT_POST (R289): A posted event is assigned SEQ and queued, written, lost or discarded for each addressed host. -/
  | eventPost
  /-- EVENT_RING_WRITE (R289): A waiting event is written to the ring once space and Bus Master Enable allow. -/
  | eventRingWrite (p : Fin 2)
  /-- EVR_ENABLE (R288): A write of ENABLE = 1 takes BASE and size and resets HEAD, TAIL and phase. -/
  | evrEnable (m : Master) (p : Fin 2) (val : Nat)
  /-- EVR_DISABLE (R288): A write of ENABLE = 0 discards waiting events as LOST. -/
  | evrDisable (m : Master) (p : Fin 2) (val : Nat)
  /-- EVR_TAIL_WRITE (R288): A write of TAIL frees ring entries for waiting events. -/
  | evrTailWrite (m : Master) (p : Fin 2) (val : Nat)
  /-- MSIX_MODERATION_END (R291): At the end of MOD beats vector 0 is sent if entries were written. -/
  | msixModerationEnd (p : Fin 2)
  /-- SNAP_DMA_GO (R294): A write of GO while not busy requests a snapshot copy at the next boundary. -/
  | snapDmaGo (m : Master) (p : Fin 2) (val : Nat)
  /-- SNAP_DMA_START (R294): At the boundary after GO the copy takes the epoch in force and starts. -/
  | snapDmaStart (p : Fin 2)
  /-- SNAP_DMA_DONE (R295): A copy ends OK, SUPERSEDED, ACCESS or RESET and posts SNAP_DMA_DONE. -/
  | snapDmaDone (p : Fin 2)
  /-- SNAP_DMA_TIMEOUT (R295): A copy incomplete 50 ms after it began ends with TIMEOUT. -/
  | snapDmaTimeout (p : Fin 2)
  /-- ETH_FRAME_DISCARD (R296): A non-PTP or misaddressed Ethernet frame is discarded and counted. -/
  | ethFrameDiscard (e : Fin 2) (badFcs : Bool)
  /-- ETH_LINK (R296): A change of Ethernet link state posts ETH_LINK and may end an upload. -/
  | ethLink (e : Fin 2) (up : Bool)
  /-- UPLOAD_GO (R298): A write of GO starts an upload job unless one is running. -/
  | uploadGo (m : Master) (e : Fin 2) (val : Nat)
  /-- UPLOAD_DATAGRAM (R297): Within RATE the port sends the next upload datagram, ending the job at the end or on a read fault. -/
  | uploadDatagram (e : Fin 2)
  /-- FUSE_PROG (R304): A keyed PROG write starts programming ROOT_HASH or HEAD_ROOT or is refused. -/
  | fuseProg (m : Master) (val : Nat)
  /-- FUSE_PROG_DONE (R304): Fuse programming of all copies and the CRC completes. -/
  | fuseProgDone
  /-- ROLLBACK_ADVANCE (R305): A keyed ADVANCE write programs the next anti-rollback slot or is refused. -/
  | rollbackAdvance (m : Master) (val : Nat)
  /-- ROLLBACK_PROG_DONE (R305): Slot programming completes and ROLLBACK_ADVANCED is posted. -/
  | rollbackProgDone
  /-- ATTEST_GO (R306): A write of GO starts signing the attestation message. -/
  | attestGo (m : Master)
  /-- ATTEST_DONE (R306): The signature is placed in VLT_ATTEST_SIG and ATTEST_DONE is posted. -/
  | attestDone
  /-- TAMPER_DETECT (R310): A temperature or VBAT cause sets the tamper latch and zeroes retention RAM. -/
  | tamperDetect (c : TamperCause)
  /-- TAMPER_FORCE (R310): A write of FORCE sets the tamper latch. -/
  | tamperForce (m : Master) (val : Nat)
  /-- TAMPER_CLEAR (R310): A write of CLEAR clears the tamper latch unless a cause falls in the same cycle. -/
  | tamperClear (m : Master) (val : Nat) (cause : Option TamperCause)
  /-- VAULT_USAGE_SAVE (R309): Every 4,096 beats the USAGE group is written to the vault. -/
  | vaultUsageSave
  /-- VAULT_TIME_SAVE (R309): Every 1 s while LOCKED the TIME group is written to the vault. -/
  | vaultTimeSave
  /-- AUTH_REAUTH (R314): A write of VLT_AUTH_REAUTH starts or holds authentication of a link's head. -/
  | authReauth (m : Master) (val : Nat)
  /-- AUTH_RESPONSE_RX (R314): A RESPONSE AUTH frame passes or fails the head's authentication. -/
  | authResponseRx (l : Fin 32) (msg : AuthBody)
  /-- AUTH_RESPONSE_TIMEOUT (R314): No RESPONSE within 1 ms resends the CHALLENGE, failing NO_ANSWER after three. -/
  | authResponseTimeout (l : Fin 32)
  /-- USAGE_PERIOD_EXPIRY (R316): Every USAGE_PERIOD beats a COUNT_UPDATE with the pending count is sent. -/
  | usagePeriodExpiry
  /-- COUNT_ACK_RX (R316): A verified COUNT_ACK subtracts the sent amount and records the head total. -/
  | countAckRx (l : Fin 32) (msg : AuthBody)
  /-- COUNT_ACK_TIMEOUT (R316): No verified COUNT_ACK within 1 ms resends the update, posting HEAD_USAGE_FAIL after three. -/
  | countAckTimeout (l : Fin 32)
  /-- SERVO_TICK (R341): At every tenth beat boundary the motion and servo tick samples feedback and runs the profile generators. -/
  | servoTick
  /-- SERVO_STAGES (R342): At 14,000 ns into the tick the servo loop stages and plausibility checks run. -/
  | servoStages
  /-- CHOP_PERIOD (R319): A stepper phase's 40 kHz chopping period starts with the current target. -/
  | chopPeriod (n : Fin 4) (phase : Fin 2)
  /-- STEPPER_OVERCURRENT (R319): A sensed stepper current above OC_LIMIT stops the axis with OVERCURRENT. -/
  | stepperOvercurrent (n : Fin 4)
  /-- MICROSTEP_EMIT (R320): An axis emits its next scheduled microstep and updates POS. t is the time at which it leaves, bemf the load estimate of a full step (0 to 255). -/
  | microstepEmit (n : Fin 4) (t : Nat) (bemf : Nat)
  /-- HOLD_CURRENT_TIMER (R319): HOLD_DELAY ms after the last microstep the current drops to IHOLD. -/
  | holdCurrentTimer (n : Fin 4)
  /-- MOVE_GO (R323): A write of GO starts, holds or refuses a move, or starts FOLLOWING. -/
  | moveGo (m : Master) (n : Fin 4) (bytes val : Nat)
  /-- MOVE_SOFT_STOP (R323): A write of SOFT_STOP retargets the axis to stop at DECEL. -/
  | moveSoftStop (m : Master) (n : Fin 4)
  /-- MOVE_STOP (R324): A write of STOP stops microsteps at once and may mark LOST. -/
  | moveStop (m : Master) (n : Fin 4)
  /-- MOVE_HOME (R328): A write of HOME starts, holds or refuses homing. -/
  | moveHome (m : Master) (n : Fin 4)
  /-- MOT_SOURCE_WRITE (R321): A write of SOURCE takes effect only while IDLE and is forced INTERNAL when F0 is the web source. -/
  | motSourceWrite (m : Master) (n : Fin 4) (val : Nat)
  /-- CAP_GO (R331): A write of GO starts the capping move or refuses it. -/
  | capGo (m : Master)
  /-- SWITCH_CHANGE (R326): A debounced HOME or END change drives limits and homing phases. -/
  | switchChange (n : Fin 4) (isEnd level : Bool) (t : Nat)
  /-- SWITCH_CHATTER (R326): More than 8 toggles within DEBOUNCE stop the axis with CHATTER. -/
  | switchChatter (n : Fin 4) (isEnd : Bool)
  /-- AXIS_STALL (R330): STALL_COUNT consecutive load estimates at or above LIMIT stop the axis. -/
  | axisStall (n : Fin 4)
  /-- PWM_CENTRE (R334): At each 50 kHz centre the servo current loop samples, transforms and modulates. The currents are in the units of R355. -/
  | pwmCentre (a : Fin 2) (iu iv iw : Int)
  /-- SERVO_OVERCURRENT (R334): A phase current above OC_LIMIT faults the axis with outputs low within 200 ns. -/
  | servoOvercurrent (a : Fin 2)
  /-- ABS_FRAME_DONE (R337): An absolute encoder frame ends valid or invalid and updates y. -/
  | absFrameDone (a : Fin 2) (fr : AbsFrame)
  /-- HALL_CHANGE (R338): A filtered Hall change updates the sector or counts an illegal transition. -/
  | hallChange (h : Fin 2) (code : Fin 8) (t : Nat)
  /-- SERVO_ALIGN_DONE (R339): After 250 ms of alignment current the axis records y_align. -/
  | servoAlignDone (a : Fin 2)
  /-- SERVO_TARGET_WRITE (R347): A write of TARGET changes the effective target at the next tick. -/
  | servoTargetWrite (m : Master) (a : Fin 2) (val : Nat)
  /-- SERVO_REG_RX (R347): An S0 count from nozzle health arrives for the next tick. -/
  | servoRegRx (v : Int)
  /-- SERVO_REFERENCE (R348): A write of REFERENCE starts an index search or is ignored. -/
  | servoReference (m : Master) (a : Fin 2)
  /-- SERVO_CLEAR (R351): A write of CLEAR leaves FAULTED at the next tick or is refused. -/
  | servoClear (m : Master) (a : Fin 2)
  /-- NOTCH_COMMIT (R344): A write of NOTCH_COMMIT makes both notches' shadows active at the next tick. -/
  | notchCommit (m : Master) (a : Fin 2)
  /-- TRIM_GO (R357): A keyed GO write starts the factory trim or refuses it. -/
  | trimGo (m : Master) (val : Nat)
  /-- TRIM_MEASURE_DONE (R357): One channel's trim measurement completes and the next channel starts. rLo and rHi are the means of the two measurements, sLo and sHi of the two repeated ones, in 1/16 code. -/
  | trimMeasureDone (rLo rHi sLo sHi : Int)
  /-- TRIM_PROG_DONE (R357): The trim store is programmed and TRIM_DONE is posted. -/
  | trimProgDone
  /-- ANALOG_CHECK (R360): Every CHECK_MS a spare stands in and one channel is checked against 1.200 V. -/
  | analogCheck
  /-- ANALOG_CHECK_DONE (R361): The 1 ms check ends, sparing or failing the channel if it failed. reading is the corrected code. -/
  | analogCheckDone (reading : Int)
  /-- ANALOG_STUCK (R360): 1,024 identical consecutive conversions fail the channel. -/
  | analogStuck (k : Fin 26)
  /-- PLL_LOCK_LOSS (R380): A fabric, timebase or serialiser PLL losing lock causes a power-on reset. -/
  | pllLockLoss
  /-- JTAG_INSTRUCTION_LOAD (R382): Loading EXTEST, EXTEST_PULSE, EXTEST_TRAIN, CLAMP or HIGHZ latches and holds a cold reset. instr is the instruction; cells are what it puts into the boundary-scan cells, by ball (R381). -/
  | jtagInstructionLoad (withPor : Bool) (instr : TapInstr := .extest) (cells : List (Nat × Bool) := [])
  /-- JTAG_TEST_LOGIC_RESET (R382): Entering Test-Logic-Reset releases a held scan reset and cast-on begins. -/
  | jtagTestLogicReset (bootsel : Fin 4)
  /-- VBAT_LOSS (R307): VBAT falling below 1.6 V while VIO18 is off leaves the vault retention RAM contents unspecified, to be found by their CRCs at the next step 2. -/
  | vbatLoss
  /-- PCIE_CONFIG_WRITE (R282): A PCIe configuration write to a port changes its power state (D0 or D3hot), Bus Master Enable or Max_Payload_Size, which govern whether and how the port answers and writes. -/
  | pcieConfigWrite (p : Fin 2) (w : ConfigWrite)
deriving DecidableEq, Repr

end Sys2Proof
end

