-- ==== Sys2Proof/Decode.lean ====
section
/-!
DEFINITION. The command that a word of spec/opcode_table.json spells. No row of the table gives bits: the block takes commands,
not words.
-/

namespace Sys2Proof

/-- The command spelled by a word, for the rows that give bits: there are none. -/
def decodeTableWord (_nbits _w : Nat) : Option Instr := none

end Sys2Proof
end

