-- ==== Sys2Proof/Machine/State.lean ====
section
/-!
DEFINITION. The state of the block: every register (R8, R33) in one sparse map, DRAM, and beside them what the spec gives the
engines behind the registers, chapter by chapter; then the faults and refusals, and the state after reset.
All of it is plain data. Every field of a structure stands at its reset value as its default.
-/

namespace Sys2Proof.Machine

/-! ### Posted events and outputs -/

/-- An event as posted (R289, R290): its code, the ports it is addressed to, the beat it names, STEPS when it was posted and
its payload, packed from byte 16. -/
structure Ev where
  code : Nat
  p0 : Bool
  p1 : Bool
  beat : Nat
  steps : Nat
  payload : List Byte
deriving DecidableEq, Repr, Inhabited

/-- How an access is answered (R31, R253). -/
inductive Answer where
  | ok
  /-- Unsupported Request. -/
  | ur
  /-- Completer Abort. -/
  | ca
  /-- Error response to an internal master. -/
  | err
  /-- Completion with the poisoned bit. -/
  | poisoned
deriving DecidableEq, Repr, Inhabited

/-- What an output stage puts on a head link besides frames (R180, R181, R200, R201, R207). -/
inductive Signal where
  | idle
  | bursts (gen : Nat)
  | training (bytes : List Byte)
  | inhibit
  | sleep
  | wake
  | prbs
deriving DecidableEq, Repr, Inhabited

/-- How a PTP message is addressed (R85): IEEE 802.3 with EtherType 0x88F7 and a destination MAC address, the first byte most significant, or
UDP over IPv4 with its destination and source addresses and its port. -/
inductive PtpNet where
  | l2 (etherType dst : Nat)
  | udp (dst src port : Nat)
deriving DecidableEq, Repr, Inhabited

/-- The two switches of a servo phase in one PWM period (R333), in ns from its centre: the high side conducts within the first pair of
times, the low side outside the second; without a pair the switch is off. -/
structure Gate where
  high : Option (Int × Int)
  low : Option (Int × Int)
  /-- The low side does not conduct before this time of the period (R333). -/
  lowFrom : Int := -10000
deriving DecidableEq, Repr, Inhabited

/-- What the device sends to the outside. The trace of these is the model's own field (log entry 2): no rule reads it. -/
inductive Out where
  /-- The completion of a read, with its data. -/
  | completion (m : Master) (a : Answer) (data : List Byte)
  /-- A posted write that was dropped, logged through AER as non-fatal (R31, R254); `poisoned` is an Uncorrectable Internal
  Error. -/
  | aer (p : Fin 2) (a : Answer)
  /-- A posted memory write into host memory (R283). -/
  | pcieWrite (p : Fin 2) (addr : Nat) (data : List Byte)
  /-- An MSI-X message (R291): the vector, and the address and data that its table entry gives. -/
  | msix (p : Fin 2) (vector addr data : Nat)
  /-- A frame on a head link: the SOF's device time in 2^-16 ns, and the frame's bytes, CRC included. -/
  | frame (l : Fin 32) (t : Nat) (bytes : List Byte)
  | signal (l : Fin 32) (s : Signal)
  /-- A PTP message: the source MAC address, how it is addressed, message type 0 Sync .., sequence number, transmit stamp in 2^-16 ns. -/
  | ptp (e : Fin 2) (mac : Nat) (net : PtpNet) (kind : Nat) (seq : Nat) (stamp : Nat) (info : Nat)
  | datagram (e : Fin 2) (bytes : List Byte)
  | i2c (k : Fin 2) (dev reg : Nat) (read : Bool) (count data speed : Nat)
  /-- A chopping period of a stepper's phase (R319): the target current that ends the drive, and in 1/256 how much of the time left then
  the bridge is reversed before it decays slowly. -/
  | phase (n : Fin 4) (ph : Fin 2) (current : Int) (fast : Nat)
  /-- A servo axis's bridge: the three duties, or off (-1) or shorted (0), and how its switches conduct about the PWM centre (R333). -/
  | duty (a : Fin 2) (u v w : Int) (gates : List Gate)
  /-- What TDO shifts out first of a data register of some bits (R381). -/
  | tdo (bits value : Nat)
deriving DecidableEq, Repr, Inhabited

/-! ### Register access (chapter 2) -/

/-- What a master's last register access leaves behind it (R30, R75): the register whose low word it read with the high word
latched then, and its TB_NOW_FRAC latch. -/
structure BusLatch where
  held : Option (Nat × Nat) := none
  frac : Nat := 0
deriving DecidableEq, Repr, Inhabited

/-- The latches of the three masters (R30). Log entry 169 (DESIGN CHOICE). -/
structure Bus where
  p0 : BusLatch := {}
  p1 : BusLatch := {}
  internal : BusLatch := {}
deriving DecidableEq, Repr, Inhabited

/-! ### The Pattern (chapter 3) -/

/-- A region of the WORLDS section: address bits [39:21], size in 2 MiB units, Secure. -/
structure Region where
  base : Nat
  size : Nat
  secure : Bool
deriving DecidableEq, Repr, Inhabited

structure Worlds where
  block : Nat := 0
  port : Nat := 0
  master : Nat := 0
  regions : List Region := []
deriving DecidableEq, Repr, Inhabited

structure DramSec where
  speed : Nat := 3
  ranks : Nat := 1
  density : Nat := 0
  ppr : Bool := false
  scrubHours : Nat := 12
  rebuildMbps : Nat := 1000
deriving DecidableEq, Repr, Inhabited

structure ArbSec where
  cls : Nat := 0
  starveN : Nat := 2
  holdMax : Nat := 64
  slots0 : List Nat := []
  slots1 : List Nat := []
deriving DecidableEq, Repr, Inhabited

structure LinkSec where
  enable : Bool := false
  genMax : Nat := 1
  genMin : Nat := 1
  warn : Bool := false
deriving DecidableEq, Repr, Inhabited

/-- A head entry: row A's offset in 2^-16 lines, row B's spacing in 2^-16 lines. -/
structure HeadSec where
  link : Nat := 0
  rank : Nat := 0
  firstCol : Nat := 0
  rowA : Int := 0
  rowB : Nat := 0
deriving DecidableEq, Repr, Inhabited

structure Gauge where
  dual : Bool := false
  fine : Bool := false
  maxRate : Nat := 1
  lpi : Nat := 1200
  selvedge : Nat := 0
  windowLines : Nat := 1024
  windowBase : Nat := 0
  heads : List HeadSec := []
deriving DecidableEq, Repr, Inhabited

structure CamSec where
  lanes : Nat := 4
  dataType : Nat := 0x2C
  pixels : Nat := 1
  firstCol : Nat := 0
  frameLines : Nat := 1024
  webOffset : Nat := 1
deriving DecidableEq, Repr, Inhabited

structure InspectSec where
  camMask : Nat := 0
  nzh : Bool := false
  stages : List Nat := []
  cams : List CamSec := []
deriving DecidableEq, Repr, Inhabited

structure ServoSec where
  enable : Bool := false
  feedback : Nat := 0
  commutation : Nat := 0
  stages : List Nat := []
deriving DecidableEq, Repr, Inhabited

structure TimeSec where
  guard : Bool := false
  domain : Nat := 0
  ports : Nat := 3
  speed : List Nat := [2, 2]
  jumpMax : Nat := 0
deriving DecidableEq, Repr, Inhabited

structure PolicyEnt where
  action : Nat := 0
  maxAttempts : Nat := 1
  alt : Nat := 0
deriving DecidableEq, Repr, Inhabited

structure Budget where
  pe : Nat := 0
  las : Nat := 0
  ins : Nat := 0
  nzh : Nat := 0
  slots : Nat := 0
deriving DecidableEq, Repr, Inhabited

/-- The sections of an image (R39); an optional section absent takes the default its row gives. -/
structure Pattern where
  rollback : Nat := 0
  id : Nat := 0
  fabric : List (Nat × Nat) := []
  worlds : Worlds := {}
  dram : DramSec := {}
  arb : ArbSec := {}
  links : List LinkSec := List.replicate 32 {}
  gauge : Gauge := {}
  inspect : InspectSec := {}
  servo : List ServoSec := List.replicate 2 {}
  time : TimeSec := {}
  policy : List PolicyEnt := List.replicate 16 {}
  budget : Budget := {}
deriving DecidableEq, Repr, Inhabited

/-- A verification in progress: of a full image (from the mailbox) or of a re-pattern image, and who wrote GO. -/
structure Verify where
  repattern : Bool := false
  by0 : Bool := false
  by1 : Bool := false
  /-- Verification steps 1 to 10 done; what step 11 found (R55). -/
  checked : Bool := false
  passed : Bool := false
  /-- Beats since reset when step 11 ran: the image applies at a later boundary (R57). -/
  beat : Nat := 0
  /-- The image's own sections, once checked. -/
  gauge : Option Gauge := none
  inspect : Option InspectSec := none
  budget : Budget := {}
deriving DecidableEq, Repr, Inhabited

structure Pat where
  /-- A full image is applied (R51). -/
  applied : Bool := false
  loaded : Pattern := {}
  /-- The staging area, a sparse list of its nonzero bytes. -/
  staging : List Host.Cell := []
  verify : Option Verify := none
  /-- Pages and cues are held (R56). -/
  hold : Bool := false
deriving DecidableEq, Repr, Inhabited

/-! ### Resets, cast-on and bind-off (chapter 4) -/

inductive ResetKind where
  | warm | cold | power
deriving DecidableEq, Repr, Inhabited

/-- A reset being performed: its kind and cause code, how far R62 has come (0 latched, 1 DRAM in self-refresh, 2 firing silenced,
3 logic reset asserted), and whether PORn or a scan instruction holds it (R377, R382). -/
structure ResetRun where
  kind : ResetKind := .power
  cause : Nat := 1
  stage : Nat := 3
  porn : Bool := false
  scan : Bool := false
  /-- A supply, or a PLL that counts as one, is out of its range (R59, R376, R380). -/
  supply : Bool := false
deriving DecidableEq, Repr, Inhabited

/-- A held or running bind-off (R70, R71). -/
structure BindOff where
  running : Bool := false
  step : Nat := 0
  abortPage : Bool := false
  noCap : Bool := false
deriving DecidableEq, Repr, Inhabited

inductive FuncState where
  | off | starting | on | stopping | wedged
deriving DecidableEq, Repr, Inhabited

/-- A function under R72: its state and the kept request. -/
structure FuncSt where
  st : FuncState := .off
  kept : Option Bool := none
deriving DecidableEq, Repr, Inhabited

structure Sys where
  reset : Option ResetRun := none
  /-- Cast-on runs: the step is in SYS_CASTON_STAT. -/
  castOn : Bool := false
  done : Bool := false
  bootsel : Nat := 0
  /-- RWL fields are locked (R8, R63 step 16). -/
  locked : Bool := false
  /-- An automatic reset is due (R68): its kind. -/
  autoReset : Option ResetKind := none
  /-- CLEAR was written: the log is cleared at the next cast-on (R69). -/
  clearLog : Bool := false
  bindOff : Option BindOff := none
  funcs : List (Func × FuncSt) := []
  /-- ERR_OUTn is asserted (R64, R366). -/
  errOut : Bool := true
  /-- A function of class HALT is WEDGED (R364, R366). -/
  halted : Bool := false
  /-- The kind of the reset that this cast-on follows. -/
  lastKind : ResetKind := .power
  /-- The rails that are out of their ranges (R376). -/
  railsOut : List Rail := []
deriving DecidableEq, Repr, Inhabited

/-! ### Device time (chapter 5) -/

/-- A master heard through Announce (R84). -/
structure Foreign where
  port : Fin 2 := 0
  msg : Announce := {}
  /-- Beats since reset when its last Announce came. -/
  at' : Nat := 0
deriving DecidableEq, Repr, Inhabited

/-- One Ethernet port's PTP state: times are in 2^-16 ns. -/
structure PtpPort where
  /-- A two-step Sync waiting for its Follow_Up: the message and its receive stamp. -/
  sync : Option (SyncMsg × Nat) := none
  /-- The last complete Sync: receive stamp, and master time with corrections added. -/
  t1 : Int := 0
  t2 : Int := 0
  /-- The last Delay_Req sent: sequence number and transmit stamp. -/
  delayReq : Option (Nat × Nat) := none
  /-- The last Pdelay_Req sent: sequence number and transmit stamp. -/
  pdelayReq : Option (Nat × Nat) := none
  /-- A Pdelay_Resp waiting for its Follow_Up: receive stamp, request receipt time, correction. -/
  pdelayResp : Option (Nat × Int × Int) := none
  /-- Mean path delay or peer delay. -/
  delay : Int := 0
  seqD : Nat := 0
  seqP : Nat := 0
  /-- The interval the master's Delay_Resp requests, log2 s. -/
  delayLog : Int := 0
deriving DecidableEq, Repr, Inhabited

structure Tmb where
  /-- The accumulator of R75, in 2^-32 ns. -/
  acc : Nat := 0
  running : Bool := false
  /-- Time passed since reset by the timebase clocks, in 2^-32 ns: no step moves it, and it runs while the accumulator stands at 0. -/
  ran : Nat := 0
  /-- Opening time of the beat in progress, ns, and where it ends if it is not the next multiple of 4,000 (R81). -/
  openT : Nat := 0
  stepEnd : Option Nat := none
  /-- The device stands at the opening boundary: no timebase clock has passed since. -/
  atOpen : Bool := false
  /-- Beats since reset, a stepped beat counting as one (R81). -/
  beats : Nat := 0
  /-- PTP is enabled (R89). -/
  ptp : Bool := false
  /-- Integrator i of R88, in 2^-48 ppb. -/
  integ : Int := 0
  good : Nat := 0
  bad : Nat := 0
  hold : Nat := 0
  /-- The pending step: movement in 2^-16 ns, and whether a host wrote it. -/
  step : Option (Int × Bool) := none
  deferred : Bool := false
  /-- TB_STEP as last written, word by word (R30). -/
  stepReg : Nat := 0
  heard : List Foreign := []
  selected : Option Foreign := none
  lastSel : Option (Fin 2 × PortId) := none
  /-- A step has been applied and the heads have not all realigned (R81). -/
  unaligned : Bool := false
  /-- A usable Sync has come from the selected master (R86). -/
  synced : Bool := false
  ports : List PtpPort := [{}, {}]
deriving DecidableEq, Repr, Inhabited

/-! ### Web tracking (chapter 6) -/

/-- A quadrature channel: the levels of A and B (pulled down at reset, R374), the stamps of its last illegal transitions,
newest first, and the stamp of its last count. -/
structure Quad where
  level : Bool × Bool := (false, false)
  illegal : List Nat := []
  last : Nat := 0
  prev : Nat := 0
  /-- Counts in all, whatever the index cleared (R335). -/
  total : Int := 0
  /-- Stamp of the last latched index edge since the servo tick looked, and the counts in all at it (R348). -/
  index : Option (Nat × Int) := none
deriving DecidableEq, Repr, Inhabited

/-- A predicted crossing (R104): time in quarter nanoseconds. -/
structure Crossing where
  head : Nat
  row : Nat
  line : Int
  q : Nat
deriving DecidableEq, Repr, Inhabited

/-- A row of the gauge: its offset in 2^-32 lines, and its next line (R104). -/
structure RowSt where
  head : Nat
  row : Nat
  off : Int
  next : Int
deriving DecidableEq, Repr, Inhabited

/-- Observer values at a boundary: time, beats since reset, x, v, a. -/
structure ObsSnap where
  t : Nat
  beats : Nat
  x : Int
  v : Int
  a : Int
deriving DecidableEq, Repr, Inhabited

/-- An occurrence of a position compare entry that has been emitted (R109): its time and position, the MARK pins that it is
still to pulse and for how long, and the cameras that it is still to trigger. -/
structure Occur where
  entry : Nat
  t : Nat
  pos : Int
  mask : Nat
  width : Nat
  cams : Nat
deriving DecidableEq, Repr, Inhabited

/-- A MARK pulse (R110). -/
structure Pulse where
  mask : Nat
  t : Nat
  stop : Nat
deriving DecidableEq, Repr, Inhabited

structure Web where
  quads : List Quad := List.replicate 4 {}
  /-- Stamp of the last F0 step. -/
  f0Last : Nat := 0
  /-- Cast-on step 13 has seen no QUAD_FAULT on the web source since (R63). -/
  watch : Nat := 0
  started : Bool := false
  /-- Measured position of R96, and the high-water mark, in 2^-32 lines. -/
  pm : Int := 0
  hw : Int := 0
  x : Int := 0
  v : Int := 0
  a : Int := 0
  ts : Nat := 0
  /-- Legal edges on the web source not yet used: stamp and pm. -/
  edges : List (Nat × Int) := []
  lastEdge : Nat := 0
  lastPm : Int := 0
  /-- Legal edges since STILL, and the first of them. -/
  count : Nat := 0
  first : Nat × Int := (0, 0)
  /-- COASTING: x at entry, edge stamps, the last illegal transition, whether exhaustion was posted. -/
  coastX : Int := 0
  coastEdges : List Nat := []
  lastQerr : Nat := 0
  exhausted : Bool := false
  /-- D rose above REV_LIMIT and WEB_REVERSED has not been posted for it (R102). -/
  revOver : Bool := false
  revDue : Bool := false
  snaps : List ObsSnap := []
  rows : List RowSt := []
  /-- Crossings predicted at the last boundary. -/
  pred : List Crossing := []
  /-- SOFT cues written and not yet accepted: their stamps. -/
  soft : List Nat := []
  /-- The previous accepted page: S and L. -/
  prevPage : Option (Int × Nat) := none
  /-- uid of the last accepted page. -/
  lastPage : Nat := 0
  /-- Accepted cues (R235 counts them). -/
  cues : Nat := 0
  /-- Position compare: j of each entry that is not 0. -/
  cmpJ : List (Nat × Nat) := []
  /-- Occurrences emitted whose MARK pulse or trigger is still to come, by time, and pulses that are high. -/
  occ : List Occur := []
  pulses : List Pulse := []
  /-- MARK7 to MARK0. -/
  mark : BitVec 8 := 0
deriving DecidableEq, Repr, Inhabited

/-! ### Spool codec (chapter 7) -/

/-- A page from its descriptor's acceptance to the end of its lines (R107, R114). -/
structure Page where
  uid : Nat := 0
  addr : Nat := 0
  pageId : Nat := 0
  lines : Nat := 1
  mask : Nat := 0
  check : Bool := false
  bands : Nat := 1
  table : Nat := 0
  tag : Nat := 0
  port : Option (Fin 2) := none
  /-- S once a cue has taken the page. -/
  start : Option Int := none
  inProgress : Bool := false
  /-- Queued while a re-pattern runs (R56). -/
  held : Bool := false
  suspect : Bool := false
  /-- Cued while the internal inhibit was asserted, or with a stamp before tr: it prints blank (R365). -/
  blank : Bool := false
  webSuspect : Bool := false
  decoded : Bool := false
  /-- Per strip: bands begun, bands complete, next page line to write. -/
  begun : List Nat := List.replicate 16 0
  complete : List Nat := List.replicate 16 0
  written : List Nat := List.replicate 16 0
  /-- Strips whose band 0 is complete and passed its check. -/
  ready : Nat := 0
deriving DecidableEq, Repr, Inhabited

inductive BandResult where
  | ok | expansion | short | badHeader | badCode | access | mem | crc
deriving DecidableEq, Repr, Inhabited

/-- A band buffer (R125): the band it holds, and once complete its content. -/
structure Buf where
  strip : Nat
  lane : Nat
  uid : Nat
  band : Nat
  done : Bool := false
  /-- Waiting for the spare's second decode (R128). -/
  again : Bool := false
  /-- OUT_CRC of the band. -/
  crc : Nat := 0
  data : List Byte := []
deriving DecidableEq, Repr, Inhabited

/-- What the line window holds of one page in one strip (R139): lines lo to hi - 1, of which those below `old` were written
before the opening boundary of the beat in progress. -/
structure WinSeg where
  uid : Nat
  lo : Int
  hi : Int
  old : Int
  noInk : Bool
deriving DecidableEq, Repr, Inhabited

/-- An encode job (R131 to R133): its whole output, and where it is being put. -/
structure EncJob where
  tag : Nat := 0
  port : Option (Fin 2) := none
  secure : Bool := true
  input : List Byte := []
  mode : Bool := false
  /-- The source read failed after `input`. -/
  failed : Bool := false
  /-- The source, while its read waits for the memory front (R266). -/
  source : Option (Nat × Nat) := none
  stream : List Byte := []
  bits : Nat := 0
  done : Nat := 0
  /-- Descriptor of the buffer in use; the one before it, to read NEXT again. -/
  desc : Option Nat := none
  last : Option Nat := none
deriving DecidableEq, Repr, Inhabited

structure Cdc where
  /-- CD_PAGE_PUSH as last written. -/
  push : Nat := 0
  reading : List (Nat × Option (Fin 2)) := []
  nextUid : Nat := 1
  /-- Pages queued and pages taken, in arrival order. -/
  pages : List Page := []
  bufs : List Buf := []
  /-- Window contents, one list per strip. -/
  win : List (List WinSeg) := List.replicate 16 []
  /-- The segments counted late (R127). -/
  lateSeen : List (Int × Nat) := []
  enc : List EncJob := List.replicate 4 {}
deriving DecidableEq, Repr, Inhabited

/-! ### Line assembly (chapter 8) -/

/-- One window read of a slice: the strip, whether it is of the pair line (R239), and what it returned: nothing yet, a
segment, or a zeroed segment. -/
structure SegRead where
  strip : Nat
  pair : Bool
  done : Bool := false
  data : List Byte := []
deriving DecidableEq, Repr, Inhabited

/-- A slice being built for one engine (R142, R144). -/
structure Slice where
  en : Nat
  head : Nat
  row : Nat
  line : Int
  q : Nat
  out : Bool := false
  swatch : Option Nat := none
  late : Bool := false
  lost : Bool := false
  segs : List SegRead := []
deriving DecidableEq, Repr, Inhabited

/-- A committed set of margin, mode and mask (R148). -/
structure BlendSet where
  first : Nat := 0
  last : Nat := 0xFFFF
  ramp : Bool := true
  mask : List Nat := (List.range 256).map fun e =>
    let y := e / 16
    let a := Nat.xor (e % 16) y
    (List.range 4).foldl (fun m t => m + (a / 2 ^ t % 2) * 2 ^ (7 - 2 * t) + (y / 2 ^ t % 2) * 2 ^ (6 - 2 * t)) 0
deriving DecidableEq, Repr, Inhabited

/-- What a switch point changes (R148, R241). -/
inductive Change where
  | host (v : Int)
  | auto (v : Int)
  | blend (s : BlendSet)
  /-- A substitution entry with APPLY = NEXT_PAGE: nozzle, the entry before its point is known, new entry, audit source and
  kind, h and d of the verdict. -/
  | subst (nz old entry source kind : Nat) (hit : Nat) (defl : Int)
deriving DecidableEq, Repr, Inhabited

/-- A change under R148: written in a beat, its switch point once known; NEXT_LINE, and whether it is held as a ninth. -/
structure Switch where
  what : Change
  nextLine : Bool
  beat : Nat
  held : Bool := false
  point : Option Int := none
  /-- Every row has passed the point; the change stays listed until no line below it can be read again. -/
  passed : Bool := false
deriving DecidableEq, Repr, Inhabited

/-- A swatch placed in a page (R150): its first line, lines, STEP, SIZE and whose it is. -/
structure Swatch where
  uid : Nat
  first : Int
  lines : Nat
  step : Nat
  size : Nat
  nzh : Bool
  read : Bool := false
deriving DecidableEq, Repr, Inhabited

/-- The shift, margin, mode and mask of every line: switch points in the order in which the changes were written, and values below
every point (R148). -/
structure Points where
  switches : List Switch := []
  host : Int := 0
  auto : Int := 0
  blend : BlendSet := {}
deriving DecidableEq, Repr, Inhabited

structure Las where
  /-- Slices of the beat in progress. -/
  slices : List Slice := []
  /-- Switch points, in the order in which the changes were written; values below every point. -/
  switches : List Switch := []
  host : Int := 0
  auto : Int := 0
  blend : BlendSet := {}
  /-- Highest LINE# of any slice built so far (R148). -/
  highest : Option Int := none
  /-- ARM was written in this beat or an earlier one: the beat of the write. -/
  armBeat : Option Nat := none
  armNzh : Bool := false
  swatches : List Swatch := []
  /-- The switch points as they stood at the opening boundary (R18). -/
  opened : Points := {}
  /-- Cause bits by head at the opening boundary (R146). -/
  causes : List Nat := []
  /-- Heads out when lines were built: head * 2 + row, the first line of a run, the line that would continue it, the heads. -/
  outs : List (Nat × Int × Int × Nat) := []
deriving DecidableEq, Repr, Inhabited

/-! ### Pace engines and the output stages (chapters 9 and 10) -/

/-- A drive-code line handed over (R169). -/
structure Line where
  en : Nat
  head : Nat
  row : Nat
  line : Int
  q : Nat
  fine : Bool := false
  codes : List Nat := []
  good : Bool := true
  crc : BitVec 32 := 0
  late : Bool := false
  lost : Bool := false
  swatch : Bool := false
  /-- The slice carried OUT. -/
  out : Bool := false
deriving DecidableEq, Repr, Inhabited

/-- A line selected by an output stage (R173): waiting, sent, or given up. -/
structure TxLine where
  head : Nat
  row : Nat
  line : Int
  q : Nat
  fine : Bool := false
  codes : List Nat := []
  waiting : Bool := true
  dropped : Bool := false
  committed : Bool := false
  /-- Neither the blank line nor a line that carried OUT (R223). -/
  real : Bool := false
  /-- Beat count of its commit. -/
  beat : Nat := 0
deriving DecidableEq, Repr, Inhabited

/-- A head's temperature state beside HL_TEMP_STAT (R160 to R164). -/
structure HeadTemp where
  report : Option Int := none
  /-- The states of R161 are in force: from cast-on step 12 on. -/
  live : Bool := false
  /-- A report has come since the head was last found stale. -/
  fresh : Bool := false
  /-- TIMEOUT has passed since the last report (R161). -/
  overdue : Bool := false
  sResume : Option Int := none
  /-- Cool at the opening boundary of the beat in progress (R162). -/
  cool : Bool := false
  /-- An accepted cue: the beat count of the boundary that opens C + 1, and S. -/
  cue : Option (Nat × Int) := none
  tail : Option Int := none
deriving DecidableEq, Repr, Inhabited

structure Pace where
  /-- Crossings of the beat in progress, received at its opening boundary. -/
  crossings : List Crossing := []
  /-- Lines handed over in the beat in progress, and in the beat before it. -/
  handed : List Line := []
  before : List Line := []
  /-- Lines selected at the opening boundary, to commit at the closing one. -/
  tx : List TxLine := []
  /-- 4-bit histories that are not 0, by N# (R154). -/
  hist : List (Nat × Nat) := []
  /-- Lines printed (R223): head * 2 + row, the first line of a run, and the line that would continue it. -/
  printed : List (Nat × Int × Int) := []
  /-- Beat count of each row's last commit, by head * 2 + row. -/
  commits : List (Nat × Nat) := []
  /-- Trim table in use: words that are not 0x8888_8888. -/
  trim : List (Nat × Nat) := []
  /-- Beat counts of each engine's check failures within the last 1,024 beats. -/
  failsA : List Nat := []
  failsB : List Nat := []
  /-- Beats since an engine last built a line; a line was built in the beat in progress. -/
  idle : Nat := 4
  built : Bool := false
  /-- The internal inhibit is asserted: FIRE_INHIBITn is pulled down at reset (R374, log entry 12). A reset holds it. -/
  inhibit : Bool := true
  resetInhibit : Bool := false
  /-- The instant the inhibit ended while firing has not resumed (R178). -/
  released : Option Nat := none
  /-- tr of the last release (R178, R365). -/
  freed : Option Nat := none
  /-- Lines below this LINE# stay blank (R178). -/
  floor : Option Int := none
  /-- The inhibit order has not been withdrawn yet (R199). -/
  order : Bool := true
  temps : List HeadTemp := List.replicate 32 {}
deriving DecidableEq, Repr, Inhabited

/-! ### Host ports and Ethernet ports (chapter 16) -/

/-- A snapshot copy (R294): requested at a beat count, then running on an epoch. -/
structure SnapJob where
  armed : Option Nat := none
  running : Bool := false
  epoch : Nat := 0
  beat : Nat := 0
  dram : Bool := false
  dest : Nat := 0
  sets : Nat := 0
  nozzle : Bool := false
deriving DecidableEq, Repr, Inhabited

/-- An entry of the MSI-X table (R281, R291): message address and data, vector control, and its bit of the Pending Bit Array. Log entry 195
(PRESUMED). -/
structure MsixEntry where
  addr : Nat := 0
  data : Nat := 0
  masked : Bool := true
  pending : Bool := false
deriving DecidableEq, Repr, Inhabited

/-- A host port: its configuration space (R281, R282), the event queue and the copy of its own (R284, R286). -/
structure HostPort where
  /-- The level of PERSTn, which is pulled down (R373). -/
  perst : Bool := false
  /-- What the host wrote to BAR0, BAR2 and BAR4. -/
  bars : List Nat := [0, 0, 0]
  /-- MSI-X Enable and Function Mask, and the table's two entries. -/
  msixOn : Bool := false
  msixMask : Bool := false
  msix : List MsixEntry := List.replicate 2 {}
  /-- The Uncorrectable Error Status of Advanced Error Reporting. -/
  aerStatus : Nat := 0
  d3hot : Bool := false
  busMaster : Bool := false
  /-- Max_Payload_Size in bytes; 128 until a host programs it (log entry 8). -/
  maxPayload : Nat := 128
  /-- Events waiting on chip (R289), with their SEQ. -/
  queue : List (Nat × Ev) := []
  seq : Nat := 0
  /-- Events were lost since the last entry written. -/
  lost : Bool := false
  /-- The ring in use: its address and size (R288). -/
  base : Nat := 0
  log : Nat := 10
  /-- Beat count until which vector 0 is moderated, and whether entries were written since (R291). -/
  modUntil : Nat := 0
  modDue : Bool := false
  snap : SnapJob := {}
deriving DecidableEq, Repr, Inhabited

/-- An upload job (R297, R298). -/
structure Upload where
  running : Bool := false
  host : Option (Fin 2) := none
  secure : Bool := true
  src : Nat := 0
  len : Nat := 0
  sent : Nat := 0
  tag : Nat := 0
deriving DecidableEq, Repr, Inhabited

structure Hst where
  ports : List HostPort := List.replicate 2 {}
  uploads : List Upload := List.replicate 2 {}
  /-- A flip was requested (R34). -/
  flip : Bool := false
  /-- Beat that began the epoch in force. -/
  epochBeat : Nat := 0
deriving DecidableEq, Repr, Inhabited
/-! ### Fuses and the vault domain (chapter 17) -/

/-- A fuse group, content and CRC in three copies each (R302). -/
structure Fuse where
  c0 : Nat := 0
  c1 : Nat := 0
  c2 : Nat := 0
  k0 : Nat := 0
  k1 : Nat := 0
  k2 : Nat := 0
deriving DecidableEq, Repr, Inhabited

/-- The fuses (R302), blank where the part's own programming is not modelled (log entry 3). -/
structure Fuses where
  serial : Fuse := {}
  mac : Fuse := {}
  rootHash : Fuse := {}
  headRoot : Fuse := {}
  deviceKey : Fuse := {}
  cert : Fuse := {}
  slots : List Fuse := List.replicate 16 {}
  repair : Fuse := {}
deriving DecidableEq, Repr, Inhabited

structure Vlt where
  /-- Kept by every reset: the retention RAM (its bytes that are not 0), the tamper latch with its first cause, the fuses. -/
  ram : List (Nat × Byte) := []
  tamper : Nat := 0
  fuses : Fuses := {}
  /-- The fuses as cast-on read them: what is in effect (R304, R305). -/
  used : Fuses := {}
  /-- Words of VLT_HEAD_ROOT as staged. -/
  headStage : List Nat := [0, 0, 0, 0]
  /-- Programming that runs: the group and its value (R304), a slot and its value (R305), and who asked for a signature. -/
  prog : Option (Nat × Nat) := none
  advance : Option (Nat × Nat) := none
  attest : Option (Option (Fin 2)) := none
  attestMsg : List Byte := []
  /-- Groups that failed their CRC at the last step 2 (R308). -/
  lost : Nat := 0
  /-- USAGE words as step 2 found them, by link, until the link's head first passes (R317). -/
  restored : List (Nat × Nat) := []
deriving DecidableEq, Repr, Inhabited

/-! ### Head links (chapter 11) -/

/-- Where a head register request stands (R195, R197). -/
structure MgReq where
  write : Bool := false
  addr : Nat := 0
  count : Nat := 1
  data : List Nat := []
  sent : Bool := false
  tag : Nat := 0
  cancelled : Bool := false
deriving DecidableEq, Repr, Inhabited

/-- The head checks of R196 under way. Phase 0 and 1 read the registers, 2 the banks, 3 awaits the
authentication, 4 writes BANK_SEL, 5 is complete; `fail` is
the cause of R206's table of events, 0 for none. -/
structure HeadCheck where
  phase : Nat := 0
  bank : Nat := 0
  pos : Nat := 0
  crc : Nat := 0xFFFFFFFF
  fail : Nat := 0
  /-- BANK_SEL as last written. -/
  sel : Nat := 0
deriving DecidableEq, Repr, Inhabited

/-- An AUTH exchange (R315): a CHALLENGE, or a COUNT_UPDATE with its amount; frames sent so far, and whether one waits. -/
structure AuthEx where
  update : Bool := false
  nonce : Nat := 0
  amount : Nat := 0
  tries : Nat := 0
  waiting : Bool := true
deriving DecidableEq, Repr, Inhabited

/-- Step of the search for the widest eye on one tap (R203). -/
inductive EqDir where
  /-- The first measurement, before any step. -/
  | base
  | upFirst | up
  /-- Undo the first step up, then try down. -/
  | undo
  | downFirst | down
  /-- Return to the widest setting. -/
  | back
deriving DecidableEq, Repr, Inhabited

/-- The device's equalisation of the head's transmitter: taps in the order 0 post, 1 pre, 2 main, 3 all done. -/
structure EqSt where
  tap : Nat := 0
  dir : EqDir := .base
  best : Nat := 0
  /-- The request byte awaiting an answer, its answer was LIMIT, and unanswered sendings. -/
  req : Option Nat := none
  limited : Bool := false
  misses : Nat := 0
deriving DecidableEq, Repr, Inhabited

structure LinkSt where
  /-- TEST's own training stage: 0 wake, 1 align, 2 equalise, 3 PRBS31. -/
  testStage : Nat := 0
  rxLock : Bool := false
  headLocked : Bool := false
  headDone : Bool := false
  confirmBad : Bool := false
  eq : EqSt := {}
  reqSeq : Nat := 0
  /-- REQ_SEQ of the head's last request, and the ACK byte given to it. -/
  headSeq : Option Nat := none
  ack : Nat := 0
  /-- The device transmitter's last good taps by generation: pre, main, post. -/
  good : List (Nat × (Nat × Nat × Nat)) := []
  /-- Downstream SEQ. -/
  seq : Nat := 0
  /-- When the last frame sent has left, in 2^-16 ns. -/
  busy : Nat := 0
  beaconDue : Bool := false
  adjDue : Bool := false
  /-- FIRE_ADJ frames sent: EFFECTIVE beat and the rows' offsets in 0.25 ns, newest first. -/
  adj : List (Nat × Int × Int) := []
  /-- Beacons sent: low 16 bits of BEAT and t1 in 2^-16 ns, newest first. -/
  beacons : List (Nat × Nat) := []
  /-- The last accepted round trips, newest first, in 2^-16 ns; consecutive rejections. -/
  samples : List Int := []
  rejects : Nat := 0
  stepsSeen : Nat := 0
  lastDiscarded : Option Nat := none
  lastCrc : Option Nat := none
  /-- Beat counts of CRC errors within the last 1,024 beats. -/
  crcBeats : List Nat := []
  /-- Beat count of the last selection for a head of the link. -/
  lastSel : Nat := 0
  /-- Requesters P0, P1 and the device (R197); the one granted; the last one granted; the last TAG. -/
  reqs : List (Option MgReq) := [none, none, none]
  grant : Option Nat := none
  last : Nat := 2
  tag : Nat := 0
  check : Option HeadCheck := none
  /-- The checks of R196 have passed since the link became UP and since the last FRESH. -/
  checked : Bool := false
  /-- The checks of cast-on step 12 have ended badly. -/
  checkFailed : Bool := false
  /-- The ten words of the head's registers 0x0000 to 0x0009 as last read. -/
  ids : List Nat := List.replicate 10 0
  /-- HSERIAL has been read since the link became UP. -/
  named : Bool := false
  auth : Option AuthEx := none
  authDue : Bool := false
  updateDue : Bool := false
  /-- How the last authentication of a head of the link ended, until the next one ends: passed or failed (R314). -/
  verdict : Option Bool := none
deriving DecidableEq, Repr, Inhabited

/-! ### Inspection and nozzle health (chapters 12 and 13) -/

/-- A trigger of a camera (R213, R214): occurrence time and position, its strobe's times and level, the newest generation when it
was stamped and the one its strobe uses, CAPTURE, its beat. -/
structure Trig where
  t : Nat
  pos : Int
  start : Nat
  stop : Nat
  newest : Nat
  gen : Nat
  capture : Bool
  beat : Nat
  begun : Bool := false
  ended : Bool := false
  /-- A line has paired with it, or it was found missing. -/
  paired : Bool := false
deriving DecidableEq, Repr, Inhabited

/-- A valid camera line that waits for the pipeline (R216). -/
structure CamLine where
  slot : Nat
  pos : Int
  payload : List Byte
deriving DecidableEq, Repr, Inhabited

/-- A frame (R215) with its sums (R227). -/
structure Frame where
  number : Nat := 0
  gen : Nat := 0
  begun : Bool := false
  /-- m of its first line and of its last. -/
  first : Int := 0
  last : Int := 0
  startBeat : Nat := 0
  capture : Bool := false
  lines : Nat := 0
  invalid : Nat := 0
  excess : Nat := 0
  swatch : Bool := false
  suspect : Bool := false
  absent : Bool := false
  compared : Nat := 0
  sumM : Nat := 0
  sumE : Nat := 0
  sumAbs : Nat := 0
deriving DecidableEq, Repr, Inhabited

structure Cam where
  trigs : List Trig := []
  lastStop : Nat := 0
  /-- Triggers since the one that the next frame, or the frame open, starts with (R226). -/
  seq : Nat := 0
  trigGen : Nat := 0
  /-- STROBEc is active, and its active level is low. -/
  strobe : Bool := false
  low : Bool := false
  frame : Option Frame := none
  next : Nat := 0
  waiting : List CamLine := []
  /-- The generation of the last FRAME_APPLIED. -/
  applied : Option Nat := none
deriving DecidableEq, Repr, Inhabited

/-- A compared camera line (R225); entries by owned column: M, E, the column's own validity, and whether it is compared. -/
structure CompLine where
  cam : Nat
  m : Int
  swatch : Bool
  suspect : Bool
  absent : Bool
  along : Nat
  frame : Nat
  slot : Nat
  gen : Nat
  col0 : Nat
  ms : List Nat
  es : List Nat
  valid : List Bool
  cmp : List Bool
deriving DecidableEq, Repr, Inhabited

/-- An I2C transaction of a master (R212). -/
structure I2cJob where
  dev : Nat
  reg : Nat
  read : Bool
  count : Nat
  data : Nat
  /-- SPEED: 0 100 kHz, 1 400 kHz, 2 1 MHz. -/
  speed : Nat := 1
  held : Bool := false
deriving DecidableEq, Repr, Inhabited

structure Ins where
  cams : List Cam := List.replicate 8 {}
  /-- Newest settings generation, and the shadows of each generation still of use. -/
  gen : Nat := 0
  gens : List (Nat × List (Nat × Word)) := [(0, [])]
  pending : Option (List (Nat × Word)) := none
  /-- The newest generation has been used by a frame; generations replaced that no frame has used (R226). -/
  used : Bool := false
  unused : List Nat := []
  i2c : List (Option I2cJob) := [none, none]
  probing : Bool := false
  /-- The cameras that each master has yet to probe, the first one under way, and what the probes answered (R212). -/
  probe : List (List Nat) := [[], []]
  answers : List (Nat × Nat) := []
deriving DecidableEq, Repr, Inhabited

/-- Accumulators of a nozzle: readings, and sums of E or nothing, M, and M at its left and right. -/
structure Acc where
  n : Nat := 0
  e : Nat := 0
  m : Nat := 0
  l : Nat := 0
  r : Nat := 0
deriving DecidableEq, Repr, Inhabited

/-- A verdict (R232). -/
inductive Verdict where
  | missing | deflected | weak | healthy
deriving DecidableEq, Repr, Inhabited

/-- A change that NZH makes (R240, R241): nozzle, entry, SOURCE, KIND, h and d in 1/256. -/
structure NzChange where
  nz : Nat
  entry : Nat
  source : Nat
  kind : Nat
  hit : Nat
  defl : Int
  /-- The switch point of a NEXT_PAGE change. -/
  point : Option Int := none
deriving DecidableEq, Repr, Inhabited

structure Nzh where
  inbox : List CompLine := []
  acc : List (Nat × Acc) := []
  sw : List (Nat × Acc) := []
  /-- Quarantines (R243): the lowest and the highest column, and Q. -/
  quar : List (Nat × Nat × Int) := []
  changes : List NzChange := []
  /-- DROPPED nozzles whose RUN counts windows and not swatch verdicts (R233). -/
  byWindow : List Nat := []
  /-- Cameras that have delivered a line beyond each swatch, or closed a frame with its lines, by the swatch's page. -/
  beyond : List (Nat × Nat) := []
  /-- Entry changes applied in the beat in progress: how many, the first nozzle, its record's index (R244). -/
  changed : Nat × Nat × Nat := (0, 0, 0)
  /-- Accepted cues at the last arming by SWATCH_PAGES. -/
  cues : Nat := 0
  /-- Registration: T, AUTO and S0 as last sent; the along-web sums of the run: weighted and plain sums of M and of E. -/
  t : Int := 0
  auto : Int := 0
  s0 : Int := 0
  /-- Changes of AUTO on their way to line assembly, and the S0 on its way to the servo (R246). -/
  autoOut : List Int := []
  s0Out : Option Int := none
  alongM : Int := 0
  sumM : Int := 0
  alongE : Int := 0
  sumE : Int := 0
deriving DecidableEq, Repr, Inhabited

/-! ### DRAM channels and the memory front (chapters 14 and 15) -/

/-- A row with chip errors (R255): bank group, bank, row and its count. -/
structure DramRow where
  bg : Nat
  bank : Nat
  row : Nat
  count : Nat
deriving DecidableEq, Repr, Inhabited

/-- A lane of a rank: its table of rows, most recent first, the results of the retraining pass under way, its read and write
delay settings in 1/64 UI from what training found, and its interval in ms as a part of INTERVAL (R262). -/
structure LaneSt where
  rows : List DramRow := []
  pass : List Bool := []
  rdDelay : Int := 0
  wrDelay : Int := 0
  quick : Bool := false
  /-- When the lane's last pass began, in ns of time passed (R261). -/
  began : Option Nat := none
deriving DecidableEq, Repr, Inhabited

/-- A bank (R265): its 2-bit counter, the row last accessed, and whether that row is open. -/
structure BankSt where
  ctr : Nat := 2
  last : Option Nat := none
  isOpen : Bool := false
deriving DecidableEq, Repr, Inhabited

/-- A requester that waits or holds a grant: since when its age counts, in ns of time passed, the rank and the bank that the request names,
and the class that governs the request (R265, R269, R271). -/
structure Waiter where
  r : Nat
  since : Int := 0
  rank : Nat := 0
  bank : Nat := 0
  cls : Nat := 0
deriving DecidableEq, Repr, Inhabited

/-- A channel's arbiter (R269, R270, R273): the waiting requesters in queue order; the holder, since when and with which HOLD_MAX; the
grant count; the entry of the slot in progress, its opening and the requester in slot service; and for the beat the yields
(requester, first cause), the own slots that found their owner waiting, and the bytes moved in own slots (R276 to R278). Then what
R261 keeps of the pauses: the slot is a refresh slot without a REF, the lane after the last one retrained, when the last pause
began (in time passed) and in which beat, and until when it runs (in device time). -/
structure Arb where
  waiting : List Waiter := []
  holder : Option Waiter := none
  since : Nat := 0
  holdMax : Nat := 64
  grants : Nat := 0
  slot : Nat := 0x1F
  slotT : Nat := 0
  service : Option Nat := none
  yields : List (Nat × Nat) := []
  owned : List (Nat × Nat) := []
  moved : List (Nat × Nat) := []
  quiet : Bool := false
  turn : Nat := 0
  pausedAt : Nat := 0
  pausedIn : Option Nat := none
  pauseEnd : Nat := 0
deriving DecidableEq, Repr, Inhabited

/-- A granule that a requester has read and whose data its own command has not yet taken: the code words that came back
miscorrected (R252, R253). Log entry 178 (DEDUCED). -/
structure Fetch where
  rq : Nat
  g : Nat
  wrong : List Nat := []
deriving DecidableEq, Repr, Inhabited

/-- A request that the memory front holds (R63, R266): through BAR2, at the internal address it had when the port accepted it (R27), or the
reads with which an encode lane starts its job or looks for its next buffer. -/
inductive Held where
  | read (p : Fin 2) (addr len : Nat)
  | write (p : Fin 2) (addr : Nat) (data : List Byte)
  | encode (n : Nat)
deriving DecidableEq, Repr, Inhabited

structure Dram where
  /-- Lanes that are not as reset, by (channel * 2 + rank) * 11 + lane; banks by (channel * 2 + rank) * 32 + group * 4 + bank. -/
  lanes : List (Nat × LaneSt) := []
  banks : List (Nat × BankSt) := []
  /-- FORGET was written, by channel (R255). -/
  forget : List Bool := [false, false]
  /-- Devices that report a temperature above their range, by lane key (R263). -/
  tooHot : List Nat := []
  /-- The target of a speed change that runs. -/
  speed : Option Nat := none
  arbs : List Arb := [{}, {}]
  /-- A lane whose writes are urgent waits for stream data (R267). -/
  stream : Bool := false
  /-- What was read and not yet taken, and what the memory front holds, oldest first. -/
  fetched : List Fetch := []
  held : List Held := []
  /-- SWAP_BEAT as it stood when ARM was written (R274). -/
  swapAt : Option Nat := none
deriving DecidableEq, Repr, Inhabited


/-! ### Stepper axes and servo axes (chapters 18 and 19) -/

/-- Where a stepper axis is going (R322, R328): TARGET, a position of its own, or on without end. -/
inductive Goal where
  | target
  | at (p : Int)
  | openNeg
  | openPos
deriving DecidableEq, Repr, Inhabited

/-- A stepper axis beside its registers. -/
structure MotAxis where
  /-- The generator's state is up; its deceleration d; its speed in 1/25,000 microstep/s; the fractional microstep carried, in
  1/625,000,000. -/
  up : Bool := true
  d : Nat := 1
  v : Nat := 0
  frac : Nat := 0
  goal : Goal := .target
  /-- The held request (R323): GO (false) or HOME (true). -/
  held : Option Bool := none
  /-- HOME lay debounced active when HOME was last written (R328). -/
  homeOn : Bool := false
  /-- Microsteps scheduled: device time, positive or not. -/
  due : List (Nat × Bool) := []
  /-- Microsteps emitted, newest first, as far back as a switch stamp can reach, and the time of the last one. -/
  hist : List (Nat × Bool) := []
  last : Nat := 0
  /-- Homing (R328): microsteps of FAST_SEEK so far, P_edge, SEEK_MAX passed, the homing began on the switch, the switch was left,
  the axis has latched, and a SOFT_STOP ends it. -/
  seek : Nat := 0
  edge : Option Int := none
  noHome : Bool := false
  onSwitch : Bool := false
  left : Bool := false
  latched : Bool := false
  soft : Bool := false
  /-- Consecutive load estimates at or above LIMIT (R330). -/
  loads : Nat := 0
  /-- The current is IRUN; all four outputs are low since an OVERCURRENT stop. -/
  run : Bool := false
  low : Bool := false
  /-- The signs in which the phases are driven since their last periods began (R319). -/
  drive : List Int := [0, 0]
  /-- Device time at which the bridge check of cast-on step 15 began (R332). -/
  check : Option Nat := none
deriving DecidableEq, Repr, Inhabited

/-- The capping move (R331): its step, 0 to 4 (0 homes M0 and M1, 1 homes M2, 2 to 4 are the moves), whether the step's requests
have been made, and the host that wrote GO. -/
structure CapRun where
  step : Nat := 0
  issued : Bool := false
  port : Option (Fin 2) := none
deriving DecidableEq, Repr, Inhabited

structure Mot where
  axes : List MotAxis := List.replicate 4 {}
  cap : Option CapRun := none
  /-- Beats since reset at the last tick. -/
  tick : Option Nat := none
deriving DecidableEq, Repr, Inhabited

/-- What a servo axis's outputs do: all low, the three low sides on, or modulated. -/
inductive Bridge where
  | off | short | on
deriving DecidableEq, Repr, Inhabited

/-- A notch's four samples of memory (R344). -/
structure Biquad where
  x1 : Int := 0
  x2 : Int := 0
  y1 : Int := 0
  y2 : Int := 0
deriving DecidableEq, Repr, Inhabited

/-- How a phase of a servo bridge stood as a PWM period ended (R333): the low side on, and when the high side turned off, in ns from the end. -/
structure PhaseEnd where
  lowOn : Bool := false
  highOff : Int := -20000
deriving DecidableEq, Repr, Inhabited

/-- A servo axis beside its registers. The generator's p, v, a, d, j are in 2^-64 count per tick and its powers; y in 2^-16 count; i
and q in 2^-24 current unit. -/
structure SrvAxis where
  p : Int := 0
  v : Int := 0
  a : Int := 0
  dir : Int := 1
  ramp : Bool := false
  d : Nat := 1
  j : Nat := 1
  /-- TARGET and REG as taken at the tick; TARGET was written since the tick, or before it and its t not reached; the last requested target clamped. -/
  tgt : Int := 0
  reg : Int := 0
  fresh : Bool := false
  wrote : Bool := false
  clamped : Option Int := none
  y : Int := 0
  y1 : Int := 0
  y2 : Int := 0
  /-- This tick's sample is valid; consecutive missing samples. -/
  valid : Bool := true
  missing : Nat := 0
  /-- The Q count last taken. -/
  count : Int := 0
  /-- A encoder (R337): a frame is outstanding, requests since the last valid frame, the last valid POS and COUNT, a run of WARN. -/
  asked : Bool := false
  requests : Nat := 0
  frame : Option (Nat × Nat) := none
  warned : Bool := false
  i : Int := 0
  q : Int := 0
  sat : Bool := false
  /-- Coefficients of notch 1 and notch 2 in force, signed 2.30, and their states. -/
  coefs : List Int := [2 ^ 30, 0, 0, 0, 0, 2 ^ 30, 0, 0, 0, 0]
  n1 : Biquad := {}
  n2 : Biquad := {}
  /-- Commutation (R338 to R340): the legal sector, stamps of illegal transitions newest first, the angle and y set at the last
  change, y_align, alignment running. -/
  sector : Option Nat := none
  /-- The sector latched at the tick (R341). -/
  held : Option Nat := none
  illegal : List Nat := []
  change : Option (Nat × Int) := none
  yAlign : Int := 0
  aligning : Bool := false
  theta : Nat := 0
  /-- Plausibility (R349): consecutive ticks of FOLLOW, res in 2^-56 count. -/
  follow : Nat := 0
  res : Int := 0
  /-- y at the REFERENCE (R348). -/
  refFrom : Int := 0
  bridge : Bridge := .off
  /-- A CLEAR waits for its tick; its tick has come. -/
  clear : Bool := false
  clearing : Bool := false
  /-- Since the last plausibility test the Q channel has raised QUAD_FAULT, and a Hall change has contradicted y (R349). -/
  feedBad : Bool := false
  commBad : Bool := false
  /-- Current loop (R334): integrators, and the duties in force from the next centre. -/
  id : Int := 0
  iq : Int := 0
  duty : Int × Int × Int := (32768, 32768, 32768)
  /-- How each phase stood as its last PWM period ended (R333). -/
  carry : List PhaseEnd := [{}, {}, {}]
  /-- A current sampled at the last PWM centre exceeded OC_LIMIT (R334, R351). -/
  overLimit : Bool := false
  /-- The check of cast-on step 15 runs; it has found the feedback bad; y at its first sample (R353). -/
  checking : Bool := false
  checkBad : Bool := false
  checkFrom : Option Int := none
deriving DecidableEq, Repr, Inhabited

structure Srv where
  axes : List SrvAxis := List.replicate 2 {}
  /-- The tick has come and its stages have not run. -/
  due : Bool := false
  /-- Device time of the tick. -/
  tickT : Nat := 0
deriving DecidableEq, Repr, Inhabited

/-- The test access port (R381, R382): its instruction, and what the boundary-scan cells drive, by ball (row x 46 + column, from 0). TRSTn is
pulled down, so it starts in Test-Logic-Reset, with IDCODE. Log entry 161 (DESIGN CHOICE). -/
structure Tap where
  ir : TapInstr := .idcode
  cells : List (Nat × Bool) := []
deriving DecidableEq, Repr, Inhabited

/-! ### Trim and analog channels (chapter 20) -/

/-- A channel's record in the trim store (R356). -/
structure TrimRec where
  gain : Nat := 0x8000
  off : Int := 0
  quality : Nat := 0
  status : Nat := 0
deriving DecidableEq, Repr, Inhabited

/-- The factory trim (R357): the place in its order of the channel being measured, the records so far, the host that wrote GO,
whether it waits for a check to end, and the content being programmed. -/
structure TrimRun where
  place : Nat := 0
  recs : List (Nat × TrimRec) := []
  port : Option (Fin 2) := none
  waiting : Bool := false
  prog : Option Nat := none
deriving DecidableEq, Repr, Inhabited

structure Trm where
  /-- The one-time-programmable store, content and CRC in three copies (R356); every reset keeps it. -/
  store : Fuse := {}
  trim : Option TrimRun := none
  /-- The channel being checked and the spare that stands in; the next channel in turn. -/
  check : Option (Nat × Nat) := none
  next : Nat := 0
  /-- Channels that failed with no spare free; spares that failed (R361). -/
  failed : List Nat := []
  badSpares : List Nat := []
deriving DecidableEq, Repr, Inhabited

/-! ### The whole device -/

/-- To whom an event goes. -/
inductive Dest where
  /-- Every Secure port whose ring is enabled (R279). -/
  | secure
  | port (p : Fin 2)
  /-- Every Secure host, and one port besides. -/
  | secureAnd (p : Option (Fin 2))
  | nobody
deriving DecidableEq, Repr, Inhabited

/-- A count towards an event posted once per beat, and to whom its occurrences go. -/
structure Tally where
  code : Nat
  key : Nat
  dests : List Dest
  first : List Byte
  count : Nat
deriving DecidableEq, Repr, Inhabited

/-- Everything but the command queue. -/
structure Dev where
  /-- Registers that do not hold their reset value, by their offset in the register space. -/
  regs : List (Nat × Word) := []
  /-- The same, as they stood at the last opening boundary (R18: what takes effect at the next boundary is read here). -/
  regsOpen : List (Nat × Word) := []
  /-- Running deltas of SNAP fields that are not 0, by offset * 64 + low bit (R292). -/
  snapD : List (Nat × Int) := []
  /-- DRAM bytes that are not 0. -/
  mem : List Host.Cell := []
  /-- Uncorrectable code words, address / 16 (R253). -/
  ue : List Nat := []
  /-- What has been sent out: the model's own trace (log entry 2). -/
  out : List Out := []
  /-- Posted events not yet taken by EVENT_POST. -/
  raised : List Ev := []
  tallies : List Tally := []
  onceKeys : List (Nat × Nat) := []
  /-- The model's own counter behind free values (log entry 5). -/
  freeCtr : Nat := 0
  bus : Bus := {}
  sys : Sys := {}
  pat : Pat := {}
  tmb : Tmb := {}
  web : Web := {}
  cdc : Cdc := {}
  las : Las := {}
  pace : Pace := {}
  hst : Hst := {}
  vlt : Vlt := {}
  hl : List LinkSt := List.replicate 32 {}
  /-- Actuations towards the next unit of UNAUTH, by link (R314). -/
  unauth : List (Nat × Nat) := []
  ins : Ins := {}
  nzh : Nzh := {}
  drm : Dram := {}
  mot : Mot := {}
  srv : Srv := {}
  trm : Trm := {}
  tap : Tap := {}
deriving DecidableEq, Repr, Inhabited

/-- The state: the device, and the commands waiting, first in first out. -/
structure State where
  dev : Dev := {}
  pending : List Instr := []
deriving DecidableEq, Repr

/-- No command stops the model: the spec gives every command an effect, or says that it is ignored. -/
inductive Fault where
deriving DecidableEq, Repr

/-- Why a command has no meaning. -/
inductive Refusal where
  /-- Raised by the arm of a command that the model does not cover yet; safe, since the machine stops. -/
  | notModelled (mnemonic : String)
deriving DecidableEq, Repr

/-- The device right after a power-on reset by PORn is released (R33, R59, R60, R377): every register at its reset value but
SYS_RST_CAUSE, which reads 2 PORn, and PIN of HL_INHIBIT_CTRL, whose open pin reads low (R374, log entry 12); cast-on has begun step 1, BOOTSEL was sampled as 0b00 (log entry 7), and nothing is
commanded. -/
def State.reset : State :=
  { dev := { regs := [(0x1000008, 2), (0xB003000, 6)], regsOpen := [(0x1000008, 2), (0xB003000, 6)], sys := { castOn := true } }, pending := [] }

end Sys2Proof.Machine
end

