-- ==== Sys2Proof/Machine/Bexiq.lean ====
section
/-!
DEFINITION. The Bexiq stream format (R119 to R124): decoder and encoder, over lists of bytes.
-/

namespace Sys2Proof.Machine

/-- Bits needed to write n. -/
def bitLen (n : Nat) : Nat := if n = 0 then 0 else Nat.log2 n + 1

/-- Width of the code at index k (R121). -/
def codeWidth (k : Nat) : Nat := min 16 (max 9 (bitLen (257 + k)))

/-- A bit reader: bits gathered, how many, and the bytes to come. -/
structure BitSrc where
  acc : Nat := 0
  n : Nat := 0
  rest : List Byte := []

/-- The next w bits, least significant first (R120); none when fewer are left. Up to three bytes are gathered. -/
def BitSrc.take (s : BitSrc) (w : Nat) : Option (Nat × BitSrc) :=
  let s := if s.n < w then (match s.rest with | b :: r => ⟨s.acc + b.toNat * 2 ^ s.n, s.n + 8, r⟩ | [] => s) else s
  let s := if s.n < w then (match s.rest with | b :: r => ⟨s.acc + b.toNat * 2 ^ s.n, s.n + 8, r⟩ | [] => s) else s
  if s.n < w then none else some (s.acc % 2 ^ w, ⟨s.acc / 2 ^ w, s.n - w, s.rest⟩)

/-- The decoder between two codes (R122): k, the previous string, the entries from 258 on, the output, newest string first,
whether the input was exhausted, and how many bytes of it have not been gathered. -/
structure DecSt where
  k : Nat := 0
  prev : List Byte := []
  dict : Array (List Byte) := #[]
  out : List (List Byte) := []
  size : Nat := 0
  dry : Bool := false
  left : Nat := 0

def DecSt.entry (s : DecSt) (c : Nat) : List Byte :=
  if c < 256 then [BitVec.ofNat 8 c] else s.dict.getD (c - 258) []

def DecSt.f (s : DecSt) : Nat := 258 + s.dict.size

/-- Put out a string within the band size (R124): whether it fits. -/
def DecSt.put (s : DecSt) (size : Nat) (str : List Byte) : Bool × DecSt :=
  let fit := str.take (size - s.size)
  (decide (s.size + str.length ≤ size), { s with out := fit :: s.out, size := s.size + fit.length })

/-- Codes until the band ends in a result (R122, R124). -/
def decodeLoop (reset : Bool) (size : Nat) : Nat → BitSrc → DecSt → BandResult × DecSt
  | 0, _, s => (.short, s)
  | fuel + 1, src, s =>
    match src.take (codeWidth s.k) with
    | none => (if s.size = size then .ok else .short, { s with dry := true, left := 0 })
    | some (c, src) =>
      let s := { s with left := src.rest.length }
      if c = 257 then (if s.size = size then .ok else .short, s)
      else if s.size = size then (.expansion, s)
      else if c = 256 then decodeLoop reset size fuel src { s with k := 0, prev := [], dict := #[] }
      else if reset ∧ s.k = 65278 then (.badCode, s)
      else if s.k = 0 then
        if 255 < c then (.badCode, s)
        else
          let (fits, s) := { s with prev := s.entry c, k := 1 }.put size (s.entry c)
          if fits then decodeLoop reset size fuel src s else (.expansion, s)
      else if s.f < c then (.badCode, s)
      else
        let str := if c = s.f then s.prev ++ s.prev.take 1 else s.entry c
        let dict := if s.f ≤ 65535 then s.dict.push (s.prev ++ str.take 1) else s.dict
        let (fits, s) := { s with prev := str, dict := dict, k := s.k + 1 }.put size str
        if fits then decodeLoop reset size fuel src s else (.expansion, s)

/-- Pad with zeros to n bytes. -/
def padTo (n : Nat) (bs : List Byte) : List Byte := bs ++ List.replicate (n - bs.length) 0

/-- A band's result and contents, of `size` bytes, from its stream (R119, R124), whether the stream's end was met, and how many of its bytes
were read. Log entry 62 (DEDUCED). -/
def decodeBand (size : Nat) (stream : List Byte) : BandResult × List Byte × Bool × Nat :=
  match stream with
  | h0 :: h1 :: body =>
    if h0 ≠ 0x42 ∨ 2 ≤ h1.toNat then (.badHeader, List.replicate size 0, false, 2)
    else
      let (r, s) := decodeLoop (decide (h1.toNat = 1)) size (8 * body.length + 1) ⟨0, 0, body⟩ {}
      (r, padTo size s.out.reverse.flatten, s.dry, stream.length - s.left)
  | _ => (.badHeader, List.replicate size 0, true, stream.length)

/-- The encoder between two input bytes (R123): the code of w, the strings added (prefix code, byte, code), k, and the codes
emitted with their widths, newest first. -/
structure EncSt where
  w : Nat := 0
  dict : List ((Nat × Nat) × Nat) := []
  f : Nat := 258
  k : Nat := 0
  out : List (Nat × Nat) := []

def EncSt.emit (s : EncSt) (c : Nat) : EncSt := { s with out := (c, codeWidth s.k) :: s.out, k := s.k + 1 }

/-- One more input byte (R123). -/
def EncSt.feed (reset : Bool) (s : EncSt) (x : Byte) : EncSt :=
  match s.dict.lookup (s.w, x.toNat) with
  | some c => { s with w := c }
  | none =>
    let t := s.emit s.w
    let t := if t.f ≤ 65535 then { t with dict := ((s.w, x.toNat), t.f) :: t.dict, f := t.f + 1 } else t
    let t := if reset ∧ t.f = 65536 then { t.emit 256 with f := 258, dict := [], k := 0 } else t
    { t with w := x.toNat }

/-- Append codes least significant bit first: the number the stream spells, and its bits (R120). -/
def packCodes (codes : List (Nat × Nat)) : List Byte × Nat :=
  let (bytes, acc, n, total) := codes.foldl (fun st c =>
    let (bytes, acc, n, total) := st
    let acc := acc + c.1 * 2 ^ n
    let n := n + c.2
    let whole := n / 8
    (leBytes whole acc :: bytes, acc / 2 ^ (8 * whole), n % 8, total + c.2)) (([] : List (List Byte)), 0, 0, 0)
  (bytes.reverse.flatten ++ (if n = 0 then [] else [BitVec.ofNat 8 acc]), total)

/-- The stream of an input: its bytes and its bits, header included (R119, R123). Log entry 62 (DEDUCED). -/
def encodeStream (reset : Bool) (input : List Byte) : List Byte × Nat :=
  let codes := match input with
    | [] => [(257, 9)]
    | b :: bs =>
      let s := bs.foldl (EncSt.feed reset) { w := b.toNat }
      ((s.emit s.w).emit 257).out.reverse
  packCodes ((0x42, 8) :: ((if reset then 1 else 0), 8) :: codes)

/-- n bits of a stream from bit `off` on, packed from bit 0 of byte 0. -/
def bitSlice (stream : List Byte) (off n : Nat) : List Byte :=
  leBytes ((n + 7) / 8) (ofLeBytes ((stream.drop (off / 8)).take ((n + off % 8 + 7) / 8)) / 2 ^ (off % 8) % 2 ^ n)

end Sys2Proof.Machine
end

