-- ==== Sys2Proof/Machine/Crc.lean ====
section
/-!
DEFINITION. The checks: CRC-32 (R36), the CRC-8 of an absolute encoder's frame (R336), and the symbol code's check symbols
(R250).
-/

namespace Sys2Proof.Machine

/-- One bit of the reflected CRC-32 (polynomial 0x04C1_1DB7, R36). -/
def crcBit (c : Nat) : Nat := if c % 2 = 1 then Nat.xor (c / 2) 0xEDB88320 else c / 2

/-- One byte of CRC-32. -/
def crcByte (c : Nat) (b : Byte) : Nat :=
  crcBit (crcBit (crcBit (crcBit (crcBit (crcBit (crcBit (crcBit (Nat.xor c b.toNat))))))))

/-- The running value of CRC-32 after more bytes; it starts at 0xFFFF_FFFF. -/
def crcRun (c : Nat) (bs : List Byte) : Nat := bs.foldl crcByte c

/-- CRC-32 of bytes (R36). -/
def crc32 (bs : List Byte) : Nat := Nat.xor (crcRun 0xFFFFFFFF bs) 0xFFFFFFFF

/-- CRC-8, polynomial 0x07, over n bits of v, most significant first (R336). -/
def crc8 (v : Nat) : Nat → Nat
  | 0 => 0
  | n + 1 =>
    -- the bits above bit 0 first
    let c := crc8 (v / 2) n
    let top := c / 128 % 2
    let c2 := c * 2 % 256
    if (top + v) % 2 = 1 then Nat.xor c2 7 else c2

/-- Multiply by alpha = 2 in GF(2^8) with primitive polynomial 0x11D (R250). -/
def gfDouble (a : Nat) : Nat := if 128 ≤ a then Nat.xor (a * 2) 0x11D else a * 2

/-- The product in GF(2^8): n bits of b from the top. -/
def gfMulGo (a b : Nat) : Nat → Nat
  | 0 => 0
  | n + 1 =>
    let r := gfDouble (gfMulGo a (b / 2) n)
    if b % 2 = 1 then Nat.xor r a else r

def gfMul (a b : Nat) : Nat := gfMulGo a b 8

/-- Feed one data symbol, highest power first, into the remainder (r3, r2, r1, r0) modulo g(x) = x^4 + 0x0F x^3 + 0x36 x^2 +
0x78 x + 0x40. -/
def rsStep (r : Nat × Nat × Nat × Nat) (b : Nat) : Nat × Nat × Nat × Nat :=
  let (r3, r2, r1, r0) := r
  let f := Nat.xor r3 b
  (Nat.xor r2 (gfMul f 0x0F), Nat.xor r1 (gfMul f 0x36), Nat.xor r0 (gfMul f 0x78), gfMul f 0x40)

/-- The check symbols c0 to c3 of a code word's 16 data bytes b0 to b15 (R250). -/
def rsCheck (bs : List Byte) : List Nat :=
  let (r3, r2, r1, r0) := bs.reverse.foldl (fun r b => rsStep r b.toNat) (0, 0, 0, 0)
  [r0, r1, r2, r3]

/-- The syndrome of a code word of 20 symbols c0 to c19 at alpha^i: zero for a stored word (R250). -/
def rsEval (c : List Nat) (x : Nat) : Nat := c.foldr (fun s acc => Nat.xor s (gfMul acc x)) 0

end Sys2Proof.Machine
end

