-- ==== Sys2Proof/Machine/Crypto.lean ====
section
/-!
DEFINITION. The cryptography that R38, R306 and R312 name: SHA-256 (FIPS 180-4), AES-128-CMAC (NIST SP 800-38B) and ECDSA on
P-256 (FIPS 186-4). Their constants come from those standards, which the spec cites (log entry 9).
-/

namespace Sys2Proof.Machine

/-! ### SHA-256 -/

abbrev W32 := BitVec 32

/-- The 64 round constants of FIPS 180-4, 4.2.2, one after another: the fractions of the cube roots of the first 64 primes. -/
def shaConstants : Nat :=
  0x428a2f9871374491b5c0fbcfe9b5dba53956c25b59f111f1923f82a4ab1c5ed5d807aa9812835b01243185be550c7dc372be5d7480deb1fe9bdc06a7c19bf174e49b69c1efbe47860fc19dc6240ca1cc2de92c6f4a7484aa5cb0a9dc76f988da983e5152a831c66db00327c8bf597fc7c6e00bf3d5a7914706ca63511429296727b70a852e1b21384d2c6dfc53380d13650a7354766a0abb81c2c92e92722c85a2bfe8a1a81a664bc24b8b70c76c51a3d192e819d6990624f40e3585106aa07019a4c1161e376c082748774c34b0bcb5391c0cb34ed8aa4a5b9cca4f682e6ff3748f82ee78a5636f84c878148cc7020890befffaa4506cebbef9a3f7c67178f2

/-- The initial hash value, 5.3.3: the fractions of the square roots of the first 8 primes. -/
def shaStart : Nat := 0x6a09e667bb67ae853c6ef372a54ff53a510e527f9b05688c1f83d9ab5be0cd19

/-- Word i of n that stand one after another in a number, the first in its high bits. -/
def wordAt (v n i : Nat) : W32 := BitVec.ofNat 32 (v / 2 ^ (32 * (n - 1 - i)))

/-- Big-endian bytes of a number. -/
def beBytes (len n : Nat) : List Byte := (leBytes len n).reverse

/-- The number that big-endian bytes spell. -/
def ofBeBytes (bs : List Byte) : Nat := ofLeBytes bs.reverse

/-- Cut a list into pieces of n, the fuel bounding their number. -/
def chunks {α : Type} (n : Nat) : Nat → List α → List (List α)
  | 0, _ => []
  | _, [] => []
  | fuel + 1, l => l.take n :: chunks n fuel (l.drop n)

def shaPad (m : List Byte) : List Byte :=
  m ++ [0x80] ++ List.replicate ((119 - m.length % 64) % 64) 0 ++ beBytes 8 (8 * m.length)

/-- The exclusive or of a word turned right by two amounts and by a third, or shifted by it where `cut` says so: the four sigma functions of 4.1.2. -/
def sigma (cut : Bool) (i j k : Nat) (x : W32) : W32 := (x.rotateRight i ^^^ x.rotateRight j) ^^^ (if cut then x >>> k else x.rotateRight k)

/-- The schedule grown by n words; `w` holds the newest first. -/
def shaExpand : Nat → List W32 → List W32
  | 0, w => w
  | n + 1, w =>
    let old := fun (k : Nat) => w.getD (k - 1) 0
    shaExpand n ((sigma true 17 19 10 (old 2) + old 7 + sigma true 7 18 3 (old 15) + old 16) :: w)

/-- The eight working variables of 6.2.2. -/
structure ShaVars where
  a : W32
  b : W32
  c : W32
  d : W32
  e : W32
  f : W32
  g : W32
  h : W32

/-- Step 3 of 6.2.2 with one schedule word and its constant, already added. -/
def ShaVars.turn (v : ShaVars) (kw : W32) : ShaVars :=
  let choose := v.g ^^^ (v.e &&& (v.f ^^^ v.g))
  let most := (v.a &&& (v.b ||| v.c)) ||| (v.b &&& v.c)
  let t := v.h + sigma false 6 11 25 v.e + choose + kw
  ⟨t + sigma false 2 13 22 v.a + most, v.a, v.b, v.c, v.d + t, v.e, v.f, v.g⟩

/-- A hash value as working variables and back. -/
def ShaVars.of (s : Nat) : ShaVars :=
  let w := wordAt s 8
  ⟨w 0, w 1, w 2, w 3, w 4, w 5, w 6, w 7⟩

def ShaVars.words (v : ShaVars) : List W32 := [v.a, v.b, v.c, v.d, v.e, v.f, v.g, v.h]

/-- One block of 64 bytes. -/
def shaBlock (s : Nat) (b : List Byte) : Nat :=
  let m := ofBeBytes b
  let ws := (shaExpand 48 ((List.range 16).map fun i => wordAt m 16 (15 - i))).reverse
  let v := ws.zipIdx.foldl (fun (v : ShaVars) w => v.turn (w.1 + wordAt shaConstants 64 w.2)) (ShaVars.of s)
  (v.words.zip (ShaVars.of s).words).foldl (fun n p => n * 2 ^ 32 + (p.1 + p.2).toNat) 0

/-- SHA-256 of bytes. Log entry 9 (PRESUMED). -/
def sha256 (m : List Byte) : List Byte :=
  beBytes 32 ((chunks 64 (m.length / 64 + 2) (shaPad m)).foldl shaBlock shaStart)

/-! ### AES-128 and CMAC -/

/-- Product in the AES field (polynomial 0x11B): n bits of b from the top. -/
def aesMulGo (a b : Nat) : Nat → Nat
  | 0 => 0
  | n + 1 =>
    let r := aesMulGo a (b / 2) n
    let d := if 128 ≤ r then Nat.xor (r * 2) 0x11B else r * 2
    if b % 2 = 1 then Nat.xor d a else d

def aesMul (a b : Nat) : Nat := aesMulGo a b 8

/-- The S-box: the inverse x^254, then the affine map. -/
def aesSbox (x : Nat) : Nat :=
  let x2 := aesMul x x
  let x4 := aesMul x2 x2
  let x8 := aesMul x4 x4
  let x16 := aesMul x8 x8
  let x32 := aesMul x16 x16
  let x64 := aesMul x32 x32
  let x128 := aesMul x64 x64
  let i := aesMul x128 (aesMul x64 (aesMul x32 (aesMul x16 (aesMul x8 (aesMul x4 x2)))))
  let rot := fun k => (i * 2 ^ k) % 256 + i / 2 ^ (8 - k)
  Nat.xor (Nat.xor (Nat.xor (Nat.xor (Nat.xor i (rot 1)) (rot 2)) (rot 3)) (rot 4)) 0x63

def xorList (a b : List Nat) : List Nat := List.zipWith Nat.xor a b

/-- The round keys after the first, given the last one. -/
def aesKeys : Nat → Nat → List Nat → List (List Nat)
  | 0, _, k => [k]
  | n + 1, rcon, k =>
    let w := fun i => (k.drop (4 * i)).take 4
    let l := w 3
    let t := [Nat.xor (aesSbox (l.getD 1 0)) rcon, aesSbox (l.getD 2 0), aesSbox (l.getD 3 0), aesSbox (l.getD 0 0)]
    let w0 := xorList (w 0) t
    let w1 := xorList (w 1) w0
    let w2 := xorList (w 2) w1
    let w3 := xorList (w 3) w2
    k :: aesKeys n (aesMul rcon 2) (w0 ++ w1 ++ w2 ++ w3)

def aesShift (s : List Nat) : List Nat := (List.range 16).map fun i => s.getD ((i % 4) + 4 * ((i / 4 + i % 4) % 4)) 0

def aesMix (s : List Nat) : List Nat :=
  (List.range 16).map fun i =>
    let c := i / 4 * 4
    let g := fun k => s.getD (c + (i + k) % 4) 0
    Nat.xor (Nat.xor (aesMul 2 (g 0)) (aesMul 3 (g 1))) (Nat.xor (g 2) (g 3))

def aesRounds : List (List Nat) → List Nat → List Nat
  | [], s => s
  | [k], s => xorList (aesShift (s.map aesSbox)) k
  | k :: ks, s => aesRounds ks (xorList (aesMix (aesShift (s.map aesSbox))) k)

/-- AES-128 of one block. Log entry 9 (PRESUMED). -/
def aes128 (key block : List Nat) : List Nat :=
  match aesKeys 10 1 key with
  | k :: ks => aesRounds ks (xorList block k)
  | [] => block

/-- Doubling of a 128-bit block for the CMAC subkeys. -/
def cmacDouble (n : Nat) : Nat :=
  let m := n * 2 % 2 ^ 128
  if 2 ^ 127 ≤ n then Nat.xor m 0x87 else m

/-- AES-128-CMAC of bytes. Log entry 9 (PRESUMED). -/
def cmac (key msg : List Byte) : List Byte :=
  let k := key.map BitVec.toNat
  let toBlock := fun (n : Nat) => (beBytes 16 n).map BitVec.toNat
  let l := ofBeBytes ((aes128 k (List.replicate 16 0)).map (BitVec.ofNat 8))
  let k1 := cmacDouble l
  let bs := chunks 16 (msg.length / 16 + 1) msg
  let last := bs.getLastD []
  let tail := if last.length = 16 then xorList (last.map BitVec.toNat) (toBlock k1)
    else xorList (last.map BitVec.toNat ++ [0x80] ++ List.replicate (15 - last.length) 0) (toBlock (cmacDouble k1))
  let c := bs.dropLast.foldl (fun c b => aes128 k (xorList c (b.map BitVec.toNat))) (List.replicate 16 0)
  (aes128 k (xorList c tail)).map (BitVec.ofNat 8)

/-! ### P-256 -/

def p256P : Nat := 0xffffffff00000001000000000000000000000000ffffffffffffffffffffffff
def p256N : Nat := 0xffffffff00000000ffffffffffffffffbce6faada7179e84f3b9cac2fc632551
def p256B : Nat := 0x5ac635d8aa3a93e7b3ebbd55769886bc651d06b0cc53b0f63bce3c3e27d2604b
def p256Gx : Nat := 0x6b17d1f2e12c4247f8bce6e563a440f277037d812deb33a0f4a13945d898c296
def p256Gy : Nat := 0x4fe342e2fe1a7f9b8ee7eb4a7c0f9e162bce33576b315ececbb6406837bf51f5

/-- a^e mod m, the n low bits of e. -/
def powMod (m a e : Nat) : Nat → Nat
  | 0 => 1
  | n + 1 =>
    let r := powMod m (a * a % m) (e / 2) n
    if e % 2 = 1 then a * r % m else r

def invMod (m a : Nat) : Nat := powMod m (a % m) (m - 2) 256

/-- A point in Jacobian coordinates; z = 0 is infinity. -/
structure Jac where
  x : Nat
  y : Nat
  z : Nat
deriving DecidableEq, Repr

/-- Subtraction modulo p. -/
def subP (a b : Nat) : Nat := (a + p256P - b % p256P) % p256P

def Jac.dbl (p : Jac) : Jac :=
  let m := p256P
  let d := p.z * p.z % m
  let g := p.y * p.y % m
  let b := p.x * g % m
  let a := 3 * (subP p.x d * ((p.x + d) % m) % m) % m
  let x := subP (a * a % m) (8 * b % m)
  let y := subP (a * subP (4 * b % m) x % m) (8 * (g * g % m) % m)
  ⟨x, y, 2 * p.y * p.z % m⟩

def Jac.add (p q : Jac) : Jac :=
  let m := p256P
  if p.z = 0 then q else if q.z = 0 then p else
    let z1 := p.z * p.z % m
    let z2 := q.z * q.z % m
    let u1 := p.x * z2 % m
    let u2 := q.x * z1 % m
    let s1 := p.y * (q.z * z2 % m) % m
    let s2 := q.y * (p.z * z1 % m) % m
    if u1 = u2 then (if s1 = s2 then p.dbl else ⟨1, 1, 0⟩) else
      let h := subP u2 u1
      let r := subP s2 s1
      let h2 := h * h % m
      let h3 := h * h2 % m
      let v := u1 * h2 % m
      let x := subP (subP (r * r % m) h3) (2 * v % m)
      ⟨x, subP (r * subP v x % m) (s1 * h3 % m), h * p.z % m * q.z % m⟩

/-- k times a point, the n low bits of k. -/
def Jac.mul (p : Jac) (k : Nat) : Nat → Jac
  | 0 => ⟨1, 1, 0⟩
  | n + 1 =>
    let r := p.dbl.mul (k / 2) n
    if k % 2 = 1 then r.add p else r

/-- The affine x coordinate. -/
def Jac.affX (p : Jac) : Nat :=
  let zi := invMod p256P p.z
  p.x * (zi * zi % p256P) % p256P

def p256G : Jac := ⟨p256Gx, p256Gy, 1⟩

def onCurve (x y : Nat) : Bool :=
  decide (x < p256P) && (decide (y < p256P) && decide (y * y % p256P = subP (x * x % p256P * x % p256P + p256B) (3 * x % p256P)))

/-- ECDSA verification of a digest (a big-endian number). Log entry 9 (PRESUMED). -/
def ecdsaVerify (x y z r s : Nat) : Bool :=
  decide (0 < r) && (decide (r < p256N) && (decide (0 < s) && (decide (s < p256N) && (onCurve x y &&
    (let w := invMod p256N s
     let q := (p256G.mul (z * w % p256N) 256).add ((Jac.mk x y 1).mul (r * w % p256N) 256)
     decide (q.z ≠ 0) && decide (q.affX % p256N = r))))))

/-- ECDSA signature of a digest with the per-message secret k. Log entry 9 (PRESUMED). -/
def ecdsaSign (d z k : Nat) : Nat × Nat :=
  let r := (p256G.mul k 256).affX % p256N
  (r, invMod p256N k * ((z + r * d) % p256N) % p256N)

end Sys2Proof.Machine
end

