-- ==== Sys2Proof/Config.lean ====
section
/-!
DEFINITION. The free values: constants with no body, one for each value the spec leaves open although the device goes on.
Nothing in Lean can evaluate one. Each is applied to the model's own counter `Dev.freeCtr`, so that no two uses are known
to agree (R5: a value need not stay the same from one occurrence to the next).
-/

namespace Sys2Proof.Config

/-- The n-th unspecified value (R5): an unspecified bit, byte, address or data word is taken from it modulo its range.
Log entry 5. -/
opaque free : Nat → Nat

end Sys2Proof.Config
end

