-- ==== Sys2Proof/Machine/Regs.lean ====
section
/-!
DEFINITION. Every register of the spec's field tables, one row each: where it lies (R4, R23), its width, its world (R299)
and its fields with their types (R8), reset values (R33) and write limits. Register names and field names are the spec's,
R.<register> and F.<register>_<field>. A register repeated for several instances has one row with its dimensions,
outermost first; its index counts the instances in that order.
-/

namespace Sys2Proof.Machine

/-- Field types (R8). -/
inductive Ty where
  | rw | ro | w1c | w1s | wo | rwl | snap
deriving DecidableEq, Repr

/-- What a write of a value outside a field's stated range leaves in the field: the words 'set the nearer limit',
'0 is read as 1', 'values below N read as N' are `range`. -/
inductive Clamp where
  /-- Every value is in range. -/
  | any
  /-- The nearer limit. -/
  | range (lo hi : Nat)
  /-- 3 is read as the value given. -/
  | threeIs (v : Nat)
  /-- Two's complement, the nearer of plus and minus the limit (R189). -/
  | signedAbs (m : Nat)
  /-- 6 to 15 as written, 0 for 16, 1 to 5 set 6 (R288). -/
  | evrLog
deriving DecidableEq, Repr

/-- One register, or one array of registers. -/
structure Reg where
  /-- Offset in the register space of the first instance (block ID times 16 MiB plus the offset in the window). -/
  base : Nat
  /-- Count and stride of each dimension, outermost first. -/
  dims : List (Nat × Nat)
  /-- 32 or 64 bits. -/
  width : Nat
  /-- Introduced as Secure. -/
  secure : Bool
  /-- Reset value of each instance (R33); a field whose Reset is "Fuse" has the value that blank fuses and a blank trim store give it, until
  cast-on step 1 loads it. -/
  rst : Nat → Nat

/-- One field of a register. -/
structure Fld where
  reg : Reg
  lo : Nat
  w : Nat
  ty : Ty
  clamp : Clamp := .any
  /-- A counter that saturates; otherwise it wraps. -/
  sat : Bool := false

/-- A register with its fields. -/
structure Row where
  reg : Reg
  flds : List Fld

/-- The ordered-dither matrix that LA_BLEND_MASK holds after reset (R145). -/
def ditherEntry (e : Nat) : Nat :=
  let y := e / 16
  let a := Nat.xor (e % 16) y
  (List.range 4).foldl (fun m t => m + (a / 2 ^ t % 2) * 2 ^ (7 - 2 * t) + (y / 2 ^ t % 2) * 2 ^ (6 - 2 * t)) 0

/-- Four one-byte table entries in one word, low byte first. -/
def packEntries (f : Nat → Nat) (i : Nat) : Nat :=
  f (4 * i) + f (4 * i + 1) * 2 ^ 8 + f (4 * i + 2) * 2 ^ 16 + f (4 * i + 3) * 2 ^ 24

/-- Reset entry of INS_Cc_DENS_LUT: 255 - (e >> 4). -/
def densReset (e : Nat) : Nat := 255 - e / 16

/-- Reset entry of INS_Cc_EXP_LUT: min(255, 43 e). -/
def expReset (e : Nat) : Nat := min 255 (43 * e)

/-! ### Registers -/

def R.HST_APBASE : Reg := ⟨0x13000100, [(2, 0x8)], 64, false, fun _ => 0⟩
def R.GL_DEVICE_ID : Reg := ⟨0x0, [], 32, false, fun _ => 0x7120b000⟩
def R.GL_SERIAL : Reg := ⟨0x8, [], 64, false, fun _ => 0⟩
def R.GL_BEAT : Reg := ⟨0x10, [], 64, false, fun _ => 0⟩
def R.GL_SNAP_REQ : Reg := ⟨0x18, [], 32, false, fun _ => 0⟩
def R.GL_SNAP_STAT : Reg := ⟨0x20, [], 32, false, fun _ => 0⟩
def R.PAT_STATUS : Reg := ⟨0x2000000, [], 32, false, fun _ => 0⟩
def R.PAT_ID : Reg := ⟨0x2000008, [], 64, false, fun _ => 0⟩
def R.PAT_GEN : Reg := ⟨0x2000010, [], 32, false, fun _ => 0⟩
def R.PAT_MBOX_LEN : Reg := ⟨0x2000100, [], 32, true, fun _ => 0⟩
def R.PAT_MBOX_CTRL : Reg := ⟨0x2000108, [], 32, true, fun _ => 0⟩
def R.PAT_REPAT_CTRL : Reg := ⟨0x2000110, [], 32, true, fun _ => 0⟩
def R.SYS_RESET : Reg := ⟨0x1000000, [], 32, true, fun _ => 0⟩
def R.SYS_RST_CAUSE : Reg := ⟨0x1000008, [], 32, false, fun _ => 0⟩
def R.SYS_CASTON_STAT : Reg := ⟨0x1000010, [], 32, false, fun _ => 1⟩
def R.SYS_CLOG_ATTEMPTS : Reg := ⟨0x1000020, [], 64, false, fun _ => 0⟩
def R.SYS_CLOG_DIR : Reg := ⟨0x1000028, [], 64, false, fun _ => 0⟩
def R.SYS_CLOG_CTRL : Reg := ⟨0x1000030, [], 32, true, fun _ => 0⟩
def R.SYS_CLOG_COUNT : Reg := ⟨0x1000038, [], 32, false, fun _ => 0⟩
def R.SYS_BINDOFF : Reg := ⟨0x1000040, [], 32, true, fun _ => 0⟩
def R.SYS_SAVE_BASE : Reg := ⟨0x1000048, [], 64, true, fun _ => 0⟩
def R.SYS_FUNC_STAT : Reg := ⟨0x1000060, [], 64, false, fun _ => 0⟩
def R.TB_NOW : Reg := ⟨0xd000000, [], 64, false, fun _ => 0⟩
def R.TB_NOW_FRAC : Reg := ⟨0xd000008, [], 32, false, fun _ => 0⟩
def R.TB_INCR : Reg := ⟨0xd000010, [], 64, true, fun _ => 0x400000000⟩
def R.TB_CTRL : Reg := ⟨0xd000018, [], 32, true, fun _ => 0⟩
def R.TB_LIMITS : Reg := ⟨0xd000020, [], 64, true, fun _ => 0x6400002710⟩
def R.TB_JUMP_MAX : Reg := ⟨0xd000038, [], 32, false, fun _ => 0⟩
def R.TB_SERVO : Reg := ⟨0xd000028, [], 32, true, fun _ => 0x10008000⟩
def R.TB_STEP : Reg := ⟨0xd000030, [], 64, true, fun _ => 0⟩
def R.TB_STATE : Reg := ⟨0xd000040, [], 32, false, fun _ => 0⟩
def R.TB_OFFSET : Reg := ⟨0xd000048, [], 64, false, fun _ => 0⟩
def R.TB_PATH : Reg := ⟨0xd000050, [], 64, false, fun _ => 0⟩
def R.TB_FREQ : Reg := ⟨0xd000058, [], 32, false, fun _ => 0⟩
def R.TB_GM : Reg := ⟨0xd000060, [], 64, false, fun _ => 0⟩
def R.TB_PORT_CFG : Reg := ⟨0xd000100, [(2, 0x8)], 32, true, fun _ => 0x30⟩
def R.TB_PORT_IP : Reg := ⟨0xd000110, [(2, 0x8)], 32, true, fun _ => 0⟩
def R.TB_TS_ADJ : Reg := ⟨0xd000200, [(2, 0x8)], 32, true, fun _ => 0⟩
def R.WT_STAT : Reg := ⟨0xc000000, [], 32, false, fun _ => 4⟩
def R.WT_POS : Reg := ⟨0xc000008, [], 64, false, fun _ => 0⟩
def R.WT_SPEED : Reg := ⟨0xc000010, [], 64, false, fun _ => 0⟩
def R.WT_ACCEL : Reg := ⟨0xc000018, [], 64, false, fun _ => 0⟩
def R.WT_DEBT : Reg := ⟨0xc000020, [], 32, false, fun _ => 0⟩
def R.WT_SRC_CFG : Reg := ⟨0xc000028, [], 32, true, fun _ => 0⟩
def R.WT_SCALE : Reg := ⟨0xc000030, [], 32, true, fun _ => 0x10000⟩
def R.WT_GAIN : Reg := ⟨0xc000038, [], 64, true, fun _ => 0x1202232000⟩
def R.WT_LIMITS : Reg := ⟨0xc000040, [], 64, true, fun _ => 0x4000400000c350⟩
def R.WT_CUE_CFG : Reg := ⟨0xc000048, [], 64, true, fun _ => 0⟩
def R.WT_PAGE : Reg := ⟨0xc000050, [], 64, false, fun _ => 0⟩
def R.WT_MISSED : Reg := ⟨0xc000058, [], 64, false, fun _ => 0⟩
def R.WT_Qn_CFG : Reg := ⟨0xc000100, [(4, 0x40)], 32, true, fun _ => 0xa00⟩
def R.WT_Qn_STAT : Reg := ⟨0xc000108, [(4, 0x40)], 32, false, fun _ => 0⟩
def R.WT_Qn_COUNT : Reg := ⟨0xc000110, [(4, 0x40)], 32, false, fun _ => 0⟩
def R.WT_Qn_IDX : Reg := ⟨0xc000118, [(4, 0x40)], 32, false, fun _ => 0⟩
def R.WT_Qn_IDXTIME : Reg := ⟨0xc000120, [(4, 0x40)], 64, false, fun _ => 0⟩
def R.WT_F0_CFG : Reg := ⟨0xc000200, [], 32, true, fun _ => 0xa00⟩
def R.WT_F0_COUNT : Reg := ⟨0xc000208, [], 32, false, fun _ => 0⟩
def R.WT_CMP_STAT : Reg := ⟨0xc000300, [], 64, false, fun _ => 0⟩
def R.WT_CMP_START : Reg := ⟨0xc100000, [(4096, 0x20)], 64, false, fun _ => 0⟩
def R.WT_CMP_REPEAT : Reg := ⟨0xc100008, [(4096, 0x20)], 64, false, fun _ => 0⟩
def R.WT_CMP_OUT : Reg := ⟨0xc100010, [(4096, 0x20)], 64, false, fun _ => 0x640000⟩
def R.CD_CTRL : Reg := ⟨0x7000000, [], 32, true, fun _ => 0⟩
def R.CD_PAGE_PUSH : Reg := ⟨0x7000010, [], 64, false, fun _ => 0⟩
def R.CD_QSTAT : Reg := ⟨0x7000018, [], 32, false, fun _ => 0⟩
def R.CD_HEAD : Reg := ⟨0x7000020, [], 64, false, fun _ => 0⟩
def R.CD_LANE_MAP : Reg := ⟨0x7000030, [], 32, false, fun _ => 0⟩
def R.CD_LANE_FORCE : Reg := ⟨0x7000038, [], 32, true, fun _ => 0⟩
def R.CD_BAND_ERR : Reg := ⟨0x7000040, [], 64, false, fun _ => 0⟩
def R.CD_LATE : Reg := ⟨0x7000048, [], 32, false, fun _ => 0⟩
def R.CD_ENCn_SRC : Reg := ⟨0x7000100, [(4, 0x40)], 64, false, fun _ => 0⟩
def R.CD_ENCn_SKEIN : Reg := ⟨0x7000108, [(4, 0x40)], 64, false, fun _ => 0⟩
def R.CD_ENCn_CTRL : Reg := ⟨0x7000110, [(4, 0x40)], 32, false, fun _ => 0⟩
def R.CD_ENCn_STAT : Reg := ⟨0x7000118, [(4, 0x40)], 32, false, fun _ => 0⟩
def R.LA_WINDOW : Reg := ⟨0x8000000, [], 64, false, fun _ => 0⟩
def R.LA_RELEASE : Reg := ⟨0x8000008, [], 64, false, fun _ => 0⟩
def R.LA_HEAD_OFF : Reg := ⟨0x8000010, [], 32, true, fun _ => 0⟩
def R.LA_HEAD_OUT : Reg := ⟨0x8000018, [], 64, false, fun _ => 0⟩
def R.LA_SHIFT : Reg := ⟨0x8000020, [], 32, true, fun _ => 0x20000⟩
def R.LA_SHIFT_STAT : Reg := ⟨0x8000028, [], 32, false, fun _ => 0⟩
def R.LA_MARGIN : Reg := ⟨0x8000030, [], 32, true, fun _ => 0xffff0000⟩
def R.LA_BLEND_CTRL : Reg := ⟨0x8000038, [], 32, true, fun _ => 1⟩
def R.LA_BLEND_MASK : Reg := ⟨0x8000100, [(64, 0x4)], 32, true, packEntries ditherEntry⟩
def R.LA_SWATCH : Reg := ⟨0x8000040, [], 64, true, fun _ => 0x3011000⟩
def R.LA_COUNT : Reg := ⟨0x8000048, [], 64, false, fun _ => 0⟩
def R.PE_HIST_CFG : Reg := ⟨0x9000f00, [(2, 0x1000000)], 32, true, fun _ => 0x10040⟩
def R.PE_SPIT : Reg := ⟨0x9000f08, [(2, 0x1000000)], 64, true, fun _ => 0x1000002⟩
def R.PE_HIST_MAP : Reg := ⟨0x9001000, [(2, 0x1000000), (32, 0x4)], 32, true, fun _ => 0xfee9e994⟩
def R.PE_TRIM : Reg := ⟨0x9100000, [(2, 0x1000000), (16384, 0x4)], 32, true, fun _ => 0x88888888⟩
def R.PE_TRIM_CTRL : Reg := ⟨0x9000f10, [(2, 0x1000000)], 32, true, fun _ => 0⟩
def R.HL_TEMP_CFG : Reg := ⟨0xb002000, [(32, 0x8)], 64, true, fun _ => 0xa005004100370⟩
def R.HL_TEMP_STAT : Reg := ⟨0xb002100, [(32, 0x8)], 64, false, fun _ => 0⟩
def R.HL_ACT : Reg := ⟨0xb800000, [(131072, 0x8)], 64, false, fun _ => 0⟩
def R.PE_CLAIM : Reg := ⟨0x9000000, [(2, 0x1000000)], 32, true, fun i => if i = 0 then 2 else 1⟩
def R.PE_STAT : Reg := ⟨0x9000008, [(2, 0x1000000)], 32, false, fun _ => 0⟩
def R.PE_CHECK_CFG : Reg := ⟨0x9000010, [(2, 0x1000000)], 32, true, fun _ => 4⟩
def R.PE_COUNT : Reg := ⟨0x9000018, [(2, 0x1000000)], 64, false, fun _ => 0⟩
def R.HL_INHIBIT_CTRL : Reg := ⟨0xb003000, [], 32, true, fun _ => 2⟩
def R.HL_ARB_COUNT : Reg := ⟨0xb003010, [], 64, false, fun _ => 0⟩
def R.HL_GLOBAL_CFG : Reg := ⟨0xb000000, [], 32, true, fun _ => 0x60850⟩
def R.HL_CFG : Reg := ⟨0xb001000, [(32, 0x40)], 32, true, fun _ => 0xfa0000⟩
def R.HL_STAT : Reg := ⟨0xb001008, [(32, 0x40)], 32, false, fun _ => 0⟩
def R.HL_TAPS : Reg := ⟨0xb001010, [(32, 0x40)], 64, false, fun _ => 0⟩
def R.HL_DELAY : Reg := ⟨0xb001018, [(32, 0x40)], 64, false, fun _ => 0⟩
def R.HL_ASYM : Reg := ⟨0xb001020, [(32, 0x40)], 32, true, fun _ => 0⟩
def R.HL_FIRE_ADJ : Reg := ⟨0xb001028, [(32, 0x40)], 32, true, fun _ => 0⟩
def R.HL_COUNT : Reg := ⟨0xb001030, [(32, 0x40)], 64, false, fun _ => 0⟩
def R.HL_HEAD_COUNT : Reg := ⟨0xb001038, [(32, 0x40)], 64, false, fun _ => 0⟩
def R.HL_MGMT_CMD : Reg := ⟨0xb004000, [(32, 0x80), (2, 0x40)], 64, true, fun _ => 0x10000⟩
def R.HL_MGMT_STAT : Reg := ⟨0xb004008, [(32, 0x80), (2, 0x40)], 32, true, fun _ => 0⟩
def R.HL_MGMT_DATA : Reg := ⟨0xb004010, [(32, 0x80), (2, 0x40), (8, 0x4)], 32, true, fun _ => 0⟩
def R.INS_COMMIT : Reg := ⟨0xe000000, [], 32, true, fun _ => 0⟩
def R.INS_STAT_RING : Reg := ⟨0xe000010, [], 64, true, fun _ => 0xa⟩
def R.INS_STAT_HEAD : Reg := ⟨0xe000018, [], 32, false, fun _ => 0⟩
def R.INS_I2Cm_CMD : Reg := ⟨0xe000100, [(2, 0x20)], 64, true, fun _ => 0x11000000⟩
def R.INS_I2Cm_DATA : Reg := ⟨0xe000108, [(2, 0x20)], 32, true, fun _ => 0⟩
def R.INS_I2Cm_STAT : Reg := ⟨0xe000110, [(2, 0x20)], 32, true, fun _ => 0⟩
def R.INS_Cc_CFG : Reg := ⟨0xe001000, [(8, 0x100)], 32, true, fun _ => 0xc800⟩
def R.INS_Cc_STROBE : Reg := ⟨0xe001008, [(8, 0x100)], 64, true, fun _ => 0x3e80000⟩
def R.INS_Cc_GEOM : Reg := ⟨0xe001010, [(8, 0x100)], 32, true, fun _ => 0x2020000⟩
def R.INS_Cc_BLACK : Reg := ⟨0xe001018, [(8, 0x100)], 32, true, fun _ => 0⟩
def R.INS_Cc_I2C : Reg := ⟨0xe001020, [(8, 0x100)], 32, true, fun _ => 0⟩
def R.INS_Cc_FBUF : Reg := ⟨0xe001028, [(8, 0x100)], 64, true, fun _ => 4⟩
def R.INS_Cc_STAT : Reg := ⟨0xe001030, [(8, 0x100)], 64, false, fun _ => 0⟩
def R.INS_Cc_COUNT : Reg := ⟨0xe001038, [(8, 0x100)], 64, false, fun _ => 0⟩
def R.NZ_CTRL : Reg := ⟨0xf000000, [], 32, true, fun _ => 0xc⟩
def R.NZ_DETECT : Reg := ⟨0xf000008, [], 64, true, fun _ => 0x1080b340230100⟩
def R.NZ_STAT : Reg := ⟨0xf000010, [], 64, false, fun _ => 0⟩
def R.NZ_COUNT : Reg := ⟨0xf000018, [], 64, false, fun _ => 0⟩
def R.NZ_AUDIT : Reg := ⟨0xf000020, [], 64, true, fun _ => 0xa⟩
def R.NZ_REG_CFG : Reg := ⟨0xf000100, [], 64, true, fun _ => 0x80002004002000⟩
def R.NZ_REG_RANGE : Reg := ⟨0xf000108, [], 64, true, fun _ => 0⟩
def R.NZ_REG_TARGET : Reg := ⟨0xf000110, [], 64, true, fun _ => 0x10000000000⟩
def R.NZ_REG_STAT : Reg := ⟨0xf000118, [], 64, false, fun _ => 0⟩
def R.NZ_HEALTH : Reg := ⟨0xf100000, [(131072, 0x4)], 32, false, fun _ => 0⟩
def R.LA_SUBST : Reg := ⟨0x8100000, [(16384, 0x4)], 32, true, fun _ => 0⟩
def R.DM_STAT : Reg := ⟨0x5000000, [(2, 0x1000000)], 32, false, fun _ => 0⟩
def R.DM_SPARE : Reg := ⟨0x5000010, [(2, 0x1000000), (2, 0x8)], 64, false, fun _ => 0xF0F0⟩
def R.DM_MARK_CTRL : Reg := ⟨0x5000020, [(2, 0x1000000)], 32, true, fun _ => 0⟩
def R.DM_ECC_COUNT : Reg := ⟨0x5000030, [(2, 0x1000000)], 64, false, fun _ => 0⟩
def R.DM_UE_ADDR : Reg := ⟨0x5000038, [(2, 0x1000000)], 64, false, fun _ => 0⟩
def R.DM_SCRUB : Reg := ⟨0x5000040, [(2, 0x1000000)], 64, true, fun _ => 0⟩
def R.DM_REBUILD : Reg := ⟨0x5000048, [(2, 0x1000000)], 32, true, fun _ => 0⟩
def R.DM_RETRAIN : Reg := ⟨0x5000050, [(2, 0x1000000)], 32, true, fun _ => 0x40020064⟩
def R.DM_REFRESH : Reg := ⟨0x5000058, [(2, 0x1000000)], 64, false, fun _ => 0⟩
def R.DM_PPR : Reg := ⟨0x5000060, [(2, 0x1000000), (4, 0x8)], 64, false, fun _ => 0⟩
def R.DM_PRED_CFG : Reg := ⟨0x5000080, [(2, 0x1000000)], 32, true, fun _ => 0⟩
def R.DM_SPEED_CTRL : Reg := ⟨0x5000088, [(2, 0x1000000)], 32, true, fun _ => 0⟩
def R.DM_LANE : Reg := ⟨0x5000200, [(2, 0x1000000), (2, 0x40), (11, 0x4)], 32, false, fun _ => 0⟩
def R.MF_CLASS : Reg := ⟨0x4000000, [], 64, true, fun _ => 0⟩
def R.MF_ARB_CFG : Reg := ⟨0x4000008, [], 32, true, fun _ => 0⟩
def R.MF_SLOT_BEAT : Reg := ⟨0x4000010, [], 64, true, fun _ => 0⟩
def R.MF_SLOT_CTRL : Reg := ⟨0x4000018, [], 32, true, fun _ => 0⟩
def R.MF_URGENT : Reg := ⟨0x4000020, [], 32, false, fun _ => 0⟩
def R.MF_COUNT : Reg := ⟨0x4000030, [(2, 0x8)], 64, false, fun _ => 0⟩
def R.MF_SLOT_ACTIVE : Reg := ⟨0x4000100, [(32, 0x4)], 32, true, fun _ => 0⟩
def R.MF_SLOT_SHADOW : Reg := ⟨0x4000200, [(32, 0x4)], 32, true, fun _ => 0⟩
def R.HST_PORT_STAT : Reg := ⟨0x13000000, [(2, 0x8)], 32, false, fun _ => 0⟩
def R.HST_EVR_BASE : Reg := ⟨0x13000200, [(2, 0x40)], 64, false, fun _ => 0⟩
def R.HST_EVR_CFG : Reg := ⟨0x13000208, [(2, 0x40)], 32, false, fun _ => 0x4a0⟩
def R.HST_EVR_HEAD : Reg := ⟨0x13000210, [(2, 0x40)], 32, false, fun _ => 0x10000⟩
def R.HST_EVR_TAIL : Reg := ⟨0x13000218, [(2, 0x40)], 32, false, fun _ => 0⟩
def R.HST_EVR_STAT : Reg := ⟨0x13000220, [(2, 0x40)], 32, false, fun _ => 0⟩
def R.HST_DOORBELL : Reg := ⟨0x13000228, [(2, 0x40)], 32, false, fun _ => 0⟩
def R.HST_SNAP_DEST : Reg := ⟨0x13000230, [(2, 0x40)], 64, false, fun _ => 0⟩
def R.HST_SNAP_CTRL : Reg := ⟨0x13000238, [(2, 0x40)], 64, false, fun _ => 0⟩
def R.ETH_CFG : Reg := ⟨0x14000000, [(2, 0x100)], 32, true, fun _ => 0xc⟩
def R.ETH_MAC : Reg := ⟨0x14000008, [(2, 0x100)], 64, true, fun _ => 0⟩
def R.ETH_STAT : Reg := ⟨0x14000010, [(2, 0x100)], 32, false, fun _ => 0⟩
def R.ETH_COUNT : Reg := ⟨0x14000018, [(2, 0x100)], 64, false, fun _ => 0⟩
def R.ETH_UP_DST : Reg := ⟨0x14000040, [(2, 0x100)], 64, false, fun _ => 0⟩
def R.ETH_UP_ADDR : Reg := ⟨0x14000048, [(2, 0x100)], 64, false, fun _ => 0⟩
def R.ETH_UP_SRC : Reg := ⟨0x14000050, [(2, 0x100)], 64, false, fun _ => 0⟩
def R.ETH_UP_CTRL : Reg := ⟨0x14000058, [(2, 0x100)], 32, false, fun _ => 0x7d0⟩
def R.VLT_STAT : Reg := ⟨0x3000000, [], 32, true, fun _ => 0⟩
def R.VLT_ROLLBACK : Reg := ⟨0x3000010, [], 32, true, fun _ => 0⟩
def R.VLT_ROLLBACK_CTRL : Reg := ⟨0x3000018, [], 32, true, fun _ => 0⟩
def R.VLT_ROOT_HASH : Reg := ⟨0x3000100, [(8, 0x4)], 32, true, fun _ => 0⟩
def R.VLT_HEAD_ROOT : Reg := ⟨0x3000140, [(4, 0x4)], 32, true, fun _ => 0⟩
def R.VLT_PROG_CTRL : Reg := ⟨0x3000160, [], 32, true, fun _ => 0⟩
def R.VLT_TAMPER : Reg := ⟨0x3000180, [], 32, true, fun _ => 0⟩
def R.VLT_LAST_TIME : Reg := ⟨0x3000188, [], 64, true, fun _ => 0⟩
def R.VLT_CERT_LEN : Reg := ⟨0x30001a0, [], 32, true, fun _ => 0⟩
def R.VLT_ATTEST_NONCE : Reg := ⟨0x3000200, [(4, 0x8)], 64, true, fun _ => 0⟩
def R.VLT_ATTEST_CTRL : Reg := ⟨0x3000220, [], 32, true, fun _ => 0⟩
def R.VLT_ATTEST_SIG : Reg := ⟨0x3000240, [(8, 0x8)], 64, true, fun _ => 0⟩
def R.VLT_AUTH_CFG : Reg := ⟨0x3000300, [], 32, true, fun _ => 0x3d090⟩
def R.VLT_AUTH_REAUTH : Reg := ⟨0x3000308, [], 32, true, fun _ => 0⟩
def R.VLT_HEAD_STAT : Reg := ⟨0x3000400, [(32, 0x20)], 32, true, fun _ => 0⟩
def R.VLT_HEAD_SERIAL : Reg := ⟨0x3000408, [(32, 0x20)], 64, true, fun _ => 0⟩
def R.VLT_HEAD_USAGE : Reg := ⟨0x3000410, [(32, 0x20)], 64, true, fun _ => 0⟩
def R.VLT_HEAD_PENDING : Reg := ⟨0x3000418, [(32, 0x20)], 64, true, fun _ => 0⟩
def R.MOT_CAP_POS : Reg := ⟨0x10000000, [], 64, true, fun _ => 0⟩
def R.MOT_CAP_TRAY : Reg := ⟨0x10000008, [], 32, true, fun _ => 0⟩
def R.MOT_CAP_CTRL : Reg := ⟨0x10000010, [], 32, true, fun _ => 0⟩
def R.MOT_n_CFG : Reg := ⟨0x10000100, [(4, 0x80)], 32, true, fun _ => 0xc20⟩
def R.MOT_n_CURRENT : Reg := ⟨0x10000108, [(4, 0x80)], 64, true, fun _ => 0x6440f03080⟩
def R.MOT_n_SPEED : Reg := ⟨0x10000110, [(4, 0x80)], 64, true, fun _ => 0x640000030d40⟩
def R.MOT_n_RAMP : Reg := ⟨0x10000118, [(4, 0x80)], 64, true, fun _ => 0x27100000271000⟩
def R.MOT_n_MOVE : Reg := ⟨0x10000120, [(4, 0x80)], 64, true, fun _ => 0⟩
def R.MOT_n_HOME : Reg := ⟨0x10000128, [(4, 0x80)], 64, true, fun _ => 0x320014003200⟩
def R.MOT_n_HOME_POS : Reg := ⟨0x10000130, [(4, 0x80)], 64, true, fun _ => 0xffffffff00000000⟩
def R.MOT_n_STALL : Reg := ⟨0x10000138, [(4, 0x80)], 64, true, fun _ => 0xc800000003c8⟩
def R.MOT_n_STAT : Reg := ⟨0x10000140, [(4, 0x80)], 32, false, fun _ => 0x200⟩
def R.MOT_n_POS : Reg := ⟨0x10000148, [(4, 0x80)], 64, false, fun _ => 0⟩
def R.MOT_n_LATCH : Reg := ⟨0x10000150, [(4, 0x80)], 64, false, fun _ => 0⟩
def R.MOT_n_COUNT : Reg := ⟨0x10000158, [(4, 0x80)], 64, false, fun _ => 0⟩
def R.SV_REG : Reg := ⟨0x11000000, [], 64, false, fun _ => 0⟩
def R.SV_a_CFG : Reg := ⟨0x11000100, [(2, 0x100)], 32, true, fun _ => 0x193200⟩
def R.SV_a_FB : Reg := ⟨0x11000108, [(2, 0x100)], 64, true, fun _ => 0x10000⟩
def R.SV_a_COMM : Reg := ⟨0x11000110, [(2, 0x100)], 64, true, fun _ => 0x1000000001000000⟩
def R.SV_a_TARGET : Reg := ⟨0x11000118, [(2, 0x100)], 32, true, fun _ => 0⟩
def R.SV_a_LIMITS : Reg := ⟨0x11000120, [(2, 0x100)], 64, true, fun _ => 0xea60ffff15a0⟩
def R.SV_a_SPEED : Reg := ⟨0x11000128, [(2, 0x100)], 64, true, fun _ => 0x7735940000030d40⟩
def R.SV_a_RAMP : Reg := ⟨0x11000130, [(2, 0x100)], 64, true, fun _ => 0x1e8480001e8480⟩
def R.SV_a_GAIN : Reg := ⟨0x11000138, [(2, 0x100)], 64, true, fun _ => 0x2000080001000400⟩
def R.SV_a_FF : Reg := ⟨0x11000140, [(2, 0x100)], 64, true, fun _ => 0⟩
def R.SV_a_CURRENT : Reg := ⟨0x11000148, [(2, 0x100)], 64, true, fun _ => 0x800010075304000⟩
def R.SV_a_PLAUS : Reg := ⟨0x11000150, [(2, 0x100)], 64, true, fun _ => 0x3e8001900c8⟩
def R.SV_a_MODEL : Reg := ⟨0x11000158, [(2, 0x100)], 64, true, fun _ => 0⟩
def R.SV_a_REF : Reg := ⟨0x11000160, [(2, 0x100)], 64, true, fun _ => 0x271000000000⟩
def R.SV_a_CTRL : Reg := ⟨0x11000168, [(2, 0x100)], 32, true, fun _ => 0⟩
def R.SV_a_STAT : Reg := ⟨0x11000170, [(2, 0x100)], 32, false, fun _ => 0⟩
def R.SV_a_POS : Reg := ⟨0x11000178, [(2, 0x100)], 64, false, fun _ => 0⟩
def R.SV_a_LOOP : Reg := ⟨0x11000180, [(2, 0x100)], 64, false, fun _ => 0⟩
def R.SV_a_COUNT : Reg := ⟨0x11000188, [(2, 0x100)], 64, false, fun _ => 0⟩
def R.SV_a_NOTCH : Reg := ⟨0x110001c0, [(2, 0x100), (2, 0x20), (5, 0x4)], 32, true, fun i => if i % 5 = 0 then 0x40000000 else 0⟩
def R.TRM_TRIM_CTRL : Reg := ⟨0x12000000, [], 32, true, fun _ => 0x2000⟩
def R.TRM_MAP : Reg := ⟨0x12000008, [], 32, false, fun _ => 0x11f1f⟩
def R.TRM_CHECK_CFG : Reg := ⟨0x12000010, [], 32, true, fun _ => 0x3e8⟩
def R.TRM_CH : Reg := ⟨0x12000100, [(26, 0x8)], 64, false, fun _ => 0⟩
def R.TRM_TRIM : Reg := ⟨0x12000200, [(26, 0x8)], 64, false, fun _ => 0x8000⟩
def R.TRM_EYE_BASE : Reg := ⟨0x12000300, [(8, 0x4)], 32, false, fun _ => 0⟩
def R.SYS_FAULT_STAT : Reg := ⟨0x1000080, [], 32, false, fun _ => 0x40000⟩
def R.SYS_FAULT_MASK : Reg := ⟨0x1000088, [], 32, true, fun _ => 0x2f⟩
def R.SYS_TEMP : Reg := ⟨0x1000090, [], 64, false, fun _ => 0x80000000⟩
def R.INS_Cc_DEFECT : Reg := ⟨0xe100000, [(8, 0x4000), (128, 0x4)], 32, true, fun _ => 0⟩
def R.INS_Cc_SHADE : Reg := ⟨0xe200000, [(8, 0x4000), (4096, 0x4)], 32, true, fun _ => 0x4000⟩
def R.INS_Cc_DENS_LUT : Reg := ⟨0xe300000, [(8, 0x1000), (1024, 0x4)], 32, true, fun i => packEntries densReset (i % 1024)⟩
def R.INS_Cc_EXP_LUT : Reg := ⟨0xe308000, [(8, 0x20), (8, 0x4)], 32, true, fun i => packEntries expReset (i % 8)⟩
def R.VLT_CERT : Reg := ⟨0x3001000, [(256, 0x4)], 32, true, fun _ => 0⟩
def R.PAT_STAGING : Reg := ⟨0x2400000, [(1048576, 0x4)], 32, true, fun _ => 0⟩

/-! ### Fields -/

def F.HST_APBASE_BASE : Fld := ⟨R.HST_APBASE, 21, 19, .rw, .any, false⟩

def F.GL_DEVICE_ID_PART : Fld := ⟨R.GL_DEVICE_ID, 16, 16, .ro, .any, false⟩
def F.GL_DEVICE_ID_STEP_MAJ : Fld := ⟨R.GL_DEVICE_ID, 12, 4, .ro, .any, false⟩
def F.GL_DEVICE_ID_STEP_MIN : Fld := ⟨R.GL_DEVICE_ID, 8, 4, .ro, .any, false⟩

def F.GL_SERIAL_SERIAL : Fld := ⟨R.GL_SERIAL, 0, 64, .ro, .any, false⟩

def F.GL_BEAT_BEAT : Fld := ⟨R.GL_BEAT, 0, 64, .ro, .any, false⟩

def F.GL_SNAP_REQ_REQ : Fld := ⟨R.GL_SNAP_REQ, 0, 1, .wo, .any, false⟩

def F.GL_SNAP_STAT_PENDING : Fld := ⟨R.GL_SNAP_STAT, 31, 1, .ro, .any, false⟩
def F.GL_SNAP_STAT_EPOCH : Fld := ⟨R.GL_SNAP_STAT, 0, 24, .ro, .any, false⟩

def F.PAT_STATUS_STATE : Fld := ⟨R.PAT_STATUS, 0, 3, .ro, .any, false⟩
def F.PAT_STATUS_SOURCE : Fld := ⟨R.PAT_STATUS, 4, 3, .ro, .any, false⟩
def F.PAT_STATUS_MBOX_BUSY : Fld := ⟨R.PAT_STATUS, 7, 1, .w1c, .any, false⟩
def F.PAT_STATUS_ERR : Fld := ⟨R.PAT_STATUS, 8, 8, .ro, .any, false⟩
def F.PAT_STATUS_SECTION : Fld := ⟨R.PAT_STATUS, 16, 6, .ro, .any, false⟩

def F.PAT_ID_PATTERN_ID : Fld := ⟨R.PAT_ID, 0, 64, .ro, .any, false⟩

def F.PAT_GEN_ROLLBACK : Fld := ⟨R.PAT_GEN, 0, 16, .ro, .any, false⟩
def F.PAT_GEN_GAUGE_GEN : Fld := ⟨R.PAT_GEN, 16, 8, .ro, .any, false⟩
def F.PAT_GEN_INSPECT_GEN : Fld := ⟨R.PAT_GEN, 24, 8, .ro, .any, false⟩

def F.PAT_MBOX_LEN_LENGTH : Fld := ⟨R.PAT_MBOX_LEN, 0, 23, .rw, .any, false⟩

def F.PAT_MBOX_CTRL_GO : Fld := ⟨R.PAT_MBOX_CTRL, 0, 1, .wo, .any, false⟩
def F.PAT_MBOX_CTRL_ABORT : Fld := ⟨R.PAT_MBOX_CTRL, 1, 1, .wo, .any, false⟩

def F.PAT_REPAT_CTRL_GO : Fld := ⟨R.PAT_REPAT_CTRL, 0, 1, .wo, .any, false⟩

def F.SYS_RESET_KIND : Fld := ⟨R.SYS_RESET, 0, 2, .wo, .any, false⟩
def F.SYS_RESET_KEY : Fld := ⟨R.SYS_RESET, 16, 16, .wo, .any, false⟩

def F.SYS_RST_CAUSE_CAUSE : Fld := ⟨R.SYS_RST_CAUSE, 0, 3, .ro, .any, false⟩

def F.SYS_CASTON_STAT_STEP : Fld := ⟨R.SYS_CASTON_STAT, 0, 5, .ro, .any, false⟩
def F.SYS_CASTON_STAT_STATE : Fld := ⟨R.SYS_CASTON_STAT, 5, 3, .ro, .any, false⟩
def F.SYS_CASTON_STAT_CODE : Fld := ⟨R.SYS_CASTON_STAT, 8, 8, .ro, .any, false⟩
def F.SYS_CASTON_STAT_LAST_STEP : Fld := ⟨R.SYS_CASTON_STAT, 16, 5, .ro, .any, false⟩
def F.SYS_CASTON_STAT_DEGRADED : Fld := ⟨R.SYS_CASTON_STAT, 21, 1, .ro, .any, false⟩

def F.SYS_CLOG_ATTEMPTS_ATTEMPTS : Fld := ⟨R.SYS_CLOG_ATTEMPTS, 0, 64, .ro, .any, false⟩

def F.SYS_CLOG_DIR_LINK_OFF : Fld := ⟨R.SYS_CLOG_DIR, 0, 32, .ro, .any, false⟩
def F.SYS_CLOG_DIR_CAM_OFF : Fld := ⟨R.SYS_CLOG_DIR, 32, 8, .ro, .any, false⟩
def F.SYS_CLOG_DIR_IMAGE_B : Fld := ⟨R.SYS_CLOG_DIR, 40, 1, .ro, .any, false⟩
def F.SYS_CLOG_DIR_DRAM_SLOWER : Fld := ⟨R.SYS_CLOG_DIR, 41, 1, .ro, .any, false⟩
def F.SYS_CLOG_DIR_SINGLE_ENGINE : Fld := ⟨R.SYS_CLOG_DIR, 42, 1, .ro, .any, false⟩
def F.SYS_CLOG_DIR_ENGINE : Fld := ⟨R.SYS_CLOG_DIR, 43, 1, .ro, .any, false⟩
def F.SYS_CLOG_DIR_SKIP : Fld := ⟨R.SYS_CLOG_DIR, 44, 16, .ro, .any, false⟩

def F.SYS_CLOG_CTRL_CLEAR : Fld := ⟨R.SYS_CLOG_CTRL, 0, 1, .wo, .any, false⟩

def F.SYS_CLOG_COUNT_COUNT : Fld := ⟨R.SYS_CLOG_COUNT, 0, 32, .ro, .any, false⟩

def F.SYS_BINDOFF_GO : Fld := ⟨R.SYS_BINDOFF, 0, 1, .wo, .any, false⟩
def F.SYS_BINDOFF_ABORT_PAGE : Fld := ⟨R.SYS_BINDOFF, 1, 1, .wo, .any, false⟩
def F.SYS_BINDOFF_NO_CAP : Fld := ⟨R.SYS_BINDOFF, 2, 1, .wo, .any, false⟩

def F.SYS_SAVE_BASE_ENABLE : Fld := ⟨R.SYS_SAVE_BASE, 0, 1, .rw, .any, false⟩
def F.SYS_SAVE_BASE_BASE : Fld := ⟨R.SYS_SAVE_BASE, 21, 19, .rw, .any, false⟩

def F.SYS_FUNC_STAT_DEC : Fld := ⟨R.SYS_FUNC_STAT, 0, 3, .ro, .any, false⟩
def F.SYS_FUNC_STAT_ENC : Fld := ⟨R.SYS_FUNC_STAT, 4, 3, .ro, .any, false⟩
def F.SYS_FUNC_STAT_Q0 : Fld := ⟨R.SYS_FUNC_STAT, 8, 3, .ro, .any, false⟩
def F.SYS_FUNC_STAT_Q1 : Fld := ⟨R.SYS_FUNC_STAT, 12, 3, .ro, .any, false⟩
def F.SYS_FUNC_STAT_Q2 : Fld := ⟨R.SYS_FUNC_STAT, 16, 3, .ro, .any, false⟩
def F.SYS_FUNC_STAT_Q3 : Fld := ⟨R.SYS_FUNC_STAT, 20, 3, .ro, .any, false⟩
def F.SYS_FUNC_STAT_F0 : Fld := ⟨R.SYS_FUNC_STAT, 24, 3, .ro, .any, false⟩
def F.SYS_FUNC_STAT_E0 : Fld := ⟨R.SYS_FUNC_STAT, 28, 3, .ro, .any, false⟩
def F.SYS_FUNC_STAT_E1 : Fld := ⟨R.SYS_FUNC_STAT, 32, 3, .ro, .any, false⟩
def F.SYS_FUNC_STAT_PENDING : Fld := ⟨R.SYS_FUNC_STAT, 40, 9, .ro, .any, false⟩

def F.TB_NOW_NS : Fld := ⟨R.TB_NOW, 0, 64, .ro, .any, false⟩

def F.TB_NOW_FRAC_FRAC : Fld := ⟨R.TB_NOW_FRAC, 0, 16, .ro, .any, false⟩

def F.TB_INCR_INCR : Fld := ⟨R.TB_INCR, 0, 40, .rw, .any, false⟩

def F.TB_CTRL_MANUAL : Fld := ⟨R.TB_CTRL, 0, 1, .rw, .any, false⟩
def F.TB_CTRL_RESYNC : Fld := ⟨R.TB_CTRL, 1, 1, .wo, .any, false⟩
def F.TB_CTRL_MODE : Fld := ⟨R.TB_CTRL, 2, 1, .ro, .any, false⟩
def F.TB_CTRL_ARMED : Fld := ⟨R.TB_CTRL, 3, 1, .ro, .any, false⟩

def F.TB_LIMITS_STEP_THRESH : Fld := ⟨R.TB_LIMITS, 0, 32, .rw, .range 1000 1000000000, false⟩
/-- A value below its range of 10 to 65,535 is kept as written (R89). Log entry 213 (DESIGN CHOICE). -/
def F.TB_LIMITS_LOCK_NS : Fld := ⟨R.TB_LIMITS, 32, 16, .rw, .any, false⟩
def F.TB_LIMITS_JUMP_MAX_US : Fld := ⟨R.TB_LIMITS, 48, 16, .ro, .any, true⟩

def F.TB_JUMP_MAX_JUMP_MAX : Fld := ⟨R.TB_JUMP_MAX, 0, 30, .ro, .any, false⟩

def F.TB_SERVO_KP : Fld := ⟨R.TB_SERVO, 0, 16, .rw, .any, false⟩
def F.TB_SERVO_KI : Fld := ⟨R.TB_SERVO, 16, 16, .rw, .any, false⟩

def F.TB_STEP_DELTA : Fld := ⟨R.TB_STEP, 0, 64, .wo, .any, false⟩

def F.TB_STATE_STATE : Fld := ⟨R.TB_STATE, 0, 2, .ro, .any, false⟩
def F.TB_STATE_PORT : Fld := ⟨R.TB_STATE, 2, 1, .ro, .any, false⟩
def F.TB_STATE_STEP_PENDING : Fld := ⟨R.TB_STATE, 3, 1, .ro, .any, false⟩
def F.TB_STATE_STEPS : Fld := ⟨R.TB_STATE, 8, 8, .ro, .any, false⟩
def F.TB_STATE_REFUSED : Fld := ⟨R.TB_STATE, 16, 16, .ro, .any, true⟩

def F.TB_OFFSET_OFFSET : Fld := ⟨R.TB_OFFSET, 0, 64, .ro, .any, false⟩

def F.TB_PATH_DELAY : Fld := ⟨R.TB_PATH, 0, 64, .ro, .any, false⟩

def F.TB_FREQ_I : Fld := ⟨R.TB_FREQ, 0, 32, .ro, .any, false⟩

def F.TB_GM_IDENTITY : Fld := ⟨R.TB_GM, 0, 64, .ro, .any, false⟩

def F.TB_PORT_CFG_DELAY : Fld := ⟨R.TB_PORT_CFG, 0, 1, .rw, .any, false⟩
def F.TB_PORT_CFG_TRANSPORT : Fld := ⟨R.TB_PORT_CFG, 1, 1, .rw, .any, false⟩
def F.TB_PORT_CFG_ANN_TIMEOUT : Fld := ⟨R.TB_PORT_CFG, 4, 4, .rw, .range 2 10, false⟩
def F.TB_PORT_CFG_LOG_PDELAY : Fld := ⟨R.TB_PORT_CFG, 8, 8, .rw, .any, false⟩

def F.TB_PORT_IP_ADDR : Fld := ⟨R.TB_PORT_IP, 0, 32, .rw, .any, false⟩

def F.TB_TS_ADJ_RX_ADJ : Fld := ⟨R.TB_TS_ADJ, 0, 16, .rw, .any, false⟩
def F.TB_TS_ADJ_TX_ADJ : Fld := ⟨R.TB_TS_ADJ, 16, 16, .rw, .any, false⟩

def F.WT_STAT_STATE : Fld := ⟨R.WT_STAT, 0, 2, .ro, .any, false⟩
def F.WT_STAT_DIR : Fld := ⟨R.WT_STAT, 2, 1, .ro, .any, false⟩
def F.WT_STAT_SETTLING : Fld := ⟨R.WT_STAT, 3, 1, .ro, .any, false⟩
def F.WT_STAT_SUSPENDED : Fld := ⟨R.WT_STAT, 4, 1, .ro, .any, false⟩
def F.WT_STAT_SUSP_CAUSE : Fld := ⟨R.WT_STAT, 5, 2, .ro, .any, false⟩
def F.WT_STAT_POS_UNCERTAIN : Fld := ⟨R.WT_STAT, 7, 1, .w1c, .any, false⟩
def F.WT_STAT_QUAD_FAULT : Fld := ⟨R.WT_STAT, 8, 1, .w1c, .any, false⟩
def F.WT_STAT_SCALE_REFUSED : Fld := ⟨R.WT_STAT, 9, 1, .w1c, .any, false⟩

def F.WT_POS_POS : Fld := ⟨R.WT_POS, 0, 64, .ro, .any, false⟩

def F.WT_SPEED_SPEED : Fld := ⟨R.WT_SPEED, 0, 64, .ro, .any, false⟩

def F.WT_ACCEL_ACCEL : Fld := ⟨R.WT_ACCEL, 0, 64, .ro, .any, false⟩

def F.WT_DEBT_D : Fld := ⟨R.WT_DEBT, 0, 32, .ro, .any, true⟩

def F.WT_SRC_CFG_SRC : Fld := ⟨R.WT_SRC_CFG, 0, 1, .rwl, .any, false⟩

def F.WT_SCALE_SCALE : Fld := ⟨R.WT_SCALE, 0, 32, .rw, .range 1 4294967295, false⟩

def F.WT_GAIN_ALPHA : Fld := ⟨R.WT_GAIN, 0, 16, .rw, .any, false⟩
def F.WT_GAIN_BETA : Fld := ⟨R.WT_GAIN, 16, 16, .rw, .any, false⟩
def F.WT_GAIN_GAMMA : Fld := ⟨R.WT_GAIN, 32, 16, .rw, .any, false⟩

def F.WT_LIMITS_STILL_T : Fld := ⟨R.WT_LIMITS, 0, 24, .rw, .range 1000 1000000, false⟩
def F.WT_LIMITS_REV_LIMIT : Fld := ⟨R.WT_LIMITS, 32, 16, .rw, .range 1 65535, false⟩
def F.WT_LIMITS_COAST_MAX : Fld := ⟨R.WT_LIMITS, 48, 16, .rw, .any, false⟩

def F.WT_CUE_CFG_CUE_DELAY : Fld := ⟨R.WT_CUE_CFG, 0, 48, .rw, .any, false⟩
def F.WT_CUE_CFG_ENABLE : Fld := ⟨R.WT_CUE_CFG, 48, 1, .rw, .any, false⟩
def F.WT_CUE_CFG_SOFT : Fld := ⟨R.WT_CUE_CFG, 49, 1, .wo, .any, false⟩

def F.WT_PAGE_START : Fld := ⟨R.WT_PAGE, 0, 48, .ro, .any, false⟩
def F.WT_PAGE_ACTIVE : Fld := ⟨R.WT_PAGE, 48, 1, .ro, .any, false⟩
def F.WT_PAGE_SUSPECT : Fld := ⟨R.WT_PAGE, 49, 1, .ro, .any, false⟩

def F.WT_MISSED_LATE : Fld := ⟨R.WT_MISSED, 0, 32, .ro, .any, true⟩
def F.WT_MISSED_CLAMPED : Fld := ⟨R.WT_MISSED, 32, 32, .ro, .any, true⟩

def F.WT_Qn_CFG_ENABLE : Fld := ⟨R.WT_Qn_CFG, 0, 1, .rw, .any, false⟩
def F.WT_Qn_CFG_DIR_INV : Fld := ⟨R.WT_Qn_CFG, 1, 1, .rw, .any, false⟩
def F.WT_Qn_CFG_IDX_MODE : Fld := ⟨R.WT_Qn_CFG, 2, 2, .rw, .any, false⟩
def F.WT_Qn_CFG_IDX_ARM : Fld := ⟨R.WT_Qn_CFG, 4, 1, .w1s, .any, false⟩
def F.WT_Qn_CFG_FILT : Fld := ⟨R.WT_Qn_CFG, 8, 8, .rw, .any, false⟩

def F.WT_Qn_STAT_POS_UNCERTAIN : Fld := ⟨R.WT_Qn_STAT, 0, 1, .w1c, .any, false⟩
def F.WT_Qn_STAT_QUAD_FAULT : Fld := ⟨R.WT_Qn_STAT, 1, 1, .w1c, .any, false⟩
def F.WT_Qn_STAT_QERR : Fld := ⟨R.WT_Qn_STAT, 16, 16, .ro, .any, false⟩

def F.WT_Qn_COUNT_COUNT : Fld := ⟨R.WT_Qn_COUNT, 0, 32, .ro, .any, false⟩

def F.WT_Qn_IDX_LATCH : Fld := ⟨R.WT_Qn_IDX, 0, 32, .ro, .any, false⟩

def F.WT_Qn_IDXTIME_STAMP : Fld := ⟨R.WT_Qn_IDXTIME, 0, 64, .ro, .any, false⟩

def F.WT_F0_CFG_ENABLE : Fld := ⟨R.WT_F0_CFG, 0, 1, .rw, .any, false⟩
def F.WT_F0_CFG_DIR_INV : Fld := ⟨R.WT_F0_CFG, 1, 1, .rw, .any, false⟩
def F.WT_F0_CFG_FILT : Fld := ⟨R.WT_F0_CFG, 8, 8, .rw, .any, false⟩

def F.WT_F0_COUNT_COUNT : Fld := ⟨R.WT_F0_COUNT, 0, 32, .ro, .any, false⟩

def F.WT_CMP_STAT_CMP_LATE : Fld := ⟨R.WT_CMP_STAT, 0, 32, .ro, .any, true⟩
def F.WT_CMP_STAT_CMP_OVER : Fld := ⟨R.WT_CMP_STAT, 32, 32, .ro, .any, true⟩

def F.WT_CMP_START_START : Fld := ⟨R.WT_CMP_START, 0, 64, .rw, .any, false⟩

def F.WT_CMP_REPEAT_PERIOD : Fld := ⟨R.WT_CMP_REPEAT, 0, 32, .rw, .any, false⟩
def F.WT_CMP_REPEAT_COUNT : Fld := ⟨R.WT_CMP_REPEAT, 32, 32, .rw, .any, false⟩

def F.WT_CMP_OUT_TRIG_MASK : Fld := ⟨R.WT_CMP_OUT, 0, 8, .rw, .any, false⟩
def F.WT_CMP_OUT_MARK_MASK : Fld := ⟨R.WT_CMP_OUT, 8, 8, .rw, .any, false⟩
def F.WT_CMP_OUT_WIDTH : Fld := ⟨R.WT_CMP_OUT, 16, 16, .rw, .range 16 65535, false⟩
def F.WT_CMP_OUT_ENABLE : Fld := ⟨R.WT_CMP_OUT, 32, 1, .rw, .any, false⟩
def F.WT_CMP_OUT_RELATIVE : Fld := ⟨R.WT_CMP_OUT, 33, 1, .rw, .any, false⟩
def F.WT_CMP_OUT_DONE : Fld := ⟨R.WT_CMP_OUT, 34, 1, .ro, .any, false⟩

def F.CD_CTRL_DEC_ENABLE : Fld := ⟨R.CD_CTRL, 0, 1, .rw, .any, false⟩
def F.CD_CTRL_ENC_ENABLE : Fld := ⟨R.CD_CTRL, 1, 1, .rw, .any, false⟩

def F.CD_PAGE_PUSH_ADDR : Fld := ⟨R.CD_PAGE_PUSH, 6, 34, .wo, .any, false⟩

def F.CD_QSTAT_DEPTH : Fld := ⟨R.CD_QSTAT, 0, 7, .ro, .any, false⟩
def F.CD_QSTAT_OVERFLOW : Fld := ⟨R.CD_QSTAT, 7, 1, .w1c, .any, false⟩

def F.CD_HEAD_PAGE_ID : Fld := ⟨R.CD_HEAD, 0, 32, .ro, .any, false⟩
def F.CD_HEAD_LINES : Fld := ⟨R.CD_HEAD, 32, 24, .ro, .any, false⟩
def F.CD_HEAD_READY : Fld := ⟨R.CD_HEAD, 63, 1, .ro, .any, false⟩

def F.CD_LANE_MAP_SPARE_FOR : Fld := ⟨R.CD_LANE_MAP, 0, 4, .ro, .any, false⟩
def F.CD_LANE_MAP_SPARE_STATE : Fld := ⟨R.CD_LANE_MAP, 4, 2, .ro, .any, false⟩
def F.CD_LANE_MAP_FAILED : Fld := ⟨R.CD_LANE_MAP, 16, 16, .ro, .any, false⟩

def F.CD_LANE_FORCE_LANE : Fld := ⟨R.CD_LANE_FORCE, 0, 4, .rwl, .any, false⟩
def F.CD_LANE_FORCE_FORCE : Fld := ⟨R.CD_LANE_FORCE, 4, 1, .rwl, .any, false⟩

def F.CD_BAND_ERR_EXPANSION : Fld := ⟨R.CD_BAND_ERR, 0, 16, .snap, .any, false⟩
def F.CD_BAND_ERR_SHORT : Fld := ⟨R.CD_BAND_ERR, 16, 16, .snap, .any, false⟩
def F.CD_BAND_ERR_BAD : Fld := ⟨R.CD_BAND_ERR, 32, 16, .snap, .any, false⟩
def F.CD_BAND_ERR_CRC : Fld := ⟨R.CD_BAND_ERR, 48, 16, .snap, .any, false⟩

def F.CD_LATE_SEGMENTS : Fld := ⟨R.CD_LATE, 0, 32, .snap, .any, true⟩

def F.CD_ENCn_SRC_ADDR : Fld := ⟨R.CD_ENCn_SRC, 0, 40, .rw, .any, false⟩
def F.CD_ENCn_SRC_LEN : Fld := ⟨R.CD_ENCn_SRC, 40, 24, .rw, .any, false⟩

def F.CD_ENCn_SKEIN_ADDR : Fld := ⟨R.CD_ENCn_SKEIN, 5, 35, .rw, .any, false⟩

def F.CD_ENCn_CTRL_GO : Fld := ⟨R.CD_ENCn_CTRL, 0, 1, .wo, .any, false⟩
def F.CD_ENCn_CTRL_KICK : Fld := ⟨R.CD_ENCn_CTRL, 1, 1, .wo, .any, false⟩
def F.CD_ENCn_CTRL_MODE : Fld := ⟨R.CD_ENCn_CTRL, 2, 1, .rw, .any, false⟩
def F.CD_ENCn_CTRL_TAG : Fld := ⟨R.CD_ENCn_CTRL, 16, 16, .rw, .any, false⟩

def F.CD_ENCn_STAT_STATE : Fld := ⟨R.CD_ENCn_STAT, 0, 2, .ro, .any, false⟩
def F.CD_ENCn_STAT_ERR : Fld := ⟨R.CD_ENCn_STAT, 2, 1, .ro, .any, false⟩

def F.LA_WINDOW_BASE : Fld := ⟨R.LA_WINDOW, 21, 19, .ro, .any, false⟩
def F.LA_WINDOW_LOG_LINES : Fld := ⟨R.LA_WINDOW, 48, 4, .ro, .any, false⟩

def F.LA_RELEASE_RM : Fld := ⟨R.LA_RELEASE, 0, 48, .ro, .any, false⟩

def F.LA_HEAD_OFF_OFF : Fld := ⟨R.LA_HEAD_OFF, 0, 32, .rw, .any, false⟩

def F.LA_HEAD_OUT_OUT : Fld := ⟨R.LA_HEAD_OUT, 0, 32, .ro, .any, false⟩
def F.LA_HEAD_OUT_CAUSE : Fld := ⟨R.LA_HEAD_OUT, 32, 4, .ro, .any, false⟩

def F.LA_SHIFT_HOST : Fld := ⟨R.LA_SHIFT, 0, 11, .rw, .any, false⟩
def F.LA_SHIFT_WHEN : Fld := ⟨R.LA_SHIFT, 16, 1, .rw, .any, false⟩
def F.LA_SHIFT_AUTO_WHEN : Fld := ⟨R.LA_SHIFT, 17, 1, .rw, .any, false⟩
def F.LA_SHIFT_PENDING : Fld := ⟨R.LA_SHIFT, 18, 1, .ro, .any, false⟩

def F.LA_SHIFT_STAT_AUTO : Fld := ⟨R.LA_SHIFT_STAT, 0, 11, .ro, .any, false⟩
def F.LA_SHIFT_STAT_SHIFT : Fld := ⟨R.LA_SHIFT_STAT, 16, 11, .ro, .any, false⟩

def F.LA_MARGIN_FIRST : Fld := ⟨R.LA_MARGIN, 0, 16, .rw, .any, false⟩
def F.LA_MARGIN_LAST : Fld := ⟨R.LA_MARGIN, 16, 16, .rw, .any, false⟩

def F.LA_BLEND_CTRL_MODE : Fld := ⟨R.LA_BLEND_CTRL, 0, 1, .rw, .any, false⟩
def F.LA_BLEND_CTRL_WHEN : Fld := ⟨R.LA_BLEND_CTRL, 1, 1, .rw, .any, false⟩
def F.LA_BLEND_CTRL_COMMIT : Fld := ⟨R.LA_BLEND_CTRL, 2, 1, .wo, .any, false⟩

def F.LA_BLEND_MASK_ENTRIES : Fld := ⟨R.LA_BLEND_MASK, 0, 32, .rw, .any, false⟩

def F.LA_SWATCH_ARM : Fld := ⟨R.LA_SWATCH, 0, 1, .w1s, .any, false⟩
def F.LA_SWATCH_STEP : Fld := ⟨R.LA_SWATCH, 8, 8, .rw, .range 2 128, false⟩
def F.LA_SWATCH_REPEATS : Fld := ⟨R.LA_SWATCH, 16, 8, .rw, .range 1 255, false⟩
def F.LA_SWATCH_SIZE : Fld := ⟨R.LA_SWATCH, 24, 2, .rw, .range 1 3, false⟩
def F.LA_SWATCH_START : Fld := ⟨R.LA_SWATCH, 32, 24, .rw, .any, false⟩

def F.LA_COUNT_READ_LATE : Fld := ⟨R.LA_COUNT, 0, 32, .snap, .any, true⟩
def F.LA_COUNT_READ_LOST : Fld := ⟨R.LA_COUNT, 32, 32, .snap, .any, true⟩

def F.PE_HIST_CFG_IDLE_BEATS : Fld := ⟨R.PE_HIST_CFG, 0, 16, .rw, .range 1 65535, false⟩
def F.PE_HIST_CFG_HIST_EN : Fld := ⟨R.PE_HIST_CFG, 16, 1, .rw, .any, false⟩

def F.PE_SPIT_ENABLE : Fld := ⟨R.PE_SPIT, 0, 1, .rw, .any, false⟩
def F.PE_SPIT_SIZE : Fld := ⟨R.PE_SPIT, 1, 2, .rw, .range 1 3, false⟩
def F.PE_SPIT_PERIOD : Fld := ⟨R.PE_SPIT, 16, 16, .rw, .range 2 65535, false⟩

def F.PE_HIST_MAP_MAP : Fld := ⟨R.PE_HIST_MAP, 0, 32, .rw, .any, false⟩

def F.PE_TRIM_TRIM : Fld := ⟨R.PE_TRIM, 0, 32, .rw, .any, false⟩

def F.PE_TRIM_CTRL_COMMIT : Fld := ⟨R.PE_TRIM_CTRL, 0, 1, .wo, .any, false⟩
def F.PE_TRIM_CTRL_PENDING : Fld := ⟨R.PE_TRIM_CTRL, 1, 1, .ro, .any, false⟩

def F.HL_TEMP_CFG_WARN : Fld := ⟨R.HL_TEMP_CFG, 0, 16, .rw, .any, false⟩
def F.HL_TEMP_CFG_LIMIT : Fld := ⟨R.HL_TEMP_CFG, 16, 16, .rw, .any, false⟩
def F.HL_TEMP_CFG_HYST : Fld := ⟨R.HL_TEMP_CFG, 32, 8, .rw, .any, false⟩
def F.HL_TEMP_CFG_TIMEOUT : Fld := ⟨R.HL_TEMP_CFG, 48, 8, .rw, .range 1 255, false⟩

def F.HL_TEMP_STAT_TEMP : Fld := ⟨R.HL_TEMP_STAT, 0, 16, .ro, .any, false⟩
def F.HL_TEMP_STAT_STATE : Fld := ⟨R.HL_TEMP_STAT, 16, 2, .ro, .any, false⟩
def F.HL_TEMP_STAT_STALE : Fld := ⟨R.HL_TEMP_STAT, 18, 1, .ro, .any, false⟩
def F.HL_TEMP_STAT_RESUME_SET : Fld := ⟨R.HL_TEMP_STAT, 19, 1, .ro, .any, false⟩
def F.HL_TEMP_STAT_TRIPS : Fld := ⟨R.HL_TEMP_STAT, 48, 16, .ro, .any, false⟩

def F.HL_ACT_COUNT : Fld := ⟨R.HL_ACT, 0, 48, .snap, .any, true⟩
def F.HL_ACT_EPOCH : Fld := ⟨R.HL_ACT, 48, 16, .ro, .any, false⟩

def F.PE_CLAIM_CLAIM : Fld := ⟨R.PE_CLAIM, 0, 8, .rw, .any, false⟩
def F.PE_CLAIM_DROPPED : Fld := ⟨R.PE_CLAIM, 8, 1, .ro, .any, false⟩
def F.PE_CLAIM_CAUSE : Fld := ⟨R.PE_CLAIM, 9, 3, .ro, .any, false⟩

def F.PE_STAT_ACTIVE : Fld := ⟨R.PE_STAT, 0, 1, .ro, .any, false⟩
def F.PE_STAT_CONNECTED : Fld := ⟨R.PE_STAT, 1, 1, .ro, .any, false⟩
def F.PE_STAT_FAILS_WIN : Fld := ⟨R.PE_STAT, 8, 8, .ro, .any, false⟩

def F.PE_CHECK_CFG_FAIL_LIMIT : Fld := ⟨R.PE_CHECK_CFG, 0, 8, .rw, .range 1 255, false⟩

def F.PE_COUNT_LINES : Fld := ⟨R.PE_COUNT, 0, 32, .snap, .any, false⟩
def F.PE_COUNT_CHECK_FAIL : Fld := ⟨R.PE_COUNT, 32, 16, .snap, .any, true⟩
def F.PE_COUNT_OVERRUN : Fld := ⟨R.PE_COUNT, 48, 16, .snap, .any, true⟩

def F.HL_INHIBIT_CTRL_INHIBIT : Fld := ⟨R.HL_INHIBIT_CTRL, 0, 1, .rw, .any, false⟩
def F.HL_INHIBIT_CTRL_RESUME : Fld := ⟨R.HL_INHIBIT_CTRL, 1, 1, .rw, .any, false⟩
def F.HL_INHIBIT_CTRL_PIN : Fld := ⟨R.HL_INHIBIT_CTRL, 2, 1, .ro, .any, false⟩
def F.HL_INHIBIT_CTRL_ACTIVE : Fld := ⟨R.HL_INHIBIT_CTRL, 3, 1, .ro, .any, false⟩
def F.HL_INHIBIT_CTRL_PACE_LOST : Fld := ⟨R.HL_INHIBIT_CTRL, 4, 1, .ro, .any, false⟩

def F.HL_ARB_COUNT_MISMATCH : Fld := ⟨R.HL_ARB_COUNT, 0, 16, .snap, .any, true⟩
def F.HL_ARB_COUNT_STAGE_CRC_A : Fld := ⟨R.HL_ARB_COUNT, 16, 16, .snap, .any, true⟩
def F.HL_ARB_COUNT_STAGE_CRC_B : Fld := ⟨R.HL_ARB_COUNT, 32, 16, .snap, .any, true⟩
def F.HL_ARB_COUNT_BLANKED : Fld := ⟨R.HL_ARB_COUNT, 48, 16, .snap, .any, true⟩

def F.HL_GLOBAL_CFG_EYE_MIN : Fld := ⟨R.HL_GLOBAL_CFG, 0, 8, .rw, .any, false⟩
def F.HL_GLOBAL_CFG_ERR_LIMIT : Fld := ⟨R.HL_GLOBAL_CFG, 8, 8, .rw, .range 1 255, false⟩
def F.HL_GLOBAL_CFG_STATUS_LOG : Fld := ⟨R.HL_GLOBAL_CFG, 16, 4, .rw, .range 2 8, false⟩

def F.HL_CFG_RETRAIN : Fld := ⟨R.HL_CFG, 0, 1, .wo, .any, false⟩
def F.HL_CFG_TEST : Fld := ⟨R.HL_CFG, 1, 1, .rw, .any, false⟩
def F.HL_CFG_DN_SLEEP_EN : Fld := ⟨R.HL_CFG, 2, 1, .rw, .any, false⟩
def F.HL_CFG_UP_SLEEP_EN : Fld := ⟨R.HL_CFG, 3, 1, .rw, .any, false⟩
def F.HL_CFG_DN_SLEEP_BEATS : Fld := ⟨R.HL_CFG, 16, 16, .rw, .range 16 65535, false⟩

def F.HL_STAT_STATE : Fld := ⟨R.HL_STAT, 0, 4, .ro, .any, false⟩
def F.HL_STAT_GEN : Fld := ⟨R.HL_STAT, 4, 2, .ro, .any, false⟩
def F.HL_STAT_UP : Fld := ⟨R.HL_STAT, 6, 1, .ro, .any, false⟩
def F.HL_STAT_IN_SERVICE : Fld := ⟨R.HL_STAT, 7, 1, .ro, .any, false⟩
def F.HL_STAT_DN_ASLEEP : Fld := ⟨R.HL_STAT, 8, 1, .ro, .any, false⟩
def F.HL_STAT_UP_ASLEEP : Fld := ⟨R.HL_STAT, 9, 1, .ro, .any, false⟩
def F.HL_STAT_FELL_BACK : Fld := ⟨R.HL_STAT, 10, 1, .ro, .any, false⟩
def F.HL_STAT_ATTEMPT : Fld := ⟨R.HL_STAT, 12, 2, .ro, .any, false⟩
def F.HL_STAT_CAUSE : Fld := ⟨R.HL_STAT, 16, 4, .ro, .any, false⟩
def F.HL_STAT_HEAD_FLAGS : Fld := ⟨R.HL_STAT, 24, 8, .ro, .any, false⟩

def F.HL_TAPS_DN_PRE : Fld := ⟨R.HL_TAPS, 0, 6, .ro, .any, false⟩
def F.HL_TAPS_DN_MAIN : Fld := ⟨R.HL_TAPS, 8, 6, .ro, .any, false⟩
def F.HL_TAPS_DN_POST : Fld := ⟨R.HL_TAPS, 16, 6, .ro, .any, false⟩
def F.HL_TAPS_UP_PRE : Fld := ⟨R.HL_TAPS, 32, 6, .ro, .any, false⟩
def F.HL_TAPS_UP_MAIN : Fld := ⟨R.HL_TAPS, 40, 6, .ro, .any, false⟩
def F.HL_TAPS_UP_POST : Fld := ⟨R.HL_TAPS, 48, 6, .ro, .any, false⟩
def F.HL_TAPS_EYE : Fld := ⟨R.HL_TAPS, 56, 8, .ro, .any, false⟩

def F.HL_DELAY_D_DN : Fld := ⟨R.HL_DELAY, 0, 32, .ro, .any, false⟩
def F.HL_DELAY_ACCEPTED : Fld := ⟨R.HL_DELAY, 32, 16, .ro, .any, true⟩
def F.HL_DELAY_REJECTED : Fld := ⟨R.HL_DELAY, 48, 16, .ro, .any, true⟩

def F.HL_ASYM_ASYM : Fld := ⟨R.HL_ASYM, 0, 16, .rw, .any, false⟩

def F.HL_FIRE_ADJ_ROW_A : Fld := ⟨R.HL_FIRE_ADJ, 0, 16, .rw, .signedAbs 8000, false⟩
def F.HL_FIRE_ADJ_ROW_B : Fld := ⟨R.HL_FIRE_ADJ, 16, 16, .rw, .signedAbs 8000, false⟩

def F.HL_COUNT_CRC_UP : Fld := ⟨R.HL_COUNT, 0, 16, .snap, .any, true⟩
def F.HL_COUNT_CRC_DN : Fld := ⟨R.HL_COUNT, 16, 16, .snap, .any, true⟩
def F.HL_COUNT_TX_LATE : Fld := ⟨R.HL_COUNT, 32, 16, .snap, .any, true⟩
def F.HL_COUNT_RECOVERIES : Fld := ⟨R.HL_COUNT, 48, 16, .snap, .any, true⟩

def F.HL_HEAD_COUNT_FIRED : Fld := ⟨R.HL_HEAD_COUNT, 0, 32, .ro, .any, false⟩
def F.HL_HEAD_COUNT_DISCARDED : Fld := ⟨R.HL_HEAD_COUNT, 32, 16, .ro, .any, false⟩

def F.HL_MGMT_CMD_ADDR : Fld := ⟨R.HL_MGMT_CMD, 0, 16, .rw, .any, false⟩
def F.HL_MGMT_CMD_COUNT : Fld := ⟨R.HL_MGMT_CMD, 16, 4, .rw, .range 1 8, false⟩
def F.HL_MGMT_CMD_WRITE : Fld := ⟨R.HL_MGMT_CMD, 20, 1, .rw, .any, false⟩
def F.HL_MGMT_CMD_GO : Fld := ⟨R.HL_MGMT_CMD, 32, 1, .wo, .any, false⟩
def F.HL_MGMT_CMD_CANCEL : Fld := ⟨R.HL_MGMT_CMD, 33, 1, .wo, .any, false⟩

def F.HL_MGMT_STAT_BUSY : Fld := ⟨R.HL_MGMT_STAT, 0, 1, .ro, .any, false⟩
def F.HL_MGMT_STAT_DONE : Fld := ⟨R.HL_MGMT_STAT, 1, 1, .w1c, .any, false⟩
def F.HL_MGMT_STAT_RESULT : Fld := ⟨R.HL_MGMT_STAT, 4, 4, .ro, .any, false⟩

def F.HL_MGMT_DATA_DATA : Fld := ⟨R.HL_MGMT_DATA, 0, 32, .rw, .any, false⟩

def F.INS_COMMIT_COMMIT : Fld := ⟨R.INS_COMMIT, 0, 1, .wo, .any, false⟩
def F.INS_COMMIT_PENDING : Fld := ⟨R.INS_COMMIT, 1, 1, .ro, .any, false⟩
def F.INS_COMMIT_GEN : Fld := ⟨R.INS_COMMIT, 16, 16, .ro, .any, false⟩

def F.INS_STAT_RING_LOG_ENTRIES : Fld := ⟨R.INS_STAT_RING, 0, 4, .rw, .range 6 15, false⟩
def F.INS_STAT_RING_BASE : Fld := ⟨R.INS_STAT_RING, 12, 28, .rw, .any, false⟩

def F.INS_STAT_HEAD_HEAD : Fld := ⟨R.INS_STAT_HEAD, 0, 16, .ro, .any, false⟩

def F.INS_I2Cm_CMD_DEV : Fld := ⟨R.INS_I2Cm_CMD, 0, 7, .rw, .any, false⟩
def F.INS_I2Cm_CMD_READ : Fld := ⟨R.INS_I2Cm_CMD, 7, 1, .rw, .any, false⟩
def F.INS_I2Cm_CMD_REG : Fld := ⟨R.INS_I2Cm_CMD, 8, 16, .rw, .any, false⟩
def F.INS_I2Cm_CMD_COUNT : Fld := ⟨R.INS_I2Cm_CMD, 24, 3, .rw, .range 1 4, false⟩
def F.INS_I2Cm_CMD_SPEED : Fld := ⟨R.INS_I2Cm_CMD, 28, 2, .rw, .any, false⟩
def F.INS_I2Cm_CMD_GO : Fld := ⟨R.INS_I2Cm_CMD, 32, 1, .wo, .any, false⟩

def F.INS_I2Cm_DATA_DATA : Fld := ⟨R.INS_I2Cm_DATA, 0, 32, .rw, .any, false⟩

def F.INS_I2Cm_STAT_BUSY : Fld := ⟨R.INS_I2Cm_STAT, 0, 1, .ro, .any, false⟩
def F.INS_I2Cm_STAT_DONE : Fld := ⟨R.INS_I2Cm_STAT, 1, 1, .w1c, .any, false⟩
def F.INS_I2Cm_STAT_RESULT : Fld := ⟨R.INS_I2Cm_STAT, 4, 2, .ro, .any, false⟩

def F.INS_Cc_CFG_ENABLE : Fld := ⟨R.INS_Cc_CFG, 0, 1, .rw, .any, false⟩
def F.INS_Cc_CFG_CAPTURE : Fld := ⟨R.INS_Cc_CFG, 1, 1, .rw, .any, false⟩
def F.INS_Cc_CFG_LINE_TMO : Fld := ⟨R.INS_Cc_CFG, 8, 10, .rw, .range 20 400, false⟩

def F.INS_Cc_STROBE_DELAY : Fld := ⟨R.INS_Cc_STROBE, 0, 16, .rw, .any, false⟩
def F.INS_Cc_STROBE_WIDTH : Fld := ⟨R.INS_Cc_STROBE, 16, 16, .rw, .range 100 65535, false⟩
def F.INS_Cc_STROBE_POLARITY : Fld := ⟨R.INS_Cc_STROBE, 32, 1, .rw, .any, false⟩

def F.INS_Cc_GEOM_ACROSS : Fld := ⟨R.INS_Cc_GEOM, 0, 24, .rw, .range 32768 262144, false⟩
def F.INS_Cc_GEOM_ALONG : Fld := ⟨R.INS_Cc_GEOM, 24, 4, .rw, .range 1 8, false⟩

def F.INS_Cc_BLACK_BLACK : Fld := ⟨R.INS_Cc_BLACK, 0, 12, .rw, .any, false⟩

def F.INS_Cc_I2C_DEV : Fld := ⟨R.INS_Cc_I2C, 0, 7, .rwl, .any, false⟩
def F.INS_Cc_I2C_PROBE_REG : Fld := ⟨R.INS_Cc_I2C, 8, 16, .rwl, .any, false⟩

def F.INS_Cc_FBUF_FRAMES : Fld := ⟨R.INS_Cc_FBUF, 0, 8, .rw, .range 1 255, false⟩
def F.INS_Cc_FBUF_BASE : Fld := ⟨R.INS_Cc_FBUF, 21, 19, .rw, .any, false⟩

def F.INS_Cc_STAT_STATE : Fld := ⟨R.INS_Cc_STAT, 0, 3, .ro, .any, false⟩
def F.INS_Cc_STAT_ENABLE_PENDING : Fld := ⟨R.INS_Cc_STAT, 3, 1, .ro, .any, false⟩
def F.INS_Cc_STAT_OPEN : Fld := ⟨R.INS_Cc_STAT, 4, 1, .ro, .any, false⟩
def F.INS_Cc_STAT_LINES : Fld := ⟨R.INS_Cc_STAT, 16, 14, .ro, .any, false⟩
def F.INS_Cc_STAT_FRAME : Fld := ⟨R.INS_Cc_STAT, 32, 32, .ro, .any, false⟩

def F.INS_Cc_COUNT_MISSED : Fld := ⟨R.INS_Cc_COUNT, 0, 16, .snap, .any, true⟩
def F.INS_Cc_COUNT_ORPHAN : Fld := ⟨R.INS_Cc_COUNT, 16, 16, .snap, .any, true⟩
def F.INS_Cc_COUNT_BAD_LINE : Fld := ⟨R.INS_Cc_COUNT, 32, 16, .snap, .any, true⟩
def F.INS_Cc_COUNT_OVERLAP : Fld := ⟨R.INS_Cc_COUNT, 48, 16, .snap, .any, true⟩

def F.NZ_CTRL_ENABLE : Fld := ⟨R.NZ_CTRL, 0, 1, .rw, .any, false⟩
def F.NZ_CTRL_APPLY : Fld := ⟨R.NZ_CTRL, 1, 1, .rw, .any, false⟩
def F.NZ_CTRL_PARTNER_EN : Fld := ⟨R.NZ_CTRL, 2, 1, .rw, .any, false⟩
def F.NZ_CTRL_NEIGHBOUR_EN : Fld := ⟨R.NZ_CTRL, 3, 1, .rw, .any, false⟩
def F.NZ_CTRL_WEAK_ACT : Fld := ⟨R.NZ_CTRL, 4, 1, .rw, .any, false⟩
def F.NZ_CTRL_REG_EN : Fld := ⟨R.NZ_CTRL, 5, 1, .rw, .any, false⟩
def F.NZ_CTRL_SWATCH_PAGES : Fld := ⟨R.NZ_CTRL, 8, 8, .rw, .any, false⟩
def F.NZ_CTRL_AUTO_SWATCH : Fld := ⟨R.NZ_CTRL, 16, 1, .rw, .any, false⟩

def F.NZ_DETECT_WIN_READINGS : Fld := ⟨R.NZ_DETECT, 0, 16, .rw, .range 16 65535, false⟩
def F.NZ_DETECT_CONFIRM : Fld := ⟨R.NZ_DETECT, 16, 4, .rw, .range 1 15, false⟩
def F.NZ_DETECT_REINSTATE : Fld := ⟨R.NZ_DETECT, 20, 4, .rw, .range 1 15, false⟩
def F.NZ_DETECT_MISS : Fld := ⟨R.NZ_DETECT, 24, 8, .rw, .any, false⟩
def F.NZ_DETECT_WEAK : Fld := ⟨R.NZ_DETECT, 32, 8, .rw, .any, false⟩
def F.NZ_DETECT_DEFLECT : Fld := ⟨R.NZ_DETECT, 40, 8, .rw, .any, false⟩
def F.NZ_DETECT_E_MIN : Fld := ⟨R.NZ_DETECT, 48, 8, .rw, .any, false⟩

def F.NZ_STAT_DROPPED : Fld := ⟨R.NZ_STAT, 0, 18, .ro, .any, false⟩
def F.NZ_STAT_SUSPECT : Fld := ⟨R.NZ_STAT, 20, 18, .ro, .any, false⟩
def F.NZ_STAT_HELD : Fld := ⟨R.NZ_STAT, 40, 18, .ro, .any, false⟩

def F.NZ_COUNT_READINGS : Fld := ⟨R.NZ_COUNT, 0, 32, .snap, .any, false⟩
def F.NZ_COUNT_SUBST_LOST : Fld := ⟨R.NZ_COUNT, 32, 16, .snap, .any, true⟩
def F.NZ_COUNT_UNTESTED : Fld := ⟨R.NZ_COUNT, 48, 16, .snap, .any, true⟩

def F.NZ_AUDIT_LOG_ENTRIES : Fld := ⟨R.NZ_AUDIT, 0, 4, .rw, .range 6 15, false⟩
def F.NZ_AUDIT_BASE : Fld := ⟨R.NZ_AUDIT, 12, 28, .rw, .any, false⟩
def F.NZ_AUDIT_HEAD : Fld := ⟨R.NZ_AUDIT, 48, 16, .ro, .any, false⟩

def F.NZ_REG_CFG_CAM : Fld := ⟨R.NZ_REG_CFG, 0, 3, .rw, .any, false⟩
def F.NZ_REG_CFG_REF_MODE : Fld := ⟨R.NZ_REG_CFG, 3, 2, .rw, .threeIs 0, false⟩
def F.NZ_REG_CFG_GAIN : Fld := ⟨R.NZ_REG_CFG, 8, 8, .rw, .any, false⟩
def F.NZ_REG_CFG_REG_MAX : Fld := ⟨R.NZ_REG_CFG, 16, 16, .rw, .any, false⟩
def F.NZ_REG_CFG_HYST : Fld := ⟨R.NZ_REG_CFG, 32, 8, .rw, .any, false⟩
def F.NZ_REG_CFG_EDGE_LEVEL : Fld := ⟨R.NZ_REG_CFG, 48, 8, .rw, .any, false⟩

def F.NZ_REG_RANGE_OWN_LO : Fld := ⟨R.NZ_REG_RANGE, 0, 16, .rw, .any, false⟩
def F.NZ_REG_RANGE_OWN_HI : Fld := ⟨R.NZ_REG_RANGE, 16, 16, .rw, .any, false⟩
def F.NZ_REG_RANGE_REF_LO : Fld := ⟨R.NZ_REG_RANGE, 32, 16, .rw, .any, false⟩
def F.NZ_REG_RANGE_REF_HI : Fld := ⟨R.NZ_REG_RANGE, 48, 16, .rw, .any, false⟩

def F.NZ_REG_TARGET_TARGET : Fld := ⟨R.NZ_REG_TARGET, 0, 24, .rw, .any, false⟩
def F.NZ_REG_TARGET_REG_MIN : Fld := ⟨R.NZ_REG_TARGET, 32, 16, .rw, .any, false⟩

def F.NZ_REG_STAT_ERROR : Fld := ⟨R.NZ_REG_STAT, 0, 24, .ro, .any, false⟩
def F.NZ_REG_STAT_T : Fld := ⟨R.NZ_REG_STAT, 24, 24, .ro, .any, false⟩
def F.NZ_REG_STAT_ALONG : Fld := ⟨R.NZ_REG_STAT, 48, 16, .ro, .any, false⟩

def F.NZ_HEALTH_STATE : Fld := ⟨R.NZ_HEALTH, 0, 2, .ro, .any, false⟩
def F.NZ_HEALTH_KIND : Fld := ⟨R.NZ_HEALTH, 2, 2, .ro, .any, false⟩
def F.NZ_HEALTH_RUN : Fld := ⟨R.NZ_HEALTH, 4, 4, .ro, .any, false⟩
def F.NZ_HEALTH_HIT : Fld := ⟨R.NZ_HEALTH, 8, 8, .ro, .any, true⟩
def F.NZ_HEALTH_DEFL : Fld := ⟨R.NZ_HEALTH, 16, 8, .ro, .any, false⟩

def F.LA_SUBST_ENTRIES : Fld := ⟨R.LA_SUBST, 0, 32, .rw, .any, false⟩

def F.DM_STAT_SPEED : Fld := ⟨R.DM_STAT, 0, 2, .ro, .any, false⟩
def F.DM_STAT_RANKS : Fld := ⟨R.DM_STAT, 2, 1, .ro, .any, false⟩
def F.DM_STAT_STATE : Fld := ⟨R.DM_STAT, 4, 2, .ro, .any, false⟩
def F.DM_STAT_HOT0 : Fld := ⟨R.DM_STAT, 6, 1, .ro, .any, false⟩
def F.DM_STAT_HOT1 : Fld := ⟨R.DM_STAT, 7, 1, .ro, .any, false⟩

def F.DM_SPARE_SPARE : Fld := ⟨R.DM_SPARE, 0, 2, .ro, .any, false⟩
def F.DM_SPARE_MARK1 : Fld := ⟨R.DM_SPARE, 4, 4, .ro, .any, false⟩
def F.DM_SPARE_CAUSE1 : Fld := ⟨R.DM_SPARE, 8, 3, .ro, .any, false⟩
def F.DM_SPARE_MARK2 : Fld := ⟨R.DM_SPARE, 12, 4, .ro, .any, false⟩
def F.DM_SPARE_CAUSE2 : Fld := ⟨R.DM_SPARE, 16, 3, .ro, .any, false⟩
def F.DM_SPARE_POINTER : Fld := ⟨R.DM_SPARE, 32, 28, .ro, .any, false⟩

def F.DM_MARK_CTRL_RANK : Fld := ⟨R.DM_MARK_CTRL, 0, 1, .rw, .any, false⟩
def F.DM_MARK_CTRL_LANE : Fld := ⟨R.DM_MARK_CTRL, 4, 4, .rw, .any, false⟩
def F.DM_MARK_CTRL_MARK : Fld := ⟨R.DM_MARK_CTRL, 8, 1, .wo, .any, false⟩
def F.DM_MARK_CTRL_FORGET : Fld := ⟨R.DM_MARK_CTRL, 9, 1, .wo, .any, false⟩

def F.DM_ECC_COUNT_CORRECTED : Fld := ⟨R.DM_ECC_COUNT, 0, 32, .snap, .any, false⟩
def F.DM_ECC_COUNT_ERASED : Fld := ⟨R.DM_ECC_COUNT, 32, 16, .snap, .any, true⟩
def F.DM_ECC_COUNT_UNCORR : Fld := ⟨R.DM_ECC_COUNT, 48, 16, .snap, .any, true⟩

def F.DM_UE_ADDR_ADDR : Fld := ⟨R.DM_UE_ADDR, 0, 40, .ro, .any, false⟩
def F.DM_UE_ADDR_REQ : Fld := ⟨R.DM_UE_ADDR, 40, 5, .ro, .any, false⟩

def F.DM_SCRUB_HOURS : Fld := ⟨R.DM_SCRUB, 0, 8, .rw, .range 1 168, false⟩
def F.DM_SCRUB_PASSES : Fld := ⟨R.DM_SCRUB, 16, 16, .ro, .any, false⟩
def F.DM_SCRUB_POINTER : Fld := ⟨R.DM_SCRUB, 32, 28, .ro, .any, false⟩

def F.DM_REBUILD_MBPS : Fld := ⟨R.DM_REBUILD, 0, 12, .rw, .range 100 4000, false⟩

def F.DM_RETRAIN_INTERVAL : Fld := ⟨R.DM_RETRAIN, 0, 14, .rw, .range 10 10000, false⟩
def F.DM_RETRAIN_FLOOR : Fld := ⟨R.DM_RETRAIN, 16, 4, .rw, .range 1 7, false⟩
def F.DM_RETRAIN_MARK_THRESH : Fld := ⟨R.DM_RETRAIN, 24, 8, .rw, .range 1 255, false⟩

def F.DM_REFRESH_P0 : Fld := ⟨R.DM_REFRESH, 0, 3, .ro, .any, false⟩
def F.DM_REFRESH_P1 : Fld := ⟨R.DM_REFRESH, 4, 3, .ro, .any, false⟩
def F.DM_REFRESH_FORCED : Fld := ⟨R.DM_REFRESH, 32, 32, .snap, .any, true⟩

def F.DM_PPR_VALID : Fld := ⟨R.DM_PPR, 0, 1, .ro, .any, false⟩
def F.DM_PPR_RANK : Fld := ⟨R.DM_PPR, 1, 1, .ro, .any, false⟩
def F.DM_PPR_LANE : Fld := ⟨R.DM_PPR, 4, 4, .ro, .any, false⟩
def F.DM_PPR_BG : Fld := ⟨R.DM_PPR, 8, 3, .ro, .any, false⟩
def F.DM_PPR_BANK : Fld := ⟨R.DM_PPR, 12, 2, .ro, .any, false⟩
def F.DM_PPR_ROW : Fld := ⟨R.DM_PPR, 32, 17, .ro, .any, false⟩

def F.DM_PRED_CFG_MODE : Fld := ⟨R.DM_PRED_CFG, 0, 2, .rw, .threeIs 0, false⟩

def F.DM_SPEED_CTRL_TARGET : Fld := ⟨R.DM_SPEED_CTRL, 0, 2, .rw, .any, false⟩
def F.DM_SPEED_CTRL_GO : Fld := ⟨R.DM_SPEED_CTRL, 4, 1, .wo, .any, false⟩
def F.DM_SPEED_CTRL_BUSY : Fld := ⟨R.DM_SPEED_CTRL, 8, 1, .ro, .any, false⟩
def F.DM_SPEED_CTRL_RESULT : Fld := ⟨R.DM_SPEED_CTRL, 12, 2, .ro, .any, false⟩
def F.DM_SPEED_CTRL_SET_B : Fld := ⟨R.DM_SPEED_CTRL, 16, 2, .ro, .any, false⟩

def F.DM_LANE_MARGIN : Fld := ⟨R.DM_LANE, 0, 3, .ro, .any, false⟩
def F.DM_LANE_SUSPECT : Fld := ⟨R.DM_LANE, 3, 1, .ro, .any, false⟩
def F.DM_LANE_NOSET : Fld := ⟨R.DM_LANE, 4, 2, .ro, .any, false⟩
def F.DM_LANE_CE : Fld := ⟨R.DM_LANE, 16, 16, .ro, .any, false⟩

def F.MF_CLASS_CLASS : Fld := ⟨R.MF_CLASS, 0, 40, .rw, .any, false⟩

def F.MF_ARB_CFG_STARVE_N : Fld := ⟨R.MF_ARB_CFG, 0, 7, .rw, .range 2 64, false⟩
def F.MF_ARB_CFG_HOLD_MAX : Fld := ⟨R.MF_ARB_CFG, 16, 16, .rw, .range 64 65535, false⟩

def F.MF_SLOT_BEAT_SWAP_BEAT : Fld := ⟨R.MF_SLOT_BEAT, 0, 64, .rw, .any, false⟩

def F.MF_SLOT_CTRL_ARM : Fld := ⟨R.MF_SLOT_CTRL, 0, 1, .w1s, .any, false⟩
def F.MF_SLOT_CTRL_ACTIVE_WRITE : Fld := ⟨R.MF_SLOT_CTRL, 1, 1, .w1c, .any, false⟩
def F.MF_SLOT_CTRL_RESULT : Fld := ⟨R.MF_SLOT_CTRL, 4, 3, .ro, .any, false⟩

def F.MF_URGENT_URGENT : Fld := ⟨R.MF_URGENT, 0, 20, .ro, .any, false⟩

def F.MF_COUNT_HOLD_CUTS : Fld := ⟨R.MF_COUNT, 0, 16, .snap, .any, true⟩
def F.MF_COUNT_STARVE : Fld := ⟨R.MF_COUNT, 16, 16, .snap, .any, false⟩
def F.MF_COUNT_YIELDS : Fld := ⟨R.MF_COUNT, 32, 16, .snap, .any, true⟩

def F.MF_SLOT_ACTIVE_ENTRIES : Fld := ⟨R.MF_SLOT_ACTIVE, 0, 32, .ro, .any, false⟩

def F.MF_SLOT_SHADOW_ENTRIES : Fld := ⟨R.MF_SLOT_SHADOW, 0, 32, .rw, .any, false⟩

def F.HST_PORT_STAT_LINK_UP : Fld := ⟨R.HST_PORT_STAT, 0, 1, .ro, .any, false⟩
def F.HST_PORT_STAT_SPEED : Fld := ⟨R.HST_PORT_STAT, 1, 3, .ro, .any, false⟩
def F.HST_PORT_STAT_WIDTH : Fld := ⟨R.HST_PORT_STAT, 4, 4, .ro, .any, false⟩
def F.HST_PORT_STAT_SECURE : Fld := ⟨R.HST_PORT_STAT, 8, 1, .ro, .any, false⟩
def F.HST_PORT_STAT_RESETS : Fld := ⟨R.HST_PORT_STAT, 16, 16, .ro, .any, false⟩

def F.HST_EVR_BASE_BASE : Fld := ⟨R.HST_EVR_BASE, 12, 52, .rw, .any, false⟩

def F.HST_EVR_CFG_ENABLE : Fld := ⟨R.HST_EVR_CFG, 0, 1, .rw, .any, false⟩
def F.HST_EVR_CFG_LOG_ENTRIES : Fld := ⟨R.HST_EVR_CFG, 4, 4, .rw, .evrLog, false⟩
def F.HST_EVR_CFG_MOD : Fld := ⟨R.HST_EVR_CFG, 8, 8, .rw, .any, false⟩

def F.HST_EVR_HEAD_HEAD : Fld := ⟨R.HST_EVR_HEAD, 0, 16, .ro, .any, false⟩
def F.HST_EVR_HEAD_PHASE : Fld := ⟨R.HST_EVR_HEAD, 16, 1, .ro, .any, false⟩

def F.HST_EVR_TAIL_TAIL : Fld := ⟨R.HST_EVR_TAIL, 0, 16, .rw, .any, false⟩

def F.HST_EVR_STAT_WAITING : Fld := ⟨R.HST_EVR_STAT, 0, 7, .ro, .any, false⟩
def F.HST_EVR_STAT_LOST : Fld := ⟨R.HST_EVR_STAT, 16, 16, .ro, .any, true⟩

def F.HST_DOORBELL_VALUE : Fld := ⟨R.HST_DOORBELL, 0, 32, .wo, .any, false⟩

def F.HST_SNAP_DEST_DRAM : Fld := ⟨R.HST_SNAP_DEST, 0, 1, .rw, .any, false⟩
def F.HST_SNAP_DEST_ADDR : Fld := ⟨R.HST_SNAP_DEST, 6, 58, .rw, .any, false⟩

def F.HST_SNAP_CTRL_SETS : Fld := ⟨R.HST_SNAP_CTRL, 0, 21, .rw, .any, false⟩
def F.HST_SNAP_CTRL_NOZZLE : Fld := ⟨R.HST_SNAP_CTRL, 31, 1, .rw, .any, false⟩
def F.HST_SNAP_CTRL_GO : Fld := ⟨R.HST_SNAP_CTRL, 32, 1, .wo, .any, false⟩
def F.HST_SNAP_CTRL_BUSY : Fld := ⟨R.HST_SNAP_CTRL, 33, 1, .ro, .any, false⟩
def F.HST_SNAP_CTRL_ERR : Fld := ⟨R.HST_SNAP_CTRL, 36, 3, .ro, .any, false⟩

def F.ETH_CFG_ENABLE : Fld := ⟨R.ETH_CFG, 0, 1, .rw, .any, false⟩
def F.ETH_CFG_SPEED : Fld := ⟨R.ETH_CFG, 1, 2, .rwl, .threeIs 2, false⟩
def F.ETH_CFG_AN_EN : Fld := ⟨R.ETH_CFG, 3, 1, .rw, .any, false⟩

def F.ETH_MAC_MAC : Fld := ⟨R.ETH_MAC, 0, 48, .rwl, .any, false⟩

def F.ETH_STAT_LINK : Fld := ⟨R.ETH_STAT, 0, 1, .ro, .any, false⟩
def F.ETH_STAT_STATE : Fld := ⟨R.ETH_STAT, 1, 2, .ro, .any, false⟩
def F.ETH_STAT_ERR : Fld := ⟨R.ETH_STAT, 4, 2, .ro, .any, false⟩

def F.ETH_COUNT_RX_PTP : Fld := ⟨R.ETH_COUNT, 0, 16, .snap, .any, false⟩
def F.ETH_COUNT_DISCARD : Fld := ⟨R.ETH_COUNT, 16, 16, .snap, .any, true⟩
def F.ETH_COUNT_RX_FCS : Fld := ⟨R.ETH_COUNT, 32, 16, .snap, .any, true⟩
def F.ETH_COUNT_TX_UP : Fld := ⟨R.ETH_COUNT, 48, 16, .snap, .any, false⟩

def F.ETH_UP_DST_DST_MAC : Fld := ⟨R.ETH_UP_DST, 0, 48, .rw, .any, false⟩
def F.ETH_UP_DST_DSCP : Fld := ⟨R.ETH_UP_DST, 48, 6, .rw, .any, false⟩

def F.ETH_UP_ADDR_DST_IP : Fld := ⟨R.ETH_UP_ADDR, 0, 32, .rw, .any, false⟩
def F.ETH_UP_ADDR_DST_PORT : Fld := ⟨R.ETH_UP_ADDR, 32, 16, .rw, .any, false⟩
def F.ETH_UP_ADDR_SRC_PORT : Fld := ⟨R.ETH_UP_ADDR, 48, 16, .rw, .any, false⟩

def F.ETH_UP_SRC_SRC : Fld := ⟨R.ETH_UP_SRC, 0, 40, .rw, .any, false⟩
def F.ETH_UP_SRC_LEN : Fld := ⟨R.ETH_UP_SRC, 40, 24, .rw, .any, false⟩

def F.ETH_UP_CTRL_GO : Fld := ⟨R.ETH_UP_CTRL, 0, 1, .wo, .any, false⟩
def F.ETH_UP_CTRL_RATE : Fld := ⟨R.ETH_UP_CTRL, 1, 15, .rw, .range 1 10000, false⟩
def F.ETH_UP_CTRL_TAG : Fld := ⟨R.ETH_UP_CTRL, 16, 16, .rw, .any, false⟩

def F.VLT_STAT_SEALED : Fld := ⟨R.VLT_STAT, 0, 1, .ro, .any, false⟩
def F.VLT_STAT_TAMPER : Fld := ⟨R.VLT_STAT, 1, 1, .ro, .any, false⟩
def F.VLT_STAT_VBAT_LOST : Fld := ⟨R.VLT_STAT, 2, 1, .ro, .any, false⟩
def F.VLT_STAT_LOST : Fld := ⟨R.VLT_STAT, 4, 4, .ro, .any, false⟩
def F.VLT_STAT_DISAGREE : Fld := ⟨R.VLT_STAT, 16, 16, .ro, .any, true⟩

def F.VLT_ROLLBACK_COUNT : Fld := ⟨R.VLT_ROLLBACK, 0, 16, .ro, .any, false⟩
def F.VLT_ROLLBACK_USED : Fld := ⟨R.VLT_ROLLBACK, 16, 5, .ro, .any, false⟩
def F.VLT_ROLLBACK_RESULT : Fld := ⟨R.VLT_ROLLBACK, 24, 2, .ro, .any, false⟩
def F.VLT_ROLLBACK_BUSY : Fld := ⟨R.VLT_ROLLBACK, 26, 1, .ro, .any, false⟩

def F.VLT_ROLLBACK_CTRL_ADVANCE : Fld := ⟨R.VLT_ROLLBACK_CTRL, 0, 1, .wo, .any, false⟩
def F.VLT_ROLLBACK_CTRL_KEY : Fld := ⟨R.VLT_ROLLBACK_CTRL, 16, 16, .wo, .any, false⟩

def F.VLT_ROOT_HASH_HASH : Fld := ⟨R.VLT_ROOT_HASH, 0, 32, .rw, .any, false⟩

def F.VLT_HEAD_ROOT_KEY : Fld := ⟨R.VLT_HEAD_ROOT, 0, 32, .wo, .any, false⟩

def F.VLT_PROG_CTRL_GROUP : Fld := ⟨R.VLT_PROG_CTRL, 0, 2, .rw, .any, false⟩
def F.VLT_PROG_CTRL_PROG : Fld := ⟨R.VLT_PROG_CTRL, 2, 1, .wo, .any, false⟩
def F.VLT_PROG_CTRL_BUSY : Fld := ⟨R.VLT_PROG_CTRL, 3, 1, .ro, .any, false⟩
def F.VLT_PROG_CTRL_RESULT : Fld := ⟨R.VLT_PROG_CTRL, 4, 2, .ro, .any, false⟩
def F.VLT_PROG_CTRL_KEY : Fld := ⟨R.VLT_PROG_CTRL, 16, 16, .wo, .any, false⟩

def F.VLT_TAMPER_SOURCE : Fld := ⟨R.VLT_TAMPER, 0, 2, .ro, .any, false⟩
def F.VLT_TAMPER_FORCE : Fld := ⟨R.VLT_TAMPER, 8, 1, .wo, .any, false⟩
def F.VLT_TAMPER_CLEAR : Fld := ⟨R.VLT_TAMPER, 9, 1, .wo, .any, false⟩

def F.VLT_LAST_TIME_TIME : Fld := ⟨R.VLT_LAST_TIME, 0, 64, .ro, .any, false⟩

def F.VLT_CERT_LEN_LEN : Fld := ⟨R.VLT_CERT_LEN, 0, 11, .ro, .any, false⟩

def F.VLT_ATTEST_NONCE_NONCE : Fld := ⟨R.VLT_ATTEST_NONCE, 0, 64, .rw, .any, false⟩

def F.VLT_ATTEST_CTRL_GO : Fld := ⟨R.VLT_ATTEST_CTRL, 0, 1, .wo, .any, false⟩
def F.VLT_ATTEST_CTRL_BUSY : Fld := ⟨R.VLT_ATTEST_CTRL, 1, 1, .ro, .any, false⟩

def F.VLT_ATTEST_SIG_SIG : Fld := ⟨R.VLT_ATTEST_SIG, 0, 64, .ro, .any, false⟩

def F.VLT_AUTH_CFG_USAGE_PERIOD : Fld := ⟨R.VLT_AUTH_CFG, 0, 24, .rw, .range 4096 16777215, false⟩

def F.VLT_AUTH_REAUTH_LINKS : Fld := ⟨R.VLT_AUTH_REAUTH, 0, 32, .wo, .any, false⟩

def F.VLT_HEAD_STAT_AUTH : Fld := ⟨R.VLT_HEAD_STAT, 0, 2, .ro, .any, false⟩
def F.VLT_HEAD_STAT_CAUSE : Fld := ⟨R.VLT_HEAD_STAT, 2, 3, .ro, .any, false⟩
def F.VLT_HEAD_STAT_POLICY : Fld := ⟨R.VLT_HEAD_STAT, 5, 1, .ro, .any, false⟩

def F.VLT_HEAD_SERIAL_HSERIAL : Fld := ⟨R.VLT_HEAD_SERIAL, 0, 64, .ro, .any, false⟩

def F.VLT_HEAD_USAGE_TOTAL : Fld := ⟨R.VLT_HEAD_USAGE, 0, 64, .ro, .any, false⟩

def F.VLT_HEAD_PENDING_PENDING : Fld := ⟨R.VLT_HEAD_PENDING, 0, 40, .ro, .any, false⟩
def F.VLT_HEAD_PENDING_UNAUTH : Fld := ⟨R.VLT_HEAD_PENDING, 40, 24, .snap, .any, true⟩

def F.MOT_CAP_POS_LIFT_CLEAR : Fld := ⟨R.MOT_CAP_POS, 0, 32, .rw, .any, false⟩
def F.MOT_CAP_POS_LIFT_SEAT : Fld := ⟨R.MOT_CAP_POS, 32, 32, .rw, .any, false⟩

def F.MOT_CAP_TRAY_TRAY_CAP : Fld := ⟨R.MOT_CAP_TRAY, 0, 32, .rw, .any, false⟩

def F.MOT_CAP_CTRL_GO : Fld := ⟨R.MOT_CAP_CTRL, 0, 1, .wo, .any, false⟩
def F.MOT_CAP_CTRL_BUSY : Fld := ⟨R.MOT_CAP_CTRL, 1, 1, .ro, .any, false⟩
def F.MOT_CAP_CTRL_RESULT : Fld := ⟨R.MOT_CAP_CTRL, 4, 2, .ro, .any, false⟩

def F.MOT_n_CFG_ENABLE : Fld := ⟨R.MOT_n_CFG, 0, 1, .rw, .any, false⟩
def F.MOT_n_CFG_SOURCE : Fld := ⟨R.MOT_n_CFG, 1, 1, .rw, .any, false⟩
def F.MOT_n_CFG_DIR_INV : Fld := ⟨R.MOT_n_CFG, 2, 1, .rw, .any, false⟩
def F.MOT_n_CFG_HOME_POL : Fld := ⟨R.MOT_n_CFG, 3, 1, .rw, .any, false⟩
def F.MOT_n_CFG_END_POL : Fld := ⟨R.MOT_n_CFG, 4, 1, .rw, .any, false⟩
def F.MOT_n_CFG_PRINT_LOCK : Fld := ⟨R.MOT_n_CFG, 5, 1, .rw, .any, false⟩
def F.MOT_n_CFG_GANG : Fld := ⟨R.MOT_n_CFG, 6, 1, .rw, .any, false⟩
def F.MOT_n_CFG_STALL_EN : Fld := ⟨R.MOT_n_CFG, 7, 1, .rw, .any, false⟩
def F.MOT_n_CFG_COARSE : Fld := ⟨R.MOT_n_CFG, 8, 3, .rw, .any, false⟩
def F.MOT_n_CFG_DECAY : Fld := ⟨R.MOT_n_CFG, 11, 1, .rw, .any, false⟩

def F.MOT_n_CURRENT_IRUN : Fld := ⟨R.MOT_n_CURRENT, 0, 8, .rw, .any, false⟩
def F.MOT_n_CURRENT_IHOLD : Fld := ⟨R.MOT_n_CURRENT, 8, 8, .rw, .any, false⟩
def F.MOT_n_CURRENT_OC_LIMIT : Fld := ⟨R.MOT_n_CURRENT, 16, 8, .rw, .any, false⟩
def F.MOT_n_CURRENT_FAST_PCT : Fld := ⟨R.MOT_n_CURRENT, 24, 8, .rw, .any, false⟩
def F.MOT_n_CURRENT_HOLD_DELAY : Fld := ⟨R.MOT_n_CURRENT, 32, 16, .rw, .range 1 65535, false⟩

def F.MOT_n_SPEED_VMAX : Fld := ⟨R.MOT_n_SPEED, 0, 21, .rw, .range 1 2000000, false⟩
def F.MOT_n_SPEED_VSTART : Fld := ⟨R.MOT_n_SPEED, 32, 21, .rw, .range 1 2000000, false⟩

def F.MOT_n_RAMP_ACCEL : Fld := ⟨R.MOT_n_RAMP, 0, 32, .rw, .range 1 4294967295, false⟩
def F.MOT_n_RAMP_DECEL : Fld := ⟨R.MOT_n_RAMP, 32, 32, .rw, .range 1 4294967295, false⟩

def F.MOT_n_MOVE_TARGET : Fld := ⟨R.MOT_n_MOVE, 0, 32, .rw, .any, false⟩
def F.MOT_n_MOVE_GO : Fld := ⟨R.MOT_n_MOVE, 32, 1, .wo, .any, false⟩
def F.MOT_n_MOVE_SOFT_STOP : Fld := ⟨R.MOT_n_MOVE, 33, 1, .wo, .any, false⟩
def F.MOT_n_MOVE_STOP : Fld := ⟨R.MOT_n_MOVE, 34, 1, .wo, .any, false⟩
def F.MOT_n_MOVE_HOME : Fld := ⟨R.MOT_n_MOVE, 35, 1, .wo, .any, false⟩

def F.MOT_n_HOME_VSLOW : Fld := ⟨R.MOT_n_HOME, 0, 21, .rw, .any, false⟩
def F.MOT_n_HOME_DEBOUNCE : Fld := ⟨R.MOT_n_HOME, 24, 8, .rw, .range 1 200, false⟩
def F.MOT_n_HOME_BACKOFF : Fld := ⟨R.MOT_n_HOME, 32, 24, .rw, .any, false⟩

def F.MOT_n_HOME_POS_HOME_OFFSET : Fld := ⟨R.MOT_n_HOME_POS, 0, 32, .rw, .any, false⟩
def F.MOT_n_HOME_POS_SEEK_MAX : Fld := ⟨R.MOT_n_HOME_POS, 32, 32, .rw, .any, false⟩

def F.MOT_n_STALL_LIMIT : Fld := ⟨R.MOT_n_STALL, 0, 8, .rw, .any, false⟩
def F.MOT_n_STALL_STALL_COUNT : Fld := ⟨R.MOT_n_STALL, 8, 4, .rw, .range 1 15, false⟩
def F.MOT_n_STALL_VMIN : Fld := ⟨R.MOT_n_STALL, 32, 21, .rw, .any, false⟩

def F.MOT_n_STAT_STATE : Fld := ⟨R.MOT_n_STAT, 0, 3, .ro, .any, false⟩
def F.MOT_n_STAT_ENABLE_PENDING : Fld := ⟨R.MOT_n_STAT, 3, 1, .ro, .any, false⟩
def F.MOT_n_STAT_MOTION : Fld := ⟨R.MOT_n_STAT, 4, 2, .ro, .any, false⟩
def F.MOT_n_STAT_HOME_PHASE : Fld := ⟨R.MOT_n_STAT, 6, 2, .ro, .any, false⟩
def F.MOT_n_STAT_HOMED : Fld := ⟨R.MOT_n_STAT, 8, 1, .ro, .any, false⟩
def F.MOT_n_STAT_LOST : Fld := ⟨R.MOT_n_STAT, 9, 1, .ro, .any, false⟩
def F.MOT_n_STAT_MOVE_PENDING : Fld := ⟨R.MOT_n_STAT, 10, 1, .ro, .any, false⟩
def F.MOT_n_STAT_ABSENT : Fld := ⟨R.MOT_n_STAT, 11, 1, .ro, .any, false⟩
def F.MOT_n_STAT_STOP_CAUSE : Fld := ⟨R.MOT_n_STAT, 12, 4, .ro, .any, false⟩
def F.MOT_n_STAT_HOME_IN : Fld := ⟨R.MOT_n_STAT, 16, 1, .ro, .any, false⟩
def F.MOT_n_STAT_END_IN : Fld := ⟨R.MOT_n_STAT, 17, 1, .ro, .any, false⟩
def F.MOT_n_STAT_LOAD : Fld := ⟨R.MOT_n_STAT, 24, 8, .ro, .any, false⟩

def F.MOT_n_POS_POS : Fld := ⟨R.MOT_n_POS, 0, 32, .ro, .any, false⟩
def F.MOT_n_POS_VEL : Fld := ⟨R.MOT_n_POS, 32, 32, .ro, .any, false⟩

def F.MOT_n_LATCH_STAMP : Fld := ⟨R.MOT_n_LATCH, 0, 64, .ro, .any, false⟩

def F.MOT_n_COUNT_MOVES : Fld := ⟨R.MOT_n_COUNT, 0, 16, .snap, .any, false⟩
def F.MOT_n_COUNT_STOPS : Fld := ⟨R.MOT_n_COUNT, 16, 16, .snap, .any, true⟩
def F.MOT_n_COUNT_STALLS : Fld := ⟨R.MOT_n_COUNT, 32, 16, .snap, .any, true⟩
def F.MOT_n_COUNT_CHATTER : Fld := ⟨R.MOT_n_COUNT, 48, 16, .snap, .any, true⟩

def F.SV_REG_REG : Fld := ⟨R.SV_REG, 0, 32, .ro, .any, false⟩
def F.SV_REG_BEAT : Fld := ⟨R.SV_REG, 32, 32, .ro, .any, false⟩

def F.SV_a_CFG_ENABLE : Fld := ⟨R.SV_a_CFG, 0, 1, .rw, .any, false⟩
def F.SV_a_CFG_FAULT_ACTION : Fld := ⟨R.SV_a_CFG, 1, 1, .rw, .any, false⟩
def F.SV_a_CFG_REG_FOLLOW : Fld := ⟨R.SV_a_CFG, 2, 1, .rw, .any, false⟩
def F.SV_a_CFG_HALL_FILT : Fld := ⟨R.SV_a_CFG, 8, 8, .rw, .any, false⟩
def F.SV_a_CFG_DEADTIME : Fld := ⟨R.SV_a_CFG, 16, 8, .rw, .range 10 255, false⟩
def F.SV_a_CFG_A_FREQ : Fld := ⟨R.SV_a_CFG, 24, 1, .rw, .any, false⟩
def F.SV_a_CFG_A_COMP : Fld := ⟨R.SV_a_CFG, 25, 7, .rw, .any, false⟩

def F.SV_a_FB_FB_SCALE : Fld := ⟨R.SV_a_FB, 0, 32, .rw, .any, false⟩
def F.SV_a_FB_A_ZERO : Fld := ⟨R.SV_a_FB, 32, 28, .rw, .any, false⟩

def F.SV_a_COMM_ECYCLE : Fld := ⟨R.SV_a_COMM, 0, 32, .rw, .any, false⟩
def F.SV_a_COMM_ELEC_OFFSET : Fld := ⟨R.SV_a_COMM, 32, 16, .rw, .any, false⟩
def F.SV_a_COMM_ALIGN_I : Fld := ⟨R.SV_a_COMM, 48, 16, .rw, .any, false⟩

def F.SV_a_TARGET_TARGET : Fld := ⟨R.SV_a_TARGET, 0, 32, .rw, .any, false⟩

def F.SV_a_LIMITS_LIM_NEG : Fld := ⟨R.SV_a_LIMITS, 0, 32, .rw, .any, false⟩
def F.SV_a_LIMITS_LIM_POS : Fld := ⟨R.SV_a_LIMITS, 32, 32, .rw, .any, false⟩

def F.SV_a_SPEED_VMAX : Fld := ⟨R.SV_a_SPEED, 0, 32, .rw, .range 1 4294967295, false⟩
def F.SV_a_SPEED_JERK : Fld := ⟨R.SV_a_SPEED, 32, 32, .rw, .range 1 4294967295, false⟩

def F.SV_a_RAMP_ACCEL : Fld := ⟨R.SV_a_RAMP, 0, 32, .rw, .range 1 4294967295, false⟩
def F.SV_a_RAMP_DECEL : Fld := ⟨R.SV_a_RAMP, 32, 32, .rw, .range 1 4294967295, false⟩

def F.SV_a_GAIN_KP : Fld := ⟨R.SV_a_GAIN, 0, 16, .rw, .any, false⟩
def F.SV_a_GAIN_KI : Fld := ⟨R.SV_a_GAIN, 16, 16, .rw, .any, false⟩
def F.SV_a_GAIN_KD : Fld := ⟨R.SV_a_GAIN, 32, 16, .rw, .any, false⟩
def F.SV_a_GAIN_ILIM : Fld := ⟨R.SV_a_GAIN, 48, 16, .rw, .any, false⟩

def F.SV_a_FF_KVF : Fld := ⟨R.SV_a_FF, 0, 16, .rw, .any, false⟩
def F.SV_a_FF_KAF : Fld := ⟨R.SV_a_FF, 32, 32, .rw, .any, false⟩

def F.SV_a_CURRENT_IQ_MAX : Fld := ⟨R.SV_a_CURRENT, 0, 16, .rw, .any, false⟩
def F.SV_a_CURRENT_OC_LIMIT : Fld := ⟨R.SV_a_CURRENT, 16, 16, .rw, .any, false⟩
def F.SV_a_CURRENT_CUR_KP : Fld := ⟨R.SV_a_CURRENT, 32, 16, .rw, .any, false⟩
def F.SV_a_CURRENT_CUR_KI : Fld := ⟨R.SV_a_CURRENT, 48, 16, .rw, .any, false⟩

def F.SV_a_PLAUS_FOLLOW_MAX : Fld := ⟨R.SV_a_PLAUS, 0, 16, .rw, .any, false⟩
def F.SV_a_PLAUS_FOLLOW_TICKS : Fld := ⟨R.SV_a_PLAUS, 16, 8, .rw, .range 1 255, false⟩
def F.SV_a_PLAUS_LIM_MARGIN : Fld := ⟨R.SV_a_PLAUS, 32, 16, .rw, .any, false⟩

def F.SV_a_MODEL_KM : Fld := ⟨R.SV_a_MODEL, 0, 32, .rw, .any, false⟩
def F.SV_a_MODEL_MODEL_MAX : Fld := ⟨R.SV_a_MODEL, 32, 32, .rw, .any, false⟩

def F.SV_a_REF_REF_OFFSET : Fld := ⟨R.SV_a_REF, 0, 32, .rw, .any, false⟩
def F.SV_a_REF_REF_SPEED : Fld := ⟨R.SV_a_REF, 32, 24, .rw, .range 1 16777215, false⟩

def F.SV_a_CTRL_REFERENCE : Fld := ⟨R.SV_a_CTRL, 0, 1, .wo, .any, false⟩
def F.SV_a_CTRL_CLEAR : Fld := ⟨R.SV_a_CTRL, 1, 1, .wo, .any, false⟩
def F.SV_a_CTRL_NOTCH_COMMIT : Fld := ⟨R.SV_a_CTRL, 2, 1, .wo, .any, false⟩
def F.SV_a_CTRL_NOTCH_PENDING : Fld := ⟨R.SV_a_CTRL, 3, 1, .ro, .any, false⟩

def F.SV_a_STAT_STATE : Fld := ⟨R.SV_a_STAT, 0, 3, .ro, .any, false⟩
def F.SV_a_STAT_ENABLE_PENDING : Fld := ⟨R.SV_a_STAT, 3, 1, .ro, .any, false⟩
def F.SV_a_STAT_MOTION : Fld := ⟨R.SV_a_STAT, 4, 2, .ro, .any, false⟩
def F.SV_a_STAT_REFERENCED : Fld := ⟨R.SV_a_STAT, 6, 1, .ro, .any, false⟩
def F.SV_a_STAT_CAUSE : Fld := ⟨R.SV_a_STAT, 8, 4, .ro, .any, false⟩
def F.SV_a_STAT_SECTOR : Fld := ⟨R.SV_a_STAT, 12, 3, .ro, .any, false⟩

def F.SV_a_POS_Y : Fld := ⟨R.SV_a_POS, 0, 32, .ro, .any, false⟩
def F.SV_a_POS_REFPOS : Fld := ⟨R.SV_a_POS, 32, 32, .ro, .any, false⟩

def F.SV_a_LOOP_E : Fld := ⟨R.SV_a_LOOP, 0, 32, .ro, .any, false⟩
def F.SV_a_LOOP_IQ : Fld := ⟨R.SV_a_LOOP, 32, 16, .ro, .any, false⟩
def F.SV_a_LOOP_ANGLE : Fld := ⟨R.SV_a_LOOP, 48, 16, .ro, .any, false⟩

def F.SV_a_COUNT_HALL_ERR : Fld := ⟨R.SV_a_COUNT, 0, 16, .snap, .any, true⟩
def F.SV_a_COUNT_FB_MISSING : Fld := ⟨R.SV_a_COUNT, 16, 16, .snap, .any, true⟩
def F.SV_a_COUNT_A_WARN : Fld := ⟨R.SV_a_COUNT, 32, 16, .snap, .any, true⟩
def F.SV_a_COUNT_FAULTS : Fld := ⟨R.SV_a_COUNT, 48, 16, .snap, .any, true⟩

def F.SV_a_NOTCH_COEF : Fld := ⟨R.SV_a_NOTCH, 0, 32, .rw, .any, false⟩

def F.TRM_TRIM_CTRL_GO : Fld := ⟨R.TRM_TRIM_CTRL, 0, 1, .wo, .any, false⟩
def F.TRM_TRIM_CTRL_BUSY : Fld := ⟨R.TRM_TRIM_CTRL, 1, 1, .ro, .any, false⟩
def F.TRM_TRIM_CTRL_RESULT : Fld := ⟨R.TRM_TRIM_CTRL, 4, 2, .ro, .any, false⟩
def F.TRM_TRIM_CTRL_RES_MAX : Fld := ⟨R.TRM_TRIM_CTRL, 8, 8, .rw, .any, false⟩
def F.TRM_TRIM_CTRL_KEY : Fld := ⟨R.TRM_TRIM_CTRL, 16, 16, .wo, .any, false⟩

def F.TRM_MAP_X0_FOR : Fld := ⟨R.TRM_MAP, 0, 5, .ro, .any, false⟩
def F.TRM_MAP_X1_FOR : Fld := ⟨R.TRM_MAP, 8, 5, .ro, .any, false⟩
def F.TRM_MAP_BLANK : Fld := ⟨R.TRM_MAP, 16, 1, .ro, .any, false⟩

def F.TRM_CHECK_CFG_CHECK_MS : Fld := ⟨R.TRM_CHECK_CFG, 0, 16, .rw, .range 10 65535, false⟩

def F.TRM_CH_C : Fld := ⟨R.TRM_CH, 0, 16, .ro, .any, false⟩
def F.TRM_CH_V : Fld := ⟨R.TRM_CH, 16, 16, .ro, .any, false⟩
def F.TRM_CH_STATUS : Fld := ⟨R.TRM_CH, 32, 2, .ro, .any, false⟩
def F.TRM_CH_REPLACED : Fld := ⟨R.TRM_CH, 34, 1, .ro, .any, false⟩
def F.TRM_CH_QUALITY : Fld := ⟨R.TRM_CH, 40, 8, .ro, .any, false⟩

def F.TRM_TRIM_GAIN : Fld := ⟨R.TRM_TRIM, 0, 16, .ro, .any, false⟩
def F.TRM_TRIM_OFF : Fld := ⟨R.TRM_TRIM, 16, 16, .ro, .any, false⟩

def F.TRM_EYE_BASE_EYE : Fld := ⟨R.TRM_EYE_BASE, 0, 32, .ro, .any, false⟩

def F.SYS_FAULT_STAT_INHIBIT : Fld := ⟨R.SYS_FAULT_STAT, 0, 1, .ro, .any, false⟩
def F.SYS_FAULT_STAT_SUSPENDED : Fld := ⟨R.SYS_FAULT_STAT, 1, 1, .ro, .any, false⟩
def F.SYS_FAULT_STAT_HEAD_OUT : Fld := ⟨R.SYS_FAULT_STAT, 2, 1, .ro, .any, false⟩
def F.SYS_FAULT_STAT_LINK_DOWN : Fld := ⟨R.SYS_FAULT_STAT, 3, 1, .ro, .any, false⟩
def F.SYS_FAULT_STAT_PAGE_SUSPECT : Fld := ⟨R.SYS_FAULT_STAT, 4, 1, .w1c, .any, false⟩
def F.SYS_FAULT_STAT_LINE_LOSS : Fld := ⟨R.SYS_FAULT_STAT, 5, 1, .w1c, .any, false⟩
def F.SYS_FAULT_STAT_SINGLE_ENGINE : Fld := ⟨R.SYS_FAULT_STAT, 6, 1, .ro, .any, false⟩
def F.SYS_FAULT_STAT_DRAM : Fld := ⟨R.SYS_FAULT_STAT, 7, 1, .ro, .any, false⟩
def F.SYS_FAULT_STAT_DRAM_UE : Fld := ⟨R.SYS_FAULT_STAT, 8, 1, .w1c, .any, false⟩
def F.SYS_FAULT_STAT_TIME : Fld := ⟨R.SYS_FAULT_STAT, 9, 1, .ro, .any, false⟩
def F.SYS_FAULT_STAT_AXIS : Fld := ⟨R.SYS_FAULT_STAT, 10, 1, .w1c, .any, false⟩
def F.SYS_FAULT_STAT_INSPECTION : Fld := ⟨R.SYS_FAULT_STAT, 11, 1, .w1c, .any, false⟩
def F.SYS_FAULT_STAT_PACE_LOST : Fld := ⟨R.SYS_FAULT_STAT, 16, 1, .ro, .any, false⟩
def F.SYS_FAULT_STAT_WEDGED : Fld := ⟨R.SYS_FAULT_STAT, 17, 1, .ro, .any, false⟩
def F.SYS_FAULT_STAT_CASTON : Fld := ⟨R.SYS_FAULT_STAT, 18, 1, .ro, .any, false⟩

def F.SYS_FAULT_MASK_MASK : Fld := ⟨R.SYS_FAULT_MASK, 0, 12, .rw, .any, false⟩

def F.SYS_TEMP_TJ : Fld := ⟨R.SYS_TEMP, 0, 16, .ro, .any, false⟩
def F.SYS_TEMP_PEAK : Fld := ⟨R.SYS_TEMP, 16, 16, .ro, .any, false⟩
def F.SYS_TEMP_HOT : Fld := ⟨R.SYS_TEMP, 32, 1, .ro, .any, false⟩

def F.INS_Cc_DEFECT_BITS : Fld := ⟨R.INS_Cc_DEFECT, 0, 32, .rw, .any, false⟩

def F.INS_Cc_SHADE_GAIN : Fld := ⟨R.INS_Cc_SHADE, 0, 16, .rw, .any, false⟩
def F.INS_Cc_SHADE_OFFSET : Fld := ⟨R.INS_Cc_SHADE, 16, 12, .rw, .any, false⟩

def F.INS_Cc_DENS_LUT_ENTRIES : Fld := ⟨R.INS_Cc_DENS_LUT, 0, 32, .rw, .any, false⟩

def F.INS_Cc_EXP_LUT_ENTRIES : Fld := ⟨R.INS_Cc_EXP_LUT, 0, 32, .rw, .any, false⟩

def F.VLT_CERT_CERT : Fld := ⟨R.VLT_CERT, 0, 32, .ro, .any, false⟩

def F.PAT_STAGING_BYTES : Fld := ⟨R.PAT_STAGING, 0, 32, .rw, .any, false⟩

/-! ### The table, by the spec's files -/

def rows02a : List Row := [
  ⟨R.HST_APBASE, [F.HST_APBASE_BASE]⟩,
  ⟨R.GL_DEVICE_ID, [F.GL_DEVICE_ID_PART, F.GL_DEVICE_ID_STEP_MAJ, F.GL_DEVICE_ID_STEP_MIN]⟩,
  ⟨R.GL_SERIAL, [F.GL_SERIAL_SERIAL]⟩,
  ⟨R.GL_BEAT, [F.GL_BEAT_BEAT]⟩,
  ⟨R.GL_SNAP_REQ, [F.GL_SNAP_REQ_REQ]⟩,
  ⟨R.GL_SNAP_STAT, [F.GL_SNAP_STAT_PENDING, F.GL_SNAP_STAT_EPOCH]⟩]

def rows03a : List Row := [
  ⟨R.PAT_STATUS, [F.PAT_STATUS_STATE, F.PAT_STATUS_SOURCE, F.PAT_STATUS_MBOX_BUSY, F.PAT_STATUS_ERR, F.PAT_STATUS_SECTION]⟩,
  ⟨R.PAT_ID, [F.PAT_ID_PATTERN_ID]⟩,
  ⟨R.PAT_GEN, [F.PAT_GEN_ROLLBACK, F.PAT_GEN_GAUGE_GEN, F.PAT_GEN_INSPECT_GEN]⟩,
  ⟨R.PAT_MBOX_LEN, [F.PAT_MBOX_LEN_LENGTH]⟩,
  ⟨R.PAT_MBOX_CTRL, [F.PAT_MBOX_CTRL_GO, F.PAT_MBOX_CTRL_ABORT]⟩,
  ⟨R.PAT_REPAT_CTRL, [F.PAT_REPAT_CTRL_GO]⟩,
  ⟨R.PAT_STAGING, [F.PAT_STAGING_BYTES]⟩]

def rows04a : List Row := [
  ⟨R.SYS_RESET, [F.SYS_RESET_KIND, F.SYS_RESET_KEY]⟩,
  ⟨R.SYS_RST_CAUSE, [F.SYS_RST_CAUSE_CAUSE]⟩,
  ⟨R.SYS_CASTON_STAT, [F.SYS_CASTON_STAT_STEP, F.SYS_CASTON_STAT_STATE, F.SYS_CASTON_STAT_CODE, F.SYS_CASTON_STAT_LAST_STEP, F.SYS_CASTON_STAT_DEGRADED]⟩,
  ⟨R.SYS_CLOG_ATTEMPTS, [F.SYS_CLOG_ATTEMPTS_ATTEMPTS]⟩,
  ⟨R.SYS_CLOG_DIR, [F.SYS_CLOG_DIR_LINK_OFF, F.SYS_CLOG_DIR_CAM_OFF, F.SYS_CLOG_DIR_IMAGE_B, F.SYS_CLOG_DIR_DRAM_SLOWER, F.SYS_CLOG_DIR_SINGLE_ENGINE, F.SYS_CLOG_DIR_ENGINE, F.SYS_CLOG_DIR_SKIP]⟩,
  ⟨R.SYS_CLOG_CTRL, [F.SYS_CLOG_CTRL_CLEAR]⟩,
  ⟨R.SYS_CLOG_COUNT, [F.SYS_CLOG_COUNT_COUNT]⟩,
  ⟨R.SYS_BINDOFF, [F.SYS_BINDOFF_GO, F.SYS_BINDOFF_ABORT_PAGE, F.SYS_BINDOFF_NO_CAP]⟩,
  ⟨R.SYS_SAVE_BASE, [F.SYS_SAVE_BASE_ENABLE, F.SYS_SAVE_BASE_BASE]⟩,
  ⟨R.SYS_FUNC_STAT, [F.SYS_FUNC_STAT_DEC, F.SYS_FUNC_STAT_ENC, F.SYS_FUNC_STAT_Q0, F.SYS_FUNC_STAT_Q1, F.SYS_FUNC_STAT_Q2, F.SYS_FUNC_STAT_Q3, F.SYS_FUNC_STAT_F0, F.SYS_FUNC_STAT_E0, F.SYS_FUNC_STAT_E1, F.SYS_FUNC_STAT_PENDING]⟩]

def rows05a : List Row := [
  ⟨R.TB_NOW, [F.TB_NOW_NS]⟩,
  ⟨R.TB_NOW_FRAC, [F.TB_NOW_FRAC_FRAC]⟩,
  ⟨R.TB_INCR, [F.TB_INCR_INCR]⟩,
  ⟨R.TB_CTRL, [F.TB_CTRL_MANUAL, F.TB_CTRL_RESYNC, F.TB_CTRL_MODE, F.TB_CTRL_ARMED]⟩,
  ⟨R.TB_LIMITS, [F.TB_LIMITS_STEP_THRESH, F.TB_LIMITS_LOCK_NS, F.TB_LIMITS_JUMP_MAX_US]⟩,
  ⟨R.TB_JUMP_MAX, [F.TB_JUMP_MAX_JUMP_MAX]⟩,
  ⟨R.TB_SERVO, [F.TB_SERVO_KP, F.TB_SERVO_KI]⟩,
  ⟨R.TB_STEP, [F.TB_STEP_DELTA]⟩,
  ⟨R.TB_STATE, [F.TB_STATE_STATE, F.TB_STATE_PORT, F.TB_STATE_STEP_PENDING, F.TB_STATE_STEPS, F.TB_STATE_REFUSED]⟩,
  ⟨R.TB_OFFSET, [F.TB_OFFSET_OFFSET]⟩,
  ⟨R.TB_PATH, [F.TB_PATH_DELAY]⟩,
  ⟨R.TB_FREQ, [F.TB_FREQ_I]⟩]

def rows05b : List Row := [
  ⟨R.TB_GM, [F.TB_GM_IDENTITY]⟩,
  ⟨R.TB_PORT_CFG, [F.TB_PORT_CFG_DELAY, F.TB_PORT_CFG_TRANSPORT, F.TB_PORT_CFG_ANN_TIMEOUT, F.TB_PORT_CFG_LOG_PDELAY]⟩,
  ⟨R.TB_PORT_IP, [F.TB_PORT_IP_ADDR]⟩,
  ⟨R.TB_TS_ADJ, [F.TB_TS_ADJ_RX_ADJ, F.TB_TS_ADJ_TX_ADJ]⟩]

def rows06a : List Row := [
  ⟨R.WT_STAT, [F.WT_STAT_STATE, F.WT_STAT_DIR, F.WT_STAT_SETTLING, F.WT_STAT_SUSPENDED, F.WT_STAT_SUSP_CAUSE, F.WT_STAT_POS_UNCERTAIN, F.WT_STAT_QUAD_FAULT, F.WT_STAT_SCALE_REFUSED]⟩,
  ⟨R.WT_POS, [F.WT_POS_POS]⟩,
  ⟨R.WT_SPEED, [F.WT_SPEED_SPEED]⟩,
  ⟨R.WT_ACCEL, [F.WT_ACCEL_ACCEL]⟩,
  ⟨R.WT_DEBT, [F.WT_DEBT_D]⟩,
  ⟨R.WT_SRC_CFG, [F.WT_SRC_CFG_SRC]⟩,
  ⟨R.WT_SCALE, [F.WT_SCALE_SCALE]⟩,
  ⟨R.WT_GAIN, [F.WT_GAIN_ALPHA, F.WT_GAIN_BETA, F.WT_GAIN_GAMMA]⟩,
  ⟨R.WT_LIMITS, [F.WT_LIMITS_STILL_T, F.WT_LIMITS_REV_LIMIT, F.WT_LIMITS_COAST_MAX]⟩,
  ⟨R.WT_CUE_CFG, [F.WT_CUE_CFG_CUE_DELAY, F.WT_CUE_CFG_ENABLE, F.WT_CUE_CFG_SOFT]⟩,
  ⟨R.WT_PAGE, [F.WT_PAGE_START, F.WT_PAGE_ACTIVE, F.WT_PAGE_SUSPECT]⟩,
  ⟨R.WT_MISSED, [F.WT_MISSED_LATE, F.WT_MISSED_CLAMPED]⟩]

def rows06b : List Row := [
  ⟨R.WT_Qn_CFG, [F.WT_Qn_CFG_ENABLE, F.WT_Qn_CFG_DIR_INV, F.WT_Qn_CFG_IDX_MODE, F.WT_Qn_CFG_IDX_ARM, F.WT_Qn_CFG_FILT]⟩,
  ⟨R.WT_Qn_STAT, [F.WT_Qn_STAT_POS_UNCERTAIN, F.WT_Qn_STAT_QUAD_FAULT, F.WT_Qn_STAT_QERR]⟩,
  ⟨R.WT_Qn_COUNT, [F.WT_Qn_COUNT_COUNT]⟩,
  ⟨R.WT_Qn_IDX, [F.WT_Qn_IDX_LATCH]⟩,
  ⟨R.WT_Qn_IDXTIME, [F.WT_Qn_IDXTIME_STAMP]⟩,
  ⟨R.WT_F0_CFG, [F.WT_F0_CFG_ENABLE, F.WT_F0_CFG_DIR_INV, F.WT_F0_CFG_FILT]⟩,
  ⟨R.WT_F0_COUNT, [F.WT_F0_COUNT_COUNT]⟩,
  ⟨R.WT_CMP_STAT, [F.WT_CMP_STAT_CMP_LATE, F.WT_CMP_STAT_CMP_OVER]⟩,
  ⟨R.WT_CMP_START, [F.WT_CMP_START_START]⟩,
  ⟨R.WT_CMP_REPEAT, [F.WT_CMP_REPEAT_PERIOD, F.WT_CMP_REPEAT_COUNT]⟩,
  ⟨R.WT_CMP_OUT, [F.WT_CMP_OUT_TRIG_MASK, F.WT_CMP_OUT_MARK_MASK, F.WT_CMP_OUT_WIDTH, F.WT_CMP_OUT_ENABLE, F.WT_CMP_OUT_RELATIVE, F.WT_CMP_OUT_DONE]⟩]

def rows07a : List Row := [
  ⟨R.CD_CTRL, [F.CD_CTRL_DEC_ENABLE, F.CD_CTRL_ENC_ENABLE]⟩,
  ⟨R.CD_PAGE_PUSH, [F.CD_PAGE_PUSH_ADDR]⟩,
  ⟨R.CD_QSTAT, [F.CD_QSTAT_DEPTH, F.CD_QSTAT_OVERFLOW]⟩,
  ⟨R.CD_HEAD, [F.CD_HEAD_PAGE_ID, F.CD_HEAD_LINES, F.CD_HEAD_READY]⟩,
  ⟨R.CD_LANE_MAP, [F.CD_LANE_MAP_SPARE_FOR, F.CD_LANE_MAP_SPARE_STATE, F.CD_LANE_MAP_FAILED]⟩,
  ⟨R.CD_LANE_FORCE, [F.CD_LANE_FORCE_LANE, F.CD_LANE_FORCE_FORCE]⟩,
  ⟨R.CD_BAND_ERR, [F.CD_BAND_ERR_EXPANSION, F.CD_BAND_ERR_SHORT, F.CD_BAND_ERR_BAD, F.CD_BAND_ERR_CRC]⟩,
  ⟨R.CD_LATE, [F.CD_LATE_SEGMENTS]⟩,
  ⟨R.CD_ENCn_SRC, [F.CD_ENCn_SRC_ADDR, F.CD_ENCn_SRC_LEN]⟩,
  ⟨R.CD_ENCn_SKEIN, [F.CD_ENCn_SKEIN_ADDR]⟩,
  ⟨R.CD_ENCn_CTRL, [F.CD_ENCn_CTRL_GO, F.CD_ENCn_CTRL_KICK, F.CD_ENCn_CTRL_MODE, F.CD_ENCn_CTRL_TAG]⟩,
  ⟨R.CD_ENCn_STAT, [F.CD_ENCn_STAT_STATE, F.CD_ENCn_STAT_ERR]⟩]

def rows08a : List Row := [
  ⟨R.LA_WINDOW, [F.LA_WINDOW_BASE, F.LA_WINDOW_LOG_LINES]⟩,
  ⟨R.LA_RELEASE, [F.LA_RELEASE_RM]⟩,
  ⟨R.LA_HEAD_OFF, [F.LA_HEAD_OFF_OFF]⟩,
  ⟨R.LA_HEAD_OUT, [F.LA_HEAD_OUT_OUT, F.LA_HEAD_OUT_CAUSE]⟩,
  ⟨R.LA_SHIFT, [F.LA_SHIFT_HOST, F.LA_SHIFT_WHEN, F.LA_SHIFT_AUTO_WHEN, F.LA_SHIFT_PENDING]⟩,
  ⟨R.LA_SHIFT_STAT, [F.LA_SHIFT_STAT_AUTO, F.LA_SHIFT_STAT_SHIFT]⟩,
  ⟨R.LA_MARGIN, [F.LA_MARGIN_FIRST, F.LA_MARGIN_LAST]⟩,
  ⟨R.LA_BLEND_CTRL, [F.LA_BLEND_CTRL_MODE, F.LA_BLEND_CTRL_WHEN, F.LA_BLEND_CTRL_COMMIT]⟩,
  ⟨R.LA_BLEND_MASK, [F.LA_BLEND_MASK_ENTRIES]⟩,
  ⟨R.LA_SWATCH, [F.LA_SWATCH_ARM, F.LA_SWATCH_STEP, F.LA_SWATCH_REPEATS, F.LA_SWATCH_SIZE, F.LA_SWATCH_START]⟩,
  ⟨R.LA_COUNT, [F.LA_COUNT_READ_LATE, F.LA_COUNT_READ_LOST]⟩]

def rows09a : List Row := [
  ⟨R.PE_HIST_CFG, [F.PE_HIST_CFG_IDLE_BEATS, F.PE_HIST_CFG_HIST_EN]⟩,
  ⟨R.PE_SPIT, [F.PE_SPIT_ENABLE, F.PE_SPIT_SIZE, F.PE_SPIT_PERIOD]⟩,
  ⟨R.PE_HIST_MAP, [F.PE_HIST_MAP_MAP]⟩,
  ⟨R.PE_TRIM, [F.PE_TRIM_TRIM]⟩,
  ⟨R.PE_TRIM_CTRL, [F.PE_TRIM_CTRL_COMMIT, F.PE_TRIM_CTRL_PENDING]⟩,
  ⟨R.HL_TEMP_CFG, [F.HL_TEMP_CFG_WARN, F.HL_TEMP_CFG_LIMIT, F.HL_TEMP_CFG_HYST, F.HL_TEMP_CFG_TIMEOUT]⟩,
  ⟨R.HL_TEMP_STAT, [F.HL_TEMP_STAT_TEMP, F.HL_TEMP_STAT_STATE, F.HL_TEMP_STAT_STALE, F.HL_TEMP_STAT_RESUME_SET, F.HL_TEMP_STAT_TRIPS]⟩,
  ⟨R.HL_ACT, [F.HL_ACT_COUNT, F.HL_ACT_EPOCH]⟩]

def rows10a : List Row := [
  ⟨R.PE_CLAIM, [F.PE_CLAIM_CLAIM, F.PE_CLAIM_DROPPED, F.PE_CLAIM_CAUSE]⟩,
  ⟨R.PE_STAT, [F.PE_STAT_ACTIVE, F.PE_STAT_CONNECTED, F.PE_STAT_FAILS_WIN]⟩,
  ⟨R.PE_CHECK_CFG, [F.PE_CHECK_CFG_FAIL_LIMIT]⟩,
  ⟨R.PE_COUNT, [F.PE_COUNT_LINES, F.PE_COUNT_CHECK_FAIL, F.PE_COUNT_OVERRUN]⟩,
  ⟨R.HL_INHIBIT_CTRL, [F.HL_INHIBIT_CTRL_INHIBIT, F.HL_INHIBIT_CTRL_RESUME, F.HL_INHIBIT_CTRL_PIN, F.HL_INHIBIT_CTRL_ACTIVE, F.HL_INHIBIT_CTRL_PACE_LOST]⟩,
  ⟨R.HL_ARB_COUNT, [F.HL_ARB_COUNT_MISMATCH, F.HL_ARB_COUNT_STAGE_CRC_A, F.HL_ARB_COUNT_STAGE_CRC_B, F.HL_ARB_COUNT_BLANKED]⟩]

def rows11a : List Row := [
  ⟨R.HL_GLOBAL_CFG, [F.HL_GLOBAL_CFG_EYE_MIN, F.HL_GLOBAL_CFG_ERR_LIMIT, F.HL_GLOBAL_CFG_STATUS_LOG]⟩,
  ⟨R.HL_CFG, [F.HL_CFG_RETRAIN, F.HL_CFG_TEST, F.HL_CFG_DN_SLEEP_EN, F.HL_CFG_UP_SLEEP_EN, F.HL_CFG_DN_SLEEP_BEATS]⟩,
  ⟨R.HL_STAT, [F.HL_STAT_STATE, F.HL_STAT_GEN, F.HL_STAT_UP, F.HL_STAT_IN_SERVICE, F.HL_STAT_DN_ASLEEP, F.HL_STAT_UP_ASLEEP, F.HL_STAT_FELL_BACK, F.HL_STAT_ATTEMPT, F.HL_STAT_CAUSE, F.HL_STAT_HEAD_FLAGS]⟩,
  ⟨R.HL_TAPS, [F.HL_TAPS_DN_PRE, F.HL_TAPS_DN_MAIN, F.HL_TAPS_DN_POST, F.HL_TAPS_UP_PRE, F.HL_TAPS_UP_MAIN, F.HL_TAPS_UP_POST, F.HL_TAPS_EYE]⟩,
  ⟨R.HL_DELAY, [F.HL_DELAY_D_DN, F.HL_DELAY_ACCEPTED, F.HL_DELAY_REJECTED]⟩,
  ⟨R.HL_ASYM, [F.HL_ASYM_ASYM]⟩,
  ⟨R.HL_FIRE_ADJ, [F.HL_FIRE_ADJ_ROW_A, F.HL_FIRE_ADJ_ROW_B]⟩,
  ⟨R.HL_COUNT, [F.HL_COUNT_CRC_UP, F.HL_COUNT_CRC_DN, F.HL_COUNT_TX_LATE, F.HL_COUNT_RECOVERIES]⟩,
  ⟨R.HL_HEAD_COUNT, [F.HL_HEAD_COUNT_FIRED, F.HL_HEAD_COUNT_DISCARDED]⟩,
  ⟨R.HL_MGMT_CMD, [F.HL_MGMT_CMD_ADDR, F.HL_MGMT_CMD_COUNT, F.HL_MGMT_CMD_WRITE, F.HL_MGMT_CMD_GO, F.HL_MGMT_CMD_CANCEL]⟩,
  ⟨R.HL_MGMT_STAT, [F.HL_MGMT_STAT_BUSY, F.HL_MGMT_STAT_DONE, F.HL_MGMT_STAT_RESULT]⟩,
  ⟨R.HL_MGMT_DATA, [F.HL_MGMT_DATA_DATA]⟩]

def rows12a : List Row := [
  ⟨R.INS_COMMIT, [F.INS_COMMIT_COMMIT, F.INS_COMMIT_PENDING, F.INS_COMMIT_GEN]⟩,
  ⟨R.INS_STAT_RING, [F.INS_STAT_RING_LOG_ENTRIES, F.INS_STAT_RING_BASE]⟩,
  ⟨R.INS_STAT_HEAD, [F.INS_STAT_HEAD_HEAD]⟩,
  ⟨R.INS_I2Cm_CMD, [F.INS_I2Cm_CMD_DEV, F.INS_I2Cm_CMD_READ, F.INS_I2Cm_CMD_REG, F.INS_I2Cm_CMD_COUNT, F.INS_I2Cm_CMD_SPEED, F.INS_I2Cm_CMD_GO]⟩,
  ⟨R.INS_I2Cm_DATA, [F.INS_I2Cm_DATA_DATA]⟩,
  ⟨R.INS_I2Cm_STAT, [F.INS_I2Cm_STAT_BUSY, F.INS_I2Cm_STAT_DONE, F.INS_I2Cm_STAT_RESULT]⟩,
  ⟨R.INS_Cc_CFG, [F.INS_Cc_CFG_ENABLE, F.INS_Cc_CFG_CAPTURE, F.INS_Cc_CFG_LINE_TMO]⟩,
  ⟨R.INS_Cc_STROBE, [F.INS_Cc_STROBE_DELAY, F.INS_Cc_STROBE_WIDTH, F.INS_Cc_STROBE_POLARITY]⟩,
  ⟨R.INS_Cc_GEOM, [F.INS_Cc_GEOM_ACROSS, F.INS_Cc_GEOM_ALONG]⟩,
  ⟨R.INS_Cc_BLACK, [F.INS_Cc_BLACK_BLACK]⟩,
  ⟨R.INS_Cc_I2C, [F.INS_Cc_I2C_DEV, F.INS_Cc_I2C_PROBE_REG]⟩,
  ⟨R.INS_Cc_FBUF, [F.INS_Cc_FBUF_FRAMES, F.INS_Cc_FBUF_BASE]⟩]

def rows12b : List Row := [
  ⟨R.INS_Cc_STAT, [F.INS_Cc_STAT_STATE, F.INS_Cc_STAT_ENABLE_PENDING, F.INS_Cc_STAT_OPEN, F.INS_Cc_STAT_LINES, F.INS_Cc_STAT_FRAME]⟩,
  ⟨R.INS_Cc_COUNT, [F.INS_Cc_COUNT_MISSED, F.INS_Cc_COUNT_ORPHAN, F.INS_Cc_COUNT_BAD_LINE, F.INS_Cc_COUNT_OVERLAP]⟩,
  ⟨R.INS_Cc_DEFECT, [F.INS_Cc_DEFECT_BITS]⟩,
  ⟨R.INS_Cc_SHADE, [F.INS_Cc_SHADE_GAIN, F.INS_Cc_SHADE_OFFSET]⟩,
  ⟨R.INS_Cc_DENS_LUT, [F.INS_Cc_DENS_LUT_ENTRIES]⟩,
  ⟨R.INS_Cc_EXP_LUT, [F.INS_Cc_EXP_LUT_ENTRIES]⟩]

def rows13a : List Row := [
  ⟨R.NZ_CTRL, [F.NZ_CTRL_ENABLE, F.NZ_CTRL_APPLY, F.NZ_CTRL_PARTNER_EN, F.NZ_CTRL_NEIGHBOUR_EN, F.NZ_CTRL_WEAK_ACT, F.NZ_CTRL_REG_EN, F.NZ_CTRL_SWATCH_PAGES, F.NZ_CTRL_AUTO_SWATCH]⟩,
  ⟨R.NZ_DETECT, [F.NZ_DETECT_WIN_READINGS, F.NZ_DETECT_CONFIRM, F.NZ_DETECT_REINSTATE, F.NZ_DETECT_MISS, F.NZ_DETECT_WEAK, F.NZ_DETECT_DEFLECT, F.NZ_DETECT_E_MIN]⟩,
  ⟨R.NZ_STAT, [F.NZ_STAT_DROPPED, F.NZ_STAT_SUSPECT, F.NZ_STAT_HELD]⟩,
  ⟨R.NZ_COUNT, [F.NZ_COUNT_READINGS, F.NZ_COUNT_SUBST_LOST, F.NZ_COUNT_UNTESTED]⟩,
  ⟨R.NZ_AUDIT, [F.NZ_AUDIT_LOG_ENTRIES, F.NZ_AUDIT_BASE, F.NZ_AUDIT_HEAD]⟩,
  ⟨R.NZ_REG_CFG, [F.NZ_REG_CFG_CAM, F.NZ_REG_CFG_REF_MODE, F.NZ_REG_CFG_GAIN, F.NZ_REG_CFG_REG_MAX, F.NZ_REG_CFG_HYST, F.NZ_REG_CFG_EDGE_LEVEL]⟩,
  ⟨R.NZ_REG_RANGE, [F.NZ_REG_RANGE_OWN_LO, F.NZ_REG_RANGE_OWN_HI, F.NZ_REG_RANGE_REF_LO, F.NZ_REG_RANGE_REF_HI]⟩,
  ⟨R.NZ_REG_TARGET, [F.NZ_REG_TARGET_TARGET, F.NZ_REG_TARGET_REG_MIN]⟩,
  ⟨R.NZ_REG_STAT, [F.NZ_REG_STAT_ERROR, F.NZ_REG_STAT_T, F.NZ_REG_STAT_ALONG]⟩,
  ⟨R.NZ_HEALTH, [F.NZ_HEALTH_STATE, F.NZ_HEALTH_KIND, F.NZ_HEALTH_RUN, F.NZ_HEALTH_HIT, F.NZ_HEALTH_DEFL]⟩,
  ⟨R.LA_SUBST, [F.LA_SUBST_ENTRIES]⟩]

def rows14a : List Row := [
  ⟨R.DM_STAT, [F.DM_STAT_SPEED, F.DM_STAT_RANKS, F.DM_STAT_STATE, F.DM_STAT_HOT0, F.DM_STAT_HOT1]⟩,
  ⟨R.DM_SPARE, [F.DM_SPARE_SPARE, F.DM_SPARE_MARK1, F.DM_SPARE_CAUSE1, F.DM_SPARE_MARK2, F.DM_SPARE_CAUSE2, F.DM_SPARE_POINTER]⟩,
  ⟨R.DM_MARK_CTRL, [F.DM_MARK_CTRL_RANK, F.DM_MARK_CTRL_LANE, F.DM_MARK_CTRL_MARK, F.DM_MARK_CTRL_FORGET]⟩,
  ⟨R.DM_ECC_COUNT, [F.DM_ECC_COUNT_CORRECTED, F.DM_ECC_COUNT_ERASED, F.DM_ECC_COUNT_UNCORR]⟩,
  ⟨R.DM_UE_ADDR, [F.DM_UE_ADDR_ADDR, F.DM_UE_ADDR_REQ]⟩,
  ⟨R.DM_SCRUB, [F.DM_SCRUB_HOURS, F.DM_SCRUB_PASSES, F.DM_SCRUB_POINTER]⟩,
  ⟨R.DM_REBUILD, [F.DM_REBUILD_MBPS]⟩,
  ⟨R.DM_RETRAIN, [F.DM_RETRAIN_INTERVAL, F.DM_RETRAIN_FLOOR, F.DM_RETRAIN_MARK_THRESH]⟩,
  ⟨R.DM_REFRESH, [F.DM_REFRESH_P0, F.DM_REFRESH_P1, F.DM_REFRESH_FORCED]⟩,
  ⟨R.DM_PPR, [F.DM_PPR_VALID, F.DM_PPR_RANK, F.DM_PPR_LANE, F.DM_PPR_BG, F.DM_PPR_BANK, F.DM_PPR_ROW]⟩,
  ⟨R.DM_PRED_CFG, [F.DM_PRED_CFG_MODE]⟩,
  ⟨R.DM_SPEED_CTRL, [F.DM_SPEED_CTRL_TARGET, F.DM_SPEED_CTRL_GO, F.DM_SPEED_CTRL_BUSY, F.DM_SPEED_CTRL_RESULT, F.DM_SPEED_CTRL_SET_B]⟩]

def rows14b : List Row := [
  ⟨R.DM_LANE, [F.DM_LANE_MARGIN, F.DM_LANE_SUSPECT, F.DM_LANE_NOSET, F.DM_LANE_CE]⟩]

def rows15a : List Row := [
  ⟨R.MF_CLASS, [F.MF_CLASS_CLASS]⟩,
  ⟨R.MF_ARB_CFG, [F.MF_ARB_CFG_STARVE_N, F.MF_ARB_CFG_HOLD_MAX]⟩,
  ⟨R.MF_SLOT_BEAT, [F.MF_SLOT_BEAT_SWAP_BEAT]⟩,
  ⟨R.MF_SLOT_CTRL, [F.MF_SLOT_CTRL_ARM, F.MF_SLOT_CTRL_ACTIVE_WRITE, F.MF_SLOT_CTRL_RESULT]⟩,
  ⟨R.MF_URGENT, [F.MF_URGENT_URGENT]⟩,
  ⟨R.MF_COUNT, [F.MF_COUNT_HOLD_CUTS, F.MF_COUNT_STARVE, F.MF_COUNT_YIELDS]⟩,
  ⟨R.MF_SLOT_ACTIVE, [F.MF_SLOT_ACTIVE_ENTRIES]⟩,
  ⟨R.MF_SLOT_SHADOW, [F.MF_SLOT_SHADOW_ENTRIES]⟩]

def rows16a : List Row := [
  ⟨R.HST_PORT_STAT, [F.HST_PORT_STAT_LINK_UP, F.HST_PORT_STAT_SPEED, F.HST_PORT_STAT_WIDTH, F.HST_PORT_STAT_SECURE, F.HST_PORT_STAT_RESETS]⟩,
  ⟨R.HST_EVR_BASE, [F.HST_EVR_BASE_BASE]⟩,
  ⟨R.HST_EVR_CFG, [F.HST_EVR_CFG_ENABLE, F.HST_EVR_CFG_LOG_ENTRIES, F.HST_EVR_CFG_MOD]⟩,
  ⟨R.HST_EVR_HEAD, [F.HST_EVR_HEAD_HEAD, F.HST_EVR_HEAD_PHASE]⟩,
  ⟨R.HST_EVR_TAIL, [F.HST_EVR_TAIL_TAIL]⟩,
  ⟨R.HST_EVR_STAT, [F.HST_EVR_STAT_WAITING, F.HST_EVR_STAT_LOST]⟩,
  ⟨R.HST_DOORBELL, [F.HST_DOORBELL_VALUE]⟩,
  ⟨R.HST_SNAP_DEST, [F.HST_SNAP_DEST_DRAM, F.HST_SNAP_DEST_ADDR]⟩,
  ⟨R.HST_SNAP_CTRL, [F.HST_SNAP_CTRL_SETS, F.HST_SNAP_CTRL_NOZZLE, F.HST_SNAP_CTRL_GO, F.HST_SNAP_CTRL_BUSY, F.HST_SNAP_CTRL_ERR]⟩,
  ⟨R.ETH_CFG, [F.ETH_CFG_ENABLE, F.ETH_CFG_SPEED, F.ETH_CFG_AN_EN]⟩,
  ⟨R.ETH_MAC, [F.ETH_MAC_MAC]⟩,
  ⟨R.ETH_STAT, [F.ETH_STAT_LINK, F.ETH_STAT_STATE, F.ETH_STAT_ERR]⟩]

def rows16b : List Row := [
  ⟨R.ETH_COUNT, [F.ETH_COUNT_RX_PTP, F.ETH_COUNT_DISCARD, F.ETH_COUNT_RX_FCS, F.ETH_COUNT_TX_UP]⟩,
  ⟨R.ETH_UP_DST, [F.ETH_UP_DST_DST_MAC, F.ETH_UP_DST_DSCP]⟩,
  ⟨R.ETH_UP_ADDR, [F.ETH_UP_ADDR_DST_IP, F.ETH_UP_ADDR_DST_PORT, F.ETH_UP_ADDR_SRC_PORT]⟩,
  ⟨R.ETH_UP_SRC, [F.ETH_UP_SRC_SRC, F.ETH_UP_SRC_LEN]⟩,
  ⟨R.ETH_UP_CTRL, [F.ETH_UP_CTRL_GO, F.ETH_UP_CTRL_RATE, F.ETH_UP_CTRL_TAG]⟩]

def rows17a : List Row := [
  ⟨R.VLT_STAT, [F.VLT_STAT_SEALED, F.VLT_STAT_TAMPER, F.VLT_STAT_VBAT_LOST, F.VLT_STAT_LOST, F.VLT_STAT_DISAGREE]⟩,
  ⟨R.VLT_ROLLBACK, [F.VLT_ROLLBACK_COUNT, F.VLT_ROLLBACK_USED, F.VLT_ROLLBACK_RESULT, F.VLT_ROLLBACK_BUSY]⟩,
  ⟨R.VLT_ROLLBACK_CTRL, [F.VLT_ROLLBACK_CTRL_ADVANCE, F.VLT_ROLLBACK_CTRL_KEY]⟩,
  ⟨R.VLT_ROOT_HASH, [F.VLT_ROOT_HASH_HASH]⟩,
  ⟨R.VLT_HEAD_ROOT, [F.VLT_HEAD_ROOT_KEY]⟩,
  ⟨R.VLT_PROG_CTRL, [F.VLT_PROG_CTRL_GROUP, F.VLT_PROG_CTRL_PROG, F.VLT_PROG_CTRL_BUSY, F.VLT_PROG_CTRL_RESULT, F.VLT_PROG_CTRL_KEY]⟩,
  ⟨R.VLT_TAMPER, [F.VLT_TAMPER_SOURCE, F.VLT_TAMPER_FORCE, F.VLT_TAMPER_CLEAR]⟩,
  ⟨R.VLT_LAST_TIME, [F.VLT_LAST_TIME_TIME]⟩,
  ⟨R.VLT_CERT_LEN, [F.VLT_CERT_LEN_LEN]⟩,
  ⟨R.VLT_ATTEST_NONCE, [F.VLT_ATTEST_NONCE_NONCE]⟩,
  ⟨R.VLT_ATTEST_CTRL, [F.VLT_ATTEST_CTRL_GO, F.VLT_ATTEST_CTRL_BUSY]⟩,
  ⟨R.VLT_ATTEST_SIG, [F.VLT_ATTEST_SIG_SIG]⟩]

def rows17b : List Row := [
  ⟨R.VLT_AUTH_CFG, [F.VLT_AUTH_CFG_USAGE_PERIOD]⟩,
  ⟨R.VLT_AUTH_REAUTH, [F.VLT_AUTH_REAUTH_LINKS]⟩,
  ⟨R.VLT_HEAD_STAT, [F.VLT_HEAD_STAT_AUTH, F.VLT_HEAD_STAT_CAUSE, F.VLT_HEAD_STAT_POLICY]⟩,
  ⟨R.VLT_HEAD_SERIAL, [F.VLT_HEAD_SERIAL_HSERIAL]⟩,
  ⟨R.VLT_HEAD_USAGE, [F.VLT_HEAD_USAGE_TOTAL]⟩,
  ⟨R.VLT_HEAD_PENDING, [F.VLT_HEAD_PENDING_PENDING, F.VLT_HEAD_PENDING_UNAUTH]⟩,
  ⟨R.VLT_CERT, [F.VLT_CERT_CERT]⟩]

def rows18a : List Row := [
  ⟨R.MOT_CAP_POS, [F.MOT_CAP_POS_LIFT_CLEAR, F.MOT_CAP_POS_LIFT_SEAT]⟩,
  ⟨R.MOT_CAP_TRAY, [F.MOT_CAP_TRAY_TRAY_CAP]⟩,
  ⟨R.MOT_CAP_CTRL, [F.MOT_CAP_CTRL_GO, F.MOT_CAP_CTRL_BUSY, F.MOT_CAP_CTRL_RESULT]⟩,
  ⟨R.MOT_n_CFG, [F.MOT_n_CFG_ENABLE, F.MOT_n_CFG_SOURCE, F.MOT_n_CFG_DIR_INV, F.MOT_n_CFG_HOME_POL, F.MOT_n_CFG_END_POL, F.MOT_n_CFG_PRINT_LOCK, F.MOT_n_CFG_GANG, F.MOT_n_CFG_STALL_EN, F.MOT_n_CFG_COARSE, F.MOT_n_CFG_DECAY]⟩,
  ⟨R.MOT_n_CURRENT, [F.MOT_n_CURRENT_IRUN, F.MOT_n_CURRENT_IHOLD, F.MOT_n_CURRENT_OC_LIMIT, F.MOT_n_CURRENT_FAST_PCT, F.MOT_n_CURRENT_HOLD_DELAY]⟩,
  ⟨R.MOT_n_SPEED, [F.MOT_n_SPEED_VMAX, F.MOT_n_SPEED_VSTART]⟩,
  ⟨R.MOT_n_RAMP, [F.MOT_n_RAMP_ACCEL, F.MOT_n_RAMP_DECEL]⟩,
  ⟨R.MOT_n_MOVE, [F.MOT_n_MOVE_TARGET, F.MOT_n_MOVE_GO, F.MOT_n_MOVE_SOFT_STOP, F.MOT_n_MOVE_STOP, F.MOT_n_MOVE_HOME]⟩,
  ⟨R.MOT_n_HOME, [F.MOT_n_HOME_VSLOW, F.MOT_n_HOME_DEBOUNCE, F.MOT_n_HOME_BACKOFF]⟩,
  ⟨R.MOT_n_HOME_POS, [F.MOT_n_HOME_POS_HOME_OFFSET, F.MOT_n_HOME_POS_SEEK_MAX]⟩,
  ⟨R.MOT_n_STALL, [F.MOT_n_STALL_LIMIT, F.MOT_n_STALL_STALL_COUNT, F.MOT_n_STALL_VMIN]⟩,
  ⟨R.MOT_n_STAT, [F.MOT_n_STAT_STATE, F.MOT_n_STAT_ENABLE_PENDING, F.MOT_n_STAT_MOTION, F.MOT_n_STAT_HOME_PHASE, F.MOT_n_STAT_HOMED, F.MOT_n_STAT_LOST, F.MOT_n_STAT_MOVE_PENDING, F.MOT_n_STAT_ABSENT, F.MOT_n_STAT_STOP_CAUSE, F.MOT_n_STAT_HOME_IN, F.MOT_n_STAT_END_IN, F.MOT_n_STAT_LOAD]⟩]

def rows18b : List Row := [
  ⟨R.MOT_n_POS, [F.MOT_n_POS_POS, F.MOT_n_POS_VEL]⟩,
  ⟨R.MOT_n_LATCH, [F.MOT_n_LATCH_STAMP]⟩,
  ⟨R.MOT_n_COUNT, [F.MOT_n_COUNT_MOVES, F.MOT_n_COUNT_STOPS, F.MOT_n_COUNT_STALLS, F.MOT_n_COUNT_CHATTER]⟩]

def rows19a : List Row := [
  ⟨R.SV_REG, [F.SV_REG_REG, F.SV_REG_BEAT]⟩,
  ⟨R.SV_a_CFG, [F.SV_a_CFG_ENABLE, F.SV_a_CFG_FAULT_ACTION, F.SV_a_CFG_REG_FOLLOW, F.SV_a_CFG_HALL_FILT, F.SV_a_CFG_DEADTIME, F.SV_a_CFG_A_FREQ, F.SV_a_CFG_A_COMP]⟩,
  ⟨R.SV_a_FB, [F.SV_a_FB_FB_SCALE, F.SV_a_FB_A_ZERO]⟩,
  ⟨R.SV_a_COMM, [F.SV_a_COMM_ECYCLE, F.SV_a_COMM_ELEC_OFFSET, F.SV_a_COMM_ALIGN_I]⟩,
  ⟨R.SV_a_TARGET, [F.SV_a_TARGET_TARGET]⟩,
  ⟨R.SV_a_LIMITS, [F.SV_a_LIMITS_LIM_NEG, F.SV_a_LIMITS_LIM_POS]⟩,
  ⟨R.SV_a_SPEED, [F.SV_a_SPEED_VMAX, F.SV_a_SPEED_JERK]⟩,
  ⟨R.SV_a_RAMP, [F.SV_a_RAMP_ACCEL, F.SV_a_RAMP_DECEL]⟩,
  ⟨R.SV_a_GAIN, [F.SV_a_GAIN_KP, F.SV_a_GAIN_KI, F.SV_a_GAIN_KD, F.SV_a_GAIN_ILIM]⟩,
  ⟨R.SV_a_FF, [F.SV_a_FF_KVF, F.SV_a_FF_KAF]⟩,
  ⟨R.SV_a_CURRENT, [F.SV_a_CURRENT_IQ_MAX, F.SV_a_CURRENT_OC_LIMIT, F.SV_a_CURRENT_CUR_KP, F.SV_a_CURRENT_CUR_KI]⟩,
  ⟨R.SV_a_PLAUS, [F.SV_a_PLAUS_FOLLOW_MAX, F.SV_a_PLAUS_FOLLOW_TICKS, F.SV_a_PLAUS_LIM_MARGIN]⟩]

def rows19b : List Row := [
  ⟨R.SV_a_MODEL, [F.SV_a_MODEL_KM, F.SV_a_MODEL_MODEL_MAX]⟩,
  ⟨R.SV_a_REF, [F.SV_a_REF_REF_OFFSET, F.SV_a_REF_REF_SPEED]⟩,
  ⟨R.SV_a_CTRL, [F.SV_a_CTRL_REFERENCE, F.SV_a_CTRL_CLEAR, F.SV_a_CTRL_NOTCH_COMMIT, F.SV_a_CTRL_NOTCH_PENDING]⟩,
  ⟨R.SV_a_STAT, [F.SV_a_STAT_STATE, F.SV_a_STAT_ENABLE_PENDING, F.SV_a_STAT_MOTION, F.SV_a_STAT_REFERENCED, F.SV_a_STAT_CAUSE, F.SV_a_STAT_SECTOR]⟩,
  ⟨R.SV_a_POS, [F.SV_a_POS_Y, F.SV_a_POS_REFPOS]⟩,
  ⟨R.SV_a_LOOP, [F.SV_a_LOOP_E, F.SV_a_LOOP_IQ, F.SV_a_LOOP_ANGLE]⟩,
  ⟨R.SV_a_COUNT, [F.SV_a_COUNT_HALL_ERR, F.SV_a_COUNT_FB_MISSING, F.SV_a_COUNT_A_WARN, F.SV_a_COUNT_FAULTS]⟩,
  ⟨R.SV_a_NOTCH, [F.SV_a_NOTCH_COEF]⟩]

def rows20a : List Row := [
  ⟨R.TRM_TRIM_CTRL, [F.TRM_TRIM_CTRL_GO, F.TRM_TRIM_CTRL_BUSY, F.TRM_TRIM_CTRL_RESULT, F.TRM_TRIM_CTRL_RES_MAX, F.TRM_TRIM_CTRL_KEY]⟩,
  ⟨R.TRM_MAP, [F.TRM_MAP_X0_FOR, F.TRM_MAP_X1_FOR, F.TRM_MAP_BLANK]⟩,
  ⟨R.TRM_CHECK_CFG, [F.TRM_CHECK_CFG_CHECK_MS]⟩,
  ⟨R.TRM_CH, [F.TRM_CH_C, F.TRM_CH_V, F.TRM_CH_STATUS, F.TRM_CH_REPLACED, F.TRM_CH_QUALITY]⟩,
  ⟨R.TRM_TRIM, [F.TRM_TRIM_GAIN, F.TRM_TRIM_OFF]⟩,
  ⟨R.TRM_EYE_BASE, [F.TRM_EYE_BASE_EYE]⟩]

def rows21a : List Row := [
  ⟨R.SYS_FAULT_STAT, [F.SYS_FAULT_STAT_INHIBIT, F.SYS_FAULT_STAT_SUSPENDED, F.SYS_FAULT_STAT_HEAD_OUT, F.SYS_FAULT_STAT_LINK_DOWN, F.SYS_FAULT_STAT_PAGE_SUSPECT, F.SYS_FAULT_STAT_LINE_LOSS, F.SYS_FAULT_STAT_SINGLE_ENGINE, F.SYS_FAULT_STAT_DRAM, F.SYS_FAULT_STAT_DRAM_UE, F.SYS_FAULT_STAT_TIME, F.SYS_FAULT_STAT_AXIS, F.SYS_FAULT_STAT_INSPECTION, F.SYS_FAULT_STAT_PACE_LOST, F.SYS_FAULT_STAT_WEDGED, F.SYS_FAULT_STAT_CASTON]⟩,
  ⟨R.SYS_FAULT_MASK, [F.SYS_FAULT_MASK_MASK]⟩]

def rows23a : List Row := [
  ⟨R.SYS_TEMP, [F.SYS_TEMP_TJ, F.SYS_TEMP_PEAK, F.SYS_TEMP_HOT]⟩]

/-- Every register of the device. -/
def regTable : List Row :=
  rows02a ++ rows03a ++ rows04a ++ rows05a ++ rows05b ++ rows06a ++ rows06b ++ rows07a ++
  rows08a ++ rows09a ++ rows10a ++ rows11a ++ rows12a ++ rows12b ++ rows13a ++ rows14a ++
  rows14b ++ rows15a ++ rows16a ++ rows16b ++ rows17a ++ rows17b ++ rows18a ++ rows18b ++
  rows19a ++ rows19b ++ rows20a ++ rows21a ++ rows23a

end Sys2Proof.Machine
end

