-- ==== Sys2Proof/Machine/Ops.lean ====
section
/-!
DEFINITION. The named operations that every meaning is written over: the sparse maps, register fields, counters, DRAM, events,
outputs, free values, functions (R72) and page suspicion.
-/

namespace Sys2Proof.Machine

/-! ### Sparse maps in canonical form -/

/-- The value at a key; an unlisted key has the default. -/
def mapGet {α : Type} (m : List (Nat × α)) (k : Nat) (dflt : α) : α :=
  match m with
  | [] => dflt
  | (a, v) :: r => if a = k then v else mapGet r k dflt

/-- Set the value at a key: keys stay strictly rising and no entry equals the default. -/
def mapSet {α : Type} [DecidableEq α] (m : List (Nat × α)) (k : Nat) (v dflt : α) : List (Nat × α) :=
  match m with
  | [] => if v = dflt then [] else [(k, v)]
  | (a, x) :: r =>
    if a < k then (a, x) :: mapSet r k v dflt
    else if a = k then (if v = dflt then r else (k, v) :: r)
    else if v = dflt then (a, x) :: r else (k, v) :: (a, x) :: r

/-- The canonical form: strictly rising keys, all of them at or above `lo`, and no entry at the default. -/
def mapWf {α : Type} [DecidableEq α] (dflt : Nat → α) (lo : Nat) (m : List (Nat × α)) : Bool :=
  match m with
  | [] => true
  | (a, v) :: r => decide (lo ≤ a) && (decide (v ≠ dflt a) && mapWf dflt (a + 1) r)

/-- Keys strictly rising, all of them at or above `lo`: the form of the register map, whose default differs by key. -/
def keysRising {α : Type} (lo : Nat) (m : List (Nat × α)) : Bool :=
  match m with
  | [] => true
  | (a, _) :: r => decide (lo ≤ a) && keysRising (a + 1) r

/-- The canonical form of DRAM: addresses strictly rising, no byte listed that reads 0 anyway (log entry 4). -/
def Memory.wf (m : List Host.Cell) : Bool := mapWf (fun _ => 0) 0 m

/-- Fields packed little-endian with no padding (R290): each a size in bytes and a value. Log entry 25 (DEDUCED). -/
def pack (fs : List (Nat × Nat)) : List Byte := fs.flatMap fun f => leBytes f.1 f.2

/-- The bytes of a list of 32-bit words. -/
def wordBytes (ws : List Nat) : List Byte := ws.flatMap fun w => leBytes 4 w

/-! ### Registers -/

/-- Offset of instance i within an array of registers, indices in mixed radix, outermost first. -/
def dimOffset : List (Nat × Nat) → Nat → Nat
  | [], _ => 0
  | (_, s) :: ds, i =>
    let inner := ds.foldl (fun p d => p * d.1) 1
    i / inner * s + dimOffset ds (i % inner)

/-- Where instance i of a register lies in the register space. -/
def Reg.addr (r : Reg) (i : Nat) : Nat := r.base + dimOffset r.dims i

/-- The whole content of a register. -/
def Dev.reg (d : Dev) (r : Reg) (i : Nat) : Nat := (mapGet d.regs (r.addr i) (BitVec.ofNat 64 (r.rst i))).toNat

/-- Set the whole content of a register. -/
def Dev.setReg (d : Dev) (r : Reg) (i v : Nat) : Dev :=
  { d with regs := mapSet d.regs (r.addr i) (BitVec.ofNat 64 v) (BitVec.ofNat 64 (r.rst i)) }

/-- The bits of a field in a register's content. -/
def fieldOf (lo w v : Nat) : Nat := v / 2 ^ lo % 2 ^ w

/-- A register's content with one field replaced. -/
def fieldSet (lo w v x : Nat) : Nat := v - fieldOf lo w v * 2 ^ lo + x % 2 ^ w * 2 ^ lo

/-- Read a field. -/
def Dev.rd (d : Dev) (f : Fld) (i : Nat := 0) : Nat := fieldOf f.lo f.w (d.reg f.reg i)

/-- Read a field as two's complement. -/
def Dev.rdS (d : Dev) (f : Fld) (i : Nat := 0) : Int := toSigned f.w (d.rd f i)

/-- A one-bit field, or any field, is not zero. -/
def Dev.on (d : Dev) (f : Fld) (i : Nat := 0) : Bool := decide (d.rd f i ≠ 0)

/-- Bit b of a field is 1. -/
def Dev.bit (d : Dev) (f : Fld) (b : Nat) (i : Nat := 0) : Bool := (d.rd f i).testBit b

/-- A register's content as it stood at the last opening boundary (R18). Log entry 23 (DEDUCED). -/
def Dev.regO (d : Dev) (r : Reg) (i : Nat) : Nat := (mapGet d.regsOpen (r.addr i) (BitVec.ofNat 64 (r.rst i))).toNat

/-- A field's value as it stood at the last opening boundary. Log entry 23 (DEDUCED). -/
def Dev.rdO (d : Dev) (f : Fld) (i : Nat := 0) : Nat := fieldOf f.lo f.w (d.regO f.reg i)

def Dev.rdOS (d : Dev) (f : Fld) (i : Nat := 0) : Int := toSigned f.w (d.rdO f i)

def Dev.onO (d : Dev) (f : Fld) (i : Nat := 0) : Bool := decide (d.rdO f i ≠ 0)

/-- Hardware sets a field. -/
def Dev.wr (d : Dev) (f : Fld) (i v : Nat) : Dev := d.setReg f.reg i (fieldSet f.lo f.w (d.reg f.reg i) v)

/-- Hardware sets a field to a signed value. -/
def Dev.wrS (d : Dev) (f : Fld) (i : Nat) (v : Int) : Dev := d.wr f i (ofSigned f.w v)

/-- Hardware sets a one-bit field. -/
def Dev.wrB (d : Dev) (f : Fld) (i : Nat) (b : Bool) : Dev := d.wr f i (if b then 1 else 0)

/-- Hardware sets one bit of a field. -/
def Dev.wrBit (d : Dev) (f : Fld) (b i : Nat) (v : Bool) : Dev :=
  d.wr f i (fieldSet b 1 (d.rd f i) (if v then 1 else 0))

/-- A counter's next value under its wrap or saturation rule. -/
def Fld.sum (f : Fld) (a : Nat) (n : Int) : Nat :=
  if f.sat then (clampInt 0 (2 ^ f.w - 1) (a + n)).toNat else ((a + n) % (2 ^ f.w : Int)).toNat

/-- Count n in a counter that no snapshot covers. -/
def Dev.bump (d : Dev) (f : Fld) (i n : Nat) : Dev := d.wr f i (f.sum (d.rd f i) n)

/-- The key of a SNAP field's running delta. -/
def Fld.key (f : Fld) (i : Nat) : Nat := f.reg.addr i * 64 + f.lo

/-- Count n in the running delta of a SNAP field (R292). -/
def Dev.count (d : Dev) (f : Fld) (i n : Nat) : Dev :=
  { d with snapD := mapSet d.snapD (f.key i) (mapGet d.snapD (f.key i) 0 + n) 0 }

/-- Take back one that was counted: one counted before the last flip leaves the frozen value as it is until the next (R292). -/
def Dev.uncount (d : Dev) (f : Fld) (i : Nat) : Dev :=
  { d with snapD := mapSet d.snapD (f.key i) (mapGet d.snapD (f.key i) 0 - 1) 0 }

/-- The fields of block-relative instance (R4). -/
def blockOf (off : Nat) : Nat := off / 0x1000000

/-- Find instance and word of an offset in an array of registers: the index, and what is left below the last stride. -/
def locate : List (Nat × Nat) → Nat → Nat → Option (Nat × Nat)
  | [], rem, acc => some (acc, rem)
  | (c, s) :: ds, rem, acc =>
    let k := rem / s
    if k < c then locate ds (rem % s) (acc * c + k) else none

/-- Where an offset of the register space falls in a register: the instance, and whether it is the high word. -/
def Reg.locate (r : Reg) (off : Nat) : Option (Nat × Bool) :=
  if off < r.base then none
  else match Machine.locate r.dims (off - r.base) 0 with
    | some (i, 0) => some (i, false)
    | some (i, 4) => if r.width = 64 then some (i, true) else none
    | _ => none

/-- A register found at an offset. -/
structure Hit where
  row : Row
  idx : Nat
  high : Bool

/-- The register, if any, whose 32-bit word lies at an offset. -/
def findReg (off : Nat) : List Row → Option Hit
  | [] => none
  | row :: rest =>
    match row.reg.locate off with
    | some (i, h) => some ⟨row, i, h⟩
    | none => findReg off rest

/-- What a write of v leaves in a field (the words 'set the nearer limit' and their like). -/
def Clamp.app (c : Clamp) (w v : Nat) : Nat :=
  match c with
  | .any => v
  | .range lo hi => clampNat lo hi v
  | .threeIs x => if v = 3 then x else v
  | .signedAbs m => ofSigned w (clampInt (-(m : Int)) m (toSigned w v))
  | .evrLog => if 1 ≤ v ∧ v ≤ 5 then 6 else v

/-- What one field holds after a write of the value `new` under the byte mask `mask`, by its type (R8). `old` is the register's
content; `locked` tells whether RWL fields are locked. -/
def Fld.after (f : Fld) (locked : Bool) (old new mask : Nat) : Nat :=
  let m := fieldOf f.lo f.w mask
  let o := fieldOf f.lo f.w old
  let n := fieldOf f.lo f.w new
  let merged := Nat.xor o (Nat.land (Nat.xor o n) m)
  let touched := decide (m ≠ 0)
  match f.ty with
  | .rw => if touched then f.clamp.app f.w merged else o
  | .rwl => if touched && !locked then f.clamp.app f.w merged else o
  | .w1c => Nat.xor o (Nat.land o (Nat.land n m))
  | .w1s => Nat.lor o (Nat.land n m)
  | .ro | .wo | .snap => o

/-- A write of register content by a master, field by field (R8, R9): `mask` covers the words written. -/
def Dev.regWrite (d : Dev) (row : Row) (i new mask : Nat) : Dev :=
  let old := d.reg row.reg i
  let v := row.flds.foldl (fun acc f => fieldSet f.lo f.w acc (f.after d.sys.locked old new mask)) old
  d.setReg row.reg i v

/-! ### Device time -/

/-- TB_NOW in whole ns; the accumulator counts 2^-32 ns (R75). -/
def Dev.now (d : Dev) : Nat := d.tmb.acc / 2 ^ 32

/-- Whole ns that have passed since reset, whatever steps device time has made. -/
def Dev.elapsed (d : Dev) : Nat := d.tmb.ran / 2 ^ 32

/-- The number of the beat in progress (GL_BEAT). -/
def Dev.beat (d : Dev) : Nat := d.rd F.GL_BEAT_BEAT

/-- STEPS of TB_STATE. -/
def Dev.steps (d : Dev) : Nat := d.rd F.TB_STATE_STEPS

/-! ### Events (R289, R290) -/

/-- The world of a port: its PORT_WORLD bit, or Secure before a Pattern is applied (R51, R300). Log entry 108 (DEDUCED). -/
def Dev.portSecure (d : Dev) (p : Fin 2) : Bool := !d.pat.applied || d.pat.loaded.worlds.port.testBit p

def Dev.ringOn (d : Dev) (p : Fin 2) : Bool := d.on F.HST_EVR_CFG_ENABLE p

/-- Whether an event raised now goes to port p: one for a port whose ring is disabled is discarded (R289). -/
def Dev.addressed (d : Dev) (t : Dest) (p : Fin 2) : Bool :=
  match t with
  | .secure => d.portSecure p && d.ringOn p
  | .port q => decide (p = q) && d.ringOn p
  | .secureAnd q => (d.portSecure p || decide (q = some p)) && d.ringOn p
  | .nobody => false

/-- The codes of the LINE_LOSS rows of R364. -/
def lineLossCodes : List Nat :=
  [0x0B05, 0x0B06, 0x0901, 0x0A01, 0x0902, 0x0A02, 0x0904, 0x0A04, 0x0B51, 0x0705, 0x0704]

/-- The summary status that posting an event sets (R364, R366): the W1C bits LINE_LOSS, AXIS and INSPECTION. -/
def Dev.summary (d : Dev) (code : Nat) (payload : List Byte) : Dev :=
  if lineLossCodes.contains code then d.wr F.SYS_FAULT_STAT_LINE_LOSS 0 1
  else if code = 0x1101 ∨ code = 0x1204 ∨ (code = 0x1005 ∧ payload[1]? ≠ some 1) then d.wr F.SYS_FAULT_STAT_AXIS 0 1
  else if code = 0x0E03 ∨ code = 0x0E04 ∨ (code = 0x0401 ∧ payload[0]? = some 3) then
    d.wr F.SYS_FAULT_STAT_INSPECTION 0 1
  else d

/-- Post an event that names a beat. Log entry 25 (DEDUCED). -/
def Dev.raiseAt (d : Dev) (t : Dest) (code beat : Nat) (payload : List (Nat × Nat)) : Dev :=
  let bytes := pack payload
  let d := d.summary code bytes
  { d with raised := d.raised ++ [⟨code, d.addressed t 0, d.addressed t 1, beat, d.steps, bytes⟩] }

/-- Post an event that names no beat: it carries the beat in which it is posted. -/
def Dev.raise (d : Dev) (t : Dest) (code : Nat) (payload : List (Nat × Nat)) : Dev := d.raiseAt t code d.beat payload

/-- Count towards an event that is posted once per beat with a count, at the closing boundary: the first occurrence of the
beat gives the fields before the count. Log entry 26 (DEDUCED). -/
def Dev.tally (d : Dev) (t : Dest) (code key : Nat) (payload : List (Nat × Nat)) (n : Nat := 1) : Dev :=
  match d.tallies.findIdx? fun g => g.code = code && g.key = key with
  | some i => { d with tallies := d.tallies.modify i fun g =>
      { g with count := g.count + n, dests := if g.dests.contains t then g.dests else g.dests ++ [t] } }
  | none => { d with tallies := d.tallies ++ [⟨code, key, [t], pack payload, n⟩] }

/-- A tallied event is posted: to the hosts that its occurrences address as their rings now stand (R289). Log entry 26 (DEDUCED). -/
def Dev.postTally (d : Dev) (g : Tally) : Dev :=
  let goes := fun (p : Fin 2) => g.dests.any fun t => d.addressed t p
  { d.summary g.code g.first with raised := d.raised ++ [⟨g.code, goes 0, goes 1, d.beat, d.steps, g.first ++ leBytes 4 g.count⟩] }

/-- Post what the closing beat tallied. Log entry 26 (DEDUCED). -/
def Dev.flushTallies (d : Dev) : Dev := d.tallies.foldl (fun (d : Dev) g => d.postTally g) { d with tallies := [] }

/-- Post an event at most once per beat: the key tells occurrences of one beat apart. Log entry 26 (DEDUCED). -/
def Dev.raiseOnce (d : Dev) (t : Dest) (code key : Nat) (payload : List (Nat × Nat)) : Dev :=
  if d.onceKeys.contains (code, key) then d
  else { d.raise t code payload with onceKeys := (code, key) :: d.onceKeys }

/-- Insert an event after those of lower or equal code. -/
def insertEv (e : Ev) : List Ev → List Ev
  | [] => [e]
  | f :: r => if e.code < f.code then e :: f :: r else f :: insertEv e r

/-- Events posted in one cycle go by ascending code (R289): those after the first n. Log entry 194 (DEDUCED). -/
def Dev.orderEvents (d : Dev) (n : Nat) : Dev :=
  { d with raised := d.raised.take n ++ (d.raised.drop n).foldl (fun l e => insertEv e l) [] }

/-! ### Outputs and free values -/

/-- Send something out: it joins the trace (log entry 2). -/
def Dev.emit (d : Dev) (o : Out) : Dev := { d with out := d.out ++ [o] }

/-- The next unspecified value below n, and the state with the counter advanced (R5). Log entry 5 (DESIGN CHOICE). -/
def Dev.free (d : Dev) (n : Nat) : Nat × Dev := (Config.free d.freeCtr % n, { d with freeCtr := d.freeCtr + 1 })

/-- Entry i of a list of instances. -/
def at' {α : Type} [Inhabited α] (l : List α) (i : Nat) : α := l.getD i default

/-! ### DRAM -/

/-- Installed capacity in bytes (R44); before a Pattern is applied nothing is installed. Log entry 147 (DESIGN CHOICE). -/
def Dev.capacity (d : Dev) : Nat :=
  if d.pat.applied then 2 * d.pat.loaded.dram.ranks * [16, 24, 32].getD d.pat.loaded.dram.density 16 * 2 ^ 30 else 0

/-- The world of one DRAM byte: its region's, or Secure in no region (R43). -/
def Dev.byteSecure (d : Dev) (a : Nat) : Bool :=
  match d.pat.loaded.worlds.regions.find? fun r => decide (r.base * 2 ^ 21 ≤ a) && decide (a < (r.base + r.size) * 2 ^ 21) with
  | some r => r.secure
  | none => true

/-- Some byte of a range is Secure. -/
def Dev.rangeSecure (d : Dev) (a len : Nat) : Bool :=
  (List.range (len / 2 ^ 21 + 2)).any fun k => d.byteSecure (min (a + k * 2 ^ 21) (a + len - 1))

/-- What a check of a DRAM access under R31 says. -/
inductive Check where
  | pass | unmapped | world
deriving DecidableEq, Repr

/-- R31 on a DRAM access: check 1, then check 2. -/
def Dev.checkDram (d : Dev) (secure : Bool) (a len : Nat) : Check :=
  if d.capacity < a + len then .unmapped
  else if !secure && d.rangeSecure a len then .world
  else .pass

/-- MASTER_WORLD bit of a memory-front requester (R300). Log entry 58 (DEDUCED). -/
def Dev.masterSecure (d : Dev) (r : Nat) : Bool := d.pat.loaded.worlds.master.testBit r

/-- WORLD_VIOLATION (R32): of a DRAM access, the access's own address. Log entry 168 (DESIGN CHOICE). -/
def Dev.worldViolation (d : Dev) (a requester : Nat) : Dev := d.raise .secure 0x0310 [(5, a), (1, requester)]

/-- One byte of DRAM. Log entry 4 (DESIGN CHOICE). -/
def Dev.byte (d : Dev) (a : Nat) : Byte := mapGet d.mem a 0

def Dev.setByte (d : Dev) (a : Nat) (b : Byte) : Dev := { d with mem := mapSet d.mem a b 0 }

/-- len bytes of DRAM from address a. -/
def Dev.bytes (d : Dev) (a len : Nat) : List Byte := (List.range len).map fun k => d.byte (a + k)

/-- Store bytes from address a. -/
def storeBytes (m : List Host.Cell) (a : Nat) : List Byte → List Host.Cell
  | [] => m
  | b :: bs => storeBytes (mapSet m a b 0) (a + 1) bs

def Dev.setBytes (d : Dev) (a : Nat) (bs : List Byte) : Dev := { d with mem := storeBytes d.mem a bs }

/-- Little-endian value of len bytes of DRAM. -/
def Dev.load (d : Dev) (a len : Nat) : Nat := ofLeBytes (d.bytes a len)

/-- The channel of an address (R249). -/
def chanOf (a : Nat) : Nat := (a / 2 ^ 7 + a / 2 ^ 15 + a / 2 ^ 23 + a / 2 ^ 31) % 2

/-- Some code word of the granule at address a (128-byte aligned) is uncorrectable. -/
def Dev.granuleBad (d : Dev) (g : Nat) : Bool := d.ue.any fun c => decide (c / 8 = g / 128)

/-- The granules a range touches, lowest first. -/
def granules (a len : Nat) : List Nat :=
  if len = 0 then [] else (List.range ((a + len - 1) / 128 - a / 128 + 1)).map fun k => (a / 128 + k) * 128

/-! ### The granules of a channel (R249, R265, R276) -/

/-- Channel address of an internal address. -/
def chanAddr (a : Nat) : Nat := a / 256 * 128 + a % 128

def Dev.ranks (d : Dev) : Nat := d.pat.loaded.dram.ranks

/-- Where a channel address lies. -/
structure Place where
  rank : Nat
  bg : Nat
  bank : Nat
  row : Nat
  col : Nat

def Dev.place (d : Dev) (ca : Nat) : Place :=
  let row := if d.ranks = 2 then ca / 2 ^ 19 else ca / 2 ^ 18
  ⟨if d.ranks = 2 then ca / 2 ^ 18 % 2 else 0, Nat.xor (ca / 2 ^ 13 % 8) (row % 8), ca / 2 ^ 16 % 4, row, ca / 2 ^ 7 % 64⟩

/-- Index of a rank's registers. -/
def rankIdx (ch rank : Nat) : Nat := ch * 2 + rank

def Dev.arb (d : Dev) (ch : Nat) : Arb := at' d.drm.arbs ch

def Dev.setArb (d : Dev) (ch : Nat) (f : Arb → Arb) : Dev := { d with drm.arbs := d.drm.arbs.modify ch f }

/-- Count bytes moved for a requester during its own slot (R276). Log entry 101 (DEDUCED). -/
def Dev.movedBytes (d : Dev) (ch r n : Nat) : Dev :=
  d.setArb ch fun a => if a.slot = r then { a with moved := mapSet a.moved r (mapGet a.moved r 0 + n) 0 } else a

/-- An access to a bank (R265): its counter, and whether its row stays open: it does while a request to the bank waits. Log entry 99 (DEDUCED). -/
def Dev.touchBank (d : Dev) (ch ca : Nat) : Dev :=
  let p := d.place ca
  let key := rankIdx ch p.rank * 32 + p.bg * 4 + p.bank
  let b := mapGet d.drm.banks key {}
  let ctr := if b.last = some p.row then min 3 (b.ctr + 1) else b.ctr - 1
  let mode := d.rdO F.DM_PRED_CFG_MODE ch
  let stays := if mode = 1 then true else if mode = 2 then false else decide (2 ≤ ctr)
  let waits := (d.arb ch).waiting.any fun w => decide (w.rank = p.rank ∧ w.bank = p.bg * 4 + p.bank)
  { d with drm.banks := mapSet d.drm.banks key ⟨ctr, some p.row, stays || waits⟩ {} }

/-- One granule moves between DRAM and a requester. Log entry 101 (DEDUCED). -/
def Dev.moveGranule (d : Dev) (req g : Nat) : Dev := (d.movedBytes (chanOf g) req 128).touchBank (chanOf g) (chanAddr g)

/-- The maintenance engine of a channel moves a granule. -/
def Dev.sweepGranule (d : Dev) (ch g : Nat) : Dev := d.moveGranule (17 + ch) g

/-- Meeting an uncorrectable granule (R253): counted, recorded, and posted once per beat and channel to every Secure host and
to the requesting host. -/
def Dev.noteUe (d : Dev) (g req : Nat) (host : Option (Fin 2)) : Dev :=
  let ch := chanOf g
  let d := d.count F.DM_ECC_COUNT_UNCORR ch 1
  let d := ((d.wr F.DM_UE_ADDR_ADDR ch g).wr F.DM_UE_ADDR_REQ ch req).wr F.SYS_FAULT_STAT_DRAM_UE 0 1
  d.tally (.secureAnd host) (0x0501 + 0x100 * ch) 0 [(5, g), (1, req)]

/-- The result of a DRAM access by a memory-front requester. -/
inductive Mem (α : Type) where
  | ok (v : α)
  | unmapped
  | world
  /-- The first uncorrectable granule. -/
  | bad (g : Nat)

/-- A requester takes the data of a granule (R252, R253): what a DRAM_READ_COMPLETE of it has already counted is not counted again, and
the code words that came back miscorrected are told; without one, the read happens now. Log entry 178 (DEDUCED). -/
def Dev.takeGranule (d : Dev) (req : Nat) (host : Option (Fin 2)) (g : Nat) : List Nat × Dev :=
  match d.drm.fetched.find? fun f => decide (f.rq = req ∧ f.g = g) with
  | some f => (f.wrong, { d with drm.fetched := d.drm.fetched.erase f })
  | none =>
    let d := d.moveGranule req g
    ([], if d.granuleBad g then d.noteUe g req host else d)

/-- The stored bytes of a range, but any bytes in the code words listed (R252). Log entry 93 (DESIGN CHOICE). -/
def Dev.misread (d : Dev) (a len : Nat) : List Nat → List Byte × Dev
  | [] => (d.bytes a len, d)
  | w :: ws =>
    let (v, d) := d.free (2 ^ 128)
    let (bs, d) := d.misread a len ws
    (bs.zipIdx.map fun x => if (a + x.2) / 16 = w then BitVec.ofNat 8 (v / 256 ^ ((a + x.2) % 16)) else x.1, d)

/-- A DRAM read by a requester in a world: R31, then R253 on each granule it touches. Log entry 147 (DESIGN CHOICE). Log entry 178 (DEDUCED). -/
def Dev.dramRead (d : Dev) (req : Nat) (secure : Bool) (host : Option (Fin 2)) (a len : Nat) : Mem (List Byte) × Dev :=
  match d.checkDram secure a len with
  | .unmapped => (.unmapped, d)
  | .world => (.world, d.worldViolation a req)
  | .pass =>
    let (wrong, d) := (granules a len).foldl (fun (r : List Nat × Dev) g =>
      let (ws, d) := r.2.takeGranule req host g
      (r.1 ++ ws, d)) ([], d)
    match (granules a len).find? d.granuleBad with
    | some g => (.bad g, d)
    | none =>
      let (bs, d) := d.misread a len wrong
      (.ok bs, d)

/-- The readable bytes of a range, granule by granule, until one is refused or uncorrectable (R133, R298). -/
def Dev.readSource (d : Dev) (req : Nat) (secure : Bool) (port : Option (Fin 2)) (a len : Nat) : List Byte × Bool × Dev :=
  (granules a len).foldl (fun acc g =>
    let (bs, failed, d) := acc
    if failed then acc
    else
      let lo := max a g
      match d.dramRead req secure port lo (min (a + len) (g + 128) - lo) with
      | (.ok b, d) => (bs ++ b, false, d)
      | (_, d) => (bs, true, d)) ([], false, d)

/-- The uncorrectable code words of a granule that a write of [a, a + len) does not cover entirely. -/
def Dev.uncovered (d : Dev) (g a len : Nat) : List Nat :=
  d.ue.filter fun c => decide (c / 8 = g / 128) && !(decide (a ≤ c * 16) && decide (c * 16 + 16 ≤ a + len))

/-- Store any bytes in the code words that are rewritten after they came back miscorrected (R252). Log entry 93 (DESIGN CHOICE). Log entry 178 (DEDUCED). -/
def Dev.storeWrong (d : Dev) : List Nat → Dev
  | [] => d
  | w :: ws =>
    let (v, d) := d.free (2 ^ 128)
    (d.setBytes (16 * w) (leBytes 16 v)).storeWrong ws

/-- The bytes of one granule's part of a range are stored, and its code words are good again. -/
def Dev.putGranule (d : Dev) (a : Nat) (bs : List Byte) (g : Nat) : Dev :=
  let lo := max a g
  let hi := min (a + bs.length) (g + 128)
  { d.setBytes lo ((bs.drop (lo - a)).take (hi - lo)) with ue := d.ue.filter fun c => decide (c / 8 ≠ g / 128) }

/-- A write of one granule's part of a range (R254): whole, or by read-modify-write. The granule's read is decoded under R252 and moves 128
bytes as its write does; where the write leaves an uncorrectable code word uncovered nothing is written; a code word that came back
miscorrected is written back so, under the bytes that the write covers. Log entry 178 (DEDUCED). -/
def Dev.writeGranule (d : Dev) (req : Nat) (host : Option (Fin 2)) (a : Nat) (bs : List Byte) (g : Nat) : Bool × Dev :=
  if a ≤ g ∧ g + 128 ≤ a + bs.length then (true, (d.moveGranule req g).putGranule a bs g)
  else
    let (wrong, d) := d.takeGranule req host g
    if (d.uncovered g a bs.length).isEmpty then (true, ((d.moveGranule req g).storeWrong wrong).putGranule a bs g)
    else (false, d)

/-- A granted DRAM write by a requester in a world: R31, then R254 on each granule it touches. Log entry 147 (DESIGN CHOICE). -/
def Dev.dramStore (d : Dev) (req : Nat) (secure : Bool) (host : Option (Fin 2)) (a : Nat) (bs : List Byte) : Mem Unit × Dev :=
  match d.checkDram secure a bs.length with
  | .unmapped => (.unmapped, d)
  | .world => (.world, d.worldViolation a req)
  | .pass =>
    (granules a bs.length).foldl (fun r g =>
      let (ok, d) := r.2.writeGranule req host a bs g
      (if ok then r.1 else (match r.1 with | .bad x => .bad x | _ => .bad g), d)) (.ok (), d)

/-- A DRAM write; from a reset's latch on nothing new is granted (R62), and the reset discards what waits. Log entry 179 (DEDUCED). Log entry 147 (DESIGN CHOICE). -/
def Dev.dramWrite (d : Dev) (req : Nat) (secure : Bool) (host : Option (Fin 2)) (a : Nat) (bs : List Byte) : Mem Unit × Dev :=
  if d.sys.reset.isSome then (.ok (), d) else d.dramStore req secure host a bs

/-! ### Functions (R72 to R74) -/

def Func.idx : Func → Nat
  | .dec => 0
  | .enc => 1
  | .q n => 2 + n
  | .f0 => 6
  | .eth e => 7 + e
  | .cam c => c
  | .nzh => 0
  | .mot n => n
  | .srv a => a

/-- Block ID of a function (R73). Log entry 6 (DEDUCED). -/
def Func.block : Func → Nat
  | .dec | .enc => 7
  | .q _ | .f0 => 0xC
  | .eth _ => 0x14
  | .cam _ => 0xE
  | .nzh => 0xF
  | .mot _ => 0x10
  | .srv _ => 0x11

/-- The function index within its block (R73): instances are numbered from 0, and where a block has two kinds of function the
first kind comes first (log entry 6). -/
def Func.index : Func → Nat
  | .dec => 0
  | .enc => 1
  | .q n => n
  | .f0 => 4
  | .eth e => e
  | .cam c => c
  | .nzh => 0
  | .mot n => n
  | .srv a => a

def FuncState.code : FuncState → Nat
  | .off => 0 | .starting => 1 | .on => 2 | .stopping => 3 | .wedged => 4

/-- A function's entry; an unlisted one is OFF. -/
def Dev.func (d : Dev) (f : Func) : FuncSt := (d.sys.funcs.lookup f).getD {}

def Dev.funcOn (d : Dev) (f : Func) : Bool := decide ((d.func f).st = .on)

/-- Set a function's entry and its status field (R72, R74). -/
def Dev.setFunc (d : Dev) (f : Func) (s : FuncSt) : Dev :=
  let d := { d with sys.funcs := (f, s) :: d.sys.funcs.filter fun p => decide (p.1 ≠ f) }
  let c := s.st.code
  let pend := decide (s.st = .stopping ∧ s.kept = some true)
  let p := if pend then 1 else 0
  match f with
  | .dec => (d.wr F.SYS_FUNC_STAT_DEC 0 c).wrBit F.SYS_FUNC_STAT_PENDING 0 0 pend
  | .enc => (d.wr F.SYS_FUNC_STAT_ENC 0 c).wrBit F.SYS_FUNC_STAT_PENDING 1 0 pend
  | .q n => (d.wr ([F.SYS_FUNC_STAT_Q0, F.SYS_FUNC_STAT_Q1, F.SYS_FUNC_STAT_Q2, F.SYS_FUNC_STAT_Q3].getD n
      F.SYS_FUNC_STAT_Q0) 0 c).wrBit F.SYS_FUNC_STAT_PENDING (2 + n) 0 pend
  | .f0 => (d.wr F.SYS_FUNC_STAT_F0 0 c).wrBit F.SYS_FUNC_STAT_PENDING 6 0 pend
  | .eth e => (d.wr ([F.SYS_FUNC_STAT_E0, F.SYS_FUNC_STAT_E1].getD e F.SYS_FUNC_STAT_E0) 0 c).wrBit
      F.SYS_FUNC_STAT_PENDING (7 + e) 0 pend
  | .cam n => (d.wr F.INS_Cc_STAT_STATE n c).wr F.INS_Cc_STAT_ENABLE_PENDING n p
  | .nzh => d
  | .mot n => (d.wr F.MOT_n_STAT_STATE n c).wr F.MOT_n_STAT_ENABLE_PENDING n p
  | .srv a => (d.wr F.SV_a_STAT_STATE a c).wr F.SV_a_STAT_ENABLE_PENDING a p

/-- A function is WEDGED: its fabric outputs count as unconnected (R73). -/
def Dev.wedged (d : Dev) (f : Func) : Bool := decide ((d.func f).st = .wedged)

/-- A consumer port of the fabric is connected (R15); entries hold the producer, then the consumer. -/
def Dev.fed (d : Dev) (port : Nat) : Bool := d.pat.loaded.fabric.any fun e => decide (e.2 = port)

/-! ### Commands -/

/-- A command that acts on the device and leaves the queue alone. -/
def State.act (s : State) (f : Dev → Dev) : Host.Outcome State Fault Refusal := .next { s with dev := f s.dev }

/-- A command that can post several events: it takes one cycle, so they go by ascending code (R289). Log entry 194 (DEDUCED). -/
def State.actInOrder (s : State) (f : Dev → Dev) : Host.Outcome State Fault Refusal :=
  s.act fun d => (f d).orderEvents d.raised.length

end Sys2Proof.Machine
end

