-- ==== Sys2Proof/Machine/Operands.lean ====
section
/-!
DEFINITION. The forms of access: register reads and writes by a master under R29 to R32, and the BAR2 aperture (R26).
-/

namespace Sys2Proof.Machine

/-- Where the register space begins (R23). -/
def regSpace : Nat := 0x2000000000

/-- The port of a host master. -/
def portOf : Master → Option (Fin 2)
  | .p0 => some 0
  | .p1 => some 1
  | .internal => none

def hostOf (p : Fin 2) : Master := if p = 0 then .p0 else .p1

/-- The world of a master's register accesses (R300). -/
def Dev.secureMaster (d : Dev) (m : Master) : Bool :=
  match portOf m with
  | some p => d.portSecure p
  | none => true

def Dev.port (d : Dev) (p : Nat) : HostPort := at' d.hst.ports p

def Dev.setPort (d : Dev) (p : Nat) (f : HostPort → HostPort) : Dev := { d with hst.ports := d.hst.ports.modify p f }

/-- The bit of the Uncorrectable Error Status that reports an answer: Completer Abort 15, Unsupported Request 20, Uncorrectable Internal Error
22. Log entry 195 (PRESUMED). -/
def aerBit : Answer → Nat
  | .ca => 15
  | .ur => 20
  | _ => 22

/-- A dropped posted write is logged through Advanced Error Reporting (R31, R254, R282). Log entry 195 (PRESUMED). -/
def Dev.logAer (d : Dev) (p : Fin 2) (a : Answer) : Dev :=
  (d.emit (.aer p a)).setPort p fun h => { h with aerStatus := Nat.lor h.aerStatus (2 ^ aerBit a) }

/-- Logic reset is asserted (R62). -/
def Dev.inReset (d : Dev) : Bool := match d.sys.reset with | some r => decide (r.stage = 3) | none => false

/-- The port answers memory requests: logic reset is not asserted, and its link is not in D3hot (R62, R282). Log entry 104 (DEDUCED). -/
def Dev.hears (d : Dev) (m : Master) : Bool :=
  !d.inReset && (match portOf m with
    | some p => !(d.port p).d3hot
    | none => true)

/-- The outcome of R31 for a register access. -/
inductive RegCheck where
  | pass | unmapped | world | meaningless
deriving DecidableEq, Repr

/-- The effective world of an offset of the register space is Secure (R299). -/
def Dev.regSecure (d : Dev) (off : Nat) : Bool :=
  (decide (blockOf off ≠ 0) && d.pat.loaded.worlds.block.testBit (blockOf off)) ||
    (match findReg off regTable with
     | some h => h.row.reg.secure
     | none => false)

/-- R31 on one 32-bit word of the register space; before a Pattern is applied only the global, SYS and PAT windows have a
meaning (R51), and a loaded Pattern takes the meaning from none. Log entries 22 (DEDUCED), 167 (DESIGN CHOICE). -/
def Dev.regCheck (d : Dev) (m : Master) (off : Nat) : RegCheck :=
  if 0x14 < blockOf off then .unmapped
  else if !d.secureMaster m && d.regSecure off then .world
  else if !d.pat.applied && decide (2 < blockOf off) then .meaningless
  else .pass

/-- Log entry 169 (DESIGN CHOICE). -/
def Dev.latch (d : Dev) (m : Master) : BusLatch :=
  match m with | .p0 => d.bus.p0 | .p1 => d.bus.p1 | .internal => d.bus.internal

def Dev.setLatch (d : Dev) (m : Master) (l : BusLatch) : Dev :=
  match m with
  | .p0 => { d with bus.p0 := l }
  | .p1 => { d with bus.p1 := l }
  | .internal => { d with bus.internal := l }

/-- Any register access by a master discards its holding register (R30). -/
def Dev.touch (d : Dev) (m : Master) : Dev := d.setLatch m { d.latch m with held := none }

/-- The answer to a read, or to a write, that fails check 1 or 2 of R31, and the event of R32 for check 2. -/
def Dev.refuse (d : Dev) (m : Master) (write : Bool) (c : RegCheck) (off : Nat) : Dev :=
  let a : Answer := if c = .world then .ca else .ur
  let d := d.touch m
  let d := match portOf m with
    | some p => if write then d.logAer p a else d.emit (.completion m a [])
    | none => d.emit (.completion m .err [])
  if c = .world then
    d.worldViolation (regSpace + off) (0x40 + (match portOf m with | some p => p.val | none => 0))
  else d

/-- A write to one register that has a row of its own in the command table: R31, then its effect. -/
def Dev.writeTo (d : Dev) (m : Master) (r : Reg) (i : Nat) (f : Dev → Dev) : Dev :=
  if !d.hears m then d
  else match d.regCheck m (r.addr i) with
    | .pass => f (d.touch m)
    | .meaningless => d.touch m
    | c => d.refuse m true c (r.addr i)

/-- The same for a register that takes writes only from port p (R285). Log entry 108 (DEDUCED). -/
def Dev.writeOwn (d : Dev) (m : Master) (p : Nat) (r : Reg) (i : Nat) (f : Dev → Dev) : Dev :=
  d.writeTo m r i fun d => if (portOf m).map Fin.val = some p then f d else d

/-- A write of a register's fields by their types (R8), `mask` covering the words written. -/
def Dev.store (d : Dev) (r : Reg) (i val mask : Nat) : Dev :=
  match findReg (r.addr i) regTable with
  | some h => d.regWrite h.row h.idx val mask
  | none => d

/-- The mask of a whole 64-bit or 32-bit register, and of the words of a 64-bit register. -/
def mask64 : Nat := 0xFFFFFFFFFFFFFFFF
def mask32 : Nat := 0xFFFFFFFF
def maskHi : Nat := 0xFFFFFFFF00000000

/-- Bits [hi:lo] of a written value. -/
def bitsOf (v hi lo : Nat) : Nat := v / 2 ^ lo % 2 ^ (hi + 1 - lo)

/-- A word of HL_ACT: the frozen count, and the low 16 bits of the epoch in force (R293). Log entry 157 (DEDUCED). -/
def Dev.actWord (d : Dev) (nz : Nat) : Nat := d.rd F.HL_ACT_COUNT nz + d.rd F.GL_SNAP_STAT_EPOCH % 2 ^ 16 * 2 ^ 48

/-- A word of the staging area (chapter 3). -/
def Dev.stagingWord (d : Dev) (i : Nat) : Nat := ofLeBytes ((List.range 4).map fun k => mapGet d.pat.staging (4 * i + k) 0)

/-! ### Pages, the line window and urgency -/

/-- The page that a LINE# lies in, among the pages that a cue has taken. -/
def Dev.pageOf (d : Dev) (line : Int) : Option Page :=
  d.cdc.pages.find? fun p =>
    match p.start with
    | some s => decide (s ≤ line) && decide (line < s + p.lines)
    | none => false

/-- WINDOW_LINES (R138). -/
def Dev.windowLines (d : Dev) : Nat := d.pat.loaded.gauge.windowLines

/-- Some line of a segment took the slot of line m after it. -/
def WinSeg.covers (g : WinSeg) (w : Nat) (m : Int) : Bool :=
  let from' := max g.lo (m + 1)
  decide (from' + (m - from') % (w : Int) < g.hi)

/-- What the window records of a line in a strip (R139): none if absent, else whether it is no-ink. `before` asks about what had
been written before the opening boundary of the beat in progress. -/
def Dev.winHas (d : Dev) (s : Nat) (line : Int) (before : Bool) : Option Bool :=
  let segs := at' d.cdc.win s
  if segs.any fun g => g.covers d.windowLines line then none
  else match segs.find? fun g => decide (g.lo ≤ line) && decide (line < if before then g.old else g.hi) with
    | some g => some g.noInk
    | none => none

/-- Some present strip has not yet written a line that a row builds in the next beat (R267). -/
def Dev.writesUrgent (d : Dev) : Bool :=
  d.web.pred.any fun c =>
    match d.pageOf c.line with
    | some p => (List.range 16).any fun s => p.mask.testBit s && (d.winHas s c.line false).isNone
    | none => false

/-- A camera holds 3 or more received lines (R216, R267). -/
def Dev.camUrgent (d : Dev) : Bool := d.ins.cams.any fun k => decide (3 ≤ k.waiting.length)

/-- The requesters that are urgent (R267): 0, 1, 6 and 8 always, 2, 3 and 5 while their conditions hold. -/
def Dev.urgency (d : Dev) : Nat :=
  0x143 + (if d.writesUrgent then 4 else 0) + (if d.writesUrgent && d.drm.stream then 8 else 0) + (if d.camUrgent then 0x20 else 0)

/-- What a read of a register returns: its content, but for the registers that show a running value (R75). Log entry 157 (DEDUCED). -/
def Dev.readReg (d : Dev) (m : Master) (h : Hit) : Nat :=
  if h.row.reg.base = R.TB_NOW.base then d.now
  else if h.row.reg.base = R.PAT_STAGING.base then d.stagingWord h.idx
  else if h.row.reg.base = R.TB_NOW_FRAC.base then (d.latch m).frac
  else if h.row.reg.base = R.HL_ACT.base then d.actWord h.idx
  else if h.row.reg.base = R.MF_URGENT.base then d.urgency
  else d.reg h.row.reg h.idx

/-- A read of TB_NOW latches the fraction, in 2^-16 ns, for the reading master (R75). Log entry 157 (DEDUCED). -/
def Dev.latchFrac (d : Dev) (m : Master) (h : Hit) : Dev :=
  if h.row.reg.base = R.TB_NOW.base then d.setLatch m { d.latch m with frac := d.tmb.acc / 2 ^ 16 % 2 ^ 16 } else d

/-- The signed value of a corrected code (R355). -/
def currentOf (c : Int) : Int := clampInt (-32768) 32767 ((c - 30000) * 32767 / 30000)

/-- A current in 1/32,767 of the unit of the maintenance axes, 1/255 of full scale: |V| * 255 (R355). -/
def drawOf (v : Int) : Nat := v.natAbs * 255

/-- A current of that unit, as far as 32,767ths of it go. -/
def unitOf (n : Nat) : Nat := n * 32767

/-- The channel measured at a place of the trim's order: X0, X1, then 0 to 23. -/
def trimChannel (place : Nat) : Nat := if place < 2 then 24 + place else place - 2

/-- GAIN and OFF of the converter that serves a channel: its own, those of the spare that replaces it or stands in during a check (R360, R361), or
X0's new ones while the trim measures it (R359). Log entry 132 (DESIGN CHOICE). -/
def Dev.figuresOf (d : Dev) (k : Nat) : Nat × Int :=
  let own := fun (c : Nat) => (d.rd F.TRM_TRIM_GAIN c, d.rdS F.TRM_TRIM_OFF c)
  let measured := match d.trm.trim with
    | some t => if !t.waiting ∧ t.prog.isNone ∧ trimChannel t.place = k ∧ k < 24 then t.recs.lookup 24 else none
    | none => none
  match measured with
  | some r => (r.gain, r.off)
  | none =>
    if d.trm.check = some (k, 0) ∨ d.rd F.TRM_MAP_X0_FOR = k then own 24
    else if d.trm.check = some (k, 1) ∨ d.rd F.TRM_MAP_X1_FOR = k then own 25
    else own k

/-- The latest corrected conversion of an analog channel (R354, R355): its input makes the raw code any code, and a result that no 16 bits hold is
not stated; a channel that has failed with no spare reads 0x8000 (R361). Log entries 132 (DESIGN CHOICE), 157 (DEDUCED). -/
def Dev.convert (d : Dev) (h : Hit) : Dev :=
  if h.row.reg.base = R.TRM_CH.base && !h.high then
    let (c, d) : Nat × Dev :=
      if d.trm.failed.contains h.idx then (0x8000, d)
      else
        let (raw, d) := d.free 65536
        let (gain, off) := d.figuresOf h.idx
        let c := ((raw : Int) - off) * gain / 2 ^ 15
        if 0 ≤ c ∧ c < 65536 then (c.toNat, d) else d.free 65536
    (d.wr F.TRM_CH_C h.idx c).wrS F.TRM_CH_V h.idx (currentOf c)
  else d

/-- One 32-bit read at an offset that has passed R31: the word, and what the read leaves in the latches (R30). -/
def Dev.read32 (d : Dev) (m : Master) (off : Nat) : Nat × Dev :=
  match findReg off regTable with
  | none => (0, d.touch m)
  | some h =>
    let d := d.convert h
    let v := d.readReg m h
    if h.row.reg.width = 64 then
      if h.high then
        (match (d.latch m).held with
          | some (a, hi) => if a + 4 = off then hi else v / 2 ^ 32
          | none => v / 2 ^ 32, d.touch m)
      else (v % 2 ^ 32, (d.latchFrac m h).setLatch m { (d.latchFrac m h).latch m with held := some (off, v / 2 ^ 32) })
    else (v % 2 ^ 32, d.touch m)

/-- One 64-bit read at the address of a 64-bit register is atomic (R30); elsewhere it is two 32-bit reads (R29). Log entry 24 (DEDUCED). -/
def Dev.read64 (d : Dev) (m : Master) (off : Nat) : Nat × Dev :=
  match findReg off regTable with
  | some h =>
    if h.row.reg.width = 64 && !h.high then
      let d := d.convert h
      (d.readReg m h, (d.touch m).latchFrac m h)
    else
      let (lo, d) := d.read32 m off
      let (hi, d) := d.read32 m (off + 4)
      (lo + hi * 2 ^ 32, d)
  | none =>
    let (lo, d) := d.read32 m off
    let (hi, d) := d.read32 m (off + 4)
    (lo + hi * 2 ^ 32, d)

/-- The word at an offset under check 3 of R31: nothing without meaning is read. -/
def Dev.readWord (d : Dev) (m : Master) (off bytes : Nat) : Nat × Dev :=
  if d.regCheck m off = .meaningless then (0, d.touch m)
  else if bytes = 8 then d.read64 m off else d.read32 m off

/-- The checks 1 and 2 of R31 for an access of 4 or 8 bytes, the lowest-numbered failing check deciding (R29), and the word at
which it fails. Log entry 168 (DESIGN CHOICE). -/
def Dev.spanCheck (d : Dev) (m : Master) (addr bytes : Nat) : RegCheck × Nat :=
  let off := addr - regSpace
  if addr < regSpace ∨ regSpace + 0x20000000 < addr + bytes ∨ ¬ (bytes = 4 ∨ bytes = 8) ∨ addr % bytes ≠ 0 then
    (.unmapped, off)
  else
    let c := d.regCheck m off
    let c2 := if bytes = 8 then d.regCheck m (off + 4) else c
    if c = .unmapped ∨ c2 = .unmapped then (.unmapped, off)
    else if c = .world then (.world, off)
    else if c2 = .world then (.world, off + 4)
    else (c, off)

/-- A register read by a master (R29 to R31): its completion. Log entry 22 (DEDUCED). -/
def Dev.regRead (d : Dev) (m : Master) (addr bytes : Nat) : Dev :=
  if !d.hears m then d
  else match d.spanCheck m addr bytes with
    | (.unmapped, off) => d.refuse m false .unmapped off
    | (.world, off) => d.refuse m false .world off
    | (_, off) =>
      let (v, d) := d.readWord m off bytes
      d.emit (.completion m .ok (leBytes bytes v))

/-- n unspecified bytes. -/
def Dev.freeBytes (d : Dev) : Nat → List Byte × Dev
  | 0 => ([], d)
  | n + 1 =>
    let (v, d) := d.free 256
    let (bs, d) := d.freeBytes n
    (BitVec.ofNat 8 v :: bs, d)

/-- The internal address that a BAR2 offset of a port reaches (R26). -/
def Dev.bar2Addr (d : Dev) (p : Fin 2) (off : Nat) : Nat := d.rd F.HST_APBASE_BASE p * 2 ^ 21 + off

/-- BAR2 is a 4 GiB memory BAR (R26): an access that leaves it reaches no address of the device. Log entry 170 (DEDUCED). -/
def inBar2 (off len : Nat) : Bool := decide (off + len ≤ 2 ^ 32)

/-! ### What the memory front holds -/

def Dev.speedChanging (d : Dev) : Bool := d.drm.speed.isSome

/-- Cast-on has completed a step. Log entry 141 (DEDUCED). -/
def Dev.stepPassed (d : Dev) (step : Nat) : Bool := d.sys.done || decide (step < d.rd F.SYS_CASTON_STAT_STEP)

/-- The memory front grants nothing new: before step 8 has enabled it (R63), from a reset's latch on (R62), and during a speed change
(R266). -/
def Dev.frontHeld (d : Dev) : Bool := d.sys.reset.isSome || (!d.stepPassed 8 || d.speedChanging)

/-- The memory front holds a request. Log entry 179 (DEDUCED). -/
def Dev.hold (d : Dev) (r : Held) : Dev := { d with drm.held := d.drm.held ++ [r] }

/-- A PCIe read through BAR2 is served at its internal address (R26, R31, R253): requester 10 + p, in the port's world. -/
def Dev.serveRead (d : Dev) (p : Fin 2) (addr len : Nat) : Dev :=
  let m := hostOf p
  match d.dramRead (10 + p) (d.portSecure p) (some p) addr len with
    | (.ok bs, d) => d.emit (.completion m .ok bs)
    | (.unmapped, d) => d.emit (.completion m .ur [])
    | (.world, d) => d.emit (.completion m .ca [])
    | (.bad _, d) =>
      let (bs, d) := d.freeBytes len
      d.emit (.completion m .poisoned bs)

/-- A posted PCIe write through BAR2 is served at its internal address (R26, R31, R254). -/
def Dev.serveWrite (d : Dev) (p : Fin 2) (addr : Nat) (data : List Byte) : Dev :=
  match d.dramWrite (10 + p) (d.portSecure p) (some p) addr data with
    | (.ok _, d) => d
    | (.unmapped, d) => d.logAer p .ur
    | (.world, d) => d.logAer p .ca
    | (.bad _, d) => d.logAer p .poisoned

/-- A PCIe read through BAR2 (R26), at the aperture base that it finds (R27); before a Pattern is applied nothing is installed to wait for. Log entries 170 (DEDUCED), 179 (DEDUCED). -/
def Dev.bar2Read (d : Dev) (p : Fin 2) (off len : Nat) : Dev :=
  if !d.hears (hostOf p) then d
  else if !inBar2 off len then d.emit (.completion (hostOf p) .ur [])
  else if d.pat.applied && d.frontHeld then d.hold (.read p (d.bar2Addr p off) len)
  else d.serveRead p (d.bar2Addr p off) len

/-- A posted PCIe write through BAR2 (R26, R27). Log entries 170 (DEDUCED), 179 (DEDUCED). -/
def Dev.bar2Write (d : Dev) (p : Fin 2) (off : Nat) (data : List Byte) : Dev :=
  if !d.hears (hostOf p) then d
  else if !inBar2 off data.length then d.logAer p .ur
  else if d.pat.applied && d.frontHeld then d.hold (.write p (d.bar2Addr p off) data)
  else d.serveWrite p (d.bar2Addr p off) data

end Sys2Proof.Machine
end

