-- ==== Sys2Proof/Machine/Vault.lean ====
section
/-!
DEFINITION. Chapter 17 but for head authentication: retention RAM and its groups (R307 to R309), fuses (R302 to R305), attestation
(R306) and the tamper latch (R310).
-/

namespace Sys2Proof.Machine

/-! ### Retention RAM -/

def Dev.ramBytes (d : Dev) (off len : Nat) : List Byte := (List.range len).map fun k => mapGet d.vlt.ram (off + k) 0

def Dev.setRam (d : Dev) (off : Nat) (bs : List Byte) : Dev := { d with vlt.ram := storeBytes d.vlt.ram off bs }

/-- Offset and content size of a group: 0 LOG, 1 DRAM, 2 TIME, 3 USAGE (R308). -/
def groupSpan (g : Nat) : Nat × Nat := [(0x00, 0x18), (0x1C, 0x38), (0x58, 0xC)].getD g (0x68, 0x80)

def Dev.groupBytes (d : Dev) (g : Nat) : List Byte := d.ramBytes (groupSpan g).1 (groupSpan g).2

def Dev.groupOk (d : Dev) (g : Nat) : Bool :=
  decide (ofLeBytes (d.ramBytes ((groupSpan g).1 + (groupSpan g).2) 4) = crc32 (d.groupBytes g))

/-- Write a whole group together with its CRC (R309); from the assertion of logic reset on the vault is isolated (R62). -/
def Dev.putGroup (d : Dev) (g : Nat) (bs : List Byte) : Dev :=
  if d.inReset then d else d.setRam (groupSpan g).1 (bs ++ leBytes 4 (crc32 bs))

/-- The empty state of a group: all zero, every mark absent, every spare UNUSED (R308). -/
def emptyGroup (g : Nat) : List Byte :=
  if g = 1 then pack (List.replicate 4 (2, 0x00FF)) ++ List.replicate 48 0 else List.replicate (groupSpan g).2 0

/-- A group's content, the empty state if its CRC fails. -/
def Dev.groupOr (d : Dev) (g : Nat) : List Byte := if d.groupOk g then d.groupBytes g else emptyGroup g

/-- Bits of group content. -/
def sliceNat (bs : List Byte) (off len : Nat) : Nat := ofLeBytes ((bs.drop off).take len)

/-- The cast-on log (R308). -/
structure VLog where
  count : Nat := 0
  attempts : Nat := 0
  dir : Nat := 0
  lastStep : Nat := 0
  code : Nat := 0

def Dev.log (d : Dev) : VLog :=
  let b := d.groupOr 0
  ⟨sliceNat b 0 4, sliceNat b 4 8, sliceNat b 0xC 8, sliceNat b 0x14 1, sliceNat b 0x15 1⟩

/-- Write the LOG group and the registers that show it. -/
def Dev.setLog (d : Dev) (l : VLog) : Dev :=
  let d := d.putGroup 0 (pack [(4, l.count), (8, l.attempts), (8, l.dir), (1, l.lastStep), (1, l.code), (2, 0)])
  let d := (d.wr F.SYS_CLOG_COUNT_COUNT 0 l.count).wr F.SYS_CLOG_ATTEMPTS_ATTEMPTS 0 l.attempts
  let d := (d.setReg R.SYS_CLOG_DIR 0 l.dir).wr F.SYS_CASTON_STAT_CODE 0 l.code
  (d.wr F.SYS_CASTON_STAT_LAST_STEP 0 l.lastStep).wrB F.SYS_CASTON_STAT_DEGRADED 0 (decide (l.dir ≠ 0))

/-- The TIME group: device time and STEPS (R309). Log entry 47 (DEDUCED). -/
def Dev.saveTime (d : Dev) : Dev := d.putGroup 2 (pack [(8, d.now), (1, d.steps), (3, 0)])

/-- The USAGE group: each link's pending count in units of 65,536, and a byte of its head's serial number (R317). Log entry 47 (DEDUCED). -/
def Dev.saveUsage (d : Dev) : Dev :=
  d.putGroup 3 (pack ((List.range 32).map fun l =>
    (4, d.rd F.VLT_HEAD_PENDING_PENDING l / 65536 * 256 + at' (at' d.hl l).ids 1 % 256)))

/-- Cast-on step 2: find the groups whose CRC fails, empty them, and read the log (R308, R65); then this cast-on counts.
Log entries 39 (DEDUCED), 176 (DESIGN CHOICE). -/
def Dev.readVault (d : Dev) : Dev :=
  let bad := (List.range 4).filter fun g => !d.groupOk g
  let mask := bad.foldl (fun m g => m + 2 ^ g) 0
  let d := bad.foldl (fun d g => d.putGroup g (emptyGroup g)) d
  let d := (d.wr F.VLT_STAT_LOST 0 mask).wrB F.VLT_STAT_VBAT_LOST 0 (decide (mask ≠ 0))
  let d := d.wr F.VLT_LAST_TIME_TIME 0 (sliceNat (d.groupBytes 2) 0 8)
  let u := d.groupBytes 3
  let d := { d with
    vlt.lost := mask
    vlt.restored := (List.range 32).filterMap fun l =>
      if sliceNat u (4 * l) 4 = 0 then none else some (l, sliceNat u (4 * l) 4) }
  d.setLog { d.log with count := min (d.log.count + 1) 0xFFFFFFFF }

/-! ### Fuses -/

/-- The majority of three copies, bit by bit (R302). -/
def vote (a b c : Nat) : Nat := Nat.lor (Nat.lor (Nat.land a b) (Nat.land a c)) (Nat.land b c)

def Fuse.value (f : Fuse) : Nat := vote f.c0 f.c1 f.c2
def Fuse.crc (f : Fuse) : Nat := vote f.k0 f.k1 f.k2

def Fuse.blank (f : Fuse) : Bool :=
  decide (f.c0 = 0 ∧ f.c1 = 0 ∧ f.c2 = 0 ∧ f.k0 = 0 ∧ f.k1 = 0 ∧ f.k2 = 0)

/-- CRC of a group of n bytes passes; a blank group never fails it (R302). -/
def Fuse.ok (f : Fuse) (n : Nat) : Bool := f.blank || decide (f.crc = crc32 (leBytes n f.value))

/-- A group of n bytes programmed with a value: all three copies and the CRC (R304). -/
def Fuse.of (n v : Nat) : Fuse :=
  let k := crc32 (leBytes n v)
  ⟨v, v, v, k, k, k⟩

def popcount (bits n : Nat) : Nat := (List.range bits).foldl (fun c i => c + n / 2 ^ i % 2) 0

/-- Bits whose three copies disagree. -/
def Fuse.disagree (f : Fuse) (bits : Nat) : Nat :=
  let diff := fun a b c => Nat.lor (Nat.xor a b) (Nat.xor a c)
  popcount bits (diff f.c0 f.c1 f.c2) + popcount 32 (diff f.k0 f.k1 f.k2)

def Fuses.disagree (f : Fuses) : Nat :=
  f.serial.disagree 64 + f.mac.disagree 96 + f.rootHash.disagree 256 + f.headRoot.disagree 128 + f.deviceKey.disagree 256 +
    f.cert.disagree 8192 + f.repair.disagree 4096 + f.slots.foldl (fun n s => n + s.disagree 16) 0

/-- No group whose failed CRC is FUSE_BAD fails it (R302). -/
def Fuses.good (f : Fuses) : Bool :=
  f.serial.ok 8 && (f.mac.ok 12 && (f.rootHash.ok 32 && (f.headRoot.ok 16 && (f.deviceKey.ok 32 && f.cert.ok 1024))))

/-- The anti-rollback count: the largest VALUE among the slots whose CRC passes (R305). -/
def Fuses.count (f : Fuses) : Nat :=
  f.slots.foldl (fun m s => if !s.blank && s.ok 2 then max m s.value else m) 0

/-- Slots that are not blank. -/
def Fuses.usedSlots (f : Fuses) : Nat := (f.slots.filter fun s => !s.blank).length

/-- Bytes of a DER certificate, by its header (X.690; log entry 10). -/
def certLen (v : Nat) : Nat :=
  let b := fun i => v / 2 ^ (8 * i) % 256
  if b 0 ≠ 0x30 then 0
  else if b 1 < 128 then b 1 + 2
  else if b 1 = 0x81 then b 2 + 3
  else if b 1 = 0x82 then b 2 * 256 + b 3 + 4
  else 0

/-- The fuse fields are loaded before any host can access the device (R33, R302). -/
def Dev.loadFuses (d : Dev) : Dev :=
  let f := d.vlt.fuses
  let d := { d with vlt.used := f }
  let d := (d.wr F.GL_SERIAL_SERIAL 0 f.serial.value).wr F.ETH_MAC_MAC 0 (f.mac.value % 2 ^ 48)
  let d := (d.wr F.ETH_MAC_MAC 1 (f.mac.value / 2 ^ 48)).wrB F.VLT_STAT_SEALED 0 !f.rootHash.blank
  let d := d.wr F.VLT_STAT_DISAGREE 0 (min f.disagree 65535)
  let d := (d.wr F.VLT_ROLLBACK_COUNT 0 f.count).wr F.VLT_ROLLBACK_USED 0 f.usedSlots
  let d := (List.range 8).foldl (fun d i => d.setReg R.VLT_ROOT_HASH i (f.rootHash.value / 2 ^ (32 * i) % 2 ^ 32)) d
  let d := d.wr F.VLT_CERT_LEN_LEN 0 (certLen f.cert.value)
  let d := (List.range 256).foldl (fun d i => d.setReg R.VLT_CERT i (f.cert.value / 2 ^ (32 * i) % 2 ^ 32)) d
  (d.wrB F.VLT_STAT_TAMPER 0 (decide (d.vlt.tamper ≠ 0))).wr F.VLT_TAMPER_SOURCE 0 d.vlt.tamper

/-- ROOT_HASH is blank: the device is unsealed (R303). -/
def Dev.unsealed (d : Dev) : Bool := d.vlt.used.rootHash.blank

/-- A programming runs. -/
def Dev.programming (d : Dev) : Bool := d.vlt.prog.isSome || d.vlt.advance.isSome

/-- A write of VLT_ROOT_HASH stages the value while the group is blank (R304). Log entry 37 (DEDUCED). -/
def Dev.wVltRootHash (d : Dev) (i val mask : Nat) : Dev :=
  if d.vlt.fuses.rootHash.blank then d.store R.VLT_ROOT_HASH i val mask else d

/-- A write of VLT_HEAD_ROOT stages key bytes; it reads 0 (R304). -/
def Dev.wVltHeadRoot (d : Dev) (i val mask : Nat) : Dev :=
  if mask % 2 ^ 32 = 0 then d else { d with vlt.headStage := d.vlt.headStage.set i (val % 2 ^ 32) }

/-- The staged value of a fuse group that a host may program. -/
def Dev.staged (d : Dev) (group : Nat) : Nat :=
  if group = 1 then (List.range 8).foldl (fun v i => v + d.reg R.VLT_ROOT_HASH i * 2 ^ (32 * i)) 0
  else (List.range 4).foldl (fun v i => v + at' d.vlt.headStage i * 2 ^ (32 * i)) 0

def Fuses.group (f : Fuses) (group : Nat) : Fuse := if group = 1 then f.rootHash else f.headRoot

def Fuses.setGroup (f : Fuses) (group : Nat) (x : Fuse) : Fuses :=
  if group = 1 then { f with rootHash := x } else { f with headRoot := x }

def fuseBytes (group : Nat) : Nat := if group = 1 then 32 else 16

/-- A write of VLT_PROG_CTRL (R304). Log entry 37 (DEDUCED). -/
def Dev.wVltProg (d : Dev) (val mask : Nat) : Dev :=
  if bitsOf val 31 16 ≠ 0x4655 then d
  else
    let d := d.store R.VLT_PROG_CTRL 0 val mask
    let g := d.rd F.VLT_PROG_CTRL_GROUP
    if !val.testBit 2 || !(decide (g = 1) || decide (g = 2)) then d
    else if !(d.vlt.fuses.group g).blank then d.wr F.VLT_PROG_CTRL_RESULT 0 1
    else if d.programming then d.wr F.VLT_PROG_CTRL_RESULT 0 2
    else { d with vlt.prog := some (g, d.staged g) }.wrB F.VLT_PROG_CTRL_BUSY 0 true

/-- Programming of all copies and the CRC completes (R304). -/
def Dev.fuseProgDone (d : Dev) : Dev :=
  match d.vlt.prog with
  | none => d
  | some (g, v) =>
    let d := { d with vlt.prog := none, vlt.fuses := d.vlt.fuses.setGroup g (Fuse.of (fuseBytes g) v) }
    (d.wrB F.VLT_PROG_CTRL_BUSY 0 false).wr F.VLT_PROG_CTRL_RESULT 0 0

/-- The lowest blank slot. -/
def Fuses.blankSlot (f : Fuses) : Option Nat := f.slots.findIdx? Fuse.blank

/-- A write of VLT_ROLLBACK_CTRL (R305). Log entry 37 (DEDUCED). -/
def Dev.wVltRollback (d : Dev) (val : Nat) : Dev :=
  if bitsOf val 31 16 ≠ 0x5242 ∨ !val.testBit 0 then d
  else
    let v := d.rd F.PAT_GEN_ROLLBACK
    if v ≤ d.vlt.fuses.count then d.wr F.VLT_ROLLBACK_RESULT 0 1
    else match d.vlt.fuses.blankSlot with
      | none => d.wr F.VLT_ROLLBACK_RESULT 0 2
      | some s =>
        if d.programming then d.wr F.VLT_ROLLBACK_RESULT 0 3
        else { d with vlt.advance := some (s, v) }.wrB F.VLT_ROLLBACK_BUSY 0 true

/-- Slot programming completes: ROLLBACK_ADVANCED (R305). -/
def Dev.rollbackProgDone (d : Dev) : Dev :=
  match d.vlt.advance with
  | none => d
  | some (s, v) =>
    let d := { d with vlt.advance := none, vlt.fuses.slots := d.vlt.fuses.slots.set s (Fuse.of 2 v) }
    let d := (d.wrB F.VLT_ROLLBACK_BUSY 0 false).wr F.VLT_ROLLBACK_RESULT 0 0
    let d := (d.wr F.VLT_ROLLBACK_COUNT 0 d.vlt.fuses.count).wr F.VLT_ROLLBACK_USED 0 d.vlt.fuses.usedSlots
    d.raise .secure 0x0305 [(4, d.vlt.fuses.count), (1, d.vlt.fuses.usedSlots)]

/-- An unspecified group of n bytes that fails its CRC and is not blank. Log entry 38 (DEDUCED). -/
def Dev.cutFuse (d : Dev) (n : Nat) : Fuse × Dev :=
  let (v, d) := d.free (2 ^ (8 * n))
  let (k, d) := d.free (2 ^ 32 - 2)
  let good := crc32 (leBytes n v)
  let lo := min good (if good = 0 then 2 ^ 32 - 1 else good)
  let k := k + 1
  let k := if lo ≠ 0 ∧ lo ≤ k then k + 1 else k
  (⟨v, v, v, k, k, k⟩, d)

/-- A reset or power loss during programming leaves a group, or a slot, that fails its CRC (R304, R305). Log entry 38 (DEDUCED). -/
def Dev.cutProgramming (d : Dev) : Dev :=
  let d := match d.vlt.prog with
    | none => d
    | some (g, _) =>
      let (f, d) := d.cutFuse (fuseBytes g)
      { d with vlt.prog := none, vlt.fuses := d.vlt.fuses.setGroup g f }
  match d.vlt.advance with
  | none => d
  | some (s, _) =>
    let (f, d) := d.cutFuse 2
    { d with vlt.advance := none, vlt.fuses.slots := d.vlt.fuses.slots.set s f }

/-! ### Attestation -/

/-- The 64-byte message of R306. -/
def Dev.attestMessage (d : Dev) : List Byte :=
  pack [(4, 0x5454414B)] ++ (List.range 4).flatMap (fun i => leBytes 8 (d.reg R.VLT_ATTEST_NONCE i)) ++
    pack [(8, d.rd F.GL_SERIAL_SERIAL), (8, d.rd F.PAT_ID_PATTERN_ID), (2, d.rd F.PAT_GEN_ROLLBACK),
      (2, d.rd F.VLT_ROLLBACK_COUNT), (4, d.rd F.SYS_CLOG_COUNT_COUNT),
      (4, (if d.unsealed then 1 else 0) + (if d.vlt.tamper ≠ 0 then 2 else 0))]

/-- A write of GO to VLT_ATTEST_CTRL (R306). Log entry 39 (DEDUCED). -/
def Dev.wVltAttest (d : Dev) (m : Master) (val : Nat) : Dev :=
  if !val.testBit 0 || d.on F.VLT_ATTEST_CTRL_BUSY then d
  else { d with vlt.attest := some (portOf m), vlt.attestMsg := d.attestMessage }.wrB F.VLT_ATTEST_CTRL_BUSY 0 true

/-- Where an event for whoever wrote a GO is addressed. -/
def toWriter (p : Option (Fin 2)) : Dest := match p with | some p => .port p | none => .nobody

/-- The signature is placed and ATTEST_DONE posted (R306). -/
def Dev.attestDone (d : Dev) : Dev :=
  match d.vlt.attest with
  | none => d
  | some who =>
    let (k, d) := d.free (p256N - 1)
    let (r, s) := ecdsaSign d.vlt.used.deviceKey.value (ofBeBytes (sha256 d.vlt.attestMsg)) (k + 1)
    let sig := beBytes 32 r ++ beBytes 32 s
    let d := (List.range 8).foldl (fun d i => d.setReg R.VLT_ATTEST_SIG i (sliceNat sig (8 * i) 8)) d
    let d := { d with vlt.attest := none, vlt.attestMsg := [] }.wrB F.VLT_ATTEST_CTRL_BUSY 0 false
    d.raise (toWriter who) 0x0306 []

/-! ### The tamper latch -/

def tamperCode : TamperCause → Nat
  | .temperature => 1
  | .vbat => 2

/-- Set the latch by a cause, 3 for FORCE, and zero the retention RAM (R310). Log entry 39 (DEDUCED). -/
def Dev.setTamper (d : Dev) (cause : Nat) : Dev :=
  if d.vlt.tamper ≠ 0 then d
  else { d with vlt.tamper := cause, vlt.ram := [] }.wrB F.VLT_STAT_TAMPER 0 true |>.wr F.VLT_TAMPER_SOURCE 0 cause

/-- A write of VLT_TAMPER, with a cause that falls in the same cycle (R310). -/
def Dev.wVltTamper (d : Dev) (val : Nat) (cause : Option TamperCause := none) : Dev :=
  match cause with
  | some c => d.setTamper (tamperCode c)
  | none =>
    if val.testBit 8 then d.setTamper 3
    else if val.testBit 9 then
      { d with vlt.tamper := 0 }.wrB F.VLT_STAT_TAMPER 0 false |>.wr F.VLT_TAMPER_SOURCE 0 0
    else d

/-- Power to the vault fails while VIO18 is off: its contents are unspecified (R307). Log entry 36 (DEDUCED). -/
def Dev.vbatLoss (d : Dev) : Dev :=
  match d.sys.reset with
  | some { kind := .power, cause := 1, .. } =>
    let (bs, d) := d.freeBytes 256
    let (t, d) := d.free 4
    { d with vlt.ram := storeBytes [] 0 bs, vlt.tamper := t }
  | _ => d

/-! ### The commands -/

def execFuseProg (m : Master) (val : Nat) (s : State) : Host.Outcome State Fault Refusal :=
  s.act fun d => d.writeTo m R.VLT_PROG_CTRL 0 fun d => d.wVltProg val mask32

def execFuseProgDone (s : State) : Host.Outcome State Fault Refusal := s.act Dev.fuseProgDone

def execRollbackAdvance (m : Master) (val : Nat) (s : State) : Host.Outcome State Fault Refusal :=
  s.act fun d => d.writeTo m R.VLT_ROLLBACK_CTRL 0 fun d => d.wVltRollback val

def execRollbackProgDone (s : State) : Host.Outcome State Fault Refusal := s.act Dev.rollbackProgDone

def execAttestGo (m : Master) (s : State) : Host.Outcome State Fault Refusal :=
  s.act fun d => d.writeTo m R.VLT_ATTEST_CTRL 0 fun d => d.wVltAttest m 1

def execAttestDone (s : State) : Host.Outcome State Fault Refusal := s.act Dev.attestDone

def execTamperDetect (c : TamperCause) (s : State) : Host.Outcome State Fault Refusal := s.act fun d => d.setTamper (tamperCode c)

def execTamperForce (m : Master) (val : Nat) (s : State) : Host.Outcome State Fault Refusal :=
  s.act fun d => d.writeTo m R.VLT_TAMPER 0 fun d => d.wVltTamper val

/-- The cause acts whether or not the write reaches the register. -/
def execTamperClear (m : Master) (val : Nat) (cause : Option TamperCause) (s : State) : Host.Outcome State Fault Refusal :=
  s.act fun d =>
    let d := d.writeTo m R.VLT_TAMPER 0 fun d => d.wVltTamper val cause
    match cause with
    | some c => d.setTamper (tamperCode c)
    | none => d

def execVaultUsageSave (s : State) : Host.Outcome State Fault Refusal := s.act Dev.saveUsage

def execVaultTimeSave (s : State) : Host.Outcome State Fault Refusal :=
  s.act fun d => if d.rd F.TB_STATE_STATE = 2 then d.saveTime else d

def execVbatLoss (s : State) : Host.Outcome State Fault Refusal := s.act Dev.vbatLoss

end Sys2Proof.Machine
end

