-- ==== Sys2Proof/Machine/Timebase.lean ====
section
/-!
DEFINITION. Chapter 5: device time, its correction by slewing and stepping, STEP_GUARD, the PTP slave and the discipline servo.
Times and offsets of PTP are in 2^-16 ns, the accumulator is in 2^-32 ns, the integrator in 2^-48 ppb.
-/

namespace Sys2Proof.Machine

/-! ### The increment and the clock -/

/-- The range of TB_INCR: 3.998 ns to 4.002 ns (R76). -/
def incrMin : Nat := 17171279249
def incrMax : Nat := 17188459118

def incrNominal : Nat := 0x400000000

/-- One ppb in units of the integrator. -/
def ppb : Int := 2 ^ 48

/-- tb_incr := 4 ns x (1 - f x 10^-9), truncated to 2^-32 ns (R88). Log entry 32 (DESIGN CHOICE). -/
def incrOf (f : Int) : Nat := ((1000000000 * ppb - f) / (1000000000 * 2 ^ 14)).toNat

def Dev.setIncr (d : Dev) (n : Nat) : Dev := d.wr F.TB_INCR_INCR 0 (clampNat incrMin incrMax n)

/-- The closing boundary of the beat in progress, in ns (R78, R81). Log entry 35 (DEDUCED). -/
def Dev.boundary (d : Dev) : Nat := (d.tmb.stepEnd).getD ((d.tmb.openT / 4000 + 1) * 4000)

/-- One timebase clock, short of the addition that closes the beat (R75); the accumulator stands while device time does not run. Log entry 1 (DESIGN CHOICE). -/
def Dev.tick (d : Dev) : Dev :=
  let n := d.rd F.TB_INCR_INCR
  let acc := (d.tmb.acc + n) % 2 ^ 96
  if !d.tmb.running then { d with tmb.ran := d.tmb.ran + n }
  else if acc / 2 ^ 32 < d.boundary then { d with tmb.acc := acc, tmb.atOpen := false, tmb.ran := d.tmb.ran + n } else d

/-- The accumulator after the additions that make TB_NOW reach t, the last of them the first to do so (R78). Log entry 1 (DESIGN CHOICE). -/
def Dev.accAt (d : Dev) (t : Nat) : Nat :=
  let incr := d.rd F.TB_INCR_INCR
  let short := t * 2 ^ 32 - d.tmb.acc
  (d.tmb.acc + (short + incr - 1) / incr * incr) % 2 ^ 96

/-! ### Steps -/

/-- TB_STATE STATE. -/
def Dev.timeState (d : Dev) : Nat := d.rd F.TB_STATE_STATE

def Dev.setTimeState (d : Dev) (n : Nat) : Dev := { d.wr F.TB_STATE_STATE 0 n with tmb.good := 0, tmb.bad := 0, tmb.hold := 0 }

def Dev.guarded (d : Dev) : Bool := d.on F.TB_CTRL_MODE

def Dev.armed (d : Dev) : Bool := d.on F.TB_CTRL_ARMED

def Dev.pageRuns (d : Dev) : Bool := d.cdc.pages.any fun p => p.inProgress

/-- The bar is idle at an opening boundary (R80): no page in progress, no line built in the 4 beats before it. -/
def Dev.barIdle (d : Dev) : Bool := !d.pageRuns && decide (4 ≤ d.pace.idle)

/-- The bar is idle as far as the beat in progress has come. -/
def Dev.barQuiet (d : Dev) : Bool := !d.pageRuns && (!d.pace.built && decide (3 ≤ d.pace.idle))

/-- A step waits: the movement in 2^-16 ns, and whether a host wrote it. STEP_PENDING shows a host's step, and a servo's from when the bar
has kept it waiting (R80). Log entry 204 (DESIGN CHOICE). -/
def Dev.setStep (d : Dev) (s : Option (Int × Bool)) : Dev :=
  let late := d.tmb.deferred && s.isSome
  { d with tmb.step := s, tmb.deferred := late }.wrB F.TB_STATE_STEP_PENDING 0 (late || (match s with | some (_, host) => host | none => false))

/-- A step is kept waiting: STEP_PENDING, and TIME_STEP_DEFERRED once per episode (R80). Log entry 182 (DEDUCED). -/
def Dev.deferStep (d : Dev) : Dev :=
  if d.tmb.deferred then d
  else ({ d with tmb.deferred := true }.wrB F.TB_STATE_STEP_PENDING 0 true).raise .secure 0x0D04 []

/-- R82 refuses a correction: counted and posted with its offset, or the low 64 bits of one that signed 48.16 does not hold. Log entry 199 (DESIGN CHOICE). -/
def Dev.jumpRefused (d : Dev) (o : Int) : Dev :=
  (d.bump F.TB_STATE_REFUSED 0 1).raise .secure 0x0D05 [(8, ofSigned 64 o)]

def Dev.refuses (d : Dev) (o : Int) : Bool :=
  d.guarded && (!d.armed && decide ((d.rd F.TB_JUMP_MAX_JUMP_MAX : Int) * 2 ^ 16 < (o.natAbs : Int)))

/-- Shift every device time that the web tracker holds (R81), whole ns, by the difference of the TB_NOW readings; one that would fall below 0
becomes 0. Log entry 206 (DESIGN CHOICE). Log entries 54 (DEDUCED), 184 (DESIGN CHOICE). -/
def Web.shift (w : Web) (δ : Int) : Web :=
  let mv := fun (t : Nat) => ((t : Int) + δ).toNat
  { w with
    ts := mv w.ts
    edges := w.edges.map fun e => (mv e.1, e.2)
    lastEdge := mv w.lastEdge
    first := (mv w.first.1, w.first.2)
    coastEdges := w.coastEdges.map mv
    lastQerr := mv w.lastQerr
    quads := w.quads.map fun q => { q with illegal := q.illegal.map mv, last := mv q.last, prev := mv q.prev }
    f0Last := mv w.f0Last
    watch := mv w.watch
    snaps := w.snaps.map fun s => { s with t := mv s.t }
    soft := w.soft.map mv
    occ := w.occ.map fun o => { o with t := mv o.t }
    pulses := w.pulses.map fun p => { p with t := mv p.t, stop := mv p.stop } }

/-- An emitted occurrence that the step has put before the opening of the stepped beat is skipped and counted (R81). -/
def Dev.skipLate (d : Dev) (openT : Nat) : Dev :=
  let late := (d.web.occ.filter fun o => decide (o.t < openT)).length
  let d := { d with web.occ := d.web.occ.filter fun o => decide (openT ≤ o.t) }
  if late = 0 then d else d.bump F.WT_CMP_STAT_CMP_LATE 0 late

/-- Device times that other blocks hold of what has been scheduled or has happened: slots and pauses, microsteps, strobes, ticks, frames on a link,
the end of an inhibit. They stay where they are on the clock that no step moves, and so move with device time (R81). Log entry 201 (DEDUCED). -/
def Dev.shiftTimes (d : Dev) (δ : Int) : Dev :=
  let mv := fun (t : Nat) => ((t : Int) + δ).toNat
  { d with
    drm.arbs := d.drm.arbs.map fun a => { a with slotT := mv a.slotT, pauseEnd := mv a.pauseEnd }
    mot.axes := d.mot.axes.map fun x => { x with
      due := x.due.map fun m => (mv m.1, m.2), hist := x.hist.map fun m => (mv m.1, m.2), last := mv x.last
      check := x.check.map mv }
    srv.axes := d.srv.axes.map fun x => { x with illegal := x.illegal.map mv }
    srv.tickT := mv d.srv.tickT
    ins.cams := d.ins.cams.map fun k => { k with
      lastStop := mv k.lastStop, trigs := k.trigs.map fun t => { t with t := mv t.t, start := mv t.start, stop := mv t.stop } }
    hl := d.hl.map fun l => { l with busy := ((l.busy : Int) + δ * 2 ^ 16).toNat }
    pace.released := d.pace.released.map mv
    pace.freed := d.pace.freed.map mv }

/-- Apply the pending step at the opening boundary (R81): a servo sample moves the accumulator by -o and keeps i, a host write
by DELTA. Log entry 34 (DEDUCED). Log entry 206 (DESIGN CHOICE). -/
def Dev.applyStep (d : Dev) (move : Int) (host : Bool) : Dev :=
  let old : Nat := d.now
  let acc : Nat := (((d.tmb.acc : Int) + move * 2 ^ 16) % 2 ^ 96).toNat
  let new : Nat := acc / 2 ^ 32
  let d := d.shiftTimes ((new : Int) - (old : Int))
  let d := { d with
    tmb.acc := acc
    tmb.openT := new
    tmb.stepEnd := some ((new + 2000 + 3999) / 4000 * 4000)
    tmb.unaligned := true
    web := d.web.shift ((new : Int) - (old : Int)) }
  let d := (d.skipLate new).wr F.GL_BEAT_BEAT 0 (new / 4000)
  let d := (d.setStep none).bump F.TB_STATE_STEPS 0 1
  let d := (if host then d else d.setIncr (incrOf d.tmb.integ)).wrB F.TB_CTRL_ARMED 0 false
  d.raise .secure 0x0D03 [(8, old), (8, new)]


/-- The rate f of a sample, and the integrator (R88): o in 2^-16 ns, ts = 2^logTs s. Log entry 32 (DESIGN CHOICE). -/
def servoTerms (kp ki : Nat) (integ o logTs : Int) : Int × Int :=
  let term := fun (k : Nat) =>
    let v := (k : Int) * o * 2 ^ 16
    if 0 ≤ logTs then v / 2 ^ logTs.toNat else v * 2 ^ (-logTs).toNat
  let lim := 500000 * ppb
  let i := clampInt (-lim) lim (integ + term ki)
  (clampInt (-lim) lim (term kp + i), i)

/-- TB_FREQ shows the integrator in whole ppb. Log entry 32 (DESIGN CHOICE). -/
def Dev.setInteg (d : Dev) (i : Int) : Dev := { d with tmb.integ := i }.wrS F.TB_FREQ_I 0 (i / ppb)

/-- A sample that the servo runs (R88). -/
def Dev.servoRun (d : Dev) (o logTs : Int) : Dev :=
  let (f, i) := servoTerms (d.rd F.TB_SERVO_KP) (d.rd F.TB_SERVO_KI) d.tmb.integ o logTs
  (d.setInteg i).setIncr (incrOf f)

/-- A sample slewed at the limit (R80, R88). -/
def Dev.slewLimit (d : Dev) (o : Int) : Dev := d.setIncr (incrOf (if 0 < o then 500000 * ppb else -500000 * ppb))

/-- The opening boundary (R80): a step that waits applies if the bar is idle; if not it is deferred, and a servo's sample is slewed at the
limit while the servo runs. -/
def Dev.timeStepApply (d : Dev) : Dev :=
  match d.tmb.step with
  | some (move, host) =>
    if !d.tmb.atOpen then d
    else if d.barIdle then d.applyStep move host
    else
      let runs := !host && (decide (d.timeState = 1) || decide (d.timeState = 2))
      if runs then d.deferStep.slewLimit (-move) else d.deferStep
  | none => d

/-- Consecutive samples move discipline between ACQUIRING and LOCKED (R89). Log entry 30 (DESIGN CHOICE). -/
def Dev.lockCount (d : Dev) (o : Int) : Dev :=
  let lock := (d.rd F.TB_LIMITS_LOCK_NS : Int) * 2 ^ 16
  let a : Int := o.natAbs
  if d.timeState = 1 then
    let n := if a < lock then d.tmb.good + 1 else 0
    if 16 ≤ n then ((d.setTimeState 2).saveTime).raise .secure 0x0D01 [] else { d with tmb.good := n }
  else if d.timeState = 2 then
    let n := if 4 * lock < a then d.tmb.bad + 1 else 0
    if 4 ≤ n then (d.setTimeState 1).raise .secure 0x0D07 [] else { d with tmb.bad := n }
  else d

/-- What one sample does to the time, once it has been counted (R80, R82, R88). Log entry 199 (DESIGN CHOICE). -/
def Dev.correct (d : Dev) (o logTs : Int) : Dev :=
  if d.refuses o then d.jumpRefused o
  else if (o.natAbs : Int) < (d.rd F.TB_LIMITS_STEP_THRESH : Int) * 2 ^ 16 then
    let d := match d.tmb.step with
      | some (_, false) => d.setStep none
      | _ => d
    d.servoRun o logTs
  else if d.guarded && !d.armed then d.slewLimit o
  else
    let d := d.setStep (some (-o, false))
    if d.barQuiet then d else d.deferStep.slewLimit o

/-- An offset sample (R88, R89): shown in TB_OFFSET; nothing more in FREE; HOLDOVER counts four of them, and neither
ends nor makes a step then. Log entries 30 (DESIGN CHOICE), 183 (DESIGN CHOICE). -/
def Dev.servoSample (d : Dev) (o logTs : Int) : Dev :=
  let d := d.wrS F.TB_OFFSET_OFFSET 0 o
  if d.timeState = 0 then d
  else if d.timeState = 3 then
    if 4 ≤ d.tmb.hold + 1 then d.setTimeState 1 else { d with tmb.hold := d.tmb.hold + 1 }
  else (d.lockCount o).correct o logTs

/-! ### Manual mode -/

/-- A write to TB_INCR: in manual mode, clamped to the range (R76). -/
def Dev.wTbIncr (d : Dev) (val mask : Nat) : Dev :=
  if !d.on F.TB_CTRL_MANUAL then d
  else
    let d := d.store R.TB_INCR 0 val mask
    d.setIncr (d.rd F.TB_INCR_INCR)

/-- A write to TB_STEP: in manual mode, a pending step subject to R82; until it is applied STEP_PENDING is set, and TIME_STEP_DEFERRED is posted
once (R80). A refused write leaves an earlier pending step in place. Log entries 182 (DEDUCED), 205 (DESIGN CHOICE). -/
def Dev.wTbStep (d : Dev) (val mask : Nat) : Dev :=
  if !d.on F.TB_CTRL_MANUAL ∨ mask = 0 then d
  else
    let v := Nat.xor d.tmb.stepReg (Nat.land (Nat.xor d.tmb.stepReg val) mask)
    let d := { d with tmb.stepReg := v }
    let move := toSigned 64 v * 2 ^ 16
    if d.refuses move then d.jumpRefused (-move)
    else ({ d with tmb.deferred := false }.setStep (some (move, true))).deferStep

/-- Writing RESYNC arms it, and writing it again disarms it; a servo step that waited for it is given up (R83). Log entry 31 (DEDUCED). -/
def Dev.toggleResync (d : Dev) : Dev :=
  if !d.guarded then d
  else if !d.armed then d.wrB F.TB_CTRL_ARMED 0 true
  else
    let d := d.wrB F.TB_CTRL_ARMED 0 false
    match d.tmb.step with
    | some (_, false) => d.setStep none
    | _ => d

/-- MANUAL moves time discipline to FREE, or from there to ACQUIRING (R89). A host's pending step stays pending when MANUAL is written 0. Log entries 31 (DEDUCED), 204 (DESIGN CHOICE). -/
def Dev.manualMode (d : Dev) : Dev :=
  if d.on F.TB_CTRL_MANUAL then
    if d.timeState = 0 then d
    else
      let d := (d.setTimeState 0).setIncr incrNominal
      match d.tmb.step with
      | some (_, false) => d.setStep none
      | _ => d
  else if d.timeState = 0 && d.tmb.ptp then d.setTimeState 1
  else d

/-- A write to TB_CTRL. Log entry 31 (DEDUCED). -/
def Dev.wTbCtrl (d : Dev) (val mask : Nat) : Dev :=
  if mask % 2 = 0 then d
  else
    let d := d.store R.TB_CTRL 0 val mask
    let d := if val.testBit 1 then d.toggleResync else d
    d.manualMode

/-! ### Messages -/

/-- PTP runs on a port (R63 step 10, R74). Log entry 33 (DEDUCED). -/
def Dev.ptpOn (d : Dev) (e : Fin 2) : Bool := d.tmb.ptp && (d.pat.loaded.time.ports.testBit e && d.funcOn (.eth e))

def Dev.ptpPort (d : Dev) (e : Nat) : PtpPort := at' d.tmb.ports e

def Dev.setPtp (d : Dev) (e : Nat) (f : PtpPort → PtpPort) : Dev := { d with tmb.ports := d.tmb.ports.modify e f }

def Dev.p2p (d : Dev) (e : Nat) : Bool := d.onO F.TB_PORT_CFG_DELAY e

/-- Log entry 42 (PRESUMED). -/
def Dev.udp (d : Dev) (e : Nat) : Bool := d.onO F.TB_PORT_CFG_TRANSPORT e

/-- A frame discarded under R84 or R296. -/
def Dev.ethDiscard (d : Dev) (e : Nat) : Dev := d.count F.ETH_COUNT_DISCARD e 1

/-- A message reaches the port: the wrong transport, or the wrong delay mechanism, is discarded and counted; another domain is
ignored (R84, R85). Log entry 28 (DESIGN CHOICE). -/
def Dev.ptpTake (d : Dev) (e : Fin 2) (f : PtpForm) (mech : Option Bool) (k : Dev → Dev) : Dev :=
  if !d.ptpOn e then (if d.funcOn (.eth e) then d.ethDiscard e else d)
  else if decide (f.transport = .udp) != d.udp e then d.ethDiscard e
  else if (match mech with | some p => p != d.p2p e | none => false) then d.ethDiscard e
  else if f.domain ≠ d.pat.loaded.time.domain then d
  else k (d.count F.ETH_COUNT_RX_PTP e 1)

/-- Fixed corrections in 2^-16 ns by SPEED 0 1000BASE-X, 1 2.5GBASE-X, 2 10GBASE-R (R87). -/
def ingressOf (speed : Nat) : Nat := [15204352, 6815744, 4023910].getD speed 4023910
def egressOf (speed : Nat) : Nat := [12058624, 5347737, 3152281].getD speed 3152281

def Dev.rxStamp (d : Dev) (e : Nat) (capture : Nat) : Int :=
  (capture : Int) - ingressOf (d.rd F.ETH_CFG_SPEED e) + d.rdS F.TB_TS_ADJ_RX_ADJ e * 2 ^ 14

def Dev.txStamp (d : Dev) (e : Nat) (capture : Nat) : Int :=
  (capture : Int) + egressOf (d.rd F.ETH_CFG_SPEED e) + d.rdS F.TB_TS_ADJ_TX_ADJ e * 2 ^ 14

/-- A timestamp of seconds and nanoseconds in 2^-16 ns. -/
def ptpTime (sec ns : Nat) : Int := ((sec : Int) * 1000000000 + ns) * 2 ^ 16

/-- A time that 64-bit nanoseconds cannot hold (R79). Log entry 28 (DESIGN CHOICE). -/
def tooLate (sec : Nat) : Bool := decide (18446744073 ≤ sec)

def lexLess : List Nat → List Nat → Bool
  | a :: as, b :: bs => decide (a < b) || (decide (a = b) && lexLess as bs)
  | [], _ :: _ => true
  | _, [] => false

/-- The order of the default best-master selection (R84): between two grandmasters their data sets' fields, between two paths to one
grandmaster the steps removed, the sender and the port. Log entry 185 (PRESUMED). -/
def Foreign.better (a b : Foreign) : Bool :=
  if a.msg.gm = b.msg.gm then
    lexLess [a.msg.stepsRemoved, a.msg.src.clock.toNat, a.msg.src.port.toNat, a.port.val]
      [b.msg.stepsRemoved, b.msg.src.clock.toNat, b.msg.src.port.toNat, b.port.val]
  else
    lexLess [a.msg.priority1, a.msg.clockClass, a.msg.accuracy, a.msg.variance, a.msg.priority2, a.msg.gm.toNat]
      [b.msg.priority1, b.msg.clockClass, b.msg.accuracy, b.msg.variance, b.msg.priority2, b.msg.gm.toNat]

def bestOf : List Foreign → Option Foreign
  | [] => none
  | f :: fs =>
    match bestOf fs with
    | some g => if g.better f then some g else some f
    | none => some f

def sameMaster (a b : Foreign) : Bool := decide (a.port = b.port ∧ a.msg.src = b.msg.src)

/-- Entry to HOLDOVER: the last rate without its proportional term (R90). Log entry 183 (DESIGN CHOICE). -/
def Dev.toHoldover (d : Dev) : Dev := ((d.setTimeState 3).setIncr (incrOf d.tmb.integ)).raise .secure 0x0D02 []

/-- ANN_TIMEOUT Announce intervals of a master, in beats (R86). Log entry 185 (PRESUMED). -/
def Dev.annBeats (d : Dev) (f : Foreign) : Nat :=
  let n := d.rdO F.TB_PORT_CFG_ANN_TIMEOUT f.port * 250000
  if 0 ≤ f.msg.logInterval then n * 2 ^ f.msg.logInterval.toNat else n / 2 ^ (-f.msg.logInterval).toNat

/-- The masters that take part in selection (R84, R86): the selected one until it is lost, and those heard within ANN_TIMEOUT of their
Announce intervals. Log entry 185 (PRESUMED). -/
def Dev.candidates (d : Dev) : List Foreign :=
  d.tmb.heard.filter fun f => (match d.tmb.selected with | some s => sameMaster s f | none => false) || decide (d.tmb.beats < f.at' + d.annBeats f)

/-- Select the best master heard (R84, R86): a loss or a change in ACQUIRING or LOCKED is HOLDOVER (R89). Log entry 29 (DEDUCED). -/
def Dev.select (d : Dev) : Dev :=
  let d := { d with tmb.heard := d.candidates }
  let new := bestOf d.tmb.heard
  let same := match d.tmb.selected, new with
    | some a, some b => sameMaster a b
    | none, none => true
    | _, _ => false
  if same then { d with tmb.selected := new }
  else
    let had := d.tmb.selected.isSome
    let d := { d with tmb.selected := new, tmb.synced := false, tmb.hold := 0 }
    let d := d.wr F.TB_GM_IDENTITY 0 (match new with | some f => f.msg.src.clock.toNat | none => 0)
    let d := match new with | some f => d.wr F.TB_STATE_PORT 0 f.port | none => d
    let d := if had && (decide (d.timeState = 1) || decide (d.timeState = 2)) then d.toHoldover else d
    match new with
    | none => d
    | some f =>
      let changed := match d.tmb.lastSel with | some c => decide (c ≠ (f.port, f.msg.src)) | none => false
      let d := { d with tmb.lastSel := some (f.port, f.msg.src) }
      if changed && decide (d.timeState = 3) then d.raise .secure 0x0D06 [] else d

/-- The selected master is lost (R86). Log entry 29 (DEDUCED). -/
def Dev.loseMaster (d : Dev) : Dev :=
  match d.tmb.selected with
  | none => d
  | some s => { d with tmb.heard := d.tmb.heard.filter fun f => !sameMaster f s }.select

/-- An Announce takes part in selection unless its origin time cannot be held or its steps reach 255 (R79, R84). Log entry 29 (DEDUCED). -/
def Dev.announce (d : Dev) (e : Fin 2) (msg : Announce) : Dev :=
  if tooLate msg.originSec || decide (255 ≤ msg.stepsRemoved) then d
  else
    let f : Foreign := ⟨e, msg, d.tmb.beats⟩
    { d with tmb.heard := f :: d.tmb.heard.filter fun g => !sameMaster g f }.select

/-- A message comes from the selected master. -/
def Dev.fromMaster (d : Dev) (e : Fin 2) (src : PortId) : Bool :=
  match d.tmb.selected with
  | some s => decide (s.port = e ∧ s.msg.src = src)
  | none => false

/-- A Sync with its precise origin time gives an offset sample (R88): t1 with corrections, t2 the receive stamp. -/
def Dev.usableSync (d : Dev) (e : Fin 2) (t1 t2 logTs : Int) : Dev :=
  let d := (d.setPtp e fun p => { p with sync := none, t1 := t1, t2 := t2 })
  { d with tmb.synced := true }.servoSample (t2 - t1 - (d.ptpPort e).delay) logTs

def Dev.sync (d : Dev) (e : Fin 2) (f : PtpForm) (msg : SyncMsg) : Dev :=
  if tooLate msg.originSec || !d.fromMaster e msg.src then d
  else
    let t2 := d.rxStamp e f.capture
    if msg.twoStep then d.setPtp e fun p => { p with sync := some (msg, t2.toNat) }
    else d.usableSync e (ptpTime msg.originSec msg.originNs + msg.corr) t2 msg.logInterval

def Dev.followUp (d : Dev) (e : Fin 2) (msg : FollowUp) : Dev :=
  if tooLate msg.originSec || !d.fromMaster e msg.src then d
  else match (d.ptpPort e).sync with
    | some (s, t2) =>
      if s.seq = msg.seq then
        d.usableSync e (ptpTime msg.originSec msg.originNs + msg.corr + s.corr) t2 s.logInterval
      else d
    | none => d

/-- The mean path delay or peer delay of a port, shown in TB_PATH. -/
def Dev.setDelay (d : Dev) (e : Fin 2) (v : Int) : Dev := (d.setPtp e fun p => { p with delay := v }).wrS F.TB_PATH_DELAY 0 v

/-- A Delay_Resp: the mean path delay of E2E, and the interval at which to ask again (R84). -/
def Dev.delayResp (d : Dev) (e : Fin 2) (msg : DelayResp) : Dev :=
  if !msg.mine || !d.fromMaster e msg.src then d
  else match (d.ptpPort e).delayReq with
    | some (seq, t3) =>
      if seq = msg.seq.toNat then
        let p := d.ptpPort e
        let v := ((p.t2 - p.t1) + (ptpTime msg.rxSec msg.rxNs - t3 - msg.corr)) / 2
        (d.setPtp e fun p => { p with delayReq := none, delayLog := msg.logInterval }).setDelay e v
      else d
    | none => d

/-- How a port sends a message of a type (R85): Pdelay_Req 2, Pdelay_Resp 3 and Pdelay_Resp_Follow_Up 10 are peer-delay messages, the last
one a general message. -/
def Dev.ptpNet (d : Dev) (e : Fin 2) (kind : Nat) : PtpNet :=
  let peer := decide (2 ≤ kind)
  if d.udp e then .udp (if peer then 0xE000006B else 0xE0000181) (d.rd F.TB_PORT_IP_ADDR e) (if kind < 8 then 319 else 320)
  else .l2 0x88F7 (if peer then 0x0180C200000E else 0x011B19000000)

/-- Send a PTP message from the port's MAC address (R85, R296). -/
def Dev.sendPtp (d : Dev) (e : Fin 2) (kind seq stamp info : Nat) : Dev :=
  d.emit (.ptp e (d.rd F.ETH_MAC_MAC e) (d.ptpNet e kind) kind seq stamp info)

/-- A Pdelay_Req is answered two-step (R84): Pdelay_Resp with the receive stamp, Pdelay_Resp_Follow_Up with the transmit stamp. -/
def Dev.answerPdelay (d : Dev) (e : Fin 2) (f : PtpForm) (msg : PdelayReq) : Dev :=
  if d.udp e && decide (d.rd F.TB_PORT_IP_ADDR e = 0) then d
  else
    let d := d.sendPtp e 3 msg.seq.toNat (d.rxStamp e f.capture).toNat 0
    d.sendPtp e 10 msg.seq.toNat (d.txStamp e msg.answer).toNat (ofSigned 64 msg.corr)

/-- Peer delay from a one-step or two-step response (R84). -/
def Dev.pdelayResp (d : Dev) (e : Fin 2) (f : PtpForm) (msg : PdelayResp) : Dev :=
  let p := d.ptpPort e
  match p.pdelayReq with
  | none => d
  | some (seq, t1) =>
    if !msg.mine ∨ seq ≠ msg.seq.toNat then d
    else if msg.followUp then
      (match p.pdelayResp with
      | some (t4, t2, corr) =>
        let v := (((t4 : Int) - t1) - (ptpTime msg.sec msg.ns - t2) - corr - msg.corr) / 2
        (d.setPtp e fun p => { p with pdelayReq := none, pdelayResp := none }).setDelay e v
      | none => d)
    else
      let t4 := d.rxStamp e f.capture
      if msg.twoStep then
        d.setPtp e fun p => { p with pdelayResp := some (t4.toNat, ptpTime msg.sec msg.ns, msg.corr) }
      else (d.setPtp e fun p => { p with pdelayReq := none }).setDelay e ((t4 - t1 - msg.corr) / 2)

/-- A UDP port without a source address sends nothing. -/
def Dev.ptpSends (d : Dev) (e : Fin 2) : Bool := d.ptpOn e && !(d.udp e && decide (d.rd F.TB_PORT_IP_ADDR e = 0))

def Dev.sendDelayReq (d : Dev) (e : Fin 2) (capture : Nat) : Dev :=
  if !d.ptpSends e || d.p2p e || !(match d.tmb.selected with | some s => decide (s.port = e) | none => false) then d
  else
    let seq := (d.ptpPort e).seqD
    let t3 := (d.txStamp e capture).toNat
    (d.setPtp e fun p => { p with delayReq := some (seq, t3), seqD := (seq + 1) % 65536 }).sendPtp e 1 seq t3 0

def Dev.sendPdelayReq (d : Dev) (e : Fin 2) (capture : Nat) : Dev :=
  if !d.ptpSends e || !d.p2p e then d
  else
    let seq := (d.ptpPort e).seqP
    let t1 := (d.txStamp e capture).toNat
    (d.setPtp e fun p => { p with pdelayReq := some (seq, t1), pdelayResp := none, seqP := (seq + 1) % 65536 }).sendPtp
      e 2 seq t1 0

/-! ### The commands -/

def execTbIncrWrite (m : Master) (bytes val : Nat) (s : State) : Host.Outcome State Fault Refusal :=
  s.act fun d => d.writeTo m R.TB_INCR 0 fun d => d.wTbIncr val (if bytes = 8 then mask64 else mask32)

def execTbStepWrite (m : Master) (bytes val : Nat) (s : State) : Host.Outcome State Fault Refusal :=
  s.actInOrder fun d => d.writeTo m R.TB_STEP 0 fun d => d.wTbStep val (if bytes = 8 then mask64 else mask32)

def execTbManualWrite (m : Master) (val : Nat) (s : State) : Host.Outcome State Fault Refusal :=
  s.act fun d => d.writeTo m R.TB_CTRL 0 fun d => d.wTbCtrl val mask32

def execTbResync (m : Master) (val : Nat) (s : State) : Host.Outcome State Fault Refusal :=
  s.act fun d => d.writeTo m R.TB_CTRL 0 fun d => d.wTbCtrl val mask32

def execAnnounceRx (e : Fin 2) (f : PtpForm) (msg : Announce) (s : State) : Host.Outcome State Fault Refusal :=
  s.actInOrder fun d => d.ptpTake e f none fun d => d.announce e msg

def execSyncRx (e : Fin 2) (f : PtpForm) (msg : SyncMsg) (s : State) : Host.Outcome State Fault Refusal :=
  s.actInOrder fun d => d.ptpTake e f none fun d => d.sync e f msg

def execFollowUpRx (e : Fin 2) (f : PtpForm) (msg : FollowUp) (s : State) : Host.Outcome State Fault Refusal :=
  s.actInOrder fun d => d.ptpTake e f none fun d => d.followUp e msg

def execDelayRespRx (e : Fin 2) (f : PtpForm) (msg : DelayResp) (s : State) : Host.Outcome State Fault Refusal :=
  s.act fun d => d.ptpTake e f (some false) fun d => d.delayResp e msg

def execPdelayReqRx (e : Fin 2) (f : PtpForm) (msg : PdelayReq) (s : State) : Host.Outcome State Fault Refusal :=
  s.act fun d => d.ptpTake e f (some true) fun d => d.answerPdelay e f msg

def execPdelayRespRx (e : Fin 2) (f : PtpForm) (msg : PdelayResp) (s : State) : Host.Outcome State Fault Refusal :=
  s.actInOrder fun d => d.ptpTake e f (some true) fun d => d.pdelayResp e f msg

def execPtpOtherRx (e : Fin 2) (s : State) : Host.Outcome State Fault Refusal :=
  s.act fun d => if d.funcOn (.eth e) then d.ethDiscard e else d

def execDelayReqTx (e : Fin 2) (capture : Nat) (s : State) : Host.Outcome State Fault Refusal :=
  s.act fun d => d.sendDelayReq e capture

def execPdelayReqTx (e : Fin 2) (capture : Nat) (s : State) : Host.Outcome State Fault Refusal :=
  s.act fun d => d.sendPdelayReq e capture

def execTimeStepApply (s : State) : Host.Outcome State Fault Refusal := s.actInOrder Dev.timeStepApply

def execAnnounceTimeout (s : State) : Host.Outcome State Fault Refusal := s.actInOrder Dev.loseMaster

def execSyncTimeout (s : State) : Host.Outcome State Fault Refusal :=
  s.actInOrder fun d => if d.tmb.synced then d.loseMaster else d

end Sys2Proof.Machine
end

