-- ==== Sys2Proof/Machine/Web.lean ====
section
/-!
DEFINITION. Chapter 6: position inputs, the tracking observer, reverse debt, line crossings and position compare. Positions are in
2^-32 lines, speeds in 2^-32 lines/s, accelerations in 2^-32 lines/s^2; times in ns, fire times in quarter ns.
-/

namespace Sys2Proof.Machine

/-! ### Pages and suspicion -/

def Dev.pageOn (d : Dev) (line : Int) : Option Page :=
  match d.pageOf line with
  | some p => if p.inProgress then some p else none
  | none => none

def Dev.page (d : Dev) (uid : Nat) : Option Page := d.cdc.pages.find? fun p => decide (p.uid = uid)

def Dev.setPage (d : Dev) (uid : Nat) (f : Page → Page) : Dev :=
  { d with cdc.pages := d.cdc.pages.map fun p => if p.uid = uid then f p else p }

/-- Mark a page suspect: the page, WT_PAGE if it is the last accepted one, and PAGE_SUSPECT (R364). -/
def Dev.suspect (d : Dev) (uid : Nat) : Dev :=
  match d.page uid with
  | none => d
  | some p =>
    let d := (d.setPage uid fun p => { p with suspect := true }).wr F.SYS_FAULT_STAT_PAGE_SUSPECT 0 1
    if p.start.isSome ∧ uid = d.web.lastPage then d.wrB F.WT_PAGE_SUSPECT 0 true else d

/-- A page prints blank and is marked suspect (R365). Log entry 166 (DEDUCED). -/
def Dev.blankPage (d : Dev) (uid : Nat) : Dev := (d.setPage uid fun p => { p with blank := true }).suspect uid

/-- Mark the page of a line suspect. Log entry 50 (DEDUCED). -/
def Dev.suspectLine (d : Dev) (line : Int) : Dev :=
  match d.pageOf line with
  | some p => d.suspect p.uid
  | none => d

/-- Every page in progress is suspect. Log entry 50 (DEDUCED). -/
def Dev.suspectRunning (d : Dev) : Dev := (d.cdc.pages.filter fun p => p.inProgress).foldl (fun d p => d.suspect p.uid) d

/-- A web-tracker cause marks a page suspect: WEB_PAGE_SUSPECT once for each page (R101). -/
def Dev.webSuspect (d : Dev) (p : Page) : Dev :=
  let d := d.suspect p.uid
  match d.page p.uid with
  | some q =>
    if q.webSuspect then d
    else (d.setPage p.uid fun p => { p with webSuspect := true }).raise .secure 0x0C05 [(6, ofSigned 48 ((p.start).getD 0))]
  | none => d

/-! ### Suspension -/

def Dev.webState (d : Dev) : Nat := d.rd F.WT_STAT_STATE

/-- Set STATE, and SETTLING with it. -/
def Dev.setWebState (d : Dev) (n : Nat) : Dev := (d.wr F.WT_STAT_STATE 0 n).wrB F.WT_STAT_SETTLING 0 (decide (n = 1))

def Dev.suspended (d : Dev) : Bool := d.on F.WT_STAT_SUSPENDED

/-- Suspend firing; the first cause stays (R102, R103). -/
def Dev.suspend (d : Dev) (cause : Nat) : Dev :=
  if d.suspended then d else (d.wr F.WT_STAT_SUSPENDED 0 1).wr F.WT_STAT_SUSP_CAUSE 0 cause

/-- An exhausted coasting count: WEB_COAST_EXHAUSTED, once per coasting (R101). -/
def Dev.exhaust (d : Dev) : Dev :=
  if d.web.exhausted then d else ({ d with web.exhausted := true }.suspend 2).raise .secure 0x0C03 []

/-- Enter COASTING (R100, R101). Log entry 49 (DEDUCED). -/
def Dev.enterCoast (d : Dev) : Dev :=
  let d := { d with web.a := 0, web.coastX := d.web.x, web.coastEdges := [], web.exhausted := false }.setWebState 3
  if d.rd F.WT_LIMITS_COAST_MAX = 0 ∧ d.pageRuns then d.exhaust else d

/-! ### Channels -/

def Dev.quad (d : Dev) (n : Nat) : Quad := at' d.web.quads n

def Dev.setQuad (d : Dev) (n : Nat) (f : Quad → Quad) : Dev := { d with web.quads := d.web.quads.modify n f }

/-- SRC selects Q0 (R97). -/
def Dev.webIsQ0 (d : Dev) : Bool := !d.on F.WT_SRC_CFG_SRC

/-- The reverse debt D (R102). -/
def Dev.debtOf (d : Dev) : Int := (d.web.hw - d.web.pm) / (max 1 (d.rd F.WT_SCALE_SCALE) : Nat)

/-- D as shown in WT_DEBT, and whether it has risen above REV_LIMIT (R102). -/
def Dev.showDebt (d : Dev) : Dev :=
  let debt := d.debtOf
  let d := d.wr F.WT_DEBT_D 0 (min debt.toNat 0xFFFFFFFF)
  if debt ≤ d.rd F.WT_LIMITS_REV_LIMIT then { d with web.revOver := false }
  else if d.web.revOver then d
  else { d with web.revOver := true, web.revDue := true }

/-- A legal count on the web source (R96): the measured position, the high-water mark and D. -/
def Dev.webCount (d : Dev) (sign : Int) (t : Nat) : Dev :=
  if !d.web.started then d
  else
    let pm := d.web.pm + sign * max 1 (d.rd F.WT_SCALE_SCALE)
    { d with
      web.pm := pm
      web.hw := max d.web.hw pm
      web.edges := d.web.edges ++ [(t, pm)]
      web.lastEdge := t
      web.lastPm := pm
      web.coastEdges := if d.webState = 3 then t :: d.web.coastEdges else d.web.coastEdges }.showDebt

/-- Place of the levels of A and B in the Gray sequence, A leading B forward (R92). -/
def gray : Bool × Bool → Nat
  | (false, false) => 0
  | (true, false) => 1
  | (true, true) => 2
  | (false, true) => 3

/-- The newest three stamps lie within less than 1 ms, none of them equal (R93, R338). -/
def threeWithin : List Nat → Bool
  | t3 :: t2 :: t1 :: _ => decide (t1 < t2) && (decide (t2 < t3) && decide (t3 - t1 < 1000000))
  | _ => false

/-- An illegal transition (R93). -/
def Dev.illegal (d : Dev) (n : Fin 4) (t : Nat) : Dev :=
  let web := decide (n = 0) && d.webIsQ0
  let d := (d.bump F.WT_Qn_STAT_QERR n 1).wr F.WT_Qn_STAT_POS_UNCERTAIN n 1
  let d := if web then { d.wr F.WT_STAT_POS_UNCERTAIN 0 1 with web.lastQerr := t } else d
  let l := t :: (d.quad n).illegal.take 2
  let d := d.setQuad n fun q => { q with illegal := l }
  if threeWithin l then
    let d := (d.wr F.WT_Qn_STAT_QUAD_FAULT n 1).raise .secure 0x0C01 [(1, n)]
    if web then
      let d : Dev := { d.wr F.WT_STAT_QUAD_FAULT 0 1 with web.watch := t }
      if d.web.started ∧ d.webState ≠ 3 then d.enterCoast else d
    else d
  else d

/-- An accepted change of A, B or both (R92, R93). -/
def Dev.quadTransition (d : Dev) (n : Fin 4) (a b : Bool) (t : Nat) : Dev :=
  let old := (d.quad n).level
  let d := d.setQuad n fun q => { q with level := (a, b) }
  if !d.funcOn (.q n) then d
  else match (gray (a, b) + 4 - gray old) % 4 with
    | 0 => d
    | 2 => d.illegal n t
    | k =>
      let sign : Int := if decide (k = 1) != d.on F.WT_Qn_CFG_DIR_INV n then 1 else -1
      let d := d.wrS F.WT_Qn_COUNT_COUNT n (d.rdS F.WT_Qn_COUNT_COUNT n + sign)
      let d := d.setQuad n fun q => { q with prev := q.last, last := t, total := q.total + sign }
      if decide (n = 0) && d.webIsQ0 then d.webCount sign t else d

/-- An accepted rising edge of F0 STEP (R94): the sign that the count takes, and the state after it. -/
def Dev.f0Step (d : Dev) (dir setupOk : Bool) (t : Nat) : Int × Dev :=
  if !d.funcOn .f0 then (0, d)
  else
    let (pick, d) := if setupOk then (if dir != d.on F.WT_F0_CFG_DIR_INV then 1 else 0, d) else d.free 2
    let sign : Int := if pick = 1 then 1 else -1
    let d := { d.wrS F.WT_F0_COUNT_COUNT 0 (d.rdS F.WT_F0_COUNT_COUNT + sign) with web.f0Last := t }
    (sign, if d.webIsQ0 then d else d.webCount sign t)

/-- An accepted index edge (R95); the servo's index search sees it too (R348). Log entry 215 (DESIGN CHOICE). -/
def Dev.indexEdge (d : Dev) (n : Fin 4) (t : Nat) : Dev :=
  if !d.funcOn (.q n) then d
  else
    let count := d.rdS F.WT_Qn_COUNT_COUNT n
    let mode := d.rd F.WT_Qn_CFG_IDX_MODE n
    if mode = 1 ∨ (mode = 2 ∧ d.on F.WT_Qn_CFG_IDX_ARM n) then
      let d := d.setQuad n fun q => { q with index := some (t, q.total) }
      let d := (d.wrS F.WT_Qn_IDX_LATCH n count).wr F.WT_Qn_IDXTIME_STAMP n t
      let d := d.wr F.WT_Qn_COUNT_COUNT n 0
      if mode = 2 then (d.wrB F.WT_Qn_CFG_IDX_ARM n false).raise .secure 0x0C0A [] else d
    else d

/-- A write to WT_SCALE takes effect only in STILL (R96); D counts in the new SCALE (R102). -/
def Dev.wWtScale (d : Dev) (val mask : Nat) : Dev :=
  if d.webState = 0 then (d.store R.WT_SCALE 0 val mask).showDebt else d.wr F.WT_STAT_SCALE_REFUSED 0 1

/-! ### The observer -/

/-- Position after dt ns. Log entry 214 (DESIGN CHOICE). -/
def posAt (x v a dt : Int) : Int := x + v * dt / 10 ^ 9 + a * dt * dt / (2 * 10 ^ 18)

/-- Log entry 214 (DESIGN CHOICE). -/
def velAt (v a dt : Int) : Int := v + a * dt / 10 ^ 9

/-- R98 at boundary tk, with a measurement (te, pm) or with none. Log entry 214 (DESIGN CHOICE). -/
def Dev.observe (d : Dev) (meas : Option (Nat × Int)) (tk : Nat) : Dev :=
  let w := d.web
  let (x, v, a, ts) := match meas with
    | none => (w.x, w.v, w.a, w.ts)
    | some (te, pm) =>
      let τ : Int := (te : Int) - w.ts
      let xp := posAt w.x w.v w.a τ
      let vp := velAt w.v w.a τ
      let e := pm - xp
      (xp + (d.rd F.WT_GAIN_ALPHA : Int) * e / 2 ^ 16,
        vp + (d.rd F.WT_GAIN_BETA : Int) * e * 10 ^ 9 / (2 ^ 16 * 4000),
        w.a + 2 * (d.rd F.WT_GAIN_GAMMA : Int) * e * 10 ^ 18 / (2 ^ 16 * 16000000), te)
  let dt : Int := (tk : Int) - ts
  { d with web.x := posAt x v a dt, web.v := velAt v a dt, web.a := a, web.ts := tk }

/-- One edge in STILL or SETTLING (R100): the first and second place the observer; a later one is the beat's measurement. -/
def Dev.settleEdge (d : Dev) (e : Nat × Int) : Option (Nat × Int) × Dev :=
  let n := d.web.count + 1
  let d := { d with web.count := n }
  if n = 1 then
    (none, { d with web.x := e.2, web.v := 0, web.a := 0, web.ts := e.1, web.first := e }.setWebState 1)
  else if n = 2 then
    (none, { d with
      web.x := e.2
      web.v := (e.2 - d.web.first.2) * 10 ^ 9 / max 1 ((e.1 : Int) - d.web.first.1)
      web.a := 0
      web.ts := e.1 })
  else (some e, d)

/-- What WT_POS, WT_SPEED, WT_ACCEL and DIR show (R98, R99), and the values kept for a cue (R107). -/
def Dev.showObserver (d : Dev) (tk : Nat) : Dev :=
  let w := d.web
  let d := (d.wrS F.WT_POS_POS 0 (w.x / 2 ^ 16)).wrS F.WT_SPEED_SPEED 0 (w.v / 2 ^ 16)
  let d := d.wrS F.WT_ACCEL_ACCEL 0 (w.a / 2 ^ 16)
  let d := if 0 < w.v then d.wr F.WT_STAT_DIR 0 1 else if w.v < 0 then d.wr F.WT_STAT_DIR 0 0 else d
  { d with web.snaps := (⟨tk, d.tmb.beats, w.x, w.v, w.a⟩ :: w.snaps).take 2 }

/-- The observer at an opening boundary tk (R98, R100, R101). The first two edges after STILL are processed one by one, even where the
eighth has come in the same beat. -/
def Dev.observer (d : Dev) (tk : Nat) : Dev :=
  if !d.web.started then d
  else
    let edges := d.web.edges
    let d := { d with web.edges := [] }
    let st := d.webState
    let d :=
      if st = 2 ∧ 2 ≤ d.web.count then d.observe edges.getLast? tk
      else if st = 3 then d.observe none tk
      else
        let (meas, d) := edges.foldl (fun r e =>
          let (m, d) := r.2.settleEdge e
          ((if m.isSome then m else r.1), d)) (none, d)
        let d := if d.webState = 1 ∧ 8 ≤ d.web.count then d.setWebState 2 else d
        if d.webState = 0 then { d with web.ts := tk } else d.observe meas tk
    d.showObserver tk

/-- No legal edge for STILL_T: STILL from the coming boundary on (R100). -/
def Dev.standstill (d : Dev) : Dev :=
  if (d.webState = 1 ∨ d.webState = 2) ∧ d.web.edges.isEmpty ∧
      d.web.lastEdge + d.rd F.WT_LIMITS_STILL_T * 1000 ≤ d.boundary then
    let d := { d with web.x := d.web.lastPm, web.v := 0, web.a := 0, web.count := 0 }.setWebState 0
    d.raiseAt .secure 0x0C09 (d.boundary / 4000) []
  else d

/-- The eighth legal edge since STILL: TRACKING at that edge (R100). -/
def Dev.settled (d : Dev) : Dev := if d.webState = 1 ∧ 8 ≤ d.web.count + d.web.edges.length then d.setWebState 2 else d

/-- Recovery from COASTING, tested at the opening boundary, with its re-base (R100). -/
def Dev.recovered (d : Dev) : Dev :=
  let tk := d.tmb.openT
  let since := tk - 1000000
  let n := (d.web.coastEdges.filter fun t => decide (since ≤ t) && decide (t < tk)).length
  if d.webState = 3 ∧ d.web.lastQerr < since ∧ 16 ≤ n then
    let xe := posAt d.web.x d.web.v d.web.a ((d.web.lastEdge : Int) - d.web.ts)
    let shift := xe - d.web.lastPm
    let d := { d with
      web.pm := d.web.pm + shift
      web.hw := d.web.hw + shift
      web.lastPm := xe
      web.edges := d.web.edges.map fun (t, p) => (t, p + shift)
      web.coastEdges := []
      web.count := max 8 d.web.count }
    (d.setWebState 2).raise .secure 0x0C04 []
  else d

/-- The coasting count reaches COAST_MAX (R101). Log entry 49 (DEDUCED). -/
def Dev.coastExhausted (d : Dev) : Dev :=
  if d.webState = 3 ∧ d.pageRuns ∧ (d.rd F.WT_LIMITS_COAST_MAX : Int) ≤ (d.web.x - d.web.coastX) / 2 ^ 32 then d.exhaust else d

/-- D has risen above REV_LIMIT (R102). -/
def Dev.reversed (d : Dev) : Dev :=
  if d.web.revDue then
    ({ d with web.revDue := false }.raise .secure 0x0C02 [(4, d.rd F.WT_DEBT_D)]).suspend 1
  else d

/-! ### Crossings -/

/-- The scaled position q quarter-ns after the boundary: 32 x 10^18 times 2^-32 lines. -/
def posQ (x v a : Int) (q : Int) : Int := 32 * 10 ^ 18 * x + 8 * 10 ^ 9 * v * q + a * q * q

/-- The largest q below 2^n + base at which the position has not passed the scaled target, within lim. -/
def searchQ (x v a target : Int) (lim : Nat) : Nat → Nat → Nat
  | 0, base => base
  | n + 1, base =>
    let q := base + 2 ^ n
    if q ≤ lim ∧ posQ x v a q ≤ target then searchQ x v a target lim n q else searchQ x v a target lim n base

/-- How many of the targets T, T + step, .. are passed more than 250 ns before the window opens, or never lie ahead (R104):
`early` is that instant in quarter ns after the boundary. A step of 0 is a single target. -/
def lateTargets (x v a target step : Int) (early : Nat) : Nat :=
  -- position that the web reaches by then, exclusive bound on late targets
  let bound : Int :=
    if a < 0 ∧ 8 * 10 ^ 9 * v + 2 * a * early < 0 then x + v * v / (-2 * a) + 1
    else -((-(posQ x v a early)) / (32 * 10 ^ 18))
  if bound ≤ target then 0
  else if step ≤ 0 then 1
  else ((bound - target + step - 1) / step).toNat

/-- When a target is reached, in quarter ns after the boundary, if before `close` (R104). -/
def crossTime (x v a target : Int) (close : Nat) : Option Nat :=
  let tk := 32 * 10 ^ 18 * target
  let lim := if a < 0 then min close (8 * 10 ^ 9 * v / (-2 * a)).toNat else close
  if posQ x v a lim ≤ tk then
    if lim < close ∧ target ≤ x + v * v / (-2 * a) then some lim else none
  else some (searchQ x v a tk lim 18 0)

/-- Predictions are possible: not in STILL, not before the eighth edge, no debt, the web moving forward (R104). -/
def Dev.predicts (d : Dev) : Bool :=
  decide (d.webState ≠ 0) && (!(decide (d.webState = 1) && decide (d.web.count < 8)) && (decide (d.debtOf ≤ 0) && decide (0 < d.web.v)))

/-- Lines of a row, n and on by step, of which m are blanked: the pages in progress that they touch are suspect (R104). Log entry 50 (DEDUCED). -/
def Dev.blankLines (d : Dev) (n step : Int) (m : Nat) : Dev :=
  if m = 0 then d
  else
    let d := d.bump F.WT_MISSED_LATE 0 m
    let last := n + (m - 1) * step
    (d.cdc.pages.filter fun p =>
      match p.start with
      | some s =>
        let a := max n s
        p.inProgress && decide (a + (n - a) % step ≤ min last (s + p.lines - 1))
      | none => false).foldl (fun d p => d.webSuspect p) d

/-- The crossing of one row at the boundary tk for the window that opens at `wOpen` (R104): its crossing, if one is emitted, and
its next line. -/
def Dev.predictRow (d : Dev) (tk wOpen : Nat) (r : RowSt) : Option Crossing × RowSt × Dev :=
  let step : Int := if d.pat.loaded.gauge.dual then 1 else 2
  let w := d.web
  let target := fun (n : Int) => n * 2 ^ 32 + r.off
  let m := lateTargets w.x w.v w.a (target r.next) (step * 2 ^ 32) ((wOpen - 250 - tk) * 4)
  let d := d.blankLines r.next step m
  let n := r.next + m * step
  match crossTime w.x w.v w.a (target n) ((wOpen + 4000 - tk) * 4) with
  | none => (none, { r with next := n }, d)
  | some q =>
    let qOpen := (wOpen - tk) * 4
    let d := if q < qOpen then d.bump F.WT_MISSED_CLAMPED 0 1 else d
    let r := { r with next := n + step }
    match d.pageOn n with
    | none => (none, r, d)
    | some p =>
      let d := if d.webState = 3 ∨ d.suspended then d.webSuspect p else d
      (if d.suspended then none else some ⟨r.head, r.row, n, tk * 4 + max q qOpen⟩, r, d)

/-- Every row has passed the last line of a page (R107). -/
def Dev.rowsPast (d : Dev) (p : Page) : Bool :=
  match p.start with
  | some s => d.web.rows.all fun r => decide (s + p.lines - 1 < r.next)
  | none => false

/-- The pages that every row has passed are no longer in progress: how many ended. -/
def Dev.finishPages (d : Dev) : Nat × Dev :=
  let done := d.cdc.pages.filter fun p => p.inProgress && d.rowsPast p
  (done.length, done.foldl (fun d p =>
    let d := d.setPage p.uid fun p => { p with inProgress := false }
    if p.uid = d.web.lastPage then d.wrB F.WT_PAGE_ACTIVE 0 false else d) d)

/-- The crossings of the boundary tk that opens beat k (R104), and every page in progress suspect while the tracker coasts
(R101). -/
def Dev.predictCrossings (d : Dev) (tk : Nat) : Dev :=
  let d := if d.webState = 3 then (d.cdc.pages.filter (·.inProgress)).foldl (fun d p => d.webSuspect p) d else d
  if !d.web.started ∨ !d.predicts then { d with web.pred := [] }
  else
    let wOpen := (d.beat + 4) * 4000
    let (cs, rs, d) := d.web.rows.foldl (fun acc r =>
      let (c, r, d) := acc.2.2.predictRow tk wOpen r
      (acc.1 ++ c.toList, acc.2.1 ++ [r], d)) (([] : List Crossing), ([] : List RowSt), d)
    { d with web.pred := cs, web.rows := rs }

/-- next[r] set afresh for every row of the gauge (R104): the lowest line of the row's parity whose target lies above x. -/
def Dev.initRows (d : Dev) : Dev :=
  let g := d.pat.loaded.gauge
  let mk := fun (h row : Nat) (off : Int) =>
    let n : Int := (d.web.x - off) / 2 ^ 32 + 1
    RowSt.mk h row off (if g.dual ∨ (n - row) % 2 = 0 then n else n + 1)
  { d with web.rows := (g.heads.zipIdx).flatMap fun p =>
      [mk p.2 0 (p.1.rowA * 2 ^ 16), mk p.2 1 ((p.1.rowA + p.1.rowB) * 2 ^ 16)] }

/-- Cast-on step 13: the observer starts in STILL at 0 (R96, R97, R100). -/
def Dev.startWeb (d : Dev) : Dev :=
  let w := d.web
  { d with web := { w with started := true, pm := 0, hw := 0, x := 0, v := 0, a := 0, ts := d.now, edges := [], count := 0 } }.initRows

/-! ### Position compare -/

def cmpBase : Nat := 0xC100000

/-- The entries whose WT_CMP_OUT has a bit set in a register map, ascending. -/
def cmpWith (regs : List (Nat × Word)) (bit : Nat) : List Nat :=
  regs.filterMap fun p =>
    if cmpBase ≤ p.1 ∧ p.1 < cmpBase + 0x20000 ∧ p.1 % 32 = 16 ∧ p.2.toNat.testBit bit then some ((p.1 - cmpBase) / 32) else none

/-- The entries that are enabled. -/
def Dev.cmpEntries (d : Dev) : List Nat := cmpWith d.regs 32

/-- How many occurrences an entry produces, if limited (R109). -/
def Dev.cmpLimit (d : Dev) (e : Nat) : Option Nat :=
  if d.rd F.WT_CMP_REPEAT_PERIOD e = 0 then some 1
  else if d.rd F.WT_CMP_REPEAT_COUNT e = 0 then none else some (d.rd F.WT_CMP_REPEAT_COUNT e)

def Dev.setCmpJ (d : Dev) (e j : Nat) : Dev := { d with web.cmpJ := mapSet d.web.cmpJ e j 0 }

/-- base + START of an entry: none for a RELATIVE entry before any cue is accepted. -/
def Dev.cmpFirst (d : Dev) (e : Nat) : Option Int :=
  let start := d.rdS F.WT_CMP_START_START e * 2 ^ 16
  if d.on F.WT_CMP_OUT_RELATIVE e then d.web.prevPage.map fun p => p.1 * 2 ^ 32 + start else some start

def insertOcc (o : Occur) : List Occur → List Occur
  | [] => [o]
  | p :: ps => if o.t < p.t then o :: p :: ps else p :: insertOcc o ps

/-- One entry at one boundary: the occurrences emitted so far in this window and the state go on (R109, R110). Log entry 48 (DEDUCED). -/
def Dev.predictCmp (tk wOpen : Nat) (acc : Nat × Dev) (e : Nat) : Nat × Dev :=
  let (used, d) := acc
  let j := mapGet d.web.cmpJ e 0
  match d.cmpFirst e with
  | none => acc
  | some first =>
    let left := (d.cmpLimit e).map fun n => n - j
    if left = some 0 then acc
    else
      let w := d.web
      let period : Int := (d.rd F.WT_CMP_REPEAT_PERIOD e : Int) * 2 ^ 16
      let m := lateTargets w.x w.v w.a (first + j * period) period ((wOpen - 250 - tk) * 4)
      let m := match left with | some n => min m n | none => m
      let d := if m = 0 then d else d.bump F.WT_CMP_STAT_CMP_LATE 0 m
      let j := j + m
      let pos := first + j * period
      let open? := if left = some m then none else crossTime w.x w.v w.a pos ((wOpen + 4000 - tk) * 4)
      let (used, j, d) := match open? with
        | none => (used, j, d)
        | some q =>
          let t := max wOpen (tk + q / 4)
          if 64 ≤ used then (used, j + 1, (d.bump F.WT_CMP_STAT_CMP_OVER 0 1).raiseOnce .secure 0x0C08 0 [])
          else
            let o : Occur := ⟨e, t, pos, d.rd F.WT_CMP_OUT_MARK_MASK e, d.rd F.WT_CMP_OUT_WIDTH e, d.rd F.WT_CMP_OUT_TRIG_MASK e⟩
            let d := if o.mask = 0 ∧ o.cams = 0 then d else { d with web.occ := insertOcc o d.web.occ }
            (used + 1, j + 1, d)
      let d := d.setCmpJ e j
      let count := d.rd F.WT_CMP_REPEAT_COUNT e
      (used, if count ≠ 0 ∧ count ≤ j then d.wrB F.WT_CMP_OUT_DONE e true else d)

/-- The occurrences of the boundary tk that opens beat k (R109). Log entry 48 (DEDUCED). -/
def Dev.predictCompare (d : Dev) (tk : Nat) : Dev :=
  if !d.web.started ∨ !d.predicts then d
  else (d.cmpEntries.foldl (Dev.predictCmp tk ((d.beat + 2) * 4000)) (0, d)).2

/-- An accepted cue restarts every entry that is RELATIVE since the opening boundary (R109, R111). -/
def Dev.cmpCue (d : Dev) : Dev :=
  (cmpWith d.regsOpen 33).foldl (fun d e => (d.setCmpJ e 0).wrB F.WT_CMP_OUT_DONE e false) d

/-- A write to a register of a compare entry; enabling the entry sets j to 0 (R111). Log entry 48 (DEDUCED). -/
def Dev.wCmp (d : Dev) (r : Reg) (e val mask : Nat) : Dev :=
  let was := d.on F.WT_CMP_OUT_ENABLE e
  let d := d.store r e val mask
  if !was && d.on F.WT_CMP_OUT_ENABLE e then (d.setCmpJ e 0).wrB F.WT_CMP_OUT_DONE e false else d

def pinsOf (ps : List Pulse) : BitVec 8 := BitVec.ofNat 8 (ps.foldl (fun m p => Nat.lor m p.mask) 0)

/-- The earliest emitted occurrence that has MARK pins to pulse: they rise (R110). -/
def Dev.markStart (d : Dev) : Dev :=
  match d.web.occ.find? fun o => decide (o.mask ≠ 0) with
  | none => d
  | some o =>
    let pulses := d.web.pulses ++ [⟨o.mask, o.t, o.t + o.width⟩]
    let occ := (d.web.occ.map fun p => if p = o then { p with mask := 0 } else p).filter fun p => decide (p.mask ≠ 0 ∨ p.cams ≠ 0)
    { d with web.occ := occ, web.pulses := pulses, web.mark := pinsOf pulses }

/-- The pulse that ends first ends; a pin stays high while another pulse covers it (R110). -/
def Dev.markEnd (d : Dev) : Dev :=
  match d.web.pulses with
  | [] => d
  | p :: ps =>
    let first := ps.foldl (fun b q => if q.stop < b.stop then q else b) p
    let rest := (p :: ps).erase first
    { d with web.pulses := rest, web.mark := pinsOf rest }

/-! ### Cues -/

/-- The position at a cue's stamp, from the observer values at the opening boundary of its beat (R107). -/
def Dev.cuePos (d : Dev) (stamp : Nat) : Int :=
  match d.web.snaps.find? fun s => decide (s.t ≤ stamp) with
  | some s => posAt s.x s.v s.a ((stamp : Int) - s.t)
  | none => posAt d.web.x d.web.v d.web.a ((stamp : Int) - d.web.ts)

/-- S of a cue (R107). -/
def Dev.cueStart (d : Dev) (stamp : Nat) : Int :=
  -((-(d.cuePos stamp + d.rdS F.WT_CUE_CFG_CUE_DELAY * 2 ^ 16)) / 2 ^ 32)

/-- The page at the head of the queue. -/
def Dev.headPage (d : Dev) : Option Page := d.cdc.pages.find? fun p => p.start.isNone

/-- Why a cue is rejected, in the order of R108: 0 if it is not. -/
def Dev.cueCause (d : Dev) (stamp : Nat) : Nat :=
  if !d.on F.WT_CUE_CFG_ENABLE then 4
  else if d.headPage.isNone || d.pat.hold then 1
  else if d.webState = 3 ∨ (d.webState ≠ 2 ∧ d.suspended) then 3
  else match d.web.prevPage with
    | some (s, l) => if d.cueStart stamp < s + l then 2 else 0
    | none => 0

/-- What an accepted cue does in the web tracker and the page queue (R103, R107, R109). -/
def Dev.startPage (d : Dev) (p : Page) (start : Int) : Dev :=
  let d := d.setPage p.uid fun p => { p with start := some start, inProgress := true }
  let d := { d with
    web.prevPage := some (start, p.lines)
    web.lastPage := p.uid
    web.cues := d.web.cues + 1
    web.hw := d.web.pm
    web.revOver := false
    web.revDue := false }
  let d := (d.wr F.WT_DEBT_D 0 0).wr F.WT_STAT_SUSPENDED 0 0 |>.wr F.WT_STAT_SUSP_CAUSE 0 0
  let d := (d.wrS F.WT_PAGE_START 0 start).wrB F.WT_PAGE_ACTIVE 0 true |>.wrB F.WT_PAGE_SUSPECT 0 p.suspect
  d.cmpCue

/-- A write to WT_CUE_CFG; SOFT issues a cue stamped now (R107). -/
def Dev.wWtCue (d : Dev) (val mask : Nat) : Dev :=
  let d := d.store R.WT_CUE_CFG 0 val mask
  if (Nat.land val mask).testBit 49 then { d with web.soft := d.web.soft ++ [d.now] } else d

/-! ### The commands -/

def execIdxArm (m : Master) (n : Fin 4) (s : State) : Host.Outcome State Fault Refusal :=
  s.act fun d => d.writeTo m R.WT_Qn_CFG n fun d => d.wrB F.WT_Qn_CFG_IDX_ARM n true

def execWtScaleWrite (m : Master) (val : Nat) (s : State) : Host.Outcome State Fault Refusal :=
  s.act fun d => d.writeTo m R.WT_SCALE 0 fun d => d.wWtScale val mask32

def execWebStandstill (s : State) : Host.Outcome State Fault Refusal := s.act Dev.standstill

def execWebSettled (s : State) : Host.Outcome State Fault Refusal := s.act Dev.settled

def execWebRecovered (s : State) : Host.Outcome State Fault Refusal := s.act Dev.recovered

def execWebCoastExhausted (s : State) : Host.Outcome State Fault Refusal := s.act Dev.coastExhausted

def execWebReversed (s : State) : Host.Outcome State Fault Refusal := s.act Dev.reversed

def execSoftCue (m : Master) (bytes val : Nat) (s : State) : Host.Outcome State Fault Refusal :=
  s.act fun d => d.writeTo m R.WT_CUE_CFG 0 fun d =>
    if bytes = 8 then d.wWtCue val mask64 else d.wWtCue (val % 2 ^ 32 * 2 ^ 32) maskHi

/-- The compare registers that an address names. -/
def cmpReg (addr : Nat) : Reg × Nat :=
  let e := (addr - regSpace - cmpBase) / 32
  if addr % 32 / 8 = 0 then (R.WT_CMP_START, e)
  else if addr % 32 / 8 = 1 then (R.WT_CMP_REPEAT, e) else (R.WT_CMP_OUT, e)

def execCmpEntryWrite (m : Master) (addr bytes val : Nat) (s : State) : Host.Outcome State Fault Refusal :=
  s.act fun d =>
    let (r, e) := cmpReg addr
    if addr < regSpace + cmpBase ∨ 4096 ≤ e ∨ addr % 32 / 8 = 3 then d
    else d.writeTo m r e fun d =>
      if bytes = 8 then d.wCmp r e val mask64
      else if addr % 8 = 4 then d.wCmp r e (val * 2 ^ 32) maskHi
      else d.wCmp r e val mask32

def execMarkPulseStart (s : State) : Host.Outcome State Fault Refusal := s.act Dev.markStart

def execMarkPulseEnd (s : State) : Host.Outcome State Fault Refusal := s.act Dev.markEnd

end Sys2Proof.Machine
end

