-- ==== Sys2Proof/Machine/Codec.lean ====
section
/-!
DEFINITION. Chapter 7: the page queue, the decode lanes with their band buffers and the spare lane, the line window's contents
(R138, R139), and the encode lanes.
-/

namespace Sys2Proof.Machine

/-! ### The page queue -/

/-- Pages queued and not yet taken by a cue. -/
def Dev.queued (d : Dev) : List Page := d.cdc.pages.filter fun p => p.start.isNone

/-- Strips of a page that STRIP_MASK presents. -/
def Page.strips (p : Page) : List Nat := (List.range 16).filter fun s => p.mask.testBit s

/-- Band 0 of every present strip is complete and has not failed its check (R125). Log entry 188 (DEDUCED). -/
def Page.isReady (p : Page) : Bool := p.strips.all fun s => p.ready.testBit s

/-- CD_QSTAT DEPTH and CD_HEAD follow the queue. -/
def Dev.showQueue (d : Dev) : Dev :=
  let d := d.wr F.CD_QSTAT_DEPTH 0 d.queued.length
  match d.headPage with
  | some p => ((d.wr F.CD_HEAD_PAGE_ID 0 p.pageId).wr F.CD_HEAD_LINES 0 p.lines).wrB F.CD_HEAD_READY 0 p.isReady
  | none => d.setReg R.CD_HEAD 0 0

/-- A write to CD_PAGE_PUSH (R116): the low word only stores, the high word pushes. Log entry 56 (DEDUCED). -/
def Dev.wPush (d : Dev) (m : Master) (val mask : Nat) : Dev :=
  let v := Nat.xor d.cdc.push (Nat.land (Nat.xor d.cdc.push val) mask)
  let d := { d with cdc.push := v }
  if mask / 2 ^ 32 = 0 then d
  else
    let addr := bitsOf v 39 6 * 64
    let port := portOf m
    if 64 ≤ d.queued.length + d.cdc.reading.length then
      (d.wr F.CD_QSTAT_OVERFLOW 0 1).raise (toWriter port) 0x0701 [(5, addr)]
    else { d with cdc.reading := d.cdc.reading ++ [(addr, port)] }

/-- The world of a page's reads: that of the host that pushed it (R117). -/
def Dev.pushWorld (d : Dev) (port : Option (Fin 2)) : Bool :=
  match port with | some p => d.portSecure p | none => true

/-- A codec read: refused without WORLD_VIOLATION (R117). -/
def Dev.fetch (d : Dev) (req : Nat) (port : Option (Fin 2)) (a len : Nat) : Mem (List Byte) × Dev :=
  match d.checkDram (d.pushWorld port) a len with
  | .pass => d.dramRead req (d.pushWorld port) port a len
  | .unmapped => (.unmapped, d)
  | .world => (.world, d)

/-- PAGE_REJECTED (R116). -/
def Dev.rejectPage (d : Dev) (port : Option (Fin 2)) (addr cause : Nat) : Dev :=
  d.raise (toWriter port) 0x0702 [(5, addr), (1, cause)]

/-- PAGE_DECODED once the last band of every present strip is complete (R118). Log entry 56 (DEDUCED). -/
def Dev.pageDecoded (d : Dev) (uid : Nat) : Dev :=
  match d.page uid with
  | none => d
  | some p =>
    if p.decoded || !(p.strips.all fun s => decide (p.bands ≤ at' p.complete s)) then d
    else (d.setPage uid fun p => { p with decoded := true }).raise (toWriter p.port) 0x0703 [(4, p.pageId), (8, p.tag)]

/-- A field outside its values (R114); BAND_TABLE is an internal address, of 40 bits (R23). Log entry 55 (DEDUCED). -/
def descBad (b : List Byte) : Bool :=
  let lines := sliceNat b 4 4
  !(decide (1 ≤ lines) && (decide (lines ≤ 0xFFFFFF) && (decide (sliceNat b 0xA 2 < 2) &&
    (decide (sliceNat b 0xC 4 = (lines + 255) / 256) &&
      (decide (sliceNat b 0x10 8 % 16 = 0) && (decide (sliceNat b 0x10 8 < 2 ^ 40) && decide (sliceNat b 0x20 28 = 0)))))))

/-- The codec reads and checks the oldest pushed descriptor (R116); during a speed change it waits (R266). -/
def Dev.checkDescriptor (d : Dev) : Dev :=
  match d.cdc.reading with
  | [] => d
  | (addr, port) :: rest =>
    let d' := d
    let d := { d with cdc.reading := rest }
    if d.frontHeld then d'
    else match d.fetch 19 port addr 64 with
    | (.bad _, d) => d.rejectPage port addr 4
    | (.ok b, d) =>
      if sliceNat b 0x3C 4 ≠ crc32 (b.take 0x3C) then d.rejectPage port addr 1
      else if descBad b then d.rejectPage port addr 2
      else
        let p : Page := {
          uid := d.cdc.nextUid, addr := addr, pageId := sliceNat b 0 4, lines := sliceNat b 4 4, mask := sliceNat b 8 2
          check := (sliceNat b 0xA 2).testBit 0, bands := sliceNat b 0xC 4, table := sliceNat b 0x10 8
          tag := sliceNat b 0x18 8, port := port, held := d.pat.hold }
        ({ d with cdc.pages := d.cdc.pages ++ [p], cdc.nextUid := d.cdc.nextUid + 1 }.pageDecoded p.uid).showQueue
    | (_, d) => d.rejectPage port addr 3

/-! ### Decode lanes -/

/-- The strip that a lane serves (R125, R128). -/
def Dev.laneStrip (d : Dev) (lane : Nat) : Option Nat :=
  if lane < 16 then (if d.bit F.CD_LANE_MAP_FAILED lane then none else some lane)
  else if d.rd F.CD_LANE_MAP_SPARE_STATE = 2 then some (d.rd F.CD_LANE_MAP_SPARE_FOR) else none

/-- The page whose band a strip decodes next (R125): pages in order, band 0 only of a page that a cue has taken or that heads the
queue, the band before it complete. -/
def Dev.nextBand (d : Dev) (s : Nat) : Option Page :=
  match d.cdc.pages.find? fun p => p.mask.testBit s && decide (at' p.begun s < p.bands) with
  | none => none
  | some p =>
    let head := p.start.isSome || decide (d.headPage.map Page.uid = some p.uid)
    if head && (!p.held && decide (at' p.begun s = at' p.complete s)) then some p else none

def Dev.mapBufs (d : Dev) (f : Buf → Buf) : Dev := { d with cdc.bufs := d.cdc.bufs.map f }

/-- Change the buffer that holds the same band as b. -/
def Dev.setBuf (d : Dev) (b : Buf) (f : Buf → Buf) : Dev :=
  d.mapBufs fun x => if x.uid = b.uid ∧ x.strip = b.strip ∧ x.band = b.band then f x else x

def Dev.mapPages (d : Dev) (f : Page → Page) : Dev := { d with cdc.pages := d.cdc.pages.map f }

def Dev.stripBufs (d : Dev) (s : Nat) : List Buf := d.cdc.bufs.filter fun b => decide (b.strip = s)

/-- A lane begins the next band of its strip (R125). -/
def Dev.startBand (d : Dev) (lane : Nat) : Dev :=
  match d.laneStrip lane with
  | none => d
  | some s =>
    if !d.funcOn .dec ∨ 2 ≤ (d.stripBufs s).length ∨ (d.stripBufs s).any (fun b => !b.done) then d
    else match d.nextBand s with
      | none => d
      | some p =>
        let b := at' p.begun s
        let d := d.setPage p.uid fun p => { p with begun := p.begun.set s (b + 1) }
        { d with cdc.bufs := d.cdc.bufs ++ [{ strip := s, lane := lane, uid := p.uid, band := b }] }

/-- Bytes of band b of a page (R112). -/
def Page.bandSize (p : Page) (b : Nat) : Nat := min 256 (p.lines - 256 * b) * 1024

/-- The granules of a stream that can be read, lowest first, up to the first that is refused or uncorrectable: how many bytes
they hold of it. Log entry 61 (DEDUCED). -/
def Dev.readable (d : Dev) (port : Option (Fin 2)) (a len : Nat) : Nat :=
  match (granules a len).find? fun g =>
    let lo := max a g
    d.granuleBad g || decide (d.checkDram (d.pushWorld port) lo (min (a + len) (g + 128) - lo) ≠ .pass) with
  | none => len
  | some g => max a g - a

/-- Read a band's table entry and stream and decode it (R115, R124): result, contents, OUT_CRC. The stream is read as far as the
decoding goes, with the code words that came back miscorrected (R252). Log entry 61 (DEDUCED). -/
def Dev.decodeOne (d : Dev) (p : Page) (band s : Nat) : (BandResult × List Byte × Nat) × Dev :=
  let size := p.bandSize band
  let zero := List.replicate size (0 : Byte)
  match d.fetch 19 p.port (p.table + band * 256 + s * 16) 16 with
  | (.bad _, d) => ((.mem, zero, 0), d)
  | (.ok e, d) =>
    let a := sliceNat e 0 8
    let len := sliceNat e 8 4
    if len < 2 then ((.badHeader, zero, sliceNat e 12 4), d)
    else
      let n := d.readable p.port a len
      let wrong := (granules a n).flatMap fun g => ((d.drm.fetched.find? fun f => decide (f.rq = 3 ∧ f.g = g)).map Fetch.wrong).getD []
      let (bs, d) := d.misread a n wrong
      let (r, out, dry, used) := decodeBand size bs
      let d := (granules a used).foldl (fun (d : Dev) g => (d.takeGranule 3 p.port g).2) d
      if n = len ∨ !dry then ((r, out, sliceNat e 12 4), d)
      else match d.fetch 3 p.port (a + n) 1 with
        | (.bad _, d) => ((.mem, zero, 0), d)
        | (_, d) => ((.access, zero, 0), d)
  | (_, d) => ((.access, zero, 0), d)

/-- Result codes of BAND_ERROR, in the order of R124 (log entry 11). -/
def BandResult.code : BandResult → Nat
  | .ok => 0 | .expansion => 1 | .short => 2 | .badHeader => 3 | .badCode => 4 | .access => 5 | .mem => 6 | .crc => 7

/-- The counter of a result. -/
def Dev.countBand (d : Dev) (r : BandResult) : Dev :=
  match r with
  | .ok => d
  | .expansion => d.count F.CD_BAND_ERR_EXPANSION 0 1
  | .short => d.count F.CD_BAND_ERR_SHORT 0 1
  | .crc => d.count F.CD_BAND_ERR_CRC 0 1
  | _ => d.count F.CD_BAND_ERR_BAD 0 1

/-- A band ends in its one result (R124); any but OK makes its page suspect (R364). Band 0 counts for READY unless it failed its
CRC check (R125). Log entries 166 (DEDUCED), 188 (DEDUCED). -/
def Dev.endBand (d : Dev) (b : Buf) (r : BandResult) (data : List Byte) : Dev :=
  let d := d.setBuf b fun x => { x with done := true, again := false, data := data }
  match d.page b.uid with
  | none => d
  | some p =>
    let d := if r = .ok then d
      else ((d.suspect p.uid).countBand r).raise (toWriter p.port) 0x0704 [(4, p.pageId), (4, b.band), (1, b.strip), (1, r.code)]
    let d := d.setPage b.uid fun p => { p with
      complete := p.complete.modify b.strip (· + 1)
      ready := if b.band = 0 ∧ r ≠ .crc then Nat.lor p.ready (2 ^ b.strip) else p.ready }
    (d.pageDecoded b.uid).showQueue

/-- A fault of a lane alters one byte of its output. -/
def upset (err : Option (Nat × BitVec 8)) (bs : List Byte) : List Byte :=
  match err with
  | some (i, v) => bs.set i v
  | none => bs

/-- Results that are compared with OUT_CRC (R124, R128). -/
def BandResult.checked : BandResult → Bool
  | .ok | .expansion | .short => true
  | _ => false

/-- A lane reaches the end of its band (R124, R128). Log entry 56 (DEDUCED). -/
def Dev.bandDone (d : Dev) (lane : Nat) (err : Option (Nat × BitVec 8)) : Dev :=
  match d.cdc.bufs.find? fun b => decide (b.lane = lane) && (!b.done && !b.again) with
  | none => d
  | some b =>
    match d.page b.uid with
    | none => d
    | some p =>
      let ((r, out, crc), d) := d.decodeOne p b.band b.strip
      let out := if r.checked then upset err out else out
      if p.check && r.checked && decide (crc32 out ≠ crc) then
        if d.rd F.CD_LANE_MAP_SPARE_STATE = 0 then
          (d.setBuf b fun x => { x with again := true, crc := crc }).wr F.CD_LANE_MAP_SPARE_STATE 0 1
        else d.endBand b .crc (List.replicate out.length 0)
      else d.endBand b r out

/-- The spare's second decode ends (R128). -/
def Dev.spareDone (d : Dev) (err : Option (Nat × BitVec 8)) : Dev :=
  match d.cdc.bufs.find? fun b => b.again with
  | none => d
  | some b =>
    match d.page b.uid with
    | none => d
    | some p =>
      let ((r, out, _), d) := d.decodeOne p b.band b.strip
      let out := if r.checked then upset err out else out
      if r.checked && decide (crc32 out = b.crc) then
        let d := (d.wr F.CD_LANE_MAP_SPARE_STATE 0 2).wr F.CD_LANE_MAP_SPARE_FOR 0 b.lane
        let d := d.wrBit F.CD_LANE_MAP_FAILED b.lane 0 true
        let d := d.mapBufs fun x => if x.strip = b.strip then { x with lane := 16 } else x
        (d.endBand b r out).raise .secure 0x0706 [(1, b.lane)]
      else (d.wr F.CD_LANE_MAP_SPARE_STATE 0 0).endBand b .crc (List.replicate (p.bandSize b.band) 0)

/-- Start work of the decode lanes (R74, R129): buffers cleared, the lane map applied, the queue begun afresh. What a page in
progress had not yet decoded falls due late. -/
def Dev.startDecode (d : Dev) : Dev :=
  let d := { d with cdc.bufs := [] }.mapPages fun p =>
    if p.start.isSome then { p with begun := List.replicate 16 p.bands, written := List.replicate 16 p.lines }
    else { p with begun := List.replicate 16 0, complete := List.replicate 16 0, ready := 0 }
  let d := if d.on F.CD_LANE_FORCE_FORCE ∧ d.rd F.CD_LANE_MAP_SPARE_STATE ≠ 2 then
      let l := d.rd F.CD_LANE_FORCE_LANE
      ((d.wr F.CD_LANE_MAP_SPARE_STATE 0 2).wr F.CD_LANE_MAP_SPARE_FOR 0 l).wrBit F.CD_LANE_MAP_FAILED l 0 true
    else if d.rd F.CD_LANE_MAP_SPARE_STATE = 1 then d.wr F.CD_LANE_MAP_SPARE_STATE 0 0 else d
  d.showQueue

/-- Stop work of the decode lanes (R74). Log entry 57 (DESIGN CHOICE). -/
def Dev.stopDecode (d : Dev) : Dev := { d with cdc.bufs := [] }

/-! ### The line window -/

/-- The address of a line's slot (R138). -/
def Dev.slotAddr (d : Dev) (line : Int) : Nat :=
  d.pat.loaded.gauge.windowBase + (line % (d.windowLines : Int)).toNat * 16384

/-- The release mark RM (R140). -/
def Dev.releaseMark (d : Dev) : Int := d.rdS F.LA_RELEASE_RM

/-- Record a line in a strip. -/
def recordLine (uid : Nat) (line : Int) (noInk : Bool) : List WinSeg → List WinSeg
  | [] => [⟨uid, line, line + 1, line, noInk⟩]
  | g :: gs => if g.uid = uid ∧ g.hi = line ∧ g.noInk = noInk then { g with hi := line + 1 } :: gs else g :: recordLine uid line noInk gs

/-- A strip writes the next line of its page to the window (R126, R139). Log entry 58 (DEDUCED). -/
def Dev.writeStripLine (d : Dev) (s : Nat) : Dev :=
  match d.cdc.pages.find? fun p => p.start.isSome && decide (at' p.written s < p.lines) with
  | none => d
  | some p =>
    let j := at' p.written s
    let line : Int := (p.start).getD 0 + j
    if d.releaseMark + d.windowLines ≤ line then d
    else
      let next := fun (d : Dev) (noInk : Bool) =>
        { d.setPage p.uid (fun p => { p with written := p.written.set s (j + 1) }) with
          cdc.win := d.cdc.win.modify s (recordLine p.uid line noInk) }
      if !p.mask.testBit s then next d true
      else match d.cdc.bufs.find? fun b => decide (b.uid = p.uid ∧ b.strip = s ∧ b.band = j / 256) && b.done with
        | none => d
        | some b =>
          let bytes := (b.data.drop (j % 256 * 1024)).take 1024
          let (_, d) := d.dramWrite 2 (d.masterSecure 2) none (d.slotAddr line + s * 1024) bytes
          let d := next d false
          if j % 256 = 255 ∨ j + 1 = p.lines then { d with cdc.bufs := d.cdc.bufs.erase b } else d

/-- Every segment is recorded as empty (R139, R57). -/
def Dev.emptyWindow (d : Dev) : Dev := { d with cdc.win := List.replicate 16 [] }

/-- At an opening boundary what has been written counts as written before it. Log entry 154 (DESIGN CHOICE). -/
def Dev.ageWindow (d : Dev) : Dev :=
  { d with cdc.win := d.cdc.win.map fun segs => segs.map fun g => { g with old := g.hi } }

/-! ### Encode lanes -/

def Dev.enc (d : Dev) (n : Nat) : EncJob := at' d.cdc.enc n

def Dev.setEnc (d : Dev) (n : Nat) (f : EncJob → EncJob) : Dev := { d with cdc.enc := d.cdc.enc.modify n f }

def Dev.encState (d : Dev) (n : Nat) : Nat := d.rd F.CD_ENCn_STAT_STATE n

/-- The lane stalls: SKEIN_STARVED, once for each stall, so not at a KICK that again finds no buffer (R132). -/
def Dev.starve (d : Dev) (n : Nat) : Dev :=
  if d.encState n = 2 then d
  else ((d.setEnc n fun j => { j with desc := none }).wr F.CD_ENCn_STAT_STATE n 2).raise (toWriter (d.enc n).port) 0x0707
    [(1, n), (2, (d.enc n).tag)]

/-- Take the next skein buffer, or stall (R132): NEXT of the last full buffer's descriptor, else CD_ENCn_SKEIN. -/
def Dev.openBuffer (d : Dev) (n : Nat) : Dev :=
  let j := d.enc n
  let (addr, d) := match j.last with
    | none => (some (d.rd F.CD_ENCn_SKEIN_ADDR n * 32), d)
    | some l =>
      match d.dramRead 4 j.secure j.port (l + 0x18) 8 with
      | (.ok b, d) => (if ofLeBytes b = 0 then none else some (ofLeBytes b), d)
      | (_, d) => (none, d)
  match addr with
  | none => d.starve n
  | some a =>
    match d.dramRead 4 j.secure j.port a 32 with
    | (.ok b, d) =>
      let size := sliceNat b 8 4
      if (sliceNat b 0xC 4).testBit 0 ∧ 64 ≤ size ∧ size ≤ 16777216 then
        (d.setEnc n fun j => { j with desc := some a }).wr F.CD_ENCn_STAT_STATE n 1
      else d.starve n
    | (_, d) => d.starve n

/-- Bits that the buffer in use can hold. -/
def Dev.encRoom (d : Dev) (n : Nat) : Nat :=
  match (d.enc n).desc with
  | some a => d.load (a + 8) 4 * 8
  | none => 0

/-- Put `bits` of the output into the buffer in use and release it to the host (R131). Log entry 55 (DEDUCED). -/
def Dev.giveBuffer (d : Dev) (n bits : Nat) (last : Bool) : Dev :=
  let j := d.enc n
  match j.desc with
  | none => d
  | some a =>
    let w := fun (d : Dev) (addr : Nat) (bs : List Byte) => (d.dramWrite 4 j.secure j.port addr bs).2
    let flags := d.load (a + 0xC) 4
    let flags := flags - flags % 2
    let flags := if last then Nat.lor flags 2 else flags
    let d := w d (d.load a 8) (bitSlice j.stream j.done bits)
    let d := w d (a + 0x10) (leBytes 4 bits ++ leBytes 4 j.tag)
    let d := w d (a + 0xC) (leBytes 4 flags)
    d.setEnc n fun j => { j with done := j.done + bits, desc := none, last := some a }

/-- The job ends: the final buffer, and ENCODE_DONE (R131, R133). -/
def Dev.endEncode (d : Dev) (n : Nat) (err : Bool) : Dev :=
  let j := d.enc n
  let d := d.giveBuffer n (min (j.bits - j.done) (d.encRoom n)) true
  let d := (d.wr F.CD_ENCn_STAT_STATE n 3).wrB F.CD_ENCn_STAT_ERR n err
  d.raise (toWriter j.port) 0x0708 [(2, j.tag), (4, j.input.length), (4, j.bits), (1, if err then 1 else 0)]

/-- A job reads its source (R133) and takes its first buffer. -/
def Dev.startEncode (d : Dev) (n : Nat) : Dev :=
  let j := d.enc n
  match j.source with
  | none => d
  | some (a, len) =>
    let (input, failed, d) := d.readSource 4 j.secure j.port a len
    let (stream, bits) := encodeStream j.mode input
    (d.setEnc n fun j => { j with input := input, failed := failed, source := none, stream := stream, bits := bits }).openBuffer n

/-- A write of GO (R133); its reads wait while the memory front holds new requests (R266). Log entry 55 (DEDUCED). Log entry 179 (DEDUCED). -/
def Dev.encodeGo (d : Dev) (m : Master) (n : Nat) : Dev :=
  if !d.funcOn .enc ∨ d.encState n = 1 ∨ d.encState n = 2 then d
  else
    let d := d.setEnc n fun _ => {
      tag := d.rd F.CD_ENCn_CTRL_TAG n, port := portOf m, secure := d.secureMaster m, mode := d.on F.CD_ENCn_CTRL_MODE n
      source := some (d.rd F.CD_ENCn_SRC_ADDR n, d.rd F.CD_ENCn_SRC_LEN n) }
    let d := (d.wr F.CD_ENCn_STAT_STATE n 1).wrB F.CD_ENCn_STAT_ERR n false
    if d.frontHeld then d.hold (.encode n) else d.startEncode n

/-- A write of KICK (R132); its reads wait while the memory front holds new requests (R266). Log entry 179 (DEDUCED). -/
def Dev.encodeKick (d : Dev) (n : Nat) : Dev :=
  if d.encState n ≠ 2 then d else if d.frontHeld then d.hold (.encode n) else d.openBuffer n

/-- The memory front takes up the requests it held, oldest first. Log entry 179 (DEDUCED). -/
def Dev.serveHeld (d : Dev) : Dev :=
  d.drm.held.foldl (fun (d : Dev) (r : Held) => match r with
    | .read p addr len => d.serveRead p addr len
    | .write p addr data => d.serveWrite p addr data
    | .encode n => if d.encState n = 2 then d.openBuffer n else d.startEncode n) { d with drm.held := [] }

/-- A write to CD_ENCn_CTRL. -/
def Dev.wEnc (d : Dev) (m : Master) (n val mask : Nat) : Dev :=
  let v := Nat.land val mask
  let d := d.store R.CD_ENCn_CTRL n val mask
  let d := if v.testBit 0 then d.encodeGo m n else d
  if v.testBit 1 then d.encodeKick n else d

/-- A full buffer, with output left over (R131). -/
def Dev.bufferFull (d : Dev) (n : Nat) : Dev :=
  let j := d.enc n
  let room := d.encRoom n
  if !d.frontHeld ∧ d.encState n = 1 ∧ j.desc.isSome ∧ room < j.bits - j.done then (d.giveBuffer n room false).openBuffer n else d

/-- The output fits the buffer in use: the job ends, by the end of the input or by the failed read. -/
def Dev.encodeEnd (d : Dev) (n : Nat) (failed : Bool) : Dev :=
  let j := d.enc n
  if !d.frontHeld ∧ d.encState n = 1 ∧ j.desc.isSome ∧ j.bits - j.done ≤ d.encRoom n ∧ j.failed = failed then d.endEncode n failed else d

/-- Stop work of an encode lane (R74): a job ends as if a source read had failed after some of its input. Log entry 57 (DESIGN CHOICE). -/
def Dev.stopEncode (d : Dev) (n : Nat) : Dev :=
  if d.encState n ≠ 1 ∧ d.encState n ≠ 2 then d
  else
    let j := d.enc n
    let (k, d) := d.free (j.input.length + 1)
    let part := j.input.take k
    let (stream, bits) := encodeStream j.mode part
    let keep := decide (bitSlice stream 0 j.done = bitSlice j.stream 0 j.done ∧ j.done ≤ bits)
    let d := if keep then d.setEnc n fun j => { j with input := part, stream := stream, bits := bits } else d
    (d.setEnc n fun j => { j with source := none }).endEncode n true

/-! ### The commands -/

def execPagePush (m : Master) (bytes val : Nat) (s : State) : Host.Outcome State Fault Refusal :=
  s.act fun d => d.writeTo m R.CD_PAGE_PUSH 0 fun d =>
    if bytes = 8 then d.wPush m val mask64 else d.wPush m (val % 2 ^ 32 * 2 ^ 32) maskHi

def execPagePushLowWrite (m : Master) (val : Nat) (s : State) : Host.Outcome State Fault Refusal :=
  s.act fun d => d.writeTo m R.CD_PAGE_PUSH 0 fun d => d.wPush m val mask32

def execDescriptorCheck (s : State) : Host.Outcome State Fault Refusal := s.actInOrder Dev.checkDescriptor

def execBandDecodeStart (lane : Fin 17) (s : State) : Host.Outcome State Fault Refusal := s.act fun d => d.startBand lane

def execBandDecodeDone (lane : Fin 17) (err : Option (Nat × BitVec 8)) (s : State) : Host.Outcome State Fault Refusal :=
  s.actInOrder fun d => d.bandDone lane err

def execSpareDecodeDone (err : Option (Nat × BitVec 8)) (s : State) : Host.Outcome State Fault Refusal :=
  s.actInOrder fun d => d.spareDone err

def execStripLineWrite (strip : Fin 16) (s : State) : Host.Outcome State Fault Refusal := s.act fun d => d.writeStripLine strip

def execEncodeGo (m : Master) (n : Fin 4) (val : Nat) (s : State) : Host.Outcome State Fault Refusal :=
  s.act fun d => d.writeTo m R.CD_ENCn_CTRL n fun d => d.wEnc m n val mask32

def execEncodeKick (m : Master) (n : Fin 4) (s : State) : Host.Outcome State Fault Refusal :=
  s.act fun d => d.writeTo m R.CD_ENCn_CTRL n fun d => d.encodeKick n

def execSkeinBufferFull (n : Fin 4) (s : State) : Host.Outcome State Fault Refusal := s.act fun d => d.bufferFull n

def execEncodeReadFail (n : Fin 4) (s : State) : Host.Outcome State Fault Refusal := s.act fun d => d.encodeEnd n true

def execEncodeDone (n : Fin 4) (s : State) : Host.Outcome State Fault Refusal := s.act fun d => d.encodeEnd n false

end Sys2Proof.Machine
end

