-- ==== Sys2Proof/Machine/Assembly.lean ====
section
/-!
DEFINITION. Chapter 8: geometry, window reads, slices, blending, heads out, switch points and swatches; and the substitution map of
chapter 13 as step 6 of R142 uses it (R236 to R239).
-/

namespace Sys2Proof.Machine

/-! ### Geometry -/

def Dev.gauge (d : Dev) : Gauge := d.pat.loaded.gauge

def Dev.headSec (d : Dev) (h : Nat) : HeadSec := at' d.gauge.heads h

def Dev.headCount (d : Dev) : Nat := d.gauge.heads.length

/-- N# of nozzle k of row r of head h (R135). -/
def nozzleIdx (h r k : Nat) : Nat := h * 4096 + r * 2048 + k

/-- The head that overlaps column c with head h, and whether h is the left one of the two (R136). -/
def Dev.overlap (d : Dev) (h c : Nat) : Option (Nat × Bool) :=
  if d.gauge.selvedge = 0 then none
  else
    let f := (d.headSec h).firstCol
    match (d.gauge.heads.zipIdx).find? fun p => decide (p.2 ≠ h) && (decide (p.1.firstCol ≤ c) && decide (c < p.1.firstCol + 2048)) with
    | some (g, i) => some (i, decide (f < g.firstCol))
    | none => none

/-- The heads that are out in the beat in progress (R146). -/
def Dev.outMask (d : Dev) : Nat := d.rd F.LA_HEAD_OUT_OUT

/-- Head h is out in the beat in progress (R146). -/
def Dev.headIsOut (d : Dev) (h : Nat) : Bool := d.outMask.testBit h

/-! ### Switch points (R148) -/

/-- Two changes are of the same field. -/
def sameField : Change → Change → Bool
  | .host _, .host _ => true
  | .auto _, .auto _ => true
  | .blend _, .blend _ => true
  | .subst a _ _ _ _ _ _, .subst b _ _ _ _ _ _ => decide (a = b)
  | _, _ => false

/-- Every row has passed a LINE# (R107). Log entry 52 (DEDUCED). -/
def Dev.allPast (d : Dev) (n : Int) : Bool := d.web.rows.all fun r => decide (n < r.next)

/-- A line's shift, margin, mode and mask: the most recently written change whose point lies at or below it. -/
def Dev.hostAt (d : Dev) (n : Int) : Int :=
  d.las.switches.foldl (fun v s => match s.what, s.point with
    | .host w, some p => if p ≤ n then w else v
    | _, _ => v) d.las.host

def Dev.autoAt (d : Dev) (n : Int) : Int :=
  d.las.switches.foldl (fun v s => match s.what, s.point with
    | .auto w, some p => if p ≤ n then w else v
    | _, _ => v) d.las.auto

/-- SHIFT of a line (R147). -/
def Dev.shiftAt (d : Dev) (n : Int) : Int := clampInt (-1024) 1023 (d.hostAt n + d.autoAt n)

def Dev.blendAt (d : Dev) (n : Int) : BlendSet :=
  d.las.switches.foldl (fun v s => match s.what, s.point with
    | .blend w, some p => if p ≤ n then w else v
    | _, _ => v) d.las.blend

/-- The device as line assembly sees it in a build: the switch points as they stood at the opening boundary (R18). -/
def Dev.asOpened (d : Dev) : Dev :=
  { d with
    las.switches := d.las.opened.switches
    las.host := d.las.opened.host
    las.auto := d.las.opened.auto
    las.blend := d.las.opened.blend }

/-- Known points that some row has not passed. -/
def openPoints (l : List Switch) : Nat := (l.filter fun s => s.point.isSome && !s.passed).length

def Dev.mapSwitches (d : Dev) (f : List Switch → List Switch) : Dev := { d with las.switches := f d.las.switches }

/-- A change is held as a ninth. -/
def Dev.holdSwitch (d : Dev) (w : Switch) : Dev := d.mapSwitches fun l => l.map fun s => if s = w then { s with held := true } else s

/-- A change gets its point N: earlier changes of its field with a point above N go. Log entry 52 (DEDUCED). -/
def givePoint (w : Switch) (n : Int) (l : List Switch) : List Switch :=
  (l.filter fun s => !(sameField s.what w.what && (match s.point with | some p => decide (n < p) | none => false))).map fun s =>
    if s = w then { s with point := some n, held := false } else s

/-- The point of a NEXT_LINE change: one past the highest line of any slice built so far. -/
def Dev.nextLinePoint (d : Dev) : Int := match d.las.highest with | some h => h + 1 | none => -(2 ^ 47)

/-- A NEXT_LINE change still without a point. -/
def Switch.waits (s : Switch) : Bool := s.nextLine && s.point.isNone

/-- A NEXT_LINE change that leaves at most 8 points open if it is given its point now. Log entry 53 (DEDUCED). -/
def Dev.fitsNow (d : Dev) (w : Switch) : Bool :=
  w.waits && decide (openPoints (givePoint w d.nextLinePoint d.las.switches) ≤ 8)

/-- Hold or release changes: each NEXT_LINE change without a point is given one if that leaves at most 8 points open, and is held
otherwise; `fuel` bounds the number released. Log entry 53 (DEDUCED). -/
def Dev.releaseSwitches (d : Dev) : Nat → Dev
  | 0 => d
  | fuel + 1 =>
    match d.las.switches.find? d.fitsNow with
    | none => d.mapSwitches fun l => l.map fun s => if s.waits then { s with held := true } else s
    | some w => (d.mapSwitches (givePoint w d.nextLinePoint)).releaseSwitches fuel

/-- A point has been passed by every row: a shift posts SHIFT_APPLIED. Log entry 52 (DEDUCED). -/
def Dev.passSwitch (d : Dev) (s : Switch) : Dev :=
  match s.point with
  | none => d
  | some n =>
    if s.passed || !d.allPast n then d
    else
      let shift := d.shiftAt n
      let d := d.mapSwitches fun l => l.map fun t => if t = s then { t with passed := true } else t
      match s.what with
      | .host _ | .auto _ => d.raise .secure 0x0803 [(6, ofSigned 48 n), (2, ofSigned 11 shift)]
      | _ => d

/-- A passed point below the release mark: its value becomes the base, since no line below it is read again, the line before the
mark being the lowest, as a pair line (R140, R239). -/
def Dev.foldSwitch (d : Dev) (s : Switch) : Dev :=
  match s.point with
  | none => d
  | some n =>
    if !s.passed || decide (d.releaseMark ≤ n) then d
    else
      let d := d.mapSwitches fun l => l.erase s
      match s.what with
      | .host v => { d with las.host := v }
      | .auto v => { d with las.auto := v }
      | .blend b => { d with las.blend := b }
      | .subst .. => d

/-- SHIFT in force for the most upstream row, the one with the smallest offset. -/
def Dev.upstreamShift (d : Dev) : Int :=
  match d.web.rows with
  | [] => d.shiftAt 0
  | r :: rs => d.shiftAt (rs.foldl (fun b r => if r.off < b.off then r else b) r).next

/-- Pass and fold points, release held changes, and show both. -/
def Dev.settleSwitches (d : Dev) : Dev :=
  let d := d.las.switches.foldl (fun d s => d.passSwitch s) d
  let d := d.las.switches.foldl (fun d s => d.foldSwitch s) d
  let d := d.releaseSwitches (d.las.switches.length + 1)
  let d := d.wrB F.LA_SHIFT_PENDING 0 (d.las.switches.any fun s => s.held)
  d.wrS F.LA_SHIFT_STAT_SHIFT 0 d.upstreamShift

/-- Schedule a change: earlier ones of the same field whose point is not known are discarded. Log entry 53 (DEDUCED). -/
def Dev.schedule (d : Dev) (c : Change) (nextLine : Bool) : Dev :=
  (d.mapSwitches fun l => (l.filter fun s => !(sameField s.what c && s.point.isNone)) ++ [⟨c, nextLine, d.tmb.beats, false, none, false⟩]).settleSwitches

/-- The substitution changes that a list of switches holds with point n. -/
def Switch.isSubst (s : Switch) : Bool := match s.what with | .subst .. => true | _ => false

/-- A cue with its stamp in beat `beat` gives S to the NEXT_PAGE changes of earlier beats, up to 8 open points; the ninth is
held. The substitution changes given a point are returned (R241). Log entry 52 (DEDUCED). -/
def Dev.cueSwitches (d : Dev) (beat : Nat) (start : Int) : List Switch × Dev :=
  d.las.switches.foldl (fun acc w =>
    let (subs, d) := acc
    if w.nextLine || (w.point.isSome || decide (beat ≤ w.beat)) then acc
    else if 8 < openPoints (givePoint w start d.las.switches) then (subs, d.holdSwitch w)
    else ((if w.isSubst then subs ++ [w] else subs), d.mapSwitches (givePoint w start))) (([] : List Switch), d)

/-- A write to LA_SHIFT (R148). -/
def Dev.wLaShift (d : Dev) (val mask : Nat) : Dev :=
  let d := d.store R.LA_SHIFT 0 val mask
  if mask % 2048 = 0 then d else d.schedule (.host (d.rdS F.LA_SHIFT_HOST)) (d.on F.LA_SHIFT_WHEN)

/-- Substitution updates and AUTO values reach line assembly: port 0x0881 is connected and nozzle health is not WEDGED
(R15, R73). Log entry 140 (DEDUCED). -/
def Dev.substFed (d : Dev) : Bool := d.fed 0x0881 && !d.wedged .nzh

/-- An AUTO value arrives from nozzle health (R147). Log entries 87 (DEDUCED), 140 (DEDUCED). -/
def Dev.autoUpdate (d : Dev) (v : Int) : Dev :=
  (d.wrS F.LA_SHIFT_STAT_AUTO 0 (clampInt (-1024) 1023 v)).schedule (.auto v) (d.on F.LA_SHIFT_AUTO_WHEN)

/-- The mask as its shadow stands. -/
def Dev.maskShadow (d : Dev) : List Nat :=
  (List.range 256).map fun e => d.reg R.LA_BLEND_MASK (e / 4) / 2 ^ (8 * (e % 4)) % 256

/-- A write to LA_BLEND_CTRL (R148). -/
def Dev.wLaBlend (d : Dev) (val mask : Nat) : Dev :=
  let d := d.store R.LA_BLEND_CTRL 0 val mask
  if (Nat.land val mask).testBit 2 then
    d.schedule (.blend ⟨d.rd F.LA_MARGIN_FIRST, d.rd F.LA_MARGIN_LAST, d.on F.LA_BLEND_CTRL_MODE, d.maskShadow⟩)
      (d.on F.LA_BLEND_CTRL_WHEN)
  else d

/-! ### Swatches (R150) -/

/-- A write to LA_SWATCH: ARM arms a swatch, unless one is armed (R150, R235). -/
def Dev.wLaSwatch (d : Dev) (val mask : Nat) : Dev :=
  let d := d.store R.LA_SWATCH 0 val mask
  if (Nat.land val mask).testBit 0 && d.las.armBeat.isNone then { d with las.armBeat := some d.tmb.beats, las.armNzh := false } else d

/-- Place the armed swatch in the page that a cue of beat `beat` starts. -/
def Dev.placeSwatch (d : Dev) (p : Page) (beat : Nat) (start : Int) : Dev :=
  match d.las.armBeat with
  | none => d
  | some b =>
    let at0 := d.rd F.LA_SWATCH_START
    if beat ≤ b ∨ p.lines ≤ at0 then d
    else
      let step := d.rd F.LA_SWATCH_STEP
      let reps := d.rd F.LA_SWATCH_REPEATS
      let lines := min (4 * step * reps) (p.lines - at0)
      let w : Swatch := { uid := p.uid, first := start + at0, lines := lines, step := step
                          size := d.rd F.LA_SWATCH_SIZE, nzh := d.las.armNzh }
      let d := { d with las.swatches := d.las.swatches ++ [w], las.armBeat := none, las.armNzh := false }
      (d.wrB F.LA_SWATCH_ARM 0 false).raise .secure 0x0804 [(4, p.pageId), (6, ofSigned 48 w.first), (4, lines)]

/-- The swatch that a line belongs to. -/
def Dev.swatchOf (d : Dev) (n : Int) : Option Swatch :=
  d.las.swatches.find? fun w => decide (w.first ≤ n) && decide (n < w.first + w.lines)

/-- The swatch pixel of a nozzle. Log entry 86 (DEDUCED). -/
def swatchPixel (w : Swatch) (rank row k : Nat) (n : Int) : Nat :=
  let j := (n - w.first).toNat
  if n % 2 = row ∧ j / 2 % (2 * w.step) = k % w.step + w.step * rank then w.size else 0

/-! ### The substitution map (R236 to R238) -/

/-- The entry of a nozzle for line n: as it stood at the opening boundary, or the old entry below a switch point. Log entry 65 (DEDUCED). -/
def Dev.substAt (d : Dev) (nz : Nat) (n : Int) : Nat :=
  match d.las.switches.findSome? fun s => match s.what, s.point with
    | .subst a old _ _ _ _ _, some p => if a = nz ∧ n < p then some old else none
    | _, _ => none with
  | some e => e
  | none => d.regO R.LA_SUBST (nz / 8) / 2 ^ (4 * (nz % 8)) % 16

/-- MODE in effect: in ALTERNATE above 120,000 lines/s PARTNER acts as NEIGHBOUR. Log entry 64 (DEDUCED). -/
def Dev.modeAt (d : Dev) (nz : Nat) (n : Int) : Nat :=
  let m := d.substAt nz n % 4
  if m = 1 ∧ !d.gauge.dual ∧ 120000 < d.gauge.maxRate then 2 else m

def Dev.inMargin (d : Dev) (c : Nat) (n : Int) : Bool :=
  let b := d.blendAt n
  decide (b.first ≤ c) && decide (c ≤ b.last)

/-- A nozzle is available on line n while the heads of `out` are out (R238). -/
def Dev.availableBy (d : Dev) (out h r k : Nat) (n : Int) : Bool :=
  decide (d.substAt (nozzleIdx h r k) n % 4 = 0) && (!out.testBit h && d.inMargin ((d.headSec h).firstCol + k) n)

/-- A nozzle is available on line n in the beat in progress. -/
def Dev.available (d : Dev) (h r k : Nat) (n : Int) : Bool := d.availableBy d.outMask h r k n

/-! ### Pixels -/

/-- Pixel of strip column i in a strip line (R113). -/
def stripPixel (seg : List Byte) (i : Nat) : Nat := (seg.getD (i / 4) 0).toNat / 2 ^ (2 * (i % 4)) % 4

/-- The window pixel of column u among a slice's segments. -/
def segPixel (segs : List SegRead) (pair : Bool) (u : Nat) : Nat :=
  match segs.find? fun g => decide (g.strip = u / 4096) && decide (g.pair = pair) with
  | some g => stripPixel g.data (u % 4096)
  | none => 0

/-- Which head R145 gives an overlap column to, between h and its neighbour g, while the heads of `out` are out: such a head keeps
nothing (R146). -/
def Dev.keeperBy (d : Dev) (out h g : Nat) (hLeft : Bool) (c : Nat) (n : Int) : Nat :=
  if out.testBit g then h
  else if out.testBit h then g
  else
    let b := d.blendAt n
    let (l, r) := if hLeft then (h, g) else (g, h)
    let j := c - (d.headSec r).firstCol
    let w := d.gauge.selvedge
    let rKeeps := if b.ramp then decide (at' b.mask ((n % 16).toNat * 16 + c % 16) < (2 * j + 1) * 256 / (2 * w)) else decide (w ≤ 2 * j)
    if rKeeps then r else l

/-- Which head R145 gives an overlap column to in the beat in progress. -/
def Dev.keeper (d : Dev) (h g : Nat) (hLeft : Bool) (c : Nat) (n : Int) : Nat := d.keeperBy d.outMask h g hLeft c n

/-- Head h keeps column c in row r on line n while the heads of `out` are out, under R145, R146 and the selvedge step of R239. -/
def Dev.keepsBy (d : Dev) (out h r c : Nat) (n : Int) : Bool :=
  match d.overlap h c with
  | none => true
  | some (g, hLeft) =>
    let kp := d.keeperBy out h g hLeft c n
    let other := if kp = h then g else h
    let kk := c - (d.headSec kp).firstCol
    let ok := c - (d.headSec other).firstCol
    decide ((if d.substAt (nozzleIdx kp r kk) n % 4 ≠ 0 ∧ d.availableBy out other r ok n then other else kp) = h)

/-- Steps 1 to 5 of R142 and step 1 of R239 for a nozzle on a line that is no swatch line. -/
def Dev.basePixel (d : Dev) (segs : List SegRead) (pair : Bool) (h r k : Nat) (n : Int) : Nat :=
  let c := (d.headSec h).firstCol + k
  if d.headIsOut h ∨ !d.inMargin c n then 0
  else
    let u : Int := (c : Int) - d.shiftAt n
    if u < 0 ∨ 65535 < u then 0
    else if d.keepsBy d.outMask h r c n then segPixel segs pair u.toNat
    else 0

/-- The nozzle of the same row that a NEIGHBOUR nozzle's pixel goes to (R239). -/
def Dev.neighbourTarget (d : Dev) (h r k : Nat) (n : Int) : Option Nat :=
  let try' := fun (i : Int) => if 0 ≤ i ∧ i < 2048 ∧ d.available h r i.toNat n then some i.toNat else none
  let (a, b) : Int × Int := if n / 2 % 2 = 0 then ((k : Int) - 1, k + 1) else (k + 1, (k : Int) - 1)
  (try' a).orElse fun _ => try' b

/-- The line from which a PARTNER pixel comes (R239). Log entry 59 (DEDUCED). -/
def Dev.pairLine (d : Dev) (n : Int) : Int := if d.gauge.dual then n else if n % 2 = 0 then n + 1 else n - 1

/-- The pixel of nozzle k of a slice, all of R142 done, and the nozzle's own moved pixel if it is lost (R239). A pair line that is a
swatch line moves no pixel. -/
def Dev.slicePixel (d : Dev) (s : Slice) (k : Nat) : Nat × Bool :=
  let h := s.head
  let r := s.row
  let n := s.line
  let c := (d.headSec h).firstCol + k
  if s.out ∨ !d.inMargin c n then (0, false)
  else match d.swatchOf n with
    | some w => (swatchPixel w (d.headSec h).rank r k n, false)
    | none =>
      let own := d.basePixel s.segs false h r k n
      let mode := d.modeAt (nozzleIdx h r k) n
      let m := d.pairLine n
      let lost := decide (own ≠ 0) && (match mode with
        | 1 => !d.available h (1 - r) k m
        | 2 => (d.neighbourTarget h r k n).isNone
        | _ => false)
      let p := if d.substAt (nozzleIdx h r k) n % 4 = 0 then own else 0
      let p := if !d.available h r k n then p
        else
          let partner := if d.modeAt (nozzleIdx h (1 - r) k) m = 1 ∧ (d.swatchOf m).isNone then
            d.basePixel s.segs (!d.gauge.dual) h (1 - r) k m else 0
          let side := fun (i : Nat) =>
            if i < 2048 ∧ d.modeAt (nozzleIdx h r i) n = 2 ∧ d.neighbourTarget h r i n = some k then d.basePixel s.segs false h r i n
            else 0
          min 3 (p + partner + (if k = 0 then 0 else side (k - 1)) + side (k + 1))
      (p, lost)

/-- The pixels of a slice. -/
def Dev.slicePixels (d : Dev) (s : Slice) : List (Nat × Bool) := (List.range 2048).map (d.slicePixel s)

/-! ### Slices -/

/-- The words of a slice before its CRC word (R144). -/
def Slice.words (s : Slice) (px : List Nat) : List Nat :=
  (ofSigned 48 s.line + s.head * 2 ^ 48 + s.row * 2 ^ 53 + (if s.swatch.isSome then 2 ^ 54 else 0) + (if s.late then 2 ^ 55 else 0) +
      (if s.lost then 2 ^ 56 else 0) + (if s.out then 2 ^ 57 else 0)) ::
    (List.range 64).map fun i => (List.range 32).foldl (fun w j => w + at' px (32 * i + j) * 2 ^ (2 * j)) 0

/-- The CRC word of words sent on a fabric port (R144, R225). -/
def crcWord (ws : List Nat) : Nat := crc32 (ws.flatMap (leBytes 8))

/-- A slice as it goes over fabric port 0x0801: 66 words (R144). -/
def Slice.frame (s : Slice) (px : List Nat) : List Nat := s.words px ++ [crcWord (s.words px)]

/-- The CRC word of a received frame matches. -/
def frameOk (ws : List Nat) : Bool := decide (ws.getLast? = some (crcWord ws.dropLast))

/-- What a segment read of line m in a strip comes to at the opening boundary (R139, R143): a read to make, or zeros that are
no-ink, or absent. -/
inductive SegKind where
  | read | noInk | absent
deriving DecidableEq, Repr

/-- Log entry 198 (DEDUCED). -/
def Dev.segKind (d : Dev) (m : Int) (strip : Nat) : SegKind :=
  match d.pageOf m with
  | none => .absent
  | some _ =>
    match d.winHas strip m true with
    | none => .absent
    | some true => .noInk
    | some false => .read

/-- An absent segment of line m counts as late: the line lies in a page whose STRIP_MASK has the strip (R127). Log entry 198 (DEDUCED). -/
def Dev.countsLate (d : Dev) (m : Int) (strip : Nat) : Bool :=
  match d.pageOf m with
  | none => false
  | some p => p.mask.testBit strip

/-- Strips that a head's columns reach under a shift. -/
def stripsFor (first : Nat) (shift : Int) : List Nat :=
  (List.range 16).filter fun s =>
    let lo : Int := first - shift
    decide (lo < (s + 1) * 4096) && decide ((s : Int) * 4096 ≤ lo + 2047)

/-- In ALTERNATE a slice reads the pair line if some nozzle of the other row gives its pixel to its partner (R236). -/
def Dev.needsPair (d : Dev) (h r : Nat) (n : Int) : Bool :=
  !d.gauge.dual && ((d.swatchOf (d.pairLine n)).isNone &&
    (List.range 2048).any fun k => decide (d.modeAt (nozzleIdx h (1 - r) k) (d.pairLine n) = 1))

/-- The reads of one slice, with the absent segments that count as late. -/
def Dev.sliceReads (d : Dev) (h : Nat) (n : Int) (pair : Bool) : List SegRead × List (Int × Nat) × Bool :=
  let m := if pair then d.pairLine n else n
  (stripsFor (d.headSec h).firstCol (d.shiftAt m)).foldl (fun acc s =>
    let (segs, late, flag) := acc
    match d.segKind m s with
    | .read => (segs ++ [⟨s, pair, false, []⟩], late, flag)
    | .noInk => (segs ++ [⟨s, pair, true, []⟩], late, flag)
    | .absent => (segs ++ [⟨s, pair, true, []⟩], (if d.countsLate m s then late ++ [(m, s)] else late), true)) ([], [], false)

/-- The slice of one crossing for one engine (R142), and its absent segments. -/
def Dev.mkSlice (d : Dev) (c : Crossing) (en : Nat) : Slice × List (Int × Nat) :=
  let s : Slice := { en := en, head := c.head, row := c.row, line := c.line, q := c.q, out := d.headIsOut c.head
                     swatch := (d.swatchOf c.line).map (·.uid) }
  if s.out || s.swatch.isSome then (s, [])
  else
      let (a, la, fa) := d.sliceReads c.head c.line false
      let (b, lb, fb) := if d.needsPair c.head c.row c.line then d.sliceReads c.head c.line true else ([], [], false)
      ({ s with segs := a ++ b, late := fa || fb }, la ++ lb)

/-- An engine's fabric ports are connected (R15, R175). -/
def Dev.connected (d : Dev) (en : Nat) : Bool := d.on F.PE_STAT_CONNECTED en

/-- Count an absent segment once for its line and strip, and mark its page suspect (R127). Log entry 17 (DEDUCED). -/
def Dev.noteLate (d : Dev) (l : Int × Nat) : Dev :=
  let d := d.suspectLine l.1
  if d.cdc.lateSeen.contains l then d
  else { d with cdc.lateSeen := d.cdc.lateSeen ++ [l] }.count F.CD_LATE_SEGMENTS 0 1

/-- The late segments of a beat: each noted, and DECODE_LATE at most once per beat, with the first late line and the late strips
(R127). Log entry 59 (DEDUCED). -/
def Dev.noteLates (d : Dev) (ls : List (Int × Nat)) : Dev :=
  let d := ls.foldl (fun d l => d.noteLate l) d
  match ls with
  | [] => d
  | l :: rest =>
    let n := rest.foldl (fun m x => min m x.1) l.1
    match d.pageOf n with
    | none => d
    | some p =>
      let mask := ls.foldl (fun m x => Nat.lor m (2 ^ x.2)) 0
      d.raiseOnce (toWriter p.port) 0x0705 0 [(4, p.pageId), (6, ofSigned 48 n), (2, mask)]

/-- Record the heads that are out when a row's line is built. -/
def recordOut (key : Nat) (n step : Int) (out : Nat) : List (Nat × Int × Int × Nat) → List (Nat × Int × Int × Nat)
  | [] => [(key, n, n + step, out)]
  | (k, lo, hi, o) :: r => if k = key ∧ hi = n ∧ o = out then (k, lo, n + step, o) :: r else (k, lo, hi, o) :: recordOut key n step out r

/-- The heads that were out when head h built line n in row r. Log entry 191 (DEDUCED). -/
def Dev.outWhen (d : Dev) (h r : Nat) (n : Int) : Nat :=
  match d.las.outs.find? fun o => decide (o.1 = h * 2 + r ∧ o.2.1 ≤ n ∧ n < o.2.2.1) with
  | some o => o.2.2.2
  | none => d.outMask

/-- Line assembly at the opening boundary (R142): one slice per engine for each crossing, and what the builds of the beat go by
(R18). -/
def Dev.buildSlices (d : Dev) : Dev :=
  let made := d.pace.crossings.flatMap fun c => ((List.range 2).filter d.connected).map fun en => d.mkSlice c en
  let d := d.noteLates (made.flatMap Prod.snd)
  let high := d.pace.crossings.foldl (fun h c => match h with | some x => some (max x c.line) | none => some c.line) d.las.highest
  { d with
    las.slices := made.map Prod.fst
    las.highest := high
    las.outs := d.pace.crossings.foldl (fun l c => recordOut (c.head * 2 + c.row) c.line (if d.gauge.dual then 1 else 2) d.outMask l) d.las.outs
    las.opened := ⟨d.las.switches, d.las.host, d.las.auto, d.las.blend⟩ }

def Dev.mapSlices (d : Dev) (f : Slice → Slice) : Dev := { d with las.slices := d.las.slices.map f }

def Slice.is (s : Slice) (en h r : Nat) : Bool := decide (s.en = en ∧ s.head = h ∧ s.row = r)

/-- A window read returns (R143): the stored pixels, or zeros with LOST for uncorrectable data. Log entries 17 (DEDUCED), 63 (DEDUCED). -/
def Dev.readReturns (d : Dev) (en h r strip : Nat) (pair : Bool) : Dev :=
  match d.las.slices.find? fun s => s.is en h r && s.segs.any fun g => decide (g.strip = strip ∧ g.pair = pair) && !g.done with
  | none => d
  | some s =>
    let m := if pair then d.pairLine s.line else s.line
    let set := fun (d : Dev) (bs : List Byte) (lost : Bool) => d.mapSlices fun t =>
      if t.is en h r then { t with
        lost := t.lost || lost
        segs := t.segs.map fun g => if g.strip = strip ∧ g.pair = pair then { g with done := true, data := bs } else g } else t
    match d.dramRead en (d.masterSecure en) none (d.slotAddr m + strip * 1024) 1024 with
    | (.ok bs, d) => set d bs false
    | (_, d) => (set d [] true).count F.LA_COUNT_READ_LOST 0 1

/-- 3,000 ns into the beat: reads that have not returned give zeros, their slices carry LATE, and the segments count as late under
R127 as well (R143, log entry 17). -/
def Dev.readDeadline (d : Dev) : Dev :=
  let lates := d.las.slices.flatMap fun s => (s.segs.filter fun g => !g.done).map fun g =>
    (if g.pair then d.pairLine s.line else s.line, g.strip)
  let d := if lates.isEmpty then d else d.count F.LA_COUNT_READ_LATE 0 lates.length
  let d := d.noteLates lates
  d.mapSlices fun s =>
    if s.segs.any fun g => !g.done then { s with late := true, segs := s.segs.map fun g => { g with done := true } } else s

/-! ### Heads out and the release mark -/

/-- HEAD_OUT and HEAD_BACK against the heads out before, once cast-on has completed (R146): `causes h` are the cause bits. Log entry 163 (DEDUCED). -/
def Dev.updateOut (d : Dev) (causes : Nat → Nat) : Dev :=
  let hs := List.range d.headCount
  let out := hs.foldl (fun m h => if causes h ≠ 0 then m + 2 ^ h else m) 0
  let was := d.rd F.LA_HEAD_OUT_OUT
  let d := { d with las.causes := hs.map causes }.wr F.LA_HEAD_OUT_OUT 0 out
  let d := d.wr F.LA_HEAD_OUT_CAUSE 0 (match hs.find? fun h => decide (causes h ≠ 0) with | some h => causes h | none => 0)
  if !d.sys.done then d
  else
    let d := hs.foldl (fun d h =>
      if out.testBit h ∧ !was.testBit h then d.raise .secure 0x0801 [(1, h), (1, causes h)] else d) d
    hs.foldl (fun d h => if was.testBit h ∧ !out.testBit h then d.raise .secure 0x0802 [(1, h), (1, causes h)] else d) d

/-- Step 16 posts HEAD_OUT for each head that is out in the beat in progress (R146). -/
def Dev.postOuts (d : Dev) : Dev :=
  (List.range d.headCount).foldl (fun (d : Dev) (h : Nat) =>
    if d.headIsOut h then d.raise .secure 0x0801 [(1, h), (1, at' d.las.causes h)] else d) d

/-- A row's term of the release mark (R140). -/
def Dev.rowTerm (d : Dev) (r : RowSt) : Int :=
  (d.web.pred ++ d.pace.crossings).foldl (fun m c => if c.head = r.head ∧ c.row = r.row then min m c.line else m) r.next

/-- The release mark at a boundary (R140): `cams` are the terms of the cameras. A line below the mark can be read once more as a pair
line (R127). Log entry 192 (DEDUCED). -/
def Dev.updateRelease (d : Dev) (cams : List Int) : Dev :=
  match d.web.rows.map d.rowTerm ++ cams with
  | [] => d
  | t :: ts =>
    let rm := max d.releaseMark (ts.foldl min t)
    let d := { d with cdc.lateSeen := d.cdc.lateSeen.filter fun l => decide (rm ≤ l.1 + 1) }
    d.wrS F.LA_RELEASE_RM 0 rm

/-- The committed margin, mode and mask in force once every point that all rows have passed is folded in. -/
def Dev.blendNow (d : Dev) : BlendSet :=
  d.las.switches.foldl (fun v s => match s.what with | .blend w => if s.passed then w else v | _ => v) d.las.blend

/-- A new GAUGE (R57, R147, R150): the window emptied, the shift 0, pending switches and ARM gone, the rows set afresh. -/
def Dev.newGauge (d : Dev) : Dev :=
  let d := { d.emptyWindow with
    las.host := 0
    las.auto := 0
    las.blend := d.blendNow
    las.switches := []
    las.armBeat := none
    las.armNzh := false }
  let d := (d.wrB F.LA_SWATCH_ARM 0 false).wr F.LA_SHIFT_HOST 0 0 |>.wr F.LA_SHIFT_STAT_AUTO 0 0
  let d := (d.wrB F.LA_SHIFT_PENDING 0 false).wr F.LA_SHIFT_STAT_SHIFT 0 0
  let d := (d.wr F.LA_WINDOW_BASE 0 (d.gauge.windowBase / 2 ^ 21)).wr F.LA_WINDOW_LOG_LINES 0 (Nat.log2 d.gauge.windowLines)
  d.initRows

/-! ### The commands -/

def execWindowReadReturn (en : Fin 2) (h : Fin 32) (row : Fin 2) (strip : Fin 16) (pair : Bool) (s : State) :
    Host.Outcome State Fault Refusal := s.act fun d => d.readReturns en h row strip pair

def execWindowReadDeadline (s : State) : Host.Outcome State Fault Refusal := s.act Dev.readDeadline

def execShiftWrite (m : Master) (val : Nat) (s : State) : Host.Outcome State Fault Refusal :=
  s.act fun d => d.writeTo m R.LA_SHIFT 0 fun d => d.wLaShift val mask32

/-- AUTO_UPDATE delivers the oldest change of AUTO that nozzle health has sent (R246): v is its value. Log entry 87 (DEDUCED). -/
def execAutoUpdate (v : Int) (s : State) : Host.Outcome State Fault Refusal :=
  s.act fun d =>
    match d.nzh.autoOut with
    | a :: rest => if d.substFed ∧ a = v then { d with nzh.autoOut := rest }.autoUpdate v else d
    | [] => d

def execBlendCommit (m : Master) (val : Nat) (s : State) : Host.Outcome State Fault Refusal :=
  s.act fun d => d.writeTo m R.LA_BLEND_CTRL 0 fun d => d.wLaBlend val mask32

def execSwatchArm (m : Master) (bytes val : Nat) (s : State) : Host.Outcome State Fault Refusal :=
  s.act fun d => d.writeTo m R.LA_SWATCH 0 fun d => d.wLaSwatch val (if bytes = 8 then mask64 else mask32)

end Sys2Proof.Machine
end

