-- ==== Sys2Proof/Machine/Pace.lean ====
section
/-!
DEFINITION. Chapters 9 and 10: drive codes, firing histories, spitting, head temperature, the line handed over with its checks,
claim arbitration, the commit, and the internal inhibit.
-/

namespace Sys2Proof.Machine

/-! ### Drive codes (chapter 9) -/

/-- The row of a head, as one number. -/
def rowKey (h r : Nat) : Nat := h * 2 + r

/-- The history of a nozzle as an engine reads it for the build (R154, R155): 0 after IDLE_BEATS beats without a commit; with the
engine's own line of the beat before applied, if it has one. Log entry 67 (DEDUCED). -/
def Dev.histFor (d : Dev) (en h r k : Nat) (own : Option Line) : Nat :=
  let last := mapGet d.pace.commits (rowKey h r) 0
  if d.rdO F.PE_HIST_CFG_IDLE_BEATS en < d.tmb.beats - last then 0
  else
    let v := mapGet d.pace.hist (nozzleIdx h r k) 0
    match own with
    | some l => (v * 2 + (if at' l.codes k = 0 then 0 else 1)) % 16
    | none => v

/-- The class of a history value (R156). -/
def Dev.classFor (d : Dev) (en h hist : Nat) : Nat :=
  if d.onO F.PE_HIST_CFG_HIST_EN en then d.rdO F.PE_HIST_MAP_MAP (en * 32 + h) / 2 ^ (2 * hist) % 4 else 0

/-- Lines below n that a row is assigned (R158). -/
def rowLines (dual : Bool) (r : Nat) (n : Int) : Int := if dual then n else (n - r + 1) / 2

/-- A spit is due (R158). -/
def Dev.spitDue (d : Dev) (en : Nat) (s : Slice) (k : Nat) : Bool :=
  d.onO F.PE_SPIT_ENABLE en && (!s.out && ((d.swatchOf s.line).isNone &&
    (!d.inMargin ((d.headSec s.head).firstCol + k) s.line &&
      (match d.pageOf s.line with
       | some p =>
         let q := rowLines d.gauge.dual s.row s.line - rowLines d.gauge.dual s.row ((p.start).getD 0)
         decide ((q + k) % d.rdO F.PE_SPIT_PERIOD en = 0)
       | none => false))))

def Dev.headTemp (d : Dev) (h : Nat) : HeadTemp := at' d.pace.temps h

def Dev.setTemp (d : Dev) (h : Nat) (f : HeadTemp → HeadTemp) : Dev := { d with pace.temps := d.pace.temps.modify h f }

/-- The head's state: 0 NORMAL, 1 WARM, 2 HOT. -/
def Dev.tempState (d : Dev) (h : Nat) : Nat := d.rd F.HL_TEMP_STAT_STATE h

/-- A tail line (R163). -/
def Dev.isTail (d : Dev) (h : Nat) (n : Int) : Bool :=
  match (d.headTemp h).tail with
  | some s => decide (n < s)
  | none => false

/-- TRIM in use of a nozzle. -/
def Dev.trimOf (d : Dev) (nz : Nat) : Nat := mapGet d.pace.trim (nz / 8) 0x88888888 / 2 ^ (4 * (nz % 8)) % 16

/-- The code of nozzle k with pixel p (R157). -/
def Dev.codeOf (d : Dev) (s : Slice) (own : Option Line) (k p : Nat) : Nat :=
  if d.isTail s.head s.line then 0
  else
    let spit := decide (p = 0) && d.spitDue s.en s k
    let p := if spit then d.rdO F.PE_SPIT_SIZE s.en else p
    if p = 0 then 0
    else
      let c := if spit then 0 else d.classFor s.en s.head (d.histFor s.en s.head s.row k own)
      let c := if d.tempState s.head = 1 then min (c + 1) 3 else c
      if d.gauge.fine then p * 64 + d.trimOf (nozzleIdx s.head s.row k) * 4 + c else p * 4 + c

/-! ### The line handed over (R168, R169) -/

/-- FIRE of a crossing time in quarter ns (R168). -/
def fireField (q : Nat) : Nat := q / 16000 % 65536 * 65536 + q % 16000

/-- Two 4-bit codes to a byte. -/
def nibbles : List Nat → List Byte
  | a :: b :: r => BitVec.ofNat 8 (a + 16 * b) :: nibbles r
  | [a] => [BitVec.ofNat 8 a]
  | [] => []

def codeBytes (fine : Bool) (codes : List Nat) : List Byte := if fine then codes.map fun c => BitVec.ofNat 8 c else nibbles codes

def flag (b : Bool) (bit : Nat) : Nat := if b then 2 ^ bit else 0

/-- The words of a line before the CRC word, bit 57 of word 0 taken as 0 (R169). Log entry 69 (DEDUCED). -/
def Line.bytes (l : Line) : List Byte :=
  leBytes 8 (ofSigned 48 l.line + l.head * 2 ^ 48 + l.row * 2 ^ 53 + flag l.swatch 54 + flag l.late 55 + flag l.lost 56 +
    flag l.fine 58) ++ leBytes 8 (fireField l.q) ++ codeBytes l.fine l.codes

/-- No code with size 0 and anything else (check 5 of R170). -/
def codeOk (fine : Bool) (c : Nat) : Bool := if fine then decide (c = 0 ∨ 64 ≤ c) else decide (c = 0 ∨ 4 ≤ c)

/-- The environment's fault in the primary datapath. -/
def faultLine (flt : LineFault) (l : Line) : Line :=
  match flt with
  | .code k v | .both k v => { l with codes := l.codes.set k (if l.fine then v.toNat else v.toNat % 16) }
  | .fire dq => { l with q := ((l.q : Int) + dq).toNat }
  | _ => l

/-- The environment's fault in the shadow datapath. -/
def faultShadow (flt : LineFault) (l : Line) : Line :=
  match flt with
  | .both _ _ => faultLine flt l
  | _ => l

/-- Check 1 of R170 on a slice with pixels px: line assembly gave it its CRC word (R144), so only a changed word can fail. -/
def sliceOk (flt : LineFault) (s : Slice) (px : List Nat) : Bool :=
  match flt with
  | .slice i v => frameOk ((s.frame px).modify i fun w => Nat.xor w v.toNat)
  | _ => true

/-- Check 2 of R170: the slice names the crossing that it answers. -/
def answerOk (flt : LineFault) (s : Slice) : Bool :=
  match flt with
  | .answer h row n => decide (h.val = s.head ∧ row.val = s.row ∧ n = s.line)
  | _ => true

/-- The number of the first check of R170 that the line of a slice fails: `shadow` is the line that the shadow datapath forms. Log entry 69 (DEDUCED). -/
def Dev.lineCheck (d : Dev) (flt : LineFault) (s : Slice) (px : List Nat) (l shadow : Line) : Option Nat :=
  if !sliceOk flt s px then some 1
  else if !answerOk flt s then some 2
  else if l.q / 16000 ≠ d.beat + 3 then some 3
  else if crc32 l.bytes ≠ crc32 shadow.bytes then some 4
  else if !(l.codes.all fun c => codeOk l.fine c) then some 5
  else none

/-- A check failure of an engine, for the window of R174. -/
def Dev.noteFail (d : Dev) (en : Nat) : Dev :=
  let b := d.tmb.beats
  let d := if en = 0 then { d with pace.failsA := b :: d.pace.failsA } else { d with pace.failsB := b :: d.pace.failsB }
  d.wr F.PE_STAT_FAILS_WIN en (min 255 (if en = 0 then d.pace.failsA else d.pace.failsB).length)

/-- A failed check of R170. -/
def Dev.checkFail (d : Dev) (l : Line) (check : Option Nat) : Dev :=
  match check with
  | none => d
  | some c =>
    ((d.count F.PE_COUNT_CHECK_FAIL l.en 1).noteFail l.en).raiseOnce .secure (0x0904 + 0x100 * l.en) 0
      [(1, c), (1, l.head), (1, l.row), (6, ofSigned 48 l.line)]

/-- The stage's own check of the CRC word (R171): a line that failed R170 already counts once towards R174. Log entry 165 (DEDUCED). -/
def Dev.stageFail (d : Dev) (en : Nat) (counted : Bool) : Dev :=
  let d := d.count (if en = 0 then F.HL_ARB_COUNT_STAGE_CRC_A else F.HL_ARB_COUNT_STAGE_CRC_B) 0 1
  if counted then d else d.noteFail en

/-- The lowest connected engine, which counts the pixels that substitution lost. -/
def Dev.firstEngine (d : Dev) : Nat := if d.connected 0 then 0 else 1

/-- The engine that has received a slice with LOST posts LINE_DATA_LOST, once per beat (R143, R167). -/
def Dev.dataLost (d : Dev) (s : Slice) : Dev :=
  if s.lost then d.tally .secure (0x0901 + 0x100 * s.en) 0 [(1, s.head), (1, s.row), (6, ofSigned 48 s.line)] else d

/-- An engine builds the line of a slice that has arrived, and hands it over (R157, R167 to R171). -/
def Dev.buildLine (d : Dev) (en h r : Nat) (flt : LineFault) : Dev :=
  match d.las.slices.find? fun s => s.is en h r && s.segs.all fun g => g.done with
  | none => d
  | some s =>
    let v := d.asOpened
    let px := v.slicePixels s
    let own := d.pace.before.find? fun l => decide (l.en = en ∧ l.head = h ∧ l.row = r)
    let codes := px.zipIdx.map fun (p, k) => v.codeOf s own k p.1
    let shadow : Line := { en := en, head := h, row := r, line := s.line, q := s.q, fine := d.gauge.fine, codes := codes
                           late := s.late, lost := s.lost, swatch := s.swatch.isSome, out := s.out }
    let l := faultLine flt shadow
    let check := d.lineCheck flt s (px.map Prod.fst) l (faultShadow flt shadow)
    let bad := decide (flt = .transfer)
    let l := { l with good := check.isNone && !bad, crc := BitVec.ofNat 32 (crc32 l.bytes) }
    let lost := px.countP Prod.snd
    let d := if en = d.firstEngine ∧ 0 < lost then d.count F.NZ_COUNT_SUBST_LOST 0 lost else d
    let d := { d with
      las.slices := d.las.slices.filter fun t => !t.is en h r
      pace.handed := d.pace.handed ++ [l]
      pace.built := true }
    let d := d.count F.PE_COUNT_LINES en 1
    let d := d.dataLost s
    let d := d.checkFail l check
    if bad then d.stageFail en check.isSome else d

/-- Lines not handed over by the closing boundary are abandoned (R172), those of slices that the engine has received among them. -/
def Dev.abandon (d : Dev) (en : Nat) : Dev :=
  match d.las.slices.filter fun s => decide (s.en = en) with
  | [] => d
  | s :: rest =>
    let n := rest.length + 1
    let src := if s.segs.all fun g => g.done then 0 else 1
    let d := ((s :: rest).filter fun t => t.segs.all fun g => g.done).foldl (fun d t => d.dataLost t) d
    let d := { d with las.slices := d.las.slices.filter fun s => decide (s.en ≠ en) }.count F.PE_COUNT_OVERRUN en n
    let d := (List.range n).foldl (fun d _ => d.noteFail en) d
    d.raise .secure (0x0902 + 0x100 * en) [(4, n), (1, src)]

/-! ### Claims (R173 to R176) -/

def Dev.claim (d : Dev) (en : Nat) : Nat := d.rd F.PE_CLAIM_CLAIM en

/-- An engine drops its claim until the next full reset (R174). -/
def Dev.dropClaim (d : Dev) (en cause : Nat) : Dev :=
  if d.on F.PE_CLAIM_DROPPED en then d
  else
    let d := ((d.wr F.PE_CLAIM_CLAIM en 0).wrB F.PE_CLAIM_DROPPED en true).wr F.PE_CLAIM_CAUSE en cause
    d.raise .secure (0x0903 + 0x100 * en) [(1, cause)]

/-- A write to PE_CLAIM: ignored once dropped, 0 drops the claim (R174). -/
def Dev.wPeClaim (d : Dev) (en val mask : Nat) : Dev :=
  if d.on F.PE_CLAIM_DROPPED en ∨ mask % 256 = 0 then d
  else
    let d := d.store R.PE_CLAIM en val mask
    if d.claim en = 0 then d.dropClaim en 4 else d

def Dev.fails (d : Dev) (en : Nat) : Nat := if en = 0 then d.pace.failsA.length else d.pace.failsB.length

/-- FAIL_LIMIT check failures within 1,024 beats (R174). -/
def Dev.failRate (d : Dev) (en : Nat) : Dev := if d.rd F.PE_CHECK_CFG_FAIL_LIMIT en ≤ d.fails en then d.dropClaim en 2 else d

/-- At a boundary check failures more than 1,023 beats old leave the window. -/
def Dev.ageFails (d : Dev) : Dev :=
  let keep := fun (l : List Nat) => l.filter fun b => decide (d.tmb.beats < b + 1024)
  let d := { d with pace.failsA := keep d.pace.failsA, pace.failsB := keep d.pace.failsB }
  (d.wr F.PE_STAT_FAILS_WIN 0 (min 255 d.pace.failsA.length)).wr F.PE_STAT_FAILS_WIN 1 (min 255 d.pace.failsB.length)

/-- Selections are blanked: by the inhibit (R177), by a WEDGED function of class HALT
(R362, R364), until firing resumes (R178), or by ABORT_PAGE of bind-off (R70). Log entry 139 (DEDUCED). -/
def Dev.blanking (d : Dev) : Bool :=
  d.pace.inhibit || (d.sys.halted || d.pace.released.isSome || (match d.sys.bindOff with | some b => b.running && b.abortPage | none => false))

/-- Lines that this selection may not take although selections are not blanked: below the S of the cue that resumed firing (R178),
and those of a page that prints blank (R365). -/
def Dev.belowFloor (d : Dev) (n : Int) : Bool :=
  (match d.pace.floor with | some s => decide (n < s) | none => false) ||
    (match d.pageOf n with | some p => p.blank | none => false)

def Dev.linkOf (d : Dev) (h : Nat) : Nat := (d.headSec h).link

def Dev.inService (d : Dev) (l : Nat) : Bool := d.on F.HL_STAT_IN_SERVICE l

def Dev.handedLine (d : Dev) (en : Nat) (c : Crossing) : Option Line :=
  d.pace.handed.find? fun l => decide (l.en = en ∧ l.head = c.head ∧ l.row = c.row)

/-- The line that R173 selects for a crossing, none for the blank line. Log entry 68 (DEDUCED). -/
def Dev.pick (d : Dev) (c : Crossing) : Option Line :=
  let cand := fun (en : Nat) => match d.handedLine en c with
    | some l => if l.good ∧ 0 < d.claim en then some l else none
    | none => none
  if d.blanking || d.belowFloor c.line then none
  else match cand 0, cand 1 with
    | some a, some b => if d.claim 0 < d.claim 1 then some b else some a
    | some a, none => some a
    | none, b => b

/-- One row's selection (R173). Log entry 66 (DEDUCED). Log entry 165 (DEDUCED). -/
def Dev.selectRow (d : Dev) (c : Crossing) : Dev :=
  let d := match d.handedLine 0 c, d.handedLine 1 c with
    | some a, some b =>
      if a.good ∧ b.good ∧ a.crc ≠ b.crc then
        (d.count F.HL_ARB_COUNT_MISMATCH 0 1).tally .secure 0x0B50 0 [(1, c.head), (1, c.row), (6, ofSigned 48 c.line)]
      else d
    | _, _ => d
  let sel := d.pick c
  let d := match sel with
    | some l => d.wrB F.PE_STAT_ACTIVE l.en true
    | none =>
      match d.pageOn c.line with
      | some p =>
        ((d.suspect p.uid).count F.HL_ARB_COUNT_BLANKED 0 1).tally .secure 0x0B51 0 [(1, c.head), (1, c.row), (6, ofSigned 48 c.line)]
      | none => d
  let codes := match sel with | some l => l.codes | none => []
  let q := match sel with | some l => l.q | none => c.q
  let up := d.inService (d.linkOf c.head)
  { d with pace.tx := d.pace.tx ++ [{ head := c.head, row := c.row, line := c.line, q := q, fine := d.gauge.fine, codes := codes
                                      waiting := up, dropped := !up
                                      real := match sel with | some l => !l.out | none => false }] }

/-- No engine has a claim above 0 (R176). -/
def Dev.paceLost (d : Dev) : Dev :=
  if (!d.on F.HL_INHIBIT_CTRL_PACE_LOST && decide (d.claim 0 = 0 ∧ d.claim 1 = 0)) then
    (d.wrB F.HL_INHIBIT_CTRL_PACE_LOST 0 true).raise .secure 0x0B52 []
  else d

/-- Claim arbitration at an opening boundary over the lines handed over in the beat before (R173): LINE_BLANKED and
ENGINE_MISMATCH are posted at once. Log entry 68 (DEDUCED). -/
def Dev.arbitrate (d : Dev) : Dev :=
  let d := d.paceLost
  let d := if d.pace.crossings.isEmpty then d else (d.wrB F.PE_STAT_ACTIVE 0 false).wrB F.PE_STAT_ACTIVE 1 false
  let d := d.pace.crossings.foldl (fun d c => d.selectRow c) d
  { d with pace.before := d.pace.handed, pace.handed := [] }.flushTallies

/-! ### The commit (R154, R165) -/

/-- Record that a row printed a line. -/
def recordPrinted (key : Nat) (n step : Int) : List (Nat × Int × Int) → List (Nat × Int × Int)
  | [] => [(key, n, n + step)]
  | (k, lo, hi) :: r => if k = key ∧ hi = n then (k, lo, n + step) :: r else (k, lo, hi) :: recordPrinted key n step r

/-- A row printed a line (R223). -/
def Dev.rowPrinted (d : Dev) (key : Nat) (n : Int) : Bool :=
  d.pace.printed.any fun p => decide (p.1 = key ∧ p.2.1 ≤ n ∧ n < p.2.2)

/-- A line takes its place among those that a row did not print after all. -/
def unprint (key : Nat) (n step : Int) (l : List (Nat × Int × Int)) : List (Nat × Int × Int) :=
  l.flatMap fun p =>
    if p.1 = key ∧ p.2.1 ≤ n ∧ n < p.2.2 then
      [(key, p.2.1, n), (key, n + step, p.2.2)].filter fun q => decide (q.2.1 < q.2.2)
    else [p]

/-- One selected line commits at the closing boundary: histories and actuation counters. Log entry 66 (DEDUCED). -/
def Dev.commitLine (d : Dev) (t : TxLine) : Dev :=
  let codes := if t.dropped then [] else t.codes
  let d := (List.range 2048).foldl (fun d k =>
    let nz := nozzleIdx t.head t.row k
    let c := if codes.isEmpty then 0 else at' codes k
    let v := (mapGet d.pace.hist nz 0 * 2 + (if c = 0 then 0 else 1)) % 16
    let d := { d with pace.hist := mapSet d.pace.hist nz v 0 }
    if c = 0 then d else d.count F.HL_ACT_COUNT nz 1) d
  let d := if t.real && !t.dropped then
      { d with pace.printed := recordPrinted (rowKey t.head t.row) t.line (if d.gauge.dual then 1 else 2) d.pace.printed }
    else d
  { d with pace.commits := mapSet d.pace.commits (rowKey t.head t.row) d.tmb.beats 0 }

/-- Every line selected at the opening boundary commits; what still waits for its link goes on waiting. Log entry 66 (DEDUCED). -/
def Dev.commitAll (d : Dev) : Dev :=
  let fresh := d.pace.tx.filter fun t => !t.committed
  let d := fresh.foldl (fun d t => d.commitLine t) d
  { d with pace.tx := (d.pace.tx.filter fun t => t.waiting).map fun t =>
      if t.committed then t else { t with committed := true, beat := d.tmb.beats } }

/-- A committed line turns out not to leave after all: it commits as no fire instead (R154, R165, R187). A row's lines are two beats
apart, so at most one more of its lines has committed since. Log entry 66 (DEDUCED). -/
def Dev.uncommit (d : Dev) (t : TxLine) : Dev :=
  let bit := if mapGet d.pace.commits (rowKey t.head t.row) 0 = t.beat then 1 else 2
  let d := t.codes.zipIdx.foldl (fun d p =>
    let nz := nozzleIdx t.head t.row p.2
    if p.1 = 0 then d
    else
      let v := mapGet d.pace.hist nz 0
      let d := if v / bit % 2 = 1 then { d with pace.hist := mapSet d.pace.hist nz (v - bit) 0 } else d
      d.uncount F.HL_ACT_COUNT nz) d
  { d with pace.printed := unprint (rowKey t.head t.row) t.line (if d.gauge.dual then 1 else 2) d.pace.printed }

/-! ### The shared tables (R166) -/

/-- The instance of the other engine's copy in a register with n instances in each window. -/
def otherCopy (n i : Nat) : Nat := if i < n then i + n else i - n

/-- A write to a shared table updates both copies. -/
def Dev.wPeShared (d : Dev) (r : Reg) (n i val mask : Nat) : Dev := (d.store r i val mask).store r (otherCopy n i) val mask

/-- A write to PE_TRIM_CTRL: COMMIT waits for the next boundary. -/
def Dev.wPeTrimCtrl (d : Dev) (val mask : Nat) : Dev :=
  if (Nat.land val mask).testBit 0 then (d.wrB F.PE_TRIM_CTRL_PENDING 0 true).wrB F.PE_TRIM_CTRL_PENDING 1 true else d

/-- At a boundary a pending commit puts the whole shadow in use. -/
def Dev.takeTrim (d : Dev) : Dev :=
  if d.on F.PE_TRIM_CTRL_PENDING then
    let lo := R.PE_TRIM.base
    let words := d.regs.filterMap fun p => if lo ≤ p.1 ∧ p.1 < lo + 0x10000 then some ((p.1 - lo) / 4, p.2.toNat) else none
    ({ d with pace.trim := words }.wrB F.PE_TRIM_CTRL_PENDING 0 false).wrB F.PE_TRIM_CTRL_PENDING 1 false
  else d

/-! ### Head temperature (R160 to R164) -/

def Dev.tempLimit (d : Dev) (h : Nat) : Int := d.rdS F.HL_TEMP_CFG_LIMIT h

/-- WARN, at most LIMIT (R161). -/
def Dev.tempWarn (d : Dev) (h : Nat) : Int := min (d.rdS F.HL_TEMP_CFG_WARN h) (d.tempLimit h)

/-- The head is cool for R162: reports come, and T lies below LIMIT - HYST. Log entry 70 (DEDUCED). -/
def Dev.isCool (d : Dev) (h : Nat) (t : Int) : Bool :=
  (d.headTemp h).fresh && decide (t < d.tempLimit h - d.rd F.HL_TEMP_CFG_HYST h)

def Dev.setResume (d : Dev) (h : Nat) (s : Option Int) : Dev :=
  (d.setTemp h fun x => { x with sResume := s }).wrB F.HL_TEMP_STAT_RESUME_SET h s.isSome

/-- Record S_resume for a HOT head that waits for a cue (R162, R365); a recorded one stands until clearance or its discard. Log entry 164 (DEDUCED). -/
def Dev.recordResume (d : Dev) (h : Nat) (s : Int) : Dev :=
  if (d.headTemp h).sResume.isSome then d else d.setResume h (some s)

/-- Entry to HOT, cause 0 TEMP or 1 STALE (R161). -/
def Dev.enterHot (d : Dev) (h cause : Nat) : Dev :=
  let d := (d.wr F.HL_TEMP_STAT_STATE h 2).wr F.HL_TEMP_STAT_STALE h cause
  let d := (d.bump F.HL_TEMP_STAT_TRIPS h 1).setTemp h fun x => { x with tail := none, cue := none }
  (d.setResume h none).raise .secure 0x0B42 [(1, h), (2, ofSigned 16 (d.rdS F.HL_TEMP_STAT_TEMP h)), (1, cause)]

/-- A HOT head at an opening boundary: record S_resume, discard it, or clear (R162, R164). `cs` are the crossings to build. Log entry 71 (DEDUCED). -/
def Dev.hotHead (d : Dev) (h : Nat) (t : Int) (cs : List Crossing) : Dev :=
  let d := match (d.headTemp h).cue with
    | some (b, s) =>
      let d := d.setTemp h fun x => { x with cue := none }
      if b = d.tmb.beats ∧ d.isCool h t then d.recordResume h s else d
    | none => d
  if d.tempLimit h ≤ t then d.setResume h none
  else match (d.headTemp h).sResume with
    | none => d
    | some s =>
      if cs.any fun c => decide (c.head = h ∧ s ≤ c.line) then
        if d.isCool h t then
          let d := (d.wr F.HL_TEMP_STAT_STATE h (if d.tempWarn h ≤ t then 1 else 0)).wrB F.HL_TEMP_STAT_STALE h false
          ((d.setResume h none).setTemp h fun x => { x with tail := some s }).raise .secure 0x0B43 [(1, h), (6, ofSigned 48 s)]
        else d.setResume h none
      else d

/-- Note whether a head is cool at an opening boundary, for a cue of the beat before that is accepted in this one (R107, R162). Log entry 164 (DEDUCED). -/
def Dev.noteCool (d : Dev) (h : Nat) : Dev :=
  d.setTemp h fun x => { x with cool := match (d.headTemp h).report with | some t => d.isCool h t | none => false }

/-- One head's temperature state at an opening boundary (R160, R161). Log entry 71 (DEDUCED). Log entry 70 (DEDUCED). -/
def Dev.headTempUpdate (d : Dev) (cs : List Crossing) (h : Nat) : Dev :=
  let d := d.noteCool h
  match (d.headTemp h).report with
  | none => if (d.headTemp h).live ∧ (d.headTemp h).overdue ∧ d.tempState h ≠ 2 then d.enterHot h 1 else d
  | some t =>
    let d := d.wrS F.HL_TEMP_STAT_TEMP h t
    if !(d.headTemp h).live then d
    else if d.tempState h = 2 then d.hotHead h t cs
    else if d.tempLimit h ≤ t then d.enterHot h 0
    else if (d.headTemp h).overdue then d.enterHot h 1
    else if d.tempState h = 0 ∧ d.tempWarn h ≤ t then (d.wr F.HL_TEMP_STAT_STATE h 1).raise .secure 0x0B41 [(1, h), (2, ofSigned 16 t)]
    else if d.tempState h = 1 ∧ t < d.tempWarn h - d.rd F.HL_TEMP_CFG_HYST h then
      (d.wr F.HL_TEMP_STAT_STATE h 0).raise .secure 0x0B44 [(1, h), (2, ofSigned 16 t)]
    else d

/-- No report for TIMEOUT ms: HOT with cause STALE at the next beat boundary (R161). Log entry 70 (DEDUCED). -/
def Dev.tempStale (d : Dev) (h : Nat) : Dev :=
  if h < d.headCount ∧ (d.headTemp h).live then d.setTemp h fun x => { x with fresh := false, overdue := true } else d

/-- At cast-on step 12 a head enters NORMAL, or HOT if its first reading is at or above LIMIT (R161). -/
def Dev.startTemp (d : Dev) (h : Nat) : Dev :=
  let d := d.setTemp h fun x => { x with live := true }
  match (d.headTemp h).report with
  | some t => let d := d.wrS F.HL_TEMP_STAT_TEMP h t; if d.tempLimit h ≤ t then d.enterHot h 0 else d
  | none => d

/-! ### The internal inhibit (R177, R178) -/

/-- A link is enabled by the Pattern. -/
def Dev.linkEnabled (d : Dev) (l : Nat) : Bool := (at' d.pat.loaded.links l).enable

/-- The inhibit order goes out on every enabled link whose downstream direction is awake (R177, R199). -/
def Dev.sendInhibit (d : Dev) : Dev :=
  ((List.finRange 32).filter fun (l : Fin 32) => d.linkEnabled l && !d.on F.HL_STAT_DN_ASLEEP l).foldl (fun d (l : Fin 32) => d.emit (.signal l .inhibit)) d

def Dev.showInhibit (d : Dev) : Dev := d.wrB F.HL_INHIBIT_CTRL_ACTIVE 0 (d.pace.inhibit || d.pace.released.isSome)

/-- The internal inhibit is asserted at ti, with cause 0 pin, 1 register or 2 reset. Log entries 12 (DEDUCED), 54 (DEDUCED). -/
def Dev.assertInhibit (d : Dev) (ti cause : Nat) : Dev :=
  if d.pace.inhibit then d
  else
    let d := { d with pace.inhibit := true, pace.order := true, pace.released := none, pace.floor := none }
    let d := d.showInhibit.sendInhibit
    let d := d.suspectRunning
    d.raise .secure 0x0B53 [(8, ti), (1, cause)]

/-- Something still asserts the inhibit. Log entries 12 (DEDUCED), 72 (DEDUCED). -/
def Dev.inhibitHeld (d : Dev) : Bool := d.on F.HL_INHIBIT_CTRL_PIN || (d.on F.HL_INHIBIT_CTRL_INHIBIT || d.pace.resetInhibit)

/-- The internal inhibit ends at tr, if nothing holds it. Log entry 54 (DEDUCED). -/
def Dev.endInhibit (d : Dev) (tr : Nat) : Dev :=
  if !d.pace.inhibit || d.inhibitHeld then d
  else ({ d with pace.inhibit := false, pace.released := some tr, pace.freed := some tr }.showInhibit).raise .secure 0x0B54 [(8, tr)]

/-- An accepted change of FIRE_INHIBITn, active low. -/
def Dev.firePin (d : Dev) (level : Bool) (t : Nat) : Dev :=
  let d := d.wrB F.HL_INHIBIT_CTRL_PIN 0 !level
  if level then d.endInhibit t else d.assertInhibit t 0

/-- A write to HL_INHIBIT_CTRL. -/
def Dev.wInhibit (d : Dev) (val mask : Nat) : Dev :=
  let d := d.store R.HL_INHIBIT_CTRL 0 val mask
  if d.on F.HL_INHIBIT_CTRL_INHIBIT then d.assertInhibit d.now 1 else d.endInhibit d.now

/-- A stamp lies before tr. -/
def Dev.beforeRelease (d : Dev) (stamp : Nat) : Bool := match d.pace.freed with | some tr => decide (stamp < tr) | none => false

/-- A cue accepted with a stamp after tr is the NEXT_PAGE cue (R178, R365). A page cued while the inhibit lasts, or with a stamp before
tr, prints blank and is suspect, whichever way firing resumes (R365). Log entry 166 (DEDUCED). -/
def Dev.cueResumes (d : Dev) (stamp : Nat) (start : Int) : Dev :=
  if d.pace.inhibit || d.beforeRelease stamp then d.blankPage d.web.lastPage
  else match d.pace.released with
    | some tr =>
      if d.on F.HL_INHIBIT_CTRL_RESUME ∧ tr < stamp then { d with pace.released := none, pace.floor := some start }.showInhibit else d
    | none => d

/-- A cue is noted for every HOT head, for the boundary that opens beat C + 1 (R162): `next` is that boundary's beat count. A cue accepted
after that boundary goes by whether the head was cool at it. Log entry 164 (DEDUCED). -/
def Dev.cueHot (d : Dev) (next : Nat) (start : Int) : Dev :=
  (List.range d.headCount).foldl (fun d h =>
    if d.tempState h ≠ 2 then d
    else if d.tmb.beats < next then d.setTemp h fun x => { x with cue := x.cue.or (some (next, start)) }
    else if (d.headTemp h).cool then d.recordResume h start
    else d) d

/-- The inhibit at an opening boundary: NEXT_BEAT resumes, the order is withdrawn once firing has resumed, and is sent again while
the inhibit lasts (R178, R199). -/
def Dev.inhibitBoundary (d : Dev) : Dev :=
  let d := if d.pace.released.isSome && !d.on F.HL_INHIBIT_CTRL_RESUME then { d with pace.released := none } else d
  let d := { d with pace.order := d.pace.inhibit || d.pace.released.isSome }.showInhibit
  if d.pace.inhibit then d.sendInhibit else d

/-! ### The commands -/

def execLineBuild (en : Fin 2) (h : Fin 32) (row : Fin 2) (flt : LineFault) (s : State) : Host.Outcome State Fault Refusal :=
  s.actInOrder fun d => d.buildLine en h row flt

def execTrimCommit (m : Master) (en : Fin 2) (val : Nat) (s : State) : Host.Outcome State Fault Refusal :=
  s.act fun d => d.writeTo m R.PE_TRIM_CTRL en fun d => d.wPeTrimCtrl val mask32

def execHeadTempStale (h : Fin 32) (s : State) : Host.Outcome State Fault Refusal := s.act fun d => d.tempStale h

def execClaimWrite (m : Master) (en : Fin 2) (val : Nat) (s : State) : Host.Outcome State Fault Refusal :=
  s.act fun d => d.writeTo m R.PE_CLAIM en fun d => d.wPeClaim en val mask32

def execEngineSramError (en : Fin 2) (s : State) : Host.Outcome State Fault Refusal := s.act fun d => d.dropClaim en 3

def execEngineFailRate (en : Fin 2) (s : State) : Host.Outcome State Fault Refusal := s.act fun d => d.failRate en

def execFireInhibitnChange (level : Bool) (t : Nat) (s : State) : Host.Outcome State Fault Refusal :=
  s.actInOrder fun d => d.firePin level t

def execInhibitWrite (m : Master) (val : Nat) (s : State) : Host.Outcome State Fault Refusal :=
  s.actInOrder fun d => d.writeTo m R.HL_INHIBIT_CTRL 0 fun d => d.wInhibit val mask32

end Sys2Proof.Machine
end

