-- ==== Sys2Proof/Machine/Wire.lean ====
section
/-!
DEFINITION. The line codes of the head links (R179 to R183): characters and 8b/10b code groups of HL1 and HL2, scrambled 66-bit blocks of HL3,
and when a receiver of each is locked. The trace holds frames and signals as bytes; these functions say how they stand on the wire.
-/

namespace Sys2Proof.Machine

/-! ### Characters (R180) -/

/-- A character: data D or control K, by its byte. -/
inductive WireChar where
  | d (b : Nat)
  | k (b : Nat)
deriving DecidableEq, Repr, Inhabited

/-- K28.5, whose code group holds the comma. -/
def comma : WireChar := .k 0xBC

/-- /I/: K28.5 D16.2. -/
def idleChars : List WireChar := [comma, .d 0x50]

/-- A frame between /S/ and /T/. -/
def frameChars (bytes : List Byte) : List WireChar := .k 0xFB :: bytes.map (fun b => .d b.toNat) ++ [.k 0xFD]

/-- What a signal puts on an HL1 or HL2 link: ordered sets, a training set by its TS bytes 1 to 15, and 2,000 ns of /I/ for a wake, at 4 or
2 ns a character (R179, R207). Electrical idle, bursts (R200) and PRBS31 are no characters. -/
def signalChars (gen : Nat) : Signal → List WireChar
  | .idle => []
  | .wake => (List.replicate (if gen = 2 then 500 else 250) idleChars).flatten
  | .inhibit => [.k 0x7C, .k 0x7C]
  | .sleep => (List.replicate 4 [comma, .d 0xFE]).flatten
  | .training bytes => comma :: bytes.map fun b => .d b.toNat
  | .bursts _ | .prbs => []

/-- What a transmitter sends for frames that follow one another: one /I/ at least before each. Log entry 187 (PRESUMED). -/
def charStream (frames : List (List Byte)) : List WireChar := frames.flatMap fun f => idleChars ++ frameChars f

/-! ### 8b/10b code groups (IEEE 802.3 Clause 36). Log entry 187 (PRESUMED). -/

/-- abcdei of D.x for a negative running disparity. -/
def sixTable : List Nat :=
  [0b100111, 0b011101, 0b101101, 0b110001, 0b110101, 0b101001, 0b011001, 0b111000,
   0b111001, 0b100101, 0b010101, 0b110100, 0b001101, 0b101100, 0b011100, 0b010111] ++
  [0b011011, 0b100011, 0b010011, 0b110010, 0b001011, 0b101010, 0b011010, 0b111010,
   0b110011, 0b100110, 0b010110, 0b110110, 0b001110, 0b101110, 0b011110, 0b101011]

/-- fghj of D.x.y for a negative running disparity, the first of the two forms of y = 7. -/
def fourTable : List Nat := [0b1011, 0b1001, 0b0101, 0b1100, 0b1101, 0b1010, 0b0110, 0b1110]

/-- fghj of K28.y for a negative running disparity before the whole group. -/
def fourOfK : List Nat := [0b0100, 0b1001, 0b0101, 0b0011, 0b0010, 0b1010, 0b0110, 0b1000]

/-- Ones among the n low bits. -/
def ones (n v : Nat) : Nat := ((List.range n).filter fun i => v.testBit i).length

/-- The running disparity after a sub-block of n bits: positive after more ones than zeros, and after 000111 and 0011. -/
def disparity (n v : Nat) (rd : Bool) : Bool :=
  let o := ones n v
  if n < 2 * o then true
  else if 2 * o < n then false
  else if v = 2 ^ (n / 2) - 1 then true
  else if v = 2 ^ n - 2 ^ (n / 2) then false
  else rd

/-- The form of a sub-block for a running disparity: unbalanced ones, 111000 and 1100 are complemented where it is positive. -/
def subBlock (n v : Nat) (rd : Bool) : Nat :=
  if rd && (decide (2 * ones n v ≠ n) || decide (v = 2 ^ n - 2 ^ (n / 2))) then 2 ^ n - 1 - v else v

/-- The two sub-blocks of a data character. -/
def dataGroup (b : Nat) (rd : Bool) : Nat × Nat :=
  let x := b % 32
  let y := b / 32 % 8
  let six := subBlock 6 (sixTable.getD x 0) rd
  let rd' := disparity 6 six rd
  let other := decide (y = 7) && (if rd' then [11, 13, 14].contains x else [17, 18, 20].contains x)
  (six, subBlock 4 (if other then 0b0111 else fourTable.getD y 0) rd')

/-- The two sub-blocks of a control character: the whole group is complemented for a positive disparity. -/
def ctrlGroup (b : Nat) (rd : Bool) : Nat × Nat :=
  let x := b % 32
  let y := b / 32 % 8
  let six := if x = 28 then 0b001111 else sixTable.getD x 0
  let four := if x = 28 then fourOfK.getD y 0 else 0b1000
  if rd then (63 - six, 15 - four) else (six, four)

/-- The code group abcdeifghj of a character, a first, and the running disparity after it. Log entry 187 (PRESUMED). -/
def codeGroup (c : WireChar) (rd : Bool) : Nat × Bool :=
  let (six, four) := match c with
    | .d b => dataGroup b rd
    | .k b => ctrlGroup b rd
  (six * 16 + four, disparity 4 four (disparity 6 six rd))

/-- The code groups of characters sent one after another. Log entry 187 (PRESUMED). -/
def codeGroups : Bool → List WireChar → List Nat
  | _, [] => []
  | rd, c :: cs => let (g, rd) := codeGroup c rd; g :: codeGroups rd cs

/-- The control characters that Clause 36 has. -/
def ctrlBytes : List Nat := [0x1C, 0x3C, 0x5C, 0x7C, 0x9C, 0xBC, 0xDC, 0xFC, 0xF7, 0xFB, 0xFD, 0xFE]

/-- The character that a code group stands for at a running disparity; none is an invalid code group (R182). -/
def readGroup (g : Nat) (rd : Bool) : Option WireChar :=
  (ctrlBytes.map WireChar.k ++ (List.range 256).map WireChar.d).find? fun c => decide ((codeGroup c rd).1 = g)

/-! ### Blocks (R181) -/

/-- A 66-bit block: its sync header, and its 8 bytes with byte 0 the lowest. -/
structure Block where
  ctrl : Bool
  payload : BitVec 64
deriving DecidableEq, Repr, Inhabited

/-- A block from its bytes, padded with 0. -/
def blockOfBytes (ctrl : Bool) (bytes : List Byte) : Block := ⟨ctrl, BitVec.ofNat 64 (ofLeBytes (bytes.take 8))⟩

/-- A control block by its type. -/
def ctrlBlock (type : Nat) (bytes : List Byte) : Block := blockOfBytes true (BitVec.ofNat 8 type :: bytes.take 7)

def idleBlock : Block := ctrlBlock 0x1E []

/-- Data blocks of 8 bytes each; `fuel` bounds their number. -/
def dataBlocks : Nat → List Byte → List Block
  | 0, _ => []
  | fuel + 1, bytes => if bytes.isEmpty then [] else blockOfBytes false bytes :: dataBlocks fuel (bytes.drop 8)

/-- A frame: SOF with bytes 0 to 6, then data blocks. -/
def frameBlocks (bytes : List Byte) : List Block := ctrlBlock 0x78 bytes :: dataBlocks bytes.length (bytes.drop 7)

/-- The blocks of a signal on an HL3 link: a wake is IDLE for 2,000 ns at 6.4 ns a block (R207). Electrical idle, bursts (R200) and PRBS31
are no blocks. -/
def signalBlocks : Signal → List Block
  | .idle => []
  | .wake => List.replicate 313 idleBlock
  | .inhibit => [ctrlBlock 0x4B []]
  | .sleep => List.replicate 4 (ctrlBlock 0x55 [])
  | .training bytes => [ctrlBlock 0x2D bytes, blockOfBytes false (bytes.drop 7)]
  | .bursts _ | .prbs => []

/-- What a transmitter sends for frames that follow one another: one IDLE block at least before each. Log entry 187 (PRESUMED). -/
def blockStream (frames : List (List Byte)) : List Block := frames.flatMap fun f => idleBlock :: frameBlocks f

/-- The types that a control block may have. -/
def ctrlTypes : List Nat := [0x1E, 0x78, 0x4B, 0x2D, 0x55]

/-- The 64 payload bits through the self-synchronous scrambler x^58 + x^39 + 1, bit 0 first; bit i of its state is the bit sent i + 1 bits ago. Log entry 187 (PRESUMED). -/
def scramble : Nat → BitVec 64 → BitVec 58 → BitVec 64 × BitVec 58
  | 0, _, s => (0, s)
  | n + 1, p, s =>
    let bit := Bool.xor (p.getLsbD 0) (Bool.xor (s.getLsbD 38) (s.getLsbD 57))
    let (r, t) := scramble n (p >>> 1) ((s <<< 1) ||| (if bit then 1 else 0))
    ((r <<< 1) ||| (if bit then 1 else 0), t)

/-- The inverse: the state takes the bits received. -/
def descramble : Nat → BitVec 64 → BitVec 58 → BitVec 64 × BitVec 58
  | 0, _, s => (0, s)
  | n + 1, p, s =>
    let got := p.getLsbD 0
    let bit := Bool.xor got (Bool.xor (s.getLsbD 38) (s.getLsbD 57))
    let (r, t) := descramble n (p >>> 1) ((s <<< 1) ||| (if got then 1 else 0))
    ((r <<< 1) ||| (if bit then 1 else 0), t)

/-- The 66 bits of a block, the first sent lowest: the header 01 or 10, then the scrambled payload. Log entry 187 (PRESUMED). -/
def Block.bits (b : Block) (s : BitVec 58) : BitVec 66 × BitVec 58 :=
  let (p, s) := scramble 64 b.payload s
  (p ++ (if b.ctrl then 0b01#2 else 0b10#2), s)

/-! ### Time on the wire (R179, R186) -/

/-- Time that a frame of n bytes takes on the wire, in tenths of a ns: characters of 4 or 2 ns, or blocks of 6.4 ns. -/
def wireTime (gen n : Nat) : Nat :=
  if gen = 3 then (1 + (n - 7 + 7) / 8) * 64 else (n + 2) * (if gen = 2 then 20 else 40)

/-! ### Receivers (R182, R183): when RX_LOCK_ACQUIRED and RX_LOCK_LOST come -/

/-- What an 8b/10b receiver sees of one character: K28.5 at one of ten bit alignments, another valid code group, or an invalid one. -/
inductive Heard where
  | comma (align : Fin 10) | valid | invalid
deriving DecidableEq, Repr, Inhabited

/-- An 8b/10b receiver: the alignment of the last K28.5 and the ordered sets in a row that began there, or, once locked, the ages of
invalid code groups and of the last K28.5. -/
structure CharRx where
  locked : Bool := false
  align : Fin 10 := 0
  sets : Nat := 0
  bad : List Nat := []
  age : Nat := 0
deriving DecidableEq, Repr, Inhabited

/-- One character (R182). A K28.5 at another alignment begins a new count; once locked, the receiver reads it as an invalid code group. Log entry 202 (DEDUCED). -/
def CharRx.hear (r : CharRx) (h : Heard) : CharRx :=
  if !r.locked then
    match h with
    | .comma a =>
      if a ≠ r.align ∨ r.sets = 0 then { align := a, sets := 1 }
      else if r.sets = 3 then { locked := true, align := a }
      else { r with sets := r.sets + 1 }
    | .valid => r
    | .invalid => {}
  else
    let wrong := match h with | .comma a => decide (a ≠ r.align) | .valid => false | .invalid => true
    let bad := (if wrong then [0] else []) ++ ((r.bad.map (· + 1)).filter fun a => decide (a < 256))
    let age := if h = .comma r.align then 0 else r.age + 1
    if 8 ≤ bad.length ∨ 4096 ≤ age then {} else { r with bad := bad, age := age }

/-- An HL3 receiver: the candidate bit position and the valid headers counted at it, or, once locked, the ages of invalid headers. -/
structure BlockRx where
  locked : Bool := false
  pos : Nat := 0
  good : Nat := 0
  bad : List Nat := []
deriving DecidableEq, Repr, Inhabited

/-- One sync header (R183). -/
def BlockRx.hear (r : BlockRx) (valid : Bool) : BlockRx :=
  if !r.locked then
    if !valid then { pos := (r.pos + 1) % 66 }
    else if r.good = 95 then { locked := true, pos := r.pos }
    else { r with good := r.good + 1 }
  else
    let bad := (if valid then [] else [0]) ++ ((r.bad.map (· + 1)).filter fun a => decide (a < 128))
    if 24 ≤ bad.length then { pos := r.pos } else { r with bad := bad }

end Sys2Proof.Machine
end

