-- ==== Sys2Proof/Machine/Link.lean ====
section
/-!
DEFINITION. Chapter 11 and head authentication of chapter 17: frames and their order, beacons and the link delay, STATUS, the
management channel with the head checks, AUTH exchanges and usage counts, training, service, and sleep. Link times are in 2^-16 ns.
-/

namespace Sys2Proof.Machine

/-! ### A link -/

def Dev.link (d : Dev) (l : Nat) : LinkSt := at' d.hl l

def Dev.setLink (d : Dev) (l : Nat) (f : LinkSt → LinkSt) : Dev := { d with hl := d.hl.modify l f }

/-- HL_STAT STATE: 0 DISABLED, 1 WAKE, 2 ALIGN, 3 EQ, 4 CONFIRM, 5 ACTIVE, 6 RECOVERY, 7 DOWN, 8 TEST. -/
def Dev.linkState (d : Dev) (l : Nat) : Nat := d.rd F.HL_STAT_STATE l

def Dev.linkUp (d : Dev) (l : Nat) : Bool := d.on F.HL_STAT_UP l

def Dev.linkGen (d : Dev) (l : Nat) : Nat := d.rd F.HL_STAT_GEN l

def Dev.linkSec (d : Dev) (l : Nat) : LinkSec := at' d.pat.loaded.links l

/-- The heads of the gauge that a link serves. -/
def Dev.headsOf (d : Dev) (l : Nat) : List Nat := (List.range d.headCount).filter fun h => decide (d.linkOf h = l)

/-- HL_STAT HEAD_FLAGS bit b (R194). -/
def Dev.headFlag (d : Dev) (l b : Nat) : Bool := d.bit F.HL_STAT_HEAD_FLAGS b l

/-- The head's copy is realigned (R193). -/
def Dev.realigned (d : Dev) (l : Nat) : Bool := d.headFlag l 2 && decide ((d.link l).stepsSeen = d.steps % 256)

/-- Every link with a head reports its copy realigned (R81): a link that is DISABLED, DOWN or in TEST has none. Log entry 186 (DEDUCED). -/
def Dev.allRealigned (d : Dev) : Bool :=
  (List.range d.headCount).all fun h =>
    let l := d.linkOf h
    decide (d.linkState l = 0 ∨ 7 ≤ d.linkState l) || (decide (d.linkState l = 5) && d.realigned l)

/-- A link in service still waits for the answer to a BANK_SEL write: the device writes it before the first line that it builds under a
gauge of another ROW_MODE (R153). Log entry 200 (DEDUCED). -/
def Dev.banksDue (d : Dev) : Bool :=
  (List.range 32).any fun l => d.inService l && (match (d.link l).check with | some c => decide (c.phase = 4) | none => false)

/-- Lines are built: cast-on has completed (R64), no step waits for the heads (R81), and every head has been given its waveform bank
(R153). Log entry 200 (DEDUCED). -/
def Dev.buildsLines (d : Dev) : Bool := d.sys.done && (!d.tmb.unaligned && !d.banksDue)

/-! ### Frames (R184 to R190) -/

/-- Send a frame at time t (R184): SEQ counts per link. -/
def Dev.sendFrame (d : Dev) (l : Fin 32) (t kind : Nat) (body : List Byte) : Dev :=
  let seq := (d.link l).seq
  let b := leBytes 1 kind ++ leBytes 1 seq ++ leBytes 2 body.length ++ body
  let gone := t + wireTime (d.linkGen l) (body.length + 8) * 65536 / 10
  (d.setLink l fun x => { x with seq := (seq + 1) % 256, busy := gone }).emit (.frame l t (b ++ leBytes 4 (crc32 b)))

/-- STATUS_LOG that a BEACON carries (R194). -/
def Dev.statusLog (d : Dev) (l : Nat) : Nat := if d.inService l then d.rd F.HL_GLOBAL_CFG_STATUS_LOG else 2

/-- A BEACON (R190). -/
def Dev.sendBeacon (d : Dev) (l : Fin 32) (t : Nat) : Dev :=
  let arr := t + d.rd F.HL_DELAY_D_DN l
  let upSleep := d.on F.HL_CFG_UP_SLEEP_EN l && d.inService l
  let flags := flag d.pace.order 0 + flag upSleep 1 + d.statusLog l * 16
  let d := d.setLink l fun x => { x with beaconDue := false, beacons := ((d.beat % 65536, t) :: x.beacons).take 1024 }
  d.sendFrame l t 3 (pack [(8, d.beat), (8, arr / 65536), (2, arr % 65536), (1, d.steps), (1, flags), (4, 0)])

/-- The row offset in 0.25 ns that the head adds to a line (R189). -/
def LinkSt.offset (x : LinkSt) (row fireBeat : Nat) : Int :=
  match x.adj.find? fun a => decide (a.1 ≤ fireBeat) with
  | some (_, a, b) => if row = 0 then a else b
  | none => 0

/-- Bytes of a LINE frame's body; BLANK when every code is 0 (R186). -/
def TxLine.body (t : TxLine) : List Byte :=
  let blank := t.codes.all fun c => decide (c = 0)
  pack [(6, ofSigned 48 t.line), (1, t.row + flag t.fine 1 + flag blank 2), (1, 0), (4, fireField t.q)] ++
    (if blank then [] else codeBytes t.fine t.codes)

/-- The last bit leaves in time (R187). -/
def Dev.inTime (d : Dev) (l t : Nat) (x : TxLine) : Bool :=
  let fire : Int := ((x.q : Int) + (d.link l).offset x.row (x.q / 16000)) * 2 ^ 14
  let limit : Int := fire - d.rd F.HL_DELAY_D_DN l - 500 * 65536
  decide ((t : Int) * 10 + wireTime (d.linkGen l) (x.body.length + 8) * 65536 ≤ limit * 10)

def Dev.setTx (d : Dev) (x : TxLine) (f : TxLine → TxLine) : Dev :=
  { d with pace.tx := d.pace.tx.map fun y => if y = x then f y else y }

/-- The lines that wait for a link, earliest FIRE first. -/
def insertTx (x : TxLine) : List TxLine → List TxLine
  | [] => [x]
  | y :: ys => if x.q < y.q then x :: y :: ys else y :: insertTx x ys

def Dev.waitingLines (d : Dev) (l : Nat) : List TxLine :=
  (d.pace.tx.filter fun x => x.waiting && decide (d.linkOf x.head = l)).foldl (fun acc x => insertTx x acc) []

/-- A FIRE_ADJ frame, effective three beats later (R189). -/
def Dev.sendAdj (d : Dev) (l : Fin 32) (t : Nat) : Dev :=
  let e := d.beat + 3
  let a := d.rdS F.HL_FIRE_ADJ_ROW_A l
  let b := d.rdS F.HL_FIRE_ADJ_ROW_B l
  let d := d.setLink l fun x => { x with adjDue := false, adj := ((e, a, b) :: x.adj).take 4 }
  d.sendFrame l t 2 (pack [(2, ofSigned 16 a), (2, ofSigned 16 b), (2, e % 65536), (2, 0)])

/-! ### Requests to a head (R195, R197) -/

def Dev.req (d : Dev) (l p : Nat) : Option MgReq := at' (d.link l).reqs p

def Dev.setReq (d : Dev) (l p : Nat) (r : Option MgReq) : Dev := d.setLink l fun x => { x with reqs := x.reqs.set p r }

/-- Grant the next requester, round robin. -/
def Dev.grantNext (d : Dev) (l : Nat) : Dev :=
  let x := d.link l
  if x.grant.isSome then d
  else match [1, 2, 3].find? fun k => (at' x.reqs ((x.last + k) % 3)).isSome with
    | some k => d.setLink l fun x => { x with grant := some ((x.last + k) % 3), last := (x.last + k) % 3 }
    | none => d

/-- Queue a request with a TAG of its own. -/
def Dev.queueReq (d : Dev) (l p : Nat) (r : MgReq) : Dev :=
  let t := ((d.link l).tag + 1) % 256
  ((d.setLink l fun x => { x with tag := t }).setReq l p (some { r with tag := t })).grantNext l

def Dev.setCheck (d : Dev) (l : Nat) (c : HeadCheck) : Dev := d.setLink l fun x => { x with check := some c }

/-- BANK_SEL for the gauge's ROW_MODE (R153). -/
def Dev.bankSel (d : Dev) : Nat := if d.gauge.dual then 1 else 0

/-- The checks write BANK_SEL (R196). -/
def Dev.selectBank (d : Dev) (l : Nat) (c : HeadCheck) : Dev :=
  (d.setCheck l { c with phase := 4, sel := d.bankSel }).queueReq l 2 { write := true, addr := 5, count := 1, data := [d.bankSel] }

/-! ### Authentication (R311 to R315) -/

/-- HSERIAL as read under R196. -/
def Dev.headSerial (d : Dev) (l : Nat) : Nat := at' (d.link l).ids 1 + at' (d.link l).ids 2 * 2 ^ 32

/-- K_h of a serial number (R311). Log entry 43 (DEDUCED). -/
def Dev.headKey (d : Dev) (hserial : Nat) : List Byte :=
  cmac (leBytes 16 d.vlt.used.headRoot.value) (pack [(4, 0x4B41484B), (8, hserial), (4, 0x80000000)])

/-- Body bytes 0 to 35 of an AUTH frame (R198). Log entries 42 (PRESUMED), 43 (DEDUCED). -/
def authHead (sub hserial nonce usage : Nat) : List Byte := pack [(4, sub), (8, hserial), (16, nonce), (8, usage)]

/-- The MAC that R312 asks for. -/
def Dev.authMac (d : Dev) (sub hserial nonce usage : Nat) : Nat :=
  ofLeBytes (cmac (d.headKey hserial) (authHead sub hserial nonce usage))

def Dev.sendAuth (d : Dev) (l : Fin 32) (t : Nat) (a : AuthEx) : Dev :=
  let hs := d.headSerial l
  let sub := if a.update then 3 else 1
  let usage := if a.update then a.amount else 0
  let mac := if a.update then d.authMac 3 hs a.nonce usage else 0
  let d := d.setLink l fun x => { x with auth := some { a with waiting := false } }
  d.sendFrame l t 6 (authHead sub hs a.nonce usage ++ leBytes 16 mac ++ leBytes 4 0)

/-- The link's head has passed authentication, the last time one ended; while HEAD_ROOT is blank every head counts as passed
(R314). Log entry 44 (DEDUCED). -/
def Dev.authPassed (d : Dev) (l : Nat) : Bool := d.vlt.used.headRoot.blank || decide ((d.link l).verdict = some true)

/-- The last authentication of the head that ended failed. Log entry 46 (DEDUCED). -/
def Dev.authFailed (d : Dev) (l : Nat) : Bool := decide ((d.link l).verdict = some false)

/-- At the first pass after a reset the stored units join the pending count, if they are this head's (R317). -/
def Dev.restoreUsage (d : Dev) (l : Nat) : Dev :=
  match d.vlt.restored.lookup l with
  | none => d
  | some w =>
    let d := { d with vlt.restored := d.vlt.restored.filter fun p => decide (p.1 ≠ l) }
    if w % 256 = d.headSerial l % 256 then d.bump F.VLT_HEAD_PENDING_PENDING l (w / 256 * 65536) else d

/-- Start what falls due on a link that has no exchange: an authentication first (R315). Log entry 44 (DEDUCED). Log entry 193 (DEDUCED). -/
def Dev.nextAuth (d : Dev) (l : Nat) : Dev :=
  let x := d.link l
  if x.auth.isSome ∨ !d.linkUp l then d
  else if x.authDue && x.named then
    let d := d.setLink l fun x => { x with authDue := false }
    if d.vlt.used.headRoot.blank then (d.wr F.VLT_HEAD_STAT_AUTH l 0).restoreUsage l
    else
      let (n, d) := d.free (2 ^ 128)
      let d := d.setLink l fun x => { x with auth := some { nonce := n, tries := 1 } }
      (d.wr F.VLT_HEAD_STAT_AUTH l 1).wr F.VLT_HEAD_SERIAL_HSERIAL l (d.headSerial l)
  else if x.updateDue then
    let (n, d) := d.free (2 ^ 128)
    d.setLink l fun x => { x with
      updateDue := false
      auth := some { update := true, nonce := n, amount := d.rd F.VLT_HEAD_PENDING_PENDING l, tries := 1 } }
  else d

/-- The checks of R196 go on to their last item, BANK_SEL, once the authentication is over: `did` tells that one has just ended. Log entry 193 (DEDUCED). -/
def Dev.afterAuth (d : Dev) (l : Nat) (did : Bool) : Dev :=
  let x := d.link l
  match x.check with
  | some c => if c.phase = 3 ∧ (did ∨ (x.auth.isNone ∧ !x.authDue)) then d.selectBank l c else d
  | none => d

/-- An exchange ends, and one that is due begins (R315). -/
def Dev.endAuth (d : Dev) (l : Nat) : Dev :=
  let did := match (d.link l).auth with | some a => !a.update | none => false
  ((d.setLink l fun x => { x with auth := none }).nextAuth l).afterAuth l did

/-- The head fails: 1 NO_ANSWER, 2 MAC, 3 SERIAL, 4 NONCE. -/
def Dev.authFail (d : Dev) (l cause : Nat) : Dev :=
  let pol := if (d.linkSec l).warn then 1 else 0
  let d := ((d.wr F.VLT_HEAD_STAT_AUTH l 3).wr F.VLT_HEAD_STAT_CAUSE l cause).wr F.VLT_HEAD_STAT_POLICY l pol
  let d := d.setLink l fun x => { x with verdict := some false }
  (d.raise .secure 0x0301 [(1, l), (1, cause), (1, pol)]).endAuth l

/-- A head that BLOCK keeps out, until an authentication passes (R314). Log entry 46 (DEDUCED). -/
def Dev.authBlocked (d : Dev) (l : Nat) : Bool := d.authFailed l && !(d.linkSec l).warn

/-- A RESPONSE (R314). Log entry 44 (DEDUCED). -/
def Dev.authResponse (d : Dev) (l : Nat) (m : AuthBody) : Dev :=
  match (d.link l).auth with
  | some a =>
    let hs := d.headSerial l
    if a.update ∨ a.waiting then d
    else if m.hserial.toNat ≠ hs then d.authFail l 3
    else if m.nonce.toNat ≠ a.nonce then d.authFail l 4
    else if m.mac.toNat ≠ d.authMac 2 hs a.nonce m.usage.toNat then d.authFail l 2
    else
      let d := ((d.wr F.VLT_HEAD_STAT_AUTH l 2).wr F.VLT_HEAD_STAT_CAUSE l 0).wr F.VLT_HEAD_USAGE_TOTAL l m.usage.toNat
      let d := d.setLink l fun x => { x with verdict := some true }
      ((d.restoreUsage l).raise .secure 0x0302 [(1, l), (8, hs)]).endAuth l
  | none => d

/-- The answer has not come within 1 ms: again with a fresh NONCE, three times in all (R314, R316). -/
def Dev.authAgain (d : Dev) (l : Nat) (update : Bool) : Dev :=
  match (d.link l).auth with
  | some a =>
    if a.update ≠ update ∨ a.waiting then d
    else if a.tries < 3 then
      let (n, d) := d.free (2 ^ 128)
      d.setLink l fun x => { x with auth := some { a with nonce := n, tries := a.tries + 1, waiting := true } }
    else if update then (d.raise .secure 0x0303 [(1, l), (4, d.rd F.VLT_HEAD_PENDING_PENDING l)]).endAuth l
    else d.authFail l 1
  | none => d

/-- A verified COUNT_ACK (R316). -/
def Dev.countAck (d : Dev) (l : Nat) (m : AuthBody) : Dev :=
  match (d.link l).auth with
  | some a =>
    let hs := d.headSerial l
    if !a.update ∨ a.waiting ∨ m.hserial.toNat ≠ hs ∨ m.nonce.toNat ≠ a.nonce ∨
        m.mac.toNat ≠ d.authMac 4 hs a.nonce m.usage.toNat then d
    else
      let d := d.wr F.VLT_HEAD_PENDING_PENDING l (d.rd F.VLT_HEAD_PENDING_PENDING l - a.amount)
      (d.wr F.VLT_HEAD_USAGE_TOTAL l m.usage.toNat).endAuth l
  | none => d

/-- The period of COUNT_UPDATEs ends (R316). -/
def Dev.usagePeriod (d : Dev) : Dev :=
  (List.range 32).foldl (fun d l =>
    if d.inService l ∧ d.authPassed l then (d.setLink l fun x => { x with updateDue := true }).nextAuth l else d) d

/-- A write to VLT_AUTH_REAUTH: an authentication of each named head whose link is UP, as soon as its HSERIAL has been read; one that
runs is followed by one more (R314, R315). Log entry 193 (DEDUCED). -/
def Dev.wReauth (d : Dev) (val mask : Nat) : Dev :=
  (List.range 32).foldl (fun d l =>
    if (Nat.land val mask).testBit l ∧ d.linkUp l then (d.setLink l fun x => { x with authDue := true }).nextAuth l
    else d) d

/-- Actuations of the lines about to commit join the pending counts, or UNAUTH under WARN (R314, R316). -/
def Dev.usageCommit (d : Dev) : Dev :=
  (d.pace.tx.filter fun t => !t.committed && !t.dropped).foldl (fun d t =>
    let l := d.linkOf t.head
    let n := t.codes.countP fun c => decide (c ≠ 0)
    if n = 0 then d
    else if d.authPassed l then d.bump F.VLT_HEAD_PENDING_PENDING l n
    else if d.authFailed l ∧ (d.linkSec l).warn then
      let k := mapGet d.unauth l 0 + n
      { d with unauth := mapSet d.unauth l (k % 65536) 0 }.count F.VLT_HEAD_PENDING_UNAUTH l (k / 65536)
    else d) d

/-- What the commit of a line added to the usage counts is taken back. Log entry 66 (DEDUCED). -/
def Dev.unuse (d : Dev) (t : TxLine) : Dev :=
  let l := d.linkOf t.head
  let n := t.codes.countP fun c => decide (c ≠ 0)
  if d.authPassed l then d.wr F.VLT_HEAD_PENDING_PENDING l (d.rd F.VLT_HEAD_PENDING_PENDING l - n)
  else if d.authFailed l ∧ (d.linkSec l).warn then
    let k := mapGet d.unauth l 0
    if n ≤ k then { d with unauth := mapSet d.unauth l (k - n) 0 }
    else { d with unauth := mapSet d.unauth l (k + 65536 - n) 0 }.uncount F.VLT_HEAD_PENDING_UNAUTH l
  else d

/-! ### Lines that are not transmitted -/

/-- A line is not transmitted: it commits as no fire (R154, R187). -/
def Dev.dropLine (d : Dev) (x : TxLine) : Dev :=
  let d := d.setTx x fun y => { y with waiting := false, dropped := true }
  if x.committed then (d.uncommit x).unuse x else d

/-- A LINE frame that cannot start in time is not sent (R187). -/
def Dev.txLate (d : Dev) (l : Nat) (x : TxLine) : Dev :=
  let d := (d.dropLine x).count F.HL_COUNT_TX_LATE l 1
  let d := d.suspectRunning
  d.tally .secure 0x0B05 l [(1, l), (6, ofSigned 48 x.line)]

/-- Give up the waiting lines that cannot leave in time even if nothing but what is due goes before them: t is the earliest start, in
2^-16 ns. -/
def Dev.doomed (d : Dev) (l t : Nat) : List TxLine → Dev
  | [] => d
  | x :: xs =>
    if d.inTime l t x then d.doomed l (t + wireTime (d.linkGen l) (x.body.length + 8) * 65536 / 10) xs
    else (d.txLate l x).doomed l t xs

/-- Bytes of a BEACON's body (R190). -/
def beaconLen : Nat := 24

/-- A BEACON goes first at the boundary: an ACTIVE link that is awake downstream is given one there, and one may be due already. -/
def Dev.beaconFirst (d : Dev) (l : Nat) : Bool :=
  decide (d.linkState l = 5) && (!d.on F.HL_STAT_DN_ASLEEP l || (d.link l).beaconDue)

/-- The earliest time after the closing boundary at which a link can start a LINE frame: the frame under way ends first, and the BEACON
that is due is sent (R187). -/
def Dev.lineStart (d : Dev) (l : Nat) : Nat :=
  max (d.boundary * 65536) (d.link l).busy + (if d.beaconFirst l then wireTime (d.linkGen l) (beaconLen + 8) * 65536 / 10 else 0)

/-- At the closing boundary a waiting line whose chance has gone commits as no fire (R187). Log entry 66 (DEDUCED). -/
def Dev.dropDoomed (d : Dev) : Dev :=
  (List.range 32).foldl (fun (d : Dev) (l : Nat) => d.doomed l (d.lineStart l) (d.waitingLines l)) d

/-! ### Management channel (R195, R197) -/

/-- Instance of a mailbox register. -/
def boxIdx (l p : Nat) : Nat := l * 2 + p

/-- A host's request completes: MGMT_DONE (R197). Log entry 79 (DEDUCED). -/
def Dev.mgmtDone (d : Dev) (l : Nat) (p : Fin 2) (result tag : Nat) : Dev :=
  let i := boxIdx l p
  let d := ((d.wrB F.HL_MGMT_STAT_BUSY i false).wrB F.HL_MGMT_STAT_DONE i true).wr F.HL_MGMT_STAT_RESULT i result
  d.raise (.port p) 0x0B08 [(1, l), (1, p), (1, result), (2, tag)]

/-- A requester gives the channel up. Log entry 79 (DEDUCED). -/
def Dev.dropReq (d : Dev) (l p : Nat) : Dev :=
  let d := d.setReq l p none
  if (d.link l).grant = some p then (d.setLink l fun x => { x with grant := none }).grantNext l else d

/-- A write to HL_MGMT_CMD by its own port: GO and CANCEL (R197). Log entry 79 (DEDUCED). -/
def Dev.wMgmtCmd (d : Dev) (l : Nat) (p : Fin 2) (val mask : Nat) : Dev :=
  let i := boxIdx l p
  let v := Nat.land val mask
  if d.on F.HL_MGMT_STAT_BUSY i then
    if !v.testBit 33 then d
    else match d.req l p with
      | some r => if r.sent then d.setReq l p (some { r with cancelled := true }) else (d.dropReq l p).mgmtDone l p 6 r.tag
      | none => d
  else
    let d := d.store R.HL_MGMT_CMD i val mask
    if !v.testBit 32 then d
    else
      let r : MgReq := {
        write := d.on F.HL_MGMT_CMD_WRITE i, addr := d.rd F.HL_MGMT_CMD_ADDR i, count := d.rd F.HL_MGMT_CMD_COUNT i
        data := (List.range 8).map fun k => d.rd F.HL_MGMT_DATA_DATA (i * 8 + k) }
      if d.linkUp l then (d.wrB F.HL_MGMT_STAT_BUSY i true).queueReq l p r else d.mgmtDone l p 5 0

/-- A write to HL_MGMT_DATA is ignored while BUSY. Log entry 79 (DEDUCED). -/
def Dev.wMgmtData (d : Dev) (i val mask : Nat) : Dev :=
  if d.on F.HL_MGMT_STAT_BUSY (i / 8) then d else d.store R.HL_MGMT_DATA i val mask

/-- Send a granted request. -/
def Dev.sendMgmt (d : Dev) (l : Fin 32) (t p : Nat) (r : MgReq) : Dev :=
  let body := pack [(1, if r.write then 2 else 1), (1, r.tag), (1, 0), (1, r.count), (2, r.addr), (2, 0)] ++
    (if r.write then wordBytes (r.data.take r.count) else [])
  (d.setReq l p (some { r with sent := true })).sendFrame l t 4 body

/-! ### The head checks (R196, R206) -/

def LinkSt.bankWords (x : LinkSt) : Nat := min (at' x.ids 9) 8192

/-- The checks run from cast-on step 12 on. -/
def Dev.checksRun (d : Dev) : Bool := d.sys.done || (d.sys.castOn && decide (12 ≤ d.rd F.SYS_CASTON_STAT_STEP))

/-- The device's next request of the checks under way. -/
def Dev.checkReq (d : Dev) (l : Nat) : Dev :=
  let x := d.link l
  match x.check with
  | some c =>
    if c.phase = 0 then d.queueReq l 2 { addr := 0, count := 8 }
    else if c.phase = 1 then d.queueReq l 2 { addr := 8, count := 2 }
    else if c.phase = 2 then
      d.queueReq l 2 { addr := at' x.ids 8 + c.bank * x.bankWords + c.pos, count := min 8 (x.bankWords - c.pos) }
    else d
  | none => d

/-- Start the checks of an UP link. -/
def Dev.startCheck (d : Dev) (l : Nat) : Dev :=
  if d.linkUp l ∧ (d.link l).check.isNone then (d.setCheck l {}).checkReq l else d

/-- A bank has been read: compare its CRC, then the next bank, or after both the authentication (R196). -/
def Dev.bankRead (d : Dev) (l : Nat) (c : HeadCheck) : Dev :=
  if Nat.xor c.crc 0xFFFFFFFF ≠ at' (d.link l).ids (6 + c.bank) then d.setCheck l { c with phase := 5, fail := 1 }
  else if c.bank = 0 then (d.setCheck l { c with bank := 1, pos := 0, crc := 0xFFFFFFFF }).checkReq l
  else if d.headFlag l 4 then d.setCheck l { c with phase := 5, fail := 2 }
  else (((d.setCheck l { c with phase := 3 }).setLink l fun x => { x with authDue := true }).nextAuth l).afterAuth l false

/-- The answer to a request of the checks: BUSY asks again, another error is a mismatch. -/
def Dev.checkAnswer (d : Dev) (l result : Nat) (data : List Nat) : Dev :=
  match (d.link l).check with
  | none => d
  | some c =>
    if result = 3 then (if c.phase = 4 then d.selectBank l c else d.checkReq l)
    else if result ≠ 0 then d.setCheck l { c with phase := 5, fail := 1 }
    else if c.phase = 0 then
      let d := d.setLink l fun x => { x with ids := (data ++ List.replicate 8 0).take 8 ++ x.ids.drop 8 }
      (d.setCheck l { c with phase := 1 }).checkReq l
    else if c.phase = 1 then
      let d := (d.setLink l fun x => { x with ids := x.ids.take 8 ++ (data ++ [0, 0]).take 2, named := true }).nextAuth l
      let d := d.setCheck l { c with phase := 2 }
      if (d.link l).bankWords = 0 then d.setCheck l { c with phase := 5, fail := 1 } else d.checkReq l
    else if c.phase = 2 then
      let n := min 8 ((d.link l).bankWords - c.pos)
      let c := { c with pos := c.pos + n, crc := crcRun c.crc (wordBytes ((data ++ List.replicate 8 0).take n)) }
      if c.pos < (d.link l).bankWords then (d.setCheck l c).checkReq l else d.bankRead l c
    else if c.sel = d.bankSel then d.setCheck l { c with phase := 5 }
    else d.selectBank l c

/-- An answer to the outstanding request arrives, or its time is over (R195, R197). -/
def Dev.mgmtAnswer (d : Dev) (l : Nat) (tag : Option Nat) (write : Bool) (result : Nat) (data : List Nat) : Dev :=
  match (d.link l).grant with
  | none => d
  | some p =>
    match d.req l p with
    | none => d
    | some r =>
      if !r.sent ∨ (tag.isSome ∧ (tag ≠ some r.tag ∨ write ≠ r.write)) then d
      else
        let d := d.dropReq l p
        if p = 2 then
          if tag.isNone then (match (d.link l).check with
            | some c => d.setCheck l { c with phase := 5, fail := 3 }
            | none => d)
          else d.checkAnswer l result data
        else
          let d := if tag.isSome ∧ !r.write ∧ !r.cancelled ∧ result = 0 then
              (data.take r.count).zipIdx.foldl (fun d w => d.wr F.HL_MGMT_DATA_DATA (boxIdx l p * 8 + w.2) w.1) d
            else d
          d.mgmtDone l (if p = 0 then 0 else 1) (if r.cancelled then 6 else result) r.tag

/-! ### Service -/

/-- The longest delay at which a link enters service, 500 ns (R191). -/
def maxDelay : Nat := 500 * 65536

/-- The estimator holds 16 accepted samples and D_DN is at most 500 ns. Log entry 75 (DEDUCED). -/
def Dev.delayOk (d : Dev) (l : Nat) : Bool := decide (16 ≤ d.rd F.HL_DELAY_ACCEPTED l) && decide (d.rd F.HL_DELAY_D_DN l ≤ maxDelay)

/-- Set IN_SERVICE afresh (R191, R206): FIRE_ADJ is sent on entry, an exchange ends on leaving (R189, R315). A D_DN above 500 ns
keeps a link from entering service, and does not end service. Log entry 75 (DEDUCED). -/
def Dev.serviceUpdate (d : Dev) (l : Nat) : Dev :=
  let s := d.linkUp l && ((d.link l).checked && (decide (16 ≤ d.rd F.HL_DELAY_ACCEPTED l) && (d.inService l || d.delayOk l)))
  if s = d.inService l then d
  else if s then (d.wrB F.HL_STAT_IN_SERVICE l true).setLink l fun x => { x with adjDue := true }
  else
    let d := (d.wrB F.HL_STAT_IN_SERVICE l false).setLink l fun x => { x with auth := none }
    let d := (d.waitingLines l).foldl (fun d x => d.dropLine x) d
    (if d.rd F.VLT_HEAD_STAT_AUTH l = 1 then d.wr F.VLT_HEAD_STAT_AUTH l 0 else d).nextAuth l

/-- The checks have ended (R206): during cast-on step 12 a failure fails the step. -/
def Dev.checkEnds (d : Dev) (l : Nat) : Dev :=
  match (d.link l).check with
  | none => d
  | some c =>
    if c.phase ≠ 5 then d
    else
      let d := d.setLink l fun x => { x with check := none, checked := decide (c.fail = 0) }
      let d := d.serviceUpdate l
      if c.fail = 0 then d
      else if d.sys.castOn ∧ d.rd F.SYS_CASTON_STAT_STEP = 12 then d.setLink l fun x => { x with checkFailed := true }
      else (d.wr F.HL_STAT_CAUSE l 14).raise .secure 0x0B0A [(1, l), (1, c.fail)]

/-- A new gauge has changed ROW_MODE: BANK_SEL is written again, at once, or where a BANK_SEL write is queued or sent, once that is
answered (R153). -/
def Dev.rewriteBank (d : Dev) : Dev :=
  ((List.range 32).filter fun l => d.linkUp l).foldl (fun d l =>
    match (d.link l).check with
    | none => if (d.link l).checked then d.selectBank l {} else d
    | some c => if c.phase = 5 ∧ c.fail = 0 then d.selectBank l c else d) d

/-- The delay estimator starts empty (R191). -/
def Dev.emptyDelay (d : Dev) (l : Nat) : Dev :=
  (d.setLink l fun x => { x with samples := [], rejects := 0 }).wr F.HL_DELAY_ACCEPTED l 0

def sumInt (l : List Int) : Int := l.foldl (fun a b => a + b) 0

/-- A round-trip sample (R191). Log entry 76 (DESIGN CHOICE). -/
def Dev.delaySample (d : Dev) (l : Nat) (rtt : Int) : Dev :=
  let x := d.link l
  let n := x.samples.length
  let mean := sumInt x.samples / ((max n 1 : Nat) : Int)
  if d.rd F.HL_DELAY_ACCEPTED l < 16 ∨ (rtt - mean).natAbs ≤ 8 * 65536 then
    let s := (rtt :: x.samples).take 16
    let dn := sumInt s / (s.length : Int) / 2 + d.rdS F.HL_ASYM_ASYM l * 2 ^ 14
    let d := (d.setLink l fun x => { x with samples := s, rejects := 0 }).bump F.HL_DELAY_ACCEPTED l 1
    let (v, d) := if 0 ≤ dn ∧ dn < 2 ^ 32 then (dn.toNat, d) else d.free (2 ^ 32)
    d.wr F.HL_DELAY_D_DN l v
  else (d.setLink l fun x => { x with rejects := x.rejects + 1 }).bump F.HL_DELAY_REJECTED l 1

/-- Sixteen consecutive samples rejected (R191). -/
def Dev.delayRestart (d : Dev) (l : Nat) : Dev :=
  if (d.link l).rejects < 16 then d
  else ((d.emptyDelay l).serviceUpdate l).raise .secure 0x0B09 [(1, l)]

/-- CRC errors, in either direction, for the window of R204. -/
def Dev.noteCrc (d : Dev) (l n : Nat) : Dev := d.setLink l fun x => { x with crcBeats := List.replicate n d.tmb.beats ++ x.crcBeats }

/-- Increase of a 16-bit counter of the head since the last STATUS. Log entry 78 (DEDUCED). -/
def increase (old : Option Nat) (new : Nat) : Nat := match old with | some o => (new + 65536 - o) % 65536 | none => 0

/-- The highest of the head's temperatures (R160, R194). -/
def StatusFrame.temp (st : StatusFrame) : Option Int :=
  match (st.temps.take st.sensors).map BitVec.toInt with
  | [] => none
  | t :: ts => some (ts.foldl max t)

/-- A valid STATUS frame (R194). Log entry 78 (DEDUCED). -/
def Dev.status (d : Dev) (l : Nat) (st : StatusFrame) (t4 : Nat) : Dev :=
  if d.linkState l ≠ 5 then d
  else
    let x := d.link l
    let protect := d.headFlag l 0
    let d := if d.on F.HL_STAT_UP_ASLEEP l then (d.wrB F.HL_STAT_UP_ASLEEP l false).setLink l fun x => { x with rxLock := true } else d
    let d := d.wr F.HL_STAT_HEAD_FLAGS l st.flags.toNat
    let d := (d.wr F.HL_HEAD_COUNT_FIRED l st.fired.toNat).wr F.HL_HEAD_COUNT_DISCARDED l st.discarded.toNat
    let d := match StatusFrame.temp st with
      | some t => (d.headsOf l).foldl (fun (d : Dev) h => d.setTemp h fun y => { y with report := some t, fresh := true, overdue := false }) d
      | none => d
    let d := match x.beacons.find? fun b => decide (b.1 = st.beatSeen.toNat) with
      | some (_, t1) => d.delaySample l ((t4 : Int) - t1 - (st.t3 - st.t2).toNat)
      | none => d
    let lost := increase x.lastDiscarded st.discarded.toNat
    let crc := increase x.lastCrc st.crcErrs.toNat
    let d := d.setLink l fun x => { x with
      stepsSeen := st.stepsSeen.toNat, lastDiscarded := some st.discarded.toNat, lastCrc := some st.crcErrs.toNat }
    let d := if crc = 0 then d else (d.count F.HL_COUNT_CRC_DN l crc).noteCrc l crc
    let d := if lost = 0 then d
      else d.suspectRunning.raise .secure 0x0B06 [(1, l), (2, lost)]
    let d := if protect = d.headFlag l 0 then d else d.raise .secure 0x0B07 [(1, l), (1, if d.headFlag l 0 then 1 else 0)]
    let d := if d.headFlag l 5 ∧ d.checksRun ∧ (d.link l).check.isNone then
        ((d.setLink l fun x => { x with checked := false }).serviceUpdate l).startCheck l
      else d
    d.serviceUpdate l

/-- An upstream frame that R184 discards, or PRBS31 errors in TEST. -/
def Dev.frameBad (d : Dev) (l : Nat) : Dev :=
  if d.linkState l = 5 ∨ d.linkState l = 8 then (d.count F.HL_COUNT_CRC_UP l 1).noteCrc l 1 else d

/-! ### Training (R200 to R205) -/

/-- Preset taps: pre, main, post (R202). -/
def presetTaps : Nat × Nat × Nat := (0, 40, 8)

def Dev.dnTaps (d : Dev) (l : Nat) : Nat × Nat × Nat := (d.rd F.HL_TAPS_DN_PRE l, d.rd F.HL_TAPS_DN_MAIN l, d.rd F.HL_TAPS_DN_POST l)

def Dev.setDnTaps (d : Dev) (l : Nat) (t : Nat × Nat × Nat) : Dev :=
  ((d.wr F.HL_TAPS_DN_PRE l t.1).wr F.HL_TAPS_DN_MAIN l t.2.1).wr F.HL_TAPS_DN_POST l t.2.2

/-- Limits of the taps (R202). -/
def tapsOk (t : Nat × Nat × Nat) : Bool :=
  decide (t.1 ≤ 8) && (decide (t.2.2 ≤ 16) && (decide (24 ≤ t.2.1) && (decide (t.2.1 ≤ 48) && decide (t.1 + t.2.1 + t.2.2 ≤ 48))))

/-- A requested change of one tap: 1 INC, 2 DEC; none where it has no room below. -/
def stepTap (v r : Nat) : Option Nat := if r = 1 then some (v + 1) else if r = 2 then (if v = 0 then none else some (v - 1)) else some v

/-- Apply one tap's request if the result obeys the limits: the taps, and 1 for LIMIT. -/
def tryTap (t : Nat × Nat × Nat) (v : Option (Nat × Nat × Nat)) : (Nat × Nat × Nat) × Nat :=
  match v with
  | some u => if tapsOk u then (u, 0) else (t, 1)
  | none => (t, 1)

/-- A transmitter's answer to a request (R202): the taps and the ACK byte. -/
def answerTaps (t : Nat × Nat × Nat) (req : Nat) : (Nat × Nat × Nat) × Nat :=
  let (pre, main, post) := (req % 4, req / 4 % 4, req / 16 % 4)
  if pre = 3 ∨ main = 3 ∨ post = 3 then (presetTaps, 0)
  else
    let (t, a) := tryTap t ((stepTap t.1 pre).map fun v => (v, t.2.1, t.2.2))
    let (t, c) := tryTap t ((stepTap t.2.2 post).map fun v => (t.1, t.2.1, v))
    let (t, b) := tryTap t ((stepTap t.2.1 main).map fun v => (t.1, v, t.2.2))
    (t, a + 4 * b + 16 * c)

/-- The device's TS as it stands (R201). -/
def Dev.tsBytes (d : Dev) (l phase : Nat) : List Byte :=
  let x := d.link l
  let (pre, main, post) := d.dnTaps l
  let body := pack [(1, phase), (1, l + d.linkGen l * 64), (1, (x.eq.req).getD 0 + flag x.rxLock 6 + flag (decide (x.eq.tap = 3)) 7), (1, x.reqSeq),
    (1, x.ack), (1, (x.headSeq).getD 0), (1, pre), (1, main), (1, post), (2, 0)]
  body ++ leBytes 4 (crc32 body)

def Dev.sendTs (d : Dev) (l : Fin 32) (phase : Nat) : Dev := d.emit (.signal l (.training (d.tsBytes l phase)))

/-- Clear what a link holds while it is in service or on the way there. Log entries 46 (DEDUCED), 77 (DEDUCED). -/
def Dev.clearLink (d : Dev) (l : Nat) : Dev :=
  let d := d.wrB F.HL_STAT_UP l false
  let d := (d.setLink l fun x => { x with checked := false, check := none, named := false }).serviceUpdate l
  let d := [0, 1, 2].foldl (fun d p => match d.req l p with
    | some r =>
      if r.sent && decide (p < 2) then d
      else
        let d := d.dropReq l p
        if p < 2 then d.mgmtDone l (if p = 0 then 0 else 1) 5 r.tag else d
    | none => d) d
  let d := ((d.wrB F.HL_STAT_DN_ASLEEP l false).wrB F.HL_STAT_UP_ASLEEP l false).emptyDelay l
  d.setLink l fun x => { x with
    testStage := 0, rxLock := false, headLocked := false, headDone := false, confirmBad := false, eq := {}, headSeq := none, ack := 0
    beaconDue := false, adjDue := false, adj := [], beacons := [], lastDiscarded := none, lastCrc := none, crcBeats := []
    auth := none, authDue := false, updateDue := false }

/-- Ask for a generation with wake bursts: STATE WAKE, or RECOVERY, or TEST. Log entry 77 (DEDUCED). -/
def Dev.wakeLink (d : Dev) (l : Fin 32) (state gen attempt : Nat) : Dev :=
  let d := ((d.clearLink l).wr F.HL_STAT_STATE l state).wr F.HL_STAT_GEN l gen
  let d := (d.wr F.HL_STAT_ATTEMPT l attempt).wrB F.HL_STAT_FELL_BACK l (decide (gen < (d.linkSec l).genMax))
  d.emit (.signal l (.bursts gen))

/-- A link enters DOWN and holds electrical idle. -/
def Dev.takeDown (d : Dev) (l : Fin 32) : Dev := ((d.clearLink l).wr F.HL_STAT_STATE l 7).emit (.signal l .idle)

/-- An attempt fails (R205). Log entry 77 (DEDUCED). -/
def Dev.attemptFails (d : Dev) (l : Fin 32) (cause : Nat) : Dev :=
  if d.linkState l = 8 then d
  else
    let d := d.wr F.HL_STAT_CAUSE l cause
    let g := d.linkGen l
    let a := d.rd F.HL_STAT_ATTEMPT l
    if a < 3 then d.wakeLink l 1 g (a + 1)
    else if (d.linkSec l).genMin < g then (d.wakeLink l 1 (g - 1) 1).raise .secure 0x0B02 [(1, l), (2, g), (2, g - 1)]
    else (d.takeDown l).raise .secure 0x0B03 [(1, l), (1, cause)]

/-- An ACTIVE link enters RECOVERY (R204). Log entry 77 (DEDUCED). -/
def Dev.recoverLink (d : Dev) (l : Fin 32) (cause : Nat) : Dev :=
  if d.linkState l ≠ 5 then d
  else
    let d := d.wr F.HL_STAT_CAUSE l cause
    ((d.wakeLink l 6 (d.linkGen l) 1).count F.HL_COUNT_RECOVERIES l 1).raise .secure 0x0B04 [(1, l), (1, cause)]

/-- Start alignment at the answered generation, from that generation's last good taps or the preset (R203). A generation below the one
asked for has three attempts of its own (R205). Log entry 77 (DEDUCED). -/
def Dev.startAlign (d : Dev) (l : Fin 32) (gen : Nat) : Dev :=
  let d := if gen = d.linkGen l then d else (d.wr F.HL_STAT_GEN l gen).wr F.HL_STAT_ATTEMPT l 1
  let d := d.wrB F.HL_STAT_FELL_BACK l (decide (gen < (d.linkSec l).genMax))
  let d := d.setDnTaps l (((d.link l).good.lookup gen).getD presetTaps)
  let d := if d.linkState l = 8 then d.setLink l fun x => { x with testStage := 1 } else d.wr F.HL_STAT_STATE l 2
  d.sendTs l 0

/-- Wake bursts of the head are detected (R200, R204). Log entry 73 (DESIGN CHOICE). -/
def Dev.headBurst (d : Dev) (l : Fin 32) (gen : Nat) : Dev :=
  let s := d.linkState l
  if s = 5 then d.recoverLink l 13
  else if s = 1 ∨ s = 6 ∨ (s = 8 ∧ (d.link l).testStage = 0) then
    if gen < (d.linkSec l).genMin then d.attemptFails l 2
    else if gen ≤ d.linkGen l then d.startAlign l gen
    else d
  else d

/-- Send the head an equalisation request. -/
def Dev.eqRequest (d : Dev) (l : Fin 32) (req : Nat) (f : EqSt → EqSt) : Dev :=
  let d := d.setLink l fun x => { x with eq := { f x.eq with req := some req, limited := false, misses := 0 }, reqSeq := (x.reqSeq + 1) % 256 }
  d.sendTs l 1

/-- The REQ field of a tap: 0 post, 1 pre, 2 main. -/
def tapReq (tap dir : Nat) : Nat := if tap = 0 then dir * 16 else if tap = 1 then dir else dir * 4

/-- Both ends locked: EQ starts with the first measurement, after a preset where no good taps are known (R203). Log entry 74 (DEDUCED). -/
def Dev.startEq (d : Dev) (l : Fin 32) : Dev :=
  let d := if d.linkState l = 8 then d.setLink l fun x => { x with testStage := 2 } else d.wr F.HL_STAT_STATE l 3
  d.eqRequest l (if ((d.link l).good.lookup (d.linkGen l)).isSome then 0 else 0x3F) fun _ => {}

/-- Both ends have locked. Log entry 74 (DEDUCED). -/
def Dev.tryEq (d : Dev) (l : Fin 32) : Dev :=
  let x := d.link l
  if x.rxLock && (x.headLocked && (decide (d.linkState l = 2) || (decide (d.linkState l = 8) && decide (x.testStage = 1)))) then d.startEq l else d

/-- Both ends show RX_DONE. -/
def Dev.tryConfirm (d : Dev) (l : Fin 32) : Dev :=
  let x := d.link l
  if decide (x.eq.tap = 3) && (x.eq.req.isNone && x.headDone) then
    if d.linkState l = 3 then ((d.wr F.HL_STAT_STATE l 4).setLink l fun x => { x with confirmBad := false }).sendTs l 2
    else if d.linkState l = 8 ∧ x.testStage = 2 then
      ((d.setLink l fun x => { x with testStage := 3 }).sendTs l 3).emit (.signal l .prbs)
    else d
  else d

/-- The next tap, or all taps done. Log entry 74 (DEDUCED). -/
def Dev.nextTap (d : Dev) (l : Fin 32) (best : Nat) : Dev :=
  let t := (d.link l).eq.tap + 1
  if t = 3 then ((d.setLink l fun x => { x with eq := { tap := 3, best := best } }).sendTs l 1).tryConfirm l
  else d.eqRequest l (tapReq t 1) fun e => { e with tap := t, dir := .upFirst, best := best }

/-- The eye after an answered request (R203). Log entry 73 (DESIGN CHOICE). -/
def Dev.eqDwell (d : Dev) (l : Fin 32) (eye : Nat) : Dev :=
  let e := (d.link l).eq
  let s := d.linkState l
  if ¬ (s = 3 ∨ (s = 8 ∧ (d.link l).testStage = 2)) ∨ e.req.isSome ∨ e.tap = 3 then d
  else
    let d := d.wr F.HL_TAPS_EYE l eye
    let wider := decide (e.best < eye) && !e.limited
    let ask := fun (d : Dev) (r : Nat) (dir : EqDir) (best : Nat) => d.eqRequest l (tapReq e.tap r) fun e => { e with dir := dir, best := best }
    match e.dir with
    | .base => ask d 1 .upFirst eye
    | .upFirst => if wider then ask d 1 .up eye else if e.limited then ask d 2 .downFirst e.best else ask d 2 .undo e.best
    | .up => if wider then ask d 1 .up eye else if e.limited then d.nextTap l e.best else ask d 2 .back e.best
    | .undo => ask d 2 .downFirst e.best
    | .downFirst | .down =>
      if wider then ask d 2 .down eye else if e.limited then d.nextTap l e.best else ask d 1 .back e.best
    | .back => d.nextTap l e.best

/-- An equalisation request stays unanswered: it is repeated, the third fails the attempt (R203). Log entries 73 (DESIGN CHOICE), 74 (DEDUCED). -/
def Dev.eqTimeout (d : Dev) (l : Fin 32) : Dev :=
  let e := (d.link l).eq
  if e.req.isNone ∨ ¬ (d.linkState l = 3 ∨ (d.linkState l = 8 ∧ (d.link l).testStage = 2)) then d
  else if e.misses < 2 then (d.setLink l fun x => { x with eq := { x.eq with misses := x.eq.misses + 1 } }).sendTs l 1
  else d.attemptFails l 4

/-- The head asks the device's transmitter for other taps (R202). -/
def Dev.headRequest (d : Dev) (l : Fin 32) (ts : TrainingSet) : Dev :=
  let seq := ts.reqSeq.toNat
  if (d.link l).headSeq = some seq then d
  else
    let (t, a) := answerTaps (d.dnTaps l) (ts.req.toNat % 64)
    ((d.setDnTaps l t).setLink l fun x => { x with headSeq := some seq, ack := a }).sendTs l 1

/-- The head answers the device's request. -/
def Dev.headAck (d : Dev) (l : Fin 32) (ts : TrainingSet) : Dev :=
  let x := d.link l
  match x.eq.req with
  | some r =>
    if ts.ackSeq.toNat ≠ x.reqSeq then d
    else
      let a := ts.ack.toNat
      let lim := (decide (r % 4 ≠ 0) && decide (a % 4 = 1)) || ((decide (r / 4 % 4 ≠ 0) && decide (a / 4 % 4 = 1)) ||
        (decide (r / 16 % 4 ≠ 0) && decide (a / 16 % 4 = 1)))
      d.setLink l fun x => { x with eq := { x.eq with req := none, limited := lim } }
  | none => d

/-- A TS arrives (R201 to R204). -/
def Dev.tsRx (d : Dev) (l : Fin 32) (ts : TrainingSet) : Dev :=
  let s := d.linkState l
  if !ts.crcOk then d.setLink l fun x => { x with confirmBad := x.confirmBad || decide (s = 4) }
  else if ¬ (s = 2 ∨ s = 3 ∨ s = 4 ∨ s = 8) then d
  else
    let d := ((d.wr F.HL_TAPS_UP_PRE l ts.pre).wr F.HL_TAPS_UP_MAIN l ts.main).wr F.HL_TAPS_UP_POST l ts.post
    let d := d.setLink l fun x => { x with headLocked := ts.req.getLsbD 6, headDone := ts.req.getLsbD 7 }
    let d := d.tryEq l
    if d.linkState l = 3 ∨ (d.linkState l = 8 ∧ (d.link l).testStage = 2) then
      ((d.headRequest l ts).headAck l ts).tryConfirm l
    else d

/-- The CONFIRM exchange is complete (R204). -/
def Dev.confirm (d : Dev) (l : Fin 32) (eye : Nat) : Dev :=
  if d.linkState l ≠ 4 then d
  else
    let d := d.wr F.HL_TAPS_EYE l eye
    if (d.link l).confirmBad then d.attemptFails l 6
    else if eye % 256 < d.rd F.HL_GLOBAL_CFG_EYE_MIN then d.attemptFails l 7
    else
      let g := d.linkGen l
      let d := d.sendTs l 4
      (d.wr F.HL_STAT_STATE l 5).setLink l fun x => { x with
        good := (g, d.dnTaps l) :: x.good.filter fun p => decide (p.1 ≠ g)
        eq := {} }

/-- The limit of a training state expires (R204). -/
def Dev.trainTimeout (d : Dev) (l : Fin 32) : Dev :=
  let s := d.linkState l
  if s = 1 ∨ s = 6 then d.attemptFails l 1
  else if s = 2 then d.attemptFails l 3
  else if s = 3 then d.attemptFails l 5
  else if s = 4 then d.attemptFails l 6
  else if s = 5 ∧ !d.linkUp l then d.attemptFails l (if d.delayOk l then 9 else 8)
  else d

/-- UP: 16 samples, a short enough delay and a realigned head (R204). -/
def Dev.tryUp (d : Dev) (l : Nat) : Dev :=
  if d.linkState l = 5 ∧ !d.linkUp l ∧ d.delayOk l ∧ d.realigned l then
    let d := (d.wrB F.HL_STAT_UP l true).raise .secure 0x0B01 [(1, l), (2, d.linkGen l), (4, d.rd F.HL_DELAY_D_DN l)]
    if d.checksRun then d.startCheck l else d
  else d

/-- The receiver locks. A DISABLED link ignores its RX pair (R369). -/
def Dev.lockAcquired (d : Dev) (l : Fin 32) : Dev :=
  if d.linkState l = 0 then d
  else ((d.setLink l fun x => { x with rxLock := true }).wrB F.HL_STAT_UP_ASLEEP l false).tryEq l

/-- The receiver loses lock (R182, R204); an upstream direction that sleeps has nothing to lock to. -/
def Dev.lockLost (d : Dev) (l : Fin 32) : Dev :=
  if d.linkState l = 0 then d else
  let d := d.setLink l fun x => { x with rxLock := false }
  if d.on F.HL_STAT_UP_ASLEEP l then d else d.recoverLink l 10

/-- A write to HL_CFG: RETRAIN and TEST (R204). TEST is accepted only in DOWN or TEST. -/
def Dev.wHlCfg (d : Dev) (l : Fin 32) (val mask : Nat) : Dev :=
  let s := d.linkState l
  let was := d.on F.HL_CFG_TEST l
  let d := d.store R.HL_CFG l val mask
  let d := if s = 7 ∨ s = 8 then d else d.wrB F.HL_CFG_TEST l was
  let d := if s = 7 ∧ d.on F.HL_CFG_TEST l then d.wakeLink l 8 (d.linkSec l).genMax 1
    else if s = 8 ∧ !d.on F.HL_CFG_TEST l then d.takeDown l else d
  if (Nat.land val mask).testBit 0 ∧ d.sys.done ∧ (d.linkState l = 5 ∨ d.linkState l = 7) then
    (d.setLink l fun x => { x with good := [] }).wakeLink l 1 (d.linkSec l).genMax 1
  else d

/-! ### Sleep (R207) -/

/-- A MGMT, AUTH or FIRE_ADJ frame waits. -/
def Dev.frameWaits (d : Dev) (l : Nat) : Bool :=
  let x := d.link l
  x.adjDue || ((match x.auth with | some a => a.waiting | none => false) ||
    (match x.grant with | some p => (match at' x.reqs p with | some r => !r.sent | none => false) | none => false))

def Dev.dnSleep (d : Dev) (l : Fin 32) : Dev :=
  if d.linkState l = 5 ∧ d.on F.HL_CFG_DN_SLEEP_EN l ∧ !d.on F.HL_STAT_DN_ASLEEP l ∧ !d.pageRuns ∧ !d.frameWaits l ∧
      (d.link l).lastSel + d.rd F.HL_CFG_DN_SLEEP_BEATS l ≤ d.tmb.beats then
    ((d.wrB F.HL_STAT_DN_ASLEEP l true).setLink l fun x => { x with beaconDue := false }).emit (.signal l .sleep)
  else d

/-- The direction wakes, and its first frame is a BEACON. Log entry 80 (DEDUCED). -/
def Dev.dnWake (d : Dev) (l : Fin 32) : Dev :=
  if d.on F.HL_STAT_DN_ASLEEP l then
    ((d.wrB F.HL_STAT_DN_ASLEEP l false).setLink l fun x => { x with beaconDue := true }).emit (.signal l .wake)
  else d

/-! ### The next frame (R187) -/

/-- The granted management request, if it has not been sent. -/
def Dev.sendGranted (d : Dev) (l : Fin 32) (t : Nat) : Dev :=
  match (d.link l).grant with
  | some p =>
    match d.req l p with
    | some r => if r.sent then d else d.sendMgmt l t p r
    | none => d
  | none => d

/-- The last phase of R187: FIRE_ADJ, AUTH, then MGMT. -/
def Dev.sendOther (d : Dev) (l : Fin 32) (t : Nat) : Dev :=
  let x := d.link l
  if x.adjDue then d.sendAdj l t
  else match x.auth with
    | some a => if a.waiting then d.sendAuth l t a else d.sendGranted l t
    | none => d.sendGranted l t

/-- Give up the lines that cannot start in time, and send the first that can; none is left to send, then something else. -/
def Dev.sendLine (d : Dev) (l : Fin 32) (t : Nat) : List TxLine → Dev
  | [] => d.sendOther l t
  | x :: xs =>
    if d.inTime l t x then (d.setTx x fun y => { y with waiting := false }).sendFrame l t 1 x.body
    else (d.txLate l x).sendLine l t xs

/-- A gap between frames of an ACTIVE link that is awake downstream. -/
def Dev.nextFrame (d : Dev) (l : Fin 32) (t : Nat) : Dev :=
  if d.linkState l ≠ 5 ∨ d.on F.HL_STAT_DN_ASLEEP l then d
  else if (d.link l).beaconDue then d.sendBeacon l t
  else d.sendLine l t (d.waitingLines l)

/-- At a boundary: a BEACON falls due on every ACTIVE link that is awake, the error window moves on, and selections are noted. -/
def Dev.linkBoundary (d : Dev) : Dev :=
  let sel := d.pace.tx.map fun t => d.linkOf t.head
  let d := (List.range 32).foldl (fun d l =>
    if d.linkState l ≠ 5 then d
    else d.setLink l fun x => { x with
      beaconDue := x.beaconDue || !d.on F.HL_STAT_DN_ASLEEP l
      crcBeats := x.crcBeats.filter fun b => decide (d.tmb.beats < b + 1024)
      lastSel := if sel.contains l then d.tmb.beats else x.lastSel }) d
  if d.tmb.unaligned && d.allRealigned then { d with tmb.unaligned := false } else d

/-- Why a head is out (R146, R206): bit 0 link down or disabled, 1 authentication, 2 HEAD_HOT, 3 LA_HEAD_OFF. -/
def Dev.outCauses (d : Dev) (h : Nat) : Nat :=
  let l := d.linkOf h
  flag (!d.inService l) 0 + flag (d.authBlocked l) 1 + flag (decide (d.tempState h = 2)) 2 + flag (d.bit F.LA_HEAD_OFF_OFF h) 3

/-! ### The commands -/

def execFrameTxDone (l : Fin 32) (t : Nat) (s : State) : Host.Outcome State Fault Refusal := s.act fun d => d.nextFrame l t

def execHlFireAdjWrite (m : Master) (l : Fin 32) (val : Nat) (s : State) : Host.Outcome State Fault Refusal :=
  s.act fun d => d.writeTo m R.HL_FIRE_ADJ l fun d => (d.store R.HL_FIRE_ADJ l val mask32).setLink l fun x => { x with adjDue := true }

def execStatusRx (l : Fin 32) (st : StatusFrame) (t4 : Nat) (s : State) : Host.Outcome State Fault Refusal :=
  s.actInOrder fun d => d.status l st t4

def execDelayRestart (l : Fin 32) (s : State) : Host.Outcome State Fault Refusal := s.act fun d => d.delayRestart l

def execUpstreamFrameBad (l : Fin 32) (s : State) : Host.Outcome State Fault Refusal := s.act fun d => d.frameBad l

def execMgmtGo (m : Master) (l : Fin 32) (p : Fin 2) (val : Nat) (s : State) : Host.Outcome State Fault Refusal :=
  s.act fun d => d.writeOwn m p R.HL_MGMT_CMD (boxIdx l p) fun d => d.wMgmtCmd l p val mask64

def execMgmtCancel (m : Master) (l : Fin 32) (p : Fin 2) (s : State) : Host.Outcome State Fault Refusal :=
  s.act fun d => d.writeOwn m p R.HL_MGMT_CMD (boxIdx l p) fun d => d.wMgmtCmd l p (2 ^ 33) maskHi

def execMgmtReadRespRx (l : Fin 32) (tag result : Nat) (data : List (BitVec 32)) (s : State) : Host.Outcome State Fault Refusal :=
  s.act fun d => d.mgmtAnswer l (some tag) false result (data.map BitVec.toNat)

def execMgmtWriteRespRx (l : Fin 32) (tag result : Nat) (s : State) : Host.Outcome State Fault Refusal :=
  s.act fun d => d.mgmtAnswer l (some tag) true result []

def execMgmtTimeout (l : Fin 32) (s : State) : Host.Outcome State Fault Refusal := s.act fun d => d.mgmtAnswer l none false 4 []

def execHeadCheckDone (l : Fin 32) (s : State) : Host.Outcome State Fault Refusal := s.act fun d => d.checkEnds l

def execHeadBurstDetect (l : Fin 32) (gen : Nat) (s : State) : Host.Outcome State Fault Refusal := s.actInOrder fun d => d.headBurst l gen

def execRxLockAcquired (l : Fin 32) (s : State) : Host.Outcome State Fault Refusal := s.act fun d => d.lockAcquired l

def execRxLockLost (l : Fin 32) (s : State) : Host.Outcome State Fault Refusal := s.actInOrder fun d => d.lockLost l

def execTsRx (l : Fin 32) (ts : TrainingSet) (s : State) : Host.Outcome State Fault Refusal := s.act fun d => d.tsRx l ts

def execEqDwellDone (l : Fin 32) (eye : Nat) (s : State) : Host.Outcome State Fault Refusal := s.act fun d => d.eqDwell l eye

def execEqRequestTimeout (l : Fin 32) (s : State) : Host.Outcome State Fault Refusal := s.actInOrder fun d => d.eqTimeout l

def execConfirmComplete (l : Fin 32) (eye : Nat) (s : State) : Host.Outcome State Fault Refusal := s.actInOrder fun d => d.confirm l eye

def execLinkTrainTimeout (l : Fin 32) (s : State) : Host.Outcome State Fault Refusal := s.actInOrder fun d => d.trainTimeout l

def execLinkUp (l : Fin 32) (s : State) : Host.Outcome State Fault Refusal := s.act fun d => d.tryUp l

def execStatusLost (l : Fin 32) (s : State) : Host.Outcome State Fault Refusal := s.actInOrder fun d => d.recoverLink l 12

def execCrcRate (l : Fin 32) (s : State) : Host.Outcome State Fault Refusal :=
  s.actInOrder fun d => if d.rd F.HL_GLOBAL_CFG_ERR_LIMIT ≤ (d.link l).crcBeats.length then d.recoverLink l 11 else d

def execLinkRetrain (m : Master) (l : Fin 32) (s : State) : Host.Outcome State Fault Refusal :=
  s.act fun d => d.writeTo m R.HL_CFG l fun d => d.wHlCfg l 1 1

def execLinkTest (m : Master) (l : Fin 32) (en : Bool) (s : State) : Host.Outcome State Fault Refusal :=
  s.act fun d => d.writeTo m R.HL_CFG l fun d => d.wHlCfg l (if en then 2 else 0) 2

def execDnSleepEnter (l : Fin 32) (s : State) : Host.Outcome State Fault Refusal := s.act fun d => d.dnSleep l

def execDnWake (l : Fin 32) (s : State) : Host.Outcome State Fault Refusal := s.act fun d => d.dnWake l

/-- Log entry 80 (DEDUCED). -/
def execUpSleepRx (l : Fin 32) (s : State) : Host.Outcome State Fault Refusal :=
  s.act fun d => if d.linkState l = 5 then (d.wrB F.HL_STAT_UP_ASLEEP l true).setLink l fun x => { x with rxLock := false } else d

def execWakeRelockTimeout (l : Fin 32) (s : State) : Host.Outcome State Fault Refusal :=
  s.actInOrder fun d => if (d.link l).rxLock then d else d.recoverLink l 10

def execAuthReauth (m : Master) (val : Nat) (s : State) : Host.Outcome State Fault Refusal :=
  s.act fun d => d.writeTo m R.VLT_AUTH_REAUTH 0 fun d => d.wReauth val mask32

def execAuthResponseRx (l : Fin 32) (msg : AuthBody) (s : State) : Host.Outcome State Fault Refusal :=
  s.actInOrder fun d => d.authResponse l msg

def execAuthResponseTimeout (l : Fin 32) (s : State) : Host.Outcome State Fault Refusal := s.actInOrder fun d => d.authAgain l false

def execUsagePeriodExpiry (s : State) : Host.Outcome State Fault Refusal := s.act Dev.usagePeriod

def execCountAckRx (l : Fin 32) (msg : AuthBody) (s : State) : Host.Outcome State Fault Refusal := s.act fun d => d.countAck l msg

def execCountAckTimeout (l : Fin 32) (s : State) : Host.Outcome State Fault Refusal := s.actInOrder fun d => d.authAgain l true

end Sys2Proof.Machine
end

