-- ==== Sys2Proof/Machine/Inspect.lean ====
section
/-!
DEFINITION. Chapter 12: camera ports, triggers and strobes, frames, the image pipeline, settings generations and sensor I2C.
-/

namespace Sys2Proof.Machine

/-! ### Cameras -/

def Dev.inspect (d : Dev) : InspectSec := d.pat.loaded.inspect

def Dev.camSec (d : Dev) (c : Nat) : CamSec := at' d.inspect.cams c

def Dev.cam (d : Dev) (c : Nat) : Cam := at' d.ins.cams c

def Dev.setCam (d : Dev) (c : Nat) (f : Cam → Cam) : Dev := { d with ins.cams := d.ins.cams.modify c f }

def Dev.camOn (d : Dev) (c : Fin 8) : Bool := d.funcOn (.cam c)

/-- The cameras that are ON. -/
def Dev.camsOn (d : Dev) : List Nat := ((List.finRange 8).filter d.camOn).map Fin.val

/-- Data type RAW12 (R209). -/
def CamSec.raw12 (s : CamSec) : Bool := decide (s.dataType = 0x2C)

/-- Payload bytes of a line (R210, R228). Log entry 41 (PRESUMED). -/
def CamSec.lineBytes (s : CamSec) : Nat := (s.pixels * (if s.raw12 then 12 else 10) + 7) / 8

/-- Size of a frame buffer slot (R228). -/
def CamSec.slotBytes (s : CamSec) : Nat := (s.frameLines * s.lineBytes + 1024 + 4095) / 4096 * 4096

/-- The frame buffer lies in one region below the installed capacity. Log entry 40 (DEDUCED). -/
def Dev.bufferOk (d : Dev) (c : Nat) : Bool :=
  let a := d.rd F.INS_Cc_FBUF_BASE c * 2 ^ 21
  let e := a + d.rd F.INS_Cc_FBUF_FRAMES c * (d.camSec c).slotBytes
  decide (e ≤ d.capacity) &&
    (d.pat.loaded.worlds.regions.any fun r => decide (r.base * 2 ^ 21 ≤ a) && decide (e ≤ (r.base + r.size) * 2 ^ 21))

/-- After a write to INS_Cc_CFG or INS_Cc_FBUF, CAPTURE reads 0 unless the buffer fits (log entry 40). -/
def Dev.checkCapture (d : Dev) (c : Nat) : Dev :=
  if d.on F.INS_Cc_CFG_CAPTURE c && !d.bufferOk c then d.wrB F.INS_Cc_CFG_CAPTURE c false else d

/-! ### Settings generations (R226) -/

/-- A register whose settings go by generation. -/
def isShadow (a : Nat) : Bool :=
  decide (0xE100000 ≤ a ∧ a < 0xF000000) ||
    (decide (0xE001000 ≤ a ∧ a < 0xE001800) && decide (a % 0x100 = 8 ∨ a % 0x100 = 0x10 ∨ a % 0x100 = 0x18))

def Dev.insShadows (d : Dev) : List (Nat × Word) := d.regs.filter fun p => isShadow p.1

/-- A register in a settings generation. -/
def Dev.genReg (d : Dev) (g : Nat) (r : Reg) (i : Nat) : Nat :=
  (mapGet ((d.ins.gens.lookup g).getD []) (r.addr i) (BitVec.ofNat 64 (r.rst i))).toNat

def Dev.genRd (d : Dev) (g : Nat) (f : Fld) (i : Nat) : Nat := fieldOf f.lo f.w (d.genReg g f.reg i)

def Cam.usesGen (c : Cam) (g : Nat) : Bool :=
  decide (c.trigGen = g) || (c.trigs.any (fun t => decide (t.gen = g ∨ t.newest = g)) ||
    (match c.frame with | some f => decide (f.gen = g) | none => false))

/-- A new newest generation. Log entry 84 (DEDUCED). -/
def Dev.advanceGen (d : Dev) (shadows : List (Nat × Word)) : Dev :=
  let i := d.ins
  let g := i.gen + 1
  { d with
    ins.gen := g
    ins.pending := none
    ins.used := false
    ins.unused := if i.used then i.unused else i.unused ++ [i.gen]
    ins.gens := (g, shadows) :: i.gens.filter fun p => i.cams.any fun c => c.usesGen p.1 }.wr F.INS_COMMIT_GEN 0 (g % 65536)
    |>.wrB F.INS_COMMIT_PENDING 0 false

/-- The closing boundary of the beat of a COMMIT. -/
def Dev.insBoundary (d : Dev) : Dev := match d.ins.pending with | some s => d.advanceGen s | none => d

/-- A write to INS_COMMIT. -/
def Dev.wInsCommit (d : Dev) (val mask : Nat) : Dev :=
  if (Nat.land val mask).testBit 0 then { d with ins.pending := some d.insShadows }.wrB F.INS_COMMIT_PENDING 0 true else d

/-! ### Triggers and strobes (R213, R214) -/

/-- Take the earliest occurrence that is to trigger camera c. -/
def takeOcc (c : Nat) : List Occur → Option (Occur × List Occur)
  | [] => none
  | o :: os =>
    if o.cams.testBit c then
      let o' := { o with cams := o.cams - 2 ^ c }
      some (o, if o'.cams = 0 ∧ o'.mask = 0 then os else o' :: os)
    else (takeOcc c os).map fun p => (p.1, o :: p.2)

/-- A position compare trigger reaches camera c. -/
def Dev.cameraTrigger (d : Dev) (c : Fin 8) : Dev :=
  match takeOcc c d.web.occ with
  | none => d
  | some (o, occ) =>
    let d := { d with web.occ := occ }
    if !d.camOn c then d
    else
      let cam := d.cam c
      let g := if cam.seq = 0 then d.ins.gen else cam.trigGen
      let start := o.t + d.genRd g F.INS_Cc_STROBE_DELAY c
      if start < cam.lastStop then d.count F.INS_Cc_COUNT_OVERLAP c 1
      else
        let stop := start + d.genRd g F.INS_Cc_STROBE_WIDTH c
        let tr : Trig := { t := o.t, pos := o.pos, start := start, stop := stop, newest := d.ins.gen, gen := g
                           capture := d.on F.INS_Cc_CFG_CAPTURE c, beat := d.beat }
        d.setCam c fun k => { k with
          trigs := k.trigs ++ [tr], lastStop := stop, trigGen := g, seq := (k.seq + 1) % max 1 (d.camSec c).frameLines }

def updFirst (p : Trig → Bool) (f : Trig → Trig) : List Trig → List Trig
  | [] => []
  | t :: ts => if p t then f t :: ts else t :: updFirst p f ts

/-- Triggers that are over: paired or missing, and their strobe ended. -/
def dropOver (ts : List Trig) : List Trig := ts.filter fun t => !(t.paired && t.ended)

/-- The next strobe of camera c goes active. -/
def Dev.strobeStart (d : Dev) (c : Fin 8) : Dev :=
  match (d.cam c).trigs.find? fun t => !t.begun with
  | none => d
  | some t => d.setCam c fun k => { k with
      trigs := updFirst (fun t => !t.begun) (fun t => { t with begun := true }) k.trigs
      strobe := true, low := decide (d.genRd t.gen F.INS_Cc_STROBE_POLARITY c = 1) }

/-- The strobe of camera c goes inactive. -/
def Dev.strobeEnd (d : Dev) (c : Fin 8) : Dev :=
  d.setCam c fun k =>
    if k.trigs.any fun t => t.begun && !t.ended then
      { k with trigs := dropOver (updFirst (fun t => t.begun && !t.ended) (fun t => { t with ended := true }) k.trigs), strobe := false }
    else k

/-- The oldest unpaired trigger of a camera. -/
def Cam.oldest (k : Cam) : Option Trig := k.trigs.find? fun t => !t.paired

def Cam.pair (k : Cam) : Cam := { k with trigs := dropOver (updFirst (fun t => !t.paired) (fun t => { t with paired := true }) k.trigs) }

/-- The strobes that have not begun take DELAY and WIDTH afresh, from generation g; `last` is when the one before ends. One that would
begin before that is dropped (R214). Log entry 84 (DEDUCED). -/
def retime (delay width g : Nat) : Nat → List Trig → List Trig
  | _, [] => []
  | last, t :: ts =>
    if t.begun then t :: retime delay width g t.stop ts
    else if t.t + delay < last then retime delay width g last ts
    else { t with gen := g, start := t.t + delay, stop := t.t + delay + width } :: retime delay width g (t.t + delay + width) ts

/-- The end of the last strobe that triggers stand for, if any stands. -/
def lastEnd (old : Nat) (ts : List Trig) : Nat := match ts.getLast? with | some t => t.stop | none => old

/-- The frame's generation is g: the strobes of its triggers, those that have not begun, go by it (R226). Log entry 84 (DEDUCED). -/
def Dev.retimeTrigs (d : Dev) (c g : Nat) : Dev :=
  let ts := retime (d.genRd g F.INS_Cc_STROBE_DELAY c) (d.genRd g F.INS_Cc_STROBE_WIDTH c) g 0 (d.cam c).trigs
  let gone := (d.cam c).trigs.length - ts.length
  let n := max 1 (d.camSec c).frameLines
  (d.setCam c fun k => { k with
    trigs := ts, lastStop := lastEnd k.lastStop ts, trigGen := g, seq := (k.seq + n - gone % n) % n }).count F.INS_Cc_COUNT_OVERLAP c gone

/-- The frame of a camera has its first line. -/
def Cam.begun (k : Cam) : Bool := match k.frame with | some f => f.begun | none => false

/-- With no line of the frame paired yet, the oldest unpaired trigger is its start trigger: its generation rules (R226). Log entry 84 (DEDUCED). -/
def Dev.newStart (d : Dev) (c : Nat) : Dev :=
  if (d.cam c).begun then d
  else match (d.cam c).oldest with
    | some t => if t.newest = (d.cam c).trigGen then d else d.retimeTrigs c t.newest
    | none => d

/-- A trigger unpaired LINE_TMO after its strobe ended is a missing line (R214). -/
def Dev.lineMissed (d : Dev) (c : Fin 8) : Dev :=
  match (d.cam c).oldest with
  | none => d
  | some _ =>
    let n := max 1 (d.camSec c).frameLines
    let d := (d.setCam c fun k => { k.pair with seq := (k.seq + n - 1) % n }).newStart c
    (d.count F.INS_Cc_COUNT_MISSED c 1).tally .secure 0x0E03 c [(1, c)]

/-! ### Reading the line window (R222, R231) -/

/-- What the window gives of one line: its shift, and each strip read: none if it is absent. -/
structure WinLine where
  line : Int
  shift : Int
  strips : List (Nat × Option (List Byte))

/-- What a camera's read of a line in a strip finds: absent below the release mark (R140), else what the window records (R139). Log entry 192 (DEDUCED). -/
def Dev.camSeg (d : Dev) (n : Int) (s : Nat) : SegKind :=
  if n < d.releaseMark then .absent
  else match d.winHas s n false with
    | none => .absent
    | some true => .noInk
    | some false => .read

/-- The bytes of strip s, in whole granules, that hold window columns a to b: the offset, and how many (R229). -/
def granuleSpan (s : Nat) (a b : Int) : Nat × Nat :=
  let lo := ((max a (s * 4096)).toNat % 4096) / 512 * 128
  let hi := ((min b (s * 4096 + 4095)).toNat % 4096) / 512 * 128 + 128
  (lo, hi - lo)

/-- Read the strips of a line that bar columns lo to hi reach, in the granules that they touch (R222, R229). Log entry 63 (DEDUCED). -/
def Dev.readWin (d : Dev) (req : Nat) (lo hi : Nat) (n : Int) : WinLine × Dev :=
  let sh := d.shiftAt n
  let need := (List.range 16).filter fun (s : Nat) =>
    decide ((lo : Int) - sh < (s + 1) * 4096) && decide ((s : Int) * 4096 ≤ (hi : Int) - sh)
  let (ss, d) := need.foldl (fun acc s =>
    let (l, d) := acc
    match d.camSeg n s with
    | .absent => (l ++ [(s, none)], d)
    | .noInk => (l ++ [(s, some [])], d)
    | .read =>
      let (off, len) := granuleSpan s (lo - sh) (hi - sh)
      match d.dramRead req (d.masterSecure req) none (d.slotAddr n + s * 1024 + off) len with
      | (.ok bs, d) => (l ++ [(s, some (List.replicate off 0 ++ bs))], d)
      | (_, d) => (l ++ [(s, none)], d)) (([] : List (Nat × Option (List Byte))), d)
  (⟨n, sh, ss⟩, d)

/-- The pixel at a bar column: a missing window column counts 0; none where the segment is absent. -/
def WinLine.pixel (w : WinLine) (c : Nat) : Option Nat :=
  let u : Int := (c : Int) - w.shift
  if u < 0 ∨ 65535 < u then some 0
  else match w.strips.lookup (u.toNat / 4096) with
    | some (some seg) => some (stripPixel seg (u.toNat % 4096))
    | _ => none

/-- Read every line that a camera line covers. -/
def Dev.readLines (d : Dev) (req : Nat) (lo hi : Nat) (m : Int) (along : Nat) : List WinLine × Dev :=
  (List.range along).foldl (fun acc (i : Nat) =>
    let (w, d) := acc.2.readWin req lo hi (m + i)
    (acc.1 ++ [w], d)) (([] : List WinLine), d)

/-! ### The pipeline (R219 to R223) -/

/-- Pixel i of a payload in the 12-bit domain: RAW10 packs four pixels in five bytes and enters as 4v, RAW12 two in three
(PRESUMED, log entry 41). -/
def rawPixel (raw12 : Bool) (bs : Array Byte) (i : Nat) : Nat :=
  if raw12 then
    (bs.getD (i / 2 * 3 + i % 2) 0).toNat * 16 + (bs.getD (i / 2 * 3 + 2) 0).toNat / 2 ^ (4 * (i % 2)) % 16
  else ((bs.getD (i / 4 * 5 + i % 4) 0).toNat * 4 + (bs.getD (i / 4 * 5 + 4) 0).toNat / 2 ^ (2 * (i % 4)) % 4) * 4

/-- The nearest pixel within 4 on one side that is not defective. -/
def nearGood (bad : Array Bool) (ys : Array Nat) (i : Int) (step : Int) : Option Nat :=
  ((List.range 4).find? fun (k : Nat) =>
    let j := i + step * (k + 1)
    decide (0 ≤ j ∧ j < ys.size) && !(bad.getD j.toNat false)).map fun k => ys.getD (i + step * ((k : Int) + 1)).toNat 0

/-- R220 for one pixel: its value, and whether it is unusable. -/
def mendPixel (bad : Array Bool) (ys : Array Nat) (i : Nat) : Nat × Bool :=
  if !(bad.getD i false) then (ys.getD i 0, false)
  else match nearGood bad ys i (-1), nearGood bad ys i 1 with
    | some a, some b => ((a + b) / 2, false)
    | some a, none => (a, false)
    | none, some b => (b, false)
    | none, none => (ys.getD i 0, true)

/-- One of stages 1 to 3 on the pixels and their usability. -/
def Dev.stage (d : Dev) (g c : Nat) (ys : Array Nat × Array Bool) (code : Nat) : Array Nat × Array Bool :=
  let (y, dead) := ys
  match code with
  | 1 => (y.map fun v => v - d.genRd g F.INS_Cc_BLACK_BLACK c, dead)
  | 2 =>
    let bad := (Array.range y.size).map fun i => (d.genReg g R.INS_Cc_DEFECT (c * 128 + i / 32)).testBit (i % 32)
    let r := (Array.range y.size).map (mendPixel bad y)
    (r.map Prod.fst, r.map Prod.snd)
  | 3 =>
    ((Array.range y.size).map fun i =>
      let w := d.genReg g R.INS_Cc_SHADE (c * 4096 + i)
      (clampInt 0 4095 ((y.getD i 0 * fieldOf 0 16 w / 2 ^ 14 : Nat) + toSigned 12 (fieldOf 16 12 w))).toNat, dead)
  | _ => (y, dead)

/-- R221 for one bar column: the reflectance, and whether the column is valid. -/
def resample (first across pixels : Nat) (ys : Array Nat × Array Bool) (col : Nat) : Nat × Bool :=
  let u : Int := (((col : Int) - first) * 65536 + 32768) * 65536 / across - 32768
  let u := (clampInt 0 (((pixels : Int) - 1) * 65536) u).toNat
  let i := u / 65536
  let f := u % 65536
  let j := min (i + 1) (pixels - 1)
  ((ys.1.getD i 0 * (65536 - f) + ys.1.getD j 0 * f + 32768) / 65536, !(ys.2.getD i false) && !(ys.2.getD j false))

/-- The last bar column of a camera's span under its ACROSS (R217). Log entry 81 (DEDUCED). -/
def Dev.lastCol (d : Dev) (g c : Nat) : Nat :=
  (d.camSec c).firstCol + ((d.camSec c).pixels * d.genRd g F.INS_Cc_GEOM_ACROSS c + 65535) / 65536 - 1

/-- The bar columns that camera c owns (R218): first, and how many. Log entry 81 (DEDUCED). -/
def Dev.owned (d : Dev) (g c : Nat) : Nat × Nat :=
  let f := (d.camSec c).firstCol
  let e := d.lastCol g c
  let (lo, hi) := (d.camsOn.filter fun o => decide (o ≠ c)).foldl (fun r o =>
    let fo := (d.camSec o).firstCol
    let eo := d.lastCol g o
    if e < fo ∨ eo < f then r
    else if fo < f ∨ (fo = f ∧ o < c) then (max r.1 ((f + eo + 1) / 2), r.2)
    else (r.1, min r.2 ((fo + e + 1) / 2))) (f, e + 1)
  (lo, hi - lo)

/-- Every head that prints the column printed line n (R223). -/
def Dev.headsPrinted (d : Dev) (col : Nat) (n : Int) : Bool :=
  (d.gauge.heads.zipIdx).all fun p =>
    if p.1.firstCol ≤ col ∧ col < p.1.firstCol + 2048 then
      (if d.gauge.dual then [0, 1] else [(n % 2).toNat]).all fun r => d.rowPrinted (rowKey p.2 r) n
    else true

/-- The covered lines' shared part of R223. -/
def Dev.lineCompared (d : Dev) (ws : List WinLine) (col : Nat) : Bool :=
  ws.all fun w => (w.pixel col).isSome && (d.inMargin col w.line && d.headsPrinted col w.line)

/-- Run the pipeline on a line: the compared camera line, with every sum it gives the frame (R219 to R225). Log entry 86 (DEDUCED). -/
def Dev.pipeline (d : Dev) (c : Nat) (f : Frame) (l : CamLine) : CompLine × Dev :=
  let s := d.camSec c
  let g := f.gen
  let along := d.genRd g F.INS_Cc_GEOM_ALONG c
  let across := d.genRd g F.INS_Cc_GEOM_ACROSS c
  let m := l.pos / 2 ^ 32 - s.webOffset
  let raw := l.payload.toArray
  let ys := d.inspect.stages.foldl (d.stage g c) ((Array.range s.pixels).map (rawPixel s.raw12 raw), Array.replicate s.pixels false)
  let (col0, n) := d.owned g c
  let cols := (List.range n).map fun q => col0 + q
  let refl := cols.map (resample s.firstCol across s.pixels ys)
  let ms := refl.map fun r => d.genReg g R.INS_Cc_DENS_LUT (c * 1024 + r.1 / 4) / 2 ^ (8 * (r.1 % 4)) % 256
  let lines := (List.range along).map fun (i : Nat) => m + (i : Int)
  let swatch := lines.any fun n => (d.swatchOf n).isSome
  let suspect := lines.any fun n => match d.pageOf n with | some p => p.suspect | none => false
  let base : CompLine := { cam := c, m := m, swatch := swatch, suspect := suspect, absent := false, along := along
                           frame := f.number, slot := l.slot, gen := g, col0 := col0, ms := ms, es := ms.map fun _ => 0
                           valid := refl.map Prod.snd, cmp := ms.map fun _ => false }
  if swatch || n = 0 then (base, d)
  else
    let (ws, d) := d.readLines 6 col0 (col0 + n - 1) m along
    let cmp := (cols.zip (refl.map Prod.snd)).map fun p => p.2 && d.lineCompared ws p.1
    let es := (cols.zip cmp).map fun p =>
      if p.2 then
        let sum := min 31 (ws.foldl (fun a w => a + (w.pixel p.1).getD 0) 0)
        d.genReg g R.INS_Cc_EXP_LUT (c * 8 + sum / 4) / 2 ^ (8 * (sum % 4)) % 256
      else 0
    ({ base with es := es, cmp := cmp, absent := ws.any fun w => w.strips.any fun p => p.2.isNone }, d)

/-- The words of a compared line on fabric port 0x0E01 before its CRC word (R225). -/
def CompLine.body (l : CompLine) : List Nat :=
  let n := l.ms.length
  let cols := fun (per : Nat) (f : Nat → Nat) (w : Nat) => (List.range ((n + per - 1) / per)).map fun i =>
    (List.range per).foldl (fun acc j => acc + f (per * i + j) * 2 ^ (w * j)) 0
  [ofSigned 48 l.m + l.cam * 2 ^ 48 + flag l.swatch 51 + flag l.suspect 52 + flag l.absent 53 + (l.along - 1) * 2 ^ 54,
    l.frame + l.slot * 2 ^ 32 + l.gen % 65536 * 2 ^ 48, l.col0 + n * 2 ^ 16] ++
  cols 4 (fun q => at' l.ms q + at' l.es q * 256) 16 ++ cols 64 (fun q => if l.cmp.getD q false then 1 else 0) 1

/-- A compared line as it goes to nozzle health: 64-bit words, the last one its CRC (R225). -/
def CompLine.frame64 (l : CompLine) : List Nat := l.body ++ [crcWord l.body]

/-- What a compared line adds to its frame (R227). -/
def Frame.add (f : Frame) (l : CompLine) : Frame :=
  let trips := if l.swatch then [] else ((l.ms.zip l.es).zip l.cmp).filterMap fun p => if p.2 then some p.1 else none
  { f with
    swatch := f.swatch || l.swatch
    suspect := f.suspect || l.suspect
    absent := f.absent || l.absent
    compared := f.compared + trips.length
    sumM := trips.foldl (fun a p => a + p.1) f.sumM
    sumE := trips.foldl (fun a p => a + p.2) f.sumE
    sumAbs := trips.foldl (fun a p => a + (if p.1 < p.2 then p.2 - p.1 else p.1 - p.2)) f.sumAbs }

/-- The oldest waiting line of camera c runs the pipeline and goes to nozzle health, if that function is ON (R224, R231). -/
def Dev.processLine (d : Dev) (c : Nat) : Dev :=
  match (d.cam c).waiting, (d.cam c).frame with
  | l :: rest, some f =>
    let d := d.setCam c fun k => { k with waiting := rest }
    let (o, d) := d.pipeline c f l
    let d := d.setCam c fun k => { k with frame := some (f.add o) }
    if d.funcOn .nzh then { d with nzh.inbox := d.nzh.inbox ++ [o] } else d
  | _, _ => d

/-! ### Frames (R215, R216, R227, R228) -/

def Dev.showFrame (d : Dev) (c : Nat) : Dev :=
  match (d.cam c).frame with
  | some f => ((d.wrB F.INS_Cc_STAT_OPEN c true).wr F.INS_Cc_STAT_LINES c f.lines).wr F.INS_Cc_STAT_FRAME c f.number
  | none => (d.wrB F.INS_Cc_STAT_OPEN c false).wr F.INS_Cc_STAT_LINES c 0

/-- The three values of a record that a frame without a line leaves open: GEN, FIRST_LINE and START_BEAT. Log entry 83 (DESIGN CHOICE). -/
def Dev.frameFacts (d : Dev) (f : Frame) : (Nat × Nat × Nat) × Dev :=
  if f.begun then ((f.gen % 65536, ofSigned 64 f.first, f.startBeat % 2 ^ 32), d)
  else
    let (a, d) := d.free (2 ^ 16)
    let (b, d) := d.free (2 ^ 64)
    let (e, d) := d.free (2 ^ 32)
    ((a, b, e), d)

/-- The swatches not read yet that lie wholly below a camera line, or that a frame closes with: camera c is past them. -/
def Dev.pastSwatches (d : Dev) (c : Nat) (p : Swatch → Bool) : Dev :=
  (d.las.swatches.filter fun w => !w.read && p w).foldl (fun d w =>
    { d with nzh.beyond := mapSet d.nzh.beyond w.uid (Nat.lor (mapGet d.nzh.beyond w.uid 0) (2 ^ c)) 0 }) d

/-- FLAGS of a frame that closes (R227). -/
def Dev.frameFlags (d : Dev) (c : Nat) (f : Frame) : Nat :=
  flag (decide (f.lines < (d.camSec c).frameLines)) 0 + flag (decide (0 < f.excess)) 1 + flag f.swatch 2 + flag f.suspect 3 + flag f.absent 4

/-- The 64 bytes of a frame's record (R227), with its GEN, FIRST_LINE and START_BEAT. -/
def Dev.frameRecord (d : Dev) (c : Nat) (f : Frame) (gen first beat : Nat) : List Byte :=
  let n := (d.camSec c).frameLines
  let body := pack [(4, f.number), (1, c), (1, d.frameFlags c f), (2, gen), (8, first), (2, f.lines),
    (2, f.invalid + (n - f.lines)), (2, min f.excess 65535), (2, 0), (8, f.compared), (8, f.sumM), (8, f.sumE), (8, f.sumAbs), (4, beat)]
  body ++ leBytes 4 (crc32 body)

/-- Where the entry of the INS_STAT ring at HEAD lies (R227). -/
def Dev.frameEntry (d : Dev) : Nat := d.rd F.INS_STAT_RING_BASE * 4096 + d.rd F.INS_STAT_HEAD_HEAD * 64

/-- Close the open frame of camera c: its lines are processed first, then its record is written (R215, R227); the triggers still unpaired are the
next frame's (R226). -/
def Dev.closeFrame (d : Dev) (c : Nat) : Dev :=
  let d := (d.cam c).waiting.foldl (fun d _ => d.processLine c) d
  match (d.cam c).frame with
  | none => d
  | some f =>
    let s := d.camSec c
    let ((gen, first, beat), d) := d.frameFacts f
    let flags := d.frameFlags c f
    let idx := d.rd F.INS_STAT_HEAD_HEAD
    let (_, d) := d.dramWrite 7 (d.masterSecure 7) none d.frameEntry (d.frameRecord c f gen first beat)
    let d := d.wr F.INS_STAT_HEAD_HEAD 0 ((idx + 1) % 2 ^ d.rd F.INS_STAT_RING_LOG_ENTRIES)
    let d := d.setCam c fun k => { k with
      frame := none, seq := (k.trigs.filter fun t => !t.paired).length % max 1 s.frameLines }
    let d := d.newStart c
    let d := if f.swatch then d.pastSwatches c fun w => decide (f.first < w.first + w.lines ∧ w.first < f.last + 8) else d
    (d.showFrame c).raise .secure 0x0E01 [(1, c), (4, f.number), (2, gen), (1, flags), (2, idx)]

/-- Frame Start. -/
def Dev.frameStart (d : Dev) (c : Fin 8) : Dev :=
  if !d.camOn c then d
  else
    let d := d.closeFrame c
    (d.setCam c fun k => { k with frame := some { number := k.next }, next := (k.next + 1) % 2 ^ 32 }).showFrame c

/-- A frame without a line may still start with a trigger stamped under generation g (R226). Log entry 84 (DEDUCED). -/
def Dev.mayStart (d : Dev) (g : Nat) : Bool :=
  d.ins.cams.any fun k => !k.begun && k.trigs.any fun t => !t.paired && decide (t.newest = g)

/-- A frame takes its first line: its generation, which its later triggers' strobes use too, FRAME_APPLIED if it is the camera's first
with it, with the generations replaced that no frame can use any more, CAPTURE and its bitmap (R226). Log entry 84 (DEDUCED). -/
def Dev.beginFrame (d : Dev) (c : Nat) (f : Frame) (t : Trig) : Frame × Dev :=
  let f := { f with begun := true, gen := t.newest, first := t.pos / 2 ^ 32 - (d.camSec c).webOffset, startBeat := t.beat, capture := t.capture }
  let d := { d with
    ins.used := d.ins.used || decide (t.newest = d.ins.gen)
    ins.unused := d.ins.unused.filter fun g => decide (g ≠ t.newest) }
  let d := if (d.cam c).trigGen = t.newest then d else d.retimeTrigs c t.newest
  let d := if (d.cam c).applied = some t.newest then d
    else
      let (wait, gone) := d.ins.unused.partition d.mayStart
      ({ d with ins.unused := wait }.setCam c fun k => { k with applied := some t.newest }).raise .secure 0x0E02
        [(1, c), (4, f.number), (2, t.newest % 65536), (4, gone.length)]
  (f, d)

/-- Where a frame's slot lies. -/
def Dev.slotBase (d : Dev) (c : Nat) (f : Frame) : Nat :=
  d.rd F.INS_Cc_FBUF_BASE c * 2 ^ 21 + f.number % d.rd F.INS_Cc_FBUF_FRAMES c * (d.camSec c).slotBytes

/-- Store slot line n of a captured frame, with its bitmap (R228). Log entry 82 (DEDUCED). -/
def Dev.capture (d : Dev) (c : Nat) (f : Frame) (n : Nat) (payload : List Byte) (valid : Bool) : Dev :=
  if !f.capture then d
  else
    let s := d.camSec c
    let write := fun (d : Dev) (a : Nat) (bs : List Byte) => (d.dramWrite 5 (d.masterSecure 5) none a bs).2
    let base := d.slotBase c f
    let map := base + s.frameLines * s.lineBytes
    let d := if n = 0 then write d map (List.replicate 1024 0) else d
    let d := write d (base + n * s.lineBytes) (payload.take s.lineBytes)
    if valid then
      let old := (d.byte (map + n / 8)).toNat
      write d (map + n / 8) [BitVec.ofNat 8 (Nat.lor old (2 ^ (n % 8)))]
    else d

/-- Count a bad line, and post CSI_ERROR once per beat and camera. Log entry 82 (DEDUCED). -/
def Dev.badLine (d : Dev) (c kind : Nat) : Dev :=
  (d.count F.INS_Cc_COUNT_BAD_LINE c 1).raiseOnce .secure 0x0E04 c [(1, c), (1, kind)]

/-- Why a line is invalid (R210, R216): the kind of CSI_ERROR, 0 if it is valid. -/
def Dev.lineBad (d : Dev) (c : Nat) (pk : CsiPacket) : Nat :=
  if !pk.crcOk then 2
  else if pk.payload.length ≠ (d.camSec c).lineBytes then 3
  else if 4 ≤ (d.cam c).waiting.length then 5 else 0

/-- A camera line pairs with the oldest unpaired trigger and takes the next slot of the open frame. Log entry 82 (DEDUCED). -/
def Dev.placeLine (d : Dev) (c : Nat) (f : Frame) (t : Trig) (pk : CsiPacket) : Dev :=
  let bad := d.lineBad c pk
  let d := if bad = 0 then d else d.badLine c bad
  let d := d.setCam c Cam.pair
  if (d.camSec c).frameLines ≤ f.lines then
    (d.setCam c fun k => { k with frame := some { f with excess := f.excess + 1 } })
  else
    let (f, d) := if f.begun then (f, d) else d.beginFrame c f t
    let d := d.capture c f f.lines pk.payload (decide (bad = 0))
    let f' := { f with lines := f.lines + 1, last := t.pos / 2 ^ 32 - (d.camSec c).webOffset, invalid := if bad = 0 then f.invalid else f.invalid + 1 }
    (d.setCam c fun k => { k with
      frame := some f'
      waiting := if bad = 0 then k.waiting ++ [⟨f.lines, t.pos, pk.payload⟩] else k.waiting }).showFrame c

/-- A long packet of the configured type (R210, R214). -/
def Dev.longPacket (d : Dev) (c : Fin 8) (pk : CsiPacket) : Dev :=
  if !d.camOn c then d
  else if !pk.eccOk then d.badLine c 1
  else match (d.cam c).frame, (d.cam c).oldest with
    | some f, some t => d.placeLine c f t pk
    | _, _ =>
      let d := d.count F.INS_Cc_COUNT_ORPHAN c 1
      let bad := d.lineBad c pk
      if bad = 0 then d else d.badLine c bad

/-- Packets of other kinds (R209, R210). -/
def Dev.otherPacket (d : Dev) (c : Fin 8) (kind : CsiOther) : Dev :=
  if !d.camOn c then d
  else match kind with
    | .harmless => d
    | .wrongLong => d.badLine c 4
    | .badShort => d.raiseOnce .secure 0x0E04 c [(1, c), (1, 1)]

/-- A camera leaves ON: its frame closes. -/
def Dev.camLeaves (d : Dev) (c : Nat) : Dev := d.closeFrame c

/-- A camera starts: frame numbers from 0, no trigger, no line (R216), and its strobe at the level that POLARITY calls inactive (R374). -/
def Dev.camStarts (d : Dev) (c : Nat) : Dev :=
  d.setCam c fun k => { applied := k.applied, low := decide (d.genRd d.ins.gen F.INS_Cc_STROBE_POLARITY c = 1) }

/-- A stopped camera: its strobe is inactive, and no trigger stands. -/
def Dev.camStopped (d : Dev) (c : Nat) : Dev := d.setCam c fun k => { k with trigs := [], waiting := [], strobe := false, seq := 0 }

/-- The camera terms of R140: the line that the web has brought under each camera, less 160. -/
def Dev.camTerms (d : Dev) : List Int :=
  List.map (fun (c : Fin 8) => d.web.x / 2 ^ 32 - ((d.camSec c).webOffset : Int) - 160) ((List.finRange 8).filter fun (c : Fin 8) => decide ((d.func (.cam c)).st ≠ .off ∧ (d.func (.cam c)).st ≠ .wedged))

/-! ### Sensor I2C (R212) -/

def Dev.i2cJob (d : Dev) (k : Nat) : Option I2cJob := (d.ins.i2c.getD k none)

def Dev.setI2c (d : Dev) (k : Nat) (j : Option I2cJob) : Dev := { d with ins.i2c := d.ins.i2c.set k j }

/-- Send a transaction out, unless a probe holds it. -/
def Dev.runI2c (d : Dev) (k : Fin 2) (j : I2cJob) : Dev :=
  let d := d.setI2c k (some { j with held := d.ins.probing })
  if d.ins.probing then d else d.emit (.i2c k j.dev j.reg j.read j.count j.data j.speed)

/-- A write to INS_I2Cm_CMD: GO starts a transaction unless one is in progress or held. -/
def Dev.wI2c (d : Dev) (k : Fin 2) (val mask : Nat) : Dev :=
  let d := d.store R.INS_I2Cm_CMD k val mask
  if (Nat.land val mask).testBit 32 && (d.i2cJob k).isNone then
    (d.wrB F.INS_I2Cm_STAT_BUSY k true).runI2c k ⟨d.rd F.INS_I2Cm_CMD_DEV k, d.rd F.INS_I2Cm_CMD_REG k, d.on F.INS_I2Cm_CMD_READ k,
      d.rd F.INS_I2Cm_CMD_COUNT k, d.rd F.INS_I2Cm_DATA_DATA k, d.rd F.INS_I2Cm_CMD_SPEED k, false⟩
  else d

/-- A host's transaction is under way on master k. -/
def Dev.i2cRuns (d : Dev) (k : Nat) : Bool := match d.i2cJob k with | some j => !j.held | none => false

/-- A master reads one byte at PROBE_REG from the next camera that it is to probe (R212), at the speed of its command register. Log entry 85 (DEDUCED). -/
def Dev.nextProbe (d : Dev) (k : Fin 2) : Dev :=
  if d.i2cRuns k then d
  else match at' d.ins.probe k with
  | c :: _ => d.emit (.i2c k (d.rd F.INS_Cc_I2C_DEV c) (d.rd F.INS_Cc_I2C_PROBE_REG c) true 1 0 (d.rd F.INS_I2Cm_CMD_SPEED k))
  | [] => d

/-- Cast-on step 14: each master probes its enabled cameras in turn (R212). Log entry 85 (DEDUCED). -/
def Dev.startProbe (d : Dev) : Dev :=
  let cams := fun (k : Nat) => (List.range 8).filter fun c => decide (c / 4 = k) && (d.inspect.camMask.testBit c && !d.bit F.SYS_CLOG_DIR_CAM_OFF c)
  let d := { d with ins.probing := true, ins.probe := [cams 0, cams 1], ins.answers := [] }
  (List.finRange 2).foldl (fun (d : Dev) (k : Fin 2) => d.nextProbe k) d

/-- A probe's transaction ends. -/
def Dev.probeDone (d : Dev) (k : Fin 2) (result : Nat) : Dev :=
  match at' d.ins.probe k with
  | c :: rest => { d with ins.probe := d.ins.probe.set k rest, ins.answers := (c, result) :: d.ins.answers }.nextProbe k
  | [] => d

/-- The probe of cast-on step 14 ends: held transactions start. -/
def Dev.endProbe (d : Dev) : Dev :=
  let d := { d with ins.probing := false, ins.probe := [[], []] }
  (List.finRange 2).foldl (fun (d : Dev) (k : Fin 2) => match d.i2cJob k with | some j => if j.held then d.runI2c k j else d | none => d) d

/-- A host's transaction is complete (R212). -/
def Dev.completeI2c (d : Dev) (k : Fin 2) (j : I2cJob) (result data : Nat) : Dev :=
  let d := d.setI2c k none
  let d := if j.read ∧ result = 0 then d.wr F.INS_I2Cm_DATA_DATA k (data % 2 ^ (8 * j.count)) else d
  let d := ((d.wrB F.INS_I2Cm_STAT_BUSY k false).wrB F.INS_I2Cm_STAT_DONE k true).wr F.INS_I2Cm_STAT_RESULT k result
  d.raise .secure 0x0E05 [(1, k), (1, result)]

/-- A transaction ends: result 0 OK, 1 NACK_ADDR, 2 NACK_DATA, 3 TIMEOUT. The host's one, if it is under way, and the probe follows it;
else the probe's. Log entry 85 (DEDUCED). -/
def Dev.endI2c (d : Dev) (k : Fin 2) (result data : Nat) : Dev :=
  match d.i2cJob k with
  | some j =>
    if j.held then (if d.ins.probing then d.probeDone k result else d)
    else
      let d := d.completeI2c k j result data
      if d.ins.probing then d.nextProbe k else d
  | none => if d.ins.probing then d.probeDone k result else d

/-! ### The commands -/

def execCameraTrigger (c : Fin 8) (s : State) : Host.Outcome State Fault Refusal := s.act fun d => d.cameraTrigger c

def execStrobeStart (c : Fin 8) (s : State) : Host.Outcome State Fault Refusal := s.act fun d => d.strobeStart c

def execStrobeEnd (c : Fin 8) (s : State) : Host.Outcome State Fault Refusal := s.act fun d => d.strobeEnd c

def execCsiFrameStart (c : Fin 8) (s : State) : Host.Outcome State Fault Refusal := s.act fun d => d.frameStart c

def execCsiFrameEnd (c : Fin 8) (s : State) : Host.Outcome State Fault Refusal :=
  s.act fun d => if d.camOn c then d.closeFrame c else d

def execCsiLongPacket (c : Fin 8) (pk : CsiPacket) (s : State) : Host.Outcome State Fault Refusal := s.actInOrder fun d => d.longPacket c pk

def execCsiOtherPacket (c : Fin 8) (kind : CsiOther) (s : State) : Host.Outcome State Fault Refusal :=
  s.act fun d => d.otherPacket c kind

def execCamLineMissed (c : Fin 8) (s : State) : Host.Outcome State Fault Refusal := s.act fun d => d.lineMissed c

def execFrameIdleTimeout (c : Fin 8) (s : State) : Host.Outcome State Fault Refusal := s.act fun d => d.closeFrame c

def execCamLineProcess (c : Fin 8) (s : State) : Host.Outcome State Fault Refusal := s.act fun d => d.processLine c

def execInsCommit (m : Master) (s : State) : Host.Outcome State Fault Refusal :=
  s.act fun d => d.writeTo m R.INS_COMMIT 0 fun d => d.wInsCommit 1 1

def execI2cGo (m : Master) (k : Fin 2) (val : Nat) (s : State) : Host.Outcome State Fault Refusal :=
  s.act fun d => d.writeTo m R.INS_I2Cm_CMD k fun d => d.wI2c k val mask64

def execI2cComplete (k : Fin 2) (result data : Nat) (s : State) : Host.Outcome State Fault Refusal :=
  s.act fun d => d.endI2c k (result % 4) data

def execI2cTimeout (k : Fin 2) (s : State) : Host.Outcome State Fault Refusal := s.act fun d => d.endI2c k 3 0

end Sys2Proof.Machine
end

