-- ==== Sys2Proof/Machine/Health.lean ====
section
/-!
DEFINITION. Chapter 13: sole and swatch readings, health windows and verdicts, the substitution map's changes with their audit and
quarantine, and registration.
-/

namespace Sys2Proof.Machine

/-! ### Nozzles and columns -/

/-- The bar column of a nozzle. -/
def Dev.nzCol (d : Dev) (nz : Nat) : Nat := (d.headSec (nz / 4096)).firstCol + nz % 2048

/-- The heads that reach a column, each with the nozzle index of its rows at that column. -/
def Dev.headsAt (d : Dev) (c : Nat) : List (Nat × Nat) :=
  (d.gauge.heads.zipIdx).filterMap fun p =>
    if p.1.firstCol ≤ c ∧ c < p.1.firstCol + 2048 then some (p.2, c - p.1.firstCol) else none

/-- The rows that the row mode assigns a line to. -/
def Dev.rowsOf (d : Dev) (n : Int) : List Nat := if d.gauge.dual then [0, 1] else [(n % 2).toNat]

/-- The map entry of a nozzle, MODE and LOCK. -/
def Dev.entry (d : Dev) (nz : Nat) : Nat := d.reg R.LA_SUBST (nz / 8) / 2 ^ (4 * (nz % 8)) % 16

def Dev.setEntry (d : Dev) (nz v : Nat) : Dev :=
  d.setReg R.LA_SUBST (nz / 8) (fieldSet (4 * (nz % 8)) 4 (d.reg R.LA_SUBST (nz / 8)) v)

/-- Head h kept column c in row r when it built line n, under R145, R146 and the selvedge step of R239 (R231). Log entry 191 (DEDUCED). -/
def Dev.keeps (d : Dev) (h r c : Nat) (n : Int) : Bool :=
  let out := d.outWhen h r n
  !out.testBit h && d.keepsBy out h r c n

/-- The span that the gauge's heads print (R230). -/
def Dev.printSpan (d : Dev) : Nat × Nat :=
  d.gauge.heads.foldl (fun r h => (min r.1 h.firstCol, max r.2 (h.firstCol + 2047))) (0xFFFFF, 0)

/-! ### Readings (R231, R234) -/

/-- The nozzles that contribute ink at column c in the covered lines. -/
def Dev.inkers (d : Dev) (ws : List WinLine) (c : Nat) : List Nat :=
  (ws.flatMap fun w =>
    if (w.pixel c).getD 0 = 0 then []
    else (d.headsAt c).flatMap fun hk =>
      (d.rowsOf w.line).filterMap fun r => if d.keeps hk.1 r c w.line then some (nozzleIdx hk.1 r hk.2) else none).eraseDups

/-- Column c of a line may have ink: its window pixel if it has been read, and else whether the line lies in a page: nothing fires on
one that lies in none (R139, R143). Log entry 191 (DEDUCED). -/
def Dev.mayInk (d : Dev) (w : WinLine) (c : Nat) : Bool :=
  match w.pixel c with
  | some p => decide (p ≠ 0)
  | none => (d.pageOf w.line).isSome

/-- The window has ink for nozzle k of head h and row r on a line. -/
def Dev.ownInk (d : Dev) (w : WinLine) (h r k : Nat) : Bool :=
  let c := (d.headSec h).firstCol + k
  d.mayInk w c && (d.inMargin c w.line && d.keeps h r c w.line)

/-- A nozzle fires on a covered line that is no swatch line, by R142 and R239: its own ink if its entry is NONE, and if it is available
what its partner and its neighbours give it. A pair line of a page that is not covered counts as ink. Log entry 191 (DEDUCED). -/
def Dev.firesOn (d : Dev) (ws : List WinLine) (w : WinLine) (h r k : Nat) : Bool :=
  let n := w.line
  let m := d.pairLine n
  let partner := decide (d.modeAt (nozzleIdx h (1 - r) k) m = 1) && ((d.swatchOf m).isNone &&
    (match ws.find? fun x => decide (x.line = m) with | some x => d.ownInk x h (1 - r) k | none => (d.pageOf m).isSome))
  let side := fun (i : Nat) => decide (i < 2048 ∧ d.modeAt (nozzleIdx h r i) n = 2 ∧ d.neighbourTarget h r i n = some k) && d.ownInk w h r i
  (decide (d.substAt (nozzleIdx h r k) n % 4 = 0) && d.ownInk w h r k) ||
    (d.availableBy (d.outWhen h r n) h r k n && (partner || ((k ≠ 0 && side (k - 1)) || side (k + 1))))

/-- Nozzle k of row r of head h fires on a covered line that the row printed (R223): by the swatch on a swatch line (R150), else by the window. Log entry 191 (DEDUCED). -/
def Dev.firedOn (d : Dev) (ws : List WinLine) (w : WinLine) (h r k : Nat) : Bool :=
  d.rowPrinted (rowKey h r) w.line && (match d.swatchOf w.line with
    | some s =>
      !(d.outWhen h r w.line).testBit h &&
        (d.inMargin ((d.headSec h).firstCol + k) w.line && decide (swatchPixel s (d.headSec h).rank r k w.line ≠ 0))
    | none => (d.rowsOf w.line).contains r && d.firesOn ws w h r k)

/-- The nozzles that fire at column c in covered lines of which some are swatch lines (R234). -/
def Dev.firers (d : Dev) (ws : List WinLine) (c : Nat) : List Nat :=
  (ws.flatMap fun w => (d.headsAt c).flatMap fun hk =>
    [0, 1].filterMap fun r => if d.firedOn ws w hk.1 r hk.2 then some (nozzleIdx hk.1 r hk.2) else none).eraseDups

/-- The nozzles of column x are in quarantine for a camera line at m (R243). Log entry 88 (DEDUCED). -/
def Dev.quarantined (d : Dev) (x : Nat) (m : Int) : Bool := d.nzh.quar.any fun q => decide (q.1 ≤ x ∧ x ≤ q.2.1 ∧ m < q.2.2)

/-- Some nozzle within one column of c has an entry other than NONE, or is in quarantine for a camera line at m (R231, R243). -/
def Dev.tainted (d : Dev) (c : Nat) (m : Int) : Bool :=
  [c - 1, c, c + 1].any fun x => (d.headsAt x).any fun hk =>
    [0, 1].any (fun r => decide (d.entry (nozzleIdx hk.1 r hk.2) % 4 ≠ 0)) || d.quarantined x m

def Acc.plus (a b : Acc) : Acc := ⟨a.n + b.n, a.e + b.e, a.m + b.m, a.l + b.l, a.r + b.r⟩

/-- Entry q of a column list of a compared line, by bar column. -/
def CompLine.at (l : CompLine) (xs : Array Nat) (c : Nat) : Nat := if l.col0 ≤ c then xs.getD (c - l.col0) 0 else 0

def CompLine.is (l : CompLine) (xs : Array Bool) (c : Nat) : Bool := decide (l.col0 ≤ c) && xs.getD (c - l.col0) false

/-- Add one reading to a nozzle's accumulators. -/
def Dev.addSole (d : Dev) (nz : Nat) (a : Acc) : Dev :=
  { d with nzh.acc := mapSet d.nzh.acc nz ((mapGet d.nzh.acc nz {}).plus a) {} }.count F.NZ_COUNT_READINGS 0 1

def Dev.addSwatch (d : Dev) (nz : Nat) (a : Acc) : Dev :=
  { d with nzh.sw := mapSet d.nzh.sw nz ((mapGet d.nzh.sw nz {}).plus a) {} }.count F.NZ_COUNT_READINGS 0 1

/-- Nozzle health's own read gave every covered line at a column: an uncorrectable granule's columns are absent, and so not compared (R253, R222). -/
def seen (ws : List WinLine) (c : Nat) : Bool := ws.all fun w => (w.pixel c).isSome

/-- Every sole reading of a line. -/
def Dev.soleReadings (d : Dev) (l : CompLine) (ws : List WinLine) (cols : List Nat) : Dev :=
  let ms := l.ms.toArray
  let es := l.es.toArray
  let cmp := l.cmp.toArray
  let has := fun c => l.is cmp c && seen ws c
  cols.foldl (fun d c =>
    if !has c ∨ l.at es c < d.rdO F.NZ_DETECT_E_MIN ∨ d.tainted c l.m then d
    else match d.inkers ws c with
      | [x] =>
        let clear := c ≠ 0 ∧ (has (c - 1) && (has (c + 1) && decide (l.at es (c - 1) = 0 ∧ l.at es (c + 1) = 0))) = true
        d.addSole x ⟨1, l.at es c, l.at ms c, if clear then l.at ms (c - 1) else 0, if clear then l.at ms (c + 1) else 0⟩
      | _ => d) d

/-- Every swatch reading of a line, with E of a dot of the swatch's SIZE; a quarantined nozzle's are ignored (R243). -/
def Dev.swatchReadings (d : Dev) (l : CompLine) (ws : List WinLine) (cols : List Nat) (dot : Nat) : Dev :=
  let ms := l.ms.toArray
  let ok := l.valid.toArray
  cols.foldl (fun d c =>
    if c = 0 ∨ d.quarantined c l.m ∨ !(l.is ok (c - 1) && (l.is ok c && l.is ok (c + 1))) then d
    else match d.firers ws c, d.firers ws (c - 1), d.firers ws (c + 1) with
      | [x], [], [] => d.addSwatch x ⟨1, dot, l.at ms c, l.at ms (c - 1), l.at ms (c + 1)⟩
      | _, _, _ => d) d

/-! ### Registration (R245 to R247) -/

/-- Σ of a weight over columns lo to hi, and Σ of column times weight. -/
def sums (f : Nat → Nat) (lo hi : Nat) : Nat × Nat :=
  (List.range (hi + 1 - lo)).foldl (fun s i => (s.1 + f (lo + i), s.2 + (lo + i) * f (lo + i))) (0, 0)

/-- A centroid in 1/256 column. Log entry 89 (DESIGN CHOICE). -/
def centroid (f : Nat → Nat) (lo hi : Nat) : Option Int :=
  let s := sums f lo hi
  if s.1 = 0 then none else some (s.2 * 256 / s.1 : Nat)

/-- EDGE: where M crosses the level, ascending from lo. Log entry 90 (DEDUCED). -/
def edgeAt (f : Nat → Nat) (level lo hi : Nat) : Option Int :=
  let above := decide (level ≤ f lo)
  ((List.range (hi - lo)).find? fun i => decide (level ≤ f (lo + i + 1)) != above).map fun i =>
    let a : Int := f (lo + i)
    let b : Int := f (lo + i + 1)
    ((lo + i : Nat) : Int) * 256 + ((level : Int) - a) * 256 / (b - a)

/-- Round a quotient to the nearest integer, ties away from zero. -/
def roundDiv (n d : Int) : Int := if 0 ≤ n then (2 * n + d) / (2 * d) else -((-2 * n + d) / (2 * d))

/-- Registration ends its run. Log entry 90 (DEDUCED). -/
def Dev.regBreak (d : Dev) : Dev := { d with nzh.alongM := 0, nzh.sumM := 0, nzh.alongE := 0, nzh.sumE := 0 }

/-- R246 for an error e in 1/256 column: a change of AUTO goes to line assembly, and S0 to the servo. Log entry 87 (DEDUCED). -/
def Dev.regUpdate (d : Dev) (e : Int) : Dev :=
  let t := d.nzh.t - (d.rd F.NZ_REG_CFG_GAIN : Int) * e / 256
  let ct := clampInt (-262144) 262143 t
  let diff := ct - 256 * d.nzh.auto
  let auto := if 128 + (d.rd F.NZ_REG_CFG_HYST : Int) < diff.natAbs then roundDiv ct 256 else d.nzh.auto
  let s0 := roundDiv ((ct - 256 * auto) * 423333) 256000
  let d := { d with
    nzh.t := ct
    nzh.auto := auto
    nzh.s0 := s0
    nzh.s0Out := some s0
    nzh.autoOut := if auto = d.nzh.auto then d.nzh.autoOut else d.nzh.autoOut ++ [auto] }
  let d := (d.wrS F.NZ_REG_STAT_ERROR 0 e).wrS F.NZ_REG_STAT_T 0 ct
  if ct = t then d else d.raise .secure 0x0F05 [(3, ofSigned 24 ct)]

/-- R247: one more line of the run. -/
def Dev.regAlong (d : Dev) (l : CompLine) (sm se : Nat) : Dev :=
  let w := 2 * l.m + (l.along - 1 : Nat)
  let n := d.nzh
  let d := { d with
    nzh.alongM := n.alongM + w * sm, nzh.sumM := n.sumM + sm, nzh.alongE := n.alongE + w * se, nzh.sumE := n.sumE + se }
  if d.nzh.sumM = 0 ∨ d.nzh.sumE = 0 then d
  else d.wrS F.NZ_REG_STAT_ALONG 0 (d.nzh.alongM * 128 / d.nzh.sumM - d.nzh.alongE * 128 / d.nzh.sumE)

/-- The registration sample of a camera line, if it gives one (R245). -/
def Dev.registration (d : Dev) (l : CompLine) : Dev :=
  if !d.on F.NZ_CTRL_REG_EN ∨ l.cam ≠ d.rd F.NZ_REG_CFG_CAM then d
  else
    let lo := d.rd F.NZ_REG_RANGE_OWN_LO
    let hi := d.rd F.NZ_REG_RANGE_OWN_HI
    let rl := d.rd F.NZ_REG_RANGE_REF_LO
    let rh := d.rd F.NZ_REG_RANGE_REF_HI
    let m := l.at l.ms.toArray
    let e := l.at l.es.toArray
    let cmp := l.cmp.toArray
    let all := (List.range (hi + 1 - lo)).all fun i => l.is cmp (lo + i)
    if l.swatch ∨ l.suspect ∨ !all ∨ (sums e lo hi).1 < d.rd F.NZ_REG_TARGET_REG_MIN then d.regBreak
    else
      let ref := match d.rd F.NZ_REG_CFG_REF_MODE with
        | 1 => centroid m rl rh
        | 2 => edgeAt m (d.rd F.NZ_REG_CFG_EDGE_LEVEL) rl rh
        | _ => centroid e lo hi
      match centroid m lo hi, ref with
      | some co, some cr =>
        let err := co - cr - d.rdS F.NZ_REG_TARGET_TARGET
        if (d.rd F.NZ_REG_CFG_REG_MAX : Int) < err.natAbs then d.regBreak
        else (d.regUpdate err).regAlong l (sums m lo hi).1 (sums e lo hi).1
      | _, _ => d.regBreak

/-! ### A camera line -/

/-- The columns lo to hi of a compared line. -/
def CompLine.crop (l : CompLine) (lo hi : Nat) : CompLine :=
  let skip := lo - l.col0
  let cut := fun {α : Type} (xs : List α) => (xs.drop skip).take (hi + 1 - max lo l.col0)
  { l with col0 := max lo l.col0, ms := cut l.ms, es := cut l.es, valid := cut l.valid, cmp := cut l.cmp }

/-- Nozzle health takes the next compared line of camera c, within the span that the gauge's heads print (R230, R231, R234, R245). -/
def Dev.takeLine (d : Dev) (c : Nat) : Dev :=
  match d.nzh.inbox.find? fun l => decide (l.cam = c) with
  | none => d
  | some l =>
    let d := { d with nzh.inbox := d.nzh.inbox.erase l }
    if !d.funcOn .nzh then d
    else
      let l := l.crop d.printSpan.1 d.printSpan.2
      let cols := (List.range l.ms.length).map fun q => l.col0 + q
      let d := if l.ms.isEmpty ∨ (!l.swatch ∧ (l.suspect ∨ l.absent)) then d
        else
          let (ws, d) := d.readLines 8 l.col0 (l.col0 + l.ms.length - 1) l.m l.along
          if l.swatch then
            let size := ((List.range l.along).findSome? fun (i : Nat) => (d.swatchOf (l.m + (i : Int))).map Swatch.size).getD 0
            d.swatchReadings l ws cols (d.genReg l.gen R.INS_Cc_EXP_LUT (c * 8 + size / 4) / 2 ^ (8 * (size % 4)) % 256)
          else d.soleReadings l ws cols
      let d := d.registration l
      d.pastSwatches c fun w => decide (w.first + w.lines ≤ l.m)

/-! ### Health states (R233) -/

def Dev.healthState (d : Dev) (nz : Nat) : Nat := d.rd F.NZ_HEALTH_STATE nz

/-- Set a nozzle's state and the counts of NZ_STAT. -/
def Dev.setHealth (d : Dev) (nz st : Nat) : Dev :=
  let cnt := fun (d : Dev) (s : Nat) (k : Nat → Nat) =>
    let f := if s = 1 then F.NZ_STAT_SUSPECT else if s = 2 then F.NZ_STAT_DROPPED else F.NZ_STAT_HELD
    if s = 0 then d else d.wr f 0 (k (d.rd f))
  let d := cnt d (d.healthState nz) fun n => n - 1
  (cnt d st fun n => n + 1).wr F.NZ_HEALTH_STATE nz st

/-- Log entry 88 (DEDUCED). -/
def Dev.clearAcc (d : Dev) (nz : Nat) : Dev := { d with nzh.acc := mapSet d.nzh.acc nz {} {} }

def Verdict.kind : Verdict → Nat
  | .missing => 1 | .weak => 2 | .deflected => 3 | .healthy => 4

/-- The verdict of a nozzle's sums (R232): SUM_E, SUM_M, SUM_L, SUM_R. -/
def Dev.verdict (d : Dev) (a : Acc) : Verdict :=
  let div := a.m + a.l + a.r
  let diff := ((a.r : Int) - a.l).natAbs
  if a.m * 256 < d.rdO F.NZ_DETECT_MISS * a.e then .missing
  else if d.rdO F.NZ_DETECT_DEFLECT * div ≤ diff * 256 ∧ (div ≠ 0 ∨ d.rdO F.NZ_DETECT_DEFLECT = 0) then .deflected
  else if a.m * 256 < d.rdO F.NZ_DETECT_WEAK * a.e then .weak
  else .healthy

/-- d in 1/256, truncated. Log entry 89 (DESIGN CHOICE). -/
def Acc.defl (a : Acc) : Int := if a.m + a.l + a.r = 0 then 0 else Int.tdiv (((a.r : Int) - a.l) * 256) (a.m + a.l + a.r : Nat)

/-- h in 1/256, truncated: unspecified if SUM_E is 0. Log entry 89 (DESIGN CHOICE). -/
def Dev.hitOf (d : Dev) (a : Acc) : Nat × Dev := if a.e = 0 then d.free (2 ^ 16) else (a.m * 256 / a.e, d)

/-- The mode for a nozzle that enters DROPPED (R240). Log entry 64 (DEDUCED). -/
def Dev.chooseMode (d : Dev) (nz : Nat) (v : Verdict) : Nat :=
  let h := nz / 4096
  let r := nz / 2048 % 2
  let k := nz % 2048
  let n := d.nextLinePoint
  if v = .weak ∧ d.on F.NZ_CTRL_WEAK_ACT then 0
  else if d.on F.NZ_CTRL_PARTNER_EN ∧ (d.gauge.dual ∨ d.gauge.maxRate ≤ 120000) ∧ d.available h (1 - r) k n ∧
      d.entry (nozzleIdx h (1 - r) k) < 4 then 1
  else if d.on F.NZ_CTRL_NEIGHBOUR_EN ∧ ((0 < k ∧ d.available h r (k - 1) n) ∨ (k < 2047 ∧ d.available h r (k + 1) n)) then 2
  else 3

/-- Ask for an entry change under APPLY (R241): an earlier one whose point is not known is discarded, even where the entry would stay
as it is (R148). -/
def Dev.askChange (d : Dev) (ch : NzChange) : Dev :=
  let d := d.mapSwitches fun l => l.filter fun s => match s.what with | .subst a .. => !(decide (a = ch.nz) && s.point.isNone) | _ => true
  let d := { d with nzh.changes := d.nzh.changes.filter fun c => !(decide (c.nz = ch.nz) && c.point.isNone) }
  if 4 ≤ d.entry ch.nz ∨ (d.entry ch.nz = ch.entry ∧ d.nzh.changes.all fun c => decide (c.nz ≠ ch.nz)) then d
  else if d.on F.NZ_CTRL_APPLY then d.schedule (.subst ch.nz (d.entry ch.nz) ch.entry ch.source ch.kind ch.hit ch.defl) false
  else { d with nzh.changes := d.nzh.changes ++ [ch] }

/-- Choose a mode and ask for it: the mode. -/
def Dev.substitute (d : Dev) (nz : Nat) (v : Verdict) (hit : Nat) (defl : Int) : Nat × Dev :=
  let mode := d.chooseMode nz v
  (mode, d.askChange ⟨nz, mode, 0, v.kind, hit, defl, none⟩)

/-- RUN of a DROPPED nozzle as one kind counts it, windows or swatch verdicts: what the other kind has counted is no part of it (R233). Log entry 190 (DEDUCED). -/
def Dev.runOf (d : Dev) (nz : Nat) (window : Bool) : Nat :=
  if d.nzh.byWindow.contains nz = window then d.rd F.NZ_HEALTH_RUN nz else 0

/-- Log entry 190 (DEDUCED). -/
def Dev.setRun (d : Dev) (nz n : Nat) (window : Bool) : Dev :=
  let l := d.nzh.byWindow.filter fun x => decide (x ≠ nz)
  { d with nzh.byWindow := if window then nz :: l else l }.wr F.NZ_HEALTH_RUN nz (n % 16)

/-- Enter DROPPED (R233). Log entry 92 (DEDUCED). -/
def Dev.dropStitch (d : Dev) (nz : Nat) (v : Verdict) (hit : Nat) (defl : Int) : Dev :=
  let d := ((d.setHealth nz 2).wr F.NZ_HEALTH_KIND nz v.kind).setRun nz 0 false
  let (mode, d) := d.substitute nz v hit defl
  d.raise .secure 0x0F01 [(3, nz), (1, v.kind), (1, mode)]

/-- NZH arms a swatch (R235). -/
def Dev.nzhArm (d : Dev) : Dev :=
  if d.las.armBeat.isSome then d
  else { d with las.armBeat := some d.tmb.beats, las.armNzh := true }.wrB F.LA_SWATCH_ARM 0 true

/-- Show h and d of a nozzle's last verdict. -/
def Dev.showVerdict (d : Dev) (nz hit : Nat) (defl : Int) : Dev :=
  (d.wr F.NZ_HEALTH_HIT nz (min hit 255)).wrS F.NZ_HEALTH_DEFL nz (min 127 (Int.tdiv defl 2))

/-- A window verdict. RUN of a DROPPED nozzle with entry NONE counts its consecutive non-HEALTHY windows (log entry 45). Log entry 92 (DEDUCED). Log entry 190 (DEDUCED). -/
def Dev.windowVerdict (d : Dev) (nz : Nat) (v : Verdict) (hit : Nat) (defl : Int) : Dev :=
  let run := d.rd F.NZ_HEALTH_RUN nz
  let confirm := d.rdO F.NZ_DETECT_CONFIRM
  match d.healthState nz with
  | 0 | 1 =>
    if v ≠ .healthy then
      if run + 1 = confirm then d.dropStitch nz v hit defl
      else
        let new := decide (d.healthState nz = 0)
        let d := (d.setHealth nz 1).wr F.NZ_HEALTH_RUN nz ((run + 1) % 16)
        if new && d.on F.NZ_CTRL_AUTO_SWATCH then d.nzhArm else d
    else if d.healthState nz = 1 then (d.setHealth nz 0).wr F.NZ_HEALTH_RUN nz 0
    else d
  | 2 =>
    if d.entry nz % 4 ≠ 0 then d
    else if v = .healthy then (if d.nzh.byWindow.contains nz then d.setRun nz 0 true else d)
    else if (v = .missing ∨ v = .deflected) ∧ d.runOf nz true + 1 = confirm then
      ((d.setRun nz (d.runOf nz true + 1) true).wr F.NZ_HEALTH_KIND nz v.kind |>.substitute nz v hit defl).2
    else d.setRun nz (d.runOf nz true + 1) true
  | _ => d

/-- A swatch verdict: whether the nozzle newly entered DROPPED. Log entry 190 (DEDUCED). -/
def Dev.swatchVerdictOf (d : Dev) (nz : Nat) (v : Verdict) (hit : Nat) (defl : Int) : Bool × Dev :=
  let run := d.runOf nz false
  match d.healthState nz with
  | 0 | 1 => if v ≠ .healthy then (true, d.dropStitch nz v hit defl) else (false, d)
  | 2 =>
    if v ≠ .healthy then (false, d.setRun nz 0 false)
    else if run + 1 = d.rdO F.NZ_DETECT_REINSTATE then
      let d := (d.setHealth nz 0).setRun nz 0 false
      let d := d.askChange ⟨nz, 0, 3, 4, hit, defl, none⟩
      (false, d.raise .secure 0x0F02 [(3, nz)])
    else (false, d.setRun nz (run + 1) false)
  | _ => (false, d)

/-- The health window of a nozzle closes (R232). -/
def Dev.windowClose (d : Dev) (nz : Nat) : Dev :=
  let a := mapGet d.nzh.acc nz {}
  if !d.funcOn .nzh ∨ a.n < d.rdO F.NZ_DETECT_WIN_READINGS then d
  else
    let v := d.verdict a
    let (hit, d) := (d.clearAcc nz).hitOf a
    (d.showVerdict nz hit a.defl).windowVerdict nz v hit a.defl

/-- Every camera that is ON is past the oldest swatch not read: its verdicts (R234). -/
def Dev.swatchVerdict (d : Dev) : Dev :=
  match d.las.swatches.find? fun w => !w.read with
  | none => d
  | some w =>
    let past := mapGet d.nzh.beyond w.uid 0
    if !d.funcOn .nzh ∨ d.camsOn.any fun c => !past.testBit c then d
    else
      let tested := d.nzh.sw
      let d := { d with
        nzh.sw := [], nzh.beyond := mapSet d.nzh.beyond w.uid 0 0
        las.swatches := d.las.swatches.map fun x => if x = w then { x with read := true } else x }
      let (new, d) := tested.foldl (fun (acc : Nat × Dev) p =>
        let v := acc.2.verdict p.2
        let (hit, d) := acc.2.hitOf p.2
        let (b, d) := (d.showVerdict p.1 hit p.2.defl).swatchVerdictOf p.1 v hit p.2.defl
        (if b then acc.1 + 1 else acc.1, d)) (0, d)
      let un := d.headCount * 4096 - tested.length
      (d.count F.NZ_COUNT_UNTESTED 0 un).raise .secure 0x0F04 [(6, ofSigned 48 w.first), (3, tested.length), (3, new), (3, un)]

/-- Every SWATCH_PAGES accepted cues NZH arms a swatch (R235). -/
def Dev.swatchPages (d : Dev) : Dev :=
  let n := d.rd F.NZ_CTRL_SWATCH_PAGES
  if !d.funcOn .nzh ∨ n = 0 ∨ d.web.cues < d.nzh.cues + n then d else { d with nzh.cues := d.web.cues }.nzhArm

/-! ### Entry changes (R241 to R244) -/

/-- The quarantine of a change with start line q: accumulators within one column are cleared. Log entry 88 (DEDUCED). -/
def Dev.quarantine (d : Dev) (nz : Nat) (q : Int) : Dev :=
  let c := d.nzCol nz
  { d with
    nzh.acc := d.nzh.acc.filter fun p => decide (d.nzCol p.1 + 1 < c ∨ c + 1 < d.nzCol p.1)
    nzh.quar := (c - 1, c + 1, q) :: d.nzh.quar }

/-- The 32 bytes of an audit record (R244). -/
def Dev.auditRecord (d : Dev) (nz old new source kind : Nat) (q : Int) (hit : Nat) (defl : Int) : List Byte :=
  let body := pack [(8, d.beat), (4, nz), (1, old), (1, new), (1, source), (1, kind), (8, ofSigned 64 q), (2, hit),
    (2, ofSigned 16 defl)]
  body ++ leBytes 4 (crc32 body)

/-- Where the entry of the audit ring that is k after HEAD lies (R244). -/
def Dev.auditSlot (d : Dev) (k : Nat) : Nat :=
  let head := d.rd F.NZ_AUDIT_HEAD
  d.rd F.NZ_AUDIT_BASE * 4096 + (if k = 0 then head else (head + k) % 2 ^ d.rd F.NZ_AUDIT_LOG_ENTRIES) * 32

/-- The record of an applied change, and its place among the changes of the beat (R244). Log entry 91 (DEDUCED). -/
def Dev.audit (d : Dev) (nz old new source kind : Nat) (q : Int) (hit : Nat) (defl : Int) : Dev :=
  let idx := d.rd F.NZ_AUDIT_HEAD
  let (_, d) := d.dramWrite 9 (d.masterSecure 9) none (d.auditSlot 0) (d.auditRecord nz old new source kind q hit defl)
  let (n, first, i) := d.nzh.changed
  let d := { d with nzh.changed := if n = 0 then (1, nz, idx) else (n + 1, first, i) }
  d.wr F.NZ_AUDIT_HEAD 0 ((idx + 1) % 2 ^ d.rd F.NZ_AUDIT_LOG_ENTRIES)

/-- Apply one NZH change: the entry, its quarantine and its record; an entry with LOCK is never changed (R240). Log entry 91 (DEDUCED). -/
def Dev.applyChange (d : Dev) (ch : NzChange) : Dev :=
  let old := d.entry ch.nz
  let q := (ch.point).getD d.nextLinePoint
  if 4 ≤ old ∨ old = ch.entry then d
  else (((d.setEntry ch.nz ch.entry).quarantine ch.nz q).audit ch.nz old ch.entry ch.source ch.kind q ch.hit ch.defl)

/-- SUBST_CHANGED, once per beat in which a change applied. Log entry 91 (DEDUCED). -/
def Dev.postChanged (d : Dev) : Dev :=
  let (n, first, idx) := d.nzh.changed
  if n = 0 then d else { d with nzh.changed := (0, 0, 0) }.raise .secure 0x0F03 [(4, n), (3, first), (2, idx)]

/-- The closing boundary: every change that NZH asked for in the beat is written and audited (R241, R244). -/
def Dev.substApply (d : Dev) : Dev :=
  let cs := if d.substFed then d.nzh.changes else []
  (cs.foldl (fun (d : Dev) ch => d.applyChange ch) { d with nzh.changes := [] }).postChanged

/-- A cue gave points to NEXT_PAGE changes: each is to be applied at the closing boundary, with its point as Q. Log entry 65 (DEDUCED). -/
def Dev.cueChanges (d : Dev) (subs : List Switch) (start : Int) : Dev :=
  { d with nzh.changes := d.nzh.changes ++ subs.filterMap fun s => match s.what with
      | .subst nz _ entry source kind hit defl => some ⟨nz, entry, source, kind, hit, defl, some start⟩
      | _ => none }

/-- NZH changes of an entry that a host change discards: those with a switch point, which lies above the host change's own (R148, R241), and
one for the next beat if the host write falls in its cycle, that of the closing boundary (R242). No command tells whether it does:
a free choice. Log entry 91 (DEDUCED). -/
def Dev.hostWins (d : Dev) (nz : Nat) : Dev :=
  let l := d.nzh.changes.filter fun c => !(decide (c.nz = nz) && c.point.isSome)
  if l.any fun c => decide (c.nz = nz) then
    let (same, d) := d.free 2
    { d with nzh.changes := if same = 1 then l.filter fun c => decide (c.nz ≠ nz) else l }
  else { d with nzh.changes := l }

/-- What a host change of one entry does: a NEXT_PAGE change of it is discarded, and R233's first rows apply. A change that NZH has asked
for in the beat is still written at the closing boundary, if that is a later cycle (R241, R242), unless LOCK forbids it. Log entry 91 (DEDUCED). -/
def Dev.hostEntry (d : Dev) (m : Master) (nz v : Nat) : Dev :=
  let old := d.entry nz
  if old = v then d
  else
    let d := (d.hostWins nz).mapSwitches fun l => l.filter fun s => match s.what with | .subst a .. => decide (a ≠ nz) | _ => true
    let d := (d.setEntry nz v).clearAcc nz
    let d := if 4 ≤ v then d.setHealth nz 3 else (d.setHealth nz 0).setRun nz 0 false
    let q := d.nextLinePoint
    (d.quarantine nz q).audit nz old v (match m with | .p0 => 1 | .p1 => 2 | .internal => 0) 0 q 0 0

/-- A write to a word of LA_SUBST changes only the entries that it alters (R241, R242). -/
def Dev.wSubst (d : Dev) (m : Master) (i val mask : Nat) : Dev :=
  (List.range 8).foldl (fun d j =>
    if fieldOf (4 * j) 4 mask = 0 then d else d.hostEntry m (8 * i + j) (fieldOf (4 * j) 3 val)) d

/-- NZH stops: the lines that wait for it go, and so do the quarantines so far; those of entries that a host changes from now on stand when it
starts again (R72, R243). Log entry 181 (DEDUCED). -/
def Dev.nzhStops (d : Dev) : Dev := { d with nzh.inbox := [], nzh.quar := [] }

/-- NZH starts fresh (R72): no reading, registration or change asked for stands; the map and the health states with RUN, and which verdicts it
counts, are registers that the chapter keeps. Log entry 181 (DEDUCED). -/
def Dev.nzhStarts (d : Dev) : Dev :=
  { d with nzh := { cues := d.web.cues, changed := d.nzh.changed, quar := d.nzh.quar, byWindow := d.nzh.byWindow } }.wrS F.NZ_REG_STAT_T 0 0

/-! ### The commands -/

def execNzhCamLine (c : Fin 8) (s : State) : Host.Outcome State Fault Refusal :=
  s.act fun d =>
    if d.wedged (.cam c) then { d with nzh.inbox := d.nzh.inbox.filter fun l => decide (l.cam ≠ c.val) } else d.takeLine c

def execHealthWindowClose (nz : Fin 131072) (s : State) : Host.Outcome State Fault Refusal := s.actInOrder fun d => d.windowClose nz

def execSwatchVerdict (s : State) : Host.Outcome State Fault Refusal := s.actInOrder Dev.swatchVerdict

def execNzhSwatchPages (s : State) : Host.Outcome State Fault Refusal := s.act Dev.swatchPages

def execSubstApply (s : State) : Host.Outcome State Fault Refusal := s.act Dev.substApply

/-- The words of LA_SUBST that an access covers. -/
def Dev.wSubstAt (d : Dev) (m : Master) (off bytes val : Nat) : Dev :=
  let i := (off - R.LA_SUBST.base) / 4
  let d := d.wSubst m i (val % 2 ^ 32) mask32
  if bytes = 8 then d.wSubst m (i + 1) (val / 2 ^ 32) mask32 else d

def execSubstHostWrite (m : Master) (addr bytes val : Nat) (s : State) : Host.Outcome State Fault Refusal :=
  s.act fun d =>
    let off := addr - regSpace
    if addr < regSpace + R.LA_SUBST.base ∨ regSpace + R.LA_SUBST.base + 0x10000 < addr + bytes ∨ ¬ (bytes = 4 ∨ bytes = 8) ∨
        addr % bytes ≠ 0 then d
    else d.writeTo m R.LA_SUBST ((off - R.LA_SUBST.base) / 4) fun d => d.wSubstAt m off bytes val

end Sys2Proof.Machine
end

