-- ==== Sys2Proof/Machine/Front.lean ====
section
/-!
DEFINITION. Chapter 15: the channel arbiters, beat slots, slot tables and yielded guarantees; with the per-beat budget of R53.
-/

namespace Sys2Proof.Machine

/-! ### Requesters (R267) -/

/-- Guarantee rank of a requester where it owns a slot: 2 line deadline, 3 inspection, 4 a reservation (R267, R276). -/
def ownRank (r : Nat) : Nat := if r ≤ 3 then 2 else if r = 5 ∨ r = 6 ∨ r = 8 then 3 else 4

/-- Class of a requester (R268). -/
def Dev.classOf (d : Dev) (r : Nat) : Nat := d.rd F.MF_CLASS_CLASS / 4 ^ r % 4

/-! ### The budget (R53, R67) -/

/-- Slot credit in bytes at a speed code. -/
def creditOf (speed : Nat) : Nat := [1280, 1920, 2240, 2560].getD speed 2560

/-- The enabled cameras of an INSPECT section. -/
def InspectSec.enabled (s : InspectSec) : List CamSec := (s.cams.zipIdx).filterMap fun p => if s.camMask.testBit p.2 then some p.1 else none

/-- P of R53. -/
def InspectSec.pixels (s : InspectSec) : Nat := s.enabled.foldl (fun n c => n + c.pixels) 0

/-- Slots per channel. -/
def slotsNeeded (heads pixels credit : Nat) : Nat := ((49152 + 98 * heads * 16 + 6 * pixels + 1) / 2 + credit - 1) / credit

/-- The heads' span. -/
def Gauge.span (g : Gauge) : Nat × Nat :=
  g.heads.foldl (fun r h => (min r.1 h.firstCol, max r.2 (h.firstCol + 2047))) (0xFFFFF, 0)

/-- Length of the union of half-open intervals, clipped to [lo, hi). -/
def covered (lo hi : Nat) (ivs : List (Nat × Nat)) : Nat :=
  let sorted := ivs.mergeSort fun a b => decide (a.1 ≤ b.1)
  (sorted.foldl (fun (acc : Nat × Nat) iv =>
    let a := max acc.2 iv.1
    let b := min hi iv.2
    (acc.1 + (b - a), max acc.2 b)) (0, lo)).1

/-- W of R53. -/
def budgetCols (g : Gauge) (s : InspectSec) : Nat :=
  covered g.span.1 (g.span.2 + 1) (s.enabled.map fun c => (c.firstCol, c.firstCol + 4 * c.pixels))

/-- A charged figure is at most 3,840 and at most its BUDGET figure. -/
def withinBudget (fig limit : Nat) : Bool := decide (fig ≤ 3840) && decide (fig ≤ limit)

/-- The cycle figures of R53 against a BUDGET section. -/
def cyclesOk (g : Gauge) (s : InspectSec) (b : Budget) : Bool :=
  let h := g.heads.length
  withinBudget (320 + (2 * h * 2048 + 63) / 64) b.pe && (withinBudget (128 + (2 * h * 2048 * 2 + 511) / 512) b.las &&
    ((s.enabled.isEmpty || withinBudget (256 + (s.pixels + 15) / 16) b.ins) &&
      (s.enabled.isEmpty || !s.nzh || withinBudget (192 + (budgetCols g s + 31) / 32) b.nzh)))

/-- Real-time slots of a table: those owned by a requester of rank 2 or 3 that is in class 0. -/
def realTimeSlots (cls : Nat) (table : List Nat) : Nat :=
  (table.filter fun r => decide (r < 20 ∧ ownRank r ≤ 3 ∧ cls / 4 ^ r % 4 = 0)).length

/-- Both tables reserve enough slots, at a credit. -/
def slotsOk (cls heads pixels credit needed : Nat) (t0 t1 : List Nat) : Bool :=
  [t0, t1].all fun t => decide (needed ≤ realTimeSlots cls t) && decide (slotsNeeded heads pixels credit ≤ realTimeSlots cls t)

/-- A slot table register bank of a channel, as its 64 entries. Log entry 103 (DEDUCED). -/
def Dev.slotTable (d : Dev) (r : Reg) (ch : Nat) : List Nat :=
  (List.range 64).map fun s => d.reg r (ch * 16 + s / 4) / 2 ^ (8 * (s % 4)) % 32

/-- The slot check of R67 on the active tables at a speed code. -/
def Dev.slotCheck (d : Dev) (speed : Nat) : Bool :=
  slotsOk (d.rd F.MF_CLASS_CLASS) d.headCount d.inspect.pixels (creditOf speed) d.pat.loaded.budget.slots
    (d.slotTable R.MF_SLOT_ACTIVE 0) (d.slotTable R.MF_SLOT_ACTIVE 1)

/-! ### Refresh, as the arbiters see it (R263, R265) -/

def Dev.owed (d : Dev) (ch rank : Nat) : Nat := if rank = 0 then d.rd F.DM_REFRESH_P0 ch else d.rd F.DM_REFRESH_P1 ch

def Dev.setOwed (d : Dev) (ch rank n : Nat) : Dev :=
  if rank = 0 then d.wr F.DM_REFRESH_P0 ch n else d.wr F.DM_REFRESH_P1 ch n

/-- One all-bank REF: a refresh owed less, every row of the rank closed. -/
def Dev.refresh (d : Dev) (ch rank : Nat) : Dev :=
  let k := (ch * 2 + rank) * 32
  { d.setOwed ch rank (d.owed ch rank - 1) with
    drm.banks := d.drm.banks.map fun p => if k ≤ p.1 ∧ p.1 < k + 32 then (p.1, { p.2 with isOpen := false }) else p }

/-- The rank has a granted or a waiting request (R263). Log entry 18 (DEDUCED). -/
def Arb.busy (a : Arb) (rank : Nat) : Bool :=
  (match a.holder with | some w => decide (w.rank = rank) | none => false) || a.waiting.any fun w => decide (w.rank = rank)

/-- Rule 2 of R263: the refreshes owed by a rank without a granted or waiting request are issued at once. Log entry 18 (DEDUCED). -/
def Dev.refreshIdle (d : Dev) (ch : Nat) : Dev :=
  if d.rd F.DM_STAT_STATE ch ≠ 1 then d
  else (List.range 2).foldl (fun d rank => if d.owed ch rank = 0 ∨ (d.arb ch).busy rank then d else d.refresh ch rank) d

/-! ### Decisions (R269, R270) -/

/-- Requesters 17 and 18 reach only their own channel (R267). -/
def reaches (ch r : Nat) : Bool := !decide (r = 18 - ch)

/-- Insert a waiter after those that have waited as long or longer. -/
def insWaiter (w : Waiter) : List Waiter → List Waiter
  | [] => [w]
  | x :: xs => if w.since < x.since then w :: x :: xs else x :: insWaiter w xs

/-- The requests raised on a channel: who no longer asks leaves the queues, who newly asks joins the tail of the queue of its class, in
the order in which the requests were raised; the holder does not wait. Log entry 100 (DEDUCED). -/
def Dev.joinQueue (d : Dev) (ch : Nat) (reqs : List MemReq) : Arb :=
  let a := d.arb ch
  let stay := a.waiting.filter fun w => reqs.any fun q => decide (q.r.val = w.r)
  let known := fun (q : MemReq) => (stay.any fun w => decide (w.r = q.r.val)) || (match a.holder with | some h => decide (h.r = q.r.val) | none => false)
  let new := (reqs.filter fun q => reaches ch q.r && !known q).map fun q => (⟨q.r, (d.elapsed : Int) - q.age, q.rank, q.bank, d.classOf q.r⟩ : Waiter)
  let new := new.foldl (fun l w => if l.any fun x => decide (x.r = w.r) then l else insWaiter w l) []
  { a with waiting := stay ++ new }

/-- The oldest waiter: the earliest, the lowest number on equal age (R269). Log entry 100 (DEDUCED). -/
def oldestOf : List Waiter → Option Waiter
  | [] => none
  | w :: ws => some (ws.foldl (fun b x => if x.since < b.since ∨ (x.since = b.since ∧ x.r < b.r) then x else b) w)

/-- The head of the lowest-numbered class queue that is not empty. -/
def headOf (ws : List Waiter) : Option Waiter := (List.range 4).findSome? fun c => ws.find? fun w => decide (w.cls = c)

/-- An arbiter's decision at a granule boundary free of grants and of slot service (R269). Log entry 100 (DEDUCED). -/
def Dev.arbiterGrant (d : Dev) (ch : Nat) (reqs : List MemReq) : Dev :=
  let d := d.setArb ch fun _ => d.joinQueue ch reqs
  let a := d.arb ch
  if d.frontHeld ∨ a.holder.isSome ∨ a.service.isSome ∨ a.waiting.isEmpty then d.refreshIdle ch
  else
    let grants := a.grants + 1
    let starve := decide (d.rd F.MF_ARB_CFG_STARVE_N = grants)
    match (if starve then oldestOf a.waiting else headOf a.waiting) with
    | none => d
    | some w =>
      let d := d.setArb ch fun a => { a with
        grants := if starve then 0 else grants
        holder := some w, since := d.elapsed, holdMax := d.rd F.MF_ARB_CFG_HOLD_MAX
        waiting := a.waiting.filter fun x => decide (x.r ≠ w.r) }
      (if starve then d.count F.MF_COUNT_STARVE ch 1 else d).refreshIdle ch

/-- A holder that has had its grant for HOLD_MAX is cut off and rejoins the tail of its queue with age 0, its request still raised
(R270, R271). Log entry 100 (DEDUCED). -/
def Dev.holdCut (d : Dev) (ch : Nat) : Dev :=
  match (d.arb ch).holder with
  | none => d
  | some w =>
    let d := d.setArb ch fun a => { a with holder := none, waiting := a.waiting ++ [{ w with since := d.elapsed }] }
    (d.count F.MF_COUNT_HOLD_CUTS ch 1).raiseOnce .secure 0x0402 ch [(1, w.r), (1, ch)]

/-- A requester drops its request: its grant, its wait and its slot service end; a displaced owner that waits takes the rest of the
slot (R270, R273). -/
def Dev.withdraw (d : Dev) (ch r : Nat) : Dev :=
  (d.setArb ch fun a =>
    let waiting := a.waiting.filter fun w => decide (w.r ≠ r)
    { a with
      waiting := waiting
      holder := a.holder.filter fun w => decide (w.r ≠ r)
      service := if a.service = some r then
          (if a.slot ≠ r ∧ waiting.any (fun w => decide (w.r = a.slot)) then some a.slot else none) else a.service }).refreshIdle ch

/-! ### Slots (R273, R277) -/

/-- A yield of the slot in progress; the first cause of each requester in the beat stays. -/
def Arb.yield (a : Arb) (r cause : Nat) : Arb := if a.yields.any fun y => decide (y.1 = r) then a else { a with yields := a.yields ++ [(r, cause)] }

/-- Refresh or retraining falls within the slot in progress: cause 3 where a requester of rank 3 or 4 owns it. -/
def Dev.refreshYield (d : Dev) (ch : Nat) : Dev :=
  d.setArb ch fun a => if a.slot < 20 ∧ 3 ≤ ownRank a.slot then a.yield a.slot 3 else a

/-- Service of a slot that requester r owns: the urgent waiter of better rank, best rank first and lowest number, else r. Log entry 101 (DEDUCED). -/
def serviceOf (a : Arb) (r urgent : Nat) : Option Nat :=
  let waits := fun x => a.waiting.any fun w => decide (w.r = x)
  let better := (List.range 20).filter fun x => urgent.testBit x && (waits x && decide (ownRank x < ownRank r))
  match better.find? fun x => decide (ownRank x = 2) with
  | some x => some x
  | none => match better with
    | x :: _ => some x
    | [] => if waits r then some r else none

/-! ### Retraining pauses (R261) -/

/-- Index of a lane's registers. -/
def laneIdx (ch rank lane : Nat) : Nat := rankIdx ch rank * 11 + lane

def Dev.lane (d : Dev) (key : Nat) : LaneSt := mapGet d.drm.lanes key {}

def Dev.setLane (d : Dev) (key : Nat) (f : LaneSt → LaneSt) : Dev :=
  { d with drm.lanes := mapSet d.drm.lanes key (f (d.lane key)) {} }

def Dev.marked (d : Dev) (ch rank lane : Nat) : Bool :=
  decide (d.rd F.DM_SPARE_MARK1 (rankIdx ch rank) = lane ∨ d.rd F.DM_SPARE_MARK2 (rankIdx ch rank) = lane)

/-- The lane takes part in retraining (R262): lane 10 unless the spare is UNUSABLE. -/
def Dev.retrains (d : Dev) (ch rank lane : Nat) : Bool :=
  decide (rank < d.ranks) && (if lane = 10 then decide (d.rd F.DM_SPARE_SPARE (rankIdx ch rank) ≠ 3) else !d.marked ch rank lane)

/-- INTERVAL of a lane in ns, a quarter of it while the lane is suspect (R262). -/
def Dev.laneInterval (d : Dev) (ch : Nat) (l : LaneSt) : Nat := d.rd F.DM_RETRAIN_INTERVAL ch * 1000000 / (if l.quick then 4 else 1)

/-- When a lane's next pass is due, in ns of time passed: INTERVAL, or a quarter of it, after its last pass began (R261, R262). Log entry 180 (DEDUCED). -/
def Dev.laneDue (d : Dev) (ch : Nat) (l : LaneSt) : Nat :=
  match l.began with
  | some t => t + d.laneInterval ch l
  | none => 0

/-- The lane (rank * 11 + lane) whose pause comes next: the one whose pass is under way, else the next in turn whose pass is due.
Log entry 180 (DEDUCED). -/
def Dev.nextLane (d : Dev) (ch : Nat) : Option Nat :=
  let a := d.arb ch
  let ks := ((List.range 22).map fun i => (a.turn + i) % 22).filter fun k => d.retrains ch (k / 11) (k % 11)
  match ks.find? fun k => !(d.lane (laneIdx ch (k / 11) (k % 11))).pass.isEmpty with
  | some k => some k
  | none => ks.find? fun k => decide (d.laneDue ch (d.lane (laneIdx ch (k / 11) (k % 11))) ≤ d.elapsed)

/-- A pause may run in this beat: at most one per beat, and one per 4 beats while a rank is HOT. Log entry 180 (DEDUCED). -/
def Dev.pauseFree (d : Dev) (ch : Nat) : Bool :=
  match (d.arb ch).pausedIn with
  | none => true
  | some b => decide (b + (if d.on F.DM_STAT_HOT0 ch || d.on F.DM_STAT_HOT1 ch then 4 else 1) ≤ d.beat)

/-- A pass has waited 1 ms for a slot: one under way since its last pause, one that is to begin since it was due. Log entry 180 (DEDUCED). -/
def Dev.pauseOverdue (d : Dev) (ch : Nat) : Bool :=
  !d.frontHeld && (d.pauseFree ch && (match d.nextLane ch with
    | none => false
    | some k =>
      let l := d.lane (laneIdx ch (k / 11) (k % 11))
      decide (max (d.arb ch).pausedAt (if l.pass.isEmpty then d.laneDue ch l else 0) + 1000000 ≤ d.elapsed)))

/-! ### Slots that open (R273, R277) -/

/-- A refresh slot opens: REFs for every rank that owes one, unless an overdue pause takes the slot (R261, R263). -/
def Dev.refreshSlot (d : Dev) (ch : Nat) : Dev :=
  if d.pauseOverdue ch then d.setArb ch fun a => { a with quiet := true }
  else
    let d := d.setArb ch fun a => { a with quiet := decide (d.owed ch 0 = 0 ∧ d.owed ch 1 = 0) }
    (List.range 2).foldl (fun d rank => if d.owed ch rank = 0 then d else d.refresh ch rank) d

/-- A slot opens (R273): the service that ran ends, and the active entry decides. A slot that would open after the beat's end does
not occur, and one that a pause runs into yields with cause 3 (R277). Log entry 180 (DEDUCED). -/
def Dev.slotOpen (d : Dev) (ch slot : Nat) (reqs : List MemReq) (stream : Bool) : Dev :=
  let t := d.tmb.openT + 125 * slot / 2
  if d.boundary ≤ t then d
  else
    let d := { d with drm.stream := stream }
    let e := at' (d.slotTable R.MF_SLOT_ACTIVE ch) slot
    let d := d.setArb ch fun _ => { d.joinQueue ch reqs with slot := e, slotT := t, service := none, quiet := false }
    if e = 0x1E then d.refreshSlot ch
    else if 20 ≤ e then d.refreshIdle ch
    else
      let urgent := d.urgency
      let d := if t < (d.arb ch).pauseEnd then d.refreshYield ch else d
      if d.frontHeld then d.refreshIdle ch
      else (d.setArb ch fun a =>
        let sv := serviceOf a e urgent
        let a := if a.waiting.any fun w => decide (w.r = e) then { a with owned := mapSet a.owned e (mapGet a.owned e 0 + 1) 0 } else a
        let a := match sv with
          | some x => if x ≠ e ∧ 3 ≤ ownRank e then a.yield e (if ownRank x = 2 then 1 else 2) else a
          | none => a
        { a with service := sv }).refreshIdle ch

/-- Who hears of a yield of requester r (R278). Log entry 101 (DEDUCED). -/
def Dev.yieldDest (d : Dev) (r : Nat) : Dest :=
  if r = 10 ∨ r = 12 then .secureAnd (some 0) else if r = 11 ∨ r = 13 then .secureAnd (some 1)
  else if r = 14 ∨ r = 15 then .secureAnd (at' d.hst.uploads (r - 14)).host
  else .secure

/-- One channel's yields at the closing boundary (R276, R278). -/
def Dev.postYields (d : Dev) (ch : Nat) : Dev :=
  let a := d.arb ch
  let d := a.yields.foldl (fun (d : Dev) y =>
    let g := creditOf (d.rd F.DM_STAT_SPEED ch) * mapGet a.owned y.1 0
    let d := d.raise (d.yieldDest y.1) 0x0401 [(1, ownRank y.1), (1, y.1), (1, ch), (1, y.2), (4, g - mapGet a.moved y.1 0)]
    d.count F.MF_COUNT_YIELDS ch 1) d
  d.setArb ch fun a => { a with yields := [], owned := [], moved := [] }

/-- The closing boundary of the memory front. -/
def Dev.frontBoundary (d : Dev) : Dev := (d.postYields 0).postYields 1

/-! ### Classes and slot tables (R268, R271, R274, R275) -/

/-- A write to MF_CLASS: hosts' requesters stay out of class 0, and a waiter whose class the write changes joins the tail of its new queue
(R268, R271). -/
def Dev.wMfClass (d : Dev) (val mask : Nat) : Dev :=
  let old := d.classOf
  let d := d.store R.MF_CLASS 0 val mask
  let d := [10, 11, 12, 13, 14, 15].foldl (fun d r =>
    if d.classOf r = 0 then d.wr F.MF_CLASS_CLASS 0 (fieldSet (2 * r) 2 (d.rd F.MF_CLASS_CLASS) 1) else d) d
  [0, 1].foldl (fun (d : Dev) ch => d.setArb ch fun a =>
    let (moved, same) := a.waiting.partition fun w => decide (old w.r ≠ d.classOf w.r)
    { a with waiting := same ++ moved.map fun w => { w with cls := d.classOf w.r } }) d

/-- A write to the active copy of a slot table is refused (R274). -/
def Dev.wSlotActive (d : Dev) (m : Master) (word : Nat) : Dev :=
  (d.wr F.MF_SLOT_CTRL_ACTIVE_WRITE 0 1).refuse m true .unmapped (R.MF_SLOT_ACTIVE.addr word)

/-- A refused swap. Log entry 102 (DEDUCED). -/
def Dev.swapRefused (d : Dev) (result : Nat) : Dev :=
  (({ d with drm.swapAt := none }.wrB F.MF_SLOT_CTRL_ARM 0 false).wr F.MF_SLOT_CTRL_RESULT 0 result).raise .secure 0x0404 [(1, result)]

/-- A write to MF_SLOT_CTRL: ARM schedules a swap, or is refused as PAST. Log entry 102 (DEDUCED). -/
def Dev.wMfSlotCtrl (d : Dev) (val mask : Nat) : Dev :=
  let was := d.on F.MF_SLOT_CTRL_ARM
  let d := d.store R.MF_SLOT_CTRL 0 val mask
  if was || !d.on F.MF_SLOT_CTRL_ARM then d
  else if d.rd F.MF_SLOT_BEAT_SWAP_BEAT ≤ d.beat then d.swapRefused 1
  else { d with drm.swapAt := some (d.rd F.MF_SLOT_BEAT_SWAP_BEAT) }

/-- Entries of a table are owners, refresh or unassigned. -/
def ownersOk (t : List Nat) : Bool := t.all fun e => decide (e < 20 ∨ e = 0x1E ∨ e = 0x1F)

def refreshSlots (t : List Nat) : Nat := (t.filter fun e => decide (e = 0x1E)).length

/-- The tests of R275 on two tables at a speed code: 0, or the RESULT of the first that fails. Log entry 103 (DEDUCED). -/
def Dev.tableFault (d : Dev) (speed : Nat) (t0 t1 : List Nat) : Nat :=
  if !slotsOk (d.rd F.MF_CLASS_CLASS) d.headCount d.inspect.pixels (creditOf speed) d.pat.loaded.budget.slots t0 t1 then 2
  else if refreshSlots t0 < 2 ∨ refreshSlots t1 < 2 then 3
  else if !(ownersOk t0 && ownersOk t1) then 4 else 0

/-- The swap boundary: the shadows are tested and swapped, or refused (R275). Log entry 102 (DEDUCED). -/
def Dev.slotSwap (d : Dev) : Dev :=
  match d.drm.swapAt with
  | none => d
  | some b =>
    if d.beat < b then d
    else
      let f := d.tableFault (d.rd F.DM_STAT_SPEED) (d.slotTable R.MF_SLOT_SHADOW 0) (d.slotTable R.MF_SLOT_SHADOW 1)
      if f ≠ 0 then d.swapRefused f
      else
        let d := (List.range 32).foldl (fun d i => d.setReg R.MF_SLOT_ACTIVE i (d.reg R.MF_SLOT_SHADOW i)) d
        (({ d with drm.swapAt := none }.wrB F.MF_SLOT_CTRL_ARM 0 false).wr F.MF_SLOT_CTRL_RESULT 0 0).raise .secure 0x0403 []

/-! ### The commands -/

def execArbiterGrant (ch : Fin 2) (reqs : List MemReq) (s : State) : Host.Outcome State Fault Refusal :=
  s.act fun d => d.arbiterGrant ch reqs

def execHoldCut (ch : Fin 2) (s : State) : Host.Outcome State Fault Refusal := s.act fun d => d.holdCut ch

def execRequestWithdraw (ch : Fin 2) (r : Fin 20) (s : State) : Host.Outcome State Fault Refusal := s.act fun d => d.withdraw ch r

def execSlotOpen (ch : Fin 2) (slot : Fin 64) (reqs : List MemReq) (stream : Bool) (s : State) :
    Host.Outcome State Fault Refusal := s.act fun d => d.slotOpen ch slot reqs stream

def execMfClassWrite (m : Master) (bytes val : Nat) (s : State) : Host.Outcome State Fault Refusal :=
  s.act fun d => d.writeTo m R.MF_CLASS 0 fun d => d.wMfClass val (if bytes = 8 then mask64 else mask32)

def execSlotActiveWrite (m : Master) (word : Fin 32) (_val : Nat) (s : State) : Host.Outcome State Fault Refusal :=
  s.act fun d => if d.hears m then (d.touch m).wSlotActive m word else d

def execSlotArm (m : Master) (val : Nat) (s : State) : Host.Outcome State Fault Refusal :=
  s.act fun d => d.writeTo m R.MF_SLOT_CTRL 0 fun d => d.wMfSlotCtrl val mask32

def execSlotSwap (s : State) : Host.Outcome State Fault Refusal := s.actInOrder Dev.slotSwap

end Sys2Proof.Machine
end

