-- ==== Sys2Proof/Machine/Dram.lean ====
section
/-!
DEFINITION. Chapter 14: the symbol code's decoder as a requester sees it, chip marks and the spare, rebuild, scrub, soft repair,
retraining, refresh and speed changes. DRAM content is kept decoded; what a granule's symbols read back as is a command's operand.
-/

namespace Sys2Proof.Machine

/-! ### Addresses (R249) -/

/-- The internal address of a channel address that is a granule's. -/
def addrOf (ch ca : Nat) : Nat :=
  let up := ca / 128 * 256
  up + (ch + up / 2 ^ 15 + up / 2 ^ 23 + up / 2 ^ 31) % 2 * 128 + ca % 128

/-- Index of a granule within its rank, and the channel address of the i-th granule of a rank. -/
def Dev.rankIndex (d : Dev) (ca : Nat) : Nat := let i := ca / 128; if d.ranks = 2 then i / 2 ^ 12 * 2 ^ 11 + i % 2 ^ 11 else i

def Dev.rankAddr (d : Dev) (rank i : Nat) : Nat :=
  (if d.ranks = 2 then i / 2 ^ 11 * 2 ^ 12 + rank * 2 ^ 11 + i % 2 ^ 11 else i) * 128

/-- Granules in a channel and in a rank. -/
def Dev.chanGranules (d : Dev) : Nat := d.capacity / 256
def Dev.rankGranules (d : Dev) : Nat := d.chanGranules / max 1 d.ranks

/-! ### Marks, the spare and the vault (R255 to R257, R309) -/

/-- Spare states. -/
def spareUnused : Nat := 0
def spareRebuilding : Nat := 1
def spareInUse : Nat := 2
def spareUnusable : Nat := 3

def Dev.spare (d : Dev) (ch rank : Nat) : Nat := d.rd F.DM_SPARE_SPARE (rankIdx ch rank)

def Dev.mark1 (d : Dev) (ch rank : Nat) : Nat := d.rd F.DM_SPARE_MARK1 (rankIdx ch rank)

def Dev.mark2 (d : Dev) (ch rank : Nat) : Nat := d.rd F.DM_SPARE_MARK2 (rankIdx ch rank)

/-- A DM_PPR entry as its four vault bytes: VALID, RANK, LANE, BG, BANK and ROW packed in that order. Log entry 97 (DEDUCED). -/
def Dev.pprWord (d : Dev) (i : Nat) : Nat :=
  d.rd F.DM_PPR_VALID i + d.rd F.DM_PPR_RANK i * 2 + d.rd F.DM_PPR_LANE i * 4 + d.rd F.DM_PPR_BG i * 64 +
    d.rd F.DM_PPR_BANK i * 512 + d.rd F.DM_PPR_ROW i * 2048

/-- Write the DRAM group; p is kept in steps of 64 MiB (R257). Log entry 97 (DEDUCED). -/
def Dev.saveDram (d : Dev) : Dev :=
  d.putGroup 1 (
    pack ((List.range 4).map fun k =>
      (2, d.rd F.DM_SPARE_MARK1 k + d.rd F.DM_SPARE_MARK2 k * 16 + d.rd F.DM_SPARE_CAUSE1 k * 256 + d.rd F.DM_SPARE_CAUSE2 k * 2048 +
        d.rd F.DM_SPARE_SPARE k * 16384)) ++
    pack ((List.range 4).map fun k => (4, d.rd F.DM_SPARE_POINTER k / 524288 * 524288)) ++
    pack ((List.range 8).map fun i => (4, d.pprWord i)))

/-- The marks and spares of the DRAM group, in the registers that show them (R255, R309). Log entries 96 (DEDUCED), 97 (DEDUCED). -/
def Dev.loadMarks (d : Dev) : Dev :=
  let b := d.groupOr 1
  (List.range 4).foldl (fun d k =>
    let w := sliceNat b (2 * k) 2
    let d := ((d.wr F.DM_SPARE_MARK1 k (w % 16)).wr F.DM_SPARE_MARK2 k (w / 16 % 16)).wr F.DM_SPARE_CAUSE1 k (w / 256 % 8)
    ((d.wr F.DM_SPARE_CAUSE2 k (w / 2048 % 8)).wr F.DM_SPARE_SPARE k (w / 16384 % 4)).wr F.DM_SPARE_POINTER k
      (sliceNat b (8 + 4 * k) 4)) d

/-- The repairs of the DRAM group, which are applied again at every cast-on step 6 (R260). Log entry 97 (DEDUCED). -/
def Dev.loadRepairs (d : Dev) : Dev :=
  let b := d.groupOr 1
  (List.range 8).foldl (fun d i =>
    let w := sliceNat b (24 + 4 * i) 4
    let d := ((d.wr F.DM_PPR_VALID i (w % 2)).wr F.DM_PPR_RANK i (w / 2 % 2)).wr F.DM_PPR_LANE i (w / 4 % 16)
    ((d.wr F.DM_PPR_BG i (w / 64 % 8)).wr F.DM_PPR_BANK i (w / 512 % 4)).wr F.DM_PPR_ROW i (w / 2048 % 2 ^ 17)) d

/-- The event code of a channel. -/
def dmEvent (ch low : Nat) : Nat := 0x500 + 0x100 * ch + low

/-- A chip 0 to 9 is marked for a cause (R256); a chip already marked stays as it is. -/
def Dev.markChip (d : Dev) (ch rank lane cause : Nat) : Dev :=
  let k := rankIdx ch rank
  if d.marked ch rank lane then d
  else if d.mark1 ch rank = 0xF then
    let d := (d.wr F.DM_SPARE_MARK1 k lane).wr F.DM_SPARE_CAUSE1 k cause
    let d := if d.spare ch rank = spareUnused then (d.wr F.DM_SPARE_SPARE k spareRebuilding).wr F.DM_SPARE_POINTER k 0 else d
    d.saveDram.raise .secure (dmEvent ch 2) [(1, rank), (1, lane), (1, cause)]
  else if d.mark2 ch rank = 0xF then
    ((d.wr F.DM_SPARE_MARK2 k lane).wr F.DM_SPARE_CAUSE2 k cause).saveDram.raise .secure (dmEvent ch 2)
      [(1, rank), (1, lane), (1, cause)]
  else d.raise .secure (dmEvent ch 5) [(1, rank), (1, lane), (1, cause)]

/-- A lane 10 condition makes the spare UNUSABLE (R255, R256). -/
def Dev.failSpare (d : Dev) (ch rank : Nat) : Dev :=
  let st := d.spare ch rank
  if st = spareUnusable then d
  else ((d.wr F.DM_SPARE_SPARE (rankIdx ch rank) spareUnusable).saveDram).raise .secure (dmEvent ch 4) [(1, rank), (1, st)]

/-- A condition of cause 1 or 2 on a lane. -/
def Dev.condemn (d : Dev) (ch rank lane cause : Nat) : Dev :=
  if lane = 10 then d.failSpare ch rank else d.markChip ch rank lane cause

/-- The spare supplies MARK1's symbols to the granule of index i (R257). Log entry 94 (DEDUCED). -/
def Dev.supplied (d : Dev) (ch rank i : Nat) : Bool :=
  decide (d.spare ch rank = spareInUse) ||
    (decide (d.spare ch rank = spareRebuilding) && decide (i < d.rd F.DM_SPARE_POINTER (rankIdx ch rank)))

/-! ### The decoder (R251, R252) -/

/-- The lane that carries a symbol of the code. -/
def symLane (s : Nat) : Nat := if s < 2 then 8 else if s < 4 then 9 else (s - 4) % 8

/-- A chip error of a lane in a row (R255). Log entry 95 (DEDUCED). -/
def Dev.chipError (d : Dev) (ch : Nat) (p : Place) (lane : Nat) : Dev :=
  let key := laneIdx ch p.rank lane
  let rows := (d.lane key).rows
  match rows.find? fun r => decide (r.bg = p.bg ∧ r.bank = p.bank ∧ r.row = p.row) with
  | some r => d.setLane key fun l => { l with rows := { r with count := r.count + 1 } :: l.rows.erase r }
  | none =>
    let d := d.setLane key fun l => { l with rows := (⟨p.bg, p.bank, p.row, 1⟩ :: l.rows).take 16 }
    let ce := min 0xFFFF (d.rd F.DM_LANE_CE key + 1)
    let d := d.wr F.DM_LANE_CE key ce
    if d.rd F.DM_RETRAIN_MARK_THRESH ch ≤ ce then d.condemn ch p.rank lane 1 else d

/-- A stored code word of DRAM: its check symbols c0 to c3 and its 16 data bytes (R250, R251). -/
def Dev.codeWord (d : Dev) (w : Nat) : List Nat :=
  let bs := d.bytes (16 * w) 16
  rsCheck bs ++ bs.map BitVec.toNat

/-- What reads back wrong of code word j of a granule: the difference of each symbol. -/
def symDiff (errs : List SymbolError) (j s : Nat) : Nat :=
  (errs.foldl (fun x e => if e.word.val = j ∧ e.sym.val = s then x ^^^ e.diff else x) (0 : Byte)).toNat

/-- A code word as it reads back. -/
def Dev.readBack (d : Dev) (w : Nat) (errs : List SymbolError) (j : Nat) : List Nat :=
  (d.codeWord w).zipIdx.map fun x => Nat.xor x.1 (symDiff errs j x.2)

/-- The syndromes of R250 are all zero: the decoder sees a code word. -/
def isCode (c : List Nat) : Bool := [1, 2, 4, 8].all fun x => decide (rsEval c x = 0)

/-- The symbols of a code word that read back wrong. Log entry 94 (DEDUCED). -/
def wrongSyms (errs : List SymbolError) (j : Nat) : List Nat := (List.range 20).filter fun s => decide (symDiff errs j s ≠ 0)

/-- How a code word comes back: as stored, uncorrectable, or miscorrected. -/
inductive Decoded where
  | good | lost | wrong
deriving DecidableEq, Repr

/-- Decode a code word w, number j of its granule, of index i in its rank. More errors than R252 corrects end uncorrectable or
miscorrected, which of the two is open; one that reads back as another code word is not even counted. Log entries 93 (DESIGN CHOICE), 94 (DEDUCED). -/
def Dev.decodeWord (d : Dev) (ch : Nat) (p : Place) (i w j : Nat) (errs : List SymbolError) : Decoded × Dev :=
  let sup := d.supplied ch p.rank i
  let m1 := d.mark1 ch p.rank
  let m2 := d.mark2 ch p.rank
  let gone := fun (s : Nat) => (decide (symLane s = m1) && !sup) || decide (symLane s = m2)
  let e := (if m1 ≠ 0xF ∧ !sup then 2 else 0) + (if m2 ≠ 0xF then 2 else 0)
  let hits := (wrongSyms errs j).filter fun s => !gone s
  if hits.isEmpty then (.good, d)
  else if hits.length ≤ (4 - e) / 2 then
    let d := (d.count F.DM_ECC_COUNT_CORRECTED ch 1)
    let d := if 0 < e then d.count F.DM_ECC_COUNT_ERASED ch 1 else d
    let chips := (hits.map fun s => if symLane s = m1 then 10 else symLane s).eraseDups
    (.good, match chips with | [c] => d.chipError ch p c | _ => d)
  else
    let (x, d) := d.free 2
    if x = 0 then (.lost, d)
    else (.wrong, if e = 0 ∧ isCode (d.readBack w errs j) then d else d.count F.DM_ECC_COUNT_CORRECTED ch 1)

/-- Decode the granule at internal address g; a lost word makes it uncorrectable (R252, R253). The words that come back miscorrected. -/
def Dev.decodeGranule (d : Dev) (g : Nat) (errs : List SymbolError) (req : Nat) (host : Option (Fin 2)) : List Nat × Dev :=
  let ch := chanOf g
  let ca := chanAddr g
  let p := d.place ca
  let (wrong, d) := (List.range 8).foldl (fun (r : List Nat × Dev) j =>
    let w := g / 16 + j
    match r.2.decodeWord ch p (r.2.rankIndex ca) w j errs with
    | (.good, d) => (r.1, d)
    | (.wrong, d) => (r.1 ++ [w], d)
    | (.lost, d) => (r.1, if d.ue.contains w then d else { d with ue := w :: d.ue })) ([], d)
  (wrong, if d.granuleBad g then d.noteUe g req host else d)

/-! ### Accesses -/

/-- The host of a requester's port. -/
def Dev.hostOfReq (d : Dev) (rq : Nat) : Option (Fin 2) :=
  if rq = 10 ∨ rq = 12 then some 0 else if rq = 11 ∨ rq = 13 then some 1
  else if rq = 14 ∨ rq = 15 then (at' d.hst.uploads (rq - 14)).host else none

/-- The encode job whose buffer in use, or its descriptor, holds address a (R131). Log entry 189 (DEDUCED). -/
def Dev.jobAt (d : Dev) (a : Nat) : Option EncJob :=
  d.cdc.enc.find? fun j => match j.desc with
    | some t => (decide (t ≤ a) && decide (a < t + 32)) || (decide (d.load t 8 ≤ a) && decide (a < d.load t 8 + d.load (t + 8) 4))
    | none => false

/-- The world of an access to address a by a requester: its port's, its upload's, that of the port that wrote an encode job's GO, or
its MASTER_WORLD bit (R300). Log entry 189 (DEDUCED). -/
def Dev.reqSecure (d : Dev) (rq a : Nat) : Bool :=
  match d.hostOfReq rq with
  | some p => d.portSecure p
  | none => match (if rq = 4 then d.jobAt a else none) with
    | some j => j.secure
    | none => d.masterSecure rq

/-- The answer to an internal requester whose access fails (R31, R253): an error response, but for line assembly and the codec, whose
own rules say what follows, and for the hosts. -/
def Dev.errorTo (d : Dev) (rq : Nat) : Dev := if rq < 5 ∨ (9 < rq ∧ rq < 12) ∨ 16 < rq then d else d.emit (.completion .internal .err [])

/-- A granule read completes: its symbols read back with the given errors (R252), and its data waits for the requester's own command.
Log entry 178 (DEDUCED). -/
def Dev.readComplete (d : Dev) (rq a : Nat) (errs : List SymbolError) : Dev :=
  let g := a / 128 * 128
  if d.capacity ≤ g then d
  else
    let (wrong, d) := (d.moveGranule rq g).decodeGranule g errs rq (d.hostOfReq rq)
    let d := { d with drm.fetched := ⟨rq, g, wrong⟩ :: d.drm.fetched.filter fun f => decide (¬ (f.rq = rq ∧ f.g = g)) }
    if d.granuleBad g then d.errorTo rq else d

/-- A narrow write: each granule is read, merged and rewritten, or left as it is (R254). -/
def Dev.rmw (d : Dev) (rq a : Nat) (bs : List Byte) : Dev :=
  if bs.isEmpty then d
  else
    let post := fun (d : Dev) (ans : Answer) => if rq = 10 then d.logAer 0 ans else if rq = 11 then d.logAer 1 ans else d.errorTo rq
    match d.dramWrite rq (d.reqSecure rq a) (d.hostOfReq rq) a bs with
    | (.ok _, d) => d
    | (.unmapped, d) => post d .ur
    | (.world, d) => post d .ca
    | (.bad _, d) => post d .poisoned

/-! ### Sweeps -/

/-- Every lane's CE decrements (R255). -/
def Dev.ceDecay (d : Dev) : Dev := (List.range 44).foldl (fun d k => d.wr F.DM_LANE_CE k (d.rd F.DM_LANE_CE k - 1)) d

/-- The rank whose spare is being rebuilt, rank 0 first. -/
def Dev.rebuilding (d : Dev) (ch : Nat) : Option Nat := [0, 1].find? fun r => decide (r < d.ranks ∧ d.spare ch r = spareRebuilding)

/-- One locked read-modify-write of a whole granule by a maintenance engine, which DM_UE_ADDR names as `name`: it is read with the given errors
and written back as decoded, or left if it is uncorrectable (R252, R253, R257, R260). -/
def Dev.rewriteGranule (d : Dev) (ch g : Nat) (errs : List SymbolError) (name : Nat) : Dev :=
  let (wrong, d) := (d.sweepGranule ch g).decodeGranule g errs name none
  if d.granuleBad g then d else (d.sweepGranule ch g).storeWrong wrong

/-- The rebuild sweep rewrites its next granule, or skips an uncorrectable one (R257); a spare that fails in it is rebuilt no more (R255). -/
def Dev.rebuildGranule (d : Dev) (ch : Nat) (errs : List SymbolError) : Dev :=
  match d.rebuilding ch with
  | none => d
  | some rank =>
    if d.speedChanging then d
    else
      let k := rankIdx ch rank
      let p := d.rd F.DM_SPARE_POINTER k
      let g := addrOf ch (d.rankAddr rank p)
      let d := (d.rewriteGranule ch g errs 0x1F).wr F.DM_SPARE_POINTER k (p + 1)
      if d.spare ch rank ≠ spareRebuilding then d
      else if d.rankGranules ≤ p + 1 then
        ((d.wr F.DM_SPARE_SPARE k spareInUse).saveDram).raise .secure (dmEvent ch 3) [(1, rank), (1, d.mark1 ch rank)]
      else if (p + 1) % 524288 = 0 then d.saveDram else d

/-- The patrol scrub reads its next granule (R259); one with a correctable error is rewritten corrected, unless it is uncorrectable (R253). -/
def Dev.scrubGranule (d : Dev) (ch : Nat) (errs : List SymbolError) : Dev :=
  if d.speedChanging ∨ d.chanGranules = 0 then d
  else
    let i := d.rd F.DM_SCRUB_POINTER ch
    let g := addrOf ch (i * 128)
    let seen := mapGet d.snapD (F.DM_ECC_COUNT_CORRECTED.key ch) 0
    let (wrong, d) := (d.sweepGranule ch g).decodeGranule g errs 0x1E none
    let clean := wrong.isEmpty && decide (mapGet d.snapD (F.DM_ECC_COUNT_CORRECTED.key ch) 0 = seen)
    let d := if d.granuleBad g || clean then d else (d.sweepGranule ch g).storeWrong wrong
    if i + 1 < d.chanGranules then d.wr F.DM_SCRUB_POINTER ch (i + 1)
    else
      let n := (d.rd F.DM_SCRUB_PASSES ch + 1) % 65536
      ((d.wr F.DM_SCRUB_POINTER ch 0).wr F.DM_SCRUB_PASSES ch n).raise .secure (dmEvent ch 0xA) [(2, n)]

/-- The channel's DM_PPR entries that are free, and those of a chip. -/
def Dev.pprFree (d : Dev) (ch : Nat) : Option Nat := [0, 1, 2, 3].find? fun i => !d.on F.DM_PPR_VALID (ch * 4 + i)

def Dev.pprHas (d : Dev) (ch rank lane bg : Nat) : Bool :=
  [0, 1, 2, 3].any fun i => d.on F.DM_PPR_VALID (ch * 4 + i) && decide (d.rd F.DM_PPR_RANK (ch * 4 + i) = rank ∧
    d.rd F.DM_PPR_LANE (ch * 4 + i) = lane ∧ d.rd F.DM_PPR_BG (ch * 4 + i) = bg)

/-- The channel address of a column of a row (R249). -/
def Dev.rowAddr (d : Dev) (rank bg bank row col : Nat) : Nat :=
  col * 2 ^ 7 + Nat.xor bg (row % 8) * 2 ^ 13 + bank * 2 ^ 16 +
    (if d.ranks = 2 then rank * 2 ^ 18 + row * 2 ^ 19 else row * 2 ^ 18)

/-- The 64 granules of a row are read with correction and written back; an uncorrectable one is reported and left (R253, R260). -/
def Dev.rewriteRow (d : Dev) (ch rank bg bank row : Nat) (errs : List (Fin 64 × SymbolError)) : Dev :=
  (List.range 64).foldl (fun (d : Dev) (col : Nat) =>
    d.rewriteGranule ch (addrOf ch (d.rowAddr rank bg bank row col)) ((errs.filter fun e => decide (e.1.val = col)).map Prod.snd) (17 + ch)) d

/-- A candidate row is repaired (R260). Log entry 95 (DEDUCED). -/
def Dev.pprRepair (d : Dev) (ch rank lane : Nat) (errs : List (Fin 64 × SymbolError)) : Dev :=
  let key := laneIdx ch rank lane
  match (d.lane key).rows.find? fun r => decide (4 ≤ r.count) && !d.pprHas ch rank lane r.bg, d.pprFree ch with
  | some r, some i =>
    if !d.pat.loaded.dram.ppr || !d.barIdle then d
    else
      let k := ch * 4 + i
      let d := d.rewriteRow ch rank r.bg r.bank r.row errs
      let d := d.setLane key fun l => { l with rows := l.rows.erase r }
      let d := ((d.wr F.DM_PPR_VALID k 1).wr F.DM_PPR_RANK k rank).wr F.DM_PPR_LANE k lane
      let d := ((d.wr F.DM_PPR_BG k r.bg).wr F.DM_PPR_BANK k r.bank).wr F.DM_PPR_ROW k r.row
      d.saveDram.raise .secure (dmEvent ch 7) [(1, rank), (1, lane), (1, r.bg), (1, r.bank), (3, r.row)]
  | _, _ => d

/-! ### Retraining (R261, R262) -/

/-- The first of the longest runs of passing points: its start and its length. -/
def longestRun (xs : List Bool) : Nat × Nat :=
  let r := xs.zipIdx.foldl (fun (acc : (Nat × Nat) × (Nat × Nat)) x =>
    let (best, cur) := acc
    let cur := if x.1 then (if cur.2 = 0 then (x.2, 1) else (cur.1, cur.2 + 1)) else (0, 0)
    (if best.2 < cur.2 then cur else best, cur)) ((0, 0), (0, 0))
  r.1

/-- The end of a pass of 18 pauses: its margin, settings and flags. Log entry 96 (DEDUCED). -/
def Dev.endPass (d : Dev) (ch rank lane : Nat) (pass : List Bool) : Dev :=
  let key := laneIdx ch rank lane
  let (rs, rl) := longestRun (pass.take 9)
  let (ws, wl) := longestRun (pass.drop 9)
  let d := d.setLane key fun l => { l with pass := [] }
  if rl = 0 ∨ wl = 0 then
    let was := d.on F.DM_LANE_SUSPECT key
    let n := min 3 (d.rd F.DM_LANE_NOSET key + 1)
    let d := ((d.wr F.DM_LANE_SUSPECT key 1).wr F.DM_LANE_NOSET key n).setLane key fun l => { l with quick := true }
    let d := if was then d else d.raise .secure (dmEvent ch 6) [(1, rank), (1, lane), (1, n)]
    if n = 3 then d.condemn ch rank lane 2 else d
  else
    let margin := min rl wl - 1
    let d := d.wr F.DM_LANE_MARGIN key (min 7 margin)
    if margin < d.rd F.DM_RETRAIN_FLOOR ch then d.condemn ch rank lane 2
    else ((d.wr F.DM_LANE_SUSPECT key 0).wr F.DM_LANE_NOSET key 0).setLane key fun l => { l with
      quick := false
      rdDelay := l.rdDelay + (rs + (rl - 1) / 2 : Nat) - 4
      wrDelay := l.wrDelay + (ws + (wl - 1) / 2 : Nat) - 4 }

/-- A retraining pause tests one delay point of a lane (R261): the lane whose pause comes next, in a refresh slot in which no REF is
issued, which it holds for 300 ns at most. Log entry 180 (DEDUCED). -/
def Dev.retrainPause (d : Dev) (ch rank lane : Nat) (pass : Bool) : Dev :=
  let a := d.arb ch
  if d.frontHeld ∨ !a.quiet ∨ !d.pauseFree ch ∨ d.nextLane ch ≠ some (rank * 11 + lane) then d
  else
    let key := laneIdx ch rank lane
    let d := d.setArb ch fun a => { a with
      quiet := false, pausedAt := d.elapsed, pausedIn := some d.beat, pauseEnd := a.slotT + 300, turn := (rank * 11 + lane + 1) % 22 }
    let d := d.setLane key fun l => if l.pass.isEmpty then { l with began := some d.elapsed } else l
    let r := (d.lane key).pass ++ [pass]
    if 18 ≤ r.length then d.endPass ch rank lane r else d.setLane key fun l => { l with pass := r }

/-! ### Refresh and temperature (R263) -/

def Dev.trefi (d : Dev) (ch rank : Nat) : Dev :=
  if rank < d.ranks then (d.setOwed ch rank (min 7 (d.owed ch rank + 1))).refreshIdle ch else d

/-- P has reached 4: a REF at the next granule boundary. -/
def Dev.refForced (d : Dev) (ch rank : Nat) : Dev :=
  if d.owed ch rank < 4 then d else ((d.refresh ch rank).count F.DM_REFRESH_FORCED ch 1).refreshYield ch

/-- The temperature poll of a rank: devices that call for doubled refresh, and devices above their range. -/
def Dev.tempPoll (d : Dev) (ch rank : Nat) (doubled tooHot : Nat) : Dev :=
  if d.ranks ≤ rank then d
  else
    let hot := decide (doubled ≠ 0)
    let d := if rank = 0 then d.wrB F.DM_STAT_HOT0 ch hot else d.wrB F.DM_STAT_HOT1 ch hot
    (List.range 11).foldl (fun d lane =>
      let key := laneIdx ch rank lane
      let was := d.drm.tooHot.contains key
      let d := { d with drm.tooHot := if tooHot.testBit lane then (if was then d.drm.tooHot else key :: d.drm.tooHot) else d.drm.tooHot.erase key }
      if tooHot.testBit lane && !was then d.raise .secure (dmEvent ch 9) [(1, rank), (1, lane)] else d) d

/-! ### Register writes -/

/-- A write to DM_MARK_CTRL (R255). Log entry 96 (DEDUCED). -/
def Dev.wDmMark (d : Dev) (ch val mask : Nat) : Dev :=
  let d := d.store R.DM_MARK_CTRL ch val mask
  let v := Nat.land val mask
  let lane := d.rd F.DM_MARK_CTRL_LANE ch
  let rank := d.rd F.DM_MARK_CTRL_RANK ch
  let d := if v.testBit 8 ∧ lane ≤ 9 ∧ rank < d.ranks then d.markChip ch rank lane 3 else d
  if v.testBit 9 then { d with drm.forget := d.drm.forget.set ch true } else d

/-- Why a speed change is refused: 0 if it is not (R266). -/
def Dev.speedRefused (d : Dev) (target : Nat) : Nat :=
  if !d.barIdle || !d.queued.isEmpty then 1
  else if !d.slotCheck target then 2
  else if d.pat.loaded.dram.speed < target then 3 else 0

/-- A write to DM_SPEED_CTRL through either window; nothing changes while a change runs. Log entry 98 (DEDUCED). -/
def Dev.wDmSpeed (d : Dev) (ch val mask : Nat) : Dev :=
  if d.speedChanging then d
  else
    let d := (d.store R.DM_SPEED_CTRL ch val mask).store R.DM_SPEED_CTRL (1 - ch) val mask
    if (Nat.land val mask).testBit 4 then
      let t := d.rd F.DM_SPEED_CTRL_TARGET ch
      let r := d.speedRefused t
      let d := (d.wr F.DM_SPEED_CTRL_RESULT 0 r).wr F.DM_SPEED_CTRL_RESULT 1 r
      if r ≠ 0 then d
      else [0, 1].foldl (fun (d : Dev) c =>
        ((d.wr F.DM_SPEED_CTRL_BUSY c 1).wr F.DM_SPEED_CTRL_SET_B c t).wr F.DM_STAT_STATE c 2) { d with drm.speed := some t }
    else d

/-- The lanes that fail a training are marked with cause 4 (R256, R258); whether none was refused. -/
def Dev.trainLanes (d : Dev) (lanes : List (Nat × Nat × Nat)) : Bool × Dev :=
  lanes.foldl (fun acc l =>
    let (ok, d) := acc
    let (ch, rank, lane) := l
    if d.ranks ≤ rank then acc
    else if lane = 10 then (ok, d.failSpare ch rank)
    else if !d.marked ch rank lane ∧ d.mark1 ch rank ≠ 0xF ∧ d.mark2 ch rank ≠ 0xF then (false, d.markChip ch rank lane 4)
    else (ok, d.markChip ch rank lane 4)) (true, d)

/-- Retraining at the new speed ends (R265, R266): the lanes that fail it are marked, every row is closed and every counter is 2, and
the memory front takes up what it held. Log entry 98 (DEDUCED). -/
def Dev.speedDone (d : Dev) (lanes : List (Nat × Nat × Nat)) : Dev :=
  match d.drm.speed with
  | none => d
  | some t =>
    let d := { d with drm.speed := none, drm.banks := d.drm.banks.map fun (p : Nat × BankSt) => (p.1, { p.2 with ctr := 2, isOpen := false }) }
    let d := (d.trainLanes lanes).2
    let d := [0, 1].foldl (fun (d : Dev) c =>
      (((d.wr F.DM_SPEED_CTRL_BUSY c 0).wr F.DM_STAT_SPEED c t).wr F.DM_STAT_STATE c 1).raise .secure (dmEvent c 8) [(1, t)]) d
    d.serveHeld

/-! ### Cast-on (R258) -/

/-- Work on the marks as the vault holds them, before cast-on step 7 restores them to the registers (R255, R258). Log entry 97 (DEDUCED). -/
def Dev.onVaultMarks {α : Type} (d : Dev) (f : Dev → α × Dev) : α × Dev :=
  let (x, d) := f d.loadMarks
  (x, (List.range 4).foldl (fun (d : Dev) k => d.setReg R.DM_SPARE k 0xF0F0) d)

/-- FORGET, at a cold or power-on cast-on: the marks and spare state of the channel are cleared. -/
def Dev.forgetMarks (d : Dev) : Dev :=
  let d := (d.onVaultMarks fun d => ((), ([0, 1].foldl (fun (d : Dev) ch =>
    if d.drm.forget.getD ch false then
      [0, 1].foldl (fun (d : Dev) r => d.setReg R.DM_SPARE (rankIdx ch r) 0xF0F0) d
    else d) d).saveDram)).2
  { d with drm.forget := [false, false] }

/-- Step 6: the lanes that fail training are marked in the vault; the step fails if a mark would be refused. -/
def Dev.trainDram (d : Dev) (lanes : List (Nat × Nat × Nat)) : Bool × Dev := d.onVaultMarks fun d => d.trainLanes lanes

/-- Step 7 after a cold or power-on reset: DRAM filled with zero, and a spare whose chip is marked is IN_USE. Log entry 4 (DESIGN CHOICE). -/
def Dev.fillDram (d : Dev) : Dev :=
  let d := { d with mem := [], ue := [] }
  let d := (List.range 4).foldl (fun d k =>
    if d.rd F.DM_SPARE_SPARE k < 2 ∧ d.rd F.DM_SPARE_MARK1 k ≠ 0xF then
      (d.wr F.DM_SPARE_SPARE k spareInUse).wr F.DM_SPARE_POINTER k d.rankGranules else d) d
  d.saveDram

/-! ### The commands -/

def execDramReadComplete (rq : Fin 20) (addr : Nat) (errs : List SymbolError) (s : State) : Host.Outcome State Fault Refusal :=
  s.act fun d => d.readComplete rq addr errs

def execDramRmw (rq : Fin 20) (addr : Nat) (data : List Byte) (s : State) : Host.Outcome State Fault Refusal :=
  s.act fun d => d.rmw rq addr data

def execCeDecay (s : State) : Host.Outcome State Fault Refusal := s.act Dev.ceDecay

def execRebuildGranule (ch : Fin 2) (s : State) (errs : List SymbolError := []) : Host.Outcome State Fault Refusal :=
  s.act fun d => d.rebuildGranule ch errs

def execScrubGranule (ch : Fin 2) (errs : List SymbolError) (s : State) : Host.Outcome State Fault Refusal :=
  s.act fun d => d.scrubGranule ch errs

def execPprRepair (ch rank : Fin 2) (lane : Fin 11) (s : State) (errs : List (Fin 64 × SymbolError) := []) :
    Host.Outcome State Fault Refusal :=
  s.act fun d => d.pprRepair ch rank lane errs

def execRetrainPause (ch rank : Fin 2) (lane : Fin 11) (pass : Bool) (s : State) : Host.Outcome State Fault Refusal :=
  s.act fun d => d.retrainPause ch rank lane pass

def execTrefiTick (ch rank : Fin 2) (s : State) : Host.Outcome State Fault Refusal := s.act fun d => d.trefi ch rank

def execRefForced (ch rank : Fin 2) (s : State) : Host.Outcome State Fault Refusal := s.act fun d => d.refForced ch rank

def execDramTempPoll (ch rank : Fin 2) (doubled tooHot : BitVec 11) (s : State) : Host.Outcome State Fault Refusal :=
  s.act fun d => d.tempPoll ch rank doubled.toNat tooHot.toNat

def execChipMarkHost (m : Master) (ch : Fin 2) (val : Nat) (s : State) : Host.Outcome State Fault Refusal :=
  s.act fun d => d.writeTo m R.DM_MARK_CTRL ch fun d => d.wDmMark ch val mask32

def execMarkForget (m : Master) (ch : Fin 2) (s : State) : Host.Outcome State Fault Refusal :=
  s.act fun d => d.writeTo m R.DM_MARK_CTRL ch fun d => d.wDmMark ch 0x200 0x200

def execSpeedChangeGo (m : Master) (ch : Fin 2) (val : Nat) (s : State) : Host.Outcome State Fault Refusal :=
  s.act fun d => d.writeTo m R.DM_SPEED_CTRL ch fun d => d.wDmSpeed ch val mask32

def execSpeedChangeDone (s : State) (lanes : List (Fin 2 × Fin 2 × Fin 11) := []) : Host.Outcome State Fault Refusal :=
  s.act fun d => d.speedDone (lanes.map fun l => (l.1.val, l.2.1.val, l.2.2.val))

end Sys2Proof.Machine
end

