-- ==== Sys2Proof/Machine/Hosts.lean ====
section
/-!
DEFINITION. Chapter 16: host ports, event rings and MSI-X, doorbells, the snapshot epoch and snapshot DMA, Ethernet ports and
uploads.
-/

namespace Sys2Proof.Machine

/-! ### Event rings (R288, R289, R291) -/

/-- A ring's HEAD and TAIL, its entries, and whether it is full. -/
def Dev.evHead (d : Dev) (p : Nat) : Nat := d.rd F.HST_EVR_HEAD_HEAD p

def Dev.evSize (d : Dev) (p : Nat) : Nat := 2 ^ (d.port p).log

def Dev.ringFull (d : Dev) (p : Nat) : Bool := decide ((d.evHead p + 1) % d.evSize p = d.rd F.HST_EVR_TAIL_TAIL p)

/-- The device can write an entry of port p's ring. Log entry 104 (DEDUCED). -/
def Dev.canWrite (d : Dev) (p : Nat) : Bool := (d.port p).busMaster && !d.ringFull p

/-- The 32 bytes of an entry. -/
def entryBytes (phase lost : Bool) (seq : Nat) (ev : Ev) : List Byte :=
  pack [(2, ev.code), (1, (if phase then 1 else 0) + (if lost then 2 else 0)), (1, ev.steps), (4, seq), (8, ev.beat)] ++
    (ev.payload ++ List.replicate 16 0).take 16

/-- An MSI-X message: sent if MSI-X is enabled and neither the function nor the entry is masked; masked, its pending bit is set (R291). The
MOD beats of vector 0 count from a message that is sent. Log entry 195 (PRESUMED). -/
def Dev.message (d : Dev) (p v : Fin 2) : Dev :=
  let h := d.port p
  let e := at' h.msix v
  if !h.msixOn then d
  else if h.msixMask || e.masked then d.setPort p fun h => { h with msix := h.msix.modify v fun e => { e with pending := true } }
  else
    let d := d.emit (.msix p v e.addr e.data)
    if v = 0 then d.setPort p fun h => { h with modUntil := d.tmb.beats + d.rd F.HST_EVR_CFG_MOD p } else d

/-- A pending message is sent once nothing masks it, while the port may write (R283). Log entry 195 (PRESUMED). -/
def Dev.unmasked (d : Dev) (p v : Fin 2) : Dev :=
  if (at' (d.port p).msix v).pending &&
      ((d.port p).msixOn && ((d.port p).busMaster && (!(d.port p).msixMask && !(at' (d.port p).msix v).masked))) then
    (d.setPort p fun h => { h with msix := h.msix.modify v fun e => { e with pending := false } }).message p v
  else d

/-- MSI-X for an entry written: vector 0 under moderation, vector 1 when occupancy reaches three quarters. Log entry 109 (DEDUCED). -/
def Dev.signalEntry (d : Dev) (p : Fin 2) : Dev :=
  let mod := d.rd F.HST_EVR_CFG_MOD p
  let d := if mod = 0 ∨ (d.port p).modUntil ≤ d.tmb.beats then
      (d.message p 0).setPort p fun h => { h with modDue := false }
    else d.setPort p fun h => { h with modDue := true }
  let occ := (d.evHead p + d.evSize p - d.rd F.HST_EVR_TAIL_TAIL p) % d.evSize p
  if occ = 3 * d.evSize p / 4 then d.message p 1 else d

/-- Write one event to the ring of port p. -/
def Dev.writeEntry (d : Dev) (p : Fin 2) (seq : Nat) (ev : Ev) : Dev :=
  let head := d.evHead p
  let phase := d.on F.HST_EVR_HEAD_PHASE p
  let d := d.emit (.pcieWrite p ((d.port p).base + head * 32) (entryBytes phase (d.port p).lost seq ev))
  let d := d.setPort p fun h => { h with lost := false }
  let next := (head + 1) % d.evSize p
  let d := (d.wr F.HST_EVR_HEAD_HEAD p next).wrB F.HST_EVR_HEAD_PHASE p (if next = 0 then !phase else phase)
  d.signalEntry p

def Dev.showQueueOf (d : Dev) (p : Nat) : Dev := d.wr F.HST_EVR_STAT_WAITING p (d.port p).queue.length

/-- A posted event reaches one addressed host: discarded, written, queued or lost. -/
def Dev.postTo (d : Dev) (p : Fin 2) (ev : Ev) : Dev :=
  if !d.ringOn p then d
  else
    let seq := (d.port p).seq
    let d := d.setPort p fun h => { h with seq := (seq + 1) % 2 ^ 32 }
    if (d.port p).queue.isEmpty && d.canWrite p then d.writeEntry p seq ev
    else if (d.port p).queue.length < 64 then (d.setPort p fun h => { h with queue := h.queue ++ [(seq, ev)] }).showQueueOf p
    else (d.bump F.HST_EVR_STAT_LOST p 1).setPort p fun h => { h with lost := true }

/-- The oldest posted event goes to its hosts (R289). -/
def Dev.eventPost (d : Dev) : Dev :=
  match d.raised with
  | [] => d
  | ev :: rest =>
    let d := { d with raised := rest }
    let d := if ev.p0 then d.postTo 0 ev else d
    if ev.p1 then d.postTo 1 ev else d

/-- The oldest waiting event of a port is written if there is space. -/
def Dev.ringWrite (d : Dev) (p : Fin 2) : Dev :=
  match (d.port p).queue with
  | [] => d
  | (seq, ev) :: rest =>
    if !d.ringOn p || !d.canWrite p then d
    else ((d.setPort p fun h => { h with queue := rest }).showQueueOf p).writeEntry p seq ev

/-- ENABLE goes from 0 to 1 (R288). -/
def Dev.enableRing (d : Dev) (p : Fin 2) : Dev :=
  let log := d.rd F.HST_EVR_CFG_LOG_ENTRIES p
  let d := ((d.wr F.HST_EVR_HEAD_HEAD p 0).wr F.HST_EVR_HEAD_PHASE p 1).wr F.HST_EVR_TAIL_TAIL p 0
  d.setPort p fun h => { h with
    base := d.rd F.HST_EVR_BASE_BASE p * 4096, log := if log = 0 then 16 else log, seq := 0 }

/-- ENABLE goes from 1 to 0: what waits is discarded and counted in LOST (R288), and the next entry says so (R289). -/
def Dev.disableRing (d : Dev) (p : Fin 2) : Dev :=
  let n := (d.port p).queue.length
  ((d.bump F.HST_EVR_STAT_LOST p n).setPort p fun h => { h with queue := [], lost := h.lost || decide (n ≠ 0) }).showQueueOf p

/-- A write to HST_EVR_CFG by its port: LOG_ENTRIES is ignored while ENABLE is 1. -/
def Dev.wEvrCfg (d : Dev) (p : Fin 2) (val mask : Nat) : Dev :=
  let was := d.ringOn p
  let d := d.store R.HST_EVR_CFG p val (if was then Nat.land mask 0xFFFFFF0F else mask)
  if !was && d.ringOn p then d.enableRing p else if was && !d.ringOn p then d.disableRing p else d

/-- A write to HST_EVR_BASE, ignored while ENABLE is 1. -/
def Dev.wEvrBase (d : Dev) (p : Fin 2) (val mask : Nat) : Dev := if d.ringOn p then d else d.store R.HST_EVR_BASE p val mask

/-- The end of MOD beats since the last vector-0 message (R291). Log entry 109 (DEDUCED). -/
def Dev.moderationEnd (d : Dev) (p : Fin 2) : Dev :=
  if (d.port p).modDue && (d.port p).busMaster then (d.message p 0).setPort p fun h => { h with modDue := false } else d

/-- A write to HST_DOORBELL (R287). -/
def Dev.wDoorbell (d : Dev) (p : Fin 2) (val : Nat) : Dev := d.raise (.port (1 - p)) 0x1301 [(4, val), (1, p)]

/-! ### The snapshot epoch (R34, R292) -/

/-- A write to GL_SNAP_REQ. -/
def Dev.wSnapReq (d : Dev) (val mask : Nat) : Dev :=
  if (Nat.land val mask).testBit 0 then { d with hst.flip := true }.wrB F.GL_SNAP_STAT_PENDING 0 true else d

/-- The field whose delta a key names. -/
def snapField (key : Nat) : Option (Fld × Nat) :=
  match findReg (key / 64) regTable with
  | some h => (h.row.flds.find? fun f => decide (f.ty = .snap) && decide (f.lo = key % 64)).map fun f => (f, h.idx)
  | none => none

/-- Fold one delta into its frozen value. -/
def Dev.freeze (d : Dev) (p : Nat × Int) : Dev := match snapField p.1 with | some (f, i) => d.wr f i (f.sum (d.rd f i) p.2) | none => d

/-! ### Snapshot DMA (R294, R295) -/

/-- How many instances a register has. -/
def Reg.instances (r : Reg) : Nat := r.dims.foldl (fun n x => n * x.1) 1

/-- The SNAP registers of the blocks in SETS: their addresses and contents, ascending; HL_ACT is not among them. -/
def Dev.snapWords (d : Dev) (sets : Nat) : List Nat :=
  let all := (regTable.filter fun row => (row.flds.any fun f => decide (f.ty = .snap)) && decide (row.reg.base ≠ R.HL_ACT.base)).flatMap
    fun row => (List.range row.reg.instances).filterMap fun i =>
      let a := row.reg.addr i
      if sets.testBit (blockOf a) then some (a, d.reg row.reg i) else none
  (all.mergeSort fun a b => decide (a.1 ≤ b.1)).map Prod.snd

/-- Every word of a copy. -/
def Dev.copyWords (d : Dev) (j : SnapJob) : List Nat :=
  d.snapWords j.sets ++ if j.nozzle then (List.range 131072).map d.actWord else []

/-- The header of a copy. -/
def Dev.copyHeader (d : Dev) (j : SnapJob) (words : List Byte) (n : Nat) : List Byte :=
  let h := pack [(4, 0x4B534E50), (4, j.epoch), (8, j.beat), (1, d.steps), (3, 0), (4, j.sets + if j.nozzle then 2 ^ 31 else 0), (4, n)] ++
    List.replicate 32 0
  h ++ leBytes 4 (crc32 (h ++ words))

/-- Posted writes of bytes from a host address: none crosses a 4 KiB boundary or exceeds Max_Payload_Size (R283); `fuel` bounds
their number. Log entry 8 (PRESUMED). -/
def pcieWrites (p : Fin 2) (mps : Nat) : Nat → Nat → List Byte → List Out
  | 0, _, _ => []
  | fuel + 1, a, bs =>
    if bs.isEmpty then []
    else
      let n := min (max 1 mps) (4096 - a % 4096)
      .pcieWrite p a (bs.take n) :: pcieWrites p mps fuel (a + n) (bs.drop n)

/-- Write bytes of a copy in pieces of at most 128 bytes into DRAM: how many were written before the first refusal, if any. -/
def Dev.copyDram (d : Dev) (p : Fin 2) : Nat → Nat → List Byte → Nat × Bool × Dev
  | 0, _, _ => (0, true, d)
  | fuel + 1, a, bs =>
    if bs.isEmpty then (0, true, d)
    else
      let n := 128 - a % 128
      match d.dramStore (12 + p) (d.portSecure p) (some p) a (bs.take n) with
      | (.ok _, d) =>
        let (k, ok, d) := d.copyDram p fuel (a + n) (bs.drop n)
        (k + min n bs.length, ok, d)
      | (_, d) => (0, false, d)

/-- Write bytes of a copy to its destination. -/
def Dev.copyOut (d : Dev) (p : Fin 2) (j : SnapJob) (off : Nat) (bs : List Byte) : Nat × Bool × Dev :=
  if j.dram then d.copyDram p (bs.length / 128 + 2) (j.dest + off) bs
  else (bs.length, true, (pcieWrites p (d.port p).maxPayload (bs.length + 1) (j.dest + off) bs).foldl (fun d o => d.emit o) d)

def Dev.setSnap (d : Dev) (p : Nat) (f : SnapJob → SnapJob) : Dev := d.setPort p fun h => { h with snap := f h.snap }

/-- A copy ends: ERR and SNAP_DMA_DONE with the words written. -/
def Dev.endCopy (d : Dev) (p : Fin 2) (err words : Nat) : Dev :=
  let epoch := (d.port p).snap.epoch
  let d := (d.setSnap p fun _ => {}).wrB F.HST_SNAP_CTRL_BUSY p false |>.wr F.HST_SNAP_CTRL_ERR p err
  d.raise (.port p) 0x1302 [(3, epoch), (4, words), (1, err)]

/-- A copy cut short: how far it came is unspecified; it had ended with ACCESS where a write of it was refused (R295). Log entry 106 (DEDUCED). -/
def Dev.cutCopy (d : Dev) (p : Fin 2) (err : Nat) : Dev :=
  let j := (d.port p).snap
  if !j.running then d.endCopy p err 0
  else
    let ws := d.copyWords j
    let (n, d) := d.free (ws.length + 1)
    let n := if j.dram || (d.port p).busMaster then n else 0
    let (k, ok, d) := d.copyOut p j 64 ((ws.take n).flatMap fun w => leBytes 8 w)
    d.endCopy p (if ok then err else 2) (k / 8)

/-- A copy ends: ACCESS or OK. -/
def Dev.copyDone (d : Dev) (p : Fin 2) : Dev :=
  let j := (d.port p).snap
  if !j.running then d
  else if !j.dram && !(d.port p).busMaster then d
  else
    let ws := d.copyWords j
    let bytes := ws.flatMap fun w => leBytes 8 w
    let (k, ok, d) := d.copyOut p j 64 bytes
    if !ok then d.endCopy p 2 (k / 8)
    else
      let (_, ok, d) := d.copyOut p j 0 (d.copyHeader j bytes ws.length)
      d.endCopy p (if ok then 0 else 2) ws.length

/-- The flip at the boundary that opens beat k: running copies end with SUPERSEDED while the epoch they took is still the one that reads,
then every delta is folded. What the boundary itself counts goes into the new deltas. Log entry 153 (DEDUCED). -/
def Dev.flipEpoch (d : Dev) (k : Nat) : Dev :=
  if !d.hst.flip then d
  else
    let d := if (d.port 0).snap.running then d.cutCopy 0 1 else d
    let d := if (d.port 1).snap.running then d.cutCopy 1 1 else d
    let deltas := d.snapD
    let d := deltas.foldl (fun (d : Dev) p => d.freeze p) { d with snapD := [], hst.flip := false, hst.epochBeat := k }
    (d.wr F.GL_SNAP_STAT_EPOCH 0 ((d.rd F.GL_SNAP_STAT_EPOCH + 1) % 2 ^ 24)).wrB F.GL_SNAP_STAT_PENDING 0 false

/-- A write to HST_SNAP_CTRL by its port: GO asks for a copy unless one is under way. Log entry 106 (DEDUCED). -/
def Dev.wSnapCtrl (d : Dev) (p : Fin 2) (val mask : Nat) : Dev :=
  let d := d.store R.HST_SNAP_CTRL p val mask
  if (Nat.land val mask).testBit 32 && !d.on F.HST_SNAP_CTRL_BUSY p then
    (d.setSnap p fun _ => {
      armed := some d.tmb.beats
      dram := d.on F.HST_SNAP_DEST_DRAM p, dest := d.rd F.HST_SNAP_DEST_ADDR p * 64
      sets := d.rd F.HST_SNAP_CTRL_SETS p, nozzle := d.on F.HST_SNAP_CTRL_NOZZLE p }).wrB F.HST_SNAP_CTRL_BUSY p true
  else d

/-- At the boundary after GO the copy takes the epoch in force. -/
def Dev.copyStart (d : Dev) (p : Fin 2) : Dev :=
  match (d.port p).snap.armed with
  | some b =>
    if d.tmb.beats ≤ b then d
    else d.setSnap p fun j => { j with armed := none, running := true, epoch := d.rd F.GL_SNAP_STAT_EPOCH, beat := d.hst.epochBeat }
  | none => d

/-! ### PCIe ports (R282 to R284) -/

/-- PORT_LINK on a change of link state. -/
def Dev.setPortLink (d : Dev) (p : Fin 2) (up : Bool) : Dev :=
  if d.on F.HST_PORT_STAT_LINK_UP p = up then d
  else (d.wrB F.HST_PORT_STAT_LINK_UP p up).raise (.port (1 - p)) 0x1303 [(1, p), (1, if up then 1 else 0)]

/-- A hot reset, a link-down or PERSTn resets one port's own state; `perst` tells that PERSTn fell (R373). Log entry 105 (DEDUCED). -/
def Dev.resetPort (d : Dev) (p : Fin 2) (perst : Bool) : Dev :=
  let d := if d.on F.HST_SNAP_CTRL_BUSY p then d.cutCopy p 4 else d
  let d := d.setPort p fun h => { perst := h.perst && !perst }
  let d := { d with drm.held := d.drm.held.filter fun r => match r with | .read q _ _ => decide (q ≠ p) | _ => true }
  let d := (d.setReg R.HST_APBASE p 0).setReg R.HST_EVR_BASE p 0 |>.setReg R.HST_EVR_CFG p (R.HST_EVR_CFG.rst p)
  let d := ((d.setReg R.HST_EVR_HEAD p (R.HST_EVR_HEAD.rst p)).setReg R.HST_EVR_TAIL p 0).setReg R.HST_EVR_STAT p 0
  let d := (d.wr F.HST_PORT_STAT_SPEED p 0).wr F.HST_PORT_STAT_WIDTH p 0
  (d.wr F.HST_PORT_STAT_RESETS p ((d.rd F.HST_PORT_STAT_RESETS p + 1) % 65536)).setPortLink p false

/-- A port's link comes up: training runs from cast-on step 3 on (R63, R280), but never while PERSTn is low (R373). -/
def Dev.linkComesUp (d : Dev) (p : Fin 2) (speed width : Nat) (perst : Bool) : Dev :=
  let d := d.setPort p fun h => { h with perst := perst }
  if d.inReset || !d.stepPassed 2 || !perst then d
  else ((d.wr F.HST_PORT_STAT_SPEED p speed).wr F.HST_PORT_STAT_WIDTH p width).setPortLink p true

/-- The capabilities of a port (R282); one not listed is absent. -/
inductive Capability where
  /-- D0 and D3hot. -/
  | powerManagement
  | express
  /-- 2 vectors. -/
  | msix
  | errorReporting
  /-- It returns GL_SERIAL. -/
  | serialNumber
deriving DecidableEq, Repr, Inhabited

/-- Log entry 162 (DEDUCED). -/
def capabilities : List Capability := [.powerManagement, .express, .msix, .errorReporting, .serialNumber]

/-- A base address register: the bits above the size are the host's, those below say the kind. -/
def barWord (bits kind val : Nat) : Nat := val / 2 ^ bits * 2 ^ bits + kind

/-- A 32-bit word of a port's configuration header (R281), by the layout of the base specification. Log entry 195 (PRESUMED). Log entry 162 (DEDUCED). -/
def Dev.configHeader (d : Dev) (p : Fin 2) (n : Nat) : Nat :=
  let h := d.port p
  let bar := fun (i : Nat) => at' h.bars i
  match n with
  | 0 => 0x71201E1A
  | 1 => (if h.busMaster then 4 else 0) + 0x100000
  | 2 => 0x118000B0
  | 4 => barWord 29 4 (bar 0) % 2 ^ 32
  | 5 => barWord 29 4 (bar 0) / 2 ^ 32
  | 6 => barWord 32 12 (bar 1) % 2 ^ 32
  | 7 => barWord 32 12 (bar 1) / 2 ^ 32
  | 8 => barWord 14 0 (bar 2)
  | 11 => 0x71201E1A
  | _ => 0

/-- The Device Serial Number (R282). -/
def Dev.serialNumber (d : Dev) : Nat := d.rd F.GL_SERIAL_SERIAL

/-- A 32-bit word of BAR4 (R281): the MSI-X table at 0, the Pending Bit Array at 0x2000. Log entry 195 (PRESUMED). Log entry 162 (DEDUCED). -/
def Dev.bar4Word (d : Dev) (p : Fin 2) (off : Nat) : Nat :=
  let h := d.port p
  let e := at' h.msix (off / 16)
  if off = 0x2000 then (if (at' h.msix 0).pending then 1 else 0) + (if (at' h.msix 1).pending then 2 else 0)
  else if 32 ≤ off then 0
  else match off % 16 / 4 with
    | 0 => e.addr % 2 ^ 32
    | 1 => e.addr / 2 ^ 32
    | 2 => e.data
    | _ => if e.masked then 1 else 0

/-- A configuration write; what it unmasks is sent if pending (R281 to R283, R291). Log entry 162 (DEDUCED). -/
def Dev.configWrite (d : Dev) (p : Fin 2) (w : ConfigWrite) : Dev :=
  match w with
  | .bar n val => d.setPort p fun h => { h with bars := h.bars.set n (if n = 2 then val % 2 ^ 32 else val % 2 ^ 64) }
  | .msixControl en mask => ((d.setPort p fun h => { h with msixOn := en, msixMask := mask }).unmasked p 0).unmasked p 1
  | .msixEntry v addr data masked =>
    (d.setPort p fun h => { h with msix := h.msix.modify v fun e =>
      { e with addr := addr % 2 ^ 64, data := data % 2 ^ 32, masked := masked } }).unmasked p v
  | .aerClear bits => d.setPort p fun h => { h with aerStatus := h.aerStatus - Nat.land h.aerStatus bits }
  | .power d3 => d.setPort p fun h => { h with d3hot := d3 }
  | .busMaster en => ((d.setPort p fun h => { h with busMaster := en }).unmasked p 0).unmasked p 1
  | .maxPayload n => d.setPort p fun h => { h with maxPayload := max 128 n }

/-! ### Ethernet ports and uploads (R296 to R298) -/

def Dev.upload (d : Dev) (e : Nat) : Upload := at' d.hst.uploads e

def Dev.setUpload (d : Dev) (e : Nat) (f : Upload → Upload) : Dev := { d with hst.uploads := d.hst.uploads.modify e f }

/-- A job ends: STATE DONE, ERR and UPLOAD_DONE to the host that wrote GO. -/
def Dev.endUpload (d : Dev) (e err : Nat) : Dev :=
  let u := d.upload e
  let d := ((d.setUpload e fun u => { u with running := false }).wr F.ETH_STAT_STATE e 2).wr F.ETH_STAT_ERR e err
  d.raise (toWriter u.host) 0x1401 [(2, u.tag), (4, u.sent), (1, err)]

/-- A write to ETH_UP_CTRL. Log entry 107 (DEDUCED). -/
def Dev.wUpload (d : Dev) (m : Master) (e val mask : Nat) : Dev :=
  let d := d.store R.ETH_UP_CTRL e val mask
  if (Nat.land val mask).testBit 0 && !(d.upload e).running then
    let len := d.rd F.ETH_UP_SRC_LEN e
    let d := d.setUpload e fun _ => { running := true, host := portOf m, secure := d.secureMaster m, src := d.rd F.ETH_UP_SRC_SRC e
                                      len := len, sent := 0, tag := d.rd F.ETH_UP_CTRL_TAG e }
    let d := d.wr F.ETH_STAT_STATE e 1
    if len = 0 then d.endUpload e 0 else d
  else d

/-- The one's-complement checksum of an IPv4 header's 16-bit words. Log entry 42 (PRESUMED). -/
def ipSum (ws : List Nat) : Nat :=
  let s := ws.foldl (· + ·) 0
  let s := s % 65536 + s / 65536
  65535 - (s % 65536 + s / 65536)

/-- A datagram with n bytes of data: Ethernet, IPv4 and UDP headers, the upload header, the data (R297). The IP identification is
not stated. Log entry 42 (PRESUMED). -/
def Dev.datagram (d : Dev) (e : Nat) (u : Upload) (data : List Byte) (ident : Nat) : List Byte :=
  let ip := fun (n : Nat) => beBytes 4 n
  let src := d.rd F.TB_PORT_IP_ADDR e
  let dst := d.rd F.ETH_UP_ADDR_DST_IP e
  let udp := 8 + 16 + data.length
  let dscp := d.rd F.ETH_UP_DST_DSCP e * 4
  let words := [0x4500 + dscp, 20 + udp, ident, 0x4000, 0x4011, src / 65536, src % 65536, dst / 65536, dst % 65536]
  leBytes 6 (d.rd F.ETH_UP_DST_DST_MAC e) ++ leBytes 6 (d.rd F.ETH_MAC_MAC e) ++ beBytes 2 0x0800 ++
    beBytes 2 (0x4500 + dscp) ++ beBytes 2 (20 + udp) ++ beBytes 2 ident ++ beBytes 2 0x4000 ++ beBytes 2 0x4011 ++
    beBytes 2 (ipSum words) ++ ip src ++ ip dst ++
    beBytes 2 (d.rd F.ETH_UP_ADDR_SRC_PORT e) ++ beBytes 2 (d.rd F.ETH_UP_ADDR_DST_PORT e) ++ beBytes 2 udp ++ beBytes 2 0 ++
    pack [(2, 1), (2, u.tag), (4, u.sent), (4, u.len), (4, crc32 data)] ++ data

/-- The next datagram of a job; a refused or uncorrectable granule ends it there (R298). Log entry 107 (DEDUCED). -/
def Dev.uploadDatagram (d : Dev) (e : Fin 2) : Dev :=
  let u := d.upload e
  if d.frontHeld || (!u.running || !(d.funcOn (.eth e) && d.on F.ETH_STAT_LINK e)) then d
  else
    let n := min 1456 (u.len - u.sent)
    match d.readSource (14 + e) u.secure u.host (u.src + u.sent) n with
    | (bs, false, d) =>
      let (ident, d) := d.free 65536
      let d := (d.emit (.datagram e (d.datagram e u bs ident))).count F.ETH_COUNT_TX_UP e 1
      let d := d.setUpload e fun u => { u with sent := u.sent + n }
      if u.len ≤ u.sent + n then d.endUpload e 0 else d
    | (_, true, d) => d.endUpload e 1

/-- A change of an Ethernet port's link state. Log entry 107 (DEDUCED). -/
def Dev.ethLink (d : Dev) (e : Fin 2) (up : Bool) : Dev :=
  if d.on F.ETH_STAT_LINK e = up ∨ (up ∧ (d.func (.eth e)).st = .off) then d
  else
    let d := (d.wrB F.ETH_STAT_LINK e up).raise .secure 0x1402 [(1, e), (1, if up then 1 else 0)]
    if !up && (d.upload e).running then d.endUpload e 2 else d

/-- A frame that is not taken: no PTP message for the port, or with a bad FCS (R296). Log entry 107 (DEDUCED). -/
def Dev.ethFrame (d : Dev) (e : Fin 2) (badFcs : Bool) : Dev :=
  if !d.funcOn (.eth e) then d else d.ethDiscard e |> fun d => if badFcs then d.count F.ETH_COUNT_RX_FCS e 1 else d

/-! ### The commands -/

def execSnapReq (m : Master) (val : Nat) (s : State) : Host.Outcome State Fault Refusal :=
  s.act fun d => d.writeTo m R.GL_SNAP_REQ 0 fun d => d.wSnapReq val mask32

def execPciePortReset (p : Fin 2) (s : State) (perst : Bool := false) : Host.Outcome State Fault Refusal :=
  s.actInOrder fun d => d.resetPort p perst

def execPcieLinkUp (p : Fin 2) (speed width : Nat) (s : State) (perst : Bool := true) : Host.Outcome State Fault Refusal :=
  s.act fun d => d.linkComesUp p speed width perst

def execDoorbellWrite (m : Master) (p : Fin 2) (val : Nat) (s : State) : Host.Outcome State Fault Refusal :=
  s.act fun d => d.writeOwn m p R.HST_DOORBELL p fun d => d.wDoorbell p val

def execEventPost (s : State) : Host.Outcome State Fault Refusal := s.act Dev.eventPost

def execEventRingWrite (p : Fin 2) (s : State) : Host.Outcome State Fault Refusal := s.act fun d => d.ringWrite p

def execEvrEnable (m : Master) (p : Fin 2) (val : Nat) (s : State) : Host.Outcome State Fault Refusal :=
  s.act fun d => d.writeOwn m p R.HST_EVR_CFG p fun d => d.wEvrCfg p val mask32

def execEvrDisable (m : Master) (p : Fin 2) (val : Nat) (s : State) : Host.Outcome State Fault Refusal :=
  s.act fun d => d.writeOwn m p R.HST_EVR_CFG p fun d => d.wEvrCfg p val mask32

def execEvrTailWrite (m : Master) (p : Fin 2) (val : Nat) (s : State) : Host.Outcome State Fault Refusal :=
  s.act fun d => d.writeOwn m p R.HST_EVR_TAIL p fun d => d.store R.HST_EVR_TAIL p val mask32

def execMsixModerationEnd (p : Fin 2) (s : State) : Host.Outcome State Fault Refusal := s.act fun d => d.moderationEnd p

def execSnapDmaGo (m : Master) (p : Fin 2) (val : Nat) (s : State) : Host.Outcome State Fault Refusal :=
  s.act fun d => d.writeOwn m p R.HST_SNAP_CTRL p fun d => d.wSnapCtrl p val mask64

def execSnapDmaStart (p : Fin 2) (s : State) : Host.Outcome State Fault Refusal := s.act fun d => d.copyStart p

def execSnapDmaDone (p : Fin 2) (s : State) : Host.Outcome State Fault Refusal := s.act fun d => d.copyDone p

def execSnapDmaTimeout (p : Fin 2) (s : State) : Host.Outcome State Fault Refusal :=
  s.act fun d => if (d.port p).snap.running then d.cutCopy p 3 else d

def execEthFrameDiscard (e : Fin 2) (badFcs : Bool) (s : State) : Host.Outcome State Fault Refusal := s.act fun d => d.ethFrame e badFcs

def execEthLink (e : Fin 2) (up : Bool) (s : State) : Host.Outcome State Fault Refusal := s.actInOrder fun d => d.ethLink e up

def execUploadGo (m : Master) (e : Fin 2) (val : Nat) (s : State) : Host.Outcome State Fault Refusal :=
  s.act fun d => d.writeTo m R.ETH_UP_CTRL e fun d => d.wUpload m e val mask32

def execUploadDatagram (e : Fin 2) (s : State) : Host.Outcome State Fault Refusal := s.act fun d => d.uploadDatagram e

def execPcieConfigWrite (p : Fin 2) (w : ConfigWrite) (s : State) : Host.Outcome State Fault Refusal := s.act fun d => d.configWrite p w

def execHstApbaseWrite (m : Master) (p : Fin 2) (val : Nat) (s : State) : Host.Outcome State Fault Refusal :=
  s.act fun d => d.writeOwn m p R.HST_APBASE p fun d => d.store R.HST_APBASE p val mask64

def execBar2Read (p : Fin 2) (off len : Nat) (s : State) : Host.Outcome State Fault Refusal := s.act fun d => d.bar2Read p off len

def execBar2Write (p : Fin 2) (off : Nat) (data : List Byte) (s : State) : Host.Outcome State Fault Refusal :=
  s.act fun d => d.bar2Write p off data

end Sys2Proof.Machine
end

