-- ==== Sys2Proof/Machine/Motion.lean ====
section
/-!
DEFINITION. Chapter 18: the stepper axes, their profile generator, coarse steps, switches, homing, stall and the capping move.
Speeds are in 1/25,000 microstep/s, so that one tick of acceleration adds ACCEL exactly.
-/

namespace Sys2Proof.Machine

/-! ### Square and cube roots, rounded down -/

/-- The largest r below 2^n with r * r at most x. -/
def isqrt (x : Nat) : Nat → Nat → Nat
  | 0, base => base
  | n + 1, base => if (base + 2 ^ n) * (base + 2 ^ n) ≤ x then isqrt x n (base + 2 ^ n) else isqrt x n base

/-- The largest r below 2^n with r * r * r at most x. -/
def icbrt (x : Nat) : Nat → Nat → Nat
  | 0, base => base
  | n + 1, base =>
    let r := base + 2 ^ n
    if r * r * r ≤ x then icbrt x n r else icbrt x n base

/-! ### An axis -/

def Dev.mAxis (d : Dev) (n : Nat) : MotAxis := at' d.mot.axes n

def Dev.setAxis (d : Dev) (n : Nat) (f : MotAxis → MotAxis) : Dev := { d with mot.axes := d.mot.axes.modify n f }

/-- MOTION: 0 IDLE, 1 MOVING, 2 HOMING, 3 FOLLOWING. -/
def Dev.motion (d : Dev) (n : Nat) : Nat := d.rd F.MOT_n_STAT_MOTION n

def Dev.setMotion (d : Dev) (n v : Nat) : Dev := d.wr F.MOT_n_STAT_MOTION n v

def Dev.motPos (d : Dev) (n : Nat) : Int := d.rdS F.MOT_n_POS_POS n

def Dev.motOn (d : Dev) (n : Fin 4) : Bool := d.funcOn (.mot n)

/-- M1 is ganged to M0 (R329). Log entry 118 (DEDUCED). -/
def Dev.ganged (d : Dev) : Bool := d.on F.MOT_n_CFG_GANG 1

/-- The axis whose profile and homing registers govern an axis (R329). -/
def Dev.paramOf (d : Dev) (n : Nat) : Nat := if n = 1 ∧ d.ganged then 0 else n

/-- The axes that a request to axis n moves: a ganged M0 brings M1, and a ganged M1 takes none of its own. Log entry 118 (DEDUCED). -/
def Dev.gangOf (d : Dev) (n : Nat) : List Nat :=
  if d.ganged then (if n = 0 then [0, 1] else if n = 1 then [] else [n]) else [n]

/-- Signed travel from one 32-bit position to another. -/
def travel (a b : Int) : Int := toSigned 32 (ofSigned 32 (b - a))

/-- Speed scale: 25,000 per microstep/s; a tick at speed v moves v / 625,000,000 microsteps. Log entry 110 (DESIGN CHOICE). -/
def vScale : Nat := 25000
/-- Log entry 110 (DESIGN CHOICE). -/
def stepUnit : Nat := 625000000

/-- M1 emits M0's microsteps (R329). -/
def Dev.mirrored (d : Dev) (n : Nat) : Bool :=
  decide (n = 1) && (d.ganged && (decide (d.motion 1 = 1) || decide (d.motion 1 = 3)))

/-- The axis whose generator moves an axis. -/
def Dev.driver (d : Dev) (n : Nat) : Nat := if d.mirrored n then 0 else n

/-- The speed of an axis. -/
def Dev.speedOf (d : Dev) (n : Nat) : Nat := (d.mAxis (d.driver n)).v

/-- Show VEL (signed microsteps/s), for a mirrored M1 too. Log entry 120 (DEDUCED). -/
def Dev.showVel (d : Dev) (n : Nat) (up : Bool) : Dev :=
  let v : Int := (d.mAxis n).v / vScale
  let v := if up then v else -v
  let d := d.wrS F.MOT_n_POS_VEL n v
  if n = 0 && d.mirrored 1 then d.wrS F.MOT_n_POS_VEL 1 v else d

/-! ### Stopping (R324) -/

/-- Mark the position LOST. -/
def Dev.markLost (d : Dev) (n : Nat) : Dev := (d.wr F.MOT_n_STAT_LOST n 1).wr F.MOT_n_STAT_HOMED n 0

/-- What a stop ends on an axis: its motion, schedule and held request. Log entry 121 (DEDUCED). -/
def Dev.haltAxis (d : Dev) (n : Nat) : Dev :=
  let d := d.setAxis n fun a => { a with due := [], held := none, v := 0, frac := 0, goal := .target, loads := 0, run := false, soft := false }
  ((d.setMotion n 0).wr F.MOT_n_STAT_MOVE_PENDING n 0).wr F.MOT_n_POS_VEL n 0

/-- An axis moves faster than VSTART, so a stop loses its position (R324). -/
def Dev.fast (d : Dev) (n : Nat) : Bool := decide ((d.rd F.MOT_n_SPEED_VSTART (d.paramOf n)) * vScale < d.speedOf n)

/-- One axis stops with a cause (R324): `fast` says whether it was above VSTART, `extra` is the event of the cause itself. -/
def Dev.stopOne (d : Dev) (n cause : Nat) (fast : Bool) (extra : Dev → Dev) : Dev :=
  let lost := fast || decide (d.motion n = 2) || decide (cause = 5) || decide (cause = 11)
  let d := d.haltAxis n
  let d := if lost then d.markLost n else d
  let d := d.wr F.MOT_n_STAT_STOP_CAUSE n cause
  let d := if cause = 1 then d else d.count F.MOT_n_COUNT_STOPS n 1
  let d := if cause = 4 then d.count F.MOT_n_COUNT_CHATTER n 1 else d
  let d := if cause = 5 then d.count F.MOT_n_COUNT_STALLS n 1 else d
  let d := if cause = 6 then d.setAxis n fun a => { a with low := true } else d
  let d := d.raise .secure 0x1005 [(1, n), (1, cause), (1, d.rd F.MOT_n_STAT_LOST n)]
  let d := extra d
  if lost then d.raise .secure 0x1008 [(1, n), (1, cause)] else d

/-- The end of the capping move (R331): CAP_DONE to the Secure hosts and to the host that wrote GO. Log entry 119 (DEDUCED). -/
def Dev.endCap (d : Dev) (port : Option (Fin 2)) (result : Nat) : Dev :=
  let d := { d with mot.cap := none }
  let d := (d.wr F.MOT_CAP_CTRL_BUSY 0 0).wr F.MOT_CAP_CTRL_RESULT 0 result
  d.raise (.secureAnd port) 0x1009 [(1, result)]

/-- An axis stops: a ganged partner stops with cause GANG, or with one of its own in the same cycle that has a lower number (R324, R329): `mate`. A
capping move ends (R331). Log entries 116 (DEDUCED), 121 (DEDUCED). -/
def Dev.motStop (d : Dev) (n cause : Nat) (extra : Dev → Dev := id) (mate : Nat := 10) : Dev :=
  let other := d.fast (1 - n)
  let d := d.stopOne n cause (d.fast n) extra
  let d := if d.ganged ∧ n < 2 then d.stopOne (1 - n) (min mate 10) other id else d
  match d.mot.cap with
  | some c => if n < 3 then d.endCap c.port 1 else d
  | none => d

/-- Every axis that is ON is disabled in the same cycle: of two ganged axes each records GANG, which the other's stop gives it and which is the
lower number (R324, R329). -/
def Dev.disableAll (d : Dev) : Dev :=
  let other := fun (n : Fin 4) => d.ganged && (decide (n.val < 2) && d.motOn (if n = 0 then 1 else 0))
  let stops := (List.finRange 4).filter fun (n : Fin 4) => d.motOn n || other n
  let d' := stops.foldl (fun (d' : Dev) (n : Fin 4) => d'.stopOne n (if other n then 10 else 11) (d.motOn n || d.fast n) id) d
  match d.mot.cap with
  | some c => if stops.any fun n => decide (n.val < 3) then d'.endCap c.port 1 else d'
  | none => d'

/-- Stop an axis that is ON. Log entry 116 (DEDUCED). -/
def Dev.motStopOn (d : Dev) (n : Fin 4) (cause : Nat) (extra : Dev → Dev := id) : Dev :=
  if d.motOn n then d.motStop n cause extra else d

/-! ### Requests (R323) -/

/-- Why a request to an axis is refused, 0 for not at all. `locked` says whether PRINT_LOCK counts (R331). Log entry 115 (DEDUCED). -/
def Dev.refusal (d : Dev) (n : Fin 4) (home locked : Bool) : Nat :=
  let p := d.paramOf n
  if !home && d.on F.MOT_n_STAT_LOST n then 1
  else if locked && d.on F.MOT_n_CFG_PRINT_LOCK n && d.on F.WT_PAGE_ACTIVE then 2
  else if home ∧ d.rd F.MOT_n_SPEED_VSTART p < d.rd F.MOT_n_HOME_VSLOW p then 3
  else if d.on F.MOT_n_STAT_ABSENT n then 4
  else if !d.motOn n then 5
  else 0

/-- An axis stands: its speed is 0, which below VMIN begins the count of load estimates anew (R330). -/
def Dev.standStill (d : Dev) (n : Nat) : Dev :=
  d.setAxis n fun a => { a with v := 0, frac := 0, loads := if d.rd F.MOT_n_STALL_VMIN n = 0 then a.loads else 0 }

/-- Start the generator of an axis afresh (R322). -/
def Dev.freshMove (d : Dev) (n : Nat) (g : Goal) : Dev := (d.standStill n).setAxis n fun a => { a with up := true, goal := g }

/-- The cause that the switches of an axis that moves by s give it (R327): LIMIT towards an active switch, SWITCHES with both active. -/
def Dev.limitCause (d : Dev) (n : Nat) (s : Int) : Option Nat :=
  if (0 < s ∧ d.on F.MOT_n_STAT_END_IN n) ∨ (s < 0 ∧ d.on F.MOT_n_STAT_HOME_IN n) then some 2
  else if d.on F.MOT_n_STAT_HOME_IN n && d.on F.MOT_n_STAT_END_IN n then some 3
  else none

/-- The cause of the partner of a ganged axis that its switches stop as both would move by s: its own LIMIT or SWITCHES, else GANG (R324, R329). -/
def Dev.mateCause (d : Dev) (n : Nat) (s : Int) : Nat := (d.limitCause (1 - n) s).getD 10

/-- An axis that begins to move by s: its switches may stop it at once (R327). -/
def Dev.limitStop (d : Dev) (n : Nat) (s : Int) : Dev :=
  match d.limitCause n s with
  | some c => d.motStop n c id (d.mateCause n s)
  | none => d

/-- Signed travel from an axis's position to a goal. -/
def Dev.travelTo (d : Dev) (n : Nat) (g : Goal) : Int :=
  travel (d.motPos n) (match g with
    | .at p => p
    | _ => d.rdS F.MOT_n_MOVE_TARGET n)

/-- MOVING towards a goal, or FOLLOWING (R325). -/
def Dev.beginMove (d : Dev) (n : Nat) (g : Goal) : Dev :=
  if d.on F.MOT_n_CFG_SOURCE n ∧ g = .target then
    ((d.standStill n).setAxis n fun a => { a with due := [] }).setMotion n 3
  else
    ((d.freshMove n g).setMotion n 1).limitStop n (d.travelTo n g)

/-- HOMING begins in FAST_SEEK, or in BACKOFF if HOME was active when it was written (R328): if the switch has been left since, BACKOFF
microsteps remain. Log entries 112 (DEDUCED), 203 (DEDUCED). -/
def Dev.beginHome (d : Dev) (n : Nat) : Dev :=
  let onIt := (d.mAxis n).homeOn
  let left := onIt && !d.on F.MOT_n_STAT_HOME_IN n
  let away := d.motPos n + d.rd F.MOT_n_HOME_BACKOFF (d.paramOf n)
  let d := (d.freshMove n (if left then .at (toSigned 32 (ofSigned 32 away)) else if onIt then .openPos else .openNeg)).setAxis n fun a =>
    { a with seek := 0, edge := none, noHome := false, onSwitch := onIt, left := left, latched := false, soft := false }
  ((d.setMotion n 2).wr F.MOT_n_STAT_HOMED n 0).wr F.MOT_n_STAT_HOME_PHASE n (if onIt then 1 else 0)

/-- Begin a GO or a HOME on an axis and on the axis ganged to it. A ganged M1 takes M0's move. Log entry 115 (DEDUCED). -/
def Dev.beginReq (d : Dev) (n : Nat) (home : Bool) (g : Goal) : Dev :=
  (d.gangOf n).foldl (fun d k =>
    if home then d.beginHome k
    else if k = n then d.beginMove k g
    else if d.motion n = 0 then d
    else
      let d := (d.setAxis k fun a => { a with due := [], goal := g }).setMotion k (d.motion n)
      if d.motion k = 1 then d.limitStop k (d.travelTo n g) else d) d

/-- HOME is written: whether each axis that it moves lies on its switch (R328). Log entry 203 (DEDUCED). -/
def Dev.noteHome (d : Dev) (n : Nat) : Dev :=
  (d.gangOf n).foldl (fun (d : Dev) k => d.setAxis k fun a => { a with homeOn := d.on F.MOT_n_STAT_HOME_IN k }) d

/-- A GO or a HOME (R323): refused with MOVE_REFUSED for each axis that a cause holds for, held while MOTION is not IDLE, or begun; `again` if it
has been held. Log entries 115 (DEDUCED), 118 (DEDUCED). -/
def Dev.request (d : Dev) (n : Fin 4) (home locked : Bool) (g : Goal) (again : Bool := false) : Dev :=
  let axes : List (Fin 4) := (List.finRange 4).filter fun (k : Fin 4) => (d.gangOf n).contains k.val
  let bad := axes.filter fun (k : Fin 4) => decide (d.refusal k home locked ≠ 0)
  if axes = [] then d
  else if bad ≠ [] then
    let causes := bad.map fun (k : Fin 4) => (k, d.refusal k home locked)
    causes.foldl (fun d (c : Fin 4 × Nat) => d.raise .secure 0x1007 [(1, c.1), (1, c.2)]) d
  else
    let d := if home && !again then d.noteHome n else d
    if (d.gangOf n).any fun (k : Nat) => decide (d.motion k ≠ 0) then
      (d.setAxis n fun a => { a with held := some home }).wr F.MOT_n_STAT_MOVE_PENDING n 1
    else d.beginReq n home g

/-- The stopping distance of R323, rounded up, in microsteps. Log entry 111 (DEDUCED). -/
def Dev.brakeSteps (d : Dev) (n : Nat) : Nat :=
  let p := d.paramOf n
  let vs := d.rd F.MOT_n_SPEED_VSTART p * vScale
  let v := d.speedOf n
  let den := 2 * d.rd F.MOT_n_RAMP_DECEL p * vScale * vScale
  (v * v - vs * vs + den - 1) / max 1 den

/-- The direction of the last microstep of an axis. -/
def MotAxis.lastUp (a : MotAxis) : Bool := match a.hist with | (_, up) :: _ => up | [] => true

/-- The direction of motion of an axis: that of the next scheduled microstep, or to the goal, or, between two counts in FOLLOWING, that of the
last microstep. Log entry 111 (DEDUCED). -/
def Dev.headingUp (d : Dev) (n : Nat) : Bool :=
  let n := d.driver n
  match (d.mAxis n).due with
  | (_, up) :: _ => up
  | [] => if d.motion n = 3 then (d.mAxis n).lastUp else match (d.mAxis n).goal with
    | .openNeg => false
    | .openPos => true
    | .at p => decide (0 < travel (d.motPos n) p)
    | .target => decide (0 < travel (d.motPos n) (d.rdS F.MOT_n_MOVE_TARGET n))

/-- An axis is moving up, or down: one in FOLLOWING only while microsteps are due (R327). Log entry 111 (DEDUCED). -/
def Dev.movesTo (d : Dev) (n : Nat) (up : Bool) : Bool :=
  !(decide (d.motion n = 3) && (d.mAxis (d.driver n)).due.isEmpty) && decide (d.headingUp n = up)

/-- Retarget an axis so that it stops at DECEL (R323): the microsteps scheduled beyond the stopping point are dropped. -/
def Dev.brakeAxis (d : Dev) (n : Nat) : Dev :=
  let up := d.headingUp n
  let k := d.brakeSteps n
  let stop := d.motPos n + (if up then (k : Int) else -(k : Int))
  let d := d.wrS F.MOT_n_MOVE_TARGET n stop
  d.setAxis n fun a => { a with
    up := false, d := d.rd F.MOT_n_RAMP_DECEL (d.paramOf n), due := a.due.take k
    goal := if d.motion n = 2 then .at (toSigned 32 (ofSigned 32 stop)) else .target }

/-- A homing that a SOFT_STOP has ended fails once the axis stands (R328): LOST, and no cause of R324. Log entry 112 (DEDUCED). -/
def Dev.homeFails (d : Dev) (n : Nat) : Dev :=
  ((d.haltAxis n).markLost n).raise .secure 0x1008 [(1, n), (1, d.rd F.MOT_n_STAT_STOP_CAUSE n)]

/-- One axis takes a SOFT_STOP. Log entry 112 (DEDUCED). -/
def Dev.softOne (d : Dev) (k : Nat) : Dev :=
  let d := (d.setAxis k fun a => { a with held := none }).wr F.MOT_n_STAT_MOVE_PENDING k 0
  if d.motion k = 0 then d
  else if d.motion k = 3 then ((d.brakeAxis k).setAxis k fun a => { a with due := [], frac := 0 }).setMotion k 1
  else if d.motion k = 2 then
    if (d.mAxis k).latched then d.homeFails k else (d.brakeAxis k).setAxis k fun a => { a with soft := true }
  else d.brakeAxis k

/-- SOFT_STOP (R323): held requests are discarded and a moving axis brakes; FOLLOWING ends as a move does, homing fails (R328), and a capping
move ends (R331). Log entries 112 (DEDUCED), 116 (DEDUCED). Log entry 119 (DEDUCED). -/
def Dev.softStop (d : Dev) (n : Nat) : Dev :=
  let stops := (d.gangOf n).any fun k => decide (k < 3 ∧ d.motion k ≠ 0)
  let d := (d.gangOf n).foldl (fun (d : Dev) k => d.softOne k) d
  match d.mot.cap with
  | some c => if stops then d.endCap c.port 1 else d
  | none => d

/-! ### The generator at a tick (R322, R328) -/

/-- Schedule k microsteps at speed v from time t0, with frac carried in. Log entry 110 (DESIGN CHOICE). -/
def microTimes (t0 v frac k : Nat) (up : Bool) : List (Nat × Bool) :=
  (List.range k).map fun j => (t0 + ((j + 1) * stepUnit - frac) * 40000 / max 1 v, up)

/-- The net microsteps scheduled. -/
def netDue (a : MotAxis) : Int := a.due.foldl (fun n p => n + if p.2 then 1 else -1) 0

/-- Emit at speed v until the next tick, at most lim microsteps. -/
def Dev.emitRun (d : Dev) (n v lim : Nat) (up : Bool) : Dev :=
  let a := d.mAxis n
  let k := min lim ((a.frac + v) / stepUnit)
  let d := d.setAxis n fun a => { a with
    v := v, frac := (a.frac + v) % stepUnit, due := a.due ++ microTimes d.tmb.openT v a.frac k up }
  d.showVel n up

/-- The speed of one tick of R322 with s microsteps to go, if the target is not open, and the generator's state after it. -/
def Dev.ramp (d : Dev) (n : Nat) (s : Option Nat) : Nat × Dev :=
  let p := d.paramOf n
  let a := d.mAxis n
  let vs := d.rd F.MOT_n_SPEED_VSTART p * vScale
  let vm := d.rd F.MOT_n_SPEED_VMAX p * vScale
  let decel := d.rd F.MOT_n_RAMP_DECEL p
  let v := if a.up then min vm (max a.v vs + d.rd F.MOT_n_RAMP_ACCEL p) else a.v
  let square := fun (decel : Nat) => s.map fun s => vs * vs + 2 * decel * s * vScale * vScale
  let turn := a.up && (match square decel with | some q => decide (q ≤ v * v) | none => false)
  let dd := if turn then decel else if a.up then a.d else max a.d decel
  let v := if a.up && !turn then v else match square dd with | some q => min v (isqrt q 40 0) | none => v
  (v, d.setAxis n fun a => { a with up := a.up && !turn, d := dd })

/-- A move has reached its goal: idle, MOVE_DONE (R322), a ganged M1 with it. -/
def Dev.moveDone (d : Dev) (n : Nat) : Dev :=
  (d.gangOf n).foldl (fun d k =>
    let d := ((d.standStill k).setAxis k fun a => { a with goal := .target }).setMotion k 0
    let d := (d.wr F.MOT_n_POS_VEL k 0).count F.MOT_n_COUNT_MOVES k 1
    d.raise .secure 0x1001 [(1, k), (4, d.rd F.MOT_n_POS_POS k)]) d

/-- The next homing phase of an axis that has come to its goal (R328). -/
def Dev.homePhaseDone (d : Dev) (n : Nat) : Dev :=
  let a := d.mAxis n
  let p := d.paramOf n
  if a.soft then d.homeFails n
  else if d.rd F.MOT_n_STAT_HOME_PHASE n = 0 then
    if a.noHome then d.motStop n 8
    else
      let goal := a.edge.getD (d.motPos n) + d.rd F.MOT_n_HOME_BACKOFF p
      (d.freshMove n (.at (toSigned 32 (ofSigned 32 goal)))).wr F.MOT_n_STAT_HOME_PHASE n 1
  else (d.freshMove n .openNeg).wr F.MOT_n_STAT_HOME_PHASE n 2

/-- Homing runs at VSLOW in SLOW_SEEK and in a BACKOFF begun on the switch. -/
def Dev.slowPhase (d : Dev) (n : Nat) : Bool :=
  decide (d.rd F.MOT_n_STAT_HOME_PHASE n = 2) || (decide (d.rd F.MOT_n_STAT_HOME_PHASE n = 1) && (d.mAxis n).onSwitch)

/-- One tick of an axis that the generator moves: what is still scheduled counts as travelled. Log entry 110 (DESIGN CHOICE). -/
def Dev.runAxis (d : Dev) (n : Nat) : Dev :=
  let a := d.mAxis n
  let pos := d.motPos n + netDue a
  let s : Option Int := match a.goal with
    | .openNeg | .openPos => none
    | .at p => some (travel pos p)
    | .target => some (travel pos (d.rdS F.MOT_n_MOVE_TARGET n))
  let homing := decide (d.motion n = 2)
  match s with
  | some 0 => if a.due ≠ [] then d else if homing then d.homePhaseDone n else d.moveDone n
  | _ =>
    let up := match s with
      | some s => decide (0 < s)
      | none => decide (a.goal = .openPos)
    let lim := match s with
      | some s => s.natAbs
      | none => 2 ^ 40
    if homing && (d.slowPhase n && !a.soft) then d.emitRun n (d.rd F.MOT_n_HOME_VSLOW (d.paramOf n) * vScale) lim up
    else
      let (v, d) := d.ramp n (s.map Int.natAbs)
      d.emitRun n v lim up

/-- The tick of one axis: a held request starts on an idle axis, then the generator runs. A ganged M1 follows M0's moves. An axis that follows
stands once 10 ms have passed without a count (R325). Log entry 120 (DEDUCED). Log entry 122 (DESIGN CHOICE). -/
def Dev.motAxisTick (d : Dev) (n : Fin 4) : Dev :=
  let d := d.setAxis n fun a => { a with hist := a.hist.takeWhile fun h => decide (d.tmb.openT ≤ h.1 + 20100000) }
  let d := match (d.mAxis n).held with
    | some home =>
      if (d.gangOf n).any fun (k : Nat) => decide (d.motion k ≠ 0) then d
      else
        let d := (d.setAxis n fun a => { a with held := none }).wr F.MOT_n_STAT_MOVE_PENDING n 0
        d.request n home true .target true
    | none => d
  let d := if d.motion n = 3 ∧ ((d.mAxis n).due = [] ∧ d.web.f0Last + 10000000 ≤ d.tmb.openT) then
      (d.standStill n).showVel n true else d
  if !d.motOn n then d
  else if d.motion n = 2 then (if (d.mAxis n).latched then d else d.runAxis n)
  else if d.motion n = 1 ∧ ¬ (n = 1 ∧ d.ganged) then d.runAxis n
  else d

/-! ### The capping move (R331) -/

/-- The axes of a step of the capping move. -/
def capAxes (step : Nat) : List (Fin 4) := if step = 1 ∨ step = 3 then [2] else [0, 1]

/-- Make the requests of a step. Log entries 112 (DEDUCED), 119 (DEDUCED). -/
def Dev.capIssue (d : Dev) (step : Nat) : Dev :=
  let move := fun (d : Dev) (n : Fin 4) (v : Int) => d.request n false false (.at v)
  match step with
  | 0 =>
    let need := fun (n : Nat) => !d.on F.MOT_n_STAT_HOMED n
    if d.ganged then (if need 0 || need 1 then d.request 0 true false .target else d)
    else
      let d1 := if need 0 then d.request 0 true false .target else d
      if need 1 then d1.request 1 true false .target else d1
  | 1 => if d.on F.MOT_n_STAT_HOMED 2 then d else d.request 2 true false .target
  | 2 => let v := d.rdS F.MOT_CAP_POS_LIFT_CLEAR; move (move d 0 v) 1 v
  | 3 => move d 2 (d.rdS F.MOT_CAP_TRAY_TRAY_CAP)
  | _ => let v := d.rdS F.MOT_CAP_POS_LIFT_SEAT; move (move d 0 v) 1 v

/-- The refusals that a step's requests would meet. Log entry 119 (DEDUCED). -/
def Dev.capBlocked (d : Dev) (step : Nat) : List (Fin 4 × Nat) :=
  ((capAxes step).filter fun (n : Fin 4) =>
    decide (2 ≤ step) || (!d.on F.MOT_n_STAT_HOMED n ||
      (d.ganged && decide (n.val < 2) && (!d.on F.MOT_n_STAT_HOMED 0 || !d.on F.MOT_n_STAT_HOMED 1)))).filterMap fun (n : Fin 4) =>
    let c := d.refusal n (decide (step < 2)) false
    if c = 0 then none else some (n, c)

/-- The capping move at a tick: a step whose axes are idle again ends, and the next one starts. -/
def Dev.capTick (d : Dev) : Dev :=
  match d.mot.cap with
  | none => d
  | some c =>
    let idle := (capAxes c.step).all fun (n : Fin 4) => decide (d.motion n = 0)
    if !idle then d
    else
      let c := if c.issued then { c with step := c.step + 1, issued := false } else c
      if 4 < c.step then d.endCap c.port 0
      else if !((capAxes c.step).all fun (n : Fin 4) => decide (d.motion n = 0)) then { d with mot.cap := some c }
      else if d.capBlocked c.step ≠ [] then
        ((d.capBlocked c.step).foldl (fun d (r : Fin 4 × Nat) => d.raise .secure 0x1007 [(1, r.1), (1, r.2)]) d).endCap c.port 1
      else ({ d with mot.cap := some { c with issued := true } }).capIssue c.step

/-- Start the capping move, from a host or from bind-off (R331). Log entry 119 (DEDUCED). -/
def Dev.capStart (d : Dev) (port : Option (Fin 2)) : Dev :=
  if d.mot.cap.isSome then d
  else if [(0 : Fin 4), 1, 2].any fun (n : Fin 4) => d.on F.MOT_n_STAT_ABSENT n || !d.motOn n then d.endCap port 3
  else { (d.wr F.MOT_CAP_CTRL_BUSY 0 1) with mot.cap := some { port := port } }

/-- The check of cast-on step 15 begins on a stepper axis: it is OFF, and stays so until the check ends (R332). -/
def Dev.motCheck (d : Dev) (n : Fin 4) : Dev := (d.setMotion n 0).setAxis n fun _ => { check := some d.now }

/-- The tick of the motion unit. -/
def Dev.motTick (d : Dev) : Dev :=
  ((List.finRange 4).foldl (fun (d : Dev) (n : Fin 4) => d.motAxisTick n) d.capTick)

/-! ### Microsteps (R320, R325, R327, R330) -/

/-- One axis's position moves by one microstep emitted at t. -/
def Dev.stepAxis (d : Dev) (n t : Nat) (up : Bool) : Dev :=
  let d := d.wrS F.MOT_n_POS_POS n (d.motPos n + if up then 1 else -1)
  d.setAxis n fun a => { a with last := t, run := true, hist := (t, up) :: a.hist }

/-- The load estimate of a full step (R330): `load` is what the induced voltage gives. -/
def Dev.loadStep (d : Dev) (n load : Nat) : Dev :=
  if !d.on F.MOT_n_CFG_STALL_EN n then d
  else if d.speedOf n < d.rd F.MOT_n_STALL_VMIN n * vScale then d.setAxis n fun a => { a with loads := 0 }
  else if d.rd F.MOT_n_POS_POS n % 256 ≠ 0 then d
  else
    let load := min load 255
    let d := d.wr F.MOT_n_STAT_LOAD n load
    d.setAxis n fun a => { a with loads := if d.rd F.MOT_n_STALL_LIMIT n ≤ load then a.loads + 1 else 0 }

/-- SEEK_MAX microsteps without the edge: stop at DECEL (R328). -/
def Dev.seekStep (d : Dev) (n : Nat) : Dev :=
  if d.motion n = 2 ∧ d.rd F.MOT_n_STAT_HOME_PHASE n = 0 ∧ (d.mAxis n).edge = none ∧ (d.mAxis n).noHome = false ∧ (d.mAxis n).soft = false then
    let d := d.setAxis n fun a => { a with seek := a.seek + 1 }
    if d.rd F.MOT_n_HOME_POS_SEEK_MAX (d.paramOf n) ≤ (d.mAxis n).seek then
      (d.brakeAxis n).setAxis n fun a => { a with noHome := true }
    else d
  else d

/-- A switch lies debounced active in the direction of a microstep (R327). -/
def Dev.atLimit (d : Dev) (n : Nat) (up : Bool) : Bool := d.on (if up then F.MOT_n_STAT_END_IN else F.MOT_n_STAT_HOME_IN) n

/-- The next scheduled microstep of an axis, due at or before t and at least 500 ns after the last. -/
def Dev.microstep (d : Dev) (n : Fin 4) (t load : Nat) : Dev :=
  let a := d.mAxis n
  match a.due with
  | [] => if d.mirrored n then d.loadStep n load else d
  | (tm, up) :: rest =>
    if t < tm ∨ (a.last ≠ 0 ∧ t < a.last + 500) then d
    else if d.motion n ≠ 2 ∧ d.atLimit n up then d.motStop n 2 id (if n = 0 ∧ d.mirrored 1 ∧ d.atLimit 1 up then 2 else 10)
    else if n = 0 ∧ d.mirrored 1 ∧ d.atLimit 1 up then d.motStop 1 2
    else
      let d := (d.setAxis n fun a => { a with due := rest }).stepAxis n t up
      let d := if n = 0 ∧ d.mirrored 1 then d.stepAxis 1 t up else d
      (d.loadStep n load).seekStep n

/-- SIN[0] to SIN[256] of R319, one byte each. Log entry 129 (PRESUMED). -/
def sinTable : Nat := 0xfffffffffffffffffffffffefefefefefefefdfdfdfdfdfcfcfcfcfcfbfbfbfafafaf9f9f9f8f8f8f7f7f7f6f6f5f5f4f4f4f3f3f2f2f1f1f0f0efeeeeededececebeaeae9e8e8e7e7e6e5e4e4e3e2e2e1e0dfdfdedddcdcdbdad9d8d7d7d6d5d4d3d2d1d0d0cfcecdcccbcac9c8c7c6c5c4c3c2c1c0bfbebdbcbbbab9b8b7b5b4b3b2b1b0afaeacabaaa9a8a7a5a4a3a2a19f9e9d9c9a99989795949392908f8e8c8b8a888786848382807f7e7c7b7a787775747371706e6d6c6a696766646362605f5d5c5a595756545351504f4d4c4a4947464443413f3e3c3b393836353332302f2d2c2a2927252422211f1e1c1b191716141311100e0d0b09080605030200

/-- SIN[j] = round(255 sin(2 pi j / 1,024)) (R319). -/
def sin255 (j : Nat) : Int :=
  let k := j % 1024
  let q := fun (i : Nat) => ((sinTable / 2 ^ (8 * i) % 256 : Nat) : Int)
  if k ≤ 256 then q k else if k ≤ 512 then q (512 - k) else if k ≤ 768 then -q (k - 512) else -q (1024 - k)

/-- The target of the check of cast-on step 15, 1 ms into which `ms` lies: 64 in each phase and each polarity in turn, 1 ms each (R332). -/
def checkTarget (ms : Nat) (ph : Fin 2) : Int := if ms / 2 = ph.val then (if ms % 2 = 0 then 64 else -64) * 255 else 0

/-- The target current of a phase, in 1/65,025 of full scale: I times SIN (R319), or that of the check (R332); DIR_INV swaps the phases (R320). Log entry 113 (DEDUCED). -/
def Dev.phaseTarget (d : Dev) (n : Fin 4) (ph : Fin 2) : Int :=
  match (d.mAxis n).check with
  | some t => checkTarget ((d.now - t) / 1000000) ph
  | none =>
  let i : Int := d.rd (if (d.mAxis n).run then F.MOT_n_CURRENT_IRUN else F.MOT_n_CURRENT_IHOLD) n
  let mu := (d.motPos n % 1024).toNat
  i * sin255 (mu + if decide (ph = 1) != d.on F.MOT_n_CFG_DIR_INV n then 256 else 0)

/-- All four outputs of an axis are low (R318): not so while the check of cast-on step 15 drives them (R332). Log entry 121 (DEDUCED). -/
def Dev.bridgeLow (d : Dev) (n : Fin 4) : Bool := (d.mAxis n).check.isNone && (!(d.motOn n || decide ((d.func (.mot n)).st = .stopping)) || ((d.mAxis n).low || d.on F.MOT_n_STAT_ABSENT n))

/-- The levels of STPn_AP, STPn_AN, STPn_BP and STPn_BN as the last period of each phase began (R318, R319): driven in a sign, one high and
the other low; when a period decays slowly, both low. Log entry 113 (DEDUCED). -/
def Dev.outputs (d : Dev) (n : Fin 4) : List Bool :=
  if d.bridgeLow n then [false, false, false, false]
  else (List.range 2).flatMap fun ph => let s := (d.mAxis n).drive.getD ph 0; [decide (0 < s), decide (s < 0)]

/-- A chopping period starts (R319): the phase is driven in the sign of its target until the sensed current reaches it, then decays: for
FAST_PCT / 256 of the time left in reverse with DECAY = MIXED, and slowly. Log entry 113 (DEDUCED). -/
def Dev.chop (d : Dev) (n : Fin 4) (ph : Fin 2) : Dev :=
  if d.bridgeLow n then d
  else
    let i := d.phaseTarget n ph
    let fast := if d.on F.MOT_n_CFG_DECAY n then d.rd F.MOT_n_CURRENT_FAST_PCT n else 0
    (d.emit (.phase n ph i fast)).setAxis n fun a => { a with drive := a.drive.set ph i.sign }

/-! ### Coarse steps (R325) -/

/-- The times of the microsteps of a queue, none within 500 ns of the one before: `prev` is the time of the last. Log entries 117 (DEDUCED), 120 (DEDUCED), 122 (DESIGN CHOICE). -/
def spaced (prev : Nat) : List (Nat × Bool) → List (Nat × Bool)
  | [] => []
  | (t, up) :: r => let t' := max t prev; (t', up) :: spaced (t' + 500) r

/-- A count of F0 at t, `gap` after the one before if there was one, demands 2^COARSE microsteps. Log entry 120 (DEDUCED). -/
def Dev.follow (d : Dev) (n : Fin 4) (sign : Int) (t : Nat) (gap : Option Nat) : Dev :=
  if d.motion n ≠ 3 ∨ !d.on F.MOT_n_CFG_SOURCE n ∨ (n = 1 ∧ d.ganged) then d
  else
    let k := 2 ^ d.rd F.MOT_n_CFG_COARSE n
    let up := decide (0 < sign)
    let a := d.mAxis n
    -- interval of the count's microsteps, times k
    let slow := match gap with
      | some g => decide (10000000 ≤ g)
      | none => true
    let vs := d.rd F.MOT_n_SPEED_VSTART n
    let span := if slow then k * 1000000000 / max 1 vs else gap.getD 0
    let fresh := (List.range k).map fun j => (t + j * span / k, up)
    let first := if a.last = 0 then t else max t (a.last + 500)
    let old := a.due.map fun p => (t, p.2)
    let v := if slow then vs * vScale else k * 1000000000 * vScale / max 1 span
    let d := d.setAxis n fun a => { a with due := spaced first (old ++ fresh), v := v }
    let d := d.showVel n up
    if 4 * k < (d.mAxis n).due.length then d.motStop n 7 else d

/-! ### Switches and homing (R326 to R329) -/

/-- The position at a stamp: the microsteps emitted before it (R320, R7). Log entry 122 (DESIGN CHOICE). -/
def Dev.posAtStamp (d : Dev) (n t : Nat) : Int :=
  (d.mAxis n).hist.foldl (fun p h => if t ≤ h.1 then p - (if h.2 then 1 else -1) else p) (d.motPos n)

/-- LATCH (R328). Log entry 114 (DEDUCED). -/
def Dev.latchHome (d : Dev) (n t : Nat) : Dev :=
  let off := d.posAtStamp n t
  let p := d.paramOf n
  let d := d.wrS F.MOT_n_POS_POS n (d.rdS F.MOT_n_HOME_POS_HOME_OFFSET p + (d.motPos n - off))
  let d := (d.standStill n).setAxis n fun a => { a with due := [], goal := .target, latched := true }
  let d := (d.wr F.MOT_n_STAT_HOME_PHASE n 3).wr F.MOT_n_POS_VEL n 0
  (d.wr F.MOT_n_STAT_HOMED n 1).wr F.MOT_n_STAT_LOST n 0 |>.wr F.MOT_n_LATCH_STAMP n t

/-- Homing ends: HOME_DONE, for a ganged pair once both axes have latched (R329). Log entry 114 (DEDUCED). -/
def Dev.homeDone (d : Dev) (n : Nat) : Dev :=
  if d.ganged ∧ n < 2 then
    if (d.mAxis 0).latched ∧ (d.mAxis 1).latched then
      ((d.setMotion 0 0).setMotion 1 0).raise .secure 0x1002 [(1, 0), (8, d.rd F.MOT_n_LATCH_STAMP 0)]
    else d
  else (d.setMotion n 0).raise .secure 0x1002 [(1, n), (8, d.rd F.MOT_n_LATCH_STAMP n)]

/-- A debounced HOME change during homing. -/
def Dev.homeEdge (d : Dev) (n : Nat) (active : Bool) (t : Nat) : Dev :=
  let a := d.mAxis n
  let ph := d.rd F.MOT_n_STAT_HOME_PHASE n
  if a.latched ∨ a.soft then d
  else if active ∧ ph = 0 ∧ a.edge = none ∧ !a.noHome then
    (d.brakeAxis n).setAxis n fun a => { a with edge := some (d.posAtStamp n t) }
  else if !active ∧ ph = 1 ∧ a.onSwitch ∧ !a.left then
    let goal := d.motPos n + d.rd F.MOT_n_HOME_BACKOFF (d.paramOf n)
    d.setAxis n fun a => { a with left := true, due := [], goal := .at (toSigned 32 (ofSigned 32 goal)) }
  else if active ∧ ph = 2 then (d.latchHome n t).homeDone n
  else d

/-- A debounced change of a switch input (R326): `level` is the pin's. Log entry 117 (DEDUCED). -/
def Dev.switchChange (d : Dev) (n : Fin 4) (isEnd level : Bool) (t : Nat) : Dev :=
  let active := level != d.on (if isEnd then F.MOT_n_CFG_END_POL else F.MOT_n_CFG_HOME_POL) n
  let f := if isEnd then F.MOT_n_STAT_END_IN else F.MOT_n_STAT_HOME_IN
  if active = d.on f n then d
  else
    let d := d.wrB f n active
    if !d.motOn n ∨ d.motion n = 0 then d
    else if d.motion n = 2 then
      if isEnd then
        if active then
          (d.raise .secure 0x1003 [(1, n), (1, d.rd F.MOT_n_STAT_HOME_PHASE n)]).motStop n 9
        else d
      else d.homeEdge n active t
    else if active ∧ d.movesTo n isEnd then d.motStop n 2
    else if d.on F.MOT_n_STAT_HOME_IN n && d.on F.MOT_n_STAT_END_IN n then d.motStop n 3
    else d

/-! ### Registers -/

/-- A write to MOT_n_MOVE (R323, R324): TARGET, then STOP, which wins, SOFT_STOP, GO and HOME. -/
def Dev.wMove (d : Dev) (n : Fin 4) (val mask : Nat) : Dev :=
  let d := d.store R.MOT_n_MOVE n val mask
  let v := Nat.land val mask
  if v.testBit 34 then d.motStopOn n 1
  else
    let d := if v.testBit 33 ∧ d.motOn n then d.softStop n else d
    let d := if v.testBit 32 then d.request n false true .target else d
    if v.testBit 35 then d.request n true true .target else d

/-- A write to MOT_CAP_CTRL (R331). A GO while the move runs changes nothing. -/
def Dev.wCap (d : Dev) (m : Master) (val mask : Nat) : Dev :=
  if !(Nat.land val mask).testBit 0 ∨ d.mot.cap.isSome then d
  else if d.pageRuns ∧ d.sys.bindOff.isNone then d.endCap (portOf m) 2
  else d.capStart (portOf m)

/-! ### Commands -/

def execF0Step (dir setupOk : Bool) (t : Nat) (s : State) : Host.Outcome State Fault Refusal :=
  s.actInOrder fun d =>
    let before := d.web.f0Last
    let (sign, d) := d.f0Step dir setupOk t
    if sign = 0 then d
    else (List.finRange 4).foldl (fun (d : Dev) (n : Fin 4) =>
      d.follow n sign t (if before = 0 then none else some (t - before))) d

def execChopPeriod (n : Fin 4) (phase : Fin 2) (s : State) : Host.Outcome State Fault Refusal := s.act fun d => d.chop n phase

def execStepperOvercurrent (n : Fin 4) (s : State) : Host.Outcome State Fault Refusal := s.actInOrder fun d => d.motStopOn n 6

def execMicrostepEmit (n : Fin 4) (t bemf : Nat) (s : State) : Host.Outcome State Fault Refusal :=
  s.actInOrder fun d => d.microstep n t bemf

/-- HOLD_DELAY after the last microstep (R319). -/
def execHoldCurrentTimer (n : Fin 4) (s : State) : Host.Outcome State Fault Refusal :=
  s.act fun d => if (d.mAxis n).due = [] then d.setAxis n fun a => { a with run := false } else d

/-- A write with GO: 8 bytes, or the high word (R29). -/
def execMoveGo (m : Master) (n : Fin 4) (bytes val : Nat) (s : State) : Host.Outcome State Fault Refusal :=
  s.actInOrder fun d => d.writeTo m R.MOT_n_MOVE n fun d =>
    if bytes = 8 then d.wMove n (Nat.lor (val % 2 ^ 64) (2 ^ 32)) mask64
    else d.wMove n (Nat.lor (val % 2 ^ 32) 1 * 2 ^ 32) maskHi

def execMoveSoftStop (m : Master) (n : Fin 4) (s : State) : Host.Outcome State Fault Refusal :=
  s.actInOrder fun d => d.writeTo m R.MOT_n_MOVE n fun d => d.wMove n (2 ^ 33) maskHi

def execMoveStop (m : Master) (n : Fin 4) (s : State) : Host.Outcome State Fault Refusal :=
  s.actInOrder fun d => d.writeTo m R.MOT_n_MOVE n fun d => d.wMove n (2 ^ 34) maskHi

def execMoveHome (m : Master) (n : Fin 4) (s : State) : Host.Outcome State Fault Refusal :=
  s.actInOrder fun d => d.writeTo m R.MOT_n_MOVE n fun d => d.wMove n (2 ^ 35) maskHi

def execCapGo (m : Master) (s : State) : Host.Outcome State Fault Refusal :=
  s.act fun d => d.writeTo m R.MOT_CAP_CTRL 0 fun d => d.wCap m 1 mask32

def execSwitchChange (n : Fin 4) (isEnd level : Bool) (t : Nat) (s : State) : Host.Outcome State Fault Refusal :=
  s.actInOrder fun d => d.switchChange n isEnd level t

def execSwitchChatter (n : Fin 4) (isEnd : Bool) (s : State) : Host.Outcome State Fault Refusal :=
  s.actInOrder fun d => (d.raise .secure 0x1004 [(1, n), (1, if isEnd then 1 else 0)]).motStopOn n 4

/-- STALL_COUNT estimates in a row at or above LIMIT (R330). -/
def execAxisStall (n : Fin 4) (s : State) : Host.Outcome State Fault Refusal :=
  s.actInOrder fun d =>
    if d.on F.MOT_n_CFG_STALL_EN n ∧ d.rd F.MOT_n_STALL_STALL_COUNT n ≤ (d.mAxis n).loads then
      let load := d.rd F.MOT_n_STAT_LOAD n
      d.motStopOn n 5 fun d => d.raise .secure 0x1006 [(1, n), (1, load)]
    else d

end Sys2Proof.Machine
end

