-- ==== Sys2Proof/Machine/Servo.lean ====
section
/-!
DEFINITION. Chapter 19: the registration servo. Positions y are in 2^-16 count, the generator's p, v, a, d and j in 2^-64 count,
q and i in 2^-24 current unit; the spec gives no rounding for the stages, and every division rounds down (log entry 60).
-/

namespace Sys2Proof.Machine

/-! ### An axis -/

def Dev.sAxis (d : Dev) (a : Nat) : SrvAxis := at' d.srv.axes a

def Dev.setSrv (d : Dev) (a : Nat) (f : SrvAxis → SrvAxis) : Dev := { d with srv.axes := d.srv.axes.modify a f }

/-- The axis's entry of the SERVO section (R47). -/
def Dev.servoSec (d : Dev) (a : Nat) : ServoSec := at' d.pat.loaded.servo a

/-- The web-tracker channel that feeds an axis, if one does (R335). -/
def Dev.qFeed (d : Dev) (a : Nat) : Option (Fin 4) :=
  match (d.servoSec a).feedback with
  | 0 => some 1
  | 1 => some 2
  | _ => none

/-- The axis commutates from its Q channel, so that it must be aligned (R339). -/
def Dev.mustAlign (d : Dev) (a : Nat) : Bool := (d.qFeed a).isSome && decide ((d.servoSec a).commutation = 2)

/-- MOTION: 0 HOLD, 1 MOVING, 2 REFERENCING, 3 FAULTED. -/
def Dev.srvMotion (d : Dev) (a : Nat) : Nat := d.rd F.SV_a_STAT_MOTION a

def Dev.srvState (d : Dev) (a : Fin 2) : FuncState := (d.func (.srv a)).st

/-- The axis runs: it is starting, on or stopping, and not under the check of cast-on step 15. -/
def Dev.srvRuns (d : Dev) (a : Fin 2) : Bool :=
  !(d.sAxis a).checking &&
    (decide (d.srvState a = .starting) || (decide (d.srvState a = .on) || decide (d.srvState a = .stopping)))

/-- Show y, r and the angle. -/
def Dev.showSrv (d : Dev) (a : Nat) : Dev :=
  let x := d.sAxis a
  ((d.wrS F.SV_a_POS_Y a (x.y / 2 ^ 16)).wrS F.SV_a_POS_REFPOS a (x.p / 2 ^ 64)).wr F.SV_a_LOOP_ANGLE a x.theta

/-- Show q as it comes into force: at a PWM centre, or 0 where the outputs leave modulation (R341). -/
def Dev.showIq (d : Dev) (a : Nat) : Dev := d.wrS F.SV_a_LOOP_IQ a ((d.sAxis a).q / 2 ^ 24)

/-! ### Angles (R339) -/

/-- 65,536 * dy / ECYCLE, both in 2^-16 count; an ECYCLE of 0 leaves the angle open (R5). -/
def Dev.advance (d : Dev) (a : Nat) (dy : Int) : Int × Dev :=
  let e := d.rd F.SV_a_COMM_ECYCLE a
  if e = 0 then let (v, d) := d.free 65536; (v, d) else (65536 * dy / e, d)

/-- The lower edge of a Hall sector: round(65,536 k / 6). -/
def sectorEdge (k : Nat) : Int := ((65536 * k + 3) / 6 : Nat)

/-- The electrical angle for the present y. Log entry 123 (DESIGN CHOICE). Log entry 196 (DEDUCED). -/
def Dev.refreshAngle (d : Dev) (a : Nat) : Dev :=
  let x := d.sAxis a
  let off : Int := d.rd F.SV_a_COMM_ELEC_OFFSET a
  let (th, d) : Int × Dev :=
    if (d.servoSec a).commutation = 2 then
      if (d.qFeed a).isSome then d.advance a (x.y - x.yAlign)
      else let (v, d) := d.advance a x.y; (v + off, d)
    else
      let k := x.sector.getD 0
      let lo := sectorEdge k
      let width := sectorEdge (k + 1) - lo
      match x.change with
      | none => (lo + width / 2 + off, d)
      | some (th0, y0) =>
        let (adv, d) := d.advance a (x.y - y0)
        (lo + off + clampInt 0 width (toSigned 16 (ofSigned 16 ((th0 : Int) - off - lo)) + adv), d)
  (d.setSrv a fun x => { x with theta := ofSigned 16 th }).showSrv a

/-! ### Faults (R349, R350) -/

/-- When the low side of a phase may first conduct in a period, a dead time after the high side turned off. Log entry 128 (PRESUMED). -/
def PhaseEnd.lowFrom (e : PhaseEnd) (dead : Nat) : Int := max (-10000) (e.highOff + dead - 10000)

/-- The switches of a phase with a duty out of 65,536 and a dead time in ns (R333): the high side's part lies about the centre of the 20,000 ns,
and a switch that turns on does so a dead time after the other has turned off, be it in the period before: `e` is how that ended. Log entry 128 (PRESUMED). -/
def gateOf (duty : Int) (dead : Nat) (e : PhaseEnd) : Gate :=
  let half := clampInt 0 10000 (duty * 10000 / 65536)
  let lowFrom := e.lowFrom dead
  let gap := decide (half + dead < 20000 - half)
  let lowFirst := e.lowOn || (gap && decide (lowFrom < -half))
  let on := (if lowFirst then (dead : Int) else 0) - half
  if half = 0 then ⟨none, some (0, 0), lowFrom⟩
  else if half = 10000 then ⟨some ((if e.lowOn then (dead : Int) else 0) - 10000, 10000), none, lowFrom⟩
  else ⟨if on < half then some (on, half) else none, if gap then some (-half, half + dead) else none, lowFrom⟩

/-- How a phase stands as a period with these switches ends. Log entry 128 (PRESUMED). -/
def Gate.ends (g : Gate) : PhaseEnd :=
  { lowOn := match g.low with | some (_, t) => decide (t < 10000) | none => false
    highOff := match g.high with | some (_, t) => t - 10000 | none => -20000 }

/-- The six outputs of an axis (R333): all low, modulated, or, the change to it counting as the start of a period, the three low sides on. -/
def Dev.gates (d : Dev) (a : Fin 2) : List Gate :=
  let x := d.sAxis a
  let dead := 4 * d.rd F.SV_a_CFG_DEADTIME a
  match x.bridge with
  | .off => List.replicate 3 ⟨none, none, -10000⟩
  | .short => x.carry.map fun e => ⟨none, some (0, 0), e.lowFrom dead⟩
  | .on => (List.zip [x.duty.1, x.duty.2.1, x.duty.2.2] x.carry).map fun p => gateOf p.1 dead p.2

/-- How the phases stand as a bridge changes its state: a high side may have been on until then. Log entry 128 (PRESUMED). -/
def bridgeEnds (old new : Bridge) : PhaseEnd :=
  match old, new with
  | .on, .short => { highOff := 0 }
  | .short, .on | .short, .short => { lowOn := true }
  | _, _ => {}

/-- Put a bridge into a state. Log entry 128 (PRESUMED). -/
def Dev.setBridge (d : Dev) (a : Fin 2) (b : Bridge) : Dev :=
  let d := d.setSrv a fun x => { x with
    bridge := b, id := 0, iq := 0, duty := (32768, 32768, 32768), carry := List.replicate 3 (bridgeEnds x.bridge b) }
  match b with
  | .off => d.emit (.duty a (-1) (-1) (-1) (d.gates a))
  | .short => d.emit (.duty a 0 0 0 (d.gates a))
  | .on => d

/-- A fresh start of an axis (R352, R72): its current loop runs, and it aligns where it must. The coefficients in force and the
Hall sector stay, and the angle is shown (R339). Log entry 127 (DEDUCED). -/
def Dev.srvStart (d : Dev) (a : Fin 2) : Dev :=
  let old := d.sAxis a
  let count := match d.qFeed a with
    | some n => (d.quad n).total
    | none => 0
  let d := d.setSrv a fun _ => { coefs := old.coefs, sector := old.sector, held := old.sector, count := count, overLimit := old.overLimit
                                 aligning := d.mustAlign a }
  (((d.setBridge a .on).wr F.SV_a_STAT_REFERENCED a 0).wr F.SV_a_STAT_MOTION a 0).refreshAngle a |>.showIq a

/-- A fault during a transition ends it in OFF (R352); a kept enable then starts the axis fresh (R72). -/
def Dev.srvAbort (d : Dev) (a : Fin 2) : Dev :=
  let kept := (d.func (.srv a)).kept
  let d := (d.setBridge a .off).setFunc (.srv a) {}
  if kept = some true then (d.setFunc (.srv a) { st := .starting }).srvStart a else d

/-- An axis can fault: it runs, and if it is FAULTED already its bridge is on, for the alignment that a CLEAR repeats, or shorted and the
cause an over-current (R334, R350, R351). Log entry 126 (DEDUCED). -/
def Dev.canFault (d : Dev) (a : Fin 2) (cause : Nat) : Bool :=
  d.srvRuns a && (decide (d.srvMotion a ≠ 3) ||
    (decide ((d.sAxis a).bridge = .on) || (decide (cause = 1) && decide ((d.sAxis a).bridge = .short))))

/-- A servo fault (R350). Log entry 126 (DEDUCED). -/
def Dev.servoFault (d : Dev) (a : Fin 2) (cause : Nat) : Dev :=
  if !d.canFault a cause then d
  else
    let d := d.setBridge a (if cause = 1 ∨ !d.on F.SV_a_CFG_FAULT_ACTION a then .off else .short)
    let d := d.setSrv a fun x => { x with i := 0, q := 0, sat := false, v := 0, a := 0, aligning := false, clear := false, clearing := false }
    let d := if (cause = 2 ∨ cause = 4 ∨ cause = 8) ∧ (d.qFeed a).isSome then d.wr F.SV_a_STAT_REFERENCED a 0 else d
    let d := ((d.wr F.SV_a_STAT_MOTION a 3).wr F.SV_a_STAT_CAUSE a cause).count F.SV_a_COUNT_FAULTS a 1
    let d := ((d.raise .secure 0x1101 [(1, a.val), (1, cause)]).showSrv a).showIq a
    if d.srvState a = .on then d else d.srvAbort a

/-- A QUAD_FAULT on a channel is kept for the next plausibility test of the axis it feeds (R335, R349). -/
def Dev.feedFault (d : Dev) (n : Fin 4) : Dev :=
  (List.finRange 2).foldl (fun (d : Dev) (a : Fin 2) =>
    if (d.servoSec a).enable ∧ d.qFeed a = some n then d.setSrv a fun x => { x with feedBad := true } else d) d

/-- A count stamped before a tick whose stages are still to run belongs to that tick (R335, R7). -/
def Dev.lateCount (d : Dev) (n : Fin 4) (t : Nat) : Dev :=
  if d.srv.due ∧ t < d.srv.tickT then
    (List.finRange 2).foldl (fun (d : Dev) (a : Fin 2) =>
      if d.srvRuns a ∧ d.qFeed a = some n then
        let total := (d.quad n).total
        (d.setSrv a fun x => { x with
          y := x.y + toSigned 32 (ofSigned 32 (total - x.count)) * d.rdS F.SV_a_FB_FB_SCALE a, count := total }).refreshAngle a
      else d) d
  else d

/-! ### The tick (R335, R336, R341) -/

/-- REG as the axis takes it (R347). -/
def Dev.regOf (d : Dev) (a : Nat) : Int :=
  if a = 0 ∧ d.on F.SV_a_CFG_REG_FOLLOW 0 ∧ d.on F.SV_a_STAT_REFERENCED 0 ∧ d.srvMotion 0 < 2 then (d.sAxis a).reg else 0

/-- NOTCH_COMMIT takes effect (R344). Log entry 125 (DEDUCED). -/
def Dev.takeNotch (d : Dev) (a : Nat) : Dev :=
  if d.on F.SV_a_CTRL_NOTCH_PENDING a then
    let cs := (List.range 10).map fun k => d.rdS F.SV_a_NOTCH_COEF (a * 10 + k)
    (d.wr F.SV_a_CTRL_NOTCH_PENDING a 0).setSrv a fun x => { x with coefs := cs }
  else d

/-- REG comes from nozzle health over port 0x1181 (R347), unless that is WEDGED, its outputs unconnected (R73). -/
def Dev.regFed (d : Dev) : Bool := d.fed 0x1181 && !d.wedged .nzh

/-- Under the check of step 15, y must not move by 16 counts (R353). -/
def Dev.checkMoved (d : Dev) (a : Nat) : Dev :=
  d.setSrv a fun x =>
    if !x.checking then x
    else match x.checkFrom with
      | none => { x with checkFrom := some x.y }
      | some y0 => { x with checkBad := x.checkBad || decide (16 * 2 ^ 16 ≤ (x.y - y0).natAbs) }

/-- One axis at the tick: the Hall sector is latched, TARGET, REG and a CLEAR are taken, and the Q count is, or the A request falls. Log entries 125 (DEDUCED), 126 (DEDUCED). Log entry 196 (DEDUCED). -/
def Dev.srvTick (d : Dev) (a : Fin 2) : Dev :=
  let d := d.takeNotch a
  let d := (d.setSrv a fun x => { x with held := x.sector }).wr F.SV_a_STAT_SECTOR a ((d.sAxis a).sector.getD 0)
  if !d.srvRuns a && !(d.sAxis a).checking then d
  else
    let tgt := d.rdS F.SV_a_TARGET_TARGET a
    let reg := if d.regFed then d.rdS F.SV_REG_REG else 0
    let d := d.setSrv a fun x => { x with
      y2 := x.y1, y1 := x.y, tgt := tgt, reg := reg, wrote := x.wrote || x.fresh, fresh := false
      clearing := x.clear, clear := false }
    match d.qFeed a with
    | some n =>
      let total := (d.quad n).total
      let ok := d.funcOn (.q n)
      let scale := d.rdS F.SV_a_FB_FB_SCALE a
      ((d.setSrv a fun x => { x with
        y := x.y + toSigned 32 (ofSigned 32 (total - x.count)) * scale, count := total, valid := ok }).checkMoved a).refreshAngle a
    | none => d.setSrv a fun x => { x with asked := true, requests := x.requests + 1, valid := false }

/-- The motion and servo tick, at the boundary of a beat whose number is a multiple of 10 (R322, R341). -/
def Dev.servoTick (d : Dev) : Dev :=
  if d.beat % 10 ≠ 0 ∨ d.mot.tick = some d.tmb.beats then d
  else
    let d := { d.motTick with mot.tick := some d.tmb.beats }
    let d := { d with mot.tick := some d.tmb.beats, srv.due := true, srv.tickT := d.tmb.openT }
    (List.finRange 2).foldl (fun (d : Dev) (a : Fin 2) => d.srvTick a) d

/-! ### The absolute encoder (R336, R337) -/

/-- CRC of the 34 bits ERR to COUNT, first bit first, polynomial 0x07 (R336). -/
def crc34 (v : Nat) : Nat :=
  (List.range 34).foldl (fun c k =>
    let top := (v / 2 ^ (33 - k)) % 2
    let c' := c * 2 % 256
    if (c / 128 + top) % 2 = 1 then Nat.xor c' 0x07 else c') 0

/-- A missing sample (R337); the check of step 15 fails by it (R353). -/
def Dev.missingSample (d : Dev) (a : Fin 2) : Dev :=
  let d := (d.count F.SV_a_COUNT_FB_MISSING a 1).setSrv a fun x => { x with
    asked := false, valid := false, missing := x.missing + 1, y := 2 * x.y1 - x.y2, checkBad := x.checkBad || x.checking }
  d.refreshAngle a

/-- The end of an encoder frame. Log entry 129 (PRESUMED). -/
def Dev.absFrame (d : Dev) (a : Fin 2) (fr : AbsFrame) : Dev :=
  let x := d.sAxis a
  if !x.asked then d
  else
    let v := fr.bits.toNat
    let pos : Nat := v / 2 ^ 12 % 2 ^ 28
    let cnt : Nat := v / 2 ^ 8 % 16
    let warn := v.testBit 40
    let stale : Bool := match x.frame with
      | some (_, c) => let k := (cnt + 16 - c) % 16; decide (k = 0) || decide (x.requests < k)
      | none => false
    if !fr.started ∨ crc34 (v / 2 ^ 8) ≠ v % 256 ∨ v.testBit 41 ∨ stale then d.missingSample a
    else
      let scale := d.rdS F.SV_a_FB_FB_SCALE a
      let d := match x.frame with
        | some (p, _) => d.setSrv a fun x => { x with y := x.y + scale * toSigned 28 (ofSigned 28 ((pos : Int) - p)) }
        | none =>
          let y := scale * toSigned 28 (ofSigned 28 ((pos : Int) - d.rd F.SV_a_FB_A_ZERO a))
          (d.setSrv a fun x => { x with y := y, y1 := y, y2 := y }).wr F.SV_a_STAT_REFERENCED a 1
      let d := d.setSrv a fun x => { x with
        frame := some (pos, cnt), requests := 0, missing := 0, valid := true, asked := false, warned := warn }
      let d := if warn then d.count F.SV_a_COUNT_A_WARN a 1 else d
      let d := if warn ∧ !x.warned then d.raise .secure 0x1105 [(1, a.val)] else d
      (d.checkMoved a).refreshAngle a

/-! ### Hall sensors (R338 to R340) -/

/-- The sector of a code C:B:A, if it is possible. -/
def hallSector (code : Nat) : Option Nat :=
  match code with
  | 1 => some 0
  | 3 => some 1
  | 2 => some 2
  | 6 => some 3
  | 4 => some 4
  | 5 => some 5
  | _ => none

/-- An illegal Hall transition; the check of step 15 fails by it (R353). -/
def Dev.hallIllegal (d : Dev) (a : Fin 2) (t : Nat) : Dev :=
  let l := t :: ((d.sAxis a).illegal.take 2)
  let d := (d.count F.SV_a_COUNT_HALL_ERR a 1).setSrv a fun x => { x with illegal := l, checkBad := x.checkBad || x.checking }
  if threeWithin l then d.servoFault a 3 else d

/-- The feedback of an axis is valid between ticks: its last sample was (R340). -/
def Dev.feedValid (d : Dev) (a : Nat) : Bool :=
  let x := d.sAxis a
  if (d.qFeed a).isSome then x.valid else decide (x.missing = 0) && x.frame.isSome

/-- A legal change from one sector to the next: the angle follows at once (R339), the sector shows from the next tick on (R341). Log entry 196
(DEDUCED). -/
def Dev.hallLegal (d : Dev) (a : Fin 2) (old new : Nat) : Dev :=
  let x := d.sAxis a
  let k := if (old = 5 ∧ new = 0) ∨ (old = 0 ∧ new = 5) then 0 else max old new
  let th := ofSigned 16 (sectorEdge k + d.rd F.SV_a_COMM_ELEC_OFFSET a)
  let (bad, d) : Bool × Dev := match x.change with
    | some (th0, y0) =>
      let (adv, d) := d.advance a (x.y - y0)
      (d.feedValid a && decide (5461 < (toSigned 16 (ofSigned 16 ((th : Int) - (th0 + adv)))).natAbs), d)
    | none => (false, d)
  (d.setSrv a fun x => { x with sector := some new, change := some (th, x.y), commBad := x.commBad || bad }).refreshAngle a

/-- An accepted change of a Hall triplet, for the axis that commutates from it. -/
def Dev.hallChange (d : Dev) (h : Fin 2) (code t : Nat) : Dev :=
  (List.finRange 2).foldl (fun (d : Dev) (a : Fin 2) =>
    if (d.servoSec a).enable ∧ (d.servoSec a).commutation = h.val then
      match hallSector code, (d.sAxis a).sector with
      | none, _ => d.hallIllegal a t
      | some s, none => d.setSrv a fun x => { x with sector := some s }
      | some s, some old =>
        if s = old then d
        else if (old + 1) % 6 = s ∨ (s + 1) % 6 = old then d.hallLegal a old s
        else d.hallIllegal a t
    else d) d

/-! ### The profile generator (R346) -/

/-- Limits of one tick: VMAX, amax and the tick's d and j, in 2^-64 count. -/
structure Limits where
  vmax : Nat
  amax : Nat
  d : Nat
  j : Nat

/-- Log entry 126 (DEDUCED). -/
def Dev.srvLimits (d : Dev) (a : Nat) : Limits :=
  let speed := if d.srvMotion a = 2 then d.rd F.SV_a_REF_REF_SPEED a else d.rd F.SV_a_SPEED_VMAX a
  ⟨speed * 2 ^ 64 / 25000, d.rd F.SV_a_RAMP_ACCEL a * 2 ^ 64 / 25000 ^ 2, max 1 (d.rd F.SV_a_RAMP_DECEL a * 2 ^ 64 / 25000 ^ 2),
    max 1 (d.rd F.SV_a_SPEED_JERK a * 2 ^ 64 / 25000 ^ 3)⟩

/-- The speed from which the reference can still brake within s. -/
def brakeSpeed (s d j : Nat) : Nat :=
  if s = 0 then 0
  else if d * d * d ≤ s * j * j then (isqrt (d * d / j * (d * d / j) + 8 * d * s) 128 0 - d * d / j) / 2
  else icbrt (j * s * s) 128 0

/-- One tick of the generator towards t (in 2^-64 count); `brake` lets the speed run down to 0 and stay there (R352). The result, and whether p
reached t. Log entry 60 (DESIGN CHOICE). -/
def profileStep (x : SrvAxis) (l : Limits) (t : Int) (brake : Bool) : SrvAxis × Bool :=
  let dd := if x.ramp then max x.d l.d else l.d
  let jj := if x.ramp then max x.j l.j else l.j
  let s0 := (t - x.p) * x.dir
  let u0 := x.v * x.dir
  let g0 := x.a * x.dir
  let flip := decide (s0 < 0) && decide (u0 ≤ 0)
  let dir := if flip then -x.dir else x.dir
  let s := if flip then -s0 else s0
  let u := if flip then -u0 else u0
  let g := if flip then -g0 else g0
  let vb := brakeSpeed s.toNat dd jj
  let vdes : Int := if s ≤ 0 ∨ brake then 0 else min l.vmax (max vb (2 ^ 60))
  let ramp := x.ramp || decide (vdes < u)
  let g := g + clampInt (-(jj : Int)) jj (clampInt (-(dd : Int)) l.amax (vdes - u) - g)
  let u := u + g
  let p := x.p + u * dir
  if brake ∧ u ≤ 0 then ({ x with v := 0, a := 0, ramp := ramp, d := dd, j := jj }, false)
  else if 0 < s ∧ (t - p) * dir ≤ 0 then ({ x with p := t, v := 0, a := 0, dir := dir, ramp := ramp, d := dd, j := jj }, true)
  else ({ x with p := p, v := u * dir, a := g * dir, dir := dir, ramp := ramp, d := dd, j := jj }, false)

/-- Start a move towards t (R346). -/
def Dev.srvMove (d : Dev) (a : Nat) (t : Int) (motion : Nat) : Dev :=
  (d.setSrv a fun x => { x with dir := if x.p ≤ t then 1 else -1, v := 0, a := 0, ramp := false }).wr F.SV_a_STAT_MOTION a motion

/-- SERVO_MOVE_DONE, if the t that p has reached followed a TARGET write (R347). Log entry 124 (DEDUCED). -/
def Dev.srvArrived (d : Dev) (a : Nat) : Dev :=
  if (d.sAxis a).wrote then
    (d.setSrv a fun x => { x with wrote := false }).raise .secure 0x1102 [(1, a), (4, d.rd F.SV_a_POS_Y a)]
  else d

/-- The effective target (R347), with SERVO_TARGET_CLAMPED once for each value clamped. -/
def Dev.effective (d : Dev) (a : Nat) : Int × Dev :=
  let want := (d.sAxis a).tgt + d.regOf a
  let t := clampInt (d.rdS F.SV_a_LIMITS_LIM_NEG a) (d.rdS F.SV_a_LIMITS_LIM_POS a) want
  if t = want then (t, d.setSrv a fun x => { x with clamped := none })
  else
    let d := if (d.sAxis a).clamped = some want then d else d.raise .secure 0x1104 [(1, a), (4, ofSigned 32 want)]
    (t, d.setSrv a fun x => { x with clamped := some want })

/-- Stage 1 of one tick. Log entry 60 (DESIGN CHOICE). -/
def Dev.generator (d : Dev) (a : Fin 2) : Dev :=
  let m := d.srvMotion a
  if d.srvState a = .stopping then
    let x := d.sAxis a
    let x := { x with dir := if x.v < 0 then -1 else 1 }
    d.setSrv a fun _ => (profileStep x (d.srvLimits a) (x.p + x.dir * 2 ^ 97) true).1
  else if m = 2 then
    let x := d.sAxis a
    d.setSrv a fun _ => (profileStep x (d.srvLimits a) (x.p - 2 ^ 97) false).1
  else
    let (t, d) := d.effective a
    let tt := t * 2 ^ 64
    let d := if m = 0 ∧ (d.sAxis a).p ≠ tt then d.srvMove a tt 1 else d
    if d.srvMotion a = 0 then d.srvArrived a
    else
      let x := d.sAxis a
      let (x', done) := profileStep x (d.srvLimits a) tt false
      let d := d.setSrv a fun _ => x'
      if done then (d.wr F.SV_a_STAT_MOTION a 0).srvArrived a else d

/-! ### The other stages (R342 to R345) -/

/-- One sample through a notch with coefficients b0, b1, b2, a1, a2 (R344). -/
def notch (c : List Int) (n : Biquad) (x : Int) : Int × Biquad :=
  let k := fun (i : Nat) => c.getD i 0
  let y := (k 0 * x + k 1 * n.x1 + k 2 * n.x2 - k 3 * n.y1 - k 4 * n.y2) / 2 ^ 30
  (y, ⟨x, n.x1, y, n.y1⟩)

/-- The signal on its way through the stages: the reference, the demand, whether stage 2 has run and whether feed-forward waits. -/
structure Signal2 where
  r : Int
  q : Int := 0
  done : Bool := false
  ff : Bool := false

/-- Notch k (0 or 1) on the reference before stage 2, on the demand after it. Log entry 60 (DESIGN CHOICE). -/
def Dev.notchStage (d : Dev) (a k : Nat) (g : Signal2) : Signal2 × Dev :=
  let x := d.sAxis a
  let (y, n) := notch (x.coefs.drop (5 * k)) (if k = 0 then x.n1 else x.n2) (if g.done then g.q else g.r)
  (if g.done then { g with q := y } else { g with r := y },
    d.setSrv a fun x => if k = 0 then { x with n1 := n } else { x with n2 := n })

/-- Feed-forward (R345). -/
def Dev.feedForward (d : Dev) (a : Nat) : Int :=
  (d.rdS F.SV_a_FF_KVF a * (d.sAxis a).v + d.rdS F.SV_a_FF_KAF a * (d.sAxis a).a) / 2 ^ 48

/-- The position controller (R343). Log entry 60 (DESIGN CHOICE). -/
def Dev.controller (d : Dev) (a : Nat) (r : Int) : Int × Dev :=
  let x := d.sAxis a
  let e := (r - x.y * 2 ^ 48) / 2 ^ 56
  let lim : Int := d.rd F.SV_a_GAIN_ILIM a * 2 ^ 24
  let i := if !(x.sat && decide (Int.sign e = Int.sign x.q)) && x.valid then
    clampInt (-lim) lim (x.i + d.rd F.SV_a_GAIN_KI a * e) else x.i
  let q := d.rd F.SV_a_GAIN_KP a * e * 2 ^ 8 + i - d.rd F.SV_a_GAIN_KD a * (x.y - x.y1)
  (q, (d.setSrv a fun x => { x with i := i }).wrS F.SV_a_LOOP_E a e)

/-- One stage after the first. -/
def Dev.srvStage (a : Nat) (r : Signal2 × Dev) (code : Nat) : Signal2 × Dev :=
  let (g, d) := r
  match code with
  | 2 =>
    let (q, d) := d.controller a g.r
    ({ g with q := q + (if g.ff then d.feedForward a else 0), done := true }, d)
  | 3 => d.notchStage a 0 g
  | 4 => d.notchStage a 1 g
  | 5 => (if g.done then { g with q := g.q + d.feedForward a } else { g with ff := true }, d)
  | _ => (g, d)

/-- The stages of one tick, then the clamp (R342). -/
def Dev.srvLoop (d : Dev) (a : Fin 2) : Dev :=
  let d := d.generator a
  let (g, d) := ((d.servoSec a).stages.takeWhile fun c => decide (c ≠ 0)).foldl (Dev.srvStage a) ({ r := (d.sAxis a).p }, d)
  let lim : Int := d.rd F.SV_a_CURRENT_IQ_MAX a * 2 ^ 24
  let q := clampInt (-lim) lim g.q
  (d.setSrv a fun x => { x with q := q, sat := decide (q ≠ g.q) }).showSrv a

/-! ### Referencing, CLEAR and plausibility (R348 to R351) -/

/-- TARGET := y - REG; the tick's own copy follows. Log entry 124 (DEDUCED). -/
def Dev.targetHere (d : Dev) (a : Nat) : Dev :=
  let t := (d.sAxis a).y / 2 ^ 16 - d.regOf a
  let d := d.wrS F.SV_a_TARGET_TARGET a t
  d.setSrv a fun x => { x with tgt := toSigned 32 (ofSigned 32 t), wrote := false, fresh := false }

/-- The index has come: the whole frame of y moves so that the latched stamp lies at REF_OFFSET; the axis brakes and holds. -/
def Dev.referenced (d : Dev) (a : Fin 2) (n : Fin 4) (stamp : Nat) (total : Int) : Dev :=
  let x := d.sAxis a
  let at' := x.y - (x.count - total) * d.rdS F.SV_a_FB_FB_SCALE a
  let k := d.rdS F.SV_a_REF_REF_OFFSET a * 2 ^ 16 - at'
  let d := d.setSrv a fun x => { x with
    y := x.y + k, y1 := x.y1 + k, y2 := x.y2 + k, p := x.p + k * 2 ^ 48, yAlign := x.yAlign + k
    change := x.change.map fun c => (c.1, c.2 + k) }
  let d := d.setQuad n fun q => { q with index := none }
  let d := ((d.wr F.SV_a_STAT_REFERENCED a 1).wr F.SV_a_STAT_MOTION a 1).targetHere a
  d.raise .secure 0x1103 [(1, a.val), (8, stamp)]

/-- An index latched on a channel acts at once on the axis that searches it (R348). Log entry 124 (DEDUCED). -/
def Dev.takeIndex (d : Dev) (n : Fin 4) : Dev :=
  match (d.quad n).index with
  | some (t, total) =>
    (List.finRange 2).foldl (fun (d : Dev) (a : Fin 2) =>
      if d.srvRuns a ∧ d.srvMotion a = 2 ∧ d.qFeed a = some n then d.referenced a n t total else d) d
  | none => d

/-- An accepted CLEAR (R351). -/
def Dev.clearFault (d : Dev) (a : Fin 2) : Dev :=
  let d := (d.setSrv a fun x => { x with p := x.y * 2 ^ 48, v := 0, a := 0, i := 0, clearing := false }).wr F.SV_a_STAT_MOTION a 0
  (d.targetHere a).setBridge a .on

/-- The condition of a cause holds at this tick. Log entry 126 (DEDUCED). -/
def Dev.causeHolds (d : Dev) (a : Fin 2) (cause : Nat) : Bool :=
  let x := d.sAxis a
  let margin : Int := d.rd F.SV_a_PLAUS_LIM_MARGIN a
  let y := x.y / 2 ^ 16
  match cause with
  | 1 => x.overLimit
  | 2 => match d.qFeed a with
    | some n => !x.valid || d.on F.WT_Qn_STAT_QUAD_FAULT n
    | none => !x.valid
  | 5 => decide (d.rd F.SV_a_PLAUS_FOLLOW_TICKS a ≤ x.follow)
  | 6 => d.on F.SV_a_MODEL_MODEL_MAX a && decide ((d.rd F.SV_a_MODEL_MODEL_MAX a : Int) * 2 ^ 24 < x.res)
  | 7 => d.on F.SV_a_STAT_REFERENCED a && (decide (d.srvMotion a ≠ 2) &&
      (decide (x.y < (d.rdS F.SV_a_LIMITS_LIM_NEG a - margin) * 2 ^ 16) || decide ((d.rdS F.SV_a_LIMITS_LIM_POS a + margin) * 2 ^ 16 < x.y)))
  | 8 => decide (d.srvMotion a = 2) &&
      decide (d.rdS F.SV_a_LIMITS_LIM_POS a - d.rdS F.SV_a_LIMITS_LIM_NEG a ≤ ((y - x.refFrom).natAbs : Int))
  | _ => false

/-- The condition of a cause arises at this tick (R349): as causeHolds, but for FEEDBACK, COMMUTATION and the causes tested as they occur. Log entry 126 (DEDUCED). -/
def Dev.causeArises (d : Dev) (a : Fin 2) (cause : Nat) : Bool :=
  let x := d.sAxis a
  match cause with
  | 2 => match d.qFeed a with
    | some n => x.feedBad || d.on F.WT_Qn_STAT_QUAD_FAULT n
    | none => decide (3 ≤ x.missing)
  | 4 => x.commBad
  | 1 => false
  | c => d.causeHolds a c

/-- |r - y| exceeds FOLLOW_MAX (R349). -/
def Dev.farOff (d : Dev) (a : Nat) : Bool :=
  let x := d.sAxis a
  decide ((d.rd F.SV_a_PLAUS_FOLLOW_MAX a : Int) * 2 ^ 64 < (x.p - x.y * 2 ^ 48).natAbs)

/-- The condition of a cause still holds at the tick of a CLEAR, before the tick's own tests (R351): this tick may be FOLLOW's last. Log entry 126 (DEDUCED). -/
def Dev.stillHolds (d : Dev) (a : Fin 2) (cause : Nat) : Bool :=
  if cause = 5 then d.farOff a && decide (d.rd F.SV_a_PLAUS_FOLLOW_TICKS a ≤ (d.sAxis a).follow + 1) else d.causeHolds a cause

/-- The causes that the test of a tick takes in (R349): in STARTING r is not yet set, and FAULTED only the alignment of a CLEAR can fault.
Log entry 126 (DEDUCED). -/
def Dev.testedCauses (d : Dev) (a : Fin 2) : List Nat :=
  if d.srvMotion a = 3 then (if (d.sAxis a).bridge = .on then [2, 4] else [])
  else if d.srvState a = .starting then [2, 4, 6, 7]
  else [2, 4, 5, 6, 7, 8]

/-- A CLEAR that waited for this tick. A cause-2 CLEAR first repeats an alignment. Log entry 125 (DEDUCED). -/
def Dev.takeClear (d : Dev) (a : Fin 2) : Dev :=
  if !(d.sAxis a).clearing ∨ d.srvMotion a ≠ 3 then d
  else if d.stillHolds a (d.rd F.SV_a_STAT_CAUSE a) then d.setSrv a fun x => { x with clearing := false }
  else if d.mustAlign a ∧ d.rd F.SV_a_STAT_CAUSE a = 2 then
    (d.setBridge a .on).setSrv a fun x => { x with aligning := true, clearing := false }
  else d.clearFault a

/-- What the tick adds to the plausibility state: FOLLOW's ticks, counted while FAULTED too (R351), and res with the demand of the tick before. -/
def Dev.plausible (d : Dev) (a : Fin 2) (qPrev : Int) : Dev :=
  let x := d.sAxis a
  let follow := if d.farOff a then x.follow + 1 else 0
  let meas := (x.y - 2 * x.y1 + x.y2) * 2 ^ 40
  let model := d.rdS F.SV_a_MODEL_KM a * qPrev
  let res := if x.valid then x.res + (((meas - model).natAbs : Int) - x.res) / 16 else x.res
  d.setSrv a fun x => { x with follow := follow, res := res }

/-- The stages and the plausibility checks of one axis (R341, R349): the lowest cause is recorded. -/
def Dev.srvStages (d : Dev) (a : Fin 2) : Dev :=
  if (d.sAxis a).checking then (if (d.sAxis a).asked then d.missingSample a else d)
  else if !d.srvRuns a then d
  else
    let d := if (d.sAxis a).asked then d.missingSample a else d
    let d := d.takeClear a
    let qPrev := (d.sAxis a).q
    let d := if d.srvMotion a = 3 ∨ d.srvState a = .starting then d else d.srvLoop a
    let d := d.plausible a qPrev
    let cause := (d.testedCauses a).find? fun c => d.causeArises a c
    let d := d.setSrv a fun x => { x with feedBad := false, commBad := false }
    match cause with
    | some c => d.servoFault a c
    | none => d

/-! ### The current loop (R334) -/

/-- sin of k / 65,536 of a cycle, 0 to a quarter, times 2^30. Log entry 129 (PRESUMED). -/
def sinQuarter (k : Nat) : Int :=
  let x : Int := (k * 1727108826179 / 16384 : Nat)
  let term := fun (t : Int) (n : Nat) => -(t * x / 2 ^ 40 * x / 2 ^ 40) / ((2 * n) * (2 * n + 1) : Nat)
  let r := (List.range 8).foldl (fun (r : Int × Int) n => let t := term r.2 (n + 1); (r.1 + t, t)) (x, x)
  r.1 / 2 ^ 10

/-- sin of a 16-bit angle times 2^30. -/
def sin16 (th : Nat) : Int :=
  let k := th % 65536
  if k ≤ 16384 then sinQuarter k
  else if k ≤ 32768 then sinQuarter (32768 - k)
  else if k ≤ 49152 then -sinQuarter (k - 32768)
  else -sinQuarter (65536 - k)

def cos16 (th : Nat) : Int := sin16 (th + 16384)

/-- The direct and quadrature currents of three phase currents at an angle. Log entry 128 (PRESUMED). -/
def parkOf (iu iv iw : Int) (th : Nat) : Int × Int :=
  let al := (2 * iu - iv - iw) / 3
  let be := (iv - iw) * 619925131 / 2 ^ 30
  ((al * cos16 th + be * sin16 th) / 2 ^ 30, (be * cos16 th - al * sin16 th) / 2 ^ 30)

/-- A voltage vector clamped to a modulation depth of 1.0, in 2^-16 of 1/32,768. -/
def clampVec (vd vq : Int) : Int × Int :=
  let lim : Int := 2 ^ 31
  let m : Int := isqrt (vd * vd + vq * vq).toNat 64 0
  if m ≤ lim then (vd, vq) else (vd * lim / m, vq * lim / m)

/-- The three duties, 65,536 for always high, by space-vector modulation: the phases are centred, and a depth of 1.0 makes the
line voltage the whole supply. Log entry 128 (PRESUMED). -/
def spaceVector (vd vq : Int) (th : Nat) : Int × Int × Int :=
  let al := (vd * cos16 th - vq * sin16 th) / 2 ^ 30
  let be := (vd * sin16 th + vq * cos16 th) / 2 ^ 30
  let half := be * 929887697 / 2 ^ 30
  let u := al
  let v := -al / 2 + half
  let w := -al / 2 - half
  let mid := (max u (max v w) + min u (min v w)) / 2
  let duty := fun (p : Int) => 32768 + (p - mid) * 619925131 / 2 ^ 45
  (duty u, duty v, duty w)

/-- One PWM centre: the duties in force go out, q is in force, the currents are sampled, and the next duties are computed. Log entry 128 (PRESUMED). -/
def Dev.pwmCentre (d : Dev) (a : Fin 2) (iu iv iw : Int) : Dev :=
  let x := d.sAxis a
  let oc := d.rd F.SV_a_CURRENT_OC_LIMIT a
  let tripped := decide (oc < iu.natAbs) || (decide (oc < iv.natAbs) || decide (oc < iw.natAbs))
  let d := d.setSrv a fun x => { x with overLimit := tripped }
  if x.bridge ≠ .on then (if tripped then d.servoFault a 1 else d)
  else
    let (u, v, w) := x.duty
    let gs := d.gates a
    let d := ((d.emit (.duty a u v w gs)).setSrv a fun x => { x with carry := gs.map Gate.ends }).showIq a
    if tripped then d.servoFault a 1
    else
      let th := if x.aligning then 0 else x.theta
      let (id, iq) := parkOf iu iv iw th
      let ed : Int := (if x.aligning then (d.rd F.SV_a_COMM_ALIGN_I a : Int) else 0) - id
      let eq : Int := (if x.aligning then 0 else x.q / 2 ^ 24) - iq
      let ki : Int := d.rd F.SV_a_CURRENT_CUR_KI a
      let kp : Int := d.rd F.SV_a_CURRENT_CUR_KP a
      let nd := x.id + ki * ed
      let nq := x.iq + ki * eq
      let (vd, vq) := clampVec (kp * ed * 2 ^ 8 + nd) (kp * eq * 2 ^ 8 + nq)
      d.setSrv a fun x => { x with id := nd, iq := nq, duty := spaceVector vd vq th }

/-! ### Function hooks (R352) and registers -/

/-- The end of STARTING: r := y, TARGET := y, i := 0, HOLD. -/
def Dev.srvOn (d : Dev) (a : Fin 2) : Dev :=
  let d := (d.setSrv a fun x => { x with p := x.y * 2 ^ 48, v := 0, a := 0, i := 0, wrote := false, fresh := false }).wr F.SV_a_STAT_MOTION a 0
  let t := (d.sAxis a).y / 2 ^ 16
  ((d.wrS F.SV_a_TARGET_TARGET a t).setSrv a fun x => { x with tgt := toSigned 32 (ofSigned 32 t) }).showSrv a

/-- The end of STOPPING: the outputs go low. -/
def Dev.srvOff (d : Dev) (a : Fin 2) : Dev :=
  ((d.setBridge a .off).setSrv a fun x => { x with q := 0, v := 0, a := 0, aligning := false, asked := false }).showIq a

/-- The check of cast-on step 15 begins on an enabled axis: its outputs are low, and its feedback is read as at a start (R353). -/
def Dev.srvCheck (d : Dev) (a : Fin 2) : Dev :=
  let d := if d.srvRuns a then d.srvOff a else d
  let old := d.sAxis a
  let count := match d.qFeed a with
    | some n => (d.quad n).total
    | none => 0
  d.setSrv a fun _ => { coefs := old.coefs, sector := old.sector, held := old.sector, count := count, overLimit := old.overLimit, checking := true }

/-- A write to SV_a_CTRL: REFERENCE, CLEAR, NOTCH_COMMIT. -/
def Dev.wSvCtrl (d : Dev) (a : Fin 2) (val mask : Nat) : Dev :=
  let v := Nat.land val mask
  let d := match d.qFeed a with
    | some n =>
      if v.testBit 0 ∧ d.srvState a = .on ∧ d.srvMotion a = 0 ∧ d.rd F.WT_Qn_CFG_IDX_MODE n = 2 then
        let d := (d.wr F.WT_Qn_CFG_IDX_ARM n 1).setQuad n fun q => { q with index := none }
        let d := d.setSrv a fun x => { x with refFrom := x.y / 2 ^ 16 }
        d.srvMove a ((d.sAxis a).p - 1) 2
      else d
    | none => d
  let d := if v.testBit 1 ∧ d.srvMotion a = 3 then d.setSrv a fun x => { x with clear := true } else d
  if v.testBit 2 then d.wr F.SV_a_CTRL_NOTCH_PENDING a 1 else d

/-- A write to SV_a_TARGET (R347). -/
def Dev.wSvTarget (d : Dev) (a : Fin 2) (val mask : Nat) : Dev :=
  (d.store R.SV_a_TARGET a val mask).setSrv a fun x => { x with fresh := true }

/-! ### Commands -/

def execQuadTransition (n : Fin 4) (a b : Bool) (t : Nat) (s : State) : Host.Outcome State Fault Refusal :=
  s.actInOrder fun d =>
    let illegal := decide ((gray (a, b) + 4 - gray (d.quad n).level) % 4 = 2) && d.funcOn (.q n)
    let d := (d.quadTransition n a b t).lateCount n t
    if illegal && threeWithin (d.quad n).illegal then d.feedFault n else d

def execIndexEdge (n : Fin 4) (t : Nat) (s : State) : Host.Outcome State Fault Refusal :=
  s.actInOrder fun d => if d.funcOn (.q n) then (d.indexEdge n t).takeIndex n else d

def execServoTick (s : State) : Host.Outcome State Fault Refusal := s.actInOrder Dev.servoTick

def execServoStages (s : State) : Host.Outcome State Fault Refusal :=
  s.actInOrder fun d =>
    if d.srv.due then
      (List.finRange 2).foldl (fun (d : Dev) (a : Fin 2) => d.srvStages a) { d with srv.due := false }
    else d

def execPwmCentre (a : Fin 2) (iu iv iw : Int) (s : State) : Host.Outcome State Fault Refusal :=
  s.act fun d => d.pwmCentre a iu iv iw

def execServoOvercurrent (a : Fin 2) (s : State) : Host.Outcome State Fault Refusal := s.act fun d => d.servoFault a 1

def execAbsFrameDone (a : Fin 2) (fr : AbsFrame) (s : State) : Host.Outcome State Fault Refusal :=
  s.actInOrder fun d => if (d.srvRuns a || (d.sAxis a).checking) && (d.qFeed a).isNone then d.absFrame a fr else d

def execHallChange (h : Fin 2) (code : Fin 8) (t : Nat) (s : State) : Host.Outcome State Fault Refusal :=
  s.actInOrder fun d => d.hallChange h code t

/-- Alignment ends: y_align is recorded; a CLEAR that waited for it is accepted (R339, R351). -/
def execServoAlignDone (a : Fin 2) (s : State) : Host.Outcome State Fault Refusal :=
  s.act fun d =>
    if !(d.sAxis a).aligning then d
    else
      let d := (d.setSrv a fun x => { x with yAlign := x.y, aligning := false }).refreshAngle a
      if d.srvMotion a = 3 then d.clearFault a else d

def execServoTargetWrite (m : Master) (a : Fin 2) (val : Nat) (s : State) : Host.Outcome State Fault Refusal :=
  s.act fun d => d.writeTo m R.SV_a_TARGET a fun d => d.wSvTarget a val mask32

/-- The S0 count that nozzle health has sent arrives on port 0x1181 (R246, R347): v is its value. Log entry 87 (DEDUCED). -/
def execServoRegRx (v : Int) (s : State) : Host.Outcome State Fault Refusal :=
  s.act fun d =>
    if d.regFed ∧ d.nzh.s0Out = some v then
      ({ d with nzh.s0Out := none }.wrS F.SV_REG_REG 0 v).wr F.SV_REG_BEAT 0 (d.beat % 2 ^ 32)
    else d

def execServoReference (m : Master) (a : Fin 2) (s : State) : Host.Outcome State Fault Refusal :=
  s.act fun d => d.writeTo m R.SV_a_CTRL a fun d => d.wSvCtrl a 1 mask32

def execServoClear (m : Master) (a : Fin 2) (s : State) : Host.Outcome State Fault Refusal :=
  s.act fun d => d.writeTo m R.SV_a_CTRL a fun d => d.wSvCtrl a 2 mask32

def execNotchCommit (m : Master) (a : Fin 2) (s : State) : Host.Outcome State Fault Refusal :=
  s.act fun d => d.writeTo m R.SV_a_CTRL a fun d => d.wSvCtrl a 4 mask32

end Sys2Proof.Machine
end

