-- ==== Sys2Proof/Machine/Trim.lean ====
section
/-!
DEFINITION. Chapter 20: the trim store, the factory trim, and the spares of the analog channels.
-/

namespace Sys2Proof.Machine

/-! ### The store (R356) -/

/-- Bytes of the store's content: 26 records of 6 bytes and 32 eye bytes. Log entry 130 (PRESUMED). -/
def storeBytesN : Nat := 26 * 6 + 32

/-- A record's 42 bits. Log entry 130 (PRESUMED). -/
def TrimRec.word (r : TrimRec) : Nat := r.gain % 2 ^ 16 + ofSigned 16 r.off * 2 ^ 16 + r.quality % 2 ^ 8 * 2 ^ 32 + r.status % 4 * 2 ^ 40

/-- Record k of a content. -/
def recOf (v k : Nat) : TrimRec :=
  let w := v / 2 ^ (48 * k)
  ⟨w % 2 ^ 16, toSigned 16 (w / 2 ^ 16), w / 2 ^ 32 % 2 ^ 8, w / 2 ^ 40 % 4⟩

/-- Show one channel's record. -/
def Dev.showRec (d : Dev) (k : Nat) (r : TrimRec) : Dev :=
  let d := (d.wr F.TRM_TRIM_GAIN k r.gain).wrS F.TRM_TRIM_OFF k r.off
  (d.wr F.TRM_CH_STATUS k r.status).wr F.TRM_CH_QUALITY k r.quality

/-- The registers that show the store: a blank one leaves GAIN at 1 and OFF at 0. -/
def Dev.loadTrim (d : Dev) : Dev :=
  let f := d.trm.store
  let v := f.value
  let d := d.wrB F.TRM_MAP_BLANK 0 f.blank
  let d := (List.range 26).foldl (fun (d : Dev) (k : Nat) => d.showRec k (if f.blank then {} else recOf v k)) d
  (List.range 8).foldl (fun (d : Dev) (i : Nat) =>
    d.wr F.TRM_EYE_BASE_EYE i (if f.blank then 0 else v / 2 ^ (48 * 26 + 32 * i) % 2 ^ 32)) d

/-- The store is blank, or its voted CRC passes. -/
def Dev.trimOk (d : Dev) : Bool := d.trm.store.ok storeBytesN

/-- A reset cuts programming short: the store is left with an unspecified content that fails its CRC (R356). Log entry 38 (DEDUCED). -/
def Dev.cutTrim (d : Dev) : Dev :=
  match d.trm.trim with
  | some { prog := some _, .. } =>
    let (f, d) := d.cutFuse storeBytesN
    { d with trm.store := f }
  | _ => d

/-! ### Spares (R359 to R361) -/

/-- The register field of a spare, and the channel it replaces. -/
def spareFld (x : Nat) : Fld := if x = 0 then F.TRM_MAP_X0_FOR else F.TRM_MAP_X1_FOR

/-- The lowest free spare: GOOD, sound and replacing nothing. -/
def Dev.freeSpare (d : Dev) : Option Nat :=
  (List.range 2).find? fun x =>
    decide (d.rd F.TRM_CH_STATUS (24 + x) = 1) && (!d.trm.badSpares.contains x && decide (d.rd (spareFld x) = 0x1F))

/-- A channel that has no spare reads 0x8000 (R361), and its axis leaves service: a stepper stops with cause DISABLE, a servo's
outputs go low. Log entry 135 (DEDUCED). -/
def Dev.loseChannel (d : Dev) (k : Nat) : Dev :=
  let d := { d with trm.failed := d.trm.failed ++ [k] }
  let d := (d.wr F.TRM_CH_C k 0x8000).wrS F.TRM_CH_V k (currentOf 0x8000)
  let d := d.raise .secure 0x1204 [(1, k)]
  if h : k < 8 then
    let n : Fin 4 := ⟨k / 2, by omega⟩
    let d := if d.motOn n then d.motStop n 11 else d
    if d.wedged (.mot n) then d else d.setFunc (.mot n) {}
  else if h : k < 14 then
    let a : Fin 2 := ⟨(k - 8) / 3, by omega⟩
    let d := if d.srvRuns a then d.srvOff a else d
    if d.wedged (.srv a) then d else d.setFunc (.srv a) {}
  else d

/-- The trim ends with RESULT: TRIM_DONE to the Secure hosts and to the host that wrote GO. Log entry 131 (DEDUCED). -/
def Dev.trimEnd (d : Dev) (port : Option (Fin 2)) (result failed : Nat) : Dev :=
  (d.wr F.TRM_TRIM_CTRL_RESULT 0 result).raise (.secureAnd port) 0x1201 [(1, result), (1, failed)]

/-- The check in service is over: a trim GO that waited for it starts, or is refused (R357, R361). Log entry 131 (DEDUCED). -/
def Dev.checkOver (d : Dev) : Dev :=
  let d := { d with trm.check := none }
  match d.trm.trim with
  | some t =>
    if !t.waiting then d
    else if d.trm.store.blank then { d with trm.trim := some { t with waiting := false } }
    else { (d.wr F.TRM_TRIM_CTRL_BUSY 0 0) with trm.trim := none }.trimEnd t.port 1 0
  | none => d

/-- A spare serves a channel from the next conversion on (R361). If it stands in for another in a check, that check ends: it is free until then
(R360). Log entry 133 (DEDUCED). -/
def Dev.spareFor (d : Dev) (k x : Nat) : Dev :=
  let d := match d.trm.check with | some (_, y) => if x = y then d.checkOver else d | none => d
  ((d.wr (spareFld x) 0 k).wr F.TRM_CH_REPLACED k 1).raise .secure 0x1203 [(1, k), (1, x)]

/-- A channel's converter has failed: the stand-in stays, or the lowest free spare takes over, or the channel is lost. -/
def Dev.failChannel (d : Dev) (k : Nat) (standIn : Option Nat) : Dev :=
  match standIn.or d.freeSpare with
  | some x => d.spareFor k x
  | none => d.loseChannel k

/-- A spare fails: it is never used again, and a channel that it served has failed again. Log entry 133 (DEDUCED). -/
def Dev.dropSpare (d : Dev) (x : Nat) : Dev :=
  let served := d.rd (spareFld x)
  let d := { d with trm.badSpares := x :: d.trm.badSpares }
  if served = 0x1F then d
  else ((d.wr (spareFld x) 0 0x1F).wr F.TRM_CH_REPLACED served 0).failChannel served none

/-- The axis functions that no enable reaches until the next full reset (R361). -/
def Dev.barred (d : Dev) (f : Func) : Bool :=
  match f with
  | .mot n => d.trm.failed.any fun k => decide (k / 2 = n.val)
  | .srv a => d.trm.failed.any fun k => decide (8 ≤ k) && decide ((k - 8) / 3 = a.val)
  | _ => false

/-- A corrected reading lies more than 2 % from 1.200 V, 24,000 codes (R354, R360). -/
def offReference (reading : Int) : Bool := decide (480 < (reading - 24000).natAbs)

/-- The check of all channels at cast-on step 15: the spares that serve
channels are decided again, first the spares themselves, then channels 0 to 23 (R360, R361). A channel without a reading
passes. Log entry 133 (DEDUCED). -/
def Dev.checkChannels (d : Dev) (readings : List Int) : Dev :=
  let bad := fun (d : Dev) (k : Nat) => decide (d.rd F.TRM_CH_STATUS k = 2) || offReference (readings.getD k 24000)
  let d := (List.range 24).foldl (fun (d : Dev) (k : Nat) => d.wr F.TRM_CH_REPLACED k 0) ((d.wr (spareFld 0) 0 0x1F).wr (spareFld 1) 0 0x1F)
  let d := (List.range 2).foldl (fun (d : Dev) (x : Nat) =>
    if bad d (24 + x) && !d.trm.badSpares.contains x then d.dropSpare x else d) d
  (List.range 24).foldl (fun (d : Dev) (k : Nat) => if bad d k && !d.trm.failed.contains k then d.failChannel k none else d) d

/-! ### The trim (R357, R358) -/

/-- A write to TRM_TRIM_CTRL with the right KEY: RES_MAX, then GO. A GO that comes while a check runs waits for it (R361). Log entries 131 (DEDUCED), 136 (DEDUCED). -/
def Dev.wTrim (d : Dev) (m : Master) (val mask : Nat) : Dev :=
  let v := Nat.land val mask
  if bitsOf v 31 16 ≠ 0x5452 then d
  else
  let d := d.store R.TRM_TRIM_CTRL 0 val mask
  if !v.testBit 0 then d
  else if d.trm.trim.isSome then d.trimEnd (portOf m) 3 0
  else if d.trm.check.isNone && !d.trm.store.blank then d.trimEnd (portOf m) 1 0
  else { (d.wr F.TRM_TRIM_CTRL_BUSY 0 1) with trm.trim := some { port := portOf m, waiting := d.trm.check.isSome } }

/-- The record that the measurements of a channel give, in 1/16 code (R357). A quotient that no field holds leaves it open. Log entries 132 (DESIGN CHOICE), 134 (DEDUCED). -/
def Dev.trimRec (d : Dev) (rLo rHi sLo sHi : Int) : TrimRec × Dev :=
  let span := rHi - rLo
  let g := if 0 < span then roundDiv (25000 * 32768 * 16) span.toNat else 65536
  let o := roundDiv (2 * rLo - rHi) 16
  let (gain, d) : Nat × Dev := if g < 65536 then (g.toNat, d) else d.free 65536
  let (off, d) : Int × Dev := if -32768 ≤ o ∧ o ≤ 32767 then (o, d) else let (v, d) := d.free 65536; (toSigned 16 v, d)
  -- errors in 2^-19 code
  let err := fun (s nominal : Int) => ((s - 16 * off) * gain - nominal * 16 * 32768).natAbs
  let q := min 255 (roundDiv (max (err sLo 25000) (err sHi 50000) : Nat) 32768).toNat
  ({ gain := gain, off := off, quality := q, status := if q ≤ d.rd F.TRM_TRIM_CTRL_RES_MAX then 1 else 2 }, d)

/-- The content to program: the records by channel, and the eye of each link that is UP (R357 step 5). Log entry 130 (PRESUMED). -/
def Dev.trimContent (d : Dev) (recs : List (Nat × TrimRec)) : Nat :=
  let r := (List.range 26).foldl (fun v k => v + ((recs.lookup k).getD {}).word * 2 ^ (48 * k)) 0
  (List.range 32).foldl (fun v l =>
    v + (if d.linkUp l then d.rd F.HL_TAPS_EYE l else 0) * 2 ^ (48 * 26 + 8 * l)) r

/-- One channel's measurement completes (R357 steps 1 to 4). -/
def Dev.trimMeasured (d : Dev) (rLo rHi sLo sHi : Int) : Dev :=
  match d.trm.trim with
  | some t =>
    if t.waiting ∨ t.prog.isSome then d
    else if rHi < 48500 * 16 ∨ 51500 * 16 < rHi then
      { (d.wr F.TRM_TRIM_CTRL_BUSY 0 0) with trm.trim := none }.trimEnd t.port 2 0
    else
      let (r, d) := d.trimRec rLo rHi sLo sHi
      let t := { t with recs := t.recs ++ [(trimChannel t.place, r)], place := t.place + 1 }
      let t := if t.place = 26 then { t with prog := some (d.trimContent t.recs) } else t
      { d with trm.trim := some t }
  | none => d

/-- The store is programmed: all copies and the CRC; the new figures are in use (R357 step 6). -/
def Dev.trimProgrammed (d : Dev) : Dev :=
  match d.trm.trim with
  | some { prog := some v, recs := recs, port := port, .. } =>
    let failed := (recs.filter fun r => decide (r.2.status = 2)).length
    let d := { d with trm.store := Fuse.of storeBytesN v, trm.trim := none }
    (d.loadTrim.wr F.TRM_TRIM_CTRL_BUSY 0 0).trimEnd port 0 failed
  | _ => d

/-! ### The check in service (R360) -/

/-- The next channel in turn whose own converter still serves it. Log entry 133 (DEDUCED). -/
def Dev.nextChecked (d : Dev) : Option Nat :=
  ((List.range 24).map fun i => (d.trm.next + i) % 24).find? fun k => !d.on F.TRM_CH_REPLACED k && !d.trm.failed.contains k

/-- A check starts: a free spare stands in. Log entry 133 (DEDUCED). -/
def Dev.beginCheck (d : Dev) : Dev :=
  if d.trm.trim.isSome ∨ d.trm.check.isSome then d
  else match d.freeSpare, d.nextChecked with
    | some x, some k => { d with trm.check := some (k, x), trm.next := (k + 1) % 24 }
    | _, _ => d

/-- A check ends; a trim that waited for it starts. -/
def Dev.endCheck (d : Dev) (reading : Int) : Dev :=
  match d.trm.check with
  | none => d
  | some (k, x) =>
    let d := d.checkOver
    if offReference reading then d.failChannel k (if d.trm.badSpares.contains x then none else some x) else d

/-! ### Commands -/

def execTrimGo (m : Master) (val : Nat) (s : State) : Host.Outcome State Fault Refusal :=
  s.act fun d => d.writeTo m R.TRM_TRIM_CTRL 0 fun d => d.wTrim m val mask32

def execTrimMeasureDone (rLo rHi sLo sHi : Int) (s : State) : Host.Outcome State Fault Refusal :=
  s.act fun d => d.trimMeasured rLo rHi sLo sHi

def execTrimProgDone (s : State) : Host.Outcome State Fault Refusal := s.actInOrder Dev.trimProgrammed

def execAnalogCheck (s : State) : Host.Outcome State Fault Refusal := s.act Dev.beginCheck

def execAnalogCheckDone (reading : Int) (s : State) : Host.Outcome State Fault Refusal := s.actInOrder fun d => d.endCheck reading

/-- 1,024 consecutive conversions return the same code (R360). -/
def execAnalogStuck (k : Fin 26) (s : State) : Host.Outcome State Fault Refusal :=
  s.actInOrder fun d =>
    if 24 ≤ k.val then (if d.trm.badSpares.contains (k.val - 24) then d else d.dropSpare (k.val - 24))
    else if d.on F.TRM_CH_REPLACED k ∨ d.trm.failed.contains k.val then d
    else
      let x := match d.trm.check with
        | some (j, x) => if j = k.val ∧ !d.trm.badSpares.contains x then some x else none
        | none => none
      d.failChannel k x

end Sys2Proof.Machine
end

