-- ==== Sys2Proof/Machine/Func.lean ====
section
/-!
DEFINITION. Starting and stopping functions (chapter 4, R72 to R74): enable writes, the kept request, the start and stop work of
each function, WEDGED; and the configuration register of a stepper axis (R321).
-/

namespace Sys2Proof.Machine

/-- The enable field of a function (R74 and the functions' own chapters). -/
def Func.enable : Func → Fld × Nat
  | .dec => (F.CD_CTRL_DEC_ENABLE, 0)
  | .enc => (F.CD_CTRL_ENC_ENABLE, 0)
  | .q n => (F.WT_Qn_CFG_ENABLE, n.val)
  | .f0 => (F.WT_F0_CFG_ENABLE, 0)
  | .eth e => (F.ETH_CFG_ENABLE, e.val)
  | .cam c => (F.INS_Cc_CFG_ENABLE, c.val)
  | .nzh => (F.NZ_CTRL_ENABLE, 0)
  | .mot n => (F.MOT_n_CFG_ENABLE, n.val)
  | .srv a => (F.SV_a_CFG_ENABLE, a.val)

/-- Step s of cast-on is skipped (R66, R69). Log entry 138 (DEDUCED). -/
def Dev.skipped (d : Dev) (step : Nat) : Bool := d.bit F.SYS_CLOG_DIR_SKIP (step - 1)

/-- The function exists under the Pattern, the directives in force (R66), its fabric port (R15) and its own chapter (R230, R332,
R361); otherwise it reports itself disabled, and its enable reads 0 and ignores writes. Log entry 138 (DEDUCED). -/
def Dev.permits (d : Dev) (f : Func) : Bool :=
  !d.barred f && (match f with
    | .cam c => d.inspect.camMask.testBit c.val && (d.fed 0x0E81 && (!d.skipped 14 && !d.bit F.SYS_CLOG_DIR_CAM_OFF c.val))
    | .nzh => d.inspect.nzh && (d.fed 0x0F81 && !d.skipped 14)
    | .mot n => !d.on F.MOT_n_STAT_ABSENT n.val && !d.skipped 15
    | .srv a => (d.servoSec a.val).enable && !d.skipped 15
    | _ => true)

/-- What a start does as it begins: a servo axis starts its current loop and aligns (R352). Log entry 137 (DEDUCED). -/
def Dev.startBegins (d : Dev) (f : Func) : Dev :=
  match f with
  | .srv a => d.srvStart a
  | _ => d

/-- What a start has done when it ends (R74; R215 cameras, R230 nozzle health, R352 servo axes): it is fresh, nothing of before a stop standing (R72). Log entry 137 (DEDUCED). -/
def Dev.startEnds (d : Dev) (f : Func) : Dev :=
  match f with
  | .dec => d.startDecode
  | .enc => (List.range 4).foldl (fun (d : Dev) (n : Nat) => d.wr F.CD_ENCn_STAT_STATE n 0) d
  | .q n => d.setQuad n fun q => { q with illegal := [], index := none, last := 0, prev := 0 }
  | .f0 => { d with web.f0Last := 0 }
  | .eth _ => d
  | .cam c => d.camStarts c.val
  | .nzh => d.nzhStarts
  | .mot n => (d.setMotion n.val 0).setAxis n.val fun _ => {}
  | .srv a => d.srvOn a

/-- What a stop does as it begins (R74, R324, R215). -/
def Dev.stopBegins (d : Dev) (f : Func) : Dev :=
  match f with
  | .dec => d.stopDecode
  | .enc => (List.range 4).foldl (fun (d : Dev) (n : Nat) => d.stopEncode n) d
  | .eth e =>
    let d := if (d.upload e.val).running then d.endUpload e.val 2 else d
    d.setPtp e fun _ => {}
  | .cam c => d.camLeaves c.val
  | .nzh => d.nzhStops
  | .mot n => d.motStop n.val 11
  | _ => d

/-- What a stop has done when it ends. -/
def Dev.stopEnds (d : Dev) (f : Func) : Dev :=
  match f with
  | .cam c => d.camStopped c.val
  | .srv a => d.srvOff a
  | _ => d

/-- Begin the transition to a target (R72). -/
def Dev.beginTransition (d : Dev) (f : Func) (on : Bool) : Dev :=
  let d := d.setFunc f { st := if on then .starting else .stopping }
  if on then d.startBegins f else d.stopBegins f

/-- A request to a function (R72, R73): it begins a transition, is kept while one runs, is discarded where it equals the
target, and is ignored when the function is WEDGED. The enable field reads the last value written, or 0 for a function that
reports itself disabled. Log entry 138 (DEDUCED). -/
def Dev.enableReq (d : Dev) (f : Func) (on : Bool) : Dev :=
  let (fld, i) := Func.enable f
  if !d.permits f then d.wrB fld i false
  else
    let d := d.wrB fld i on
    let s := d.func f
    match s.st with
    | .wedged => d
    | .off => if on then d.beginTransition f true else d
    | .on => if on then d else d.beginTransition f false
    | .starting => d.setFunc f { s with kept := if on then none else some false }
    | .stopping => d.setFunc f { s with kept := if on then some true else none }

/-- A servo axis is not ON before its alignment ends, nor OFF before the generator has braked it to standstill (R352). Log entry 137 (DEDUCED). -/
def Dev.transitionRuns (d : Dev) (f : Func) : Bool :=
  match f with
  | .srv a =>
    let x := d.sAxis a.val
    if d.srvState a = .starting then x.aligning else decide (x.v ≠ 0)
  | _ => false

/-- The check of cast-on step 15 runs on an axis (R332, R353). -/
def Dev.underCheck (d : Dev) (f : Func) : Bool :=
  match f with
  | .mot n => (d.mAxis n.val).check.isSome
  | .srv a => (d.sAxis a.val).checking
  | _ => false

/-- The work of a transition ends, and a kept request begins the matching one (R72). Log entry 137 (DEDUCED). -/
def Dev.transitionDone (d : Dev) (f : Func) : Dev :=
  if d.transitionRuns f || d.underCheck f then d else
  let s := d.func f
  match s.st with
  | .starting =>
    let d := (d.setFunc f { st := .on }).startEnds f
    if s.kept = some false then d.beginTransition f false else d
  | .stopping =>
    let d := (d.setFunc f {}).stopEnds f
    if s.kept = some true then d.beginTransition f true else d
  | _ => d

/-- A function whose wedging stops firing (R364): the decode lanes, and the channel that is the web source. Log entry 139 (DEDUCED). -/
def Dev.haltClass (d : Dev) (f : Func) : Bool :=
  match f with
  | .dec => true
  | .q n => decide (n.val = 0) && d.webIsQ0
  | .f0 => !d.webIsQ0
  | _ => false

/-- A transition exceeds its limit (R73). The outputs of a servo axis go low, as do those of a stepper axis (R318, R333); REG reads 0 once nozzle
health, its outputs unconnected, feeds it no more (R347). Log entry 139 (DEDUCED). -/
def Dev.wedge (d : Dev) (f : Func) : Dev :=
  let s := d.func f
  if s.st ≠ .starting ∧ s.st ≠ .stopping then d
  else
    let d := d.setFunc f { st := .wedged }
    let d := match f with
      | .srv a => (d.setBridge a .off).setSrv a fun x => { x with checking := false }
      | .mot n => d.setAxis n.val fun x => { x with low := true, check := none }
      | .nzh => d.wrS F.SV_REG_REG 0 0
      | _ => d
    let d := { d with sys.halted := d.sys.halted || d.haltClass f }
    d.raise .secure 0x0106 [(1, Func.block f), (1, Func.index f)]

/-- The check of step 15 begins on an axis, as a transition that ends in OFF: a request that arrives meanwhile is kept (R72, R332, R353). Log entry 177 (DEDUCED). -/
def Dev.beginAxisCheck (d : Dev) (f : Func) : Dev :=
  let s := d.func f
  if s.st = .wedged then d
  else
    let d := match f with
      | .mot n => d.motCheck n
      | .srv a => d.srvCheck a
      | _ => d
    d.setFunc f { st := .stopping, kept := if s.st = .stopping then s.kept else none }

/-- The check ends: the axis is OFF, and a kept enable starts it (R72). Log entry 177 (DEDUCED). -/
def Dev.endAxisCheck (d : Dev) (f : Func) : Dev :=
  let s := d.func f
  if s.st = .wedged then d
  else
    let d := match f with
      | .mot n => (d.setMotion n.val 0).setAxis n.val fun _ => {}
      | .srv a => (if d.srvRuns a then d.srvOff a else d).setSrv a fun x => { x with checking := false, asked := false }
      | _ => d
    let d := d.setFunc f {}
    if s.kept = some true ∧ d.permits f then d.beginTransition f true else d

/-- A write to a register that holds an enable: the other fields by their types, then the request, if the enable was written. -/
def Dev.wEnable (d : Dev) (f : Func) (val mask : Nat) : Dev :=
  let (fld, i) := Func.enable f
  let old := d.rd fld i
  let d := (d.store fld.reg i val mask).wr fld i old
  if mask.testBit fld.lo then d.enableReq f (val.testBit fld.lo) else d

/-- CD_CTRL holds two enables (R74). -/
def Dev.wCdCtrl (d : Dev) (val mask : Nat) : Dev :=
  let dec := d.rd F.CD_CTRL_DEC_ENABLE
  let enc := d.rd F.CD_CTRL_ENC_ENABLE
  let d := ((d.store R.CD_CTRL 0 val mask).wr F.CD_CTRL_DEC_ENABLE 0 dec).wr F.CD_CTRL_ENC_ENABLE 0 enc
  let d := if mask.testBit 0 then d.enableReq .dec (val.testBit 0) else d
  if mask.testBit 1 then d.enableReq .enc (val.testBit 1) else d

/-- ETH_CFG: once cast-on step 10 is over, the SPEED of a port that the TIME section names ignores writes (R48). Log entry 209 (DESIGN CHOICE). -/
def Dev.wEthCfg (d : Dev) (e : Fin 2) (val mask : Nat) : Dev :=
  let speed := d.rd F.ETH_CFG_SPEED e
  let fixed := d.tmb.running && d.pat.loaded.time.ports.testBit e.val
  let d := d.wEnable (.eth e) val mask
  if fixed then d.wr F.ETH_CFG_SPEED e speed else d

/-- INS_Cc_CFG, whose CAPTURE reads 0 without a good buffer. -/
def Dev.wCamCfg (d : Dev) (c : Fin 8) (val mask : Nat) : Dev := (d.wEnable (.cam c) val mask).checkCapture c.val

/-- MOT_n_CFG (R321, R329): SOURCE changes only while the axis is IDLE and never to EXTERNAL while F0 is the web source; GANG
exists in M1 only. -/
def Dev.wMotCfg (d : Dev) (n : Fin 4) (val mask : Nat) : Dev :=
  let source := d.rd F.MOT_n_CFG_SOURCE n
  let idle := decide (d.motion n = 0)
  let d := d.wEnable (.mot n) val mask
  let d := if !idle || !d.webIsQ0 then d.wr F.MOT_n_CFG_SOURCE n (if d.webIsQ0 then source else 0) else d
  if n.val = 1 then d else d.wrB F.MOT_n_CFG_GANG n false

/-! ### The commands -/

def execFunctionEnableWrite (m : Master) (f : Func) (en : Bool) (s : State) : Host.Outcome State Fault Refusal :=
  s.actInOrder fun d => d.writeTo m (Func.enable f).1.reg (Func.enable f).2 fun d => d.enableReq f en

def execFunctionTransitionDone (f : Func) (s : State) : Host.Outcome State Fault Refusal := s.actInOrder fun d => d.transitionDone f

def execFunctionWedged (f : Func) (s : State) : Host.Outcome State Fault Refusal := s.act fun d => d.wedge f

def execMotSourceWrite (m : Master) (n : Fin 4) (val : Nat) (s : State) : Host.Outcome State Fault Refusal :=
  s.actInOrder fun d => d.writeTo m R.MOT_n_CFG n fun d => d.wMotCfg n val mask32

end Sys2Proof.Machine
end

