-- ==== Sys2Proof/Machine/BindOff.lean ====
section
/-!
DEFINITION. What ends a cast-on early, and bind-off (chapter 4): the cast-on log's decision when a step fails (R66, R68), the
counter save area, and the bind-off steps (R70, R71).
-/

namespace Sys2Proof.Machine

/-- The cast-on step in progress, or where cast-on stopped. -/
def Dev.castStep (d : Dev) : Nat := d.rd F.SYS_CASTON_STAT_STEP



/-! ### The counter save area -/

/-- An actuation counter with its running delta (R292). -/
def Dev.actTotal (d : Dev) (nz : Nat) : Nat := F.HL_ACT_COUNT.sum (d.rd F.HL_ACT_COUNT nz) (mapGet d.snapD (F.HL_ACT_COUNT.key nz) 0)

def Dev.saveBase (d : Dev) : Nat := d.rd F.SYS_SAVE_BASE_BASE * 2 ^ 21

/-- The save area lies in a Secure region below the installed capacity. Log entry 143 (DEDUCED). -/
def Dev.saveAreaOk (d : Dev) : Bool :=
  decide (d.saveBase + 2 ^ 21 ≤ d.capacity) && (d.pat.loaded.worlds.regions.any fun r =>
    r.secure && (decide (r.base * 2 ^ 21 ≤ d.saveBase) && decide (d.saveBase + 2 ^ 21 ≤ (r.base + r.size) * 2 ^ 21)))

/-- A write of SYS_SAVE_BASE: ENABLE reads 0 where the area does not lie as its field's row says. Log entry 143 (DEDUCED). -/
def Dev.wSaveBase (d : Dev) (val mask : Nat) : Dev :=
  let d := d.store R.SYS_SAVE_BASE 0 val mask
  if d.saveAreaOk then d else d.wrB F.SYS_SAVE_BASE_ENABLE 0 false

/-- The save area's bytes that are not 0: a 64-bit word for each nozzle in N# order (log entry 13). -/
def Dev.saveCells (d : Dev) : List Host.Cell :=
  (List.range 131072).flatMap fun nz => (leBytes 8 (d.actTotal nz)).zipIdx.filterMap fun p =>
    if p.1 = 0 then none else some (d.saveBase + 8 * nz + p.2, p.1)

/-- The per-nozzle counters are written to the save area, if it is enabled (R70, R71), but not once a reset is latched (R62); requester 16. Log entries 13 (PRESUMED), 143 (DEDUCED). -/
def Dev.saveCounters (d : Dev) : Dev :=
  if !d.on F.SYS_SAVE_BASE_ENABLE ∨ d.sys.reset.isSome then d
  else match d.checkDram (d.masterSecure 16) d.saveBase (2 ^ 20) with
    | .unmapped => d
    | .world => d.worldViolation d.saveBase 16
    | .pass => (granules d.saveBase (2 ^ 20)).foldl (fun (d : Dev) g => d.moveGranule 16 g) { d with
        mem := (d.mem.filter fun c => decide (c.1 < d.saveBase)) ++ d.saveCells ++
          d.mem.filter fun c => decide (d.saveBase + 2 ^ 20 ≤ c.1)
        ue := d.ue.filter fun c => !(decide (d.saveBase ≤ c * 16) && decide (c * 16 < d.saveBase + 2 ^ 20)) }

/-- Counters are reloaded from the save area (R63 step 16). A counter in an uncorrectable granule, or in a
code word that came back miscorrected (R252), takes a free value. Log entry 13 (PRESUMED). -/
def Dev.reloadCounters (d : Dev) : Dev :=
  if !d.on F.SYS_SAVE_BASE_ENABLE then d
  else match d.checkDram (d.masterSecure 16) d.saveBase (2 ^ 20) with
    | .unmapped => d
    | .world => d.worldViolation d.saveBase 16
    | .pass =>
      let (wrong, d) := (granules d.saveBase (2 ^ 20)).foldl (fun (r : List Nat × Dev) g =>
        let (ws, d) := r.2.takeGranule 16 none g
        (r.1 ++ ws, d)) ([], d)
      let bad := (granules d.saveBase (2 ^ 20)).filter d.granuleBad
      (List.range 131072).foldl (fun (d : Dev) (nz : Nat) =>
        let a := d.saveBase + 8 * nz
        let (v, d) : Nat × Dev := if bad.contains (a / 128 * 128) ∨ wrong.contains (a / 16) then d.free (2 ^ 48) else (d.load a 8 % 2 ^ 48, d)
        if v = 0 then d else d.wr F.HL_ACT_COUNT nz v) d

/-! ### Bind-off (R70, R71) -/

def Dev.setBind (d : Dev) (f : BindOff → BindOff) : Dev := { d with sys.bindOff := d.sys.bindOff.map f }

/-- Steps 3 to 5 begin. Log entry 47 (DEDUCED). -/
def Dev.bindFlush (d : Dev) : Dev :=
  let d := d.setBind fun b => { b with step := 3 }
  let d := if d.stepPassed 8 then d.saveCounters else d
  let d := if d.stepPassed 12 then d.usagePeriod else d
  if d.stepPassed 2 then d.saveUsage.saveTime else d

/-- Step 2 begins: the capping move, unless NO_CAP is set or the axes do not run. Log entry 142 (DEDUCED). -/
def Dev.bindCap (d : Dev) : Dev :=
  let noCap := match d.sys.bindOff with | some b => b.noCap | none => true
  if noCap || !d.stepPassed 15 then d.bindFlush else (d.setBind fun b => { b with step := 2 }).capStart none

/-- Bind-off starts: no new page starts. Log entry 141 (DEDUCED). -/
def Dev.startBindOff (d : Dev) : Dev := (d.setBind fun b => { b with running := true, step := 1 }).wr F.SYS_CASTON_STAT_STATE 0 3

/-- A write of GO (R70, R71): it starts bind-off, or is held until cast-on ends; during bind-off it is ignored. Log entry 141 (DEDUCED). -/
def Dev.wBindOff (d : Dev) (val : Nat) : Dev :=
  if !val.testBit 0 ∨ d.sys.bindOff.isSome ∨ d.sys.reset.isSome then d
  else
    let d := { d with sys.bindOff := some { abortPage := val.testBit 1, noCap := val.testBit 2 } }
    if d.sys.castOn ∨ d.sys.autoReset.isSome then d else d.startBindOff

/-- Every link holds electrical idle. Log entry 142 (DEDUCED). -/
def Dev.idleLinks (d : Dev) : Dev :=
  (List.finRange 32).foldl (fun (d : Dev) (l : Fin 32) => if (d.linkSec l).enable then d.takeDown l else d) d

/-- STATE of both channels: 0 INIT, 1 RUN, 3 SELF_REFRESH. -/
def Dev.dramState (d : Dev) (n : Nat) : Dev := (d.wr F.DM_STAT_STATE 0 n).wr F.DM_STAT_STATE 1 n

/-- A bind-off step has met its end condition. Log entry 142 (DEDUCED). -/
def Dev.bindStepDone (d : Dev) : Dev :=
  match d.sys.bindOff with
  | none => d
  | some b =>
    if !b.running then d
    else match b.step with
      | 1 => if !d.pageRuns ∨ b.abortPage ∨ d.pace.inhibit then d.bindCap else d
      | 2 =>
        if d.mot.cap.isSome then d
        else (if d.rd F.MOT_CAP_CTRL_RESULT = 0 then d else d.raise .secure 0x0105 []).bindFlush
      | 3 => d.setBind fun b => { b with step := 4 }
      | 4 => (if d.stepPassed 6 then d.dramState 3 else d).setBind fun b => { b with step := 5 }
      | 5 => (((d.idleLinks.setBind fun b => { b with step := 6 }).raise .secure 0x0104 [])).wr F.SYS_CASTON_STAT_STATE 0 4
      | _ => d

/-- Capping is not done within 30 s. Log entry 142 (DEDUCED). -/
def Dev.bindCapTimeout (d : Dev) : Dev :=
  match d.sys.bindOff with
  | some b => if b.running ∧ b.step = 2 ∧ d.mot.cap.isSome then (d.raise .secure 0x0105 []).bindFlush else d
  | none => d

/-! ### A failed cast-on step (R66, R68) -/

/-- What the device does when a step fails: R66 applied to the POLICY entry. -/
inductive CastAction where
  | stop
  | retry
  | skip
  /-- The directive of an ALT value. -/
  | alternate (alt : Nat)
deriving DecidableEq, Repr

/-- ALT values that a step admits. Log entry 14 (DEDUCED). -/
def admittedAlts (step : Nat) : List Nat :=
  if step = 6 then [2, 1] else if step = 7 then [2] else if step = 9 then [3, 1]
  else if step = 11 ∨ step = 12 then [4, 1] else if step = 14 then [5, 1] else if step = 15 then [1] else []

/-- The POLICY entry of a step after R66: an entry whose ALT its step does not admit is STOP, whatever its ACTION. Log entries 14 (DEDUCED), 152 (DEDUCED). -/
def Dev.castAction (d : Dev) (step : Nat) : CastAction :=
  let p : PolicyEnt := at' d.pat.loaded.policy (step - 1)
  if step ≤ 5 ∨ step = 8 ∨ (p.alt ≠ 0 ∧ !(admittedAlts step).contains p.alt) then .stop
  else match p.action with
    | 1 => .retry
    | 2 => if step = 10 ∨ step = 14 ∨ step = 15 then .skip else .stop
    | 3 =>
      if p.alt = 0 then .stop
      else if p.alt = 1 ∧ 2 ≤ d.sys.bootsel then .stop
      else if p.alt = 2 ∧ d.pat.loaded.dram.speed = 0 then .stop
      else .alternate p.alt
    | _ => .stop

/-- The directives of the log. -/
structure CastFault where
  links : Nat := 0
  cams : Nat := 0
  engine : Nat := 0
  /-- Both engines failed step 9: SINGLE_ENGINE acts as STOP (R175). -/
  noEngine : Bool := false

/-- Directive bits of an ALT value, and whether it is in force already (log entry 14). Log entry 152 (DEDUCED). -/
def directive (dir alt : Nat) (x : CastFault) : Bool × Nat :=
  match alt with
  | 1 => (dir.testBit 40, 2 ^ 40)
  | 2 => (dir.testBit 41, 2 ^ 41)
  | 3 => (dir.testBit 42, 2 ^ 42 + x.engine % 2 * 2 ^ 43)
  | 4 => (decide (fieldOf 0 32 dir ≠ 0), x.links % 2 ^ 32)
  | _ => (decide (fieldOf 32 8 dir ≠ 0), x.cams % 2 ^ 8 * 2 ^ 32)

/-- Cast-on stops at the step: STATE reads STOPPED, and a held bind-off runs what it can (R68, R71). -/
def Dev.haltCastOn (d : Dev) : Dev :=
  let d := { d with sys.castOn := false }.wr F.SYS_CASTON_STAT_STATE 0 2
  if d.sys.bindOff.isSome then d.startBindOff else d

/-- Cast-on ends in an automatic reset, cold after steps 6 and 7 (R59, R68). -/
def Dev.orderReset (d : Dev) (step : Nat) : Dev :=
  { d with sys.castOn := false, sys.autoReset := some (if step = 6 ∨ step = 7 then .cold else .warm) }

/-- Step s fails with its code (R68). -/
def Dev.castFail (d : Dev) (step : Nat) (x : CastFault := {}) : Dev :=
  let l := d.log
  let n := min (fieldOf (4 * step - 4) 4 l.attempts + 1) 15
  let l := { l with attempts := fieldSet (4 * step - 4) 4 l.attempts n, lastStep := step, code := 16 * step + 1 }
  let most := (at' d.pat.loaded.policy (step - 1)).maxAttempts
  let action := d.castAction step
  match if x.noEngine ∧ action = .alternate 3 then .stop else action with
  | .stop => (d.setLog l).haltCastOn
  | a =>
    if n < most then (d.setLog l).orderReset step
    else match a with
      | .skip => (d.setLog { l with dir := Nat.lor l.dir (2 ^ (43 + step)) }).orderReset step
      | .alternate alt =>
        let (held, bits) := directive l.dir alt x
        if held then (d.setLog l).haltCastOn else (d.setLog { l with dir := Nat.lor l.dir bits }).orderReset step
      | _ => (d.setLog l).haltCastOn

/-! ### The commands -/

def execBindoffGo (m : Master) (val : Nat) (s : State) : Host.Outcome State Fault Refusal :=
  s.act fun d => d.writeTo m R.SYS_BINDOFF 0 fun d => d.wBindOff val

def execBindoffStepDone (s : State) : Host.Outcome State Fault Refusal := s.actInOrder Dev.bindStepDone

def execBindoffCapTimeout (s : State) : Host.Outcome State Fault Refusal := s.act Dev.bindCapTimeout

/-- A write of CLEAR takes effect at the next cast-on (R69). -/
def Dev.wClog (d : Dev) (val : Nat) : Dev := if val.testBit 0 then { d with sys.clearLog := true } else d

def execClogClear (m : Master) (val : Nat) (s : State) : Host.Outcome State Fault Refusal :=
  s.act fun d => d.writeTo m R.SYS_CLOG_CTRL 0 fun d => d.wClog val

end Sys2Proof.Machine
end

