-- ==== Sys2Proof/Machine/Pattern.lean ====
section
/-!
DEFINITION. The Pattern (chapter 3): reading an image, the verification steps of R52, applying a full image, the mailbox and the
staging area, and re-patterning.
-/

namespace Sys2Proof.Machine

/-! ### Reading an image -/

/-- One section record (R37), and its index in the image. -/
structure Rec where
  idx : Nat
  typ : Nat
  flags : Nat
  value : List Byte

/-- The records from the first one to the trailer (R37, R393), or the index of the record that fails step 4. -/
def walkRecs : Nat → Nat → List Byte → Except Nat (List Rec)
  | 0, idx, rest => if rest.isEmpty then .ok [] else .error (idx - 1)
  | n + 1, idx, rest =>
    let len := sliceNat rest 4 4
    if rest.length < 12 ∨ len % 4 ≠ 0 ∨ rest.length < 12 + len then .error idx
    else if crc32 (rest.take (8 + len)) ≠ sliceNat rest (8 + len) 4 then .error idx
    else (walkRecs n (idx + 1) (rest.drop (12 + len))).map fun rs =>
      ⟨idx, sliceNat rest 0 2, sliceNat rest 2 2, (rest.drop 8).take len⟩ :: rs

/-- All bytes of a range are 0. -/
def zeroAt (bs : List Byte) (off len : Nat) : Bool := decide (sliceNat bs off len = 0)

/-- Step 2: the header (R35), and the mailbox's LENGTH. -/
def headerOk (h : List Byte) (mbox : Option Nat) : Bool :=
  let len := sliceNat h 0xC 4
  let kind := sliceNat h 9 1
  let count := sliceNat h 0xA 2
  decide (sliceNat h 0 4 = 0x5441504B ∧ sliceNat h 4 2 = 1 ∧ kind ≤ 1 ∧ 1 ≤ count ∧ count ≤ 64) &&
    (decide (len % 4 = 0 ∧ 212 ≤ len ∧ len ≤ 4194304) && ((match mbox with | some m => decide (m = len) | none => true) &&
      (decide (sliceNat h 0x18 8 ≠ 0) && (decide (kind = 0 ↔ sliceNat h 0x20 8 = 0) &&
        (zeroAt h 0x12 2 && (zeroAt h 0x28 20 && decide (crc32 (h.take 0x3C) = sliceNat h 0x3C 4)))))))

/-- Step 5: the trailer's marker, its zero bytes, and the key's hash, which an unsealed device does not check (R38, R303). -/
def Dev.keyOk (d : Dev) (t : List Byte) : Bool :=
  decide (sliceNat t 0 4 = 0x4E474953) && (zeroAt t 69 3 &&
    (d.unsealed || decide (ofLeBytes (sha256 ((t.drop 4).take 65)) = d.vlt.used.rootHash.value)))

/-- Step 6: ECDSA P-256 over the image up to the trailer; the key is an uncompressed point (R38). Log entry 212 (DESIGN CHOICE). -/
def signatureOk (body t : List Byte) : Bool :=
  let be := fun off => ofBeBytes ((t.drop off).take 32)
  decide (sliceNat t 4 1 = 4) && ecdsaVerify (be 5) (be 37) (ofBeBytes (sha256 body)) (be 72) (be 104)

/-- Section types that R39 recognises. -/
def knownType (t : Nat) : Bool := decide (1 ≤ t) && decide (t ≤ 0xB)

/-- Sections that a full image requires (R39). -/
def requiredTypes : List Nat := [1, 2, 3, 4, 5, 6, 0xB]

/-- Step 8 on the records in turn: the index of the first that breaks the order, holds a reserved flag, or is unknown and CRITICAL
(R37, R40, R393). Log entry 15 (DEDUCED). -/
def recordFault : Nat → List Rec → Option Nat
  | _, [] => none
  | low, r :: rs =>
    if r.typ < low ∨ 2 ≤ r.flags ∨ (!knownType r.typ ∧ r.flags % 2 = 1) then some r.idx else recordFault (r.typ + 1) rs

/-- Step 8: the section set of a full image, or of a re-pattern image (R39, R394). A missing section has no record: SECTION 0. Log entry 171
(DESIGN CHOICE). -/
def setFault (kind : Nat) (rs : List Rec) : Option Nat :=
  let has := fun (t : Nat) => rs.any fun r => decide (r.typ = t)
  if kind = 0 then (if requiredTypes.all has then none else some 0)
  else match rs.find? fun r => knownType r.typ && !([6, 7, 0xB].contains r.typ) with
    | some r => some r.idx
    | none => if has 0xB && (has 6 || has 7) then none else some 0

/-! ### The sections (R394) -/

/-- The kind of a fabric port (R41): 0 PRED, 1 TRIG, 2 SLICE, 3 SUBST, 4 LINE, 5 CAM, 6 REG. -/
def portKind (p : Nat) : Option Nat :=
  [(0x0C01, 0), (0x0C02, 1), (0x0801, 2), (0x0881, 3), (0x0882, 0), (0x0981, 2), (0x0A81, 2), (0x0982, 0), (0x0A82, 0),
    (0x0901, 4), (0x0A01, 4), (0x0B81, 4), (0x0B82, 4), (0x0E81, 1), (0x0E01, 5), (0x0F81, 5), (0x0F01, 3), (0x0F02, 6),
    (0x1181, 6)].lookup p

/-- Each engine's consumer ports (R395). -/
def enginePorts (en : Nat) : List Nat := if en = 0 then [0x0981, 0x0982, 0x0B81] else [0x0A81, 0x0A82, 0x0B82]

/-- FABRIC: pairs of producer and consumer (R41, R42, R395). -/
def parseFabric (v : List Byte) : Option (List (Nat × Nat)) :=
  let n := sliceNat v 0 4
  let es := (List.range (min n 64)).map fun i => (sliceNat v (4 + 4 * i) 2, sliceNat v (6 + 4 * i) 2)
  let fed := fun (c : Nat) => es.any fun e => decide (e.2 = c)
  let legal := fun (e : Nat × Nat) => !e.1.testBit 7 && (e.2.testBit 7 && ((portKind e.1).isSome && (decide (portKind e.1 = portKind e.2) &&
    (!decide (e.2 = 0x0B81) || decide (e.1 = 0x0901)) && (!decide (e.2 = 0x0B82) || decide (e.1 = 0x0A01)))))
  let whole := fun (en : Nat) => (enginePorts en).all fed
  let bare := fun (en : Nat) => (enginePorts en).all fun c => !fed c
  if 1 ≤ n ∧ n ≤ 64 ∧ v.length = 4 + 4 * n ∧ es.all legal ∧ (es.map Prod.snd).Nodup ∧ es.contains (0x0C01, 0x0882) ∧
      (whole 0 || bare 0) ∧ (whole 1 || bare 1) ∧ (whole 0 || whole 1) then some es else none

def capacityOf (s : DramSec) : Nat := 2 * s.ranks * [16, 24, 32].getD s.density 16 * 2 ^ 30

/-- DRAM (R44). -/
def parseDram (v : List Byte) : Option DramSec :=
  let s : DramSec := { speed := sliceNat v 0 1, ranks := sliceNat v 1 1, density := sliceNat v 2 1, ppr := decide (sliceNat v 3 1 = 1)
                       scrubHours := sliceNat v 4 2, rebuildMbps := sliceNat v 6 2 }
  if v.length = 8 ∧ s.speed ≤ 3 ∧ 1 ≤ s.ranks ∧ s.ranks ≤ 2 ∧ s.density ≤ 2 ∧ sliceNat v 3 1 ≤ 1 ∧ 1 ≤ s.scrubHours ∧
      s.scrubHours ≤ 168 ∧ 100 ≤ s.rebuildMbps ∧ s.rebuildMbps ≤ 4000 ∧ capacityOf s ≤ 64 * 2 ^ 30 then some s else none

/-- Neighbours in order of BASE do not overlap. -/
def disjoint : List Region → Bool
  | a :: b :: rest => decide (a.base + a.size ≤ b.base) && disjoint (b :: rest)
  | _ => true

/-- WORLDS (R43), under the capacity that the DRAM section gives, if that section is good. -/
def parseWorlds (cap : Option Nat) (v : List Byte) : Option Worlds :=
  let n := sliceNat v 12 4
  let es := (List.range (min n 128)).map fun i => sliceNat v (16 + 8 * i) 8
  let rs := es.map fun e => Region.mk (fieldOf 0 19 e) (fieldOf 20 16 e) (e.testBit 36)
  let w : Worlds := { block := sliceNat v 0 4, port := sliceNat v 4 4, master := sliceNat v 8 4, regions := rs }
  let fits : Bool := match cap with | some c => rs.all fun r => decide ((r.base + r.size) * 2 ^ 21 ≤ c) | none => true
  if n ≤ 128 ∧ v.length = 16 + 8 * n ∧ w.block.testBit 2 ∧ w.block.testBit 3 ∧ !w.block.testBit 0 ∧ w.block < 2 ^ 21 ∧ w.port < 16 ∧
      w.master < 2 ^ 20 ∧ (es.all fun e => decide (e < 2 ^ 37) && !e.testBit 19) ∧
      (rs.all fun r => decide (1 ≤ r.size) && decide (r.size ≤ 32768)) ∧ fits ∧
      disjoint (rs.mergeSort fun a b => decide (a.base ≤ b.base)) then some w else none

/-- ARBITER (R268). -/
def parseArb (v : List Byte) : Option ArbSec :=
  let bytes := fun (off : Nat) => (List.range 64).map fun i => sliceNat v (off + i) 1
  let a : ArbSec := { cls := sliceNat v 0 8, starveN := sliceNat v 8 1, holdMax := sliceNat v 12 4, slots0 := bytes 16, slots1 := bytes 80 }
  if v.length = 144 ∧ a.cls < 2 ^ 40 ∧ 2 ≤ a.starveN ∧ a.starveN ≤ 64 ∧ zeroAt v 9 3 ∧ 64 ≤ a.holdMax ∧ a.holdMax ≤ 65535 ∧
      ownersOk a.slots0 ∧ ownersOk a.slots1 ∧ ([10, 11, 12, 13, 14, 15].all fun r => decide (a.cls / 4 ^ r % 4 ≠ 0))
    then some a else none

/-- LINKS: every entry is checked, whether or not its link is enabled. -/
def parseLinks (v : List Byte) : Option (List LinkSec) :=
  let es := (List.range 32).map fun i => sliceNat v (4 * i) 4
  let ls := es.map fun e => LinkSec.mk (e.testBit 0) (fieldOf 1 2 e) (fieldOf 3 2 e) (e.testBit 5)
  if v.length = 128 ∧ (es.all fun e => decide (e < 64)) ∧ (ls.all fun l => decide (1 ≤ l.genMin) && decide (l.genMin ≤ l.genMax))
    then some ls else none

/-- Heads in order of FIRST_COL (R136): each 2,048 - SELVEDGE above its predecessor, ranks alternating where they overlap. -/
def headsSpaced (selvedge : Nat) : List HeadSec → Bool
  | a :: b :: rest => decide (b.firstCol = a.firstCol + (2048 - selvedge) ∧ (selvedge = 0 ∨ a.rank ≠ b.rank)) && headsSpaced selvedge (b :: rest)
  | _ => true

/-- Highest line rate of R20 for the lowest generation. -/
def rateLimit (gen : Nat) (dual : Bool) : Nat := (if gen = 1 then 200000 else 240000) / (if dual then 2 else 1)

/-- The depth rule (R141), in 2^-16 lines, over the rows and the enabled cameras. -/
def depthOk (g : Gauge) (s : InspectSec) : Bool :=
  let lows := g.heads.map fun h => h.rowA
  let highs := (g.heads.map fun h => h.rowA + (h.rowB : Int)) ++ s.enabled.map fun c => ((c.webOffset + 160 : Nat) : Int) * 65536
  let dmin := lows.foldl min (lows.headD 0)
  let dmax := highs.foldl max (highs.headD 0)
  decide (-((-dmax) / 65536) - dmin / 65536 + 64 ≤ (g.windowLines : Int))

/-- Windows that a GAUGE may name (R45 rule 4). -/
def windowOk (g : Gauge) (w : Worlds) (cap : Nat) : Bool :=
  let a := g.windowBase
  let e := a + g.windowLines * 16384
  decide (e ≤ cap) && (w.regions.any fun r => decide (r.base * 2 ^ 21 ≤ a ∧ e ≤ (r.base + r.size) * 2 ^ 21) &&
    (!r.secure || ([0, 1, 2, 6, 8].all fun q => w.master.testBit q)))

/-- GAUGE: its fields, R45 and R136, under the other sections in force. -/
def parseGauge (links : List LinkSec) (w : Worlds) (cap : Nat) (s : InspectSec) (v : List Byte) : Option Gauge :=
  let n := sliceNat v 0 1
  let heads := (List.range n).map fun h =>
    let o := 24 + 16 * h
    HeadSec.mk (sliceNat v o 1) (sliceNat v (o + 1) 1) (sliceNat v (o + 2) 2) (toSigned 64 (sliceNat v (o + 4) 8)) (sliceNat v (o + 12) 4)
  let g : Gauge := { dual := decide (sliceNat v 1 1 = 1), fine := decide (sliceNat v 2 1 = 1), maxRate := sliceNat v 4 4, lpi := sliceNat v 8 2
                     selvedge := sliceNat v 10 2, windowLines := sliceNat v 12 4, windowBase := sliceNat v 16 8, heads := heads }
  let named := heads.map fun h => at' links h.link
  let low := named.foldl (fun m l => min m l.genMin) 3
  if 1 ≤ n ∧ n ≤ 32 ∧ v.length = 24 + 16 * n ∧ sliceNat v 1 1 ≤ 1 ∧ sliceNat v 2 1 ≤ 1 ∧ zeroAt v 3 1 ∧ 1 ≤ g.maxRate ∧
      g.maxRate ≤ 240000 ∧ 300 ≤ g.lpi ∧ g.lpi ≤ 2400 ∧ g.selvedge ≤ 256 ∧ 1024 ≤ g.windowLines ∧ g.windowLines ≤ 32768 ∧
      2 ^ Nat.log2 g.windowLines = g.windowLines ∧ g.windowBase % 2 ^ 21 = 0 ∧
      (heads.all fun h => decide (h.link < 32 ∧ h.rank ≤ 1 ∧ h.firstCol ≤ 63488)) ∧
      named.all LinkSec.enable ∧ (heads.map HeadSec.link).Nodup ∧ g.maxRate ≤ rateLimit low g.dual ∧
      (g.fine → named.all fun l => decide (l.genMin = 3)) ∧ windowOk g w cap ∧ depthOk g s ∧
      headsSpaced g.selvedge (heads.mergeSort fun a b => decide (a.firstCol ≤ b.firstCol)) then some g else none

/-- STAGES holds 4, 5, 6 and 7 in this order, and 1 to 3 at most once each before 4 (R46). -/
def stagesOk (st : List Nat) : Bool :=
  let pre := st.takeWhile fun x => decide (x ≠ 4)
  decide (st.dropWhile (fun x => decide (x ≠ 4)) = [4, 5, 6, 7]) && ((pre.all fun x => decide (1 ≤ x ∧ x ≤ 3)) && decide pre.Nodup)

/-- INSPECT (R46): entries of disabled cameras are ignored. -/
def parseInspect (v : List Byte) : Option InspectSec :=
  let raw := (List.range 8).map fun i => sliceNat v (2 + i) 1
  let st := raw.takeWhile fun x => decide (x ≠ 0)
  let cams := (List.range 8).map fun c =>
    let o := 12 + 16 * c
    CamSec.mk (sliceNat v o 1) (sliceNat v (o + 1) 1) (sliceNat v (o + 2) 2) (sliceNat v (o + 4) 2) (sliceNat v (o + 6) 2) (sliceNat v (o + 8) 4)
  let s : InspectSec := { camMask := sliceNat v 0 1, nzh := decide (sliceNat v 1 1 = 1), stages := st, cams := cams }
  let camOk := fun (c : Nat) =>
    let k : CamSec := at' cams c
    !s.camMask.testBit c || (decide ((k.lanes = 1 ∨ k.lanes = 2 ∨ k.lanes = 4) ∧ (k.dataType = 0x2B ∨ k.dataType = 0x2C) ∧ 1 ≤ k.pixels ∧
      k.pixels ≤ 4096 ∧ 16 ≤ k.frameLines ∧ k.frameLines ≤ 8192 ∧ 1 ≤ k.webOffset ∧ k.webOffset ≤ 32767) && zeroAt v (12 + 16 * c + 12) 4)
  if v.length = 140 ∧ sliceNat v 1 1 ≤ 1 ∧ zeroAt v 10 2 ∧ stagesOk st ∧ (raw.drop st.length).all (fun x => decide (x = 0)) ∧
      (List.range 8).all camOk then some s else none

/-- One SERVO entry (R47): bytes 1 to 7 of a disabled axis are not checked. -/
def parseAxis (v : List Byte) (o : Nat) : Option ServoSec :=
  let raw := (List.range 5).map fun i => sliceNat v (o + 3 + i) 1
  let st := raw.takeWhile fun x => decide (x ≠ 0)
  if 1 < sliceNat v o 1 then none
  else if sliceNat v o 1 = 0 then some {}
  else if sliceNat v (o + 1) 1 ≤ 3 ∧ sliceNat v (o + 2) 1 ≤ 2 ∧ st.head? = some 1 ∧ st.contains 2 ∧ st.Nodup ∧
      (st.all fun x => decide (x ≤ 5)) ∧ (raw.drop st.length).all (fun x => decide (x = 0)) then
    some { enable := true, feedback := sliceNat v (o + 1) 1, commutation := sliceNat v (o + 2) 1, stages := st }
  else none

/-- The commutation source of an axis: a Hall input, or its feedback. -/
def ServoSec.source (s : ServoSec) : Nat := if s.commutation = 2 then 2 + s.feedback else s.commutation

/-- SERVO: two enabled axes share neither source (R47). -/
def parseServo (v : List Byte) : Option (List ServoSec) :=
  match parseAxis v 0, parseAxis v 8 with
  | some a, some b =>
    if v.length = 16 ∧ ¬ (a.enable ∧ b.enable ∧ (a.feedback = b.feedback ∨ a.source = b.source)) then some [a, b] else none
  | _, _ => none

/-- TIME (R48). -/
def parseTime (v : List Byte) : Option TimeSec :=
  let ps := sliceNat v 3 1
  let t : TimeSec := { guard := decide (sliceNat v 0 1 = 1), domain := sliceNat v 1 1, ports := sliceNat v 2 1, speed := [ps % 4, ps / 4 % 4]
                       jumpMax := sliceNat v 4 4 }
  if v.length = 8 ∧ sliceNat v 0 1 ≤ 1 ∧ 1 ≤ t.ports ∧ t.ports ≤ 3 ∧ ps < 16 ∧ ps % 4 ≠ 3 ∧ ps / 4 ≠ 3 ∧
      (t.guard → 1 ≤ t.jumpMax ∧ t.jumpMax ≤ 1000000000) then some t else none

/-- POLICY (R396). -/
def parsePolicy (v : List Byte) : Option (List PolicyEnt) :=
  let es := (List.range 16).map fun i => sliceNat v (4 * i) 4
  let ps := es.map fun e => PolicyEnt.mk (e % 4) (fieldOf 2 4 e) (fieldOf 6 5 e)
  if v.length = 64 ∧ (es.all fun e => decide (e < 2 ^ 11)) ∧ (ps.all fun p => decide (1 ≤ p.maxAttempts ∧ p.alt ≤ 5)) then some ps else none

/-- BUDGET. -/
def parseBudget (v : List Byte) : Option Budget :=
  if v.length = 12 then some ⟨sliceNat v 0 2, sliceNat v 2 2, sliceNat v 4 2, sliceNat v 6 2, sliceNat v 8 1⟩ else none

/-- A section of a type: parsed, or its default where absent, or the index of its record where it fails step 9; a VALUE whose length
does not fit its table fails so too. Log entry 171 (DESIGN CHOICE). -/
def readSection {α : Type} (rs : List Rec) (t : Nat) (dflt : α) (f : List Byte → Option α) : α × Option Nat :=
  match rs.find? fun r => decide (r.typ = t) with
  | none => (dflt, none)
  | some r => match f r.value with
    | some x => (x, none)
    | none => (dflt, some r.idx)

/-! ### Verification -/

/-- What a verified image carries. -/
structure Image where
  kind : Nat
  base : Nat
  pattern : Pattern
  gauge : Option Gauge := none
  inspect : Option InspectSec := none

/-- Steps 9 and 10 on a full image. A section whose record is first among those that fail decides SECTION (log entry 15). Log entry 171 (DESIGN CHOICE). -/
def fullFields (h : List Byte) (rs : List Rec) : Except (Nat × Nat) Image :=
  let (fabric, e1) := readSection rs 1 [] parseFabric
  let (dram, e3) := readSection rs 3 {} parseDram
  let cap := capacityOf dram
  let (worlds, e2) := readSection rs 2 {} (parseWorlds (if e3.isSome then none else some cap))
  let (arb, e4) := readSection rs 4 {} parseArb
  let (links, e5) := readSection rs 5 [] parseLinks
  let (inspect, e7) := readSection rs 7 {} parseInspect
  let (gauge, e6) := readSection rs 6 {} (parseGauge links worlds cap inspect)
  let (servo, e8) := readSection rs 8 (List.replicate 2 {}) parseServo
  let (time, e9) := readSection rs 9 {} parseTime
  let (policy, e10) := readSection rs 0xA (List.replicate 16 {}) parsePolicy
  let (budget, e11) := readSection rs 0xB {} parseBudget
  match [e1, e2, e3, e4, e5, e6, e7, e8, e9, e10, e11].findSome? id with
  | some i => .error (0x09, i)
  | none =>
    if !(cyclesOk gauge inspect budget && slotsOk arb.cls gauge.heads.length inspect.pixels (creditOf dram.speed) budget.slots
        arb.slots0 arb.slots1) then .error (0x0A, 0)
    else .ok { kind := 0, base := 0, pattern := {
      rollback := sliceNat h 0x10 2, id := sliceNat h 0x18 8, fabric := fabric, worlds := worlds, dram := dram, arb := arb, links := links
      gauge := gauge, inspect := inspect, servo := servo, time := time, policy := policy, budget := budget } }

/-- Steps 9 and 10 on a re-pattern image, under the sections loaded and the speed and slot tables in use (R53). -/
def Dev.repatternFields (d : Dev) (h : List Byte) (rs : List Rec) : Except (Nat × Nat) Image :=
  let p := d.pat.loaded
  let (inspect, e7) := readSection rs 7 p.inspect parseInspect
  let (gauge, e6) := readSection rs 6 p.gauge (parseGauge p.links p.worlds (capacityOf p.dram) inspect)
  let (budget, e11) := readSection rs 0xB p.budget parseBudget
  let has := fun (t : Nat) => rs.any fun r => decide (r.typ = t)
  let deep := (readSection rs 7 () fun _ => if has 6 || depthOk gauge inspect then some () else none).2
  match [e6, e7, deep, e11].findSome? id with
  | some i => .error (0x09, i)
  | none =>
    if !(cyclesOk gauge inspect budget && slotsOk (d.rd F.MF_CLASS_CLASS) gauge.heads.length inspect.pixels
        (creditOf (d.rd F.DM_STAT_SPEED)) budget.slots (d.slotTable R.MF_SLOT_ACTIVE 0) (d.slotTable R.MF_SLOT_ACTIVE 1)) then .error (0x0A, 0)
    else .ok { kind := 1, base := sliceNat h 0x20 8, pattern := { p with budget := budget }
               gauge := if has 6 then some gauge else none, inspect := if has 7 then some inspect else none }

/-- Verification steps 2 to 10 in order, the first failing check deciding (R52): ERR and SECTION, or the image. `kind` is the KIND
that the load is for; the other KIND meets step 11 (log entry 16). Log entries 15 (DEDUCED), 144 (DEDUCED), 145 (DEDUCED). -/
def Dev.verifyImage (d : Dev) (kind : Nat) (img : List Byte) (mbox : Option Nat) : Except (Nat × Nat) Image :=
  let h := img.take 64
  let len := sliceNat h 0xC 4
  if !headerOk h mbox then .error (0x02, 0)
  else if sliceNat h 6 2 ≠ 0x7120 ∨ sliceNat h 8 1 ≠ 0xB0 then .error (0x03, 0)
  else if img.length < len then .error (0x01, 0)
  else
    let body := img.take (len - 136)
    let trailer := (img.drop (len - 136)).take 136
    match walkRecs (sliceNat h 0xA 2) 0 (body.drop 64) with
    | .error i => .error (0x04, i)
    | .ok rs =>
      if !d.keyOk trailer then .error (0x05, 0)
      else if !signatureOk body trailer then .error (0x06, 0)
      else if sliceNat h 0x10 2 < d.vlt.used.count then .error (0x07, 0)
      else match (recordFault 0 rs).orElse fun _ => setFault (sliceNat h 9 1) rs with
        | some i => .error (0x08, i)
        | none =>
          if sliceNat h 9 1 ≠ kind then .error (0x0B, 0)
          else if kind = 0 then fullFields h rs else d.repatternFields h rs

/-! ### Loading at cast-on (R49 to R51) -/

/-- The bytes of the staging area from its start. -/
def Dev.stagedBytes (d : Dev) (len : Nat) : List Byte := (List.range len).map fun i => mapGet d.pat.staging i 0

/-- Log entry 144 (DEDUCED). -/
def Dev.patState (d : Dev) (n : Nat) : Dev := d.wr F.PAT_STATUS_STATE 0 n

/-- Cast-on step 5 begins: the source by BOOTSEL, or slot B under IMAGE_B (R49, R66). Log entry 144 (DEDUCED). -/
def Dev.startPattern (d : Dev) : Dev :=
  let slotB := decide (d.sys.bootsel = 1) || (decide (d.sys.bootsel = 0) && d.on F.SYS_CLOG_DIR_IMAGE_B)
  let src := if slotB then 2 else if d.sys.bootsel = 0 then 1 else d.sys.bootsel + 1
  ({ d with pat.verify := none }.wr F.PAT_STATUS_SOURCE 0 src).patState 1

/-- The registers that show the Pattern (chapters 3, 5, 8, 10, 14 to 17). -/
def Dev.loadPattern (d : Dev) : Dev :=
  let p := d.pat.loaded
  let t := p.time
  let d := ((d.wr F.PAT_ID_PATTERN_ID 0 p.id).wr F.PAT_GEN_ROLLBACK 0 p.rollback).wrB F.TB_CTRL_MODE 0 t.guard
  let jump := if t.guard then t.jumpMax else 0
  let d := (d.wr F.TB_JUMP_MAX_JUMP_MAX 0 jump).wr F.TB_LIMITS_JUMP_MAX_US 0 (min 65535 ((jump + 999) / 1000))
  let d := (d.wr F.LA_WINDOW_BASE 0 (p.gauge.windowBase / 2 ^ 21)).wr F.LA_WINDOW_LOG_LINES 0 (Nat.log2 p.gauge.windowLines)
  let lone := d.on F.SYS_CLOG_DIR_SINGLE_ENGINE
  let d := (List.range 2).foldl (fun (d : Dev) (en : Nat) =>
    let here := (enginePorts en).all d.fed && !(lone && decide (d.rd F.SYS_CLOG_DIR_ENGINE ≠ en))
    let d := d.wrB F.PE_STAT_CONNECTED en here
    if here then d else ((d.wr F.PE_CLAIM_CLAIM en 0).wrB F.PE_CLAIM_DROPPED en true).wr F.PE_CLAIM_CAUSE en 5) d
  let d := (List.range 2).foldl (fun (d : Dev) (ch : Nat) =>
    let d := (d.wr F.DM_STAT_SPEED ch p.dram.speed).wr F.DM_STAT_RANKS ch (p.dram.ranks - 1)
    let d := (d.wr F.DM_SCRUB_HOURS ch p.dram.scrubHours).wr F.DM_REBUILD_MBPS ch p.dram.rebuildMbps
    d.wr F.DM_SPEED_CTRL_TARGET ch p.dram.speed) d
  let d := (List.range 2).foldl (fun (d : Dev) (q : Nat) => d.wrB F.HST_PORT_STAT_SECURE q (p.worlds.port.testBit q)) d
  (List.range 32).foldl (fun (d : Dev) (l : Nat) => d.wrB F.VLT_HEAD_STAT_POLICY l (at' p.links l).warn) d

/-- Cast-on step 8 loads the arbiter classes and the initial slot tables (R63, R275). Log entry 103 (DEDUCED). -/
def Dev.loadArbiter (d : Dev) : Dev :=
  let a := d.pat.loaded.arb
  let d := ((d.wr F.MF_CLASS_CLASS 0 a.cls).wr F.MF_ARB_CFG_STARVE_N 0 a.starveN).wr F.MF_ARB_CFG_HOLD_MAX 0 a.holdMax
  (List.range 32).foldl (fun (d : Dev) (i : Nat) =>
    let slots := if i < 16 then a.slots0 else a.slots1
    let v := (List.range 4).foldl (fun v k => v + at' slots (4 * (i % 16) + k) * 2 ^ (8 * k)) 0
    (d.setReg R.MF_SLOT_ACTIVE i v).setReg R.MF_SLOT_SHADOW i v) d

/-- A full image has passed: it is applied (R52). Log entry 103 (DEDUCED). -/
def Dev.applyFull (d : Dev) (p : Pattern) : Dev :=
  let d := { d with pat.applied := true, pat.loaded := p, pat.verify := none }
  ((d.loadPattern.patState 4).wr F.PAT_STATUS_ERR 0 0).wr F.PAT_STATUS_SECTION 0 0

/-- A source fails: slot B is read after slot A; otherwise step 5 fails (R49, R50). Log entry 174 (DEDUCED). -/
def Dev.sourceFails (d : Dev) (err sec : Nat) : Dev :=
  let d := ({ d with pat.verify := none }.wr F.PAT_STATUS_ERR 0 err).wr F.PAT_STATUS_SECTION 0 sec
  if d.rd F.PAT_STATUS_SOURCE = 1 then (d.wr F.PAT_STATUS_SOURCE 0 2).patState 1
  else (d.patState 5).castFail 5

/-- Cast-on step 5 runs, and no image has been applied. -/
def Dev.loading (d : Dev) : Bool := d.sys.castOn && (decide (d.castStep = 5) && !d.pat.applied)

/-- The source that step 5 is reading. -/
def ImageSource.is (s : ImageSource) (source : Nat) : Bool :=
  match s with
  | .flashA => decide (source = 1)
  | .flashB => decide (source = 2)
  | .mailbox => decide (source = 3 ∨ source = 4)

/-- An image arrives: steps 1 to 10, then it is applied, or the source fails (R52). An image of the mailbox is the one staged. Log entry 145 (DEDUCED). Log entry 211 (DESIGN CHOICE). -/
def Dev.imageArrived (d : Dev) (src : ImageSource) (complete : Bool) (img : List Byte) : Dev :=
  if !d.loading || !ImageSource.is src (d.rd F.PAT_STATUS_SOURCE) then d
  else
    let mbox := decide (2 < d.rd F.PAT_STATUS_SOURCE)
    if mbox ∧ d.pat.verify.isNone then d
    else
      let len := d.rd F.PAT_MBOX_LEN_LENGTH
      let d := if mbox then d else { d with pat.staging := storeBytes [] 0 (img.take 4194304) }
      let img := if mbox then d.stagedBytes (max 64 len) else img
      if !complete ∨ img.length < 64 then d.sourceFails 0x01 0
      else match d.verifyImage 0 img (if mbox then some len else none) with
        | .error (e, i) => d.sourceFails e i
        | .ok x => d.applyFull x.pattern

/-- A mailbox source waits for GO. Log entry 173 (DESIGN CHOICE). -/
def Dev.awaitsGo (d : Dev) : Bool := d.loading && (decide (2 < d.rd F.PAT_STATUS_SOURCE) && d.pat.verify.isNone)

/-- A re-pattern runs (R56). -/
def Dev.repatterning (d : Dev) : Bool := match d.pat.verify with | some v => v.repattern | none => false

/-- The end of a re-pattern that was refused or failed (R57): held pages go on, and STATE reads LOADED again. Log entry 172 (DESIGN CHOICE). -/
def Dev.repatternFails (d : Dev) (err sec : Nat) : Dev :=
  let who := match d.pat.verify with | some v => (v.by0, v.by1) | none => (false, false)
  let d := { d with pat.verify := none, pat.hold := false }.mapPages fun p => { p with held := false }
  let d := ((d.patState 4).wr F.PAT_STATUS_ERR 0 err).wr F.PAT_STATUS_SECTION 0 sec
  d.raise (.secureAnd (if who.1 then some 0 else if who.2 then some 1 else none)) 0x0204 [(1, err)]

/-- A write of PAT_MBOX_CTRL (R51, R52, R56): GO from the mailbox's own port begins verification, ABORT ends one in its steps 1 to 10,
also while flash is being read. A GO before cast-on step 5 begins has no effect. Log entries 173 (DESIGN CHOICE), 174 (DEDUCED). Log entry 210 (DESIGN CHOICE). -/
def Dev.wMboxCtrl (d : Dev) (m : Master) (val : Nat) : Dev :=
  let own := decide ((portOf m).map (fun p => p.val + 3) = some (d.rd F.PAT_STATUS_SOURCE))
  let d := if val.testBit 0 then
      (if d.repatterning then d.wrB F.PAT_STATUS_MBOX_BUSY 0 true
        else if d.awaitsGo && own then { d with pat.verify := some {} }.patState 2 else d)
    else d
  if !val.testBit 1 then d
  else match d.pat.verify with
    | none => if d.loading && decide (d.rd F.PAT_STATUS_SOURCE ≤ 2) then d.sourceFails 0x0C 0 else d
    | some v => if v.checked then d else if v.repattern then d.repatternFails 0x0C 0 else d.sourceFails 0x0C 0

/-- No GO within 60 s of reset release (R51). -/
def Dev.mboxTimeout (d : Dev) : Dev := if d.awaitsGo then d.sourceFails 0x01 0 else d

/-- A write to the staging area loads bytes; during a re-pattern it is ignored (R56). -/
def Dev.wStaging (d : Dev) (off len val : Nat) : Dev :=
  if d.repatterning then d.wrB F.PAT_STATUS_MBOX_BUSY 0 true
  else { d with pat.staging := storeBytes d.pat.staging off (leBytes len val) }

/-! ### Re-patterning (R55 to R57) -/

/-- A write of PAT_REPAT_CTRL GO. -/
def Dev.wRepat (d : Dev) (m : Master) (val : Nat) : Dev :=
  if !val.testBit 0 then d
  else if d.repatterning then d.wrB F.PAT_STATUS_MBOX_BUSY 0 true
  else if d.rd F.PAT_STATUS_STATE ≠ 4 then d
  else { d with pat.hold := true
                pat.verify := some { repattern := true, by0 := decide (m = Master.p0), by1 := decide (m = Master.p1) } }.patState 2

/-- The conditions of R55. -/
def Dev.repatternOk (d : Dev) (base : Nat) (inspect : Bool) : Bool :=
  decide (base = d.rd F.PAT_ID_PATTERN_ID) && ((d.queued.all fun p => p.held) && (decide (4 ≤ d.pace.idle) &&
    (!inspect || (List.range 8).all fun c => (d.cam c).frame.isNone)))

/-- Verification reaches its end: steps 1 to 10, then step 11. -/
def Dev.repatternVerified (d : Dev) : Dev :=
  match d.pat.verify with
  | none => d
  | some v =>
    if !v.repattern ∨ v.checked then d
    else
      let len := d.rd F.PAT_MBOX_LEN_LENGTH
      match d.verifyImage 1 (d.stagedBytes (max 64 len)) (some len) with
        | .error (e, i) => d.repatternFails e i
        | .ok x =>
          if !d.repatternOk x.base x.inspect.isSome then d.repatternFails 0x0B 0
          else { d with pat.verify := some { v with checked := true, passed := true, gauge := x.gauge, inspect := x.inspect
                                                    budget := x.pattern.budget, beat := d.tmb.beats } }.patState 3

/-- A new GAUGE (R57): what line assembly and nozzle health keep and lose, and the heads' banks where ROW_MODE changes. Log entry 146 (DEDUCED). -/
def Dev.applyGauge (d : Dev) (g : Gauge) : Dev :=
  let turned := decide (g.dual ≠ d.gauge.dual)
  let d := { d with pat.loaded.gauge := g, nzh.acc := [], nzh.sw := [], nzh.auto := 0 }.newGauge
  let d := d.wr F.PAT_GEN_GAUGE_GEN 0 (d.rd F.PAT_GEN_GAUGE_GEN + 1)
  if turned then d.rewriteBank else d

/-- A new INSPECT (R57, R226, R227): a new settings generation with the settings in force, the statistics ring from its start, and
cameras and nozzle health that it leaves disabled go OFF. Log entries 84 (DEDUCED), 146 (DEDUCED). -/
def Dev.applyInspect (d : Dev) (s : InspectSec) : Dev :=
  let d := { d with pat.loaded.inspect := s }
  let d := (d.wr F.PAT_GEN_INSPECT_GEN 0 (d.rd F.PAT_GEN_INSPECT_GEN + 1)).wr F.INS_STAT_HEAD_HEAD 0 0
  let d := d.advanceGen ((d.ins.gens.lookup d.ins.gen).getD [])
  (.nzh :: (List.finRange 8).map Func.cam).foldl (fun (d : Dev) (f : Func) =>
    if d.permits f ∨ d.wedged f then d
    else (d.setFunc f {}).wrB (Func.enable f).1 (Func.enable f).2 false) d

/-- The first boundary after step 11: the conditions are tested again, and the image is applied or refused (R55, R57). Log entry 146 (DEDUCED). -/
def Dev.repatternApply (d : Dev) : Dev :=
  match d.pat.verify with
  | none => d
  | some v =>
    if !v.passed ∨ d.tmb.beats ≤ v.beat then d
    else if !d.repatternOk (d.rd F.PAT_ID_PATTERN_ID) v.inspect.isSome then d.repatternFails 0x0B 0
    else
      let d := { d with pat.loaded.budget := v.budget, pat.verify := none, pat.hold := false }.mapPages fun p => { p with held := false }
      let d := match v.inspect with | some s => d.applyInspect s | none => d
      let d := match v.gauge with | some g => d.applyGauge g | none => d
      let d := ((d.patState 4).wr F.PAT_STATUS_ERR 0 0).wr F.PAT_STATUS_SECTION 0 0
      d.raise (.secureAnd (if v.by0 then some 0 else if v.by1 then some 1 else none)) 0x0203 []

/-! ### The commands -/

def execPatternImageArrived (src : ImageSource) (complete : Bool) (img : List Byte) (s : State) : Host.Outcome State Fault Refusal :=
  s.act fun d => d.imageArrived src complete img

def execMboxGo (m : Master) (val : Nat) (s : State) : Host.Outcome State Fault Refusal :=
  s.act fun d => d.writeTo m R.PAT_MBOX_CTRL 0 fun d => d.wMboxCtrl m val

def execMboxAbort (m : Master) (val : Nat) (s : State) : Host.Outcome State Fault Refusal :=
  s.act fun d => d.writeTo m R.PAT_MBOX_CTRL 0 fun d => d.wMboxCtrl m val

def execMboxTimeout (s : State) : Host.Outcome State Fault Refusal := s.act Dev.mboxTimeout

def execRepatternGo (m : Master) (val : Nat) (s : State) : Host.Outcome State Fault Refusal :=
  s.act fun d => d.writeTo m R.PAT_REPAT_CTRL 0 fun d => d.wRepat m val

def execRepatternVerifyDone (s : State) : Host.Outcome State Fault Refusal := s.act Dev.repatternVerified

def execRepatternApply (s : State) : Host.Outcome State Fault Refusal := s.actInOrder Dev.repatternApply

end Sys2Proof.Machine
end

