-- ==== Sys2Proof/Machine/Caston.lean ====
section
/-!
DEFINITION. Resets and the cast-on steps (chapter 4, with R377, R380 and R382): how a reset is latched, merged, carried out and
released, what it keeps, and what each of the sixteen steps does as it begins and as it ends.
-/

namespace Sys2Proof.Machine

/-! ### Resets -/

def ResetKind.rank : ResetKind → Nat
  | .warm => 0
  | .cold => 1
  | .power => 2

/-- What a reset leaves (R33, R59, R60): the vault, the fuses and the trim store; DRAM and SYS_SAVE_BASE after a warm reset; the
accepted levels of pins, and what waits for the next cast-on (R69, R258). Log entries 148 (DEDUCED), 158 (DEDUCED). -/
def Dev.wiped (d : Dev) (r : ResetRun) : Dev :=
  let warm := decide (r.kind = .warm)
  let save : Nat := if warm then d.reg R.SYS_SAVE_BASE 0 else 0
  let e : Dev := {
    mem := if warm then d.mem else []
    ue := if warm then d.ue else []
    out := d.out
    freeCtr := d.freeCtr
    sys := { reset := some { r with stage := 3 }, clearLog := d.sys.clearLog, lastKind := r.kind, railsOut := d.sys.railsOut }
    web := { quads := d.web.quads.map fun q => { level := q.level } }
    pace := { resetInhibit := true }
    hst := { ports := d.hst.ports.map fun h => { perst := h.perst } }
    vlt := { ram := d.vlt.ram, tamper := d.vlt.tamper, fuses := d.vlt.fuses }
    drm := { forget := d.drm.forget }
    srv := { axes := d.srv.axes.map fun a => { sector := a.sector } }
    trm := { store := d.trm.store }
    tap := d.tap }
  let e := ((e.setReg R.SYS_SAVE_BASE 0 save).wr F.SYS_RST_CAUSE_CAUSE 0 r.cause).wr F.HL_INHIBIT_CTRL_PIN 0 (d.rd F.HL_INHIBIT_CTRL_PIN)
  let e := if warm then e.dramState 3 else e
  { e with regsOpen := e.regs }

/-- Logic reset is asserted (R62): programming and copies in progress are cut. Log entry 148 (DEDUCED). -/
def Dev.assertLogic (d : Dev) (r : ResetRun) : Dev :=
  let d := d.cutProgramming.cutTrim
  let d := (List.finRange 2).foldl (fun (d : Dev) (p : Fin 2) => if d.on F.HST_SNAP_CTRL_BUSY p then d.cutCopy p 4 else d) d
  d.wiped r

/-- A reset is requested (R59, R61): it is latched with the internal inhibit (R177), or merged into the one under way, the highest kind
being performed. A power-on reset asserts logic reset at once. Log entries 72 (DEDUCED), 150 (DEDUCED). -/
def Dev.requestReset (d : Dev) (kind : ResetKind) (cause : Nat) (porn : Bool := false) (scan : Bool := false) (supply : Bool := false) : Dev :=
  match d.sys.reset with
  | some r =>
    let higher := decide (r.kind.rank < kind.rank)
    let r := if higher then { r with kind := kind, cause := cause } else r
    let r := { r with porn := r.porn || porn, scan := r.scan || scan, supply := r.supply || supply }
    let d := { d with sys.reset := some r }
    if !higher then d else if r.stage = 3 then d.wiped r else if kind = .power then d.assertLogic r else d
  | none =>
    let r : ResetRun := { kind := kind, cause := cause, stage := 0, porn := porn, scan := scan, supply := supply }
    let d := { d with sys.reset := some r, sys.castOn := false, sys.autoReset := none, sys.bindOff := none, sys.errOut := true
                      pace.resetInhibit := true }
    let d := d.assertInhibit d.now 2
    if kind = .power then d.assertLogic r else d

/-- A write of SYS_RESET: keyed, warm or cold. -/
def Dev.wSysReset (d : Dev) (val : Nat) : Dev :=
  if bitsOf val 31 16 ≠ 0x4B52 then d
  else match val % 4 with
    | 1 => d.requestReset .warm 4
    | 2 => d.requestReset .cold 5
    | _ => d

def Dev.setStage (d : Dev) (n : Nat) : Dev := { d with sys.reset := d.sys.reset.map fun r => { r with stage := n } }

/-- DRAM has entered self-refresh, in a warm reset only (R62). -/
def Dev.resetRefresh (d : Dev) : Dev :=
  match d.sys.reset with
  | some r => if r.kind = .warm ∧ r.stage = 0 then (d.setStage 1).dramState 3 else d
  | none => d

/-- Firing is silenced (R62). -/
def Dev.resetSilence (d : Dev) : Dev :=
  match d.sys.reset with
  | some r => if r.stage < 2 then d.setStage 2 else d
  | none => d

/-- 10,000 ns after the latch (R62). -/
def Dev.resetLogic (d : Dev) : Dev :=
  match d.sys.reset with
  | some r => if r.stage < 3 then d.assertLogic r else d
  | none => d

/-! ### Cast-on -/

/-- A step's attempt count returns to 0 when it completes (R68). Log entry 175 (DESIGN CHOICE). -/
def Dev.clearAttempts (d : Dev) (step : Nat) : Dev :=
  let l := d.log
  if fieldOf (4 * step - 4) 4 l.attempts = 0 then d else d.setLog { l with attempts := fieldSet (4 * step - 4) 4 l.attempts 0 }

/-- Device time starts (R75, R78). -/
def Dev.startTime (d : Dev) : Dev :=
  { d with tmb.running := true, tmb.acc := 0, tmb.openT := 0, tmb.atOpen := true, regsOpen := d.regs }

/-- Step 10 starts each port that the TIME section names, with PTP enabled (R48, R89). Log entry 33 (DEDUCED). -/
def Dev.startPorts (d : Dev) : Dev :=
  let t := d.pat.loaded.time
  let d := (List.finRange 2).foldl (fun (d : Dev) (e : Fin 2) =>
    if t.ports.testBit e.val then (d.wr F.ETH_CFG_SPEED e (at' t.speed e.val)).enableReq (.eth e) true else d) d
  { d with tmb.ptp := true }.manualMode

/-- Step 11 wakes every enabled link at GEN_MAX; a link under DISABLE_LINK is DOWN from the start (R204). -/
def Dev.startLinks (d : Dev) : Dev :=
  (List.finRange 32).foldl (fun (d : Dev) (l : Fin 32) =>
    if !(d.linkSec l).enable then d
    else if d.bit F.SYS_CLOG_DIR_LINK_OFF l then d.takeDown l
    else d.wakeLink l 1 (d.linkSec l).genMax 1) d

/-- Step 6 before training: the speed, one grade lower under DRAM_SLOWER (R66), the repairs of the vault (R260), and FORGET (R255). -/
def Dev.startDram (d : Dev) : Dev :=
  let speed := d.pat.loaded.dram.speed - (if d.on F.SYS_CLOG_DIR_DRAM_SLOWER then 1 else 0)
  let d := (List.range 2).foldl (fun (d : Dev) (ch : Nat) => (d.wr F.DM_STAT_SPEED ch speed).wr F.DM_SPEED_CTRL_TARGET ch speed) d
  let d := d.loadRepairs
  if d.sys.lastKind = .warm then d else d.forgetMarks

/-- The axes that step 15 checks: every stepper, and each enabled servo axis (R332, R353). -/
def Dev.checkedAxes (d : Dev) : List Func :=
  ((List.finRange 4).map Func.mot) ++ (((List.finRange 2).filter fun (a : Fin 2) => (d.servoSec a).enable).map Func.srv)

/-- Step 15's checks begin: an axis that is ON goes OFF (R332, R353). Log entry 177 (DEDUCED). -/
def Dev.startAxisChecks (d : Dev) : Dev := d.checkedAxes.foldl (fun (d : Dev) f => d.beginAxisCheck f) d.disableAll

/-- Step 15's checks end. Log entry 177 (DEDUCED). -/
def Dev.endAxisChecks (d : Dev) : Dev := d.checkedAxes.foldl (fun (d : Dev) f => d.endAxisCheck f) d

/-- What a step does as it begins. Log entry 151 (DEDUCED). -/
def Dev.stepBegins (d : Dev) (step : Nat) : Dev :=
  match step with
  | 1 => d.loadFuses.loadTrim
  | 5 => d.startPattern
  | 6 => d.startDram
  | 7 => d.loadMarks
  | 8 => d.loadArbiter
  | 9 => d.serveHeld
  | 10 => d.startTime.startPorts
  | 11 => d.startLinks
  | 12 => (List.range 32).foldl (fun (d : Dev) (l : Nat) => d.startCheck l) d
  | 13 =>
    let d := (d.enableReq (if d.webIsQ0 then .q 0 else .f0) true).startWeb
    { d with web.watch := d.now }
  | 14 => d.startProbe
  | 15 => d.startAxisChecks
  | _ => d

/-- The step starts. A skipped step (R66) does nothing but start device time in the place of step 10, and the next one starts; its
attempt count stays as it was. Log entries 151 (DEDUCED), 175 (DESIGN CHOICE). -/
def Dev.beginStep (d : Dev) (step : Nat) : Nat → Dev
  | 0 => d
  | fuel + 1 =>
    let d := d.wr F.SYS_CASTON_STAT_STEP 0 step
    if 10 ≤ step ∧ d.skipped step then (if step = 10 then d.startTime else d).beginStep (step + 1) fuel else d.stepBegins step

/-- Reset is released: BOOTSEL is sampled and cast-on begins from step 1 (R49, R62). Log entry 72 (DEDUCED). -/
def Dev.release (d : Dev) (bootsel : Nat) : Dev :=
  let low := d.on F.HL_INHIBIT_CTRL_PIN
  let d := { d with sys.reset := none, sys.castOn := true, sys.bootsel := bootsel, sys.railsOut := []
                    pace.resetInhibit := false, pace.inhibit := low, pace.order := low }
  d.beginStep 1 1

/-- What held a reset has changed: it is released once nothing holds it any more. -/
def Dev.heldReset (d : Dev) (r : ResetRun) (bootsel : Nat) : Dev :=
  let d := { d with sys.reset := some r }
  if r.stage = 3 ∧ !r.porn ∧ !r.scan ∧ !r.supply then d.release bootsel else d

/-- The release point of R62. For a power-on reset it is also the point at which every rail is in range, so that the supply monitors hold it no
longer (R376). Log entry 150 (DEDUCED). -/
def Dev.resetRelease (d : Dev) (bootsel : Nat) : Dev :=
  match d.sys.reset with
  | some r => if r.stage = 3 then { d with sys.railsOut := [] }.heldReset { r with supply := false } bootsel else d
  | none => d

/-- PORn rises (R377), with the rails that are still out of range: the supply monitors hold the reset until none is (R376). A pulse under 10 us
that no reset came of may have started one. Log entry 149 (DESIGN CHOICE). -/
def Dev.pornRises (d : Dev) (lowNs bootsel : Nat) (rails : List Rail) : Dev :=
  match d.sys.reset with
  | some r =>
    let r := { r with porn := false }
    if r.kind = .power then { d with sys.railsOut := rails }.heldReset { r with supply := !rails.isEmpty } bootsel
    else { d with sys.reset := some r }
  | none =>
    if lowNs < 10000 then
      let (n, d) := d.free 2
      if n = 1 then (d.requestReset .power 2).release bootsel else d
    else d

/-- The port enters Test-Logic-Reset, where IDCODE is the instruction (R381, R382). Log entry 149 (DESIGN CHOICE). Log entry 161 (DESIGN CHOICE). -/
def Dev.testLogicReset (d : Dev) (bootsel : Nat) : Dev :=
  let d := { d with tap.ir := .idcode }
  match d.sys.reset with
  | some r => if r.scan then d.heldReset { r with scan := false } bootsel else d
  | none => d

/-! ### How a step ends -/

/-- The enabled links that are not UP, but for those that DISABLE_LINK holds DOWN. Log entry 152 (DEDUCED). -/
def Dev.linksFailed (d : Dev) : Nat :=
  (List.range 32).foldl (fun n l =>
    if (d.linkSec l).enable ∧ !d.bit F.SYS_CLOG_DIR_LINK_OFF l ∧ !d.linkUp l then n + 2 ^ l else n) 0

/-- Every enabled link is UP or DOWN (R205). -/
def Dev.linksSettled (d : Dev) : Bool := (List.range 32).all fun l => !(d.linkSec l).enable || (d.linkUp l || decide (d.linkState l = 7))

/-- The UP links whose head checks have not passed (R196). -/
def Dev.headsFailed (d : Dev) : Nat :=
  (List.range 32).foldl (fun n l => if d.linkUp l ∧ !(d.link l).checked then n + 2 ^ l else n) 0

/-- Every UP link's head has been checked and authenticated, and its temperature read; or its checks have failed. -/
def Dev.headsSettled (d : Dev) : Bool :=
  ((List.range 32).all fun l => !d.linkUp l || ((d.link l).checkFailed ||
    ((d.link l).checked && decide (d.rd F.VLT_HEAD_STAT_AUTH l ≠ 1)))) &&
    ((List.range d.headCount).all fun h => !d.linkUp (d.linkOf h) || ((d.link (d.linkOf h)).checkFailed || (d.headTemp h).report.isSome))

/-- What a step's outcome says: it goes on, it has not met its condition, or it fails. -/
inductive StepEnd where
  | done
  | waits
  | fails (x : CastFault)

/-- The step's condition is met. -/
def StepEnd.met : StepEnd → Bool
  | .done => true
  | .waits | .fails _ => false

/-- The engines that took part in step 9 and failed it. -/
def Dev.engineFails (d : Dev) (i : StepInfo) (en : Nat) : Bool := d.connected en && !(if en = 0 then i.passA else i.passB)

/-- Log entry 152 (DEDUCED). -/
def Dev.paceFault (d : Dev) (i : StepInfo) : StepEnd :=
  let a := d.engineFails i 0
  let b := d.engineFails i 1
  if !a ∧ !b then .done
  else .fails { engine := if a then 1 else 0, noEngine := (a || !d.connected 0) && (b || !d.connected 1) }

/-- An engine that fails its built-in test drops its claim (R174). -/
def Dev.dropFailed (d : Dev) (i : StepInfo) : Dev :=
  (List.range 2).foldl (fun (d : Dev) (en : Nat) => if d.engineFails i en then d.dropClaim en 1 else d) d

/-- The enabled cameras that failed the probe of step 14: by the end of the probe's transaction, or where the step ends before it, by what
the step found. Log entry 85 (DEDUCED). -/
def Dev.camsFailed (d : Dev) (i : StepInfo) : Nat :=
  let bad : Nat → Bool := fun c => match d.ins.answers.lookup c with | some r => decide (r ≠ 0) | none => i.cams.toNat.testBit c
  (List.range 8).foldl (fun n c => if bad c ∧ d.inspect.camMask.testBit c ∧ !d.bit F.SYS_CLOG_DIR_CAM_OFF c then n + 2 ^ c else n) 0

/-- The target of the bridge check (R332). -/
def bridgeTarget : Nat := unitOf 64

/-- The four currents that the bridge check of a stepper axis senses (R332, R355). -/
def sensed (i : StepInfo) (n : Nat) : List Nat :=
  match i.currents[n]? with
  | some l => l.map drawOf
  | none => List.replicate 4 bridgeTarget

/-- Every test draws less than 10 % of the target (R332). -/
def absentAxis (i : StepInfo) (n : Nat) : Bool := (sensed i n).all fun c => decide (10 * c < bridgeTarget)

/-- Some test draws less than 50 % or more than 150 % of the target, or trips OC_LIMIT (R332). Log entry 177 (DEDUCED). -/
def Dev.badBridge (d : Dev) (i : StepInfo) (n : Nat) : Bool :=
  (sensed i n).any fun c => decide (2 * c < bridgeTarget ∨ 3 * bridgeTarget < 2 * c ∨ unitOf (d.rd F.MOT_n_CURRENT_OC_LIMIT n) < c)

/-- The Q channel that feeds a servo axis is not on, or has raised QUAD_FAULT during the check (R353). Log entry 177 (DEDUCED). -/
def Dev.badFeed (d : Dev) (a : Fin 2) : Bool :=
  match d.qFeed a with
  | some q => !d.funcOn (.q q) || ((d.sAxis a).feedBad || d.on F.WT_Qn_STAT_QUAD_FAULT q)
  | none => false

/-- An enabled servo axis fails the check (R353): an invalid frame, an illegal Hall transition or a y that moved, as the check has found, or its
Q channel. Log entry 177 (DEDUCED). -/
def Dev.badServo (d : Dev) (a : Fin 2) : Bool := (d.servoSec a).enable && ((d.sAxis a).checkBad || d.badFeed a)

/-- Step 15: trim, the analog channels, the bridges and the servo feedback (R332, R353, R356, R360). -/
def Dev.checkAxes (d : Dev) (i : StepInfo) : StepEnd × Dev :=
  let trim := d.trimOk
  let d := if d.trm.store.blank then d.raise .secure 0x1202 [] else d
  let d := d.loadTrim.checkChannels i.analog
  let bridge := (List.range 4).any fun n => !absentAxis i n && d.badBridge i n
  let servo := (List.finRange 2).any fun a => d.badServo a
  let d := (List.finRange 4).foldl (fun (d : Dev) (n : Fin 4) => d.wrB F.MOT_n_STAT_ABSENT n (absentAxis i n)) d
  (if trim && !bridge && !servo then .done else .fails {}, d.endAxisChecks)

/-- The work of a step, with what the hardware outside the model found, and how it ends (R63). -/
def Dev.stepWork (d : Dev) (step : Nat) (i : StepInfo) : StepEnd × Dev :=
  match step with
  | 1 => (if d.vlt.used.good && !i.sramBad then .done else .fails {}, d)
  | 2 =>
    let d := d.readVault
    (.done, if d.sys.clearLog then { d.setLog { d.log with attempts := 0, dir := 0 } with sys.clearLog := false } else d)
  | 5 => (if d.pat.applied then .done else .waits, d)
  | 6 =>
    let (ok, d) := d.trainDram (i.lanes.map fun l => (l.1.val, l.2.1.val, l.2.2.val))
    (if ok then .done else .fails {}, d)
  | 7 => (.done, (if d.sys.lastKind = .warm then d else d.fillDram).dramState 1)
  | 8 => (if d.tableFault (d.rd F.DM_STAT_SPEED) (d.slotTable R.MF_SLOT_ACTIVE 0) (d.slotTable R.MF_SLOT_ACTIVE 1) = 0 then .done else .fails {}, d)
  | 9 => (d.paceFault i, d.dropFailed i)
  | 10 => (if (List.range 2).any fun e => d.pat.loaded.time.ports.testBit e && d.on F.ETH_STAT_LINK e then .done else .waits, d)
  | 11 => (if !d.linksSettled then .waits else if d.linksFailed = 0 then .done else .fails { links := d.linksFailed }, d)
  | 12 =>
    if !d.headsSettled then (.waits, d)
    else (if d.headsFailed = 0 then .done else .fails { links := d.headsFailed },
      (List.range d.headCount).foldl (fun (d : Dev) (h : Nat) => d.startTemp h) d)
  | 13 => (if d.web.watch + 10000000 ≤ d.now then .done else .waits, d)
  | 14 => let n := d.camsFailed i; (if n = 0 then .done else .fails { cams := n }, d.endProbe)
  | 15 => d.checkAxes i
  | _ => (.done, d)

/-- Step 16 (R63): RWL fields are locked, counters are reloaded after a warm reset, ERR_OUTn is released, and CAST_ON_DONE and the
events that wait for it are posted, with HEAD_OUT for each head that is out (R65, R146, R69, R303, R308, R310); then a held bind-off runs (R71). Log entry 151 (DEDUCED). -/
def Dev.ready (d : Dev) : Dev :=
  let d := if d.sys.lastKind = .warm then d.reloadCounters else d
  let d := { d with sys.castOn := false, sys.done := true, sys.locked := true, sys.errOut := false }.wr F.SYS_CASTON_STAT_STATE 0 1
  let d := d.raise .secure 0x0101 []
  let dir := d.reg R.SYS_CLOG_DIR 0
  let d := if dir = 0 then d else d.raise .secure 0x0102 [(8, dir)]
  let d := if d.vlt.lost = 0 then d else d.raise .secure 0x0103 [(1, d.vlt.lost)]
  let d := if d.vlt.tamper = 0 then d else d.raise .secure 0x0304 [(1, d.vlt.tamper)]
  let d := if d.unsealed then d.raise .secure 0x0307 [] else d
  let d := d.postOuts
  if d.sys.bindOff.isSome then d.startBindOff else d

/-- A step ends: the next one starts, or the log decides (R63, R68). Log entry 151 (DEDUCED). -/
def Dev.stepDone (d : Dev) (i : StepInfo) : Dev :=
  if !d.sys.castOn then d
  else
    let step := d.castStep
    if step = 16 then d.ready
    else match d.stepWork step i with
      | (.waits, d) => d
      | (.fails x, d) => d.castFail step x
      | (.done, d) => (d.clearAttempts step).beginStep (step + 1) 16

/-- A step reaches its limit without its condition (R63); step 16 cannot fail. In step 5 the source has failed whose reads have not completed
(R52, R390): SOURCE_EMPTY, and slot B after slot A (R49). Log entry 151 (DEDUCED). -/
def Dev.stepLimit (d : Dev) (i : StepInfo) : Dev :=
  if !d.sys.castOn then d
  else
    let step := d.castStep
    if step = 16 then d.ready
    else if step = 5 ∧ !d.pat.applied then d.sourceFails 0x01 0
    else
      let d := if step = 6 then (d.trainDram (i.lanes.map fun l => (l.1.val, l.2.1.val, l.2.2.val))).2 else d
      let x : CastFault := match step with
        | 9 => (match d.paceFault i with | .fails x => x | _ => {})
        | 11 => { links := Nat.lor d.linksFailed i.links.toNat }
        | 12 => { links := Nat.lor d.headsFailed i.links.toNat }
        | 14 => { cams := d.camsFailed i }
        | _ => {}
      (if step = 14 then d.endProbe else if step = 15 then d.endAxisChecks else if step = 9 then d.dropFailed i else d).castFail step x

/-! ### The commands -/

/-- PORn is asserted, or rails leave their ranges: the supply monitors then hold the reset (R59, R376). -/
def execPowerOnReset (c : PorCause) (s : State) (rails : List Rail := []) : Host.Outcome State Fault Refusal :=
  s.actInOrder fun d =>
    let d := { d with sys.railsOut := rails }
    match c with
    | .porn => d.requestReset .power 2 true false (!rails.isEmpty)
    | .supply => d.requestReset .power 1 false false true

def execPornRelease (lowNs : Nat) (bootsel : Fin 4) (s : State) (rails : List Rail := []) : Host.Outcome State Fault Refusal :=
  s.actInOrder fun d => d.pornRises lowNs bootsel rails

/-- A pulse under 100 ns is ignored (R62). -/
def execRstnAssert (lowNs : Nat) (s : State) : Host.Outcome State Fault Refusal :=
  s.actInOrder fun d => if lowNs < 100 then d else d.requestReset .warm 3

def execSysResetWarm (m : Master) (val : Nat) (s : State) : Host.Outcome State Fault Refusal :=
  s.actInOrder fun d => d.writeTo m R.SYS_RESET 0 fun d => d.wSysReset val

def execSysResetCold (m : Master) (val : Nat) (s : State) : Host.Outcome State Fault Refusal :=
  s.actInOrder fun d => d.writeTo m R.SYS_RESET 0 fun d => d.wSysReset val

/-- The automatic reset that a failed step ordered (R68). -/
def execAutoReset (s : State) : Host.Outcome State Fault Refusal :=
  s.actInOrder fun d => match d.sys.autoReset with
    | some k => d.requestReset k (if k = .cold then 7 else 6)
    | none => d

def execResetDramSelfRefresh (s : State) : Host.Outcome State Fault Refusal := s.act Dev.resetRefresh

def execResetFireSilence (s : State) : Host.Outcome State Fault Refusal := s.act Dev.resetSilence

def execResetLogicAssert (s : State) : Host.Outcome State Fault Refusal := s.act Dev.resetLogic

def execResetRelease (bootsel : Fin 4) (s : State) : Host.Outcome State Fault Refusal := s.actInOrder fun d => d.resetRelease bootsel

def execCastOnStepDone (info : StepInfo) (s : State) : Host.Outcome State Fault Refusal := s.actInOrder fun d => d.stepDone info

def execCastOnStepLimit (info : StepInfo) (s : State) : Host.Outcome State Fault Refusal := s.actInOrder fun d => d.stepLimit info

/-- Counted as a supply leaving its range (R380). -/
def execPllLockLoss (s : State) : Host.Outcome State Fault Refusal := s.actInOrder fun d => d.requestReset .power 1 false false true

/-- Loading the instruction latches a cold reset (R382). -/
def tapResets : TapInstr → Bool
  | .bypass | .idcode | .samplePreload => false
  | _ => true

/-- IDCODE: stepping, part, manufacturer and 1 (R381). Log entry 161 (DESIGN CHOICE). -/
def idcode : BitVec 32 := 0xB#4 ++ 0x7120#16 ++ 0x5A6#11 ++ 1#1

/-- What the data register of an instruction shifts out first (R381): the 32 bits of IDCODE, or the one bit of BYPASS; what the boundary
register captures is the levels of the balls. Log entry 161 (DESIGN CHOICE). -/
def tapCaptured : TapInstr → Option (Nat × Nat)
  | .idcode => some (32, idcode.toNat)
  | .bypass | .clamp | .highz => some (1, 0)
  | _ => none

/-- An instruction is loaded, with what is shifted into the boundary-scan cells: the cells change only under an instruction that selects them. Log entry 161 (DESIGN CHOICE). -/
def Dev.loadTap (d : Dev) (instr : TapInstr) (cells : List (Nat × Bool)) : Dev :=
  let d := { d with tap.ir := instr }
  match tapCaptured instr with
  | some (n, v) => d.emit (.tdo n v)
  | none => { d with tap.cells := (cells : List (Nat × Bool)) ++ d.tap.cells.filter fun c => (cells.lookup c.1).isNone }

/-- A scan instruction latches a cold reset and holds it, or a power-on reset that falls in the same cycle; the others disturb nothing
(R382). The cause code of a scan reset is not stated. Log entry 161 (DESIGN CHOICE). -/
def execJtagInstructionLoad (withPor : Bool) (s : State) (instr : TapInstr := .extest) (cells : List (Nat × Bool) := []) :
    Host.Outcome State Fault Refusal :=
  s.actInOrder fun d =>
    let d := d.loadTap instr cells
    if withPor then d.requestReset .power 2 true (tapResets instr)
    else if !tapResets instr then d
    else
      let (c, d) := d.free 8
      d.requestReset .cold c false true

def execJtagTestLogicReset (bootsel : Fin 4) (s : State) : Host.Outcome State Fault Refusal := s.actInOrder fun d => d.testLogicReset bootsel

end Sys2Proof.Machine
end

