-- ==== Sys2Proof/Machine/Cue.lean ====
section
/-!
DEFINITION. Page cues (chapter 6, R107, R108, with what an accepted cue does in chapters 6, 8, 9, 10 and 13).
-/

namespace Sys2Proof.Machine

/-- The beat that holds a stamp, counted from reset. -/
def Dev.stampBeat (d : Dev) (stamp : Nat) : Nat :=
  match d.web.snaps.find? fun s => decide (s.t ≤ stamp) with
  | some s => s.beats
  | none => d.tmb.beats

/-- A cue is accepted (R107): the page starts; the web suspension, the inhibit's blanking and HOT heads' waits see it (R365); the
NEXT_PAGE changes of earlier beats take S (R148), and an armed swatch is placed (R150). -/
def Dev.acceptCue (d : Dev) (stamp : Nat) (p : Page) : Dev :=
  let start := d.cueStart stamp
  let beat := d.stampBeat stamp
  let d := (d.startPage p start).showQueue
  let (subs, d) := d.cueSwitches beat start
  let d := ((d.cueChanges subs start).settleSwitches.placeSwatch p beat start).cueResumes stamp start
  d.cueHot (beat + 1) start

/-- A cue is taken: a page starts, or the cue is rejected with its cause (R108). While bind-off runs, no new page starts (R70):
a cue that nothing else rejects is dropped. Log entry 51 (DEDUCED). -/
def Dev.takeCue (d : Dev) (stamp : Nat) : Dev :=
  let binding := match d.sys.bindOff with | some b => b.running | none => false
  match d.cueCause stamp, d.headPage with
    | 0, some p => if binding then d else d.acceptCue stamp p
    | c, _ => d.raise .secure 0x0C07 [(1, c)]

/-! ### The commands -/

/-- An edge on PAGE_CUE with its stamp. -/
def execPageCue (t : Nat) (s : State) : Host.Outcome State Fault Refusal := s.actInOrder fun d => d.takeCue t

/-- The oldest SOFT cue is accepted. -/
def execSoftCueAccept (s : State) : Host.Outcome State Fault Refusal :=
  s.actInOrder fun d => match d.web.soft with
    | [] => d
    | t :: rest => { d with web.soft := rest }.takeCue t

end Sys2Proof.Machine
end

