-- ==== Sys2Proof/Machine/Flags.lean ====
section
/-!
DEFINITION. The summary status and ERR_OUTn (chapter 21, R64, R366). The W1C bits of SYS_FAULT_STAT are set where their events are
posted and pages marked (Dev.summary, Dev.suspect); the level bits follow their conditions at each boundary.
-/

namespace Sys2Proof.Machine

/-- A head is out for a cause other than its link being DOWN, or protects itself (R366). -/
def Dev.headTrouble (d : Dev) (h : Nat) : Bool :=
  let c := d.outCauses h
  decide (2 ≤ c) || (c % 2 = 1 && decide (d.linkState (d.linkOf h) ≠ 7)) || d.headFlag (d.linkOf h) 0

/-- A rank holds a mark, or its spare is UNUSABLE (R366). -/
def Dev.rankTrouble (d : Dev) (ch rank : Nat) : Bool :=
  decide (rank < d.ranks) && (decide (d.mark1 ch rank ≠ 0xF ∨ d.mark2 ch rank ≠ 0xF) || decide (d.spare ch rank = spareUnusable))

def Dev.anyHead (d : Dev) (p : Nat → Bool) : Bool := (List.range d.headCount).any p

/-- Each level bit of SYS_FAULT_STAT with its condition. Log entries 27 (DEDUCED), 139 (DEDUCED). -/
def Dev.levels (d : Dev) : List (Fld × Bool) :=
  [(F.SYS_FAULT_STAT_INHIBIT, d.on F.HL_INHIBIT_CTRL_ACTIVE),
   (F.SYS_FAULT_STAT_SUSPENDED, d.suspended),
   (F.SYS_FAULT_STAT_HEAD_OUT, d.anyHead d.headTrouble),
   (F.SYS_FAULT_STAT_LINK_DOWN, (List.range 32).any fun l => d.linkEnabled l && decide (d.linkState l = 7)),
   (F.SYS_FAULT_STAT_SINGLE_ENGINE, decide (0 < d.claim 0) != decide (0 < d.claim 1)),
   (F.SYS_FAULT_STAT_DRAM, [(0, 0), (0, 1), (1, 0), (1, 1)].any fun r => d.rankTrouble r.1 r.2),
   (F.SYS_FAULT_STAT_TIME, d.tmb.ptp && decide (d.timeState ≠ 2)),
   (F.SYS_FAULT_STAT_PACE_LOST, d.on F.HL_INHIBIT_CTRL_PACE_LOST),
   (F.SYS_FAULT_STAT_WEDGED, d.sys.halted),
   (F.SYS_FAULT_STAT_CASTON, !d.sys.done)]

/-- The masked summary status (R366). -/
def errTerm (stat mask : Nat) : Nat := Nat.lor (Nat.land (stat % 2 ^ 12) (mask % 2 ^ 12)) (stat / 2 ^ 16 % 8)

/-- The summary status and ERR_OUTn at a boundary (R64, R366). Log entry 27 (DEDUCED). -/
def Dev.updateErr (d : Dev) : Dev :=
  let d := d.levels.foldl (fun (d : Dev) l => d.wrB l.1 0 l.2) d
  { d with sys.errOut := !d.sys.done || d.sys.reset.isSome ||
      decide (errTerm (d.reg R.SYS_FAULT_STAT 0) (d.rd F.SYS_FAULT_MASK_MASK) ≠ 0) }

end Sys2Proof.Machine
end

