-- ==== Sys2Proof/Machine/Boundary.lean ====
section
/-!
DEFINITION. The beat boundary (R78): what closes one beat and opens the next, in the order in which one part feeds another.
-/

namespace Sys2Proof.Machine

/-! ### The closing beat -/

/-- IDLE of R80: beats since an engine last built a line. -/
def Dev.countIdle (d : Dev) : Dev := { d with pace.idle := if d.pace.built then 0 else d.pace.idle + 1, pace.built := false }

/-- The closing beat before its lines commit, k opening: the epoch, yields, abandoned lines, tallies, claims that they cost, lines that
can no longer leave in time, and the usage counts. Log entries 35 (DEDUCED), 153 (DEDUCED). -/
def Dev.endWork (d : Dev) (k : Nat) : Dev :=
  let d := (((d.flipEpoch k).frontBoundary).abandon 0).abandon 1
  (((d.flushTallies.failRate 0).failRate 1).dropDoomed).usageCommit

/-- What belongs to the beat that closes, k opening; the commit is followed by the changes of the substitution map and of the inspection
settings. Log entries 35 (DEDUCED), 153 (DEDUCED). -/
def Dev.closeBeat (d : Dev) (k : Nat) : Dev := ((d.endWork k).commitAll.substApply.insBoundary).countIdle

/-- The next beat opens at time t with number k. Log entry 35 (DEDUCED). -/
def Dev.openBeat (d : Dev) (t k : Nat) : Dev :=
  let tm := d.tmb
  { d.wr F.GL_BEAT_BEAT 0 k with
    tmb := { tm with acc := d.accAt t, ran := tm.ran + (d.accAt t - tm.acc), openT := t, stepEnd := none, atOpen := true, beats := tm.beats + 1 }
    drm.fetched := []
    regsOpen := d.regs
    onceKeys := [] }

/-! ### What no rule reads any more -/

/-- A page is past every reader and writer: not in progress, decoded, written to the window, and below the line before the release
mark, the lowest that is read as a pair line (R236). Log entry 154 (DESIGN CHOICE). -/
def Dev.pageGone (d : Dev) (p : Page) : Bool :=
  match p.start with
  | some s => !p.inProgress && (p.decoded && (p.written.all (fun n => decide (p.lines ≤ n)) && decide (s + p.lines < d.releaseMark)))
  | none => false

/-- Drop what no reader goes below (R140): pages, window records and swatches below the line before the release mark, which line
assembly still reads as a pair line (R236); printed lines, the heads out of old lines and quarantines. Swatches also wait for nozzle health to read them. Log entry 154 (DESIGN CHOICE). -/
def Dev.prune (d : Dev) : Dev :=
  let rm := d.releaseMark
  { d with
    cdc.pages := d.cdc.pages.filter fun p => !d.pageGone p
    cdc.win := d.cdc.win.map fun segs => segs.filter fun g => decide (rm ≤ g.hi)
    pace.printed := d.pace.printed.filter fun p => decide (rm < p.2.2)
    las.outs := d.las.outs.filter fun o => decide (rm ≤ o.2.2.1 + 1)
    las.swatches := d.las.swatches.filter fun w => !(decide (w.first + w.lines < rm) && (w.read || !d.funcOn .nzh))
    nzh.quar := d.nzh.quar.filter fun q => decide (rm < q.2.2) }

/-! ### The opening beat -/

/-- The crossings whose lines are built in the beat that opens: none before cast-on step 16, nor while a head's copy of the time is
not realigned (R64, R81). -/
def Dev.toBuild (d : Dev) : List Crossing := if d.buildsLines then d.web.pred else []

/-- Heads (R146, R160 to R164). -/
def Dev.headsBoundary (d : Dev) : Dev :=
  let cs := d.toBuild
  let d := (List.range d.headCount).foldl (fun (d : Dev) (h : Nat) => d.headTempUpdate cs h) d
  d.updateOut d.outCauses

/-- The boundary up to the heads: one beat has closed, the next is open, and its observer and temperatures stand. -/
def Dev.opening (d : Dev) : Dev :=
  let t := d.boundary
  (((d.closeBeat (t / 4000)).openBeat t (t / 4000)).takeTrim.ageFails.observer t).ageWindow.headsBoundary

/-- The slices of the crossings whose lines are built in the beat that opens (R142). -/
def Dev.build (d : Dev) : Dev := { d with pace.crossings := d.toBuild }.buildSlices

/-- Crossings of the beat before last are arbitrated; those predicted at the last boundary are built now; new ones are predicted
(R19). A page end writes the counter save area (R71). -/
def Dev.linesBoundary (d : Dev) (t : Nat) : Dev :=
  let (ended, d) := (d.inhibitBoundary.arbitrate.build.predictCrossings t).finishPages
  let d := if ended = 0 then d else d.saveCounters
  (d.settleSwitches.updateRelease d.camTerms).prune

/-- The junction sensor in 1/16 degrees C (R386): a reading of 108 degrees or above trips a power-on reset. Log entry 155 (DESIGN CHOICE). -/
def Dev.dieTemp (d : Dev) (tj : Int) : Dev :=
  let tj := clampInt (-32768) 32767 tj
  let d := (d.wrS F.SYS_TEMP_TJ 0 tj).wrS F.SYS_TEMP_PEAK 0 (max tj (d.rdS F.SYS_TEMP_PEAK))
  if 1728 ≤ tj then d.requestReset .power 1
  else if 1600 ≤ tj then
    if d.on F.SYS_TEMP_HOT then d else (d.wrB F.SYS_TEMP_HOT 0 true).raise .secure 0x0107 []
  else if tj < 1520 ∧ d.on F.SYS_TEMP_HOT then (d.wrB F.SYS_TEMP_HOT 0 false).raise .secure 0x0108 []
  else d

/-- The boundary (R78). The addition that makes TB_NOW reach it also stands for the clocks before it that no command marked. Log entry 194 (DEDUCED). -/
def Dev.beatBoundary (d : Dev) (tj : Int) : Dev :=
  if !d.tmb.running || d.inReset then d
  else
    let t := d.boundary
    let n := d.raised.length
    (((d.opening.linesBoundary t).predictCompare t).linkBoundary.updateErr.dieTemp tj).orderEvents n

def execBeatBoundary (tj : Int) (s : State) : Host.Outcome State Fault Refusal := s.act fun d => d.beatBoundary tj

end Sys2Proof.Machine
end

