-- ==== Sys2Proof/Machine/Access.lean ====
section
/-!
DEFINITION. The register reads that have a row of their own (R30, R75).
-/

namespace Sys2Proof.Machine

/-- A register read whose effect beyond its completion is the latch of the high word (R30). -/
def execLowWordRead (m : Master) (addr bytes : Nat) (s : State) : Host.Outcome State Fault Refusal :=
  s.act fun d => d.regRead m addr bytes

/-- A read of TB_NOW, which also latches the fraction (R75). -/
def execTbNowRead (m : Master) (bytes : Nat) (s : State) : Host.Outcome State Fault Refusal :=
  s.act fun d => d.regRead m (regSpace + R.TB_NOW.base) bytes

end Sys2Proof.Machine
end

