-- ==== Sys2Proof/Machine/RegWrite.lean ====
section
/-!
DEFINITION. Register writes (R8, R9, R29 to R32): a write is checked, split into the registers it covers, and each register takes its
part by its own rule or by the types of its fields.
-/

namespace Sys2Proof.Machine

/-- A write to WT_SRC_CFG: SRC ignores writes once cast-on step 13 has begun (R97), and with F0 as the web source no axis keeps an
external one (R321). Log entry 156 (DEDUCED). -/
def Dev.wWtSrc (d : Dev) (val mask : Nat) : Dev :=
  if d.web.started then d
  else
    let d := d.store R.WT_SRC_CFG 0 val mask
    if d.webIsQ0 then d else [0, 1, 2, 3].foldl (fun (d : Dev) (n : Nat) => d.wr F.MOT_n_CFG_SOURCE n 0) d

/-- A write to HL_FIRE_ADJ: a FIRE_ADJ frame falls due (R189). -/
def Dev.wFireAdj (d : Dev) (l val mask : Nat) : Dev := (d.store R.HL_FIRE_ADJ l val mask).setLink l fun x => { x with adjDue := true }

/-- A write to SV_a_CFG: REG_FOLLOW reads 0 on S1 (R347). Log entry 208 (DESIGN CHOICE). -/
def Dev.wSvCfg (d : Dev) (a : Fin 2) (val mask : Nat) : Dev :=
  let d := d.wEnable (.srv a) val mask
  if a.val = 1 then d.wrB F.SV_a_CFG_REG_FOLLOW 1 false else d

/-- Only port p's own write counts (R285). -/
def Dev.ifOwn (d : Dev) (m : Master) (p : Nat) (f : Dev → Dev) : Dev := if (portOf m).map Fin.val = some p then f d else d

/-- What a write to one register does: the master, the instance, the value and the mask of the words written. -/
abbrev WriteRule := Dev → Master → Nat → Nat → Nat → Dev

/-- A register that every port or only its own may write, by its field types. -/
def plainOwn (r : Reg) (per n : Nat) : WriteRule := fun d m i v k => d.ifOwn m (i / per % n) fun d => d.store r i v k

/-- The registers whose writes do more than their field types say, chapters 2 to 8. -/
def writeRules1 : List (Reg × WriteRule) :=
  [(R.HST_APBASE, plainOwn R.HST_APBASE 1 2),
   (R.GL_SNAP_REQ, fun d _ _ v k => d.wSnapReq v k),
   (R.PAT_MBOX_CTRL, fun d m _ v _ => d.wMboxCtrl m v),
   (R.PAT_REPAT_CTRL, fun d m _ v _ => d.wRepat m v),
   (R.PAT_STAGING, fun d _ i v _ => d.wStaging (4 * i) 4 v),
   (R.SYS_RESET, fun d _ _ v _ => d.wSysReset v),
   (R.SYS_CLOG_CTRL, fun d _ _ v _ => d.wClog v),
   (R.SYS_BINDOFF, fun d _ _ v _ => d.wBindOff v),
   (R.SYS_SAVE_BASE, fun d _ _ v k => d.wSaveBase v k),
   (R.TB_INCR, fun d _ _ v k => d.wTbIncr v k),
   (R.TB_CTRL, fun d _ _ v k => d.wTbCtrl v k),
   (R.TB_STEP, fun d _ _ v k => d.wTbStep v k),
   (R.WT_SRC_CFG, fun d _ _ v k => d.wWtSrc v k),
   (R.WT_SCALE, fun d _ _ v k => d.wWtScale v k),
   (R.WT_CUE_CFG, fun d _ _ v k => d.wWtCue v k),
   (R.WT_Qn_CFG, fun d _ i v k => d.wEnable (.q (Fin.ofNat 4 i)) v k),
   (R.WT_F0_CFG, fun d _ _ v k => d.wEnable .f0 v k),
   (R.WT_CMP_START, fun d _ i v k => d.wCmp R.WT_CMP_START i v k),
   (R.WT_CMP_REPEAT, fun d _ i v k => d.wCmp R.WT_CMP_REPEAT i v k),
   (R.WT_CMP_OUT, fun d _ i v k => d.wCmp R.WT_CMP_OUT i v k),
   (R.CD_CTRL, fun d _ _ v k => d.wCdCtrl v k),
   (R.CD_PAGE_PUSH, fun d m _ v k => d.wPush m v k),
   (R.CD_ENCn_CTRL, fun d m i v k => d.wEnc m i v k),
   (R.LA_SHIFT, fun d _ _ v k => d.wLaShift v k),
   (R.LA_BLEND_CTRL, fun d _ _ v k => d.wLaBlend v k),
   (R.LA_SWATCH, fun d _ _ v k => d.wLaSwatch v k),
   (R.LA_SUBST, fun d m i v k => d.wSubst m i v k)]

/-- The same, chapters 9 to 13. -/
def writeRules2 : List (Reg × WriteRule) :=
  [(R.PE_HIST_CFG, fun d _ i v k => d.wPeShared R.PE_HIST_CFG 1 i v k),
   (R.PE_HIST_MAP, fun d _ i v k => d.wPeShared R.PE_HIST_MAP 32 i v k),
   (R.PE_SPIT, fun d _ i v k => d.wPeShared R.PE_SPIT 1 i v k),
   (R.PE_TRIM, fun d _ i v k => d.wPeShared R.PE_TRIM 16384 i v k),
   (R.PE_TRIM_CTRL, fun d _ _ v k => d.wPeTrimCtrl v k),
   (R.PE_CLAIM, fun d _ i v k => d.wPeClaim i v k),
   (R.HL_INHIBIT_CTRL, fun d _ _ v k => d.wInhibit v k),
   (R.HL_CFG, fun d _ i v k => d.wHlCfg (Fin.ofNat 32 i) v k),
   (R.HL_FIRE_ADJ, fun d _ i v k => d.wFireAdj i v k),
   (R.HL_MGMT_CMD, fun d m i v k => d.ifOwn m (i % 2) fun d => d.wMgmtCmd (i / 2) (Fin.ofNat 2 i) v k),
   (R.HL_MGMT_STAT, plainOwn R.HL_MGMT_STAT 1 2),
   (R.HL_MGMT_DATA, fun d m i v k => d.ifOwn m (i / 8 % 2) fun d => d.wMgmtData i v k),
   (R.INS_COMMIT, fun d _ _ v k => d.wInsCommit v k),
   (R.INS_I2Cm_CMD, fun d _ i v k => d.wI2c (Fin.ofNat 2 i) v k),
   (R.INS_Cc_CFG, fun d _ i v k => d.wCamCfg (Fin.ofNat 8 i) v k),
   (R.INS_Cc_FBUF, fun d _ i v k => (d.store R.INS_Cc_FBUF i v k).checkCapture i),
   (R.NZ_CTRL, fun d _ _ v k => d.wEnable .nzh v k)]

/-- The same, chapters 14 to 20. -/
def writeRules3 : List (Reg × WriteRule) :=
  [(R.DM_MARK_CTRL, fun d _ i v k => d.wDmMark i v k),
   (R.DM_SPEED_CTRL, fun d _ i v k => d.wDmSpeed i v k),
   (R.MF_CLASS, fun d _ _ v k => d.wMfClass v k),
   (R.MF_SLOT_CTRL, fun d _ _ v k => d.wMfSlotCtrl v k),
   (R.HST_EVR_BASE, fun d m i v k => d.ifOwn m i fun d => d.wEvrBase (Fin.ofNat 2 i) v k),
   (R.HST_EVR_CFG, fun d m i v k => d.ifOwn m i fun d => d.wEvrCfg (Fin.ofNat 2 i) v k),
   (R.HST_EVR_TAIL, plainOwn R.HST_EVR_TAIL 1 2),
   (R.HST_DOORBELL, fun d m i v _ => d.ifOwn m i fun d => d.wDoorbell (Fin.ofNat 2 i) (v % 2 ^ 32)),
   (R.HST_SNAP_DEST, plainOwn R.HST_SNAP_DEST 1 2),
   (R.HST_SNAP_CTRL, fun d m i v k => d.ifOwn m i fun d => d.wSnapCtrl (Fin.ofNat 2 i) v k),
   (R.ETH_CFG, fun d _ i v k => d.wEthCfg (Fin.ofNat 2 i) v k),
   (R.ETH_UP_CTRL, fun d m i v k => d.wUpload m i v k),
   (R.VLT_ROLLBACK_CTRL, fun d _ _ v _ => d.wVltRollback v),
   (R.VLT_ROOT_HASH, fun d _ i v k => d.wVltRootHash i v k),
   (R.VLT_HEAD_ROOT, fun d _ i v k => d.wVltHeadRoot i v k),
   (R.VLT_PROG_CTRL, fun d _ _ v k => d.wVltProg v k),
   (R.VLT_TAMPER, fun d _ _ v _ => d.wVltTamper v),
   (R.VLT_ATTEST_CTRL, fun d m _ v _ => d.wVltAttest m v),
   (R.VLT_AUTH_REAUTH, fun d _ _ v k => d.wReauth v k),
   (R.MOT_CAP_CTRL, fun d m _ v k => d.wCap m v k),
   (R.MOT_n_CFG, fun d _ i v k => d.wMotCfg (Fin.ofNat 4 i) v k),
   (R.MOT_n_MOVE, fun d _ i v k => d.wMove (Fin.ofNat 4 i) v k),
   (R.SV_a_CFG, fun d _ i v k => d.wSvCfg (Fin.ofNat 2 i) v k),
   (R.SV_a_TARGET, fun d _ i v k => d.wSvTarget (Fin.ofNat 2 i) v k),
   (R.SV_a_CTRL, fun d _ i v k => d.wSvCtrl (Fin.ofNat 2 i) v k),
   (R.TRM_TRIM_CTRL, fun d m _ v k => d.wTrim m v k)]

/-- Log entry 21 (DEDUCED). -/
def writeRules : List (Reg × WriteRule) := writeRules1 ++ (writeRules2 ++ writeRules3)

/-- One register takes its part of a write: by its rule, or by its fields' types (R8). -/
def Dev.putReg (d : Dev) (m : Master) (h : Hit) (val mask : Nat) : Dev :=
  match writeRules.find? fun w => decide (w.1.base = h.row.reg.base) with
  | some w => w.2 d m h.idx val mask
  | none => d.regWrite h.row h.idx val mask

/-- One 32-bit write at an offset that has passed R31. Log entry 21 (DEDUCED). -/
def Dev.write32 (d : Dev) (m : Master) (off val : Nat) : Dev :=
  match findReg off regTable with
  | none => d
  | some h =>
    if h.row.reg.width = 64 && h.high then d.putReg m h (val % 2 ^ 32 * 2 ^ 32) maskHi else d.putReg m h (val % 2 ^ 32) mask32

/-- One 64-bit write: to a 64-bit register atomic (R30), elsewhere two 32-bit writes, the lower address first (R29). Log entry 21 (DEDUCED). -/
def Dev.write64 (d : Dev) (m : Master) (off val : Nat) : Dev :=
  match findReg off regTable with
  | some h =>
    if h.row.reg.width = 64 && !h.high then d.putReg m h (val % 2 ^ 64) mask64
    else (d.write32 m off val).write32 m (off + 4) (val / 2 ^ 32)
  | none => (d.write32 m off val).write32 m (off + 4) (val / 2 ^ 32)

/-- The word of the active slot tables that an access touches first (R274). Log entry 24 (DEDUCED). -/
def slotActiveWord (off bytes : Nat) : Option Nat :=
  let lo := R.MF_SLOT_ACTIVE.base
  if off < lo + 128 ∧ lo < off + bytes then some ((off - lo) / 4) else none

/-- A register write by a master (R29 to R32). Log entry 24 (DEDUCED). -/
def Dev.regStore (d : Dev) (m : Master) (addr bytes val : Nat) : Dev :=
  if !d.hears m then d
  else match d.spanCheck m addr bytes, slotActiveWord (addr - regSpace) bytes with
    | (.unmapped, off), _ => d.refuse m true .unmapped off
    | (_, _), some w => (d.touch m).wSlotActive m w
    | (.world, off), _ => d.refuse m true .world off
    | (.meaningless, _), _ => d.touch m
    | (.pass, off), _ => if bytes = 8 then (d.touch m).write64 m off val else (d.touch m).write32 m off val

/-- An access lies within a register array. -/
def within (r : Reg) (addr bytes : Nat) : Bool :=
  match findReg (addr - regSpace) regTable, findReg (addr - regSpace + bytes - 1 - (bytes - 1) % 4) regTable with
  | some a, some b => decide (regSpace ≤ addr ∧ a.row.reg.base = r.base ∧ b.row.reg.base = r.base)
  | _, _ => false

/-! ### The commands -/

def execRegisterWrite (m : Master) (addr bytes val : Nat) (s : State) : Host.Outcome State Fault Refusal :=
  s.actInOrder fun d => d.regStore m addr bytes val

/-- A write to the tables that both engines share (R166). -/
def execPeSharedWrite (m : Master) (addr bytes val : Nat) (s : State) : Host.Outcome State Fault Refusal :=
  s.act fun d =>
    if [R.PE_HIST_CFG, R.PE_HIST_MAP, R.PE_SPIT, R.PE_TRIM].any fun r => within r addr bytes then d.regStore m addr bytes val else d

/-- A write to the staging area (R56). -/
def execStagingWrite (m : Master) (addr bytes val : Nat) (s : State) : Host.Outcome State Fault Refusal :=
  s.act fun d => if within R.PAT_STAGING addr bytes then d.regStore m addr bytes val else d

end Sys2Proof.Machine
end

