-- ==== Sys2Proof/Machine/Dispatch.lean ====
section
/-!
DEFINITION. One arm for each command.
-/

namespace Sys2Proof.Machine

def exec (i : Instr) (s : State) : Host.Outcome State Fault Refusal :=
  match i with
  | .registerWrite m addr bytes val => Sys2Proof.Machine.execRegisterWrite m addr bytes val s
  | .lowWordRead m addr bytes => Sys2Proof.Machine.execLowWordRead m addr bytes s
  | .tbNowRead m bytes => Sys2Proof.Machine.execTbNowRead m bytes s
  | .hstApbaseWrite m p val => Sys2Proof.Machine.execHstApbaseWrite m p val s
  | .bar2Read p off len => Sys2Proof.Machine.execBar2Read p off len s
  | .bar2Write p off data => Sys2Proof.Machine.execBar2Write p off data s
  | .snapReq m val => Sys2Proof.Machine.execSnapReq m val s
  | .beatBoundary tj => Sys2Proof.Machine.execBeatBoundary tj s
  | .powerOnReset c rails => Sys2Proof.Machine.execPowerOnReset c s rails
  | .pornRelease lowNs bootsel rails => Sys2Proof.Machine.execPornRelease lowNs bootsel s rails
  | .rstnAssert lowNs => Sys2Proof.Machine.execRstnAssert lowNs s
  | .sysResetWarm m val => Sys2Proof.Machine.execSysResetWarm m val s
  | .sysResetCold m val => Sys2Proof.Machine.execSysResetCold m val s
  | .autoReset => Sys2Proof.Machine.execAutoReset s
  | .resetDramSelfRefresh => Sys2Proof.Machine.execResetDramSelfRefresh s
  | .resetFireSilence => Sys2Proof.Machine.execResetFireSilence s
  | .resetLogicAssert => Sys2Proof.Machine.execResetLogicAssert s
  | .resetRelease bootsel => Sys2Proof.Machine.execResetRelease bootsel s
  | .castOnStepDone info => Sys2Proof.Machine.execCastOnStepDone info s
  | .castOnStepLimit info => Sys2Proof.Machine.execCastOnStepLimit info s
  | .patternImageArrived src complete img => Sys2Proof.Machine.execPatternImageArrived src complete img s
  | .mboxGo m val => Sys2Proof.Machine.execMboxGo m val s
  | .mboxAbort m val => Sys2Proof.Machine.execMboxAbort m val s
  | .mboxTimeout => Sys2Proof.Machine.execMboxTimeout s
  | .stagingWrite m addr bytes val => Sys2Proof.Machine.execStagingWrite m addr bytes val s
  | .repatternGo m val => Sys2Proof.Machine.execRepatternGo m val s
  | .repatternVerifyDone => Sys2Proof.Machine.execRepatternVerifyDone s
  | .repatternApply => Sys2Proof.Machine.execRepatternApply s
  | .clogClear m val => Sys2Proof.Machine.execClogClear m val s
  | .bindoffGo m val => Sys2Proof.Machine.execBindoffGo m val s
  | .bindoffStepDone => Sys2Proof.Machine.execBindoffStepDone s
  | .bindoffCapTimeout => Sys2Proof.Machine.execBindoffCapTimeout s
  | .functionEnableWrite m f en => Sys2Proof.Machine.execFunctionEnableWrite m f en s
  | .functionTransitionDone f => Sys2Proof.Machine.execFunctionTransitionDone f s
  | .functionWedged f => Sys2Proof.Machine.execFunctionWedged f s
  | .tbIncrWrite m bytes val => Sys2Proof.Machine.execTbIncrWrite m bytes val s
  | .tbStepWrite m bytes val => Sys2Proof.Machine.execTbStepWrite m bytes val s
  | .tbManualWrite m val => Sys2Proof.Machine.execTbManualWrite m val s
  | .tbResync m val => Sys2Proof.Machine.execTbResync m val s
  | .announceRx e f msg => Sys2Proof.Machine.execAnnounceRx e f msg s
  | .syncRx e f msg => Sys2Proof.Machine.execSyncRx e f msg s
  | .followUpRx e f msg => Sys2Proof.Machine.execFollowUpRx e f msg s
  | .delayRespRx e f msg => Sys2Proof.Machine.execDelayRespRx e f msg s
  | .pdelayReqRx e f msg => Sys2Proof.Machine.execPdelayReqRx e f msg s
  | .pdelayRespRx e f msg => Sys2Proof.Machine.execPdelayRespRx e f msg s
  | .ptpOtherRx e => Sys2Proof.Machine.execPtpOtherRx e s
  | .delayReqTx e capture => Sys2Proof.Machine.execDelayReqTx e capture s
  | .pdelayReqTx e capture => Sys2Proof.Machine.execPdelayReqTx e capture s
  | .timeStepApply => Sys2Proof.Machine.execTimeStepApply s
  | .announceTimeout => Sys2Proof.Machine.execAnnounceTimeout s
  | .syncTimeout => Sys2Proof.Machine.execSyncTimeout s
  | .quadTransition n a b t => Sys2Proof.Machine.execQuadTransition n a b t s
  | .f0Step dir setupOk t => Sys2Proof.Machine.execF0Step dir setupOk t s
  | .indexEdge n t => Sys2Proof.Machine.execIndexEdge n t s
  | .idxArm m n => Sys2Proof.Machine.execIdxArm m n s
  | .wtScaleWrite m val => Sys2Proof.Machine.execWtScaleWrite m val s
  | .webStandstill => Sys2Proof.Machine.execWebStandstill s
  | .webSettled => Sys2Proof.Machine.execWebSettled s
  | .webRecovered => Sys2Proof.Machine.execWebRecovered s
  | .webCoastExhausted => Sys2Proof.Machine.execWebCoastExhausted s
  | .webReversed => Sys2Proof.Machine.execWebReversed s
  | .pageCue t => Sys2Proof.Machine.execPageCue t s
  | .softCue m bytes val => Sys2Proof.Machine.execSoftCue m bytes val s
  | .softCueAccept => Sys2Proof.Machine.execSoftCueAccept s
  | .cmpEntryWrite m addr bytes val => Sys2Proof.Machine.execCmpEntryWrite m addr bytes val s
  | .markPulseStart => Sys2Proof.Machine.execMarkPulseStart s
  | .markPulseEnd => Sys2Proof.Machine.execMarkPulseEnd s
  | .pagePush m bytes val => Sys2Proof.Machine.execPagePush m bytes val s
  | .pagePushLowWrite m val => Sys2Proof.Machine.execPagePushLowWrite m val s
  | .descriptorCheck => Sys2Proof.Machine.execDescriptorCheck s
  | .bandDecodeStart lane => Sys2Proof.Machine.execBandDecodeStart lane s
  | .bandDecodeDone lane err => Sys2Proof.Machine.execBandDecodeDone lane err s
  | .spareDecodeDone err => Sys2Proof.Machine.execSpareDecodeDone err s
  | .stripLineWrite strip => Sys2Proof.Machine.execStripLineWrite strip s
  | .encodeGo m n val => Sys2Proof.Machine.execEncodeGo m n val s
  | .encodeKick m n => Sys2Proof.Machine.execEncodeKick m n s
  | .skeinBufferFull n => Sys2Proof.Machine.execSkeinBufferFull n s
  | .encodeReadFail n => Sys2Proof.Machine.execEncodeReadFail n s
  | .encodeDone n => Sys2Proof.Machine.execEncodeDone n s
  | .windowReadReturn en h row strip pair => Sys2Proof.Machine.execWindowReadReturn en h row strip pair s
  | .windowReadDeadline => Sys2Proof.Machine.execWindowReadDeadline s
  | .lineBuild en h row flt => Sys2Proof.Machine.execLineBuild en h row flt s
  | .shiftWrite m val => Sys2Proof.Machine.execShiftWrite m val s
  | .autoUpdate v => Sys2Proof.Machine.execAutoUpdate v s
  | .blendCommit m val => Sys2Proof.Machine.execBlendCommit m val s
  | .swatchArm m bytes val => Sys2Proof.Machine.execSwatchArm m bytes val s
  | .peSharedWrite m addr bytes val => Sys2Proof.Machine.execPeSharedWrite m addr bytes val s
  | .trimCommit m en val => Sys2Proof.Machine.execTrimCommit m en val s
  | .headTempStale h => Sys2Proof.Machine.execHeadTempStale h s
  | .claimWrite m en val => Sys2Proof.Machine.execClaimWrite m en val s
  | .engineSramError en => Sys2Proof.Machine.execEngineSramError en s
  | .engineFailRate en => Sys2Proof.Machine.execEngineFailRate en s
  | .fireInhibitnChange level t => Sys2Proof.Machine.execFireInhibitnChange level t s
  | .inhibitWrite m val => Sys2Proof.Machine.execInhibitWrite m val s
  | .frameTxDone l t => Sys2Proof.Machine.execFrameTxDone l t s
  | .hlFireAdjWrite m l val => Sys2Proof.Machine.execHlFireAdjWrite m l val s
  | .statusRx l st t4 => Sys2Proof.Machine.execStatusRx l st t4 s
  | .delayRestart l => Sys2Proof.Machine.execDelayRestart l s
  | .upstreamFrameBad l => Sys2Proof.Machine.execUpstreamFrameBad l s
  | .mgmtGo m l p val => Sys2Proof.Machine.execMgmtGo m l p val s
  | .mgmtCancel m l p => Sys2Proof.Machine.execMgmtCancel m l p s
  | .mgmtReadRespRx l tag result data => Sys2Proof.Machine.execMgmtReadRespRx l tag result data s
  | .mgmtWriteRespRx l tag result => Sys2Proof.Machine.execMgmtWriteRespRx l tag result s
  | .mgmtTimeout l => Sys2Proof.Machine.execMgmtTimeout l s
  | .headCheckDone l => Sys2Proof.Machine.execHeadCheckDone l s
  | .headBurstDetect l gen => Sys2Proof.Machine.execHeadBurstDetect l gen s
  | .rxLockAcquired l => Sys2Proof.Machine.execRxLockAcquired l s
  | .rxLockLost l => Sys2Proof.Machine.execRxLockLost l s
  | .tsRx l ts => Sys2Proof.Machine.execTsRx l ts s
  | .eqDwellDone l eye => Sys2Proof.Machine.execEqDwellDone l eye s
  | .eqRequestTimeout l => Sys2Proof.Machine.execEqRequestTimeout l s
  | .confirmComplete l eye => Sys2Proof.Machine.execConfirmComplete l eye s
  | .linkTrainTimeout l => Sys2Proof.Machine.execLinkTrainTimeout l s
  | .linkUp l => Sys2Proof.Machine.execLinkUp l s
  | .statusLost l => Sys2Proof.Machine.execStatusLost l s
  | .crcRate l => Sys2Proof.Machine.execCrcRate l s
  | .linkRetrain m l => Sys2Proof.Machine.execLinkRetrain m l s
  | .linkTest m l en => Sys2Proof.Machine.execLinkTest m l en s
  | .dnSleepEnter l => Sys2Proof.Machine.execDnSleepEnter l s
  | .dnWake l => Sys2Proof.Machine.execDnWake l s
  | .upSleepRx l => Sys2Proof.Machine.execUpSleepRx l s
  | .wakeRelockTimeout l => Sys2Proof.Machine.execWakeRelockTimeout l s
  | .cameraTrigger c => Sys2Proof.Machine.execCameraTrigger c s
  | .strobeStart c => Sys2Proof.Machine.execStrobeStart c s
  | .strobeEnd c => Sys2Proof.Machine.execStrobeEnd c s
  | .csiFrameStart c => Sys2Proof.Machine.execCsiFrameStart c s
  | .csiFrameEnd c => Sys2Proof.Machine.execCsiFrameEnd c s
  | .csiLongPacket c pk => Sys2Proof.Machine.execCsiLongPacket c pk s
  | .csiOtherPacket c kind => Sys2Proof.Machine.execCsiOtherPacket c kind s
  | .camLineMissed c => Sys2Proof.Machine.execCamLineMissed c s
  | .frameIdleTimeout c => Sys2Proof.Machine.execFrameIdleTimeout c s
  | .camLineProcess c => Sys2Proof.Machine.execCamLineProcess c s
  | .insCommit m => Sys2Proof.Machine.execInsCommit m s
  | .i2cGo m k val => Sys2Proof.Machine.execI2cGo m k val s
  | .i2cComplete k result data => Sys2Proof.Machine.execI2cComplete k result data s
  | .i2cTimeout k => Sys2Proof.Machine.execI2cTimeout k s
  | .nzhCamLine c => Sys2Proof.Machine.execNzhCamLine c s
  | .healthWindowClose nz => Sys2Proof.Machine.execHealthWindowClose nz s
  | .swatchVerdict => Sys2Proof.Machine.execSwatchVerdict s
  | .nzhSwatchPages => Sys2Proof.Machine.execNzhSwatchPages s
  | .substApply => Sys2Proof.Machine.execSubstApply s
  | .substHostWrite m addr bytes val => Sys2Proof.Machine.execSubstHostWrite m addr bytes val s
  | .dramReadComplete rq addr errs => Sys2Proof.Machine.execDramReadComplete rq addr errs s
  | .dramRmw rq addr data => Sys2Proof.Machine.execDramRmw rq addr data s
  | .ceDecay => Sys2Proof.Machine.execCeDecay s
  | .rebuildGranule ch errs => Sys2Proof.Machine.execRebuildGranule ch s errs
  | .scrubGranule ch errs => Sys2Proof.Machine.execScrubGranule ch errs s
  | .pprRepair ch rank lane errs => Sys2Proof.Machine.execPprRepair ch rank lane s errs
  | .retrainPause ch rank lane pass => Sys2Proof.Machine.execRetrainPause ch rank lane pass s
  | .trefiTick ch rank => Sys2Proof.Machine.execTrefiTick ch rank s
  | .refForced ch rank => Sys2Proof.Machine.execRefForced ch rank s
  | .dramTempPoll ch rank doubled tooHot => Sys2Proof.Machine.execDramTempPoll ch rank doubled tooHot s
  | .chipMarkHost m ch val => Sys2Proof.Machine.execChipMarkHost m ch val s
  | .markForget m ch => Sys2Proof.Machine.execMarkForget m ch s
  | .speedChangeGo m ch val => Sys2Proof.Machine.execSpeedChangeGo m ch val s
  | .speedChangeDone lanes => Sys2Proof.Machine.execSpeedChangeDone s lanes
  | .arbiterGrant ch reqs => Sys2Proof.Machine.execArbiterGrant ch reqs s
  | .holdCut ch => Sys2Proof.Machine.execHoldCut ch s
  | .requestWithdraw ch r => Sys2Proof.Machine.execRequestWithdraw ch r s
  | .slotOpen ch slot reqs stream => Sys2Proof.Machine.execSlotOpen ch slot reqs stream s
  | .mfClassWrite m bytes val => Sys2Proof.Machine.execMfClassWrite m bytes val s
  | .slotActiveWrite m word val => Sys2Proof.Machine.execSlotActiveWrite m word val s
  | .slotArm m val => Sys2Proof.Machine.execSlotArm m val s
  | .slotSwap => Sys2Proof.Machine.execSlotSwap s
  | .pciePortReset p perst => Sys2Proof.Machine.execPciePortReset p s perst
  | .pcieLinkUp p speed width perst => Sys2Proof.Machine.execPcieLinkUp p speed width s perst
  | .doorbellWrite m p val => Sys2Proof.Machine.execDoorbellWrite m p val s
  | .eventPost => Sys2Proof.Machine.execEventPost s
  | .eventRingWrite p => Sys2Proof.Machine.execEventRingWrite p s
  | .evrEnable m p val => Sys2Proof.Machine.execEvrEnable m p val s
  | .evrDisable m p val => Sys2Proof.Machine.execEvrDisable m p val s
  | .evrTailWrite m p val => Sys2Proof.Machine.execEvrTailWrite m p val s
  | .msixModerationEnd p => Sys2Proof.Machine.execMsixModerationEnd p s
  | .snapDmaGo m p val => Sys2Proof.Machine.execSnapDmaGo m p val s
  | .snapDmaStart p => Sys2Proof.Machine.execSnapDmaStart p s
  | .snapDmaDone p => Sys2Proof.Machine.execSnapDmaDone p s
  | .snapDmaTimeout p => Sys2Proof.Machine.execSnapDmaTimeout p s
  | .ethFrameDiscard e badFcs => Sys2Proof.Machine.execEthFrameDiscard e badFcs s
  | .ethLink e up => Sys2Proof.Machine.execEthLink e up s
  | .uploadGo m e val => Sys2Proof.Machine.execUploadGo m e val s
  | .uploadDatagram e => Sys2Proof.Machine.execUploadDatagram e s
  | .fuseProg m val => Sys2Proof.Machine.execFuseProg m val s
  | .fuseProgDone => Sys2Proof.Machine.execFuseProgDone s
  | .rollbackAdvance m val => Sys2Proof.Machine.execRollbackAdvance m val s
  | .rollbackProgDone => Sys2Proof.Machine.execRollbackProgDone s
  | .attestGo m => Sys2Proof.Machine.execAttestGo m s
  | .attestDone => Sys2Proof.Machine.execAttestDone s
  | .tamperDetect c => Sys2Proof.Machine.execTamperDetect c s
  | .tamperForce m val => Sys2Proof.Machine.execTamperForce m val s
  | .tamperClear m val cause => Sys2Proof.Machine.execTamperClear m val cause s
  | .vaultUsageSave => Sys2Proof.Machine.execVaultUsageSave s
  | .vaultTimeSave => Sys2Proof.Machine.execVaultTimeSave s
  | .authReauth m val => Sys2Proof.Machine.execAuthReauth m val s
  | .authResponseRx l msg => Sys2Proof.Machine.execAuthResponseRx l msg s
  | .authResponseTimeout l => Sys2Proof.Machine.execAuthResponseTimeout l s
  | .usagePeriodExpiry => Sys2Proof.Machine.execUsagePeriodExpiry s
  | .countAckRx l msg => Sys2Proof.Machine.execCountAckRx l msg s
  | .countAckTimeout l => Sys2Proof.Machine.execCountAckTimeout l s
  | .servoTick => Sys2Proof.Machine.execServoTick s
  | .servoStages => Sys2Proof.Machine.execServoStages s
  | .chopPeriod n phase => Sys2Proof.Machine.execChopPeriod n phase s
  | .stepperOvercurrent n => Sys2Proof.Machine.execStepperOvercurrent n s
  | .microstepEmit n t bemf => Sys2Proof.Machine.execMicrostepEmit n t bemf s
  | .holdCurrentTimer n => Sys2Proof.Machine.execHoldCurrentTimer n s
  | .moveGo m n bytes val => Sys2Proof.Machine.execMoveGo m n bytes val s
  | .moveSoftStop m n => Sys2Proof.Machine.execMoveSoftStop m n s
  | .moveStop m n => Sys2Proof.Machine.execMoveStop m n s
  | .moveHome m n => Sys2Proof.Machine.execMoveHome m n s
  | .motSourceWrite m n val => Sys2Proof.Machine.execMotSourceWrite m n val s
  | .capGo m => Sys2Proof.Machine.execCapGo m s
  | .switchChange n isEnd level t => Sys2Proof.Machine.execSwitchChange n isEnd level t s
  | .switchChatter n isEnd => Sys2Proof.Machine.execSwitchChatter n isEnd s
  | .axisStall n => Sys2Proof.Machine.execAxisStall n s
  | .pwmCentre a iu iv iw => Sys2Proof.Machine.execPwmCentre a iu iv iw s
  | .servoOvercurrent a => Sys2Proof.Machine.execServoOvercurrent a s
  | .absFrameDone a fr => Sys2Proof.Machine.execAbsFrameDone a fr s
  | .hallChange h code t => Sys2Proof.Machine.execHallChange h code t s
  | .servoAlignDone a => Sys2Proof.Machine.execServoAlignDone a s
  | .servoTargetWrite m a val => Sys2Proof.Machine.execServoTargetWrite m a val s
  | .servoRegRx v => Sys2Proof.Machine.execServoRegRx v s
  | .servoReference m a => Sys2Proof.Machine.execServoReference m a s
  | .servoClear m a => Sys2Proof.Machine.execServoClear m a s
  | .notchCommit m a => Sys2Proof.Machine.execNotchCommit m a s
  | .trimGo m val => Sys2Proof.Machine.execTrimGo m val s
  | .trimMeasureDone rLo rHi sLo sHi => Sys2Proof.Machine.execTrimMeasureDone rLo rHi sLo sHi s
  | .trimProgDone => Sys2Proof.Machine.execTrimProgDone s
  | .analogCheck => Sys2Proof.Machine.execAnalogCheck s
  | .analogCheckDone reading => Sys2Proof.Machine.execAnalogCheckDone reading s
  | .analogStuck k => Sys2Proof.Machine.execAnalogStuck k s
  | .pllLockLoss => Sys2Proof.Machine.execPllLockLoss s
  | .jtagInstructionLoad withPor instr cells => Sys2Proof.Machine.execJtagInstructionLoad withPor s instr cells
  | .jtagTestLogicReset bootsel => Sys2Proof.Machine.execJtagTestLogicReset bootsel s
  | .vbatLoss => Sys2Proof.Machine.execVbatLoss s
  | .pcieConfigWrite p w => Sys2Proof.Machine.execPcieConfigWrite p w s

end Sys2Proof.Machine
end

