-- ==== Sys2Proof/Safety.lean ====
section
/-!
DEFINITION. What counts as a safe run, what a command may change, and the invariant of the state.
-/

namespace Sys2Proof.Machine

/-- A step from s answers a next state. -/
def Steps (s : State) : Prop := ∃ t, step s = .next t

/-- n steps from s all answer a next state. -/
def SafeFor (s : State) : Nat → Prop
  | 0 => True
  | n + 1 => ∃ t, step s = .next t ∧ SafeFor t n

/-- The invariant of the device: the keys of the register map rise strictly, DRAM and the retention RAM list no byte that reads 0 anyway, and every list
of instances has its length. -/
structure Dev.Inv (d : Dev) : Prop where
  regs : keysRising 0 d.regs = true
  mem : Memory.wf d.mem = true
  ram : Memory.wf d.vlt.ram = true
  ports : d.hst.ports.length = 2
  vectors : ∀ x ∈ d.hst.ports, x.msix.length = 2 ∧ x.bars.length = 3
  uploads : d.hst.uploads.length = 2
  ptp : d.tmb.ports.length = 2
  quads : d.web.quads.length = 4
  enc : d.cdc.enc.length = 4
  win : d.cdc.win.length = 16
  temps : d.pace.temps.length = 32
  links : d.hl.length = 32
  reqs : ∀ x ∈ d.hl, x.reqs.length = 3
  cams : d.ins.cams.length = 8
  i2c : d.ins.i2c.length = 2
  arbs : d.drm.arbs.length = 2
  motAxes : d.mot.axes.length = 4
  srvAxes : d.srv.axes.length = 2
  cmpJ : keysRising 0 d.web.cmpJ = true

def State.Inv (s : State) : Prop := s.dev.Inv

/-- The parts of the device beside its registers: the fields of `Dev`. -/
inductive Part where
  | regsOpen | snapD | mem | ue | out | raised | tallies | onceKeys | freeCtr | bus | sys | pat | tmb | web | cdc | las | pace
  | hst | vlt | hl | unauth | ins | nzh | drm | mot | srv | trm | tap
deriving DecidableEq, Repr

/-- A part is the same in two devices. -/
def Part.same (d e : Dev) : Part → Prop
  | .regsOpen => e.regsOpen = d.regsOpen
  | .snapD => e.snapD = d.snapD
  | .mem => e.mem = d.mem
  | .ue => e.ue = d.ue
  | .out => e.out = d.out
  | .raised => e.raised = d.raised
  | .tallies => e.tallies = d.tallies
  | .onceKeys => e.onceKeys = d.onceKeys
  | .freeCtr => e.freeCtr = d.freeCtr
  | .bus => e.bus = d.bus
  | .sys => e.sys = d.sys
  | .pat => e.pat = d.pat
  | .tmb => e.tmb = d.tmb
  | .web => e.web = d.web
  | .cdc => e.cdc = d.cdc
  | .las => e.las = d.las
  | .pace => e.pace = d.pace
  | .hst => e.hst = d.hst
  | .vlt => e.vlt = d.vlt
  | .hl => e.hl = d.hl
  | .unauth => e.unauth = d.unauth
  | .ins => e.ins = d.ins
  | .nzh => e.nzh = d.nzh
  | .drm => e.drm = d.drm
  | .mot => e.mot = d.mot
  | .srv => e.srv = d.srv
  | .trm => e.trm = d.trm
  | .tap => e.tap = d.tap

/-- Every part but the listed ones is unchanged. -/
def Dev.Keeps (d e : Dev) (changed : List Part) : Prop := ∀ p, p ∉ changed → p.same d e

/-- Every register but those at the listed offsets is unchanged. -/
def Dev.KeepsRegs (d e : Dev) (changed : List Nat) : Prop :=
  ∀ a, a ∉ changed → ∀ w, mapGet e.regs a w = mapGet d.regs a w

/-- Command c at s completes: exec answers t, the queue is as it was, and the device differs from what it was in the listed parts and
in the registers at the listed offsets only (DRAM is the part `mem`). -/
structure Runs (c : Instr) (s t : State) (parts : List Part) (regs : List Nat) : Prop where
  next : exec c s = .next t
  queue : t.pending = s.pending
  parts : s.dev.Keeps t.dev parts
  regs : s.dev.KeepsRegs t.dev regs

/-- Command c at s completes: exec answers t, the queue is as it was, and the device differs from what it was in its registers and in
the listed parts only. -/
structure Completes (c : Instr) (s t : State) (parts : List Part) : Prop where
  next : exec c s = .next t
  queue : t.pending = s.pending
  parts : s.dev.Keeps t.dev parts

/-! ### Registers that one command writes together -/

/-- The registers that show an applied Pattern, with PAT_STATUS. -/
def patternRegs : List Nat :=
  [R.PAT_STATUS.addr 0, R.PAT_ID.addr 0, R.PAT_GEN.addr 0, R.TB_CTRL.addr 0, R.TB_JUMP_MAX.addr 0, R.TB_LIMITS.addr 0, R.LA_WINDOW.addr 0] ++
    (List.range 2).flatMap (fun i => [R.PE_STAT.addr i, R.PE_CLAIM.addr i, R.DM_STAT.addr i, R.DM_SCRUB.addr i, R.DM_REBUILD.addr i,
      R.DM_SPEED_CTRL.addr i, R.HST_PORT_STAT.addr i]) ++ (List.range 32).map (R.VLT_HEAD_STAT.addr ·)

/-- The registers that show the cast-on log and the state of cast-on. -/
def castLogRegs : List Nat :=
  [R.SYS_CASTON_STAT.addr 0, R.SYS_CLOG_COUNT.addr 0, R.SYS_CLOG_ATTEMPTS.addr 0, R.SYS_CLOG_DIR.addr 0]

/-- The registers whose fields come from the fuses and the trim store, with those of cast-on. -/
def fuseRegs : List Nat :=
  [R.SYS_CASTON_STAT.addr 0, R.GL_SERIAL.addr 0, R.ETH_MAC.addr 0, R.ETH_MAC.addr 1, R.VLT_STAT.addr 0, R.VLT_ROLLBACK.addr 0,
    R.VLT_CERT_LEN.addr 0, R.VLT_TAMPER.addr 0, R.TRM_MAP.addr 0] ++ (List.range 8).flatMap (fun i => [R.VLT_ROOT_HASH.addr i, R.TRM_EYE_BASE.addr i]) ++
    (List.range 256).map (R.VLT_CERT.addr ·) ++ (List.range 26).flatMap fun i => [R.TRM_TRIM.addr i, R.TRM_CH.addr i]

/-- The registers that an accepted cue may write: the tracker's, the page queue's, and what waits for a cue. -/
def cueRegs : List Nat :=
  [R.WT_DEBT.addr 0, R.WT_STAT.addr 0, R.WT_PAGE.addr 0, R.CD_HEAD.addr 0, R.CD_QSTAT.addr 0, R.LA_SHIFT.addr 0, R.LA_SHIFT_STAT.addr 0, R.LA_SWATCH.addr 0,
    R.SYS_FAULT_STAT.addr 0] ++ (List.range 32).map (R.HL_TEMP_STAT.addr ·) ++ (List.range 4096).map (R.WT_CMP_OUT.addr ·)

/-- What an access to DRAM may change: its bytes and marks, what the memory controller keeps, and what an uncorrectable granule or a
refusal posts. -/
def dramParts : List Part := [.mem, .ue, .drm, .raised, .tallies, .snapD, .freeCtr]

/-- What a read of DRAM may change: what the memory controller keeps, and what an uncorrectable granule or a refusal posts. -/
def readParts : List Part := [.drm, .raised, .tallies, .snapD, .freeCtr]

/-- The registers that an access to DRAM may write: the address of an uncorrectable granule, and the summary. -/
def dramRegs : List Nat := [R.DM_UE_ADDR.addr 0, R.DM_UE_ADDR.addr 1, R.SYS_FAULT_STAT.addr 0]

/-- The registers that the end of a band may write: the queue's, the lane map's, the page's and the summary, and those of a DRAM access. -/
def bandRegs : List Nat :=
  [R.CD_HEAD.addr 0, R.CD_QSTAT.addr 0, R.CD_LANE_MAP.addr 0, R.WT_PAGE.addr 0] ++ dramRegs

/-- The registers that the end of a link's service may write, with those of the exchange that begins next. -/
def serviceRegs (l : Nat) : List Nat :=
  [R.HL_STAT.addr l, R.HL_DELAY.addr l, R.VLT_HEAD_STAT.addr l, R.VLT_HEAD_PENDING.addr l, R.VLT_HEAD_SERIAL.addr l]

/-- What a new start of a link's training may change: the link, the lines that wait for it, and what its hosts are told. -/
def trainParts : List Part := [.hl, .out, .pace, .raised, .snapD, .unauth]

/-- The registers that a new start of a link's training may write. -/
def trainRegs (l : Nat) : List Nat :=
  [R.HL_STAT.addr l, R.HL_DELAY.addr l, R.VLT_HEAD_STAT.addr l, R.VLT_HEAD_PENDING.addr l, R.HL_MGMT_STAT.addr (2 * l), R.HL_MGMT_STAT.addr (2 * l + 1)]

/-- What a command to a stepper axis may change: the axes, the events posted, and the axes' counts. -/
def motParts : List Part := [.mot, .raised, .snapD]

/-- The registers that a command to a stepper axis may write: those of all four axes (for a gang and the capping move) and the summary. -/
def motRegs : List Nat :=
  [R.MOT_CAP_CTRL.addr 0, R.SYS_FAULT_STAT.addr 0] ++
    (List.range 4).flatMap fun n => [R.MOT_n_MOVE.addr n, R.MOT_n_STAT.addr n, R.MOT_n_POS.addr n, R.MOT_n_LATCH.addr n]

/-- The registers of a function: its enable and its status, and a servo axis's loop, which its start resets. -/
def funcRegs (f : Func) : List Nat :=
  (Func.enable f).1.reg.addr (Func.enable f).2 :: match f with
    | .dec | .enc | .q _ | .f0 | .eth _ => [R.SYS_FUNC_STAT.addr 0]
    | .cam c => [R.INS_Cc_STAT.addr c]
    | .nzh => []
    | .mot n => [R.MOT_n_STAT.addr n]
    | .srv a => [R.SV_a_STAT.addr a, R.SV_a_POS.addr a, R.SV_a_LOOP.addr a]

/-- A write by master m to register r reaches it: the port answers requests, and R31 passes. -/
abbrev Dev.Takes (d : Dev) (m : Master) (r : Reg) (i : Nat) : Prop := d.hears m = true ∧ d.regCheck m (r.addr i) = .pass

/-- A PTP message of form f is taken on port e: PTP runs there, and the transport and the domain are the port's own (R84, R85). -/
abbrev Dev.Receives (d : Dev) (e : Fin 2) (f : PtpForm) : Prop :=
  d.ptpOn e = true ∧ decide (f.transport = .udp) = d.udp e ∧ f.domain = d.pat.loaded.time.domain

/-- What a requester reads of DRAM from a on is right: no granule of it is uncorrectable, nor fetched wrong for that requester. -/
abbrev Dev.ReadsGood (d : Dev) (req a len : Nat) : Prop :=
  (∀ g ∈ granules a len, d.granuleBad g = false) ∧ ∀ f ∈ d.drm.fetched, f.rq = req → f.wrong = []

/-- Command c at s completes and changes nothing at all. -/
abbrev Ignored (c : Instr) (s : State) : Prop := exec c s = .next s

/-- How a requester hears that its narrow write failed: a port by AER, line assembly, the codec and the memory controller not at all,
another by an error response (R31, R254). -/
def tells (rq : Nat) (x : Answer) : List Out :=
  if rq = 10 then [.aer 0 x] else if rq = 11 then [.aer 1 x] else if rq < 5 ∨ 16 < rq then [] else [.completion .internal .err []]

/-- What R8's types leave in a field that holds old, of which the bits k are written with new. -/
def Fld.written (f : Fld) (locked : Bool) (old new k : Nat) : Nat :=
  let merged := Nat.lor (Nat.land old (2 ^ f.w - 1 - k)) (Nat.land new k)
  match f.ty with
  | .rw => if k = 0 then old else f.clamp.app f.w merged % 2 ^ f.w
  | .rwl => if k = 0 ∨ locked = true then old else f.clamp.app f.w merged % 2 ^ f.w
  | .w1c => Nat.land old (2 ^ f.w - 1 - Nat.land new k)
  | .w1s => Nat.lor old (Nat.land new k)
  | .ro | .wo | .snap => old

/-- The running delta of a SNAP field (R292). -/
def Dev.delta (d : Dev) (f : Fld) (i : Nat := 0) : Int := mapGet d.snapD (f.key i) 0

/-- An event as the device posts it now, naming the beat in progress (R290). -/
def Dev.event (d : Dev) (t : Dest) (code : Nat) (payload : List (Nat × Nat)) : Ev :=
  ⟨code, d.addressed t 0, d.addressed t 1, d.beat, d.steps, pack payload⟩

/-- The registers that a tick of the motion unit and of the registration servo may write. -/
def tickRegs : List Nat :=
  motRegs ++ (List.range 2).flatMap fun a => [R.SV_a_STAT.addr a, R.SV_a_POS.addr a, R.SV_a_LOOP.addr a, R.SV_a_CTRL.addr a]

/-- What a command to a servo axis may change: the axes and their functions, what the bridges put out, events, counts and open values. -/
def servoParts : List Part := [.srv, .sys, .out, .raised, .snapD, .freeCtr]

/-- The registers that a command to a servo axis may write: those of both axes and the summary. -/
def servoRegs : List Nat :=
  R.SYS_FAULT_STAT.addr 0 :: (List.range 2).flatMap fun a =>
    [R.SV_a_STAT.addr a, R.SV_a_POS.addr a, R.SV_a_LOOP.addr a, R.SV_a_CTRL.addr a, R.SV_a_TARGET.addr a]

/-- What the failure of an analog channel may change: its spare or its loss, and the axis that uses it. -/
def analogParts : List Part := [.trm, .raised, .mot, .snapD, .srv, .out, .sys]

/-- The registers that the failure of an analog channel may write. -/
def analogRegs : List Nat := R.TRM_MAP.addr 0 :: R.TRM_TRIM_CTRL.addr 0 :: (List.range 26).map (R.TRM_CH.addr ·) ++ motRegs ++ servoRegs

/-- The registers that show the trim store. -/
def trimRegs : List Nat :=
  R.TRM_MAP.addr 0 :: (List.range 26).flatMap (fun k => [R.TRM_CH.addr k, R.TRM_TRIM.addr k]) ++ (List.range 8).map (R.TRM_EYE_BASE.addr ·)

/-- From d to e the ON servo axis a has faulted with a cause (R350). -/
abbrev Dev.ServoFaults (d e : Dev) (a : Fin 2) (cause : Nat) : Prop :=
  e.srvMotion a = 3 ∧ e.rd F.SV_a_STAT_CAUSE a = cause ∧ (e.sAxis a).q = 0 ∧ (e.sAxis a).i = 0 ∧ (e.sAxis a).bridge ≠ .on ∧
    e.delta F.SV_a_COUNT_FAULTS a = d.delta F.SV_a_COUNT_FAULTS a + 1 ∧ e.rd F.SYS_FAULT_STAT_AXIS = 1 ∧
    d.event .secure 0x1101 [(1, a), (1, cause)] ∈ e.raised

/-- From d to e stepper axis n has stopped with a cause (R324): idle, nothing scheduled, the cause shown and AXIS_STOPPED posted. -/
abbrev Dev.AxisStops (d e : Dev) (n : Fin 4) (cause : Nat) : Prop :=
  e.motion n = 0 ∧ (e.mAxis n).due = [] ∧ (e.mAxis n).held = none ∧ e.rd F.MOT_n_STAT_STOP_CAUSE n = cause ∧
    d.event .secure 0x1005 [(1, n), (1, cause), (1, e.rd F.MOT_n_STAT_LOST n)] ∈ e.raised ∧
    (cause ≠ 1 → e.delta F.MOT_n_COUNT_STOPS n = d.delta F.MOT_n_COUNT_STOPS n + 1 ∧ e.rd F.SYS_FAULT_STAT_AXIS = 1) ∧
    ((d.fast n = true ∨ d.motion n = 2) ∨ (cause = 5 ∨ cause = 11) →
      e.rd F.MOT_n_STAT_LOST n = 1 ∧ d.event .secure 0x1008 [(1, n), (1, cause)] ∈ e.raised)

/-- From d to e encode lane n has given the buffer whose descriptor is at a to the host, with this many bits of its output (R131): they lie at
the buffer's address, VALID_BITS, TAG and FLAGS are written, and no other byte changes. -/
abbrev Dev.GivesBuffer (d e : Dev) (n : Fin 4) (a bits : Nat) (last : Bool) : Prop :=
  let j := d.enc n; let buf := d.load a 8; let out := bitSlice j.stream j.done bits; let flags := d.load (a + 0xC) 4 / 2 * 2
  (∀ f ∈ d.drm.fetched, f.rq ≠ 4) →
    (∀ x, x < buf ∨ buf + out.length ≤ x → x < a + 0xC ∨ a + 0x18 ≤ x → e.byte x = d.byte x) ∧
    (d.ue = [] → d.checkDram j.secure buf out.length = .pass → d.checkDram j.secure a 32 = .pass →
      buf + out.length ≤ a ∨ a + 32 ≤ buf →
      e.bytes buf out.length = out ∧ e.load (a + 0x10) 4 = bits % 2 ^ 32 ∧ e.load (a + 0x14) 4 = j.tag % 2 ^ 32 ∧
      e.load (a + 0xC) 4 = if last = true then Nat.lor flags 2 else flags)

/-- From d to e a NEXT_LINE change has been given its switch point (R148), where a ninth open point and an earlier wait do not hold it: one past
the highest line built; no change of its field is left without a point or with one above. -/
abbrev Dev.GivesNextLine (d e : Dev) (c : Change) : Prop :=
  ∀ h, d.las.highest = some h → openPoints d.las.switches < 8 → (∀ w ∈ d.las.switches, w.point = none → w.nextLine = false) →
    (∃ w ∈ e.las.switches, w.what = c ∧ w.point = some (h + 1) ∧ w.held = false) ∧
    ∀ w ∈ e.las.switches, sameField w.what c = true → ∃ p, w.point = some p ∧ p ≤ h + 1

/-- From d to e the open frame of camera c has closed (R227): HEAD moves on within the ring, FRAME_DONE is posted, and the entry at HEAD takes the
frame's record and no other byte changes. GEN, FIRST_LINE and START_BEAT are those of its first line. -/
abbrev Dev.ClosesFrame (d e : Dev) (c : Fin 8) : Prop :=
  let w := (d.cam c).waiting.foldl (fun (x : Dev) _ => x.processLine c) d; let head := d.rd F.INS_STAT_HEAD_HEAD; let entry := d.frameEntry
  e.rd F.INS_STAT_HEAD_HEAD = (head + 1) % 2 ^ d.rd F.INS_STAT_RING_LOG_ENTRIES ∧
    ((∀ g ∈ d.drm.fetched, g.rq ≠ 7) → ∀ x, x < entry ∨ entry + 64 ≤ x → e.byte x = d.byte x) ∧
    ∀ f, (w.cam c).frame = some f → ∃ gen first beat,
      (f.begun = true → gen = f.gen % 65536 ∧ first = ofSigned 64 f.first ∧ beat = f.startBeat % 2 ^ 32) ∧
      d.event .secure 0x0E01 [(1, c), (4, f.number), (2, gen), (1, d.frameFlags c f), (2, head)] ∈ e.raised ∧
      (d.sys.reset = none → d.ue = [] → (∀ g ∈ d.drm.fetched, g.rq ≠ 7) → d.checkDram (d.masterSecure 7) entry 64 = .pass →
        e.bytes entry 64 = d.frameRecord c f gen first beat)

/-- From d to e no byte of DRAM has changed outside the n entries of the audit ring from HEAD on (R244). -/
abbrev Dev.AuditsAtMost (d e : Dev) (n : Nat) : Prop :=
  (∀ g ∈ d.drm.fetched, g.rq ≠ 9) → ∀ x, (∀ k, k < n → x < d.auditSlot k ∨ d.auditSlot k + 32 ≤ x) → e.byte x = d.byte x

/-- From d to e the entry of the audit ring at HEAD has taken a record, and no other byte has changed (R244). -/
abbrev Dev.Audits (d e : Dev) (record : List Byte) : Prop :=
  d.AuditsAtMost e 1 ∧
    (d.sys.reset = none → d.ue = [] → (∀ g ∈ d.drm.fetched, g.rq ≠ 9) → d.checkDram (d.masterSecure 9) (d.auditSlot 0) 32 = .pass →
      e.bytes (d.auditSlot 0) 32 = record)

/-- From d to e an ACTIVE link l has entered RECOVERY with a cause, and LINK_RECOVERY has been posted (R204). -/
abbrev Dev.Recovers (d e : Dev) (l : Fin 32) (cause : Nat) : Prop :=
  e.linkState l = 6 ∧ e.rd F.HL_STAT_CAUSE l = cause ∧ e.rd F.HL_STAT_UP l = 0 ∧ e.rd F.HL_STAT_IN_SERVICE l = 0 ∧
    e.delta F.HL_COUNT_RECOVERIES l = d.delta F.HL_COUNT_RECOVERIES l + 1 ∧ d.event .secure 0x0B04 [(1, l), (1, cause)] ∈ e.raised

/-- From d to e an attempt to train link l has failed (R205): another attempt, a lower generation, or DOWN. -/
abbrev Dev.AttemptFailed (d e : Dev) (l : Fin 32) (cause : Nat) : Prop :=
  e.rd F.HL_STAT_CAUSE l = cause ∧ e.rd F.HL_STAT_UP l = 0 ∧ e.rd F.HL_STAT_IN_SERVICE l = 0 ∧
    (if d.rd F.HL_STAT_ATTEMPT l < 3 then
        e.linkState l = 1 ∧ e.rd F.HL_STAT_ATTEMPT l = d.rd F.HL_STAT_ATTEMPT l + 1 ∧ e.linkGen l = d.linkGen l
      else if (d.linkSec l).genMin < d.linkGen l then
        e.linkState l = 1 ∧ e.rd F.HL_STAT_ATTEMPT l = 1 ∧ e.linkGen l = d.linkGen l - 1 ∧
          d.event .secure 0x0B02 [(1, l), (2, d.linkGen l), (2, d.linkGen l - 1)] ∈ e.raised
      else e.linkState l = 7 ∧ d.event .secure 0x0B03 [(1, l), (1, cause)] ∈ e.raised)

/-- Whether the write of val sets bit b. -/
abbrev setsBit (val b : Nat) : Prop := val.testBit b = true

end Sys2Proof.Machine
end

