-- ==== Sys2Proof/Certificates/Slice0/Obligations.lean ====
section
/-!
DEFINITION. The statements about the block.
-/

open Sys2Proof Sys2Proof.Machine

/-- For every command c and state s, step of s with c put at the front of its queue is exec c on s with the queue's rest; on
an empty queue step is the model's idle tick (log entry 1, the model's choice). -/
def Obligations.StepRunsFront : Prop :=
  ∀ (c : Instr) (s : State), step { s with pending := c :: s.pending } = exec c s ∧
    (s.pending = [] → step s = .next { s with dev := s.dev.tick })

/-- From every state every command answers a next state and leaves the queue alone, and any number of steps from any state all
answer a next state. -/
def Obligations.NoRunStops : Prop :=
  (∀ (c : Instr) (s : State), ∃ t, exec c s = .next t ∧ t.pending = s.pending) ∧ ∀ (n : Nat) (s : State), SafeFor s n

/-- A write that passes R31, to a register without a rule of its own, leaves in each field what R8's types say of the field's
bits that are written: RW takes the value under its limit, RWL does so unless cast-on has locked it, W1C clears where 1 is
written, W1S sets where 1 is written, and RO, WO and SNAP fields keep their value; no other register changes. It says so of a
32-bit write to a 32-bit register, of a 64-bit write to a 64-bit register, which is written whole, of a 32-bit write to the
low or the high word of a 64-bit register, which leaves the other word, and of a 64-bit write at a 32-bit register, which
writes that one and the one above it. Clauses rest on choices of the model where the spec leaves the point open: log entry 21
(a write to a register in two halves), log entry 104 (D3hot stops requests alone), log entry 167 (no register is without
meaning once a Pattern is applied). -/
def Obligations.RegisterWriteByType : Prop :=
  (∀ (m : Master) (off val : Nat) (h : Hit) (s : State),
    s.Inv → s.dev.hears m = true → s.dev.regCheck m off = .pass → off % 4 = 0 → findReg off regTable = some h →
    h.row.reg.width = 32 → (∀ w ∈ writeRules, w.1.base ≠ h.row.reg.base) → slotActiveWord off 4 = none →
    ∃ t, Runs (.registerWrite m (regSpace + off) 4 val) s t [.bus] [h.row.reg.addr h.idx] ∧
      ∀ f ∈ h.row.flds,
        let old := s.dev.rd f h.idx
        let new := fieldOf f.lo f.w val
        t.dev.rd f h.idx = match f.ty with
          | .rw => f.clamp.app f.w new % 2 ^ f.w
          | .rwl => if s.dev.sys.locked then old else f.clamp.app f.w new % 2 ^ f.w
          | .w1c => Nat.land old (2 ^ f.w - 1 - new)
          | .w1s => Nat.lor old new
          | .ro | .wo | .snap => old) ∧
  (∀ (m : Master) (off val : Nat) (h : Hit) (s : State),
    s.Inv → s.dev.hears m = true → s.dev.regCheck m off = .pass → s.dev.regCheck m (off + 4) = .pass → off % 8 = 0 →
    findReg off regTable = some h → h.row.reg.width = 64 → h.high = false → (∀ w ∈ writeRules, w.1.base ≠ h.row.reg.base) →
    slotActiveWord off 8 = none →
    ∃ t, Runs (.registerWrite m (regSpace + off) 8 val) s t [.bus] [h.row.reg.addr h.idx] ∧
      ∀ f ∈ h.row.flds,
        t.dev.rd f h.idx = f.written s.dev.sys.locked (s.dev.rd f h.idx) (fieldOf f.lo f.w val) (2 ^ f.w - 1)) ∧
  (∀ (m : Master) (off val : Nat) (h : Hit) (s : State), let word := if h.high then 2 ^ 32 else 1
    s.Inv → s.dev.hears m = true → s.dev.regCheck m off = .pass → off % 4 = 0 → findReg off regTable = some h →
    h.row.reg.width = 64 → (∀ w ∈ writeRules, w.1.base ≠ h.row.reg.base) → slotActiveWord off 4 = none → val < 2 ^ 32 →
    ∃ t, Runs (.registerWrite m (regSpace + off) 4 val) s t [.bus] [h.row.reg.addr h.idx] ∧
      ∀ f ∈ h.row.flds,
        t.dev.rd f h.idx = f.written s.dev.sys.locked (s.dev.rd f h.idx) (fieldOf f.lo f.w (val * word))
          (fieldOf f.lo f.w ((2 ^ 32 - 1) * word))) ∧
  (∀ (m : Master) (off val : Nat) (h k : Hit) (s : State),
    s.Inv → s.dev.hears m = true → s.dev.regCheck m off = .pass → s.dev.regCheck m (off + 4) = .pass → off % 8 = 0 →
    findReg off regTable = some h → h.row.reg.width = 32 → (∀ w ∈ writeRules, w.1.base ≠ h.row.reg.base) →
    slotActiveWord off 8 = none → val < 2 ^ 64 →
    (findReg (off + 4) regTable = none →
      ∃ t, Runs (.registerWrite m (regSpace + off) 8 val) s t [.bus] [h.row.reg.addr h.idx] ∧
        ∀ f ∈ h.row.flds,
          t.dev.rd f h.idx = f.written s.dev.sys.locked (s.dev.rd f h.idx) (fieldOf f.lo f.w val) (2 ^ f.w - 1)) ∧
    (findReg (off + 4) regTable = some k → k.row.reg.width = 32 → (∀ w ∈ writeRules, w.1.base ≠ k.row.reg.base) →
      ∃ t, Runs (.registerWrite m (regSpace + off) 8 val) s t [.bus] [h.row.reg.addr h.idx, k.row.reg.addr k.idx] ∧
        (∀ f ∈ h.row.flds,
          t.dev.rd f h.idx = f.written s.dev.sys.locked (s.dev.rd f h.idx) (fieldOf f.lo f.w val) (2 ^ f.w - 1)) ∧
        ∀ f ∈ k.row.flds,
          t.dev.rd f k.idx = f.written s.dev.sys.locked (s.dev.rd f k.idx) (fieldOf f.lo f.w (val / 2 ^ 32)) (2 ^ f.w - 1)))

/-- A 32-bit read of the low word of a 64-bit register answers that word and latches the high word for the master; the
master's next read of the high word answers the latched word, whatever the register holds by then; a 64-bit read of TB_NOW
answers it whole and latches the fraction in 2^-16 ns. No register changes. Clauses rest on choices of the model where the
spec leaves the point open: log entry 104 (D3hot stops requests alone), log entry 157 (the registers computed at a read), log
entry 167 (no register is without meaning once a Pattern is applied), log entry 169 (the latch of the internal masters). -/
def Obligations.RegisterReads : Prop :=
  (∀ (m : Master) (off : Nat) (h : Hit) (s : State), s.dev.hears m = true → s.dev.regCheck m off = .pass → off % 4 = 0 →
    findReg off regTable = some h → h.row.reg.width = 64 → h.high = false → h.row.reg.base ≠ R.TRM_CH.base →
    ∃ t, Runs (.lowWordRead m (regSpace + off) 4) s t [.bus, .out] [] ∧
      t.dev.out = s.dev.out ++ [.completion m .ok (leBytes 4 (s.dev.readReg m h))] ∧
      (t.dev.latch m).held = some (off, s.dev.readReg m h / 2 ^ 32)) ∧
  (∀ (m : Master) (off hi : Nat) (h : Hit) (s : State), s.dev.hears m = true → s.dev.regCheck m (off + 4) = .pass → off % 4 = 0 →
    findReg (off + 4) regTable = some h → h.row.reg.width = 64 → h.high = true → (s.dev.latch m).held = some (off, hi) →
    ∃ t, Runs (.lowWordRead m (regSpace + off + 4) 4) s t [.bus, .out] [] ∧
      t.dev.out = s.dev.out ++ [.completion m .ok (leBytes 4 hi)] ∧ (t.dev.latch m).held = none) ∧
  (∀ (m : Master) (s : State), s.dev.Takes m R.TB_NOW 0 →
    ∃ t, Runs (.tbNowRead m 8) s t [.bus, .out] [] ∧
      t.dev.out = s.dev.out ++ [.completion m .ok (leBytes 8 (s.dev.tmb.acc / 2 ^ 32))] ∧
      (t.dev.latch m).frac = s.dev.tmb.acc / 2 ^ 16 % 2 ^ 16)

/-- The answers are R31's: an access that fails check 2 is answered with Completer Abort, or logged for a posted write, does
nothing else but post WORLD_VIOLATION (R32) with the internal address and the requester, 0x40 or 0x41 for a register access
through P0 or P1 and the memory-front requester number for a DRAM access, to every Secure host; a failure at check 1 answers
Unsupported Request and one at check 3 reads 0 or ignores the write, and neither posts anything; internal blocks never fail
check 2; an offset that holds no register reads 0 and ignores writes (R24). Clauses rest on choices of the model where the
spec leaves the point open: log entry 104 (D3hot stops requests alone), log entry 108 (which port may write a register, and
the world of a port before a Pattern), log entry 167 (no register is without meaning once a Pattern is applied), log entry 168
(the address that a violation carries), log entry 170 (the end of BAR2), log entry 179 (requests that wait in the memory
front), log entry 189 (the world of an encode write), log entry 195 (masking, pending bits and the error status). -/
def Obligations.AccessRefused : Prop :=
  (∀ (p : Fin 2) (off val : Nat) (s : State), s.dev.hears (hostOf p) = true → off % 4 = 0 → slotActiveWord off 4 = none →
    (s.dev.regCheck (hostOf p) off = .world →
      (∃ t, Runs (.registerWrite (hostOf p) (regSpace + off) 4 val) s t [.bus, .out, .raised, .hst] [] ∧
        t.dev.out = s.dev.out ++ [.aer p .ca] ∧
        t.dev.raised = s.dev.raised ++ [s.dev.event .secure 0x0310 [(5, regSpace + off), (1, 0x40 + p)]]) ∧
      (∃ t, Runs (.lowWordRead (hostOf p) (regSpace + off) 4) s t [.bus, .out, .raised] [] ∧
        t.dev.out = s.dev.out ++ [.completion (hostOf p) .ca []] ∧
        t.dev.raised = s.dev.raised ++ [s.dev.event .secure 0x0310 [(5, regSpace + off), (1, 0x40 + p)]])) ∧
    (s.dev.regCheck (hostOf p) off = .unmapped →
      (∃ t, Runs (.registerWrite (hostOf p) (regSpace + off) 4 val) s t [.bus, .out, .hst] [] ∧ t.dev.out = s.dev.out ++ [.aer p .ur]) ∧
      (∃ t, Runs (.lowWordRead (hostOf p) (regSpace + off) 4) s t [.bus, .out] [] ∧
        t.dev.out = s.dev.out ++ [.completion (hostOf p) .ur []])) ∧
    (s.dev.regCheck (hostOf p) off = .meaningless ∨
        (s.dev.regCheck (hostOf p) off = .pass ∧ findReg off regTable = none) →
      (∃ t, Runs (.registerWrite (hostOf p) (regSpace + off) 4 val) s t [.bus] []) ∧
      (∃ t, Runs (.lowWordRead (hostOf p) (regSpace + off) 4) s t [.bus, .out] [] ∧
        t.dev.out = s.dev.out ++ [.completion (hostOf p) .ok (leBytes 4 0)]))) ∧
  (∀ (p : Fin 2) (off : Nat) (data : List Byte) (s : State), let a := s.dev.bar2Addr p off
    s.dev.hears (hostOf p) = true → s.dev.frontHeld = false ∨ (s.dev.pat.applied = false ∧ s.dev.sys.reset = none) →
    (s.dev.checkDram (s.dev.portSecure p) a data.length = .world → off + data.length ≤ 2 ^ 32 →
      (∃ t, Runs (.bar2Write p off data) s t [.out, .raised, .hst] [] ∧ t.dev.out = s.dev.out ++ [.aer p .ca] ∧
        t.dev.raised = s.dev.raised ++ [s.dev.event .secure 0x0310 [(5, a), (1, 10 + p)]]) ∧
      (∃ t, Runs (.bar2Read p off data.length) s t [.out, .raised] [] ∧
        t.dev.out = s.dev.out ++ [.completion (hostOf p) .ca []] ∧
        t.dev.raised = s.dev.raised ++ [s.dev.event .secure 0x0310 [(5, a), (1, 10 + p)]])) ∧
    (s.dev.checkDram (s.dev.portSecure p) a data.length = .unmapped ∨ 2 ^ 32 < off + data.length →
      (∃ t, Runs (.bar2Write p off data) s t [.out, .hst] [] ∧ t.dev.out = s.dev.out ++ [.aer p .ur]) ∧
      (∃ t, Runs (.bar2Read p off data.length) s t [.out] [] ∧ t.dev.out = s.dev.out ++ [.completion (hostOf p) .ur []]))) ∧
  (∀ (rq : Fin 20) (a : Nat) (bs : List Byte) (s : State), bs ≠ [] → s.dev.sys.reset = none →
    s.dev.checkDram (s.dev.reqSecure rq a) a bs.length = .world →
    ∃ t, Runs (.dramRmw rq a bs) s t [.out, .raised, .hst] [] ∧
      t.dev.raised = s.dev.raised ++ [s.dev.event .secure 0x0310 [(5, a), (1, rq)]]) ∧
  ∀ (off : Nat) (s : State), s.dev.regCheck .internal off ≠ .world

/-- A port's write of its aperture base sets BASE, bits 39 to 21 of the address at offset 0 (R26); an offset whose address
lies at or above the installed capacity, or beyond the 4 GiB of BAR2, answers as unmapped; a BAR2 read that passes R31 and
meets no uncorrectable granule answers the bytes at the base plus the offset; a BAR2 write under the same conditions leaves
its bytes there and every other byte of DRAM as it was; while the memory front grants nothing both wait in it with the
internal address that they have then (R27). No register changes but the base. A PCIe configuration write (R281, R282) sets the
port's power state, Bus Master Enable, Max_Payload_Size, a base address register, the MSI-X enable and mask or an MSI-X entry,
or clears the bits of the error status written 1, and leaves the other port alone; an entry that is pending is sent once
nothing masks it and the port may write (R283, R291), vector 0 beginning its MOD beats. Clauses rest on choices of the model
where the spec leaves the point open: log entry 4 (an unwritten byte reads 0), log entry 104 (D3hot stops requests alone), log
entry 108 (which port may write a register, and the world of a port before a Pattern), log entry 162 (configuration writes),
log entry 170 (the end of BAR2), log entry 179 (requests that wait in the memory front), log entry 195 (masking, pending bits
and the error status). -/
def Obligations.ApertureReachesDram : Prop :=
  (∀ (m : Master) (p : Fin 2) (val : Nat) (s : State), s.Inv → s.dev.Takes m R.HST_APBASE p → portOf m = some p →
    ∃ t, Runs (.hstApbaseWrite m p val) s t [.bus] [R.HST_APBASE.addr p] ∧
      t.dev.rd F.HST_APBASE_BASE p = val / 2 ^ 21 % 2 ^ 19) ∧
  (∀ (p : Fin 2) (off len : Nat) (s : State), s.dev.hears (hostOf p) = true → s.dev.frontHeld = false ∨ s.dev.pat.applied = false →
    0 < len → s.dev.capacity ≤ s.dev.rd F.HST_APBASE_BASE p * 2 ^ 21 + off ∨ 2 ^ 32 < off + len →
    ∃ t, Runs (.bar2Read p off len) s t [.out] [] ∧ t.dev.out = s.dev.out ++ [.completion (hostOf p) .ur []]) ∧
  (∀ (p : Fin 2) (off len : Nat) (s : State), let a := s.dev.rd F.HST_APBASE_BASE p * 2 ^ 21 + off
    s.dev.hears (hostOf p) = true → s.dev.frontHeld = false → off + len ≤ 2 ^ 32 →
    s.dev.checkDram (s.dev.portSecure p) a len = .pass → (∀ f ∈ s.dev.drm.fetched, f.rq ≠ 10 + p.val) →
    (∀ g ∈ granules a len, s.dev.granuleBad g = false) →
    ∃ t, Runs (.bar2Read p off len) s t [.out, .drm] [] ∧
      t.dev.out = s.dev.out ++ [.completion (hostOf p) .ok (s.dev.bytes a len)]) ∧
  (∀ (p : Fin 2) (off : Nat) (data : List Byte) (s : State), let a := s.dev.rd F.HST_APBASE_BASE p * 2 ^ 21 + off
    s.Inv → s.dev.hears (hostOf p) = true → s.dev.frontHeld = false → off + data.length ≤ 2 ^ 32 →
    s.dev.checkDram (s.dev.portSecure p) a data.length = .pass → s.dev.ue = [] →
    ∃ t, Runs (.bar2Write p off data) s t [.mem, .drm] [] ∧
      (∀ k (hk : k < data.length), t.dev.byte (a + k) = data[k]) ∧
      ∀ x, x < a ∨ a + data.length ≤ x → t.dev.byte x = s.dev.byte x) ∧
  (∀ (p : Fin 2) (off len : Nat) (data : List Byte) (s : State), s.dev.hears (hostOf p) = true → s.dev.pat.applied = true →
    s.dev.frontHeld = true →
    (off + len ≤ 2 ^ 32 → ∃ t, Runs (.bar2Read p off len) s t [.drm] [] ∧
      t.dev.drm = { s.dev.drm with held := s.dev.drm.held ++ [.read p (s.dev.bar2Addr p off) len] }) ∧
    (off + data.length ≤ 2 ^ 32 → ∃ t, Runs (.bar2Write p off data) s t [.drm] [] ∧
      t.dev.drm = { s.dev.drm with held := s.dev.drm.held ++ [.write p (s.dev.bar2Addr p off) data] })) ∧
  (∀ (p : Fin 2) (b c : Bool) (n : Nat) (k : Fin 3) (s : State), let h := s.dev.port p
    s.Inv →
    (∃ t, Runs (.pcieConfigWrite p (.power b)) s t [.hst] [] ∧
      t.dev.port p = { h with d3hot := b } ∧ t.dev.port (1 - p) = s.dev.port (1 - p)) ∧
    ((at' h.msix 0).pending = false → (at' h.msix 1).pending = false →
      ∃ t, Runs (.pcieConfigWrite p (.busMaster b)) s t [.hst] [] ∧
        t.dev.port p = { h with busMaster := b } ∧ t.dev.port (1 - p) = s.dev.port (1 - p)) ∧
    (128 ≤ n → ∃ t, Runs (.pcieConfigWrite p (.maxPayload n)) s t [.hst] [] ∧
      t.dev.port p = { h with maxPayload := n } ∧ t.dev.port (1 - p) = s.dev.port (1 - p)) ∧
    (∃ t, Runs (.pcieConfigWrite p (.bar k n)) s t [.hst] [] ∧
      t.dev.port p = { h with bars := h.bars.set k (n % 2 ^ (if k = 2 then 32 else 64)) } ∧ t.dev.port (1 - p) = s.dev.port (1 - p)) ∧
    (∃ t, Runs (.pcieConfigWrite p (.aerClear n)) s t [.hst] [] ∧
      (∀ i, (t.dev.port p).aerStatus.testBit i = (h.aerStatus.testBit i && !n.testBit i)) ∧
      t.dev.port (1 - p) = s.dev.port (1 - p)) ∧
    ((at' h.msix 0).pending = false → (at' h.msix 1).pending = false →
      ∃ t, Runs (.pcieConfigWrite p (.msixControl b c)) s t [.hst] [] ∧
        t.dev.port p = { h with msixOn := b, msixMask := c } ∧ t.dev.port (1 - p) = s.dev.port (1 - p))) ∧
  (∀ (p v : Fin 2) (addr data : Nat) (masked : Bool) (s : State), let h := s.dev.port p
    let sends := (at' h.msix v).pending && (h.msixOn && (h.busMaster && (!h.msixMask && !masked)))
    s.Inv → addr < 2 ^ 64 → data < 2 ^ 32 →
    ∃ t, Runs (.pcieConfigWrite p (.msixEntry v addr data masked)) s t [.hst, .out] [] ∧
      t.dev.port p = { h with
        msix := h.msix.set v ⟨addr, data, masked, (at' h.msix v).pending && !sends⟩,
        modUntil := if sends = true ∧ v = 0 then s.dev.tmb.beats + s.dev.rd F.HST_EVR_CFG_MOD p else h.modUntil } ∧
      t.dev.out = if sends then s.dev.out ++ [.msix p v addr data] else s.dev.out)

/-- A port reset with no copy under way empties the port's state but for the level of PERSTn, clears its aperture base and its
ring's registers (BASE, CFG with ENABLE, HEAD, TAIL, WAITING and LOST), counts RESETS, reads LINK_UP 0 and tells the other
port if the link was up; with a copy under way it also ends the copy, with ERR 4 unless a write to DRAM was refused, and
changes no byte of DRAM outside the copy's words; a port whose PERSTn stays low does not come up (R373); from cast-on step 3
on a link coming up sets SPEED, WIDTH and LINK_UP and tells the other port if it was down; a doorbell write by its own port
posts HOST_DOORBELL with the value to the other port. Clauses rest on choices of the model where the spec leaves the point
open: log entry 104 (D3hot stops requests alone), log entry 105 (what a port reset clears and keeps), log entry 106 (what GO
takes, and how much a copy cut short has written), log entry 108 (which port may write a register, and the world of a port
before a Pattern). -/
def Obligations.PortEvents : Prop :=
  (∀ (p : Fin 2) (perst : Bool) (s : State), s.Inv → s.dev.rd F.HST_SNAP_CTRL_BUSY p = 0 →
    ∃ t, Runs (.pciePortReset p perst) s t [.hst, .drm, .raised] [R.HST_APBASE.addr p, R.HST_EVR_BASE.addr p, R.HST_EVR_CFG.addr p,
        R.HST_EVR_HEAD.addr p, R.HST_EVR_TAIL.addr p, R.HST_EVR_STAT.addr p, R.HST_PORT_STAT.addr p] ∧
      t.dev.port p = { perst := (s.dev.port p).perst && !perst } ∧ t.dev.port (1 - p) = s.dev.port (1 - p) ∧
      t.dev.rd F.HST_APBASE_BASE p = 0 ∧ t.dev.reg R.HST_EVR_BASE p = 0 ∧ t.dev.reg R.HST_EVR_CFG p = R.HST_EVR_CFG.rst p ∧
      t.dev.rd F.HST_EVR_CFG_ENABLE p = 0 ∧ t.dev.rd F.HST_EVR_HEAD_HEAD p = 0 ∧ t.dev.rd F.HST_EVR_TAIL_TAIL p = 0 ∧
      t.dev.rd F.HST_EVR_STAT_WAITING p = 0 ∧ t.dev.rd F.HST_EVR_STAT_LOST p = 0 ∧ t.dev.rd F.HST_PORT_STAT_LINK_UP p = 0 ∧
      t.dev.rd F.HST_PORT_STAT_RESETS p = (s.dev.rd F.HST_PORT_STAT_RESETS p + 1) % 65536 ∧
      t.dev.raised = s.dev.raised ++ (if s.dev.rd F.HST_PORT_STAT_LINK_UP p = 1 then
        [s.dev.event (.port (1 - p)) 0x1303 [(1, p), (1, 0)]] else [])) ∧
  (∀ (p : Fin 2) (perst : Bool) (s : State), let j := (s.dev.port p).snap; let len := 8 * (s.dev.copyWords j).length
    s.Inv → s.dev.rd F.HST_SNAP_CTRL_BUSY p = 1 →
    ∃ t, Completes (.pciePortReset p perst) s t [.hst, .drm, .raised, .out, .mem, .ue, .freeCtr, .snapD, .tallies] ∧
      t.dev.port p = { perst := (s.dev.port p).perst && !perst } ∧ t.dev.rd F.HST_SNAP_CTRL_BUSY p = 0 ∧
      (t.dev.rd F.HST_SNAP_CTRL_ERR p = 4 ∨ (j.dram = true ∧ t.dev.rd F.HST_SNAP_CTRL_ERR p = 2)) ∧
      (j.running = false ∨ j.dram = false ∨
          (s.dev.checkDram (s.dev.portSecure p) (j.dest + 64) len = .pass ∧ s.dev.ue = []) →
        t.dev.rd F.HST_SNAP_CTRL_ERR p = 4) ∧
      t.dev.rd F.HST_PORT_STAT_LINK_UP p = 0 ∧
      ((∀ f ∈ s.dev.drm.fetched, f.rq ≠ 12 + p.val) →
        ∀ x, (j.running = false ∨ j.dram = false) ∨ (x < j.dest + 64 ∨ j.dest + 64 + len ≤ x) → t.dev.byte x = s.dev.byte x)) ∧
  (∀ (p : Fin 2) (speed width : Nat) (s : State), s.Inv →
    ∃ t, Runs (.pcieLinkUp p speed width false) s t [.hst] [] ∧ t.dev.port p = { s.dev.port p with perst := false } ∧
      t.dev.port (1 - p) = s.dev.port (1 - p)) ∧
  (∀ (p : Fin 2) (speed width : Nat) (s : State), s.Inv → s.dev.inReset = false → s.dev.stepPassed 2 = true →
    ∃ t, Runs (.pcieLinkUp p speed width true) s t [.hst, .raised] [R.HST_PORT_STAT.addr p] ∧
      t.dev.port p = { s.dev.port p with perst := true } ∧ t.dev.port (1 - p) = s.dev.port (1 - p) ∧
      t.dev.rd F.HST_PORT_STAT_LINK_UP p = 1 ∧ t.dev.rd F.HST_PORT_STAT_SPEED p = speed % 8 ∧
      t.dev.rd F.HST_PORT_STAT_WIDTH p = width % 16 ∧
      t.dev.rd F.HST_PORT_STAT_RESETS p = s.dev.rd F.HST_PORT_STAT_RESETS p ∧
      t.dev.raised = s.dev.raised ++ (if s.dev.rd F.HST_PORT_STAT_LINK_UP p = 0 then
        [s.dev.event (.port (1 - p)) 0x1303 [(1, p), (1, 1)]] else [])) ∧
  (∀ (m : Master) (p : Fin 2) (val : Nat) (s : State), s.dev.Takes m R.HST_DOORBELL p → portOf m = some p →
    ∃ t, Runs (.doorbellWrite m p val) s t [.bus, .raised] [] ∧
      t.dev.raised = s.dev.raised ++ [s.dev.event (.port (1 - p)) 0x1301 [(4, val), (1, p)]])

/-- Enabling a ring sets HEAD, TAIL and SEQ to 0 and PHASE to 1, takes BASE and the size and forgets no lost event; a posted
event addressed to one port is discarded if its ring is disabled, is written at HEAD at once if nothing waits and the ring has
space, else joins the queue with the next SEQ, and with 64 waiting is lost and counted; the oldest waiting event is written to
the ring at HEAD, and HEAD moves on, PHASE inverting at the wrap; TAIL takes the written value; at the end of MOD beats vector
0 is sent if entries were written, the next MOD beats beginning, or pends while masked; disabling discards and counts what
waits. Clauses rest on choices of the model where the spec leaves the point open: log entry 104 (D3hot stops requests alone),
log entry 108 (which port may write a register, and the world of a port before a Pattern), log entry 109 (what the end of
moderation clears, and what enabling keeps), log entry 195 (masking, pending bits and the error status). -/
def Obligations.EventRings : Prop :=
  (∀ (m : Master) (p : Fin 2) (val : Nat) (s : State), s.Inv → s.dev.Takes m R.HST_EVR_CFG p → portOf m = some p →
    s.dev.ringOn p = false → setsBit val 0 →
    ∃ t, Runs (.evrEnable m p val) s t [.bus, .hst] [R.HST_EVR_CFG.addr p, R.HST_EVR_HEAD.addr p, R.HST_EVR_TAIL.addr p] ∧
      t.dev.ringOn p = true ∧ t.dev.rd F.HST_EVR_HEAD_HEAD p = 0 ∧ t.dev.rd F.HST_EVR_HEAD_PHASE p = 1 ∧
      t.dev.rd F.HST_EVR_TAIL_TAIL p = 0 ∧ (t.dev.port p).seq = 0 ∧
      (t.dev.port p).base = s.dev.rd F.HST_EVR_BASE_BASE p * 4096 ∧
      (t.dev.port p).lost = (s.dev.port p).lost ∧
      (t.dev.port p).log = if val / 16 % 16 = 0 then 16 else max 6 (val / 16 % 16)) ∧
  (∀ (ev : Ev) (rest : List Ev) (p : Fin 2) (s : State), let h := s.dev.port p
    s.Inv → s.dev.raised = ev :: rest → ev.p0 = decide (p = 0) → ev.p1 = decide (p = 1) →
    (s.dev.ringOn p = false → ∃ t, Runs .eventPost s t [.raised] [] ∧ t.dev.raised = rest) ∧
    (s.dev.ringOn p = true → h.queue ≠ [] ∨ s.dev.canWrite p = false → h.queue.length < 64 →
      ∃ t, Runs .eventPost s t [.raised, .hst] [R.HST_EVR_STAT.addr p] ∧ t.dev.raised = rest ∧
        t.dev.port p = { h with queue := h.queue ++ [(h.seq, ev)], seq := (h.seq + 1) % 2 ^ 32 } ∧
        t.dev.port (1 - p) = s.dev.port (1 - p) ∧ t.dev.rd F.HST_EVR_STAT_WAITING p = h.queue.length + 1) ∧
    (s.dev.ringOn p = true → 64 ≤ h.queue.length →
      ∃ t, Runs .eventPost s t [.raised, .hst] [R.HST_EVR_STAT.addr p] ∧ t.dev.raised = rest ∧
        t.dev.port p = { h with lost := true, seq := (h.seq + 1) % 2 ^ 32 } ∧
        t.dev.rd F.HST_EVR_STAT_LOST p = min (s.dev.rd F.HST_EVR_STAT_LOST p + 1) 65535) ∧
    (s.dev.ringOn p = true → h.queue = [] → s.dev.canWrite p = true → h.log ≤ 16 → let head := s.dev.rd F.HST_EVR_HEAD_HEAD p
      ∃ t, Runs .eventPost s t [.raised, .hst, .out] [R.HST_EVR_HEAD.addr p] ∧ t.dev.raised = rest ∧
        (t.dev.port p).queue = [] ∧ (t.dev.port p).seq = (h.seq + 1) % 2 ^ 32 ∧ (t.dev.port p).lost = false ∧
        t.dev.out[s.dev.out.length]? = some (.pcieWrite p (h.base + head * 32)
          (entryBytes (s.dev.on F.HST_EVR_HEAD_PHASE p) h.lost h.seq ev)) ∧
        t.dev.rd F.HST_EVR_HEAD_HEAD p = (head + 1) % 2 ^ h.log)) ∧
  (∀ (p : Fin 2) (seq : Nat) (ev : Ev) (rest : List (Nat × Ev)) (s : State), s.Inv → (s.dev.port p).queue = (seq, ev) :: rest →
    s.dev.ringOn p = true → s.dev.canWrite p = true → (s.dev.port p).log ≤ 16 → let head := s.dev.rd F.HST_EVR_HEAD_HEAD p
    ∃ t, Runs (.eventRingWrite p) s t [.hst, .out] [R.HST_EVR_HEAD.addr p, R.HST_EVR_STAT.addr p] ∧
      (t.dev.port p).queue = rest ∧ (t.dev.port p).lost = false ∧
      t.dev.out[s.dev.out.length]? = some (.pcieWrite p ((s.dev.port p).base + head * 32)
        (entryBytes (s.dev.on F.HST_EVR_HEAD_PHASE p) (s.dev.port p).lost seq ev)) ∧
      t.dev.rd F.HST_EVR_HEAD_HEAD p = (head + 1) % 2 ^ (s.dev.port p).log ∧
      t.dev.on F.HST_EVR_HEAD_PHASE p = (s.dev.on F.HST_EVR_HEAD_PHASE p != decide ((head + 1) % 2 ^ (s.dev.port p).log = 0))) ∧
  (∀ (m : Master) (p : Fin 2) (val : Nat) (s : State), s.Inv → s.dev.Takes m R.HST_EVR_TAIL p → portOf m = some p →
    ∃ t, Runs (.evrTailWrite m p val) s t [.bus] [R.HST_EVR_TAIL.addr p] ∧ t.dev.rd F.HST_EVR_TAIL_TAIL p = val % 65536) ∧
  (∀ (p : Fin 2) (s : State), let h := s.dev.port p; let e := at' h.msix 0
    s.Inv → h.modDue = true → h.busMaster = true → h.msixOn = true →
    (h.msixMask = false → e.masked = false →
      ∃ t, Runs (.msixModerationEnd p) s t [.hst, .out] [] ∧ t.dev.out = s.dev.out ++ [.msix p 0 e.addr e.data] ∧
        t.dev.port p = { h with modDue := false, modUntil := s.dev.tmb.beats + s.dev.rd F.HST_EVR_CFG_MOD p }) ∧
    (h.msixMask = true ∨ e.masked = true →
      ∃ t, Runs (.msixModerationEnd p) s t [.hst] [] ∧
        t.dev.port p = { h with modDue := false, msix := h.msix.set 0 { e with pending := true } })) ∧
  (∀ (m : Master) (p : Fin 2) (val : Nat) (s : State), s.Inv → s.dev.Takes m R.HST_EVR_CFG p → portOf m = some p →
    s.dev.ringOn p = true → ¬ setsBit val 0 →
    ∃ t, Runs (.evrDisable m p val) s t [.bus, .hst] [R.HST_EVR_CFG.addr p, R.HST_EVR_STAT.addr p] ∧
      t.dev.ringOn p = false ∧ (t.dev.port p).queue = [] ∧ t.dev.rd F.HST_EVR_STAT_WAITING p = 0 ∧
      t.dev.rd F.HST_EVR_STAT_LOST p = min (s.dev.rd F.HST_EVR_STAT_LOST p + (s.dev.port p).queue.length) 65535)

/-- A write of REQ shows PENDING and requests the flip; GO while no copy is under way shows BUSY and takes SETS, NOZZLE and
the destination; at a later boundary the copy takes the epoch in force; a copy into host memory with Bus Master Enable, or
into writable DRAM, leaves its words 64 bytes above its header and ends with ERR 0 and SNAP_DMA_DONE; a copy that times out
ends with ERR 3 and SNAP_DMA_DONE, with ERR 2 if a write to DRAM was refused, and has written no byte of DRAM outside its
words. Clauses rest on choices of the model where the spec leaves the point open: log entry 104 (D3hot stops requests alone),
log entry 106 (what GO takes, and how much a copy cut short has written), log entry 108 (which port may write a register, and
the world of a port before a Pattern). -/
def Obligations.Snapshots : Prop :=
  (∀ (m : Master) (val : Nat) (s : State), s.Inv → s.dev.Takes m R.GL_SNAP_REQ 0 → setsBit val 0 →
    ∃ t, Runs (.snapReq m val) s t [.bus, .hst] [R.GL_SNAP_STAT.addr 0] ∧ t.dev.hst = { s.dev.hst with flip := true } ∧
      t.dev.rd F.GL_SNAP_STAT_PENDING = 1 ∧ t.dev.rd F.GL_SNAP_STAT_EPOCH = s.dev.rd F.GL_SNAP_STAT_EPOCH) ∧
  (∀ (m : Master) (p : Fin 2) (val : Nat) (s : State), s.Inv → s.dev.Takes m R.HST_SNAP_CTRL p → portOf m = some p →
    s.dev.rd F.HST_SNAP_CTRL_BUSY p = 0 → setsBit val 32 →
    ∃ t, Runs (.snapDmaGo m p val) s t [.bus, .hst] [R.HST_SNAP_CTRL.addr p] ∧ t.dev.rd F.HST_SNAP_CTRL_BUSY p = 1 ∧
      (t.dev.port p).snap = { armed := some s.dev.tmb.beats, dram := s.dev.on F.HST_SNAP_DEST_DRAM p,
                              dest := s.dev.rd F.HST_SNAP_DEST_ADDR p * 64, sets := val % 2 ^ 21, nozzle := val.testBit 31 }) ∧
  (∀ (p : Fin 2) (b : Nat) (s : State), s.Inv → (s.dev.port p).snap.armed = some b → b < s.dev.tmb.beats →
    ∃ t, Runs (.snapDmaStart p) s t [.hst] [] ∧ (t.dev.port p).snap.running = true ∧ (t.dev.port p).snap.armed = none ∧
      (t.dev.port p).snap.epoch = s.dev.rd F.GL_SNAP_STAT_EPOCH ∧ t.dev.port (1 - p) = s.dev.port (1 - p)) ∧
  (∀ (p : Fin 2) (s : State), let h := s.dev.port p; let j := h.snap; let ws := s.dev.copyWords j
    let bytes := ws.flatMap fun w => leBytes 8 w
    let header := s.dev.copyHeader j bytes ws.length
    s.Inv → j.running = true →
    (j.dram = false → h.busMaster = true →
      ∃ t, Runs (.snapDmaDone p) s t [.hst, .out, .raised] [R.HST_SNAP_CTRL.addr p] ∧ (t.dev.port p).snap = {} ∧
        t.dev.rd F.HST_SNAP_CTRL_BUSY p = 0 ∧ t.dev.rd F.HST_SNAP_CTRL_ERR p = 0 ∧
        t.dev.out = s.dev.out ++ pcieWrites p h.maxPayload (bytes.length + 1) (j.dest + 64) bytes ++
          pcieWrites p h.maxPayload (header.length + 1) j.dest header ∧
        t.dev.raised = s.dev.raised ++ [s.dev.event (.port p) 0x1302 [(3, j.epoch), (4, ws.length), (1, 0)]]) ∧
    (j.dram = true → s.dev.checkDram (s.dev.portSecure p) j.dest (64 + bytes.length) = .pass → s.dev.ue = [] →
      ∃ t, Runs (.snapDmaDone p) s t [.hst, .mem, .drm, .raised] [R.HST_SNAP_CTRL.addr p] ∧ (t.dev.port p).snap = {} ∧
        t.dev.rd F.HST_SNAP_CTRL_BUSY p = 0 ∧ t.dev.rd F.HST_SNAP_CTRL_ERR p = 0 ∧
        t.dev.bytes j.dest (64 + bytes.length) = header ++ bytes ∧
        (∀ x, x < j.dest ∨ j.dest + 64 + bytes.length ≤ x → t.dev.byte x = s.dev.byte x) ∧
        t.dev.raised = s.dev.raised ++ [s.dev.event (.port p) 0x1302 [(3, j.epoch), (4, ws.length), (1, 0)]])) ∧
  (∀ (p : Fin 2) (s : State), let j := (s.dev.port p).snap; let len := 8 * (s.dev.copyWords j).length
    s.Inv → j.running = true →
    ∃ t n err, Runs (.snapDmaTimeout p) s t [.hst, .out, .raised, .freeCtr, .mem, .ue, .drm, .snapD, .tallies]
        [R.HST_SNAP_CTRL.addr p, R.DM_UE_ADDR.addr 0, R.DM_UE_ADDR.addr 1, R.SYS_FAULT_STAT.addr 0] ∧
      (t.dev.port p).snap = {} ∧ t.dev.rd F.HST_SNAP_CTRL_BUSY p = 0 ∧ t.dev.rd F.HST_SNAP_CTRL_ERR p = err ∧
      t.dev.raised.getLast? = some (s.dev.event (.port p) 0x1302 [(3, j.epoch), (4, n), (1, err)]) ∧ n ≤ len / 8 ∧
      (err = 3 ∨ (j.dram = true ∧ err = 2)) ∧
      (j.dram = false ∨ (s.dev.checkDram (s.dev.portSecure p) (j.dest + 64) len = .pass ∧ s.dev.ue = []) → err = 3) ∧
      ((∀ f ∈ s.dev.drm.fetched, f.rq ≠ 12 + p.val) →
        ∀ x, j.dram = false ∨ (x < j.dest + 64 ∨ j.dest + 64 + len ≤ x) → t.dev.byte x = s.dev.byte x))

/-- On a port that is ON every frame not taken counts in DISCARD, one with a bad FCS in RX_FCS too; a link that changes shows
LINK and posts ETH_LINK, and one that goes down ends an upload under way with ERR 2; GO starts an upload of LEN bytes from SRC
unless one runs, and one of 0 bytes ends at once; with the link up the next datagram carries the next bytes, counts in TX_UP
and moves the job on, the last one ends it with ERR 0, and a read that is refused ends it with ERR 1. Clauses rest on choices
of the model where the spec leaves the point open: log entry 42 (the layouts of messages), log entry 104 (D3hot stops requests
alone), log entry 107 (when an upload sends, and the bytes that UPLOAD_DONE carries). -/
def Obligations.EthernetPorts : Prop :=
  (∀ (e : Fin 2) (badFcs : Bool) (s : State), s.dev.funcOn (.eth e) = true →
    ∃ t, Runs (.ethFrameDiscard e badFcs) s t [.snapD] [] ∧
      t.dev.delta F.ETH_COUNT_DISCARD e = s.dev.delta F.ETH_COUNT_DISCARD e + 1 ∧
      t.dev.delta F.ETH_COUNT_RX_FCS e = s.dev.delta F.ETH_COUNT_RX_FCS e + (if badFcs then 1 else 0)) ∧
  (∀ (e : Fin 2) (s : State), s.Inv →
    (s.dev.rd F.ETH_STAT_LINK e = 0 → (s.dev.func (.eth e)).st ≠ .off →
      ∃ t, Runs (.ethLink e true) s t [.raised] [R.ETH_STAT.addr e] ∧ t.dev.rd F.ETH_STAT_LINK e = 1 ∧
        t.dev.raised = s.dev.raised ++ [s.dev.event .secure 0x1402 [(1, e), (1, 1)]]) ∧
    (s.dev.rd F.ETH_STAT_LINK e = 1 → (s.dev.upload e).running = false →
      ∃ t, Runs (.ethLink e false) s t [.raised] [R.ETH_STAT.addr e] ∧ t.dev.rd F.ETH_STAT_LINK e = 0 ∧
        t.dev.raised = s.dev.raised ++ [s.dev.event .secure 0x1402 [(1, e), (1, 0)]]) ∧
    (s.dev.rd F.ETH_STAT_LINK e = 1 → (s.dev.upload e).running = true →
      ∃ t, Runs (.ethLink e false) s t [.raised, .hst] [R.ETH_STAT.addr e] ∧ t.dev.rd F.ETH_STAT_LINK e = 0 ∧
        t.dev.rd F.ETH_STAT_STATE e = 2 ∧ t.dev.rd F.ETH_STAT_ERR e = 2 ∧ (t.dev.upload e).running = false ∧
        t.dev.raised = s.dev.raised ++ [s.dev.event (toWriter (s.dev.upload e).host) 0x1401
          [(2, (s.dev.upload e).tag), (4, (s.dev.upload e).sent), (1, 2)], s.dev.event .secure 0x1402 [(1, e), (1, 0)]])) ∧
  (∀ (m : Master) (e : Fin 2) (val : Nat) (s : State), s.Inv → s.dev.Takes m R.ETH_UP_CTRL e → setsBit val 0 →
    ((s.dev.upload e).running = true →
      ∃ t, Runs (.uploadGo m e val) s t [.bus] [R.ETH_UP_CTRL.addr e] ∧ t.dev.upload e = s.dev.upload e) ∧
    ((s.dev.upload e).running = false → s.dev.rd F.ETH_UP_SRC_LEN e ≠ 0 →
      ∃ t, Runs (.uploadGo m e val) s t [.bus, .hst] [R.ETH_UP_CTRL.addr e, R.ETH_STAT.addr e] ∧
        t.dev.rd F.ETH_STAT_STATE e = 1 ∧
        t.dev.upload e = { running := true, host := portOf m, secure := s.dev.secureMaster m, src := s.dev.rd F.ETH_UP_SRC_SRC e,
                           len := s.dev.rd F.ETH_UP_SRC_LEN e, sent := 0, tag := val / 2 ^ 16 % 2 ^ 16 }) ∧
    ((s.dev.upload e).running = false → s.dev.rd F.ETH_UP_SRC_LEN e = 0 →
      ∃ t, Runs (.uploadGo m e val) s t [.bus, .hst, .raised] [R.ETH_UP_CTRL.addr e, R.ETH_STAT.addr e] ∧
        t.dev.rd F.ETH_STAT_STATE e = 2 ∧ t.dev.rd F.ETH_STAT_ERR e = 0 ∧
        t.dev.raised = s.dev.raised ++ [s.dev.event (toWriter (portOf m)) 0x1401 [(2, val / 2 ^ 16 % 2 ^ 16), (4, 0), (1, 0)]])) ∧
  (∀ (e : Fin 2) (s : State), let u := s.dev.upload e; let n := min 1456 (u.len - u.sent); let a := u.src + u.sent
    s.Inv → u.running = true → s.dev.frontHeld = false → s.dev.funcOn (.eth e) = true → s.dev.on F.ETH_STAT_LINK e = true →
    (∀ f ∈ s.dev.drm.fetched, f.rq ≠ 14 + e.val) →
    (u.sent + n < u.len → s.dev.checkDram u.secure a n = .pass → (∀ g ∈ granules a n, s.dev.granuleBad g = false) →
      ∃ t, Runs (.uploadDatagram e) s t [.hst, .out, .snapD, .freeCtr, .drm] [] ∧ t.dev.upload e = { u with sent := u.sent + n } ∧
        t.dev.delta F.ETH_COUNT_TX_UP e = s.dev.delta F.ETH_COUNT_TX_UP e + 1 ∧
        ∃ ident, t.dev.out = s.dev.out ++ [.datagram e (s.dev.datagram e u (s.dev.bytes a n) ident)]) ∧
    (u.len ≤ u.sent + n → s.dev.checkDram u.secure a n = .pass → (∀ g ∈ granules a n, s.dev.granuleBad g = false) →
      ∃ t, Runs (.uploadDatagram e) s t [.hst, .out, .snapD, .freeCtr, .drm, .raised] [R.ETH_STAT.addr e] ∧
        t.dev.upload e = { u with sent := u.sent + n, running := false } ∧ t.dev.rd F.ETH_STAT_STATE e = 2 ∧
        t.dev.rd F.ETH_STAT_ERR e = 0 ∧
        t.dev.raised = s.dev.raised ++ [s.dev.event (toWriter u.host) 0x1401 [(2, u.tag), (4, u.sent + n), (1, 0)]] ∧
        ∃ ident, t.dev.out = s.dev.out ++ [.datagram e (s.dev.datagram e u (s.dev.bytes a n) ident)]) ∧
    (0 < n → s.dev.capacity ≤ a →
      ∃ t, Runs (.uploadDatagram e) s t [.hst, .raised] [R.ETH_STAT.addr e] ∧ t.dev.upload e = { u with running := false } ∧
        t.dev.rd F.ETH_STAT_STATE e = 2 ∧ t.dev.rd F.ETH_STAT_ERR e = 1 ∧
        t.dev.raised = s.dev.raised ++ [s.dev.event (toWriter u.host) 0x1401 [(2, u.tag), (4, u.sent), (1, 1)]]))

/-- In cast-on step 5 an image from the source that is read which verifies is applied, with STATE LOADED (4) and ERR 0; one
that fails shows its ERR and SECTION, slot A going on to slot B and another source failing step 5, and an incomplete one from
slot A has ERR 1; GO from the mailbox's own port begins verification and 60 s without one fail step 5 with ERR 1; ABORT ends a
verification or the read of slot A with ERR 0x0C; a write to the staging area loads its bytes, or during a re-pattern sets
MBOX_BUSY, as do both GOs; the re-pattern GO holds pages, ABORT ends it with ERR 0x0C, an image that fails, or that does not
suit the state of the device, shows its ERR and posts PAT_REPATTERN_REFUSED, STATE reading LOADED (4) again, one that passes
waits for the boundary, and there it is applied and PAT_REPATTERNED posted, or refused with ERR 0x0B. Clauses rest on choices
of the model where the spec leaves the point open: log entry 15 (which section SECTION names), log entry 16 (an image of the
wrong KIND), log entry 104 (D3hot stops requests alone), log entry 144 (what verification takes for speeds and the budget, and
the values of STATE), log entry 145 (an image shorter than its IMAGE_LENGTH), log entry 146 (what a re-pattern clears and
stops), log entry 171 (a missing or misshapen section), log entry 172 (STATE after a re-pattern that failed), log entry 173 (a
GO before step 5), log entry 174 (an ABORT while flash is read), log entry 210 (whose GO counts), log entry 212 (a key whose
first byte is another). -/
def Obligations.PatternImages : Prop :=
  (∀ (src : ImageSource) (img : List (BitVec 8)) (s : State), let mbox := decide (2 < s.dev.rd F.PAT_STATUS_SOURCE)
    let len := s.dev.rd F.PAT_MBOX_LEN_LENGTH
    let image := if mbox then s.dev.stagedBytes (max 64 len) else img
    s.Inv → s.dev.loading = true → ImageSource.is src (s.dev.rd F.PAT_STATUS_SOURCE) = true → (mbox && s.dev.pat.verify.isNone) = false →
    (∀ x, 64 ≤ image.length → s.dev.verifyImage 0 image (if mbox then some len else none) = .ok x →
      ∃ u, Runs (.patternImageArrived src true img) s u [.pat] patternRegs ∧ u.dev.pat.applied = true ∧
        u.dev.pat.loaded = x.pattern ∧ u.dev.pat.verify = none ∧ u.dev.rd F.PAT_STATUS_STATE = 4 ∧ u.dev.rd F.PAT_STATUS_ERR = 0 ∧
        u.dev.rd F.PAT_STATUS_SECTION = 0 ∧ u.dev.rd F.PAT_ID_PATTERN_ID = x.pattern.id % 2 ^ 64) ∧
    (∀ err sec, 64 ≤ image.length → s.dev.verifyImage 0 image (if mbox then some len else none) = .error (err, sec) → err < 256 → sec < 64 →
      s.dev.rd F.PAT_STATUS_SOURCE = 1 →
      ∃ u, Runs (.patternImageArrived src true img) s u [.pat] [R.PAT_STATUS.addr 0] ∧ u.dev.pat.applied = false ∧
        u.dev.rd F.PAT_STATUS_ERR = err ∧ u.dev.rd F.PAT_STATUS_SECTION = sec ∧ u.dev.rd F.PAT_STATUS_SOURCE = 2 ∧
        u.dev.rd F.PAT_STATUS_STATE = 1) ∧
    (∀ err sec, 64 ≤ image.length → s.dev.verifyImage 0 image (if mbox then some len else none) = .error (err, sec) → err < 256 → sec < 64 →
      s.dev.rd F.PAT_STATUS_SOURCE ≠ 1 →
      ∃ u, Runs (.patternImageArrived src true img) s u [.pat, .sys, .vlt] (R.PAT_STATUS.addr 0 :: castLogRegs) ∧ u.dev.pat.applied = false ∧
        u.dev.rd F.PAT_STATUS_ERR = err ∧ u.dev.rd F.PAT_STATUS_SECTION = sec ∧ u.dev.rd F.PAT_STATUS_STATE = 5 ∧
        u.dev.sys.castOn = false ∧ u.dev.rd F.SYS_CASTON_STAT_CODE = 0x51) ∧
    (s.dev.rd F.PAT_STATUS_SOURCE = 1 →
      ∃ u, Runs (.patternImageArrived src false img) s u [.pat] [R.PAT_STATUS.addr 0] ∧ u.dev.rd F.PAT_STATUS_ERR = 1 ∧
        u.dev.rd F.PAT_STATUS_SOURCE = 2 ∧ u.dev.rd F.PAT_STATUS_STATE = 1)) ∧
  (∀ (m : Master) (p : Fin 2) (val : Nat) (s : State), s.Inv → s.dev.Takes m R.PAT_MBOX_CTRL 0 → portOf m = some p →
    (setsBit val 0 → ¬ setsBit val 1 → s.dev.awaitsGo = true → s.dev.rd F.PAT_STATUS_SOURCE = p + 3 →
      ∃ u, Runs (.mboxGo m val) s u [.bus, .pat] [R.PAT_STATUS.addr 0] ∧ u.dev.rd F.PAT_STATUS_STATE = 2 ∧
        u.dev.pat = { s.dev.pat with verify := some {} }) ∧
    (setsBit val 0 → ¬ setsBit val 1 → s.dev.repatterning = true →
      ∃ u, Runs (.mboxGo m val) s u [.bus] [R.PAT_STATUS.addr 0] ∧ u.dev.rd F.PAT_STATUS_MBOX_BUSY = 1) ∧
    (∀ v, setsBit val 1 → s.dev.pat.verify = some v → v.repattern = true → v.checked = false →
      ∃ u, Runs (.mboxAbort m val) s u [.bus, .pat, .cdc, .raised] [R.PAT_STATUS.addr 0] ∧ u.dev.pat.verify = none ∧
        u.dev.pat.hold = false ∧ u.dev.rd F.PAT_STATUS_ERR = 0x0C ∧ u.dev.rd F.PAT_STATUS_STATE = 4 ∧
        u.dev.raised = s.dev.raised ++ [s.dev.event (.secureAnd (if v.by0 then some 0 else if v.by1 then some 1 else none))
          0x0204 [(1, 0x0C)]]) ∧
    (∀ v, setsBit val 1 → s.dev.loading = true → s.dev.pat.verify = some v → v.repattern = false → v.checked = false →
      s.dev.rd F.PAT_STATUS_SOURCE ≠ 1 →
      ∃ u, Runs (.mboxAbort m val) s u [.bus, .pat, .sys, .vlt] (R.PAT_STATUS.addr 0 :: castLogRegs) ∧ u.dev.pat.verify = none ∧
        u.dev.rd F.PAT_STATUS_ERR = 0x0C ∧ u.dev.rd F.PAT_STATUS_STATE = 5 ∧ u.dev.sys.castOn = false) ∧
    (setsBit val 1 → s.dev.loading = true → s.dev.pat.verify = none → s.dev.rd F.PAT_STATUS_SOURCE = 1 →
      ∃ u, Runs (.mboxAbort m val) s u [.bus, .pat] [R.PAT_STATUS.addr 0] ∧ u.dev.rd F.PAT_STATUS_ERR = 0x0C ∧
        u.dev.rd F.PAT_STATUS_SOURCE = 2 ∧ u.dev.rd F.PAT_STATUS_STATE = 1)) ∧
  (∀ s : State, s.Inv → s.dev.awaitsGo = true →
    ∃ u, Runs .mboxTimeout s u [.pat, .sys, .vlt] (R.PAT_STATUS.addr 0 :: castLogRegs) ∧ u.dev.rd F.PAT_STATUS_ERR = 1 ∧
      u.dev.rd F.PAT_STATUS_STATE = 5 ∧ u.dev.sys.castOn = false ∧ u.dev.rd F.SYS_CASTON_STAT_CODE = 0x51) ∧
  (∀ (m : Master) (i : Fin 1048576) (val : Nat) (s : State), s.Inv → Memory.wf s.dev.pat.staging = true →
    s.dev.Takes m R.PAT_STAGING i →
    (s.dev.repatterning = false →
      ∃ u, Runs (.stagingWrite m (regSpace + R.PAT_STAGING.base + 4 * i) 4 val) s u [.bus, .pat] [] ∧
        ∀ k, mapGet u.dev.pat.staging k 0 = if 4 * i.val ≤ k ∧ k < 4 * i.val + 4 then BitVec.ofNat 8 (val / 2 ^ (8 * (k - 4 * i.val)))
          else mapGet s.dev.pat.staging k 0) ∧
    (s.dev.repatterning = true →
      ∃ u, Runs (.stagingWrite m (regSpace + R.PAT_STAGING.base + 4 * i) 4 val) s u [.bus] [R.PAT_STATUS.addr 0] ∧
        u.dev.rd F.PAT_STATUS_MBOX_BUSY = 1)) ∧
  (∀ (m : Master) (val : Nat) (s : State), s.Inv → s.dev.Takes m R.PAT_REPAT_CTRL 0 → setsBit val 0 →
    (s.dev.repatterning = false → s.dev.rd F.PAT_STATUS_STATE = 4 →
      ∃ u, Runs (.repatternGo m val) s u [.bus, .pat] [R.PAT_STATUS.addr 0] ∧ u.dev.rd F.PAT_STATUS_STATE = 2 ∧
        u.dev.pat = { s.dev.pat with hold := true, verify := some { repattern := true, by0 := decide (m = .p0), by1 := decide (m = .p1) } }) ∧
    (s.dev.repatterning = true →
      ∃ u, Runs (.repatternGo m val) s u [.bus] [R.PAT_STATUS.addr 0] ∧ u.dev.rd F.PAT_STATUS_MBOX_BUSY = 1)) ∧
  (∀ (v : Verify) (s : State), let img := s.dev.stagedBytes (max 64 (s.dev.rd F.PAT_MBOX_LEN_LENGTH))
    s.Inv → s.dev.pat.verify = some v → v.repattern = true → v.checked = false →
    (∀ err sec, s.dev.verifyImage 1 img (some (s.dev.rd F.PAT_MBOX_LEN_LENGTH)) = .error (err, sec) → err < 256 →
      ∃ u, Runs .repatternVerifyDone s u [.pat, .cdc, .raised] [R.PAT_STATUS.addr 0] ∧ u.dev.pat.verify = none ∧ u.dev.pat.hold = false ∧
        u.dev.rd F.PAT_STATUS_ERR = err ∧ u.dev.rd F.PAT_STATUS_STATE = 4 ∧ u.dev.pat.loaded = s.dev.pat.loaded ∧
        u.dev.raised = s.dev.raised ++ [s.dev.event (.secureAnd (if v.by0 then some 0 else if v.by1 then some 1 else none))
          0x0204 [(1, err)]]) ∧
    (∀ x, s.dev.verifyImage 1 img (some (s.dev.rd F.PAT_MBOX_LEN_LENGTH)) = .ok x →
      s.dev.repatternOk x.base x.inspect.isSome = true →
      ∃ u, Runs .repatternVerifyDone s u [.pat] [R.PAT_STATUS.addr 0] ∧ u.dev.rd F.PAT_STATUS_STATE = 3 ∧
        u.dev.pat.verify = some { v with checked := true, passed := true, gauge := x.gauge, inspect := x.inspect
                                         budget := x.pattern.budget, beat := s.dev.tmb.beats }) ∧
    (∀ x, s.dev.verifyImage 1 img (some (s.dev.rd F.PAT_MBOX_LEN_LENGTH)) = .ok x →
      s.dev.repatternOk x.base x.inspect.isSome = false →
      ∃ u, Runs .repatternVerifyDone s u [.pat, .cdc, .raised] [R.PAT_STATUS.addr 0] ∧ u.dev.pat.verify = none ∧
        u.dev.rd F.PAT_STATUS_ERR = 0x0B ∧ u.dev.rd F.PAT_STATUS_STATE = 4 ∧ u.dev.pat.loaded = s.dev.pat.loaded)) ∧
  (∀ (v : Verify) (s : State), let who : Dest := .secureAnd (if v.by0 then some 0 else if v.by1 then some 1 else none)
    s.Inv → s.dev.pat.verify = some v → v.passed = true → v.beat < s.dev.tmb.beats →
    (s.dev.repatternOk (s.dev.rd F.PAT_ID_PATTERN_ID) v.inspect.isSome = true → v.gauge = none → v.inspect = none →
      ∃ u, Runs .repatternApply s u [.pat, .cdc, .raised] [R.PAT_STATUS.addr 0] ∧ u.dev.pat.verify = none ∧ u.dev.pat.hold = false ∧
        u.dev.rd F.PAT_STATUS_STATE = 4 ∧ u.dev.rd F.PAT_STATUS_ERR = 0 ∧
        u.dev.pat.loaded = { s.dev.pat.loaded with budget := v.budget } ∧
        u.dev.raised = s.dev.raised ++ [s.dev.event who 0x0203 []]) ∧
    (s.dev.repatternOk (s.dev.rd F.PAT_ID_PATTERN_ID) v.inspect.isSome = true →
      ∃ u, Completes .repatternApply s u [.pat, .cdc, .sys, .web, .las, .pace, .hl, .ins, .nzh, .out, .raised] ∧ u.dev.pat.verify = none ∧
        u.dev.pat.hold = false ∧ u.dev.rd F.PAT_STATUS_STATE = 4 ∧ u.dev.rd F.PAT_STATUS_ERR = 0 ∧
        u.dev.pat.loaded.budget = v.budget ∧ u.dev.pat.loaded.gauge = v.gauge.getD s.dev.pat.loaded.gauge ∧
        u.dev.pat.loaded.inspect = v.inspect.getD s.dev.pat.loaded.inspect ∧
        s.dev.event who 0x0203 [] ∈ u.dev.raised) ∧
    (s.dev.repatternOk (s.dev.rd F.PAT_ID_PATTERN_ID) v.inspect.isSome = false →
      ∃ u, Runs .repatternApply s u [.pat, .cdc, .raised] [R.PAT_STATUS.addr 0] ∧ u.dev.pat.verify = none ∧
        u.dev.rd F.PAT_STATUS_ERR = 0x0B ∧ u.dev.rd F.PAT_STATUS_STATE = 4 ∧ u.dev.pat.loaded = s.dev.pat.loaded))

/-- RSTn low for 100 ns, a keyed SYS_RESET, an automatic reset and a scan instruction latch a reset of their kind and cause:
firing is inhibited, cast-on and bind-off end, ERR_OUTn is asserted, and nothing else changes but what the inhibit does and
the test port's instruction; a shorter pulse does nothing, BYPASS, IDCODE and SAMPLE/PRELOAD change the test port alone and
IDCODE shifts out 0xB7120B4D, and while a warm reset is under way a cold one takes it over and RSTn changes nothing;
self-refresh, silencing and logic reset follow in order; a power-on cause, and logic reset after the latch, leave every
register at its reset value but the few that keep or report something, and every function's state at its start, while
retention RAM stays, and the fuses unless programming was cut; PORn rising with a rail still out of range leaves the supply
monitors holding the reset (R376); at the release cast-on begins at step 1 with the sampled BOOTSEL and the fuse fields
loaded. Clauses rest on choices of the model where the spec leaves the point open: log entry 4 (an unwritten byte reads 0),
log entry 72 (the accepted level of the inhibit pin at a reset), log entry 148 (what survives a reset), log entry 149 (a short
PORn pulse, and a JTAG reset), log entry 150 (a power-on reset asserts logic reset at once), log entry 151 (when cast-on loads
and holds back what), log entry 158 (what is dropped at a reset), log entry 161 (what the test port shifts out). -/
def Obligations.Resets : Prop :=
  (∀ (ns : Nat) (s : State), s.Inv → s.dev.sys.reset = none → 100 ≤ ns →
    ∃ u, Runs (.rstnAssert ns) s u [.bus, .sys, .pace, .out, .cdc, .raised] [R.HL_INHIBIT_CTRL.addr 0, R.WT_PAGE.addr 0, R.SYS_FAULT_STAT.addr 0] ∧
      u.dev.sys.reset = some { kind := .warm, cause := 3, stage := 0 } ∧ u.dev.pace.inhibit = true ∧
      u.dev.rd F.HL_INHIBIT_CTRL_ACTIVE = 1 ∧ u.dev.sys.castOn = false ∧ u.dev.sys.bindOff = none ∧ u.dev.sys.errOut = true) ∧
  (∀ (ns : Nat) (s : State), ns < 100 → Ignored (.rstnAssert ns) s) ∧
  (∀ (m : Master) (val : Nat) (s : State), s.Inv → s.dev.sys.reset = none → s.dev.Takes m R.SYS_RESET 0 → bitsOf val 31 16 = 0x4B52 →
    (val % 4 = 1 →
    ∃ u, Runs (.sysResetWarm m val) s u [.bus, .sys, .pace, .out, .cdc, .raised] [R.HL_INHIBIT_CTRL.addr 0, R.WT_PAGE.addr 0, R.SYS_FAULT_STAT.addr 0] ∧
      u.dev.sys.reset = some { kind := .warm, cause := 4, stage := 0 } ∧ u.dev.pace.inhibit = true ∧
      u.dev.rd F.HL_INHIBIT_CTRL_ACTIVE = 1 ∧ u.dev.sys.castOn = false ∧ u.dev.sys.bindOff = none ∧ u.dev.sys.errOut = true) ∧
    (val % 4 = 2 →
    ∃ u, Runs (.sysResetCold m val) s u [.bus, .sys, .pace, .out, .cdc, .raised] [R.HL_INHIBIT_CTRL.addr 0, R.WT_PAGE.addr 0, R.SYS_FAULT_STAT.addr 0] ∧
      u.dev.sys.reset = some { kind := .cold, cause := 5, stage := 0 } ∧ u.dev.pace.inhibit = true ∧
      u.dev.rd F.HL_INHIBIT_CTRL_ACTIVE = 1 ∧ u.dev.sys.castOn = false ∧ u.dev.sys.bindOff = none ∧ u.dev.sys.errOut = true)) ∧
  (∀ s : State, s.Inv → s.dev.sys.reset = none →
    (s.dev.sys.autoReset = some .warm →
    ∃ u, Runs .autoReset s u [.bus, .sys, .pace, .out, .cdc, .raised] [R.HL_INHIBIT_CTRL.addr 0, R.WT_PAGE.addr 0, R.SYS_FAULT_STAT.addr 0] ∧
      u.dev.sys.reset = some { kind := .warm, cause := 6, stage := 0 } ∧ u.dev.pace.inhibit = true ∧
      u.dev.rd F.HL_INHIBIT_CTRL_ACTIVE = 1 ∧ u.dev.sys.castOn = false ∧ u.dev.sys.bindOff = none ∧ u.dev.sys.errOut = true) ∧
    (s.dev.sys.autoReset = some .cold →
    ∃ u, Runs .autoReset s u [.bus, .sys, .pace, .out, .cdc, .raised] [R.HL_INHIBIT_CTRL.addr 0, R.WT_PAGE.addr 0, R.SYS_FAULT_STAT.addr 0] ∧
      u.dev.sys.reset = some { kind := .cold, cause := 7, stage := 0 } ∧ u.dev.pace.inhibit = true ∧
      u.dev.rd F.HL_INHIBIT_CTRL_ACTIVE = 1 ∧ u.dev.sys.castOn = false ∧ u.dev.sys.bindOff = none ∧ u.dev.sys.errOut = true)) ∧
  (∀ (m : Master) (val ns : Nat) (r : ResetRun) (s : State), s.Inv → s.dev.sys.reset = some r → r.kind = .warm → r.stage < 3 →
    (s.dev.Takes m R.SYS_RESET 0 → bitsOf val 31 16 = 0x4B52 → val % 4 = 2 →
      ∃ u, Runs (.sysResetCold m val) s u [.bus, .sys] [] ∧ u.dev.sys = { s.dev.sys with reset := some { r with kind := .cold, cause := 5 } }) ∧
    (∃ u, Runs (.rstnAssert ns) s u [] [] ∧ u.dev.sys = s.dev.sys)) ∧
  (∀ (instr : TapInstr) (cells : List (Nat × Bool)) (s : State), s.Inv →
    (tapResets instr = true → s.dev.sys.reset = none →
      ∃ u cause, Runs (.jtagInstructionLoad false instr cells) s u [.sys, .pace, .out, .cdc, .raised, .freeCtr, .tap] [R.HL_INHIBIT_CTRL.addr 0, R.WT_PAGE.addr 0, R.SYS_FAULT_STAT.addr 0] ∧
        u.dev.sys.reset = some { kind := .cold, cause := cause, stage := 0, scan := true } ∧ u.dev.pace.inhibit = true ∧
        u.dev.sys.castOn = false ∧ u.dev.sys.errOut = true ∧ u.dev.tap.ir = instr) ∧
    (tapResets instr = false →
      ∃ u, Runs (.jtagInstructionLoad false instr cells) s u [.out, .tap] [] ∧ u.dev.tap.ir = instr ∧
        (instr = .idcode → u.dev.out = s.dev.out ++ [.tdo 32 0xB7120B4D]) ∧ (instr = .bypass → u.dev.out = s.dev.out ++ [.tdo 1 0]))) ∧
  (∀ (r : ResetRun) (s : State), s.Inv → s.dev.sys.reset = some r →
    (r.kind = .warm → r.stage = 0 →
      ∃ u, Runs .resetDramSelfRefresh s u [.sys] [R.DM_STAT.addr 0, R.DM_STAT.addr 1] ∧
        u.dev.sys.reset = some { r with stage := 1 } ∧ u.dev.rd F.DM_STAT_STATE 0 = 3 ∧ u.dev.rd F.DM_STAT_STATE 1 = 3) ∧
    (r.stage < 2 → ∃ u, Runs .resetFireSilence s u [.sys] [] ∧ u.dev.sys = { s.dev.sys with reset := some { r with stage := 2 } }) ∧
    (r.stage < 3 → r.cause < 8 →
      ∃ u, exec .resetLogicAssert s = .next u ∧ u.pending = s.pending ∧ u.dev.sys.reset = some { r with stage := 3 } ∧
        u.dev.inReset = true ∧ u.dev.rd F.SYS_RST_CAUSE_CAUSE = r.cause ∧ u.dev.vlt.ram = s.dev.vlt.ram ∧
        (s.dev.programming = false → u.dev.vlt.fuses = s.dev.vlt.fuses) ∧ (r.kind ≠ .warm → u.dev.mem = []) ∧
        (r.kind = .warm → (∀ p : Fin 2, s.dev.rd F.HST_SNAP_CTRL_BUSY p = 0) → u.dev.mem = s.dev.mem) ∧
        u.dev.pat = {} ∧ u.dev.tmb = {} ∧ u.dev.cdc = {} ∧ u.dev.las = {} ∧ u.dev.hst = {} ∧
        u.dev.hl = ({} : Dev).hl ∧ u.dev.ins = {} ∧ u.dev.nzh = {} ∧ u.dev.mot = {} ∧ u.dev.snapD = [] ∧ u.dev.raised = [] ∧ u.dev.sys.funcs = [] ∧
        ∀ a, a ∉ [R.SYS_RST_CAUSE.addr 0, R.HL_INHIBIT_CTRL.addr 0, R.SYS_SAVE_BASE.addr 0, R.DM_STAT.addr 0, R.DM_STAT.addr 1] →
          ∀ w, mapGet u.dev.regs a w = w)) ∧
  (∀ s : State, s.Inv → (∀ r, s.dev.sys.reset = some r → r.kind ≠ .power) → s.dev.programming = false →
    (∀ rails : List Rail, ∃ u r, exec (.powerOnReset .porn rails) s = .next u ∧ u.pending = s.pending ∧ u.dev.sys.reset = some r ∧ r.kind = .power ∧ r.cause = 2 ∧ r.stage = 3 ∧
        r.porn = true ∧ (rails ≠ [] → r.supply = true) ∧ u.dev.sys.railsOut = rails ∧ u.dev.rd F.SYS_RST_CAUSE_CAUSE = 2 ∧ u.dev.mem = [] ∧ u.dev.vlt.fuses = s.dev.vlt.fuses ∧ u.dev.vlt.ram = s.dev.vlt.ram ∧
        u.dev.pat = {} ∧ u.dev.tmb = {} ∧ u.dev.cdc = {} ∧ u.dev.las = {} ∧ u.dev.hst = {} ∧
        u.dev.hl = ({} : Dev).hl ∧ u.dev.ins = {} ∧ u.dev.nzh = {} ∧ u.dev.mot = {} ∧ u.dev.snapD = [] ∧ u.dev.raised = [] ∧ u.dev.sys.funcs = [] ∧
        ∀ a, a ∉ [R.SYS_RST_CAUSE.addr 0, R.HL_INHIBIT_CTRL.addr 0] → ∀ w, mapGet u.dev.regs a w = w) ∧
    (∀ rails : List Rail, ∃ u r, exec (.powerOnReset .supply rails) s = .next u ∧ u.pending = s.pending ∧ u.dev.sys.reset = some r ∧ r.kind = .power ∧ r.cause = 1 ∧ r.stage = 3 ∧
        r.supply = true ∧ u.dev.sys.railsOut = rails ∧
        u.dev.rd F.SYS_RST_CAUSE_CAUSE = 1 ∧ u.dev.mem = [] ∧ u.dev.vlt.fuses = s.dev.vlt.fuses ∧ u.dev.vlt.ram = s.dev.vlt.ram ∧
        u.dev.pat = {} ∧ u.dev.tmb = {} ∧ u.dev.cdc = {} ∧ u.dev.las = {} ∧ u.dev.hst = {} ∧
        u.dev.hl = ({} : Dev).hl ∧ u.dev.ins = {} ∧ u.dev.nzh = {} ∧ u.dev.mot = {} ∧ u.dev.snapD = [] ∧ u.dev.raised = [] ∧ u.dev.sys.funcs = [] ∧
        ∀ a, a ∉ [R.SYS_RST_CAUSE.addr 0, R.HL_INHIBIT_CTRL.addr 0] → ∀ w, mapGet u.dev.regs a w = w) ∧
    (∃ u r, exec .pllLockLoss s = .next u ∧ u.pending = s.pending ∧ u.dev.sys.reset = some r ∧ r.kind = .power ∧ r.cause = 1 ∧ r.stage = 3 ∧
        r.supply = true ∧
        u.dev.rd F.SYS_RST_CAUSE_CAUSE = 1 ∧ u.dev.mem = [] ∧ u.dev.vlt.fuses = s.dev.vlt.fuses ∧ u.dev.vlt.ram = s.dev.vlt.ram ∧
        u.dev.pat = {} ∧ u.dev.tmb = {} ∧ u.dev.cdc = {} ∧ u.dev.las = {} ∧ u.dev.hst = {} ∧
        u.dev.hl = ({} : Dev).hl ∧ u.dev.ins = {} ∧ u.dev.nzh = {} ∧ u.dev.mot = {} ∧ u.dev.snapD = [] ∧ u.dev.raised = [] ∧ u.dev.sys.funcs = [] ∧
        ∀ a, a ∉ [R.SYS_RST_CAUSE.addr 0, R.HL_INHIBIT_CTRL.addr 0] → ∀ w, mapGet u.dev.regs a w = w) ∧
    (∃ u r, exec (.jtagInstructionLoad true) s = .next u ∧ u.pending = s.pending ∧ u.dev.sys.reset = some r ∧ r.kind = .power ∧ r.cause = 2 ∧ r.stage = 3 ∧
        r.scan = true ∧ u.dev.rd F.SYS_RST_CAUSE_CAUSE = 2 ∧ u.dev.mem = [] ∧ u.dev.vlt.fuses = s.dev.vlt.fuses ∧ u.dev.vlt.ram = s.dev.vlt.ram ∧
        u.dev.pat = {} ∧ u.dev.tmb = {} ∧ u.dev.cdc = {} ∧ u.dev.las = {} ∧ u.dev.hst = {} ∧
        u.dev.hl = ({} : Dev).hl ∧ u.dev.ins = {} ∧ u.dev.nzh = {} ∧ u.dev.mot = {} ∧ u.dev.snapD = [] ∧ u.dev.raised = [] ∧ u.dev.sys.funcs = [] ∧
        ∀ a, a ∉ [R.SYS_RST_CAUSE.addr 0, R.HL_INHIBIT_CTRL.addr 0] → ∀ w, mapGet u.dev.regs a w = w)) ∧
  (∀ (boot : Fin 4) (ns : Nat) (r : ResetRun) (s : State), s.Inv → s.dev.sys.reset = some r → r.stage = 3 →
    (r.porn = false → r.scan = false →
      ∃ u, Runs (.resetRelease boot) s u [.sys, .pace, .vlt] fuseRegs ∧ u.dev.sys.reset = none ∧ u.dev.sys.railsOut = [] ∧ u.dev.sys.castOn = true ∧ u.dev.sys.bootsel = boot ∧
        u.dev.castStep = 1 ∧ u.dev.vlt = { s.dev.vlt with used := s.dev.vlt.fuses } ∧
        u.dev.pace.inhibit = s.dev.on F.HL_INHIBIT_CTRL_PIN ∧ u.dev.rd F.GL_SERIAL_SERIAL = s.dev.vlt.fuses.serial.value % 2 ^ 64) ∧
    (r.kind = .power → r.scan = false →
      ∃ u, Runs (.pornRelease ns boot) s u [.sys, .pace, .vlt] fuseRegs ∧ u.dev.sys.reset = none ∧ u.dev.sys.castOn = true ∧ u.dev.sys.bootsel = boot ∧
        u.dev.castStep = 1 ∧ u.dev.vlt = { s.dev.vlt with used := s.dev.vlt.fuses } ∧
        u.dev.pace.inhibit = s.dev.on F.HL_INHIBIT_CTRL_PIN ∧ u.dev.rd F.GL_SERIAL_SERIAL = s.dev.vlt.fuses.serial.value % 2 ^ 64) ∧
    (∀ rails : List Rail, rails ≠ [] → r.kind = .power →
      ∃ u, Runs (.pornRelease ns boot rails) s u [.sys] [] ∧
        u.dev.sys = { s.dev.sys with reset := some { r with porn := false, supply := true }, railsOut := rails }) ∧
    (r.scan = true → r.porn = false → r.supply = false →
      ∃ u, Runs (.jtagTestLogicReset boot) s u [.sys, .pace, .vlt, .tap] fuseRegs ∧ u.dev.sys.reset = none ∧ u.dev.tap.ir = .idcode ∧ u.dev.sys.castOn = true ∧ u.dev.sys.bootsel = boot ∧
        u.dev.castStep = 1 ∧ u.dev.vlt = { s.dev.vlt with used := s.dev.vlt.fuses } ∧
        u.dev.pace.inhibit = s.dev.on F.HL_INHIBIT_CTRL_PIN ∧ u.dev.rd F.GL_SERIAL_SERIAL = s.dev.vlt.fuses.serial.value % 2 ^ 64))

/-- A step whose condition holds starts the next one: memory stays in steps 1 to 5, is filled with zeros in step 7 but after a
warm reset, and takes only the held requests as step 9 begins; one of steps 1 to 5 or 8 that reaches its limit ends cast-on
with STATE STOPPED, or BIND_OFF if one is held, its CODE and LAST_STEP, but in step 5 a source whose reads do not complete
shows SOURCE_EMPTY, and slot A leads to slot B first (R390); a step under RETRY or SKIP with attempts left orders an automatic
warm reset with the directives as they were, and one under SKIP without any sets the step's SKIP directive and orders it; step
16 sets STATE DONE, or BIND_OFF if one is held, locks the RWL fields, releases ERR_OUTn and posts CAST_ON_DONE; CLEAR makes
the next cast-on clear the log. Clauses rest on choices of the model where the spec leaves the point open: log entry 13 (the
layout of the counter save area), log entry 14 (when a directive counts as in force), log entry 85 (the probe of step 14, and
DATA after a failed read), log entry 97 (how the DRAM group packs marks and repairs), log entry 103 (when the arbiter settings
load), log entry 138 (an enable that reads 0), log entry 141 (bind-off after a cast-on that has stopped), log entry 144 (what
verification takes for speeds and the budget, and the values of STATE), log entry 151 (when cast-on loads and holds back
what), log entry 152 (SINGLE_ENGINE and DISABLE_LINK), log entry 174 (an ABORT while flash is read), log entry 175 (the
attempt count of a skipped step), log entry 176 (when a cast-on is counted), log entry 177 (the checks of step 15), log entry
179 (requests that wait in the memory front). -/
def Obligations.CastOn : Prop :=
  (∀ (i : StepInfo) (s : State), let step := s.dev.castStep
    s.Inv → s.dev.sys.castOn = true → step = 1 ∧ s.dev.vlt.used.good = true ∧ i.sramBad = false ∨ step = 2 ∨ step = 3 ∨ step = 4 ∨
      step = 5 ∧ s.dev.pat.applied = true ∨ step = 7 ∨
      step = 8 ∧ s.dev.tableFault (s.dev.rd F.DM_STAT_SPEED) (s.dev.slotTable R.MF_SLOT_ACTIVE 0) (s.dev.slotTable R.MF_SLOT_ACTIVE 1) = 0 →
    ∃ u, Completes (.castOnStepDone i) s u [.sys, .vlt, .pat, .mem, .ue, .drm, .out, .raised, .hst, .freeCtr, .snapD, .tallies] ∧
      u.dev.castStep = step + 1 ∧ u.dev.sys.castOn = true ∧ (step ≤ 5 → u.dev.mem = s.dev.mem) ∧
      (step = 7 → u.dev.mem = if s.dev.sys.lastKind = .warm then s.dev.mem else []) ∧
      (step = 8 → (∀ h ∈ s.dev.drm.held, ∀ n, h ≠ .encode n) → s.dev.drm.fetched = [] → ∀ x,
        (∀ p a data, .write p a data ∈ s.dev.drm.held → x < a ∨ a + data.length ≤ x) → u.dev.byte x = s.dev.byte x)) ∧
  (∀ (i : StepInfo) (s : State), let step := s.dev.castStep
    s.Inv → s.dev.sys.castOn = true → s.dev.skipped (step + 1) = false →
      step = 6 ∧ (s.dev.trainDram (i.lanes.map fun l => (l.1.val, l.2.1.val, l.2.2.val))).1 = true ∨
      step = 9 ∧ (∀ en : Fin 2, s.dev.engineFails i en = false) ∨
      step = 10 ∧ (∃ e : Fin 2, s.dev.pat.loaded.time.ports.testBit e = true ∧ s.dev.rd F.ETH_STAT_LINK e = 1) ∨
      step = 11 ∧ s.dev.linksSettled = true ∧ s.dev.linksFailed = 0 ∨
      step = 12 ∧ s.dev.headsSettled = true ∧ s.dev.headsFailed = 0 ∨
      step = 13 ∧ s.dev.web.watch + 10000000 ≤ s.dev.now ∨
      step = 14 ∧ s.dev.camsFailed i = 0 ∨
      step = 15 ∧ (s.dev.checkAxes i).1.met = true →
    ∃ u, Completes (.castOnStepDone i) s u [.sys, .vlt, .raised, .tmb, .regsOpen, .web, .hl, .pace, .ins, .mot, .srv, .out, .snapD, .unauth, .freeCtr] ∧
      u.dev.castStep = step + 1 ∧ u.dev.sys.castOn = true) ∧
  (∀ (i : StepInfo) (s : State), let step := s.dev.castStep
    s.Inv → s.dev.sys.castOn = true →
    (1 ≤ step ∧ step ≤ 4 ∨ step = 5 ∧ s.dev.pat.applied = true ∨ step = 8 →
      ∃ u, Runs (.castOnStepLimit i) s u [.sys, .vlt] castLogRegs ∧ u.dev.sys.castOn = false ∧ u.dev.sys.autoReset = s.dev.sys.autoReset ∧
        u.dev.rd F.SYS_CASTON_STAT_STATE = (if s.dev.sys.bindOff.isSome then 3 else 2) ∧
        u.dev.rd F.SYS_CASTON_STAT_CODE = 16 * step + 1 ∧ u.dev.rd F.SYS_CASTON_STAT_LAST_STEP = step) ∧
    (step = 5 → s.dev.pat.applied = false → s.dev.rd F.PAT_STATUS_SOURCE = 1 →
      ∃ u, Runs (.castOnStepLimit i) s u [.pat] [R.PAT_STATUS.addr 0] ∧ u.dev.rd F.PAT_STATUS_SOURCE = 2 ∧ u.dev.rd F.PAT_STATUS_ERR = 1 ∧
        u.dev.rd F.PAT_STATUS_STATE = 1) ∧
    (step = 5 → s.dev.pat.applied = false → s.dev.rd F.PAT_STATUS_SOURCE ≠ 1 →
      ∃ u, Runs (.castOnStepLimit i) s u [.pat, .sys, .vlt] (R.PAT_STATUS.addr 0 :: castLogRegs) ∧ u.dev.sys.castOn = false ∧
        u.dev.rd F.PAT_STATUS_ERR = 1 ∧ u.dev.rd F.PAT_STATUS_STATE = 5 ∧
        u.dev.rd F.SYS_CASTON_STAT_STATE = (if s.dev.sys.bindOff.isSome then 3 else 2) ∧ u.dev.rd F.SYS_CASTON_STAT_CODE = 0x51 ∧
        u.dev.rd F.SYS_CASTON_STAT_LAST_STEP = 5) ∧
    (9 ≤ step → step ≤ 15 → s.dev.castAction step = .retry ∨ s.dev.castAction step = .skip →
      fieldOf (4 * step - 4) 4 s.dev.log.attempts + 1 < (at' s.dev.pat.loaded.policy (step - 1)).maxAttempts →
      fieldOf (4 * step - 4) 4 s.dev.log.attempts < 15 →
      ∃ u, Completes (.castOnStepLimit i) s u [.sys, .vlt, .ins, .mot, .srv, .out, .raised, .freeCtr] ∧ u.dev.sys.castOn = false ∧
        u.dev.sys.autoReset = some .warm ∧ u.dev.rd F.SYS_CASTON_STAT_CODE = 16 * step + 1 ∧
        u.dev.reg R.SYS_CLOG_DIR 0 = s.dev.log.dir % 2 ^ 64) ∧
    (s.dev.castAction step = .skip → step = 10 ∨ step = 14 ∨ step = 15 →
      (at' s.dev.pat.loaded.policy (step - 1)).maxAttempts ≤ min (fieldOf (4 * step - 4) 4 s.dev.log.attempts + 1) 15 →
      ∃ u, Completes (.castOnStepLimit i) s u [.sys, .vlt, .ins, .mot, .srv, .out, .freeCtr] ∧ u.dev.sys.castOn = false ∧ u.dev.sys.autoReset = some .warm ∧
        (u.dev.reg R.SYS_CLOG_DIR 0).testBit (43 + step) = true) ∧
    (step = 16 →
      (∃ u, exec (.castOnStepDone i) s = .next u ∧ u.pending = s.pending ∧ u.dev.sys.castOn = false ∧ u.dev.sys.done = true ∧
        u.dev.sys.locked = true ∧ u.dev.sys.errOut = false ∧
        u.dev.rd F.SYS_CASTON_STAT_STATE = (if s.dev.sys.bindOff.isSome then 3 else 1) ∧ s.dev.event .secure 0x0101 [] ∈ u.dev.raised) ∧
      (∃ u, exec (.castOnStepLimit i) s = .next u ∧ u.pending = s.pending ∧ u.dev.sys.castOn = false ∧ u.dev.sys.done = true ∧
        u.dev.sys.locked = true ∧ u.dev.sys.errOut = false ∧
        u.dev.rd F.SYS_CASTON_STAT_STATE = (if s.dev.sys.bindOff.isSome then 3 else 1) ∧ s.dev.event .secure 0x0101 [] ∈ u.dev.raised))) ∧
  (∀ (m : Master) (val : Nat) (s : State), s.dev.Takes m R.SYS_CLOG_CTRL 0 → setsBit val 0 →
    ∃ u, Runs (.clogClear m val) s u [.bus, .sys] [] ∧ u.dev.sys = { s.dev.sys with clearLog := true })

/-- A GO starts bind-off at step 1 with STATE BIND_OFF, or is held while cast-on runs or an automatic reset is due; its steps
follow one another, the capping move coming second unless NO_CAP or an early stop leaves it out, nothing of memory changes
outside the counter save area, DRAM goes into self-refresh, and the last step sets STATE and posts BIND_OFF_DONE; a capping
move that fails or takes too long posts its event; enabling an OFF function begins its start and disabling an ON one its stop,
a request against a transition is kept, and a function that the Pattern leaves out reads its enable as 0; the end of a
transition whose work is done makes the function ON or OFF, or begins the kept one, and one that takes too long is WEDGED with
FUNCTION_WEDGED posted, SV_REG reading 0 once nozzle health is (R347); no other function changes. Clauses rest on choices of
the model where the spec leaves the point open: log entry 6 (the numbers of functions within a block), log entry 13 (the
layout of the counter save area), log entry 47 (what bind-off and the vault saves store), log entry 119 (the order and the
ends of the capping move), log entry 137 (when start and stop work takes effect), log entry 138 (an enable that reads 0), log
entry 139 (what a WEDGED function does), log entry 141 (bind-off after a cast-on that has stopped), log entry 142 (the
bind-off steps), log entry 143 (the save area), log entry 177 (the checks of step 15). -/
def Obligations.BindOffAndFunctions : Prop :=
  (∀ (m : Master) (val : Nat) (s : State), s.Inv → s.dev.Takes m R.SYS_BINDOFF 0 → setsBit val 0 → s.dev.sys.bindOff = none →
    s.dev.sys.reset = none →
    (s.dev.sys.castOn = false → s.dev.sys.autoReset = none →
      ∃ u, Runs (.bindoffGo m val) s u [.bus, .sys] [R.SYS_CASTON_STAT.addr 0] ∧ u.dev.rd F.SYS_CASTON_STAT_STATE = 3 ∧
        u.dev.sys = { s.dev.sys with
          bindOff := some { running := true, step := 1, abortPage := val.testBit 1, noCap := val.testBit 2 } }) ∧
    (s.dev.sys.castOn = true ∨ s.dev.sys.autoReset ≠ none →
      ∃ u, Runs (.bindoffGo m val) s u [.bus, .sys] [] ∧
        u.dev.sys = { s.dev.sys with bindOff := some { abortPage := val.testBit 1, noCap := val.testBit 2 } })) ∧
  (∀ (b : BindOff) (s : State), s.Inv → s.dev.sys.bindOff = some b → b.running = true →
    (b.step = 1 → s.dev.pageRuns = false ∨ b.abortPage = true ∨ s.dev.pace.inhibit = true → b.noCap = true ∨ s.dev.stepPassed 15 = false →
      ∃ u, Completes .bindoffStepDone s u [.sys, .vlt, .hl, .mem, .ue, .drm, .raised, .freeCtr] ∧ u.dev.sys.bindOff = some { b with step := 3 } ∧
        (∀ x, x < s.dev.saveBase ∨ s.dev.saveBase + 2 ^ 20 ≤ x → u.dev.byte x = s.dev.byte x)) ∧
    (b.step = 1 → s.dev.pageRuns = false ∨ b.abortPage = true ∨ s.dev.pace.inhibit = true → b.noCap = false → s.dev.stepPassed 15 = true →
      ∃ u, Completes .bindoffStepDone s u [.sys, .mot, .raised, .snapD] ∧ u.dev.sys.bindOff = some { b with step := 2 }) ∧
    (b.step = 2 → s.dev.mot.cap = none →
      ∃ u, Completes .bindoffStepDone s u [.sys, .vlt, .hl, .mem, .ue, .drm, .raised, .freeCtr] ∧ u.dev.sys.bindOff = some { b with step := 3 } ∧
        (∀ x, x < s.dev.saveBase ∨ s.dev.saveBase + 2 ^ 20 ≤ x → u.dev.byte x = s.dev.byte x) ∧
        (s.dev.rd F.MOT_CAP_CTRL_RESULT ≠ 0 → s.dev.event .secure 0x0105 [] ∈ u.dev.raised)) ∧
    (b.step = 3 → ∃ u, Runs .bindoffStepDone s u [.sys] [] ∧ u.dev.sys = { s.dev.sys with bindOff := some { b with step := 4 } }) ∧
    (b.step = 4 →
      ∃ u, Runs .bindoffStepDone s u [.sys] [R.DM_STAT.addr 0, R.DM_STAT.addr 1] ∧
        u.dev.sys = { s.dev.sys with bindOff := some { b with step := 5 } } ∧
        ∀ ch : Fin 2, u.dev.rd F.DM_STAT_STATE ch = if s.dev.stepPassed 6 then 3 else s.dev.rd F.DM_STAT_STATE ch) ∧
    (b.step = 5 →
      ∃ u, Completes .bindoffStepDone s u [.sys, .hl, .pace, .out, .raised, .snapD, .unauth] ∧ u.dev.sys = { s.dev.sys with bindOff := some { b with step := 6 } } ∧
        u.dev.rd F.SYS_CASTON_STAT_STATE = 4 ∧ s.dev.event .secure 0x0104 [] ∈ u.dev.raised) ∧
    (b.step = 2 → s.dev.mot.cap ≠ none →
      ∃ u, Completes .bindoffCapTimeout s u [.sys, .vlt, .hl, .mem, .ue, .drm, .raised, .freeCtr] ∧ u.dev.sys.bindOff = some { b with step := 3 } ∧
        (∀ x, x < s.dev.saveBase ∨ s.dev.saveBase + 2 ^ 20 ≤ x → u.dev.byte x = s.dev.byte x) ∧
        s.dev.event .secure 0x0105 [] ∈ u.dev.raised)) ∧
  (∀ (m : Master) (f : Func) (s : State), let e := Func.enable f; let x := s.dev.func f
    s.Inv → s.dev.Takes m e.1.reg e.2 →
    (s.dev.permits f = true → x.st = .off →
      ∃ u, Runs (.functionEnableWrite m f true) s u [.bus, .sys, .srv] (funcRegs f) ∧ u.dev.func f = { st := .starting } ∧ u.dev.rd e.1 e.2 = 1 ∧
        ∀ g, g ≠ f → u.dev.func g = s.dev.func g) ∧
    (s.dev.permits f = true → x.st = .on →
      ∃ u, Completes (.functionEnableWrite m f false) s u [.bus, .sys, .tmb, .cdc, .hst, .ins, .nzh, .mot, .raised, .snapD, .freeCtr, .mem, .ue, .drm, .tallies] ∧
        u.dev.func f = { st := .stopping } ∧ u.dev.rd e.1 e.2 = 0 ∧ ∀ g, g ≠ f → u.dev.func g = s.dev.func g) ∧
    (s.dev.permits f = true → x.st = .stopping →
      ∃ u, Runs (.functionEnableWrite m f true) s u [.bus, .sys] (funcRegs f) ∧ u.dev.func f = { x with kept := some true } ∧
        ∀ g, g ≠ f → u.dev.func g = s.dev.func g) ∧
    (s.dev.permits f = true → x.st = .starting →
      ∃ u, Runs (.functionEnableWrite m f false) s u [.bus, .sys] (funcRegs f) ∧ u.dev.func f = { x with kept := some false } ∧
        ∀ g, g ≠ f → u.dev.func g = s.dev.func g) ∧
    (∀ en, s.dev.permits f = false →
      ∃ u, Runs (.functionEnableWrite m f en) s u [.bus] [e.1.reg.addr e.2] ∧ u.dev.rd e.1 e.2 = 0)) ∧
  (∀ (f : Func) (s : State), let x := s.dev.func f
    s.Inv → s.dev.transitionRuns f = false → s.dev.underCheck f = false →
    (x.st = .starting → x.kept ≠ some false →
      ∃ u, Completes (.functionTransitionDone f) s u [.sys, .web, .cdc, .ins, .nzh, .mot, .srv, .las] ∧ u.dev.func f = { st := .on } ∧
        ∀ g, g ≠ f → u.dev.func g = s.dev.func g) ∧
    (x.st = .stopping → x.kept ≠ some true →
      ∃ u, Completes (.functionTransitionDone f) s u [.sys, .ins, .srv, .out, .raised, .snapD] ∧ u.dev.func f = {} ∧
        ∀ g, g ≠ f → u.dev.func g = s.dev.func g) ∧
    (x.st = .starting → x.kept = some false →
      ∃ u, exec (.functionTransitionDone f) s = .next u ∧ u.pending = s.pending ∧ u.dev.func f = { st := .stopping } ∧
        ∀ g, g ≠ f → u.dev.func g = s.dev.func g) ∧
    (x.st = .stopping → x.kept = some true →
      ∃ u, exec (.functionTransitionDone f) s = .next u ∧ u.pending = s.pending ∧ u.dev.func f = { st := .starting } ∧
        ∀ g, g ≠ f → u.dev.func g = s.dev.func g)) ∧
  (∀ (f : Func) (s : State), let x := s.dev.func f
    s.Inv → x.st = .starting ∨ x.st = .stopping →
      ∃ u, Runs (.functionWedged f) s u [.sys, .srv, .mot, .out, .raised] (R.SV_REG.addr 0 :: funcRegs f) ∧
        u.dev.rd F.SV_REG_REG = (if f = Func.nzh then 0 else s.dev.rd F.SV_REG_REG) ∧ u.dev.func f = { st := .wedged } ∧
        (∀ g, g ≠ f → u.dev.func g = s.dev.func g) ∧
        u.dev.raised = s.dev.raised ++ [s.dev.event .secure 0x0106 [(1, Func.block f), (1, Func.index f)]])

/-- While the timebase runs and logic reset is not asserted, BEAT_BOUNDARY opens the beat numbered by its time over 4,000:
GL_BEAT shows that number, TB_NOW stands at the boundary or within one increment above it, the beat in progress opened at the
boundary, and one more beat has passed since reset; a requested snapshot flips the epoch, which PENDING and EPOCH show; the
junction reading shows in SYS_TEMP, and one of 108 degrees or above starts a power-on reset; neither the fuses nor the loaded
Pattern change. In it the lines that an engine has not handed over are abandoned, counted in OVERRUN and posted with
BEAT_OVERRUN (R172); every yield of the closing beat is posted with GUARANTEE_YIELDED and counted (R278); the history of each
nozzle takes the bit of the line that commits for its row and no other changes (R154); with both claims 0 PACE_LOST is set and
posted (R176); for every crossing of the closing beat the line of the winning claim, or the blank line, is selected for its
row, the engine it came from shows ACTIVE, and a blank line on a page posts LINE_BLANKED (R173); the slices of the crossings
predicted before are built, one for each connected engine (R142); new crossings are predicted within beat k + 4 (R104); the
release mark is the highest of itself and the lowest term of the rows and cameras (R140). With logic reset asserted or time
stopped nothing changes. Clauses rest on choices of the model where the spec leaves the point open: log entry 26 (when a
counted event is posted), log entry 35 (the boundary's time), log entry 66 (when a waiting line commits), log entry 68 (ACTIVE
where no row is selected, and mismatches), log entry 101 (what counts as moved, and who hears of a yield), log entry 153
(counts of the boundary itself and the epoch), log entry 155 (the clamp of SYS_TEMP), log entry 192 (the line before the
release mark), log entry 194 (the order of the events of one command). -/
def Obligations.BeatBoundary : Prop :=
  (∀ (tj : Int) (s : State), let b := s.dev.boundary
    s.Inv → s.dev.tmb.running = true → s.dev.inReset = false → s.dev.tmb.acc < b * 2 ^ 32 → b < 2 ^ 63 →
    incrMin ≤ s.dev.rd F.TB_INCR_INCR →
    (tj < 1728 →
      ∃ t, exec (.beatBoundary tj) s = .next t ∧ t.pending = s.pending ∧ t.dev.rd F.GL_BEAT_BEAT = b / 4000 ∧
        t.dev.tmb.openT = b ∧ t.dev.tmb.atOpen = true ∧ t.dev.tmb.beats = s.dev.tmb.beats + 1 ∧
        b * 2 ^ 32 ≤ t.dev.tmb.acc ∧ t.dev.tmb.acc < b * 2 ^ 32 + s.dev.rd F.TB_INCR_INCR ∧
        t.dev.rd F.GL_SNAP_STAT_PENDING = (if s.dev.hst.flip then 0 else s.dev.rd F.GL_SNAP_STAT_PENDING) ∧
        t.dev.rd F.GL_SNAP_STAT_EPOCH = (if s.dev.hst.flip then (s.dev.rd F.GL_SNAP_STAT_EPOCH + 1) % 2 ^ 24 else s.dev.rd F.GL_SNAP_STAT_EPOCH) ∧
        t.dev.hst.flip = false ∧ t.dev.rdS F.SYS_TEMP_TJ = max (-32768) tj ∧
        t.dev.vlt.fuses = s.dev.vlt.fuses ∧ t.dev.pat.loaded = s.dev.pat.loaded) ∧
    (tj < 1728 →
      let e := s.dev.flipEpoch (b / 4000); let w := s.dev.endWork (b / 4000); let o := s.dev.opening; let g := o.inhibitBoundary.paceLost
      let a := o.inhibitBoundary.arbitrate; let l := a.build; let p := l.predictCrossings b
      ∃ t, exec (.beatBoundary tj) s = .next t ∧
        (∀ en : Fin 2, ∀ x xs, (s.dev.las.slices.filter fun x => decide (x.en = en.val)) = x :: xs →
          s.dev.event .secure (0x0902 + 0x100 * en) [(4, xs.length + 1), (1, if x.segs.all fun g => g.done then 0 else 1)] ∈ t.dev.raised ∧
          t.dev.delta F.PE_COUNT_OVERRUN en = e.delta F.PE_COUNT_OVERRUN en + xs.length + 1) ∧
        (∀ ch : Fin 2, (t.dev.arb ch).yields = [] ∧
          t.dev.delta F.MF_COUNT_YIELDS ch = e.delta F.MF_COUNT_YIELDS ch + (e.arb ch).yields.length ∧
          ∀ y ∈ (e.arb ch).yields, e.event (e.yieldDest y.1) 0x0401 [(1, ownRank y.1), (1, y.1), (1, ch), (1, y.2),
            (4, creditOf (e.rd F.DM_STAT_SPEED ch) * mapGet (e.arb ch).owned y.1 0 - mapGet (e.arb ch).moved y.1 0)] ∈ t.dev.raised) ∧
        ((∀ x ∈ w.pace.tx, x.row < 2) →
          (∀ x ∈ w.pace.tx, (w.pace.tx.filter fun y => !y.committed && decide (y.head = x.head ∧ y.row = x.row)) = [x] → ∀ k : Fin 2048,
            mapGet t.dev.pace.hist (nozzleIdx x.head x.row k) 0 = (mapGet w.pace.hist (nozzleIdx x.head x.row k) 0 * 2 +
              (if x.dropped = true ∨ x.codes = [] ∨ at' x.codes k = 0 then 0 else 1)) % 16) ∧
          (∀ nz, (∀ x ∈ w.pace.tx, x.committed = true ∨ nz / 2048 ≠ 2 * x.head + x.row) →
            mapGet t.dev.pace.hist nz 0 = mapGet w.pace.hist nz 0)) ∧
        (o.claim 0 = 0 → o.claim 1 = 0 → t.dev.rd F.HL_INHIBIT_CTRL_PACE_LOST = 1 ∧
          (o.rd F.HL_INHIBIT_CTRL_PACE_LOST = 0 → o.event .secure 0x0B52 [] ∈ t.dev.raised)) ∧
        t.dev.pace.before = o.pace.handed ∧ t.dev.pace.handed = [] ∧
        (∀ c ∈ o.pace.crossings,
          (∃ x ∈ t.dev.pace.tx, x.head = c.head ∧ x.row = c.row ∧ x.line = c.line ∧ x.codes = ((g.pick c).map Line.codes).getD [] ∧
            x.q = ((g.pick c).map Line.q).getD c.q) ∧
          (∀ y, g.pick c = some y → y.en < 2 → t.dev.rd F.PE_STAT_ACTIVE y.en = 1) ∧
          (g.pick c = none → (g.pageOn c.line).isSome = true → ∃ x ∈ t.dev.raised, x.code = 0x0B51)) ∧
        t.dev.pace.crossings = a.toBuild ∧
        (t.dev.las.slices = a.toBuild.flatMap fun c =>
          ((List.range 2).filter a.connected).map fun en => (({ a with pace.crossings := a.toBuild } : Dev).mkSlice c en).1) ∧
        t.dev.web.pred = p.web.pred ∧ t.dev.web.rows = p.web.rows ∧
        (∀ c ∈ t.dev.web.pred, (b / 4000 + 4) * 16000 ≤ c.q ∧ c.q < (b / 4000 + 5) * 16000) ∧
        (∀ x xs, t.dev.web.rows.map t.dev.rowTerm ++ t.dev.camTerms = x :: xs →
          t.dev.rd F.LA_RELEASE_RM = ofSigned 48 (max s.dev.releaseMark (xs.foldl min x)))) ∧
    (1728 ≤ tj → s.dev.sys.reset = none →
      ∃ t, exec (.beatBoundary tj) s = .next t ∧ t.pending = s.pending ∧ t.dev.inReset = true ∧
        (t.dev.sys.reset.map ResetRun.kind) = some .power ∧ t.dev.rd F.SYS_RST_CAUSE_CAUSE = 1)) ∧
  (∀ (tj : Int) (s : State), s.dev.tmb.running = false ∨ s.dev.inReset = true → Ignored (.beatBoundary tj) s)

/-- TB_INCR lies between 3.998 ns and 4.002 ns, which is 0x3_FF7C_ED91 to 0x4_0083_126E: it is 4 ns after reset, and every
command that sets it keeps it there; in manual mode a write of TB_INCR, of all 64 bits or of the low 32, sets INCR to the
written value or to the nearer limit, and the servo's own values are clamped; outside manual mode a write is ignored. No other
register changes at a write. -/
def Obligations.IncrementRange : Prop :=
  (∀ (m : Master) (val : Nat) (s : State), s.Inv → s.dev.Takes m R.TB_INCR 0 → s.dev.rd F.TB_CTRL_MANUAL = 1 →
    (∃ t, Runs (.tbIncrWrite m 8 val) s t [.bus] [R.TB_INCR.addr 0] ∧
      t.dev.rd F.TB_INCR_INCR = max 17171279249 (min 17188459118 (val % 2 ^ 40))) ∧
    (∃ t, Runs (.tbIncrWrite m 4 val) s t [.bus] [R.TB_INCR.addr 0] ∧
      t.dev.rd F.TB_INCR_INCR = max 17171279249 (min 17188459118 (s.dev.rd F.TB_INCR_INCR / 2 ^ 32 * 2 ^ 32 + val % 2 ^ 32)))) ∧
  (∀ (m : Master) (bytes val : Nat) (s : State), s.dev.Takes m R.TB_INCR 0 → s.dev.rd F.TB_CTRL_MANUAL = 0 →
    ∃ t, Runs (.tbIncrWrite m bytes val) s t [.bus] []) ∧
  (∀ (d : Dev) (v : Nat), 17171279249 ≤ (d.setIncr v).rd F.TB_INCR_INCR ∧ (d.setIncr v).rd F.TB_INCR_INCR ≤ 17188459118) ∧
  State.reset.dev.rd F.TB_INCR_INCR = 0x400000000 ∧
  (∀ (c : Instr) (s t : State),
    (match c with
      | .tbIncrWrite _ _ _ | .tbManualWrite _ _ | .syncRx _ _ _ | .followUpRx _ _ _ | .announceRx _ _ _ | .announceTimeout | .syncTimeout
      | .timeStepApply => True
      | _ => False) →
    exec c s = .next t → 17171279249 ≤ s.dev.rd F.TB_INCR_INCR → s.dev.rd F.TB_INCR_INCR ≤ 17188459118 →
    17171279249 ≤ t.dev.rd F.TB_INCR_INCR ∧ t.dev.rd F.TB_INCR_INCR ≤ 17188459118)

/-- In manual mode a write of TB_STEP that R82 does not refuse sets the pending step, shows STEP_PENDING and posts
TIME_STEP_DEFERRED; one beyond JUMP_MAX in STEP_GUARD mode with RESYNC not armed is refused, counted and posted; setting
MANUAL from another state goes to FREE with the nominal increment, and clearing it goes to ACQUIRING where PTP runs; a write
of RESYNC in STEP_GUARD mode arms it and a second one disarms it; at the opening boundary of an idle beat the pending step
moves the accumulator and with it every time that the links, cameras, axes, arbiters and the inhibit keep (R81), counts in
STEPS, sets the beat number, disarms RESYNC and posts TIME_STEPPED with the old and the new time, occurrences put before the
new time being dropped, a servo's step setting the rate of its integrator; with the bar not idle the step is deferred, once
posted, a servo's sample being slewed. Clauses rest on choices of the model where the spec leaves the point open: log entry 31
(a servo's pending step), log entry 32 (rounding in the servo), log entry 34 (the end of a stepped beat), log entry 182
(TIME_STEP_DEFERRED at the write), log entry 199 (a correction that 48.16 cannot hold), log entry 201 (what a step moves), log
entry 205 (a refused step beside a pending one), log entry 206 (whole ns in the tracker). -/
def Obligations.TimeControl : Prop :=
  (∀ (m : Master) (bytes val : Nat) (s : State), let v := if bytes = 8 then val else s.dev.tmb.stepReg / 2 ^ 32 * 2 ^ 32 + val
    let move := toSigned 64 v * 2 ^ 16
    s.Inv → s.dev.Takes m R.TB_STEP 0 → s.dev.rd F.TB_CTRL_MANUAL = 1 → (bytes = 4 ∧ val < 2 ^ 32 ∨ bytes = 8 ∧ val < 2 ^ 64) →
    s.dev.tmb.stepReg < 2 ^ 64 →
    (s.dev.refuses move = false →
      ∃ t, Runs (.tbStepWrite m bytes val) s t [.bus, .tmb, .raised] [R.TB_STATE.addr 0] ∧ t.dev.rd F.TB_STATE_STEP_PENDING = 1 ∧
        t.dev.tmb = { s.dev.tmb with step := some (move, true), stepReg := v, deferred := true } ∧
        t.dev.raised = s.dev.raised ++ [s.dev.event .secure 0x0D04 []]) ∧
    (s.dev.refuses move = true →
      ∃ t, Runs (.tbStepWrite m bytes val) s t [.bus, .tmb, .raised] [R.TB_STATE.addr 0] ∧
        t.dev.tmb = { s.dev.tmb with stepReg := v } ∧
        t.dev.rd F.TB_STATE_REFUSED = min 65535 (s.dev.rd F.TB_STATE_REFUSED + 1) ∧
        t.dev.raised = s.dev.raised ++ [s.dev.event .secure 0x0D05 [(8, ofSigned 64 (-move))]])) ∧
  (∀ (m : Master) (val : Nat) (s : State), s.Inv → s.dev.Takes m R.TB_CTRL 0 →
    (val % 4 = 1 → s.dev.rd F.TB_STATE_STATE ≠ 0 →
      ∃ t, Runs (.tbManualWrite m val) s t [.bus, .tmb] [R.TB_CTRL.addr 0, R.TB_STATE.addr 0, R.TB_INCR.addr 0] ∧
        t.dev.rd F.TB_CTRL_MANUAL = 1 ∧ t.dev.rd F.TB_STATE_STATE = 0 ∧ t.dev.rd F.TB_INCR_INCR = 0x400000000) ∧
    (val % 4 = 0 → s.dev.rd F.TB_STATE_STATE = 0 → s.dev.tmb.ptp = true →
      ∃ t, Runs (.tbManualWrite m val) s t [.bus, .tmb] [R.TB_CTRL.addr 0, R.TB_STATE.addr 0] ∧
        t.dev.rd F.TB_CTRL_MANUAL = 0 ∧ t.dev.rd F.TB_STATE_STATE = 1)) ∧
  (∀ (m : Master) (val : Nat) (s : State), s.Inv → s.dev.Takes m R.TB_CTRL 0 → s.dev.rd F.TB_CTRL_MODE = 1 → val % 4 = 2 →
    s.dev.rd F.TB_STATE_STATE ≠ 0 →
    ∃ t, Runs (.tbResync m val) s t [.bus, .tmb] [R.TB_CTRL.addr 0, R.TB_STATE.addr 0] ∧
      t.dev.rd F.TB_CTRL_ARMED = 1 - s.dev.rd F.TB_CTRL_ARMED ∧ t.dev.rd F.TB_CTRL_MODE = 1 ∧
      t.dev.rd F.TB_STATE_STATE = s.dev.rd F.TB_STATE_STATE) ∧
  (∀ (move : Int) (host : Bool) (s : State), let acc := ((s.dev.tmb.acc : Int) + move * 2 ^ 16).toNat
    s.Inv → s.dev.tmb.step = some (move, host) → s.dev.tmb.atOpen = true →
    (s.dev.barIdle = true → 0 ≤ (s.dev.tmb.acc : Int) + move * 2 ^ 16 → acc < 2 ^ 96 →
      ∃ t, Runs .timeStepApply s t [.tmb, .web, .raised, .hl, .ins, .drm, .mot, .srv, .pace]
          ([R.GL_BEAT.addr 0, R.TB_STATE.addr 0, R.TB_CTRL.addr 0, R.WT_CMP_STAT.addr 0] ++ if host then [] else [R.TB_INCR.addr 0]) ∧
        t.dev.tmb.acc = acc ∧ t.dev.tmb.step = none ∧ t.dev.tmb.unaligned = true ∧
        t.dev.rd F.GL_BEAT_BEAT = acc / 2 ^ 32 / 4000 ∧ t.dev.rd F.TB_STATE_STEP_PENDING = 0 ∧
        t.dev.rd F.TB_STATE_STEPS = (s.dev.rd F.TB_STATE_STEPS + 1) % 256 ∧ t.dev.rd F.TB_CTRL_ARMED = 0 ∧
        (host = false → t.dev.rd F.TB_INCR_INCR = clampNat incrMin incrMax (incrOf s.dev.tmb.integ)) ∧
        (∀ p ∈ [Part.hl, .ins, .drm, .mot, .srv, .pace], p.same (s.dev.shiftTimes ((acc / 2 ^ 32 : Nat) - (s.dev.tmb.acc / 2 ^ 32 : Nat))) t.dev) ∧
        t.dev.web.occ = ((s.dev.web.shift ((acc / 2 ^ 32 : Nat) - (s.dev.tmb.acc / 2 ^ 32 : Nat))).occ.filter fun o => decide (acc / 2 ^ 32 ≤ o.t)) ∧
        (t.dev.raised.getLast?.map fun x => (x.code, x.payload)) = some (0x0D03, pack [(8, s.dev.tmb.acc / 2 ^ 32), (8, acc / 2 ^ 32)])) ∧
    (s.dev.barIdle = false → s.dev.tmb.deferred = false → host = true →
      ∃ t, Runs .timeStepApply s t [.tmb, .raised] [R.TB_STATE.addr 0] ∧ t.dev.tmb = { s.dev.tmb with deferred := true } ∧
        t.dev.rd F.TB_STATE_STEP_PENDING = 1 ∧ t.dev.raised = s.dev.raised ++ [s.dev.event .secure 0x0D04 []]) ∧
    (s.dev.barIdle = false → s.dev.tmb.deferred = false → host = false → s.dev.rd F.TB_STATE_STATE = 2 →
      ∃ t, Runs .timeStepApply s t [.tmb, .raised] [R.TB_STATE.addr 0, R.TB_INCR.addr 0] ∧ t.dev.tmb = { s.dev.tmb with deferred := true } ∧
        t.dev.rd F.TB_STATE_STEP_PENDING = 1 ∧ t.dev.rd F.TB_INCR_INCR = (if 0 < -move then 17171279249 else 17188459118) ∧
        t.dev.raised = s.dev.raised ++ [s.dev.event .secure 0x0D04 []]))

/-- On a port that runs PTP a message of the port's transport, domain and mechanism counts in RX_PTP. An Announce that R79 and
R84 admit makes the best of the masters heard the selected one, which TB_GM and TB_STATE show, a change in ACQUIRING or LOCKED
being HOLDOVER; one of 255 steps or more is ignored. A one-step Sync from the selected master, or a Follow_Up to its two-step
Sync, gives the offset t2 minus t1 minus the path delay, shown in TB_OFFSET; in ACQUIRING and LOCKED a sample below
STEP_THRESH that R82 does not refuse sets the rate and the integrator of R88; in HOLDOVER fewer than four leave the rate. A
Delay_Resp to the device's own Delay_Req sets the mean path delay; a Pdelay_Req is answered two-step; a Pdelay_Resp to the
device's own request sets the peer delay, at once or by its follow-up; another message, or one of the wrong mechanism, is
discarded and counted. Clauses rest on choices of the model where the spec leaves the point open: log entry 28 (a message of
another domain), log entry 29 (a lost master leaves the list at once), log entry 30 (samples in HOLDOVER), log entry 32
(rounding in the servo), log entry 185 (the comparison of masters). -/
def Obligations.PtpMessages : Prop :=
  (∀ (e : Fin 2) (f : PtpForm) (msg : Announce) (s : State),
    let heard := (⟨e, msg, s.dev.tmb.beats⟩ : Foreign) :: s.dev.tmb.heard.filter fun g => !sameMaster g ⟨e, msg, s.dev.tmb.beats⟩
    let new := bestOf ({ s.dev with tmb.heard := heard } : Dev).candidates
    s.Inv → s.dev.Receives e f →
    (tooLate msg.originSec = false → msg.stepsRemoved < 255 →
      ∃ t, Runs (.announceRx e f msg) s t [.snapD, .tmb, .raised] [R.TB_GM.addr 0, R.TB_STATE.addr 0, R.TB_INCR.addr 0] ∧
        t.dev.tmb.selected = new ∧ t.dev.delta F.ETH_COUNT_RX_PTP e = s.dev.delta F.ETH_COUNT_RX_PTP e + 1 ∧
        (s.dev.tmb.selected = none → ∀ g, new = some g →
          t.dev.rd F.TB_GM_IDENTITY = g.msg.src.clock.toNat ∧ t.dev.rd F.TB_STATE_PORT = g.port ∧
          t.dev.rd F.TB_STATE_STATE = s.dev.rd F.TB_STATE_STATE) ∧
        (∀ g h, s.dev.tmb.selected = some g → new = some h → sameMaster g h = false →
          t.dev.rd F.TB_GM_IDENTITY = h.msg.src.clock.toNat ∧ t.dev.rd F.TB_STATE_PORT = h.port ∧
          t.dev.rd F.TB_STATE_STATE = (if s.dev.rd F.TB_STATE_STATE = 1 ∨ s.dev.rd F.TB_STATE_STATE = 2 then 3 else s.dev.rd F.TB_STATE_STATE))) ∧
    (255 ≤ msg.stepsRemoved →
      ∃ t, Runs (.announceRx e f msg) s t [.snapD] [] ∧ t.dev.delta F.ETH_COUNT_RX_PTP e = s.dev.delta F.ETH_COUNT_RX_PTP e + 1)) ∧
  (∀ (e : Fin 2) (f : PtpForm) (msg : SyncMsg) (s : State),
    let o := s.dev.rxStamp e f.capture - (((msg.originSec : Int) * 1000000000 + msg.originNs) * 2 ^ 16 + msg.corr) - (s.dev.ptpPort e).delay
    let terms := servoTerms (s.dev.rd F.TB_SERVO_KP) (s.dev.rd F.TB_SERVO_KI) s.dev.tmb.integ o msg.logInterval
    s.Inv → s.dev.Receives e f → tooLate msg.originSec = false → s.dev.fromMaster e msg.src = true →
    (msg.twoStep = false → s.dev.rd F.TB_STATE_STATE = 0 →
      ∃ t, Runs (.syncRx e f msg) s t [.snapD, .tmb] [R.TB_OFFSET.addr 0] ∧ t.dev.tmb.synced = true ∧
        t.dev.rd F.TB_OFFSET_OFFSET = ofSigned 64 o) ∧
    (msg.twoStep = false → s.dev.rd F.TB_STATE_STATE = 1 ∨ s.dev.rd F.TB_STATE_STATE = 2 → s.dev.refuses o = false →
      (o.natAbs : Int) < (s.dev.rd F.TB_LIMITS_STEP_THRESH : Int) * 2 ^ 16 →
      ∃ t, Runs (.syncRx e f msg) s t [.snapD, .tmb, .vlt, .raised] [R.TB_OFFSET.addr 0, R.TB_STATE.addr 0, R.TB_INCR.addr 0, R.TB_FREQ.addr 0] ∧
        t.dev.rd F.TB_OFFSET_OFFSET = ofSigned 64 o ∧ t.dev.tmb.integ = terms.2 ∧
        t.dev.rd F.TB_INCR_INCR = clampNat incrMin incrMax (incrOf terms.1)) ∧
    (msg.twoStep = false → s.dev.rd F.TB_STATE_STATE = 3 →
      ∃ t, Runs (.syncRx e f msg) s t [.snapD, .tmb] [R.TB_OFFSET.addr 0, R.TB_STATE.addr 0] ∧ t.dev.rd F.TB_OFFSET_OFFSET = ofSigned 64 o ∧
        t.dev.rd F.TB_STATE_STATE = if 4 ≤ s.dev.tmb.hold + 1 then 1 else 3) ∧
    (msg.twoStep = true →
      ∃ t, Runs (.syncRx e f msg) s t [.snapD, .tmb] [] ∧
        (t.dev.ptpPort e).sync = some (msg, (s.dev.rxStamp e f.capture).toNat))) ∧
  (∀ (e : Fin 2) (f : PtpForm) (msg : FollowUp) (sm : SyncMsg) (t2 : Nat) (s : State), s.Inv → s.dev.Receives e f →
    tooLate msg.originSec = false → s.dev.fromMaster e msg.src = true → (s.dev.ptpPort e).sync = some (sm, t2) → sm.seq = msg.seq →
    ∃ t, Runs (.followUpRx e f msg) s t [.snapD, .tmb, .vlt, .raised] [R.TB_OFFSET.addr 0, R.TB_STATE.addr 0, R.TB_INCR.addr 0, R.TB_FREQ.addr 0] ∧
      t.dev.tmb.synced = true ∧ (t.dev.ptpPort e).sync = none ∧
      t.dev.rd F.TB_OFFSET_OFFSET = ofSigned 64 ((t2 : Int) -
        (((msg.originSec : Int) * 1000000000 + msg.originNs) * 2 ^ 16 + msg.corr + sm.corr) - (s.dev.ptpPort e).delay)) ∧
  (∀ (e : Fin 2) (f : PtpForm) (msg : DelayResp) (t3 : Nat) (s : State), let p := s.dev.ptpPort e
    s.Inv → s.dev.Receives e f → s.dev.p2p e = false → msg.mine = true → s.dev.fromMaster e msg.src = true →
    p.delayReq = some (msg.seq.toNat, t3) →
    ∃ t, Runs (.delayRespRx e f msg) s t [.snapD, .tmb] [R.TB_PATH.addr 0] ∧ (t.dev.ptpPort e).delayReq = none ∧
      (t.dev.ptpPort e).delayLog = msg.logInterval ∧
      (t.dev.ptpPort e).delay =
        ((p.t2 - p.t1) + (((msg.rxSec : Int) * 1000000000 + msg.rxNs) * 2 ^ 16 - t3 - msg.corr)) / 2) ∧
  (∀ (e : Fin 2) (f : PtpForm) (msg : PdelayReq) (s : State), s.dev.Receives e f → s.dev.p2p e = true →
    s.dev.udp e = false ∨ s.dev.rd F.TB_PORT_IP_ADDR e ≠ 0 →
    ∃ t, Runs (.pdelayReqRx e f msg) s t [.snapD, .out] [] ∧
      t.dev.out = s.dev.out ++ [.ptp e (s.dev.rd F.ETH_MAC_MAC e) (s.dev.ptpNet e 3) 3 msg.seq.toNat (s.dev.rxStamp e f.capture).toNat 0,
        .ptp e (s.dev.rd F.ETH_MAC_MAC e) (s.dev.ptpNet e 10) 10 msg.seq.toNat (s.dev.txStamp e msg.answer).toNat (ofSigned 64 msg.corr)]) ∧
  (∀ (e : Fin 2) (f : PtpForm) (msg : PdelayResp) (t1 : Nat) (s : State), let t4 := s.dev.rxStamp e f.capture
    s.Inv → s.dev.Receives e f → s.dev.p2p e = true → msg.mine = true → (s.dev.ptpPort e).pdelayReq = some (msg.seq.toNat, t1) →
    (msg.followUp = false → msg.twoStep = false →
      ∃ t, Runs (.pdelayRespRx e f msg) s t [.snapD, .tmb] [R.TB_PATH.addr 0] ∧ (t.dev.ptpPort e).pdelayReq = none ∧
        (t.dev.ptpPort e).delay = (t4 - t1 - msg.corr) / 2) ∧
    (msg.followUp = false → msg.twoStep = true →
      ∃ t, Runs (.pdelayRespRx e f msg) s t [.snapD, .tmb] [] ∧
        (t.dev.ptpPort e).pdelayResp = some (t4.toNat, ((msg.sec : Int) * 1000000000 + msg.ns) * 2 ^ 16, msg.corr)) ∧
    (∀ r : Nat × Int × Int, msg.followUp = true → (s.dev.ptpPort e).pdelayResp = some r →
      ∃ t, Runs (.pdelayRespRx e f msg) s t [.snapD, .tmb] [R.TB_PATH.addr 0] ∧ (t.dev.ptpPort e).pdelayReq = none ∧
        (t.dev.ptpPort e).delay =
          ((r.1 : Int) - t1 - (((msg.sec : Int) * 1000000000 + msg.ns) * 2 ^ 16 - r.2.1) - r.2.2 - msg.corr) / 2)) ∧
  (∀ (e : Fin 2) (f : PtpForm) (q : PdelayReq) (r : DelayResp) (s : State), s.dev.funcOn (.eth e) = true →
    (∃ t, Runs (.ptpOtherRx e) s t [.snapD] [] ∧ t.dev.delta F.ETH_COUNT_DISCARD e = s.dev.delta F.ETH_COUNT_DISCARD e + 1) ∧
    (s.dev.p2p e = false →
      ∃ t, Runs (.pdelayReqRx e f q) s t [.snapD] [] ∧ t.dev.delta F.ETH_COUNT_DISCARD e = s.dev.delta F.ETH_COUNT_DISCARD e + 1) ∧
    (s.dev.p2p e = true →
      ∃ t, Runs (.delayRespRx e f r) s t [.snapD] [] ∧ t.dev.delta F.ETH_COUNT_DISCARD e = s.dev.delta F.ETH_COUNT_DISCARD e + 1))

/-- On the selected master's port in E2E the device sends Delay_Req, and in P2P Pdelay_Req, from the port's MAC address by its
transport, with the next sequence number and its transmit stamp; an Announce timeout, or a Sync timeout once a Sync has come,
drops the selected master, the best of the others heard taking its place, and in ACQUIRING or LOCKED the state becomes
HOLDOVER at the rate of the integrator with TIME_HOLDOVER posted. Clauses rest on choices of the model where the spec leaves
the point open: log entry 29 (a lost master leaves the list at once), log entry 185 (the comparison of masters). -/
def Obligations.PtpTimers : Prop :=
  (∀ (e : Fin 2) (capture : Nat) (s : State), let seq := (s.dev.ptpPort e).seqD
    s.Inv → s.dev.ptpSends e = true → s.dev.p2p e = false → (s.dev.tmb.selected.map Foreign.port) = some e →
    ∃ t, Runs (.delayReqTx e capture) s t [.tmb, .out] [] ∧
      t.dev.out = s.dev.out ++ [.ptp e (s.dev.rd F.ETH_MAC_MAC e) (s.dev.ptpNet e 1) 1 seq (s.dev.txStamp e capture).toNat 0] ∧
      (t.dev.ptpPort e).delayReq = some (seq, (s.dev.txStamp e capture).toNat) ∧ (t.dev.ptpPort e).seqD = (seq + 1) % 65536) ∧
  (∀ (e : Fin 2) (capture : Nat) (s : State), let seq := (s.dev.ptpPort e).seqP
    s.Inv → s.dev.ptpSends e = true → s.dev.p2p e = true →
    ∃ t, Runs (.pdelayReqTx e capture) s t [.tmb, .out] [] ∧
      t.dev.out = s.dev.out ++ [.ptp e (s.dev.rd F.ETH_MAC_MAC e) (s.dev.ptpNet e 2) 2 seq (s.dev.txStamp e capture).toNat 0] ∧
      (t.dev.ptpPort e).pdelayReq = some (seq, (s.dev.txStamp e capture).toNat) ∧ (t.dev.ptpPort e).seqP = (seq + 1) % 65536) ∧
  (∀ (g : Foreign) (s : State), let new := bestOf ({ s.dev with tmb.heard := s.dev.tmb.heard.filter fun f => !sameMaster f g } : Dev).candidates
    s.Inv → s.dev.tmb.selected = some g →
    (∃ t, Runs .announceTimeout s t [.tmb, .raised] [R.TB_GM.addr 0, R.TB_STATE.addr 0, R.TB_INCR.addr 0] ∧ t.dev.tmb.selected = new ∧
      t.dev.tmb.synced = false ∧ t.dev.rd F.TB_GM_IDENTITY = (match new with | some f => f.msg.src.clock.toNat | none => 0) ∧
      (s.dev.rd F.TB_STATE_STATE = 1 ∨ s.dev.rd F.TB_STATE_STATE = 2 →
        t.dev.rd F.TB_STATE_STATE = 3 ∧ t.dev.rd F.TB_INCR_INCR = clampNat incrMin incrMax (incrOf s.dev.tmb.integ) ∧
        s.dev.event .secure 0x0D02 [] ∈ t.dev.raised)) ∧
    (s.dev.tmb.synced = true →
      ∃ t, Runs .syncTimeout s t [.tmb, .raised] [R.TB_GM.addr 0, R.TB_STATE.addr 0, R.TB_INCR.addr 0] ∧ t.dev.tmb.selected = new ∧
        t.dev.tmb.synced = false ∧ t.dev.rd F.TB_GM_IDENTITY = (match new with | some f => f.msg.src.clock.toNat | none => 0) ∧
        (s.dev.rd F.TB_STATE_STATE = 1 ∨ s.dev.rd F.TB_STATE_STATE = 2 →
          t.dev.rd F.TB_STATE_STATE = 3 ∧ t.dev.rd F.TB_INCR_INCR = clampNat incrMin incrMax (incrOf s.dev.tmb.integ) ∧
          s.dev.event .secure 0x0D02 [] ∈ t.dev.raised)))

/-- On a channel that is ON a legal transition moves COUNT by one, up when the levels go forward in the Gray sequence and
DIR_INV is 0 or back and DIR_INV is 1, else down, wrapping, and on the web source the measured position by SCALE; a change of
both levels leaves COUNT, counts in QERR and sets POS_UNCERTAIN; the third within 1 ms also sets QUAD_FAULT, posts it, marks
the feedback of each servo axis that the channel feeds as bad, and on the web source puts a started tracker into COASTING. No
other count changes; a running servo axis fed by the channel takes into y, by FB_SCALE, a count stamped before its tick whose
stages are still to run, and no other count before its next tick. Clauses rest on choices of the model where the spec leaves
the point open: log entry 49 (lines travelled while COASTING). -/
def Obligations.QuadratureCounts : Prop :=
  (∀ (n : Fin 4) (a b : Bool) (t : Nat) (s : State), let k := (gray (a, b) + 4 - gray (s.dev.quad n).level) % 4
    let up := decide (k = 1) != s.dev.on F.WT_Qn_CFG_DIR_INV n
    s.Inv → s.dev.funcOn (.q n) = true → k = 1 ∨ k = 3 →
    ∃ u, Runs (.quadTransition n a b t) s u [.web, .srv, .freeCtr] [R.WT_Qn_COUNT.addr n, R.WT_DEBT.addr 0, R.SV_a_LOOP.addr 0, R.SV_a_LOOP.addr 1, R.SV_a_POS.addr 0, R.SV_a_POS.addr 1] ∧
      (u.dev.quad n).level = (a, b) ∧
      u.dev.rd F.WT_Qn_COUNT_COUNT n =
        (if up then (s.dev.rd F.WT_Qn_COUNT_COUNT n + 1) % 2 ^ 32 else (s.dev.rd F.WT_Qn_COUNT_COUNT n + (2 ^ 32 - 1)) % 2 ^ 32) ∧
      u.dev.web.pm = (if n = 0 ∧ s.dev.rd F.WT_SRC_CFG_SRC = 0 ∧ s.dev.web.started = true then
        (if up then s.dev.web.pm + max 1 (s.dev.rd F.WT_SCALE_SCALE) else s.dev.web.pm - max 1 (s.dev.rd F.WT_SCALE_SCALE)) else s.dev.web.pm) ∧
      ∀ c : Fin 2, (u.dev.sAxis c).y = (s.dev.sAxis c).y +
        if s.dev.srv.due = true ∧ t < s.dev.srv.tickT ∧ s.dev.srvRuns c = true ∧ s.dev.qFeed c = some n then
          toSigned 32 (ofSigned 32 ((s.dev.quad n).total + (if up then 1 else -1) - (s.dev.sAxis c).count)) * s.dev.rdS F.SV_a_FB_FB_SCALE c
        else 0) ∧
  (∀ (n : Fin 4) (a b : Bool) (t : Nat) (s : State), let third := threeWithin (t :: (s.dev.quad n).illegal.take 2)
    s.Inv → s.dev.funcOn (.q n) = true → (gray (a, b) + 4 - gray (s.dev.quad n).level) % 4 = 2 →
    (third = false →
      ∃ u, Runs (.quadTransition n a b t) s u [.web, .srv, .freeCtr] [R.WT_Qn_STAT.addr n, R.WT_STAT.addr 0, R.SV_a_LOOP.addr 0, R.SV_a_LOOP.addr 1, R.SV_a_POS.addr 0, R.SV_a_POS.addr 1] ∧
        (u.dev.quad n).level = (a, b) ∧ u.dev.rd F.WT_Qn_STAT_POS_UNCERTAIN n = 1 ∧
        u.dev.rd F.WT_Qn_STAT_QERR n = (s.dev.rd F.WT_Qn_STAT_QERR n + 1) % 65536 ∧ u.dev.rd F.WT_STAT_STATE = s.dev.rd F.WT_STAT_STATE) ∧
    (third = true →
      ∃ u, Runs (.quadTransition n a b t) s u [.web, .srv, .freeCtr, .raised] [R.WT_Qn_STAT.addr n, R.WT_STAT.addr 0, R.SV_a_LOOP.addr 0, R.SV_a_LOOP.addr 1, R.SV_a_POS.addr 0, R.SV_a_POS.addr 1] ∧
        u.dev.rd F.WT_Qn_STAT_QUAD_FAULT n = 1 ∧ u.dev.rd F.WT_Qn_STAT_POS_UNCERTAIN n = 1 ∧
        u.dev.rd F.WT_Qn_STAT_QERR n = (s.dev.rd F.WT_Qn_STAT_QERR n + 1) % 65536 ∧
        s.dev.event .secure 0x0C01 [(1, n)] ∈ u.dev.raised ∧
        (∀ c : Fin 2, (s.dev.servoSec c).enable = true → s.dev.qFeed c = some n → (u.dev.sAxis c).feedBad = true) ∧
        u.dev.rd F.WT_STAT_STATE = (if n = 0 ∧ s.dev.rd F.WT_SRC_CFG_SRC = 0 ∧ s.dev.web.started = true then 3 else s.dev.rd F.WT_STAT_STATE)))

/-- An index edge in ALWAYS mode, or in ONCE_ARMED mode when armed, latches COUNT and the stamp and clears COUNT, and in
ONCE_ARMED mode disarms and posts INDEX_LATCHED; a count accepted in the same sample is applied first and latched with it; in
OFF mode, and in ONCE_ARMED mode while not armed, an edge does nothing; no index reset moves the web position; IDX_ARM arms;
WT_SCALE takes a value, 0 read as 1, in STILL only, and otherwise keeps its value and shows SCALE_REFUSED. -/
def Obligations.IndexAndScale : Prop :=
  (∀ (n : Fin 4) (t : Nat) (s : State),
    let servo := (List.finRange 2).flatMap fun a => [R.SV_a_STAT.addr a, R.SV_a_POS.addr a, R.SV_a_LOOP.addr a, R.SV_a_TARGET.addr a]
    s.Inv → s.dev.funcOn (.q n) = true →
    (s.dev.rd F.WT_Qn_CFG_IDX_MODE n = 1 →
      ∃ u, Runs (.indexEdge n t) s u [.web, .srv, .raised] ([R.WT_Qn_IDX.addr n, R.WT_Qn_IDXTIME.addr n, R.WT_Qn_COUNT.addr n] ++ servo) ∧
        u.dev.rd F.WT_Qn_IDX_LATCH n = s.dev.rd F.WT_Qn_COUNT_COUNT n ∧ u.dev.rd F.WT_Qn_COUNT_COUNT n = 0 ∧
        u.dev.rd F.WT_Qn_IDXTIME_STAMP n = t % 2 ^ 64 ∧ u.dev.web.pm = s.dev.web.pm ∧ u.dev.web.x = s.dev.web.x) ∧
    (s.dev.rd F.WT_Qn_CFG_IDX_MODE n = 0 → Ignored (.indexEdge n t) s) ∧
    (s.dev.rd F.WT_Qn_CFG_IDX_MODE n = 2 → s.dev.rd F.WT_Qn_CFG_IDX_ARM n = 0 → Ignored (.indexEdge n t) s) ∧
    (∀ (a b : Bool) (u : State), s.dev.rd F.WT_Qn_CFG_IDX_MODE n = 1 → exec (.quadTransition n a b t) s = .next u →
      ∃ v, exec (.indexEdge n t) u = .next v ∧ v.dev.rd F.WT_Qn_IDX_LATCH n = u.dev.rd F.WT_Qn_COUNT_COUNT n ∧
        v.dev.rd F.WT_Qn_COUNT_COUNT n = 0 ∧ v.dev.web.pm = u.dev.web.pm) ∧
    (s.dev.rd F.WT_Qn_CFG_IDX_MODE n = 2 → s.dev.rd F.WT_Qn_CFG_IDX_ARM n = 1 →
      ∃ u, Runs (.indexEdge n t) s u [.web, .srv, .raised]
          ([R.WT_Qn_IDX.addr n, R.WT_Qn_IDXTIME.addr n, R.WT_Qn_COUNT.addr n, R.WT_Qn_CFG.addr n] ++ servo) ∧
        u.dev.rd F.WT_Qn_IDX_LATCH n = s.dev.rd F.WT_Qn_COUNT_COUNT n ∧ u.dev.rd F.WT_Qn_COUNT_COUNT n = 0 ∧
        u.dev.rd F.WT_Qn_IDXTIME_STAMP n = t % 2 ^ 64 ∧ u.dev.rd F.WT_Qn_CFG_IDX_ARM n = 0 ∧
        u.dev.web.pm = s.dev.web.pm ∧ u.dev.web.x = s.dev.web.x ∧ s.dev.event .secure 0x0C0A [] ∈ u.dev.raised)) ∧
  (∀ (m : Master) (n : Fin 4) (s : State), s.Inv → s.dev.Takes m R.WT_Qn_CFG n →
    ∃ u, Runs (.idxArm m n) s u [.bus] [R.WT_Qn_CFG.addr n] ∧ u.dev.rd F.WT_Qn_CFG_IDX_ARM n = 1 ∧
      u.dev.rd F.WT_Qn_CFG_IDX_MODE n = s.dev.rd F.WT_Qn_CFG_IDX_MODE n) ∧
  (∀ (m : Master) (val : Nat) (s : State), s.Inv → s.dev.Takes m R.WT_SCALE 0 →
    (s.dev.rd F.WT_STAT_STATE = 0 → ∃ u, Runs (.wtScaleWrite m val) s u [.bus, .web] [R.WT_SCALE.addr 0, R.WT_DEBT.addr 0] ∧
      u.dev.rd F.WT_SCALE_SCALE = max 1 (val % 2 ^ 32)) ∧
    (s.dev.rd F.WT_STAT_STATE ≠ 0 → ∃ u, Runs (.wtScaleWrite m val) s u [.bus] [R.WT_STAT.addr 0] ∧
      u.dev.rd F.WT_STAT_SCALE_REFUSED = 1 ∧ u.dev.rd F.WT_SCALE_SCALE = s.dev.rd F.WT_SCALE_SCALE))

/-- In SETTLING or TRACKING with no legal edge for STILL_T the observer goes to STILL at the last measured position and
WEB_STANDSTILL is posted for the coming beat; the eighth edge since STILL makes it TRACKING; a recovery from COASTING makes it
TRACKING, keeps the reverse debt and posts WEB_RECOVERED; an exhausted coasting count suspends firing with cause 2 and a
reverse debt above its limit with cause 1, each with its event, a suspension in force keeping its cause. Clauses rest on
choices of the model where the spec leaves the point open: log entry 35 (the boundary's time), log entry 49 (lines travelled
while COASTING), log entry 214 (the rounding of the observer's arithmetic). -/
def Obligations.ObserverStates : Prop :=
  (∀ (s : State), s.Inv → s.dev.rd F.WT_STAT_STATE = 1 ∨ s.dev.rd F.WT_STAT_STATE = 2 → s.dev.web.edges = [] →
    s.dev.web.lastEdge + s.dev.rd F.WT_LIMITS_STILL_T * 1000 ≤ s.dev.boundary →
    ∃ u, Runs .webStandstill s u [.web, .raised] [R.WT_STAT.addr 0] ∧ u.dev.rd F.WT_STAT_STATE = 0 ∧ u.dev.rd F.WT_STAT_SETTLING = 0 ∧
      u.dev.web = { s.dev.web with x := s.dev.web.lastPm, v := 0, a := 0, count := 0 } ∧
      u.dev.raised = s.dev.raised ++ [{ s.dev.event .secure 0x0C09 [] with beat := s.dev.boundary / 4000 }]) ∧
  (∀ (s : State), s.Inv → s.dev.rd F.WT_STAT_STATE = 1 → 8 ≤ s.dev.web.count + s.dev.web.edges.length →
    ∃ u, Runs .webSettled s u [] [R.WT_STAT.addr 0] ∧ u.dev.rd F.WT_STAT_STATE = 2 ∧ u.dev.rd F.WT_STAT_SETTLING = 0) ∧
  (∀ (s : State), let tk := s.dev.tmb.openT
    s.Inv → s.dev.rd F.WT_STAT_STATE = 3 → s.dev.web.lastQerr < tk - 1000000 →
    16 ≤ (s.dev.web.coastEdges.filter fun t => decide (tk - 1000000 ≤ t) && decide (t < tk)).length →
    ∃ u, Runs .webRecovered s u [.web, .raised] [R.WT_STAT.addr 0] ∧ u.dev.rd F.WT_STAT_STATE = 2 ∧
      u.dev.web.hw - u.dev.web.pm = s.dev.web.hw - s.dev.web.pm ∧
      u.dev.web.lastPm = posAt s.dev.web.x s.dev.web.v s.dev.web.a ((s.dev.web.lastEdge : Int) - s.dev.web.ts) ∧
      u.dev.web.pm - s.dev.web.pm = u.dev.web.lastPm - s.dev.web.lastPm ∧
      u.dev.raised = s.dev.raised ++ [s.dev.event .secure 0x0C04 []]) ∧
  (∀ (s : State), s.Inv → s.dev.rd F.WT_STAT_STATE = 3 → s.dev.pageRuns = true → s.dev.web.exhausted = false →
    (s.dev.rd F.WT_LIMITS_COAST_MAX : Int) ≤ (s.dev.web.x - s.dev.web.coastX) / 2 ^ 32 →
    ∃ u, Runs .webCoastExhausted s u [.web, .raised] [R.WT_STAT.addr 0] ∧ u.dev.rd F.WT_STAT_SUSPENDED = 1 ∧
      u.dev.rd F.WT_STAT_SUSP_CAUSE = (if s.dev.rd F.WT_STAT_SUSPENDED = 1 then s.dev.rd F.WT_STAT_SUSP_CAUSE else 2) ∧
      u.dev.web.exhausted = true ∧ u.dev.raised = s.dev.raised ++ [s.dev.event .secure 0x0C03 []]) ∧
  (∀ (s : State), s.Inv → s.dev.web.revDue = true →
    ∃ u, Runs .webReversed s u [.web, .raised] [R.WT_STAT.addr 0] ∧ u.dev.rd F.WT_STAT_SUSPENDED = 1 ∧
      u.dev.rd F.WT_STAT_SUSP_CAUSE = (if s.dev.rd F.WT_STAT_SUSPENDED = 1 then s.dev.rd F.WT_STAT_SUSP_CAUSE else 1) ∧
      u.dev.web.revDue = false ∧
      u.dev.raised = s.dev.raised ++ [s.dev.event .secure 0x0C02 [(4, s.dev.rd F.WT_DEBT_D)]])

/-- An enabled cue, with the tracker tracking or at least neither coasting nor suspended, a page queued and S not before the
end of the previous page, starts that page at S, by the pin and by an accepted SOFT cue alike, and ends a suspension and the
reverse debt; a cue with ENABLE 0 is rejected with cause 4, one with no page queued with cause 1, one that meets coasting, or
a suspension outside TRACKING, with cause 3, one whose S lies before the end of the previous page with cause 2; a SOFT cue
that is rejected leaves with the same event, and one that only bind-off stops leaves silently; a write of SOFT waits with its
stamp. Clauses rest on choices of the model where the spec leaves the point open: log entry 51 (a cue that only bind-off
stops), log entry 52 (when a switch point has passed), log entry 53 (a change held for want of a switch point), log entry 65
(when a held change is written), log entry 164 (S_resume once recorded), log entry 166 (a page cued while the inhibit lasts).
-/
def Obligations.PageCues : Prop :=
  (∀ (stamp : Nat) (p : Page) (s : State), s.Inv → (s.dev.sys.bindOff.map BindOff.running) ≠ some true → s.dev.rd F.WT_CUE_CFG_ENABLE = 1 →
    s.dev.headPage = some p → s.dev.pat.hold = false →
    (s.dev.rd F.WT_STAT_STATE = 2 ∨ s.dev.rd F.WT_STAT_STATE ≠ 3 ∧ s.dev.rd F.WT_STAT_SUSPENDED = 0) →
    (∀ q, s.dev.web.prevPage = some q → q.1 + q.2 ≤ s.dev.cueStart stamp) →
    (∃ u, Runs (.pageCue stamp) s u [.web, .cdc, .las, .pace, .nzh, .raised] cueRegs ∧
      u.dev.web.prevPage = some (s.dev.cueStart stamp, p.lines) ∧ u.dev.web.lastPage = p.uid ∧ u.dev.rd F.WT_STAT_SUSPENDED = 0 ∧
      u.dev.rd F.WT_DEBT_D = 0 ∧ u.dev.rd F.WT_PAGE_START = ofSigned 48 (s.dev.cueStart stamp) ∧
      u.dev.rd F.WT_PAGE_ACTIVE = 1) ∧
    (∀ rest, s.dev.web.soft = stamp :: rest →
      ∃ u, Runs .softCueAccept s u [.web, .cdc, .las, .pace, .nzh, .raised] cueRegs ∧
        u.dev.web.soft = rest ∧ u.dev.web.prevPage = some (s.dev.cueStart stamp, p.lines) ∧ u.dev.web.lastPage = p.uid ∧
        u.dev.rd F.WT_STAT_SUSPENDED = 0 ∧ u.dev.rd F.WT_DEBT_D = 0 ∧
        u.dev.rd F.WT_PAGE_START = ofSigned 48 (s.dev.cueStart stamp) ∧ u.dev.rd F.WT_PAGE_ACTIVE = 1)) ∧
  (∀ (stamp : Nat) (s : State), s.dev.rd F.WT_CUE_CFG_ENABLE = 0 →
    ∃ u, Runs (.pageCue stamp) s u [.raised] [] ∧
      u.dev.raised = s.dev.raised ++ [s.dev.event .secure 0x0C07 [(1, 4)]]) ∧
  (∀ (stamp : Nat) (s : State), s.dev.rd F.WT_CUE_CFG_ENABLE = 1 → s.dev.headPage = none ∨ s.dev.pat.hold = true →
    ∃ u, Runs (.pageCue stamp) s u [.raised] [] ∧
      u.dev.raised = s.dev.raised ++ [s.dev.event .secure 0x0C07 [(1, 1)]]) ∧
  (∀ (stamp : Nat) (p : Page) (s : State), s.dev.rd F.WT_CUE_CFG_ENABLE = 1 → s.dev.headPage = some p → s.dev.pat.hold = false →
    (s.dev.rd F.WT_STAT_STATE = 3 ∨ s.dev.rd F.WT_STAT_STATE ≠ 2 ∧ s.dev.rd F.WT_STAT_SUSPENDED = 1 →
      ∃ u, Runs (.pageCue stamp) s u [.raised] [] ∧
        u.dev.raised = s.dev.raised ++ [s.dev.event .secure 0x0C07 [(1, 3)]]) ∧
    (∀ q : Int × Nat, s.dev.rd F.WT_STAT_STATE = 2 → s.dev.web.prevPage = some q → s.dev.cueStart stamp < q.1 + q.2 →
      ∃ u, Runs (.pageCue stamp) s u [.raised] [] ∧
        u.dev.raised = s.dev.raised ++ [s.dev.event .secure 0x0C07 [(1, 2)]])) ∧
  (∀ (stamp : Nat) (rest : List Nat) (s : State), s.dev.web.soft = stamp :: rest →
    (s.dev.cueCause stamp ≠ 0 →
      ∃ u, Runs .softCueAccept s u [.web, .raised] [] ∧ u.dev.web = { s.dev.web with soft := rest } ∧
        u.dev.raised = s.dev.raised ++ [s.dev.event .secure 0x0C07 [(1, s.dev.cueCause stamp)]]) ∧
    (s.dev.cueCause stamp = 0 → (s.dev.sys.bindOff.map BindOff.running) = some true →
      ∃ u, Runs .softCueAccept s u [.web] [] ∧ u.dev.web = { s.dev.web with soft := rest })) ∧
  (∀ (m : Master) (val : Nat) (s : State), s.Inv → s.dev.Takes m R.WT_CUE_CFG 0 → setsBit val 49 →
    ∃ u, Runs (.softCue m 8 val) s u [.bus, .web] [R.WT_CUE_CFG.addr 0] ∧
      u.dev.web = { s.dev.web with soft := s.dev.web.soft ++ [s.dev.now] } ∧
      u.dev.rd F.WT_CUE_CFG_CUE_DELAY = val % 2 ^ 48 ∧ u.dev.rd F.WT_CUE_CFG_ENABLE = val / 2 ^ 48 % 2) ∧
  (∀ (m : Master) (val : Nat) (s : State), s.Inv → s.dev.Takes m R.WT_CUE_CFG 0 → setsBit val 17 →
    ∃ u, Runs (.softCue m 4 val) s u [.bus, .web] [R.WT_CUE_CFG.addr 0] ∧
      u.dev.web = { s.dev.web with soft := s.dev.web.soft ++ [s.dev.now] } ∧
      u.dev.rd F.WT_CUE_CFG_CUE_DELAY = s.dev.rd F.WT_CUE_CFG_CUE_DELAY % 2 ^ 32 + val % 2 ^ 16 * 2 ^ 32 ∧
      u.dev.rd F.WT_CUE_CFG_ENABLE = val / 2 ^ 16 % 2)

/-- A write of WT_CMP_OUT, whole or its upper half, that enables an entry sets its fields, clears DONE and starts its
occurrences at j = 0; writes of WT_CMP_START and WT_CMP_REPEAT set their fields and nothing else; at the first occurrence that
has pins, the pins of its mask rise for its width; the pulse that ends first ends, and a pin stays high only while another
pulse covers it. Clauses rest on choices of the model where the spec leaves the point open: log entry 48 (when an entry clears
DONE, and one occurrence in a boundary). -/
def Obligations.PositionCompare : Prop :=
  (∀ (m : Master) (e val : Nat) (s : State), s.Inv → e < 4096 →
    (s.dev.Takes m R.WT_CMP_OUT e → s.dev.rd F.WT_CMP_OUT_ENABLE e = 0 → setsBit val 32 →
      ∃ u, Runs (.cmpEntryWrite m (regSpace + R.WT_CMP_OUT.addr e) 8 val) s u [.bus, .web] [R.WT_CMP_OUT.addr e] ∧
        u.dev.rd F.WT_CMP_OUT_ENABLE e = 1 ∧ u.dev.rd F.WT_CMP_OUT_DONE e = 0 ∧ u.dev.rd F.WT_CMP_OUT_RELATIVE e = val / 2 ^ 33 % 2 ∧
        u.dev.rd F.WT_CMP_OUT_TRIG_MASK e = val % 2 ^ 8 ∧
        u.dev.rd F.WT_CMP_OUT_MARK_MASK e = val / 2 ^ 8 % 2 ^ 8 ∧ u.dev.rd F.WT_CMP_OUT_WIDTH e = max 16 (val / 2 ^ 16 % 2 ^ 16) ∧
        mapGet u.dev.web.cmpJ e 0 = 0) ∧
    (s.dev.Takes m R.WT_CMP_OUT e → s.dev.rd F.WT_CMP_OUT_ENABLE e = 0 → setsBit val 0 →
      ∃ u, Runs (.cmpEntryWrite m (regSpace + R.WT_CMP_OUT.addr e + 4) 4 val) s u [.bus, .web] [R.WT_CMP_OUT.addr e] ∧
        u.dev.rd F.WT_CMP_OUT_ENABLE e = 1 ∧ u.dev.rd F.WT_CMP_OUT_DONE e = 0 ∧
        u.dev.rd F.WT_CMP_OUT_MARK_MASK e = s.dev.rd F.WT_CMP_OUT_MARK_MASK e ∧ mapGet u.dev.web.cmpJ e 0 = 0) ∧
    (s.dev.Takes m R.WT_CMP_START e →
      ∃ u, Runs (.cmpEntryWrite m (regSpace + R.WT_CMP_START.addr e) 8 val) s u [.bus] [R.WT_CMP_START.addr e] ∧
        u.dev.rd F.WT_CMP_START_START e = val % 2 ^ 64) ∧
    (s.dev.Takes m R.WT_CMP_REPEAT e →
      ∃ u, Runs (.cmpEntryWrite m (regSpace + R.WT_CMP_REPEAT.addr e) 8 val) s u [.bus] [R.WT_CMP_REPEAT.addr e] ∧
        u.dev.rd F.WT_CMP_REPEAT_PERIOD e = val % 2 ^ 32 ∧ u.dev.rd F.WT_CMP_REPEAT_COUNT e = val / 2 ^ 32 % 2 ^ 32)) ∧
  (∀ (o : Occur) (s : State), (s.dev.web.occ.find? fun o => decide (o.mask ≠ 0)) = some o →
    ∃ u, Runs .markPulseStart s u [.web] [] ∧ (∀ b, b < 8 → o.mask.testBit b = true → u.dev.web.mark.getLsbD b = true) ∧
      u.dev.web.pulses = s.dev.web.pulses ++ [⟨o.mask, o.t, o.t + o.width⟩]) ∧
  (∀ (s : State), s.dev.web.pulses ≠ [] →
    ∃ u, Runs .markPulseEnd s u [.web] [] ∧
      (∀ b, b < 8 → u.dev.web.mark.getLsbD b = u.dev.web.pulses.any fun p => p.mask.testBit b) ∧
      ∃ p ∈ s.dev.web.pulses, (∀ q ∈ s.dev.web.pulses, p.stop ≤ q.stop) ∧ u.dev.web.pulses = s.dev.web.pulses.erase p)

/-- A write of CD_PAGE_PUSH that reaches its high word queues the descriptor address for the codec with the host that wrote
it, or, when 64 pages are counted, is discarded with OVERFLOW and PAGE_QUEUE_FULL; a 32-bit write of the low word only stores
its bits. Unless the memory front holds new requests, the oldest descriptor is read: one that can be read, has its CRC and
every field in range joins the queue with its fields, and DEPTH counts it; a page that presents no strip is decoded at once,
and PAGE_DECODED tells its host, and no other page is; one with a bad CRC, a bad field, outside the memory or the host's
world, or in an uncorrectable granule is rejected with its cause, and the queue stays as it was. Clauses rest on choices of
the model where the spec leaves the point open: log entry 55 (the skein chain, and the fields of a descriptor), log entry 56
(what a push and a check of it do), log entry 104 (D3hot stops requests alone), log entry 178 (what an earlier read completion
has counted), log entry 179 (requests that wait in the memory front). -/
def Obligations.PageQueue : Prop :=
  (∀ (m : Master) (bytes val : Nat) (s : State), let push := if bytes = 8 then val else val % 2 ^ 32 * 2 ^ 32 + s.dev.cdc.push % 2 ^ 32
    let addr := push / 64 % 2 ^ 34 * 64
    s.Inv → s.dev.Takes m R.CD_PAGE_PUSH 0 → bytes = 4 ∨ bytes = 8 → val < 2 ^ 64 → s.dev.cdc.push < 2 ^ 64 →
    (s.dev.queued.length + s.dev.cdc.reading.length < 64 →
      ∃ u, Runs (.pagePush m bytes val) s u [.bus, .cdc] [] ∧
        u.dev.cdc = { s.dev.cdc with push := push, reading := s.dev.cdc.reading ++ [(addr, portOf m)] }) ∧
    (64 ≤ s.dev.queued.length + s.dev.cdc.reading.length →
      ∃ u, Runs (.pagePush m bytes val) s u [.bus, .cdc, .raised] [R.CD_QSTAT.addr 0] ∧
        u.dev.cdc = { s.dev.cdc with push := push } ∧ u.dev.rd F.CD_QSTAT_OVERFLOW = 1 ∧
        u.dev.raised = s.dev.raised ++ [s.dev.event (toWriter (portOf m)) 0x0701 [(5, addr)]]) ∧
    (∃ u, Runs (.pagePushLowWrite m val) s u [.bus, .cdc] [] ∧
      u.dev.cdc = { s.dev.cdc with push := s.dev.cdc.push / 2 ^ 32 * 2 ^ 32 + val % 2 ^ 32 })) ∧
  (∀ (addr : Nat) (port : Option (Fin 2)) (rest : List (Nat × Option (Fin 2))) (s : State), let b := s.dev.bytes addr 64
    s.Inv → s.dev.cdc.reading = (addr, port) :: rest → s.dev.frontHeld = false →
    (s.dev.checkDram (s.dev.pushWorld port) addr 64 ≠ .pass →
      ∃ u, Runs .descriptorCheck s u [.cdc, .raised] [] ∧ u.dev.cdc = { s.dev.cdc with reading := rest } ∧
        u.dev.raised = s.dev.raised ++ [s.dev.event (toWriter port) 0x0702 [(5, addr), (1, 3)]]) ∧
    (s.dev.checkDram (s.dev.pushWorld port) addr 64 = .pass → (granules addr 64).any s.dev.granuleBad = true →
      ∃ u, Runs .descriptorCheck s u ([.cdc] ++ readParts) dramRegs ∧ u.dev.cdc = { s.dev.cdc with reading := rest } ∧
        u.dev.raised = s.dev.raised ++ [s.dev.event (toWriter port) 0x0702 [(5, addr), (1, 4)]]) ∧
    (s.dev.checkDram (s.dev.pushWorld port) addr 64 = .pass → s.dev.ReadsGood 19 addr 64 → sliceNat b 0x3C 4 = crc32 (b.take 0x3C) → descBad b = false →
      ∃ u, Runs .descriptorCheck s u [.cdc, .drm, .raised] [R.CD_QSTAT.addr 0, R.CD_HEAD.addr 0] ∧ u.dev.cdc.reading = rest ∧
        (u.dev.cdc.pages.map fun p => (p.addr, p.pageId, p.lines, p.mask, p.check)) =
          (s.dev.cdc.pages.map fun p => (p.addr, p.pageId, p.lines, p.mask, p.check)) ++
            [(addr, sliceNat b 0 4, sliceNat b 4 4, sliceNat b 8 2, (sliceNat b 0xA 2).testBit 0)] ∧
        (u.dev.cdc.pages.map fun p => (p.bands, p.table, p.tag, p.port)) =
          (s.dev.cdc.pages.map fun p => (p.bands, p.table, p.tag, p.port)) ++ [(sliceNat b 0xC 4, sliceNat b 0x10 8, sliceNat b 0x18 8, port)] ∧
        u.dev.rd F.CD_QSTAT_DEPTH = (s.dev.queued.length + 1) % 128 ∧
        ((∀ p ∈ s.dev.cdc.pages, p.uid < s.dev.cdc.nextUid) →
          u.dev.raised = s.dev.raised ++ (if sliceNat b 8 2 = 0
            then [s.dev.event (toWriter port) 0x0703 [(4, sliceNat b 0 4), (8, sliceNat b 0x18 8)]] else []))) ∧
    (s.dev.checkDram (s.dev.pushWorld port) addr 64 = .pass → s.dev.ReadsGood 19 addr 64 → sliceNat b 0x3C 4 ≠ crc32 (b.take 0x3C) →
      ∃ u, Runs .descriptorCheck s u [.cdc, .drm, .raised] [] ∧ u.dev.cdc = { s.dev.cdc with reading := rest } ∧
        u.dev.raised = s.dev.raised ++ [s.dev.event (toWriter port) 0x0702 [(5, addr), (1, 1)]]) ∧
    (s.dev.checkDram (s.dev.pushWorld port) addr 64 = .pass → s.dev.ReadsGood 19 addr 64 → sliceNat b 0x3C 4 = crc32 (b.take 0x3C) → descBad b = true →
      ∃ u, Runs .descriptorCheck s u [.cdc, .drm, .raised] [] ∧ u.dev.cdc = { s.dev.cdc with reading := rest } ∧
        u.dev.raised = s.dev.raised ++ [s.dev.event (toWriter port) 0x0702 [(5, addr), (1, 2)]]))

/-- A lane with a free buffer begins the next band of its strip; a band without a check, or whose output has its CRC, ends
with what decoding gives, its buffer done; one whose output does not goes to the spare if it is idle, and otherwise ends with
CRC, reads as zeros and is posted; a second decode by the spare that agrees with OUT_CRC spares the lane for good and posts
LANE_SPARED, and one that does not frees the spare and ends the band with CRC; no decoding writes DRAM. While no reset is
under way a strip writes its page's next line to the line's slot and no other byte, and a strip that the page does not present
records the line as no-ink and stores nothing. Clauses rest on choices of the model where the spec leaves the point open: log
entry 4 (an unwritten byte reads 0), log entry 11 (the numbers of the results), log entry 56 (what a push and a check of it
do), log entry 58 (the window as a requester), log entry 61 (how far a stream is read), log entry 62 (the bexiq code), log
entry 93 (an open choice), log entry 166 (a page cued while the inhibit lasts), log entry 178 (what an earlier read completion
has counted), log entry 179 (requests that wait in the memory front), log entry 188 (READY and the CRC). -/
def Obligations.BandDecoding : Prop :=
  (∀ (lane : Fin 17) (k : Nat) (p : Page) (s : State), s.dev.laneStrip lane = some k → s.dev.funcOn .dec = true →
    (s.dev.stripBufs k).length < 2 → (s.dev.stripBufs k).all (fun b => b.done) = true → s.dev.nextBand k = some p →
    ∃ u, Runs (.bandDecodeStart lane) s u [.cdc] [] ∧
      u.dev.cdc.bufs = s.dev.cdc.bufs ++ [{ strip := k, lane := lane, uid := p.uid, band := at' p.begun k }]) ∧
  (∀ (lane : Fin 17) (err : Option (Nat × BitVec 8)) (b : Buf) (p : Page) (s : State), let r := (s.dev.decodeOne p b.band b.strip).1
    let out := if r.1.checked then upset err r.2.1 else r.2.1
    let good := !p.check || (!r.1.checked || decide (crc32 out = r.2.2))
    s.Inv → (s.dev.cdc.bufs.find? fun b => decide (b.lane = lane.val) && (!b.done && !b.again)) = some b → s.dev.page b.uid = some p →
    (good = true →
      ∃ u, Runs (.bandDecodeDone lane err) s u ([.cdc] ++ readParts) bandRegs ∧
        ∃ x ∈ u.dev.cdc.bufs, x.uid = b.uid ∧ x.strip = b.strip ∧ x.band = b.band ∧ x.done = true ∧ x.data = out) ∧
    (good = false → s.dev.rd F.CD_LANE_MAP_SPARE_STATE = 0 →
      ∃ u, Runs (.bandDecodeDone lane err) s u ([.cdc] ++ readParts) bandRegs ∧ u.dev.rd F.CD_LANE_MAP_SPARE_STATE = 1 ∧
        ∃ x ∈ u.dev.cdc.bufs, x.uid = b.uid ∧ x.strip = b.strip ∧ x.band = b.band ∧ x.again = true ∧ x.crc = r.2.2) ∧
    (good = false → s.dev.rd F.CD_LANE_MAP_SPARE_STATE ≠ 0 →
      ∃ u, Runs (.bandDecodeDone lane err) s u ([.cdc] ++ readParts) bandRegs ∧
        (s.dev.event (toWriter p.port) 0x0704 [(4, p.pageId), (4, b.band), (1, b.strip), (1, 7)] ∈ u.dev.raised) ∧
        ∃ x ∈ u.dev.cdc.bufs, x.uid = b.uid ∧ x.strip = b.strip ∧ x.band = b.band ∧ x.done = true ∧
          x.data = List.replicate out.length 0)) ∧
  (∀ (err : Option (Nat × BitVec 8)) (b : Buf) (p : Page) (s : State), let r := (s.dev.decodeOne p b.band b.strip).1
    let agrees := r.1.checked && decide (crc32 (upset err r.2.1) = b.crc)
    s.Inv → (s.dev.cdc.bufs.find? fun b => b.again) = some b → s.dev.page b.uid = some p → b.lane < 16 →
    (agrees = true →
      ∃ u, Runs (.spareDecodeDone err) s u ([.cdc] ++ readParts) bandRegs ∧ u.dev.rd F.CD_LANE_MAP_SPARE_STATE = 2 ∧
        u.dev.rd F.CD_LANE_MAP_SPARE_FOR = b.lane ∧ u.dev.bit F.CD_LANE_MAP_FAILED b.lane = true ∧
        s.dev.event .secure 0x0706 [(1, b.lane)] ∈ u.dev.raised) ∧
    (agrees = false →
      ∃ u, Runs (.spareDecodeDone err) s u ([.cdc] ++ readParts) bandRegs ∧ u.dev.rd F.CD_LANE_MAP_SPARE_STATE = 0 ∧
        (s.dev.event (toWriter p.port) 0x0704 [(4, p.pageId), (4, b.band), (1, b.strip), (1, 7)] ∈ u.dev.raised) ∧
        ∃ x ∈ u.dev.cdc.bufs, x.uid = b.uid ∧ x.strip = b.strip ∧ x.band = b.band ∧ x.done = true ∧
          x.data = List.replicate (p.bandSize b.band) 0)) ∧
  (∀ (k : Fin 16) (p : Page) (start : Int) (s : State), let j := at' p.written k; let line : Int := start + j
    s.Inv → s.dev.sys.reset = none → (s.dev.cdc.pages.find? fun p => p.start.isSome && decide (at' p.written k < p.lines)) = some p →
    p.start = some start → line < s.dev.releaseMark + s.dev.windowLines →
    (p.mask.testBit k = false →
      ∃ u, Runs (.stripLineWrite k) s u [.cdc] [] ∧
        at' u.dev.cdc.win k = recordLine p.uid line true (at' s.dev.cdc.win k)) ∧
    (∀ b a, p.mask.testBit k = true →
      (s.dev.cdc.bufs.find? fun b => decide (b.uid = p.uid ∧ b.strip = k.val ∧ b.band = j / 256) && b.done) = some b →
      j % 256 * 1024 + 1024 ≤ b.data.length → a = s.dev.slotAddr line + k * 1024 →
      s.dev.checkDram (s.dev.masterSecure 2) a 1024 = .pass → s.dev.ue = [] →
      ∃ u, Runs (.stripLineWrite k) s u [.cdc, .mem, .drm] [] ∧
        at' u.dev.cdc.win k = recordLine p.uid line false (at' s.dev.cdc.win k) ∧
        (∀ i, i < 1024 → some (u.dev.byte (a + i)) = b.data[j % 256 * 1024 + i]?) ∧
        ∀ x, x < a ∨ a + 1024 ≤ x → u.dev.byte x = s.dev.byte x))

/-- GO starts a job with the written TAG and MODE for the writing host, in its world, RUNNING or stalled STARVED, and writes
no DRAM; KICK of a starved lane whose next buffer, that of CD_ENCn_SKEIN or that of NEXT in the last full one's descriptor, is
released takes it and runs, one that finds it not released changes nothing but what its read does, and one that finds the
memory front holding new requests waits there. A full buffer with output left over is given to the host and the job goes on or
starves; when the output fits the buffer in use the job is DONE, with ERR set only if its source read failed, and ENCODE_DONE
tells the host. Giving a buffer stores the job's next bits at the address in its descriptor, VALID_BITS, TAG and FLAGS in the
descriptor, with OWNED cleared and LAST set in the final one only, and changes no other byte. Clauses rest on choices of the
model where the spec leaves the point open: log entry 4 (an unwritten byte reads 0), log entry 55 (the skein chain, and the
fields of a descriptor), log entry 104 (D3hot stops requests alone), log entry 178 (what an earlier read completion has
counted), log entry 179 (requests that wait in the memory front), log entry 189 (the world of an encode write). -/
def Obligations.EncodeLanes : Prop :=
  (∀ (m : Master) (n : Fin 4) (val : Nat) (s : State), s.Inv → s.dev.Takes m R.CD_ENCn_CTRL n → s.dev.funcOn .enc = true →
    s.dev.encState n ≠ 1 → s.dev.encState n ≠ 2 → val % 4 = 1 →
    ∃ u, Runs (.encodeGo m n val) s u ([.bus, .cdc] ++ readParts) ([R.CD_ENCn_CTRL.addr n, R.CD_ENCn_STAT.addr n] ++ dramRegs) ∧
      (u.dev.encState n = 1 ∨ u.dev.encState n = 2) ∧ (u.dev.enc n).tag = val / 2 ^ 16 % 2 ^ 16 ∧
      (u.dev.enc n).mode = val.testBit 2 ∧ (u.dev.enc n).port = portOf m ∧ (u.dev.enc n).secure = s.dev.secureMaster m ∧
      (u.dev.enc n).done = 0 ∧ u.dev.mem = s.dev.mem) ∧
  (∀ (m : Master) (n : Fin 4) (s : State), let j := s.dev.enc n
    let a := match j.last with | none => s.dev.rd F.CD_ENCn_SKEIN_ADDR n * 32 | some l => s.dev.load (l + 0x18) 8
    let b := s.dev.bytes a 32
    s.Inv → s.dev.Takes m R.CD_ENCn_CTRL n → s.dev.encState n = 2 →
    (s.dev.frontHeld = true →
      ∃ u, Runs (.encodeKick m n) s u [.bus, .drm] [] ∧ u.dev.drm = { s.dev.drm with held := s.dev.drm.held ++ [.encode n] }) ∧
    (s.dev.frontHeld = false →
    (∀ l, j.last = some l → s.dev.checkDram j.secure (l + 0x18) 8 = .pass ∧ a ≠ 0 ∧ s.dev.ReadsGood 4 (l + 0x18) 8) →
    s.dev.checkDram j.secure a 32 = .pass → s.dev.ReadsGood 4 a 32 →
    (setsBit (sliceNat b 0xC 4) 0 → 64 ≤ sliceNat b 8 4 → sliceNat b 8 4 ≤ 16777216 →
      ∃ u, Runs (.encodeKick m n) s u [.bus, .cdc, .drm] [R.CD_ENCn_STAT.addr n] ∧ u.dev.encState n = 1 ∧
        u.dev.enc n = { j with desc := some a }) ∧
    (sliceNat b 0xC 4 % 2 = 0 →
      ∃ u, Runs (.encodeKick m n) s u [.bus, .drm] [] ∧ u.dev.encState n = 2))) ∧
  (∀ (n : Fin 4) (a : Nat) (s : State), let j := s.dev.enc n; let room := s.dev.load (a + 8) 4 * 8
    let regs := [R.CD_ENCn_STAT.addr n] ++ dramRegs
    s.Inv → s.dev.frontHeld = false → s.dev.encState n = 1 → j.desc = some a →
    (room < j.bits - j.done →
      ∃ u, Runs (.skeinBufferFull n) s u ([.cdc] ++ dramParts) regs ∧
        (u.dev.encState n = 1 ∨ u.dev.encState n = 2) ∧ (u.dev.enc n).done = j.done + room ∧ (u.dev.enc n).last = some a ∧
        s.dev.GivesBuffer u.dev n a room false) ∧
    (j.bits - j.done ≤ room → j.failed = false →
      ∃ u, Runs (.encodeDone n) s u ([.cdc] ++ dramParts) regs ∧ u.dev.encState n = 3 ∧
        u.dev.rd F.CD_ENCn_STAT_ERR n = 0 ∧ u.dev.raised.getLast? =
          some (s.dev.event (toWriter j.port) 0x0708 [(2, j.tag), (4, j.input.length), (4, j.bits), (1, 0)]) ∧
        s.dev.GivesBuffer u.dev n a (j.bits - j.done) true) ∧
    (j.bits - j.done ≤ room → j.failed = true →
      ∃ u, Runs (.encodeReadFail n) s u ([.cdc] ++ dramParts) regs ∧ u.dev.encState n = 3 ∧
        u.dev.rd F.CD_ENCn_STAT_ERR n = 1 ∧ u.dev.raised.getLast? =
          some (s.dev.event (toWriter j.port) 0x0708 [(2, j.tag), (4, j.input.length), (4, j.bits), (1, 1)]) ∧
        s.dev.GivesBuffer u.dev n a (j.bits - j.done) true))

/-- A window read that a slice waits for, allowed by R31 and meeting nothing uncorrectable, puts the segment's stored pixels
into the slice and counts nothing; one that is refused or meets an uncorrectable granule zeroes the segment, its slice carries
LOST, and READ_LOST counts it; one that no slice waits for changes nothing; at the deadline every segment not returned is done
with zeros, its slice carries LATE, and READ_LATE counts each. Clauses rest on choices of the model where the spec leaves the
point open: log entry 17 (a window read after its deadline), log entry 58 (the window as a requester), log entry 59 (how
lateness is posted, and a line pair outside the page), log entry 63 (a refused window read), log entry 93 (an open choice). -/
def Obligations.WindowReads : Prop :=
  (∀ (en : Fin 2) (h : Fin 32) (row : Fin 2) (k : Fin 16) (pair : Bool) (x : Slice) (s : State),
    let m := if pair then s.dev.pairLine x.line else x.line
    let a := s.dev.slotAddr m + k * 1024
    (s.dev.las.slices.find? fun x => x.is en h row && x.segs.any fun g => decide (g.strip = k.val ∧ g.pair = pair) && !g.done) = some x →
    (s.dev.checkDram (s.dev.masterSecure en) a 1024 = .pass → s.dev.ReadsGood en a 1024 →
      ∃ u, Runs (.windowReadReturn en h row k pair) s u [.las, .drm] [] ∧ u.dev.las.slices.length = s.dev.las.slices.length ∧
        (∀ y ∈ u.dev.las.slices, y.is en h row = true → ∀ g ∈ y.segs, g.strip = k → g.pair = pair →
          g.done = true ∧ g.data = s.dev.bytes a 1024) ∧
        ∀ y ∈ u.dev.las.slices, y.is en h row = false → y ∈ s.dev.las.slices) ∧
    (s.dev.checkDram (s.dev.masterSecure en) a 1024 ≠ .pass ∨ (∃ g ∈ granules a 1024, s.dev.granuleBad g = true) →
      ∃ u, Runs (.windowReadReturn en h row k pair) s u [.las, .drm, .snapD, .tallies, .raised] dramRegs ∧
        u.dev.delta F.LA_COUNT_READ_LOST = s.dev.delta F.LA_COUNT_READ_LOST + 1 ∧
        ∀ y ∈ u.dev.las.slices, y.is en h row = true → y.lost = true ∧
          ∀ g ∈ y.segs, g.strip = k → g.pair = pair → g.done = true ∧ g.data = [])) ∧
  (∀ (en : Fin 2) (h : Fin 32) (row : Fin 2) (k : Fin 16) (pair : Bool) (s : State),
    (∀ x ∈ s.dev.las.slices, x.is en h row = true → ∀ g ∈ x.segs, g.strip = k → g.pair = pair → g.done = true) →
    Ignored (.windowReadReturn en h row k pair) s) ∧
  (∀ (s : State), let n := (s.dev.las.slices.flatMap fun x => x.segs.filter fun g => !g.done).length
    ∃ u, Runs .windowReadDeadline s u [.las, .cdc, .snapD, .raised, .onceKeys] [R.WT_PAGE.addr 0, R.SYS_FAULT_STAT.addr 0] ∧
      u.dev.las.slices.length = s.dev.las.slices.length ∧
      (∀ i, i < s.dev.las.slices.length → let x := s.dev.las.slices.getD i default; let y := u.dev.las.slices.getD i default
        (y.late = true ↔ x.late = true ∨ ∃ g ∈ x.segs, g.done = false) ∧ y.segs = x.segs.map fun g => { g with done := true }) ∧
      u.dev.delta F.LA_COUNT_READ_LATE = s.dev.delta F.LA_COUNT_READ_LATE + n)

/-- A write of LA_SHIFT or a COMMIT of the blend that is not refused, and an AUTO value that nozzle health has sent, show the
value written or sent and change the list of switches, LA_SHIFT, LA_SHIFT_STAT and the events alone; with WHEN NEXT_PAGE the
list then holds a change of that value with no switch point yet, a HOST change taking out the earlier ones with none; with
WHEN NEXT_LINE, fewer than 8 points open and no earlier change waiting, the change gets one past the highest line built as its
point, and no change of its field stays without a point or with one above; a blend write without COMMIT schedules nothing; an
AUTO value that nozzle health has not sent, or over a port not connected, changes nothing; ARM with none armed arms a host's
swatch in the beat in progress, in a write of 8 bytes or of the low 4, and otherwise the write changes the register only.
Clauses rest on choices of the model where the spec leaves the point open: log entry 53 (a change held for want of a switch
point), log entry 87 (when an AUTO value or the S0 count arrives), log entry 104 (D3hot stops requests alone), log entry 140
(what substitution needs). -/
def Obligations.ScheduledChanges : Prop :=
  (∀ (m : Master) (val : Nat) (s : State), s.Inv → s.dev.Takes m R.LA_SHIFT 0 →
    ∃ u, Runs (.shiftWrite m val) s u [.bus, .las, .raised] [R.LA_SHIFT.addr 0, R.LA_SHIFT_STAT.addr 0] ∧
      u.dev.rd F.LA_SHIFT_HOST = val % 2 ^ 11 ∧
      (val.testBit F.LA_SHIFT_WHEN.lo = false →
        (⟨.host (toSigned 11 val), false, s.dev.tmb.beats, false, none, false⟩ : Switch) ∈ u.dev.las.switches ∧
        ∀ w ∈ u.dev.las.switches, w.point = none → sameField w.what (.host 0) = true → w.what = .host (toSigned 11 val)) ∧
      (val.testBit F.LA_SHIFT_WHEN.lo = true → s.dev.GivesNextLine u.dev (.host (toSigned 11 val)))) ∧
  (∀ (v : Int) (rest : List Int) (s : State), s.Inv → s.dev.nzh.autoOut = v :: rest → s.dev.substFed = true → -1024 ≤ v → v ≤ 1023 →
    ∃ u, Runs (.autoUpdate v) s u [.las, .raised, .nzh] [R.LA_SHIFT_STAT.addr 0, R.LA_SHIFT.addr 0] ∧
      u.dev.nzh = { s.dev.nzh with autoOut := rest } ∧ u.dev.rd F.LA_SHIFT_STAT_AUTO = ofSigned 11 v ∧
      (s.dev.rd F.LA_SHIFT_AUTO_WHEN = 0 →
        (⟨.auto v, false, s.dev.tmb.beats, false, none, false⟩ : Switch) ∈ u.dev.las.switches) ∧
      (s.dev.rd F.LA_SHIFT_AUTO_WHEN = 1 → s.dev.GivesNextLine u.dev (.auto v))) ∧
  (∀ (v : Int) (s : State), s.dev.nzh.autoOut.head? ≠ some v ∨ s.dev.substFed = false → Ignored (.autoUpdate v) s) ∧
  (∀ (m : Master) (val : Nat) (s : State), s.Inv → s.dev.Takes m R.LA_BLEND_CTRL 0 →
    ∃ u, Runs (.blendCommit m val) s u [.bus, .las, .raised]
        [R.LA_BLEND_CTRL.addr 0, R.LA_SHIFT_STAT.addr 0, R.LA_SHIFT.addr 0] ∧
      u.dev.rd F.LA_BLEND_CTRL_MODE = val / 2 ^ F.LA_BLEND_CTRL_MODE.lo % 2 ∧
      (setsBit val 2 → val.testBit F.LA_BLEND_CTRL_WHEN.lo = false →
        (⟨.blend ⟨s.dev.rd F.LA_MARGIN_FIRST, s.dev.rd F.LA_MARGIN_LAST, val.testBit F.LA_BLEND_CTRL_MODE.lo, s.dev.maskShadow⟩,
          false, s.dev.tmb.beats, false, none, false⟩ : Switch) ∈ u.dev.las.switches) ∧
      (setsBit val 2 → val.testBit F.LA_BLEND_CTRL_WHEN.lo = true → s.dev.GivesNextLine u.dev
        (.blend ⟨s.dev.rd F.LA_MARGIN_FIRST, s.dev.rd F.LA_MARGIN_LAST, val.testBit F.LA_BLEND_CTRL_MODE.lo, s.dev.maskShadow⟩)) ∧
      (val.testBit 2 = false → u.dev.las = s.dev.las ∧ u.dev.raised = s.dev.raised)) ∧
  (∀ (m : Master) (val : Nat) (s : State), s.Inv → s.dev.Takes m R.LA_SWATCH 0 →
    ∃ u, Runs (.swatchArm m 8 val) s u [.bus, .las] [R.LA_SWATCH.addr 0] ∧
      u.dev.las = (if setsBit val 0 ∧ s.dev.las.armBeat = none then { s.dev.las with armBeat := some s.dev.tmb.beats, armNzh := false }
        else s.dev.las) ∧
      u.dev.rd F.LA_SWATCH_START = val / 2 ^ F.LA_SWATCH_START.lo % 2 ^ 24 ∧
      (setsBit val 0 → u.dev.rd F.LA_SWATCH_ARM = 1)) ∧
  (∀ (m : Master) (val : Nat) (s : State), s.Inv → s.dev.Takes m R.LA_SWATCH 0 → setsBit val 0 → s.dev.las.armBeat = none →
    ∃ u, Runs (.swatchArm m 4 val) s u [.bus, .las] [R.LA_SWATCH.addr 0] ∧
      u.dev.las = { s.dev.las with armBeat := some s.dev.tmb.beats, armNzh := false } ∧ u.dev.rd F.LA_SWATCH_ARM = 1 ∧
      u.dev.rd F.LA_SWATCH_START = s.dev.rd F.LA_SWATCH_START)

/-- Whatever the environment does to it, an engine whose slice has arrived counts LINES, removes the slice and hands over a
line of 2,048 codes with the slice's LINE# and flags. Healthy and with a crossing three beats ahead, the line is good, has the
slice's crossing time, and no check fails; a slice that answers another crossing, or one not three beats ahead, fails one
check of R170, and a line changed in transfer fails the CRC word at its stage: the line is not good and the failure counts
once. With no slice arrived nothing changes. Clauses rest on choices of the model where the spec leaves the point open: log
entry 69 (what the CRC word of a line covers), log entry 165 (one failure for a line). -/
def Obligations.LineBuilt : Prop :=
  (∀ (en : Fin 2) (h : Fin 32) (row : Fin 2) (flt : LineFault) (x : Slice) (s : State),
    (s.dev.las.slices.find? fun x => x.is en h row && x.segs.all fun g => g.done) = some x →
    ∃ u, Runs (.lineBuild en h row flt) s u [.las, .pace, .snapD, .tallies, .raised, .onceKeys] [R.PE_STAT.addr en, R.SYS_FAULT_STAT.addr 0] ∧
      u.dev.las = { s.dev.las with slices := s.dev.las.slices.filter fun t => !t.is en h row } ∧
      u.dev.delta F.PE_COUNT_LINES en = s.dev.delta F.PE_COUNT_LINES en + 1 ∧ u.dev.pace.built = true ∧
      ∃ l, u.dev.pace.handed = s.dev.pace.handed ++ [l] ∧ l.en = en.val ∧ l.head = h.val ∧ l.row = row.val ∧ l.line = x.line ∧
        l.late = x.late ∧ l.lost = x.lost ∧ l.out = x.out ∧ l.codes.length = 2048) ∧
  (∀ (en : Fin 2) (h : Fin 32) (row : Fin 2) (x : Slice) (s : State),
    (s.dev.las.slices.find? fun x => x.is en h row && x.segs.all fun g => g.done) = some x → x.q / 16000 = s.dev.beat + 3 →
    ∃ u, Runs (.lineBuild en h row .none) s u [.las, .pace, .snapD, .tallies] [] ∧
      u.dev.fails en = s.dev.fails en ∧
      ∃ l, u.dev.pace.handed = s.dev.pace.handed ++ [l] ∧ l.good = true ∧ l.q = x.q ∧ l.codes.all (codeOk l.fine) = true) ∧
  (∀ (en : Fin 2) (h : Fin 32) (row : Fin 2) (flt : LineFault) (x : Slice) (s : State),
    (s.dev.las.slices.find? fun x => x.is en h row && x.segs.all fun g => g.done) = some x →
    (flt = .none ∧ x.q / 16000 ≠ s.dev.beat + 3) ∨ (∃ (h' : Fin 32) (row' : Fin 2) (n : Int), flt = .answer h' row' n ∧ n ≠ x.line) →
    ∃ u, exec (.lineBuild en h row flt) s = .next u ∧
      u.dev.delta F.PE_COUNT_CHECK_FAIL en = s.dev.delta F.PE_COUNT_CHECK_FAIL en + 1 ∧ u.dev.fails en = s.dev.fails en + 1 ∧
      ∃ l, u.dev.pace.handed = s.dev.pace.handed ++ [l] ∧ l.good = false) ∧
  (∀ (en : Fin 2) (h : Fin 32) (row : Fin 2) (x : Slice) (s : State),
    (s.dev.las.slices.find? fun x => x.is en h row && x.segs.all fun g => g.done) = some x →
    ∃ u, exec (.lineBuild en h row .transfer) s = .next u ∧ u.dev.fails en = s.dev.fails en + 1 ∧
      u.dev.delta (if en = 0 then F.HL_ARB_COUNT_STAGE_CRC_A else F.HL_ARB_COUNT_STAGE_CRC_B) =
        s.dev.delta (if en = 0 then F.HL_ARB_COUNT_STAGE_CRC_A else F.HL_ARB_COUNT_STAGE_CRC_B) + 1 ∧
      ∃ l, u.dev.pace.handed = s.dev.pace.handed ++ [l] ∧ l.good = false) ∧
  (∀ (en : Fin 2) (h : Fin 32) (row : Fin 2) (flt : LineFault) (s : State),
    (∀ x ∈ s.dev.las.slices, x.is en h row = true → ∃ g ∈ x.segs, g.done = false) → Ignored (.lineBuild en h row flt) s)

/-- A 32-bit write of a word of the history map or the trim table, or of PE_SPIT or PE_HIST_CFG, through either engine's
window leaves the same value in both copies; COMMIT of the trim table shows PENDING in both windows, and a write of
PE_TRIM_CTRL without it changes no register. Clauses rest on choices of the model where the spec leaves the point open: log
entry 104 (D3hot stops requests alone), log entry 168 (the address that a violation carries). -/
def Obligations.SharedTables : Prop :=
  (∀ (m : Master) (r : Reg) (n i val : Nat) (s : State), s.Inv → (r = R.PE_HIST_MAP ∧ n = 32) ∨ (r = R.PE_TRIM ∧ n = 16384) →
    i < 2 * n → s.dev.Takes m r i →
    ∃ u, Runs (.peSharedWrite m (regSpace + r.addr i) 4 val) s u [.bus] [r.addr i, r.addr (otherCopy n i)] ∧
      u.dev.reg r i = val % 2 ^ 32 ∧ u.dev.reg r (otherCopy n i) = val % 2 ^ 32) ∧
  (∀ (m : Master) (en : Fin 2) (val : Nat) (s : State), s.Inv →
    (s.dev.Takes m R.PE_SPIT en →
      ∃ u, Runs (.peSharedWrite m (regSpace + R.PE_SPIT.addr en) 4 val) s u [.bus] [R.PE_SPIT.addr 0, R.PE_SPIT.addr 1] ∧
        ∀ k, k < 2 → u.dev.rd F.PE_SPIT_ENABLE k = val % 2 ∧ u.dev.rd F.PE_SPIT_SIZE k = max 1 (val / 2 % 4) ∧
          u.dev.rd F.PE_SPIT_PERIOD k = max 2 (val / 2 ^ 16 % 2 ^ 16)) ∧
    (s.dev.Takes m R.PE_HIST_CFG en →
      ∃ u, Runs (.peSharedWrite m (regSpace + R.PE_HIST_CFG.addr en) 4 val) s u [.bus] [R.PE_HIST_CFG.addr 0, R.PE_HIST_CFG.addr 1] ∧
        ∀ k, k < 2 → u.dev.rd F.PE_HIST_CFG_IDLE_BEATS k = max 1 (val % 2 ^ 16) ∧
          u.dev.rd F.PE_HIST_CFG_HIST_EN k = val / 2 ^ 16 % 2) ∧
    (s.dev.Takes m R.PE_TRIM_CTRL en →
      ∃ u, Runs (.trimCommit m en val) s u [.bus] (if setsBit val 0 then [R.PE_TRIM_CTRL.addr 0, R.PE_TRIM_CTRL.addr 1] else []) ∧
        ∀ k, k < 2 → setsBit val 0 → u.dev.rd F.PE_TRIM_CTRL_PENDING k = 1))

/-- A write of a nonzero CLAIM sets it; a write of 0 drops it with cause 4, an uncorrectable SRAM error with cause 3, and
FAIL_LIMIT check failures within 1,024 beats with cause 2: the claim reads 0, DROPPED 1, and CLAIM_DROPPED is posted; fewer
failures change nothing; once dropped neither a write nor an error changes it. Clauses rest on choices of the model where the
spec leaves the point open: log entry 104 (D3hot stops requests alone). -/
def Obligations.Claims : Prop :=
  ∀ (m : Master) (en : Fin 2) (val : Nat) (s : State), s.Inv →
    (s.dev.Takes m R.PE_CLAIM en → s.dev.rd F.PE_CLAIM_DROPPED en = 1 →
      ∃ u, Runs (.claimWrite m en val) s u [.bus] []) ∧
    (s.dev.Takes m R.PE_CLAIM en → s.dev.rd F.PE_CLAIM_DROPPED en = 0 → val % 256 ≠ 0 →
      ∃ u, Runs (.claimWrite m en val) s u [.bus] [R.PE_CLAIM.addr en] ∧ u.dev.rd F.PE_CLAIM_CLAIM en = val % 256 ∧
        u.dev.rd F.PE_CLAIM_DROPPED en = 0) ∧
    (s.dev.Takes m R.PE_CLAIM en → s.dev.rd F.PE_CLAIM_DROPPED en = 0 → val % 256 = 0 →
      ∃ u, Runs (.claimWrite m en val) s u [.bus, .raised] [R.PE_CLAIM.addr en] ∧ u.dev.rd F.PE_CLAIM_CLAIM en = 0 ∧
        u.dev.rd F.PE_CLAIM_DROPPED en = 1 ∧ u.dev.rd F.PE_CLAIM_CAUSE en = 4 ∧
        u.dev.raised = s.dev.raised ++ [s.dev.event .secure (0x0903 + 0x100 * en) [(1, 4)]]) ∧
    (s.dev.rd F.PE_CLAIM_DROPPED en = 0 →
      ∃ u, Runs (.engineSramError en) s u [.raised] [R.PE_CLAIM.addr en] ∧ u.dev.rd F.PE_CLAIM_CLAIM en = 0 ∧
        u.dev.rd F.PE_CLAIM_DROPPED en = 1 ∧ u.dev.rd F.PE_CLAIM_CAUSE en = 3 ∧
        u.dev.raised = s.dev.raised ++ [s.dev.event .secure (0x0903 + 0x100 * en) [(1, 3)]]) ∧
    (s.dev.rd F.PE_CHECK_CFG_FAIL_LIMIT en ≤ s.dev.fails en → s.dev.rd F.PE_CLAIM_DROPPED en = 0 →
      ∃ u, Runs (.engineFailRate en) s u [.raised] [R.PE_CLAIM.addr en] ∧ u.dev.rd F.PE_CLAIM_CLAIM en = 0 ∧
        u.dev.rd F.PE_CLAIM_DROPPED en = 1 ∧ u.dev.rd F.PE_CLAIM_CAUSE en = 2 ∧
        u.dev.raised = s.dev.raised ++ [s.dev.event .secure (0x0903 + 0x100 * en) [(1, 2)]]) ∧
    (s.dev.fails en < s.dev.rd F.PE_CHECK_CFG_FAIL_LIMIT en ∨ s.dev.rd F.PE_CLAIM_DROPPED en = 1 → Ignored (.engineFailRate en) s) ∧
    (s.dev.rd F.PE_CLAIM_DROPPED en = 1 → Ignored (.engineSramError en) s)

/-- FIRE_INHIBITn going low, or INHIBIT written 1, asserts the inhibit, shows ACTIVE and posts FIRE_INHIBITED with the instant
and its cause; the pin going high, or INHIBIT written 0, ends it when nothing else holds it and posts FIRE_RELEASED, and
otherwise shows in the register alone; a head that cast-on has started and that sends no report for TIMEOUT is noted as
overdue, nothing else, and at the next beat boundary, without a report, it goes HOT with cause STALE and counts a trip.
Clauses rest on choices of the model where the spec leaves the point open: log entry 12 (PIN at reset), log entry 50 (what
makes a page suspect), log entry 54 (the instants of the inhibit), log entry 70 (HEAD_TEMP_STALE), log entry 71 (clearance
without crossings), log entry 72 (the accepted level of the inhibit pin at a reset), log entry 104 (D3hot stops requests
alone). -/
def Obligations.InhibitAndStaleHeads : Prop :=
  (∀ (t : Nat) (s : State), s.Inv → s.dev.pace.inhibit = false →
    ∃ u, Runs (.fireInhibitnChange false t) s u [.pace, .out, .cdc, .raised] [R.HL_INHIBIT_CTRL.addr 0, R.WT_PAGE.addr 0, R.SYS_FAULT_STAT.addr 0] ∧
      u.dev.pace = { s.dev.pace with inhibit := true, order := true, released := none, floor := none } ∧
      u.dev.rd F.HL_INHIBIT_CTRL_PIN = 1 ∧ u.dev.rd F.HL_INHIBIT_CTRL_ACTIVE = 1 ∧
      u.dev.raised = s.dev.raised ++ [s.dev.event .secure 0x0B53 [(8, t), (1, 0)]]) ∧
  (∀ (t : Nat) (s : State), s.Inv → s.dev.pace.inhibit = true → s.dev.rd F.HL_INHIBIT_CTRL_INHIBIT = 0 →
    s.dev.pace.resetInhibit = false →
    ∃ u, Runs (.fireInhibitnChange true t) s u [.pace, .raised] [R.HL_INHIBIT_CTRL.addr 0] ∧
      u.dev.pace = { s.dev.pace with inhibit := false, released := some t, freed := some t } ∧ u.dev.rd F.HL_INHIBIT_CTRL_PIN = 0 ∧
      u.dev.raised = s.dev.raised ++ [s.dev.event .secure 0x0B54 [(8, t)]]) ∧
  (∀ (level : Bool) (t : Nat) (s : State), s.Inv →
    (if level then s.dev.pace.inhibit = false ∨ s.dev.rd F.HL_INHIBIT_CTRL_INHIBIT = 1 ∨ s.dev.pace.resetInhibit = true
      else s.dev.pace.inhibit = true) →
    ∃ u, Runs (.fireInhibitnChange level t) s u [] [R.HL_INHIBIT_CTRL.addr 0] ∧ u.dev.rd F.HL_INHIBIT_CTRL_PIN = if level then 0 else 1) ∧
  (∀ (m : Master) (val : Nat) (s : State), s.Inv → s.dev.Takes m R.HL_INHIBIT_CTRL 0 →
    (setsBit val 0 → s.dev.pace.inhibit = false →
      ∃ u, Runs (.inhibitWrite m val) s u [.bus, .pace, .out, .cdc, .raised] [R.HL_INHIBIT_CTRL.addr 0, R.WT_PAGE.addr 0, R.SYS_FAULT_STAT.addr 0] ∧
        u.dev.pace = { s.dev.pace with inhibit := true, order := true, released := none, floor := none } ∧
        u.dev.rd F.HL_INHIBIT_CTRL_INHIBIT = 1 ∧ u.dev.rd F.HL_INHIBIT_CTRL_RESUME = val / 2 % 2 ∧
        u.dev.raised = s.dev.raised ++ [s.dev.event .secure 0x0B53 [(8, s.dev.now), (1, 1)]]) ∧
    (¬ setsBit val 0 → s.dev.pace.inhibit = true → s.dev.rd F.HL_INHIBIT_CTRL_PIN = 0 → s.dev.pace.resetInhibit = false →
      ∃ u, Runs (.inhibitWrite m val) s u [.bus, .pace, .raised] [R.HL_INHIBIT_CTRL.addr 0] ∧
        u.dev.pace = { s.dev.pace with inhibit := false, released := some s.dev.now, freed := some s.dev.now } ∧
        u.dev.raised = s.dev.raised ++ [s.dev.event .secure 0x0B54 [(8, s.dev.now)]]) ∧
    ((if setsBit val 0 then s.dev.pace.inhibit = true
        else s.dev.pace.inhibit = false ∨ s.dev.rd F.HL_INHIBIT_CTRL_PIN = 1 ∨ s.dev.pace.resetInhibit = true) →
      ∃ u, Runs (.inhibitWrite m val) s u [.bus] [R.HL_INHIBIT_CTRL.addr 0] ∧ u.dev.rd F.HL_INHIBIT_CTRL_INHIBIT = val % 2 ∧
        u.dev.rd F.HL_INHIBIT_CTRL_RESUME = val / 2 % 2)) ∧
  (∀ (h : Fin 32) (s : State), s.Inv →
    (h < s.dev.headCount → (s.dev.headTemp h).live = true →
      ∃ u, Runs (.headTempStale h) s u [.pace] [] ∧
        u.dev.pace = { s.dev.pace with temps := s.dev.pace.temps.set h { s.dev.headTemp h with fresh := false, overdue := true } }) ∧
    (s.dev.headCount ≤ h ∨ (s.dev.headTemp h).live = false → Ignored (.headTempStale h) s)) ∧
  (∀ (h : Fin 32) (cs : List Crossing) (s : State), s.Inv → (s.dev.headTemp h).live = true → (s.dev.headTemp h).overdue = true →
    (s.dev.headTemp h).report = none → s.dev.rd F.HL_TEMP_STAT_STATE h ≠ 2 → let e := s.dev.headTempUpdate cs h
    s.dev.Keeps e [.pace, .raised] ∧ s.dev.KeepsRegs e [R.HL_TEMP_STAT.addr h] ∧ e.rd F.HL_TEMP_STAT_STATE h = 2 ∧
      e.rd F.HL_TEMP_STAT_STALE h = 1 ∧ e.rd F.HL_TEMP_STAT_TRIPS h = F.HL_TEMP_STAT_TRIPS.sum (s.dev.rd F.HL_TEMP_STAT_TRIPS h) 1 ∧
      e.raised = s.dev.raised ++ [s.dev.event .secure 0x0B42 [(1, h), (2, s.dev.rd F.HL_TEMP_STAT_TEMP h), (1, 1)]])

/-- On an ACTIVE link that is awake a due BEACON goes first, then the earliest line that can start in time, then FIRE_ADJ, a
waiting AUTH, and the granted request; a line that cannot start in time counts as late; on any other link nothing goes. A
write of HL_FIRE_ADJ clamps both rows to plus and minus 8,000 and makes the frame due; a STATUS of an ACTIVE link shows its
counts and flags and counts new CRC errors; sixteen rejected samples empty the estimator, end service and post DELAY_RESTART;
a bad upstream frame counts in ACTIVE and TEST. Elsewhere each of these changes nothing. Clauses rest on choices of the model
where the spec leaves the point open: log entry 50 (what makes a page suspect), log entry 75 (the delay limit), log entry 76
(a delay outside its field), log entry 78 (how counts of STATUS increase), log entry 104 (D3hot stops requests alone). -/
def Obligations.LinkFrames : Prop :=
  (∀ (l : Fin 32) (t : Nat) (s : State), s.Inv →
    (∃ u, Runs (.frameTxDone l t) s u [.hl, .out, .pace, .snapD, .cdc, .tallies, .unauth]
      [R.WT_PAGE.addr 0, R.SYS_FAULT_STAT.addr 0, R.VLT_HEAD_PENDING.addr l]) ∧
    (s.dev.linkState l ≠ 5 ∨ s.dev.rd F.HL_STAT_DN_ASLEEP l = 1 → Ignored (.frameTxDone l t) s)) ∧
  (∀ (l : Fin 32) (t : Nat) (s : State), s.Inv → s.dev.linkState l = 5 → s.dev.rd F.HL_STAT_DN_ASLEEP l = 0 →
    ((s.dev.link l).beaconDue = true →
      ∃ u, Runs (.frameTxDone l t) s u [.hl, .out] [] ∧ (u.dev.link l).beaconDue = false ∧
        (u.dev.link l).seq = ((s.dev.link l).seq + 1) % 256 ∧
        ∃ bs, u.dev.out = s.dev.out ++ [.frame l t bs] ∧ bs[0]? = some 3) ∧
    (∀ x xs, (s.dev.link l).beaconDue = false → s.dev.waitingLines l = x :: xs → s.dev.inTime l t x = true →
      ∃ u, Runs (.frameTxDone l t) s u [.hl, .pace, .out] [] ∧ (u.dev.link l).seq = ((s.dev.link l).seq + 1) % 256 ∧
        ∃ bs, u.dev.out = s.dev.out ++ [.frame l t bs] ∧ bs[0]? = some 1) ∧
    (∀ x xs, (s.dev.link l).beaconDue = false → s.dev.waitingLines l = x :: xs → s.dev.inTime l t x = false →
      ∃ u, exec (.frameTxDone l t) s = .next u ∧ s.dev.delta F.HL_COUNT_TX_LATE l + 1 ≤ u.dev.delta F.HL_COUNT_TX_LATE l) ∧
    ((s.dev.link l).beaconDue = false → s.dev.waitingLines l = [] →
      ((s.dev.link l).adjDue = true →
        ∃ u, Runs (.frameTxDone l t) s u [.hl, .out] [] ∧ (u.dev.link l).adjDue = false ∧
          ∃ bs, u.dev.out = s.dev.out ++ [.frame l t bs] ∧ bs[0]? = some 2) ∧
      (∀ a, (s.dev.link l).adjDue = false → (s.dev.link l).auth = some a → a.waiting = true →
        ∃ u, Runs (.frameTxDone l t) s u [.hl, .out] [] ∧ (u.dev.link l).auth = some { a with waiting := false } ∧
          ∃ bs, u.dev.out = s.dev.out ++ [.frame l t bs] ∧ bs[0]? = some 6) ∧
      (∀ (p : Fin 3) (r : MgReq), (s.dev.link l).adjDue = false → (s.dev.link l).auth = none → (s.dev.link l).grant = some p.val →
        s.dev.req l p = some r → r.sent = false →
        ∃ u, Runs (.frameTxDone l t) s u [.hl, .out] [] ∧ u.dev.req l p = some { r with sent := true } ∧
          ∃ bs, u.dev.out = s.dev.out ++ [.frame l t bs] ∧ bs[0]? = some 4))) ∧
  (∀ (m : Master) (l : Fin 32) (val : Nat) (s : State), s.Inv → s.dev.Takes m R.HL_FIRE_ADJ l →
    ∃ u, Runs (.hlFireAdjWrite m l val) s u [.bus, .hl] [R.HL_FIRE_ADJ.addr l] ∧
      u.dev.hl = s.dev.hl.set l { s.dev.link l with adjDue := true } ∧
      u.dev.rdS F.HL_FIRE_ADJ_ROW_A l = clampInt (-8000) 8000 (toSigned 16 val) ∧
      u.dev.rdS F.HL_FIRE_ADJ_ROW_B l = clampInt (-8000) 8000 (toSigned 16 (val / 2 ^ 16))) ∧
  (∀ (l : Fin 32) (st : StatusFrame) (t4 : Nat) (s : State), s.Inv →
    (s.dev.linkState l = 5 →
      ∃ u, Runs (.statusRx l st t4) s u [.hl, .pace, .snapD, .raised, .cdc, .freeCtr, .unauth, .vlt]
          (serviceRegs l ++ [R.HL_HEAD_COUNT.addr l, R.WT_PAGE.addr 0, R.SYS_FAULT_STAT.addr 0]) ∧
        u.dev.rd F.HL_HEAD_COUNT_FIRED l = st.fired.toNat ∧ u.dev.rd F.HL_HEAD_COUNT_DISCARDED l = st.discarded.toNat ∧
        u.dev.rd F.HL_STAT_HEAD_FLAGS l = st.flags.toNat ∧ (u.dev.link l).stepsSeen = st.stepsSeen.toNat ∧
        u.dev.delta F.HL_COUNT_CRC_DN l = s.dev.delta F.HL_COUNT_CRC_DN l + increase (s.dev.link l).lastCrc st.crcErrs.toNat) ∧
    (s.dev.linkState l ≠ 5 → Ignored (.statusRx l st t4) s)) ∧
  (∀ (l : Fin 32) (s : State), s.Inv →
    (16 ≤ (s.dev.link l).rejects →
      ∃ u, Runs (.delayRestart l) s u [.hl, .pace, .snapD, .raised, .freeCtr, .unauth, .vlt] (serviceRegs l) ∧
        (u.dev.link l).samples = [] ∧ (u.dev.link l).rejects = 0 ∧
        u.dev.rd F.HL_DELAY_ACCEPTED l = 0 ∧ u.dev.rd F.HL_STAT_IN_SERVICE l = 0 ∧
        u.dev.raised = s.dev.raised ++ [s.dev.event .secure 0x0B09 [(1, l)]]) ∧
    ((s.dev.link l).rejects < 16 → Ignored (.delayRestart l) s)) ∧
  (∀ (l : Fin 32) (s : State), s.Inv →
    (s.dev.linkState l = 5 ∨ s.dev.linkState l = 8 →
      ∃ u, Runs (.upstreamFrameBad l) s u [.hl, .snapD] [] ∧
        u.dev.delta F.HL_COUNT_CRC_UP l = s.dev.delta F.HL_COUNT_CRC_UP l + 1 ∧
        u.dev.hl = s.dev.hl.set l { s.dev.link l with crcBeats := s.dev.tmb.beats :: (s.dev.link l).crcBeats }) ∧
    (s.dev.linkState l ≠ 5 → s.dev.linkState l ≠ 8 → Ignored (.upstreamFrameBad l) s))

/-- GO on an UP link shows BUSY and queues the request with the next TAG, and on a link that is not UP ends at once with
RESULT 5; a write while BUSY without CANCEL, or by another port, changes no register; CANCEL withdraws a request not sent with
RESULT 6 and marks one that was sent; a read answer with the request's TAG puts its words into the mailbox; an answer or a
timeout ends a host's request with BUSY 0, DONE 1, its RESULT (6 once cancelled) and MGMT_DONE to its port, and an answer with
another TAG, or of the other kind, changes nothing; a timeout of the device's own request fails the checks; checks that end
well put a ready link into service, ones that end badly outside cast-on show CAUSE 14 and post the failure. Clauses rest on
choices of the model where the spec leaves the point open: log entry 75 (the delay limit), log entry 79 (how a request ends,
and writes while BUSY), log entry 104 (D3hot stops requests alone), log entry 108 (which port may write a register, and the
world of a port before a Pattern). -/
def Obligations.ManagementChannel : Prop :=
  (∀ (m : Master) (l : Fin 32) (p : Fin 2) (val : Nat) (s : State), s.Inv → s.dev.Takes m R.HL_MGMT_CMD (boxIdx l p) →
    (portOf m = some p → s.dev.rd F.HL_MGMT_STAT_BUSY (boxIdx l p) = 0 → setsBit val 32 →
      (s.dev.linkUp l = true →
        ∃ u, Runs (.mgmtGo m l p val) s u [.bus, .hl] [R.HL_MGMT_CMD.addr (boxIdx l p), R.HL_MGMT_STAT.addr (boxIdx l p)] ∧
          u.dev.rd F.HL_MGMT_STAT_BUSY (boxIdx l p) = 1 ∧
          ∃ r, u.dev.req l p = some r ∧ r.sent = false ∧ r.cancelled = false ∧ r.tag = ((s.dev.link l).tag + 1) % 256 ∧
            r.addr = val % 2 ^ 16 ∧ r.count = clampNat 1 8 (val / 2 ^ 16 % 16) ∧ r.write = val.testBit 20) ∧
      (s.dev.linkUp l = false →
        ∃ u, Runs (.mgmtGo m l p val) s u [.bus, .raised] [R.HL_MGMT_CMD.addr (boxIdx l p), R.HL_MGMT_STAT.addr (boxIdx l p)] ∧
          u.dev.rd F.HL_MGMT_STAT_DONE (boxIdx l p) = 1 ∧ u.dev.rd F.HL_MGMT_STAT_RESULT (boxIdx l p) = 5)) ∧
    (portOf m ≠ some p ∨ (s.dev.rd F.HL_MGMT_STAT_BUSY (boxIdx l p) = 1 ∧ val.testBit 33 = false) →
      ∃ u, Runs (.mgmtGo m l p val) s u [.bus] []) ∧
    (portOf m = some p → s.dev.rd F.HL_MGMT_STAT_BUSY (boxIdx l p) = 0 → val.testBit 32 = false →
      ∃ u, Runs (.mgmtGo m l p val) s u [.bus] [R.HL_MGMT_CMD.addr (boxIdx l p)])) ∧
  (∀ (m : Master) (l : Fin 32) (p : Fin 2) (s : State), s.Inv → s.dev.Takes m R.HL_MGMT_CMD (boxIdx l p) →
    (∀ r : MgReq, portOf m = some p → s.dev.rd F.HL_MGMT_STAT_BUSY (boxIdx l p) = 1 → s.dev.req l p = some r →
      (r.sent = true → ∃ u, Runs (.mgmtCancel m l p) s u [.bus, .hl] [] ∧ u.dev.req l p = some { r with cancelled := true }) ∧
      (r.sent = false → ∃ u, Runs (.mgmtCancel m l p) s u [.bus, .hl, .raised] [R.HL_MGMT_STAT.addr (boxIdx l p)] ∧
        u.dev.req l p = none ∧ u.dev.rd F.HL_MGMT_STAT_BUSY (boxIdx l p) = 0 ∧ u.dev.rd F.HL_MGMT_STAT_RESULT (boxIdx l p) = 6)) ∧
    (portOf m ≠ some p ∨ s.dev.rd F.HL_MGMT_STAT_BUSY (boxIdx l p) = 0 →
      ∃ u, Runs (.mgmtCancel m l p) s u [.bus] [R.HL_MGMT_CMD.addr (boxIdx l p)])) ∧
  (∀ (l : Fin 32) (p : Fin 2) (r : MgReq) (result : Nat) (s : State), s.Inv → (s.dev.link l).grant = some p.val →
    s.dev.req l p = some r → r.sent = true → let shown := if r.cancelled then 6 else result
    (∀ data : List (BitVec 32), r.write = false → r.count ≤ 8 →
      ∃ u, Runs (.mgmtReadRespRx l r.tag result data) s u [.hl, .raised]
          (R.HL_MGMT_STAT.addr (boxIdx l p) :: (List.range 8).map fun k => R.HL_MGMT_DATA.addr (boxIdx l p * 8 + k)) ∧
        u.dev.req l p = none ∧
        (∀ k (hk : k < data.length), k < r.count → r.cancelled = false → result = 0 →
          u.dev.rd F.HL_MGMT_DATA_DATA (boxIdx l p * 8 + k) = data[k].toNat) ∧
        u.dev.rd F.HL_MGMT_STAT_BUSY (boxIdx l p) = 0 ∧ u.dev.rd F.HL_MGMT_STAT_DONE (boxIdx l p) = 1 ∧
        u.dev.rd F.HL_MGMT_STAT_RESULT (boxIdx l p) = shown % 16 ∧
        u.dev.raised = s.dev.raised ++ [s.dev.event (.port p) 0x0B08 [(1, l), (1, p), (1, shown), (2, r.tag)]]) ∧
    (r.write = true →
      ∃ u, Runs (.mgmtWriteRespRx l r.tag result) s u [.hl, .raised] [R.HL_MGMT_STAT.addr (boxIdx l p)] ∧ u.dev.req l p = none ∧
        u.dev.rd F.HL_MGMT_STAT_BUSY (boxIdx l p) = 0 ∧ u.dev.rd F.HL_MGMT_STAT_DONE (boxIdx l p) = 1 ∧
        u.dev.rd F.HL_MGMT_STAT_RESULT (boxIdx l p) = shown % 16 ∧
        u.dev.raised = s.dev.raised ++ [s.dev.event (.port p) 0x0B08 [(1, l), (1, p), (1, shown), (2, r.tag)]]) ∧
    (let ended := if r.cancelled then 6 else 4
      ∃ u, Runs (.mgmtTimeout l) s u [.hl, .raised] [R.HL_MGMT_STAT.addr (boxIdx l p)] ∧ u.dev.req l p = none ∧
        u.dev.rd F.HL_MGMT_STAT_BUSY (boxIdx l p) = 0 ∧ u.dev.rd F.HL_MGMT_STAT_DONE (boxIdx l p) = 1 ∧
        u.dev.rd F.HL_MGMT_STAT_RESULT (boxIdx l p) = ended ∧
        u.dev.raised = s.dev.raised ++ [s.dev.event (.port p) 0x0B08 [(1, l), (1, p), (1, ended), (2, r.tag)]]) ∧
    (∀ (tag : Nat) (data : List (BitVec 32)), tag ≠ r.tag ∨ r.write = true → Ignored (.mgmtReadRespRx l tag result data) s) ∧
    (∀ tag : Nat, tag ≠ r.tag ∨ r.write = false → Ignored (.mgmtWriteRespRx l tag result) s)) ∧
  (∀ (l : Fin 32) (r : MgReq) (c : HeadCheck) (s : State), s.Inv → (s.dev.link l).grant = some 2 → s.dev.req l 2 = some r →
    r.sent = true → (s.dev.link l).check = some c →
    ∃ u, Runs (.mgmtTimeout l) s u [.hl] [] ∧ (u.dev.link l).check = some { c with phase := 5, fail := 3 } ∧ u.dev.req l 2 = none) ∧
  (∀ (l : Fin 32) (c : HeadCheck) (s : State), s.Inv → (s.dev.link l).check = some c → c.phase = 5 →
    (∃ u, Runs (.headCheckDone l) s u [.hl, .pace, .snapD, .unauth, .vlt, .freeCtr, .raised] (serviceRegs l) ∧
      (u.dev.link l).check = none ∧ (u.dev.link l).checked = decide (c.fail = 0)) ∧
    (c.fail = 0 → s.dev.linkUp l = true → s.dev.delayOk l = true → s.dev.rd F.HL_STAT_IN_SERVICE l = 0 →
      ∃ u, Runs (.headCheckDone l) s u [.hl] [R.HL_STAT.addr l] ∧
        u.dev.hl = s.dev.hl.set l { s.dev.link l with check := none, checked := true, adjDue := true } ∧ u.dev.rd F.HL_STAT_IN_SERVICE l = 1) ∧
    (c.fail ≠ 0 →
      ∃ u, exec (.headCheckDone l) s = .next u ∧ u.dev.rd F.HL_STAT_IN_SERVICE l = 0 ∧
        (s.dev.sys.castOn = false → u.dev.rd F.HL_STAT_CAUSE l = 14 ∧
          u.dev.raised = s.dev.raised ++ [s.dev.event .secure 0x0B0A [(1, l), (1, c.fail)]]))) ∧
  (∀ (l : Fin 32) (s : State), (match (s.dev.link l).check with | some c => c.phase ≠ 5 | none => True) → Ignored (.headCheckDone l) s)

/-- Head wake bursts, a lost lock while awake, lost STATUS frames, a high CRC error rate and a wake that does not relock each
send an ACTIVE link to RECOVERY with their cause, count RECOVERIES, end UP and service and post LINK_RECOVERY; on a link that
is not ACTIVE they change nothing but the noted lock, and a DISABLED link notes no lock either. In WAKE and RECOVERY the
head's bursts at an allowed generation start ALIGN, one below GEN_MIN fails the attempt, one above the asked generation is
ignored; both ends locked in ALIGN start EQ; in EQ a new request of the head is answered; a training state's limit fails the
attempt with the state's cause, and a failed attempt begins the next, at a lower generation after the third, or takes the link
DOWN. Clauses rest on choices of the model where the spec leaves the point open: log entry 46 (what a pending authentication
leaves in force), log entry 73 (what the training commands name), log entry 74 (the walk of equalisation), log entry 75 (the
delay limit), log entry 77 (STATE while waking, and LINK_FALLBACK). -/
def Obligations.LinkRecovery : Prop :=
  (∀ (l : Fin 32) (s : State), s.Inv → s.dev.linkState l = 5 →
    (∀ gen : Nat, ∃ u, Runs (.headBurstDetect l gen) s u trainParts (trainRegs l) ∧ s.dev.Recovers u.dev l 13) ∧
    (s.dev.rd F.HL_STAT_UP_ASLEEP l = 0 → ∃ u, Runs (.rxLockLost l) s u trainParts (trainRegs l) ∧ s.dev.Recovers u.dev l 10) ∧
    (∃ u, Runs (.statusLost l) s u trainParts (trainRegs l) ∧ s.dev.Recovers u.dev l 12) ∧
    (s.dev.rd F.HL_GLOBAL_CFG_ERR_LIMIT ≤ (s.dev.link l).crcBeats.length →
      ∃ u, Runs (.crcRate l) s u trainParts (trainRegs l) ∧ s.dev.Recovers u.dev l 11) ∧
    ((s.dev.link l).rxLock = false → ∃ u, Runs (.wakeRelockTimeout l) s u trainParts (trainRegs l) ∧ s.dev.Recovers u.dev l 10)) ∧
  (∀ (l : Fin 32) (s : State), s.Inv →
    (s.dev.linkState l ≠ 5 → Ignored (.statusLost l) s ∧ Ignored (.crcRate l) s ∧ Ignored (.wakeRelockTimeout l) s) ∧
    ((s.dev.link l).crcBeats.length < s.dev.rd F.HL_GLOBAL_CFG_ERR_LIMIT → Ignored (.crcRate l) s) ∧
    ((s.dev.link l).rxLock = true → Ignored (.wakeRelockTimeout l) s) ∧
    (s.dev.linkState l = 0 → Ignored (.rxLockLost l) s ∧ Ignored (.rxLockAcquired l) s) ∧
    (s.dev.linkState l ≠ 0 → s.dev.linkState l ≠ 5 ∨ s.dev.rd F.HL_STAT_UP_ASLEEP l = 1 →
      ∃ u, Runs (.rxLockLost l) s u [.hl] [] ∧ u.dev.hl = s.dev.hl.set l { s.dev.link l with rxLock := false })) ∧
  (∀ (l : Fin 32) (gen : Nat) (s : State), s.Inv → s.dev.linkState l = 1 ∨ s.dev.linkState l = 6 →
    ((s.dev.linkSec l).genMin ≤ gen → gen ≤ s.dev.linkGen l →
      ∃ u, Runs (.headBurstDetect l gen) s u [.out] [R.HL_STAT.addr l, R.HL_TAPS.addr l] ∧ u.dev.linkState l = 2 ∧ u.dev.linkGen l = gen ∧
        ((s.dev.link l).good.lookup gen = none → u.dev.dnTaps l = presetTaps)) ∧
    (gen < (s.dev.linkSec l).genMin →
      ∃ u, Runs (.headBurstDetect l gen) s u trainParts (trainRegs l) ∧ s.dev.AttemptFailed u.dev l 2) ∧
    ((s.dev.linkSec l).genMin ≤ gen → s.dev.linkGen l < gen → Ignored (.headBurstDetect l gen) s)) ∧
  (∀ (l : Fin 32) (s : State), s.Inv →
    (s.dev.linkState l ≠ 0 → (s.dev.linkState l ≠ 2 ∧ s.dev.linkState l ≠ 8) ∨ (s.dev.link l).headLocked = false →
      ∃ u, Runs (.rxLockAcquired l) s u [.hl] [R.HL_STAT.addr l] ∧ u.dev.hl = s.dev.hl.set l { s.dev.link l with rxLock := true } ∧
        u.dev.linkState l = s.dev.linkState l ∧ u.dev.rd F.HL_STAT_UP_ASLEEP l = 0) ∧
    (s.dev.linkState l = 2 → (s.dev.link l).headLocked = true →
      ∃ u, Runs (.rxLockAcquired l) s u [.hl, .out] [R.HL_STAT.addr l] ∧ u.dev.linkState l = 3 ∧ (u.dev.link l).rxLock = true)) ∧
  (∀ (l : Fin 32) (ts : TrainingSet) (s : State), s.Inv →
    (s.dev.linkState l = 2 → (s.dev.link l).rxLock = true → ts.crcOk = true → ts.req.getLsbD 6 = true →
      ∃ u, Runs (.tsRx l ts) s u [.hl, .out] [R.HL_STAT.addr l, R.HL_TAPS.addr l] ∧ u.dev.linkState l = 3 ∧
        (u.dev.link l).headLocked = true) ∧
    (s.dev.linkState l = 3 → ts.crcOk = true → (s.dev.link l).headSeq ≠ some ts.reqSeq.toNat →
      ∃ u, Runs (.tsRx l ts) s u [.hl, .out] [R.HL_STAT.addr l, R.HL_TAPS.addr l] ∧
        u.dev.dnTaps l = (answerTaps (s.dev.dnTaps l) (ts.req.toNat % 64)).1 ∧
        (u.dev.link l).ack = (answerTaps (s.dev.dnTaps l) (ts.req.toNat % 64)).2 ∧
        (u.dev.link l).headSeq = some ts.reqSeq.toNat) ∧
    (ts.crcOk = false → ∃ u, Runs (.tsRx l ts) s u [.hl] [] ∧
      (u.dev.link l).confirmBad = ((s.dev.link l).confirmBad || decide (s.dev.linkState l = 4))) ∧
    (ts.crcOk = true → s.dev.linkState l ∈ [0, 1, 5, 6, 7] → Ignored (.tsRx l ts) s)) ∧
  (∀ (l : Fin 32) (s : State), let st := s.dev.linkState l; let up := s.dev.linkUp l
    s.Inv →
    (st ∈ [1, 2, 3, 4, 6] ∨ (st = 5 ∧ up = false) →
      ∃ u, Runs (.linkTrainTimeout l) s u trainParts (trainRegs l) ∧
        s.dev.AttemptFailed u.dev l (if st = 1 ∨ st = 6 then 1 else if st = 2 then 3 else if st = 3 then 5 else if st = 4 then 6 else
          if s.dev.delayOk l then 9 else 8)) ∧
    (st ∈ [0, 7, 8] ∨ (st = 5 ∧ up = true) → Ignored (.linkTrainTimeout l) s))

/-- In EQ an eye measurement after an answered request shows EYE; the first one of a tap is kept as the widest and asks for a
step up; without such a request, or outside EQ, it changes nothing. An unanswered request is sent again twice and the third
fails the attempt. A clean CONFIRM with an eye of at least EYE_MIN makes the link ACTIVE and keeps its taps, one with a bad
set or a narrower eye fails the attempt; sixteen samples, a short enough delay and a realigned head set UP and post LINK_UP,
and nothing less does. Clauses rest on choices of the model where the spec leaves the point open: log entry 73 (what the
training commands name), log entry 74 (the walk of equalisation), log entry 75 (the delay limit), log entry 77 (STATE while
waking, and LINK_FALLBACK). -/
def Obligations.LinkTraining : Prop :=
  (∀ (l : Fin 32) (eye : Nat) (s : State), let e := (s.dev.link l).eq
    s.Inv →
    (s.dev.linkState l = 3 → e.req = none → e.tap ≠ 3 →
      ∃ u, Runs (.eqDwellDone l eye) s u [.hl, .out] [R.HL_TAPS.addr l, R.HL_STAT.addr l] ∧
        u.dev.rd F.HL_TAPS_EYE l = eye % 2 ^ F.HL_TAPS_EYE.w ∧
        (e.dir = .base → (u.dev.link l).eq = { e with best := eye, dir := .upFirst, req := some (tapReq e.tap 1), limited := false, misses := 0 } ∧
          (u.dev.link l).reqSeq = ((s.dev.link l).reqSeq + 1) % 256)) ∧
    (e.req ≠ none ∨ e.tap = 3 ∨ (s.dev.linkState l ≠ 3 ∧ s.dev.linkState l ≠ 8) → Ignored (.eqDwellDone l eye) s)) ∧
  (∀ (l : Fin 32) (s : State), let e := (s.dev.link l).eq
    s.Inv →
    (s.dev.linkState l = 3 → e.req ≠ none → e.misses < 2 →
      ∃ u, Runs (.eqRequestTimeout l) s u [.hl, .out] [] ∧
        u.dev.hl = s.dev.hl.set l { s.dev.link l with eq := { e with misses := e.misses + 1 } }) ∧
    (s.dev.linkState l = 3 → e.req ≠ none → 2 ≤ e.misses →
      ∃ u, Runs (.eqRequestTimeout l) s u trainParts (trainRegs l) ∧ s.dev.AttemptFailed u.dev l 4) ∧
    (e.req = none ∨ (s.dev.linkState l ≠ 3 ∧ s.dev.linkState l ≠ 8) → Ignored (.eqRequestTimeout l) s)) ∧
  (∀ (l : Fin 32) (eye : Nat) (s : State), s.Inv →
    (s.dev.linkState l = 4 → (s.dev.link l).confirmBad = false → s.dev.rd F.HL_GLOBAL_CFG_EYE_MIN ≤ eye % 256 →
      ∃ u, Runs (.confirmComplete l eye) s u [.hl, .out] [R.HL_TAPS.addr l, R.HL_STAT.addr l] ∧ u.dev.linkState l = 5 ∧
        (u.dev.link l).good.lookup (s.dev.linkGen l) = some (s.dev.dnTaps l) ∧ (u.dev.link l).eq = {}) ∧
    (s.dev.linkState l = 4 → (s.dev.link l).confirmBad = true ∨ eye % 256 < s.dev.rd F.HL_GLOBAL_CFG_EYE_MIN →
      ∃ u, Runs (.confirmComplete l eye) s u trainParts (R.HL_TAPS.addr l :: trainRegs l) ∧
        s.dev.AttemptFailed u.dev l (if (s.dev.link l).confirmBad then 6 else 7)) ∧
    (s.dev.linkState l ≠ 4 → Ignored (.confirmComplete l eye) s)) ∧
  (∀ (l : Fin 32) (s : State), s.Inv →
    (s.dev.linkState l = 5 → s.dev.linkUp l = false → s.dev.delayOk l = true → s.dev.realigned l = true →
      ∃ u, Runs (.linkUp l) s u [.hl, .raised] [R.HL_STAT.addr l] ∧ u.dev.linkUp l = true ∧
        u.dev.raised = s.dev.raised ++
          [s.dev.event .secure 0x0B01 [(1, l), (2, s.dev.linkGen l), (4, s.dev.rd F.HL_DELAY_D_DN l)]]) ∧
    (s.dev.linkState l ≠ 5 ∨ s.dev.linkUp l = true ∨ s.dev.delayOk l = false ∨ s.dev.realigned l = false → Ignored (.linkUp l) s))

/-- After cast-on RETRAIN of an ACTIVE or DOWN link starts its wake at GEN_MAX, attempt 1, without known taps; in other states
but TEST it changes no link; TEST moves a DOWN link to TEST, clearing it brings it back to DOWN, and in other states the bit
stays; a link with nothing selected for DN_SLEEP_BEATS and nothing waiting sleeps downstream, and no other does; a wake makes
a BEACON the first frame of a sleeping link; the head's sleep sets put the upstream direction of an ACTIVE link to sleep.
Clauses rest on choices of the model where the spec leaves the point open: log entry 46 (what a pending authentication leaves
in force), log entry 77 (STATE while waking, and LINK_FALLBACK), log entry 80 (the receiver's lock asleep and awake), log
entry 104 (D3hot stops requests alone). -/
def Obligations.LinkWritesAndSleep : Prop :=
  (∀ (m : Master) (l : Fin 32) (s : State), s.Inv → s.dev.Takes m R.HL_CFG l →
    (s.dev.sys.done = true → s.dev.rd F.HL_CFG_TEST l = 0 → s.dev.linkState l = 5 ∨ s.dev.linkState l = 7 →
      ∃ u, Runs (.linkRetrain m l) s u (.bus :: trainParts) (R.HL_CFG.addr l :: trainRegs l) ∧ u.dev.linkState l = 1 ∧
        u.dev.linkGen l = (s.dev.linkSec l).genMax % 4 ∧ u.dev.rd F.HL_STAT_ATTEMPT l = 1 ∧ (u.dev.link l).good = []) ∧
    ((s.dev.linkState l ≠ 7 ∧ s.dev.linkState l ≠ 8 ∧ (s.dev.linkState l ≠ 5 ∨ s.dev.sys.done = false)) ∨
        (s.dev.linkState l = 8 ∧ s.dev.rd F.HL_CFG_TEST l = 1) ∨
        (s.dev.linkState l = 7 ∧ s.dev.rd F.HL_CFG_TEST l = 0 ∧ s.dev.sys.done = false) →
      ∃ u, Runs (.linkRetrain m l) s u [.bus] [R.HL_CFG.addr l]) ∧
    (s.dev.linkState l = 7 →
      ∃ u, Runs (.linkTest m l true) s u (.bus :: trainParts) (R.HL_CFG.addr l :: trainRegs l) ∧ u.dev.linkState l = 8 ∧
        u.dev.linkGen l = (s.dev.linkSec l).genMax % 4 ∧ u.dev.rd F.HL_CFG_TEST l = 1) ∧
    (s.dev.linkState l = 8 →
      ∃ u, Runs (.linkTest m l false) s u (.bus :: trainParts) (R.HL_CFG.addr l :: trainRegs l) ∧ u.dev.linkState l = 7 ∧
        u.dev.rd F.HL_CFG_TEST l = 0) ∧
    (∀ en : Bool, s.dev.linkState l ≠ 7 → s.dev.linkState l ≠ 8 →
      ∃ u, Runs (.linkTest m l en) s u [.bus] [R.HL_CFG.addr l] ∧ u.dev.rd F.HL_CFG_TEST l = s.dev.rd F.HL_CFG_TEST l) ∧
    (∀ en : Bool, s.dev.linkState l = (if en then 8 else 7) →
      ∃ u, Runs (.linkTest m l en) s u [.bus] [R.HL_CFG.addr l] ∧ u.dev.rd F.HL_CFG_TEST l = if en then 1 else 0)) ∧
  (∀ (l : Fin 32) (s : State), s.Inv →
    (s.dev.linkState l = 5 → s.dev.rd F.HL_CFG_DN_SLEEP_EN l = 1 → s.dev.rd F.HL_STAT_DN_ASLEEP l = 0 → s.dev.pageRuns = false →
      s.dev.frameWaits l = false → (s.dev.link l).lastSel + s.dev.rd F.HL_CFG_DN_SLEEP_BEATS l ≤ s.dev.tmb.beats →
      ∃ u, Runs (.dnSleepEnter l) s u [.hl, .out] [R.HL_STAT.addr l] ∧ u.dev.rd F.HL_STAT_DN_ASLEEP l = 1 ∧
        u.dev.linkState l = 5 ∧ u.dev.out = s.dev.out ++ [.signal l .sleep] ∧
        u.dev.hl = s.dev.hl.set l { s.dev.link l with beaconDue := false }) ∧
    (s.dev.linkState l ≠ 5 ∨ s.dev.rd F.HL_CFG_DN_SLEEP_EN l = 0 ∨ s.dev.rd F.HL_STAT_DN_ASLEEP l = 1 ∨ s.dev.pageRuns = true ∨
        s.dev.frameWaits l = true ∨ s.dev.tmb.beats < (s.dev.link l).lastSel + s.dev.rd F.HL_CFG_DN_SLEEP_BEATS l →
      Ignored (.dnSleepEnter l) s) ∧
    (s.dev.rd F.HL_STAT_DN_ASLEEP l = 1 →
      ∃ u, Runs (.dnWake l) s u [.hl, .out] [R.HL_STAT.addr l] ∧ u.dev.rd F.HL_STAT_DN_ASLEEP l = 0 ∧
        u.dev.hl = s.dev.hl.set l { s.dev.link l with beaconDue := true } ∧ u.dev.out = s.dev.out ++ [.signal l .wake]) ∧
    (s.dev.rd F.HL_STAT_DN_ASLEEP l = 0 → Ignored (.dnWake l) s) ∧
    (s.dev.linkState l = 5 →
      ∃ u, Runs (.upSleepRx l) s u [.hl] [R.HL_STAT.addr l] ∧ u.dev.rd F.HL_STAT_UP_ASLEEP l = 1 ∧
        u.dev.hl = s.dev.hl.set l { s.dev.link l with rxLock := false }) ∧
    (s.dev.linkState l ≠ 5 → Ignored (.upSleepRx l) s))

/-- VLT_AUTH_REAUTH of an UP link whose HSERIAL has been read, without an exchange, starts a CHALLENGE and shows PENDING with
the head's serial, and with HEAD_ROOT blank counts the head as passed; where HSERIAL has not been read, or an exchange runs,
the authentication is held; of a link that is not UP nothing is. A RESPONSE with the right serial, NONCE and MAC passes the
head and records its total, one with a wrong serial, NONCE or MAC fails it with cause 3, 4 or 2; without a RESPONSE the
CHALLENGE is sent again, and after three the head fails with NO_ANSWER; a usage period starts a COUNT_UPDATE of the pending
count, its verified answer subtracts the amount, another answer changes nothing, and three unanswered updates post
HEAD_USAGE_FAIL. Clauses rest on choices of the model where the spec leaves the point open: log entry 5 (open values), log
entry 9 (the cryptographic algorithms), log entry 42 (the layouts of messages), log entry 43 (the byte order of HSERIAL), log
entry 44 (the order of the checks, and a blank HEAD_ROOT), log entry 46 (what a pending authentication leaves in force), log
entry 104 (D3hot stops requests alone), log entry 193 (when REAUTH runs). -/
def Obligations.HeadAuthentication : Prop :=
  (∀ (m : Master) (val : Nat) (s : State), s.Inv → s.dev.Takes m R.VLT_AUTH_REAUTH 0 →
    ∃ u, Runs (.authReauth m val) s u [.bus, .hl, .vlt, .freeCtr]
      ((List.range 32).flatMap fun l => [R.VLT_HEAD_STAT.addr l, R.VLT_HEAD_SERIAL.addr l, R.VLT_HEAD_PENDING.addr l])) ∧
  (∀ (m : Master) (l : Fin 32) (s : State), s.Inv → s.dev.Takes m R.VLT_AUTH_REAUTH 0 →
    (s.dev.linkUp l = true → (s.dev.link l).named = true → (s.dev.link l).auth = none → s.dev.vlt.used.headRoot.blank = false →
      ∃ u, Runs (.authReauth m (2 ^ l.val)) s u [.bus, .hl, .freeCtr] [R.VLT_HEAD_STAT.addr l, R.VLT_HEAD_SERIAL.addr l] ∧
        u.dev.rd F.VLT_HEAD_STAT_AUTH l = 1 ∧ u.dev.rd F.VLT_HEAD_SERIAL_HSERIAL l = s.dev.headSerial l % 2 ^ 64 ∧
        ∃ a, (u.dev.link l).auth = some a ∧ a.update = false ∧ a.tries = 1 ∧ a.waiting = true) ∧
    (s.dev.linkUp l = true → (s.dev.link l).named = true → (s.dev.link l).auth = none → s.dev.vlt.used.headRoot.blank = true →
      ∃ u, Runs (.authReauth m (2 ^ l.val)) s u [.bus, .hl, .vlt] [R.VLT_HEAD_STAT.addr l, R.VLT_HEAD_PENDING.addr l] ∧
        u.dev.rd F.VLT_HEAD_STAT_AUTH l = 0 ∧ u.dev.authPassed l = true) ∧
    (s.dev.linkUp l = true → (s.dev.link l).auth ≠ none ∨ ((s.dev.link l).named = false ∧ (s.dev.link l).updateDue = false) →
      ∃ u, Runs (.authReauth m (2 ^ l.val)) s u [.bus, .hl] [] ∧ u.dev.hl = s.dev.hl.set l { s.dev.link l with authDue := true }) ∧
    (s.dev.linkUp l = false → ∃ u, Runs (.authReauth m (2 ^ l.val)) s u [.bus] [])) ∧
  (∀ (l : Fin 32) (msg : AuthBody) (a : AuthEx) (s : State), let hs := s.dev.headSerial l
    s.Inv → (s.dev.link l).auth = some a →
    (a.update = false → a.waiting = false → (s.dev.link l).authDue = false →
      msg.hserial.toNat = hs → msg.nonce.toNat = a.nonce → msg.mac.toNat = s.dev.authMac 2 hs a.nonce msg.usage.toNat →
      ∃ u, Runs (.authResponseRx l msg) s u [.hl, .vlt, .raised, .freeCtr]
          [R.VLT_HEAD_STAT.addr l, R.VLT_HEAD_USAGE.addr l, R.VLT_HEAD_PENDING.addr l] ∧ u.dev.rd F.VLT_HEAD_STAT_AUTH l = 2 ∧
        u.dev.rd F.VLT_HEAD_USAGE_TOTAL l = msg.usage.toNat % 2 ^ F.VLT_HEAD_USAGE_TOTAL.w ∧
        (u.dev.link l).verdict = some true ∧ u.dev.raised = s.dev.raised ++ [s.dev.event .secure 0x0302 [(1, l), (8, hs)]]) ∧
    (a.update = false → a.waiting = false → (s.dev.link l).authDue = false →
      msg.hserial.toNat ≠ hs ∨ msg.nonce.toNat ≠ a.nonce ∨ msg.mac.toNat ≠ s.dev.authMac 2 hs a.nonce msg.usage.toNat →
      ∃ u, Runs (.authResponseRx l msg) s u [.hl, .raised, .freeCtr] [R.VLT_HEAD_STAT.addr l] ∧ u.dev.rd F.VLT_HEAD_STAT_AUTH l = 3 ∧
        u.dev.rd F.VLT_HEAD_STAT_CAUSE l = (if msg.hserial.toNat ≠ hs then 3 else if msg.nonce.toNat ≠ a.nonce then 4 else 2) ∧
        u.dev.rd F.VLT_HEAD_STAT_POLICY l = (if (s.dev.linkSec l).warn then 1 else 0) ∧ (u.dev.link l).verdict = some false) ∧
    (a.update = true ∨ a.waiting = true → Ignored (.authResponseRx l msg) s)) ∧
  (∀ (l : Fin 32) (a : AuthEx) (s : State), s.Inv → (s.dev.link l).auth = some a → a.waiting = false →
    (a.update = false → a.tries < 3 →
      ∃ u, Runs (.authResponseTimeout l) s u [.hl, .freeCtr] [] ∧ ∃ b, (u.dev.link l).auth = some b ∧ b.update = false ∧
        b.tries = a.tries + 1 ∧ b.waiting = true) ∧
    (a.update = true → a.tries < 3 →
      ∃ u, Runs (.countAckTimeout l) s u [.hl, .freeCtr] [] ∧ ∃ b, (u.dev.link l).auth = some b ∧ b.update = true ∧
        b.tries = a.tries + 1 ∧ b.waiting = true ∧ b.amount = a.amount) ∧
    (a.update = false → 3 ≤ a.tries → (s.dev.link l).authDue = false →
      ∃ u, Runs (.authResponseTimeout l) s u [.hl, .raised, .freeCtr] [R.VLT_HEAD_STAT.addr l] ∧ u.dev.rd F.VLT_HEAD_STAT_AUTH l = 3 ∧
        u.dev.rd F.VLT_HEAD_STAT_CAUSE l = 1 ∧ (u.dev.link l).verdict = some false) ∧
    (a.update = true → 3 ≤ a.tries →
      ∃ u, Runs (.countAckTimeout l) s u [.hl, .vlt, .raised, .freeCtr] [R.VLT_HEAD_STAT.addr l, R.VLT_HEAD_SERIAL.addr l, R.VLT_HEAD_PENDING.addr l] ∧
        u.dev.raised = s.dev.raised ++ [s.dev.event .secure 0x0303 [(1, l), (4, s.dev.rd F.VLT_HEAD_PENDING_PENDING l)]]) ∧
    (a.update = true → Ignored (.authResponseTimeout l) s) ∧
    (a.update = false → Ignored (.countAckTimeout l) s)) ∧
  (∀ (s : State), s.Inv →
    ∃ u, Runs .usagePeriodExpiry s u [.hl, .vlt, .freeCtr]
        ((List.range 32).flatMap fun l => [R.VLT_HEAD_STAT.addr l, R.VLT_HEAD_SERIAL.addr l, R.VLT_HEAD_PENDING.addr l]) ∧
      ∀ l : Fin 32, s.dev.inService l = true → s.dev.linkUp l = true → s.dev.authPassed l = true →
        (s.dev.link l).auth = none → (s.dev.link l).authDue = false →
        (u.dev.link l).auth.map (fun a => (a.update, a.amount, a.tries, a.waiting)) =
          some (true, s.dev.rd F.VLT_HEAD_PENDING_PENDING l, 1, true)) ∧
  (∀ (l : Fin 32) (msg : AuthBody) (a : AuthEx) (s : State), let hs := s.dev.headSerial l
    s.Inv → (s.dev.link l).auth = some a →
    (a.update = true → a.waiting = false → (s.dev.link l).authDue = false →
      msg.hserial.toNat = hs → msg.nonce.toNat = a.nonce → msg.mac.toNat = s.dev.authMac 4 hs a.nonce msg.usage.toNat →
      ∃ u, Runs (.countAckRx l msg) s u [.hl, .freeCtr] [R.VLT_HEAD_PENDING.addr l, R.VLT_HEAD_USAGE.addr l] ∧
        u.dev.rd F.VLT_HEAD_PENDING_PENDING l = s.dev.rd F.VLT_HEAD_PENDING_PENDING l - a.amount ∧
        u.dev.rd F.VLT_HEAD_USAGE_TOTAL l = msg.usage.toNat % 2 ^ F.VLT_HEAD_USAGE_TOTAL.w) ∧
    (a.update = false ∨ a.waiting = true ∨ msg.hserial.toNat ≠ hs ∨ msg.nonce.toNat ≠ a.nonce ∨
        msg.mac.toNat ≠ s.dev.authMac 4 hs a.nonce msg.usage.toNat → Ignored (.countAckRx l msg) s))

/-- The earliest position compare occurrence for an ON camera becomes a trigger with its time, position and strobe, unless its
strobe would start before the last one stops, which counts OVERLAP; an occurrence for a camera that is not ON is taken and
nothing else happens, and without one nothing does. The strobe goes active at its start and inactive at its end; a line that
does not come counts MISSED, for this counter and for the event of the closing boundary, and retires the oldest unpaired
trigger, the next one's generation then ruling the strobes not begun of a frame without a line; with no strobe or trigger to
end or begin nothing changes. Clauses rest on choices of the model where the spec leaves the point open: log entry 26 (when a
counted event is posted), log entry 82 (invalid lines and what they store), log entry 84 (the settings generation of a
trigger). -/
def Obligations.CameraTriggers : Prop :=
  (∀ (c : Fin 8) (o : Occur) (rest : List Occur) (s : State), s.Inv → takeOcc c s.dev.web.occ = some (o, rest) →
    let k := s.dev.cam c
    let g := if k.seq = 0 then s.dev.ins.gen else k.trigGen
    let start := o.t + s.dev.genRd g F.INS_Cc_STROBE_DELAY c
    let stop := start + s.dev.genRd g F.INS_Cc_STROBE_WIDTH c
    (s.dev.camOn c = true → k.lastStop ≤ start →
      ∃ u, Runs (.cameraTrigger c) s u [.web, .ins] [] ∧ u.dev.web = { s.dev.web with occ := rest } ∧ (u.dev.cam c).lastStop = stop ∧
        (u.dev.cam c).trigs = k.trigs ++ [{ t := o.t, pos := o.pos, start := start, stop := stop, newest := s.dev.ins.gen, gen := g
                                            capture := s.dev.on F.INS_Cc_CFG_CAPTURE c, beat := s.dev.beat }] ∧
        ∀ b : Fin 8, b ≠ c → u.dev.cam b = s.dev.cam b) ∧
    (s.dev.camOn c = true → start < k.lastStop →
      ∃ u, Runs (.cameraTrigger c) s u [.web, .snapD] [] ∧ u.dev.web = { s.dev.web with occ := rest } ∧
        u.dev.delta F.INS_Cc_COUNT_OVERLAP c = s.dev.delta F.INS_Cc_COUNT_OVERLAP c + 1) ∧
    (s.dev.camOn c = false →
      ∃ u, Runs (.cameraTrigger c) s u [.web] [] ∧ u.dev.web = { s.dev.web with occ := rest })) ∧
  (∀ (c : Fin 8) (s : State), takeOcc c s.dev.web.occ = none → Ignored (.cameraTrigger c) s) ∧
  (∀ (c : Fin 8) (before after : List Trig) (t : Trig) (s : State), s.Inv → (s.dev.cam c).trigs = before ++ t :: after →
    ((∀ x ∈ before, x.begun = true) → t.begun = false →
      ∃ u, Runs (.strobeStart c) s u [.ins] [] ∧ (u.dev.cam c).strobe = true ∧
        (u.dev.cam c).low = decide (s.dev.genRd t.gen F.INS_Cc_STROBE_POLARITY c = 1) ∧
        (u.dev.cam c).trigs = before ++ { t with begun := true } :: after) ∧
    ((∀ x ∈ before, (x.begun && !x.ended) = false) → t.begun = true → t.ended = false →
      ∃ u, Runs (.strobeEnd c) s u [.ins] [] ∧ (u.dev.cam c).strobe = false ∧
        (u.dev.cam c).trigs = (before ++ { t with ended := true } :: after).filter fun x => !(x.paired && x.ended))) ∧
  (∀ (c : Fin 8) (s : State), s.Inv →
    ((∀ x ∈ (s.dev.cam c).trigs, x.begun = true) → Ignored (.strobeStart c) s) ∧
    ((∀ x ∈ (s.dev.cam c).trigs, (x.begun && !x.ended) = false) → Ignored (.strobeEnd c) s) ∧
    ((∀ x ∈ (s.dev.cam c).trigs, x.paired = true) → Ignored (.camLineMissed c) s)) ∧
  (∀ (c : Fin 8) (t : Trig) (s : State), let k := s.dev.cam c; let left := k.pair
    s.Inv → k.oldest = some t →
    ∃ u, Runs (.camLineMissed c) s u [.ins, .snapD, .tallies] [] ∧
      (u.dev.cam c).trigs = (match left.oldest with
        | some y => if k.begun = true ∨ y.newest = k.trigGen then left.trigs
          else retime (s.dev.genRd y.newest F.INS_Cc_STROBE_DELAY c) (s.dev.genRd y.newest F.INS_Cc_STROBE_WIDTH c) y.newest 0 left.trigs
        | none => left.trigs) ∧
      u.dev.delta F.INS_Cc_COUNT_MISSED c = s.dev.delta F.INS_Cc_COUNT_MISSED c + 1 ∧
      ∃ g ∈ u.dev.tallies, g.code = 0x0E03 ∧ g.key = c.val ∧ 1 ≤ g.count ∧ .secure ∈ g.dests)

/-- A valid line packet of an ON camera with a frame open and a trigger waiting takes the frame's next slot and waits for the
pipeline, and past the frame's last slot counts as excess; in a captured frame its payload is stored in that slot and its bit
set in the frame's bitmap, which the first line clears; no packet writes another byte of DRAM. With no frame or no trigger it
is an orphan; an invalid one counts as a bad line; a camera that is not ON takes nothing. A long packet of the wrong type is a
bad line that posts CSI_ERROR once per beat and camera, a bad header in a short one posts CSI_ERROR alone, and a harmless
packet changes nothing. A processed line joins its frame and goes to nozzle health if that is ON; with no line waiting nothing
changes. Clauses rest on choices of the model where the spec leaves the point open: log entry 4 (an unwritten byte reads 0),
log entry 26 (when a counted event is posted), log entry 41 (the packing of RAW10 and RAW12), log entry 58 (the window as a
requester), log entry 63 (a refused window read), log entry 81 (which camera owns shared columns), log entry 82 (invalid lines
and what they store), log entry 84 (the settings generation of a trigger), log entry 86 (swatch lines). -/
def Obligations.CameraLines : Prop :=
  (∀ (c : Fin 8) (pk : CsiPacket) (s : State), s.Inv →
    (∃ u, Runs (.csiLongPacket c pk) s u ([.ins, .onceKeys] ++ dramParts) (R.INS_Cc_STAT.addr c :: dramRegs) ∧
      ((s.dev.cam c).frame = none → u.dev.mem = s.dev.mem) ∧
      ∀ f, (s.dev.cam c).frame = some f → (∀ g ∈ s.dev.drm.fetched, g.rq ≠ 5) →
        let n := (s.dev.camSec c).lineBytes; let a := s.dev.slotBase c f; let map := a + (s.dev.camSec c).frameLines * n
        ∀ x, (x < a + f.lines * n ∨ a + (f.lines + 1) * n ≤ x) → (f.lines = 0 → x < map ∨ map + 1024 ≤ x) → x ≠ map + f.lines / 8 →
          u.dev.byte x = s.dev.byte x) ∧
    (s.dev.camOn c = false → Ignored (.csiLongPacket c pk) s) ∧
    (∀ (f : Frame) (t : Trig), s.dev.camOn c = true → pk.eccOk = true → s.dev.lineBad c pk = 0 →
      (s.dev.cam c).frame = some f → (s.dev.cam c).oldest = some t →
      (f.lines < (s.dev.camSec c).frameLines →
        ∃ u, exec (.csiLongPacket c pk) s = .next u ∧
          (u.dev.cam c).waiting = (s.dev.cam c).waiting ++ [⟨f.lines, t.pos, pk.payload⟩] ∧
          (u.dev.cam c).frame.map (fun x => (x.number, x.lines, x.begun, x.last)) =
            some (f.number, f.lines + 1, true, t.pos / 2 ^ 32 - (s.dev.camSec c).webOffset) ∧
          u.dev.rd F.INS_Cc_STAT_LINES c = (f.lines + 1) % 2 ^ 14 ∧
          ((if f.begun then f.capture else t.capture) = true → s.dev.sys.reset = none → s.dev.ue = [] →
            (∀ g ∈ s.dev.drm.fetched, g.rq ≠ 5) → (s.dev.camSec c).frameLines ≤ 8192 → let a := s.dev.slotBase c f; let n := pk.payload.length
            let map := a + (s.dev.camSec c).frameLines * n + f.lines / 8
            s.dev.checkDram (s.dev.masterSecure 5) a (s.dev.camSec c).slotBytes = .pass →
            u.dev.bytes (a + f.lines * n) n = pk.payload ∧
              (u.dev.byte map).toNat = Nat.lor (if f.lines = 0 then 0 else (s.dev.byte map).toNat) (2 ^ (f.lines % 8)))) ∧
      (f.lines < (s.dev.camSec c).frameLines → f.begun = true → f.capture = false →
        ∃ u, Runs (.csiLongPacket c pk) s u [.ins] [R.INS_Cc_STAT.addr c] ∧
          (u.dev.cam c).frame = some { f with lines := f.lines + 1, last := t.pos / 2 ^ 32 - (s.dev.camSec c).webOffset } ∧
          (u.dev.cam c).trigs = (s.dev.cam c).pair.trigs) ∧
      ((s.dev.camSec c).frameLines ≤ f.lines →
        ∃ u, Runs (.csiLongPacket c pk) s u [.ins] [] ∧ (u.dev.cam c).frame = some { f with excess := f.excess + 1 } ∧
          (u.dev.cam c).trigs = (s.dev.cam c).pair.trigs ∧ (u.dev.cam c).waiting = (s.dev.cam c).waiting)) ∧
    (s.dev.camOn c = true → pk.eccOk = true → s.dev.lineBad c pk = 0 → (s.dev.cam c).frame = none ∨ (s.dev.cam c).oldest = none →
      ∃ u, Runs (.csiLongPacket c pk) s u [.snapD] [] ∧
        u.dev.delta F.INS_Cc_COUNT_ORPHAN c = s.dev.delta F.INS_Cc_COUNT_ORPHAN c + 1) ∧
    (s.dev.camOn c = true → pk.eccOk = false ∨ s.dev.lineBad c pk ≠ 0 →
      ∃ u, exec (.csiLongPacket c pk) s = .next u ∧
        u.dev.delta F.INS_Cc_COUNT_BAD_LINE c = s.dev.delta F.INS_Cc_COUNT_BAD_LINE c + 1 ∧
        (u.dev.cam c).waiting = (s.dev.cam c).waiting)) ∧
  (∀ (c : Fin 8) (s : State), s.Inv →
    (s.dev.camOn c = true →
      (∃ u, Runs (.csiOtherPacket c .wrongLong) s u [.snapD, .raised, .onceKeys] [R.SYS_FAULT_STAT.addr 0] ∧
        u.dev.delta F.INS_Cc_COUNT_BAD_LINE c = s.dev.delta F.INS_Cc_COUNT_BAD_LINE c + 1 ∧
        ((0x0E04, c.val) ∉ s.dev.onceKeys → u.dev.rd F.SYS_FAULT_STAT_INSPECTION = 1) ∧ (0x0E04, c.val) ∈ u.dev.onceKeys ∧
        u.dev.raised = (if (0x0E04, c.val) ∈ s.dev.onceKeys then s.dev.raised
          else s.dev.raised ++ [s.dev.event .secure 0x0E04 [(1, c), (1, 4)]])) ∧
      (∃ u, Runs (.csiOtherPacket c .badShort) s u [.raised, .onceKeys] [R.SYS_FAULT_STAT.addr 0] ∧
        u.dev.raised = (if (0x0E04, c.val) ∈ s.dev.onceKeys then s.dev.raised
          else s.dev.raised ++ [s.dev.event .secure 0x0E04 [(1, c), (1, 1)]]))) ∧
    Ignored (.csiOtherPacket c .harmless) s ∧
    (∀ kind : CsiOther, s.dev.camOn c = false → Ignored (.csiOtherPacket c kind) s)) ∧
  (∀ (c : Fin 8) (l : CamLine) (rest : List CamLine) (f : Frame) (s : State), s.Inv → (s.dev.cam c).waiting = l :: rest →
    (s.dev.cam c).frame = some f →
    ∃ u, Runs (.camLineProcess c) s u [.ins, .nzh, .snapD, .tallies, .raised, .drm, .freeCtr] dramRegs ∧ (u.dev.cam c).waiting = rest ∧
      ∃ o : CompLine, o.cam = c ∧ o.slot = l.slot ∧ o.frame = f.number ∧
        o.m = l.pos / 2 ^ 32 - (s.dev.camSec c).webOffset ∧ (u.dev.cam c).frame = some (f.add o) ∧
        u.dev.nzh = if s.dev.funcOn .nzh then { s.dev.nzh with inbox := s.dev.nzh.inbox ++ [o] } else s.dev.nzh) ∧
  (∀ (c : Fin 8) (s : State), (s.dev.cam c).waiting = [] ∨ (s.dev.cam c).frame = none → Ignored (.camLineProcess c) s)

/-- Frame Start of an ON camera opens a frame with its next number, closing one that is open; Frame End of an ON camera, or
the idle time, closes it: HEAD moves on within the ring, FRAME_DONE is posted with the camera, number, generation, flags and
entry, and the 64 bytes of the INS_STAT ring's entry at the old HEAD take the frame's record, no other byte of DRAM changing;
with no frame open, or on a camera that is not ON, nothing changes. COMMIT copies every shadow to the pending set; GO of an
idle master starts a transaction with BUSY, which is sent unless the probe holds it, and one of a busy master is only written;
its end clears BUSY, sets DONE and RESULT, shows what a good read brought and posts I2C_DONE, a probe's transaction following
it where the probe waits; the end of a probe's transaction records its answer; with no transaction in progress nothing
changes. Clauses rest on choices of the model where the spec leaves the point open: log entry 4 (an unwritten byte reads 0),
log entry 5 (open values), log entry 58 (the window as a requester), log entry 63 (a refused window read), log entry 83 (the
record of a frame without a line), log entry 84 (the settings generation of a trigger), log entry 85 (the probe of step 14,
and DATA after a failed read), log entry 86 (swatch lines), log entry 104 (D3hot stops requests alone), log entry 179
(requests that wait in the memory front). -/
def Obligations.FramesSettingsAndI2c : Prop :=
  (∀ (c : Fin 8) (s : State), s.Inv →
    (s.dev.camOn c = true →
      ∃ u, Runs (.csiFrameStart c) s u (if (s.dev.cam c).frame = none then [.ins] else [.ins, .nzh] ++ dramParts)
          (R.INS_Cc_STAT.addr c :: if (s.dev.cam c).frame = none then [] else R.INS_STAT_HEAD.addr 0 :: dramRegs) ∧
        (u.dev.cam c).frame = some { number := (s.dev.cam c).next } ∧ (u.dev.cam c).next = ((s.dev.cam c).next + 1) % 2 ^ 32 ∧
        u.dev.rd F.INS_Cc_STAT_OPEN c = 1 ∧ u.dev.rd F.INS_Cc_STAT_LINES c = 0 ∧
        u.dev.rd F.INS_Cc_STAT_FRAME c = (s.dev.cam c).next % 2 ^ 32 ∧
        ((s.dev.cam c).frame ≠ none → s.dev.ClosesFrame u.dev c)) ∧
    (s.dev.camOn c = false → Ignored (.csiFrameStart c) s ∧ Ignored (.csiFrameEnd c) s) ∧
    ((s.dev.cam c).frame = none → Ignored (.csiFrameEnd c) s ∧ Ignored (.frameIdleTimeout c) s)) ∧
  (∀ (c : Fin 8) (s : State), s.Inv → (s.dev.cam c).frame ≠ none →
    (s.dev.camOn c = true →
      ∃ u, Runs (.csiFrameEnd c) s u ([.ins, .nzh] ++ dramParts) ([R.INS_Cc_STAT.addr c, R.INS_STAT_HEAD.addr 0] ++ dramRegs) ∧
        (u.dev.cam c).frame = none ∧ u.dev.rd F.INS_Cc_STAT_OPEN c = 0 ∧ s.dev.ClosesFrame u.dev c) ∧
    (∃ u, Runs (.frameIdleTimeout c) s u ([.ins, .nzh] ++ dramParts) ([R.INS_Cc_STAT.addr c, R.INS_STAT_HEAD.addr 0] ++ dramRegs) ∧
      (u.dev.cam c).frame = none ∧ u.dev.rd F.INS_Cc_STAT_OPEN c = 0 ∧ s.dev.ClosesFrame u.dev c)) ∧
  (∀ (m : Master) (s : State), s.Inv → s.dev.Takes m R.INS_COMMIT 0 →
    ∃ u, Runs (.insCommit m) s u [.bus, .ins] [R.INS_COMMIT.addr 0] ∧ u.dev.rd F.INS_COMMIT_PENDING = 1 ∧
      u.dev.ins = { s.dev.ins with pending := some s.dev.insShadows }) ∧
  (∀ (m : Master) (k : Fin 2) (val : Nat) (s : State), s.Inv → s.dev.Takes m R.INS_I2Cm_CMD k →
    let count := clampNat 1 4 (val / 2 ^ 24 % 8)
    let j : I2cJob := { dev := val % 128, reg := val / 2 ^ 8 % 2 ^ 16, read := val.testBit 7, count := count,
                        data := s.dev.rd F.INS_I2Cm_DATA_DATA k, speed := val / 2 ^ 28 % 4, held := s.dev.ins.probing }
    (s.dev.i2cJob k = none → setsBit val 32 →
      ∃ u, Runs (.i2cGo m k val) s u [.bus, .ins, .out] [R.INS_I2Cm_CMD.addr k, R.INS_I2Cm_STAT.addr k] ∧
        u.dev.rd F.INS_I2Cm_STAT_BUSY k = 1 ∧ u.dev.i2cJob k = some j ∧
        u.dev.out = if s.dev.ins.probing then s.dev.out else s.dev.out ++ [.i2c k j.dev j.reg j.read j.count j.data j.speed]) ∧
    (s.dev.i2cJob k ≠ none ∨ val.testBit 32 = false →
      ∃ u, Runs (.i2cGo m k val) s u [.bus] [R.INS_I2Cm_CMD.addr k] ∧ u.dev.rd F.INS_I2Cm_CMD_DEV k = val % 128)) ∧
  (∀ (k : Fin 2) (j : I2cJob) (result data : Nat) (s : State), s.Inv → s.dev.i2cJob k = some j → j.held = false →
    let parts := [.ins, .raised] ++ if s.dev.ins.probing then [.out] else []
    (∃ u, Runs (.i2cComplete k result data) s u parts [R.INS_I2Cm_STAT.addr k, R.INS_I2Cm_DATA.addr k] ∧
      u.dev.ins = { s.dev.ins with i2c := s.dev.ins.i2c.set k none } ∧
      u.dev.rd F.INS_I2Cm_STAT_BUSY k = 0 ∧ u.dev.rd F.INS_I2Cm_STAT_DONE k = 1 ∧ u.dev.rd F.INS_I2Cm_STAT_RESULT k = result % 4 ∧
      u.dev.rd F.INS_I2Cm_DATA_DATA k = (if j.read ∧ result % 4 = 0 then data % 2 ^ (8 * j.count) % 2 ^ 32 else s.dev.rd F.INS_I2Cm_DATA_DATA k) ∧
      u.dev.raised = s.dev.raised ++ [s.dev.event .secure 0x0E05 [(1, k), (1, result % 4)]]) ∧
    (∃ u, Runs (.i2cTimeout k) s u parts [R.INS_I2Cm_STAT.addr k] ∧
      u.dev.ins = { s.dev.ins with i2c := s.dev.ins.i2c.set k none } ∧
      u.dev.rd F.INS_I2Cm_STAT_BUSY k = 0 ∧ u.dev.rd F.INS_I2Cm_STAT_DONE k = 1 ∧ u.dev.rd F.INS_I2Cm_STAT_RESULT k = 3 ∧
      u.dev.raised = s.dev.raised ++ [s.dev.event .secure 0x0E05 [(1, k), (1, 3)]])) ∧
  (∀ (k : Fin 2) (result data : Nat) (s : State), s.dev.i2cRuns k = false →
    s.dev.ins.probing = false ∨ at' s.dev.ins.probe k = [] → Ignored (.i2cComplete k result data) s ∧ Ignored (.i2cTimeout k) s) ∧
  (∀ (k : Fin 2) (c : Nat) (rest : List Nat) (result data : Nat) (s : State), s.dev.i2cRuns k = false → s.dev.ins.probing = true →
    at' s.dev.ins.probe k = c :: rest →
    (∃ u, Runs (.i2cComplete k result data) s u [.ins, .out] [] ∧
      u.dev.ins = { s.dev.ins with probe := s.dev.ins.probe.set k rest, answers := (c, result % 4) :: s.dev.ins.answers }) ∧
    (∃ u, Runs (.i2cTimeout k) s u [.ins, .out] [] ∧
      u.dev.ins = { s.dev.ins with probe := s.dev.ins.probe.set k rest, answers := (c, 3) :: s.dev.ins.answers }))

/-- When a nozzle's readings reach WIN_READINGS its window closes: its accumulators are cleared, and only its own health, the
counts, the list of changes and the swatch's arming may change. A HEALTHY or SUSPECT nozzle with a verdict other than HEALTHY
becomes SUSPECT with RUN one higher, arming a swatch under AUTO_SWATCH when it is new, or DROPPED with the verdict's KIND and
RUN 0 once CONFIRM windows agree, which posts STITCH_DROPPED; a HEALTHY verdict makes a SUSPECT nozzle HEALTHY with RUN 0. A
DROPPED nozzle with entry NONE counts MISSING and DEFLECTED windows up to CONFIRM, which choose a mode again; a DROPPED nozzle
with another entry and a HELD one keep state and RUN. With too few readings, or with nozzle health not ON, nothing changes.
Clauses rest on choices of the model where the spec leaves the point open: log entry 5 (open values), log entry 45 (RUN of a
DROPPED nozzle), log entry 64 (the choice of a mode), log entry 88 (what a quarantine drops), log entry 89 (HIT where SUM_E is
0, and roundings), log entry 92 (when STITCH_DROPPED is posted), log entry 190 (what RUN counts). -/
def Obligations.NozzleVerdicts : Prop :=
  ∀ (nz : Fin 131072) (s : State), let a := mapGet s.dev.nzh.acc nz {}
    let run := s.dev.rd F.NZ_HEALTH_RUN nz
    let confirm := s.dev.rdO F.NZ_DETECT_CONFIRM
    let free : List Part := if a.e = 0 then [.freeCtr] else []
    s.Inv →
    (s.dev.funcOn .nzh = false ∨ a.n < s.dev.rdO F.NZ_DETECT_WIN_READINGS → Ignored (.healthWindowClose nz) s) ∧
    (s.dev.funcOn .nzh = true → s.dev.rdO F.NZ_DETECT_WIN_READINGS ≤ a.n →
      (∃ u, Runs (.healthWindowClose nz) s u ([.nzh, .las, .raised] ++ free)
          [R.NZ_HEALTH.addr nz, R.NZ_STAT.addr 0, R.LA_SWATCH.addr 0, R.LA_SHIFT.addr 0, R.LA_SHIFT_STAT.addr 0] ∧
        mapGet u.dev.nzh.acc nz {} = {}) ∧
      (s.dev.healthState nz ≤ 1 → s.dev.verdict a ≠ .healthy → run + 1 ≠ confirm →
        s.dev.healthState nz = 1 ∨ s.dev.rd F.NZ_CTRL_AUTO_SWATCH = 0 →
        ∃ u, Runs (.healthWindowClose nz) s u ([.nzh] ++ free) [R.NZ_HEALTH.addr nz, R.NZ_STAT.addr 0] ∧ u.dev.healthState nz = 1 ∧
          u.dev.rd F.NZ_HEALTH_RUN nz = (run + 1) % 16) ∧
      (s.dev.healthState nz = 0 → s.dev.verdict a ≠ .healthy → run + 1 ≠ confirm → s.dev.rd F.NZ_CTRL_AUTO_SWATCH = 1 →
        ∃ u, exec (.healthWindowClose nz) s = .next u ∧ u.dev.healthState nz = 1 ∧ u.dev.rd F.NZ_HEALTH_RUN nz = (run + 1) % 16 ∧
          u.dev.las = if s.dev.las.armBeat = none then { s.dev.las with armBeat := some s.dev.tmb.beats, armNzh := true } else s.dev.las) ∧
      (s.dev.healthState nz ≤ 1 → s.dev.verdict a ≠ .healthy → run + 1 = confirm →
        ∃ u mode, exec (.healthWindowClose nz) s = .next u ∧ u.dev.healthState nz = 2 ∧
          u.dev.rd F.NZ_HEALTH_RUN nz = 0 ∧ u.dev.rd F.NZ_HEALTH_KIND nz = (s.dev.verdict a).kind ∧ mode < 4 ∧
          (s.dev.verdict a = .weak → s.dev.rd F.NZ_CTRL_WEAK_ACT = 1 → mode = 0) ∧
          u.dev.raised.getLast? = some (s.dev.event .secure 0x0F01 [(3, nz), (1, (s.dev.verdict a).kind), (1, mode)])) ∧
      (s.dev.healthState nz = 1 → s.dev.verdict a = .healthy →
        ∃ u, Runs (.healthWindowClose nz) s u ([.nzh] ++ free) [R.NZ_HEALTH.addr nz, R.NZ_STAT.addr 0] ∧ u.dev.healthState nz = 0 ∧
          u.dev.rd F.NZ_HEALTH_RUN nz = 0) ∧
      ((s.dev.healthState nz = 0 ∧ s.dev.verdict a = .healthy) ∨ (s.dev.healthState nz = 2 ∧ s.dev.entry nz % 4 ≠ 0) ∨ s.dev.healthState nz = 3 →
        ∃ u, Runs (.healthWindowClose nz) s u ([.nzh] ++ free) [R.NZ_HEALTH.addr nz] ∧ u.dev.healthState nz = s.dev.healthState nz ∧
          u.dev.rd F.NZ_HEALTH_RUN nz = run) ∧
      (s.dev.healthState nz = 2 → s.dev.entry nz % 4 = 0 → s.dev.verdict a = .missing ∨ s.dev.verdict a = .deflected →
        ∃ u, exec (.healthWindowClose nz) s = .next u ∧ u.dev.healthState nz = 2 ∧
          u.dev.rd F.NZ_HEALTH_RUN nz = (s.dev.runOf nz true + 1) % 16 ∧
          u.dev.rd F.NZ_HEALTH_KIND nz =
            if s.dev.runOf nz true + 1 = confirm then (s.dev.verdict a).kind else s.dev.rd F.NZ_HEALTH_KIND nz))

/-- Nozzle health takes a camera's oldest compared line, within the span that the heads print; one that is no swatch line, not
suspect and complete adds the sole readings of its columns, and a suspect or incomplete one adds none; a WEDGED camera's lines
are dropped, and without a line nothing changes. Once every ON camera is past the oldest unread swatch it is read, the swatch
readings are cleared, the nozzles without a reading count UNTESTED and SWATCH_READ is posted, and not before; SWATCH_PAGES
accepted cues arm a swatch unless one is armed, and fewer change nothing. Clauses rest on choices of the model where the spec
leaves the point open: log entry 5 (open values), log entry 63 (a refused window read), log entry 87 (when an AUTO value or
the S0 count arrives), log entry 88 (what a quarantine drops), log entry 89 (HIT where SUM_E is 0, and roundings), log entry
90 (the search for an EDGE mark), log entry 92 (when STITCH_DROPPED is posted), log entry 190 (what RUN counts), log entry 191
(what fires on a line). -/
def Obligations.SwatchesAndCameraLines : Prop :=
  (∀ (c : Fin 8) (s : State), s.Inv →
    (s.dev.wedged (.cam c) = true →
      ∃ u, Runs (.nzhCamLine c) s u [.nzh] [] ∧
        u.dev.nzh = { s.dev.nzh with inbox := s.dev.nzh.inbox.filter fun l => decide (l.cam ≠ c.val) }) ∧
    (s.dev.wedged (.cam c) = false → s.dev.nzh.inbox.find? (fun x => decide (x.cam = c.val)) = none → Ignored (.nzhCamLine c) s)) ∧
  (∀ (c : Fin 8) (l : CompLine) (s : State), let k := l.crop s.dev.printSpan.1 s.dev.printSpan.2
    s.Inv → s.dev.wedged (.cam c) = false → s.dev.nzh.inbox.find? (fun x => decide (x.cam = c.val)) = some l →
    (s.dev.funcOn .nzh = false →
      ∃ u, Runs (.nzhCamLine c) s u [.nzh] [] ∧ u.dev.nzh = { s.dev.nzh with inbox := s.dev.nzh.inbox.erase l }) ∧
    (s.dev.funcOn .nzh = true →
      ∃ u, Runs (.nzhCamLine c) s u [.nzh, .raised, .snapD, .tallies, .drm, .freeCtr] (R.NZ_REG_STAT.addr 0 :: dramRegs) ∧
        u.dev.nzh.inbox = s.dev.nzh.inbox.erase l ∧ u.dev.nzh.changes = s.dev.nzh.changes) ∧
    (s.dev.funcOn .nzh = true → k.ms = [] ∨ (l.swatch = false ∧ (l.suspect = true ∨ l.absent = true)) →
      ∃ u, Runs (.nzhCamLine c) s u [.nzh, .raised] [R.NZ_REG_STAT.addr 0] ∧ u.dev.nzh.inbox = s.dev.nzh.inbox.erase l ∧
        u.dev.nzh.acc = s.dev.nzh.acc ∧ u.dev.nzh.sw = s.dev.nzh.sw) ∧
    (s.dev.funcOn .nzh = true → l.swatch = false → l.suspect = false → l.absent = false → k.ms ≠ [] →
      ∃ u, exec (.nzhCamLine c) s = .next u ∧ u.dev.nzh.sw = s.dev.nzh.sw ∧
        u.dev.nzh.acc =
          let d := { s.dev with nzh.inbox := s.dev.nzh.inbox.erase l }
          let ws := d.readLines 8 k.col0 (k.col0 + k.ms.length - 1) l.m l.along
          (ws.2.soleReadings k ws.1 ((List.range k.ms.length).map fun q => k.col0 + q)).nzh.acc)) ∧
  (∀ (w : Swatch) (s : State), s.Inv → s.dev.las.swatches.find? (fun x => !x.read) = some w →
    (s.dev.funcOn .nzh = true → (∀ c ∈ s.dev.camsOn, (mapGet s.dev.nzh.beyond w.uid 0).testBit c = true) →
      ∃ u new, Runs .swatchVerdict s u [.nzh, .las, .raised, .snapD, .freeCtr]
          ([R.NZ_STAT.addr 0, R.LA_SHIFT.addr 0, R.LA_SHIFT_STAT.addr 0] ++ s.dev.nzh.sw.map fun p => R.NZ_HEALTH.addr p.1) ∧
        u.dev.nzh.sw = [] ∧ new ≤ s.dev.nzh.sw.length ∧
        u.dev.delta F.NZ_COUNT_UNTESTED = s.dev.delta F.NZ_COUNT_UNTESTED + (s.dev.headCount * 4096 - s.dev.nzh.sw.length) ∧
        u.dev.raised.getLast? = some (s.dev.event .secure 0x0F04 [(6, ofSigned 48 w.first), (3, s.dev.nzh.sw.length), (3, new),
          (3, s.dev.headCount * 4096 - s.dev.nzh.sw.length)])) ∧
    (s.dev.funcOn .nzh = false ∨ (∃ c ∈ s.dev.camsOn, (mapGet s.dev.nzh.beyond w.uid 0).testBit c = false) → Ignored .swatchVerdict s)) ∧
  (∀ s : State, s.dev.las.swatches.find? (fun x => !x.read) = none → Ignored .swatchVerdict s) ∧
  (∀ s : State, let n := s.dev.rd F.NZ_CTRL_SWATCH_PAGES
    s.Inv →
    (s.dev.funcOn .nzh = true → n ≠ 0 → s.dev.nzh.cues + n ≤ s.dev.web.cues →
      ∃ u, Runs .nzhSwatchPages s u [.nzh, .las] (if s.dev.las.armBeat = none then [R.LA_SWATCH.addr 0] else []) ∧
        (s.dev.las.armBeat = none → u.dev.rd F.LA_SWATCH_ARM = 1) ∧
        u.dev.las = (if s.dev.las.armBeat = none then { s.dev.las with armBeat := some s.dev.tmb.beats, armNzh := true } else s.dev.las) ∧
        u.dev.nzh = { s.dev.nzh with cues := s.dev.web.cues }) ∧
    (s.dev.funcOn .nzh = false ∨ n = 0 ∨ s.dev.web.cues < s.dev.nzh.cues + n → Ignored .nzhSwatchPages s))

/-- At the closing boundary the changes that nozzle health asked for are taken from its list: one of an unlocked nozzle with
another entry is written, the 32 bytes of the NZ_AUDIT ring's entry at HEAD take its audit record, HEAD moves on and
SUBST_CHANGED is posted with the count, the nozzle and the record's index; a locked nozzle, and every nozzle while the map is
not fed, keeps its entry. A host's write of one word or two of LA_SUBST sets MODE and LOCK of their eight nozzles each and no
other's, and a nozzle whose entry it changes becomes HELD if locked, else HEALTHY; a single changed entry is audited with the
host as its source; a write elsewhere, or of another size or alignment, changes nothing. No byte of DRAM outside the ring's
entries, one for each change, is written. Clauses rest on choices of the model where the spec leaves the point open: log entry
4 (an unwritten byte reads 0), log entry 65 (when a held change is written), log entry 88 (what a quarantine drops), log entry
91 (audit and SUBST_CHANGED, and a host change beside one of nozzle health), log entry 104 (D3hot stops requests alone), log
entry 140 (what substitution needs). -/
def Obligations.SubstitutionMap : Prop :=
  (∀ (s : State), s.Inv →
    (∃ u, Runs .substApply s u [.nzh, .drm, .mem, .ue, .snapD, .tallies, .raised, .freeCtr]
        (R.NZ_AUDIT.addr 0 :: dramRegs ++ s.dev.nzh.changes.map fun ch => R.LA_SUBST.addr (ch.nz / 8)) ∧ u.dev.nzh.changes = [] ∧
      s.dev.AuditsAtMost u.dev s.dev.nzh.changes.length) ∧
    (s.dev.nzh.changes = [] → s.dev.nzh.changed.1 = 0 → Ignored .substApply s)) ∧
  (∀ (ch : NzChange) (s : State), let head := s.dev.rd F.NZ_AUDIT_HEAD
    s.Inv → s.dev.nzh.changes = [ch] → s.dev.nzh.changed = (0, 0, 0) → ch.nz < 131072 → ch.entry < 16 →
    (s.dev.substFed = true → s.dev.entry ch.nz < 4 → s.dev.entry ch.nz ≠ ch.entry →
      ∃ u, exec .substApply s = .next u ∧ u.dev.entry ch.nz = ch.entry ∧
        u.dev.rd F.NZ_AUDIT_HEAD = (head + 1) % 2 ^ s.dev.rd F.NZ_AUDIT_LOG_ENTRIES ∧
        u.dev.raised.getLast? = some (s.dev.event .secure 0x0F03 [(4, 1), (3, ch.nz), (2, head)]) ∧
        s.dev.Audits u.dev (s.dev.auditRecord ch.nz (s.dev.entry ch.nz) ch.entry ch.source ch.kind (ch.point.getD s.dev.nextLinePoint)
          ch.hit ch.defl) ∧
        ∀ nz : Fin 131072, nz.val ≠ ch.nz → u.dev.entry nz = s.dev.entry nz) ∧
    (s.dev.substFed = false ∨ 4 ≤ s.dev.entry ch.nz ∨ s.dev.entry ch.nz = ch.entry →
      ∃ u, Runs .substApply s u [.nzh] [] ∧ u.dev.nzh = { s.dev.nzh with changes := [] })) ∧
  (∀ (m : Master) (i : Fin 16384) (val : Nat) (s : State), let source := match m with | .p0 => 1 | .p1 => 2 | .internal => 0
    s.Inv → s.dev.Takes m R.LA_SUBST i →
    (∃ u, Runs (.substHostWrite m (regSpace + R.LA_SUBST.base + 4 * i) 4 val) s u
        [.bus, .nzh, .las, .drm, .mem, .ue, .snapD, .tallies, .raised, .freeCtr]
        ([R.LA_SUBST.addr i, R.NZ_STAT.addr 0, R.NZ_AUDIT.addr 0] ++ dramRegs ++ (List.range 8).map fun j => R.NZ_HEALTH.addr (8 * i + j)) ∧
      (∀ j : Fin 8, u.dev.entry (8 * i + j) = val / 2 ^ (4 * j.val) % 8 ∧
        (s.dev.entry (8 * i + j) ≠ val / 2 ^ (4 * j.val) % 8 →
          u.dev.healthState (8 * i + j) = if 4 ≤ val / 2 ^ (4 * j.val) % 8 then 3 else 0)) ∧
      s.dev.AuditsAtMost u.dev 8 ∧
      (∀ j : Fin 8, s.dev.entry (8 * i + j) ≠ val / 2 ^ (4 * j.val) % 8 →
        (∀ k : Fin 8, k ≠ j → s.dev.entry (8 * i + k) = val / 2 ^ (4 * k.val) % 8) →
        u.dev.rd F.NZ_AUDIT_HEAD = (s.dev.rd F.NZ_AUDIT_HEAD + 1) % 2 ^ s.dev.rd F.NZ_AUDIT_LOG_ENTRIES ∧
        s.dev.Audits u.dev (s.dev.auditRecord (8 * i + j) (s.dev.entry (8 * i + j)) (val / 2 ^ (4 * j.val) % 8) source 0
          s.dev.nextLinePoint 0 0)) ∧
      ∀ nz : Fin 131072, nz.val / 8 ≠ i → u.dev.entry nz = s.dev.entry nz ∧ u.dev.healthState nz = s.dev.healthState nz) ∧
    (i.val % 2 = 0 →
      ∃ u, exec (.substHostWrite m (regSpace + R.LA_SUBST.base + 4 * i) 8 val) s = .next u ∧
        (∀ j : Fin 16, u.dev.entry (8 * i + j) = val / 2 ^ (4 * j.val) % 8) ∧ s.dev.AuditsAtMost u.dev 16 ∧
        ∀ nz : Fin 131072, nz.val / 16 ≠ i / 2 → u.dev.entry nz = s.dev.entry nz)) ∧
  (∀ (m : Master) (addr bytes val : Nat) (s : State),
    addr < regSpace + R.LA_SUBST.base ∨ regSpace + R.LA_SUBST.base + 0x10000 < addr + bytes ∨ (bytes ≠ 4 ∧ bytes ≠ 8) ∨ addr % bytes ≠ 0 →
    Ignored (.substHostWrite m addr bytes val) s)

/-- A granule read changes only what the memory controller keeps, and one beyond the capacity nothing; with no error on a good
granule the controller fetches it; an uncorrectable granule counts UNCORR, shows its address and requester and sets DRAM_UE;
one wrong symbol on an unmarked rank counts CORRECTED, adds one to its lane's CE and enters the row in the lane's table. A
narrow write of nothing, or during a reset, is ignored; one beyond the capacity or refused by world stores nothing; another
stores its bytes, and what came back miscorrected beside them, but nothing in a granule of which it leaves an uncorrectable
code word uncovered; each uncorrectable granule that it reads counts UNCORR, unless an earlier read completion has counted it;
ports 10 and 11 log the error, and internal requesters hear of it. MARK marks an unmarked chip with cause 3 in the first free
mark, starts the rebuild of an unused spare and posts CHIP_MARKED; a third chip is refused and posted; a marked chip, a lane
above 9, an absent rank and a write without MARK mark nothing; FORGET waits for the next cold cast-on. Clauses rest on choices
of the model where the spec leaves the point open: log entry 4 (an unwritten byte reads 0), log entry 58 (the window as a
requester), log entry 93 (an open choice), log entry 94 (what CORRECTED and the erased symbols count), log entry 95 (when CE
condemns a chip, and which row is repaired), log entry 96 (absent ranks and clamped margins), log entry 97 (how the DRAM group
packs marks and repairs), log entry 99 (when a row stays open), log entry 101 (what counts as moved, and who hears of a
yield), log entry 104 (D3hot stops requests alone), log entry 108 (which port may write a register, and the world of a port
before a Pattern), log entry 147 (how accesses meet uncorrectable granules), log entry 178 (what an earlier read completion
has counted), log entry 179 (requests that wait in the memory front), log entry 189 (the world of an encode write). -/
def Obligations.DramAccesses : Prop :=
  (∀ (rq : Fin 20) (a : Nat) (errs : List SymbolError) (s : State), let g := a / 128 * 128
    let p := s.dev.place (chanAddr g)
    s.Inv →
    (g < s.dev.capacity →
      ∃ u, Runs (.dramReadComplete rq a errs) s u [.drm, .ue, .freeCtr, .raised, .tallies, .snapD, .vlt, .out]
        (dramRegs ++ (List.range 44).map (R.DM_LANE.addr ·) ++ (List.range 4).map (R.DM_SPARE.addr ·)) ∧ ∀ w ∈ s.dev.ue, w ∈ u.dev.ue) ∧
    (s.dev.capacity ≤ g → Ignored (.dramReadComplete rq a errs) s) ∧
    (g < s.dev.capacity → s.dev.granuleBad g = false →
      ∃ u, Runs (.dramReadComplete rq a []) s u [.drm] [] ∧ ⟨rq, g, []⟩ ∈ u.dev.drm.fetched) ∧
    (g < s.dev.capacity → s.dev.granuleBad g = true →
      ∃ u, Runs (.dramReadComplete rq a []) s u [.drm, .snapD, .tallies, .out]
          [R.DM_UE_ADDR.addr (chanOf g), R.SYS_FAULT_STAT.addr 0] ∧
        u.dev.delta F.DM_ECC_COUNT_UNCORR (chanOf g) = s.dev.delta F.DM_ECC_COUNT_UNCORR (chanOf g) + 1 ∧
        u.dev.rd F.DM_UE_ADDR_ADDR (chanOf g) = g % 2 ^ 40 ∧ u.dev.rd F.DM_UE_ADDR_REQ (chanOf g) = rq ∧
        u.dev.rd F.SYS_FAULT_STAT_DRAM_UE = 1 ∧
        u.dev.out = s.dev.out ++
          (if (rq < 5 ∨ rq = 10) ∨ (rq = 11 ∨ 16 < rq) then [] else [Out.completion .internal .err []])) ∧
    (∀ e : SymbolError, let key := laneIdx (chanOf g) p.rank (symLane e.sym)
      g < s.dev.capacity → s.dev.granuleBad g = false → e.diff ≠ 0 → s.dev.mark1 (chanOf g) p.rank = 15 → s.dev.mark2 (chanOf g) p.rank = 15 →
      (∀ r ∈ (s.dev.lane key).rows, (r.bg, r.bank, r.row) ≠ (p.bg, p.bank, p.row)) →
      s.dev.rd F.DM_LANE_CE key + 1 < s.dev.rd F.DM_RETRAIN_MARK_THRESH (chanOf g) →
      ∃ u, Runs (.dramReadComplete rq a [e]) s u [.drm, .snapD] [R.DM_LANE.addr key] ∧
        u.dev.delta F.DM_ECC_COUNT_CORRECTED (chanOf g) = s.dev.delta F.DM_ECC_COUNT_CORRECTED (chanOf g) + 1 ∧
        u.dev.rd F.DM_LANE_CE key = s.dev.rd F.DM_LANE_CE key + 1 ∧
        (u.dev.lane key).rows = (⟨p.bg, p.bank, p.row, 1⟩ :: (s.dev.lane key).rows).take 16)) ∧
  (∀ (rq : Fin 20) (a : Nat) (bs : List Byte) (s : State), let left := fun g => !(s.dev.uncovered g a bs.length).isEmpty
    let part := fun g => decide (g < a ∨ a + bs.length < g + 128)
    let met := fun g => (part g && s.dev.granuleBad g) && s.dev.drm.fetched.all fun f => decide (f.rq ≠ rq ∨ f.g ≠ g)
    s.Inv →
    (bs = [] ∨ s.dev.sys.reset.isSome = true → Ignored (.dramRmw rq a bs) s) ∧
    (s.dev.sys.reset = none →
    (bs ≠ [] → s.dev.capacity < a + bs.length →
      ∃ u, Runs (.dramRmw rq a bs) s u [.hst, .out] [] ∧ u.dev.out = s.dev.out ++ tells rq .ur) ∧
    (bs ≠ [] → s.dev.checkDram (s.dev.reqSecure rq a) a bs.length = .world →
      ∃ u, Runs (.dramRmw rq a bs) s u [.hst, .out, .raised] [] ∧ u.dev.out = s.dev.out ++ tells rq .ca ∧
        u.dev.raised = s.dev.raised ++ [s.dev.event .secure 0x0310 [(5, a), (1, rq)]]) ∧
    (bs ≠ [] → s.dev.checkDram (s.dev.reqSecure rq a) a bs.length = .pass →
      ∃ u, Runs (.dramRmw rq a bs) s u
          ([.drm, .mem, .ue, .hst, .out, .snapD, .tallies] ++
            if s.dev.drm.fetched.any fun f => decide (f.rq = rq) && !f.wrong.isEmpty then [.freeCtr] else []) dramRegs ∧
        ((∀ f ∈ s.dev.drm.fetched, ∀ w ∈ f.wrong, w / 8 = f.g / 128) →
          ∀ k, (∀ f ∈ s.dev.drm.fetched, f.rq = rq → k / 16 ∉ f.wrong) ∨ (a ≤ k ∧ k < a + bs.length) → u.dev.byte k =
            if (a ≤ k ∧ k < a + bs.length) ∧ left (k / 128 * 128) = false then bs.getD (k - a) 0 else s.dev.byte k) ∧
        (∀ ch : Fin 2, u.dev.delta F.DM_ECC_COUNT_UNCORR ch = s.dev.delta F.DM_ECC_COUNT_UNCORR ch +
          ((granules a bs.length).filter fun g => met g && decide (chanOf g = ch.val)).length) ∧
        u.dev.out = s.dev.out ++ (if (granules a bs.length).any left then tells rq .poisoned else [])))) ∧
  (∀ (m : Master) (ch : Fin 2) (val : Nat) (s : State), let k := rankIdx ch (val % 2)
    let lane := val / 16 % 16
    let posts := fun low => s.dev.raised ++ [s.dev.event .secure (dmEvent ch low) [(1, val % 2), (1, lane), (1, 3)]]
    s.Inv → s.dev.Takes m R.DM_MARK_CTRL ch → ¬ setsBit val 9 →
    (setsBit val 8 → lane ≤ 9 → val % 2 < s.dev.ranks → s.dev.rd F.DM_SPARE_MARK1 k = 15 → s.dev.rd F.DM_SPARE_MARK2 k ≠ lane →
      ∃ u, Runs (.chipMarkHost m ch val) s u [.bus, .vlt, .raised] [R.DM_MARK_CTRL.addr ch, R.DM_SPARE.addr k] ∧
        u.dev.rd F.DM_SPARE_MARK1 k = lane ∧ u.dev.rd F.DM_SPARE_CAUSE1 k = 3 ∧
        u.dev.rd F.DM_SPARE_SPARE k = (if s.dev.rd F.DM_SPARE_SPARE k = 0 then 1 else s.dev.rd F.DM_SPARE_SPARE k) ∧
        u.dev.rd F.DM_SPARE_POINTER k = (if s.dev.rd F.DM_SPARE_SPARE k = 0 then 0 else s.dev.rd F.DM_SPARE_POINTER k) ∧
        u.dev.raised = posts 2) ∧
    (setsBit val 8 → lane ≤ 9 → val % 2 < s.dev.ranks → s.dev.rd F.DM_SPARE_MARK1 k ≠ 15 → s.dev.rd F.DM_SPARE_MARK1 k ≠ lane →
      s.dev.rd F.DM_SPARE_MARK2 k = 15 →
      ∃ u, Runs (.chipMarkHost m ch val) s u [.bus, .vlt, .raised] [R.DM_MARK_CTRL.addr ch, R.DM_SPARE.addr k] ∧
        u.dev.rd F.DM_SPARE_MARK1 k = s.dev.rd F.DM_SPARE_MARK1 k ∧ u.dev.rd F.DM_SPARE_MARK2 k = lane ∧
        u.dev.rd F.DM_SPARE_CAUSE2 k = 3 ∧ u.dev.rd F.DM_SPARE_SPARE k = s.dev.rd F.DM_SPARE_SPARE k ∧ u.dev.raised = posts 2) ∧
    (setsBit val 8 → lane ≤ 9 → val % 2 < s.dev.ranks → s.dev.marked ch (val % 2) lane = false → s.dev.rd F.DM_SPARE_MARK1 k ≠ 15 →
      s.dev.rd F.DM_SPARE_MARK2 k ≠ 15 →
      ∃ u, Runs (.chipMarkHost m ch val) s u [.bus, .raised] [R.DM_MARK_CTRL.addr ch] ∧ u.dev.raised = posts 5) ∧
    (((¬ setsBit val 8 ∨ 9 < lane) ∨ (s.dev.ranks ≤ val % 2 ∨ s.dev.marked ch (val % 2) lane = true)) →
      ∃ u, Runs (.chipMarkHost m ch val) s u [.bus] [R.DM_MARK_CTRL.addr ch])) ∧
  (∀ (m : Master) (ch : Fin 2) (s : State), s.Inv → s.dev.Takes m R.DM_MARK_CTRL ch →
    ∃ u, Runs (.markForget m ch) s u [.bus, .drm] [R.DM_MARK_CTRL.addr ch] ∧
      u.dev.drm = { s.dev.drm with forget := s.dev.drm.forget.set ch true })

/-- CE falls by one a second, not below 0. The rebuild sweep and the patrol scrub move their pointers on, count and show an
uncorrectable granule they meet, and at the last granule put the spare IN_USE or end the pass with SCRUB_PASS; without a spare
under rebuild, without DRAM or while a speed change runs they do nothing. A candidate row is repaired, recorded and posted,
its uncorrectable granules counted; without a candidate, a free entry, soft repair or an idle bar nothing happens. A
retraining pause of the lane whose turn it is, in a quiet refresh slot, adds its result, and the 18th sets margin, delays and
flags; any other is ignored. Each tREFI owes one refresh more, up to 7, which an idle rank issues; four owed force one, which
counts and yields the slot of a rank 3 or 4 owner. The temperature poll sets HOT and posts each device newly above its range.
A speed change that no test refuses is BUSY in both channels until it is done, when the new speed shows, SPEED_CHANGED is
posted and every bank is closed with its counter at 2; nothing is taken while one runs. Clauses rest on choices of the model
where the spec leaves the point open: log entry 18 (when a rank is idle), log entry 93 (an open choice), log entry 94 (what
CORRECTED and the erased symbols count), log entry 95 (when CE condemns a chip, and which row is repaired), log entry 96
(absent ranks and clamped margins), log entry 97 (how the DRAM group packs marks and repairs), log entry 98 (SPEED_CHANGED and
writes while BUSY), log entry 99 (when a row stays open), log entry 101 (what counts as moved, and who hears of a yield), log
entry 104 (D3hot stops requests alone), log entry 141 (bind-off after a cast-on that has stopped), log entry 178 (what an
earlier read completion has counted), log entry 179 (requests that wait in the memory front), log entry 180 (the turn and the
interval of retraining pauses). -/
def Obligations.DramUpkeep : Prop :=
  (∀ s : State, s.Inv → ∃ u, Runs .ceDecay s u [] ((List.range 44).map (R.DM_LANE.addr ·)) ∧
    ∀ k : Fin 44, u.dev.rd F.DM_LANE_CE k = s.dev.rd F.DM_LANE_CE k - 1) ∧
  (∀ (ch : Fin 2) (rank : Nat) (s : State), let k := rankIdx ch rank
    let p := s.dev.rd F.DM_SPARE_POINTER k
    let g := addrOf ch (s.dev.rankAddr rank p)
    let n := if s.dev.granuleBad g then 1 else 0
    s.Inv →
    (s.dev.rebuilding ch = none ∨ s.dev.speedChanging = true → Ignored (.rebuildGranule ch) s) ∧
    (∀ errs : List SymbolError, s.dev.rebuilding ch = some rank → s.dev.speedChanging = false →
      ∃ u, Runs (.rebuildGranule ch errs) s u ([.vlt] ++ dramParts)
          ((List.range 44).map (R.DM_LANE.addr ·) ++ (List.range 4).map (R.DM_SPARE.addr ·) ++ dramRegs) ∧
        u.dev.rd F.DM_SPARE_POINTER k = (p + 1) % 2 ^ F.DM_SPARE_POINTER.w) ∧
    (s.dev.rebuilding ch = some rank → s.dev.speedChanging = false → p + 1 < s.dev.rankGranules → p + 1 < 2 ^ 28 →
      ∃ u, Runs (.rebuildGranule ch) s u ([.drm, .vlt] ++ if n = 0 then [] else [.snapD, .tallies])
          (R.DM_SPARE.addr k :: if n = 0 then [] else dramRegs) ∧ u.dev.rd F.DM_SPARE_POINTER k = p + 1 ∧
        u.dev.spare ch rank = 1 ∧
        u.dev.delta F.DM_ECC_COUNT_UNCORR (chanOf g) = s.dev.delta F.DM_ECC_COUNT_UNCORR (chanOf g) + n) ∧
    (s.dev.rebuilding ch = some rank → s.dev.speedChanging = false → s.dev.rankGranules ≤ p + 1 →
      ∃ u, Runs (.rebuildGranule ch) s u ([.drm, .vlt, .raised] ++ if n = 0 then [] else [.snapD, .tallies])
          (R.DM_SPARE.addr k :: if n = 0 then [] else dramRegs) ∧ u.dev.spare ch rank = 2 ∧
        u.dev.raised = s.dev.raised ++ [s.dev.event .secure (dmEvent ch 3) [(1, rank), (1, s.dev.mark1 ch rank)]])) ∧
  (∀ (ch : Fin 2) (errs : List SymbolError) (s : State), let i := s.dev.rd F.DM_SCRUB_POINTER ch
    let next := if i + 1 < s.dev.chanGranules then i + 1 else 0
    let g := addrOf ch (i * 128)
    let n := if s.dev.granuleBad g then 1 else 0
    let passes := (s.dev.rd F.DM_SCRUB_PASSES ch + if i + 1 < s.dev.chanGranules then 0 else 1) % 65536
    s.Inv →
    (s.dev.speedChanging = true ∨ s.dev.chanGranules = 0 → Ignored (.scrubGranule ch errs) s) ∧
    (s.dev.speedChanging = false → 0 < s.dev.chanGranules → s.dev.chanGranules ≤ 2 ^ 28 →
      ∃ u, Runs (.scrubGranule ch errs) s u ([.vlt] ++ dramParts)
          ([R.DM_SCRUB.addr ch] ++ (List.range 44).map (R.DM_LANE.addr ·) ++ (List.range 4).map (R.DM_SPARE.addr ·) ++ dramRegs) ∧
        u.dev.rd F.DM_SCRUB_POINTER ch = next ∧ u.dev.rd F.DM_SCRUB_PASSES ch = passes) ∧
    (s.dev.speedChanging = false → 0 < s.dev.chanGranules → s.dev.chanGranules ≤ 2 ^ 28 →
      ∃ u, Runs (.scrubGranule ch []) s u ([.drm, .raised] ++ if n = 0 then [] else [.snapD, .tallies])
          (R.DM_SCRUB.addr ch :: if n = 0 then [] else dramRegs) ∧
        u.dev.delta F.DM_ECC_COUNT_UNCORR (chanOf g) = s.dev.delta F.DM_ECC_COUNT_UNCORR (chanOf g) + n ∧
        u.dev.raised = s.dev.raised ++
          (if next = 0 then [s.dev.event .secure (dmEvent ch 10) [(2, passes)]] else []))) ∧
  (∀ (ch rank : Fin 2) (lane : Fin 11) (r : DramRow) (i : Nat) (s : State), let key := laneIdx ch rank lane
    let cand := (s.dev.lane key).rows.find? (fun r => decide (4 ≤ r.count) && !s.dev.pprHas ch rank lane r.bg)
    let gs := (List.range 64).map fun col => addrOf ch (s.dev.rowAddr rank r.bg r.bank r.row col)
    s.Inv →
    (((cand = none ∨ s.dev.pprFree ch = none) ∨ (s.dev.pat.loaded.dram.ppr = false ∨ s.dev.barIdle = false)) →
      Ignored (.pprRepair ch rank lane) s) ∧
    (∀ errs : List (Fin 64 × SymbolError), cand = some r → s.dev.pprFree ch = some i → s.dev.pat.loaded.dram.ppr = true →
      s.dev.barIdle = true →
      ∃ u, Runs (.pprRepair ch rank lane errs) s u ([.vlt] ++ dramParts)
          (R.DM_PPR.addr (ch * 4 + i) :: (List.range 44).map (R.DM_LANE.addr ·) ++ (List.range 4).map (R.DM_SPARE.addr ·) ++ dramRegs) ∧
        u.dev.rd F.DM_PPR_VALID (ch * 4 + i) = 1 ∧ u.dev.rd F.DM_PPR_ROW (ch * 4 + i) = r.row % 2 ^ 17) ∧
    (cand = some r → s.dev.pprFree ch = some i → s.dev.pat.loaded.dram.ppr = true → s.dev.barIdle = true →
      ∃ u, Runs (.pprRepair ch rank lane) s u
          ([.drm, .vlt, .raised] ++ if gs.any s.dev.granuleBad then [.snapD, .tallies] else [])
          (R.DM_PPR.addr (ch * 4 + i) :: if gs.any s.dev.granuleBad then dramRegs else []) ∧
        u.dev.rd F.DM_PPR_VALID (ch * 4 + i) = 1 ∧ u.dev.rd F.DM_PPR_RANK (ch * 4 + i) = rank ∧
        u.dev.rd F.DM_PPR_LANE (ch * 4 + i) = lane ∧ u.dev.rd F.DM_PPR_BG (ch * 4 + i) = r.bg % 8 ∧
        u.dev.rd F.DM_PPR_BANK (ch * 4 + i) = r.bank % 4 ∧ u.dev.rd F.DM_PPR_ROW (ch * 4 + i) = r.row % 2 ^ 17 ∧
        (u.dev.lane key).rows = (s.dev.lane key).rows.erase r ∧ u.dev.raised = s.dev.raised ++
          [s.dev.event .secure (dmEvent ch 7) [(1, rank), (1, lane), (1, r.bg), (1, r.bank), (3, r.row)]])) ∧
  (∀ (ch rank : Fin 2) (lane : Fin 11) (pass : Bool) (s : State), let key := laneIdx ch rank lane
    let quiet := !s.dev.frontHeld && (s.dev.arb ch).quiet
    let may := quiet && (s.dev.pauseFree ch && decide (s.dev.nextLane ch = some (rank.val * 11 + lane.val)))
    let r := (s.dev.lane key).pass ++ [pass]
    let rdRun := longestRun (r.take 9)
    let wrRun := longestRun (r.drop 9)
    let margin := min rdRun.2 wrRun.2 - 1
    s.Inv →
    (may = false → Ignored (.retrainPause ch rank lane pass) s) ∧
    (may = true → r.length < 18 →
      ∃ u, Runs (.retrainPause ch rank lane pass) s u [.drm] [] ∧ (u.dev.lane key).pass = r ∧ (u.dev.arb ch).quiet = false ∧
        (u.dev.arb ch).pausedIn = some s.dev.beat ∧ ∀ k, k ≠ key → u.dev.lane k = s.dev.lane k) ∧
    (may = true → 18 ≤ r.length → rdRun.2 = 0 ∨ wrRun.2 = 0 →
      ∃ u, Runs (.retrainPause ch rank lane pass) s u [.drm, .vlt, .raised] [R.DM_LANE.addr key, R.DM_SPARE.addr (rankIdx ch rank)] ∧
        (u.dev.lane key).pass = [] ∧ (u.dev.lane key).quick = true ∧ u.dev.rd F.DM_LANE_SUSPECT key = 1 ∧
        u.dev.rd F.DM_LANE_NOSET key = min 3 (s.dev.rd F.DM_LANE_NOSET key + 1)) ∧
    (may = true → 18 ≤ r.length → rdRun.2 ≠ 0 → wrRun.2 ≠ 0 → margin < s.dev.rd F.DM_RETRAIN_FLOOR ch →
      ∃ u, Runs (.retrainPause ch rank lane pass) s u [.drm, .vlt, .raised] [R.DM_LANE.addr key, R.DM_SPARE.addr (rankIdx ch rank)] ∧
        (u.dev.lane key).pass = [] ∧ u.dev.rd F.DM_LANE_MARGIN key = min 7 margin) ∧
    (may = true → 18 ≤ r.length → rdRun.2 ≠ 0 → wrRun.2 ≠ 0 → s.dev.rd F.DM_RETRAIN_FLOOR ch ≤ margin →
      ∃ u, Runs (.retrainPause ch rank lane pass) s u [.drm] [R.DM_LANE.addr key] ∧ u.dev.rd F.DM_LANE_MARGIN key = min 7 margin ∧
        u.dev.rd F.DM_LANE_SUSPECT key = 0 ∧ u.dev.rd F.DM_LANE_NOSET key = 0 ∧
        (u.dev.lane key).pass = [] ∧ (u.dev.lane key).quick = false ∧
        (u.dev.lane key).rdDelay = (s.dev.lane key).rdDelay + (rdRun.1 + (rdRun.2 - 1) / 2 : Nat) - 4 ∧
        (u.dev.lane key).wrDelay = (s.dev.lane key).wrDelay + (wrRun.1 + (wrRun.2 - 1) / 2 : Nat) - 4)) ∧
  (∀ (ch rank : Fin 2) (s : State), let owes := min 7 (s.dev.owed ch rank + 1)
    let a := s.dev.arb ch
    s.Inv →
    (s.dev.ranks ≤ rank → Ignored (.trefiTick ch rank) s) ∧
    (rank < s.dev.ranks →
      ∃ u, Runs (.trefiTick ch rank) s u [.drm] [R.DM_REFRESH.addr ch] ∧ u.dev.owed ch rank =
        (if s.dev.rd F.DM_STAT_STATE ch = 1 ∧ a.busy rank = false then owes - 1 else owes)) ∧
    (s.dev.owed ch rank < 4 → Ignored (.refForced ch rank) s) ∧
    (4 ≤ s.dev.owed ch rank →
      ∃ u, Runs (.refForced ch rank) s u [.drm, .snapD] [R.DM_REFRESH.addr ch] ∧ u.dev.owed ch rank = s.dev.owed ch rank - 1 ∧
        u.dev.delta F.DM_REFRESH_FORCED ch = s.dev.delta F.DM_REFRESH_FORCED ch + 1 ∧
        u.dev.arb ch = (if a.slot < 20 ∧ 3 ≤ ownRank a.slot then a.yield a.slot 3 else a))) ∧
  (∀ (ch rank : Fin 2) (doubled tooHot : BitVec 11) (s : State), s.Inv →
    (s.dev.ranks ≤ rank → Ignored (.dramTempPoll ch rank doubled tooHot) s) ∧
    (rank < s.dev.ranks →
      ∃ u, Runs (.dramTempPoll ch rank doubled tooHot) s u [.drm, .raised] [R.DM_STAT.addr ch] ∧
        u.dev.rd (if rank = 0 then F.DM_STAT_HOT0 else F.DM_STAT_HOT1) ch = (if doubled = 0 then 0 else 1) ∧
        (∀ l : Fin 11, tooHot.getLsbD l = true → laneIdx ch rank l ∈ u.dev.drm.tooHot) ∧
        u.dev.raised = s.dev.raised ++
          ((List.range 11).filter fun l => tooHot.getLsbD l && !s.dev.drm.tooHot.contains (laneIdx ch rank l)).map
            fun l => s.dev.event .secure (dmEvent ch 9) [(1, rank), (1, l)])) ∧
  (∀ (m : Master) (ch : Fin 2) (val : Nat) (s : State), s.Inv → s.dev.Takes m R.DM_SPEED_CTRL ch →
    (s.dev.speedChanging = true → ∃ u, Runs (.speedChangeGo m ch val) s u [.bus] []) ∧
    (¬ setsBit val 4 → s.dev.speedChanging = false →
      ∃ u, Runs (.speedChangeGo m ch val) s u [.bus] [R.DM_SPEED_CTRL.addr 0, R.DM_SPEED_CTRL.addr 1] ∧
        ∀ c : Fin 2, u.dev.rd F.DM_SPEED_CTRL_TARGET c = val % 4) ∧
    (setsBit val 4 → s.dev.speedChanging = false → s.dev.speedRefused (val % 4) = 0 →
      ∃ u, Runs (.speedChangeGo m ch val) s u [.bus, .drm]
          [R.DM_SPEED_CTRL.addr 0, R.DM_SPEED_CTRL.addr 1, R.DM_STAT.addr 0, R.DM_STAT.addr 1] ∧ u.dev.drm.speed = some (val % 4) ∧
        ∀ c : Fin 2, u.dev.rd F.DM_SPEED_CTRL_BUSY c = 1 ∧ u.dev.rd F.DM_SPEED_CTRL_RESULT c = 0) ∧
    (setsBit val 4 → s.dev.speedChanging = false → s.dev.speedRefused (val % 4) ≠ 0 →
      ∃ u, Runs (.speedChangeGo m ch val) s u [.bus] [R.DM_SPEED_CTRL.addr 0, R.DM_SPEED_CTRL.addr 1] ∧
        ∀ c : Fin 2, u.dev.rd F.DM_SPEED_CTRL_RESULT c = s.dev.speedRefused (val % 4))) ∧
  (∀ (lanes : List (Fin 2 × Fin 2 × Fin 11)) (sp : Nat) (s : State),
    let regs := [R.DM_SPEED_CTRL.addr 0, R.DM_SPEED_CTRL.addr 1, R.DM_STAT.addr 0, R.DM_STAT.addr 1]
    let done := [s.dev.event .secure (dmEvent 0 8) [(1, sp)], s.dev.event .secure (dmEvent 1 8) [(1, sp)]]
    s.Inv →
    (s.dev.drm.speed = none → Ignored (.speedChangeDone lanes) s) ∧
    (s.dev.drm.speed = some sp → sp < 4 →
      ∃ u, Runs (.speedChangeDone lanes) s u ([.vlt, .hst, .out] ++ dramParts)
          (regs ++ (List.range 4).map (R.DM_SPARE.addr ·) ++ dramRegs) ∧
        (∀ c : Fin 2, u.dev.rd F.DM_SPEED_CTRL_BUSY c = 0 ∧ u.dev.rd F.DM_STAT_SPEED c = sp ∧ u.dev.rd F.DM_STAT_STATE c = 1) ∧
        ∀ e ∈ done, e ∈ u.dev.raised) ∧
    (s.dev.drm.speed = some sp → sp < 4 → s.dev.drm.held = [] →
      ∃ u, Runs (.speedChangeDone []) s u [.drm, .raised] regs ∧
        u.dev.drm = { s.dev.drm with
          speed := none, banks := s.dev.drm.banks.map fun p => (p.1, { p.2 with ctr := 2, isOpen := false }) } ∧
        u.dev.raised = s.dev.raised ++ done))

/-- At a granule boundary at which the front serves requests and the channel has neither a holder nor a slot service, the
arbiter grants the head of the lowest-numbered class queue, or, when the grant count reaches STARVE_N, the oldest waiter, and
counts STARVE; at another boundary the requests only join the queues. A holder cut at HOLD_MAX rejoins the tail with age 0,
counts HOLD_CUTS, and HOLD_CUT is posted once per beat and channel; without a holder nothing is cut. A requester that drops
its request leaves the grant, the queue and the slot service, whose waiting owner takes the rest of the slot. A slot that
would open after the beat's end does not occur; one that opens ends the service that ran; a requester's slot gives service to
its waiting owner, and counts it as owned, unless an urgent requester of better rank waits; a refresh slot refreshes every
rank that owes, or is left to an overdue retraining pause; an unassigned slot, and one that opens while the front is held,
serves nobody. Clauses rest on choices of the model where the spec leaves the point open: log entry 18 (when a rank is idle),
log entry 100 (ages, queues and cuts), log entry 101 (what counts as moved, and who hears of a yield), log entry 179 (requests
that wait in the memory front), log entry 180 (the turn and the interval of retraining pauses). -/
def Obligations.Arbitration : Prop :=
  (∀ (ch : Fin 2) (reqs : List MemReq) (w : Waiter) (s : State), let a := s.dev.joinQueue ch reqs
    let free := !s.dev.frontHeld && (a.holder.isNone && a.service.isNone)
    let left := a.waiting.filter fun x => decide (x.r ≠ w.r)
    let has := { a with holder := some w, since := s.dev.elapsed, holdMax := s.dev.rd F.MF_ARB_CFG_HOLD_MAX, waiting := left }
    s.Inv →
    (free = false ∨ a.waiting = [] →
      ∃ u, Runs (.arbiterGrant ch reqs) s u [.drm] [R.DM_REFRESH.addr ch] ∧ u.dev.arb ch = a) ∧
    (free = true → s.dev.rd F.MF_ARB_CFG_STARVE_N ≠ a.grants + 1 → headOf a.waiting = some w →
      ∃ u, Runs (.arbiterGrant ch reqs) s u [.drm] [R.DM_REFRESH.addr ch] ∧ u.dev.arb ch = { has with grants := a.grants + 1 }) ∧
    (free = true → s.dev.rd F.MF_ARB_CFG_STARVE_N = a.grants + 1 → oldestOf a.waiting = some w →
      ∃ u, Runs (.arbiterGrant ch reqs) s u [.drm, .snapD] [R.DM_REFRESH.addr ch] ∧ u.dev.arb ch = { has with grants := 0 } ∧
        u.dev.delta F.MF_COUNT_STARVE ch = s.dev.delta F.MF_COUNT_STARVE ch + 1)) ∧
  (∀ (ch : Fin 2) (w : Waiter) (s : State), let a := s.dev.arb ch
    s.Inv →
    (a.holder = none → Ignored (.holdCut ch) s) ∧
    (a.holder = some w →
      ∃ u, Runs (.holdCut ch) s u [.drm, .snapD, .raised, .onceKeys] [] ∧
        u.dev.arb ch = { a with holder := none, waiting := a.waiting ++ [{ w with since := s.dev.elapsed }] } ∧
        u.dev.delta F.MF_COUNT_HOLD_CUTS ch = s.dev.delta F.MF_COUNT_HOLD_CUTS ch + 1 ∧
        u.dev.raised = (if (0x0402, ch.val) ∈ s.dev.onceKeys then s.dev.raised
          else s.dev.raised ++ [s.dev.event .secure 0x0402 [(1, w.r), (1, ch)]]))) ∧
  (∀ (ch : Fin 2) (r : Fin 20) (s : State), let a := s.dev.arb ch
    let left := a.waiting.filter fun w => decide (w.r ≠ r.val)
    s.Inv →
    ∃ u, Runs (.requestWithdraw ch r) s u [.drm] [R.DM_REFRESH.addr ch] ∧ (u.dev.arb ch).waiting = left ∧
      (u.dev.arb ch).holder = a.holder.filter (fun w => decide (w.r ≠ r.val)) ∧
      (a.service ≠ some r.val → (u.dev.arb ch).service = a.service) ∧
      (a.service = some r.val → (u.dev.arb ch).service =
        (if a.slot ≠ r.val ∧ left.any (fun w => decide (w.r = a.slot)) = true then some a.slot else none))) ∧
  (∀ (ch : Fin 2) (slot : Fin 64) (reqs : List MemReq) (stream : Bool) (s : State), let a := s.dev.joinQueue ch reqs
    let t := s.dev.tmb.openT + 125 * slot.val / 2
    let e := at' (s.dev.slotTable R.MF_SLOT_ACTIVE ch) slot
    let hot := { s.dev with drm.stream := stream }.urgency
    let regs := [R.DM_REFRESH.addr ch]
    s.Inv →
    (s.dev.boundary ≤ t → Ignored (.slotOpen ch slot reqs stream) s) ∧
    (t < s.dev.boundary →
      ∃ u, Runs (.slotOpen ch slot reqs stream) s u [.drm] regs ∧ (u.dev.arb ch).slot = e ∧
        (u.dev.arb ch).slotT = t ∧ u.dev.drm.stream = stream ∧ (u.dev.arb ch).waiting = a.waiting ∧
        (20 ≤ e ∨ s.dev.frontHeld = true → (u.dev.arb ch).service = none)) ∧
    (t < s.dev.boundary → e < 20 → s.dev.frontHeld = false →
      ∃ u, Runs (.slotOpen ch slot reqs stream) s u [.drm] regs ∧
        (u.dev.arb ch).service = serviceOf a e hot ∧
        (u.dev.arb ch).owned =
          (if a.waiting.any (fun w => decide (w.r = e)) = true then mapSet a.owned e (mapGet a.owned e 0 + 1) 0 else a.owned) ∧
        ((∃ w ∈ a.waiting, w.r = e) → (∀ w ∈ a.waiting, hot.testBit w.r = true → w.r < 20 → ownRank e ≤ ownRank w.r) →
          (u.dev.arb ch).service = some e)) ∧
    (t < s.dev.boundary → e = 30 →
      ∃ u, Runs (.slotOpen ch slot reqs stream) s u [.drm] regs ∧
        ∀ r : Fin 2, u.dev.owed ch r = s.dev.owed ch r - (if s.dev.pauseOverdue ch = true then 0 else 1)))

/-- A write of MF_CLASS sets each requester's class whose bits it writes, class 0 of a host's requester becoming 1, and a
waiter whose requester's class the write changes joins the tail of its new queue, no other waiter moving; a write to the
active slot table is refused as unmapped, sets ACTIVE_WRITE and changes no entry; ARM of a coming SWAP_BEAT arms the swap, and
one of a past beat is refused with RESULT 1 and SLOT_SWAP_REFUSED; a write without ARM, or while a swap is armed, schedules
nothing, and ACTIVE_WRITE clears where 1 is written; at SWAP_BEAT a shadow that no test refuses becomes active with RESULT 0
and SLOT_SWAPPED, and another is refused with the first test's RESULT; before SWAP_BEAT nothing is swapped. Clauses rest on
choices of the model where the spec leaves the point open: log entry 102 (when a swap is tested), log entry 103 (when the
arbiter settings load), log entry 104 (D3hot stops requests alone), log entry 168 (the address that a violation carries). -/
def Obligations.ClassesAndSlotTables : Prop :=
  (∀ (m : Master) (bytes val : Nat) (s : State),
    let cls := fun (r : Nat) => if bytes = 8 ∨ r < 16 then val / 4 ^ r % 4 else s.dev.classOf r
    s.Inv → s.dev.Takes m R.MF_CLASS 0 →
    ∃ u, Runs (.mfClassWrite m bytes val) s u [.bus, .drm] [R.MF_CLASS.addr 0] ∧
      (∀ r : Fin 20, u.dev.classOf r = (if 10 ≤ r.val ∧ r.val ≤ 15 ∧ cls r.val = 0 then 1 else cls r.val)) ∧
      ∀ c : Fin 2, (u.dev.arb c).holder = (s.dev.arb c).holder ∧
        (u.dev.arb c).waiting = (s.dev.arb c).waiting.filter (fun w => decide (s.dev.classOf w.r = u.dev.classOf w.r)) ++
          ((s.dev.arb c).waiting.filter fun w => decide (s.dev.classOf w.r ≠ u.dev.classOf w.r)).map fun w => { w with cls := u.dev.classOf w.r }) ∧
  (∀ (m : Master) (word : Fin 32) (val : Nat) (s : State), s.Inv →
    (s.dev.hears m = false → Ignored (.slotActiveWrite m word val) s) ∧
    (s.dev.hears m = true →
      ∃ u, Runs (.slotActiveWrite m word val) s u [.bus, .hst, .out] [R.MF_SLOT_CTRL.addr 0] ∧
        u.dev.rd F.MF_SLOT_CTRL_ACTIVE_WRITE = 1 ∧ (∀ c : Fin 2, u.dev.slotTable R.MF_SLOT_ACTIVE c = s.dev.slotTable R.MF_SLOT_ACTIVE c) ∧
        u.dev.out = s.dev.out ++ [match portOf m with | some p => .aer p .ur | none => .completion m .err []])) ∧
  (∀ (m : Master) (val : Nat) (s : State),
    let stays := if setsBit val 1 then 0 else s.dev.rd F.MF_SLOT_CTRL_ACTIVE_WRITE
    s.Inv → s.dev.Takes m R.MF_SLOT_CTRL 0 →
    (¬ setsBit val 0 ∨ s.dev.rd F.MF_SLOT_CTRL_ARM ≠ 0 →
      ∃ u, Runs (.slotArm m val) s u [.bus] [R.MF_SLOT_CTRL.addr 0] ∧ u.dev.rd F.MF_SLOT_CTRL_ARM = s.dev.rd F.MF_SLOT_CTRL_ARM ∧
        u.dev.rd F.MF_SLOT_CTRL_RESULT = s.dev.rd F.MF_SLOT_CTRL_RESULT ∧ u.dev.rd F.MF_SLOT_CTRL_ACTIVE_WRITE = stays) ∧
    (setsBit val 0 → s.dev.rd F.MF_SLOT_CTRL_ARM = 0 → s.dev.beat < s.dev.rd F.MF_SLOT_BEAT_SWAP_BEAT →
      ∃ u, Runs (.slotArm m val) s u [.bus, .drm] [R.MF_SLOT_CTRL.addr 0] ∧ u.dev.rd F.MF_SLOT_CTRL_ARM = 1 ∧
        u.dev.drm = { s.dev.drm with swapAt := some (s.dev.rd F.MF_SLOT_BEAT_SWAP_BEAT) } ∧
        u.dev.rd F.MF_SLOT_CTRL_ACTIVE_WRITE = stays) ∧
    (setsBit val 0 → s.dev.rd F.MF_SLOT_CTRL_ARM = 0 → s.dev.rd F.MF_SLOT_BEAT_SWAP_BEAT ≤ s.dev.beat →
      ∃ u, Runs (.slotArm m val) s u [.bus, .drm, .raised] [R.MF_SLOT_CTRL.addr 0] ∧ u.dev.rd F.MF_SLOT_CTRL_ARM = 0 ∧
        u.dev.drm = { s.dev.drm with swapAt := none } ∧
        u.dev.rd F.MF_SLOT_CTRL_RESULT = 1 ∧ u.dev.raised = s.dev.raised ++ [s.dev.event .secure 0x0404 [(1, 1)]])) ∧
  (∀ (b : Nat) (s : State), let sh := s.dev.slotTable R.MF_SLOT_SHADOW
    let f := s.dev.tableFault (s.dev.rd F.DM_STAT_SPEED) (sh 0) (sh 1)
    s.Inv →
    (s.dev.drm.swapAt = none → Ignored .slotSwap s) ∧
    (s.dev.drm.swapAt = some b → s.dev.beat < b → Ignored .slotSwap s) ∧
    (s.dev.drm.swapAt = some b → b ≤ s.dev.beat → f = 0 →
      ∃ u, Runs .slotSwap s u [.drm, .raised] (R.MF_SLOT_CTRL.addr 0 :: (List.range 32).map (R.MF_SLOT_ACTIVE.addr ·)) ∧
        (∀ i : Fin 32, u.dev.reg R.MF_SLOT_ACTIVE i = s.dev.reg R.MF_SLOT_SHADOW i) ∧ u.dev.rd F.MF_SLOT_CTRL_ARM = 0 ∧
        u.dev.drm = { s.dev.drm with swapAt := none } ∧
        u.dev.rd F.MF_SLOT_CTRL_RESULT = 0 ∧ u.dev.raised = s.dev.raised ++ [s.dev.event .secure 0x0403 []]) ∧
    (s.dev.drm.swapAt = some b → b ≤ s.dev.beat → f ≠ 0 →
      ∃ u, Runs .slotSwap s u [.drm, .raised] [R.MF_SLOT_CTRL.addr 0] ∧ u.dev.rd F.MF_SLOT_CTRL_ARM = 0 ∧
        u.dev.drm = { s.dev.drm with swapAt := none } ∧
        u.dev.rd F.MF_SLOT_CTRL_RESULT = f ∧ u.dev.raised = s.dev.raised ++ [s.dev.event .secure 0x0404 [(1, f)]]))

/-- A keyed PROG of a blank group while nothing is being programmed goes BUSY with the staged value, one of a group that is
not blank ends with RESULT 1, one while a programming runs with RESULT 2, both leaving every fuse as it is; a write without
the key changes nothing, and one without PROG or of another group programs nothing; when programming ends the group holds the
value in all copies with its CRC, no other group changes, and RESULT is 0. A keyed ADVANCE to a higher value than the count
takes the lowest blank slot; one that is not higher ends with RESULT 1, without a blank slot with 2, while a programming runs
with 3; when the slot is programmed the count shows and ROLLBACK_ADVANCED is posted. GO takes the attestation message, unless
BUSY; its end places a signature of the message's digest by the device key, clears BUSY and posts ATTEST_DONE to the host that
wrote GO. Clauses rest on choices of the model where the spec leaves the point open: log entry 5 (open values), log entry 9
(the cryptographic algorithms), log entry 37 (the order of the tests of a fuse write), log entry 39 (what attestation takes at
GO, and the first tamper cause), log entry 104 (D3hot stops requests alone). -/
def Obligations.FuseProgramming : Prop :=
  (∀ (m : Master) (val g : Nat) (s : State), let blank := (s.dev.vlt.fuses.group g).blank
    s.Inv → s.dev.Takes m R.VLT_PROG_CTRL 0 → g = val % 4 →
    (bitsOf val 31 16 ≠ 0x4655 → ∃ u, Runs (.fuseProg m val) s u [.bus] []) ∧
    (bitsOf val 31 16 = 0x4655 → ¬ setsBit val 2 ∨ (g = 0 ∨ g = 3) →
      ∃ u, Runs (.fuseProg m val) s u [.bus] [R.VLT_PROG_CTRL.addr 0] ∧ u.dev.rd F.VLT_PROG_CTRL_GROUP = g ∧
        u.dev.rd F.VLT_PROG_CTRL_BUSY = s.dev.rd F.VLT_PROG_CTRL_BUSY) ∧
    (bitsOf val 31 16 = 0x4655 → setsBit val 2 → g = 1 ∨ g = 2 → blank = true → s.dev.programming = false →
      ∃ u, Runs (.fuseProg m val) s u [.bus, .vlt] [R.VLT_PROG_CTRL.addr 0] ∧ u.dev.rd F.VLT_PROG_CTRL_BUSY = 1 ∧
        u.dev.vlt = { s.dev.vlt with prog := some (g, s.dev.staged g) }) ∧
    (bitsOf val 31 16 = 0x4655 → setsBit val 2 → g = 1 ∨ g = 2 → blank = false →
      ∃ u, Runs (.fuseProg m val) s u [.bus] [R.VLT_PROG_CTRL.addr 0] ∧ u.dev.rd F.VLT_PROG_CTRL_RESULT = 1) ∧
    (bitsOf val 31 16 = 0x4655 → setsBit val 2 → g = 1 ∨ g = 2 → blank = true → s.dev.programming = true →
      ∃ u, Runs (.fuseProg m val) s u [.bus] [R.VLT_PROG_CTRL.addr 0] ∧ u.dev.rd F.VLT_PROG_CTRL_RESULT = 2)) ∧
  (∀ (g v : Nat) (s : State), s.Inv →
    (s.dev.vlt.prog = none → Ignored .fuseProgDone s) ∧
    (s.dev.vlt.prog = some (g, v) →
      ∃ u, Runs .fuseProgDone s u [.vlt] [R.VLT_PROG_CTRL.addr 0] ∧ u.dev.rd F.VLT_PROG_CTRL_BUSY = 0 ∧
        u.dev.rd F.VLT_PROG_CTRL_RESULT = 0 ∧
        u.dev.vlt = { s.dev.vlt with prog := none, fuses := s.dev.vlt.fuses.setGroup g (Fuse.of (fuseBytes g) v) })) ∧
  (∀ (m : Master) (val k : Nat) (s : State), let v := s.dev.rd F.PAT_GEN_ROLLBACK
    s.Inv → s.dev.Takes m R.VLT_ROLLBACK_CTRL 0 →
    (bitsOf val 31 16 ≠ 0x5242 ∨ ¬ setsBit val 0 → ∃ u, Runs (.rollbackAdvance m val) s u [.bus] []) ∧
    (bitsOf val 31 16 = 0x5242 → setsBit val 0 → v ≤ s.dev.vlt.fuses.count →
      ∃ u, Runs (.rollbackAdvance m val) s u [.bus] [R.VLT_ROLLBACK.addr 0] ∧ u.dev.rd F.VLT_ROLLBACK_RESULT = 1) ∧
    (bitsOf val 31 16 = 0x5242 → setsBit val 0 → s.dev.vlt.fuses.count < v → s.dev.vlt.fuses.blankSlot = none →
      ∃ u, Runs (.rollbackAdvance m val) s u [.bus] [R.VLT_ROLLBACK.addr 0] ∧ u.dev.rd F.VLT_ROLLBACK_RESULT = 2) ∧
    (bitsOf val 31 16 = 0x5242 → setsBit val 0 → s.dev.vlt.fuses.count < v → s.dev.vlt.fuses.blankSlot = some k →
      s.dev.programming = true →
      ∃ u, Runs (.rollbackAdvance m val) s u [.bus] [R.VLT_ROLLBACK.addr 0] ∧ u.dev.rd F.VLT_ROLLBACK_RESULT = 3) ∧
    (bitsOf val 31 16 = 0x5242 → setsBit val 0 → s.dev.vlt.fuses.count < v → s.dev.vlt.fuses.blankSlot = some k →
      s.dev.programming = false →
      ∃ u, Runs (.rollbackAdvance m val) s u [.bus, .vlt] [R.VLT_ROLLBACK.addr 0] ∧ u.dev.rd F.VLT_ROLLBACK_BUSY = 1 ∧
        u.dev.vlt = { s.dev.vlt with advance := some (k, v) })) ∧
  (∀ (k v : Nat) (s : State), s.Inv →
    (s.dev.vlt.advance = none → Ignored .rollbackProgDone s) ∧
    (s.dev.vlt.advance = some (k, v) →
      ∃ u, Runs .rollbackProgDone s u [.vlt, .raised] [R.VLT_ROLLBACK.addr 0] ∧ u.dev.rd F.VLT_ROLLBACK_BUSY = 0 ∧
        u.dev.rd F.VLT_ROLLBACK_RESULT = 0 ∧
        u.dev.vlt = { s.dev.vlt with advance := none, fuses.slots := s.dev.vlt.fuses.slots.set k (Fuse.of 2 v) } ∧
        u.dev.rd F.VLT_ROLLBACK_COUNT = u.dev.vlt.fuses.count % 2 ^ 16 ∧
        u.dev.raised = s.dev.raised ++
          [s.dev.event .secure 0x0305 [(4, u.dev.vlt.fuses.count), (1, u.dev.vlt.fuses.usedSlots)]])) ∧
  (∀ (m : Master) (s : State), s.Inv → s.dev.Takes m R.VLT_ATTEST_CTRL 0 →
    (s.dev.rd F.VLT_ATTEST_CTRL_BUSY ≠ 0 → ∃ u, Runs (.attestGo m) s u [.bus] []) ∧
    (s.dev.rd F.VLT_ATTEST_CTRL_BUSY = 0 →
      ∃ u, Runs (.attestGo m) s u [.bus, .vlt] [R.VLT_ATTEST_CTRL.addr 0] ∧ u.dev.rd F.VLT_ATTEST_CTRL_BUSY = 1 ∧
        u.dev.vlt = { s.dev.vlt with attest := some (portOf m), attestMsg := s.dev.attestMessage })) ∧
  (∀ (who : Option (Fin 2)) (s : State), let k := Config.free s.dev.freeCtr % (p256N - 1) + 1
    let sig := ecdsaSign s.dev.vlt.used.deviceKey.value (ofBeBytes (sha256 s.dev.vlt.attestMsg)) k
    s.Inv →
    (s.dev.vlt.attest = none → Ignored .attestDone s) ∧
    (s.dev.vlt.attest = some who →
      ∃ u, Runs .attestDone s u [.vlt, .raised, .freeCtr]
          (R.VLT_ATTEST_CTRL.addr 0 :: (List.range 8).map (R.VLT_ATTEST_SIG.addr ·)) ∧ u.dev.rd F.VLT_ATTEST_CTRL_BUSY = 0 ∧
        (∀ i : Fin 8, u.dev.reg R.VLT_ATTEST_SIG i = sliceNat (beBytes 32 sig.1 ++ beBytes 32 sig.2) (8 * i) 8) ∧
        u.dev.vlt = { s.dev.vlt with attest := none, attestMsg := [] } ∧
        u.dev.raised = s.dev.raised ++ [s.dev.event (toWriter who) 0x0306 []]))

/-- A tamper cause, or FORCE, sets a clear latch, shows TAMPER and its SOURCE and zeroes the retention RAM, and changes a set
one not at all; CLEAR without a cause in the same cycle clears it, and with one the cause wins, whether or not the write
reaches the register; a write of neither changes nothing. The USAGE and TIME saves write their group whole with its CRC and no
other, unless the vault is isolated by a reset; the TIME save only while LOCKED. Loss of VBAT while the supplies are off
leaves RAM and latch open and every fuse as it is; at another time it changes nothing. Clauses rest on choices of the model
where the spec leaves the point open: log entry 5 (open values), log entry 36 (when VIO18 counts as off), log entry 39 (what
attestation takes at GO, and the first tamper cause), log entry 47 (what bind-off and the vault saves store), log entry 104
(D3hot stops requests alone). -/
def Obligations.VaultDomain : Prop :=
  (∀ (t : TamperCause) (s : State), s.Inv →
    (s.dev.vlt.tamper ≠ 0 → Ignored (.tamperDetect t) s) ∧
    (s.dev.vlt.tamper = 0 →
      ∃ u, Runs (.tamperDetect t) s u [.vlt] [R.VLT_STAT.addr 0, R.VLT_TAMPER.addr 0] ∧
        u.dev.vlt = { s.dev.vlt with tamper := tamperCode t, ram := [] } ∧ u.dev.rd F.VLT_STAT_TAMPER = 1 ∧
        u.dev.rd F.VLT_TAMPER_SOURCE = tamperCode t)) ∧
  (∀ (m : Master) (val : Nat) (s : State), let regs := [R.VLT_STAT.addr 0, R.VLT_TAMPER.addr 0]
    s.Inv → s.dev.Takes m R.VLT_TAMPER 0 →
    (setsBit val 8 → s.dev.vlt.tamper = 0 →
      ∃ u, Runs (.tamperForce m val) s u [.bus, .vlt] regs ∧ u.dev.vlt = { s.dev.vlt with tamper := 3, ram := [] } ∧
        u.dev.rd F.VLT_STAT_TAMPER = 1 ∧ u.dev.rd F.VLT_TAMPER_SOURCE = 3) ∧
    (setsBit val 8 → s.dev.vlt.tamper ≠ 0 → ∃ u, Runs (.tamperForce m val) s u [.bus] []) ∧
    (¬ setsBit val 8 → ¬ setsBit val 9 →
      (∃ u, Runs (.tamperForce m val) s u [.bus] []) ∧ ∃ u, Runs (.tamperClear m val none) s u [.bus] []) ∧
    (¬ setsBit val 8 → setsBit val 9 →
      ∃ u, Runs (.tamperClear m val none) s u [.bus, .vlt] regs ∧
        u.dev.vlt = { s.dev.vlt with tamper := 0 } ∧ u.dev.rd F.VLT_STAT_TAMPER = 0 ∧ u.dev.rd F.VLT_TAMPER_SOURCE = 0)) ∧
  (∀ (m : Master) (val : Nat) (t : TamperCause) (s : State), s.Inv →
    (s.dev.vlt.tamper = 0 →
      ∃ u, Runs (.tamperClear m val (some t)) s u [.bus, .vlt, .hst, .out, .raised] [R.VLT_STAT.addr 0, R.VLT_TAMPER.addr 0] ∧
        u.dev.vlt = { s.dev.vlt with tamper := tamperCode t, ram := [] } ∧ u.dev.rd F.VLT_STAT_TAMPER = 1 ∧
        u.dev.rd F.VLT_TAMPER_SOURCE = tamperCode t) ∧
    (s.dev.vlt.tamper ≠ 0 → ∃ u, Runs (.tamperClear m val (some t)) s u [.bus, .hst, .out, .raised] [])) ∧
  (∀ s : State, let cut := s.dev.sys.reset.any fun r => decide (r.kind = .power ∧ r.cause = 1)
    s.Inv →
    (s.dev.inReset = true → Ignored .vaultUsageSave s ∧ Ignored .vaultTimeSave s) ∧
    (s.dev.inReset = false →
      ∃ u, Runs .vaultUsageSave s u [.vlt] [] ∧ u.dev.groupOk 3 = true ∧
        (∀ l : Fin 32, sliceNat (u.dev.groupBytes 3) (4 * l + 1) 3 = s.dev.rd F.VLT_HEAD_PENDING_PENDING l / 65536 % 2 ^ 24 ∧
          sliceNat (u.dev.groupBytes 3) (4 * l) 1 = at' (s.dev.link l).ids 1 % 256) ∧
        ∀ g < 3, u.dev.groupBytes g = s.dev.groupBytes g) ∧
    (s.dev.rd F.TB_STATE_STATE ≠ 2 → Ignored .vaultTimeSave s) ∧
    (s.dev.inReset = false → s.dev.rd F.TB_STATE_STATE = 2 →
      ∃ u, Runs .vaultTimeSave s u [.vlt] [] ∧ u.dev.groupOk 2 = true ∧
        sliceNat (u.dev.groupBytes 2) 0 8 = s.dev.now % 2 ^ 64 ∧ sliceNat (u.dev.groupBytes 2) 8 1 = s.dev.steps ∧
        ∀ g < 4, g ≠ 2 → u.dev.groupBytes g = s.dev.groupBytes g) ∧
    (cut = false → Ignored .vbatLoss s) ∧
    (cut = true →
      ∃ u, Runs .vbatLoss s u [.vlt, .freeCtr] [] ∧
        u.dev.vlt = { s.dev.vlt with ram := u.dev.vlt.ram, tamper := u.dev.vlt.tamper } ∧ u.dev.vlt.tamper < 4))

/-- GO on an idle axis that nothing refuses starts a move towards TARGET, or FOLLOWING with SOURCE external; on an axis in
motion it is held with MOVE_PENDING, and where a cause holds it is refused with MOVE_REFUSED; HOME starts FAST_SEEK, or
BACKOFF on the switch, with HOMED 0, and is held and refused as GO is; SOFT_STOP drops a held request, makes a moving or
homing axis brake, a following one end its motion as a move does, and fails a homing that has latched; STOP ends the motion at
once with cause 1; neither does anything to an axis that is not ON. SOURCE changes on an idle axis while F0 is not the web
source, and its write requests the function as ENABLE says. A GO of the capping move with its axes ON goes BUSY, one while a
page runs ends with RESULT 2, one with an axis absent or not ON with RESULT 3, each with CAP_DONE, and one while the move runs
changes nothing. Clauses rest on choices of the model where the spec leaves the point open: log entry 104 (D3hot stops
requests alone), log entry 111 (the stopping distance and the direction of motion), log entry 112 (the goals of homing,
capping and SOFT_STOP), log entry 115 (when a refusal is tested, and which cause is posted), log entry 116 (a STOP on an idle
axis, and two causes of one command), log entry 118 (refusals and counts in a gang), log entry 119 (the order and the ends of
the capping move), log entry 203 (which way a held HOME begins). -/
def Obligations.AxisRequests : Prop :=
  (∀ (m : Master) (n : Fin 4) (bytes val : Nat) (s : State),
    let tgt := if bytes = 8 then val else s.dev.rd F.MOT_n_MOVE_TARGET n
    let why := s.dev.refusal n false true
    let small := if bytes = 8 then decide (val < 2 ^ 32) else decide (val < 2)
    s.Inv → s.dev.Takes m R.MOT_n_MOVE n →
    (∃ u, Runs (.moveGo m n bytes val) s u ([.bus] ++ motParts) motRegs) ∧
    (s.dev.ganged = false → small = true → why = 0 → s.dev.motion n = 0 → s.dev.rd F.MOT_n_CFG_SOURCE n = 0 →
      s.dev.rd F.MOT_n_STAT_HOME_IN n = 0 → s.dev.rd F.MOT_n_STAT_END_IN n = 0 →
      ∃ u, Runs (.moveGo m n bytes val) s u [.bus, .mot] [R.MOT_n_MOVE.addr n, R.MOT_n_STAT.addr n] ∧ u.dev.motion n = 1 ∧
        u.dev.rd F.MOT_n_MOVE_TARGET n = tgt ∧
        u.dev.mAxis n = { s.dev.mAxis n with up := true, v := 0, frac := 0, goal := .target }) ∧
    (s.dev.ganged = false → small = true → why = 0 → s.dev.motion n = 0 → s.dev.rd F.MOT_n_CFG_SOURCE n = 1 →
      ∃ u, Runs (.moveGo m n bytes val) s u [.bus, .mot] [R.MOT_n_MOVE.addr n, R.MOT_n_STAT.addr n] ∧ u.dev.motion n = 3 ∧
        (u.dev.mAxis n).due = []) ∧
    (s.dev.ganged = false → small = true → why = 0 → s.dev.motion n ≠ 0 →
      ∃ u, Runs (.moveGo m n bytes val) s u [.bus, .mot] [R.MOT_n_MOVE.addr n, R.MOT_n_STAT.addr n] ∧
        u.dev.rd F.MOT_n_MOVE_TARGET n = tgt ∧ u.dev.motion n = s.dev.motion n ∧
        u.dev.rd F.MOT_n_STAT_MOVE_PENDING n = 1 ∧ u.dev.mAxis n = { s.dev.mAxis n with held := some false }) ∧
    (s.dev.ganged = false → small = true → why ≠ 0 →
      ∃ u, Runs (.moveGo m n bytes val) s u [.bus, .raised] [R.MOT_n_MOVE.addr n] ∧ u.dev.rd F.MOT_n_MOVE_TARGET n = tgt ∧
        u.dev.raised = s.dev.raised ++ [s.dev.event .secure 0x1007 [(1, n), (1, why)]])) ∧
  (∀ (m : Master) (n : Fin 4) (s : State), let why := s.dev.refusal n true true
    let onIt := s.dev.on F.MOT_n_STAT_HOME_IN n
    s.Inv → s.dev.Takes m R.MOT_n_MOVE n →
    (∃ u, Runs (.moveHome m n) s u ([.bus] ++ motParts) motRegs) ∧
    (s.dev.ganged = false → why = 0 → s.dev.motion n = 0 →
      ∃ u, Runs (.moveHome m n) s u [.bus, .mot] [R.MOT_n_MOVE.addr n, R.MOT_n_STAT.addr n] ∧ u.dev.motion n = 2 ∧
        u.dev.rd F.MOT_n_STAT_HOMED n = 0 ∧ u.dev.rd F.MOT_n_STAT_HOME_PHASE n = (if onIt then 1 else 0) ∧
        (u.dev.mAxis n).goal = (if onIt then .openPos else .openNeg) ∧ (u.dev.mAxis n).seek = 0) ∧
    (s.dev.ganged = false → why = 0 → s.dev.motion n ≠ 0 →
      ∃ u, Runs (.moveHome m n) s u [.bus, .mot] [R.MOT_n_MOVE.addr n, R.MOT_n_STAT.addr n] ∧ u.dev.motion n = s.dev.motion n ∧
        u.dev.rd F.MOT_n_STAT_MOVE_PENDING n = 1 ∧ u.dev.mAxis n = { s.dev.mAxis n with held := some true, homeOn := onIt }) ∧
    (s.dev.ganged = false → why ≠ 0 →
      ∃ u, Runs (.moveHome m n) s u [.bus, .raised] [R.MOT_n_MOVE.addr n] ∧
        u.dev.raised = s.dev.raised ++ [s.dev.event .secure 0x1007 [(1, n), (1, why)]])) ∧
  (∀ (m : Master) (n : Fin 4) (s : State), let k : Int := s.dev.brakeSteps n
    let way := if s.dev.headingUp n then k else -k
    let here := [R.MOT_n_MOVE.addr n, R.MOT_n_STAT.addr n]
    s.Inv → s.dev.Takes m R.MOT_n_MOVE n →
    (∃ u, Runs (.moveSoftStop m n) s u ([.bus] ++ motParts) motRegs) ∧
    (s.dev.motOn n = false → ∃ u, Runs (.moveSoftStop m n) s u [.bus] [R.MOT_n_MOVE.addr n]) ∧
    (s.dev.motOn n = true → s.dev.ganged = false → s.dev.motion n = 0 →
      ∃ u, Runs (.moveSoftStop m n) s u [.bus, .mot] here ∧ u.dev.motion n = 0 ∧ u.dev.rd F.MOT_n_STAT_MOVE_PENDING n = 0 ∧
        u.dev.mAxis n = { s.dev.mAxis n with held := none }) ∧
    (s.dev.motOn n = true → s.dev.ganged = false → s.dev.mot.cap = none → s.dev.motion n = 1 ∨ s.dev.motion n = 3 →
      ∃ u, Runs (.moveSoftStop m n) s u [.bus, .mot] here ∧ u.dev.motion n = 1 ∧
        u.dev.rd F.MOT_n_STAT_MOVE_PENDING n = 0 ∧ (u.dev.mAxis n).held = none ∧ (u.dev.mAxis n).up = false ∧
        (s.dev.motion n = 3 → (u.dev.mAxis n).due = []) ∧
        u.dev.rd F.MOT_n_MOVE_TARGET n = ofSigned 32 (s.dev.motPos n + way)) ∧
    (s.dev.motOn n = true → s.dev.ganged = false → s.dev.mot.cap = none → s.dev.motion n = 2 → (s.dev.mAxis n).latched = false →
      ∃ u, Runs (.moveSoftStop m n) s u [.bus, .mot] here ∧ u.dev.motion n = 2 ∧ (u.dev.mAxis n).soft = true ∧
        (u.dev.mAxis n).goal = .at (toSigned 32 (ofSigned 32 (s.dev.motPos n + way)))) ∧
    (s.dev.motOn n = true → s.dev.ganged = false → s.dev.mot.cap = none → s.dev.motion n = 2 → (s.dev.mAxis n).latched = true →
      ∃ u, Runs (.moveSoftStop m n) s u [.bus, .mot, .raised] (R.MOT_n_POS.addr n :: here) ∧ u.dev.motion n = 0 ∧
        u.dev.rd F.MOT_n_STAT_LOST n = 1 ∧ u.dev.raised = s.dev.raised ++
          [s.dev.event .secure 0x1008 [(1, n), (1, s.dev.rd F.MOT_n_STAT_STOP_CAUSE n)]])) ∧
  (∀ (m : Master) (n : Fin 4) (s : State), s.Inv → s.dev.Takes m R.MOT_n_MOVE n →
    (s.dev.motOn n = false → ∃ u, Runs (.moveStop m n) s u [.bus] [R.MOT_n_MOVE.addr n]) ∧
    (s.dev.motOn n = true →
      ∃ u, Runs (.moveStop m n) s u ([.bus] ++ motParts) motRegs ∧ s.dev.AxisStops u.dev n 1) ∧
    (s.dev.motOn n = true → s.dev.ganged = false → s.dev.mot.cap = none →
      ∃ u, Runs (.moveStop m n) s u [.bus, .mot, .raised] [R.MOT_n_MOVE.addr n, R.MOT_n_STAT.addr n, R.MOT_n_POS.addr n] ∧
        u.dev.motPos n = s.dev.motPos n)) ∧
  (∀ (m : Master) (n : Fin 4) (val : Nat) (s : State),
    let src := if s.dev.webIsQ0 then (if s.dev.motion n = 0 then val / 2 % 2 else s.dev.rd F.MOT_n_CFG_SOURCE n) else 0
    s.Inv → s.dev.Takes m R.MOT_n_CFG n →
    (∃ u, Runs (.motSourceWrite m n val) s u ([.bus, .sys] ++ motParts)
        ((List.range 4).map (R.MOT_n_CFG.addr ·) ++ motRegs) ∧ u.dev.rd F.MOT_n_CFG_SOURCE n = src) ∧
    (s.dev.funcOn (.mot n) = decide (val % 2 = 1) → s.dev.wedged (.mot n) = false →
      ∃ u, Runs (.motSourceWrite m n val) s u [.bus, .sys] [R.MOT_n_CFG.addr n] ∧ u.dev.rd F.MOT_n_CFG_SOURCE n = src)) ∧
  (∀ (m : Master) (s : State), let running := s.dev.pageRuns && s.dev.sys.bindOff.isNone
    let ready := [(0 : Fin 4), 1, 2].all fun n => s.dev.motOn n && !s.dev.on F.MOT_n_STAT_ABSENT n
    s.Inv → s.dev.Takes m R.MOT_CAP_CTRL 0 →
    (s.dev.mot.cap.isSome = true → ∃ u, Runs (.capGo m) s u [.bus] []) ∧
    (s.dev.mot.cap = none → running = false → ready = true →
      ∃ u, Runs (.capGo m) s u [.bus, .mot] [R.MOT_CAP_CTRL.addr 0] ∧ u.dev.rd F.MOT_CAP_CTRL_BUSY = 1 ∧
        u.dev.mot = { s.dev.mot with cap := some { port := portOf m } }) ∧
    (s.dev.mot.cap = none → running = true ∨ ready = false → let r := if running then 2 else 3
      ∃ u, Runs (.capGo m) s u [.bus, .raised] [R.MOT_CAP_CTRL.addr 0] ∧ u.dev.rd F.MOT_CAP_CTRL_BUSY = 0 ∧
        u.dev.rd F.MOT_CAP_CTRL_RESULT = r ∧
        u.dev.raised = s.dev.raised ++ [s.dev.event (.secureAnd (portOf m)) 0x1009 [(1, r)]]))

/-- A microstep that is due moves POS by one in its direction, or, towards an active switch, stops the axis with cause 2; one
that is not due does not occur. A chopping period drives the phase towards its target current, decaying as DECAY says, and no
output moves while the bridge is low; the hold timer drops the current of an axis with nothing scheduled. A switch change
shows in STAT; towards the motion of a moving axis it stops the axis with cause 2, away from it with both switches active with
cause 3 and else not at all, END in a homing with cause 9, and in SLOW_SEEK the HOME edge latches, sets HOMED, clears LOST and
posts HOME_DONE. Overcurrent, chatter and STALL_COUNT high loads stop an axis that is ON with causes 6, 4 and 5. A count of F0
moves its counter by one and gives a FOLLOWING axis 2 to the power COARSE microsteps. The tick, once in a boundary of a beat
that is a multiple of 10, ends a move that has reached TARGET with MOVES and MOVE_DONE. Clauses rest on choices of the model
where the spec leaves the point open: log entry 110 (the units of the generator), log entry 111 (the stopping distance and the
direction of motion), log entry 113 (the phases and their outputs), log entry 114 (the position at the latch), log entry 116
(a STOP on an idle axis, and two causes of one command), log entry 117 (LIMIT before SWITCHES, and chatter off motion), log
entry 118 (refusals and counts in a gang), log entry 119 (the order and the ends of the capping move), log entry 120 (the
speed while FOLLOWING), log entry 121 (the hold current), log entry 122 (how long the stamps of microsteps are kept). -/
def Obligations.AxisMotion : Prop :=
  (∀ (n : Fin 4) (t bemf tm : Nat) (up : Bool) (rest : List (Nat × Bool)) (s : State), let a := s.dev.mAxis n
    let soon := decide (t < tm) || (decide (a.last ≠ 0) && decide (t < a.last + 500))
    s.Inv →
    (∃ u, Runs (.microstepEmit n t bemf) s u motParts motRegs) ∧
    (a.due = [] → s.dev.mirrored n = false → Ignored (.microstepEmit n t bemf) s) ∧
    (a.due = (tm, up) :: rest → soon = true → Ignored (.microstepEmit n t bemf) s) ∧
    (a.due = (tm, up) :: rest → soon = false → s.dev.motion n ≠ 2 → s.dev.atLimit n up = true →
      ∃ u, Runs (.microstepEmit n t bemf) s u motParts motRegs ∧ s.dev.AxisStops u.dev n 2 ∧ u.dev.motPos n = s.dev.motPos n) ∧
    (a.due = (tm, up) :: rest → soon = false → s.dev.motion n = 1 ∨ s.dev.motion n = 3 → s.dev.ganged = false →
      s.dev.atLimit n up = false →
      ∃ u, Runs (.microstepEmit n t bemf) s u [.mot] [R.MOT_n_POS.addr n, R.MOT_n_STAT.addr n] ∧ (u.dev.mAxis n).due = rest ∧
        (u.dev.mAxis n).last = t ∧ u.dev.motPos n = toSigned 32 (ofSigned 32 (s.dev.motPos n + if up then 1 else -1)))) ∧
  (∀ (n : Fin 4) (ph : Fin 2) (s : State), let i := s.dev.phaseTarget n ph
    s.Inv →
    (s.dev.bridgeLow n = true → Ignored (.chopPeriod n ph) s) ∧
    (s.dev.bridgeLow n = false →
      ∃ u, Runs (.chopPeriod n ph) s u [.mot, .out] [] ∧
        u.dev.mAxis n = { s.dev.mAxis n with drive := (s.dev.mAxis n).drive.set ph i.sign } ∧
        u.dev.out = s.dev.out ++
          [.phase n ph i (if s.dev.on F.MOT_n_CFG_DECAY n then s.dev.rd F.MOT_n_CURRENT_FAST_PCT n else 0)])) ∧
  (∀ (n : Fin 4) (s : State), s.Inv →
    ((s.dev.mAxis n).due ≠ [] → Ignored (.holdCurrentTimer n) s) ∧
    ((s.dev.mAxis n).due = [] →
      ∃ u, Runs (.holdCurrentTimer n) s u [.mot] [] ∧ u.dev.mAxis n = { s.dev.mAxis n with run := false })) ∧
  (∀ (n : Fin 4) (isEnd level : Bool) (t : Nat) (s : State),
    let active := level != s.dev.on (if isEnd then F.MOT_n_CFG_END_POL else F.MOT_n_CFG_HOME_POL) n
    let f := if isEnd then F.MOT_n_STAT_END_IN else F.MOT_n_STAT_HOME_IN
    s.Inv →
    (active = s.dev.on f n → Ignored (.switchChange n isEnd level t) s) ∧
    (active ≠ s.dev.on f n →
      ∃ u, Runs (.switchChange n isEnd level t) s u motParts motRegs ∧ u.dev.on f n = active) ∧
    (active ≠ s.dev.on f n → s.dev.motion n = 0 ∨ s.dev.motOn n = false →
      ∃ u, Runs (.switchChange n isEnd level t) s u [] [R.MOT_n_STAT.addr n]) ∧
    (active ≠ s.dev.on f n → active = true → s.dev.motOn n = true → s.dev.motion n = 1 ∨ s.dev.motion n = 3 →
      s.dev.movesTo n isEnd = true →
      ∃ u, Runs (.switchChange n isEnd level t) s u motParts motRegs ∧ s.dev.AxisStops u.dev n 2) ∧
    (active ≠ s.dev.on f n → s.dev.motOn n = true → s.dev.motion n = 1 ∨ s.dev.motion n = 3 →
      active = false ∨ s.dev.movesTo n isEnd = false → (active && s.dev.on (if isEnd then F.MOT_n_STAT_HOME_IN else F.MOT_n_STAT_END_IN) n) = false →
      ∃ u, Runs (.switchChange n isEnd level t) s u [] [R.MOT_n_STAT.addr n] ∧ u.dev.on f n = active) ∧
    (active ≠ s.dev.on f n → active = true → s.dev.motOn n = true → s.dev.motion n = 1 ∨ s.dev.motion n = 3 →
      s.dev.movesTo n isEnd = false → s.dev.on (if isEnd then F.MOT_n_STAT_HOME_IN else F.MOT_n_STAT_END_IN) n = true →
      ∃ u, Runs (.switchChange n isEnd level t) s u motParts motRegs ∧ s.dev.AxisStops u.dev n 3) ∧
    (active ≠ s.dev.on f n → active = true → s.dev.motOn n = true → s.dev.motion n = 2 → isEnd = true →
      ∃ u, Runs (.switchChange n isEnd level t) s u motParts motRegs ∧ s.dev.AxisStops u.dev n 9) ∧
    (active ≠ s.dev.on f n → active = true → s.dev.motOn n = true → s.dev.motion n = 2 → isEnd = false → s.dev.ganged = false →
      (s.dev.mAxis n).latched = false → (s.dev.mAxis n).soft = false → s.dev.rd F.MOT_n_STAT_HOME_PHASE n = 2 →
      ∃ u, Runs (.switchChange n isEnd level t) s u [.mot, .raised]
          [R.MOT_n_STAT.addr n, R.MOT_n_POS.addr n, R.MOT_n_LATCH.addr n] ∧ u.dev.motion n = 0 ∧
        u.dev.rd F.MOT_n_STAT_HOMED n = 1 ∧ u.dev.rd F.MOT_n_STAT_LOST n = 0 ∧ u.dev.rd F.MOT_n_LATCH_STAMP n = t % 2 ^ 64 ∧
        u.dev.raised = s.dev.raised ++ [s.dev.event .secure 0x1002 [(1, n), (8, t % 2 ^ 64)]])) ∧
  (∀ (n : Fin 4) (isEnd : Bool) (s : State), let e := if isEnd then 1 else 0
    let high := s.dev.on F.MOT_n_CFG_STALL_EN n && decide (s.dev.rd F.MOT_n_STALL_STALL_COUNT n ≤ (s.dev.mAxis n).loads)
    s.Inv →
    (s.dev.motOn n = false → Ignored (.stepperOvercurrent n) s ∧ Ignored (.axisStall n) s) ∧
    (s.dev.motOn n = false →
      ∃ u, Runs (.switchChatter n isEnd) s u [.raised] [] ∧
        u.dev.raised = s.dev.raised ++ [s.dev.event .secure 0x1004 [(1, n), (1, e)]]) ∧
    (high = false → Ignored (.axisStall n) s) ∧
    (s.dev.motOn n = true →
      (∃ u, Runs (.stepperOvercurrent n) s u motParts motRegs ∧ s.dev.AxisStops u.dev n 6 ∧ (u.dev.mAxis n).low = true) ∧
      (∃ u, Runs (.switchChatter n isEnd) s u motParts motRegs ∧ s.dev.AxisStops u.dev n 4 ∧
        s.dev.event .secure 0x1004 [(1, n), (1, e)] ∈ u.dev.raised ∧
        u.dev.delta F.MOT_n_COUNT_CHATTER n = s.dev.delta F.MOT_n_COUNT_CHATTER n + 1) ∧
      (high = true →
        ∃ u, Runs (.axisStall n) s u motParts motRegs ∧ s.dev.AxisStops u.dev n 5 ∧
          s.dev.event .secure 0x1006 [(1, n), (1, s.dev.rd F.MOT_n_STAT_LOAD n)] ∈ u.dev.raised ∧
          u.dev.delta F.MOT_n_COUNT_STALLS n = s.dev.delta F.MOT_n_COUNT_STALLS n + 1))) ∧
  (∀ (dir ok : Bool) (t : Nat) (n : Fin 4) (s : State),
    let sign : Int := if dir != s.dev.on F.WT_F0_CFG_DIR_INV then 1 else -1
    let count := toSigned 32 (ofSigned 32 (s.dev.rdS F.WT_F0_COUNT_COUNT + sign))
    s.Inv →
    (s.dev.funcOn .f0 = false → Ignored (.f0Step dir ok t) s) ∧
    (s.dev.funcOn .f0 = true →
      ∃ u, Runs (.f0Step dir ok t) s u ([.web, .freeCtr] ++ motParts) (R.WT_F0_COUNT.addr 0 :: motRegs) ∧ u.dev.web.f0Last = t) ∧
    (s.dev.funcOn .f0 = true → (∀ k : Fin 4, s.dev.motion k ≠ 3) →
      ∃ u, Runs (.f0Step dir true t) s u [.web] [R.WT_F0_COUNT.addr 0] ∧ u.dev.rdS F.WT_F0_COUNT_COUNT = count) ∧
    (s.dev.funcOn .f0 = true → s.dev.motion n = 3 → s.dev.rd F.MOT_n_CFG_SOURCE n = 1 → s.dev.ganged = false → (s.dev.mAxis n).due = [] →
      ∃ u, Runs (.f0Step dir true t) s u ([.web] ++ motParts) (R.WT_F0_COUNT.addr 0 :: motRegs) ∧
        u.dev.rdS F.WT_F0_COUNT_COUNT = count ∧ (u.dev.mAxis n).due.length = 2 ^ s.dev.rd F.MOT_n_CFG_COARSE n ∧
        ∀ p ∈ (u.dev.mAxis n).due, p.2 = decide (0 < sign) ∧ t ≤ p.1)) ∧
  (∀ (n : Fin 4) (s : State), let may := decide (s.dev.beat % 10 = 0) && decide (s.dev.mot.tick ≠ some s.dev.tmb.beats)
    s.Inv →
    (may = false → Ignored .servoTick s) ∧
    (may = true →
      ∃ u, Runs .servoTick s u ([.srv, .freeCtr] ++ motParts) tickRegs ∧ u.dev.mot.tick = some s.dev.tmb.beats ∧
        u.dev.srv.due = true ∧ u.dev.srv.tickT = s.dev.tmb.openT) ∧
    (may = true → s.dev.mot.cap = none → s.dev.ganged = false → s.dev.motOn n = true → s.dev.motion n = 1 → (s.dev.mAxis n).held = none →
      (s.dev.mAxis n).due = [] → (s.dev.mAxis n).goal = .target → s.dev.motPos n = s.dev.rdS F.MOT_n_MOVE_TARGET n →
      ∃ u, Runs .servoTick s u ([.srv, .freeCtr] ++ motParts) tickRegs ∧ u.dev.motion n = 0 ∧
        u.dev.delta F.MOT_n_COUNT_MOVES n = s.dev.delta F.MOT_n_COUNT_MOVES n + 1 ∧
        s.dev.event .secure 0x1001 [(1, n), (4, s.dev.rd F.MOT_n_POS_POS n)] ∈ u.dev.raised))

/-- A write of TARGET stands for the next tick. The S0 count that nozzle health has sent shows in SV_REG with its beat, and
another is ignored. REFERENCE on an ON axis in HOLD whose index has IDX_MODE 2 arms the index and starts the search; on
another axis it does nothing. CLEAR on a FAULTED axis waits for its tick, on another it does nothing; NOTCH_COMMIT is pending
until the next tick. Alignment ends with y_align at y, and on a FAULTED axis, where a CLEAR waited for it, with HOLD at y and
TARGET at y less the REG it follows; on an axis that does not align nothing happens. Clauses rest on choices of the model
where the spec leaves the point open: log entry 87 (when an AUTO value or the S0 count arrives), log entry 104 (D3hot stops
requests alone), log entry 123 (the angle at ECYCLE 0), log entry 124 (an index reference, and MOVE_DONE), log entry 125 (what
the tick takes), log entry 128 (transforms, modulation and dead times), log entry 196 (the angle after a Hall change). -/
def Obligations.ServoRequests : Prop :=
  (∀ (m : Master) (a : Fin 2) (val : Nat) (s : State), s.Inv → s.dev.Takes m R.SV_a_TARGET a →
    ∃ u, Runs (.servoTargetWrite m a val) s u [.bus, .srv] [R.SV_a_TARGET.addr a] ∧
      u.dev.rd F.SV_a_TARGET_TARGET a = val % 2 ^ 32 ∧ u.dev.sAxis a = { s.dev.sAxis a with fresh := true }) ∧
  (∀ (v : Int) (s : State), let sent := s.dev.regFed && decide (s.dev.nzh.s0Out = some v)
    s.Inv →
    (sent = false → Ignored (.servoRegRx v) s) ∧
    (sent = true →
      ∃ u, Runs (.servoRegRx v) s u [.nzh] [R.SV_REG.addr 0] ∧ u.dev.rdS F.SV_REG_REG = toSigned 32 (ofSigned 32 v) ∧
        u.dev.rd F.SV_REG_BEAT = s.dev.beat % 2 ^ 32 ∧ u.dev.nzh = { s.dev.nzh with s0Out := none })) ∧
  (∀ (m : Master) (a : Fin 2) (n : Fin 4) (s : State),
    let held := decide (s.dev.srvState a = .on) && decide (s.dev.srvMotion a = 0)
    let may := held && (s.dev.qFeed a).any fun k => decide (s.dev.rd F.WT_Qn_CFG_IDX_MODE k = 2)
    s.Inv → s.dev.Takes m R.SV_a_CTRL a →
    (may = false → ∃ u, Runs (.servoReference m a) s u [.bus] []) ∧
    (may = true → s.dev.qFeed a = some n →
      ∃ u, Runs (.servoReference m a) s u [.bus, .web, .srv] [R.SV_a_STAT.addr a, R.WT_Qn_CFG.addr n] ∧ u.dev.srvMotion a = 2 ∧
        u.dev.rd F.WT_Qn_CFG_IDX_ARM n = 1 ∧ (u.dev.sAxis a).dir = -1 ∧ (u.dev.sAxis a).refFrom = (s.dev.sAxis a).y / 2 ^ 16 ∧
        (u.dev.quad n).index = none) ∧
    (s.dev.srvMotion a ≠ 3 → ∃ u, Runs (.servoClear m a) s u [.bus] []) ∧
    (s.dev.srvMotion a = 3 →
      ∃ u, Runs (.servoClear m a) s u [.bus, .srv] [] ∧ u.dev.sAxis a = { s.dev.sAxis a with clear := true }) ∧
    (∃ u, Runs (.notchCommit m a) s u [.bus] [R.SV_a_CTRL.addr a] ∧ u.dev.rd F.SV_a_CTRL_NOTCH_PENDING a = 1)) ∧
  (∀ (a : Fin 2) (s : State), let here := [R.SV_a_POS.addr a, R.SV_a_LOOP.addr a]
    s.Inv →
    ((s.dev.sAxis a).aligning = false → Ignored (.servoAlignDone a) s) ∧
    ((s.dev.sAxis a).aligning = true → s.dev.srvMotion a ≠ 3 →
      ∃ u, Runs (.servoAlignDone a) s u [.srv, .freeCtr] here ∧
        (u.dev.sAxis a).aligning = false ∧ (u.dev.sAxis a).yAlign = (s.dev.sAxis a).y ∧ (u.dev.sAxis a).y = (s.dev.sAxis a).y) ∧
    ((s.dev.sAxis a).aligning = true → s.dev.srvMotion a = 3 →
      ∃ u, Runs (.servoAlignDone a) s u [.srv, .freeCtr] ([R.SV_a_STAT.addr a, R.SV_a_TARGET.addr a] ++ here) ∧
        (u.dev.sAxis a).aligning = false ∧ (u.dev.sAxis a).yAlign = (s.dev.sAxis a).y ∧ (u.dev.sAxis a).bridge = .on ∧
        u.dev.srvMotion a = 0 ∧ (u.dev.sAxis a).p = (s.dev.sAxis a).y * 2 ^ 48 ∧
        u.dev.rdS F.SV_a_TARGET_TARGET a = toSigned 32 (ofSigned 32 ((s.dev.sAxis a).y / 2 ^ 16 - u.dev.regOf a))))

/-- The stages of a tick, which run once a tick, leave the demand of a running ON axis within IQ_MAX and an axis that neither
runs nor is checked as it was; an ON axis whose Q channel is in QUAD_FAULT faults with cause 2 there. A PWM centre puts the
duties in force and the switches' times out, shows the demand in force as IQ and adds CUR_KI times the error to each
integrator, or, where a current is above OC_LIMIT, faults the axis with cause 1, as overcurrent does: outputs low, demand and
integrator 0, FAULTS counted and SERVO_FAULT posted; where an axis cannot fault, only whether the last sample was above
OC_LIMIT is kept. A valid encoder frame on an axis without one sets y from A_ZERO and REFERENCED, a later one moves y by its
difference, and a frame without a start bit, with a bad CRC or ERR, or that is stale, counts FB_MISSING and extrapolates y; a
frame that was not asked for is ignored. A Hall change to a neighbouring sector is the axis's sector, shown from the next tick
on, and sets the angle of the edge; an impossible code counts HALL_ERR; no change, or a triplet that no axis commutates from,
does nothing. Clauses rest on choices of the model where the spec leaves the point open: log entry 60 (the rounding in the
stages), log entry 123 (the angle at ECYCLE 0), log entry 125 (what the tick takes), log entry 126 (what can fault and what a
CLEAR finds), log entry 127 (what survives a start), log entry 128 (transforms, modulation and dead times), log entry 129
(tables), log entry 196 (the angle after a Hall change). -/
def Obligations.ServoLoop : Prop :=
  (∀ (a : Fin 2) (n : Fin 4) (s : State), s.Inv →
    (s.dev.srv.due = false → Ignored .servoStages s) ∧
    (s.dev.srv.due = true →
      ∃ u, Runs .servoStages s u servoParts servoRegs ∧ u.dev.srv.due = false ∧
        (s.dev.srvRuns a = false → (s.dev.sAxis a).checking = false → u.dev.sAxis a = s.dev.sAxis a) ∧
        (s.dev.srvRuns a = true → s.dev.srvState a = .on → s.dev.srvMotion a ≠ 3 →
          (u.dev.sAxis a).q.natAbs ≤ s.dev.rd F.SV_a_CURRENT_IQ_MAX a * 2 ^ 24)) ∧
    (s.dev.srv.due = true → s.dev.srvRuns a = true → s.dev.srvState a = .on → s.dev.srvMotion a ≠ 3 → s.dev.qFeed a = some n →
      s.dev.rd F.WT_Qn_STAT_QUAD_FAULT n = 1 →
      ∃ u, Runs .servoStages s u servoParts servoRegs ∧ s.dev.ServoFaults u.dev a 2 ∧ u.dev.rd F.SV_a_STAT_REFERENCED a = 0)) ∧
  (∀ (a : Fin 2) (iu iv iw : Int) (s : State), let oc := s.dev.rd F.SV_a_CURRENT_OC_LIMIT a
    let trips := decide (oc < iu.natAbs) || (decide (oc < iv.natAbs) || decide (oc < iw.natAbs))
    let x := s.dev.sAxis a
    let ki : Int := s.dev.rd F.SV_a_CURRENT_CUR_KI a
    let i := parkOf iu iv iw (if x.aligning then 0 else x.theta)
    let want : Int × Int := if x.aligning then (s.dev.rd F.SV_a_COMM_ALIGN_I a, 0) else (0, x.q / 2 ^ 24)
    s.Inv →
    (x.bridge ≠ .on → trips = false ∨ s.dev.canFault a 1 = false →
      ∃ u, Runs (.pwmCentre a iu iv iw) s u [.srv] [] ∧ u.dev.sAxis a = { x with overLimit := trips }) ∧
    (x.bridge = .on → trips = false →
      ∃ u, Runs (.pwmCentre a iu iv iw) s u [.srv, .out] [R.SV_a_LOOP.addr a] ∧
        u.dev.out = s.dev.out ++ [.duty a x.duty.1 x.duty.2.1 x.duty.2.2 (s.dev.gates a)] ∧
        u.dev.rdS F.SV_a_LOOP_IQ a = toSigned 16 (ofSigned 16 (x.q / 2 ^ 24)) ∧
        u.dev.rdS F.SV_a_LOOP_E a = s.dev.rdS F.SV_a_LOOP_E a ∧ u.dev.rd F.SV_a_LOOP_ANGLE a = s.dev.rd F.SV_a_LOOP_ANGLE a ∧
        u.dev.sAxis a = { x with overLimit := false, carry := (s.dev.gates a).map Gate.ends, id := x.id + ki * (want.1 - i.1),
                                 iq := x.iq + ki * (want.2 - i.2), duty := (u.dev.sAxis a).duty }) ∧
    (trips = true → ∃ u, Runs (.pwmCentre a iu iv iw) s u servoParts servoRegs) ∧
    (trips = true → s.dev.srvState a = .on → s.dev.canFault a 1 = true →
      ∃ u, Runs (.pwmCentre a iu iv iw) s u servoParts servoRegs ∧ s.dev.ServoFaults u.dev a 1)) ∧
  (∀ (a : Fin 2) (s : State), s.Inv →
    (s.dev.canFault a 1 = false → Ignored (.servoOvercurrent a) s) ∧
    (s.dev.canFault a 1 = true → ∃ u, Runs (.servoOvercurrent a) s u servoParts servoRegs) ∧
    (s.dev.canFault a 1 = true → s.dev.srvState a = .on →
      ∃ u, Runs (.servoOvercurrent a) s u [.srv, .out, .snapD, .raised]
          [R.SV_a_STAT.addr a, R.SV_a_POS.addr a, R.SV_a_LOOP.addr a, R.SYS_FAULT_STAT.addr 0] ∧
        s.dev.ServoFaults u.dev a 1 ∧ (u.dev.sAxis a).bridge = .off ∧
        u.dev.out = s.dev.out ++ [.duty a (-1) (-1) (-1) (List.replicate 3 ⟨none, none, -10000⟩)])) ∧
  (∀ (a : Fin 2) (fr : AbsFrame) (pos cnt : Nat) (s : State), let v := fr.bits.toNat
    let x := s.dev.sAxis a
    let here := [R.SV_a_STAT.addr a, R.SV_a_POS.addr a, R.SV_a_LOOP.addr a]
    let takes := (s.dev.srvRuns a || x.checking) && ((s.dev.qFeed a).isNone && x.asked)
    let good := fr.started && (decide (crc34 (v / 2 ^ 8) = v % 256) && !v.testBit 41)
    let scale := s.dev.rdS F.SV_a_FB_FB_SCALE a
    let ahead := fun (c : Nat) => (v / 2 ^ 8 % 16 + 16 - c) % 16
    let stale := x.frame.any fun f => decide (ahead f.2 = 0) || decide (x.requests < ahead f.2)
    s.Inv →
    (takes = false → Ignored (.absFrameDone a fr) s) ∧
    (takes = true → ∃ u, Runs (.absFrameDone a fr) s u [.srv, .snapD, .raised, .freeCtr] here ∧ (u.dev.sAxis a).asked = false) ∧
    (takes = true → good = true → x.frame = none →
      ∃ u, Runs (.absFrameDone a fr) s u [.srv, .snapD, .raised, .freeCtr] here ∧ u.dev.rd F.SV_a_STAT_REFERENCED a = 1 ∧
        (u.dev.sAxis a).frame = some (v / 2 ^ 12 % 2 ^ 28, v / 2 ^ 8 % 16) ∧ (u.dev.sAxis a).valid = true ∧
        (u.dev.sAxis a).y = scale * toSigned 28 (ofSigned 28 (((v / 2 ^ 12 % 2 ^ 28 : Nat) : Int) - s.dev.rd F.SV_a_FB_A_ZERO a))) ∧
    (takes = true → good = true → stale = false → x.frame = some (pos, cnt) →
      ∃ u, Runs (.absFrameDone a fr) s u [.srv, .snapD, .raised, .freeCtr] here ∧
        (u.dev.sAxis a).frame = some (v / 2 ^ 12 % 2 ^ 28, v / 2 ^ 8 % 16) ∧ (u.dev.sAxis a).valid = true ∧
        (u.dev.sAxis a).y = x.y + scale * toSigned 28 (ofSigned 28 (((v / 2 ^ 12 % 2 ^ 28 : Nat) : Int) - pos))) ∧
    (takes = true → good = false ∨ stale = true →
      ∃ u, Runs (.absFrameDone a fr) s u [.srv, .snapD, .freeCtr] [R.SV_a_POS.addr a, R.SV_a_LOOP.addr a] ∧
        u.dev.delta F.SV_a_COUNT_FB_MISSING a = s.dev.delta F.SV_a_COUNT_FB_MISSING a + 1 ∧ (u.dev.sAxis a).valid = false ∧
        (u.dev.sAxis a).missing = x.missing + 1 ∧ (u.dev.sAxis a).y = 2 * x.y1 - x.y2)) ∧
  (∀ (h a : Fin 2) (code : Fin 8) (t k old : Nat) (s : State), let x := s.dev.sAxis a
    let e := if (old = 5 ∧ k = 0) ∨ (old = 0 ∧ k = 5) then 0 else max old k
    let uses := fun (b : Fin 2) => (s.dev.servoSec b).enable && decide ((s.dev.servoSec b).commutation = h.val)
    s.Inv →
    (∃ u, Runs (.hallChange h code t) s u servoParts servoRegs) ∧
    ((∀ b : Fin 2, uses b = false) → Ignored (.hallChange h code t) s) ∧
    ((∀ b : Fin 2, uses b = decide (b = a)) → hallSector code = some k → x.sector = some k → Ignored (.hallChange h code t) s) ∧
    ((∀ b : Fin 2, uses b = decide (b = a)) → hallSector code = some k → x.sector = some old → k ≠ old →
      (old + 1) % 6 = k ∨ (k + 1) % 6 = old →
      ∃ u, Runs (.hallChange h code t) s u [.srv, .freeCtr] [R.SV_a_POS.addr a, R.SV_a_LOOP.addr a] ∧
        (u.dev.sAxis a).sector = some k ∧ (u.dev.sAxis a).held = x.held ∧ 
        (u.dev.sAxis a).change = some (ofSigned 16 (sectorEdge e + s.dev.rd F.SV_a_COMM_ELEC_OFFSET a), x.y)) ∧
    ((∀ b : Fin 2, uses b = decide (b = a)) → hallSector code = none → x.illegal.length < 2 →
      ∃ u, Runs (.hallChange h code t) s u [.srv, .snapD] [] ∧ (u.dev.sAxis a).illegal = t :: x.illegal ∧
        u.dev.delta F.SV_a_COUNT_HALL_ERR a = s.dev.delta F.SV_a_COUNT_HALL_ERR a + 1))

/-- A keyed GO with no trim running and a blank store, or while a channel is checked, goes BUSY, waiting for a check that
runs; one with a store that is not blank and no check running ends with RESULT 1, one while a trim runs with RESULT 3, each
with TRIM_DONE; a write without the key changes nothing and one without GO only sets RES_MAX. A measurement outside its range
ends the trim with RESULT 2; another records its channel and goes on to the next, with GAIN, OFF, QUALITY and STATUS of R357
where GAIN and OFF have values; programming ends with all copies and the CRC written and shown, RESULT 0 and TRIM_DONE. A
check lets a free spare stand in for the next channel, ends without effect on a sound reading, and otherwise the spare serves
the channel with ANALOG_SPARED; as it ends a trim that waited for it starts, or ends with RESULT 1. A stuck channel goes to
the spare that stands in for it or else to the lowest free spare, a check in which that spare stands in ending; without one it
is lost, reads 0x8000, ANALOG_FAILED is posted, and its stepper stops with cause 11 or its servo's outputs go low, the
function OFF; a failed spare is never used again. A command that finds nothing to do is ignored. Clauses rest on choices of
the model where the spec leaves the point open: log entry 104 (D3hot stops requests alone), log entry 121 (the hold current),
log entry 130 (the order of the store), log entry 131 (TRIM_DONE of a refused trim, and a GO during a check), log entry 132
(figures that no field holds), log entry 133 (which channel is checked, and a stand-in that is taken), log entry 134 (what the
measurements are), log entry 135 (an axis whose channel is lost), log entry 136 (a wrong KEY). -/
def Obligations.TrimAndSpares : Prop :=
  (∀ (m : Master) (val : Nat) (s : State), let keyed := decide (bitsOf val 31 16 = 0x5452)
    let ends := fun (n : Nat) => s.dev.raised ++ [s.dev.event (.secureAnd (portOf m)) 0x1201 [(1, n), (1, 0)]]
    s.Inv → s.dev.Takes m R.TRM_TRIM_CTRL 0 →
    (keyed = false → ∃ u, Runs (.trimGo m val) s u [.bus] []) ∧
    (keyed = true → ¬ setsBit val 0 →
      ∃ u, Runs (.trimGo m val) s u [.bus] [R.TRM_TRIM_CTRL.addr 0] ∧ u.dev.rd F.TRM_TRIM_CTRL_RES_MAX = val / 2 ^ 8 % 2 ^ 8 ∧
        u.dev.rd F.TRM_TRIM_CTRL_BUSY = s.dev.rd F.TRM_TRIM_CTRL_BUSY) ∧
    (keyed = true → setsBit val 0 → s.dev.trm.trim = none → s.dev.trm.store.blank = true ∨ s.dev.trm.check ≠ none →
      ∃ u, Runs (.trimGo m val) s u [.bus, .trm] [R.TRM_TRIM_CTRL.addr 0] ∧ u.dev.rd F.TRM_TRIM_CTRL_BUSY = 1 ∧
        u.dev.rd F.TRM_TRIM_CTRL_RES_MAX = val / 2 ^ 8 % 2 ^ 8 ∧
        u.dev.trm = { s.dev.trm with trim := some { port := portOf m, waiting := s.dev.trm.check.isSome } }) ∧
    (keyed = true → setsBit val 0 → s.dev.trm.trim = none → s.dev.trm.store.blank = false → s.dev.trm.check = none →
      ∃ u, Runs (.trimGo m val) s u [.bus, .raised] [R.TRM_TRIM_CTRL.addr 0] ∧ u.dev.rd F.TRM_TRIM_CTRL_RESULT = 1 ∧
        u.dev.raised = ends 1) ∧
    (keyed = true → setsBit val 0 → s.dev.trm.trim ≠ none →
      ∃ u, Runs (.trimGo m val) s u [.bus, .raised] [R.TRM_TRIM_CTRL.addr 0] ∧ u.dev.rd F.TRM_TRIM_CTRL_RESULT = 3 ∧
        u.dev.raised = ends 3)) ∧
  (∀ (rLo rHi sLo sHi : Int) (t : TrimRun) (s : State), let g := roundDiv (25000 * 32768 * 16) (rHi - rLo)
    let o := roundDiv (2 * rLo - rHi) 16
    let e := fun (x n : Int) => ((x - 16 * o) * g - n * 16 * 32768).natAbs
    let q := min 255 (roundDiv (max (e sLo 25000) (e sHi 50000) : Nat) 32768).toNat
    let good := if q ≤ s.dev.rd F.TRM_TRIM_CTRL_RES_MAX then 1 else 2
    let busy := s.dev.trm.trim = some t ∧ (t.waiting = false ∧ t.prog = none)
    s.Inv →
    (s.dev.trm.trim = none → Ignored (.trimMeasureDone rLo rHi sLo sHi) s) ∧
    (s.dev.trm.trim = some t → t.waiting = true ∨ t.prog ≠ none → Ignored (.trimMeasureDone rLo rHi sLo sHi) s) ∧
    (busy → rHi < 48500 * 16 ∨ 51500 * 16 < rHi →
      ∃ u, Runs (.trimMeasureDone rLo rHi sLo sHi) s u [.trm, .raised] [R.TRM_TRIM_CTRL.addr 0] ∧
        u.dev.trm = { s.dev.trm with trim := none } ∧ u.dev.rd F.TRM_TRIM_CTRL_BUSY = 0 ∧ u.dev.rd F.TRM_TRIM_CTRL_RESULT = 2 ∧
        u.dev.raised = s.dev.raised ++ [s.dev.event (.secureAnd t.port) 0x1201 [(1, 2), (1, 0)]]) ∧
    (busy → 48500 * 16 ≤ rHi → rHi ≤ 51500 * 16 →
      ∃ u, Runs (.trimMeasureDone rLo rHi sLo sHi) s u [.trm, .freeCtr] [] ∧
        u.dev.trm.trim.map (·.place) = some (t.place + 1) ∧ u.dev.trm.trim.map (·.prog.isSome) = some (decide (t.place + 1 = 26)) ∧
        u.dev.trm.trim.map (fun x => x.recs.map (·.1)) = some (t.recs.map (·.1) ++ [trimChannel t.place])) ∧
    (busy → 48500 * 16 ≤ rHi → rHi ≤ 51500 * 16 → rLo < rHi → g < 65536 → -32768 ≤ o → o ≤ 32767 →
      ∃ u, Runs (.trimMeasureDone rLo rHi sLo sHi) s u [.trm] [] ∧
        u.dev.trm.trim.map (·.recs) = some (t.recs ++ [(trimChannel t.place, ⟨g.toNat, o, q, good⟩)]))) ∧
  (∀ (t : TrimRun) (v : Nat) (s : State), s.Inv →
    (s.dev.trm.trim = none → Ignored .trimProgDone s) ∧
    (s.dev.trm.trim = some t → t.prog = none → Ignored .trimProgDone s) ∧
    (s.dev.trm.trim = some t → t.prog = some v →
      ∃ u, Runs .trimProgDone s u [.trm, .raised] (R.TRM_TRIM_CTRL.addr 0 :: trimRegs) ∧
        u.dev.trm = { s.dev.trm with store := Fuse.of storeBytesN v, trim := none } ∧
        u.dev.rd F.TRM_TRIM_CTRL_BUSY = 0 ∧ u.dev.rd F.TRM_TRIM_CTRL_RESULT = 0 ∧
        (v ≠ 0 → u.dev.rd F.TRM_MAP_BLANK = 0 ∧ ∀ k : Fin 26, u.dev.rd F.TRM_TRIM_GAIN k = v / 2 ^ (48 * k.val) % 2 ^ 16) ∧
        u.dev.raised = s.dev.raised ++ [s.dev.event (.secureAnd t.port) 0x1201
          [(1, 0), (1, (t.recs.filter fun r => decide (r.2.status = 2)).length)]])) ∧
  (∀ (x k : Nat) (s : State), let idle := (s.dev.trm.trim.isSome || s.dev.trm.check.isSome) || (s.dev.freeSpare.isNone || s.dev.nextChecked.isNone)
    s.Inv →
    (idle = true → Ignored .analogCheck s) ∧
    (idle = false → s.dev.freeSpare = some x → s.dev.nextChecked = some k →
      ∃ u, Runs .analogCheck s u [.trm] [] ∧
        u.dev.trm = { s.dev.trm with check := some (k, x), next := (k + 1) % 24 })) ∧
  (∀ (reading : Int) (k : Fin 24) (x : Fin 2) (t : TrimRun) (s : State),
    let refused := s.dev.trm.trim.any fun t => t.waiting && !s.dev.trm.store.blank
    s.Inv →
    (s.dev.trm.check = none → Ignored (.analogCheckDone reading) s) ∧
    (s.dev.trm.check = some (k.val, x.val) →
      ∃ u, Runs (.analogCheckDone reading) s u analogParts analogRegs ∧ u.dev.trm.check = none ∧
        u.dev.trm.trim = if refused then none else s.dev.trm.trim.map fun t => { t with waiting := false }) ∧
    (s.dev.trm.check = some (k.val, x.val) → s.dev.trm.trim = some t → refused = true → offReference reading = false →
      ∃ u, Runs (.analogCheckDone reading) s u [.trm, .raised] [R.TRM_TRIM_CTRL.addr 0] ∧ u.dev.rd F.TRM_TRIM_CTRL_BUSY = 0 ∧
        u.dev.rd F.TRM_TRIM_CTRL_RESULT = 1 ∧
        u.dev.raised = s.dev.raised ++ [s.dev.event (.secureAnd t.port) 0x1201 [(1, 1), (1, 0)]]) ∧
    (s.dev.trm.check = some (k.val, x.val) → refused = false → offReference reading = false →
      ∃ u, Runs (.analogCheckDone reading) s u [.trm] []) ∧
    (s.dev.trm.check = some (k.val, x.val) → refused = false → offReference reading = true → x.val ∉ s.dev.trm.badSpares →
      ∃ u, Runs (.analogCheckDone reading) s u [.trm, .raised] [R.TRM_MAP.addr 0, R.TRM_CH.addr k] ∧
        u.dev.rd (spareFld x) = k ∧ u.dev.rd F.TRM_CH_REPLACED k = 1 ∧
        u.dev.raised = s.dev.raised ++ [s.dev.event .secure 0x1203 [(1, k), (1, x)]])) ∧
  (∀ (k : Fin 26) (j : Nat) (n : Fin 4) (a x : Fin 2) (s : State),
    let gone := s.dev.on F.TRM_CH_REPLACED k || s.dev.trm.failed.contains k.val
    let fails := decide (k.val < 24) && (!gone && s.dev.trm.check.all fun c => decide (c.1 ≠ k.val))
    let lost := { s.dev.trm with failed := s.dev.trm.failed ++ [k.val] }
    s.Inv →
    (∃ u, Runs (.analogStuck k) s u analogParts analogRegs) ∧
    (k.val < 24 → gone = true → Ignored (.analogStuck k) s) ∧
    (24 ≤ k.val → k.val - 24 ∈ s.dev.trm.badSpares → Ignored (.analogStuck k) s) ∧
    (24 ≤ k.val → k.val - 24 ∉ s.dev.trm.badSpares → s.dev.rd (spareFld (k.val - 24)) = 0x1F →
      ∃ u, Runs (.analogStuck k) s u [.trm] [] ∧ u.dev.trm = { s.dev.trm with badSpares := (k.val - 24) :: s.dev.trm.badSpares }) ∧
    (fails = true → s.dev.freeSpare = some x.val → s.dev.trm.check.map (·.2) ≠ some x.val →
      ∃ u, Runs (.analogStuck k) s u [.raised] [R.TRM_MAP.addr 0, R.TRM_CH.addr k] ∧
        u.dev.rd (spareFld x) = k ∧ u.dev.rd F.TRM_CH_REPLACED k = 1 ∧
        u.dev.raised = s.dev.raised ++ [s.dev.event .secure 0x1203 [(1, k), (1, x)]]) ∧
    (k.val < 24 → gone = false → s.dev.trm.check = some (j, x.val) → s.dev.trm.trim = none →
      (j = k.val → x.val ∉ s.dev.trm.badSpares) → (j ≠ k.val → s.dev.freeSpare = some x.val) →
      ∃ u, Runs (.analogStuck k) s u [.trm, .raised] [R.TRM_MAP.addr 0, R.TRM_CH.addr k] ∧
        u.dev.trm = { s.dev.trm with check := none } ∧ u.dev.rd (spareFld x) = k ∧ u.dev.rd F.TRM_CH_REPLACED k = 1 ∧
        u.dev.raised = s.dev.raised ++ [s.dev.event .secure 0x1203 [(1, k), (1, x)]]) ∧
    (fails = true → s.dev.freeSpare = none → 14 ≤ k.val →
      ∃ u, Runs (.analogStuck k) s u [.trm, .raised] [R.TRM_CH.addr k, R.SYS_FAULT_STAT.addr 0] ∧
        u.dev.trm = lost ∧ u.dev.rd F.TRM_CH_C k = 0x8000 ∧ u.dev.rd F.SYS_FAULT_STAT_AXIS = 1 ∧
        u.dev.raised = s.dev.raised ++ [s.dev.event .secure 0x1204 [(1, k)]]) ∧
    (fails = true → s.dev.freeSpare = none → k.val / 2 = n.val →
      ∃ u, Runs (.analogStuck k) s u analogParts analogRegs ∧ u.dev.trm = lost ∧ u.dev.rd F.TRM_CH_C k = 0x8000 ∧
        s.dev.event .secure 0x1204 [(1, k)] ∈ u.dev.raised ∧ u.dev.funcOn (.mot n) = false ∧
        (s.dev.motOn n = true → s.dev.AxisStops u.dev n 11)) ∧
    (fails = true → s.dev.freeSpare = none → 8 ≤ k.val → k.val < 14 → (k.val - 8) / 3 = a.val →
      ∃ u, Runs (.analogStuck k) s u analogParts analogRegs ∧ u.dev.trm = lost ∧ u.dev.rd F.TRM_CH_C k = 0x8000 ∧
        s.dev.event .secure 0x1204 [(1, k)] ∈ u.dev.raised ∧ u.dev.srvRuns a = false ∧
        (s.dev.srvRuns a = true → (u.dev.sAxis a).bridge = .off)))

/-- At State.reset every field of every register, at every index of its array, reads the Reset column of its field table,
except SYS_RST_CAUSE, which reads 2 for PORn, and PIN of HL_INHIBIT_CTRL, which reads the open pin (log entry 12, the model's
choice); cast-on is in step 1, neither Pattern is loaded, no DRAM byte is listed, nothing has been sent or posted, and no
command waits. Clauses rest on choices of the model where the spec leaves the point open: log entry 12 (PIN at reset), log
entry 72 (the accepted level of the inhibit pin at a reset). -/
def Obligations.ResetValues : Prop :=
  (∀ row ∈ regTable, ∀ f ∈ row.flds, ∀ i < (row.reg.dims.map Prod.fst).prod,
    row.reg.addr i ≠ R.SYS_RST_CAUSE.addr 0 → row.reg.addr i ≠ R.HL_INHIBIT_CTRL.addr 0 →
    State.reset.dev.rd f i = fieldOf f.lo f.w (row.reg.rst i % 2 ^ 64)) ∧
  State.reset.dev.rd F.SYS_RST_CAUSE_CAUSE = 2 ∧ State.reset.dev.rd F.HL_INHIBIT_CTRL_PIN = 1 ∧
  State.reset.dev.sys.castOn = true ∧ State.reset.dev.rd F.SYS_CASTON_STAT_STEP = 1 ∧ State.reset.dev.pat = {} ∧
  State.reset.dev.mem = [] ∧ State.reset.dev.out = [] ∧ State.reset.dev.raised = [] ∧ State.reset.pending = []

/-- State.reset satisfies the model's invariant: canonical register map, DRAM and retention RAM, and every list of instances
at the number the spec gives. -/
def Obligations.ResetInv : Prop :=
  State.reset.Inv

/-- From every state that satisfies the model's invariant (the register map, DRAM and the retention RAM in canonical form,
every list of ports, links, cameras, lanes, axes and other instances at the number the spec gives), the state that a step
answers satisfies it, whatever command is at the front of the queue, and on an empty queue too. -/
def Obligations.EveryStepKeepsInv : Prop :=
  ∀ s t : State, s.Inv → step s = .next t → t.Inv

/-- Whatever command runs, a step leaves the serial number, the MAC addresses, the device key, the certificate and the REPAIR
group as they are; and a step that neither ends a programming nor begins, asserts or releases a reset leaves every fuse as it
is. Clauses rest on choices of the model where the spec leaves the point open: log entry 38 (a programming that a reset cuts
off), log entry 149 (a short PORn pulse, and a JTAG reset). -/
def Obligations.FactoryFusesNeverChange : Prop :=
  ∀ s t : State, step s = .next t →
    (let f := s.dev.vlt.fuses
     let g := t.dev.vlt.fuses
     g.serial = f.serial ∧ g.mac = f.mac ∧ g.deviceKey = f.deviceKey ∧ g.cert = f.cert ∧ g.repair = f.repair) ∧
    (t.dev.sys.reset = s.dev.sys.reset → (∀ c ∈ s.pending.head?, c ≠ .fuseProgDone ∧ c ≠ .rollbackProgDone ∧ ∀ n b r, c ≠ .pornRelease n b r) →
      t.dev.vlt.fuses = s.dev.vlt.fuses)
end

