-- ==== Sys2Proof/Laws/Crypto.lean ====
section
/-!
SUPPORT. Laws of byte lists as numbers and of the cryptography: sizes of what it gives, the CRC over parts, a MAC fits its
sixteen bytes.
-/

namespace Sys2Proof.Machine

/-- Bytes spell a number that fits them. -/
theorem ofLeBytes_lt (bs : List Byte) : ofLeBytes bs < 256 ^ bs.length := by
  induction bs with
  | nil => simp [ofLeBytes]
  | cons b r ih =>
    simp only [ofLeBytes, List.foldr_cons, List.length_cons, Nat.pow_succ] at ih ⊢
    have hb := b.isLt
    omega

@[simp] theorem leBytes_length (len n : Nat) : (leBytes len n).length = len := by
  simp [leBytes]

/-- The running CRC of joined parts is that of the second from that of the first. -/
theorem crcRun_append (c : Nat) (a b : List Byte) : crcRun c (a ++ b) = crcRun (crcRun c a) b := List.foldl_append ..

theorem xorList_length_le (a b : List Nat) : (xorList a b).length ≤ a.length := by
  simp only [xorList, List.length_zipWith]; omega

theorem aesRounds_length_le (ks : List (List Nat)) (s : List Nat) (h : s.length ≤ 16) : (aesRounds ks s).length ≤ 16 := by
  induction ks generalizing s with
  | nil => simpa [aesRounds] using h
  | cons k r ih =>
    cases r with
    | nil =>
      have hx := xorList_length_le (aesShift (s.map aesSbox)) k
      have hs : (aesShift (s.map aesSbox)).length = 16 := by simp [aesShift]
      simp only [aesRounds]; omega
    | cons k' r' =>
      simp only [aesRounds]
      refine ih _ ?_
      have hx := xorList_length_le (aesMix (aesShift (s.map aesSbox))) k
      have hs : (aesMix (aesShift (s.map aesSbox))).length = 16 := by simp [aesMix]
      omega

theorem aes128_length_le (key block : List Nat) (h : block.length ≤ 16) : (aes128 key block).length ≤ 16 := by
  simp only [aes128]
  split
  · exact aesRounds_length_le _ _ ((xorList_length_le _ _).trans h)
  · exact h

/-- A CMAC has no more than sixteen bytes. -/
theorem cmac_length_le (key msg : List Byte) : (cmac key msg).length ≤ 16 := by
  simp only [cmac, List.length_map]
  refine aes128_length_le _ _ ((xorList_length_le _ _).trans ?_)
  generalize (chunks 16 (msg.length / 16 + 1) msg).dropLast = bs
  suffices h : ∀ c : List Nat, c.length ≤ 16 →
      (bs.foldl (fun c b => aes128 (key.map BitVec.toNat) (xorList c (b.map BitVec.toNat))) c).length ≤ 16 from
    h _ (by simp)
  induction bs with
  | nil => intro c h; exact h
  | cons b r ih =>
    intro c h
    rw [List.foldl_cons]
    refine ih _ ?_
    refine aes128_length_le _ _ ?_
    exact (xorList_length_le c _).trans h

/-- The MAC of R312 fits the frame's sixteen bytes. -/
theorem Dev.authMac_lt (d : Dev) (sub hserial nonce usage : Nat) : d.authMac sub hserial nonce usage < 2 ^ 128 := by
  have h := ofLeBytes_lt (cmac (d.headKey hserial) (authHead sub hserial nonce usage))
  have hl := cmac_length_le (d.headKey hserial) (authHead sub hserial nonce usage)
  have hp : 256 ^ (cmac (d.headKey hserial) (authHead sub hserial nonce usage)).length ≤ 256 ^ 16 :=
    Nat.pow_le_pow_right (by decide) hl
  have he : (256 : Nat) ^ 16 = 2 ^ 128 := by decide
  unfold Dev.authMac
  omega

end Sys2Proof.Machine
end

