-- ==== Sys2Proof/Laws/Maps.lean ====
section
/-!
SUPPORT. Laws of the sparse maps, of register fields and of DRAM bytes: read after write, a write leaves every other place
alone, every write keeps the canonical form.
-/

namespace Sys2Proof.Machine

/-! ### Sparse maps -/

theorem keysRising_weaken {α : Type} {lo lo' : Nat} {m : List (Nat × α)} (h : lo' ≤ lo) (hm : keysRising lo m = true) :
    keysRising lo' m = true := by
  cases m with
  | nil => rfl
  | cons p r =>
    simp only [keysRising, Bool.and_eq_true, decide_eq_true_eq] at hm ⊢
    exact ⟨h.trans hm.1, hm.2⟩

theorem mapGet_below {α : Type} {lo k : Nat} {m : List (Nat × α)} (d : α) (hm : keysRising lo m = true) (h : k < lo) :
    mapGet m k d = d := by
  induction m generalizing lo with
  | nil => rfl
  | cons p r ih =>
    simp only [keysRising, Bool.and_eq_true, decide_eq_true_eq] at hm
    simp only [mapGet]
    rw [if_neg (by omega)]
    exact ih hm.2 (by omega)

/-- A write leaves the value at every other key. -/
theorem mapGet_mapSet_ne {α : Type} [DecidableEq α] {k k' : Nat} (m : List (Nat × α)) (v d d' : α) (h : k' ≠ k) :
    mapGet (mapSet m k v d) k' d' = mapGet m k' d' := by
  induction m with
  | nil =>
    simp only [mapSet]
    split <;> simp [mapGet, h.symm]
  | cons p r ih =>
    simp only [mapSet]
    split
    · simp only [mapGet, ih]
    · split
      · rename_i h2
        split <;> simp [mapGet, h2, h.symm]
      · split <;> simp [mapGet, h.symm]

/-- A read after a write to the same key gives the value written. -/
theorem mapGet_mapSet_self {α : Type} [DecidableEq α] {lo : Nat} (m : List (Nat × α)) (k : Nat) (v d : α)
    (hm : keysRising lo m = true) : mapGet (mapSet m k v d) k d = v := by
  induction m generalizing lo with
  | nil =>
    simp only [mapSet]
    split
    · rename_i h; simp [mapGet, h]
    · simp [mapGet]
  | cons p r ih =>
    simp only [keysRising, Bool.and_eq_true, decide_eq_true_eq] at hm
    simp only [mapSet]
    split
    · rename_i h
      simp only [mapGet]
      rw [if_neg (by omega)]
      exact ih hm.2
    · split
      · rename_i h
        split
        · rename_i hv; rw [mapGet_below d hm.2 (by omega), hv]
        · simp [mapGet]
      · split
        · rename_i h1 h2 hv
          simp only [mapGet]
          rw [if_neg (by omega), mapGet_below d hm.2 (by omega), hv]
        · simp [mapGet]

theorem keysRising_mapSet_lo {α : Type} [DecidableEq α] {lo : Nat} {m : List (Nat × α)} (k : Nat) (v d : α)
    (hm : keysRising lo m = true) (h : lo ≤ k) : keysRising lo (mapSet m k v d) = true := by
  induction m generalizing lo with
  | nil =>
    simp only [mapSet]
    split <;> simp [keysRising, h]
  | cons p r ih =>
    have hm' := hm
    simp only [keysRising, Bool.and_eq_true, decide_eq_true_eq] at hm
    simp only [mapSet]
    split
    · simp only [keysRising, Bool.and_eq_true, decide_eq_true_eq]
      exact ⟨hm.1, ih hm.2 (by omega)⟩
    · split
      · rename_i h2
        split
        · exact keysRising_weaken (by omega) hm.2
        · simp only [keysRising, Bool.and_eq_true, decide_eq_true_eq]
          exact ⟨h, by rw [← h2]; exact hm.2⟩
      · split
        · exact hm'
        · simp only [keysRising, Bool.and_eq_true, decide_eq_true_eq]
          exact ⟨h, by omega, hm.2⟩

/-- A write keeps the keys rising. -/
theorem keysRising_mapSet {α : Type} [DecidableEq α] {m : List (Nat × α)} (k : Nat) (v d : α)
    (hm : keysRising 0 m = true) : keysRising 0 (mapSet m k v d) = true :=
  keysRising_mapSet_lo k v d hm (Nat.zero_le k)

theorem mapWf_weaken {α : Type} [DecidableEq α] {dflt : Nat → α} {lo lo' : Nat} {m : List (Nat × α)} (h : lo' ≤ lo)
    (hm : mapWf dflt lo m = true) : mapWf dflt lo' m = true := by
  cases m with
  | nil => rfl
  | cons p r =>
    simp only [mapWf, Bool.and_eq_true, decide_eq_true_eq] at hm ⊢
    exact ⟨h.trans hm.1, hm.2⟩

theorem keysRising_of_mapWf {α : Type} [DecidableEq α] {dflt : Nat → α} {lo : Nat} {m : List (Nat × α)}
    (hm : mapWf dflt lo m = true) : keysRising lo m = true := by
  induction m generalizing lo with
  | nil => rfl
  | cons p r ih =>
    simp only [mapWf, keysRising, Bool.and_eq_true, decide_eq_true_eq] at hm ⊢
    exact ⟨hm.1, ih hm.2.2⟩

theorem mapWf_mapSet_lo {α : Type} [DecidableEq α] {dflt : Nat → α} {lo : Nat} {m : List (Nat × α)} (k : Nat) (v : α)
    (hm : mapWf dflt lo m = true) (h : lo ≤ k) : mapWf dflt lo (mapSet m k v (dflt k)) = true := by
  induction m generalizing lo with
  | nil =>
    simp only [mapSet]
    split <;> simp_all [mapWf]
  | cons p r ih =>
    have hm' := hm
    simp only [mapWf, Bool.and_eq_true, decide_eq_true_eq] at hm
    simp only [mapSet]
    split
    · simp only [mapWf, Bool.and_eq_true, decide_eq_true_eq]
      exact ⟨hm.1, hm.2.1, ih hm.2.2 (by omega)⟩
    · split
      · rename_i h2
        split
        · exact mapWf_weaken (by omega) hm.2.2
        · rename_i hv
          simp only [mapWf, Bool.and_eq_true, decide_eq_true_eq]
          exact ⟨h, hv, by rw [← h2]; exact hm.2.2⟩
      · split
        · exact hm'
        · rename_i hv
          simp only [mapWf, Bool.and_eq_true, decide_eq_true_eq]
          exact ⟨h, hv, by omega, hm.2⟩

/-- A write keeps the canonical form. -/
theorem mapWf_mapSet {α : Type} [DecidableEq α] {dflt : Nat → α} {m : List (Nat × α)} (k : Nat) (v : α)
    (hm : mapWf dflt 0 m = true) : mapWf dflt 0 (mapSet m k v (dflt k)) = true :=
  mapWf_mapSet_lo k v hm (Nat.zero_le k)

/-! ### DRAM -/

/-- Every store keeps the canonical form of DRAM. -/
theorem wf_storeBytes (m : List Host.Cell) (a : Nat) (bs : List Byte) (hm : Memory.wf m = true) :
    Memory.wf (storeBytes m a bs) = true := by
  induction bs generalizing m a with
  | nil => exact hm
  | cons b bs ih => exact ih _ _ (mapWf_mapSet (dflt := fun _ => 0) a b hm)

theorem Dev.setByte_wf (d : Dev) (a : Nat) (b : Byte) (h : Memory.wf d.mem = true) :
    Memory.wf (d.setByte a b).mem = true := mapWf_mapSet (dflt := fun _ => 0) a b h

theorem Dev.setBytes_wf (d : Dev) (a : Nat) (bs : List Byte) (h : Memory.wf d.mem = true) :
    Memory.wf (d.setBytes a bs).mem = true := wf_storeBytes d.mem a bs h

/-- A store leaves every byte outside it as it was. -/
theorem mapGet_storeBytes_out (m : List Host.Cell) (a x : Nat) (bs : List Byte) (h : x < a ∨ a + bs.length ≤ x) :
    mapGet (storeBytes m a bs) x 0 = mapGet m x 0 := by
  induction bs generalizing m a with
  | nil => rfl
  | cons b bs ih =>
    simp only [List.length_cons] at h
    simp only [storeBytes]
    rw [ih _ _ (by omega), mapGet_mapSet_ne _ _ _ _ (by omega)]

/-- Byte k of a store reads back. -/
theorem mapGet_storeBytes_in (m : List Host.Cell) (a : Nat) (bs : List Byte) (k : Nat) (h : k < bs.length)
    (hm : Memory.wf m = true) : mapGet (storeBytes m a bs) (a + k) 0 = bs[k] := by
  induction bs generalizing m a k with
  | nil => exact absurd h (Nat.not_lt_zero k)
  | cons b bs ih =>
    simp only [storeBytes]
    have hw := mapWf_mapSet (dflt := fun _ => (0 : Byte)) a b hm
    cases k with
    | zero =>
      rw [show a + 0 = a from rfl, mapGet_storeBytes_out _ _ _ _ (Or.inl (Nat.lt_add_one a)),
        mapGet_mapSet_self _ _ _ _ (keysRising_of_mapWf hm)]
      rfl
    | succ k =>
      rw [show a + (k + 1) = a + 1 + k by omega, ih _ _ _ (by simpa using h) hw]
      rfl

/-- Distinct bytes of DRAM do not touch each other. -/
theorem Dev.byte_setBytes_out (d : Dev) (a x : Nat) (bs : List Byte) (h : x < a ∨ a + bs.length ≤ x) :
    (d.setBytes a bs).byte x = d.byte x := mapGet_storeBytes_out d.mem a x bs h

theorem Dev.byte_setBytes_in (d : Dev) (a : Nat) (bs : List Byte) (k : Nat) (h : k < bs.length)
    (hm : Memory.wf d.mem = true) : (d.setBytes a bs).byte (a + k) = bs[k] := mapGet_storeBytes_in d.mem a bs k h hm

/-! ### Fields -/

theorem fieldOf_lt (lo w v : Nat) : fieldOf lo w v < 2 ^ w := Nat.mod_lt _ (Nat.two_pow_pos w)

theorem fieldOf_testBit (lo w v j : Nat) : (fieldOf lo w v).testBit j = (decide (j < w) && v.testBit (lo + j)) := by
  rw [fieldOf, Nat.testBit_mod_two_pow, Nat.testBit_div_two_pow, Nat.add_comm]

theorem fieldSet_eq (lo w v x : Nat) :
    fieldSet lo w v x = v % 2 ^ lo + 2 ^ lo * (x % 2 ^ w + 2 ^ w * (v / 2 ^ lo / 2 ^ w)) := by
  have h1 := Nat.div_add_mod v (2 ^ lo)
  have h2 := Nat.div_add_mod (v / 2 ^ lo) (2 ^ w)
  unfold fieldSet fieldOf
  generalize v / 2 ^ lo % 2 ^ w = q at *
  generalize v / 2 ^ lo / 2 ^ w = r at *
  generalize v % 2 ^ lo = m at *
  generalize x % 2 ^ w = y at *
  generalize 2 ^ lo = A at *
  generalize 2 ^ w = B at *
  rw [← h2] at h1
  have h3 : v = m + A * q + A * (B * r) := by rw [← h1]; ring
  rw [h3]
  have h4 : m + A * q + A * (B * r) - q * A = m + A * (B * r) := by
    rw [Nat.mul_comm q A]; omega
  rw [h4]; ring

/-- Bit by bit: the field holds the new value, every other bit is as it was. -/
theorem fieldSet_testBit (lo w v x j : Nat) :
    (fieldSet lo w v x).testBit j =
      if j < lo then v.testBit j else if j < lo + w then x.testBit (j - lo) else v.testBit j := by
  rw [fieldSet_eq, Nat.add_comm]
  rw [Nat.testBit_two_pow_mul_add _ (Nat.mod_lt _ (Nat.two_pow_pos lo))]
  split
  · rename_i h; simp [Nat.testBit_mod_two_pow, h]
  · rename_i h
    rw [Nat.add_comm (x % 2 ^ w), Nat.testBit_two_pow_mul_add _ (Nat.mod_lt _ (Nat.two_pow_pos w))]
    by_cases h2 : j < lo + w
    · rw [if_pos (by omega), if_pos h2, Nat.testBit_mod_two_pow]
      simp; omega
    · rw [if_neg (by omega), if_neg h2, Nat.testBit_div_two_pow, Nat.testBit_div_two_pow]
      congr 1; omega

theorem fieldOf_fieldSet (lo w v x : Nat) : fieldOf lo w (fieldSet lo w v x) = x % 2 ^ w := by
  apply Nat.eq_of_testBit_eq
  intro j
  rw [fieldOf_testBit, fieldSet_testBit, Nat.testBit_mod_two_pow]
  by_cases h : j < w
  · rw [if_neg (by omega), if_pos (by omega)]; simp
  · simp [h]

/-- A field that does not overlap the one that is set. -/
theorem fieldOf_fieldSet_ne (lo w lo' w' v x : Nat) (h : lo' + w' ≤ lo ∨ lo + w ≤ lo') :
    fieldOf lo' w' (fieldSet lo w v x) = fieldOf lo' w' v := by
  apply Nat.eq_of_testBit_eq
  intro j
  rw [fieldOf_testBit, fieldOf_testBit, fieldSet_testBit]
  by_cases hj : j < w'
  · rcases h with h | h
    · rw [if_pos (by omega)]
    · rw [if_neg (by omega), if_neg (by omega)]
  · simp [hj]

theorem fieldOf_mod (lo w v : Nat) (h : lo + w ≤ 64) : fieldOf lo w (v % 2 ^ 64) = fieldOf lo w v := by
  apply Nat.eq_of_testBit_eq
  intro j
  rw [fieldOf_testBit, fieldOf_testBit, Nat.testBit_mod_two_pow]
  by_cases hj : j < w
  · have : lo + j < 64 := by omega
    simp [this]
  · simp [hj]

/-! ### Registers -/

theorem Dev.reg_setReg_self (d : Dev) (r : Reg) (i v : Nat) (h : keysRising 0 d.regs = true) :
    (d.setReg r i v).reg r i = v % 2 ^ 64 := by
  simp only [Dev.reg, Dev.setReg]
  rw [mapGet_mapSet_self _ _ _ _ h, BitVec.toNat_ofNat]

theorem Dev.reg_setReg_ne (d : Dev) (r r' : Reg) (i i' v : Nat) (h : r'.addr i' ≠ r.addr i) :
    (d.setReg r i v).reg r' i' = d.reg r' i' := by
  simp only [Dev.reg, Dev.setReg]
  rw [mapGet_mapSet_ne _ _ _ _ h]

/-- A register write keeps the keys of the register map rising. -/
theorem Dev.setReg_rising (d : Dev) (r : Reg) (i v : Nat) (h : keysRising 0 d.regs = true) :
    keysRising 0 (d.setReg r i v).regs = true := keysRising_mapSet _ _ _ h

theorem Dev.wr_rising (d : Dev) (f : Fld) (i v : Nat) (h : keysRising 0 d.regs = true) :
    keysRising 0 (d.wr f i v).regs = true := keysRising_mapSet _ _ _ h

/-- A field reads back as it was set. -/
theorem Dev.rd_wr_self (d : Dev) (f : Fld) (i v : Nat) (hf : f.lo + f.w ≤ 64) (h : keysRising 0 d.regs = true) :
    (d.wr f i v).rd f i = v % 2 ^ f.w := by
  simp only [Dev.rd, Dev.wr]
  rw [Dev.reg_setReg_self _ _ _ _ h, fieldOf_mod _ _ _ hf, fieldOf_fieldSet]

/-- Setting a field leaves a field of a register elsewhere. -/
theorem Dev.rd_wr_ne (d : Dev) (f g : Fld) (i j v : Nat) (h : g.reg.addr j ≠ f.reg.addr i) :
    (d.wr f i v).rd g j = d.rd g j := by
  simp only [Dev.rd, Dev.wr]
  rw [Dev.reg_setReg_ne _ _ _ _ _ _ h]

/-- Setting a field leaves another field of the same register. -/
theorem Dev.rd_wr_same (d : Dev) (f g : Fld) (i v : Nat) (hr : g.reg = f.reg) (hg : g.lo + g.w ≤ 64)
    (hd : g.lo + g.w ≤ f.lo ∨ f.lo + f.w ≤ g.lo) (h : keysRising 0 d.regs = true) :
    (d.wr f i v).rd g i = d.rd g i := by
  simp only [Dev.rd, Dev.wr, hr]
  rw [Dev.reg_setReg_self _ _ _ _ h, fieldOf_mod _ _ _ hg, fieldOf_fieldSet_ne _ _ _ _ _ _ hd]

end Sys2Proof.Machine
end

