-- ==== Sys2Proof/Laws/State.lean ====
section
/-!
SUPPORT. One lemma for each field and each named update of the device: what the update leaves in the field.
-/

namespace Sys2Proof.Machine

@[simp] theorem Dev.setReg_regs (d : Dev) (r : Reg) (i v : Nat) : (d.setReg r i v).regs = mapSet d.regs (r.addr i) (BitVec.ofNat 64 v) (BitVec.ofNat 64 (r.rst i)) := rfl
@[simp] theorem Dev.setReg_regsOpen (d : Dev) (r : Reg) (i v : Nat) : (d.setReg r i v).regsOpen = d.regsOpen := rfl
@[simp] theorem Dev.setReg_snapD (d : Dev) (r : Reg) (i v : Nat) : (d.setReg r i v).snapD = d.snapD := rfl
@[simp] theorem Dev.setReg_mem (d : Dev) (r : Reg) (i v : Nat) : (d.setReg r i v).mem = d.mem := rfl
@[simp] theorem Dev.setReg_ue (d : Dev) (r : Reg) (i v : Nat) : (d.setReg r i v).ue = d.ue := rfl
@[simp] theorem Dev.setReg_out (d : Dev) (r : Reg) (i v : Nat) : (d.setReg r i v).out = d.out := rfl
@[simp] theorem Dev.setReg_raised (d : Dev) (r : Reg) (i v : Nat) : (d.setReg r i v).raised = d.raised := rfl
@[simp] theorem Dev.setReg_tallies (d : Dev) (r : Reg) (i v : Nat) : (d.setReg r i v).tallies = d.tallies := rfl
@[simp] theorem Dev.setReg_onceKeys (d : Dev) (r : Reg) (i v : Nat) : (d.setReg r i v).onceKeys = d.onceKeys := rfl
@[simp] theorem Dev.setReg_freeCtr (d : Dev) (r : Reg) (i v : Nat) : (d.setReg r i v).freeCtr = d.freeCtr := rfl
@[simp] theorem Dev.setReg_bus (d : Dev) (r : Reg) (i v : Nat) : (d.setReg r i v).bus = d.bus := rfl
@[simp] theorem Dev.setReg_sys (d : Dev) (r : Reg) (i v : Nat) : (d.setReg r i v).sys = d.sys := rfl
@[simp] theorem Dev.setReg_pat (d : Dev) (r : Reg) (i v : Nat) : (d.setReg r i v).pat = d.pat := rfl
@[simp] theorem Dev.setReg_tmb (d : Dev) (r : Reg) (i v : Nat) : (d.setReg r i v).tmb = d.tmb := rfl
@[simp] theorem Dev.setReg_web (d : Dev) (r : Reg) (i v : Nat) : (d.setReg r i v).web = d.web := rfl
@[simp] theorem Dev.setReg_cdc (d : Dev) (r : Reg) (i v : Nat) : (d.setReg r i v).cdc = d.cdc := rfl
@[simp] theorem Dev.setReg_las (d : Dev) (r : Reg) (i v : Nat) : (d.setReg r i v).las = d.las := rfl
@[simp] theorem Dev.setReg_pace (d : Dev) (r : Reg) (i v : Nat) : (d.setReg r i v).pace = d.pace := rfl
@[simp] theorem Dev.setReg_hst (d : Dev) (r : Reg) (i v : Nat) : (d.setReg r i v).hst = d.hst := rfl
@[simp] theorem Dev.setReg_vlt (d : Dev) (r : Reg) (i v : Nat) : (d.setReg r i v).vlt = d.vlt := rfl
@[simp] theorem Dev.setReg_hl (d : Dev) (r : Reg) (i v : Nat) : (d.setReg r i v).hl = d.hl := rfl
@[simp] theorem Dev.setReg_unauth (d : Dev) (r : Reg) (i v : Nat) : (d.setReg r i v).unauth = d.unauth := rfl
@[simp] theorem Dev.setReg_ins (d : Dev) (r : Reg) (i v : Nat) : (d.setReg r i v).ins = d.ins := rfl
@[simp] theorem Dev.setReg_nzh (d : Dev) (r : Reg) (i v : Nat) : (d.setReg r i v).nzh = d.nzh := rfl
@[simp] theorem Dev.setReg_drm (d : Dev) (r : Reg) (i v : Nat) : (d.setReg r i v).drm = d.drm := rfl
@[simp] theorem Dev.setReg_mot (d : Dev) (r : Reg) (i v : Nat) : (d.setReg r i v).mot = d.mot := rfl
@[simp] theorem Dev.setReg_srv (d : Dev) (r : Reg) (i v : Nat) : (d.setReg r i v).srv = d.srv := rfl
@[simp] theorem Dev.setReg_trm (d : Dev) (r : Reg) (i v : Nat) : (d.setReg r i v).trm = d.trm := rfl
@[simp] theorem Dev.setReg_tap (d : Dev) (r : Reg) (i v : Nat) : (d.setReg r i v).tap = d.tap := rfl

@[simp] theorem Dev.wr_regs (d : Dev) (f : Fld) (i v : Nat) : (d.wr f i v).regs = (d.setReg f.reg i (fieldSet f.lo f.w (d.reg f.reg i) v)).regs := rfl
@[simp] theorem Dev.wr_regsOpen (d : Dev) (f : Fld) (i v : Nat) : (d.wr f i v).regsOpen = d.regsOpen := rfl
@[simp] theorem Dev.wr_snapD (d : Dev) (f : Fld) (i v : Nat) : (d.wr f i v).snapD = d.snapD := rfl
@[simp] theorem Dev.wr_mem (d : Dev) (f : Fld) (i v : Nat) : (d.wr f i v).mem = d.mem := rfl
@[simp] theorem Dev.wr_ue (d : Dev) (f : Fld) (i v : Nat) : (d.wr f i v).ue = d.ue := rfl
@[simp] theorem Dev.wr_out (d : Dev) (f : Fld) (i v : Nat) : (d.wr f i v).out = d.out := rfl
@[simp] theorem Dev.wr_raised (d : Dev) (f : Fld) (i v : Nat) : (d.wr f i v).raised = d.raised := rfl
@[simp] theorem Dev.wr_tallies (d : Dev) (f : Fld) (i v : Nat) : (d.wr f i v).tallies = d.tallies := rfl
@[simp] theorem Dev.wr_onceKeys (d : Dev) (f : Fld) (i v : Nat) : (d.wr f i v).onceKeys = d.onceKeys := rfl
@[simp] theorem Dev.wr_freeCtr (d : Dev) (f : Fld) (i v : Nat) : (d.wr f i v).freeCtr = d.freeCtr := rfl
@[simp] theorem Dev.wr_bus (d : Dev) (f : Fld) (i v : Nat) : (d.wr f i v).bus = d.bus := rfl
@[simp] theorem Dev.wr_sys (d : Dev) (f : Fld) (i v : Nat) : (d.wr f i v).sys = d.sys := rfl
@[simp] theorem Dev.wr_pat (d : Dev) (f : Fld) (i v : Nat) : (d.wr f i v).pat = d.pat := rfl
@[simp] theorem Dev.wr_tmb (d : Dev) (f : Fld) (i v : Nat) : (d.wr f i v).tmb = d.tmb := rfl
@[simp] theorem Dev.wr_web (d : Dev) (f : Fld) (i v : Nat) : (d.wr f i v).web = d.web := rfl
@[simp] theorem Dev.wr_cdc (d : Dev) (f : Fld) (i v : Nat) : (d.wr f i v).cdc = d.cdc := rfl
@[simp] theorem Dev.wr_las (d : Dev) (f : Fld) (i v : Nat) : (d.wr f i v).las = d.las := rfl
@[simp] theorem Dev.wr_pace (d : Dev) (f : Fld) (i v : Nat) : (d.wr f i v).pace = d.pace := rfl
@[simp] theorem Dev.wr_hst (d : Dev) (f : Fld) (i v : Nat) : (d.wr f i v).hst = d.hst := rfl
@[simp] theorem Dev.wr_vlt (d : Dev) (f : Fld) (i v : Nat) : (d.wr f i v).vlt = d.vlt := rfl
@[simp] theorem Dev.wr_hl (d : Dev) (f : Fld) (i v : Nat) : (d.wr f i v).hl = d.hl := rfl
@[simp] theorem Dev.wr_unauth (d : Dev) (f : Fld) (i v : Nat) : (d.wr f i v).unauth = d.unauth := rfl
@[simp] theorem Dev.wr_ins (d : Dev) (f : Fld) (i v : Nat) : (d.wr f i v).ins = d.ins := rfl
@[simp] theorem Dev.wr_nzh (d : Dev) (f : Fld) (i v : Nat) : (d.wr f i v).nzh = d.nzh := rfl
@[simp] theorem Dev.wr_drm (d : Dev) (f : Fld) (i v : Nat) : (d.wr f i v).drm = d.drm := rfl
@[simp] theorem Dev.wr_mot (d : Dev) (f : Fld) (i v : Nat) : (d.wr f i v).mot = d.mot := rfl
@[simp] theorem Dev.wr_srv (d : Dev) (f : Fld) (i v : Nat) : (d.wr f i v).srv = d.srv := rfl
@[simp] theorem Dev.wr_trm (d : Dev) (f : Fld) (i v : Nat) : (d.wr f i v).trm = d.trm := rfl
@[simp] theorem Dev.wr_tap (d : Dev) (f : Fld) (i v : Nat) : (d.wr f i v).tap = d.tap := rfl

@[simp] theorem Dev.wrS_regs (d : Dev) (f : Fld) (i : Nat) (v : Int) : (d.wrS f i v).regs = (d.wr f i (ofSigned f.w v)).regs := rfl
@[simp] theorem Dev.wrS_regsOpen (d : Dev) (f : Fld) (i : Nat) (v : Int) : (d.wrS f i v).regsOpen = d.regsOpen := rfl
@[simp] theorem Dev.wrS_snapD (d : Dev) (f : Fld) (i : Nat) (v : Int) : (d.wrS f i v).snapD = d.snapD := rfl
@[simp] theorem Dev.wrS_mem (d : Dev) (f : Fld) (i : Nat) (v : Int) : (d.wrS f i v).mem = d.mem := rfl
@[simp] theorem Dev.wrS_ue (d : Dev) (f : Fld) (i : Nat) (v : Int) : (d.wrS f i v).ue = d.ue := rfl
@[simp] theorem Dev.wrS_out (d : Dev) (f : Fld) (i : Nat) (v : Int) : (d.wrS f i v).out = d.out := rfl
@[simp] theorem Dev.wrS_raised (d : Dev) (f : Fld) (i : Nat) (v : Int) : (d.wrS f i v).raised = d.raised := rfl
@[simp] theorem Dev.wrS_tallies (d : Dev) (f : Fld) (i : Nat) (v : Int) : (d.wrS f i v).tallies = d.tallies := rfl
@[simp] theorem Dev.wrS_onceKeys (d : Dev) (f : Fld) (i : Nat) (v : Int) : (d.wrS f i v).onceKeys = d.onceKeys := rfl
@[simp] theorem Dev.wrS_freeCtr (d : Dev) (f : Fld) (i : Nat) (v : Int) : (d.wrS f i v).freeCtr = d.freeCtr := rfl
@[simp] theorem Dev.wrS_bus (d : Dev) (f : Fld) (i : Nat) (v : Int) : (d.wrS f i v).bus = d.bus := rfl
@[simp] theorem Dev.wrS_sys (d : Dev) (f : Fld) (i : Nat) (v : Int) : (d.wrS f i v).sys = d.sys := rfl
@[simp] theorem Dev.wrS_pat (d : Dev) (f : Fld) (i : Nat) (v : Int) : (d.wrS f i v).pat = d.pat := rfl
@[simp] theorem Dev.wrS_tmb (d : Dev) (f : Fld) (i : Nat) (v : Int) : (d.wrS f i v).tmb = d.tmb := rfl
@[simp] theorem Dev.wrS_web (d : Dev) (f : Fld) (i : Nat) (v : Int) : (d.wrS f i v).web = d.web := rfl
@[simp] theorem Dev.wrS_cdc (d : Dev) (f : Fld) (i : Nat) (v : Int) : (d.wrS f i v).cdc = d.cdc := rfl
@[simp] theorem Dev.wrS_las (d : Dev) (f : Fld) (i : Nat) (v : Int) : (d.wrS f i v).las = d.las := rfl
@[simp] theorem Dev.wrS_pace (d : Dev) (f : Fld) (i : Nat) (v : Int) : (d.wrS f i v).pace = d.pace := rfl
@[simp] theorem Dev.wrS_hst (d : Dev) (f : Fld) (i : Nat) (v : Int) : (d.wrS f i v).hst = d.hst := rfl
@[simp] theorem Dev.wrS_vlt (d : Dev) (f : Fld) (i : Nat) (v : Int) : (d.wrS f i v).vlt = d.vlt := rfl
@[simp] theorem Dev.wrS_hl (d : Dev) (f : Fld) (i : Nat) (v : Int) : (d.wrS f i v).hl = d.hl := rfl
@[simp] theorem Dev.wrS_unauth (d : Dev) (f : Fld) (i : Nat) (v : Int) : (d.wrS f i v).unauth = d.unauth := rfl
@[simp] theorem Dev.wrS_ins (d : Dev) (f : Fld) (i : Nat) (v : Int) : (d.wrS f i v).ins = d.ins := rfl
@[simp] theorem Dev.wrS_nzh (d : Dev) (f : Fld) (i : Nat) (v : Int) : (d.wrS f i v).nzh = d.nzh := rfl
@[simp] theorem Dev.wrS_drm (d : Dev) (f : Fld) (i : Nat) (v : Int) : (d.wrS f i v).drm = d.drm := rfl
@[simp] theorem Dev.wrS_mot (d : Dev) (f : Fld) (i : Nat) (v : Int) : (d.wrS f i v).mot = d.mot := rfl
@[simp] theorem Dev.wrS_srv (d : Dev) (f : Fld) (i : Nat) (v : Int) : (d.wrS f i v).srv = d.srv := rfl
@[simp] theorem Dev.wrS_trm (d : Dev) (f : Fld) (i : Nat) (v : Int) : (d.wrS f i v).trm = d.trm := rfl
@[simp] theorem Dev.wrS_tap (d : Dev) (f : Fld) (i : Nat) (v : Int) : (d.wrS f i v).tap = d.tap := rfl

@[simp] theorem Dev.wrB_regs (d : Dev) (f : Fld) (i : Nat) (b : Bool) : (d.wrB f i b).regs = (d.wr f i (if b then 1 else 0)).regs := rfl
@[simp] theorem Dev.wrB_regsOpen (d : Dev) (f : Fld) (i : Nat) (b : Bool) : (d.wrB f i b).regsOpen = d.regsOpen := rfl
@[simp] theorem Dev.wrB_snapD (d : Dev) (f : Fld) (i : Nat) (b : Bool) : (d.wrB f i b).snapD = d.snapD := rfl
@[simp] theorem Dev.wrB_mem (d : Dev) (f : Fld) (i : Nat) (b : Bool) : (d.wrB f i b).mem = d.mem := rfl
@[simp] theorem Dev.wrB_ue (d : Dev) (f : Fld) (i : Nat) (b : Bool) : (d.wrB f i b).ue = d.ue := rfl
@[simp] theorem Dev.wrB_out (d : Dev) (f : Fld) (i : Nat) (b : Bool) : (d.wrB f i b).out = d.out := rfl
@[simp] theorem Dev.wrB_raised (d : Dev) (f : Fld) (i : Nat) (b : Bool) : (d.wrB f i b).raised = d.raised := rfl
@[simp] theorem Dev.wrB_tallies (d : Dev) (f : Fld) (i : Nat) (b : Bool) : (d.wrB f i b).tallies = d.tallies := rfl
@[simp] theorem Dev.wrB_onceKeys (d : Dev) (f : Fld) (i : Nat) (b : Bool) : (d.wrB f i b).onceKeys = d.onceKeys := rfl
@[simp] theorem Dev.wrB_freeCtr (d : Dev) (f : Fld) (i : Nat) (b : Bool) : (d.wrB f i b).freeCtr = d.freeCtr := rfl
@[simp] theorem Dev.wrB_bus (d : Dev) (f : Fld) (i : Nat) (b : Bool) : (d.wrB f i b).bus = d.bus := rfl
@[simp] theorem Dev.wrB_sys (d : Dev) (f : Fld) (i : Nat) (b : Bool) : (d.wrB f i b).sys = d.sys := rfl
@[simp] theorem Dev.wrB_pat (d : Dev) (f : Fld) (i : Nat) (b : Bool) : (d.wrB f i b).pat = d.pat := rfl
@[simp] theorem Dev.wrB_tmb (d : Dev) (f : Fld) (i : Nat) (b : Bool) : (d.wrB f i b).tmb = d.tmb := rfl
@[simp] theorem Dev.wrB_web (d : Dev) (f : Fld) (i : Nat) (b : Bool) : (d.wrB f i b).web = d.web := rfl
@[simp] theorem Dev.wrB_cdc (d : Dev) (f : Fld) (i : Nat) (b : Bool) : (d.wrB f i b).cdc = d.cdc := rfl
@[simp] theorem Dev.wrB_las (d : Dev) (f : Fld) (i : Nat) (b : Bool) : (d.wrB f i b).las = d.las := rfl
@[simp] theorem Dev.wrB_pace (d : Dev) (f : Fld) (i : Nat) (b : Bool) : (d.wrB f i b).pace = d.pace := rfl
@[simp] theorem Dev.wrB_hst (d : Dev) (f : Fld) (i : Nat) (b : Bool) : (d.wrB f i b).hst = d.hst := rfl
@[simp] theorem Dev.wrB_vlt (d : Dev) (f : Fld) (i : Nat) (b : Bool) : (d.wrB f i b).vlt = d.vlt := rfl
@[simp] theorem Dev.wrB_hl (d : Dev) (f : Fld) (i : Nat) (b : Bool) : (d.wrB f i b).hl = d.hl := rfl
@[simp] theorem Dev.wrB_unauth (d : Dev) (f : Fld) (i : Nat) (b : Bool) : (d.wrB f i b).unauth = d.unauth := rfl
@[simp] theorem Dev.wrB_ins (d : Dev) (f : Fld) (i : Nat) (b : Bool) : (d.wrB f i b).ins = d.ins := rfl
@[simp] theorem Dev.wrB_nzh (d : Dev) (f : Fld) (i : Nat) (b : Bool) : (d.wrB f i b).nzh = d.nzh := rfl
@[simp] theorem Dev.wrB_drm (d : Dev) (f : Fld) (i : Nat) (b : Bool) : (d.wrB f i b).drm = d.drm := rfl
@[simp] theorem Dev.wrB_mot (d : Dev) (f : Fld) (i : Nat) (b : Bool) : (d.wrB f i b).mot = d.mot := rfl
@[simp] theorem Dev.wrB_srv (d : Dev) (f : Fld) (i : Nat) (b : Bool) : (d.wrB f i b).srv = d.srv := rfl
@[simp] theorem Dev.wrB_trm (d : Dev) (f : Fld) (i : Nat) (b : Bool) : (d.wrB f i b).trm = d.trm := rfl
@[simp] theorem Dev.wrB_tap (d : Dev) (f : Fld) (i : Nat) (b : Bool) : (d.wrB f i b).tap = d.tap := rfl

@[simp] theorem Dev.wrBit_regs (d : Dev) (f : Fld) (b i : Nat) (v : Bool) : (d.wrBit f b i v).regs = (d.wr f i (fieldSet b 1 (d.rd f i) (if v then 1 else 0))).regs := rfl
@[simp] theorem Dev.wrBit_regsOpen (d : Dev) (f : Fld) (b i : Nat) (v : Bool) : (d.wrBit f b i v).regsOpen = d.regsOpen := rfl
@[simp] theorem Dev.wrBit_snapD (d : Dev) (f : Fld) (b i : Nat) (v : Bool) : (d.wrBit f b i v).snapD = d.snapD := rfl
@[simp] theorem Dev.wrBit_mem (d : Dev) (f : Fld) (b i : Nat) (v : Bool) : (d.wrBit f b i v).mem = d.mem := rfl
@[simp] theorem Dev.wrBit_ue (d : Dev) (f : Fld) (b i : Nat) (v : Bool) : (d.wrBit f b i v).ue = d.ue := rfl
@[simp] theorem Dev.wrBit_out (d : Dev) (f : Fld) (b i : Nat) (v : Bool) : (d.wrBit f b i v).out = d.out := rfl
@[simp] theorem Dev.wrBit_raised (d : Dev) (f : Fld) (b i : Nat) (v : Bool) : (d.wrBit f b i v).raised = d.raised := rfl
@[simp] theorem Dev.wrBit_tallies (d : Dev) (f : Fld) (b i : Nat) (v : Bool) : (d.wrBit f b i v).tallies = d.tallies := rfl
@[simp] theorem Dev.wrBit_onceKeys (d : Dev) (f : Fld) (b i : Nat) (v : Bool) : (d.wrBit f b i v).onceKeys = d.onceKeys := rfl
@[simp] theorem Dev.wrBit_freeCtr (d : Dev) (f : Fld) (b i : Nat) (v : Bool) : (d.wrBit f b i v).freeCtr = d.freeCtr := rfl
@[simp] theorem Dev.wrBit_bus (d : Dev) (f : Fld) (b i : Nat) (v : Bool) : (d.wrBit f b i v).bus = d.bus := rfl
@[simp] theorem Dev.wrBit_sys (d : Dev) (f : Fld) (b i : Nat) (v : Bool) : (d.wrBit f b i v).sys = d.sys := rfl
@[simp] theorem Dev.wrBit_pat (d : Dev) (f : Fld) (b i : Nat) (v : Bool) : (d.wrBit f b i v).pat = d.pat := rfl
@[simp] theorem Dev.wrBit_tmb (d : Dev) (f : Fld) (b i : Nat) (v : Bool) : (d.wrBit f b i v).tmb = d.tmb := rfl
@[simp] theorem Dev.wrBit_web (d : Dev) (f : Fld) (b i : Nat) (v : Bool) : (d.wrBit f b i v).web = d.web := rfl
@[simp] theorem Dev.wrBit_cdc (d : Dev) (f : Fld) (b i : Nat) (v : Bool) : (d.wrBit f b i v).cdc = d.cdc := rfl
@[simp] theorem Dev.wrBit_las (d : Dev) (f : Fld) (b i : Nat) (v : Bool) : (d.wrBit f b i v).las = d.las := rfl
@[simp] theorem Dev.wrBit_pace (d : Dev) (f : Fld) (b i : Nat) (v : Bool) : (d.wrBit f b i v).pace = d.pace := rfl
@[simp] theorem Dev.wrBit_hst (d : Dev) (f : Fld) (b i : Nat) (v : Bool) : (d.wrBit f b i v).hst = d.hst := rfl
@[simp] theorem Dev.wrBit_vlt (d : Dev) (f : Fld) (b i : Nat) (v : Bool) : (d.wrBit f b i v).vlt = d.vlt := rfl
@[simp] theorem Dev.wrBit_hl (d : Dev) (f : Fld) (b i : Nat) (v : Bool) : (d.wrBit f b i v).hl = d.hl := rfl
@[simp] theorem Dev.wrBit_unauth (d : Dev) (f : Fld) (b i : Nat) (v : Bool) : (d.wrBit f b i v).unauth = d.unauth := rfl
@[simp] theorem Dev.wrBit_ins (d : Dev) (f : Fld) (b i : Nat) (v : Bool) : (d.wrBit f b i v).ins = d.ins := rfl
@[simp] theorem Dev.wrBit_nzh (d : Dev) (f : Fld) (b i : Nat) (v : Bool) : (d.wrBit f b i v).nzh = d.nzh := rfl
@[simp] theorem Dev.wrBit_drm (d : Dev) (f : Fld) (b i : Nat) (v : Bool) : (d.wrBit f b i v).drm = d.drm := rfl
@[simp] theorem Dev.wrBit_mot (d : Dev) (f : Fld) (b i : Nat) (v : Bool) : (d.wrBit f b i v).mot = d.mot := rfl
@[simp] theorem Dev.wrBit_srv (d : Dev) (f : Fld) (b i : Nat) (v : Bool) : (d.wrBit f b i v).srv = d.srv := rfl
@[simp] theorem Dev.wrBit_trm (d : Dev) (f : Fld) (b i : Nat) (v : Bool) : (d.wrBit f b i v).trm = d.trm := rfl
@[simp] theorem Dev.wrBit_tap (d : Dev) (f : Fld) (b i : Nat) (v : Bool) : (d.wrBit f b i v).tap = d.tap := rfl

@[simp] theorem Dev.bump_regs (d : Dev) (f : Fld) (i n : Nat) : (d.bump f i n).regs = (d.wr f i (f.sum (d.rd f i) n)).regs := rfl
@[simp] theorem Dev.bump_regsOpen (d : Dev) (f : Fld) (i n : Nat) : (d.bump f i n).regsOpen = d.regsOpen := rfl
@[simp] theorem Dev.bump_snapD (d : Dev) (f : Fld) (i n : Nat) : (d.bump f i n).snapD = d.snapD := rfl
@[simp] theorem Dev.bump_mem (d : Dev) (f : Fld) (i n : Nat) : (d.bump f i n).mem = d.mem := rfl
@[simp] theorem Dev.bump_ue (d : Dev) (f : Fld) (i n : Nat) : (d.bump f i n).ue = d.ue := rfl
@[simp] theorem Dev.bump_out (d : Dev) (f : Fld) (i n : Nat) : (d.bump f i n).out = d.out := rfl
@[simp] theorem Dev.bump_raised (d : Dev) (f : Fld) (i n : Nat) : (d.bump f i n).raised = d.raised := rfl
@[simp] theorem Dev.bump_tallies (d : Dev) (f : Fld) (i n : Nat) : (d.bump f i n).tallies = d.tallies := rfl
@[simp] theorem Dev.bump_onceKeys (d : Dev) (f : Fld) (i n : Nat) : (d.bump f i n).onceKeys = d.onceKeys := rfl
@[simp] theorem Dev.bump_freeCtr (d : Dev) (f : Fld) (i n : Nat) : (d.bump f i n).freeCtr = d.freeCtr := rfl
@[simp] theorem Dev.bump_bus (d : Dev) (f : Fld) (i n : Nat) : (d.bump f i n).bus = d.bus := rfl
@[simp] theorem Dev.bump_sys (d : Dev) (f : Fld) (i n : Nat) : (d.bump f i n).sys = d.sys := rfl
@[simp] theorem Dev.bump_pat (d : Dev) (f : Fld) (i n : Nat) : (d.bump f i n).pat = d.pat := rfl
@[simp] theorem Dev.bump_tmb (d : Dev) (f : Fld) (i n : Nat) : (d.bump f i n).tmb = d.tmb := rfl
@[simp] theorem Dev.bump_web (d : Dev) (f : Fld) (i n : Nat) : (d.bump f i n).web = d.web := rfl
@[simp] theorem Dev.bump_cdc (d : Dev) (f : Fld) (i n : Nat) : (d.bump f i n).cdc = d.cdc := rfl
@[simp] theorem Dev.bump_las (d : Dev) (f : Fld) (i n : Nat) : (d.bump f i n).las = d.las := rfl
@[simp] theorem Dev.bump_pace (d : Dev) (f : Fld) (i n : Nat) : (d.bump f i n).pace = d.pace := rfl
@[simp] theorem Dev.bump_hst (d : Dev) (f : Fld) (i n : Nat) : (d.bump f i n).hst = d.hst := rfl
@[simp] theorem Dev.bump_vlt (d : Dev) (f : Fld) (i n : Nat) : (d.bump f i n).vlt = d.vlt := rfl
@[simp] theorem Dev.bump_hl (d : Dev) (f : Fld) (i n : Nat) : (d.bump f i n).hl = d.hl := rfl
@[simp] theorem Dev.bump_unauth (d : Dev) (f : Fld) (i n : Nat) : (d.bump f i n).unauth = d.unauth := rfl
@[simp] theorem Dev.bump_ins (d : Dev) (f : Fld) (i n : Nat) : (d.bump f i n).ins = d.ins := rfl
@[simp] theorem Dev.bump_nzh (d : Dev) (f : Fld) (i n : Nat) : (d.bump f i n).nzh = d.nzh := rfl
@[simp] theorem Dev.bump_drm (d : Dev) (f : Fld) (i n : Nat) : (d.bump f i n).drm = d.drm := rfl
@[simp] theorem Dev.bump_mot (d : Dev) (f : Fld) (i n : Nat) : (d.bump f i n).mot = d.mot := rfl
@[simp] theorem Dev.bump_srv (d : Dev) (f : Fld) (i n : Nat) : (d.bump f i n).srv = d.srv := rfl
@[simp] theorem Dev.bump_trm (d : Dev) (f : Fld) (i n : Nat) : (d.bump f i n).trm = d.trm := rfl
@[simp] theorem Dev.bump_tap (d : Dev) (f : Fld) (i n : Nat) : (d.bump f i n).tap = d.tap := rfl

@[simp] theorem Dev.regWrite_regsOpen (d : Dev) (row : Row) (i new mask : Nat) : (d.regWrite row i new mask).regsOpen = d.regsOpen := rfl
@[simp] theorem Dev.regWrite_snapD (d : Dev) (row : Row) (i new mask : Nat) : (d.regWrite row i new mask).snapD = d.snapD := rfl
@[simp] theorem Dev.regWrite_mem (d : Dev) (row : Row) (i new mask : Nat) : (d.regWrite row i new mask).mem = d.mem := rfl
@[simp] theorem Dev.regWrite_ue (d : Dev) (row : Row) (i new mask : Nat) : (d.regWrite row i new mask).ue = d.ue := rfl
@[simp] theorem Dev.regWrite_out (d : Dev) (row : Row) (i new mask : Nat) : (d.regWrite row i new mask).out = d.out := rfl
@[simp] theorem Dev.regWrite_raised (d : Dev) (row : Row) (i new mask : Nat) : (d.regWrite row i new mask).raised = d.raised := rfl
@[simp] theorem Dev.regWrite_tallies (d : Dev) (row : Row) (i new mask : Nat) : (d.regWrite row i new mask).tallies = d.tallies := rfl
@[simp] theorem Dev.regWrite_onceKeys (d : Dev) (row : Row) (i new mask : Nat) : (d.regWrite row i new mask).onceKeys = d.onceKeys := rfl
@[simp] theorem Dev.regWrite_freeCtr (d : Dev) (row : Row) (i new mask : Nat) : (d.regWrite row i new mask).freeCtr = d.freeCtr := rfl
@[simp] theorem Dev.regWrite_bus (d : Dev) (row : Row) (i new mask : Nat) : (d.regWrite row i new mask).bus = d.bus := rfl
@[simp] theorem Dev.regWrite_sys (d : Dev) (row : Row) (i new mask : Nat) : (d.regWrite row i new mask).sys = d.sys := rfl
@[simp] theorem Dev.regWrite_pat (d : Dev) (row : Row) (i new mask : Nat) : (d.regWrite row i new mask).pat = d.pat := rfl
@[simp] theorem Dev.regWrite_tmb (d : Dev) (row : Row) (i new mask : Nat) : (d.regWrite row i new mask).tmb = d.tmb := rfl
@[simp] theorem Dev.regWrite_web (d : Dev) (row : Row) (i new mask : Nat) : (d.regWrite row i new mask).web = d.web := rfl
@[simp] theorem Dev.regWrite_cdc (d : Dev) (row : Row) (i new mask : Nat) : (d.regWrite row i new mask).cdc = d.cdc := rfl
@[simp] theorem Dev.regWrite_las (d : Dev) (row : Row) (i new mask : Nat) : (d.regWrite row i new mask).las = d.las := rfl
@[simp] theorem Dev.regWrite_pace (d : Dev) (row : Row) (i new mask : Nat) : (d.regWrite row i new mask).pace = d.pace := rfl
@[simp] theorem Dev.regWrite_hst (d : Dev) (row : Row) (i new mask : Nat) : (d.regWrite row i new mask).hst = d.hst := rfl
@[simp] theorem Dev.regWrite_vlt (d : Dev) (row : Row) (i new mask : Nat) : (d.regWrite row i new mask).vlt = d.vlt := rfl
@[simp] theorem Dev.regWrite_hl (d : Dev) (row : Row) (i new mask : Nat) : (d.regWrite row i new mask).hl = d.hl := rfl
@[simp] theorem Dev.regWrite_unauth (d : Dev) (row : Row) (i new mask : Nat) : (d.regWrite row i new mask).unauth = d.unauth := rfl
@[simp] theorem Dev.regWrite_ins (d : Dev) (row : Row) (i new mask : Nat) : (d.regWrite row i new mask).ins = d.ins := rfl
@[simp] theorem Dev.regWrite_nzh (d : Dev) (row : Row) (i new mask : Nat) : (d.regWrite row i new mask).nzh = d.nzh := rfl
@[simp] theorem Dev.regWrite_drm (d : Dev) (row : Row) (i new mask : Nat) : (d.regWrite row i new mask).drm = d.drm := rfl
@[simp] theorem Dev.regWrite_mot (d : Dev) (row : Row) (i new mask : Nat) : (d.regWrite row i new mask).mot = d.mot := rfl
@[simp] theorem Dev.regWrite_srv (d : Dev) (row : Row) (i new mask : Nat) : (d.regWrite row i new mask).srv = d.srv := rfl
@[simp] theorem Dev.regWrite_trm (d : Dev) (row : Row) (i new mask : Nat) : (d.regWrite row i new mask).trm = d.trm := rfl
@[simp] theorem Dev.regWrite_tap (d : Dev) (row : Row) (i new mask : Nat) : (d.regWrite row i new mask).tap = d.tap := rfl

@[simp] theorem Dev.count_regs (d : Dev) (f : Fld) (i n : Nat) : (d.count f i n).regs = d.regs := rfl
@[simp] theorem Dev.count_regsOpen (d : Dev) (f : Fld) (i n : Nat) : (d.count f i n).regsOpen = d.regsOpen := rfl
@[simp] theorem Dev.count_snapD (d : Dev) (f : Fld) (i n : Nat) : (d.count f i n).snapD = mapSet d.snapD (f.key i) (mapGet d.snapD (f.key i) 0 + n) 0 := rfl
@[simp] theorem Dev.count_mem (d : Dev) (f : Fld) (i n : Nat) : (d.count f i n).mem = d.mem := rfl
@[simp] theorem Dev.count_ue (d : Dev) (f : Fld) (i n : Nat) : (d.count f i n).ue = d.ue := rfl
@[simp] theorem Dev.count_out (d : Dev) (f : Fld) (i n : Nat) : (d.count f i n).out = d.out := rfl
@[simp] theorem Dev.count_raised (d : Dev) (f : Fld) (i n : Nat) : (d.count f i n).raised = d.raised := rfl
@[simp] theorem Dev.count_tallies (d : Dev) (f : Fld) (i n : Nat) : (d.count f i n).tallies = d.tallies := rfl
@[simp] theorem Dev.count_onceKeys (d : Dev) (f : Fld) (i n : Nat) : (d.count f i n).onceKeys = d.onceKeys := rfl
@[simp] theorem Dev.count_freeCtr (d : Dev) (f : Fld) (i n : Nat) : (d.count f i n).freeCtr = d.freeCtr := rfl
@[simp] theorem Dev.count_bus (d : Dev) (f : Fld) (i n : Nat) : (d.count f i n).bus = d.bus := rfl
@[simp] theorem Dev.count_sys (d : Dev) (f : Fld) (i n : Nat) : (d.count f i n).sys = d.sys := rfl
@[simp] theorem Dev.count_pat (d : Dev) (f : Fld) (i n : Nat) : (d.count f i n).pat = d.pat := rfl
@[simp] theorem Dev.count_tmb (d : Dev) (f : Fld) (i n : Nat) : (d.count f i n).tmb = d.tmb := rfl
@[simp] theorem Dev.count_web (d : Dev) (f : Fld) (i n : Nat) : (d.count f i n).web = d.web := rfl
@[simp] theorem Dev.count_cdc (d : Dev) (f : Fld) (i n : Nat) : (d.count f i n).cdc = d.cdc := rfl
@[simp] theorem Dev.count_las (d : Dev) (f : Fld) (i n : Nat) : (d.count f i n).las = d.las := rfl
@[simp] theorem Dev.count_pace (d : Dev) (f : Fld) (i n : Nat) : (d.count f i n).pace = d.pace := rfl
@[simp] theorem Dev.count_hst (d : Dev) (f : Fld) (i n : Nat) : (d.count f i n).hst = d.hst := rfl
@[simp] theorem Dev.count_vlt (d : Dev) (f : Fld) (i n : Nat) : (d.count f i n).vlt = d.vlt := rfl
@[simp] theorem Dev.count_hl (d : Dev) (f : Fld) (i n : Nat) : (d.count f i n).hl = d.hl := rfl
@[simp] theorem Dev.count_unauth (d : Dev) (f : Fld) (i n : Nat) : (d.count f i n).unauth = d.unauth := rfl
@[simp] theorem Dev.count_ins (d : Dev) (f : Fld) (i n : Nat) : (d.count f i n).ins = d.ins := rfl
@[simp] theorem Dev.count_nzh (d : Dev) (f : Fld) (i n : Nat) : (d.count f i n).nzh = d.nzh := rfl
@[simp] theorem Dev.count_drm (d : Dev) (f : Fld) (i n : Nat) : (d.count f i n).drm = d.drm := rfl
@[simp] theorem Dev.count_mot (d : Dev) (f : Fld) (i n : Nat) : (d.count f i n).mot = d.mot := rfl
@[simp] theorem Dev.count_srv (d : Dev) (f : Fld) (i n : Nat) : (d.count f i n).srv = d.srv := rfl
@[simp] theorem Dev.count_trm (d : Dev) (f : Fld) (i n : Nat) : (d.count f i n).trm = d.trm := rfl
@[simp] theorem Dev.count_tap (d : Dev) (f : Fld) (i n : Nat) : (d.count f i n).tap = d.tap := rfl

@[simp] theorem Dev.emit_regs (d : Dev) (o : Out) : (d.emit o).regs = d.regs := rfl
@[simp] theorem Dev.emit_regsOpen (d : Dev) (o : Out) : (d.emit o).regsOpen = d.regsOpen := rfl
@[simp] theorem Dev.emit_snapD (d : Dev) (o : Out) : (d.emit o).snapD = d.snapD := rfl
@[simp] theorem Dev.emit_mem (d : Dev) (o : Out) : (d.emit o).mem = d.mem := rfl
@[simp] theorem Dev.emit_ue (d : Dev) (o : Out) : (d.emit o).ue = d.ue := rfl
@[simp] theorem Dev.emit_out (d : Dev) (o : Out) : (d.emit o).out = d.out ++ [o] := rfl
@[simp] theorem Dev.emit_raised (d : Dev) (o : Out) : (d.emit o).raised = d.raised := rfl
@[simp] theorem Dev.emit_tallies (d : Dev) (o : Out) : (d.emit o).tallies = d.tallies := rfl
@[simp] theorem Dev.emit_onceKeys (d : Dev) (o : Out) : (d.emit o).onceKeys = d.onceKeys := rfl
@[simp] theorem Dev.emit_freeCtr (d : Dev) (o : Out) : (d.emit o).freeCtr = d.freeCtr := rfl
@[simp] theorem Dev.emit_bus (d : Dev) (o : Out) : (d.emit o).bus = d.bus := rfl
@[simp] theorem Dev.emit_sys (d : Dev) (o : Out) : (d.emit o).sys = d.sys := rfl
@[simp] theorem Dev.emit_pat (d : Dev) (o : Out) : (d.emit o).pat = d.pat := rfl
@[simp] theorem Dev.emit_tmb (d : Dev) (o : Out) : (d.emit o).tmb = d.tmb := rfl
@[simp] theorem Dev.emit_web (d : Dev) (o : Out) : (d.emit o).web = d.web := rfl
@[simp] theorem Dev.emit_cdc (d : Dev) (o : Out) : (d.emit o).cdc = d.cdc := rfl
@[simp] theorem Dev.emit_las (d : Dev) (o : Out) : (d.emit o).las = d.las := rfl
@[simp] theorem Dev.emit_pace (d : Dev) (o : Out) : (d.emit o).pace = d.pace := rfl
@[simp] theorem Dev.emit_hst (d : Dev) (o : Out) : (d.emit o).hst = d.hst := rfl
@[simp] theorem Dev.emit_vlt (d : Dev) (o : Out) : (d.emit o).vlt = d.vlt := rfl
@[simp] theorem Dev.emit_hl (d : Dev) (o : Out) : (d.emit o).hl = d.hl := rfl
@[simp] theorem Dev.emit_unauth (d : Dev) (o : Out) : (d.emit o).unauth = d.unauth := rfl
@[simp] theorem Dev.emit_ins (d : Dev) (o : Out) : (d.emit o).ins = d.ins := rfl
@[simp] theorem Dev.emit_nzh (d : Dev) (o : Out) : (d.emit o).nzh = d.nzh := rfl
@[simp] theorem Dev.emit_drm (d : Dev) (o : Out) : (d.emit o).drm = d.drm := rfl
@[simp] theorem Dev.emit_mot (d : Dev) (o : Out) : (d.emit o).mot = d.mot := rfl
@[simp] theorem Dev.emit_srv (d : Dev) (o : Out) : (d.emit o).srv = d.srv := rfl
@[simp] theorem Dev.emit_trm (d : Dev) (o : Out) : (d.emit o).trm = d.trm := rfl
@[simp] theorem Dev.emit_tap (d : Dev) (o : Out) : (d.emit o).tap = d.tap := rfl

@[simp] theorem Dev.setByte_regs (d : Dev) (a : Nat) (b : Byte) : (d.setByte a b).regs = d.regs := rfl
@[simp] theorem Dev.setByte_regsOpen (d : Dev) (a : Nat) (b : Byte) : (d.setByte a b).regsOpen = d.regsOpen := rfl
@[simp] theorem Dev.setByte_snapD (d : Dev) (a : Nat) (b : Byte) : (d.setByte a b).snapD = d.snapD := rfl
@[simp] theorem Dev.setByte_mem (d : Dev) (a : Nat) (b : Byte) : (d.setByte a b).mem = mapSet d.mem a b 0 := rfl
@[simp] theorem Dev.setByte_ue (d : Dev) (a : Nat) (b : Byte) : (d.setByte a b).ue = d.ue := rfl
@[simp] theorem Dev.setByte_out (d : Dev) (a : Nat) (b : Byte) : (d.setByte a b).out = d.out := rfl
@[simp] theorem Dev.setByte_raised (d : Dev) (a : Nat) (b : Byte) : (d.setByte a b).raised = d.raised := rfl
@[simp] theorem Dev.setByte_tallies (d : Dev) (a : Nat) (b : Byte) : (d.setByte a b).tallies = d.tallies := rfl
@[simp] theorem Dev.setByte_onceKeys (d : Dev) (a : Nat) (b : Byte) : (d.setByte a b).onceKeys = d.onceKeys := rfl
@[simp] theorem Dev.setByte_freeCtr (d : Dev) (a : Nat) (b : Byte) : (d.setByte a b).freeCtr = d.freeCtr := rfl
@[simp] theorem Dev.setByte_bus (d : Dev) (a : Nat) (b : Byte) : (d.setByte a b).bus = d.bus := rfl
@[simp] theorem Dev.setByte_sys (d : Dev) (a : Nat) (b : Byte) : (d.setByte a b).sys = d.sys := rfl
@[simp] theorem Dev.setByte_pat (d : Dev) (a : Nat) (b : Byte) : (d.setByte a b).pat = d.pat := rfl
@[simp] theorem Dev.setByte_tmb (d : Dev) (a : Nat) (b : Byte) : (d.setByte a b).tmb = d.tmb := rfl
@[simp] theorem Dev.setByte_web (d : Dev) (a : Nat) (b : Byte) : (d.setByte a b).web = d.web := rfl
@[simp] theorem Dev.setByte_cdc (d : Dev) (a : Nat) (b : Byte) : (d.setByte a b).cdc = d.cdc := rfl
@[simp] theorem Dev.setByte_las (d : Dev) (a : Nat) (b : Byte) : (d.setByte a b).las = d.las := rfl
@[simp] theorem Dev.setByte_pace (d : Dev) (a : Nat) (b : Byte) : (d.setByte a b).pace = d.pace := rfl
@[simp] theorem Dev.setByte_hst (d : Dev) (a : Nat) (b : Byte) : (d.setByte a b).hst = d.hst := rfl
@[simp] theorem Dev.setByte_vlt (d : Dev) (a : Nat) (b : Byte) : (d.setByte a b).vlt = d.vlt := rfl
@[simp] theorem Dev.setByte_hl (d : Dev) (a : Nat) (b : Byte) : (d.setByte a b).hl = d.hl := rfl
@[simp] theorem Dev.setByte_unauth (d : Dev) (a : Nat) (b : Byte) : (d.setByte a b).unauth = d.unauth := rfl
@[simp] theorem Dev.setByte_ins (d : Dev) (a : Nat) (b : Byte) : (d.setByte a b).ins = d.ins := rfl
@[simp] theorem Dev.setByte_nzh (d : Dev) (a : Nat) (b : Byte) : (d.setByte a b).nzh = d.nzh := rfl
@[simp] theorem Dev.setByte_drm (d : Dev) (a : Nat) (b : Byte) : (d.setByte a b).drm = d.drm := rfl
@[simp] theorem Dev.setByte_mot (d : Dev) (a : Nat) (b : Byte) : (d.setByte a b).mot = d.mot := rfl
@[simp] theorem Dev.setByte_srv (d : Dev) (a : Nat) (b : Byte) : (d.setByte a b).srv = d.srv := rfl
@[simp] theorem Dev.setByte_trm (d : Dev) (a : Nat) (b : Byte) : (d.setByte a b).trm = d.trm := rfl
@[simp] theorem Dev.setByte_tap (d : Dev) (a : Nat) (b : Byte) : (d.setByte a b).tap = d.tap := rfl

@[simp] theorem Dev.setBytes_regs (d : Dev) (a : Nat) (bs : List Byte) : (d.setBytes a bs).regs = d.regs := rfl
@[simp] theorem Dev.setBytes_regsOpen (d : Dev) (a : Nat) (bs : List Byte) : (d.setBytes a bs).regsOpen = d.regsOpen := rfl
@[simp] theorem Dev.setBytes_snapD (d : Dev) (a : Nat) (bs : List Byte) : (d.setBytes a bs).snapD = d.snapD := rfl
@[simp] theorem Dev.setBytes_mem (d : Dev) (a : Nat) (bs : List Byte) : (d.setBytes a bs).mem = storeBytes d.mem a bs := rfl
@[simp] theorem Dev.setBytes_ue (d : Dev) (a : Nat) (bs : List Byte) : (d.setBytes a bs).ue = d.ue := rfl
@[simp] theorem Dev.setBytes_out (d : Dev) (a : Nat) (bs : List Byte) : (d.setBytes a bs).out = d.out := rfl
@[simp] theorem Dev.setBytes_raised (d : Dev) (a : Nat) (bs : List Byte) : (d.setBytes a bs).raised = d.raised := rfl
@[simp] theorem Dev.setBytes_tallies (d : Dev) (a : Nat) (bs : List Byte) : (d.setBytes a bs).tallies = d.tallies := rfl
@[simp] theorem Dev.setBytes_onceKeys (d : Dev) (a : Nat) (bs : List Byte) : (d.setBytes a bs).onceKeys = d.onceKeys := rfl
@[simp] theorem Dev.setBytes_freeCtr (d : Dev) (a : Nat) (bs : List Byte) : (d.setBytes a bs).freeCtr = d.freeCtr := rfl
@[simp] theorem Dev.setBytes_bus (d : Dev) (a : Nat) (bs : List Byte) : (d.setBytes a bs).bus = d.bus := rfl
@[simp] theorem Dev.setBytes_sys (d : Dev) (a : Nat) (bs : List Byte) : (d.setBytes a bs).sys = d.sys := rfl
@[simp] theorem Dev.setBytes_pat (d : Dev) (a : Nat) (bs : List Byte) : (d.setBytes a bs).pat = d.pat := rfl
@[simp] theorem Dev.setBytes_tmb (d : Dev) (a : Nat) (bs : List Byte) : (d.setBytes a bs).tmb = d.tmb := rfl
@[simp] theorem Dev.setBytes_web (d : Dev) (a : Nat) (bs : List Byte) : (d.setBytes a bs).web = d.web := rfl
@[simp] theorem Dev.setBytes_cdc (d : Dev) (a : Nat) (bs : List Byte) : (d.setBytes a bs).cdc = d.cdc := rfl
@[simp] theorem Dev.setBytes_las (d : Dev) (a : Nat) (bs : List Byte) : (d.setBytes a bs).las = d.las := rfl
@[simp] theorem Dev.setBytes_pace (d : Dev) (a : Nat) (bs : List Byte) : (d.setBytes a bs).pace = d.pace := rfl
@[simp] theorem Dev.setBytes_hst (d : Dev) (a : Nat) (bs : List Byte) : (d.setBytes a bs).hst = d.hst := rfl
@[simp] theorem Dev.setBytes_vlt (d : Dev) (a : Nat) (bs : List Byte) : (d.setBytes a bs).vlt = d.vlt := rfl
@[simp] theorem Dev.setBytes_hl (d : Dev) (a : Nat) (bs : List Byte) : (d.setBytes a bs).hl = d.hl := rfl
@[simp] theorem Dev.setBytes_unauth (d : Dev) (a : Nat) (bs : List Byte) : (d.setBytes a bs).unauth = d.unauth := rfl
@[simp] theorem Dev.setBytes_ins (d : Dev) (a : Nat) (bs : List Byte) : (d.setBytes a bs).ins = d.ins := rfl
@[simp] theorem Dev.setBytes_nzh (d : Dev) (a : Nat) (bs : List Byte) : (d.setBytes a bs).nzh = d.nzh := rfl
@[simp] theorem Dev.setBytes_drm (d : Dev) (a : Nat) (bs : List Byte) : (d.setBytes a bs).drm = d.drm := rfl
@[simp] theorem Dev.setBytes_mot (d : Dev) (a : Nat) (bs : List Byte) : (d.setBytes a bs).mot = d.mot := rfl
@[simp] theorem Dev.setBytes_srv (d : Dev) (a : Nat) (bs : List Byte) : (d.setBytes a bs).srv = d.srv := rfl
@[simp] theorem Dev.setBytes_trm (d : Dev) (a : Nat) (bs : List Byte) : (d.setBytes a bs).trm = d.trm := rfl
@[simp] theorem Dev.setBytes_tap (d : Dev) (a : Nat) (bs : List Byte) : (d.setBytes a bs).tap = d.tap := rfl

@[simp] theorem Dev.setPort_regs (d : Dev) (p : Nat) (f : HostPort → HostPort) : (d.setPort p f).regs = d.regs := rfl
@[simp] theorem Dev.setPort_regsOpen (d : Dev) (p : Nat) (f : HostPort → HostPort) : (d.setPort p f).regsOpen = d.regsOpen := rfl
@[simp] theorem Dev.setPort_snapD (d : Dev) (p : Nat) (f : HostPort → HostPort) : (d.setPort p f).snapD = d.snapD := rfl
@[simp] theorem Dev.setPort_mem (d : Dev) (p : Nat) (f : HostPort → HostPort) : (d.setPort p f).mem = d.mem := rfl
@[simp] theorem Dev.setPort_ue (d : Dev) (p : Nat) (f : HostPort → HostPort) : (d.setPort p f).ue = d.ue := rfl
@[simp] theorem Dev.setPort_out (d : Dev) (p : Nat) (f : HostPort → HostPort) : (d.setPort p f).out = d.out := rfl
@[simp] theorem Dev.setPort_raised (d : Dev) (p : Nat) (f : HostPort → HostPort) : (d.setPort p f).raised = d.raised := rfl
@[simp] theorem Dev.setPort_tallies (d : Dev) (p : Nat) (f : HostPort → HostPort) : (d.setPort p f).tallies = d.tallies := rfl
@[simp] theorem Dev.setPort_onceKeys (d : Dev) (p : Nat) (f : HostPort → HostPort) : (d.setPort p f).onceKeys = d.onceKeys := rfl
@[simp] theorem Dev.setPort_freeCtr (d : Dev) (p : Nat) (f : HostPort → HostPort) : (d.setPort p f).freeCtr = d.freeCtr := rfl
@[simp] theorem Dev.setPort_bus (d : Dev) (p : Nat) (f : HostPort → HostPort) : (d.setPort p f).bus = d.bus := rfl
@[simp] theorem Dev.setPort_sys (d : Dev) (p : Nat) (f : HostPort → HostPort) : (d.setPort p f).sys = d.sys := rfl
@[simp] theorem Dev.setPort_pat (d : Dev) (p : Nat) (f : HostPort → HostPort) : (d.setPort p f).pat = d.pat := rfl
@[simp] theorem Dev.setPort_tmb (d : Dev) (p : Nat) (f : HostPort → HostPort) : (d.setPort p f).tmb = d.tmb := rfl
@[simp] theorem Dev.setPort_web (d : Dev) (p : Nat) (f : HostPort → HostPort) : (d.setPort p f).web = d.web := rfl
@[simp] theorem Dev.setPort_cdc (d : Dev) (p : Nat) (f : HostPort → HostPort) : (d.setPort p f).cdc = d.cdc := rfl
@[simp] theorem Dev.setPort_las (d : Dev) (p : Nat) (f : HostPort → HostPort) : (d.setPort p f).las = d.las := rfl
@[simp] theorem Dev.setPort_pace (d : Dev) (p : Nat) (f : HostPort → HostPort) : (d.setPort p f).pace = d.pace := rfl
@[simp] theorem Dev.setPort_hst (d : Dev) (p : Nat) (f : HostPort → HostPort) : (d.setPort p f).hst = { d.hst with ports := d.hst.ports.modify p f } := rfl
@[simp] theorem Dev.setPort_vlt (d : Dev) (p : Nat) (f : HostPort → HostPort) : (d.setPort p f).vlt = d.vlt := rfl
@[simp] theorem Dev.setPort_hl (d : Dev) (p : Nat) (f : HostPort → HostPort) : (d.setPort p f).hl = d.hl := rfl
@[simp] theorem Dev.setPort_unauth (d : Dev) (p : Nat) (f : HostPort → HostPort) : (d.setPort p f).unauth = d.unauth := rfl
@[simp] theorem Dev.setPort_ins (d : Dev) (p : Nat) (f : HostPort → HostPort) : (d.setPort p f).ins = d.ins := rfl
@[simp] theorem Dev.setPort_nzh (d : Dev) (p : Nat) (f : HostPort → HostPort) : (d.setPort p f).nzh = d.nzh := rfl
@[simp] theorem Dev.setPort_drm (d : Dev) (p : Nat) (f : HostPort → HostPort) : (d.setPort p f).drm = d.drm := rfl
@[simp] theorem Dev.setPort_mot (d : Dev) (p : Nat) (f : HostPort → HostPort) : (d.setPort p f).mot = d.mot := rfl
@[simp] theorem Dev.setPort_srv (d : Dev) (p : Nat) (f : HostPort → HostPort) : (d.setPort p f).srv = d.srv := rfl
@[simp] theorem Dev.setPort_trm (d : Dev) (p : Nat) (f : HostPort → HostPort) : (d.setPort p f).trm = d.trm := rfl
@[simp] theorem Dev.setPort_tap (d : Dev) (p : Nat) (f : HostPort → HostPort) : (d.setPort p f).tap = d.tap := rfl

@[simp] theorem Dev.setUpload_regs (d : Dev) (e : Nat) (f : Upload → Upload) : (d.setUpload e f).regs = d.regs := rfl
@[simp] theorem Dev.setUpload_regsOpen (d : Dev) (e : Nat) (f : Upload → Upload) : (d.setUpload e f).regsOpen = d.regsOpen := rfl
@[simp] theorem Dev.setUpload_snapD (d : Dev) (e : Nat) (f : Upload → Upload) : (d.setUpload e f).snapD = d.snapD := rfl
@[simp] theorem Dev.setUpload_mem (d : Dev) (e : Nat) (f : Upload → Upload) : (d.setUpload e f).mem = d.mem := rfl
@[simp] theorem Dev.setUpload_ue (d : Dev) (e : Nat) (f : Upload → Upload) : (d.setUpload e f).ue = d.ue := rfl
@[simp] theorem Dev.setUpload_out (d : Dev) (e : Nat) (f : Upload → Upload) : (d.setUpload e f).out = d.out := rfl
@[simp] theorem Dev.setUpload_raised (d : Dev) (e : Nat) (f : Upload → Upload) : (d.setUpload e f).raised = d.raised := rfl
@[simp] theorem Dev.setUpload_tallies (d : Dev) (e : Nat) (f : Upload → Upload) : (d.setUpload e f).tallies = d.tallies := rfl
@[simp] theorem Dev.setUpload_onceKeys (d : Dev) (e : Nat) (f : Upload → Upload) : (d.setUpload e f).onceKeys = d.onceKeys := rfl
@[simp] theorem Dev.setUpload_freeCtr (d : Dev) (e : Nat) (f : Upload → Upload) : (d.setUpload e f).freeCtr = d.freeCtr := rfl
@[simp] theorem Dev.setUpload_bus (d : Dev) (e : Nat) (f : Upload → Upload) : (d.setUpload e f).bus = d.bus := rfl
@[simp] theorem Dev.setUpload_sys (d : Dev) (e : Nat) (f : Upload → Upload) : (d.setUpload e f).sys = d.sys := rfl
@[simp] theorem Dev.setUpload_pat (d : Dev) (e : Nat) (f : Upload → Upload) : (d.setUpload e f).pat = d.pat := rfl
@[simp] theorem Dev.setUpload_tmb (d : Dev) (e : Nat) (f : Upload → Upload) : (d.setUpload e f).tmb = d.tmb := rfl
@[simp] theorem Dev.setUpload_web (d : Dev) (e : Nat) (f : Upload → Upload) : (d.setUpload e f).web = d.web := rfl
@[simp] theorem Dev.setUpload_cdc (d : Dev) (e : Nat) (f : Upload → Upload) : (d.setUpload e f).cdc = d.cdc := rfl
@[simp] theorem Dev.setUpload_las (d : Dev) (e : Nat) (f : Upload → Upload) : (d.setUpload e f).las = d.las := rfl
@[simp] theorem Dev.setUpload_pace (d : Dev) (e : Nat) (f : Upload → Upload) : (d.setUpload e f).pace = d.pace := rfl
@[simp] theorem Dev.setUpload_hst (d : Dev) (e : Nat) (f : Upload → Upload) : (d.setUpload e f).hst = { d.hst with uploads := d.hst.uploads.modify e f } := rfl
@[simp] theorem Dev.setUpload_vlt (d : Dev) (e : Nat) (f : Upload → Upload) : (d.setUpload e f).vlt = d.vlt := rfl
@[simp] theorem Dev.setUpload_hl (d : Dev) (e : Nat) (f : Upload → Upload) : (d.setUpload e f).hl = d.hl := rfl
@[simp] theorem Dev.setUpload_unauth (d : Dev) (e : Nat) (f : Upload → Upload) : (d.setUpload e f).unauth = d.unauth := rfl
@[simp] theorem Dev.setUpload_ins (d : Dev) (e : Nat) (f : Upload → Upload) : (d.setUpload e f).ins = d.ins := rfl
@[simp] theorem Dev.setUpload_nzh (d : Dev) (e : Nat) (f : Upload → Upload) : (d.setUpload e f).nzh = d.nzh := rfl
@[simp] theorem Dev.setUpload_drm (d : Dev) (e : Nat) (f : Upload → Upload) : (d.setUpload e f).drm = d.drm := rfl
@[simp] theorem Dev.setUpload_mot (d : Dev) (e : Nat) (f : Upload → Upload) : (d.setUpload e f).mot = d.mot := rfl
@[simp] theorem Dev.setUpload_srv (d : Dev) (e : Nat) (f : Upload → Upload) : (d.setUpload e f).srv = d.srv := rfl
@[simp] theorem Dev.setUpload_trm (d : Dev) (e : Nat) (f : Upload → Upload) : (d.setUpload e f).trm = d.trm := rfl
@[simp] theorem Dev.setUpload_tap (d : Dev) (e : Nat) (f : Upload → Upload) : (d.setUpload e f).tap = d.tap := rfl

@[simp] theorem Dev.setPtp_regs (d : Dev) (e : Nat) (f : PtpPort → PtpPort) : (d.setPtp e f).regs = d.regs := rfl
@[simp] theorem Dev.setPtp_regsOpen (d : Dev) (e : Nat) (f : PtpPort → PtpPort) : (d.setPtp e f).regsOpen = d.regsOpen := rfl
@[simp] theorem Dev.setPtp_snapD (d : Dev) (e : Nat) (f : PtpPort → PtpPort) : (d.setPtp e f).snapD = d.snapD := rfl
@[simp] theorem Dev.setPtp_mem (d : Dev) (e : Nat) (f : PtpPort → PtpPort) : (d.setPtp e f).mem = d.mem := rfl
@[simp] theorem Dev.setPtp_ue (d : Dev) (e : Nat) (f : PtpPort → PtpPort) : (d.setPtp e f).ue = d.ue := rfl
@[simp] theorem Dev.setPtp_out (d : Dev) (e : Nat) (f : PtpPort → PtpPort) : (d.setPtp e f).out = d.out := rfl
@[simp] theorem Dev.setPtp_raised (d : Dev) (e : Nat) (f : PtpPort → PtpPort) : (d.setPtp e f).raised = d.raised := rfl
@[simp] theorem Dev.setPtp_tallies (d : Dev) (e : Nat) (f : PtpPort → PtpPort) : (d.setPtp e f).tallies = d.tallies := rfl
@[simp] theorem Dev.setPtp_onceKeys (d : Dev) (e : Nat) (f : PtpPort → PtpPort) : (d.setPtp e f).onceKeys = d.onceKeys := rfl
@[simp] theorem Dev.setPtp_freeCtr (d : Dev) (e : Nat) (f : PtpPort → PtpPort) : (d.setPtp e f).freeCtr = d.freeCtr := rfl
@[simp] theorem Dev.setPtp_bus (d : Dev) (e : Nat) (f : PtpPort → PtpPort) : (d.setPtp e f).bus = d.bus := rfl
@[simp] theorem Dev.setPtp_sys (d : Dev) (e : Nat) (f : PtpPort → PtpPort) : (d.setPtp e f).sys = d.sys := rfl
@[simp] theorem Dev.setPtp_pat (d : Dev) (e : Nat) (f : PtpPort → PtpPort) : (d.setPtp e f).pat = d.pat := rfl
@[simp] theorem Dev.setPtp_tmb (d : Dev) (e : Nat) (f : PtpPort → PtpPort) : (d.setPtp e f).tmb = { d.tmb with ports := d.tmb.ports.modify e f } := rfl
@[simp] theorem Dev.setPtp_web (d : Dev) (e : Nat) (f : PtpPort → PtpPort) : (d.setPtp e f).web = d.web := rfl
@[simp] theorem Dev.setPtp_cdc (d : Dev) (e : Nat) (f : PtpPort → PtpPort) : (d.setPtp e f).cdc = d.cdc := rfl
@[simp] theorem Dev.setPtp_las (d : Dev) (e : Nat) (f : PtpPort → PtpPort) : (d.setPtp e f).las = d.las := rfl
@[simp] theorem Dev.setPtp_pace (d : Dev) (e : Nat) (f : PtpPort → PtpPort) : (d.setPtp e f).pace = d.pace := rfl
@[simp] theorem Dev.setPtp_hst (d : Dev) (e : Nat) (f : PtpPort → PtpPort) : (d.setPtp e f).hst = d.hst := rfl
@[simp] theorem Dev.setPtp_vlt (d : Dev) (e : Nat) (f : PtpPort → PtpPort) : (d.setPtp e f).vlt = d.vlt := rfl
@[simp] theorem Dev.setPtp_hl (d : Dev) (e : Nat) (f : PtpPort → PtpPort) : (d.setPtp e f).hl = d.hl := rfl
@[simp] theorem Dev.setPtp_unauth (d : Dev) (e : Nat) (f : PtpPort → PtpPort) : (d.setPtp e f).unauth = d.unauth := rfl
@[simp] theorem Dev.setPtp_ins (d : Dev) (e : Nat) (f : PtpPort → PtpPort) : (d.setPtp e f).ins = d.ins := rfl
@[simp] theorem Dev.setPtp_nzh (d : Dev) (e : Nat) (f : PtpPort → PtpPort) : (d.setPtp e f).nzh = d.nzh := rfl
@[simp] theorem Dev.setPtp_drm (d : Dev) (e : Nat) (f : PtpPort → PtpPort) : (d.setPtp e f).drm = d.drm := rfl
@[simp] theorem Dev.setPtp_mot (d : Dev) (e : Nat) (f : PtpPort → PtpPort) : (d.setPtp e f).mot = d.mot := rfl
@[simp] theorem Dev.setPtp_srv (d : Dev) (e : Nat) (f : PtpPort → PtpPort) : (d.setPtp e f).srv = d.srv := rfl
@[simp] theorem Dev.setPtp_trm (d : Dev) (e : Nat) (f : PtpPort → PtpPort) : (d.setPtp e f).trm = d.trm := rfl
@[simp] theorem Dev.setPtp_tap (d : Dev) (e : Nat) (f : PtpPort → PtpPort) : (d.setPtp e f).tap = d.tap := rfl

@[simp] theorem Dev.setQuad_regs (d : Dev) (n : Nat) (f : Quad → Quad) : (d.setQuad n f).regs = d.regs := rfl
@[simp] theorem Dev.setQuad_regsOpen (d : Dev) (n : Nat) (f : Quad → Quad) : (d.setQuad n f).regsOpen = d.regsOpen := rfl
@[simp] theorem Dev.setQuad_snapD (d : Dev) (n : Nat) (f : Quad → Quad) : (d.setQuad n f).snapD = d.snapD := rfl
@[simp] theorem Dev.setQuad_mem (d : Dev) (n : Nat) (f : Quad → Quad) : (d.setQuad n f).mem = d.mem := rfl
@[simp] theorem Dev.setQuad_ue (d : Dev) (n : Nat) (f : Quad → Quad) : (d.setQuad n f).ue = d.ue := rfl
@[simp] theorem Dev.setQuad_out (d : Dev) (n : Nat) (f : Quad → Quad) : (d.setQuad n f).out = d.out := rfl
@[simp] theorem Dev.setQuad_raised (d : Dev) (n : Nat) (f : Quad → Quad) : (d.setQuad n f).raised = d.raised := rfl
@[simp] theorem Dev.setQuad_tallies (d : Dev) (n : Nat) (f : Quad → Quad) : (d.setQuad n f).tallies = d.tallies := rfl
@[simp] theorem Dev.setQuad_onceKeys (d : Dev) (n : Nat) (f : Quad → Quad) : (d.setQuad n f).onceKeys = d.onceKeys := rfl
@[simp] theorem Dev.setQuad_freeCtr (d : Dev) (n : Nat) (f : Quad → Quad) : (d.setQuad n f).freeCtr = d.freeCtr := rfl
@[simp] theorem Dev.setQuad_bus (d : Dev) (n : Nat) (f : Quad → Quad) : (d.setQuad n f).bus = d.bus := rfl
@[simp] theorem Dev.setQuad_sys (d : Dev) (n : Nat) (f : Quad → Quad) : (d.setQuad n f).sys = d.sys := rfl
@[simp] theorem Dev.setQuad_pat (d : Dev) (n : Nat) (f : Quad → Quad) : (d.setQuad n f).pat = d.pat := rfl
@[simp] theorem Dev.setQuad_tmb (d : Dev) (n : Nat) (f : Quad → Quad) : (d.setQuad n f).tmb = d.tmb := rfl
@[simp] theorem Dev.setQuad_web (d : Dev) (n : Nat) (f : Quad → Quad) : (d.setQuad n f).web = { d.web with quads := d.web.quads.modify n f } := rfl
@[simp] theorem Dev.setQuad_cdc (d : Dev) (n : Nat) (f : Quad → Quad) : (d.setQuad n f).cdc = d.cdc := rfl
@[simp] theorem Dev.setQuad_las (d : Dev) (n : Nat) (f : Quad → Quad) : (d.setQuad n f).las = d.las := rfl
@[simp] theorem Dev.setQuad_pace (d : Dev) (n : Nat) (f : Quad → Quad) : (d.setQuad n f).pace = d.pace := rfl
@[simp] theorem Dev.setQuad_hst (d : Dev) (n : Nat) (f : Quad → Quad) : (d.setQuad n f).hst = d.hst := rfl
@[simp] theorem Dev.setQuad_vlt (d : Dev) (n : Nat) (f : Quad → Quad) : (d.setQuad n f).vlt = d.vlt := rfl
@[simp] theorem Dev.setQuad_hl (d : Dev) (n : Nat) (f : Quad → Quad) : (d.setQuad n f).hl = d.hl := rfl
@[simp] theorem Dev.setQuad_unauth (d : Dev) (n : Nat) (f : Quad → Quad) : (d.setQuad n f).unauth = d.unauth := rfl
@[simp] theorem Dev.setQuad_ins (d : Dev) (n : Nat) (f : Quad → Quad) : (d.setQuad n f).ins = d.ins := rfl
@[simp] theorem Dev.setQuad_nzh (d : Dev) (n : Nat) (f : Quad → Quad) : (d.setQuad n f).nzh = d.nzh := rfl
@[simp] theorem Dev.setQuad_drm (d : Dev) (n : Nat) (f : Quad → Quad) : (d.setQuad n f).drm = d.drm := rfl
@[simp] theorem Dev.setQuad_mot (d : Dev) (n : Nat) (f : Quad → Quad) : (d.setQuad n f).mot = d.mot := rfl
@[simp] theorem Dev.setQuad_srv (d : Dev) (n : Nat) (f : Quad → Quad) : (d.setQuad n f).srv = d.srv := rfl
@[simp] theorem Dev.setQuad_trm (d : Dev) (n : Nat) (f : Quad → Quad) : (d.setQuad n f).trm = d.trm := rfl
@[simp] theorem Dev.setQuad_tap (d : Dev) (n : Nat) (f : Quad → Quad) : (d.setQuad n f).tap = d.tap := rfl

@[simp] theorem Dev.setEnc_regs (d : Dev) (n : Nat) (f : EncJob → EncJob) : (d.setEnc n f).regs = d.regs := rfl
@[simp] theorem Dev.setEnc_regsOpen (d : Dev) (n : Nat) (f : EncJob → EncJob) : (d.setEnc n f).regsOpen = d.regsOpen := rfl
@[simp] theorem Dev.setEnc_snapD (d : Dev) (n : Nat) (f : EncJob → EncJob) : (d.setEnc n f).snapD = d.snapD := rfl
@[simp] theorem Dev.setEnc_mem (d : Dev) (n : Nat) (f : EncJob → EncJob) : (d.setEnc n f).mem = d.mem := rfl
@[simp] theorem Dev.setEnc_ue (d : Dev) (n : Nat) (f : EncJob → EncJob) : (d.setEnc n f).ue = d.ue := rfl
@[simp] theorem Dev.setEnc_out (d : Dev) (n : Nat) (f : EncJob → EncJob) : (d.setEnc n f).out = d.out := rfl
@[simp] theorem Dev.setEnc_raised (d : Dev) (n : Nat) (f : EncJob → EncJob) : (d.setEnc n f).raised = d.raised := rfl
@[simp] theorem Dev.setEnc_tallies (d : Dev) (n : Nat) (f : EncJob → EncJob) : (d.setEnc n f).tallies = d.tallies := rfl
@[simp] theorem Dev.setEnc_onceKeys (d : Dev) (n : Nat) (f : EncJob → EncJob) : (d.setEnc n f).onceKeys = d.onceKeys := rfl
@[simp] theorem Dev.setEnc_freeCtr (d : Dev) (n : Nat) (f : EncJob → EncJob) : (d.setEnc n f).freeCtr = d.freeCtr := rfl
@[simp] theorem Dev.setEnc_bus (d : Dev) (n : Nat) (f : EncJob → EncJob) : (d.setEnc n f).bus = d.bus := rfl
@[simp] theorem Dev.setEnc_sys (d : Dev) (n : Nat) (f : EncJob → EncJob) : (d.setEnc n f).sys = d.sys := rfl
@[simp] theorem Dev.setEnc_pat (d : Dev) (n : Nat) (f : EncJob → EncJob) : (d.setEnc n f).pat = d.pat := rfl
@[simp] theorem Dev.setEnc_tmb (d : Dev) (n : Nat) (f : EncJob → EncJob) : (d.setEnc n f).tmb = d.tmb := rfl
@[simp] theorem Dev.setEnc_web (d : Dev) (n : Nat) (f : EncJob → EncJob) : (d.setEnc n f).web = d.web := rfl
@[simp] theorem Dev.setEnc_cdc (d : Dev) (n : Nat) (f : EncJob → EncJob) : (d.setEnc n f).cdc = { d.cdc with enc := d.cdc.enc.modify n f } := rfl
@[simp] theorem Dev.setEnc_las (d : Dev) (n : Nat) (f : EncJob → EncJob) : (d.setEnc n f).las = d.las := rfl
@[simp] theorem Dev.setEnc_pace (d : Dev) (n : Nat) (f : EncJob → EncJob) : (d.setEnc n f).pace = d.pace := rfl
@[simp] theorem Dev.setEnc_hst (d : Dev) (n : Nat) (f : EncJob → EncJob) : (d.setEnc n f).hst = d.hst := rfl
@[simp] theorem Dev.setEnc_vlt (d : Dev) (n : Nat) (f : EncJob → EncJob) : (d.setEnc n f).vlt = d.vlt := rfl
@[simp] theorem Dev.setEnc_hl (d : Dev) (n : Nat) (f : EncJob → EncJob) : (d.setEnc n f).hl = d.hl := rfl
@[simp] theorem Dev.setEnc_unauth (d : Dev) (n : Nat) (f : EncJob → EncJob) : (d.setEnc n f).unauth = d.unauth := rfl
@[simp] theorem Dev.setEnc_ins (d : Dev) (n : Nat) (f : EncJob → EncJob) : (d.setEnc n f).ins = d.ins := rfl
@[simp] theorem Dev.setEnc_nzh (d : Dev) (n : Nat) (f : EncJob → EncJob) : (d.setEnc n f).nzh = d.nzh := rfl
@[simp] theorem Dev.setEnc_drm (d : Dev) (n : Nat) (f : EncJob → EncJob) : (d.setEnc n f).drm = d.drm := rfl
@[simp] theorem Dev.setEnc_mot (d : Dev) (n : Nat) (f : EncJob → EncJob) : (d.setEnc n f).mot = d.mot := rfl
@[simp] theorem Dev.setEnc_srv (d : Dev) (n : Nat) (f : EncJob → EncJob) : (d.setEnc n f).srv = d.srv := rfl
@[simp] theorem Dev.setEnc_trm (d : Dev) (n : Nat) (f : EncJob → EncJob) : (d.setEnc n f).trm = d.trm := rfl
@[simp] theorem Dev.setEnc_tap (d : Dev) (n : Nat) (f : EncJob → EncJob) : (d.setEnc n f).tap = d.tap := rfl

@[simp] theorem Dev.mapPages_regs (d : Dev) (f : Page → Page) : (d.mapPages f).regs = d.regs := rfl
@[simp] theorem Dev.mapPages_regsOpen (d : Dev) (f : Page → Page) : (d.mapPages f).regsOpen = d.regsOpen := rfl
@[simp] theorem Dev.mapPages_snapD (d : Dev) (f : Page → Page) : (d.mapPages f).snapD = d.snapD := rfl
@[simp] theorem Dev.mapPages_mem (d : Dev) (f : Page → Page) : (d.mapPages f).mem = d.mem := rfl
@[simp] theorem Dev.mapPages_ue (d : Dev) (f : Page → Page) : (d.mapPages f).ue = d.ue := rfl
@[simp] theorem Dev.mapPages_out (d : Dev) (f : Page → Page) : (d.mapPages f).out = d.out := rfl
@[simp] theorem Dev.mapPages_raised (d : Dev) (f : Page → Page) : (d.mapPages f).raised = d.raised := rfl
@[simp] theorem Dev.mapPages_tallies (d : Dev) (f : Page → Page) : (d.mapPages f).tallies = d.tallies := rfl
@[simp] theorem Dev.mapPages_onceKeys (d : Dev) (f : Page → Page) : (d.mapPages f).onceKeys = d.onceKeys := rfl
@[simp] theorem Dev.mapPages_freeCtr (d : Dev) (f : Page → Page) : (d.mapPages f).freeCtr = d.freeCtr := rfl
@[simp] theorem Dev.mapPages_bus (d : Dev) (f : Page → Page) : (d.mapPages f).bus = d.bus := rfl
@[simp] theorem Dev.mapPages_sys (d : Dev) (f : Page → Page) : (d.mapPages f).sys = d.sys := rfl
@[simp] theorem Dev.mapPages_pat (d : Dev) (f : Page → Page) : (d.mapPages f).pat = d.pat := rfl
@[simp] theorem Dev.mapPages_tmb (d : Dev) (f : Page → Page) : (d.mapPages f).tmb = d.tmb := rfl
@[simp] theorem Dev.mapPages_web (d : Dev) (f : Page → Page) : (d.mapPages f).web = d.web := rfl
@[simp] theorem Dev.mapPages_cdc (d : Dev) (f : Page → Page) : (d.mapPages f).cdc = { d.cdc with pages := d.cdc.pages.map f } := rfl
@[simp] theorem Dev.mapPages_las (d : Dev) (f : Page → Page) : (d.mapPages f).las = d.las := rfl
@[simp] theorem Dev.mapPages_pace (d : Dev) (f : Page → Page) : (d.mapPages f).pace = d.pace := rfl
@[simp] theorem Dev.mapPages_hst (d : Dev) (f : Page → Page) : (d.mapPages f).hst = d.hst := rfl
@[simp] theorem Dev.mapPages_vlt (d : Dev) (f : Page → Page) : (d.mapPages f).vlt = d.vlt := rfl
@[simp] theorem Dev.mapPages_hl (d : Dev) (f : Page → Page) : (d.mapPages f).hl = d.hl := rfl
@[simp] theorem Dev.mapPages_unauth (d : Dev) (f : Page → Page) : (d.mapPages f).unauth = d.unauth := rfl
@[simp] theorem Dev.mapPages_ins (d : Dev) (f : Page → Page) : (d.mapPages f).ins = d.ins := rfl
@[simp] theorem Dev.mapPages_nzh (d : Dev) (f : Page → Page) : (d.mapPages f).nzh = d.nzh := rfl
@[simp] theorem Dev.mapPages_drm (d : Dev) (f : Page → Page) : (d.mapPages f).drm = d.drm := rfl
@[simp] theorem Dev.mapPages_mot (d : Dev) (f : Page → Page) : (d.mapPages f).mot = d.mot := rfl
@[simp] theorem Dev.mapPages_srv (d : Dev) (f : Page → Page) : (d.mapPages f).srv = d.srv := rfl
@[simp] theorem Dev.mapPages_trm (d : Dev) (f : Page → Page) : (d.mapPages f).trm = d.trm := rfl
@[simp] theorem Dev.mapPages_tap (d : Dev) (f : Page → Page) : (d.mapPages f).tap = d.tap := rfl

@[simp] theorem Dev.mapBufs_regs (d : Dev) (f : Buf → Buf) : (d.mapBufs f).regs = d.regs := rfl
@[simp] theorem Dev.mapBufs_regsOpen (d : Dev) (f : Buf → Buf) : (d.mapBufs f).regsOpen = d.regsOpen := rfl
@[simp] theorem Dev.mapBufs_snapD (d : Dev) (f : Buf → Buf) : (d.mapBufs f).snapD = d.snapD := rfl
@[simp] theorem Dev.mapBufs_mem (d : Dev) (f : Buf → Buf) : (d.mapBufs f).mem = d.mem := rfl
@[simp] theorem Dev.mapBufs_ue (d : Dev) (f : Buf → Buf) : (d.mapBufs f).ue = d.ue := rfl
@[simp] theorem Dev.mapBufs_out (d : Dev) (f : Buf → Buf) : (d.mapBufs f).out = d.out := rfl
@[simp] theorem Dev.mapBufs_raised (d : Dev) (f : Buf → Buf) : (d.mapBufs f).raised = d.raised := rfl
@[simp] theorem Dev.mapBufs_tallies (d : Dev) (f : Buf → Buf) : (d.mapBufs f).tallies = d.tallies := rfl
@[simp] theorem Dev.mapBufs_onceKeys (d : Dev) (f : Buf → Buf) : (d.mapBufs f).onceKeys = d.onceKeys := rfl
@[simp] theorem Dev.mapBufs_freeCtr (d : Dev) (f : Buf → Buf) : (d.mapBufs f).freeCtr = d.freeCtr := rfl
@[simp] theorem Dev.mapBufs_bus (d : Dev) (f : Buf → Buf) : (d.mapBufs f).bus = d.bus := rfl
@[simp] theorem Dev.mapBufs_sys (d : Dev) (f : Buf → Buf) : (d.mapBufs f).sys = d.sys := rfl
@[simp] theorem Dev.mapBufs_pat (d : Dev) (f : Buf → Buf) : (d.mapBufs f).pat = d.pat := rfl
@[simp] theorem Dev.mapBufs_tmb (d : Dev) (f : Buf → Buf) : (d.mapBufs f).tmb = d.tmb := rfl
@[simp] theorem Dev.mapBufs_web (d : Dev) (f : Buf → Buf) : (d.mapBufs f).web = d.web := rfl
@[simp] theorem Dev.mapBufs_cdc (d : Dev) (f : Buf → Buf) : (d.mapBufs f).cdc = { d.cdc with bufs := d.cdc.bufs.map f } := rfl
@[simp] theorem Dev.mapBufs_las (d : Dev) (f : Buf → Buf) : (d.mapBufs f).las = d.las := rfl
@[simp] theorem Dev.mapBufs_pace (d : Dev) (f : Buf → Buf) : (d.mapBufs f).pace = d.pace := rfl
@[simp] theorem Dev.mapBufs_hst (d : Dev) (f : Buf → Buf) : (d.mapBufs f).hst = d.hst := rfl
@[simp] theorem Dev.mapBufs_vlt (d : Dev) (f : Buf → Buf) : (d.mapBufs f).vlt = d.vlt := rfl
@[simp] theorem Dev.mapBufs_hl (d : Dev) (f : Buf → Buf) : (d.mapBufs f).hl = d.hl := rfl
@[simp] theorem Dev.mapBufs_unauth (d : Dev) (f : Buf → Buf) : (d.mapBufs f).unauth = d.unauth := rfl
@[simp] theorem Dev.mapBufs_ins (d : Dev) (f : Buf → Buf) : (d.mapBufs f).ins = d.ins := rfl
@[simp] theorem Dev.mapBufs_nzh (d : Dev) (f : Buf → Buf) : (d.mapBufs f).nzh = d.nzh := rfl
@[simp] theorem Dev.mapBufs_drm (d : Dev) (f : Buf → Buf) : (d.mapBufs f).drm = d.drm := rfl
@[simp] theorem Dev.mapBufs_mot (d : Dev) (f : Buf → Buf) : (d.mapBufs f).mot = d.mot := rfl
@[simp] theorem Dev.mapBufs_srv (d : Dev) (f : Buf → Buf) : (d.mapBufs f).srv = d.srv := rfl
@[simp] theorem Dev.mapBufs_trm (d : Dev) (f : Buf → Buf) : (d.mapBufs f).trm = d.trm := rfl
@[simp] theorem Dev.mapBufs_tap (d : Dev) (f : Buf → Buf) : (d.mapBufs f).tap = d.tap := rfl

@[simp] theorem Dev.mapSwitches_regs (d : Dev) (f : List Switch → List Switch) : (d.mapSwitches f).regs = d.regs := rfl
@[simp] theorem Dev.mapSwitches_regsOpen (d : Dev) (f : List Switch → List Switch) : (d.mapSwitches f).regsOpen = d.regsOpen := rfl
@[simp] theorem Dev.mapSwitches_snapD (d : Dev) (f : List Switch → List Switch) : (d.mapSwitches f).snapD = d.snapD := rfl
@[simp] theorem Dev.mapSwitches_mem (d : Dev) (f : List Switch → List Switch) : (d.mapSwitches f).mem = d.mem := rfl
@[simp] theorem Dev.mapSwitches_ue (d : Dev) (f : List Switch → List Switch) : (d.mapSwitches f).ue = d.ue := rfl
@[simp] theorem Dev.mapSwitches_out (d : Dev) (f : List Switch → List Switch) : (d.mapSwitches f).out = d.out := rfl
@[simp] theorem Dev.mapSwitches_raised (d : Dev) (f : List Switch → List Switch) : (d.mapSwitches f).raised = d.raised := rfl
@[simp] theorem Dev.mapSwitches_tallies (d : Dev) (f : List Switch → List Switch) : (d.mapSwitches f).tallies = d.tallies := rfl
@[simp] theorem Dev.mapSwitches_onceKeys (d : Dev) (f : List Switch → List Switch) : (d.mapSwitches f).onceKeys = d.onceKeys := rfl
@[simp] theorem Dev.mapSwitches_freeCtr (d : Dev) (f : List Switch → List Switch) : (d.mapSwitches f).freeCtr = d.freeCtr := rfl
@[simp] theorem Dev.mapSwitches_bus (d : Dev) (f : List Switch → List Switch) : (d.mapSwitches f).bus = d.bus := rfl
@[simp] theorem Dev.mapSwitches_sys (d : Dev) (f : List Switch → List Switch) : (d.mapSwitches f).sys = d.sys := rfl
@[simp] theorem Dev.mapSwitches_pat (d : Dev) (f : List Switch → List Switch) : (d.mapSwitches f).pat = d.pat := rfl
@[simp] theorem Dev.mapSwitches_tmb (d : Dev) (f : List Switch → List Switch) : (d.mapSwitches f).tmb = d.tmb := rfl
@[simp] theorem Dev.mapSwitches_web (d : Dev) (f : List Switch → List Switch) : (d.mapSwitches f).web = d.web := rfl
@[simp] theorem Dev.mapSwitches_cdc (d : Dev) (f : List Switch → List Switch) : (d.mapSwitches f).cdc = d.cdc := rfl
@[simp] theorem Dev.mapSwitches_las (d : Dev) (f : List Switch → List Switch) : (d.mapSwitches f).las = { d.las with switches := f d.las.switches } := rfl
@[simp] theorem Dev.mapSwitches_pace (d : Dev) (f : List Switch → List Switch) : (d.mapSwitches f).pace = d.pace := rfl
@[simp] theorem Dev.mapSwitches_hst (d : Dev) (f : List Switch → List Switch) : (d.mapSwitches f).hst = d.hst := rfl
@[simp] theorem Dev.mapSwitches_vlt (d : Dev) (f : List Switch → List Switch) : (d.mapSwitches f).vlt = d.vlt := rfl
@[simp] theorem Dev.mapSwitches_hl (d : Dev) (f : List Switch → List Switch) : (d.mapSwitches f).hl = d.hl := rfl
@[simp] theorem Dev.mapSwitches_unauth (d : Dev) (f : List Switch → List Switch) : (d.mapSwitches f).unauth = d.unauth := rfl
@[simp] theorem Dev.mapSwitches_ins (d : Dev) (f : List Switch → List Switch) : (d.mapSwitches f).ins = d.ins := rfl
@[simp] theorem Dev.mapSwitches_nzh (d : Dev) (f : List Switch → List Switch) : (d.mapSwitches f).nzh = d.nzh := rfl
@[simp] theorem Dev.mapSwitches_drm (d : Dev) (f : List Switch → List Switch) : (d.mapSwitches f).drm = d.drm := rfl
@[simp] theorem Dev.mapSwitches_mot (d : Dev) (f : List Switch → List Switch) : (d.mapSwitches f).mot = d.mot := rfl
@[simp] theorem Dev.mapSwitches_srv (d : Dev) (f : List Switch → List Switch) : (d.mapSwitches f).srv = d.srv := rfl
@[simp] theorem Dev.mapSwitches_trm (d : Dev) (f : List Switch → List Switch) : (d.mapSwitches f).trm = d.trm := rfl
@[simp] theorem Dev.mapSwitches_tap (d : Dev) (f : List Switch → List Switch) : (d.mapSwitches f).tap = d.tap := rfl

@[simp] theorem Dev.mapSlices_regs (d : Dev) (f : Slice → Slice) : (d.mapSlices f).regs = d.regs := rfl
@[simp] theorem Dev.mapSlices_regsOpen (d : Dev) (f : Slice → Slice) : (d.mapSlices f).regsOpen = d.regsOpen := rfl
@[simp] theorem Dev.mapSlices_snapD (d : Dev) (f : Slice → Slice) : (d.mapSlices f).snapD = d.snapD := rfl
@[simp] theorem Dev.mapSlices_mem (d : Dev) (f : Slice → Slice) : (d.mapSlices f).mem = d.mem := rfl
@[simp] theorem Dev.mapSlices_ue (d : Dev) (f : Slice → Slice) : (d.mapSlices f).ue = d.ue := rfl
@[simp] theorem Dev.mapSlices_out (d : Dev) (f : Slice → Slice) : (d.mapSlices f).out = d.out := rfl
@[simp] theorem Dev.mapSlices_raised (d : Dev) (f : Slice → Slice) : (d.mapSlices f).raised = d.raised := rfl
@[simp] theorem Dev.mapSlices_tallies (d : Dev) (f : Slice → Slice) : (d.mapSlices f).tallies = d.tallies := rfl
@[simp] theorem Dev.mapSlices_onceKeys (d : Dev) (f : Slice → Slice) : (d.mapSlices f).onceKeys = d.onceKeys := rfl
@[simp] theorem Dev.mapSlices_freeCtr (d : Dev) (f : Slice → Slice) : (d.mapSlices f).freeCtr = d.freeCtr := rfl
@[simp] theorem Dev.mapSlices_bus (d : Dev) (f : Slice → Slice) : (d.mapSlices f).bus = d.bus := rfl
@[simp] theorem Dev.mapSlices_sys (d : Dev) (f : Slice → Slice) : (d.mapSlices f).sys = d.sys := rfl
@[simp] theorem Dev.mapSlices_pat (d : Dev) (f : Slice → Slice) : (d.mapSlices f).pat = d.pat := rfl
@[simp] theorem Dev.mapSlices_tmb (d : Dev) (f : Slice → Slice) : (d.mapSlices f).tmb = d.tmb := rfl
@[simp] theorem Dev.mapSlices_web (d : Dev) (f : Slice → Slice) : (d.mapSlices f).web = d.web := rfl
@[simp] theorem Dev.mapSlices_cdc (d : Dev) (f : Slice → Slice) : (d.mapSlices f).cdc = d.cdc := rfl
@[simp] theorem Dev.mapSlices_las (d : Dev) (f : Slice → Slice) : (d.mapSlices f).las = { d.las with slices := d.las.slices.map f } := rfl
@[simp] theorem Dev.mapSlices_pace (d : Dev) (f : Slice → Slice) : (d.mapSlices f).pace = d.pace := rfl
@[simp] theorem Dev.mapSlices_hst (d : Dev) (f : Slice → Slice) : (d.mapSlices f).hst = d.hst := rfl
@[simp] theorem Dev.mapSlices_vlt (d : Dev) (f : Slice → Slice) : (d.mapSlices f).vlt = d.vlt := rfl
@[simp] theorem Dev.mapSlices_hl (d : Dev) (f : Slice → Slice) : (d.mapSlices f).hl = d.hl := rfl
@[simp] theorem Dev.mapSlices_unauth (d : Dev) (f : Slice → Slice) : (d.mapSlices f).unauth = d.unauth := rfl
@[simp] theorem Dev.mapSlices_ins (d : Dev) (f : Slice → Slice) : (d.mapSlices f).ins = d.ins := rfl
@[simp] theorem Dev.mapSlices_nzh (d : Dev) (f : Slice → Slice) : (d.mapSlices f).nzh = d.nzh := rfl
@[simp] theorem Dev.mapSlices_drm (d : Dev) (f : Slice → Slice) : (d.mapSlices f).drm = d.drm := rfl
@[simp] theorem Dev.mapSlices_mot (d : Dev) (f : Slice → Slice) : (d.mapSlices f).mot = d.mot := rfl
@[simp] theorem Dev.mapSlices_srv (d : Dev) (f : Slice → Slice) : (d.mapSlices f).srv = d.srv := rfl
@[simp] theorem Dev.mapSlices_trm (d : Dev) (f : Slice → Slice) : (d.mapSlices f).trm = d.trm := rfl
@[simp] theorem Dev.mapSlices_tap (d : Dev) (f : Slice → Slice) : (d.mapSlices f).tap = d.tap := rfl

@[simp] theorem Dev.setTemp_regs (d : Dev) (h : Nat) (f : HeadTemp → HeadTemp) : (d.setTemp h f).regs = d.regs := rfl
@[simp] theorem Dev.setTemp_regsOpen (d : Dev) (h : Nat) (f : HeadTemp → HeadTemp) : (d.setTemp h f).regsOpen = d.regsOpen := rfl
@[simp] theorem Dev.setTemp_snapD (d : Dev) (h : Nat) (f : HeadTemp → HeadTemp) : (d.setTemp h f).snapD = d.snapD := rfl
@[simp] theorem Dev.setTemp_mem (d : Dev) (h : Nat) (f : HeadTemp → HeadTemp) : (d.setTemp h f).mem = d.mem := rfl
@[simp] theorem Dev.setTemp_ue (d : Dev) (h : Nat) (f : HeadTemp → HeadTemp) : (d.setTemp h f).ue = d.ue := rfl
@[simp] theorem Dev.setTemp_out (d : Dev) (h : Nat) (f : HeadTemp → HeadTemp) : (d.setTemp h f).out = d.out := rfl
@[simp] theorem Dev.setTemp_raised (d : Dev) (h : Nat) (f : HeadTemp → HeadTemp) : (d.setTemp h f).raised = d.raised := rfl
@[simp] theorem Dev.setTemp_tallies (d : Dev) (h : Nat) (f : HeadTemp → HeadTemp) : (d.setTemp h f).tallies = d.tallies := rfl
@[simp] theorem Dev.setTemp_onceKeys (d : Dev) (h : Nat) (f : HeadTemp → HeadTemp) : (d.setTemp h f).onceKeys = d.onceKeys := rfl
@[simp] theorem Dev.setTemp_freeCtr (d : Dev) (h : Nat) (f : HeadTemp → HeadTemp) : (d.setTemp h f).freeCtr = d.freeCtr := rfl
@[simp] theorem Dev.setTemp_bus (d : Dev) (h : Nat) (f : HeadTemp → HeadTemp) : (d.setTemp h f).bus = d.bus := rfl
@[simp] theorem Dev.setTemp_sys (d : Dev) (h : Nat) (f : HeadTemp → HeadTemp) : (d.setTemp h f).sys = d.sys := rfl
@[simp] theorem Dev.setTemp_pat (d : Dev) (h : Nat) (f : HeadTemp → HeadTemp) : (d.setTemp h f).pat = d.pat := rfl
@[simp] theorem Dev.setTemp_tmb (d : Dev) (h : Nat) (f : HeadTemp → HeadTemp) : (d.setTemp h f).tmb = d.tmb := rfl
@[simp] theorem Dev.setTemp_web (d : Dev) (h : Nat) (f : HeadTemp → HeadTemp) : (d.setTemp h f).web = d.web := rfl
@[simp] theorem Dev.setTemp_cdc (d : Dev) (h : Nat) (f : HeadTemp → HeadTemp) : (d.setTemp h f).cdc = d.cdc := rfl
@[simp] theorem Dev.setTemp_las (d : Dev) (h : Nat) (f : HeadTemp → HeadTemp) : (d.setTemp h f).las = d.las := rfl
@[simp] theorem Dev.setTemp_pace (d : Dev) (h : Nat) (f : HeadTemp → HeadTemp) : (d.setTemp h f).pace = { d.pace with temps := d.pace.temps.modify h f } := rfl
@[simp] theorem Dev.setTemp_hst (d : Dev) (h : Nat) (f : HeadTemp → HeadTemp) : (d.setTemp h f).hst = d.hst := rfl
@[simp] theorem Dev.setTemp_vlt (d : Dev) (h : Nat) (f : HeadTemp → HeadTemp) : (d.setTemp h f).vlt = d.vlt := rfl
@[simp] theorem Dev.setTemp_hl (d : Dev) (h : Nat) (f : HeadTemp → HeadTemp) : (d.setTemp h f).hl = d.hl := rfl
@[simp] theorem Dev.setTemp_unauth (d : Dev) (h : Nat) (f : HeadTemp → HeadTemp) : (d.setTemp h f).unauth = d.unauth := rfl
@[simp] theorem Dev.setTemp_ins (d : Dev) (h : Nat) (f : HeadTemp → HeadTemp) : (d.setTemp h f).ins = d.ins := rfl
@[simp] theorem Dev.setTemp_nzh (d : Dev) (h : Nat) (f : HeadTemp → HeadTemp) : (d.setTemp h f).nzh = d.nzh := rfl
@[simp] theorem Dev.setTemp_drm (d : Dev) (h : Nat) (f : HeadTemp → HeadTemp) : (d.setTemp h f).drm = d.drm := rfl
@[simp] theorem Dev.setTemp_mot (d : Dev) (h : Nat) (f : HeadTemp → HeadTemp) : (d.setTemp h f).mot = d.mot := rfl
@[simp] theorem Dev.setTemp_srv (d : Dev) (h : Nat) (f : HeadTemp → HeadTemp) : (d.setTemp h f).srv = d.srv := rfl
@[simp] theorem Dev.setTemp_trm (d : Dev) (h : Nat) (f : HeadTemp → HeadTemp) : (d.setTemp h f).trm = d.trm := rfl
@[simp] theorem Dev.setTemp_tap (d : Dev) (h : Nat) (f : HeadTemp → HeadTemp) : (d.setTemp h f).tap = d.tap := rfl

@[simp] theorem Dev.setLink_regs (d : Dev) (l : Nat) (f : LinkSt → LinkSt) : (d.setLink l f).regs = d.regs := rfl
@[simp] theorem Dev.setLink_regsOpen (d : Dev) (l : Nat) (f : LinkSt → LinkSt) : (d.setLink l f).regsOpen = d.regsOpen := rfl
@[simp] theorem Dev.setLink_snapD (d : Dev) (l : Nat) (f : LinkSt → LinkSt) : (d.setLink l f).snapD = d.snapD := rfl
@[simp] theorem Dev.setLink_mem (d : Dev) (l : Nat) (f : LinkSt → LinkSt) : (d.setLink l f).mem = d.mem := rfl
@[simp] theorem Dev.setLink_ue (d : Dev) (l : Nat) (f : LinkSt → LinkSt) : (d.setLink l f).ue = d.ue := rfl
@[simp] theorem Dev.setLink_out (d : Dev) (l : Nat) (f : LinkSt → LinkSt) : (d.setLink l f).out = d.out := rfl
@[simp] theorem Dev.setLink_raised (d : Dev) (l : Nat) (f : LinkSt → LinkSt) : (d.setLink l f).raised = d.raised := rfl
@[simp] theorem Dev.setLink_tallies (d : Dev) (l : Nat) (f : LinkSt → LinkSt) : (d.setLink l f).tallies = d.tallies := rfl
@[simp] theorem Dev.setLink_onceKeys (d : Dev) (l : Nat) (f : LinkSt → LinkSt) : (d.setLink l f).onceKeys = d.onceKeys := rfl
@[simp] theorem Dev.setLink_freeCtr (d : Dev) (l : Nat) (f : LinkSt → LinkSt) : (d.setLink l f).freeCtr = d.freeCtr := rfl
@[simp] theorem Dev.setLink_bus (d : Dev) (l : Nat) (f : LinkSt → LinkSt) : (d.setLink l f).bus = d.bus := rfl
@[simp] theorem Dev.setLink_sys (d : Dev) (l : Nat) (f : LinkSt → LinkSt) : (d.setLink l f).sys = d.sys := rfl
@[simp] theorem Dev.setLink_pat (d : Dev) (l : Nat) (f : LinkSt → LinkSt) : (d.setLink l f).pat = d.pat := rfl
@[simp] theorem Dev.setLink_tmb (d : Dev) (l : Nat) (f : LinkSt → LinkSt) : (d.setLink l f).tmb = d.tmb := rfl
@[simp] theorem Dev.setLink_web (d : Dev) (l : Nat) (f : LinkSt → LinkSt) : (d.setLink l f).web = d.web := rfl
@[simp] theorem Dev.setLink_cdc (d : Dev) (l : Nat) (f : LinkSt → LinkSt) : (d.setLink l f).cdc = d.cdc := rfl
@[simp] theorem Dev.setLink_las (d : Dev) (l : Nat) (f : LinkSt → LinkSt) : (d.setLink l f).las = d.las := rfl
@[simp] theorem Dev.setLink_pace (d : Dev) (l : Nat) (f : LinkSt → LinkSt) : (d.setLink l f).pace = d.pace := rfl
@[simp] theorem Dev.setLink_hst (d : Dev) (l : Nat) (f : LinkSt → LinkSt) : (d.setLink l f).hst = d.hst := rfl
@[simp] theorem Dev.setLink_vlt (d : Dev) (l : Nat) (f : LinkSt → LinkSt) : (d.setLink l f).vlt = d.vlt := rfl
@[simp] theorem Dev.setLink_hl (d : Dev) (l : Nat) (f : LinkSt → LinkSt) : (d.setLink l f).hl = d.hl.modify l f := rfl
@[simp] theorem Dev.setLink_unauth (d : Dev) (l : Nat) (f : LinkSt → LinkSt) : (d.setLink l f).unauth = d.unauth := rfl
@[simp] theorem Dev.setLink_ins (d : Dev) (l : Nat) (f : LinkSt → LinkSt) : (d.setLink l f).ins = d.ins := rfl
@[simp] theorem Dev.setLink_nzh (d : Dev) (l : Nat) (f : LinkSt → LinkSt) : (d.setLink l f).nzh = d.nzh := rfl
@[simp] theorem Dev.setLink_drm (d : Dev) (l : Nat) (f : LinkSt → LinkSt) : (d.setLink l f).drm = d.drm := rfl
@[simp] theorem Dev.setLink_mot (d : Dev) (l : Nat) (f : LinkSt → LinkSt) : (d.setLink l f).mot = d.mot := rfl
@[simp] theorem Dev.setLink_srv (d : Dev) (l : Nat) (f : LinkSt → LinkSt) : (d.setLink l f).srv = d.srv := rfl
@[simp] theorem Dev.setLink_trm (d : Dev) (l : Nat) (f : LinkSt → LinkSt) : (d.setLink l f).trm = d.trm := rfl
@[simp] theorem Dev.setLink_tap (d : Dev) (l : Nat) (f : LinkSt → LinkSt) : (d.setLink l f).tap = d.tap := rfl

@[simp] theorem Dev.setCam_regs (d : Dev) (c : Nat) (f : Cam → Cam) : (d.setCam c f).regs = d.regs := rfl
@[simp] theorem Dev.setCam_regsOpen (d : Dev) (c : Nat) (f : Cam → Cam) : (d.setCam c f).regsOpen = d.regsOpen := rfl
@[simp] theorem Dev.setCam_snapD (d : Dev) (c : Nat) (f : Cam → Cam) : (d.setCam c f).snapD = d.snapD := rfl
@[simp] theorem Dev.setCam_mem (d : Dev) (c : Nat) (f : Cam → Cam) : (d.setCam c f).mem = d.mem := rfl
@[simp] theorem Dev.setCam_ue (d : Dev) (c : Nat) (f : Cam → Cam) : (d.setCam c f).ue = d.ue := rfl
@[simp] theorem Dev.setCam_out (d : Dev) (c : Nat) (f : Cam → Cam) : (d.setCam c f).out = d.out := rfl
@[simp] theorem Dev.setCam_raised (d : Dev) (c : Nat) (f : Cam → Cam) : (d.setCam c f).raised = d.raised := rfl
@[simp] theorem Dev.setCam_tallies (d : Dev) (c : Nat) (f : Cam → Cam) : (d.setCam c f).tallies = d.tallies := rfl
@[simp] theorem Dev.setCam_onceKeys (d : Dev) (c : Nat) (f : Cam → Cam) : (d.setCam c f).onceKeys = d.onceKeys := rfl
@[simp] theorem Dev.setCam_freeCtr (d : Dev) (c : Nat) (f : Cam → Cam) : (d.setCam c f).freeCtr = d.freeCtr := rfl
@[simp] theorem Dev.setCam_bus (d : Dev) (c : Nat) (f : Cam → Cam) : (d.setCam c f).bus = d.bus := rfl
@[simp] theorem Dev.setCam_sys (d : Dev) (c : Nat) (f : Cam → Cam) : (d.setCam c f).sys = d.sys := rfl
@[simp] theorem Dev.setCam_pat (d : Dev) (c : Nat) (f : Cam → Cam) : (d.setCam c f).pat = d.pat := rfl
@[simp] theorem Dev.setCam_tmb (d : Dev) (c : Nat) (f : Cam → Cam) : (d.setCam c f).tmb = d.tmb := rfl
@[simp] theorem Dev.setCam_web (d : Dev) (c : Nat) (f : Cam → Cam) : (d.setCam c f).web = d.web := rfl
@[simp] theorem Dev.setCam_cdc (d : Dev) (c : Nat) (f : Cam → Cam) : (d.setCam c f).cdc = d.cdc := rfl
@[simp] theorem Dev.setCam_las (d : Dev) (c : Nat) (f : Cam → Cam) : (d.setCam c f).las = d.las := rfl
@[simp] theorem Dev.setCam_pace (d : Dev) (c : Nat) (f : Cam → Cam) : (d.setCam c f).pace = d.pace := rfl
@[simp] theorem Dev.setCam_hst (d : Dev) (c : Nat) (f : Cam → Cam) : (d.setCam c f).hst = d.hst := rfl
@[simp] theorem Dev.setCam_vlt (d : Dev) (c : Nat) (f : Cam → Cam) : (d.setCam c f).vlt = d.vlt := rfl
@[simp] theorem Dev.setCam_hl (d : Dev) (c : Nat) (f : Cam → Cam) : (d.setCam c f).hl = d.hl := rfl
@[simp] theorem Dev.setCam_unauth (d : Dev) (c : Nat) (f : Cam → Cam) : (d.setCam c f).unauth = d.unauth := rfl
@[simp] theorem Dev.setCam_ins (d : Dev) (c : Nat) (f : Cam → Cam) : (d.setCam c f).ins = { d.ins with cams := d.ins.cams.modify c f } := rfl
@[simp] theorem Dev.setCam_nzh (d : Dev) (c : Nat) (f : Cam → Cam) : (d.setCam c f).nzh = d.nzh := rfl
@[simp] theorem Dev.setCam_drm (d : Dev) (c : Nat) (f : Cam → Cam) : (d.setCam c f).drm = d.drm := rfl
@[simp] theorem Dev.setCam_mot (d : Dev) (c : Nat) (f : Cam → Cam) : (d.setCam c f).mot = d.mot := rfl
@[simp] theorem Dev.setCam_srv (d : Dev) (c : Nat) (f : Cam → Cam) : (d.setCam c f).srv = d.srv := rfl
@[simp] theorem Dev.setCam_trm (d : Dev) (c : Nat) (f : Cam → Cam) : (d.setCam c f).trm = d.trm := rfl
@[simp] theorem Dev.setCam_tap (d : Dev) (c : Nat) (f : Cam → Cam) : (d.setCam c f).tap = d.tap := rfl

@[simp] theorem Dev.setI2c_regs (d : Dev) (k : Nat) (j : Option I2cJob) : (d.setI2c k j).regs = d.regs := rfl
@[simp] theorem Dev.setI2c_regsOpen (d : Dev) (k : Nat) (j : Option I2cJob) : (d.setI2c k j).regsOpen = d.regsOpen := rfl
@[simp] theorem Dev.setI2c_snapD (d : Dev) (k : Nat) (j : Option I2cJob) : (d.setI2c k j).snapD = d.snapD := rfl
@[simp] theorem Dev.setI2c_mem (d : Dev) (k : Nat) (j : Option I2cJob) : (d.setI2c k j).mem = d.mem := rfl
@[simp] theorem Dev.setI2c_ue (d : Dev) (k : Nat) (j : Option I2cJob) : (d.setI2c k j).ue = d.ue := rfl
@[simp] theorem Dev.setI2c_out (d : Dev) (k : Nat) (j : Option I2cJob) : (d.setI2c k j).out = d.out := rfl
@[simp] theorem Dev.setI2c_raised (d : Dev) (k : Nat) (j : Option I2cJob) : (d.setI2c k j).raised = d.raised := rfl
@[simp] theorem Dev.setI2c_tallies (d : Dev) (k : Nat) (j : Option I2cJob) : (d.setI2c k j).tallies = d.tallies := rfl
@[simp] theorem Dev.setI2c_onceKeys (d : Dev) (k : Nat) (j : Option I2cJob) : (d.setI2c k j).onceKeys = d.onceKeys := rfl
@[simp] theorem Dev.setI2c_freeCtr (d : Dev) (k : Nat) (j : Option I2cJob) : (d.setI2c k j).freeCtr = d.freeCtr := rfl
@[simp] theorem Dev.setI2c_bus (d : Dev) (k : Nat) (j : Option I2cJob) : (d.setI2c k j).bus = d.bus := rfl
@[simp] theorem Dev.setI2c_sys (d : Dev) (k : Nat) (j : Option I2cJob) : (d.setI2c k j).sys = d.sys := rfl
@[simp] theorem Dev.setI2c_pat (d : Dev) (k : Nat) (j : Option I2cJob) : (d.setI2c k j).pat = d.pat := rfl
@[simp] theorem Dev.setI2c_tmb (d : Dev) (k : Nat) (j : Option I2cJob) : (d.setI2c k j).tmb = d.tmb := rfl
@[simp] theorem Dev.setI2c_web (d : Dev) (k : Nat) (j : Option I2cJob) : (d.setI2c k j).web = d.web := rfl
@[simp] theorem Dev.setI2c_cdc (d : Dev) (k : Nat) (j : Option I2cJob) : (d.setI2c k j).cdc = d.cdc := rfl
@[simp] theorem Dev.setI2c_las (d : Dev) (k : Nat) (j : Option I2cJob) : (d.setI2c k j).las = d.las := rfl
@[simp] theorem Dev.setI2c_pace (d : Dev) (k : Nat) (j : Option I2cJob) : (d.setI2c k j).pace = d.pace := rfl
@[simp] theorem Dev.setI2c_hst (d : Dev) (k : Nat) (j : Option I2cJob) : (d.setI2c k j).hst = d.hst := rfl
@[simp] theorem Dev.setI2c_vlt (d : Dev) (k : Nat) (j : Option I2cJob) : (d.setI2c k j).vlt = d.vlt := rfl
@[simp] theorem Dev.setI2c_hl (d : Dev) (k : Nat) (j : Option I2cJob) : (d.setI2c k j).hl = d.hl := rfl
@[simp] theorem Dev.setI2c_unauth (d : Dev) (k : Nat) (j : Option I2cJob) : (d.setI2c k j).unauth = d.unauth := rfl
@[simp] theorem Dev.setI2c_ins (d : Dev) (k : Nat) (j : Option I2cJob) : (d.setI2c k j).ins = { d.ins with i2c := d.ins.i2c.set k j } := rfl
@[simp] theorem Dev.setI2c_nzh (d : Dev) (k : Nat) (j : Option I2cJob) : (d.setI2c k j).nzh = d.nzh := rfl
@[simp] theorem Dev.setI2c_drm (d : Dev) (k : Nat) (j : Option I2cJob) : (d.setI2c k j).drm = d.drm := rfl
@[simp] theorem Dev.setI2c_mot (d : Dev) (k : Nat) (j : Option I2cJob) : (d.setI2c k j).mot = d.mot := rfl
@[simp] theorem Dev.setI2c_srv (d : Dev) (k : Nat) (j : Option I2cJob) : (d.setI2c k j).srv = d.srv := rfl
@[simp] theorem Dev.setI2c_trm (d : Dev) (k : Nat) (j : Option I2cJob) : (d.setI2c k j).trm = d.trm := rfl
@[simp] theorem Dev.setI2c_tap (d : Dev) (k : Nat) (j : Option I2cJob) : (d.setI2c k j).tap = d.tap := rfl

@[simp] theorem Dev.setArb_regs (d : Dev) (ch : Nat) (f : Arb → Arb) : (d.setArb ch f).regs = d.regs := rfl
@[simp] theorem Dev.setArb_regsOpen (d : Dev) (ch : Nat) (f : Arb → Arb) : (d.setArb ch f).regsOpen = d.regsOpen := rfl
@[simp] theorem Dev.setArb_snapD (d : Dev) (ch : Nat) (f : Arb → Arb) : (d.setArb ch f).snapD = d.snapD := rfl
@[simp] theorem Dev.setArb_mem (d : Dev) (ch : Nat) (f : Arb → Arb) : (d.setArb ch f).mem = d.mem := rfl
@[simp] theorem Dev.setArb_ue (d : Dev) (ch : Nat) (f : Arb → Arb) : (d.setArb ch f).ue = d.ue := rfl
@[simp] theorem Dev.setArb_out (d : Dev) (ch : Nat) (f : Arb → Arb) : (d.setArb ch f).out = d.out := rfl
@[simp] theorem Dev.setArb_raised (d : Dev) (ch : Nat) (f : Arb → Arb) : (d.setArb ch f).raised = d.raised := rfl
@[simp] theorem Dev.setArb_tallies (d : Dev) (ch : Nat) (f : Arb → Arb) : (d.setArb ch f).tallies = d.tallies := rfl
@[simp] theorem Dev.setArb_onceKeys (d : Dev) (ch : Nat) (f : Arb → Arb) : (d.setArb ch f).onceKeys = d.onceKeys := rfl
@[simp] theorem Dev.setArb_freeCtr (d : Dev) (ch : Nat) (f : Arb → Arb) : (d.setArb ch f).freeCtr = d.freeCtr := rfl
@[simp] theorem Dev.setArb_bus (d : Dev) (ch : Nat) (f : Arb → Arb) : (d.setArb ch f).bus = d.bus := rfl
@[simp] theorem Dev.setArb_sys (d : Dev) (ch : Nat) (f : Arb → Arb) : (d.setArb ch f).sys = d.sys := rfl
@[simp] theorem Dev.setArb_pat (d : Dev) (ch : Nat) (f : Arb → Arb) : (d.setArb ch f).pat = d.pat := rfl
@[simp] theorem Dev.setArb_tmb (d : Dev) (ch : Nat) (f : Arb → Arb) : (d.setArb ch f).tmb = d.tmb := rfl
@[simp] theorem Dev.setArb_web (d : Dev) (ch : Nat) (f : Arb → Arb) : (d.setArb ch f).web = d.web := rfl
@[simp] theorem Dev.setArb_cdc (d : Dev) (ch : Nat) (f : Arb → Arb) : (d.setArb ch f).cdc = d.cdc := rfl
@[simp] theorem Dev.setArb_las (d : Dev) (ch : Nat) (f : Arb → Arb) : (d.setArb ch f).las = d.las := rfl
@[simp] theorem Dev.setArb_pace (d : Dev) (ch : Nat) (f : Arb → Arb) : (d.setArb ch f).pace = d.pace := rfl
@[simp] theorem Dev.setArb_hst (d : Dev) (ch : Nat) (f : Arb → Arb) : (d.setArb ch f).hst = d.hst := rfl
@[simp] theorem Dev.setArb_vlt (d : Dev) (ch : Nat) (f : Arb → Arb) : (d.setArb ch f).vlt = d.vlt := rfl
@[simp] theorem Dev.setArb_hl (d : Dev) (ch : Nat) (f : Arb → Arb) : (d.setArb ch f).hl = d.hl := rfl
@[simp] theorem Dev.setArb_unauth (d : Dev) (ch : Nat) (f : Arb → Arb) : (d.setArb ch f).unauth = d.unauth := rfl
@[simp] theorem Dev.setArb_ins (d : Dev) (ch : Nat) (f : Arb → Arb) : (d.setArb ch f).ins = d.ins := rfl
@[simp] theorem Dev.setArb_nzh (d : Dev) (ch : Nat) (f : Arb → Arb) : (d.setArb ch f).nzh = d.nzh := rfl
@[simp] theorem Dev.setArb_drm (d : Dev) (ch : Nat) (f : Arb → Arb) : (d.setArb ch f).drm = { d.drm with arbs := d.drm.arbs.modify ch f } := rfl
@[simp] theorem Dev.setArb_mot (d : Dev) (ch : Nat) (f : Arb → Arb) : (d.setArb ch f).mot = d.mot := rfl
@[simp] theorem Dev.setArb_srv (d : Dev) (ch : Nat) (f : Arb → Arb) : (d.setArb ch f).srv = d.srv := rfl
@[simp] theorem Dev.setArb_trm (d : Dev) (ch : Nat) (f : Arb → Arb) : (d.setArb ch f).trm = d.trm := rfl
@[simp] theorem Dev.setArb_tap (d : Dev) (ch : Nat) (f : Arb → Arb) : (d.setArb ch f).tap = d.tap := rfl

@[simp] theorem Dev.setAxis_regs (d : Dev) (n : Nat) (f : MotAxis → MotAxis) : (d.setAxis n f).regs = d.regs := rfl
@[simp] theorem Dev.setAxis_regsOpen (d : Dev) (n : Nat) (f : MotAxis → MotAxis) : (d.setAxis n f).regsOpen = d.regsOpen := rfl
@[simp] theorem Dev.setAxis_snapD (d : Dev) (n : Nat) (f : MotAxis → MotAxis) : (d.setAxis n f).snapD = d.snapD := rfl
@[simp] theorem Dev.setAxis_mem (d : Dev) (n : Nat) (f : MotAxis → MotAxis) : (d.setAxis n f).mem = d.mem := rfl
@[simp] theorem Dev.setAxis_ue (d : Dev) (n : Nat) (f : MotAxis → MotAxis) : (d.setAxis n f).ue = d.ue := rfl
@[simp] theorem Dev.setAxis_out (d : Dev) (n : Nat) (f : MotAxis → MotAxis) : (d.setAxis n f).out = d.out := rfl
@[simp] theorem Dev.setAxis_raised (d : Dev) (n : Nat) (f : MotAxis → MotAxis) : (d.setAxis n f).raised = d.raised := rfl
@[simp] theorem Dev.setAxis_tallies (d : Dev) (n : Nat) (f : MotAxis → MotAxis) : (d.setAxis n f).tallies = d.tallies := rfl
@[simp] theorem Dev.setAxis_onceKeys (d : Dev) (n : Nat) (f : MotAxis → MotAxis) : (d.setAxis n f).onceKeys = d.onceKeys := rfl
@[simp] theorem Dev.setAxis_freeCtr (d : Dev) (n : Nat) (f : MotAxis → MotAxis) : (d.setAxis n f).freeCtr = d.freeCtr := rfl
@[simp] theorem Dev.setAxis_bus (d : Dev) (n : Nat) (f : MotAxis → MotAxis) : (d.setAxis n f).bus = d.bus := rfl
@[simp] theorem Dev.setAxis_sys (d : Dev) (n : Nat) (f : MotAxis → MotAxis) : (d.setAxis n f).sys = d.sys := rfl
@[simp] theorem Dev.setAxis_pat (d : Dev) (n : Nat) (f : MotAxis → MotAxis) : (d.setAxis n f).pat = d.pat := rfl
@[simp] theorem Dev.setAxis_tmb (d : Dev) (n : Nat) (f : MotAxis → MotAxis) : (d.setAxis n f).tmb = d.tmb := rfl
@[simp] theorem Dev.setAxis_web (d : Dev) (n : Nat) (f : MotAxis → MotAxis) : (d.setAxis n f).web = d.web := rfl
@[simp] theorem Dev.setAxis_cdc (d : Dev) (n : Nat) (f : MotAxis → MotAxis) : (d.setAxis n f).cdc = d.cdc := rfl
@[simp] theorem Dev.setAxis_las (d : Dev) (n : Nat) (f : MotAxis → MotAxis) : (d.setAxis n f).las = d.las := rfl
@[simp] theorem Dev.setAxis_pace (d : Dev) (n : Nat) (f : MotAxis → MotAxis) : (d.setAxis n f).pace = d.pace := rfl
@[simp] theorem Dev.setAxis_hst (d : Dev) (n : Nat) (f : MotAxis → MotAxis) : (d.setAxis n f).hst = d.hst := rfl
@[simp] theorem Dev.setAxis_vlt (d : Dev) (n : Nat) (f : MotAxis → MotAxis) : (d.setAxis n f).vlt = d.vlt := rfl
@[simp] theorem Dev.setAxis_hl (d : Dev) (n : Nat) (f : MotAxis → MotAxis) : (d.setAxis n f).hl = d.hl := rfl
@[simp] theorem Dev.setAxis_unauth (d : Dev) (n : Nat) (f : MotAxis → MotAxis) : (d.setAxis n f).unauth = d.unauth := rfl
@[simp] theorem Dev.setAxis_ins (d : Dev) (n : Nat) (f : MotAxis → MotAxis) : (d.setAxis n f).ins = d.ins := rfl
@[simp] theorem Dev.setAxis_nzh (d : Dev) (n : Nat) (f : MotAxis → MotAxis) : (d.setAxis n f).nzh = d.nzh := rfl
@[simp] theorem Dev.setAxis_drm (d : Dev) (n : Nat) (f : MotAxis → MotAxis) : (d.setAxis n f).drm = d.drm := rfl
@[simp] theorem Dev.setAxis_mot (d : Dev) (n : Nat) (f : MotAxis → MotAxis) : (d.setAxis n f).mot = { d.mot with axes := d.mot.axes.modify n f } := rfl
@[simp] theorem Dev.setAxis_srv (d : Dev) (n : Nat) (f : MotAxis → MotAxis) : (d.setAxis n f).srv = d.srv := rfl
@[simp] theorem Dev.setAxis_trm (d : Dev) (n : Nat) (f : MotAxis → MotAxis) : (d.setAxis n f).trm = d.trm := rfl
@[simp] theorem Dev.setAxis_tap (d : Dev) (n : Nat) (f : MotAxis → MotAxis) : (d.setAxis n f).tap = d.tap := rfl

@[simp] theorem Dev.setSrv_regs (d : Dev) (a : Nat) (f : SrvAxis → SrvAxis) : (d.setSrv a f).regs = d.regs := rfl
@[simp] theorem Dev.setSrv_regsOpen (d : Dev) (a : Nat) (f : SrvAxis → SrvAxis) : (d.setSrv a f).regsOpen = d.regsOpen := rfl
@[simp] theorem Dev.setSrv_snapD (d : Dev) (a : Nat) (f : SrvAxis → SrvAxis) : (d.setSrv a f).snapD = d.snapD := rfl
@[simp] theorem Dev.setSrv_mem (d : Dev) (a : Nat) (f : SrvAxis → SrvAxis) : (d.setSrv a f).mem = d.mem := rfl
@[simp] theorem Dev.setSrv_ue (d : Dev) (a : Nat) (f : SrvAxis → SrvAxis) : (d.setSrv a f).ue = d.ue := rfl
@[simp] theorem Dev.setSrv_out (d : Dev) (a : Nat) (f : SrvAxis → SrvAxis) : (d.setSrv a f).out = d.out := rfl
@[simp] theorem Dev.setSrv_raised (d : Dev) (a : Nat) (f : SrvAxis → SrvAxis) : (d.setSrv a f).raised = d.raised := rfl
@[simp] theorem Dev.setSrv_tallies (d : Dev) (a : Nat) (f : SrvAxis → SrvAxis) : (d.setSrv a f).tallies = d.tallies := rfl
@[simp] theorem Dev.setSrv_onceKeys (d : Dev) (a : Nat) (f : SrvAxis → SrvAxis) : (d.setSrv a f).onceKeys = d.onceKeys := rfl
@[simp] theorem Dev.setSrv_freeCtr (d : Dev) (a : Nat) (f : SrvAxis → SrvAxis) : (d.setSrv a f).freeCtr = d.freeCtr := rfl
@[simp] theorem Dev.setSrv_bus (d : Dev) (a : Nat) (f : SrvAxis → SrvAxis) : (d.setSrv a f).bus = d.bus := rfl
@[simp] theorem Dev.setSrv_sys (d : Dev) (a : Nat) (f : SrvAxis → SrvAxis) : (d.setSrv a f).sys = d.sys := rfl
@[simp] theorem Dev.setSrv_pat (d : Dev) (a : Nat) (f : SrvAxis → SrvAxis) : (d.setSrv a f).pat = d.pat := rfl
@[simp] theorem Dev.setSrv_tmb (d : Dev) (a : Nat) (f : SrvAxis → SrvAxis) : (d.setSrv a f).tmb = d.tmb := rfl
@[simp] theorem Dev.setSrv_web (d : Dev) (a : Nat) (f : SrvAxis → SrvAxis) : (d.setSrv a f).web = d.web := rfl
@[simp] theorem Dev.setSrv_cdc (d : Dev) (a : Nat) (f : SrvAxis → SrvAxis) : (d.setSrv a f).cdc = d.cdc := rfl
@[simp] theorem Dev.setSrv_las (d : Dev) (a : Nat) (f : SrvAxis → SrvAxis) : (d.setSrv a f).las = d.las := rfl
@[simp] theorem Dev.setSrv_pace (d : Dev) (a : Nat) (f : SrvAxis → SrvAxis) : (d.setSrv a f).pace = d.pace := rfl
@[simp] theorem Dev.setSrv_hst (d : Dev) (a : Nat) (f : SrvAxis → SrvAxis) : (d.setSrv a f).hst = d.hst := rfl
@[simp] theorem Dev.setSrv_vlt (d : Dev) (a : Nat) (f : SrvAxis → SrvAxis) : (d.setSrv a f).vlt = d.vlt := rfl
@[simp] theorem Dev.setSrv_hl (d : Dev) (a : Nat) (f : SrvAxis → SrvAxis) : (d.setSrv a f).hl = d.hl := rfl
@[simp] theorem Dev.setSrv_unauth (d : Dev) (a : Nat) (f : SrvAxis → SrvAxis) : (d.setSrv a f).unauth = d.unauth := rfl
@[simp] theorem Dev.setSrv_ins (d : Dev) (a : Nat) (f : SrvAxis → SrvAxis) : (d.setSrv a f).ins = d.ins := rfl
@[simp] theorem Dev.setSrv_nzh (d : Dev) (a : Nat) (f : SrvAxis → SrvAxis) : (d.setSrv a f).nzh = d.nzh := rfl
@[simp] theorem Dev.setSrv_drm (d : Dev) (a : Nat) (f : SrvAxis → SrvAxis) : (d.setSrv a f).drm = d.drm := rfl
@[simp] theorem Dev.setSrv_mot (d : Dev) (a : Nat) (f : SrvAxis → SrvAxis) : (d.setSrv a f).mot = d.mot := rfl
@[simp] theorem Dev.setSrv_srv (d : Dev) (a : Nat) (f : SrvAxis → SrvAxis) : (d.setSrv a f).srv = { d.srv with axes := d.srv.axes.modify a f } := rfl
@[simp] theorem Dev.setSrv_trm (d : Dev) (a : Nat) (f : SrvAxis → SrvAxis) : (d.setSrv a f).trm = d.trm := rfl
@[simp] theorem Dev.setSrv_tap (d : Dev) (a : Nat) (f : SrvAxis → SrvAxis) : (d.setSrv a f).tap = d.tap := rfl

@[simp] theorem Dev.setRam_regs (d : Dev) (off : Nat) (bs : List Byte) : (d.setRam off bs).regs = d.regs := rfl
@[simp] theorem Dev.setRam_regsOpen (d : Dev) (off : Nat) (bs : List Byte) : (d.setRam off bs).regsOpen = d.regsOpen := rfl
@[simp] theorem Dev.setRam_snapD (d : Dev) (off : Nat) (bs : List Byte) : (d.setRam off bs).snapD = d.snapD := rfl
@[simp] theorem Dev.setRam_mem (d : Dev) (off : Nat) (bs : List Byte) : (d.setRam off bs).mem = d.mem := rfl
@[simp] theorem Dev.setRam_ue (d : Dev) (off : Nat) (bs : List Byte) : (d.setRam off bs).ue = d.ue := rfl
@[simp] theorem Dev.setRam_out (d : Dev) (off : Nat) (bs : List Byte) : (d.setRam off bs).out = d.out := rfl
@[simp] theorem Dev.setRam_raised (d : Dev) (off : Nat) (bs : List Byte) : (d.setRam off bs).raised = d.raised := rfl
@[simp] theorem Dev.setRam_tallies (d : Dev) (off : Nat) (bs : List Byte) : (d.setRam off bs).tallies = d.tallies := rfl
@[simp] theorem Dev.setRam_onceKeys (d : Dev) (off : Nat) (bs : List Byte) : (d.setRam off bs).onceKeys = d.onceKeys := rfl
@[simp] theorem Dev.setRam_freeCtr (d : Dev) (off : Nat) (bs : List Byte) : (d.setRam off bs).freeCtr = d.freeCtr := rfl
@[simp] theorem Dev.setRam_bus (d : Dev) (off : Nat) (bs : List Byte) : (d.setRam off bs).bus = d.bus := rfl
@[simp] theorem Dev.setRam_sys (d : Dev) (off : Nat) (bs : List Byte) : (d.setRam off bs).sys = d.sys := rfl
@[simp] theorem Dev.setRam_pat (d : Dev) (off : Nat) (bs : List Byte) : (d.setRam off bs).pat = d.pat := rfl
@[simp] theorem Dev.setRam_tmb (d : Dev) (off : Nat) (bs : List Byte) : (d.setRam off bs).tmb = d.tmb := rfl
@[simp] theorem Dev.setRam_web (d : Dev) (off : Nat) (bs : List Byte) : (d.setRam off bs).web = d.web := rfl
@[simp] theorem Dev.setRam_cdc (d : Dev) (off : Nat) (bs : List Byte) : (d.setRam off bs).cdc = d.cdc := rfl
@[simp] theorem Dev.setRam_las (d : Dev) (off : Nat) (bs : List Byte) : (d.setRam off bs).las = d.las := rfl
@[simp] theorem Dev.setRam_pace (d : Dev) (off : Nat) (bs : List Byte) : (d.setRam off bs).pace = d.pace := rfl
@[simp] theorem Dev.setRam_hst (d : Dev) (off : Nat) (bs : List Byte) : (d.setRam off bs).hst = d.hst := rfl
@[simp] theorem Dev.setRam_vlt (d : Dev) (off : Nat) (bs : List Byte) : (d.setRam off bs).vlt = { d.vlt with ram := storeBytes d.vlt.ram off bs } := rfl
@[simp] theorem Dev.setRam_hl (d : Dev) (off : Nat) (bs : List Byte) : (d.setRam off bs).hl = d.hl := rfl
@[simp] theorem Dev.setRam_unauth (d : Dev) (off : Nat) (bs : List Byte) : (d.setRam off bs).unauth = d.unauth := rfl
@[simp] theorem Dev.setRam_ins (d : Dev) (off : Nat) (bs : List Byte) : (d.setRam off bs).ins = d.ins := rfl
@[simp] theorem Dev.setRam_nzh (d : Dev) (off : Nat) (bs : List Byte) : (d.setRam off bs).nzh = d.nzh := rfl
@[simp] theorem Dev.setRam_drm (d : Dev) (off : Nat) (bs : List Byte) : (d.setRam off bs).drm = d.drm := rfl
@[simp] theorem Dev.setRam_mot (d : Dev) (off : Nat) (bs : List Byte) : (d.setRam off bs).mot = d.mot := rfl
@[simp] theorem Dev.setRam_srv (d : Dev) (off : Nat) (bs : List Byte) : (d.setRam off bs).srv = d.srv := rfl
@[simp] theorem Dev.setRam_trm (d : Dev) (off : Nat) (bs : List Byte) : (d.setRam off bs).trm = d.trm := rfl
@[simp] theorem Dev.setRam_tap (d : Dev) (off : Nat) (bs : List Byte) : (d.setRam off bs).tap = d.tap := rfl

@[simp] theorem Dev.setBind_regs (d : Dev) (f : BindOff → BindOff) : (d.setBind f).regs = d.regs := rfl
@[simp] theorem Dev.setBind_regsOpen (d : Dev) (f : BindOff → BindOff) : (d.setBind f).regsOpen = d.regsOpen := rfl
@[simp] theorem Dev.setBind_snapD (d : Dev) (f : BindOff → BindOff) : (d.setBind f).snapD = d.snapD := rfl
@[simp] theorem Dev.setBind_mem (d : Dev) (f : BindOff → BindOff) : (d.setBind f).mem = d.mem := rfl
@[simp] theorem Dev.setBind_ue (d : Dev) (f : BindOff → BindOff) : (d.setBind f).ue = d.ue := rfl
@[simp] theorem Dev.setBind_out (d : Dev) (f : BindOff → BindOff) : (d.setBind f).out = d.out := rfl
@[simp] theorem Dev.setBind_raised (d : Dev) (f : BindOff → BindOff) : (d.setBind f).raised = d.raised := rfl
@[simp] theorem Dev.setBind_tallies (d : Dev) (f : BindOff → BindOff) : (d.setBind f).tallies = d.tallies := rfl
@[simp] theorem Dev.setBind_onceKeys (d : Dev) (f : BindOff → BindOff) : (d.setBind f).onceKeys = d.onceKeys := rfl
@[simp] theorem Dev.setBind_freeCtr (d : Dev) (f : BindOff → BindOff) : (d.setBind f).freeCtr = d.freeCtr := rfl
@[simp] theorem Dev.setBind_bus (d : Dev) (f : BindOff → BindOff) : (d.setBind f).bus = d.bus := rfl
@[simp] theorem Dev.setBind_sys (d : Dev) (f : BindOff → BindOff) : (d.setBind f).sys = { d.sys with bindOff := d.sys.bindOff.map f } := rfl
@[simp] theorem Dev.setBind_pat (d : Dev) (f : BindOff → BindOff) : (d.setBind f).pat = d.pat := rfl
@[simp] theorem Dev.setBind_tmb (d : Dev) (f : BindOff → BindOff) : (d.setBind f).tmb = d.tmb := rfl
@[simp] theorem Dev.setBind_web (d : Dev) (f : BindOff → BindOff) : (d.setBind f).web = d.web := rfl
@[simp] theorem Dev.setBind_cdc (d : Dev) (f : BindOff → BindOff) : (d.setBind f).cdc = d.cdc := rfl
@[simp] theorem Dev.setBind_las (d : Dev) (f : BindOff → BindOff) : (d.setBind f).las = d.las := rfl
@[simp] theorem Dev.setBind_pace (d : Dev) (f : BindOff → BindOff) : (d.setBind f).pace = d.pace := rfl
@[simp] theorem Dev.setBind_hst (d : Dev) (f : BindOff → BindOff) : (d.setBind f).hst = d.hst := rfl
@[simp] theorem Dev.setBind_vlt (d : Dev) (f : BindOff → BindOff) : (d.setBind f).vlt = d.vlt := rfl
@[simp] theorem Dev.setBind_hl (d : Dev) (f : BindOff → BindOff) : (d.setBind f).hl = d.hl := rfl
@[simp] theorem Dev.setBind_unauth (d : Dev) (f : BindOff → BindOff) : (d.setBind f).unauth = d.unauth := rfl
@[simp] theorem Dev.setBind_ins (d : Dev) (f : BindOff → BindOff) : (d.setBind f).ins = d.ins := rfl
@[simp] theorem Dev.setBind_nzh (d : Dev) (f : BindOff → BindOff) : (d.setBind f).nzh = d.nzh := rfl
@[simp] theorem Dev.setBind_drm (d : Dev) (f : BindOff → BindOff) : (d.setBind f).drm = d.drm := rfl
@[simp] theorem Dev.setBind_mot (d : Dev) (f : BindOff → BindOff) : (d.setBind f).mot = d.mot := rfl
@[simp] theorem Dev.setBind_srv (d : Dev) (f : BindOff → BindOff) : (d.setBind f).srv = d.srv := rfl
@[simp] theorem Dev.setBind_trm (d : Dev) (f : BindOff → BindOff) : (d.setBind f).trm = d.trm := rfl
@[simp] theorem Dev.setBind_tap (d : Dev) (f : BindOff → BindOff) : (d.setBind f).tap = d.tap := rfl

@[simp] theorem Dev.summary_regsOpen (d : Dev) (code : Nat) (pl : List Byte) : (d.summary code pl).regsOpen = d.regsOpen := by unfold Dev.summary; (repeat' split) <;> rfl
@[simp] theorem Dev.summary_snapD (d : Dev) (code : Nat) (pl : List Byte) : (d.summary code pl).snapD = d.snapD := by unfold Dev.summary; (repeat' split) <;> rfl
@[simp] theorem Dev.summary_mem (d : Dev) (code : Nat) (pl : List Byte) : (d.summary code pl).mem = d.mem := by unfold Dev.summary; (repeat' split) <;> rfl
@[simp] theorem Dev.summary_ue (d : Dev) (code : Nat) (pl : List Byte) : (d.summary code pl).ue = d.ue := by unfold Dev.summary; (repeat' split) <;> rfl
@[simp] theorem Dev.summary_out (d : Dev) (code : Nat) (pl : List Byte) : (d.summary code pl).out = d.out := by unfold Dev.summary; (repeat' split) <;> rfl
@[simp] theorem Dev.summary_raised (d : Dev) (code : Nat) (pl : List Byte) : (d.summary code pl).raised = d.raised := by unfold Dev.summary; (repeat' split) <;> rfl
@[simp] theorem Dev.summary_tallies (d : Dev) (code : Nat) (pl : List Byte) : (d.summary code pl).tallies = d.tallies := by unfold Dev.summary; (repeat' split) <;> rfl
@[simp] theorem Dev.summary_onceKeys (d : Dev) (code : Nat) (pl : List Byte) : (d.summary code pl).onceKeys = d.onceKeys := by unfold Dev.summary; (repeat' split) <;> rfl
@[simp] theorem Dev.summary_freeCtr (d : Dev) (code : Nat) (pl : List Byte) : (d.summary code pl).freeCtr = d.freeCtr := by unfold Dev.summary; (repeat' split) <;> rfl
@[simp] theorem Dev.summary_bus (d : Dev) (code : Nat) (pl : List Byte) : (d.summary code pl).bus = d.bus := by unfold Dev.summary; (repeat' split) <;> rfl
@[simp] theorem Dev.summary_sys (d : Dev) (code : Nat) (pl : List Byte) : (d.summary code pl).sys = d.sys := by unfold Dev.summary; (repeat' split) <;> rfl
@[simp] theorem Dev.summary_pat (d : Dev) (code : Nat) (pl : List Byte) : (d.summary code pl).pat = d.pat := by unfold Dev.summary; (repeat' split) <;> rfl
@[simp] theorem Dev.summary_tmb (d : Dev) (code : Nat) (pl : List Byte) : (d.summary code pl).tmb = d.tmb := by unfold Dev.summary; (repeat' split) <;> rfl
@[simp] theorem Dev.summary_web (d : Dev) (code : Nat) (pl : List Byte) : (d.summary code pl).web = d.web := by unfold Dev.summary; (repeat' split) <;> rfl
@[simp] theorem Dev.summary_cdc (d : Dev) (code : Nat) (pl : List Byte) : (d.summary code pl).cdc = d.cdc := by unfold Dev.summary; (repeat' split) <;> rfl
@[simp] theorem Dev.summary_las (d : Dev) (code : Nat) (pl : List Byte) : (d.summary code pl).las = d.las := by unfold Dev.summary; (repeat' split) <;> rfl
@[simp] theorem Dev.summary_pace (d : Dev) (code : Nat) (pl : List Byte) : (d.summary code pl).pace = d.pace := by unfold Dev.summary; (repeat' split) <;> rfl
@[simp] theorem Dev.summary_hst (d : Dev) (code : Nat) (pl : List Byte) : (d.summary code pl).hst = d.hst := by unfold Dev.summary; (repeat' split) <;> rfl
@[simp] theorem Dev.summary_vlt (d : Dev) (code : Nat) (pl : List Byte) : (d.summary code pl).vlt = d.vlt := by unfold Dev.summary; (repeat' split) <;> rfl
@[simp] theorem Dev.summary_hl (d : Dev) (code : Nat) (pl : List Byte) : (d.summary code pl).hl = d.hl := by unfold Dev.summary; (repeat' split) <;> rfl
@[simp] theorem Dev.summary_unauth (d : Dev) (code : Nat) (pl : List Byte) : (d.summary code pl).unauth = d.unauth := by unfold Dev.summary; (repeat' split) <;> rfl
@[simp] theorem Dev.summary_ins (d : Dev) (code : Nat) (pl : List Byte) : (d.summary code pl).ins = d.ins := by unfold Dev.summary; (repeat' split) <;> rfl
@[simp] theorem Dev.summary_nzh (d : Dev) (code : Nat) (pl : List Byte) : (d.summary code pl).nzh = d.nzh := by unfold Dev.summary; (repeat' split) <;> rfl
@[simp] theorem Dev.summary_drm (d : Dev) (code : Nat) (pl : List Byte) : (d.summary code pl).drm = d.drm := by unfold Dev.summary; (repeat' split) <;> rfl
@[simp] theorem Dev.summary_mot (d : Dev) (code : Nat) (pl : List Byte) : (d.summary code pl).mot = d.mot := by unfold Dev.summary; (repeat' split) <;> rfl
@[simp] theorem Dev.summary_srv (d : Dev) (code : Nat) (pl : List Byte) : (d.summary code pl).srv = d.srv := by unfold Dev.summary; (repeat' split) <;> rfl
@[simp] theorem Dev.summary_trm (d : Dev) (code : Nat) (pl : List Byte) : (d.summary code pl).trm = d.trm := by unfold Dev.summary; (repeat' split) <;> rfl
@[simp] theorem Dev.summary_tap (d : Dev) (code : Nat) (pl : List Byte) : (d.summary code pl).tap = d.tap := by unfold Dev.summary; (repeat' split) <;> rfl

@[simp] theorem Dev.raiseAt_regs (d : Dev) (t : Dest) (code beat : Nat) (pl : List (Nat × Nat)) : (d.raiseAt t code beat pl).regs = (d.summary code (pack pl)).regs := by simp [Dev.raiseAt]
@[simp] theorem Dev.raiseAt_regsOpen (d : Dev) (t : Dest) (code beat : Nat) (pl : List (Nat × Nat)) : (d.raiseAt t code beat pl).regsOpen = d.regsOpen := by simp [Dev.raiseAt]
@[simp] theorem Dev.raiseAt_snapD (d : Dev) (t : Dest) (code beat : Nat) (pl : List (Nat × Nat)) : (d.raiseAt t code beat pl).snapD = d.snapD := by simp [Dev.raiseAt]
@[simp] theorem Dev.raiseAt_mem (d : Dev) (t : Dest) (code beat : Nat) (pl : List (Nat × Nat)) : (d.raiseAt t code beat pl).mem = d.mem := by simp [Dev.raiseAt]
@[simp] theorem Dev.raiseAt_ue (d : Dev) (t : Dest) (code beat : Nat) (pl : List (Nat × Nat)) : (d.raiseAt t code beat pl).ue = d.ue := by simp [Dev.raiseAt]
@[simp] theorem Dev.raiseAt_out (d : Dev) (t : Dest) (code beat : Nat) (pl : List (Nat × Nat)) : (d.raiseAt t code beat pl).out = d.out := by simp [Dev.raiseAt]
@[simp] theorem Dev.raiseAt_tallies (d : Dev) (t : Dest) (code beat : Nat) (pl : List (Nat × Nat)) : (d.raiseAt t code beat pl).tallies = d.tallies := by simp [Dev.raiseAt]
@[simp] theorem Dev.raiseAt_onceKeys (d : Dev) (t : Dest) (code beat : Nat) (pl : List (Nat × Nat)) : (d.raiseAt t code beat pl).onceKeys = d.onceKeys := by simp [Dev.raiseAt]
@[simp] theorem Dev.raiseAt_freeCtr (d : Dev) (t : Dest) (code beat : Nat) (pl : List (Nat × Nat)) : (d.raiseAt t code beat pl).freeCtr = d.freeCtr := by simp [Dev.raiseAt]
@[simp] theorem Dev.raiseAt_bus (d : Dev) (t : Dest) (code beat : Nat) (pl : List (Nat × Nat)) : (d.raiseAt t code beat pl).bus = d.bus := by simp [Dev.raiseAt]
@[simp] theorem Dev.raiseAt_sys (d : Dev) (t : Dest) (code beat : Nat) (pl : List (Nat × Nat)) : (d.raiseAt t code beat pl).sys = d.sys := by simp [Dev.raiseAt]
@[simp] theorem Dev.raiseAt_pat (d : Dev) (t : Dest) (code beat : Nat) (pl : List (Nat × Nat)) : (d.raiseAt t code beat pl).pat = d.pat := by simp [Dev.raiseAt]
@[simp] theorem Dev.raiseAt_tmb (d : Dev) (t : Dest) (code beat : Nat) (pl : List (Nat × Nat)) : (d.raiseAt t code beat pl).tmb = d.tmb := by simp [Dev.raiseAt]
@[simp] theorem Dev.raiseAt_web (d : Dev) (t : Dest) (code beat : Nat) (pl : List (Nat × Nat)) : (d.raiseAt t code beat pl).web = d.web := by simp [Dev.raiseAt]
@[simp] theorem Dev.raiseAt_cdc (d : Dev) (t : Dest) (code beat : Nat) (pl : List (Nat × Nat)) : (d.raiseAt t code beat pl).cdc = d.cdc := by simp [Dev.raiseAt]
@[simp] theorem Dev.raiseAt_las (d : Dev) (t : Dest) (code beat : Nat) (pl : List (Nat × Nat)) : (d.raiseAt t code beat pl).las = d.las := by simp [Dev.raiseAt]
@[simp] theorem Dev.raiseAt_pace (d : Dev) (t : Dest) (code beat : Nat) (pl : List (Nat × Nat)) : (d.raiseAt t code beat pl).pace = d.pace := by simp [Dev.raiseAt]
@[simp] theorem Dev.raiseAt_hst (d : Dev) (t : Dest) (code beat : Nat) (pl : List (Nat × Nat)) : (d.raiseAt t code beat pl).hst = d.hst := by simp [Dev.raiseAt]
@[simp] theorem Dev.raiseAt_vlt (d : Dev) (t : Dest) (code beat : Nat) (pl : List (Nat × Nat)) : (d.raiseAt t code beat pl).vlt = d.vlt := by simp [Dev.raiseAt]
@[simp] theorem Dev.raiseAt_hl (d : Dev) (t : Dest) (code beat : Nat) (pl : List (Nat × Nat)) : (d.raiseAt t code beat pl).hl = d.hl := by simp [Dev.raiseAt]
@[simp] theorem Dev.raiseAt_unauth (d : Dev) (t : Dest) (code beat : Nat) (pl : List (Nat × Nat)) : (d.raiseAt t code beat pl).unauth = d.unauth := by simp [Dev.raiseAt]
@[simp] theorem Dev.raiseAt_ins (d : Dev) (t : Dest) (code beat : Nat) (pl : List (Nat × Nat)) : (d.raiseAt t code beat pl).ins = d.ins := by simp [Dev.raiseAt]
@[simp] theorem Dev.raiseAt_nzh (d : Dev) (t : Dest) (code beat : Nat) (pl : List (Nat × Nat)) : (d.raiseAt t code beat pl).nzh = d.nzh := by simp [Dev.raiseAt]
@[simp] theorem Dev.raiseAt_drm (d : Dev) (t : Dest) (code beat : Nat) (pl : List (Nat × Nat)) : (d.raiseAt t code beat pl).drm = d.drm := by simp [Dev.raiseAt]
@[simp] theorem Dev.raiseAt_mot (d : Dev) (t : Dest) (code beat : Nat) (pl : List (Nat × Nat)) : (d.raiseAt t code beat pl).mot = d.mot := by simp [Dev.raiseAt]
@[simp] theorem Dev.raiseAt_srv (d : Dev) (t : Dest) (code beat : Nat) (pl : List (Nat × Nat)) : (d.raiseAt t code beat pl).srv = d.srv := by simp [Dev.raiseAt]
@[simp] theorem Dev.raiseAt_trm (d : Dev) (t : Dest) (code beat : Nat) (pl : List (Nat × Nat)) : (d.raiseAt t code beat pl).trm = d.trm := by simp [Dev.raiseAt]
@[simp] theorem Dev.raiseAt_tap (d : Dev) (t : Dest) (code beat : Nat) (pl : List (Nat × Nat)) : (d.raiseAt t code beat pl).tap = d.tap := by simp [Dev.raiseAt]

@[simp] theorem Dev.raise_regs (d : Dev) (t : Dest) (code : Nat) (pl : List (Nat × Nat)) : (d.raise t code pl).regs = (d.summary code (pack pl)).regs := by simp [Dev.raise]
@[simp] theorem Dev.raise_regsOpen (d : Dev) (t : Dest) (code : Nat) (pl : List (Nat × Nat)) : (d.raise t code pl).regsOpen = d.regsOpen := by simp [Dev.raise]
@[simp] theorem Dev.raise_snapD (d : Dev) (t : Dest) (code : Nat) (pl : List (Nat × Nat)) : (d.raise t code pl).snapD = d.snapD := by simp [Dev.raise]
@[simp] theorem Dev.raise_mem (d : Dev) (t : Dest) (code : Nat) (pl : List (Nat × Nat)) : (d.raise t code pl).mem = d.mem := by simp [Dev.raise]
@[simp] theorem Dev.raise_ue (d : Dev) (t : Dest) (code : Nat) (pl : List (Nat × Nat)) : (d.raise t code pl).ue = d.ue := by simp [Dev.raise]
@[simp] theorem Dev.raise_out (d : Dev) (t : Dest) (code : Nat) (pl : List (Nat × Nat)) : (d.raise t code pl).out = d.out := by simp [Dev.raise]
@[simp] theorem Dev.raise_tallies (d : Dev) (t : Dest) (code : Nat) (pl : List (Nat × Nat)) : (d.raise t code pl).tallies = d.tallies := by simp [Dev.raise]
@[simp] theorem Dev.raise_onceKeys (d : Dev) (t : Dest) (code : Nat) (pl : List (Nat × Nat)) : (d.raise t code pl).onceKeys = d.onceKeys := by simp [Dev.raise]
@[simp] theorem Dev.raise_freeCtr (d : Dev) (t : Dest) (code : Nat) (pl : List (Nat × Nat)) : (d.raise t code pl).freeCtr = d.freeCtr := by simp [Dev.raise]
@[simp] theorem Dev.raise_bus (d : Dev) (t : Dest) (code : Nat) (pl : List (Nat × Nat)) : (d.raise t code pl).bus = d.bus := by simp [Dev.raise]
@[simp] theorem Dev.raise_sys (d : Dev) (t : Dest) (code : Nat) (pl : List (Nat × Nat)) : (d.raise t code pl).sys = d.sys := by simp [Dev.raise]
@[simp] theorem Dev.raise_pat (d : Dev) (t : Dest) (code : Nat) (pl : List (Nat × Nat)) : (d.raise t code pl).pat = d.pat := by simp [Dev.raise]
@[simp] theorem Dev.raise_tmb (d : Dev) (t : Dest) (code : Nat) (pl : List (Nat × Nat)) : (d.raise t code pl).tmb = d.tmb := by simp [Dev.raise]
@[simp] theorem Dev.raise_web (d : Dev) (t : Dest) (code : Nat) (pl : List (Nat × Nat)) : (d.raise t code pl).web = d.web := by simp [Dev.raise]
@[simp] theorem Dev.raise_cdc (d : Dev) (t : Dest) (code : Nat) (pl : List (Nat × Nat)) : (d.raise t code pl).cdc = d.cdc := by simp [Dev.raise]
@[simp] theorem Dev.raise_las (d : Dev) (t : Dest) (code : Nat) (pl : List (Nat × Nat)) : (d.raise t code pl).las = d.las := by simp [Dev.raise]
@[simp] theorem Dev.raise_pace (d : Dev) (t : Dest) (code : Nat) (pl : List (Nat × Nat)) : (d.raise t code pl).pace = d.pace := by simp [Dev.raise]
@[simp] theorem Dev.raise_hst (d : Dev) (t : Dest) (code : Nat) (pl : List (Nat × Nat)) : (d.raise t code pl).hst = d.hst := by simp [Dev.raise]
@[simp] theorem Dev.raise_vlt (d : Dev) (t : Dest) (code : Nat) (pl : List (Nat × Nat)) : (d.raise t code pl).vlt = d.vlt := by simp [Dev.raise]
@[simp] theorem Dev.raise_hl (d : Dev) (t : Dest) (code : Nat) (pl : List (Nat × Nat)) : (d.raise t code pl).hl = d.hl := by simp [Dev.raise]
@[simp] theorem Dev.raise_unauth (d : Dev) (t : Dest) (code : Nat) (pl : List (Nat × Nat)) : (d.raise t code pl).unauth = d.unauth := by simp [Dev.raise]
@[simp] theorem Dev.raise_ins (d : Dev) (t : Dest) (code : Nat) (pl : List (Nat × Nat)) : (d.raise t code pl).ins = d.ins := by simp [Dev.raise]
@[simp] theorem Dev.raise_nzh (d : Dev) (t : Dest) (code : Nat) (pl : List (Nat × Nat)) : (d.raise t code pl).nzh = d.nzh := by simp [Dev.raise]
@[simp] theorem Dev.raise_drm (d : Dev) (t : Dest) (code : Nat) (pl : List (Nat × Nat)) : (d.raise t code pl).drm = d.drm := by simp [Dev.raise]
@[simp] theorem Dev.raise_mot (d : Dev) (t : Dest) (code : Nat) (pl : List (Nat × Nat)) : (d.raise t code pl).mot = d.mot := by simp [Dev.raise]
@[simp] theorem Dev.raise_srv (d : Dev) (t : Dest) (code : Nat) (pl : List (Nat × Nat)) : (d.raise t code pl).srv = d.srv := by simp [Dev.raise]
@[simp] theorem Dev.raise_trm (d : Dev) (t : Dest) (code : Nat) (pl : List (Nat × Nat)) : (d.raise t code pl).trm = d.trm := by simp [Dev.raise]
@[simp] theorem Dev.raise_tap (d : Dev) (t : Dest) (code : Nat) (pl : List (Nat × Nat)) : (d.raise t code pl).tap = d.tap := by simp [Dev.raise]

@[simp] theorem Dev.tally_regs (d : Dev) (t : Dest) (code key : Nat) (pl : List (Nat × Nat)) (n : Nat) : (d.tally t code key pl n).regs = d.regs := by unfold Dev.tally; split <;> rfl
@[simp] theorem Dev.tally_regsOpen (d : Dev) (t : Dest) (code key : Nat) (pl : List (Nat × Nat)) (n : Nat) : (d.tally t code key pl n).regsOpen = d.regsOpen := by unfold Dev.tally; split <;> rfl
@[simp] theorem Dev.tally_snapD (d : Dev) (t : Dest) (code key : Nat) (pl : List (Nat × Nat)) (n : Nat) : (d.tally t code key pl n).snapD = d.snapD := by unfold Dev.tally; split <;> rfl
@[simp] theorem Dev.tally_mem (d : Dev) (t : Dest) (code key : Nat) (pl : List (Nat × Nat)) (n : Nat) : (d.tally t code key pl n).mem = d.mem := by unfold Dev.tally; split <;> rfl
@[simp] theorem Dev.tally_ue (d : Dev) (t : Dest) (code key : Nat) (pl : List (Nat × Nat)) (n : Nat) : (d.tally t code key pl n).ue = d.ue := by unfold Dev.tally; split <;> rfl
@[simp] theorem Dev.tally_out (d : Dev) (t : Dest) (code key : Nat) (pl : List (Nat × Nat)) (n : Nat) : (d.tally t code key pl n).out = d.out := by unfold Dev.tally; split <;> rfl
@[simp] theorem Dev.tally_raised (d : Dev) (t : Dest) (code key : Nat) (pl : List (Nat × Nat)) (n : Nat) : (d.tally t code key pl n).raised = d.raised := by unfold Dev.tally; split <;> rfl
@[simp] theorem Dev.tally_onceKeys (d : Dev) (t : Dest) (code key : Nat) (pl : List (Nat × Nat)) (n : Nat) : (d.tally t code key pl n).onceKeys = d.onceKeys := by unfold Dev.tally; split <;> rfl
@[simp] theorem Dev.tally_freeCtr (d : Dev) (t : Dest) (code key : Nat) (pl : List (Nat × Nat)) (n : Nat) : (d.tally t code key pl n).freeCtr = d.freeCtr := by unfold Dev.tally; split <;> rfl
@[simp] theorem Dev.tally_bus (d : Dev) (t : Dest) (code key : Nat) (pl : List (Nat × Nat)) (n : Nat) : (d.tally t code key pl n).bus = d.bus := by unfold Dev.tally; split <;> rfl
@[simp] theorem Dev.tally_sys (d : Dev) (t : Dest) (code key : Nat) (pl : List (Nat × Nat)) (n : Nat) : (d.tally t code key pl n).sys = d.sys := by unfold Dev.tally; split <;> rfl
@[simp] theorem Dev.tally_pat (d : Dev) (t : Dest) (code key : Nat) (pl : List (Nat × Nat)) (n : Nat) : (d.tally t code key pl n).pat = d.pat := by unfold Dev.tally; split <;> rfl
@[simp] theorem Dev.tally_tmb (d : Dev) (t : Dest) (code key : Nat) (pl : List (Nat × Nat)) (n : Nat) : (d.tally t code key pl n).tmb = d.tmb := by unfold Dev.tally; split <;> rfl
@[simp] theorem Dev.tally_web (d : Dev) (t : Dest) (code key : Nat) (pl : List (Nat × Nat)) (n : Nat) : (d.tally t code key pl n).web = d.web := by unfold Dev.tally; split <;> rfl
@[simp] theorem Dev.tally_cdc (d : Dev) (t : Dest) (code key : Nat) (pl : List (Nat × Nat)) (n : Nat) : (d.tally t code key pl n).cdc = d.cdc := by unfold Dev.tally; split <;> rfl
@[simp] theorem Dev.tally_las (d : Dev) (t : Dest) (code key : Nat) (pl : List (Nat × Nat)) (n : Nat) : (d.tally t code key pl n).las = d.las := by unfold Dev.tally; split <;> rfl
@[simp] theorem Dev.tally_pace (d : Dev) (t : Dest) (code key : Nat) (pl : List (Nat × Nat)) (n : Nat) : (d.tally t code key pl n).pace = d.pace := by unfold Dev.tally; split <;> rfl
@[simp] theorem Dev.tally_hst (d : Dev) (t : Dest) (code key : Nat) (pl : List (Nat × Nat)) (n : Nat) : (d.tally t code key pl n).hst = d.hst := by unfold Dev.tally; split <;> rfl
@[simp] theorem Dev.tally_vlt (d : Dev) (t : Dest) (code key : Nat) (pl : List (Nat × Nat)) (n : Nat) : (d.tally t code key pl n).vlt = d.vlt := by unfold Dev.tally; split <;> rfl
@[simp] theorem Dev.tally_hl (d : Dev) (t : Dest) (code key : Nat) (pl : List (Nat × Nat)) (n : Nat) : (d.tally t code key pl n).hl = d.hl := by unfold Dev.tally; split <;> rfl
@[simp] theorem Dev.tally_unauth (d : Dev) (t : Dest) (code key : Nat) (pl : List (Nat × Nat)) (n : Nat) : (d.tally t code key pl n).unauth = d.unauth := by unfold Dev.tally; split <;> rfl
@[simp] theorem Dev.tally_ins (d : Dev) (t : Dest) (code key : Nat) (pl : List (Nat × Nat)) (n : Nat) : (d.tally t code key pl n).ins = d.ins := by unfold Dev.tally; split <;> rfl
@[simp] theorem Dev.tally_nzh (d : Dev) (t : Dest) (code key : Nat) (pl : List (Nat × Nat)) (n : Nat) : (d.tally t code key pl n).nzh = d.nzh := by unfold Dev.tally; split <;> rfl
@[simp] theorem Dev.tally_drm (d : Dev) (t : Dest) (code key : Nat) (pl : List (Nat × Nat)) (n : Nat) : (d.tally t code key pl n).drm = d.drm := by unfold Dev.tally; split <;> rfl
@[simp] theorem Dev.tally_mot (d : Dev) (t : Dest) (code key : Nat) (pl : List (Nat × Nat)) (n : Nat) : (d.tally t code key pl n).mot = d.mot := by unfold Dev.tally; split <;> rfl
@[simp] theorem Dev.tally_srv (d : Dev) (t : Dest) (code key : Nat) (pl : List (Nat × Nat)) (n : Nat) : (d.tally t code key pl n).srv = d.srv := by unfold Dev.tally; split <;> rfl
@[simp] theorem Dev.tally_trm (d : Dev) (t : Dest) (code key : Nat) (pl : List (Nat × Nat)) (n : Nat) : (d.tally t code key pl n).trm = d.trm := by unfold Dev.tally; split <;> rfl
@[simp] theorem Dev.tally_tap (d : Dev) (t : Dest) (code key : Nat) (pl : List (Nat × Nat)) (n : Nat) : (d.tally t code key pl n).tap = d.tap := by unfold Dev.tally; split <;> rfl

@[simp] theorem Dev.postTally_regs (d : Dev) (g : Tally) : (d.postTally g).regs = (d.summary g.code g.first).regs := by simp [Dev.postTally]
@[simp] theorem Dev.postTally_regsOpen (d : Dev) (g : Tally) : (d.postTally g).regsOpen = d.regsOpen := by simp [Dev.postTally]
@[simp] theorem Dev.postTally_snapD (d : Dev) (g : Tally) : (d.postTally g).snapD = d.snapD := by simp [Dev.postTally]
@[simp] theorem Dev.postTally_mem (d : Dev) (g : Tally) : (d.postTally g).mem = d.mem := by simp [Dev.postTally]
@[simp] theorem Dev.postTally_ue (d : Dev) (g : Tally) : (d.postTally g).ue = d.ue := by simp [Dev.postTally]
@[simp] theorem Dev.postTally_out (d : Dev) (g : Tally) : (d.postTally g).out = d.out := by simp [Dev.postTally]
@[simp] theorem Dev.postTally_tallies (d : Dev) (g : Tally) : (d.postTally g).tallies = d.tallies := by simp [Dev.postTally]
@[simp] theorem Dev.postTally_onceKeys (d : Dev) (g : Tally) : (d.postTally g).onceKeys = d.onceKeys := by simp [Dev.postTally]
@[simp] theorem Dev.postTally_freeCtr (d : Dev) (g : Tally) : (d.postTally g).freeCtr = d.freeCtr := by simp [Dev.postTally]
@[simp] theorem Dev.postTally_bus (d : Dev) (g : Tally) : (d.postTally g).bus = d.bus := by simp [Dev.postTally]
@[simp] theorem Dev.postTally_sys (d : Dev) (g : Tally) : (d.postTally g).sys = d.sys := by simp [Dev.postTally]
@[simp] theorem Dev.postTally_pat (d : Dev) (g : Tally) : (d.postTally g).pat = d.pat := by simp [Dev.postTally]
@[simp] theorem Dev.postTally_tmb (d : Dev) (g : Tally) : (d.postTally g).tmb = d.tmb := by simp [Dev.postTally]
@[simp] theorem Dev.postTally_web (d : Dev) (g : Tally) : (d.postTally g).web = d.web := by simp [Dev.postTally]
@[simp] theorem Dev.postTally_cdc (d : Dev) (g : Tally) : (d.postTally g).cdc = d.cdc := by simp [Dev.postTally]
@[simp] theorem Dev.postTally_las (d : Dev) (g : Tally) : (d.postTally g).las = d.las := by simp [Dev.postTally]
@[simp] theorem Dev.postTally_pace (d : Dev) (g : Tally) : (d.postTally g).pace = d.pace := by simp [Dev.postTally]
@[simp] theorem Dev.postTally_hst (d : Dev) (g : Tally) : (d.postTally g).hst = d.hst := by simp [Dev.postTally]
@[simp] theorem Dev.postTally_vlt (d : Dev) (g : Tally) : (d.postTally g).vlt = d.vlt := by simp [Dev.postTally]
@[simp] theorem Dev.postTally_hl (d : Dev) (g : Tally) : (d.postTally g).hl = d.hl := by simp [Dev.postTally]
@[simp] theorem Dev.postTally_unauth (d : Dev) (g : Tally) : (d.postTally g).unauth = d.unauth := by simp [Dev.postTally]
@[simp] theorem Dev.postTally_ins (d : Dev) (g : Tally) : (d.postTally g).ins = d.ins := by simp [Dev.postTally]
@[simp] theorem Dev.postTally_nzh (d : Dev) (g : Tally) : (d.postTally g).nzh = d.nzh := by simp [Dev.postTally]
@[simp] theorem Dev.postTally_drm (d : Dev) (g : Tally) : (d.postTally g).drm = d.drm := by simp [Dev.postTally]
@[simp] theorem Dev.postTally_mot (d : Dev) (g : Tally) : (d.postTally g).mot = d.mot := by simp [Dev.postTally]
@[simp] theorem Dev.postTally_srv (d : Dev) (g : Tally) : (d.postTally g).srv = d.srv := by simp [Dev.postTally]
@[simp] theorem Dev.postTally_trm (d : Dev) (g : Tally) : (d.postTally g).trm = d.trm := by simp [Dev.postTally]
@[simp] theorem Dev.postTally_tap (d : Dev) (g : Tally) : (d.postTally g).tap = d.tap := by simp [Dev.postTally]

@[simp] theorem Dev.raiseOnce_regs (d : Dev) (t : Dest) (code key : Nat) (pl : List (Nat × Nat)) : (d.raiseOnce t code key pl).regs = if d.onceKeys.contains (code, key) then d.regs else (d.summary code (pack pl)).regs := by unfold Dev.raiseOnce; split <;> simp
@[simp] theorem Dev.raiseOnce_regsOpen (d : Dev) (t : Dest) (code key : Nat) (pl : List (Nat × Nat)) : (d.raiseOnce t code key pl).regsOpen = d.regsOpen := by unfold Dev.raiseOnce; split <;> simp
@[simp] theorem Dev.raiseOnce_snapD (d : Dev) (t : Dest) (code key : Nat) (pl : List (Nat × Nat)) : (d.raiseOnce t code key pl).snapD = d.snapD := by unfold Dev.raiseOnce; split <;> simp
@[simp] theorem Dev.raiseOnce_mem (d : Dev) (t : Dest) (code key : Nat) (pl : List (Nat × Nat)) : (d.raiseOnce t code key pl).mem = d.mem := by unfold Dev.raiseOnce; split <;> simp
@[simp] theorem Dev.raiseOnce_ue (d : Dev) (t : Dest) (code key : Nat) (pl : List (Nat × Nat)) : (d.raiseOnce t code key pl).ue = d.ue := by unfold Dev.raiseOnce; split <;> simp
@[simp] theorem Dev.raiseOnce_out (d : Dev) (t : Dest) (code key : Nat) (pl : List (Nat × Nat)) : (d.raiseOnce t code key pl).out = d.out := by unfold Dev.raiseOnce; split <;> simp
@[simp] theorem Dev.raiseOnce_tallies (d : Dev) (t : Dest) (code key : Nat) (pl : List (Nat × Nat)) : (d.raiseOnce t code key pl).tallies = d.tallies := by unfold Dev.raiseOnce; split <;> simp
@[simp] theorem Dev.raiseOnce_freeCtr (d : Dev) (t : Dest) (code key : Nat) (pl : List (Nat × Nat)) : (d.raiseOnce t code key pl).freeCtr = d.freeCtr := by unfold Dev.raiseOnce; split <;> simp
@[simp] theorem Dev.raiseOnce_bus (d : Dev) (t : Dest) (code key : Nat) (pl : List (Nat × Nat)) : (d.raiseOnce t code key pl).bus = d.bus := by unfold Dev.raiseOnce; split <;> simp
@[simp] theorem Dev.raiseOnce_sys (d : Dev) (t : Dest) (code key : Nat) (pl : List (Nat × Nat)) : (d.raiseOnce t code key pl).sys = d.sys := by unfold Dev.raiseOnce; split <;> simp
@[simp] theorem Dev.raiseOnce_pat (d : Dev) (t : Dest) (code key : Nat) (pl : List (Nat × Nat)) : (d.raiseOnce t code key pl).pat = d.pat := by unfold Dev.raiseOnce; split <;> simp
@[simp] theorem Dev.raiseOnce_tmb (d : Dev) (t : Dest) (code key : Nat) (pl : List (Nat × Nat)) : (d.raiseOnce t code key pl).tmb = d.tmb := by unfold Dev.raiseOnce; split <;> simp
@[simp] theorem Dev.raiseOnce_web (d : Dev) (t : Dest) (code key : Nat) (pl : List (Nat × Nat)) : (d.raiseOnce t code key pl).web = d.web := by unfold Dev.raiseOnce; split <;> simp
@[simp] theorem Dev.raiseOnce_cdc (d : Dev) (t : Dest) (code key : Nat) (pl : List (Nat × Nat)) : (d.raiseOnce t code key pl).cdc = d.cdc := by unfold Dev.raiseOnce; split <;> simp
@[simp] theorem Dev.raiseOnce_las (d : Dev) (t : Dest) (code key : Nat) (pl : List (Nat × Nat)) : (d.raiseOnce t code key pl).las = d.las := by unfold Dev.raiseOnce; split <;> simp
@[simp] theorem Dev.raiseOnce_pace (d : Dev) (t : Dest) (code key : Nat) (pl : List (Nat × Nat)) : (d.raiseOnce t code key pl).pace = d.pace := by unfold Dev.raiseOnce; split <;> simp
@[simp] theorem Dev.raiseOnce_hst (d : Dev) (t : Dest) (code key : Nat) (pl : List (Nat × Nat)) : (d.raiseOnce t code key pl).hst = d.hst := by unfold Dev.raiseOnce; split <;> simp
@[simp] theorem Dev.raiseOnce_vlt (d : Dev) (t : Dest) (code key : Nat) (pl : List (Nat × Nat)) : (d.raiseOnce t code key pl).vlt = d.vlt := by unfold Dev.raiseOnce; split <;> simp
@[simp] theorem Dev.raiseOnce_hl (d : Dev) (t : Dest) (code key : Nat) (pl : List (Nat × Nat)) : (d.raiseOnce t code key pl).hl = d.hl := by unfold Dev.raiseOnce; split <;> simp
@[simp] theorem Dev.raiseOnce_unauth (d : Dev) (t : Dest) (code key : Nat) (pl : List (Nat × Nat)) : (d.raiseOnce t code key pl).unauth = d.unauth := by unfold Dev.raiseOnce; split <;> simp
@[simp] theorem Dev.raiseOnce_ins (d : Dev) (t : Dest) (code key : Nat) (pl : List (Nat × Nat)) : (d.raiseOnce t code key pl).ins = d.ins := by unfold Dev.raiseOnce; split <;> simp
@[simp] theorem Dev.raiseOnce_nzh (d : Dev) (t : Dest) (code key : Nat) (pl : List (Nat × Nat)) : (d.raiseOnce t code key pl).nzh = d.nzh := by unfold Dev.raiseOnce; split <;> simp
@[simp] theorem Dev.raiseOnce_drm (d : Dev) (t : Dest) (code key : Nat) (pl : List (Nat × Nat)) : (d.raiseOnce t code key pl).drm = d.drm := by unfold Dev.raiseOnce; split <;> simp
@[simp] theorem Dev.raiseOnce_mot (d : Dev) (t : Dest) (code key : Nat) (pl : List (Nat × Nat)) : (d.raiseOnce t code key pl).mot = d.mot := by unfold Dev.raiseOnce; split <;> simp
@[simp] theorem Dev.raiseOnce_srv (d : Dev) (t : Dest) (code key : Nat) (pl : List (Nat × Nat)) : (d.raiseOnce t code key pl).srv = d.srv := by unfold Dev.raiseOnce; split <;> simp
@[simp] theorem Dev.raiseOnce_trm (d : Dev) (t : Dest) (code key : Nat) (pl : List (Nat × Nat)) : (d.raiseOnce t code key pl).trm = d.trm := by unfold Dev.raiseOnce; split <;> simp
@[simp] theorem Dev.raiseOnce_tap (d : Dev) (t : Dest) (code key : Nat) (pl : List (Nat × Nat)) : (d.raiseOnce t code key pl).tap = d.tap := by unfold Dev.raiseOnce; split <;> simp

@[simp] theorem Dev.setLatch_regs (d : Dev) (m : Master) (l : BusLatch) : (d.setLatch m l).regs = d.regs := by cases m <;> rfl
@[simp] theorem Dev.setLatch_regsOpen (d : Dev) (m : Master) (l : BusLatch) : (d.setLatch m l).regsOpen = d.regsOpen := by cases m <;> rfl
@[simp] theorem Dev.setLatch_snapD (d : Dev) (m : Master) (l : BusLatch) : (d.setLatch m l).snapD = d.snapD := by cases m <;> rfl
@[simp] theorem Dev.setLatch_mem (d : Dev) (m : Master) (l : BusLatch) : (d.setLatch m l).mem = d.mem := by cases m <;> rfl
@[simp] theorem Dev.setLatch_ue (d : Dev) (m : Master) (l : BusLatch) : (d.setLatch m l).ue = d.ue := by cases m <;> rfl
@[simp] theorem Dev.setLatch_out (d : Dev) (m : Master) (l : BusLatch) : (d.setLatch m l).out = d.out := by cases m <;> rfl
@[simp] theorem Dev.setLatch_raised (d : Dev) (m : Master) (l : BusLatch) : (d.setLatch m l).raised = d.raised := by cases m <;> rfl
@[simp] theorem Dev.setLatch_tallies (d : Dev) (m : Master) (l : BusLatch) : (d.setLatch m l).tallies = d.tallies := by cases m <;> rfl
@[simp] theorem Dev.setLatch_onceKeys (d : Dev) (m : Master) (l : BusLatch) : (d.setLatch m l).onceKeys = d.onceKeys := by cases m <;> rfl
@[simp] theorem Dev.setLatch_freeCtr (d : Dev) (m : Master) (l : BusLatch) : (d.setLatch m l).freeCtr = d.freeCtr := by cases m <;> rfl
@[simp] theorem Dev.setLatch_sys (d : Dev) (m : Master) (l : BusLatch) : (d.setLatch m l).sys = d.sys := by cases m <;> rfl
@[simp] theorem Dev.setLatch_pat (d : Dev) (m : Master) (l : BusLatch) : (d.setLatch m l).pat = d.pat := by cases m <;> rfl
@[simp] theorem Dev.setLatch_tmb (d : Dev) (m : Master) (l : BusLatch) : (d.setLatch m l).tmb = d.tmb := by cases m <;> rfl
@[simp] theorem Dev.setLatch_web (d : Dev) (m : Master) (l : BusLatch) : (d.setLatch m l).web = d.web := by cases m <;> rfl
@[simp] theorem Dev.setLatch_cdc (d : Dev) (m : Master) (l : BusLatch) : (d.setLatch m l).cdc = d.cdc := by cases m <;> rfl
@[simp] theorem Dev.setLatch_las (d : Dev) (m : Master) (l : BusLatch) : (d.setLatch m l).las = d.las := by cases m <;> rfl
@[simp] theorem Dev.setLatch_pace (d : Dev) (m : Master) (l : BusLatch) : (d.setLatch m l).pace = d.pace := by cases m <;> rfl
@[simp] theorem Dev.setLatch_hst (d : Dev) (m : Master) (l : BusLatch) : (d.setLatch m l).hst = d.hst := by cases m <;> rfl
@[simp] theorem Dev.setLatch_vlt (d : Dev) (m : Master) (l : BusLatch) : (d.setLatch m l).vlt = d.vlt := by cases m <;> rfl
@[simp] theorem Dev.setLatch_hl (d : Dev) (m : Master) (l : BusLatch) : (d.setLatch m l).hl = d.hl := by cases m <;> rfl
@[simp] theorem Dev.setLatch_unauth (d : Dev) (m : Master) (l : BusLatch) : (d.setLatch m l).unauth = d.unauth := by cases m <;> rfl
@[simp] theorem Dev.setLatch_ins (d : Dev) (m : Master) (l : BusLatch) : (d.setLatch m l).ins = d.ins := by cases m <;> rfl
@[simp] theorem Dev.setLatch_nzh (d : Dev) (m : Master) (l : BusLatch) : (d.setLatch m l).nzh = d.nzh := by cases m <;> rfl
@[simp] theorem Dev.setLatch_drm (d : Dev) (m : Master) (l : BusLatch) : (d.setLatch m l).drm = d.drm := by cases m <;> rfl
@[simp] theorem Dev.setLatch_mot (d : Dev) (m : Master) (l : BusLatch) : (d.setLatch m l).mot = d.mot := by cases m <;> rfl
@[simp] theorem Dev.setLatch_srv (d : Dev) (m : Master) (l : BusLatch) : (d.setLatch m l).srv = d.srv := by cases m <;> rfl
@[simp] theorem Dev.setLatch_trm (d : Dev) (m : Master) (l : BusLatch) : (d.setLatch m l).trm = d.trm := by cases m <;> rfl
@[simp] theorem Dev.setLatch_tap (d : Dev) (m : Master) (l : BusLatch) : (d.setLatch m l).tap = d.tap := by cases m <;> rfl

@[simp] theorem Dev.touch_regs (d : Dev) (m : Master) : (d.touch m).regs = d.regs := by cases m <;> rfl
@[simp] theorem Dev.touch_regsOpen (d : Dev) (m : Master) : (d.touch m).regsOpen = d.regsOpen := by cases m <;> rfl
@[simp] theorem Dev.touch_snapD (d : Dev) (m : Master) : (d.touch m).snapD = d.snapD := by cases m <;> rfl
@[simp] theorem Dev.touch_mem (d : Dev) (m : Master) : (d.touch m).mem = d.mem := by cases m <;> rfl
@[simp] theorem Dev.touch_ue (d : Dev) (m : Master) : (d.touch m).ue = d.ue := by cases m <;> rfl
@[simp] theorem Dev.touch_out (d : Dev) (m : Master) : (d.touch m).out = d.out := by cases m <;> rfl
@[simp] theorem Dev.touch_raised (d : Dev) (m : Master) : (d.touch m).raised = d.raised := by cases m <;> rfl
@[simp] theorem Dev.touch_tallies (d : Dev) (m : Master) : (d.touch m).tallies = d.tallies := by cases m <;> rfl
@[simp] theorem Dev.touch_onceKeys (d : Dev) (m : Master) : (d.touch m).onceKeys = d.onceKeys := by cases m <;> rfl
@[simp] theorem Dev.touch_freeCtr (d : Dev) (m : Master) : (d.touch m).freeCtr = d.freeCtr := by cases m <;> rfl
@[simp] theorem Dev.touch_sys (d : Dev) (m : Master) : (d.touch m).sys = d.sys := by cases m <;> rfl
@[simp] theorem Dev.touch_pat (d : Dev) (m : Master) : (d.touch m).pat = d.pat := by cases m <;> rfl
@[simp] theorem Dev.touch_tmb (d : Dev) (m : Master) : (d.touch m).tmb = d.tmb := by cases m <;> rfl
@[simp] theorem Dev.touch_web (d : Dev) (m : Master) : (d.touch m).web = d.web := by cases m <;> rfl
@[simp] theorem Dev.touch_cdc (d : Dev) (m : Master) : (d.touch m).cdc = d.cdc := by cases m <;> rfl
@[simp] theorem Dev.touch_las (d : Dev) (m : Master) : (d.touch m).las = d.las := by cases m <;> rfl
@[simp] theorem Dev.touch_pace (d : Dev) (m : Master) : (d.touch m).pace = d.pace := by cases m <;> rfl
@[simp] theorem Dev.touch_hst (d : Dev) (m : Master) : (d.touch m).hst = d.hst := by cases m <;> rfl
@[simp] theorem Dev.touch_vlt (d : Dev) (m : Master) : (d.touch m).vlt = d.vlt := by cases m <;> rfl
@[simp] theorem Dev.touch_hl (d : Dev) (m : Master) : (d.touch m).hl = d.hl := by cases m <;> rfl
@[simp] theorem Dev.touch_unauth (d : Dev) (m : Master) : (d.touch m).unauth = d.unauth := by cases m <;> rfl
@[simp] theorem Dev.touch_ins (d : Dev) (m : Master) : (d.touch m).ins = d.ins := by cases m <;> rfl
@[simp] theorem Dev.touch_nzh (d : Dev) (m : Master) : (d.touch m).nzh = d.nzh := by cases m <;> rfl
@[simp] theorem Dev.touch_drm (d : Dev) (m : Master) : (d.touch m).drm = d.drm := by cases m <;> rfl
@[simp] theorem Dev.touch_mot (d : Dev) (m : Master) : (d.touch m).mot = d.mot := by cases m <;> rfl
@[simp] theorem Dev.touch_srv (d : Dev) (m : Master) : (d.touch m).srv = d.srv := by cases m <;> rfl
@[simp] theorem Dev.touch_trm (d : Dev) (m : Master) : (d.touch m).trm = d.trm := by cases m <;> rfl
@[simp] theorem Dev.touch_tap (d : Dev) (m : Master) : (d.touch m).tap = d.tap := by cases m <;> rfl

@[simp] theorem Dev.store_regsOpen (d : Dev) (r : Reg) (i v k : Nat) : (d.store r i v k).regsOpen = d.regsOpen := by unfold Dev.store; split <;> rfl
@[simp] theorem Dev.store_snapD (d : Dev) (r : Reg) (i v k : Nat) : (d.store r i v k).snapD = d.snapD := by unfold Dev.store; split <;> rfl
@[simp] theorem Dev.store_mem (d : Dev) (r : Reg) (i v k : Nat) : (d.store r i v k).mem = d.mem := by unfold Dev.store; split <;> rfl
@[simp] theorem Dev.store_ue (d : Dev) (r : Reg) (i v k : Nat) : (d.store r i v k).ue = d.ue := by unfold Dev.store; split <;> rfl
@[simp] theorem Dev.store_out (d : Dev) (r : Reg) (i v k : Nat) : (d.store r i v k).out = d.out := by unfold Dev.store; split <;> rfl
@[simp] theorem Dev.store_raised (d : Dev) (r : Reg) (i v k : Nat) : (d.store r i v k).raised = d.raised := by unfold Dev.store; split <;> rfl
@[simp] theorem Dev.store_tallies (d : Dev) (r : Reg) (i v k : Nat) : (d.store r i v k).tallies = d.tallies := by unfold Dev.store; split <;> rfl
@[simp] theorem Dev.store_onceKeys (d : Dev) (r : Reg) (i v k : Nat) : (d.store r i v k).onceKeys = d.onceKeys := by unfold Dev.store; split <;> rfl
@[simp] theorem Dev.store_freeCtr (d : Dev) (r : Reg) (i v k : Nat) : (d.store r i v k).freeCtr = d.freeCtr := by unfold Dev.store; split <;> rfl
@[simp] theorem Dev.store_bus (d : Dev) (r : Reg) (i v k : Nat) : (d.store r i v k).bus = d.bus := by unfold Dev.store; split <;> rfl
@[simp] theorem Dev.store_sys (d : Dev) (r : Reg) (i v k : Nat) : (d.store r i v k).sys = d.sys := by unfold Dev.store; split <;> rfl
@[simp] theorem Dev.store_pat (d : Dev) (r : Reg) (i v k : Nat) : (d.store r i v k).pat = d.pat := by unfold Dev.store; split <;> rfl
@[simp] theorem Dev.store_tmb (d : Dev) (r : Reg) (i v k : Nat) : (d.store r i v k).tmb = d.tmb := by unfold Dev.store; split <;> rfl
@[simp] theorem Dev.store_web (d : Dev) (r : Reg) (i v k : Nat) : (d.store r i v k).web = d.web := by unfold Dev.store; split <;> rfl
@[simp] theorem Dev.store_cdc (d : Dev) (r : Reg) (i v k : Nat) : (d.store r i v k).cdc = d.cdc := by unfold Dev.store; split <;> rfl
@[simp] theorem Dev.store_las (d : Dev) (r : Reg) (i v k : Nat) : (d.store r i v k).las = d.las := by unfold Dev.store; split <;> rfl
@[simp] theorem Dev.store_pace (d : Dev) (r : Reg) (i v k : Nat) : (d.store r i v k).pace = d.pace := by unfold Dev.store; split <;> rfl
@[simp] theorem Dev.store_hst (d : Dev) (r : Reg) (i v k : Nat) : (d.store r i v k).hst = d.hst := by unfold Dev.store; split <;> rfl
@[simp] theorem Dev.store_vlt (d : Dev) (r : Reg) (i v k : Nat) : (d.store r i v k).vlt = d.vlt := by unfold Dev.store; split <;> rfl
@[simp] theorem Dev.store_hl (d : Dev) (r : Reg) (i v k : Nat) : (d.store r i v k).hl = d.hl := by unfold Dev.store; split <;> rfl
@[simp] theorem Dev.store_unauth (d : Dev) (r : Reg) (i v k : Nat) : (d.store r i v k).unauth = d.unauth := by unfold Dev.store; split <;> rfl
@[simp] theorem Dev.store_ins (d : Dev) (r : Reg) (i v k : Nat) : (d.store r i v k).ins = d.ins := by unfold Dev.store; split <;> rfl
@[simp] theorem Dev.store_nzh (d : Dev) (r : Reg) (i v k : Nat) : (d.store r i v k).nzh = d.nzh := by unfold Dev.store; split <;> rfl
@[simp] theorem Dev.store_drm (d : Dev) (r : Reg) (i v k : Nat) : (d.store r i v k).drm = d.drm := by unfold Dev.store; split <;> rfl
@[simp] theorem Dev.store_mot (d : Dev) (r : Reg) (i v k : Nat) : (d.store r i v k).mot = d.mot := by unfold Dev.store; split <;> rfl
@[simp] theorem Dev.store_srv (d : Dev) (r : Reg) (i v k : Nat) : (d.store r i v k).srv = d.srv := by unfold Dev.store; split <;> rfl
@[simp] theorem Dev.store_trm (d : Dev) (r : Reg) (i v k : Nat) : (d.store r i v k).trm = d.trm := by unfold Dev.store; split <;> rfl
@[simp] theorem Dev.store_tap (d : Dev) (r : Reg) (i v k : Nat) : (d.store r i v k).tap = d.tap := by unfold Dev.store; split <;> rfl

@[simp] theorem Dev.setFunc_regsOpen (d : Dev) (f : Func) (x : FuncSt) : (d.setFunc f x).regsOpen = d.regsOpen := by cases f <;> rfl
@[simp] theorem Dev.setFunc_snapD (d : Dev) (f : Func) (x : FuncSt) : (d.setFunc f x).snapD = d.snapD := by cases f <;> rfl
@[simp] theorem Dev.setFunc_mem (d : Dev) (f : Func) (x : FuncSt) : (d.setFunc f x).mem = d.mem := by cases f <;> rfl
@[simp] theorem Dev.setFunc_ue (d : Dev) (f : Func) (x : FuncSt) : (d.setFunc f x).ue = d.ue := by cases f <;> rfl
@[simp] theorem Dev.setFunc_out (d : Dev) (f : Func) (x : FuncSt) : (d.setFunc f x).out = d.out := by cases f <;> rfl
@[simp] theorem Dev.setFunc_raised (d : Dev) (f : Func) (x : FuncSt) : (d.setFunc f x).raised = d.raised := by cases f <;> rfl
@[simp] theorem Dev.setFunc_tallies (d : Dev) (f : Func) (x : FuncSt) : (d.setFunc f x).tallies = d.tallies := by cases f <;> rfl
@[simp] theorem Dev.setFunc_onceKeys (d : Dev) (f : Func) (x : FuncSt) : (d.setFunc f x).onceKeys = d.onceKeys := by cases f <;> rfl
@[simp] theorem Dev.setFunc_freeCtr (d : Dev) (f : Func) (x : FuncSt) : (d.setFunc f x).freeCtr = d.freeCtr := by cases f <;> rfl
@[simp] theorem Dev.setFunc_bus (d : Dev) (f : Func) (x : FuncSt) : (d.setFunc f x).bus = d.bus := by cases f <;> rfl
@[simp] theorem Dev.setFunc_pat (d : Dev) (f : Func) (x : FuncSt) : (d.setFunc f x).pat = d.pat := by cases f <;> rfl
@[simp] theorem Dev.setFunc_tmb (d : Dev) (f : Func) (x : FuncSt) : (d.setFunc f x).tmb = d.tmb := by cases f <;> rfl
@[simp] theorem Dev.setFunc_web (d : Dev) (f : Func) (x : FuncSt) : (d.setFunc f x).web = d.web := by cases f <;> rfl
@[simp] theorem Dev.setFunc_cdc (d : Dev) (f : Func) (x : FuncSt) : (d.setFunc f x).cdc = d.cdc := by cases f <;> rfl
@[simp] theorem Dev.setFunc_las (d : Dev) (f : Func) (x : FuncSt) : (d.setFunc f x).las = d.las := by cases f <;> rfl
@[simp] theorem Dev.setFunc_pace (d : Dev) (f : Func) (x : FuncSt) : (d.setFunc f x).pace = d.pace := by cases f <;> rfl
@[simp] theorem Dev.setFunc_hst (d : Dev) (f : Func) (x : FuncSt) : (d.setFunc f x).hst = d.hst := by cases f <;> rfl
@[simp] theorem Dev.setFunc_vlt (d : Dev) (f : Func) (x : FuncSt) : (d.setFunc f x).vlt = d.vlt := by cases f <;> rfl
@[simp] theorem Dev.setFunc_hl (d : Dev) (f : Func) (x : FuncSt) : (d.setFunc f x).hl = d.hl := by cases f <;> rfl
@[simp] theorem Dev.setFunc_unauth (d : Dev) (f : Func) (x : FuncSt) : (d.setFunc f x).unauth = d.unauth := by cases f <;> rfl
@[simp] theorem Dev.setFunc_ins (d : Dev) (f : Func) (x : FuncSt) : (d.setFunc f x).ins = d.ins := by cases f <;> rfl
@[simp] theorem Dev.setFunc_nzh (d : Dev) (f : Func) (x : FuncSt) : (d.setFunc f x).nzh = d.nzh := by cases f <;> rfl
@[simp] theorem Dev.setFunc_drm (d : Dev) (f : Func) (x : FuncSt) : (d.setFunc f x).drm = d.drm := by cases f <;> rfl
@[simp] theorem Dev.setFunc_mot (d : Dev) (f : Func) (x : FuncSt) : (d.setFunc f x).mot = d.mot := by cases f <;> rfl
@[simp] theorem Dev.setFunc_srv (d : Dev) (f : Func) (x : FuncSt) : (d.setFunc f x).srv = d.srv := by cases f <;> rfl
@[simp] theorem Dev.setFunc_trm (d : Dev) (f : Func) (x : FuncSt) : (d.setFunc f x).trm = d.trm := by cases f <;> rfl
@[simp] theorem Dev.setFunc_tap (d : Dev) (f : Func) (x : FuncSt) : (d.setFunc f x).tap = d.tap := by cases f <;> rfl

@[simp] theorem Dev.orderEvents_regs (d : Dev) (n : Nat) : (d.orderEvents n).regs = d.regs := rfl
@[simp] theorem Dev.orderEvents_regsOpen (d : Dev) (n : Nat) : (d.orderEvents n).regsOpen = d.regsOpen := rfl
@[simp] theorem Dev.orderEvents_snapD (d : Dev) (n : Nat) : (d.orderEvents n).snapD = d.snapD := rfl
@[simp] theorem Dev.orderEvents_mem (d : Dev) (n : Nat) : (d.orderEvents n).mem = d.mem := rfl
@[simp] theorem Dev.orderEvents_ue (d : Dev) (n : Nat) : (d.orderEvents n).ue = d.ue := rfl
@[simp] theorem Dev.orderEvents_out (d : Dev) (n : Nat) : (d.orderEvents n).out = d.out := rfl
@[simp] theorem Dev.orderEvents_tallies (d : Dev) (n : Nat) : (d.orderEvents n).tallies = d.tallies := rfl
@[simp] theorem Dev.orderEvents_onceKeys (d : Dev) (n : Nat) : (d.orderEvents n).onceKeys = d.onceKeys := rfl
@[simp] theorem Dev.orderEvents_freeCtr (d : Dev) (n : Nat) : (d.orderEvents n).freeCtr = d.freeCtr := rfl
@[simp] theorem Dev.orderEvents_bus (d : Dev) (n : Nat) : (d.orderEvents n).bus = d.bus := rfl
@[simp] theorem Dev.orderEvents_sys (d : Dev) (n : Nat) : (d.orderEvents n).sys = d.sys := rfl
@[simp] theorem Dev.orderEvents_pat (d : Dev) (n : Nat) : (d.orderEvents n).pat = d.pat := rfl
@[simp] theorem Dev.orderEvents_tmb (d : Dev) (n : Nat) : (d.orderEvents n).tmb = d.tmb := rfl
@[simp] theorem Dev.orderEvents_web (d : Dev) (n : Nat) : (d.orderEvents n).web = d.web := rfl
@[simp] theorem Dev.orderEvents_cdc (d : Dev) (n : Nat) : (d.orderEvents n).cdc = d.cdc := rfl
@[simp] theorem Dev.orderEvents_las (d : Dev) (n : Nat) : (d.orderEvents n).las = d.las := rfl
@[simp] theorem Dev.orderEvents_pace (d : Dev) (n : Nat) : (d.orderEvents n).pace = d.pace := rfl
@[simp] theorem Dev.orderEvents_hst (d : Dev) (n : Nat) : (d.orderEvents n).hst = d.hst := rfl
@[simp] theorem Dev.orderEvents_vlt (d : Dev) (n : Nat) : (d.orderEvents n).vlt = d.vlt := rfl
@[simp] theorem Dev.orderEvents_hl (d : Dev) (n : Nat) : (d.orderEvents n).hl = d.hl := rfl
@[simp] theorem Dev.orderEvents_unauth (d : Dev) (n : Nat) : (d.orderEvents n).unauth = d.unauth := rfl
@[simp] theorem Dev.orderEvents_ins (d : Dev) (n : Nat) : (d.orderEvents n).ins = d.ins := rfl
@[simp] theorem Dev.orderEvents_nzh (d : Dev) (n : Nat) : (d.orderEvents n).nzh = d.nzh := rfl
@[simp] theorem Dev.orderEvents_drm (d : Dev) (n : Nat) : (d.orderEvents n).drm = d.drm := rfl
@[simp] theorem Dev.orderEvents_mot (d : Dev) (n : Nat) : (d.orderEvents n).mot = d.mot := rfl
@[simp] theorem Dev.orderEvents_srv (d : Dev) (n : Nat) : (d.orderEvents n).srv = d.srv := rfl
@[simp] theorem Dev.orderEvents_trm (d : Dev) (n : Nat) : (d.orderEvents n).trm = d.trm := rfl
@[simp] theorem Dev.orderEvents_tap (d : Dev) (n : Nat) : (d.orderEvents n).tap = d.tap := rfl

@[simp] theorem Dev.setStage_regs (d : Dev) (n : Nat) : (d.setStage n).regs = d.regs := rfl
@[simp] theorem Dev.setStage_regsOpen (d : Dev) (n : Nat) : (d.setStage n).regsOpen = d.regsOpen := rfl
@[simp] theorem Dev.setStage_snapD (d : Dev) (n : Nat) : (d.setStage n).snapD = d.snapD := rfl
@[simp] theorem Dev.setStage_mem (d : Dev) (n : Nat) : (d.setStage n).mem = d.mem := rfl
@[simp] theorem Dev.setStage_ue (d : Dev) (n : Nat) : (d.setStage n).ue = d.ue := rfl
@[simp] theorem Dev.setStage_out (d : Dev) (n : Nat) : (d.setStage n).out = d.out := rfl
@[simp] theorem Dev.setStage_raised (d : Dev) (n : Nat) : (d.setStage n).raised = d.raised := rfl
@[simp] theorem Dev.setStage_tallies (d : Dev) (n : Nat) : (d.setStage n).tallies = d.tallies := rfl
@[simp] theorem Dev.setStage_onceKeys (d : Dev) (n : Nat) : (d.setStage n).onceKeys = d.onceKeys := rfl
@[simp] theorem Dev.setStage_freeCtr (d : Dev) (n : Nat) : (d.setStage n).freeCtr = d.freeCtr := rfl
@[simp] theorem Dev.setStage_bus (d : Dev) (n : Nat) : (d.setStage n).bus = d.bus := rfl
@[simp] theorem Dev.setStage_sys (d : Dev) (n : Nat) : (d.setStage n).sys = { d.sys with reset := d.sys.reset.map fun r => { r with stage := n } } := rfl
@[simp] theorem Dev.setStage_pat (d : Dev) (n : Nat) : (d.setStage n).pat = d.pat := rfl
@[simp] theorem Dev.setStage_tmb (d : Dev) (n : Nat) : (d.setStage n).tmb = d.tmb := rfl
@[simp] theorem Dev.setStage_web (d : Dev) (n : Nat) : (d.setStage n).web = d.web := rfl
@[simp] theorem Dev.setStage_cdc (d : Dev) (n : Nat) : (d.setStage n).cdc = d.cdc := rfl
@[simp] theorem Dev.setStage_las (d : Dev) (n : Nat) : (d.setStage n).las = d.las := rfl
@[simp] theorem Dev.setStage_pace (d : Dev) (n : Nat) : (d.setStage n).pace = d.pace := rfl
@[simp] theorem Dev.setStage_hst (d : Dev) (n : Nat) : (d.setStage n).hst = d.hst := rfl
@[simp] theorem Dev.setStage_vlt (d : Dev) (n : Nat) : (d.setStage n).vlt = d.vlt := rfl
@[simp] theorem Dev.setStage_hl (d : Dev) (n : Nat) : (d.setStage n).hl = d.hl := rfl
@[simp] theorem Dev.setStage_unauth (d : Dev) (n : Nat) : (d.setStage n).unauth = d.unauth := rfl
@[simp] theorem Dev.setStage_ins (d : Dev) (n : Nat) : (d.setStage n).ins = d.ins := rfl
@[simp] theorem Dev.setStage_nzh (d : Dev) (n : Nat) : (d.setStage n).nzh = d.nzh := rfl
@[simp] theorem Dev.setStage_drm (d : Dev) (n : Nat) : (d.setStage n).drm = d.drm := rfl
@[simp] theorem Dev.setStage_mot (d : Dev) (n : Nat) : (d.setStage n).mot = d.mot := rfl
@[simp] theorem Dev.setStage_srv (d : Dev) (n : Nat) : (d.setStage n).srv = d.srv := rfl
@[simp] theorem Dev.setStage_trm (d : Dev) (n : Nat) : (d.setStage n).trm = d.trm := rfl
@[simp] theorem Dev.setStage_tap (d : Dev) (n : Nat) : (d.setStage n).tap = d.tap := rfl

@[simp] theorem Dev.setMotion_regs (d : Dev) (n v : Nat) : (d.setMotion n v).regs = (d.wr F.MOT_n_STAT_MOTION n v).regs := rfl
@[simp] theorem Dev.setMotion_regsOpen (d : Dev) (n v : Nat) : (d.setMotion n v).regsOpen = d.regsOpen := rfl
@[simp] theorem Dev.setMotion_snapD (d : Dev) (n v : Nat) : (d.setMotion n v).snapD = d.snapD := rfl
@[simp] theorem Dev.setMotion_mem (d : Dev) (n v : Nat) : (d.setMotion n v).mem = d.mem := rfl
@[simp] theorem Dev.setMotion_ue (d : Dev) (n v : Nat) : (d.setMotion n v).ue = d.ue := rfl
@[simp] theorem Dev.setMotion_out (d : Dev) (n v : Nat) : (d.setMotion n v).out = d.out := rfl
@[simp] theorem Dev.setMotion_raised (d : Dev) (n v : Nat) : (d.setMotion n v).raised = d.raised := rfl
@[simp] theorem Dev.setMotion_tallies (d : Dev) (n v : Nat) : (d.setMotion n v).tallies = d.tallies := rfl
@[simp] theorem Dev.setMotion_onceKeys (d : Dev) (n v : Nat) : (d.setMotion n v).onceKeys = d.onceKeys := rfl
@[simp] theorem Dev.setMotion_freeCtr (d : Dev) (n v : Nat) : (d.setMotion n v).freeCtr = d.freeCtr := rfl
@[simp] theorem Dev.setMotion_bus (d : Dev) (n v : Nat) : (d.setMotion n v).bus = d.bus := rfl
@[simp] theorem Dev.setMotion_sys (d : Dev) (n v : Nat) : (d.setMotion n v).sys = d.sys := rfl
@[simp] theorem Dev.setMotion_pat (d : Dev) (n v : Nat) : (d.setMotion n v).pat = d.pat := rfl
@[simp] theorem Dev.setMotion_tmb (d : Dev) (n v : Nat) : (d.setMotion n v).tmb = d.tmb := rfl
@[simp] theorem Dev.setMotion_web (d : Dev) (n v : Nat) : (d.setMotion n v).web = d.web := rfl
@[simp] theorem Dev.setMotion_cdc (d : Dev) (n v : Nat) : (d.setMotion n v).cdc = d.cdc := rfl
@[simp] theorem Dev.setMotion_las (d : Dev) (n v : Nat) : (d.setMotion n v).las = d.las := rfl
@[simp] theorem Dev.setMotion_pace (d : Dev) (n v : Nat) : (d.setMotion n v).pace = d.pace := rfl
@[simp] theorem Dev.setMotion_hst (d : Dev) (n v : Nat) : (d.setMotion n v).hst = d.hst := rfl
@[simp] theorem Dev.setMotion_vlt (d : Dev) (n v : Nat) : (d.setMotion n v).vlt = d.vlt := rfl
@[simp] theorem Dev.setMotion_hl (d : Dev) (n v : Nat) : (d.setMotion n v).hl = d.hl := rfl
@[simp] theorem Dev.setMotion_unauth (d : Dev) (n v : Nat) : (d.setMotion n v).unauth = d.unauth := rfl
@[simp] theorem Dev.setMotion_ins (d : Dev) (n v : Nat) : (d.setMotion n v).ins = d.ins := rfl
@[simp] theorem Dev.setMotion_nzh (d : Dev) (n v : Nat) : (d.setMotion n v).nzh = d.nzh := rfl
@[simp] theorem Dev.setMotion_drm (d : Dev) (n v : Nat) : (d.setMotion n v).drm = d.drm := rfl
@[simp] theorem Dev.setMotion_mot (d : Dev) (n v : Nat) : (d.setMotion n v).mot = d.mot := rfl
@[simp] theorem Dev.setMotion_srv (d : Dev) (n v : Nat) : (d.setMotion n v).srv = d.srv := rfl
@[simp] theorem Dev.setMotion_trm (d : Dev) (n v : Nat) : (d.setMotion n v).trm = d.trm := rfl
@[simp] theorem Dev.setMotion_tap (d : Dev) (n v : Nat) : (d.setMotion n v).tap = d.tap := rfl

@[simp] theorem Dev.setWebState_regsOpen (d : Dev) (n : Nat) : (d.setWebState n).regsOpen = d.regsOpen := rfl
@[simp] theorem Dev.setWebState_snapD (d : Dev) (n : Nat) : (d.setWebState n).snapD = d.snapD := rfl
@[simp] theorem Dev.setWebState_mem (d : Dev) (n : Nat) : (d.setWebState n).mem = d.mem := rfl
@[simp] theorem Dev.setWebState_ue (d : Dev) (n : Nat) : (d.setWebState n).ue = d.ue := rfl
@[simp] theorem Dev.setWebState_out (d : Dev) (n : Nat) : (d.setWebState n).out = d.out := rfl
@[simp] theorem Dev.setWebState_raised (d : Dev) (n : Nat) : (d.setWebState n).raised = d.raised := rfl
@[simp] theorem Dev.setWebState_tallies (d : Dev) (n : Nat) : (d.setWebState n).tallies = d.tallies := rfl
@[simp] theorem Dev.setWebState_onceKeys (d : Dev) (n : Nat) : (d.setWebState n).onceKeys = d.onceKeys := rfl
@[simp] theorem Dev.setWebState_freeCtr (d : Dev) (n : Nat) : (d.setWebState n).freeCtr = d.freeCtr := rfl
@[simp] theorem Dev.setWebState_bus (d : Dev) (n : Nat) : (d.setWebState n).bus = d.bus := rfl
@[simp] theorem Dev.setWebState_sys (d : Dev) (n : Nat) : (d.setWebState n).sys = d.sys := rfl
@[simp] theorem Dev.setWebState_pat (d : Dev) (n : Nat) : (d.setWebState n).pat = d.pat := rfl
@[simp] theorem Dev.setWebState_tmb (d : Dev) (n : Nat) : (d.setWebState n).tmb = d.tmb := rfl
@[simp] theorem Dev.setWebState_web (d : Dev) (n : Nat) : (d.setWebState n).web = d.web := rfl
@[simp] theorem Dev.setWebState_cdc (d : Dev) (n : Nat) : (d.setWebState n).cdc = d.cdc := rfl
@[simp] theorem Dev.setWebState_las (d : Dev) (n : Nat) : (d.setWebState n).las = d.las := rfl
@[simp] theorem Dev.setWebState_pace (d : Dev) (n : Nat) : (d.setWebState n).pace = d.pace := rfl
@[simp] theorem Dev.setWebState_hst (d : Dev) (n : Nat) : (d.setWebState n).hst = d.hst := rfl
@[simp] theorem Dev.setWebState_vlt (d : Dev) (n : Nat) : (d.setWebState n).vlt = d.vlt := rfl
@[simp] theorem Dev.setWebState_hl (d : Dev) (n : Nat) : (d.setWebState n).hl = d.hl := rfl
@[simp] theorem Dev.setWebState_unauth (d : Dev) (n : Nat) : (d.setWebState n).unauth = d.unauth := rfl
@[simp] theorem Dev.setWebState_ins (d : Dev) (n : Nat) : (d.setWebState n).ins = d.ins := rfl
@[simp] theorem Dev.setWebState_nzh (d : Dev) (n : Nat) : (d.setWebState n).nzh = d.nzh := rfl
@[simp] theorem Dev.setWebState_drm (d : Dev) (n : Nat) : (d.setWebState n).drm = d.drm := rfl
@[simp] theorem Dev.setWebState_mot (d : Dev) (n : Nat) : (d.setWebState n).mot = d.mot := rfl
@[simp] theorem Dev.setWebState_srv (d : Dev) (n : Nat) : (d.setWebState n).srv = d.srv := rfl
@[simp] theorem Dev.setWebState_trm (d : Dev) (n : Nat) : (d.setWebState n).trm = d.trm := rfl
@[simp] theorem Dev.setWebState_tap (d : Dev) (n : Nat) : (d.setWebState n).tap = d.tap := rfl

@[simp] theorem Dev.setReq_regs (d : Dev) (l p : Nat) (r : Option MgReq) : (d.setReq l p r).regs = d.regs := rfl
@[simp] theorem Dev.setReq_regsOpen (d : Dev) (l p : Nat) (r : Option MgReq) : (d.setReq l p r).regsOpen = d.regsOpen := rfl
@[simp] theorem Dev.setReq_snapD (d : Dev) (l p : Nat) (r : Option MgReq) : (d.setReq l p r).snapD = d.snapD := rfl
@[simp] theorem Dev.setReq_mem (d : Dev) (l p : Nat) (r : Option MgReq) : (d.setReq l p r).mem = d.mem := rfl
@[simp] theorem Dev.setReq_ue (d : Dev) (l p : Nat) (r : Option MgReq) : (d.setReq l p r).ue = d.ue := rfl
@[simp] theorem Dev.setReq_out (d : Dev) (l p : Nat) (r : Option MgReq) : (d.setReq l p r).out = d.out := rfl
@[simp] theorem Dev.setReq_raised (d : Dev) (l p : Nat) (r : Option MgReq) : (d.setReq l p r).raised = d.raised := rfl
@[simp] theorem Dev.setReq_tallies (d : Dev) (l p : Nat) (r : Option MgReq) : (d.setReq l p r).tallies = d.tallies := rfl
@[simp] theorem Dev.setReq_onceKeys (d : Dev) (l p : Nat) (r : Option MgReq) : (d.setReq l p r).onceKeys = d.onceKeys := rfl
@[simp] theorem Dev.setReq_freeCtr (d : Dev) (l p : Nat) (r : Option MgReq) : (d.setReq l p r).freeCtr = d.freeCtr := rfl
@[simp] theorem Dev.setReq_bus (d : Dev) (l p : Nat) (r : Option MgReq) : (d.setReq l p r).bus = d.bus := rfl
@[simp] theorem Dev.setReq_sys (d : Dev) (l p : Nat) (r : Option MgReq) : (d.setReq l p r).sys = d.sys := rfl
@[simp] theorem Dev.setReq_pat (d : Dev) (l p : Nat) (r : Option MgReq) : (d.setReq l p r).pat = d.pat := rfl
@[simp] theorem Dev.setReq_tmb (d : Dev) (l p : Nat) (r : Option MgReq) : (d.setReq l p r).tmb = d.tmb := rfl
@[simp] theorem Dev.setReq_web (d : Dev) (l p : Nat) (r : Option MgReq) : (d.setReq l p r).web = d.web := rfl
@[simp] theorem Dev.setReq_cdc (d : Dev) (l p : Nat) (r : Option MgReq) : (d.setReq l p r).cdc = d.cdc := rfl
@[simp] theorem Dev.setReq_las (d : Dev) (l p : Nat) (r : Option MgReq) : (d.setReq l p r).las = d.las := rfl
@[simp] theorem Dev.setReq_pace (d : Dev) (l p : Nat) (r : Option MgReq) : (d.setReq l p r).pace = d.pace := rfl
@[simp] theorem Dev.setReq_hst (d : Dev) (l p : Nat) (r : Option MgReq) : (d.setReq l p r).hst = d.hst := rfl
@[simp] theorem Dev.setReq_vlt (d : Dev) (l p : Nat) (r : Option MgReq) : (d.setReq l p r).vlt = d.vlt := rfl
@[simp] theorem Dev.setReq_hl (d : Dev) (l p : Nat) (r : Option MgReq) : (d.setReq l p r).hl = d.hl.modify l fun x => { x with reqs := x.reqs.set p r } := rfl
@[simp] theorem Dev.setReq_unauth (d : Dev) (l p : Nat) (r : Option MgReq) : (d.setReq l p r).unauth = d.unauth := rfl
@[simp] theorem Dev.setReq_ins (d : Dev) (l p : Nat) (r : Option MgReq) : (d.setReq l p r).ins = d.ins := rfl
@[simp] theorem Dev.setReq_nzh (d : Dev) (l p : Nat) (r : Option MgReq) : (d.setReq l p r).nzh = d.nzh := rfl
@[simp] theorem Dev.setReq_drm (d : Dev) (l p : Nat) (r : Option MgReq) : (d.setReq l p r).drm = d.drm := rfl
@[simp] theorem Dev.setReq_mot (d : Dev) (l p : Nat) (r : Option MgReq) : (d.setReq l p r).mot = d.mot := rfl
@[simp] theorem Dev.setReq_srv (d : Dev) (l p : Nat) (r : Option MgReq) : (d.setReq l p r).srv = d.srv := rfl
@[simp] theorem Dev.setReq_trm (d : Dev) (l p : Nat) (r : Option MgReq) : (d.setReq l p r).trm = d.trm := rfl
@[simp] theorem Dev.setReq_tap (d : Dev) (l p : Nat) (r : Option MgReq) : (d.setReq l p r).tap = d.tap := rfl

@[simp] theorem Dev.setCheck_regs (d : Dev) (l : Nat) (c : HeadCheck) : (d.setCheck l c).regs = d.regs := rfl
@[simp] theorem Dev.setCheck_regsOpen (d : Dev) (l : Nat) (c : HeadCheck) : (d.setCheck l c).regsOpen = d.regsOpen := rfl
@[simp] theorem Dev.setCheck_snapD (d : Dev) (l : Nat) (c : HeadCheck) : (d.setCheck l c).snapD = d.snapD := rfl
@[simp] theorem Dev.setCheck_mem (d : Dev) (l : Nat) (c : HeadCheck) : (d.setCheck l c).mem = d.mem := rfl
@[simp] theorem Dev.setCheck_ue (d : Dev) (l : Nat) (c : HeadCheck) : (d.setCheck l c).ue = d.ue := rfl
@[simp] theorem Dev.setCheck_out (d : Dev) (l : Nat) (c : HeadCheck) : (d.setCheck l c).out = d.out := rfl
@[simp] theorem Dev.setCheck_raised (d : Dev) (l : Nat) (c : HeadCheck) : (d.setCheck l c).raised = d.raised := rfl
@[simp] theorem Dev.setCheck_tallies (d : Dev) (l : Nat) (c : HeadCheck) : (d.setCheck l c).tallies = d.tallies := rfl
@[simp] theorem Dev.setCheck_onceKeys (d : Dev) (l : Nat) (c : HeadCheck) : (d.setCheck l c).onceKeys = d.onceKeys := rfl
@[simp] theorem Dev.setCheck_freeCtr (d : Dev) (l : Nat) (c : HeadCheck) : (d.setCheck l c).freeCtr = d.freeCtr := rfl
@[simp] theorem Dev.setCheck_bus (d : Dev) (l : Nat) (c : HeadCheck) : (d.setCheck l c).bus = d.bus := rfl
@[simp] theorem Dev.setCheck_sys (d : Dev) (l : Nat) (c : HeadCheck) : (d.setCheck l c).sys = d.sys := rfl
@[simp] theorem Dev.setCheck_pat (d : Dev) (l : Nat) (c : HeadCheck) : (d.setCheck l c).pat = d.pat := rfl
@[simp] theorem Dev.setCheck_tmb (d : Dev) (l : Nat) (c : HeadCheck) : (d.setCheck l c).tmb = d.tmb := rfl
@[simp] theorem Dev.setCheck_web (d : Dev) (l : Nat) (c : HeadCheck) : (d.setCheck l c).web = d.web := rfl
@[simp] theorem Dev.setCheck_cdc (d : Dev) (l : Nat) (c : HeadCheck) : (d.setCheck l c).cdc = d.cdc := rfl
@[simp] theorem Dev.setCheck_las (d : Dev) (l : Nat) (c : HeadCheck) : (d.setCheck l c).las = d.las := rfl
@[simp] theorem Dev.setCheck_pace (d : Dev) (l : Nat) (c : HeadCheck) : (d.setCheck l c).pace = d.pace := rfl
@[simp] theorem Dev.setCheck_hst (d : Dev) (l : Nat) (c : HeadCheck) : (d.setCheck l c).hst = d.hst := rfl
@[simp] theorem Dev.setCheck_vlt (d : Dev) (l : Nat) (c : HeadCheck) : (d.setCheck l c).vlt = d.vlt := rfl
@[simp] theorem Dev.setCheck_hl (d : Dev) (l : Nat) (c : HeadCheck) : (d.setCheck l c).hl = d.hl.modify l fun x => { x with check := some c } := rfl
@[simp] theorem Dev.setCheck_unauth (d : Dev) (l : Nat) (c : HeadCheck) : (d.setCheck l c).unauth = d.unauth := rfl
@[simp] theorem Dev.setCheck_ins (d : Dev) (l : Nat) (c : HeadCheck) : (d.setCheck l c).ins = d.ins := rfl
@[simp] theorem Dev.setCheck_nzh (d : Dev) (l : Nat) (c : HeadCheck) : (d.setCheck l c).nzh = d.nzh := rfl
@[simp] theorem Dev.setCheck_drm (d : Dev) (l : Nat) (c : HeadCheck) : (d.setCheck l c).drm = d.drm := rfl
@[simp] theorem Dev.setCheck_mot (d : Dev) (l : Nat) (c : HeadCheck) : (d.setCheck l c).mot = d.mot := rfl
@[simp] theorem Dev.setCheck_srv (d : Dev) (l : Nat) (c : HeadCheck) : (d.setCheck l c).srv = d.srv := rfl
@[simp] theorem Dev.setCheck_trm (d : Dev) (l : Nat) (c : HeadCheck) : (d.setCheck l c).trm = d.trm := rfl
@[simp] theorem Dev.setCheck_tap (d : Dev) (l : Nat) (c : HeadCheck) : (d.setCheck l c).tap = d.tap := rfl

@[simp] theorem Dev.setSnap_regs (d : Dev) (p : Nat) (f : SnapJob → SnapJob) : (d.setSnap p f).regs = d.regs := rfl
@[simp] theorem Dev.setSnap_regsOpen (d : Dev) (p : Nat) (f : SnapJob → SnapJob) : (d.setSnap p f).regsOpen = d.regsOpen := rfl
@[simp] theorem Dev.setSnap_snapD (d : Dev) (p : Nat) (f : SnapJob → SnapJob) : (d.setSnap p f).snapD = d.snapD := rfl
@[simp] theorem Dev.setSnap_mem (d : Dev) (p : Nat) (f : SnapJob → SnapJob) : (d.setSnap p f).mem = d.mem := rfl
@[simp] theorem Dev.setSnap_ue (d : Dev) (p : Nat) (f : SnapJob → SnapJob) : (d.setSnap p f).ue = d.ue := rfl
@[simp] theorem Dev.setSnap_out (d : Dev) (p : Nat) (f : SnapJob → SnapJob) : (d.setSnap p f).out = d.out := rfl
@[simp] theorem Dev.setSnap_raised (d : Dev) (p : Nat) (f : SnapJob → SnapJob) : (d.setSnap p f).raised = d.raised := rfl
@[simp] theorem Dev.setSnap_tallies (d : Dev) (p : Nat) (f : SnapJob → SnapJob) : (d.setSnap p f).tallies = d.tallies := rfl
@[simp] theorem Dev.setSnap_onceKeys (d : Dev) (p : Nat) (f : SnapJob → SnapJob) : (d.setSnap p f).onceKeys = d.onceKeys := rfl
@[simp] theorem Dev.setSnap_freeCtr (d : Dev) (p : Nat) (f : SnapJob → SnapJob) : (d.setSnap p f).freeCtr = d.freeCtr := rfl
@[simp] theorem Dev.setSnap_bus (d : Dev) (p : Nat) (f : SnapJob → SnapJob) : (d.setSnap p f).bus = d.bus := rfl
@[simp] theorem Dev.setSnap_sys (d : Dev) (p : Nat) (f : SnapJob → SnapJob) : (d.setSnap p f).sys = d.sys := rfl
@[simp] theorem Dev.setSnap_pat (d : Dev) (p : Nat) (f : SnapJob → SnapJob) : (d.setSnap p f).pat = d.pat := rfl
@[simp] theorem Dev.setSnap_tmb (d : Dev) (p : Nat) (f : SnapJob → SnapJob) : (d.setSnap p f).tmb = d.tmb := rfl
@[simp] theorem Dev.setSnap_web (d : Dev) (p : Nat) (f : SnapJob → SnapJob) : (d.setSnap p f).web = d.web := rfl
@[simp] theorem Dev.setSnap_cdc (d : Dev) (p : Nat) (f : SnapJob → SnapJob) : (d.setSnap p f).cdc = d.cdc := rfl
@[simp] theorem Dev.setSnap_las (d : Dev) (p : Nat) (f : SnapJob → SnapJob) : (d.setSnap p f).las = d.las := rfl
@[simp] theorem Dev.setSnap_pace (d : Dev) (p : Nat) (f : SnapJob → SnapJob) : (d.setSnap p f).pace = d.pace := rfl
@[simp] theorem Dev.setSnap_hst (d : Dev) (p : Nat) (f : SnapJob → SnapJob) : (d.setSnap p f).hst = { d.hst with ports := d.hst.ports.modify p fun h => { h with snap := f h.snap } } := rfl
@[simp] theorem Dev.setSnap_vlt (d : Dev) (p : Nat) (f : SnapJob → SnapJob) : (d.setSnap p f).vlt = d.vlt := rfl
@[simp] theorem Dev.setSnap_hl (d : Dev) (p : Nat) (f : SnapJob → SnapJob) : (d.setSnap p f).hl = d.hl := rfl
@[simp] theorem Dev.setSnap_unauth (d : Dev) (p : Nat) (f : SnapJob → SnapJob) : (d.setSnap p f).unauth = d.unauth := rfl
@[simp] theorem Dev.setSnap_ins (d : Dev) (p : Nat) (f : SnapJob → SnapJob) : (d.setSnap p f).ins = d.ins := rfl
@[simp] theorem Dev.setSnap_nzh (d : Dev) (p : Nat) (f : SnapJob → SnapJob) : (d.setSnap p f).nzh = d.nzh := rfl
@[simp] theorem Dev.setSnap_drm (d : Dev) (p : Nat) (f : SnapJob → SnapJob) : (d.setSnap p f).drm = d.drm := rfl
@[simp] theorem Dev.setSnap_mot (d : Dev) (p : Nat) (f : SnapJob → SnapJob) : (d.setSnap p f).mot = d.mot := rfl
@[simp] theorem Dev.setSnap_srv (d : Dev) (p : Nat) (f : SnapJob → SnapJob) : (d.setSnap p f).srv = d.srv := rfl
@[simp] theorem Dev.setSnap_trm (d : Dev) (p : Nat) (f : SnapJob → SnapJob) : (d.setSnap p f).trm = d.trm := rfl
@[simp] theorem Dev.setSnap_tap (d : Dev) (p : Nat) (f : SnapJob → SnapJob) : (d.setSnap p f).tap = d.tap := rfl

@[simp] theorem Dev.logAer_regs (d : Dev) (p : Fin 2) (a : Answer) : (d.logAer p a).regs = d.regs := rfl
@[simp] theorem Dev.logAer_regsOpen (d : Dev) (p : Fin 2) (a : Answer) : (d.logAer p a).regsOpen = d.regsOpen := rfl
@[simp] theorem Dev.logAer_snapD (d : Dev) (p : Fin 2) (a : Answer) : (d.logAer p a).snapD = d.snapD := rfl
@[simp] theorem Dev.logAer_mem (d : Dev) (p : Fin 2) (a : Answer) : (d.logAer p a).mem = d.mem := rfl
@[simp] theorem Dev.logAer_ue (d : Dev) (p : Fin 2) (a : Answer) : (d.logAer p a).ue = d.ue := rfl
@[simp] theorem Dev.logAer_out (d : Dev) (p : Fin 2) (a : Answer) : (d.logAer p a).out = d.out ++ [.aer p a] := rfl
@[simp] theorem Dev.logAer_raised (d : Dev) (p : Fin 2) (a : Answer) : (d.logAer p a).raised = d.raised := rfl
@[simp] theorem Dev.logAer_tallies (d : Dev) (p : Fin 2) (a : Answer) : (d.logAer p a).tallies = d.tallies := rfl
@[simp] theorem Dev.logAer_onceKeys (d : Dev) (p : Fin 2) (a : Answer) : (d.logAer p a).onceKeys = d.onceKeys := rfl
@[simp] theorem Dev.logAer_freeCtr (d : Dev) (p : Fin 2) (a : Answer) : (d.logAer p a).freeCtr = d.freeCtr := rfl
@[simp] theorem Dev.logAer_bus (d : Dev) (p : Fin 2) (a : Answer) : (d.logAer p a).bus = d.bus := rfl
@[simp] theorem Dev.logAer_sys (d : Dev) (p : Fin 2) (a : Answer) : (d.logAer p a).sys = d.sys := rfl
@[simp] theorem Dev.logAer_pat (d : Dev) (p : Fin 2) (a : Answer) : (d.logAer p a).pat = d.pat := rfl
@[simp] theorem Dev.logAer_tmb (d : Dev) (p : Fin 2) (a : Answer) : (d.logAer p a).tmb = d.tmb := rfl
@[simp] theorem Dev.logAer_web (d : Dev) (p : Fin 2) (a : Answer) : (d.logAer p a).web = d.web := rfl
@[simp] theorem Dev.logAer_cdc (d : Dev) (p : Fin 2) (a : Answer) : (d.logAer p a).cdc = d.cdc := rfl
@[simp] theorem Dev.logAer_las (d : Dev) (p : Fin 2) (a : Answer) : (d.logAer p a).las = d.las := rfl
@[simp] theorem Dev.logAer_pace (d : Dev) (p : Fin 2) (a : Answer) : (d.logAer p a).pace = d.pace := rfl
@[simp] theorem Dev.logAer_hst (d : Dev) (p : Fin 2) (a : Answer) : (d.logAer p a).hst = { d.hst with ports := d.hst.ports.modify p fun h => { h with aerStatus := Nat.lor h.aerStatus (2 ^ aerBit a) } } := rfl
@[simp] theorem Dev.logAer_vlt (d : Dev) (p : Fin 2) (a : Answer) : (d.logAer p a).vlt = d.vlt := rfl
@[simp] theorem Dev.logAer_hl (d : Dev) (p : Fin 2) (a : Answer) : (d.logAer p a).hl = d.hl := rfl
@[simp] theorem Dev.logAer_unauth (d : Dev) (p : Fin 2) (a : Answer) : (d.logAer p a).unauth = d.unauth := rfl
@[simp] theorem Dev.logAer_ins (d : Dev) (p : Fin 2) (a : Answer) : (d.logAer p a).ins = d.ins := rfl
@[simp] theorem Dev.logAer_nzh (d : Dev) (p : Fin 2) (a : Answer) : (d.logAer p a).nzh = d.nzh := rfl
@[simp] theorem Dev.logAer_drm (d : Dev) (p : Fin 2) (a : Answer) : (d.logAer p a).drm = d.drm := rfl
@[simp] theorem Dev.logAer_mot (d : Dev) (p : Fin 2) (a : Answer) : (d.logAer p a).mot = d.mot := rfl
@[simp] theorem Dev.logAer_srv (d : Dev) (p : Fin 2) (a : Answer) : (d.logAer p a).srv = d.srv := rfl
@[simp] theorem Dev.logAer_trm (d : Dev) (p : Fin 2) (a : Answer) : (d.logAer p a).trm = d.trm := rfl
@[simp] theorem Dev.logAer_tap (d : Dev) (p : Fin 2) (a : Answer) : (d.logAer p a).tap = d.tap := rfl

/-! ### What an event adds -/

theorem Dev.portSecure_congr {d e : Dev} (p : Fin 2) (h : e.pat = d.pat) : e.portSecure p = d.portSecure p := by
  simp [Dev.portSecure, h]

end Sys2Proof.Machine
end

