-- ==== Sys2Proof/Laws/Ops.lean ====
section
/-!
SUPPORT. One lemma for each shared operation that says everything it can do: fields set and counted, register writes, free values,
events, the checks of a register access, and DRAM reads and writes.
-/

namespace Sys2Proof.Machine

/-! ### Commands -/

@[simp] theorem State.act_next (s : State) (f : Dev → Dev) : s.act f = .next { s with dev := f s.dev } := rfl

@[simp] theorem State.actInOrder_next (s : State) (f : Dev → Dev) :
    s.actInOrder f = .next { s with dev := (f s.dev).orderEvents s.dev.raised.length } := rfl

theorem insertEv_length (e : Ev) (l : List Ev) : (insertEv e l).length = l.length + 1 := by
  induction l with
  | nil => rfl
  | cons f r ih => unfold insertEv; split <;> simp [ih]

/-- Ordering the events of a command leaves none out and adds none. -/
theorem Dev.orderEvents_length (d : Dev) (n : Nat) : (d.orderEvents n).raised.length = d.raised.length := by
  have h : ∀ (l acc : List Ev), (l.foldl (fun l e => insertEv e l) acc).length = l.length + acc.length := by
    intro l
    induction l with
    | nil => simp
    | cons e l ih => intro acc; rw [List.foldl_cons, ih, insertEv_length, List.length_cons]; omega
  simp only [Dev.orderEvents, List.length_append, h, List.length_take, List.length_drop, List.length_nil]
  omega

/-- A command that posts nothing, or one event, leaves the order as it is. -/
theorem Dev.orderEvents_none {d : Dev} {n : Nat} (h : d.raised.length ≤ n) : d.orderEvents n = d := by
  simp only [Dev.orderEvents, List.drop_eq_nil_of_le h, List.take_of_length_le h, List.foldl_nil, List.append_nil]

theorem Dev.orderEvents_one {d : Dev} {l : List Ev} {e : Ev} (h : d.raised = l ++ [e]) : d.orderEvents l.length = d := by
  have : d.raised.take l.length ++ (d.raised.drop l.length).foldl (fun l e => insertEv e l) [] = d.raised := by
    rw [h, List.take_left, List.drop_left]; rfl
  simp only [Dev.orderEvents, this]

/-- Two events go with the lower code first. -/
theorem Dev.orderEvents_two {d : Dev} {l : List Ev} {e f : Ev} (h : d.raised = l ++ [e, f]) :
    (d.orderEvents l.length).raised = l ++ if f.code < e.code then [f, e] else [e, f] := by
  simp only [Dev.orderEvents, h, List.take_left, List.drop_left, List.foldl_cons, List.foldl_nil, insertEv]

/-! ### Fields -/

/-- A field is read from the register map alone. -/
theorem Dev.rd_congr {d e : Dev} (f : Fld) (i : Nat) (h : e.regs = d.regs) : e.rd f i = d.rd f i := by
  simp only [Dev.rd, Dev.reg, h]

theorem Dev.rd_lt (d : Dev) (f : Fld) (i : Nat) : d.rd f i < 2 ^ f.w := fieldOf_lt _ _ _

theorem Dev.rd_wrB_self (d : Dev) (f : Fld) (i : Nat) (b : Bool) (hf : f.lo + f.w ≤ 64) (hw : 0 < f.w) (h : keysRising 0 d.regs = true) :
    (d.wrB f i b).rd f i = if b then 1 else 0 := by
  rw [Dev.wrB, Dev.rd_wr_self d f i _ hf h]
  have : 2 ≤ 2 ^ f.w := Nat.le_self_pow (by omega) 2
  cases b <;> simp [Nat.mod_eq_of_lt this]

theorem Fld.sum_lt (f : Fld) (a : Nat) (n : Int) : f.sum a n < 2 ^ f.w := by
  have h : (0 : Int) < 2 ^ f.w := Int.pow_pos (by decide)
  have c : ((2 ^ f.w : Nat) : Int) = 2 ^ f.w := by simp
  unfold Fld.sum
  split
  · simp only [clampInt]; omega
  · have := Int.emod_lt_of_pos (a + n) h
    have := Int.emod_nonneg (a + n) (ne_of_gt h)
    omega

/-- A counter reads the old count and n more, under its wrap or saturation. -/
theorem Dev.rd_bump_self (d : Dev) (f : Fld) (i n : Nat) (hf : f.lo + f.w ≤ 64) (h : keysRising 0 d.regs = true) :
    (d.bump f i n).rd f i = f.sum (d.rd f i) n := by
  rw [Dev.bump, Dev.rd_wr_self d f i _ hf h, Nat.mod_eq_of_lt (Fld.sum_lt _ _ _)]

theorem Dev.rd_bump_ne (d : Dev) (f g : Fld) (i j n : Nat) (h : g.reg.addr j ≠ f.reg.addr i) : (d.bump f i n).rd g j = d.rd g j :=
  Dev.rd_wr_ne d f g i j _ h

theorem Dev.rd_wrS_ne (d : Dev) (f g : Fld) (i j : Nat) (v : Int) (h : g.reg.addr j ≠ f.reg.addr i) : (d.wrS f i v).rd g j = d.rd g j :=
  Dev.rd_wr_ne d f g i j _ h

theorem Dev.rd_wrB_ne (d : Dev) (f g : Fld) (i j : Nat) (b : Bool) (h : g.reg.addr j ≠ f.reg.addr i) : (d.wrB f i b).rd g j = d.rd g j :=
  Dev.rd_wr_ne d f g i j _ h

theorem Dev.rd_wrBit_ne (d : Dev) (f g : Fld) (b i j : Nat) (v : Bool) (h : g.reg.addr j ≠ f.reg.addr i) :
    (d.wrBit f b i v).rd g j = d.rd g j := Dev.rd_wr_ne d f g i j _ h

/-! ### Register writes -/

/-- A write of a register by its fields' types leaves every other register. -/
theorem Dev.regWrite_reg_ne (d : Dev) (row : Row) (i v mask : Nat) (r : Reg) (j : Nat) (h : r.addr j ≠ row.reg.addr i) :
    (d.regWrite row i v mask).reg r j = d.reg r j := Dev.reg_setReg_ne _ _ _ _ _ _ h

theorem Dev.regWrite_rising (d : Dev) (row : Row) (i v mask : Nat) (h : keysRising 0 d.regs = true) :
    keysRising 0 (d.regWrite row i v mask).regs = true := Dev.setReg_rising _ _ _ _ h

/-- A store of a register is the write of the row found at its address, or nothing. -/
theorem Dev.store_rising (d : Dev) (r : Reg) (i v mask : Nat) (h : keysRising 0 d.regs = true) :
    keysRising 0 (d.store r i v mask).regs = true := by
  unfold Dev.store
  split
  · exact Dev.regWrite_rising _ _ _ _ _ h
  · exact h

/-! ### Free values -/

/-- A free value is below its bound, and nothing changes but the counter. -/
theorem Dev.free_spec (d : Dev) (n : Nat) (hn : 0 < n) : (d.free n).1 < n ∧ (d.free n).2 = { d with freeCtr := d.freeCtr + 1 } :=
  ⟨Nat.mod_lt _ hn, rfl⟩

/-! ### Events -/

/-- The summary of an event sets at most one bit of SYS_FAULT_STAT. -/
theorem Dev.summary_cases (d : Dev) (code : Nat) (p : List Byte) :
    d.summary code p = d ∨ d.summary code p = d.wr F.SYS_FAULT_STAT_LINE_LOSS 0 1 ∨
    d.summary code p = d.wr F.SYS_FAULT_STAT_AXIS 0 1 ∨ d.summary code p = d.wr F.SYS_FAULT_STAT_INSPECTION 0 1 := by
  unfold Dev.summary
  split
  · simp
  · split
    · simp
    · split <;> simp

theorem Dev.summary_rising (d : Dev) (code : Nat) (p : List Byte) (h : keysRising 0 d.regs = true) :
    keysRising 0 (d.summary code p).regs = true := by
  rcases Dev.summary_cases d code p with e | e | e | e <;> rw [e]
  · exact h
  all_goals exact Dev.wr_rising _ _ _ _ h

theorem Dev.rd_summary_ne (d : Dev) (code : Nat) (p : List Byte) (g : Fld) (j : Nat) (h : g.reg.addr j ≠ R.SYS_FAULT_STAT.addr 0) :
    (d.summary code p).rd g j = d.rd g j := by
  rcases Dev.summary_cases d code p with e | e | e | e <;> rw [e]
  all_goals exact Dev.rd_wr_ne _ _ _ _ _ _ h

/-- Posting appends one event: its code, its addressees, its beat, STEPS and its payload. -/
theorem Dev.raiseAt_raised_eq (d : Dev) (t : Dest) (code beat : Nat) (p : List (Nat × Nat)) :
    ∃ p0 p1 steps, (d.raiseAt t code beat p).raised = d.raised ++ [⟨code, p0, p1, beat, steps, pack p⟩] :=
  ⟨_, _, _, by simp only [Dev.raiseAt, Dev.summary_raised]; rfl⟩

theorem Dev.raiseAt_rising (d : Dev) (t : Dest) (code beat : Nat) (p : List (Nat × Nat)) (h : keysRising 0 d.regs = true) :
    keysRising 0 (d.raiseAt t code beat p).regs = true := Dev.summary_rising d code _ h

theorem Dev.raise_rising (d : Dev) (t : Dest) (code : Nat) (p : List (Nat × Nat)) (h : keysRising 0 d.regs = true) :
    keysRising 0 (d.raise t code p).regs = true := Dev.raiseAt_rising d t code _ p h

/-- Posting leaves every register but SYS_FAULT_STAT. -/
theorem Dev.rd_raise_ne (d : Dev) (t : Dest) (code : Nat) (p : List (Nat × Nat)) (g : Fld) (j : Nat)
    (h : g.reg.addr j ≠ R.SYS_FAULT_STAT.addr 0) : (d.raise t code p).rd g j = d.rd g j :=
  (Dev.rd_congr g j rfl).trans (Dev.rd_summary_ne d code _ g j h)

theorem Dev.postTally_rising (d : Dev) (g : Tally) (h : keysRising 0 d.regs = true) : keysRising 0 (d.postTally g).regs = true := by
  rw [Dev.postTally_regs]; exact Dev.summary_rising d _ _ h

theorem Dev.raiseOnce_rising (d : Dev) (t : Dest) (code key : Nat) (p : List (Nat × Nat)) (h : keysRising 0 d.regs = true) :
    keysRising 0 (d.raiseOnce t code key p).regs = true := by
  unfold Dev.raiseOnce
  split
  · exact h
  · exact Dev.raise_rising d t code p h

/-! ### Register accesses -/

/-- A write to a register with a row of its own does one of four things (R31): nothing heard; its effect; a write without meaning;
or a refusal. -/
theorem Dev.writeTo_cases (d : Dev) (m : Master) (r : Reg) (i : Nat) (f : Dev → Dev) :
    (d.hears m = false ∧ d.writeTo m r i f = d) ∨
    (d.hears m = true ∧ d.regCheck m (r.addr i) = .pass ∧ d.writeTo m r i f = f (d.touch m)) ∨
    (d.hears m = true ∧ d.regCheck m (r.addr i) = .meaningless ∧ d.writeTo m r i f = d.touch m) ∨
    (d.hears m = true ∧ (d.regCheck m (r.addr i) = .unmapped ∨ d.regCheck m (r.addr i) = .world) ∧
      d.writeTo m r i f = d.refuse m true (d.regCheck m (r.addr i)) (r.addr i)) := by
  unfold Dev.writeTo
  cases hh : d.hears m
  · exact .inl ⟨rfl, rfl⟩
  · cases hc : d.regCheck m (r.addr i) <;> simp

/-! ### DRAM -/

theorem Dev.noteUe_mem (d : Dev) (g req : Nat) (h : Option (Fin 2)) : (d.noteUe g req h).mem = d.mem := by
  simp only [Dev.noteUe, Dev.tally_mem, Dev.wr_mem, Dev.count_mem]

theorem Dev.noteUe_rising (d : Dev) (g req : Nat) (h : Option (Fin 2)) (hr : keysRising 0 d.regs = true) :
    keysRising 0 (d.noteUe g req h).regs = true :=
  by rw [Dev.noteUe, Dev.tally_regs]; exact Dev.wr_rising _ _ _ _ (Dev.wr_rising _ _ _ _ (Dev.wr_rising _ _ _ _ hr))

/-- Moving a granule touches the arbiters and the bank predictors alone. -/
theorem Dev.moveGranule_eq (d : Dev) (req g : Nat) : d.moveGranule req g = { d with drm := (d.moveGranule req g).drm } := rfl

@[simp] theorem Dev.moveGranule_fetched (d : Dev) (req g : Nat) : (d.moveGranule req g).drm.fetched = d.drm.fetched := rfl

/-- Taking a granule changes no byte, keeps the register map's form, and without a granule read before tells no miscorrected word. -/
theorem Dev.takeGranule_spec (d : Dev) (req : Nat) (host : Option (Fin 2)) (g : Nat) :
    (d.takeGranule req host g).2.mem = d.mem ∧
    (keysRising 0 d.regs = true → keysRising 0 (d.takeGranule req host g).2.regs = true) ∧
    (d.drm.fetched = [] → (d.takeGranule req host g).1 = [] ∧ (d.takeGranule req host g).2.drm.fetched = []) := by
  unfold Dev.takeGranule
  split
  · rename_i f hf
    exact ⟨rfl, id, fun h => by rw [h] at hf; simp at hf⟩
  · simp only
    split
    · exact ⟨(Dev.noteUe_mem ..).trans rfl, fun h => Dev.noteUe_rising _ _ _ _ h,
        fun h => ⟨trivial, by simp only [Dev.noteUe, Dev.tally_drm, Dev.wr_drm, Dev.count_drm, Dev.moveGranule_fetched, h]⟩⟩
    · exact ⟨rfl, id, fun h => ⟨trivial, h⟩⟩

/-- The same for the granules of a range, one after another. -/
theorem Dev.takeAll_spec (req : Nat) (host : Option (Fin 2)) (gs : List Nat) (r : List Nat × Dev) :
    let r' := gs.foldl (fun (r : List Nat × Dev) g =>
      let (ws, d) := r.2.takeGranule req host g
      (r.1 ++ ws, d)) r
    r'.2.mem = r.2.mem ∧ (keysRising 0 r.2.regs = true → keysRising 0 r'.2.regs = true) ∧ (r.2.drm.fetched = [] → r'.1 = r.1) := by
  induction gs generalizing r with
  | nil => exact ⟨rfl, id, fun _ => rfl⟩
  | cons g gs ih =>
    have h := Dev.takeGranule_spec r.2 req host g
    have k := ih (r.1 ++ (r.2.takeGranule req host g).1, (r.2.takeGranule req host g).2)
    refine ⟨k.1.trans h.1, fun hr => k.2.1 (h.2.1 hr), fun hf => ?_⟩
    rw [List.foldl_cons, k.2.2 (h.2.2 hf).2, (h.2.2 hf).1, List.append_nil]

/-- Bytes read back: the counter of free values alone moves, and with no miscorrected word they are the stored ones. -/
theorem Dev.misread_spec (d : Dev) (a len : Nat) (ws : List Nat) :
    (d.misread a len ws).2.mem = d.mem ∧ (d.misread a len ws).2.regs = d.regs ∧ (ws = [] → d.misread a len ws = (d.bytes a len, d)) := by
  induction ws generalizing d with
  | nil => exact ⟨rfl, rfl, fun _ => rfl⟩
  | cons w ws ih =>
    have h := ih (d.free (2 ^ 128)).2
    exact ⟨h.1, h.2.1, fun e => by cases e⟩

/-- A DRAM read changes no byte and keeps the register map's form; without granule reads before, it answers the stored bytes. -/
theorem Dev.dramRead_spec (d : Dev) (req : Nat) (secure : Bool) (host : Option (Fin 2)) (a len : Nat) :
    (d.dramRead req secure host a len).2.mem = d.mem ∧
    (keysRising 0 d.regs = true → keysRising 0 (d.dramRead req secure host a len).2.regs = true) ∧
    (∀ bs, (d.dramRead req secure host a len).1 = .ok bs → d.drm.fetched = [] → bs = d.bytes a len) := by
  unfold Dev.dramRead
  split
  · exact ⟨rfl, id, fun _ h => by cases h⟩
  · exact ⟨by simp [Dev.worldViolation], fun h => Dev.raise_rising _ _ _ _ h, fun _ h => by cases h⟩
  · have k := Dev.takeAll_spec req host (granules a len) ([], d)
    simp only at k ⊢
    generalize (granules a len).foldl _ ([], d) = r at k ⊢
    obtain ⟨ws, e⟩ := r
    simp only at k ⊢
    split
    · exact ⟨k.1, k.2.1, fun _ h => by cases h⟩
    · have m := Dev.misread_spec e a len ws
      refine ⟨m.1.trans k.1, fun h => m.2.1 ▸ k.2.1 h, fun bs h hf => ?_⟩
      rw [m.2.2 (k.2.2 hf)] at h
      cases h
      simp only [Dev.bytes, Dev.byte, k.1]

theorem Dev.storeWrong_wf (ws : List Nat) (d : Dev) (h : Memory.wf d.mem = true ∧ keysRising 0 d.regs = true) :
    Memory.wf (d.storeWrong ws).mem = true ∧ keysRising 0 (d.storeWrong ws).regs = true := by
  induction ws generalizing d with
  | nil => exact h
  | cons w ws ih =>
    have k : Memory.wf (d.free (2 ^ 128)).2.mem = true ∧ keysRising 0 (d.free (2 ^ 128)).2.regs = true := h
    unfold Dev.storeWrong
    generalize d.free (2 ^ 128) = x at k ⊢
    exact ih _ ⟨Dev.setBytes_wf x.2 _ _ k.1, k.2⟩

theorem Dev.putGranule_wf (d : Dev) (a : Nat) (bs : List Byte) (g : Nat) (h : Memory.wf d.mem = true ∧ keysRising 0 d.regs = true) :
    Memory.wf (d.putGranule a bs g).mem = true ∧ keysRising 0 (d.putGranule a bs g).regs = true :=
  ⟨Dev.setBytes_wf d _ _ h.1, h.2⟩

/-- A write of a granule keeps the canonical form of memory and the register map's form. -/
theorem Dev.writeGranule_wf (d : Dev) (req : Nat) (host : Option (Fin 2)) (a : Nat) (bs : List Byte) (g : Nat)
    (h : Memory.wf d.mem = true ∧ keysRising 0 d.regs = true) :
    Memory.wf (d.writeGranule req host a bs g).2.mem = true ∧ keysRising 0 (d.writeGranule req host a bs g).2.regs = true := by
  have t := Dev.takeGranule_spec d req host g
  have k : Memory.wf (d.takeGranule req host g).2.mem = true ∧ keysRising 0 (d.takeGranule req host g).2.regs = true :=
    ⟨by rw [t.1]; exact h.1, t.2.1 h.2⟩
  unfold Dev.writeGranule
  split
  · exact Dev.putGranule_wf _ _ _ _ h
  · simp only
    split
    · exact Dev.putGranule_wf _ _ _ _ (Dev.storeWrong_wf _ _ k)
    · exact k

/-- A DRAM write keeps the canonical form of memory and the register map's form. -/
theorem Dev.dramWrite_wf (d : Dev) (req : Nat) (secure : Bool) (host : Option (Fin 2)) (a : Nat) (bs : List Byte)
    (h : Memory.wf d.mem = true ∧ keysRising 0 d.regs = true) :
    Memory.wf (d.dramWrite req secure host a bs).2.mem = true ∧ keysRising 0 (d.dramWrite req secure host a bs).2.regs = true := by
  unfold Dev.dramWrite
  split
  · exact h
  unfold Dev.dramStore
  split
  · exact h
  · exact ⟨by simpa [Dev.worldViolation] using h.1, Dev.raise_rising _ _ _ _ h.2⟩
  · have k : ∀ (gs : List Nat) (r : Mem Unit × Dev), Memory.wf r.2.mem = true ∧ keysRising 0 r.2.regs = true →
        let r' := gs.foldl (fun r g =>
          let (ok, d) := r.2.writeGranule req host a bs g
          (if ok then r.1 else (match r.1 with | .bad x => .bad x | _ => .bad g), d)) r
        Memory.wf r'.2.mem = true ∧ keysRising 0 r'.2.regs = true := by
      intro gs
      induction gs with
      | nil => exact fun _ h => h
      | cons g gs ih => exact fun r h => ih _ (Dev.writeGranule_wf r.2 req host a bs g h)
    exact k _ _ h

end Sys2Proof.Machine
end

