-- ==== Sys2Proof/Machine/Balls.lean ====
section
/-!
DEFINITION. Chapters 22 and 23 as far as they state facts that no command changes: the balls and their signals and rails, the reset states of the low-speed
balls, the reference clocks, the test access port and the electrical limits.
-/

namespace Sys2Proof.Machine

/-! ### Balls (R367) -/

/-- The row names in the order of their indices 1 to 46. -/
def rowNames : List String :=
  ["A", "B", "C", "D", "E", "F", "G", "H", "J", "K", "L", "M", "N", "P", "T", "U", "V", "W", "Y"] ++
  ["AA", "AB", "AC", "AD", "AE", "AF", "AG", "AH", "AJ", "AK", "AL", "AM", "AN", "AP", "AT", "AU", "AV", "AW", "AY"] ++
  ["BA", "BB", "BC", "BD", "BE", "BF", "BG", "BH"]

/-- A number in decimal, below 100. -/
def decimal (n : Nat) : String :=
  let digit := fun (k : Nat) => ["0", "1", "2", "3", "4", "5", "6", "7", "8", "9"].getD k ""
  if n < 10 then digit n else digit (n / 10) ++ digit (n % 10)

/-- A ball by its row index and its column, both from 1 to 46. -/
structure Ball where
  row : Nat
  col : Nat
deriving DecidableEq, Repr, Inhabited

/-- "The sum" of a ball. -/
def Ball.sum (b : Ball) : Nat := b.row + b.col

def Ball.name (b : Ball) : String := rowNames.getD (b.row - 1) "" ++ decimal b.col

def allBalls : List Ball := (List.range 46).flatMap fun r => (List.range 46).map fun c => ⟨r + 1, c + 1⟩

/-! ### Signals (R369 to R374) -/

/-- A low-speed signal (R374); `i` numbers the balls of a unit in the order of the table: A, B, I of a Q channel; A, B, C of a Hall input; AP, AN, BP,
BN of a stepper axis; UH, UL, VH, VL, WH, WL of a servo axis. -/
inductive LowPin where
  | quad (q i : Nat)
  | f0Step | f0Dir
  | absClk (a : Nat) | absData (a : Nat)
  | hall (h i : Nat)
  | pageCue | fireInhibit | errOut
  | mark (n : Nat)
  | stepper (n i : Nat)
  | servo (a i : Nat)
  | home (n : Nat) | endSwitch (n : Nat)
  | qspiClk | qspiCsn
  | qspiIo (i : Nat)
  | scl (k : Nat) | sda (k : Nat)
  | tck | tms | tdi | tdo | trstn
  | bootsel (i : Nat)
  | porn | rstn | ref25
  | strobe (c : Nat)
  | ain (i : Nat)
  | refin
deriving DecidableEq, Repr, Inhabited

/-- A signal of a ball. `neg` is the N ball of a pair. -/
inductive Pin where
  | link (n : Nat) (tx neg : Bool)
  /-- A camera's lane 0 to 3, or its clock lane. -/
  | cam (c : Nat) (lane : Option Nat) (neg : Bool)
  | dq (m i : Nat)
  | dqs (m k : Nat) (neg : Bool)
  | ca (m i : Nat)
  | csn (m rank : Nat)
  | ck (m : Nat) (neg : Bool)
  | resetn (m : Nat)
  | alertn (m : Nat)
  | zq (m : Nat)
  | pcie (p lane : Nat) (tx neg : Bool)
  | refclk (p : Nat) (neg : Bool)
  | perstn (p : Nat)
  | eth (e : Nat) (tx neg : Bool)
  | linkref (neg : Bool)
  /-- A ball of R374. -/
  | low (p : LowPin)
deriving DecidableEq, Repr, Inhabited

/-- Rows from index `r` on: offset of a ball's row among n of them. -/
def rowOf (b : Ball) (r n : Nat) : Option Nat := if r ≤ b.row ∧ b.row < r + n then some (b.row - r) else none

/-- A head link's balls (R369): TX in the outermost row, then VSS, RX and VSS. -/
def linkPin (b : Ball) : Option Pin :=
  if 8 ≤ b.col ∧ b.col ≤ 39 then
    let n := (b.col - 8) / 2
    let neg := b.col % 2 = 1
    if b.row = 1 then some (.link n true neg) else if b.row = 3 then some (.link n false neg)
    else if b.row = 46 then some (.link (n + 16) true neg) else if b.row = 44 then some (.link (n + 16) false neg)
    else none
  else none

/-- A camera's balls (R370): data lanes 0 and 1, the clock lane, data lanes 2 and 3, then VSS. -/
def camPin (b : Ball) : Option Pin :=
  let side : Option (Nat × Bool) :=
    if b.col = 1 then some (0, false) else if b.col = 2 then some (0, true)
    else if b.col = 45 then some (4, false) else if b.col = 46 then some (4, true) else none
  match side, rowOf b 6 24 with
  | some (c, neg), some r =>
    match r % 6 with
    | 0 => some (.cam (c + r / 6) (some 0) neg)
    | 1 => some (.cam (c + r / 6) (some 1) neg)
    | 2 => some (.cam (c + r / 6) none neg)
    | 3 => some (.cam (c + r / 6) (some 2) neg)
    | 4 => some (.cam (c + r / 6) (some 3) neg)
    | _ => none
  | _, _ => none

/-- The row, 0 to 3, and channel of a DRAM ball: AU to AY are M0's, BA to BD M1's. -/
def dramRow (b : Ball) : Option (Nat × Nat) := (rowOf b 35 8).map fun r => (r / 4, r % 4)

/-- A byte lane's balls (R371) and a channel's command, clock and control balls (R372). -/
def dramPin (b : Ball) : Option Pin :=
  match dramRow b with
  | none => none
  | some (m, r) =>
    if 4 ≤ b.col ∧ b.col ≤ 36 then
      let k := (b.col - 4) / 3
      match r, (b.col - 4) % 3 with
      | 0, j => some (.dq m (8 * k + j))
      | 1, 0 => some (.dq m (8 * k + 3))
      | 1, 1 => some (.dqs m k false)
      | 1, _ => some (.dqs m k true)
      | 2, j => some (.dq m (8 * k + 4 + j))
      | _, 0 => some (.dq m (8 * k + 7))
      | _, _ => none
    else if 37 ≤ b.col ∧ b.col ≤ 43 then
      match r, b.col - 37 with
      | 0, j => some (.ca m j)
      | 1, j => some (.ca m (7 + j))
      | 2, 0 => some (.csn m 0)
      | 2, 1 => some (.csn m 1)
      | 2, 2 => some (.ck m false)
      | 2, 3 => some (.ck m true)
      | 2, 4 => some (.resetn m)
      | 2, 5 => some (.alertn m)
      | 2, _ => some (.zq m)
      | _, _ => none
    else none

/-- PCIe, Ethernet and reference clock balls (R373), rows AM, AN, AP and AT. -/
def fastPin (b : Ball) : Option Pin :=
  match rowOf b 31 4 with
  | none => none
  | some r =>
    let neg := b.col % 2 = 1
    if 4 ≤ b.col ∧ b.col ≤ 35 then
      let l := (b.col - 4) / 2
      if r = 0 then some (.pcie (l / 8) (l % 8) true neg) else if r = 2 then some (.pcie (l / 8) (l % 8) false neg) else none
    else match r, b.col with
      | 0, 36 | 0, 37 => some (.refclk 0 neg)
      | 0, 38 | 0, 39 => some (.refclk 1 neg)
      | 2, 36 => some (.perstn 0)
      | 2, 37 => some (.perstn 1)
      | 0, 40 | 0, 41 => some (.eth 0 true neg)
      | 0, 42 | 0, 43 => some (.eth 1 true neg)
      | 2, 40 | 2, 41 => some (.eth 0 false neg)
      | 2, 42 | 2, 43 => some (.eth 1 false neg)
      | 3, 40 | 3, 41 => some (.linkref neg)
      | _, _ => none

/-- The state a low-speed ball holds from its bank in range until the reset ends (R374). -/
inductive PinRest where
  | pullDown | pullUp | low | high | released | highZ | noPull | analog
deriving DecidableEq, Repr, Inhabited

/-- The direction of a signal (R374). -/
inductive PinDir where
  | input | output | openDrain | bidirectional | analog
deriving DecidableEq, Repr, Inhabited

/-- The banks of the low-speed balls. -/
inductive Bank where
  | vio33 | vio18 | agnd
deriving DecidableEq, Repr, Inhabited

def LowPin.rest : LowPin → PinRest
  | .absClk _ | .qspiCsn => .high
  | .absData _ | .qspiIo _ | .tms | .tdi | .rstn => .pullUp
  | .errOut | .mark _ | .stepper _ _ | .servo _ _ | .qspiClk | .strobe _ => .low
  | .scl _ | .sda _ => .released
  | .tdo => .highZ
  | .porn | .ref25 => .noPull
  | .ain _ | .refin => .analog
  | .quad _ _ | .f0Step | .f0Dir | .hall _ _ | .pageCue | .fireInhibit | .home _ | .endSwitch _ | .tck | .trstn | .bootsel _ => .pullDown

def LowPin.dir : LowPin → PinDir
  | .absClk _ | .mark _ | .stepper _ _ | .servo _ _ | .qspiClk | .qspiCsn | .tdo | .strobe _ => .output
  | .errOut | .scl _ | .sda _ => .openDrain
  | .qspiIo _ => .bidirectional
  | .ain _ | .refin => .analog
  | .quad _ _ | .f0Step | .f0Dir | .absData _ | .hall _ _ | .pageCue | .fireInhibit | .home _ | .endSwitch _ | .tck | .tms | .tdi | .trstn
  | .bootsel _ | .porn | .rstn | .ref25 => .input

/-- A row of R374's table: row index, first column, the signals of consecutive balls, the bank. -/
structure LowRow where
  row : Nat
  col : Nat
  pins : List LowPin
  bank : Bank

/-- `m` signals of each of `n` units. -/
def eachOf (n m : Nat) (f : Nat → Nat → LowPin) : List LowPin := (List.range n).flatMap fun k => (List.range m).map (f k)

def lowRows : List LowRow :=
  [⟨5, 4, eachOf 4 3 .quad, .vio33⟩,
   ⟨5, 16, [.f0Step, .f0Dir], .vio33⟩,
   ⟨5, 18, [.absClk 0, .absData 0, .absClk 1, .absData 1], .vio33⟩,
   ⟨5, 22, eachOf 2 3 .hall, .vio33⟩,
   ⟨5, 28, [.pageCue, .fireInhibit, .errOut], .vio33⟩,
   ⟨5, 31, (List.range 8).map .mark, .vio33⟩,
   ⟨6, 4, eachOf 4 4 .stepper, .vio33⟩,
   ⟨6, 20, eachOf 2 6 .servo, .vio33⟩,
   ⟨6, 32, eachOf 4 2 fun n i => if i = 0 then .home n else .endSwitch n, .vio33⟩,
   ⟨7, 4, [.qspiClk, .qspiCsn] ++ (List.range 4).map .qspiIo, .vio18⟩,
   ⟨7, 10, eachOf 2 2 fun k i => if i = 0 then .scl k else .sda k, .vio18⟩,
   ⟨7, 14, [.tck, .tms, .tdi, .tdo, .trstn], .vio18⟩,
   ⟨7, 19, [.bootsel 0, .bootsel 1, .porn, .rstn, .ref25], .vio18⟩,
   ⟨7, 24, (List.range 8).map .strobe, .vio33⟩,
   ⟨8, 4, (List.range 26).map .ain ++ [.refin], .agnd⟩]

/-- A low-speed ball's signal and its bank. -/
def lowPin (b : Ball) : Option (LowPin × Bank) :=
  lowRows.findSome? fun r =>
    if r.row = b.row ∧ r.col ≤ b.col then (r.pins[b.col - r.col]?).map fun p => (p, r.bank) else none

/-- The signal of a ball, if it carries one. -/
def pinAt (b : Ball) : Option Pin :=
  (linkPin b).or <| (camPin b).or <| (dramPin b).or <| (fastPin b).or <| (lowPin b).map fun p => .low p.1

/-! ### Scan coverage (R381) -/

/-- A ball's boundary-scan cell. -/
inductive ScanCell where
  | none | ieee1 | ieee6
deriving DecidableEq, Repr, Inhabited

/-- The cell of a signal's ball: IEEE 1149.6 on the serial pairs, 1149.1 on the VIO18, VIO33 and DDR5 signals, none on the others. -/
def Pin.cell : Pin → ScanCell
  | .link _ _ _ | .pcie _ _ _ _ | .eth _ _ _ => .ieee6
  | .cam _ _ _ | .linkref _ | .refclk _ _ | .zq _ => .none
  | .low .ref25 | .low (.ain _) | .low .refin => .none
  | .dq _ _ | .dqs _ _ _ | .ca _ _ | .csn _ _ | .ck _ _ | .resetn _ | .alertn _ | .perstn _ | .low _ => .ieee1

/-- The direction of a signal: R374's, or that of its listing (R369 to R373); R372 gives ZQ none. -/
def Pin.dir : Pin → PinDir
  | .link _ tx _ | .pcie _ _ tx _ | .eth _ tx _ => if tx then .output else .input
  | .dq _ _ | .dqs _ _ _ => .bidirectional
  | .ca _ _ | .csn _ _ | .ck _ _ | .resetn _ => .output
  | .zq _ => .analog
  | .cam _ _ _ | .alertn _ | .refclk _ _ | .perstn _ | .linkref _ => .input
  | .low p => p.dir

/-! ### Rails (R375, R383 to R385) -/

/-- An outer column of the serialiser supplies. -/
def outerCol (c : Nat) : Bool := [2, 4, 6, 40, 42, 44, 46].contains c

/-- The rail of a supply ball: every ball without a signal that no other row names is VSS. -/
def railAt (b : Ball) : Option Rail :=
  let r := b.row
  let c := b.col
  let odd := b.sum % 2 = 1
  let mid := 4 ≤ c ∧ c ≤ 43
  if (pinAt b).isSome then none
  else if 10 ≤ r ∧ r ≤ 26 ∧ 6 ≤ c ∧ c ≤ 41 ∧ odd then some .vdd
  else if 10 ≤ r ∧ r ≤ 26 ∧ (c = 4 ∨ c = 5 ∨ c = 42 ∨ c = 43) ∧ odd then some .vdds
  else if (r = 29 ∨ r = 30) ∧ mid ∧ odd then some .vddq
  else if (r = 38 ∨ r = 42) ∧ ((4 ≤ c ∧ c ≤ 36 ∧ (c - 4) % 3 = 2) ∨ c = 37 ∨ c = 39 ∨ c = 41 ∨ c = 43) then some .vddq
  else if ((r = 1 ∨ r = 2 ∨ r = 45 ∨ r = 46) ∧ outerCol c) ∨ (r = 27 ∧ mid ∧ odd) ∨ (r = 33 ∧ c = 38) then some .vddhl
  else if ((r = 3 ∨ r = 4 ∨ r = 43 ∨ r = 44) ∧ outerCol c) ∨ (r = 28 ∧ mid ∧ odd) ∨ (r = 33 ∧ c = 39) then some .vddhh
  else if r = 8 ∧ 31 ≤ c ∧ c ≤ 34 then some .vdda
  else if r = 7 ∧ [3, 44, 32, 34, 36, 38, 40, 42].contains c then some .vio18
  else if (r = 5 ∧ [1, 2, 3, 44, 45, 46, 39, 41, 43].contains c) ∨ (r = 6 ∧ [3, 44, 40, 42].contains c) then some .vio33
  else if r = 7 ∧ c = 43 then some .vbat
  else if ((r = 8 ∨ r = 9) ∧ (c = 3 ∨ c = 44)) ∨ (r = 8 ∧ 35 ≤ c ∧ c ≤ 43) ∨ (r = 9 ∧ mid) then some .agnd
  else some .vss

/-- The operating range of a rail in 0.1 mV (R384); R59 names one that is left. -/
def operating : Rail → Option (Int × Int)
  | .vdd => some (7275, 7725)
  | .vdds => some (8245, 8755)
  | .vddq => some (10670, 11330)
  | .vddhl => some (8730, 9270)
  | .vddhh => some (11640, 12360)
  | .vdda => some (17100, 18900)
  | .vio18 => some (17100, 18900)
  | .vio33 => some (31350, 34650)
  | .vbat => some (16000, 36000)
  | .agnd | .vss => none

/-- The absolute maximum of a rail in 0.1 mV (R383). -/
def absoluteMax : Rail → Option (Int × Int)
  | .vdd => some (-3000, 8500)
  | .vdds => some (-3000, 9500)
  | .vddhl => some (-3000, 10000)
  | .vddq => some (-3000, 13000)
  | .vddhh => some (-3000, 13500)
  | .vdda | .vio18 => some (-3000, 20000)
  | .vio33 => some (-3000, 38000)
  | .vbat => some (-3000, 40000)
  | .agnd | .vss => none

/-- What an excursion out of a rail's operating range does (R384): nothing, a power-on reset, or either. -/
inductive Excursion where
  | nothing | either | reset
deriving DecidableEq, Repr, Inhabited

/-- An excursion to a voltage, in 0.1 mV, that lasts some ns. Every rail with a range counts, VBAT with the others (R59, R376). Log entry 197 (DEDUCED). -/
def excursion (r : Rail) (v : Int) (ns : Nat) : Excursion :=
  match operating r with
  | some (lo, hi) => if (lo ≤ v ∧ v ≤ hi) ∨ ns < 200 then .nothing else if ns < 1000 then .either else .reset
  | none => .nothing

/-- The order in which the rails come up (R376); VBAT belongs to no group. -/
def powerGroup : Rail → Option Nat
  | .vdd => some 1
  | .vdds | .vddhl => some 2
  | .vddq | .vddhh | .vdda => some 3
  | .vio18 | .vio33 => some 4
  | _ => none

/-- Currents in 10 mA at full rate with HL3, typical and maximal, with HL2, at idle, and in self-refresh (R385). -/
def railCurrent : Rail → List Nat
  | .vdd => [3600, 4400, 4000, 1800, 240]
  | .vdds => [300, 380, 380, 300, 120]
  | .vddq => [400, 500, 500, 150, 5]
  | .vddhl => [600, 750, 520, 450, 30]
  | .vddhh => [300, 380, 300, 280, 20]
  | .vdda => [30, 40, 40, 40, 10]
  | .vio18 => [5, 10, 10, 5, 1]
  | .vio33 => [12, 30, 30, 10, 1]
  | _ => []

/-! ### Figures of chapter 23 (R387 to R391) -/

/-- The full-rate power in W and the junction's limit in degrees C (R385, R387). -/
def designPower : Nat := 55
def junctionLimit : Int := 105

/-- The most that a heatsink may have, in 0.001 degrees C/W, for an enclosure and an interface material: the budget from junction to air less
the path to the lid top and the interface (R387). -/
def heatsinkMost (enclosure : Int) (interface : Int) : Int := (junctionLimit - enclosure) * 1000 / designPower - 80 - interface

inductive IoBank where
  | vio33 | vio18
deriving DecidableEq, Repr, Inhabited

/-- What an input of a bank reads at a voltage, in 0.1 mV, with the bank's supply (R388): high, low, or neither for certain. -/
def inputLevel (b : IoBank) (supply v : Int) : Option Bool :=
  let (low, high) : Int × Int := match b with
    | .vio33 => (8000, 20000)
    | .vio18 => (35 * supply / 100, (65 * supply + 99) / 100)
  if high ≤ v then some true else if v ≤ low then some false else none

/-- The least hysteresis of an input in 0.1 mV, and the input capacitance in pF (R388). -/
def inputHysteresis : IoBank → Int | .vio33 => 1500 | .vio18 => 1000
def inputCapacitance : IoBank → Nat | .vio33 => 5 | .vio18 => 4

/-- The least voltage of a high output and the most of a low one, in 0.1 mV, with the current in mA that each carries (R388). -/
def outputHigh (b : IoBank) (supply : Int) : Int × Int := match b with | .vio33 => (24000, -8) | .vio18 => (supply - 4500, -4)
def outputLow : IoBank → Int × Int | .vio33 => (4000, 8) | .vio18 => (4500, 4)

/-- Where the sample that R91 stamps may lie after the ball crossed its threshold, in ns; how far a stepper or servo edge may lie from its
time; and the least gap between the two switches of a servo phase (R389). -/
def stampWindow : Int × Int := (0, 1)
def driveEdge : Int × Int := (-2, 2)
def switchGap (deadtime : Int) : Int := deadtime - 2

/-- A flash's reads complete (R390): its clock-to-output delay and the board's round trip, in 0.1 ns, are within 6.0 ns. One whose reads do not
complete is PATTERN_IMAGE's source without an image. -/
def flashReads (delay : Nat) : Bool := decide (delay ≤ 60)

/-- QSPI's figures in 0.1 ns, least and most: CSn low to the first clock edge, data out after the falling edge, setup and hold of data in,
and CSn high between commands (R390). -/
def qspiTimes : List (Option Int × Option Int) :=
  [(some 50, none), (some (-10), some 25), (some 20, none), (some 10, none), (some 200, none)]

/-- The electrical row of a head link's generation (R391). -/
structure LinkFigures where
  swing : Nat × Nat
  jitter : Nat
  rise : Nat × Nat
  sensitivity : Nat
  loss : Nat
  nyquist : Nat
  impedance : Nat × Nat
  returnLoss : Nat
deriving DecidableEq, Repr, Inhabited

/-- Swing in mV, jitter in 0.01 UI, rise time in ps, sensitivity in mV, loss in dB at a frequency in MHz, impedance in ohms, return
loss in dB (R391). -/
def linkFigures (gen : Nat) : LinkFigures :=
  match gen with
  | 1 => { swing := (800, 1100), jitter := 25, rise := (60, 150), sensitivity := 100, loss := 10, nyquist := 1250, impedance := (85, 115)
           returnLoss := 10 }
  | 2 => { swing := (800, 1100), jitter := 28, rise := (35, 90), sensitivity := 100, loss := 15, nyquist := 2500, impedance := (85, 115)
           returnLoss := 10 }
  | _ => { swing := (800, 1100), jitter := 30, rise := (20, 45), sensitivity := 80, loss := 22, nyquist := 5156, impedance := (85, 115)
           returnLoss := 9 }

/-- A transmitter meets its rows (R391). -/
def LinkFigures.transmits (f : LinkFigures) (swing jitter rise : Nat) : Bool :=
  decide (f.swing.1 ≤ swing ∧ swing ≤ f.swing.2 ∧ jitter ≤ f.jitter ∧ f.rise.1 ≤ rise ∧ rise ≤ f.rise.2)

/-! ### Clocks and the test access port (R379, R381, R382) -/

/-- The DRAM clock in MHz for each data rate in MT/s that R379 lists. -/
def dramClock (rate : Nat) : Option Nat :=
  match rate with
  | 3200 => some (25 * 64)
  | 4800 => some (25 * 96)
  | 5600 => some (25 * 112)
  | 6400 => some (25 * 128)
  | _ => none

/-- The fabric and timebase clocks in MHz. -/
def fabricClock : Nat := 25 * 40
def timebaseClock : Nat := 25 * 10

/-- The bit rate of a generation of head link, in kb/s: LINKREF times 16, 32 or 66. -/
def linkRate (gen : Nat) : Option Nat := ([16, 32, 66][gen - 1]?).map fun k => 156250 * k

end Sys2Proof.Machine
end

