-- ==== Sys2Proof/Machine/Pins.lean ====
section
/-!
DEFINITION. What the balls show in a state: the levels of the outputs as their functions drive them, the reset states of R374, the rails that are
out (R376) and the boundary-scan cells (R382). These are readings of the state, which no command takes.
-/

namespace Sys2Proof.Machine

/-- What a ball shows: a level that the device drives, an open drain that is released, high impedance, with only a pull, electrical idle, an input
that is ignored, an interface that is at work, or what is left open. -/
inductive Level where
  | high | low | released | highZ | pullUp | pullDown | noPull | analog | idle | ignored | working | unstated
deriving DecidableEq, Repr, Inhabited

def levelOf (b : Bool) : Level := if b then .high else .low

/-- A ball at rest. -/
def PinRest.level : PinRest → Level
  | .pullDown => .pullDown
  | .pullUp => .pullUp
  | .low => .low
  | .high => .high
  | .released => .released
  | .highZ => .highZ
  | .noPull => .noPull
  | .analog => .analog

/-- A ball at high impedance, with only its internal pull (R376). -/
def PinRest.undriven : PinRest → Level
  | .pullDown => .pullDown
  | .pullUp => .pullUp
  | .noPull => .noPull
  | .analog => .analog
  | .low | .high | .released | .highZ => .highZ

/-- Switch `low` of a phase is on, `t` ns from the centre of its period (R333). -/
def Gate.on (g : Gate) (low : Bool) (t : Int) : Bool :=
  if low then
    match g.low with
    | none => false
    | some (off, on) => decide (g.lowFrom ≤ t ∧ (t < off ∨ on ≤ t))
  else match g.high with
    | none => false
    | some (on, off) => decide (on ≤ t ∧ t < off)

/-- The device reads an image from its flash (R49). -/
def Dev.flashRead (d : Dev) : Bool := d.loading && (decide (d.rd F.PAT_STATUS_SOURCE ≤ 2) && d.pat.verify.isNone)

/-- Encoder A k is being read (R337): the axis that it feeds waits for its frame. -/
def Dev.absRead (d : Dev) (k : Nat) : Bool := (List.finRange 2).any fun (a : Fin 2) => decide ((d.servoSec a).feedback = k + 2) && (d.sAxis a).asked

/-- Master k of the sensor I2C has a transaction under way (R212). -/
def Dev.i2cBusy (d : Dev) (k : Nat) : Bool := d.i2cRuns k || (d.ins.probing && !(at' d.ins.probe k).isEmpty)

/-- What a low-speed ball shows while nothing holds it (R374), `t` ns from the centre of a servo period. Log entry 207 (DEDUCED). -/
def Dev.lowLevel (d : Dev) (t : Int) (p : LowPin) : Level :=
  match p with
  | .errOut => if d.sys.errOut then .low else .released
  | .mark n => levelOf (d.web.mark.getLsbD n)
  | .stepper n i => levelOf (at' (d.outputs (Fin.ofNat 4 n)) i)
  | .servo a i => levelOf ((at' (d.gates (Fin.ofNat 2 a)) (i / 2)).on (decide (i % 2 = 1)) t)
  | .strobe c => levelOf ((d.cam c).strobe != (d.cam c).low)
  | .absClk k => if d.absRead k then .working else .high
  | .qspiCsn => if d.flashRead then .low else .high
  | .qspiClk | .qspiIo _ => if d.flashRead then .working else p.rest.level
  | .scl k | .sda k => if d.i2cBusy k then .working else .released
  | _ => p.rest.level

/-- What a ball of another listing shows (R369, R370, R372, R373): a disabled link's idle and ignored pairs, the lanes that a camera does not use, CS1n
driven high with one rank, the pull of PERSTn; the other balls carry their interfaces. Log entry 207 (DEDUCED). -/
def Dev.fastLevel (d : Dev) : Pin → Level
  | .link n tx _ => if d.linkEnabled n then .working else if tx then .idle else .ignored
  | .cam c (some l) _ => if l < (d.camSec c).lanes then .working else .ignored
  | .csn m 1 => if d.pat.applied && !d.on F.DM_STAT_RANKS m then .high else .working
  | .perstn _ => .pullDown
  | .zq _ => .analog
  | _ => .working

/-- A ball's number among the boundary-scan cells. -/
def Ball.index (b : Ball) : Nat := 46 * (b.row - 1) + (b.col - 1)

/-- The device may drive a signal. -/
def Pin.drives (p : Pin) : Bool := decide (p.dir ≠ .input ∧ p.dir ≠ .analog)

/-- What a ball follows while a scan instruction holds the reset (R382): nothing under HIGHZ, else its cell. What a cell holds that nothing has been shifted
into is left open. Log entry 161 (DESIGN CHOICE). -/
def Dev.scanLevel (d : Dev) (b : Ball) (p : Pin) : Level :=
  if d.tap.ir = .highz then .highZ
  else match d.tap.cells.lookup b.index with
    | none => .unstated
    | some true => if p.dir = .openDrain then .released else .high
    | some false => .low

/-- The bank of a signal is one of VIO18 and VIO33, and it or VDD is out of its range (R374, R376). Log entry 207 (DEDUCED). -/
def Dev.bankOut (d : Dev) (b : Ball) : Bool :=
  match lowPin b with
  | some (_, .vio33) => d.sys.railsOut.contains .vdd || d.sys.railsOut.contains .vio33
  | some (_, .vio18) => d.sys.railsOut.contains .vdd || d.sys.railsOut.contains .vio18
  | _ => false

/-- What a ball shows, `t` ns from the centre of a servo period; none for a supply ball. Log entry 207 (DEDUCED). -/
def Dev.levelAt (d : Dev) (b : Ball) (t : Int) : Option Level :=
  (pinAt b).map fun p =>
    if tapResets d.tap.ir && p.drives && decide (p.cell ≠ .none) && !d.bankOut b then d.scanLevel b p
    else match p with
      | .low q => if d.bankOut b then q.rest.undriven else d.lowLevel t q
      | q => d.fastLevel q

end Sys2Proof.Machine
end

