-- ==== Sys2Proof/WellFormed.lean ====
section
/-!
DEFINITION. Which commands are well formed: the operands that Lean's types leave wider than the hardware's.
-/

namespace Sys2Proof

/-- A value written through a register access of some bytes fits in them (R29). -/
def fitsBytes (bytes val : Nat) : Bool := decide (val < 2 ^ (8 * bytes))

/-- A device time in ns that 64 bits hold (R79). -/
def fitsTime (t : Nat) : Bool := decide (t < 2 ^ 64)

/-- The checks on one command. The commands without a check stand together at the end. -/
def Instr.wf (i : Instr) : Bool :=
  match i with
  | .registerWrite _ _ bytes val => fitsBytes bytes val
  | .stagingWrite _ _ bytes val => fitsBytes bytes val
  | .peSharedWrite _ _ bytes val => fitsBytes bytes val
  | .cmpEntryWrite _ _ bytes val => fitsBytes bytes val
  | .substHostWrite _ _ bytes val => fitsBytes bytes val
  | .tbIncrWrite _ bytes val => fitsBytes bytes val
  | .tbStepWrite _ bytes val => fitsBytes bytes val
  | .pagePush _ bytes val => fitsBytes bytes val
  | .quadTransition _ _ _ t => fitsTime t
  | .f0Step _ _ t => fitsTime t
  | .indexEdge _ t => fitsTime t
  | .pageCue t => fitsTime t
  | .fireInhibitnChange _ t => fitsTime t
  | .headBurstDetect _ gen => decide (1 ≤ gen) && decide (gen ≤ 3)
  | .statusRx _ st _ => decide (1 ≤ st.sensors) && decide (st.sensors ≤ 8) && decide (st.temps.length = 8)
  | .tsRx _ ts => decide (ts.phase ≤ 4)
  | .bar2Read _ off len => decide (1 ≤ len) && decide (off + len ≤ 2 ^ 32)
  | .bar2Write _ off data => decide (data ≠ []) && decide (off + data.length ≤ 2 ^ 32)
  | .lowWordRead .. | .tbNowRead .. | .hstApbaseWrite .. | .snapReq .. | .beatBoundary .. | .powerOnReset .. | .pornRelease ..
  | .rstnAssert .. | .sysResetWarm .. | .sysResetCold .. | .autoReset | .resetDramSelfRefresh | .resetFireSilence
  | .resetLogicAssert | .resetRelease .. | .castOnStepDone .. | .castOnStepLimit .. | .patternImageArrived .. | .mboxGo ..
  | .mboxAbort .. | .mboxTimeout | .repatternGo .. | .repatternVerifyDone | .repatternApply | .clogClear .. | .bindoffGo ..
  | .bindoffStepDone | .bindoffCapTimeout | .functionEnableWrite .. | .functionTransitionDone .. | .functionWedged ..
  | .tbManualWrite .. | .tbResync .. | .announceRx .. | .syncRx .. | .followUpRx .. | .delayRespRx .. | .pdelayReqRx ..
  | .pdelayRespRx .. | .ptpOtherRx .. | .delayReqTx .. | .pdelayReqTx .. | .timeStepApply | .announceTimeout | .syncTimeout
  | .idxArm .. | .wtScaleWrite .. | .webStandstill | .webSettled | .webRecovered | .webCoastExhausted | .webReversed
  | .softCue .. | .softCueAccept | .markPulseStart | .markPulseEnd | .pagePushLowWrite .. | .descriptorCheck
  | .bandDecodeStart .. | .bandDecodeDone .. | .spareDecodeDone .. | .stripLineWrite .. | .encodeGo .. | .encodeKick ..
  | .skeinBufferFull .. | .encodeReadFail .. | .encodeDone .. | .windowReadReturn .. | .windowReadDeadline | .lineBuild ..
  | .shiftWrite .. | .autoUpdate .. | .blendCommit .. | .swatchArm .. | .trimCommit .. | .headTempStale .. | .claimWrite ..
  | .engineSramError .. | .engineFailRate .. | .inhibitWrite .. | .frameTxDone .. | .hlFireAdjWrite .. | .delayRestart ..
  | .upstreamFrameBad .. | .mgmtGo .. | .mgmtCancel .. | .mgmtReadRespRx .. | .mgmtWriteRespRx .. | .mgmtTimeout ..
  | .headCheckDone .. | .rxLockAcquired .. | .rxLockLost .. | .eqDwellDone .. | .eqRequestTimeout .. | .confirmComplete ..
  | .linkTrainTimeout .. | .linkUp .. | .statusLost .. | .crcRate .. | .linkRetrain .. | .linkTest .. | .dnSleepEnter ..
  | .dnWake .. | .upSleepRx .. | .wakeRelockTimeout .. | .cameraTrigger .. | .strobeStart .. | .strobeEnd .. | .csiFrameStart ..
  | .csiFrameEnd .. | .csiLongPacket .. | .csiOtherPacket .. | .camLineMissed .. | .frameIdleTimeout .. | .camLineProcess ..
  | .insCommit .. | .i2cGo .. | .i2cComplete .. | .i2cTimeout .. | .nzhCamLine .. | .healthWindowClose .. | .swatchVerdict
  | .nzhSwatchPages | .substApply | .dramReadComplete .. | .dramRmw .. | .ceDecay | .rebuildGranule .. | .scrubGranule ..
  | .pprRepair .. | .retrainPause .. | .trefiTick .. | .refForced .. | .dramTempPoll .. | .chipMarkHost .. | .markForget ..
  | .speedChangeGo .. | .speedChangeDone .. | .arbiterGrant .. | .holdCut .. | .requestWithdraw .. | .slotOpen .. | .mfClassWrite ..
  | .slotActiveWrite .. | .slotArm .. | .slotSwap | .pciePortReset .. | .pcieLinkUp .. | .doorbellWrite .. | .eventPost
  | .eventRingWrite .. | .evrEnable .. | .evrDisable .. | .evrTailWrite .. | .msixModerationEnd .. | .snapDmaGo ..
  | .snapDmaStart .. | .snapDmaDone .. | .snapDmaTimeout .. | .ethFrameDiscard .. | .ethLink .. | .uploadGo ..
  | .uploadDatagram .. | .fuseProg .. | .fuseProgDone | .rollbackAdvance .. | .rollbackProgDone | .attestGo .. | .attestDone
  | .tamperDetect .. | .tamperForce .. | .tamperClear .. | .vaultUsageSave | .vaultTimeSave | .authReauth .. | .authResponseRx ..
  | .authResponseTimeout .. | .usagePeriodExpiry | .countAckRx .. | .countAckTimeout .. | .servoTick | .servoStages
  | .chopPeriod .. | .stepperOvercurrent .. | .microstepEmit .. | .holdCurrentTimer .. | .moveGo .. | .moveSoftStop ..
  | .moveStop .. | .moveHome .. | .motSourceWrite .. | .capGo .. | .switchChange .. | .switchChatter .. | .axisStall ..
  | .pwmCentre .. | .servoOvercurrent .. | .absFrameDone .. | .hallChange .. | .servoAlignDone .. | .servoTargetWrite ..
  | .servoRegRx .. | .servoReference .. | .servoClear .. | .notchCommit .. | .trimGo .. | .trimMeasureDone .. | .trimProgDone
  | .analogCheck | .analogCheckDone .. | .analogStuck .. | .pllLockLoss | .jtagInstructionLoad .. | .jtagTestLogicReset ..
  | .vbatLoss | .pcieConfigWrite .. => true

end Sys2Proof
end

