-- ==== Sys2Proof/Tests/Slice0.lean ====
section
/-!
SUPPORT. Tests: the checks of WellFormed refuse ill-formed commands, the worked examples of the spec, and for every obligation with
hypotheses a state and operands that meet them, clause by clause.
-/

section

set_option linter.unusedVariables false
-- each theorem is one thread's work: a thread for each does not fit in the check's memory limit
set_option Elab.async false

open Sys2Proof Sys2Proof.Machine

namespace Sys2Proof.Tests

/-- A running device: a Pattern is applied that enables everything, both ports are Secure, cast-on is done, every function is ON, and
beat 2 is in progress. -/
def wit : Dev :=
  { State.reset.dev with
    regs := [(0x10, 2)]
    sys := { done := true, errOut := false
             funcs := (([.dec, .enc, .f0, .nzh] : List Func) ++ ((List.finRange 4).map Func.q ++ (List.finRange 2).map Func.eth) ++
               ((List.finRange 8).map Func.cam ++ (List.finRange 4).map Func.mot ++ (List.finRange 2).map Func.srv)).map
               fun f : Func => (f, ({ st := .on } : FuncSt)) }
    pat := { applied := true
             loaded := { fabric := [(0, 0x0E81), (0, 0x0F81), (0, 0x0881), (0, 0x1181)]
                         worlds := { port := 3, master := 0xFFFFF }
                         dram := { ranks := 2, ppr := true }
                         links := List.replicate 32 { enable := true, genMax := 3 }
                         gauge := { heads := (List.range 32).map fun l => { link := l } }
                         inspect := { camMask := 0xFF, nzh := true, cams := List.replicate 8 {} }
                         servo := [{ enable := true }, { enable := true, feedback := 2, commutation := 1 }] } }
    tmb := { running := true, acc := 10000 * 2 ^ 32, openT := 8000, beats := 100, ptp := true }
    pace := { inhibit := false, order := false } }

/-! ### Each check of WellFormed refuses an ill-formed command -/

theorem test_ill_formed_values :
    (∀ f ∈ ([.registerWrite, .stagingWrite, .peSharedWrite, .cmpEntryWrite, .substHostWrite] : List (Master → Nat → Nat → Nat → Instr)),
      (f .p0 0 4 (2 ^ 32)).wf = false ∧ (f .p0 0 4 (2 ^ 32 - 1)).wf = true) ∧
    (∀ f ∈ ([.tbIncrWrite, .tbStepWrite, .pagePush] : List (Master → Nat → Nat → Instr)),
      (f .p0 8 (2 ^ 64)).wf = false ∧ (f .p0 8 (2 ^ 64 - 1)).wf = true) := by decide +kernel

theorem test_ill_formed_times :
    ∀ f ∈ ([.quadTransition 0 true true, .f0Step true true, .indexEdge 0, .pageCue, .fireInhibitnChange true] : List (Nat → Instr)),
      (f (2 ^ 64)).wf = false ∧ (f (2 ^ 64 - 1)).wf = true := by decide +kernel

theorem test_ill_formed_links :
    (Instr.headBurstDetect 0 0).wf = false ∧ (Instr.headBurstDetect 0 4).wf = false ∧ (Instr.headBurstDetect 0 3).wf = true ∧
    (Instr.statusRx 0 { sensors := 9, temps := List.replicate 8 0 } 0).wf = false ∧
    (Instr.statusRx 0 { sensors := 0, temps := List.replicate 8 0 } 0).wf = false ∧
    (Instr.statusRx 0 { sensors := 1, temps := [0] } 0).wf = false ∧
    (Instr.statusRx 0 { sensors := 1, temps := List.replicate 8 0 } 0).wf = true ∧
    (Instr.tsRx 0 { phase := 5 }).wf = false ∧ (Instr.tsRx 0 { phase := 4 }).wf = true := by decide +kernel

theorem test_ill_formed_lengths :
    (Instr.bar2Read 0 0 0).wf = false ∧ (Instr.bar2Read 0 0 1).wf = true ∧
    (Instr.bar2Write 0 0 []).wf = false ∧ (Instr.bar2Write 0 0 [0]).wf = true ∧
    (Instr.bar2Read 0 (2 ^ 32 - 1) 2).wf = false ∧ (Instr.bar2Read 0 (2 ^ 32 - 1) 1).wf = true ∧
    (Instr.bar2Write 0 (2 ^ 32 - 1) [0, 0]).wf = false ∧ (Instr.bar2Write 0 (2 ^ 32 - 1) [0]).wf = true := by decide +kernel

/-! ### The spec's worked examples and tables -/

/-- The worked example of 02_address_map: register offset 0x0040 of WTR, and bar byte 0x1234_5680 behind a BASE of 0x04_0000_0000. -/
theorem test_address : regSpace + 0x0C * 0x1000000 + 0x0040 = 0x200C000040 ∧
    (wit.wr F.HST_APBASE_BASE 0 (0x400000000 / 2 ^ 21)).bar2Addr 0 0x12345680 = 0x412345680 := by decide +kernel

/-- The worked example after R88: the sample of 40 ns at 1/16 s with i = -1,250 ppb, and its INCR. -/
theorem test_servo_sample : servoTerms 32768 4096 (-1250 * ppb) (40 * 65536) (-4) = (-890 * ppb, -1210 * ppb) ∧
    incrOf (-890 * ppb) = 0x400003BBA := by decide +kernel

/-- The worked example after R88: the INCR of HOLDOVER at -1,210 ppb. -/
theorem test_holdover_incr : incrOf (-1210 * ppb) = 0x400005133 := by decide +kernel

/-- The worked example after R106: row A of head 5 crosses 18,898.75 ns after the boundary. -/
theorem test_carton_crossing :
    crossTime (79370000 * 2 ^ 32 + 2 ^ 31) (198425 * 2 ^ 32) 0 (79370004 * 2 ^ 32 + 2 ^ 30) 80000 = some 75595 := by decide +kernel

/-- The worked example of R168: t = 1,700,000,012,345.75 ns. -/
theorem test_fire_field : fireField (1700000012345 * 4 + 3) = 0xFC430567 := by decide +kernel

/-- The worked example: the stream of 00 00 00 00 55 55 55 in FREEZE mode. -/
theorem test_bexiq_encode : (encodeStream false [0, 0, 0, 0, 0x55, 0x55, 0x55]).1 = [0x42, 0, 0, 4, 2, 0xA8, 0x52, 0x30, 0x20] := by
  decide +kernel

/-- The example of R250: b0 = 1 and every other byte 0. -/
theorem test_chip_code : rsCheck (1 :: List.replicate 15 0) = [0x40, 0x78, 0x36, 0x0F] := by decide +kernel

/-- The worked example of 20_trim: channel 8. -/
theorem test_trim_record : (wit.trimRec (25040 * 16 + 4) (50120 * 16 + 12) (25040 * 16 + 4) (50120 * 16 + 12)).1 =
    { gain := 0x7F97, off := -40, quality := 2, status := 1 } := by decide +kernel

/-- The worked example of 13_nozzle_health: window 1 of nozzle 32,833 is WEAK and window 2 is MISSING. -/
theorem test_verdicts : wit.verdict { n := 256, e := 11008, m := 6874 } = .weak ∧ wit.verdict { n := 256, e := 11008, m := 1024 } = .missing := by
  decide +kernel

/-- The example of 13_nozzle_health (R246): T = +870 with AUTO = 0. -/
theorem test_auto_shift : (let d := ({ wit with nzh.t := 870 } : Dev).regUpdate 0; (d.nzh.auto, d.nzh.s0)) = (3, 169) := by decide +kernel

/-- The worked example of R145: MASK 33 is below the threshold of 42 at j = 10, so the right head keeps the pixel; it is not below
the threshold of 30 at j = 7, so the left head keeps that one. -/
theorem test_blend :
    (let g : Dev := { wit with
      pat.loaded.gauge := { selvedge := 64, heads := [{ link := 4, firstCol := 7936 }, { link := 5, firstCol := 9920 }] }
      las.blend := { ramp := true, mask := List.replicate 256 33 } }
    (g.keeper 0 1 true 9930 79369992, g.keeper 0 1 true 9927 79369992)) = (1, 0) := by decide +kernel

/-- The worked example of 09_drop_energy: size 2, history 0b0101 in class 2, a WARM head, and TRIM 6 under fine drive. -/
theorem test_drop_code :
    (let d : Dev := ((wit.wr F.HL_TEMP_STAT_STATE 5 1).wr F.PE_HIST_CFG_HIST_EN 0 1).wr F.PE_HIST_MAP_MAP 5 (2 * 4 ^ 5)
    let d : Dev := { d with
      regsOpen := d.regs
      pace.hist := [(nozzleIdx 5 0 10, 5)]
      pace.commits := [(rowKey 5 0, 100)]
      pace.trim := [(2561, 0x600)] }
    let s : Slice := { en := 0, head := 5, row := 0, line := 79369992, q := 0 }
    (d.codeOf s none 10 2, ({ d with pat.loaded.gauge.fine := true } : Dev).codeOf s none 10 2)) = (0b1011, 0x9B) := by decide +kernel

/-! ### The wire codings of chapter 11 -/

/-- R180: /I/ from negative running disparity is K28.5 D16.2, the code groups 001111 1010 and 100100 0101 of the code R180 names. -/
theorem test_idle_groups : codeGroups false idleChars = [0b0011111010, 0b1001000101] := by decide +kernel

/-- R180, R183: data characters are read back from their code groups at either running disparity. -/
theorem test_code_groups_read_back :
    ∀ rd : Bool, ∀ b ∈ [0x00, 0x50, 0x5E, 0xE7, 0xEB, 0xFF], readGroup (codeGroup (.d b) rd).1 rd = some (.d b) := by decide +kernel

/-- R180: a frame of two bytes goes as /S/, its bytes and /T/ after one /I/. -/
theorem test_frame_chars :
    charStream [[1, 2]] = [.k 0xBC, .d 0x50, .k 0xFB, .d 1, .d 2, .k 0xFD] := by decide +kernel

/-- R181: a frame of eight bytes goes as an IDLE block, a SOF block with bytes 0 to 6, and one padded data block. -/
theorem test_frame_blocks :
    blockStream [[1, 2, 3, 4, 5, 6, 7, 8]] = [⟨true, 0x1E⟩, ⟨true, 0x0706050403020178⟩, ⟨false, 8⟩] := by decide +kernel

/-- R181: a payload is recovered by the receiver whose scrambler state agrees. -/
theorem test_scrambler :
    (descramble 64 (scramble 64 0x0706050403020178 0x155555555555555).1 0x155555555555555).1 = 0x0706050403020178 := by decide +kernel

/-! ### The package of chapter 22 -/

/-- The IDCODE of R381's table. -/
theorem test_idcode : idcode = 0xB7120B4D#32 := by decide +kernel

/-- The worked ball assignments of chapter 22, and one of VDD. -/
theorem test_balls :
    pinAt ⟨44, 19⟩ = some (.link 21 false true) ∧ pinAt ⟨21, 46⟩ = some (.cam 6 (some 2) true) ∧ pinAt ⟨40, 34⟩ = some (.dq 1 83) ∧
    pinAt ⟨33, 31⟩ = some (.pcie 1 5 false true) ∧ railAt ⟨11, 20⟩ = some .vdd := by decide +kernel

/-- R374: E30 ERR_OUTn, E18 A0_CLK, E31 MARK0 and E4 Q0_A hold their reset states right after reset; R376: with VDD out of range E30 is at
high impedance; R372: AW38, which is M0_CS1n, is driven high with RANKS = 1. -/
theorem test_pin_levels :
    [5, 5, 5, 5].zipWith (fun r c => State.reset.dev.levelAt ⟨r, c⟩ 0) [30, 18, 31, 4] = [some .low, some .high, some .low, some .pullDown] ∧
    ({ State.reset.dev with sys.railsOut := [.vdd] } : Dev).levelAt ⟨5, 30⟩ 0 = some .highZ ∧
    (wit.wr F.DM_STAT_RANKS 0 0).levelAt ⟨37, 38⟩ 0 = some .high := by decide +kernel

/-- R375: the number of balls of VDDHL. -/
theorem test_rail_count : (allBalls.filter fun b => railAt b = some .vddhl).length = 49 := by decide +kernel

/-- The worked example of R387: an enclosure at 55 degrees C with 0.10 degrees C/W asks for a heatsink of 0.729 or better. -/
theorem test_heatsink : heatsinkMost 55 100 = 729 := by decide +kernel

/-- The example "abc" of FIPS 180-4, which R38 cites. -/
theorem test_sha256 : ofBeBytes (sha256 [0x61, 0x62, 0x63]) =
    0xba7816bf8f01cfea414140de5dae2223b00361a396177a9cb410ff61f20015ad := by decide +kernel

/-! ### Witnesses: every clause's hypotheses are met -/

/-- The invariant as a check. -/
def invB (d : Dev) : Bool :=
  keysRising 0 d.regs && Memory.wf d.mem && Memory.wf d.vlt.ram && decide ((d.hst.ports.length = 2 ∧ ∀ x ∈ d.hst.ports, x.msix.length = 2 ∧ x.bars.length = 3) ∧ d.hst.uploads.length = 2) &&
  decide (d.tmb.ports.length = 2 ∧ d.web.quads.length = 4 ∧ d.cdc.enc.length = 4 ∧ d.cdc.win.length = 16) &&
  decide (d.pace.temps.length = 32 ∧ d.hl.length = 32 ∧ (∀ x ∈ d.hl, x.reqs.length = 3)) &&
  decide (d.ins.cams.length = 8 ∧ d.ins.i2c.length = 2 ∧ d.drm.arbs.length = 2 ∧ d.mot.axes.length = 4 ∧ d.srv.axes.length = 2) &&
  keysRising 0 d.web.cmpJ

theorem inv_of {s : State} (h : invB s.dev = true) : s.Inv := by
  simp only [invB, Bool.and_eq_true, decide_eq_true_eq] at h
  exact ⟨h.1.1.1.1.1.1.1, h.1.1.1.1.1.1.2, h.1.1.1.1.1.2, h.1.1.1.1.2.1.1, h.1.1.1.1.2.1.2, h.1.1.1.1.2.2, h.1.1.1.2.1, h.1.1.1.2.2.1, h.1.1.1.2.2.2.1,
    h.1.1.1.2.2.2.2, h.1.1.2.1, h.1.1.2.2.1, h.1.1.2.2.2, h.1.2.1, h.1.2.2.1, h.1.2.2.2.1, h.1.2.2.2.2.1, h.1.2.2.2.2.2, h.2⟩

/-- The state that a command answers, or the state it was given. -/
def nxt (c : Instr) (s : State) : State := match exec c s with | .next t => t | _ => s

theorem ok_and {ε α : Type} {r : Except ε α} {p : α → Prop} [∀ x, Decidable (p x)]
    (h : (match r with | .ok x => decide (p x) | .error _ => false) = true) : ∃ x, r = .ok x ∧ p x := by
  cases r with
  | ok x => exact ⟨x, rfl, by simpa using h⟩
  | error e => cases h

theorem ok_after {ε α : Type} {P : Prop} {r : Except ε α} (hp : P) (h : (match r with | .ok _ => true | .error _ => false) = true) :
    ∃ x, P ∧ r = .ok x := by
  cases r with
  | ok x => exact ⟨x, hp, rfl⟩
  | error e => cases h

theorem ok_of {ε α : Type} {r : Except ε α} (h : (match r with | .ok _ => true | .error _ => false) = true) : ∃ x, r = .ok x := by
  cases r with
  | ok x => exact ⟨x, rfl⟩
  | error e => cases h

theorem error_of {ε α : Type} [DecidableEq ε] {r : Except ε α} {e : ε}
    (h : (match r with | .ok _ => false | .error x => decide (x = e)) = true) : r = .error e := by
  cases r with
  | ok x => cases h
  | error x => exact congrArg _ (by simpa using h)

theorem done_of {β : Type} {p : StepEnd × β} (h : (match p.1 with | .done => true | _ => false) = true) : p = (.done, p.2) := by
  obtain ⟨a, b⟩ := p
  cases a <;> first | rfl | cases h

/-- A section record (R37) of a type and a value. -/
def mkRecord (t : Nat) (v : List Byte) : List Byte :=
  let r := leBytes 4 t ++ leBytes 4 v.length ++ v
  r ++ leBytes 4 (crc32 r)

/-- An image (R35, R38) of a KIND, with PATTERN_ID 1 and a BASE_ID, from its records, signed with the key whose secret is 1. -/
def mkImage (kind base : Nat) (records : List (List Byte)) : List Byte :=
  let body := records.flatten
  let h := leBytes 4 0x5441504B ++ leBytes 2 1 ++ leBytes 2 0x7120 ++ leBytes 1 0xB0 ++ leBytes 1 kind ++ leBytes 2 records.length ++
    leBytes 4 (200 + body.length) ++ leBytes 8 0 ++ leBytes 8 1 ++ leBytes 8 base ++ leBytes 20 0
  let signed := h ++ leBytes 4 (crc32 h) ++ body
  let (r, s) := ecdsaSign 1 (ofBeBytes (sha256 signed)) 1
  signed ++ leBytes 4 0x4E474953 ++ leBytes 1 4 ++ beBytes 32 p256Gx ++ beBytes 32 p256Gy ++ leBytes 3 0 ++ beBytes 32 r ++ beBytes 32 s

/-- GAUGE (R45) with one head on link 0 and the smallest line window. -/
def gaugeBytes : List Byte :=
  leBytes 4 1 ++ leBytes 4 1000 ++ leBytes 2 1200 ++ leBytes 2 0 ++ leBytes 4 1024 ++ leBytes 8 0 ++ leBytes 4 0 ++ leBytes 8 0 ++
    leBytes 4 65536

def budgetBytes : List Byte := leBytes 8 0x0F000F000F000F00 ++ leBytes 4 62

/-- The smallest full image: engine 0 alone, one region, one link, one head. -/
def fullImage : List Byte := mkImage 0 0 [
  mkRecord 1 (leBytes 4 4 ++ leBytes 4 0x08820C01 ++ leBytes 4 0x09820C01 ++ leBytes 4 0x09810801 ++ leBytes 4 0x0B810901),
  mkRecord 2 (leBytes 4 0xC ++ leBytes 4 3 ++ leBytes 4 0 ++ leBytes 4 1 ++ leBytes 8 0x20000000),
  mkRecord 3 (leBytes 4 0x103 ++ leBytes 2 12 ++ leBytes 2 100),
  mkRecord 4 (leBytes 8 0xA55A4000 ++ leBytes 4 2 ++ leBytes 4 64 ++ List.replicate 128 0),
  mkRecord 5 (leBytes 4 0xD ++ (List.replicate 31 (leBytes 4 0xC)).flatten),
  mkRecord 6 gaugeBytes, mkRecord 11 budgetBytes]

/-- A re-pattern image on base 1. -/
def reloadImage : List Byte := mkImage 1 1 [mkRecord 6 gaugeBytes, mkRecord 11 budgetBytes]

/-- A page of no lines, whose one band is empty, and the state in which the spare decodes that band again. -/
def bandP : Page := { uid := 3, mask := 0x8000, table := 0x1000, lines := 0 }

def bandB : Buf := ⟨15, 15, 3, 0, false, true, 0, []⟩

def bandD : Dev :=
  { wit with mem := [(0x10F1, 0x20), (0x10F8, 4), (0x2000, 0x42)], cdc.pages := [bandP], cdc.bufs := [bandB] }

def bandA : Buf := ⟨15, 15, 3, 0, false, false, 0, []⟩

/-- The same, with a CRC in the band's table entry that no empty band has. -/
def bandMem : List Host.Cell := [(0x10F1, 0x20), (0x10F8, 4), (0x10FC, 1), (0x2000, 0x42)]

/-- An answer of link l's head with the right MAC for a NONCE, and one with another MAC. -/
def goodBody (d : Dev) (sub l nonce : Nat) : AuthBody :=
  { hserial := BitVec.ofNat 64 (d.headSerial l), nonce := BitVec.ofNat 128 nonce, usage := 7
    mac := BitVec.ofNat 128 (d.authMac sub (d.headSerial l) nonce 7) }

def badBody (d : Dev) (sub l nonce : Nat) : AuthBody :=
  { goodBody d sub l nonce with mac := BitVec.ofNat 128 (d.authMac sub (d.headSerial l) nonce 7 + 1) }

theorem mac_of {x : Nat} (h : x < 2 ^ 128) : (BitVec.ofNat 128 x).toNat = x := by
  rw [BitVec.toNat_ofNat]; exact Nat.mod_eq_of_lt h

theorem mac_ne {x : Nat} (h : x < 2 ^ 128) : (BitVec.ofNat 128 (x + 1)).toNat ≠ x := by
  rw [BitVec.toNat_ofNat]; omega

theorem witness_RegisterWriteByType :
    (∃ (m : Master) (off val : Nat) (h : Hit) (s : State), s.Inv ∧ s.dev.hears m = true ∧ s.dev.regCheck m off = .pass ∧ off % 4 = 0 ∧ findReg off regTable = some h ∧ h.row.reg.width = 32 ∧ (∀ w ∈ writeRules, w.1.base ≠ h.row.reg.base) ∧ slotActiveWord off 4 = none) ∧
    (∃ (m : Master) (off val : Nat) (h : Hit) (s : State), s.Inv ∧ s.dev.hears m = true ∧ s.dev.regCheck m off = .pass ∧ s.dev.regCheck m (off + 4) = .pass ∧ off % 8 = 0 ∧ findReg off regTable = some h ∧ h.row.reg.width = 64 ∧ h.high = false ∧ (∀ w ∈ writeRules, w.1.base ≠ h.row.reg.base) ∧ slotActiveWord off 8 = none) ∧
    (∃ (m : Master) (off val : Nat) (h : Hit) (s : State), let word := if h.high then 2 ^ 32 else 1; s.Inv ∧ s.dev.hears m = true ∧ s.dev.regCheck m off = .pass ∧ off % 4 = 0 ∧ findReg off regTable = some h ∧ h.row.reg.width = 64 ∧ (∀ w ∈ writeRules, w.1.base ≠ h.row.reg.base) ∧ slotActiveWord off 4 = none ∧ val < 2 ^ 32) ∧
    (∃ (m : Master) (off val : Nat) (h k : Hit) (s : State), s.Inv ∧ s.dev.hears m = true ∧ s.dev.regCheck m off = .pass ∧ s.dev.regCheck m (off + 4) = .pass ∧ off % 8 = 0 ∧ findReg off regTable = some h ∧ h.row.reg.width = 32 ∧ (∀ w ∈ writeRules, w.1.base ≠ h.row.reg.base) ∧ slotActiveWord off 8 = none ∧ val < 2 ^ 64 ∧ findReg (off + 4) regTable = none) ∧
    (∃ (m : Master) (off val : Nat) (h k : Hit) (s : State), s.Inv ∧ s.dev.hears m = true ∧ s.dev.regCheck m off = .pass ∧ s.dev.regCheck m (off + 4) = .pass ∧ off % 8 = 0 ∧ findReg off regTable = some h ∧ h.row.reg.width = 32 ∧ (∀ w ∈ writeRules, w.1.base ≠ h.row.reg.base) ∧ slotActiveWord off 8 = none ∧ val < 2 ^ 64 ∧ findReg (off + 4) regTable = some k ∧ k.row.reg.width = 32 ∧ (∀ w ∈ writeRules, w.1.base ≠ k.row.reg.base)) :=
  ⟨⟨.p1, 0xd000028, 0xFFFFFFFF, ((findReg 0xd000028 regTable).get (by decide +kernel)), ⟨wit, []⟩, inv_of (by decide +kernel), by decide +kernel, by decide +kernel, by decide +kernel, (Option.some_get _).symm, by decide +kernel, by decide +kernel, by decide +kernel⟩,
    ⟨.p1, 0xd000020, 0x1234000500000001, ((findReg 0xd000020 regTable).get (by decide +kernel)), ⟨wit, []⟩, inv_of (by decide +kernel), by decide +kernel, by decide +kernel, by decide +kernel, by decide +kernel, (Option.some_get _).symm, by decide +kernel, by decide +kernel, by decide +kernel, by decide +kernel⟩,
    ⟨.p1, 0x7000100, 0x12345678, ((findReg 0x7000100 regTable).get (by decide +kernel)), ⟨wit, []⟩, inv_of (by decide +kernel), by decide +kernel, by decide +kernel, by decide +kernel, (Option.some_get _).symm, by decide +kernel, by decide +kernel, by decide +kernel, by decide +kernel⟩,
    ⟨.p1, 0xd000028, (2 ^ 64 - 1), ((findReg 0xd000028 regTable).get (by decide +kernel)), ((findReg ((0xd000028 : Nat) + 4) regTable).getD ⟨⟨R.GL_SERIAL, []⟩, 0, false⟩), ⟨wit, []⟩, inv_of (by decide +kernel), by decide +kernel, by decide +kernel, by decide +kernel, by decide +kernel, (Option.some_get _).symm, by decide +kernel, by decide +kernel, by decide +kernel, by decide +kernel, by decide +kernel⟩,
    ⟨.p1, 0x8000100, 0x123456789ABCDEF0, ((findReg 0x8000100 regTable).get (by decide +kernel)), ((findReg (0x8000100 + 4) regTable).get (by decide +kernel)), ⟨wit, []⟩, inv_of (by decide +kernel), by decide +kernel, by decide +kernel, by decide +kernel, by decide +kernel, (Option.some_get _).symm, by decide +kernel, by decide +kernel, by decide +kernel, by decide +kernel, (Option.some_get _).symm, by decide +kernel, by decide +kernel⟩⟩

def wRegisterReads0 : State :=
  ⟨(wit.wr F.GL_SERIAL_SERIAL 0 0x1122334455667788), []⟩

def wRegisterReads1 : State :=
  ⟨{ wit with bus.p1.held := some (8, 7) }, []⟩

def wRegisterReads2 : State :=
  ⟨{ wit with tmb.acc := 2 ^ 96 - 1 }, []⟩

theorem witness_RegisterReads :
    (∃ (m : Master) (off : Nat) (h : Hit) (s : State), s.dev.hears m = true ∧ s.dev.regCheck m off = .pass ∧ off % 4 = 0 ∧ findReg off regTable = some h ∧ h.row.reg.width = 64 ∧ h.high = false ∧ h.row.reg.base ≠ R.TRM_CH.base) ∧
    (∃ (m : Master) (off hi : Nat) (h : Hit) (s : State), s.dev.hears m = true ∧ s.dev.regCheck m (off + 4) = .pass ∧ off % 4 = 0 ∧ findReg (off + 4) regTable = some h ∧ h.row.reg.width = 64 ∧ h.high = true ∧ (s.dev.latch m).held = some (off, hi)) ∧
    (∃ (m : Master) (s : State), s.dev.Takes m R.TB_NOW 0) :=
  ⟨⟨.p1, 0x8, ((findReg 8 regTable).get (by decide +kernel)), wRegisterReads0, by decide +kernel, by decide +kernel, by decide +kernel, (Option.some_get _).symm, by decide +kernel, by decide +kernel, by decide +kernel⟩,
    ⟨.p1, 0x8, 7, ((findReg (8 + 4) regTable).get (by decide +kernel)), wRegisterReads1, by decide +kernel, by decide +kernel, by decide +kernel, (Option.some_get _).symm, by decide +kernel, by decide +kernel, by decide +kernel⟩,
    ⟨.p1, wRegisterReads2, by decide +kernel⟩⟩

def wAccessRefused0 : State :=
  ⟨{ wit with pat.loaded.worlds.port := 0, pat.loaded.worlds.block := 2 ^ 0x14 }, []⟩

def wAccessRefused1 : State :=
  ⟨{ wit with pat.loaded.worlds.port := 0 }, []⟩

def wAccessRefused2 : State :=
  ⟨{ wit with pat.loaded.worlds.master := 0 }, []⟩

theorem witness_AccessRefused_part1 :
    (∃ (p : Fin 2) (off val : Nat) (s : State), s.dev.hears (hostOf p) = true ∧ off % 4 = 0 ∧ slotActiveWord off 4 = none ∧ s.dev.regCheck (hostOf p) off = .world) ∧
    (∃ (p : Fin 2) (off val : Nat) (s : State), s.dev.hears (hostOf p) = true ∧ off % 4 = 0 ∧ slotActiveWord off 4 = none ∧ s.dev.regCheck (hostOf p) off = .world) ∧
    (∃ (p : Fin 2) (off val : Nat) (s : State), s.dev.hears (hostOf p) = true ∧ off % 4 = 0 ∧ slotActiveWord off 4 = none ∧ s.dev.regCheck (hostOf p) off = .unmapped) ∧
    (∃ (p : Fin 2) (off val : Nat) (s : State), s.dev.hears (hostOf p) = true ∧ off % 4 = 0 ∧ slotActiveWord off 4 = none ∧ s.dev.regCheck (hostOf p) off = .unmapped) ∧
    (∃ (p : Fin 2) (off val : Nat) (s : State), s.dev.hears (hostOf p) = true ∧ off % 4 = 0 ∧ slotActiveWord off 4 = none ∧ (s.dev.regCheck (hostOf p) off = .meaningless ∨ (s.dev.regCheck (hostOf p) off = .pass ∧ findReg off regTable = none))) ∧
    (∃ (p : Fin 2) (off val : Nat) (s : State), s.dev.hears (hostOf p) = true ∧ off % 4 = 0 ∧ slotActiveWord off 4 = none ∧ (s.dev.regCheck (hostOf p) off = .meaningless ∨ (s.dev.regCheck (hostOf p) off = .pass ∧ findReg off regTable = none))) :=
  ⟨⟨1, 0x14FFFFFC, 0xFFFFFFFF, wAccessRefused0, by decide +kernel, by decide +kernel, by decide +kernel, by decide +kernel⟩,
    ⟨1, 0x14FFFFFC, 0xFFFFFFFF, wAccessRefused0, by decide +kernel, by decide +kernel, by decide +kernel, by decide +kernel⟩,
    ⟨1, 0x15000000, 0xFFFFFFFF, ⟨wit, []⟩, by decide +kernel, by decide +kernel, by decide +kernel, by decide +kernel⟩,
    ⟨1, 0x15000000, 0xFFFFFFFF, ⟨wit, []⟩, by decide +kernel, by decide +kernel, by decide +kernel, by decide +kernel⟩,
    ⟨1, 0x14FFFFFC, 0xFFFFFFFF, ⟨wit, []⟩, by decide +kernel, by decide +kernel, by decide +kernel, by decide +kernel⟩,
    ⟨1, 0x14FFFFFC, 0xFFFFFFFF, ⟨wit, []⟩, by decide +kernel, by decide +kernel, by decide +kernel, by decide +kernel⟩⟩

theorem witness_AccessRefused_part2 :
    (∃ (p : Fin 2) (off : Nat) (data : List Byte) (s : State), let a := s.dev.bar2Addr p off; s.dev.hears (hostOf p) = true ∧ (s.dev.frontHeld = false ∨ (s.dev.pat.applied = false ∧ s.dev.sys.reset = none)) ∧ s.dev.checkDram (s.dev.portSecure p) a data.length = .world ∧ off + data.length ≤ 2 ^ 32) ∧
    (∃ (p : Fin 2) (off : Nat) (data : List Byte) (s : State), let a := s.dev.bar2Addr p off; s.dev.hears (hostOf p) = true ∧ (s.dev.frontHeld = false ∨ (s.dev.pat.applied = false ∧ s.dev.sys.reset = none)) ∧ s.dev.checkDram (s.dev.portSecure p) a data.length = .world ∧ off + data.length ≤ 2 ^ 32) ∧
    (∃ (p : Fin 2) (off : Nat) (data : List Byte) (s : State), let a := s.dev.bar2Addr p off; s.dev.hears (hostOf p) = true ∧ (s.dev.frontHeld = false ∨ (s.dev.pat.applied = false ∧ s.dev.sys.reset = none)) ∧ (s.dev.checkDram (s.dev.portSecure p) a data.length = .unmapped ∨ 2 ^ 32 < off + data.length)) ∧
    (∃ (p : Fin 2) (off : Nat) (data : List Byte) (s : State), let a := s.dev.bar2Addr p off; s.dev.hears (hostOf p) = true ∧ (s.dev.frontHeld = false ∨ (s.dev.pat.applied = false ∧ s.dev.sys.reset = none)) ∧ (s.dev.checkDram (s.dev.portSecure p) a data.length = .unmapped ∨ 2 ^ 32 < off + data.length)) ∧
    (∃ (rq : Fin 20) (a : Nat) (bs : List Byte) (s : State), bs ≠ [] ∧ s.dev.sys.reset = none ∧ s.dev.checkDram (s.dev.reqSecure rq a) a bs.length = .world) :=
  ⟨⟨1, 0, ([1, 2]), wAccessRefused1, by decide +kernel, by decide +kernel, by decide +kernel, by decide +kernel⟩,
    ⟨1, 0, ([1, 2]), wAccessRefused1, by decide +kernel, by decide +kernel, by decide +kernel, by decide +kernel⟩,
    ⟨1, (2 ^ 32 - 1), ([1, 2]), ⟨wit, []⟩, by decide +kernel, by decide +kernel, by decide +kernel⟩,
    ⟨1, (2 ^ 32 - 1), ([1, 2]), ⟨wit, []⟩, by decide +kernel, by decide +kernel, by decide +kernel⟩,
    ⟨19, (2 ^ 36 - 1), ([1]), wAccessRefused2, by decide +kernel, by decide +kernel, by decide +kernel⟩⟩

def wApertureReachesDram0 : State :=
  ⟨wit.wr F.HST_APBASE_BASE 1 32767, []⟩

def wApertureReachesDram1 : State :=
  ⟨{ wit with mem := [(2 ^ 36 - 3, 7)] }.wr F.HST_APBASE_BASE 1 32767, []⟩

def wApertureReachesDram2 : State :=
  ⟨{ wit with drm.speed := some 1 }, []⟩

def wApertureReachesDram3 : State :=
  ⟨{ wit with hst.ports := [{}, { aerStatus := 0xC0 }] }, []⟩

def wApertureReachesDram4 : State :=
  ⟨{ wit with hst.ports := [{}, { msixOn := true, msix := [{}, { pending := true }] }] }, []⟩

theorem witness_ApertureReachesDram :
    (∃ (m : Master) (p : Fin 2) (val : Nat) (s : State), s.Inv ∧ s.dev.Takes m R.HST_APBASE p ∧ portOf m = some p) ∧
    (∃ (p : Fin 2) (off len : Nat) (s : State), s.dev.hears (hostOf p) = true ∧ (s.dev.frontHeld = false ∨ s.dev.pat.applied = false) ∧ 0 < len ∧ (s.dev.capacity ≤ s.dev.rd F.HST_APBASE_BASE p * 2 ^ 21 + off ∨ 2 ^ 32 < off + len)) ∧
    (∃ (p : Fin 2) (off len : Nat) (s : State), let a := s.dev.rd F.HST_APBASE_BASE p * 2 ^ 21 + off; s.dev.hears (hostOf p) = true ∧ s.dev.frontHeld = false ∧ off + len ≤ 2 ^ 32 ∧ s.dev.checkDram (s.dev.portSecure p) a len = .pass ∧ (∀ f ∈ s.dev.drm.fetched, f.rq ≠ 10 + p.val) ∧ (∀ g ∈ granules a len, s.dev.granuleBad g = false)) ∧
    (∃ (p : Fin 2) (off : Nat) (data : List Byte) (s : State), let a := s.dev.rd F.HST_APBASE_BASE p * 2 ^ 21 + off; s.Inv ∧ s.dev.hears (hostOf p) = true ∧ s.dev.frontHeld = false ∧ off + data.length ≤ 2 ^ 32 ∧ s.dev.checkDram (s.dev.portSecure p) a data.length = .pass ∧ s.dev.ue = []) ∧
    (∃ (p : Fin 2) (off len : Nat) (data : List Byte) (s : State), s.dev.hears (hostOf p) = true ∧ s.dev.pat.applied = true ∧ s.dev.frontHeld = true ∧ off + len ≤ 2 ^ 32) ∧
    (∃ (p : Fin 2) (off len : Nat) (data : List Byte) (s : State), s.dev.hears (hostOf p) = true ∧ s.dev.pat.applied = true ∧ s.dev.frontHeld = true ∧ off + data.length ≤ 2 ^ 32) ∧
    (∃ (p : Fin 2) (b c : Bool) (n : Nat) (k : Fin 3) (s : State), let h := s.dev.port p; s.Inv ∧ (at' h.msix 0).pending = false ∧ (at' h.msix 1).pending = false) ∧
    (∃ (p : Fin 2) (b c : Bool) (n : Nat) (k : Fin 3) (s : State), let h := s.dev.port p; s.Inv ∧ 128 ≤ n) ∧
    (∃ (p : Fin 2) (b c : Bool) (n : Nat) (k : Fin 3) (s : State), let h := s.dev.port p; s.Inv ∧ (at' h.msix 0).pending = false ∧ (at' h.msix 1).pending = false) ∧
    (∃ (p v : Fin 2) (addr data : Nat) (masked : Bool) (s : State), let h := s.dev.port p; let sends := (at' h.msix v).pending && (h.msixOn && (h.busMaster && (!h.msixMask && !masked))); s.Inv ∧ addr < 2 ^ 64 ∧ data < 2 ^ 32) :=
  ⟨⟨.p1, 1, 0xFFFFFFFF, ⟨wit, []⟩, inv_of (by decide +kernel), by decide +kernel, by decide +kernel⟩,
    ⟨1, (2 ^ 21), 1, wApertureReachesDram0, by decide +kernel, by decide +kernel, by decide +kernel, by decide +kernel⟩,
    ⟨1, (2 ^ 21 - 129), 129, wApertureReachesDram1, by decide +kernel, by decide +kernel, by decide +kernel, by decide +kernel, by decide +kernel, by decide +kernel⟩,
    ⟨1, (2 ^ 21 - 2), ([1, 2]), wApertureReachesDram0, inv_of (by decide +kernel), by decide +kernel, by decide +kernel, by decide +kernel, by decide +kernel, by decide +kernel⟩,
    ⟨1, (2 ^ 32 - 1), 1, ([1]), wApertureReachesDram2, by decide +kernel, by decide +kernel, by decide +kernel, by decide +kernel⟩,
    ⟨1, (2 ^ 32 - 1), 1, ([1]), wApertureReachesDram2, by decide +kernel, by decide +kernel, by decide +kernel, by decide +kernel⟩,
    ⟨1, true, true, 128, 2, wApertureReachesDram3, inv_of (by decide +kernel), by decide +kernel, by decide +kernel⟩,
    ⟨1, true, true, 128, 2, wApertureReachesDram3, inv_of (by decide +kernel), by decide +kernel⟩,
    ⟨1, true, true, 128, 2, wApertureReachesDram3, inv_of (by decide +kernel), by decide +kernel, by decide +kernel⟩,
    ⟨1, 1, 0xFEE00000, 7, false, wApertureReachesDram4, inv_of (by decide +kernel), by decide +kernel, by decide +kernel⟩⟩

def wPortEvents0 : State :=
  ⟨({ wit with hst.ports := [{ busMaster := true }, { d3hot := true, seq := 5 }] }.wr F.HST_PORT_STAT_LINK_UP 1 1).wr F.HST_PORT_STAT_RESETS 1 0xFFFF, []⟩

def wPortEvents1 : State :=
  ⟨({ wit with hst.ports := [{}, { busMaster := true, snap := { running := true, sets := 1 } }] }.wr F.HST_SNAP_CTRL_BUSY 1 1).wr F.HST_PORT_STAT_LINK_UP 1 1, []⟩

theorem witness_PortEvents :
    (∃ (p : Fin 2) (perst : Bool) (s : State), s.Inv ∧ s.dev.rd F.HST_SNAP_CTRL_BUSY p = 0) ∧
    (∃ (p : Fin 2) (perst : Bool) (s : State), let j := (s.dev.port p).snap; let len := 8 * (s.dev.copyWords j).length; s.Inv ∧ s.dev.rd F.HST_SNAP_CTRL_BUSY p = 1) ∧
    (∃ (p : Fin 2) (speed width : Nat) (s : State), s.Inv ∧ s.dev.inReset = false ∧ s.dev.stepPassed 2 = true) ∧
    (∃ (m : Master) (p : Fin 2) (val : Nat) (s : State), s.dev.Takes m R.HST_DOORBELL p ∧ portOf m = some p) :=
  ⟨⟨1, true, wPortEvents0, inv_of (by decide +kernel), by decide +kernel⟩,
    ⟨1, true, wPortEvents1, inv_of (by decide +kernel), by decide +kernel⟩,
    ⟨1, 7, 15, ⟨wit, []⟩, inv_of (by decide +kernel), by decide +kernel, by decide +kernel⟩,
    ⟨.p1, 1, 0xFFFFFFFF, ⟨wit, []⟩, by decide +kernel, by decide +kernel⟩⟩

def wEventRings0 : State :=
  ⟨{ wit with raised := [{ code := 1, p0 := false, p1 := true, beat := 0, steps := 0, payload := [] }, default] }, []⟩

def wEventRings1 : State :=
  ⟨({ wit with raised := [{ code := 1, p0 := true, p1 := false, beat := 0, steps := 0, payload := [] }], hst.ports := [{ queue := [(3, default)], seq := 2 ^ 32 - 1 }, {}] }.wr F.HST_EVR_CFG_ENABLE 0 1), []⟩

def wEventRings2 : State :=
  ⟨({ wit with raised := [{ code := 1, p0 := false, p1 := true, beat := 0, steps := 0, payload := [] }], hst.ports := [{}, { queue := List.replicate 64 (3, default) }] }.wr F.HST_EVR_CFG_ENABLE 1 1), []⟩

def wEventRings3 : State :=
  ⟨(({ wit with raised := [{ code := 1, p0 := false, p1 := true, beat := 0, steps := 0, payload := [] }], hst.ports := [{}, { busMaster := true, log := 16, lost := true }] }.wr F.HST_EVR_CFG_ENABLE 1 1).wr F.HST_EVR_HEAD_HEAD 1 0xFFFF).wr F.HST_EVR_TAIL_TAIL 1 1, []⟩

def wEventRings4 : State :=
  ⟨({ wit with hst.ports := [{}, { queue := [(3, default)], busMaster := true, log := 16, lost := true }] }.wr F.HST_EVR_CFG_ENABLE 1 1).wr F.HST_EVR_HEAD_HEAD 1 0xFFFF |>.wr F.HST_EVR_TAIL_TAIL 1 1, []⟩

def wEventRings5 : State :=
  ⟨{ wit with hst.ports := [{}, { busMaster := true, modDue := true, msixOn := true, msix := [{ masked := false, addr := 16, data := 3 }, {}] }] }, []⟩

def wEventRings6 : State :=
  ⟨{ wit with hst.ports := [{}, { busMaster := true, modDue := true, msixOn := true }] }, []⟩

def wEventRings7 : State :=
  ⟨({ wit with hst.ports := [{}, { queue := [(3, default)] }] }.wr F.HST_EVR_CFG_ENABLE 1 1).wr F.HST_EVR_STAT_LOST 1 65535, []⟩

theorem witness_EventRings :
    (∃ (m : Master) (p : Fin 2) (val : Nat) (s : State), s.Inv ∧ s.dev.Takes m R.HST_EVR_CFG p ∧ portOf m = some p ∧ s.dev.ringOn p = false ∧ setsBit val 0) ∧
    (∃ (ev : Ev) (rest : List Ev) (p : Fin 2) (s : State), let h := s.dev.port p; s.Inv ∧ s.dev.raised = ev :: rest ∧ ev.p0 = decide (p = 0) ∧ ev.p1 = decide (p = 1) ∧ s.dev.ringOn p = false) ∧
    (∃ (ev : Ev) (rest : List Ev) (p : Fin 2) (s : State), let h := s.dev.port p; s.Inv ∧ s.dev.raised = ev :: rest ∧ ev.p0 = decide (p = 0) ∧ ev.p1 = decide (p = 1) ∧ s.dev.ringOn p = true ∧ (h.queue ≠ [] ∨ s.dev.canWrite p = false) ∧ h.queue.length < 64) ∧
    (∃ (ev : Ev) (rest : List Ev) (p : Fin 2) (s : State), let h := s.dev.port p; s.Inv ∧ s.dev.raised = ev :: rest ∧ ev.p0 = decide (p = 0) ∧ ev.p1 = decide (p = 1) ∧ s.dev.ringOn p = true ∧ 64 ≤ h.queue.length) ∧
    (∃ (ev : Ev) (rest : List Ev) (p : Fin 2) (s : State), let h := s.dev.port p; s.Inv ∧ s.dev.raised = ev :: rest ∧ ev.p0 = decide (p = 0) ∧ ev.p1 = decide (p = 1) ∧ s.dev.ringOn p = true ∧ h.queue = [] ∧ s.dev.canWrite p = true ∧ h.log ≤ 16) ∧
    (∃ (p : Fin 2) (seq : Nat) (ev : Ev) (rest : List (Nat × Ev)) (s : State), s.Inv ∧ (s.dev.port p).queue = (seq, ev) :: rest ∧ s.dev.ringOn p = true ∧ s.dev.canWrite p = true ∧ (s.dev.port p).log ≤ 16) ∧
    (∃ (m : Master) (p : Fin 2) (val : Nat) (s : State), s.Inv ∧ s.dev.Takes m R.HST_EVR_TAIL p ∧ portOf m = some p) ∧
    (∃ (p : Fin 2) (s : State), let h := s.dev.port p; let e := at' h.msix 0; s.Inv ∧ h.modDue = true ∧ h.busMaster = true ∧ h.msixOn = true ∧ h.msixMask = false ∧ e.masked = false) ∧
    (∃ (p : Fin 2) (s : State), let h := s.dev.port p; let e := at' h.msix 0; s.Inv ∧ h.modDue = true ∧ h.busMaster = true ∧ h.msixOn = true ∧ (h.msixMask = true ∨ e.masked = true)) ∧
    (∃ (m : Master) (p : Fin 2) (val : Nat) (s : State), s.Inv ∧ s.dev.Takes m R.HST_EVR_CFG p ∧ portOf m = some p ∧ s.dev.ringOn p = true ∧ ¬ setsBit val 0) :=
  ⟨⟨.p1, 1, 0xFFFFFFFF, ⟨wit, []⟩, inv_of (by decide +kernel), by decide +kernel, by decide +kernel, by decide +kernel, by decide +kernel⟩,
    ⟨({ code := 1, p0 := false, p1 := true, beat := 0, steps := 0, payload := [] }), ([default]), 1, wEventRings0, inv_of (by decide +kernel), by decide +kernel, by decide +kernel, by decide +kernel, by decide +kernel⟩,
    ⟨({ code := 1, p0 := true, p1 := false, beat := 0, steps := 0, payload := [] }), ([]), 0, wEventRings1, inv_of (by decide +kernel), by decide +kernel, by decide +kernel, by decide +kernel, by decide +kernel, by decide +kernel, by decide +kernel⟩,
    ⟨({ code := 1, p0 := false, p1 := true, beat := 0, steps := 0, payload := [] }), ([]), 1, wEventRings2, inv_of (by decide +kernel), by decide +kernel, by decide +kernel, by decide +kernel, by decide +kernel, by decide +kernel⟩,
    ⟨({ code := 1, p0 := false, p1 := true, beat := 0, steps := 0, payload := [] }), ([]), 1, wEventRings3, inv_of (by decide +kernel), by decide +kernel, by decide +kernel, by decide +kernel, by decide +kernel, by decide +kernel, by decide +kernel, by decide +kernel⟩,
    ⟨1, 3, default, ([]), wEventRings4, inv_of (by decide +kernel), by decide +kernel, by decide +kernel, by decide +kernel, by decide +kernel⟩,
    ⟨.p1, 1, 0xFFFFFFFF, ⟨wit, []⟩, inv_of (by decide +kernel), by decide +kernel, by decide +kernel⟩,
    ⟨1, wEventRings5, inv_of (by decide +kernel), by decide +kernel, by decide +kernel, by decide +kernel, by decide +kernel, by decide +kernel⟩,
    ⟨1, wEventRings6, inv_of (by decide +kernel), by decide +kernel, by decide +kernel, by decide +kernel, by decide +kernel⟩,
    ⟨.p1, 1, 0, wEventRings7, inv_of (by decide +kernel), by decide +kernel, by decide +kernel, by decide +kernel, by decide +kernel⟩⟩

def wSnapshots0 : State :=
  ⟨{ wit with hst.ports := [{}, { snap := { armed := some 99 } }] }, []⟩

def wSnapshots1 : State :=
  ⟨{ wit with hst.ports := [{}, { busMaster := true, snap := { running := true, sets := 0x100 } }] }, []⟩

def wSnapshots2 : State :=
  ⟨{ wit with hst.ports := [{}, { snap := { running := true, dram := true, dest := 2 ^ 21 - 64, sets := 0x100, epoch := 7 } }] }, []⟩

def wSnapshots3 : State :=
  ⟨{ wit with hst.ports := [{}, { snap := { running := true, sets := 2 ^ 21 - 1 } }] }, []⟩

theorem witness_Snapshots :
    (∃ (m : Master) (val : Nat) (s : State), s.Inv ∧ s.dev.Takes m R.GL_SNAP_REQ 0 ∧ setsBit val 0) ∧
    (∃ (m : Master) (p : Fin 2) (val : Nat) (s : State), s.Inv ∧ s.dev.Takes m R.HST_SNAP_CTRL p ∧ portOf m = some p ∧ s.dev.rd F.HST_SNAP_CTRL_BUSY p = 0 ∧ setsBit val 32) ∧
    (∃ (p : Fin 2) (b : Nat) (s : State), s.Inv ∧ (s.dev.port p).snap.armed = some b ∧ b < s.dev.tmb.beats) ∧
    (∃ (p : Fin 2) (s : State), let h := s.dev.port p; let j := h.snap; let ws := s.dev.copyWords j; let bytes := ws.flatMap fun w => leBytes 8 w; let header := s.dev.copyHeader j bytes ws.length; s.Inv ∧ j.running = true ∧ j.dram = false ∧ h.busMaster = true) ∧
    (∃ (p : Fin 2) (s : State), let h := s.dev.port p; let j := h.snap; let ws := s.dev.copyWords j; let bytes := ws.flatMap fun w => leBytes 8 w; let header := s.dev.copyHeader j bytes ws.length; s.Inv ∧ j.running = true ∧ j.dram = true ∧ s.dev.checkDram (s.dev.portSecure p) j.dest (64 + bytes.length) = .pass ∧ s.dev.ue = []) ∧
    (∃ (p : Fin 2) (s : State), let j := (s.dev.port p).snap; let len := 8 * (s.dev.copyWords j).length; s.Inv ∧ j.running = true) :=
  ⟨⟨.p1, 0xFFFFFFFF, ⟨wit, []⟩, inv_of (by decide +kernel), by decide +kernel, by decide +kernel⟩,
    ⟨.p1, 1, (2 ^ 32), ⟨wit, []⟩, inv_of (by decide +kernel), by decide +kernel, by decide +kernel, by decide +kernel, by decide +kernel⟩,
    ⟨1, 99, wSnapshots0, inv_of (by decide +kernel), by decide +kernel, by decide +kernel⟩,
    ⟨1, wSnapshots1, inv_of (by decide +kernel), by decide +kernel, by decide +kernel, by decide +kernel⟩,
    ⟨1, wSnapshots2, inv_of (by decide +kernel), by decide +kernel, by decide +kernel, by decide +kernel, by decide +kernel⟩,
    ⟨1, wSnapshots3, inv_of (by decide +kernel), by decide +kernel⟩⟩

def wEthernetPorts0 : State :=
  ⟨wit.wr F.ETH_STAT_LINK 1 1, []⟩

def wEthernetPorts1 : State :=
  ⟨{ wit with hst.uploads := [{}, { running := true, host := some 0, sent := 5, tag := 9 }] }.wr F.ETH_STAT_LINK 1 1, []⟩

def wEthernetPorts2 : State :=
  ⟨{ wit with hst.uploads := [{}, { running := true, host := some 0, sent := 5, tag := 9 }] }, []⟩

def wEthernetPorts3 : State :=
  ⟨wit.wr F.ETH_UP_SRC_LEN 1 1, []⟩

def wEthernetPorts4 : State :=
  ⟨{ wit with hst.uploads := [{}, { running := true, src := 2 ^ 36 - 1457, len := 1457 }] }.wr F.ETH_STAT_LINK 1 1, []⟩

def wEthernetPorts5 : State :=
  ⟨{ wit with hst.uploads := [{}, { running := true, src := 2 ^ 36 - 1457, len := 1457, sent := 1456 }] }.wr F.ETH_STAT_LINK 1 1, []⟩

def wEthernetPorts6 : State :=
  ⟨{ wit with hst.uploads := [{}, { running := true, src := 2 ^ 36 - 1456, len := 1457, sent := 1456 }] }.wr F.ETH_STAT_LINK 1 1, []⟩

theorem witness_EthernetPorts :
    (∃ (e : Fin 2) (badFcs : Bool) (s : State), s.dev.funcOn (.eth e) = true) ∧
    (∃ (e : Fin 2) (s : State), s.Inv ∧ s.dev.rd F.ETH_STAT_LINK e = 0 ∧ (s.dev.func (.eth e)).st ≠ .off) ∧
    (∃ (e : Fin 2) (s : State), s.Inv ∧ s.dev.rd F.ETH_STAT_LINK e = 1 ∧ (s.dev.upload e).running = false) ∧
    (∃ (e : Fin 2) (s : State), s.Inv ∧ s.dev.rd F.ETH_STAT_LINK e = 1 ∧ (s.dev.upload e).running = true) ∧
    (∃ (m : Master) (e : Fin 2) (val : Nat) (s : State), s.Inv ∧ s.dev.Takes m R.ETH_UP_CTRL e ∧ setsBit val 0 ∧ (s.dev.upload e).running = true) ∧
    (∃ (m : Master) (e : Fin 2) (val : Nat) (s : State), s.Inv ∧ s.dev.Takes m R.ETH_UP_CTRL e ∧ setsBit val 0 ∧ (s.dev.upload e).running = false ∧ s.dev.rd F.ETH_UP_SRC_LEN e ≠ 0) ∧
    (∃ (m : Master) (e : Fin 2) (val : Nat) (s : State), s.Inv ∧ s.dev.Takes m R.ETH_UP_CTRL e ∧ setsBit val 0 ∧ (s.dev.upload e).running = false ∧ s.dev.rd F.ETH_UP_SRC_LEN e = 0) ∧
    (∃ (e : Fin 2) (s : State), let u := s.dev.upload e; let n := min 1456 (u.len - u.sent); let a := u.src + u.sent; s.Inv ∧ u.running = true ∧ s.dev.frontHeld = false ∧ s.dev.funcOn (.eth e) = true ∧ s.dev.on F.ETH_STAT_LINK e = true ∧ (∀ f ∈ s.dev.drm.fetched, f.rq ≠ 14 + e.val) ∧ u.sent + n < u.len ∧ s.dev.checkDram u.secure a n = .pass ∧ (∀ g ∈ granules a n, s.dev.granuleBad g = false)) ∧
    (∃ (e : Fin 2) (s : State), let u := s.dev.upload e; let n := min 1456 (u.len - u.sent); let a := u.src + u.sent; s.Inv ∧ u.running = true ∧ s.dev.frontHeld = false ∧ s.dev.funcOn (.eth e) = true ∧ s.dev.on F.ETH_STAT_LINK e = true ∧ (∀ f ∈ s.dev.drm.fetched, f.rq ≠ 14 + e.val) ∧ u.len ≤ u.sent + n ∧ s.dev.checkDram u.secure a n = .pass ∧ (∀ g ∈ granules a n, s.dev.granuleBad g = false)) ∧
    (∃ (e : Fin 2) (s : State), let u := s.dev.upload e; let n := min 1456 (u.len - u.sent); let a := u.src + u.sent; s.Inv ∧ u.running = true ∧ s.dev.frontHeld = false ∧ s.dev.funcOn (.eth e) = true ∧ s.dev.on F.ETH_STAT_LINK e = true ∧ (∀ f ∈ s.dev.drm.fetched, f.rq ≠ 14 + e.val) ∧ 0 < n ∧ s.dev.capacity ≤ a) :=
  ⟨⟨1, true, ⟨wit, []⟩, by decide +kernel⟩,
    ⟨1, ⟨wit, []⟩, inv_of (by decide +kernel), by decide +kernel, by decide +kernel⟩,
    ⟨1, wEthernetPorts0, inv_of (by decide +kernel), by decide +kernel, by decide +kernel⟩,
    ⟨1, wEthernetPorts1, inv_of (by decide +kernel), by decide +kernel, by decide +kernel⟩,
    ⟨.p1, 1, 0xFFFFFFFF, wEthernetPorts2, inv_of (by decide +kernel), by decide +kernel, by decide +kernel, by decide +kernel⟩,
    ⟨.p1, 1, 0xFFFFFFFF, wEthernetPorts3, inv_of (by decide +kernel), by decide +kernel, by decide +kernel, by decide +kernel, by decide +kernel⟩,
    ⟨.p1, 1, 0xFFFFFFFF, ⟨wit, []⟩, inv_of (by decide +kernel), by decide +kernel, by decide +kernel, by decide +kernel, by decide +kernel⟩,
    ⟨1, wEthernetPorts4, inv_of (by decide +kernel), by decide +kernel, by decide +kernel, by decide +kernel, by decide +kernel, by decide +kernel, by decide +kernel, by decide +kernel, by decide +kernel⟩,
    ⟨1, wEthernetPorts5, inv_of (by decide +kernel), by decide +kernel, by decide +kernel, by decide +kernel, by decide +kernel, by decide +kernel, by decide +kernel, by decide +kernel, by decide +kernel⟩,
    ⟨1, wEthernetPorts6, inv_of (by decide +kernel), by decide +kernel, by decide +kernel, by decide +kernel, by decide +kernel, by decide +kernel, by decide +kernel, by decide +kernel⟩⟩

def wPatternImages0 : State :=
  ⟨({ wit with sys.castOn := true, pat := {} }.wr F.SYS_CASTON_STAT_STEP 0 5).wr F.PAT_STATUS_SOURCE 0 1 |>.wr F.PAT_STATUS_STATE 0 1, []⟩

def wPatternImages1 : State :=
  ⟨({ wit with sys.castOn := true, pat := {} }.wr F.SYS_CASTON_STAT_STEP 0 5).wr F.PAT_STATUS_SOURCE 0 2 |>.wr F.PAT_STATUS_STATE 0 1, []⟩

def wPatternImages2 : State :=
  ⟨({ wit with sys.castOn := true, sys.bootsel := 3, pat := {} }.wr F.SYS_CASTON_STAT_STEP 0 5).wr F.PAT_STATUS_SOURCE 0 4 |>.wr F.PAT_STATUS_STATE 0 1, []⟩

def wPatternImages3 : State :=
  ⟨{ wit with pat.verify := some { repattern := true } }, []⟩

def wPatternImages4 : State :=
  ⟨{ wit with pat.verify := some { repattern := true, by0 := true }, pat.hold := true }.wr F.PAT_STATUS_STATE 0 2, []⟩

def wPatternImages5 : State :=
  ⟨({ wit with sys.castOn := true, sys.bootsel := 3, pat.applied := false, pat.verify := some {} }.wr F.SYS_CASTON_STAT_STEP 0 5).wr F.PAT_STATUS_SOURCE 0 4 |>.wr F.PAT_STATUS_STATE 0 2, []⟩

def wPatternImages6 : State :=
  ⟨{ wit with pat.staging := [(4194299, 1), (4194301, 9)] }, []⟩

def wPatternImages7 : State :=
  ⟨{ wit with pat.verify := some { repattern := true, by0 := true }, pat.hold := true }, []⟩

def wPatternImages8 : State :=
  ⟨wit.wr F.PAT_STATUS_STATE 0 4, []⟩

def wPatternImages9 : State :=
  ⟨{ wit with pat.verify := some { repattern := true, by1 := true }, pat.hold := true }.wr F.PAT_STATUS_STATE 0 2, []⟩

def wPatternImages10 : State :=
  ⟨(({ wit with pat.loaded.inspect := {}, pat.loaded.worlds.regions := [⟨0, 512, false⟩], pat.staging := (reloadImage.zipIdx.map fun p => (p.2, p.1)).filter fun p => p.2 ≠ 0, pat.verify := some { repattern := true, by1 := true } } : Dev).wr F.PAT_MBOX_LEN_LENGTH 0 276).wr F.PAT_ID_PATTERN_ID 0 1, []⟩

def wPatternImages11 : State :=
  ⟨(({ wit with pat.loaded.inspect := {}, pat.loaded.worlds.regions := [⟨0, 512, false⟩], pat.staging := (reloadImage.zipIdx.map fun p => (p.2, p.1)).filter fun p => p.2 ≠ 0, pat.verify := some { repattern := true, by1 := true } } : Dev).wr F.PAT_MBOX_LEN_LENGTH 0 276).wr F.PAT_ID_PATTERN_ID 0 2, []⟩

def wPatternImages12 : State :=
  ⟨{ wit with pat.verify := some { repattern := true, by1 := true, checked := true, passed := true, beat := 99, budget := { pe := 1, slots := 1 } }, pat.hold := true }.wr F.PAT_STATUS_STATE 0 3, []⟩

def wPatternImages13 : State :=
  ⟨{ wit with pat.verify := some { repattern := true, by1 := true, checked := true, passed := true, beat := 99, budget := { pe := 1, slots := 1 }, gauge := some {}, inspect := some {} }, pat.hold := true }.wr F.PAT_STATUS_STATE 0 3, []⟩

def wPatternImages14 : State :=
  ⟨{ wit with pat.verify := some { repattern := true, by1 := true, checked := true, passed := true, beat := 99 }, pat.hold := true, pace.idle := 3 }.wr F.PAT_STATUS_STATE 0 3, []⟩

theorem witness_PatternImages_part1 :
    (∃ (src : ImageSource) (img : List (BitVec 8)) (s : State), let mbox := decide (2 < s.dev.rd F.PAT_STATUS_SOURCE); let len := s.dev.rd F.PAT_MBOX_LEN_LENGTH; let image := if mbox then s.dev.stagedBytes (max 64 len) else img; s.Inv ∧ s.dev.loading = true ∧ ImageSource.is src (s.dev.rd F.PAT_STATUS_SOURCE) = true ∧ (mbox && s.dev.pat.verify.isNone) = false ∧ ∃ x, 64 ≤ image.length ∧ s.dev.verifyImage 0 image (if mbox then some len else none) = .ok x) ∧
    (∃ (src : ImageSource) (img : List (BitVec 8)) (s : State), let mbox := decide (2 < s.dev.rd F.PAT_STATUS_SOURCE); let len := s.dev.rd F.PAT_MBOX_LEN_LENGTH; let image := if mbox then s.dev.stagedBytes (max 64 len) else img; s.Inv ∧ s.dev.loading = true ∧ ImageSource.is src (s.dev.rd F.PAT_STATUS_SOURCE) = true ∧ (mbox && s.dev.pat.verify.isNone) = false ∧ ∃ err sec, 64 ≤ image.length ∧ s.dev.verifyImage 0 image (if mbox then some len else none) = .error (err, sec) ∧ err < 256 ∧ sec < 64 ∧ s.dev.rd F.PAT_STATUS_SOURCE = 1) ∧
    (∃ (src : ImageSource) (img : List (BitVec 8)) (s : State), let mbox := decide (2 < s.dev.rd F.PAT_STATUS_SOURCE); let len := s.dev.rd F.PAT_MBOX_LEN_LENGTH; let image := if mbox then s.dev.stagedBytes (max 64 len) else img; s.Inv ∧ s.dev.loading = true ∧ ImageSource.is src (s.dev.rd F.PAT_STATUS_SOURCE) = true ∧ (mbox && s.dev.pat.verify.isNone) = false ∧ ∃ err sec, 64 ≤ image.length ∧ s.dev.verifyImage 0 image (if mbox then some len else none) = .error (err, sec) ∧ err < 256 ∧ sec < 64 ∧ s.dev.rd F.PAT_STATUS_SOURCE ≠ 1) ∧
    (∃ (src : ImageSource) (img : List (BitVec 8)) (s : State), let mbox := decide (2 < s.dev.rd F.PAT_STATUS_SOURCE); let len := s.dev.rd F.PAT_MBOX_LEN_LENGTH; let image := if mbox then s.dev.stagedBytes (max 64 len) else img; s.Inv ∧ s.dev.loading = true ∧ ImageSource.is src (s.dev.rd F.PAT_STATUS_SOURCE) = true ∧ (mbox && s.dev.pat.verify.isNone) = false ∧ s.dev.rd F.PAT_STATUS_SOURCE = 1) ∧
    (∃ (m : Master) (p : Fin 2) (val : Nat) (s : State), s.Inv ∧ s.dev.Takes m R.PAT_MBOX_CTRL 0 ∧ portOf m = some p ∧ setsBit val 0 ∧ ¬ setsBit val 1 ∧ s.dev.awaitsGo = true ∧ s.dev.rd F.PAT_STATUS_SOURCE = p + 3) ∧
    (∃ (m : Master) (p : Fin 2) (val : Nat) (s : State), s.Inv ∧ s.dev.Takes m R.PAT_MBOX_CTRL 0 ∧ portOf m = some p ∧ setsBit val 0 ∧ ¬ setsBit val 1 ∧ s.dev.repatterning = true) ∧
    (∃ (m : Master) (p : Fin 2) (val : Nat) (s : State), s.Inv ∧ s.dev.Takes m R.PAT_MBOX_CTRL 0 ∧ portOf m = some p ∧ ∃ v, setsBit val 1 ∧ s.dev.pat.verify = some v ∧ v.repattern = true ∧ v.checked = false) ∧
    (∃ (m : Master) (p : Fin 2) (val : Nat) (s : State), s.Inv ∧ s.dev.Takes m R.PAT_MBOX_CTRL 0 ∧ portOf m = some p ∧ ∃ v, setsBit val 1 ∧ s.dev.loading = true ∧ s.dev.pat.verify = some v ∧ v.repattern = false ∧ v.checked = false ∧ s.dev.rd F.PAT_STATUS_SOURCE ≠ 1) ∧
    (∃ (m : Master) (p : Fin 2) (val : Nat) (s : State), s.Inv ∧ s.dev.Takes m R.PAT_MBOX_CTRL 0 ∧ portOf m = some p ∧ setsBit val 1 ∧ s.dev.loading = true ∧ s.dev.pat.verify = none ∧ s.dev.rd F.PAT_STATUS_SOURCE = 1) ∧
    (∃ s : State, s.Inv ∧ s.dev.awaitsGo = true) :=
  ⟨⟨.flashA, fullImage, wPatternImages0, inv_of (by decide +kernel), by decide +kernel, by decide +kernel, by decide +kernel, ok_after (by decide +kernel) (by decide +kernel)⟩,
    ⟨.flashA, (List.replicate 64 0), wPatternImages0, inv_of (by decide +kernel), by decide +kernel, by decide +kernel, by decide +kernel, 2, 0, by decide +kernel, error_of (by decide +kernel), by decide +kernel, by decide +kernel, by decide +kernel⟩,
    ⟨.flashB, (List.replicate 64 0), wPatternImages1, inv_of (by decide +kernel), by decide +kernel, by decide +kernel, by decide +kernel, 2, 0, by decide +kernel, error_of (by decide +kernel), by decide +kernel, by decide +kernel, by decide +kernel⟩,
    ⟨.flashA, ([]), wPatternImages0, inv_of (by decide +kernel), by decide +kernel, by decide +kernel, by decide +kernel, by decide +kernel⟩,
    ⟨.p1, 1, 0xFFFFFFFD, wPatternImages2, inv_of (by decide +kernel), by decide +kernel, by decide +kernel, by decide +kernel, by decide +kernel, by decide +kernel, by decide +kernel⟩,
    ⟨.p1, 1, 0xFFFFFFFD, wPatternImages3, inv_of (by decide +kernel), by decide +kernel, by decide +kernel, by decide +kernel, by decide +kernel, by decide +kernel⟩,
    ⟨.p1, 1, 0xFFFFFFFE, wPatternImages4, inv_of (by decide +kernel), by decide +kernel, by decide +kernel, ({ repattern := true, by0 := true }), by decide +kernel, by decide +kernel, by decide +kernel, by decide +kernel⟩,
    ⟨.p1, 1, 3, wPatternImages5, inv_of (by decide +kernel), by decide +kernel, by decide +kernel, ({}), by decide +kernel, by decide +kernel, by decide +kernel, by decide +kernel, by decide +kernel, by decide +kernel⟩,
    ⟨.p1, 1, 2, wPatternImages0, inv_of (by decide +kernel), by decide +kernel, by decide +kernel, by decide +kernel, by decide +kernel, by decide +kernel, by decide +kernel⟩,
    ⟨wPatternImages2, inv_of (by decide +kernel), by decide +kernel⟩⟩

theorem witness_PatternImages_part2 :
    (∃ (m : Master) (i : Fin 1048576) (val : Nat) (s : State), s.Inv ∧ Memory.wf s.dev.pat.staging = true ∧ s.dev.Takes m R.PAT_STAGING i ∧ s.dev.repatterning = false) ∧
    (∃ (m : Master) (i : Fin 1048576) (val : Nat) (s : State), s.Inv ∧ Memory.wf s.dev.pat.staging = true ∧ s.dev.Takes m R.PAT_STAGING i ∧ s.dev.repatterning = true) ∧
    (∃ (m : Master) (val : Nat) (s : State), s.Inv ∧ s.dev.Takes m R.PAT_REPAT_CTRL 0 ∧ setsBit val 0 ∧ s.dev.repatterning = false ∧ s.dev.rd F.PAT_STATUS_STATE = 4) ∧
    (∃ (m : Master) (val : Nat) (s : State), s.Inv ∧ s.dev.Takes m R.PAT_REPAT_CTRL 0 ∧ setsBit val 0 ∧ s.dev.repatterning = true) ∧
    (∃ (v : Verify) (s : State), let img := s.dev.stagedBytes (max 64 (s.dev.rd F.PAT_MBOX_LEN_LENGTH)); s.Inv ∧ s.dev.pat.verify = some v ∧ v.repattern = true ∧ v.checked = false ∧ ∃ err sec, s.dev.verifyImage 1 img (some (s.dev.rd F.PAT_MBOX_LEN_LENGTH)) = .error (err, sec) ∧ err < 256) ∧
    (∃ (v : Verify) (s : State), let img := s.dev.stagedBytes (max 64 (s.dev.rd F.PAT_MBOX_LEN_LENGTH)); s.Inv ∧ s.dev.pat.verify = some v ∧ v.repattern = true ∧ v.checked = false ∧ ∃ x, s.dev.verifyImage 1 img (some (s.dev.rd F.PAT_MBOX_LEN_LENGTH)) = .ok x ∧ s.dev.repatternOk x.base x.inspect.isSome = true) ∧
    (∃ (v : Verify) (s : State), let img := s.dev.stagedBytes (max 64 (s.dev.rd F.PAT_MBOX_LEN_LENGTH)); s.Inv ∧ s.dev.pat.verify = some v ∧ v.repattern = true ∧ v.checked = false ∧ ∃ x, s.dev.verifyImage 1 img (some (s.dev.rd F.PAT_MBOX_LEN_LENGTH)) = .ok x ∧ s.dev.repatternOk x.base x.inspect.isSome = false) ∧
    (∃ (v : Verify) (s : State), let who : Dest := .secureAnd (if v.by0 then some 0 else if v.by1 then some 1 else none); s.Inv ∧ s.dev.pat.verify = some v ∧ v.passed = true ∧ v.beat < s.dev.tmb.beats ∧ s.dev.repatternOk (s.dev.rd F.PAT_ID_PATTERN_ID) v.inspect.isSome = true ∧ v.gauge = none ∧ v.inspect = none) ∧
    (∃ (v : Verify) (s : State), let who : Dest := .secureAnd (if v.by0 then some 0 else if v.by1 then some 1 else none); s.Inv ∧ s.dev.pat.verify = some v ∧ v.passed = true ∧ v.beat < s.dev.tmb.beats ∧ s.dev.repatternOk (s.dev.rd F.PAT_ID_PATTERN_ID) v.inspect.isSome = true) ∧
    (∃ (v : Verify) (s : State), let who : Dest := .secureAnd (if v.by0 then some 0 else if v.by1 then some 1 else none); s.Inv ∧ s.dev.pat.verify = some v ∧ v.passed = true ∧ v.beat < s.dev.tmb.beats ∧ s.dev.repatternOk (s.dev.rd F.PAT_ID_PATTERN_ID) v.inspect.isSome = false) :=
  ⟨⟨.p1, 1048575, 0xFFFFFFFF, wPatternImages6, inv_of (by decide +kernel), by decide +kernel, by decide +kernel, by decide +kernel⟩,
    ⟨.p1, 0, 0xFFFFFFFF, wPatternImages7, inv_of (by decide +kernel), by decide +kernel, by decide +kernel, by decide +kernel⟩,
    ⟨.p1, 0xFFFFFFFF, wPatternImages8, inv_of (by decide +kernel), by decide +kernel, by decide +kernel, by decide +kernel, by decide +kernel⟩,
    ⟨.p1, 3, wPatternImages3, inv_of (by decide +kernel), by decide +kernel, by decide +kernel, by decide +kernel⟩,
    ⟨({ repattern := true, by1 := true }), wPatternImages9, inv_of (by decide +kernel), by decide +kernel, by decide +kernel, by decide +kernel, 2, 0, error_of (by decide +kernel), by decide +kernel⟩,
    ⟨({ repattern := true, by1 := true }), wPatternImages10, inv_of (by decide +kernel), by decide +kernel, by decide +kernel, by decide +kernel, ok_and (by decide +kernel)⟩,
    ⟨({ repattern := true, by1 := true }), wPatternImages11, inv_of (by decide +kernel), by decide +kernel, by decide +kernel, by decide +kernel, ok_and (by decide +kernel)⟩,
    ⟨({ repattern := true, by1 := true, checked := true, passed := true, beat := 99, budget := { pe := 1, slots := 1 } }), wPatternImages12, inv_of (by decide +kernel), by decide +kernel, by decide +kernel, by decide +kernel, by decide +kernel, by decide +kernel, by decide +kernel⟩,
    ⟨({ repattern := true, by1 := true, checked := true, passed := true, beat := 99, budget := { pe := 1, slots := 1 }, gauge := some {}, inspect := some {} }), wPatternImages13, inv_of (by decide +kernel), by decide +kernel, by decide +kernel, by decide +kernel, by decide +kernel⟩,
    ⟨({ repattern := true, by1 := true, checked := true, passed := true, beat := 99 }), wPatternImages14, inv_of (by decide +kernel), by decide +kernel, by decide +kernel, by decide +kernel, by decide +kernel⟩⟩

def wResets0 : State :=
  ⟨{ wit with sys.autoReset := some .warm }, []⟩

def wResets1 : State :=
  ⟨{ wit with sys.autoReset := some .cold }, []⟩

def wResets2 : State :=
  ⟨{ wit with sys.reset := some { kind := .warm, cause := 3, stage := 2 } }, []⟩

def wResets3 : State :=
  ⟨{ wit with sys.reset := some { kind := .warm, cause := 3, stage := 0 } }, []⟩

def wResets4 : State :=
  ⟨{ wit with sys.reset := some { kind := .cold, cause := 3, stage := 1 } }, []⟩

def wResets5 : State :=
  ⟨{ wit with sys.reset := some { kind := .warm, cause := 7, stage := 2 } }, []⟩

def wResets6 : State :=
  ⟨{ wit with sys.reset := some { kind := .warm, cause := 3, stage := 3 } }, []⟩

def wResets7 : State :=
  ⟨{ wit with sys.reset := some { kind := .power, cause := 2, stage := 3, porn := true } }, []⟩

def wResets8 : State :=
  ⟨{ wit with sys.reset := some { kind := .cold, cause := 2, stage := 3, scan := true } }, []⟩

theorem witness_Resets_part1 :
    (∃ (ns : Nat) (s : State), s.Inv ∧ s.dev.sys.reset = none ∧ 100 ≤ ns) ∧
    (∃ (ns : Nat) (s : State), ns < 100) ∧
    (∃ (m : Master) (val : Nat) (s : State), s.Inv ∧ s.dev.sys.reset = none ∧ s.dev.Takes m R.SYS_RESET 0 ∧ bitsOf val 31 16 = 0x4B52 ∧ val % 4 = 1) ∧
    (∃ (m : Master) (val : Nat) (s : State), s.Inv ∧ s.dev.sys.reset = none ∧ s.dev.Takes m R.SYS_RESET 0 ∧ bitsOf val 31 16 = 0x4B52 ∧ val % 4 = 2) ∧
    (∃ s : State, s.Inv ∧ s.dev.sys.reset = none ∧ s.dev.sys.autoReset = some .warm) ∧
    (∃ s : State, s.Inv ∧ s.dev.sys.reset = none ∧ s.dev.sys.autoReset = some .cold) ∧
    (∃ (m : Master) (val ns : Nat) (r : ResetRun) (s : State), s.Inv ∧ s.dev.sys.reset = some r ∧ r.kind = .warm ∧ r.stage < 3 ∧ s.dev.Takes m R.SYS_RESET 0 ∧ bitsOf val 31 16 = 0x4B52 ∧ val % 4 = 2) :=
  ⟨⟨100, ⟨wit, []⟩, inv_of (by decide +kernel), by decide +kernel, by decide +kernel⟩,
    ⟨99, ⟨wit, []⟩, by decide +kernel⟩,
    ⟨.p1, 0x4B520001, ⟨wit, []⟩, inv_of (by decide +kernel), by decide +kernel, by decide +kernel, by decide +kernel, by decide +kernel⟩,
    ⟨.p1, 0x4B520002, ⟨wit, []⟩, inv_of (by decide +kernel), by decide +kernel, by decide +kernel, by decide +kernel, by decide +kernel⟩,
    ⟨wResets0, inv_of (by decide +kernel), by decide +kernel, by decide +kernel⟩,
    ⟨wResets1, inv_of (by decide +kernel), by decide +kernel, by decide +kernel⟩,
    ⟨.p1, 0x4B520002, 0, ({ kind := .warm, cause := 3, stage := 2 }), wResets2, inv_of (by decide +kernel), by decide +kernel, by decide +kernel, by decide +kernel, by decide +kernel, by decide +kernel, by decide +kernel⟩⟩

theorem witness_Resets_part2 :
    (∃ (m : Master) (val ns : Nat) (r : ResetRun) (s : State), s.Inv ∧ s.dev.sys.reset = some r ∧ r.kind = .warm ∧ r.stage < 3) ∧
    (∃ (instr : TapInstr) (cells : List (Nat × Bool)) (s : State), s.Inv ∧ tapResets instr = true ∧ s.dev.sys.reset = none) ∧
    (∃ (instr : TapInstr) (cells : List (Nat × Bool)) (s : State), s.Inv ∧ tapResets instr = false) ∧
    (∃ (r : ResetRun) (s : State), s.Inv ∧ s.dev.sys.reset = some r ∧ r.kind = .warm ∧ r.stage = 0) ∧
    (∃ (r : ResetRun) (s : State), s.Inv ∧ s.dev.sys.reset = some r ∧ r.stage < 2) ∧
    (∃ (r : ResetRun) (s : State), s.Inv ∧ s.dev.sys.reset = some r ∧ r.stage < 3 ∧ r.cause < 8) ∧
    (∃ s : State, s.Inv ∧ (∀ r, s.dev.sys.reset = some r → r.kind ≠ .power) ∧ s.dev.programming = false) :=
  ⟨⟨.p1, 0x4B520002, 500, ({ kind := .warm, cause := 3, stage := 2 }), wResets2, inv_of (by decide +kernel), by decide +kernel, by decide +kernel, by decide +kernel⟩,
    ⟨.extest, ([(3, true)]), ⟨wit, []⟩, inv_of (by decide +kernel), by decide +kernel, by decide +kernel⟩,
    ⟨.idcode, ([]), ⟨wit, []⟩, inv_of (by decide +kernel), by decide +kernel⟩,
    ⟨({ kind := .warm, cause := 3, stage := 0 }), wResets3, inv_of (by decide +kernel), by decide +kernel, by decide +kernel, by decide +kernel⟩,
    ⟨({ kind := .cold, cause := 3, stage := 1 }), wResets4, inv_of (by decide +kernel), by decide +kernel, by decide +kernel⟩,
    ⟨({ kind := .warm, cause := 7, stage := 2 }), wResets5, inv_of (by decide +kernel), by decide +kernel, by decide +kernel, by decide +kernel⟩,
    ⟨⟨wit, []⟩, inv_of (by decide +kernel), (fun _ h => nomatch h), by decide +kernel⟩⟩

theorem witness_Resets_part3 :
    (∃ s : State, s.Inv ∧ (∀ r, s.dev.sys.reset = some r → r.kind ≠ .power) ∧ s.dev.programming = false) ∧
    (∃ s : State, s.Inv ∧ (∀ r, s.dev.sys.reset = some r → r.kind ≠ .power) ∧ s.dev.programming = false) ∧
    (∃ s : State, s.Inv ∧ (∀ r, s.dev.sys.reset = some r → r.kind ≠ .power) ∧ s.dev.programming = false) ∧
    (∃ (boot : Fin 4) (ns : Nat) (r : ResetRun) (s : State), s.Inv ∧ s.dev.sys.reset = some r ∧ r.stage = 3 ∧ r.porn = false ∧ r.scan = false) ∧
    (∃ (boot : Fin 4) (ns : Nat) (r : ResetRun) (s : State), s.Inv ∧ s.dev.sys.reset = some r ∧ r.stage = 3 ∧ r.kind = .power ∧ r.scan = false) ∧
    (∃ (boot : Fin 4) (ns : Nat) (r : ResetRun) (s : State), s.Inv ∧ s.dev.sys.reset = some r ∧ r.stage = 3 ∧ ∃ rails : List Rail, rails ≠ [] ∧ r.kind = .power) ∧
    (∃ (boot : Fin 4) (ns : Nat) (r : ResetRun) (s : State), s.Inv ∧ s.dev.sys.reset = some r ∧ r.stage = 3 ∧ r.scan = true ∧ r.porn = false ∧ r.supply = false) :=
  ⟨⟨⟨wit, []⟩, inv_of (by decide +kernel), (fun _ h => nomatch h), by decide +kernel⟩,
    ⟨⟨wit, []⟩, inv_of (by decide +kernel), (fun _ h => nomatch h), by decide +kernel⟩,
    ⟨⟨wit, []⟩, inv_of (by decide +kernel), (fun _ h => nomatch h), by decide +kernel⟩,
    ⟨3, 0, ({ kind := .warm, cause := 3, stage := 3 }), wResets6, inv_of (by decide +kernel), by decide +kernel, by decide +kernel, by decide +kernel, by decide +kernel⟩,
    ⟨2, 0, ({ kind := .power, cause := 2, stage := 3, porn := true }), wResets7, inv_of (by decide +kernel), by decide +kernel, by decide +kernel, by decide +kernel, by decide +kernel⟩,
    ⟨2, 0, ({ kind := .power, cause := 2, stage := 3, porn := true }), wResets7, inv_of (by decide +kernel), by decide +kernel, by decide +kernel, ([.vio18]), by decide +kernel, by decide +kernel⟩,
    ⟨1, 0, ({ kind := .cold, cause := 2, stage := 3, scan := true }), wResets8, inv_of (by decide +kernel), by decide +kernel, by decide +kernel, by decide +kernel, by decide +kernel, by decide +kernel⟩⟩

def wCastOn0 : State :=
  ⟨{ State.reset.dev with sys.done := false }, []⟩

def wCastOn1 : State :=
  ⟨{ wit with sys.castOn := true }.wr F.SYS_CASTON_STAT_STEP 0 9, []⟩

def wCastOn2 : State :=
  ⟨{ wit with sys.castOn := true }.wr F.SYS_CASTON_STAT_STEP 0 8, []⟩

def wCastOn3 : State :=
  ⟨{ wit with sys.castOn := true, pat.applied := false }.wr F.SYS_CASTON_STAT_STEP 0 5 |>.wr F.PAT_STATUS_SOURCE 0 1, []⟩

def wCastOn4 : State :=
  ⟨{ wit with sys.castOn := true, pat.applied := false }.wr F.SYS_CASTON_STAT_STEP 0 5 |>.wr F.PAT_STATUS_SOURCE 0 2, []⟩

def wCastOn5 : State :=
  ⟨{ wit with sys.castOn := true, pat.loaded.policy := List.replicate 16 { action := 1, maxAttempts := 15 } }.wr F.SYS_CASTON_STAT_STEP 0 9, []⟩

def wCastOn6 : State :=
  ⟨{ wit with sys.castOn := true, pat.loaded.policy := List.replicate 16 { action := 2, maxAttempts := 1 } }.wr F.SYS_CASTON_STAT_STEP 0 14, []⟩

def wCastOn7 : State :=
  ⟨{ wit with sys.castOn := true }.wr F.SYS_CASTON_STAT_STEP 0 16, []⟩

def wCastOn8 : State :=
  ⟨{ wit with sys.castOn := true, sys.bindOff := some {} }.wr F.SYS_CASTON_STAT_STEP 0 16, []⟩

theorem witness_CastOn :
    (∃ (i : StepInfo) (s : State), let step := s.dev.castStep; s.Inv ∧ s.dev.sys.castOn = true ∧ (step = 1 ∧ s.dev.vlt.used.good = true ∧ i.sramBad = false ∨ step = 2 ∨ step = 3 ∨ step = 4 ∨ step = 5 ∧ s.dev.pat.applied = true ∨ step = 7 ∨ step = 8 ∧ s.dev.tableFault (s.dev.rd F.DM_STAT_SPEED) (s.dev.slotTable R.MF_SLOT_ACTIVE 0) (s.dev.slotTable R.MF_SLOT_ACTIVE 1) = 0)) ∧
    (∃ (i : StepInfo) (s : State), let step := s.dev.castStep; s.Inv ∧ s.dev.sys.castOn = true ∧ s.dev.skipped (step + 1) = false ∧ (step = 6 ∧ (s.dev.trainDram (i.lanes.map fun l => (l.1.val, l.2.1.val, l.2.2.val))).1 = true ∨ step = 9 ∧ (∀ en : Fin 2, s.dev.engineFails i en = false) ∨ step = 10 ∧ (∃ e : Fin 2, s.dev.pat.loaded.time.ports.testBit e = true ∧ s.dev.rd F.ETH_STAT_LINK e = 1) ∨ step = 11 ∧ s.dev.linksSettled = true ∧ s.dev.linksFailed = 0 ∨ step = 12 ∧ s.dev.headsSettled = true ∧ s.dev.headsFailed = 0 ∨ step = 13 ∧ s.dev.web.watch + 10000000 ≤ s.dev.now ∨ step = 14 ∧ s.dev.camsFailed i = 0 ∨ step = 15 ∧ (s.dev.checkAxes i).1.met = true)) ∧
    (∃ (i : StepInfo) (s : State), let step := s.dev.castStep; s.Inv ∧ s.dev.sys.castOn = true ∧ (1 ≤ step ∧ step ≤ 4 ∨ step = 5 ∧ s.dev.pat.applied = true ∨ step = 8)) ∧
    (∃ (i : StepInfo) (s : State), let step := s.dev.castStep; s.Inv ∧ s.dev.sys.castOn = true ∧ step = 5 ∧ s.dev.pat.applied = false ∧ s.dev.rd F.PAT_STATUS_SOURCE = 1) ∧
    (∃ (i : StepInfo) (s : State), let step := s.dev.castStep; s.Inv ∧ s.dev.sys.castOn = true ∧ step = 5 ∧ s.dev.pat.applied = false ∧ s.dev.rd F.PAT_STATUS_SOURCE ≠ 1) ∧
    (∃ (i : StepInfo) (s : State), let step := s.dev.castStep; s.Inv ∧ s.dev.sys.castOn = true ∧ 9 ≤ step ∧ step ≤ 15 ∧ (s.dev.castAction step = .retry ∨ s.dev.castAction step = .skip) ∧ fieldOf (4 * step - 4) 4 s.dev.log.attempts + 1 < (at' s.dev.pat.loaded.policy (step - 1)).maxAttempts ∧ fieldOf (4 * step - 4) 4 s.dev.log.attempts < 15) ∧
    (∃ (i : StepInfo) (s : State), let step := s.dev.castStep; s.Inv ∧ s.dev.sys.castOn = true ∧ s.dev.castAction step = .skip ∧ (step = 10 ∨ step = 14 ∨ step = 15) ∧ (at' s.dev.pat.loaded.policy (step - 1)).maxAttempts ≤ min (fieldOf (4 * step - 4) 4 s.dev.log.attempts + 1) 15) ∧
    (∃ (i : StepInfo) (s : State), let step := s.dev.castStep; s.Inv ∧ s.dev.sys.castOn = true ∧ step = 16) ∧
    (∃ (i : StepInfo) (s : State), let step := s.dev.castStep; s.Inv ∧ s.dev.sys.castOn = true ∧ step = 16) ∧
    (∃ (m : Master) (val : Nat) (s : State), s.dev.Takes m R.SYS_CLOG_CTRL 0 ∧ setsBit val 0) :=
  ⟨⟨({}), wCastOn0, inv_of (by decide +kernel), by decide +kernel, by decide +kernel⟩,
    ⟨({ passA := true, passB := true }), wCastOn1, inv_of (by decide +kernel), by decide +kernel, by decide +kernel, by decide +kernel⟩,
    ⟨({}), wCastOn2, inv_of (by decide +kernel), by decide +kernel, by decide +kernel⟩,
    ⟨({}), wCastOn3, inv_of (by decide +kernel), by decide +kernel, by decide +kernel, by decide +kernel, by decide +kernel⟩,
    ⟨({}), wCastOn4, inv_of (by decide +kernel), by decide +kernel, by decide +kernel, by decide +kernel, by decide +kernel⟩,
    ⟨({}), wCastOn5, inv_of (by decide +kernel), by decide +kernel, by decide +kernel, by decide +kernel, by decide +kernel, by decide +kernel, by decide +kernel⟩,
    ⟨({}), wCastOn6, inv_of (by decide +kernel), by decide +kernel, by decide +kernel, by decide +kernel, by decide +kernel⟩,
    ⟨({}), wCastOn7, inv_of (by decide +kernel), by decide +kernel, by decide +kernel⟩,
    ⟨({}), wCastOn8, inv_of (by decide +kernel), by decide +kernel, by decide +kernel⟩,
    ⟨.p1, 0xFFFFFFFF, ⟨wit, []⟩, by decide +kernel, by decide +kernel⟩⟩

def wBindOffAndFunctions0 : State :=
  ⟨{ wit with sys.castOn := true }, []⟩

def wBindOffAndFunctions1 : State :=
  ⟨{ wit with sys.bindOff := some { running := true, step := 1, noCap := true } }, []⟩

def wBindOffAndFunctions2 : State :=
  ⟨{ wit with sys.bindOff := some { running := true, step := 1 } }, []⟩

def wBindOffAndFunctions3 : State :=
  ⟨{ wit with sys.bindOff := some { running := true, step := 2 } }, []⟩

def wBindOffAndFunctions4 : State :=
  ⟨{ wit with sys.bindOff := some { running := true, step := 3 } }, []⟩

def wBindOffAndFunctions5 : State :=
  ⟨{ wit with sys.bindOff := some { running := true, step := 4 } }, []⟩

def wBindOffAndFunctions6 : State :=
  ⟨{ wit with sys.bindOff := some { running := true, step := 5 } }, []⟩

def wBindOffAndFunctions7 : State :=
  ⟨{ wit with sys.bindOff := some { running := true, step := 2 }, mot.cap := some {} }, []⟩

def wBindOffAndFunctions8 : State :=
  ⟨{ wit with sys.funcs := wit.sys.funcs.filter fun p => decide (p.1 ≠ .dec) }, []⟩

def wBindOffAndFunctions9 : State :=
  ⟨{ wit with sys.funcs := (.dec, { st := .stopping }) :: (wit.sys.funcs.filter fun p => decide (p.1 ≠ .dec)) }, []⟩

def wBindOffAndFunctions10 : State :=
  ⟨{ wit with sys.funcs := (.dec, { st := .starting }) :: (wit.sys.funcs.filter fun p => decide (p.1 ≠ .dec)) }, []⟩

def wBindOffAndFunctions11 : State :=
  ⟨{ wit with pat.loaded.servo := [] }, []⟩

def wBindOffAndFunctions12 : State :=
  ⟨{ wit with sys.funcs := (.dec, { st := .starting, kept := some false }) :: (wit.sys.funcs.filter fun p => decide (p.1 ≠ .dec)) }, []⟩

def wBindOffAndFunctions13 : State :=
  ⟨{ wit with sys.funcs := (.dec, { st := .stopping, kept := some true }) :: (wit.sys.funcs.filter fun p => decide (p.1 ≠ .dec)) }, []⟩

def wBindOffAndFunctions14 : State :=
  ⟨{ wit with sys.funcs := (Func.nzh, { st := .stopping }) :: (wit.sys.funcs.filter fun p => decide (p.1 ≠ Func.nzh)) }.wr F.SV_REG_REG 0 7, []⟩

theorem witness_BindOffAndFunctions_part1 :
    (∃ (m : Master) (val : Nat) (s : State), s.Inv ∧ s.dev.Takes m R.SYS_BINDOFF 0 ∧ setsBit val 0 ∧ s.dev.sys.bindOff = none ∧ s.dev.sys.reset = none ∧ s.dev.sys.castOn = false ∧ s.dev.sys.autoReset = none) ∧
    (∃ (m : Master) (val : Nat) (s : State), s.Inv ∧ s.dev.Takes m R.SYS_BINDOFF 0 ∧ setsBit val 0 ∧ s.dev.sys.bindOff = none ∧ s.dev.sys.reset = none ∧ (s.dev.sys.castOn = true ∨ s.dev.sys.autoReset ≠ none)) ∧
    (∃ (b : BindOff) (s : State), s.Inv ∧ s.dev.sys.bindOff = some b ∧ b.running = true ∧ b.step = 1 ∧ (s.dev.pageRuns = false ∨ b.abortPage = true ∨ s.dev.pace.inhibit = true) ∧ (b.noCap = true ∨ s.dev.stepPassed 15 = false)) ∧
    (∃ (b : BindOff) (s : State), s.Inv ∧ s.dev.sys.bindOff = some b ∧ b.running = true ∧ b.step = 1 ∧ (s.dev.pageRuns = false ∨ b.abortPage = true ∨ s.dev.pace.inhibit = true) ∧ b.noCap = false ∧ s.dev.stepPassed 15 = true) ∧
    (∃ (b : BindOff) (s : State), s.Inv ∧ s.dev.sys.bindOff = some b ∧ b.running = true ∧ b.step = 2 ∧ s.dev.mot.cap = none) ∧
    (∃ (b : BindOff) (s : State), s.Inv ∧ s.dev.sys.bindOff = some b ∧ b.running = true ∧ b.step = 3) ∧
    (∃ (b : BindOff) (s : State), s.Inv ∧ s.dev.sys.bindOff = some b ∧ b.running = true ∧ b.step = 4) ∧
    (∃ (b : BindOff) (s : State), s.Inv ∧ s.dev.sys.bindOff = some b ∧ b.running = true ∧ b.step = 5) ∧
    (∃ (b : BindOff) (s : State), s.Inv ∧ s.dev.sys.bindOff = some b ∧ b.running = true ∧ b.step = 2 ∧ s.dev.mot.cap ≠ none) ∧
    (∃ (m : Master) (f : Func) (s : State), let e := Func.enable f; let x := s.dev.func f; s.Inv ∧ s.dev.Takes m e.1.reg e.2 ∧ s.dev.permits f = true ∧ x.st = .off) :=
  ⟨⟨.p1, 7, ⟨wit, []⟩, inv_of (by decide +kernel), by decide +kernel, by decide +kernel, by decide +kernel, by decide +kernel, by decide +kernel, by decide +kernel⟩,
    ⟨.p1, 7, wBindOffAndFunctions0, inv_of (by decide +kernel), by decide +kernel, by decide +kernel, by decide +kernel, by decide +kernel, by decide +kernel⟩,
    ⟨({ running := true, step := 1, noCap := true }), wBindOffAndFunctions1, inv_of (by decide +kernel), by decide +kernel, by decide +kernel, by decide +kernel, by decide +kernel, by decide +kernel⟩,
    ⟨({ running := true, step := 1 }), wBindOffAndFunctions2, inv_of (by decide +kernel), by decide +kernel, by decide +kernel, by decide +kernel, by decide +kernel, by decide +kernel, by decide +kernel⟩,
    ⟨({ running := true, step := 2 }), wBindOffAndFunctions3, inv_of (by decide +kernel), by decide +kernel, by decide +kernel, by decide +kernel, by decide +kernel⟩,
    ⟨({ running := true, step := 3 }), wBindOffAndFunctions4, inv_of (by decide +kernel), by decide +kernel, by decide +kernel, by decide +kernel⟩,
    ⟨({ running := true, step := 4 }), wBindOffAndFunctions5, inv_of (by decide +kernel), by decide +kernel, by decide +kernel, by decide +kernel⟩,
    ⟨({ running := true, step := 5 }), wBindOffAndFunctions6, inv_of (by decide +kernel), by decide +kernel, by decide +kernel, by decide +kernel⟩,
    ⟨({ running := true, step := 2 }), wBindOffAndFunctions7, inv_of (by decide +kernel), by decide +kernel, by decide +kernel, by decide +kernel, by decide +kernel⟩,
    ⟨.p1, .dec, wBindOffAndFunctions8, inv_of (by decide +kernel), by decide +kernel, by decide +kernel, by decide +kernel⟩⟩

theorem witness_BindOffAndFunctions_part2 :
    (∃ (m : Master) (f : Func) (s : State), let e := Func.enable f; let x := s.dev.func f; s.Inv ∧ s.dev.Takes m e.1.reg e.2 ∧ s.dev.permits f = true ∧ x.st = .on) ∧
    (∃ (m : Master) (f : Func) (s : State), let e := Func.enable f; let x := s.dev.func f; s.Inv ∧ s.dev.Takes m e.1.reg e.2 ∧ s.dev.permits f = true ∧ x.st = .stopping) ∧
    (∃ (m : Master) (f : Func) (s : State), let e := Func.enable f; let x := s.dev.func f; s.Inv ∧ s.dev.Takes m e.1.reg e.2 ∧ s.dev.permits f = true ∧ x.st = .starting) ∧
    (∃ (m : Master) (f : Func) (s : State), let e := Func.enable f; let x := s.dev.func f; s.Inv ∧ s.dev.Takes m e.1.reg e.2 ∧ ∃ en : Bool, s.dev.permits f = false) ∧
    (∃ (f : Func) (s : State), let x := s.dev.func f; s.Inv ∧ s.dev.transitionRuns f = false ∧ s.dev.underCheck f = false ∧ x.st = .starting ∧ x.kept ≠ some false) ∧
    (∃ (f : Func) (s : State), let x := s.dev.func f; s.Inv ∧ s.dev.transitionRuns f = false ∧ s.dev.underCheck f = false ∧ x.st = .stopping ∧ x.kept ≠ some true) ∧
    (∃ (f : Func) (s : State), let x := s.dev.func f; s.Inv ∧ s.dev.transitionRuns f = false ∧ s.dev.underCheck f = false ∧ x.st = .starting ∧ x.kept = some false) ∧
    (∃ (f : Func) (s : State), let x := s.dev.func f; s.Inv ∧ s.dev.transitionRuns f = false ∧ s.dev.underCheck f = false ∧ x.st = .stopping ∧ x.kept = some true) ∧
    (∃ (f : Func) (s : State), let x := s.dev.func f; s.Inv ∧ (x.st = .starting ∨ x.st = .stopping)) :=
  ⟨⟨.p1, .dec, ⟨wit, []⟩, inv_of (by decide +kernel), by decide +kernel, by decide +kernel, by decide +kernel⟩,
    ⟨.p1, .dec, wBindOffAndFunctions9, inv_of (by decide +kernel), by decide +kernel, by decide +kernel, by decide +kernel⟩,
    ⟨.p1, .dec, wBindOffAndFunctions10, inv_of (by decide +kernel), by decide +kernel, by decide +kernel, by decide +kernel⟩,
    ⟨.p1, (.srv 1), wBindOffAndFunctions11, inv_of (by decide +kernel), by decide +kernel, true, by decide +kernel⟩,
    ⟨.dec, wBindOffAndFunctions10, inv_of (by decide +kernel), by decide +kernel, by decide +kernel, by decide +kernel, by decide +kernel⟩,
    ⟨.dec, wBindOffAndFunctions9, inv_of (by decide +kernel), by decide +kernel, by decide +kernel, by decide +kernel, by decide +kernel⟩,
    ⟨.dec, wBindOffAndFunctions12, inv_of (by decide +kernel), by decide +kernel, by decide +kernel, by decide +kernel, by decide +kernel⟩,
    ⟨.dec, wBindOffAndFunctions13, inv_of (by decide +kernel), by decide +kernel, by decide +kernel, by decide +kernel, by decide +kernel⟩,
    ⟨.nzh, wBindOffAndFunctions14, inv_of (by decide +kernel), by decide +kernel⟩⟩

def wBeatBoundary0 : State :=
  ⟨wit.wr F.TB_INCR_INCR 0 17171279249, []⟩

def wBeatBoundary1 : State :=
  ⟨{ wit with tmb.running := false }, []⟩

theorem witness_BeatBoundary :
    (∃ (tj : Int) (s : State), let b := s.dev.boundary; s.Inv ∧ s.dev.tmb.running = true ∧ s.dev.inReset = false ∧ s.dev.tmb.acc < b * 2 ^ 32 ∧ b < 2 ^ 63 ∧ incrMin ≤ s.dev.rd F.TB_INCR_INCR ∧ tj < 1728) ∧
    (∃ (tj : Int) (s : State), let b := s.dev.boundary; s.Inv ∧ s.dev.tmb.running = true ∧ s.dev.inReset = false ∧ s.dev.tmb.acc < b * 2 ^ 32 ∧ b < 2 ^ 63 ∧ incrMin ≤ s.dev.rd F.TB_INCR_INCR ∧ tj < 1728) ∧
    (∃ (tj : Int) (s : State), let b := s.dev.boundary; s.Inv ∧ s.dev.tmb.running = true ∧ s.dev.inReset = false ∧ s.dev.tmb.acc < b * 2 ^ 32 ∧ b < 2 ^ 63 ∧ incrMin ≤ s.dev.rd F.TB_INCR_INCR ∧ 1728 ≤ tj ∧ s.dev.sys.reset = none) ∧
    (∃ (tj : Int) (s : State), (s.dev.tmb.running = false ∨ s.dev.inReset = true)) :=
  ⟨⟨1727, wBeatBoundary0, inv_of (by decide +kernel), by decide +kernel, by decide +kernel, by decide +kernel, by decide +kernel, by decide +kernel, by decide +kernel⟩,
    ⟨0, wBeatBoundary0, inv_of (by decide +kernel), by decide +kernel, by decide +kernel, by decide +kernel, by decide +kernel, by decide +kernel, by decide +kernel⟩,
    ⟨1728, wBeatBoundary0, inv_of (by decide +kernel), by decide +kernel, by decide +kernel, by decide +kernel, by decide +kernel, by decide +kernel, by decide +kernel, by decide +kernel⟩,
    ⟨0, wBeatBoundary1, by decide +kernel⟩⟩

def wIncrementRange0 : State :=
  ⟨wit.wr F.TB_CTRL_MANUAL 0 1, []⟩

def wIncrementRange1 : State :=
  ⟨(wit.wr F.TB_CTRL_MANUAL 0 1).wr F.TB_INCR_INCR 0 0x400000000, []⟩

theorem witness_IncrementRange :
    (∃ (m : Master) (val : Nat) (s : State), s.Inv ∧ s.dev.Takes m R.TB_INCR 0 ∧ s.dev.rd F.TB_CTRL_MANUAL = 1) ∧
    (∃ (m : Master) (val : Nat) (s : State), s.Inv ∧ s.dev.Takes m R.TB_INCR 0 ∧ s.dev.rd F.TB_CTRL_MANUAL = 1) ∧
    (∃ (m : Master) (bytes val : Nat) (s : State), s.dev.Takes m R.TB_INCR 0 ∧ s.dev.rd F.TB_CTRL_MANUAL = 0) ∧
    (∃ (c : Instr) (s t : State), (match c with | .tbIncrWrite _ _ _ | .tbManualWrite _ _ | .syncRx _ _ _ | .followUpRx _ _ _ | .announceRx _ _ _ | .announceTimeout | .syncTimeout | .timeStepApply => True | _ => False) ∧ exec c s = .next t ∧ 17171279249 ≤ s.dev.rd F.TB_INCR_INCR ∧ s.dev.rd F.TB_INCR_INCR ≤ 17188459118) :=
  ⟨⟨.p1, 17188459119, wIncrementRange0, inv_of (by decide +kernel), by decide +kernel, by decide +kernel⟩,
    ⟨.p1, 77, wIncrementRange1, inv_of (by decide +kernel), by decide +kernel, by decide +kernel⟩,
    ⟨.p1, 8, 0xFFFFFFFF, ⟨wit, []⟩, by decide +kernel, by decide +kernel⟩,
    ⟨.announceTimeout, ⟨wit, []⟩, ⟨nxt .announceTimeout ⟨wit, []⟩, trivial, rfl, by decide +kernel, by decide +kernel⟩⟩⟩

def wTimeControl0 : State :=
  ⟨wit.wr F.TB_CTRL_MANUAL 0 1, []⟩

def wTimeControl1 : State :=
  ⟨(wit.wr F.TB_CTRL_MANUAL 0 1).wr F.TB_CTRL_MODE 0 1 |>.wr F.TB_STATE_REFUSED 0 65535, []⟩

def wTimeControl2 : State :=
  ⟨wit.wr F.TB_STATE_STATE 0 3, []⟩

def wTimeControl3 : State :=
  ⟨(wit.wr F.TB_STATE_STATE 0 3).wr F.TB_CTRL_MODE 0 1, []⟩

def wTimeControl4 : State :=
  ⟨{ wit with tmb.acc := 8000 * 2 ^ 32, tmb.step := some (-8000 * 2 ^ 16, true), tmb.atOpen := true, pace.idle := 4, web.occ := [⟨0, 0, 8001, 0, 0, 0⟩, ⟨0, 0, 3, 0, 0, 0⟩] }.wr F.TB_STATE_STEPS 0 255, []⟩

def wTimeControl5 : State :=
  ⟨{ wit with tmb.acc := 8000 * 2 ^ 32, tmb.step := some (-8000 * 2 ^ 16, true), tmb.atOpen := true, pace.idle := 3 }, []⟩

def wTimeControl6 : State :=
  ⟨{ wit with tmb.acc := 8000 * 2 ^ 32, tmb.step := some (-8000 * 2 ^ 16, false), tmb.atOpen := true, pace.idle := 3 }.wr F.TB_STATE_STATE 0 2, []⟩

theorem witness_TimeControl :
    (∃ (m : Master) (bytes val : Nat) (s : State), let v := if bytes = 8 then val else s.dev.tmb.stepReg / 2 ^ 32 * 2 ^ 32 + val; let move := toSigned 64 v * 2 ^ 16; s.Inv ∧ s.dev.Takes m R.TB_STEP 0 ∧ s.dev.rd F.TB_CTRL_MANUAL = 1 ∧ (bytes = 4 ∧ val < 2 ^ 32 ∨ bytes = 8 ∧ val < 2 ^ 64) ∧ s.dev.tmb.stepReg < 2 ^ 64 ∧ s.dev.refuses move = false) ∧
    (∃ (m : Master) (bytes val : Nat) (s : State), let v := if bytes = 8 then val else s.dev.tmb.stepReg / 2 ^ 32 * 2 ^ 32 + val; let move := toSigned 64 v * 2 ^ 16; s.Inv ∧ s.dev.Takes m R.TB_STEP 0 ∧ s.dev.rd F.TB_CTRL_MANUAL = 1 ∧ (bytes = 4 ∧ val < 2 ^ 32 ∨ bytes = 8 ∧ val < 2 ^ 64) ∧ s.dev.tmb.stepReg < 2 ^ 64 ∧ s.dev.refuses move = true) ∧
    (∃ (m : Master) (val : Nat) (s : State), s.Inv ∧ s.dev.Takes m R.TB_CTRL 0 ∧ val % 4 = 1 ∧ s.dev.rd F.TB_STATE_STATE ≠ 0) ∧
    (∃ (m : Master) (val : Nat) (s : State), s.Inv ∧ s.dev.Takes m R.TB_CTRL 0 ∧ val % 4 = 0 ∧ s.dev.rd F.TB_STATE_STATE = 0 ∧ s.dev.tmb.ptp = true) ∧
    (∃ (m : Master) (val : Nat) (s : State), s.Inv ∧ s.dev.Takes m R.TB_CTRL 0 ∧ s.dev.rd F.TB_CTRL_MODE = 1 ∧ val % 4 = 2 ∧ s.dev.rd F.TB_STATE_STATE ≠ 0) ∧
    (∃ (move : Int) (host : Bool) (s : State), let acc := ((s.dev.tmb.acc : Int) + move * 2 ^ 16).toNat; s.Inv ∧ s.dev.tmb.step = some (move, host) ∧ s.dev.tmb.atOpen = true ∧ s.dev.barIdle = true ∧ 0 ≤ (s.dev.tmb.acc : Int) + move * 2 ^ 16 ∧ acc < 2 ^ 96) ∧
    (∃ (move : Int) (host : Bool) (s : State), let acc := ((s.dev.tmb.acc : Int) + move * 2 ^ 16).toNat; s.Inv ∧ s.dev.tmb.step = some (move, host) ∧ s.dev.tmb.atOpen = true ∧ s.dev.barIdle = false ∧ s.dev.tmb.deferred = false ∧ host = true) ∧
    (∃ (move : Int) (host : Bool) (s : State), let acc := ((s.dev.tmb.acc : Int) + move * 2 ^ 16).toNat; s.Inv ∧ s.dev.tmb.step = some (move, host) ∧ s.dev.tmb.atOpen = true ∧ s.dev.barIdle = false ∧ s.dev.tmb.deferred = false ∧ host = false ∧ s.dev.rd F.TB_STATE_STATE = 2) :=
  ⟨⟨.p1, 8, (2 ^ 64 - 1), wTimeControl0, inv_of (by decide +kernel), by decide +kernel, by decide +kernel, by decide +kernel, by decide +kernel, by decide +kernel⟩,
    ⟨.p1, 8, (2 ^ 63), wTimeControl1, inv_of (by decide +kernel), by decide +kernel, by decide +kernel, by decide +kernel, by decide +kernel, by decide +kernel⟩,
    ⟨.p1, 0xFFFFFFFD, wTimeControl2, inv_of (by decide +kernel), by decide +kernel, by decide +kernel, by decide +kernel⟩,
    ⟨.p1, 0xFFFFFFFC, wTimeControl0, inv_of (by decide +kernel), by decide +kernel, by decide +kernel, by decide +kernel, by decide +kernel⟩,
    ⟨.p1, 2, wTimeControl3, inv_of (by decide +kernel), by decide +kernel, by decide +kernel, by decide +kernel, by decide +kernel⟩,
    ⟨(-8000 * 2 ^ 16), true, wTimeControl4, inv_of (by decide +kernel), by decide +kernel, by decide +kernel, by decide +kernel, by decide +kernel, by decide +kernel⟩,
    ⟨(-8000 * 2 ^ 16), true, wTimeControl5, inv_of (by decide +kernel), by decide +kernel, by decide +kernel, by decide +kernel, by decide +kernel, by decide +kernel⟩,
    ⟨(-8000 * 2 ^ 16), false, wTimeControl6, inv_of (by decide +kernel), by decide +kernel, by decide +kernel, by decide +kernel, by decide +kernel, by decide +kernel, by decide +kernel⟩⟩

def wPtpMessages0 : State :=
  ⟨wit.wr F.TB_STATE_STATE 0 1, []⟩

def wPtpMessages1 : State :=
  ⟨{ wit with tmb.selected := some { port := 1, msg := { src := { clock := 5 } } } }, []⟩

def wPtpMessages2 : State :=
  ⟨{ wit with tmb.selected := some { port := 1, msg := { src := { clock := 5 } } } }.wr F.TB_STATE_STATE 0 1 |>.wr F.TB_LIMITS_STEP_THRESH 0 100000, []⟩

def wPtpMessages3 : State :=
  ⟨{ wit with tmb.hold := 3, tmb.selected := some { port := 1, msg := { src := { clock := 5 } } } }.wr F.TB_STATE_STATE 0 3, []⟩

def wPtpMessages4 : State :=
  ⟨{ wit with tmb.selected := some { port := 1, msg := { src := { clock := 5 } } }, tmb.ports := [{}, { sync := some ({ src := { clock := 5 }, seq := 65535, twoStep := true, corr := 9 }, 70000) }] }, []⟩

def wPtpMessages5 : State :=
  ⟨{ wit with tmb.selected := some { port := 1, msg := { src := { clock := 5 } } }, tmb.ports := [{}, { delayReq := some (9, 70000), t1 := 4, t2 := 11 }] }, []⟩

def wPtpMessages6 : State :=
  ⟨{ wit.wr F.TB_PORT_CFG_DELAY 1 1 with regsOpen := (wit.wr F.TB_PORT_CFG_DELAY 1 1).regs }, []⟩

def wPtpMessages7 : State :=
  ⟨{ wit.wr F.TB_PORT_CFG_DELAY 1 1 with regsOpen := (wit.wr F.TB_PORT_CFG_DELAY 1 1).regs, tmb.ports := [{}, { pdelayReq := some (9, 1) }] }, []⟩

def wPtpMessages8 : State :=
  ⟨{ wit.wr F.TB_PORT_CFG_DELAY 1 1 with regsOpen := (wit.wr F.TB_PORT_CFG_DELAY 1 1).regs, tmb.ports := [{}, { pdelayReq := some (9, 1), pdelayResp := some (4000, -77, 5) }] }, []⟩

theorem witness_PtpMessages_part1 :
    (∃ (e : Fin 2) (f : PtpForm) (msg : Announce) (s : State), let heard := (⟨e, msg, s.dev.tmb.beats⟩ : Foreign) :: s.dev.tmb.heard.filter fun g => !sameMaster g ⟨e, msg, s.dev.tmb.beats⟩; let new := bestOf ({ s.dev with tmb.heard := heard } : Dev).candidates; s.Inv ∧ s.dev.Receives e f ∧ tooLate msg.originSec = false ∧ msg.stepsRemoved < 255) ∧
    (∃ (e : Fin 2) (f : PtpForm) (msg : Announce) (s : State), let heard := (⟨e, msg, s.dev.tmb.beats⟩ : Foreign) :: s.dev.tmb.heard.filter fun g => !sameMaster g ⟨e, msg, s.dev.tmb.beats⟩; let new := bestOf ({ s.dev with tmb.heard := heard } : Dev).candidates; s.Inv ∧ s.dev.Receives e f ∧ 255 ≤ msg.stepsRemoved) ∧
    (∃ (e : Fin 2) (f : PtpForm) (msg : SyncMsg) (s : State), let o := s.dev.rxStamp e f.capture - (((msg.originSec : Int) * 1000000000 + msg.originNs) * 2 ^ 16 + msg.corr) - (s.dev.ptpPort e).delay; let terms := servoTerms (s.dev.rd F.TB_SERVO_KP) (s.dev.rd F.TB_SERVO_KI) s.dev.tmb.integ o msg.logInterval; s.Inv ∧ s.dev.Receives e f ∧ tooLate msg.originSec = false ∧ s.dev.fromMaster e msg.src = true ∧ msg.twoStep = false ∧ s.dev.rd F.TB_STATE_STATE = 0) ∧
    (∃ (e : Fin 2) (f : PtpForm) (msg : SyncMsg) (s : State), let o := s.dev.rxStamp e f.capture - (((msg.originSec : Int) * 1000000000 + msg.originNs) * 2 ^ 16 + msg.corr) - (s.dev.ptpPort e).delay; let terms := servoTerms (s.dev.rd F.TB_SERVO_KP) (s.dev.rd F.TB_SERVO_KI) s.dev.tmb.integ o msg.logInterval; s.Inv ∧ s.dev.Receives e f ∧ tooLate msg.originSec = false ∧ s.dev.fromMaster e msg.src = true ∧ msg.twoStep = false ∧ (s.dev.rd F.TB_STATE_STATE = 1 ∨ s.dev.rd F.TB_STATE_STATE = 2) ∧ s.dev.refuses o = false ∧ (o.natAbs : Int) < (s.dev.rd F.TB_LIMITS_STEP_THRESH : Int) * 2 ^ 16) ∧
    (∃ (e : Fin 2) (f : PtpForm) (msg : SyncMsg) (s : State), let o := s.dev.rxStamp e f.capture - (((msg.originSec : Int) * 1000000000 + msg.originNs) * 2 ^ 16 + msg.corr) - (s.dev.ptpPort e).delay; let terms := servoTerms (s.dev.rd F.TB_SERVO_KP) (s.dev.rd F.TB_SERVO_KI) s.dev.tmb.integ o msg.logInterval; s.Inv ∧ s.dev.Receives e f ∧ tooLate msg.originSec = false ∧ s.dev.fromMaster e msg.src = true ∧ msg.twoStep = false ∧ s.dev.rd F.TB_STATE_STATE = 3) ∧
    (∃ (e : Fin 2) (f : PtpForm) (msg : SyncMsg) (s : State), let o := s.dev.rxStamp e f.capture - (((msg.originSec : Int) * 1000000000 + msg.originNs) * 2 ^ 16 + msg.corr) - (s.dev.ptpPort e).delay; let terms := servoTerms (s.dev.rd F.TB_SERVO_KP) (s.dev.rd F.TB_SERVO_KI) s.dev.tmb.integ o msg.logInterval; s.Inv ∧ s.dev.Receives e f ∧ tooLate msg.originSec = false ∧ s.dev.fromMaster e msg.src = true ∧ msg.twoStep = true) ∧
    (∃ (e : Fin 2) (f : PtpForm) (msg : FollowUp) (sm : SyncMsg) (t2 : Nat) (s : State), s.Inv ∧ s.dev.Receives e f ∧ tooLate msg.originSec = false ∧ s.dev.fromMaster e msg.src = true ∧ (s.dev.ptpPort e).sync = some (sm, t2) ∧ sm.seq = msg.seq) ∧
    (∃ (e : Fin 2) (f : PtpForm) (msg : DelayResp) (t3 : Nat) (s : State), let p := s.dev.ptpPort e; s.Inv ∧ s.dev.Receives e f ∧ s.dev.p2p e = false ∧ msg.mine = true ∧ s.dev.fromMaster e msg.src = true ∧ p.delayReq = some (msg.seq.toNat, t3)) :=
  ⟨⟨1, ({}), ({ originSec := 18446744072, stepsRemoved := 254, src := { clock := 5 } }), wPtpMessages0, inv_of (by decide +kernel), by decide +kernel, by decide +kernel, by decide +kernel⟩,
    ⟨1, ({}), ({ stepsRemoved := 255 }), ⟨wit, []⟩, inv_of (by decide +kernel), by decide +kernel, by decide +kernel⟩,
    ⟨1, ({ capture := 5000 * 65536 }), ({ originSec := 18446744072, src := { clock := 5 }, corr := -7, twoStep := false }), wPtpMessages1, inv_of (by decide +kernel), by decide +kernel, by decide +kernel, by decide +kernel, by decide +kernel, by decide +kernel⟩,
    ⟨1, ({ capture := 5000 * 65536 }), ({ originNs := 4950, src := { clock := 5 }, corr := -7, twoStep := false }), wPtpMessages2, inv_of (by decide +kernel), by decide +kernel, by decide +kernel, by decide +kernel, by decide +kernel, by decide +kernel, by decide +kernel, by decide +kernel⟩,
    ⟨1, ({ capture := 5000 * 65536 }), ({ originNs := 4950, src := { clock := 5 }, corr := -7, twoStep := false }), wPtpMessages3, inv_of (by decide +kernel), by decide +kernel, by decide +kernel, by decide +kernel, by decide +kernel, by decide +kernel⟩,
    ⟨1, ({ capture := 5000 * 65536 }), ({ originSec := 0, originNs := 4000, src := { clock := 5 }, twoStep := true }), wPtpMessages1, inv_of (by decide +kernel), by decide +kernel, by decide +kernel, by decide +kernel, by decide +kernel⟩,
    ⟨1, ({}), ({ src := { clock := 5 }, seq := 65535, originSec := 18446744072, originNs := 3 }), ({ src := { clock := 5 }, seq := 65535, twoStep := true, corr := 9 }), 70000, wPtpMessages4, inv_of (by decide +kernel), by decide +kernel, by decide +kernel, by decide +kernel, by decide +kernel, by decide +kernel⟩,
    ⟨1, ({}), ({ src := { clock := 5 }, seq := 9, rxNs := 4000, corr := -3, logInterval := 3 }), 70000, wPtpMessages5, inv_of (by decide +kernel), by decide +kernel, by decide +kernel, by decide +kernel, by decide +kernel, by decide +kernel⟩⟩

theorem witness_PtpMessages_part2 :
    (∃ (e : Fin 2) (f : PtpForm) (msg : PdelayReq) (s : State), s.dev.Receives e f ∧ s.dev.p2p e = true ∧ (s.dev.udp e = false ∨ s.dev.rd F.TB_PORT_IP_ADDR e ≠ 0)) ∧
    (∃ (e : Fin 2) (f : PtpForm) (msg : PdelayResp) (t1 : Nat) (s : State), let t4 := s.dev.rxStamp e f.capture; s.Inv ∧ s.dev.Receives e f ∧ s.dev.p2p e = true ∧ msg.mine = true ∧ (s.dev.ptpPort e).pdelayReq = some (msg.seq.toNat, t1) ∧ msg.followUp = false ∧ msg.twoStep = false) ∧
    (∃ (e : Fin 2) (f : PtpForm) (msg : PdelayResp) (t1 : Nat) (s : State), let t4 := s.dev.rxStamp e f.capture; s.Inv ∧ s.dev.Receives e f ∧ s.dev.p2p e = true ∧ msg.mine = true ∧ (s.dev.ptpPort e).pdelayReq = some (msg.seq.toNat, t1) ∧ msg.followUp = false ∧ msg.twoStep = true) ∧
    (∃ (e : Fin 2) (f : PtpForm) (msg : PdelayResp) (t1 : Nat) (s : State), let t4 := s.dev.rxStamp e f.capture; s.Inv ∧ s.dev.Receives e f ∧ s.dev.p2p e = true ∧ msg.mine = true ∧ (s.dev.ptpPort e).pdelayReq = some (msg.seq.toNat, t1) ∧ ∃ r : Nat × Int × Int, msg.followUp = true ∧ (s.dev.ptpPort e).pdelayResp = some r) ∧
    (∃ (e : Fin 2) (f : PtpForm) (q : PdelayReq) (r : DelayResp) (s : State), s.dev.funcOn (.eth e) = true) ∧
    (∃ (e : Fin 2) (f : PtpForm) (q : PdelayReq) (r : DelayResp) (s : State), s.dev.funcOn (.eth e) = true ∧ s.dev.p2p e = false) ∧
    (∃ (e : Fin 2) (f : PtpForm) (q : PdelayReq) (r : DelayResp) (s : State), s.dev.funcOn (.eth e) = true ∧ s.dev.p2p e = true) :=
  ⟨⟨1, ({ capture := 3 }), ({ seq := 9, answer := 77, corr := -3 }), wPtpMessages6, by decide +kernel, by decide +kernel, by decide +kernel⟩,
    ⟨1, ({ capture := 3 }), ({ seq := 9, twoStep := false, corr := 3 }), 1, wPtpMessages7, inv_of (by decide +kernel), by decide +kernel, by decide +kernel, by decide +kernel, by decide +kernel, by decide +kernel, by decide +kernel⟩,
    ⟨1, ({ capture := 3 }), ({ seq := 9, twoStep := true, corr := 3, ns := 4 }), 1, wPtpMessages7, inv_of (by decide +kernel), by decide +kernel, by decide +kernel, by decide +kernel, by decide +kernel, by decide +kernel, by decide +kernel⟩,
    ⟨1, ({ capture := 3 }), ({ seq := 9, followUp := true, corr := 3, ns := 4 }), 1, wPtpMessages8, inv_of (by decide +kernel), by decide +kernel, by decide +kernel, by decide +kernel, by decide +kernel, ((4000, -77, 5)), by decide +kernel, by decide +kernel⟩,
    ⟨1, ({}), ({}), ({}), ⟨wit, []⟩, by decide +kernel⟩,
    ⟨1, ({}), ({}), ({}), ⟨wit, []⟩, by decide +kernel, by decide +kernel⟩,
    ⟨1, ({}), ({}), ({}), wPtpMessages6, by decide +kernel, by decide +kernel⟩⟩

def wPtpTimers0 : State :=
  ⟨{ wit with tmb.selected := some { port := 1, msg := { src := { clock := 5 } } }, tmb.ports := [{}, { seqD := 65535 }] }, []⟩

def wPtpTimers1 : State :=
  ⟨{ wit.wr F.TB_PORT_CFG_DELAY 1 1 with regsOpen := (wit.wr F.TB_PORT_CFG_DELAY 1 1).regs }, []⟩

def wPtpTimers2 : State :=
  ⟨{ wit with tmb.selected := some { port := 1 }, tmb.heard := [{ port := 1 }, { port := 0 }], tmb.lastSel := some (1, {}) }.wr F.TB_STATE_STATE 0 2, []⟩

def wPtpTimers3 : State :=
  ⟨{ wit with tmb.selected := some { port := 1 }, tmb.heard := [{ port := 1 }], tmb.synced := true }.wr F.TB_STATE_STATE 0 1, []⟩

theorem witness_PtpTimers :
    (∃ (e : Fin 2) (capture : Nat) (s : State), let seq := (s.dev.ptpPort e).seqD; s.Inv ∧ s.dev.ptpSends e = true ∧ s.dev.p2p e = false ∧ (s.dev.tmb.selected.map Foreign.port) = some e) ∧
    (∃ (e : Fin 2) (capture : Nat) (s : State), let seq := (s.dev.ptpPort e).seqP; s.Inv ∧ s.dev.ptpSends e = true ∧ s.dev.p2p e = true) ∧
    (∃ (g : Foreign) (s : State), let new := bestOf ({ s.dev with tmb.heard := s.dev.tmb.heard.filter fun f => !sameMaster f g } : Dev).candidates; s.Inv ∧ s.dev.tmb.selected = some g) ∧
    (∃ (g : Foreign) (s : State), let new := bestOf ({ s.dev with tmb.heard := s.dev.tmb.heard.filter fun f => !sameMaster f g } : Dev).candidates; s.Inv ∧ s.dev.tmb.selected = some g ∧ s.dev.tmb.synced = true) :=
  ⟨⟨1, 9, wPtpTimers0, inv_of (by decide +kernel), by decide +kernel, by decide +kernel, by decide +kernel⟩,
    ⟨1, 9, wPtpTimers1, inv_of (by decide +kernel), by decide +kernel, by decide +kernel⟩,
    ⟨({ port := 1 }), wPtpTimers2, inv_of (by decide +kernel), by decide +kernel⟩,
    ⟨({ port := 1 }), wPtpTimers3, inv_of (by decide +kernel), by decide +kernel, by decide +kernel⟩⟩

def wQuadratureCounts0 : State :=
  ⟨(wit.wr F.WT_Qn_COUNT_COUNT 3 0xFFFFFFFF), []⟩

def wQuadratureCounts1 : State :=
  ⟨(wit.wr F.WT_Qn_STAT_QERR 0 0xFFFF), []⟩

def wQuadratureCounts2 : State :=
  ⟨{ wit with web.started := true, web.quads := [{ illegal := [2000, 1000] }, {}, {}, {}] }.wr F.WT_STAT_STATE 0 2, []⟩

theorem witness_QuadratureCounts :
    (∃ (n : Fin 4) (a b : Bool) (t : Nat) (s : State), let k := (gray (a, b) + 4 - gray (s.dev.quad n).level) % 4; let up := decide (k = 1) != s.dev.on F.WT_Qn_CFG_DIR_INV n; s.Inv ∧ s.dev.funcOn (.q n) = true ∧ (k = 1 ∨ k = 3)) ∧
    (∃ (n : Fin 4) (a b : Bool) (t : Nat) (s : State), let third := threeWithin (t :: (s.dev.quad n).illegal.take 2); s.Inv ∧ s.dev.funcOn (.q n) = true ∧ (gray (a, b) + 4 - gray (s.dev.quad n).level) % 4 = 2 ∧ third = false) ∧
    (∃ (n : Fin 4) (a b : Bool) (t : Nat) (s : State), let third := threeWithin (t :: (s.dev.quad n).illegal.take 2); s.Inv ∧ s.dev.funcOn (.q n) = true ∧ (gray (a, b) + 4 - gray (s.dev.quad n).level) % 4 = 2 ∧ third = true) :=
  ⟨⟨3, false, true, 9000, wQuadratureCounts0, inv_of (by decide +kernel), by decide +kernel, by decide +kernel⟩,
    ⟨0, true, true, 3, wQuadratureCounts1, inv_of (by decide +kernel), by decide +kernel, by decide +kernel, by decide +kernel⟩,
    ⟨0, true, true, 3000, wQuadratureCounts2, inv_of (by decide +kernel), by decide +kernel, by decide +kernel, by decide +kernel⟩⟩

def wIndexAndScale0 : State :=
  ⟨(wit.wr F.WT_Qn_CFG_IDX_MODE 3 1).wr F.WT_Qn_COUNT_COUNT 3 0xFFFFFFFF, []⟩

def wIndexAndScale1 : State :=
  ⟨wit.wr F.WT_Qn_CFG_IDX_MODE 2 2, []⟩

def wIndexAndScale2 : State :=
  ⟨(wit.wr F.WT_Qn_CFG_IDX_MODE 2 1).wr F.WT_Qn_COUNT_COUNT 2 0xFFFFFFFF, []⟩

def wIndexAndScale3 : State :=
  ⟨((wit.wr F.WT_Qn_CFG_IDX_MODE 1 2).wr F.WT_Qn_CFG_IDX_ARM 1 1).wr F.WT_Qn_COUNT_COUNT 1 0xFFFFFFFF |>.wr F.SV_a_STAT_MOTION 0 2, []⟩

def wIndexAndScale4 : State :=
  ⟨wit.wr F.WT_STAT_STATE 0 3, []⟩

theorem witness_IndexAndScale :
    (∃ (n : Fin 4) (t : Nat) (s : State), let servo := (List.finRange 2).flatMap fun a => [R.SV_a_STAT.addr a, R.SV_a_POS.addr a, R.SV_a_LOOP.addr a, R.SV_a_TARGET.addr a]; s.Inv ∧ s.dev.funcOn (.q n) = true ∧ s.dev.rd F.WT_Qn_CFG_IDX_MODE n = 1) ∧
    (∃ (n : Fin 4) (t : Nat) (s : State), let servo := (List.finRange 2).flatMap fun a => [R.SV_a_STAT.addr a, R.SV_a_POS.addr a, R.SV_a_LOOP.addr a, R.SV_a_TARGET.addr a]; s.Inv ∧ s.dev.funcOn (.q n) = true ∧ s.dev.rd F.WT_Qn_CFG_IDX_MODE n = 0) ∧
    (∃ (n : Fin 4) (t : Nat) (s : State), let servo := (List.finRange 2).flatMap fun a => [R.SV_a_STAT.addr a, R.SV_a_POS.addr a, R.SV_a_LOOP.addr a, R.SV_a_TARGET.addr a]; s.Inv ∧ s.dev.funcOn (.q n) = true ∧ s.dev.rd F.WT_Qn_CFG_IDX_MODE n = 2 ∧ s.dev.rd F.WT_Qn_CFG_IDX_ARM n = 0) ∧
    (∃ (n : Fin 4) (t : Nat) (s : State), let servo := (List.finRange 2).flatMap fun a => [R.SV_a_STAT.addr a, R.SV_a_POS.addr a, R.SV_a_LOOP.addr a, R.SV_a_TARGET.addr a]; s.Inv ∧ s.dev.funcOn (.q n) = true ∧ ∃ (a b : Bool) (u : State), s.dev.rd F.WT_Qn_CFG_IDX_MODE n = 1 ∧ exec (.quadTransition n a b t) s = .next u) ∧
    (∃ (n : Fin 4) (t : Nat) (s : State), let servo := (List.finRange 2).flatMap fun a => [R.SV_a_STAT.addr a, R.SV_a_POS.addr a, R.SV_a_LOOP.addr a, R.SV_a_TARGET.addr a]; s.Inv ∧ s.dev.funcOn (.q n) = true ∧ s.dev.rd F.WT_Qn_CFG_IDX_MODE n = 2 ∧ s.dev.rd F.WT_Qn_CFG_IDX_ARM n = 1) ∧
    (∃ (m : Master) (n : Fin 4) (s : State), s.Inv ∧ s.dev.Takes m R.WT_Qn_CFG n) ∧
    (∃ (m : Master) (val : Nat) (s : State), s.Inv ∧ s.dev.Takes m R.WT_SCALE 0 ∧ s.dev.rd F.WT_STAT_STATE = 0) ∧
    (∃ (m : Master) (val : Nat) (s : State), s.Inv ∧ s.dev.Takes m R.WT_SCALE 0 ∧ s.dev.rd F.WT_STAT_STATE ≠ 0) :=
  ⟨⟨3, (2 ^ 64 - 1), wIndexAndScale0, inv_of (by decide +kernel), by decide +kernel, by decide +kernel⟩,
    ⟨2, 4000, ⟨wit, []⟩, inv_of (by decide +kernel), by decide +kernel, by decide +kernel⟩,
    ⟨2, 4000, wIndexAndScale1, inv_of (by decide +kernel), by decide +kernel, by decide +kernel, by decide +kernel⟩,
    ⟨2, 4000, wIndexAndScale2, inv_of (by decide +kernel), by decide +kernel, true, false, ⟨nxt (.quadTransition 2 true false 4000) _, by decide +kernel, rfl⟩⟩,
    ⟨1, 7, wIndexAndScale3, inv_of (by decide +kernel), by decide +kernel, by decide +kernel, by decide +kernel⟩,
    ⟨.p1, 3, ⟨wit, []⟩, inv_of (by decide +kernel), by decide +kernel⟩,
    ⟨.p1, (2 ^ 32), ⟨wit, []⟩, inv_of (by decide +kernel), by decide +kernel, by decide +kernel⟩,
    ⟨.p1, 0xFFFFFFFF, wIndexAndScale4, inv_of (by decide +kernel), by decide +kernel, by decide +kernel⟩⟩

def wObserverStates0 : State :=
  ⟨{ wit with web.lastPm := 5, web.x := 77, web.v := 9, web.lastEdge := 0 }.wr F.WT_STAT_STATE 0 1 |>.wr F.WT_LIMITS_STILL_T 0 12, []⟩

def wObserverStates1 : State :=
  ⟨{ wit with web.count := 7, web.edges := [(5, 6)] }.wr F.WT_STAT_STATE 0 1, []⟩

def wObserverStates2 : State :=
  ⟨{ wit with tmb.openT := 2000000, web.coastEdges := List.replicate 16 1000000, web.hw := 500, web.lastQerr := 999999, web.x := 50 }.wr F.WT_STAT_STATE 0 3, []⟩

def wObserverStates3 : State :=
  ⟨{ wit with cdc.pages := [{ inProgress := true }], web.x := 20 * 2 ^ 33 }.wr F.WT_STAT_STATE 0 3 |>.wr F.WT_LIMITS_COAST_MAX 0 20, []⟩

def wObserverStates4 : State :=
  ⟨{ wit with web.revDue := true }.wr F.WT_DEBT_D 0 0xFFFFFFFF, []⟩

theorem witness_ObserverStates :
    (∃ (s : State), s.Inv ∧ (s.dev.rd F.WT_STAT_STATE = 1 ∨ s.dev.rd F.WT_STAT_STATE = 2) ∧ s.dev.web.edges = [] ∧ s.dev.web.lastEdge + s.dev.rd F.WT_LIMITS_STILL_T * 1000 ≤ s.dev.boundary) ∧
    (∃ (s : State), s.Inv ∧ s.dev.rd F.WT_STAT_STATE = 1 ∧ 8 ≤ s.dev.web.count + s.dev.web.edges.length) ∧
    (∃ (s : State), let tk := s.dev.tmb.openT; s.Inv ∧ s.dev.rd F.WT_STAT_STATE = 3 ∧ s.dev.web.lastQerr < tk - 1000000 ∧ 16 ≤ (s.dev.web.coastEdges.filter fun t => decide (tk - 1000000 ≤ t) && decide (t < tk)).length) ∧
    (∃ (s : State), s.Inv ∧ s.dev.rd F.WT_STAT_STATE = 3 ∧ s.dev.pageRuns = true ∧ s.dev.web.exhausted = false ∧ (s.dev.rd F.WT_LIMITS_COAST_MAX : Int) ≤ (s.dev.web.x - s.dev.web.coastX) / 2 ^ 32) ∧
    (∃ (s : State), s.Inv ∧ s.dev.web.revDue = true) :=
  ⟨⟨wObserverStates0, inv_of (by decide +kernel), by decide +kernel, by decide +kernel, by decide +kernel⟩,
    ⟨wObserverStates1, inv_of (by decide +kernel), by decide +kernel, by decide +kernel⟩,
    ⟨wObserverStates2, inv_of (by decide +kernel), by decide +kernel, by decide +kernel, by decide +kernel⟩,
    ⟨wObserverStates3, inv_of (by decide +kernel), by decide +kernel, by decide +kernel, by decide +kernel, by decide +kernel⟩,
    ⟨wObserverStates4, inv_of (by decide +kernel), by decide +kernel⟩⟩

def wPageCues0 : State :=
  ⟨{ wit with cdc.pages := [{ uid := 1, lines := 10 }], web.prevPage := some (0, 0) }.wr F.WT_CUE_CFG_ENABLE 0 1 |>.wr F.WT_STAT_STATE 0 2 |>.wr F.WT_STAT_SUSPENDED 0 1 |>.wr F.WT_DEBT_D 0 5, []⟩

def wPageCues1 : State :=
  ⟨{ wit with cdc.pages := [{ uid := 1, lines := 10 }], web.soft := [4000, 9] }.wr F.WT_CUE_CFG_ENABLE 0 1 |>.wr F.WT_STAT_STATE 0 0 |>.wr F.WT_DEBT_D 0 5, []⟩

def wPageCues2 : State :=
  ⟨wit.wr F.WT_CUE_CFG_ENABLE 0 0, []⟩

def wPageCues3 : State :=
  ⟨wit.wr F.WT_CUE_CFG_ENABLE 0 1, []⟩

def wPageCues4 : State :=
  ⟨{ wit with cdc.pages := [{ uid := 1, lines := 10 }] }.wr F.WT_CUE_CFG_ENABLE 0 1 |>.wr F.WT_STAT_STATE 0 3, []⟩

def wPageCues5 : State :=
  ⟨{ wit with cdc.pages := [{ uid := 1, lines := 10 }], web.prevPage := some (10, 5) }.wr F.WT_CUE_CFG_ENABLE 0 1 |>.wr F.WT_STAT_STATE 0 2, []⟩

def wPageCues6 : State :=
  ⟨{ wit with web.soft := [4000, 9] }, []⟩

def wPageCues7 : State :=
  ⟨{ wit with web.soft := [4000], cdc.pages := [{ uid := 1, lines := 10 }], sys.bindOff := some { running := true } }.wr F.WT_CUE_CFG_ENABLE 0 1 |>.wr F.WT_STAT_STATE 0 2, []⟩

theorem witness_PageCues :
    (∃ (stamp : Nat) (p : Page) (s : State), s.Inv ∧ (s.dev.sys.bindOff.map BindOff.running) ≠ some true ∧ s.dev.rd F.WT_CUE_CFG_ENABLE = 1 ∧ s.dev.headPage = some p ∧ s.dev.pat.hold = false ∧ (s.dev.rd F.WT_STAT_STATE = 2 ∨ s.dev.rd F.WT_STAT_STATE ≠ 3 ∧ s.dev.rd F.WT_STAT_SUSPENDED = 0) ∧ (∀ q, s.dev.web.prevPage = some q → q.1 + q.2 ≤ s.dev.cueStart stamp)) ∧
    (∃ (stamp : Nat) (p : Page) (s : State), s.Inv ∧ (s.dev.sys.bindOff.map BindOff.running) ≠ some true ∧ s.dev.rd F.WT_CUE_CFG_ENABLE = 1 ∧ s.dev.headPage = some p ∧ s.dev.pat.hold = false ∧ (s.dev.rd F.WT_STAT_STATE = 2 ∨ s.dev.rd F.WT_STAT_STATE ≠ 3 ∧ s.dev.rd F.WT_STAT_SUSPENDED = 0) ∧ (∀ q, s.dev.web.prevPage = some q → q.1 + q.2 ≤ s.dev.cueStart stamp) ∧ ∃ rest, s.dev.web.soft = stamp :: rest) ∧
    (∃ (stamp : Nat) (s : State), s.dev.rd F.WT_CUE_CFG_ENABLE = 0) ∧
    (∃ (stamp : Nat) (s : State), s.dev.rd F.WT_CUE_CFG_ENABLE = 1 ∧ (s.dev.headPage = none ∨ s.dev.pat.hold = true)) ∧
    (∃ (stamp : Nat) (p : Page) (s : State), s.dev.rd F.WT_CUE_CFG_ENABLE = 1 ∧ s.dev.headPage = some p ∧ s.dev.pat.hold = false ∧ (s.dev.rd F.WT_STAT_STATE = 3 ∨ s.dev.rd F.WT_STAT_STATE ≠ 2 ∧ s.dev.rd F.WT_STAT_SUSPENDED = 1)) ∧
    (∃ (stamp : Nat) (p : Page) (s : State), s.dev.rd F.WT_CUE_CFG_ENABLE = 1 ∧ s.dev.headPage = some p ∧ s.dev.pat.hold = false ∧ ∃ q : Int × Nat, s.dev.rd F.WT_STAT_STATE = 2 ∧ s.dev.web.prevPage = some q ∧ s.dev.cueStart stamp < q.1 + q.2) ∧
    (∃ (stamp : Nat) (rest : List Nat) (s : State), s.dev.web.soft = stamp :: rest ∧ s.dev.cueCause stamp ≠ 0) ∧
    (∃ (stamp : Nat) (rest : List Nat) (s : State), s.dev.web.soft = stamp :: rest ∧ s.dev.cueCause stamp = 0 ∧ (s.dev.sys.bindOff.map BindOff.running) = some true) ∧
    (∃ (m : Master) (val : Nat) (s : State), s.Inv ∧ s.dev.Takes m R.WT_CUE_CFG 0 ∧ setsBit val 49) ∧
    (∃ (m : Master) (val : Nat) (s : State), s.Inv ∧ s.dev.Takes m R.WT_CUE_CFG 0 ∧ setsBit val 17) :=
  ⟨⟨4000, ({ uid := 1, lines := 10 }), wPageCues0, inv_of (by decide +kernel), by decide +kernel, by decide +kernel, by decide +kernel, by decide +kernel, by decide +kernel, by decide +kernel⟩,
    ⟨4000, ({ uid := 1, lines := 10 }), wPageCues1, inv_of (by decide +kernel), by decide +kernel, by decide +kernel, by decide +kernel, by decide +kernel, by decide +kernel, by decide +kernel, ([9]), by decide +kernel⟩,
    ⟨4000, wPageCues2, by decide +kernel⟩,
    ⟨4000, wPageCues3, by decide +kernel, by decide +kernel⟩,
    ⟨4000, ({ uid := 1, lines := 10 }), wPageCues4, by decide +kernel, by decide +kernel, by decide +kernel, by decide +kernel⟩,
    ⟨3, ({ uid := 1, lines := 10 }), wPageCues5, by decide +kernel, by decide +kernel, by decide +kernel, ((10, 5)), by decide +kernel, by decide +kernel, by decide +kernel⟩,
    ⟨4000, ([9]), wPageCues6, by decide +kernel, by decide +kernel⟩,
    ⟨4000, ([]), wPageCues7, by decide +kernel, by decide +kernel, by decide +kernel⟩,
    ⟨.p1, (2 ^ 50 - 1), ⟨wit, []⟩, inv_of (by decide +kernel), by decide +kernel, by decide +kernel⟩,
    ⟨.p1, (2 ^ 18 - 2), ⟨wit, []⟩, inv_of (by decide +kernel), by decide +kernel, by decide +kernel⟩⟩

def wPositionCompare0 : State :=
  ⟨{ wit with web.cmpJ := [(4095, 4)] }, []⟩

def wPositionCompare1 : State :=
  ⟨{ wit with web.occ := [⟨1, 8000, 5, 0, 16, 9⟩, ⟨0, 9000, 5, 0x81, 16, 0⟩] }, []⟩

def wPositionCompare2 : State :=
  ⟨{ wit with web.pulses := [⟨0x81, 9000, 9016⟩, ⟨0xC0, 9000, 9010⟩], web.mark := 0xC1 }, []⟩

theorem witness_PositionCompare :
    (∃ (m : Master) (e val : Nat) (s : State), s.Inv ∧ e < 4096 ∧ s.dev.Takes m R.WT_CMP_OUT e ∧ s.dev.rd F.WT_CMP_OUT_ENABLE e = 0 ∧ setsBit val 32) ∧
    (∃ (m : Master) (e val : Nat) (s : State), s.Inv ∧ e < 4096 ∧ s.dev.Takes m R.WT_CMP_OUT e ∧ s.dev.rd F.WT_CMP_OUT_ENABLE e = 0 ∧ setsBit val 0) ∧
    (∃ (m : Master) (e val : Nat) (s : State), s.Inv ∧ e < 4096 ∧ s.dev.Takes m R.WT_CMP_START e) ∧
    (∃ (m : Master) (e val : Nat) (s : State), s.Inv ∧ e < 4096 ∧ s.dev.Takes m R.WT_CMP_REPEAT e) ∧
    (∃ (o : Occur) (s : State), (s.dev.web.occ.find? fun o => decide (o.mask ≠ 0)) = some o) ∧
    (∃ (s : State), s.dev.web.pulses ≠ []) :=
  ⟨⟨.p1, 4095, (2 ^ 32 + 0x10FFF), wPositionCompare0, inv_of (by decide +kernel), by decide +kernel, by decide +kernel, by decide +kernel, by decide +kernel⟩,
    ⟨.p1, 4095, 3, wPositionCompare0, inv_of (by decide +kernel), by decide +kernel, by decide +kernel, by decide +kernel, by decide +kernel⟩,
    ⟨.p1, 4095, (2 ^ 64 - 2), ⟨wit, []⟩, inv_of (by decide +kernel), by decide +kernel, by decide +kernel⟩,
    ⟨.p1, 4095, (2 ^ 64 - 2), ⟨wit, []⟩, inv_of (by decide +kernel), by decide +kernel, by decide +kernel⟩,
    ⟨(⟨0, 9000, 5, 0x81, 16, 0⟩), wPositionCompare1, by decide +kernel⟩,
    ⟨wPositionCompare2, by decide +kernel⟩⟩

def wPageQueue0 : State :=
  ⟨{ wit with cdc.reading := List.replicate 63 (64, none) }, []⟩

def wPageQueue1 : State :=
  ⟨{ wit with cdc.pages := List.replicate 63 {}, cdc.reading := [(64, none)] }, []⟩

def wPageQueue2 : State :=
  ⟨{ wit with cdc.push := 2 ^ 40 - 1 }, []⟩

def wPageQueue3 : State :=
  ⟨{ wit with cdc.reading := [(2 ^ 36, some 1)] }, []⟩

def wPageQueue4 : State :=
  ⟨{ wit with cdc.reading := [(64, some 0), (0, none)], ue := [7] }, []⟩

def wPageQueue5 : State :=
  let b0 : List Byte := leBytes 4 0xFFFFFFFF ++ leBytes 4 0xFFFFFF ++ leBytes 2 0xFFFF ++ leBytes 2 1 ++ leBytes 4 65536 ++ leBytes 8 16 ++ leBytes 8 9 ++ List.replicate 28 0
  ⟨{ wit with cdc.reading := [(2 ^ 36 - 64, some 1)], mem := storeBytes [] (2 ^ 36 - 64) (b0 ++ leBytes 4 (crc32 b0)), cdc.pages := List.replicate 62 {} }, []⟩

def wPageQueue6 : State :=
  ⟨{ wit with cdc.reading := [(0x1000, some 1)] }, []⟩

def wPageQueue7 : State :=
  let b0 : List Byte := leBytes 4 0xFFFFFFFF ++ leBytes 4 0x1000000 ++ leBytes 2 0 ++ leBytes 2 1 ++ leBytes 4 65536 ++ leBytes 8 16 ++ leBytes 8 9 ++ List.replicate 28 0
  ⟨{ wit with cdc.reading := [(2 ^ 36 - 64, some 1)], mem := storeBytes [] (2 ^ 36 - 64) (b0 ++ leBytes 4 (crc32 b0)) }, []⟩

theorem witness_PageQueue :
    (∃ (m : Master) (bytes val : Nat) (s : State), let push := if bytes = 8 then val else val % 2 ^ 32 * 2 ^ 32 + s.dev.cdc.push % 2 ^ 32; let addr := push / 64 % 2 ^ 34 * 64; s.Inv ∧ s.dev.Takes m R.CD_PAGE_PUSH 0 ∧ (bytes = 4 ∨ bytes = 8) ∧ val < 2 ^ 64 ∧ s.dev.cdc.push < 2 ^ 64 ∧ s.dev.queued.length + s.dev.cdc.reading.length < 64) ∧
    (∃ (m : Master) (bytes val : Nat) (s : State), let push := if bytes = 8 then val else val % 2 ^ 32 * 2 ^ 32 + s.dev.cdc.push % 2 ^ 32; let addr := push / 64 % 2 ^ 34 * 64; s.Inv ∧ s.dev.Takes m R.CD_PAGE_PUSH 0 ∧ (bytes = 4 ∨ bytes = 8) ∧ val < 2 ^ 64 ∧ s.dev.cdc.push < 2 ^ 64 ∧ 64 ≤ s.dev.queued.length + s.dev.cdc.reading.length) ∧
    (∃ (m : Master) (bytes val : Nat) (s : State), let push := if bytes = 8 then val else val % 2 ^ 32 * 2 ^ 32 + s.dev.cdc.push % 2 ^ 32; let addr := push / 64 % 2 ^ 34 * 64; s.Inv ∧ s.dev.Takes m R.CD_PAGE_PUSH 0 ∧ (bytes = 4 ∨ bytes = 8) ∧ val < 2 ^ 64 ∧ s.dev.cdc.push < 2 ^ 64) ∧
    (∃ (addr : Nat) (port : Option (Fin 2)) (rest : List (Nat × Option (Fin 2))) (s : State), let b := s.dev.bytes addr 64; s.Inv ∧ s.dev.cdc.reading = (addr, port) :: rest ∧ s.dev.frontHeld = false ∧ s.dev.checkDram (s.dev.pushWorld port) addr 64 ≠ .pass) ∧
    (∃ (addr : Nat) (port : Option (Fin 2)) (rest : List (Nat × Option (Fin 2))) (s : State), let b := s.dev.bytes addr 64; s.Inv ∧ s.dev.cdc.reading = (addr, port) :: rest ∧ s.dev.frontHeld = false ∧ s.dev.checkDram (s.dev.pushWorld port) addr 64 = .pass ∧ (granules addr 64).any s.dev.granuleBad = true) ∧
    (∃ (addr : Nat) (port : Option (Fin 2)) (rest : List (Nat × Option (Fin 2))) (s : State), let b := s.dev.bytes addr 64; s.Inv ∧ s.dev.cdc.reading = (addr, port) :: rest ∧ s.dev.frontHeld = false ∧ s.dev.checkDram (s.dev.pushWorld port) addr 64 = .pass ∧ s.dev.ReadsGood 19 addr 64 ∧ sliceNat b 0x3C 4 = crc32 (b.take 0x3C) ∧ descBad b = false) ∧
    (∃ (addr : Nat) (port : Option (Fin 2)) (rest : List (Nat × Option (Fin 2))) (s : State), let b := s.dev.bytes addr 64; s.Inv ∧ s.dev.cdc.reading = (addr, port) :: rest ∧ s.dev.frontHeld = false ∧ s.dev.checkDram (s.dev.pushWorld port) addr 64 = .pass ∧ s.dev.ReadsGood 19 addr 64 ∧ sliceNat b 0x3C 4 ≠ crc32 (b.take 0x3C)) ∧
    (∃ (addr : Nat) (port : Option (Fin 2)) (rest : List (Nat × Option (Fin 2))) (s : State), let b := s.dev.bytes addr 64; s.Inv ∧ s.dev.cdc.reading = (addr, port) :: rest ∧ s.dev.frontHeld = false ∧ s.dev.checkDram (s.dev.pushWorld port) addr 64 = .pass ∧ s.dev.ReadsGood 19 addr 64 ∧ sliceNat b 0x3C 4 = crc32 (b.take 0x3C) ∧ descBad b = true) :=
  ⟨⟨.p1, 8, (2 ^ 40 + 63), wPageQueue0, inv_of (by decide +kernel), by decide +kernel, by decide +kernel, by decide +kernel, by decide +kernel, by decide +kernel⟩,
    ⟨.p1, 8, 0xFFFFFFFFFF, wPageQueue1, inv_of (by decide +kernel), by decide +kernel, by decide +kernel, by decide +kernel, by decide +kernel, by decide +kernel⟩,
    ⟨.p1, 4, 7, wPageQueue2, inv_of (by decide +kernel), by decide +kernel, by decide +kernel, by decide +kernel, by decide +kernel⟩,
    ⟨(2 ^ 36), (some 1), ([]), wPageQueue3, inv_of (by decide +kernel), by decide +kernel, by decide +kernel, by decide +kernel⟩,
    ⟨64, (some 0), ([(0, none)]), wPageQueue4, inv_of (by decide +kernel), by decide +kernel, by decide +kernel, by decide +kernel, by decide +kernel⟩,
    ⟨(2 ^ 36 - 64), (some 1), ([]), wPageQueue5, inv_of (by decide +kernel), by decide +kernel, by decide +kernel, by decide +kernel, by decide +kernel, by decide +kernel, by decide +kernel⟩,
    ⟨0x1000, (some 1), ([]), wPageQueue6, inv_of (by decide +kernel), by decide +kernel, by decide +kernel, by decide +kernel, by decide +kernel, by decide +kernel⟩,
    ⟨(2 ^ 36 - 64), (some 1), ([]), wPageQueue7, inv_of (by decide +kernel), by decide +kernel, by decide +kernel, by decide +kernel, by decide +kernel, by decide +kernel, by decide +kernel⟩⟩

def wBandDecoding0 : State :=
  ⟨{ wit with cdc.bufs := [⟨15, 15, 3, 0, true, false, 0, []⟩], cdc.pages := [{ uid := 3, mask := 0x8000, bands := 2, begun := List.replicate 16 1, complete := List.replicate 16 1 }] }.wr F.CD_LANE_MAP_SPARE_STATE 0 2 |>.wr F.CD_LANE_MAP_SPARE_FOR 0 15 |>.wr F.CD_LANE_MAP_FAILED 0 0x8000, []⟩

def wBandDecoding1 : State :=
  ⟨{ bandD with cdc.bufs := [bandA] }, []⟩

def wBandDecoding2 : State :=
  ⟨{ bandD with mem := bandMem, cdc.bufs := [bandA], cdc.pages := [{ bandP with check := true }] }, []⟩

def wBandDecoding3 : State :=
  ⟨{ bandD with mem := bandMem, cdc.bufs := [bandA], cdc.pages := [{ bandP with check := true }] }.wr F.CD_LANE_MAP_SPARE_STATE 0 2 |>.wr F.CD_LANE_MAP_SPARE_FOR 0 3, []⟩

def wBandDecoding4 : State :=
  ⟨bandD, []⟩

def wBandDecoding5 : State :=
  ⟨{ bandD with cdc.bufs := [{ bandB with crc := 5 }] }.wr F.CD_LANE_MAP_SPARE_STATE 0 1, []⟩

def wBandDecoding6 : State :=
  ⟨{ wit with cdc.pages := [{ uid := 3, mask := 0x7FFF, start := some 0, lines := 1024, written := List.replicate 16 1023 }] }, []⟩

def wBandDecoding7 : State :=
  ⟨{ wit with cdc.bufs := [⟨15, 15, 3, 0, true, false, 0, List.replicate 1024 7⟩], cdc.pages := [{ uid := 3, mask := 0xFFFF, start := some (-3), lines := 1024 }] }, []⟩

theorem witness_BandDecoding :
    (∃ (lane : Fin 17) (k : Nat) (p : Page) (s : State), s.dev.laneStrip lane = some k ∧ s.dev.funcOn .dec = true ∧ (s.dev.stripBufs k).length < 2 ∧ (s.dev.stripBufs k).all (fun b => b.done) = true ∧ s.dev.nextBand k = some p) ∧
    (∃ (lane : Fin 17) (err : Option (Nat × BitVec 8)) (b : Buf) (p : Page) (s : State), let r := (s.dev.decodeOne p b.band b.strip).1; let out := if r.1.checked then upset err r.2.1 else r.2.1; let good := !p.check || (!r.1.checked || decide (crc32 out = r.2.2)); s.Inv ∧ (s.dev.cdc.bufs.find? fun b => decide (b.lane = lane.val) && (!b.done && !b.again)) = some b ∧ s.dev.page b.uid = some p ∧ good = true) ∧
    (∃ (lane : Fin 17) (err : Option (Nat × BitVec 8)) (b : Buf) (p : Page) (s : State), let r := (s.dev.decodeOne p b.band b.strip).1; let out := if r.1.checked then upset err r.2.1 else r.2.1; let good := !p.check || (!r.1.checked || decide (crc32 out = r.2.2)); s.Inv ∧ (s.dev.cdc.bufs.find? fun b => decide (b.lane = lane.val) && (!b.done && !b.again)) = some b ∧ s.dev.page b.uid = some p ∧ good = false ∧ s.dev.rd F.CD_LANE_MAP_SPARE_STATE = 0) ∧
    (∃ (lane : Fin 17) (err : Option (Nat × BitVec 8)) (b : Buf) (p : Page) (s : State), let r := (s.dev.decodeOne p b.band b.strip).1; let out := if r.1.checked then upset err r.2.1 else r.2.1; let good := !p.check || (!r.1.checked || decide (crc32 out = r.2.2)); s.Inv ∧ (s.dev.cdc.bufs.find? fun b => decide (b.lane = lane.val) && (!b.done && !b.again)) = some b ∧ s.dev.page b.uid = some p ∧ good = false ∧ s.dev.rd F.CD_LANE_MAP_SPARE_STATE ≠ 0) ∧
    (∃ (err : Option (Nat × BitVec 8)) (b : Buf) (p : Page) (s : State), let r := (s.dev.decodeOne p b.band b.strip).1; let agrees := r.1.checked && decide (crc32 (upset err r.2.1) = b.crc); s.Inv ∧ (s.dev.cdc.bufs.find? fun b => b.again) = some b ∧ s.dev.page b.uid = some p ∧ b.lane < 16 ∧ agrees = true) ∧
    (∃ (err : Option (Nat × BitVec 8)) (b : Buf) (p : Page) (s : State), let r := (s.dev.decodeOne p b.band b.strip).1; let agrees := r.1.checked && decide (crc32 (upset err r.2.1) = b.crc); s.Inv ∧ (s.dev.cdc.bufs.find? fun b => b.again) = some b ∧ s.dev.page b.uid = some p ∧ b.lane < 16 ∧ agrees = false) ∧
    (∃ (k : Fin 16) (p : Page) (start : Int) (s : State), let j := at' p.written k; let line : Int := start + j; s.Inv ∧ s.dev.sys.reset = none ∧ (s.dev.cdc.pages.find? fun p => p.start.isSome && decide (at' p.written k < p.lines)) = some p ∧ p.start = some start ∧ line < s.dev.releaseMark + s.dev.windowLines ∧ p.mask.testBit k = false) ∧
    (∃ (k : Fin 16) (p : Page) (start : Int) (s : State), let j := at' p.written k; let line : Int := start + j; s.Inv ∧ s.dev.sys.reset = none ∧ (s.dev.cdc.pages.find? fun p => p.start.isSome && decide (at' p.written k < p.lines)) = some p ∧ p.start = some start ∧ line < s.dev.releaseMark + s.dev.windowLines ∧ ∃ b a, p.mask.testBit k = true ∧ (s.dev.cdc.bufs.find? fun b => decide (b.uid = p.uid ∧ b.strip = k.val ∧ b.band = j / 256) && b.done) = some b ∧ j % 256 * 1024 + 1024 ≤ b.data.length ∧ a = s.dev.slotAddr line + k * 1024 ∧ s.dev.checkDram (s.dev.masterSecure 2) a 1024 = .pass ∧ s.dev.ue = []) :=
  ⟨⟨16, 15, ({ uid := 3, mask := 0x8000, bands := 2, begun := List.replicate 16 1, complete := List.replicate 16 1 }), wBandDecoding0, by decide +kernel, by decide +kernel, by decide +kernel, by decide +kernel, by decide +kernel⟩,
    ⟨15, none, bandA, bandP, wBandDecoding1, inv_of (by decide +kernel), by decide +kernel, by decide +kernel, by decide +kernel⟩,
    ⟨15, none, bandA, ({ bandP with check := true }), wBandDecoding2, inv_of (by decide +kernel), by decide +kernel, by decide +kernel, by decide +kernel, by decide +kernel⟩,
    ⟨15, none, bandA, ({ bandP with check := true }), wBandDecoding3, inv_of (by decide +kernel), by decide +kernel, by decide +kernel, by decide +kernel, by decide +kernel⟩,
    ⟨none, bandB, bandP, wBandDecoding4, inv_of (by decide +kernel), by decide +kernel, by decide +kernel, by decide +kernel, by decide +kernel⟩,
    ⟨none, ({ bandB with crc := 5 }), bandP, wBandDecoding5, inv_of (by decide +kernel), by decide +kernel, by decide +kernel, by decide +kernel, by decide +kernel⟩,
    ⟨15, ({ uid := 3, mask := 0x7FFF, start := some 0, lines := 1024, written := List.replicate 16 1023 }), 0, wBandDecoding6, inv_of (by decide +kernel), by decide +kernel, by decide +kernel, by decide +kernel, by decide +kernel, by decide +kernel⟩,
    ⟨15, ({ uid := 3, mask := 0xFFFF, start := some (-3), lines := 1024 }), (-3), wBandDecoding7, inv_of (by decide +kernel), by decide +kernel, by decide +kernel, by decide +kernel, by decide +kernel, (⟨15, 15, 3, 0, true, false, 0, List.replicate 1024 7⟩), (wBandDecoding7.dev.slotAddr (-3) + 15 * 1024), by decide +kernel, by decide +kernel, by decide +kernel, by decide +kernel, by decide +kernel, by decide +kernel⟩⟩

def wEncodeLanes0 : State :=
  ⟨{ wit with drm.held := [.encode 1], drm.speed := some 3 }.wr F.CD_ENCn_STAT_STATE 3 2, []⟩

def wEncodeLanes1 : State :=
  ⟨{ wit with cdc.enc := [{}, {}, {}, { tag := 5, last := some 0x2000 }], mem := [(0x1008, 64), (0x100C, 1), (0x2019, 0x10)] }.wr F.CD_ENCn_STAT_STATE 3 2, []⟩

def wEncodeLanes2 : State :=
  ⟨{ wit with cdc.enc := [{}, {}, {}, { tag := 5 }] }.wr F.CD_ENCn_STAT_STATE 3 2 |>.wr F.CD_ENCn_SKEIN_ADDR 3 0x80, []⟩

def wEncodeLanes3 : State :=
  ⟨{ wit with cdc.enc := [{}, {}, {}, { desc := some 0x1000, bits := 513, stream := List.replicate 65 255 }], mem := [(0x1001, 0x30), (0x1008, 64), (0x100C, 0xFD)] }.wr F.CD_ENCn_STAT_STATE 3 1, []⟩

def wEncodeLanes4 : State :=
  ⟨{ wit with cdc.enc := [{}, {}, {}, { desc := some 0x1000, bits := 512, stream := List.replicate 64 255, tag := 3, port := some 0 }], mem := [(0x1001, 0x30), (0x1008, 64), (0x100C, 0xFD)] }.wr F.CD_ENCn_STAT_STATE 3 1, []⟩

def wEncodeLanes5 : State :=
  ⟨{ wit with cdc.enc := [{}, {}, {}, { desc := some 0x1000, bits := 512, stream := List.replicate 64 255, failed := true, port := some 0 }], mem := [(0x1001, 0x30), (0x1008, 64), (0x100C, 0xFD)] }.wr F.CD_ENCn_STAT_STATE 3 1, []⟩

theorem witness_EncodeLanes :
    (∃ (m : Master) (n : Fin 4) (val : Nat) (s : State), s.Inv ∧ s.dev.Takes m R.CD_ENCn_CTRL n ∧ s.dev.funcOn .enc = true ∧ s.dev.encState n ≠ 1 ∧ s.dev.encState n ≠ 2 ∧ val % 4 = 1) ∧
    (∃ (m : Master) (n : Fin 4) (s : State), let j := s.dev.enc n; let a := match j.last with | none => s.dev.rd F.CD_ENCn_SKEIN_ADDR n * 32 | some l => s.dev.load (l + 0x18) 8; let b := s.dev.bytes a 32; s.Inv ∧ s.dev.Takes m R.CD_ENCn_CTRL n ∧ s.dev.encState n = 2 ∧ s.dev.frontHeld = true) ∧
    (∃ (m : Master) (n : Fin 4) (s : State), let j := s.dev.enc n; let a := match j.last with | none => s.dev.rd F.CD_ENCn_SKEIN_ADDR n * 32 | some l => s.dev.load (l + 0x18) 8; let b := s.dev.bytes a 32; s.Inv ∧ s.dev.Takes m R.CD_ENCn_CTRL n ∧ s.dev.encState n = 2 ∧ s.dev.frontHeld = false ∧ (∀ l, j.last = some l → s.dev.checkDram j.secure (l + 0x18) 8 = .pass ∧ a ≠ 0 ∧ s.dev.ReadsGood 4 (l + 0x18) 8) ∧ s.dev.checkDram j.secure a 32 = .pass ∧ s.dev.ReadsGood 4 a 32 ∧ setsBit (sliceNat b 0xC 4) 0 ∧ 64 ≤ sliceNat b 8 4 ∧ sliceNat b 8 4 ≤ 16777216) ∧
    (∃ (m : Master) (n : Fin 4) (s : State), let j := s.dev.enc n; let a := match j.last with | none => s.dev.rd F.CD_ENCn_SKEIN_ADDR n * 32 | some l => s.dev.load (l + 0x18) 8; let b := s.dev.bytes a 32; s.Inv ∧ s.dev.Takes m R.CD_ENCn_CTRL n ∧ s.dev.encState n = 2 ∧ s.dev.frontHeld = false ∧ (∀ l, j.last = some l → s.dev.checkDram j.secure (l + 0x18) 8 = .pass ∧ a ≠ 0 ∧ s.dev.ReadsGood 4 (l + 0x18) 8) ∧ s.dev.checkDram j.secure a 32 = .pass ∧ s.dev.ReadsGood 4 a 32 ∧ sliceNat b 0xC 4 % 2 = 0) ∧
    (∃ (n : Fin 4) (a : Nat) (s : State), let j := s.dev.enc n; let room := s.dev.load (a + 8) 4 * 8; let regs := [R.CD_ENCn_STAT.addr n] ++ dramRegs; s.Inv ∧ s.dev.frontHeld = false ∧ s.dev.encState n = 1 ∧ j.desc = some a ∧ room < j.bits - j.done) ∧
    (∃ (n : Fin 4) (a : Nat) (s : State), let j := s.dev.enc n; let room := s.dev.load (a + 8) 4 * 8; let regs := [R.CD_ENCn_STAT.addr n] ++ dramRegs; s.Inv ∧ s.dev.frontHeld = false ∧ s.dev.encState n = 1 ∧ j.desc = some a ∧ j.bits - j.done ≤ room ∧ j.failed = false) ∧
    (∃ (n : Fin 4) (a : Nat) (s : State), let j := s.dev.enc n; let room := s.dev.load (a + 8) 4 * 8; let regs := [R.CD_ENCn_STAT.addr n] ++ dramRegs; s.Inv ∧ s.dev.frontHeld = false ∧ s.dev.encState n = 1 ∧ j.desc = some a ∧ j.bits - j.done ≤ room ∧ j.failed = true) :=
  ⟨⟨.p1, 3, 0xFFFFFFFD, ⟨wit, []⟩, inv_of (by decide +kernel), by decide +kernel, by decide +kernel, by decide +kernel, by decide +kernel, by decide +kernel⟩,
    ⟨.p1, 3, wEncodeLanes0, inv_of (by decide +kernel), by decide +kernel, by decide +kernel, by decide +kernel⟩,
    ⟨.p1, 3, wEncodeLanes1, inv_of (by decide +kernel), by decide +kernel, by decide +kernel, by decide +kernel, by decide +kernel, by decide +kernel, by decide +kernel, by decide +kernel, by decide +kernel, by decide +kernel⟩,
    ⟨.p1, 3, wEncodeLanes2, inv_of (by decide +kernel), by decide +kernel, by decide +kernel, by decide +kernel, by decide +kernel, by decide +kernel, by decide +kernel, by decide +kernel⟩,
    ⟨3, 0x1000, wEncodeLanes3, inv_of (by decide +kernel), by decide +kernel, by decide +kernel, by decide +kernel, by decide +kernel⟩,
    ⟨3, 0x1000, wEncodeLanes4, inv_of (by decide +kernel), by decide +kernel, by decide +kernel, by decide +kernel, by decide +kernel, by decide +kernel⟩,
    ⟨3, 0x1000, wEncodeLanes5, inv_of (by decide +kernel), by decide +kernel, by decide +kernel, by decide +kernel, by decide +kernel, by decide +kernel⟩⟩

def wWindowReads0 : State :=
  ⟨{ wit with mem := [(15 * 1024 + 7, 3), (7 * 16384 + 15 * 1024 + 7, 5)], las.slices := [{ en := 1, head := 31, row := 1, line := 7, q := 0, segs := [⟨15, false, false, []⟩, ⟨15, true, false, []⟩] }] }, []⟩

def wWindowReads1 : State :=
  ⟨{ wit with ue := [15 * 64 + 63], las.slices := [{ en := 1, head := 31, row := 1, line := 0, q := 0, segs := [⟨15, false, false, []⟩, ⟨15, true, false, []⟩] }] }, []⟩

def wWindowReads2 : State :=
  ⟨{ wit with las.slices := [{ en := 1, head := 31, row := 1, line := 7, q := 0, segs := [⟨15, false, true, []⟩, ⟨15, true, false, []⟩] }] }, []⟩

theorem witness_WindowReads :
    (∃ (en : Fin 2) (h : Fin 32) (row : Fin 2) (k : Fin 16) (pair : Bool) (x : Slice) (s : State), let m := if pair then s.dev.pairLine x.line else x.line; let a := s.dev.slotAddr m + k * 1024; (s.dev.las.slices.find? fun x => x.is en h row && x.segs.any fun g => decide (g.strip = k.val ∧ g.pair = pair) && !g.done) = some x ∧ s.dev.checkDram (s.dev.masterSecure en) a 1024 = .pass ∧ s.dev.ReadsGood en a 1024) ∧
    (∃ (en : Fin 2) (h : Fin 32) (row : Fin 2) (k : Fin 16) (pair : Bool) (x : Slice) (s : State), let m := if pair then s.dev.pairLine x.line else x.line; let a := s.dev.slotAddr m + k * 1024; (s.dev.las.slices.find? fun x => x.is en h row && x.segs.any fun g => decide (g.strip = k.val ∧ g.pair = pair) && !g.done) = some x ∧ (s.dev.checkDram (s.dev.masterSecure en) a 1024 ≠ .pass ∨ (∃ g ∈ granules a 1024, s.dev.granuleBad g = true))) ∧
    (∃ (en : Fin 2) (h : Fin 32) (row : Fin 2) (k : Fin 16) (pair : Bool) (s : State), (∀ x ∈ s.dev.las.slices, x.is en h row = true → ∀ g ∈ x.segs, g.strip = k → g.pair = pair → g.done = true)) :=
  ⟨⟨1, 31, 1, 15, true, ({ en := 1, head := 31, row := 1, line := 7, q := 0, segs := [⟨15, false, false, []⟩, ⟨15, true, false, []⟩] }), wWindowReads0, by decide +kernel, by decide +kernel, by decide +kernel⟩,
    ⟨1, 31, 1, 15, false, ({ en := 1, head := 31, row := 1, line := 0, q := 0, segs := [⟨15, false, false, []⟩, ⟨15, true, false, []⟩] }), wWindowReads1, by decide +kernel, by decide +kernel⟩,
    ⟨1, 31, 1, 15, false, wWindowReads2, by decide +kernel⟩⟩

def wScheduledChanges0 : State :=
  ⟨{ wit with las.switches := [⟨.host 5, true, 3, true, none, false⟩, ⟨.auto 5, true, 3, true, none, false⟩] }, []⟩

def wScheduledChanges1 : State :=
  ⟨{ wit with nzh.autoOut := [-1024, 3] }.wr F.LA_SHIFT_AUTO_WHEN 0 0, []⟩

def wScheduledChanges2 : State :=
  ⟨{ wit with nzh.autoOut := [1022] }, []⟩

theorem witness_ScheduledChanges :
    (∃ (m : Master) (val : Nat) (s : State), s.Inv ∧ s.dev.Takes m R.LA_SHIFT 0) ∧
    (∃ (v : Int) (rest : List Int) (s : State), s.Inv ∧ s.dev.nzh.autoOut = v :: rest ∧ s.dev.substFed = true ∧ -1024 ≤ v ∧ v ≤ 1023) ∧
    (∃ (v : Int) (s : State), (s.dev.nzh.autoOut.head? ≠ some v ∨ s.dev.substFed = false)) ∧
    (∃ (m : Master) (val : Nat) (s : State), s.Inv ∧ s.dev.Takes m R.LA_BLEND_CTRL 0) ∧
    (∃ (m : Master) (val : Nat) (s : State), s.Inv ∧ s.dev.Takes m R.LA_SWATCH 0) ∧
    (∃ (m : Master) (val : Nat) (s : State), s.Inv ∧ s.dev.Takes m R.LA_SWATCH 0 ∧ setsBit val 0 ∧ s.dev.las.armBeat = none) :=
  ⟨⟨.p1, 0x400, wScheduledChanges0, inv_of (by decide +kernel), by decide +kernel⟩,
    ⟨(-1024), ([3]), wScheduledChanges1, inv_of (by decide +kernel), by decide +kernel, by decide +kernel, by decide +kernel, by decide +kernel⟩,
    ⟨1023, wScheduledChanges2, by decide +kernel⟩,
    ⟨.p1, (0xFFFFFFFF - 2 ^ F.LA_BLEND_CTRL_WHEN.lo), ⟨wit, []⟩, inv_of (by decide +kernel), by decide +kernel⟩,
    ⟨.p1, 0xFFFFFFFFFFFFFFFF, ⟨wit, []⟩, inv_of (by decide +kernel), by decide +kernel⟩,
    ⟨.p1, 0xFFFFFFFF, ⟨wit, []⟩, inv_of (by decide +kernel), by decide +kernel, by decide +kernel, by decide +kernel⟩⟩

def wLineBuilt0 : State :=
  ⟨{ wit with las.slices := [{ en := 1, head := 31, row := 1, line := 7, q := 80000, segs := [] }] }, []⟩

def wLineBuilt1 : State :=
  ⟨{ wit with las.slices := [{ en := 1, head := 31, row := 1, line := 7, q := 96000, segs := [] }] }, []⟩

def wLineBuilt2 : State :=
  ⟨{ wit with las.slices := [{ en := 1, head := 31, row := 1, line := 7, q := 80000, segs := [⟨15, false, false, []⟩] }] }, []⟩

theorem witness_LineBuilt :
    (∃ (en : Fin 2) (h : Fin 32) (row : Fin 2) (flt : LineFault) (x : Slice) (s : State), (s.dev.las.slices.find? fun x => x.is en h row && x.segs.all fun g => g.done) = some x) ∧
    (∃ (en : Fin 2) (h : Fin 32) (row : Fin 2) (x : Slice) (s : State), (s.dev.las.slices.find? fun x => x.is en h row && x.segs.all fun g => g.done) = some x ∧ x.q / 16000 = s.dev.beat + 3) ∧
    (∃ (en : Fin 2) (h : Fin 32) (row : Fin 2) (flt : LineFault) (x : Slice) (s : State), (s.dev.las.slices.find? fun x => x.is en h row && x.segs.all fun g => g.done) = some x ∧ ((flt = .none ∧ x.q / 16000 ≠ s.dev.beat + 3) ∨ (∃ (h' : Fin 32) (row' : Fin 2) (n : Int), flt = .answer h' row' n ∧ n ≠ x.line))) ∧
    (∃ (en : Fin 2) (h : Fin 32) (row : Fin 2) (x : Slice) (s : State), (s.dev.las.slices.find? fun x => x.is en h row && x.segs.all fun g => g.done) = some x) ∧
    (∃ (en : Fin 2) (h : Fin 32) (row : Fin 2) (flt : LineFault) (s : State), (∀ x ∈ s.dev.las.slices, x.is en h row = true → ∃ g ∈ x.segs, g.done = false)) :=
  ⟨⟨1, 31, 1, .none, ({ en := 1, head := 31, row := 1, line := 7, q := 80000, segs := [] }), wLineBuilt0, by decide +kernel⟩,
    ⟨1, 31, 1, ({ en := 1, head := 31, row := 1, line := 7, q := 80000, segs := [] }), wLineBuilt0, by decide +kernel, by decide +kernel⟩,
    ⟨1, 31, 1, .none, ({ en := 1, head := 31, row := 1, line := 7, q := 96000, segs := [] }), wLineBuilt1, by decide +kernel, .inl ⟨rfl, by decide +kernel⟩⟩,
    ⟨1, 31, 1, ({ en := 1, head := 31, row := 1, line := 7, q := 80000, segs := [] }), wLineBuilt0, by decide +kernel⟩,
    ⟨1, 31, 1, .none, wLineBuilt2, by decide +kernel⟩⟩

theorem witness_SharedTables :
    (∃ (m : Master) (r : Reg) (n i val : Nat) (s : State), s.Inv ∧ ((r = R.PE_HIST_MAP ∧ n = 32) ∨ (r = R.PE_TRIM ∧ n = 16384)) ∧ i < 2 * n ∧ s.dev.Takes m r i) ∧
    (∃ (m : Master) (en : Fin 2) (val : Nat) (s : State), s.Inv ∧ s.dev.Takes m R.PE_SPIT en) ∧
    (∃ (m : Master) (en : Fin 2) (val : Nat) (s : State), s.Inv ∧ s.dev.Takes m R.PE_HIST_CFG en) ∧
    (∃ (m : Master) (en : Fin 2) (val : Nat) (s : State), s.Inv ∧ s.dev.Takes m R.PE_TRIM_CTRL en) :=
  ⟨⟨.p1, R.PE_TRIM, 16384, 16384, (2 ^ 32 + 5), ⟨wit, []⟩, inv_of (by decide +kernel), .inr ⟨rfl, rfl⟩, by decide +kernel, by decide +kernel⟩,
    ⟨.p1, 1, 0xFFFFFFFF, ⟨wit, []⟩, inv_of (by decide +kernel), by decide +kernel⟩,
    ⟨.p1, 1, 0xFFFFFFFF, ⟨wit, []⟩, inv_of (by decide +kernel), by decide +kernel⟩,
    ⟨.p1, 1, 0xFFFFFFFE, ⟨wit, []⟩, inv_of (by decide +kernel), by decide +kernel⟩⟩

def wClaims0 : State :=
  ⟨wit.wr F.PE_CLAIM_DROPPED 1 1, []⟩

def wClaims1 : State :=
  ⟨{ wit with pace.failsB := List.replicate 16 5 }, []⟩

theorem witness_Claims :
    (∃ (m : Master) (en : Fin 2) (val : Nat) (s : State), s.Inv ∧ s.dev.Takes m R.PE_CLAIM en ∧ s.dev.rd F.PE_CLAIM_DROPPED en = 1) ∧
    (∃ (m : Master) (en : Fin 2) (val : Nat) (s : State), s.Inv ∧ s.dev.Takes m R.PE_CLAIM en ∧ s.dev.rd F.PE_CLAIM_DROPPED en = 0 ∧ val % 256 ≠ 0) ∧
    (∃ (m : Master) (en : Fin 2) (val : Nat) (s : State), s.Inv ∧ s.dev.Takes m R.PE_CLAIM en ∧ s.dev.rd F.PE_CLAIM_DROPPED en = 0 ∧ val % 256 = 0) ∧
    (∃ (m : Master) (en : Fin 2) (val : Nat) (s : State), s.Inv ∧ s.dev.rd F.PE_CLAIM_DROPPED en = 0) ∧
    (∃ (m : Master) (en : Fin 2) (val : Nat) (s : State), s.Inv ∧ s.dev.rd F.PE_CHECK_CFG_FAIL_LIMIT en ≤ s.dev.fails en ∧ s.dev.rd F.PE_CLAIM_DROPPED en = 0) ∧
    (∃ (m : Master) (en : Fin 2) (val : Nat) (s : State), s.Inv ∧ (s.dev.fails en < s.dev.rd F.PE_CHECK_CFG_FAIL_LIMIT en ∨ s.dev.rd F.PE_CLAIM_DROPPED en = 1)) ∧
    (∃ (m : Master) (en : Fin 2) (val : Nat) (s : State), s.Inv ∧ s.dev.rd F.PE_CLAIM_DROPPED en = 1) :=
  ⟨⟨.p1, 1, 0xFFFFFFFF, wClaims0, inv_of (by decide +kernel), by decide +kernel, by decide +kernel⟩,
    ⟨.p1, 1, 1, ⟨wit, []⟩, inv_of (by decide +kernel), by decide +kernel, by decide +kernel, by decide +kernel⟩,
    ⟨.p1, 1, 256, ⟨wit, []⟩, inv_of (by decide +kernel), by decide +kernel, by decide +kernel, by decide +kernel⟩,
    ⟨.p1, 1, 0xFFFFFFFF, ⟨wit, []⟩, inv_of (by decide +kernel), by decide +kernel⟩,
    ⟨.p1, 1, 0xFFFFFFFF, wClaims1, inv_of (by decide +kernel), by decide +kernel, by decide +kernel⟩,
    ⟨.p1, 1, 0xFFFFFFFF, ⟨wit, []⟩, inv_of (by decide +kernel), by decide +kernel⟩,
    ⟨.p1, 1, 0xFFFFFFFF, wClaims0, inv_of (by decide +kernel), by decide +kernel⟩⟩

def wInhibitAndStaleHeads0 : State :=
  ⟨{ wit with pace.inhibit := false }, []⟩

def wInhibitAndStaleHeads1 : State :=
  ⟨{ wit with pace.inhibit := true }.wr F.HL_INHIBIT_CTRL_PIN 0 1, []⟩

def wInhibitAndStaleHeads2 : State :=
  ⟨{ wit with pace.inhibit := false }.wr F.HL_INHIBIT_CTRL_PIN 0 1, []⟩

def wInhibitAndStaleHeads3 : State :=
  ⟨{ wit with pace.inhibit := true }.wr F.HL_INHIBIT_CTRL_INHIBIT 0 1, []⟩

def wInhibitAndStaleHeads4 : State :=
  ⟨{ wit with pace.temps := List.replicate 32 { live := true } }.wr F.HL_TEMP_STAT_TRIPS 31 0xFFFF, []⟩

def wInhibitAndStaleHeads5 : State :=
  ⟨{ wit with pace.temps := List.replicate 32 { live := true, overdue := true, tail := some 3 } }.wr F.HL_TEMP_STAT_TRIPS 31 0xFFFF, []⟩

theorem witness_InhibitAndStaleHeads_part1 :
    (∃ (t : Nat) (s : State), s.Inv ∧ s.dev.pace.inhibit = false) ∧
    (∃ (t : Nat) (s : State), s.Inv ∧ s.dev.pace.inhibit = true ∧ s.dev.rd F.HL_INHIBIT_CTRL_INHIBIT = 0 ∧ s.dev.pace.resetInhibit = false) ∧
    (∃ (level : Bool) (t : Nat) (s : State), s.Inv ∧ (if level then s.dev.pace.inhibit = false ∨ s.dev.rd F.HL_INHIBIT_CTRL_INHIBIT = 1 ∨ s.dev.pace.resetInhibit = true else s.dev.pace.inhibit = true)) ∧
    (∃ (m : Master) (val : Nat) (s : State), s.Inv ∧ s.dev.Takes m R.HL_INHIBIT_CTRL 0 ∧ setsBit val 0 ∧ s.dev.pace.inhibit = false) ∧
    (∃ (m : Master) (val : Nat) (s : State), s.Inv ∧ s.dev.Takes m R.HL_INHIBIT_CTRL 0 ∧ ¬ setsBit val 0 ∧ s.dev.pace.inhibit = true ∧ s.dev.rd F.HL_INHIBIT_CTRL_PIN = 0 ∧ s.dev.pace.resetInhibit = false) ∧
    (∃ (m : Master) (val : Nat) (s : State), s.Inv ∧ s.dev.Takes m R.HL_INHIBIT_CTRL 0 ∧ (if setsBit val 0 then s.dev.pace.inhibit = true else s.dev.pace.inhibit = false ∨ s.dev.rd F.HL_INHIBIT_CTRL_PIN = 1 ∨ s.dev.pace.resetInhibit = true)) ∧
    (∃ (h : Fin 32) (s : State), s.Inv ∧ h < s.dev.headCount ∧ (s.dev.headTemp h).live = true) :=
  ⟨⟨4000, wInhibitAndStaleHeads0, inv_of (by decide +kernel), by decide +kernel⟩,
    ⟨4000, wInhibitAndStaleHeads1, inv_of (by decide +kernel), by decide +kernel, by decide +kernel, by decide +kernel⟩,
    ⟨true, 4000, wInhibitAndStaleHeads2, inv_of (by decide +kernel), by decide +kernel⟩,
    ⟨.p1, 0xFFFFFFFD, wInhibitAndStaleHeads0, inv_of (by decide +kernel), by decide +kernel, by decide +kernel, by decide +kernel⟩,
    ⟨.p1, 2, wInhibitAndStaleHeads3, inv_of (by decide +kernel), by decide +kernel, by decide +kernel, by decide +kernel, by decide +kernel, by decide +kernel⟩,
    ⟨.p1, 2, wInhibitAndStaleHeads1, inv_of (by decide +kernel), by decide +kernel, by decide +kernel⟩,
    ⟨31, wInhibitAndStaleHeads4, inv_of (by decide +kernel), by decide +kernel, by decide +kernel⟩⟩

theorem witness_InhibitAndStaleHeads_part2 :
    (∃ (h : Fin 32) (s : State), s.Inv ∧ (s.dev.headCount ≤ h ∨ (s.dev.headTemp h).live = false)) ∧
    (∃ (h : Fin 32) (cs : List Crossing) (s : State), s.Inv ∧ (s.dev.headTemp h).live = true ∧ (s.dev.headTemp h).overdue = true ∧ (s.dev.headTemp h).report = none ∧ s.dev.rd F.HL_TEMP_STAT_STATE h ≠ 2) ∧
    (∃ (h : Fin 32) (cs : List Crossing) (s : State), s.Inv ∧ (s.dev.headTemp h).live = true ∧ (s.dev.headTemp h).overdue = true ∧ (s.dev.headTemp h).report = none ∧ s.dev.rd F.HL_TEMP_STAT_STATE h ≠ 2) ∧
    (∃ (h : Fin 32) (cs : List Crossing) (s : State), s.Inv ∧ (s.dev.headTemp h).live = true ∧ (s.dev.headTemp h).overdue = true ∧ (s.dev.headTemp h).report = none ∧ s.dev.rd F.HL_TEMP_STAT_STATE h ≠ 2) ∧
    (∃ (h : Fin 32) (cs : List Crossing) (s : State), s.Inv ∧ (s.dev.headTemp h).live = true ∧ (s.dev.headTemp h).overdue = true ∧ (s.dev.headTemp h).report = none ∧ s.dev.rd F.HL_TEMP_STAT_STATE h ≠ 2) ∧
    (∃ (h : Fin 32) (cs : List Crossing) (s : State), s.Inv ∧ (s.dev.headTemp h).live = true ∧ (s.dev.headTemp h).overdue = true ∧ (s.dev.headTemp h).report = none ∧ s.dev.rd F.HL_TEMP_STAT_STATE h ≠ 2) ∧
    (∃ (h : Fin 32) (cs : List Crossing) (s : State), s.Inv ∧ (s.dev.headTemp h).live = true ∧ (s.dev.headTemp h).overdue = true ∧ (s.dev.headTemp h).report = none ∧ s.dev.rd F.HL_TEMP_STAT_STATE h ≠ 2) :=
  ⟨⟨31, ⟨wit, []⟩, inv_of (by decide +kernel), by decide +kernel⟩,
    ⟨31, ([]), wInhibitAndStaleHeads5, inv_of (by decide +kernel), by decide +kernel, by decide +kernel, by decide +kernel, by decide +kernel⟩,
    ⟨31, ([]), wInhibitAndStaleHeads5, inv_of (by decide +kernel), by decide +kernel, by decide +kernel, by decide +kernel, by decide +kernel⟩,
    ⟨31, ([]), wInhibitAndStaleHeads5, inv_of (by decide +kernel), by decide +kernel, by decide +kernel, by decide +kernel, by decide +kernel⟩,
    ⟨31, ([]), wInhibitAndStaleHeads5, inv_of (by decide +kernel), by decide +kernel, by decide +kernel, by decide +kernel, by decide +kernel⟩,
    ⟨31, ([]), wInhibitAndStaleHeads5, inv_of (by decide +kernel), by decide +kernel, by decide +kernel, by decide +kernel, by decide +kernel⟩,
    ⟨31, ([]), wInhibitAndStaleHeads5, inv_of (by decide +kernel), by decide +kernel, by decide +kernel, by decide +kernel, by decide +kernel⟩⟩

def wLinkFrames0 : State :=
  let base : Dev := ((wit.wr F.HL_STAT_STATE 31 5).wr F.HL_STAT_UP 31 1)
  ⟨base.setLink 31 (fun x => { x with beaconDue := true, seq := 255 }), []⟩

def wLinkFrames1 : State :=
  let base : Dev := ((wit.wr F.HL_STAT_STATE 31 5).wr F.HL_STAT_UP 31 1)
  ⟨{ base with pace.tx := [{ line := 5, head := 31, row := 1, q := 80000, codes := [1, 2] }] }, []⟩

def wLinkFrames2 : State :=
  let base : Dev := ((wit.wr F.HL_STAT_STATE 31 5).wr F.HL_STAT_UP 31 1)
  ⟨{ base with pace.tx := [{ line := 5, head := 31, row := 1, q := 3, codes := [1, 2] }] }, []⟩

def wLinkFrames3 : State :=
  let base : Dev := ((wit.wr F.HL_STAT_STATE 31 5).wr F.HL_STAT_UP 31 1)
  ⟨(base.setLink 31 (fun x => { x with adjDue := true })), []⟩

def wLinkFrames4 : State :=
  let base : Dev := ((wit.wr F.HL_STAT_STATE 31 5).wr F.HL_STAT_UP 31 1)
  ⟨base.setLink 31 (fun x => { x with auth := some { nonce := 5, tries := 1 } }), []⟩

def wLinkFrames5 : State :=
  let base : Dev := ((wit.wr F.HL_STAT_STATE 31 5).wr F.HL_STAT_UP 31 1)
  ⟨base.setLink 31 (fun x => { x with reqs := [none, none, some { addr := 4, write := true, data := [1, 2] }], grant := some 2 }), []⟩

def wLinkFrames6 : State :=
  let base : Dev := ((wit.wr F.HL_STAT_STATE 31 5).wr F.HL_STAT_UP 31 1)
  ⟨(base.setLink 31 (fun x => { x with lastCrc := some 0xFFFE })), []⟩

def wLinkFrames7 : State :=
  let base : Dev := ((wit.wr F.HL_STAT_STATE 31 5).wr F.HL_STAT_UP 31 1)
  ⟨((base.wr F.HL_STAT_IN_SERVICE 31 1).setLink 31 (fun x => { x with rejects := 16, samples := [5] })), []⟩

def wLinkFrames8 : State :=
  let base : Dev := ((wit.wr F.HL_STAT_STATE 31 5).wr F.HL_STAT_UP 31 1)
  ⟨base, []⟩

theorem witness_LinkFrames_part1 :
    (∃ (l : Fin 32) (t : Nat) (s : State), s.Inv ∧ (s.dev.linkState l ≠ 5 ∨ s.dev.rd F.HL_STAT_DN_ASLEEP l = 1)) ∧
    (∃ (l : Fin 32) (t : Nat) (s : State), s.Inv ∧ s.dev.linkState l = 5 ∧ s.dev.rd F.HL_STAT_DN_ASLEEP l = 0 ∧ (s.dev.link l).beaconDue = true) ∧
    (∃ (l : Fin 32) (t : Nat) (s : State), s.Inv ∧ s.dev.linkState l = 5 ∧ s.dev.rd F.HL_STAT_DN_ASLEEP l = 0 ∧ ∃ x xs, (s.dev.link l).beaconDue = false ∧ s.dev.waitingLines l = x :: xs ∧ s.dev.inTime l t x = true) ∧
    (∃ (l : Fin 32) (t : Nat) (s : State), s.Inv ∧ s.dev.linkState l = 5 ∧ s.dev.rd F.HL_STAT_DN_ASLEEP l = 0 ∧ ∃ x xs, (s.dev.link l).beaconDue = false ∧ s.dev.waitingLines l = x :: xs ∧ s.dev.inTime l t x = false) ∧
    (∃ (l : Fin 32) (t : Nat) (s : State), s.Inv ∧ s.dev.linkState l = 5 ∧ s.dev.rd F.HL_STAT_DN_ASLEEP l = 0 ∧ (s.dev.link l).beaconDue = false ∧ s.dev.waitingLines l = [] ∧ (s.dev.link l).adjDue = true) ∧
    (∃ (l : Fin 32) (t : Nat) (s : State), s.Inv ∧ s.dev.linkState l = 5 ∧ s.dev.rd F.HL_STAT_DN_ASLEEP l = 0 ∧ (s.dev.link l).beaconDue = false ∧ s.dev.waitingLines l = [] ∧ ∃ a, (s.dev.link l).adjDue = false ∧ (s.dev.link l).auth = some a ∧ a.waiting = true) ∧
    (∃ (l : Fin 32) (t : Nat) (s : State), s.Inv ∧ s.dev.linkState l = 5 ∧ s.dev.rd F.HL_STAT_DN_ASLEEP l = 0 ∧ (s.dev.link l).beaconDue = false ∧ s.dev.waitingLines l = [] ∧ ∃ (p : Fin 3) (r : MgReq), (s.dev.link l).adjDue = false ∧ (s.dev.link l).auth = none ∧ (s.dev.link l).grant = some p.val ∧ s.dev.req l p = some r ∧ r.sent = false) :=
  ⟨⟨31, 4000, ⟨wit, []⟩, inv_of (by decide +kernel), by decide +kernel⟩,
    ⟨31, 4000, wLinkFrames0, inv_of (by decide +kernel), by decide +kernel, by decide +kernel, by decide +kernel⟩,
    ⟨31, 100, wLinkFrames1, inv_of (by decide +kernel), by decide +kernel, by decide +kernel, ((wLinkFrames1.dev.waitingLines 31).headD default), ([]), by decide +kernel, by decide +kernel, by decide +kernel⟩,
    ⟨31, 80000000, wLinkFrames2, inv_of (by decide +kernel), by decide +kernel, by decide +kernel, ((wLinkFrames2.dev.waitingLines 31).headD default), ([]), by decide +kernel, by decide +kernel, by decide +kernel⟩,
    ⟨31, 4000, wLinkFrames3, inv_of (by decide +kernel), by decide +kernel, by decide +kernel, by decide +kernel, by decide +kernel, by decide +kernel⟩,
    ⟨31, 4000, wLinkFrames4, inv_of (by decide +kernel), by decide +kernel, by decide +kernel, by decide +kernel, by decide +kernel, ({ nonce := 5, tries := 1 }), by decide +kernel, by decide +kernel, by decide +kernel⟩,
    ⟨31, 4000, wLinkFrames5, inv_of (by decide +kernel), by decide +kernel, by decide +kernel, by decide +kernel, by decide +kernel, 2, ({ addr := 4, write := true, data := [1, 2] }), by decide +kernel, by decide +kernel, by decide +kernel, by decide +kernel, by decide +kernel⟩⟩

theorem witness_LinkFrames_part2 :
    (∃ (m : Master) (l : Fin 32) (val : Nat) (s : State), s.Inv ∧ s.dev.Takes m R.HL_FIRE_ADJ l) ∧
    (∃ (l : Fin 32) (st : StatusFrame) (t4 : Nat) (s : State), s.Inv ∧ s.dev.linkState l = 5) ∧
    (∃ (l : Fin 32) (st : StatusFrame) (t4 : Nat) (s : State), s.Inv ∧ s.dev.linkState l ≠ 5) ∧
    (∃ (l : Fin 32) (s : State), s.Inv ∧ 16 ≤ (s.dev.link l).rejects) ∧
    (∃ (l : Fin 32) (s : State), s.Inv ∧ (s.dev.link l).rejects < 16) ∧
    (∃ (l : Fin 32) (s : State), s.Inv ∧ (s.dev.linkState l = 5 ∨ s.dev.linkState l = 8)) ∧
    (∃ (l : Fin 32) (s : State), s.Inv ∧ s.dev.linkState l ≠ 5 ∧ s.dev.linkState l ≠ 8) :=
  ⟨⟨.p1, 31, 0x8000FFFF, ⟨wit, []⟩, inv_of (by decide +kernel), by decide +kernel⟩,
    ⟨31, ({ fired := 0xFFFFFFFF, discarded := 0xFFFF, flags := 0xFF, stepsSeen := 0xFF, crcErrs := 3, beatSeen := 100 }), 9000, wLinkFrames6, inv_of (by decide +kernel), by decide +kernel⟩,
    ⟨31, ({}), 0, ⟨wit, []⟩, inv_of (by decide +kernel), by decide +kernel⟩,
    ⟨31, wLinkFrames7, inv_of (by decide +kernel), by decide +kernel⟩,
    ⟨31, wLinkFrames8, inv_of (by decide +kernel), by decide +kernel⟩,
    ⟨31, wLinkFrames8, inv_of (by decide +kernel), by decide +kernel⟩,
    ⟨31, ⟨wit, []⟩, inv_of (by decide +kernel), by decide +kernel, by decide +kernel⟩⟩

def wManagementChannel0 : State :=
  let base : Dev := ((wit.wr F.HL_STAT_STATE 31 5).wr F.HL_STAT_UP 31 1)
  ⟨base.setLink 31 (fun x => { x with tag := 255 }), []⟩

def wManagementChannel1 : State :=
  ⟨wit.wr F.HL_STAT_STATE 31 7, []⟩

def wManagementChannel2 : State :=
  let base : Dev := ((wit.wr F.HL_STAT_STATE 31 5).wr F.HL_STAT_UP 31 1)
  ⟨(base.wr F.HL_MGMT_STAT_BUSY 63 1).setLink 31 (fun x => { x with reqs := [none, some { sent := true, addr := 4 }, none], grant := some 1 }), []⟩

def wManagementChannel3 : State :=
  let base : Dev := ((wit.wr F.HL_STAT_STATE 31 5).wr F.HL_STAT_UP 31 1)
  ⟨(base.wr F.HL_MGMT_STAT_BUSY 63 1).setLink 31 (fun x => { x with reqs := [none, some { addr := 4 }, none], grant := some 1 }), []⟩

def wManagementChannel4 : State :=
  let base : Dev := ((wit.wr F.HL_STAT_STATE 31 5).wr F.HL_STAT_UP 31 1)
  ⟨base, []⟩

def wManagementChannel5 : State :=
  let base : Dev := ((wit.wr F.HL_STAT_STATE 31 5).wr F.HL_STAT_UP 31 1)
  ⟨(base.wr F.HL_MGMT_STAT_BUSY 63 1).setLink 31 (fun x => { x with reqs := [none, some { sent := true, addr := 4, count := 8, tag := 65535 }, none], grant := some 1 }), []⟩

def wManagementChannel6 : State :=
  let base : Dev := ((wit.wr F.HL_STAT_STATE 31 5).wr F.HL_STAT_UP 31 1)
  ⟨(base.wr F.HL_MGMT_STAT_BUSY 63 1).setLink 31 (fun x => { x with reqs := [none, some { sent := true, addr := 4, count := 8, tag := 255, write := true }, none], grant := some 1 }), []⟩

def wManagementChannel7 : State :=
  let base : Dev := ((wit.wr F.HL_STAT_STATE 31 5).wr F.HL_STAT_UP 31 1)
  ⟨base.setLink 31 (fun x => { x with reqs := [none, none, some { sent := true, addr := 4, count := 8, tag := 65535 }], grant := some 2, check := some { phase := 2 } }), []⟩

def wManagementChannel8 : State :=
  let base : Dev := ((wit.wr F.HL_STAT_STATE 31 5).wr F.HL_STAT_UP 31 1)
  ⟨(base.wr F.HL_DELAY_ACCEPTED 31 16).setLink 31 (fun x => { x with check := some { phase := 5 } }), []⟩

def wManagementChannel9 : State :=
  let base : Dev := ((wit.wr F.HL_STAT_STATE 31 5).wr F.HL_STAT_UP 31 1)
  ⟨{ ((base.wr F.HL_DELAY_ACCEPTED 31 16).wr F.HL_STAT_IN_SERVICE 31 1).setLink 31 (fun x => { x with check := some { phase := 5, fail := 2 } }) with sys.castOn := false }, []⟩

def wManagementChannel10 : State :=
  let base : Dev := ((wit.wr F.HL_STAT_STATE 31 5).wr F.HL_STAT_UP 31 1)
  ⟨base.setLink 31 (fun x => { x with check := some { phase := 3 } }), []⟩

theorem witness_ManagementChannel_part1 :
    (∃ (m : Master) (l : Fin 32) (p : Fin 2) (val : Nat) (s : State), s.Inv ∧ s.dev.Takes m R.HL_MGMT_CMD (boxIdx l p) ∧ portOf m = some p ∧ s.dev.rd F.HL_MGMT_STAT_BUSY (boxIdx l p) = 0 ∧ setsBit val 32 ∧ s.dev.linkUp l = true) ∧
    (∃ (m : Master) (l : Fin 32) (p : Fin 2) (val : Nat) (s : State), s.Inv ∧ s.dev.Takes m R.HL_MGMT_CMD (boxIdx l p) ∧ portOf m = some p ∧ s.dev.rd F.HL_MGMT_STAT_BUSY (boxIdx l p) = 0 ∧ setsBit val 32 ∧ s.dev.linkUp l = false) ∧
    (∃ (m : Master) (l : Fin 32) (p : Fin 2) (val : Nat) (s : State), s.Inv ∧ s.dev.Takes m R.HL_MGMT_CMD (boxIdx l p) ∧ (portOf m ≠ some p ∨ (s.dev.rd F.HL_MGMT_STAT_BUSY (boxIdx l p) = 1 ∧ val.testBit 33 = false))) ∧
    (∃ (m : Master) (l : Fin 32) (p : Fin 2) (val : Nat) (s : State), s.Inv ∧ s.dev.Takes m R.HL_MGMT_CMD (boxIdx l p) ∧ portOf m = some p ∧ s.dev.rd F.HL_MGMT_STAT_BUSY (boxIdx l p) = 0 ∧ val.testBit 32 = false) ∧
    (∃ (m : Master) (l : Fin 32) (p : Fin 2) (s : State), s.Inv ∧ s.dev.Takes m R.HL_MGMT_CMD (boxIdx l p) ∧ ∃ r : MgReq, portOf m = some p ∧ s.dev.rd F.HL_MGMT_STAT_BUSY (boxIdx l p) = 1 ∧ s.dev.req l p = some r ∧ r.sent = true) ∧
    (∃ (m : Master) (l : Fin 32) (p : Fin 2) (s : State), s.Inv ∧ s.dev.Takes m R.HL_MGMT_CMD (boxIdx l p) ∧ ∃ r : MgReq, portOf m = some p ∧ s.dev.rd F.HL_MGMT_STAT_BUSY (boxIdx l p) = 1 ∧ s.dev.req l p = some r ∧ r.sent = false) ∧
    (∃ (m : Master) (l : Fin 32) (p : Fin 2) (s : State), s.Inv ∧ s.dev.Takes m R.HL_MGMT_CMD (boxIdx l p) ∧ (portOf m ≠ some p ∨ s.dev.rd F.HL_MGMT_STAT_BUSY (boxIdx l p) = 0)) ∧
    (∃ (l : Fin 32) (p : Fin 2) (r : MgReq) (result : Nat) (s : State), s.Inv ∧ (s.dev.link l).grant = some p.val ∧ s.dev.req l p = some r ∧ r.sent = true ∧ let shown := if r.cancelled then 6 else result; ∃ data : List (BitVec 32), r.write = false ∧ r.count ≤ 8) ∧
    (∃ (l : Fin 32) (p : Fin 2) (r : MgReq) (result : Nat) (s : State), s.Inv ∧ (s.dev.link l).grant = some p.val ∧ s.dev.req l p = some r ∧ r.sent = true ∧ let shown := if r.cancelled then 6 else result; r.write = true) :=
  ⟨⟨.p1, 31, 1, (2 ^ 64 - 1 - 2 ^ 33), wManagementChannel0, inv_of (by decide +kernel), by decide +kernel, by decide +kernel, by decide +kernel, by decide +kernel, by decide +kernel⟩,
    ⟨.p0, 31, 0, (2 ^ 32), wManagementChannel1, inv_of (by decide +kernel), by decide +kernel, by decide +kernel, by decide +kernel, by decide +kernel, by decide +kernel⟩,
    ⟨.internal, 31, 1, 0xFFFFFFFF, ⟨wit, []⟩, inv_of (by decide +kernel), by decide +kernel, by decide +kernel⟩,
    ⟨.p1, 31, 1, (2 ^ 32 - 1), ⟨wit, []⟩, inv_of (by decide +kernel), by decide +kernel, by decide +kernel, by decide +kernel, by decide +kernel⟩,
    ⟨.p1, 31, 1, wManagementChannel2, inv_of (by decide +kernel), by decide +kernel, ({ sent := true, addr := 4 }), by decide +kernel, by decide +kernel, by decide +kernel, by decide +kernel⟩,
    ⟨.p1, 31, 1, wManagementChannel3, inv_of (by decide +kernel), by decide +kernel, ({ addr := 4 }), by decide +kernel, by decide +kernel, by decide +kernel, by decide +kernel⟩,
    ⟨.p1, 31, 1, wManagementChannel4, inv_of (by decide +kernel), by decide +kernel, by decide +kernel⟩,
    ⟨31, 1, ({ sent := true, addr := 4, count := 8, tag := 65535 }), 0, wManagementChannel5, inv_of (by decide +kernel), by decide +kernel, by decide +kernel, by decide +kernel, ([1,2,3,4,5,6,7,8]), by decide +kernel, by decide +kernel⟩,
    ⟨31, 1, ({ sent := true, addr := 4, count := 8, tag := 255, write := true }), 15, wManagementChannel6, inv_of (by decide +kernel), by decide +kernel, by decide +kernel, by decide +kernel, by decide +kernel⟩⟩

theorem witness_ManagementChannel_part2 :
    (∃ (l : Fin 32) (p : Fin 2) (r : MgReq) (result : Nat) (s : State), s.Inv ∧ (s.dev.link l).grant = some p.val ∧ s.dev.req l p = some r ∧ r.sent = true) ∧
    (∃ (l : Fin 32) (p : Fin 2) (r : MgReq) (result : Nat) (s : State), s.Inv ∧ (s.dev.link l).grant = some p.val ∧ s.dev.req l p = some r ∧ r.sent = true ∧ let shown := if r.cancelled then 6 else result; ∃ (tag : Nat) (data : List (BitVec 32)), (tag ≠ r.tag ∨ r.write = true)) ∧
    (∃ (l : Fin 32) (p : Fin 2) (r : MgReq) (result : Nat) (s : State), s.Inv ∧ (s.dev.link l).grant = some p.val ∧ s.dev.req l p = some r ∧ r.sent = true ∧ let shown := if r.cancelled then 6 else result; ∃ tag : Nat, (tag ≠ r.tag ∨ r.write = false)) ∧
    (∃ (l : Fin 32) (r : MgReq) (c : HeadCheck) (s : State), s.Inv ∧ (s.dev.link l).grant = some 2 ∧ s.dev.req l 2 = some r ∧ r.sent = true ∧ (s.dev.link l).check = some c) ∧
    (∃ (l : Fin 32) (c : HeadCheck) (s : State), s.Inv ∧ (s.dev.link l).check = some c ∧ c.phase = 5) ∧
    (∃ (l : Fin 32) (c : HeadCheck) (s : State), s.Inv ∧ (s.dev.link l).check = some c ∧ c.phase = 5 ∧ c.fail = 0 ∧ s.dev.linkUp l = true ∧ s.dev.delayOk l = true ∧ s.dev.rd F.HL_STAT_IN_SERVICE l = 0) ∧
    (∃ (l : Fin 32) (c : HeadCheck) (s : State), s.Inv ∧ (s.dev.link l).check = some c ∧ c.phase = 5 ∧ c.fail ≠ 0) ∧
    (∃ (l : Fin 32) (s : State), (match (s.dev.link l).check with | some c => c.phase ≠ 5 | none => True)) :=
  ⟨⟨31, 1, ({ sent := true, addr := 4, count := 8, tag := 255, write := true }), 4, wManagementChannel6, inv_of (by decide +kernel), by decide +kernel, by decide +kernel, by decide +kernel⟩,
    ⟨31, 1, ({ sent := true, addr := 4, count := 8, tag := 65535 }), 0, wManagementChannel5, inv_of (by decide +kernel), by decide +kernel, by decide +kernel, by decide +kernel, 7, ([1]), by decide +kernel⟩,
    ⟨31, 1, ({ sent := true, addr := 4, count := 8, tag := 65535 }), 0, wManagementChannel5, inv_of (by decide +kernel), by decide +kernel, by decide +kernel, by decide +kernel, 65535, by decide +kernel⟩,
    ⟨31, ({ sent := true, addr := 4, count := 8, tag := 65535 }), ({ phase := 2 }), wManagementChannel7, inv_of (by decide +kernel), by decide +kernel, by decide +kernel, by decide +kernel, by decide +kernel⟩,
    ⟨31, ({ phase := 5 }), wManagementChannel8, inv_of (by decide +kernel), by decide +kernel, by decide +kernel⟩,
    ⟨31, ({ phase := 5 }), wManagementChannel8, inv_of (by decide +kernel), by decide +kernel, by decide +kernel, by decide +kernel, by decide +kernel, by decide +kernel, by decide +kernel⟩,
    ⟨31, ({ phase := 5, fail := 2 }), wManagementChannel9, inv_of (by decide +kernel), by decide +kernel, by decide +kernel, by decide +kernel⟩,
    ⟨31, wManagementChannel10, (show (3 : Nat) ≠ 5 by decide)⟩⟩

def wLinkRecovery0 : State :=
  let base : Dev := (((wit.wr F.HL_STAT_STATE 31 5).wr F.HL_STAT_UP 31 1).wr F.HL_STAT_GEN 31 3).wr F.HL_STAT_IN_SERVICE 31 1
  ⟨base, []⟩

def wLinkRecovery1 : State :=
  let base : Dev := (((wit.wr F.HL_STAT_STATE 31 5).wr F.HL_STAT_UP 31 1).wr F.HL_STAT_GEN 31 3).wr F.HL_STAT_IN_SERVICE 31 1
  ⟨(base.wr F.HL_GLOBAL_CFG_ERR_LIMIT 0 2).setLink 31 (fun x => { x with crcBeats := [3, 4] }), []⟩

def wLinkRecovery2 : State :=
  let base : Dev := (((wit.wr F.HL_STAT_STATE 31 5).wr F.HL_STAT_UP 31 1).wr F.HL_STAT_GEN 31 3).wr F.HL_STAT_IN_SERVICE 31 1
  ⟨base.wr F.HL_STAT_STATE 31 7, []⟩

def wLinkRecovery3 : State :=
  let base : Dev := (((wit.wr F.HL_STAT_STATE 31 5).wr F.HL_STAT_UP 31 1).wr F.HL_STAT_GEN 31 3).wr F.HL_STAT_IN_SERVICE 31 1
  ⟨base.wr F.HL_GLOBAL_CFG_ERR_LIMIT 0 2, []⟩

def wLinkRecovery4 : State :=
  let base : Dev := (((wit.wr F.HL_STAT_STATE 31 5).wr F.HL_STAT_UP 31 1).wr F.HL_STAT_GEN 31 3).wr F.HL_STAT_IN_SERVICE 31 1
  ⟨base.setLink 31 (fun x => { x with rxLock := true }), []⟩

def wLinkRecovery5 : State :=
  let base : Dev := (((wit.wr F.HL_STAT_STATE 31 5).wr F.HL_STAT_UP 31 1).wr F.HL_STAT_GEN 31 3).wr F.HL_STAT_IN_SERVICE 31 1
  ⟨base.wr F.HL_STAT_STATE 31 0, []⟩

def wLinkRecovery6 : State :=
  let base : Dev := (((wit.wr F.HL_STAT_STATE 31 5).wr F.HL_STAT_UP 31 1).wr F.HL_STAT_GEN 31 3).wr F.HL_STAT_IN_SERVICE 31 1
  ⟨base.wr F.HL_STAT_STATE 31 1, []⟩

def wLinkRecovery7 : State :=
  let base : Dev := (((wit.wr F.HL_STAT_STATE 31 5).wr F.HL_STAT_UP 31 1).wr F.HL_STAT_GEN 31 3).wr F.HL_STAT_IN_SERVICE 31 1
  ⟨{ base.wr F.HL_STAT_STATE 31 6 with pat.loaded.links := List.replicate 32 { genMin := 2, genMax := 3, enable := true } }, []⟩

def wLinkRecovery8 : State :=
  let base : Dev := (((wit.wr F.HL_STAT_STATE 31 5).wr F.HL_STAT_UP 31 1).wr F.HL_STAT_GEN 31 3).wr F.HL_STAT_IN_SERVICE 31 1
  ⟨(base.wr F.HL_STAT_STATE 31 6).wr F.HL_STAT_GEN 31 2, []⟩

def wLinkRecovery9 : State :=
  let base : Dev := (((wit.wr F.HL_STAT_STATE 31 5).wr F.HL_STAT_UP 31 1).wr F.HL_STAT_GEN 31 3).wr F.HL_STAT_IN_SERVICE 31 1
  ⟨base.wr F.HL_STAT_UP_ASLEEP 31 1, []⟩

def wLinkRecovery10 : State :=
  let base : Dev := (((wit.wr F.HL_STAT_STATE 31 5).wr F.HL_STAT_UP 31 1).wr F.HL_STAT_GEN 31 3).wr F.HL_STAT_IN_SERVICE 31 1
  ⟨(base.wr F.HL_STAT_STATE 31 2).setLink 31 (fun x => { x with headLocked := true }), []⟩

def wLinkRecovery11 : State :=
  let base : Dev := (((wit.wr F.HL_STAT_STATE 31 5).wr F.HL_STAT_UP 31 1).wr F.HL_STAT_GEN 31 3).wr F.HL_STAT_IN_SERVICE 31 1
  ⟨(base.wr F.HL_STAT_STATE 31 2).setLink 31 (fun x => { x with rxLock := true }), []⟩

def wLinkRecovery12 : State :=
  let base : Dev := (((wit.wr F.HL_STAT_STATE 31 5).wr F.HL_STAT_UP 31 1).wr F.HL_STAT_GEN 31 3).wr F.HL_STAT_IN_SERVICE 31 1
  ⟨(base.wr F.HL_STAT_STATE 31 3).setDnTaps 31 presetTaps, []⟩

def wLinkRecovery13 : State :=
  let base : Dev := (((wit.wr F.HL_STAT_STATE 31 5).wr F.HL_STAT_UP 31 1).wr F.HL_STAT_GEN 31 3).wr F.HL_STAT_IN_SERVICE 31 1
  ⟨base.wr F.HL_STAT_STATE 31 4, []⟩

def wLinkRecovery14 : State :=
  let base : Dev := (((wit.wr F.HL_STAT_STATE 31 5).wr F.HL_STAT_UP 31 1).wr F.HL_STAT_GEN 31 3).wr F.HL_STAT_IN_SERVICE 31 1
  ⟨(base.wr F.HL_STAT_STATE 31 6), []⟩

theorem witness_LinkRecovery_part1 :
    (∃ (l : Fin 32) (s : State), s.Inv ∧ s.dev.linkState l = 5) ∧
    (∃ (l : Fin 32) (s : State), s.Inv ∧ s.dev.linkState l = 5 ∧ s.dev.rd F.HL_STAT_UP_ASLEEP l = 0) ∧
    (∃ (l : Fin 32) (s : State), s.Inv ∧ s.dev.linkState l = 5) ∧
    (∃ (l : Fin 32) (s : State), s.Inv ∧ s.dev.linkState l = 5 ∧ s.dev.rd F.HL_GLOBAL_CFG_ERR_LIMIT ≤ (s.dev.link l).crcBeats.length) ∧
    (∃ (l : Fin 32) (s : State), s.Inv ∧ s.dev.linkState l = 5 ∧ (s.dev.link l).rxLock = false) ∧
    (∃ (l : Fin 32) (s : State), s.Inv ∧ s.dev.linkState l ≠ 5) ∧
    (∃ (l : Fin 32) (s : State), s.Inv ∧ s.dev.linkState l ≠ 5) ∧
    (∃ (l : Fin 32) (s : State), s.Inv ∧ s.dev.linkState l ≠ 5) :=
  ⟨⟨31, wLinkRecovery0, inv_of (by decide +kernel), by decide +kernel⟩,
    ⟨31, wLinkRecovery0, inv_of (by decide +kernel), by decide +kernel, by decide +kernel⟩,
    ⟨31, wLinkRecovery0, inv_of (by decide +kernel), by decide +kernel⟩,
    ⟨31, wLinkRecovery1, inv_of (by decide +kernel), by decide +kernel, by decide +kernel⟩,
    ⟨31, wLinkRecovery0, inv_of (by decide +kernel), by decide +kernel, by decide +kernel⟩,
    ⟨31, wLinkRecovery2, inv_of (by decide +kernel), by decide +kernel⟩,
    ⟨31, wLinkRecovery2, inv_of (by decide +kernel), by decide +kernel⟩,
    ⟨31, wLinkRecovery2, inv_of (by decide +kernel), by decide +kernel⟩⟩

theorem witness_LinkRecovery_part2 :
    (∃ (l : Fin 32) (s : State), s.Inv ∧ (s.dev.link l).crcBeats.length < s.dev.rd F.HL_GLOBAL_CFG_ERR_LIMIT) ∧
    (∃ (l : Fin 32) (s : State), s.Inv ∧ (s.dev.link l).rxLock = true) ∧
    (∃ (l : Fin 32) (s : State), s.Inv ∧ s.dev.linkState l = 0) ∧
    (∃ (l : Fin 32) (s : State), s.Inv ∧ s.dev.linkState l = 0) ∧
    (∃ (l : Fin 32) (s : State), s.Inv ∧ s.dev.linkState l ≠ 0 ∧ (s.dev.linkState l ≠ 5 ∨ s.dev.rd F.HL_STAT_UP_ASLEEP l = 1)) ∧
    (∃ (l : Fin 32) (gen : Nat) (s : State), s.Inv ∧ (s.dev.linkState l = 1 ∨ s.dev.linkState l = 6) ∧ (s.dev.linkSec l).genMin ≤ gen ∧ gen ≤ s.dev.linkGen l) ∧
    (∃ (l : Fin 32) (gen : Nat) (s : State), s.Inv ∧ (s.dev.linkState l = 1 ∨ s.dev.linkState l = 6) ∧ gen < (s.dev.linkSec l).genMin) ∧
    (∃ (l : Fin 32) (gen : Nat) (s : State), s.Inv ∧ (s.dev.linkState l = 1 ∨ s.dev.linkState l = 6) ∧ (s.dev.linkSec l).genMin ≤ gen ∧ s.dev.linkGen l < gen) :=
  ⟨⟨31, wLinkRecovery3, inv_of (by decide +kernel), by decide +kernel⟩,
    ⟨31, wLinkRecovery4, inv_of (by decide +kernel), by decide +kernel⟩,
    ⟨31, wLinkRecovery5, inv_of (by decide +kernel), by decide +kernel⟩,
    ⟨31, wLinkRecovery5, inv_of (by decide +kernel), by decide +kernel⟩,
    ⟨31, wLinkRecovery2, inv_of (by decide +kernel), by decide +kernel, by decide +kernel⟩,
    ⟨31, 2, wLinkRecovery6, inv_of (by decide +kernel), by decide +kernel, by decide +kernel, by decide +kernel⟩,
    ⟨31, 1, wLinkRecovery7, inv_of (by decide +kernel), by decide +kernel, by decide +kernel⟩,
    ⟨31, 3, wLinkRecovery8, inv_of (by decide +kernel), by decide +kernel, by decide +kernel, by decide +kernel⟩⟩

theorem witness_LinkRecovery_part3 :
    (∃ (l : Fin 32) (s : State), s.Inv ∧ s.dev.linkState l ≠ 0 ∧ ((s.dev.linkState l ≠ 2 ∧ s.dev.linkState l ≠ 8) ∨ (s.dev.link l).headLocked = false)) ∧
    (∃ (l : Fin 32) (s : State), s.Inv ∧ s.dev.linkState l = 2 ∧ (s.dev.link l).headLocked = true) ∧
    (∃ (l : Fin 32) (ts : TrainingSet) (s : State), s.Inv ∧ s.dev.linkState l = 2 ∧ (s.dev.link l).rxLock = true ∧ ts.crcOk = true ∧ ts.req.getLsbD 6 = true) ∧
    (∃ (l : Fin 32) (ts : TrainingSet) (s : State), s.Inv ∧ s.dev.linkState l = 3 ∧ ts.crcOk = true ∧ (s.dev.link l).headSeq ≠ some ts.reqSeq.toNat) ∧
    (∃ (l : Fin 32) (ts : TrainingSet) (s : State), s.Inv ∧ ts.crcOk = false) ∧
    (∃ (l : Fin 32) (ts : TrainingSet) (s : State), s.Inv ∧ ts.crcOk = true ∧ s.dev.linkState l ∈ [0, 1, 5, 6, 7]) ∧
    (∃ (l : Fin 32) (s : State), let st := s.dev.linkState l; let up := s.dev.linkUp l; s.Inv ∧ (st ∈ [1, 2, 3, 4, 6] ∨ (st = 5 ∧ up = false))) ∧
    (∃ (l : Fin 32) (s : State), let st := s.dev.linkState l; let up := s.dev.linkUp l; s.Inv ∧ (st ∈ [0, 7, 8] ∨ (st = 5 ∧ up = true))) :=
  ⟨⟨31, wLinkRecovery9, inv_of (by decide +kernel), by decide +kernel, by decide +kernel⟩,
    ⟨31, wLinkRecovery10, inv_of (by decide +kernel), by decide +kernel, by decide +kernel⟩,
    ⟨31, ({ req := 0x40 }), wLinkRecovery11, inv_of (by decide +kernel), by decide +kernel, by decide +kernel, by decide +kernel, by decide +kernel⟩,
    ⟨31, ({ req := 0x16, reqSeq := 9 }), wLinkRecovery12, inv_of (by decide +kernel), by decide +kernel, by decide +kernel, by decide +kernel⟩,
    ⟨31, ({ crcOk := false }), wLinkRecovery13, inv_of (by decide +kernel), by decide +kernel⟩,
    ⟨31, ({ }), wLinkRecovery0, inv_of (by decide +kernel), by decide +kernel, by decide +kernel⟩,
    ⟨31, wLinkRecovery14, inv_of (by decide +kernel), by decide +kernel⟩,
    ⟨31, wLinkRecovery2, inv_of (by decide +kernel), by decide +kernel⟩⟩

def wLinkTraining0 : State :=
  let base : Dev := (((wit.wr F.HL_STAT_STATE 31 3).wr F.HL_STAT_GEN 31 3))
  ⟨base.setLink 31 (fun x => { x with reqSeq := 255 }), []⟩

def wLinkTraining1 : State :=
  let base : Dev := (((wit.wr F.HL_STAT_STATE 31 3).wr F.HL_STAT_GEN 31 3))
  ⟨base.setLink 31 (fun x => { x with eq.tap := 3 }), []⟩

def wLinkTraining2 : State :=
  let base : Dev := (((wit.wr F.HL_STAT_STATE 31 3).wr F.HL_STAT_GEN 31 3))
  ⟨base.setLink 31 (fun x => { x with eq.req := some 5, eq.misses := 1 }), []⟩

def wLinkTraining3 : State :=
  let base : Dev := (((wit.wr F.HL_STAT_STATE 31 3).wr F.HL_STAT_GEN 31 3))
  ⟨base.setLink 31 (fun x => { x with eq.req := some 5, eq.misses := 2 }), []⟩

def wLinkTraining4 : State :=
  let base : Dev := (((wit.wr F.HL_STAT_STATE 31 3).wr F.HL_STAT_GEN 31 3))
  ⟨base, []⟩

def wLinkTraining5 : State :=
  let base : Dev := (((wit.wr F.HL_STAT_STATE 31 3).wr F.HL_STAT_GEN 31 3))
  ⟨base.wr F.HL_STAT_STATE 31 4, []⟩

def wLinkTraining6 : State :=
  let base : Dev := (((wit.wr F.HL_STAT_STATE 31 3).wr F.HL_STAT_GEN 31 3))
  ⟨(base.wr F.HL_STAT_STATE 31 4).setLink 31 (fun x => { x with confirmBad := true }), []⟩

def wLinkTraining7 : State :=
  let base : Dev := (((wit.wr F.HL_STAT_STATE 31 3).wr F.HL_STAT_GEN 31 3))
  ⟨(((base.wr F.HL_STAT_STATE 31 5).wr F.HL_DELAY_ACCEPTED 31 16).wr F.HL_DELAY_D_DN 31 maxDelay).wr F.HL_STAT_HEAD_FLAGS 31 4, []⟩

def wLinkTraining8 : State :=
  let base : Dev := (((wit.wr F.HL_STAT_STATE 31 3).wr F.HL_STAT_GEN 31 3))
  ⟨((base.wr F.HL_STAT_STATE 31 5).wr F.HL_DELAY_ACCEPTED 31 15), []⟩

theorem witness_LinkTraining :
    (∃ (l : Fin 32) (eye : Nat) (s : State), let e := (s.dev.link l).eq; s.Inv ∧ s.dev.linkState l = 3 ∧ e.req = none ∧ e.tap ≠ 3) ∧
    (∃ (l : Fin 32) (eye : Nat) (s : State), let e := (s.dev.link l).eq; s.Inv ∧ (e.req ≠ none ∨ e.tap = 3 ∨ (s.dev.linkState l ≠ 3 ∧ s.dev.linkState l ≠ 8))) ∧
    (∃ (l : Fin 32) (s : State), let e := (s.dev.link l).eq; s.Inv ∧ s.dev.linkState l = 3 ∧ e.req ≠ none ∧ e.misses < 2) ∧
    (∃ (l : Fin 32) (s : State), let e := (s.dev.link l).eq; s.Inv ∧ s.dev.linkState l = 3 ∧ e.req ≠ none ∧ 2 ≤ e.misses) ∧
    (∃ (l : Fin 32) (s : State), let e := (s.dev.link l).eq; s.Inv ∧ (e.req = none ∨ (s.dev.linkState l ≠ 3 ∧ s.dev.linkState l ≠ 8))) ∧
    (∃ (l : Fin 32) (eye : Nat) (s : State), s.Inv ∧ s.dev.linkState l = 4 ∧ (s.dev.link l).confirmBad = false ∧ s.dev.rd F.HL_GLOBAL_CFG_EYE_MIN ≤ eye % 256) ∧
    (∃ (l : Fin 32) (eye : Nat) (s : State), s.Inv ∧ s.dev.linkState l = 4 ∧ ((s.dev.link l).confirmBad = true ∨ eye % 256 < s.dev.rd F.HL_GLOBAL_CFG_EYE_MIN)) ∧
    (∃ (l : Fin 32) (eye : Nat) (s : State), s.Inv ∧ s.dev.linkState l ≠ 4) ∧
    (∃ (l : Fin 32) (s : State), s.Inv ∧ s.dev.linkState l = 5 ∧ s.dev.linkUp l = false ∧ s.dev.delayOk l = true ∧ s.dev.realigned l = true) ∧
    (∃ (l : Fin 32) (s : State), s.Inv ∧ (s.dev.linkState l ≠ 5 ∨ s.dev.linkUp l = true ∨ s.dev.delayOk l = false ∨ s.dev.realigned l = false)) :=
  ⟨⟨31, 0x1FF, wLinkTraining0, inv_of (by decide +kernel), by decide +kernel, by decide +kernel, by decide +kernel⟩,
    ⟨31, 5, wLinkTraining1, inv_of (by decide +kernel), by decide +kernel⟩,
    ⟨31, wLinkTraining2, inv_of (by decide +kernel), by decide +kernel, by decide +kernel, by decide +kernel⟩,
    ⟨31, wLinkTraining3, inv_of (by decide +kernel), by decide +kernel, by decide +kernel, by decide +kernel⟩,
    ⟨31, wLinkTraining4, inv_of (by decide +kernel), by decide +kernel⟩,
    ⟨31, 0x1FF, wLinkTraining5, inv_of (by decide +kernel), by decide +kernel, by decide +kernel, by decide +kernel⟩,
    ⟨31, 255, wLinkTraining6, inv_of (by decide +kernel), by decide +kernel, by decide +kernel⟩,
    ⟨31, 4, wLinkTraining4, inv_of (by decide +kernel), by decide +kernel⟩,
    ⟨31, wLinkTraining7, inv_of (by decide +kernel), by decide +kernel, by decide +kernel, by decide +kernel, by decide +kernel⟩,
    ⟨31, wLinkTraining8, inv_of (by decide +kernel), by decide +kernel⟩⟩

def wLinkWritesAndSleep0 : State :=
  ⟨((wit.wr F.HL_STAT_STATE 31 5).wr F.HL_STAT_UP 31 1).setLink 31 (fun x => { x with good := [(1, 1, 2, 3)] }), []⟩

def wLinkWritesAndSleep1 : State :=
  ⟨{ wit.wr F.HL_STAT_STATE 31 5 with sys.done := false }, []⟩

def wLinkWritesAndSleep2 : State :=
  ⟨wit.wr F.HL_STAT_STATE 31 7, []⟩

def wLinkWritesAndSleep3 : State :=
  ⟨(wit.wr F.HL_STAT_STATE 31 8).wr F.HL_CFG_TEST 31 1, []⟩

def wLinkWritesAndSleep4 : State :=
  ⟨wit.wr F.HL_STAT_STATE 31 5, []⟩

def wLinkWritesAndSleep5 : State :=
  ⟨wit.wr F.HL_STAT_STATE 31 8, []⟩

def wLinkWritesAndSleep6 : State :=
  ⟨((wit.wr F.HL_STAT_STATE 31 5).wr F.HL_CFG_DN_SLEEP_EN 31 1).wr F.HL_CFG_DN_SLEEP_BEATS 31 100, []⟩

def wLinkWritesAndSleep7 : State :=
  ⟨((wit.wr F.HL_STAT_STATE 31 5).wr F.HL_STAT_DN_ASLEEP 31 1), []⟩

def wLinkWritesAndSleep8 : State :=
  ⟨((wit.wr F.HL_STAT_STATE 31 5)).setLink 31 (fun x => { x with rxLock := true }), []⟩

theorem witness_LinkWritesAndSleep_part1 :
    (∃ (m : Master) (l : Fin 32) (s : State), s.Inv ∧ s.dev.Takes m R.HL_CFG l ∧ s.dev.sys.done = true ∧ s.dev.rd F.HL_CFG_TEST l = 0 ∧ (s.dev.linkState l = 5 ∨ s.dev.linkState l = 7)) ∧
    (∃ (m : Master) (l : Fin 32) (s : State), s.Inv ∧ s.dev.Takes m R.HL_CFG l ∧ ((s.dev.linkState l ≠ 7 ∧ s.dev.linkState l ≠ 8 ∧ (s.dev.linkState l ≠ 5 ∨ s.dev.sys.done = false)) ∨ (s.dev.linkState l = 8 ∧ s.dev.rd F.HL_CFG_TEST l = 1) ∨ (s.dev.linkState l = 7 ∧ s.dev.rd F.HL_CFG_TEST l = 0 ∧ s.dev.sys.done = false))) ∧
    (∃ (m : Master) (l : Fin 32) (s : State), s.Inv ∧ s.dev.Takes m R.HL_CFG l ∧ s.dev.linkState l = 7) ∧
    (∃ (m : Master) (l : Fin 32) (s : State), s.Inv ∧ s.dev.Takes m R.HL_CFG l ∧ s.dev.linkState l = 8) ∧
    (∃ (m : Master) (l : Fin 32) (s : State), s.Inv ∧ s.dev.Takes m R.HL_CFG l ∧ ∃ en : Bool, s.dev.linkState l ≠ 7 ∧ s.dev.linkState l ≠ 8) ∧
    (∃ (m : Master) (l : Fin 32) (s : State), s.Inv ∧ s.dev.Takes m R.HL_CFG l ∧ ∃ en : Bool, s.dev.linkState l = (if en then 8 else 7)) :=
  ⟨⟨.p1, 31, wLinkWritesAndSleep0, inv_of (by decide +kernel), by decide +kernel, by decide +kernel, by decide +kernel, by decide +kernel⟩,
    ⟨.p1, 31, wLinkWritesAndSleep1, inv_of (by decide +kernel), by decide +kernel, by decide +kernel⟩,
    ⟨.p1, 31, wLinkWritesAndSleep2, inv_of (by decide +kernel), by decide +kernel, by decide +kernel⟩,
    ⟨.p1, 31, wLinkWritesAndSleep3, inv_of (by decide +kernel), by decide +kernel, by decide +kernel⟩,
    ⟨.p1, 31, wLinkWritesAndSleep4, inv_of (by decide +kernel), by decide +kernel, true, by decide +kernel, by decide +kernel⟩,
    ⟨.p1, 31, wLinkWritesAndSleep5, inv_of (by decide +kernel), by decide +kernel, true, by decide +kernel⟩⟩

theorem witness_LinkWritesAndSleep_part2 :
    (∃ (l : Fin 32) (s : State), s.Inv ∧ s.dev.linkState l = 5 ∧ s.dev.rd F.HL_CFG_DN_SLEEP_EN l = 1 ∧ s.dev.rd F.HL_STAT_DN_ASLEEP l = 0 ∧ s.dev.pageRuns = false ∧ s.dev.frameWaits l = false ∧ (s.dev.link l).lastSel + s.dev.rd F.HL_CFG_DN_SLEEP_BEATS l ≤ s.dev.tmb.beats) ∧
    (∃ (l : Fin 32) (s : State), s.Inv ∧ (s.dev.linkState l ≠ 5 ∨ s.dev.rd F.HL_CFG_DN_SLEEP_EN l = 0 ∨ s.dev.rd F.HL_STAT_DN_ASLEEP l = 1 ∨ s.dev.pageRuns = true ∨ s.dev.frameWaits l = true ∨ s.dev.tmb.beats < (s.dev.link l).lastSel + s.dev.rd F.HL_CFG_DN_SLEEP_BEATS l)) ∧
    (∃ (l : Fin 32) (s : State), s.Inv ∧ s.dev.rd F.HL_STAT_DN_ASLEEP l = 1) ∧
    (∃ (l : Fin 32) (s : State), s.Inv ∧ s.dev.rd F.HL_STAT_DN_ASLEEP l = 0) ∧
    (∃ (l : Fin 32) (s : State), s.Inv ∧ s.dev.linkState l = 5) ∧
    (∃ (l : Fin 32) (s : State), s.Inv ∧ s.dev.linkState l ≠ 5) :=
  ⟨⟨31, wLinkWritesAndSleep6, inv_of (by decide +kernel), by decide +kernel, by decide +kernel, by decide +kernel, by decide +kernel, by decide +kernel, by decide +kernel⟩,
    ⟨31, ⟨wit, []⟩, inv_of (by decide +kernel), by decide +kernel⟩,
    ⟨31, wLinkWritesAndSleep7, inv_of (by decide +kernel), by decide +kernel⟩,
    ⟨31, ⟨wit, []⟩, inv_of (by decide +kernel), by decide +kernel⟩,
    ⟨31, wLinkWritesAndSleep8, inv_of (by decide +kernel), by decide +kernel⟩,
    ⟨31, wLinkWritesAndSleep2, inv_of (by decide +kernel), by decide +kernel⟩⟩

def wHeadAuthentication0 : State :=
  let base : Dev := { (((wit.wr F.HL_STAT_STATE 31 5).wr F.HL_STAT_UP 31 1).wr F.HL_STAT_IN_SERVICE 31 1).setLink 31 (fun x => { x with ids := [0, 0xFFFFFFFF, 0x12345678, 0, 0, 0, 0, 0, 0, 0], checked := true, named := true }) with vlt.used.headRoot := Fuse.of 16 77 }
  ⟨base, []⟩

def wHeadAuthentication1 : State :=
  let base : Dev := { (((wit.wr F.HL_STAT_STATE 31 5).wr F.HL_STAT_UP 31 1).wr F.HL_STAT_IN_SERVICE 31 1).setLink 31 (fun x => { x with ids := [0, 0xFFFFFFFF, 0x12345678, 0, 0, 0, 0, 0, 0, 0], checked := true, named := true }) with vlt.used.headRoot := Fuse.of 16 77 }
  ⟨{ base with vlt.used.headRoot := {}, vlt.restored := [(31, 0x578)] }, []⟩

def wHeadAuthentication2 : State :=
  let base : Dev := { (((wit.wr F.HL_STAT_STATE 31 5).wr F.HL_STAT_UP 31 1).wr F.HL_STAT_IN_SERVICE 31 1).setLink 31 (fun x => { x with ids := [0, 0xFFFFFFFF, 0x12345678, 0, 0, 0, 0, 0, 0, 0], checked := true, named := true }) with vlt.used.headRoot := Fuse.of 16 77 }
  ⟨base.setLink 31 (fun x => { x with auth := some {}, updateDue := true }), []⟩

def wHeadAuthentication3 : State :=
  let base : Dev := { (((wit.wr F.HL_STAT_STATE 31 5).wr F.HL_STAT_UP 31 1).wr F.HL_STAT_IN_SERVICE 31 1).setLink 31 (fun x => { x with ids := [0, 0xFFFFFFFF, 0x12345678, 0, 0, 0, 0, 0, 0, 0], checked := true, named := true }) with vlt.used.headRoot := Fuse.of 16 77 }
  ⟨base.setLink 31 (fun x => { x with auth := some { nonce := 99, waiting := false, tries := 1 } }), []⟩

def wHeadAuthentication4 : State :=
  let base : Dev := { (((wit.wr F.HL_STAT_STATE 31 5).wr F.HL_STAT_UP 31 1).wr F.HL_STAT_IN_SERVICE 31 1).setLink 31 (fun x => { x with ids := [0, 0xFFFFFFFF, 0x12345678, 0, 0, 0, 0, 0, 0, 0], checked := true, named := true }) with vlt.used.headRoot := Fuse.of 16 77 }
  ⟨base.setLink 31 (fun x => { x with auth := some { update := true } }), []⟩

def wHeadAuthentication5 : State :=
  let base : Dev := { (((wit.wr F.HL_STAT_STATE 31 5).wr F.HL_STAT_UP 31 1).wr F.HL_STAT_IN_SERVICE 31 1).setLink 31 (fun x => { x with ids := [0, 0xFFFFFFFF, 0x12345678, 0, 0, 0, 0, 0, 0, 0], checked := true, named := true }) with vlt.used.headRoot := Fuse.of 16 77 }
  ⟨base.setLink 31 (fun x => { x with auth := some { nonce := 99, waiting := false, tries := 2 } }), []⟩

def wHeadAuthentication6 : State :=
  let base : Dev := { (((wit.wr F.HL_STAT_STATE 31 5).wr F.HL_STAT_UP 31 1).wr F.HL_STAT_IN_SERVICE 31 1).setLink 31 (fun x => { x with ids := [0, 0xFFFFFFFF, 0x12345678, 0, 0, 0, 0, 0, 0, 0], checked := true, named := true }) with vlt.used.headRoot := Fuse.of 16 77 }
  ⟨base.setLink 31 (fun x => { x with auth := some { nonce := 99, waiting := false, tries := 1, update := true } }), []⟩

def wHeadAuthentication7 : State :=
  let base : Dev := { (((wit.wr F.HL_STAT_STATE 31 5).wr F.HL_STAT_UP 31 1).wr F.HL_STAT_IN_SERVICE 31 1).setLink 31 (fun x => { x with ids := [0, 0xFFFFFFFF, 0x12345678, 0, 0, 0, 0, 0, 0, 0], checked := true, named := true }) with vlt.used.headRoot := Fuse.of 16 77 }
  ⟨base.setLink 31 (fun x => { x with auth := some { nonce := 99, waiting := false, tries := 3 } }), []⟩

def wHeadAuthentication8 : State :=
  let base : Dev := { (((wit.wr F.HL_STAT_STATE 31 5).wr F.HL_STAT_UP 31 1).wr F.HL_STAT_IN_SERVICE 31 1).setLink 31 (fun x => { x with ids := [0, 0xFFFFFFFF, 0x12345678, 0, 0, 0, 0, 0, 0, 0], checked := true, named := true }) with vlt.used.headRoot := Fuse.of 16 77 }
  ⟨{ (base.setLink 31 (fun x => { x with authDue := true, auth := some { nonce := 99, waiting := false, tries := 3, update := true } })) with vlt.restored := [(31, 5)] }, []⟩

def wHeadAuthentication9 : State :=
  let base : Dev := { (((wit.wr F.HL_STAT_STATE 31 5).wr F.HL_STAT_UP 31 1).wr F.HL_STAT_IN_SERVICE 31 1).setLink 31 (fun x => { x with ids := [0, 0xFFFFFFFF, 0x12345678, 0, 0, 0, 0, 0, 0, 0], checked := true, named := true }) with vlt.used.headRoot := Fuse.of 16 77 }
  ⟨base.setLink 31 (fun x => { x with auth := some { update := true, waiting := false } }), []⟩

def wHeadAuthentication10 : State :=
  let base : Dev := { (((wit.wr F.HL_STAT_STATE 31 5).wr F.HL_STAT_UP 31 1).wr F.HL_STAT_IN_SERVICE 31 1).setLink 31 (fun x => { x with ids := [0, 0xFFFFFFFF, 0x12345678, 0, 0, 0, 0, 0, 0, 0], checked := true, named := true }) with vlt.used.headRoot := Fuse.of 16 77 }
  ⟨base.setLink 31 (fun x => { x with auth := some { waiting := false } }), []⟩

def wHeadAuthentication11 : State :=
  let base : Dev := { (((wit.wr F.HL_STAT_STATE 31 5).wr F.HL_STAT_UP 31 1).wr F.HL_STAT_IN_SERVICE 31 1).setLink 31 (fun x => { x with ids := [0, 0xFFFFFFFF, 0x12345678, 0, 0, 0, 0, 0, 0, 0], checked := true, named := true }) with vlt.used.headRoot := Fuse.of 16 77 }
  ⟨(base.setLink 31 (fun x => { x with auth := some { nonce := 99, waiting := false, tries := 1, update := true, amount := 5 } })).wr F.VLT_HEAD_PENDING_PENDING 31 7, []⟩

def wHeadAuthentication12 : State :=
  ⟨wit.setLink 31 (fun x => { x with auth := some { update := false, waiting := false, nonce := 6 } }), []⟩

theorem witness_HeadAuthentication_part1 :
    (∃ (m : Master) (val : Nat) (s : State), s.Inv ∧ s.dev.Takes m R.VLT_AUTH_REAUTH 0) ∧
    (∃ (m : Master) (l : Fin 32) (s : State), s.Inv ∧ s.dev.Takes m R.VLT_AUTH_REAUTH 0 ∧ s.dev.linkUp l = true ∧ (s.dev.link l).named = true ∧ (s.dev.link l).auth = none ∧ s.dev.vlt.used.headRoot.blank = false) ∧
    (∃ (m : Master) (l : Fin 32) (s : State), s.Inv ∧ s.dev.Takes m R.VLT_AUTH_REAUTH 0 ∧ s.dev.linkUp l = true ∧ (s.dev.link l).named = true ∧ (s.dev.link l).auth = none ∧ s.dev.vlt.used.headRoot.blank = true) ∧
    (∃ (m : Master) (l : Fin 32) (s : State), s.Inv ∧ s.dev.Takes m R.VLT_AUTH_REAUTH 0 ∧ s.dev.linkUp l = true ∧ ((s.dev.link l).auth ≠ none ∨ ((s.dev.link l).named = false ∧ (s.dev.link l).updateDue = false))) ∧
    (∃ (m : Master) (l : Fin 32) (s : State), s.Inv ∧ s.dev.Takes m R.VLT_AUTH_REAUTH 0 ∧ s.dev.linkUp l = false) ∧
    (∃ (l : Fin 32) (msg : AuthBody) (a : AuthEx) (s : State), let hs := s.dev.headSerial l; s.Inv ∧ (s.dev.link l).auth = some a ∧ a.update = false ∧ a.waiting = false ∧ (s.dev.link l).authDue = false ∧ msg.hserial.toNat = hs ∧ msg.nonce.toNat = a.nonce ∧ msg.mac.toNat = s.dev.authMac 2 hs a.nonce msg.usage.toNat) ∧
    (∃ (l : Fin 32) (msg : AuthBody) (a : AuthEx) (s : State), let hs := s.dev.headSerial l; s.Inv ∧ (s.dev.link l).auth = some a ∧ a.update = false ∧ a.waiting = false ∧ (s.dev.link l).authDue = false ∧ (msg.hserial.toNat ≠ hs ∨ msg.nonce.toNat ≠ a.nonce ∨ msg.mac.toNat ≠ s.dev.authMac 2 hs a.nonce msg.usage.toNat)) ∧
    (∃ (l : Fin 32) (msg : AuthBody) (a : AuthEx) (s : State), let hs := s.dev.headSerial l; s.Inv ∧ (s.dev.link l).auth = some a ∧ (a.update = true ∨ a.waiting = true)) :=
  ⟨⟨.p1, 0xFFFFFFFF, wHeadAuthentication0, inv_of (by decide +kernel), by decide +kernel⟩,
    ⟨.p1, 31, wHeadAuthentication0, inv_of (by decide +kernel), by decide +kernel, by decide +kernel, by decide +kernel, by decide +kernel, by decide +kernel⟩,
    ⟨.p1, 31, wHeadAuthentication1, inv_of (by decide +kernel), by decide +kernel, by decide +kernel, by decide +kernel, by decide +kernel, by decide +kernel⟩,
    ⟨.p1, 31, wHeadAuthentication2, inv_of (by decide +kernel), by decide +kernel, by decide +kernel, by decide +kernel⟩,
    ⟨.p1, 31, ⟨wit, []⟩, inv_of (by decide +kernel), by decide +kernel, by decide +kernel⟩,
    ⟨31, (goodBody wHeadAuthentication3.dev 2 31 99), ({ nonce := 99, waiting := false, tries := 1 }), wHeadAuthentication3, inv_of (by decide +kernel), by decide +kernel, by decide +kernel, by decide +kernel, by decide +kernel, by decide +kernel, by decide +kernel, mac_of (Dev.authMac_lt _ _ _ _ _)⟩,
    ⟨31, ({ hserial := 5, nonce := 98, usage := 2^64-1, mac := 0 }), ({ nonce := 99, waiting := false, tries := 1 }), wHeadAuthentication3, inv_of (by decide +kernel), by decide +kernel, by decide +kernel, by decide +kernel, by decide +kernel, by decide +kernel⟩,
    ⟨31, ({}), ({ update := true }), wHeadAuthentication4, inv_of (by decide +kernel), by decide +kernel, by decide +kernel⟩⟩

theorem witness_HeadAuthentication_part2 :
    (∃ (l : Fin 32) (a : AuthEx) (s : State), s.Inv ∧ (s.dev.link l).auth = some a ∧ a.waiting = false ∧ a.update = false ∧ a.tries < 3) ∧
    (∃ (l : Fin 32) (a : AuthEx) (s : State), s.Inv ∧ (s.dev.link l).auth = some a ∧ a.waiting = false ∧ a.update = true ∧ a.tries < 3) ∧
    (∃ (l : Fin 32) (a : AuthEx) (s : State), s.Inv ∧ (s.dev.link l).auth = some a ∧ a.waiting = false ∧ a.update = false ∧ 3 ≤ a.tries ∧ (s.dev.link l).authDue = false) ∧
    (∃ (l : Fin 32) (a : AuthEx) (s : State), s.Inv ∧ (s.dev.link l).auth = some a ∧ a.waiting = false ∧ a.update = true ∧ 3 ≤ a.tries) ∧
    (∃ (l : Fin 32) (a : AuthEx) (s : State), s.Inv ∧ (s.dev.link l).auth = some a ∧ a.waiting = false ∧ a.update = true) ∧
    (∃ (l : Fin 32) (a : AuthEx) (s : State), s.Inv ∧ (s.dev.link l).auth = some a ∧ a.waiting = false ∧ a.update = false) ∧
    (∃ (l : Fin 32) (msg : AuthBody) (a : AuthEx) (s : State), let hs := s.dev.headSerial l; s.Inv ∧ (s.dev.link l).auth = some a ∧ a.update = true ∧ a.waiting = false ∧ (s.dev.link l).authDue = false ∧ msg.hserial.toNat = hs ∧ msg.nonce.toNat = a.nonce ∧ msg.mac.toNat = s.dev.authMac 4 hs a.nonce msg.usage.toNat) ∧
    (∃ (l : Fin 32) (msg : AuthBody) (a : AuthEx) (s : State), let hs := s.dev.headSerial l; s.Inv ∧ (s.dev.link l).auth = some a ∧ (a.update = false ∨ a.waiting = true ∨ msg.hserial.toNat ≠ hs ∨ msg.nonce.toNat ≠ a.nonce ∨ msg.mac.toNat ≠ s.dev.authMac 4 hs a.nonce msg.usage.toNat)) :=
  ⟨⟨31, ({ nonce := 99, waiting := false, tries := 2 }), wHeadAuthentication5, inv_of (by decide +kernel), by decide +kernel, by decide +kernel, by decide +kernel, by decide +kernel⟩,
    ⟨31, ({ nonce := 99, waiting := false, tries := 1, update := true }), wHeadAuthentication6, inv_of (by decide +kernel), by decide +kernel, by decide +kernel, by decide +kernel, by decide +kernel⟩,
    ⟨31, ({ nonce := 99, waiting := false, tries := 3 }), wHeadAuthentication7, inv_of (by decide +kernel), by decide +kernel, by decide +kernel, by decide +kernel, by decide +kernel, by decide +kernel⟩,
    ⟨31, ({ nonce := 99, waiting := false, tries := 3, update := true }), wHeadAuthentication8, inv_of (by decide +kernel), by decide +kernel, by decide +kernel, by decide +kernel, by decide +kernel⟩,
    ⟨31, ({ update := true, waiting := false }), wHeadAuthentication9, inv_of (by decide +kernel), by decide +kernel, by decide +kernel, by decide +kernel⟩,
    ⟨31, ({ waiting := false }), wHeadAuthentication10, inv_of (by decide +kernel), by decide +kernel, by decide +kernel, by decide +kernel⟩,
    ⟨31, (goodBody wHeadAuthentication11.dev 4 31 99), ({ nonce := 99, waiting := false, tries := 1, update := true, amount := 5 }), wHeadAuthentication11, inv_of (by decide +kernel), by decide +kernel, by decide +kernel, by decide +kernel, by decide +kernel, by decide +kernel, by decide +kernel, mac_of (Dev.authMac_lt _ _ _ _ _)⟩,
    ⟨31, ({}), ({ update := false, waiting := false, nonce := 6 }), wHeadAuthentication12, inv_of (by decide +kernel), by decide +kernel, (by left; rfl)⟩⟩

def wCameraTriggers0 : State :=
  let cm : (List Trig → Dev) := fun ts => { wit with ins.cams := List.replicate 7 {} ++ [{ trigs := ts, seq := 3, trigGen := 1, lastStop := 5000 }], ins.gens := [(1, [(R.INS_Cc_STROBE.addr 7, 0xFFFF0010)]), (0, [])], ins.gen := 2 }
  ⟨{ cm [] with web.occ := [{ entry := 0, t := 6000, pos := -5, mask := 1, width := 100, cams := 0xC0 }] }, []⟩

def wCameraTriggers1 : State :=
  let cm : (List Trig → Dev) := fun ts => { wit with ins.cams := List.replicate 7 {} ++ [{ trigs := ts, seq := 3, trigGen := 1, lastStop := 5000 }], ins.gens := [(1, [(R.INS_Cc_STROBE.addr 7, 0xFFFF0010)]), (0, [])], ins.gen := 2 }
  ⟨{ cm [] with web.occ := [{ entry := 0, t := 600, pos := -5, mask := 1, width := 100, cams := 0xC0 }] }, []⟩

def wCameraTriggers2 : State :=
  let cm : (List Trig → Dev) := fun ts => { wit with ins.cams := List.replicate 7 {} ++ [{ trigs := ts, seq := 3, trigGen := 1, lastStop := 5000 }], ins.gens := [(1, [(R.INS_Cc_STROBE.addr 7, 0xFFFF0010)]), (0, [])], ins.gen := 2 }
  ⟨({ cm [] with web.occ := [{ entry := 0, t := 600, pos := -5, mask := 1, width := 100, cams := 0xC0 }] }).setFunc (.cam 7) {}, []⟩

def wCameraTriggers3 : State :=
  let cm : (List Trig → Dev) := fun ts => { wit with ins.cams := List.replicate 7 {} ++ [{ trigs := ts, seq := 3, trigGen := 1, lastStop := 5000 }], ins.gens := [(1, [(R.INS_Cc_STROBE.addr 7, 0xFFFF0010)]), (0, [])], ins.gen := 2 }
  ⟨cm [{ t := 1, pos := 2, start := 3, stop := 4, newest := 0, gen := 1, capture := false, beat := 2 }], []⟩

def wCameraTriggers4 : State :=
  let cm : (List Trig → Dev) := fun ts => { wit with ins.cams := List.replicate 7 {} ++ [{ trigs := ts, seq := 3, trigGen := 1, lastStop := 5000 }], ins.gens := [(1, [(R.INS_Cc_STROBE.addr 7, 0xFFFF0010)]), (0, [])], ins.gen := 2 }
  ⟨cm [{ t := 1, pos := 2, start := 3, stop := 4, newest := 0, gen := 1, capture := false, beat := 2, begun := true }, { t := 1, pos := 2, start := 3, stop := 4, newest := 0, gen := 1, capture := false, beat := 2, begun := true }], []⟩

def wCameraTriggers5 : State :=
  let cm : (List Trig → Dev) := fun ts => { wit with ins.cams := List.replicate 7 {} ++ [{ trigs := ts, seq := 3, trigGen := 1, lastStop := 5000 }], ins.gens := [(1, [(R.INS_Cc_STROBE.addr 7, 0xFFFF0010)]), (0, [])], ins.gen := 2 }
  ⟨cm [{ t := 1, pos := 2, start := 3, stop := 4, newest := 0, gen := 1, capture := false, beat := 2, begun := true, paired := true }, { t := 1, pos := 2, start := 3, stop := 4, newest := 0, gen := 1, capture := false, beat := 2, begun := true }], []⟩

theorem witness_CameraTriggers :
    (∃ (c : Fin 8) (o : Occur) (rest : List Occur) (s : State), s.Inv ∧ takeOcc c s.dev.web.occ = some (o, rest) ∧ let k := s.dev.cam c; let g := if k.seq = 0 then s.dev.ins.gen else k.trigGen; let start := o.t + s.dev.genRd g F.INS_Cc_STROBE_DELAY c; let stop := start + s.dev.genRd g F.INS_Cc_STROBE_WIDTH c; s.dev.camOn c = true ∧ k.lastStop ≤ start) ∧
    (∃ (c : Fin 8) (o : Occur) (rest : List Occur) (s : State), s.Inv ∧ takeOcc c s.dev.web.occ = some (o, rest) ∧ let k := s.dev.cam c; let g := if k.seq = 0 then s.dev.ins.gen else k.trigGen; let start := o.t + s.dev.genRd g F.INS_Cc_STROBE_DELAY c; let stop := start + s.dev.genRd g F.INS_Cc_STROBE_WIDTH c; s.dev.camOn c = true ∧ start < k.lastStop) ∧
    (∃ (c : Fin 8) (o : Occur) (rest : List Occur) (s : State), s.Inv ∧ takeOcc c s.dev.web.occ = some (o, rest) ∧ let k := s.dev.cam c; let g := if k.seq = 0 then s.dev.ins.gen else k.trigGen; let start := o.t + s.dev.genRd g F.INS_Cc_STROBE_DELAY c; let stop := start + s.dev.genRd g F.INS_Cc_STROBE_WIDTH c; s.dev.camOn c = false) ∧
    (∃ (c : Fin 8) (s : State), takeOcc c s.dev.web.occ = none) ∧
    (∃ (c : Fin 8) (before after : List Trig) (t : Trig) (s : State), s.Inv ∧ (s.dev.cam c).trigs = before ++ t :: after ∧ (∀ x ∈ before, x.begun = true) ∧ t.begun = false) ∧
    (∃ (c : Fin 8) (before after : List Trig) (t : Trig) (s : State), s.Inv ∧ (s.dev.cam c).trigs = before ++ t :: after ∧ (∀ x ∈ before, (x.begun && !x.ended) = false) ∧ t.begun = true ∧ t.ended = false) ∧
    (∃ (c : Fin 8) (s : State), s.Inv ∧ (∀ x ∈ (s.dev.cam c).trigs, x.begun = true)) ∧
    (∃ (c : Fin 8) (s : State), s.Inv ∧ (∀ x ∈ (s.dev.cam c).trigs, (x.begun && !x.ended) = false)) ∧
    (∃ (c : Fin 8) (s : State), s.Inv ∧ (∀ x ∈ (s.dev.cam c).trigs, x.paired = true)) ∧
    (∃ (c : Fin 8) (t : Trig) (s : State), let k := s.dev.cam c; let left := k.pair; s.Inv ∧ k.oldest = some t) :=
  ⟨⟨7, ({ entry := 0, t := 6000, pos := -5, mask := 1, width := 100, cams := 0xC0 }), ([{ entry := 0, t := 6000, pos := -5, mask := 1, width := 100, cams := 0x40 }]), wCameraTriggers0, inv_of (by decide +kernel), by decide +kernel, by decide +kernel, by decide +kernel⟩,
    ⟨7, ({ entry := 0, t := 600, pos := -5, mask := 1, width := 100, cams := 0xC0 }), ([{ entry := 0, t := 600, pos := -5, mask := 1, width := 100, cams := 0x40 }]), wCameraTriggers1, inv_of (by decide +kernel), by decide +kernel, by decide +kernel, by decide +kernel⟩,
    ⟨7, ({ entry := 0, t := 600, pos := -5, mask := 1, width := 100, cams := 0xC0 }), ([{ entry := 0, t := 600, pos := -5, mask := 1, width := 100, cams := 0x40 }]), wCameraTriggers2, inv_of (by decide +kernel), by decide +kernel, by decide +kernel⟩,
    ⟨7, ⟨wit, []⟩, by decide +kernel⟩,
    ⟨7, ([]), ([]), ({ t := 1, pos := 2, start := 3, stop := 4, newest := 0, gen := 1, capture := false, beat := 2 }), wCameraTriggers3, inv_of (by decide +kernel), by decide +kernel, by decide +kernel, by decide +kernel⟩,
    ⟨7, ([]), ([{ t := 1, pos := 2, start := 3, stop := 4, newest := 0, gen := 1, capture := false, beat := 2, begun := true }]), ({ t := 1, pos := 2, start := 3, stop := 4, newest := 0, gen := 1, capture := false, beat := 2, begun := true }), wCameraTriggers4, inv_of (by decide +kernel), by decide +kernel, by decide +kernel, by decide +kernel, by decide +kernel⟩,
    ⟨7, ⟨wit, []⟩, inv_of (by decide +kernel), by decide +kernel⟩,
    ⟨7, ⟨wit, []⟩, inv_of (by decide +kernel), by decide +kernel⟩,
    ⟨7, ⟨wit, []⟩, inv_of (by decide +kernel), by decide +kernel⟩,
    ⟨7, ({ t := 1, pos := 2, start := 3, stop := 4, newest := 0, gen := 1, capture := false, beat := 2, begun := true }), wCameraTriggers5, inv_of (by decide +kernel), by decide +kernel⟩⟩

def wCameraLines0 : State :=
  let base : Dev := { wit with pat.loaded.inspect.cams := List.replicate 8 { pixels := 2, frameLines := 2, webOffset := 3 } }
  ⟨base.setFunc (.cam 7) {}, []⟩

def wCameraLines1 : State :=
  let tr : Trig := { t := 1, pos := 5 * 2 ^ 32 + 3, start := 3, stop := 4, newest := 0, gen := 0, capture := false, beat := 2, begun := true }
  let base : Dev := { wit with pat.loaded.inspect.cams := List.replicate 8 { pixels := 2, frameLines := 2, webOffset := 3 } }
  ⟨{ base with mem := [(6, 255), (8, 255), (40, 9)], ins.cams := List.replicate 7 ({} : Cam) ++ [({ trigs := [{ tr with capture := true }], frame := some { begun := false, number := 5 } } : Cam)] }.wr F.INS_Cc_FBUF_BASE 7 0 |>.wr F.INS_Cc_FBUF_FRAMES 7 5, []⟩

def wCameraLines2 : State :=
  let tr : Trig := { t := 1, pos := 5 * 2 ^ 32 + 3, start := 3, stop := 4, newest := 0, gen := 0, capture := false, beat := 2, begun := true }
  let base : Dev := { wit with pat.loaded.inspect.cams := List.replicate 8 { pixels := 2, frameLines := 2, webOffset := 3 } }
  ⟨{ base with ins.cams := List.replicate 7 {} ++ [{ trigs := [tr], frame := some { begun := true, lines := 1 } }] }, []⟩

def wCameraLines3 : State :=
  let tr : Trig := { t := 1, pos := 5 * 2 ^ 32 + 3, start := 3, stop := 4, newest := 0, gen := 0, capture := false, beat := 2, begun := true }
  let base : Dev := { wit with pat.loaded.inspect.cams := List.replicate 8 { pixels := 2, frameLines := 2, webOffset := 3 } }
  ⟨{ base with ins.cams := List.replicate 7 {} ++ [{ trigs := [tr], frame := some { begun := true, lines := 2 } }] }, []⟩

def wCameraLines4 : State :=
  let base : Dev := { wit with pat.loaded.inspect.cams := List.replicate 8 { pixels := 2, frameLines := 2, webOffset := 3 } }
  ⟨base, []⟩

def wCameraLines5 : State :=
  let base : Dev := { wit with pat.loaded.inspect.cams := List.replicate 8 { pixels := 2, frameLines := 2, webOffset := 3 } }
  ⟨{ base with ins.cams := List.replicate 7 {} ++ [{ waiting := [⟨1, 5 * 2 ^ 32 + 3, [1, 2, 3]⟩], frame := some { begun := true, lines := 2, number := 7 } }] }, []⟩

theorem witness_CameraLines_part1 :
    (∃ (c : Fin 8) (pk : CsiPacket) (s : State), s.Inv ∧ s.dev.camOn c = false) ∧
    (∃ (c : Fin 8) (pk : CsiPacket) (s : State), s.Inv ∧ ∃ (f : Frame) (t : Trig), s.dev.camOn c = true ∧ pk.eccOk = true ∧ s.dev.lineBad c pk = 0 ∧ (s.dev.cam c).frame = some f ∧ (s.dev.cam c).oldest = some t ∧ f.lines < (s.dev.camSec c).frameLines) ∧
    (∃ (c : Fin 8) (pk : CsiPacket) (s : State), s.Inv ∧ ∃ (f : Frame) (t : Trig), s.dev.camOn c = true ∧ pk.eccOk = true ∧ s.dev.lineBad c pk = 0 ∧ (s.dev.cam c).frame = some f ∧ (s.dev.cam c).oldest = some t ∧ f.lines < (s.dev.camSec c).frameLines ∧ f.begun = true ∧ f.capture = false) ∧
    (∃ (c : Fin 8) (pk : CsiPacket) (s : State), s.Inv ∧ ∃ (f : Frame) (t : Trig), s.dev.camOn c = true ∧ pk.eccOk = true ∧ s.dev.lineBad c pk = 0 ∧ (s.dev.cam c).frame = some f ∧ (s.dev.cam c).oldest = some t ∧ (s.dev.camSec c).frameLines ≤ f.lines) ∧
    (∃ (c : Fin 8) (pk : CsiPacket) (s : State), s.Inv ∧ s.dev.camOn c = true ∧ pk.eccOk = true ∧ s.dev.lineBad c pk = 0 ∧ ((s.dev.cam c).frame = none ∨ (s.dev.cam c).oldest = none)) ∧
    (∃ (c : Fin 8) (pk : CsiPacket) (s : State), s.Inv ∧ s.dev.camOn c = true ∧ (pk.eccOk = false ∨ s.dev.lineBad c pk ≠ 0)) :=
  ⟨⟨7, ({ payload := [1, 2, 3] }), wCameraLines0, inv_of (by decide +kernel), by decide +kernel⟩,
    ⟨7, ({ payload := [1, 2, 3] }), wCameraLines1, inv_of (by decide +kernel), ({ begun := false, number := 5 }), ({ t := 1, pos := 5 * 2 ^ 32 + 3, start := 3, stop := 4, newest := 0, gen := 0, capture := true, beat := 2, begun := true }), by decide +kernel, by decide +kernel, by decide +kernel, by decide +kernel, by decide +kernel, by decide +kernel⟩,
    ⟨7, ({ payload := [1, 2, 3] }), wCameraLines2, inv_of (by decide +kernel), ({ begun := true, lines := 1 }), ({ t := 1, pos := 5 * 2 ^ 32 + 3, start := 3, stop := 4, newest := 0, gen := 0, capture := false, beat := 2, begun := true }), by decide +kernel, by decide +kernel, by decide +kernel, by decide +kernel, by decide +kernel, by decide +kernel, by decide +kernel, by decide +kernel⟩,
    ⟨7, ({ payload := [1, 2, 3] }), wCameraLines3, inv_of (by decide +kernel), ({ begun := true, lines := 2 }), ({ t := 1, pos := 5 * 2 ^ 32 + 3, start := 3, stop := 4, newest := 0, gen := 0, capture := false, beat := 2, begun := true }), by decide +kernel, by decide +kernel, by decide +kernel, by decide +kernel, by decide +kernel, by decide +kernel⟩,
    ⟨7, ({ payload := [1, 2, 3] }), wCameraLines4, inv_of (by decide +kernel), by decide +kernel, by decide +kernel, by decide +kernel, by decide +kernel⟩,
    ⟨7, ({ payload := [1, 2, 3, 4] }), wCameraLines2, inv_of (by decide +kernel), by decide +kernel, by decide +kernel⟩⟩

theorem witness_CameraLines_part2 :
    (∃ (c : Fin 8) (s : State), s.Inv ∧ s.dev.camOn c = true) ∧
    (∃ (c : Fin 8) (s : State), s.Inv ∧ s.dev.camOn c = true) ∧
    (∃ (c : Fin 8) (s : State), s.Inv ∧ ∃ kind : CsiOther, s.dev.camOn c = false) ∧
    (∃ (c : Fin 8) (l : CamLine) (rest : List CamLine) (f : Frame) (s : State), s.Inv ∧ (s.dev.cam c).waiting = l :: rest ∧ (s.dev.cam c).frame = some f) ∧
    (∃ (c : Fin 8) (s : State), ((s.dev.cam c).waiting = [] ∨ (s.dev.cam c).frame = none)) :=
  ⟨⟨7, wCameraLines4, inv_of (by decide +kernel), by decide +kernel⟩,
    ⟨7, wCameraLines4, inv_of (by decide +kernel), by decide +kernel⟩,
    ⟨7, wCameraLines0, inv_of (by decide +kernel), .wrongLong, by decide +kernel⟩,
    ⟨7, (⟨1, 5 * 2 ^ 32 + 3, [1, 2, 3]⟩), ([]), ({ begun := true, lines := 2, number := 7 }), wCameraLines5, inv_of (by decide +kernel), by decide +kernel, by decide +kernel⟩,
    ⟨7, ⟨wit, []⟩, by decide +kernel⟩⟩

def wFramesSettingsAndI2c0 : State :=
  let base : Dev := { wit with pat.loaded.inspect.cams := List.replicate 8 { pixels := 2, frameLines := 2, webOffset := 3 } }
  ⟨({ base with ins.cams := List.replicate 7 ({} : Cam) ++ [({ frame := some { lines := 2, number := 7 } } : Cam)] }.wr F.INS_STAT_HEAD_HEAD 0 3).wr F.INS_STAT_RING_LOG_ENTRIES 0 2, []⟩

def wFramesSettingsAndI2c1 : State :=
  let base : Dev := { wit with pat.loaded.inspect.cams := List.replicate 8 { pixels := 2, frameLines := 2, webOffset := 3 } }
  ⟨base.setFunc (.cam 7) {}, []⟩

def wFramesSettingsAndI2c2 : State :=
  let base : Dev := { wit with pat.loaded.inspect.cams := List.replicate 8 { pixels := 2, frameLines := 2, webOffset := 3 } }
  ⟨base, []⟩

def wFramesSettingsAndI2c3 : State :=
  let base : Dev := { wit with pat.loaded.inspect.cams := List.replicate 8 { pixels := 2, frameLines := 2, webOffset := 3 } }
  ⟨{ base with mem := [(1, 1), (0x3FFF, 1), (0x5000, 2)], ins.cams := List.replicate 7 ({} : Cam) ++ [({ frame := some { begun := true, lines := 1, number := 7, gen := 70000 } } : Cam)] }.wr F.INS_STAT_RING_BASE 0 4, []⟩

def wFramesSettingsAndI2c4 : State :=
  let base : Dev := { wit with pat.loaded.inspect.cams := List.replicate 8 { pixels := 2, frameLines := 2, webOffset := 3 } }
  ⟨({ base with mem := [(1, 1), (0x3FFF, 1), (0x5000, 2)], ins.cams := List.replicate 7 ({} : Cam) ++ [({ frame := some { begun := true, lines := 2, number := 7, gen := 7, excess := 1, swatch := true, suspect := true, absent := true, compared := 5, sumM := 3, sumE := 100, sumAbs := 5, first := -7, startBeat := 99, invalid := 3 } } : Cam)] }.wr F.INS_STAT_HEAD_HEAD 0 3).wr F.INS_STAT_RING_LOG_ENTRIES 0 2 |>.wr F.INS_STAT_RING_BASE 0 4, []⟩

def wFramesSettingsAndI2c5 : State :=
  let base : Dev := { wit with pat.loaded.inspect.cams := List.replicate 8 { pixels := 2, frameLines := 2, webOffset := 3 } }
  ⟨base.wr F.INS_COMMIT_PENDING 0 1, []⟩

def wFramesSettingsAndI2c6 : State :=
  let base : Dev := { wit with pat.loaded.inspect.cams := List.replicate 8 { pixels := 2, frameLines := 2, webOffset := 3 } }
  ⟨{ base with ins.probing := true }, []⟩

def wFramesSettingsAndI2c7 : State :=
  let base : Dev := { wit with pat.loaded.inspect.cams := List.replicate 8 { pixels := 2, frameLines := 2, webOffset := 3 } }
  ⟨({ base with ins.i2c := [none, some { dev := 1, reg := 2, read := true, count := 3, data := 0 }] }).wr F.INS_I2Cm_STAT_BUSY 1 1, []⟩

def wFramesSettingsAndI2c8 : State :=
  let base : Dev := { wit with pat.loaded.inspect.cams := List.replicate 8 { pixels := 2, frameLines := 2, webOffset := 3 } }
  ⟨({ base with ins.probing := true, ins.probe := [[1], [4, 5]], ins.i2c := [none, some { dev := 1, reg := 2, read := true, count := 4, data := 0 }] }).wr F.INS_I2Cm_STAT_BUSY 1 1, []⟩

def wFramesSettingsAndI2c9 : State :=
  let base : Dev := { wit with pat.loaded.inspect.cams := List.replicate 8 { pixels := 2, frameLines := 2, webOffset := 3 } }
  ⟨{ base with ins.probing := true, ins.probe := [[1], [4, 5, 6]] }, []⟩

theorem witness_FramesSettingsAndI2c_part1 :
    (∃ (c : Fin 8) (s : State), s.Inv ∧ s.dev.camOn c = true) ∧
    (∃ (c : Fin 8) (s : State), s.Inv ∧ s.dev.camOn c = false) ∧
    (∃ (c : Fin 8) (s : State), s.Inv ∧ s.dev.camOn c = false) ∧
    (∃ (c : Fin 8) (s : State), s.Inv ∧ (s.dev.cam c).frame = none) ∧
    (∃ (c : Fin 8) (s : State), s.Inv ∧ (s.dev.cam c).frame = none) ∧
    (∃ (c : Fin 8) (s : State), s.Inv ∧ (s.dev.cam c).frame ≠ none ∧ s.dev.camOn c = true) ∧
    (∃ (c : Fin 8) (s : State), s.Inv ∧ (s.dev.cam c).frame ≠ none) ∧
    (∃ (m : Master) (s : State), s.Inv ∧ s.dev.Takes m R.INS_COMMIT 0) :=
  ⟨⟨7, wFramesSettingsAndI2c0, inv_of (by decide +kernel), by decide +kernel⟩,
    ⟨7, wFramesSettingsAndI2c1, inv_of (by decide +kernel), by decide +kernel⟩,
    ⟨7, wFramesSettingsAndI2c1, inv_of (by decide +kernel), by decide +kernel⟩,
    ⟨7, wFramesSettingsAndI2c2, inv_of (by decide +kernel), by decide +kernel⟩,
    ⟨7, wFramesSettingsAndI2c2, inv_of (by decide +kernel), by decide +kernel⟩,
    ⟨7, wFramesSettingsAndI2c3, inv_of (by decide +kernel), by decide +kernel, by decide +kernel⟩,
    ⟨7, wFramesSettingsAndI2c4, inv_of (by decide +kernel), by decide +kernel⟩,
    ⟨.p1, wFramesSettingsAndI2c5, inv_of (by decide +kernel), by decide +kernel⟩⟩

theorem witness_FramesSettingsAndI2c_part2 :
    (∃ (m : Master) (k : Fin 2) (val : Nat) (s : State), s.Inv ∧ s.dev.Takes m R.INS_I2Cm_CMD k ∧ let count := clampNat 1 4 (val / 2 ^ 24 % 8); let j : I2cJob := { dev := val % 128, reg := val / 2 ^ 8 % 2 ^ 16, read := val.testBit 7, count := count, data := s.dev.rd F.INS_I2Cm_DATA_DATA k, speed := val / 2 ^ 28 % 4, held := s.dev.ins.probing }; s.dev.i2cJob k = none ∧ setsBit val 32) ∧
    (∃ (m : Master) (k : Fin 2) (val : Nat) (s : State), s.Inv ∧ s.dev.Takes m R.INS_I2Cm_CMD k ∧ let count := clampNat 1 4 (val / 2 ^ 24 % 8); let j : I2cJob := { dev := val % 128, reg := val / 2 ^ 8 % 2 ^ 16, read := val.testBit 7, count := count, data := s.dev.rd F.INS_I2Cm_DATA_DATA k, speed := val / 2 ^ 28 % 4, held := s.dev.ins.probing }; (s.dev.i2cJob k ≠ none ∨ val.testBit 32 = false)) ∧
    (∃ (k : Fin 2) (j : I2cJob) (result data : Nat) (s : State), s.Inv ∧ s.dev.i2cJob k = some j ∧ j.held = false) ∧
    (∃ (k : Fin 2) (j : I2cJob) (result data : Nat) (s : State), s.Inv ∧ s.dev.i2cJob k = some j ∧ j.held = false) ∧
    (∃ (k : Fin 2) (result data : Nat) (s : State), s.dev.i2cRuns k = false ∧ (s.dev.ins.probing = false ∨ at' s.dev.ins.probe k = [])) ∧
    (∃ (k : Fin 2) (result data : Nat) (s : State), s.dev.i2cRuns k = false ∧ (s.dev.ins.probing = false ∨ at' s.dev.ins.probe k = [])) ∧
    (∃ (k : Fin 2) (c : Nat) (rest : List Nat) (result data : Nat) (s : State), s.dev.i2cRuns k = false ∧ s.dev.ins.probing = true ∧ at' s.dev.ins.probe k = c :: rest) ∧
    (∃ (k : Fin 2) (c : Nat) (rest : List Nat) (result data : Nat) (s : State), s.dev.i2cRuns k = false ∧ s.dev.ins.probing = true ∧ at' s.dev.ins.probe k = c :: rest) :=
  ⟨⟨.p1, 1, (2 ^ 32 + 0xF0FFFFFF), wFramesSettingsAndI2c6, inv_of (by decide +kernel), by decide +kernel, by decide +kernel, by decide +kernel⟩,
    ⟨.p1, 1, 0xFFFFFFFF, wFramesSettingsAndI2c2, inv_of (by decide +kernel), by decide +kernel, by decide +kernel⟩,
    ⟨1, ({ dev := 1, reg := 2, read := true, count := 3, data := 0 }), 4, 0xFFFFFFFF, wFramesSettingsAndI2c7, inv_of (by decide +kernel), by decide +kernel, by decide +kernel⟩,
    ⟨1, ({ dev := 1, reg := 2, read := true, count := 4, data := 0 }), 0, 77, wFramesSettingsAndI2c8, inv_of (by decide +kernel), by decide +kernel, by decide +kernel⟩,
    ⟨1, 0, 5, wFramesSettingsAndI2c2, by decide +kernel, by decide +kernel⟩,
    ⟨1, 0, 5, wFramesSettingsAndI2c2, by decide +kernel, by decide +kernel⟩,
    ⟨1, 4, ([5, 6]), 5, 5, wFramesSettingsAndI2c9, by decide +kernel, by decide +kernel, by decide +kernel⟩,
    ⟨1, 4, ([5, 6]), 5, 5, wFramesSettingsAndI2c9, by decide +kernel, by decide +kernel, by decide +kernel⟩⟩

def wNozzleVerdicts0 : State :=
  let mk : (Acc → Dev) := fun a => { wit with nzh.acc := [(131071, a)] }
  ⟨(mk { n := 255, e := 1000 }), []⟩

def wNozzleVerdicts1 : State :=
  let mk : (Acc → Dev) := fun a => { wit with nzh.acc := [(131071, a)] }
  ⟨(mk { n := 256, e := 0 }).wr F.NZ_HEALTH_RUN 131071 15 |>.wr F.NZ_HEALTH_STATE 131071 1, []⟩

def wNozzleVerdicts2 : State :=
  let mk : (Acc → Dev) := fun a => { wit with nzh.acc := [(131071, a)] }
  ⟨(mk { n := 70000, e := 1000 }).wr F.NZ_HEALTH_RUN 131071 15 |>.wr F.NZ_CTRL_AUTO_SWATCH 0 0, []⟩

def wNozzleVerdicts3 : State :=
  let mk : (Acc → Dev) := fun a => { wit with nzh.acc := [(131071, a)] }
  ⟨(mk { n := 256, e := 1000 }).wr F.NZ_CTRL_AUTO_SWATCH 0 1, []⟩

def wNozzleVerdicts4 : State :=
  let mk : (Acc → Dev) := fun a => { wit with nzh.acc := [(131071, a)] }
  ⟨(mk { n := 256, e := 1000, m := 500 }).wr F.NZ_HEALTH_RUN 131071 (wit.rdO F.NZ_DETECT_CONFIRM - 1) |>.wr F.NZ_HEALTH_STATE 131071 1 |>.wr F.NZ_CTRL_WEAK_ACT 0 1, []⟩

def wNozzleVerdicts5 : State :=
  let mk : (Acc → Dev) := fun a => { wit with nzh.acc := [(131071, a)] }
  ⟨(mk { n := 256, e := 1000, m := 1000, l := 100, r := 100 }).wr F.NZ_HEALTH_RUN 131071 14 |>.wr F.NZ_HEALTH_STATE 131071 1, []⟩

def wNozzleVerdicts6 : State :=
  let mk : (Acc → Dev) := fun a => { wit with nzh.acc := [(131071, a)] }
  ⟨(mk { n := 256, e := 1000, m := 1000, l := 100, r := 100 }).wr F.NZ_HEALTH_RUN 131071 14, []⟩

def wNozzleVerdicts7 : State :=
  let mk : (Acc → Dev) := fun a => { wit with nzh.acc := [(131071, a)] }
  ⟨{ (mk { n := 256, e := 1000, m := 0 }).wr F.NZ_HEALTH_RUN 131071 (wit.rdO F.NZ_DETECT_CONFIRM - 1) |>.wr F.NZ_HEALTH_STATE 131071 2 with nzh.byWindow := [131071] }, []⟩

theorem witness_NozzleVerdicts :
    (∃ (nz : Fin 131072) (s : State), let a := mapGet s.dev.nzh.acc nz {}; let run := s.dev.rd F.NZ_HEALTH_RUN nz; let confirm := s.dev.rdO F.NZ_DETECT_CONFIRM; let free : List Part := if a.e = 0 then [.freeCtr] else []; s.Inv ∧ (s.dev.funcOn .nzh = false ∨ a.n < s.dev.rdO F.NZ_DETECT_WIN_READINGS)) ∧
    (∃ (nz : Fin 131072) (s : State), let a := mapGet s.dev.nzh.acc nz {}; let run := s.dev.rd F.NZ_HEALTH_RUN nz; let confirm := s.dev.rdO F.NZ_DETECT_CONFIRM; let free : List Part := if a.e = 0 then [.freeCtr] else []; s.Inv ∧ s.dev.funcOn .nzh = true ∧ s.dev.rdO F.NZ_DETECT_WIN_READINGS ≤ a.n) ∧
    (∃ (nz : Fin 131072) (s : State), let a := mapGet s.dev.nzh.acc nz {}; let run := s.dev.rd F.NZ_HEALTH_RUN nz; let confirm := s.dev.rdO F.NZ_DETECT_CONFIRM; let free : List Part := if a.e = 0 then [.freeCtr] else []; s.Inv ∧ s.dev.funcOn .nzh = true ∧ s.dev.rdO F.NZ_DETECT_WIN_READINGS ≤ a.n ∧ s.dev.healthState nz ≤ 1 ∧ s.dev.verdict a ≠ .healthy ∧ run + 1 ≠ confirm ∧ (s.dev.healthState nz = 1 ∨ s.dev.rd F.NZ_CTRL_AUTO_SWATCH = 0)) ∧
    (∃ (nz : Fin 131072) (s : State), let a := mapGet s.dev.nzh.acc nz {}; let run := s.dev.rd F.NZ_HEALTH_RUN nz; let confirm := s.dev.rdO F.NZ_DETECT_CONFIRM; let free : List Part := if a.e = 0 then [.freeCtr] else []; s.Inv ∧ s.dev.funcOn .nzh = true ∧ s.dev.rdO F.NZ_DETECT_WIN_READINGS ≤ a.n ∧ s.dev.healthState nz = 0 ∧ s.dev.verdict a ≠ .healthy ∧ run + 1 ≠ confirm ∧ s.dev.rd F.NZ_CTRL_AUTO_SWATCH = 1) ∧
    (∃ (nz : Fin 131072) (s : State), let a := mapGet s.dev.nzh.acc nz {}; let run := s.dev.rd F.NZ_HEALTH_RUN nz; let confirm := s.dev.rdO F.NZ_DETECT_CONFIRM; let free : List Part := if a.e = 0 then [.freeCtr] else []; s.Inv ∧ s.dev.funcOn .nzh = true ∧ s.dev.rdO F.NZ_DETECT_WIN_READINGS ≤ a.n ∧ s.dev.healthState nz ≤ 1 ∧ s.dev.verdict a ≠ .healthy ∧ run + 1 = confirm) ∧
    (∃ (nz : Fin 131072) (s : State), let a := mapGet s.dev.nzh.acc nz {}; let run := s.dev.rd F.NZ_HEALTH_RUN nz; let confirm := s.dev.rdO F.NZ_DETECT_CONFIRM; let free : List Part := if a.e = 0 then [.freeCtr] else []; s.Inv ∧ s.dev.funcOn .nzh = true ∧ s.dev.rdO F.NZ_DETECT_WIN_READINGS ≤ a.n ∧ s.dev.healthState nz = 1 ∧ s.dev.verdict a = .healthy) ∧
    (∃ (nz : Fin 131072) (s : State), let a := mapGet s.dev.nzh.acc nz {}; let run := s.dev.rd F.NZ_HEALTH_RUN nz; let confirm := s.dev.rdO F.NZ_DETECT_CONFIRM; let free : List Part := if a.e = 0 then [.freeCtr] else []; s.Inv ∧ s.dev.funcOn .nzh = true ∧ s.dev.rdO F.NZ_DETECT_WIN_READINGS ≤ a.n ∧ ((s.dev.healthState nz = 0 ∧ s.dev.verdict a = .healthy) ∨ (s.dev.healthState nz = 2 ∧ s.dev.entry nz % 4 ≠ 0) ∨ s.dev.healthState nz = 3)) ∧
    (∃ (nz : Fin 131072) (s : State), let a := mapGet s.dev.nzh.acc nz {}; let run := s.dev.rd F.NZ_HEALTH_RUN nz; let confirm := s.dev.rdO F.NZ_DETECT_CONFIRM; let free : List Part := if a.e = 0 then [.freeCtr] else []; s.Inv ∧ s.dev.funcOn .nzh = true ∧ s.dev.rdO F.NZ_DETECT_WIN_READINGS ≤ a.n ∧ s.dev.healthState nz = 2 ∧ s.dev.entry nz % 4 = 0 ∧ (s.dev.verdict a = .missing ∨ s.dev.verdict a = .deflected)) :=
  ⟨⟨131071, wNozzleVerdicts0, inv_of (by decide +kernel), by decide +kernel⟩,
    ⟨131071, wNozzleVerdicts1, inv_of (by decide +kernel), by decide +kernel, by decide +kernel⟩,
    ⟨131071, wNozzleVerdicts2, inv_of (by decide +kernel), by decide +kernel, by decide +kernel, by decide +kernel, by decide +kernel, by decide +kernel, by decide +kernel⟩,
    ⟨131071, wNozzleVerdicts3, inv_of (by decide +kernel), by decide +kernel, by decide +kernel, by decide +kernel, by decide +kernel, by decide +kernel, by decide +kernel⟩,
    ⟨131071, wNozzleVerdicts4, inv_of (by decide +kernel), by decide +kernel, by decide +kernel, by decide +kernel, by decide +kernel, by decide +kernel⟩,
    ⟨131071, wNozzleVerdicts5, inv_of (by decide +kernel), by decide +kernel, by decide +kernel, by decide +kernel, by decide +kernel⟩,
    ⟨131071, wNozzleVerdicts6, inv_of (by decide +kernel), by decide +kernel, by decide +kernel, by decide +kernel⟩,
    ⟨131071, wNozzleVerdicts7, inv_of (by decide +kernel), by decide +kernel, by decide +kernel, by decide +kernel, by decide +kernel, by decide +kernel⟩⟩

def wSwatchesAndCameraLines0 : State :=
  let ln : CompLine := { cam := 7, m := 5, swatch := false, suspect := false, absent := false, along := 1, frame := 0, slot := 0, gen := 0, col0 := 0, ms := [1, 2, 3], es := [1, 2, 3], valid := [true, true, true], cmp := [true, true, true] }
  ⟨{ wit.setFunc (.cam 7) { st := .wedged } with nzh.inbox := [{ ln with cam := 1 }, ln, ln] }, []⟩

def wSwatchesAndCameraLines1 : State :=
  let ln : CompLine := { cam := 7, m := 5, swatch := false, suspect := false, absent := false, along := 1, frame := 0, slot := 0, gen := 0, col0 := 0, ms := [1, 2, 3], es := [1, 2, 3], valid := [true, true, true], cmp := [true, true, true] }
  ⟨{ wit with nzh.inbox := [{ ln with cam := 1 }] }, []⟩

def wSwatchesAndCameraLines2 : State :=
  let ln : CompLine := { cam := 7, m := 5, swatch := false, suspect := false, absent := false, along := 1, frame := 0, slot := 0, gen := 0, col0 := 0, ms := [1, 2, 3], es := [1, 2, 3], valid := [true, true, true], cmp := [true, true, true] }
  ⟨{ wit.setFunc .nzh {} with nzh.inbox := [{ ln with cam := 1 }, ln] }, []⟩

def wSwatchesAndCameraLines3 : State :=
  let ln : CompLine := { cam := 7, m := 5, swatch := false, suspect := false, absent := false, along := 1, frame := 0, slot := 0, gen := 0, col0 := 0, ms := [1, 2, 3], es := [1, 2, 3], valid := [true, true, true], cmp := [true, true, true] }
  ⟨{ wit with nzh.inbox := [{ ln with cam := 1 }, ln] }, []⟩

def wSwatchesAndCameraLines4 : State :=
  let ln : CompLine := { cam := 7, m := 5, swatch := false, suspect := false, absent := false, along := 1, frame := 0, slot := 0, gen := 0, col0 := 0, ms := [1, 2, 3], es := [1, 2, 3], valid := [true, true, true], cmp := [true, true, true] }
  ⟨{ wit with nzh.inbox := [{ ln with cam := 1 }, { ln with suspect := true }] }, []⟩

def wSwatchesAndCameraLines5 : State :=
  ⟨{ wit with las.swatches := [{ uid := 3, first := -7, lines := 10, step := 1, size := 1, nzh := true }], nzh.beyond := [(3, 255)], nzh.sw := [(1, { n := 1, e := 100 }), (131071, { n := 5, e := 1000, m := 1000 })] }, []⟩

def wSwatchesAndCameraLines6 : State :=
  ⟨{ wit with las.swatches := [{ uid := 3, first := -7, lines := 10, step := 1, size := 1, nzh := true }], nzh.beyond := [(3, 127)] }, []⟩

def wSwatchesAndCameraLines7 : State :=
  ⟨{ (wit.wr F.NZ_CTRL_SWATCH_PAGES 0 2) with web.cues := 5, nzh.cues := 3 }, []⟩

def wSwatchesAndCameraLines8 : State :=
  ⟨{ (wit.wr F.NZ_CTRL_SWATCH_PAGES 0 2) with web.cues := 4, nzh.cues := 3 }, []⟩

theorem witness_SwatchesAndCameraLines_part1 :
    (∃ (c : Fin 8) (s : State), s.Inv ∧ s.dev.wedged (.cam c) = true) ∧
    (∃ (c : Fin 8) (s : State), s.Inv ∧ s.dev.wedged (.cam c) = false ∧ s.dev.nzh.inbox.find? (fun x => decide (x.cam = c.val)) = none) ∧
    (∃ (c : Fin 8) (l : CompLine) (s : State), let k := l.crop s.dev.printSpan.1 s.dev.printSpan.2; s.Inv ∧ s.dev.wedged (.cam c) = false ∧ s.dev.nzh.inbox.find? (fun x => decide (x.cam = c.val)) = some l ∧ s.dev.funcOn .nzh = false) ∧
    (∃ (c : Fin 8) (l : CompLine) (s : State), let k := l.crop s.dev.printSpan.1 s.dev.printSpan.2; s.Inv ∧ s.dev.wedged (.cam c) = false ∧ s.dev.nzh.inbox.find? (fun x => decide (x.cam = c.val)) = some l ∧ s.dev.funcOn .nzh = true) ∧
    (∃ (c : Fin 8) (l : CompLine) (s : State), let k := l.crop s.dev.printSpan.1 s.dev.printSpan.2; s.Inv ∧ s.dev.wedged (.cam c) = false ∧ s.dev.nzh.inbox.find? (fun x => decide (x.cam = c.val)) = some l ∧ s.dev.funcOn .nzh = true ∧ (k.ms = [] ∨ (l.swatch = false ∧ (l.suspect = true ∨ l.absent = true)))) ∧
    (∃ (c : Fin 8) (l : CompLine) (s : State), let k := l.crop s.dev.printSpan.1 s.dev.printSpan.2; s.Inv ∧ s.dev.wedged (.cam c) = false ∧ s.dev.nzh.inbox.find? (fun x => decide (x.cam = c.val)) = some l ∧ s.dev.funcOn .nzh = true ∧ l.swatch = false ∧ l.suspect = false ∧ l.absent = false ∧ k.ms ≠ []) :=
  ⟨⟨7, wSwatchesAndCameraLines0, inv_of (by decide +kernel), by decide +kernel⟩,
    ⟨7, wSwatchesAndCameraLines1, inv_of (by decide +kernel), by decide +kernel, by decide +kernel⟩,
    ⟨7, ({ cam := 7, m := 5, swatch := false, suspect := false, absent := false, along := 1, frame := 0, slot := 0, gen := 0, col0 := 0, ms := [1, 2, 3], es := [1, 2, 3], valid := [true, true, true], cmp := [true, true, true] }), wSwatchesAndCameraLines2, inv_of (by decide +kernel), by decide +kernel, by decide +kernel, by decide +kernel⟩,
    ⟨7, ({ cam := 7, m := 5, swatch := false, suspect := false, absent := false, along := 1, frame := 0, slot := 0, gen := 0, col0 := 0, ms := [1, 2, 3], es := [1, 2, 3], valid := [true, true, true], cmp := [true, true, true] }), wSwatchesAndCameraLines3, inv_of (by decide +kernel), by decide +kernel, by decide +kernel, by decide +kernel⟩,
    ⟨7, ({ cam := 7, m := 5, swatch := false, suspect := true, absent := false, along := 1, frame := 0, slot := 0, gen := 0, col0 := 0, ms := [1, 2, 3], es := [1, 2, 3], valid := [true, true, true], cmp := [true, true, true] }), wSwatchesAndCameraLines4, inv_of (by decide +kernel), by decide +kernel, by decide +kernel, by decide +kernel, by decide +kernel⟩,
    ⟨7, ({ cam := 7, m := 5, swatch := false, suspect := false, absent := false, along := 1, frame := 0, slot := 0, gen := 0, col0 := 0, ms := [1, 2, 3], es := [1, 2, 3], valid := [true, true, true], cmp := [true, true, true] }), wSwatchesAndCameraLines3, inv_of (by decide +kernel), by decide +kernel, by decide +kernel, by decide +kernel, by decide +kernel, by decide +kernel, by decide +kernel, by decide +kernel⟩⟩

theorem witness_SwatchesAndCameraLines_part2 :
    (∃ (w : Swatch) (s : State), s.Inv ∧ s.dev.las.swatches.find? (fun x => !x.read) = some w ∧ s.dev.funcOn .nzh = true ∧ (∀ c ∈ s.dev.camsOn, (mapGet s.dev.nzh.beyond w.uid 0).testBit c = true)) ∧
    (∃ (w : Swatch) (s : State), s.Inv ∧ s.dev.las.swatches.find? (fun x => !x.read) = some w ∧ (s.dev.funcOn .nzh = false ∨ (∃ c ∈ s.dev.camsOn, (mapGet s.dev.nzh.beyond w.uid 0).testBit c = false))) ∧
    (∃ s : State, s.dev.las.swatches.find? (fun x => !x.read) = none) ∧
    (∃ s : State, let n := s.dev.rd F.NZ_CTRL_SWATCH_PAGES; s.Inv ∧ s.dev.funcOn .nzh = true ∧ n ≠ 0 ∧ s.dev.nzh.cues + n ≤ s.dev.web.cues) ∧
    (∃ s : State, let n := s.dev.rd F.NZ_CTRL_SWATCH_PAGES; s.Inv ∧ (s.dev.funcOn .nzh = false ∨ n = 0 ∨ s.dev.web.cues < s.dev.nzh.cues + n)) :=
  ⟨⟨({ uid := 3, first := -7, lines := 10, step := 1, size := 1, nzh := true }), wSwatchesAndCameraLines5, inv_of (by decide +kernel), by decide +kernel, by decide +kernel, by decide +kernel⟩,
    ⟨({ uid := 3, first := -7, lines := 10, step := 1, size := 1, nzh := true }), wSwatchesAndCameraLines6, inv_of (by decide +kernel), by decide +kernel, by decide +kernel⟩,
    ⟨⟨wit, []⟩, by decide +kernel⟩,
    ⟨wSwatchesAndCameraLines7, inv_of (by decide +kernel), by decide +kernel, by decide +kernel, by decide +kernel⟩,
    ⟨wSwatchesAndCameraLines8, inv_of (by decide +kernel), by decide +kernel⟩⟩

def wSubstitutionMap0 : State :=
  ⟨{ wit with nzh.changes := [{ nz := 131071, entry := 3, source := 1, kind := 2, hit := 5, defl := -3 }] }, []⟩

def wSubstitutionMap1 : State :=
  ⟨{ wit with nzh.changes := [{ nz := 1, entry := 15, source := 1, kind := 2, hit := 5, defl := -3 }] }.setEntry 1 4, []⟩

def wSubstitutionMap2 : State :=
  ⟨wit.setReg R.LA_SUBST 16383 0x76543210, []⟩

theorem witness_SubstitutionMap :
    (∃ (s : State), s.Inv ∧ s.dev.nzh.changes = [] ∧ s.dev.nzh.changed.1 = 0) ∧
    (∃ (ch : NzChange) (s : State), let head := s.dev.rd F.NZ_AUDIT_HEAD; s.Inv ∧ s.dev.nzh.changes = [ch] ∧ s.dev.nzh.changed = (0, 0, 0) ∧ ch.nz < 131072 ∧ ch.entry < 16 ∧ s.dev.substFed = true ∧ s.dev.entry ch.nz < 4 ∧ s.dev.entry ch.nz ≠ ch.entry) ∧
    (∃ (ch : NzChange) (s : State), let head := s.dev.rd F.NZ_AUDIT_HEAD; s.Inv ∧ s.dev.nzh.changes = [ch] ∧ s.dev.nzh.changed = (0, 0, 0) ∧ ch.nz < 131072 ∧ ch.entry < 16 ∧ (s.dev.substFed = false ∨ 4 ≤ s.dev.entry ch.nz ∨ s.dev.entry ch.nz = ch.entry)) ∧
    (∃ (m : Master) (i : Fin 16384) (val : Nat) (s : State), let source := match m with | .p0 => 1 | .p1 => 2 | .internal => 0; s.Inv ∧ s.dev.Takes m R.LA_SUBST i) ∧
    (∃ (m : Master) (i : Fin 16384) (val : Nat) (s : State), let source := match m with | .p0 => 1 | .p1 => 2 | .internal => 0; s.Inv ∧ s.dev.Takes m R.LA_SUBST i ∧ i.val % 2 = 0) ∧
    (∃ (m : Master) (addr bytes val : Nat) (s : State), (addr < regSpace + R.LA_SUBST.base ∨ regSpace + R.LA_SUBST.base + 0x10000 < addr + bytes ∨ (bytes ≠ 4 ∧ bytes ≠ 8) ∨ addr % bytes ≠ 0)) :=
  ⟨⟨⟨wit, []⟩, inv_of (by decide +kernel), by decide +kernel, by decide +kernel⟩,
    ⟨({ nz := 131071, entry := 3, source := 1, kind := 2, hit := 5, defl := -3 }), wSubstitutionMap0, inv_of (by decide +kernel), by decide +kernel, by decide +kernel, by decide +kernel, by decide +kernel, by decide +kernel, by decide +kernel, by decide +kernel⟩,
    ⟨({ nz := 1, entry := 15, source := 1, kind := 2, hit := 5, defl := -3 }), wSubstitutionMap1, inv_of (by decide +kernel), by decide +kernel, by decide +kernel, by decide +kernel, by decide +kernel, by decide +kernel⟩,
    ⟨.p1, 16383, 0xF8E73210, wSubstitutionMap2, inv_of (by decide +kernel), by decide +kernel⟩,
    ⟨.p1, 16382, 0x7654321001234567, wSubstitutionMap2, inv_of (by decide +kernel), by decide +kernel, by decide +kernel⟩,
    ⟨.p1, (regSpace + R.LA_SUBST.base), 2, 0xFFFFFFFF, ⟨wit, []⟩, by decide +kernel⟩⟩

def wDramAccesses0 : State :=
  ⟨{ wit with ue := [77] }, []⟩

def wDramAccesses1 : State :=
  ⟨{ wit with ue := [(2 ^ 36 - 16) / 16] }, []⟩

def wDramAccesses2 : State :=
  ⟨wit.wr F.DM_RETRAIN_MARK_THRESH 0 200 |>.wr F.DM_RETRAIN_MARK_THRESH 1 200, []⟩

def wDramAccesses3 : State :=
  ⟨{ wit with pat.loaded.worlds := { regions := [⟨2 ^ 36 - 2 ^ 21, 2 ^ 21, true⟩] } }, []⟩

def wDramAccesses4 : State :=
  ⟨{ wit with mem := [(119, 7), (125, 7), (319, 9), (320, 8)] }, []⟩

def wDramAccesses5 : State :=
  ⟨((wit.wr F.DM_SPARE_MARK1 3 2).wr F.DM_SPARE_SPARE 3 1).wr F.DM_SPARE_POINTER 3 5, []⟩

def wDramAccesses6 : State :=
  ⟨(wit.wr F.DM_SPARE_MARK1 3 2).wr F.DM_SPARE_MARK2 3 0, []⟩

theorem witness_DramAccesses_part1 :
    (∃ (rq : Fin 20) (a : Nat) (errs : List SymbolError) (s : State), let g := a / 128 * 128; let p := s.dev.place (chanAddr g); s.Inv ∧ g < s.dev.capacity) ∧
    (∃ (rq : Fin 20) (a : Nat) (errs : List SymbolError) (s : State), let g := a / 128 * 128; let p := s.dev.place (chanAddr g); s.Inv ∧ s.dev.capacity ≤ g) ∧
    (∃ (rq : Fin 20) (a : Nat) (errs : List SymbolError) (s : State), let g := a / 128 * 128; let p := s.dev.place (chanAddr g); s.Inv ∧ g < s.dev.capacity ∧ s.dev.granuleBad g = false) ∧
    (∃ (rq : Fin 20) (a : Nat) (errs : List SymbolError) (s : State), let g := a / 128 * 128; let p := s.dev.place (chanAddr g); s.Inv ∧ g < s.dev.capacity ∧ s.dev.granuleBad g = true) ∧
    (∃ (rq : Fin 20) (a : Nat) (errs : List SymbolError) (s : State), let g := a / 128 * 128; let p := s.dev.place (chanAddr g); s.Inv ∧ ∃ e : SymbolError, let key := laneIdx (chanOf g) p.rank (symLane e.sym); g < s.dev.capacity ∧ s.dev.granuleBad g = false ∧ e.diff ≠ 0 ∧ s.dev.mark1 (chanOf g) p.rank = 15 ∧ s.dev.mark2 (chanOf g) p.rank = 15 ∧ (∀ r ∈ (s.dev.lane key).rows, (r.bg, r.bank, r.row) ≠ (p.bg, p.bank, p.row)) ∧ s.dev.rd F.DM_LANE_CE key + 1 < s.dev.rd F.DM_RETRAIN_MARK_THRESH (chanOf g)) ∧
    (∃ (rq : Fin 20) (a : Nat) (bs : List Byte) (s : State), let left := fun g => !(s.dev.uncovered g a bs.length).isEmpty; let part := fun g => decide (g < a ∨ a + bs.length < g + 128); let met := fun g => (part g && s.dev.granuleBad g) && s.dev.drm.fetched.all fun f => decide (f.rq ≠ rq ∨ f.g ≠ g); s.Inv ∧ (bs = [] ∨ s.dev.sys.reset.isSome = true)) ∧
    (∃ (rq : Fin 20) (a : Nat) (bs : List Byte) (s : State), let left := fun g => !(s.dev.uncovered g a bs.length).isEmpty; let part := fun g => decide (g < a ∨ a + bs.length < g + 128); let met := fun g => (part g && s.dev.granuleBad g) && s.dev.drm.fetched.all fun f => decide (f.rq ≠ rq ∨ f.g ≠ g); s.Inv ∧ s.dev.sys.reset = none ∧ bs ≠ [] ∧ s.dev.capacity < a + bs.length) :=
  ⟨⟨12, (2 ^ 36 - 1), (((List.range 20).map fun (k : Nat) => (⟨3, ⟨k % 20, by omega⟩, 255⟩ : SymbolError))), wDramAccesses0, inv_of (by decide +kernel), by decide +kernel⟩,
    ⟨19, (2 ^ 36), ([⟨7, 19, 1⟩]), ⟨wit, []⟩, inv_of (by decide +kernel), by decide +kernel⟩,
    ⟨19, (2 ^ 36 - 1), ([]), ⟨wit, []⟩, inv_of (by decide +kernel), by decide +kernel, by decide +kernel⟩,
    ⟨19, (2 ^ 36 - 1), ([]), wDramAccesses1, inv_of (by decide +kernel), by decide +kernel, by decide +kernel⟩,
    ⟨19, (2 ^ 36 - 1), ([]), wDramAccesses2, inv_of (by decide +kernel), ({ word := 7, sym := 19, diff := 255 }), by decide +kernel, by decide +kernel, by decide +kernel, by decide +kernel, by decide +kernel, by decide +kernel, by decide +kernel⟩,
    ⟨19, 5, ([]), ⟨wit, []⟩, inv_of (by decide +kernel), by decide +kernel⟩,
    ⟨11, (2 ^ 36 - 1), ([1, 2]), ⟨wit, []⟩, inv_of (by decide +kernel), by decide +kernel, by decide +kernel, by decide +kernel⟩⟩

theorem witness_DramAccesses_part2 :
    (∃ (rq : Fin 20) (a : Nat) (bs : List Byte) (s : State), let left := fun g => !(s.dev.uncovered g a bs.length).isEmpty; let part := fun g => decide (g < a ∨ a + bs.length < g + 128); let met := fun g => (part g && s.dev.granuleBad g) && s.dev.drm.fetched.all fun f => decide (f.rq ≠ rq ∨ f.g ≠ g); s.Inv ∧ s.dev.sys.reset = none ∧ bs ≠ [] ∧ s.dev.checkDram (s.dev.reqSecure rq a) a bs.length = .world) ∧
    (∃ (rq : Fin 20) (a : Nat) (bs : List Byte) (s : State), let left := fun g => !(s.dev.uncovered g a bs.length).isEmpty; let part := fun g => decide (g < a ∨ a + bs.length < g + 128); let met := fun g => (part g && s.dev.granuleBad g) && s.dev.drm.fetched.all fun f => decide (f.rq ≠ rq ∨ f.g ≠ g); s.Inv ∧ s.dev.sys.reset = none ∧ bs ≠ [] ∧ s.dev.checkDram (s.dev.reqSecure rq a) a bs.length = .pass) ∧
    (∃ (m : Master) (ch : Fin 2) (val : Nat) (s : State), let k := rankIdx ch (val % 2); let lane := val / 16 % 16; let posts := fun low => s.dev.raised ++ [s.dev.event .secure (dmEvent ch low) [(1, val % 2), (1, lane), (1, 3)]]; s.Inv ∧ s.dev.Takes m R.DM_MARK_CTRL ch ∧ ¬ setsBit val 9 ∧ setsBit val 8 ∧ lane ≤ 9 ∧ val % 2 < s.dev.ranks ∧ s.dev.rd F.DM_SPARE_MARK1 k = 15 ∧ s.dev.rd F.DM_SPARE_MARK2 k ≠ lane) ∧
    (∃ (m : Master) (ch : Fin 2) (val : Nat) (s : State), let k := rankIdx ch (val % 2); let lane := val / 16 % 16; let posts := fun low => s.dev.raised ++ [s.dev.event .secure (dmEvent ch low) [(1, val % 2), (1, lane), (1, 3)]]; s.Inv ∧ s.dev.Takes m R.DM_MARK_CTRL ch ∧ ¬ setsBit val 9 ∧ setsBit val 8 ∧ lane ≤ 9 ∧ val % 2 < s.dev.ranks ∧ s.dev.rd F.DM_SPARE_MARK1 k ≠ 15 ∧ s.dev.rd F.DM_SPARE_MARK1 k ≠ lane ∧ s.dev.rd F.DM_SPARE_MARK2 k = 15) ∧
    (∃ (m : Master) (ch : Fin 2) (val : Nat) (s : State), let k := rankIdx ch (val % 2); let lane := val / 16 % 16; let posts := fun low => s.dev.raised ++ [s.dev.event .secure (dmEvent ch low) [(1, val % 2), (1, lane), (1, 3)]]; s.Inv ∧ s.dev.Takes m R.DM_MARK_CTRL ch ∧ ¬ setsBit val 9 ∧ setsBit val 8 ∧ lane ≤ 9 ∧ val % 2 < s.dev.ranks ∧ s.dev.marked ch (val % 2) lane = false ∧ s.dev.rd F.DM_SPARE_MARK1 k ≠ 15 ∧ s.dev.rd F.DM_SPARE_MARK2 k ≠ 15) ∧
    (∃ (m : Master) (ch : Fin 2) (val : Nat) (s : State), let k := rankIdx ch (val % 2); let lane := val / 16 % 16; let posts := fun low => s.dev.raised ++ [s.dev.event .secure (dmEvent ch low) [(1, val % 2), (1, lane), (1, 3)]]; s.Inv ∧ s.dev.Takes m R.DM_MARK_CTRL ch ∧ ¬ setsBit val 9 ∧ ((¬ setsBit val 8 ∨ 9 < lane) ∨ (s.dev.ranks ≤ val % 2 ∨ s.dev.marked ch (val % 2) lane = true))) ∧
    (∃ (m : Master) (ch : Fin 2) (s : State), s.Inv ∧ s.dev.Takes m R.DM_MARK_CTRL ch) :=
  ⟨⟨12, (2 ^ 36 - 9), ([1, 2]), wDramAccesses3, inv_of (by decide +kernel), by decide +kernel, by decide +kernel, by decide +kernel⟩,
    ⟨19, 120, ((List.range 200).map (BitVec.ofNat 8)), wDramAccesses4, inv_of (by decide +kernel), by decide +kernel, by decide +kernel, by decide +kernel⟩,
    ⟨.p1, 1, 0x191, ⟨wit, []⟩, inv_of (by decide +kernel), by decide +kernel, by decide +kernel, by decide +kernel, by decide +kernel, by decide +kernel, by decide +kernel, by decide +kernel⟩,
    ⟨.p1, 1, 0x191, wDramAccesses5, inv_of (by decide +kernel), by decide +kernel, by decide +kernel, by decide +kernel, by decide +kernel, by decide +kernel, by decide +kernel, by decide +kernel, by decide +kernel⟩,
    ⟨.p1, 1, 0x191, wDramAccesses6, inv_of (by decide +kernel), by decide +kernel, by decide +kernel, by decide +kernel, by decide +kernel, by decide +kernel, by decide +kernel, by decide +kernel, by decide +kernel⟩,
    ⟨.p1, 1, 0x91, ⟨wit, []⟩, inv_of (by decide +kernel), by decide +kernel, by decide +kernel, by decide +kernel⟩,
    ⟨.p1, 1, ⟨wit, []⟩, inv_of (by decide +kernel), by decide +kernel⟩⟩

def wDramUpkeep0 : State :=
  ⟨((wit.wr F.DM_SPARE_SPARE 3 1).wr F.DM_SPARE_POINTER 3 (2 ^ 27 - 1)).wr F.DM_SPARE_MARK1 3 4 |>.wr F.DM_RETRAIN_MARK_THRESH 1 1, []⟩

def wDramUpkeep1 : State :=
  ⟨(wit.wr F.DM_SPARE_SPARE 3 1).wr F.DM_SPARE_POINTER 3 5, []⟩

def wDramUpkeep2 : State :=
  ⟨((wit.wr F.DM_SPARE_SPARE 3 1).wr F.DM_SPARE_POINTER 3 (2 ^ 27 - 1)).wr F.DM_SPARE_MARK1 3 4, []⟩

def wDramUpkeep3 : State :=
  ⟨{ wit with drm.speed := some 1 }, []⟩

def wDramUpkeep4 : State :=
  ⟨((wit.wr F.DM_SCRUB_POINTER 1 (2 ^ 28 - 1)).wr F.DM_SCRUB_PASSES 1 65535 |>.wr F.DM_RETRAIN_MARK_THRESH 1 1), []⟩

def wDramUpkeep5 : State :=
  ⟨(wit.wr F.DM_SCRUB_POINTER 1 (2 ^ 28 - 1)).wr F.DM_SCRUB_PASSES 1 65535, []⟩

def wDramUpkeep6 : State :=
  ⟨{ wit with drm.lanes := [(42, { rows := [⟨1, 1, 1, 3⟩, ⟨7, 3, 2 ^ 17 - 1, 3⟩] })] }, []⟩

def wDramUpkeep7 : State :=
  ⟨{ wit with drm.lanes := [(32, { rows := [⟨1, 1, 1, 3⟩, ⟨7, 3, 5, 4⟩] })], pace.idle := 4, pat.loaded.dram.ppr := true } |>.wr F.DM_RETRAIN_MARK_THRESH 1 1, []⟩

def wDramUpkeep8 : State :=
  ⟨{ wit.wr F.DM_PPR_VALID 4 1 with drm.lanes := [(42, { rows := [⟨1, 1, 1, 3⟩, ⟨7, 3, 2 ^ 17 - 1, 4⟩] })], pace.idle := 4, pat.loaded.dram.ppr := true }, []⟩

def wDramUpkeep9 : State :=
  ⟨{ wit with drm.lanes := [(43, { pass := List.replicate 16 false })], drm.arbs := [{}, { quiet := true, turn := 13 }] }, []⟩

def wDramUpkeep10 : State :=
  ⟨{ (wit.wr F.DM_LANE_NOSET 36 2) with drm.lanes := [(36, { pass := List.replicate 17 false })], drm.arbs := [{}, { quiet := true, turn := 14 }] }, []⟩

def wDramUpkeep11 : State :=
  ⟨{ (wit.wr F.DM_RETRAIN_FLOOR 1 3) with drm.lanes := [(36, { pass := List.replicate 11 true ++ List.replicate 6 false })], drm.arbs := [{}, { quiet := true, turn := 14 }] }, []⟩

def wDramUpkeep12 : State :=
  ⟨{ (wit.wr F.DM_RETRAIN_FLOOR 1 1 |>.wr F.DM_LANE_NOSET 36 2 |>.wr F.DM_LANE_SUSPECT 36 1) with drm.lanes := [(36, { quick := true, rdDelay := -5, pass := [false] ++ List.replicate 11 true ++ List.replicate 5 false })], drm.arbs := [{}, { quiet := true, turn := 14 }] }, []⟩

def wDramUpkeep13 : State :=
  ⟨{ wit with pat.loaded.dram.ranks := 1 }, []⟩

def wDramUpkeep14 : State :=
  ⟨({ wit with drm.arbs := [{}, { holder := some ⟨3, 1, 1, 0, 0⟩ }] }).wr F.DM_REFRESH_P1 1 6 |>.wr F.DM_REFRESH_P0 1 6, []⟩

def wDramUpkeep15 : State :=
  ⟨wit.wr F.DM_REFRESH_P1 1 3, []⟩

def wDramUpkeep16 : State :=
  ⟨wit.wr F.DM_REFRESH_P1 1 4, []⟩

def wDramUpkeep17 : State :=
  ⟨{ wit with drm.tooHot := [laneIdx 1 1 1, laneIdx 1 1 2, laneIdx 0 1 0] }, []⟩

def wDramUpkeep18 : State :=
  ⟨{ wit with pace.idle := 3 }, []⟩

def wDramUpkeep19 : State :=
  ⟨((({ wit with pace.idle := 4, pat.loaded.dram.speed := 3 }).wr F.MF_CLASS_CLASS 0 0) |> fun d => (List.range 32).foldl (fun (d : Dev) (i : Nat) => d.setReg R.MF_SLOT_ACTIVE i 0) d), []⟩

def wDramUpkeep20 : State :=
  ⟨({ wit with drm.speed := some 3, drm.held := [.write 1 5 [1, 2], .read 0 3 200, .read 0 (2 ^ 36) 4], ue := [8] }.wr F.DM_SPEED_CTRL_BUSY 0 1).wr F.DM_SPEED_CTRL_BUSY 1 1, []⟩

def wDramUpkeep21 : State :=
  ⟨({ wit with drm.speed := some 3, drm.banks := [(3, ⟨1, some 3, true⟩)] }.wr F.DM_SPEED_CTRL_BUSY 0 1).wr F.DM_SPEED_CTRL_BUSY 1 1, []⟩

theorem witness_DramUpkeep_part1 :
    (∃ (ch : Fin 2) (rank : Nat) (s : State), let k := rankIdx ch rank; let p := s.dev.rd F.DM_SPARE_POINTER k; let g := addrOf ch (s.dev.rankAddr rank p); let n := if s.dev.granuleBad g then 1 else 0; s.Inv ∧ (s.dev.rebuilding ch = none ∨ s.dev.speedChanging = true)) ∧
    (∃ (ch : Fin 2) (rank : Nat) (s : State), let k := rankIdx ch rank; let p := s.dev.rd F.DM_SPARE_POINTER k; let g := addrOf ch (s.dev.rankAddr rank p); let n := if s.dev.granuleBad g then 1 else 0; s.Inv ∧ ∃ errs : List SymbolError, s.dev.rebuilding ch = some rank ∧ s.dev.speedChanging = false) ∧
    (∃ (ch : Fin 2) (rank : Nat) (s : State), let k := rankIdx ch rank; let p := s.dev.rd F.DM_SPARE_POINTER k; let g := addrOf ch (s.dev.rankAddr rank p); let n := if s.dev.granuleBad g then 1 else 0; s.Inv ∧ s.dev.rebuilding ch = some rank ∧ s.dev.speedChanging = false ∧ p + 1 < s.dev.rankGranules ∧ p + 1 < 2 ^ 28) ∧
    (∃ (ch : Fin 2) (rank : Nat) (s : State), let k := rankIdx ch rank; let p := s.dev.rd F.DM_SPARE_POINTER k; let g := addrOf ch (s.dev.rankAddr rank p); let n := if s.dev.granuleBad g then 1 else 0; s.Inv ∧ s.dev.rebuilding ch = some rank ∧ s.dev.speedChanging = false ∧ s.dev.rankGranules ≤ p + 1) ∧
    (∃ (ch : Fin 2) (errs : List SymbolError) (s : State), let i := s.dev.rd F.DM_SCRUB_POINTER ch; let next := if i + 1 < s.dev.chanGranules then i + 1 else 0; let g := addrOf ch (i * 128); let n := if s.dev.granuleBad g then 1 else 0; let passes := (s.dev.rd F.DM_SCRUB_PASSES ch + if i + 1 < s.dev.chanGranules then 0 else 1) % 65536; s.Inv ∧ (s.dev.speedChanging = true ∨ s.dev.chanGranules = 0)) ∧
    (∃ (ch : Fin 2) (errs : List SymbolError) (s : State), let i := s.dev.rd F.DM_SCRUB_POINTER ch; let next := if i + 1 < s.dev.chanGranules then i + 1 else 0; let g := addrOf ch (i * 128); let n := if s.dev.granuleBad g then 1 else 0; let passes := (s.dev.rd F.DM_SCRUB_PASSES ch + if i + 1 < s.dev.chanGranules then 0 else 1) % 65536; s.Inv ∧ s.dev.speedChanging = false ∧ 0 < s.dev.chanGranules ∧ s.dev.chanGranules ≤ 2 ^ 28) ∧
    (∃ (ch : Fin 2) (errs : List SymbolError) (s : State), let i := s.dev.rd F.DM_SCRUB_POINTER ch; let next := if i + 1 < s.dev.chanGranules then i + 1 else 0; let g := addrOf ch (i * 128); let n := if s.dev.granuleBad g then 1 else 0; let passes := (s.dev.rd F.DM_SCRUB_PASSES ch + if i + 1 < s.dev.chanGranules then 0 else 1) % 65536; s.Inv ∧ s.dev.speedChanging = false ∧ 0 < s.dev.chanGranules ∧ s.dev.chanGranules ≤ 2 ^ 28) ∧
    (∃ (ch rank : Fin 2) (lane : Fin 11) (r : DramRow) (i : Nat) (s : State), let key := laneIdx ch rank lane; let cand := (s.dev.lane key).rows.find? (fun r => decide (4 ≤ r.count) && !s.dev.pprHas ch rank lane r.bg); let gs := (List.range 64).map fun col => addrOf ch (s.dev.rowAddr rank r.bg r.bank r.row col); s.Inv ∧ ((cand = none ∨ s.dev.pprFree ch = none) ∨ (s.dev.pat.loaded.dram.ppr = false ∨ s.dev.barIdle = false))) ∧
    (∃ (ch rank : Fin 2) (lane : Fin 11) (r : DramRow) (i : Nat) (s : State), let key := laneIdx ch rank lane; let cand := (s.dev.lane key).rows.find? (fun r => decide (4 ≤ r.count) && !s.dev.pprHas ch rank lane r.bg); let gs := (List.range 64).map fun col => addrOf ch (s.dev.rowAddr rank r.bg r.bank r.row col); s.Inv ∧ ∃ errs : List (Fin 64 × SymbolError), cand = some r ∧ s.dev.pprFree ch = some i ∧ s.dev.pat.loaded.dram.ppr = true ∧ s.dev.barIdle = true) ∧
    (∃ (ch rank : Fin 2) (lane : Fin 11) (r : DramRow) (i : Nat) (s : State), let key := laneIdx ch rank lane; let cand := (s.dev.lane key).rows.find? (fun r => decide (4 ≤ r.count) && !s.dev.pprHas ch rank lane r.bg); let gs := (List.range 64).map fun col => addrOf ch (s.dev.rowAddr rank r.bg r.bank r.row col); s.Inv ∧ cand = some r ∧ s.dev.pprFree ch = some i ∧ s.dev.pat.loaded.dram.ppr = true ∧ s.dev.barIdle = true) :=
  ⟨⟨1, 1, ⟨wit, []⟩, inv_of (by decide +kernel), by decide +kernel⟩,
    ⟨1, 1, wDramUpkeep0, inv_of (by decide +kernel), ([⟨7, 19, 1⟩, ⟨7, 10, 1⟩, ⟨1, 8, 4⟩, ⟨1, 9, 4⟩, ⟨2, 3, 4⟩, ⟨2, 2, 4⟩, ⟨3, 1, 4⟩, ⟨3, 2, 4⟩, ⟨3, 3, 4⟩]), by decide +kernel, by decide +kernel⟩,
    ⟨1, 1, wDramUpkeep1, inv_of (by decide +kernel), by decide +kernel, by decide +kernel, by decide +kernel, by decide +kernel⟩,
    ⟨1, 1, wDramUpkeep2, inv_of (by decide +kernel), by decide +kernel, by decide +kernel, by decide +kernel⟩,
    ⟨1, ([⟨7, 19, 1⟩, ⟨7, 10, 1⟩, ⟨1, 3, 4⟩]), wDramUpkeep3, inv_of (by decide +kernel), by decide +kernel⟩,
    ⟨1, ([⟨7, 19, 1⟩, ⟨7, 10, 1⟩, ⟨7, 9, 1⟩, ⟨1, 3, 4⟩, ⟨2, 3, 4⟩, ⟨2, 3, 4⟩]), wDramUpkeep4, inv_of (by decide +kernel), by decide +kernel, by decide +kernel, by decide +kernel⟩,
    ⟨1, ([]), wDramUpkeep5, inv_of (by decide +kernel), by decide +kernel, by decide +kernel, by decide +kernel⟩,
    ⟨1, 1, 9, (⟨7, 3, 2 ^ 17 - 1, 4⟩), 1, wDramUpkeep6, inv_of (by decide +kernel), by decide +kernel⟩,
    ⟨1, 0, 10, (⟨7, 3, 5, 4⟩), 0, wDramUpkeep7, inv_of (by decide +kernel), ([(63, ⟨7, 19, 1⟩), (0, ⟨7, 10, 1⟩), (0, ⟨1, 8, 4⟩), (1, ⟨1, 9, 4⟩), (5, ⟨2, 3, 4⟩), (5, ⟨2, 5, 4⟩), (5, ⟨2, 8, 4⟩)]), by decide +kernel, by decide +kernel, by decide +kernel, by decide +kernel⟩,
    ⟨1, 1, 9, (⟨7, 3, 2 ^ 17 - 1, 4⟩), 1, wDramUpkeep8, inv_of (by decide +kernel), by decide +kernel, by decide +kernel, by decide +kernel, by decide +kernel⟩⟩

theorem witness_DramUpkeep_part2 :
    (∃ (ch rank : Fin 2) (lane : Fin 11) (pass : Bool) (s : State), let key := laneIdx ch rank lane; let quiet := !s.dev.frontHeld && (s.dev.arb ch).quiet; let may := quiet && (s.dev.pauseFree ch && decide (s.dev.nextLane ch = some (rank.val * 11 + lane.val))); let r := (s.dev.lane key).pass ++ [pass]; let rdRun := longestRun (r.take 9); let wrRun := longestRun (r.drop 9); let margin := min rdRun.2 wrRun.2 - 1; s.Inv ∧ may = false) ∧
    (∃ (ch rank : Fin 2) (lane : Fin 11) (pass : Bool) (s : State), let key := laneIdx ch rank lane; let quiet := !s.dev.frontHeld && (s.dev.arb ch).quiet; let may := quiet && (s.dev.pauseFree ch && decide (s.dev.nextLane ch = some (rank.val * 11 + lane.val))); let r := (s.dev.lane key).pass ++ [pass]; let rdRun := longestRun (r.take 9); let wrRun := longestRun (r.drop 9); let margin := min rdRun.2 wrRun.2 - 1; s.Inv ∧ may = true ∧ r.length < 18) ∧
    (∃ (ch rank : Fin 2) (lane : Fin 11) (pass : Bool) (s : State), let key := laneIdx ch rank lane; let quiet := !s.dev.frontHeld && (s.dev.arb ch).quiet; let may := quiet && (s.dev.pauseFree ch && decide (s.dev.nextLane ch = some (rank.val * 11 + lane.val))); let r := (s.dev.lane key).pass ++ [pass]; let rdRun := longestRun (r.take 9); let wrRun := longestRun (r.drop 9); let margin := min rdRun.2 wrRun.2 - 1; s.Inv ∧ may = true ∧ 18 ≤ r.length ∧ (rdRun.2 = 0 ∨ wrRun.2 = 0)) ∧
    (∃ (ch rank : Fin 2) (lane : Fin 11) (pass : Bool) (s : State), let key := laneIdx ch rank lane; let quiet := !s.dev.frontHeld && (s.dev.arb ch).quiet; let may := quiet && (s.dev.pauseFree ch && decide (s.dev.nextLane ch = some (rank.val * 11 + lane.val))); let r := (s.dev.lane key).pass ++ [pass]; let rdRun := longestRun (r.take 9); let wrRun := longestRun (r.drop 9); let margin := min rdRun.2 wrRun.2 - 1; s.Inv ∧ may = true ∧ 18 ≤ r.length ∧ rdRun.2 ≠ 0 ∧ wrRun.2 ≠ 0 ∧ margin < s.dev.rd F.DM_RETRAIN_FLOOR ch) ∧
    (∃ (ch rank : Fin 2) (lane : Fin 11) (pass : Bool) (s : State), let key := laneIdx ch rank lane; let quiet := !s.dev.frontHeld && (s.dev.arb ch).quiet; let may := quiet && (s.dev.pauseFree ch && decide (s.dev.nextLane ch = some (rank.val * 11 + lane.val))); let r := (s.dev.lane key).pass ++ [pass]; let rdRun := longestRun (r.take 9); let wrRun := longestRun (r.drop 9); let margin := min rdRun.2 wrRun.2 - 1; s.Inv ∧ may = true ∧ 18 ≤ r.length ∧ rdRun.2 ≠ 0 ∧ wrRun.2 ≠ 0 ∧ s.dev.rd F.DM_RETRAIN_FLOOR ch ≤ margin) ∧
    (∃ (ch rank : Fin 2) (s : State), let owes := min 7 (s.dev.owed ch rank + 1); let a := s.dev.arb ch; s.Inv ∧ s.dev.ranks ≤ rank) ∧
    (∃ (ch rank : Fin 2) (s : State), let owes := min 7 (s.dev.owed ch rank + 1); let a := s.dev.arb ch; s.Inv ∧ rank < s.dev.ranks) ∧
    (∃ (ch rank : Fin 2) (s : State), let owes := min 7 (s.dev.owed ch rank + 1); let a := s.dev.arb ch; s.Inv ∧ s.dev.owed ch rank < 4) ∧
    (∃ (ch rank : Fin 2) (s : State), let owes := min 7 (s.dev.owed ch rank + 1); let a := s.dev.arb ch; s.Inv ∧ 4 ≤ s.dev.owed ch rank) ∧
    (∃ (ch rank : Fin 2) (doubled tooHot : BitVec 11) (s : State), s.Inv ∧ s.dev.ranks ≤ rank) :=
  ⟨⟨1, 1, 9, true, ⟨wit, []⟩, inv_of (by decide +kernel), by decide +kernel⟩,
    ⟨1, 1, 10, true, wDramUpkeep9, inv_of (by decide +kernel), by decide +kernel, by decide +kernel⟩,
    ⟨1, 1, 3, false, wDramUpkeep10, inv_of (by decide +kernel), by decide +kernel, by decide +kernel, by decide +kernel⟩,
    ⟨1, 1, 3, false, wDramUpkeep11, inv_of (by decide +kernel), by decide +kernel, by decide +kernel, by decide +kernel, by decide +kernel, by decide +kernel⟩,
    ⟨1, 1, 3, false, wDramUpkeep12, inv_of (by decide +kernel), by decide +kernel, by decide +kernel, by decide +kernel, by decide +kernel, by decide +kernel⟩,
    ⟨1, 1, wDramUpkeep13, inv_of (by decide +kernel), by decide +kernel⟩,
    ⟨1, 1, wDramUpkeep14, inv_of (by decide +kernel), by decide +kernel⟩,
    ⟨1, 1, wDramUpkeep15, inv_of (by decide +kernel), by decide +kernel⟩,
    ⟨1, 1, wDramUpkeep16, inv_of (by decide +kernel), by decide +kernel⟩,
    ⟨1, 1, 0x400, 0, wDramUpkeep13, inv_of (by decide +kernel), by decide +kernel⟩⟩

theorem witness_DramUpkeep_part3 :
    (∃ (ch rank : Fin 2) (doubled tooHot : BitVec 11) (s : State), s.Inv ∧ rank < s.dev.ranks) ∧
    (∃ (m : Master) (ch : Fin 2) (val : Nat) (s : State), s.Inv ∧ s.dev.Takes m R.DM_SPEED_CTRL ch ∧ s.dev.speedChanging = true) ∧
    (∃ (m : Master) (ch : Fin 2) (val : Nat) (s : State), s.Inv ∧ s.dev.Takes m R.DM_SPEED_CTRL ch ∧ ¬ setsBit val 4 ∧ s.dev.speedChanging = false) ∧
    (∃ (m : Master) (ch : Fin 2) (val : Nat) (s : State), s.Inv ∧ s.dev.Takes m R.DM_SPEED_CTRL ch ∧ setsBit val 4 ∧ s.dev.speedChanging = false ∧ s.dev.speedRefused (val % 4) = 0) ∧
    (∃ (m : Master) (ch : Fin 2) (val : Nat) (s : State), s.Inv ∧ s.dev.Takes m R.DM_SPEED_CTRL ch ∧ setsBit val 4 ∧ s.dev.speedChanging = false ∧ s.dev.speedRefused (val % 4) ≠ 0) ∧
    (∃ (lanes : List (Fin 2 × Fin 2 × Fin 11)) (sp : Nat) (s : State), let regs := [R.DM_SPEED_CTRL.addr 0, R.DM_SPEED_CTRL.addr 1, R.DM_STAT.addr 0, R.DM_STAT.addr 1]; let done := [s.dev.event .secure (dmEvent 0 8) [(1, sp)], s.dev.event .secure (dmEvent 1 8) [(1, sp)]]; s.Inv ∧ s.dev.drm.speed = none) ∧
    (∃ (lanes : List (Fin 2 × Fin 2 × Fin 11)) (sp : Nat) (s : State), let regs := [R.DM_SPEED_CTRL.addr 0, R.DM_SPEED_CTRL.addr 1, R.DM_STAT.addr 0, R.DM_STAT.addr 1]; let done := [s.dev.event .secure (dmEvent 0 8) [(1, sp)], s.dev.event .secure (dmEvent 1 8) [(1, sp)]]; s.Inv ∧ s.dev.drm.speed = some sp ∧ sp < 4) ∧
    (∃ (lanes : List (Fin 2 × Fin 2 × Fin 11)) (sp : Nat) (s : State), let regs := [R.DM_SPEED_CTRL.addr 0, R.DM_SPEED_CTRL.addr 1, R.DM_STAT.addr 0, R.DM_STAT.addr 1]; let done := [s.dev.event .secure (dmEvent 0 8) [(1, sp)], s.dev.event .secure (dmEvent 1 8) [(1, sp)]]; s.Inv ∧ s.dev.drm.speed = some sp ∧ sp < 4 ∧ s.dev.drm.held = []) :=
  ⟨⟨1, 1, 0x400, 0x403, wDramUpkeep17, inv_of (by decide +kernel), by decide +kernel⟩,
    ⟨.p1, 1, 0xFFFFFFF1, wDramUpkeep3, inv_of (by decide +kernel), by decide +kernel, by decide +kernel⟩,
    ⟨.p1, 1, 0xFFFFFFE1, wDramUpkeep18, inv_of (by decide +kernel), by decide +kernel, by decide +kernel, by decide +kernel⟩,
    ⟨.p1, 1, 0xFFFFFFF1, wDramUpkeep19, inv_of (by decide +kernel), by decide +kernel, by decide +kernel, by decide +kernel, by decide +kernel⟩,
    ⟨.p1, 1, 0xFFFFFFF1, wDramUpkeep18, inv_of (by decide +kernel), by decide +kernel, by decide +kernel, by decide +kernel, by decide +kernel⟩,
    ⟨([(0, 1, 3)]), 3, ⟨wit, []⟩, inv_of (by decide +kernel), by decide +kernel⟩,
    ⟨([(0, 1, 3), (1, 0, 3), (1, 1, 10), (1, 1, 4), (1, 1, 5), (1, 1, 6)]), 3, wDramUpkeep20, inv_of (by decide +kernel), by decide +kernel, by decide +kernel⟩,
    ⟨([]), 3, wDramUpkeep21, inv_of (by decide +kernel), by decide +kernel, by decide +kernel, by decide +kernel⟩⟩

def wArbitration0 : State :=
  let W : Nat → Nat → Waiter := fun r t => ⟨r, t, r % 2, 0, 0⟩
  let arb0 : Dev := ({ wit with sys.done := true, drm.arbs := [{}, { waiting := [W 7 1, W 5 2] }] }.wr F.MF_ARB_CFG_STARVE_N 0 16).wr F.MF_CLASS_CLASS 0 0
  ⟨{ arb0 with drm.arbs := [{}, { holder := some (W 9 1), waiting := [W 7 1, W 5 2] }] }, []⟩

def wArbitration1 : State :=
  let W : Nat → Nat → Waiter := fun r t => ⟨r, t, r % 2, 0, 0⟩
  let arb0 : Dev := ({ wit with sys.done := true, drm.arbs := [{}, { waiting := [W 7 1, W 5 2] }] }.wr F.MF_ARB_CFG_STARVE_N 0 16).wr F.MF_CLASS_CLASS 0 0
  ⟨arb0, []⟩

def wArbitration2 : State :=
  let W : Nat → Nat → Waiter := fun r t => ⟨r, t, r % 2, 0, 0⟩
  let arb0 : Dev := ({ wit with sys.done := true, drm.arbs := [{}, { waiting := [W 7 1, W 5 2] }] }.wr F.MF_ARB_CFG_STARVE_N 0 16).wr F.MF_CLASS_CLASS 0 0
  ⟨{ arb0 with drm.arbs := [{}, { grants := 15, waiting := [⟨7, 1, 1, 0, 0⟩, ⟨5, 2, 1, 0, 3⟩] }] }.wr F.MF_CLASS_CLASS 0 (4 ^ 19 + 3 * 4 ^ 5), []⟩

def wArbitration3 : State :=
  let W : Nat → Nat → Waiter := fun r t => ⟨r, t, r % 2, 0, 0⟩
  ⟨{ wit with drm.arbs := [{}, { waiting := [W 7 1] }] }, []⟩

def wArbitration4 : State :=
  let W : Nat → Nat → Waiter := fun r t => ⟨r, t, r % 2, 0, 0⟩
  ⟨{ wit with drm.arbs := [{}, { holder := some (W 17 1), waiting := [W 7 1, W 5 2] }] }, []⟩

def wArbitration5 : State :=
  let W : Nat → Nat → Waiter := fun r t => ⟨r, t, r % 2, 0, 0⟩
  let arb0 : Dev := ({ wit with sys.done := true, drm.arbs := [{}, { waiting := [W 7 1, W 5 2] }] }.wr F.MF_ARB_CFG_STARVE_N 0 16).wr F.MF_CLASS_CLASS 0 0
  ⟨{ arb0 with tmb.stepEnd := some (arb0.tmb.openT + 3937) }, []⟩

def wArbitration6 : State :=
  let W : Nat → Nat → Waiter := fun r t => ⟨r, t, r % 2, 0, 0⟩
  let arb0 : Dev := ({ wit with sys.done := true, drm.arbs := [{}, { waiting := [W 7 1, W 5 2] }] }.wr F.MF_ARB_CFG_STARVE_N 0 16).wr F.MF_CLASS_CLASS 0 0
  ⟨{ arb0.setReg R.MF_SLOT_ACTIVE 31 0x1F000000 with tmb.stepEnd := some (arb0.tmb.openT + 3938) }, []⟩

def wArbitration7 : State :=
  let W : Nat → Nat → Waiter := fun r t => ⟨r, t, r % 2, 0, 0⟩
  let arb0 : Dev := ({ wit with sys.done := true, drm.arbs := [{}, { waiting := [W 7 1, W 5 2] }] }.wr F.MF_ARB_CFG_STARVE_N 0 16).wr F.MF_CLASS_CLASS 0 0
  ⟨{ arb0.setReg R.MF_SLOT_ACTIVE 31 0x07000000 with drm.arbs := [{}, { service := some 9, waiting := [W 7 1, W 17 2] }], tmb.stepEnd := some (arb0.tmb.openT + 3938) }, []⟩

def wArbitration8 : State :=
  let W : Nat → Nat → Waiter := fun r t => ⟨r, t, r % 2, 0, 0⟩
  let arb0 : Dev := ({ wit with sys.done := true, drm.arbs := [{}, { waiting := [W 7 1, W 5 2] }] }.wr F.MF_ARB_CFG_STARVE_N 0 16).wr F.MF_CLASS_CLASS 0 0
  ⟨{ (arb0.setReg R.MF_SLOT_ACTIVE 31 0x1E000000).wr F.DM_REFRESH_P1 1 3 with tmb.stepEnd := some (arb0.tmb.openT + 3938) }, []⟩

theorem witness_Arbitration :
    (∃ (ch : Fin 2) (reqs : List MemReq) (w : Waiter) (s : State), let a := s.dev.joinQueue ch reqs; let free := !s.dev.frontHeld && (a.holder.isNone && a.service.isNone); let left := a.waiting.filter fun x => decide (x.r ≠ w.r); let has := { a with holder := some w, since := s.dev.elapsed, holdMax := s.dev.rd F.MF_ARB_CFG_HOLD_MAX, waiting := left }; s.Inv ∧ (free = false ∨ a.waiting = [])) ∧
    (∃ (ch : Fin 2) (reqs : List MemReq) (w : Waiter) (s : State), let a := s.dev.joinQueue ch reqs; let free := !s.dev.frontHeld && (a.holder.isNone && a.service.isNone); let left := a.waiting.filter fun x => decide (x.r ≠ w.r); let has := { a with holder := some w, since := s.dev.elapsed, holdMax := s.dev.rd F.MF_ARB_CFG_HOLD_MAX, waiting := left }; s.Inv ∧ free = true ∧ s.dev.rd F.MF_ARB_CFG_STARVE_N ≠ a.grants + 1 ∧ headOf a.waiting = some w) ∧
    (∃ (ch : Fin 2) (reqs : List MemReq) (w : Waiter) (s : State), let a := s.dev.joinQueue ch reqs; let free := !s.dev.frontHeld && (a.holder.isNone && a.service.isNone); let left := a.waiting.filter fun x => decide (x.r ≠ w.r); let has := { a with holder := some w, since := s.dev.elapsed, holdMax := s.dev.rd F.MF_ARB_CFG_HOLD_MAX, waiting := left }; s.Inv ∧ free = true ∧ s.dev.rd F.MF_ARB_CFG_STARVE_N = a.grants + 1 ∧ oldestOf a.waiting = some w) ∧
    (∃ (ch : Fin 2) (w : Waiter) (s : State), let a := s.dev.arb ch; s.Inv ∧ a.holder = none) ∧
    (∃ (ch : Fin 2) (w : Waiter) (s : State), let a := s.dev.arb ch; s.Inv ∧ a.holder = some w) ∧
    (∃ (ch : Fin 2) (slot : Fin 64) (reqs : List MemReq) (stream : Bool) (s : State), let a := s.dev.joinQueue ch reqs; let t := s.dev.tmb.openT + 125 * slot.val / 2; let e := at' (s.dev.slotTable R.MF_SLOT_ACTIVE ch) slot; let hot := { s.dev with drm.stream := stream }.urgency; let regs := [R.DM_REFRESH.addr ch]; s.Inv ∧ s.dev.boundary ≤ t) ∧
    (∃ (ch : Fin 2) (slot : Fin 64) (reqs : List MemReq) (stream : Bool) (s : State), let a := s.dev.joinQueue ch reqs; let t := s.dev.tmb.openT + 125 * slot.val / 2; let e := at' (s.dev.slotTable R.MF_SLOT_ACTIVE ch) slot; let hot := { s.dev with drm.stream := stream }.urgency; let regs := [R.DM_REFRESH.addr ch]; s.Inv ∧ t < s.dev.boundary) ∧
    (∃ (ch : Fin 2) (slot : Fin 64) (reqs : List MemReq) (stream : Bool) (s : State), let a := s.dev.joinQueue ch reqs; let t := s.dev.tmb.openT + 125 * slot.val / 2; let e := at' (s.dev.slotTable R.MF_SLOT_ACTIVE ch) slot; let hot := { s.dev with drm.stream := stream }.urgency; let regs := [R.DM_REFRESH.addr ch]; s.Inv ∧ t < s.dev.boundary ∧ e < 20 ∧ s.dev.frontHeld = false) ∧
    (∃ (ch : Fin 2) (slot : Fin 64) (reqs : List MemReq) (stream : Bool) (s : State), let a := s.dev.joinQueue ch reqs; let t := s.dev.tmb.openT + 125 * slot.val / 2; let e := at' (s.dev.slotTable R.MF_SLOT_ACTIVE ch) slot; let hot := { s.dev with drm.stream := stream }.urgency; let regs := [R.DM_REFRESH.addr ch]; s.Inv ∧ t < s.dev.boundary ∧ e = 30) :=
  ⟨⟨1, ([⟨5, 1, 0, 0⟩, ⟨3, 0, 9, 0⟩, ⟨7, 1, 3, 0⟩]), (⟨7, 1, 1, 0, 0⟩), wArbitration0, inv_of (by decide +kernel), by decide +kernel⟩,
    ⟨1, ([⟨5, 1, 0, 0⟩, ⟨3, 0, 9, 0⟩, ⟨17, 0, 9, 0⟩]), (⟨5, 2, 1, 0, 0⟩), wArbitration1, inv_of (by decide +kernel), by decide +kernel, by decide +kernel, by decide +kernel⟩,
    ⟨1, ([⟨19, 0, 7, 0⟩, ⟨5, 1, 0, 0⟩, ⟨3, 0, 9, 0⟩]), (⟨3, (wit.elapsed : Int) - 9, 0, 0, 0⟩), wArbitration2, inv_of (by decide +kernel), by decide +kernel, by decide +kernel, by decide +kernel⟩,
    ⟨1, (⟨7, 1, 1, 0, 0⟩), wArbitration3, inv_of (by decide +kernel), by decide +kernel⟩,
    ⟨1, (⟨17, 1, 1, 0, 0⟩), wArbitration4, inv_of (by decide +kernel), by decide +kernel⟩,
    ⟨1, 63, ([]), true, wArbitration5, inv_of (by decide +kernel), by decide +kernel⟩,
    ⟨1, 63, ([⟨7, 1, 3, 0⟩]), true, wArbitration6, inv_of (by decide +kernel), by decide +kernel⟩,
    ⟨1, 63, ([⟨7, 1, 3, 0⟩, ⟨3, 0, 9, 0⟩]), false, wArbitration7, inv_of (by decide +kernel), by decide +kernel, by decide +kernel, by decide +kernel⟩,
    ⟨1, 63, ([⟨7, 1, 3, 0⟩, ⟨3, 0, 9, 0⟩, ⟨0, 0, 1, 0⟩]), true, wArbitration8, inv_of (by decide +kernel), by decide +kernel, by decide +kernel⟩⟩

def wClassesAndSlotTables0 : State :=
  ⟨{ wit with drm.arbs := [{}, { waiting := [⟨7, 1, 1, 0, 0⟩, ⟨5, 2, 1, 0, 3⟩] }] }, []⟩

def wClassesAndSlotTables1 : State :=
  ⟨(wit.setPort 1 fun h => { h with d3hot := true }), []⟩

def wClassesAndSlotTables2 : State :=
  ⟨wit.wr F.MF_SLOT_BEAT_SWAP_BEAT 0 3 |>.wr F.MF_SLOT_CTRL_ACTIVE_WRITE 0 1, []⟩

def wClassesAndSlotTables3 : State :=
  ⟨wit.wr F.MF_SLOT_BEAT_SWAP_BEAT 0 3, []⟩

def wClassesAndSlotTables4 : State :=
  ⟨wit.wr F.MF_SLOT_BEAT_SWAP_BEAT 0 2, []⟩

def wClassesAndSlotTables5 : State :=
  ⟨{ wit with drm.swapAt := some 3 }, []⟩

def wClassesAndSlotTables6 : State :=
  ⟨(({ wit with drm.swapAt := some 2 }.wr F.MF_SLOT_CTRL_ARM 0 1).wr F.MF_CLASS_CLASS 0 0) |> fun d => (List.range 32).foldl (fun (d : Dev) (i : Nat) => d.setReg R.MF_SLOT_SHADOW i 0x1E000000) d, []⟩

def wClassesAndSlotTables7 : State :=
  ⟨(({ wit with drm.swapAt := some 2 }.wr F.MF_SLOT_CTRL_ARM 0 1).wr F.MF_CLASS_CLASS 0 0) |> fun d => (List.range 32).foldl (fun (d : Dev) (i : Nat) => d.setReg R.MF_SLOT_SHADOW i 0x00000000) d, []⟩

theorem witness_ClassesAndSlotTables :
    (∃ (m : Master) (bytes val : Nat) (s : State), let cls := fun (r : Nat) => if bytes = 8 ∨ r < 16 then val / 4 ^ r % 4 else s.dev.classOf r; s.Inv ∧ s.dev.Takes m R.MF_CLASS 0) ∧
    (∃ (m : Master) (word : Fin 32) (val : Nat) (s : State), s.Inv ∧ s.dev.hears m = false) ∧
    (∃ (m : Master) (word : Fin 32) (val : Nat) (s : State), s.Inv ∧ s.dev.hears m = true) ∧
    (∃ (m : Master) (val : Nat) (s : State), let stays := if setsBit val 1 then 0 else s.dev.rd F.MF_SLOT_CTRL_ACTIVE_WRITE; s.Inv ∧ s.dev.Takes m R.MF_SLOT_CTRL 0 ∧ (¬ setsBit val 0 ∨ s.dev.rd F.MF_SLOT_CTRL_ARM ≠ 0)) ∧
    (∃ (m : Master) (val : Nat) (s : State), let stays := if setsBit val 1 then 0 else s.dev.rd F.MF_SLOT_CTRL_ACTIVE_WRITE; s.Inv ∧ s.dev.Takes m R.MF_SLOT_CTRL 0 ∧ setsBit val 0 ∧ s.dev.rd F.MF_SLOT_CTRL_ARM = 0 ∧ s.dev.beat < s.dev.rd F.MF_SLOT_BEAT_SWAP_BEAT) ∧
    (∃ (m : Master) (val : Nat) (s : State), let stays := if setsBit val 1 then 0 else s.dev.rd F.MF_SLOT_CTRL_ACTIVE_WRITE; s.Inv ∧ s.dev.Takes m R.MF_SLOT_CTRL 0 ∧ setsBit val 0 ∧ s.dev.rd F.MF_SLOT_CTRL_ARM = 0 ∧ s.dev.rd F.MF_SLOT_BEAT_SWAP_BEAT ≤ s.dev.beat) ∧
    (∃ (b : Nat) (s : State), let sh := s.dev.slotTable R.MF_SLOT_SHADOW; let f := s.dev.tableFault (s.dev.rd F.DM_STAT_SPEED) (sh 0) (sh 1); s.Inv ∧ s.dev.drm.swapAt = none) ∧
    (∃ (b : Nat) (s : State), let sh := s.dev.slotTable R.MF_SLOT_SHADOW; let f := s.dev.tableFault (s.dev.rd F.DM_STAT_SPEED) (sh 0) (sh 1); s.Inv ∧ s.dev.drm.swapAt = some b ∧ s.dev.beat < b) ∧
    (∃ (b : Nat) (s : State), let sh := s.dev.slotTable R.MF_SLOT_SHADOW; let f := s.dev.tableFault (s.dev.rd F.DM_STAT_SPEED) (sh 0) (sh 1); s.Inv ∧ s.dev.drm.swapAt = some b ∧ b ≤ s.dev.beat ∧ f = 0) ∧
    (∃ (b : Nat) (s : State), let sh := s.dev.slotTable R.MF_SLOT_SHADOW; let f := s.dev.tableFault (s.dev.rd F.DM_STAT_SPEED) (sh 0) (sh 1); s.Inv ∧ s.dev.drm.swapAt = some b ∧ b ≤ s.dev.beat ∧ f ≠ 0) :=
  ⟨⟨.p1, 8, (2 ^ 64 - 1), wClassesAndSlotTables0, inv_of (by decide +kernel), by decide +kernel⟩,
    ⟨.p1, 31, 0xFFFFFFFF, wClassesAndSlotTables1, inv_of (by decide +kernel), by decide +kernel⟩,
    ⟨.internal, 31, 0xFFFFFFFF, ⟨wit, []⟩, inv_of (by decide +kernel), by decide +kernel⟩,
    ⟨.p1, 0xFFFFFFFC, wClassesAndSlotTables2, inv_of (by decide +kernel), by decide +kernel, by decide +kernel⟩,
    ⟨.p1, 0xFFFFFFFF, wClassesAndSlotTables3, inv_of (by decide +kernel), by decide +kernel, by decide +kernel, by decide +kernel, by decide +kernel⟩,
    ⟨.p1, 0xFFFFFFFF, wClassesAndSlotTables4, inv_of (by decide +kernel), by decide +kernel, by decide +kernel, by decide +kernel, by decide +kernel⟩,
    ⟨3, ⟨wit, []⟩, inv_of (by decide +kernel), by decide +kernel⟩,
    ⟨3, wClassesAndSlotTables5, inv_of (by decide +kernel), by decide +kernel, by decide +kernel⟩,
    ⟨2, wClassesAndSlotTables6, inv_of (by decide +kernel), by decide +kernel, by decide +kernel, by decide +kernel⟩,
    ⟨2, wClassesAndSlotTables7, inv_of (by decide +kernel), by decide +kernel, by decide +kernel, by decide +kernel⟩⟩

def wFuseProgramming0 : State :=
  ⟨wit.wr F.VLT_PROG_CTRL_BUSY 0 1, []⟩

def wFuseProgramming1 : State :=
  ⟨(List.range 8).foldl (fun (d : Dev) (i : Nat) => d.setReg R.VLT_ROOT_HASH i (0xFFFFFFF0 + i)) wit, []⟩

def wFuseProgramming2 : State :=
  ⟨{ wit with vlt.fuses.headRoot := Fuse.of 16 7, vlt.prog := some (1, 3) }, []⟩

def wFuseProgramming3 : State :=
  ⟨{ wit with vlt.prog := some (1, 3) }, []⟩

def wFuseProgramming4 : State :=
  ⟨({ wit with vlt.prog := some (2, 2 ^ 128 - 1) }).wr F.VLT_PROG_CTRL_BUSY 0 1, []⟩

def wFuseProgramming5 : State :=
  ⟨({ wit with vlt.fuses.slots := Fuse.of 2 9 :: List.replicate 15 {}, vlt.advance := some (1, 2) }).wr F.PAT_GEN_ROLLBACK 0 9, []⟩

def wFuseProgramming6 : State :=
  ⟨({ wit with vlt.fuses.slots := List.replicate 16 (Fuse.of 2 9) }).wr F.PAT_GEN_ROLLBACK 0 10, []⟩

def wFuseProgramming7 : State :=
  ⟨({ wit with vlt.fuses.slots := Fuse.of 2 9 :: List.replicate 15 {}, vlt.advance := some (1, 2) }).wr F.PAT_GEN_ROLLBACK 0 10, []⟩

def wFuseProgramming8 : State :=
  ⟨({ wit with vlt.fuses.slots := Fuse.of 2 9 :: List.replicate 15 {} }).wr F.PAT_GEN_ROLLBACK 0 10, []⟩

def wFuseProgramming9 : State :=
  ⟨({ wit with vlt.fuses.slots := (List.range 15).map (fun k => Fuse.of 2 (k + 1)) ++ [({} : Fuse)], vlt.advance := some (15, 65535) }).wr F.VLT_ROLLBACK_BUSY 0 1, []⟩

def wFuseProgramming10 : State :=
  ⟨wit.wr F.VLT_ATTEST_CTRL_BUSY 0 1, []⟩

def wFuseProgramming11 : State :=
  ⟨({ wit with vlt.attest := some (some 1), vlt.attestMsg := [1, 2] }).wr F.VLT_ATTEST_CTRL_BUSY 0 1, []⟩

theorem witness_FuseProgramming_part1 :
    (∃ (m : Master) (val g : Nat) (s : State), let blank := (s.dev.vlt.fuses.group g).blank; s.Inv ∧ s.dev.Takes m R.VLT_PROG_CTRL 0 ∧ g = val % 4 ∧ bitsOf val 31 16 ≠ 0x4655) ∧
    (∃ (m : Master) (val g : Nat) (s : State), let blank := (s.dev.vlt.fuses.group g).blank; s.Inv ∧ s.dev.Takes m R.VLT_PROG_CTRL 0 ∧ g = val % 4 ∧ bitsOf val 31 16 = 0x4655 ∧ (¬ setsBit val 2 ∨ (g = 0 ∨ g = 3))) ∧
    (∃ (m : Master) (val g : Nat) (s : State), let blank := (s.dev.vlt.fuses.group g).blank; s.Inv ∧ s.dev.Takes m R.VLT_PROG_CTRL 0 ∧ g = val % 4 ∧ bitsOf val 31 16 = 0x4655 ∧ setsBit val 2 ∧ (g = 1 ∨ g = 2) ∧ blank = true ∧ s.dev.programming = false) ∧
    (∃ (m : Master) (val g : Nat) (s : State), let blank := (s.dev.vlt.fuses.group g).blank; s.Inv ∧ s.dev.Takes m R.VLT_PROG_CTRL 0 ∧ g = val % 4 ∧ bitsOf val 31 16 = 0x4655 ∧ setsBit val 2 ∧ (g = 1 ∨ g = 2) ∧ blank = false) ∧
    (∃ (m : Master) (val g : Nat) (s : State), let blank := (s.dev.vlt.fuses.group g).blank; s.Inv ∧ s.dev.Takes m R.VLT_PROG_CTRL 0 ∧ g = val % 4 ∧ bitsOf val 31 16 = 0x4655 ∧ setsBit val 2 ∧ (g = 1 ∨ g = 2) ∧ blank = true ∧ s.dev.programming = true) ∧
    (∃ (g v : Nat) (s : State), s.Inv ∧ s.dev.vlt.prog = none) ∧
    (∃ (g v : Nat) (s : State), s.Inv ∧ s.dev.vlt.prog = some (g, v)) ∧
    (∃ (m : Master) (val k : Nat) (s : State), let v := s.dev.rd F.PAT_GEN_ROLLBACK; s.Inv ∧ s.dev.Takes m R.VLT_ROLLBACK_CTRL 0 ∧ (bitsOf val 31 16 ≠ 0x5242 ∨ ¬ setsBit val 0)) ∧
    (∃ (m : Master) (val k : Nat) (s : State), let v := s.dev.rd F.PAT_GEN_ROLLBACK; s.Inv ∧ s.dev.Takes m R.VLT_ROLLBACK_CTRL 0 ∧ bitsOf val 31 16 = 0x5242 ∧ setsBit val 0 ∧ v ≤ s.dev.vlt.fuses.count) :=
  ⟨⟨.p1, 0x4656FFFD, 1, ⟨wit, []⟩, inv_of (by decide +kernel), by decide +kernel, by decide +kernel, by decide +kernel⟩,
    ⟨.p1, 0x46550001, 1, wFuseProgramming0, inv_of (by decide +kernel), by decide +kernel, by decide +kernel, by decide +kernel, by decide +kernel⟩,
    ⟨.p1, 0x4655FFFD, 1, wFuseProgramming1, inv_of (by decide +kernel), by decide +kernel, by decide +kernel, by decide +kernel, by decide +kernel, by decide +kernel, by decide +kernel, by decide +kernel⟩,
    ⟨.p1, 0x46550006, 2, wFuseProgramming2, inv_of (by decide +kernel), by decide +kernel, by decide +kernel, by decide +kernel, by decide +kernel, by decide +kernel, by decide +kernel⟩,
    ⟨.p1, 0x46550006, 2, wFuseProgramming3, inv_of (by decide +kernel), by decide +kernel, by decide +kernel, by decide +kernel, by decide +kernel, by decide +kernel, by decide +kernel, by decide +kernel⟩,
    ⟨2, 2, ⟨wit, []⟩, inv_of (by decide +kernel), by decide +kernel⟩,
    ⟨2, (2 ^ 128 - 1), wFuseProgramming4, inv_of (by decide +kernel), by decide +kernel⟩,
    ⟨.p1, 0x52420000, 1, ⟨wit, []⟩, inv_of (by decide +kernel), by decide +kernel, by decide +kernel⟩,
    ⟨.p1, 0x52420001, 1, wFuseProgramming5, inv_of (by decide +kernel), by decide +kernel, by decide +kernel, by decide +kernel, by decide +kernel⟩⟩

theorem witness_FuseProgramming_part2 :
    (∃ (m : Master) (val k : Nat) (s : State), let v := s.dev.rd F.PAT_GEN_ROLLBACK; s.Inv ∧ s.dev.Takes m R.VLT_ROLLBACK_CTRL 0 ∧ bitsOf val 31 16 = 0x5242 ∧ setsBit val 0 ∧ s.dev.vlt.fuses.count < v ∧ s.dev.vlt.fuses.blankSlot = none) ∧
    (∃ (m : Master) (val k : Nat) (s : State), let v := s.dev.rd F.PAT_GEN_ROLLBACK; s.Inv ∧ s.dev.Takes m R.VLT_ROLLBACK_CTRL 0 ∧ bitsOf val 31 16 = 0x5242 ∧ setsBit val 0 ∧ s.dev.vlt.fuses.count < v ∧ s.dev.vlt.fuses.blankSlot = some k ∧ s.dev.programming = true) ∧
    (∃ (m : Master) (val k : Nat) (s : State), let v := s.dev.rd F.PAT_GEN_ROLLBACK; s.Inv ∧ s.dev.Takes m R.VLT_ROLLBACK_CTRL 0 ∧ bitsOf val 31 16 = 0x5242 ∧ setsBit val 0 ∧ s.dev.vlt.fuses.count < v ∧ s.dev.vlt.fuses.blankSlot = some k ∧ s.dev.programming = false) ∧
    (∃ (k v : Nat) (s : State), s.Inv ∧ s.dev.vlt.advance = none) ∧
    (∃ (k v : Nat) (s : State), s.Inv ∧ s.dev.vlt.advance = some (k, v)) ∧
    (∃ (m : Master) (s : State), s.Inv ∧ s.dev.Takes m R.VLT_ATTEST_CTRL 0 ∧ s.dev.rd F.VLT_ATTEST_CTRL_BUSY ≠ 0) ∧
    (∃ (m : Master) (s : State), s.Inv ∧ s.dev.Takes m R.VLT_ATTEST_CTRL 0 ∧ s.dev.rd F.VLT_ATTEST_CTRL_BUSY = 0) ∧
    (∃ (who : Option (Fin 2)) (s : State), let k := Config.free s.dev.freeCtr % (p256N - 1) + 1; let sig := ecdsaSign s.dev.vlt.used.deviceKey.value (ofBeBytes (sha256 s.dev.vlt.attestMsg)) k; s.Inv ∧ s.dev.vlt.attest = none) ∧
    (∃ (who : Option (Fin 2)) (s : State), let k := Config.free s.dev.freeCtr % (p256N - 1) + 1; let sig := ecdsaSign s.dev.vlt.used.deviceKey.value (ofBeBytes (sha256 s.dev.vlt.attestMsg)) k; s.Inv ∧ s.dev.vlt.attest = some who) :=
  ⟨⟨.p1, 0x52420001, 1, wFuseProgramming6, inv_of (by decide +kernel), by decide +kernel, by decide +kernel, by decide +kernel, by decide +kernel, by decide +kernel⟩,
    ⟨.p1, 0x52420001, 1, wFuseProgramming7, inv_of (by decide +kernel), by decide +kernel, by decide +kernel, by decide +kernel, by decide +kernel, by decide +kernel, by decide +kernel⟩,
    ⟨.p1, 0x5242FFFF, 1, wFuseProgramming8, inv_of (by decide +kernel), by decide +kernel, by decide +kernel, by decide +kernel, by decide +kernel, by decide +kernel, by decide +kernel⟩,
    ⟨1, 1, ⟨wit, []⟩, inv_of (by decide +kernel), by decide +kernel⟩,
    ⟨15, 65535, wFuseProgramming9, inv_of (by decide +kernel), by decide +kernel⟩,
    ⟨.p1, wFuseProgramming10, inv_of (by decide +kernel), by decide +kernel, by decide +kernel⟩,
    ⟨.p1, ⟨wit, []⟩, inv_of (by decide +kernel), by decide +kernel, by decide +kernel⟩,
    ⟨none, ⟨wit, []⟩, inv_of (by decide +kernel), by decide +kernel⟩,
    ⟨(some 1), wFuseProgramming11, inv_of (by decide +kernel), by decide +kernel⟩⟩

def wVaultDomain0 : State :=
  ⟨{ wit with vlt.tamper := 1 }, []⟩

def wVaultDomain1 : State :=
  ⟨{ wit with vlt.ram := [(3, 1)] }, []⟩

def wVaultDomain2 : State :=
  ⟨{ wit with vlt.ram := [(3, 1)], vlt.tamper := 2 }, []⟩

def wVaultDomain3 : State :=
  ⟨({ wit with vlt.tamper := 3 }.wr F.VLT_STAT_TAMPER 0 1).wr F.VLT_TAMPER_SOURCE 0 3, []⟩

def wVaultDomain4 : State :=
  ⟨{ wit with vlt.ram := [(3, 1)], vlt.tamper := 3 }, []⟩

def wVaultDomain5 : State :=
  ⟨{ wit with sys.reset := some { stage := 3 } }, []⟩

def wVaultDomain6 : State :=
  ⟨{ (wit.wr F.TB_STATE_STATE 0 2) with sys.reset := some { stage := 3 } }, []⟩

def wVaultDomain7 : State :=
  ⟨{ (wit.wr F.VLT_HEAD_PENDING_PENDING 31 (2 ^ 40 - 1)) with hl := wit.hl.set 31 { ids := [0, 0x1234] }, vlt.ram := [(1, 3), (2, 7), (100, 5), (200, 7), (300, 5), (400, 5), (511, 3)] }, []⟩

def wVaultDomain8 : State :=
  ⟨wit.wr F.TB_STATE_STATE 0 1, []⟩

def wVaultDomain9 : State :=
  ⟨{ (wit.wr F.TB_STATE_STATE 0 2).wr F.TB_STATE_STEPS 0 255 with vlt.ram := [(1, 3), (2, 7), (100, 5), (200, 7), (300, 5), (400, 5), (511, 3)] }, []⟩

def wVaultDomain10 : State :=
  ⟨{ wit with sys.reset := some {}, vlt.fuses.headRoot := Fuse.of 16 7 }, []⟩

theorem witness_VaultDomain_part1 :
    (∃ (t : TamperCause) (s : State), s.Inv ∧ s.dev.vlt.tamper ≠ 0) ∧
    (∃ (t : TamperCause) (s : State), s.Inv ∧ s.dev.vlt.tamper = 0) ∧
    (∃ (m : Master) (val : Nat) (s : State), let regs := [R.VLT_STAT.addr 0, R.VLT_TAMPER.addr 0]; s.Inv ∧ s.dev.Takes m R.VLT_TAMPER 0 ∧ setsBit val 8 ∧ s.dev.vlt.tamper = 0) ∧
    (∃ (m : Master) (val : Nat) (s : State), let regs := [R.VLT_STAT.addr 0, R.VLT_TAMPER.addr 0]; s.Inv ∧ s.dev.Takes m R.VLT_TAMPER 0 ∧ setsBit val 8 ∧ s.dev.vlt.tamper ≠ 0) ∧
    (∃ (m : Master) (val : Nat) (s : State), let regs := [R.VLT_STAT.addr 0, R.VLT_TAMPER.addr 0]; s.Inv ∧ s.dev.Takes m R.VLT_TAMPER 0 ∧ ¬ setsBit val 8 ∧ ¬ setsBit val 9) ∧
    (∃ (m : Master) (val : Nat) (s : State), let regs := [R.VLT_STAT.addr 0, R.VLT_TAMPER.addr 0]; s.Inv ∧ s.dev.Takes m R.VLT_TAMPER 0 ∧ ¬ setsBit val 8 ∧ ¬ setsBit val 9) ∧
    (∃ (m : Master) (val : Nat) (s : State), let regs := [R.VLT_STAT.addr 0, R.VLT_TAMPER.addr 0]; s.Inv ∧ s.dev.Takes m R.VLT_TAMPER 0 ∧ ¬ setsBit val 8 ∧ setsBit val 9) ∧
    (∃ (m : Master) (val : Nat) (t : TamperCause) (s : State), s.Inv ∧ s.dev.vlt.tamper = 0) :=
  ⟨⟨.vbat, wVaultDomain0, inv_of (by decide +kernel), by decide +kernel⟩,
    ⟨.temperature, wVaultDomain1, inv_of (by decide +kernel), by decide +kernel⟩,
    ⟨.p1, 0x300, wVaultDomain1, inv_of (by decide +kernel), by decide +kernel, by decide +kernel, by decide +kernel⟩,
    ⟨.p1, 0x300, wVaultDomain2, inv_of (by decide +kernel), by decide +kernel, by decide +kernel, by decide +kernel⟩,
    ⟨.p1, 0xFFFFFCFF, wVaultDomain2, inv_of (by decide +kernel), by decide +kernel, by decide +kernel, by decide +kernel⟩,
    ⟨.p1, 0xFFFFFCFF, wVaultDomain2, inv_of (by decide +kernel), by decide +kernel, by decide +kernel, by decide +kernel⟩,
    ⟨.p1, 0xFFFFFEFF, wVaultDomain3, inv_of (by decide +kernel), by decide +kernel, by decide +kernel, by decide +kernel⟩,
    ⟨.p1, 0x200, .vbat, wVaultDomain1, inv_of (by decide +kernel), by decide +kernel⟩⟩

theorem witness_VaultDomain_part2 :
    (∃ (m : Master) (val : Nat) (t : TamperCause) (s : State), s.Inv ∧ s.dev.vlt.tamper ≠ 0) ∧
    (∃ s : State, let cut := s.dev.sys.reset.any fun r => decide (r.kind = .power ∧ r.cause = 1); s.Inv ∧ s.dev.inReset = true) ∧
    (∃ s : State, let cut := s.dev.sys.reset.any fun r => decide (r.kind = .power ∧ r.cause = 1); s.Inv ∧ s.dev.inReset = true) ∧
    (∃ s : State, let cut := s.dev.sys.reset.any fun r => decide (r.kind = .power ∧ r.cause = 1); s.Inv ∧ s.dev.inReset = false) ∧
    (∃ s : State, let cut := s.dev.sys.reset.any fun r => decide (r.kind = .power ∧ r.cause = 1); s.Inv ∧ s.dev.rd F.TB_STATE_STATE ≠ 2) ∧
    (∃ s : State, let cut := s.dev.sys.reset.any fun r => decide (r.kind = .power ∧ r.cause = 1); s.Inv ∧ s.dev.inReset = false ∧ s.dev.rd F.TB_STATE_STATE = 2) ∧
    (∃ s : State, let cut := s.dev.sys.reset.any fun r => decide (r.kind = .power ∧ r.cause = 1); s.Inv ∧ cut = false) ∧
    (∃ s : State, let cut := s.dev.sys.reset.any fun r => decide (r.kind = .power ∧ r.cause = 1); s.Inv ∧ cut = true) :=
  ⟨⟨.p1, 0x200, .vbat, wVaultDomain4, inv_of (by decide +kernel), by decide +kernel⟩,
    ⟨wVaultDomain5, inv_of (by decide +kernel), by decide +kernel⟩,
    ⟨wVaultDomain6, inv_of (by decide +kernel), by decide +kernel⟩,
    ⟨wVaultDomain7, inv_of (by decide +kernel), by decide +kernel⟩,
    ⟨wVaultDomain8, inv_of (by decide +kernel), by decide +kernel⟩,
    ⟨wVaultDomain9, inv_of (by decide +kernel), by decide +kernel, by decide +kernel⟩,
    ⟨⟨wit, []⟩, inv_of (by decide +kernel), by decide +kernel⟩,
    ⟨wVaultDomain10, inv_of (by decide +kernel), by decide +kernel⟩⟩

def wAxisRequests0 : State :=
  ⟨({ wit with mot.axes := List.replicate 3 ({} : MotAxis) ++ [({ v := 77 } : MotAxis)] }) |>.wr F.MOT_n_STAT_LOST 3 0 |>.wr F.MOT_n_STAT_LOST 0 0, []⟩

def wAxisRequests1 : State :=
  ⟨(wit.wr F.MOT_n_CFG_SOURCE 3 1) |>.wr F.MOT_n_STAT_LOST 3 0, []⟩

def wAxisRequests2 : State :=
  ⟨(wit.wr F.MOT_n_STAT_MOTION 3 1) |>.wr F.MOT_n_STAT_LOST 3 0 |>.wr F.MOT_n_STAT_LOST 0 0, []⟩

def wAxisRequests3 : State :=
  ⟨(wit.wr F.MOT_n_STAT_LOST 3 1).wr F.MOT_n_STAT_ABSENT 3 1, []⟩

def wAxisRequests4 : State :=
  ⟨wit.wr F.MOT_n_CFG_GANG 1 1, []⟩

def wAxisRequests5 : State :=
  ⟨wit.wr F.MOT_n_STAT_HOMED 3 1, []⟩

def wAxisRequests6 : State :=
  ⟨(wit.wr F.MOT_n_STAT_MOTION 3 1).wr F.MOT_n_STAT_HOME_IN 3 1, []⟩

def wAxisRequests7 : State :=
  ⟨wit.wr F.MOT_n_STAT_ABSENT 3 1, []⟩

def wAxisRequests8 : State :=
  ⟨{ wit.wr F.MOT_n_CFG_GANG 1 1 with mot.cap := some {} }.wr F.MOT_n_STAT_MOTION 0 2, []⟩

def wAxisRequests9 : State :=
  ⟨wit.setFunc (.mot 3) {}, []⟩

def wAxisRequests10 : State :=
  ⟨({ wit with mot.axes := List.replicate 3 ({} : MotAxis) ++ [({ held := some true } : MotAxis)] }).wr F.MOT_n_STAT_MOVE_PENDING 3 1, []⟩

def wAxisRequests11 : State :=
  ⟨{ wit with mot.axes := List.replicate 3 ({} : MotAxis) ++ [({ v := 77 * 25000, held := some false } : MotAxis)] }.wr F.MOT_n_STAT_MOTION 3 1, []⟩

def wAxisRequests12 : State :=
  ⟨({ wit with mot.axes := List.replicate 3 ({} : MotAxis) ++ [({ v := 7700000000, due := [(1, false)] } : MotAxis)] }.wr F.MOT_n_STAT_MOTION 3 2), []⟩

def wAxisRequests13 : State :=
  ⟨({ wit with mot.axes := List.replicate 3 ({} : MotAxis) ++ [({ v := 7700000000, latched := true } : MotAxis)] }.wr F.MOT_n_STAT_MOTION 3 2).wr F.MOT_n_STAT_STOP_CAUSE 3 7, []⟩

def wAxisRequests14 : State :=
  ⟨wit.setFunc (.mot 3) { st := .wedged }, []⟩

def wAxisRequests15 : State :=
  ⟨({ wit with mot.axes := List.replicate 3 ({} : MotAxis) ++ [({ v := 25000, due := [(1, true)] } : MotAxis)] }.wr F.MOT_n_STAT_MOTION 3 1).wr F.MOT_n_SPEED_VSTART 3 1, []⟩

def wAxisRequests16 : State :=
  ⟨({ wit with mot.axes := List.replicate 3 ({} : MotAxis) ++ [({ v := 25001, due := [(1, true)], held := some true } : MotAxis)] }.wr F.MOT_n_STAT_MOTION 3 3).wr F.MOT_n_SPEED_VSTART 3 1, []⟩

def wAxisRequests17 : State :=
  ⟨wit.wr F.MOT_n_CFG_ENABLE 3 1, []⟩

def wAxisRequests18 : State :=
  ⟨{ wit with mot.cap := some {} }, []⟩

def wAxisRequests19 : State :=
  ⟨{ wit with cdc.pages := [{ inProgress := true }] }, []⟩

theorem witness_AxisRequests_part1 :
    (∃ (m : Master) (n : Fin 4) (bytes val : Nat) (s : State), let tgt := if bytes = 8 then val else s.dev.rd F.MOT_n_MOVE_TARGET n; let why := s.dev.refusal n false true; let small := if bytes = 8 then decide (val < 2 ^ 32) else decide (val < 2); s.Inv ∧ s.dev.Takes m R.MOT_n_MOVE n) ∧
    (∃ (m : Master) (n : Fin 4) (bytes val : Nat) (s : State), let tgt := if bytes = 8 then val else s.dev.rd F.MOT_n_MOVE_TARGET n; let why := s.dev.refusal n false true; let small := if bytes = 8 then decide (val < 2 ^ 32) else decide (val < 2); s.Inv ∧ s.dev.Takes m R.MOT_n_MOVE n ∧ s.dev.ganged = false ∧ small = true ∧ why = 0 ∧ s.dev.motion n = 0 ∧ s.dev.rd F.MOT_n_CFG_SOURCE n = 0 ∧ s.dev.rd F.MOT_n_STAT_HOME_IN n = 0 ∧ s.dev.rd F.MOT_n_STAT_END_IN n = 0) ∧
    (∃ (m : Master) (n : Fin 4) (bytes val : Nat) (s : State), let tgt := if bytes = 8 then val else s.dev.rd F.MOT_n_MOVE_TARGET n; let why := s.dev.refusal n false true; let small := if bytes = 8 then decide (val < 2 ^ 32) else decide (val < 2); s.Inv ∧ s.dev.Takes m R.MOT_n_MOVE n ∧ s.dev.ganged = false ∧ small = true ∧ why = 0 ∧ s.dev.motion n = 0 ∧ s.dev.rd F.MOT_n_CFG_SOURCE n = 1) ∧
    (∃ (m : Master) (n : Fin 4) (bytes val : Nat) (s : State), let tgt := if bytes = 8 then val else s.dev.rd F.MOT_n_MOVE_TARGET n; let why := s.dev.refusal n false true; let small := if bytes = 8 then decide (val < 2 ^ 32) else decide (val < 2); s.Inv ∧ s.dev.Takes m R.MOT_n_MOVE n ∧ s.dev.ganged = false ∧ small = true ∧ why = 0 ∧ s.dev.motion n ≠ 0) ∧
    (∃ (m : Master) (n : Fin 4) (bytes val : Nat) (s : State), let tgt := if bytes = 8 then val else s.dev.rd F.MOT_n_MOVE_TARGET n; let why := s.dev.refusal n false true; let small := if bytes = 8 then decide (val < 2 ^ 32) else decide (val < 2); s.Inv ∧ s.dev.Takes m R.MOT_n_MOVE n ∧ s.dev.ganged = false ∧ small = true ∧ why ≠ 0) ∧
    (∃ (m : Master) (n : Fin 4) (s : State), let why := s.dev.refusal n true true; let onIt := s.dev.on F.MOT_n_STAT_HOME_IN n; s.Inv ∧ s.dev.Takes m R.MOT_n_MOVE n) ∧
    (∃ (m : Master) (n : Fin 4) (s : State), let why := s.dev.refusal n true true; let onIt := s.dev.on F.MOT_n_STAT_HOME_IN n; s.Inv ∧ s.dev.Takes m R.MOT_n_MOVE n ∧ s.dev.ganged = false ∧ why = 0 ∧ s.dev.motion n = 0) ∧
    (∃ (m : Master) (n : Fin 4) (s : State), let why := s.dev.refusal n true true; let onIt := s.dev.on F.MOT_n_STAT_HOME_IN n; s.Inv ∧ s.dev.Takes m R.MOT_n_MOVE n ∧ s.dev.ganged = false ∧ why = 0 ∧ s.dev.motion n ≠ 0) :=
  ⟨⟨.p1, 3, 8, (2 ^ 64 - 1), ⟨wit, []⟩, inv_of (by decide +kernel), by decide +kernel⟩,
    ⟨.p1, 3, 8, 0xFFFFFFFF, wAxisRequests0, inv_of (by decide +kernel), by decide +kernel, by decide +kernel, by decide +kernel, by decide +kernel, by decide +kernel, by decide +kernel, by decide +kernel, by decide +kernel⟩,
    ⟨.p1, 3, 8, 5, wAxisRequests1, inv_of (by decide +kernel), by decide +kernel, by decide +kernel, by decide +kernel, by decide +kernel, by decide +kernel, by decide +kernel⟩,
    ⟨.p1, 3, 8, 5, wAxisRequests2, inv_of (by decide +kernel), by decide +kernel, by decide +kernel, by decide +kernel, by decide +kernel, by decide +kernel⟩,
    ⟨.p1, 3, 8, 5, wAxisRequests3, inv_of (by decide +kernel), by decide +kernel, by decide +kernel, by decide +kernel, by decide +kernel⟩,
    ⟨.p1, 1, wAxisRequests4, inv_of (by decide +kernel), by decide +kernel⟩,
    ⟨.p1, 3, wAxisRequests5, inv_of (by decide +kernel), by decide +kernel, by decide +kernel, by decide +kernel, by decide +kernel⟩,
    ⟨.p1, 3, wAxisRequests6, inv_of (by decide +kernel), by decide +kernel, by decide +kernel, by decide +kernel, by decide +kernel⟩⟩

theorem witness_AxisRequests_part2 :
    (∃ (m : Master) (n : Fin 4) (s : State), let why := s.dev.refusal n true true; let onIt := s.dev.on F.MOT_n_STAT_HOME_IN n; s.Inv ∧ s.dev.Takes m R.MOT_n_MOVE n ∧ s.dev.ganged = false ∧ why ≠ 0) ∧
    (∃ (m : Master) (n : Fin 4) (s : State), let k : Int := s.dev.brakeSteps n; let way := if s.dev.headingUp n then k else -k; let here := [R.MOT_n_MOVE.addr n, R.MOT_n_STAT.addr n]; s.Inv ∧ s.dev.Takes m R.MOT_n_MOVE n) ∧
    (∃ (m : Master) (n : Fin 4) (s : State), let k : Int := s.dev.brakeSteps n; let way := if s.dev.headingUp n then k else -k; let here := [R.MOT_n_MOVE.addr n, R.MOT_n_STAT.addr n]; s.Inv ∧ s.dev.Takes m R.MOT_n_MOVE n ∧ s.dev.motOn n = false) ∧
    (∃ (m : Master) (n : Fin 4) (s : State), let k : Int := s.dev.brakeSteps n; let way := if s.dev.headingUp n then k else -k; let here := [R.MOT_n_MOVE.addr n, R.MOT_n_STAT.addr n]; s.Inv ∧ s.dev.Takes m R.MOT_n_MOVE n ∧ s.dev.motOn n = true ∧ s.dev.ganged = false ∧ s.dev.motion n = 0) ∧
    (∃ (m : Master) (n : Fin 4) (s : State), let k : Int := s.dev.brakeSteps n; let way := if s.dev.headingUp n then k else -k; let here := [R.MOT_n_MOVE.addr n, R.MOT_n_STAT.addr n]; s.Inv ∧ s.dev.Takes m R.MOT_n_MOVE n ∧ s.dev.motOn n = true ∧ s.dev.ganged = false ∧ s.dev.mot.cap = none ∧ (s.dev.motion n = 1 ∨ s.dev.motion n = 3)) ∧
    (∃ (m : Master) (n : Fin 4) (s : State), let k : Int := s.dev.brakeSteps n; let way := if s.dev.headingUp n then k else -k; let here := [R.MOT_n_MOVE.addr n, R.MOT_n_STAT.addr n]; s.Inv ∧ s.dev.Takes m R.MOT_n_MOVE n ∧ s.dev.motOn n = true ∧ s.dev.ganged = false ∧ s.dev.mot.cap = none ∧ s.dev.motion n = 2 ∧ (s.dev.mAxis n).latched = false) ∧
    (∃ (m : Master) (n : Fin 4) (s : State), let k : Int := s.dev.brakeSteps n; let way := if s.dev.headingUp n then k else -k; let here := [R.MOT_n_MOVE.addr n, R.MOT_n_STAT.addr n]; s.Inv ∧ s.dev.Takes m R.MOT_n_MOVE n ∧ s.dev.motOn n = true ∧ s.dev.ganged = false ∧ s.dev.mot.cap = none ∧ s.dev.motion n = 2 ∧ (s.dev.mAxis n).latched = true) ∧
    (∃ (m : Master) (n : Fin 4) (s : State), s.Inv ∧ s.dev.Takes m R.MOT_n_MOVE n ∧ s.dev.motOn n = false) :=
  ⟨⟨.p1, 3, wAxisRequests7, inv_of (by decide +kernel), by decide +kernel, by decide +kernel, by decide +kernel⟩,
    ⟨.p1, 0, wAxisRequests8, inv_of (by decide +kernel), by decide +kernel⟩,
    ⟨.p1, 3, wAxisRequests9, inv_of (by decide +kernel), by decide +kernel, by decide +kernel⟩,
    ⟨.p1, 3, wAxisRequests10, inv_of (by decide +kernel), by decide +kernel, by decide +kernel, by decide +kernel, by decide +kernel⟩,
    ⟨.p1, 3, wAxisRequests11, inv_of (by decide +kernel), by decide +kernel, by decide +kernel, by decide +kernel, by decide +kernel, by decide +kernel⟩,
    ⟨.p1, 3, wAxisRequests12, inv_of (by decide +kernel), by decide +kernel, by decide +kernel, by decide +kernel, by decide +kernel, by decide +kernel, by decide +kernel⟩,
    ⟨.p1, 3, wAxisRequests13, inv_of (by decide +kernel), by decide +kernel, by decide +kernel, by decide +kernel, by decide +kernel, by decide +kernel, by decide +kernel⟩,
    ⟨.p1, 3, wAxisRequests14, inv_of (by decide +kernel), by decide +kernel, by decide +kernel⟩⟩

theorem witness_AxisRequests_part3 :
    (∃ (m : Master) (n : Fin 4) (s : State), s.Inv ∧ s.dev.Takes m R.MOT_n_MOVE n ∧ s.dev.motOn n = true) ∧
    (∃ (m : Master) (n : Fin 4) (s : State), s.Inv ∧ s.dev.Takes m R.MOT_n_MOVE n ∧ s.dev.motOn n = true ∧ s.dev.ganged = false ∧ s.dev.mot.cap = none) ∧
    (∃ (m : Master) (n : Fin 4) (val : Nat) (s : State), let src := if s.dev.webIsQ0 then (if s.dev.motion n = 0 then val / 2 % 2 else s.dev.rd F.MOT_n_CFG_SOURCE n) else 0; s.Inv ∧ s.dev.Takes m R.MOT_n_CFG n) ∧
    (∃ (m : Master) (n : Fin 4) (val : Nat) (s : State), let src := if s.dev.webIsQ0 then (if s.dev.motion n = 0 then val / 2 % 2 else s.dev.rd F.MOT_n_CFG_SOURCE n) else 0; s.Inv ∧ s.dev.Takes m R.MOT_n_CFG n ∧ s.dev.funcOn (.mot n) = decide (val % 2 = 1) ∧ s.dev.wedged (.mot n) = false) ∧
    (∃ (m : Master) (s : State), let running := s.dev.pageRuns && s.dev.sys.bindOff.isNone; let ready := [(0 : Fin 4), 1, 2].all fun n => s.dev.motOn n && !s.dev.on F.MOT_n_STAT_ABSENT n; s.Inv ∧ s.dev.Takes m R.MOT_CAP_CTRL 0 ∧ s.dev.mot.cap.isSome = true) ∧
    (∃ (m : Master) (s : State), let running := s.dev.pageRuns && s.dev.sys.bindOff.isNone; let ready := [(0 : Fin 4), 1, 2].all fun n => s.dev.motOn n && !s.dev.on F.MOT_n_STAT_ABSENT n; s.Inv ∧ s.dev.Takes m R.MOT_CAP_CTRL 0 ∧ s.dev.mot.cap = none ∧ running = false ∧ ready = true) ∧
    (∃ (m : Master) (s : State), let running := s.dev.pageRuns && s.dev.sys.bindOff.isNone; let ready := [(0 : Fin 4), 1, 2].all fun n => s.dev.motOn n && !s.dev.on F.MOT_n_STAT_ABSENT n; s.Inv ∧ s.dev.Takes m R.MOT_CAP_CTRL 0 ∧ s.dev.mot.cap = none ∧ (running = true ∨ ready = false)) :=
  ⟨⟨.p1, 3, wAxisRequests15, inv_of (by decide +kernel), by decide +kernel, by decide +kernel⟩,
    ⟨.p1, 3, wAxisRequests16, inv_of (by decide +kernel), by decide +kernel, by decide +kernel, by decide +kernel, by decide +kernel⟩,
    ⟨.p1, 3, 0xFFFFFFFE, wAxisRequests17, inv_of (by decide +kernel), by decide +kernel⟩,
    ⟨.p1, 3, 0xFFFFFFFF, wAxisRequests17, inv_of (by decide +kernel), by decide +kernel, by decide +kernel, by decide +kernel⟩,
    ⟨.p1, wAxisRequests18, inv_of (by decide +kernel), by decide +kernel, by decide +kernel⟩,
    ⟨.p1, ⟨wit, []⟩, inv_of (by decide +kernel), by decide +kernel, by decide +kernel, by decide +kernel, by decide +kernel⟩,
    ⟨.p1, wAxisRequests19, inv_of (by decide +kernel), by decide +kernel, by decide +kernel, by decide +kernel⟩⟩

def wAxisMotion0 : State :=
  ⟨({ wit with mot.axes := List.replicate 3 ({} : MotAxis) ++ [({ due := [(900, true)], last := 501 } : MotAxis)] }.wr F.MOT_n_STAT_MOTION 3 1), []⟩

def wAxisMotion1 : State :=
  ⟨(({ wit with mot.axes := List.replicate 3 ({} : MotAxis) ++ [({ due := [(900, true)], v := 99999999 } : MotAxis)] }.wr F.MOT_n_STAT_MOTION 3 1).wr F.MOT_n_STAT_END_IN 3 1), []⟩

def wAxisMotion2 : State :=
  ⟨({ wit with mot.axes := List.replicate 3 ({} : MotAxis) ++ [({ last := 500, due := [(900, true)] } : MotAxis)] }.wr F.MOT_n_STAT_MOTION 3 1).wrS F.MOT_n_POS_POS 3 (2 ^ 31 - 1), []⟩

def wAxisMotion3 : State :=
  ⟨wit.wr F.MOT_n_STAT_ABSENT 3 1, []⟩

def wAxisMotion4 : State :=
  ⟨{ wit with mot.axes := List.replicate 3 ({} : MotAxis) ++ [({ run := true, due := [(900, false)] } : MotAxis)] }, []⟩

def wAxisMotion5 : State :=
  ⟨{ wit with mot.axes := List.replicate 3 ({} : MotAxis) ++ [({ run := true } : MotAxis)] }, []⟩

def wAxisMotion6 : State :=
  ⟨wit.wr F.MOT_n_STAT_MOTION 3 2, []⟩

def wAxisMotion7 : State :=
  ⟨({ wit with mot.axes := List.replicate 3 ({} : MotAxis) ++ [({ last := 500, due := [(900, true)] } : MotAxis)] }.wr F.MOT_n_STAT_MOTION 3 3), []⟩

def wAxisMotion8 : State :=
  ⟨(wit.wr F.MOT_n_STAT_MOTION 3 3), []⟩

def wAxisMotion9 : State :=
  ⟨(wit.wr F.MOT_n_STAT_MOTION 3 3).wr F.MOT_n_STAT_HOME_IN 3 1, []⟩

def wAxisMotion10 : State :=
  ⟨(wit.wr F.MOT_n_STAT_MOTION 3 2).wr F.MOT_n_STAT_HOME_PHASE 3 2, []⟩

def wAxisMotion11 : State :=
  ⟨wit.setFunc (.mot 3) { st := .wedged }, []⟩

def wAxisMotion12 : State :=
  ⟨({ wit with mot.axes := List.replicate 3 ({} : MotAxis) ++ [({ loads := 1 } : MotAxis)] }.wr F.MOT_n_CFG_STALL_EN 3 1).wr F.MOT_n_STALL_STALL_COUNT 3 2, []⟩

def wAxisMotion13 : State :=
  ⟨({ wit with mot.axes := List.replicate 3 ({} : MotAxis) ++ [({ loads := 2 } : MotAxis)] }.wr F.MOT_n_CFG_STALL_EN 3 1).wr F.MOT_n_STALL_STALL_COUNT 3 2, []⟩

def wAxisMotion14 : State :=
  ⟨wit.setFunc .f0 {}, []⟩

def wAxisMotion15 : State :=
  ⟨(wit.wr F.MOT_n_STAT_MOTION 3 3).wr F.MOT_n_CFG_SOURCE 3 1, []⟩

def wAxisMotion16 : State :=
  ⟨wit.wrS F.WT_F0_COUNT_COUNT 0 (2 ^ 31 - 1), []⟩

def wAxisMotion17 : State :=
  ⟨((wit.wr F.MOT_n_STAT_MOTION 3 3).wr F.MOT_n_CFG_SOURCE 3 1).wr F.MOT_n_CFG_COARSE 3 8, []⟩

def wAxisMotion18 : State :=
  ⟨{ wit with regs := [(0x10, 21)] }, []⟩

def wAxisMotion19 : State :=
  ⟨({ wit with regs := [(0x10, 20)] }.wr F.MOT_n_STAT_MOTION 3 1), []⟩

theorem witness_AxisMotion_part1 :
    (∃ (n : Fin 4) (t bemf tm : Nat) (up : Bool) (rest : List (Nat × Bool)) (s : State), let a := s.dev.mAxis n; let soon := decide (t < tm) || (decide (a.last ≠ 0) && decide (t < a.last + 500)); s.Inv ∧ a.due = [] ∧ s.dev.mirrored n = false) ∧
    (∃ (n : Fin 4) (t bemf tm : Nat) (up : Bool) (rest : List (Nat × Bool)) (s : State), let a := s.dev.mAxis n; let soon := decide (t < tm) || (decide (a.last ≠ 0) && decide (t < a.last + 500)); s.Inv ∧ a.due = (tm, up) :: rest ∧ soon = true) ∧
    (∃ (n : Fin 4) (t bemf tm : Nat) (up : Bool) (rest : List (Nat × Bool)) (s : State), let a := s.dev.mAxis n; let soon := decide (t < tm) || (decide (a.last ≠ 0) && decide (t < a.last + 500)); s.Inv ∧ a.due = (tm, up) :: rest ∧ soon = false ∧ s.dev.motion n ≠ 2 ∧ s.dev.atLimit n up = true) ∧
    (∃ (n : Fin 4) (t bemf tm : Nat) (up : Bool) (rest : List (Nat × Bool)) (s : State), let a := s.dev.mAxis n; let soon := decide (t < tm) || (decide (a.last ≠ 0) && decide (t < a.last + 500)); s.Inv ∧ a.due = (tm, up) :: rest ∧ soon = false ∧ (s.dev.motion n = 1 ∨ s.dev.motion n = 3) ∧ s.dev.ganged = false ∧ s.dev.atLimit n up = false) ∧
    (∃ (n : Fin 4) (ph : Fin 2) (s : State), let i := s.dev.phaseTarget n ph; s.Inv ∧ s.dev.bridgeLow n = true) ∧
    (∃ (n : Fin 4) (ph : Fin 2) (s : State), let i := s.dev.phaseTarget n ph; s.Inv ∧ s.dev.bridgeLow n = false) ∧
    (∃ (n : Fin 4) (s : State), s.Inv ∧ (s.dev.mAxis n).due ≠ []) ∧
    (∃ (n : Fin 4) (s : State), s.Inv ∧ (s.dev.mAxis n).due = []) ∧
    (∃ (n : Fin 4) (isEnd level : Bool) (t : Nat) (s : State), let active := level != s.dev.on (if isEnd then F.MOT_n_CFG_END_POL else F.MOT_n_CFG_HOME_POL) n; let f := if isEnd then F.MOT_n_STAT_END_IN else F.MOT_n_STAT_HOME_IN; s.Inv ∧ active = s.dev.on f n) ∧
    (∃ (n : Fin 4) (isEnd level : Bool) (t : Nat) (s : State), let active := level != s.dev.on (if isEnd then F.MOT_n_CFG_END_POL else F.MOT_n_CFG_HOME_POL) n; let f := if isEnd then F.MOT_n_STAT_END_IN else F.MOT_n_STAT_HOME_IN; s.Inv ∧ active ≠ s.dev.on f n) :=
  ⟨⟨3, 1000, 5, 900, true, ([]), ⟨wit, []⟩, inv_of (by decide +kernel), by decide +kernel, by decide +kernel⟩,
    ⟨3, 1000, 5, 900, true, ([]), wAxisMotion0, inv_of (by decide +kernel), by decide +kernel, by decide +kernel⟩,
    ⟨3, 1000, 5, 900, true, ([]), wAxisMotion1, inv_of (by decide +kernel), by decide +kernel, by decide +kernel, by decide +kernel, by decide +kernel⟩,
    ⟨3, 1000, 5, 900, true, ([]), wAxisMotion2, inv_of (by decide +kernel), by decide +kernel, by decide +kernel, by decide +kernel, by decide +kernel, by decide +kernel⟩,
    ⟨3, 1, wAxisMotion3, inv_of (by decide +kernel), by decide +kernel⟩,
    ⟨3, 1, ⟨wit, []⟩, inv_of (by decide +kernel), by decide +kernel⟩,
    ⟨3, wAxisMotion4, inv_of (by decide +kernel), by decide +kernel⟩,
    ⟨3, wAxisMotion5, inv_of (by decide +kernel), by decide +kernel⟩,
    ⟨3, true, false, 1000, ⟨wit, []⟩, inv_of (by decide +kernel), by decide +kernel⟩,
    ⟨3, false, true, 1000, wAxisMotion6, inv_of (by decide +kernel), by decide +kernel⟩⟩

theorem witness_AxisMotion_part2 :
    (∃ (n : Fin 4) (isEnd level : Bool) (t : Nat) (s : State), let active := level != s.dev.on (if isEnd then F.MOT_n_CFG_END_POL else F.MOT_n_CFG_HOME_POL) n; let f := if isEnd then F.MOT_n_STAT_END_IN else F.MOT_n_STAT_HOME_IN; s.Inv ∧ active ≠ s.dev.on f n ∧ (s.dev.motion n = 0 ∨ s.dev.motOn n = false)) ∧
    (∃ (n : Fin 4) (isEnd level : Bool) (t : Nat) (s : State), let active := level != s.dev.on (if isEnd then F.MOT_n_CFG_END_POL else F.MOT_n_CFG_HOME_POL) n; let f := if isEnd then F.MOT_n_STAT_END_IN else F.MOT_n_STAT_HOME_IN; s.Inv ∧ active ≠ s.dev.on f n ∧ active = true ∧ s.dev.motOn n = true ∧ (s.dev.motion n = 1 ∨ s.dev.motion n = 3) ∧ s.dev.movesTo n isEnd = true) ∧
    (∃ (n : Fin 4) (isEnd level : Bool) (t : Nat) (s : State), let active := level != s.dev.on (if isEnd then F.MOT_n_CFG_END_POL else F.MOT_n_CFG_HOME_POL) n; let f := if isEnd then F.MOT_n_STAT_END_IN else F.MOT_n_STAT_HOME_IN; s.Inv ∧ active ≠ s.dev.on f n ∧ s.dev.motOn n = true ∧ (s.dev.motion n = 1 ∨ s.dev.motion n = 3) ∧ (active = false ∨ s.dev.movesTo n isEnd = false) ∧ (active && s.dev.on (if isEnd then F.MOT_n_STAT_HOME_IN else F.MOT_n_STAT_END_IN) n) = false) ∧
    (∃ (n : Fin 4) (isEnd level : Bool) (t : Nat) (s : State), let active := level != s.dev.on (if isEnd then F.MOT_n_CFG_END_POL else F.MOT_n_CFG_HOME_POL) n; let f := if isEnd then F.MOT_n_STAT_END_IN else F.MOT_n_STAT_HOME_IN; s.Inv ∧ active ≠ s.dev.on f n ∧ active = true ∧ s.dev.motOn n = true ∧ (s.dev.motion n = 1 ∨ s.dev.motion n = 3) ∧ s.dev.movesTo n isEnd = false ∧ s.dev.on (if isEnd then F.MOT_n_STAT_HOME_IN else F.MOT_n_STAT_END_IN) n = true) ∧
    (∃ (n : Fin 4) (isEnd level : Bool) (t : Nat) (s : State), let active := level != s.dev.on (if isEnd then F.MOT_n_CFG_END_POL else F.MOT_n_CFG_HOME_POL) n; let f := if isEnd then F.MOT_n_STAT_END_IN else F.MOT_n_STAT_HOME_IN; s.Inv ∧ active ≠ s.dev.on f n ∧ active = true ∧ s.dev.motOn n = true ∧ s.dev.motion n = 2 ∧ isEnd = true) ∧
    (∃ (n : Fin 4) (isEnd level : Bool) (t : Nat) (s : State), let active := level != s.dev.on (if isEnd then F.MOT_n_CFG_END_POL else F.MOT_n_CFG_HOME_POL) n; let f := if isEnd then F.MOT_n_STAT_END_IN else F.MOT_n_STAT_HOME_IN; s.Inv ∧ active ≠ s.dev.on f n ∧ active = true ∧ s.dev.motOn n = true ∧ s.dev.motion n = 2 ∧ isEnd = false ∧ s.dev.ganged = false ∧ (s.dev.mAxis n).latched = false ∧ (s.dev.mAxis n).soft = false ∧ s.dev.rd F.MOT_n_STAT_HOME_PHASE n = 2) ∧
    (∃ (n : Fin 4) (isEnd : Bool) (s : State), let e := if isEnd then 1 else 0; let high := s.dev.on F.MOT_n_CFG_STALL_EN n && decide (s.dev.rd F.MOT_n_STALL_STALL_COUNT n ≤ (s.dev.mAxis n).loads); s.Inv ∧ s.dev.motOn n = false) ∧
    (∃ (n : Fin 4) (isEnd : Bool) (s : State), let e := if isEnd then 1 else 0; let high := s.dev.on F.MOT_n_CFG_STALL_EN n && decide (s.dev.rd F.MOT_n_STALL_STALL_COUNT n ≤ (s.dev.mAxis n).loads); s.Inv ∧ s.dev.motOn n = false) ∧
    (∃ (n : Fin 4) (isEnd : Bool) (s : State), let e := if isEnd then 1 else 0; let high := s.dev.on F.MOT_n_CFG_STALL_EN n && decide (s.dev.rd F.MOT_n_STALL_STALL_COUNT n ≤ (s.dev.mAxis n).loads); s.Inv ∧ s.dev.motOn n = false) ∧
    (∃ (n : Fin 4) (isEnd : Bool) (s : State), let e := if isEnd then 1 else 0; let high := s.dev.on F.MOT_n_CFG_STALL_EN n && decide (s.dev.rd F.MOT_n_STALL_STALL_COUNT n ≤ (s.dev.mAxis n).loads); s.Inv ∧ high = false) :=
  ⟨⟨3, true, true, 500, ⟨wit, []⟩, inv_of (by decide +kernel), by decide +kernel, by decide +kernel⟩,
    ⟨3, true, true, 1000, wAxisMotion7, inv_of (by decide +kernel), by decide +kernel, by decide +kernel, by decide +kernel, by decide +kernel, by decide +kernel⟩,
    ⟨3, true, true, 1000, wAxisMotion8, inv_of (by decide +kernel), by decide +kernel, by decide +kernel, by decide +kernel, by decide +kernel, by decide +kernel⟩,
    ⟨3, true, true, 1000, wAxisMotion9, inv_of (by decide +kernel), by decide +kernel, by decide +kernel, by decide +kernel, by decide +kernel, by decide +kernel, by decide +kernel⟩,
    ⟨3, true, true, 1000, wAxisMotion6, inv_of (by decide +kernel), by decide +kernel, by decide +kernel, by decide +kernel, by decide +kernel, by decide +kernel⟩,
    ⟨3, false, true, (2 ^ 65 + 3), wAxisMotion10, inv_of (by decide +kernel), by decide +kernel, by decide +kernel, by decide +kernel, by decide +kernel, by decide +kernel, by decide +kernel, by decide +kernel, by decide +kernel, by decide +kernel⟩,
    ⟨3, false, wAxisMotion11, inv_of (by decide +kernel), by decide +kernel⟩,
    ⟨3, false, wAxisMotion11, inv_of (by decide +kernel), by decide +kernel⟩,
    ⟨3, false, wAxisMotion11, inv_of (by decide +kernel), by decide +kernel⟩,
    ⟨3, false, wAxisMotion12, inv_of (by decide +kernel), by decide +kernel⟩⟩

theorem witness_AxisMotion_part3 :
    (∃ (n : Fin 4) (isEnd : Bool) (s : State), let e := if isEnd then 1 else 0; let high := s.dev.on F.MOT_n_CFG_STALL_EN n && decide (s.dev.rd F.MOT_n_STALL_STALL_COUNT n ≤ (s.dev.mAxis n).loads); s.Inv ∧ s.dev.motOn n = true) ∧
    (∃ (n : Fin 4) (isEnd : Bool) (s : State), let e := if isEnd then 1 else 0; let high := s.dev.on F.MOT_n_CFG_STALL_EN n && decide (s.dev.rd F.MOT_n_STALL_STALL_COUNT n ≤ (s.dev.mAxis n).loads); s.Inv ∧ s.dev.motOn n = true) ∧
    (∃ (n : Fin 4) (isEnd : Bool) (s : State), let e := if isEnd then 1 else 0; let high := s.dev.on F.MOT_n_CFG_STALL_EN n && decide (s.dev.rd F.MOT_n_STALL_STALL_COUNT n ≤ (s.dev.mAxis n).loads); s.Inv ∧ s.dev.motOn n = true ∧ high = true) ∧
    (∃ (dir ok : Bool) (t : Nat) (n : Fin 4) (s : State), let sign : Int := if dir != s.dev.on F.WT_F0_CFG_DIR_INV then 1 else -1; let count := toSigned 32 (ofSigned 32 (s.dev.rdS F.WT_F0_COUNT_COUNT + sign)); s.Inv ∧ s.dev.funcOn .f0 = false) ∧
    (∃ (dir ok : Bool) (t : Nat) (n : Fin 4) (s : State), let sign : Int := if dir != s.dev.on F.WT_F0_CFG_DIR_INV then 1 else -1; let count := toSigned 32 (ofSigned 32 (s.dev.rdS F.WT_F0_COUNT_COUNT + sign)); s.Inv ∧ s.dev.funcOn .f0 = true) ∧
    (∃ (dir ok : Bool) (t : Nat) (n : Fin 4) (s : State), let sign : Int := if dir != s.dev.on F.WT_F0_CFG_DIR_INV then 1 else -1; let count := toSigned 32 (ofSigned 32 (s.dev.rdS F.WT_F0_COUNT_COUNT + sign)); s.Inv ∧ s.dev.funcOn .f0 = true ∧ (∀ k : Fin 4, s.dev.motion k ≠ 3)) ∧
    (∃ (dir ok : Bool) (t : Nat) (n : Fin 4) (s : State), let sign : Int := if dir != s.dev.on F.WT_F0_CFG_DIR_INV then 1 else -1; let count := toSigned 32 (ofSigned 32 (s.dev.rdS F.WT_F0_COUNT_COUNT + sign)); s.Inv ∧ s.dev.funcOn .f0 = true ∧ s.dev.motion n = 3 ∧ s.dev.rd F.MOT_n_CFG_SOURCE n = 1 ∧ s.dev.ganged = false ∧ (s.dev.mAxis n).due = []) ∧
    (∃ (n : Fin 4) (s : State), let may := decide (s.dev.beat % 10 = 0) && decide (s.dev.mot.tick ≠ some s.dev.tmb.beats); s.Inv ∧ may = false) ∧
    (∃ (n : Fin 4) (s : State), let may := decide (s.dev.beat % 10 = 0) && decide (s.dev.mot.tick ≠ some s.dev.tmb.beats); s.Inv ∧ may = true) ∧
    (∃ (n : Fin 4) (s : State), let may := decide (s.dev.beat % 10 = 0) && decide (s.dev.mot.tick ≠ some s.dev.tmb.beats); s.Inv ∧ may = true ∧ s.dev.mot.cap = none ∧ s.dev.ganged = false ∧ s.dev.motOn n = true ∧ s.dev.motion n = 1 ∧ (s.dev.mAxis n).held = none ∧ (s.dev.mAxis n).due = [] ∧ (s.dev.mAxis n).goal = .target ∧ s.dev.motPos n = s.dev.rdS F.MOT_n_MOVE_TARGET n) :=
  ⟨⟨3, false, ⟨wit, []⟩, inv_of (by decide +kernel), by decide +kernel⟩,
    ⟨3, false, ⟨wit, []⟩, inv_of (by decide +kernel), by decide +kernel⟩,
    ⟨3, false, wAxisMotion13, inv_of (by decide +kernel), by decide +kernel, by decide +kernel⟩,
    ⟨true, true, 1000, 3, wAxisMotion14, inv_of (by decide +kernel), by decide +kernel⟩,
    ⟨true, false, 1000, 3, wAxisMotion15, inv_of (by decide +kernel), by decide +kernel⟩,
    ⟨true, true, 500, 3, wAxisMotion16, inv_of (by decide +kernel), by decide +kernel, by decide +kernel⟩,
    ⟨true, true, 20000000, 3, wAxisMotion17, inv_of (by decide +kernel), by decide +kernel, by decide +kernel, by decide +kernel, by decide +kernel, by decide +kernel⟩,
    ⟨3, wAxisMotion18, inv_of (by decide +kernel), by decide +kernel⟩,
    ⟨3, wAxisMotion19, inv_of (by decide +kernel), by decide +kernel⟩,
    ⟨3, wAxisMotion19, inv_of (by decide +kernel), by decide +kernel, by decide +kernel, by decide +kernel, by decide +kernel, by decide +kernel, by decide +kernel, by decide +kernel, by decide +kernel, by decide +kernel⟩⟩

def wServoRequests0 : State :=
  ⟨{ wit with regs := [(0x10, 2 ^ 32 + 3)], nzh.s0Out := some (2 ^ 31) }, []⟩

def wServoRequests1 : State :=
  ⟨({ wit with srv.axes := [({ y := -3 } : SrvAxis), {}] }.wr F.WT_Qn_CFG_IDX_MODE 1 2).wr F.SV_a_STAT_MOTION 0 0, []⟩

def wServoRequests2 : State :=
  ⟨wit.wr F.SV_a_STAT_MOTION 1 3, []⟩

def wServoRequests3 : State :=
  ⟨{ wit with srv.axes := [{}, ({ y := -3 * 2 ^ 20 - 1, aligning := true } : SrvAxis)] }, []⟩

def wServoRequests4 : State :=
  ⟨{ wit with srv.axes := [{}, ({ y := -3 * 2 ^ 20 - 1, aligning := true, bridge := .on } : SrvAxis)] }.wr F.SV_a_STAT_MOTION 1 3, []⟩

theorem witness_ServoRequests_part1 :
    (∃ (m : Master) (a : Fin 2) (val : Nat) (s : State), s.Inv ∧ s.dev.Takes m R.SV_a_TARGET a) ∧
    (∃ (v : Int) (s : State), let sent := s.dev.regFed && decide (s.dev.nzh.s0Out = some v); s.Inv ∧ sent = false) ∧
    (∃ (v : Int) (s : State), let sent := s.dev.regFed && decide (s.dev.nzh.s0Out = some v); s.Inv ∧ sent = true) ∧
    (∃ (m : Master) (a : Fin 2) (n : Fin 4) (s : State), let held := decide (s.dev.srvState a = .on) && decide (s.dev.srvMotion a = 0); let may := held && (s.dev.qFeed a).any fun k => decide (s.dev.rd F.WT_Qn_CFG_IDX_MODE k = 2); s.Inv ∧ s.dev.Takes m R.SV_a_CTRL a ∧ may = false) ∧
    (∃ (m : Master) (a : Fin 2) (n : Fin 4) (s : State), let held := decide (s.dev.srvState a = .on) && decide (s.dev.srvMotion a = 0); let may := held && (s.dev.qFeed a).any fun k => decide (s.dev.rd F.WT_Qn_CFG_IDX_MODE k = 2); s.Inv ∧ s.dev.Takes m R.SV_a_CTRL a ∧ may = true ∧ s.dev.qFeed a = some n) ∧
    (∃ (m : Master) (a : Fin 2) (n : Fin 4) (s : State), let held := decide (s.dev.srvState a = .on) && decide (s.dev.srvMotion a = 0); let may := held && (s.dev.qFeed a).any fun k => decide (s.dev.rd F.WT_Qn_CFG_IDX_MODE k = 2); s.Inv ∧ s.dev.Takes m R.SV_a_CTRL a ∧ s.dev.srvMotion a ≠ 3) :=
  ⟨⟨.p1, 1, (2 ^ 33 + 7), ⟨wit, []⟩, inv_of (by decide +kernel), by decide +kernel⟩,
    ⟨(-5), ⟨wit, []⟩, inv_of (by decide +kernel), by decide +kernel⟩,
    ⟨(2 ^ 31), wServoRequests0, inv_of (by decide +kernel), by decide +kernel⟩,
    ⟨.p1, 1, 1, ⟨wit, []⟩, inv_of (by decide +kernel), by decide +kernel, by decide +kernel⟩,
    ⟨.p1, 0, 1, wServoRequests1, inv_of (by decide +kernel), by decide +kernel, by decide +kernel, by decide +kernel⟩,
    ⟨.p1, 1, 1, ⟨wit, []⟩, inv_of (by decide +kernel), by decide +kernel, by decide +kernel⟩⟩

theorem witness_ServoRequests_part2 :
    (∃ (m : Master) (a : Fin 2) (n : Fin 4) (s : State), let held := decide (s.dev.srvState a = .on) && decide (s.dev.srvMotion a = 0); let may := held && (s.dev.qFeed a).any fun k => decide (s.dev.rd F.WT_Qn_CFG_IDX_MODE k = 2); s.Inv ∧ s.dev.Takes m R.SV_a_CTRL a ∧ s.dev.srvMotion a = 3) ∧
    (∃ (m : Master) (a : Fin 2) (n : Fin 4) (s : State), let held := decide (s.dev.srvState a = .on) && decide (s.dev.srvMotion a = 0); let may := held && (s.dev.qFeed a).any fun k => decide (s.dev.rd F.WT_Qn_CFG_IDX_MODE k = 2); s.Inv ∧ s.dev.Takes m R.SV_a_CTRL a) ∧
    (∃ (a : Fin 2) (s : State), let here := [R.SV_a_POS.addr a, R.SV_a_LOOP.addr a]; s.Inv ∧ (s.dev.sAxis a).aligning = false) ∧
    (∃ (a : Fin 2) (s : State), let here := [R.SV_a_POS.addr a, R.SV_a_LOOP.addr a]; s.Inv ∧ (s.dev.sAxis a).aligning = true ∧ s.dev.srvMotion a ≠ 3) ∧
    (∃ (a : Fin 2) (s : State), let here := [R.SV_a_POS.addr a, R.SV_a_LOOP.addr a]; s.Inv ∧ (s.dev.sAxis a).aligning = true ∧ s.dev.srvMotion a = 3) :=
  ⟨⟨.p1, 1, 1, wServoRequests2, inv_of (by decide +kernel), by decide +kernel, by decide +kernel⟩,
    ⟨.p1, 1, 1, ⟨wit, []⟩, inv_of (by decide +kernel), by decide +kernel⟩,
    ⟨1, ⟨wit, []⟩, inv_of (by decide +kernel), by decide +kernel⟩,
    ⟨1, wServoRequests3, inv_of (by decide +kernel), by decide +kernel, by decide +kernel⟩,
    ⟨1, wServoRequests4, inv_of (by decide +kernel), by decide +kernel, by decide +kernel⟩⟩

def wServoLoop0 : State :=
  ⟨{ wit with srv.due := true, srv.axes := [{}, ({ asked := true, checking := true, y := 10 ^ 9, q := 2 ^ 40, i := 2 ^ 50 } : SrvAxis)] }.wr F.SV_a_CURRENT_IQ_MAX 1 5, []⟩

def wServoLoop1 : State :=
  ⟨({ wit with srv.due := true, srv.axes := [({ y := 10 ^ 9, q := 2 ^ 40, i := 2 ^ 50, bridge := .on } : SrvAxis), {}] }.wr F.SV_a_CURRENT_IQ_MAX 1 5).wr F.WT_Qn_STAT_QUAD_FAULT 1 1 |>.wr F.SV_a_STAT_REFERENCED 0 1, []⟩

def wServoLoop2 : State :=
  ⟨{ wit with srv.axes := [{}, ({ bridge := .short, q := 2 ^ 30, duty := (1, 2, 65535) } : SrvAxis)] }.wr F.SV_a_CURRENT_OC_LIMIT 1 100, []⟩

def wServoLoop3 : State :=
  ⟨({ wit with srv.axes := [{}, ({ bridge := .on, overLimit := true, aligning := true, id := 5, iq := -9, q := -5 * 2 ^ 24 - 1, duty := (1, 2, 65535) } : SrvAxis)] }.wr F.SV_a_CURRENT_OC_LIMIT 1 100).wr F.SV_a_CURRENT_CUR_KI 1 7 |>.wr F.SV_a_COMM_ALIGN_I 1 300, []⟩

def wServoLoop4 : State :=
  ⟨({ wit with srv.axes := [{}, ({ bridge := .on, q := 2 ^ 30, duty := (1, 2, 65535) } : SrvAxis)] }.wr F.SV_a_CURRENT_OC_LIMIT 1 100).setFunc (.srv 1) { st := .starting, kept := some true }, []⟩

def wServoLoop5 : State :=
  ⟨{ wit with srv.axes := [{}, ({ bridge := .short, q := 2 ^ 30, duty := (1, 2, 65535) } : SrvAxis)] }.wr F.SV_a_CURRENT_OC_LIMIT 1 100 |>.wr F.SV_a_STAT_MOTION 1 3, []⟩

def wServoLoop6 : State :=
  ⟨{ wit with srv.axes := [({ bridge := .off, q := 2 ^ 30, aligning := true } : SrvAxis), {}] }.wr F.SV_a_STAT_MOTION 0 3, []⟩

def wServoLoop7 : State :=
  ⟨({ wit with srv.axes := [{}, ({ bridge := .on, q := 2 ^ 30, duty := (1, 2, 65535) } : SrvAxis)] }).setFunc (.srv 1) { st := .stopping, kept := some true }, []⟩

def wServoLoop8 : State :=
  ⟨{ wit with srv.axes := [{}, ({ bridge := .on, q := 2 ^ 30, duty := (1, 2, 65535) } : SrvAxis)] }.wr F.SV_a_CFG_FAULT_ACTION 1 1, []⟩

def wServoLoop9 : State :=
  ⟨{ wit with srv.axes := [{}, ({ asked := false, missing := 2, valid := false } : SrvAxis)] }.wr F.SV_a_FB_FB_SCALE 1 77, []⟩

def wServoLoop10 : State :=
  ⟨{ wit with srv.axes := [{}, ({ asked := true, frame := some (3, 7) } : SrvAxis)] }.wr F.SV_a_FB_FB_SCALE 1 77, []⟩

def wServoLoop11 : State :=
  ⟨{ wit with srv.axes := [{}, ({ asked := true, missing := 2, valid := false } : SrvAxis)] }.wr F.SV_a_FB_FB_SCALE 1 77, []⟩

def wServoLoop12 : State :=
  ⟨{ wit with srv.axes := [{}, ({ asked := true, missing := 2, valid := false, y := -7, frame := some (2 ^ 28 - 1, 4), requests := 1 } : SrvAxis)] }.wr F.SV_a_FB_FB_SCALE 1 77, []⟩

def wServoLoop13 : State :=
  ⟨{ wit with srv.axes := [{}, ({ asked := true, checking := true, missing := 1, frame := some (5, 5), y1 := 50, y2 := 20 } : SrvAxis)] }.wr F.SV_a_FB_FB_SCALE 1 77, []⟩

def wServoLoop14 : State :=
  ⟨{ wit with pat.loaded.servo := [] }, []⟩

def wServoLoop15 : State :=
  ⟨{ wit with srv.axes := [{}, ({ sector := some 4, illegal := [500, 400] } : SrvAxis)] }, []⟩

def wServoLoop16 : State :=
  ⟨{ wit with srv.axes := [{}, ({ sector := some 5 } : SrvAxis)] }, []⟩

def wServoLoop17 : State :=
  ⟨{ wit with srv.axes := [{}, ({ sector := some 4, illegal := [400] } : SrvAxis)] }, []⟩

theorem witness_ServoLoop_part1 :
    (∃ (a : Fin 2) (n : Fin 4) (s : State), s.Inv ∧ s.dev.srv.due = false) ∧
    (∃ (a : Fin 2) (n : Fin 4) (s : State), s.Inv ∧ s.dev.srv.due = true) ∧
    (∃ (a : Fin 2) (n : Fin 4) (s : State), s.Inv ∧ s.dev.srv.due = true ∧ s.dev.srvRuns a = true ∧ s.dev.srvState a = .on ∧ s.dev.srvMotion a ≠ 3 ∧ s.dev.qFeed a = some n ∧ s.dev.rd F.WT_Qn_STAT_QUAD_FAULT n = 1) ∧
    (∃ (a : Fin 2) (iu iv iw : Int) (s : State), let oc := s.dev.rd F.SV_a_CURRENT_OC_LIMIT a; let trips := decide (oc < iu.natAbs) || (decide (oc < iv.natAbs) || decide (oc < iw.natAbs)); let x := s.dev.sAxis a; let ki : Int := s.dev.rd F.SV_a_CURRENT_CUR_KI a; let i := parkOf iu iv iw (if x.aligning then 0 else x.theta); let want : Int × Int := if x.aligning then (s.dev.rd F.SV_a_COMM_ALIGN_I a, 0) else (0, x.q / 2 ^ 24); s.Inv ∧ x.bridge ≠ .on ∧ (trips = false ∨ s.dev.canFault a 1 = false)) ∧
    (∃ (a : Fin 2) (iu iv iw : Int) (s : State), let oc := s.dev.rd F.SV_a_CURRENT_OC_LIMIT a; let trips := decide (oc < iu.natAbs) || (decide (oc < iv.natAbs) || decide (oc < iw.natAbs)); let x := s.dev.sAxis a; let ki : Int := s.dev.rd F.SV_a_CURRENT_CUR_KI a; let i := parkOf iu iv iw (if x.aligning then 0 else x.theta); let want : Int × Int := if x.aligning then (s.dev.rd F.SV_a_COMM_ALIGN_I a, 0) else (0, x.q / 2 ^ 24); s.Inv ∧ x.bridge = .on ∧ trips = false) ∧
    (∃ (a : Fin 2) (iu iv iw : Int) (s : State), let oc := s.dev.rd F.SV_a_CURRENT_OC_LIMIT a; let trips := decide (oc < iu.natAbs) || (decide (oc < iv.natAbs) || decide (oc < iw.natAbs)); let x := s.dev.sAxis a; let ki : Int := s.dev.rd F.SV_a_CURRENT_CUR_KI a; let i := parkOf iu iv iw (if x.aligning then 0 else x.theta); let want : Int × Int := if x.aligning then (s.dev.rd F.SV_a_COMM_ALIGN_I a, 0) else (0, x.q / 2 ^ 24); s.Inv ∧ trips = true) ∧
    (∃ (a : Fin 2) (iu iv iw : Int) (s : State), let oc := s.dev.rd F.SV_a_CURRENT_OC_LIMIT a; let trips := decide (oc < iu.natAbs) || (decide (oc < iv.natAbs) || decide (oc < iw.natAbs)); let x := s.dev.sAxis a; let ki : Int := s.dev.rd F.SV_a_CURRENT_CUR_KI a; let i := parkOf iu iv iw (if x.aligning then 0 else x.theta); let want : Int × Int := if x.aligning then (s.dev.rd F.SV_a_COMM_ALIGN_I a, 0) else (0, x.q / 2 ^ 24); s.Inv ∧ trips = true ∧ s.dev.srvState a = .on ∧ s.dev.canFault a 1 = true) ∧
    (∃ (a : Fin 2) (s : State), s.Inv ∧ s.dev.canFault a 1 = false) ∧
    (∃ (a : Fin 2) (s : State), s.Inv ∧ s.dev.canFault a 1 = true) ∧
    (∃ (a : Fin 2) (s : State), s.Inv ∧ s.dev.canFault a 1 = true ∧ s.dev.srvState a = .on) :=
  ⟨⟨1, 1, ⟨wit, []⟩, inv_of (by decide +kernel), by decide +kernel⟩,
    ⟨1, 1, wServoLoop0, inv_of (by decide +kernel), by decide +kernel⟩,
    ⟨0, 1, wServoLoop1, inv_of (by decide +kernel), by decide +kernel, by decide +kernel, by decide +kernel, by decide +kernel, by decide +kernel, by decide +kernel⟩,
    ⟨1, 100, (-100), 0, wServoLoop2, inv_of (by decide +kernel), by decide +kernel, by decide +kernel⟩,
    ⟨1, (-77), 3, 90, wServoLoop3, inv_of (by decide +kernel), by decide +kernel, by decide +kernel⟩,
    ⟨1, 100, (-101), 0, wServoLoop4, inv_of (by decide +kernel), by decide +kernel⟩,
    ⟨1, 100, 0, (-101), wServoLoop5, inv_of (by decide +kernel), by decide +kernel, by decide +kernel, by decide +kernel⟩,
    ⟨0, wServoLoop6, inv_of (by decide +kernel), by decide +kernel⟩,
    ⟨1, wServoLoop7, inv_of (by decide +kernel), by decide +kernel⟩,
    ⟨1, wServoLoop8, inv_of (by decide +kernel), by decide +kernel, by decide +kernel⟩⟩

theorem witness_ServoLoop_part2 :
    (∃ (a : Fin 2) (fr : AbsFrame) (pos cnt : Nat) (s : State), let v := fr.bits.toNat; let x := s.dev.sAxis a; let here := [R.SV_a_STAT.addr a, R.SV_a_POS.addr a, R.SV_a_LOOP.addr a]; let takes := (s.dev.srvRuns a || x.checking) && ((s.dev.qFeed a).isNone && x.asked); let good := fr.started && (decide (crc34 (v / 2 ^ 8) = v % 256) && !v.testBit 41); let scale := s.dev.rdS F.SV_a_FB_FB_SCALE a; let ahead := fun (c : Nat) => (v / 2 ^ 8 % 16 + 16 - c) % 16; let stale := x.frame.any fun f => decide (ahead f.2 = 0) || decide (x.requests < ahead f.2); s.Inv ∧ takes = false) ∧
    (∃ (a : Fin 2) (fr : AbsFrame) (pos cnt : Nat) (s : State), let v := fr.bits.toNat; let x := s.dev.sAxis a; let here := [R.SV_a_STAT.addr a, R.SV_a_POS.addr a, R.SV_a_LOOP.addr a]; let takes := (s.dev.srvRuns a || x.checking) && ((s.dev.qFeed a).isNone && x.asked); let good := fr.started && (decide (crc34 (v / 2 ^ 8) = v % 256) && !v.testBit 41); let scale := s.dev.rdS F.SV_a_FB_FB_SCALE a; let ahead := fun (c : Nat) => (v / 2 ^ 8 % 16 + 16 - c) % 16; let stale := x.frame.any fun f => decide (ahead f.2 = 0) || decide (x.requests < ahead f.2); s.Inv ∧ takes = true) ∧
    (∃ (a : Fin 2) (fr : AbsFrame) (pos cnt : Nat) (s : State), let v := fr.bits.toNat; let x := s.dev.sAxis a; let here := [R.SV_a_STAT.addr a, R.SV_a_POS.addr a, R.SV_a_LOOP.addr a]; let takes := (s.dev.srvRuns a || x.checking) && ((s.dev.qFeed a).isNone && x.asked); let good := fr.started && (decide (crc34 (v / 2 ^ 8) = v % 256) && !v.testBit 41); let scale := s.dev.rdS F.SV_a_FB_FB_SCALE a; let ahead := fun (c : Nat) => (v / 2 ^ 8 % 16 + 16 - c) % 16; let stale := x.frame.any fun f => decide (ahead f.2 = 0) || decide (x.requests < ahead f.2); s.Inv ∧ takes = true ∧ good = true ∧ x.frame = none) ∧
    (∃ (a : Fin 2) (fr : AbsFrame) (pos cnt : Nat) (s : State), let v := fr.bits.toNat; let x := s.dev.sAxis a; let here := [R.SV_a_STAT.addr a, R.SV_a_POS.addr a, R.SV_a_LOOP.addr a]; let takes := (s.dev.srvRuns a || x.checking) && ((s.dev.qFeed a).isNone && x.asked); let good := fr.started && (decide (crc34 (v / 2 ^ 8) = v % 256) && !v.testBit 41); let scale := s.dev.rdS F.SV_a_FB_FB_SCALE a; let ahead := fun (c : Nat) => (v / 2 ^ 8 % 16 + 16 - c) % 16; let stale := x.frame.any fun f => decide (ahead f.2 = 0) || decide (x.requests < ahead f.2); s.Inv ∧ takes = true ∧ good = true ∧ stale = false ∧ x.frame = some (pos, cnt)) ∧
    (∃ (a : Fin 2) (fr : AbsFrame) (pos cnt : Nat) (s : State), let v := fr.bits.toNat; let x := s.dev.sAxis a; let here := [R.SV_a_STAT.addr a, R.SV_a_POS.addr a, R.SV_a_LOOP.addr a]; let takes := (s.dev.srvRuns a || x.checking) && ((s.dev.qFeed a).isNone && x.asked); let good := fr.started && (decide (crc34 (v / 2 ^ 8) = v % 256) && !v.testBit 41); let scale := s.dev.rdS F.SV_a_FB_FB_SCALE a; let ahead := fun (c : Nat) => (v / 2 ^ 8 % 16 + 16 - c) % 16; let stale := x.frame.any fun f => decide (ahead f.2 = 0) || decide (x.requests < ahead f.2); s.Inv ∧ takes = true ∧ (good = false ∨ stale = true)) ∧
    (∃ (h a : Fin 2) (code : Fin 8) (t k old : Nat) (s : State), let x := s.dev.sAxis a; let e := if (old = 5 ∧ k = 0) ∨ (old = 0 ∧ k = 5) then 0 else max old k; let uses := fun (b : Fin 2) => (s.dev.servoSec b).enable && decide ((s.dev.servoSec b).commutation = h.val); s.Inv ∧ (∀ b : Fin 2, uses b = false)) ∧
    (∃ (h a : Fin 2) (code : Fin 8) (t k old : Nat) (s : State), let x := s.dev.sAxis a; let e := if (old = 5 ∧ k = 0) ∨ (old = 0 ∧ k = 5) then 0 else max old k; let uses := fun (b : Fin 2) => (s.dev.servoSec b).enable && decide ((s.dev.servoSec b).commutation = h.val); s.Inv ∧ (∀ b : Fin 2, uses b = decide (b = a)) ∧ hallSector code = some k ∧ x.sector = some k) ∧
    (∃ (h a : Fin 2) (code : Fin 8) (t k old : Nat) (s : State), let x := s.dev.sAxis a; let e := if (old = 5 ∧ k = 0) ∨ (old = 0 ∧ k = 5) then 0 else max old k; let uses := fun (b : Fin 2) => (s.dev.servoSec b).enable && decide ((s.dev.servoSec b).commutation = h.val); s.Inv ∧ (∀ b : Fin 2, uses b = decide (b = a)) ∧ hallSector code = some k ∧ x.sector = some old ∧ k ≠ old ∧ ((old + 1) % 6 = k ∨ (k + 1) % 6 = old)) ∧
    (∃ (h a : Fin 2) (code : Fin 8) (t k old : Nat) (s : State), let x := s.dev.sAxis a; let e := if (old = 5 ∧ k = 0) ∨ (old = 0 ∧ k = 5) then 0 else max old k; let uses := fun (b : Fin 2) => (s.dev.servoSec b).enable && decide ((s.dev.servoSec b).commutation = h.val); s.Inv ∧ (∀ b : Fin 2, uses b = decide (b = a)) ∧ hallSector code = none ∧ x.illegal.length < 2) :=
  ⟨⟨1, ({ bits := BitVec.ofNat 42 ((2 ^ 32 + 5) * 256 + crc34 (2 ^ 32 + 5)) }), 0, 0, wServoLoop9, inv_of (by decide +kernel), by decide +kernel⟩,
    ⟨1, ({ bits := BitVec.ofNat 42 ((2 ^ 32 + 5) * 256 + crc34 (2 ^ 32 + 5)) }), 0, 0, wServoLoop10, inv_of (by decide +kernel), by decide +kernel⟩,
    ⟨1, ({ bits := BitVec.ofNat 42 ((2 ^ 32 + 5) * 256 + crc34 (2 ^ 32 + 5)) }), 0, 0, wServoLoop11, inv_of (by decide +kernel), by decide +kernel, by decide +kernel, by decide +kernel⟩,
    ⟨1, ({ bits := BitVec.ofNat 42 ((2 ^ 32 + 5) * 256 + crc34 (2 ^ 32 + 5)) }), (2 ^ 28 - 1), 4, wServoLoop12, inv_of (by decide +kernel), by decide +kernel, by decide +kernel, by decide +kernel, by decide +kernel⟩,
    ⟨1, ({ bits := BitVec.ofNat 42 ((2 ^ 32 + 5) * 256 + crc34 (2 ^ 32 + 5)) }), 0, 0, wServoLoop13, inv_of (by decide +kernel), by decide +kernel, by decide +kernel⟩,
    ⟨0, 1, 7, 500, 0, 0, wServoLoop14, inv_of (by decide +kernel), by decide +kernel⟩,
    ⟨1, 1, 4, 500, 4, 0, wServoLoop15, inv_of (by decide +kernel), by decide +kernel, by decide +kernel, by decide +kernel⟩,
    ⟨1, 1, 1, 500, 0, 5, wServoLoop16, inv_of (by decide +kernel), by decide +kernel, by decide +kernel, by decide +kernel, by decide +kernel, by decide +kernel⟩,
    ⟨1, 1, 7, 500, 0, 0, wServoLoop17, inv_of (by decide +kernel), by decide +kernel, by decide +kernel, by decide +kernel⟩⟩

def wTrimAndSpares0 : State :=
  ⟨wit.wr F.TRM_TRIM_CTRL_BUSY 0 1, []⟩

def wTrimAndSpares1 : State :=
  ⟨{ wit with trm.store := Fuse.of 188 5, trm.check := some (3, 1) }, []⟩

def wTrimAndSpares2 : State :=
  ⟨{ wit with trm.store := Fuse.of 188 5 }, []⟩

def wTrimAndSpares3 : State :=
  ⟨{ wit with trm.store := Fuse.of 188 5, trm.trim := some { place := 3 } }, []⟩

def wTrimAndSpares4 : State :=
  ⟨{ wit with trm.trim := some { place := 3, waiting := true } }, []⟩

def wTrimAndSpares5 : State :=
  ⟨{ wit with trm.trim := some { place := 3 } }, []⟩

def wTrimAndSpares6 : State :=
  ⟨{ wit with trm.trim := some { place := 25, recs := [(3, {})] } }, []⟩

def wTrimAndSpares7 : State :=
  ⟨{ wit with trm.trim := some { place := 26, prog := some (77 * 2 ^ (48 * 25)), recs := [(0, { status := 2 }), (1, { status := 1 })], port := some 1 } }.wr F.TRM_TRIM_CTRL_BUSY 0 1, []⟩

def wTrimAndSpares8 : State :=
  ⟨{ wit with trm.trim := some {} }, []⟩

def wTrimAndSpares9 : State :=
  ⟨(({ wit with trm.next := 23 }.wr F.TRM_CH_STATUS 25 1).wr (spareFld 1) 0 0x1F).wr (spareFld 0) 0 5, []⟩

def wTrimAndSpares10 : State :=
  ⟨{ wit with trm.store := Fuse.of 188 5, trm.check := some (14, 1), trm.badSpares := [1], trm.trim := some { waiting := true } }, []⟩

def wTrimAndSpares11 : State :=
  ⟨{ wit with trm.store := Fuse.of 188 5, trm.check := some (14, 1), trm.trim := some { waiting := true, port := some 1 } }, []⟩

def wTrimAndSpares12 : State :=
  ⟨{ wit with trm.check := some (23, 1) }, []⟩

def wTrimAndSpares13 : State :=
  ⟨wit.wr F.TRM_CH_REPLACED 9 1, []⟩

def wTrimAndSpares14 : State :=
  ⟨{ wit with trm.badSpares := [1] }, []⟩

def wTrimAndSpares15 : State :=
  ⟨(wit.wr (spareFld 1) 0 0x1F), []⟩

def wTrimAndSpares16 : State :=
  ⟨(({ wit with trm.check := some (22, 0) }.wr F.TRM_CH_STATUS 25 1).wr (spareFld 1) 0 0x1F).wr (spareFld 0) 0 5, []⟩

def wTrimAndSpares17 : State :=
  ⟨(({ wit with trm.check := some (22, 1) }.wr F.TRM_CH_STATUS 25 1).wr (spareFld 1) 0 0x1F).wr (spareFld 0) 0 5, []⟩

def wTrimAndSpares18 : State :=
  ⟨wit.wr F.MOT_n_STAT_MOTION 3 1, []⟩

theorem witness_TrimAndSpares_part1 :
    (∃ (m : Master) (val : Nat) (s : State), let keyed := decide (bitsOf val 31 16 = 0x5452); let ends := fun (n : Nat) => s.dev.raised ++ [s.dev.event (.secureAnd (portOf m)) 0x1201 [(1, n), (1, 0)]]; s.Inv ∧ s.dev.Takes m R.TRM_TRIM_CTRL 0 ∧ keyed = false) ∧
    (∃ (m : Master) (val : Nat) (s : State), let keyed := decide (bitsOf val 31 16 = 0x5452); let ends := fun (n : Nat) => s.dev.raised ++ [s.dev.event (.secureAnd (portOf m)) 0x1201 [(1, n), (1, 0)]]; s.Inv ∧ s.dev.Takes m R.TRM_TRIM_CTRL 0 ∧ keyed = true ∧ ¬ setsBit val 0) ∧
    (∃ (m : Master) (val : Nat) (s : State), let keyed := decide (bitsOf val 31 16 = 0x5452); let ends := fun (n : Nat) => s.dev.raised ++ [s.dev.event (.secureAnd (portOf m)) 0x1201 [(1, n), (1, 0)]]; s.Inv ∧ s.dev.Takes m R.TRM_TRIM_CTRL 0 ∧ keyed = true ∧ setsBit val 0 ∧ s.dev.trm.trim = none ∧ (s.dev.trm.store.blank = true ∨ s.dev.trm.check ≠ none)) ∧
    (∃ (m : Master) (val : Nat) (s : State), let keyed := decide (bitsOf val 31 16 = 0x5452); let ends := fun (n : Nat) => s.dev.raised ++ [s.dev.event (.secureAnd (portOf m)) 0x1201 [(1, n), (1, 0)]]; s.Inv ∧ s.dev.Takes m R.TRM_TRIM_CTRL 0 ∧ keyed = true ∧ setsBit val 0 ∧ s.dev.trm.trim = none ∧ s.dev.trm.store.blank = false ∧ s.dev.trm.check = none) ∧
    (∃ (m : Master) (val : Nat) (s : State), let keyed := decide (bitsOf val 31 16 = 0x5452); let ends := fun (n : Nat) => s.dev.raised ++ [s.dev.event (.secureAnd (portOf m)) 0x1201 [(1, n), (1, 0)]]; s.Inv ∧ s.dev.Takes m R.TRM_TRIM_CTRL 0 ∧ keyed = true ∧ setsBit val 0 ∧ s.dev.trm.trim ≠ none) ∧
    (∃ (rLo rHi sLo sHi : Int) (t : TrimRun) (s : State), let g := roundDiv (25000 * 32768 * 16) (rHi - rLo); let o := roundDiv (2 * rLo - rHi) 16; let e := fun (x n : Int) => ((x - 16 * o) * g - n * 16 * 32768).natAbs; let q := min 255 (roundDiv (max (e sLo 25000) (e sHi 50000) : Nat) 32768).toNat; let good := if q ≤ s.dev.rd F.TRM_TRIM_CTRL_RES_MAX then 1 else 2; let busy := s.dev.trm.trim = some t ∧ (t.waiting = false ∧ t.prog = none); s.Inv ∧ s.dev.trm.trim = none) ∧
    (∃ (rLo rHi sLo sHi : Int) (t : TrimRun) (s : State), let g := roundDiv (25000 * 32768 * 16) (rHi - rLo); let o := roundDiv (2 * rLo - rHi) 16; let e := fun (x n : Int) => ((x - 16 * o) * g - n * 16 * 32768).natAbs; let q := min 255 (roundDiv (max (e sLo 25000) (e sHi 50000) : Nat) 32768).toNat; let good := if q ≤ s.dev.rd F.TRM_TRIM_CTRL_RES_MAX then 1 else 2; let busy := s.dev.trm.trim = some t ∧ (t.waiting = false ∧ t.prog = none); s.Inv ∧ s.dev.trm.trim = some t ∧ (t.waiting = true ∨ t.prog ≠ none)) ∧
    (∃ (rLo rHi sLo sHi : Int) (t : TrimRun) (s : State), let g := roundDiv (25000 * 32768 * 16) (rHi - rLo); let o := roundDiv (2 * rLo - rHi) 16; let e := fun (x n : Int) => ((x - 16 * o) * g - n * 16 * 32768).natAbs; let q := min 255 (roundDiv (max (e sLo 25000) (e sHi 50000) : Nat) 32768).toNat; let good := if q ≤ s.dev.rd F.TRM_TRIM_CTRL_RES_MAX then 1 else 2; let busy := s.dev.trm.trim = some t ∧ (t.waiting = false ∧ t.prog = none); s.Inv ∧ busy ∧ (rHi < 48500 * 16 ∨ 51500 * 16 < rHi)) ∧
    (∃ (rLo rHi sLo sHi : Int) (t : TrimRun) (s : State), let g := roundDiv (25000 * 32768 * 16) (rHi - rLo); let o := roundDiv (2 * rLo - rHi) 16; let e := fun (x n : Int) => ((x - 16 * o) * g - n * 16 * 32768).natAbs; let q := min 255 (roundDiv (max (e sLo 25000) (e sHi 50000) : Nat) 32768).toNat; let good := if q ≤ s.dev.rd F.TRM_TRIM_CTRL_RES_MAX then 1 else 2; let busy := s.dev.trm.trim = some t ∧ (t.waiting = false ∧ t.prog = none); s.Inv ∧ busy ∧ 48500 * 16 ≤ rHi ∧ rHi ≤ 51500 * 16) ∧
    (∃ (rLo rHi sLo sHi : Int) (t : TrimRun) (s : State), let g := roundDiv (25000 * 32768 * 16) (rHi - rLo); let o := roundDiv (2 * rLo - rHi) 16; let e := fun (x n : Int) => ((x - 16 * o) * g - n * 16 * 32768).natAbs; let q := min 255 (roundDiv (max (e sLo 25000) (e sHi 50000) : Nat) 32768).toNat; let good := if q ≤ s.dev.rd F.TRM_TRIM_CTRL_RES_MAX then 1 else 2; let busy := s.dev.trm.trim = some t ∧ (t.waiting = false ∧ t.prog = none); s.Inv ∧ busy ∧ 48500 * 16 ≤ rHi ∧ rHi ≤ 51500 * 16 ∧ rLo < rHi ∧ g < 65536 ∧ -32768 ≤ o ∧ o ≤ 32767) :=
  ⟨⟨.p1, 0x5453FF01, ⟨wit, []⟩, inv_of (by decide +kernel), by decide +kernel, by decide +kernel⟩,
    ⟨.p1, 0x5452FFFE, wTrimAndSpares0, inv_of (by decide +kernel), by decide +kernel, by decide +kernel, by decide +kernel⟩,
    ⟨.p1, 0x5452FF01, wTrimAndSpares1, inv_of (by decide +kernel), by decide +kernel, by decide +kernel, by decide +kernel, by decide +kernel, by decide +kernel⟩,
    ⟨.p1, 0x5452FF01, wTrimAndSpares2, inv_of (by decide +kernel), by decide +kernel, by decide +kernel, by decide +kernel, by decide +kernel, by decide +kernel, by decide +kernel⟩,
    ⟨.p1, 0x5452FF01, wTrimAndSpares3, inv_of (by decide +kernel), by decide +kernel, by decide +kernel, by decide +kernel, by decide +kernel⟩,
    ⟨(24000 * 16), (50000 * 16), 0, 0, ({ place := 3 }), ⟨wit, []⟩, inv_of (by decide +kernel), by decide +kernel⟩,
    ⟨(24000 * 16), (50000 * 16), 0, 0, ({ place := 3, waiting := true }), wTrimAndSpares4, inv_of (by decide +kernel), by decide +kernel, by decide +kernel⟩,
    ⟨(24000 * 16), (51500 * 16 + 1), 0, 0, ({ place := 3 }), wTrimAndSpares5, inv_of (by decide +kernel), by decide +kernel, by decide +kernel⟩,
    ⟨(51500 * 16), (51500 * 16), 0, 0, ({ place := 25, recs := [(3, {})] }), wTrimAndSpares6, inv_of (by decide +kernel), by decide +kernel, by decide +kernel, by decide +kernel⟩,
    ⟨(25000 * 16), (50000 * 16), (25010 * 16), (49990 * 16), ({ place := 25, recs := [(3, {})] }), wTrimAndSpares6, inv_of (by decide +kernel), by decide +kernel, by decide +kernel, by decide +kernel, by decide +kernel, by decide +kernel, by decide +kernel, by decide +kernel⟩⟩

theorem witness_TrimAndSpares_part2 :
    (∃ (t : TrimRun) (v : Nat) (s : State), s.Inv ∧ s.dev.trm.trim = none) ∧
    (∃ (t : TrimRun) (v : Nat) (s : State), s.Inv ∧ s.dev.trm.trim = some t ∧ t.prog = none) ∧
    (∃ (t : TrimRun) (v : Nat) (s : State), s.Inv ∧ s.dev.trm.trim = some t ∧ t.prog = some v) ∧
    (∃ (x k : Nat) (s : State), let idle := (s.dev.trm.trim.isSome || s.dev.trm.check.isSome) || (s.dev.freeSpare.isNone || s.dev.nextChecked.isNone); s.Inv ∧ idle = true) ∧
    (∃ (x k : Nat) (s : State), let idle := (s.dev.trm.trim.isSome || s.dev.trm.check.isSome) || (s.dev.freeSpare.isNone || s.dev.nextChecked.isNone); s.Inv ∧ idle = false ∧ s.dev.freeSpare = some x ∧ s.dev.nextChecked = some k) ∧
    (∃ (reading : Int) (k : Fin 24) (x : Fin 2) (t : TrimRun) (s : State), let refused := s.dev.trm.trim.any fun t => t.waiting && !s.dev.trm.store.blank; s.Inv ∧ s.dev.trm.check = none) ∧
    (∃ (reading : Int) (k : Fin 24) (x : Fin 2) (t : TrimRun) (s : State), let refused := s.dev.trm.trim.any fun t => t.waiting && !s.dev.trm.store.blank; s.Inv ∧ s.dev.trm.check = some (k.val, x.val)) ∧
    (∃ (reading : Int) (k : Fin 24) (x : Fin 2) (t : TrimRun) (s : State), let refused := s.dev.trm.trim.any fun t => t.waiting && !s.dev.trm.store.blank; s.Inv ∧ s.dev.trm.check = some (k.val, x.val) ∧ s.dev.trm.trim = some t ∧ refused = true ∧ offReference reading = false) ∧
    (∃ (reading : Int) (k : Fin 24) (x : Fin 2) (t : TrimRun) (s : State), let refused := s.dev.trm.trim.any fun t => t.waiting && !s.dev.trm.store.blank; s.Inv ∧ s.dev.trm.check = some (k.val, x.val) ∧ refused = false ∧ offReference reading = false) ∧
    (∃ (reading : Int) (k : Fin 24) (x : Fin 2) (t : TrimRun) (s : State), let refused := s.dev.trm.trim.any fun t => t.waiting && !s.dev.trm.store.blank; s.Inv ∧ s.dev.trm.check = some (k.val, x.val) ∧ refused = false ∧ offReference reading = true ∧ x.val ∉ s.dev.trm.badSpares) :=
  ⟨⟨({ place := 3 }), 1, ⟨wit, []⟩, inv_of (by decide +kernel), by decide +kernel⟩,
    ⟨({ place := 3 }), 1, wTrimAndSpares5, inv_of (by decide +kernel), by decide +kernel, by decide +kernel⟩,
    ⟨({ place := 26, prog := some (77 * 2 ^ (48 * 25)), recs := [(0, { status := 2 }), (1, { status := 1 })], port := some 1 }), (77 * 2 ^ (48 * 25)), wTrimAndSpares7, inv_of (by decide +kernel), by decide +kernel, by decide +kernel⟩,
    ⟨1, 2, wTrimAndSpares8, inv_of (by decide +kernel), by decide +kernel⟩,
    ⟨1, 23, wTrimAndSpares9, inv_of (by decide +kernel), by decide +kernel, by decide +kernel, by decide +kernel⟩,
    ⟨24480, 2, 1, ({ place := 3 }), ⟨wit, []⟩, inv_of (by decide +kernel), by decide +kernel⟩,
    ⟨0, 14, 1, ({ waiting := true }), wTrimAndSpares10, inv_of (by decide +kernel), by decide +kernel⟩,
    ⟨24000, 14, 1, ({ waiting := true, port := some 1 }), wTrimAndSpares11, inv_of (by decide +kernel), by decide +kernel, by decide +kernel, by decide +kernel, by decide +kernel⟩,
    ⟨24480, 23, 1, ({ place := 3 }), wTrimAndSpares12, inv_of (by decide +kernel), by decide +kernel, by decide +kernel, by decide +kernel⟩,
    ⟨23519, 23, 1, ({ place := 3 }), wTrimAndSpares12, inv_of (by decide +kernel), by decide +kernel, by decide +kernel, by decide +kernel, by decide +kernel⟩⟩

theorem witness_TrimAndSpares_part3 :
    (∃ (k : Fin 26) (j : Nat) (n : Fin 4) (a x : Fin 2) (s : State), let gone := s.dev.on F.TRM_CH_REPLACED k || s.dev.trm.failed.contains k.val; let fails := decide (k.val < 24) && (!gone && s.dev.trm.check.all fun c => decide (c.1 ≠ k.val)); let lost := { s.dev.trm with failed := s.dev.trm.failed ++ [k.val] }; s.Inv ∧ k.val < 24 ∧ gone = true) ∧
    (∃ (k : Fin 26) (j : Nat) (n : Fin 4) (a x : Fin 2) (s : State), let gone := s.dev.on F.TRM_CH_REPLACED k || s.dev.trm.failed.contains k.val; let fails := decide (k.val < 24) && (!gone && s.dev.trm.check.all fun c => decide (c.1 ≠ k.val)); let lost := { s.dev.trm with failed := s.dev.trm.failed ++ [k.val] }; s.Inv ∧ 24 ≤ k.val ∧ k.val - 24 ∈ s.dev.trm.badSpares) ∧
    (∃ (k : Fin 26) (j : Nat) (n : Fin 4) (a x : Fin 2) (s : State), let gone := s.dev.on F.TRM_CH_REPLACED k || s.dev.trm.failed.contains k.val; let fails := decide (k.val < 24) && (!gone && s.dev.trm.check.all fun c => decide (c.1 ≠ k.val)); let lost := { s.dev.trm with failed := s.dev.trm.failed ++ [k.val] }; s.Inv ∧ 24 ≤ k.val ∧ k.val - 24 ∉ s.dev.trm.badSpares ∧ s.dev.rd (spareFld (k.val - 24)) = 0x1F) ∧
    (∃ (k : Fin 26) (j : Nat) (n : Fin 4) (a x : Fin 2) (s : State), let gone := s.dev.on F.TRM_CH_REPLACED k || s.dev.trm.failed.contains k.val; let fails := decide (k.val < 24) && (!gone && s.dev.trm.check.all fun c => decide (c.1 ≠ k.val)); let lost := { s.dev.trm with failed := s.dev.trm.failed ++ [k.val] }; s.Inv ∧ fails = true ∧ s.dev.freeSpare = some x.val ∧ s.dev.trm.check.map (·.2) ≠ some x.val) ∧
    (∃ (k : Fin 26) (j : Nat) (n : Fin 4) (a x : Fin 2) (s : State), let gone := s.dev.on F.TRM_CH_REPLACED k || s.dev.trm.failed.contains k.val; let fails := decide (k.val < 24) && (!gone && s.dev.trm.check.all fun c => decide (c.1 ≠ k.val)); let lost := { s.dev.trm with failed := s.dev.trm.failed ++ [k.val] }; s.Inv ∧ k.val < 24 ∧ gone = false ∧ s.dev.trm.check = some (j, x.val) ∧ s.dev.trm.trim = none ∧ (j = k.val → x.val ∉ s.dev.trm.badSpares) ∧ (j ≠ k.val → s.dev.freeSpare = some x.val)) ∧
    (∃ (k : Fin 26) (j : Nat) (n : Fin 4) (a x : Fin 2) (s : State), let gone := s.dev.on F.TRM_CH_REPLACED k || s.dev.trm.failed.contains k.val; let fails := decide (k.val < 24) && (!gone && s.dev.trm.check.all fun c => decide (c.1 ≠ k.val)); let lost := { s.dev.trm with failed := s.dev.trm.failed ++ [k.val] }; s.Inv ∧ fails = true ∧ s.dev.freeSpare = none ∧ 14 ≤ k.val) ∧
    (∃ (k : Fin 26) (j : Nat) (n : Fin 4) (a x : Fin 2) (s : State), let gone := s.dev.on F.TRM_CH_REPLACED k || s.dev.trm.failed.contains k.val; let fails := decide (k.val < 24) && (!gone && s.dev.trm.check.all fun c => decide (c.1 ≠ k.val)); let lost := { s.dev.trm with failed := s.dev.trm.failed ++ [k.val] }; s.Inv ∧ fails = true ∧ s.dev.freeSpare = none ∧ k.val / 2 = n.val) ∧
    (∃ (k : Fin 26) (j : Nat) (n : Fin 4) (a x : Fin 2) (s : State), let gone := s.dev.on F.TRM_CH_REPLACED k || s.dev.trm.failed.contains k.val; let fails := decide (k.val < 24) && (!gone && s.dev.trm.check.all fun c => decide (c.1 ≠ k.val)); let lost := { s.dev.trm with failed := s.dev.trm.failed ++ [k.val] }; s.Inv ∧ fails = true ∧ s.dev.freeSpare = none ∧ 8 ≤ k.val ∧ k.val < 14 ∧ (k.val - 8) / 3 = a.val) :=
  ⟨⟨9, 0, 1, 1, 1, wTrimAndSpares13, inv_of (by decide +kernel), by decide +kernel, by decide +kernel⟩,
    ⟨25, 0, 1, 1, 1, wTrimAndSpares14, inv_of (by decide +kernel), by decide +kernel, by decide +kernel⟩,
    ⟨25, 0, 1, 1, 1, wTrimAndSpares15, inv_of (by decide +kernel), by decide +kernel, by decide +kernel, by decide +kernel⟩,
    ⟨23, 0, 1, 1, 1, wTrimAndSpares16, inv_of (by decide +kernel), by decide +kernel, by decide +kernel, by decide +kernel⟩,
    ⟨23, 22, 1, 1, 1, wTrimAndSpares17, inv_of (by decide +kernel), by decide +kernel, by decide +kernel, by decide +kernel, by decide +kernel, by decide +kernel, by decide +kernel⟩,
    ⟨23, 0, 1, 1, 1, ⟨wit, []⟩, inv_of (by decide +kernel), by decide +kernel, by decide +kernel, by decide +kernel⟩,
    ⟨7, 0, 3, 1, 1, wTrimAndSpares18, inv_of (by decide +kernel), by decide +kernel, by decide +kernel, by decide +kernel⟩,
    ⟨13, 0, 1, 1, 1, ⟨wit, []⟩, inv_of (by decide +kernel), by decide +kernel, by decide +kernel, by decide +kernel, by decide +kernel, by decide +kernel⟩⟩

/-! ### Statements about every step: what their hypotheses ask is met -/

theorem witness_StepRunsFront : ∃ s : State, s.pending = [] := ⟨State.reset, rfl⟩

theorem witness_ResetValues :
    ∃ row ∈ regTable, ∃ f ∈ row.flds, ∃ i, i < (row.reg.dims.map Prod.fst).prod ∧
      row.reg.addr i ≠ R.SYS_RST_CAUSE.addr 0 ∧ row.reg.addr i ≠ R.HL_INHIBIT_CTRL.addr 0 := by
  refine ⟨regTable.head (by decide +kernel), List.head_mem _, (regTable.head (by decide +kernel)).flds.head (by decide +kernel),
    List.head_mem _, 0, ?_⟩
  decide +kernel

theorem witness_EveryStepKeepsInv : ∃ s t : State, s.Inv ∧ step s = .next t :=
  ⟨⟨wit, []⟩, ⟨wit.tick, []⟩, inv_of (by decide +kernel), rfl⟩

theorem witness_FactoryFusesNeverChange :
    (∃ s t : State, step s = .next t) ∧
    (∃ s t : State, step s = .next t ∧ t.dev.sys.reset = s.dev.sys.reset ∧
      (∀ c ∈ s.pending.head?, c ≠ .fuseProgDone ∧ c ≠ .rollbackProgDone ∧ ∀ n b r, c ≠ .pornRelease n b r)) :=
  ⟨⟨⟨wit, []⟩, ⟨wit.tick, []⟩, rfl⟩, ⟨⟨wit, []⟩, ⟨wit.tick, []⟩, rfl, by decide +kernel, by simp⟩⟩

end Sys2Proof.Tests

end
end

section
/-!
The index edges of R95 in OFF mode. The model keeps an index that was latched until an axis takes it (`Quad.index`), and every index
edge of a channel that is ON hands it to the axes that search one (R348), whatever IDX_MODE reads. The invariant does not tie
`Quad.index` to MOTION, so an axis can be REFERENCING while an earlier index stands latched.
-/

namespace Sys2Proof.Machine

theorem exec_indexEdge (n : Fin 4) (t : Nat) (s : State) : exec (.indexEdge n t) s = execIndexEdge n t s := rfl

/-- In OFF mode an index edge latches nothing, but what stands latched is handed on. -/
theorem exec_indexEdge_of_off (n : Fin 4) (t : Nat) (s : State) (hon : s.dev.funcOn (.q n) = true)
    (hoff : s.dev.rd F.WT_Qn_CFG_IDX_MODE n = 0) : exec (.indexEdge n t) s = s.actInOrder fun d => d.takeIndex n := by
  have hlatch : s.dev.indexEdge n t = s.dev := by simp [Dev.indexEdge, hon, hoff]
  simp only [exec_indexEdge, execIndexEdge, State.actInOrder_next, hon, if_true, hlatch]

/-- Where an edge in OFF mode is ignored, handing on the latched index posts no event. -/
theorem takeIndex_raised_length_of_ignored {n : Fin 4} {t : Nat} {s : State} (hon : s.dev.funcOn (.q n) = true)
    (hoff : s.dev.rd F.WT_Qn_CFG_IDX_MODE n = 0) (h : Ignored (.indexEdge n t) s) :
    (s.dev.takeIndex n).raised.length = s.dev.raised.length := by
  rw [Ignored, exec_indexEdge_of_off n t s hon hoff, State.actInOrder_next] at h
  injection h with h
  rw [← Dev.orderEvents_length (s.dev.takeIndex n) s.dev.raised.length]
  exact congrArg (fun u : State => u.dev.raised.length) h

/-- Channel 1 is ON with IDX_MODE OFF and holds an index latched at 4,000 ns; servo axis 0, which it feeds, is ON and REFERENCING. -/
def searchWithIndexLatched : State :=
  { State.reset with
    dev := ((({ State.reset.dev with pat.applied := true, pat.loaded.servo := [{ enable := true }, {}] }.setFunc (.q 1) { st := .on }).setFunc
      (.srv 0) { st := .on }).wr F.SV_a_STAT_MOTION 0 2).setQuad 1 fun q => { q with index := some (4000, 0) } }

theorem searchWithIndexLatched_inv : searchWithIndexLatched.Inv := by
  constructor <;> decide +kernel

/-- There the axis takes the index and posts SERVO_REFERENCED (R348). -/
theorem searchWithIndexLatched_takeIndex_raised_length :
    (searchWithIndexLatched.dev.takeIndex 1).raised.length = searchWithIndexLatched.dev.raised.length + 1 := by
  decide +kernel

/-- Refutes O21: an index edge in OFF mode is not ignored in every state of the invariant. With an index latched before and an axis
REFERENCING on the channel, the edge makes the axis take that index, which moves it out of REFERENCING and posts SERVO_REFERENCED. -/
theorem not_indexAndScale : ¬ Obligations.IndexAndScale := by
  unfold Obligations.IndexAndScale
  intro ⟨edges, _, _⟩
  have hon : searchWithIndexLatched.dev.funcOn (.q 1) = true := by decide +kernel
  have hoff : searchWithIndexLatched.dev.rd F.WT_Qn_CFG_IDX_MODE 1 = 0 := by decide +kernel
  obtain ⟨_, ignored, _⟩ := edges 1 5000 searchWithIndexLatched searchWithIndexLatched_inv hon
  have hposts := takeIndex_raised_length_of_ignored hon hoff (ignored hoff)
  rw [searchWithIndexLatched_takeIndex_raised_length] at hposts
  exact Nat.succ_ne_self _ hposts

end Sys2Proof.Machine
end

section
/-!
PROOFS. Changes that keep the invariant, the fuses and the reset under way: the updates that the model is made of.
-/

namespace Sys2Proof.Machine

set_option Elab.async false


theorem forall_mem_modify {α : Type} {P : α → Prop} {f : α → α} {l : List α} (n : Nat) (h : ∀ x ∈ l, P x) (hf : ∀ x, P x → P (f x)) :
    ∀ x ∈ l.modify n f, P x := by
  intro x hx
  obtain ⟨i, hi, rfl⟩ := List.mem_iff_getElem.mp hx
  rw [List.getElem_modify]
  have hy := h _ (List.getElem_mem (by simpa using hi))
  split
  · exact hf _ hy
  · exact hy

theorem mapWf_iff {α : Type} [DecidableEq α] {dflt : Nat → α} {lo : Nat} {m : List (Nat × α)} :
    mapWf dflt lo m = true ↔ (∀ c ∈ m, lo ≤ c.1 ∧ c.2 ≠ dflt c.1) ∧ m.Pairwise (·.1 < ·.1) := by
  induction m generalizing lo with
  | nil => simp [mapWf]
  | cons c m ih =>
    obtain ⟨a, v⟩ := c
    simp only [mapWf, Bool.and_eq_true, decide_eq_true_eq, ih, List.mem_cons, forall_eq_or_imp, List.pairwise_cons]
    constructor
    · rintro ⟨hlo, hv, hm, hp⟩
      exact ⟨⟨⟨hlo, hv⟩, fun c hc => ⟨by have := (hm c hc).1; omega, (hm c hc).2⟩⟩, fun c hc => (hm c hc).1, hp⟩
    · rintro ⟨⟨⟨hlo, hv⟩, hm⟩, hlt, hp⟩
      exact ⟨hlo, hv, fun c hc => ⟨hlt c hc, (hm c hc).2⟩, hp⟩

/-- Three stretches of memory, one above the other, make one. -/
theorem Memory.wf_append {a b c : List Host.Cell} {lo hi : Nat} (ha : Memory.wf a = true) (hb : Memory.wf b = true)
    (hc : Memory.wf c = true) (hlo : ∀ x ∈ a, x.1 < lo) (hin : ∀ x ∈ b, lo ≤ x.1 ∧ x.1 < hi) (hhi : ∀ x ∈ c, hi ≤ x.1) (hle : lo ≤ hi) :
    Memory.wf (a ++ b ++ c) = true := by
  simp only [Memory.wf, mapWf_iff, List.mem_append, List.pairwise_append] at *
  obtain ⟨ha, ha'⟩ := ha
  obtain ⟨hb, hb'⟩ := hb
  obtain ⟨hc, hc'⟩ := hc
  refine ⟨?_, ⟨ha', hb', fun x hx y hy => (hlo x hx).trans_le (hin y hy).1⟩, hc', ?_⟩
  · rintro x ((hx | hx) | hx)
    exacts [ha x hx, hb x hx, hc x hx]
  · rintro x (hx | hx) y hy
    · exact ((hlo x hx).trans_le hle).trans_le (hhi y hy)
    · exact (hin x hx).2.trans_le (hhi y hy)

theorem Memory.wf_filter {m : List Host.Cell} (p : Host.Cell → Bool) (h : Memory.wf m = true) : Memory.wf (m.filter p) = true := by
  rw [Memory.wf, mapWf_iff] at *
  exact ⟨fun c hc => h.1 c (List.mem_filter.mp hc).1, h.2.filter p⟩

/-- The cells of one nozzle's total: the bytes that are not 0, at the nozzle's 8 addresses. -/
theorem saveCells_mem {d : Dev} {c : Host.Cell} (h : c ∈ d.saveCells) :
    d.saveBase ≤ c.1 ∧ c.1 < d.saveBase + 2 ^ 20 ∧ c.2 ≠ 0 := by
  simp only [Dev.saveCells, List.mem_flatMap, List.mem_range, List.mem_filterMap] at h
  obtain ⟨nz, hnz, p, hp, hc⟩ := h
  have hlt : p.2 < 8 := by simpa using List.snd_lt_of_mem_zipIdx hp
  split at hc
  · cases hc
  next h0 =>
    cases hc
    exact ⟨by dsimp only; omega, by dsimp only; omega, h0⟩

theorem saveCells_wf (d : Dev) : Memory.wf d.saveCells = true := by
  rw [Memory.wf, mapWf_iff]
  refine ⟨fun c hc => ⟨Nat.zero_le _, (saveCells_mem hc).2.2⟩, ?_⟩
  unfold Dev.saveCells
  rw [List.pairwise_flatMap]
  constructor
  · intro nz _
    rw [List.pairwise_filterMap]
    have hlt : ((leBytes 8 (d.actTotal nz)).zipIdx).Pairwise (·.2 < ·.2) := by
      rw [← List.pairwise_map (f := Prod.snd), List.zipIdx_map_snd]
      exact List.pairwise_lt_range'
    refine hlt.imp ?_
    intro p q hpq x hx y hy
    split at hx
    · cases hx
    · split at hy
      · cases hy
      · cases hx
        cases hy
        dsimp only
        omega
  · refine List.pairwise_lt_range.imp ?_
    intro i j hij x hx y hy
    simp only [List.mem_filterMap] at hx hy
    obtain ⟨p, hp, hx⟩ := hx
    obtain ⟨q, hq, hy⟩ := hy
    have hlt : p.2 < 8 := by simpa using List.snd_lt_of_mem_zipIdx hp
    split at hx
    · cases hx
    · split at hy
      · cases hy
      · cases hx
        cases hy
        dsimp only
        omega

/-- A change that keeps the invariant, and leaves the fuses and the reset under way as they were. -/
structure Dev.Tame (d e : Dev) : Prop where
  inv : d.Inv → e.Inv
  fuses : e.vlt.fuses = d.vlt.fuses
  reset : e.sys.reset = d.sys.reset

namespace Dev.Tame

theorem refl (d : Dev) : d.Tame d := ⟨id, rfl, rfl⟩

theorem trans {d e f : Dev} (h : d.Tame e) (k : e.Tame f) : d.Tame f :=
  ⟨fun hd => k.inv (h.inv hd), k.fuses.trans h.fuses, k.reset.trans h.reset⟩

variable {d e : Dev}

/-- An update of the fields of the device that leaves the register map, DRAM, the retention RAM and the lists of ports and links, keeps the
length of every other list, and leaves the fuses and the reset. -/
theorem update (h : d.Tame e) {regsOpen : List (Nat × Word)} {snapD : List (Nat × Int)} {ue : List Nat} {out : List Out} {raised : List Ev}
    {tallies : List Tally} {onceKeys : List (Nat × Nat)} {freeCtr : Nat} {bus : Bus} {sys : Sys} {pat : Pat} {tmb : Tmb} {web : Web}
    {cdc : Cdc} {las : Las} {pace : Pace} {hst : Hst} {vlt : Vlt} {unauth : List (Nat × Nat)} {ins : Ins} {nzh : Nzh} {drm : Dram}
    {mot : Mot} {srv : Srv} {trm : Trm} {tap : Tap}
    (hsys : sys.reset = e.sys.reset := by rfl) (htmb : tmb.ports.length = e.tmb.ports.length := by rfl)
    (hquads : web.quads.length = e.web.quads.length := by rfl) (hcmpJ : web.cmpJ = e.web.cmpJ := by rfl)
    (henc : cdc.enc.length = e.cdc.enc.length := by rfl) (hwin : cdc.win.length = e.cdc.win.length := by rfl)
    (htemps : pace.temps.length = e.pace.temps.length := by rfl) (hports : hst.ports = e.hst.ports := by rfl)
    (huploads : hst.uploads.length = e.hst.uploads.length := by rfl) (hram : vlt.ram = e.vlt.ram := by rfl)
    (hfuses : vlt.fuses = e.vlt.fuses := by rfl) (hcams : ins.cams.length = e.ins.cams.length := by rfl)
    (hi2c : ins.i2c.length = e.ins.i2c.length := by rfl) (harbs : drm.arbs.length = e.drm.arbs.length := by rfl)
    (hmot : mot.axes.length = e.mot.axes.length := by rfl) (hsrv : srv.axes.length = e.srv.axes.length := by rfl) :
    d.Tame { regs := e.regs, regsOpen := regsOpen, snapD := snapD, mem := e.mem, ue := ue, out := out, raised := raised, tallies := tallies,
             onceKeys := onceKeys, freeCtr := freeCtr, bus := bus, sys := sys, pat := pat, tmb := tmb, web := web, cdc := cdc, las := las,
             pace := pace, hst := hst, vlt := vlt, hl := e.hl, unauth := unauth, ins := ins, nzh := nzh, drm := drm, mot := mot, srv := srv,
             trm := trm, tap := tap } where
  inv hd := by
    have he := h.inv hd
    exact { regs := he.regs, mem := he.mem, ram := hram ▸ he.ram, ports := hports ▸ he.ports, vectors := hports ▸ he.vectors
            uploads := huploads.trans he.uploads, ptp := htmb.trans he.ptp, quads := hquads.trans he.quads, enc := henc.trans he.enc
            win := hwin.trans he.win, temps := htemps.trans he.temps, links := he.links, reqs := he.reqs, cams := hcams.trans he.cams
            i2c := hi2c.trans he.i2c, arbs := harbs.trans he.arbs, motAxes := hmot.trans he.motAxes, srvAxes := hsrv.trans he.srvAxes
            cmpJ := hcmpJ ▸ he.cmpJ }
  fuses := hfuses.trans h.fuses
  reset := hsys.trans h.reset

theorem ite {c : Prop} [Decidable c] {a b : Dev} (ha : d.Tame a) (hb : d.Tame b) : d.Tame (if c then a else b) := by
  split <;> assumption

theorem ite_snd {α : Type} {c : Prop} [Decidable c] {a b : α × Dev} (ha : d.Tame a.2) (hb : d.Tame b.2) :
    d.Tame (if c then a else b).2 := by
  split <;> assumption

theorem ite_snd_snd {α β : Type} {c : Prop} [Decidable c] {a b : α × β × Dev} (ha : d.Tame a.2.2) (hb : d.Tame b.2.2) :
    d.Tame (if c then a else b).2.2 := by
  split <;> assumption

theorem of_eq {α : Type} {p : α × Dev} {x : α} {f : Dev} (h : d.Tame p.2) (hp : p = (x, f)) : d.Tame f := by
  subst hp
  exact h

theorem of_eq_snd {α β : Type} {p : α × β × Dev} {x : α} {y : β} {f : Dev} (h : d.Tame p.2.2) (hp : p = (x, y, f)) : d.Tame f := by
  subst hp
  exact h

theorem foldl {α : Type} (h : d.Tame e) {f : Dev → α → Dev} (l : List α) (hf : ∀ e x, d.Tame e → d.Tame (f e x)) :
    d.Tame (l.foldl f e) := by
  induction l generalizing e with
  | nil => exact h
  | cons x xs ih => exact ih (hf e x h)

theorem foldl_snd {α β : Type} {b : β × Dev} (h : d.Tame b.2) {f : β × Dev → α → β × Dev} (l : List α)
    (hf : ∀ b x, d.Tame b.2 → d.Tame (f b x).2) : d.Tame (l.foldl f b).2 := by
  induction l generalizing b with
  | nil => exact h
  | cons x xs ih => exact ih (hf b x h)

theorem foldl_snd_snd {α β γ : Type} {b : β × γ × Dev} (h : d.Tame b.2.2) {f : β × γ × Dev → α → β × γ × Dev} (l : List α)
    (hf : ∀ b x, d.Tame b.2.2 → d.Tame (f b x).2.2) : d.Tame (l.foldl f b).2.2 := by
  induction l generalizing b with
  | nil => exact h
  | cons x xs ih => exact ih (hf b x h)

/-- A free value is taken: its counter goes on. -/
theorem freeNext (h : d.Tame e) : d.Tame { e with freeCtr := e.freeCtr + 1 } := h.update

theorem setReg (h : d.Tame e) (r : Reg) (i v : Nat) : d.Tame (e.setReg r i v) where
  inv hd := { h.inv hd with regs := Dev.setReg_rising _ _ _ _ (h.inv hd).regs }
  fuses := h.fuses
  reset := h.reset

theorem setByte (h : d.Tame e) (a : Nat) (b : Byte) : d.Tame (e.setByte a b) where
  inv hd := { h.inv hd with mem := Dev.setByte_wf _ _ _ (h.inv hd).mem }
  fuses := h.fuses
  reset := h.reset

theorem setBytes (h : d.Tame e) (a : Nat) (bs : List Byte) : d.Tame (e.setBytes a bs) where
  inv hd := { h.inv hd with mem := Dev.setBytes_wf _ _ _ (h.inv hd).mem }
  fuses := h.fuses
  reset := h.reset

theorem setRam (h : d.Tame e) (off : Nat) (bs : List Byte) : d.Tame (e.setRam off bs) where
  inv hd := { h.inv hd with ram := wf_storeBytes _ _ _ (h.inv hd).ram }
  fuses := h.fuses
  reset := h.reset

/-- A change of one host port that keeps the length of its MSI-X table and of its base addresses. -/
theorem setPort (h : d.Tame e) (p : Nat) {f : HostPort → HostPort}
    (hf : ∀ x, (f x).msix.length = x.msix.length ∧ (f x).bars.length = x.bars.length := by exact fun _ => ⟨rfl, rfl⟩) :
    d.Tame (e.setPort p f) where
  inv hd := { h.inv hd with
    ports := by simpa [Dev.setPort] using (h.inv hd).ports
    vectors := forall_mem_modify p (h.inv hd).vectors fun x hx => ⟨(hf x).1.trans hx.1, (hf x).2.trans hx.2⟩
    uploads := (h.inv hd).uploads }
  fuses := h.fuses
  reset := h.reset

/-- A change of one link that keeps the number of its requests. -/
theorem setLink (h : d.Tame e) (l : Nat) {f : LinkSt → LinkSt} (hf : ∀ x, x.reqs.length = 3 → (f x).reqs.length = 3 := by exact fun _ hx => hx) :
    d.Tame (e.setLink l f) where
  inv hd := { h.inv hd with
    links := by simpa [Dev.setLink] using (h.inv hd).links
    reqs := forall_mem_modify l (h.inv hd).reqs hf }
  fuses := h.fuses
  reset := h.reset

/-- A free value is taken where the figure has no value of its own. -/
theorem freeOr {α : Type} (h : d.Tame e) (c : Prop) [Decidable c] (x y : α) :
    d.Tame (if c then (x, e) else (y, { e with freeCtr := e.freeCtr + 1 })).2 :=
  ite_snd h h.freeNext

/-- A change that is made under a condition. -/
theorem opt {c : Prop} [Decidable c] (h : d.Tame e) (f : Dev → Dev) (hf : ∀ e, d.Tame e → d.Tame (f e)) :
    d.Tame (if c then f e else e) :=
  ite (hf e h) h

/-- A change that is made unless a condition holds. -/
theorem optNot {c : Prop} [Decidable c] (h : d.Tame e) (f : Dev → Dev) (hf : ∀ e, d.Tame e → d.Tame (f e)) :
    d.Tame (if c then e else f e) :=
  ite h (hf e h)

/-- The three outcomes of an access check. -/
theorem check {c : Check} {x y z : Dev} (hx : d.Tame x) (hy : d.Tame y) (hz : d.Tame z) :
    d.Tame (match c with | .unmapped => x | .world => y | .pass => z) := by
  cases c <;> assumption

end Dev.Tame
end Sys2Proof.Machine
end

section
/-!
PROOFS. One rule for each function of the model: after a change that keeps the invariant, the fuses and the reset, its own change keeps
them too. The rules stand in the order of the definitions and follow their text.
-/

namespace Sys2Proof.Machine.Dev.Tame

set_option Elab.async false

variable {d e : Dev}

theorem wr (h : d.Tame e) (f : Fld) (i : Nat) (v : Nat) : d.Tame (e.wr f i v) := by
  unfold Dev.wr
  exact h.setReg _ _ _

theorem wrS (h : d.Tame e) (f : Fld) (i : Nat) (v : Int) : d.Tame (e.wrS f i v) := by
  unfold Dev.wrS
  exact h.wr _ _ _

theorem wrB (h : d.Tame e) (f : Fld) (i : Nat) (b : Bool) : d.Tame (e.wrB f i b) := by
  unfold Dev.wrB
  exact h.wr _ _ _

theorem wrBit (h : d.Tame e) (f : Fld) (b : Nat) (i : Nat) (v : Bool) : d.Tame (e.wrBit f b i v) := by
  unfold Dev.wrBit
  exact h.wr _ _ _

theorem bump (h : d.Tame e) (f : Fld) (i : Nat) (n : Nat) : d.Tame (e.bump f i n) := by
  unfold Dev.bump
  exact h.wr _ _ _

theorem count (h : d.Tame e) (f : Fld) (i : Nat) (n : Nat) : d.Tame (e.count f i n) := by
  unfold Dev.count
  exact h.update

theorem uncount (h : d.Tame e) (f : Fld) (i : Nat) : d.Tame (e.uncount f i) := by
  unfold Dev.uncount
  exact h.update

theorem regWrite (h : d.Tame e) (row : Row) (i : Nat) (new : Nat) (mask : Nat) : d.Tame (e.regWrite row i new mask) := by
  unfold Dev.regWrite
  exact h.setReg _ _ _

theorem summary (h : d.Tame e) (code : Nat) (payload : List Sys2Proof.Byte) : d.Tame (e.summary code payload) := by
  unfold Dev.summary
  exact ite (h.wr _ _ _) (ite (h.wr _ _ _) (ite (h.wr _ _ _) h))

theorem raiseAt (h : d.Tame e) (t : Dest) (code : Nat) (beat : Nat) (payload : List (Nat × Nat)) : d.Tame (e.raiseAt t code beat payload) := by
  unfold Dev.raiseAt
  exact (h.summary _ _).update

theorem raise (h : d.Tame e) (t : Dest) (code : Nat) (payload : List (Nat × Nat)) : d.Tame (e.raise t code payload) := by
  unfold Dev.raise
  exact h.raiseAt _ _ _ _

theorem tally (h : d.Tame e) (t : Dest) (code : Nat) (key : Nat) (payload : List (Nat × Nat)) (n : Nat) : d.Tame (e.tally t code key payload n) := by
  unfold Dev.tally
  split
  · exact h.update
  · exact h.update

theorem postTally (h : d.Tame e) (g : Tally) : d.Tame (e.postTally g) := by
  unfold Dev.postTally
  exact (h.summary _ _).update

theorem flushTallies (h : d.Tame e) : d.Tame (e.flushTallies) := by
  unfold Dev.flushTallies
  exact foldl h.update _ (fun _ _ h1 => h1.postTally _)

theorem raiseOnce (h : d.Tame e) (t : Dest) (code : Nat) (key : Nat) (payload : List (Nat × Nat)) : d.Tame (e.raiseOnce t code key payload) := by
  unfold Dev.raiseOnce
  exact ite h ((h.raise _ _ _).update)

theorem orderEvents (h : d.Tame e) (n : Nat) : d.Tame (e.orderEvents n) := by
  unfold Dev.orderEvents
  exact h.update

theorem emit (h : d.Tame e) (o : Out) : d.Tame (e.emit o) := by
  unfold Dev.emit
  exact h.update

theorem free (h : d.Tame e) (n : Nat) : d.Tame (e.free n).2 := by
  unfold Dev.free
  exact h.update

theorem worldViolation (h : d.Tame e) (a : Nat) (requester : Nat) : d.Tame (e.worldViolation a requester) := by
  unfold Dev.worldViolation
  exact h.raise _ _ _

/-- `modify` keeps the number of channels. -/
theorem setArb (h : d.Tame e) (ch : Nat) (f : Arb → Arb) : d.Tame (e.setArb ch f) :=
  h.update (harbs := List.length_modify ..)

theorem movedBytes (h : d.Tame e) (ch : Nat) (r : Nat) (n : Nat) : d.Tame (e.movedBytes ch r n) := by
  unfold Dev.movedBytes
  exact h.setArb _ _

theorem touchBank (h : d.Tame e) (ch : Nat) (ca : Nat) : d.Tame (e.touchBank ch ca) := by
  unfold Dev.touchBank
  exact h.update

theorem moveGranule (h : d.Tame e) (req : Nat) (g : Nat) : d.Tame (e.moveGranule req g) := by
  unfold Dev.moveGranule
  exact (h.movedBytes _ _ _).touchBank _ _

theorem sweepGranule (h : d.Tame e) (ch : Nat) (g : Nat) : d.Tame (e.sweepGranule ch g) := by
  unfold Dev.sweepGranule
  exact h.moveGranule _ _

theorem noteUe (h : d.Tame e) (g : Nat) (req : Nat) (host : Option (Fin 2)) : d.Tame (e.noteUe g req host) := by
  unfold Dev.noteUe
  exact ((((h.count _ _ _).wr _ _ _).wr _ _ _).wr _ _ _).tally _ _ _ _ _

theorem takeGranule (h : d.Tame e) (req : Nat) (host : Option (Fin 2)) (g : Nat) : d.Tame (e.takeGranule req host g).2 := by
  unfold Dev.takeGranule
  split
  · exact h.update
  · exact ite ((h.moveGranule _ _).noteUe _ _ _) (h.moveGranule _ _)

theorem misread (h : d.Tame e) (a len : Nat) (ws : List Nat) : d.Tame (e.misread a len ws).2 := by
  induction ws generalizing e with
  | nil => exact h
  | cons w ws ih => exact ih h.freeNext

theorem dramRead (h : d.Tame e) (req : Nat) (secure : Bool) (host : Option (Fin 2)) (a len : Nat) :
    d.Tame (e.dramRead req secure host a len).2 := by
  unfold Dev.dramRead
  split
  · exact h
  · exact h.worldViolation _ _
  · split
    next hp =>
      have hg := of_eq (by exact foldl_snd h _ fun _ _ h1 => h1.takeGranule _ _ _) hp
      split
      · exact hg
      · exact hg.misread _ _ _

theorem readSource (h : d.Tame e) (req : Nat) (secure : Bool) (port : Option (Fin 2)) (a : Nat) (len : Nat) : d.Tame (e.readSource req secure port a len).2.2 := by
  unfold Dev.readSource
  exact foldl_snd_snd h _ (fun _ _ h1 => ite_snd_snd h1 (by
      dsimp only
      split
      · next hp =>
        exact (h1.dramRead _ _ _ _ _).of_eq hp
      · next hp =>
        exact (h1.dramRead _ _ _ _ _).of_eq hp))

theorem storeWrong (h : d.Tame e) (ws : List Nat) : d.Tame (e.storeWrong ws) := by
  induction ws generalizing e with
  | nil => exact h
  | cons w ws ih => exact ih (h.freeNext.setBytes _ _)

theorem putGranule (h : d.Tame e) (a : Nat) (bs : List Sys2Proof.Byte) (g : Nat) : d.Tame (e.putGranule a bs g) := by
  unfold Dev.putGranule
  exact (h.setBytes _ _).update

theorem writeGranule (h : d.Tame e) (req : Nat) (host : Option (Fin 2)) (a : Nat) (bs : List Sys2Proof.Byte) (g : Nat) : d.Tame (e.writeGranule req host a bs g).2 := by
  unfold Dev.writeGranule
  exact ite_snd ((h.moveGranule _ _).putGranule _ _ _) (ite_snd ((((h.takeGranule _ _ _).moveGranule _ _).storeWrong _).putGranule _ _ _) (h.takeGranule _ _ _))

theorem dramStore (h : d.Tame e) (req : Nat) (secure : Bool) (host : Option (Fin 2)) (a : Nat) (bs : List Sys2Proof.Byte) : d.Tame (e.dramStore req secure host a bs).2 := by
  unfold Dev.dramStore
  split
  · exact h
  · exact h.worldViolation _ _
  · exact foldl_snd h _ (fun _ _ h1 => h1.writeGranule _ _ _ _ _)

theorem dramWrite (h : d.Tame e) (req : Nat) (secure : Bool) (host : Option (Fin 2)) (a : Nat) (bs : List Sys2Proof.Byte) : d.Tame (e.dramWrite req secure host a bs).2 := by
  unfold Dev.dramWrite
  exact ite_snd h (h.dramStore _ _ _ _ _)

theorem setFunc (h : d.Tame e) (f : Sys2Proof.Func) (s : FuncSt) : d.Tame (e.setFunc f s) := by
  unfold Dev.setFunc
  dsimp only
  split
  · exact (h.update.wr _ _ _).wrBit _ _ _ _
  · exact (h.update.wr _ _ _).wrBit _ _ _ _
  · exact (h.update.wr _ _ _).wrBit _ _ _ _
  · exact (h.update.wr _ _ _).wrBit _ _ _ _
  · exact (h.update.wr _ _ _).wrBit _ _ _ _
  · exact (h.update.wr _ _ _).wr _ _ _
  · exact h.update
  · exact (h.update.wr _ _ _).wr _ _ _
  · exact (h.update.wr _ _ _).wr _ _ _

theorem logAer (h : d.Tame e) (p : Fin 2) (a : Answer) : d.Tame (e.logAer p a) := by
  unfold Dev.logAer
  exact (h.emit _).setPort _

theorem setLatch (h : d.Tame e) (m : Sys2Proof.Master) (l : BusLatch) : d.Tame (e.setLatch m l) := by
  unfold Dev.setLatch
  split
  · exact h.update
  · exact h.update
  · exact h.update

theorem touch (h : d.Tame e) (m : Sys2Proof.Master) : d.Tame (e.touch m) := by
  unfold Dev.touch
  exact h.setLatch _ _

theorem refuse (h : d.Tame e) (m : Sys2Proof.Master) (write : Bool) (c : RegCheck) (off : Nat) : d.Tame (e.refuse m write c off) := by
  unfold Dev.refuse
  exact ite (worldViolation (by
      split
      · exact ite ((h.touch _).logAer _ _) ((h.touch _).emit _)
      · exact (h.touch _).emit _) _ _) (by
      split
      · exact ite ((h.touch _).logAer _ _) ((h.touch _).emit _)
      · exact (h.touch _).emit _)

theorem writeTo (h : d.Tame e) (m : Sys2Proof.Master) (r : Reg) (i : Nat) {f : Dev → Dev} (hf : ∀ e, d.Tame e → d.Tame (f e)) : d.Tame (e.writeTo m r i f) := by
  unfold Dev.writeTo
  exact ite h (by
      split
      · exact hf _ (h.touch _)
      · exact h.touch _
      · exact h.refuse _ _ _ _)

theorem writeOwn (h : d.Tame e) (m : Sys2Proof.Master) (p : Nat) (r : Reg) (i : Nat) {f : Dev → Dev} (hf : ∀ e, d.Tame e → d.Tame (f e)) : d.Tame (e.writeOwn m p r i f) := by
  unfold Dev.writeOwn
  exact h.writeTo _ _ _ (fun _ h1 => ite (hf _ h1) h1)

theorem store (h : d.Tame e) (r : Reg) (i : Nat) (val : Nat) (mask : Nat) : d.Tame (e.store r i val mask) := by
  unfold Dev.store
  split
  · exact h.regWrite _ _ _ _
  · exact h

theorem latchFrac (h : d.Tame e) (m : Sys2Proof.Master) (h' : Hit) : d.Tame (e.latchFrac m h') := by
  unfold Dev.latchFrac
  exact ite (h.setLatch _ _) h

theorem convert (h : d.Tame e) (h' : Hit) : d.Tame (e.convert h') := by
  unfold Dev.convert
  exact ite ((wr (ite_snd h (ite_snd h.freeNext h.freeNext.freeNext)) _ _ _).wrS _ _ _) h

theorem read32 (h : d.Tame e) (m : Sys2Proof.Master) (off : Nat) : d.Tame (e.read32 m off).2 := by
  unfold Dev.read32
  split
  · exact h.touch _
  · exact ite_snd (ite_snd ((h.convert _).touch _) (((h.convert _).latchFrac _ _).setLatch _ _)) ((h.convert _).touch _)

theorem read64 (h : d.Tame e) (m : Sys2Proof.Master) (off : Nat) : d.Tame (e.read64 m off).2 := by
  unfold Dev.read64
  split
  · split
    · exact ((h.convert _).touch _).latchFrac _ _
    · split
      next hlo =>
        split
        next hhi => exact of_eq ((of_eq (h.read32 m off) hlo).read32 m (off + 4)) hhi
  · split
    next hlo =>
      split
      next hhi => exact of_eq ((of_eq (h.read32 m off) hlo).read32 m (off + 4)) hhi

theorem readWord (h : d.Tame e) (m : Sys2Proof.Master) (off : Nat) (bytes : Nat) : d.Tame (e.readWord m off bytes).2 := by
  unfold Dev.readWord
  exact ite_snd (h.touch _) (ite_snd (h.read64 _ _) (h.read32 _ _))

theorem regRead (h : d.Tame e) (m : Sys2Proof.Master) (addr : Nat) (bytes : Nat) : d.Tame (e.regRead m addr bytes) := by
  unfold Dev.regRead
  exact ite h (by
      split
      · exact h.refuse _ _ _ _
      · exact h.refuse _ _ _ _
      · exact (h.readWord _ _ _).emit _)

theorem freeBytes (h : d.Tame e) (n : Nat) : d.Tame (e.freeBytes n).2 := by
  induction n generalizing e with
  | zero => exact h
  | succ n ih => exact ih h.freeNext

theorem hold (h : d.Tame e) (r : Held) : d.Tame (e.hold r) := by
  unfold Dev.hold
  exact h.update

theorem serveRead (h : d.Tame e) (p : Fin 2) (addr : Nat) (len : Nat) : d.Tame (e.serveRead p addr len) := by
  unfold Dev.serveRead
  dsimp only
  split
  · next hp =>
    exact ((h.dramRead _ _ _ _ _).of_eq hp).emit _
  · next hp =>
    exact ((h.dramRead _ _ _ _ _).of_eq hp).emit _
  · next hp =>
    exact ((h.dramRead _ _ _ _ _).of_eq hp).emit _
  · next hp =>
    exact (((h.dramRead _ _ _ _ _).of_eq hp).freeBytes _).emit _

theorem serveWrite (h : d.Tame e) (p : Fin 2) (addr : Nat) (data : List Sys2Proof.Byte) : d.Tame (e.serveWrite p addr data) := by
  unfold Dev.serveWrite
  split
  · next hp =>
    exact (h.dramWrite _ _ _ _ _).of_eq hp
  · next hp =>
    exact ((h.dramWrite _ _ _ _ _).of_eq hp).logAer _ _
  · next hp =>
    exact ((h.dramWrite _ _ _ _ _).of_eq hp).logAer _ _
  · next hp =>
    exact ((h.dramWrite _ _ _ _ _).of_eq hp).logAer _ _

theorem bar2Read (h : d.Tame e) (p : Fin 2) (off : Nat) (len : Nat) : d.Tame (e.bar2Read p off len) := by
  unfold Dev.bar2Read
  exact ite h (ite (h.emit _) (ite (h.hold _) (h.serveRead _ _ _)))

theorem bar2Write (h : d.Tame e) (p : Fin 2) (off : Nat) (data : List Sys2Proof.Byte) : d.Tame (e.bar2Write p off data) := by
  unfold Dev.bar2Write
  exact ite h (ite (h.logAer _ _) (ite (h.hold _) (h.serveWrite _ _ _)))

theorem putGroup (h : d.Tame e) (g : Nat) (bs : List Sys2Proof.Byte) : d.Tame (e.putGroup g bs) := by
  unfold Dev.putGroup
  exact ite h (h.setRam _ _)

theorem setLog (h : d.Tame e) (l : VLog) : d.Tame (e.setLog l) := by
  unfold Dev.setLog
  exact ((((((h.putGroup _ _).wr _ _ _).wr _ _ _).setReg _ _ _).wr _ _ _).wr _ _ _).wrB _ _ _

theorem saveTime (h : d.Tame e) : d.Tame (e.saveTime) := by
  unfold Dev.saveTime
  exact h.putGroup _ _

theorem saveUsage (h : d.Tame e) : d.Tame (e.saveUsage) := by
  unfold Dev.saveUsage
  exact h.putGroup _ _

theorem readVault (h : d.Tame e) : d.Tame (e.readVault) := by
  unfold Dev.readVault
  exact ((((wr (foldl h _ (fun _ _ h1 => h1.putGroup _ _)) _ _ _).wrB _ _ _).wr _ _ _).update).setLog _

theorem loadFuses (h : d.Tame e) : d.Tame (e.loadFuses) := by
  unfold Dev.loadFuses
  exact (wrB (foldl (wr (foldl (((((((h.update.wr _ _ _).wr _ _ _).wr _ _ _).wrB _ _ _).wr _ _ _).wr _ _ _).wr _ _ _) _ (fun _ _ h1 => h1.setReg _ _ _)) _ _ _) _ (fun _ _ h1 => h1.setReg _ _ _)) _ _ _).wr _ _ _

theorem wVltRootHash (h : d.Tame e) (i : Nat) (val : Nat) (mask : Nat) : d.Tame (e.wVltRootHash i val mask) := by
  unfold Dev.wVltRootHash
  exact ite (h.store _ _ _ _) h

theorem wVltHeadRoot (h : d.Tame e) (i : Nat) (val : Nat) (mask : Nat) : d.Tame (e.wVltHeadRoot i val mask) := by
  unfold Dev.wVltHeadRoot
  exact ite h h.update

theorem wVltProg (h : d.Tame e) (val : Nat) (mask : Nat) : d.Tame (e.wVltProg val mask) := by
  unfold Dev.wVltProg
  exact ite h (ite (h.store _ _ _ _) (ite ((h.store _ _ _ _).wr _ _ _) (ite ((h.store _ _ _ _).wr _ _ _) (((h.store _ _ _ _).update).wrB _ _ _))))

theorem wVltRollback (h : d.Tame e) (val : Nat) : d.Tame (e.wVltRollback val) := by
  unfold Dev.wVltRollback
  exact ite h (ite (h.wr _ _ _) (by
      split
      · exact h.wr _ _ _
      · exact ite (h.wr _ _ _) (h.update.wrB _ _ _)))

theorem cutFuse (h : d.Tame e) (n : Nat) : d.Tame (e.cutFuse n).2 := by
  unfold Dev.cutFuse
  exact h.freeNext.freeNext

theorem wVltAttest (h : d.Tame e) (m : Sys2Proof.Master) (val : Nat) : d.Tame (e.wVltAttest m val) := by
  unfold Dev.wVltAttest
  exact ite h (h.update.wrB _ _ _)

theorem attestDone (h : d.Tame e) : d.Tame (e.attestDone) := by
  unfold Dev.attestDone
  split
  · exact h
  · exact ((update (foldl h.freeNext _ (fun _ _ h1 => h1.setReg _ _ _))).wrB _ _ _).raise _ _ _

theorem setTamper (h : d.Tame e) (cause : Nat) : d.Tame (e.setTamper cause) := by
  have hz : d.Tame { e with vlt.tamper := cause, vlt.ram := [] } :=
    { inv := fun hd => { h.inv hd with ram := rfl }, fuses := h.fuses, reset := h.reset }
  exact ite h ((hz.wrB _ _ _).wr _ _ _)

theorem wVltTamper (h : d.Tame e) (val : Nat) (cause : Option Sys2Proof.TamperCause) : d.Tame (e.wVltTamper val cause) := by
  unfold Dev.wVltTamper
  split
  · exact h.setTamper _
  · exact ite (h.setTamper _) (ite ((h.update.wrB _ _ _).wr _ _ _) h)

/-- Retention RAM is written anew. -/
theorem newRam (h : d.Tame e) (bs : List Byte) (tamper : Nat) : d.Tame { e with vlt.ram := storeBytes [] 0 bs, vlt.tamper := tamper } where
  inv hd := { h.inv hd with ram := wf_storeBytes _ _ _ rfl }
  fuses := h.fuses
  reset := h.reset

theorem vbatLoss (h : d.Tame e) : d.Tame e.vbatLoss := by
  unfold Dev.vbatLoss
  split
  · have hb := h.freeBytes 256
    generalize e.freeBytes 256 = b at hb ⊢
    exact hb.freeNext.newRam _ _
  · exact h

theorem setIncr (h : d.Tame e) (n : Nat) : d.Tame (e.setIncr n) := by
  unfold Dev.setIncr
  exact h.wr _ _ _

theorem tick (h : d.Tame e) : d.Tame (e.tick) := by
  unfold Dev.tick
  exact ite h.update (ite h.update h)

theorem setTimeState (h : d.Tame e) (n : Nat) : d.Tame (e.setTimeState n) := by
  unfold Dev.setTimeState
  exact (h.wr _ _ _).update

theorem setStep (h : d.Tame e) (s : Option (Int × Bool)) : d.Tame (e.setStep s) := by
  unfold Dev.setStep
  exact h.update.wrB _ _ _

theorem deferStep (h : d.Tame e) : d.Tame (e.deferStep) := by
  unfold Dev.deferStep
  exact ite h ((h.update.wrB _ _ _).raise _ _ _)

theorem jumpRefused (h : d.Tame e) (o : Int) : d.Tame (e.jumpRefused o) := by
  unfold Dev.jumpRefused
  exact (h.bump _ _ _).raise _ _ _

theorem skipLate (h : d.Tame e) (openT : Nat) : d.Tame (e.skipLate openT) := by
  unfold Dev.skipLate
  exact ite h.update (h.update.bump _ _ _)

theorem shiftTimes (h : d.Tame e) (δ : Int) : d.Tame (e.shiftTimes δ) where
  inv hd := { h.inv hd with
    links := (List.length_map ..).trans (h.inv hd).links
    reqs := List.forall_mem_map.mpr (h.inv hd).reqs
    cams := (List.length_map ..).trans (h.inv hd).cams
    arbs := (List.length_map ..).trans (h.inv hd).arbs
    motAxes := (List.length_map ..).trans (h.inv hd).motAxes
    srvAxes := (List.length_map ..).trans (h.inv hd).srvAxes
    i2c := (h.inv hd).i2c
    temps := (h.inv hd).temps }
  fuses := h.fuses
  reset := h.reset

/-- `Web.shift` maps the channels. -/
theorem stepTimes (h : d.Tame e) (acc openT : Nat) (stepEnd : Option Nat) (δ : Int) :
    d.Tame { e with tmb.acc := acc, tmb.openT := openT, tmb.stepEnd := stepEnd, tmb.unaligned := true, web := e.web.shift δ } :=
  h.update (hquads := List.length_map ..)

theorem applyStep (h : d.Tame e) (move : Int) (host : Bool) : d.Tame (e.applyStep move host) := by
  have hs (acc openT : Nat) (δ δ' : Int) (stepEnd : Option Nat) (new beat : Nat) :=
    ((((((h.shiftTimes δ).stepTimes acc openT stepEnd δ').skipLate new).wr F.GL_BEAT_BEAT 0 beat).setStep none).bump F.TB_STATE_STEPS 0 1)
  unfold Dev.applyStep
  exact ((ite (hs _ _ _ _ _ _ _) ((hs _ _ _ _ _ _ _).setIncr _)).wrB _ _ _).raise _ _ _

theorem setInteg (h : d.Tame e) (i : Int) : d.Tame (e.setInteg i) := by
  unfold Dev.setInteg
  exact h.update.wrS _ _ _

theorem servoRun (h : d.Tame e) (o : Int) (logTs : Int) : d.Tame (e.servoRun o logTs) := by
  unfold Dev.servoRun
  exact (h.setInteg _).setIncr _

theorem slewLimit (h : d.Tame e) (o : Int) : d.Tame (e.slewLimit o) := by
  unfold Dev.slewLimit
  exact h.setIncr _

theorem timeStepApply (h : d.Tame e) : d.Tame (e.timeStepApply) := by
  unfold Dev.timeStepApply
  split
  · exact ite h (ite (h.applyStep _ _) (ite (h.deferStep.slewLimit _) h.deferStep))
  · exact h

theorem lockCount (h : d.Tame e) (o : Int) : d.Tame (e.lockCount o) := by
  unfold Dev.lockCount
  exact ite (ite (((h.setTimeState _).saveTime).raise _ _ _) h.update) (ite (ite ((h.setTimeState _).raise _ _ _) h.update) h)

theorem correct (h : d.Tame e) (o : Int) (logTs : Int) : d.Tame (e.correct o logTs) := by
  unfold Dev.correct
  exact ite (h.jumpRefused _) (ite (servoRun (by
      split
      · exact h.setStep _
      · exact h) _ _) (ite (h.slewLimit _) (ite (h.setStep _) (((h.setStep _).deferStep).slewLimit _))))

theorem servoSample (h : d.Tame e) (o : Int) (logTs : Int) : d.Tame (e.servoSample o logTs) := by
  unfold Dev.servoSample
  exact ite (h.wrS _ _ _) (ite (ite ((h.wrS _ _ _).setTimeState _) ((h.wrS _ _ _).update)) (((h.wrS _ _ _).lockCount _).correct _ _))

theorem wTbIncr (h : d.Tame e) (val : Nat) (mask : Nat) : d.Tame (e.wTbIncr val mask) := by
  unfold Dev.wTbIncr
  exact ite h ((h.store _ _ _ _).setIncr _)

theorem wTbStep (h : d.Tame e) (val : Nat) (mask : Nat) : d.Tame (e.wTbStep val mask) := by
  unfold Dev.wTbStep
  exact ite h (ite (h.update.jumpRefused _) ((h.update.update.setStep _).deferStep))

theorem toggleResync (h : d.Tame e) : d.Tame (e.toggleResync) := by
  unfold Dev.toggleResync
  exact ite h (ite (h.wrB _ _ _) (by
      dsimp only
      split
      · exact (h.wrB _ _ _).setStep _
      · exact h.wrB _ _ _))

theorem manualMode (h : d.Tame e) : d.Tame (e.manualMode) := by
  unfold Dev.manualMode
  exact ite (ite h (by
      dsimp only
      split
      · exact ((h.setTimeState _).setIncr _).setStep _
      · exact (h.setTimeState _).setIncr _)) (ite (h.setTimeState _) h)

theorem wTbCtrl (h : d.Tame e) (val : Nat) (mask : Nat) : d.Tame (e.wTbCtrl val mask) := by
  unfold Dev.wTbCtrl
  exact ite h (manualMode (ite ((h.store _ _ _ _).toggleResync) (h.store _ _ _ _)))

theorem setPtp (h : d.Tame e) (n : Nat) (f : PtpPort → PtpPort) : d.Tame (e.setPtp n f) :=
  h.update (htmb := List.length_modify ..)

theorem ethDiscard (h : d.Tame e) (e' : Nat) : d.Tame (e.ethDiscard e') := by
  unfold Dev.ethDiscard
  exact h.count _ _ _

theorem ptpTake (h : d.Tame e) (e' : Fin 2) (f : Sys2Proof.PtpForm) (mech : Option Bool) {k : Dev → Dev} (hf : ∀ e, d.Tame e → d.Tame (k e)) : d.Tame (e.ptpTake e' f mech k) := by
  unfold Dev.ptpTake
  exact ite (ite (h.ethDiscard _) h) (ite (h.ethDiscard _) (ite (h.ethDiscard _) (ite h (hf _ (h.count _ _ _)))))

theorem toHoldover (h : d.Tame e) : d.Tame (e.toHoldover) := by
  unfold Dev.toHoldover
  exact ((h.setTimeState _).setIncr _).raise _ _ _

theorem select (h : d.Tame e) : d.Tame (e.select) := by
  unfold Dev.select
  exact ite h.update.update (by
      dsimp only
      split
      · exact ite (toHoldover (by
          split
          · exact (h.update.update.wr _ _ _).wr _ _ _
          · exact h.update.update.wr _ _ _)) (by
          split
          · exact (h.update.update.wr _ _ _).wr _ _ _
          · exact h.update.update.wr _ _ _)
      · exact ite ((update (ite (toHoldover (by
          split
          · exact (h.update.update.wr _ _ _).wr _ _ _
          · exact h.update.update.wr _ _ _)) (by
          split
          · exact (h.update.update.wr _ _ _).wr _ _ _
          · exact h.update.update.wr _ _ _))).raise _ _ _) (update (ite (toHoldover (by
          split
          · exact (h.update.update.wr _ _ _).wr _ _ _
          · exact h.update.update.wr _ _ _)) (by
          split
          · exact (h.update.update.wr _ _ _).wr _ _ _
          · exact h.update.update.wr _ _ _))))

theorem loseMaster (h : d.Tame e) : d.Tame (e.loseMaster) := by
  unfold Dev.loseMaster
  split
  · exact h
  · exact h.update.select

theorem announce (h : d.Tame e) (e' : Fin 2) (msg : Sys2Proof.Announce) : d.Tame (e.announce e' msg) := by
  unfold Dev.announce
  exact ite h h.update.select

theorem usableSync (h : d.Tame e) (e' : Fin 2) (t1 : Int) (t2 : Int) (logTs : Int) : d.Tame (e.usableSync e' t1 t2 logTs) := by
  unfold Dev.usableSync
  exact ((h.setPtp _ _).update).servoSample _ _

theorem sync (h : d.Tame e) (e' : Fin 2) (f : Sys2Proof.PtpForm) (msg : Sys2Proof.SyncMsg) : d.Tame (e.sync e' f msg) := by
  unfold Dev.sync
  exact ite h (ite (h.setPtp _ _) (h.usableSync _ _ _ _))

theorem followUp (h : d.Tame e) (e' : Fin 2) (msg : Sys2Proof.FollowUp) : d.Tame (e.followUp e' msg) := by
  unfold Dev.followUp
  exact ite h (by
      split
      · exact ite (h.usableSync _ _ _ _) h
      · exact h)

theorem setDelay (h : d.Tame e) (e' : Fin 2) (v : Int) : d.Tame (e.setDelay e' v) := by
  unfold Dev.setDelay
  exact (h.setPtp _ _).wrS _ _ _

theorem delayResp (h : d.Tame e) (e' : Fin 2) (msg : Sys2Proof.DelayResp) : d.Tame (e.delayResp e' msg) := by
  unfold Dev.delayResp
  exact ite h (by
      split
      · exact ite ((h.setPtp _ _).setDelay _ _) h
      · exact h)

theorem sendPtp (h : d.Tame e) (e' : Fin 2) (kind : Nat) (seq : Nat) (stamp : Nat) (info : Nat) : d.Tame (e.sendPtp e' kind seq stamp info) := by
  unfold Dev.sendPtp
  exact h.emit _

theorem answerPdelay (h : d.Tame e) (e' : Fin 2) (f : Sys2Proof.PtpForm) (msg : Sys2Proof.PdelayReq) : d.Tame (e.answerPdelay e' f msg) := by
  unfold Dev.answerPdelay
  exact ite h ((h.sendPtp _ _ _ _ _).sendPtp _ _ _ _ _)

theorem pdelayResp (h : d.Tame e) (e' : Fin 2) (f : Sys2Proof.PtpForm) (msg : Sys2Proof.PdelayResp) : d.Tame (e.pdelayResp e' f msg) := by
  unfold Dev.pdelayResp
  dsimp only
  split
  · exact h
  · exact ite h (ite (by
      split
      · exact (h.setPtp _ _).setDelay _ _
      · exact h) (ite (h.setPtp _ _) ((h.setPtp _ _).setDelay _ _)))

theorem sendDelayReq (h : d.Tame e) (e' : Fin 2) (capture : Nat) : d.Tame (e.sendDelayReq e' capture) := by
  unfold Dev.sendDelayReq
  exact ite h ((h.setPtp _ _).sendPtp _ _ _ _ _)

theorem sendPdelayReq (h : d.Tame e) (e' : Fin 2) (capture : Nat) : d.Tame (e.sendPdelayReq e' capture) := by
  unfold Dev.sendPdelayReq
  exact ite h ((h.setPtp _ _).sendPtp _ _ _ _ _)

theorem setPage (h : d.Tame e) (uid : Nat) (f : Page → Page) : d.Tame (e.setPage uid f) := by
  unfold Dev.setPage
  exact h.update

theorem suspect (h : d.Tame e) (uid : Nat) : d.Tame (e.suspect uid) := by
  unfold Dev.suspect
  split
  · exact h
  · exact ite (((h.setPage _ _).wr _ _ _).wrB _ _ _) ((h.setPage _ _).wr _ _ _)

theorem blankPage (h : d.Tame e) (uid : Nat) : d.Tame (e.blankPage uid) := by
  unfold Dev.blankPage
  exact (h.setPage _ _).suspect _

theorem suspectLine (h : d.Tame e) (line : Int) : d.Tame (e.suspectLine line) := by
  unfold Dev.suspectLine
  split
  · exact h.suspect _
  · exact h

theorem suspectRunning (h : d.Tame e) : d.Tame (e.suspectRunning) := by
  unfold Dev.suspectRunning
  exact foldl h _ (fun _ _ h1 => h1.suspect _)

theorem webSuspect (h : d.Tame e) (p : Page) : d.Tame (e.webSuspect p) := by
  unfold Dev.webSuspect
  dsimp only
  split
  · exact ite (h.suspect _) (((h.suspect _).setPage _ _).raise _ _ _)
  · exact h.suspect _

theorem setWebState (h : d.Tame e) (n : Nat) : d.Tame (e.setWebState n) := by
  unfold Dev.setWebState
  exact (h.wr _ _ _).wrB _ _ _

theorem suspend (h : d.Tame e) (cause : Nat) : d.Tame (e.suspend cause) := by
  unfold Dev.suspend
  exact ite h ((h.wr _ _ _).wr _ _ _)

theorem exhaust (h : d.Tame e) : d.Tame (e.exhaust) := by
  unfold Dev.exhaust
  exact ite h ((h.update.suspend _).raise _ _ _)

theorem enterCoast (h : d.Tame e) : d.Tame (e.enterCoast) := by
  unfold Dev.enterCoast
  exact ite ((h.update.setWebState _).exhaust) (h.update.setWebState _)

theorem setQuad (h : d.Tame e) (n : Nat) (f : Quad → Quad) : d.Tame (e.setQuad n f) :=
  h.update (hquads := List.length_modify ..)

theorem showDebt (h : d.Tame e) : d.Tame (e.showDebt) := by
  unfold Dev.showDebt
  exact ite ((h.wr _ _ _).update) (ite (h.wr _ _ _) ((h.wr _ _ _).update))

theorem webCount (h : d.Tame e) (sign : Int) (t : Nat) : d.Tame (e.webCount sign t) := by
  unfold Dev.webCount
  exact ite h h.update.showDebt

theorem illegal (h : d.Tame e) (n : Fin 4) (t : Nat) : d.Tame (e.illegal n t) := by
  have hq (l : List Nat) := ((((h.bump F.WT_Qn_STAT_QERR n 1).wr F.WT_Qn_STAT_POS_UNCERTAIN n 1).opt
    (c := (decide (n = 0) && e.webIsQ0) = true) (fun d => { d.wr F.WT_STAT_POS_UNCERTAIN 0 1 with web.lastQerr := t })
    fun _ h => (h.wr _ _ _).update).setQuad n fun q => { q with illegal := l })
  have hf (l : List Nat) := ((hq l).wr F.WT_Qn_STAT_QUAD_FAULT n 1).raise .secure 0x0C01 [(1, n)]
  unfold Dev.illegal
  exact ite (ite (opt ((hf _).wr _ _ _).update (fun d => d.enterCoast) fun _ h => h.enterCoast) (hf _)) (hq _)

theorem quadTransition (h : d.Tame e) (n : Fin 4) (a : Bool) (b : Bool) (t : Nat) : d.Tame (e.quadTransition n a b t) := by
  unfold Dev.quadTransition
  exact ite (h.setQuad _ _) (by
      split
      · exact h.setQuad _ _
      · exact (h.setQuad _ _).illegal _ _
      · exact ite ((((h.setQuad _ _).wrS _ _ _).setQuad _ _).webCount _ _) (((h.setQuad _ _).wrS _ _ _).setQuad _ _))

theorem f0Step (h : d.Tame e) (dir : Bool) (setupOk : Bool) (t : Nat) : d.Tame (e.f0Step dir setupOk t).2 := by
  unfold Dev.f0Step
  exact ite_snd h (ite ((wrS (ite_snd h h.freeNext) _ _ _).update) (((wrS (ite_snd h h.freeNext) _ _ _).update).webCount _ _))

theorem indexEdge (h : d.Tame e) (n : Fin 4) (t : Nat) : d.Tame (e.indexEdge n t) := by
  unfold Dev.indexEdge
  exact ite h (ite (ite ((((((h.setQuad _ _).wrS _ _ _).wr _ _ _).wr _ _ _).wrB _ _ _).raise _ _ _) ((((h.setQuad _ _).wrS _ _ _).wr _ _ _).wr _ _ _)) h)

theorem wWtScale (h : d.Tame e) (val : Nat) (mask : Nat) : d.Tame (e.wWtScale val mask) := by
  unfold Dev.wWtScale
  exact ite ((h.store _ _ _ _).showDebt) (h.wr _ _ _)

theorem observe (h : d.Tame e) (meas : Option (Nat × Int)) (tk : Nat) : d.Tame (e.observe meas tk) := by
  unfold Dev.observe
  exact h.update

theorem settleEdge (h : d.Tame e) (e' : Nat × Int) : d.Tame (e.settleEdge e').2 := by
  unfold Dev.settleEdge
  exact ite_snd (h.update.update.setWebState _) (ite_snd h.update.update h.update)

theorem showObserver (h : d.Tame e) (tk : Nat) : d.Tame (e.showObserver tk) := by
  unfold Dev.showObserver
  exact update (ite ((((h.wrS _ _ _).wrS _ _ _).wrS _ _ _).wr _ _ _) (ite ((((h.wrS _ _ _).wrS _ _ _).wrS _ _ _).wr _ _ _) (((h.wrS _ _ _).wrS _ _ _).wrS _ _ _)))

theorem observer (h : d.Tame e) (tk : Nat) : d.Tame (e.observer tk) := by
  unfold Dev.observer
  have h1 : d.Tame { e with web.edges := [] } := h.update
  refine ite h (showObserver (ite (h1.observe _ _) (ite (h1.observe _ _) ?_)) _)
  split
  next hp =>
    have hs := of_eq (by exact foldl_snd h1 _ fun _ _ h2 => h2.settleEdge _) hp
    have hw (c : Prop) [Decidable c] := ite (c := c) (hs.setWebState 2) hs
    exact ite (hw _).update ((hw _).observe _ _)

theorem standstill (h : d.Tame e) : d.Tame (e.standstill) := by
  unfold Dev.standstill
  exact ite ((h.update.setWebState _).raiseAt _ _ _ _) h

theorem settled (h : d.Tame e) : d.Tame (e.settled) := by
  unfold Dev.settled
  exact ite (h.setWebState _) h

theorem recovered (h : d.Tame e) : d.Tame (e.recovered) := by
  unfold Dev.recovered
  exact ite ((h.update.setWebState _).raise _ _ _) h

theorem coastExhausted (h : d.Tame e) : d.Tame (e.coastExhausted) := by
  unfold Dev.coastExhausted
  exact ite h.exhaust h

theorem reversed (h : d.Tame e) : d.Tame (e.reversed) := by
  unfold Dev.reversed
  exact ite ((h.update.raise _ _ _).suspend _) h

theorem blankLines (h : d.Tame e) (n : Int) (step : Int) (m : Nat) : d.Tame (e.blankLines n step m) := by
  unfold Dev.blankLines
  exact ite h (foldl (h.bump _ _ _) _ (fun _ _ h1 => h1.webSuspect _))

theorem predictRow (h : d.Tame e) (tk wOpen : Nat) (r : RowSt) : d.Tame (e.predictRow tk wOpen r).2.2 := by
  unfold Dev.predictRow
  dsimp only
  split
  · exact h.blankLines _ _ _
  · have hb (c : Prop) [Decidable c] (n : Int) (m : Nat) := ite (c := c) ((h.blankLines r.next n m).bump F.WT_MISSED_CLAMPED 0 1) (h.blankLines r.next n m)
    split
    · exact hb _ _ _
    · exact ite ((hb _ _ _).webSuspect _) (hb _ _ _)

theorem finishPages (h : d.Tame e) : d.Tame (e.finishPages).2 := by
  unfold Dev.finishPages
  exact foldl h _ (fun _ _ h1 => ite ((h1.setPage _ _).wrB _ _ _) (h1.setPage _ _))

theorem predictCrossings (h : d.Tame e) (tk : Nat) : d.Tame (e.predictCrossings tk) := by
  unfold Dev.predictCrossings
  have hc := ite (c := e.webState = 3) (h.foldl (e.cdc.pages.filter (·.inProgress)) fun _ p h1 => h1.webSuspect p) h
  generalize (if e.webState = 3 then _ else e) = f at hc ⊢
  refine ite hc.update (update ?_)
  exact foldl_snd_snd hc _ fun _ _ h1 => h1.predictRow _ _ _

theorem initRows (h : d.Tame e) : d.Tame (e.initRows) := by
  unfold Dev.initRows
  exact h.update

theorem startWeb (h : d.Tame e) : d.Tame (e.startWeb) := by
  unfold Dev.startWeb
  exact h.update.initRows

theorem setCmpJ (h : d.Tame e) (n j : Nat) : d.Tame (e.setCmpJ n j) where
  inv hd := { h.inv hd with cmpJ := keysRising_mapSet _ _ _ (h.inv hd).cmpJ }
  fuses := h.fuses
  reset := h.reset

theorem predictCmp (tk wOpen : Nat) (acc : Nat × Dev) (n : Nat) (h : d.Tame acc.2) : d.Tame (Dev.predictCmp tk wOpen acc n).2 := by
  obtain ⟨used, e⟩ := acc
  unfold Dev.predictCmp
  dsimp only at h ⊢
  split
  · exact h
  · refine ite_snd h ?_
    have hl (c : Prop) [Decidable c] (m : Nat) := ite (c := c) h (h.bump F.WT_CMP_STAT_CMP_LATE 0 m)
    dsimp only
    split
    · exact ite (((hl _ _).setCmpJ _ _).wrB _ _ _) ((hl _ _).setCmpJ _ _)
    · split
      · exact ite (((((hl _ _).bump _ _ _).raiseOnce _ _ _ _).setCmpJ _ _).wrB _ _ _) ((((hl _ _).bump _ _ _).raiseOnce _ _ _ _).setCmpJ _ _)
      · exact ite (((ite (hl _ _) (hl _ _).update).setCmpJ _ _).wrB _ _ _) ((ite (hl _ _) (hl _ _).update).setCmpJ _ _)

theorem predictCompare (h : d.Tame e) (tk : Nat) : d.Tame (e.predictCompare tk) := by
  unfold Dev.predictCompare
  exact ite h (foldl_snd h _ fun acc n h1 => predictCmp _ _ acc n h1)

theorem cmpCue (h : d.Tame e) : d.Tame (e.cmpCue) := by
  unfold Dev.cmpCue
  exact foldl h _ (fun _ _ h1 => (h1.setCmpJ _ _).wrB _ _ _)

theorem wCmp (h : d.Tame e) (r : Reg) (e' : Nat) (val : Nat) (mask : Nat) : d.Tame (e.wCmp r e' val mask) := by
  unfold Dev.wCmp
  exact ite (((h.store _ _ _ _).setCmpJ _ _).wrB _ _ _) (h.store _ _ _ _)

theorem markStart (h : d.Tame e) : d.Tame (e.markStart) := by
  unfold Dev.markStart
  split
  · exact h
  · exact h.update

theorem markEnd (h : d.Tame e) : d.Tame (e.markEnd) := by
  unfold Dev.markEnd
  split
  · exact h
  · exact h.update

theorem startPage (h : d.Tame e) (p : Page) (start : Int) : d.Tame (e.startPage p start) := by
  unfold Dev.startPage
  exact ((((((((h.setPage _ _).update).wr _ _ _).wr _ _ _).wr _ _ _).wrS _ _ _).wrB _ _ _).wrB _ _ _).cmpCue

theorem wWtCue (h : d.Tame e) (val : Nat) (mask : Nat) : d.Tame (e.wWtCue val mask) := by
  unfold Dev.wWtCue
  exact ite ((h.store _ _ _ _).update) (h.store _ _ _ _)

theorem showQueue (h : d.Tame e) : d.Tame (e.showQueue) := by
  unfold Dev.showQueue
  dsimp only
  split
  · exact (((h.wr _ _ _).wr _ _ _).wr _ _ _).wrB _ _ _
  · exact (h.wr _ _ _).setReg _ _ _

theorem wPush (h : d.Tame e) (m : Sys2Proof.Master) (val : Nat) (mask : Nat) : d.Tame (e.wPush m val mask) := by
  unfold Dev.wPush
  exact ite h.update (ite ((h.update.wr _ _ _).raise _ _ _) h.update.update)

theorem fetch (h : d.Tame e) (req : Nat) (port : Option (Fin 2)) (a : Nat) (len : Nat) : d.Tame (e.fetch req port a len).2 := by
  unfold Dev.fetch
  split
  · exact h.dramRead _ _ _ _ _
  · exact h
  · exact h

theorem rejectPage (h : d.Tame e) (port : Option (Fin 2)) (addr : Nat) (cause : Nat) : d.Tame (e.rejectPage port addr cause) := by
  unfold Dev.rejectPage
  exact h.raise _ _ _

theorem pageDecoded (h : d.Tame e) (uid : Nat) : d.Tame (e.pageDecoded uid) := by
  unfold Dev.pageDecoded
  split
  · exact h
  · exact ite h ((h.setPage _ _).raise _ _ _)

theorem checkDescriptor (h : d.Tame e) : d.Tame (e.checkDescriptor) := by
  unfold Dev.checkDescriptor
  split
  · exact h
  · exact ite h (by
      split
      · next hp =>
        exact ((h.update.fetch _ _ _ _).of_eq hp).rejectPage _ _ _
      · next hp =>
        exact ite (((h.update.fetch _ _ _ _).of_eq hp).rejectPage _ _ _) (ite (((h.update.fetch _ _ _ _).of_eq hp).rejectPage _ _ _) (((((h.update.fetch _ _ _ _).of_eq hp).update).pageDecoded _).showQueue))
      · next hp =>
        exact ((h.update.fetch _ _ _ _).of_eq hp).rejectPage _ _ _)

theorem mapBufs (h : d.Tame e) (f : Buf → Buf) : d.Tame (e.mapBufs f) := by
  unfold Dev.mapBufs
  exact h.update

theorem setBuf (h : d.Tame e) (b : Buf) (f : Buf → Buf) : d.Tame (e.setBuf b f) := by
  unfold Dev.setBuf
  exact h.mapBufs _

theorem mapPages (h : d.Tame e) (f : Page → Page) : d.Tame (e.mapPages f) := by
  unfold Dev.mapPages
  exact h.update

theorem startBand (h : d.Tame e) (lane : Nat) : d.Tame (e.startBand lane) := by
  unfold Dev.startBand
  split
  · exact h
  · exact ite h (by
      split
      · exact h
      · exact (h.setPage _ _).update)

theorem decodeOne (h : d.Tame e) (p : Page) (band : Nat) (s : Nat) : d.Tame (e.decodeOne p band s).2 := by
  unfold Dev.decodeOne
  dsimp only
  split
  · next hp =>
    exact (h.fetch _ _ _ _).of_eq hp
  · next hp =>
    exact ite_snd ((h.fetch _ _ _ _).of_eq hp) (ite_snd (foldl (((h.fetch _ _ _ _).of_eq hp).misread _ _ _) _ (fun _ _ h1 => h1.takeGranule _ _ _)) (by
      split
      · next hq =>
        exact (fetch (foldl (((h.fetch _ _ _ _).of_eq hp).misread _ _ _) _ (fun _ _ h1 => h1.takeGranule _ _ _)) _ _ _ _).of_eq hq
      · next hq =>
        exact (fetch (foldl (((h.fetch _ _ _ _).of_eq hp).misread _ _ _) _ (fun _ _ h1 => h1.takeGranule _ _ _)) _ _ _ _).of_eq hq))
  · next hp =>
    exact (h.fetch _ _ _ _).of_eq hp

theorem countBand (h : d.Tame e) (r : BandResult) : d.Tame (e.countBand r) := by
  unfold Dev.countBand
  split
  · exact h
  · exact h.count _ _ _
  · exact h.count _ _ _
  · exact h.count _ _ _
  · exact h.count _ _ _

theorem endBand (h : d.Tame e) (b : Buf) (r : BandResult) (data : List Sys2Proof.Byte) : d.Tame (e.endBand b r data) := by
  unfold Dev.endBand
  dsimp only
  split
  · exact h.setBuf _ _
  · exact ((setPage (ite (h.setBuf _ _) ((((h.setBuf _ _).suspect _).countBand _).raise _ _ _)) _ _).pageDecoded _).showQueue

theorem bandDone (h : d.Tame e) (lane : Nat) (err : Option (Nat × BitVec 8)) : d.Tame (e.bandDone lane err) := by
  unfold Dev.bandDone
  split
  · exact h
  · exact (by
      split
      · exact h
      · exact ite (ite (((h.decodeOne _ _ _).setBuf _ _).wr _ _ _) ((h.decodeOne _ _ _).endBand _ _ _)) ((h.decodeOne _ _ _).endBand _ _ _))

theorem spareDone (h : d.Tame e) (err : Option (Nat × BitVec 8)) : d.Tame (e.spareDone err) := by
  unfold Dev.spareDone
  split
  · exact h
  · exact (by
      split
      · exact h
      · exact ite (((((((h.decodeOne _ _ _).wr _ _ _).wr _ _ _).wrBit _ _ _ _).mapBufs _).endBand _ _ _).raise _ _ _) (((h.decodeOne _ _ _).wr _ _ _).endBand _ _ _))

theorem startDecode (h : d.Tame e) : d.Tame (e.startDecode) := by
  unfold Dev.startDecode
  exact showQueue (ite ((((h.update.mapPages _).wr _ _ _).wr _ _ _).wrBit _ _ _ _) (ite ((h.update.mapPages _).wr _ _ _) (h.update.mapPages _)))

theorem stopDecode (h : d.Tame e) : d.Tame (e.stopDecode) := by
  unfold Dev.stopDecode
  exact h.update

/-- A line of the window is recorded for strip `s`. -/
theorem recordLine (h : d.Tame e) (uid s j : Nat) (line : Int) (noInk : Bool) :
    d.Tame { e.setPage uid (fun p => { p with written := p.written.set s (j + 1) }) with
          cdc.win := e.cdc.win.modify s (Sys2Proof.Machine.recordLine uid line noInk) } :=
  (h.setPage _ _).update (hwin := List.length_modify ..)

theorem writeStripLine (h : d.Tame e) (s : Nat) : d.Tame (e.writeStripLine s) := by
  unfold Dev.writeStripLine
  split
  · exact h
  · refine ite h (ite (h.recordLine _ _ _ _ _) ?_)
    split
    · exact h
    · have hw := fun a bs => h.dramWrite 2 (e.masterSecure 2) none a bs
      exact ite ((hw _ _).recordLine _ _ _ _ _).update ((hw _ _).recordLine _ _ _ _ _)

theorem emptyWindow (h : d.Tame e) : d.Tame e.emptyWindow where
  inv hd := { h.inv hd with win := rfl }
  fuses := h.fuses
  reset := h.reset

theorem ageWindow (h : d.Tame e) : d.Tame e.ageWindow :=
  h.update (hwin := List.length_map ..)

theorem setEnc (h : d.Tame e) (n : Nat) (f : EncJob → EncJob) : d.Tame (e.setEnc n f) :=
  h.update (henc := List.length_modify ..)

theorem starve (h : d.Tame e) (n : Nat) : d.Tame (e.starve n) := by
  unfold Dev.starve
  exact ite h (((h.setEnc _ _).wr _ _ _).raise _ _ _)

theorem openBuffer (h : d.Tame e) (n : Nat) : d.Tame (e.openBuffer n) := by
  unfold Dev.openBuffer
  have hl : d.Tame (match (e.enc n).last with
    | none => (some (e.rd F.CD_ENCn_SKEIN_ADDR n * 32), e)
    | some l =>
      match e.dramRead 4 (e.enc n).secure (e.enc n).port (l + 0x18) 8 with
      | (.ok b, d) => (if ofLeBytes b = 0 then none else some (ofLeBytes b), d)
      | (_, d) => (none, d)).2 := by
    split
    · exact h
    · split
      next hp => exact of_eq (h.dramRead _ _ _ _ _) hp
      next hp => exact of_eq (h.dramRead _ _ _ _ _) hp
  dsimp only at hl ⊢
  split
  · exact hl.starve n
  · split
    next hr =>
      have hr := of_eq (hl.dramRead _ _ _ _ _) hr
      exact ite ((hr.setEnc _ _).wr _ _ _) (hr.starve n)
    next hr => exact (of_eq (hl.dramRead _ _ _ _ _) hr).starve n

theorem giveBuffer (h : d.Tame e) (n : Nat) (bits : Nat) (last : Bool) : d.Tame (e.giveBuffer n bits last) := by
  unfold Dev.giveBuffer
  dsimp only
  split
  · exact h
  · exact (((h.dramWrite _ _ _ _ _).dramWrite _ _ _ _ _).dramWrite _ _ _ _ _).setEnc _ _

theorem endEncode (h : d.Tame e) (n : Nat) (err : Bool) : d.Tame (e.endEncode n err) := by
  unfold Dev.endEncode
  exact (((h.giveBuffer _ _ _).wr _ _ _).wrB _ _ _).raise _ _ _

theorem startEncode (h : d.Tame e) (n : Nat) : d.Tame (e.startEncode n) := by
  unfold Dev.startEncode
  dsimp only
  split
  · exact h
  · exact ((h.readSource _ _ _ _ _).setEnc _ _).openBuffer _

theorem encodeGo (h : d.Tame e) (m : Sys2Proof.Master) (n : Nat) : d.Tame (e.encodeGo m n) := by
  unfold Dev.encodeGo
  exact ite h (ite ((((h.setEnc _ _).wr _ _ _).wrB _ _ _).hold _) ((((h.setEnc _ _).wr _ _ _).wrB _ _ _).startEncode _))

theorem encodeKick (h : d.Tame e) (n : Nat) : d.Tame (e.encodeKick n) := by
  unfold Dev.encodeKick
  exact ite h (ite (h.hold _) (h.openBuffer _))

theorem serveHeld (h : d.Tame e) : d.Tame (e.serveHeld) := by
  unfold Dev.serveHeld
  exact foldl h.update _ (fun _ _ h1 => (by
      split
      · exact h1.serveRead _ _ _
      · exact h1.serveWrite _ _ _
      · exact ite (h1.openBuffer _) (h1.startEncode _)))

theorem wEnc (h : d.Tame e) (m : Sys2Proof.Master) (n : Nat) (val : Nat) (mask : Nat) : d.Tame (e.wEnc m n val mask) := by
  unfold Dev.wEnc
  exact ite (encodeKick (ite ((h.store _ _ _ _).encodeGo _ _) (h.store _ _ _ _)) _) (ite ((h.store _ _ _ _).encodeGo _ _) (h.store _ _ _ _))

theorem bufferFull (h : d.Tame e) (n : Nat) : d.Tame (e.bufferFull n) := by
  unfold Dev.bufferFull
  exact ite ((h.giveBuffer _ _ _).openBuffer _) h

theorem encodeEnd (h : d.Tame e) (n : Nat) (failed : Bool) : d.Tame (e.encodeEnd n failed) := by
  unfold Dev.encodeEnd
  exact ite (h.endEncode _ _) h

theorem stopEncode (h : d.Tame e) (n : Nat) : d.Tame (e.stopEncode n) := by
  unfold Dev.stopEncode
  exact ite h ((setEnc (ite (h.freeNext.setEnc _ _) h.freeNext) _ _).endEncode _ _)

theorem asOpened (h : d.Tame e) : d.Tame (e.asOpened) := by
  unfold Dev.asOpened
  exact h.update

theorem mapSwitches (h : d.Tame e) (f : List Switch → List Switch) : d.Tame (e.mapSwitches f) := by
  unfold Dev.mapSwitches
  exact h.update

theorem holdSwitch (h : d.Tame e) (w : Switch) : d.Tame (e.holdSwitch w) := by
  unfold Dev.holdSwitch
  exact h.mapSwitches _

theorem releaseSwitches (h : d.Tame e) (fuel : Nat) : d.Tame (e.releaseSwitches fuel) := by
  induction fuel generalizing e with
  | zero => exact h
  | succ fuel ih =>
    rw [Dev.releaseSwitches]
    split
    · exact h.mapSwitches _
    · exact ih (h.mapSwitches _)

theorem passSwitch (h : d.Tame e) (s : Switch) : d.Tame (e.passSwitch s) := by
  unfold Dev.passSwitch
  split
  · exact h
  · exact ite h (by
      dsimp only
      split
      · exact (h.mapSwitches _).raise _ _ _
      · exact (h.mapSwitches _).raise _ _ _
      · exact h.mapSwitches _)

theorem foldSwitch (h : d.Tame e) (s : Switch) : d.Tame (e.foldSwitch s) := by
  unfold Dev.foldSwitch
  split
  · exact h
  · exact ite h (by
      dsimp only
      split
      · exact (h.mapSwitches _).update
      · exact (h.mapSwitches _).update
      · exact (h.mapSwitches _).update
      · exact h.mapSwitches _)

theorem settleSwitches (h : d.Tame e) : d.Tame (e.settleSwitches) := by
  unfold Dev.settleSwitches
  exact ((releaseSwitches (foldl (foldl h _ (fun _ _ h1 => h1.passSwitch _)) _ (fun _ _ h1 => h1.foldSwitch _)) _).wrB _ _ _).wrS _ _ _

theorem schedule (h : d.Tame e) (c : Change) (nextLine : Bool) : d.Tame (e.schedule c nextLine) := by
  unfold Dev.schedule
  exact (h.mapSwitches _).settleSwitches

theorem cueSwitches (h : d.Tame e) (beat : Nat) (start : Int) : d.Tame (e.cueSwitches beat start).2 := by
  unfold Dev.cueSwitches
  exact foldl_snd h _ (fun _ _ h1 => ite_snd h1 (ite_snd (h1.holdSwitch _) (h1.mapSwitches _)))

theorem wLaShift (h : d.Tame e) (val : Nat) (mask : Nat) : d.Tame (e.wLaShift val mask) := by
  unfold Dev.wLaShift
  exact ite (h.store _ _ _ _) ((h.store _ _ _ _).schedule _ _)

theorem autoUpdate (h : d.Tame e) (v : Int) : d.Tame (e.autoUpdate v) := by
  unfold Dev.autoUpdate
  exact (h.wrS _ _ _).schedule _ _

theorem wLaBlend (h : d.Tame e) (val : Nat) (mask : Nat) : d.Tame (e.wLaBlend val mask) := by
  unfold Dev.wLaBlend
  exact ite ((h.store _ _ _ _).schedule _ _) (h.store _ _ _ _)

theorem wLaSwatch (h : d.Tame e) (val : Nat) (mask : Nat) : d.Tame (e.wLaSwatch val mask) := by
  unfold Dev.wLaSwatch
  exact ite ((h.store _ _ _ _).update) (h.store _ _ _ _)

theorem placeSwatch (h : d.Tame e) (p : Page) (beat : Nat) (start : Int) : d.Tame (e.placeSwatch p beat start) := by
  unfold Dev.placeSwatch
  split
  · exact h
  · exact ite h ((h.update.wrB _ _ _).raise _ _ _)

theorem noteLate (h : d.Tame e) (l : Int × Nat) : d.Tame (e.noteLate l) := by
  unfold Dev.noteLate
  exact ite (h.suspectLine _) (((h.suspectLine _).update).count _ _ _)

theorem noteLates (h : d.Tame e) (ls : List (Int × Nat)) : d.Tame (e.noteLates ls) := by
  unfold Dev.noteLates
  have hl := h.foldl ls fun _ l h1 => h1.noteLate l
  dsimp only
  split
  · exact hl
  · split
    · exact hl
    · exact hl.raiseOnce _ _ _ _

theorem buildSlices (h : d.Tame e) : d.Tame (e.buildSlices) := by
  unfold Dev.buildSlices
  exact (h.noteLates _).update

theorem mapSlices (h : d.Tame e) (f : Slice → Slice) : d.Tame (e.mapSlices f) := by
  unfold Dev.mapSlices
  exact h.update

theorem readReturns (h : d.Tame e) (en : Nat) (h' : Nat) (r : Nat) (strip : Nat) (pair : Bool) : d.Tame (e.readReturns en h' r strip pair) := by
  unfold Dev.readReturns
  split
  · exact h
  · exact (by
      dsimp only
      split
      · next hp =>
        exact ((h.dramRead _ _ _ _ _).of_eq hp).mapSlices _
      · next hp =>
        exact (((h.dramRead _ _ _ _ _).of_eq hp).mapSlices _).count _ _ _)

theorem readDeadline (h : d.Tame e) : d.Tame (e.readDeadline) := by
  unfold Dev.readDeadline
  exact (noteLates (ite h (h.count _ _ _)) _).mapSlices _

theorem updateOut (h : d.Tame e) (causes : Nat → Nat) : d.Tame (e.updateOut causes) := by
  unfold Dev.updateOut
  exact ite ((h.update.wr _ _ _).wr _ _ _) (foldl (foldl ((h.update.wr _ _ _).wr _ _ _) _ (fun _ _ h1 => ite (h1.raise _ _ _) h1)) _ (fun _ _ h1 => ite (h1.raise _ _ _) h1))

theorem postOuts (h : d.Tame e) : d.Tame (e.postOuts) := by
  unfold Dev.postOuts
  exact foldl h _ (fun _ _ h1 => ite (h1.raise _ _ _) h1)

theorem updateRelease (h : d.Tame e) (cams : List Int) : d.Tame (e.updateRelease cams) := by
  unfold Dev.updateRelease
  split
  · exact h
  · exact h.update.wrS _ _ _

theorem newGauge (h : d.Tame e) : d.Tame (e.newGauge) := by
  unfold Dev.newGauge
  exact (((((((h.emptyWindow.update.wrB _ _ _).wr _ _ _).wr _ _ _).wrB _ _ _).wr _ _ _).wr _ _ _).wr _ _ _).initRows

theorem setTemp (h : d.Tame e) (n : Nat) (f : HeadTemp → HeadTemp) : d.Tame (e.setTemp n f) :=
  h.update (htemps := List.length_modify ..)

theorem noteFail (h : d.Tame e) (en : Nat) : d.Tame (e.noteFail en) := by
  unfold Dev.noteFail
  exact wr (ite h.update h.update) _ _ _

theorem checkFail (h : d.Tame e) (l : Line) (check : Option Nat) : d.Tame (e.checkFail l check) := by
  unfold Dev.checkFail
  split
  · exact h
  · exact ((h.count _ _ _).noteFail _).raiseOnce _ _ _ _

theorem stageFail (h : d.Tame e) (en : Nat) (counted : Bool) : d.Tame (e.stageFail en counted) := by
  unfold Dev.stageFail
  exact ite (h.count _ _ _) ((h.count _ _ _).noteFail _)

theorem dataLost (h : d.Tame e) (s : Slice) : d.Tame (e.dataLost s) := by
  unfold Dev.dataLost
  exact ite (h.tally _ _ _ _ _) h

theorem buildLine (h : d.Tame e) (en : Nat) (h' : Nat) (r : Nat) (flt : Sys2Proof.LineFault) : d.Tame (e.buildLine en h' r flt) := by
  unfold Dev.buildLine
  split
  · exact h
  · exact ite (((((update (ite (h.count _ _ _) h)).count _ _ _).dataLost _).checkFail _ _).stageFail _ _) ((((update (ite (h.count _ _ _) h)).count _ _ _).dataLost _).checkFail _ _)

theorem abandon (h : d.Tame e) (en : Nat) : d.Tame (e.abandon en) := by
  unfold Dev.abandon
  split
  · exact h
  · exact raise (foldl ((update (foldl h _ (fun _ _ h1 => h1.dataLost _))).count _ _ _) _ (fun _ _ h1 => h1.noteFail _)) _ _ _

theorem dropClaim (h : d.Tame e) (en : Nat) (cause : Nat) : d.Tame (e.dropClaim en cause) := by
  unfold Dev.dropClaim
  exact ite h ((((h.wr _ _ _).wrB _ _ _).wr _ _ _).raise _ _ _)

theorem wPeClaim (h : d.Tame e) (en : Nat) (val : Nat) (mask : Nat) : d.Tame (e.wPeClaim en val mask) := by
  unfold Dev.wPeClaim
  exact ite h (ite ((h.store _ _ _ _).dropClaim _ _) (h.store _ _ _ _))

theorem failRate (h : d.Tame e) (en : Nat) : d.Tame (e.failRate en) := by
  unfold Dev.failRate
  exact ite (h.dropClaim _ _) h

theorem ageFails (h : d.Tame e) : d.Tame (e.ageFails) := by
  unfold Dev.ageFails
  exact (h.update.wr _ _ _).wr _ _ _

theorem selectRow (h : d.Tame e) (c : Crossing) : d.Tame (e.selectRow c) := by
  unfold Dev.selectRow
  exact update (by
      split
      · exact wrB (by
          split
          · exact ite ((h.count _ _ _).tally _ _ _ _ _) h
          · exact h) _ _ _
      · exact (by
          split
          · exact ((suspect (by
              split
              · exact ite ((h.count _ _ _).tally _ _ _ _ _) h
              · exact h) _).count _ _ _).tally _ _ _ _ _
          · exact (by
              split
              · exact ite ((h.count _ _ _).tally _ _ _ _ _) h
              · exact h)))

theorem paceLost (h : d.Tame e) : d.Tame (e.paceLost) := by
  unfold Dev.paceLost
  exact ite ((h.wrB _ _ _).raise _ _ _) h

theorem arbitrate (h : d.Tame e) : d.Tame (e.arbitrate) := by
  unfold Dev.arbitrate
  exact (update (foldl (ite h.paceLost ((h.paceLost.wrB _ _ _).wrB _ _ _)) _ (fun _ _ h1 => h1.selectRow _))).flushTallies

theorem commitLine (h : d.Tame e) (t : TxLine) : d.Tame (e.commitLine t) := by
  unfold Dev.commitLine
  generalize List.range 2048 = ks
  dsimp only
  refine update (ite (update ?_) ?_)
  all_goals exact h.foldl _ fun _ k h1 => ite h1.update (h1.update.count _ _ _)

theorem commitAll (h : d.Tame e) : d.Tame (e.commitAll) := by
  unfold Dev.commitAll
  exact update (foldl h _ (fun _ _ h1 => h1.commitLine _))

theorem uncommit (h : d.Tame e) (t : TxLine) : d.Tame (e.uncommit t) := by
  unfold Dev.uncommit
  exact update (foldl h _ (fun _ _ h1 => ite h1 (uncount (ite h1.update h1) _ _)))

theorem wPeShared (h : d.Tame e) (r : Reg) (n : Nat) (i : Nat) (val : Nat) (mask : Nat) : d.Tame (e.wPeShared r n i val mask) := by
  unfold Dev.wPeShared
  exact (h.store _ _ _ _).store _ _ _ _

theorem wPeTrimCtrl (h : d.Tame e) (val : Nat) (mask : Nat) : d.Tame (e.wPeTrimCtrl val mask) := by
  unfold Dev.wPeTrimCtrl
  exact ite ((h.wrB _ _ _).wrB _ _ _) h

theorem takeTrim (h : d.Tame e) : d.Tame (e.takeTrim) := by
  unfold Dev.takeTrim
  exact ite ((h.update.wrB _ _ _).wrB _ _ _) h

theorem setResume (h : d.Tame e) (h' : Nat) (s : Option Int) : d.Tame (e.setResume h' s) := by
  unfold Dev.setResume
  exact (h.setTemp _ _).wrB _ _ _

theorem recordResume (h : d.Tame e) (h' : Nat) (s : Int) : d.Tame (e.recordResume h' s) := by
  unfold Dev.recordResume
  exact ite h (h.setResume _ _)

theorem enterHot (h : d.Tame e) (h' : Nat) (cause : Nat) : d.Tame (e.enterHot h' cause) := by
  unfold Dev.enterHot
  exact (((((h.wr _ _ _).wr _ _ _).bump _ _ _).setTemp _ _).setResume _ _).raise _ _ _

theorem hotHead (h : d.Tame e) (h' : Nat) (t : Int) (cs : List Crossing) : d.Tame (e.hotHead h' t cs) := by
  unfold Dev.hotHead
  exact ite (setResume (by
      split
      · exact ite ((h.setTemp _ _).recordResume _ _) (h.setTemp _ _)
      · exact h) _ _) (by
      split
      · exact (by
          split
          · exact ite ((h.setTemp _ _).recordResume _ _) (h.setTemp _ _)
          · exact h)
      · exact ite (ite (((((wr (by
          split
          · exact ite ((h.setTemp _ _).recordResume _ _) (h.setTemp _ _)
          · exact h) _ _ _).wrB _ _ _).setResume _ _).setTemp _ _).raise _ _ _) (setResume (by
          split
          · exact ite ((h.setTemp _ _).recordResume _ _) (h.setTemp _ _)
          · exact h) _ _)) (by
          split
          · exact ite ((h.setTemp _ _).recordResume _ _) (h.setTemp _ _)
          · exact h))

theorem noteCool (h : d.Tame e) (h' : Nat) : d.Tame (e.noteCool h') := by
  unfold Dev.noteCool
  exact h.setTemp _ _

theorem headTempUpdate (h : d.Tame e) (cs : List Crossing) (h' : Nat) : d.Tame (e.headTempUpdate cs h') := by
  unfold Dev.headTempUpdate
  dsimp only
  split
  · exact ite ((h.noteCool _).enterHot _ _) (h.noteCool _)
  · exact ite ((h.noteCool _).wrS _ _ _) (ite (((h.noteCool _).wrS _ _ _).hotHead _ _ _) (ite (((h.noteCool _).wrS _ _ _).enterHot _ _) (ite (((h.noteCool _).wrS _ _ _).enterHot _ _) (ite ((((h.noteCool _).wrS _ _ _).wr _ _ _).raise _ _ _) (ite ((((h.noteCool _).wrS _ _ _).wr _ _ _).raise _ _ _) ((h.noteCool _).wrS _ _ _))))))

theorem tempStale (h : d.Tame e) (h' : Nat) : d.Tame (e.tempStale h') := by
  unfold Dev.tempStale
  exact ite (h.setTemp _ _) h

theorem startTemp (h : d.Tame e) (h' : Nat) : d.Tame (e.startTemp h') := by
  unfold Dev.startTemp
  dsimp only
  split
  · exact ite (((h.setTemp _ _).wrS _ _ _).enterHot _ _) ((h.setTemp _ _).wrS _ _ _)
  · exact h.setTemp _ _

theorem sendInhibit (h : d.Tame e) : d.Tame (e.sendInhibit) := by
  unfold Dev.sendInhibit
  exact foldl h _ (fun _ _ h1 => h1.emit _)

theorem showInhibit (h : d.Tame e) : d.Tame (e.showInhibit) := by
  unfold Dev.showInhibit
  exact h.wrB _ _ _

theorem assertInhibit (h : d.Tame e) (ti : Nat) (cause : Nat) : d.Tame (e.assertInhibit ti cause) := by
  unfold Dev.assertInhibit
  exact ite h (h.update.showInhibit.sendInhibit.suspectRunning.raise _ _ _)

theorem endInhibit (h : d.Tame e) (tr : Nat) : d.Tame (e.endInhibit tr) := by
  unfold Dev.endInhibit
  exact ite h (h.update.showInhibit.raise _ _ _)

theorem firePin (h : d.Tame e) (level : Bool) (t : Nat) : d.Tame (e.firePin level t) := by
  unfold Dev.firePin
  exact ite ((h.wrB _ _ _).endInhibit _) ((h.wrB _ _ _).assertInhibit _ _)

theorem wInhibit (h : d.Tame e) (val : Nat) (mask : Nat) : d.Tame (e.wInhibit val mask) := by
  unfold Dev.wInhibit
  exact ite ((h.store _ _ _ _).assertInhibit _ _) ((h.store _ _ _ _).endInhibit _)

theorem cueResumes (h : d.Tame e) (stamp : Nat) (start : Int) : d.Tame (e.cueResumes stamp start) := by
  unfold Dev.cueResumes
  exact ite (h.blankPage _) (by
      split
      · exact ite h.update.showInhibit h
      · exact h)

theorem cueHot (h : d.Tame e) (next : Nat) (start : Int) : d.Tame (e.cueHot next start) := by
  unfold Dev.cueHot
  exact foldl h _ (fun _ _ h1 => ite h1 (ite (h1.setTemp _ _) (ite (h1.recordResume _ _) h1)))

theorem inhibitBoundary (h : d.Tame e) : d.Tame (e.inhibitBoundary) := by
  unfold Dev.inhibitBoundary
  exact ite (((update (ite h.update h)).showInhibit).sendInhibit) ((update (ite h.update h)).showInhibit)

theorem sendFrame (h : d.Tame e) (l : Fin 32) (t : Nat) (kind : Nat) (body : List Sys2Proof.Byte) : d.Tame (e.sendFrame l t kind body) := by
  unfold Dev.sendFrame
  exact (h.setLink _).emit _

theorem sendBeacon (h : d.Tame e) (l : Fin 32) (t : Nat) : d.Tame (e.sendBeacon l t) := by
  unfold Dev.sendBeacon
  exact (h.setLink _).sendFrame _ _ _ _

theorem setTx (h : d.Tame e) (x : TxLine) (f : TxLine → TxLine) : d.Tame (e.setTx x f) := by
  unfold Dev.setTx
  exact h.update

theorem sendAdj (h : d.Tame e) (l : Fin 32) (t : Nat) : d.Tame (e.sendAdj l t) := by
  unfold Dev.sendAdj
  exact (h.setLink _).sendFrame _ _ _ _

theorem setReq (h : d.Tame e) (l p : Nat) (r : Option MgReq) : d.Tame (e.setReq l p r) :=
  h.setLink l fun _ hx => (List.length_set ..).trans hx

theorem grantNext (h : d.Tame e) (l : Nat) : d.Tame (e.grantNext l) := by
  unfold Dev.grantNext
  exact ite h (by
      split
      · exact h.setLink _
      · exact h)

theorem queueReq (h : d.Tame e) (l : Nat) (p : Nat) (r : MgReq) : d.Tame (e.queueReq l p r) := by
  unfold Dev.queueReq
  exact ((h.setLink _).setReq _ _ _).grantNext _

theorem setCheck (h : d.Tame e) (l : Nat) (c : HeadCheck) : d.Tame (e.setCheck l c) := by
  unfold Dev.setCheck
  exact h.setLink _

theorem selectBank (h : d.Tame e) (l : Nat) (c : HeadCheck) : d.Tame (e.selectBank l c) := by
  unfold Dev.selectBank
  exact (h.setCheck _ _).queueReq _ _ _

theorem sendAuth (h : d.Tame e) (l : Fin 32) (t : Nat) (a : AuthEx) : d.Tame (e.sendAuth l t a) := by
  unfold Dev.sendAuth
  exact (h.setLink _).sendFrame _ _ _ _

theorem restoreUsage (h : d.Tame e) (l : Nat) : d.Tame (e.restoreUsage l) := by
  unfold Dev.restoreUsage
  split
  · exact h
  · exact ite (h.update.bump _ _ _) h.update

theorem nextAuth (h : d.Tame e) (l : Nat) : d.Tame (e.nextAuth l) := by
  unfold Dev.nextAuth
  exact ite h (ite (ite (((h.setLink _).wr _ _ _).restoreUsage _) (((((h.setLink _).freeNext).setLink _).wr _ _ _).wr _ _ _)) (ite (h.freeNext.setLink _) h))

theorem afterAuth (h : d.Tame e) (l : Nat) (did : Bool) : d.Tame (e.afterAuth l did) := by
  unfold Dev.afterAuth
  dsimp only
  split
  · exact ite (h.selectBank _ _) h
  · exact h

theorem endAuth (h : d.Tame e) (l : Nat) : d.Tame (e.endAuth l) := by
  unfold Dev.endAuth
  exact ((h.setLink _).nextAuth _).afterAuth _ _

theorem authFail (h : d.Tame e) (l : Nat) (cause : Nat) : d.Tame (e.authFail l cause) := by
  unfold Dev.authFail
  exact (((((h.wr _ _ _).wr _ _ _).wr _ _ _).setLink _).raise _ _ _).endAuth _

theorem authResponse (h : d.Tame e) (l : Nat) (m : Sys2Proof.AuthBody) : d.Tame (e.authResponse l m) := by
  unfold Dev.authResponse
  split
  · exact ite h (ite (h.authFail _ _) (ite (h.authFail _ _) (ite (h.authFail _ _) (((((((h.wr _ _ _).wr _ _ _).wr _ _ _).setLink _).restoreUsage _).raise _ _ _).endAuth _))))
  · exact h

theorem authAgain (h : d.Tame e) (l : Nat) (update : Bool) : d.Tame (e.authAgain l update) := by
  unfold Dev.authAgain
  split
  · exact ite h (ite (h.freeNext.setLink _) (ite ((h.raise _ _ _).endAuth _) (h.authFail _ _)))
  · exact h

theorem countAck (h : d.Tame e) (l : Nat) (m : Sys2Proof.AuthBody) : d.Tame (e.countAck l m) := by
  unfold Dev.countAck
  split
  · exact ite h (((h.wr _ _ _).wr _ _ _).endAuth _)
  · exact h

theorem usagePeriod (h : d.Tame e) : d.Tame (e.usagePeriod) := by
  unfold Dev.usagePeriod
  exact foldl h _ (fun _ _ h1 => ite ((h1.setLink _).nextAuth _) h1)

theorem wReauth (h : d.Tame e) (val : Nat) (mask : Nat) : d.Tame (e.wReauth val mask) := by
  unfold Dev.wReauth
  exact foldl h _ (fun _ _ h1 => ite ((h1.setLink _).nextAuth _) h1)

theorem usageCommit (h : d.Tame e) : d.Tame (e.usageCommit) := by
  unfold Dev.usageCommit
  exact foldl h _ (fun _ _ h1 => ite h1 (ite (h1.bump _ _ _) (ite (h1.update.count _ _ _) h1)))

theorem unuse (h : d.Tame e) (t : TxLine) : d.Tame (e.unuse t) := by
  unfold Dev.unuse
  exact ite (h.wr _ _ _) (ite (ite h.update (h.update.uncount _ _)) h)

theorem dropLine (h : d.Tame e) (x : TxLine) : d.Tame (e.dropLine x) := by
  unfold Dev.dropLine
  exact ite (((h.setTx _ _).uncommit _).unuse _) (h.setTx _ _)

theorem txLate (h : d.Tame e) (l : Nat) (x : TxLine) : d.Tame (e.txLate l x) := by
  unfold Dev.txLate
  exact (((h.dropLine _).count _ _ _).suspectRunning).tally _ _ _ _ _

theorem doomed (h : d.Tame e) (l t : Nat) (xs : List TxLine) : d.Tame (e.doomed l t xs) := by
  induction xs generalizing e t with
  | nil => exact h
  | cons x xs ih => exact ite (ih h _) (ih (h.txLate _ _) _)

theorem dropDoomed (h : d.Tame e) : d.Tame (e.dropDoomed) := by
  unfold Dev.dropDoomed
  exact foldl h _ (fun _ _ h1 => h1.doomed _ _ _)

theorem mgmtDone (h : d.Tame e) (l : Nat) (p : Fin 2) (result : Nat) (tag : Nat) : d.Tame (e.mgmtDone l p result tag) := by
  unfold Dev.mgmtDone
  exact (((h.wrB _ _ _).wrB _ _ _).wr _ _ _).raise _ _ _

theorem dropReq (h : d.Tame e) (l : Nat) (p : Nat) : d.Tame (e.dropReq l p) := by
  unfold Dev.dropReq
  exact ite (((h.setReq _ _ _).setLink _).grantNext _) (h.setReq _ _ _)

theorem wMgmtCmd (h : d.Tame e) (l : Nat) (p : Fin 2) (val : Nat) (mask : Nat) : d.Tame (e.wMgmtCmd l p val mask) := by
  unfold Dev.wMgmtCmd
  exact ite (ite h (by
      split
      · exact ite (h.setReq _ _ _) ((h.dropReq _ _).mgmtDone _ _ _ _)
      · exact h)) (ite (h.store _ _ _ _) (ite (((h.store _ _ _ _).wrB _ _ _).queueReq _ _ _) ((h.store _ _ _ _).mgmtDone _ _ _ _)))

theorem wMgmtData (h : d.Tame e) (i : Nat) (val : Nat) (mask : Nat) : d.Tame (e.wMgmtData i val mask) := by
  unfold Dev.wMgmtData
  exact ite h (h.store _ _ _ _)

theorem sendMgmt (h : d.Tame e) (l : Fin 32) (t : Nat) (p : Nat) (r : MgReq) : d.Tame (e.sendMgmt l t p r) := by
  unfold Dev.sendMgmt
  exact (h.setReq _ _ _).sendFrame _ _ _ _

theorem checkReq (h : d.Tame e) (l : Nat) : d.Tame (e.checkReq l) := by
  unfold Dev.checkReq
  dsimp only
  split
  · exact ite (h.queueReq _ _ _) (ite (h.queueReq _ _ _) (ite (h.queueReq _ _ _) h))
  · exact h

theorem startCheck (h : d.Tame e) (l : Nat) : d.Tame (e.startCheck l) := by
  unfold Dev.startCheck
  exact ite ((h.setCheck _ _).checkReq _) h

theorem bankRead (h : d.Tame e) (l : Nat) (c : HeadCheck) : d.Tame (e.bankRead l c) := by
  unfold Dev.bankRead
  exact ite (h.setCheck _ _) (ite ((h.setCheck _ _).checkReq _) (ite (h.setCheck _ _) ((((h.setCheck _ _).setLink _).nextAuth _).afterAuth _ _)))

theorem checkAnswer (h : d.Tame e) (l : Nat) (result : Nat) (data : List Nat) : d.Tame (e.checkAnswer l result data) := by
  unfold Dev.checkAnswer
  split
  · exact h
  · exact ite (ite (h.selectBank _ _) (h.checkReq _)) (ite (h.setCheck _ _) (ite (((h.setLink _).setCheck _ _).checkReq _) (ite (ite ((((h.setLink _).nextAuth _).setCheck _ _).setCheck _ _) ((((h.setLink _).nextAuth _).setCheck _ _).checkReq _)) (ite (ite ((h.setCheck _ _).checkReq _) (h.bankRead _ _)) (ite (h.setCheck _ _) (h.selectBank _ _))))))

theorem mgmtAnswer (h : d.Tame e) (l : Nat) (tag : Option Nat) (write : Bool) (result : Nat) (data : List Nat) : d.Tame (e.mgmtAnswer l tag write result data) := by
  unfold Dev.mgmtAnswer
  split
  · exact h
  · exact (by
      split
      · exact h
      · exact ite h (ite (ite (by
          split
          · exact (h.dropReq _ _).setCheck _ _
          · exact h.dropReq _ _) ((h.dropReq _ _).checkAnswer _ _ _)) (mgmtDone (ite (foldl (h.dropReq _ _) _ (fun _ _ h1 => h1.wr _ _ _)) (h.dropReq _ _)) _ _ _ _)))

theorem serviceUpdate (h : d.Tame e) (l : Nat) : d.Tame (e.serviceUpdate l) := by
  unfold Dev.serviceUpdate
  exact ite h (ite ((h.wrB _ _ _).setLink _) (nextAuth (ite (wr (foldl ((h.wrB _ _ _).setLink _) _ (fun _ _ h1 => h1.dropLine _)) _ _ _) (foldl ((h.wrB _ _ _).setLink _) _ (fun _ _ h1 => h1.dropLine _))) _))

theorem checkEnds (h : d.Tame e) (l : Nat) : d.Tame (e.checkEnds l) := by
  unfold Dev.checkEnds
  split
  · exact h
  · exact ite h (ite ((h.setLink _).serviceUpdate _) (ite (((h.setLink _).serviceUpdate _).setLink _) ((((h.setLink _).serviceUpdate _).wr _ _ _).raise _ _ _)))

theorem rewriteBank (h : d.Tame e) : d.Tame (e.rewriteBank) := by
  unfold Dev.rewriteBank
  exact foldl h _ (fun _ _ h1 => (by
      split
      · exact ite (h1.selectBank _ _) h1
      · exact ite (h1.selectBank _ _) h1))

theorem emptyDelay (h : d.Tame e) (l : Nat) : d.Tame (e.emptyDelay l) := by
  unfold Dev.emptyDelay
  exact (h.setLink _).wr _ _ _

theorem delaySample (h : d.Tame e) (l : Nat) (rtt : Int) : d.Tame (e.delaySample l rtt) := by
  unfold Dev.delaySample
  exact ite (wr (ite_snd ((h.setLink _).bump _ _ _) (((h.setLink _).bump _ _ _).freeNext)) _ _ _) ((h.setLink _).bump _ _ _)

theorem delayRestart (h : d.Tame e) (l : Nat) : d.Tame (e.delayRestart l) := by
  unfold Dev.delayRestart
  exact ite h (((h.emptyDelay _).serviceUpdate _).raise _ _ _)

theorem noteCrc (h : d.Tame e) (l : Nat) (n : Nat) : d.Tame (e.noteCrc l n) := by
  unfold Dev.noteCrc
  exact h.setLink _

theorem status (h : d.Tame e) (l : Nat) (st : Sys2Proof.StatusFrame) (t4 : Nat) : d.Tame (e.status l st t4) := by
  unfold Dev.status
  exact ite h (serviceUpdate (ite (((setLink (ite (ite (ite (setLink (by
      split
      · exact delaySample (by
          split
          · exact foldl (((wr (ite ((h.wrB _ _ _).setLink _) h) _ _ _).wr _ _ _).wr _ _ _) _ (fun _ _ h1 => h1.setTemp _ _)
          · exact ((wr (ite ((h.wrB _ _ _).setLink _) h) _ _ _).wr _ _ _).wr _ _ _) _ _
      · exact (by
          split
          · exact foldl (((wr (ite ((h.wrB _ _ _).setLink _) h) _ _ _).wr _ _ _).wr _ _ _) _ (fun _ _ h1 => h1.setTemp _ _)
          · exact ((wr (ite ((h.wrB _ _ _).setLink _) h) _ _ _).wr _ _ _).wr _ _ _)) _) (((setLink (by
      split
      · exact delaySample (by
          split
          · exact foldl (((wr (ite ((h.wrB _ _ _).setLink _) h) _ _ _).wr _ _ _).wr _ _ _) _ (fun _ _ h1 => h1.setTemp _ _)
          · exact ((wr (ite ((h.wrB _ _ _).setLink _) h) _ _ _).wr _ _ _).wr _ _ _) _ _
      · exact (by
          split
          · exact foldl (((wr (ite ((h.wrB _ _ _).setLink _) h) _ _ _).wr _ _ _).wr _ _ _) _ (fun _ _ h1 => h1.setTemp _ _)
          · exact ((wr (ite ((h.wrB _ _ _).setLink _) h) _ _ _).wr _ _ _).wr _ _ _)) _).count _ _ _).noteCrc _ _)) ((suspectRunning (ite (setLink (by
      split
      · exact delaySample (by
          split
          · exact foldl (((wr (ite ((h.wrB _ _ _).setLink _) h) _ _ _).wr _ _ _).wr _ _ _) _ (fun _ _ h1 => h1.setTemp _ _)
          · exact ((wr (ite ((h.wrB _ _ _).setLink _) h) _ _ _).wr _ _ _).wr _ _ _) _ _
      · exact (by
          split
          · exact foldl (((wr (ite ((h.wrB _ _ _).setLink _) h) _ _ _).wr _ _ _).wr _ _ _) _ (fun _ _ h1 => h1.setTemp _ _)
          · exact ((wr (ite ((h.wrB _ _ _).setLink _) h) _ _ _).wr _ _ _).wr _ _ _)) _) (((setLink (by
      split
      · exact delaySample (by
          split
          · exact foldl (((wr (ite ((h.wrB _ _ _).setLink _) h) _ _ _).wr _ _ _).wr _ _ _) _ (fun _ _ h1 => h1.setTemp _ _)
          · exact ((wr (ite ((h.wrB _ _ _).setLink _) h) _ _ _).wr _ _ _).wr _ _ _) _ _
      · exact (by
          split
          · exact foldl (((wr (ite ((h.wrB _ _ _).setLink _) h) _ _ _).wr _ _ _).wr _ _ _) _ (fun _ _ h1 => h1.setTemp _ _)
          · exact ((wr (ite ((h.wrB _ _ _).setLink _) h) _ _ _).wr _ _ _).wr _ _ _)) _).count _ _ _).noteCrc _ _))).raise _ _ _)) (raise (ite (ite (setLink (by
      split
      · exact delaySample (by
          split
          · exact foldl (((wr (ite ((h.wrB _ _ _).setLink _) h) _ _ _).wr _ _ _).wr _ _ _) _ (fun _ _ h1 => h1.setTemp _ _)
          · exact ((wr (ite ((h.wrB _ _ _).setLink _) h) _ _ _).wr _ _ _).wr _ _ _) _ _
      · exact (by
          split
          · exact foldl (((wr (ite ((h.wrB _ _ _).setLink _) h) _ _ _).wr _ _ _).wr _ _ _) _ (fun _ _ h1 => h1.setTemp _ _)
          · exact ((wr (ite ((h.wrB _ _ _).setLink _) h) _ _ _).wr _ _ _).wr _ _ _)) _) (((setLink (by
      split
      · exact delaySample (by
          split
          · exact foldl (((wr (ite ((h.wrB _ _ _).setLink _) h) _ _ _).wr _ _ _).wr _ _ _) _ (fun _ _ h1 => h1.setTemp _ _)
          · exact ((wr (ite ((h.wrB _ _ _).setLink _) h) _ _ _).wr _ _ _).wr _ _ _) _ _
      · exact (by
          split
          · exact foldl (((wr (ite ((h.wrB _ _ _).setLink _) h) _ _ _).wr _ _ _).wr _ _ _) _ (fun _ _ h1 => h1.setTemp _ _)
          · exact ((wr (ite ((h.wrB _ _ _).setLink _) h) _ _ _).wr _ _ _).wr _ _ _)) _).count _ _ _).noteCrc _ _)) ((suspectRunning (ite (setLink (by
      split
      · exact delaySample (by
          split
          · exact foldl (((wr (ite ((h.wrB _ _ _).setLink _) h) _ _ _).wr _ _ _).wr _ _ _) _ (fun _ _ h1 => h1.setTemp _ _)
          · exact ((wr (ite ((h.wrB _ _ _).setLink _) h) _ _ _).wr _ _ _).wr _ _ _) _ _
      · exact (by
          split
          · exact foldl (((wr (ite ((h.wrB _ _ _).setLink _) h) _ _ _).wr _ _ _).wr _ _ _) _ (fun _ _ h1 => h1.setTemp _ _)
          · exact ((wr (ite ((h.wrB _ _ _).setLink _) h) _ _ _).wr _ _ _).wr _ _ _)) _) (((setLink (by
      split
      · exact delaySample (by
          split
          · exact foldl (((wr (ite ((h.wrB _ _ _).setLink _) h) _ _ _).wr _ _ _).wr _ _ _) _ (fun _ _ h1 => h1.setTemp _ _)
          · exact ((wr (ite ((h.wrB _ _ _).setLink _) h) _ _ _).wr _ _ _).wr _ _ _) _ _
      · exact (by
          split
          · exact foldl (((wr (ite ((h.wrB _ _ _).setLink _) h) _ _ _).wr _ _ _).wr _ _ _) _ (fun _ _ h1 => h1.setTemp _ _)
          · exact ((wr (ite ((h.wrB _ _ _).setLink _) h) _ _ _).wr _ _ _).wr _ _ _)) _).count _ _ _).noteCrc _ _))).raise _ _ _)) _ _ _)) _).serviceUpdate _).startCheck _) (ite (ite (ite (setLink (by
      split
      · exact delaySample (by
          split
          · exact foldl (((wr (ite ((h.wrB _ _ _).setLink _) h) _ _ _).wr _ _ _).wr _ _ _) _ (fun _ _ h1 => h1.setTemp _ _)
          · exact ((wr (ite ((h.wrB _ _ _).setLink _) h) _ _ _).wr _ _ _).wr _ _ _) _ _
      · exact (by
          split
          · exact foldl (((wr (ite ((h.wrB _ _ _).setLink _) h) _ _ _).wr _ _ _).wr _ _ _) _ (fun _ _ h1 => h1.setTemp _ _)
          · exact ((wr (ite ((h.wrB _ _ _).setLink _) h) _ _ _).wr _ _ _).wr _ _ _)) _) (((setLink (by
      split
      · exact delaySample (by
          split
          · exact foldl (((wr (ite ((h.wrB _ _ _).setLink _) h) _ _ _).wr _ _ _).wr _ _ _) _ (fun _ _ h1 => h1.setTemp _ _)
          · exact ((wr (ite ((h.wrB _ _ _).setLink _) h) _ _ _).wr _ _ _).wr _ _ _) _ _
      · exact (by
          split
          · exact foldl (((wr (ite ((h.wrB _ _ _).setLink _) h) _ _ _).wr _ _ _).wr _ _ _) _ (fun _ _ h1 => h1.setTemp _ _)
          · exact ((wr (ite ((h.wrB _ _ _).setLink _) h) _ _ _).wr _ _ _).wr _ _ _)) _).count _ _ _).noteCrc _ _)) ((suspectRunning (ite (setLink (by
      split
      · exact delaySample (by
          split
          · exact foldl (((wr (ite ((h.wrB _ _ _).setLink _) h) _ _ _).wr _ _ _).wr _ _ _) _ (fun _ _ h1 => h1.setTemp _ _)
          · exact ((wr (ite ((h.wrB _ _ _).setLink _) h) _ _ _).wr _ _ _).wr _ _ _) _ _
      · exact (by
          split
          · exact foldl (((wr (ite ((h.wrB _ _ _).setLink _) h) _ _ _).wr _ _ _).wr _ _ _) _ (fun _ _ h1 => h1.setTemp _ _)
          · exact ((wr (ite ((h.wrB _ _ _).setLink _) h) _ _ _).wr _ _ _).wr _ _ _)) _) (((setLink (by
      split
      · exact delaySample (by
          split
          · exact foldl (((wr (ite ((h.wrB _ _ _).setLink _) h) _ _ _).wr _ _ _).wr _ _ _) _ (fun _ _ h1 => h1.setTemp _ _)
          · exact ((wr (ite ((h.wrB _ _ _).setLink _) h) _ _ _).wr _ _ _).wr _ _ _) _ _
      · exact (by
          split
          · exact foldl (((wr (ite ((h.wrB _ _ _).setLink _) h) _ _ _).wr _ _ _).wr _ _ _) _ (fun _ _ h1 => h1.setTemp _ _)
          · exact ((wr (ite ((h.wrB _ _ _).setLink _) h) _ _ _).wr _ _ _).wr _ _ _)) _).count _ _ _).noteCrc _ _))).raise _ _ _)) (raise (ite (ite (setLink (by
      split
      · exact delaySample (by
          split
          · exact foldl (((wr (ite ((h.wrB _ _ _).setLink _) h) _ _ _).wr _ _ _).wr _ _ _) _ (fun _ _ h1 => h1.setTemp _ _)
          · exact ((wr (ite ((h.wrB _ _ _).setLink _) h) _ _ _).wr _ _ _).wr _ _ _) _ _
      · exact (by
          split
          · exact foldl (((wr (ite ((h.wrB _ _ _).setLink _) h) _ _ _).wr _ _ _).wr _ _ _) _ (fun _ _ h1 => h1.setTemp _ _)
          · exact ((wr (ite ((h.wrB _ _ _).setLink _) h) _ _ _).wr _ _ _).wr _ _ _)) _) (((setLink (by
      split
      · exact delaySample (by
          split
          · exact foldl (((wr (ite ((h.wrB _ _ _).setLink _) h) _ _ _).wr _ _ _).wr _ _ _) _ (fun _ _ h1 => h1.setTemp _ _)
          · exact ((wr (ite ((h.wrB _ _ _).setLink _) h) _ _ _).wr _ _ _).wr _ _ _) _ _
      · exact (by
          split
          · exact foldl (((wr (ite ((h.wrB _ _ _).setLink _) h) _ _ _).wr _ _ _).wr _ _ _) _ (fun _ _ h1 => h1.setTemp _ _)
          · exact ((wr (ite ((h.wrB _ _ _).setLink _) h) _ _ _).wr _ _ _).wr _ _ _)) _).count _ _ _).noteCrc _ _)) ((suspectRunning (ite (setLink (by
      split
      · exact delaySample (by
          split
          · exact foldl (((wr (ite ((h.wrB _ _ _).setLink _) h) _ _ _).wr _ _ _).wr _ _ _) _ (fun _ _ h1 => h1.setTemp _ _)
          · exact ((wr (ite ((h.wrB _ _ _).setLink _) h) _ _ _).wr _ _ _).wr _ _ _) _ _
      · exact (by
          split
          · exact foldl (((wr (ite ((h.wrB _ _ _).setLink _) h) _ _ _).wr _ _ _).wr _ _ _) _ (fun _ _ h1 => h1.setTemp _ _)
          · exact ((wr (ite ((h.wrB _ _ _).setLink _) h) _ _ _).wr _ _ _).wr _ _ _)) _) (((setLink (by
      split
      · exact delaySample (by
          split
          · exact foldl (((wr (ite ((h.wrB _ _ _).setLink _) h) _ _ _).wr _ _ _).wr _ _ _) _ (fun _ _ h1 => h1.setTemp _ _)
          · exact ((wr (ite ((h.wrB _ _ _).setLink _) h) _ _ _).wr _ _ _).wr _ _ _) _ _
      · exact (by
          split
          · exact foldl (((wr (ite ((h.wrB _ _ _).setLink _) h) _ _ _).wr _ _ _).wr _ _ _) _ (fun _ _ h1 => h1.setTemp _ _)
          · exact ((wr (ite ((h.wrB _ _ _).setLink _) h) _ _ _).wr _ _ _).wr _ _ _)) _).count _ _ _).noteCrc _ _))).raise _ _ _)) _ _ _))) _)

theorem frameBad (h : d.Tame e) (l : Nat) : d.Tame (e.frameBad l) := by
  unfold Dev.frameBad
  exact ite ((h.count _ _ _).noteCrc _ _) h

theorem setDnTaps (h : d.Tame e) (l : Nat) (t : Nat × Nat × Nat) : d.Tame (e.setDnTaps l t) := by
  unfold Dev.setDnTaps
  exact ((h.wr _ _ _).wr _ _ _).wr _ _ _

theorem sendTs (h : d.Tame e) (l : Fin 32) (phase : Nat) : d.Tame (e.sendTs l phase) := by
  unfold Dev.sendTs
  exact h.emit _

theorem clearLink (h : d.Tame e) (l : Nat) : d.Tame (e.clearLink l) := by
  unfold Dev.clearLink
  exact (((wrB (foldl (((h.wrB _ _ _).setLink _).serviceUpdate _) _ (fun _ _ h1 => (by
      split
      · exact ite h1 (ite ((h1.dropReq _ _).mgmtDone _ _ _ _) (h1.dropReq _ _))
      · exact h1))) _ _ _).wrB _ _ _).emptyDelay _).setLink _

theorem wakeLink (h : d.Tame e) (l : Fin 32) (state : Nat) (gen : Nat) (attempt : Nat) : d.Tame (e.wakeLink l state gen attempt) := by
  unfold Dev.wakeLink
  exact (((((h.clearLink _).wr _ _ _).wr _ _ _).wr _ _ _).wrB _ _ _).emit _

theorem takeDown (h : d.Tame e) (l : Fin 32) : d.Tame (e.takeDown l) := by
  unfold Dev.takeDown
  exact ((h.clearLink _).wr _ _ _).emit _

theorem attemptFails (h : d.Tame e) (l : Fin 32) (cause : Nat) : d.Tame (e.attemptFails l cause) := by
  unfold Dev.attemptFails
  exact ite h (ite ((h.wr _ _ _).wakeLink _ _ _ _) (ite (((h.wr _ _ _).wakeLink _ _ _ _).raise _ _ _) (((h.wr _ _ _).takeDown _).raise _ _ _)))

theorem recoverLink (h : d.Tame e) (l : Fin 32) (cause : Nat) : d.Tame (e.recoverLink l cause) := by
  unfold Dev.recoverLink
  exact ite h ((((h.wr _ _ _).wakeLink _ _ _ _).count _ _ _).raise _ _ _)

theorem startAlign (h : d.Tame e) (l : Fin 32) (gen : Nat) : d.Tame (e.startAlign l gen) := by
  unfold Dev.startAlign
  exact sendTs (ite (((wrB (ite h ((h.wr _ _ _).wr _ _ _)) _ _ _).setDnTaps _ _).setLink _) (((wrB (ite h ((h.wr _ _ _).wr _ _ _)) _ _ _).setDnTaps _ _).wr _ _ _)) _ _

theorem headBurst (h : d.Tame e) (l : Fin 32) (gen : Nat) : d.Tame (e.headBurst l gen) := by
  unfold Dev.headBurst
  exact ite (h.recoverLink _ _) (ite (ite (h.attemptFails _ _) (ite (h.startAlign _ _) h)) h)

theorem eqRequest (h : d.Tame e) (l : Fin 32) (req : Nat) (f : EqSt → EqSt) : d.Tame (e.eqRequest l req f) := by
  unfold Dev.eqRequest
  exact (h.setLink _).sendTs _ _

theorem startEq (h : d.Tame e) (l : Fin 32) : d.Tame (e.startEq l) := by
  unfold Dev.startEq
  exact eqRequest (ite (h.setLink _) (h.wr _ _ _)) _ _ _

theorem tryEq (h : d.Tame e) (l : Fin 32) : d.Tame (e.tryEq l) := by
  unfold Dev.tryEq
  exact ite (h.startEq _) h

theorem tryConfirm (h : d.Tame e) (l : Fin 32) : d.Tame (e.tryConfirm l) := by
  unfold Dev.tryConfirm
  exact ite (ite (((h.wr _ _ _).setLink _).sendTs _ _) (ite (((h.setLink _).sendTs _ _).emit _) h)) h

theorem nextTap (h : d.Tame e) (l : Fin 32) (best : Nat) : d.Tame (e.nextTap l best) := by
  unfold Dev.nextTap
  exact ite (((h.setLink _).sendTs _ _).tryConfirm _) (h.eqRequest _ _ _)

theorem eqDwell (h : d.Tame e) (l : Fin 32) (eye : Nat) : d.Tame (e.eqDwell l eye) := by
  unfold Dev.eqDwell
  exact ite h (by
      dsimp only
      split
      · exact (h.wr _ _ _).eqRequest _ _ _
      · exact ite ((h.wr _ _ _).eqRequest _ _ _) (ite ((h.wr _ _ _).eqRequest _ _ _) ((h.wr _ _ _).eqRequest _ _ _))
      · exact ite ((h.wr _ _ _).eqRequest _ _ _) (ite ((h.wr _ _ _).nextTap _ _) ((h.wr _ _ _).eqRequest _ _ _))
      · exact (h.wr _ _ _).eqRequest _ _ _
      · exact ite ((h.wr _ _ _).eqRequest _ _ _) (ite ((h.wr _ _ _).nextTap _ _) ((h.wr _ _ _).eqRequest _ _ _))
      · exact ite ((h.wr _ _ _).eqRequest _ _ _) (ite ((h.wr _ _ _).nextTap _ _) ((h.wr _ _ _).eqRequest _ _ _))
      · exact (h.wr _ _ _).nextTap _ _)

theorem eqTimeout (h : d.Tame e) (l : Fin 32) : d.Tame (e.eqTimeout l) := by
  unfold Dev.eqTimeout
  exact ite h (ite ((h.setLink _).sendTs _ _) (h.attemptFails _ _))

theorem headRequest (h : d.Tame e) (l : Fin 32) (ts : Sys2Proof.TrainingSet) : d.Tame (e.headRequest l ts) := by
  unfold Dev.headRequest
  exact ite h (((h.setDnTaps _ _).setLink _).sendTs _ _)

theorem headAck (h : d.Tame e) (l : Fin 32) (ts : Sys2Proof.TrainingSet) : d.Tame (e.headAck l ts) := by
  unfold Dev.headAck
  dsimp only
  split
  · exact ite h (h.setLink _)
  · exact h

theorem tsRx (h : d.Tame e) (l : Fin 32) (ts : Sys2Proof.TrainingSet) : d.Tame (e.tsRx l ts) := by
  unfold Dev.tsRx
  exact ite (h.setLink _) (ite h (ite ((((((((h.wr _ _ _).wr _ _ _).wr _ _ _).setLink _).tryEq _).headRequest _ _).headAck _ _).tryConfirm _) (((((h.wr _ _ _).wr _ _ _).wr _ _ _).setLink _).tryEq _)))

theorem confirm (h : d.Tame e) (l : Fin 32) (eye : Nat) : d.Tame (e.confirm l eye) := by
  unfold Dev.confirm
  exact ite h (ite ((h.wr _ _ _).attemptFails _ _) (ite ((h.wr _ _ _).attemptFails _ _) ((((h.wr _ _ _).sendTs _ _).wr _ _ _).setLink _)))

theorem trainTimeout (h : d.Tame e) (l : Fin 32) : d.Tame (e.trainTimeout l) := by
  unfold Dev.trainTimeout
  exact ite (h.attemptFails _ _) (ite (h.attemptFails _ _) (ite (h.attemptFails _ _) (ite (h.attemptFails _ _) (ite (h.attemptFails _ _) h))))

theorem tryUp (h : d.Tame e) (l : Nat) : d.Tame (e.tryUp l) := by
  unfold Dev.tryUp
  exact ite (ite (((h.wrB _ _ _).raise _ _ _).startCheck _) ((h.wrB _ _ _).raise _ _ _)) h

theorem lockAcquired (h : d.Tame e) (l : Fin 32) : d.Tame (e.lockAcquired l) := by
  unfold Dev.lockAcquired
  exact ite h (((h.setLink _).wrB _ _ _).tryEq _)

theorem lockLost (h : d.Tame e) (l : Fin 32) : d.Tame (e.lockLost l) := by
  unfold Dev.lockLost
  exact ite h (ite (h.setLink _) ((h.setLink _).recoverLink _ _))

theorem wHlCfg (h : d.Tame e) (l : Fin 32) (val : Nat) (mask : Nat) : d.Tame (e.wHlCfg l val mask) := by
  unfold Dev.wHlCfg
  exact ite ((setLink (ite (wakeLink (ite (h.store _ _ _ _) ((h.store _ _ _ _).wrB _ _ _)) _ _ _ _) (ite (takeDown (ite (h.store _ _ _ _) ((h.store _ _ _ _).wrB _ _ _)) _) (ite (h.store _ _ _ _) ((h.store _ _ _ _).wrB _ _ _)))) _).wakeLink _ _ _ _) (ite (wakeLink (ite (h.store _ _ _ _) ((h.store _ _ _ _).wrB _ _ _)) _ _ _ _) (ite (takeDown (ite (h.store _ _ _ _) ((h.store _ _ _ _).wrB _ _ _)) _) (ite (h.store _ _ _ _) ((h.store _ _ _ _).wrB _ _ _))))

theorem dnSleep (h : d.Tame e) (l : Fin 32) : d.Tame (e.dnSleep l) := by
  unfold Dev.dnSleep
  exact ite (((h.wrB _ _ _).setLink _).emit _) h

theorem dnWake (h : d.Tame e) (l : Fin 32) : d.Tame (e.dnWake l) := by
  unfold Dev.dnWake
  exact ite (((h.wrB _ _ _).setLink _).emit _) h

theorem sendGranted (h : d.Tame e) (l : Fin 32) (t : Nat) : d.Tame (e.sendGranted l t) := by
  unfold Dev.sendGranted
  split
  · exact (by
      split
      · exact ite h (h.sendMgmt _ _ _ _)
      · exact h)
  · exact h

theorem sendOther (h : d.Tame e) (l : Fin 32) (t : Nat) : d.Tame (e.sendOther l t) := by
  unfold Dev.sendOther
  exact ite (h.sendAdj _ _) (by
      split
      · exact ite (h.sendAuth _ _ _) (h.sendGranted _ _)
      · exact h.sendGranted _ _)

theorem sendLine (h : d.Tame e) (l : Fin 32) (t : Nat) (xs : List TxLine) : d.Tame (e.sendLine l t xs) := by
  induction xs generalizing e with
  | nil => exact h.sendOther _ _
  | cons x xs ih => exact ite ((h.setTx _ _).sendFrame _ _ _ _) (ih (h.txLate _ _))

theorem nextFrame (h : d.Tame e) (l : Fin 32) (t : Nat) : d.Tame (e.nextFrame l t) := by
  unfold Dev.nextFrame
  exact ite h (ite (h.sendBeacon _ _) (h.sendLine _ _ _))

theorem linkBoundary (h : d.Tame e) : d.Tame (e.linkBoundary) := by
  unfold Dev.linkBoundary
  exact ite (update (foldl h _ (fun _ _ h1 => ite h1 (h1.setLink _)))) (foldl h _ (fun _ _ h1 => ite h1 (h1.setLink _)))

theorem setCam (h : d.Tame e) (c : Nat) (f : Cam → Cam) : d.Tame (e.setCam c f) :=
  h.update (hcams := List.length_modify ..)

theorem checkCapture (h : d.Tame e) (c : Nat) : d.Tame (e.checkCapture c) := by
  unfold Dev.checkCapture
  exact ite (h.wrB _ _ _) h

theorem advanceGen (h : d.Tame e) (shadows : List (Nat × Sys2Proof.Word)) : d.Tame (e.advanceGen shadows) := by
  unfold Dev.advanceGen
  exact (h.update.wr _ _ _).wrB _ _ _

theorem insBoundary (h : d.Tame e) : d.Tame (e.insBoundary) := by
  unfold Dev.insBoundary
  split
  · exact h.advanceGen _
  · exact h

theorem wInsCommit (h : d.Tame e) (val : Nat) (mask : Nat) : d.Tame (e.wInsCommit val mask) := by
  unfold Dev.wInsCommit
  exact ite (h.update.wrB _ _ _) h

theorem cameraTrigger (h : d.Tame e) (c : Fin 8) : d.Tame (e.cameraTrigger c) := by
  unfold Dev.cameraTrigger
  split
  · exact h
  · exact ite h.update (ite (h.update.count _ _ _) (h.update.setCam _ _))

theorem strobeStart (h : d.Tame e) (c : Fin 8) : d.Tame (e.strobeStart c) := by
  unfold Dev.strobeStart
  split
  · exact h
  · exact h.setCam _ _

theorem strobeEnd (h : d.Tame e) (c : Fin 8) : d.Tame (e.strobeEnd c) := by
  unfold Dev.strobeEnd
  exact h.setCam _ _

theorem retimeTrigs (h : d.Tame e) (c : Nat) (g : Nat) : d.Tame (e.retimeTrigs c g) := by
  unfold Dev.retimeTrigs
  exact (h.setCam _ _).count _ _ _

theorem newStart (h : d.Tame e) (c : Nat) : d.Tame (e.newStart c) := by
  unfold Dev.newStart
  exact ite h (by
      split
      · exact ite h (h.retimeTrigs _ _)
      · exact h)

theorem lineMissed (h : d.Tame e) (c : Fin 8) : d.Tame (e.lineMissed c) := by
  unfold Dev.lineMissed
  split
  · exact h
  · exact (((h.setCam _ _).newStart _).count _ _ _).tally _ _ _ _ _

theorem readWin (h : d.Tame e) (req lo hi : Nat) (n : Int) : d.Tame (e.readWin req lo hi n).2 := by
  unfold Dev.readWin
  refine foldl_snd h _ fun acc s h1 => ?_
  dsimp only
  split
  · exact h1
  · exact h1
  · split
    next hp => exact of_eq (h1.dramRead _ _ _ _ _) hp
    next hp => exact of_eq (h1.dramRead _ _ _ _ _) hp

theorem readLines (h : d.Tame e) (req : Nat) (lo : Nat) (hi : Nat) (m : Int) (along : Nat) : d.Tame (e.readLines req lo hi m along).2 := by
  unfold Dev.readLines
  exact foldl_snd h _ (fun _ _ h1 => h1.readWin _ _ _ _)

theorem pipeline (h : d.Tame e) (c : Nat) (f : Frame) (l : CamLine) : d.Tame (e.pipeline c f l).2 := by
  unfold Dev.pipeline
  exact ite_snd h (h.readLines _ _ _ _ _)

theorem processLine (h : d.Tame e) (c : Nat) : d.Tame (e.processLine c) := by
  unfold Dev.processLine
  split
  · exact ite ((((h.setCam _ _).pipeline _ _ _).setCam _ _).update) (((h.setCam _ _).pipeline _ _ _).setCam _ _)
  · exact h

theorem showFrame (h : d.Tame e) (c : Nat) : d.Tame (e.showFrame c) := by
  unfold Dev.showFrame
  split
  · exact ((h.wrB _ _ _).wr _ _ _).wr _ _ _
  · exact (h.wrB _ _ _).wr _ _ _

theorem frameFacts (h : d.Tame e) (f : Frame) : d.Tame (e.frameFacts f).2 := by
  unfold Dev.frameFacts
  exact ite_snd h h.freeNext.freeNext.freeNext

theorem pastSwatches (h : d.Tame e) (c : Nat) (p : Swatch → Bool) : d.Tame (e.pastSwatches c p) := by
  unfold Dev.pastSwatches
  exact foldl h _ (fun _ _ h1 => h1.update)

theorem closeFrame (h : d.Tame e) (c : Nat) : d.Tame (e.closeFrame c) := by
  unfold Dev.closeFrame
  dsimp only
  split
  · exact foldl h _ (fun _ _ h1 => h1.processLine _)
  · exact (showFrame (ite ((((((frameFacts (foldl h _ (fun _ _ h1 => h1.processLine _)) _).dramWrite _ _ _ _ _).wr _ _ _).setCam _ _).newStart _).pastSwatches _ _) (((((frameFacts (foldl h _ (fun _ _ h1 => h1.processLine _)) _).dramWrite _ _ _ _ _).wr _ _ _).setCam _ _).newStart _)) _).raise _ _ _

theorem frameStart (h : d.Tame e) (c : Fin 8) : d.Tame (e.frameStart c) := by
  unfold Dev.frameStart
  exact ite h (((h.closeFrame _).setCam _ _).showFrame _)

theorem beginFrame (h : d.Tame e) (c : Nat) (f : Frame) (t : Trig) : d.Tame (e.beginFrame c f t).2 := by
  unfold Dev.beginFrame
  exact ite (ite h.update (h.update.retimeTrigs _ _)) (((update (ite h.update (h.update.retimeTrigs _ _))).setCam _ _).raise _ _ _)

theorem capture (h : d.Tame e) (c : Nat) (f : Frame) (n : Nat) (payload : List Sys2Proof.Byte) (valid : Bool) : d.Tame (e.capture c f n payload valid) := by
  unfold Dev.capture
  exact ite h (ite ((dramWrite (ite (h.dramWrite _ _ _ _ _) h) _ _ _ _ _).dramWrite _ _ _ _ _) (dramWrite (ite (h.dramWrite _ _ _ _ _) h) _ _ _ _ _))

theorem badLine (h : d.Tame e) (c : Nat) (kind : Nat) : d.Tame (e.badLine c kind) := by
  unfold Dev.badLine
  exact (h.count _ _ _).raiseOnce _ _ _ _

theorem placeLine (h : d.Tame e) (c : Nat) (f : Frame) (t : Trig) (pk : Sys2Proof.CsiPacket) : d.Tame (e.placeLine c f t pk) := by
  unfold Dev.placeLine
  exact ite ((setCam (ite h (h.badLine _ _)) _ _).setCam _ _) (((capture (ite_snd (setCam (ite h (h.badLine _ _)) _ _) ((setCam (ite h (h.badLine _ _)) _ _).beginFrame _ _ _)) _ _ _ _ _).setCam _ _).showFrame _)

theorem longPacket (h : d.Tame e) (c : Fin 8) (pk : Sys2Proof.CsiPacket) : d.Tame (e.longPacket c pk) := by
  unfold Dev.longPacket
  exact ite h (ite (h.badLine _ _) (by
      split
      · exact h.placeLine _ _ _ _
      · exact ite (h.count _ _ _) ((h.count _ _ _).badLine _ _)))

theorem otherPacket (h : d.Tame e) (c : Fin 8) (kind : Sys2Proof.CsiOther) : d.Tame (e.otherPacket c kind) := by
  unfold Dev.otherPacket
  exact ite h (by
      split
      · exact h
      · exact h.badLine _ _
      · exact h.raiseOnce _ _ _ _)

theorem camLeaves (h : d.Tame e) (c : Nat) : d.Tame (e.camLeaves c) := by
  unfold Dev.camLeaves
  exact h.closeFrame _

theorem camStarts (h : d.Tame e) (c : Nat) : d.Tame (e.camStarts c) := by
  unfold Dev.camStarts
  exact h.setCam _ _

theorem camStopped (h : d.Tame e) (c : Nat) : d.Tame (e.camStopped c) := by
  unfold Dev.camStopped
  exact h.setCam _ _

theorem setI2c (h : d.Tame e) (k : Nat) (j : Option I2cJob) : d.Tame (e.setI2c k j) :=
  h.update (hi2c := List.length_set ..)

theorem runI2c (h : d.Tame e) (k : Fin 2) (j : I2cJob) : d.Tame (e.runI2c k j) := by
  unfold Dev.runI2c
  exact ite (h.setI2c _ _) ((h.setI2c _ _).emit _)

theorem wI2c (h : d.Tame e) (k : Fin 2) (val : Nat) (mask : Nat) : d.Tame (e.wI2c k val mask) := by
  unfold Dev.wI2c
  exact ite (((h.store _ _ _ _).wrB _ _ _).runI2c _ _) (h.store _ _ _ _)

theorem nextProbe (h : d.Tame e) (k : Fin 2) : d.Tame (e.nextProbe k) := by
  unfold Dev.nextProbe
  exact ite h (by
      split
      · exact h.emit _
      · exact h)

theorem startProbe (h : d.Tame e) : d.Tame (e.startProbe) := by
  unfold Dev.startProbe
  exact foldl h.update _ (fun _ _ h1 => h1.nextProbe _)

theorem probeDone (h : d.Tame e) (k : Fin 2) (result : Nat) : d.Tame (e.probeDone k result) := by
  unfold Dev.probeDone
  split
  · exact h.update.nextProbe _
  · exact h

theorem endProbe (h : d.Tame e) : d.Tame (e.endProbe) := by
  unfold Dev.endProbe
  exact foldl h.update _ (fun _ _ h1 => (by
      split
      · exact ite (h1.runI2c _ _) h1
      · exact h1))

theorem completeI2c (h : d.Tame e) (k : Fin 2) (j : I2cJob) (result : Nat) (data : Nat) : d.Tame (e.completeI2c k j result data) := by
  unfold Dev.completeI2c
  exact (((wrB (ite ((h.setI2c _ _).wr _ _ _) (h.setI2c _ _)) _ _ _).wrB _ _ _).wr _ _ _).raise _ _ _

theorem endI2c (h : d.Tame e) (k : Fin 2) (result : Nat) (data : Nat) : d.Tame (e.endI2c k result data) := by
  unfold Dev.endI2c
  split
  · exact ite (ite (h.probeDone _ _) h) (ite ((h.completeI2c _ _ _ _).nextProbe _) (h.completeI2c _ _ _ _))
  · exact ite (h.probeDone _ _) h

theorem setEntry (h : d.Tame e) (nz : Nat) (v : Nat) : d.Tame (e.setEntry nz v) := by
  unfold Dev.setEntry
  exact h.setReg _ _ _

theorem addSole (h : d.Tame e) (nz : Nat) (a : Acc) : d.Tame (e.addSole nz a) := by
  unfold Dev.addSole
  exact h.update.count _ _ _

theorem addSwatch (h : d.Tame e) (nz : Nat) (a : Acc) : d.Tame (e.addSwatch nz a) := by
  unfold Dev.addSwatch
  exact h.update.count _ _ _

theorem soleReadings (h : d.Tame e) (l : CompLine) (ws : List WinLine) (cols : List Nat) : d.Tame (e.soleReadings l ws cols) := by
  unfold Dev.soleReadings
  exact foldl h _ (fun _ _ h1 => ite h1 (by
      split
      · exact h1.addSole _ _
      · exact h1))

theorem swatchReadings (h : d.Tame e) (l : CompLine) (ws : List WinLine) (cols : List Nat) (dot : Nat) : d.Tame (e.swatchReadings l ws cols dot) := by
  unfold Dev.swatchReadings
  exact foldl h _ (fun _ _ h1 => ite h1 (by
      split
      · exact h1.addSwatch _ _
      · exact h1))

theorem regBreak (h : d.Tame e) : d.Tame (e.regBreak) := by
  unfold Dev.regBreak
  exact h.update

theorem regUpdate (h : d.Tame e) (e' : Int) : d.Tame (e.regUpdate e') := by
  unfold Dev.regUpdate
  exact ite ((h.update.wrS _ _ _).wrS _ _ _) (((h.update.wrS _ _ _).wrS _ _ _).raise _ _ _)

theorem regAlong (h : d.Tame e) (l : CompLine) (sm : Nat) (se : Nat) : d.Tame (e.regAlong l sm se) := by
  unfold Dev.regAlong
  exact ite h.update (h.update.wrS _ _ _)

theorem registration (h : d.Tame e) (l : CompLine) : d.Tame (e.registration l) := by
  unfold Dev.registration
  exact ite h (ite h.regBreak (by
      dsimp only
      split
      · exact ite h.regBreak ((h.regUpdate _).regAlong _ _ _)
      · exact h.regBreak))

theorem takeLine (h : d.Tame e) (c : Nat) : d.Tame (e.takeLine c) := by
  unfold Dev.takeLine
  split
  · exact h
  · exact ite h.update ((registration (ite h.update (ite ((h.update.readLines _ _ _ _ _).swatchReadings _ _ _ _) ((h.update.readLines _ _ _ _ _).soleReadings _ _ _))) _).pastSwatches _ _)

theorem setHealth (h : d.Tame e) (nz : Nat) (st : Nat) : d.Tame (e.setHealth nz st) := by
  unfold Dev.setHealth
  exact wr (ite (ite h (h.wr _ _ _)) (wr (ite h (h.wr _ _ _)) _ _ _)) _ _ _

theorem clearAcc (h : d.Tame e) (nz : Nat) : d.Tame (e.clearAcc nz) := by
  unfold Dev.clearAcc
  exact h.update

theorem hitOf (h : d.Tame e) (a : Acc) : d.Tame (e.hitOf a).2 := by
  unfold Dev.hitOf
  exact ite_snd h.freeNext h

theorem askChange (h : d.Tame e) (ch : NzChange) : d.Tame (e.askChange ch) := by
  unfold Dev.askChange
  exact ite ((h.mapSwitches _).update) (ite (((h.mapSwitches _).update).schedule _ _) (((h.mapSwitches _).update).update))

theorem substitute (h : d.Tame e) (nz : Nat) (v : Verdict) (hit : Nat) (defl : Int) : d.Tame (e.substitute nz v hit defl).2 := by
  unfold Dev.substitute
  exact h.askChange _

theorem setRun (h : d.Tame e) (nz : Nat) (n : Nat) (window : Bool) : d.Tame (e.setRun nz n window) := by
  unfold Dev.setRun
  exact h.update.wr _ _ _

theorem dropStitch (h : d.Tame e) (nz : Nat) (v : Verdict) (hit : Nat) (defl : Int) : d.Tame (e.dropStitch nz v hit defl) := by
  unfold Dev.dropStitch
  exact ((((h.setHealth _ _).wr _ _ _).setRun _ _ _).substitute _ _ _ _).raise _ _ _

theorem nzhArm (h : d.Tame e) : d.Tame (e.nzhArm) := by
  unfold Dev.nzhArm
  exact ite h (h.update.wrB _ _ _)

theorem showVerdict (h : d.Tame e) (nz : Nat) (hit : Nat) (defl : Int) : d.Tame (e.showVerdict nz hit defl) := by
  unfold Dev.showVerdict
  exact (h.wr _ _ _).wrS _ _ _

theorem windowVerdict (h : d.Tame e) (nz : Nat) (v : Verdict) (hit : Nat) (defl : Int) : d.Tame (e.windowVerdict nz v hit defl) := by
  unfold Dev.windowVerdict
  dsimp only
  split
  · exact ite (ite (h.dropStitch _ _ _ _) (ite (((h.setHealth _ _).wr _ _ _).nzhArm) ((h.setHealth _ _).wr _ _ _))) (ite ((h.setHealth _ _).wr _ _ _) h)
  · exact ite (ite (h.dropStitch _ _ _ _) (ite (((h.setHealth _ _).wr _ _ _).nzhArm) ((h.setHealth _ _).wr _ _ _))) (ite ((h.setHealth _ _).wr _ _ _) h)
  · exact ite h (ite (ite (h.setRun _ _ _) h) (ite (((h.setRun _ _ _).wr _ _ _).substitute _ _ _ _) (h.setRun _ _ _)))
  · exact h

theorem swatchVerdictOf (h : d.Tame e) (nz : Nat) (v : Verdict) (hit : Nat) (defl : Int) : d.Tame (e.swatchVerdictOf nz v hit defl).2 := by
  unfold Dev.swatchVerdictOf
  dsimp only
  split
  · exact ite_snd (h.dropStitch _ _ _ _) h
  · exact ite_snd (h.dropStitch _ _ _ _) h
  · exact ite_snd (h.setRun _ _ _) (ite_snd ((((h.setHealth _ _).setRun _ _ _).askChange _).raise _ _ _) (h.setRun _ _ _))
  · exact h

theorem windowClose (h : d.Tame e) (nz : Nat) : d.Tame (e.windowClose nz) := by
  unfold Dev.windowClose
  exact ite h ((((h.clearAcc _).hitOf _).showVerdict _ _ _).windowVerdict _ _ _ _)

theorem swatchVerdict (h : d.Tame e) : d.Tame (e.swatchVerdict) := by
  unfold Dev.swatchVerdict
  split
  · exact h
  · refine ite h ?_
    dsimp only
    refine raise (count ?_ _ _ _) _ _ _
    refine foldl_snd h.update _ fun acc p h1 => ?_
    exact ((h1.hitOf _).showVerdict _ _ _).swatchVerdictOf _ _ _ _

theorem swatchPages (h : d.Tame e) : d.Tame (e.swatchPages) := by
  unfold Dev.swatchPages
  exact ite h h.update.nzhArm

theorem quarantine (h : d.Tame e) (nz : Nat) (q : Int) : d.Tame (e.quarantine nz q) := by
  unfold Dev.quarantine
  exact h.update

theorem audit (h : d.Tame e) (nz : Nat) (old : Nat) (new : Nat) (source : Nat) (kind : Nat) (q : Int) (hit : Nat) (defl : Int) : d.Tame (e.audit nz old new source kind q hit defl) := by
  unfold Dev.audit
  exact ((h.dramWrite _ _ _ _ _).update).wr _ _ _

theorem applyChange (h : d.Tame e) (ch : NzChange) : d.Tame (e.applyChange ch) := by
  unfold Dev.applyChange
  exact ite h (((h.setEntry _ _).quarantine _ _).audit _ _ _ _ _ _ _ _)

theorem postChanged (h : d.Tame e) : d.Tame (e.postChanged) := by
  unfold Dev.postChanged
  exact ite h (h.update.raise _ _ _)

theorem substApply (h : d.Tame e) : d.Tame (e.substApply) := by
  unfold Dev.substApply
  exact postChanged (foldl h.update _ (fun _ _ h1 => h1.applyChange _))

theorem cueChanges (h : d.Tame e) (subs : List Switch) (start : Int) : d.Tame (e.cueChanges subs start) := by
  unfold Dev.cueChanges
  exact h.update

theorem hostWins (h : d.Tame e) (nz : Nat) : d.Tame (e.hostWins nz) := by
  unfold Dev.hostWins
  exact ite h.freeNext.update h.update

theorem hostEntry (h : d.Tame e) (m : Sys2Proof.Master) (nz : Nat) (v : Nat) : d.Tame (e.hostEntry m nz v) := by
  unfold Dev.hostEntry
  exact ite h ((quarantine (ite (((((h.hostWins _).mapSwitches _).setEntry _ _).clearAcc _).setHealth _ _) ((((((h.hostWins _).mapSwitches _).setEntry _ _).clearAcc _).setHealth _ _).setRun _ _ _)) _ _).audit _ _ _ _ _ _ _ _)

theorem wSubst (h : d.Tame e) (m : Sys2Proof.Master) (i : Nat) (val : Nat) (mask : Nat) : d.Tame (e.wSubst m i val mask) := by
  unfold Dev.wSubst
  exact foldl h _ (fun _ _ h1 => ite h1 (h1.hostEntry _ _ _))

theorem nzhStops (h : d.Tame e) : d.Tame (e.nzhStops) := by
  unfold Dev.nzhStops
  exact h.update

theorem nzhStarts (h : d.Tame e) : d.Tame (e.nzhStarts) := by
  unfold Dev.nzhStarts
  exact h.update.wrS _ _ _

theorem wSubstAt (h : d.Tame e) (m : Sys2Proof.Master) (off : Nat) (bytes : Nat) (val : Nat) : d.Tame (e.wSubstAt m off bytes val) := by
  unfold Dev.wSubstAt
  exact ite ((h.wSubst _ _ _ _).wSubst _ _ _ _) (h.wSubst _ _ _ _)

theorem setOwed (h : d.Tame e) (ch : Nat) (rank : Nat) (n : Nat) : d.Tame (e.setOwed ch rank n) := by
  unfold Dev.setOwed
  exact ite (h.wr _ _ _) (h.wr _ _ _)

theorem refresh (h : d.Tame e) (ch : Nat) (rank : Nat) : d.Tame (e.refresh ch rank) := by
  unfold Dev.refresh
  exact (h.setOwed _ _ _).update

theorem refreshIdle (h : d.Tame e) (ch : Nat) : d.Tame (e.refreshIdle ch) := by
  unfold Dev.refreshIdle
  exact ite h (foldl h _ (fun _ _ h1 => ite h1 (h1.refresh _ _)))

theorem arbiterGrant (h : d.Tame e) (ch : Nat) (reqs : List Sys2Proof.MemReq) : d.Tame (e.arbiterGrant ch reqs) := by
  unfold Dev.arbiterGrant
  exact ite ((h.setArb _ _).refreshIdle _) (by
      dsimp only
      split
      · exact h.setArb _ _
      · exact refreshIdle (ite (((h.setArb _ _).setArb _ _).count _ _ _) ((h.setArb _ _).setArb _ _)) _)

theorem holdCut (h : d.Tame e) (ch : Nat) : d.Tame (e.holdCut ch) := by
  unfold Dev.holdCut
  split
  · exact h
  · exact ((h.setArb _ _).count _ _ _).raiseOnce _ _ _ _

theorem withdraw (h : d.Tame e) (ch : Nat) (r : Nat) : d.Tame (e.withdraw ch r) := by
  unfold Dev.withdraw
  exact (h.setArb _ _).refreshIdle _

theorem refreshYield (h : d.Tame e) (ch : Nat) : d.Tame (e.refreshYield ch) := by
  unfold Dev.refreshYield
  exact h.setArb _ _

theorem setLane (h : d.Tame e) (key : Nat) (f : LaneSt → LaneSt) : d.Tame (e.setLane key f) := by
  unfold Dev.setLane
  exact h.update

theorem refreshSlot (h : d.Tame e) (ch : Nat) : d.Tame (e.refreshSlot ch) := by
  unfold Dev.refreshSlot
  exact ite (h.setArb _ _) (foldl (h.setArb _ _) _ (fun _ _ h1 => ite h1 (h1.refresh _ _)))

theorem slotOpen (h : d.Tame e) (ch : Nat) (slot : Nat) (reqs : List Sys2Proof.MemReq) (stream : Bool) : d.Tame (e.slotOpen ch slot reqs stream) := by
  unfold Dev.slotOpen
  exact ite h (ite ((h.update.setArb _ _).refreshSlot _) (ite ((h.update.setArb _ _).refreshIdle _) (ite (refreshIdle (ite ((h.update.setArb _ _).refreshYield _) (h.update.setArb _ _)) _) ((setArb (ite ((h.update.setArb _ _).refreshYield _) (h.update.setArb _ _)) _ _).refreshIdle _))))

theorem postYields (h : d.Tame e) (ch : Nat) : d.Tame (e.postYields ch) := by
  unfold Dev.postYields
  exact setArb (foldl h _ (fun _ _ h1 => (h1.raise _ _ _).count _ _ _)) _ _

theorem frontBoundary (h : d.Tame e) : d.Tame (e.frontBoundary) := by
  unfold Dev.frontBoundary
  exact (h.postYields _).postYields _

theorem wMfClass (h : d.Tame e) (val : Nat) (mask : Nat) : d.Tame (e.wMfClass val mask) := by
  unfold Dev.wMfClass
  exact foldl (foldl (h.store _ _ _ _) _ (fun _ _ h1 => ite (h1.wr _ _ _) h1)) _ (fun _ _ h1 => h1.setArb _ _)

theorem wSlotActive (h : d.Tame e) (m : Sys2Proof.Master) (word : Nat) : d.Tame (e.wSlotActive m word) := by
  unfold Dev.wSlotActive
  exact (h.wr _ _ _).refuse _ _ _ _

theorem swapRefused (h : d.Tame e) (result : Nat) : d.Tame (e.swapRefused result) := by
  unfold Dev.swapRefused
  exact ((h.update.wrB _ _ _).wr _ _ _).raise _ _ _

theorem wMfSlotCtrl (h : d.Tame e) (val : Nat) (mask : Nat) : d.Tame (e.wMfSlotCtrl val mask) := by
  unfold Dev.wMfSlotCtrl
  exact ite (h.store _ _ _ _) (ite ((h.store _ _ _ _).swapRefused _) ((h.store _ _ _ _).update))

theorem slotSwap (h : d.Tame e) : d.Tame (e.slotSwap) := by
  unfold Dev.slotSwap
  split
  · exact h
  · exact ite h (ite (h.swapRefused _) ((((update (foldl h _ (fun _ _ h1 => h1.setReg _ _ _))).wrB _ _ _).wr _ _ _).raise _ _ _))

theorem saveDram (h : d.Tame e) : d.Tame (e.saveDram) := by
  unfold Dev.saveDram
  exact h.putGroup _ _

theorem loadMarks (h : d.Tame e) : d.Tame (e.loadMarks) := by
  unfold Dev.loadMarks
  exact foldl h _ (fun _ _ h1 => (((((h1.wr _ _ _).wr _ _ _).wr _ _ _).wr _ _ _).wr _ _ _).wr _ _ _)

theorem loadRepairs (h : d.Tame e) : d.Tame (e.loadRepairs) := by
  unfold Dev.loadRepairs
  exact foldl h _ (fun _ _ h1 => (((((h1.wr _ _ _).wr _ _ _).wr _ _ _).wr _ _ _).wr _ _ _).wr _ _ _)

theorem markChip (h : d.Tame e) (ch : Nat) (rank : Nat) (lane : Nat) (cause : Nat) : d.Tame (e.markChip ch rank lane cause) := by
  unfold Dev.markChip
  exact ite h (ite ((saveDram (ite ((((h.wr _ _ _).wr _ _ _).wr _ _ _).wr _ _ _) ((h.wr _ _ _).wr _ _ _))).raise _ _ _) (ite ((((h.wr _ _ _).wr _ _ _).saveDram).raise _ _ _) (h.raise _ _ _)))

theorem failSpare (h : d.Tame e) (ch : Nat) (rank : Nat) : d.Tame (e.failSpare ch rank) := by
  unfold Dev.failSpare
  exact ite h (((h.wr _ _ _).saveDram).raise _ _ _)

theorem condemn (h : d.Tame e) (ch : Nat) (rank : Nat) (lane : Nat) (cause : Nat) : d.Tame (e.condemn ch rank lane cause) := by
  unfold Dev.condemn
  exact ite (h.failSpare _ _) (h.markChip _ _ _ _)

theorem chipError (h : d.Tame e) (ch : Nat) (p : Place) (lane : Nat) : d.Tame (e.chipError ch p lane) := by
  unfold Dev.chipError
  dsimp only
  split
  · exact h.setLane _ _
  · exact ite (((h.setLane _ _).wr _ _ _).condemn _ _ _ _) ((h.setLane _ _).wr _ _ _)

theorem decodeWord (h : d.Tame e) (ch : Nat) (p : Place) (i w j : Nat) (errs : List SymbolError) :
    d.Tame (e.decodeWord ch p i w j errs).2 := by
  unfold Dev.decodeWord
  dsimp only
  have hc := h.count F.DM_ECC_COUNT_CORRECTED ch 1
  have hx (c : Prop) [Decidable c] := ite (c := c) (hc.count F.DM_ECC_COUNT_ERASED ch 1) hc
  refine ite_snd h (ite_snd ?_ (ite_snd h.freeNext (ite h.freeNext (h.freeNext.count _ _ _))))
  dsimp only
  split
  · exact (hx _).chipError _ _ _
  · exact hx _

theorem decodeGranule (h : d.Tame e) (g : Nat) (errs : List Sys2Proof.SymbolError) (req : Nat) (host : Option (Fin 2)) : d.Tame (e.decodeGranule g errs req host).2 := by
  unfold Dev.decodeGranule
  exact ite (noteUe (foldl_snd h _ (fun _ _ h1 => (by
      dsimp only
      split
      · next hp =>
        exact (h1.decodeWord _ _ _ _ _ _).of_eq hp
      · next hp =>
        exact (h1.decodeWord _ _ _ _ _ _).of_eq hp
      · next hp =>
        exact ite ((h1.decodeWord _ _ _ _ _ _).of_eq hp) (((h1.decodeWord _ _ _ _ _ _).of_eq hp).update)))) _ _ _) (foldl_snd h _ (fun _ _ h1 => (by
      dsimp only
      split
      · next hp =>
        exact (h1.decodeWord _ _ _ _ _ _).of_eq hp
      · next hp =>
        exact (h1.decodeWord _ _ _ _ _ _).of_eq hp
      · next hp =>
        exact ite ((h1.decodeWord _ _ _ _ _ _).of_eq hp) (((h1.decodeWord _ _ _ _ _ _).of_eq hp).update))))

theorem errorTo (h : d.Tame e) (rq : Nat) : d.Tame (e.errorTo rq) := by
  unfold Dev.errorTo
  exact ite h (h.emit _)

theorem readComplete (h : d.Tame e) (rq : Nat) (a : Nat) (errs : List Sys2Proof.SymbolError) : d.Tame (e.readComplete rq a errs) := by
  unfold Dev.readComplete
  exact ite h (ite ((((h.moveGranule _ _).decodeGranule _ _ _ _).update).errorTo _) (((h.moveGranule _ _).decodeGranule _ _ _ _).update))

theorem rmw (h : d.Tame e) (rq : Nat) (a : Nat) (bs : List Sys2Proof.Byte) : d.Tame (e.rmw rq a bs) := by
  unfold Dev.rmw
  exact ite h (by
      dsimp only
      split
      · next hp =>
        exact (h.dramWrite _ _ _ _ _).of_eq hp
      · next hp =>
        exact ite (((h.dramWrite _ _ _ _ _).of_eq hp).logAer _ _) (ite (((h.dramWrite _ _ _ _ _).of_eq hp).logAer _ _) (((h.dramWrite _ _ _ _ _).of_eq hp).errorTo _))
      · next hp =>
        exact ite (((h.dramWrite _ _ _ _ _).of_eq hp).logAer _ _) (ite (((h.dramWrite _ _ _ _ _).of_eq hp).logAer _ _) (((h.dramWrite _ _ _ _ _).of_eq hp).errorTo _))
      · next hp =>
        exact ite (((h.dramWrite _ _ _ _ _).of_eq hp).logAer _ _) (ite (((h.dramWrite _ _ _ _ _).of_eq hp).logAer _ _) (((h.dramWrite _ _ _ _ _).of_eq hp).errorTo _)))

theorem ceDecay (h : d.Tame e) : d.Tame (e.ceDecay) := by
  unfold Dev.ceDecay
  exact foldl h _ (fun _ _ h1 => h1.wr _ _ _)

theorem rewriteGranule (h : d.Tame e) (ch : Nat) (g : Nat) (errs : List Sys2Proof.SymbolError) (name : Nat) : d.Tame (e.rewriteGranule ch g errs name) := by
  unfold Dev.rewriteGranule
  exact ite ((h.sweepGranule _ _).decodeGranule _ _ _ _) ((((h.sweepGranule _ _).decodeGranule _ _ _ _).sweepGranule _ _).storeWrong _)

theorem rebuildGranule (h : d.Tame e) (ch : Nat) (errs : List Sys2Proof.SymbolError) : d.Tame (e.rebuildGranule ch errs) := by
  unfold Dev.rebuildGranule
  split
  · exact h
  · exact ite h (ite ((h.rewriteGranule _ _ _ _).wr _ _ _) (ite (((((h.rewriteGranule _ _ _ _).wr _ _ _).wr _ _ _).saveDram).raise _ _ _) (ite (((h.rewriteGranule _ _ _ _).wr _ _ _).saveDram) ((h.rewriteGranule _ _ _ _).wr _ _ _))))

theorem scrubGranule (h : d.Tame e) (ch : Nat) (errs : List Sys2Proof.SymbolError) : d.Tame (e.scrubGranule ch errs) := by
  unfold Dev.scrubGranule
  exact ite h (ite (wr (ite ((h.sweepGranule _ _).decodeGranule _ _ _ _) ((((h.sweepGranule _ _).decodeGranule _ _ _ _).sweepGranule _ _).storeWrong _)) _ _ _) (((wr (ite ((h.sweepGranule _ _).decodeGranule _ _ _ _) ((((h.sweepGranule _ _).decodeGranule _ _ _ _).sweepGranule _ _).storeWrong _)) _ _ _).wr _ _ _).raise _ _ _))

theorem rewriteRow (h : d.Tame e) (ch : Nat) (rank : Nat) (bg : Nat) (bank : Nat) (row : Nat) (errs : List (Fin 64 × Sys2Proof.SymbolError)) : d.Tame (e.rewriteRow ch rank bg bank row errs) := by
  unfold Dev.rewriteRow
  exact foldl h _ (fun _ _ h1 => h1.rewriteGranule _ _ _ _)

theorem pprRepair (h : d.Tame e) (ch : Nat) (rank : Nat) (lane : Nat) (errs : List (Fin 64 × Sys2Proof.SymbolError)) : d.Tame (e.pprRepair ch rank lane errs) := by
  unfold Dev.pprRepair
  dsimp only
  split
  · exact ite h ((((((((((h.rewriteRow _ _ _ _ _ _).setLane _ _).wr _ _ _).wr _ _ _).wr _ _ _).wr _ _ _).wr _ _ _).wr _ _ _).saveDram).raise _ _ _)
  · exact h

theorem endPass (h : d.Tame e) (ch : Nat) (rank : Nat) (lane : Nat) (pass : List Bool) : d.Tame (e.endPass ch rank lane pass) := by
  unfold Dev.endPass
  exact ite (ite (condemn (ite ((((h.setLane _ _).wr _ _ _).wr _ _ _).setLane _ _) (((((h.setLane _ _).wr _ _ _).wr _ _ _).setLane _ _).raise _ _ _)) _ _ _ _) (ite ((((h.setLane _ _).wr _ _ _).wr _ _ _).setLane _ _) (((((h.setLane _ _).wr _ _ _).wr _ _ _).setLane _ _).raise _ _ _))) (ite (((h.setLane _ _).wr _ _ _).condemn _ _ _ _) (((((h.setLane _ _).wr _ _ _).wr _ _ _).wr _ _ _).setLane _ _))

theorem retrainPause (h : d.Tame e) (ch : Nat) (rank : Nat) (lane : Nat) (pass : Bool) : d.Tame (e.retrainPause ch rank lane pass) := by
  unfold Dev.retrainPause
  exact ite h (ite (((h.setArb _ _).setLane _ _).endPass _ _ _ _) (((h.setArb _ _).setLane _ _).setLane _ _))

theorem trefi (h : d.Tame e) (ch : Nat) (rank : Nat) : d.Tame (e.trefi ch rank) := by
  unfold Dev.trefi
  exact ite ((h.setOwed _ _ _).refreshIdle _) h

theorem refForced (h : d.Tame e) (ch : Nat) (rank : Nat) : d.Tame (e.refForced ch rank) := by
  unfold Dev.refForced
  exact ite h (((h.refresh _ _).count _ _ _).refreshYield _)

theorem tempPoll (h : d.Tame e) (ch : Nat) (rank : Nat) (doubled : Nat) (tooHot : Nat) : d.Tame (e.tempPoll ch rank doubled tooHot) := by
  unfold Dev.tempPoll
  exact ite h (foldl (ite (h.wrB _ _ _) (h.wrB _ _ _)) _ (fun _ _ h1 => ite (h1.update.raise _ _ _) h1.update))

theorem wDmMark (h : d.Tame e) (ch : Nat) (val : Nat) (mask : Nat) : d.Tame (e.wDmMark ch val mask) := by
  unfold Dev.wDmMark
  exact ite (update (ite ((h.store _ _ _ _).markChip _ _ _ _) (h.store _ _ _ _))) (ite ((h.store _ _ _ _).markChip _ _ _ _) (h.store _ _ _ _))

theorem setSpeed (h : d.Tame e) (t : Nat) : d.Tame { e with drm.speed := some t } := h.update

theorem wDmSpeed (h : d.Tame e) (ch val mask : Nat) : d.Tame (e.wDmSpeed ch val mask) := by
  unfold Dev.wDmSpeed
  refine ite h ?_
  have hs := (h.store R.DM_SPEED_CTRL ch val mask).store R.DM_SPEED_CTRL (1 - ch) val mask
  generalize (e.store R.DM_SPEED_CTRL ch val mask).store R.DM_SPEED_CTRL (1 - ch) val mask = f at hs ⊢
  have hr := fun r => (hs.wr F.DM_SPEED_CTRL_RESULT 0 r).wr F.DM_SPEED_CTRL_RESULT 1 r
  exact ite (ite (hr _) (foldl ((hr _).setSpeed _) _ fun _ _ h1 => ((h1.wr _ _ _).wr _ _ _).wr _ _ _)) hs

theorem trainLanes (h : d.Tame e) (lanes : List (Nat × Nat × Nat)) : d.Tame (e.trainLanes lanes).2 := by
  unfold Dev.trainLanes
  exact foldl_snd h _ (fun _ _ h1 => ite_snd h1 (ite_snd (h1.failSpare _ _) (ite_snd (h1.markChip _ _ _ _) (h1.markChip _ _ _ _))))

theorem speedDone (h : d.Tame e) (lanes : List (Nat × Nat × Nat)) : d.Tame (e.speedDone lanes) := by
  unfold Dev.speedDone
  split
  · exact h
  · exact serveHeld (foldl (h.update.trainLanes _) _ (fun _ _ h1 => (((h1.wr _ _ _).wr _ _ _).wr _ _ _).raise _ _ _))

theorem onVaultMarks {α : Type} (h : d.Tame e) {f : Dev → α × Dev} (hf : ∀ e, d.Tame e → d.Tame (f e).2) : d.Tame (e.onVaultMarks f).2 :=
  (hf _ h.loadMarks).foldl _ fun _ _ h1 => h1.setReg _ _ _

theorem forgetMarks (h : d.Tame e) : d.Tame (e.forgetMarks) :=
  (h.onVaultMarks fun _ h1 => (h1.foldl _ fun _ _ h2 => ite (h2.foldl _ fun _ _ h3 => h3.setReg _ _ _) h2).saveDram).update

theorem trainDram (h : d.Tame e) (lanes : List (Nat × Nat × Nat)) : d.Tame (e.trainDram lanes).2 :=
  h.onVaultMarks fun _ h1 => h1.trainLanes lanes

theorem fillDram (h : d.Tame e) : d.Tame e.fillDram := by
  have hz : d.Tame { e with mem := [], ue := [] } :=
    { inv := fun hd => { h.inv hd with mem := rfl }, fuses := h.fuses, reset := h.reset }
  exact (hz.foldl _ fun _ _ h => ite ((h.wr _ _ _).wr _ _ _) h).saveDram

/-- A change of one entry of a port's MSI-X table. -/
theorem setMsix (h : d.Tame e) (p v : Nat) (f : MsixEntry → MsixEntry) :
    d.Tame (e.setPort p fun x => { x with msix := x.msix.modify v f }) :=
  h.setPort p fun x => ⟨List.length_modify f x.msix v, rfl⟩

theorem message (h : d.Tame e) (p v : Fin 2) : d.Tame (e.message p v) :=
  ite h (ite (h.setMsix _ _ _) (ite ((h.emit _).setPort _) (h.emit _)))

theorem unmasked (h : d.Tame e) (p v : Fin 2) : d.Tame (e.unmasked p v) :=
  ite ((h.setMsix _ _ _).message _ _) h

theorem signalEntry (h : d.Tame e) (p : Fin 2) : d.Tame (e.signalEntry p) := by
  unfold Dev.signalEntry
  exact ite (message (ite ((h.message _ _).setPort _) (h.setPort _)) _ _) (ite ((h.message _ _).setPort _) (h.setPort _))

theorem writeEntry (h : d.Tame e) (p : Fin 2) (seq : Nat) (ev : Ev) : d.Tame (e.writeEntry p seq ev) := by
  unfold Dev.writeEntry
  exact ((((h.emit _).setPort _).wr _ _ _).wrB _ _ _).signalEntry _

theorem showQueueOf (h : d.Tame e) (p : Nat) : d.Tame (e.showQueueOf p) := by
  unfold Dev.showQueueOf
  exact h.wr _ _ _

theorem postTo (h : d.Tame e) (p : Fin 2) (ev : Ev) : d.Tame (e.postTo p ev) := by
  unfold Dev.postTo
  exact ite h (ite ((h.setPort _).writeEntry _ _ _) (ite (((h.setPort _).setPort _).showQueueOf _) (((h.setPort _).bump _ _ _).setPort _)))

theorem eventPost (h : d.Tame e) : d.Tame (e.eventPost) := by
  unfold Dev.eventPost
  split
  · exact h
  · exact ite (postTo (ite (h.update.postTo _ _) h.update) _ _) (ite (h.update.postTo _ _) h.update)

theorem ringWrite (h : d.Tame e) (p : Fin 2) : d.Tame (e.ringWrite p) := by
  unfold Dev.ringWrite
  split
  · exact h
  · exact ite h (((h.setPort _).showQueueOf _).writeEntry _ _ _)

theorem enableRing (h : d.Tame e) (p : Fin 2) : d.Tame (e.enableRing p) := by
  unfold Dev.enableRing
  exact (((h.wr _ _ _).wr _ _ _).wr _ _ _).setPort _

theorem disableRing (h : d.Tame e) (p : Fin 2) : d.Tame (e.disableRing p) := by
  unfold Dev.disableRing
  exact ((h.bump _ _ _).setPort _).showQueueOf _

theorem wEvrCfg (h : d.Tame e) (p : Fin 2) (val : Nat) (mask : Nat) : d.Tame (e.wEvrCfg p val mask) := by
  unfold Dev.wEvrCfg
  exact ite ((h.store _ _ _ _).enableRing _) (ite ((h.store _ _ _ _).disableRing _) (h.store _ _ _ _))

theorem wEvrBase (h : d.Tame e) (p : Fin 2) (val : Nat) (mask : Nat) : d.Tame (e.wEvrBase p val mask) := by
  unfold Dev.wEvrBase
  exact ite h (h.store _ _ _ _)

theorem moderationEnd (h : d.Tame e) (p : Fin 2) : d.Tame (e.moderationEnd p) := by
  unfold Dev.moderationEnd
  exact ite ((h.message _ _).setPort _) h

theorem wDoorbell (h : d.Tame e) (p : Fin 2) (val : Nat) : d.Tame (e.wDoorbell p val) := by
  unfold Dev.wDoorbell
  exact h.raise _ _ _

theorem wSnapReq (h : d.Tame e) (val : Nat) (mask : Nat) : d.Tame (e.wSnapReq val mask) := by
  unfold Dev.wSnapReq
  exact ite (h.update.wrB _ _ _) h

theorem freeze (h : d.Tame e) (p : Nat × Int) : d.Tame (e.freeze p) := by
  unfold Dev.freeze
  split
  · exact h.wr _ _ _
  · exact h

theorem copyDram (h : d.Tame e) (p : Fin 2) (fuel a : Nat) (bs : List Byte) : d.Tame (e.copyDram p fuel a bs).2.2 := by
  induction fuel generalizing e a bs with
  | zero => exact h
  | succ fuel ih =>
    rw [Dev.copyDram]
    refine ite_snd_snd h ?_
    dsimp only
    split
    · next hp => exact ih (of_eq (h.dramStore _ _ _ _ _) hp) _ _
    · next hp => exact of_eq (h.dramStore _ _ _ _ _) hp

theorem copyOut (h : d.Tame e) (p : Fin 2) (j : SnapJob) (off : Nat) (bs : List Sys2Proof.Byte) : d.Tame (e.copyOut p j off bs).2.2 := by
  unfold Dev.copyOut
  exact ite_snd_snd (h.copyDram _ _ _ _) (foldl h _ (fun _ _ h1 => h1.emit _))

theorem setSnap (h : d.Tame e) (p : Nat) (f : SnapJob → SnapJob) : d.Tame (e.setSnap p f) := by
  unfold Dev.setSnap
  exact h.setPort _

theorem endCopy (h : d.Tame e) (p : Fin 2) (err : Nat) (words : Nat) : d.Tame (e.endCopy p err words) := by
  unfold Dev.endCopy
  exact (((h.setSnap _ _).wrB _ _ _).wr _ _ _).raise _ _ _

theorem cutCopy (h : d.Tame e) (p : Fin 2) (err : Nat) : d.Tame (e.cutCopy p err) := by
  unfold Dev.cutCopy
  exact ite (h.endCopy _ _ _) ((h.freeNext.copyOut _ _ _ _).endCopy _ _ _)

theorem copyDone (h : d.Tame e) (p : Fin 2) : d.Tame (e.copyDone p) := by
  unfold Dev.copyDone
  exact ite h (ite h (ite ((h.copyOut _ _ _ _).endCopy _ _ _) (((h.copyOut _ _ _ _).copyOut _ _ _ _).endCopy _ _ _)))

theorem flipEpoch (h : d.Tame e) (k : Nat) : d.Tame (e.flipEpoch k) := by
  unfold Dev.flipEpoch
  exact ite h ((wr (foldl (update (ite (cutCopy (ite (h.cutCopy _ _) h) _ _) (ite (h.cutCopy _ _) h))) _ (fun _ _ h1 => h1.freeze _)) _ _ _).wrB _ _ _)

theorem wSnapCtrl (h : d.Tame e) (p : Fin 2) (val : Nat) (mask : Nat) : d.Tame (e.wSnapCtrl p val mask) := by
  unfold Dev.wSnapCtrl
  exact ite (((h.store _ _ _ _).setSnap _ _).wrB _ _ _) (h.store _ _ _ _)

theorem copyStart (h : d.Tame e) (p : Fin 2) : d.Tame (e.copyStart p) := by
  unfold Dev.copyStart
  split
  · exact ite h (h.setSnap _ _)
  · exact h

theorem setPortLink (h : d.Tame e) (p : Fin 2) (up : Bool) : d.Tame (e.setPortLink p up) := by
  unfold Dev.setPortLink
  exact ite h ((h.wrB _ _ _).raise _ _ _)

/-- A port begins again, its PERSTn at the level given. -/
theorem clearPort (h : d.Tame e) (p : Nat) (f : HostPort → Bool) : d.Tame (e.setPort p fun x => { perst := f x }) where
  inv hd := { h.inv hd with
    ports := by simpa [Dev.setPort] using (h.inv hd).ports
    vectors := by
      intro x hx
      obtain ⟨i, hi, rfl⟩ := List.mem_iff_getElem.mp hx
      simp only [Dev.setPort, List.getElem_modify]
      split
      · exact ⟨rfl, rfl⟩
      · exact (h.inv hd).vectors _ (List.getElem_mem _)
    uploads := (h.inv hd).uploads }
  fuses := h.fuses
  reset := h.reset

theorem resetPort (h : d.Tame e) (p : Fin 2) (perst : Bool) : d.Tame (e.resetPort p perst) := by
  unfold Dev.resetPort
  exact (((((((((((ite (h.cutCopy p 4) h).clearPort p _).update.setReg _ _ _).setReg _ _ _).setReg _ _ _).setReg _ _ _).setReg _ _ _).setReg _ _ _).wr
    _ _ _).wr _ _ _).wr _ _ _).setPortLink _ _

theorem linkComesUp (h : d.Tame e) (p : Fin 2) (speed : Nat) (width : Nat) (perst : Bool) : d.Tame (e.linkComesUp p speed width perst) := by
  unfold Dev.linkComesUp
  exact ite (h.setPort _) ((((h.setPort _).wr _ _ _).wr _ _ _).setPortLink _ _)

theorem configWrite (h : d.Tame e) (p : Fin 2) (w : ConfigWrite) : d.Tame (e.configWrite p w) := by
  cases w with
  | bar n val => exact h.setPort _ fun _ => ⟨rfl, List.length_set ..⟩
  | msixControl en mask => exact ((h.setPort _).unmasked _ _).unmasked _ _
  | msixEntry v addr data masked => exact (h.setMsix _ _ _).unmasked _ _
  | aerClear bits => exact h.setPort _
  | power d3 => exact h.setPort _
  | busMaster en => exact ((h.setPort _).unmasked _ _).unmasked _ _
  | maxPayload n => exact h.setPort _

theorem setUpload (h : d.Tame e) (n : Nat) (f : Upload → Upload) : d.Tame (e.setUpload n f) :=
  h.update (huploads := List.length_modify ..)

theorem endUpload (h : d.Tame e) (e' : Nat) (err : Nat) : d.Tame (e.endUpload e' err) := by
  unfold Dev.endUpload
  exact (((h.setUpload _ _).wr _ _ _).wr _ _ _).raise _ _ _

theorem wUpload (h : d.Tame e) (m : Sys2Proof.Master) (e' : Nat) (val : Nat) (mask : Nat) : d.Tame (e.wUpload m e' val mask) := by
  unfold Dev.wUpload
  exact ite (ite ((((h.store _ _ _ _).setUpload _ _).wr _ _ _).endUpload _ _) (((h.store _ _ _ _).setUpload _ _).wr _ _ _)) (h.store _ _ _ _)

theorem uploadDatagram (h : d.Tame e) (e' : Fin 2) : d.Tame (e.uploadDatagram e') := by
  unfold Dev.uploadDatagram
  exact ite h (by
      dsimp only
      split
      · next hp =>
        exact ite (((((((h.readSource _ _ _ _ _).of_eq_snd hp).freeNext).emit _).count _ _ _).setUpload _ _).endUpload _ _) ((((((h.readSource _ _ _ _ _).of_eq_snd hp).freeNext).emit _).count _ _ _).setUpload _ _)
      · next hp =>
        exact ((h.readSource _ _ _ _ _).of_eq_snd hp).endUpload _ _)

theorem ethLink (h : d.Tame e) (e' : Fin 2) (up : Bool) : d.Tame (e.ethLink e' up) := by
  unfold Dev.ethLink
  exact ite h (ite (((h.wrB _ _ _).raise _ _ _).endUpload _ _) ((h.wrB _ _ _).raise _ _ _))

theorem ethFrame (h : d.Tame e) (e' : Fin 2) (badFcs : Bool) : d.Tame (e.ethFrame e' badFcs) := by
  unfold Dev.ethFrame
  exact ite h (ite ((h.ethDiscard _).count _ _ _) (h.ethDiscard _))

theorem setAxis (h : d.Tame e) (n : Nat) (f : MotAxis → MotAxis) : d.Tame (e.setAxis n f) :=
  h.update (hmot := List.length_modify ..)

theorem setMotion (h : d.Tame e) (n : Nat) (v : Nat) : d.Tame (e.setMotion n v) := by
  unfold Dev.setMotion
  exact h.wr _ _ _

theorem showVel (h : d.Tame e) (n : Nat) (up : Bool) : d.Tame (e.showVel n up) := by
  unfold Dev.showVel
  exact ite ((h.wrS _ _ _).wrS _ _ _) (h.wrS _ _ _)

theorem markLost (h : d.Tame e) (n : Nat) : d.Tame (e.markLost n) := by
  unfold Dev.markLost
  exact (h.wr _ _ _).wr _ _ _

theorem haltAxis (h : d.Tame e) (n : Nat) : d.Tame (e.haltAxis n) := by
  unfold Dev.haltAxis
  exact (((h.setAxis _ _).setMotion _ _).wr _ _ _).wr _ _ _

theorem stopOne (h : d.Tame e) (n : Nat) (cause : Nat) (fast : Bool) {extra : Dev → Dev} (hf : ∀ e, d.Tame e → d.Tame (extra e)) : d.Tame (e.stopOne n cause fast extra) := by
  refine opt (hf _ (raise ?_ _ _ _)) (fun d => d.raise .secure 0x1008 [(1, n), (1, cause)]) fun _ h => h.raise _ _ _
  refine opt ?_ (fun d => d.setAxis n fun a => { a with low := true }) fun _ h => h.setAxis _ _
  refine opt ?_ (fun d => d.count F.MOT_n_COUNT_STALLS n 1) fun _ h => h.count _ _ _
  refine opt ?_ (fun d => d.count F.MOT_n_COUNT_CHATTER n 1) fun _ h => h.count _ _ _
  refine optNot (wr ?_ _ _ _) (fun d => d.count F.MOT_n_COUNT_STOPS n 1) fun _ h => h.count _ _ _
  exact opt (h.haltAxis n) (fun d => d.markLost n) fun _ h => h.markLost n

theorem endCap (h : d.Tame e) (port : Option (Fin 2)) (result : Nat) : d.Tame (e.endCap port result) := by
  unfold Dev.endCap
  exact ((h.update.wr _ _ _).wr _ _ _).raise _ _ _

theorem motStop (h : d.Tame e) (n : Nat) (cause : Nat) {extra : Dev → Dev} (hf : ∀ e, d.Tame e → d.Tame (extra e)) (mate : Nat) : d.Tame (e.motStop n cause extra mate) := by
  unfold Dev.motStop
  dsimp only
  split
  · exact ite (endCap (ite ((h.stopOne _ _ _ (fun _ h1 => hf _ h1)).stopOne _ _ _ (fun _ h1 => h1)) (h.stopOne _ _ _ (fun _ h1 => hf _ h1))) _ _) (ite ((h.stopOne _ _ _ (fun _ h1 => hf _ h1)).stopOne _ _ _ (fun _ h1 => h1)) (h.stopOne _ _ _ (fun _ h1 => hf _ h1)))
  · exact ite ((h.stopOne _ _ _ (fun _ h1 => hf _ h1)).stopOne _ _ _ (fun _ h1 => h1)) (h.stopOne _ _ _ (fun _ h1 => hf _ h1))

theorem disableAll (h : d.Tame e) : d.Tame (e.disableAll) := by
  unfold Dev.disableAll
  dsimp only
  split
  · exact ite (endCap (foldl h _ (fun _ _ h1 => h1.stopOne _ _ _ (fun _ h2 => h2))) _ _) (foldl h _ (fun _ _ h1 => h1.stopOne _ _ _ (fun _ h2 => h2)))
  · exact foldl h _ (fun _ _ h1 => h1.stopOne _ _ _ (fun _ h2 => h2))

theorem motStopOn (h : d.Tame e) (n : Fin 4) (cause : Nat) {extra : Dev → Dev} (hf : ∀ e, d.Tame e → d.Tame (extra e)) : d.Tame (e.motStopOn n cause extra) := by
  unfold Dev.motStopOn
  exact ite (h.motStop _ _ (fun _ h1 => hf _ h1) _) h

theorem standStill (h : d.Tame e) (n : Nat) : d.Tame (e.standStill n) := by
  unfold Dev.standStill
  exact h.setAxis _ _

theorem freshMove (h : d.Tame e) (n : Nat) (g : Goal) : d.Tame (e.freshMove n g) := by
  unfold Dev.freshMove
  exact (h.standStill _).setAxis _ _

theorem limitStop (h : d.Tame e) (n : Nat) (s : Int) : d.Tame (e.limitStop n s) := by
  unfold Dev.limitStop
  split
  · exact h.motStop _ _ (fun _ h1 => h1) _
  · exact h

theorem beginMove (h : d.Tame e) (n : Nat) (g : Goal) : d.Tame (e.beginMove n g) := by
  unfold Dev.beginMove
  exact ite (((h.standStill _).setAxis _ _).setMotion _ _) (((h.freshMove _ _).setMotion _ _).limitStop _ _)

theorem beginHome (h : d.Tame e) (n : Nat) : d.Tame (e.beginHome n) := by
  unfold Dev.beginHome
  exact ((((h.freshMove _ _).setAxis _ _).setMotion _ _).wr _ _ _).wr _ _ _

theorem beginReq (h : d.Tame e) (n : Nat) (home : Bool) (g : Goal) : d.Tame (e.beginReq n home g) := by
  unfold Dev.beginReq
  exact foldl h _ (fun _ _ h1 => ite (h1.beginHome _) (ite (h1.beginMove _ _) (ite h1 (ite (((h1.setAxis _ _).setMotion _ _).limitStop _ _) ((h1.setAxis _ _).setMotion _ _)))))

theorem noteHome (h : d.Tame e) (n : Nat) : d.Tame (e.noteHome n) := by
  unfold Dev.noteHome
  exact foldl h _ (fun _ _ h1 => h1.setAxis _ _)

theorem request (h : d.Tame e) (n : Fin 4) (home : Bool) (locked : Bool) (g : Goal) (again : Bool) : d.Tame (e.request n home locked g again) := by
  unfold Dev.request
  exact ite h (ite (foldl h _ (fun _ _ h1 => h1.raise _ _ _)) (ite ((setAxis (ite (h.noteHome _) h) _ _).wr _ _ _) (beginReq (ite (h.noteHome _) h) _ _ _)))

theorem brakeAxis (h : d.Tame e) (n : Nat) : d.Tame (e.brakeAxis n) := by
  unfold Dev.brakeAxis
  exact (h.wrS _ _ _).setAxis _ _

theorem homeFails (h : d.Tame e) (n : Nat) : d.Tame (e.homeFails n) := by
  unfold Dev.homeFails
  exact ((h.haltAxis _).markLost _).raise _ _ _

theorem softOne (h : d.Tame e) (k : Nat) : d.Tame (e.softOne k) := by
  unfold Dev.softOne
  exact ite ((h.setAxis _ _).wr _ _ _) (ite (((((h.setAxis _ _).wr _ _ _).brakeAxis _).setAxis _ _).setMotion _ _) (ite (ite (((h.setAxis _ _).wr _ _ _).homeFails _) ((((h.setAxis _ _).wr _ _ _).brakeAxis _).setAxis _ _)) (((h.setAxis _ _).wr _ _ _).brakeAxis _)))

theorem softStop (h : d.Tame e) (n : Nat) : d.Tame (e.softStop n) := by
  unfold Dev.softStop
  dsimp only
  split
  · exact ite (endCap (foldl h _ (fun _ _ h1 => h1.softOne _)) _ _) (foldl h _ (fun _ _ h1 => h1.softOne _))
  · exact foldl h _ (fun _ _ h1 => h1.softOne _)

theorem emitRun (h : d.Tame e) (n : Nat) (v : Nat) (lim : Nat) (up : Bool) : d.Tame (e.emitRun n v lim up) := by
  unfold Dev.emitRun
  exact (h.setAxis _ _).showVel _ _

theorem ramp (h : d.Tame e) (n : Nat) (s : Option Nat) : d.Tame (e.ramp n s).2 := by
  unfold Dev.ramp
  exact h.setAxis _ _

theorem moveDone (h : d.Tame e) (n : Nat) : d.Tame (e.moveDone n) := by
  unfold Dev.moveDone
  exact foldl h _ (fun _ _ h1 => (((((h1.standStill _).setAxis _ _).setMotion _ _).wr _ _ _).count _ _ _).raise _ _ _)

theorem homePhaseDone (h : d.Tame e) (n : Nat) : d.Tame (e.homePhaseDone n) := by
  unfold Dev.homePhaseDone
  exact ite (h.homeFails _) (ite (ite (h.motStop _ _ (fun _ h1 => h1) _) ((h.freshMove _ _).wr _ _ _)) ((h.freshMove _ _).wr _ _ _))

theorem runAxis (h : d.Tame e) (n : Nat) : d.Tame (e.runAxis n) := by
  unfold Dev.runAxis
  dsimp only
  split
  · exact ite h (ite (h.homePhaseDone _) (h.moveDone _))
  · exact ite (h.emitRun _ _ _ _) ((h.ramp _ _).emitRun _ _ _ _)

theorem motAxisTick (h : d.Tame e) (n : Fin 4) : d.Tame (e.motAxisTick n) := by
  unfold Dev.motAxisTick
  exact ite (ite ((standStill (by
      split
      · exact ite (h.setAxis _ _) ((((h.setAxis _ _).setAxis _ _).wr _ _ _).request _ _ _ _ _)
      · exact h.setAxis _ _) _).showVel _ _) (by
      split
      · exact ite (h.setAxis _ _) ((((h.setAxis _ _).setAxis _ _).wr _ _ _).request _ _ _ _ _)
      · exact h.setAxis _ _)) (ite (ite (ite ((standStill (by
      split
      · exact ite (h.setAxis _ _) ((((h.setAxis _ _).setAxis _ _).wr _ _ _).request _ _ _ _ _)
      · exact h.setAxis _ _) _).showVel _ _) (by
      split
      · exact ite (h.setAxis _ _) ((((h.setAxis _ _).setAxis _ _).wr _ _ _).request _ _ _ _ _)
      · exact h.setAxis _ _)) (runAxis (ite ((standStill (by
      split
      · exact ite (h.setAxis _ _) ((((h.setAxis _ _).setAxis _ _).wr _ _ _).request _ _ _ _ _)
      · exact h.setAxis _ _) _).showVel _ _) (by
      split
      · exact ite (h.setAxis _ _) ((((h.setAxis _ _).setAxis _ _).wr _ _ _).request _ _ _ _ _)
      · exact h.setAxis _ _)) _)) (ite (runAxis (ite ((standStill (by
      split
      · exact ite (h.setAxis _ _) ((((h.setAxis _ _).setAxis _ _).wr _ _ _).request _ _ _ _ _)
      · exact h.setAxis _ _) _).showVel _ _) (by
      split
      · exact ite (h.setAxis _ _) ((((h.setAxis _ _).setAxis _ _).wr _ _ _).request _ _ _ _ _)
      · exact h.setAxis _ _)) _) (ite ((standStill (by
      split
      · exact ite (h.setAxis _ _) ((((h.setAxis _ _).setAxis _ _).wr _ _ _).request _ _ _ _ _)
      · exact h.setAxis _ _) _).showVel _ _) (by
      split
      · exact ite (h.setAxis _ _) ((((h.setAxis _ _).setAxis _ _).wr _ _ _).request _ _ _ _ _)
      · exact h.setAxis _ _))))

theorem capIssue (h : d.Tame e) (step : Nat) : d.Tame (e.capIssue step) := by
  unfold Dev.capIssue
  dsimp only
  split
  · exact ite (ite (h.request _ _ _ _ _) h) (ite (request (ite (h.request _ _ _ _ _) h) _ _ _ _ _) (ite (h.request _ _ _ _ _) h))
  · exact ite h (h.request _ _ _ _ _)
  · exact (h.request _ _ _ _ _).request _ _ _ _ _
  · exact h.request _ _ _ _ _
  · exact (h.request _ _ _ _ _).request _ _ _ _ _

theorem capTick (h : d.Tame e) : d.Tame (e.capTick) := by
  unfold Dev.capTick
  split
  · exact h
  · exact ite h (ite (h.endCap _ _) (ite h.update (ite (endCap (foldl h _ (fun _ _ h1 => h1.raise _ _ _)) _ _) (h.update.capIssue _))))

theorem capStart (h : d.Tame e) (port : Option (Fin 2)) : d.Tame (e.capStart port) := by
  unfold Dev.capStart
  exact ite h (ite (h.endCap _ _) ((h.wr _ _ _).update))

theorem motCheck (h : d.Tame e) (n : Fin 4) : d.Tame (e.motCheck n) := by
  unfold Dev.motCheck
  exact (h.setMotion _ _).setAxis _ _

theorem motTick (h : d.Tame e) : d.Tame (e.motTick) := by
  unfold Dev.motTick
  exact foldl h.capTick _ (fun _ _ h1 => h1.motAxisTick _)

theorem stepAxis (h : d.Tame e) (n : Nat) (t : Nat) (up : Bool) : d.Tame (e.stepAxis n t up) := by
  unfold Dev.stepAxis
  exact (h.wrS _ _ _).setAxis _ _

theorem loadStep (h : d.Tame e) (n : Nat) (load : Nat) : d.Tame (e.loadStep n load) := by
  unfold Dev.loadStep
  exact ite h (ite (h.setAxis _ _) (ite h ((h.wr _ _ _).setAxis _ _)))

theorem seekStep (h : d.Tame e) (n : Nat) : d.Tame (e.seekStep n) := by
  unfold Dev.seekStep
  exact ite (ite (((h.setAxis _ _).brakeAxis _).setAxis _ _) (h.setAxis _ _)) h

theorem microstep (h : d.Tame e) (n : Fin 4) (t : Nat) (load : Nat) : d.Tame (e.microstep n t load) := by
  unfold Dev.microstep
  dsimp only
  split
  · exact ite (h.loadStep _ _) h
  · exact ite h (ite (h.motStop _ _ (fun _ h1 => h1) _) (ite (h.motStop _ _ (fun _ h1 => h1) _) ((loadStep (ite (((h.setAxis _ _).stepAxis _ _ _).stepAxis _ _ _) ((h.setAxis _ _).stepAxis _ _ _)) _ _).seekStep _)))

theorem chop (h : d.Tame e) (n : Fin 4) (ph : Fin 2) : d.Tame (e.chop n ph) := by
  unfold Dev.chop
  exact ite h ((h.emit _).setAxis _ _)

theorem follow (h : d.Tame e) (n : Fin 4) (sign : Int) (t : Nat) (gap : Option Nat) : d.Tame (e.follow n sign t gap) := by
  unfold Dev.follow
  exact ite h (ite (((h.setAxis _ _).showVel _ _).motStop _ _ (fun _ h1 => h1) _) ((h.setAxis _ _).showVel _ _))

theorem latchHome (h : d.Tame e) (n : Nat) (t : Nat) : d.Tame (e.latchHome n t) := by
  unfold Dev.latchHome
  exact (((((((h.wrS _ _ _).standStill _).setAxis _ _).wr _ _ _).wr _ _ _).wr _ _ _).wr _ _ _).wr _ _ _

theorem homeDone (h : d.Tame e) (n : Nat) : d.Tame (e.homeDone n) := by
  unfold Dev.homeDone
  exact ite (ite (((h.setMotion _ _).setMotion _ _).raise _ _ _) h) ((h.setMotion _ _).raise _ _ _)

theorem homeEdge (h : d.Tame e) (n : Nat) (active : Bool) (t : Nat) : d.Tame (e.homeEdge n active t) := by
  unfold Dev.homeEdge
  exact ite h (ite ((h.brakeAxis _).setAxis _ _) (ite (h.setAxis _ _) (ite ((h.latchHome _ _).homeDone _) h)))

theorem switchChange (h : d.Tame e) (n : Fin 4) (isEnd : Bool) (level : Bool) (t : Nat) : d.Tame (e.switchChange n isEnd level t) := by
  unfold Dev.switchChange
  exact ite h (ite (h.wrB _ _ _) (ite (ite (ite (((h.wrB _ _ _).raise _ _ _).motStop _ _ (fun _ h1 => h1) _) (h.wrB _ _ _)) ((h.wrB _ _ _).homeEdge _ _ _)) (ite ((h.wrB _ _ _).motStop _ _ (fun _ h1 => h1) _) (ite ((h.wrB _ _ _).motStop _ _ (fun _ h1 => h1) _) (h.wrB _ _ _)))))

theorem wMove (h : d.Tame e) (n : Fin 4) (val : Nat) (mask : Nat) : d.Tame (e.wMove n val mask) := by
  unfold Dev.wMove
  exact ite ((h.store _ _ _ _).motStopOn _ _ (fun _ h1 => h1)) (ite (request (ite (request (ite ((h.store _ _ _ _).softStop _) (h.store _ _ _ _)) _ _ _ _ _) (ite ((h.store _ _ _ _).softStop _) (h.store _ _ _ _))) _ _ _ _ _) (ite (request (ite ((h.store _ _ _ _).softStop _) (h.store _ _ _ _)) _ _ _ _ _) (ite ((h.store _ _ _ _).softStop _) (h.store _ _ _ _))))

theorem wCap (h : d.Tame e) (m : Sys2Proof.Master) (val : Nat) (mask : Nat) : d.Tame (e.wCap m val mask) := by
  unfold Dev.wCap
  exact ite h (ite (h.endCap _ _) (h.capStart _))

theorem setSrv (h : d.Tame e) (a : Nat) (f : SrvAxis → SrvAxis) : d.Tame (e.setSrv a f) :=
  h.update (hsrv := List.length_modify ..)

theorem showSrv (h : d.Tame e) (a : Nat) : d.Tame (e.showSrv a) := by
  unfold Dev.showSrv
  exact ((h.wrS _ _ _).wrS _ _ _).wr _ _ _

theorem showIq (h : d.Tame e) (a : Nat) : d.Tame (e.showIq a) := by
  unfold Dev.showIq
  exact h.wrS _ _ _

theorem advance (h : d.Tame e) (a : Nat) (dy : Int) : d.Tame (e.advance a dy).2 := by
  unfold Dev.advance
  exact ite_snd h.freeNext h

theorem refreshAngle (h : d.Tame e) (a : Nat) : d.Tame (e.refreshAngle a) := by
  unfold Dev.refreshAngle
  dsimp only
  refine showSrv (setSrv ?_ _ _) _
  split
  · split
    · exact h.advance _ _
    · exact h.advance _ _
  · split
    · exact h
    · exact h.advance _ _

theorem setBridge (h : d.Tame e) (a : Fin 2) (b : Bridge) : d.Tame (e.setBridge a b) := by
  unfold Dev.setBridge
  dsimp only
  split
  · exact (h.setSrv _ _).emit _
  · exact (h.setSrv _ _).emit _
  · exact h.setSrv _ _

theorem srvStart (h : d.Tame e) (a : Fin 2) : d.Tame (e.srvStart a) := by
  unfold Dev.srvStart
  exact (((((h.setSrv _ _).setBridge _ _).wr _ _ _).wr _ _ _).refreshAngle _).showIq _

theorem srvAbort (h : d.Tame e) (a : Fin 2) : d.Tame (e.srvAbort a) := by
  unfold Dev.srvAbort
  exact ite ((((h.setBridge _ _).setFunc _ _).setFunc _ _).srvStart _) ((h.setBridge _ _).setFunc _ _)

theorem servoFault (h : d.Tame e) (a : Fin 2) (cause : Nat) : d.Tame (e.servoFault a cause) := by
  unfold Dev.servoFault
  exact ite h (ite ((((((wr (ite (((h.setBridge _ _).setSrv _ _).wr _ _ _) ((h.setBridge _ _).setSrv _ _)) _ _ _).wr _ _ _).count _ _ _).raise _ _ _).showSrv _).showIq _) (((((((wr (ite (((h.setBridge _ _).setSrv _ _).wr _ _ _) ((h.setBridge _ _).setSrv _ _)) _ _ _).wr _ _ _).count _ _ _).raise _ _ _).showSrv _).showIq _).srvAbort _))

theorem feedFault (h : d.Tame e) (n : Fin 4) : d.Tame (e.feedFault n) := by
  unfold Dev.feedFault
  exact foldl h _ (fun _ _ h1 => ite (h1.setSrv _ _) h1)

theorem lateCount (h : d.Tame e) (n : Fin 4) (t : Nat) : d.Tame (e.lateCount n t) := by
  unfold Dev.lateCount
  exact ite (foldl h _ (fun _ _ h1 => ite ((h1.setSrv _ _).refreshAngle _) h1)) h

theorem takeNotch (h : d.Tame e) (a : Nat) : d.Tame (e.takeNotch a) := by
  unfold Dev.takeNotch
  exact ite ((h.wr _ _ _).setSrv _ _) h

theorem checkMoved (h : d.Tame e) (a : Nat) : d.Tame (e.checkMoved a) := by
  unfold Dev.checkMoved
  exact h.setSrv _ _

theorem srvTick (h : d.Tame e) (a : Fin 2) : d.Tame (e.srvTick a) := by
  unfold Dev.srvTick
  exact ite (((h.takeNotch _).setSrv _ _).wr _ _ _) (by
      dsimp only
      split
      · exact ((((((h.takeNotch _).setSrv _ _).wr _ _ _).setSrv _ _).setSrv _ _).checkMoved _).refreshAngle _
      · exact ((((h.takeNotch _).setSrv _ _).wr _ _ _).setSrv _ _).setSrv _ _)

theorem servoTick (h : d.Tame e) : d.Tame (e.servoTick) := by
  unfold Dev.servoTick
  exact ite h (foldl h.motTick.update.update _ (fun _ _ h1 => h1.srvTick _))

theorem missingSample (h : d.Tame e) (a : Fin 2) : d.Tame (e.missingSample a) := by
  unfold Dev.missingSample
  exact ((h.count _ _ _).setSrv _ _).refreshAngle _

theorem absFrame (h : d.Tame e) (a : Fin 2) (fr : Sys2Proof.AbsFrame) : d.Tame (e.absFrame a fr) := by
  unfold Dev.absFrame
  exact ite h (ite (h.missingSample _) ((checkMoved (ite (raise (ite ((setSrv (by
      split
      · exact h.setSrv _ _
      · exact (h.setSrv _ _).wr _ _ _) _ _).count _ _ _) (setSrv (by
      split
      · exact h.setSrv _ _
      · exact (h.setSrv _ _).wr _ _ _) _ _)) _ _ _) (ite ((setSrv (by
      split
      · exact h.setSrv _ _
      · exact (h.setSrv _ _).wr _ _ _) _ _).count _ _ _) (setSrv (by
      split
      · exact h.setSrv _ _
      · exact (h.setSrv _ _).wr _ _ _) _ _))) _).refreshAngle _))

theorem hallIllegal (h : d.Tame e) (a : Fin 2) (t : Nat) : d.Tame (e.hallIllegal a t) := by
  unfold Dev.hallIllegal
  exact ite (((h.count _ _ _).setSrv _ _).servoFault _ _) ((h.count _ _ _).setSrv _ _)

theorem hallLegal (h : d.Tame e) (a : Fin 2) (old : Nat) (new : Nat) : d.Tame (e.hallLegal a old new) := by
  unfold Dev.hallLegal
  exact (setSrv (by
      dsimp only
      split
      · exact h.advance _ _
      · exact h) _ _).refreshAngle _

theorem hallChange (h : d.Tame e) (h' : Fin 2) (code : Nat) (t : Nat) : d.Tame (e.hallChange h' code t) := by
  unfold Dev.hallChange
  exact foldl h _ (fun _ _ h1 => ite (by
      split
      · exact h1.hallIllegal _ _
      · exact h1.setSrv _ _
      · exact ite h1 (ite (h1.hallLegal _ _ _) (h1.hallIllegal _ _))) h1)

theorem srvMove (h : d.Tame e) (a : Nat) (t : Int) (motion : Nat) : d.Tame (e.srvMove a t motion) := by
  unfold Dev.srvMove
  exact (h.setSrv _ _).wr _ _ _

theorem srvArrived (h : d.Tame e) (a : Nat) : d.Tame (e.srvArrived a) := by
  unfold Dev.srvArrived
  exact ite ((h.setSrv _ _).raise _ _ _) h

theorem effective (h : d.Tame e) (a : Nat) : d.Tame (e.effective a).2 := by
  unfold Dev.effective
  exact ite_snd (h.setSrv _ _) (setSrv (ite h (h.raise _ _ _)) _ _)

theorem generator (h : d.Tame e) (a : Fin 2) : d.Tame (e.generator a) := by
  unfold Dev.generator
  exact ite (h.setSrv _ _) (ite (h.setSrv _ _) (ite (srvArrived (ite ((h.effective _).srvMove _ _ _) (h.effective _)) _) (ite (((setSrv (ite ((h.effective _).srvMove _ _ _) (h.effective _)) _ _).wr _ _ _).srvArrived _) (setSrv (ite ((h.effective _).srvMove _ _ _) (h.effective _)) _ _))))

theorem notchStage (h : d.Tame e) (a : Nat) (k : Nat) (g : Signal2) : d.Tame (e.notchStage a k g).2 := by
  unfold Dev.notchStage
  exact h.setSrv _ _

theorem controller (h : d.Tame e) (a : Nat) (r : Int) : d.Tame (e.controller a r).2 := by
  unfold Dev.controller
  exact (h.setSrv _ _).wrS _ _ _

theorem srvStage (a : Nat) (r : Signal2 × Dev) (code : Nat) (h : d.Tame r.2) : d.Tame (Dev.srvStage a r code).2 := by
  unfold Dev.srvStage
  dsimp only
  split
  · exact h.controller _ _
  · exact h.notchStage _ _ _
  · exact h.notchStage _ _ _
  · exact h
  · exact h

theorem srvLoop (h : d.Tame e) (a : Fin 2) : d.Tame (e.srvLoop a) := by
  unfold Dev.srvLoop
  refine showSrv (setSrv ?_ _ _) _
  exact foldl_snd (h.generator a) _ fun r c h1 => srvStage _ r c h1

theorem targetHere (h : d.Tame e) (a : Nat) : d.Tame (e.targetHere a) := by
  unfold Dev.targetHere
  exact (h.wrS _ _ _).setSrv _ _

theorem referenced (h : d.Tame e) (a : Fin 2) (n : Fin 4) (stamp : Nat) (total : Int) : d.Tame (e.referenced a n stamp total) := by
  unfold Dev.referenced
  exact (((((h.setSrv _ _).setQuad _ _).wr _ _ _).wr _ _ _).targetHere _).raise _ _ _

theorem takeIndex (h : d.Tame e) (n : Fin 4) : d.Tame (e.takeIndex n) := by
  unfold Dev.takeIndex
  split
  · exact foldl h _ (fun _ _ h1 => ite (h1.referenced _ _ _ _) h1)
  · exact h

theorem clearFault (h : d.Tame e) (a : Fin 2) : d.Tame (e.clearFault a) := by
  unfold Dev.clearFault
  exact (((h.setSrv _ _).wr _ _ _).targetHere _).setBridge _ _

theorem takeClear (h : d.Tame e) (a : Fin 2) : d.Tame (e.takeClear a) := by
  unfold Dev.takeClear
  exact ite h (ite (h.setSrv _ _) (ite ((h.setBridge _ _).setSrv _ _) (h.clearFault _)))

theorem plausible (h : d.Tame e) (a : Fin 2) (qPrev : Int) : d.Tame (e.plausible a qPrev) := by
  unfold Dev.plausible
  exact h.setSrv _ _

theorem srvStages (h : d.Tame e) (a : Fin 2) : d.Tame (e.srvStages a) := by
  unfold Dev.srvStages
  dsimp only
  refine ite (ite (h.missingSample a) h) (ite h ?_)
  have hc := (ite (c := (e.sAxis a).asked) (h.missingSample a) h).takeClear a
  generalize (if (e.sAxis a).asked then e.missingSample a else e).takeClear a = f at hc ⊢
  have hp := (ite (c := f.srvMotion a = 3 ∨ f.srvState a = .starting) hc (hc.srvLoop a)).plausible a (f.sAxis a).q
  generalize (if f.srvMotion a = 3 ∨ f.srvState a = .starting then f else f.srvLoop a).plausible a _ = g at hp ⊢
  split
  · exact (hp.setSrv _ _).servoFault _ _
  · exact hp.setSrv _ _

theorem pwmCentre (h : d.Tame e) (a : Fin 2) (iu : Int) (iv : Int) (iw : Int) : d.Tame (e.pwmCentre a iu iv iw) := by
  unfold Dev.pwmCentre
  exact ite (ite ((h.setSrv _ _).servoFault _ _) (h.setSrv _ _)) (ite (((((h.setSrv _ _).emit _).setSrv _ _).showIq _).servoFault _ _) (((((h.setSrv _ _).emit _).setSrv _ _).showIq _).setSrv _ _))

theorem srvOn (h : d.Tame e) (a : Fin 2) : d.Tame (e.srvOn a) := by
  unfold Dev.srvOn
  exact ((((h.setSrv _ _).wr _ _ _).wrS _ _ _).setSrv _ _).showSrv _

theorem srvOff (h : d.Tame e) (a : Fin 2) : d.Tame (e.srvOff a) := by
  unfold Dev.srvOff
  exact ((h.setBridge _ _).setSrv _ _).showIq _

theorem srvCheck (h : d.Tame e) (a : Fin 2) : d.Tame (e.srvCheck a) := by
  unfold Dev.srvCheck
  exact setSrv (ite (h.srvOff _) h) _ _

theorem wSvCtrl (h : d.Tame e) (a : Fin 2) (val : Nat) (mask : Nat) : d.Tame (e.wSvCtrl a val mask) := by
  unfold Dev.wSvCtrl
  exact ite (wr (ite (setSrv (by
      split
      · exact ite ((((h.wr _ _ _).setQuad _ _).setSrv _ _).srvMove _ _ _) h
      · exact h) _ _) (by
      split
      · exact ite ((((h.wr _ _ _).setQuad _ _).setSrv _ _).srvMove _ _ _) h
      · exact h)) _ _ _) (ite (setSrv (by
      split
      · exact ite ((((h.wr _ _ _).setQuad _ _).setSrv _ _).srvMove _ _ _) h
      · exact h) _ _) (by
      split
      · exact ite ((((h.wr _ _ _).setQuad _ _).setSrv _ _).srvMove _ _ _) h
      · exact h))

theorem wSvTarget (h : d.Tame e) (a : Fin 2) (val : Nat) (mask : Nat) : d.Tame (e.wSvTarget a val mask) := by
  unfold Dev.wSvTarget
  exact (h.store _ _ _ _).setSrv _ _

theorem showRec (h : d.Tame e) (k : Nat) (r : TrimRec) : d.Tame (e.showRec k r) := by
  unfold Dev.showRec
  exact (((h.wr _ _ _).wrS _ _ _).wr _ _ _).wr _ _ _

theorem loadTrim (h : d.Tame e) : d.Tame (e.loadTrim) := by
  unfold Dev.loadTrim
  exact foldl (foldl (h.wrB _ _ _) _ (fun _ _ h1 => h1.showRec _ _)) _ (fun _ _ h1 => h1.wr _ _ _)

theorem setStore (h : d.Tame e) (f : Fuse) : d.Tame { e with trm.store := f } := h.update

theorem cutTrim (h : d.Tame e) : d.Tame (e.cutTrim) := by
  unfold Dev.cutTrim
  split
  · exact (h.cutFuse storeBytesN).setStore _
  · exact h

theorem loseChannel (h : d.Tame e) (k : Nat) : d.Tame (e.loseChannel k) := by
  unfold Dev.loseChannel
  split
  · exact ite (ite ((((h.update.wr _ _ _).wrS _ _ _).raise _ _ _).motStop _ _ (fun _ h1 => h1) _) (((h.update.wr _ _ _).wrS _ _ _).raise _ _ _)) (setFunc (ite ((((h.update.wr _ _ _).wrS _ _ _).raise _ _ _).motStop _ _ (fun _ h1 => h1) _) (((h.update.wr _ _ _).wrS _ _ _).raise _ _ _)) _ _)
  · exact (by
      split
      · exact ite (ite ((((h.update.wr _ _ _).wrS _ _ _).raise _ _ _).srvOff _) (((h.update.wr _ _ _).wrS _ _ _).raise _ _ _)) (setFunc (ite ((((h.update.wr _ _ _).wrS _ _ _).raise _ _ _).srvOff _) (((h.update.wr _ _ _).wrS _ _ _).raise _ _ _)) _ _)
      · exact ((h.update.wr _ _ _).wrS _ _ _).raise _ _ _)

theorem trimEnd (h : d.Tame e) (port : Option (Fin 2)) (result : Nat) (failed : Nat) : d.Tame (e.trimEnd port result failed) := by
  unfold Dev.trimEnd
  exact (h.wr _ _ _).raise _ _ _

theorem checkOver (h : d.Tame e) : d.Tame (e.checkOver) := by
  unfold Dev.checkOver
  dsimp only
  split
  · exact ite h.update (ite h.update.update (((h.update.wr _ _ _).update).trimEnd _ _ _))
  · exact h.update

theorem spareFor (h : d.Tame e) (k : Nat) (x : Nat) : d.Tame (e.spareFor k x) := by
  unfold Dev.spareFor
  exact ((wr (by
      split
      · exact ite h.checkOver h
      · exact h) _ _ _).wr _ _ _).raise _ _ _

theorem failChannel (h : d.Tame e) (k : Nat) (standIn : Option Nat) : d.Tame (e.failChannel k standIn) := by
  unfold Dev.failChannel
  split
  · exact h.spareFor _ _
  · exact h.loseChannel _

theorem dropSpare (h : d.Tame e) (x : Nat) : d.Tame (e.dropSpare x) := by
  unfold Dev.dropSpare
  exact ite h.update (((h.update.wr _ _ _).wr _ _ _).failChannel _ _)

theorem checkChannels (h : d.Tame e) (readings : List Int) : d.Tame (e.checkChannels readings) := by
  unfold Dev.checkChannels
  exact foldl (foldl (foldl ((h.wr _ _ _).wr _ _ _) _ (fun _ _ h1 => h1.wr _ _ _)) _ (fun _ _ h1 => ite (h1.dropSpare _) h1)) _ (fun _ _ h1 => ite (h1.failChannel _ _) h1)

theorem wTrim (h : d.Tame e) (m : Sys2Proof.Master) (val : Nat) (mask : Nat) : d.Tame (e.wTrim m val mask) := by
  unfold Dev.wTrim
  exact ite h (ite (h.store _ _ _ _) (ite ((h.store _ _ _ _).trimEnd _ _ _) (ite ((h.store _ _ _ _).trimEnd _ _ _) (((h.store _ _ _ _).wr _ _ _).update))))

theorem trimRec (h : d.Tame e) (rLo rHi sLo sHi : Int) : d.Tame (e.trimRec rLo rHi sLo sHi).2 := by
  unfold Dev.trimRec
  exact ((h.freeOr _ _ _).freeOr _ _ _)

theorem setTrim (h : d.Tame e) (t : Option TrimRun) : d.Tame { e with trm.trim := t } := h.update

theorem trimMeasured (h : d.Tame e) (rLo rHi sLo sHi : Int) : d.Tame (e.trimMeasured rLo rHi sLo sHi) := by
  unfold Dev.trimMeasured
  split
  · refine ite h (ite ?_ ((h.trimRec rLo rHi sLo sHi).setTrim _))
    exact ((h.wr _ _ _).setTrim _).trimEnd _ _ _
  · exact h

theorem trimProgrammed (h : d.Tame e) : d.Tame (e.trimProgrammed) := by
  unfold Dev.trimProgrammed
  split
  · exact (h.update.loadTrim.wr _ _ _).trimEnd _ _ _
  · exact h

theorem beginCheck (h : d.Tame e) : d.Tame (e.beginCheck) := by
  unfold Dev.beginCheck
  exact ite h (by
      split
      · exact h.update
      · exact h)

theorem endCheck (h : d.Tame e) (reading : Int) : d.Tame (e.endCheck reading) := by
  unfold Dev.endCheck
  split
  · exact h
  · exact ite (h.checkOver.failChannel _ _) h.checkOver

theorem startBegins (h : d.Tame e) (f : Sys2Proof.Func) : d.Tame (e.startBegins f) := by
  unfold Dev.startBegins
  split
  · exact h.srvStart _
  · exact h

theorem startEnds (h : d.Tame e) (f : Sys2Proof.Func) : d.Tame (e.startEnds f) := by
  unfold Dev.startEnds
  split
  · exact h.startDecode
  · exact foldl h _ (fun _ _ h1 => h1.wr _ _ _)
  · exact h.setQuad _ _
  · exact h.update
  · exact h
  · exact h.camStarts _
  · exact h.nzhStarts
  · exact (h.setMotion _ _).setAxis _ _
  · exact h.srvOn _

theorem stopBegins (h : d.Tame e) (f : Sys2Proof.Func) : d.Tame (e.stopBegins f) := by
  unfold Dev.stopBegins
  split
  · exact h.stopDecode
  · exact foldl h _ (fun _ _ h1 => h1.stopEncode _)
  · exact setPtp (ite (h.endUpload _ _) h) _ _
  · exact h.camLeaves _
  · exact h.nzhStops
  · exact h.motStop _ _ (fun _ h1 => h1) _
  · exact h

theorem stopEnds (h : d.Tame e) (f : Sys2Proof.Func) : d.Tame (e.stopEnds f) := by
  unfold Dev.stopEnds
  split
  · exact h.camStopped _
  · exact h.srvOff _
  · exact h

theorem beginTransition (h : d.Tame e) (f : Sys2Proof.Func) (on : Bool) : d.Tame (e.beginTransition f on) := by
  unfold Dev.beginTransition
  exact ite ((h.setFunc _ _).startBegins _) ((h.setFunc _ _).stopBegins _)

theorem enableReq (h : d.Tame e) (f : Sys2Proof.Func) (on : Bool) : d.Tame (e.enableReq f on) := by
  unfold Dev.enableReq
  exact ite (h.wrB _ _ _) (by
      dsimp only
      split
      · exact h.wrB _ _ _
      · exact ite ((h.wrB _ _ _).beginTransition _ _) (h.wrB _ _ _)
      · exact ite (h.wrB _ _ _) ((h.wrB _ _ _).beginTransition _ _)
      · exact (h.wrB _ _ _).setFunc _ _
      · exact (h.wrB _ _ _).setFunc _ _)

theorem transitionDone (h : d.Tame e) (f : Sys2Proof.Func) : d.Tame (e.transitionDone f) := by
  unfold Dev.transitionDone
  exact ite h (by
      dsimp only
      split
      · exact ite (((h.setFunc _ _).startEnds _).beginTransition _ _) ((h.setFunc _ _).startEnds _)
      · exact ite (((h.setFunc _ _).stopEnds _).beginTransition _ _) ((h.setFunc _ _).stopEnds _)
      · exact h)

theorem wedge (h : d.Tame e) (f : Sys2Proof.Func) : d.Tame (e.wedge f) := by
  unfold Dev.wedge
  exact ite h ((update (by
      split
      · exact ((h.setFunc _ _).setBridge _ _).setSrv _ _
      · exact (h.setFunc _ _).setAxis _ _
      · exact (h.setFunc _ _).wrS _ _ _
      · exact h.setFunc _ _)).raise _ _ _)

theorem beginAxisCheck (h : d.Tame e) (f : Sys2Proof.Func) : d.Tame (e.beginAxisCheck f) := by
  unfold Dev.beginAxisCheck
  exact ite h (setFunc (by
      split
      · exact h.motCheck _
      · exact h.srvCheck _
      · exact h) _ _)

theorem endAxisCheck (h : d.Tame e) (f : Sys2Proof.Func) : d.Tame (e.endAxisCheck f) := by
  unfold Dev.endAxisCheck
  exact ite h (ite ((setFunc (by
      split
      · exact (h.setMotion _ _).setAxis _ _
      · exact setSrv (ite (h.srvOff _) h) _ _
      · exact h) _ _).beginTransition _ _) (setFunc (by
      split
      · exact (h.setMotion _ _).setAxis _ _
      · exact setSrv (ite (h.srvOff _) h) _ _
      · exact h) _ _))

theorem wEnable (h : d.Tame e) (f : Sys2Proof.Func) (val : Nat) (mask : Nat) : d.Tame (e.wEnable f val mask) := by
  unfold Dev.wEnable
  exact ite (((h.store _ _ _ _).wr _ _ _).enableReq _ _) ((h.store _ _ _ _).wr _ _ _)

theorem wCdCtrl (h : d.Tame e) (val : Nat) (mask : Nat) : d.Tame (e.wCdCtrl val mask) := by
  unfold Dev.wCdCtrl
  exact ite (enableReq (ite ((((h.store _ _ _ _).wr _ _ _).wr _ _ _).enableReq _ _) (((h.store _ _ _ _).wr _ _ _).wr _ _ _)) _ _) (ite ((((h.store _ _ _ _).wr _ _ _).wr _ _ _).enableReq _ _) (((h.store _ _ _ _).wr _ _ _).wr _ _ _))

theorem wEthCfg (h : d.Tame e) (e' : Fin 2) (val : Nat) (mask : Nat) : d.Tame (e.wEthCfg e' val mask) := by
  unfold Dev.wEthCfg
  exact ite ((h.wEnable _ _ _).wr _ _ _) (h.wEnable _ _ _)

theorem wCamCfg (h : d.Tame e) (c : Fin 8) (val : Nat) (mask : Nat) : d.Tame (e.wCamCfg c val mask) := by
  unfold Dev.wCamCfg
  exact (h.wEnable _ _ _).checkCapture _

theorem wMotCfg (h : d.Tame e) (n : Fin 4) (val : Nat) (mask : Nat) : d.Tame (e.wMotCfg n val mask) := by
  unfold Dev.wMotCfg
  exact ite (ite ((h.wEnable _ _ _).wr _ _ _) (h.wEnable _ _ _)) (wrB (ite ((h.wEnable _ _ _).wr _ _ _) (h.wEnable _ _ _)) _ _ _)

theorem wSaveBase (h : d.Tame e) (val : Nat) (mask : Nat) : d.Tame (e.wSaveBase val mask) := by
  unfold Dev.wSaveBase
  exact ite (h.store _ _ _ _) ((h.store _ _ _ _).wrB _ _ _)

theorem saveCounters (h : d.Tame e) : d.Tame (e.saveCounters) := by
  unfold Dev.saveCounters
  refine ite h ?_
  split
  · exact h
  · exact h.worldViolation _ _
  · refine foldl ?_ _ fun _ g h1 => h1.moveGranule _ _
    exact {
      inv := fun hd => { h.inv hd with
        mem := Memory.wf_append (Memory.wf_filter _ (h.inv hd).mem) (saveCells_wf e) (Memory.wf_filter _ (h.inv hd).mem)
          (lo := e.saveBase) (hi := e.saveBase + 2 ^ 20)
          (fun x hx => by simpa using (List.mem_filter.mp hx).2) (fun x hx => ⟨(saveCells_mem hx).1, (saveCells_mem hx).2.1⟩)
          (fun x hx => by simpa using (List.mem_filter.mp hx).2) (Nat.le_add_right _ _) }
      fuses := h.fuses
      reset := h.reset }

theorem reloadCount (h : d.Tame e) (c : Prop) [Decidable c] (x top nz : Nat) :
    d.Tame (match (if c then e.free top else (x, e)) with
      | (v, d) => if v = 0 then d else d.wr F.HL_ACT_COUNT nz v) := by
  by_cases hc : c
  · rw [if_pos hc]
    exact ite h.freeNext (h.freeNext.wr _ _ _)
  · rw [if_neg hc]
    exact ite h (h.wr _ _ _)

theorem reloadCounters (h : d.Tame e) : d.Tame (e.reloadCounters) := by
  unfold Dev.reloadCounters
  refine ite h ?_
  generalize e.saveBase = base
  generalize 2 ^ 20 = size
  generalize List.range 131072 = ks
  generalize e.checkDram (e.masterSecure 16) base size = c
  refine check h (h.worldViolation _ _) ?_
  generalize granules base size = gs
  split
  next hp =>
    have hf := of_eq (by exact foldl_snd h _ fun _ _ h1 => h1.takeGranule _ _ _) hp
    refine foldl hf ks fun e nz h1 => ?_
    generalize e.saveBase = base
    exact h1.reloadCount _ _ _ _

theorem setBind (h : d.Tame e) (f : BindOff → BindOff) : d.Tame (e.setBind f) := by
  unfold Dev.setBind
  exact h.update

theorem bindFlush (h : d.Tame e) : d.Tame (e.bindFlush) := by
  unfold Dev.bindFlush
  exact ite ((saveUsage (ite (usagePeriod (ite ((h.setBind _).saveCounters) (h.setBind _))) (ite ((h.setBind _).saveCounters) (h.setBind _)))).saveTime) (ite (usagePeriod (ite ((h.setBind _).saveCounters) (h.setBind _))) (ite ((h.setBind _).saveCounters) (h.setBind _)))

theorem bindCap (h : d.Tame e) : d.Tame (e.bindCap) := by
  unfold Dev.bindCap
  exact ite h.bindFlush ((h.setBind _).capStart _)

theorem startBindOff (h : d.Tame e) : d.Tame (e.startBindOff) := by
  unfold Dev.startBindOff
  exact (h.setBind _).wr _ _ _

theorem wBindOff (h : d.Tame e) (val : Nat) : d.Tame (e.wBindOff val) := by
  unfold Dev.wBindOff
  exact ite h (ite h.update h.update.startBindOff)

theorem idleLinks (h : d.Tame e) : d.Tame (e.idleLinks) := by
  unfold Dev.idleLinks
  exact foldl h _ (fun _ _ h1 => ite (h1.takeDown _) h1)

theorem dramState (h : d.Tame e) (n : Nat) : d.Tame (e.dramState n) := by
  unfold Dev.dramState
  exact (h.wr _ _ _).wr _ _ _

theorem bindStepDone (h : d.Tame e) : d.Tame (e.bindStepDone) := by
  unfold Dev.bindStepDone
  split
  · exact h
  · exact ite h (by
      split
      · exact ite h.bindCap h
      · exact ite h (bindFlush (ite h (h.raise _ _ _)))
      · exact h.setBind _
      · exact setBind (ite (h.dramState _) h) _
      · exact ((h.idleLinks.setBind _).raise _ _ _).wr _ _ _
      · exact h)

theorem bindCapTimeout (h : d.Tame e) : d.Tame (e.bindCapTimeout) := by
  unfold Dev.bindCapTimeout
  split
  · exact ite ((h.raise _ _ _).bindFlush) h
  · exact h

theorem haltCastOn (h : d.Tame e) : d.Tame (e.haltCastOn) := by
  unfold Dev.haltCastOn
  exact ite ((h.update.wr _ _ _).startBindOff) (h.update.wr _ _ _)

theorem orderReset (h : d.Tame e) (step : Nat) : d.Tame (e.orderReset step) := by
  unfold Dev.orderReset
  exact h.update

theorem castFail (h : d.Tame e) (step : Nat) (x : CastFault) : d.Tame (e.castFail step x) := by
  unfold Dev.castFail
  dsimp only
  split
  · exact (h.setLog _).haltCastOn
  · exact ite ((h.setLog _).orderReset _) (by
      split
      · exact (h.setLog _).orderReset _
      · exact ite ((h.setLog _).haltCastOn) ((h.setLog _).orderReset _)
      · exact (h.setLog _).haltCastOn)

theorem wClog (h : d.Tame e) (val : Nat) : d.Tame (e.wClog val) := by
  unfold Dev.wClog
  exact ite h.update h

theorem patState (h : d.Tame e) (n : Nat) : d.Tame (e.patState n) := by
  unfold Dev.patState
  exact h.wr _ _ _

theorem startPattern (h : d.Tame e) : d.Tame (e.startPattern) := by
  unfold Dev.startPattern
  exact (h.update.wr _ _ _).patState _

theorem loadPattern (h : d.Tame e) : d.Tame (e.loadPattern) := by
  unfold Dev.loadPattern
  exact foldl (foldl (foldl (foldl (((((((h.wr _ _ _).wr _ _ _).wrB _ _ _).wr _ _ _).wr _ _ _).wr _ _ _).wr _ _ _) _ (fun _ _ h1 => ite (h1.wrB _ _ _) ((((h1.wrB _ _ _).wr _ _ _).wrB _ _ _).wr _ _ _))) _ (fun _ _ h1 => ((((h1.wr _ _ _).wr _ _ _).wr _ _ _).wr _ _ _).wr _ _ _)) _ (fun _ _ h1 => h1.wrB _ _ _)) _ (fun _ _ h1 => h1.wrB _ _ _)

theorem loadArbiter (h : d.Tame e) : d.Tame (e.loadArbiter) := by
  unfold Dev.loadArbiter
  exact foldl (((h.wr _ _ _).wr _ _ _).wr _ _ _) _ (fun _ _ h1 => (h1.setReg _ _ _).setReg _ _ _)

theorem applyFull (h : d.Tame e) (p : Pattern) : d.Tame (e.applyFull p) := by
  unfold Dev.applyFull
  exact ((h.update.loadPattern.patState _).wr _ _ _).wr _ _ _

theorem sourceFails (h : d.Tame e) (err : Nat) (sec : Nat) : d.Tame (e.sourceFails err sec) := by
  unfold Dev.sourceFails
  exact ite ((((h.update.wr _ _ _).wr _ _ _).wr _ _ _).patState _) ((((h.update.wr _ _ _).wr _ _ _).patState _).castFail _ _)

theorem imageArrived (h : d.Tame e) (src : Sys2Proof.ImageSource) (complete : Bool) (img : List Sys2Proof.Byte) : d.Tame (e.imageArrived src complete img) := by
  unfold Dev.imageArrived
  exact ite h (ite h (ite (sourceFails (ite h h.update) _ _) (by
      split
      · exact sourceFails (ite h h.update) _ _
      · exact applyFull (ite h h.update) _)))

theorem repatternFails (h : d.Tame e) (err : Nat) (sec : Nat) : d.Tame (e.repatternFails err sec) := by
  unfold Dev.repatternFails
  exact ((((h.update.mapPages _).patState _).wr _ _ _).wr _ _ _).raise _ _ _

theorem wMboxCtrl (h : d.Tame e) (m : Sys2Proof.Master) (val : Nat) : d.Tame (e.wMboxCtrl m val) := by
  unfold Dev.wMboxCtrl
  exact ite (ite (ite (h.wrB _ _ _) (ite (h.update.patState _) h)) h) (by
      split
      · exact ite (sourceFails (ite (ite (h.wrB _ _ _) (ite (h.update.patState _) h)) h) _ _) (ite (ite (h.wrB _ _ _) (ite (h.update.patState _) h)) h)
      · exact ite (ite (ite (h.wrB _ _ _) (ite (h.update.patState _) h)) h) (ite (repatternFails (ite (ite (h.wrB _ _ _) (ite (h.update.patState _) h)) h) _ _) (sourceFails (ite (ite (h.wrB _ _ _) (ite (h.update.patState _) h)) h) _ _)))

theorem mboxTimeout (h : d.Tame e) : d.Tame (e.mboxTimeout) := by
  unfold Dev.mboxTimeout
  exact ite (h.sourceFails _ _) h

theorem wStaging (h : d.Tame e) (off : Nat) (len : Nat) (val : Nat) : d.Tame (e.wStaging off len val) := by
  unfold Dev.wStaging
  exact ite (h.wrB _ _ _) h.update

theorem wRepat (h : d.Tame e) (m : Sys2Proof.Master) (val : Nat) : d.Tame (e.wRepat m val) := by
  unfold Dev.wRepat
  exact ite h (ite (h.wrB _ _ _) (ite h (h.update.patState _)))

theorem repatternVerified (h : d.Tame e) : d.Tame (e.repatternVerified) := by
  unfold Dev.repatternVerified
  split
  · exact h
  · exact ite h (by
      dsimp only
      split
      · exact h.repatternFails _ _
      · exact ite (h.repatternFails _ _) (h.update.patState _))

theorem applyGauge (h : d.Tame e) (g : Gauge) : d.Tame (e.applyGauge g) := by
  unfold Dev.applyGauge
  exact ite ((h.update.newGauge.wr _ _ _).rewriteBank) (h.update.newGauge.wr _ _ _)

theorem applyInspect (h : d.Tame e) (s : InspectSec) : d.Tame (e.applyInspect s) := by
  unfold Dev.applyInspect
  exact foldl (((h.update.wr _ _ _).wr _ _ _).advanceGen _) _ (fun _ _ h1 => ite h1 ((h1.setFunc _ _).wrB _ _ _))

theorem repatternApply (h : d.Tame e) : d.Tame (e.repatternApply) := by
  unfold Dev.repatternApply
  split
  · exact h
  · exact ite h (ite (h.repatternFails _ _) ((((patState (by
      split
      · exact applyGauge (by
          split
          · exact (h.update.mapPages _).applyInspect _
          · exact h.update.mapPages _) _
      · exact (by
          split
          · exact (h.update.mapPages _).applyInspect _
          · exact h.update.mapPages _)) _).wr _ _ _).wr _ _ _).raise _ _ _))

theorem clearAttempts (h : d.Tame e) (step : Nat) : d.Tame (e.clearAttempts step) := by
  unfold Dev.clearAttempts
  exact ite h (h.setLog _)

theorem startTime (h : d.Tame e) : d.Tame (e.startTime) := by
  unfold Dev.startTime
  exact h.update

theorem startPorts (h : d.Tame e) : d.Tame (e.startPorts) := by
  unfold Dev.startPorts
  exact (update (foldl h _ (fun _ _ h1 => ite ((h1.wr _ _ _).enableReq _ _) h1))).manualMode

theorem startLinks (h : d.Tame e) : d.Tame (e.startLinks) := by
  unfold Dev.startLinks
  exact foldl h _ (fun _ _ h1 => ite h1 (ite (h1.takeDown _) (h1.wakeLink _ _ _ _)))

theorem startDram (h : d.Tame e) : d.Tame (e.startDram) := by
  unfold Dev.startDram
  exact ite (loadRepairs (foldl h _ (fun _ _ h1 => (h1.wr _ _ _).wr _ _ _))) ((loadRepairs (foldl h _ (fun _ _ h1 => (h1.wr _ _ _).wr _ _ _))).forgetMarks)

theorem startAxisChecks (h : d.Tame e) : d.Tame (e.startAxisChecks) := by
  unfold Dev.startAxisChecks
  exact foldl h.disableAll _ (fun _ _ h1 => h1.beginAxisCheck _)

theorem endAxisChecks (h : d.Tame e) : d.Tame (e.endAxisChecks) := by
  unfold Dev.endAxisChecks
  exact foldl h _ (fun _ _ h1 => h1.endAxisCheck _)

theorem stepBegins (h : d.Tame e) (step : Nat) : d.Tame (e.stepBegins step) := by
  unfold Dev.stepBegins
  split
  · exact h.loadFuses.loadTrim
  · exact h.startPattern
  · exact h.startDram
  · exact h.loadMarks
  · exact h.loadArbiter
  · exact h.serveHeld
  · exact h.startTime.startPorts
  · exact h.startLinks
  · exact foldl h _ (fun _ _ h1 => h1.startCheck _)
  · exact ((h.enableReq _ _).startWeb).update
  · exact h.startProbe
  · exact h.startAxisChecks
  · exact h

theorem beginStep (h : d.Tame e) (step fuel : Nat) : d.Tame (e.beginStep step fuel) := by
  induction fuel generalizing e step with
  | zero => exact h
  | succ fuel ih =>
    have hs := h.wr F.SYS_CASTON_STAT_STEP 0 step
    exact ite (ih (ite hs.startTime hs) _) (hs.stepBegins _)

theorem dropFailed (h : d.Tame e) (i : Sys2Proof.StepInfo) : d.Tame (e.dropFailed i) := by
  unfold Dev.dropFailed
  exact foldl h _ (fun _ _ h1 => ite (h1.dropClaim _ _) h1)

theorem checkAxes (h : d.Tame e) (i : Sys2Proof.StepInfo) : d.Tame (e.checkAxes i).2 := by
  unfold Dev.checkAxes
  dsimp only
  refine endAxisChecks (foldl ?_ _ fun _ n h1 => h1.wrB _ _ _)
  exact (ite (h.raise _ _ _) h).loadTrim.checkChannels _

theorem stepWork (h : d.Tame e) (step : Nat) (i : Sys2Proof.StepInfo) : d.Tame (e.stepWork step i).2 := by
  unfold Dev.stepWork
  split
  · exact h
  · exact ite ((h.readVault.setLog _).update) h.readVault
  · exact h
  · exact h.trainDram _
  · exact dramState (ite h h.fillDram) _
  · exact h
  · exact h.dropFailed _
  · exact h
  · exact h
  · exact ite_snd h (foldl h _ (fun _ _ h1 => h1.startTemp _))
  · exact h
  · exact h.endProbe
  · exact h.checkAxes _
  · exact h

theorem ready (h : d.Tame e) : d.Tame (e.ready) := by
  unfold Dev.ready
  refine opt (postOuts ?_) (fun d => d.startBindOff) fun _ h => h.startBindOff
  refine opt ?_ (fun d => d.raise .secure 0x0307 []) fun _ h => h.raise _ _ _
  refine optNot ?_ (fun d => d.raise .secure 0x0304 [(1, d.vlt.tamper)]) fun _ h => h.raise _ _ _
  refine optNot ?_ (fun d => d.raise .secure 0x0103 [(1, d.vlt.lost)]) fun _ h => h.raise _ _ _
  refine optNot (raise (wr (update ?_) _ _ _) _ _ _) (fun d => d.raise .secure 0x0102 [(8, d.reg R.SYS_CLOG_DIR 0)]) fun _ h => h.raise _ _ _
  exact opt h (fun d => d.reloadCounters) fun _ h => h.reloadCounters

theorem stepDone (h : d.Tame e) (i : Sys2Proof.StepInfo) : d.Tame (e.stepDone i) := by
  unfold Dev.stepDone
  exact ite h (ite h.ready (by
      split
      · next hp =>
        exact (h.stepWork _ _).of_eq hp
      · next hp =>
        exact ((h.stepWork _ _).of_eq hp).castFail _ _
      · next hp =>
        exact (((h.stepWork _ _).of_eq hp).clearAttempts _).beginStep _ _))

theorem stepLimit (h : d.Tame e) (i : Sys2Proof.StepInfo) : d.Tame (e.stepLimit i) := by
  unfold Dev.stepLimit
  exact ite h (ite h.ready (ite (h.sourceFails _ _) (castFail (ite (endProbe (ite (h.trainDram _) h)) (ite (endAxisChecks (ite (h.trainDram _) h)) (ite (dropFailed (ite (h.trainDram _) h) _) (ite (h.trainDram _) h)))) _ _)))

theorem loadTap (h : d.Tame e) (instr : Sys2Proof.TapInstr) (cells : List (Nat × Bool)) : d.Tame (e.loadTap instr cells) := by
  unfold Dev.loadTap
  dsimp only
  split
  · exact h.update.emit _
  · exact h.update.update

theorem acceptCue (h : d.Tame e) (stamp : Nat) (p : Page) : d.Tame (e.acceptCue stamp p) := by
  unfold Dev.acceptCue
  exact (((((((h.startPage _ _).showQueue).cueSwitches _ _).cueChanges _ _).settleSwitches).placeSwatch _ _ _).cueResumes _ _).cueHot _ _

theorem takeCue (h : d.Tame e) (stamp : Nat) : d.Tame (e.takeCue stamp) := by
  unfold Dev.takeCue
  dsimp only
  split
  · exact ite h (h.acceptCue _ _)
  · exact h.raise _ _ _

theorem updateErr (h : d.Tame e) : d.Tame (e.updateErr) := by
  unfold Dev.updateErr
  exact update (foldl h _ (fun _ _ h1 => h1.wrB _ _ _))

theorem countIdle (h : d.Tame e) : d.Tame (e.countIdle) := by
  unfold Dev.countIdle
  exact h.update

theorem endWork (h : d.Tame e) (k : Nat) : d.Tame (e.endWork k) := by
  unfold Dev.endWork
  exact ((((((((h.flipEpoch _).frontBoundary).abandon _).abandon _).flushTallies).failRate _).failRate _).dropDoomed).usageCommit

theorem closeBeat (h : d.Tame e) (k : Nat) : d.Tame (e.closeBeat k) := by
  unfold Dev.closeBeat
  exact ((((h.endWork _).commitAll).substApply).insBoundary).countIdle

theorem openBeat (h : d.Tame e) (t : Nat) (k : Nat) : d.Tame (e.openBeat t k) := by
  unfold Dev.openBeat
  exact (h.wr _ _ _).update

theorem prune (h : d.Tame e) : d.Tame e.prune :=
  h.update (hwin := List.length_map ..)

theorem headsBoundary (h : d.Tame e) : d.Tame (e.headsBoundary) := by
  unfold Dev.headsBoundary
  exact updateOut (foldl h _ (fun _ _ h1 => h1.headTempUpdate _ _)) _

theorem opening (h : d.Tame e) : d.Tame (e.opening) := by
  unfold Dev.opening
  exact ((((((h.closeBeat _).openBeat _ _).takeTrim).ageFails).observer _).ageWindow).headsBoundary

theorem build (h : d.Tame e) : d.Tame (e.build) := by
  unfold Dev.build
  exact h.update.buildSlices

theorem linesBoundary (h : d.Tame e) (t : Nat) : d.Tame (e.linesBoundary t) := by
  unfold Dev.linesBoundary
  exact ((settleSwitches (ite ((h.inhibitBoundary.arbitrate.build.predictCrossings _).finishPages) (((h.inhibitBoundary.arbitrate.build.predictCrossings _).finishPages).saveCounters))).updateRelease _).prune

theorem wWtSrc (h : d.Tame e) (val : Nat) (mask : Nat) : d.Tame (e.wWtSrc val mask) := by
  unfold Dev.wWtSrc
  exact ite h (ite (h.store _ _ _ _) (foldl (h.store _ _ _ _) _ (fun _ _ h1 => h1.wr _ _ _)))

theorem wFireAdj (h : d.Tame e) (l : Nat) (val : Nat) (mask : Nat) : d.Tame (e.wFireAdj l val mask) := by
  unfold Dev.wFireAdj
  exact (h.store _ _ _ _).setLink _

theorem wSvCfg (h : d.Tame e) (a : Fin 2) (val : Nat) (mask : Nat) : d.Tame (e.wSvCfg a val mask) := by
  unfold Dev.wSvCfg
  exact ite ((h.wEnable _ _ _).wrB _ _ _) (h.wEnable _ _ _)

theorem ifOwn (h : d.Tame e) (m : Sys2Proof.Master) (p : Nat) {f : Dev → Dev} (hf : ∀ e, d.Tame e → d.Tame (f e)) : d.Tame (e.ifOwn m p f) := by
  unfold Dev.ifOwn
  exact ite (hf _ h) h





end Sys2Proof.Machine.Dev.Tame
end

section
/-!
PROOFS. What touches the fuses and the reset: programming, and the reset from its latch to its release (chapters 4 and 17).
-/

namespace Sys2Proof.Machine

set_option Elab.async false


/-- How far the reset under way has come: nothing while none is, then by its kind and its stage. -/
def Dev.resetLevel (d : Dev) : Nat := d.sys.reset.elim 0 fun r => 1 + 4 * r.kind.rank + min r.stage 3

/-- The fuse groups that only the factory programs are the same. -/
structure Fuses.SameFactory (f g : Fuses) : Prop where
  serial : g.serial = f.serial
  mac : g.mac = f.mac
  deviceKey : g.deviceKey = f.deviceKey
  cert : g.cert = f.cert
  repair : g.repair = f.repair

theorem Fuses.SameFactory.refl (f : Fuses) : f.SameFactory f := ⟨rfl, rfl, rfl, rfl, rfl⟩

theorem Fuses.SameFactory.trans {f g h : Fuses} (a : f.SameFactory g) (b : g.SameFactory h) : f.SameFactory h :=
  ⟨b.serial.trans a.serial, b.mac.trans a.mac, b.deviceKey.trans a.deviceKey, b.cert.trans a.cert, b.repair.trans a.repair⟩

theorem Fuses.SameFactory.of_eq {f g : Fuses} (h : g = f) : f.SameFactory g := h ▸ refl f

theorem Fuses.sameFactory_setGroup (f : Fuses) (g : Nat) (x : Fuse) : f.SameFactory (f.setGroup g x) := by
  unfold Fuses.setGroup
  split <;> exact ⟨rfl, rfl, rfl, rfl, rfl⟩

/-- A change that keeps the invariant and the factory's fuse groups. -/
structure Dev.Sound (d e : Dev) : Prop where
  inv : d.Inv → e.Inv
  factory : d.vlt.fuses.SameFactory e.vlt.fuses

namespace Dev.Sound

variable {d e f : Dev}

theorem refl (d : Dev) : d.Sound d := ⟨id, .refl _⟩

theorem trans (h : d.Sound e) (k : e.Sound f) : d.Sound f := ⟨fun hd => k.inv (h.inv hd), h.factory.trans k.factory⟩

theorem of_tame (h : d.Tame e) : d.Sound e := ⟨h.inv, .of_eq h.fuses⟩

theorem then_tame (h : d.Sound e) (k : e.Tame f) : d.Sound f := h.trans (of_tame k)

/-- A fuse group that a host may program is written, or cut off half written. -/
theorem setGroup (h : d.Sound e) (g : Nat) (f : Fuse) : d.Sound { e with vlt.prog := none, vlt.fuses := e.vlt.fuses.setGroup g f } :=
  ⟨fun hd => { h.inv hd with ram := (h.inv hd).ram }, h.factory.trans (Fuses.sameFactory_setGroup ..)⟩

/-- A slot of the rollback count is written, or cut off half written. -/
theorem setSlot (h : d.Sound e) (s : Nat) (f : Fuse) :
    d.Sound { e with vlt.advance := none, vlt.fuses.slots := e.vlt.fuses.slots.set s f } :=
  ⟨fun hd => { h.inv hd with ram := (h.inv hd).ram }, h.factory.trans ⟨rfl, rfl, rfl, rfl, rfl⟩⟩

/-- The reset under way changes. -/
theorem setReset (h : d.Sound e) (r : Option ResetRun) : d.Sound { e with sys.reset := r } :=
  ⟨fun hd => { h.inv hd with }, h.factory⟩

theorem fuseProgDone (d : Dev) : d.Sound d.fuseProgDone := by
  unfold Dev.fuseProgDone
  split
  · exact refl d
  next g v _ => exact ((refl d).setGroup g _).then_tame (((Tame.refl _).wrB _ _ _).wr _ _ _)

theorem rollbackProgDone (d : Dev) : d.Sound d.rollbackProgDone := by
  unfold Dev.rollbackProgDone
  split
  · exact refl d
  next s v _ => exact ((refl d).setSlot s (Fuse.of 2 v)).then_tame ((((((Tame.refl _).wrB _ _ _).wr _ _ _).wr _ _ _).wr _ _ _).raise _ _ _)

/-- A reset cuts off the programming of a fuse group and of a rollback slot, and no other. -/
theorem cutProgramming (d : Dev) : d.Sound d.cutProgramming := by
  have hp : d.Sound (match d.vlt.prog with
      | none => d
      | some (g, _) =>
        let (f, d) := d.cutFuse (fuseBytes g)
        { d with vlt.prog := none, vlt.fuses := d.vlt.fuses.setGroup g f }) := by
    split
    · exact refl d
    next g _ _ => exact ((refl d).then_tame ((Tame.refl d).cutFuse (fuseBytes g))).setGroup g (d.cutFuse (fuseBytes g)).1
  unfold Dev.cutProgramming
  dsimp only at hp ⊢
  split
  · exact hp
  next s _ _ => exact (hp.then_tame ((Tame.refl _).cutFuse 2)).setSlot s (Dev.cutFuse _ 2).1

end Dev.Sound

/-- Logic reset starts from a state with the reset at its last stage and the fuses as they were. -/
theorem Dev.wiped_from (d : Dev) (r : ResetRun) :
    ∃ e : Dev, e.Tame (d.wiped r) ∧ (d.Inv → e.Inv) ∧ e.vlt.fuses = d.vlt.fuses ∧ e.sys.reset = some { r with stage := 3 } := by
  unfold Dev.wiped
  refine ⟨_, (Tame.opt ((((Tame.refl _).setReg _ _ _).wr _ _ _).wr _ _ _) (fun d => d.dramState 3) fun _ h => h.dramState 3).update, fun hd => ?_, rfl, rfl⟩
  exact {
    regs := rfl
    mem := by
      dsimp only
      split
      · exact hd.mem
      · rfl
    ram := hd.ram
    ports := (List.length_map ..).trans hd.ports
    vectors := List.forall_mem_map.mpr fun _ _ => ⟨rfl, rfl⟩
    uploads := rfl
    ptp := rfl
    quads := (List.length_map ..).trans hd.quads
    enc := rfl
    win := rfl
    temps := rfl
    links := rfl
    reqs := fun _ hx => List.eq_of_mem_replicate hx ▸ rfl
    cams := rfl
    i2c := rfl
    arbs := rfl
    motAxes := rfl
    srvAxes := (List.length_map ..).trans hd.srvAxes
    cmpJ := rfl }

theorem Dev.wiped_fuses (d : Dev) (r : ResetRun) : (d.wiped r).vlt.fuses = d.vlt.fuses := by
  obtain ⟨e, ht, -, hf, -⟩ := d.wiped_from r
  exact ht.fuses.trans hf

theorem Dev.wiped_reset (d : Dev) (r : ResetRun) : (d.wiped r).sys.reset = some { r with stage := 3 } := by
  obtain ⟨e, ht, -, -, hr⟩ := d.wiped_from r
  exact ht.reset.trans hr

theorem Dev.Sound.wiped {d e : Dev} (h : d.Sound e) (r : ResetRun) : d.Sound (e.wiped r) := by
  obtain ⟨f, ht, hi, -, -⟩ := e.wiped_from r
  exact ⟨fun hd => ht.inv (hi (h.inv hd)), h.factory.trans (.of_eq (e.wiped_fuses r))⟩

theorem Dev.Sound.assertLogic {d e : Dev} (h : d.Sound e) (r : ResetRun) : d.Sound (e.assertLogic r) := by
  have hc : e.Sound e.cutProgramming.cutTrim := (Sound.cutProgramming e).then_tame (Tame.refl _).cutTrim
  exact ((h.trans hc).then_tame ((Tame.refl _).foldl _ fun _ _ h1 => Tame.ite (h1.cutCopy _ _) h1)).wiped r

theorem Dev.assertLogic_reset (d : Dev) (r : ResetRun) : (d.assertLogic r).sys.reset = some { r with stage := 3 } := Dev.wiped_reset ..

/-- A change that only carries the reset on: the fuses stay unless it comes further. -/
structure Dev.Advances (d e : Dev) : Prop extends d.Sound e where
  level : d.resetLevel ≤ e.resetLevel
  fuses : e.vlt.fuses = d.vlt.fuses ∨ d.resetLevel < e.resetLevel

namespace Dev.Advances

variable {d e f : Dev}

theorem of_tame (h : d.Tame e) : d.Advances e where
  toSound := .of_tame h
  level := by rw [Dev.resetLevel, Dev.resetLevel, h.reset]
  fuses := .inl h.fuses

theorem refl (d : Dev) : d.Advances d := of_tame (.refl d)

theorem trans (h : d.Advances e) (k : e.Advances f) : d.Advances f where
  toSound := h.toSound.trans k.toSound
  level := h.level.trans k.level
  fuses := by
    rcases h.fuses with hf | hl
    · rcases k.fuses with kf | kl
      · exact .inl (kf.trans hf)
      · exact .inr (h.level.trans_lt kl)
    · exact .inr (hl.trans_le k.level)

theorem then_tame (h : d.Advances e) (k : e.Tame f) : d.Advances f := h.trans (of_tame k)

/-- A change after which the reset has come further. -/
theorem of_lt (h : d.Sound e) (hl : d.resetLevel < e.resetLevel) : d.Advances e := ⟨h, hl.le, .inr hl⟩

theorem ite {c : Prop} [Decidable c] {a b : Dev} (ha : d.Advances a) (hb : d.Advances b) : d.Advances (if c then a else b) := by
  split <;> assumption

/-- The fuses are as they were where the reset under way is the same. -/
theorem fuses_of_reset (h : d.Advances e) (hr : e.sys.reset = d.sys.reset) : e.vlt.fuses = d.vlt.fuses := by
  refine h.fuses.resolve_right fun hl => hl.ne ?_
  rw [Dev.resetLevel, Dev.resetLevel, hr]

theorem level_some (d : Dev) {r : ResetRun} (h : d.sys.reset = some r) : d.resetLevel = 1 + 4 * r.kind.rank + min r.stage 3 := by
  simp [Dev.resetLevel, h]

/-- Signals that hold the reset change: its kind and its stage stay. -/
theorem holdReset (d : Dev) {r : ResetRun} (porn scan supply : Bool) (h : d.sys.reset = some r) :
    d.Advances { d with sys.reset := some { r with porn := porn, scan := scan, supply := supply } } where
  toSound := (Sound.refl d).setReset _
  level := (level_some d h).le
  fuses := .inl rfl

/-- A reset of a higher kind takes the one under way over (R61). -/
theorem takeOver (d : Dev) {r : ResetRun} {s : ResetRun} (hr : d.sys.reset = some r) (hk : r.kind.rank < s.kind.rank)
    {e : Dev} (h : d.Sound e) (he : e.sys.reset = some s) : d.Advances e := by
  refine of_lt h ?_
  rw [level_some d hr, level_some e he]
  omega

theorem requestReset (d : Dev) (kind : ResetKind) (cause : Nat) (porn scan supply : Bool) :
    d.Advances (d.requestReset kind cause porn scan supply) := by
  unfold Dev.requestReset
  split
  next r hr =>
    by_cases hk : r.kind.rank < kind.rank
    · simp only [hk, decide_true, if_true, Bool.not_true, Bool.false_eq_true, if_false]
      have hs := fun x => (Sound.refl d).setReset (some x)
      split
      · exact takeOver d hr hk ((hs _).wiped _) (Dev.wiped_reset ..)
      · split
        · exact takeOver d hr hk ((hs _).assertLogic _) (Dev.assertLogic_reset ..)
        · exact takeOver d hr hk (hs _) rfl
    · simp only [hk, decide_false, Bool.false_eq_true, if_false, Bool.not_false, if_true]
      exact holdReset d _ _ _ hr
  next hr =>
    have hn : d.resetLevel = 0 := by simp [Dev.resetLevel, hr]
    have hs : ∀ x, d.Sound ({ d with sys.reset := some x, sys.castOn := false, sys.autoReset := none, sys.bindOff := none, sys.errOut := true
                                     pace.resetInhibit := true }.assertInhibit d.now 2) :=
      fun x => ((Sound.refl d).setReset (some x)).then_tame ((Tame.refl _).update.assertInhibit _ _)
    have hl {e : Dev} {r : ResetRun} (he : e.sys.reset = some r) : d.resetLevel < e.resetLevel := by
      rw [hn, level_some e he]
      omega
    dsimp only
    split
    · exact of_lt ((hs _).assertLogic _) (hl (Dev.assertLogic_reset ..))
    · exact of_lt (hs _) (hl ((Tame.refl _).assertInhibit _ _).reset)

theorem wSysReset (h : d.Advances e) (val : Nat) : d.Advances (e.wSysReset val) := by
  unfold Dev.wSysReset
  refine ite h ?_
  split
  · exact h.trans (requestReset ..)
  · exact h.trans (requestReset ..)
  · exact h

theorem setStage (d : Dev) {r : ResetRun} (n : Nat) (h : d.sys.reset = some r) (hn : min r.stage 3 ≤ min n 3) : d.Advances (d.setStage n) where
  toSound := (Sound.refl d).setReset _
  level := by
    rw [level_some d h, level_some (r := { r with stage := n }) _ (by simp [Dev.setStage, h])]
    dsimp only
    omega
  fuses := .inl rfl

theorem resetRefresh (d : Dev) : d.Advances d.resetRefresh := by
  unfold Dev.resetRefresh
  split
  next r hr =>
    split
    next hc => exact (setStage d 1 hr (by omega)).then_tame ((Tame.refl _).dramState 3)
    · exact refl d
  · exact refl d

theorem resetSilence (d : Dev) : d.Advances d.resetSilence := by
  unfold Dev.resetSilence
  split
  next r hr =>
    split
    · exact setStage d 2 hr (by omega)
    · exact refl d
  · exact refl d

theorem resetLogic (d : Dev) : d.Advances d.resetLogic := by
  unfold Dev.resetLogic
  split
  next r hr =>
    split
    · refine of_lt ((Sound.refl d).assertLogic r) ?_
      rw [level_some d hr, level_some _ (d.assertLogic_reset r)]
      dsimp only
      omega
    · exact refl d
  · exact refl d

theorem dieTemp (h : d.Advances e) (tj : Int) : d.Advances (e.dieTemp tj) := by
  unfold Dev.dieTemp
  generalize clampInt (-32768) 32767 tj = t
  have hs := h.then_tame (((Tame.refl e).wrS F.SYS_TEMP_TJ 0 t).wrS F.SYS_TEMP_PEAK 0 (max t (e.rdS F.SYS_TEMP_PEAK)))
  dsimp only
  refine ite (hs.trans (requestReset ..)) (ite (ite hs ?_) (ite ?_ hs))
  all_goals exact hs.then_tame (((Tame.refl _).wrB _ _ _).raise _ _ _)

theorem beatBoundary (d : Dev) (tj : Int) : d.Advances (d.beatBoundary tj) := by
  unfold Dev.beatBoundary
  refine ite (refl d) ?_
  generalize d.boundary = t
  have hb := of_tame (((Tame.refl d).opening.linesBoundary t).predictCompare t).linkBoundary.updateErr
  refine then_tame (hb.dieTemp tj) ?_
  exact (Tame.refl _).orderEvents _

end Dev.Advances
end Sys2Proof.Machine
end

section
/-!
PROOFS. The register rules, the commands and the step, and the two obligations that speak of every step.
-/

namespace Sys2Proof.Machine

set_option Elab.async false


/-- A release of the reset: no fuse changes. -/
structure Dev.Releases (d e : Dev) : Prop extends d.Sound e where
  fuses : e.vlt.fuses = d.vlt.fuses

namespace Dev.Releases

variable {d e f : Dev}

theorem refl (d : Dev) : d.Releases d := ⟨.refl d, rfl⟩

theorem of_tame (h : d.Tame e) : d.Releases e := ⟨.of_tame h, h.fuses⟩

theorem then_tame (h : d.Releases e) (k : e.Tame f) : d.Releases f := ⟨h.toSound.then_tame k, k.fuses.trans h.fuses⟩

theorem setReset (h : d.Releases e) (r : Option ResetRun) : d.Releases { e with sys.reset := r } := ⟨h.toSound.setReset r, h.fuses⟩

theorem release (h : d.Releases e) (bootsel : Nat) : d.Releases (e.release bootsel) := by
  unfold Dev.release
  exact (h.setReset none).then_tame ((Tame.refl _).update.beginStep _ _)

theorem heldReset (h : d.Releases e) (r : ResetRun) (bootsel : Nat) : d.Releases (e.heldReset r bootsel) := by
  unfold Dev.heldReset
  dsimp only
  split
  · exact (h.setReset _).release _
  · exact h.setReset _

theorem resetRelease (d : Dev) (bootsel : Nat) : d.Releases (d.resetRelease bootsel) := by
  unfold Dev.resetRelease
  split
  · split
    · exact (of_tame (.update (.refl d))).heldReset _ _
    · exact refl d
  · exact refl d

theorem testLogicReset (d : Dev) (bootsel : Nat) : d.Releases (d.testLogicReset bootsel) := by
  have ht : d.Releases { d with tap.ir := .idcode } := of_tame (.update (.refl d))
  unfold Dev.testLogicReset
  dsimp only
  split
  · split
    · exact ht.heldReset _ _
    · exact ht
  · exact ht

end Dev.Releases

theorem Dev.Sound.pornRises (d : Dev) (lowNs bootsel : Nat) (rails : List Rail) : d.Sound (d.pornRises lowNs bootsel rails) := by
  unfold Dev.pornRises
  split
  · dsimp only
    split
    · exact ((Releases.of_tame (.update (.refl d))).heldReset _ _).toSound
    · exact (Sound.refl d).setReset _
  · split
    · have hf : d.Sound { d with freeCtr := d.freeCtr + 1 } := .of_tame (.freeNext (.refl d))
      dsimp only
      split
      · exact (hf.trans (Advances.requestReset ..).toSound).trans ((Releases.refl _).release _).toSound
      · exact hf
    · exact .refl d

/-- A rule of a register whose writes only carry the reset on. -/
abbrev WriteRule.Advances (w : WriteRule) : Prop := ∀ (d : Dev) (m : Master) (i v k : Nat), d.Advances (w d m i v k)

namespace WriteRule.Advances

theorem of_tame {w : WriteRule} (h : ∀ {d : Dev}, d.Tame d → ∀ m i v k, d.Tame (w d m i v k)) : WriteRule.Advances w :=
  fun d m i v k => .of_tame (h (.refl d) m i v k)

theorem plainOwn (r : Reg) (per n : Nat) : WriteRule.Advances (plainOwn r per n) :=
  of_tame fun k _ _ _ _ => k.ifOwn _ _ fun _ h => h.store _ _ _ _

theorem writeRules1_advance : ∀ w ∈ writeRules1, WriteRule.Advances w.2 := by
  unfold writeRules1
  simp only [List.forall_mem_cons]
  exact ⟨plainOwn _ _ _,
    of_tame fun k _ _ _ _ => k.wSnapReq _ _,
    of_tame fun k _ _ _ _ => k.wMboxCtrl _ _,
    of_tame fun k _ _ _ _ => k.wRepat _ _,
    of_tame fun k _ _ _ _ => k.wStaging _ _ _,
    fun d _ _ v _ => (Dev.Advances.refl d).wSysReset v,
    of_tame fun k _ _ _ _ => k.wClog _,
    of_tame fun k _ _ _ _ => k.wBindOff _,
    of_tame fun k _ _ _ _ => k.wSaveBase _ _,
    of_tame fun k _ _ _ _ => k.wTbIncr _ _,
    of_tame fun k _ _ _ _ => k.wTbCtrl _ _,
    of_tame fun k _ _ _ _ => k.wTbStep _ _,
    of_tame fun k _ _ _ _ => k.wWtSrc _ _,
    of_tame fun k _ _ _ _ => k.wWtScale _ _,
    of_tame fun k _ _ _ _ => k.wWtCue _ _,
    of_tame fun k _ _ _ _ => k.wEnable _ _ _,
    of_tame fun k _ _ _ _ => k.wEnable _ _ _,
    of_tame fun k _ _ _ _ => k.wCmp _ _ _ _,
    of_tame fun k _ _ _ _ => k.wCmp _ _ _ _,
    of_tame fun k _ _ _ _ => k.wCmp _ _ _ _,
    of_tame fun k _ _ _ _ => k.wCdCtrl _ _,
    of_tame fun k _ _ _ _ => k.wPush _ _ _,
    of_tame fun k _ _ _ _ => k.wEnc _ _ _ _,
    of_tame fun k _ _ _ _ => k.wLaShift _ _,
    of_tame fun k _ _ _ _ => k.wLaBlend _ _,
    of_tame fun k _ _ _ _ => k.wLaSwatch _ _,
    of_tame fun k _ _ _ _ => k.wSubst _ _ _ _,
    List.forall_mem_nil _⟩

theorem writeRules2_advance : ∀ w ∈ writeRules2, WriteRule.Advances w.2 := by
  unfold writeRules2
  simp only [List.forall_mem_cons]
  exact ⟨of_tame fun k _ _ _ _ => k.wPeShared _ _ _ _ _,
    of_tame fun k _ _ _ _ => k.wPeShared _ _ _ _ _,
    of_tame fun k _ _ _ _ => k.wPeShared _ _ _ _ _,
    of_tame fun k _ _ _ _ => k.wPeShared _ _ _ _ _,
    of_tame fun k _ _ _ _ => k.wPeTrimCtrl _ _,
    of_tame fun k _ _ _ _ => k.wPeClaim _ _ _,
    of_tame fun k _ _ _ _ => k.wInhibit _ _,
    of_tame fun k _ _ _ _ => k.wHlCfg _ _ _,
    of_tame fun k _ _ _ _ => k.wFireAdj _ _ _,
    of_tame fun k _ _ _ _ => k.ifOwn _ _ fun _ h => h.wMgmtCmd _ _ _ _,
    plainOwn _ _ _,
    of_tame fun k _ _ _ _ => k.ifOwn _ _ fun _ h => h.wMgmtData _ _ _,
    of_tame fun k _ _ _ _ => k.wInsCommit _ _,
    of_tame fun k _ _ _ _ => k.wI2c _ _ _,
    of_tame fun k _ _ _ _ => k.wCamCfg _ _ _,
    of_tame fun k _ _ _ _ => (k.store _ _ _ _).checkCapture _,
    of_tame fun k _ _ _ _ => k.wEnable _ _ _,
    List.forall_mem_nil _⟩

theorem writeRules3_advance : ∀ w ∈ writeRules3, WriteRule.Advances w.2 := by
  unfold writeRules3
  simp only [List.forall_mem_cons]
  exact ⟨of_tame fun k _ _ _ _ => k.wDmMark _ _ _,
    of_tame fun k _ _ _ _ => k.wDmSpeed _ _ _,
    of_tame fun k _ _ _ _ => k.wMfClass _ _,
    of_tame fun k _ _ _ _ => k.wMfSlotCtrl _ _,
    of_tame fun k _ _ _ _ => k.ifOwn _ _ fun _ h => h.wEvrBase _ _ _,
    of_tame fun k _ _ _ _ => k.ifOwn _ _ fun _ h => h.wEvrCfg _ _ _,
    plainOwn _ _ _,
    of_tame fun k _ _ _ _ => k.ifOwn _ _ fun _ h => h.wDoorbell _ _,
    plainOwn _ _ _,
    of_tame fun k _ _ _ _ => k.ifOwn _ _ fun _ h => h.wSnapCtrl _ _ _,
    of_tame fun k _ _ _ _ => k.wEthCfg _ _ _,
    of_tame fun k _ _ _ _ => k.wUpload _ _ _ _,
    of_tame fun k _ _ _ _ => k.wVltRollback _,
    of_tame fun k _ _ _ _ => k.wVltRootHash _ _ _,
    of_tame fun k _ _ _ _ => k.wVltHeadRoot _ _ _,
    of_tame fun k _ _ _ _ => k.wVltProg _ _,
    of_tame fun k _ _ _ _ => k.wVltTamper _ none,
    of_tame fun k _ _ _ _ => k.wVltAttest _ _,
    of_tame fun k _ _ _ _ => k.wReauth _ _,
    of_tame fun k _ _ _ _ => k.wCap _ _ _,
    of_tame fun k _ _ _ _ => k.wMotCfg _ _ _,
    of_tame fun k _ _ _ _ => k.wMove _ _ _,
    of_tame fun k _ _ _ _ => k.wSvCfg _ _ _,
    of_tame fun k _ _ _ _ => k.wSvTarget _ _ _,
    of_tame fun k _ _ _ _ => k.wSvCtrl _ _ _,
    of_tame fun k _ _ _ _ => k.wTrim _ _ _,
    List.forall_mem_nil _⟩

end WriteRule.Advances

theorem writeRules_advance {w : Reg × WriteRule} (h : w ∈ writeRules) : WriteRule.Advances w.2 := by
  simp only [writeRules, List.mem_append] at h
  rcases h with h | h | h
  · exact WriteRule.Advances.writeRules1_advance w h
  · exact WriteRule.Advances.writeRules2_advance w h
  · exact WriteRule.Advances.writeRules3_advance w h

namespace Dev.Advances

variable {d e : Dev}

theorem putReg (h : d.Advances e) (m : Master) (x : Hit) (val mask : Nat) : d.Advances (e.putReg m x val mask) := by
  unfold Dev.putReg
  split
  next w hw => exact h.trans (writeRules_advance (List.mem_of_find?_eq_some hw) _ _ _ _ _)
  · exact h.then_tame ((Tame.refl _).regWrite _ _ _ _)

theorem write32 (h : d.Advances e) (m : Master) (off val : Nat) : d.Advances (e.write32 m off val) := by
  unfold Dev.write32
  split
  · exact h
  · exact ite (h.putReg _ _ _ _) (h.putReg _ _ _ _)

theorem write64 (h : d.Advances e) (m : Master) (off val : Nat) : d.Advances (e.write64 m off val) := by
  have hw := (h.write32 m off val).write32 m (off + 4) (val / 2 ^ 32)
  unfold Dev.write64
  split
  · exact ite (h.putReg _ _ _ _) hw
  · exact hw

theorem regStore (h : d.Advances e) (m : Master) (addr bytes val : Nat) : d.Advances (e.regStore m addr bytes val) := by
  have ht := h.then_tame ((Tame.refl e).touch m)
  unfold Dev.regStore
  refine ite h ?_
  split
  · exact h.then_tame ((Tame.refl e).refuse _ _ _ _)
  · exact h.then_tame (((Tame.refl e).touch m).wSlotActive _ _)
  · exact h.then_tame ((Tame.refl e).refuse _ _ _ _)
  · exact ht
  · exact ite (ht.write64 _ _ _) (ht.write32 _ _ _)

theorem writeTo (h : d.Advances e) (m : Master) (r : Reg) (i : Nat) {f : Dev → Dev} (hf : ∀ e, d.Advances e → d.Advances (f e)) :
    d.Advances (e.writeTo m r i f) := by
  have ht := h.then_tame ((Tame.refl e).touch m)
  unfold Dev.writeTo
  refine ite h ?_
  split
  · exact hf _ ht
  · exact ht
  · exact h.then_tame ((Tame.refl e).refuse _ _ _ _)

end Dev.Advances

/-- A command that ends a programming, or raises PORn: the fuses may then change with the reset as it was. -/
def Instr.EndsProgramming (c : Instr) : Prop := c = .fuseProgDone ∨ c = .rollbackProgDone ∨ ∃ n b r, c = .pornRelease n b r

/-- What every command keeps: the invariant, the factory's fuse groups, and every fuse where the reset under way stays and no programming ends. -/
structure Dev.Follows (c : Instr) (d e : Dev) : Prop extends d.Sound e where
  fuses : e.sys.reset = d.sys.reset → ¬ Instr.EndsProgramming c → e.vlt.fuses = d.vlt.fuses

namespace Dev.Follows

variable {c : Instr} {d e f : Dev} {s t : State}

theorem of_advances (h : d.Advances e) : d.Follows c e := ⟨h.toSound, fun hr _ => h.fuses_of_reset hr⟩

theorem of_tame (h : d.Tame e) : d.Follows c e := of_advances (.of_tame h)

theorem of_releases (h : d.Releases e) : d.Follows c e := ⟨h.toSound, fun _ _ => h.fuses⟩

theorem of_ends (hc : Instr.EndsProgramming c) (h : d.Sound e) : d.Follows c e := ⟨h, fun _ hn => absurd hc hn⟩

theorem then_tame (h : d.Follows c e) (k : e.Tame f) : d.Follows c f :=
  ⟨h.toSound.then_tame k, fun hr hn => k.fuses.trans (h.fuses (k.reset.symm.trans hr) hn)⟩

theorem act {f : Dev → Dev} (h : s.act f = .next t) (hf : s.dev.Follows c (f s.dev)) : s.dev.Follows c t.dev := by
  cases h
  exact hf

theorem actInOrder {f : Dev → Dev} (h : s.actInOrder f = .next t) (hf : s.dev.Follows c (f s.dev)) : s.dev.Follows c t.dev :=
  act h (hf.then_tame ((Tame.refl _).orderEvents _))

end Dev.Follows

namespace Dev.Tame

open Dev.Follows (of_tame of_advances of_releases of_ends)

/-- What each command keeps. -/
theorem exec_follows {c : Instr} {s t : State} (h : exec c s = .next t) : s.dev.Follows c t.dev := by
  have same := Tame.refl s.dev
  have still := Advances.refl s.dev
  unfold exec at h
  cases c with
  | registerWrite m addr bytes val => exact .actInOrder h (of_advances (still.regStore _ _ _ _))
  | lowWordRead m addr bytes => exact .act h (of_tame (same.regRead _ _ _))
  | tbNowRead m bytes => exact .act h (of_tame (same.regRead _ _ _))
  | hstApbaseWrite m p val => exact .act h (of_tame (same.writeOwn _ _ _ _ (fun _ h => h.store _ _ _ _)))
  | bar2Read p off len => exact .act h (of_tame (same.bar2Read _ _ _))
  | bar2Write p off data => exact .act h (of_tame (same.bar2Write _ _ _))
  | snapReq m val => exact .act h (of_tame (same.writeTo _ _ _ (fun _ h => h.wSnapReq _ _)))
  | beatBoundary tj => exact .act h (of_advances (.beatBoundary _ _))
  | powerOnReset c rails =>
    refine .actInOrder h (of_advances ?_)
    have hr : s.dev.Advances { s.dev with sys.railsOut := rails } := .of_tame same.update
    cases c with
    | porn => exact hr.trans (.requestReset ..)
    | supply => exact hr.trans (.requestReset ..)
  | pornRelease lowNs bootsel rails => exact .actInOrder h (of_ends (.inr (.inr ⟨_, _, _, rfl⟩)) (.pornRises ..))
  | rstnAssert lowNs => exact .actInOrder h (of_advances (.ite still (.requestReset ..)))
  | sysResetWarm m val => exact .actInOrder h (of_advances (still.writeTo _ _ _ fun _ h => h.wSysReset _))
  | sysResetCold m val => exact .actInOrder h (of_advances (still.writeTo _ _ _ fun _ h => h.wSysReset _))
  | autoReset =>
    refine .actInOrder h (of_advances ?_)
    split
    · exact .requestReset ..
    · exact still
  | resetDramSelfRefresh => exact .act h (of_advances (.resetRefresh _))
  | resetFireSilence => exact .act h (of_advances (.resetSilence _))
  | resetLogicAssert => exact .act h (of_advances (.resetLogic _))
  | resetRelease bootsel => exact .actInOrder h (of_releases (.resetRelease ..))
  | castOnStepDone info => exact .actInOrder h (of_tame (same.stepDone _))
  | castOnStepLimit info => exact .actInOrder h (of_tame (same.stepLimit _))
  | patternImageArrived src complete img => exact .act h (of_tame (same.imageArrived _ _ _))
  | mboxGo m val => exact .act h (of_tame (same.writeTo _ _ _ (fun _ h => h.wMboxCtrl _ _)))
  | mboxAbort m val => exact .act h (of_tame (same.writeTo _ _ _ (fun _ h => h.wMboxCtrl _ _)))
  | mboxTimeout => exact .act h (of_tame same.mboxTimeout)
  | stagingWrite m addr bytes val => exact .act h (of_advances (.ite (still.regStore _ _ _ _) still))
  | repatternGo m val => exact .act h (of_tame (same.writeTo _ _ _ (fun _ h => h.wRepat _ _)))
  | repatternVerifyDone => exact .act h (of_tame same.repatternVerified)
  | repatternApply => exact .actInOrder h (of_tame same.repatternApply)
  | clogClear m val => exact .act h (of_tame (same.writeTo _ _ _ (fun _ h => h.wClog _)))
  | bindoffGo m val => exact .act h (of_tame (same.writeTo _ _ _ (fun _ h => h.wBindOff _)))
  | bindoffStepDone => exact .actInOrder h (of_tame same.bindStepDone)
  | bindoffCapTimeout => exact .act h (of_tame same.bindCapTimeout)
  | functionEnableWrite m f en => exact .actInOrder h (of_tame (same.writeTo _ _ _ (fun _ h => h.enableReq _ _)))
  | functionTransitionDone f => exact .actInOrder h (of_tame (same.transitionDone _))
  | functionWedged f => exact .act h (of_tame (same.wedge _))
  | tbIncrWrite m bytes val => exact .act h (of_tame (same.writeTo _ _ _ (fun _ h => h.wTbIncr _ _)))
  | tbStepWrite m bytes val => exact .actInOrder h (of_tame (same.writeTo _ _ _ (fun _ h => h.wTbStep _ _)))
  | tbManualWrite m val => exact .act h (of_tame (same.writeTo _ _ _ (fun _ h => h.wTbCtrl _ _)))
  | tbResync m val => exact .act h (of_tame (same.writeTo _ _ _ (fun _ h => h.wTbCtrl _ _)))
  | announceRx e f msg => exact .actInOrder h (of_tame (same.ptpTake _ _ _ (fun _ h => h.announce _ _)))
  | syncRx e f msg => exact .actInOrder h (of_tame (same.ptpTake _ _ _ (fun _ h => h.sync _ _ _)))
  | followUpRx e f msg => exact .actInOrder h (of_tame (same.ptpTake _ _ _ (fun _ h => h.followUp _ _)))
  | delayRespRx e f msg => exact .act h (of_tame (same.ptpTake _ _ _ (fun _ h => h.delayResp _ _)))
  | pdelayReqRx e f msg => exact .act h (of_tame (same.ptpTake _ _ _ (fun _ h => h.answerPdelay _ _ _)))
  | pdelayRespRx e f msg => exact .actInOrder h (of_tame (same.ptpTake _ _ _ (fun _ h => h.pdelayResp _ _ _)))
  | ptpOtherRx e => exact .act h (of_tame (ite (same.ethDiscard _) same))
  | delayReqTx e capture => exact .act h (of_tame (same.sendDelayReq _ _))
  | pdelayReqTx e capture => exact .act h (of_tame (same.sendPdelayReq _ _))
  | timeStepApply => exact .actInOrder h (of_tame same.timeStepApply)
  | announceTimeout => exact .actInOrder h (of_tame same.loseMaster)
  | syncTimeout => exact .actInOrder h (of_tame (ite same.loseMaster same))
  | quadTransition n a b t => exact .actInOrder h (of_tame (ite (((same.quadTransition _ _ _ _).lateCount _ _).feedFault _) ((same.quadTransition _ _ _ _).lateCount _ _)))
  | f0Step dir setupOk t => exact .actInOrder h (of_tame (ite (same.f0Step _ _ _) (foldl (same.f0Step _ _ _) _ (fun _ _ h => h.follow _ _ _ _))))
  | indexEdge n t => exact .actInOrder h (of_tame (ite ((same.indexEdge _ _).takeIndex _) same))
  | idxArm m n => exact .act h (of_tame (same.writeTo _ _ _ (fun _ h => h.wrB _ _ _)))
  | wtScaleWrite m val => exact .act h (of_tame (same.writeTo _ _ _ (fun _ h => h.wWtScale _ _)))
  | webStandstill => exact .act h (of_tame same.standstill)
  | webSettled => exact .act h (of_tame same.settled)
  | webRecovered => exact .act h (of_tame same.recovered)
  | webCoastExhausted => exact .act h (of_tame same.coastExhausted)
  | webReversed => exact .act h (of_tame same.reversed)
  | pageCue t => exact .actInOrder h (of_tame (same.takeCue _))
  | softCue m bytes val => exact .act h (of_tame (same.writeTo _ _ _ (fun _ h => ite (h.wWtCue _ _) (h.wWtCue _ _))))
  | softCueAccept => exact .actInOrder h (of_tame (by
  split
  · exact same
  · exact same.update.takeCue _))
  | cmpEntryWrite m addr bytes val => exact .act h (of_tame (ite same (same.writeTo _ _ _ (fun _ h => ite (h.wCmp _ _ _ _) (ite (h.wCmp _ _ _ _) (h.wCmp _ _ _ _))))))
  | markPulseStart => exact .act h (of_tame same.markStart)
  | markPulseEnd => exact .act h (of_tame same.markEnd)
  | pagePush m bytes val => exact .act h (of_tame (same.writeTo _ _ _ (fun _ h => ite (h.wPush _ _ _) (h.wPush _ _ _))))
  | pagePushLowWrite m val => exact .act h (of_tame (same.writeTo _ _ _ (fun _ h => h.wPush _ _ _)))
  | descriptorCheck => exact .actInOrder h (of_tame same.checkDescriptor)
  | bandDecodeStart lane => exact .act h (of_tame (same.startBand _))
  | bandDecodeDone lane err => exact .actInOrder h (of_tame (same.bandDone _ _))
  | spareDecodeDone err => exact .actInOrder h (of_tame (same.spareDone _))
  | stripLineWrite strip => exact .act h (of_tame (same.writeStripLine _))
  | encodeGo m n val => exact .act h (of_tame (same.writeTo _ _ _ (fun _ h => h.wEnc _ _ _ _)))
  | encodeKick m n => exact .act h (of_tame (same.writeTo _ _ _ (fun _ h => h.encodeKick _)))
  | skeinBufferFull n => exact .act h (of_tame (same.bufferFull _))
  | encodeReadFail n => exact .act h (of_tame (same.encodeEnd _ _))
  | encodeDone n => exact .act h (of_tame (same.encodeEnd _ _))
  | windowReadReturn en h row strip pair => exact .act h (of_tame (same.readReturns _ _ _ _ _))
  | windowReadDeadline => exact .act h (of_tame same.readDeadline)
  | lineBuild en h row flt => exact .actInOrder h (of_tame (same.buildLine _ _ _ _))
  | shiftWrite m val => exact .act h (of_tame (same.writeTo _ _ _ (fun _ h => h.wLaShift _ _)))
  | autoUpdate v => exact .act h (of_tame (by
  split
  · exact ite (same.update.autoUpdate _) same
  · exact same))
  | blendCommit m val => exact .act h (of_tame (same.writeTo _ _ _ (fun _ h => h.wLaBlend _ _)))
  | swatchArm m bytes val => exact .act h (of_tame (same.writeTo _ _ _ (fun _ h => h.wLaSwatch _ _)))
  | peSharedWrite m addr bytes val => exact .act h (of_advances (.ite (still.regStore _ _ _ _) still))
  | trimCommit m en val => exact .act h (of_tame (same.writeTo _ _ _ (fun _ h => h.wPeTrimCtrl _ _)))
  | headTempStale h => exact .act h (of_tame (same.tempStale _))
  | claimWrite m en val => exact .act h (of_tame (same.writeTo _ _ _ (fun _ h => h.wPeClaim _ _ _)))
  | engineSramError en => exact .act h (of_tame (same.dropClaim _ _))
  | engineFailRate en => exact .act h (of_tame (same.failRate _))
  | fireInhibitnChange level t => exact .actInOrder h (of_tame (same.firePin _ _))
  | inhibitWrite m val => exact .actInOrder h (of_tame (same.writeTo _ _ _ (fun _ h => h.wInhibit _ _)))
  | frameTxDone l t => exact .act h (of_tame (same.nextFrame _ _))
  | hlFireAdjWrite m l val => exact .act h (of_tame (same.writeTo _ _ _ (fun _ h => (h.store _ _ _ _).setLink _)))
  | statusRx l st t4 => exact .actInOrder h (of_tame (same.status _ _ _))
  | delayRestart l => exact .act h (of_tame (same.delayRestart _))
  | upstreamFrameBad l => exact .act h (of_tame (same.frameBad _))
  | mgmtGo m l p val => exact .act h (of_tame (same.writeOwn _ _ _ _ (fun _ h => h.wMgmtCmd _ _ _ _)))
  | mgmtCancel m l p => exact .act h (of_tame (same.writeOwn _ _ _ _ (fun _ h => h.wMgmtCmd _ _ _ _)))
  | mgmtReadRespRx l tag result data => exact .act h (of_tame (same.mgmtAnswer _ _ _ _ _))
  | mgmtWriteRespRx l tag result => exact .act h (of_tame (same.mgmtAnswer _ _ _ _ _))
  | mgmtTimeout l => exact .act h (of_tame (same.mgmtAnswer _ _ _ _ _))
  | headCheckDone l => exact .act h (of_tame (same.checkEnds _))
  | headBurstDetect l gen => exact .actInOrder h (of_tame (same.headBurst _ _))
  | rxLockAcquired l => exact .act h (of_tame (same.lockAcquired _))
  | rxLockLost l => exact .actInOrder h (of_tame (same.lockLost _))
  | tsRx l ts => exact .act h (of_tame (same.tsRx _ _))
  | eqDwellDone l eye => exact .act h (of_tame (same.eqDwell _ _))
  | eqRequestTimeout l => exact .actInOrder h (of_tame (same.eqTimeout _))
  | confirmComplete l eye => exact .actInOrder h (of_tame (same.confirm _ _))
  | linkTrainTimeout l => exact .actInOrder h (of_tame (same.trainTimeout _))
  | linkUp l => exact .act h (of_tame (same.tryUp _))
  | statusLost l => exact .actInOrder h (of_tame (same.recoverLink _ _))
  | crcRate l => exact .actInOrder h (of_tame (ite (same.recoverLink _ _) same))
  | linkRetrain m l => exact .act h (of_tame (same.writeTo _ _ _ (fun _ h => h.wHlCfg _ _ _)))
  | linkTest m l en => exact .act h (of_tame (same.writeTo _ _ _ (fun _ h => h.wHlCfg _ _ _)))
  | dnSleepEnter l => exact .act h (of_tame (same.dnSleep _))
  | dnWake l => exact .act h (of_tame (same.dnWake _))
  | upSleepRx l => exact .act h (of_tame (ite ((same.wrB _ _ _).setLink _) same))
  | wakeRelockTimeout l => exact .actInOrder h (of_tame (ite same (same.recoverLink _ _)))
  | cameraTrigger c => exact .act h (of_tame (same.cameraTrigger _))
  | strobeStart c => exact .act h (of_tame (same.strobeStart _))
  | strobeEnd c => exact .act h (of_tame (same.strobeEnd _))
  | csiFrameStart c => exact .act h (of_tame (same.frameStart _))
  | csiFrameEnd c => exact .act h (of_tame (ite (same.closeFrame _) same))
  | csiLongPacket c pk => exact .actInOrder h (of_tame (same.longPacket _ _))
  | csiOtherPacket c kind => exact .act h (of_tame (same.otherPacket _ _))
  | camLineMissed c => exact .act h (of_tame (same.lineMissed _))
  | frameIdleTimeout c => exact .act h (of_tame (same.closeFrame _))
  | camLineProcess c => exact .act h (of_tame (same.processLine _))
  | insCommit m => exact .act h (of_tame (same.writeTo _ _ _ (fun _ h => h.wInsCommit _ _)))
  | i2cGo m k val => exact .act h (of_tame (same.writeTo _ _ _ (fun _ h => h.wI2c _ _ _)))
  | i2cComplete k result data => exact .act h (of_tame (same.endI2c _ _ _))
  | i2cTimeout k => exact .act h (of_tame (same.endI2c _ _ _))
  | nzhCamLine c => exact .act h (of_tame (ite same.update (same.takeLine _)))
  | healthWindowClose nz => exact .actInOrder h (of_tame (same.windowClose _))
  | swatchVerdict => exact .actInOrder h (of_tame same.swatchVerdict)
  | nzhSwatchPages => exact .act h (of_tame same.swatchPages)
  | substApply => exact .act h (of_tame same.substApply)
  | substHostWrite m addr bytes val => exact .act h (of_tame (ite same (same.writeTo _ _ _ (fun _ h => h.wSubstAt _ _ _ _))))
  | dramReadComplete rq addr errs => exact .act h (of_tame (same.readComplete _ _ _))
  | dramRmw rq addr data => exact .act h (of_tame (same.rmw _ _ _))
  | ceDecay => exact .act h (of_tame same.ceDecay)
  | rebuildGranule ch errs => exact .act h (of_tame (same.rebuildGranule _ _))
  | scrubGranule ch errs => exact .act h (of_tame (same.scrubGranule _ _))
  | pprRepair ch rank lane errs => exact .act h (of_tame (same.pprRepair _ _ _ _))
  | retrainPause ch rank lane pass => exact .act h (of_tame (same.retrainPause _ _ _ _))
  | trefiTick ch rank => exact .act h (of_tame (same.trefi _ _))
  | refForced ch rank => exact .act h (of_tame (same.refForced _ _))
  | dramTempPoll ch rank doubled tooHot => exact .act h (of_tame (same.tempPoll _ _ _ _))
  | chipMarkHost m ch val => exact .act h (of_tame (same.writeTo _ _ _ (fun _ h => h.wDmMark _ _ _)))
  | markForget m ch => exact .act h (of_tame (same.writeTo _ _ _ (fun _ h => h.wDmMark _ _ _)))
  | speedChangeGo m ch val => exact .act h (of_tame (same.writeTo _ _ _ (fun _ h => h.wDmSpeed _ _ _)))
  | speedChangeDone lanes => exact .act h (of_tame (same.speedDone _))
  | arbiterGrant ch reqs => exact .act h (of_tame (same.arbiterGrant _ _))
  | holdCut ch => exact .act h (of_tame (same.holdCut _))
  | requestWithdraw ch r => exact .act h (of_tame (same.withdraw _ _))
  | slotOpen ch slot reqs stream => exact .act h (of_tame (same.slotOpen _ _ _ _))
  | mfClassWrite m bytes val => exact .act h (of_tame (same.writeTo _ _ _ (fun _ h => h.wMfClass _ _)))
  | slotActiveWrite m word val => exact .act h (of_tame (ite ((same.touch _).wSlotActive _ _) same))
  | slotArm m val => exact .act h (of_tame (same.writeTo _ _ _ (fun _ h => h.wMfSlotCtrl _ _)))
  | slotSwap => exact .actInOrder h (of_tame same.slotSwap)
  | pciePortReset p perst => exact .actInOrder h (of_tame (same.resetPort _ _))
  | pcieLinkUp p speed width perst => exact .act h (of_tame (same.linkComesUp _ _ _ _))
  | doorbellWrite m p val => exact .act h (of_tame (same.writeOwn _ _ _ _ (fun _ h => h.wDoorbell _ _)))
  | eventPost => exact .act h (of_tame same.eventPost)
  | eventRingWrite p => exact .act h (of_tame (same.ringWrite _))
  | evrEnable m p val => exact .act h (of_tame (same.writeOwn _ _ _ _ (fun _ h => h.wEvrCfg _ _ _)))
  | evrDisable m p val => exact .act h (of_tame (same.writeOwn _ _ _ _ (fun _ h => h.wEvrCfg _ _ _)))
  | evrTailWrite m p val => exact .act h (of_tame (same.writeOwn _ _ _ _ (fun _ h => h.store _ _ _ _)))
  | msixModerationEnd p => exact .act h (of_tame (same.moderationEnd _))
  | snapDmaGo m p val => exact .act h (of_tame (same.writeOwn _ _ _ _ (fun _ h => h.wSnapCtrl _ _ _)))
  | snapDmaStart p => exact .act h (of_tame (same.copyStart _))
  | snapDmaDone p => exact .act h (of_tame (same.copyDone _))
  | snapDmaTimeout p => exact .act h (of_tame (ite (same.cutCopy _ _) same))
  | ethFrameDiscard e badFcs => exact .act h (of_tame (same.ethFrame _ _))
  | ethLink e up => exact .actInOrder h (of_tame (same.ethLink _ _))
  | uploadGo m e val => exact .act h (of_tame (same.writeTo _ _ _ (fun _ h => h.wUpload _ _ _ _)))
  | uploadDatagram e => exact .act h (of_tame (same.uploadDatagram _))
  | fuseProg m val => exact .act h (of_tame (same.writeTo _ _ _ (fun _ h => h.wVltProg _ _)))
  | fuseProgDone => exact .act h (of_ends (.inl rfl) (.fuseProgDone _))
  | rollbackAdvance m val => exact .act h (of_tame (same.writeTo _ _ _ (fun _ h => h.wVltRollback _)))
  | rollbackProgDone => exact .act h (of_ends (.inr (.inl rfl)) (.rollbackProgDone _))
  | attestGo m => exact .act h (of_tame (same.writeTo _ _ _ (fun _ h => h.wVltAttest _ _)))
  | attestDone => exact .act h (of_tame same.attestDone)
  | tamperDetect c => exact .act h (of_tame (same.setTamper _))
  | tamperForce m val => exact .act h (of_tame (same.writeTo _ _ _ (fun _ h => h.wVltTamper _ _)))
  | tamperClear m val cause => exact .act h (of_tame (by
  dsimp only
  split
  · exact (same.writeTo _ _ _ (fun _ h => h.wVltTamper _ _)).setTamper _
  · exact same.writeTo _ _ _ (fun _ h => h.wVltTamper _ _)))
  | vaultUsageSave => exact .act h (of_tame same.saveUsage)
  | vaultTimeSave => exact .act h (of_tame (ite same.saveTime same))
  | authReauth m val => exact .act h (of_tame (same.writeTo _ _ _ (fun _ h => h.wReauth _ _)))
  | authResponseRx l msg => exact .actInOrder h (of_tame (same.authResponse _ _))
  | authResponseTimeout l => exact .actInOrder h (of_tame (same.authAgain _ _))
  | usagePeriodExpiry => exact .act h (of_tame same.usagePeriod)
  | countAckRx l msg => exact .act h (of_tame (same.countAck _ _))
  | countAckTimeout l => exact .actInOrder h (of_tame (same.authAgain _ _))
  | servoTick => exact .actInOrder h (of_tame same.servoTick)
  | servoStages => exact .actInOrder h (of_tame (ite (foldl same.update _ (fun _ _ h => h.srvStages _)) same))
  | chopPeriod n phase => exact .act h (of_tame (same.chop _ _))
  | stepperOvercurrent n => exact .actInOrder h (of_tame (same.motStopOn _ _ (fun _ h => h)))
  | microstepEmit n t bemf => exact .actInOrder h (of_tame (same.microstep _ _ _))
  | holdCurrentTimer n => exact .act h (of_tame (ite (same.setAxis _ _) same))
  | moveGo m n bytes val => exact .actInOrder h (of_tame (same.writeTo _ _ _ (fun _ h => ite (h.wMove _ _ _) (h.wMove _ _ _))))
  | moveSoftStop m n => exact .actInOrder h (of_tame (same.writeTo _ _ _ (fun _ h => h.wMove _ _ _)))
  | moveStop m n => exact .actInOrder h (of_tame (same.writeTo _ _ _ (fun _ h => h.wMove _ _ _)))
  | moveHome m n => exact .actInOrder h (of_tame (same.writeTo _ _ _ (fun _ h => h.wMove _ _ _)))
  | motSourceWrite m n val => exact .actInOrder h (of_tame (same.writeTo _ _ _ (fun _ h => h.wMotCfg _ _ _)))
  | capGo m => exact .act h (of_tame (same.writeTo _ _ _ (fun _ h => h.wCap _ _ _)))
  | switchChange n isEnd level t => exact .actInOrder h (of_tame (same.switchChange _ _ _ _))
  | switchChatter n isEnd => exact .actInOrder h (of_tame ((same.raise _ _ _).motStopOn _ _ (fun _ h => h)))
  | axisStall n => exact .actInOrder h (of_tame (ite (same.motStopOn _ _ (fun _ h => h.raise _ _ _)) same))
  | pwmCentre a iu iv iw => exact .act h (of_tame (same.pwmCentre _ _ _ _))
  | servoOvercurrent a => exact .act h (of_tame (same.servoFault _ _))
  | absFrameDone a fr => exact .actInOrder h (of_tame (ite (same.absFrame _ _) same))
  | hallChange h code t => exact .actInOrder h (of_tame (same.hallChange _ _ _))
  | servoAlignDone a => exact .act h (of_tame (ite same (ite (((same.setSrv _ _).refreshAngle _).clearFault _) ((same.setSrv _ _).refreshAngle _))))
  | servoTargetWrite m a val => exact .act h (of_tame (same.writeTo _ _ _ (fun _ h => h.wSvTarget _ _ _)))
  | servoRegRx v => exact .act h (of_tame (ite ((same.update.wrS _ _ _).wr _ _ _) same))
  | servoReference m a => exact .act h (of_tame (same.writeTo _ _ _ (fun _ h => h.wSvCtrl _ _ _)))
  | servoClear m a => exact .act h (of_tame (same.writeTo _ _ _ (fun _ h => h.wSvCtrl _ _ _)))
  | notchCommit m a => exact .act h (of_tame (same.writeTo _ _ _ (fun _ h => h.wSvCtrl _ _ _)))
  | trimGo m val => exact .act h (of_tame (same.writeTo _ _ _ (fun _ h => h.wTrim _ _ _)))
  | trimMeasureDone rLo rHi sLo sHi => exact .act h (of_tame (same.trimMeasured _ _ _ _))
  | trimProgDone => exact .actInOrder h (of_tame same.trimProgrammed)
  | analogCheck => exact .act h (of_tame same.beginCheck)
  | analogCheckDone reading => exact .actInOrder h (of_tame (same.endCheck _))
  | analogStuck k => exact .actInOrder h (of_tame (ite (ite same (same.dropSpare _)) (ite same (same.failChannel _ _))))
  | pllLockLoss => exact .actInOrder h (of_advances (.requestReset ..))
  | jtagInstructionLoad withPor instr cells =>
    have hl := Advances.of_tame (same.loadTap instr cells)
    exact .actInOrder h (of_advances (.ite (hl.trans (.requestReset ..))
      (.ite hl ((hl.then_tame (.freeNext (.refl _))).trans (.requestReset ..)))))
  | jtagTestLogicReset bootsel => exact .actInOrder h (of_releases (.testLogicReset ..))
  | vbatLoss => exact .act h (of_tame same.vbatLoss)
  | pcieConfigWrite p w => exact .act h (of_tame (same.configWrite _ _))

end Dev.Tame

theorem step_sound {s t : State} (h : step s = .next t) : s.dev.Sound t.dev := by
  unfold step at h
  split at h
  · exact (Dev.Tame.exec_follows h).toSound
  · cases h
    exact .of_tame (Dev.Tame.refl _).tick

theorem step_fuses {s t : State} (h : step s = .next t) (hr : t.dev.sys.reset = s.dev.sys.reset)
    (hc : ∀ c ∈ s.pending.head?, ¬ Instr.EndsProgramming c) : t.dev.vlt.fuses = s.dev.vlt.fuses := by
  unfold step at h
  split at h
  next c cs hp => exact (Dev.Tame.exec_follows h).fuses hr (hc c (by simp [hp]))
  · cases h
    exact (Dev.Tame.refl _).tick.fuses

/-- Settles O59: what every step changes, it changes by updates that keep the invariant. -/
theorem everyStepKeepsInv : Obligations.EveryStepKeepsInv :=
  fun _ _ hs h => (step_sound h).inv hs

/-- Settles O60: the factory's groups are written by no step; another group is, only as a programming ends or as a reset that goes on cuts one off. -/
theorem factoryFusesNeverChange : Obligations.FactoryFusesNeverChange := by
  intro s t h
  refine ⟨?_, fun hr hc => step_fuses h hr fun c hm he => ?_⟩
  · obtain ⟨hserial, hmac, hkey, hcert, hrepair⟩ := (step_sound h).factory
    exact ⟨hserial, hmac, hkey, hcert, hrepair⟩
  · obtain ⟨hf, hb, hp⟩ := hc c hm
    rcases he with rfl | rfl | ⟨n, b, r, rfl⟩
    · exact hf rfl
    · exact hb rfl
    · exact hp n b r rfl

end Sys2Proof.Machine
end

section
/-!
PROOFS. The step and the state right after reset: what a step runs, and what a reset leaves.
-/

namespace Sys2Proof.Machine

set_option Elab.async false

/-- Every command acts on the device alone. -/
theorem exec_eq_next (c : Instr) (s : State) : ∃ e, exec c s = .next { s with dev := e } := by
  unfold exec
  cases c <;> exact ⟨_, rfl⟩

theorem exec_next (c : Instr) (s : State) : ∃ t, exec c s = .next t ∧ t.pending = s.pending := by
  obtain ⟨e, he⟩ := exec_eq_next c s
  exact ⟨_, he, rfl⟩

theorem step_next (s : State) : Steps s := by
  unfold Steps step
  split
  next c _ _ =>
    obtain ⟨t, ht, -⟩ := exec_next c { s with pending := _ }
    exact ⟨t, ht⟩
  · exact ⟨_, rfl⟩

theorem safeFor (n : Nat) (s : State) : SafeFor s n := by
  induction n generalizing s with
  | zero => exact trivial
  | succ n ih =>
    obtain ⟨t, ht⟩ := step_next s
    exact ⟨t, ht, ih t⟩

/-- Settles O2: a command is an action on the device, which has no stop. -/
theorem noRunStops : Obligations.NoRunStops := ⟨exec_next, safeFor⟩

/-- Settles O1: `step` takes the front of the queue. -/
theorem stepRunsFront : Obligations.StepRunsFront := by
  intro c s
  refine ⟨rfl, fun h => ?_⟩
  rw [step, h]

/-- Settles O58: the map lists two registers, and every list has its default length. -/
theorem resetInv : Obligations.ResetInv where
  regs := rfl
  mem := rfl
  ram := rfl
  ports := rfl
  vectors := by decide
  uploads := rfl
  ptp := rfl
  quads := rfl
  enc := rfl
  win := rfl
  temps := rfl
  links := rfl
  reqs := fun _ hx => List.eq_of_mem_replicate hx ▸ rfl
  cams := rfl
  i2c := rfl
  arbs := rfl
  motAxes := rfl
  srvAxes := rfl
  cmpJ := rfl

theorem regTable_flds_forall : regTable.Forall fun row => row.flds.Forall fun f => f.reg = row.reg := by
  repeat' constructor

/-- A field in the table of a register is a field of that register. -/
theorem reg_of_mem_flds {row : Row} {f : Fld} (hr : row ∈ regTable) (hf : f ∈ row.flds) : f.reg = row.reg :=
  List.forall_iff_forall_mem.mp (List.forall_iff_forall_mem.mp regTable_flds_forall row hr) f hf

theorem reset_reg {r : Reg} {i : Nat} (hc : r.addr i ≠ R.SYS_RST_CAUSE.addr 0) (hp : r.addr i ≠ R.HL_INHIBIT_CTRL.addr 0) :
    State.reset.dev.reg r i = r.rst i % 2 ^ 64 := by
  have h : mapGet State.reset.dev.regs (r.addr i) (BitVec.ofNat 64 (r.rst i)) = BitVec.ofNat 64 (r.rst i) := by
    change r.addr i ≠ 0x1000008 at hc
    change r.addr i ≠ 0xB003000 at hp
    simp [State.reset, mapGet, hc.symm, hp.symm]
  rw [Dev.reg, h, BitVec.toNat_ofNat]

/-- Settles O57: the map lists the two registers that do not read their Reset column. -/
theorem resetValues : Obligations.ResetValues := by
  refine ⟨fun row hr f hf i _ hc hp => ?_, by decide, by decide, rfl, by decide, rfl, rfl, rfl, rfl, rfl⟩
  have h := reg_of_mem_flds hr hf
  rw [Dev.rd, h, reset_reg hc hp]

end Sys2Proof.Machine
end

section
/-!
PROOFS. A state after cast-on, and one whose list of running deltas holds an entry twice: the invariant allows it, and a count there does
not add to the delta that the list shows.
-/

namespace Sys2Proof.Machine

set_option Elab.async false

/-- The device after cast-on: a Pattern is applied, every function is ON, and time runs in the third beat. -/
def Dev.casting : Dev :=
  { State.reset.dev with
    sys := { done := true, errOut := false
             funcs := ([.dec, .enc, .f0, .nzh, .q 0, .q 1, .q 2, .q 3, .eth 0, .eth 1, .cam 0, .mot 0, .srv 0, .srv 1] : List Func).map fun f => (f, { st := .on }) }
    pat := { applied := true
             loaded := { worlds := { port := 3, master := 0xFFFFF }
                         dram := { ranks := 2 }
                         links := List.replicate 32 { enable := true, genMax := 3 }
                         gauge := { heads := [{ link := 0 }] }
                         inspect := { camMask := 1, nzh := true, cams := List.replicate 8 {} }
                         servo := [{ enable := true }, { enable := true }] } }
    tmb := { running := true, acc := 10000 * 2 ^ 32, openT := 8000, beats := 100 }
    pace := { inhibit := false, order := false } }

theorem Dev.casting_inv : Dev.casting.Inv := by
  constructor <;> decide +kernel

/-- The state that a command answers. -/
def State.after (s : State) (c : Instr) : State :=
  match exec c s with
  | .next t => t
  | _ => s

theorem State.eq_after {s t : State} {c : Instr} (h : exec c s = .next t) : t = s.after c := by
  rw [State.after, h]

/-- The running delta of a counter stands twice in the list: -n, and behind it 7. -/
def Dev.twice (d : Dev) (f : Fld) (i n : Nat) : Dev := { d with snapD := [(f.key i, -n), (f.key i, 7)] }

/-- The invariant says nothing of the running deltas. -/
theorem Dev.twice_inv {d : Dev} (h : d.Inv) (f : Fld) (i n : Nat) : (d.twice f i n).Inv := { h with }

/-- There a count of n brings the delta to 0, which takes its entry out of the list: the one behind it shows. -/
theorem Dev.delta_count_twice (d : Dev) (f : Fld) (i n : Nat) : ((d.twice f i n).count f i n).delta f i = 7 := by
  simp [Dev.delta, Dev.count, Dev.twice, mapGet, mapSet]

theorem delta_ne_of_twice {d e : Dev} {f : Fld} {i n : Nat} (h : e.snapD = ((d.twice f i n).count f i n).snapD) :
    e.delta f i ≠ (d.twice f i n).delta f i + n := by
  have he : e.delta f i = ((d.twice f i n).count f i n).delta f i := by rw [Dev.delta, Dev.delta, h]
  rw [he, Dev.delta_count_twice]
  simp [Dev.delta, Dev.twice, mapGet]

/-- A command that counts n of a counter refutes that it adds n to the running delta. -/
theorem not_adds_of_twice {c : Instr} {d : Dev} {f : Fld} {i n : Nat} {u : State} (hnext : exec c ⟨d.twice f i n, []⟩ = .next u)
    (hsnap : ((State.mk (d.twice f i n) []).after c).dev.delta f i ≠ (d.twice f i n).delta f i + n) :
    u.dev.delta f i ≠ (d.twice f i n).delta f i + n :=
  State.eq_after hnext ▸ hsnap

/-- Refutes O10: the invariant does not say that a counter's running delta stands once in its list. -/
theorem not_ethernetPorts : ¬ Obligations.EthernetPorts := by
  unfold Obligations.EthernetPorts
  intro ⟨discards, _⟩
  obtain ⟨t, hruns, hcount, _⟩ := discards 0 false ⟨Dev.casting.twice F.ETH_COUNT_DISCARD 0 1, []⟩ (by decide +kernel)
  obtain rfl := State.eq_after hruns.next
  exact delta_ne_of_twice rfl hcount

/-- Refutes O18: the invariant does not say that the running delta of a counter stands once in its list. -/
theorem not_ptpMessages : ¬ Obligations.PtpMessages := by
  unfold Obligations.PtpMessages
  intro ⟨_, _, _, _, _, _, others⟩
  obtain ⟨⟨t, hruns, hcount⟩, _⟩ := others 0 default default default ⟨Dev.casting.twice F.ETH_COUNT_DISCARD 0 1, []⟩ (by decide +kernel)
  obtain rfl := State.eq_after hruns.next
  exact delta_ne_of_twice rfl hcount

/-- A slice of one segment that the window has not returned, or has. -/
def Dev.sliced (done : Bool) : Dev :=
  { Dev.casting with las.slices := [{ en := 0, head := 0, row := 0, line := 0, q := 0, segs := [{ strip := 0, pair := false, done := done }] }] }

/-- Refutes O28: the running delta of LA_COUNT_READ_LATE stands twice, and a late segment takes out the first. -/
theorem not_windowReads : ¬ Obligations.WindowReads := by
  unfold Obligations.WindowReads
  intro ⟨_, _, deadline⟩
  obtain ⟨u, hruns, -, -, hcount⟩ := deadline ⟨(Dev.sliced false).twice F.LA_COUNT_READ_LATE 0 1, []⟩
  exact not_adds_of_twice hruns.next (by decide +kernel) hcount

/-- Refutes O30: the running delta of PE_COUNT_LINES stands twice, and a line takes out the first. -/
theorem not_lineBuilt : ¬ Obligations.LineBuilt := by
  unfold Obligations.LineBuilt
  intro ⟨counts, _⟩
  obtain ⟨u, hruns, -, hcount, -⟩ := counts 0 0 0 .none _ ⟨(Dev.sliced true).twice F.PE_COUNT_LINES 0 1, []⟩ rfl
  exact not_adds_of_twice hruns.next (by decide +kernel) hcount

/-- The device with link 0 in a state of R200. -/
def Dev.linkIn (st : Nat) : Dev := Dev.casting.wr F.HL_STAT_STATE 0 st

theorem Dev.linkIn_inv (st : Nat) : (Dev.linkIn st).Inv :=
  { Dev.casting_inv with regs := Dev.wr_rising _ _ _ _ Dev.casting_inv.regs }

/-- Refutes O34: the running delta of HL_COUNT_CRC_UP stands twice, and a bad frame takes out the first. -/
theorem not_linkFrames : ¬ Obligations.LinkFrames := by
  unfold Obligations.LinkFrames
  intro ⟨_, _, _, _, _, bad⟩
  obtain ⟨u, hruns, hcount, -⟩ := (bad 0 ⟨(Dev.linkIn 5).twice F.HL_COUNT_CRC_UP 0 1, []⟩ (Dev.twice_inv (Dev.linkIn_inv 5) _ _ _)).1
    (by decide +kernel)
  exact not_adds_of_twice hruns.next (by decide +kernel) hcount

/-- Refutes O36: the running delta of HL_COUNT_RECOVERIES stands twice, and a recovery takes out the first. -/
theorem not_linkRecovery : ¬ Obligations.LinkRecovery := by
  unfold Obligations.LinkRecovery
  intro ⟨recovers, _⟩
  obtain ⟨-, -, ⟨u, hruns, -, -, -, -, hcount, -⟩, -⟩ := recovers 0
    ⟨(Dev.linkIn 5).twice F.HL_COUNT_RECOVERIES 0 1, []⟩ (Dev.twice_inv (Dev.linkIn_inv 5) _ _ _) (by decide +kernel)
  exact not_adds_of_twice hruns.next (by decide +kernel) hcount

/-- A trigger of camera 0 waits for its line. -/
def Dev.triggered : Dev :=
  { Dev.casting with ins.cams := Dev.casting.ins.cams.set 0 { Dev.casting.cam 0 with trigs := [⟨0, 0, 0, 0, 0, 0, false, 0, false, false, false⟩] } }

theorem Dev.triggered_inv : Dev.triggered.Inv :=
  { Dev.casting_inv with cams := rfl }

/-- Refutes O40: the running delta of INS_Cc_COUNT_MISSED stands twice, and a missed line takes out the first. -/
theorem not_cameraTriggers : ¬ Obligations.CameraTriggers := by
  unfold Obligations.CameraTriggers
  intro ⟨_, _, _, _, missed⟩
  obtain ⟨u, hruns, -, hcount, -⟩ := missed 0 _ ⟨Dev.triggered.twice F.INS_Cc_COUNT_MISSED 0 1, []⟩
    (Dev.twice_inv Dev.triggered_inv _ _ _) rfl
  exact not_adds_of_twice hruns.next (by decide +kernel) hcount

/-- Refutes O41: the running delta of INS_Cc_COUNT_BAD_LINE stands twice, and a bad packet takes out the first. -/
theorem not_cameraLines : ¬ Obligations.CameraLines := by
  unfold Obligations.CameraLines
  intro ⟨_, others, _⟩
  obtain ⟨⟨u, hruns, hcount, -⟩, -⟩ := (others 0 ⟨Dev.casting.twice F.INS_Cc_COUNT_BAD_LINE 0 1, []⟩
    (Dev.twice_inv Dev.casting_inv _ _ _)).1 (by decide +kernel)
  exact not_adds_of_twice hruns.next (by decide +kernel) hcount

/-- A swatch that no camera has still to pass. -/
def Dev.swatched : Dev :=
  { Dev.casting with las.swatches := [⟨0, 0, 1, 1, 1, true, false⟩], nzh.beyond := [(0, 1)] }

theorem Dev.swatched_inv : Dev.swatched.Inv := { Dev.casting_inv with }

/-- Refutes O44: the running delta of NZ_COUNT_UNTESTED stands twice, and a verdict takes out the first. -/
theorem not_swatchesAndCameraLines : ¬ Obligations.SwatchesAndCameraLines := by
  unfold Obligations.SwatchesAndCameraLines
  intro ⟨_, _, verdict, _⟩
  obtain ⟨u, new, hruns, -, -, hcount, -⟩ := (verdict _ ⟨Dev.swatched.twice F.NZ_COUNT_UNTESTED 0 4096, []⟩
    (Dev.twice_inv Dev.swatched_inv _ _ _) rfl).1 (by decide +kernel) (by decide +kernel)
  exact not_adds_of_twice hruns.next (by decide +kernel) hcount

/-- Rank 0 of channel 0 owes 4 refreshes. -/
def Dev.owing : Dev := Dev.casting.wr F.DM_REFRESH_P0 0 4

theorem Dev.owing_inv : Dev.owing.Inv :=
  { Dev.casting_inv with regs := Dev.wr_rising _ _ _ _ Dev.casting_inv.regs }

/-- Refutes O47: the running delta of DM_REFRESH_FORCED stands twice, and a forced refresh takes out the first. -/
theorem not_dramUpkeep : ¬ Obligations.DramUpkeep := by
  unfold Obligations.DramUpkeep
  intro ⟨_, _, _, _, _, refresh, _⟩
  obtain ⟨-, -, -, forced⟩ := refresh 0 0 ⟨Dev.owing.twice F.DM_REFRESH_FORCED 0 1, []⟩ (Dev.twice_inv Dev.owing_inv _ _ _)
  obtain ⟨u, hruns, -, hcount, -⟩ := forced (by decide +kernel)
  exact not_adds_of_twice hruns.next (by decide +kernel) hcount

/-- Requester 0 holds channel 0. -/
def Dev.holding : Dev :=
  { Dev.casting with drm.arbs := Dev.casting.drm.arbs.set 0 { Dev.casting.arb 0 with holder := some ⟨0, 0, 0, 0, 1⟩ } }

theorem Dev.holding_inv : Dev.holding.Inv := { Dev.casting_inv with arbs := rfl }

/-- Refutes O48: the running delta of MF_COUNT_HOLD_CUTS stands twice, and a cut takes out the first. -/
theorem not_arbitration : ¬ Obligations.Arbitration := by
  unfold Obligations.Arbitration
  intro ⟨_, cut, _⟩
  obtain ⟨u, hruns, -, hcount, -⟩ := (cut 0 _ ⟨Dev.holding.twice F.MF_COUNT_HOLD_CUTS 0 1, []⟩ (Dev.twice_inv Dev.holding_inv _ _ _)).2 rfl
  exact not_adds_of_twice hruns.next (by decide +kernel) hcount

/-- Refutes O53: the running delta of MOT_n_COUNT_CHATTER stands twice, and a chattering switch takes out the first. -/
theorem not_axisMotion : ¬ Obligations.AxisMotion := by
  unfold Obligations.AxisMotion
  intro ⟨_, _, _, _, faults, _⟩
  obtain ⟨-, -, -, chatter⟩ := faults 0 false ⟨Dev.casting.twice F.MOT_n_COUNT_CHATTER 0 1, []⟩ (Dev.twice_inv Dev.casting_inv _ _ _)
  obtain ⟨-, ⟨u, hruns, -, -, hcount⟩, -⟩ := chatter (by decide +kernel)
  exact not_adds_of_twice hruns.next (by decide +kernel) hcount

/-- Servo axis 0 alone commutates from Hall input 0. -/
def Dev.hallServo : Dev :=
  { Dev.casting with pat.loaded.servo := [{ enable := true }, { enable := true, commutation := 1 }] }

theorem Dev.hallServo_inv : Dev.hallServo.Inv := { Dev.casting_inv with }

/-- Refutes O55: the running delta of SV_a_COUNT_HALL_ERR stands twice, and an impossible code takes out the first. -/
theorem not_servoLoop : ¬ Obligations.ServoLoop := by
  unfold Obligations.ServoLoop
  intro ⟨_, _, _, _, hall⟩
  obtain ⟨-, -, -, -, illegal⟩ := hall 0 0 0 0 0 0 ⟨Dev.hallServo.twice F.SV_a_COUNT_HALL_ERR 0 1, []⟩ (Dev.twice_inv Dev.hallServo_inv _ _ _)
  obtain ⟨u, hruns, -, hcount⟩ := illegal (by decide +kernel) rfl (by decide +kernel)
  exact not_adds_of_twice hruns.next (by decide +kernel) hcount

/-- The first granule of DRAM is uncorrectable. -/
def Dev.badGranule : Dev := { Dev.casting with ue := [0] }

theorem Dev.badGranule_inv : Dev.badGranule.Inv := { Dev.casting_inv with }

/-- Refutes O46: the running delta of DM_ECC_COUNT_UNCORR stands twice, and an uncorrectable granule takes out the first. -/
theorem not_dramAccesses : ¬ Obligations.DramAccesses := by
  unfold Obligations.DramAccesses
  intro ⟨reads, _⟩
  obtain ⟨-, -, -, bad, -⟩ := reads 0 0 [] ⟨Dev.badGranule.twice F.DM_ECC_COUNT_UNCORR 0 1, []⟩ (Dev.twice_inv Dev.badGranule_inv _ _ _)
  obtain ⟨u, hruns, hcount, -⟩ := bad (by decide +kernel) (by decide +kernel)
  exact not_adds_of_twice hruns.next (by decide +kernel) hcount

theorem Dev.sliced_inv (done : Bool) : (Dev.sliced done).Inv := { Dev.casting_inv with }

/-- Refutes O15: the running delta of PE_COUNT_OVERRUN stands twice, and an abandoned line takes out the first. -/
theorem not_beatBoundary : ¬ Obligations.BeatBoundary := by
  unfold Obligations.BeatBoundary
  intro ⟨opens, _⟩
  obtain ⟨-, clauses, -⟩ := opens 0 ⟨(Dev.sliced false).twice F.PE_COUNT_OVERRUN 0 1, []⟩
    (Dev.twice_inv (Dev.sliced_inv false) _ _ _) rfl (by decide +kernel) (by decide +kernel) (by decide +kernel) (by decide +kernel)
  obtain ⟨u, hnext, hover, -⟩ := clauses (by decide)
  obtain ⟨-, hcount⟩ := hover 0 _ _ rfl
  exact absurd (State.eq_after hnext ▸ hcount) (by decide +kernel)

end Sys2Proof.Machine
end

section
/-!
PROOFS. Statements that a state refutes in which two things that the device keeps of one fact disagree: the invariant says nothing of it.
-/

namespace Sys2Proof.Machine

set_option Elab.async false

/-- The first word of the history map holds a bit that no field and no 32-bit write reaches. -/
def Dev.wideWord : Dev := Dev.casting.setReg R.PE_HIST_MAP 0 (2 ^ 32)

theorem Dev.wideWord_inv : Dev.wideWord.Inv :=
  { Dev.casting_inv with regs := Dev.setReg_rising _ _ _ _ Dev.casting_inv.regs }

/-- Refutes O31: the invariant allows a bit above 31 in the word of a 32-bit register; no field covers it, and the write leaves it. -/
theorem not_sharedTables : ¬ Obligations.SharedTables := by
  unfold Obligations.SharedTables
  intro ⟨words, _⟩
  obtain ⟨u, hruns, hword, -⟩ := words .internal R.PE_HIST_MAP 32 0 0 ⟨Dev.wideWord, []⟩ Dev.wideWord_inv (.inl ⟨rfl, rfl⟩)
    (by decide) (by decide +kernel)
  exact absurd (State.eq_after hruns.next ▸ hword) (by decide +kernel)

/-- Nozzle 0 stands twice in the list of accumulators. -/
def Dev.accTwice : Dev := { Dev.casting with nzh.acc := [(0, { n := 5000, e := 1 }), (0, { n := 5000, e := 1 })] }

theorem Dev.accTwice_inv : Dev.accTwice.Inv := { Dev.casting_inv with }

/-- Refutes O43: a nozzle stands twice in the list of accumulators, and closing its window clears the first alone. -/
theorem not_nozzleVerdicts : ¬ Obligations.NozzleVerdicts := by
  unfold Obligations.NozzleVerdicts
  intro closes
  obtain ⟨-, close⟩ := closes 0 ⟨Dev.accTwice, []⟩ Dev.accTwice_inv
  obtain ⟨⟨u, hruns, hacc⟩, -⟩ := close (by decide +kernel) (by decide +kernel)
  exact absurd (State.eq_after hruns.next ▸ hacc) (by decide +kernel)

/-- Neither spare of the analog channels is free. -/
def Dev.noSpare : Dev := { Dev.casting with trm.badSpares := [0, 1] }

theorem Dev.noSpare_inv : Dev.noSpare.Inv := { Dev.casting_inv with }

/-- Refutes O56: the running delta of MOT_n_COUNT_STOPS stands twice, and the stop takes out the first. -/
theorem not_trimAndSpares : ¬ Obligations.TrimAndSpares := by
  unfold Obligations.TrimAndSpares
  intro ⟨_, _, _, _, _, stuck⟩
  obtain ⟨-, -, -, -, -, -, -, lost, -⟩ := stuck 0 0 0 0 0 ⟨Dev.noSpare.twice F.MOT_n_COUNT_STOPS 0 1, []⟩ (Dev.twice_inv Dev.noSpare_inv _ _ _)
  obtain ⟨u, hruns, -, -, -, -, hstops⟩ := lost (by decide +kernel) (by decide +kernel) rfl
  obtain ⟨-, -, -, -, -, hcount, -⟩ := hstops (by decide +kernel)
  exact not_adds_of_twice hruns.next (by decide +kernel) (hcount (by decide)).1

/-- The inhibit is asserted and its register does not show it. -/
def Dev.hiddenInhibit : Dev := { Dev.casting with pace.inhibit := true }.wr F.HL_INHIBIT_CTRL_ACTIVE 0 0

theorem Dev.hiddenInhibit_inv : Dev.hiddenInhibit.Inv :=
  { Dev.casting_inv with regs := Dev.wr_rising _ _ _ _ Dev.casting_inv.regs }

/-- Refutes O12: an inhibit that is asserted already is not shown again, and the invariant does not tie ACTIVE to it. -/
theorem not_resets : ¬ Obligations.Resets := by
  unfold Obligations.Resets
  intro ⟨rstn, _⟩
  obtain ⟨u, hruns, -, -, hactive, -⟩ := rstn 100 ⟨Dev.hiddenInhibit, []⟩ Dev.hiddenInhibit_inv rfl (by decide)
  exact absurd (State.eq_after hruns.next ▸ hactive) (by decide +kernel)
/-- A granule that port 0 has fetched came back with a miscorrected code word. -/
def Dev.misfetched : Dev := { Dev.casting with drm.fetched := [⟨10, 0, [0]⟩] }

theorem Dev.misfetched_inv : Dev.misfetched.Inv := { Dev.casting_inv with }

/-- Refutes O6: the store of one byte meets a code word that the port has fetched miscorrected, and takes an open value. -/
theorem not_apertureReachesDram : ¬ Obligations.ApertureReachesDram := by
  unfold Obligations.ApertureReachesDram
  intro ⟨_, _, _, writes, _⟩
  obtain ⟨u, hruns, -⟩ := writes 0 0 [0] ⟨Dev.misfetched, []⟩ Dev.misfetched_inv rfl (by decide +kernel) (by decide) (by decide +kernel) rfl
  have hfree : u.dev.freeCtr = Dev.misfetched.freeCtr := hruns.parts .freeCtr (by decide)
  exact absurd (State.eq_after hruns.next ▸ hfree) (by decide +kernel)

end Sys2Proof.Machine
end

section
/-!
PROOFS. Frames, register writes and claims; and counterexamples in the hosts, the tracker, cast-on and the axes.
-/

namespace Sys2Proof.Machine

set_option Elab.async false

/-- A copy of no counters into DRAM runs, and a granule that it will read came back with a miscorrected code word beyond its header. -/
def Dev.copyMisfetched : Dev :=
  { Dev.casting with
    drm.fetched := [⟨12, 0, [4]⟩]
    hst.ports := [{ snap := { running := true, dram := true } }, {}] }

theorem Dev.copyMisfetched_inv : Dev.copyMisfetched.Inv := { Dev.casting_inv with vectors := by decide }

/-- Refutes O9: the end of a copy into DRAM meets a miscorrected code word that an earlier read has fetched, and takes a free value for it. -/
theorem not_snapshots : ¬ Obligations.Snapshots := by
  unfold Obligations.Snapshots
  intro ⟨_, _, _, ends, _⟩
  obtain ⟨u, hruns, -⟩ := (ends 0 ⟨Dev.copyMisfetched, []⟩ Dev.copyMisfetched_inv rfl).2 rfl (by decide +kernel) rfl
  have hfree : u.dev.freeCtr = Dev.copyMisfetched.freeCtr := hruns.parts .freeCtr (by decide)
  exact absurd (State.eq_after hruns.next ▸ hfree) (by decide +kernel)

/-- Firing was released and resumes with the next page: the inhibit still shows ACTIVE, a page is queued, and cues are enabled. -/
def Dev.resuming : Dev :=
  ((({ Dev.casting with pace.released := some 5000, cdc.pages := [{ uid := 1 }] }.wr F.HL_INHIBIT_CTRL_ACTIVE 0 1).wr F.HL_INHIBIT_CTRL_RESUME 0 1).wr
    F.WT_CUE_CFG_ENABLE 0 1).wr F.WT_STAT_STATE 0 2

theorem Dev.resuming_inv : Dev.resuming.Inv :=
  { Dev.casting_inv with
    regs :=
      Dev.wr_rising _ _ _ _ (Dev.wr_rising _ _ _ _ (Dev.wr_rising _ _ _ _ (Dev.wr_rising _ _ _ _ Dev.casting_inv.regs))) }

/-- Refutes O23: an accepted cue that ends a release shows it in HL_INHIBIT_CTRL, which is none of the registers listed. -/
theorem not_pageCues : ¬ Obligations.PageCues := by
  unfold Obligations.PageCues
  intro ⟨accepts, _⟩
  obtain ⟨⟨u, hruns, -⟩, -⟩ := accepts 6000 { uid := 1 } ⟨Dev.resuming, []⟩ Dev.resuming_inv (by decide) (by decide +kernel) rfl rfl
    (.inl (by decide +kernel)) (by intro q h; cases h)
  have hreg : mapGet u.dev.regs (R.HL_INHIBIT_CTRL.addr 0) 0 = mapGet Dev.resuming.regs (R.HL_INHIBIT_CTRL.addr 0) 0 :=
    hruns.regs (R.HL_INHIBIT_CTRL.addr 0) (by decide +kernel) 0
  exact absurd (State.eq_after hruns.next ▸ hreg) (by decide +kernel)

/-- Servo axis 0 is OFF; it commutates from its feedback, and ECYCLE is 0. -/
def Dev.noCycle : Dev :=
  { Dev.casting with
    sys.funcs := []
    pat.loaded.servo := [{ enable := true, feedback := 2, commutation := 2 }, { enable := true }] }.wr F.SV_a_COMM_ECYCLE 0 0

theorem Dev.noCycle_inv : Dev.noCycle.Inv := { Dev.casting_inv with regs := Dev.wr_rising _ _ _ _ Dev.casting_inv.regs }

/-- Refutes O14: the start of a servo axis with ECYCLE 0 takes a free value for its angle. -/
theorem not_bindOffAndFunctions : ¬ Obligations.BindOffAndFunctions := by
  unfold Obligations.BindOffAndFunctions
  intro ⟨_, _, enables, _⟩
  obtain ⟨starts, -⟩ := enables .p0 (.srv 0) ⟨Dev.noCycle, []⟩ Dev.noCycle_inv (by decide +kernel)
  obtain ⟨u, hruns, -⟩ := starts (by decide +kernel) (by decide +kernel)
  have hfree : u.dev.freeCtr = Dev.noCycle.freeCtr := hruns.parts .freeCtr (by decide)
  exact absurd (State.eq_after hruns.next ▸ hfree) (by decide +kernel)

/-- Stepper axis 0 is stopping, and starts again after that. -/
def Dev.restarting : Dev :=
  { Dev.casting with sys.funcs := [(.mot 0, { st := .stopping, kept := some true })] }.wr F.MOT_n_STAT_ENABLE_PENDING 0 1

theorem Dev.restarting_inv : Dev.restarting.Inv := { Dev.casting_inv with regs := Dev.wr_rising _ _ _ _ Dev.casting_inv.regs }

/-- Refutes O52: a write of ENABLE 0 on a stopping axis that starts again clears ENABLE_PENDING in MOT_n_STAT. -/
theorem not_axisRequests : ¬ Obligations.AxisRequests := by
  unfold Obligations.AxisRequests
  intro ⟨_, _, _, _, source, _⟩
  obtain ⟨-, same⟩ := source .p0 0 0 ⟨Dev.restarting, []⟩ Dev.restarting_inv (by decide +kernel)
  obtain ⟨u, hruns, -⟩ := same (by decide +kernel) (by decide +kernel)
  have hreg : mapGet u.dev.regs (R.MOT_n_STAT.addr 0) 0 = mapGet Dev.restarting.regs (R.MOT_n_STAT.addr 0) 0 :=
    hruns.regs (R.MOT_n_STAT.addr 0) (by decide) 0
  exact absurd (State.eq_after hruns.next ▸ hreg) (by decide +kernel)

/-- Cast-on is in step 8 with good slot tables, and the memory front holds an encode job. -/
def Dev.holdingEncode : Dev :=
  (({ Dev.casting with
      sys.done := false, sys.castOn := true
      drm.held := [.encode 0]
      cdc.enc := [{ source := some (0, 0) }, {}, {}, {}] }.wr F.SYS_CASTON_STAT_STEP 0 8).setReg R.MF_SLOT_ACTIVE 0 0x1E1E0A1E).setReg
    R.MF_SLOT_ACTIVE 16 0x1E1E0A1E

theorem Dev.holdingEncode_inv : Dev.holdingEncode.Inv :=
  { Dev.casting_inv with
    regs := Dev.setReg_rising _ _ _ _ (Dev.setReg_rising _ _ _ _ (Dev.wr_rising _ _ _ _ Dev.casting_inv.regs)) }

/-- Refutes O13: as step 9 begins, the held encode job that the memory front takes changes the codec. -/
theorem not_castOn : ¬ Obligations.CastOn := by
  unfold Obligations.CastOn
  intro ⟨goesOn, _⟩
  obtain ⟨u, hruns, -⟩ := goesOn {} ⟨Dev.holdingEncode, []⟩ Dev.holdingEncode_inv rfl (by decide +kernel)
  have hcdc : u.dev.cdc = Dev.holdingEncode.cdc := hruns.parts .cdc (by decide)
  have hsource : (u.dev.enc 0).source = (Dev.holdingEncode.enc 0).source := by rw [Dev.enc, Dev.enc, hcdc]
  exact absurd (State.eq_after hruns.next ▸ hsource) (by decide +kernel)

/-! ### Frames -/

/-- From d to e nothing but the listed parts and the registers at the listed offsets has changed, and the register map is still in order. -/
structure Dev.ChangesOnly (d e : Dev) (ps : List Part) (rs : List Nat) : Prop where
  parts : d.Keeps e ps
  regs : d.KeepsRegs e rs
  rising : keysRising 0 d.regs = true → keysRising 0 e.regs = true

section
variable {d e e' : Dev} {ps : List Part} {rs : List Nat}

theorem Part.same_rfl (p : Part) (d : Dev) : p.same d d := by cases p <;> rfl

theorem Part.same_trans {p : Part} {d e f : Dev} (h : p.same d e) (h' : p.same e f) : p.same d f := by
  cases p <;> exact Eq.trans h' h

theorem Dev.ChangesOnly.keep : d.ChangesOnly d ps rs :=
  ⟨fun p _ => p.same_rfl d, fun _ _ _ => rfl, id⟩

theorem Dev.ChangesOnly.trans (h : d.ChangesOnly e ps rs) (h' : e.ChangesOnly e' ps rs) : d.ChangesOnly e' ps rs :=
  ⟨fun p hp => Part.same_trans (h.parts p hp) (h'.parts p hp), fun a ha w => (h'.regs a ha w).trans (h.regs a ha w), h'.rising ∘ h.rising⟩

theorem Dev.ChangesOnly.mono {qs : List Part} {ts : List Nat} (h : d.ChangesOnly e qs ts) (hp : ∀ p ∈ qs, p ∈ ps) (hr : ∀ a ∈ ts, a ∈ rs) :
    d.ChangesOnly e ps rs :=
  ⟨fun p hn => h.parts p (hn ∘ hp p), fun a hn => h.regs a (hn ∘ hr a), h.rising⟩

/-- Setting a register changes no part. -/
theorem Dev.ChangesOnly.setReg {r : Reg} {i v : Nat} (h : d.ChangesOnly e ps rs) (hr : r.addr i ∈ rs) : d.ChangesOnly (e.setReg r i v) ps rs where
  parts p hp := Part.same_trans (h.parts p hp) (by cases p <;> rfl)
  regs a ha w := (mapGet_mapSet_ne _ _ _ _ fun (hc : a = r.addr i) => ha (hc ▸ hr)).trans (h.regs a ha w)
  rising hd := Dev.setReg_rising _ _ _ _ (h.rising hd)

theorem Dev.ChangesOnly.wr {f : Fld} {i v : Nat} (h : d.ChangesOnly e ps rs) (hr : f.reg.addr i ∈ rs) : d.ChangesOnly (e.wr f i v) ps rs :=
  h.setReg hr

theorem Dev.ChangesOnly.wrB {f : Fld} {i : Nat} {b : Bool} (h : d.ChangesOnly e ps rs) (hr : f.reg.addr i ∈ rs) :
    d.ChangesOnly (e.wrB f i b) ps rs := h.setReg hr

theorem Dev.ChangesOnly.wrS {f : Fld} {i : Nat} {v : Int} (h : d.ChangesOnly e ps rs) (hr : f.reg.addr i ∈ rs) :
    d.ChangesOnly (e.wrS f i v) ps rs := h.setReg hr

theorem Dev.ChangesOnly.wrBit {f : Fld} {b i : Nat} {v : Bool} (h : d.ChangesOnly e ps rs) (hr : f.reg.addr i ∈ rs) :
    d.ChangesOnly (e.wrBit f b i v) ps rs := h.setReg hr

theorem Dev.ChangesOnly.bump {f : Fld} {i n : Nat} (h : d.ChangesOnly e ps rs) (hr : f.reg.addr i ∈ rs) :
    d.ChangesOnly (e.bump f i n) ps rs := h.setReg hr

theorem Dev.ChangesOnly.regWrite {row : Row} {i v mask : Nat} (h : d.ChangesOnly e ps rs) (hr : row.reg.addr i ∈ rs) :
    d.ChangesOnly (e.regWrite row i v mask) ps rs :=
  h.setReg hr

/-- A change of listed parts that leaves the registers. -/
theorem Dev.ChangesOnly.part (h : d.ChangesOnly e ps rs) (hs : ∀ p, p ∉ ps → p.same e e') (hr : e'.regs = e.regs) : d.ChangesOnly e' ps rs :=
  ⟨fun p hp => Part.same_trans (h.parts p hp) (hs p hp), fun a ha w => hr ▸ h.regs a ha w, hr ▸ h.rising⟩

/-- The codes of events that the summary status shows (R366). -/
def summaryCodes : List Nat := lineLossCodes ++ [0x1101, 0x1204, 0x1005, 0x0E03, 0x0E04, 0x0401]

theorem Dev.summary_of_not_mem {code : Nat} (h : code ∉ summaryCodes) (d : Dev) (p : List Byte) : d.summary code p = d := by
  simp only [summaryCodes, List.mem_append, List.mem_cons, List.not_mem_nil, not_or, or_false] at h
  obtain ⟨h0, h1, h2, h3, h4, h5, h6⟩ := h
  simp [Dev.summary, h0, h1, h2, h3, h4, h5, h6]

theorem Dev.ChangesOnly.raise {t : Dest} {code : Nat} {p : List (Nat × Nat)} (h : d.ChangesOnly e ps rs) (hp : Part.raised ∈ ps)
    (hc : code ∉ summaryCodes ∨ R.SYS_FAULT_STAT.addr 0 ∈ rs) : d.ChangesOnly (e.raise t code p) ps rs := by
  have hsum : d.ChangesOnly (e.summary code (pack p)) ps rs := by
    rcases hc with hc | hc
    · rwa [Dev.summary_of_not_mem hc]
    · rcases Dev.summary_cases e code (pack p) with e' | e' | e' | e' <;> rw [e']
      · exact h
      all_goals exact h.wr hc
  refine hsum.part (fun q hq => ?_) rfl
  cases q <;> simp_all [Part.same]

theorem Dev.touch_eq (d : Dev) (m : Master) : d.touch m = { d with bus := (d.touch m).bus } := by cases m <;> rfl

theorem Dev.ChangesOnly.touch (d : Dev) (m : Master) (rs : List Nat) (hp : Part.bus ∈ ps) : d.ChangesOnly (d.touch m) ps rs := by
  rw [Dev.touch_eq]
  refine Dev.ChangesOnly.keep.part (fun q hq => ?_) rfl
  cases q <;> simp_all [Part.same]

/-! ### What a frame leaves -/

theorem Dev.ChangesOnly.rd (h : d.ChangesOnly e ps rs) {f : Fld} {i : Nat} (hr : f.reg.addr i ∉ rs) : e.rd f i = d.rd f i := by
  rw [Dev.rd, Dev.rd, Dev.reg, Dev.reg, h.regs _ hr]

/-- The registers that an event's words come from: the beat in progress, the steps, and whether a ring is enabled. -/
def eventRegs : List Nat := [R.GL_BEAT.addr 0, R.TB_STATE.addr 0, R.HST_EVR_CFG.addr 0, R.HST_EVR_CFG.addr 1]

theorem Dev.ChangesOnly.event (h : d.ChangesOnly e ps rs) (hp : Part.pat ∉ ps) (hr : ∀ a ∈ eventRegs, a ∉ rs) (t : Dest) (code : Nat)
    (p : List (Nat × Nat)) : e.event t code p = d.event t code p := by
  have hbeat : e.beat = d.beat := h.rd (hr _ (by decide))
  have hsteps : e.steps = d.steps := h.rd (hr _ (by decide))
  have hring (q : Fin 2) : e.ringOn q = d.ringOn q := by
    have hrd : e.rd F.HST_EVR_CFG_ENABLE q = d.rd F.HST_EVR_CFG_ENABLE q := h.rd (hr _ (by fin_cases q <;> decide))
    rw [Dev.ringOn, Dev.on, hrd, Dev.ringOn, Dev.on]
  have hsecure (q : Fin 2) : e.portSecure q = d.portSecure q := Dev.portSecure_congr q (h.parts .pat hp)
  have hto (q : Fin 2) : e.addressed t q = d.addressed t q := by cases t <;> simp only [Dev.addressed, hring, hsecure]
  simp only [Dev.event, hbeat, hsteps, hto]

theorem Dev.raise_raised (d : Dev) (t : Dest) (code : Nat) (p : List (Nat × Nat)) :
    (d.raise t code p).raised = d.raised ++ [d.event t code p] := by
  have hsum : d.ChangesOnly (d.summary code (pack p)) [] [R.SYS_FAULT_STAT.addr 0] := by
    rcases Dev.summary_cases d code (pack p) with e | e | e | e <;> rw [e]
    · exact .keep
    all_goals exact .wr .keep List.mem_cons_self
  have hbeat : (d.summary code (pack p)).beat = d.beat := hsum.rd (by decide)
  rw [← hsum.event (by simp) (by decide) t code p, Dev.raise, Dev.raiseAt, Dev.event, hbeat]
  simp only [Dev.summary_raised]

/-! ### Runs -/

end

section
variable {c : Instr} {s : State} {ps : List Part} {rs : List Nat}

theorem Runs.act {e : Dev} (f : Dev → Dev) (hx : exec c s = s.act f) (he : f s.dev = e) (h : s.dev.ChangesOnly e ps rs) :
    Runs c s { s with dev := e } ps rs :=
  ⟨by rw [hx, State.act_next, he], rfl, h.parts, h.regs⟩

/-- A command that posts its events in order. -/
theorem Runs.inOrder {e : Dev} (f : Dev → Dev) (hx : exec c s = s.actInOrder f) (he : f s.dev = e)
    (ho : e.orderEvents s.dev.raised.length = e) (h : s.dev.ChangesOnly e ps rs) : Runs c s { s with dev := e } ps rs :=
  ⟨by rw [hx, State.actInOrder_next, he, ho], rfl, h.parts, h.regs⟩

variable {m : Master} {r : Reg} {i : Nat}

theorem Dev.writeTo_of_takes {d : Dev} (h : d.Takes m r i) (f : Dev → Dev) : d.writeTo m r i f = f (d.touch m) := by
  simp [Dev.writeTo, h.1, h.2]

theorem Runs.writes {e : Dev} (f : Dev → Dev) (hx : exec c s = s.act fun d => d.writeTo m r i f) (ht : s.dev.Takes m r i)
    (he : f (s.dev.touch m) = e) (h : s.dev.ChangesOnly e ps rs) : Runs c s { s with dev := e } ps rs :=
  ⟨by rw [hx, State.act_next, Dev.writeTo_of_takes ht, he], rfl, h.parts, h.regs⟩

theorem Ignored.act (f : Dev → Dev) (hx : exec c s = s.act f) (he : f s.dev = s.dev) : Ignored c s := by rw [Ignored, hx, State.act_next, he]

end

/-! ### Several register writes in a row -/

section
variable {α : Type} [DecidableEq α] {l : List (Nat × α)} (k₁ k₂ k₃ k₄ k₅ : Nat) (v₁ v₂ v₃ v₄ v₅ d₁ d₂ d₃ d₄ d₅ : α)

theorem keysRising_mapSet_two (h : keysRising 0 l = true) : keysRising 0 (mapSet (mapSet l k₁ v₁ d₁) k₂ v₂ d₂) = true :=
  keysRising_mapSet _ _ _ (keysRising_mapSet _ _ _ h)

theorem keysRising_mapSet_three (h : keysRising 0 l = true) :
    keysRising 0 (mapSet (mapSet (mapSet l k₁ v₁ d₁) k₂ v₂ d₂) k₃ v₃ d₃) = true :=
  keysRising_mapSet _ _ _ (keysRising_mapSet_two _ _ _ _ _ _ h)

theorem keysRising_mapSet_four (h : keysRising 0 l = true) :
    keysRising 0 (mapSet (mapSet (mapSet (mapSet l k₁ v₁ d₁) k₂ v₂ d₂) k₃ v₃ d₃) k₄ v₄ d₄) = true :=
  keysRising_mapSet _ _ _ (keysRising_mapSet_three _ _ _ _ _ _ _ _ _ h)

theorem keysRising_mapSet_five (h : keysRising 0 l = true) :
    keysRising 0 (mapSet (mapSet (mapSet (mapSet (mapSet l k₁ v₁ d₁) k₂ v₂ d₂) k₃ v₃ d₃) k₄ v₄ d₄) k₅ v₅ d₅) = true :=
  keysRising_mapSet _ _ _ (keysRising_mapSet_four _ _ _ _ _ _ _ _ _ _ _ _ h)
end

/-! ### Register writes -/

theorem Dev.store_of_hit {r : Reg} {i : Nat} {h : Hit} (hf : findReg (r.addr i) regTable = some h) (d : Dev) (v mask : Nat) :
    d.store r i v mask = d.regWrite h.row h.idx v mask := by rw [Dev.store, hf]

/-! ### What a write leaves in a field -/

section
variable {w o n k : Nat}

theorem testBit_complement (hk : k < 2 ^ w) (j : Nat) : (2 ^ w - 1 - k).testBit j = (decide (j < w) && !k.testBit j) := by
  rw [← Nat.testBit_two_pow_sub_succ hk, Nat.sub_sub, Nat.add_comm]

theorem testBit_of_le (ho : o < 2 ^ w) {j : Nat} (hj : ¬ j < w) : o.testBit j = false :=
  Nat.testBit_lt_two_pow (ho.trans_le (Nat.pow_le_pow_right (by decide) (by omega)))

theorem xor_land_eq_merge (ho : o < 2 ^ w) (hk : k < 2 ^ w) :
    Nat.xor o (Nat.land (Nat.xor o n) k) = Nat.lor (Nat.land o (2 ^ w - 1 - k)) (Nat.land n k) := by
  refine Nat.eq_of_testBit_eq fun j => ?_
  change (o ^^^ ((o ^^^ n) &&& k)).testBit j = ((o &&& (2 ^ w - 1 - k)) ||| (n &&& k)).testBit j
  simp only [Nat.testBit_xor, Nat.testBit_and, Nat.testBit_or, testBit_complement hk]
  by_cases hj : j < w
  · cases o.testBit j <;> cases n.testBit j <;> cases k.testBit j <;> simp [hj]
  · simp [testBit_of_le ho hj, testBit_of_le hk hj]

theorem xor_land_eq_clear (ho : o < 2 ^ w) (hk : k < 2 ^ w) :
    Nat.xor o (Nat.land o (Nat.land n k)) = Nat.land o (2 ^ w - 1 - Nat.land n k) := by
  have hnk : Nat.land n k < 2 ^ w := (Nat.and_le_right (n := n) (m := k)).trans_lt hk
  refine Nat.eq_of_testBit_eq fun j => ?_
  change (o ^^^ (o &&& Nat.land n k)).testBit j = (o &&& (2 ^ w - 1 - Nat.land n k)).testBit j
  simp only [Nat.testBit_xor, Nat.testBit_and, testBit_complement hnk]
  by_cases hj : j < w
  · cases o.testBit j <;> cases (Nat.land n k).testBit j <;> simp [hj]
  · simp [testBit_of_le ho hj]

end

/-- The types of R8, on the field alone. -/
theorem Fld.after_mod (f : Fld) (locked : Bool) (old new mask : Nat) :
    f.after locked old new mask % 2 ^ f.w = f.written locked (fieldOf f.lo f.w old) (fieldOf f.lo f.w new) (fieldOf f.lo f.w mask) := by
  have ho := fieldOf_lt f.lo f.w old
  have hn := fieldOf_lt f.lo f.w new
  have hk := fieldOf_lt f.lo f.w mask
  have hland : Nat.land (fieldOf f.lo f.w new) (fieldOf f.lo f.w mask) < 2 ^ f.w := Nat.and_le_right.trans_lt hk
  have hclear : Nat.land (fieldOf f.lo f.w old) (2 ^ f.w - 1 - Nat.land (fieldOf f.lo f.w new) (fieldOf f.lo f.w mask)) < 2 ^ f.w :=
    Nat.and_le_left.trans_lt ho
  have hset : Nat.lor (fieldOf f.lo f.w old) (Nat.land (fieldOf f.lo f.w new) (fieldOf f.lo f.w mask)) < 2 ^ f.w := Nat.or_lt_two_pow ho hland
  unfold Fld.after Fld.written
  simp only [xor_land_eq_merge ho hk, xor_land_eq_clear ho hk]
  cases f.ty with
  | rw => by_cases h : fieldOf f.lo f.w mask = 0 <;> simp [h, Nat.mod_eq_of_lt ho]
  | rwl => by_cases h : fieldOf f.lo f.w mask = 0 <;> cases locked <;> simp [h, Nat.mod_eq_of_lt ho]
  | w1c => exact Nat.mod_eq_of_lt hclear
  | w1s => exact Nat.mod_eq_of_lt hset
  | ro | wo | snap => exact Nat.mod_eq_of_lt ho

/-- Two fields of a register share no bit. -/
def Fld.Apart (f g : Fld) : Prop := f.lo + f.w ≤ g.lo ∨ g.lo + g.w ≤ f.lo

theorem fieldOf_setAll (x : Fld → Nat) (fs : List Fld) (v : Nat) {f : Fld} (hf : ∀ g ∈ fs, g.Apart f) :
    fieldOf f.lo f.w (fs.foldl (fun acc g => fieldSet g.lo g.w acc (x g)) v) = fieldOf f.lo f.w v := by
  induction fs generalizing v with
  | nil => rfl
  | cons g gs ih =>
    rw [List.foldl_cons, ih _ fun h hh => hf h (List.mem_cons_of_mem _ hh)]
    exact fieldOf_fieldSet_ne _ _ _ _ _ _ (hf g List.mem_cons_self).symm

/-- Fields that are set one after another each keep what they were set to. -/
theorem fieldOf_setAll_self (x : Fld → Nat) {fs : List Fld} (hfs : fs.Pairwise fun f g => g.Apart f) (v : Nat) {f : Fld} (hf : f ∈ fs) :
    fieldOf f.lo f.w (fs.foldl (fun acc g => fieldSet g.lo g.w acc (x g)) v) = x f % 2 ^ f.w := by
  induction fs generalizing v with
  | nil => cases hf
  | cons g gs ih =>
    obtain ⟨hg, hgs⟩ := List.pairwise_cons.mp hfs
    rw [List.foldl_cons]
    rcases List.mem_cons.mp hf with rfl | hf
    · rw [fieldOf_setAll x gs _ hg, fieldOf_fieldSet]
    · exact ih hgs _ hf

/-- A row's fields lie in its register, apart from each other, and none is empty. -/
def Row.Fits (row : Row) : Prop :=
  (row.flds.Pairwise fun f g => g.Apart f) ∧ ∀ f ∈ row.flds, 0 < f.w ∧ f.lo + f.w ≤ row.reg.width ∧ row.reg.width ≤ 64

/-- What a write leaves in a field of its register (R8). -/
theorem Dev.rd_regWrite {row : Row} (hrow : row.Fits) {f : Fld} (hf : f ∈ row.flds) (hreg : f.reg = row.reg) (d : Dev) (i v mask : Nat)
    (hr : keysRising 0 d.regs = true) :
    (d.regWrite row i v mask).rd f i = f.written d.sys.locked (d.rd f i) (fieldOf f.lo f.w v) (fieldOf f.lo f.w mask) := by
  have hfit := hrow.2 f hf
  rw [Dev.rd, hreg, Dev.regWrite, Dev.reg_setReg_self _ _ _ _ hr, fieldOf_mod _ _ _ (by omega), fieldOf_setAll_self _ hrow.1 _ hf,
    Fld.after_mod, Dev.rd, hreg]

/-! ### Where the words of a register lie -/

theorem regTable_fits : ∀ row ∈ regTable, (row.flds.Pairwise fun f g => g.lo + g.w ≤ f.lo ∨ f.lo + f.w ≤ g.lo) ∧
    ∀ f ∈ row.flds, 0 < f.w ∧ f.lo + f.w ≤ row.reg.width ∧ row.reg.width ≤ 64 := by decide +kernel

theorem foldl_mul (ds : List (Nat × Nat)) (n : Nat) : ds.foldl (fun p d => p * d.1) n = n * ds.foldl (fun p d => p * d.1) 1 := by
  induction ds generalizing n with
  | nil => simp
  | cons d ds ih => rw [List.foldl_cons, List.foldl_cons, ih, ih (1 * d.1)]; ring

/-- The index that a place in an array has, and the place that the index has. -/
theorem locate_spec {ds : List (Nat × Nat)} {rem acc i r : Nat} (h : locate ds rem acc = some (i, r)) :
    ∃ j, j < ds.foldl (fun p d => p * d.1) 1 ∧ i = acc * ds.foldl (fun p d => p * d.1) 1 + j ∧ dimOffset ds j + r = rem := by
  induction ds generalizing rem acc with
  | nil =>
    obtain ⟨rfl, rfl⟩ : acc = i ∧ rem = r := by simpa [locate] using h
    exact ⟨0, by simp, by simp, by simp [dimOffset]⟩
  | cons d ds ih =>
    obtain ⟨c, st⟩ := d
    simp only [locate] at h
    split at h
    case isFalse => cases h
    case isTrue hc =>
      obtain ⟨j, hj, hi, ho⟩ := ih h
      generalize hp : ds.foldl (fun p d => p * d.1) 1 = p at hj hi
      have hpos : 0 < p := by omega
      refine ⟨rem / st * p + j, ?_, ?_, ?_⟩
      · rw [List.foldl_cons, foldl_mul, hp]
        calc rem / st * p + j < (rem / st + 1) * p := by rw [Nat.add_mul]; omega
          _ ≤ 1 * c * p := by rw [Nat.one_mul]; exact Nat.mul_le_mul_right p hc
      · rw [List.foldl_cons, foldl_mul, hp, hi]; ring
      · have hdiv : (rem / st * p + j) / p = rem / st := by
          rw [Nat.add_comm, Nat.add_mul_div_right _ _ hpos, Nat.div_eq_of_lt hj, Nat.zero_add]
        have hmod : (rem / st * p + j) % p = j := by rw [Nat.add_comm, Nat.add_mul_mod_self_right, Nat.mod_eq_of_lt hj]
        simp only [dimOffset, hp, hdiv, hmod]
        rw [Nat.add_assoc, ho, Nat.mul_comm, Nat.div_add_mod]

/-- What `findReg` finds: a row of the table, whose register lies there, in its low or its high word. -/
theorem findReg_spec {off : Nat} {rows : List Row} {h : Hit} (hf : findReg off rows = some h) :
    h.row ∈ rows ∧ off = h.row.reg.addr h.idx + (if h.high then 4 else 0) ∧ (h.high = true → h.row.reg.width = 64) := by
  induction rows with
  | nil => cases hf
  | cons row rows ih =>
    rw [findReg] at hf
    split at hf
    case h_2 =>
      obtain ⟨hmem, hoff⟩ := ih hf
      exact ⟨List.mem_cons_of_mem _ hmem, hoff⟩
    case h_1 i high hl =>
      obtain rfl := Option.some.inj hf
      refine ⟨List.mem_cons_self, ?_⟩
      unfold Reg.locate at hl
      split at hl
      · cases hl
      · next hbase =>
        have haddr {r : Nat} (hloc : locate row.reg.dims (off - row.reg.base) 0 = some (i, r)) : off = row.reg.addr i + r := by
          obtain ⟨j, -, rfl, ho⟩ := locate_spec hloc
          rw [Nat.zero_mul, Nat.zero_add, Reg.addr]
          omega
        split at hl
        · next hloc =>
          obtain ⟨rfl, rfl⟩ : _ = i ∧ false = high := by simpa using hl
          exact ⟨haddr hloc, by simp⟩
        · next hloc =>
          split at hl
          · next hw =>
            obtain ⟨rfl, rfl⟩ : _ = i ∧ true = high := by simpa using hl
            exact ⟨haddr hloc, fun _ => hw⟩
          · cases hl
        · cases hl

theorem Hit.fits {off : Nat} {h : Hit} (hf : findReg off regTable = some h) : h.row.Fits := regTable_fits _ (findReg_spec hf).1

theorem Hit.reg_of_mem {off : Nat} {h : Hit} (hf : findReg off regTable = some h) {f : Fld} (hm : f ∈ h.row.flds) : f.reg = h.row.reg :=
  reg_of_mem_flds (findReg_spec hf).1 hm

/-- A register without a rule of its own takes a write by its fields' types. -/
theorem Dev.putReg_eq {h : Hit} (hn : ∀ w ∈ writeRules, w.1.base ≠ h.row.reg.base) (d : Dev) (m : Master) (v mask : Nat) :
    d.putReg m h v mask = d.regWrite h.row h.idx v mask := by
  have hfind : (writeRules.find? fun w => decide (w.1.base = h.row.reg.base)) = none :=
    List.find?_eq_none.mpr fun w hw => by simpa using hn w hw
  rw [Dev.putReg, hfind]

theorem Dev.ChangesOnly.putReg {d e : Dev} {ps : List Part} {rs : List Nat} {h : Hit} {m : Master} {v mask : Nat} (hc : d.ChangesOnly e ps rs)
    (hn : ∀ w ∈ writeRules, w.1.base ≠ h.row.reg.base) (hr : h.row.reg.addr h.idx ∈ rs) : d.ChangesOnly (e.putReg m h v mask) ps rs := by
  rw [Dev.putReg_eq hn]
  exact hc.regWrite hr

theorem offset_lt_of_pass {d : Dev} {m : Master} {off : Nat} (h : d.regCheck m off = .pass) : off < 0x15000000 := by
  unfold Dev.regCheck at h
  split at h
  · cases h
  · next hb => rw [blockOf] at hb; omega

theorem Dev.spanCheck_four {d : Dev} {m : Master} {off : Nat} (h : d.regCheck m off = .pass) (ha : off % 4 = 0) :
    d.spanCheck m (regSpace + off) 4 = (.pass, off) := by
  have hlt := offset_lt_of_pass h
  have hoff : regSpace + off - regSpace = off := Nat.add_sub_cancel_left _ _
  have hspace : regSpace % 4 = 0 := by decide
  have hmod : (regSpace + off) % 4 = 0 := by omega
  have hle : off ≤ 0x20000000 - 4 := by omega
  simp [Dev.spanCheck, hoff, h, hmod]; omega

theorem Dev.spanCheck_eight {d : Dev} {m : Master} {off : Nat} (h : d.regCheck m off = .pass) (h' : d.regCheck m (off + 4) = .pass)
    (ha : off % 8 = 0) : d.spanCheck m (regSpace + off) 8 = (.pass, off) := by
  have hlt := offset_lt_of_pass h
  have hoff : regSpace + off - regSpace = off := Nat.add_sub_cancel_left _ _
  have hspace : regSpace % 8 = 0 := by decide
  have hmod : (regSpace + off) % 8 = 0 := by omega
  have hle : off ≤ 0x20000000 - 8 := by omega
  simp [Dev.spanCheck, hoff, h, h', hmod]; omega

section
variable {m : Master} {off val : Nat} {s : State} {e : Dev}

/-- A register write that passes R31 runs as its write to the registers does. -/
theorem runs_registerWrite {bytes : Nat} {rs : List Nat} (hh : s.dev.hears m = true) (hspan : s.dev.spanCheck m (regSpace + off) bytes = (.pass, off))
    (hslot : slotActiveWord off bytes = none)
    (hw : (if bytes = 8 then (s.dev.touch m).write64 m off val else (s.dev.touch m).write32 m off val) = e)
    (hc : s.dev.ChangesOnly e [.bus] rs) : Runs (.registerWrite m (regSpace + off) bytes val) s { s with dev := e } [.bus] rs := by
  have hstore : s.dev.regStore m (regSpace + off) bytes val = e := by
    have hoff : regSpace + off - regSpace = off := Nat.add_sub_cancel_left _ _
    simp only [Dev.regStore, hh, hspan, hoff, hslot, Bool.not_true, Bool.false_eq_true, if_false, hw]
  exact .inOrder (fun d => d.regStore m (regSpace + off) bytes val) rfl hstore (Dev.orderEvents_none (congrArg List.length (hc.parts .raised (by decide))).le) hc

end

theorem fieldOf_mask32 {lo w : Nat} (h : lo + w ≤ 32) : fieldOf lo w mask32 = 2 ^ w - 1 := by
  refine Nat.eq_of_testBit_eq fun j => ?_
  rw [fieldOf_testBit, show mask32 = 2 ^ 32 - 1 from rfl, Nat.testBit_two_pow_sub_one, Nat.testBit_two_pow_sub_one]
  by_cases hj : j < w <;> simp [hj]
  omega

theorem fieldOf_mask64 {lo w : Nat} (h : lo + w ≤ 64) : fieldOf lo w mask64 = 2 ^ w - 1 := by
  refine Nat.eq_of_testBit_eq fun j => ?_
  rw [fieldOf_testBit, show mask64 = 2 ^ 64 - 1 from rfl, Nat.testBit_two_pow_sub_one, Nat.testBit_two_pow_sub_one]
  by_cases hj : j < w <;> simp [hj]
  omega

theorem fieldOf_mod_32 {lo w v : Nat} (h : lo + w ≤ 32) : fieldOf lo w (v % 2 ^ 32) = fieldOf lo w v := by
  refine Nat.eq_of_testBit_eq fun j => ?_
  rw [fieldOf_testBit, fieldOf_testBit, Nat.testBit_mod_two_pow]
  by_cases hj : j < w <;> simp [hj]
  omega

/-- A whole field is written. -/
theorem Fld.written_all {f : Fld} (hw : 0 < f.w) (locked : Bool) (old : Nat) {new : Nat} (hn : new < 2 ^ f.w) :
    f.written locked old new (2 ^ f.w - 1) = match f.ty with
      | .rw => f.clamp.app f.w new % 2 ^ f.w
      | .rwl => if locked then old else f.clamp.app f.w new % 2 ^ f.w
      | .w1c => Nat.land old (2 ^ f.w - 1 - new)
      | .w1s => Nat.lor old new
      | .ro | .wo | .snap => old := by
  have hpow : 2 ^ f.w - 1 ≠ 0 := by have := Nat.one_lt_two_pow hw.ne'; omega
  unfold Fld.written
  cases f.ty <;> simp [hpow, Nat.mod_eq_of_lt hn]

section
variable {m : Master} {off val : Nat} {h : Hit} {s : State}

theorem Dev.write32_of_hit (hf : findReg off regTable = some h) (d : Dev) (m : Master) (val : Nat) :
    d.write32 m off val = if h.row.reg.width = 64 && h.high then d.putReg m h (val % 2 ^ 32 * 2 ^ 32) maskHi else d.putReg m h (val % 2 ^ 32) mask32 := by
  rw [Dev.write32, hf]

/-- A 32-bit write to a 32-bit register writes its fields whole. -/
theorem Dev.rd_write32 (hf : findReg off regTable = some h) (hw : h.row.reg.width = 32) (hn : ∀ w ∈ writeRules, w.1.base ≠ h.row.reg.base)
    {d : Dev} (hr : keysRising 0 d.regs = true) {f : Fld} (hm : f ∈ h.row.flds) :
    (d.write32 m off val).rd f h.idx = f.written d.sys.locked (d.rd f h.idx) (fieldOf f.lo f.w val) (2 ^ f.w - 1) := by
  obtain ⟨-, hfit, -⟩ := (Hit.fits hf).2 f hm
  rw [Dev.write32_of_hit hf, hw, if_neg (by simp), Dev.putReg_eq hn, Dev.rd_regWrite (Hit.fits hf) hm (Hit.reg_of_mem hf hm) _ _ _ _ hr,
    fieldOf_mod_32 (hw ▸ hfit), fieldOf_mask32 (hw ▸ hfit)]

theorem Dev.ChangesOnly.write32 {d e : Dev} {ps : List Part} {rs : List Nat} (hc : d.ChangesOnly e ps rs) (hf : findReg off regTable = some h)
    (hn : ∀ w ∈ writeRules, w.1.base ≠ h.row.reg.base) (hmem : h.row.reg.addr h.idx ∈ rs) : d.ChangesOnly (e.write32 m off val) ps rs := by
  rw [Dev.write32_of_hit hf]
  split
  · exact hc.putReg hn hmem
  · exact hc.putReg hn hmem

/-- A 64-bit write to a 64-bit register writes its fields whole. -/
theorem Dev.write64_of_wide (hf : findReg off regTable = some h) (hw : h.row.reg.width = 64) (hh : h.high = false) (d : Dev) :
    d.write64 m off val = d.putReg m h (val % 2 ^ 64) mask64 := by
  rw [Dev.write64, hf]
  simp [hw, hh]

/-- A 64-bit write elsewhere is two 32-bit writes, the lower one first (R29). -/
theorem Dev.write64_of_narrow (hf : findReg off regTable = some h) (hw : h.row.reg.width = 32) (d : Dev) :
    d.write64 m off val = (d.write32 m off val).write32 m (off + 4) (val / 2 ^ 32) := by
  rw [Dev.write64, hf]
  simp [hw]

theorem Dev.write32_of_none (hf : findReg off regTable = none) (d : Dev) : d.write32 m off val = d := by rw [Dev.write32, hf]

theorem Dev.write32_sys (hf : findReg off regTable = some h) (hn : ∀ w ∈ writeRules, w.1.base ≠ h.row.reg.base) (d : Dev) :
    (d.write32 m off val).sys = d.sys :=
  (Dev.ChangesOnly.keep (d := d) (ps := []) (rs := [h.row.reg.addr h.idx])).write32 hf hn List.mem_cons_self |>.parts .sys (by decide)

/-- A 32-bit write to a 64-bit register writes the fields of one word. -/
theorem Dev.rd_write32_wide (hf : findReg off regTable = some h) (hw : h.row.reg.width = 64) (hn : ∀ w ∈ writeRules, w.1.base ≠ h.row.reg.base)
    (hval : val < 2 ^ 32) {d : Dev} (hr : keysRising 0 d.regs = true) {f : Fld} (hm : f ∈ h.row.flds) :
    (d.write32 m off val).rd f h.idx = f.written d.sys.locked (d.rd f h.idx) (fieldOf f.lo f.w (val * if h.high then 2 ^ 32 else 1))
      (fieldOf f.lo f.w ((2 ^ 32 - 1) * if h.high then 2 ^ 32 else 1)) := by
  rw [Dev.write32_of_hit hf, hw, Nat.mod_eq_of_lt hval]
  cases h.high <;>
    simp only [decide_true, Bool.true_and, Bool.false_eq_true, if_true, if_false, Dev.putReg_eq hn, Nat.mul_one] <;>
    exact Dev.rd_regWrite (Hit.fits hf) hm (Hit.reg_of_mem hf hm) _ _ _ _ hr

end

/-- Settles O3: a write sets the fields one after another, each by its type, and fields share no bit. -/
theorem registerWriteByType : Obligations.RegisterWriteByType := by
  have touched {s : State} (hinv : s.Inv) (m : Master) : keysRising 0 (s.dev.touch m).regs = true := by
    rw [Dev.touch_regs]; exact hinv.regs
  have changed {h : Hit} (d : Dev) (m : Master) : d.ChangesOnly (d.touch m) [.bus] [h.row.reg.addr h.idx] := .touch _ _ _ List.mem_cons_self
  refine ⟨?narrow, ?wide, ?half, ?double⟩
  case narrow =>
    intro m off val h s hinv hh hpass ha hf hw hn hslot
    refine ⟨_, runs_registerWrite hh (Dev.spanCheck_four hpass ha) hslot rfl ((changed _ _).write32 hf hn List.mem_cons_self), fun f hm => ?_⟩
    obtain ⟨hpos, -, -⟩ := (Hit.fits hf).2 f hm
    have hrd := Dev.rd_write32 (m := m) (val := val) hf hw hn (touched hinv m) hm
    rw [Fld.written_all hpos _ _ (fieldOf_lt _ _ _), Dev.touch_sys, Dev.rd_congr f _ (Dev.touch_regs _ _)] at hrd
    exact hrd
  case wide =>
    intro m off val h s hinv hh hpass hpass' ha hf hw hhigh hn hslot
    refine ⟨_, runs_registerWrite hh (Dev.spanCheck_eight hpass hpass' ha) hslot (Dev.write64_of_wide hf hw hhigh _)
      ((changed _ _).putReg hn List.mem_cons_self), fun f hm => ?_⟩
    obtain ⟨-, hfit, -⟩ := (Hit.fits hf).2 f hm
    rw [hw] at hfit
    rw [Dev.putReg_eq hn, Dev.rd_regWrite (Hit.fits hf) hm (Hit.reg_of_mem hf hm) _ _ _ _ (touched hinv m), fieldOf_mod _ _ _ hfit,
      fieldOf_mask64 hfit, Dev.touch_sys, Dev.rd_congr f _ (Dev.touch_regs _ _)]
  case half =>
    intro m off val h s word hinv hh hpass ha hf hw hn hslot hval
    refine ⟨_, runs_registerWrite hh (Dev.spanCheck_four hpass ha) hslot rfl ((changed _ _).write32 hf hn List.mem_cons_self), fun f hm => ?_⟩
    have hrd := Dev.rd_write32_wide (m := m) hf hw hn hval (touched hinv m) hm
    rwa [Dev.touch_sys, Dev.rd_congr f _ (Dev.touch_regs _ _)] at hrd
  case double =>
    intro m off val h k s hinv hh hpass hpass' ha hf hw hn hslot hval
    have hlow {d : Dev} (hr : keysRising 0 d.regs = true) {f : Fld} (hm : f ∈ h.row.flds) := Dev.rd_write32 (m := m) (val := val) hf hw hn hr hm
    refine ⟨fun hnone => ?_, fun hk hkw hkn => ?_⟩
    · refine ⟨_, runs_registerWrite hh (Dev.spanCheck_eight hpass hpass' ha) hslot (Dev.write64_of_narrow hf hw _) ?_, fun f hm => ?_⟩
      · rw [Dev.write32_of_none hnone]
        exact (changed _ _).write32 hf hn List.mem_cons_self
      · rw [Dev.write32_of_none hnone, hlow (touched hinv m) hm, Dev.touch_sys, Dev.rd_congr f _ (Dev.touch_regs _ _)]
    · have hfirst : s.dev.ChangesOnly ((s.dev.touch m).write32 m off val) [.bus] [h.row.reg.addr h.idx, k.row.reg.addr k.idx] :=
        .write32 (.touch _ _ _ List.mem_cons_self) hf hn List.mem_cons_self
      have hsecond : ((s.dev.touch m).write32 m off val).ChangesOnly
          (((s.dev.touch m).write32 m off val).write32 m (off + 4) (val / 2 ^ 32)) [] [k.row.reg.addr k.idx] :=
        .write32 .keep hk hkn List.mem_cons_self
      have happart : h.row.reg.addr h.idx ≠ k.row.reg.addr k.idx := by
        obtain ⟨-, hoff, hhigh⟩ := findReg_spec hf
        obtain ⟨-, koff, khigh⟩ := findReg_spec hk
        rw [hw] at hhigh
        rw [hkw] at khigh
        cases hb : h.high <;> cases kb : k.high <;> simp [hb, kb] at hoff koff hhigh khigh
        omega
      refine ⟨_, runs_registerWrite hh (Dev.spanCheck_eight hpass hpass' ha) hslot (Dev.write64_of_narrow hf hw _)
        (hfirst.write32 hk hkn (List.mem_cons_of_mem _ List.mem_cons_self)), fun f hm => ?_, fun f hm => ?_⟩
      · rw [hsecond.rd (f := f) (by rw [Hit.reg_of_mem hf hm]; simpa using happart), hlow (touched hinv m) hm, Dev.touch_sys,
          Dev.rd_congr f _ (Dev.touch_regs _ _)]
      · have hkeep : s.dev.ChangesOnly ((s.dev.touch m).write32 m off val) [.bus] [h.row.reg.addr h.idx] :=
          .write32 (.touch _ _ _ List.mem_cons_self) hf hn List.mem_cons_self
        rw [Dev.rd_write32 hk hkw hkn (hfirst.rising hinv.regs) hm, Dev.write32_sys hf hn, Dev.touch_sys,
          hkeep.rd (f := f) (by rw [Hit.reg_of_mem hk hm]; simpa using happart.symm)]

theorem Dev.ChangesOnly.store {d e : Dev} {ps : List Part} {rs : List Nat} {r : Reg} {i v mask : Nat} {h : Hit} (hc : d.ChangesOnly e ps rs)
    (hf : findReg (r.addr i) regTable = some h) (hr : h.row.reg.addr h.idx ∈ rs) : d.ChangesOnly (e.store r i v mask) ps rs := by
  rw [Dev.store_of_hit hf]
  exact hc.regWrite hr

/-- What a register's rule stores in a field. -/
theorem Dev.rd_store {r : Reg} {i : Nat} {h : Hit} (hf : findReg (r.addr i) regTable = some h) {f : Fld} (hm : f ∈ h.row.flds) {d : Dev}
    (hr : keysRising 0 d.regs = true) (v mask : Nat) :
    (d.store r i v mask).rd f h.idx = f.written d.sys.locked (d.rd f h.idx) (fieldOf f.lo f.w v) (fieldOf f.lo f.w mask) := by
  rw [Dev.store_of_hit hf, Dev.rd_regWrite (Hit.fits hf) hm (Hit.reg_of_mem hf hm) _ _ _ _ hr]

theorem findReg_PE_CLAIM (en : Fin 2) :
    findReg (R.PE_CLAIM.addr en) regTable = some ⟨⟨R.PE_CLAIM, [F.PE_CLAIM_CLAIM, F.PE_CLAIM_DROPPED, F.PE_CLAIM_CAUSE]⟩, en, false⟩ := by
  fin_cases en <;> rfl

/-- Dropping a claim that the engine still has (R174). -/
theorem Dev.dropClaim_spec {d : Dev} {en : Fin 2} {cause : Nat} (hc : cause < 8) (hd : d.rd F.PE_CLAIM_DROPPED en = 0)
    (hr : keysRising 0 d.regs = true) :
    d.ChangesOnly (d.dropClaim en cause) [.raised] [R.PE_CLAIM.addr en] ∧ (d.dropClaim en cause).rd F.PE_CLAIM_CLAIM en = 0 ∧
      (d.dropClaim en cause).rd F.PE_CLAIM_DROPPED en = 1 ∧ (d.dropClaim en cause).rd F.PE_CLAIM_CAUSE en = cause ∧
      (d.dropClaim en cause).raised = d.raised ++ [d.event .secure (0x0903 + 0x100 * en) [(1, cause)]] := by
  have heq : d.dropClaim en cause = ((((d.wr F.PE_CLAIM_CLAIM en 0).wrB F.PE_CLAIM_DROPPED en true).wr F.PE_CLAIM_CAUSE en cause).raise
      .secure (0x0903 + 0x100 * en) [(1, cause)]) := by simp [Dev.dropClaim, Dev.on, hd]
  have hw : d.ChangesOnly (((d.wr F.PE_CLAIM_CLAIM en 0).wrB F.PE_CLAIM_DROPPED en true).wr F.PE_CLAIM_CAUSE en cause) [.raised]
      [R.PE_CLAIM.addr en] :=
    .wr (.wrB (.wr .keep List.mem_cons_self) List.mem_cons_self) List.mem_cons_self
  have hev : ∀ a ∈ eventRegs, a ∉ [R.PE_CLAIM.addr en] := by fin_cases en <;> decide
  have hne : R.PE_CLAIM.addr en ≠ R.SYS_FAULT_STAT.addr 0 := by fin_cases en <;> decide
  rw [heq, Dev.rd_raise_ne _ _ _ _ _ _ hne, Dev.rd_raise_ne _ _ _ _ _ _ hne, Dev.rd_raise_ne _ _ _ _ _ _ hne, Dev.raise_raised,
    hw.event (by decide) hev]
  refine ⟨hw.raise List.mem_cons_self (.inl (by fin_cases en <;> decide)), ?_⟩
  simp [F.PE_CLAIM_CLAIM, F.PE_CLAIM_DROPPED, F.PE_CLAIM_CAUSE, Dev.rd_wr_same, Dev.rd_wr_self, Dev.wrB, keysRising_mapSet, keysRising_mapSet_two, hr]
  omega

theorem Dev.dropClaim_of_dropped {d : Dev} {en : Fin 2} (h : d.rd F.PE_CLAIM_DROPPED en = 1) (cause : Nat) : d.dropClaim en cause = d := by
  simp [Dev.dropClaim, Dev.on, h]

/-- A write of CLAIM while the engine has its claim: the value is stored, and 0 drops it (R174). -/
theorem Dev.wPeClaim_spec {d : Dev} {en : Fin 2} (hd : d.rd F.PE_CLAIM_DROPPED en = 0) (hr : keysRising 0 d.regs = true) (val : Nat) :
    let e := d.store R.PE_CLAIM en val mask32
    d.ChangesOnly e [] [R.PE_CLAIM.addr en] ∧ e.rd F.PE_CLAIM_CLAIM en = val % 256 ∧ e.rd F.PE_CLAIM_DROPPED en = 0 ∧
      d.wPeClaim en val mask32 = if val % 256 = 0 then e.dropClaim en 4 else e := by
  have hclaim := Dev.rd_store (findReg_PE_CLAIM en) (f := F.PE_CLAIM_CLAIM) (by simp) hr val mask32
  have hdropped := Dev.rd_store (findReg_PE_CLAIM en) (f := F.PE_CLAIM_DROPPED) (by simp) hr val mask32
  have hvalue : fieldOf 0 8 val = val % 256 := by simp [fieldOf]
  rw [show fieldOf F.PE_CLAIM_CLAIM.lo F.PE_CLAIM_CLAIM.w mask32 = 2 ^ F.PE_CLAIM_CLAIM.w - 1 from fieldOf_mask32 (by decide),
    Fld.written_all (by decide) _ _ (fieldOf_lt _ _ _)] at hclaim
  have hread : (d.store R.PE_CLAIM en val mask32).rd F.PE_CLAIM_CLAIM en = val % 256 := by
    rw [← hvalue]
    exact hclaim.trans (Nat.mod_eq_of_lt (fieldOf_lt _ _ _))
  refine ⟨.store .keep (findReg_PE_CLAIM en) List.mem_cons_self, hread, hdropped.trans hd, ?_⟩
  have hmask : mask32 % 256 ≠ 0 := by decide
  simp only [Dev.wPeClaim, Dev.on, hd, Dev.claim, hread, hmask]
  simp

/-- Settles O32: by what a write of CLAIM stores and what dropping a claim leaves. -/
theorem claims : Obligations.Claims := by
  unfold Obligations.Claims
  intro m en val s hinv
  have hbus (rs) : s.dev.ChangesOnly (s.dev.touch m) [.bus] rs := .touch _ _ _ List.mem_cons_self
  have hrise : keysRising 0 (s.dev.touch m).regs = true := (hbus []).rising hinv.regs
  have hrd (f : Fld) : (s.dev.touch m).rd f en = s.dev.rd f en := (hbus []).rd (by simp)
  refine ⟨fun ht hd => ?_, fun ht hd hv => ?_, fun ht hd hv => ?_, fun hd => ?_, fun hlim hd => ?_, fun h => ?_, fun hd => ?_⟩
  · refine ⟨_, .writes (fun d => d.wPeClaim en val mask32) rfl ht (e := s.dev.touch m) ?_ (hbus [])⟩
    simp [Dev.wPeClaim, Dev.on, hrd, hd]
  · obtain ⟨hc, hclaim, hdropped, heq⟩ := Dev.wPeClaim_spec ((hrd _).trans hd) hrise val
    rw [if_neg hv] at heq
    exact ⟨_, .writes _ rfl ht heq ((hbus _).trans (hc.mono (by simp) (by simp))), hclaim, hdropped⟩
  · obtain ⟨hc, -, hdropped, heq⟩ := Dev.wPeClaim_spec ((hrd _).trans hd) hrise val
    rw [if_pos hv] at heq
    obtain ⟨hc', hclaim, hdropped', hcause, hraised⟩ := Dev.dropClaim_spec (cause := 4) (by decide) hdropped (hc.rising hrise)
    have hall : s.dev.ChangesOnly ((s.dev.touch m).store R.PE_CLAIM en val mask32) [.bus] [R.PE_CLAIM.addr en] :=
      (hbus _).trans (hc.mono (by simp) (by simp))
    refine ⟨_, .writes _ rfl ht heq ((hall.mono (by simp) (by simp)).trans (hc'.mono (by simp) (by simp))), hclaim, hdropped', hcause, ?_⟩
    rw [hraised, hall.event (by decide) (by fin_cases en <;> decide), hall.parts .raised (by decide)]
  · obtain ⟨hc, hrest⟩ := Dev.dropClaim_spec (cause := 3) (by decide) hd hinv.regs
    exact ⟨_, .act (fun d => d.dropClaim en 3) rfl rfl hc, hrest⟩
  · obtain ⟨hc, hrest⟩ := Dev.dropClaim_spec (cause := 2) (by decide) hd hinv.regs
    exact ⟨_, .act (fun d => d.failRate en) rfl (if_pos hlim) hc, hrest⟩
  · refine .act (fun d => d.failRate en) rfl ?_
    unfold Dev.failRate
    rcases h with h | h
    · rw [if_neg (by omega)]
    · rw [Dev.dropClaim_of_dropped h, ite_self]
  · exact .act (fun d => d.dropClaim en 3) rfl (Dev.dropClaim_of_dropped hd 3)

end Sys2Proof.Machine
end

section
/-!
PROOFS. Position compare, the observer and the vault.
-/

namespace Sys2Proof.Machine

set_option Elab.async false

/-! ### Registers in arrays -/

/-- The highest word of a register array. -/
def Reg.top (r : Reg) : Nat := r.base + (r.dims.map fun d => (d.1 - 1) * d.2).sum + 4

theorem dimOffset_le {ds : List (Nat × Nat)} {j : Nat} (h : j < ds.foldl (fun p d => p * d.1) 1) :
    dimOffset ds j ≤ (ds.map fun d => (d.1 - 1) * d.2).sum := by
  induction ds generalizing j with
  | nil => simp [dimOffset]
  | cons d ds ih =>
    rw [List.foldl_cons, foldl_mul, Nat.one_mul] at h
    have hpos : 0 < ds.foldl (fun p d => p * d.1) 1 := Nat.pos_of_mul_pos_left (Nat.zero_lt_of_lt h)
    have hk : j / ds.foldl (fun p d => p * d.1) 1 ≤ d.1 - 1 := Nat.le_sub_one_of_lt ((Nat.div_lt_iff_lt_mul hpos).mpr h)
    have hrest := ih (Nat.mod_lt j hpos)
    simp only [dimOffset, List.map_cons, List.sum_cons]
    exact Nat.add_le_add (Nat.mul_le_mul_right _ hk) hrest

theorem Reg.locate_eq_none {r : Reg} {off : Nat} (h : off < r.base ∨ r.top < off) : r.locate off = none := by
  unfold Reg.locate
  split
  · rfl
  · next hbase =>
    cases hl : Machine.locate r.dims (off - r.base) 0 with
    | none => rfl
    | some p =>
      obtain ⟨i, rem⟩ := p
      obtain ⟨j, hj, -, ho⟩ := locate_spec hl
      have hle := dimOffset_le hj
      have hfar : 4 < rem := by simp only [Reg.top] at h; omega
      split
      · next heq => cases heq; omega
      · next heq => cases heq; omega
      · rfl

/-- Rows that lie elsewhere are passed over. -/
theorem findReg_drop {off : Nat} (k : Nat) (h : ∀ row ∈ regTable.take k, off < row.reg.base ∨ row.reg.top < off) :
    findReg off regTable = findReg off (regTable.drop k) := by
  have go : ∀ rows : List Row, (∀ row ∈ rows, off < row.reg.base ∨ row.reg.top < off) → ∀ rest, findReg off (rows ++ rest) = findReg off rest := by
    intro rows hrows rest
    induction rows with
    | nil => rfl
    | cons row rows ih =>
      rw [List.cons_append, findReg, Reg.locate_eq_none (hrows row List.mem_cons_self)]
      exact ih fun r hr => hrows r (List.mem_cons_of_mem _ hr)
  calc findReg off regTable = findReg off (regTable.take k ++ regTable.drop k) := by rw [List.take_append_drop]
    _ = findReg off (regTable.drop k) := go _ h _

/-- The rows before those of the compare entries lie elsewhere. -/
theorem findReg_cmp {off : Nat} (h : 0xC100000 ≤ off) (h' : off < 0xC120000) : findReg off regTable = findReg off (regTable.drop 59) :=
  findReg_drop 59 fun row hrow => by
    have hall : ∀ row ∈ regTable.take 59, row.reg.top < 0xC100000 ∨ 0xC120000 ≤ row.reg.base := by decide +kernel
    have := hall row hrow
    omega

theorem addr_WT_CMP (e : Nat) : R.WT_CMP_START.addr e = 0xC100000 + e * 32 ∧ R.WT_CMP_REPEAT.addr e = 0xC100008 + e * 32 ∧
    R.WT_CMP_OUT.addr e = 0xC100010 + e * 32 := by
  simp [Reg.addr, R.WT_CMP_START, R.WT_CMP_REPEAT, R.WT_CMP_OUT, dimOffset]

/-- The fields of WT_CMP_OUT. -/
def cmpOutFlds : List Fld := [F.WT_CMP_OUT_TRIG_MASK, F.WT_CMP_OUT_MARK_MASK, F.WT_CMP_OUT_WIDTH, F.WT_CMP_OUT_ENABLE, F.WT_CMP_OUT_RELATIVE, F.WT_CMP_OUT_DONE]

section
variable {e : Nat} (he : e < 4096)
include he

theorem Reg.locate_entry {r : Reg} (hd : r.dims = [(4096, 32)]) : r.locate (r.base + e * 32) = some (e, false) := by
  have hdiv : e * 32 / 32 = e := by omega
  have hmod : e * 32 % 32 = 0 := by omega
  simp [Reg.locate, hd, Machine.locate, hdiv, hmod, he]

theorem Reg.locate_beside {r : Reg} {b : Nat} (hd : r.dims = [(4096, 32)]) (hb : b < 32) (h0 : b ≠ 0) (h4 : b ≠ 4) :
    r.locate (r.base + (b + e * 32)) = none := by
  have hdiv : (b + e * 32) / 32 = e := by omega
  have hmod : (b + e * 32) % 32 = b := by omega
  simp [Reg.locate, hd, Machine.locate, hdiv, hmod, he, h0, h4]

theorem findReg_WT_CMP_START : findReg (R.WT_CMP_START.addr e) regTable = some ⟨⟨R.WT_CMP_START, [F.WT_CMP_START_START]⟩, e, false⟩ := by
  rw [(addr_WT_CMP e).1, findReg_cmp (by omega) (by omega)]
  change findReg _ (⟨R.WT_CMP_START, _⟩ :: _) = _
  rw [findReg, show 0xC100000 + e * 32 = R.WT_CMP_START.base + e * 32 from rfl, Reg.locate_entry he rfl]

theorem findReg_WT_CMP_REPEAT : findReg (R.WT_CMP_REPEAT.addr e) regTable =
    some ⟨⟨R.WT_CMP_REPEAT, [F.WT_CMP_REPEAT_PERIOD, F.WT_CMP_REPEAT_COUNT]⟩, e, false⟩ := by
  have hstart : 0xC100008 + e * 32 = R.WT_CMP_START.base + (8 + e * 32) := by simp only [R.WT_CMP_START]; omega
  have hhere : 0xC100008 + e * 32 = R.WT_CMP_REPEAT.base + e * 32 := rfl
  rw [(addr_WT_CMP e).2.1, findReg_cmp (by omega) (by omega)]
  change findReg _ (⟨R.WT_CMP_START, _⟩ :: ⟨R.WT_CMP_REPEAT, _⟩ :: _) = _
  rw [findReg, hstart, Reg.locate_beside he rfl (by decide) (by decide) (by decide), ← hstart, findReg, hhere, Reg.locate_entry he rfl]

theorem findReg_WT_CMP_OUT : findReg (R.WT_CMP_OUT.addr e) regTable = some ⟨⟨R.WT_CMP_OUT, cmpOutFlds⟩, e, false⟩ := by
  have hstart : 0xC100010 + e * 32 = R.WT_CMP_START.base + (16 + e * 32) := by simp only [R.WT_CMP_START]; omega
  have hrepeat : 0xC100010 + e * 32 = R.WT_CMP_REPEAT.base + (8 + e * 32) := by simp only [R.WT_CMP_REPEAT]; omega
  have hhere : 0xC100010 + e * 32 = R.WT_CMP_OUT.base + e * 32 := rfl
  rw [(addr_WT_CMP e).2.2, findReg_cmp (by omega) (by omega)]
  change findReg _ (⟨R.WT_CMP_START, _⟩ :: ⟨R.WT_CMP_REPEAT, _⟩ :: ⟨R.WT_CMP_OUT, _⟩ :: _) = _
  rw [findReg, hstart, Reg.locate_beside he rfl (by decide) (by decide) (by decide), ← hstart, findReg, hrepeat,
    Reg.locate_beside he rfl (by decide) (by decide) (by decide), ← hrepeat, findReg, hhere, Reg.locate_entry he rfl]
  rfl
end

/-! ### Fields of a stored register -/

section
variable {r : Reg} {i : Nat} {h : Hit} (hf : findReg (r.addr i) regTable = some h) {f : Fld} (hm : f ∈ h.row.flds) {d : Dev}
  (hr : keysRising 0 d.regs = true) {v mask : Nat}
include hf hm hr

theorem Dev.rd_store_rw (ht : f.ty = .rw) (hk : fieldOf f.lo f.w mask = 2 ^ f.w - 1) :
    (d.store r i v mask).rd f h.idx = f.clamp.app f.w (fieldOf f.lo f.w v) % 2 ^ f.w := by
  rw [Dev.rd_store hf hm hr, hk, Fld.written_all ((Hit.fits hf).2 f hm).1 _ _ (fieldOf_lt _ _ _), ht]

theorem Dev.rd_store_any (ht : f.ty = .rw) (hc : f.clamp = .any) (hk : fieldOf f.lo f.w mask = 2 ^ f.w - 1) :
    (d.store r i v mask).rd f h.idx = fieldOf f.lo f.w v := by
  rw [Dev.rd_store_rw hf hm hr ht hk, hc, Clamp.app, Nat.mod_eq_of_lt (fieldOf_lt _ _ _)]

theorem Dev.rd_store_beside (ht : f.ty = .rw) (hk : fieldOf f.lo f.w mask = 0) : (d.store r i v mask).rd f h.idx = d.rd f h.idx := by
  rw [Dev.rd_store hf hm hr, hk, Fld.written, ht]
  rfl

theorem Dev.rd_store_ro (ht : f.ty = .ro) : (d.store r i v mask).rd f h.idx = d.rd f h.idx := by
  rw [Dev.rd_store hf hm hr, Fld.written, ht]

end

theorem Dev.ChangesOnly.after_touch {d e : Dev} {m : Master} {ps : List Part} {rs : List Nat} (h : (d.touch m).ChangesOnly e ps rs) :
    d.ChangesOnly e (.bus :: ps) rs :=
  (Dev.ChangesOnly.touch d m rs List.mem_cons_self).trans (h.mono (fun _ => List.mem_cons_of_mem _) fun _ => id)

/-! ### Compare entries (R109 to R111) -/

/-- The register of an entry that lies at an address. -/
theorem cmpReg_eq {e b : Nat} (hb : b < 24) : cmpReg (regSpace + (0xC100000 + b + e * 32)) =
    (if b / 8 = 0 then R.WT_CMP_START else if b / 8 = 1 then R.WT_CMP_REPEAT else R.WT_CMP_OUT, e) := by
  have hspace : regSpace % 32 = 0 := by decide
  have hmod : (regSpace + (0xC100000 + b + e * 32)) % 32 = b := by omega
  have hdiv : (regSpace + (0xC100000 + b + e * 32) - regSpace - cmpBase) / 32 = e := by simp only [cmpBase]; omega
  simp only [cmpReg, hmod, hdiv]
  split
  · rfl
  · split <;> rfl

section
variable {e b addr : Nat} {r : Reg} (he : e < 4096) (hb : b < 24) (ha : addr = regSpace + (0xC100000 + b + e * 32))
  (hr : (if b / 8 = 0 then R.WT_CMP_START else if b / 8 = 1 then R.WT_CMP_REPEAT else R.WT_CMP_OUT) = r)
include he hb ha hr

theorem execCmpEntryWrite_eq (bytes val : Nat) (m : Master) (s : State) :
    execCmpEntryWrite m addr bytes val s = s.act fun d => d.writeTo m r e fun d =>
      if bytes = 8 then d.wCmp r e val mask64 else if addr % 8 = 4 then d.wCmp r e (val * 2 ^ 32) maskHi else d.wCmp r e val mask32 := by
  subst ha
  have hspace : regSpace % 32 = 0 := by decide
  have hin : ¬ (regSpace + (0xC100000 + b + e * 32) < regSpace + cmpBase ∨ 4096 ≤ e ∨ (regSpace + (0xC100000 + b + e * 32)) % 32 / 8 = 3) := by
    simp only [cmpBase]; omega
  simp only [execCmpEntryWrite, cmpReg_eq hb, hr, if_neg hin]

theorem exec_cmpEntryWrite_wide (val : Nat) (m : Master) (s : State) :
    exec (.cmpEntryWrite m addr 8 val) s = s.act fun d => d.writeTo m r e fun d => d.wCmp r e val mask64 :=
  execCmpEntryWrite_eq he hb ha hr 8 val m s

theorem exec_cmpEntryWrite_high (h4 : b % 8 = 4) (val : Nat) (m : Master) (s : State) :
    exec (.cmpEntryWrite m addr 4 val) s = s.act fun d => d.writeTo m r e fun d => d.wCmp r e (val * 2 ^ 32) maskHi := by
  have hspace : regSpace % 8 = 0 := by decide
  refine (execCmpEntryWrite_eq he hb ha hr 4 val m s).trans ?_
  simp only [if_neg (show ¬ 4 = 8 by decide), if_pos (show addr % 8 = 4 by omega)]
end

/-- A write that enables an entry stores its fields, clears DONE and starts its occurrences at 0 (R111). -/
theorem Dev.wCmp_enabling {d : Dev} {e v mask : Nat} (he : e < 4096) (hd : d.rd F.WT_CMP_OUT_ENABLE e = 0)
    (hnow : (d.store R.WT_CMP_OUT e v mask).rd F.WT_CMP_OUT_ENABLE e = 1) (hr : keysRising 0 d.regs = true) (hj : keysRising 0 d.web.cmpJ = true) :
    d.ChangesOnly (d.wCmp R.WT_CMP_OUT e v mask) [.web] [R.WT_CMP_OUT.addr e] ∧ (d.wCmp R.WT_CMP_OUT e v mask).rd F.WT_CMP_OUT_DONE e = 0 ∧
      mapGet (d.wCmp R.WT_CMP_OUT e v mask).web.cmpJ e 0 = 0 ∧
      ∀ f : Fld, f.reg = R.WT_CMP_OUT → f.lo + f.w ≤ 34 → (d.wCmp R.WT_CMP_OUT e v mask).rd f e = (d.store R.WT_CMP_OUT e v mask).rd f e := by
  have hstore : d.ChangesOnly (d.store R.WT_CMP_OUT e v mask) [.web] [R.WT_CMP_OUT.addr e] :=
    .store .keep (findReg_WT_CMP_OUT he) List.mem_cons_self
  have hset : d.ChangesOnly ((d.store R.WT_CMP_OUT e v mask).setCmpJ e 0) [.web] [R.WT_CMP_OUT.addr e] :=
    hstore.part (fun q hq => by cases q <;> simp_all [Part.same, Dev.setCmpJ]) rfl
  have heq : d.wCmp R.WT_CMP_OUT e v mask = ((d.store R.WT_CMP_OUT e v mask).setCmpJ e 0).wrB F.WT_CMP_OUT_DONE e false := by
    simp [Dev.wCmp, Dev.on, hd, hnow]
  rw [heq]
  refine ⟨hset.wrB List.mem_cons_self, ?_, ?_, fun f hf hlo => ?_⟩
  · exact Dev.rd_wrB_self _ F.WT_CMP_OUT_DONE e false (by decide) (by decide) (hset.rising hr)
  · have hweb : (d.store R.WT_CMP_OUT e v mask).web = d.web := Dev.store_web ..
    simp only [Dev.wrB_web, Dev.setCmpJ, hweb]
    exact mapGet_mapSet_self _ _ _ _ hj
  · have hapart : f.lo + f.w ≤ F.WT_CMP_OUT_DONE.lo := hlo
    exact Dev.rd_wr_same _ F.WT_CMP_OUT_DONE f e _ hf (by omega) (.inl hapart) (hset.rising hr)

/-- A write that does not enable the entry only stores. -/
theorem Dev.wCmp_other {d : Dev} {r : Reg} {e v mask : Nat} (h : (d.store r e v mask).rd F.WT_CMP_OUT_ENABLE e = d.rd F.WT_CMP_OUT_ENABLE e) :
    d.wCmp r e v mask = d.store r e v mask := by
  simp [Dev.wCmp, Dev.on, h]

/-- The first of the pulses that end earliest. -/
theorem foldl_earliest (ps : List Pulse) (p : Pulse) :
    ps.foldl (fun b q => if q.stop < b.stop then q else b) p ∈ p :: ps ∧
      ∀ q ∈ p :: ps, (ps.foldl (fun b q => if q.stop < b.stop then q else b) p).stop ≤ q.stop := by
  induction ps generalizing p with
  | nil => simp
  | cons q qs ih =>
    rw [List.foldl_cons]
    obtain ⟨hmem, hle⟩ := ih (if q.stop < p.stop then q else p)
    have hfirst := hle _ List.mem_cons_self
    refine ⟨?_, fun x hx => ?_⟩
    · rcases List.mem_cons.mp hmem with h | h
      · rw [h]; split <;> simp
      · simp [h]
    · have hboth : (if q.stop < p.stop then q else p).stop ≤ p.stop ∧ (if q.stop < p.stop then q else p).stop ≤ q.stop := by split <;> omega
      rcases List.mem_cons.mp hx with rfl | hx
      · omega
      · rcases List.mem_cons.mp hx with rfl | hx
        · omega
        · exact hle x (List.mem_cons_of_mem _ hx)

theorem foldl_lor_testBit (ps : List Pulse) (n b : Nat) :
    (ps.foldl (fun m p => Nat.lor m p.mask) n).testBit b = (n.testBit b || ps.any fun p => p.mask.testBit b) := by
  induction ps generalizing n with
  | nil => simp
  | cons p ps ih =>
    have hor : (Nat.lor n p.mask).testBit b = (n.testBit b || p.mask.testBit b) := Nat.testBit_or ..
    rw [List.foldl_cons, ih, hor, List.any_cons, Bool.or_assoc]

theorem getLsbD_pinsOf (ps : List Pulse) {b : Nat} (hb : b < 8) : (pinsOf ps).getLsbD b = ps.any fun p => p.mask.testBit b := by
  rw [pinsOf, BitVec.getLsbD_ofNat, foldl_lor_testBit]
  simp [hb]

theorem fieldOf_bit {v b : Nat} (h : v.testBit b = true) : fieldOf b 1 v = 1 := by
  rw [Nat.testBit_eq_decide_div_mod_eq] at h
  exact of_decide_eq_true h

theorem fieldOf_zero (w v : Nat) : fieldOf 0 w v = v % 2 ^ w := by simp [fieldOf]

theorem Clamp.app_range_of_le {lo hi w x : Nat} (h : x ≤ hi) : (Clamp.range lo hi).app w x = max lo x := by
  simp only [Clamp.app, clampNat]
  split_ifs <;> omega

/-- The width of a pulse is at least 16. -/
theorem width_clamped (v : Nat) : (Clamp.range 16 65535).app 16 (fieldOf 16 16 v) % 2 ^ 16 = max 16 (v / 2 ^ 16 % 2 ^ 16) := by
  have hlt := fieldOf_lt 16 16 v
  rw [Clamp.app_range_of_le (by omega), Nat.mod_eq_of_lt (by omega), fieldOf]

/-- Settles O24: by what a write to a compare register stores, and what the pins are made of. -/
theorem positionCompare : Obligations.PositionCompare := by
  unfold Obligations.PositionCompare
  refine ⟨fun m e val s hinv he => ?writes, fun o s ho => ?rises, fun s hp => ?ends⟩
  case writes =>
    have hbus (rs) : s.dev.ChangesOnly (s.dev.touch m) [.bus] rs := .touch _ _ _ List.mem_cons_self
    have hrise : keysRising 0 (s.dev.touch m).regs = true := (hbus []).rising hinv.regs
    have hrd (f : Fld) : (s.dev.touch m).rd f e = s.dev.rd f e := (hbus []).rd (by simp)
    have hj : keysRising 0 (s.dev.touch m).web.cmpJ = true := by rw [Dev.touch_web]; exact hinv.cmpJ
    obtain ⟨hstart, hrepeat, hout⟩ := addr_WT_CMP e
    have hwhole {f : Fld} (hf : f.lo + f.w ≤ 64) : fieldOf f.lo f.w mask64 = 2 ^ f.w - 1 := fieldOf_mask64 hf
    refine ⟨fun ht hd hv => ?_, fun ht hd hv => ?_, fun ht => ?_, fun ht => ?_⟩
    · have hnow := Dev.rd_store_any (findReg_WT_CMP_OUT he) (f := F.WT_CMP_OUT_ENABLE) (by simp [cmpOutFlds]) hrise (v := val) rfl rfl (hwhole (by decide))
      obtain ⟨hc, hdone, hzero, hrest⟩ := Dev.wCmp_enabling he ((hrd _).trans hd) (hnow.trans (fieldOf_bit hv)) hrise hj
      refine ⟨_, .writes _ (exec_cmpEntryWrite_wide he (b := 16) (by decide) (by rw [hout]) rfl val m s) ht rfl hc.after_touch, ?_⟩
      have hany {f : Fld} (hm : f ∈ cmpOutFlds) (ht : f.ty = .rw) (hc : f.clamp = .any) (hlo : f.lo + f.w ≤ 34) (hreg : f.reg = R.WT_CMP_OUT) :=
        (hrest f hreg hlo).trans (Dev.rd_store_any (findReg_WT_CMP_OUT he) hm hrise (v := val) ht hc (hwhole (by omega)))
      refine ⟨(hany (by simp [cmpOutFlds]) rfl rfl (by decide) rfl).trans (fieldOf_bit hv), hdone, hany (by simp [cmpOutFlds]) rfl rfl (by decide) rfl,
        (hany (f := F.WT_CMP_OUT_TRIG_MASK) (by simp [cmpOutFlds]) rfl rfl (by decide) rfl).trans (fieldOf_zero _ _),
        hany (by simp [cmpOutFlds]) rfl rfl (by decide) rfl, ?_, hzero⟩
      refine ((hrest F.WT_CMP_OUT_WIDTH rfl (by decide)).trans
        (Dev.rd_store_rw (findReg_WT_CMP_OUT he) (by simp [cmpOutFlds]) hrise rfl (hwhole (by decide)))).trans ?_
      exact width_clamped _
    · have hbit : fieldOf 32 1 (val * 2 ^ 32) = 1 := fieldOf_bit (by rw [Nat.testBit_mul_two_pow]; exact Bool.and_eq_true_iff.mpr ⟨by decide, hv⟩)
      have hnow := Dev.rd_store_any (findReg_WT_CMP_OUT he) (f := F.WT_CMP_OUT_ENABLE) (by simp [cmpOutFlds]) hrise (v := val * 2 ^ 32) (mask := maskHi)
        rfl rfl (by decide)
      have hpins := Dev.rd_store_beside (findReg_WT_CMP_OUT he) (f := F.WT_CMP_OUT_MARK_MASK) (by simp [cmpOutFlds]) hrise (v := val * 2 ^ 32)
        (mask := maskHi) rfl (by decide)
      obtain ⟨hc, hdone, hzero, hrest⟩ := Dev.wCmp_enabling he ((hrd _).trans hd) (hnow.trans hbit) hrise hj
      exact ⟨_, .writes _ (exec_cmpEntryWrite_high he (b := 20) (by decide) (by rw [hout]; ring) rfl (by decide) val m s) ht rfl hc.after_touch,
        (hrest F.WT_CMP_OUT_ENABLE rfl (by decide)).trans (hnow.trans hbit), hdone,
        (hrest F.WT_CMP_OUT_MARK_MASK rfl (by decide)).trans (hpins.trans (hrd _)), hzero⟩
    · have hc : (s.dev.touch m).ChangesOnly ((s.dev.touch m).store R.WT_CMP_START e val mask64) [] [R.WT_CMP_START.addr e] :=
        .store .keep (findReg_WT_CMP_START he) List.mem_cons_self
      have hsame := Dev.wCmp_other (hc.rd (f := F.WT_CMP_OUT_ENABLE) (i := e) (by simp [F.WT_CMP_OUT_ENABLE, hstart, hout]))
      exact ⟨_, .writes _ (exec_cmpEntryWrite_wide he (b := 0) (by decide) (by rw [hstart]) rfl val m s) ht hsame hc.after_touch,
        (Dev.rd_store_any (findReg_WT_CMP_START he) (by simp) hrise rfl rfl (hwhole (by decide))).trans (fieldOf_zero _ _)⟩
    · have hc : (s.dev.touch m).ChangesOnly ((s.dev.touch m).store R.WT_CMP_REPEAT e val mask64) [] [R.WT_CMP_REPEAT.addr e] :=
        .store .keep (findReg_WT_CMP_REPEAT he) List.mem_cons_self
      have hsame := Dev.wCmp_other (hc.rd (f := F.WT_CMP_OUT_ENABLE) (i := e) (by simp [F.WT_CMP_OUT_ENABLE, hrepeat, hout]))
      exact ⟨_, .writes _ (exec_cmpEntryWrite_wide he (b := 8) (by decide) (by rw [hrepeat]) rfl val m s) ht hsame hc.after_touch,
        (Dev.rd_store_any (findReg_WT_CMP_REPEAT he) (by simp) hrise rfl rfl (hwhole (by decide))).trans (fieldOf_zero _ _),
        Dev.rd_store_any (findReg_WT_CMP_REPEAT he) (by simp) hrise rfl rfl (hwhole (by decide))⟩
  case rises =>
    refine ⟨_, .act Dev.markStart rfl rfl (Dev.ChangesOnly.keep.part (fun q hq => ?_) ?_), fun b hb hbit => ?_, ?_⟩
    all_goals simp only [Dev.markStart, ho]
    · cases q <;> simp_all [Part.same]
    · rw [getLsbD_pinsOf _ hb]
      simp [hbit]
  case ends =>
    cases hps : s.dev.web.pulses with
    | nil => exact absurd hps hp
    | cons p ps =>
      obtain ⟨hmem, hle⟩ := foldl_earliest ps p
      refine ⟨_, .act Dev.markEnd rfl rfl (Dev.ChangesOnly.keep.part (fun q hq => ?_) ?_), fun b hb => ?_, _, hmem, hle, ?_⟩
      all_goals simp only [Dev.markEnd, hps]
      · cases q <;> simp_all [Part.same]
      · exact getLsbD_pinsOf _ hb

/-! ### Changing a listed part -/

section
variable {d e : Dev} {ps : List Part} {rs : List Nat}

theorem Dev.ChangesOnly.setSnapD {x : List (Nat × Int)} (h : d.ChangesOnly e ps rs) (hp : Part.snapD ∈ ps) : d.ChangesOnly { e with snapD := x } ps rs :=
  h.part (fun q hq => by cases q <;> simp_all [Part.same]) rfl

theorem Dev.ChangesOnly.setMem {x : List Host.Cell} (h : d.ChangesOnly e ps rs) (hp : Part.mem ∈ ps) : d.ChangesOnly { e with mem := x } ps rs :=
  h.part (fun q hq => by cases q <;> simp_all [Part.same]) rfl

theorem Dev.ChangesOnly.setUe {x : List Nat} (h : d.ChangesOnly e ps rs) (hp : Part.ue ∈ ps) : d.ChangesOnly { e with ue := x } ps rs :=
  h.part (fun q hq => by cases q <;> simp_all [Part.same]) rfl

theorem Dev.ChangesOnly.setOut {x : List Out} (h : d.ChangesOnly e ps rs) (hp : Part.out ∈ ps) : d.ChangesOnly { e with out := x } ps rs :=
  h.part (fun q hq => by cases q <;> simp_all [Part.same]) rfl

theorem Dev.ChangesOnly.setRaised {x : List Ev} (h : d.ChangesOnly e ps rs) (hp : Part.raised ∈ ps) : d.ChangesOnly { e with raised := x } ps rs :=
  h.part (fun q hq => by cases q <;> simp_all [Part.same]) rfl

theorem Dev.ChangesOnly.setTallies {x : List Tally} (h : d.ChangesOnly e ps rs) (hp : Part.tallies ∈ ps) : d.ChangesOnly { e with tallies := x } ps rs :=
  h.part (fun q hq => by cases q <;> simp_all [Part.same]) rfl

theorem Dev.ChangesOnly.setFreeCtr {x : Nat} (h : d.ChangesOnly e ps rs) (hp : Part.freeCtr ∈ ps) : d.ChangesOnly { e with freeCtr := x } ps rs :=
  h.part (fun q hq => by cases q <;> simp_all [Part.same]) rfl

theorem Dev.ChangesOnly.setBus {x : Bus} (h : d.ChangesOnly e ps rs) (hp : Part.bus ∈ ps) : d.ChangesOnly { e with bus := x } ps rs :=
  h.part (fun q hq => by cases q <;> simp_all [Part.same]) rfl

theorem Dev.ChangesOnly.setSys {x : Sys} (h : d.ChangesOnly e ps rs) (hp : Part.sys ∈ ps) : d.ChangesOnly { e with sys := x } ps rs :=
  h.part (fun q hq => by cases q <;> simp_all [Part.same]) rfl

theorem Dev.ChangesOnly.setPat {x : Pat} (h : d.ChangesOnly e ps rs) (hp : Part.pat ∈ ps) : d.ChangesOnly { e with pat := x } ps rs :=
  h.part (fun q hq => by cases q <;> simp_all [Part.same]) rfl

theorem Dev.ChangesOnly.setTmb {x : Tmb} (h : d.ChangesOnly e ps rs) (hp : Part.tmb ∈ ps) : d.ChangesOnly { e with tmb := x } ps rs :=
  h.part (fun q hq => by cases q <;> simp_all [Part.same]) rfl

theorem Dev.ChangesOnly.setWeb {x : Web} (h : d.ChangesOnly e ps rs) (hp : Part.web ∈ ps) : d.ChangesOnly { e with web := x } ps rs :=
  h.part (fun q hq => by cases q <;> simp_all [Part.same]) rfl

theorem Dev.ChangesOnly.setCdc {x : Cdc} (h : d.ChangesOnly e ps rs) (hp : Part.cdc ∈ ps) : d.ChangesOnly { e with cdc := x } ps rs :=
  h.part (fun q hq => by cases q <;> simp_all [Part.same]) rfl

theorem Dev.ChangesOnly.setLas {x : Las} (h : d.ChangesOnly e ps rs) (hp : Part.las ∈ ps) : d.ChangesOnly { e with las := x } ps rs :=
  h.part (fun q hq => by cases q <;> simp_all [Part.same]) rfl

theorem Dev.ChangesOnly.setPace {x : Pace} (h : d.ChangesOnly e ps rs) (hp : Part.pace ∈ ps) : d.ChangesOnly { e with pace := x } ps rs :=
  h.part (fun q hq => by cases q <;> simp_all [Part.same]) rfl

theorem Dev.ChangesOnly.setHst {x : Hst} (h : d.ChangesOnly e ps rs) (hp : Part.hst ∈ ps) : d.ChangesOnly { e with hst := x } ps rs :=
  h.part (fun q hq => by cases q <;> simp_all [Part.same]) rfl

theorem Dev.ChangesOnly.setVlt {x : Vlt} (h : d.ChangesOnly e ps rs) (hp : Part.vlt ∈ ps) : d.ChangesOnly { e with vlt := x } ps rs :=
  h.part (fun q hq => by cases q <;> simp_all [Part.same]) rfl

theorem Dev.ChangesOnly.setHl {x : List LinkSt} (h : d.ChangesOnly e ps rs) (hp : Part.hl ∈ ps) : d.ChangesOnly { e with hl := x } ps rs :=
  h.part (fun q hq => by cases q <;> simp_all [Part.same]) rfl

theorem Dev.ChangesOnly.setUnauth {x : List (Nat × Nat)} (h : d.ChangesOnly e ps rs) (hp : Part.unauth ∈ ps) : d.ChangesOnly { e with unauth := x } ps rs :=
  h.part (fun q hq => by cases q <;> simp_all [Part.same]) rfl

theorem Dev.ChangesOnly.setIns {x : Ins} (h : d.ChangesOnly e ps rs) (hp : Part.ins ∈ ps) : d.ChangesOnly { e with ins := x } ps rs :=
  h.part (fun q hq => by cases q <;> simp_all [Part.same]) rfl

theorem Dev.ChangesOnly.setNzh {x : Nzh} (h : d.ChangesOnly e ps rs) (hp : Part.nzh ∈ ps) : d.ChangesOnly { e with nzh := x } ps rs :=
  h.part (fun q hq => by cases q <;> simp_all [Part.same]) rfl

theorem Dev.ChangesOnly.setDrm {x : Dram} (h : d.ChangesOnly e ps rs) (hp : Part.drm ∈ ps) : d.ChangesOnly { e with drm := x } ps rs :=
  h.part (fun q hq => by cases q <;> simp_all [Part.same]) rfl

theorem Dev.ChangesOnly.setMot {x : Mot} (h : d.ChangesOnly e ps rs) (hp : Part.mot ∈ ps) : d.ChangesOnly { e with mot := x } ps rs :=
  h.part (fun q hq => by cases q <;> simp_all [Part.same]) rfl

theorem Dev.ChangesOnly.setSrv {x : Srv} (h : d.ChangesOnly e ps rs) (hp : Part.srv ∈ ps) : d.ChangesOnly { e with srv := x } ps rs :=
  h.part (fun q hq => by cases q <;> simp_all [Part.same]) rfl

theorem Dev.ChangesOnly.setTrm {x : Trm} (h : d.ChangesOnly e ps rs) (hp : Part.trm ∈ ps) : d.ChangesOnly { e with trm := x } ps rs :=
  h.part (fun q hq => by cases q <;> simp_all [Part.same]) rfl

end

/-! ### Posting for another beat -/

theorem Dev.summary_changes (d : Dev) (code : Nat) (p : List Byte) : d.ChangesOnly (d.summary code p) [] [R.SYS_FAULT_STAT.addr 0] := by
  rcases Dev.summary_cases d code p with e | e | e | e <;> rw [e]
  · exact .keep
  all_goals exact .wr .keep List.mem_cons_self

theorem Dev.raiseAt_raised (d : Dev) (t : Dest) (code beat : Nat) (p : List (Nat × Nat)) :
    (d.raiseAt t code beat p).raised = d.raised ++ [{ d.event t code p with beat := beat }] := by
  rw [← (d.summary_changes code (pack p)).event (by simp) (by decide) t code p, Dev.raiseAt, Dev.event]
  simp only [Dev.summary_raised]

section
variable {d e : Dev} {ps : List Part} {rs : List Nat}

theorem Dev.ChangesOnly.raiseAt {t : Dest} {code beat : Nat} {p : List (Nat × Nat)} (h : d.ChangesOnly e ps rs) (hp : Part.raised ∈ ps)
    (hc : code ∉ summaryCodes ∨ R.SYS_FAULT_STAT.addr 0 ∈ rs) : d.ChangesOnly (e.raiseAt t code beat p) ps rs := by
  have hraise := h.raise (t := t) (p := p) hp hc
  exact ⟨fun q hq => (by have := hraise.parts q hq; cases q <;> simp_all [Part.same, Dev.raise]), hraise.regs, hraise.rising⟩

theorem Dev.rd_raiseAt_ne (d : Dev) (t : Dest) (code beat : Nat) (p : List (Nat × Nat)) {g : Fld} {j : Nat}
    (h : g.reg.addr j ≠ R.SYS_FAULT_STAT.addr 0) : (d.raiseAt t code beat p).rd g j = d.rd g j :=
  (Dev.rd_congr g j rfl).trans (Dev.rd_summary_ne d code _ g j h)

end

theorem Dev.rd_wr_lt {d : Dev} {f : Fld} {v : Nat} (i : Nat) (hv : v < 2 ^ f.w) (hf : f.lo + f.w ≤ 64) (hr : keysRising 0 d.regs = true) :
    (d.wr f i v).rd f i = v := by rw [Dev.rd_wr_self _ _ _ _ hf hr, Nat.mod_eq_of_lt hv]

/-! ### The state of the observer -/

theorem Dev.setWebState_spec (d : Dev) (hr : keysRising 0 d.regs = true) {n : Nat} (hn : n < 4) :
    d.ChangesOnly (d.setWebState n) [] [R.WT_STAT.addr 0] ∧ (d.setWebState n).rd F.WT_STAT_STATE = n ∧
      (d.setWebState n).rd F.WT_STAT_SETTLING = if n = 1 then 1 else 0 := by
  have hrise := Dev.wr_rising d F.WT_STAT_STATE 0 n hr
  refine ⟨.wrB (.wr .keep List.mem_cons_self) List.mem_cons_self, ?_, ?_⟩
  · exact (Dev.rd_wr_same _ F.WT_STAT_SETTLING F.WT_STAT_STATE _ _ rfl (by decide) (by decide) hrise).trans (Dev.rd_wr_lt _ hn (by decide) hr)
  · refine (Dev.rd_wrB_self _ _ _ _ (by decide) (by decide) hrise).trans ?_
    by_cases h : n = 1 <;> simp [h]

/-- Firing is suspended: a suspension in force keeps its cause. -/
theorem Dev.suspend_spec (d : Dev) (hr : keysRising 0 d.regs = true) {cause : Nat} (hc : cause < 4) :
    d.ChangesOnly (d.suspend cause) [] [R.WT_STAT.addr 0] ∧ (d.suspend cause).rd F.WT_STAT_SUSPENDED = 1 ∧
      (d.suspend cause).rd F.WT_STAT_SUSP_CAUSE = if d.rd F.WT_STAT_SUSPENDED = 1 then d.rd F.WT_STAT_SUSP_CAUSE else cause := by
  have hlt : d.rd F.WT_STAT_SUSPENDED < 2 := Dev.rd_lt ..
  unfold Dev.suspend Dev.suspended Dev.on
  by_cases h : d.rd F.WT_STAT_SUSPENDED = 0
  · have hrise := Dev.wr_rising d F.WT_STAT_SUSPENDED 0 1 hr
    simp only [h, ne_eq, not_true_eq_false, decide_false, Bool.false_eq_true, if_false, Nat.zero_ne_one]
    refine ⟨.wr (.wr .keep List.mem_cons_self) List.mem_cons_self, ?_, Dev.rd_wr_lt _ hc (by decide) hrise⟩
    exact (Dev.rd_wr_same _ F.WT_STAT_SUSP_CAUSE F.WT_STAT_SUSPENDED _ _ rfl (by decide) (by decide) hrise).trans
      (Dev.rd_wr_lt _ (by decide) (by decide) hr)
  · have hone : d.rd F.WT_STAT_SUSPENDED = 1 := by omega
    simp [hone, Dev.ChangesOnly.keep]

/-- A change of the observer, its state, and an event. -/
theorem Dev.setWebState_raiseAt_spec {d : Dev} (hr : keysRising 0 d.regs = true) (w : Web) {n code beat : Nat} (hn : n < 4) (hc : code ∉ summaryCodes) :
    let e := (({ d with web := w } : Dev).setWebState n).raiseAt .secure code beat []
    d.ChangesOnly e [.web, .raised] [R.WT_STAT.addr 0] ∧ e.rd F.WT_STAT_STATE = n ∧ (e.rd F.WT_STAT_SETTLING = if n = 1 then 1 else 0) ∧
      e.web = w ∧ e.raised = d.raised ++ [{ d.event .secure code [] with beat := beat }] := by
  have hw : d.ChangesOnly { d with web := w } [.web, .raised] [R.WT_STAT.addr 0] := .setWeb .keep (by decide)
  obtain ⟨hset, hstate, hsettling⟩ := Dev.setWebState_spec { d with web := w } hr hn
  have hall := hw.trans (hset.mono (by simp) (by simp))
  have hne : R.WT_STAT.addr 0 ≠ R.SYS_FAULT_STAT.addr 0 := by decide
  refine ⟨hall.raiseAt (by decide) (.inl hc), (Dev.rd_raiseAt_ne _ _ _ _ _ hne).trans hstate, (Dev.rd_raiseAt_ne _ _ _ _ _ hne).trans hsettling, ?_, ?_⟩
  · simp only [Dev.raiseAt_web]
    exact hset.parts .web (by decide)
  · rw [Dev.raiseAt_raised, hall.event (by decide) (by decide), hset.parts .raised (by decide)]

theorem Dev.setWebState_raise_spec {d : Dev} (hr : keysRising 0 d.regs = true) (w : Web) {n code : Nat} (hn : n < 4) (hc : code ∉ summaryCodes) :
    let e := (({ d with web := w } : Dev).setWebState n).raise .secure code []
    d.ChangesOnly e [.web, .raised] [R.WT_STAT.addr 0] ∧ e.rd F.WT_STAT_STATE = n ∧ e.web = w ∧ e.raised = d.raised ++ [d.event .secure code []] := by
  obtain ⟨hall, hstate, -, hweb, hraised⟩ := Dev.setWebState_raiseAt_spec hr w (beat := (({ d with web := w } : Dev).setWebState n).beat) hn hc
  refine ⟨hall, hstate, hweb, hraised.trans ?_⟩
  have hbeat : (({ d with web := w } : Dev).setWebState n).beat = d.beat :=
    (Dev.setWebState_spec { d with web := w } hr hn).1.rd (f := F.GL_BEAT_BEAT) (i := 0) (by decide)
  rw [hbeat]
  rfl

/-- What the observer keeps as it recovers from COASTING (R101): the measured position, the high-water mark and the edges move to where the
observer was at the last edge. -/
def Web.recovered (w : Web) : Web :=
  let xe := posAt w.x w.v w.a ((w.lastEdge : Int) - w.ts)
  let shift := xe - w.lastPm
  { w with pm := w.pm + shift, hw := w.hw + shift, lastPm := xe, edges := w.edges.map fun (t, p) => (t, p + shift), coastEdges := []
           count := max 8 w.count }

theorem Web.recovered_spec (w : Web) : w.recovered.hw - w.recovered.pm = w.hw - w.pm ∧
    w.recovered.lastPm = posAt w.x w.v w.a ((w.lastEdge : Int) - w.ts) ∧ w.recovered.pm - w.pm = w.recovered.lastPm - w.lastPm := by
  unfold Web.recovered
  exact ⟨by dsimp only; omega, rfl, by dsimp only; omega⟩

/-- Firing is suspended, and one event says so. -/
theorem Dev.suspend_raise_spec {d e : Dev} (hr : keysRising 0 d.regs = true) {w : Web} {cause code : Nat} {p : List (Nat × Nat)} (hcause : cause < 4)
    (hc : code ∉ summaryCodes)
    (he : e = (({ d with web := w } : Dev).suspend cause).raise .secure code p ∨ e = (({ d with web := w } : Dev).raise .secure code p).suspend cause) :
    d.ChangesOnly e [.web, .raised] [R.WT_STAT.addr 0] ∧ e.rd F.WT_STAT_SUSPENDED = 1 ∧
      (e.rd F.WT_STAT_SUSP_CAUSE = if d.rd F.WT_STAT_SUSPENDED = 1 then d.rd F.WT_STAT_SUSP_CAUSE else cause) ∧ e.web = w ∧
      e.raised = d.raised ++ [d.event .secure code p] := by
  have hw : d.ChangesOnly { d with web := w } [.web, .raised] [R.WT_STAT.addr 0] := .setWeb .keep (by decide)
  have hne : R.WT_STAT.addr 0 ≠ R.SYS_FAULT_STAT.addr 0 := by decide
  rcases he with rfl | rfl
  · obtain ⟨hset, hsusp, hwhy⟩ := Dev.suspend_spec { d with web := w } hr hcause
    have hall := hw.trans (hset.mono (by simp) (by simp))
    refine ⟨hall.raise (by decide) (.inl hc), (Dev.rd_raise_ne _ _ _ _ _ _ hne).trans hsusp, (Dev.rd_raise_ne _ _ _ _ _ _ hne).trans hwhy, ?_, ?_⟩
    · rw [Dev.raise_web]
      exact hset.parts .web (by decide)
    · rw [Dev.raise_raised, hall.event (by decide) (by decide), hset.parts .raised (by decide)]
  · have hraise : d.ChangesOnly (({ d with web := w } : Dev).raise .secure code p) [.web, .raised] [R.WT_STAT.addr 0] :=
      hw.raise (by decide) (.inl hc)
    obtain ⟨hset, hsusp, hwhy⟩ := Dev.suspend_spec (({ d with web := w } : Dev).raise .secure code p) (hraise.rising hr) hcause
    refine ⟨hraise.trans (hset.mono (by simp) (by simp)), hsusp, ?_, (hset.parts .web (by decide)).trans (Dev.raise_web ..), ?_⟩
    · rw [hwhy, Dev.rd_raise_ne _ _ _ _ _ _ hne, Dev.rd_raise_ne _ _ _ _ _ _ hne]
      rfl
    · rw [hset.parts .raised (by decide), Dev.raise_raised, hw.event (by decide) (by decide)]

/-- Settles O22: by what a change of state, and a suspension with its event, leave. -/
theorem observerStates : Obligations.ObserverStates := by
  unfold Obligations.ObserverStates
  refine ⟨fun s hinv hst he hlast => ?still, fun s hinv hst hcount => ?tracking, ?recovers, fun s hinv hst hpage hex hmax => ?exhausts,
    fun s hinv hdue => ?reverses⟩
  case still =>
    obtain ⟨hc, hstate, hsettling, hweb, hraised⟩ := Dev.setWebState_raiseAt_spec hinv.regs
      { s.dev.web with x := s.dev.web.lastPm, v := 0, a := 0, count := 0 } (n := 0) (code := 0x0C09) (beat := s.dev.boundary / 4000) (by decide) (by decide)
    exact ⟨_, .act Dev.standstill rfl (if_pos ⟨hst, by simp [he], hlast⟩) hc, hstate, hsettling, hweb, hraised⟩
  case tracking =>
    obtain ⟨hc, hstate, hsettling⟩ := Dev.setWebState_spec s.dev hinv.regs (n := 2) (by decide)
    exact ⟨_, .act Dev.settled rfl (if_pos ⟨hst, hcount⟩) hc, hstate, hsettling⟩
  case recovers =>
    intro s tk hinv hst hlast hcount
    obtain ⟨hc, hstate, hweb, hraised⟩ := Dev.setWebState_raise_spec hinv.regs s.dev.web.recovered (n := 2) (code := 0x0C04) (by decide) (by decide)
    obtain ⟨hdebt, hlastPm, hshift⟩ := s.dev.web.recovered_spec
    rw [← hweb] at hdebt hlastPm hshift
    exact ⟨_, .act Dev.recovered rfl (if_pos ⟨hst, hlast, hcount⟩) hc, hstate, hdebt, hlastPm, hshift, hraised⟩
  case exhausts =>
    obtain ⟨hc, hsusp, hwhy, hweb, hraised⟩ := Dev.suspend_raise_spec hinv.regs (w := { s.dev.web with exhausted := true }) (cause := 2) (code := 0x0C03)
      (p := []) (by decide) (by decide) (.inl rfl)
    have hdo : s.dev.coastExhausted = s.dev.exhaust := if_pos ⟨hst, hpage, hmax⟩
    have hnew : s.dev.exhaust = _ := if_neg (by simp [hex])
    exact ⟨_, .act Dev.coastExhausted rfl (hdo.trans hnew) hc, hsusp, hwhy, congrArg Web.exhausted hweb, hraised⟩
  case reverses =>
    obtain ⟨hc, hsusp, hwhy, hweb, hraised⟩ := Dev.suspend_raise_spec hinv.regs (w := { s.dev.web with revDue := false }) (cause := 1) (code := 0x0C02)
      (p := [(4, s.dev.rd F.WT_DEBT_D)]) (by decide) (by decide) (.inr rfl)
    exact ⟨_, .act Dev.reversed rfl (if_pos hdue) hc, hsusp, hwhy, congrArg Web.revDue hweb, hraised⟩

section
variable {d : Dev} (m : Master)

theorem Dev.rd_touch (d : Dev) (f : Fld) (i : Nat) : (d.touch m).rd f i = d.rd f i := Dev.rd_congr f i (Dev.touch_regs d m)

theorem Dev.reg_touch (d : Dev) (r : Reg) (i : Nat) : (d.touch m).reg r i = d.reg r i := by rw [Dev.reg, Dev.touch_regs, Dev.reg]

theorem Dev.touch_rising (h : keysRising 0 d.regs = true) : keysRising 0 (d.touch m).regs = true := by rwa [Dev.touch_regs]

end

theorem Dev.reg_wr_ne (d : Dev) (f : Fld) (i v : Nat) {r : Reg} {j : Nat} (h : r.addr j ≠ f.reg.addr i) : (d.wr f i v).reg r j = d.reg r j :=
  Dev.reg_setReg_ne _ _ _ _ _ _ h

/-! ### Programming fuses (R304) -/

theorem findReg_VLT_PROG_CTRL : findReg (R.VLT_PROG_CTRL.addr 0) regTable = some ⟨⟨R.VLT_PROG_CTRL,
    [F.VLT_PROG_CTRL_GROUP, F.VLT_PROG_CTRL_PROG, F.VLT_PROG_CTRL_BUSY, F.VLT_PROG_CTRL_RESULT, F.VLT_PROG_CTRL_KEY]⟩, 0, false⟩ :=
  (findReg_drop 183 (by decide +kernel)).trans rfl

/-- What a keyed write stores: the group. -/
theorem Dev.storeProg_spec {d : Dev} (hr : keysRising 0 d.regs = true) (val : Nat) :
    let e := d.store R.VLT_PROG_CTRL 0 val mask32
    d.ChangesOnly e [] [R.VLT_PROG_CTRL.addr 0] ∧ e.rd F.VLT_PROG_CTRL_GROUP = val % 4 ∧ e.rd F.VLT_PROG_CTRL_BUSY = d.rd F.VLT_PROG_CTRL_BUSY ∧
      e.vlt = d.vlt ∧ ∀ g, e.staged g = d.staged g := by
  have hc : d.ChangesOnly (d.store R.VLT_PROG_CTRL 0 val mask32) [] [R.VLT_PROG_CTRL.addr 0] := .store .keep findReg_VLT_PROG_CTRL List.mem_cons_self
  have hvlt : (d.store R.VLT_PROG_CTRL 0 val mask32).vlt = d.vlt := hc.parts .vlt (by simp)
  refine ⟨hc, ?_, Dev.rd_store_ro findReg_VLT_PROG_CTRL (f := F.VLT_PROG_CTRL_BUSY) (by simp) hr rfl, hvlt, fun g => ?_⟩
  · exact (Dev.rd_store_any findReg_VLT_PROG_CTRL (f := F.VLT_PROG_CTRL_GROUP) (by simp) hr rfl rfl (fieldOf_mask32 (by decide))).trans (fieldOf_zero _ _)
  · have hreg (i : Nat) (hi : i < 8) : (d.store R.VLT_PROG_CTRL 0 val mask32).reg R.VLT_ROOT_HASH i = d.reg R.VLT_ROOT_HASH i := by
      have hne : R.VLT_ROOT_HASH.addr i ≠ R.VLT_PROG_CTRL.addr 0 := by interval_cases i <;> decide
      rw [Dev.reg, hc.regs _ (by simpa using hne), Dev.reg]
    simp only [Dev.staged, hvlt]
    split
    · exact List.foldl_ext _ _ _ fun v i hi => by rw [hreg i (List.mem_range.mp hi)]
    · rfl

/-- A field of one register is set, and the vault's own state. -/
theorem Dev.setVlt_wr_spec {d : Dev} (hr : keysRising 0 d.regs = true) (x : Vlt) {f : Fld} {v : Nat} (hv : v < 2 ^ f.w) (hf : f.lo + f.w ≤ 64) :
    d.ChangesOnly (({ d with vlt := x } : Dev).wr f 0 v) [.vlt] [f.reg.addr 0] ∧ (({ d with vlt := x } : Dev).wr f 0 v).rd f = v ∧
      (({ d with vlt := x } : Dev).wr f 0 v).vlt = x :=
  ⟨.wr (.setVlt .keep List.mem_cons_self) List.mem_cons_self, Dev.rd_wr_lt 0 hv hf hr, rfl⟩

/-- What a keyed write does: it stores the group, and PROG of a group that software programs is refused or begins. -/
theorem Dev.wVltProg_eq {d : Dev} (hr : keysRising 0 d.regs = true) {val g : Nat} (hg : g = val % 4) (hkey : bitsOf val 31 16 = 0x4655) :
    d.wVltProg val mask32 =
      if !val.testBit 2 || !(decide (g = 1) || decide (g = 2)) then d.store R.VLT_PROG_CTRL 0 val mask32
      else if !(d.vlt.fuses.group g).blank then (d.store R.VLT_PROG_CTRL 0 val mask32).wr F.VLT_PROG_CTRL_RESULT 0 1
      else if d.programming then (d.store R.VLT_PROG_CTRL 0 val mask32).wr F.VLT_PROG_CTRL_RESULT 0 2
      else ({ d.store R.VLT_PROG_CTRL 0 val mask32 with vlt := { d.vlt with prog := some (g, d.staged g) } } : Dev).wrB F.VLT_PROG_CTRL_BUSY 0 true := by
  obtain ⟨-, hgroup, -, hvlt, hstaged⟩ := Dev.storeProg_spec hr val
  have hprog : (d.store R.VLT_PROG_CTRL 0 val mask32).programming = d.programming := by rw [Dev.programming, hvlt, Dev.programming]
  rw [← hg] at hgroup
  simp only [Dev.wVltProg, hkey, hgroup, hvlt, hprog, hstaged, ne_eq, not_true_eq_false, if_false]

/-- A keyed write that only stores and then sets a field. -/
theorem Dev.storeProg_wr_spec {d : Dev} (hr : keysRising 0 d.regs = true) (val : Nat) {f : Fld} {v : Nat} (hf : f.reg = R.VLT_PROG_CTRL) (hw : f.lo + f.w ≤ 64)
    (hv : v < 2 ^ f.w) :
    d.ChangesOnly ((d.store R.VLT_PROG_CTRL 0 val mask32).wr f 0 v) [] [R.VLT_PROG_CTRL.addr 0] ∧
      ((d.store R.VLT_PROG_CTRL 0 val mask32).wr f 0 v).rd f = v := by
  obtain ⟨hc, -⟩ := Dev.storeProg_spec hr val
  exact ⟨hc.wr (by rw [hf]; exact List.mem_cons_self), Dev.rd_wr_lt 0 hv hw (hc.rising hr)⟩

theorem fuseProg_clauses (m : Master) (val g : Nat) (s : State) (hinv : s.Inv) (ht : s.dev.Takes m R.VLT_PROG_CTRL 0) (hg : g = val % 4) :
    let blank := (s.dev.vlt.fuses.group g).blank
    (bitsOf val 31 16 ≠ 0x4655 → ∃ u, Runs (.fuseProg m val) s u [.bus] []) ∧
    (bitsOf val 31 16 = 0x4655 → ¬ setsBit val 2 ∨ (g = 0 ∨ g = 3) →
      ∃ u, Runs (.fuseProg m val) s u [.bus] [R.VLT_PROG_CTRL.addr 0] ∧ u.dev.rd F.VLT_PROG_CTRL_GROUP = g ∧
        u.dev.rd F.VLT_PROG_CTRL_BUSY = s.dev.rd F.VLT_PROG_CTRL_BUSY) ∧
    (bitsOf val 31 16 = 0x4655 → setsBit val 2 → g = 1 ∨ g = 2 → blank = true → s.dev.programming = false →
      ∃ u, Runs (.fuseProg m val) s u [.bus, .vlt] [R.VLT_PROG_CTRL.addr 0] ∧ u.dev.rd F.VLT_PROG_CTRL_BUSY = 1 ∧
        u.dev.vlt = { s.dev.vlt with prog := some (g, s.dev.staged g) }) ∧
    (bitsOf val 31 16 = 0x4655 → setsBit val 2 → g = 1 ∨ g = 2 → blank = false →
      ∃ u, Runs (.fuseProg m val) s u [.bus] [R.VLT_PROG_CTRL.addr 0] ∧ u.dev.rd F.VLT_PROG_CTRL_RESULT = 1) ∧
    (bitsOf val 31 16 = 0x4655 → setsBit val 2 → g = 1 ∨ g = 2 → blank = true → s.dev.programming = true →
      ∃ u, Runs (.fuseProg m val) s u [.bus] [R.VLT_PROG_CTRL.addr 0] ∧ u.dev.rd F.VLT_PROG_CTRL_RESULT = 2) := by
  intro blank
  have hr := Dev.touch_rising m hinv.regs
  have hvlt : (s.dev.touch m).vlt = s.dev.vlt := Dev.touch_vlt ..
  have hprogramming : (s.dev.touch m).programming = s.dev.programming := by rw [Dev.programming, hvlt, Dev.programming]
  have hstaged : (s.dev.touch m).staged g = s.dev.staged g := by simp only [Dev.staged, Dev.reg_touch, hvlt]
  have heq := fun hkey => Dev.wVltProg_eq (d := s.dev.touch m) hr hg hkey
  simp only [hvlt, hprogramming, hstaged] at heq
  have hruns : ∀ {e ps rs}, (s.dev.touch m).wVltProg val mask32 = e → (s.dev.touch m).ChangesOnly e ps rs → Runs (.fuseProg m val) s { s with dev := e } (.bus :: ps) rs :=
    fun he hc => .writes (fun d => d.wVltProg val mask32) rfl ht he hc.after_touch
  obtain ⟨hc, hgroup, hbusy, -⟩ := Dev.storeProg_spec hr val
  refine ⟨fun hkey => ⟨_, hruns (if_pos hkey) .keep⟩, fun hkey hno => ?_, fun hkey hset hg' hblank hidle => ?_, fun hkey hset hg' hblank => ?_,
    fun hkey hset hg' hblank hbusy' => ?_⟩
  · have hcond : (!val.testBit 2 || !(decide (g = 1) || decide (g = 2))) = true := by
      rcases hno with hno | rfl | rfl
      · simp only [setsBit] at hno; simp [hno]
      · simp
      · simp
    exact ⟨_, hruns ((heq hkey).trans (if_pos hcond)) hc, hgroup.trans hg.symm, hbusy.trans (Dev.rd_touch m ..)⟩
  all_goals
    have hcond : ¬ (!val.testBit 2 || !(decide (g = 1) || decide (g = 2))) = true := by
      simp only [setsBit] at hset
      rcases hg' with hg' | hg' <;> simp [hset, hg']
    replace heq := (heq hkey).trans (if_neg hcond)
    change (s.dev.vlt.fuses.group g).blank = _ at hblank
  · rw [hblank, hidle] at heq
    obtain ⟨hbegin, hbusy', hvlt'⟩ := Dev.setVlt_wr_spec (hc.rising hr) { s.dev.vlt with prog := some (g, s.dev.staged g) } (f := F.VLT_PROG_CTRL_BUSY) (v := 1)
      (by decide) (by decide)
    exact ⟨_, hruns heq ((hc.mono (by simp) (by simp)).trans hbegin), hbusy', hvlt'⟩
  · rw [hblank] at heq
    obtain ⟨hc', hres⟩ := Dev.storeProg_wr_spec hr val (f := F.VLT_PROG_CTRL_RESULT) (v := 1) rfl (by decide) (by decide)
    exact ⟨_, hruns heq hc', hres⟩
  · rw [hblank, hbusy'] at heq
    obtain ⟨hc', hres⟩ := Dev.storeProg_wr_spec hr val (f := F.VLT_PROG_CTRL_RESULT) (v := 2) rfl (by decide) (by decide)
    exact ⟨_, hruns heq hc', hres⟩

/-! ### Advancing the rollback count (R305) -/

theorem rollbackAdvance_clauses (m : Master) (val k : Nat) (s : State) (hinv : s.Inv) (ht : s.dev.Takes m R.VLT_ROLLBACK_CTRL 0) :
    let v := s.dev.rd F.PAT_GEN_ROLLBACK
    (bitsOf val 31 16 ≠ 0x5242 ∨ ¬ setsBit val 0 → ∃ u, Runs (.rollbackAdvance m val) s u [.bus] []) ∧
    (bitsOf val 31 16 = 0x5242 → setsBit val 0 → v ≤ s.dev.vlt.fuses.count →
      ∃ u, Runs (.rollbackAdvance m val) s u [.bus] [R.VLT_ROLLBACK.addr 0] ∧ u.dev.rd F.VLT_ROLLBACK_RESULT = 1) ∧
    (bitsOf val 31 16 = 0x5242 → setsBit val 0 → s.dev.vlt.fuses.count < v → s.dev.vlt.fuses.blankSlot = none →
      ∃ u, Runs (.rollbackAdvance m val) s u [.bus] [R.VLT_ROLLBACK.addr 0] ∧ u.dev.rd F.VLT_ROLLBACK_RESULT = 2) ∧
    (bitsOf val 31 16 = 0x5242 → setsBit val 0 → s.dev.vlt.fuses.count < v → s.dev.vlt.fuses.blankSlot = some k →
      s.dev.programming = true →
      ∃ u, Runs (.rollbackAdvance m val) s u [.bus] [R.VLT_ROLLBACK.addr 0] ∧ u.dev.rd F.VLT_ROLLBACK_RESULT = 3) ∧
    (bitsOf val 31 16 = 0x5242 → setsBit val 0 → s.dev.vlt.fuses.count < v → s.dev.vlt.fuses.blankSlot = some k →
      s.dev.programming = false →
      ∃ u, Runs (.rollbackAdvance m val) s u [.bus, .vlt] [R.VLT_ROLLBACK.addr 0] ∧ u.dev.rd F.VLT_ROLLBACK_BUSY = 1 ∧
        u.dev.vlt = { s.dev.vlt with advance := some (k, v) }) := by
  intro v
  have hr := Dev.touch_rising m hinv.regs
  have hvlt : (s.dev.touch m).vlt = s.dev.vlt := Dev.touch_vlt ..
  have hv : (s.dev.touch m).rd F.PAT_GEN_ROLLBACK = v := Dev.rd_touch m ..
  have hprogramming : (s.dev.touch m).programming = s.dev.programming := by rw [Dev.programming, hvlt, Dev.programming]
  have hruns : ∀ {e ps rs}, (s.dev.touch m).wVltRollback val = e → (s.dev.touch m).ChangesOnly e ps rs →
      Runs (.rollbackAdvance m val) s { s with dev := e } (.bus :: ps) rs :=
    fun he hc => .writes (fun d => d.wVltRollback val) rfl ht he hc.after_touch
  have hresult : ∀ n < 4, (s.dev.touch m).wVltRollback val = (s.dev.touch m).wr F.VLT_ROLLBACK_RESULT 0 n →
      ∃ u, Runs (.rollbackAdvance m val) s u [.bus] [R.VLT_ROLLBACK.addr 0] ∧ u.dev.rd F.VLT_ROLLBACK_RESULT = n :=
    fun n hn he => ⟨_, hruns he (.wr .keep List.mem_cons_self), Dev.rd_wr_lt 0 hn (by decide) hr⟩
  have hkeyed : bitsOf val 31 16 = 0x5242 → setsBit val 0 → ¬ (bitsOf val 31 16 ≠ 0x5242 ∨ (!val.testBit 0) = true) := by
    intro hkey hset
    simp only [setsBit] at hset
    simp [hkey, hset]
  refine ⟨fun hno => ⟨_, hruns (if_pos ?_) .keep⟩, fun hkey hset hle => hresult 1 (by decide) ?_, fun hkey hset hlt hnone => hresult 2 (by decide) ?_,
    fun hkey hset hlt hsome hbusy => hresult 3 (by decide) ?_, fun hkey hset hlt hsome hidle => ?_⟩
  · simpa [setsBit] using hno
  · simp only [Dev.wVltRollback, if_neg (hkeyed hkey hset), hv, hvlt, if_pos hle]
  · simp only [Dev.wVltRollback, if_neg (hkeyed hkey hset), hv, hvlt, if_neg (Nat.not_le.mpr hlt), hnone]
  · simp only [Dev.wVltRollback, if_neg (hkeyed hkey hset), hv, hvlt, if_neg (Nat.not_le.mpr hlt), hsome, hprogramming, hbusy, if_true]
  · obtain ⟨hbegin, hbusy, hvlt'⟩ := Dev.setVlt_wr_spec hr { s.dev.vlt with advance := some (k, v) } (f := F.VLT_ROLLBACK_BUSY) (v := 1) (by decide) (by decide)
    refine ⟨_, hruns ?_ hbegin, hbusy, hvlt'⟩
    simp only [Dev.wVltRollback, if_neg (hkeyed hkey hset), hv, hvlt, if_neg (Nat.not_le.mpr hlt), hsome, hprogramming, hidle, Bool.false_eq_true, if_false,
      Dev.wrB, if_true]

/-- The count and the used slots are shown as the slot is programmed, and the event says so. -/
theorem Dev.rollbackProgDone_spec {d : Dev} (hr : keysRising 0 d.regs = true) {k v : Nat} (h : d.vlt.advance = some (k, v)) :
    let e := d.rollbackProgDone
    d.ChangesOnly e [.vlt, .raised] [R.VLT_ROLLBACK.addr 0] ∧ e.rd F.VLT_ROLLBACK_BUSY = 0 ∧ e.rd F.VLT_ROLLBACK_RESULT = 0 ∧
      e.vlt = { d.vlt with advance := none, fuses.slots := d.vlt.fuses.slots.set k (Fuse.of 2 v) } ∧
      e.rd F.VLT_ROLLBACK_COUNT = e.vlt.fuses.count % 2 ^ 16 ∧
      e.raised = d.raised ++ [d.event .secure 0x0305 [(4, e.vlt.fuses.count), (1, e.vlt.fuses.usedSlots)]] := by
  intro e
  set x : Vlt := { d.vlt with advance := none, fuses.slots := d.vlt.fuses.slots.set k (Fuse.of 2 v) }
  have hc : d.ChangesOnly ((((({ d with vlt := x } : Dev).wrB F.VLT_ROLLBACK_BUSY 0 false).wr F.VLT_ROLLBACK_RESULT 0 0).wr F.VLT_ROLLBACK_COUNT 0
      x.fuses.count).wr F.VLT_ROLLBACK_USED 0 x.fuses.usedSlots) [.vlt, .raised] [R.VLT_ROLLBACK.addr 0] :=
    .wr (.wr (.wr (.wrB (.setVlt .keep List.mem_cons_self) List.mem_cons_self) List.mem_cons_self) List.mem_cons_self) List.mem_cons_self
  have he : e = ((((({ d with vlt := x } : Dev).wrB F.VLT_ROLLBACK_BUSY 0 false).wr F.VLT_ROLLBACK_RESULT 0 0).wr F.VLT_ROLLBACK_COUNT 0
      x.fuses.count).wr F.VLT_ROLLBACK_USED 0 x.fuses.usedSlots).raise .secure 0x0305 [(4, x.fuses.count), (1, x.fuses.usedSlots)] := by
    simp only [e, Dev.rollbackProgDone, h]
    rfl
  have hvlt : e.vlt = x := by
    rw [he, Dev.raise_vlt]
    rfl
  have hrd : ∀ f : Fld, f.reg = R.VLT_ROLLBACK → ∀ (e : Dev) p, (e.raise .secure 0x0305 p).rd f = e.rd f :=
    fun f hf e p => Dev.rd_raise_ne _ _ _ _ _ _ (by rw [hf]; decide)
  rw [hvlt]
  have hbusy : e.rd F.VLT_ROLLBACK_BUSY = 0 ∧ e.rd F.VLT_ROLLBACK_RESULT = 0 ∧ e.rd F.VLT_ROLLBACK_COUNT = x.fuses.count % 2 ^ 16 := by
    rw [he, hrd _ rfl, hrd _ rfl, hrd _ rfl]
    simp [F.VLT_ROLLBACK_BUSY, F.VLT_ROLLBACK_RESULT, F.VLT_ROLLBACK_COUNT, F.VLT_ROLLBACK_USED, Dev.rd_wr_same, Dev.rd_wr_self, Dev.wrB, keysRising_mapSet,
      keysRising_mapSet_two, keysRising_mapSet_three, hr]
  refine ⟨he ▸ hc.raise (by simp) (.inl (by decide)), hbusy.1, hbusy.2.1, rfl, hbusy.2.2, ?_⟩
  rw [he, Dev.raise_raised, hc.event (by decide) (by decide)]
  rfl

/-! ### Attestation (R306) -/

theorem Dev.attestMessage_touch (d : Dev) (m : Master) : (d.touch m).attestMessage = d.attestMessage := by
  rw [Dev.touch_eq]
  rfl

theorem attestGo_clauses (m : Master) (s : State) (hinv : s.Inv) (ht : s.dev.Takes m R.VLT_ATTEST_CTRL 0) :
    (s.dev.rd F.VLT_ATTEST_CTRL_BUSY ≠ 0 → ∃ u, Runs (.attestGo m) s u [.bus] []) ∧
    (s.dev.rd F.VLT_ATTEST_CTRL_BUSY = 0 →
      ∃ u, Runs (.attestGo m) s u [.bus, .vlt] [R.VLT_ATTEST_CTRL.addr 0] ∧ u.dev.rd F.VLT_ATTEST_CTRL_BUSY = 1 ∧
        u.dev.vlt = { s.dev.vlt with attest := some (portOf m), attestMsg := s.dev.attestMessage }) := by
  have hruns : ∀ {e ps rs}, (s.dev.touch m).wVltAttest m 1 = e → (s.dev.touch m).ChangesOnly e ps rs → Runs (.attestGo m) s { s with dev := e } (.bus :: ps) rs :=
    fun he hc => .writes (fun d => d.wVltAttest m 1) rfl ht he hc.after_touch
  refine ⟨fun hbusy => ⟨_, hruns (if_pos ?_) .keep⟩, fun hidle => ?_⟩
  · simp [Dev.on, Dev.rd_touch, hbusy]
  · obtain ⟨hgo, hbusy, hvlt⟩ := Dev.setVlt_wr_spec (Dev.touch_rising m hinv.regs)
      { (s.dev.touch m).vlt with attest := some (portOf m), attestMsg := (s.dev.touch m).attestMessage } (f := F.VLT_ATTEST_CTRL_BUSY) (v := 1)
      (by decide) (by decide)
    refine ⟨_, hruns (if_neg (by simp [Dev.on, Dev.rd_touch, hidle])) hgo, hbusy, hvlt.trans ?_⟩
    rw [Dev.touch_vlt, Dev.attestMessage_touch]

/-- The words of an array of registers, from its first one on. -/
def Dev.setWords (d : Dev) (r : Reg) (n : Nat) (g : Nat → Nat) : Dev := (List.range n).foldl (fun d i => d.setReg r i (g i)) d

theorem Dev.setWords_changes (d : Dev) {r : Reg} {n : Nat} {g : Nat → Nat} {ps : List Part} {rs : List Nat} (h : ∀ i < n, r.addr i ∈ rs) :
    d.ChangesOnly (d.setWords r n g) ps rs := by
  induction n with
  | zero => exact .keep
  | succ n ih =>
    simp only [Dev.setWords, List.range_succ, List.foldl_append, List.foldl_cons, List.foldl_nil]
    exact .setReg (ih fun i hi => h i (by omega)) (h n (by omega))

theorem Dev.reg_setWords {d : Dev} (hr : keysRising 0 d.regs = true) {r : Reg} {n : Nat} {g : Nat → Nat} (hinj : ∀ j < n, ∀ i < j, r.addr i ≠ r.addr j)
    {i : Nat} (hi : i < n) : (d.setWords r n g).reg r i = g i % 2 ^ 64 := by
  induction n with
  | zero => omega
  | succ n ih =>
    have hlast : d.setWords r (n + 1) g = (d.setWords r n g).setReg r n (g n) := by
      simp only [Dev.setWords, List.range_succ, List.foldl_append, List.foldl_cons, List.foldl_nil]
    have hrise := (d.setWords_changes (r := r) (n := n) (g := g) (ps := []) (rs := (List.range n).map (r.addr ·))
      fun i hi => List.mem_map_of_mem (List.mem_range.mpr hi)).rising hr
    rw [hlast]
    by_cases hin : i = n
    · subst hin
      rw [Dev.reg_setReg_self _ _ _ _ hrise]
    · rw [Dev.reg_setReg_ne _ _ _ _ _ _ (hinj n (by omega) i (by omega))]
      exact ih (fun j hj => hinj j (by omega)) (by omega)

theorem sliceNat_lt (bs : List Byte) (off : Nat) : sliceNat bs off 8 < 2 ^ 64 := by
  calc ofLeBytes ((bs.drop off).take 8) < 256 ^ ((bs.drop off).take 8).length := ofLeBytes_lt _
    _ ≤ 256 ^ 8 := Nat.pow_le_pow_right (by decide) (List.length_take_le 8 _)
    _ = 2 ^ 64 := by decide

/-- The signature that ends an attestation (R306), with the next of the free numbers. -/
def Dev.attestation (d : Dev) : List Byte :=
  let sig := ecdsaSign d.vlt.used.deviceKey.value (ofBeBytes (sha256 d.vlt.attestMsg)) (Config.free d.freeCtr % (p256N - 1) + 1)
  beBytes 32 sig.1 ++ beBytes 32 sig.2

theorem Dev.attestDone_eq {d : Dev} {who : Option (Fin 2)} (h : d.vlt.attest = some who) :
    d.attestDone = ((({ ({ d with freeCtr := d.freeCtr + 1 } : Dev).setWords R.VLT_ATTEST_SIG 8 (fun i => sliceNat d.attestation (8 * i) 8) with
      vlt := { d.vlt with attest := none, attestMsg := [] } } : Dev).wrB F.VLT_ATTEST_CTRL_BUSY 0 false).raise (toWriter who) 0x0306 []) := by
  have hvlt : (({ d with freeCtr := d.freeCtr + 1 } : Dev).setWords R.VLT_ATTEST_SIG 8 fun i => sliceNat d.attestation (8 * i) 8).vlt = d.vlt :=
    (Dev.setWords_changes (ps := []) (rs := (List.range 8).map (R.VLT_ATTEST_SIG.addr ·)) _ fun i hi => List.mem_map_of_mem (List.mem_range.mpr hi)).parts .vlt (by simp)
  rw [← hvlt]
  simp only [Dev.attestDone, h, Dev.free, Dev.attestation]
  generalize ecdsaSign _ _ _ = sig
  rfl

theorem attestDone_clauses (who : Option (Fin 2)) (s : State) (hinv : s.Inv) (h : s.dev.vlt.attest = some who) :
    ∃ u, Runs .attestDone s u [.vlt, .raised, .freeCtr]
        (R.VLT_ATTEST_CTRL.addr 0 :: (List.range 8).map (R.VLT_ATTEST_SIG.addr ·)) ∧ u.dev.rd F.VLT_ATTEST_CTRL_BUSY = 0 ∧
      (∀ i : Fin 8, u.dev.reg R.VLT_ATTEST_SIG i = sliceNat s.dev.attestation (8 * i) 8) ∧
      u.dev.vlt = { s.dev.vlt with attest := none, attestMsg := [] } ∧
      u.dev.raised = s.dev.raised ++ [s.dev.event (toWriter who) 0x0306 []] := by
  have hdone := Dev.attestDone_eq h
  generalize s.dev.attestation = sig at hdone ⊢
  have hwords : s.dev.ChangesOnly (({ s.dev with freeCtr := s.dev.freeCtr + 1 } : Dev).setWords R.VLT_ATTEST_SIG 8 fun i => sliceNat sig (8 * i) 8)
      [.vlt, .raised, .freeCtr] (R.VLT_ATTEST_CTRL.addr 0 :: (List.range 8).map (R.VLT_ATTEST_SIG.addr ·)) :=
    (Dev.ChangesOnly.setFreeCtr .keep (by simp)).trans
      (Dev.setWords_changes _ fun i hi => List.mem_cons_of_mem _ (List.mem_map_of_mem (List.mem_range.mpr hi)))
  have hc := (hwords.setVlt (x := { s.dev.vlt with attest := none, attestMsg := [] }) (by simp)).wrB (f := F.VLT_ATTEST_CTRL_BUSY) (i := 0) (b := false)
    List.mem_cons_self
  refine ⟨_, .act Dev.attestDone rfl hdone (hc.raise (by simp) (.inl (by decide))), ?_, fun i => ?_, Dev.raise_vlt .., ?_⟩
  · rw [Dev.rd_raise_ne _ _ _ _ _ _ (by decide)]
    exact Dev.rd_wrB_self _ _ _ _ (by decide) (by decide) (hwords.rising hinv.regs)
  · have hraise : ∀ e : Dev, (e.raise (toWriter who) 0x0306 []).reg R.VLT_ATTEST_SIG i = e.reg R.VLT_ATTEST_SIG i := fun e => by
      rw [Dev.reg, (Dev.ChangesOnly.raise (ps := [.raised]) (rs := []) .keep List.mem_cons_self (.inl (by decide))).regs _ List.not_mem_nil, Dev.reg]
    have hapart : ∀ j < 8, ∀ i < j, R.VLT_ATTEST_SIG.addr i ≠ R.VLT_ATTEST_SIG.addr j := by decide
    have hset := (Dev.reg_setWords (d := { s.dev with freeCtr := s.dev.freeCtr + 1 }) (g := fun i => sliceNat sig (8 * i) 8) hinv.regs hapart i.isLt).trans
      (Nat.mod_eq_of_lt (sliceNat_lt _ _))
    have hbusy : R.VLT_ATTEST_SIG.addr i ≠ R.VLT_ATTEST_CTRL.addr 0 := by fin_cases i <;> decide
    exact (hraise _).trans ((Dev.reg_wr_ne _ _ _ _ hbusy).trans hset)
  · have hraised : ((({ s.dev with freeCtr := s.dev.freeCtr + 1 } : Dev).setWords R.VLT_ATTEST_SIG 8 fun i => sliceNat sig (8 * i) 8)).raised = s.dev.raised :=
      (Dev.setWords_changes (ps := []) (rs := (List.range 8).map (R.VLT_ATTEST_SIG.addr ·)) _ fun i hi => List.mem_map_of_mem (List.mem_range.mpr hi)).parts
        .raised (by simp)
    rw [Dev.raise_raised, hc.event (by decide) (by decide), Dev.wrB_raised, hraised]

theorem Dev.fuseProgDone_spec {d : Dev} (hr : keysRising 0 d.regs = true) {g v : Nat} (h : d.vlt.prog = some (g, v)) :
    let e := d.fuseProgDone
    d.ChangesOnly e [.vlt] [R.VLT_PROG_CTRL.addr 0] ∧ e.rd F.VLT_PROG_CTRL_BUSY = 0 ∧ e.rd F.VLT_PROG_CTRL_RESULT = 0 ∧
      e.vlt = { d.vlt with prog := none, fuses := d.vlt.fuses.setGroup g (Fuse.of (fuseBytes g) v) } := by
  intro e
  set x : Vlt := { d.vlt with prog := none, fuses := d.vlt.fuses.setGroup g (Fuse.of (fuseBytes g) v) } with hx
  have he : e = (({ d with vlt := x } : Dev).wr F.VLT_PROG_CTRL_BUSY 0 0).wr F.VLT_PROG_CTRL_RESULT 0 0 := by
    simp only [e, Dev.fuseProgDone, h, Dev.wrB, Bool.false_eq_true, if_false, hx]
  obtain ⟨hc, hbusy, hvlt⟩ := Dev.setVlt_wr_spec hr x (f := F.VLT_PROG_CTRL_BUSY) (v := 0) (by decide) (by decide)
  have hrise := hc.rising hr
  rw [he]
  exact ⟨hc.wr List.mem_cons_self,
    (Dev.rd_wr_same _ F.VLT_PROG_CTRL_RESULT F.VLT_PROG_CTRL_BUSY _ _ rfl (by decide) (by decide) hrise).trans hbusy,
    Dev.rd_wr_lt (f := F.VLT_PROG_CTRL_RESULT) 0 (by decide) (by decide) hrise, hvlt⟩

/-- Settles O50: by what each write stores and sets, and what the ends of programming and attestation leave. -/
theorem fuseProgramming : Obligations.FuseProgramming := by
  unfold Obligations.FuseProgramming
  refine ⟨fun m val g s hinv ht hg => fuseProg_clauses m val g s hinv ht hg, fun g v s hinv => ⟨fun h => ?_, fun h => ?_⟩,
    fun m val k s hinv ht => rollbackAdvance_clauses m val k s hinv ht, fun k v s hinv => ⟨fun h => ?_, fun h => ?_⟩,
    fun m s hinv ht => attestGo_clauses m s hinv ht, fun who s hinv => ⟨fun h => ?_, fun h => attestDone_clauses who s hinv h⟩⟩
  · exact .act Dev.fuseProgDone rfl (by simp only [Dev.fuseProgDone, h])
  · obtain ⟨hc, hbusy, hresult, hvlt⟩ := Dev.fuseProgDone_spec hinv.regs h
    exact ⟨_, .act Dev.fuseProgDone rfl rfl hc, hbusy, hresult, hvlt⟩
  · exact .act Dev.rollbackProgDone rfl (by simp only [Dev.rollbackProgDone, h])
  · obtain ⟨hc, hbusy, hres, hvlt, hcount, hraised⟩ := Dev.rollbackProgDone_spec hinv.regs h
    exact ⟨_, .act Dev.rollbackProgDone rfl rfl hc, hbusy, hres, hvlt, hcount, hraised⟩
  · exact .act Dev.attestDone rfl (by simp only [Dev.attestDone, h])

end Sys2Proof.Machine
end

section
/-!
PROOFS. Register reads, losing a master, servo axes, the vault's domain and the inhibit.
-/

namespace Sys2Proof.Machine

set_option Elab.async false

/-! ### Register reads (R30, R75) -/

theorem Dev.latch_setLatch (d : Dev) (m : Master) (l : BusLatch) : (d.setLatch m l).latch m = l := by cases m <;> rfl

theorem Dev.latch_touch (d : Dev) (m : Master) : (d.touch m).latch m = { d.latch m with held := none } := Dev.latch_setLatch ..

theorem Dev.setLatch_eq (d : Dev) (m : Master) (l : BusLatch) : d.setLatch m l = { d with bus := (d.setLatch m l).bus } := by cases m <;> rfl

theorem Dev.ChangesOnly.setLatch {d e : Dev} {ps : List Part} {rs : List Nat} (h : d.ChangesOnly e ps rs) (hp : Part.bus ∈ ps) (m : Master) (l : BusLatch) :
    d.ChangesOnly (e.setLatch m l) ps rs := by
  rw [Dev.setLatch_eq]
  exact h.setBus hp

theorem Dev.ChangesOnly.latchFrac {d e : Dev} {ps : List Part} {rs : List Nat} (h : d.ChangesOnly e ps rs) (hp : Part.bus ∈ ps) (m : Master) (x : Hit) :
    d.ChangesOnly (e.latchFrac m x) ps rs := by
  unfold Dev.latchFrac
  split
  · exact h.setLatch hp ..
  · exact h

/-- The four bytes of a word hold no higher bits. -/
theorem leBytes_four_mod (v : Nat) : leBytes 4 (v % 2 ^ 32) = leBytes 4 v := by
  refine List.map_congr_left fun i hi => BitVec.eq_of_toNat_eq ?_
  have hi : i < 4 := List.mem_range.mp hi
  simp only [BitVec.toNat_ofNat]
  interval_cases i <;> omega

/-- No register is converted at a read but the low word of a channel's. -/
theorem Dev.convert_of_ne {d : Dev} {h : Hit} (hne : h.row.reg.base ≠ R.TRM_CH.base ∨ h.high = true) : d.convert h = d := by
  unfold Dev.convert
  rw [if_neg (by rcases hne with hne | hne <;> simp [hne])]

/-- A register read that passes R31 answers the word it reads. -/
theorem Dev.regRead_eq {d e : Dev} {m : Master} {off bytes v : Nat} (hh : d.hears m = true) (hspan : d.spanCheck m (regSpace + off) bytes = (.pass, off))
    (hpass : d.regCheck m off = .pass) (hv : (if bytes = 8 then d.read64 m off else d.read32 m off) = (v, e)) :
    d.regRead m (regSpace + off) bytes = e.emit (.completion m .ok (leBytes bytes v)) := by
  simp [Dev.regRead, hh, hspan, Dev.readWord, hpass, hv]

section
variable {d : Dev} {m : Master} {off : Nat} {h : Hit} (hf : findReg off regTable = some h) (hw : h.row.reg.width = 64)
include hf hw

theorem Dev.read32_low (hl : h.high = false) (hne : h.row.reg.base ≠ R.TRM_CH.base) :
    d.read32 m off = (d.readReg m h % 2 ^ 32, (d.latchFrac m h).setLatch m { (d.latchFrac m h).latch m with held := some (off, d.readReg m h / 2 ^ 32) }) := by
  simp [Dev.read32, hf, hw, hl, Dev.convert_of_ne (.inl hne)]

theorem Dev.read32_held (hl : h.high = true) {a hi : Nat} (hheld : (d.latch m).held = some (a, hi)) (ha : a + 4 = off) :
    d.read32 m off = (hi, d.touch m) := by
  simp [Dev.read32, hf, hw, hl, Dev.convert_of_ne (.inr hl), hheld, ha]

theorem Dev.read64_whole (hl : h.high = false) (hne : h.row.reg.base ≠ R.TRM_CH.base) : d.read64 m off = (d.readReg m h, (d.touch m).latchFrac m h) := by
  simp [Dev.read64, hf, hw, hl, Dev.convert_of_ne (.inl hne)]

end

theorem findReg_TB_NOW : findReg (R.TB_NOW.addr 0) regTable = some ⟨⟨R.TB_NOW, [F.TB_NOW_NS]⟩, 0, false⟩ := (findReg_drop 23 (by decide +kernel)).trans rfl

theorem findReg_TB_NOW_high : findReg (R.TB_NOW.addr 0 + 4) regTable = some ⟨⟨R.TB_NOW, [F.TB_NOW_NS]⟩, 0, true⟩ := (findReg_drop 23 (by decide +kernel)).trans rfl

/-- Both words of TB_NOW pass R31 together. -/
theorem Dev.regCheck_TB_NOW_high (d : Dev) (m : Master) : d.regCheck m (R.TB_NOW.addr 0 + 4) = d.regCheck m (R.TB_NOW.addr 0) := by
  have hblock : blockOf (R.TB_NOW.addr 0 + 4) = blockOf (R.TB_NOW.addr 0) := by decide
  simp only [Dev.regCheck, Dev.regSecure, findReg_TB_NOW, findReg_TB_NOW_high, hblock]

theorem runs_regRead {c : Instr} {m : Master} {off bytes v : Nat} {s : State} {e : Dev} (hx : exec c s = s.act fun d => d.regRead m (regSpace + off) bytes)
    (hh : s.dev.hears m = true) (hspan : s.dev.spanCheck m (regSpace + off) bytes = (.pass, off)) (hpass : s.dev.regCheck m off = .pass)
    (hv : (if bytes = 8 then s.dev.read64 m off else s.dev.read32 m off) = (v, e)) (hc : s.dev.ChangesOnly e [.bus, .out] []) (hout : e.out = s.dev.out) :
    ∃ t, Runs c s t [.bus, .out] [] ∧ t.dev.out = s.dev.out ++ [.completion m .ok (leBytes bytes v)] ∧ ∀ m', t.dev.latch m' = e.latch m' := by
  refine ⟨_, .act (fun d => d.regRead m (regSpace + off) bytes) hx (Dev.regRead_eq hh hspan hpass hv) (hc.setOut (by decide)), ?_, fun m' => ?_⟩
  · rw [← hout]
    rfl
  · cases m' <;> rfl

/-- A read of TB_NOW whole answers it and latches the fraction. -/
theorem Dev.read64_TB_NOW (d : Dev) (m : Master) :
    d.read64 m (R.TB_NOW.addr 0) = (d.now, (d.touch m).latchFrac m ⟨⟨R.TB_NOW, [F.TB_NOW_NS]⟩, 0, false⟩) := by
  rw [Dev.read64_whole findReg_TB_NOW rfl rfl (by decide), Dev.readReg, if_pos rfl]

/-- Settles O4: by what one word read answers and leaves in the master's latch. -/
theorem registerReads : Obligations.RegisterReads := by
  unfold Obligations.RegisterReads
  refine ⟨fun m off h s hh hpass ha hf hw hl hne => ?low, fun m off hi h s hh hpass ha hf hw hl hheld => ?high, fun m s ⟨hh, hpass⟩ => ?now⟩
  case low =>
    obtain ⟨t, hruns, hout, hlatch⟩ := runs_regRead (c := .lowWordRead m (regSpace + off) 4) rfl hh (Dev.spanCheck_four hpass ha) hpass
      (Dev.read32_low hf hw hl hne) ((Dev.ChangesOnly.keep.latchFrac (by decide) m h).setLatch (by decide) m _) (by simp [Dev.latchFrac, apply_ite])
    exact ⟨t, hruns, hout.trans (by rw [leBytes_four_mod]), by rw [hlatch, Dev.latch_setLatch]⟩
  case high =>
    rw [Nat.add_assoc]
    obtain ⟨t, hruns, hout, hlatch⟩ := runs_regRead (c := .lowWordRead m (regSpace + (off + 4)) 4) rfl hh (Dev.spanCheck_four hpass (by omega)) hpass
      (Dev.read32_held hf hw hl hheld rfl) (.touch _ m _ (by decide)) (Dev.touch_out ..)
    exact ⟨t, hruns, hout, by rw [hlatch, Dev.latch_touch]⟩
  case now =>
    obtain ⟨t, hruns, hout, hlatch⟩ := runs_regRead (c := .tbNowRead m 8) rfl hh
      (Dev.spanCheck_eight hpass ((Dev.regCheck_TB_NOW_high ..).trans hpass) (by decide)) hpass
      ((if_pos rfl).trans (s.dev.read64_TB_NOW m)) ((Dev.ChangesOnly.touch _ m _ (by decide)).latchFrac (by decide) m _)
      (by simp [Dev.latchFrac])
    exact ⟨t, hruns, hout, by rw [hlatch]; simp [Dev.latchFrac, Dev.latch_setLatch]⟩

/-! ### The parts of a list -/

theorem at'_modify_self {α : Type} [Inhabited α] {l : List α} {i : Nat} (f : α → α) (h : i < l.length) : at' (l.modify i f) i = f (at' l i) := by
  simp [at', List.getD_eq_getElem?_getD, h]

theorem at'_modify_ne {α : Type} [Inhabited α] {l : List α} {i j : Nat} (f : α → α) (h : i ≠ j) : at' (l.modify i f) j = at' l j := by
  simp [at', List.getD_eq_getElem?_getD, h]

/-! ### The events of one command, in order -/

theorem mem_insertEv {x e : Ev} {l : List Ev} : x ∈ insertEv e l ↔ x = e ∨ x ∈ l := by
  induction l with
  | nil => simp [insertEv]
  | cons f r ih =>
    unfold insertEv
    split
    · simp
    · simp only [List.mem_cons, ih]; tauto

/-- Ordering the events of a command leaves none out and adds none. -/
theorem Dev.mem_orderEvents {d : Dev} {n : Nat} {x : Ev} : x ∈ (d.orderEvents n).raised ↔ x ∈ d.raised := by
  have hfold : ∀ l acc : List Ev, x ∈ l.foldl (fun l e => insertEv e l) acc ↔ x ∈ l ∨ x ∈ acc := by
    intro l
    induction l with
    | nil => simp
    | cons e l ih => intro acc; rw [List.foldl_cons, ih, mem_insertEv, List.mem_cons]; tauto
  have hsplit : x ∈ d.raised ↔ x ∈ d.raised.take n ∨ x ∈ d.raised.drop n := by rw [← List.mem_append, List.take_append_drop]
  simp only [Dev.orderEvents, List.mem_append, hfold, List.not_mem_nil, or_false, ← hsplit]

theorem Dev.ChangesOnly.orderEvents {d e : Dev} {ps : List Part} {rs : List Nat} (h : d.ChangesOnly e ps rs) (hp : Part.raised ∈ ps) (n : Nat) :
    d.ChangesOnly (e.orderEvents n) ps rs := h.setRaised hp

/-- A command whose events are put in order, whatever they are. -/
theorem Runs.ordered {c : Instr} {s : State} {ps : List Part} {rs : List Nat} {e : Dev} (f : Dev → Dev) (hx : exec c s = s.actInOrder f) (he : f s.dev = e)
    (hp : Part.raised ∈ ps) (h : s.dev.ChangesOnly e ps rs) : Runs c s { s with dev := e.orderEvents s.dev.raised.length } ps rs := by
  subst he
  exact ⟨hx.trans (State.actInOrder_next ..), rfl, (h.orderEvents hp _).parts, (h.orderEvents hp _).regs⟩

/-- An event as it is posted where the steps read as they did, though TB_STATE has changed. -/
theorem Dev.ChangesOnly.event_steps {d e : Dev} {ps : List Part} {rs : List Nat} (h : d.ChangesOnly e ps rs) (hp : Part.pat ∉ ps) (hsteps : e.steps = d.steps)
    (hr : ∀ a ∈ [R.GL_BEAT.addr 0, R.HST_EVR_CFG.addr 0, R.HST_EVR_CFG.addr 1], a ∉ rs) (t : Dest) (code : Nat) (p : List (Nat × Nat)) :
    e.event t code p = d.event t code p := by
  have hbeat : e.beat = d.beat := h.rd (hr _ (by decide))
  have hring (q : Fin 2) : e.ringOn q = d.ringOn q := by
    have hrd : e.rd F.HST_EVR_CFG_ENABLE q = d.rd F.HST_EVR_CFG_ENABLE q := h.rd (hr _ (by fin_cases q <;> decide))
    rw [Dev.ringOn, Dev.on, hrd, Dev.ringOn, Dev.on]
  have hsecure (q : Fin 2) : e.portSecure q = d.portSecure q := Dev.portSecure_congr q (h.parts .pat hp)
  have hto (q : Fin 2) : e.addressed t q = d.addressed t q := by cases t <;> simp only [Dev.addressed, hring, hsecure]
  simp only [Dev.event, hbeat, hsteps, hto]

theorem clampNat_le {lo hi : Nat} (h : lo ≤ hi) (v : Nat) : clampNat lo hi v ≤ hi := by
  unfold clampNat
  split_ifs <;> omega

/-! ### Losing the selected master (R86, R89) -/

theorem sameMaster_comm (a b : Foreign) : sameMaster a b = sameMaster b a := by
  unfold sameMaster
  exact decide_eq_decide.mpr ⟨fun ⟨h, h'⟩ => ⟨h.symm, h'.symm⟩, fun ⟨h, h'⟩ => ⟨h.symm, h'.symm⟩⟩

theorem bestOf_mem {l : List Foreign} {f : Foreign} (h : bestOf l = some f) : f ∈ l := by
  induction l with
  | nil => simp [bestOf] at h
  | cons g l ih =>
    unfold bestOf at h
    split at h
    · next b hb =>
      split at h
      · exact List.mem_cons_of_mem _ (ih (hb.trans h))
      · exact Option.some.inj h ▸ List.mem_cons_self
    · exact Option.some.inj h ▸ List.mem_cons_self

/-- The registers that a change of the selected master may write. -/
def masterRegs : List Nat := [R.TB_GM.addr 0, R.TB_STATE.addr 0, R.TB_INCR.addr 0]

/-- The grandmaster that a choice shows. -/
def shownMaster (new : Option Foreign) : Nat := match new with | some f => f.msg.src.clock.toNat | none => 0

theorem shownMaster_lt (new : Option Foreign) : shownMaster new < 2 ^ 64 := by
  cases new with
  | none => decide
  | some f => exact f.msg.src.clock.isLt

/-- From d on, new has been made the selected master and is shown, in time state n. -/
structure Dev.Chosen (d e : Dev) (new : Option Foreign) (n : Nat) : Prop where
  changes : d.ChangesOnly e [.tmb, .raised] masterRegs
  selected : e.tmb.selected = new
  synced : e.tmb.synced = false
  integ : e.tmb.integ = d.tmb.integ
  master : e.rd F.TB_GM_IDENTITY = shownMaster new
  steps : e.steps = d.steps
  state : e.timeState = n

section
variable {d e : Dev} {new : Option Foreign} {n : Nat}

theorem Dev.Chosen.event (h : d.Chosen e new n) (t : Dest) (code : Nat) (p : List (Nat × Nat)) : e.event t code p = d.event t code p :=
  h.changes.event_steps (by decide) h.steps (by decide) t code p

/-- The choice is written. -/
theorem Dev.chosen_first (hr : keysRising 0 d.regs = true) {x : Tmb} (hs : x.selected = new) (hsy : x.synced = false) (hi : x.integ = d.tmb.integ) :
    d.Chosen (({ d with tmb := x } : Dev).wr F.TB_GM_IDENTITY 0 (shownMaster new)) new d.timeState where
  changes := .wr (.setTmb .keep List.mem_cons_self) List.mem_cons_self
  selected := hs
  synced := hsy
  integ := hi
  master := Dev.rd_wr_lt _ (shownMaster_lt new) (by decide) hr
  steps := Dev.rd_wr_ne _ _ _ _ _ _ (by decide)
  state := Dev.rd_wr_ne _ _ _ _ _ _ (by decide)

theorem Dev.Chosen.port (hr : keysRising 0 d.regs = true) (h : d.Chosen e new n) (v : Nat) : d.Chosen (e.wr F.TB_STATE_PORT 0 v) new n where
  changes := h.changes.wr (by decide)
  selected := h.selected
  synced := h.synced
  integ := h.integ
  master := (Dev.rd_wr_ne _ _ _ _ _ _ (by decide)).trans h.master
  steps := (Dev.rd_wr_same e F.TB_STATE_PORT F.TB_STATE_STEPS 0 v rfl (by decide) (by decide) (h.changes.rising hr)).trans h.steps
  state := (Dev.rd_wr_same e F.TB_STATE_PORT F.TB_STATE_STATE 0 v rfl (by decide) (by decide) (h.changes.rising hr)).trans h.state

theorem Dev.Chosen.raise (h : d.Chosen e new n) {code : Nat} (hc : code ∉ summaryCodes) (t : Dest) (p : List (Nat × Nat)) : d.Chosen (e.raise t code p) new n where
  changes := h.changes.raise (by decide) (.inl hc)
  selected := by rw [Dev.raise_tmb, h.selected]
  synced := by rw [Dev.raise_tmb, h.synced]
  integ := by rw [Dev.raise_tmb, h.integ]
  master := (Dev.rd_raise_ne _ _ _ _ _ _ (by decide)).trans h.master
  steps := (Dev.rd_raise_ne _ _ _ _ _ _ (by decide)).trans h.steps
  state := (Dev.rd_raise_ne _ _ _ _ _ _ (by decide)).trans h.state

theorem Dev.Chosen.tmb (h : d.Chosen e new n) {x : Tmb} (hs : x.selected = e.tmb.selected) (hsy : x.synced = e.tmb.synced) (hi : x.integ = e.tmb.integ) :
    d.Chosen { e with tmb := x } new n where
  changes := h.changes.setTmb List.mem_cons_self
  selected := hs.trans h.selected
  synced := hsy.trans h.synced
  integ := hi.trans h.integ
  master := h.master
  steps := h.steps
  state := h.state

theorem Dev.Chosen.holdover (hr : keysRising 0 d.regs = true) (h : d.Chosen e new n) :
    d.Chosen e.toHoldover new 3 ∧ e.toHoldover.rd F.TB_INCR_INCR = clampNat incrMin incrMax (incrOf d.tmb.integ) ∧
      d.event .secure 0x0D02 [] ∈ e.toHoldover.raised := by
  have hrise := h.changes.rising hr
  have hstate : d.Chosen (e.wr F.TB_STATE_STATE 0 3) new 3 :=
    { changes := h.changes.wr (by decide)
      selected := h.selected
      synced := h.synced
      integ := h.integ
      master := (Dev.rd_wr_ne _ _ _ _ _ _ (by decide)).trans h.master
      steps := (Dev.rd_wr_same e F.TB_STATE_STATE F.TB_STATE_STEPS 0 3 rfl (by decide) (by decide) hrise).trans h.steps
      state := Dev.rd_wr_lt _ (by decide) (by decide) hrise }
  have hset : d.Chosen (e.setTimeState 3) new 3 := hstate.tmb rfl rfl rfl
  have hincr : d.Chosen ((e.setTimeState 3).setIncr (incrOf e.tmb.integ)) new 3 :=
    { changes := hset.changes.wr (by decide)
      selected := hset.selected
      synced := hset.synced
      integ := hset.integ
      master := (Dev.rd_wr_ne _ _ _ _ _ _ (by decide)).trans hset.master
      steps := (Dev.rd_wr_ne _ _ _ _ _ _ (by decide)).trans hset.steps
      state := (Dev.rd_wr_ne _ _ _ _ _ _ (by decide)).trans hset.state }
  refine ⟨hincr.raise (by decide) .secure [], ?_, ?_⟩
  · refine (Dev.rd_raise_ne _ _ _ _ _ _ (by decide)).trans ((Dev.rd_wr_lt _ ?_ (by decide) (hset.changes.rising hr)).trans (by rw [h.integ]))
    exact Nat.lt_of_le_of_lt (clampNat_le (by decide) _) (by decide)
  · rw [Dev.toHoldover, Dev.raise_raised, hincr.event]
    exact List.mem_append_right _ List.mem_cons_self

end

/-- A new master differs from the one in force. -/
def Dev.reselected (d : Dev) (new : Option Foreign) : Dev :=
  let e := ({ d with tmb := { d.tmb with selected := new, synced := false, hold := 0 } } : Dev).wr F.TB_GM_IDENTITY 0 (shownMaster new)
  match new with
  | some f => e.wr F.TB_STATE_PORT 0 f.port
  | none => e

theorem Dev.reselected_chosen {d : Dev} (hr : keysRising 0 d.regs = true) (new : Option Foreign) : d.Chosen (d.reselected new) new d.timeState := by
  have h := Dev.chosen_first (new := new) (x := { d.tmb with selected := new, synced := false, hold := 0 }) hr rfl rfl rfl
  cases new with
  | none => exact h
  | some f => exact h.port hr _

/-- What becomes of a new choice: the record of it, and perhaps the event of another master in HOLDOVER. -/
def Dev.recordMaster (d : Dev) (new : Option Foreign) : Dev :=
  match new with
  | none => d
  | some f =>
    let changed := match d.tmb.lastSel with | some c => decide (c ≠ (f.port, f.msg.src)) | none => false
    let d := { d with tmb.lastSel := some (f.port, f.msg.src) }
    if changed && decide (d.timeState = 3) then d.raise .secure 0x0D06 [] else d

theorem Dev.recordMaster_cases (d : Dev) (new : Option Foreign) : d.recordMaster new = d ∨ ∃ x : Tmb,
    x.selected = d.tmb.selected ∧ x.synced = d.tmb.synced ∧ x.integ = d.tmb.integ ∧
      (d.recordMaster new = { d with tmb := x } ∨ d.recordMaster new = ({ d with tmb := x } : Dev).raise .secure 0x0D06 []) := by
  cases new with
  | none => exact .inl rfl
  | some f =>
    exact .inr ⟨{ d.tmb with lastSel := some (f.port, f.msg.src) }, rfl, rfl, rfl, (ite_eq_or_eq _ _ _).symm⟩

theorem Dev.Chosen.record {d e : Dev} {new : Option Foreign} {n : Nat} (h : d.Chosen e new n) (x : Option Foreign) :
    d.Chosen (e.recordMaster x) new n ∧ (∀ f : Fld, f.reg = R.TB_INCR → (e.recordMaster x).rd f = e.rd f) ∧ ∀ v ∈ e.raised, v ∈ (e.recordMaster x).raised := by
  rcases e.recordMaster_cases x with heq | ⟨y, hs, hsy, hi, heq | heq⟩ <;> rw [heq]
  · exact ⟨h, fun _ _ => rfl, fun _ => id⟩
  · exact ⟨h.tmb hs hsy hi, fun _ _ => rfl, fun _ => id⟩
  · refine ⟨(h.tmb hs hsy hi).raise (by decide) .secure [], fun f hf => Dev.rd_raise_ne _ _ _ _ _ _ (by rw [hf]; decide), fun v hv => ?_⟩
    rw [Dev.raise_raised]
    exact List.mem_append_left _ hv

/-- Another choice than the master in force, with the entry to HOLDOVER. -/
def Dev.chooseOther (d : Dev) (new : Option Foreign) : Dev :=
  let e := d.reselected new
  (if decide (e.timeState = 1) || decide (e.timeState = 2) then e.toHoldover else e).recordMaster new

theorem Dev.chooseOther_spec {d : Dev} (hr : keysRising 0 d.regs = true) (new : Option Foreign) :
    ∃ n, d.Chosen (d.chooseOther new) new n ∧
      (d.timeState = 1 ∨ d.timeState = 2 → n = 3 ∧ (d.chooseOther new).rd F.TB_INCR_INCR = clampNat incrMin incrMax (incrOf d.tmb.integ) ∧
        d.event .secure 0x0D02 [] ∈ (d.chooseOther new).raised) := by
  have hnew := Dev.reselected_chosen hr new
  unfold Dev.chooseOther
  simp only [hnew.state, Bool.or_eq_true, decide_eq_true_eq]
  split
  · obtain ⟨hhold, hincr, hev⟩ := hnew.holdover hr
    obtain ⟨hrec, hrd, hmem⟩ := hhold.record new
    exact ⟨3, hrec, fun _ => ⟨rfl, (hrd _ rfl).trans hincr, hmem _ hev⟩⟩
  · next hno => exact ⟨_, (hnew.record new).1, fun h => absurd h hno⟩

theorem Dev.select_eq {d : Dev} {g : Foreign} (hsel : d.tmb.selected = some g) (hno : ∀ f ∈ d.candidates, sameMaster g f = false) :
    d.select = ({ d with tmb.heard := d.candidates } : Dev).chooseOther (bestOf d.candidates) := by
  cases hb : bestOf d.candidates with
  | none =>
    simp only [Dev.select, Dev.chooseOther, Dev.reselected, Dev.recordMaster, hsel, hb, shownMaster, Option.isSome_some, Bool.true_and,
      Bool.false_eq_true, if_false]
    rfl
  | some b =>
    have hother := hno b (bestOf_mem hb)
    simp only [Dev.select, Dev.chooseOther, Dev.reselected, Dev.recordMaster, hsel, hb, hother, shownMaster, Option.isSome_some, Bool.true_and,
      Bool.false_eq_true, if_false]
    rfl

theorem Dev.loseMaster_spec {d : Dev} (hr : keysRising 0 d.regs = true) {g : Foreign} (hsel : d.tmb.selected = some g) :
    let new := bestOf ({ d with tmb.heard := d.tmb.heard.filter fun f => !sameMaster f g } : Dev).candidates
    ∃ n, d.Chosen d.loseMaster new n ∧
      (d.timeState = 1 ∨ d.timeState = 2 → n = 3 ∧ d.loseMaster.rd F.TB_INCR_INCR = clampNat incrMin incrMax (incrOf d.tmb.integ) ∧
        d.event .secure 0x0D02 [] ∈ d.loseMaster.raised) := by
  intro new
  set e : Dev := { d with tmb.heard := d.tmb.heard.filter fun f => !sameMaster f g }
  have hother : ∀ f ∈ e.candidates, sameMaster g f = false := by
    intro f hf
    have hheard : f ∈ d.tmb.heard.filter fun f => !sameMaster f g := (List.mem_filter.mp hf).1
    rw [sameMaster_comm]
    simpa using (List.mem_filter.mp hheard).2
  have heq : d.loseMaster = ({ e with tmb.heard := e.candidates } : Dev).chooseOther new := by
    rw [Dev.loseMaster, hsel]
    exact Dev.select_eq hsel hother
  rw [heq]
  obtain ⟨n, hc, hhold⟩ := Dev.chooseOther_spec (d := { e with tmb.heard := e.candidates }) hr new
  refine ⟨n, { hc with changes := ?_ }, hhold⟩
  exact (Dev.ChangesOnly.setTmb .keep List.mem_cons_self).trans hc.changes

/-- Settles O19: by what losing the master leaves, and what a request sends. -/
theorem ptpTimers : Obligations.PtpTimers := by
  unfold Obligations.PtpTimers
  refine ⟨?_, ?_, ?_⟩
  · intro e capture s seq hinv hsend hp2p hsel
    have hsel' : (match s.dev.tmb.selected with | some f => decide (f.port = e) | none => false) = true := by
      obtain ⟨f, hf, hport⟩ := Option.map_eq_some_iff.mp hsel
      simp [hf, hport]
    have hgo : ¬ (!s.dev.ptpSends e || s.dev.p2p e || !(match s.dev.tmb.selected with | some f => decide (f.port = e) | none => false)) = true := by
      simp [hsend, hp2p, hsel']
    refine ⟨_, .act (fun d => d.sendDelayReq e capture) rfl (if_neg hgo) (.setOut (.setTmb .keep (by decide)) (by decide)), rfl, ?_⟩
    have hport := at'_modify_self (fun p : PtpPort =>
      { p with delayReq := some ((s.dev.ptpPort e).seqD, (s.dev.txStamp e capture).toNat), seqD := ((s.dev.ptpPort e).seqD + 1) % 65536 })
      (l := s.dev.tmb.ports) (i := e) (by rw [hinv.ptp]; exact e.isLt)
    exact ⟨congrArg PtpPort.delayReq hport, congrArg PtpPort.seqD hport⟩
  · intro e capture s seq hinv hsend hp2p
    have hgo : ¬ (!s.dev.ptpSends e || !s.dev.p2p e) = true := by simp [hsend, hp2p]
    refine ⟨_, .act (fun d => d.sendPdelayReq e capture) rfl (if_neg hgo) (.setOut (.setTmb .keep (by decide)) (by decide)), rfl, ?_⟩
    have hport := at'_modify_self (fun p : PtpPort =>
      { p with pdelayReq := some ((s.dev.ptpPort e).seqP, (s.dev.txStamp e capture).toNat), pdelayResp := none, seqP := ((s.dev.ptpPort e).seqP + 1) % 65536 })
      (l := s.dev.tmb.ports) (i := e) (by rw [hinv.ptp]; exact e.isLt)
    exact ⟨congrArg PtpPort.pdelayReq hport, congrArg PtpPort.seqP hport⟩
  · intro g s new hinv hsel
    obtain ⟨n, hc, hhold⟩ := Dev.loseMaster_spec hinv.regs hsel
    have hlost : ∀ {c : Instr}, (∀ f, f s.dev = s.dev.loseMaster → exec c s = s.actInOrder f → ∃ t, Runs c s t [.tmb, .raised] masterRegs ∧ t.dev.tmb.selected = new ∧
        t.dev.tmb.synced = false ∧ t.dev.rd F.TB_GM_IDENTITY = shownMaster new ∧
        (s.dev.rd F.TB_STATE_STATE = 1 ∨ s.dev.rd F.TB_STATE_STATE = 2 →
          t.dev.rd F.TB_STATE_STATE = 3 ∧ t.dev.rd F.TB_INCR_INCR = clampNat incrMin incrMax (incrOf s.dev.tmb.integ) ∧
          s.dev.event .secure 0x0D02 [] ∈ t.dev.raised)) := by
      intro c f hf hx
      refine ⟨_, .ordered f hx hf (by decide) hc.changes, hc.selected, hc.synced, hc.master, fun hst => ?_⟩
      obtain ⟨hn, hincr, hev⟩ := hhold hst
      exact ⟨hc.state.trans hn, hincr, Dev.mem_orderEvents.mpr hev⟩
    exact ⟨hlost Dev.loseMaster rfl rfl, fun hsync => hlost _ (if_pos hsync) rfl⟩

theorem Dev.rdS_wrS_self (d : Dev) (f : Fld) (i : Nat) (v : Int) (hf : f.lo + f.w ≤ 64) (hr : keysRising 0 d.regs = true) :
    (d.wrS f i v).rdS f i = toSigned f.w (ofSigned f.w v) := by
  rw [Dev.rdS, Dev.wrS, Dev.rd_wr_self _ _ _ _ hf hr]
  simp only [toSigned, Nat.mod_mod]

/-! ### Servo axes (R331 to R351) -/

section
variable (d : Dev) (a : Nat)

theorem Dev.sAxis_setSrv {d : Dev} {a : Nat} (f : SrvAxis → SrvAxis) (h : a < d.srv.axes.length) : (d.setSrv a f).sAxis a = f (d.sAxis a) :=
  at'_modify_self f h

theorem Dev.setSrv_axes_length (f : SrvAxis → SrvAxis) : (d.setSrv a f).srv.axes.length = d.srv.axes.length := List.length_modify ..

theorem Dev.ChangesOnly.setSrvAxis {d e : Dev} {ps : List Part} {rs : List Nat} (h : d.ChangesOnly e ps rs) (hp : Part.srv ∈ ps) (a : Nat) (f : SrvAxis → SrvAxis) :
    d.ChangesOnly (e.setSrv a f) ps rs := h.setSrv hp

theorem Dev.advance_snd (dy : Int) : ∃ k, (d.advance a dy).2 = { d with freeCtr := k } := by
  by_cases h : d.rd F.SV_a_COMM_ECYCLE a = 0
  · exact ⟨_, by simp only [Dev.advance, Dev.free, h, if_true]; rfl⟩
  · exact ⟨d.freeCtr, by simp only [Dev.advance, h, if_false]⟩

/-- The angle is computed anew and shown (R338). -/
theorem Dev.refreshAngle_eq : ∃ th k, d.refreshAngle a = (({ d with freeCtr := k } : Dev).setSrv a fun x => { x with theta := th }).showSrv a := by
  have hadv := fun dy => d.advance_snd a dy
  unfold Dev.refreshAngle
  dsimp only
  split
  · split
    · obtain ⟨k, hk⟩ := hadv ((d.sAxis a).y - (d.sAxis a).yAlign)
      exact ⟨_, k, by rw [hk]⟩
    · obtain ⟨k, hk⟩ := hadv (d.sAxis a).y
      exact ⟨_, k, by rw [hk]⟩
  · split
    · exact ⟨_, d.freeCtr, rfl⟩
    · next th0 y0 _ =>
      obtain ⟨k, hk⟩ := hadv ((d.sAxis a).y - y0)
      exact ⟨_, k, by rw [hk]⟩

end

theorem findReg_SV_a_TARGET (a : Fin 2) : findReg (R.SV_a_TARGET.addr a) regTable = some ⟨⟨R.SV_a_TARGET, [F.SV_a_TARGET_TARGET]⟩, a, false⟩ := by
  have hapart : ∀ a : Fin 2, ∀ row ∈ regTable.take 213, R.SV_a_TARGET.addr a < row.reg.base ∨ row.reg.top < R.SV_a_TARGET.addr a := by decide +kernel
  exact (findReg_drop 213 (hapart a)).trans (by fin_cases a <;> rfl)

/-- REFERENCE on an axis that may: the index is armed and the search starts downwards (R348). -/
theorem Dev.wSvCtrl_reference {d : Dev} {a : Fin 2} {n : Fin 4} (hf : d.qFeed a = some n) (hon : d.srvState a = .on) (hidle : d.srvMotion a = 0)
    (hmode : d.rd F.WT_Qn_CFG_IDX_MODE n = 2) :
    d.wSvCtrl a 1 mask32 = (((((d.wr F.WT_Qn_CFG_IDX_ARM n 1).setQuad n fun q => { q with index := none }).setSrv a fun x =>
      { x with refFrom := x.y / 2 ^ 16 })).srvMove a
        (((((d.wr F.WT_Qn_CFG_IDX_ARM n 1).setQuad n fun q => { q with index := none }).setSrv a fun x => { x with refFrom := x.y / 2 ^ 16 }).sAxis a).p - 1) 2) := by
  have hgo : Nat.testBit 1 0 = true ∧ d.srvState a = .on ∧ d.srvMotion a = 0 ∧ d.rd F.WT_Qn_CFG_IDX_MODE n = 2 := ⟨rfl, hon, hidle, hmode⟩
  have hmask : Nat.land 1 mask32 = 1 := by decide
  simp only [Dev.wSvCtrl, hmask, hf, if_pos hgo]
  rfl

theorem Dev.wSvCtrl_noReference {d : Dev} {a : Fin 2}
    (h : (decide (d.srvState a = .on) && decide (d.srvMotion a = 0) && (d.qFeed a).any fun k => decide (d.rd F.WT_Qn_CFG_IDX_MODE k = 2)) = false) :
    d.wSvCtrl a 1 mask32 = d := by
  have hmask : Nat.land 1 mask32 = 1 := by decide
  simp only [Dev.wSvCtrl, hmask]
  cases hf : d.qFeed a with
  | none => rfl
  | some n =>
    have hno : ¬ (Nat.testBit 1 0 = true ∧ d.srvState a = .on ∧ d.srvMotion a = 0 ∧ d.rd F.WT_Qn_CFG_IDX_MODE n = 2) := by
      simpa [hf, and_assoc] using h
    simp only [if_neg hno]
    rfl

theorem Dev.wSvCtrl_clear (d : Dev) (a : Fin 2) :
    d.wSvCtrl a 2 mask32 = if d.srvMotion a = 3 then d.setSrv a fun x => { x with clear := true } else d := by
  have hmask : Nat.land 2 mask32 = 2 := by decide
  have hb0 : Nat.testBit 2 0 = false := rfl
  have hb1 : Nat.testBit 2 1 = true := rfl
  have hb2 : Nat.testBit 2 2 = false := rfl
  simp only [Dev.wSvCtrl, hmask, hb0, hb1, hb2, Bool.false_eq_true, false_and, true_and, if_false]
  cases d.qFeed a <;> rfl

theorem Dev.wSvCtrl_notch (d : Dev) (a : Fin 2) : d.wSvCtrl a 4 mask32 = d.wr F.SV_a_CTRL_NOTCH_PENDING a 1 := by
  have hmask : Nat.land 4 mask32 = 4 := by decide
  have hb0 : Nat.testBit 4 0 = false := rfl
  have hb1 : Nat.testBit 4 1 = false := rfl
  have hb2 : Nat.testBit 4 2 = true := rfl
  simp only [Dev.wSvCtrl, hmask, hb0, hb1, hb2, Bool.false_eq_true, false_and, if_false, if_true]
  cases d.qFeed a <;> rfl

theorem Dev.touch_bus (d : Dev) (m : Master) : ∃ b, d.touch m = { d with bus := b } := ⟨_, Dev.touch_eq d m⟩

theorem servoTargetWrite_clause (m : Master) (a : Fin 2) (val : Nat) (s : State) (hinv : s.Inv) (ht : s.dev.Takes m R.SV_a_TARGET a) :
    ∃ u, Runs (.servoTargetWrite m a val) s u [.bus, .srv] [R.SV_a_TARGET.addr a] ∧
      u.dev.rd F.SV_a_TARGET_TARGET a = val % 2 ^ 32 ∧ u.dev.sAxis a = { s.dev.sAxis a with fresh := true } := by
  have hstore : (s.dev.touch m).ChangesOnly ((s.dev.touch m).store R.SV_a_TARGET a val mask32) [.srv] [R.SV_a_TARGET.addr a] :=
    .store .keep (findReg_SV_a_TARGET a) List.mem_cons_self
  have hsrv : ((s.dev.touch m).store R.SV_a_TARGET a val mask32).srv = s.dev.srv := (Dev.store_srv ..).trans (Dev.touch_srv ..)
  refine ⟨_, .writes (fun d => d.wSvTarget a val mask32) rfl ht rfl (hstore.setSrvAxis List.mem_cons_self a _).after_touch, ?_, ?_⟩
  · exact (Dev.rd_store_any (findReg_SV_a_TARGET a) (f := F.SV_a_TARGET_TARGET) List.mem_cons_self (Dev.touch_rising m hinv.regs) rfl rfl
      (fieldOf_mask32 (by decide))).trans (fieldOf_zero _ _)
  · refine (Dev.sAxis_setSrv _ (by rw [hsrv, hinv.srvAxes]; exact a.isLt)).trans ?_
    simp only [Dev.sAxis, hsrv]

theorem servoRegRx_clause (v : Int) (s : State) (hinv : s.Inv) (hsent : (s.dev.regFed && decide (s.dev.nzh.s0Out = some v)) = true) :
    ∃ u, Runs (.servoRegRx v) s u [.nzh] [R.SV_REG.addr 0] ∧ u.dev.rdS F.SV_REG_REG = toSigned 32 (ofSigned 32 v) ∧
      u.dev.rd F.SV_REG_BEAT = s.dev.beat % 2 ^ 32 ∧ u.dev.nzh = { s.dev.nzh with s0Out := none } := by
  have hif : s.dev.regFed = true ∧ s.dev.nzh.s0Out = some v := by simpa using hsent
  have hrise := Dev.wr_rising ({ s.dev with nzh.s0Out := none } : Dev) F.SV_REG_REG 0 (ofSigned 32 v) hinv.regs
  refine ⟨_, .act _ rfl (if_pos hif) (.wr (.wrS (.setNzh .keep (by decide)) (by decide)) (by decide)), ?_, ?_, rfl⟩
  · have hsame := Dev.rd_wr_same (({ s.dev with nzh.s0Out := none } : Dev).wrS F.SV_REG_REG 0 v) F.SV_REG_BEAT F.SV_REG_REG 0 (s.dev.beat % 2 ^ 32) rfl
      (by decide) (by decide) hrise
    rw [Dev.rdS, hsame]
    exact Dev.rdS_wrS_self _ _ _ _ (by decide) hinv.regs
  · exact Dev.rd_wr_lt _ (Nat.mod_lt _ (by decide)) (by decide) hrise

/-- What the start of the search leaves (R348). -/
theorem Dev.srvReference_spec {d : Dev} {a : Fin 2} {n : Fin 4} (hr : keysRising 0 d.regs = true) (ha : a < d.srv.axes.length) (hn : n < d.web.quads.length)
    (hf : d.qFeed a = some n) (hon : d.srvState a = .on) (hidle : d.srvMotion a = 0) (hmode : d.rd F.WT_Qn_CFG_IDX_MODE n = 2) :
    let e := d.wSvCtrl a 1 mask32
    d.ChangesOnly e [.web, .srv] [R.SV_a_STAT.addr a, R.WT_Qn_CFG.addr n] ∧ e.srvMotion a = 2 ∧ e.rd F.WT_Qn_CFG_IDX_ARM n = 1 ∧
      (e.sAxis a).dir = -1 ∧ (e.sAxis a).refFrom = (d.sAxis a).y / 2 ^ 16 ∧ (e.quad n).index = none := by
  have hidx : F.WT_Qn_CFG_IDX_ARM.reg.addr n ∈ [R.SV_a_STAT.addr a, R.WT_Qn_CFG.addr n] := List.mem_cons_of_mem _ List.mem_cons_self
  have hne : R.WT_Qn_CFG.addr n ≠ R.SV_a_STAT.addr a := by fin_cases a <;> fin_cases n <;> decide
  have hrise := Dev.wr_rising d F.WT_Qn_CFG_IDX_ARM n 1 hr
  intro e
  set f : Dev := ((d.wr F.WT_Qn_CFG_IDX_ARM n 1).setQuad n fun q => { q with index := none }).setSrv a fun x => { x with refFrom := x.y / 2 ^ 16 } with hfd
  have he : e = f.srvMove a ((f.sAxis a).p - 1) 2 := Dev.wSvCtrl_reference hf hon hidle hmode
  have hc : d.ChangesOnly f [.web, .srv] [R.SV_a_STAT.addr a, R.WT_Qn_CFG.addr n] :=
    .setSrvAxis (.setWeb (.wr .keep hidx) (by decide)) (by decide) a _
  have haxis : f.sAxis a = { d.sAxis a with refFrom := (d.sAxis a).y / 2 ^ 16 } := Dev.sAxis_setSrv _ ha
  have hmove : e.sAxis a = { f.sAxis a with dir := -1, v := 0, a := 0, ramp := false } := by
    have hdown : ¬ (f.sAxis a).p ≤ (f.sAxis a).p - 1 := by omega
    rw [he]
    refine (Dev.sAxis_setSrv _ (by rw [hfd, Dev.setSrv_axes_length]; exact ha)).trans ?_
    simp only [if_neg hdown]
  refine ⟨?_, ?_, ?_, by rw [hmove], by rw [hmove, haxis], ?_⟩ <;> rw [he]
  · exact .wr (hc.setSrvAxis (by decide) a _) List.mem_cons_self
  · exact Dev.rd_wr_lt _ (by decide) (by decide) hrise
  · refine (Dev.rd_wr_ne _ _ _ _ _ _ hne).trans ?_
    exact Dev.rd_wr_lt _ (by decide) (by decide) hr
  · exact congrArg Quad.index (at'_modify_self (fun q : Quad => { q with index := none }) hn)

theorem servoReference_clause (m : Master) (a : Fin 2) (n : Fin 4) (s : State) (hinv : s.Inv) (ht : s.dev.Takes m R.SV_a_CTRL a)
    (hon : s.dev.srvState a = .on) (hidle : s.dev.srvMotion a = 0) (hmode : s.dev.rd F.WT_Qn_CFG_IDX_MODE n = 2) (hf : s.dev.qFeed a = some n) :
    ∃ u, Runs (.servoReference m a) s u [.bus, .web, .srv] [R.SV_a_STAT.addr a, R.WT_Qn_CFG.addr n] ∧ u.dev.srvMotion a = 2 ∧
      u.dev.rd F.WT_Qn_CFG_IDX_ARM n = 1 ∧ (u.dev.sAxis a).dir = -1 ∧ (u.dev.sAxis a).refFrom = (s.dev.sAxis a).y / 2 ^ 16 ∧
      (u.dev.quad n).index = none := by
  obtain ⟨b, hb⟩ := s.dev.touch_bus m
  obtain ⟨hc, hmotion, harm, hdir, hfrom, hindex⟩ := Dev.srvReference_spec (d := { s.dev with bus := b }) (a := a) (n := n) hinv.regs
    (by rw [hinv.srvAxes]; exact a.isLt) (by rw [hinv.quads]; exact n.isLt) hf hon hidle hmode
  rw [← hb] at hc hmotion harm hdir hfrom hindex
  refine ⟨_, .writes (fun d => d.wSvCtrl a 1 mask32) rfl ht rfl hc.after_touch, hmotion, harm, hdir, hfrom.trans ?_, hindex⟩
  rw [hb]
  rfl

theorem srvReference_may {d : Dev} {a : Fin 2} {n : Fin 4} (hf : d.qFeed a = some n)
    (h : (decide (d.srvState a = .on) && decide (d.srvMotion a = 0) && (d.qFeed a).any fun k => decide (d.rd F.WT_Qn_CFG_IDX_MODE k = 2)) = true) :
    d.srvState a = .on ∧ d.srvMotion a = 0 ∧ d.rd F.WT_Qn_CFG_IDX_MODE n = 2 := by
  simpa [hf, and_assoc] using h

/-- Alignment has ended: y_align is at y, and the angle is computed anew. -/
theorem Dev.aligned_spec {d : Dev} {a : Fin 2} (ha : a < d.srv.axes.length) :
    let e := (d.setSrv a fun x => { x with yAlign := x.y, aligning := false }).refreshAngle a
    d.ChangesOnly e [.srv, .freeCtr] [R.SV_a_POS.addr a, R.SV_a_LOOP.addr a] ∧
      (∃ th, e.sAxis a = { d.sAxis a with yAlign := (d.sAxis a).y, aligning := false, theta := th }) ∧ e.srv.axes.length = d.srv.axes.length := by
  intro e
  obtain ⟨th, k, he⟩ := (d.setSrv a fun x => { x with yAlign := x.y, aligning := false }).refreshAngle_eq a
  rw [show e = _ from he]
  refine ⟨?_, ⟨th, ?_⟩, ?_⟩
  · exact .wr (.wrS (.wrS (.setSrvAxis (.setFreeCtr (.setSrvAxis .keep (by decide) a _) (by decide)) (by decide) a _) List.mem_cons_self) List.mem_cons_self)
      (List.mem_cons_of_mem _ List.mem_cons_self)
  · refine (Dev.sAxis_setSrv _ ((Dev.setSrv_axes_length ..).symm ▸ ha)).trans ?_
    exact congrArg (fun x : SrvAxis => { x with theta := th }) (Dev.sAxis_setSrv _ ha)
  · exact (Dev.setSrv_axes_length ..).trans (Dev.setSrv_axes_length ..)

/-- A CLEAR that waited for alignment (R351): HOLD at y, and TARGET at y less the REG it follows. -/
theorem Dev.clearFault_spec {d : Dev} {a : Fin 2} (hr : keysRising 0 d.regs = true) (ha : a < d.srv.axes.length) :
    let e := d.clearFault a
    d.ChangesOnly e [.srv] [R.SV_a_STAT.addr a, R.SV_a_TARGET.addr a] ∧ (e.sAxis a).aligning = (d.sAxis a).aligning ∧
      (e.sAxis a).yAlign = (d.sAxis a).yAlign ∧ (e.sAxis a).bridge = .on ∧ e.srvMotion a = 0 ∧ (e.sAxis a).p = (d.sAxis a).y * 2 ^ 48 ∧
      e.rdS F.SV_a_TARGET_TARGET a = toSigned 32 (ofSigned 32 ((d.sAxis a).y / 2 ^ 16 - e.regOf a)) := by
  intro e
  set held : Dev := (d.setSrv a fun x => { x with p := x.y * 2 ^ 48, v := 0, a := 0, i := 0, clearing := false }).wr F.SV_a_STAT_MOTION a 0 with hheld
  have hc : d.ChangesOnly held [.srv] [R.SV_a_STAT.addr a, R.SV_a_TARGET.addr a] :=
    .wr (.setSrvAxis .keep List.mem_cons_self a _) List.mem_cons_self
  have hlen : held.srv.axes.length = d.srv.axes.length := Dev.setSrv_axes_length ..
  have hax : held.sAxis a = _ := Dev.sAxis_setSrv (fun x => { x with p := x.y * 2 ^ 48, v := 0, a := 0, i := 0, clearing := false }) ha
  have hne : R.SV_a_STAT.addr a ≠ R.SV_a_TARGET.addr a ∧ R.SV_a_STAT.addr 0 ≠ R.SV_a_TARGET.addr a ∧ R.SV_a_CFG.addr 0 ≠ R.SV_a_TARGET.addr a := by
    fin_cases a <;> decide
  obtain ⟨hself, hstat0, hcfg0⟩ := hne
  set t : Int := (held.sAxis a).y / 2 ^ 16 - held.regOf a with ht
  have he : e = ((held.wrS F.SV_a_TARGET_TARGET a t).setSrv a fun x => { x with tgt := toSigned 32 (ofSigned 32 t), wrote := false, fresh := false }).setSrv a
      fun x => { x with bridge := .on, id := 0, iq := 0, duty := (32768, 32768, 32768), carry := List.replicate 3 (bridgeEnds x.bridge .on) } := rfl
  have haxis : e.sAxis a = { held.sAxis a with
      tgt := toSigned 32 (ofSigned 32 t), wrote := false, fresh := false, bridge := .on, id := 0, iq := 0, duty := (32768, 32768, 32768)
      carry := List.replicate 3 (bridgeEnds (held.sAxis a).bridge .on) } := by
    rw [he, Dev.sAxis_setSrv _ (by rw [Dev.setSrv_axes_length]; exact hlen ▸ ha), Dev.sAxis_setSrv _ (by exact hlen ▸ ha)]
    rfl
  have hstat : ∀ (f : Fld) (i : Nat), f.reg.addr i ≠ R.SV_a_TARGET.addr a → e.rd f i = held.rd f i := fun f i h => by
    rw [he]
    exact Dev.rd_wr_ne _ _ _ _ _ _ h
  have hreg : e.regOf a = held.regOf a := by
    have hfollow : e.on F.SV_a_CFG_REG_FOLLOW 0 = held.on F.SV_a_CFG_REG_FOLLOW 0 := by rw [Dev.on, hstat F.SV_a_CFG_REG_FOLLOW 0 hcfg0, Dev.on]
    have hreferenced : e.on F.SV_a_STAT_REFERENCED 0 = held.on F.SV_a_STAT_REFERENCED 0 := by rw [Dev.on, hstat F.SV_a_STAT_REFERENCED 0 hstat0, Dev.on]
    have hmotion : e.srvMotion 0 = held.srvMotion 0 := hstat F.SV_a_STAT_MOTION 0 hstat0
    rw [Dev.regOf, hfollow, hreferenced, hmotion, haxis, Dev.regOf]
  refine ⟨?_, by rw [haxis, hax], by rw [haxis, hax], by rw [haxis], ?_, by rw [haxis, hax], ?_⟩
  · rw [he]
    exact .setSrvAxis (.setSrvAxis (.wrS hc (List.mem_cons_of_mem _ List.mem_cons_self)) List.mem_cons_self a _) List.mem_cons_self a _
  · exact (hstat _ _ hself).trans (Dev.rd_wr_lt _ (by decide) (by decide) hr)
  · have htarget : e.rdS F.SV_a_TARGET_TARGET a = toSigned 32 (ofSigned 32 t) := by
      rw [he]
      exact Dev.rdS_wrS_self held F.SV_a_TARGET_TARGET a t (by decide) (hc.rising hr)
    rw [htarget, hreg, ht, hax]

/-- The end of alignment (R339), as the command runs it. -/
def Dev.alignEnds (a : Fin 2) (d : Dev) : Dev :=
  if !(d.sAxis a).aligning then d
  else
    let d := (d.setSrv a fun x => { x with yAlign := x.y, aligning := false }).refreshAngle a
    if d.srvMotion a = 3 then d.clearFault a else d

/-- Settles O54: by what each request leaves, and the end of alignment in its two cases. -/
theorem servoRequests : Obligations.ServoRequests := by
  unfold Obligations.ServoRequests
  refine ⟨servoTargetWrite_clause, fun v s => ?reg, fun m a n s => ?ctrl, fun a s => ?aligned⟩
  case reg =>
    intro sent hinv
    refine ⟨fun h => .act _ rfl (if_neg ?_), fun h => servoRegRx_clause v s hinv h⟩
    simpa [sent] using h
  case ctrl =>
    intro held may hinv ht
    obtain ⟨b, hb⟩ := s.dev.touch_bus m
    refine ⟨fun h => ?_, fun h hf => ?_, fun h => ?_, fun h => ?_, ?_⟩
    · exact ⟨_, .writes (fun d => d.wSvCtrl a 1 mask32) rfl ht (by rw [hb]; exact Dev.wSvCtrl_noReference (d := { s.dev with bus := b }) h) (.setBus .keep (by decide))⟩
    · obtain ⟨hon, hidle, hmode⟩ := srvReference_may hf h
      exact servoReference_clause m a n s hinv ht hon hidle hmode hf
    · refine ⟨_, .writes (fun d => d.wSvCtrl a 2 mask32) rfl ht ?_ (.setBus (x := b) .keep (by decide))⟩
      rw [hb, Dev.wSvCtrl_clear]
      exact if_neg h
    · refine ⟨_, .writes (fun d => d.wSvCtrl a 2 mask32) rfl ht ?_ (.setSrvAxis (.setBus (x := b) .keep (by decide)) (by decide) a fun x => { x with clear := true }), ?_⟩
      · rw [hb, Dev.wSvCtrl_clear]
        exact if_pos h
      · exact Dev.sAxis_setSrv (d := { s.dev with bus := b }) _ (by rw [hinv.srvAxes]; exact a.isLt)
    · refine ⟨_, .writes (fun d => d.wSvCtrl a 4 mask32) rfl ht (Dev.wSvCtrl_notch ..) ((Dev.ChangesOnly.wr .keep List.mem_cons_self).after_touch), ?_⟩
      exact Dev.rd_wr_lt _ (by decide) (by decide) (Dev.touch_rising m hinv.regs)
  case aligned =>
    intro here hinv
    have ha : a < s.dev.srv.axes.length := by rw [hinv.srvAxes]; exact a.isLt
    obtain ⟨hc, ⟨th, haxis⟩, hlen⟩ := Dev.aligned_spec ha
    refine ⟨fun h => .act (Dev.alignEnds a) rfl (if_pos (by simp [h])), fun h hno => ?_, fun h hfault => ?_⟩
    all_goals
      have hstat : R.SV_a_STAT.addr a ∉ [R.SV_a_POS.addr a, R.SV_a_LOOP.addr a] := by fin_cases a <;> decide
      have hmotion : ((s.dev.setSrv a fun x => { x with yAlign := x.y, aligning := false }).refreshAngle a).srvMotion a = s.dev.srvMotion a := hc.rd hstat
      have hgo : ¬ (!(s.dev.sAxis a).aligning) = true := by simp [h]
    · refine ⟨_, .act (Dev.alignEnds a) rfl ((if_neg hgo).trans (if_neg (hmotion ▸ hno))) hc, ?_, ?_, ?_⟩ <;> rw [haxis]
    · obtain ⟨hc', haligning, hyalign, hbridge, hmotion', hp, htarget⟩ := Dev.clearFault_spec (hc.rising hinv.regs) (hlen ▸ ha)
      rw [haxis] at haligning hyalign hp htarget
      exact ⟨_, .act (Dev.alignEnds a) rfl ((if_neg hgo).trans (if_pos (hmotion ▸ hfault))) ((hc.mono (by simp) (by simp [here])).trans (hc'.mono (by simp) (by simp))), haligning,
        hyalign, hbridge, hmotion', hp, htarget⟩

/-! ### Bytes -/

/-- Little-endian bytes of a number spell it, as far as they go. -/
theorem ofLeBytes_leBytes (n v : Nat) : ofLeBytes (leBytes n v) = v % 256 ^ n := by
  induction n generalizing v with
  | zero => simp [leBytes, ofLeBytes, Nat.mod_one]
  | succ n ih =>
    have hcons : leBytes (n + 1) v = BitVec.ofNat 8 v :: leBytes n (v / 256) := by
      simp only [leBytes, List.range_succ_eq_map, List.map_cons, List.map_map, Nat.mul_zero, Nat.pow_zero, Nat.div_one, List.cons.injEq, true_and]
      refine List.map_congr_left fun i _ => ?_
      rw [Function.comp_apply, Nat.div_div_eq_div_mul, Nat.mul_succ, Nat.pow_add, Nat.mul_comm]
    have hfold : ofLeBytes (BitVec.ofNat 8 v :: leBytes n (v / 256)) = (BitVec.ofNat 8 v).toNat + 256 * ofLeBytes (leBytes n (v / 256)) := rfl
    rw [hcons, hfold, ih, BitVec.toNat_ofNat, Nat.pow_succ' (n := n)]
    exact (Nat.mod_mul (x := v) (a := 256) (b := 256 ^ n)).symm

theorem pack_cons (f : Nat × Nat) (fs : List (Nat × Nat)) : pack (f :: fs) = leBytes f.1 f.2 ++ pack fs := List.flatMap_cons ..

/-- Each field of a packed list is found by the length of the fields before it. -/
theorem pack_drop_append (fs gs : List (Nat × Nat)) : (pack (fs ++ gs)).drop ((fs.map Prod.fst).sum) = pack gs := by
  induction fs with
  | nil => rfl
  | cons f fs ih =>
    rw [List.cons_append, pack_cons, List.map_cons, List.sum_cons, ← List.drop_drop, List.drop_left' (leBytes_length ..), ih]

theorem pack_length (fs : List (Nat × Nat)) : (pack fs).length = (fs.map Prod.fst).sum := by
  induction fs with
  | nil => rfl
  | cons f fs ih => rw [pack_cons, List.length_append, leBytes_length, ih, List.map_cons, List.sum_cons]

/-- The field that starts at an offset. -/
theorem sliceNat_pack (fs gs : List (Nat × Nat)) (n v off : Nat) (h : (fs.map Prod.fst).sum = off) : sliceNat (pack (fs ++ (n, v) :: gs)) off n = v % 256 ^ n := by
  subst h
  rw [sliceNat, pack_drop_append, pack_cons, List.take_left' (leBytes_length ..), ofLeBytes_leBytes]

theorem crcBit_lt {c : Nat} (h : c < 2 ^ 32) : crcBit c < 2 ^ 32 := by
  have hhalf : c / 2 < 2 ^ 32 := by omega
  unfold crcBit
  split
  · exact Nat.xor_lt_two_pow hhalf (by decide)
  · exact hhalf

theorem crcByte_lt {c : Nat} (h : c < 2 ^ 32) (b : Byte) : crcByte c b < 2 ^ 32 := by
  have hb := b.isLt
  exact crcBit_lt (crcBit_lt (crcBit_lt (crcBit_lt (crcBit_lt (crcBit_lt (crcBit_lt (crcBit_lt (Nat.xor_lt_two_pow h (by omega)))))))))

theorem crc32_lt (bs : List Byte) : crc32 bs < 2 ^ 32 := by
  have hrun : ∀ (bs : List Byte) (c : Nat), c < 2 ^ 32 → crcRun c bs < 2 ^ 32 := by
    intro bs
    induction bs with
    | nil => exact fun c h => h
    | cons b bs ih => exact fun c h => ih _ (crcByte_lt h b)
  exact Nat.xor_lt_two_pow (hrun bs _ (by decide)) (by decide)

/-! ### Retention RAM (R307 to R309) -/

section
variable {d : Dev} {off off' len : Nat} {bs : List Byte}

theorem Dev.ramBytes_setRam_in (hw : Memory.wf d.vlt.ram = true) (h : off ≤ off') (h' : off' + len ≤ off + bs.length) :
    (d.setRam off bs).ramBytes off' len = (bs.drop (off' - off)).take len := by
  refine List.ext_getElem (by simp [Dev.ramBytes]; omega) fun k hk hk' => ?_
  have hk : k < len := by simpa [Dev.ramBytes] using hk
  have hbyte := mapGet_storeBytes_in d.vlt.ram off bs (off' - off + k) (by omega) hw
  have hoff : off + (off' - off + k) = off' + k := by omega
  rw [hoff] at hbyte
  simpa [Dev.ramBytes, Dev.setRam] using hbyte

theorem Dev.ramBytes_setRam_out (h : off' + len ≤ off ∨ off + bs.length ≤ off') : (d.setRam off bs).ramBytes off' len = d.ramBytes off' len := by
  refine List.map_congr_left fun k hk => mapGet_storeBytes_out _ _ _ _ ?_
  have hk := List.mem_range.mp hk
  omega

end

/-- Writing a group whole, with its CRC, leaves the others. -/
theorem Dev.putGroup_spec {d : Dev} {g : Nat} {bs : List Byte} (hw : Memory.wf d.vlt.ram = true) (hreset : d.inReset = false) (hg : g < 4)
    (hl : bs.length = (groupSpan g).2) :
    let e := d.putGroup g bs
    d.ChangesOnly e [.vlt] [] ∧ e.groupOk g = true ∧ e.groupBytes g = bs ∧ ∀ g' < 4, g' ≠ g → e.groupBytes g' = d.groupBytes g' := by
  intro e
  have he : e = d.setRam (groupSpan g).1 (bs ++ leBytes 4 (crc32 bs)) := if_neg (by simp [hreset])
  have hlen : (bs ++ leBytes 4 (crc32 bs)).length = (groupSpan g).2 + 4 := by rw [List.length_append, hl, leBytes_length]
  have hbytes : e.groupBytes g = bs := by
    rw [he, Dev.groupBytes, Dev.ramBytes_setRam_in hw (le_refl _) (by omega), Nat.sub_self, List.drop_zero, ← hl, List.take_left]
  refine ⟨?_, ?_, hbytes, fun g' hg' hne => ?_⟩
  · rw [he]
    exact .setVlt .keep List.mem_cons_self
  · have hcrc : e.ramBytes ((groupSpan g).1 + (groupSpan g).2) 4 = leBytes 4 (crc32 bs) := by
      rw [he, Dev.ramBytes_setRam_in hw (Nat.le_add_right _ _) (by omega), Nat.add_sub_cancel_left, ← hl, List.drop_left,
        List.take_of_length_le (leBytes_length ..).le]
    rw [Dev.groupOk, hcrc, hbytes, ofLeBytes_leBytes, decide_eq_true_eq]
    exact Nat.mod_eq_of_lt (crc32_lt bs)
  · have hapart : (groupSpan g').1 + (groupSpan g').2 ≤ (groupSpan g).1 ∨ (groupSpan g).1 + ((groupSpan g).2 + 4) ≤ (groupSpan g').1 := by
      interval_cases g <;> interval_cases g' <;> simp_all [groupSpan]
    rw [he, Dev.groupBytes, Dev.ramBytes_setRam_out (by rwa [hlen]), Dev.groupBytes]

/-- Four-byte words packed in a row: the low byte and the upper three of one of them. -/
theorem sliceNat_words (g : Nat → Nat) {n l : Nat} (hl : l < n) :
    sliceNat (pack ((List.range n).map fun i => (4, g i))) (4 * l + 1) 3 = g l / 256 % 2 ^ 24 ∧ sliceNat (pack ((List.range n).map fun i => (4, g i))) (4 * l) 1 = g l % 256 := by
  obtain ⟨fs, gs, hlist, hsum⟩ : ∃ fs gs, (List.range n).map (fun i => (4, g i)) = fs ++ (4, g l) :: gs ∧ (fs.map Prod.fst).sum = 4 * l := by
    refine ⟨((List.range n).map fun i => (4, g i)).take l, ((List.range n).map fun i => (4, g i)).drop (l + 1), ?_, ?_⟩
    · have hget : ((List.range n).map fun i => (4, g i))[l]'(by simpa using hl) = (4, g l) := by simp
      rw [← hget, List.getElem_cons_drop, List.take_append_drop]
    · simp [← List.map_take, Function.comp_def, hl.le, Nat.mul_comm]
  have hdrop : (pack (fs ++ (4, g l) :: gs)).drop (4 * l) = leBytes 4 (g l) ++ pack gs := by rw [← hsum, pack_drop_append, pack_cons]
  rw [hlist]
  constructor
  · rw [sliceNat, ← List.drop_drop, hdrop]
    simp [leBytes, List.range_succ, ofLeBytes, BitVec.toNat_ofNat]
    omega
  · rw [sliceNat, hdrop]
    simp [leBytes, List.range_succ, ofLeBytes, BitVec.toNat_ofNat]

/-- A clear latch that a cause sets (R310). -/
theorem Dev.setTamper_spec {d : Dev} (hr : keysRising 0 d.regs = true) (h : d.vlt.tamper = 0) {cause : Nat} (hc : cause < 4) :
    let e := d.setTamper cause
    d.ChangesOnly e [.vlt] [R.VLT_STAT.addr 0, R.VLT_TAMPER.addr 0] ∧ e.vlt = { d.vlt with tamper := cause, ram := [] } ∧ e.rd F.VLT_STAT_TAMPER = 1 ∧
      e.rd F.VLT_TAMPER_SOURCE = cause := by
  intro e
  have he : e = (({ d with vlt := { d.vlt with tamper := cause, ram := [] } } : Dev).wrB F.VLT_STAT_TAMPER 0 true).wr F.VLT_TAMPER_SOURCE 0 cause :=
    if_neg (by simp [h])
  have hrise := Dev.wr_rising ({ d with vlt := { d.vlt with tamper := cause, ram := [] } } : Dev) F.VLT_STAT_TAMPER 0 1 hr
  rw [he]
  refine ⟨.wr (.wrB (.setVlt .keep List.mem_cons_self) List.mem_cons_self) (List.mem_cons_of_mem _ List.mem_cons_self), rfl, ?_, Dev.rd_wr_lt _ hc (by decide) hrise⟩
  refine (Dev.rd_wr_ne _ _ _ _ _ _ (by decide)).trans ?_
  exact Dev.rd_wr_lt (f := F.VLT_STAT_TAMPER) _ (by decide) (by decide) hr

theorem Dev.setTamper_set {d : Dev} (h : d.vlt.tamper ≠ 0) (cause : Nat) : d.setTamper cause = d := if_pos h

theorem Dev.ChangesOnly.refuse {d e : Dev} {ps : List Part} {rs : List Nat} (h : d.ChangesOnly e ps rs)
    (hp : ∀ p ∈ [Part.bus, .hst, .out, .raised], p ∈ ps) (m : Master) (write : Bool) (c : RegCheck) (off : Nat) : d.ChangesOnly (e.refuse m write c off) ps rs := by
  have htouch : d.ChangesOnly (e.touch m) ps rs := h.trans (.touch _ _ _ (hp _ (by decide)))
  have hemit (o : Out) : d.ChangesOnly ((e.touch m).emit o) ps rs := htouch.setOut (hp _ (by decide))
  have hworld {x : Dev} (hx : d.ChangesOnly x ps rs) (a q : Nat) : d.ChangesOnly (x.worldViolation a q) ps rs := hx.raise (hp _ (by decide)) (.inl (by decide))
  have haer (p : Fin 2) (a : Answer) : d.ChangesOnly ((e.touch m).logAer p a) ps rs := (hemit (.aer p a)).setHst (hp _ (by decide))
  unfold Dev.refuse
  cases hport : portOf m with
  | none =>
    dsimp only
    split
    · exact hworld (hemit _) _ _
    · exact hemit _
  | some p =>
    dsimp only
    have hanswer (a : Answer) : d.ChangesOnly (if write = true then (e.touch m).logAer p a else (e.touch m).emit (.completion m a [])) ps rs := by
      split
      · exact haer p a
      · exact hemit _
    split
    · exact hworld (hanswer _) _ _
    · exact hanswer _

/-- A write that does not reach its register changes nothing but what answers it (R31). -/
theorem Dev.writeTo_reaches_or (d : Dev) (m : Master) (r : Reg) (i : Nat) (f : Dev → Dev) :
    d.writeTo m r i f = f (d.touch m) ∨ d.ChangesOnly (d.writeTo m r i f) [.bus, .hst, .out, .raised] [] := by
  rcases d.writeTo_cases m r i f with ⟨-, he⟩ | ⟨-, -, he⟩ | ⟨-, -, he⟩ | ⟨-, -, he⟩ <;> rw [he]
  · exact .inr .keep
  · exact .inl rfl
  · exact .inr (.touch _ _ _ (by decide))
  · exact .inr (.refuse .keep (fun _ => id) _ _ _ _)

theorem Dev.freeBytes_snd (n : Nat) (d : Dev) : ∃ k, (d.freeBytes n).2 = { d with freeCtr := k } := by
  induction n generalizing d with
  | zero => exact ⟨d.freeCtr, rfl⟩
  | succ n ih => exact ih { d with freeCtr := d.freeCtr + 1 }

theorem vbatLoss_clause (s : State) (hcut : (s.dev.sys.reset.any fun r => decide (r.kind = .power ∧ r.cause = 1)) = true) :
    ∃ u, Runs .vbatLoss s u [.vlt, .freeCtr] [] ∧ u.dev.vlt = { s.dev.vlt with ram := u.dev.vlt.ram, tamper := u.dev.vlt.tamper } ∧ u.dev.vlt.tamper < 4 := by
  cases hreset : s.dev.sys.reset with
  | none => simp [hreset] at hcut
  | some r =>
    obtain ⟨hkind, hcause⟩ : r.kind = .power ∧ r.cause = 1 := by simpa [hreset] using hcut
    obtain ⟨k, hk⟩ := Dev.freeBytes_snd 256 s.dev
    cases r
    subst hkind hcause
    have hloss : s.dev.vbatLoss = { s.dev with
        freeCtr := k + 1, vlt := { s.dev.vlt with ram := storeBytes [] 0 (s.dev.freeBytes 256).1, tamper := Config.free k % 4 } } := by
      simp only [Dev.vbatLoss, hreset, Dev.free, hk]
    have hc : s.dev.ChangesOnly s.dev.vbatLoss [.vlt, .freeCtr] [] := by
      rw [hloss]
      exact Dev.ChangesOnly.setVlt (e := { s.dev with freeCtr := k + 1 }) (.setFreeCtr (e := s.dev) .keep (by decide)) (by decide)
    refine ⟨_, .act Dev.vbatLoss rfl rfl hc, ?_, ?_⟩ <;> dsimp only <;> rw [hloss]
    exact Nat.mod_lt _ (by decide)

theorem Dev.vbatLoss_of_not {d : Dev} (h : (d.sys.reset.any fun r => decide (r.kind = .power ∧ r.cause = 1)) = false) : d.vbatLoss = d := by
  unfold Dev.vbatLoss
  split
  · next hreset => simp [hreset] at h
  · rfl

/-- Settles O51: by what setting the latch and writing a group leave. -/
theorem vaultDomain : Obligations.VaultDomain := by
  unfold Obligations.VaultDomain
  have hcode : ∀ t, tamperCode t < 4 ∧ tamperCode t ≠ 0 := fun t => by cases t <;> decide
  refine ⟨fun t s hinv => ⟨fun h => ?_, fun h => ?_⟩, fun m val s => ?write, fun m val t s hinv => ?cause, fun s => ?ram⟩
  · exact .act (fun d => d.setTamper (tamperCode t)) rfl (Dev.setTamper_set h _)
  · obtain ⟨hc, hspec⟩ := Dev.setTamper_spec hinv.regs h (hcode t).1
    exact ⟨_, .act (fun d => d.setTamper (tamperCode t)) rfl rfl hc, hspec⟩
  case write =>
    intro regs hinv ht
    have hr := Dev.touch_rising m hinv.regs
    have hvlt : (s.dev.touch m).vlt = s.dev.vlt := Dev.touch_vlt ..
    have hforce : ∀ {e ps rs}, (s.dev.touch m).wVltTamper val = e → (s.dev.touch m).ChangesOnly e ps rs → Runs (.tamperForce m val) s { s with dev := e } (.bus :: ps) rs :=
      fun he hc => .writes (fun d => d.wVltTamper val) rfl ht he hc.after_touch
    have hclear : ∀ {e ps rs}, (s.dev.touch m).wVltTamper val = e → (s.dev.touch m).ChangesOnly e ps rs →
        Runs (.tamperClear m val none) s { s with dev := e } (.bus :: ps) rs :=
      fun he hc => .writes (fun d => d.wVltTamper val) rfl ht he hc.after_touch
    simp only [setsBit]
    refine ⟨fun hf h => ?_, fun hf h => ?_, fun hf hcl => ?_, fun hf hcl => ?_⟩
    · obtain ⟨hc, hspec⟩ := Dev.setTamper_spec hr (hvlt ▸ h) (cause := 3) (by decide)
      rw [hvlt] at hspec
      exact ⟨_, hforce (if_pos hf) hc, hspec⟩
    · exact ⟨_, hforce ((if_pos hf).trans (Dev.setTamper_set (hvlt ▸ h) 3)) .keep⟩
    · have hno : (s.dev.touch m).wVltTamper val = s.dev.touch m := (if_neg hf).trans (if_neg hcl)
      exact ⟨⟨_, hforce hno .keep⟩, ⟨_, hclear hno .keep⟩⟩
    · have hrise := Dev.wr_rising ({ s.dev.touch m with vlt := { (s.dev.touch m).vlt with tamper := 0 } } : Dev) F.VLT_STAT_TAMPER 0 0 hr
      refine ⟨_, hclear ((if_neg hf).trans (if_pos hcl))
        (.wr (.wrB (.setVlt .keep List.mem_cons_self) List.mem_cons_self) (List.mem_cons_of_mem _ List.mem_cons_self)), ?_, ?_, ?_⟩
      · rw [← hvlt]
        rfl
      · refine (Dev.rd_wr_ne _ _ _ _ _ _ (by decide)).trans ?_
        exact Dev.rd_wr_lt (f := F.VLT_STAT_TAMPER) _ (by decide) (by decide) hr
      · exact Dev.rd_wr_lt _ (by decide) (by decide) hrise
  case cause =>
    have hx : exec (.tamperClear m val (some t)) s = s.act fun d => (d.writeTo m R.VLT_TAMPER 0 fun d => d.setTamper (tamperCode t)).setTamper (tamperCode t) := rfl
    obtain ⟨hlt, hne⟩ := hcode t
    have hvlt : (s.dev.touch m).vlt = s.dev.vlt := Dev.touch_vlt ..
    rcases s.dev.writeTo_reaches_or m R.VLT_TAMPER 0 fun d => d.setTamper (tamperCode t) with heq | hkeep
    · have htwice := congrArg (·.setTamper (tamperCode t)) heq
      refine ⟨fun h => ?_, fun h => ?_⟩
      · obtain ⟨hc, hset, hspec⟩ := Dev.setTamper_spec (Dev.touch_rising m hinv.regs) (hvlt ▸ h) hlt
        have hagain : ((s.dev.touch m).setTamper (tamperCode t)).setTamper (tamperCode t) = (s.dev.touch m).setTamper (tamperCode t) :=
          Dev.setTamper_set (by rw [hset]; exact hne) _
        rw [hvlt] at hset
        exact ⟨_, .act _ hx (htwice.trans hagain) (hc.after_touch.mono (by simp) fun _ => id), hset, hspec⟩
      · have hkept : ((s.dev.touch m).setTamper (tamperCode t)).setTamper (tamperCode t) = s.dev.touch m := by
          have hset : (s.dev.touch m).vlt.tamper ≠ 0 := hvlt ▸ h
          rw [Dev.setTamper_set hset, Dev.setTamper_set hset]
        exact ⟨_, .act _ hx (htwice.trans hkept) (.touch _ _ _ (by decide))⟩
    · have hsame := hkeep.parts .vlt (by decide)
      refine ⟨fun h => ?_, fun h => ?_⟩
      · obtain ⟨hc, hset, hspec⟩ := Dev.setTamper_spec (hkeep.rising hinv.regs) (hsame ▸ h) hlt
        rw [hsame] at hset
        exact ⟨_, .act _ hx rfl ((hkeep.mono (by simp) (by simp)).trans (hc.mono (by simp) fun _ => id)), hset, hspec⟩
      · exact ⟨_, .act _ hx (Dev.setTamper_set (hsame ▸ h) _) hkeep⟩
  case ram =>
    intro cut hinv
    refine ⟨fun h => ⟨.act Dev.saveUsage rfl (if_pos h), .act (fun d => if d.rd F.TB_STATE_STATE = 2 then d.saveTime else d) rfl ?_⟩, fun h => ?_,
      fun h => .act (fun d => if d.rd F.TB_STATE_STATE = 2 then d.saveTime else d) rfl (if_neg h), fun h hst => ?_,
      fun h => .act Dev.vbatLoss rfl (Dev.vbatLoss_of_not h), fun h => vbatLoss_clause s h⟩
    · have hsave : s.dev.saveTime = s.dev := if_pos h
      simp only [hsave, ite_self]
    · obtain ⟨hc, hok, hbytes, hothers⟩ := Dev.putGroup_spec (g := 3) hinv.ram h (by decide) (bs := pack ((List.range 32).map fun l =>
        (4, s.dev.rd F.VLT_HEAD_PENDING_PENDING l / 65536 * 256 + at' (at' s.dev.hl l).ids 1 % 256))) (by rw [pack_length]; simp [groupSpan, Function.comp_def])
      refine ⟨_, .act Dev.saveUsage rfl rfl hc, hok, fun l => ?_, fun g hg => hothers g (by omega) (by omega)⟩
      obtain ⟨hhigh, hlow⟩ := sliceNat_words (fun l => s.dev.rd F.VLT_HEAD_PENDING_PENDING l / 65536 * 256 + at' (at' s.dev.hl l).ids 1 % 256) l.isLt
      have hb := hbytes
      rw [show (s.dev.saveUsage).groupBytes 3 = _ from hbytes, hhigh, hlow]
      exact ⟨by omega, by rw [Dev.link]; omega⟩
    · obtain ⟨hc, hok, hbytes, hothers⟩ := Dev.putGroup_spec (g := 2) hinv.ram h (by decide) (bs := pack [(8, s.dev.now), (1, s.dev.steps), (3, 0)])
        (by rw [pack_length]; rfl)
      have hsteps : s.dev.steps < 2 ^ 8 := Dev.rd_lt ..
      have hnow := sliceNat_pack [] [(1, s.dev.steps), (3, 0)] 8 s.dev.now 0 rfl
      have hstep := sliceNat_pack [(8, s.dev.now)] [(3, 0)] 1 s.dev.steps 8 rfl
      rw [Nat.mod_eq_of_lt (by omega)] at hstep
      refine ⟨_, .act (fun d => if d.rd F.TB_STATE_STATE = 2 then d.saveTime else d) rfl (if_pos hst) hc, hok, ?_, ?_, hothers⟩
      · rw [show (s.dev.saveTime).groupBytes 2 = _ from hbytes]
        exact hnow
      · rw [show (s.dev.saveTime).groupBytes 2 = _ from hbytes]
        exact hstep

/-! ### Frames over lists -/

section
variable {d e : Dev} {ps : List Part} {rs : List Nat}

theorem Dev.ChangesOnly.foldl {α : Type} {f : Dev → α → Dev} (l : List α) (h : d.ChangesOnly e ps rs)
    (hf : ∀ e x, d.ChangesOnly e ps rs → d.ChangesOnly (f e x) ps rs) : d.ChangesOnly (l.foldl f e) ps rs := by
  induction l generalizing e with
  | nil => exact h
  | cons x l ih => exact ih (hf e x h)

theorem Dev.ChangesOnly.suspect (h : d.ChangesOnly e ps rs) (hp : Part.cdc ∈ ps) (hf : R.SYS_FAULT_STAT.addr 0 ∈ rs) (hw : R.WT_PAGE.addr 0 ∈ rs) (uid : Nat) :
    d.ChangesOnly (e.suspect uid) ps rs := by
  unfold Dev.suspect
  split
  · exact h
  · have hset : d.ChangesOnly ((e.setPage uid fun p => { p with suspect := true }).wr F.SYS_FAULT_STAT_PAGE_SUSPECT 0 1) ps rs := (h.setCdc hp).wr hf
    dsimp only
    split
    · exact hset.wrB hw
    · exact hset

theorem Dev.ChangesOnly.suspectRunning (h : d.ChangesOnly e ps rs) (hp : Part.cdc ∈ ps) (hf : R.SYS_FAULT_STAT.addr 0 ∈ rs) (hw : R.WT_PAGE.addr 0 ∈ rs) :
    d.ChangesOnly e.suspectRunning ps rs := h.foldl _ fun _ p he => he.suspect hp hf hw p.uid

theorem Dev.ChangesOnly.sendInhibit (h : d.ChangesOnly e ps rs) (hp : Part.out ∈ ps) : d.ChangesOnly e.sendInhibit ps rs :=
  h.foldl _ fun _ _ he => he.setOut hp

end

/-! ### The internal inhibit (R177, R178) -/

section
variable {d : Dev} (hr : keysRising 0 d.regs = true)
include hr

theorem Dev.showInhibit_rd {f : Fld} (hf : f.reg = R.HL_INHIBIT_CTRL) (hlo : f.lo + f.w ≤ 3) : d.showInhibit.rd f = d.rd f :=
  Dev.rd_wr_same d F.HL_INHIBIT_CTRL_ACTIVE f 0 _ hf (by omega) (.inl hlo) hr

theorem Dev.assertInhibit_spec (h : d.pace.inhibit = false) (ti cause : Nat) :
    let e := d.assertInhibit ti cause
    d.ChangesOnly e [.pace, .out, .cdc, .raised] [R.HL_INHIBIT_CTRL.addr 0, R.WT_PAGE.addr 0, R.SYS_FAULT_STAT.addr 0] ∧
      e.pace = { d.pace with inhibit := true, order := true, released := none, floor := none } ∧ e.rd F.HL_INHIBIT_CTRL_ACTIVE = 1 ∧
      (∀ f : Fld, f.reg = R.HL_INHIBIT_CTRL → f.lo + f.w ≤ 3 → e.rd f = d.rd f) ∧ e.raised = d.raised ++ [d.event .secure 0x0B53 [(8, ti), (1, cause)]] := by
  intro e
  set x : Dev := { d with pace := { d.pace with inhibit := true, order := true, released := none, floor := none } }
  have he : e = x.showInhibit.sendInhibit.suspectRunning.raise .secure 0x0B53 [(8, ti), (1, cause)] := if_neg (by simp [h])
  have hshow : d.ChangesOnly x.showInhibit [.pace, .out, .cdc, .raised] [R.HL_INHIBIT_CTRL.addr 0, R.WT_PAGE.addr 0, R.SYS_FAULT_STAT.addr 0] :=
    .wrB (.setPace .keep (by decide)) List.mem_cons_self
  have hrest : x.showInhibit.ChangesOnly x.showInhibit.sendInhibit.suspectRunning [.out, .cdc] [R.WT_PAGE.addr 0, R.SYS_FAULT_STAT.addr 0] :=
    (Dev.ChangesOnly.keep.sendInhibit (by decide)).suspectRunning (by decide) (by decide) (by decide)
  have hall := hshow.trans (hrest.mono (by simp) (by simp))
  have hrd : ∀ f : Fld, f.reg = R.HL_INHIBIT_CTRL → e.rd f = x.showInhibit.rd f := fun f hf => by
    rw [he, Dev.rd_raise_ne _ _ _ _ _ _ (by rw [hf]; decide)]
    exact hrest.rd (by rw [hf]; decide)
  refine ⟨he ▸ hall.raise (by decide) (.inl (by decide)), ?_, ?_, fun f hf hlo => ?_, ?_⟩
  · rw [he, Dev.raise_pace, hrest.parts .pace (by decide)]
    rfl
  · exact (hrd _ rfl).trans (Dev.rd_wrB_self _ F.HL_INHIBIT_CTRL_ACTIVE 0 _ (by decide) (by decide) hr)
  · exact (hrd f hf).trans (Dev.showInhibit_rd (d := x) hr hf hlo)
  · rw [he, Dev.raise_raised, hall.event (by decide) (by decide), hrest.parts .raised (by decide)]
    rfl

theorem Dev.endInhibit_spec (h : d.pace.inhibit = true) (hheld : d.inhibitHeld = false) (tr : Nat) :
    let e := d.endInhibit tr
    d.ChangesOnly e [.pace, .raised] [R.HL_INHIBIT_CTRL.addr 0] ∧ e.pace = { d.pace with inhibit := false, released := some tr, freed := some tr } ∧
      (∀ f : Fld, f.reg = R.HL_INHIBIT_CTRL → f.lo + f.w ≤ 3 → e.rd f = d.rd f) ∧ e.raised = d.raised ++ [d.event .secure 0x0B54 [(8, tr)]] := by
  intro e
  set x : Dev := { d with pace := { d.pace with inhibit := false, released := some tr, freed := some tr } }
  have he : e = x.showInhibit.raise .secure 0x0B54 [(8, tr)] := if_neg (by simp [h, hheld])
  have hshow : d.ChangesOnly x.showInhibit [.pace, .raised] [R.HL_INHIBIT_CTRL.addr 0] := .wrB (.setPace .keep (by decide)) List.mem_cons_self
  refine ⟨he ▸ hshow.raise (by decide) (.inl (by decide)), ?_, fun f hf hlo => ?_, ?_⟩
  · rw [he, Dev.raise_pace]
    rfl
  · rw [he, Dev.rd_raise_ne _ _ _ _ _ _ (by rw [hf]; decide)]
    exact Dev.showInhibit_rd (d := x) hr hf hlo
  · rw [he, Dev.raise_raised, hshow.event (by decide) (by decide)]
    rfl

end

theorem findReg_HL_INHIBIT_CTRL : findReg (R.HL_INHIBIT_CTRL.addr 0) regTable = some ⟨⟨R.HL_INHIBIT_CTRL,
    [F.HL_INHIBIT_CTRL_INHIBIT, F.HL_INHIBIT_CTRL_RESUME, F.HL_INHIBIT_CTRL_PIN, F.HL_INHIBIT_CTRL_ACTIVE, F.HL_INHIBIT_CTRL_PACE_LOST]⟩, 0, false⟩ :=
  (findReg_drop 97 (by decide +kernel)).trans rfl

theorem Dev.inhibitHeld_eq (d : Dev) : d.inhibitHeld = false ↔
    d.rd F.HL_INHIBIT_CTRL_PIN = 0 ∧ d.rd F.HL_INHIBIT_CTRL_INHIBIT = 0 ∧ d.pace.resetInhibit = false := by
  simp [Dev.inhibitHeld, Dev.on]

/-- The pin's level as it is noted. -/
theorem Dev.notePin_spec {d : Dev} (hr : keysRising 0 d.regs = true) (level : Bool) :
    let e := d.wrB F.HL_INHIBIT_CTRL_PIN 0 !level
    d.ChangesOnly e [] [R.HL_INHIBIT_CTRL.addr 0] ∧ (e.rd F.HL_INHIBIT_CTRL_PIN = if level then 0 else 1) ∧
      e.rd F.HL_INHIBIT_CTRL_INHIBIT = d.rd F.HL_INHIBIT_CTRL_INHIBIT := by
  refine ⟨.wrB .keep List.mem_cons_self, ?_, Dev.rd_wr_same d F.HL_INHIBIT_CTRL_PIN F.HL_INHIBIT_CTRL_INHIBIT 0 _ rfl (by decide) (by decide) hr⟩
  rw [Dev.rd_wrB_self _ _ _ _ (by decide) (by decide) hr]
  cases level <;> rfl

/-- What a write of HL_INHIBIT_CTRL stores. -/
theorem Dev.storeInhibit_spec {d : Dev} (hr : keysRising 0 d.regs = true) (val : Nat) :
    let e := d.store R.HL_INHIBIT_CTRL 0 val mask32
    d.ChangesOnly e [] [R.HL_INHIBIT_CTRL.addr 0] ∧ e.rd F.HL_INHIBIT_CTRL_INHIBIT = val % 2 ∧ e.rd F.HL_INHIBIT_CTRL_RESUME = val / 2 % 2 ∧
      e.rd F.HL_INHIBIT_CTRL_PIN = d.rd F.HL_INHIBIT_CTRL_PIN := by
  refine ⟨.store .keep findReg_HL_INHIBIT_CTRL List.mem_cons_self, ?_, ?_, Dev.rd_store_ro findReg_HL_INHIBIT_CTRL (f := F.HL_INHIBIT_CTRL_PIN) (by simp) hr rfl⟩
  · exact (Dev.rd_store_any findReg_HL_INHIBIT_CTRL (f := F.HL_INHIBIT_CTRL_INHIBIT) (by simp) hr rfl rfl (fieldOf_mask32 (by decide))).trans (fieldOf_zero _ _)
  · exact Dev.rd_store_any findReg_HL_INHIBIT_CTRL (f := F.HL_INHIBIT_CTRL_RESUME) (by simp) hr rfl rfl (fieldOf_mask32 (by decide))

section
variable {s : State} (hinv : s.Inv)
include hinv

theorem fireInhibit_asserts (t : Nat) (h : s.dev.pace.inhibit = false) :
    ∃ u, Runs (.fireInhibitnChange false t) s u [.pace, .out, .cdc, .raised] [R.HL_INHIBIT_CTRL.addr 0, R.WT_PAGE.addr 0, R.SYS_FAULT_STAT.addr 0] ∧
      u.dev.pace = { s.dev.pace with inhibit := true, order := true, released := none, floor := none } ∧
      u.dev.rd F.HL_INHIBIT_CTRL_PIN = 1 ∧ u.dev.rd F.HL_INHIBIT_CTRL_ACTIVE = 1 ∧
      u.dev.raised = s.dev.raised ++ [s.dev.event .secure 0x0B53 [(8, t), (1, 0)]] := by
  obtain ⟨hc, hpin, -⟩ := Dev.notePin_spec hinv.regs false
  obtain ⟨hc', hpace, hactive, hrd, hraised⟩ := Dev.assertInhibit_spec (hc.rising hinv.regs) h t 0
  rw [hc.event (by decide) (by decide)] at hraised
  exact ⟨_, .inOrder (fun d => d.firePin false t) rfl rfl (Dev.orderEvents_one hraised) ((hc.mono (by simp) (by simp)).trans hc'), hpace,
    (hrd _ rfl (by decide)).trans hpin, hactive, hraised⟩

theorem fireInhibit_releases (t : Nat) (h : s.dev.pace.inhibit = true) (hbit : s.dev.rd F.HL_INHIBIT_CTRL_INHIBIT = 0) (hreset : s.dev.pace.resetInhibit = false) :
    ∃ u, Runs (.fireInhibitnChange true t) s u [.pace, .raised] [R.HL_INHIBIT_CTRL.addr 0] ∧
      u.dev.pace = { s.dev.pace with inhibit := false, released := some t, freed := some t } ∧ u.dev.rd F.HL_INHIBIT_CTRL_PIN = 0 ∧
      u.dev.raised = s.dev.raised ++ [s.dev.event .secure 0x0B54 [(8, t)]] := by
  obtain ⟨hc, hpin, hinhibit⟩ := Dev.notePin_spec hinv.regs true
  obtain ⟨hc', hpace, hrd, hraised⟩ := Dev.endInhibit_spec (hc.rising hinv.regs) h ((Dev.inhibitHeld_eq _).mpr ⟨hpin, hinhibit.trans hbit, hreset⟩) t
  rw [hc.event (by decide) (by decide)] at hraised
  exact ⟨_, .inOrder (fun d => d.firePin true t) rfl rfl (Dev.orderEvents_one hraised) ((hc.mono (by simp) fun _ => id).trans hc'), hpace,
    (hrd _ rfl (by decide)).trans hpin, hraised⟩

/-- A change of the pin that neither asserts nor ends the inhibit is noted alone. -/
theorem fireInhibit_noted (level : Bool) (t : Nat)
    (h : if level then s.dev.pace.inhibit = false ∨ s.dev.rd F.HL_INHIBIT_CTRL_INHIBIT = 1 ∨ s.dev.pace.resetInhibit = true else s.dev.pace.inhibit = true) :
    ∃ u, Runs (.fireInhibitnChange level t) s u [] [R.HL_INHIBIT_CTRL.addr 0] ∧ u.dev.rd F.HL_INHIBIT_CTRL_PIN = if level then 0 else 1 := by
  obtain ⟨hc, hpin, hinhibit⟩ := Dev.notePin_spec hinv.regs level
  have hquiet : (s.dev.wrB F.HL_INHIBIT_CTRL_PIN 0 !level).orderEvents s.dev.raised.length = _ := Dev.orderEvents_none (le_refl _)
  refine ⟨_, .inOrder (fun d => d.firePin level t) rfl ?_ hquiet hc, hpin⟩
  cases level with
  | false => exact if_pos h
  | true =>
    refine if_pos ?_
    rcases h with h | h | h
    · simp [h]
    · have hon : (s.dev.wrB F.HL_INHIBIT_CTRL_PIN 0 !true).on F.HL_INHIBIT_CTRL_INHIBIT = true := by
        rw [Dev.on, hinhibit, h]
        rfl
      simp only [Dev.inhibitHeld, hon, Bool.true_or, Bool.or_true]
    · simp [Dev.inhibitHeld, h]

end

/-- A command that writes a register and posts its events in order. -/
theorem Runs.writesInOrder {c : Instr} {m : Master} {r : Reg} {i : Nat} {s : State} {ps : List Part} {rs : List Nat} {e : Dev} (f : Dev → Dev)
    (hx : exec c s = s.actInOrder fun d => d.writeTo m r i f) (ht : s.dev.Takes m r i) (he : f (s.dev.touch m) = e)
    (ho : e.orderEvents s.dev.raised.length = e) (h : (s.dev.touch m).ChangesOnly e ps rs) : Runs c s { s with dev := e } (.bus :: ps) rs :=
  .inOrder _ hx ((Dev.writeTo_of_takes ht f).trans he) ho h.after_touch

theorem Dev.event_touch (d : Dev) (m : Master) (t : Dest) (code : Nat) (p : List (Nat × Nat)) : (d.touch m).event t code p = d.event t code p := by
  rw [Dev.touch_eq]
  rfl

/-- What a write that only stores leaves of the device as it was before the access. -/
theorem Dev.touch_store_keeps (d : Dev) (m : Master) {r : Reg} {i : Nat} {h : Hit} (hf : findReg (r.addr i) regTable = some h) (hr : ∀ a ∈ eventRegs, a ≠ h.row.reg.addr h.idx)
    (val mask : Nat) :
    let e := (d.touch m).store r i val mask
    (∀ t code p, e.event t code p = d.event t code p) ∧ e.raised = d.raised ∧ e.now = d.now := by
  have hc : (d.touch m).ChangesOnly ((d.touch m).store r i val mask) [] [h.row.reg.addr h.idx] := .store .keep hf List.mem_cons_self
  refine ⟨fun t code p => ?_, by rw [Dev.store_raised, Dev.touch_raised], by rw [Dev.now, Dev.store_tmb, Dev.touch_tmb, Dev.now]⟩
  rw [hc.event List.not_mem_nil (fun a ha => by simpa using hr a ha), Dev.event_touch]

/-- A write of HL_INHIBIT_CTRL asserts the inhibit or ends it, by the bit as stored. -/
theorem Dev.wInhibit_eq {d : Dev} (hr : keysRising 0 d.regs = true) (val : Nat) :
    d.wInhibit val mask32 = if val % 2 = 1 then (d.store R.HL_INHIBIT_CTRL 0 val mask32).assertInhibit (d.store R.HL_INHIBIT_CTRL 0 val mask32).now 1
      else (d.store R.HL_INHIBIT_CTRL 0 val mask32).endInhibit (d.store R.HL_INHIBIT_CTRL 0 val mask32).now := by
  have hbit : (d.store R.HL_INHIBIT_CTRL 0 val mask32).on F.HL_INHIBIT_CTRL_INHIBIT = decide (val % 2 = 1) := by
    rw [Dev.on, (Dev.storeInhibit_spec hr val).2.1]
    exact decide_eq_decide.mpr (by omega)
  simp only [Dev.wInhibit, hbit, decide_eq_true_eq]

theorem setsBit_zero {val : Nat} : setsBit val 0 ↔ val % 2 = 1 := by simp [setsBit]

section
variable {m : Master} {s : State} (hinv : s.Inv) (ht : s.dev.Takes m R.HL_INHIBIT_CTRL 0)
include hinv ht

theorem inhibitWrite_asserts {val : Nat} (hbit : val % 2 = 1) (h : s.dev.pace.inhibit = false) :
    ∃ u, Runs (.inhibitWrite m val) s u [.bus, .pace, .out, .cdc, .raised] [R.HL_INHIBIT_CTRL.addr 0, R.WT_PAGE.addr 0, R.SYS_FAULT_STAT.addr 0] ∧
      u.dev.pace = { s.dev.pace with inhibit := true, order := true, released := none, floor := none } ∧
      u.dev.rd F.HL_INHIBIT_CTRL_INHIBIT = 1 ∧ u.dev.rd F.HL_INHIBIT_CTRL_RESUME = val / 2 % 2 ∧
      u.dev.raised = s.dev.raised ++ [s.dev.event .secure 0x0B53 [(8, s.dev.now), (1, 1)]] := by
  have hr := Dev.touch_rising m hinv.regs
  obtain ⟨hc, hinhibit, hresume, -⟩ := Dev.storeInhibit_spec hr val
  obtain ⟨hevent, hkept, hnow⟩ := s.dev.touch_store_keeps m findReg_HL_INHIBIT_CTRL (by decide) val mask32
  have hpace : ((s.dev.touch m).store R.HL_INHIBIT_CTRL 0 val mask32).pace = s.dev.pace := by rw [Dev.store_pace, Dev.touch_pace]
  obtain ⟨hc', hpace', -, hrd, hraised⟩ := Dev.assertInhibit_spec (hc.rising hr) (hpace ▸ h) s.dev.now 1
  rw [hpace] at hpace'
  rw [hkept, hevent] at hraised
  have hrun := (Dev.wInhibit_eq hr val).trans (if_pos hbit)
  rw [hnow] at hrun
  exact ⟨_, .writesInOrder (fun d => d.wInhibit val mask32) rfl ht hrun (Dev.orderEvents_one hraised) ((hc.mono (by simp) (by simp)).trans hc'), hpace',
    (hrd _ rfl (by decide)).trans (hinhibit.trans hbit), (hrd _ rfl (by decide)).trans hresume, hraised⟩

theorem inhibitWrite_releases {val : Nat} (hbit : val % 2 ≠ 1) (h : s.dev.pace.inhibit = true) (hpin : s.dev.rd F.HL_INHIBIT_CTRL_PIN = 0)
    (hreset : s.dev.pace.resetInhibit = false) :
    ∃ u, Runs (.inhibitWrite m val) s u [.bus, .pace, .raised] [R.HL_INHIBIT_CTRL.addr 0] ∧
      u.dev.pace = { s.dev.pace with inhibit := false, released := some s.dev.now, freed := some s.dev.now } ∧
      u.dev.raised = s.dev.raised ++ [s.dev.event .secure 0x0B54 [(8, s.dev.now)]] := by
  have hr := Dev.touch_rising m hinv.regs
  obtain ⟨hc, hinhibit, -, hpin'⟩ := Dev.storeInhibit_spec hr val
  obtain ⟨hevent, hkept, hnow⟩ := s.dev.touch_store_keeps m findReg_HL_INHIBIT_CTRL (by decide) val mask32
  have hpace : ((s.dev.touch m).store R.HL_INHIBIT_CTRL 0 val mask32).pace = s.dev.pace := by rw [Dev.store_pace, Dev.touch_pace]
  have hfree := (Dev.inhibitHeld_eq _).mpr ⟨hpin'.trans ((Dev.rd_touch m ..).trans hpin), by rw [hinhibit]; omega, by rw [hpace]; exact hreset⟩
  obtain ⟨hc', hpace', -, hraised⟩ := Dev.endInhibit_spec (hc.rising hr) (hpace ▸ h) hfree s.dev.now
  rw [hpace] at hpace'
  rw [hkept, hevent] at hraised
  have hrun := (Dev.wInhibit_eq hr val).trans (if_neg hbit)
  rw [hnow] at hrun
  exact ⟨_, .writesInOrder (fun d => d.wInhibit val mask32) rfl ht hrun (Dev.orderEvents_one hraised) ((hc.mono (by simp) fun _ => id).trans hc'), hpace', hraised⟩

/-- A write that neither asserts nor ends the inhibit only stores. -/
theorem inhibitWrite_stores {val : Nat} (h : if setsBit val 0 then s.dev.pace.inhibit = true
      else s.dev.pace.inhibit = false ∨ s.dev.rd F.HL_INHIBIT_CTRL_PIN = 1 ∨ s.dev.pace.resetInhibit = true) :
    ∃ u, Runs (.inhibitWrite m val) s u [.bus] [R.HL_INHIBIT_CTRL.addr 0] ∧ u.dev.rd F.HL_INHIBIT_CTRL_INHIBIT = val % 2 ∧
      u.dev.rd F.HL_INHIBIT_CTRL_RESUME = val / 2 % 2 := by
  have hr := Dev.touch_rising m hinv.regs
  obtain ⟨hc, hinhibit, hresume, hpin⟩ := Dev.storeInhibit_spec hr val
  obtain ⟨-, hkept, -⟩ := s.dev.touch_store_keeps m findReg_HL_INHIBIT_CTRL (by decide) val mask32
  have hpace : ((s.dev.touch m).store R.HL_INHIBIT_CTRL 0 val mask32).pace = s.dev.pace := by rw [Dev.store_pace, Dev.touch_pace]
  have hrun : (s.dev.touch m).wInhibit val mask32 = (s.dev.touch m).store R.HL_INHIBIT_CTRL 0 val mask32 := by
    rw [Dev.wInhibit_eq hr]
    by_cases hbit : val % 2 = 1
    · rw [if_pos (setsBit_zero.mpr hbit)] at h
      rw [if_pos hbit]
      exact if_pos (hpace ▸ h)
    · rw [if_neg (mt setsBit_zero.mp hbit)] at h
      rw [if_neg hbit]
      refine if_pos ?_
      rw [hpace]
      rcases h with h | h | h
      · simp [h]
      · have hon : ((s.dev.touch m).store R.HL_INHIBIT_CTRL 0 val mask32).on F.HL_INHIBIT_CTRL_PIN = true := by
          rw [Dev.on, hpin, Dev.rd_touch, h]
          rfl
        simp only [Dev.inhibitHeld, hon, Bool.true_or, Bool.or_true]
      · simp [Dev.inhibitHeld, h]
  exact ⟨_, .writesInOrder (fun d => d.wInhibit val mask32) rfl ht hrun (Dev.orderEvents_none (by rw [hkept])) hc, hinhibit, hresume⟩

end

/-! ### Head temperatures (R160, R161) -/

theorem modify_eq_set {α : Type} [Inhabited α] (l : List α) {i : Nat} (f : α → α) : l.modify i f = l.set i (f (at' l i)) := by
  refine List.ext_getElem (by simp) fun k hk hk' => ?_
  have hk : k < l.length := by simpa using hk
  by_cases h : i = k
  · subst h
    simp [at', List.getD_eq_getElem?_getD, hk]
  · simp [h]

theorem ofSigned_toSigned {w n : Nat} (h : n < 2 ^ w) : ofSigned w (toSigned w n) = n := by
  have hmod : n % 2 ^ w = n := Nat.mod_eq_of_lt h
  unfold ofSigned toSigned
  simp only [hmod]
  split
  · omega
  · rw [Int.sub_emod_right]
    omega

/-- Going HOT is shown and counted. -/
def Dev.showHot (d : Dev) (h cause : Nat) : Dev :=
  ((d.wr F.HL_TEMP_STAT_STATE h 2).wr F.HL_TEMP_STAT_STALE h cause).bump F.HL_TEMP_STAT_TRIPS h 1

theorem Dev.showHot_spec {d : Dev} (hr : keysRising 0 d.regs = true) (h : Nat) {cause : Nat} (hc : cause < 2) :
    let e := d.showHot h cause
    e.rd F.HL_TEMP_STAT_STATE h = 2 ∧ e.rd F.HL_TEMP_STAT_STALE h = cause ∧
      e.rd F.HL_TEMP_STAT_TRIPS h = F.HL_TEMP_STAT_TRIPS.sum (d.rd F.HL_TEMP_STAT_TRIPS h) 1 ∧ e.rd F.HL_TEMP_STAT_TEMP h = d.rd F.HL_TEMP_STAT_TEMP h := by
  have hrise₁ := Dev.wr_rising d F.HL_TEMP_STAT_STATE h 2 hr
  have hrise₂ := Dev.wr_rising (d.wr F.HL_TEMP_STAT_STATE h 2) F.HL_TEMP_STAT_STALE h cause hrise₁
  refine ⟨?_, ?_, ?_, ?_⟩
  · refine (Dev.rd_wr_same _ F.HL_TEMP_STAT_TRIPS F.HL_TEMP_STAT_STATE h _ rfl (by decide) (by decide) hrise₂).trans ?_
    refine (Dev.rd_wr_same _ F.HL_TEMP_STAT_STALE F.HL_TEMP_STAT_STATE h cause rfl (by decide) (by decide) hrise₁).trans ?_
    exact Dev.rd_wr_lt _ (by decide) (by decide) hr
  · refine (Dev.rd_wr_same _ F.HL_TEMP_STAT_TRIPS F.HL_TEMP_STAT_STALE h _ rfl (by decide) (by decide) hrise₂).trans ?_
    exact Dev.rd_wr_lt _ hc (by decide) hrise₁
  · rw [Dev.showHot, Dev.rd_bump_self _ _ _ _ (by decide) hrise₂,
      Dev.rd_wr_same _ F.HL_TEMP_STAT_STALE F.HL_TEMP_STAT_TRIPS h cause rfl (by decide) (by decide) hrise₁,
      Dev.rd_wr_same _ F.HL_TEMP_STAT_STATE F.HL_TEMP_STAT_TRIPS h 2 rfl (by decide) (by decide) hr]
    rfl
  · refine (Dev.rd_wr_same _ F.HL_TEMP_STAT_TRIPS F.HL_TEMP_STAT_TEMP h _ rfl (by decide) (by decide) hrise₂).trans ?_
    refine (Dev.rd_wr_same _ F.HL_TEMP_STAT_STALE F.HL_TEMP_STAT_TEMP h cause rfl (by decide) (by decide) hrise₁).trans ?_
    exact Dev.rd_wr_same _ F.HL_TEMP_STAT_STATE F.HL_TEMP_STAT_TEMP h 2 rfl (by decide) (by decide) hr

/-- What the head keeps of its temperature is forgotten as it goes HOT; the other fields of its register stay. -/
theorem Dev.clearResume_spec {d : Dev} (hr : keysRising 0 d.regs = true) (h : Nat) (g : HeadTemp → HeadTemp) :
    d.ChangesOnly ((d.setTemp h g).setResume h none) [.pace] [R.HL_TEMP_STAT.addr h] ∧
      ∀ f : Fld, f.reg = R.HL_TEMP_STAT → f.lo + f.w ≤ 64 → f.lo + f.w ≤ 19 ∨ 20 ≤ f.lo → ((d.setTemp h g).setResume h none).rd f h = d.rd f h :=
  ⟨.wrB (.setPace (.setPace .keep List.mem_cons_self) List.mem_cons_self) List.mem_cons_self,
    fun f hf hw hapart => Dev.rd_wr_same ((d.setTemp h g).setTemp h fun x => { x with sResume := none }) F.HL_TEMP_STAT_RESUME_SET f h _ hf hw hapart hr⟩

theorem Dev.rd_setTemp (d : Dev) (h : Nat) (g : HeadTemp → HeadTemp) (f : Fld) (i : Nat) : (d.setTemp h g).rd f i = d.rd f i := Dev.rd_congr f i rfl

theorem Dev.enterHot_eq (d : Dev) (h cause : Nat) : d.enterHot h cause =
    (((d.showHot h cause).setTemp h fun x => { x with tail := none, cue := none }).setResume h none).raise .secure 0x0B42
      [(1, h), (2, ofSigned 16 (((d.showHot h cause).setTemp h fun x => { x with tail := none, cue := none }).rdS F.HL_TEMP_STAT_TEMP h)), (1, cause)] := rfl

/-- A head that goes HOT (R161). -/
theorem Dev.enterHot_spec {d : Dev} (hr : keysRising 0 d.regs = true) (h : Fin 32) {cause : Nat} (hc : cause < 2) :
    let e := d.enterHot h cause
    d.ChangesOnly e [.pace, .raised] [R.HL_TEMP_STAT.addr h] ∧ e.rd F.HL_TEMP_STAT_STATE h = 2 ∧ e.rd F.HL_TEMP_STAT_STALE h = cause ∧
      e.rd F.HL_TEMP_STAT_TRIPS h = F.HL_TEMP_STAT_TRIPS.sum (d.rd F.HL_TEMP_STAT_TRIPS h) 1 ∧
      e.raised = d.raised ++ [d.event .secure 0x0B42 [(1, h), (2, d.rd F.HL_TEMP_STAT_TEMP h), (1, cause)]] := by
  have hshow : d.ChangesOnly (d.showHot h cause) [.pace, .raised] [R.HL_TEMP_STAT.addr h] :=
    .bump (.wr (.wr .keep List.mem_cons_self) List.mem_cons_self) List.mem_cons_self
  obtain ⟨hstate, hstale, htrips, htemp⟩ := Dev.showHot_spec hr h hc
  obtain ⟨hclear, hrd⟩ := Dev.clearResume_spec (hshow.rising hr) h fun x => { x with tail := none, cue := none }
  have hall := hshow.trans (hclear.mono (by simp) fun _ => id)
  have hapart : (∀ h : Fin 32, R.HL_TEMP_STAT.addr h ≠ R.SYS_FAULT_STAT.addr 0) ∧ ∀ a ∈ eventRegs, ∀ h : Fin 32, a ≠ R.HL_TEMP_STAT.addr h := by decide
  have hread : ∀ f : Fld, f.reg = R.HL_TEMP_STAT → f.lo + f.w ≤ 64 → f.lo + f.w ≤ 19 ∨ 20 ≤ f.lo → (d.enterHot h cause).rd f h = (d.showHot h cause).rd f h := by
    intro f hf hw hlo
    rw [Dev.enterHot_eq, Dev.rd_raise_ne _ _ _ _ _ _ (by rw [hf]; exact hapart.1 h)]
    exact hrd f hf hw hlo
  have hcode : ofSigned 16 (((d.showHot h cause).setTemp h fun x => { x with tail := none, cue := none }).rdS F.HL_TEMP_STAT_TEMP h) = d.rd F.HL_TEMP_STAT_TEMP h := by
    rw [Dev.rdS, Dev.rd_setTemp, htemp]
    exact ofSigned_toSigned (Dev.rd_lt ..)
  refine ⟨?_, (hread _ rfl (by decide) (by decide)).trans hstate, (hread _ rfl (by decide) (by decide)).trans hstale,
    (hread _ rfl (by decide) (by decide)).trans htrips, ?_⟩
  · rw [Dev.enterHot_eq]
    exact hall.raise (by decide) (.inl (by decide))
  · rw [Dev.enterHot_eq, Dev.raise_raised, hall.event (by decide) (fun a ha => by simpa using hapart.2 a ha h), hcode]
    rfl

/-- Settles O33: by what asserting and ending the inhibit leave, and what a head that goes HOT leaves. -/
theorem inhibitAndStaleHeads : Obligations.InhibitAndStaleHeads := by
  unfold Obligations.InhibitAndStaleHeads
  refine ⟨fun t s hinv h => fireInhibit_asserts hinv t h, fun t s hinv h hbit hreset => fireInhibit_releases hinv t h hbit hreset,
    fun level t s hinv h => fireInhibit_noted hinv level t h, fun m val s hinv ht => ⟨fun hbit h => inhibitWrite_asserts hinv ht (setsBit_zero.mp hbit) h,
      fun hbit h hpin hreset => inhibitWrite_releases hinv ht (mt setsBit_zero.mpr hbit) h hpin hreset, fun h => inhibitWrite_stores hinv ht h⟩,
    fun h s hinv => ⟨fun hh hlive => ?stale, fun hno => ?idle⟩, fun h cs s hinv hlive hover hreport hstate => ?hot⟩
  case idle =>
    refine .act (fun d => d.tempStale h) rfl (if_neg fun ⟨hh, hlive⟩ => ?_)
    rcases hno with hno | hno
    · omega
    · simp [hno] at hlive
  case stale =>
    refine ⟨_, .act (fun d => d.tempStale h) rfl (if_pos ⟨hh, hlive⟩) (.setPace .keep (by decide)), ?_⟩
    exact congrArg (fun l => ({ s.dev.pace with temps := l } : Pace)) (modify_eq_set ..)
  case hot =>
    have ha : h < s.dev.pace.temps.length := by rw [hinv.temps]; exact h.isLt
    set cooled : Dev := s.dev.noteCool h
    have hsame : cooled.headTemp h = { s.dev.headTemp h with cool := match (s.dev.headTemp h).report with | some t => s.dev.isCool h t | none => false } :=
      at'_modify_self (fun x : HeadTemp => { x with cool := match (s.dev.headTemp h).report with | some t => s.dev.isCool h t | none => false }) ha
    have hnone : (cooled.headTemp h).report = none := by rw [hsame]; exact hreport
    have hgo : (cooled.headTemp h).live = true ∧ (cooled.headTemp h).overdue = true ∧ cooled.tempState h ≠ 2 := by
      rw [hsame]
      exact ⟨hlive, hover, hstate⟩
    have he : s.dev.headTempUpdate cs h = cooled.enterHot h 1 := by
      simp only [Dev.headTempUpdate]
      rw [hnone]
      exact if_pos hgo
    obtain ⟨hc, hspec⟩ := Dev.enterHot_spec (d := cooled) hinv.regs h (cause := 1) (by decide)
    have hall : s.dev.ChangesOnly (cooled.enterHot h 1) [.pace, .raised] [R.HL_TEMP_STAT.addr h] := .trans (.setPace .keep List.mem_cons_self) hc
    simp only [he]
    exact ⟨hall.parts, hall.regs, hspec⟩

end Sys2Proof.Machine
end

section
/-!
PROOFS. Links, slot tables, event rings and the management channel (R187 to R207, R268 to R275, R287 to R291).
-/

namespace Sys2Proof.Machine

set_option Elab.async false

/-! ### Links (R182 to R207) -/

theorem Dev.link_setLink {d : Dev} {l : Nat} (f : LinkSt → LinkSt) (h : l < d.hl.length) : (d.setLink l f).link l = f (d.link l) := at'_modify_self f h

theorem Dev.link_setLink_ne (d : Dev) {k l : Nat} (f : LinkSt → LinkSt) (h : k ≠ l) : (d.setLink k f).link l = d.link l := at'_modify_ne f h

theorem Dev.setLink_length (d : Dev) (l : Nat) (f : LinkSt → LinkSt) : (d.setLink l f).hl.length = d.hl.length := List.length_modify ..

theorem Dev.setLink_hl_set (d : Dev) (l : Nat) (f : LinkSt → LinkSt) : (d.setLink l f).hl = d.hl.set l (f (d.link l)) := modify_eq_set ..

/-- A link's registers are apart from those that an event's words come from. -/
theorem trainRegs_apart (l : Fin 32) : (∀ a ∈ eventRegs, a ∉ trainRegs l) ∧ R.SYS_FAULT_STAT.addr 0 ∉ trainRegs l := by
  have h : ∀ l : Fin 32, (∀ a ∈ eventRegs, a ∉ trainRegs l) ∧ R.SYS_FAULT_STAT.addr 0 ∉ trainRegs l := by decide
  exact h l

/-- The registers that letting a link's service go may write beside HL_STAT. -/
def goRegs (l : Nat) : List Nat := (trainRegs l).tail

/-- From d on, what link l had in service has been let go, in part or whole: its known taps and HL_STAT stay. -/
structure Dev.LetsGo (d e : Dev) (l : Nat) : Prop where
  changes : d.ChangesOnly e trainParts (goRegs l)
  good : (e.link l).good = (d.link l).good
  length : e.hl.length = d.hl.length

namespace Dev.LetsGo

variable {d e e' : Dev} {l : Nat}

theorem refl : d.LetsGo d l := ⟨.keep, rfl, rfl⟩

theorem trans (h : d.LetsGo e l) (h' : e.LetsGo e' l) : d.LetsGo e' l :=
  ⟨h.changes.trans h'.changes, h'.good.trans h.good, h'.length.trans h.length⟩

/-- A change of other parts than the links. -/
theorem apart {ps : List Part} {rs : List Nat} (h : d.LetsGo e l) (hc : e.ChangesOnly e' ps rs) (hhl : Part.hl ∉ ps) (hp : ∀ p ∈ ps, p ∈ trainParts)
    (hr : ∀ a ∈ rs, a ∈ goRegs l) : d.LetsGo e' l := by
  have hsame : e'.hl = e.hl := hc.parts .hl hhl
  exact ⟨h.changes.trans (hc.mono hp hr), by rw [Dev.link, hsame]; exact h.good, by rw [hsame]; exact h.length⟩

theorem wr {f : Fld} {i v : Nat} (h : d.LetsGo e l) (hr : f.reg.addr i ∈ goRegs l) : d.LetsGo (e.wr f i v) l :=
  ⟨h.changes.wr hr, h.good, h.length⟩

theorem wrB {f : Fld} {i : Nat} {b : Bool} (h : d.LetsGo e l) (hr : f.reg.addr i ∈ goRegs l) : d.LetsGo (e.wrB f i b) l := h.wr hr

theorem emit (h : d.LetsGo e l) (o : Out) : d.LetsGo (e.emit o) l := ⟨h.changes.setOut (by decide), h.good, h.length⟩

theorem setLink (h : d.LetsGo e l) {k : Nat} {f : LinkSt → LinkSt} (hf : ∀ x, (f x).good = x.good) : d.LetsGo (e.setLink k f) l := by
  refine ⟨h.changes.setHl (by decide), ?_, (Dev.setLink_length ..).trans h.length⟩
  by_cases hk : k = l
  · subst hk
    by_cases hlen : k < e.hl.length
    · rw [Dev.link_setLink f hlen, hf, h.good]
    · have hout : (e.setLink k f).link k = e.link k := by
        simp only [Dev.link, Dev.setLink, at', List.getD_eq_getElem?_getD]
        rw [List.getElem?_eq_none (by simpa using hlen), List.getElem?_eq_none (by simpa using hlen)]
      rw [hout, h.good]
  · rw [Dev.link_setLink_ne _ _ hk, h.good]

theorem foldl {α : Type} {f : Dev → α → Dev} (xs : List α) (h : d.LetsGo e l) (hf : ∀ e x, d.LetsGo e l → d.LetsGo (f e x) l) : d.LetsGo (xs.foldl f e) l := by
  induction xs generalizing e with
  | nil => exact h
  | cons x xs ih => exact ih (hf e x h)

end Dev.LetsGo

/-! ### What lets a link's service go (R206) -/

theorem Dev.ChangesOnly.ite {d a b : Dev} {ps : List Part} {rs : List Nat} {c : Prop} [Decidable c] (ha : d.ChangesOnly a ps rs) (hb : d.ChangesOnly b ps rs) :
    d.ChangesOnly (if c then a else b) ps rs := by
  split
  · exact ha
  · exact hb

theorem Dev.ChangesOnly.uncount {d e : Dev} {ps : List Part} {rs : List Nat} (h : d.ChangesOnly e ps rs) (hs : Part.snapD ∈ ps) (f : Fld) (i : Nat) :
    d.ChangesOnly (e.uncount f i) ps rs := h.setSnapD hs

theorem Dev.ChangesOnly.uncommit {d e : Dev} {ps : List Part} {rs : List Nat} (h : d.ChangesOnly e ps rs) (hp : Part.pace ∈ ps) (hs : Part.snapD ∈ ps) (t : TxLine) :
    d.ChangesOnly (e.uncommit t) ps rs := by
  refine Dev.ChangesOnly.setPace (Dev.ChangesOnly.foldl _ h fun e' p he => ?_) hp
  dsimp only
  split
  · exact he
  · exact Dev.ChangesOnly.uncount (.ite (he.setPace hp) he) hs _ _

/-- A line that is not transmitted changes the lines waiting and the usage counts of its link. -/
theorem Dev.dropLine_changes {e : Dev} {l : Nat} {x : TxLine} (hx : e.linkOf x.head = l) :
    e.ChangesOnly (e.dropLine x) [.pace, .snapD, .unauth] [R.VLT_HEAD_PENDING.addr l] := by
  have hset : e.ChangesOnly (e.setTx x fun y => { y with waiting := false, dropped := true }) [.pace, .snapD, .unauth] [R.VLT_HEAD_PENDING.addr l] := .setPace .keep (by decide)
  have hun := hset.uncommit (by decide) (by decide) x
  have hlink : ((e.setTx x fun y => { y with waiting := false, dropped := true }).uncommit x).linkOf x.head = l := by
    have hpat : ((e.setTx x fun y => { y with waiting := false, dropped := true }).uncommit x).pat = e.pat := hun.parts .pat (by decide)
    rw [← hx, Dev.linkOf, Dev.linkOf]
    simp only [Dev.headSec, Dev.gauge, hpat]
  have huse : e.ChangesOnly (((e.setTx x fun y => { y with waiting := false, dropped := true }).uncommit x).unuse x) [.pace, .snapD, .unauth] [R.VLT_HEAD_PENDING.addr l] := by
    unfold Dev.unuse
    simp only [hlink]
    split
    · exact hun.wr List.mem_cons_self
    · split
      · split
        · exact hun.setUnauth (by decide)
        · exact Dev.ChangesOnly.uncount (hun.setUnauth (by decide)) (by decide) _ _
      · exact hun
  unfold Dev.dropLine
  dsimp only
  split
  · exact huse
  · exact hset

theorem Dev.dropLines_changes {l : Nat} (xs : List TxLine) : ∀ {e : Dev}, (∀ x ∈ xs, e.linkOf x.head = l) →
    e.ChangesOnly (xs.foldl (fun d x => d.dropLine x) e) [.pace, .snapD, .unauth] [R.VLT_HEAD_PENDING.addr l] := by
  induction xs with
  | nil => exact fun _ => .keep
  | cons x xs ih =>
    intro e hl
    have hone := Dev.dropLine_changes (hl x List.mem_cons_self)
    refine hone.trans (ih fun y hy => ?_)
    have hpat : (e.dropLine x).pat = e.pat := hone.parts .pat (by decide)
    rw [Dev.linkOf, Dev.headSec, Dev.gauge, hpat]
    exact hl y (List.mem_cons_of_mem _ hy)

theorem mem_insertTx {x y : TxLine} {ys : List TxLine} : x ∈ insertTx y ys ↔ x = y ∨ x ∈ ys := by
  induction ys with
  | nil => simp [insertTx]
  | cons z zs ih =>
    unfold insertTx
    split
    · simp
    · simp only [List.mem_cons, ih]; tauto

theorem Dev.linkOf_of_waiting {d : Dev} {l : Nat} {x : TxLine} (h : x ∈ d.waitingLines l) : d.linkOf x.head = l := by
  have hfold : ∀ xs acc : List TxLine, x ∈ xs.foldl (fun acc x => insertTx x acc) acc → x ∈ xs ∨ x ∈ acc := by
    intro xs
    induction xs with
    | nil => exact fun acc h => .inr h
    | cons y ys ih =>
      intro acc h
      rcases ih _ h with h | h
      · exact .inl (List.mem_cons_of_mem _ h)
      · rcases mem_insertTx.mp h with rfl | h
        · exact .inl List.mem_cons_self
        · exact .inr h
  rcases hfold _ _ h with h | h
  · obtain ⟨-, hwaits⟩ := List.mem_filter.mp h
    simp only [Bool.and_eq_true, decide_eq_true_eq] at hwaits
    exact hwaits.2
  · simp at h

theorem Dev.LetsGo.ite {d a b : Dev} {l : Nat} {c : Prop} [Decidable c] (ha : d.LetsGo a l) (hb : d.LetsGo b l) : d.LetsGo (if c then a else b) l := by
  split
  · exact ha
  · exact hb

theorem Dev.LetsGo.dropReq {d e : Dev} {l : Nat} (h : d.LetsGo e l) (p : Nat) : d.LetsGo (e.dropReq l p) l := by
  have hset : d.LetsGo (e.setReq l p none) l := h.setLink fun _ => rfl
  have hgrant : d.LetsGo ((e.setReq l p none).setLink l fun x => { x with grant := none }) l := hset.setLink fun _ => rfl
  refine .ite ?_ hset
  unfold Dev.grantNext
  dsimp only
  split
  · exact hgrant
  · split
    · exact hgrant.setLink fun _ => rfl
    · exact hgrant

theorem boxIdx_mem (l : Nat) (p : Fin 2) : R.HL_MGMT_STAT.addr (boxIdx l p) ∈ goRegs l := by
  have hidx : boxIdx l p = 2 * l + p := by unfold boxIdx; omega
  rw [hidx]
  fin_cases p <;> simp [goRegs, trainRegs]

theorem Dev.ChangesOnly.mgmtDone {d e : Dev} {ps : List Part} {rs : List Nat} (h : d.ChangesOnly e ps rs) {l : Nat} {p : Fin 2}
    (hr : R.HL_MGMT_STAT.addr (boxIdx l p) ∈ rs) (hp : Part.raised ∈ ps) (result tag : Nat) : d.ChangesOnly (e.mgmtDone l p result tag) ps rs :=
  .raise (.wr (.wrB (.wrB h hr) hr) hr) hp (.inl (by decide))

/-- A request of a link that goes is dropped; a host's ends. -/
def Dev.dropOne (d : Dev) (l p : Nat) : Dev :=
  match d.req l p with
  | some r =>
    if r.sent && decide (p < 2) then d
    else
      let d := d.dropReq l p
      if p < 2 then d.mgmtDone l (if p = 0 then 0 else 1) 5 r.tag else d
  | none => d

theorem Dev.LetsGo.dropOne {d e : Dev} {l : Nat} (h : d.LetsGo e l) (p : Nat) : d.LetsGo (e.dropOne l p) l := by
  unfold Dev.dropOne
  split
  · refine .ite h (.ite ?_ (h.dropReq p))
    exact (h.dropReq p).apart (ps := [.raised]) (rs := goRegs l) (.mgmtDone .keep (boxIdx_mem l _) (by decide) _ _) (by decide) (by decide) fun _ => id
  · exact h

theorem Dev.nextAuth_of_down {d : Dev} {l : Nat} (h : d.linkUp l = false) : d.nextAuth l = d := by
  unfold Dev.nextAuth
  exact if_pos (.inr (by rw [h]; rfl))

theorem Dev.on_of_zero {d : Dev} {f : Fld} {i : Nat} (h : d.rd f i = 0) : d.on f i = false := by
  unfold Dev.on
  rw [h]
  decide

theorem Dev.rd_of_off {d : Dev} {f : Fld} {i : Nat} (h : d.on f i = false) : d.rd f i = 0 := by
  simpa [Dev.on] using h

theorem Dev.waiting_changes (e : Dev) (l : Nat) :
    e.ChangesOnly ((e.waitingLines l).foldl (fun d x => d.dropLine x) e) [.pace, .snapD, .unauth] [R.VLT_HEAD_PENDING.addr l] :=
  Dev.dropLines_changes _ fun _ hx => Dev.linkOf_of_waiting hx

theorem Dev.LetsGo.dropLines {d e : Dev} {l : Nat} (h : d.LetsGo e l) : d.LetsGo ((e.waitingLines l).foldl (fun d x => d.dropLine x) e) l :=
  h.apart (e.waiting_changes l) (by decide) (by decide) (by simp [goRegs, trainRegs])

/-! ### A link that goes down (R204, R206) -/

/-- The fields of HL_STAT that read 0 once a link is down. -/
def downFlds : List Fld := [F.HL_STAT_UP, F.HL_STAT_IN_SERVICE, F.HL_STAT_DN_ASLEEP, F.HL_STAT_UP_ASLEEP]

/-- The fields of HL_STAT that a link keeps as it goes down, until its training state is written. -/
def keptFlds : List Fld := [F.HL_STAT_STATE, F.HL_STAT_GEN, F.HL_STAT_ATTEMPT, F.HL_STAT_CAUSE]

/-- Two fields of one register that share no bit. -/
def Fld.Beside (f g : Fld) : Prop := g.reg = f.reg ∧ g.lo + g.w ≤ 64 ∧ (g.lo + g.w ≤ f.lo ∨ f.lo + f.w ≤ g.lo)

theorem downFlds_reg : ∀ f ∈ downFlds, f.reg = R.HL_STAT ∧ f.lo + f.w ≤ 64 ∧ 0 < f.w := by
  simp [downFlds, F.HL_STAT_UP, F.HL_STAT_IN_SERVICE, F.HL_STAT_DN_ASLEEP, F.HL_STAT_UP_ASLEEP]

theorem keptFlds_reg : ∀ f ∈ keptFlds, f.reg = R.HL_STAT := by
  simp [keptFlds, F.HL_STAT_STATE, F.HL_STAT_GEN, F.HL_STAT_ATTEMPT, F.HL_STAT_CAUSE]

theorem keptFlds_beside : ∀ f ∈ downFlds, ∀ g ∈ keptFlds, f.Beside g := by
  simp [downFlds, keptFlds, Fld.Beside, F.HL_STAT_UP, F.HL_STAT_IN_SERVICE, F.HL_STAT_DN_ASLEEP, F.HL_STAT_UP_ASLEEP,
    F.HL_STAT_STATE, F.HL_STAT_GEN, F.HL_STAT_ATTEMPT, F.HL_STAT_CAUSE]

theorem downFlds_beside : ∀ f ∈ downFlds, ∀ g ∈ downFlds, g = f ∨ f.Beside g := by
  simp [downFlds, Fld.Beside, F.HL_STAT_UP, F.HL_STAT_IN_SERVICE, F.HL_STAT_DN_ASLEEP, F.HL_STAT_UP_ASLEEP]

theorem statReg_not_go (l : Fin 32) : R.HL_STAT.addr l ∉ goRegs l := by
  have h : ∀ l : Fin 32, R.HL_STAT.addr l ∉ goRegs l := by decide
  exact h l

theorem goRegs_train (l : Nat) : ∀ a ∈ goRegs l, a ∈ trainRegs l := fun _ h => List.mem_of_mem_tail h

theorem statReg_train (l : Nat) : R.HL_STAT.addr l ∈ trainRegs l := List.mem_cons_self

/-- From d on link l has let go, and the fields zs of HL_STAT read 0. -/
structure Dev.GoesDown (d e : Dev) (l : Fin 32) (zs : List Fld) : Prop where
  changes : d.ChangesOnly e trainParts (trainRegs l)
  good : (e.link l).good = (d.link l).good
  length : e.hl.length = d.hl.length
  kept : ∀ g ∈ keptFlds, e.rd g l = d.rd g l
  zero : ∀ g ∈ zs, e.rd g l = 0

theorem Dev.GoesDown.refl {d : Dev} {l : Fin 32} : d.GoesDown d l [] := ⟨.keep, rfl, rfl, fun _ _ => rfl, by simp⟩

theorem Dev.GoesDown.letsGo {d e e' : Dev} {l : Fin 32} {zs : List Fld} (h : d.GoesDown e l zs) (hzs : ∀ g ∈ zs, g ∈ downFlds) (hg : e.LetsGo e' l) :
    d.GoesDown e' l zs := by
  have hrd : ∀ g : Fld, g.reg = R.HL_STAT → e'.rd g l = e.rd g l := fun g hr => hg.changes.rd (by rw [hr]; exact statReg_not_go l)
  exact ⟨h.changes.trans (hg.changes.mono (fun _ => id) (goRegs_train l)), hg.good.trans h.good, hg.length.trans h.length,
    fun g hm => (hrd g (keptFlds_reg g hm)).trans (h.kept g hm), fun g hm => (hrd g (downFlds_reg g (hzs g hm)).1).trans (h.zero g hm)⟩

theorem Dev.GoesDown.clear {d e : Dev} {l : Fin 32} {zs : List Fld} {f : Fld} (h : d.GoesDown e l zs) (hr : keysRising 0 d.regs = true)
    (hf : f ∈ downFlds) (hzs : ∀ g ∈ zs, g ∈ downFlds) : d.GoesDown (e.wrB f l false) l (f :: zs) := by
  have hrise : keysRising 0 e.regs = true := h.changes.rising hr
  obtain ⟨hfr, hfw, hf0⟩ := downFlds_reg f hf
  have hself : (e.wrB f l false).rd f l = 0 := Dev.rd_wrB_self _ _ _ _ hfw hf0 hrise
  refine ⟨h.changes.wrB (by rw [hfr]; exact statReg_train l), h.good, h.length, fun g hg => ?_, ?_⟩
  · obtain ⟨h1, h2, h3⟩ := keptFlds_beside f hf g hg
    exact (Dev.rd_wr_same e f g l _ h1 h2 h3 hrise).trans (h.kept g hg)
  · intro g hg
    rcases List.mem_cons.mp hg with rfl | hg
    · exact hself
    · rcases downFlds_beside f hf g (hzs g hg) with rfl | ⟨h1, h2, h3⟩
      · exact hself
      · exact (Dev.rd_wr_same e f g l _ h1 h2 h3 hrise).trans (h.zero g hg)

theorem authReg_go (l : Nat) : R.VLT_HEAD_STAT.addr l ∈ goRegs l := by simp [goRegs, trainRegs]

theorem delayReg_go (l : Nat) : R.HL_DELAY.addr l ∈ goRegs l := by simp [goRegs, trainRegs]

/-- A link that is not UP leaves service, its lines dropped and its exchange ended (R206, R315). -/
theorem Dev.GoesDown.serviceUpdate {d e : Dev} {l : Fin 32} (h : d.GoesDown e l [F.HL_STAT_UP]) (hr : keysRising 0 d.regs = true) :
    d.GoesDown (e.serviceUpdate l) l [F.HL_STAT_IN_SERVICE, F.HL_STAT_UP] := by
  have hup : e.linkUp l = false := Dev.on_of_zero (h.zero _ List.mem_cons_self)
  unfold Dev.serviceUpdate
  simp only [hup, Bool.false_and, Bool.false_eq_true, if_false]
  split
  case isTrue hs =>
    have hzero : e.rd F.HL_STAT_IN_SERVICE l = 0 := Dev.rd_of_off hs.symm
    refine { h with zero := fun g hg => ?_ }
    rcases List.mem_cons.mp hg with rfl | hg
    · exact hzero
    · exact h.zero g hg
  case isFalse =>
    have hin := h.clear hr (f := F.HL_STAT_IN_SERVICE) (by simp [downFlds]) (by simp [downFlds])
    have hset := Dev.LetsGo.setLink (k := l.val) (Dev.LetsGo.refl (d := e.wrB F.HL_STAT_IN_SERVICE l false) (l := l)) (f := fun x => { x with auth := none }) fun _ => rfl
    have hauth := Dev.LetsGo.ite (c := ((((e.wrB F.HL_STAT_IN_SERVICE l false).setLink l fun x => { x with auth := none }).waitingLines l).foldl (fun d x => d.dropLine x)
      ((e.wrB F.HL_STAT_IN_SERVICE l false).setLink l fun x => { x with auth := none })).rd F.VLT_HEAD_STAT_AUTH l = 1)
      (hset.dropLines.wr (f := F.VLT_HEAD_STAT_AUTH) (i := l) (v := 0) (authReg_go l)) hset.dropLines
    have hgone := hin.letsGo (by simp [downFlds]) hauth
    rw [Dev.nextAuth_of_down (Dev.on_of_zero (hgone.zero F.HL_STAT_UP (by simp)))]
    exact hgone

theorem Dev.GoesDown.clearLink (d : Dev) (l : Fin 32) (hr : keysRising 0 d.regs = true) : d.GoesDown (d.clearLink l) l downFlds := by
  have hup := (Dev.GoesDown.refl (d := d) (l := l)).clear hr (f := F.HL_STAT_UP) (by simp [downFlds]) (by simp)
  have hserv := (hup.letsGo (by simp [downFlds]) (Dev.LetsGo.refl.setLink (k := l.val) (f := fun x => { x with checked := false, check := none, named := false }) fun _ => rfl)).serviceUpdate hr
  have hreqs := hserv.letsGo (by simp [downFlds]) (Dev.LetsGo.refl.foldl [0, 1, 2] fun e p he => he.dropOne p)
  have hasleep := (hreqs.clear hr (f := F.HL_STAT_DN_ASLEEP) (by simp [downFlds]) (by simp [downFlds])).clear hr (f := F.HL_STAT_UP_ASLEEP) (by simp [downFlds]) (by simp [downFlds])
  have hdelay := hasleep.letsGo (by simp [downFlds]) ((Dev.LetsGo.refl.setLink (k := l.val) (f := fun x => { x with samples := [], rejects := 0 }) fun _ => rfl).wr
    (f := F.HL_DELAY_ACCEPTED) (i := l) (v := 0) (delayReg_go l))
  have hlast := hdelay.letsGo (by simp [downFlds]) (Dev.LetsGo.refl.setLink (k := l.val) (f := fun x => { x with
    testStage := 0, rxLock := false, headLocked := false, headDone := false, confirmBad := false, eq := {}, headSeq := none, ack := 0
    beaconDue := false, adjDue := false, adj := [], beacons := [], lastDiscarded := none, lastCrc := none, crcBeats := []
    auth := none, authDue := false, updateDue := false }) fun _ => rfl)
  have hzero : ∀ g ∈ downFlds, g ∈ [F.HL_STAT_UP_ASLEEP, F.HL_STAT_DN_ASLEEP, F.HL_STAT_IN_SERVICE, F.HL_STAT_UP] := by simp [downFlds]
  exact { hlast with zero := fun g hg => hlast.zero g (hzero g hg) }

theorem Dev.rd_wr_beside {d : Dev} {f g : Fld} (h : f.Beside g) (i v : Nat) (hr : keysRising 0 d.regs = true) : (d.wr f i v).rd g i = d.rd g i :=
  Dev.rd_wr_same _ _ _ _ _ h.1 h.2.1 h.2.2 hr

/-- From d on link l is down and trains from a state, at a generation, with an attempt count. -/
structure Dev.Trains (d e : Dev) (l : Fin 32) (state gen attempt : Nat) : Prop where
  changes : d.ChangesOnly e trainParts (trainRegs l)
  good : (e.link l).good = (d.link l).good
  length : e.hl.length = d.hl.length
  up : e.rd F.HL_STAT_UP l = 0
  service : e.rd F.HL_STAT_IN_SERVICE l = 0
  cause : e.rd F.HL_STAT_CAUSE l = d.rd F.HL_STAT_CAUSE l
  state : e.linkState l = state
  gen : e.linkGen l = gen
  attempt : e.rd F.HL_STAT_ATTEMPT l = attempt

theorem Dev.Trains.emit {d e : Dev} {l : Fin 32} {state gen attempt : Nat} (h : d.Trains e l state gen attempt) (o : Out) :
    d.Trains (e.emit o) l state gen attempt :=
  { h with changes := h.changes.setOut (by decide) }

theorem Dev.GoesDown.toDown {d e : Dev} {l : Fin 32} (hc : d.GoesDown e l downFlds) (hr : keysRising 0 d.regs = true) :
    d.Trains (e.wr F.HL_STAT_STATE l 7) l 7 (d.linkGen l) (d.rd F.HL_STAT_ATTEMPT l) := by
  have hrise : keysRising 0 e.regs = true := hc.changes.rising hr
  have hkeep : ∀ g : Fld, F.HL_STAT_STATE.Beside g → (e.wr F.HL_STAT_STATE l 7).rd g l = e.rd g l :=
    fun g h => Dev.rd_wr_beside h _ _ hrise
  refine ⟨hc.changes.wr (statReg_train l), hc.good, hc.length, ?_, ?_, ?_, ?_, ?_, ?_⟩
  · exact (hkeep F.HL_STAT_UP ⟨rfl, by decide, by decide⟩).trans (hc.zero _ (by simp [downFlds]))
  · exact (hkeep F.HL_STAT_IN_SERVICE ⟨rfl, by decide, by decide⟩).trans (hc.zero _ (by simp [downFlds]))
  · exact (hkeep F.HL_STAT_CAUSE ⟨rfl, by decide, by decide⟩).trans (hc.kept _ (by simp [keptFlds]))
  · exact Dev.rd_wr_lt l.val (by decide) (by decide) hrise
  · exact (hkeep F.HL_STAT_GEN ⟨rfl, by decide, by decide⟩).trans (hc.kept _ (by simp [keptFlds]))
  · exact (hkeep F.HL_STAT_ATTEMPT ⟨rfl, by decide, by decide⟩).trans (hc.kept _ (by simp [keptFlds]))

theorem Dev.takeDown_trains (d : Dev) (l : Fin 32) (hr : keysRising 0 d.regs = true) :
    d.Trains (d.takeDown l) l 7 (d.linkGen l) (d.rd F.HL_STAT_ATTEMPT l) :=
  ((Dev.GoesDown.clearLink d l hr).toDown hr).emit _

theorem Dev.GoesDown.toWake {d e : Dev} {l : Fin 32} (hc : d.GoesDown e l downFlds) {state attempt : Nat} (gen : Nat) (b : Bool) (hs : state < 16) (ha : attempt < 4)
    (hr : keysRising 0 d.regs = true) :
    d.Trains ((((e.wr F.HL_STAT_STATE l state).wr F.HL_STAT_GEN l gen).wr F.HL_STAT_ATTEMPT l attempt).wrB F.HL_STAT_FELL_BACK l b) l state (gen % 4) attempt := by
  have r0 : keysRising 0 e.regs = true := hc.changes.rising hr
  have c1 := hc.changes.wr (f := F.HL_STAT_STATE) (v := state) (statReg_train l)
  have c2 := c1.wr (f := F.HL_STAT_GEN) (v := gen) (statReg_train l)
  have c3 := c2.wr (f := F.HL_STAT_ATTEMPT) (v := attempt) (statReg_train l)
  have r1 := c1.rising hr
  have r2 := c2.rising hr
  have r3 := c3.rising hr
  have hkeep : ∀ g : Fld, F.HL_STAT_STATE.Beside g → F.HL_STAT_GEN.Beside g → F.HL_STAT_ATTEMPT.Beside g → F.HL_STAT_FELL_BACK.Beside g →
      ((((e.wr F.HL_STAT_STATE l state).wr F.HL_STAT_GEN l gen).wr F.HL_STAT_ATTEMPT l attempt).wrB F.HL_STAT_FELL_BACK l b).rd g l = e.rd g l := by
    intro g hs hg ha hf
    rw [Dev.wrB, Dev.rd_wr_beside hf _ _ r3, Dev.rd_wr_beside ha _ _ r2, Dev.rd_wr_beside hg _ _ r1, Dev.rd_wr_beside hs _ _ r0]
  refine ⟨c3.wrB (statReg_train l), hc.good, hc.length, ?_, ?_, ?_, ?_, ?_, ?_⟩
  · exact (hkeep F.HL_STAT_UP ⟨rfl, by decide, by decide⟩ ⟨rfl, by decide, by decide⟩ ⟨rfl, by decide, by decide⟩ ⟨rfl, by decide, by decide⟩).trans
      (hc.zero _ (by simp [downFlds]))
  · exact (hkeep F.HL_STAT_IN_SERVICE ⟨rfl, by decide, by decide⟩ ⟨rfl, by decide, by decide⟩ ⟨rfl, by decide, by decide⟩ ⟨rfl, by decide, by decide⟩).trans
      (hc.zero _ (by simp [downFlds]))
  · exact (hkeep F.HL_STAT_CAUSE ⟨rfl, by decide, by decide⟩ ⟨rfl, by decide, by decide⟩ ⟨rfl, by decide, by decide⟩ ⟨rfl, by decide, by decide⟩).trans
      (hc.kept _ (by simp [keptFlds]))
  · rw [Dev.linkState, Dev.wrB, Dev.rd_wr_beside (f := F.HL_STAT_FELL_BACK) (g := F.HL_STAT_STATE) ⟨rfl, by decide, by decide⟩ _ _ r3,
      Dev.rd_wr_beside (f := F.HL_STAT_ATTEMPT) (g := F.HL_STAT_STATE) ⟨rfl, by decide, by decide⟩ _ _ r2,
      Dev.rd_wr_beside (f := F.HL_STAT_GEN) (g := F.HL_STAT_STATE) ⟨rfl, by decide, by decide⟩ _ _ r1]
    exact Dev.rd_wr_lt _ hs (by decide) r0
  · rw [Dev.linkGen, Dev.wrB, Dev.rd_wr_beside (f := F.HL_STAT_FELL_BACK) (g := F.HL_STAT_GEN) ⟨rfl, by decide, by decide⟩ _ _ r3,
      Dev.rd_wr_beside (f := F.HL_STAT_ATTEMPT) (g := F.HL_STAT_GEN) ⟨rfl, by decide, by decide⟩ _ _ r2]
    exact Dev.rd_wr_self _ _ _ _ (by decide) r1
  · rw [Dev.wrB, Dev.rd_wr_beside (f := F.HL_STAT_FELL_BACK) (g := F.HL_STAT_ATTEMPT) ⟨rfl, by decide, by decide⟩ _ _ r3]
    exact Dev.rd_wr_lt _ ha (by decide) r2

theorem Dev.wakeLink_trains (d : Dev) (l : Fin 32) {state attempt : Nat} (gen : Nat) (hs : state < 16) (ha : attempt < 4) (hr : keysRising 0 d.regs = true) :
    d.Trains (d.wakeLink l state gen attempt) l state (gen % 4) attempt :=
  ((Dev.GoesDown.clearLink d l hr).toWake gen _ hs ha hr).emit _

theorem Dev.linkGen_lt (d : Dev) (l : Nat) : d.linkGen l < 4 := Dev.rd_lt d F.HL_STAT_GEN l

theorem Dev.rd_raise_stat (d : Dev) (t : Dest) (code : Nat) (p : List (Nat × Nat)) (f : Fld) (l : Fin 32) (hf : f.reg = R.HL_STAT) :
    (d.raise t code p).rd f l = d.rd f l := by
  have h : ∀ l : Fin 32, R.HL_STAT.addr l ≠ R.SYS_FAULT_STAT.addr 0 := by decide
  exact Dev.rd_raise_ne _ _ _ _ _ _ (by rw [hf]; exact h l)

theorem Dev.Trains.raise {d e : Dev} {l : Fin 32} {state gen attempt : Nat} (h : d.Trains e l state gen attempt) (t : Dest) {code : Nat} (p : List (Nat × Nat))
    (hc : code ∉ summaryCodes) : d.Trains (e.raise t code p) l state gen attempt where
  changes := h.changes.raise (by decide) (.inl hc)
  good := by rw [Dev.link, Dev.raise_hl]; exact h.good
  length := by rw [Dev.raise_hl]; exact h.length
  up := (Dev.rd_raise_stat _ _ _ _ F.HL_STAT_UP l rfl).trans h.up
  service := (Dev.rd_raise_stat _ _ _ _ F.HL_STAT_IN_SERVICE l rfl).trans h.service
  cause := (Dev.rd_raise_stat _ _ _ _ F.HL_STAT_CAUSE l rfl).trans h.cause
  state := (Dev.rd_raise_stat _ _ _ _ F.HL_STAT_STATE l rfl).trans h.state
  gen := (Dev.rd_raise_stat _ _ _ _ F.HL_STAT_GEN l rfl).trans h.gen
  attempt := (Dev.rd_raise_stat _ _ _ _ F.HL_STAT_ATTEMPT l rfl).trans h.attempt

/-- The event that an attempt's end posts reads the same words from the state before. -/
theorem Dev.ChangesOnly.event_train {d e : Dev} {ps : List Part} {l : Fin 32} (h : d.ChangesOnly e ps (trainRegs l)) (hp : Part.pat ∉ ps) (t : Dest) (code : Nat) (p : List (Nat × Nat)) :
    e.event t code p = d.event t code p := h.event hp (trainRegs_apart l).1 t code p

theorem Dev.mem_raise (d : Dev) (t : Dest) (code : Nat) (p : List (Nat × Nat)) : d.event t code p ∈ (d.raise t code p).raised := by
  rw [Dev.raise_raised]
  exact List.mem_append_right _ List.mem_cons_self

/-- From d on an attempt to train link l has failed with a cause (R205). -/
theorem Dev.attemptFails_failed (d : Dev) (l : Fin 32) {cause : Nat} (hst : d.linkState l ≠ 8) (hc : cause < 16) (hr : keysRising 0 d.regs = true) :
    d.ChangesOnly (d.attemptFails l cause) trainParts (trainRegs l) ∧ d.AttemptFailed (d.attemptFails l cause) l cause := by
  have hw : d.ChangesOnly (d.wr F.HL_STAT_CAUSE l cause) trainParts (trainRegs l) := Dev.ChangesOnly.keep.wr (statReg_train l)
  have hr0 := hw.rising hr
  have hcause : (d.wr F.HL_STAT_CAUSE l cause).rd F.HL_STAT_CAUSE l = cause := Dev.rd_wr_lt _ hc (by decide) hr
  have hg : (d.wr F.HL_STAT_CAUSE l cause).linkGen l = d.linkGen l :=
    Dev.rd_wr_beside (f := F.HL_STAT_CAUSE) (g := F.HL_STAT_GEN) ⟨rfl, by decide, by decide⟩ _ _ hr
  have ha : (d.wr F.HL_STAT_CAUSE l cause).rd F.HL_STAT_ATTEMPT l = d.rd F.HL_STAT_ATTEMPT l :=
    Dev.rd_wr_beside (f := F.HL_STAT_CAUSE) (g := F.HL_STAT_ATTEMPT) ⟨rfl, by decide, by decide⟩ _ _ hr
  have hgen : d.linkGen l < 4 := d.linkGen_lt l
  have hev : ∀ e, (d.wr F.HL_STAT_CAUSE l cause).ChangesOnly e trainParts (trainRegs l) → ∀ t code p, e.event t code p = d.event t code p :=
    fun e he t code p => (hw.trans he).event_train (by decide) t code p
  generalize hx : d.wr F.HL_STAT_CAUSE l cause = x at hw hr0 hcause hg ha hev
  have hsec : x.linkSec l = d.linkSec l := by rw [← hx]; rfl
  unfold Dev.attemptFails Dev.AttemptFailed
  simp only [hst, if_false, hx, hg, ha, hsec]
  by_cases h3 : d.rd F.HL_STAT_ATTEMPT l < 3
  · have ht := x.wakeLink_trains l (state := 1) (attempt := d.rd F.HL_STAT_ATTEMPT l + 1) (d.linkGen l) (by decide) (by omega) hr0
    simp only [h3, if_true]
    exact ⟨hw.trans ht.changes, ht.cause.trans hcause, ht.up, ht.service, ht.state, ht.attempt, ht.gen.trans (Nat.mod_eq_of_lt hgen)⟩
  · simp only [h3, if_false]
    by_cases hm : (d.linkSec l).genMin < d.linkGen l
    · have hwake := x.wakeLink_trains l (state := 1) (attempt := 1) (d.linkGen l - 1) (by decide) (by decide) hr0
      have ht := hwake.raise .secure (code := 0x0B02) [(1, l), (2, d.linkGen l), (2, d.linkGen l - 1)] (by decide)
      simp only [hm, if_true]
      refine ⟨hw.trans ht.changes, ht.cause.trans hcause, ht.up, ht.service, ht.state, ht.attempt, ht.gen.trans (Nat.mod_eq_of_lt (by omega)), ?_⟩
      rw [← hev _ hwake.changes]
      exact Dev.mem_raise _ _ _ _
    · have hdown := x.takeDown_trains l hr0
      have ht := hdown.raise .secure (code := 0x0B03) [(1, l), (1, cause)] (by decide)
      simp only [hm, if_false]
      refine ⟨hw.trans ht.changes, ht.cause.trans hcause, ht.up, ht.service, ht.state, ?_⟩
      rw [← hev _ hdown.changes]
      exact Dev.mem_raise _ _ _ _

/-- Putting the events of a command in order leaves the failed attempt. -/
theorem Dev.AttemptFailed.ordered {d e : Dev} {l : Fin 32} {cause : Nat} (h : d.AttemptFailed e l cause) (n : Nat) :
    d.AttemptFailed (e.orderEvents n) l cause := by
  have hrd : ∀ f : Fld, ∀ i, (e.orderEvents n).rd f i = e.rd f i := fun f i => Dev.rd_congr f i rfl
  have hm : ∀ x, x ∈ (e.orderEvents n).raised ↔ x ∈ e.raised := fun x => Dev.mem_orderEvents
  unfold Dev.AttemptFailed at *
  simp only [Dev.linkState, Dev.linkGen, hrd, hm] at *
  exact h

theorem findReg_HL_CFG (l : Fin 32) : findReg (R.HL_CFG.addr l) regTable = some ⟨⟨R.HL_CFG,
    [F.HL_CFG_RETRAIN, F.HL_CFG_TEST, F.HL_CFG_DN_SLEEP_EN, F.HL_CFG_UP_SLEEP_EN, F.HL_CFG_DN_SLEEP_BEATS]⟩, l, false⟩ := by
  have h : ∀ l : Fin 32, ∀ row ∈ regTable.take 100, R.HL_CFG.addr l < row.reg.base ∨ row.reg.top < R.HL_CFG.addr l := by decide +kernel
  rw [findReg_drop 100 (h l)]
  fin_cases l <;> rfl

/-- HL_CFG as a write leaves it: TEST takes its bit in DOWN and TEST alone (R204). -/
def Dev.cfgStored (d : Dev) (l : Fin 32) (val mask : Nat) : Dev :=
  if d.linkState l = 7 ∨ d.linkState l = 8 then d.store R.HL_CFG l val mask else (d.store R.HL_CFG l val mask).wrB F.HL_CFG_TEST l (d.on F.HL_CFG_TEST l)

theorem Dev.cfgStored_changes (d : Dev) (l : Fin 32) (val mask : Nat) : d.ChangesOnly (d.cfgStored l val mask) [] [R.HL_CFG.addr l] := by
  have hs : d.ChangesOnly (d.store R.HL_CFG l val mask) [] [R.HL_CFG.addr l] := .store .keep (findReg_HL_CFG l) List.mem_cons_self
  exact .ite hs (hs.wrB List.mem_cons_self)

theorem Dev.cfgStored_stat (d : Dev) (l : Fin 32) (val mask : Nat) (f : Fld) (hf : f.reg = R.HL_STAT) : (d.cfgStored l val mask).rd f l = d.rd f l := by
  have h : ∀ l : Fin 32, R.HL_STAT.addr l ∉ [R.HL_CFG.addr l] := by decide
  exact (d.cfgStored_changes l val mask).rd (by rw [hf]; exact h l)

theorem Dev.rd_of_on (d : Dev) {f : Fld} (hw : f.w = 1) (i : Nat) : (if d.on f i = true then 1 else 0) = d.rd f i := by
  have h := d.rd_lt f i
  rw [hw] at h
  unfold Dev.on
  rcases Nat.lt_succ_iff_lt_or_eq.mp h with h0 | h1
  · have : d.rd f i = 0 := by omega
    simp [this]
  · simp [h1]

/-- TEST of a write takes its bit in DOWN and TEST, and is kept elsewhere or where the write leaves it out. -/
theorem Dev.cfgStored_test_taken {d : Dev} {l : Fin 32} (h : d.linkState l = 7 ∨ d.linkState l = 8) (hr : keysRising 0 d.regs = true) (val : Nat) :
    (d.cfgStored l val 2).rd F.HL_CFG_TEST l = fieldOf 1 1 val := by
  rw [Dev.cfgStored, if_pos h]
  exact Dev.rd_store_any (f := F.HL_CFG_TEST) (findReg_HL_CFG l) (by simp) hr rfl rfl (by decide)

theorem Dev.cfgStored_test_kept {d : Dev} {l : Fin 32} (h : (d.linkState l ≠ 7 ∧ d.linkState l ≠ 8)) (hr : keysRising 0 d.regs = true) (val mask : Nat) :
    (d.cfgStored l val mask).rd F.HL_CFG_TEST l = d.rd F.HL_CFG_TEST l := by
  have hs : d.ChangesOnly (d.store R.HL_CFG l val mask) [] [R.HL_CFG.addr l] := .store .keep (findReg_HL_CFG l) List.mem_cons_self
  rw [Dev.cfgStored, if_neg (by omega)]
  exact (Dev.rd_wrB_self _ _ _ _ (by decide) (by decide) (hs.rising hr)).trans (d.rd_of_on rfl _)

theorem Dev.cfgStored_retrain (d : Dev) (l : Fin 32) (hr : keysRising 0 d.regs = true) :
    (d.cfgStored l 1 1).rd F.HL_CFG_TEST l = d.rd F.HL_CFG_TEST l := by
  by_cases h : d.linkState l = 7 ∨ d.linkState l = 8
  · rw [Dev.cfgStored, if_pos h]
    exact Dev.rd_store_beside (f := F.HL_CFG_TEST) (findReg_HL_CFG l) (by simp) hr rfl (by decide)
  · exact Dev.cfgStored_test_kept (by omega) hr _ _

/-- What a write of HL_CFG starts: the wake of TEST, or DOWN as TEST ends (R204). -/
def Dev.testStarts (d : Dev) (l : Fin 32) (s : Nat) : Dev :=
  if s = 7 ∧ d.on F.HL_CFG_TEST l then d.wakeLink l 8 (d.linkSec l).genMax 1
  else if s = 8 ∧ !d.on F.HL_CFG_TEST l then d.takeDown l else d

/-- RETRAIN forgets the known taps and wakes the link (R204). -/
def Dev.relearns (d : Dev) (l : Fin 32) : Dev := (d.setLink l fun x => { x with good := [] }).wakeLink l 1 (d.linkSec l).genMax 1

theorem Dev.wHlCfg_eq (d : Dev) (l : Fin 32) (val mask : Nat) : d.wHlCfg l val mask =
    let e := (d.cfgStored l val mask).testStarts l (d.linkState l)
    if (Nat.land val mask).testBit 0 ∧ e.sys.done ∧ (e.linkState l = 5 ∨ e.linkState l = 7) then e.relearns l else e := rfl

theorem Dev.testStarts_idle {d : Dev} {l : Fin 32} {s : Nat} (h7 : s = 7 → d.rd F.HL_CFG_TEST l = 0) (h8 : s = 8 → d.rd F.HL_CFG_TEST l = 1) :
    d.testStarts l s = d := by
  have hoff : s = 7 → d.on F.HL_CFG_TEST l = false := fun h => Dev.on_of_zero (h7 h)
  have hon : s = 8 → d.on F.HL_CFG_TEST l = true := fun h => by rw [Dev.on, h8 h]; decide
  unfold Dev.testStarts
  rw [if_neg (by rintro ⟨h, hn⟩; rw [hoff h] at hn; exact Bool.false_ne_true hn), if_neg (by rintro ⟨h, hn⟩; rw [hon h] at hn; exact Bool.false_ne_true hn)]

theorem Dev.testStarts_wakes {d : Dev} {l : Fin 32} {s : Nat} (hs : s = 7) (ht : d.rd F.HL_CFG_TEST l = 1) :
    d.testStarts l s = d.wakeLink l 8 (d.linkSec l).genMax 1 :=
  if_pos ⟨hs, by rw [Dev.on, ht]; decide⟩

theorem Dev.testStarts_ends {d : Dev} {l : Fin 32} {s : Nat} (hs : s = 8) (ht : d.rd F.HL_CFG_TEST l = 0) : d.testStarts l s = d.takeDown l :=
  (if_neg fun ⟨h, _⟩ => absurd (hs.symm.trans h) (by decide)).trans (if_pos ⟨hs, by rw [Dev.on_of_zero ht]; decide⟩)

/-- A write without RETRAIN does what TEST asks. -/
theorem Dev.wHlCfg_noRetrain (d : Dev) (l : Fin 32) {val mask : Nat} (h : (Nat.land val mask).testBit 0 = false) :
    d.wHlCfg l val mask = (d.cfgStored l val mask).testStarts l (d.linkState l) := by
  rw [Dev.wHlCfg_eq]
  exact if_neg fun ⟨hb, _⟩ => absurd (h.symm.trans hb) (by decide)

theorem Dev.relearns_trains (d : Dev) (l : Fin 32) (hr : keysRising 0 d.regs = true) (hl : l < d.hl.length) :
    d.ChangesOnly (d.relearns l) trainParts (trainRegs l) ∧ (d.relearns l).linkState l = 1 ∧ (d.relearns l).linkGen l = (d.linkSec l).genMax % 4 ∧
      (d.relearns l).rd F.HL_STAT_ATTEMPT l = 1 ∧ ((d.relearns l).link l).good = [] := by
  have hset : d.ChangesOnly (d.setLink l fun x => { x with good := [] }) trainParts (trainRegs l) := .setHl .keep (by decide)
  have ht := Dev.wakeLink_trains (d.setLink l fun x => { x with good := [] }) l (state := 1) (attempt := 1) (d.linkSec l).genMax (by decide) (by decide) hr
  exact ⟨hset.trans ht.changes, ht.state, ht.gen, ht.attempt, ht.good.trans (by rw [Dev.link_setLink _ hl])⟩

/-- RETRAIN after cast-on, of an ACTIVE or DOWN link (R204). -/
theorem Dev.wHlCfg_retrain {d : Dev} {l : Fin 32} (hr : keysRising 0 d.regs = true) (hl : l < d.hl.length) (hdone : d.sys.done = true) (ht : d.rd F.HL_CFG_TEST l = 0)
    (hs : d.linkState l = 5 ∨ d.linkState l = 7) :
    let u := d.wHlCfg l 1 1
    d.ChangesOnly u trainParts (R.HL_CFG.addr l :: trainRegs l) ∧ u.linkState l = 1 ∧ u.linkGen l = (d.linkSec l).genMax % 4 ∧
      u.rd F.HL_STAT_ATTEMPT l = 1 ∧ (u.link l).good = [] := by
  intro u
  have hc := d.cfgStored_changes l 1 1
  have hidle : (d.cfgStored l 1 1).testStarts l (d.linkState l) = d.cfgStored l 1 1 :=
    Dev.testStarts_idle (fun _ => (d.cfgStored_retrain l hr).trans ht) (by omega)
  have hstate : (d.cfgStored l 1 1).linkState l = d.linkState l := d.cfgStored_stat l 1 1 _ rfl
  have hsys : (d.cfgStored l 1 1).sys = d.sys := hc.parts .sys List.not_mem_nil
  have hpat : (d.cfgStored l 1 1).pat = d.pat := hc.parts .pat List.not_mem_nil
  have hhl : (d.cfgStored l 1 1).hl = d.hl := hc.parts .hl List.not_mem_nil
  have hu : u = (d.cfgStored l 1 1).relearns l := by
    show d.wHlCfg l 1 1 = _
    rw [Dev.wHlCfg_eq, hidle]
    exact if_pos ⟨rfl, by rw [hsys]; exact hdone, by rw [hstate]; exact hs⟩
  obtain ⟨hch, h1, h2, h3, h4⟩ := (d.cfgStored l 1 1).relearns_trains l (hc.rising hr) (by rw [hhl]; exact hl)
  rw [hu]
  refine ⟨(hc.mono (by simp) (by simp)).trans (hch.mono (fun _ => id) fun _ => List.mem_cons_of_mem _), h1, ?_, h3, h4⟩
  rw [h2, Dev.linkSec, Dev.linkSec, hpat]

/-- A write of HL_CFG that starts nothing. -/
theorem Dev.wHlCfg_idle {d : Dev} {l : Fin 32} {val mask : Nat} (h7 : d.linkState l = 7 → (d.cfgStored l val mask).rd F.HL_CFG_TEST l = 0)
    (h8 : d.linkState l = 8 → (d.cfgStored l val mask).rd F.HL_CFG_TEST l = 1)
    (hretrain : (Nat.land val mask).testBit 0 = true → d.sys.done = true → ¬ (d.linkState l = 5 ∨ d.linkState l = 7)) : d.wHlCfg l val mask = d.cfgStored l val mask := by
  have hc := d.cfgStored_changes l val mask
  have hidle : (d.cfgStored l val mask).testStarts l (d.linkState l) = d.cfgStored l val mask := Dev.testStarts_idle h7 h8
  have hstate : (d.cfgStored l val mask).linkState l = d.linkState l := d.cfgStored_stat l val mask _ rfl
  have hsys : (d.cfgStored l val mask).sys = d.sys := hc.parts .sys List.not_mem_nil
  rw [Dev.wHlCfg_eq, hidle]
  refine if_neg ?_
  rw [hsys, hstate]
  exact fun ⟨hb, hdone, hs⟩ => hretrain hb hdone hs

theorem cfgReg_not_train (l : Fin 32) : R.HL_CFG.addr l ∉ trainRegs l := by
  have h : ∀ l : Fin 32, R.HL_CFG.addr l ∉ trainRegs l := by decide
  exact h l

/-- Setting TEST of a DOWN link wakes it in TEST (R204). -/
theorem Dev.wHlCfg_test {d : Dev} {l : Fin 32} (hr : keysRising 0 d.regs = true) (hs : d.linkState l = 7) :
    let u := d.wHlCfg l 2 2
    d.ChangesOnly u trainParts (R.HL_CFG.addr l :: trainRegs l) ∧ u.linkState l = 8 ∧ u.linkGen l = (d.linkSec l).genMax % 4 ∧ u.rd F.HL_CFG_TEST l = 1 := by
  intro u
  have hc := d.cfgStored_changes l 2 2
  have htest : (d.cfgStored l 2 2).rd F.HL_CFG_TEST l = 1 := Dev.cfgStored_test_taken (.inl hs) hr 2
  have hpat : (d.cfgStored l 2 2).pat = d.pat := hc.parts .pat List.not_mem_nil
  have hu : u = (d.cfgStored l 2 2).wakeLink l 8 ((d.cfgStored l 2 2).linkSec l).genMax 1 :=
    (d.wHlCfg_noRetrain l (by decide)).trans (Dev.testStarts_wakes hs htest)
  have ht := (d.cfgStored l 2 2).wakeLink_trains l (state := 8) (attempt := 1) ((d.cfgStored l 2 2).linkSec l).genMax (by decide) (by decide) (hc.rising hr)
  rw [hu]
  refine ⟨(hc.mono (by simp) (by simp)).trans (ht.changes.mono (fun _ => id) fun _ => List.mem_cons_of_mem _), ht.state, ht.gen.trans ?_, ?_⟩
  · rw [Dev.linkSec, Dev.linkSec, hpat]
  · exact (ht.changes.rd (cfgReg_not_train l)).trans htest

/-- Clearing TEST of a link in TEST takes it DOWN (R204). -/
theorem Dev.wHlCfg_testEnds {d : Dev} {l : Fin 32} (hr : keysRising 0 d.regs = true) (hs : d.linkState l = 8) :
    let u := d.wHlCfg l 0 2
    d.ChangesOnly u trainParts (R.HL_CFG.addr l :: trainRegs l) ∧ u.linkState l = 7 ∧ u.rd F.HL_CFG_TEST l = 0 := by
  intro u
  have hc := d.cfgStored_changes l 0 2
  have htest : (d.cfgStored l 0 2).rd F.HL_CFG_TEST l = 0 := Dev.cfgStored_test_taken (.inr hs) hr 0
  have hu : u = (d.cfgStored l 0 2).takeDown l := (d.wHlCfg_noRetrain l (by decide)).trans (Dev.testStarts_ends hs htest)
  have ht := (d.cfgStored l 0 2).takeDown_trains l (hc.rising hr)
  rw [hu]
  exact ⟨(hc.mono (by simp) (by simp)).trans (ht.changes.mono (fun _ => id) fun _ => List.mem_cons_of_mem _), ht.state,
    (ht.changes.rd (cfgReg_not_train l)).trans htest⟩

/-- Settles O38: a write of HL_CFG stores TEST by the link's state and starts a wake or DOWN; the sleep commands write HL_STAT and the link. -/
theorem linkWritesAndSleep : Obligations.LinkWritesAndSleep := by
  unfold Obligations.LinkWritesAndSleep
  refine ⟨?_, ?_⟩
  · intro m l s hinv htakes
    have hrise : keysRising 0 (s.dev.touch m).regs = true := Dev.touch_rising m hinv.regs
    have hrd : ∀ f : Fld, ∀ i, (s.dev.touch m).rd f i = s.dev.rd f i := fun f i => Dev.rd_touch m s.dev f i
    have hst : (s.dev.touch m).linkState l = s.dev.linkState l := hrd _ _
    have hdone : (s.dev.touch m).sys.done = s.dev.sys.done := by rw [Dev.touch_eq]
    have hsec : (s.dev.touch m).linkSec l = s.dev.linkSec l := by rw [Dev.touch_eq]; rfl
    have hl : l.val < (s.dev.touch m).hl.length := by rw [Dev.touch_eq]; exact hinv.links.symm ▸ l.isLt
    refine ⟨?_, ?_, ?_, ?_, ?_, ?_⟩
    · intro hd ht hs
      obtain ⟨hc, h1, h2, h3, h4⟩ := Dev.wHlCfg_retrain hrise hl (hdone.trans hd) ((hrd _ _).trans ht) (by rwa [hst])
      exact ⟨_, .writes _ rfl htakes rfl hc.after_touch, h1, h2.trans (by rw [hsec]), h3, h4⟩
    · intro hs
      have htest : ((s.dev.touch m).cfgStored l 1 1).rd F.HL_CFG_TEST l = s.dev.rd F.HL_CFG_TEST l := (Dev.cfgStored_retrain _ _ hrise).trans (hrd _ _)
      have hidle : (s.dev.touch m).wHlCfg l 1 1 = (s.dev.touch m).cfgStored l 1 1 := by
        refine Dev.wHlCfg_idle ?_ ?_ ?_ <;> simp only [hst, htest, hdone]
        · rcases hs with ⟨h7, -, -⟩ | ⟨h8, -⟩ | ⟨-, ht, -⟩ <;> omega
        · rcases hs with ⟨-, h8, -⟩ | ⟨-, ht⟩ | ⟨h7, -, -⟩ <;> omega
        · rintro - hd
          rcases hs with ⟨h7, -, h5 | hno⟩ | ⟨h8, -⟩ | ⟨-, -, hno⟩
          · omega
          · exact absurd (hd.symm.trans hno) (by decide)
          · omega
          · exact absurd (hd.symm.trans hno) (by decide)
      exact ⟨_, .writes _ rfl htakes hidle (Dev.cfgStored_changes _ l 1 1).after_touch⟩
    · intro hs
      obtain ⟨hc, h1, h2, h3⟩ := Dev.wHlCfg_test hrise (hst.trans hs)
      exact ⟨_, .writes _ rfl htakes rfl hc.after_touch, h1, h2.trans (by rw [hsec]), h3⟩
    · intro hs
      obtain ⟨hc, h1, h2⟩ := Dev.wHlCfg_testEnds hrise (hst.trans hs)
      exact ⟨_, .writes _ rfl htakes rfl hc.after_touch, h1, h2⟩
    · intro en h7 h8
      have hidle : ∀ v, (s.dev.touch m).wHlCfg l v 2 = (s.dev.touch m).cfgStored l v 2 := by
        refine fun v => Dev.wHlCfg_idle ?_ ?_ ?_
        · rw [hst]; exact fun h => absurd h h7
        · rw [hst]; exact fun h => absurd h h8
        · have hbit : (Nat.land v 2).testBit 0 = false := by
            change (v &&& 2).testBit 0 = false
            simp
          exact fun h => absurd (hbit.symm.trans h) (by decide)
      exact ⟨_, .writes _ rfl htakes (hidle _) (Dev.cfgStored_changes _ l _ 2).after_touch,
        (Dev.cfgStored_test_kept ⟨hst ▸ h7, hst ▸ h8⟩ hrise _ _).trans (hrd _ _)⟩
    · intro en hs
      have htaken : ∀ v, ((s.dev.touch m).cfgStored l v 2).rd F.HL_CFG_TEST l = fieldOf 1 1 v :=
        Dev.cfgStored_test_taken (by rw [hst, hs]; cases en <;> decide) hrise
      cases en with
      | true =>
        have hidle : (s.dev.touch m).wHlCfg l 2 2 = (s.dev.touch m).cfgStored l 2 2 :=
          Dev.wHlCfg_idle (fun h => absurd (hs.symm.trans (hst.symm.trans h)) (by decide)) (fun _ => htaken 2) fun h => absurd h (by decide)
        exact ⟨_, .writes _ rfl htakes hidle (Dev.cfgStored_changes _ l _ 2).after_touch, htaken 2⟩
      | false =>
        have hidle : (s.dev.touch m).wHlCfg l 0 2 = (s.dev.touch m).cfgStored l 0 2 :=
          Dev.wHlCfg_idle (fun _ => htaken 0) (fun h => absurd (hs.symm.trans (hst.symm.trans h)) (by decide)) fun h => absurd h (by decide)
        exact ⟨_, .writes _ rfl htakes hidle (Dev.cfgStored_changes _ l _ 2).after_touch, htaken 0⟩
  · intro l s hinv
    have hself : ∀ {f : Fld} (b : Bool), f.lo + f.w ≤ 64 → 0 < f.w → (s.dev.wrB f l b).rd f l = if b then 1 else 0 :=
      fun b hf hw => Dev.rd_wrB_self _ _ _ b hf hw hinv.regs
    refine ⟨?_, ?_, ?_, ?_, ?_, ?_⟩
    · intro hs hen hawake hpage hframe hbeats
      have hgoes : s.dev.dnSleep l =
          ((s.dev.wrB F.HL_STAT_DN_ASLEEP l true).setLink l fun x => { x with beaconDue := false }).emit (.signal l .sleep) :=
        if_pos ⟨hs, by rw [Dev.on, hen]; decide, by rw [Dev.on_of_zero hawake]; rfl, by rw [hpage]; rfl, by rw [hframe]; rfl, hbeats⟩
      refine ⟨_, .act _ rfl hgoes (((Dev.ChangesOnly.keep.wrB List.mem_cons_self).setHl (by decide)).setOut (by decide)), hself (f := F.HL_STAT_DN_ASLEEP) true (by decide) (by decide),
        ?_, rfl, Dev.setLink_hl_set ..⟩
      exact (Dev.rd_wr_beside (f := F.HL_STAT_DN_ASLEEP) (g := F.HL_STAT_STATE) ⟨rfl, by decide, by decide⟩ _ _ hinv.regs).trans hs
    · intro hno
      refine .act _ rfl (if_neg ?_)
      rintro ⟨hs, hen, hawake, hpage, hframe, hbeats⟩
      rcases hno with h | h | h | h | h | h
      · exact h hs
      · exact absurd ((Dev.on_of_zero h).symm.trans hen) (by decide)
      · rw [Dev.on, h] at hawake; exact absurd hawake (by decide)
      · rw [h] at hpage; exact absurd hpage (by decide)
      · rw [h] at hframe; exact absurd hframe (by decide)
      · omega
    · intro hasleep
      have hwakes : s.dev.dnWake l =
          ((s.dev.wrB F.HL_STAT_DN_ASLEEP l false).setLink l fun x => { x with beaconDue := true }).emit (.signal l .wake) :=
        if_pos (by rw [Dev.on, hasleep]; decide)
      exact ⟨_, .act _ rfl hwakes (((Dev.ChangesOnly.keep.wrB List.mem_cons_self).setHl (by decide)).setOut (by decide)), hself (f := F.HL_STAT_DN_ASLEEP) false (by decide) (by decide),
        Dev.setLink_hl_set .., rfl⟩
    · intro hawake
      exact .act _ rfl (if_neg (by rw [Dev.on_of_zero hawake]; decide))
    · intro hs
      exact ⟨_, .act _ rfl (if_pos hs) ((Dev.ChangesOnly.keep.wrB List.mem_cons_self).setHl (by decide)), hself (f := F.HL_STAT_UP_ASLEEP) true (by decide) (by decide), Dev.setLink_hl_set ..⟩
    · intro hs
      exact .act _ rfl (if_neg hs)

theorem tapsReg_apart (l : Fin 32) : R.HL_TAPS.addr l ≠ R.HL_STAT.addr l ∧ R.HL_TAPS.addr l ≠ R.HL_GLOBAL_CFG.addr 0 ∧ ∀ a ∈ eventRegs, a ≠ R.HL_TAPS.addr l := by
  have h : ∀ l : Fin 32, R.HL_TAPS.addr l ≠ R.HL_STAT.addr l ∧ R.HL_TAPS.addr l ≠ R.HL_GLOBAL_CFG.addr 0 ∧ ∀ a ∈ eventRegs, a ≠ R.HL_TAPS.addr l := by decide
  exact h l

/-- What a step of equalisation may change (R203). -/
def eqParts : List Part := [.hl, .out]

/-! ### The walk of equalisation (R203) -/

section
variable {d e : Dev} {l : Fin 32} {rs : List Nat}

theorem Dev.ChangesOnly.eqRequest (h : d.ChangesOnly e eqParts rs) (req : Nat) (f : EqSt → EqSt) : d.ChangesOnly (e.eqRequest l req f) eqParts rs :=
  (h.setHl (by decide)).setOut (by decide)

theorem Dev.ChangesOnly.tryConfirm (h : d.ChangesOnly e eqParts rs) (hr : R.HL_STAT.addr l ∈ rs) : d.ChangesOnly (e.tryConfirm l) eqParts rs :=
  .ite (.ite (((h.wr hr).setHl (by decide)).setOut (by decide)) (.ite (((h.setHl (by decide)).setOut (by decide)).setOut (by decide)) h)) h

theorem Dev.ChangesOnly.nextTap (h : d.ChangesOnly e eqParts rs) (hr : R.HL_STAT.addr l ∈ rs) (best : Nat) : d.ChangesOnly (e.nextTap l best) eqParts rs :=
  .ite (.tryConfirm ((h.setHl (by decide)).setOut (by decide)) hr) (.eqRequest h _ _)

end

/-- What an eye measurement asks for next, by the walk's direction (R203, log entry 74). -/
def Dev.walks (d : Dev) (l : Fin 32) (eye : Nat) (e : EqSt) : Dev :=
  let wider := decide (e.best < eye) && !e.limited
  let ask := fun (d : Dev) (r : Nat) (dir : EqDir) (best : Nat) => d.eqRequest l (tapReq e.tap r) fun e => { e with dir := dir, best := best }
  match e.dir with
  | .base => ask d 1 .upFirst eye
  | .upFirst => if wider then ask d 1 .up eye else if e.limited then ask d 2 .downFirst e.best else ask d 2 .undo e.best
  | .up => if wider then ask d 1 .up eye else if e.limited then d.nextTap l e.best else ask d 2 .back e.best
  | .undo => ask d 2 .downFirst e.best
  | .downFirst | .down =>
    if wider then ask d 2 .down eye else if e.limited then d.nextTap l e.best else ask d 1 .back e.best
  | .back => d.nextTap l e.best

theorem Dev.walks_changes (d : Dev) (l : Fin 32) (eye : Nat) (e : EqSt) : d.ChangesOnly (d.walks l eye e) eqParts [R.HL_STAT.addr l] := by
  have hnext : d.ChangesOnly (d.nextTap l e.best) eqParts [R.HL_STAT.addr l] := .nextTap .keep List.mem_cons_self _
  have hask : ∀ req f, d.ChangesOnly (d.eqRequest l req f) eqParts [R.HL_STAT.addr l] := fun req f => .eqRequest .keep req f
  unfold Dev.walks
  dsimp only
  split
  · exact hask _ _
  · exact .ite (hask _ _) (.ite (hask _ _) (hask _ _))
  · exact .ite (hask _ _) (.ite hnext (hask _ _))
  · exact hask _ _
  · exact .ite (hask _ _) (.ite hnext (hask _ _))
  · exact .ite (hask _ _) (.ite hnext (hask _ _))
  · exact hnext

theorem Dev.eqDwell_eq (d : Dev) (l : Fin 32) (eye : Nat) : d.eqDwell l eye =
    let e := (d.link l).eq
    if ¬ (d.linkState l = 3 ∨ (d.linkState l = 8 ∧ (d.link l).testStage = 2)) ∨ e.req.isSome ∨ e.tap = 3 then d
    else (d.wr F.HL_TAPS_EYE l eye).walks l eye e := rfl

theorem Dev.AttemptFailed.of_changes {d x u : Dev} {l : Fin 32} {cause : Nat} (h : x.AttemptFailed u l cause) (hc : d.ChangesOnly x [] [R.HL_TAPS.addr l]) :
    d.AttemptFailed u l cause := by
  have hne : R.HL_STAT.addr l ∉ [R.HL_TAPS.addr l] := by simpa using (tapsReg_apart l).1.symm
  have hpat : x.pat = d.pat := hc.parts .pat List.not_mem_nil
  have hev : ∀ t code p, x.event t code p = d.event t code p := hc.event List.not_mem_nil fun a ha => by simpa using (tapsReg_apart l).2.2 a ha
  have hsec : x.linkSec l = d.linkSec l := by rw [Dev.linkSec, hpat, Dev.linkSec]
  have hgen : x.linkGen l = d.linkGen l := hc.rd (f := F.HL_STAT_GEN) hne
  have hattempt : x.rd F.HL_STAT_ATTEMPT l = d.rd F.HL_STAT_ATTEMPT l := hc.rd (f := F.HL_STAT_ATTEMPT) hne
  unfold Dev.AttemptFailed at h
  rw [hsec, hgen, hattempt, hev, hev] at h
  exact h

/-! ### UP (R204) -/

theorem Dev.ChangesOnly.queueReq {d e : Dev} {ps : List Part} {rs : List Nat} (h : d.ChangesOnly e ps rs) (hp : Part.hl ∈ ps) (l p : Nat) (r : MgReq) :
    d.ChangesOnly (e.queueReq l p r) ps rs := by
  have hq : d.ChangesOnly ((e.setLink l fun x => { x with tag := ((e.link l).tag + 1) % 256 }).setReq l p (some { r with tag := ((e.link l).tag + 1) % 256 })) ps rs :=
    (h.setHl hp).setHl hp
  unfold Dev.queueReq Dev.grantNext
  dsimp only
  split
  · exact hq
  · split
    · exact hq.setHl hp
    · exact hq

theorem Dev.ChangesOnly.startCheck {d e : Dev} {ps : List Part} {rs : List Nat} (h : d.ChangesOnly e ps rs) (hp : Part.hl ∈ ps) (l : Nat) :
    d.ChangesOnly (e.startCheck l) ps rs := by
  have hset : d.ChangesOnly (e.setCheck l {}) ps rs := h.setHl hp
  refine .ite ?_ h
  unfold Dev.checkReq
  dsimp only
  split
  · exact .ite (hset.queueReq hp _ _ _) (.ite (hset.queueReq hp _ _ _) (.ite (hset.queueReq hp _ _ _) hset))
  · exact hset

/-- A command that posts its events in order and finds nothing to do. -/
theorem Ignored.inOrder {c : Instr} {s : State} (f : Dev → Dev) (hx : exec c s = s.actInOrder f) (he : f s.dev = s.dev) : Ignored c s := by
  rw [Ignored, hx, State.actInOrder_next, he, Dev.orderEvents_none le_rfl]

/-- A command that posts its events in order and posts none. -/
theorem Runs.quiet {c : Instr} {s : State} {ps : List Part} {rs : List Nat} {e : Dev} (f : Dev → Dev) (hx : exec c s = s.actInOrder f) (he : f s.dev = e)
    (hp : Part.raised ∉ ps) (h : s.dev.ChangesOnly e ps rs) : Runs c s { s with dev := e } ps rs :=
  .inOrder f hx he (Dev.orderEvents_none (congrArg List.length (h.parts .raised hp)).le) h

/-- CONFIRM that ends well makes the link ACTIVE and keeps its taps (R204). -/
def Dev.confirms (d : Dev) (l : Fin 32) : Dev :=
  ((d.sendTs l 4).wr F.HL_STAT_STATE l 5).setLink l fun x => { x with
    good := (d.linkGen l, (d.sendTs l 4).dnTaps l) :: x.good.filter fun p => decide (p.1 ≠ d.linkGen l)
    eq := {} }

theorem Dev.confirm_eq (d : Dev) (l : Fin 32) (eye : Nat) : d.confirm l eye =
    let e := d.wr F.HL_TAPS_EYE l eye
    if d.linkState l ≠ 4 then d
    else if (e.link l).confirmBad then e.attemptFails l 6
    else if eye % 256 < e.rd F.HL_GLOBAL_CFG_EYE_MIN then e.attemptFails l 7 else e.confirms l := rfl

/-- What an eye measurement leaves of the device. -/
theorem Dev.eyeShown (d : Dev) (l : Fin 32) (eye : Nat) (hr : keysRising 0 d.regs = true) :
    let e := d.wr F.HL_TAPS_EYE l eye
    d.ChangesOnly e [] [R.HL_TAPS.addr l] ∧ e.rd F.HL_TAPS_EYE l = eye % 2 ^ F.HL_TAPS_EYE.w ∧ (∀ f : Fld, f.reg = R.HL_STAT → e.rd f l = d.rd f l) ∧
      e.rd F.HL_GLOBAL_CFG_EYE_MIN = d.rd F.HL_GLOBAL_CFG_EYE_MIN ∧ e.dnTaps l = d.dnTaps l := by
  obtain ⟨hstat, hglobal, -⟩ := tapsReg_apart l
  refine ⟨Dev.ChangesOnly.keep.wr List.mem_cons_self, Dev.rd_wr_self _ _ _ _ (by decide) hr, fun f hf => Dev.rd_wr_ne _ _ _ _ _ _ (by rw [hf]; exact hstat.symm),
    Dev.rd_wr_ne _ _ _ _ _ _ hglobal.symm, ?_⟩
  rw [Dev.dnTaps, Dev.rd_wr_beside (f := F.HL_TAPS_EYE) (g := F.HL_TAPS_DN_PRE) ⟨rfl, by decide, by decide⟩ _ _ hr,
    Dev.rd_wr_beside (f := F.HL_TAPS_EYE) (g := F.HL_TAPS_DN_MAIN) ⟨rfl, by decide, by decide⟩ _ _ hr,
    Dev.rd_wr_beside (f := F.HL_TAPS_EYE) (g := F.HL_TAPS_DN_POST) ⟨rfl, by decide, by decide⟩ _ _ hr, Dev.dnTaps]

theorem Dev.link_eqRequest {d : Dev} {l : Fin 32} (hl : l.val < d.hl.length) (req : Nat) (f : EqSt → EqSt) : (d.eqRequest l req f).link l =
    { d.link l with eq := { f (d.link l).eq with req := some req, limited := false, misses := 0 }, reqSeq := ((d.link l).reqSeq + 1) % 256 } :=
  Dev.link_setLink _ hl

theorem Dev.link_confirms {d : Dev} {l : Fin 32} (hl : l.val < d.hl.length) : (d.confirms l).link l =
    { d.link l with good := (d.linkGen l, d.dnTaps l) :: (d.link l).good.filter (fun p => decide (p.1 ≠ d.linkGen l)), eq := {} } :=
  Dev.link_setLink _ hl

theorem Dev.walks_base {d : Dev} {l : Fin 32} {e : EqSt} (hdir : e.dir = .base) (eye : Nat) :
    d.walks l eye e = d.eqRequest l (tapReq e.tap 1) fun e => { e with dir := .upFirst, best := eye } := by
  unfold Dev.walks
  rw [hdir]

/-- UP of a link, shown and posted (R204). -/
def Dev.showsUp (d : Dev) (l : Nat) : Dev :=
  (d.wrB F.HL_STAT_UP l true).raise .secure 0x0B01 [(1, l), (2, d.linkGen l), (4, d.rd F.HL_DELAY_D_DN l)]

theorem statReg_not_event (l : Fin 32) : ∀ a ∈ eventRegs, a ≠ R.HL_STAT.addr l := by
  have h : ∀ l : Fin 32, ∀ a ∈ eventRegs, a ≠ R.HL_STAT.addr l := by decide
  exact h l

/-- Settles O37: each training command is one branch of its definition; a failed attempt is R205's, and UP changes HL_STAT and the link alone. -/
theorem linkTraining : Obligations.LinkTraining := by
  unfold Obligations.LinkTraining
  refine ⟨?_, ?_, ?_, ?_⟩
  · intro l eye s e hinv
    have hl : l.val < s.dev.hl.length := hinv.links.symm ▸ l.isLt
    obtain ⟨hc, heye, hst, -, -⟩ := s.dev.eyeShown l eye hinv.regs
    refine ⟨fun hs hreq htap => ?_, fun hno => ?_⟩
    · have hdwell : s.dev.eqDwell l eye = (s.dev.wr F.HL_TAPS_EYE l eye).walks l eye e := by
        rw [Dev.eqDwell_eq]
        exact if_neg fun h => by
          rcases h with h | h | h
          · exact h (.inl hs)
          · rw [show (s.dev.link l).eq.req = none from hreq] at h; exact absurd h (by decide)
          · exact htap h
      have hw := Dev.walks_changes (s.dev.wr F.HL_TAPS_EYE l eye) l eye e
      refine ⟨_, .act (fun d => d.eqDwell l eye) rfl hdwell ((hc.mono (by simp) (by simp)).trans (hw.mono (fun _ => id) (by simp))), ?_, ?_⟩
      · exact (hw.rd (f := F.HL_TAPS_EYE) (by rw [List.mem_singleton]; exact (tapsReg_apart l).1)).trans heye
      · intro hdir
        simp only [Dev.walks_base hdir, Dev.link_eqRequest (d := s.dev.wr F.HL_TAPS_EYE l eye) hl]
        exact ⟨rfl, rfl⟩
    · refine .act (fun d => d.eqDwell l eye) rfl ((Dev.eqDwell_eq ..).trans ?_)
      refine if_pos ?_
      rcases hno with h | h | ⟨h3, h8⟩
      · exact .inr (.inl (Option.isSome_iff_ne_none.mpr h))
      · exact .inr (.inr h)
      · exact .inl fun h => h.elim h3 fun h => h8 h.1
  · intro l s e hinv
    have hl : l.val < s.dev.hl.length := hinv.links.symm ▸ l.isLt
    have hruns : s.dev.linkState l = 3 → e.req ≠ none → s.dev.eqTimeout l =
        if e.misses < 2 then (s.dev.setLink l fun x => { x with eq := { x.eq with misses := x.eq.misses + 1 } }).sendTs l 1 else s.dev.attemptFails l 4 := fun hs hreq =>
      if_neg fun h => h.elim (fun hn => hreq (Option.isNone_iff_eq_none.mp hn)) fun hn => hn (.inl hs)
    refine ⟨fun hs hreq hm => ?_, fun hs hreq hm => ?_, fun hno => ?_⟩
    · have hch : s.dev.ChangesOnly ((s.dev.setLink l fun x => { x with eq := { x.eq with misses := x.eq.misses + 1 } }).sendTs l 1) [.hl, .out] [] :=
        (Dev.ChangesOnly.keep.setHl (by decide)).setOut (by decide)
      exact ⟨_, .quiet (fun d => d.eqTimeout l) rfl ((hruns hs hreq).trans (if_pos hm)) (by decide) hch, Dev.setLink_hl_set ..⟩
    · obtain ⟨hc, hf⟩ := s.dev.attemptFails_failed l (cause := 4) (by omega) (by decide) hinv.regs
      exact ⟨_, .ordered (fun d => d.eqTimeout l) rfl ((hruns hs hreq).trans (if_neg (by omega))) (by decide) hc, hf.ordered _⟩
    · refine .inOrder (fun d => d.eqTimeout l) rfl (if_pos ?_)
      rcases hno with h | ⟨h3, h8⟩
      · exact .inl (Option.isNone_iff_eq_none.mpr h)
      · exact .inr fun h => h.elim h3 fun h => h8 h.1
  · intro l eye s hinv
    have hl : l.val < s.dev.hl.length := hinv.links.symm ▸ l.isLt
    obtain ⟨hc, heye, hst, hmin, htaps⟩ := s.dev.eyeShown l eye hinv.regs
    have hstate : (s.dev.wr F.HL_TAPS_EYE l eye).linkState l = s.dev.linkState l := hst F.HL_STAT_STATE rfl
    have hgen : (s.dev.wr F.HL_TAPS_EYE l eye).linkGen l = s.dev.linkGen l := hst F.HL_STAT_GEN rfl
    have hrise := hc.rising hinv.regs
    have hruns := s.dev.confirm_eq l eye
    simp only [hmin] at hruns
    generalize hx : s.dev.wr F.HL_TAPS_EYE l eye = x at *
    have hbad : (x.link l).confirmBad = (s.dev.link l).confirmBad := by rw [← hx]; rfl
    have hxl : l.val < x.hl.length := by rw [← hx]; exact hl
    rw [hbad] at hruns
    refine ⟨fun hs hok hwide => ?_, fun hs hfail => ?_, fun hno => .inOrder (fun d => d.confirm l eye) rfl (if_pos hno)⟩
    · have hconfirms : s.dev.confirm l eye = x.confirms l := by
        rw [hruns, if_neg (by omega), if_neg (by rw [hok]; decide), if_neg (by omega)]
      have hch : x.ChangesOnly (x.confirms l) eqParts [R.HL_STAT.addr l] := ((Dev.ChangesOnly.keep.setOut (by decide)).wr List.mem_cons_self).setHl (by decide)
      refine ⟨_, .quiet (fun d => d.confirm l eye) rfl hconfirms (by decide) ((hc.mono (by simp) (by simp)).trans (hch.mono (fun _ => id) (by simp))), ?_, ?_, ?_⟩
      · exact Dev.rd_wr_lt _ (by decide) (by decide) hrise
      · have hgood : ((x.confirms l).link l).good = (x.linkGen l, x.dnTaps l) :: (x.link l).good.filter fun p => decide (p.1 ≠ x.linkGen l) :=
          congrArg LinkSt.good (Dev.link_confirms hxl)
        simp only [hgood, hgen, htaps, List.lookup_cons_self]
      · exact congrArg LinkSt.eq (Dev.link_confirms hxl)
    · have hcause : ∃ cause, (if (s.dev.link l).confirmBad then 6 else 7) = cause ∧ cause < 16 ∧ s.dev.confirm l eye = x.attemptFails l cause := by
        have hrun := hruns.trans (if_neg (c := s.dev.linkState l ≠ 4) fun h => h hs)
        by_cases hb : (s.dev.link l).confirmBad = true
        · exact ⟨6, if_pos hb, by decide, hrun.trans (if_pos hb)⟩
        · have hn : eye % 256 < s.dev.rd F.HL_GLOBAL_CFG_EYE_MIN := hfail.resolve_left hb
          exact ⟨7, if_neg hb, by decide, hrun.trans ((if_neg hb).trans (if_pos hn))⟩
      obtain ⟨cause, hif, hlt, hconf⟩ := hcause
      obtain ⟨hch, hf⟩ := x.attemptFails_failed l (cause := cause) (by omega) hlt hrise
      rw [hif]
      exact ⟨_, .ordered (fun d => d.confirm l eye) rfl hconf (by decide) ((hc.mono (by simp) (by simp)).trans (hch.mono (fun _ => id) fun _ => List.mem_cons_of_mem _)),
        (hf.of_changes hc).ordered _⟩
  · intro l s hinv
    refine ⟨fun hs hup hd hr => ?_, fun hno => ?_⟩
    · have hwr : s.dev.ChangesOnly (s.dev.wrB F.HL_STAT_UP l true) [.hl, .raised] [R.HL_STAT.addr l] := Dev.ChangesOnly.keep.wrB List.mem_cons_self
      have hraise : s.dev.ChangesOnly (s.dev.showsUp l) [.hl, .raised] [R.HL_STAT.addr l] := hwr.raise (by decide) (.inl (by decide))
      have hup1 : (s.dev.showsUp l).rd F.HL_STAT_UP l = 1 :=
        (Dev.rd_raise_stat _ _ _ _ F.HL_STAT_UP l rfl).trans (Dev.rd_wrB_self _ _ _ _ (by decide) (by decide) hinv.regs)
      have hraised : (s.dev.showsUp l).raised = s.dev.raised ++ [s.dev.event .secure 0x0B01 [(1, l), (2, s.dev.linkGen l), (4, s.dev.rd F.HL_DELAY_D_DN l)]] := by
        rw [Dev.showsUp, Dev.raise_raised, hwr.event (by decide) fun a ha => by simpa using statReg_not_event l a ha]
        rfl
      have hgoes : s.dev.tryUp l = if (s.dev.showsUp l).checksRun then (s.dev.showsUp l).startCheck l else s.dev.showsUp l :=
        if_pos ⟨hs, by rw [hup]; rfl, hd, hr⟩
      have hcheck : (s.dev.showsUp l).ChangesOnly (if (s.dev.showsUp l).checksRun then (s.dev.showsUp l).startCheck l else s.dev.showsUp l) [.hl] [] :=
        .ite (.startCheck .keep (by decide) _) .keep
      refine ⟨_, .act (fun d => d.tryUp l) rfl hgoes (hraise.trans (hcheck.mono (by simp) (by simp))), ?_, ?_⟩
      · rw [Dev.linkUp, Dev.on, hcheck.rd List.not_mem_nil, hup1]
        decide
      · exact (hcheck.parts .raised (by decide)).trans hraised
    · refine .act (fun d => d.tryUp l) rfl (if_neg ?_)
      rintro ⟨hs, hup, hd, hr⟩
      rcases hno with h | h | h | h
      · exact h hs
      · rw [h] at hup; exact absurd hup (by decide)
      · rw [h] at hd; exact absurd hd (by decide)
      · rw [h] at hr; exact absurd hr (by decide)

/-! ### Classes of the memory front (R268) -/

theorem findReg_MF_CLASS : findReg (R.MF_CLASS.addr 0) regTable = some ⟨⟨R.MF_CLASS, [F.MF_CLASS_CLASS]⟩, 0, false⟩ := rfl

/-- An RW field that any value may stand in takes the bits that are written and keeps the others. -/
theorem Fld.written_testBit {f : Fld} (ht : f.ty = .rw) (hc : f.clamp = .any) (locked : Bool) {old k : Nat} (new : Nat) (hk : k < 2 ^ f.w)
    {j : Nat} (hj : j < f.w) : (f.written locked old new k).testBit j = if k.testBit j then new.testBit j else old.testBit j := by
  unfold Fld.written
  simp only [ht, hc, Clamp.app]
  by_cases h0 : k = 0
  · simp [h0]
  · rw [if_neg h0, Nat.testBit_mod_two_pow]
    change (decide (j < f.w) && ((old &&& (2 ^ f.w - 1 - k)) ||| (new &&& k)).testBit j) = _
    simp only [Nat.testBit_or, Nat.testBit_and, testBit_complement hk, hj]
    cases k.testBit j <;> simp

theorem Dev.classOf_eq (d : Dev) (r : Nat) : d.classOf r = fieldOf (2 * r) 2 (d.rd F.MF_CLASS_CLASS) := by
  rw [Dev.classOf, fieldOf, Nat.pow_mul]
  rfl

theorem fieldOf_class (r v : Nat) : fieldOf (2 * r) 2 v = v / 4 ^ r % 4 := by
  rw [fieldOf, Nat.pow_mul]
  rfl

/-- The class of a requester that a write leaves (R268): its bits of the value where they are written. -/
theorem Dev.classOf_store {d : Dev} (hr : keysRising 0 d.regs = true) (bytes val : Nat) {r : Nat} (h : r < 20) :
    (d.store R.MF_CLASS 0 val (if bytes = 8 then mask64 else mask32)).classOf r = if bytes = 8 ∨ r < 16 then val / 4 ^ r % 4 else d.classOf r := by
  have hmask : ∀ j, j < 2 → (if bytes = 8 then mask64 else mask32).testBit (2 * r + j) = decide (bytes = 8 ∨ r < 16) := by
    intro j hj
    rw [show mask64 = 2 ^ 64 - 1 from rfl, show mask32 = 2 ^ 32 - 1 from rfl]
    split
    case isTrue hb => rw [Nat.testBit_two_pow_sub_one]; simp [hb]; omega
    case isFalse hb => rw [Nat.testBit_two_pow_sub_one]; simp [hb]; omega
  generalize (if bytes = 8 then mask64 else mask32) = mask at hmask
  have hk : fieldOf 0 40 mask < 2 ^ 40 := fieldOf_lt _ _ _
  have hrd : (d.store R.MF_CLASS 0 val mask).rd F.MF_CLASS_CLASS = F.MF_CLASS_CLASS.written d.sys.locked (d.rd F.MF_CLASS_CLASS) (fieldOf 0 40 val) (fieldOf 0 40 mask) :=
    Dev.rd_store findReg_MF_CLASS (f := F.MF_CLASS_CLASS) (by simp) hr val mask
  rw [← fieldOf_class, Dev.classOf_eq, Dev.classOf_eq, hrd]
  refine Nat.eq_of_testBit_eq fun j => ?_
  rw [fieldOf_testBit, apply_ite (fun v : Nat => v.testBit j), fieldOf_testBit, fieldOf_testBit]
  by_cases hj : j < 2
  · have hlt : 2 * r + j < 40 := by omega
    rw [Fld.written_testBit rfl rfl _ _ hk hlt, fieldOf_testBit, fieldOf_testBit, Nat.zero_add, hmask j hj]
    by_cases hb : bytes = 8 ∨ r < 16 <;> simp [hb, hj, hlt]
  · simp [hj]

/-- A host's requester of class 0 takes class 1. -/
def Dev.hostClass (d : Dev) (r : Nat) : Dev :=
  if d.classOf r = 0 then d.wr F.MF_CLASS_CLASS 0 (fieldSet (2 * r) 2 (d.rd F.MF_CLASS_CLASS) 1) else d

theorem Dev.hostClass_changes (d : Dev) (r : Nat) : d.ChangesOnly (d.hostClass r) [] [R.MF_CLASS.addr 0] :=
  .ite (.wr .keep List.mem_cons_self) .keep

theorem Dev.classOf_hostClass {d : Dev} (hr : keysRising 0 d.regs = true) {r q : Nat} (h : r < 20) (hq : q < 20) :
    (d.hostClass r).classOf q = if q = r ∧ d.classOf q = 0 then 1 else d.classOf q := by
  by_cases h0 : d.classOf r = 0
  · have hset : (d.hostClass r).rd F.MF_CLASS_CLASS = fieldSet (2 * r) 2 (d.rd F.MF_CLASS_CLASS) 1 % 2 ^ 40 := by
      rw [Dev.hostClass, if_pos h0]
      exact Dev.rd_wr_self _ _ _ _ (by decide) hr
    have hfield : ∀ v, fieldOf (2 * q) 2 (v % 2 ^ 40) = fieldOf (2 * q) 2 v := by
      intro v
      refine Nat.eq_of_testBit_eq fun j => ?_
      rw [fieldOf_testBit, fieldOf_testBit, Nat.testBit_mod_two_pow]
      by_cases hj : j < 2
      · simp [show 2 * q + j < 40 by omega]
      · simp [hj]
    rw [Dev.classOf_eq, hset, hfield]
    by_cases hqr : q = r
    · subst hqr
      rw [fieldOf_fieldSet, if_pos ⟨rfl, h0⟩]
      rfl
    · rw [fieldOf_fieldSet_ne _ _ _ _ _ _ (by omega), if_neg fun hc => hqr hc.1, Dev.classOf_eq]
  · rw [Dev.hostClass, if_neg h0, if_neg]
    rintro ⟨rfl, hq0⟩
    exact h0 hq0

theorem Dev.classOf_hostClasses (rs : List Nat) (hnd : rs.Nodup) (hrs : ∀ r ∈ rs, r < 20) {q : Nat} (hq : q < 20) :
    ∀ {d : Dev}, keysRising 0 d.regs = true → (rs.foldl Dev.hostClass d).classOf q = if q ∈ rs ∧ d.classOf q = 0 then 1 else d.classOf q := by
  induction rs with
  | nil => simp
  | cons r rs ih =>
    intro d hr
    obtain ⟨hnew, hrest⟩ := List.nodup_cons.mp hnd
    rw [List.foldl_cons, ih hrest (fun x hx => hrs x (List.mem_cons_of_mem _ hx)) ((d.hostClass_changes r).rising hr),
      Dev.classOf_hostClass hr (hrs r List.mem_cons_self) hq]
    by_cases hqr : q = r
    · subst hqr
      simp [hnew]
    · simp [hqr]

/-- A channel's waiters after the classes have changed: those whose class changed join the tail, in its new queue (R268). -/
def Arb.reclass (a : Arb) (old new : Nat → Nat) : Arb :=
  { a with waiting := a.waiting.filter (fun w => decide (old w.r = new w.r)) ++ (a.waiting.filter fun w => decide (old w.r ≠ new w.r)).map fun w => { w with cls := new w.r } }

theorem Dev.wMfClass_eq (d : Dev) (val mask : Nat) : d.wMfClass val mask =
    let e := [10, 11, 12, 13, 14, 15].foldl Dev.hostClass (d.store R.MF_CLASS 0 val mask)
    (e.setArb 0 fun a => a.reclass d.classOf e.classOf).setArb 1 fun a => a.reclass d.classOf e.classOf := by
  have hsplit : ∀ (e : Dev) (a : Arb), { a with waiting := (a.waiting.partition fun w => decide (d.classOf w.r ≠ e.classOf w.r)).2 ++
      (a.waiting.partition fun w => decide (d.classOf w.r ≠ e.classOf w.r)).1.map fun w => { w with cls := e.classOf w.r } } = a.reclass d.classOf e.classOf := by
    intro e a
    simp [Arb.reclass, List.partition_eq_filter_filter, Function.comp_def]
  have hclass : ∀ (e : Dev) (f : Arb → Arb), (e.setArb 0 f).classOf = e.classOf := fun _ _ => rfl
  unfold Dev.wMfClass
  simp only [List.foldl_cons, List.foldl_nil, hsplit, hclass, Dev.hostClass]

/-- Both channels take the new classes. -/
def Dev.reclassed (d : Dev) (old : Nat → Nat) : Dev := (d.setArb 0 fun a => a.reclass old d.classOf).setArb 1 fun a => a.reclass old d.classOf

theorem Dev.arb_reclassed {d : Dev} (h : d.drm.arbs.length = 2) (old : Nat → Nat) (c : Fin 2) : (d.reclassed old).arb c = (d.arb c).reclass old d.classOf := by
  match c with
  | 0 => exact (at'_modify_ne _ (by decide)).trans (at'_modify_self _ (by omega))
  | 1 => exact (at'_modify_self _ (by rw [Dev.setArb, List.length_modify]; omega)).trans (congrArg (Arb.reclass · old d.classOf) (at'_modify_ne _ (by decide)))

theorem Dev.hostClasses_changes (rs : List Nat) (d : Dev) : d.ChangesOnly (rs.foldl Dev.hostClass d) [] [R.MF_CLASS.addr 0] :=
  Dev.ChangesOnly.foldl rs .keep fun e r he => he.trans (e.hostClass_changes r)

/-! ### The slot tables (R274, R275) -/

theorem findReg_MF_SLOT_CTRL : findReg (R.MF_SLOT_CTRL.addr 0) regTable =
    some ⟨⟨R.MF_SLOT_CTRL, [F.MF_SLOT_CTRL_ARM, F.MF_SLOT_CTRL_ACTIVE_WRITE, F.MF_SLOT_CTRL_RESULT]⟩, 0, false⟩ := rfl

theorem fieldOf_one (b v : Nat) : fieldOf b 1 v = if v.testBit b then 1 else 0 := by
  rw [fieldOf, Nat.testBit_eq_decide_div_mod_eq]
  have := Nat.mod_two_eq_zero_or_one (v / 2 ^ b)
  rcases this with h | h <;> simp [h]

theorem Dev.rd_bit {d : Dev} {f : Fld} (hw : f.w = 1) (i : Nat) : d.rd f i = 0 ∨ d.rd f i = 1 := by
  have := d.rd_lt f i
  rw [hw] at this
  omega

section
variable {r : Reg} {i : Nat} {h : Hit} (hf : findReg (r.addr i) regTable = some h) {f : Fld} (hm : f ∈ h.row.flds) {d : Dev} (hr : keysRising 0 d.regs = true)
  {val mask : Nat} (hw : f.w = 1) (hk : fieldOf f.lo 1 mask = 1)
include hf hm hr hw hk

/-- A one-bit W1S field is set where 1 is written. -/
theorem Dev.rd_store_set (ht : f.ty = .w1s) : (d.store r i val mask).rd f h.idx = if val.testBit f.lo then 1 else d.rd f h.idx := by
  rw [Dev.rd_store hf hm hr, Fld.written, ht, hw, hk, fieldOf_one]
  rcases d.rd_bit hw h.idx with h0 | h0 <;> cases val.testBit f.lo <;> rw [h0] <;> rfl

/-- A one-bit W1C field clears where 1 is written. -/
theorem Dev.rd_store_clear (ht : f.ty = .w1c) : (d.store r i val mask).rd f h.idx = if val.testBit f.lo then 0 else d.rd f h.idx := by
  rw [Dev.rd_store hf hm hr, Fld.written, ht, hw, hk, fieldOf_one]
  rcases d.rd_bit hw h.idx with h0 | h0 <;> cases val.testBit f.lo <;> rw [h0] <;> rfl

end

/-- The end of an armed swap (R275): nothing armed, its RESULT and its event. -/
def Dev.swapEnds (d : Dev) (result code : Nat) (payload : List (Nat × Nat)) : Dev :=
  (({ d with drm.swapAt := none }.wrB F.MF_SLOT_CTRL_ARM 0 false).wr F.MF_SLOT_CTRL_RESULT 0 result).raise .secure code payload

theorem Dev.swapEnds_spec {d : Dev} {result code : Nat} {payload : List (Nat × Nat)} (hr : keysRising 0 d.regs = true) (h8 : result < 8) (hc : code ∉ summaryCodes) :
    let e := d.swapEnds result code payload
    d.ChangesOnly e [.drm, .raised] [R.MF_SLOT_CTRL.addr 0] ∧ e.rd F.MF_SLOT_CTRL_ARM = 0 ∧ e.drm = { d.drm with swapAt := none } ∧
      e.rd F.MF_SLOT_CTRL_RESULT = result ∧ e.rd F.MF_SLOT_CTRL_ACTIVE_WRITE = d.rd F.MF_SLOT_CTRL_ACTIVE_WRITE ∧
      e.raised = d.raised ++ [d.event .secure code payload] := by
  intro e
  have hdrm : d.ChangesOnly { d with drm.swapAt := none } [.drm, .raised] [R.MF_SLOT_CTRL.addr 0] := Dev.ChangesOnly.keep.setDrm (by decide)
  have harm := hdrm.wrB (f := F.MF_SLOT_CTRL_ARM) (i := 0) (b := false) List.mem_cons_self
  have hres := harm.wr (f := F.MF_SLOT_CTRL_RESULT) (i := 0) (v := result) List.mem_cons_self
  have hrd : ∀ f : Fld, f.reg = R.MF_SLOT_CTRL → e.rd f = (({ d with drm.swapAt := none }.wrB F.MF_SLOT_CTRL_ARM 0 false).wr F.MF_SLOT_CTRL_RESULT 0 result).rd f :=
    fun f hf => Dev.rd_raise_ne _ _ _ _ _ _ (by rw [hf]; decide)
  have hr1 := harm.rising hr
  have hr0 : keysRising 0 ({ d with drm.swapAt := none } : Dev).regs = true := hr
  refine ⟨hres.raise (by decide) (.inl hc), ?_, ?_, ?_, ?_, ?_⟩
  · rw [hrd _ rfl, Dev.rd_wr_beside (f := F.MF_SLOT_CTRL_RESULT) (g := F.MF_SLOT_CTRL_ARM) ⟨rfl, by decide, by decide⟩ _ _ hr1]
    exact Dev.rd_wrB_self _ _ _ _ (by decide) (by decide) hr0
  · exact Dev.raise_drm ..
  · rw [hrd _ rfl]
    exact Dev.rd_wr_lt _ h8 (by decide) hr1
  · rw [hrd _ rfl, Dev.rd_wr_beside (f := F.MF_SLOT_CTRL_RESULT) (g := F.MF_SLOT_CTRL_ACTIVE_WRITE) ⟨rfl, by decide, by decide⟩ _ _ hr1, Dev.wrB,
      Dev.rd_wr_beside (f := F.MF_SLOT_CTRL_ARM) (g := F.MF_SLOT_CTRL_ACTIVE_WRITE) ⟨rfl, by decide, by decide⟩ _ _ hr0]
    rfl
  · have hev : ∀ x : Dev, d.ChangesOnly x [.drm, .raised] [R.MF_SLOT_CTRL.addr 0] → x.raised = d.raised →
        (x.raise .secure code payload).raised = d.raised ++ [d.event .secure code payload] := by
      intro x hx hraised
      rw [Dev.raise_raised, hraised, hx.event (by decide) (by decide)]
    exact hev _ hres rfl

/-- The slots of the active copy as the shadow stands. -/
def Dev.slotsCopied (d : Dev) (n : Nat) : Dev := (List.range n).foldl (fun d i => d.setReg R.MF_SLOT_ACTIVE i (d.reg R.MF_SLOT_SHADOW i)) d

theorem slotRegs_apart (i j : Fin 32) : R.MF_SLOT_SHADOW.addr j ≠ R.MF_SLOT_ACTIVE.addr i ∧ (i ≠ j → R.MF_SLOT_ACTIVE.addr j ≠ R.MF_SLOT_ACTIVE.addr i) := by
  have h : ∀ i j : Fin 32, R.MF_SLOT_SHADOW.addr j ≠ R.MF_SLOT_ACTIVE.addr i ∧ (i ≠ j → R.MF_SLOT_ACTIVE.addr j ≠ R.MF_SLOT_ACTIVE.addr i) := by decide +kernel
  exact h i j

/-- The registers of the active copy. -/
def activeRegs : List Nat := (List.range 32).map (R.MF_SLOT_ACTIVE.addr ·)

theorem Dev.reg_lt (d : Dev) (r : Reg) (i : Nat) : d.reg r i < 2 ^ 64 := BitVec.isLt _

theorem Dev.slotsCopied_spec {d : Dev} (hr : keysRising 0 d.regs = true) : ∀ n ≤ 32,
    d.ChangesOnly (d.slotsCopied n) [] activeRegs ∧ (∀ j : Fin 32, (d.slotsCopied n).reg R.MF_SLOT_SHADOW j = d.reg R.MF_SLOT_SHADOW j) ∧
      ∀ j : Fin 32, j < n → (d.slotsCopied n).reg R.MF_SLOT_ACTIVE j = d.reg R.MF_SLOT_SHADOW j := by
  intro n
  induction n with
  | zero => exact fun _ => ⟨.keep, fun _ => rfl, fun _ h => absurd h (Nat.not_lt_zero _)⟩
  | succ n ih =>
    intro hn
    obtain ⟨hc, hshadow, hactive⟩ := ih (by omega)
    have hstep : d.slotsCopied (n + 1) = (d.slotsCopied n).setReg R.MF_SLOT_ACTIVE n ((d.slotsCopied n).reg R.MF_SLOT_SHADOW n) := by
      rw [Dev.slotsCopied, List.range_succ, List.foldl_append]
      rfl
    rw [hstep]
    refine ⟨hc.setReg (List.mem_map_of_mem (List.mem_range.mpr hn)), fun j => ?_, fun j hj => ?_⟩
    · rw [Dev.reg_setReg_ne _ _ _ _ _ _ (slotRegs_apart ⟨n, hn⟩ j).1, hshadow]
    · by_cases hjn : j.val = n
      · rw [hjn, Dev.reg_setReg_self _ _ _ _ (hc.rising hr), hshadow ⟨n, hn⟩, Nat.mod_eq_of_lt (Dev.reg_lt ..)]
      · rw [Dev.reg_setReg_ne _ _ _ _ _ _ ((slotRegs_apart ⟨n, hn⟩ j).2 fun h => hjn (congrArg Fin.val h).symm), hactive j (by omega)]

theorem Dev.slotSwap_eq (d : Dev) : d.slotSwap = match d.drm.swapAt with
    | none => d
    | some b =>
      let f := d.tableFault (d.rd F.DM_STAT_SPEED) (d.slotTable R.MF_SLOT_SHADOW 0) (d.slotTable R.MF_SLOT_SHADOW 1)
      if d.beat < b then d else if f ≠ 0 then d.swapEnds f 0x0404 [(1, f)] else (d.slotsCopied 32).swapEnds 0 0x0403 [] := by
  unfold Dev.slotSwap
  rfl

theorem Dev.tableFault_lt (d : Dev) (speed : Nat) (t0 t1 : List Nat) : d.tableFault speed t0 t1 < 8 := by
  unfold Dev.tableFault
  split
  · decide
  · split
    · decide
    · split <;> decide

theorem Dev.wMfSlotCtrl_eq (d : Dev) (val : Nat) : d.wMfSlotCtrl val mask32 =
    let e := d.store R.MF_SLOT_CTRL 0 val mask32
    if d.on F.MF_SLOT_CTRL_ARM || !e.on F.MF_SLOT_CTRL_ARM then e
    else if e.rd F.MF_SLOT_BEAT_SWAP_BEAT ≤ e.beat then e.swapEnds 1 0x0404 [(1, 1)]
    else { e with drm.swapAt := some (e.rd F.MF_SLOT_BEAT_SWAP_BEAT) } := rfl

theorem Dev.wSlotActive_eq (d : Dev) (m : Master) (word : Nat) : d.wSlotActive m word =
    let e := (d.wr F.MF_SLOT_CTRL_ACTIVE_WRITE 0 1).touch m
    match portOf m with
    | some p => e.logAer p .ur
    | none => e.emit (.completion m .err []) := by
  unfold Dev.wSlotActive Dev.refuse
  cases portOf m <;> rfl

theorem Dev.slotTable_congr {d e : Dev} {r : Reg} (h : e.regs = d.regs) (c : Nat) : e.slotTable r c = d.slotTable r c := by
  simp only [Dev.slotTable, Dev.reg, h]

/-- Settles O49: each write and the swap is one branch of its definition, over the register as stored. -/
theorem classesAndSlotTables : Obligations.ClassesAndSlotTables := by
  unfold Obligations.ClassesAndSlotTables
  refine ⟨?_, ?_, ?_, ?_⟩
  · intro m bytes val s cls hinv htakes
    have hr : keysRising 0 (s.dev.touch m).regs = true := Dev.touch_rising m hinv.regs
    have hold : ∀ r, (s.dev.touch m).classOf r = s.dev.classOf r := fun r => by rw [Dev.classOf, Dev.rd_touch, Dev.classOf]
    have hstore : (s.dev.touch m).ChangesOnly ((s.dev.touch m).store R.MF_CLASS 0 val (if bytes = 8 then mask64 else mask32)) [] [R.MF_CLASS.addr 0] :=
      .store .keep findReg_MF_CLASS List.mem_cons_self
    have hhost := Dev.hostClasses_changes [10, 11, 12, 13, 14, 15] ((s.dev.touch m).store R.MF_CLASS 0 val (if bytes = 8 then mask64 else mask32))
    have hclass : ∀ r : Fin 20, ([10, 11, 12, 13, 14, 15].foldl Dev.hostClass ((s.dev.touch m).store R.MF_CLASS 0 val (if bytes = 8 then mask64 else mask32))).classOf r =
        if 10 ≤ r.val ∧ r.val ≤ 15 ∧ cls r.val = 0 then 1 else cls r.val := by
      intro r
      rw [Dev.classOf_hostClasses _ (by decide) (by decide) r.isLt (hstore.rising hr), Dev.classOf_store hr _ _ r.isLt, hold]
      refine ite_congr (propext ⟨?_, ?_⟩) (fun _ => rfl) fun _ => rfl
      · rintro ⟨hm, h0⟩
        simp only [List.mem_cons, List.not_mem_nil, or_false] at hm
        exact ⟨by omega, by omega, h0⟩
      · rintro ⟨h1, h2, h0⟩
        refine ⟨?_, h0⟩
        simp only [List.mem_cons, List.not_mem_nil, or_false]
        omega
    have hc := hstore.trans hhost
    generalize he : [10, 11, 12, 13, 14, 15].foldl Dev.hostClass ((s.dev.touch m).store R.MF_CLASS 0 val (if bytes = 8 then mask64 else mask32)) = e at hclass hc
    have hdrm : e.drm = s.dev.drm := (hc.parts .drm List.not_mem_nil).trans (Dev.touch_drm ..)
    have hwrite : (s.dev.touch m).wMfClass val (if bytes = 8 then mask64 else mask32) = e.reclassed s.dev.classOf := by
      rw [Dev.wMfClass_eq, he, funext hold]
      rfl
    have hchanges : (s.dev.touch m).ChangesOnly (e.reclassed s.dev.classOf) [.drm] [R.MF_CLASS.addr 0] :=
      ((hc.mono (by simp) fun _ => id).setDrm List.mem_cons_self).setDrm List.mem_cons_self
    have harb : ∀ c : Fin 2, (e.reclassed s.dev.classOf).arb c = (s.dev.arb c).reclass s.dev.classOf e.classOf := by
      intro c
      rw [Dev.arb_reclassed (by rw [hdrm]; exact hinv.arbs), Dev.arb, Dev.arb, hdrm]
    refine ⟨_, .writes (fun d => d.wMfClass val (if bytes = 8 then mask64 else mask32)) rfl htakes hwrite hchanges.after_touch, hclass, fun c => ?_⟩
    have hnew : (e.reclassed s.dev.classOf).classOf = e.classOf := rfl
    simp only [harb, hnew, Arb.reclass, and_self]
  · intro m word val s hinv
    refine ⟨fun hh => .act _ rfl (if_neg (by rw [hh]; decide)), fun hh => ?_⟩
    have hgoes : (fun d : Dev => if d.hears m then (d.touch m).wSlotActive m word else d) s.dev = (s.dev.touch m).wSlotActive m word := if_pos hh
    have hrise : keysRising 0 (s.dev.touch m).regs = true := Dev.touch_rising m hinv.regs
    have hwr : s.dev.ChangesOnly (((s.dev.touch m).wr F.MF_SLOT_CTRL_ACTIVE_WRITE 0 1).touch m) [.bus, .hst, .out] [R.MF_SLOT_CTRL.addr 0] :=
      ((Dev.ChangesOnly.touch _ m _ List.mem_cons_self).wr List.mem_cons_self).trans (.touch _ m _ List.mem_cons_self)
    have hset : (((s.dev.touch m).wr F.MF_SLOT_CTRL_ACTIVE_WRITE 0 1).touch m).rd F.MF_SLOT_CTRL_ACTIVE_WRITE = 1 :=
      (Dev.rd_touch m _ _ _).trans (Dev.rd_wr_lt _ (by decide) (by decide) hrise)
    have hout : (((s.dev.touch m).wr F.MF_SLOT_CTRL_ACTIVE_WRITE 0 1).touch m).out = s.dev.out := (Dev.touch_out ..).trans (Dev.touch_out ..)
    have htable : ∀ c : Fin 2, (((s.dev.touch m).wr F.MF_SLOT_CTRL_ACTIVE_WRITE 0 1).touch m).slotTable R.MF_SLOT_ACTIVE c = s.dev.slotTable R.MF_SLOT_ACTIVE c := by
      intro c
      have hne : ∀ k : Fin 32, R.MF_SLOT_ACTIVE.addr k ∉ [R.MF_SLOT_CTRL.addr 0] := by decide
      refine List.map_congr_left fun k hk => ?_
      have hk64 := List.mem_range.mp hk
      rw [Dev.reg, Dev.reg, hwr.regs _ (hne ⟨c * 16 + k / 4, by omega⟩)]
    rw [Dev.wSlotActive_eq] at hgoes
    generalize ((s.dev.touch m).wr F.MF_SLOT_CTRL_ACTIVE_WRITE 0 1).touch m = e at *
    cases hport : portOf m with
    | some p =>
      simp only [hport] at hgoes
      refine ⟨_, .act _ rfl hgoes ((hwr.setOut (by decide)).setHst (by decide)), hset, htable, by rw [← hout]; rfl⟩
    | none =>
      simp only [hport] at hgoes
      refine ⟨_, .act _ rfl hgoes (hwr.setOut (by decide)), hset, htable, by rw [← hout]; rfl⟩
  · intro m val s stays hinv htakes
    have hrise : keysRising 0 (s.dev.touch m).regs = true := Dev.touch_rising m hinv.regs
    have hrd : ∀ f : Fld, ∀ i, (s.dev.touch m).rd f i = s.dev.rd f i := fun f i => Dev.rd_touch m s.dev f i
    have hc : (s.dev.touch m).ChangesOnly ((s.dev.touch m).store R.MF_SLOT_CTRL 0 val mask32) [] [R.MF_SLOT_CTRL.addr 0] := .store .keep findReg_MF_SLOT_CTRL List.mem_cons_self
    have harm : ((s.dev.touch m).store R.MF_SLOT_CTRL 0 val mask32).rd F.MF_SLOT_CTRL_ARM = if setsBit val 0 then 1 else (s.dev.touch m).rd F.MF_SLOT_CTRL_ARM :=
      Dev.rd_store_set findReg_MF_SLOT_CTRL (f := F.MF_SLOT_CTRL_ARM) (by simp) hrise (val := val) (mask := mask32) rfl (by decide) rfl
    have hactive := Dev.rd_store_clear findReg_MF_SLOT_CTRL (f := F.MF_SLOT_CTRL_ACTIVE_WRITE) (by simp) hrise (val := val) (mask := mask32) rfl (by decide) rfl
    have hresult := Dev.rd_store_ro findReg_MF_SLOT_CTRL (f := F.MF_SLOT_CTRL_RESULT) (by simp) hrise (v := val) (mask := mask32) rfl
    have hbeat : ((s.dev.touch m).store R.MF_SLOT_CTRL 0 val mask32).beat = s.dev.beat := (hc.rd (f := F.GL_BEAT_BEAT) (by decide)).trans (hrd _ _)
    have hswap : ((s.dev.touch m).store R.MF_SLOT_CTRL 0 val mask32).rd F.MF_SLOT_BEAT_SWAP_BEAT = s.dev.rd F.MF_SLOT_BEAT_SWAP_BEAT :=
      (hc.rd (f := F.MF_SLOT_BEAT_SWAP_BEAT) (by decide)).trans (hrd _ _)
    have hdrm : ((s.dev.touch m).store R.MF_SLOT_CTRL 0 val mask32).drm = s.dev.drm := (hc.parts .drm List.not_mem_nil).trans (Dev.touch_drm ..)
    have hraised : ((s.dev.touch m).store R.MF_SLOT_CTRL 0 val mask32).raised = s.dev.raised := (hc.parts .raised List.not_mem_nil).trans (Dev.touch_raised ..)
    have hev : ∀ t code p, ((s.dev.touch m).store R.MF_SLOT_CTRL 0 val mask32).event t code p = s.dev.event t code p :=
      fun t code p => (hc.event List.not_mem_nil (by decide) t code p).trans (Dev.event_touch ..)
    have hwrite := (s.dev.touch m).wMfSlotCtrl_eq val
    simp only [hrd] at harm hactive hresult
    simp only [hswap, hbeat, Dev.on, harm, hrd] at hwrite
    generalize hx : (s.dev.touch m).store R.MF_SLOT_CTRL 0 val mask32 = x at *
    have hbit : s.dev.rd F.MF_SLOT_CTRL_ARM = 0 ∨ s.dev.rd F.MF_SLOT_CTRL_ARM = 1 := Dev.rd_bit rfl _
    have hnew : setsBit val 0 → s.dev.rd F.MF_SLOT_CTRL_ARM = 0 → (s.dev.touch m).wMfSlotCtrl val mask32 =
        if s.dev.rd F.MF_SLOT_BEAT_SWAP_BEAT ≤ s.dev.beat then x.swapEnds 1 0x0404 [(1, 1)] else { x with drm.swapAt := some (s.dev.rd F.MF_SLOT_BEAT_SWAP_BEAT) } := by
      intro hset hfree
      refine hwrite.trans (if_neg ?_)
      rw [hfree, if_pos hset]
      decide
    refine ⟨fun hno => ?_, fun hset hfree hcoming => ?_, fun hset hfree hpast => ?_⟩
    · have hgoes : (s.dev.touch m).wMfSlotCtrl val mask32 = x := hwrite.trans (if_pos (by
        by_cases hset : setsBit val 0
        · rw [hbit.resolve_left (hno.resolve_left (not_not_intro hset))]
          rfl
        · rw [if_neg hset]
          rcases hbit with h | h <;> rw [h] <;> rfl))
      refine ⟨_, .writes _ rfl htakes hgoes (hc.mono (by simp) fun _ => id).after_touch, harm.trans ?_, hresult, hactive⟩
      split
      case isTrue hset => exact (hbit.resolve_left (hno.resolve_left (not_not_intro hset))).symm
      case isFalse => rfl
    · have hgoes := (hnew hset hfree).trans (if_neg (by omega))
      exact ⟨_, .writes _ rfl htakes hgoes ((hc.mono (by simp) fun _ => id).setDrm List.mem_cons_self).after_touch, harm.trans (if_pos hset), by rw [hdrm], hactive⟩
    · obtain ⟨hch, h1, h2, h3, h4, h5⟩ := Dev.swapEnds_spec (d := x) (result := 1) (code := 0x0404) (payload := [(1, 1)]) (hc.rising hrise) (by decide) (by decide)
      have hgoes : (s.dev.touch m).wMfSlotCtrl val mask32 = x.swapEnds 1 0x0404 [(1, 1)] := (hnew hset hfree).trans (if_pos hpast)
      exact ⟨_, .writes _ rfl htakes hgoes ((hc.mono (by simp) fun _ => id).trans hch).after_touch, h1, h2.trans (by rw [hdrm]), h3, h5.trans (by rw [hraised, hev])⟩
  · intro b s sh f hinv
    obtain ⟨hc, -, hcopied⟩ := Dev.slotsCopied_spec hinv.regs 32 le_rfl
    have hf : f < 8 := Dev.tableFault_lt ..
    have heq := s.dev.slotSwap_eq
    refine ⟨fun hnone => ?_, fun hsome hearly => ?_, fun hsome hdue hok => ?_, fun hsome hdue hbad => ?_⟩
    · exact .inOrder Dev.slotSwap rfl (by rw [heq, hnone])
    · rw [hsome] at heq
      exact .inOrder Dev.slotSwap rfl (heq.trans (if_pos hearly))
    · rw [hsome] at heq
      obtain ⟨hch, h1, h2, h3, -, h4⟩ := Dev.swapEnds_spec (d := s.dev.slotsCopied 32) (result := 0) (code := 0x0403) (payload := []) (hc.rising hinv.regs) (by decide) (by decide)
      have hgoes : s.dev.slotSwap = (s.dev.slotsCopied 32).swapEnds 0 0x0403 [] := heq.trans ((if_neg (by omega)).trans (if_neg fun h => h hok))
      have hdrm : (s.dev.slotsCopied 32).drm = s.dev.drm := hc.parts .drm List.not_mem_nil
      have hraised : (s.dev.slotsCopied 32).raised = s.dev.raised := hc.parts .raised List.not_mem_nil
      have h5 := h4.trans (congrArg₂ (· ++ [·]) hraised (hc.event List.not_mem_nil (by decide) _ _ _))
      have hctrl : ∀ j : Fin 32, R.MF_SLOT_ACTIVE.addr j ∉ [R.MF_SLOT_CTRL.addr 0] := by decide
      refine ⟨_, .inOrder Dev.slotSwap rfl hgoes (Dev.orderEvents_one h5) ((hc.mono (by simp) fun _ => List.mem_cons_of_mem _).trans (hch.mono (fun _ => id) (by simp))),
        fun j => ?_, h1, h2.trans (by rw [hdrm]), h3, h5⟩
      rw [Dev.reg, hch.regs _ (hctrl j)]
      exact hcopied j j.isLt
    · rw [hsome] at heq
      obtain ⟨hch, h1, h2, h3, -, h4⟩ := Dev.swapEnds_spec (d := s.dev) (result := f) (code := 0x0404) (payload := [(1, f)]) hinv.regs hf (by decide)
      have hgoes : s.dev.slotSwap = s.dev.swapEnds f 0x0404 [(1, f)] := heq.trans ((if_neg (by omega)).trans (if_pos hbad))
      exact ⟨_, .inOrder Dev.slotSwap rfl hgoes (Dev.orderEvents_one h4) hch, h1, h2, h3, h4⟩

/-! ### Ports and their messages (R291) -/

theorem Dev.port_setPort {d : Dev} (h : d.hst.ports.length = 2) (p : Fin 2) (f : HostPort → HostPort) : (d.setPort p f).port p = f (d.port p) :=
  at'_modify_self f (by rw [h]; exact p.isLt)

theorem Dev.port_setPort_other (d : Dev) (p : Fin 2) (f : HostPort → HostPort) : (d.setPort p f).port (1 - p.val) = d.port (1 - p.val) :=
  at'_modify_ne f (by fin_cases p <;> decide)

theorem Dev.setPort_length (d : Dev) (p : Nat) (f : HostPort → HostPort) : (d.setPort p f).hst.ports.length = d.hst.ports.length := List.length_modify ..

/-- Vector 0 for an entry that is written: sent, or put off under moderation. -/
def Dev.vectorZero (d : Dev) (p : Fin 2) : Dev :=
  if d.rd F.HST_EVR_CFG_MOD p = 0 ∨ (d.port p).modUntil ≤ d.tmb.beats then (d.message p 0).setPort p fun h => { h with modDue := false }
  else d.setPort p fun h => { h with modDue := true }

theorem Dev.signalEntry_eq (d : Dev) (p : Fin 2) : d.signalEntry p =
    let e := d.vectorZero p
    let occ := (e.evHead p + e.evSize p - e.rd F.HST_EVR_TAIL_TAIL p) % e.evSize p
    if occ = 3 * e.evSize p / 4 then e.message p 1 else e := rfl

/-- From d to e port p has at most sent messages: what its ring keeps stays. -/
structure Dev.Signals (d e : Dev) (p : Fin 2) : Prop where
  changes : d.ChangesOnly e [.hst, .out] []
  length : e.hst.ports.length = d.hst.ports.length
  queue : (e.port p).queue = (d.port p).queue
  seq : (e.port p).seq = (d.port p).seq
  lost : (e.port p).lost = (d.port p).lost
  out : ∃ sent, e.out = d.out ++ sent

namespace Dev.Signals

variable {d e : Dev} {p : Fin 2}

theorem refl : d.Signals d p := ⟨.keep, rfl, rfl, rfl, rfl, [], (List.append_nil _).symm⟩

theorem emit (h : d.Signals e p) (o : Out) : d.Signals (e.emit o) p := by
  obtain ⟨sent, hsent⟩ := h.out
  exact { h with changes := h.changes.setOut (by decide), out := ⟨sent ++ [o], by rw [← List.append_assoc, ← hsent]; rfl⟩ }

theorem setPort (h : d.Signals e p) (hl : e.hst.ports.length = 2) {f : HostPort → HostPort} (hq : ∀ x, (f x).queue = x.queue) (hs : ∀ x, (f x).seq = x.seq)
    (hlost : ∀ x, (f x).lost = x.lost) : d.Signals (e.setPort p f) p where
  changes := h.changes.setHst (by decide)
  length := (Dev.setPort_length ..).trans h.length
  queue := by rw [Dev.port_setPort hl, hq, h.queue]
  seq := by rw [Dev.port_setPort hl, hs, h.seq]
  lost := by rw [Dev.port_setPort hl, hlost, h.lost]
  out := h.out

theorem message (h : d.Signals e p) (hl : e.hst.ports.length = 2) (v : Fin 2) : d.Signals (e.message p v) p := by
  unfold Dev.message
  dsimp only
  split
  · exact h
  · split
    · exact h.setPort hl (fun _ => rfl) (fun _ => rfl) fun _ => rfl
    · split
      · exact (h.emit _).setPort hl (fun _ => rfl) (fun _ => rfl) fun _ => rfl
      · exact h.emit _

theorem signalEntry (h : d.Signals e p) (hd : d.hst.ports.length = 2) : d.Signals (e.signalEntry p) p := by
  have hl : ∀ {x : Dev}, d.Signals x p → x.hst.ports.length = 2 := fun hx => hx.length.trans hd
  have hzero : d.Signals (e.vectorZero p) p := by
    unfold Dev.vectorZero
    split
    · exact (h.message (hl h) 0).setPort (hl (h.message (hl h) 0)) (fun _ => rfl) (fun _ => rfl) fun _ => rfl
    · exact h.setPort (hl h) (fun _ => rfl) (fun _ => rfl) fun _ => rfl
  rw [Dev.signalEntry_eq]
  dsimp only
  split
  · exact hzero.message (hl hzero) 1
  · exact hzero

end Dev.Signals

/-! ### An entry that is written (R289) -/

theorem ringRegs_apart (p : Fin 2) : R.HST_EVR_HEAD.addr p ≠ R.HST_EVR_STAT.addr p ∧ R.HST_EVR_HEAD.addr p ≠ R.HST_EVR_CFG.addr p ∧
    R.HST_EVR_TAIL.addr p ≠ R.HST_EVR_CFG.addr p ∧ R.HST_EVR_HEAD.addr p ≠ R.HST_EVR_TAIL.addr p ∧ R.HST_EVR_STAT.addr p ≠ R.HST_EVR_CFG.addr p ∧
    R.HST_EVR_STAT.addr p ≠ R.HST_EVR_TAIL.addr p ∧ R.HST_EVR_BASE.addr p ≠ R.HST_EVR_CFG.addr p := by
  fin_cases p <;> decide

/-- The write of an event's entry at HEAD. -/
def Dev.entryOut (d : Dev) (p : Fin 2) (seq : Nat) (ev : Ev) : Out :=
  .pcieWrite p ((d.port p).base + d.evHead p * 32) (entryBytes (d.on F.HST_EVR_HEAD_PHASE p) (d.port p).lost seq ev)

/-- From d to e the entry of one event has been written at HEAD of port p's ring. -/
structure Dev.Writes (d e : Dev) (p : Fin 2) (seq : Nat) (ev : Ev) : Prop where
  changes : d.ChangesOnly e [.hst, .out] [R.HST_EVR_HEAD.addr p]
  queue : (e.port p).queue = (d.port p).queue
  seqKept : (e.port p).seq = (d.port p).seq
  lost : (e.port p).lost = false
  out : e.out[d.out.length]? = some (d.entryOut p seq ev)
  head : e.rd F.HST_EVR_HEAD_HEAD p = (d.evHead p + 1) % 2 ^ (d.port p).log
  phase : e.on F.HST_EVR_HEAD_PHASE p = (d.on F.HST_EVR_HEAD_PHASE p != decide ((d.evHead p + 1) % 2 ^ (d.port p).log = 0))

/-- HEAD and PHASE move on past an entry. -/
def Dev.headMoved (d : Dev) (p : Fin 2) (seq : Nat) (ev : Ev) : Dev :=
  let next := (d.evHead p + 1) % d.evSize p
  (((d.emit (d.entryOut p seq ev)).setPort p fun h => { h with lost := false }).wr F.HST_EVR_HEAD_HEAD p next).wrB F.HST_EVR_HEAD_PHASE p
    (if next = 0 then !d.on F.HST_EVR_HEAD_PHASE p else d.on F.HST_EVR_HEAD_PHASE p)

theorem Dev.writeEntry_writes {d : Dev} (hr : keysRising 0 d.regs = true) (hports : d.hst.ports.length = 2) (p : Fin 2) (seq : Nat) (ev : Ev) (hlog : (d.port p).log ≤ 16) :
    d.Writes (d.writeEntry p seq ev) p seq ev := by
  have hnext : (d.evHead p + 1) % d.evSize p < 2 ^ 16 :=
    Nat.lt_of_lt_of_le (Nat.mod_lt _ (Nat.two_pow_pos _)) (Nat.pow_le_pow_right (by decide) hlog)
  have hport : (d.headMoved p seq ev).port p = { d.port p with lost := false } :=
    Dev.port_setPort (d := d.emit (d.entryOut p seq ev)) hports p fun h => { h with lost := false }
  have hsize : ((d.emit (d.entryOut p seq ev)).setPort p fun h => { h with lost := false }).evSize p = d.evSize p := by
    rw [Dev.evSize, Dev.port_setPort (d := d.emit (d.entryOut p seq ev)) hports p fun h => { h with lost := false }]
    rfl
  have hmoved : d.ChangesOnly (d.headMoved p seq ev) [.hst, .out] [R.HST_EVR_HEAD.addr p] :=
    (((Dev.ChangesOnly.keep.setOut (by decide)).setHst (by decide)).wr List.mem_cons_self).wrB List.mem_cons_self
  have hwrite : d.writeEntry p seq ev = (d.headMoved p seq ev).signalEntry p := by
    unfold Dev.entryOut at hsize
    unfold Dev.writeEntry Dev.headMoved Dev.entryOut
    simp only [hsize]
  obtain ⟨hch, hlen, hqueue, hseq, hlost, sent, hsent⟩ :=
    (Dev.Signals.refl (d := d.headMoved p seq ev) (p := p)).signalEntry ((Dev.setPort_length ..).trans hports)
  have hwr : keysRising 0 (((d.emit (d.entryOut p seq ev)).setPort p fun h => { h with lost := false }).wr F.HST_EVR_HEAD_HEAD p ((d.evHead p + 1) % d.evSize p)).regs = true :=
    (((Dev.ChangesOnly.keep (d := d) (ps := [.hst, .out]) (rs := [R.HST_EVR_HEAD.addr p])).wr (f := F.HST_EVR_HEAD_HEAD) (i := p) (v := (d.evHead p + 1) % d.evSize p) List.mem_cons_self)).rising hr
  have hhead : (d.headMoved p seq ev).rd F.HST_EVR_HEAD_HEAD p = (d.evHead p + 1) % d.evSize p :=
    (Dev.rd_wr_beside (f := F.HST_EVR_HEAD_PHASE) (g := F.HST_EVR_HEAD_HEAD) ⟨rfl, by decide, by decide⟩ _ _ hwr).trans
      (Dev.rd_wr_lt (d := (d.emit (d.entryOut p seq ev)).setPort p fun h => { h with lost := false }) _ hnext (by decide) hr)
  have hphase := Dev.rd_wrB_self _ F.HST_EVR_HEAD_PHASE p (if (d.evHead p + 1) % d.evSize p = 0 then !d.on F.HST_EVR_HEAD_PHASE p else d.on F.HST_EVR_HEAD_PHASE p)
    (by decide) (by decide) hwr
  rw [hwrite]
  refine ⟨hmoved.trans (hch.mono (fun _ => id) (by simp)), hqueue.trans (by rw [hport]), hseq.trans (by rw [hport]), hlost.trans (by rw [hport]), ?_, ?_, ?_⟩
  · have hout : (d.headMoved p seq ev).out = d.out ++ [d.entryOut p seq ev] := rfl
    rw [hsent, hout, List.append_assoc]
    simp
  · exact (hch.rd (f := F.HST_EVR_HEAD_HEAD) List.not_mem_nil).trans hhead
  · rw [Dev.on, hch.rd (f := F.HST_EVR_HEAD_PHASE) List.not_mem_nil]
    refine (congrArg (fun v => decide (v ≠ 0)) hphase).trans ?_
    change decide ((if (if (d.evHead p + 1) % 2 ^ (d.port p).log = 0 then !d.on F.HST_EVR_HEAD_PHASE p else d.on F.HST_EVR_HEAD_PHASE p) = true then 1 else 0) ≠ 0) = _
    by_cases h0 : (d.evHead p + 1) % 2 ^ (d.port p).log = 0
    · simp only [h0, if_true]
      cases d.on F.HST_EVR_HEAD_PHASE p <;> decide
    · simp only [h0, if_false]
      cases d.on F.HST_EVR_HEAD_PHASE p <;> decide

theorem Dev.port_setPort_twice {d : Dev} (h : d.hst.ports.length = 2) (p : Fin 2) (f g : HostPort → HostPort) :
    ((d.setPort p f).setPort p g).port p = g (f (d.port p)) :=
  (Dev.port_setPort ((Dev.setPort_length ..).trans h) p g).trans (congrArg g (Dev.port_setPort h p f))

theorem evrRegs_late (p : Fin 2) : ∀ row ∈ regTable.take 162, (R.HST_EVR_CFG.addr p < row.reg.base ∨ row.reg.top < R.HST_EVR_CFG.addr p) ∧
    (R.HST_EVR_TAIL.addr p < row.reg.base ∨ row.reg.top < R.HST_EVR_TAIL.addr p) := by
  have h : ∀ p : Fin 2, ∀ row ∈ regTable.take 162, (R.HST_EVR_CFG.addr p < row.reg.base ∨ row.reg.top < R.HST_EVR_CFG.addr p) ∧
    (R.HST_EVR_TAIL.addr p < row.reg.base ∨ row.reg.top < R.HST_EVR_TAIL.addr p) := by decide +kernel
  exact h p

theorem findReg_HST_EVR_CFG (p : Fin 2) : findReg (R.HST_EVR_CFG.addr p) regTable =
    some ⟨⟨R.HST_EVR_CFG, [F.HST_EVR_CFG_ENABLE, F.HST_EVR_CFG_LOG_ENTRIES, F.HST_EVR_CFG_MOD]⟩, p, false⟩ := by
  rw [findReg_drop 162 fun row h => (evrRegs_late p row h).1]
  fin_cases p <;> rfl

theorem findReg_HST_EVR_TAIL (p : Fin 2) : findReg (R.HST_EVR_TAIL.addr p) regTable = some ⟨⟨R.HST_EVR_TAIL, [F.HST_EVR_TAIL_TAIL]⟩, p, false⟩ := by
  rw [findReg_drop 162 fun row h => (evrRegs_late p row h).2]
  fin_cases p <;> rfl

theorem Dev.writeOwn_of_takes {d : Dev} {m : Master} {p : Fin 2} {r : Reg} {i : Nat} (h : d.Takes m r i) (hp : portOf m = some p) (f : Dev → Dev) :
    d.writeOwn m p r i f = f (d.touch m) := by
  rw [Dev.writeOwn, Dev.writeTo_of_takes h]
  exact if_pos (by rw [hp]; rfl)

theorem Runs.writesOwn {c : Instr} {m : Master} {p : Fin 2} {r : Reg} {i : Nat} {s : State} {ps : List Part} {rs : List Nat} {e : Dev} (f : Dev → Dev)
    (hx : exec c s = s.act fun d => d.writeOwn m p r i f) (ht : s.dev.Takes m r i) (hp : portOf m = some p) (he : f (s.dev.touch m) = e)
    (h : (s.dev.touch m).ChangesOnly e ps rs) : Runs c s { s with dev := e } (.bus :: ps) rs :=
  .act _ hx ((Dev.writeOwn_of_takes ht hp f).trans he) h.after_touch

theorem Dev.ringOn_of_rd {d : Dev} {p : Fin 2} {v : Nat} (h : d.rd F.HST_EVR_CFG_ENABLE p = v) : d.ringOn p = decide (v ≠ 0) := by rw [Dev.ringOn, Dev.on, h]

/-- Whether the device can write an entry rests on the port's bus mastering and size and on HEAD and TAIL. -/
theorem Dev.canWrite_congr {d e : Dev} {p : Nat} (hregs : e.regs = d.regs) (hbus : (e.port p).busMaster = (d.port p).busMaster) (hlog : (e.port p).log = (d.port p).log) :
    e.canWrite p = d.canWrite p := by
  unfold Dev.canWrite Dev.ringFull Dev.evHead Dev.evSize
  rw [hbus, hlog, Dev.rd_congr F.HST_EVR_HEAD_HEAD p hregs, Dev.rd_congr F.HST_EVR_TAIL_TAIL p hregs]

/-- An enabled ring starts empty (R288). -/
theorem Dev.enableRing_spec {d : Dev} (hr : keysRising 0 d.regs = true) (hports : d.hst.ports.length = 2) (p : Fin 2) :
    let e := d.enableRing p
    let log := d.rd F.HST_EVR_CFG_LOG_ENTRIES p
    d.ChangesOnly e [.hst] [R.HST_EVR_HEAD.addr p, R.HST_EVR_TAIL.addr p] ∧ e.rd F.HST_EVR_HEAD_HEAD p = 0 ∧ e.rd F.HST_EVR_HEAD_PHASE p = 1 ∧
      e.rd F.HST_EVR_TAIL_TAIL p = 0 ∧
      e.port p = { d.port p with base := d.rd F.HST_EVR_BASE_BASE p * 4096, log := if log = 0 then 16 else log, seq := 0 } := by
  intro e log
  have h1 := (Dev.ChangesOnly.keep (d := d) (ps := [.hst]) (rs := [R.HST_EVR_HEAD.addr p, R.HST_EVR_TAIL.addr p])).wr (f := F.HST_EVR_HEAD_HEAD) (i := p) (v := 0) List.mem_cons_self
  have h2 := h1.wr (f := F.HST_EVR_HEAD_PHASE) (i := p) (v := 1) List.mem_cons_self
  have h3 := h2.wr (f := F.HST_EVR_TAIL_TAIL) (i := p) (v := 0) (List.mem_cons_of_mem _ List.mem_cons_self)
  obtain ⟨-, -, -, hht, -, -, -⟩ := ringRegs_apart p
  have hbase : ∀ p : Fin 2, R.HST_EVR_BASE.addr p ∉ [R.HST_EVR_HEAD.addr p, R.HST_EVR_TAIL.addr p] := by decide
  refine ⟨h3.setHst List.mem_cons_self, ?_, ?_, ?_, ?_⟩
  · refine (Dev.rd_wr_ne _ _ _ _ _ _ hht).trans ?_
    refine (Dev.rd_wr_beside (f := F.HST_EVR_HEAD_PHASE) (g := F.HST_EVR_HEAD_HEAD) ⟨rfl, by decide, by decide⟩ _ _ (h1.rising hr)).trans ?_
    exact Dev.rd_wr_lt _ (by decide) (by decide) hr
  · refine (Dev.rd_wr_ne _ _ _ _ _ _ hht).trans ?_
    exact Dev.rd_wr_lt _ (by decide) (by decide) (h1.rising hr)
  · exact Dev.rd_wr_lt _ (by decide) (by decide) (h2.rising hr)
  · refine (Dev.port_setPort (d := ((d.wr F.HST_EVR_HEAD_HEAD p 0).wr F.HST_EVR_HEAD_PHASE p 1).wr F.HST_EVR_TAIL_TAIL p 0) hports p _).trans ?_
    rw [h3.rd (f := F.HST_EVR_BASE_BASE) (hbase p)]
    rfl

theorem Dev.wEvrCfg_off {d : Dev} {p : Fin 2} (h : d.ringOn p = false) (val mask : Nat) :
    d.wEvrCfg p val mask = if (d.store R.HST_EVR_CFG p val mask).ringOn p then (d.store R.HST_EVR_CFG p val mask).enableRing p else d.store R.HST_EVR_CFG p val mask := by
  unfold Dev.wEvrCfg
  rw [h]
  simp

theorem Dev.wEvrCfg_on {d : Dev} {p : Fin 2} (h : d.ringOn p = true) (val mask : Nat) :
    d.wEvrCfg p val mask = if (d.store R.HST_EVR_CFG p val (Nat.land mask 0xFFFFFF0F)).ringOn p then d.store R.HST_EVR_CFG p val (Nat.land mask 0xFFFFFF0F)
      else (d.store R.HST_EVR_CFG p val (Nat.land mask 0xFFFFFF0F)).disableRing p := by
  unfold Dev.wEvrCfg
  rw [h]
  simp only [Bool.not_true, Bool.false_and, Bool.false_eq_true, if_false, Bool.true_and, if_true]
  cases (d.store R.HST_EVR_CFG p val (Nat.land mask 0xFFFFFF0F)).ringOn p <;> rfl

theorem Dev.wEvrCfg_enables {d : Dev} (hr : keysRising 0 d.regs = true) (hports : d.hst.ports.length = 2) {p : Fin 2} {val : Nat} (hoff : d.ringOn p = false)
    (hset : setsBit val 0) :
    let e := d.wEvrCfg p val mask32
    d.ChangesOnly e [.hst] [R.HST_EVR_CFG.addr p, R.HST_EVR_HEAD.addr p, R.HST_EVR_TAIL.addr p] ∧ e.ringOn p = true ∧ e.rd F.HST_EVR_HEAD_HEAD p = 0 ∧
      e.rd F.HST_EVR_HEAD_PHASE p = 1 ∧ e.rd F.HST_EVR_TAIL_TAIL p = 0 ∧ (e.port p).seq = 0 ∧ (e.port p).base = d.rd F.HST_EVR_BASE_BASE p * 4096 ∧
      (e.port p).lost = (d.port p).lost ∧ (e.port p).log = if val / 16 % 16 = 0 then 16 else max 6 (val / 16 % 16) := by
  intro e
  have hc : d.ChangesOnly (d.store R.HST_EVR_CFG p val mask32) [] [R.HST_EVR_CFG.addr p] := .store .keep (findReg_HST_EVR_CFG p) List.mem_cons_self
  have henable : (d.store R.HST_EVR_CFG p val mask32).rd F.HST_EVR_CFG_ENABLE p = 1 :=
    (Dev.rd_store_any (f := F.HST_EVR_CFG_ENABLE) (findReg_HST_EVR_CFG p) (by simp) hr rfl rfl (by decide)).trans (fieldOf_bit hset)
  have hlog : (d.store R.HST_EVR_CFG p val mask32).rd F.HST_EVR_CFG_LOG_ENTRIES p = Clamp.evrLog.app 4 (fieldOf 4 4 val) % 2 ^ 4 :=
    Dev.rd_store_rw (f := F.HST_EVR_CFG_LOG_ENTRIES) (findReg_HST_EVR_CFG p) (by simp) hr rfl (by decide)
  have hbase : (d.store R.HST_EVR_CFG p val mask32).rd F.HST_EVR_BASE_BASE p = d.rd F.HST_EVR_BASE_BASE p :=
    hc.rd (by rw [List.mem_singleton]; exact (ringRegs_apart p).2.2.2.2.2.2)
  have hport : (d.store R.HST_EVR_CFG p val mask32).port p = d.port p := by
    rw [Dev.port, Dev.port, show (d.store R.HST_EVR_CFG p val mask32).hst = d.hst from hc.parts .hst List.not_mem_nil]
  have hgoes : e = (d.store R.HST_EVR_CFG p val mask32).enableRing p := by
    refine (Dev.wEvrCfg_off hoff val mask32).trans (if_pos ?_)
    rw [Dev.ringOn_of_rd henable]
    decide
  obtain ⟨hch, h1, h2, h3, h4⟩ := Dev.enableRing_spec (hc.rising hr) (by rw [show (d.store R.HST_EVR_CFG p val mask32).hst = d.hst from hc.parts .hst List.not_mem_nil]; exact hports) p
  obtain ⟨-, hhead, htail, -, -, -, -⟩ := ringRegs_apart p
  rw [hgoes]
  refine ⟨(hc.mono (by simp) (by simp)).trans (hch.mono (fun _ => id) fun _ => List.mem_cons_of_mem _), ?_, h1, h2, h3, by rw [h4], by rw [h4, hbase], by rw [h4, hport], ?_⟩
  · exact Dev.ringOn_of_rd ((hch.rd (f := F.HST_EVR_CFG_ENABLE) (by simpa using ⟨hhead.symm, htail.symm⟩)).trans henable)
  · rw [h4, hlog]
    have hval : fieldOf 4 4 val = val / 16 % 16 := rfl
    rw [hval]
    have hlt := Nat.mod_lt (val / 16) (show 0 < 16 by decide)
    generalize val / 16 % 16 = v at hlt
    interval_cases v <;> rfl

/-- A counter that saturates. -/
theorem Fld.sum_sat {f : Fld} (h : f.sat = true) (a n : Nat) : f.sum a n = min (a + n) (2 ^ f.w - 1) := by
  have hpow : (2 ^ f.w - 1 : Int) = ((2 ^ f.w - 1 : Nat) : Int) := by
    rw [Nat.cast_sub Nat.one_le_two_pow]
    simp
  rw [Fld.sum, if_pos h, hpow]
  unfold clampInt
  omega

/-- A disabled ring discards what waits, and counts it (R288). -/
theorem Dev.disableRing_spec {d : Dev} (hr : keysRising 0 d.regs = true) (hports : d.hst.ports.length = 2) (p : Fin 2) :
    let e := d.disableRing p
    d.ChangesOnly e [.hst] [R.HST_EVR_STAT.addr p] ∧ (e.port p).queue = [] ∧ e.rd F.HST_EVR_STAT_WAITING p = 0 ∧
      e.rd F.HST_EVR_STAT_LOST p = min (d.rd F.HST_EVR_STAT_LOST p + (d.port p).queue.length) 65535 := by
  intro e
  have hb := (Dev.ChangesOnly.keep (d := d) (ps := [.hst]) (rs := [R.HST_EVR_STAT.addr p])).bump (f := F.HST_EVR_STAT_LOST) (i := p) (n := (d.port p).queue.length) List.mem_cons_self
  have hport := Dev.port_setPort (d := d.bump F.HST_EVR_STAT_LOST p (d.port p).queue.length) hports p
    fun h => { h with queue := [], lost := h.lost || decide ((d.port p).queue.length ≠ 0) }
  have hrise := hb.rising hr
  refine ⟨(hb.setHst List.mem_cons_self).wr List.mem_cons_self, congrArg HostPort.queue hport, ?_, ?_⟩
  · refine (Dev.rd_wr_self _ F.HST_EVR_STAT_WAITING _ _ (by decide) hrise).trans ?_
    rw [hport]
    rfl
  · refine (Dev.rd_wr_beside (f := F.HST_EVR_STAT_WAITING) (g := F.HST_EVR_STAT_LOST) ⟨rfl, by decide, by decide⟩ _ _ hrise).trans ?_
    exact (Dev.rd_bump_self d F.HST_EVR_STAT_LOST p _ (by decide) hr).trans (Fld.sum_sat rfl _ _)

theorem Dev.wEvrCfg_disables {d : Dev} (hr : keysRising 0 d.regs = true) (hports : d.hst.ports.length = 2) {p : Fin 2} {val : Nat} (hon : d.ringOn p = true)
    (hclear : ¬ setsBit val 0) :
    let e := d.wEvrCfg p val mask32
    d.ChangesOnly e [.hst] [R.HST_EVR_CFG.addr p, R.HST_EVR_STAT.addr p] ∧ e.ringOn p = false ∧ (e.port p).queue = [] ∧ e.rd F.HST_EVR_STAT_WAITING p = 0 ∧
      e.rd F.HST_EVR_STAT_LOST p = min (d.rd F.HST_EVR_STAT_LOST p + (d.port p).queue.length) 65535 := by
  intro e
  have hc : d.ChangesOnly (d.store R.HST_EVR_CFG p val (Nat.land mask32 0xFFFFFF0F)) [] [R.HST_EVR_CFG.addr p] := .store .keep (findReg_HST_EVR_CFG p) List.mem_cons_self
  have henable : (d.store R.HST_EVR_CFG p val (Nat.land mask32 0xFFFFFF0F)).rd F.HST_EVR_CFG_ENABLE p = 0 :=
    (Dev.rd_store_any (f := F.HST_EVR_CFG_ENABLE) (findReg_HST_EVR_CFG p) (by simp) hr rfl rfl (by decide)).trans ((fieldOf_one _ _).trans (if_neg hclear))
  have hhst : (d.store R.HST_EVR_CFG p val (Nat.land mask32 0xFFFFFF0F)).hst = d.hst := hc.parts .hst List.not_mem_nil
  obtain ⟨-, -, -, -, hstat, -, -⟩ := ringRegs_apart p
  have hlost : (d.store R.HST_EVR_CFG p val (Nat.land mask32 0xFFFFFF0F)).rd F.HST_EVR_STAT_LOST p = d.rd F.HST_EVR_STAT_LOST p :=
    hc.rd (by rw [List.mem_singleton]; exact hstat)
  have hgoes : e = (d.store R.HST_EVR_CFG p val (Nat.land mask32 0xFFFFFF0F)).disableRing p :=
    (Dev.wEvrCfg_on hon val mask32).trans (if_neg (by rw [Dev.ringOn_of_rd henable]; decide))
  obtain ⟨hch, h1, h2, h3⟩ := Dev.disableRing_spec (hc.rising hr) (by rw [hhst]; exact hports) p
  rw [hgoes]
  refine ⟨(hc.mono (by simp) (by simp)).trans (hch.mono (fun _ => id) fun _ => List.mem_cons_of_mem _), ?_, h1, h2, h3.trans (by rw [hlost, Dev.port, Dev.port, hhst])⟩
  exact Dev.ringOn_of_rd ((hch.rd (f := F.HST_EVR_CFG_ENABLE) (by rw [List.mem_singleton]; exact hstat.symm)).trans henable)

/-- A message of vector 0 as moderation ends (R291). -/
theorem Dev.moderationEnd_message {d : Dev} {p : Fin 2} (hdue : (d.port p).modDue = true) (hbus : (d.port p).busMaster = true) :
    d.moderationEnd p = (d.message p 0).setPort p fun h => { h with modDue := false } :=
  if_pos (by rw [hdue, hbus]; rfl)

theorem Dev.message_sends {d : Dev} {p : Fin 2} (hon : (d.port p).msixOn = true) (hmask : (d.port p).msixMask = false) (hentry : (at' (d.port p).msix 0).masked = false) :
    d.message p 0 = (d.emit (.msix p 0 (at' (d.port p).msix 0).addr (at' (d.port p).msix 0).data)).setPort p
      fun h => { h with modUntil := d.tmb.beats + d.rd F.HST_EVR_CFG_MOD p } := by
  unfold Dev.message
  simp only [hon, hmask, Fin.val_zero, hentry]
  rfl

theorem Dev.message_pends {d : Dev} {p : Fin 2} (hon : (d.port p).msixOn = true) (hmask : (d.port p).msixMask = true ∨ (at' (d.port p).msix 0).masked = true) :
    d.message p 0 = d.setPort p fun h => { h with msix := h.msix.modify 0 fun e => { e with pending := true } } := by
  have hmasked : ((d.port p).msixMask || (at' (d.port p).msix 0).masked) = true := by simpa using hmask
  unfold Dev.message
  simp only [hon, Fin.val_zero, hmasked]
  rfl

/-! ### A posted event (R289) -/

/-- SEQ of port p counts an event that the port is to hear. -/
def Dev.seqTaken (d : Dev) (p : Fin 2) : Dev := d.setPort p fun h => { h with seq := ((d.port p).seq + 1) % 2 ^ 32 }

theorem Dev.postTo_eq (d : Dev) (p : Fin 2) (ev : Ev) : d.postTo p ev =
    let e := d.seqTaken p
    if !d.ringOn p then d
    else if (e.port p).queue.isEmpty && e.canWrite p then e.writeEntry p (d.port p).seq ev
    else if (e.port p).queue.length < 64 then (e.setPort p fun h => { h with queue := h.queue ++ [((d.port p).seq, ev)] }).showQueueOf p
    else (e.bump F.HST_EVR_STAT_LOST p 1).setPort p fun h => { h with lost := true } := rfl

section
variable {d : Dev} {p : Fin 2} (hr : keysRising 0 d.regs = true) (hports : d.hst.ports.length = 2) (hon : d.ringOn p = true) (ev : Ev)
include hports

theorem Dev.port_seqTaken : (d.seqTaken p).port p = { d.port p with seq := ((d.port p).seq + 1) % 2 ^ 32 } := Dev.port_setPort hports p _

theorem Dev.canWrite_seqTaken : (d.seqTaken p).canWrite p = d.canWrite p :=
  Dev.canWrite_congr rfl (by rw [Dev.port_seqTaken hports]) (by rw [Dev.port_seqTaken hports])

theorem Dev.seqTaken_length : (d.seqTaken p).hst.ports.length = 2 := (Dev.setPort_length ..).trans hports

include hr hon

/-- An event that cannot be written joins the queue with the next SEQ. -/
theorem Dev.postTo_joins (hwait : (d.port p).queue ≠ [] ∨ d.canWrite p = false) (hroom : (d.port p).queue.length < 64) :
    d.ChangesOnly (d.postTo p ev) [.hst] [R.HST_EVR_STAT.addr p] ∧
      (d.postTo p ev).port p = { d.port p with queue := (d.port p).queue ++ [((d.port p).seq, ev)], seq := ((d.port p).seq + 1) % 2 ^ 32 } ∧
      (d.postTo p ev).port (1 - p.val) = d.port (1 - p.val) ∧ (d.postTo p ev).rd F.HST_EVR_STAT_WAITING p = (d.port p).queue.length + 1 := by
  have hport := Dev.port_setPort_twice hports p (fun h => { h with seq := ((d.port p).seq + 1) % 2 ^ 32 }) fun h => { h with queue := h.queue ++ [((d.port p).seq, ev)] }
  have hgoes : d.postTo p ev = ((d.seqTaken p).setPort p fun h => { h with queue := h.queue ++ [((d.port p).seq, ev)] }).showQueueOf p := by
    rw [Dev.postTo_eq]
    simp only [Dev.canWrite_seqTaken hports, Dev.port_seqTaken hports, hon, hroom, if_true, Bool.not_true, Bool.false_eq_true, if_false]
    refine if_neg ?_
    simpa [List.isEmpty_iff] using fun h0 => hwait.resolve_left (not_not_intro h0)
  rw [hgoes]
  refine ⟨((Dev.ChangesOnly.keep.setHst (by decide)).setHst (by decide)).wr List.mem_cons_self, hport, ?_, ?_⟩
  · exact (Dev.port_setPort_other (d.seqTaken p) p _).trans (Dev.port_setPort_other d p _)
  · refine (Dev.rd_wr_self _ F.HST_EVR_STAT_WAITING _ _ (by decide) hr).trans ?_
    rw [show ((d.seqTaken p).setPort p fun h => { h with queue := h.queue ++ [((d.port p).seq, ev)] }).port p = _ from hport, List.length_append]
    exact Nat.mod_eq_of_lt (by change (d.port p).queue.length + 1 < 128; omega)

/-- With 64 events waiting an event is lost and counted. -/
theorem Dev.postTo_loses (hfull : 64 ≤ (d.port p).queue.length) :
    d.ChangesOnly (d.postTo p ev) [.hst] [R.HST_EVR_STAT.addr p] ∧
      (d.postTo p ev).port p = { d.port p with lost := true, seq := ((d.port p).seq + 1) % 2 ^ 32 } ∧
      (d.postTo p ev).rd F.HST_EVR_STAT_LOST p = min (d.rd F.HST_EVR_STAT_LOST p + 1) 65535 := by
  have hport := Dev.port_setPort_twice hports p (fun h => { h with seq := ((d.port p).seq + 1) % 2 ^ 32 }) fun h => { h with lost := true }
  have hgoes : d.postTo p ev = ((d.seqTaken p).bump F.HST_EVR_STAT_LOST p 1).setPort p fun h => { h with lost := true } := by
    have hqueue : (d.port p).queue.isEmpty = false := by
      rw [List.isEmpty_eq_false_iff]
      rintro h0
      rw [h0] at hfull
      exact absurd hfull (by decide)
    rw [Dev.postTo_eq]
    simp only [Dev.canWrite_seqTaken hports, Dev.port_seqTaken hports, hon, hqueue, Bool.not_true, Bool.false_eq_true, if_false, Bool.false_and]
    exact if_neg (by omega)
  rw [hgoes]
  refine ⟨((Dev.ChangesOnly.keep.setHst (by decide)).bump List.mem_cons_self).setHst (by decide), hport, ?_⟩
  exact (Dev.rd_bump_self (d.seqTaken p) F.HST_EVR_STAT_LOST p 1 (by decide) hr).trans (Fld.sum_sat rfl _ 1)

/-- With nothing waiting and space in the ring an event is written at once. -/
theorem Dev.postTo_writes (hempty : (d.port p).queue = []) (hcan : d.canWrite p = true) (hlog : (d.port p).log ≤ 16) :
    d.ChangesOnly (d.postTo p ev) [.hst, .out] [R.HST_EVR_HEAD.addr p] ∧ ((d.postTo p ev).port p).queue = [] ∧
      ((d.postTo p ev).port p).seq = ((d.port p).seq + 1) % 2 ^ 32 ∧ ((d.postTo p ev).port p).lost = false ∧
      (d.postTo p ev).out[d.out.length]? = some (d.entryOut p (d.port p).seq ev) ∧
      (d.postTo p ev).rd F.HST_EVR_HEAD_HEAD p = (d.evHead p + 1) % 2 ^ (d.port p).log := by
  have hgoes : d.postTo p ev = (d.seqTaken p).writeEntry p (d.port p).seq ev := by
    rw [Dev.postTo_eq]
    simp only [Dev.canWrite_seqTaken hports, Dev.port_seqTaken hports, hon, hempty, hcan]
    rfl
  have hport := Dev.port_seqTaken (p := p) hports
  have hw := Dev.writeEntry_writes (d := d.seqTaken p) hr (Dev.seqTaken_length hports) p (d.port p).seq ev (by rw [hport]; exact hlog)
  rw [hgoes]
  refine ⟨(Dev.ChangesOnly.keep.setHst (by decide)).trans hw.changes, hw.queue.trans (by rw [hport]; exact hempty), hw.seqKept.trans (by rw [hport]), hw.lost, ?_, ?_⟩
  · refine hw.out.trans ?_
    rw [Dev.entryOut, hport]
    rfl
  · refine hw.head.trans ?_
    rw [hport]
    rfl

end

/-- The oldest event, addressed to one port, goes to that port. -/
theorem Dev.eventPost_eq {d : Dev} {ev : Ev} {rest : List Ev} {p : Fin 2} (h : d.raised = ev :: rest) (h0 : ev.p0 = decide (p = 0)) (h1 : ev.p1 = decide (p = 1)) :
    d.eventPost = ({ d with raised := rest } : Dev).postTo p ev := by
  unfold Dev.eventPost
  rw [h]
  match p with
  | 0 => simp only [h0, h1]; rfl
  | 1 => simp only [h0, h1]; rfl

/-- Settles O8: what each command does to a ring is one branch of its definition; an entry that is written is `Dev.Writes`. -/
theorem eventRings : Obligations.EventRings := by
  unfold Obligations.EventRings
  refine ⟨?enable, ?post, ?write, ?tail, ?moderation, ?disable⟩
  case enable =>
    intro m p val s hinv htakes hp hoff hset
    have hon : (s.dev.touch m).ringOn p = false := by rw [Dev.ringOn, Dev.on, Dev.rd_touch]; exact hoff
    have hport : (s.dev.touch m).port p = s.dev.port p := by rw [Dev.port, Dev.touch_hst, Dev.port]
    obtain ⟨hc, h1, h2, h3, h4, h5, h6, h7, h8⟩ :=
      Dev.wEvrCfg_enables (Dev.touch_rising m hinv.regs) (by rw [Dev.touch_hst]; exact hinv.ports) hon hset
    exact ⟨_, .writesOwn _ rfl htakes hp rfl hc, h1, h2, h3, h4, h5, h6.trans (by rw [Dev.rd_touch]), h7.trans (by rw [hport]), h8⟩
  case post =>
    intro ev rest p s h hinv hraised h0 h1
    have hpost := Dev.eventPost_eq (d := s.dev) hraised h0 h1
    have hc : s.dev.ChangesOnly { s.dev with raised := rest } [.raised] [] := .setRaised .keep (by decide)
    have hlift : ∀ {e : Dev} {ps : List Part} {rs : List Nat}, ({ s.dev with raised := rest } : Dev).ChangesOnly e ps rs → Part.raised ∉ ps →
        s.dev.ChangesOnly e (.raised :: ps) rs ∧ e.raised = rest := fun he hp =>
      ⟨(hc.mono (by simp) (by simp)).trans (he.mono (fun _ => List.mem_cons_of_mem _) fun _ => id), he.parts .raised hp⟩
    refine ⟨fun hoff => ?off, fun hring hwait hroom => ?joins, fun hring hfull => ?lost, fun hring hempty hwrite hlog => ?writes⟩
    case off => exact ⟨_, .act Dev.eventPost rfl (hpost.trans (if_pos (by rw [show ({ s.dev with raised := rest } : Dev).ringOn p = false from hoff]; rfl))) hc, rfl⟩
    case joins =>
      obtain ⟨he, h1, h2, h3⟩ := Dev.postTo_joins (d := { s.dev with raised := rest }) hinv.regs hinv.ports hring ev hwait hroom
      obtain ⟨hch, hrest⟩ := hlift he (by decide)
      exact ⟨_, .act Dev.eventPost rfl hpost hch, hrest, h1, h2, h3⟩
    case lost =>
      obtain ⟨he, h1, h2⟩ := Dev.postTo_loses (d := { s.dev with raised := rest }) hinv.regs hinv.ports hring ev hfull
      obtain ⟨hch, hrest⟩ := hlift he (by decide)
      exact ⟨_, .act Dev.eventPost rfl hpost hch, hrest, h1, h2⟩
    case writes =>
      obtain ⟨he, h1, h2, h3, h4, h5⟩ := Dev.postTo_writes (d := { s.dev with raised := rest }) hinv.regs hinv.ports hring ev hempty hwrite hlog
      obtain ⟨hch, hrest⟩ := hlift he (by decide)
      exact ⟨_, .act Dev.eventPost rfl hpost hch, hrest, h1, h2, h3, h4, h5⟩
  case write =>
    intro p seq ev rest s hinv hqueue hon hcan hlog head
    have hgoes : s.dev.ringWrite p = (((s.dev.setPort p fun h => { h with queue := rest }).showQueueOf p).writeEntry p seq ev) := by
      unfold Dev.ringWrite
      rw [hqueue]
      exact if_neg (by rw [hon, hcan]; decide)
    have hport := Dev.port_setPort hinv.ports p fun h => { h with queue := rest }
    have hshow : s.dev.ChangesOnly ((s.dev.setPort p fun h => { h with queue := rest }).showQueueOf p) [.hst, .out] [R.HST_EVR_STAT.addr p] :=
      (Dev.ChangesOnly.keep.setHst (by decide)).wr List.mem_cons_self
    have hheadReg : R.HST_EVR_HEAD.addr p ∉ [R.HST_EVR_STAT.addr p] := by rw [List.mem_singleton]; exact (ringRegs_apart p).1
    have hhead : ((s.dev.setPort p fun h => { h with queue := rest }).showQueueOf p).evHead p = s.dev.rd F.HST_EVR_HEAD_HEAD p := hshow.rd hheadReg
    have hphase : ((s.dev.setPort p fun h => { h with queue := rest }).showQueueOf p).on F.HST_EVR_HEAD_PHASE p = s.dev.on F.HST_EVR_HEAD_PHASE p := by
      rw [Dev.on, hshow.rd (f := F.HST_EVR_HEAD_PHASE) hheadReg, Dev.on]
    have hshown : ((s.dev.setPort p fun h => { h with queue := rest }).showQueueOf p).port p = { s.dev.port p with queue := rest } := hport
    have hlen : ((s.dev.setPort p fun h => { h with queue := rest }).showQueueOf p).hst.ports.length = 2 := (Dev.setPort_length ..).trans hinv.ports
    have hout : ((s.dev.setPort p fun h => { h with queue := rest }).showQueueOf p).out = s.dev.out := rfl
    generalize (s.dev.setPort p fun h => { h with queue := rest }).showQueueOf p = x at *
    have hw := Dev.writeEntry_writes (hshow.rising hinv.regs) hlen p seq ev (by rw [hshown]; exact hlog)
    refine ⟨_, .act (fun d => d.ringWrite p) rfl hgoes ((hshow.mono (fun _ => id) (by simp)).trans (hw.changes.mono (fun _ => id) (by simp))),
      hw.queue.trans (by rw [hshown]), hw.lost, ?_, hw.head.trans (by rw [hhead, hshown]), hw.phase.trans (by rw [hphase, hhead, hshown])⟩
    rw [← hout]
    refine hw.out.trans ?_
    rw [Dev.entryOut, hshown, hhead, hphase]
  case tail =>
    intro m p val s hinv htakes hp
    have hc : (s.dev.touch m).ChangesOnly ((s.dev.touch m).store R.HST_EVR_TAIL p val mask32) [] [R.HST_EVR_TAIL.addr p] :=
      .store .keep (findReg_HST_EVR_TAIL p) List.mem_cons_self
    refine ⟨_, .writesOwn (fun d => d.store R.HST_EVR_TAIL p val mask32) rfl htakes hp rfl hc, ?_⟩
    exact (Dev.rd_store_any (f := F.HST_EVR_TAIL_TAIL) (findReg_HST_EVR_TAIL p) (by simp) (Dev.touch_rising m hinv.regs) rfl rfl (by decide)).trans (fieldOf_zero _ _)
  case moderation =>
    intro p s h e hinv hdue hbus hmsix
    have hend := Dev.moderationEnd_message (d := s.dev) hdue hbus
    refine ⟨fun hmask hentry => ?_, fun hmask => ?_⟩
    · rw [Dev.message_sends hmsix hmask hentry] at hend
      refine ⟨_, .act (fun d => d.moderationEnd p) rfl hend (((Dev.ChangesOnly.keep.setOut (by decide)).setHst (by decide)).setHst (by decide)), rfl, ?_⟩
      exact Dev.port_setPort_twice (d := s.dev.emit (.msix p 0 (at' (s.dev.port p).msix 0).addr (at' (s.dev.port p).msix 0).data)) hinv.ports p _ _
    · rw [Dev.message_pends hmsix hmask] at hend
      refine ⟨_, .act (fun d => d.moderationEnd p) rfl hend ((Dev.ChangesOnly.keep.setHst (by decide)).setHst (by decide)), ?_⟩
      exact (Dev.port_setPort_twice hinv.ports p _ _).trans (by rw [modify_eq_set])
  case disable =>
    intro m p val s hinv htakes hp hon hclear
    have hon' : (s.dev.touch m).ringOn p = true := by rw [Dev.ringOn, Dev.on, Dev.rd_touch]; exact hon
    have hport : (s.dev.touch m).port p = s.dev.port p := by rw [Dev.port, Dev.touch_hst, Dev.port]
    obtain ⟨hc, h1, h2, h3, h4⟩ := Dev.wEvrCfg_disables (Dev.touch_rising m hinv.regs) (by rw [Dev.touch_hst]; exact hinv.ports) hon' hclear
    exact ⟨_, .writesOwn _ rfl htakes hp rfl hc, h1, h2, h3, h4.trans (by rw [Dev.rd_touch, hport])⟩

/-! ### Mailboxes of the management channel (R195, R197) -/

theorem boxIdx_lt (l : Fin 32) (p : Fin 2) : boxIdx l p < 64 := by unfold boxIdx; omega

theorem boxRegs_apart (l : Fin 32) (p : Fin 2) : (∀ a ∈ R.SYS_FAULT_STAT.addr 0 :: R.HL_STAT.addr l :: eventRegs,
    a ≠ R.HL_MGMT_STAT.addr (boxIdx l p) ∧ a ≠ R.HL_MGMT_CMD.addr (boxIdx l p)) ∧ R.HL_MGMT_STAT.addr (boxIdx l p) ≠ R.HL_MGMT_CMD.addr (boxIdx l p) := by
  have h : ∀ l : Fin 32, ∀ p : Fin 2, (∀ a ∈ R.SYS_FAULT_STAT.addr 0 :: R.HL_STAT.addr l :: eventRegs,
    a ≠ R.HL_MGMT_STAT.addr (boxIdx l p) ∧ a ≠ R.HL_MGMT_CMD.addr (boxIdx l p)) ∧ R.HL_MGMT_STAT.addr (boxIdx l p) ≠ R.HL_MGMT_CMD.addr (boxIdx l p) := by decide +kernel
  exact h l p

theorem Dev.setLink_at (d : Dev) {α : Type} (g : LinkSt → α) (l k : Nat) {f : LinkSt → LinkSt} (hf : ∀ x, g (f x) = g x) : g ((d.setLink l f).link k) = g (d.link k) := by
  by_cases hk : l = k
  · subst hk
    by_cases hlen : l < d.hl.length
    · rw [Dev.link_setLink f hlen, hf]
    · simp only [Dev.link, Dev.setLink, at', List.getD_eq_getElem?_getD]
      rw [List.getElem?_eq_none (by simpa using hlen), List.getElem?_eq_none (by simpa using hlen)]
  · rw [Dev.link_setLink_ne _ _ hk]

section
variable {d : Dev} {l p : Nat}

theorem Dev.req_setReq (hl : l < d.hl.length) (hp : p < (d.link l).reqs.length) (r : Option MgReq) : (d.setReq l p r).req l p = r := by
  rw [Dev.req, Dev.setReq, Dev.link_setLink _ hl, at', List.getD_eq_getElem?_getD, List.getElem?_set_self hp]
  rfl

theorem Dev.grantNext_cases (d : Dev) (l : Nat) : d.grantNext l = d ∨ ∃ k, d.grantNext l = d.setLink l fun x => { x with grant := some ((x.last + k) % 3), last := (x.last + k) % 3 } := by
  unfold Dev.grantNext
  dsimp only
  split
  · exact .inl rfl
  · split
    · exact .inr ⟨_, rfl⟩
    · exact .inl rfl

/-- Granting the channel changes no request, no check and no other part. -/
theorem Dev.grantNext_keeps (d : Dev) (l k : Nat) : d.ChangesOnly (d.grantNext l) [.hl] [] ∧ ((d.grantNext l).link k).reqs = (d.link k).reqs ∧
    ((d.grantNext l).link k).check = (d.link k).check ∧ (d.grantNext l).hl.length = d.hl.length := by
  rcases d.grantNext_cases l with h | ⟨q, h⟩ <;> rw [h]
  · exact ⟨.keep, rfl, rfl, rfl⟩
  · exact ⟨.setHl .keep (by decide), d.setLink_at LinkSt.reqs l k fun _ => rfl, d.setLink_at LinkSt.check l k fun _ => rfl, Dev.setLink_length ..⟩

/-- A request that is given up is gone, and nothing else of the link's checks changes. -/
theorem Dev.dropReq_spec (hl : l < d.hl.length) (hp : p < (d.link l).reqs.length) :
    d.ChangesOnly (d.dropReq l p) [.hl] [] ∧ (d.dropReq l p).req l p = none ∧ ((d.dropReq l p).link l).check = (d.link l).check ∧ (d.dropReq l p).hl.length = d.hl.length := by
  have hset : d.ChangesOnly (d.setReq l p none) [.hl] [] := .setHl .keep (by decide)
  have hcheck : ((d.setReq l p none).link l).check = (d.link l).check := d.setLink_at LinkSt.check l l fun _ => rfl
  have hfree : ∀ {α : Type} (g : LinkSt → α), (∀ x, g { x with grant := none } = g x) →
      g (((d.setReq l p none).setLink l fun x => { x with grant := none }).link l) = g ((d.setReq l p none).link l) := fun g hg => Dev.setLink_at _ g l l hg
  have hlen : (d.setReq l p none).hl.length = d.hl.length := Dev.setLink_length ..
  unfold Dev.dropReq
  dsimp only
  split
  · obtain ⟨hc, hreqs, hch, hlen'⟩ := Dev.grantNext_keeps ((d.setReq l p none).setLink l fun x => { x with grant := none }) l l
    refine ⟨(hset.setHl (by decide)).trans hc, ?_, hch.trans ((hfree LinkSt.check fun _ => rfl).trans hcheck), hlen'.trans ((Dev.setLink_length ..).trans hlen)⟩
    rw [Dev.req, hreqs, hfree LinkSt.reqs fun _ => rfl]
    exact Dev.req_setReq hl hp none
  · exact ⟨hset, Dev.req_setReq hl hp none, hcheck, hlen⟩

/-- The next TAG is taken. -/
def Dev.tagged (d : Dev) (l : Nat) : Dev := d.setLink l fun x => { x with tag := ((d.link l).tag + 1) % 256 }

theorem Dev.queueReq_eq (d : Dev) (l p : Nat) (r : MgReq) :
    d.queueReq l p r = ((d.tagged l).setReq l p (some { r with tag := ((d.link l).tag + 1) % 256 })).grantNext l := rfl

/-- A queued request waits with the next TAG (R195). -/
theorem Dev.queueReq_spec (hl : l < d.hl.length) (hp : p < (d.link l).reqs.length) (r : MgReq) :
    d.ChangesOnly (d.queueReq l p r) [.hl] [] ∧ (d.queueReq l p r).req l p = some { r with tag := ((d.link l).tag + 1) % 256 } := by
  have htag : d.ChangesOnly (d.tagged l) [.hl] [] := .setHl .keep (by decide)
  have hreqs : ((d.tagged l).link l).reqs = (d.link l).reqs := d.setLink_at LinkSt.reqs l l fun _ => rfl
  have hlen : (d.tagged l).hl.length = d.hl.length := Dev.setLink_length ..
  rw [Dev.queueReq_eq]
  generalize d.tagged l = x at *
  obtain ⟨hc, hkept, -, -⟩ := Dev.grantNext_keeps (x.setReq l p (some { r with tag := ((d.link l).tag + 1) % 256 })) l l
  refine ⟨(htag.setHl (by decide)).trans hc, ?_⟩
  rw [Dev.req, hkept]
  exact Dev.req_setReq (by omega) (by rw [hreqs]; exact hp) _

end

/-- What the end of a host's request shows and posts (R197). -/
theorem Dev.mgmtDone_spec {d : Dev} (hr : keysRising 0 d.regs = true) (l : Fin 32) (p : Fin 2) (result tag : Nat) :
    let e := d.mgmtDone l p result tag; let i := boxIdx l p
    d.ChangesOnly e [.raised] [R.HL_MGMT_STAT.addr i] ∧ e.rd F.HL_MGMT_STAT_BUSY i = 0 ∧ e.rd F.HL_MGMT_STAT_DONE i = 1 ∧ e.rd F.HL_MGMT_STAT_RESULT i = result % 16 ∧
      e.raised = d.raised ++ [d.event (.port p) 0x0B08 [(1, l), (1, p), (1, result), (2, tag)]] := by
  intro e i
  obtain ⟨hne, -⟩ := boxRegs_apart l p
  have c1 := (Dev.ChangesOnly.keep (d := d) (ps := []) (rs := [R.HL_MGMT_STAT.addr i])).wrB (f := F.HL_MGMT_STAT_BUSY) (i := i) (b := false) List.mem_cons_self
  have c2 := c1.wrB (f := F.HL_MGMT_STAT_DONE) (i := i) (b := true) List.mem_cons_self
  have c3 := c2.wr (f := F.HL_MGMT_STAT_RESULT) (i := i) (v := result) List.mem_cons_self
  have r1 := c1.rising hr
  have r2 := c2.rising hr
  have hrd : ∀ f : Fld, f.reg = R.HL_MGMT_STAT → e.rd f i = (((d.wrB F.HL_MGMT_STAT_BUSY i false).wrB F.HL_MGMT_STAT_DONE i true).wr F.HL_MGMT_STAT_RESULT i result).rd f i :=
    fun f hf => Dev.rd_raise_ne _ _ _ _ _ _ (by rw [hf]; exact (hne _ List.mem_cons_self).1.symm)
  have hevent := c3.event List.not_mem_nil (fun a ha => by rw [List.mem_singleton]; exact (hne a (List.mem_cons_of_mem _ (List.mem_cons_of_mem _ ha))).1) (.port p) 0x0B08
    [(1, l.val), (1, p.val), (1, result), (2, tag)]
  refine ⟨(c3.mono (by simp) fun _ => id).raise List.mem_cons_self (.inl (by decide)), ?_, ?_, ?_, ?_⟩
  · rw [hrd _ rfl, Dev.rd_wr_beside (f := F.HL_MGMT_STAT_RESULT) (g := F.HL_MGMT_STAT_BUSY) ⟨rfl, by decide, by decide⟩ _ _ r2, Dev.wrB,
      Dev.rd_wr_beside (f := F.HL_MGMT_STAT_DONE) (g := F.HL_MGMT_STAT_BUSY) ⟨rfl, by decide, by decide⟩ _ _ r1]
    exact Dev.rd_wrB_self _ _ _ _ (by decide) (by decide) hr
  · rw [hrd _ rfl, Dev.rd_wr_beside (f := F.HL_MGMT_STAT_RESULT) (g := F.HL_MGMT_STAT_DONE) ⟨rfl, by decide, by decide⟩ _ _ r2]
    exact Dev.rd_wrB_self _ _ _ _ (by decide) (by decide) r1
  · rw [hrd _ rfl]
    exact Dev.rd_wr_self _ _ _ _ (by decide) r2
  · rw [← hevent]
    exact Dev.raise_raised ..

theorem findReg_HL_MGMT_CMD (i : Fin 64) : findReg (R.HL_MGMT_CMD.addr i) regTable = some ⟨⟨R.HL_MGMT_CMD,
    [F.HL_MGMT_CMD_ADDR, F.HL_MGMT_CMD_COUNT, F.HL_MGMT_CMD_WRITE, F.HL_MGMT_CMD_GO, F.HL_MGMT_CMD_CANCEL]⟩, i, false⟩ := by
  have h : ∀ i : Fin 64, ∀ row ∈ regTable.take 108, R.HL_MGMT_CMD.addr i < row.reg.base ∨ row.reg.top < R.HL_MGMT_CMD.addr i := by decide +kernel
  rw [findReg_drop 108 (h i)]
  fin_cases i <;> rfl

/-- The words of a read answer that the mailbox takes. -/
def Dev.boxData (d : Dev) (i : Nat) (ws : List Nat) : Dev := ws.zipIdx.foldl (fun d w => d.wr F.HL_MGMT_DATA_DATA (i * 8 + w.2) w.1) d

/-- The mailbox's first n data registers. -/
def boxDataRegs (i n : Nat) : List Nat := (List.range n).map fun k => R.HL_MGMT_DATA.addr (i * 8 + k)

theorem boxDataRegs_mono (i : Nat) {n m : Nat} (h : n ≤ m) : ∀ a ∈ boxDataRegs i n, a ∈ boxDataRegs i m := by
  intro a ha
  obtain ⟨k, hk, rfl⟩ := List.mem_map.mp ha
  exact List.mem_map_of_mem (List.mem_range.mpr (Nat.lt_of_lt_of_le (List.mem_range.mp hk) h))

theorem boxDataRegs_apart (i : Fin 64) : (∀ j k : Fin 8, j ≠ k → R.HL_MGMT_DATA.addr (i * 8 + j) ≠ R.HL_MGMT_DATA.addr (i * 8 + k)) ∧
    ∀ a ∈ R.HL_MGMT_STAT.addr i :: eventRegs, a ∉ boxDataRegs i 8 := by
  have h : ∀ i : Fin 64, (∀ j k : Fin 8, j ≠ k → R.HL_MGMT_DATA.addr (i * 8 + j) ≠ R.HL_MGMT_DATA.addr (i * 8 + k)) ∧
    ∀ a ∈ R.HL_MGMT_STAT.addr i :: eventRegs, a ∉ boxDataRegs i 8 := by decide +kernel
  exact h i

theorem Dev.boxData_spec {d : Dev} (hr : keysRising 0 d.regs = true) (i : Fin 64) (ws : List Nat) (hlen : ws.length ≤ 8) (hws : ∀ w ∈ ws, w < 2 ^ 32) :
    d.ChangesOnly (d.boxData i ws) [] (boxDataRegs i ws.length) ∧ ∀ k (hk : k < ws.length), (d.boxData i ws).rd F.HL_MGMT_DATA_DATA (i * 8 + k) = ws[k] := by
  induction ws using List.reverseRecOn with
  | nil => exact ⟨.keep, fun k hk => absurd hk (Nat.not_lt_zero _)⟩
  | append_singleton ws w ih =>
    rw [List.length_append, List.length_singleton] at hlen
    obtain ⟨hc, hrd⟩ := ih (by omega) fun x hx => hws x (List.mem_append_left _ hx)
    have hstep : d.boxData i (ws ++ [w]) = (d.boxData i ws).wr F.HL_MGMT_DATA_DATA (i * 8 + ws.length) w := by
      simp [Dev.boxData, List.zipIdx_append, List.foldl_append]
    rw [hstep]
    have hmono := boxDataRegs_mono i (show ws.length ≤ (ws ++ [w]).length by simp)
    refine ⟨(hc.mono (fun _ => id) hmono).wr (List.mem_map_of_mem (List.mem_range.mpr (by simp))), fun k hk => ?_⟩
    rw [List.length_append, List.length_singleton] at hk
    by_cases hkw : k = ws.length
    · subst hkw
      rw [Dev.rd_wr_lt _ (hws w (by simp)) (by decide) (hc.rising hr)]
      simp
    · have hne := (boxDataRegs_apart i).1 ⟨k, by omega⟩ ⟨ws.length, by omega⟩ fun h => hkw (congrArg Fin.val h)
      rw [Dev.rd_wr_ne _ _ _ _ _ _ hne, hrd k (by omega), List.getElem_append_left (by omega)]

/-! ### What the next exchange of a head may change (R312) -/

/-- The registers of a head's authentication. -/
def authRegs (l : Nat) : List Nat := [R.VLT_HEAD_STAT.addr l, R.VLT_HEAD_PENDING.addr l, R.VLT_HEAD_SERIAL.addr l]

theorem headStat_auth (l : Nat) : R.VLT_HEAD_STAT.addr l ∈ authRegs l := List.mem_cons_self

theorem headPending_auth (l : Nat) : R.VLT_HEAD_PENDING.addr l ∈ authRegs l := List.mem_cons_of_mem _ List.mem_cons_self

theorem headSerial_auth (l : Nat) : R.VLT_HEAD_SERIAL.addr l ∈ authRegs l := List.mem_cons_of_mem _ (List.mem_cons_of_mem _ List.mem_cons_self)

theorem statReg_service (l : Nat) : R.HL_STAT.addr l ∈ serviceRegs l := List.mem_cons_self

theorem authRegs_service (l : Nat) : ∀ a ∈ authRegs l, a ∈ serviceRegs l := by
  simp [authRegs, serviceRegs]

/-- From d to e an exchange of link l may have begun: its checks stand. -/
structure Dev.AuthStep (d e : Dev) (l : Nat) : Prop where
  changes : d.ChangesOnly e [.hl, .vlt, .freeCtr] (authRegs l)
  check : ∀ k, (e.link k).check = (d.link k).check
  checked : ∀ k, (e.link k).checked = (d.link k).checked
  length : e.hl.length = d.hl.length

namespace Dev.AuthStep

variable {d e e' : Dev} {l : Nat}

theorem refl : d.AuthStep d l := ⟨.keep, fun _ => rfl, fun _ => rfl, rfl⟩

theorem setLink (h : d.AuthStep e l) {k : Nat} {f : LinkSt → LinkSt} (hf : ∀ x, (f x).check = x.check) (hf' : ∀ x, (f x).checked = x.checked) : d.AuthStep (e.setLink k f) l :=
  ⟨h.changes.setHl (by decide), fun j => (e.setLink_at LinkSt.check k j hf).trans (h.check j), fun j => (e.setLink_at LinkSt.checked k j hf').trans (h.checked j),
    (Dev.setLink_length ..).trans h.length⟩

theorem wr {f : Fld} {i v : Nat} (h : d.AuthStep e l) (hr : f.reg.addr i ∈ authRegs l) : d.AuthStep (e.wr f i v) l :=
  ⟨h.changes.wr hr, h.check, h.checked, h.length⟩

theorem free (h : d.AuthStep e l) (n : Nat) : d.AuthStep (e.free n).2 l := ⟨h.changes.setFreeCtr (by decide), h.check, h.checked, h.length⟩

theorem restoreUsage (h : d.AuthStep e l) : d.AuthStep (e.restoreUsage l) l := by
  unfold Dev.restoreUsage
  split
  · exact h
  · dsimp only
    split
    · exact ⟨(h.changes.setVlt (by decide)).bump (headPending_auth l), h.check, h.checked, h.length⟩
    · exact ⟨h.changes.setVlt (by decide), h.check, h.checked, h.length⟩

theorem nextAuth (h : d.AuthStep e l) : d.AuthStep (e.nextAuth l) l := by
  unfold Dev.nextAuth
  dsimp only
  split
  · exact h
  · have hdue : d.AuthStep (e.setLink l fun x => { x with authDue := false }) l := h.setLink (fun _ => rfl) fun _ => rfl
    split
    · split
      · exact (hdue.wr (headStat_auth l)).restoreUsage
      · exact .wr (.wr (.setLink (hdue.free _) (fun _ => rfl) fun _ => rfl) (headStat_auth l)) (headSerial_auth l)
    · split
      · exact .setLink (h.free _) (fun _ => rfl) fun _ => rfl
      · exact h

end Dev.AuthStep

/-! ### Service after the checks (R206) -/

/-- What the end of a link's service may change. -/
def serviceParts : List Part := [.hl, .pace, .snapD, .unauth, .vlt, .freeCtr]

/-- Leaving service: HL_STAT, the exchange, the waiting lines, and the next exchange (R206, R315). -/
def Dev.leavesService (d : Dev) (l : Nat) : Dev :=
  let d := (d.wrB F.HL_STAT_IN_SERVICE l false).setLink l fun x => { x with auth := none }
  let d := (d.waitingLines l).foldl (fun d x => d.dropLine x) d
  if d.rd F.VLT_HEAD_STAT_AUTH l = 1 then d.wr F.VLT_HEAD_STAT_AUTH l 0 else d

theorem Dev.serviceUpdate_eq (d : Dev) (l : Nat) : d.serviceUpdate l =
    let s := d.linkUp l && ((d.link l).checked && (decide (16 ≤ d.rd F.HL_DELAY_ACCEPTED l) && (d.inService l || d.delayOk l)))
    if s = d.inService l then d
    else if s then (d.wrB F.HL_STAT_IN_SERVICE l true).setLink l fun x => { x with adjDue := true }
    else (d.leavesService l).nextAuth l := rfl

theorem statReg_not_auth (l : Fin 32) : R.HL_STAT.addr l ∉ authRegs l := by
  have h : ∀ l : Fin 32, R.HL_STAT.addr l ∉ authRegs l := by decide
  exact h l

theorem Dev.leavesService_spec {d : Dev} (hr : keysRising 0 d.regs = true) (l : Fin 32) :
    d.ChangesOnly (d.leavesService l) serviceParts (serviceRegs l) ∧ (d.leavesService l).rd F.HL_STAT_IN_SERVICE l = 0 ∧
      ((d.leavesService l).link l).check = (d.link l).check ∧ ((d.leavesService l).link l).checked = (d.link l).checked := by
  have hset : d.ChangesOnly ((d.wrB F.HL_STAT_IN_SERVICE l false).setLink l fun x => { x with auth := none }) serviceParts (serviceRegs l) :=
    (Dev.ChangesOnly.keep.wrB (statReg_service l)).setHl (by decide)
  have hzero : ((d.wrB F.HL_STAT_IN_SERVICE l false).setLink l fun x => { x with auth := none }).rd F.HL_STAT_IN_SERVICE l = 0 :=
    Dev.rd_wrB_self d F.HL_STAT_IN_SERVICE l false (by decide) (by decide) hr
  have hcheck : (((d.wrB F.HL_STAT_IN_SERVICE l false).setLink l fun x => { x with auth := none }).link l).check = (d.link l).check :=
    (d.wrB F.HL_STAT_IN_SERVICE l false).setLink_at LinkSt.check l l fun _ => rfl
  have hchecked : (((d.wrB F.HL_STAT_IN_SERVICE l false).setLink l fun x => { x with auth := none }).link l).checked = (d.link l).checked :=
    (d.wrB F.HL_STAT_IN_SERVICE l false).setLink_at LinkSt.checked l l fun _ => rfl
  unfold Dev.leavesService
  generalize (d.wrB F.HL_STAT_IN_SERVICE l false).setLink l (fun x => { x with auth := none }) = x at *
  have hpend : ∀ l : Fin 32, R.HL_STAT.addr l ∉ [R.VLT_HEAD_PENDING.addr l] := by decide
  have hauth : ∀ l : Fin 32, R.HL_STAT.addr l ≠ R.VLT_HEAD_STAT.addr l := by decide
  have hw := x.waiting_changes l
  have hwaits : d.ChangesOnly ((x.waitingLines l).foldl (fun d x => d.dropLine x) x) serviceParts (serviceRegs l) :=
    hset.trans (hw.mono (by decide) (by simp [serviceRegs]))
  have hkept : ((x.waitingLines l).foldl (fun d x => d.dropLine x) x).rd F.HL_STAT_IN_SERVICE l = 0 := (hw.rd (hpend l)).trans hzero
  have hlink : ((x.waitingLines l).foldl (fun d x => d.dropLine x) x).link l = x.link l := by
    rw [Dev.link, Dev.link, show ((x.waitingLines l).foldl (fun d x => d.dropLine x) x).hl = x.hl from hw.parts .hl (by decide)]
  dsimp only
  split
  · exact ⟨hwaits.wr (authRegs_service l _ (headStat_auth l)), (Dev.rd_wr_ne _ _ _ _ _ _ (hauth l)).trans hkept, (congrArg LinkSt.check hlink).trans hcheck, (congrArg LinkSt.checked hlink).trans hchecked⟩
  · exact ⟨hwaits, hkept, (congrArg LinkSt.check hlink).trans hcheck, (congrArg LinkSt.checked hlink).trans hchecked⟩

/-- From d to e service has been set afresh: the link's checks stand. -/
theorem Dev.serviceUpdate_spec {d : Dev} (hr : keysRising 0 d.regs = true) (l : Fin 32) :
    d.ChangesOnly (d.serviceUpdate l) serviceParts (serviceRegs l) ∧ ((d.serviceUpdate l).link l).check = (d.link l).check ∧
      ((d.serviceUpdate l).link l).checked = (d.link l).checked ∧ ((d.link l).checked = false → (d.serviceUpdate l).rd F.HL_STAT_IN_SERVICE l = 0) := by
  rw [Dev.serviceUpdate_eq]
  dsimp only
  split
  case isTrue hs =>
    refine ⟨.keep, rfl, rfl, fun hc => Dev.rd_of_off ?_⟩
    rw [hc, Bool.false_and, Bool.and_false] at hs
    exact hs.symm
  case isFalse =>
    split
    case isTrue hs =>
      refine ⟨(Dev.ChangesOnly.keep.wrB (statReg_service l)).setHl (by decide), (d.wrB F.HL_STAT_IN_SERVICE l true).setLink_at LinkSt.check l l fun _ => rfl,
        (d.wrB F.HL_STAT_IN_SERVICE l true).setLink_at LinkSt.checked l l fun _ => rfl, fun hc => ?_⟩
      rw [hc, Bool.false_and, Bool.and_false] at hs
      exact absurd hs (by decide)
    case isFalse =>
      obtain ⟨hc, hz, hcheck, hchecked⟩ := Dev.leavesService_spec hr l
      have ha := (Dev.AuthStep.refl (d := d.leavesService l) (l := l)).nextAuth
      exact ⟨hc.trans (ha.changes.mono (by decide) (authRegs_service l)), (ha.check l).trans hcheck, (ha.checked l).trans hchecked,
        fun _ => (ha.changes.rd (statReg_not_auth l)).trans hz⟩

/-! ### Requests, answers and the end of the checks (R195 to R197, R206) -/

theorem Dev.checkEnds_eq {d : Dev} {l : Nat} {c : HeadCheck} (h : (d.link l).check = some c) (h5 : c.phase = 5) : d.checkEnds l =
    let e := (d.setLink l fun x => { x with check := none, checked := decide (c.fail = 0) }).serviceUpdate l
    if c.fail = 0 then e
    else if e.sys.castOn ∧ e.rd F.SYS_CASTON_STAT_STEP = 12 then e.setLink l fun x => { x with checkFailed := true }
    else (e.wr F.HL_STAT_CAUSE l 14).raise .secure 0x0B0A [(1, l), (1, c.fail)] := by
  unfold Dev.checkEnds
  rw [h]
  exact if_neg (not_not_intro h5)

theorem Dev.checkEnds_ignored {d : Dev} {l : Nat} (h : match (d.link l).check with | some c => c.phase ≠ 5 | none => True) : d.checkEnds l = d := by
  unfold Dev.checkEnds
  cases hc : (d.link l).check with
  | none => rfl
  | some c => rw [hc] at h; exact if_pos h

theorem serviceRegs_event (l : Fin 32) : ∀ a ∈ R.SYS_FAULT_STAT.addr 0 :: eventRegs, a ∉ serviceRegs l := by
  have h : ∀ l : Fin 32, ∀ a ∈ R.SYS_FAULT_STAT.addr 0 :: eventRegs, a ∉ serviceRegs l := by decide
  exact h l

theorem Dev.mgmtAnswer_taken {d : Dev} {l p : Nat} {r : MgReq} (hg : (d.link l).grant = some p) (hreq : d.req l p = some r) (hsent : r.sent = true) {tag : Option Nat}
    {write : Bool} (ht : tag = none ∨ (tag = some r.tag ∧ write = r.write)) (result : Nat) (data : List Nat) (hp : p ≠ 2) :
    d.mgmtAnswer l tag write result data =
      ((d.dropReq l p).boxData (boxIdx l p) (if tag.isSome ∧ !r.write ∧ !r.cancelled ∧ result = 0 then data.take r.count else [])).mgmtDone l
        (if p = 0 then 0 else 1) (if r.cancelled then 6 else result) r.tag := by
  unfold Dev.mgmtAnswer
  simp only [hg, hreq]
  refine (if_neg ?_).trans ((if_neg hp).trans (congrArg (fun e : Dev => e.mgmtDone l (if p = 0 then 0 else 1) (if r.cancelled then 6 else result) r.tag) ?_))
  swap
  · split <;> rfl
  rintro (h | ⟨h, h'⟩)
  · rw [hsent] at h
    exact absurd h (by decide)
  · rcases ht with ht | ⟨ht, hw⟩
    · rw [ht] at h
      exact absurd h (by decide)
    · exact h'.elim (fun h' => h' ht) fun h' => h' hw

theorem Dev.mgmtAnswer_other {d : Dev} {l p : Nat} {r : MgReq} (hg : (d.link l).grant = some p) (hreq : d.req l p = some r) {tag : Nat} {write : Bool}
    (ht : tag ≠ r.tag ∨ write ≠ r.write) (result : Nat) (data : List Nat) : d.mgmtAnswer l (some tag) write result data = d := by
  unfold Dev.mgmtAnswer
  simp only [hg, hreq]
  exact if_pos (.inr ⟨rfl, ht.imp (fun h h' => h (Option.some.inj h')) id⟩)

section
variable {d : Dev} (hr : keysRising 0 d.regs = true) (hlinks : d.hl.length = 32) (hreqs : ∀ x ∈ d.hl, x.reqs.length = 3) (l : Fin 32)
include hlinks hreqs

theorem Dev.reqs_length : (d.link l).reqs.length = 3 := by
  refine hreqs _ ?_
  rw [Dev.link, at', List.getD_eq_getElem _ _ (by omega)]
  exact List.getElem_mem _

include hr

/-- A host's request ends: its words shown where it read, then its RESULT and MGMT_DONE (R197). -/
theorem Dev.hostReq_ends {p : Fin 2} (ws : List Nat) (hws : ws.length ≤ 8) (hlt : ∀ w ∈ ws, w < 2 ^ 32) (result tag : Nat) :
    let e := ((d.dropReq l p).boxData (boxIdx l p) ws).mgmtDone l p result tag; let i := boxIdx l p
    d.ChangesOnly e [.hl, .raised] (R.HL_MGMT_STAT.addr i :: boxDataRegs i ws.length) ∧ e.req l p = none ∧
      (∀ k (hk : k < ws.length), e.rd F.HL_MGMT_DATA_DATA (i * 8 + k) = ws[k]) ∧ e.rd F.HL_MGMT_STAT_BUSY i = 0 ∧ e.rd F.HL_MGMT_STAT_DONE i = 1 ∧
      e.rd F.HL_MGMT_STAT_RESULT i = result % 16 ∧ e.raised = d.raised ++ [d.event (.port p) 0x0B08 [(1, l), (1, p), (1, result), (2, tag)]] := by
  intro e i
  obtain ⟨hdrop, hnone, -, -⟩ := Dev.dropReq_spec (d := d) (l := l) (p := p) (by omega) (by rw [Dev.reqs_length hlinks hreqs]; omega)
  obtain ⟨hdata, hwords⟩ := Dev.boxData_spec (hdrop.rising hr) ⟨boxIdx l p, boxIdx_lt l p⟩ ws hws hlt
  obtain ⟨hdone, h1, h2, h3, h4⟩ := Dev.mgmtDone_spec (hdata.rising (hdrop.rising hr)) l p result tag
  have hapart : ∀ a ∈ R.HL_MGMT_STAT.addr i :: eventRegs, a ∉ boxDataRegs i ws.length := fun a ha h =>
    (boxDataRegs_apart ⟨boxIdx l p, boxIdx_lt l p⟩).2 a ha (boxDataRegs_mono _ hws a h)
  have hdrop' : d.ChangesOnly (d.dropReq l p) [.hl, .raised] (R.HL_MGMT_STAT.addr i :: boxDataRegs i ws.length) := hdrop.mono (by simp) (by simp)
  have hdata' := hdrop'.trans (hdata.mono (by simp) fun _ => List.mem_cons_of_mem _)
  refine ⟨hdata'.trans (hdone.mono (by simp) fun a ha => by rw [List.mem_singleton.mp ha]; exact List.mem_cons_self), ?_, fun k hk => ?_, h1, h2, h3, h4.trans ?_⟩
  · have hhl : e.hl = (d.dropReq l p).hl := (hdone.parts .hl (by decide)).trans (hdata.parts .hl List.not_mem_nil)
    rw [Dev.req, Dev.link, hhl]
    exact hnone
  · have hne : R.HL_MGMT_DATA.addr (i * 8 + k) ∉ [R.HL_MGMT_STAT.addr i] := by
      rw [List.mem_singleton]
      exact fun h => hapart _ List.mem_cons_self (h ▸ List.mem_map_of_mem (List.mem_range.mpr (by omega)))
    exact (hdone.rd hne).trans (hwords k hk)
  · rw [hdata.event List.not_mem_nil (fun a ha => hapart a (List.mem_cons_of_mem _ ha)), hdrop.event (by decide) (by simp), hdata.parts .raised List.not_mem_nil,
      hdrop.parts .raised (by decide)]

end

/-- What a write of HL_MGMT_CMD does while a request is under way, and when none is (R197). -/
theorem Dev.wMgmtCmd_busy {d : Dev} {l : Nat} {p : Fin 2} (h : d.rd F.HL_MGMT_STAT_BUSY (boxIdx l p) = 1) (val mask : Nat) : d.wMgmtCmd l p val mask =
    if !(Nat.land val mask).testBit 33 then d
    else match d.req l p with
      | some r => if r.sent then d.setReq l p (some { r with cancelled := true }) else (d.dropReq l p).mgmtDone l p 6 r.tag
      | none => d :=
  if_pos (by rw [Dev.on, h]; decide)

/-- The request that the mailbox holds. -/
def Dev.boxReq (d : Dev) (i : Nat) : MgReq where
  write := d.on F.HL_MGMT_CMD_WRITE i
  addr := d.rd F.HL_MGMT_CMD_ADDR i
  count := d.rd F.HL_MGMT_CMD_COUNT i
  data := (List.range 8).map fun k => d.rd F.HL_MGMT_DATA_DATA (i * 8 + k)

theorem Dev.wMgmtCmd_idle {d : Dev} {l : Nat} {p : Fin 2} (h : d.rd F.HL_MGMT_STAT_BUSY (boxIdx l p) = 0) (val mask : Nat) : d.wMgmtCmd l p val mask =
    let e := d.store R.HL_MGMT_CMD (boxIdx l p) val mask
    if !(Nat.land val mask).testBit 32 then e
    else if e.linkUp l then (e.wrB F.HL_MGMT_STAT_BUSY (boxIdx l p) true).queueReq l p (e.boxReq (boxIdx l p)) else e.mgmtDone l p 5 0 :=
  if_neg (by rw [Dev.on, h]; decide)

theorem land_mask64_testBit (v : Nat) {b : Nat} (h : b < 64) : (Nat.land v mask64).testBit b = v.testBit b := by
  rw [show mask64 = 2 ^ 64 - 1 from rfl]
  change (v &&& (2 ^ 64 - 1)).testBit b = _
  rw [Nat.testBit_and, Nat.testBit_two_pow_sub_one, decide_eq_true h, Bool.and_true]

/-- A write of HL_MGMT_CMD by another port reaches the register bus alone. -/
theorem Dev.writeOwn_other {d : Dev} {m : Master} {p : Fin 2} {r : Reg} {i : Nat} (h : d.Takes m r i) (hp : portOf m ≠ some p) (f : Dev → Dev) :
    d.writeOwn m p r i f = d.touch m := by
  rw [Dev.writeOwn, Dev.writeTo_of_takes h]
  refine if_neg fun hm => hp ?_
  obtain ⟨q, hq, hqp⟩ := Option.map_eq_some_iff.mp hm
  rw [hq, Fin.ext hqp]

/-- Settles O35: each write, answer and timeout is one branch of its definition, over what giving a request up and ending it leave. -/
theorem managementChannel : Obligations.ManagementChannel := by
  unfold Obligations.ManagementChannel
  refine ⟨?go, ?cancel, ?answer, ?checks, ?ends, ?ignored⟩
  case go =>
    intro m l p val s hinv htakes
    have hr : keysRising 0 (s.dev.touch m).regs = true := Dev.touch_rising m hinv.regs
    have hstore : (s.dev.touch m).ChangesOnly ((s.dev.touch m).store R.HL_MGMT_CMD (boxIdx l p) val mask64) [] [R.HL_MGMT_CMD.addr (boxIdx l p)] :=
      .store .keep (findReg_HL_MGMT_CMD ⟨boxIdx l p, boxIdx_lt l p⟩) List.mem_cons_self
    have hbox : (s.dev.touch m).rd F.HL_MGMT_STAT_BUSY (boxIdx l p) = s.dev.rd F.HL_MGMT_STAT_BUSY (boxIdx l p) := Dev.rd_touch m _ _ _
    obtain ⟨hne, hcmd⟩ := boxRegs_apart l p
    have hhl : ((s.dev.touch m).store R.HL_MGMT_CMD (boxIdx l p) val mask64).hl = s.dev.hl := (hstore.parts .hl List.not_mem_nil).trans (Dev.touch_hl ..)
    have hupr : ((s.dev.touch m).store R.HL_MGMT_CMD (boxIdx l p) val mask64).linkUp l = s.dev.linkUp l := by
      have hnot : R.HL_STAT.addr l ∉ [R.HL_MGMT_CMD.addr (boxIdx l p)] := by
        rw [List.mem_singleton]
        exact (hne _ (List.mem_cons_of_mem _ List.mem_cons_self)).2
      rw [Dev.linkUp, Dev.on, hstore.rd (f := F.HL_STAT_UP) hnot, Dev.rd_touch, Dev.linkUp, Dev.on]
    have hidle' := fun h : s.dev.rd F.HL_MGMT_STAT_BUSY (boxIdx l p) = 0 => Dev.wMgmtCmd_idle (d := s.dev.touch m) (hbox.trans h) val mask64
    refine ⟨fun hp hidle hgo => ⟨fun hup => ?_, fun hdown => ?_⟩, fun hno => ?_, fun hp hidle hno => ?_⟩
    · have hrun : (s.dev.touch m).wMgmtCmd l p val mask64 = ((((s.dev.touch m).store R.HL_MGMT_CMD (boxIdx l p) val mask64).wrB F.HL_MGMT_STAT_BUSY (boxIdx l p) true).queueReq l p
          (((s.dev.touch m).store R.HL_MGMT_CMD (boxIdx l p) val mask64).boxReq (boxIdx l p))) :=
        (hidle' hidle).trans ((if_neg (by rw [land_mask64_testBit _ (by decide), hgo]; decide)).trans (if_pos (by rw [hupr]; exact hup)))
      have hadr := Dev.rd_store_any (f := F.HL_MGMT_CMD_ADDR) (findReg_HL_MGMT_CMD ⟨boxIdx l p, boxIdx_lt l p⟩) (by simp) hr (v := val) (mask := mask64) rfl rfl (by decide)
      have hcount := Dev.rd_store_rw (f := F.HL_MGMT_CMD_COUNT) (findReg_HL_MGMT_CMD ⟨boxIdx l p, boxIdx_lt l p⟩) (by simp) hr (v := val) (mask := mask64) rfl (by decide)
      have hwrite := Dev.rd_store_any (f := F.HL_MGMT_CMD_WRITE) (findReg_HL_MGMT_CMD ⟨boxIdx l p, boxIdx_lt l p⟩) (by simp) hr (v := val) (mask := mask64) rfl rfl (by decide)
      generalize (s.dev.touch m).store R.HL_MGMT_CMD (boxIdx l p) val mask64 = x at *
      have hwr := hstore.mono (ps := [.hl]) (rs := [R.HL_MGMT_CMD.addr (boxIdx l p), R.HL_MGMT_STAT.addr (boxIdx l p)]) (by simp) (by simp)
      have hbusy := hwr.wrB (f := F.HL_MGMT_STAT_BUSY) (i := boxIdx l p) (b := true) (List.mem_cons_of_mem _ List.mem_cons_self)
      have hlink : (x.wrB F.HL_MGMT_STAT_BUSY (boxIdx l p) true).link l = s.dev.link l := congrArg (at' · l.val) hhl
      obtain ⟨hq, hreq⟩ := Dev.queueReq_spec (d := x.wrB F.HL_MGMT_STAT_BUSY (boxIdx l p) true) (l := l) (p := p) (by rw [show (x.wrB F.HL_MGMT_STAT_BUSY (boxIdx l p) true).hl = s.dev.hl from hhl, hinv.links]; exact l.isLt)
        (by rw [hlink, Dev.reqs_length hinv.links hinv.reqs]; omega) (x.boxReq (boxIdx l p))
      refine ⟨_, .writesOwn (fun d => d.wMgmtCmd l p val mask64) rfl htakes hp hrun (hbusy.trans (hq.mono (fun _ => id) (by simp))), ?_, _, hreq, rfl, rfl, by rw [hlink], ?_, ?_, ?_⟩
      · exact (hq.rd (f := F.HL_MGMT_STAT_BUSY) List.not_mem_nil).trans (Dev.rd_wrB_self _ _ _ _ (by decide) (by decide) (hstore.rising hr))
      · exact hadr.trans (fieldOf_zero _ _)
      · have hle : clampNat 1 8 (val / 2 ^ 16 % 16) ≤ 8 := clampNat_le (by decide) _
        exact hcount.trans (Nat.mod_eq_of_lt (b := 16) (Nat.lt_of_le_of_lt hle (by decide)))
      · change x.on F.HL_MGMT_CMD_WRITE (boxIdx l p) = _
        rw [Dev.on, show x.rd F.HL_MGMT_CMD_WRITE (boxIdx l p) = fieldOf 20 1 val from hwrite, fieldOf_one]
        cases val.testBit 20 <;> decide
    · have hrun : (s.dev.touch m).wMgmtCmd l p val mask64 = ((s.dev.touch m).store R.HL_MGMT_CMD (boxIdx l p) val mask64).mgmtDone l p 5 0 :=
        (hidle' hidle).trans ((if_neg (by rw [land_mask64_testBit _ (by decide), hgo]; decide)).trans (if_neg (by rw [hupr, hdown]; decide)))
      obtain ⟨hdone, -, h1, h2, -⟩ := Dev.mgmtDone_spec (hstore.rising hr) l p 5 0
      exact ⟨_, .writesOwn (fun d => d.wMgmtCmd l p val mask64) rfl htakes hp hrun ((hstore.mono (by simp) (by simp)).trans (hdone.mono (fun _ => id) (by simp))), h1, h2⟩
    · by_cases hp : portOf m = some p
      · obtain ⟨hbusy, h33⟩ := hno.resolve_left (not_not_intro hp)
        have hrun : (s.dev.touch m).wMgmtCmd l p val mask64 = s.dev.touch m :=
          (Dev.wMgmtCmd_busy (hbox.trans hbusy) val mask64).trans (if_pos (by rw [land_mask64_testBit _ (by decide), h33]; rfl))
        exact ⟨_, .writesOwn (fun d => d.wMgmtCmd l p val mask64) rfl htakes hp hrun .keep⟩
      · exact ⟨_, .act (fun d => d.writeOwn m p R.HL_MGMT_CMD (boxIdx l p) fun d => d.wMgmtCmd l p val mask64) rfl (Dev.writeOwn_other htakes hp _) (Dev.ChangesOnly.keep.after_touch)⟩
    · have hrun : (s.dev.touch m).wMgmtCmd l p val mask64 = (s.dev.touch m).store R.HL_MGMT_CMD (boxIdx l p) val mask64 :=
        (hidle' hidle).trans (if_pos (by rw [land_mask64_testBit _ (by decide), hno]; rfl))
      exact ⟨_, .writesOwn (fun d => d.wMgmtCmd l p val mask64) rfl htakes hp hrun hstore⟩
  case cancel =>
    intro m l p s hinv htakes
    have hr : keysRising 0 (s.dev.touch m).regs = true := Dev.touch_rising m hinv.regs
    have hbox : (s.dev.touch m).rd F.HL_MGMT_STAT_BUSY (boxIdx l p) = s.dev.rd F.HL_MGMT_STAT_BUSY (boxIdx l p) := Dev.rd_touch m _ _ _
    have hhl : (s.dev.touch m).hl = s.dev.hl := Dev.touch_hl ..
    have hlink : (s.dev.touch m).link l = s.dev.link l := congrArg (at' · l.val) hhl
    have hlen : l.val < (s.dev.touch m).hl.length := by rw [hhl, hinv.links]; exact l.isLt
    have hp3 : p.val < ((s.dev.touch m).link l).reqs.length := by rw [hlink, Dev.reqs_length hinv.links hinv.reqs]; omega
    refine ⟨fun r hp hbusy hreq => ?_, fun hno => ?_⟩
    · have hcmd := (Dev.wMgmtCmd_busy (hbox.trans hbusy) (2 ^ 33) maskHi).trans (if_neg (by decide))
      have hreq' : (s.dev.touch m).req l p = some r := by rw [Dev.req, hlink]; exact hreq
      rw [hreq'] at hcmd
      refine ⟨fun hsent => ?_, fun hsent => ?_⟩
      · have hrun := hcmd.trans (if_pos hsent)
        exact ⟨_, .writesOwn (fun d => d.wMgmtCmd l p (2 ^ 33) maskHi) rfl htakes hp hrun (Dev.ChangesOnly.keep.setHl (by decide)), Dev.req_setReq hlen hp3 _⟩
      · have hrun := hcmd.trans (if_neg (by rw [hsent]; decide))
        obtain ⟨hdrop, hnone, -, -⟩ := Dev.dropReq_spec hlen hp3
        obtain ⟨hdone, h1, -, h2, -⟩ := Dev.mgmtDone_spec (hdrop.rising hr) l p 6 r.tag
        refine ⟨_, .writesOwn (fun d => d.wMgmtCmd l p (2 ^ 33) maskHi) rfl htakes hp hrun ((hdrop.mono (by simp) (by simp)).trans (hdone.mono (by simp) fun _ => id)), ?_, h1, h2⟩
        rw [Dev.req, Dev.link, hdone.parts .hl (by decide)]
        exact hnone
    · by_cases hp : portOf m = some p
      · have hrun := (Dev.wMgmtCmd_idle (d := s.dev.touch m) (hbox.trans (hno.resolve_left (not_not_intro hp))) (2 ^ 33) maskHi).trans (if_pos (by decide))
        exact ⟨_, .writesOwn (fun d => d.wMgmtCmd l p (2 ^ 33) maskHi) rfl htakes hp hrun
          (.store .keep (findReg_HL_MGMT_CMD ⟨boxIdx l p, boxIdx_lt l p⟩) List.mem_cons_self)⟩
      · exact ⟨_, .act (fun d => d.writeOwn m p R.HL_MGMT_CMD (boxIdx l p) fun d => d.wMgmtCmd l p (2 ^ 33) maskHi) rfl (Dev.writeOwn_other htakes hp _) ((Dev.ChangesOnly.keep (rs := [R.HL_MGMT_CMD.addr (boxIdx l p)])).after_touch)⟩
  case answer =>
    intro l p r result s hinv hg hreq hsent shown
    have hp2 : p.val ≠ 2 := by omega
    have hport : (if p.val = 0 then 0 else 1 : Fin 2) = p := by fin_cases p <;> rfl
    have hends := fun ws hws hlt res => Dev.hostReq_ends hinv.regs hinv.links hinv.reqs l (p := p) ws hws hlt res r.tag
    refine ⟨fun data hread hcount => ?_, fun hwrite => ?_, ?_, fun tag data ht => ?_, fun tag ht => ?_⟩
    · have hgoes := Dev.mgmtAnswer_taken hg hreq hsent (tag := some r.tag) (write := false) (.inr ⟨rfl, hread.symm⟩) result (data.map BitVec.toNat) hp2
      rw [hport] at hgoes
      have hlen : (if (some r.tag).isSome ∧ !r.write ∧ !r.cancelled ∧ result = 0 then (data.map BitVec.toNat).take r.count else []).length ≤ 8 := by
        split
        · rw [List.length_take]; omega
        · simp
      have hlt : ∀ w ∈ (if (some r.tag).isSome ∧ !r.write ∧ !r.cancelled ∧ result = 0 then (data.map BitVec.toNat).take r.count else []), w < 2 ^ 32 := by
        split
        · intro w hw
          obtain ⟨v, -, rfl⟩ := List.mem_map.mp (List.mem_of_mem_take hw)
          exact v.isLt
        · simp
      have hws : r.cancelled = false → result = 0 →
          (if (some r.tag).isSome ∧ !r.write ∧ !r.cancelled ∧ result = 0 then (data.map BitVec.toNat).take r.count else []) = (data.map BitVec.toNat).take r.count :=
        fun hc h0 => if_pos ⟨rfl, by rw [hread]; rfl, by rw [hc]; rfl, h0⟩
      generalize (if (some r.tag).isSome ∧ !r.write ∧ !r.cancelled ∧ result = 0 then (data.map BitVec.toNat).take r.count else []) = ws at *
      obtain ⟨hch, h1, h2, h3, h4, h5, h6⟩ := hends ws hlen hlt shown
      refine ⟨_, .act (fun d => d.mgmtAnswer l (some r.tag) false result (data.map BitVec.toNat)) rfl hgoes
        (hch.mono (fun _ => id) fun a ha => ?_), h1, fun k hk hkc hc h0 => ?_, h3, h4, h5, h6⟩
      · rcases List.mem_cons.mp ha with rfl | ha
        · exact List.mem_cons_self
        · exact List.mem_cons_of_mem _ (boxDataRegs_mono _ hlen a ha)
      · have hw := hws hc h0
        subst hw
        exact (h2 k (by rw [List.length_take, List.length_map]; omega)).trans (by simp)
    · have hgoes := Dev.mgmtAnswer_taken hg hreq hsent (tag := some r.tag) (write := true) (.inr ⟨rfl, hwrite.symm⟩) result [] hp2
      obtain ⟨hch, h1, -, h3, h4, h5, h6⟩ := hends [] (by simp) (by simp) shown
      have hrun : s.dev.mgmtAnswer l (some r.tag) true result [] = ((s.dev.dropReq l p).boxData (boxIdx l p) []).mgmtDone l p shown r.tag := by
        rw [hport, if_neg fun ⟨_, h, _⟩ => by rw [hwrite] at h; exact absurd h (by decide)] at hgoes
        exact hgoes
      exact ⟨_, .act (fun d => d.mgmtAnswer l (some r.tag) true result []) rfl hrun hch, h1, h3, h4, h5, h6⟩
    · have hgoes := Dev.mgmtAnswer_taken hg hreq hsent (tag := none) (write := false) (.inl rfl) 4 [] hp2
      intro ended
      obtain ⟨hch, h1, -, h3, h4, h5, h6⟩ := hends [] (by simp) (by simp) ended
      have hrun : s.dev.mgmtAnswer l none false 4 [] = ((s.dev.dropReq l p).boxData (boxIdx l p) []).mgmtDone l p ended r.tag := by
        rw [hport, if_neg fun ⟨h, _⟩ => absurd h (by decide)] at hgoes
        exact hgoes
      refine ⟨_, .act (fun d => d.mgmtAnswer l none false 4 []) rfl hrun hch, h1, h3, h4, h5.trans (Nat.mod_eq_of_lt ?_), h6⟩
      change (if r.cancelled then 6 else 4) < 16
      split <;> decide
    · exact .act (fun d => d.mgmtAnswer l (some tag) false result (data.map BitVec.toNat)) rfl
        (Dev.mgmtAnswer_other hg hreq (ht.imp id fun h => by rw [h]; decide) result _)
    · exact .act (fun d => d.mgmtAnswer l (some tag) true result []) rfl (Dev.mgmtAnswer_other hg hreq (ht.imp id fun h => by rw [h]; decide) result _)
  case checks =>
    intro l r c s hinv hg hreq hsent hcheck
    have hlen : l.val < s.dev.hl.length := hinv.links.symm ▸ l.isLt
    obtain ⟨hdrop, hnone, hch, hl⟩ := Dev.dropReq_spec (d := s.dev) (l := l) (p := 2) hlen (by rw [Dev.reqs_length hinv.links hinv.reqs]; decide)
    have hgoes : s.dev.mgmtAnswer l none false 4 [] = (s.dev.dropReq l 2).setCheck l { c with phase := 5, fail := 3 } := by
      unfold Dev.mgmtAnswer
      simp only [hg, hreq, hsent, hch, hcheck]
      rfl
    refine ⟨_, .act (fun d => d.mgmtAnswer l none false 4 []) rfl hgoes (hdrop.setHl (by decide)), ?_, ?_⟩
    · exact congrArg LinkSt.check (Dev.link_setLink _ (hl.symm ▸ hlen))
    · exact (congrArg (at' · 2) ((s.dev.dropReq l 2).setLink_at LinkSt.reqs l l (f := fun x => { x with check := some { c with phase := 5, fail := 3 } }) fun _ => rfl)).trans hnone
  case ends =>
    intro l c s hinv hcheck h5
    have hlen : l.val < s.dev.hl.length := hinv.links.symm ▸ l.isLt
    have hgoes := Dev.checkEnds_eq hcheck h5
    have hset : s.dev.ChangesOnly (s.dev.setLink l fun x => { x with check := none, checked := decide (c.fail = 0) }) [.hl] [] := .setHl .keep (by decide)
    have hlink := Dev.link_setLink (d := s.dev) (fun x => { x with check := none, checked := decide (c.fail = 0) }) hlen
    have hhl := Dev.setLink_hl_set s.dev l (fun x => { x with check := none, checked := decide (c.fail = 0) })
    generalize s.dev.setLink l (fun x => { x with check := none, checked := decide (c.fail = 0) }) = x at *
    have hr : keysRising 0 x.regs = true := hset.rising hinv.regs
    have hrd : ∀ f : Fld, ∀ i, x.rd f i = s.dev.rd f i := fun f i => hset.rd List.not_mem_nil
    obtain ⟨hserv, hchk, hchkd, hout⟩ := Dev.serviceUpdate_spec hr l
    have hall := (hset.mono (ps := serviceParts) (rs := serviceRegs l) (by decide) (by simp)).trans hserv
    have hcheck' : ((x.serviceUpdate l).link l).check = none := hchk.trans (congrArg LinkSt.check hlink)
    have hchecked' : ((x.serviceUpdate l).link l).checked = decide (c.fail = 0) := hchkd.trans (congrArg LinkSt.checked hlink)
    refine ⟨?_, fun hok hup hdelay hin => ?_, fun hbad => ?_⟩
    · have hfull : s.dev.ChangesOnly (x.serviceUpdate l) [.hl, .pace, .snapD, .unauth, .vlt, .freeCtr, .raised] (serviceRegs l) := hall.mono (by decide) fun _ => id
      refine ⟨_, .act (fun d => d.checkEnds l) rfl hgoes (.ite hfull (.ite (hfull.setHl (by decide)) ((hfull.wr (statReg_service l)).raise (by decide) (.inl (by decide))))), ?_⟩
      dsimp only
      split
      · exact ⟨hcheck', hchecked'⟩
      · split
        · exact ⟨((x.serviceUpdate l).setLink_at LinkSt.check l l (f := fun x => { x with checkFailed := true }) fun _ => rfl).trans hcheck',
            ((x.serviceUpdate l).setLink_at LinkSt.checked l l (f := fun x => { x with checkFailed := true }) fun _ => rfl).trans hchecked'⟩
        · rw [Dev.link, Dev.raise_hl]
          exact ⟨hcheck', hchecked'⟩
    · have hon : x.inService l = false := by rw [Dev.inService, Dev.on, hrd, hin]; decide
      have hgo : (x.linkUp l && ((x.link l).checked && (decide (16 ≤ x.rd F.HL_DELAY_ACCEPTED l) && (x.inService l || x.delayOk l)))) = true := by
        have hd : decide (16 ≤ s.dev.rd F.HL_DELAY_ACCEPTED l) && decide (s.dev.rd F.HL_DELAY_D_DN l ≤ maxDelay) := hdelay
        have hup' : (decide (s.dev.rd F.HL_STAT_UP l ≠ 0)) = true := hup
        obtain ⟨h16, hdn⟩ := Bool.and_eq_true_iff.mp hd
        rw [hon, hlink, Dev.linkUp, Dev.on, Dev.delayOk, hrd, hrd, hrd, hup', h16, hdn, hok]
        rfl
      have hserve : x.serviceUpdate l = (x.wrB F.HL_STAT_IN_SERVICE l true).setLink l fun x => { x with adjDue := true } := by
        rw [Dev.serviceUpdate_eq, hgo, hon]
        rfl
      have hrun : s.dev.checkEnds l = (x.wrB F.HL_STAT_IN_SERVICE l true).setLink l fun x => { x with adjDue := true } := (hgoes.trans (if_pos hok)).trans hserve
      refine ⟨_, .act (fun d => d.checkEnds l) rfl hrun (((hset.mono (fun _ => id) (by simp)).wrB List.mem_cons_self).setHl (by decide)), ?_, ?_⟩
      · refine (Dev.setLink_hl_set ..).trans ?_
        have hwr : (x.wrB F.HL_STAT_IN_SERVICE l true).link l = x.link l := rfl
        have hwhl : (x.wrB F.HL_STAT_IN_SERVICE l true).hl = x.hl := rfl
        rw [hwr, hwhl, hhl, hlink, List.set_set, hok]
        rfl
      · exact Dev.rd_wrB_self x F.HL_STAT_IN_SERVICE l true (by decide) (by decide) hr
    · have hzero : (x.serviceUpdate l).rd F.HL_STAT_IN_SERVICE l = 0 := hout (by rw [hlink]; exact decide_eq_false hbad)
      have hsys : (x.serviceUpdate l).sys = s.dev.sys := hall.parts .sys (by decide)
      have hraised : (x.serviceUpdate l).raised = s.dev.raised := hall.parts .raised (by decide)
      have hrise := hall.rising hinv.regs
      have hwr := hall.wr (f := F.HL_STAT_CAUSE) (i := l) (v := 14) (statReg_service l)
      have hev := hwr.event (by decide) fun a ha => serviceRegs_event l a (List.mem_cons_of_mem _ ha)
      have hrun := hgoes.trans (if_neg hbad)
      by_cases hcast : (x.serviceUpdate l).sys.castOn ∧ (x.serviceUpdate l).rd F.SYS_CASTON_STAT_STEP = 12
      · refine ⟨_, (Runs.act (fun d => d.checkEnds l) rfl (hrun.trans (if_pos hcast)) (hall.setHl (by decide))).next, hzero, fun hoff => ?_⟩
        rw [hsys] at hcast
        exact absurd (hoff.symm.trans hcast.1) (by decide)
      · refine ⟨_, (Runs.act (ps := .raised :: serviceParts) (fun d => d.checkEnds l) rfl (hrun.trans (if_neg hcast))
          ((hwr.mono (fun _ => List.mem_cons_of_mem _) fun _ => id).raise List.mem_cons_self (.inl (by decide)))).next, ?_, fun _ => ⟨?_, ?_⟩⟩
        · exact (Dev.rd_raise_stat _ _ _ _ F.HL_STAT_IN_SERVICE l rfl).trans ((Dev.rd_wr_beside (f := F.HL_STAT_CAUSE) (g := F.HL_STAT_IN_SERVICE) ⟨rfl, by decide, by decide⟩ _ _ hrise).trans hzero)
        · exact (Dev.rd_raise_stat _ _ _ _ F.HL_STAT_CAUSE l rfl).trans (Dev.rd_wr_lt _ (by decide) (by decide) hrise)
        · refine (Dev.raise_raised ..).trans ?_
          rw [hev]
          exact congrArg (· ++ _) hraised
  case ignored =>
    intro l s h
    exact .act (fun d => d.checkEnds l) rfl (Dev.checkEnds_ignored h)

end Sys2Proof.Machine
end

section
/-!
PROOFS. Counting, scheduled changes, heads, time and refused accesses: O20, O29, O39, O17, O5.
-/

namespace Sys2Proof.Machine

set_option Elab.async false

/-! ### Quadrature channels (R92, R93) -/

/-- The registers of a servo axis that show its position and its angle. -/
def servoShown : List Nat := [R.SV_a_LOOP.addr 0, R.SV_a_LOOP.addr 1, R.SV_a_POS.addr 0, R.SV_a_POS.addr 1]

section
variable {d e : Dev} {ps : List Part} {rs : List Nat}

theorem Dev.ChangesOnly.setQuad (h : d.ChangesOnly e ps rs) (hp : Part.web ∈ ps) (n : Nat) (f : Quad → Quad) : d.ChangesOnly (e.setQuad n f) ps rs :=
  h.setWeb hp

theorem Dev.quad_setQuad (f : Quad → Quad) {n : Nat} (h : n < d.web.quads.length) : (d.setQuad n f).quad n = f (d.quad n) := at'_modify_self f h

theorem Dev.setQuad_length (n : Nat) (f : Quad → Quad) : (d.setQuad n f).web.quads.length = d.web.quads.length := List.length_modify ..

/-- The angle computed anew touches what the axis shows alone. -/
theorem Dev.ChangesOnly.refreshAngle (h : d.ChangesOnly e ps rs) (hsrv : Part.srv ∈ ps) (hfree : Part.freeCtr ∈ ps) (hr : ∀ a ∈ servoShown, a ∈ rs) (a : Fin 2) :
    d.ChangesOnly (e.refreshAngle a) ps rs := by
  obtain ⟨th, k, he⟩ := e.refreshAngle_eq a
  have hshown : ∀ a : Fin 2, R.SV_a_POS.addr a ∈ servoShown ∧ R.SV_a_LOOP.addr a ∈ servoShown := by decide
  obtain ⟨hpos, hloop⟩ := hshown a
  rw [he, Dev.showSrv]
  exact .wr (.wrS (.wrS (.setSrvAxis (.setFreeCtr h hfree) hsrv ..) (hr _ hpos)) (hr _ hpos)) (hr _ hloop)

end

/-- A count that falls before the tick of an axis whose stages are still to run (R335). -/
def Dev.lateAxis (d : Dev) (n : Fin 4) (a : Fin 2) : Dev :=
  if d.srvRuns a ∧ d.qFeed a = some n then
    let total := (d.quad n).total
    (d.setSrv a fun x => { x with
      y := x.y + toSigned 32 (ofSigned 32 (total - x.count)) * d.rdS F.SV_a_FB_FB_SCALE a, count := total }).refreshAngle a
  else d

/-- What a late count adds to y of an axis. -/
def Dev.lateMove (d : Dev) (n : Fin 4) (a : Fin 2) : Int :=
  if d.srvRuns a = true ∧ d.qFeed a = some n then
    toSigned 32 (ofSigned 32 ((d.quad n).total - (d.sAxis a).count)) * d.rdS F.SV_a_FB_FB_SCALE a
  else 0

theorem Dev.lateCount_eq (d : Dev) (n : Fin 4) (t : Nat) :
    d.lateCount n t = if d.srv.due ∧ t < d.srv.tickT then (d.lateAxis n 0).lateAxis n 1 else d := rfl

section
variable (d : Dev) (n : Fin 4) (a : Fin 2)

theorem Dev.lateAxis_changes : d.ChangesOnly (d.lateAxis n a) [.srv, .freeCtr] servoShown :=
  .ite (.refreshAngle (.setSrvAxis .keep (by decide) ..) (by decide) (by decide) (fun _ h => h) a) .keep

theorem Dev.axes_refreshAngle : ∃ th, (d.refreshAngle a).srv.axes = d.srv.axes.modify a fun x => { x with theta := th } := by
  obtain ⟨th, k, he⟩ := d.refreshAngle_eq a
  exact ⟨th, by rw [he]; rfl⟩

theorem Dev.y_refreshAngle (ha : a < d.srv.axes.length) : ((d.refreshAngle a).sAxis a).y = (d.sAxis a).y := by
  obtain ⟨th, he⟩ := d.axes_refreshAngle a
  rw [Dev.sAxis, he, at'_modify_self _ ha]
  rfl

theorem Dev.sAxis_refreshAngle_other {c : Fin 2} (h : c ≠ a) : (d.refreshAngle a).sAxis c = d.sAxis c := by
  obtain ⟨th, he⟩ := d.axes_refreshAngle a
  rw [Dev.sAxis, he, at'_modify_ne _ (by omega)]
  rfl

theorem Dev.refreshAngle_length : (d.refreshAngle a).srv.axes.length = d.srv.axes.length := by
  obtain ⟨th, he⟩ := d.axes_refreshAngle a
  rw [he, List.length_modify]

theorem Dev.sAxis_setSrv_other (f : SrvAxis → SrvAxis) {c : Fin 2} (h : c ≠ a) : (d.setSrv a f).sAxis c = d.sAxis c :=
  at'_modify_ne f (by omega)

theorem Dev.lateAxis_other {c : Fin 2} (h : c ≠ a) : (d.lateAxis n a).sAxis c = d.sAxis c := by
  unfold Dev.lateAxis
  split
  · exact (Dev.sAxis_refreshAngle_other _ a h).trans (d.sAxis_setSrv_other a _ h)
  · rfl

theorem Dev.lateAxis_length : (d.lateAxis n a).srv.axes.length = d.srv.axes.length := by
  unfold Dev.lateAxis
  split
  · exact (Dev.refreshAngle_length _ a).trans (d.setSrv_axes_length a _)
  · rfl

theorem Dev.lateAxis_y (ha : a < d.srv.axes.length) : ((d.lateAxis n a).sAxis a).y = (d.sAxis a).y + d.lateMove n a := by
  unfold Dev.lateAxis Dev.lateMove
  split
  · refine (Dev.y_refreshAngle _ a (by rwa [Dev.setSrv_axes_length])).trans ?_
    rw [Dev.sAxis_setSrv _ ha]
  · rw [add_zero]

end

/-- What a late count adds reads the same once another axis has taken its own. -/
theorem Dev.lateMove_congr {d e : Dev} {rs : List Nat} (hc : d.ChangesOnly e [.srv, .freeCtr] rs) (n : Fin 4) (c : Fin 2) (hx : e.sAxis c = d.sAxis c)
    (hr : R.SV_a_FB.addr c ∉ rs) : e.lateMove n c = d.lateMove n c := by
  have hweb : e.web = d.web := hc.parts .web (by decide)
  have hpat : e.pat = d.pat := hc.parts .pat (by decide)
  have hsys : e.sys = d.sys := hc.parts .sys (by decide)
  have hscale : e.rdS F.SV_a_FB_FB_SCALE c = d.rdS F.SV_a_FB_FB_SCALE c := congrArg (toSigned _) (hc.rd hr)
  have hruns : e.srvRuns c = d.srvRuns c := by
    have hst : e.srvState c = d.srvState c := congrArg (fun x : Sys => ((List.lookup (Func.srv c) x.funcs).getD default).st) hsys
    rw [Dev.srvRuns, Dev.srvRuns, hx, hst]
  have hfeed : e.qFeed c = d.qFeed c := by rw [Dev.qFeed, Dev.servoSec, hpat]; rfl
  have hquad : e.quad n = d.quad n := by rw [Dev.quad, hweb]; rfl
  rw [Dev.lateMove, Dev.lateMove, hruns, hfeed, hquad, hx, hscale]

section
variable (d : Dev) (n : Fin 4) (t : Nat)

theorem Dev.lateCount_changes : d.ChangesOnly (d.lateCount n t) [.srv, .freeCtr] servoShown := by
  rw [Dev.lateCount_eq]
  exact .ite ((d.lateAxis_changes n 0).trans (Dev.lateAxis_changes _ n 1)) .keep

theorem Dev.lateCount_length : (d.lateCount n t).srv.axes.length = d.srv.axes.length := by
  rw [Dev.lateCount_eq]
  split
  · rw [Dev.lateAxis_length, Dev.lateAxis_length]
  · rfl

theorem Dev.lateCount_y (hlen : d.srv.axes.length = 2) (c : Fin 2) :
    ((d.lateCount n t).sAxis c).y = (d.sAxis c).y + if d.srv.due = true ∧ t < d.srv.tickT then d.lateMove n c else 0 := by
  rw [Dev.lateCount_eq]
  split
  case isTrue =>
    have hmove : (d.lateAxis n 0).lateMove n 1 = d.lateMove n 1 :=
      Dev.lateMove_congr (d.lateAxis_changes n 0) n 1 (d.lateAxis_other n 0 (by decide)) (by decide)
    match c with
    | 0 => exact (congrArg SrvAxis.y (Dev.lateAxis_other _ n 1 (c := 0) (by decide))).trans (d.lateAxis_y n 0 (by rw [hlen]; decide))
    | 1 =>
      refine (Dev.lateAxis_y _ n 1 (by rw [Dev.lateAxis_length, hlen]; decide)).trans ?_
      rw [hmove, d.lateAxis_other n 0 (c := 1) (by decide)]
  case isFalse => rw [add_zero]

end

/-! ### One count, and the web's measured position (R92, R96) -/

theorem Dev.showDebt_changes (d : Dev) : d.ChangesOnly d.showDebt [.web] [R.WT_DEBT.addr 0] := by
  unfold Dev.showDebt
  exact .ite (.setWeb (.wr .keep (by decide)) (by decide)) (.ite (.wr .keep (by decide)) (.setWeb (.wr .keep (by decide)) (by decide)))

theorem Dev.showDebt_web (d : Dev) : d.showDebt.web.pm = d.web.pm ∧ d.showDebt.web.quads = d.web.quads := by
  unfold Dev.showDebt
  dsimp only
  split
  · exact ⟨rfl, rfl⟩
  · split <;> exact ⟨rfl, rfl⟩

theorem Dev.webCount_changes (d : Dev) (sign : Int) (t : Nat) : d.ChangesOnly (d.webCount sign t) [.web] [R.WT_DEBT.addr 0] :=
  .ite .keep (.trans (.setWeb .keep (by decide)) (Dev.showDebt_changes _))

theorem Dev.webCount_web (d : Dev) (sign : Int) (t : Nat) :
    (d.webCount sign t).web.quads = d.web.quads ∧
      (d.webCount sign t).web.pm = if d.web.started = true then d.web.pm + sign * max 1 (d.rd F.WT_SCALE_SCALE) else d.web.pm := by
  by_cases hs : d.web.started = true
  · have hdo : (!d.web.started) = false := by simp [hs]
    rw [if_pos hs, Dev.webCount, hdo]
    exact ⟨(Dev.showDebt_web _).2, (Dev.showDebt_web _).1⟩
  · have hno : (!d.web.started) = true := by simpa using hs
    rw [if_neg hs, Dev.webCount, if_pos hno]
    exact ⟨rfl, rfl⟩

/-- The channel as a legal transition leaves it. -/
def Quad.counted (q : Quad) (level : Bool × Bool) (sign : Int) (t : Nat) : Quad :=
  { q with level, prev := q.last, last := t, total := q.total + sign }

/-- A legal transition of a channel that is on (R92). -/
def Dev.counted (d : Dev) (n : Fin 4) (level : Bool × Bool) (sign : Int) (t : Nat) : Dev :=
  let d := (d.wrS F.WT_Qn_COUNT_COUNT n (d.rdS F.WT_Qn_COUNT_COUNT n + sign)).setQuad n fun q => q.counted level sign t
  if n = 0 ∧ d.rd F.WT_SRC_CFG_SRC = 0 then d.webCount sign t else d

/-- The way that a legal transition counts. -/
def Dev.countSign (d : Dev) (n : Fin 4) (k : Nat) : Int := if decide (k = 1) != d.on F.WT_Qn_CFG_DIR_INV n then 1 else -1

section
variable {d : Dev} {n : Fin 4} {a b : Bool} {t : Nat}

theorem Dev.setQuad_setQuad (d : Dev) (n : Nat) (f g : Quad → Quad) : (d.setQuad n f).setQuad n g = d.setQuad n (g ∘ f) := by
  simp only [Dev.setQuad, List.modify_modify_eq]

theorem Dev.quadTransition_legal (hon : d.funcOn (.q n) = true)
    (hk : (gray (a, b) + 4 - gray (d.quad n).level) % 4 = 1 ∨ (gray (a, b) + 4 - gray (d.quad n).level) % 4 = 3) :
    d.quadTransition n a b t = d.counted n (a, b) (d.countSign n ((gray (a, b) + 4 - gray (d.quad n).level) % 4)) t := by
  have hon' : (d.setQuad n fun q => { q with level := (a, b) }).funcOn (.q n) = true := hon
  unfold Dev.quadTransition Dev.counted Dev.countSign
  simp only [hon', Bool.not_true, Bool.false_eq_true, if_false]
  generalize (gray (a, b) + 4 - gray (d.quad n).level) % 4 = k at hk ⊢
  have hmodify : ∀ (sign : Int) (v : Int), (((d.setQuad n fun q => { q with level := (a, b) }).wrS F.WT_Qn_COUNT_COUNT n v).setQuad n fun q =>
      { q with prev := q.last, last := t, total := q.total + sign }) = (d.wrS F.WT_Qn_COUNT_COUNT n v).setQuad n fun q => q.counted (a, b) sign t := by
    intro sign v
    exact Dev.setQuad_setQuad (d.wrS F.WT_Qn_COUNT_COUNT n v) n (fun q => { q with level := (a, b) }) fun q => { q with prev := q.last, last := t, total := q.total + sign }
  have hcond : ∀ e : Dev, (decide (n = 0) && e.webIsQ0) = true ↔ n = 0 ∧ e.rd F.WT_SRC_CFG_SRC = 0 := by
    intro e
    simp [Dev.webIsQ0, Dev.on]
  rcases hk with rfl | rfl
  all_goals
    simp only [hmodify]
    exact if_congr (hcond _) rfl rfl

theorem Dev.counted_changes (level : Bool × Bool) (sign : Int) : d.ChangesOnly (d.counted n level sign t) [.web] [R.WT_Qn_COUNT.addr n, R.WT_DEBT.addr 0] := by
  have hcount : d.ChangesOnly ((d.wrS F.WT_Qn_COUNT_COUNT n (d.rdS F.WT_Qn_COUNT_COUNT n + sign)).setQuad n fun q => q.counted level sign t)
      [.web] [R.WT_Qn_COUNT.addr n, R.WT_DEBT.addr 0] := .setQuad (.wrS .keep List.mem_cons_self) (by decide) n _
  exact .ite (hcount.trans ((Dev.webCount_changes _ sign t).mono (fun _ h => h) (by simp))) hcount

theorem Dev.counted_quad (hn : n < d.web.quads.length) (level : Bool × Bool) (sign : Int) :
    (d.counted n level sign t).quad n = (d.quad n).counted level sign t := by
  have hquad := Dev.quad_setQuad (d := d.wrS F.WT_Qn_COUNT_COUNT n (d.rdS F.WT_Qn_COUNT_COUNT n + sign)) (fun q => q.counted level sign t) hn
  unfold Dev.counted
  dsimp only
  split
  · rw [Dev.quad, (Dev.webCount_web _ sign t).1]
    exact hquad
  · exact hquad

theorem ofSigned_add (w n : Nat) (i : Int) : ofSigned w (toSigned w n + i) = (((n : Int) + i) % ((2 ^ w : Nat) : Int)).toNat := by
  have hmod : ((n : Int) % ((2 ^ w : Nat) : Int)) = ((n % 2 ^ w : Nat) : Int) := rfl
  have hsame : (toSigned w n + i) % ((2 ^ w : Nat) : Int) = ((n : Int) + i) % ((2 ^ w : Nat) : Int) := by
    unfold toSigned
    dsimp only
    split
    · rw [← hmod, Int.emod_add_emod]
    · rw [← hmod, sub_add_eq_add_sub, Int.sub_emod_right, Int.emod_add_emod]
  rw [ofSigned, hsame]

theorem Dev.counted_count (hr : keysRising 0 d.regs = true) (level : Bool × Bool) (sign : Int) :
    (d.counted n level sign t).rd F.WT_Qn_COUNT_COUNT n = (((d.rd F.WT_Qn_COUNT_COUNT n : Int) + sign) % ((2 ^ 32 : Nat) : Int)).toNat := by
  have hcount : ((d.wrS F.WT_Qn_COUNT_COUNT n (d.rdS F.WT_Qn_COUNT_COUNT n + sign)).setQuad n fun q => q.counted level sign t).rd F.WT_Qn_COUNT_COUNT n =
      (((d.rd F.WT_Qn_COUNT_COUNT n : Int) + sign) % ((2 ^ 32 : Nat) : Int)).toNat := by
    refine (Dev.rd_wr_lt (d := d) _ ?_ (by decide) hr).trans (ofSigned_add 32 _ sign)
    have hpos : 0 ≤ (d.rdS F.WT_Qn_COUNT_COUNT n + sign) % ((2 ^ 32 : Nat) : Int) ∧ (d.rdS F.WT_Qn_COUNT_COUNT n + sign) % ((2 ^ 32 : Nat) : Int) < 2 ^ 32 := by omega
    exact (Int.toNat_lt hpos.1).mpr hpos.2
  have hapart : ∀ n : Fin 4, R.WT_Qn_COUNT.addr n ∉ [R.WT_DEBT.addr 0] := by decide
  unfold Dev.counted
  dsimp only
  split
  · exact ((Dev.webCount_changes _ sign t).rd (hapart n)).trans hcount
  · exact hcount

theorem Dev.counted_pm (level : Bool × Bool) (sign : Int) :
    (d.counted n level sign t).web.pm = if n = 0 ∧ d.rd F.WT_SRC_CFG_SRC = 0 ∧ d.web.started = true then
      d.web.pm + sign * max 1 (d.rd F.WT_SCALE_SCALE) else d.web.pm := by
  have hset : d.ChangesOnly ((d.wrS F.WT_Qn_COUNT_COUNT n (d.rdS F.WT_Qn_COUNT_COUNT n + sign)).setQuad n fun q => q.counted level sign t)
      [.web] [R.WT_Qn_COUNT.addr n] := .setQuad (.wrS .keep List.mem_cons_self) (by decide) n _
  have hapart : ∀ n : Fin 4, R.WT_SRC_CFG.addr 0 ∉ [R.WT_Qn_COUNT.addr n] ∧ R.WT_SCALE.addr 0 ∉ [R.WT_Qn_COUNT.addr n] := by decide
  have hsrc := hset.rd (f := F.WT_SRC_CFG_SRC) (i := 0) (hapart n).1
  have hscale := hset.rd (f := F.WT_SCALE_SCALE) (i := 0) (hapart n).2
  unfold Dev.counted
  dsimp only
  rw [hsrc]
  by_cases hweb : n = 0 ∧ d.rd F.WT_SRC_CFG_SRC = 0
  · rw [if_pos hweb, (Dev.webCount_web _ sign t).2, hscale]
    exact if_congr (by simp [hweb]) rfl rfl
  · rw [if_neg hweb, if_neg (fun h => hweb ⟨h.1, h.2.1⟩)]
    rfl

end

/-! ### Illegal transitions (R93) -/

/-- The marks of an illegal transition. -/
def Dev.noteIllegal (d : Dev) (n : Fin 4) (t : Nat) : Dev :=
  let web := decide (n = 0) && d.webIsQ0
  let d := (d.bump F.WT_Qn_STAT_QERR n 1).wr F.WT_Qn_STAT_POS_UNCERTAIN n 1
  let d := if web then { d.wr F.WT_STAT_POS_UNCERTAIN 0 1 with web.lastQerr := t } else d
  d.setQuad n fun q => { q with illegal := t :: (d.quad n).illegal.take 2 }

/-- The fault on the web source: a started tracker coasts. -/
def Dev.webFault (d : Dev) (t : Nat) : Dev :=
  let d : Dev := { d.wr F.WT_STAT_QUAD_FAULT 0 1 with web.watch := t }
  if d.web.started ∧ d.webState ≠ 3 then d.enterCoast else d

/-- What the third illegal transition within 1 ms adds. -/
def Dev.quadFault (d : Dev) (n : Fin 4) (t : Nat) (web : Bool) : Dev :=
  let d := (d.wr F.WT_Qn_STAT_QUAD_FAULT n 1).raise .secure 0x0C01 [(1, n)]
  if web then d.webFault t else d

section
variable (d : Dev) (n : Fin 4) (t : Nat)

theorem Dev.illegal_eq : d.illegal n t = if threeWithin (t :: (d.quad n).illegal.take 2) = true then
    (d.noteIllegal n t).quadFault n t (decide (n = 0) && d.webIsQ0) else d.noteIllegal n t := by
  have hquad : ∀ c : Bool, (if c = true then { ((d.bump F.WT_Qn_STAT_QERR n 1).wr F.WT_Qn_STAT_POS_UNCERTAIN n 1).wr F.WT_STAT_POS_UNCERTAIN 0 1 with
      web.lastQerr := t } else (d.bump F.WT_Qn_STAT_QERR n 1).wr F.WT_Qn_STAT_POS_UNCERTAIN n 1).quad n = d.quad n := by
    intro c
    cases c <;> rfl
  simp only [Dev.illegal, Dev.noteIllegal, Dev.quadFault, Dev.webFault, hquad]

theorem Dev.noteIllegal_changes : d.ChangesOnly (d.noteIllegal n t) [.web] [R.WT_Qn_STAT.addr n, R.WT_STAT.addr 0] := by
  have hmarks : d.ChangesOnly ((d.bump F.WT_Qn_STAT_QERR n 1).wr F.WT_Qn_STAT_POS_UNCERTAIN n 1) [.web] [R.WT_Qn_STAT.addr n, R.WT_STAT.addr 0] :=
    .wr (.bump .keep List.mem_cons_self) List.mem_cons_self
  exact .setQuad (.ite (.setWeb (.wr hmarks (by simp [F.WT_STAT_POS_UNCERTAIN])) (by decide)) hmarks) (by decide) _ _

theorem Dev.noteIllegal_web : (d.noteIllegal n t).web.started = d.web.started := by
  unfold Dev.noteIllegal
  dsimp only
  split <;> rfl

theorem Dev.noteIllegal_quad (hn : n < d.web.quads.length) :
    (d.noteIllegal n t).quad n = { d.quad n with illegal := t :: (d.quad n).illegal.take 2 } := by
  unfold Dev.noteIllegal
  dsimp only
  split
  · exact Dev.quad_setQuad _ hn
  · exact Dev.quad_setQuad _ hn

theorem Dev.noteIllegal_rd (hr : keysRising 0 d.regs = true) :
    (d.noteIllegal n t).rd F.WT_Qn_STAT_POS_UNCERTAIN n = 1 ∧
      (d.noteIllegal n t).rd F.WT_Qn_STAT_QERR n = (d.rd F.WT_Qn_STAT_QERR n + 1) % 65536 ∧
      (d.noteIllegal n t).rd F.WT_STAT_STATE = d.rd F.WT_STAT_STATE := by
  have hsum : F.WT_Qn_STAT_QERR.sum (d.rd F.WT_Qn_STAT_QERR n) (1 : Nat) = (d.rd F.WT_Qn_STAT_QERR n + 1) % 65536 := by
    simp only [Fld.sum, F.WT_Qn_STAT_QERR, Bool.false_eq_true, if_false]
    omega
  have hapart : ∀ n : Fin 4, R.WT_Qn_STAT.addr n ≠ R.WT_STAT.addr 0 := by decide
  have hrise : keysRising 0 (d.bump F.WT_Qn_STAT_QERR n 1).regs = true := Dev.wr_rising _ _ _ _ hr
  have hpos : ((d.bump F.WT_Qn_STAT_QERR n 1).wr F.WT_Qn_STAT_POS_UNCERTAIN n 1).rd F.WT_Qn_STAT_POS_UNCERTAIN n = 1 :=
    Dev.rd_wr_lt _ (by decide) (by decide) hrise
  have hqerr : ((d.bump F.WT_Qn_STAT_QERR n 1).wr F.WT_Qn_STAT_POS_UNCERTAIN n 1).rd F.WT_Qn_STAT_QERR n = (d.rd F.WT_Qn_STAT_QERR n + 1) % 65536 := by
    rw [Dev.rd_wr_beside (f := F.WT_Qn_STAT_POS_UNCERTAIN) (g := F.WT_Qn_STAT_QERR) ⟨rfl, by decide, by decide⟩ _ _ hrise, Dev.rd_bump_self _ _ _ _ (by decide) hr, hsum]
  have hstate : ((d.bump F.WT_Qn_STAT_QERR n 1).wr F.WT_Qn_STAT_POS_UNCERTAIN n 1).rd F.WT_STAT_STATE = d.rd F.WT_STAT_STATE :=
    (Dev.rd_wr_ne _ _ _ _ _ _ (hapart n).symm).trans (Dev.rd_wr_ne _ _ _ _ _ _ (hapart n).symm)
  have hrise' := Dev.wr_rising _ F.WT_Qn_STAT_POS_UNCERTAIN n 1 hrise
  unfold Dev.noteIllegal
  generalize (d.bump F.WT_Qn_STAT_QERR n 1).wr F.WT_Qn_STAT_POS_UNCERTAIN n 1 = e at *
  dsimp only
  split
  · exact ⟨(Dev.rd_wr_ne e F.WT_STAT_POS_UNCERTAIN _ _ _ _ (hapart n)).trans hpos,
      (Dev.rd_wr_ne e F.WT_STAT_POS_UNCERTAIN _ _ _ _ (hapart n)).trans hqerr,
      (Dev.rd_wr_beside (d := e) (f := F.WT_STAT_POS_UNCERTAIN) (g := F.WT_STAT_STATE) ⟨rfl, by decide, by decide⟩ _ _ hrise').trans hstate⟩
  · exact ⟨hpos, hqerr, hstate⟩

theorem Dev.rd_suspend_state {cause : Nat} (hr : keysRising 0 d.regs = true) : (d.suspend cause).rd F.WT_STAT_STATE = d.rd F.WT_STAT_STATE := by
  unfold Dev.suspend
  split
  · rfl
  · rw [Dev.rd_wr_beside (f := F.WT_STAT_SUSP_CAUSE) (g := F.WT_STAT_STATE) ⟨rfl, by decide, by decide⟩ _ _ (Dev.wr_rising _ _ _ _ hr),
      Dev.rd_wr_beside (f := F.WT_STAT_SUSPENDED) (g := F.WT_STAT_STATE) ⟨rfl, by decide, by decide⟩ _ _ hr]

/-- COASTING begins: STATE is 3, and nothing but the observer's status and the events changes (R100). -/
theorem Dev.enterCoast_spec (hr : keysRising 0 d.regs = true) :
    d.ChangesOnly d.enterCoast [.web, .raised] [R.WT_STAT.addr 0] ∧ d.enterCoast.rd F.WT_STAT_STATE = 3 ∧ d.enterCoast.web.quads = d.web.quads ∧
      ∀ x ∈ d.raised, x ∈ d.enterCoast.raised := by
  have hstatus : ∀ e : Dev, keysRising 0 e.regs = true → e.ChangesOnly (e.setWebState 3) [.web, .raised] [R.WT_STAT.addr 0] ∧
      (e.setWebState 3).rd F.WT_STAT_STATE = 3 := by
    intro e hre
    have hrise := Dev.wr_rising e F.WT_STAT_STATE 0 3 hre
    refine ⟨.wrB (.wr .keep List.mem_cons_self) List.mem_cons_self, ?_⟩
    exact (Dev.rd_wr_beside (f := F.WT_STAT_SETTLING) (g := F.WT_STAT_STATE) ⟨rfl, by decide, by decide⟩ _ _ hrise).trans
      (Dev.rd_wr_lt _ (by decide) (by decide) hre)
  have hexhaust : ∀ e : Dev, keysRising 0 e.regs = true → e.ChangesOnly e.exhaust [.web, .raised] [R.WT_STAT.addr 0] ∧
      e.exhaust.rd F.WT_STAT_STATE = e.rd F.WT_STAT_STATE ∧ e.exhaust.web.quads = e.web.quads ∧ ∀ x ∈ e.raised, x ∈ e.exhaust.raised := by
    intro e hre
    by_cases hex : e.web.exhausted = true
    · rw [Dev.exhaust, if_pos hex]
      exact ⟨.keep, rfl, rfl, fun _ h => h⟩
    · rw [Dev.exhaust, if_neg hex]
      obtain ⟨hc, -, -, hweb, hraised⟩ := Dev.suspend_raise_spec hre (w := { e.web with exhausted := true }) (cause := 2) (code := 0x0C03) (p := [])
        (by decide) (by decide) (.inl rfl)
      refine ⟨hc, ?_, (congrArg Web.quads hweb :), fun x hx => by rw [hraised]; exact List.mem_append_left _ hx⟩
      refine (Dev.rd_raise_ne _ _ _ _ _ _ (by decide)).trans ?_
      exact Dev.rd_suspend_state _ hre
  obtain ⟨hc, hst⟩ := hstatus { d with web.a := 0, web.coastX := d.web.x, web.coastEdges := [], web.exhausted := false } hr
  have hcoast : d.ChangesOnly _ [.web, .raised] [R.WT_STAT.addr 0] := .trans (.setWeb .keep (by decide)) hc
  obtain ⟨hc', hst', hquads, hkept⟩ := hexhaust _ (hcoast.rising hr)
  unfold Dev.enterCoast
  dsimp only
  split
  · exact ⟨hcoast.trans hc', hst'.trans hst, hquads, hkept⟩
  · exact ⟨hcoast, hst, rfl, fun _ h => h⟩

theorem Dev.webFault_spec (hr : keysRising 0 d.regs = true) :
    d.ChangesOnly (d.webFault t) [.web, .raised] [R.WT_STAT.addr 0] ∧
      ((d.webFault t).rd F.WT_STAT_STATE = if d.web.started = true then 3 else d.rd F.WT_STAT_STATE) ∧ (d.webFault t).web.quads = d.web.quads ∧
      ∀ x ∈ d.raised, x ∈ (d.webFault t).raised := by
  have hwatch : d.ChangesOnly { d.wr F.WT_STAT_QUAD_FAULT 0 1 with web.watch := t } [.web, .raised] [R.WT_STAT.addr 0] :=
    .setWeb (.wr .keep List.mem_cons_self) (by decide)
  have hst : ({ d.wr F.WT_STAT_QUAD_FAULT 0 1 with web.watch := t } : Dev).rd F.WT_STAT_STATE = d.rd F.WT_STAT_STATE :=
    Dev.rd_wr_beside (d := d) (f := F.WT_STAT_QUAD_FAULT) (g := F.WT_STAT_STATE) ⟨rfl, by decide, by decide⟩ _ _ hr
  have hweb : ({ d.wr F.WT_STAT_QUAD_FAULT 0 1 with web.watch := t } : Dev).web.started = d.web.started := rfl
  have hquads : ({ d.wr F.WT_STAT_QUAD_FAULT 0 1 with web.watch := t } : Dev).web.quads = d.web.quads := rfl
  have hraised : ({ d.wr F.WT_STAT_QUAD_FAULT 0 1 with web.watch := t } : Dev).raised = d.raised := rfl
  rw [Dev.webFault]
  generalize ({ d.wr F.WT_STAT_QUAD_FAULT 0 1 with web.watch := t } : Dev) = g at *
  split
  case isTrue h =>
    obtain ⟨hcoast, h3, hsame, hkept⟩ := g.enterCoast_spec (hwatch.rising hr)
    exact ⟨hwatch.trans hcoast, by rw [h3, if_pos (hweb ▸ h.1)], hsame.trans hquads, fun x hx => hkept x (by rwa [hraised])⟩
  case isFalse h =>
    refine ⟨hwatch, ?_, hquads, fun x hx => by rwa [hraised]⟩
    split
    · next hs => by_contra hne; exact h ⟨hweb.trans hs, hne⟩
    · exact hst

theorem Dev.quadFault_spec (web : Bool) (hr : keysRising 0 d.regs = true) :
    d.ChangesOnly (d.quadFault n t web) [.web, .raised] [R.WT_Qn_STAT.addr n, R.WT_STAT.addr 0] ∧
      (d.quadFault n t web).rd F.WT_Qn_STAT_QUAD_FAULT n = 1 ∧
      (d.quadFault n t web).rd F.WT_Qn_STAT_POS_UNCERTAIN n = d.rd F.WT_Qn_STAT_POS_UNCERTAIN n ∧
      (d.quadFault n t web).rd F.WT_Qn_STAT_QERR n = d.rd F.WT_Qn_STAT_QERR n ∧
      d.event .secure 0x0C01 [(1, n)] ∈ (d.quadFault n t web).raised ∧
      (d.quadFault n t web).rd F.WT_STAT_STATE = (if web = true ∧ d.web.started = true then 3 else d.rd F.WT_STAT_STATE) ∧
      (d.quadFault n t web).web.quads = d.web.quads := by
  have hapart : ∀ n : Fin 4, R.WT_Qn_STAT.addr n ≠ R.SYS_FAULT_STAT.addr 0 ∧ R.WT_Qn_STAT.addr n ≠ R.WT_STAT.addr 0 ∧
    ∀ a ∈ eventRegs, a ∉ [R.WT_Qn_STAT.addr n] := by decide
  obtain ⟨hsum, hstat, hev⟩ := hapart n
  have hmark : d.ChangesOnly (d.wr F.WT_Qn_STAT_QUAD_FAULT n 1) [.web, .raised] [R.WT_Qn_STAT.addr n] := .wr .keep List.mem_cons_self
  have hpost : d.ChangesOnly ((d.wr F.WT_Qn_STAT_QUAD_FAULT n 1).raise .secure 0x0C01 [(1, n)]) [.web, .raised] [R.WT_Qn_STAT.addr n] :=
    hmark.raise (by decide) (.inl (by decide))
  have hfault : ((d.wr F.WT_Qn_STAT_QUAD_FAULT n 1).raise .secure 0x0C01 [(1, n)]).rd F.WT_Qn_STAT_QUAD_FAULT n = 1 :=
    (Dev.rd_raise_ne _ _ _ _ _ _ hsum).trans (Dev.rd_wr_lt _ (by decide) (by decide) hr)
  have hpos : ((d.wr F.WT_Qn_STAT_QUAD_FAULT n 1).raise .secure 0x0C01 [(1, n)]).rd F.WT_Qn_STAT_POS_UNCERTAIN n = d.rd F.WT_Qn_STAT_POS_UNCERTAIN n :=
    (Dev.rd_raise_ne _ _ _ _ _ _ hsum).trans (Dev.rd_wr_beside (f := F.WT_Qn_STAT_QUAD_FAULT) (g := F.WT_Qn_STAT_POS_UNCERTAIN) ⟨rfl, by decide, by decide⟩ _ _ hr)
  have hqerr : ((d.wr F.WT_Qn_STAT_QUAD_FAULT n 1).raise .secure 0x0C01 [(1, n)]).rd F.WT_Qn_STAT_QERR n = d.rd F.WT_Qn_STAT_QERR n :=
    (Dev.rd_raise_ne _ _ _ _ _ _ hsum).trans (Dev.rd_wr_beside (f := F.WT_Qn_STAT_QUAD_FAULT) (g := F.WT_Qn_STAT_QERR) ⟨rfl, by decide, by decide⟩ _ _ hr)
  have hst : ((d.wr F.WT_Qn_STAT_QUAD_FAULT n 1).raise .secure 0x0C01 [(1, n)]).rd F.WT_STAT_STATE = d.rd F.WT_STAT_STATE :=
    hpost.rd (by rw [List.mem_singleton]; exact hstat.symm)
  have hevent : d.event .secure 0x0C01 [(1, n)] ∈ ((d.wr F.WT_Qn_STAT_QUAD_FAULT n 1).raise .secure 0x0C01 [(1, n)]).raised := by
    rw [← hmark.event (by decide) hev]
    exact Dev.mem_raise ..
  have hstarted : ((d.wr F.WT_Qn_STAT_QUAD_FAULT n 1).raise .secure 0x0C01 [(1, n)]).web = d.web := Dev.raise_web ..
  have hrise := hpost.rising hr
  unfold Dev.quadFault
  generalize (d.wr F.WT_Qn_STAT_QUAD_FAULT n 1).raise .secure 0x0C01 [(1, n)] = e at *
  have hpost' : d.ChangesOnly e [.web, .raised] [R.WT_Qn_STAT.addr n, R.WT_STAT.addr 0] := hpost.mono (fun _ h => h) (by simp)
  cases web with
  | false => exact ⟨hpost', hfault, hpos, hqerr, hevent, by simpa using hst, congrArg Web.quads hstarted⟩
  | true =>
    obtain ⟨hc, hst', hquads, hkept⟩ := e.webFault_spec t hrise
    have hout : R.WT_Qn_STAT.addr n ∉ [R.WT_STAT.addr 0] := by rw [List.mem_singleton]; exact hstat
    rw [if_pos rfl]
    refine ⟨hpost'.trans (hc.mono (fun _ h => h) (by simp)), (hc.rd hout).trans hfault, (hc.rd hout).trans hpos, (hc.rd hout).trans hqerr, hkept _ hevent, ?_, hquads.trans (congrArg Web.quads hstarted)⟩
    rw [hst', hstarted, hst]
    exact if_congr (by simp) rfl rfl

/-- The feedback of an axis that the channel feeds counts as bad (R349). -/
def Dev.feedAxis (d : Dev) (n : Fin 4) (a : Fin 2) : Dev :=
  if (d.servoSec a).enable ∧ d.qFeed a = some n then d.setSrv a fun x => { x with feedBad := true } else d

theorem Dev.feedFault_eq : d.feedFault n = (d.feedAxis n 0).feedAxis n 1 := rfl

theorem Dev.feedAxis_changes (a : Fin 2) : d.ChangesOnly (d.feedAxis n a) [.srv] [] := .ite (.setSrvAxis .keep (by decide) ..) .keep

theorem Dev.feedAxis_bad (a : Fin 2) (ha : a < d.srv.axes.length) (he : (d.servoSec a).enable = true) (hf : d.qFeed a = some n) :
    ((d.feedAxis n a).sAxis a).feedBad = true := by
  rw [Dev.feedAxis, if_pos ⟨he, hf⟩, Dev.sAxis_setSrv _ ha]

theorem Dev.feedAxis_other (a : Fin 2) {c : Fin 2} (h : c ≠ a) : (d.feedAxis n a).sAxis c = d.sAxis c := by
  unfold Dev.feedAxis
  split
  · exact d.sAxis_setSrv_other a _ h
  · rfl

theorem Dev.feedFault_changes : d.ChangesOnly (d.feedFault n) [.srv] [] := (d.feedAxis_changes n 0).trans (Dev.feedAxis_changes _ n 1)

theorem Dev.feedFault_bad (hlen : d.srv.axes.length = 2) (c : Fin 2) (he : (d.servoSec c).enable = true) (hf : d.qFeed c = some n) :
    ((d.feedFault n).sAxis c).feedBad = true := by
  rw [Dev.feedFault_eq]
  match c with
  | 0 => exact (congrArg SrvAxis.feedBad (Dev.feedAxis_other _ n 1 (c := 0) (by decide))).trans (d.feedAxis_bad n 0 (by rw [hlen]; decide) he hf)
  | 1 =>
    have hpat : (d.feedAxis n 0).pat = d.pat := (d.feedAxis_changes n 0).parts .pat (by decide)
    have hlen' : (d.feedAxis n 0).srv.axes.length = 2 := by
      unfold Dev.feedAxis
      split
      · rw [Dev.setSrv_axes_length, hlen]
      · exact hlen
    refine Dev.feedAxis_bad _ n 1 (by rw [hlen']; decide) ?_ ?_
    · rwa [Dev.servoSec, hpat]
    · rwa [Dev.qFeed, Dev.servoSec, hpat]

end

section
variable {d : Dev} {n : Fin 4} {a b : Bool} {t : Nat}

theorem Dev.quadTransition_illegal (hon : d.funcOn (.q n) = true) (hk : (gray (a, b) + 4 - gray (d.quad n).level) % 4 = 2) :
    d.quadTransition n a b t = (d.setQuad n fun q => { q with level := (a, b) }).illegal n t := by
  have hon' : (d.setQuad n fun q => { q with level := (a, b) }).funcOn (.q n) = true := hon
  unfold Dev.quadTransition
  simp only [hon', hk, Bool.not_true, Bool.false_eq_true, if_false]

/-- What a change of a channel's levels does. -/
def Dev.quadChange (n : Fin 4) (a b : Bool) (t : Nat) (d : Dev) : Dev :=
  let illegal := decide ((gray (a, b) + 4 - gray (d.quad n).level) % 4 = 2) && d.funcOn (.q n)
  let d := (d.quadTransition n a b t).lateCount n t
  if illegal && threeWithin (d.quad n).illegal then d.feedFault n else d

theorem exec_quadTransition (s : State) : exec (.quadTransition n a b t) s = s.actInOrder (Dev.quadChange n a b t) := rfl

theorem runs_quadTransition_legal (s : State) (hon : s.dev.funcOn (.q n) = true)
    (hk : (gray (a, b) + 4 - gray (s.dev.quad n).level) % 4 = 1 ∨ (gray (a, b) + 4 - gray (s.dev.quad n).level) % 4 = 3) :
    Runs (.quadTransition n a b t) s
      { s with dev := (s.dev.counted n (a, b) (s.dev.countSign n ((gray (a, b) + 4 - gray (s.dev.quad n).level) % 4)) t).lateCount n t }
      [.web, .srv, .freeCtr] (R.WT_Qn_COUNT.addr n :: R.WT_DEBT.addr 0 :: servoShown) := by
  generalize hsign : s.dev.countSign n ((gray (a, b) + 4 - gray (s.dev.quad n).level) % 4) = sign
  have hcount := s.dev.counted_changes (n := n) (t := t) (a, b) sign
  have hlate := (s.dev.counted n (a, b) sign t).lateCount_changes n t
  have hc : s.dev.ChangesOnly ((s.dev.counted n (a, b) sign t).lateCount n t) [.web, .srv, .freeCtr] (R.WT_Qn_COUNT.addr n :: R.WT_DEBT.addr 0 :: servoShown) :=
    (hcount.mono (by simp) (by simp)).trans (hlate.mono (by simp) fun _ h => List.mem_cons_of_mem _ (List.mem_cons_of_mem _ h))
  have hno : (decide ((gray (a, b) + 4 - gray (s.dev.quad n).level) % 4 = 2) && s.dev.funcOn (.q n)) = false := by
    have h2 : (gray (a, b) + 4 - gray (s.dev.quad n).level) % 4 ≠ 2 := by omega
    simp [h2]
  refine .inOrder _ (exec_quadTransition s) ?_ (Dev.orderEvents_none (by rw [hc.parts .raised (by decide)])) hc
  simp only [Dev.quadChange, hno, Bool.false_and, Bool.false_eq_true, if_false, Dev.quadTransition_legal hon hk, hsign]

/-- Neither kind of late count touches the levels, the count or the web. -/
theorem Dev.lateCount_web (d : Dev) (n : Fin 4) (t : Nat) : (d.lateCount n t).web = d.web := (d.lateCount_changes n t).parts .web (by decide)

theorem Dev.lateMove_counted (d : Dev) (n : Fin 4) (level : Bool × Bool) (sign : Int) (t : Nat) (hn : n < d.web.quads.length) (c : Fin 2) :
    (if (d.counted n level sign t).srv.due = true ∧ t < (d.counted n level sign t).srv.tickT then (d.counted n level sign t).lateMove n c else 0) =
      if d.srv.due = true ∧ t < d.srv.tickT ∧ d.srvRuns c = true ∧ d.qFeed c = some n then
        toSigned 32 (ofSigned 32 ((d.quad n).total + sign - (d.sAxis c).count)) * d.rdS F.SV_a_FB_FB_SCALE c else 0 := by
  have hc := d.counted_changes (n := n) (t := t) level sign
  have hapart : ∀ (n : Fin 4) (c : Fin 2), R.SV_a_FB.addr c ∉ [R.WT_Qn_COUNT.addr n, R.WT_DEBT.addr 0] := by decide
  have hsrv : (d.counted n level sign t).srv = d.srv := hc.parts .srv (by decide)
  have hpat : (d.counted n level sign t).pat = d.pat := hc.parts .pat (by decide)
  have hsys : (d.counted n level sign t).sys = d.sys := hc.parts .sys (by decide)
  have hquad : ((d.counted n level sign t).quad n).total = (d.quad n).total + sign := by rw [Dev.counted_quad hn]; rfl
  have hscale : (d.counted n level sign t).rdS F.SV_a_FB_FB_SCALE c = d.rdS F.SV_a_FB_FB_SCALE c := congrArg (toSigned _) (hc.rd (hapart n c))
  generalize d.counted n level sign t = e at *
  have hx : e.sAxis c = d.sAxis c := by rw [Dev.sAxis, hsrv]; rfl
  have hst : e.srvState c = d.srvState c := congrArg (fun x : Sys => ((List.lookup (Func.srv c) x.funcs).getD default).st) hsys
  have hruns : e.srvRuns c = d.srvRuns c := by rw [Dev.srvRuns, Dev.srvRuns, hx, hst]
  have hfeed : e.qFeed c = d.qFeed c := by rw [Dev.qFeed, Dev.servoSec, hpat]; rfl
  rw [Dev.lateMove, hsrv, hruns, hfeed, hquad, hx, hscale]
  by_cases h : d.srv.due = true ∧ t < d.srv.tickT
  · rw [if_pos h]
    exact if_congr (by simp [h]) rfl rfl
  · rw [if_neg h, if_neg (fun hh => h ⟨hh.1, hh.2.1⟩)]

/-- The marks of an illegal transition on a channel whose new levels are kept. -/
theorem Dev.illegal_marks {d : Dev} (hn : n < d.web.quads.length) (hr : keysRising 0 d.regs = true) :
    let e := (d.setQuad n fun q => { q with level := (a, b) }).noteIllegal n t
    d.ChangesOnly e [.web] [R.WT_Qn_STAT.addr n, R.WT_STAT.addr 0] ∧ e.web.started = d.web.started ∧
      e.quad n = { d.quad n with level := (a, b), illegal := t :: (d.quad n).illegal.take 2 } ∧
      e.rd F.WT_Qn_STAT_POS_UNCERTAIN n = 1 ∧ e.rd F.WT_Qn_STAT_QERR n = (d.rd F.WT_Qn_STAT_QERR n + 1) % 65536 ∧
      e.rd F.WT_STAT_STATE = d.rd F.WT_STAT_STATE := by
  intro e
  have hlevel : d.ChangesOnly (d.setQuad n fun q => { q with level := (a, b) }) [.web] [R.WT_Qn_STAT.addr n, R.WT_STAT.addr 0] :=
    .setQuad .keep (by decide) _ _
  have hquad : (d.setQuad n fun q => { q with level := (a, b) }).quad n = { d.quad n with level := (a, b) } := Dev.quad_setQuad _ hn
  have hmarked := Dev.noteIllegal_quad (d.setQuad n fun q => { q with level := (a, b) }) n t (by rwa [Dev.setQuad_length])
  rw [hquad] at hmarked
  exact ⟨hlevel.trans (Dev.noteIllegal_changes _ n t), Dev.noteIllegal_web .., hmarked, Dev.noteIllegal_rd _ n t hr⟩

/-- The test of the third illegal transition reads the same after the late counts. -/
theorem Dev.quadChange_illegal {d : Dev} (hon : d.funcOn (.q n) = true) (hk : (gray (a, b) + 4 - gray (d.quad n).level) % 4 = 2)
    {e : Dev} (he : d.quadTransition n a b t = e) (hill : (e.quad n).illegal = t :: (d.quad n).illegal.take 2) :
    Dev.quadChange n a b t d = if threeWithin (t :: (d.quad n).illegal.take 2) = true then (e.lateCount n t).feedFault n else e.lateCount n t := by
  have hlate : ((e.lateCount n t).quad n).illegal = t :: (d.quad n).illegal.take 2 := by rw [Dev.quad, Dev.lateCount_web]; exact hill
  simp only [Dev.quadChange, he, hk, hon, hlate, decide_true, Bool.true_and]

theorem quadTransition_illegal_clause (s : State) (hinv : s.Inv) (hon : s.dev.funcOn (.q n) = true)
    (hk : (gray (a, b) + 4 - gray (s.dev.quad n).level) % 4 = 2) (hno : threeWithin (t :: (s.dev.quad n).illegal.take 2) = false) :
    ∃ u, Runs (.quadTransition n a b t) s u [.web, .srv, .freeCtr] (R.WT_Qn_STAT.addr n :: R.WT_STAT.addr 0 :: servoShown) ∧
      (u.dev.quad n).level = (a, b) ∧ u.dev.rd F.WT_Qn_STAT_POS_UNCERTAIN n = 1 ∧
      u.dev.rd F.WT_Qn_STAT_QERR n = (s.dev.rd F.WT_Qn_STAT_QERR n + 1) % 65536 ∧ u.dev.rd F.WT_STAT_STATE = s.dev.rd F.WT_STAT_STATE := by
  have hn : (n : Nat) < s.dev.web.quads.length := by rw [hinv.quads]; exact n.isLt
  have hapart : ∀ n : Fin 4, R.WT_Qn_STAT.addr n ∉ servoShown := by decide
  have hdo := (Dev.quadTransition_illegal (t := t) hon hk).trans ((Dev.illegal_eq _ n t).trans (if_neg (by
    rw [Dev.quad_setQuad _ hn, hno]
    decide)))
  obtain ⟨hc, -, hquad, hpos, hqerr, hst⟩ := Dev.illegal_marks (a := a) (b := b) (t := t) hn hinv.regs
  have hchange := Dev.quadChange_illegal hon hk hdo (by rw [hquad])
  rw [hno] at hchange
  generalize (s.dev.setQuad n fun q => { q with level := (a, b) }).noteIllegal n t = e at *
  have hlate := e.lateCount_changes n t
  have hall : s.dev.ChangesOnly (e.lateCount n t) [.web, .srv, .freeCtr] (R.WT_Qn_STAT.addr n :: R.WT_STAT.addr 0 :: servoShown) :=
    (hc.mono (by simp) (by simp)).trans (hlate.mono (by simp) fun _ h => List.mem_cons_of_mem _ (List.mem_cons_of_mem _ h))
  refine ⟨_, .inOrder _ (exec_quadTransition s) hchange (Dev.orderEvents_none (Nat.le_of_eq (congrArg List.length (hall.parts .raised (by decide))))) hall,
    ?_, (hlate.rd (hapart n)).trans hpos, (hlate.rd (hapart n)).trans hqerr, (hlate.rd (by decide)).trans hst⟩
  show ((e.lateCount n t).quad n).level = (a, b)
  rw [Dev.quad, Dev.lateCount_web]
  exact congrArg Quad.level hquad

theorem quadTransition_fault_clause (s : State) (hinv : s.Inv) (hon : s.dev.funcOn (.q n) = true)
    (hk : (gray (a, b) + 4 - gray (s.dev.quad n).level) % 4 = 2) (hthird : threeWithin (t :: (s.dev.quad n).illegal.take 2) = true) :
    ∃ u, Runs (.quadTransition n a b t) s u [.web, .srv, .freeCtr, .raised] (R.WT_Qn_STAT.addr n :: R.WT_STAT.addr 0 :: servoShown) ∧
      u.dev.rd F.WT_Qn_STAT_QUAD_FAULT n = 1 ∧ u.dev.rd F.WT_Qn_STAT_POS_UNCERTAIN n = 1 ∧
      u.dev.rd F.WT_Qn_STAT_QERR n = (s.dev.rd F.WT_Qn_STAT_QERR n + 1) % 65536 ∧
      s.dev.event .secure 0x0C01 [(1, n)] ∈ u.dev.raised ∧
      (∀ c : Fin 2, (s.dev.servoSec c).enable = true → s.dev.qFeed c = some n → (u.dev.sAxis c).feedBad = true) ∧
      u.dev.rd F.WT_STAT_STATE = (if n = 0 ∧ s.dev.rd F.WT_SRC_CFG_SRC = 0 ∧ s.dev.web.started = true then 3 else s.dev.rd F.WT_STAT_STATE) := by
  have hn : (n : Nat) < s.dev.web.quads.length := by rw [hinv.quads]; exact n.isLt
  have hapart : ∀ n : Fin 4, R.WT_Qn_STAT.addr n ∉ servoShown ∧ ∀ a ∈ eventRegs, a ∉ [R.WT_Qn_STAT.addr n, R.WT_STAT.addr 0] := by decide
  obtain ⟨hstat, hev⟩ := hapart n
  have hweb : ((decide (n = 0) && (s.dev.setQuad n fun q => { q with level := (a, b) }).webIsQ0) = true) ↔ n = 0 ∧ s.dev.rd F.WT_SRC_CFG_SRC = 0 := by
    have hsrc : (s.dev.setQuad n fun q => { q with level := (a, b) }).rd F.WT_SRC_CFG_SRC = s.dev.rd F.WT_SRC_CFG_SRC := rfl
    simp [Dev.webIsQ0, Dev.on, hsrc]
  have hdo := (Dev.quadTransition_illegal (t := t) hon hk).trans ((Dev.illegal_eq _ n t).trans (if_pos (by
    rw [Dev.quad_setQuad _ hn]
    exact hthird)))
  obtain ⟨hc, hstarted, hquad, hpos, hqerr, hst⟩ := Dev.illegal_marks (a := a) (b := b) (t := t) hn hinv.regs
  generalize (decide (n = 0) && (s.dev.setQuad n fun q => { q with level := (a, b) }).webIsQ0) = web at *
  generalize (s.dev.setQuad n fun q => { q with level := (a, b) }).noteIllegal n t = e at *
  obtain ⟨hfc, hfault, hfpos, hfqerr, hevent, hfst, hfquads⟩ := e.quadFault_spec n t web (hc.rising hinv.regs)
  have hill : ((e.quadFault n t web).quad n).illegal = t :: (s.dev.quad n).illegal.take 2 := by
    rw [Dev.quad, hfquads]
    exact congrArg Quad.illegal hquad
  have hchange := Dev.quadChange_illegal hon hk hdo hill
  rw [if_pos hthird] at hchange
  have hall : s.dev.ChangesOnly (e.quadFault n t web) [.web, .raised] [R.WT_Qn_STAT.addr n, R.WT_STAT.addr 0] := (hc.mono (by simp) (fun _ h => h)).trans hfc
  rw [hc.event (by decide) hev] at hevent
  generalize e.quadFault n t web = g at *
  have hlate := g.lateCount_changes n t
  have hfeed := (g.lateCount n t).feedFault_changes n
  have hlast : s.dev.ChangesOnly ((g.lateCount n t).feedFault n) [.web, .srv, .freeCtr, .raised] (R.WT_Qn_STAT.addr n :: R.WT_STAT.addr 0 :: servoShown) :=
    ((hall.mono (by simp) (by simp)).trans (hlate.mono (by simp) fun _ h => List.mem_cons_of_mem _ (List.mem_cons_of_mem _ h))).trans
      (hfeed.mono (by simp) (by simp))
  have hsame : ∀ {f : Fld} {i : Nat}, f.reg.addr i ∉ servoShown → ((g.lateCount n t).feedFault n).rd f i = g.rd f i := fun h =>
    (hfeed.rd (by simp)).trans (hlate.rd h)
  refine ⟨_, .ordered _ (exec_quadTransition s) hchange (by decide) hlast, (hsame hstat).trans hfault, (hsame hstat).trans (hfpos.trans hpos),
    (hsame hstat).trans (hfqerr.trans hqerr), ?_, fun c hen hf => ?_, (hsame (by decide)).trans (hfst.trans ?_)⟩
  · refine Dev.mem_orderEvents.mpr ?_
    rw [hfeed.parts .raised (by decide), hlate.parts .raised (by decide)]
    exact hevent
  · have hpat : (g.lateCount n t).pat = s.dev.pat := (hlate.parts .pat (by decide)).trans (hall.parts .pat (by decide))
    refine Dev.feedFault_bad _ n ?_ c ?_ ?_
    · rw [Dev.lateCount_length, hall.parts .srv (by decide)]
      exact hinv.srvAxes
    · rwa [Dev.servoSec, hpat]
    · rwa [Dev.qFeed, Dev.servoSec, hpat]
  · rw [hstarted, hst]
    exact if_congr (by rw [hweb, and_assoc]) rfl rfl

end

/-- Settles O20: by what one transition leaves of the channel and the web, and by what a late count adds to the axes it feeds. -/
theorem quadratureCounts : Obligations.QuadratureCounts := by
  unfold Obligations.QuadratureCounts
  refine ⟨?legal, ?illegal⟩
  case legal =>
    intro n a b t s k up hinv hon hk
    have hn : (n : Nat) < s.dev.web.quads.length := by rw [hinv.quads]; exact n.isLt
    have hapart : ∀ n : Fin 4, R.WT_Qn_COUNT.addr n ∉ servoShown := by decide
    have hruns := runs_quadTransition_legal (t := t) s hon hk
    obtain ⟨sign, hsign⟩ : ∃ sign, s.dev.countSign n ((gray (a, b) + 4 - gray (s.dev.quad n).level) % 4) = sign := ⟨_, rfl⟩
    rw [hsign] at hruns
    replace hsign : (if up = true then 1 else -1) = sign := hsign
    refine ⟨_, hruns, ?_, ((Dev.lateCount_changes _ n t).rd (hapart n)).trans ?_, ?_, fun c => ?_⟩
    · rw [Dev.quad, Dev.lateCount_web]
      exact congrArg Quad.level (Dev.counted_quad hn (a, b) sign)
    · rw [Dev.counted_count hinv.regs]
      have hlt : s.dev.rd F.WT_Qn_COUNT_COUNT n < 2 ^ 32 := Dev.rd_lt ..
      by_cases hup : up = true
      · rw [if_pos hup] at hsign ⊢
        omega
      · rw [if_neg hup] at hsign ⊢
        omega
    · rw [Dev.lateCount_web, Dev.counted_pm, ← hsign]
      refine if_congr Iff.rfl ?_ rfl
      split <;> ring
    · have hlen : (s.dev.counted n (a, b) sign t).srv.axes.length = 2 := by
        rw [(s.dev.counted_changes (t := t) (a, b) sign).parts .srv (by decide)]
        exact hinv.srvAxes
      refine (Dev.lateCount_y _ n t hlen c).trans ?_
      rw [Dev.lateMove_counted _ _ _ _ _ hn, hsign, Dev.sAxis, (s.dev.counted_changes (n := n) (t := t) (a, b) sign).parts .srv (by decide)]
      rfl
  case illegal =>
    intro n a b t s third hinv hon hk
    exact ⟨fun h => quadTransition_illegal_clause s hinv hon hk h, fun h => quadTransition_fault_clause s hinv hon hk h⟩

/-! ### Changes held for their switch point (R148) -/

/-- The changes of a list without a switch point. -/
def pointless (l : List Switch) : List Switch := l.filter fun s => s.point.isNone

theorem mem_pointless {l : List Switch} {s : Switch} : s ∈ pointless l ↔ s ∈ l ∧ s.point = none := by
  simp [pointless]

theorem openPoints_eq (l : List Switch) : openPoints l = l.countP fun s => s.point.isSome && !s.passed := List.countP_eq_length_filter.symm

/-- From d to e switch points have passed and gone, and nothing else of the switches has changed. -/
structure Dev.Passes (d e : Dev) : Prop where
  changes : d.ChangesOnly e [.las, .raised] []
  pointless : pointless e.las.switches = pointless d.las.switches
  openPts : openPoints e.las.switches ≤ openPoints d.las.switches
  highest : e.las.highest = d.las.highest

theorem Dev.Passes.refl (d : Dev) : d.Passes d := ⟨.keep, rfl, le_rfl, rfl⟩

theorem Dev.Passes.trans {d e f : Dev} (h : d.Passes e) (h' : e.Passes f) : d.Passes f :=
  ⟨h.changes.trans h'.changes, h'.pointless.trans h.pointless, h'.openPts.trans h.openPts, h'.highest.trans h.highest⟩

theorem Dev.Passes.foldl {f : Dev → Switch → Dev} (hf : ∀ (d : Dev) s, d.Passes (f d s)) (l : List Switch) (d : Dev) : d.Passes (l.foldl f d) := by
  induction l generalizing d with
  | nil => exact .refl d
  | cons s l ih => exact (hf d s).trans (ih _)

/-- Marking a point as passed leaves the changes without one, and opens none. -/
theorem Dev.Passes.mark (d : Dev) {s : Switch} (h : s.point.isSome = true) :
    d.Passes (d.mapSwitches fun l => l.map fun t => if t = s then { t with passed := true } else t) where
  changes := .setLas .keep (by decide)
  pointless := by
    have hsame : ∀ t : Switch, (if t = s then { t with passed := true } else t).point = t.point := by
      intro t
      split <;> rfl
    simp only [Dev.mapSwitches, Sys2Proof.Machine.pointless, List.filter_map, Function.comp_def, hsame]
    refine (List.map_congr_left fun t ht => ?_).trans (List.map_id _)
    have hno : t.point = none := by simpa using (List.mem_filter.mp ht).2
    exact if_neg fun he => by simp [← he, hno] at h
  openPts := by
    simp only [Dev.mapSwitches, openPoints_eq, List.countP_map]
    refine List.countP_mono_left fun t _ => ?_
    simp only [Function.comp_def]
    split <;> simp
  highest := rfl

theorem Dev.Passes.raise {d e : Dev} (h : d.Passes e) (p : List (Nat × Nat)) : d.Passes (e.raise .secure 0x0803 p) where
  changes := h.changes.raise (by decide) (.inl (by decide))
  pointless := by rw [Dev.raise_las, h.pointless]
  openPts := by rw [Dev.raise_las]; exact h.openPts
  highest := by rw [Dev.raise_las, h.highest]

theorem Dev.passSwitch_passes (d : Dev) (s : Switch) : d.Passes (d.passSwitch s) := by
  unfold Dev.passSwitch
  split
  · exact .refl d
  · next n hn =>
    split
    · exact .refl d
    · have hmark := Dev.Passes.mark d (s := s) (by rw [hn]; rfl)
      dsimp only
      split
      · exact hmark.raise _
      · exact hmark.raise _
      · exact hmark

/-- A passed point that goes leaves the changes without one. -/
theorem Dev.Passes.erase (d : Dev) {s : Switch} (h : s.point.isSome = true) (e : Dev) (hc : d.ChangesOnly e [.las, .raised] [])
    (hl : e.las.switches = d.las.switches.erase s) (hh : e.las.highest = d.las.highest) : d.Passes e where
  changes := hc
  pointless := by
    have hout : s ∉ d.las.switches.filter fun s => s.point.isNone := fun hm => by
      rw [(mem_pointless.mp hm).2] at h
      cases h
    rw [hl, Sys2Proof.Machine.pointless, ← List.erase_filter, List.erase_of_not_mem hout]
    rfl
  openPts := by
    rw [hl, openPoints_eq, openPoints_eq]
    exact List.erase_sublist.countP_le
  highest := hh

theorem Dev.foldSwitch_passes (d : Dev) (s : Switch) : d.Passes (d.foldSwitch s) := by
  unfold Dev.foldSwitch
  split
  · exact .refl d
  · next n hn =>
    split
    · exact .refl d
    · have hsome : s.point.isSome = true := by rw [hn]; rfl
      have hmap : d.ChangesOnly (d.mapSwitches fun l => l.erase s) [.las, .raised] [] := .setLas .keep (by decide)
      dsimp only
      split
      case h_4 => exact .erase d hsome _ hmap rfl rfl
      all_goals exact .erase d hsome _ (.setLas hmap (by decide)) rfl rfl

/-! ### Giving and holding points -/

theorem sameField_refl (c : Change) : sameField c c = true := by cases c <;> simp [sameField]

theorem openPoints_givePoint_le (w : Switch) (n : Int) (l : List Switch) : openPoints (givePoint w n l) ≤ openPoints l + l.countP (· = w) := by
  have hone : ∀ s : Switch, ((if s = w then { s with point := some n, held := false } else s).point.isSome &&
      !(if s = w then { s with point := some n, held := false } else s).passed) = true → ((s.point.isSome && !s.passed) || decide (s = w)) = true := by
    intro s
    by_cases h : s = w <;> simp [h]
  have hor : ∀ l : List Switch, (l.countP fun s => (s.point.isSome && !s.passed) || decide (s = w)) ≤
      (l.countP fun s => s.point.isSome && !s.passed) + l.countP (· = w) := by
    intro l
    induction l with
    | nil => rfl
    | cons s l ih =>
      rw [List.countP_cons, List.countP_cons, List.countP_cons]
      cases s.point.isSome && !s.passed <;> cases decide (s = w) <;> simp <;> omega
  rw [openPoints_eq, openPoints_eq, givePoint, List.countP_map]
  calc _ ≤ _ := List.countP_mono_left (fun s _ h => hone s h)
    _ ≤ _ := List.filter_sublist.countP_le
    _ ≤ _ := hor l

/-- What releasing changes keeps: those that do not wait, and of those without a point what they are. -/
structure Dev.FreesSwitches (d e : Dev) : Prop where
  changes : d.ChangesOnly e [.las, .raised] []
  kept : ∀ s ∈ d.las.switches, s.point = none → s.nextLine = false → s ∈ e.las.switches
  fields : ∀ s ∈ e.las.switches, s.point = none → ∃ t ∈ d.las.switches, t.point = none ∧ t.what = s.what

theorem Dev.releaseSwitches_frees (n : Nat) (d : Dev) : d.FreesSwitches (d.releaseSwitches n) := by
  induction n generalizing d with
  | zero => exact ⟨.keep, fun s h _ _ => h, fun s h hn => ⟨s, h, hn, rfl⟩⟩
  | succ n ih =>
    rw [Dev.releaseSwitches]
    split
    · refine ⟨.setLas .keep (by decide), fun s hs hn hl => ?_, fun s hs hn => ?_⟩
      · exact List.mem_map.mpr ⟨s, hs, if_neg (by simp [Switch.waits, hl])⟩
      · obtain ⟨t, ht, rfl⟩ := List.mem_map.mp hs
        refine ⟨t, ht, ?_, ?_⟩
        · rw [← hn]; split <;> rfl
        · split <;> rfl
    · next w hw =>
      have hwaits : w.waits = true := by
        have := List.find?_some hw
        simp only [Dev.fitsNow, Bool.and_eq_true] at this
        exact this.1
      have hrest := ih (d.mapSwitches (givePoint w d.nextLinePoint))
      have hgive : d.ChangesOnly (d.mapSwitches (givePoint w d.nextLinePoint)) [.las, .raised] [] := .setLas .keep (by decide)
      refine ⟨hgive.trans hrest.changes, fun s hs hn hl => hrest.kept s ?_ hn hl, fun s hs hn => ?_⟩
      · have hne : s ≠ w := fun he => by simp [← he, Switch.waits, hl] at hwaits
        exact List.mem_map.mpr ⟨s, List.mem_filter.mpr ⟨hs, by simp [hn]⟩, if_neg hne⟩
      · obtain ⟨t, ht, htn, hwhat⟩ := hrest.fields s hs hn
        obtain ⟨t', ht', rfl⟩ := List.mem_map.mp ht
        refine ⟨t', (List.mem_filter.mp ht').1, ?_, ?_⟩
        · split at htn
          · cases htn
          · exact htn
        · rw [← hwhat]; split <;> rfl

theorem Dev.releaseSwitches_none (n : Nat) (d : Dev) (h : ∀ s ∈ d.las.switches, s.waits = false) : d.releaseSwitches n = d := by
  cases n with
  | zero => rfl
  | succ n =>
    have hfind : d.las.switches.find? d.fitsNow = none := List.find?_eq_none.mpr fun s hs => by simp [Dev.fitsNow, h s hs]
    rw [Dev.releaseSwitches, hfind]
    dsimp only
    rw [Dev.mapSwitches, List.map_congr_left (g := id) (fun s hs => by simp [h s hs]), List.map_id]

/-- The only change that waits, with fewer than 8 points open, gets one past the highest line built. -/
theorem Dev.releaseSwitches_one (n : Nat) {d : Dev} {w : Switch} {h : Int} (hh : d.las.highest = some h) (hopen : openPoints d.las.switches < 8)
    (hone : d.las.switches.filter Switch.waits = [w]) : d.releaseSwitches (n + 1) = d.mapSwitches (givePoint w (h + 1)) := by
  have hpoint : d.nextLinePoint = h + 1 := by rw [Dev.nextLinePoint, hh]
  have hw : w ∈ d.las.switches ∧ w.waits = true := List.mem_filter.mp (by rw [hone]; exact List.mem_cons_self)
  have honly : ∀ s ∈ d.las.switches, s.waits = true → s = w := fun s hs hwt => by
    have : s ∈ d.las.switches.filter Switch.waits := List.mem_filter.mpr ⟨hs, hwt⟩
    rwa [hone, List.mem_singleton] at this
  have hcount : d.las.switches.countP (· = w) ≤ 1 := by
    calc _ ≤ d.las.switches.countP Switch.waits := List.countP_mono_left fun s _ hs => by rw [of_decide_eq_true hs]; exact hw.2
      _ = 1 := by rw [List.countP_eq_length_filter, hone]; rfl
  have hfits : d.fitsNow w = true := by
    have := openPoints_givePoint_le w (h + 1) d.las.switches
    rw [Dev.fitsNow, hpoint, hw.2, Bool.true_and, decide_eq_true_iff]
    omega
  have hfind : d.las.switches.find? d.fitsNow = some w := by
    cases hf : d.las.switches.find? d.fitsNow with
    | none => exact absurd hfits (List.find?_eq_none.mp hf w hw.1)
    | some s =>
      have hfit := List.find?_some hf
      rw [Dev.fitsNow, Bool.and_eq_true] at hfit
      rw [honly s (List.mem_of_find?_eq_some hf) hfit.1]
  rw [Dev.releaseSwitches, hfind, hpoint]
  refine Dev.releaseSwitches_none n _ fun s hs => ?_
  obtain ⟨t, ht, rfl⟩ := List.mem_map.mp hs
  by_cases htw : t = w
  · rw [if_pos htw]
    simp [Switch.waits]
  · rw [if_neg htw]
    exact Bool.eq_false_iff.mpr fun hwt => htw (honly t (List.mem_filter.mp ht).1 hwt)

/-- A change as it is listed when it is written. -/
def Dev.newSwitch (d : Dev) (c : Change) (nextLine : Bool) : Switch := ⟨c, nextLine, d.tmb.beats, false, none, false⟩

/-- The change listed, and the earlier ones of its field without a point gone. -/
def Dev.listSwitch (d : Dev) (c : Change) (nextLine : Bool) : Dev :=
  d.mapSwitches fun l => (l.filter fun s => !(sameField s.what c && s.point.isNone)) ++ [d.newSwitch c nextLine]

/-- Points pass, held changes are released, and both are shown. -/
theorem Dev.settleSwitches_eq (d : Dev) : ∃ e, d.Passes e ∧ d.settleSwitches =
    ((e.releaseSwitches (e.las.switches.length + 1)).wrB F.LA_SHIFT_PENDING 0
      ((e.releaseSwitches (e.las.switches.length + 1)).las.switches.any fun s => s.held)).wrS F.LA_SHIFT_STAT_SHIFT 0
      ((e.releaseSwitches (e.las.switches.length + 1)).wrB F.LA_SHIFT_PENDING 0
        ((e.releaseSwitches (e.las.switches.length + 1)).las.switches.any fun s => s.held)).upstreamShift :=
  ⟨_, (Dev.Passes.foldl Dev.passSwitch_passes _ d).trans (.foldl Dev.foldSwitch_passes _ _), rfl⟩

section
variable (d : Dev) (c : Change)

theorem Dev.schedule_changes (nl : Bool) : d.ChangesOnly (d.schedule c nl) [.las, .raised] [R.LA_SHIFT.addr 0, R.LA_SHIFT_STAT.addr 0] := by
  obtain ⟨e, hpass, he⟩ := (d.listSwitch c nl).settleSwitches_eq
  have hlist : d.ChangesOnly (d.listSwitch c nl) [.las, .raised] [] := .setLas .keep (by decide)
  have hall := (hlist.trans hpass.changes).trans (Dev.releaseSwitches_frees (e.las.switches.length + 1) e).changes
  rw [show d.schedule c nl = _ from he]
  exact .wrS (.wrB (hall.mono (fun _ h => h) (by simp)) (by decide)) (by decide)

theorem mem_pointless_listSwitch {nl : Bool} {s : Switch} :
    s ∈ pointless (d.listSwitch c nl).las.switches ↔ (s ∈ pointless d.las.switches ∧ sameField s.what c = false) ∨ s = d.newSwitch c nl := by
  have hnew : (d.newSwitch c nl).point = none := rfl
  simp only [mem_pointless, Dev.listSwitch, Dev.mapSwitches, List.mem_append, List.mem_filter, List.mem_singleton]
  constructor
  · rintro ⟨⟨hs, hf⟩ | rfl, hn⟩
    · exact .inl ⟨⟨hs, hn⟩, by simpa [hn] using hf⟩
    · exact .inr rfl
  · rintro (⟨⟨hs, hn⟩, hf⟩ | rfl)
    · exact ⟨.inl ⟨hs, by simp [hf]⟩, hn⟩
    · exact ⟨.inr rfl, hnew⟩

/-- A change at the next page waits in the list, and no earlier one of its field without a point does. -/
theorem Dev.schedule_nextPage : d.newSwitch c false ∈ (d.schedule c false).las.switches ∧
    ∀ w ∈ (d.schedule c false).las.switches, w.point = none → sameField w.what c = true → w.what = c := by
  obtain ⟨e, hpass, he⟩ := (d.listSwitch c false).settleSwitches_eq
  have hrel := Dev.releaseSwitches_frees (e.las.switches.length + 1) e
  have hlas : (d.schedule c false).las = (e.releaseSwitches (e.las.switches.length + 1)).las := by
    rw [show d.schedule c false = _ from he]
    rfl
  have hmem : ∀ s, s ∈ pointless e.las.switches ↔ (s ∈ pointless d.las.switches ∧ sameField s.what c = false) ∨ s = d.newSwitch c false := fun s => by
    rw [hpass.pointless, mem_pointless_listSwitch]
  rw [hlas]
  refine ⟨hrel.kept _ (mem_pointless.mp ((hmem _).mpr (.inr rfl))).1 rfl rfl, fun w hw hn hf => ?_⟩
  obtain ⟨t, ht, htn, hwhat⟩ := hrel.fields w hw hn
  rcases (hmem t).mp (mem_pointless.mpr ⟨ht, htn⟩) with ⟨-, hno⟩ | rfl
  · rw [hwhat, hf] at hno
    cases hno
  · exact hwhat.symm

/-- A change at the next line gets its point, where a ninth open one and an earlier wait do not hold it. -/
theorem Dev.schedule_nextLine : d.GivesNextLine (d.schedule c true) c := by
  intro h hh hopen hwait
  obtain ⟨e, hpass, he⟩ := (d.listSwitch c true).settleSwitches_eq
  have hfilter : ∀ l : List Switch, l.filter Switch.waits = (pointless l).filter fun s => s.nextLine := by
    intro l
    rw [pointless, List.filter_filter]
    rfl
  have hone : e.las.switches.filter Switch.waits = [d.newSwitch c true] := by
    rw [hfilter, hpass.pointless, ← hfilter, Dev.listSwitch, Dev.mapSwitches]
    dsimp only
    rw [List.filter_append, List.filter_eq_nil_iff.mpr]
    · rfl
    · intro s hs hw
      rw [Switch.waits, Bool.and_eq_true, Option.isNone_iff_eq_none] at hw
      have := hwait s (List.mem_filter.mp hs).1 hw.2
      rw [hw.1] at this
      cases this
  have hopen' : openPoints e.las.switches < 8 := by
    refine Nat.lt_of_le_of_lt (hpass.openPts.trans ?_) hopen
    rw [Dev.listSwitch, Dev.mapSwitches, openPoints_eq, openPoints_eq, List.countP_append]
    exact List.filter_sublist.countP_le
  have hlas : (d.schedule c true).las.switches = givePoint (d.newSwitch c true) (h + 1) e.las.switches := by
    rw [show d.schedule c true = _ from he, Dev.releaseSwitches_one _ (hpass.highest.trans hh) hopen' hone]
    rfl
  rw [hlas]
  have hnew : d.newSwitch c true ∈ e.las.switches := (List.mem_filter.mp (by rw [hone]; exact List.mem_cons_self)).1
  refine ⟨⟨{ d.newSwitch c true with point := some (h + 1), held := false }, List.mem_map.mpr ⟨_, List.mem_filter.mpr ⟨hnew, ?_⟩, if_pos rfl⟩, rfl, rfl, rfl⟩,
    fun w hw hf => ?_⟩
  · simp [Dev.newSwitch]
  · obtain ⟨t, ht, rfl⟩ := List.mem_map.mp hw
    obtain ⟨hte, hkeep⟩ := List.mem_filter.mp ht
    by_cases htw : t = d.newSwitch c true
    · exact ⟨h + 1, by rw [if_pos htw], le_rfl⟩
    · rw [if_neg htw] at hf ⊢
      cases hp : t.point with
      | some p => exact ⟨p, rfl, by simpa [Dev.newSwitch, hf, hp] using hkeep⟩
      | none =>
        have hmem : t ∈ pointless (d.listSwitch c true).las.switches := by
          rw [← hpass.pointless]
          exact mem_pointless.mpr ⟨hte, hp⟩
        rcases (mem_pointless_listSwitch d c).mp hmem with ⟨-, hno⟩ | rfl
        · rw [hf] at hno
          cases hno
        · exact absurd rfl htw

end

theorem findReg_LA_SHIFT : findReg (R.LA_SHIFT.addr 0) regTable =
    some ⟨⟨R.LA_SHIFT, [F.LA_SHIFT_HOST, F.LA_SHIFT_WHEN, F.LA_SHIFT_AUTO_WHEN, F.LA_SHIFT_PENDING]⟩, 0, false⟩ := by rfl

theorem findReg_LA_BLEND_CTRL : findReg (R.LA_BLEND_CTRL.addr 0) regTable =
    some ⟨⟨R.LA_BLEND_CTRL, [F.LA_BLEND_CTRL_MODE, F.LA_BLEND_CTRL_WHEN, F.LA_BLEND_CTRL_COMMIT]⟩, 0, false⟩ := by rfl

theorem findReg_LA_SWATCH : findReg (R.LA_SWATCH.addr 0) regTable =
    some ⟨⟨R.LA_SWATCH, [F.LA_SWATCH_ARM, F.LA_SWATCH_STEP, F.LA_SWATCH_REPEATS, F.LA_SWATCH_SIZE, F.LA_SWATCH_START]⟩, 0, false⟩ := by rfl

/-- The registers that settling the switches shows. -/
theorem Dev.schedule_rd {d : Dev} (c : Change) (nl : Bool) {f : Fld} {i : Nat} (h : f.reg.addr i ∉ [R.LA_SHIFT.addr 0, R.LA_SHIFT_STAT.addr 0]) :
    (d.schedule c nl).rd f i = d.rd f i := (d.schedule_changes c nl).rd h

/-- Beside what it shows, settling the switches leaves LA_SHIFT and LA_SHIFT_STAT. -/
theorem Dev.schedule_beside {d : Dev} (c : Change) (nl : Bool) (hr : keysRising 0 d.regs = true) :
    (d.schedule c nl).rd F.LA_SHIFT_HOST = d.rd F.LA_SHIFT_HOST ∧ (d.schedule c nl).rd F.LA_SHIFT_STAT_AUTO = d.rd F.LA_SHIFT_STAT_AUTO := by
  obtain ⟨e, hpass, he⟩ := (d.listSwitch c nl).settleSwitches_eq
  have hlist : d.ChangesOnly (d.listSwitch c nl) [.las, .raised] [] := .setLas .keep (by decide)
  have hall := (hlist.trans hpass.changes).trans (Dev.releaseSwitches_frees (e.las.switches.length + 1) e).changes
  rw [show d.schedule c nl = _ from he]
  generalize e.releaseSwitches (e.las.switches.length + 1) = g at *
  have hrise := hall.rising hr
  have hheld : ∀ b : Bool, keysRising 0 (g.wrB F.LA_SHIFT_PENDING 0 b).regs = true := fun b => Dev.wr_rising _ _ _ _ hrise
  constructor
  · refine (Dev.rd_wr_ne _ _ F.LA_SHIFT_HOST _ 0 _ (by decide)).trans ?_
    exact (Dev.rd_wr_beside (f := F.LA_SHIFT_PENDING) (g := F.LA_SHIFT_HOST) ⟨rfl, by decide, by decide⟩ _ _ hrise).trans (hall.rd (by simp))
  · refine (Dev.rd_wr_beside (f := F.LA_SHIFT_STAT_SHIFT) (g := F.LA_SHIFT_STAT_AUTO) ⟨rfl, by decide, by decide⟩ _ _ (hheld _)).trans ?_
    exact (Dev.rd_wr_ne _ _ F.LA_SHIFT_STAT_AUTO _ 0 _ (by decide)).trans (hall.rd (by simp))

theorem toSigned_mod (w n : Nat) : toSigned w (n % 2 ^ w) = toSigned w n := by simp only [toSigned, Nat.mod_mod]

theorem shiftWrite_clause (m : Master) (val : Nat) (s : State) (hinv : s.Inv) (ht : s.dev.Takes m R.LA_SHIFT 0) :
    ∃ u, Runs (.shiftWrite m val) s u [.bus, .las, .raised] [R.LA_SHIFT.addr 0, R.LA_SHIFT_STAT.addr 0] ∧
      u.dev.rd F.LA_SHIFT_HOST = val % 2 ^ 11 ∧
      (val.testBit F.LA_SHIFT_WHEN.lo = false →
        (⟨.host (toSigned 11 val), false, s.dev.tmb.beats, false, none, false⟩ : Switch) ∈ u.dev.las.switches ∧
        ∀ w ∈ u.dev.las.switches, w.point = none → sameField w.what (.host 0) = true → w.what = .host (toSigned 11 val)) ∧
      (val.testBit F.LA_SHIFT_WHEN.lo = true → s.dev.GivesNextLine u.dev (.host (toSigned 11 val))) := by
  have hr := Dev.touch_rising m hinv.regs
  have hstore : (s.dev.touch m).ChangesOnly ((s.dev.touch m).store R.LA_SHIFT 0 val mask32) [.las, .raised] [R.LA_SHIFT.addr 0, R.LA_SHIFT_STAT.addr 0] :=
    .store .keep findReg_LA_SHIFT List.mem_cons_self
  have hhost : ((s.dev.touch m).store R.LA_SHIFT 0 val mask32).rd F.LA_SHIFT_HOST = val % 2 ^ 11 :=
    (Dev.rd_store_any findReg_LA_SHIFT (f := F.LA_SHIFT_HOST) List.mem_cons_self hr rfl rfl (fieldOf_mask32 (by decide))).trans (fieldOf_zero _ _)
  have hsigned : ((s.dev.touch m).store R.LA_SHIFT 0 val mask32).rdS F.LA_SHIFT_HOST = toSigned 11 val :=
    (congrArg (toSigned 11) hhost).trans (toSigned_mod _ _)
  have hwhen : ((s.dev.touch m).store R.LA_SHIFT 0 val mask32).on F.LA_SHIFT_WHEN = val.testBit F.LA_SHIFT_WHEN.lo := by
    rw [Dev.on, Dev.rd_store_any findReg_LA_SHIFT (f := F.LA_SHIFT_WHEN) (by simp) hr rfl rfl (fieldOf_mask32 (by decide))]
    rw [show F.LA_SHIFT_WHEN.w = 1 from rfl, fieldOf_one]
    cases val.testBit F.LA_SHIFT_WHEN.lo <;> rfl
  have hlas : ((s.dev.touch m).store R.LA_SHIFT 0 val mask32).las = s.dev.las := (Dev.store_las ..).trans (Dev.touch_las ..)
  have htmb : ((s.dev.touch m).store R.LA_SHIFT 0 val mask32).tmb = s.dev.tmb := (Dev.store_tmb ..).trans (Dev.touch_tmb ..)
  have hdo : (s.dev.touch m).wLaShift val mask32 =
      ((s.dev.touch m).store R.LA_SHIFT 0 val mask32).schedule (.host (toSigned 11 val)) (val.testBit F.LA_SHIFT_WHEN.lo) := by
    unfold Dev.wLaShift
    dsimp only
    rw [if_neg (show ¬ mask32 % 2048 = 0 by decide), hwhen, hsigned]
  have hrise := hstore.rising hr
  generalize (s.dev.touch m).store R.LA_SHIFT 0 val mask32 = e at *
  refine ⟨_, .writes (fun d => d.wLaShift val mask32) rfl ht hdo (hstore.trans (e.schedule_changes _ _)).after_touch,
    (Dev.schedule_beside _ _ hrise).1.trans hhost, fun hno => ?_, fun hyes => ?_⟩
  · rw [hno]
    obtain ⟨hmem, honly⟩ := e.schedule_nextPage (.host (toSigned 11 val))
    refine ⟨?_, fun w hw hn hf => honly w hw hn ?_⟩
    · rwa [Dev.newSwitch, htmb] at hmem
    · rw [← hf]
      cases w.what <;> rfl
  · rw [hyes]
    have hgive := e.schedule_nextLine (.host (toSigned 11 val))
    rwa [Dev.GivesNextLine, hlas] at hgive

theorem autoUpdate_clause (v : Int) (rest : List Int) (s : State) (hinv : s.Inv) (hout : s.dev.nzh.autoOut = v :: rest) (hfed : s.dev.substFed = true)
    (hlo : -1024 ≤ v) (hhi : v ≤ 1023) :
    ∃ u, Runs (.autoUpdate v) s u [.las, .raised, .nzh] [R.LA_SHIFT_STAT.addr 0, R.LA_SHIFT.addr 0] ∧
      u.dev.nzh = { s.dev.nzh with autoOut := rest } ∧ u.dev.rd F.LA_SHIFT_STAT_AUTO = ofSigned 11 v ∧
      (s.dev.rd F.LA_SHIFT_AUTO_WHEN = 0 →
        (⟨.auto v, false, s.dev.tmb.beats, false, none, false⟩ : Switch) ∈ u.dev.las.switches) ∧
      (s.dev.rd F.LA_SHIFT_AUTO_WHEN = 1 → s.dev.GivesNextLine u.dev (.auto v)) := by
  have hclamp : clampInt (-1024) 1023 v = v := by unfold clampInt; omega
  have hshow : s.dev.ChangesOnly (({ s.dev with nzh.autoOut := rest } : Dev).wrS F.LA_SHIFT_STAT_AUTO 0 v) [.las, .raised, .nzh]
      [R.LA_SHIFT_STAT.addr 0, R.LA_SHIFT.addr 0] := .wrS (.setNzh .keep (by decide)) List.mem_cons_self
  have hauto : (({ s.dev with nzh.autoOut := rest } : Dev).wrS F.LA_SHIFT_STAT_AUTO 0 v).rd F.LA_SHIFT_STAT_AUTO = ofSigned 11 v :=
    Dev.rd_wr_lt _ (by unfold ofSigned; change (v % (2 ^ 11 : Nat)).toNat < 2 ^ 11; omega) (by decide) hinv.regs
  have hdo : ({ s.dev with nzh.autoOut := rest } : Dev).autoUpdate v =
      (({ s.dev with nzh.autoOut := rest } : Dev).wrS F.LA_SHIFT_STAT_AUTO 0 v).schedule (.auto v) (s.dev.on F.LA_SHIFT_AUTO_WHEN) := by
    rw [Dev.autoUpdate, hclamp]
    rfl
  have hlas : (({ s.dev with nzh.autoOut := rest } : Dev).wrS F.LA_SHIFT_STAT_AUTO 0 v).las = s.dev.las := rfl
  have htmb : (({ s.dev with nzh.autoOut := rest } : Dev).wrS F.LA_SHIFT_STAT_AUTO 0 v).tmb = s.dev.tmb := rfl
  have hnzh : (({ s.dev with nzh.autoOut := rest } : Dev).wrS F.LA_SHIFT_STAT_AUTO 0 v).nzh = { s.dev.nzh with autoOut := rest } := rfl
  have hrise := hshow.rising hinv.regs
  generalize (({ s.dev with nzh.autoOut := rest } : Dev).wrS F.LA_SHIFT_STAT_AUTO 0 v) = e at *
  have hsched := e.schedule_changes (.auto v) (s.dev.on F.LA_SHIFT_AUTO_WHEN)
  have hall : s.dev.ChangesOnly (e.schedule (.auto v) (s.dev.on F.LA_SHIFT_AUTO_WHEN)) [.las, .raised, .nzh] [R.LA_SHIFT_STAT.addr 0, R.LA_SHIFT.addr 0] :=
    hshow.trans (hsched.mono (by simp) (by simp))
  refine ⟨_, .act (fun d => match d.nzh.autoOut with
      | a :: rest => if d.substFed ∧ a = v then { d with nzh.autoOut := rest }.autoUpdate v else d
      | [] => d) rfl ?_ hall, (hsched.parts .nzh (by decide)).trans hnzh, (Dev.schedule_beside _ _ hrise).2.trans hauto, fun h0 => ?_, fun h1 => ?_⟩
  · simp only [hout, hfed, and_self, if_true, hdo]
  · rw [Dev.on, h0]
    have hmem := (e.schedule_nextPage (.auto v)).1
    rwa [Dev.newSwitch, htmb] at hmem
  · rw [Dev.on, h1]
    have hgive := e.schedule_nextLine (.auto v)
    rwa [Dev.GivesNextLine, hlas] at hgive

theorem autoUpdate_ignored (v : Int) (s : State) (h : s.dev.nzh.autoOut.head? ≠ some v ∨ s.dev.substFed = false) : Ignored (.autoUpdate v) s := by
  refine .act (fun d => match d.nzh.autoOut with
    | a :: rest => if d.substFed ∧ a = v then { d with nzh.autoOut := rest }.autoUpdate v else d
    | [] => d) rfl ?_
  cases hout : s.dev.nzh.autoOut with
  | nil => rfl
  | cons a rest =>
    refine if_neg fun hdo => ?_
    rcases h with h | h
    · exact h (by rw [hout, hdo.2]; rfl)
    · rw [hdo.1] at h
      cases h

theorem land_mask32_testBit (v : Nat) {b : Nat} (h : b < 32) : (Nat.land v mask32).testBit b = v.testBit b := by
  rw [show mask32 = 2 ^ 32 - 1 from rfl]
  change (v &&& (2 ^ 32 - 1)).testBit b = _
  rw [Nat.testBit_and, Nat.testBit_two_pow_sub_one, decide_eq_true h, Bool.and_true]

/-- The blend as a COMMIT takes it. -/
def Dev.blendSet (d : Dev) (mode : Bool) : BlendSet := ⟨d.rd F.LA_MARGIN_FIRST, d.rd F.LA_MARGIN_LAST, mode, d.maskShadow⟩

theorem blendCommit_clause (m : Master) (val : Nat) (s : State) (hinv : s.Inv) (ht : s.dev.Takes m R.LA_BLEND_CTRL 0) :
    ∃ u, Runs (.blendCommit m val) s u [.bus, .las, .raised] [R.LA_BLEND_CTRL.addr 0, R.LA_SHIFT_STAT.addr 0, R.LA_SHIFT.addr 0] ∧
      u.dev.rd F.LA_BLEND_CTRL_MODE = val / 2 ^ F.LA_BLEND_CTRL_MODE.lo % 2 ∧
      (setsBit val 2 → val.testBit F.LA_BLEND_CTRL_WHEN.lo = false →
        (⟨.blend (s.dev.blendSet (val.testBit F.LA_BLEND_CTRL_MODE.lo)), false, s.dev.tmb.beats, false, none, false⟩ : Switch) ∈ u.dev.las.switches) ∧
      (setsBit val 2 → val.testBit F.LA_BLEND_CTRL_WHEN.lo = true →
        s.dev.GivesNextLine u.dev (.blend (s.dev.blendSet (val.testBit F.LA_BLEND_CTRL_MODE.lo)))) ∧
      (val.testBit 2 = false → u.dev.las = s.dev.las ∧ u.dev.raised = s.dev.raised) := by
  have hr := Dev.touch_rising m hinv.regs
  have hstore : (s.dev.touch m).ChangesOnly ((s.dev.touch m).store R.LA_BLEND_CTRL 0 val mask32) [.las, .raised]
      [R.LA_BLEND_CTRL.addr 0, R.LA_SHIFT_STAT.addr 0, R.LA_SHIFT.addr 0] := .store .keep findReg_LA_BLEND_CTRL List.mem_cons_self
  have hbit : ∀ f ∈ [F.LA_BLEND_CTRL_MODE, F.LA_BLEND_CTRL_WHEN], ((s.dev.touch m).store R.LA_BLEND_CTRL 0 val mask32).rd f =
      if val.testBit f.lo then 1 else 0 := by
    intro f hf
    have h1 : f ∈ [F.LA_BLEND_CTRL_MODE, F.LA_BLEND_CTRL_WHEN, F.LA_BLEND_CTRL_COMMIT] ∧ f.ty = .rw ∧ f.clamp = .any ∧ f.w = 1 ∧ f.lo + 1 ≤ 32 := by
      rcases List.mem_pair.mp hf with rfl | rfl
      · exact ⟨by simp, rfl, rfl, rfl, by decide⟩
      · exact ⟨by simp, rfl, rfl, rfl, by decide⟩
    obtain ⟨hm, hty, hcl, hw, hlo⟩ := h1
    rw [Dev.rd_store_any findReg_LA_BLEND_CTRL hm hr hty hcl (fieldOf_mask32 (by rw [hw]; exact hlo)), hw, fieldOf_one]
  have hon : ∀ f ∈ [F.LA_BLEND_CTRL_MODE, F.LA_BLEND_CTRL_WHEN], ((s.dev.touch m).store R.LA_BLEND_CTRL 0 val mask32).on f = val.testBit f.lo := by
    intro f hf
    rw [Dev.on, hbit f hf]
    cases val.testBit f.lo <;> rfl
  have hblend : ∀ mode, ((s.dev.touch m).store R.LA_BLEND_CTRL 0 val mask32).blendSet mode = s.dev.blendSet mode := by
    intro mode
    have hbeside : (s.dev.touch m).ChangesOnly ((s.dev.touch m).store R.LA_BLEND_CTRL 0 val mask32) [] [R.LA_BLEND_CTRL.addr 0] :=
      .store .keep findReg_LA_BLEND_CTRL List.mem_cons_self
    have hapart : ∀ i < 64, R.LA_BLEND_MASK.addr i ∉ [R.LA_BLEND_CTRL.addr 0] := by decide
    have hmask : ((s.dev.touch m).store R.LA_BLEND_CTRL 0 val mask32).maskShadow = s.dev.maskShadow := by
      refine List.map_congr_left fun k hk => ?_
      have hk : k / 4 < 64 := by have := List.mem_range.mp hk; omega
      rw [Dev.reg, hbeside.regs _ (hapart _ hk), ← Dev.reg, Dev.reg_touch]
    rw [Dev.blendSet, hmask, hbeside.rd (by decide), hbeside.rd (by decide), Dev.rd_touch, Dev.rd_touch]
    rfl
  have hlas : ((s.dev.touch m).store R.LA_BLEND_CTRL 0 val mask32).las = s.dev.las := (Dev.store_las ..).trans (Dev.touch_las ..)
  have htmb : ((s.dev.touch m).store R.LA_BLEND_CTRL 0 val mask32).tmb = s.dev.tmb := (Dev.store_tmb ..).trans (Dev.touch_tmb ..)
  have hraised : ((s.dev.touch m).store R.LA_BLEND_CTRL 0 val mask32).raised = s.dev.raised := (Dev.store_raised ..).trans (Dev.touch_raised ..)
  have hland : (Nat.land val mask32).testBit 2 = val.testBit 2 := land_mask32_testBit _ (by decide)
  have hmode : ((s.dev.touch m).store R.LA_BLEND_CTRL 0 val mask32).rd F.LA_BLEND_CTRL_MODE = val / 2 ^ F.LA_BLEND_CTRL_MODE.lo % 2 := by
    rw [hbit _ (by simp), ← fieldOf_one]
    rfl
  have hdo : (s.dev.touch m).wLaBlend val mask32 = if val.testBit 2 = true then ((s.dev.touch m).store R.LA_BLEND_CTRL 0 val mask32).schedule
      (.blend (s.dev.blendSet (val.testBit F.LA_BLEND_CTRL_MODE.lo))) (val.testBit F.LA_BLEND_CTRL_WHEN.lo)
      else (s.dev.touch m).store R.LA_BLEND_CTRL 0 val mask32 := by
    rw [← hblend, ← hon F.LA_BLEND_CTRL_MODE (by simp), ← hon F.LA_BLEND_CTRL_WHEN (by simp), ← hland]
    rfl
  generalize (s.dev.touch m).store R.LA_BLEND_CTRL 0 val mask32 = e at *
  have hsched := fun nl => e.schedule_changes (.blend (s.dev.blendSet (val.testBit F.LA_BLEND_CTRL_MODE.lo))) nl
  by_cases hset : val.testBit 2 = true
  · rw [if_pos hset] at hdo
    refine ⟨_, .writes (fun d => d.wLaBlend val mask32) rfl ht hdo (hstore.trans ((hsched _).mono (fun _ h => h) (by simp))).after_touch,
      (Dev.schedule_rd _ _ (by decide)).trans hmode, fun _ hno => ?_, fun _ hyes => ?_, fun h => by rw [hset] at h; cases h⟩
    · rw [hno]
      have hmem := (e.schedule_nextPage (.blend (s.dev.blendSet (val.testBit F.LA_BLEND_CTRL_MODE.lo)))).1
      rwa [Dev.newSwitch, htmb] at hmem
    · rw [hyes]
      have hgive := e.schedule_nextLine (.blend (s.dev.blendSet (val.testBit F.LA_BLEND_CTRL_MODE.lo)))
      rwa [Dev.GivesNextLine, hlas] at hgive
  · rw [if_neg hset] at hdo
    exact ⟨_, .writes (fun d => d.wLaBlend val mask32) rfl ht hdo hstore.after_touch, hmode, fun h => absurd h hset, fun h => absurd h hset, fun _ => ⟨hlas, hraised⟩⟩

theorem Dev.wLaSwatch_spec (d : Dev) {val mask : Nat} (hland : (Nat.land val mask).testBit 0 = val.testBit 0) :
    d.ChangesOnly (d.wLaSwatch val mask) [.las] [R.LA_SWATCH.addr 0] ∧
      ((d.wLaSwatch val mask).las = if setsBit val 0 ∧ d.las.armBeat = none then { d.las with armBeat := some d.tmb.beats, armNzh := false } else d.las) ∧
      ∀ f : Fld, (d.wLaSwatch val mask).rd f = (d.store R.LA_SWATCH 0 val mask).rd f := by
  have hstore : d.ChangesOnly (d.store R.LA_SWATCH 0 val mask) [.las] [R.LA_SWATCH.addr 0] := .store .keep findReg_LA_SWATCH List.mem_cons_self
  have hlas : (d.store R.LA_SWATCH 0 val mask).las = d.las := Dev.store_las ..
  have htmb : (d.store R.LA_SWATCH 0 val mask).tmb = d.tmb := Dev.store_tmb ..
  have hcond : ((Nat.land val mask).testBit 0 && d.las.armBeat.isNone) = true ↔ setsBit val 0 ∧ d.las.armBeat = none := by
    rw [hland, Bool.and_eq_true, Option.isNone_iff_eq_none]
  rw [Dev.wLaSwatch]
  generalize d.store R.LA_SWATCH 0 val mask = e at *
  dsimp only
  by_cases h : setsBit val 0 ∧ d.las.armBeat = none
  · rw [if_pos (by rw [hlas]; exact hcond.mpr h), if_pos h]
    exact ⟨.setLas hstore (by decide), by rw [hlas, htmb], fun _ => rfl⟩
  · rw [if_neg (by rw [hlas]; exact h ∘ hcond.mp), if_neg h]
    exact ⟨hstore, hlas, fun _ => rfl⟩

section
variable (m : Master) (val : Nat) (s : State) (hinv : s.Inv) (ht : s.dev.Takes m R.LA_SWATCH 0)
include hinv ht

theorem swatchArm_long :
    ∃ u, Runs (.swatchArm m 8 val) s u [.bus, .las] [R.LA_SWATCH.addr 0] ∧
      u.dev.las = (if setsBit val 0 ∧ s.dev.las.armBeat = none then { s.dev.las with armBeat := some s.dev.tmb.beats, armNzh := false }
        else s.dev.las) ∧
      u.dev.rd F.LA_SWATCH_START = val / 2 ^ F.LA_SWATCH_START.lo % 2 ^ 24 ∧
      (setsBit val 0 → u.dev.rd F.LA_SWATCH_ARM = 1) := by
  have hr := Dev.touch_rising m hinv.regs
  obtain ⟨hc, hlas, hrd⟩ := (s.dev.touch m).wLaSwatch_spec (land_mask64_testBit val (b := 0) (by decide))
  refine ⟨_, .writes (fun d => d.wLaSwatch val mask64) rfl ht rfl hc.after_touch, ?_, (hrd _).trans ?_, fun hset => (hrd _).trans ?_⟩
  · refine hlas.trans ?_
    rw [Dev.touch_las, Dev.touch_tmb]
  · exact Dev.rd_store_any findReg_LA_SWATCH (f := F.LA_SWATCH_START) (by simp) hr rfl rfl (fieldOf_mask64 (by decide))
  · exact (Dev.rd_store_set findReg_LA_SWATCH (f := F.LA_SWATCH_ARM) List.mem_cons_self hr rfl (by decide) rfl).trans (if_pos hset)

theorem swatchArm_short (hset : setsBit val 0) (hfree : s.dev.las.armBeat = none) :
    ∃ u, Runs (.swatchArm m 4 val) s u [.bus, .las] [R.LA_SWATCH.addr 0] ∧
      u.dev.las = { s.dev.las with armBeat := some s.dev.tmb.beats, armNzh := false } ∧ u.dev.rd F.LA_SWATCH_ARM = 1 ∧
      u.dev.rd F.LA_SWATCH_START = s.dev.rd F.LA_SWATCH_START := by
  have hr := Dev.touch_rising m hinv.regs
  obtain ⟨hc, hlas, hrd⟩ := (s.dev.touch m).wLaSwatch_spec (land_mask32_testBit val (b := 0) (by decide))
  refine ⟨_, .writes (fun d => d.wLaSwatch val mask32) rfl ht rfl hc.after_touch, ?_, (hrd _).trans ?_, (hrd _).trans ?_⟩
  · refine hlas.trans ?_
    rw [Dev.touch_las, Dev.touch_tmb, if_pos ⟨hset, hfree⟩]
  · exact (Dev.rd_store_set findReg_LA_SWATCH (f := F.LA_SWATCH_ARM) List.mem_cons_self hr rfl (by decide) rfl).trans (if_pos hset)
  · exact (Dev.rd_store_beside findReg_LA_SWATCH (f := F.LA_SWATCH_START) (by simp) hr rfl (by decide)).trans (Dev.rd_touch ..)

end

/-- Settles O29: by what settling the switches keeps of the changes without a point, and the single waiting change that it releases. -/
theorem scheduledChanges : Obligations.ScheduledChanges := by
  unfold Obligations.ScheduledChanges
  exact ⟨shiftWrite_clause, autoUpdate_clause, autoUpdate_ignored, blendCommit_clause, swatchArm_long, swatchArm_short⟩

/-! ### The next exchange of a head, and the end of one (R312 to R315) -/

section
variable {d : Dev} {l : Nat}

theorem Dev.nextAuth_busy (h : (d.link l).auth ≠ none) : d.nextAuth l = d :=
  if_pos (.inl (Option.isSome_iff_ne_none.mpr h))

theorem Dev.nextAuth_free (hauth : (d.link l).auth = none) (hup : d.linkUp l = true) : ¬ ((d.link l).auth.isSome = true ∨ (!d.linkUp l) = true) := by
  simp [hauth, hup]

/-- Nothing due: nothing begins. -/
theorem Dev.nextAuth_none (hdue : ((d.link l).authDue && (d.link l).named) = false) (hupd : (d.link l).updateDue = false) : d.nextAuth l = d := by
  unfold Dev.nextAuth
  dsimp only
  split
  · rfl
  · rw [hdue, hupd]
    rfl

/-- A COUNT_UPDATE as it begins (R316). -/
def Dev.startUpdate (d : Dev) (l : Nat) : Dev :=
  (d.free (2 ^ 128)).2.setLink l fun x => { x with
    updateDue := false
    auth := some { update := true, nonce := (d.free (2 ^ 128)).1, amount := d.rd F.VLT_HEAD_PENDING_PENDING l, tries := 1 } }

theorem Dev.nextAuth_update (hauth : (d.link l).auth = none) (hup : d.linkUp l = true) (hdue : ((d.link l).authDue && (d.link l).named) = false)
    (hupd : (d.link l).updateDue = true) : d.nextAuth l = d.startUpdate l := by
  unfold Dev.nextAuth
  dsimp only
  rw [if_neg (Dev.nextAuth_free hauth hup), hdue, if_neg (by decide), if_pos hupd]
  rfl

/-- A CHALLENGE as it begins (R312). -/
def Dev.startChallenge (d : Dev) (l : Nat) : Dev :=
  let e := ((d.setLink l fun x => { x with authDue := false }).free (2 ^ 128)).2.setLink l fun x => { x with
    auth := some { nonce := ((d.setLink l fun x => { x with authDue := false }).free (2 ^ 128)).1, tries := 1 } }
  (e.wr F.VLT_HEAD_STAT_AUTH l 1).wr F.VLT_HEAD_SERIAL_HSERIAL l (e.headSerial l)

theorem Dev.nextAuth_challenge (hauth : (d.link l).auth = none) (hup : d.linkUp l = true) (hdue : ((d.link l).authDue && (d.link l).named) = true)
    (hroot : d.vlt.used.headRoot.blank = false) : d.nextAuth l = d.startChallenge l := by
  have hroot' : ¬ (d.setLink l fun x => { x with authDue := false }).vlt.used.headRoot.blank = true := by
    rw [show (d.setLink l fun x => { x with authDue := false }).vlt = d.vlt from rfl, hroot]
    decide
  unfold Dev.nextAuth
  dsimp only
  rw [if_neg (Dev.nextAuth_free hauth hup), if_pos hdue, if_neg hroot']
  rfl

theorem Dev.nextAuth_blank (hauth : (d.link l).auth = none) (hup : d.linkUp l = true) (hdue : ((d.link l).authDue && (d.link l).named) = true)
    (hroot : d.vlt.used.headRoot.blank = true) :
    d.nextAuth l = ((d.setLink l fun x => { x with authDue := false }).wr F.VLT_HEAD_STAT_AUTH l 0).restoreUsage l := by
  unfold Dev.nextAuth
  dsimp only
  rw [if_neg (Dev.nextAuth_free hauth hup), if_pos hdue]
  exact if_pos hroot

/-- While no authentication is due the next exchange touches the link alone. -/
theorem Dev.nextAuth_notDue (hdue : (d.link l).authDue = false) :
    d.ChangesOnly (d.nextAuth l) [.hl, .freeCtr] [] ∧ ((d.nextAuth l).link l).verdict = (d.link l).verdict := by
  have hno : ((d.link l).authDue && (d.link l).named) = false := by rw [hdue]; rfl
  by_cases hauth : (d.link l).auth = none
  · by_cases hup : d.linkUp l = true
    · by_cases hupd : (d.link l).updateDue = true
      · rw [Dev.nextAuth_update hauth hup hno hupd]
        exact ⟨.setHl (.setFreeCtr .keep (by decide)) (by decide), Dev.setLink_at _ LinkSt.verdict l l (by exact fun _ => rfl)⟩
      · rw [Dev.nextAuth_none hno (Bool.eq_false_iff.mpr hupd)]
        exact ⟨.keep, rfl⟩
    · rw [Dev.nextAuth_of_down (Bool.eq_false_iff.mpr hup)]
      exact ⟨.keep, rfl⟩
  · rw [Dev.nextAuth_busy hauth]
    exact ⟨.keep, rfl⟩

end

/-- Granting the channel keeps the verdict. -/
theorem Dev.grantNext_verdict (d : Dev) (l k : Nat) : ((d.grantNext l).link k).verdict = (d.link k).verdict := by
  rcases d.grantNext_cases l with h | ⟨q, h⟩ <;> rw [h]
  exact d.setLink_at LinkSt.verdict l k fun _ => rfl

/-- The checks that go on touch the link's request and check alone. -/
theorem Dev.afterAuth_keeps (d : Dev) (l : Nat) (did : Bool) :
    d.ChangesOnly (d.afterAuth l did) [.hl] [] ∧ ((d.afterAuth l did).link l).verdict = (d.link l).verdict := by
  have hreq : ∀ (e : Dev) p r, ((e.setReq l p r).link l).verdict = (e.link l).verdict := fun e p r => e.setLink_at LinkSt.verdict l l (by exact fun _ => rfl)
  have htag : ∀ e : Dev, ((e.tagged l).link l).verdict = (e.link l).verdict := fun e => e.setLink_at LinkSt.verdict l l (by exact fun _ => rfl)
  have hcheck : ∀ c, ((d.setCheck l c).link l).verdict = (d.link l).verdict := fun c => d.setLink_at LinkSt.verdict l l (by exact fun _ => rfl)
  have hselect : ∀ c, d.ChangesOnly (d.selectBank l c) [.hl] [] ∧ ((d.selectBank l c).link l).verdict = (d.link l).verdict := by
    intro c
    rw [Dev.selectBank, Dev.queueReq_eq]
    refine ⟨Dev.ChangesOnly.trans (.setHl (.setHl (.setHl .keep (by decide)) (by decide)) (by decide)) (Dev.grantNext_keeps _ l l).1, ?_⟩
    exact (Dev.grantNext_verdict ..).trans ((hreq ..).trans ((htag _).trans (hcheck _)))
  unfold Dev.afterAuth
  dsimp only
  split
  · split
    · exact hselect _
    · exact ⟨.keep, rfl⟩
  · exact ⟨.keep, rfl⟩

/-- The end of an exchange while no authentication is due. -/
theorem Dev.endAuth_notDue {d : Dev} {l : Nat} (hdue : (d.link l).authDue = false) :
    d.ChangesOnly (d.endAuth l) [.hl, .freeCtr] [] ∧ ((d.endAuth l).link l).verdict = (d.link l).verdict := by
  have hfree : ((d.setLink l fun x => { x with auth := none }).link l).authDue = false := (d.setLink_at LinkSt.authDue l l (by exact fun _ => rfl)).trans hdue
  obtain ⟨hnext, hv⟩ := Dev.nextAuth_notDue hfree
  obtain ⟨hafter, hv'⟩ := Dev.afterAuth_keeps ((d.setLink l fun x => { x with auth := none }).nextAuth l) l
    (match (d.link l).auth with | some a => !a.update | none => false)
  exact ⟨(Dev.ChangesOnly.trans (.setHl .keep (by decide)) hnext).trans (hafter.mono (by simp) (by simp)),
    hv'.trans (hv.trans (d.setLink_at LinkSt.verdict l l (by exact fun _ => rfl)))⟩

theorem Dev.endAuth_changes (d : Dev) (l : Nat) : d.ChangesOnly (d.endAuth l) [.hl, .vlt, .freeCtr] (authRegs l) := by
  have hfree : d.AuthStep ((d.setLink l fun x => { x with auth := none }).nextAuth l) l := .nextAuth (.setLink .refl (fun _ => rfl) fun _ => rfl)
  exact hfree.changes.trans ((Dev.afterAuth_keeps _ l _).1.mono (by simp) (by simp))

/-! ### RESPONSE (R314) -/

theorem authRegs_apart (l : Fin 32) : (∀ a ∈ eventRegs, a ∉ R.VLT_HEAD_USAGE.addr l :: authRegs l) ∧ R.SYS_FAULT_STAT.addr 0 ∉ R.VLT_HEAD_USAGE.addr l :: authRegs l ∧
    R.VLT_HEAD_STAT.addr l ≠ R.VLT_HEAD_USAGE.addr l ∧ R.VLT_HEAD_STAT.addr l ≠ R.VLT_HEAD_PENDING.addr l ∧ R.VLT_HEAD_USAGE.addr l ≠ R.VLT_HEAD_PENDING.addr l := by
  have h : ∀ l : Fin 32, (∀ a ∈ eventRegs, a ∉ R.VLT_HEAD_USAGE.addr l :: authRegs l) ∧ R.SYS_FAULT_STAT.addr 0 ∉ R.VLT_HEAD_USAGE.addr l :: authRegs l ∧
    R.VLT_HEAD_STAT.addr l ≠ R.VLT_HEAD_USAGE.addr l ∧ R.VLT_HEAD_STAT.addr l ≠ R.VLT_HEAD_PENDING.addr l ∧
    R.VLT_HEAD_USAGE.addr l ≠ R.VLT_HEAD_PENDING.addr l := by decide +kernel
  exact h l

/-- How a verdict shows in VLT_HEAD_STAT. -/
def Dev.headShows (d : Dev) (l auth cause : Nat) : Dev := (d.wr F.VLT_HEAD_STAT_AUTH l auth).wr F.VLT_HEAD_STAT_CAUSE l cause

theorem Dev.headShows_spec {d : Dev} (hr : keysRising 0 d.regs = true) (l : Nat) {auth cause : Nat} (ha : auth < 4) (hc : cause < 8) :
    d.ChangesOnly (d.headShows l auth cause) [] [R.VLT_HEAD_STAT.addr l] ∧ (d.headShows l auth cause).rd F.VLT_HEAD_STAT_AUTH l = auth ∧
      (d.headShows l auth cause).rd F.VLT_HEAD_STAT_CAUSE l = cause := by
  have hrise := Dev.wr_rising d F.VLT_HEAD_STAT_AUTH l auth hr
  refine ⟨.wr (.wr .keep List.mem_cons_self) List.mem_cons_self, ?_, Dev.rd_wr_lt _ hc (by decide) hrise⟩
  exact (Dev.rd_wr_beside (f := F.VLT_HEAD_STAT_CAUSE) (g := F.VLT_HEAD_STAT_AUTH) ⟨rfl, by decide, by decide⟩ _ _ hrise).trans
    (Dev.rd_wr_lt _ ha (by decide) hr)

/-- A verdict that is kept, posted and ends the exchange. -/
def Dev.endsWith (d : Dev) (l : Nat) (v : Bool) (code : Nat) (p : List (Nat × Nat)) : Dev :=
  ((d.setLink l fun x => { x with verdict := some v }).raise .secure code p).endAuth l

theorem Dev.endsWith_spec {d : Dev} {l : Nat} (hlen : l < d.hl.length) (hdue : (d.link l).authDue = false) (v : Bool) {code : Nat} (hcode : code ∉ summaryCodes)
    (p : List (Nat × Nat)) :
    d.ChangesOnly (d.endsWith l v code p) [.hl, .raised, .freeCtr] [] ∧ ((d.endsWith l v code p).link l).verdict = some v ∧
      (d.endsWith l v code p).raised = d.raised ++ [d.event .secure code p] := by
  have hpost : d.ChangesOnly ((d.setLink l fun x => { x with verdict := some v }).raise .secure code p) [.hl, .raised, .freeCtr] [] :=
    .raise (.setHl .keep (by decide)) (by decide) (.inl hcode)
  have hlink : ((d.setLink l fun x => { x with verdict := some v }).raise .secure code p).link l = { d.link l with verdict := some v } := by
    rw [Dev.link, Dev.raise_hl]
    exact Dev.link_setLink _ hlen
  have hraised : ((d.setLink l fun x => { x with verdict := some v }).raise .secure code p).raised = d.raised ++ [d.event .secure code p] := Dev.raise_raised ..
  unfold Dev.endsWith
  generalize (d.setLink l fun x => { x with verdict := some v }).raise .secure code p = e at *
  obtain ⟨hend, hv⟩ := Dev.endAuth_notDue (d := e) (l := l) (by rw [hlink]; exact hdue)
  exact ⟨hpost.trans (hend.mono (by simp) (by simp)), by rw [hv, hlink], (hend.parts .raised (by decide)).trans hraised⟩

/-- A failed head: its status, its verdict and one event (R314). -/
theorem Dev.authFail_spec {d : Dev} (hr : keysRising 0 d.regs = true) (l : Fin 32) (hlen : l.val < d.hl.length) (hdue : (d.link l).authDue = false) {cause : Nat} (hc : cause < 8) :
    d.ChangesOnly (d.authFail l cause) [.hl, .raised, .freeCtr] [R.VLT_HEAD_STAT.addr l] ∧ (d.authFail l cause).rd F.VLT_HEAD_STAT_AUTH l = 3 ∧
      (d.authFail l cause).rd F.VLT_HEAD_STAT_CAUSE l = cause ∧ (d.authFail l cause).rd F.VLT_HEAD_STAT_POLICY l = (if (d.linkSec l).warn then 1 else 0) ∧
      ((d.authFail l cause).link l).verdict = some false := by
  obtain ⟨hshow, hauth, hcause⟩ := Dev.headShows_spec hr l (auth := 3) (by decide) hc
  have hpol : (if (d.linkSec l).warn then 1 else 0) < 2 ^ F.VLT_HEAD_STAT_POLICY.w := by split <;> decide
  have hall : d.ChangesOnly ((d.headShows l 3 cause).wr F.VLT_HEAD_STAT_POLICY l (if (d.linkSec l).warn then 1 else 0)) [.hl, .raised, .freeCtr]
      [R.VLT_HEAD_STAT.addr l] := .wr (hshow.mono (by simp) fun _ => id) List.mem_cons_self
  obtain ⟨hend, hv, -⟩ := Dev.endsWith_spec (d := (d.headShows l 3 cause).wr F.VLT_HEAD_STAT_POLICY l (if (d.linkSec l).warn then 1 else 0)) (l := l)
    hlen hdue false (code := 0x0301) (by decide) [(1, l.val), (1, cause), (1, if (d.linkSec l).warn then 1 else 0)]
  have hrise := hshow.rising hr
  rw [show d.authFail l cause = _ from rfl]
  refine ⟨hall.trans (hend.mono (fun _ => id) (by simp)), (hend.rd (by simp)).trans ?_, (hend.rd (by simp)).trans ?_, (hend.rd (by simp)).trans ?_, hv⟩
  · rw [Dev.rd_wr_beside (f := F.VLT_HEAD_STAT_POLICY) (g := F.VLT_HEAD_STAT_AUTH) ⟨rfl, by decide, by decide⟩ _ _ hrise, hauth]
  · rw [Dev.rd_wr_beside (f := F.VLT_HEAD_STAT_POLICY) (g := F.VLT_HEAD_STAT_CAUSE) ⟨rfl, by decide, by decide⟩ _ _ hrise, hcause]
  · exact Dev.rd_wr_lt _ hpol (by decide) hrise

/-- A passed head before its exchange ends: its status, its total, and the units that its last reset kept (R314, R317). -/
def Dev.passes (d : Dev) (l total : Nat) : Dev :=
  (((d.headShows l 2 0).wr F.VLT_HEAD_USAGE_TOTAL l total).setLink l fun x => { x with verdict := some true }).restoreUsage l

theorem Dev.restoreUsage_changes (d : Dev) (l : Nat) : d.ChangesOnly (d.restoreUsage l) [.vlt] [R.VLT_HEAD_PENDING.addr l] := by
  unfold Dev.restoreUsage
  split
  · exact .keep
  · exact .ite (.bump (.setVlt .keep (by decide)) List.mem_cons_self) (.setVlt .keep (by decide))

theorem Dev.restoreUsage_used (d : Dev) (l : Nat) : (d.restoreUsage l).vlt.used = d.vlt.used := by
  unfold Dev.restoreUsage
  split
  · rfl
  · dsimp only
    split <;> rfl

theorem Dev.authResponse_fails {d : Dev} {l : Nat} {msg : AuthBody} {a : AuthEx} (ha : (d.link l).auth = some a) (hu : a.update = false) (hw : a.waiting = false)
    (h : msg.hserial.toNat ≠ d.headSerial l ∨ msg.nonce.toNat ≠ a.nonce ∨ msg.mac.toNat ≠ d.authMac 2 (d.headSerial l) a.nonce msg.usage.toNat) :
    d.authResponse l msg = d.authFail l (if msg.hserial.toNat ≠ d.headSerial l then 3 else if msg.nonce.toNat ≠ a.nonce then 4 else 2) := by
  have hidle : ¬ (a.update = true ∨ a.waiting = true) := by simp [hu, hw]
  unfold Dev.authResponse
  rw [ha]
  dsimp only
  rw [if_neg hidle]
  by_cases h1 : msg.hserial.toNat ≠ d.headSerial l
  · rw [if_pos h1, if_pos h1]
  · rw [if_neg h1, if_neg h1]
    by_cases h2 : msg.nonce.toNat ≠ a.nonce
    · rw [if_pos h2, if_pos h2]
    · rw [if_neg h2, if_neg h2]
      exact if_pos (by tauto)

theorem Dev.authResponse_passes {d : Dev} {l : Nat} {msg : AuthBody} {a : AuthEx} (ha : (d.link l).auth = some a) (hu : a.update = false) (hw : a.waiting = false)
    (h1 : msg.hserial.toNat = d.headSerial l) (h2 : msg.nonce.toNat = a.nonce) (h3 : msg.mac.toNat = d.authMac 2 (d.headSerial l) a.nonce msg.usage.toNat) :
    d.authResponse l msg = ((d.passes l msg.usage.toNat).raise .secure 0x0302 [(1, l), (8, d.headSerial l)]).endAuth l := by
  have hidle : ¬ (a.update = true ∨ a.waiting = true) := by simp [hu, hw]
  unfold Dev.authResponse
  rw [ha]
  dsimp only
  rw [if_neg hidle, if_neg (not_not_intro h1), if_neg (not_not_intro h2), if_neg (not_not_intro h3)]
  rfl

theorem Dev.authResponse_ignored {d : Dev} {l : Nat} {msg : AuthBody} {a : AuthEx} (ha : (d.link l).auth = some a) (h : a.update = true ∨ a.waiting = true) :
    d.authResponse l msg = d := by
  unfold Dev.authResponse
  rw [ha]
  exact if_pos h

theorem Dev.passes_spec {d : Dev} (hr : keysRising 0 d.regs = true) (l : Fin 32) (hlen : l.val < d.hl.length) (total : Nat) :
    d.ChangesOnly (d.passes l total) [.hl, .vlt] [R.VLT_HEAD_STAT.addr l, R.VLT_HEAD_USAGE.addr l, R.VLT_HEAD_PENDING.addr l] ∧
      (d.passes l total).rd F.VLT_HEAD_STAT_AUTH l = 2 ∧ (d.passes l total).rd F.VLT_HEAD_USAGE_TOTAL l = total % 2 ^ F.VLT_HEAD_USAGE_TOTAL.w ∧
      (d.passes l total).link l = { d.link l with verdict := some true } := by
  obtain ⟨-, -, husage, hpend, hpend'⟩ := authRegs_apart l
  obtain ⟨hshow, hauth, -⟩ := Dev.headShows_spec hr l (auth := 2) (cause := 0) (by decide) (by decide)
  have hset : d.ChangesOnly (((d.headShows l 2 0).wr F.VLT_HEAD_USAGE_TOTAL l total).setLink l fun x => { x with verdict := some true }) [.hl, .vlt]
      [R.VLT_HEAD_STAT.addr l, R.VLT_HEAD_USAGE.addr l, R.VLT_HEAD_PENDING.addr l] :=
    .setHl (.wr (hshow.mono (by simp) (by simp)) (List.mem_cons_of_mem _ List.mem_cons_self)) (by decide)
  have hauth' : (((d.headShows l 2 0).wr F.VLT_HEAD_USAGE_TOTAL l total).setLink l fun x => { x with verdict := some true }).rd F.VLT_HEAD_STAT_AUTH l = 2 :=
    (Dev.rd_wr_ne (d.headShows l 2 0) _ _ _ _ _ husage).trans hauth
  have htotal : (((d.headShows l 2 0).wr F.VLT_HEAD_USAGE_TOTAL l total).setLink l fun x => { x with verdict := some true }).rd F.VLT_HEAD_USAGE_TOTAL l =
      total % 2 ^ F.VLT_HEAD_USAGE_TOTAL.w := Dev.rd_wr_self (d.headShows l 2 0) _ _ _ (by decide) (hshow.rising hr)
  have hlink : (((d.headShows l 2 0).wr F.VLT_HEAD_USAGE_TOTAL l total).setLink l fun x => { x with verdict := some true }).link l =
      { d.link l with verdict := some true } := Dev.link_setLink _ hlen
  unfold Dev.passes
  generalize ((d.headShows l 2 0).wr F.VLT_HEAD_USAGE_TOTAL l total).setLink l (fun x => { x with verdict := some true }) = e at *
  have hrest := e.restoreUsage_changes l
  refine ⟨hset.trans (hrest.mono (by simp) (by simp)), (hrest.rd ?_).trans hauth', (hrest.rd ?_).trans htotal, ?_⟩
  · rw [List.mem_singleton]; exact hpend
  · rw [List.mem_singleton]; exact hpend'
  · rw [Dev.link, hrest.parts .hl (by decide)]
    exact hlink

section
variable (l : Fin 32) (msg : AuthBody) (a : AuthEx) (s : State) (hinv : s.Inv) (ha : (s.dev.link l).auth = some a)
include hinv ha

theorem authResponseRx_passes (hu : a.update = false) (hw : a.waiting = false) (hdue : (s.dev.link l).authDue = false)
    (h1 : msg.hserial.toNat = s.dev.headSerial l) (h2 : msg.nonce.toNat = a.nonce)
    (h3 : msg.mac.toNat = s.dev.authMac 2 (s.dev.headSerial l) a.nonce msg.usage.toNat) :
    ∃ u, Runs (.authResponseRx l msg) s u [.hl, .vlt, .raised, .freeCtr]
        [R.VLT_HEAD_STAT.addr l, R.VLT_HEAD_USAGE.addr l, R.VLT_HEAD_PENDING.addr l] ∧ u.dev.rd F.VLT_HEAD_STAT_AUTH l = 2 ∧
      u.dev.rd F.VLT_HEAD_USAGE_TOTAL l = msg.usage.toNat % 2 ^ F.VLT_HEAD_USAGE_TOTAL.w ∧
      (u.dev.link l).verdict = some true ∧ u.dev.raised = s.dev.raised ++ [s.dev.event .secure 0x0302 [(1, l), (8, s.dev.headSerial l)]] := by
  have hlen : l.val < s.dev.hl.length := by rw [hinv.links]; exact l.isLt
  obtain ⟨hev, hsum, -⟩ := authRegs_apart l
  have hdo := Dev.authResponse_passes ha hu hw h1 h2 h3
  obtain ⟨hpass, hauth, htotal, hlink⟩ := Dev.passes_spec hinv.regs l hlen msg.usage.toNat
  have hevent := hpass.event (by decide) (fun b hb hin => hev b hb (by simp [authRegs] at hin ⊢; tauto)) .secure 0x0302 [(1, l.val), (8, s.dev.headSerial l)]
  generalize s.dev.passes l msg.usage.toNat = e at *
  have hpost : s.dev.ChangesOnly (e.raise .secure 0x0302 [(1, l), (8, s.dev.headSerial l)]) [.hl, .vlt, .raised, .freeCtr]
      [R.VLT_HEAD_STAT.addr l, R.VLT_HEAD_USAGE.addr l, R.VLT_HEAD_PENDING.addr l] := .raise (hpass.mono (by simp) fun _ => id) (by decide) (.inl (by decide))
  have hauth' : (e.raise .secure 0x0302 [(1, l), (8, s.dev.headSerial l)]).rd F.VLT_HEAD_STAT_AUTH l = 2 :=
    (Dev.rd_raise_ne _ _ _ _ _ _ (fun h => hsum (by rw [← h]; simp [authRegs, F.VLT_HEAD_STAT_AUTH]))).trans hauth
  have htotal' : (e.raise .secure 0x0302 [(1, l), (8, s.dev.headSerial l)]).rd F.VLT_HEAD_USAGE_TOTAL l = msg.usage.toNat % 2 ^ F.VLT_HEAD_USAGE_TOTAL.w :=
    (Dev.rd_raise_ne _ _ _ _ _ _ (fun h => hsum (by rw [← h]; simp [F.VLT_HEAD_USAGE_TOTAL]))).trans htotal
  have hraised : (e.raise .secure 0x0302 [(1, l), (8, s.dev.headSerial l)]).raised = s.dev.raised ++ [s.dev.event .secure 0x0302 [(1, l), (8, s.dev.headSerial l)]] := by
    rw [Dev.raise_raised, hevent, hpass.parts .raised (by decide)]
  have hlink' : (e.raise .secure 0x0302 [(1, l), (8, s.dev.headSerial l)]).link l = { s.dev.link l with verdict := some true } := by
    rw [Dev.link, Dev.raise_hl]
    exact hlink
  generalize e.raise .secure 0x0302 [(1, l.val), (8, s.dev.headSerial l)] = g at *
  obtain ⟨hend, hv⟩ := Dev.endAuth_notDue (d := g) (l := l) (by rw [hlink']; exact hdue)
  have hlast : (g.endAuth l).raised = s.dev.raised ++ [s.dev.event .secure 0x0302 [(1, l), (8, s.dev.headSerial l)]] := (hend.parts .raised (by decide)).trans hraised
  exact ⟨_, .inOrder (fun d => d.authResponse l msg) rfl hdo (Dev.orderEvents_one hlast) (hpost.trans (hend.mono (by simp) (by simp))),
    (hend.rd (by simp)).trans hauth', (hend.rd (by simp)).trans htotal', hv.trans (by rw [hlink']), hlast⟩

theorem authResponseRx_fails (hu : a.update = false) (hw : a.waiting = false) (hdue : (s.dev.link l).authDue = false)
    (h : msg.hserial.toNat ≠ s.dev.headSerial l ∨ msg.nonce.toNat ≠ a.nonce ∨ msg.mac.toNat ≠ s.dev.authMac 2 (s.dev.headSerial l) a.nonce msg.usage.toNat) :
    ∃ u, Runs (.authResponseRx l msg) s u [.hl, .raised, .freeCtr] [R.VLT_HEAD_STAT.addr l] ∧ u.dev.rd F.VLT_HEAD_STAT_AUTH l = 3 ∧
      u.dev.rd F.VLT_HEAD_STAT_CAUSE l = (if msg.hserial.toNat ≠ s.dev.headSerial l then 3 else if msg.nonce.toNat ≠ a.nonce then 4 else 2) ∧
      u.dev.rd F.VLT_HEAD_STAT_POLICY l = (if (s.dev.linkSec l).warn then 1 else 0) ∧ (u.dev.link l).verdict = some false := by
  have hlen : l.val < s.dev.hl.length := by rw [hinv.links]; exact l.isLt
  have hcause : (if msg.hserial.toNat ≠ s.dev.headSerial l then 3 else if msg.nonce.toNat ≠ a.nonce then 4 else 2) < 8 := by split_ifs <;> decide
  obtain ⟨hc, hauth, hwhy, hpol, hv⟩ := Dev.authFail_spec hinv.regs l hlen hdue hcause
  exact ⟨_, .ordered (fun d => d.authResponse l msg) rfl (Dev.authResponse_fails ha hu hw h) (by decide) hc, hauth, hwhy, hpol, hv⟩

omit hinv in
theorem authResponseRx_ignored (h : a.update = true ∨ a.waiting = true) : Ignored (.authResponseRx l msg) s :=
  .inOrder (fun d => d.authResponse l msg) rfl (Dev.authResponse_ignored ha h)

end

/-! ### What follows a missing answer (R313, R316) -/

/-- The message is sent again, with a NONCE of its own. -/
def Dev.askAgain (d : Dev) (l : Nat) (a : AuthEx) : Dev :=
  (d.free (2 ^ 128)).2.setLink l fun x => { x with auth := some { a with nonce := (d.free (2 ^ 128)).1, tries := a.tries + 1, waiting := true } }

section
variable {d : Dev} {l : Nat} {a : AuthEx} (ha : (d.link l).auth = some a)
include ha

theorem Dev.authAgain_ignored {update : Bool} (h : a.update ≠ update) : d.authAgain l update = d := by
  unfold Dev.authAgain
  rw [ha]
  exact if_pos (.inl h)

variable (hw : a.waiting = false)
include hw

theorem Dev.authAgain_again (h : a.tries < 3) : d.authAgain l a.update = d.askAgain l a := by
  have hidle : ¬ (a.update ≠ a.update ∨ a.waiting = true) := by simp [hw]
  unfold Dev.authAgain
  rw [ha]
  dsimp only
  rw [if_neg hidle, if_pos h]
  rfl

theorem Dev.authAgain_ends (h : 3 ≤ a.tries) : d.authAgain l a.update =
    if a.update then (d.raise .secure 0x0303 [(1, l), (4, d.rd F.VLT_HEAD_PENDING_PENDING l)]).endAuth l else d.authFail l 1 := by
  have hidle : ¬ (a.update ≠ a.update ∨ a.waiting = true) := by simp [hw]
  unfold Dev.authAgain
  rw [ha]
  dsimp only
  rw [if_neg hidle, if_neg (by omega)]

end

theorem Dev.askAgain_spec {d : Dev} {l : Nat} (hlen : l < d.hl.length) (a : AuthEx) : d.ChangesOnly (d.askAgain l a) [.hl, .freeCtr] [] ∧
    ∃ b, ((d.askAgain l a).link l).auth = some b ∧ b.update = a.update ∧ b.tries = a.tries + 1 ∧ b.waiting = true ∧ b.amount = a.amount :=
  ⟨.setHl (.setFreeCtr .keep (by decide)) (by decide), _, congrArg LinkSt.auth (Dev.link_setLink (d := (d.free (2 ^ 128)).2) _ hlen), rfl, rfl, rfl, rfl⟩

section
variable (l : Fin 32) (a : AuthEx) (s : State) (hinv : s.Inv) (ha : (s.dev.link l).auth = some a) (hw : a.waiting = false)
include hinv ha hw

theorem authTimeout_clause :
    (a.update = false → a.tries < 3 →
      ∃ u, Runs (.authResponseTimeout l) s u [.hl, .freeCtr] [] ∧ ∃ b, (u.dev.link l).auth = some b ∧ b.update = false ∧
        b.tries = a.tries + 1 ∧ b.waiting = true) ∧
    (a.update = true → a.tries < 3 →
      ∃ u, Runs (.countAckTimeout l) s u [.hl, .freeCtr] [] ∧ ∃ b, (u.dev.link l).auth = some b ∧ b.update = true ∧
        b.tries = a.tries + 1 ∧ b.waiting = true ∧ b.amount = a.amount) ∧
    (a.update = false → 3 ≤ a.tries → (s.dev.link l).authDue = false →
      ∃ u, Runs (.authResponseTimeout l) s u [.hl, .raised, .freeCtr] [R.VLT_HEAD_STAT.addr l] ∧ u.dev.rd F.VLT_HEAD_STAT_AUTH l = 3 ∧
        u.dev.rd F.VLT_HEAD_STAT_CAUSE l = 1 ∧ (u.dev.link l).verdict = some false) ∧
    (a.update = true → 3 ≤ a.tries →
      ∃ u, Runs (.countAckTimeout l) s u [.hl, .vlt, .raised, .freeCtr] [R.VLT_HEAD_STAT.addr l, R.VLT_HEAD_SERIAL.addr l, R.VLT_HEAD_PENDING.addr l] ∧
        u.dev.raised = s.dev.raised ++ [s.dev.event .secure 0x0303 [(1, l), (4, s.dev.rd F.VLT_HEAD_PENDING_PENDING l)]]) ∧
    (a.update = true → Ignored (.authResponseTimeout l) s) ∧
    (a.update = false → Ignored (.countAckTimeout l) s) := by
  have hlen : l.val < s.dev.hl.length := by rw [hinv.links]; exact l.isLt
  have hagain := Dev.authAgain_again ha hw
  have hends := Dev.authAgain_ends ha hw
  obtain ⟨hask, b, hb, hbu, hbt, hbw, hba⟩ := Dev.askAgain_spec hlen a
  refine ⟨fun hu ht => ?_, fun hu ht => ?_, fun hu ht hdue => ?_, fun hu ht => ?_, fun hu => ?_, fun hu => ?_⟩
  · rw [hu] at hagain
    exact ⟨_, .quiet (fun d => d.authAgain l false) rfl (hagain ht) (by decide) hask, b, hb, hbu.trans hu, hbt, hbw⟩
  · rw [hu] at hagain
    exact ⟨_, .quiet (fun d => d.authAgain l true) rfl (hagain ht) (by decide) hask, b, hb, hbu.trans hu, hbt, hbw, hba⟩
  · rw [hu] at hends
    obtain ⟨hc, hauth, hwhy, -, hv⟩ := Dev.authFail_spec hinv.regs l hlen hdue (cause := 1) (by decide)
    exact ⟨_, .ordered (fun d => d.authAgain l false) rfl (hends ht) (by decide) hc, hauth, hwhy, hv⟩
  · rw [hu] at hends
    have hpost : s.dev.ChangesOnly (s.dev.raise .secure 0x0303 [(1, l), (4, s.dev.rd F.VLT_HEAD_PENDING_PENDING l)]) [.hl, .vlt, .raised, .freeCtr]
        [R.VLT_HEAD_STAT.addr l, R.VLT_HEAD_SERIAL.addr l, R.VLT_HEAD_PENDING.addr l] := .raise .keep (by decide) (.inl (by decide))
    have hraised := Dev.raise_raised s.dev .secure 0x0303 [(1, l.val), (4, s.dev.rd F.VLT_HEAD_PENDING_PENDING l)]
    have hend := (s.dev.raise .secure 0x0303 [(1, l.val), (4, s.dev.rd F.VLT_HEAD_PENDING_PENDING l)]).endAuth_changes l
    have hlast := (hend.parts .raised (by decide)).trans hraised
    exact ⟨_, .inOrder (fun d => d.authAgain l true) rfl (hends ht) (Dev.orderEvents_one hlast)
      (hpost.trans (hend.mono (by simp) (by simp [authRegs]))), hlast⟩
  · exact .inOrder (fun d => d.authAgain l false) rfl (Dev.authAgain_ignored ha (by rw [hu]; decide))
  · exact .inOrder (fun d => d.authAgain l true) rfl (Dev.authAgain_ignored ha (by rw [hu]; decide))

end

/-! ### COUNT_UPDATE (R316) -/

section
variable (l : Fin 32) (msg : AuthBody) (a : AuthEx) (s : State) (ha : (s.dev.link l).auth = some a)
include ha

theorem countAckRx_counts (hinv : s.Inv) (hu : a.update = true) (hw : a.waiting = false) (hdue : (s.dev.link l).authDue = false)
    (h1 : msg.hserial.toNat = s.dev.headSerial l) (h2 : msg.nonce.toNat = a.nonce)
    (h3 : msg.mac.toNat = s.dev.authMac 4 (s.dev.headSerial l) a.nonce msg.usage.toNat) :
    ∃ u, Runs (.countAckRx l msg) s u [.hl, .freeCtr] [R.VLT_HEAD_PENDING.addr l, R.VLT_HEAD_USAGE.addr l] ∧
      u.dev.rd F.VLT_HEAD_PENDING_PENDING l = s.dev.rd F.VLT_HEAD_PENDING_PENDING l - a.amount ∧
      u.dev.rd F.VLT_HEAD_USAGE_TOTAL l = msg.usage.toNat % 2 ^ F.VLT_HEAD_USAGE_TOTAL.w := by
  obtain ⟨-, -, -, -, hapart⟩ := authRegs_apart l
  have hdo : s.dev.countAck l msg = ((s.dev.wr F.VLT_HEAD_PENDING_PENDING l (s.dev.rd F.VLT_HEAD_PENDING_PENDING l - a.amount)).wr F.VLT_HEAD_USAGE_TOTAL l
      msg.usage.toNat).endAuth l := by
    unfold Dev.countAck
    rw [ha]
    exact if_neg (by simp [hu, hw, h1, h2, h3])
  have hlt : s.dev.rd F.VLT_HEAD_PENDING_PENDING l < 2 ^ F.VLT_HEAD_PENDING_PENDING.w := Dev.rd_lt ..
  have hrise := Dev.wr_rising s.dev F.VLT_HEAD_PENDING_PENDING l (s.dev.rd F.VLT_HEAD_PENDING_PENDING l - a.amount) hinv.regs
  have hset : s.dev.ChangesOnly ((s.dev.wr F.VLT_HEAD_PENDING_PENDING l (s.dev.rd F.VLT_HEAD_PENDING_PENDING l - a.amount)).wr F.VLT_HEAD_USAGE_TOTAL l
      msg.usage.toNat) [.hl, .freeCtr] [R.VLT_HEAD_PENDING.addr l, R.VLT_HEAD_USAGE.addr l] :=
    .wr (.wr .keep List.mem_cons_self) (List.mem_cons_of_mem _ List.mem_cons_self)
  obtain ⟨hend, -⟩ := Dev.endAuth_notDue (d := (s.dev.wr F.VLT_HEAD_PENDING_PENDING l (s.dev.rd F.VLT_HEAD_PENDING_PENDING l - a.amount)).wr
    F.VLT_HEAD_USAGE_TOTAL l msg.usage.toNat) (l := l) hdue
  refine ⟨_, .act (fun d => d.countAck l msg) rfl hdo (hset.trans (hend.mono (fun _ => id) (by simp))), (hend.rd (by simp)).trans ?_,
    (hend.rd (by simp)).trans (Dev.rd_wr_self _ _ _ _ (by decide) hrise)⟩
  exact (Dev.rd_wr_ne _ _ _ _ _ _ hapart.symm).trans (Dev.rd_wr_lt _ (by omega) (by decide) hinv.regs)

theorem countAckRx_ignored (h : a.update = false ∨ a.waiting = true ∨ msg.hserial.toNat ≠ s.dev.headSerial l ∨ msg.nonce.toNat ≠ a.nonce ∨
    msg.mac.toNat ≠ s.dev.authMac 4 (s.dev.headSerial l) a.nonce msg.usage.toNat) : Ignored (.countAckRx l msg) s := by
  refine .act (fun d => d.countAck l msg) rfl ?_
  unfold Dev.countAck
  rw [ha]
  exact if_pos (by simpa using h)

end

/-! ### The next exchange of one link beside another's -/

/-- From d to e what the authentication of link l rests on is as it was. -/
structure Dev.KeepsHead (d e : Dev) (l : Fin 32) : Prop where
  link : e.link l = d.link l
  used : e.vlt.used = d.vlt.used
  stat : e.reg R.HL_STAT l = d.reg R.HL_STAT l
  pending : e.reg R.VLT_HEAD_PENDING l = d.reg R.VLT_HEAD_PENDING l
  length : e.hl.length = d.hl.length

theorem Dev.KeepsHead.refl (d : Dev) (l : Fin 32) : d.KeepsHead d l := ⟨rfl, rfl, rfl, rfl, rfl⟩

theorem Dev.KeepsHead.trans {d e f : Dev} {l : Fin 32} (h : d.KeepsHead e l) (h' : e.KeepsHead f l) : d.KeepsHead f l :=
  ⟨h'.link.trans h.link, h'.used.trans h.used, h'.stat.trans h.stat, h'.pending.trans h.pending, h'.length.trans h.length⟩

theorem authRegs_other {k l : Fin 32} (h : k ≠ l) : R.HL_STAT.addr l ∉ authRegs k ∧ R.VLT_HEAD_PENDING.addr l ∉ authRegs k := by
  have hall : ∀ k l : Fin 32, k ≠ l → R.HL_STAT.addr l ∉ authRegs k ∧ R.VLT_HEAD_PENDING.addr l ∉ authRegs k := by decide +kernel
  exact hall k l h

/-- An exchange on another link keeps what this one rests on. -/
theorem Dev.KeepsHead.of_auth {d e : Dev} {k l : Fin 32} (h : d.AuthStep e k) (hne : k ≠ l) (hlink : e.link l = d.link l) (hused : e.vlt.used = d.vlt.used) :
    d.KeepsHead e l where
  link := hlink
  used := hused
  stat := by rw [Dev.reg, Dev.reg, h.changes.regs _ (authRegs_other hne).1]
  pending := by rw [Dev.reg, Dev.reg, h.changes.regs _ (authRegs_other hne).2]
  length := h.length

theorem Dev.nextAuth_used (d : Dev) (l : Nat) : (d.nextAuth l).vlt.used = d.vlt.used := by
  unfold Dev.nextAuth
  dsimp only
  split
  · rfl
  · split
    · split
      · exact Dev.restoreUsage_used _ l
      · rfl
    · split <;> rfl

theorem Dev.nextAuth_other (d : Dev) {k l : Nat} (h : k ≠ l) : (d.nextAuth k).link l = d.link l := by
  have hrest : ∀ e : Dev, (e.restoreUsage k).link l = e.link l := fun e => by rw [Dev.link, (e.restoreUsage_changes k).parts .hl (by decide)]; rfl
  unfold Dev.nextAuth
  dsimp only
  split
  · rfl
  · split
    · split
      · exact (hrest _).trans (Dev.link_setLink_ne d _ h)
      · exact (Dev.link_setLink_ne ((d.setLink k fun x => { x with authDue := false }).free (2 ^ 128)).2 _ h).trans (Dev.link_setLink_ne d _ h)
    · split
      · exact Dev.link_setLink_ne (d.free (2 ^ 128)).2 _ h
      · rfl

/-- A request noted at another link, and its exchange. -/
theorem Dev.KeepsHead.next (d : Dev) {k l : Fin 32} (hne : k ≠ l) {f : LinkSt → LinkSt} (hf : ∀ x, (f x).check = x.check) (hf' : ∀ x, (f x).checked = x.checked) :
    d.KeepsHead ((d.setLink k f).nextAuth k) l :=
  .of_auth (.nextAuth (.setLink .refl hf hf')) hne ((Dev.nextAuth_other _ fun h => hne (Fin.ext h)).trans (Dev.link_setLink_ne d _ fun h => hne (Fin.ext h)))
    (Dev.nextAuth_used ..)

theorem foldl_mem {α : Type} {P : Dev → Prop} {f : Dev → α → Dev} (l : List α) {d : Dev} (h : P d) (hf : ∀ e, ∀ x ∈ l, P e → P (f e x)) : P (l.foldl f d) := by
  induction l generalizing d with
  | nil => exact h
  | cons x l ih => exact ih (hf d x List.mem_cons_self h) fun e y hy => hf e y (List.mem_cons_of_mem _ hy)

/-- The steps of a loop over the links, cut at one of them. -/
theorem foldl_links (f : Dev → Nat → Dev) (l : Fin 32) (d : Dev) : ∃ before after : List Nat, (∀ k ∈ before ++ after, k < 32 ∧ k ≠ l) ∧
    (List.range 32).foldl f d = after.foldl f (f (before.foldl f d) l) := by
  obtain ⟨before, after, hlist⟩ := List.append_of_mem (List.mem_range.mpr l.isLt)
  have hnodup : (before ++ l.val :: after).Nodup := hlist ▸ List.nodup_range
  refine ⟨before, after, fun k hk => ⟨?_, ?_⟩, by rw [hlist, List.foldl_append]; rfl⟩
  · refine List.mem_range.mp (hlist ▸ ?_)
    rcases List.mem_append.mp hk with h | h
    · exact List.mem_append_left _ h
    · exact List.mem_append_right _ (List.mem_cons_of_mem _ h)
  · rintro rfl
    rw [List.nodup_middle, List.nodup_cons] at hnodup
    exact hnodup.1 hk

/-! ### VLT_AUTH_REAUTH (R315) -/

/-- An authentication of a link is due. -/
def Dev.dueAuth (d : Dev) (l : Nat) : Dev := d.setLink l fun x => { x with authDue := true }

/-- The registers of every head's authentication. -/
def allAuthRegs : List Nat := (List.range 32).flatMap fun l => [R.VLT_HEAD_STAT.addr l, R.VLT_HEAD_SERIAL.addr l, R.VLT_HEAD_PENDING.addr l]

theorem Dev.AuthStep.all {d e : Dev} {l : Nat} (h : d.AuthStep e l) (hl : l < 32) : d.ChangesOnly e [.hl, .vlt, .freeCtr] allAuthRegs := by
  refine h.changes.mono (fun _ => id) fun a ha => List.mem_flatMap.mpr ⟨l, List.mem_range.mpr hl, ?_⟩
  simp only [authRegs, List.mem_cons, List.not_mem_nil, or_false] at ha ⊢
  tauto

theorem Dev.wReauth_changes (d : Dev) (val mask : Nat) : d.ChangesOnly (d.wReauth val mask) [.hl, .vlt, .freeCtr] allAuthRegs :=
  foldl_mem (P := fun e => d.ChangesOnly e [.hl, .vlt, .freeCtr] allAuthRegs) _ .keep fun _ _ hk h =>
    .ite (h.trans (Dev.AuthStep.all (.nextAuth (.setLink .refl (fun _ => rfl) fun _ => rfl)) (List.mem_range.mp hk))) h

/-- A write of one link's bit concerns that link alone. -/
theorem Dev.wReauth_one (d : Dev) (l : Fin 32) : d.wReauth (2 ^ l.val) mask32 = if d.linkUp l then (d.dueAuth l).nextAuth l else d := by
  obtain ⟨before, after, hothers, hfold⟩ := foldl_links (fun (d : Dev) k =>
    if (Nat.land (2 ^ l.val) mask32).testBit k ∧ d.linkUp k then (d.setLink k fun x => { x with authDue := true }).nextAuth k else d) l d
  have hbit : ∀ k < 32, (Nat.land (2 ^ l.val) mask32).testBit k = decide (l.val = k) := fun k hk => by
    rw [land_mask32_testBit _ hk, Nat.testBit_two_pow]
  have hskip : ∀ (ks : List Nat) (e : Dev), (∀ k ∈ ks, k < 32 ∧ k ≠ l) → ks.foldl (fun (d : Dev) k =>
      if (Nat.land (2 ^ l.val) mask32).testBit k ∧ d.linkUp k then (d.setLink k fun x => { x with authDue := true }).nextAuth k else d) e = e := by
    intro ks e hks
    refine foldl_mem (P := fun g => g = e) ks rfl fun g k hk hg => ?_
    obtain ⟨hlt, hne⟩ := hks k hk
    rw [if_neg, hg]
    rw [hbit k hlt, decide_eq_true_iff]
    exact fun h => hne h.1.symm
  unfold Dev.wReauth
  rw [hfold, hskip before d fun k hk => hothers k (List.mem_append_left _ hk), hskip after _ fun k hk => hothers k (List.mem_append_right _ hk)]
  exact if_congr (by rw [hbit l l.isLt]; simp) rfl rfl

theorem Dev.startChallenge_spec {d : Dev} (hr : keysRising 0 d.regs = true) (l : Fin 32) (hlen : l.val < d.hl.length) :
    d.ChangesOnly (d.startChallenge l) [.hl, .freeCtr] [R.VLT_HEAD_STAT.addr l, R.VLT_HEAD_SERIAL.addr l] ∧
      (d.startChallenge l).rd F.VLT_HEAD_STAT_AUTH l = 1 ∧ (d.startChallenge l).rd F.VLT_HEAD_SERIAL_HSERIAL l = d.headSerial l % 2 ^ 64 ∧
      ∃ a, ((d.startChallenge l).link l).auth = some a ∧ a.update = false ∧ a.tries = 1 ∧ a.waiting = true := by
  have hapart : ∀ l : Fin 32, R.VLT_HEAD_STAT.addr l ≠ R.VLT_HEAD_SERIAL.addr l := by decide
  have hlen' : l.val < (d.setLink l fun x => { x with authDue := false }).hl.length := by rwa [Dev.setLink_length]
  have hlink := Dev.link_setLink (d := ((d.setLink l fun x => { x with authDue := false }).free (2 ^ 128)).2) (l := l) (fun x => { x with
    auth := some { nonce := ((d.setLink l fun x => { x with authDue := false }).free (2 ^ 128)).1, tries := 1 } }) hlen'
  have hids : (((d.setLink l fun x => { x with authDue := false }).free (2 ^ 128)).2.link l).ids = (d.link l).ids :=
    d.setLink_at LinkSt.ids l l (by exact fun _ => rfl)
  unfold Dev.startChallenge
  have hc : d.ChangesOnly (((d.setLink l fun x => { x with authDue := false }).free (2 ^ 128)).2.setLink l fun x => { x with
      auth := some { nonce := ((d.setLink l fun x => { x with authDue := false }).free (2 ^ 128)).1, tries := 1 } }) [.hl, .freeCtr]
      [R.VLT_HEAD_STAT.addr l, R.VLT_HEAD_SERIAL.addr l] := .setHl (.setFreeCtr (.setHl .keep (by decide)) (by decide)) (by decide)
  generalize ((d.setLink l fun x => { x with authDue := false }).free (2 ^ 128)).1 = n at *
  generalize ((d.setLink l fun x => { x with authDue := false }).free (2 ^ 128)).2 = e at *
  have hserial : (e.setLink l fun x => { x with auth := some { nonce := n, tries := 1 } }).headSerial l = d.headSerial l := by
    rw [Dev.headSerial, hlink]
    dsimp only
    rw [hids]
    rfl
  dsimp only
  rw [hserial]
  generalize (e.setLink l fun x => { x with auth := some { nonce := n, tries := 1 } }) = g at *
  have hrise := Dev.wr_rising g F.VLT_HEAD_STAT_AUTH l 1 (hc.rising hr)
  refine ⟨.wr (.wr hc List.mem_cons_self) (List.mem_cons_of_mem _ List.mem_cons_self), ?_, Dev.rd_wr_self _ _ _ _ (by decide) hrise, _,
    congrArg LinkSt.auth hlink, rfl, rfl, rfl⟩
  exact (Dev.rd_wr_ne _ _ _ _ _ _ (hapart l)).trans (Dev.rd_wr_lt _ (by decide) (by decide) (hc.rising hr))

theorem authReauth_frame (m : Master) (val : Nat) (s : State) (_ : s.Inv) (ht : s.dev.Takes m R.VLT_AUTH_REAUTH 0) :
    ∃ u, Runs (.authReauth m val) s u [.bus, .hl, .vlt, .freeCtr] allAuthRegs :=
  ⟨_, .writes (fun d => d.wReauth val mask32) rfl ht rfl (Dev.wReauth_changes _ val mask32).after_touch⟩

section
variable (m : Master) (l : Fin 32) (s : State) (hinv : s.Inv) (ht : s.dev.Takes m R.VLT_AUTH_REAUTH 0)
include hinv ht

theorem authReauth_clause :
    (s.dev.linkUp l = true → (s.dev.link l).named = true → (s.dev.link l).auth = none → s.dev.vlt.used.headRoot.blank = false →
      ∃ u, Runs (.authReauth m (2 ^ l.val)) s u [.bus, .hl, .freeCtr] [R.VLT_HEAD_STAT.addr l, R.VLT_HEAD_SERIAL.addr l] ∧
        u.dev.rd F.VLT_HEAD_STAT_AUTH l = 1 ∧ u.dev.rd F.VLT_HEAD_SERIAL_HSERIAL l = s.dev.headSerial l % 2 ^ 64 ∧
        ∃ a, (u.dev.link l).auth = some a ∧ a.update = false ∧ a.tries = 1 ∧ a.waiting = true) ∧
    (s.dev.linkUp l = true → (s.dev.link l).named = true → (s.dev.link l).auth = none → s.dev.vlt.used.headRoot.blank = true →
      ∃ u, Runs (.authReauth m (2 ^ l.val)) s u [.bus, .hl, .vlt] [R.VLT_HEAD_STAT.addr l, R.VLT_HEAD_PENDING.addr l] ∧
        u.dev.rd F.VLT_HEAD_STAT_AUTH l = 0 ∧ u.dev.authPassed l = true) ∧
    (s.dev.linkUp l = true → (s.dev.link l).auth ≠ none ∨ ((s.dev.link l).named = false ∧ (s.dev.link l).updateDue = false) →
      ∃ u, Runs (.authReauth m (2 ^ l.val)) s u [.bus, .hl] [] ∧ u.dev.hl = s.dev.hl.set l { s.dev.link l with authDue := true }) ∧
    (s.dev.linkUp l = false → ∃ u, Runs (.authReauth m (2 ^ l.val)) s u [.bus] []) := by
  have hlen : l.val < s.dev.hl.length := by rw [hinv.links]; exact l.isLt
  have hruns : ∀ {e : Dev} {ps rs}, (s.dev.touch m).wReauth (2 ^ l.val) mask32 = e → (s.dev.touch m).ChangesOnly e ps rs →
      Runs (.authReauth m (2 ^ l.val)) s { s with dev := e } (.bus :: ps) rs := fun he hc =>
    .writes (fun d => d.wReauth (2 ^ l.val) mask32) rfl ht he hc.after_touch
  rw [Dev.wReauth_one] at hruns
  obtain ⟨b, hb⟩ := s.dev.touch_bus m
  rw [hb] at hruns
  have hup : ({ s.dev with bus := b } : Dev).linkUp l = s.dev.linkUp l := rfl
  have hdue : ({ s.dev with bus := b } : Dev).ChangesOnly (({ s.dev with bus := b } : Dev).dueAuth l) [.hl] [] := .setHl .keep (by decide)
  have hlink : (({ s.dev with bus := b } : Dev).dueAuth l).link l = { s.dev.link l with authDue := true } :=
    Dev.link_setLink (d := { s.dev with bus := b }) _ hlen
  have hup' : (({ s.dev with bus := b } : Dev).dueAuth l).linkUp l = s.dev.linkUp l := rfl
  have hvlt : (({ s.dev with bus := b } : Dev).dueAuth l).vlt = s.dev.vlt := rfl
  have hhl : (({ s.dev with bus := b } : Dev).dueAuth l).hl = s.dev.hl.set l { s.dev.link l with authDue := true } := Dev.setLink_hl_set ..
  have hserial : (({ s.dev with bus := b } : Dev).dueAuth l).headSerial l = s.dev.headSerial l := by
    rw [Dev.headSerial, hlink]
    rfl
  have hrise := hdue.rising hinv.regs
  rw [hup] at hruns
  generalize ({ s.dev with bus := b } : Dev).dueAuth l = e at *
  have hlen' : l.val < e.hl.length := by rwa [hhl, List.length_set]
  refine ⟨fun hu hnamed hauth hroot => ?_, fun hu hnamed hauth hroot => ?_, fun hu h => ?_, fun hno => ?_⟩
  · rw [if_pos hu, Dev.nextAuth_challenge (by rw [hlink]; exact hauth) (hup'.trans hu) (by rw [hlink]; simpa using hnamed) (by rw [hvlt]; exact hroot)] at hruns
    obtain ⟨hc, hst, hser, ha⟩ := Dev.startChallenge_spec hrise l hlen'
    rw [hserial] at hser
    exact ⟨_, hruns rfl ((hdue.mono (by simp) (by simp)).trans hc), hst, hser, ha⟩
  · rw [if_pos hu, Dev.nextAuth_blank (by rw [hlink]; exact hauth) (hup'.trans hu) (by rw [hlink]; simpa using hnamed) (by rw [hvlt]; exact hroot)] at hruns
    obtain ⟨-, -, -, hpend, -⟩ := authRegs_apart l
    have hshow : e.ChangesOnly ((e.setLink l fun x => { x with authDue := false }).wr F.VLT_HEAD_STAT_AUTH l 0) [.hl, .vlt]
        [R.VLT_HEAD_STAT.addr l, R.VLT_HEAD_PENDING.addr l] := .wr (.setHl .keep (by decide)) List.mem_cons_self
    have hst : ((e.setLink l fun x => { x with authDue := false }).wr F.VLT_HEAD_STAT_AUTH l 0).rd F.VLT_HEAD_STAT_AUTH l = 0 :=
      Dev.rd_wr_lt (d := e.setLink l fun x => { x with authDue := false }) _ (by decide) (by decide) hrise
    have hused : ((e.setLink l fun x => { x with authDue := false }).wr F.VLT_HEAD_STAT_AUTH l 0).vlt = s.dev.vlt := hvlt
    generalize (e.setLink l fun x => { x with authDue := false }).wr F.VLT_HEAD_STAT_AUTH l 0 = g at *
    have hrest := g.restoreUsage_changes l
    refine ⟨_, hruns rfl (((hdue.mono (by simp) (by simp)).trans hshow).trans (hrest.mono (by simp) (by simp))), (hrest.rd ?_).trans hst, ?_⟩
    · rw [List.mem_singleton]; exact hpend
    · rw [Dev.authPassed, Dev.restoreUsage_used, hused, hroot]
      rfl
  · have hkeep : e.nextAuth l = e := by
      rcases h with hbusy | ⟨hnamed, hupd⟩
      · exact Dev.nextAuth_busy (by rw [hlink]; exact hbusy)
      · exact Dev.nextAuth_none (by rw [hlink, hnamed]; rfl) (by rw [hlink]; exact hupd)
    rw [if_pos hu, hkeep] at hruns
    exact ⟨_, hruns rfl hdue, hhl⟩
  · rw [if_neg (by rw [hno]; decide)] at hruns
    exact ⟨_, hruns rfl .keep⟩

end

/-! ### The usage period (R316) -/

/-- The step of the loop at a link whose update may begin, the links before it done. -/
theorem Dev.usageStep_spec {d e : Dev} {l : Fin 32} (hk : d.KeepsHead e l) (hlen : l.val < d.hl.length) (hserv : d.inService l = true) (hup : d.linkUp l = true)
    (hpass : d.authPassed l = true) (hauth : (d.link l).auth = none) (hdue : (d.link l).authDue = false) :
    ((if e.inService l ∧ e.authPassed l then (e.setLink l fun x => { x with updateDue := true }).nextAuth l else e).link l).auth.map
      (fun a => (a.update, a.amount, a.tries, a.waiting)) = some (true, d.rd F.VLT_HEAD_PENDING_PENDING l, 1, true) := by
  have hstat : ∀ f : Fld, f.reg = R.HL_STAT → e.on f l = d.on f l := fun f hf => by rw [Dev.on, Dev.rd, hf, hk.stat, ← hf]; rfl
  have hserv' : e.inService l = true := (hstat F.HL_STAT_IN_SERVICE rfl).trans hserv
  have hup' : e.linkUp l = true := (hstat F.HL_STAT_UP rfl).trans hup
  have hpass' : e.authPassed l = true := by rw [← hpass, Dev.authPassed, hk.link, hk.used]; rfl
  have hpend : e.rd F.VLT_HEAD_PENDING_PENDING l = d.rd F.VLT_HEAD_PENDING_PENDING l := congrArg (fieldOf _ _) hk.pending
  have hlen' : l.val < e.hl.length := by rwa [hk.length]
  have hlink : (e.setLink l fun x => { x with updateDue := true }).link l = { d.link l with updateDue := true } := by
    rw [Dev.link_setLink _ hlen', hk.link]
  rw [if_pos ⟨hserv', hpass'⟩, Dev.nextAuth_update (d := e.setLink l fun x => { x with updateDue := true }) (by rw [hlink]; exact hauth) hup'
    (by rw [hlink, hdue]; rfl) (by rw [hlink])]
  unfold Dev.startUpdate
  rw [Dev.link_setLink (d := ((e.setLink l fun x => { x with updateDue := true }).free (2 ^ 128)).2) _ (by
    change l.val < (e.setLink l fun x => { x with updateDue := true }).hl.length
    rwa [Dev.setLink_length])]
  rw [← hpend]
  rfl

theorem usagePeriodExpiry_clause (s : State) (hinv : s.Inv) :
    ∃ u, Runs .usagePeriodExpiry s u [.hl, .vlt, .freeCtr] allAuthRegs ∧
      ∀ l : Fin 32, s.dev.inService l = true → s.dev.linkUp l = true → s.dev.authPassed l = true →
        (s.dev.link l).auth = none → (s.dev.link l).authDue = false →
        (u.dev.link l).auth.map (fun a => (a.update, a.amount, a.tries, a.waiting)) =
          some (true, s.dev.rd F.VLT_HEAD_PENDING_PENDING l, 1, true) := by
  have hframe : s.dev.ChangesOnly s.dev.usagePeriod [.hl, .vlt, .freeCtr] allAuthRegs :=
    foldl_mem (P := fun e => s.dev.ChangesOnly e [.hl, .vlt, .freeCtr] allAuthRegs) _ .keep fun _ _ hk h =>
      .ite (h.trans (Dev.AuthStep.all (.nextAuth (.setLink .refl (fun _ => rfl) fun _ => rfl)) (List.mem_range.mp hk))) h
  refine ⟨_, .act Dev.usagePeriod rfl rfl hframe, fun l hserv hup hpass hauth hdue => ?_⟩
  obtain ⟨before, after, hothers, hfold⟩ := foldl_links (fun (d : Dev) k =>
    if d.inService k ∧ d.authPassed k then (d.setLink k fun x => { x with updateDue := true }).nextAuth k else d) l s.dev
  have hkeep : ∀ (ks : List Nat) (e : Dev), (∀ k ∈ ks, k < 32 ∧ k ≠ l) → e.KeepsHead (ks.foldl (fun (d : Dev) k =>
      if d.inService k ∧ d.authPassed k then (d.setLink k fun x => { x with updateDue := true }).nextAuth k else d) e) l := by
    intro ks e hks
    refine foldl_mem (P := fun g => e.KeepsHead g l) ks (.refl e l) fun g k hk hg => ?_
    obtain ⟨hlt, hne⟩ := hks k hk
    split
    · exact hg.trans (.next g (k := ⟨k, hlt⟩) (fun h => hne (congrArg Fin.val h)) (fun _ => rfl) fun _ => rfl)
    · exact hg
  have hone := Dev.usageStep_spec (hkeep before s.dev fun k hk => hothers k (List.mem_append_left _ hk)) (by rw [hinv.links]; exact l.isLt)
    hserv hup hpass hauth hdue
  rw [show s.dev.usagePeriod = _ from hfold, (hkeep after _ fun k hk => hothers k (List.mem_append_right _ hk)).link]
  exact hone

/-- Settles O39: by what each message and each missing answer begins, ends and posts, link by link. -/
theorem headAuthentication : Obligations.HeadAuthentication := by
  unfold Obligations.HeadAuthentication
  refine ⟨authReauth_frame, authReauth_clause, ?response, fun l a s hinv ha hw => authTimeout_clause l a s hinv ha hw, usagePeriodExpiry_clause, ?ack⟩
  case response =>
    intro l msg a s hs hinv ha
    exact ⟨fun hu hw hdue h1 h2 h3 => authResponseRx_passes l msg a s hinv ha hu hw hdue h1 h2 h3,
      fun hu hw hdue h => authResponseRx_fails l msg a s hinv ha hu hw hdue h, authResponseRx_ignored l msg a s ha⟩
  case ack =>
    intro l msg a s hs hinv ha
    exact ⟨fun hu hw hdue h1 h2 h3 => countAckRx_counts l msg a s ha hinv hu hw hdue h1 h2 h3, countAckRx_ignored l msg a s ha⟩

/-! ### Pending steps (R80 to R83) -/

theorem findReg_TB_CTRL : findReg (R.TB_CTRL.addr 0) regTable =
    some ⟨⟨R.TB_CTRL, [F.TB_CTRL_MANUAL, F.TB_CTRL_RESYNC, F.TB_CTRL_MODE, F.TB_CTRL_ARMED]⟩, 0, false⟩ := by rfl

/-- A field of TB_STATE that STEP_PENDING leaves. -/
def Fld.NotPending (f : Fld) : Prop := F.TB_STATE_STEP_PENDING.Beside f

/-- A servo's step is given up, where one waits. -/
def Dev.dropServoStep (d : Dev) : Dev :=
  match d.tmb.step with
  | some (_, false) => d.setStep none
  | _ => d

section
variable {d e : Dev} {ps : List Part} {rs : List Nat}

theorem Dev.ChangesOnly.setStep (h : d.ChangesOnly e ps rs) (hp : Part.tmb ∈ ps) (hr : R.TB_STATE.addr 0 ∈ rs) (s : Option (Int × Bool)) :
    d.ChangesOnly (e.setStep s) ps rs := .wrB (.setTmb h hp) hr

theorem Dev.ChangesOnly.setTimeState (h : d.ChangesOnly e ps rs) (hp : Part.tmb ∈ ps) (hr : R.TB_STATE.addr 0 ∈ rs) (n : Nat) :
    d.ChangesOnly (e.setTimeState n) ps rs := .setTmb (.wr h hr) hp

theorem Dev.ChangesOnly.setIncr (h : d.ChangesOnly e ps rs) (hr : R.TB_INCR.addr 0 ∈ rs) (n : Nat) : d.ChangesOnly (e.setIncr n) ps rs := .wr h hr

theorem Dev.ChangesOnly.dropServoStep (h : d.ChangesOnly e ps rs) (hp : Part.tmb ∈ ps) (hr : R.TB_STATE.addr 0 ∈ rs) :
    d.ChangesOnly e.dropServoStep ps rs := by
  unfold Dev.dropServoStep
  split
  · exact h.setStep hp hr none
  · exact h

end

section
variable {d : Dev} (hr : keysRising 0 d.regs = true)
include hr

theorem Dev.rd_setStep_beside (s : Option (Int × Bool)) {f : Fld} (hf : f.NotPending) : (d.setStep s).rd f = d.rd f := by
  unfold Dev.setStep
  exact Dev.rd_wr_beside (d := { d with tmb.step := s, tmb.deferred := d.tmb.deferred && s.isSome }) hf 0 _ hr

theorem Dev.rd_dropServoStep {f : Fld} (hf : f.NotPending) : d.dropServoStep.rd f = d.rd f := by
  unfold Dev.dropServoStep
  split
  · exact Dev.rd_setStep_beside hr none hf
  · rfl

theorem Dev.rd_setStep_none : (d.setStep none).rd F.TB_STATE_STEP_PENDING = 0 := by
  unfold Dev.setStep
  refine (Dev.rd_wrB_self _ _ _ _ (by decide) (by decide) (by exact hr)).trans ?_
  simp

omit hr in
theorem Dev.setStep_tmb (s : Option (Int × Bool)) : (d.setStep s).tmb = { d.tmb with step := s, deferred := d.tmb.deferred && s.isSome } := rfl

theorem Dev.rd_setIncr (n : Nat) : (d.setIncr n).rd F.TB_INCR_INCR = clampNat incrMin incrMax n :=
  Dev.rd_wr_lt _ (Nat.lt_of_le_of_lt (clampNat_le (by decide) n) (by decide)) (by decide) hr

/-- What keeping a step waiting shows and posts (R80). -/
theorem Dev.deferStep_spec (h : d.tmb.deferred = false) :
    d.ChangesOnly d.deferStep [.tmb, .raised] [R.TB_STATE.addr 0] ∧ d.deferStep.rd F.TB_STATE_STEP_PENDING = 1 ∧
      d.deferStep.tmb = { d.tmb with deferred := true } ∧ d.deferStep.raised = d.raised ++ [d.event .secure 0x0D04 []] := by
  have hshow : d.ChangesOnly (({ d with tmb.deferred := true } : Dev).wrB F.TB_STATE_STEP_PENDING 0 true) [.tmb, .raised] [R.TB_STATE.addr 0] :=
    .wrB (.setTmb .keep (by decide)) List.mem_cons_self
  have hsteps : (({ d with tmb.deferred := true } : Dev).wrB F.TB_STATE_STEP_PENDING 0 true).steps = d.steps :=
    Dev.rd_wr_beside (d := { d with tmb.deferred := true }) (f := F.TB_STATE_STEP_PENDING) (g := F.TB_STATE_STEPS) ⟨rfl, by decide, by decide⟩ 0 _ hr
  have hev := hshow.event_steps (by decide) hsteps (by decide) .secure 0x0D04 []
  have hone : (({ d with tmb.deferred := true } : Dev).wrB F.TB_STATE_STEP_PENDING 0 true).rd F.TB_STATE_STEP_PENDING = 1 :=
    Dev.rd_wrB_self { d with tmb.deferred := true } _ _ true (by decide) (by decide) hr
  rw [Dev.deferStep, if_neg (by rw [h]; decide)]
  refine ⟨hshow.raise (by decide) (.inl (by decide)), (Dev.rd_raise_ne _ _ _ _ _ _ (by decide)).trans hone, Dev.raise_tmb .., ?_⟩
  rw [Dev.raise_raised, hev]
  rfl

/-- What a refused correction counts and posts (R82). -/
theorem Dev.jumpRefused_spec (o : Int) :
    d.ChangesOnly (d.jumpRefused o) [.raised] [R.TB_STATE.addr 0] ∧ (d.jumpRefused o).rd F.TB_STATE_REFUSED = min 65535 (d.rd F.TB_STATE_REFUSED + 1) ∧
      (d.jumpRefused o).raised = d.raised ++ [d.event .secure 0x0D05 [(8, ofSigned 64 o)]] := by
  have hbump : d.ChangesOnly (d.bump F.TB_STATE_REFUSED 0 1) [.raised] [R.TB_STATE.addr 0] := .bump .keep List.mem_cons_self
  have hsteps : (d.bump F.TB_STATE_REFUSED 0 1).steps = d.steps :=
    Dev.rd_wr_beside (f := F.TB_STATE_REFUSED) (g := F.TB_STATE_STEPS) ⟨rfl, by decide, by decide⟩ 0 _ hr
  refine ⟨hbump.raise (by decide) (.inl (by decide)), ?_, ?_⟩
  · refine (Dev.rd_raise_ne _ _ _ _ _ _ (by decide)).trans ((Dev.rd_bump_self _ _ _ _ (by decide) hr).trans ?_)
    exact (Fld.sum_sat rfl _ _).trans (Nat.min_comm _ _)
  · rw [Dev.jumpRefused, Dev.raise_raised, hbump.event_steps (by decide) hsteps (by decide)]
    rfl

end

/-- A write of TB_STEP as it merges with what the register holds. -/
theorem mergeStep (old val : Nat) {bytes : Nat} (h : bytes = 4 ∧ val < 2 ^ 32 ∨ bytes = 8 ∧ val < 2 ^ 64) (hold : old < 2 ^ 64) :
    Nat.xor old (Nat.land (Nat.xor old val) (if bytes = 8 then mask64 else mask32)) = if bytes = 8 then val else old / 2 ^ 32 * 2 ^ 32 + val := by
  rcases h with ⟨rfl, hval⟩ | ⟨rfl, hval⟩
  · rw [if_neg (by decide), if_neg (by decide), show mask32 = 2 ^ 32 - 1 from rfl, Nat.mul_comm]
    refine Nat.eq_of_testBit_eq fun j => ?_
    change (old ^^^ (old ^^^ val) &&& (2 ^ 32 - 1)).testBit j = _
    rw [Nat.testBit_xor, Nat.testBit_and, Nat.testBit_xor, Nat.testBit_two_pow_sub_one, Nat.testBit_two_pow_mul_add _ hval]
    by_cases hj : j < 32
    · rw [if_pos hj, decide_eq_true hj, Bool.and_true, ← Bool.xor_assoc, Bool.xor_self, Bool.false_xor]
    · rw [if_neg hj, decide_eq_false hj, Bool.and_false, Bool.xor_false, Nat.testBit_div_two_pow]
      congr 1
      omega
  · rw [if_pos rfl, if_pos rfl, show mask64 = 2 ^ 64 - 1 from rfl]
    change old ^^^ (old ^^^ val) &&& (2 ^ 64 - 1) = val
    rw [Nat.and_two_pow_sub_one_eq_mod, Nat.mod_eq_of_lt (Nat.xor_lt_two_pow hold hval), ← Nat.xor_assoc, Nat.xor_self, Nat.zero_xor]

/-- A write of TB_STEP in manual mode. -/
theorem Dev.wTbStep_manual {d : Dev} (hman : d.rd F.TB_CTRL_MANUAL = 1) {bytes val v : Nat}
    (hv : Nat.xor d.tmb.stepReg (Nat.land (Nat.xor d.tmb.stepReg val) (if bytes = 8 then mask64 else mask32)) = v) :
    d.wTbStep val (if bytes = 8 then mask64 else mask32) =
      if ({ d with tmb.stepReg := v } : Dev).refuses (toSigned 64 v * 2 ^ 16) then ({ d with tmb.stepReg := v } : Dev).jumpRefused (-(toSigned 64 v * 2 ^ 16))
      else (({ d with tmb.stepReg := v, tmb.deferred := false } : Dev).setStep (some (toSigned 64 v * 2 ^ 16, true))).deferStep := by
  have hidle : ¬ ((!d.on F.TB_CTRL_MANUAL) = true ∨ (if bytes = 8 then mask64 else mask32) = 0) := by
    rw [Dev.on, hman]
    split <;> decide
  unfold Dev.wTbStep
  rw [if_neg hidle]
  dsimp only
  rw [hv]

theorem tbStepWrite_clause (m : Master) (bytes val : Nat) (s : State) {v : Nat} (hval : v = if bytes = 8 then val else s.dev.tmb.stepReg / 2 ^ 32 * 2 ^ 32 + val)
    (hinv : s.Inv) (ht : s.dev.Takes m R.TB_STEP 0) (hman : s.dev.rd F.TB_CTRL_MANUAL = 1) (hb : bytes = 4 ∧ val < 2 ^ 32 ∨ bytes = 8 ∧ val < 2 ^ 64)
    (hold : s.dev.tmb.stepReg < 2 ^ 64) :
    (s.dev.refuses (toSigned 64 v * 2 ^ 16) = false →
      ∃ t, Runs (.tbStepWrite m bytes val) s t [.bus, .tmb, .raised] [R.TB_STATE.addr 0] ∧ t.dev.rd F.TB_STATE_STEP_PENDING = 1 ∧
        t.dev.tmb = { s.dev.tmb with step := some (toSigned 64 v * 2 ^ 16, true), stepReg := v, deferred := true } ∧
        t.dev.raised = s.dev.raised ++ [s.dev.event .secure 0x0D04 []]) ∧
    (s.dev.refuses (toSigned 64 v * 2 ^ 16) = true →
      ∃ t, Runs (.tbStepWrite m bytes val) s t [.bus, .tmb, .raised] [R.TB_STATE.addr 0] ∧
        t.dev.tmb = { s.dev.tmb with stepReg := v } ∧
        t.dev.rd F.TB_STATE_REFUSED = min 65535 (s.dev.rd F.TB_STATE_REFUSED + 1) ∧
        t.dev.raised = s.dev.raised ++ [s.dev.event .secure 0x0D05 [(8, ofSigned 64 (-(toSigned 64 v * 2 ^ 16)))]]) := by
  have hmerge := (mergeStep s.dev.tmb.stepReg val hb hold).trans hval.symm
  have hdo := Dev.wTbStep_manual (d := s.dev.touch m) (v := v) ((Dev.rd_touch ..).trans hman) (by rw [Dev.touch_tmb]; exact hmerge)
  obtain ⟨b, hbus⟩ := s.dev.touch_bus m
  rw [hbus] at hdo
  have hrun : ∀ {e : Dev} {ev : Ev}, (s.dev.touch m).wTbStep val (if bytes = 8 then mask64 else mask32) = e → e.raised = s.dev.raised ++ [ev] →
      (s.dev.touch m).ChangesOnly e [.tmb, .raised] [R.TB_STATE.addr 0] →
      Runs (.tbStepWrite m bytes val) s { s with dev := e } [.bus, .tmb, .raised] [R.TB_STATE.addr 0] := fun he hev hc =>
    .writesInOrder (fun d => d.wTbStep val (if bytes = 8 then mask64 else mask32)) rfl ht he (Dev.orderEvents_one hev) hc
  rw [hbus] at hrun
  generalize hmove : toSigned 64 v * 2 ^ 16 = move at *
  have href : ({ s.dev with bus := b, tmb.stepReg := v } : Dev).refuses move = s.dev.refuses move := rfl
  refine ⟨fun hno => ?_, fun hyes => ?_⟩
  · rw [href, hno] at hdo
    have hset : ({ s.dev with bus := b } : Dev).ChangesOnly (({ s.dev with bus := b, tmb.stepReg := v, tmb.deferred := false } : Dev).setStep (some (move, true)))
        [.tmb, .raised] [R.TB_STATE.addr 0] := .setStep (.setTmb .keep (by decide)) (by decide) List.mem_cons_self _
    have hsteps : (({ s.dev with bus := b, tmb.stepReg := v, tmb.deferred := false } : Dev).setStep (some (move, true))).steps = s.dev.steps :=
      Dev.rd_setStep_beside (d := { s.dev with bus := b, tmb.stepReg := v, tmb.deferred := false }) hinv.regs _ ⟨rfl, by decide, by decide⟩
    have hev := hset.event_steps (by decide) hsteps (by decide) .secure 0x0D04 []
    have htmb : (({ s.dev with bus := b, tmb.stepReg := v, tmb.deferred := false } : Dev).setStep (some (move, true))).tmb =
        { s.dev.tmb with step := some (move, true), stepReg := v, deferred := false } := rfl
    have hrise := hset.rising hinv.regs
    have hraised : (({ s.dev with bus := b, tmb.stepReg := v, tmb.deferred := false } : Dev).setStep (some (move, true))).raised = s.dev.raised := rfl
    generalize ({ s.dev with bus := b, tmb.stepReg := v, tmb.deferred := false } : Dev).setStep (some (move, true)) = e at *
    obtain ⟨hc, hp, ht', hr⟩ := Dev.deferStep_spec hrise (by rw [htmb])
    rw [hev, hraised] at hr
    refine ⟨_, hrun hdo hr (hset.trans hc), hp, ht'.trans ?_, hr⟩
    rw [htmb]
  · rw [href, hyes, if_pos rfl] at hdo
    obtain ⟨hc, hrd, hr⟩ := Dev.jumpRefused_spec (d := { s.dev with bus := b, tmb.stepReg := v }) hinv.regs (-move)
    have hset : ({ s.dev with bus := b } : Dev).ChangesOnly { s.dev with bus := b, tmb.stepReg := v } [.tmb, .raised] [R.TB_STATE.addr 0] := .setTmb .keep (by decide)
    exact ⟨_, hrun hdo hr (hset.trans (hc.mono (by simp) fun _ => id)), hc.parts .tmb (by decide), hrd, hr⟩

/-! ### TB_CTRL (R83, R89) -/

section
variable {d : Dev} (hr : keysRising 0 d.regs = true) (val : Nat)
include hr

theorem Dev.storeTbCtrl_spec : d.ChangesOnly (d.store R.TB_CTRL 0 val mask32) [.tmb] [R.TB_CTRL.addr 0] ∧
    (d.store R.TB_CTRL 0 val mask32).rd F.TB_CTRL_MANUAL = val % 2 ∧ (d.store R.TB_CTRL 0 val mask32).rd F.TB_CTRL_MODE = d.rd F.TB_CTRL_MODE ∧
    (d.store R.TB_CTRL 0 val mask32).rd F.TB_CTRL_ARMED = d.rd F.TB_CTRL_ARMED ∧ (d.store R.TB_CTRL 0 val mask32).tmb = d.tmb :=
  ⟨.store .keep findReg_TB_CTRL List.mem_cons_self,
    (Dev.rd_store_any findReg_TB_CTRL (f := F.TB_CTRL_MANUAL) List.mem_cons_self hr rfl rfl (fieldOf_mask32 (by decide))).trans (fieldOf_zero _ _),
    Dev.rd_store_ro findReg_TB_CTRL (f := F.TB_CTRL_MODE) (by simp) hr rfl,
    Dev.rd_store_ro findReg_TB_CTRL (f := F.TB_CTRL_ARMED) (by simp) hr rfl, Dev.store_tmb ..⟩

theorem Dev.toggleResync_spec (hmode : d.rd F.TB_CTRL_MODE = 1) :
    d.ChangesOnly d.toggleResync [.tmb] [R.TB_CTRL.addr 0, R.TB_STATE.addr 0] ∧ d.toggleResync.rd F.TB_CTRL_ARMED = 1 - d.rd F.TB_CTRL_ARMED ∧
      d.toggleResync.rd F.TB_CTRL_MODE = 1 ∧ d.toggleResync.rd F.TB_CTRL_MANUAL = d.rd F.TB_CTRL_MANUAL ∧
      d.toggleResync.rd F.TB_STATE_STATE = d.rd F.TB_STATE_STATE := by
  have hguard : (!d.guarded) = false := by rw [Dev.guarded, Dev.on, hmode]; rfl
  have hset : ∀ v : Bool, d.ChangesOnly (d.wrB F.TB_CTRL_ARMED 0 v) [.tmb] [R.TB_CTRL.addr 0, R.TB_STATE.addr 0] ∧
      (d.wrB F.TB_CTRL_ARMED 0 v).rd F.TB_CTRL_ARMED = (if v then 1 else 0) ∧ (d.wrB F.TB_CTRL_ARMED 0 v).rd F.TB_CTRL_MODE = 1 ∧
      (d.wrB F.TB_CTRL_ARMED 0 v).rd F.TB_CTRL_MANUAL = d.rd F.TB_CTRL_MANUAL ∧ (d.wrB F.TB_CTRL_ARMED 0 v).rd F.TB_STATE_STATE = d.rd F.TB_STATE_STATE :=
    fun v => ⟨.wrB .keep List.mem_cons_self, Dev.rd_wrB_self _ _ _ _ (by decide) (by decide) hr,
      (Dev.rd_wr_beside (f := F.TB_CTRL_ARMED) (g := F.TB_CTRL_MODE) ⟨rfl, by decide, by decide⟩ _ _ hr).trans hmode,
      Dev.rd_wr_beside (f := F.TB_CTRL_ARMED) (g := F.TB_CTRL_MANUAL) ⟨rfl, by decide, by decide⟩ _ _ hr, Dev.rd_wr_ne _ _ _ _ _ _ (by decide)⟩
  unfold Dev.toggleResync
  rw [hguard, if_neg (by decide)]
  rcases Dev.rd_bit (d := d) (f := F.TB_CTRL_ARMED) rfl 0 with h0 | h1
  · rw [if_pos (by rw [Dev.armed, Dev.on, h0]; rfl), h0]
    exact hset true
  · rw [if_neg (by rw [Dev.armed, Dev.on, h1]; decide), h1]
    obtain ⟨hc, harm, hmd, hmn, hst⟩ := hset false
    generalize d.wrB F.TB_CTRL_ARMED 0 false = e at *
    have hdrop := (Dev.ChangesOnly.keep (d := e) (ps := [.tmb]) (rs := [R.TB_STATE.addr 0])).dropServoStep (by decide) List.mem_cons_self
    have hstate : e.dropServoStep.rd F.TB_STATE_STATE = e.rd F.TB_STATE_STATE := Dev.rd_dropServoStep (hc.rising hr) ⟨rfl, by decide, by decide⟩
    exact ⟨hc.trans (hdrop.mono (fun _ => id) (by simp)), (hdrop.rd (by decide)).trans harm, (hdrop.rd (by decide)).trans hmd, (hdrop.rd (by decide)).trans hmn,
      hstate.trans hst⟩

theorem Dev.setTimeState_spec {n : Nat} (hn : n < 4) :
    d.ChangesOnly (d.setTimeState n) [.tmb] [R.TB_STATE.addr 0, R.TB_INCR.addr 0] ∧ (d.setTimeState n).rd F.TB_STATE_STATE = n :=
  ⟨.setTimeState .keep (by decide) List.mem_cons_self n, Dev.rd_wr_lt (d := d) _ hn (by decide) hr⟩

theorem Dev.manualMode_sets (hman : d.rd F.TB_CTRL_MANUAL = 1) (hst : d.rd F.TB_STATE_STATE ≠ 0) :
    d.ChangesOnly d.manualMode [.tmb] [R.TB_STATE.addr 0, R.TB_INCR.addr 0] ∧ d.manualMode.rd F.TB_STATE_STATE = 0 ∧ d.manualMode.rd F.TB_INCR_INCR = 0x400000000 := by
  obtain ⟨hc, hz⟩ := Dev.setTimeState_spec hr (n := 0) (by decide)
  unfold Dev.manualMode
  rw [if_pos (by rw [Dev.on, hman]; rfl), if_neg (show ¬ d.timeState = 0 from hst)]
  change d.ChangesOnly ((d.setTimeState 0).setIncr incrNominal).dropServoStep _ _ ∧ ((d.setTimeState 0).setIncr incrNominal).dropServoStep.rd _ = _ ∧
    ((d.setTimeState 0).setIncr incrNominal).dropServoStep.rd _ = _
  generalize d.setTimeState 0 = e at *
  have hincr : d.ChangesOnly (e.setIncr incrNominal) [.tmb] [R.TB_STATE.addr 0, R.TB_INCR.addr 0] := hc.setIncr (by decide) _
  have hz' : (e.setIncr incrNominal).rd F.TB_STATE_STATE = 0 := (Dev.rd_wr_ne _ _ _ _ _ _ (by decide)).trans hz
  have hn : (e.setIncr incrNominal).rd F.TB_INCR_INCR = 0x400000000 := Dev.rd_setIncr (hc.rising hr) _
  generalize e.setIncr incrNominal = g at *
  have hdrop := (Dev.ChangesOnly.keep (d := g) (ps := [.tmb]) (rs := [R.TB_STATE.addr 0])).dropServoStep (by decide) List.mem_cons_self
  refine ⟨hincr.trans (hdrop.mono (fun _ => id) (by simp)), ?_, (hdrop.rd (by decide)).trans hn⟩
  exact (Dev.rd_dropServoStep (hincr.rising hr) (f := F.TB_STATE_STATE) ⟨rfl, by decide, by decide⟩).trans hz'

end

theorem Dev.manualMode_acquires {d : Dev} (hman : d.rd F.TB_CTRL_MANUAL = 0) (hst : d.rd F.TB_STATE_STATE = 0) (hptp : d.tmb.ptp = true) :
    d.manualMode = d.setTimeState 1 := by
  unfold Dev.manualMode
  rw [if_neg (by rw [Dev.on, hman]; decide), if_pos (by rw [Dev.timeState, hst, hptp]; rfl)]

theorem Dev.manualMode_keeps {d : Dev} (hman : d.rd F.TB_CTRL_MANUAL = 0) (hst : d.rd F.TB_STATE_STATE ≠ 0) : d.manualMode = d := by
  unfold Dev.manualMode
  rw [if_neg (by rw [Dev.on, hman]; decide), if_neg (by simp [Dev.timeState, hst])]

theorem Dev.wTbCtrl_eq (d : Dev) (val : Nat) : d.wTbCtrl val mask32 =
    if val.testBit 1 then (d.store R.TB_CTRL 0 val mask32).toggleResync.manualMode else (d.store R.TB_CTRL 0 val mask32).manualMode := by
  rw [Dev.wTbCtrl, if_neg (by decide)]
  dsimp only
  split <;> rfl

theorem testBit_one_of_mod {v : Nat} : v.testBit 1 = decide (2 ≤ v % 4) := by
  rw [Nat.testBit_eq_decide_div_mod_eq]
  exact decide_eq_decide.mpr (by omega)

section
variable (m : Master) (val : Nat) (s : State) (hinv : s.Inv) (ht : s.dev.Takes m R.TB_CTRL 0)
include hinv ht

theorem tbManualWrite_clause :
    (val % 4 = 1 → s.dev.rd F.TB_STATE_STATE ≠ 0 →
      ∃ t, Runs (.tbManualWrite m val) s t [.bus, .tmb] [R.TB_CTRL.addr 0, R.TB_STATE.addr 0, R.TB_INCR.addr 0] ∧
        t.dev.rd F.TB_CTRL_MANUAL = 1 ∧ t.dev.rd F.TB_STATE_STATE = 0 ∧ t.dev.rd F.TB_INCR_INCR = 0x400000000) ∧
    (val % 4 = 0 → s.dev.rd F.TB_STATE_STATE = 0 → s.dev.tmb.ptp = true →
      ∃ t, Runs (.tbManualWrite m val) s t [.bus, .tmb] [R.TB_CTRL.addr 0, R.TB_STATE.addr 0] ∧
        t.dev.rd F.TB_CTRL_MANUAL = 0 ∧ t.dev.rd F.TB_STATE_STATE = 1) := by
  obtain ⟨hstore, hman, -, -, htmb⟩ := Dev.storeTbCtrl_spec (Dev.touch_rising m hinv.regs) val
  have hstate : ((s.dev.touch m).store R.TB_CTRL 0 val mask32).rd F.TB_STATE_STATE = s.dev.rd F.TB_STATE_STATE :=
    (hstore.rd (by decide)).trans (Dev.rd_touch ..)
  have hdo := (s.dev.touch m).wTbCtrl_eq val
  rw [Dev.touch_tmb] at htmb
  have hrise := hstore.rising (Dev.touch_rising m hinv.regs)
  generalize (s.dev.touch m).store R.TB_CTRL 0 val mask32 = e at *
  refine ⟨fun hv hst => ?_, fun hv hst hptp => ?_⟩
  · have h1 : val % 2 = 1 := by omega
    rw [if_neg (by rw [testBit_one_of_mod, hv]; decide)] at hdo
    obtain ⟨hc, hz, hn⟩ := Dev.manualMode_sets hrise (hman.trans h1) (by rw [hstate]; exact hst)
    exact ⟨_, .writes (fun d => d.wTbCtrl val mask32) rfl ht hdo ((hstore.mono (fun _ => id) (by simp)).trans (hc.mono (fun _ => id) (by simp))).after_touch,
      (hc.rd (by decide)).trans (hman.trans h1), hz, hn⟩
  · have h0 : val % 2 = 0 := by omega
    rw [if_neg (by rw [testBit_one_of_mod, hv]; decide), Dev.manualMode_acquires (hman.trans h0) (hstate.trans hst) (by rw [htmb]; exact hptp)] at hdo
    have hc : e.ChangesOnly (e.setTimeState 1) [.tmb] [R.TB_STATE.addr 0] := .setTimeState .keep (by decide) List.mem_cons_self 1
    exact ⟨_, .writes (fun d => d.wTbCtrl val mask32) rfl ht hdo ((hstore.mono (fun _ => id) (by simp)).trans (hc.mono (fun _ => id) (by simp))).after_touch,
      (hc.rd (by decide)).trans (hman.trans h0), (Dev.setTimeState_spec hrise (by decide)).2⟩

theorem tbResync_clause (hmode : s.dev.rd F.TB_CTRL_MODE = 1) (hv : val % 4 = 2) (hst : s.dev.rd F.TB_STATE_STATE ≠ 0) :
    ∃ t, Runs (.tbResync m val) s t [.bus, .tmb] [R.TB_CTRL.addr 0, R.TB_STATE.addr 0] ∧
      t.dev.rd F.TB_CTRL_ARMED = 1 - s.dev.rd F.TB_CTRL_ARMED ∧ t.dev.rd F.TB_CTRL_MODE = 1 ∧
      t.dev.rd F.TB_STATE_STATE = s.dev.rd F.TB_STATE_STATE := by
  obtain ⟨hstore, hman, hmd, harm, -⟩ := Dev.storeTbCtrl_spec (Dev.touch_rising m hinv.regs) val
  have hstate : ((s.dev.touch m).store R.TB_CTRL 0 val mask32).rd F.TB_STATE_STATE = s.dev.rd F.TB_STATE_STATE :=
    (hstore.rd (by decide)).trans (Dev.rd_touch ..)
  have hdo := (s.dev.touch m).wTbCtrl_eq val
  rw [Dev.rd_touch] at hmd harm
  have hrise := hstore.rising (Dev.touch_rising m hinv.regs)
  generalize (s.dev.touch m).store R.TB_CTRL 0 val mask32 = e at *
  have h0 : val % 2 = 0 := by omega
  obtain ⟨hc, ha, hm, hn, hz⟩ := Dev.toggleResync_spec hrise (hmd.trans hmode)
  rw [if_pos (by rw [testBit_one_of_mod, hv]; decide), Dev.manualMode_keeps (hn.trans (hman.trans h0)) (by rw [hz, hstate]; exact hst)] at hdo
  exact ⟨_, .writes (fun d => d.wTbCtrl val mask32) rfl ht hdo ((hstore.mono (fun _ => id) (by simp)).trans hc).after_touch, ha.trans (by rw [harm]), hm,
    hz.trans hstate⟩

end

/-! ### A step at the opening boundary (R80, R81) -/

/-- The accumulator after a step. -/
def Dev.stepAcc (d : Dev) (move : Int) : Nat := (((d.tmb.acc : Int) + move * 2 ^ 16) % 2 ^ 96).toNat

/-- The time that a step moves, and with it every time that a block keeps. -/
def Dev.stepTimes (d : Dev) (acc : Nat) : Dev :=
  { d.shiftTimes (((acc / 2 ^ 32 : Nat) : Int) - (d.now : Int)) with
    tmb.acc := acc
    tmb.openT := acc / 2 ^ 32
    tmb.stepEnd := some ((acc / 2 ^ 32 + 2000 + 3999) / 4000 * 4000)
    tmb.unaligned := true
    web := d.web.shift (((acc / 2 ^ 32 : Nat) : Int) - (d.now : Int)) }

/-- What a step shows: GL_BEAT, the end of its waiting and its count. -/
def Dev.stepShows (d : Dev) (new : Nat) : Dev := (((d.skipLate new).wr F.GL_BEAT_BEAT 0 (new / 4000)).setStep none).bump F.TB_STATE_STEPS 0 1

/-- The rate after a step, and RESYNC disarmed. -/
def Dev.stepRate (d : Dev) (host : Bool) : Dev := (if host then d else d.setIncr (incrOf d.tmb.integ)).wrB F.TB_CTRL_ARMED 0 false

theorem Dev.applyStep_eq (d : Dev) (move : Int) (host : Bool) : d.applyStep move host =
    (((d.stepTimes (d.stepAcc move)).stepShows (d.stepAcc move / 2 ^ 32)).stepRate host).raise .secure 0x0D03
      [(8, d.now), (8, d.stepAcc move / 2 ^ 32)] := rfl

/-- The parts of the device whose times a step moves, beside the web's. -/
def timeParts : List Part := [.hl, .ins, .drm, .mot, .srv, .pace]

theorem Dev.stepTimes_changes (d : Dev) (acc : Nat) : d.ChangesOnly (d.stepTimes acc) (.tmb :: .web :: .raised :: timeParts) [] :=
  ⟨fun p hp => by cases p <;> simp_all [Part.same, timeParts, Dev.stepTimes, Dev.shiftTimes], fun _ _ _ => rfl, id⟩

theorem Dev.stepTimes_same (d : Dev) (acc : Nat) : ∀ p ∈ timeParts, p.same (d.shiftTimes (((acc / 2 ^ 32 : Nat) : Int) - (d.now : Int))) (d.stepTimes acc) := by
  intro p hp
  simp only [timeParts, List.mem_cons, List.not_mem_nil, or_false] at hp
  rcases hp with rfl | rfl | rfl | rfl | rfl | rfl <;> rfl

theorem Dev.skipLate_changes (d : Dev) (t : Nat) : d.ChangesOnly (d.skipLate t) [.web] [R.WT_CMP_STAT.addr 0] :=
  .ite (.setWeb .keep (by decide)) (.bump (.setWeb .keep (by decide)) List.mem_cons_self)

theorem Dev.skipLate_occ (d : Dev) (t : Nat) : (d.skipLate t).web.occ = d.web.occ.filter fun o => decide (t ≤ o.t) := by
  unfold Dev.skipLate
  dsimp only
  split <;> rfl

theorem Dev.stepShows_spec {d : Dev} (hr : keysRising 0 d.regs = true) {new : Nat} (hnew : new < 2 ^ 64) :
    d.ChangesOnly (d.stepShows new) [.tmb, .web] [R.GL_BEAT.addr 0, R.TB_STATE.addr 0, R.WT_CMP_STAT.addr 0] ∧
      (d.stepShows new).rd F.GL_BEAT_BEAT = new / 4000 ∧ (d.stepShows new).rd F.TB_STATE_STEP_PENDING = 0 ∧
      (d.stepShows new).rd F.TB_STATE_STEPS = (d.rd F.TB_STATE_STEPS + 1) % 256 ∧ (d.stepShows new).tmb = { d.tmb with step := none, deferred := false } ∧
      (d.stepShows new).web.occ = d.web.occ.filter fun o => decide (new ≤ o.t) := by
  have hskip := d.skipLate_changes new
  have hocc := d.skipLate_occ new
  have htmb : (d.skipLate new).tmb = d.tmb := hskip.parts .tmb (by decide)
  have hsteps := hskip.rd (f := F.TB_STATE_STEPS) (i := 0) (by decide)
  unfold Dev.stepShows
  generalize d.skipLate new = e at *
  have hre := hskip.rising hr
  have hbeat : (e.wr F.GL_BEAT_BEAT 0 (new / 4000)).rd F.GL_BEAT_BEAT = new / 4000 :=
    Dev.rd_wr_lt _ (Nat.lt_of_le_of_lt (Nat.div_le_self _ _) hnew) (by decide) hre
  have hsteps' : (e.wr F.GL_BEAT_BEAT 0 (new / 4000)).rd F.TB_STATE_STEPS = d.rd F.TB_STATE_STEPS := (Dev.rd_wr_ne _ _ _ _ _ _ (by decide)).trans hsteps
  have hrg := Dev.wr_rising e F.GL_BEAT_BEAT 0 (new / 4000) hre
  have hg : d.ChangesOnly (e.wr F.GL_BEAT_BEAT 0 (new / 4000)) [.tmb, .web] [R.GL_BEAT.addr 0, R.TB_STATE.addr 0, R.WT_CMP_STAT.addr 0] :=
    .wr (hskip.mono (by simp) (by simp)) List.mem_cons_self
  have htmb' : (e.wr F.GL_BEAT_BEAT 0 (new / 4000)).tmb = d.tmb := htmb
  have hocc' : (e.wr F.GL_BEAT_BEAT 0 (new / 4000)).web.occ = d.web.occ.filter fun o => decide (new ≤ o.t) := hocc
  generalize e.wr F.GL_BEAT_BEAT 0 (new / 4000) = g at *
  have hset : g.ChangesOnly (g.setStep none) [.tmb, .web] [R.TB_STATE.addr 0] := .setStep .keep (by decide) List.mem_cons_self none
  have hrs := hset.rising hrg
  refine ⟨.bump (hg.trans (hset.mono (fun _ => id) (by simp))) (by decide), ?_, ?_, ?_, ?_, hocc'⟩
  · exact (Dev.rd_bump_ne _ _ _ _ _ _ (by decide)).trans ((hset.rd (by decide)).trans hbeat)
  · exact (Dev.rd_wr_beside (f := F.TB_STATE_STEPS) (g := F.TB_STATE_STEP_PENDING) ⟨rfl, by decide, by decide⟩ _ _ hrs).trans (Dev.rd_setStep_none hrg)
  · refine (Dev.rd_bump_self _ _ _ _ (by decide) hrs).trans ?_
    rw [Dev.rd_setStep_beside hrg none (f := F.TB_STATE_STEPS) ⟨rfl, by decide, by decide⟩, hsteps']
    simp only [Fld.sum, F.TB_STATE_STEPS, Bool.false_eq_true, if_false]
    omega
  · rw [Dev.bump, Dev.wr_tmb, Dev.setStep_tmb, htmb', Bool.and_comm]
    rfl

theorem Dev.stepRate_spec {d : Dev} (hr : keysRising 0 d.regs = true) (host : Bool) :
    d.ChangesOnly (d.stepRate host) [] ([R.TB_CTRL.addr 0] ++ if host then [] else [R.TB_INCR.addr 0]) ∧ (d.stepRate host).rd F.TB_CTRL_ARMED = 0 ∧
      (host = false → (d.stepRate host).rd F.TB_INCR_INCR = clampNat incrMin incrMax (incrOf d.tmb.integ)) := by
  unfold Dev.stepRate
  cases host with
  | true => exact ⟨.wrB .keep (by simp [F.TB_CTRL_ARMED]), Dev.rd_wrB_self _ _ _ _ (by decide) (by decide) hr, fun h => by cases h⟩
  | false =>
    have hincr : d.ChangesOnly (d.setIncr (incrOf d.tmb.integ)) [] ([R.TB_CTRL.addr 0] ++ [R.TB_INCR.addr 0]) := .setIncr .keep (by decide) _
    exact ⟨hincr.wrB (by decide), Dev.rd_wrB_self _ _ _ _ (by decide) (by decide) (hincr.rising hr),
      fun _ => (Dev.rd_wr_ne _ _ _ _ _ _ (by decide)).trans (Dev.rd_setIncr hr _)⟩

theorem Dev.stepAcc_eq {d : Dev} {move : Int} (h0 : 0 ≤ (d.tmb.acc : Int) + move * 2 ^ 16) (hlt : ((d.tmb.acc : Int) + move * 2 ^ 16).toNat < 2 ^ 96) :
    d.stepAcc move = ((d.tmb.acc : Int) + move * 2 ^ 16).toNat := by
  rw [Dev.stepAcc, Int.emod_eq_of_lt h0]
  omega

/-- The opening boundary of an idle beat: the step is applied. -/
theorem timeStepApply_idle (move : Int) (host : Bool) (s : State) (hinv : s.Inv) (hstep : s.dev.tmb.step = some (move, host)) (hopen : s.dev.tmb.atOpen = true)
    {acc : Nat} (hacc : s.dev.stepAcc move = acc) (hlt : acc < 2 ^ 96) (hidle : s.dev.barIdle = true) :
    ∃ t, Runs .timeStepApply s t [.tmb, .web, .raised, .hl, .ins, .drm, .mot, .srv, .pace]
        ([R.GL_BEAT.addr 0, R.TB_STATE.addr 0, R.TB_CTRL.addr 0, R.WT_CMP_STAT.addr 0] ++ if host then [] else [R.TB_INCR.addr 0]) ∧
      t.dev.tmb.acc = acc ∧ t.dev.tmb.step = none ∧ t.dev.tmb.unaligned = true ∧
      t.dev.rd F.GL_BEAT_BEAT = acc / 2 ^ 32 / 4000 ∧ t.dev.rd F.TB_STATE_STEP_PENDING = 0 ∧
      t.dev.rd F.TB_STATE_STEPS = (s.dev.rd F.TB_STATE_STEPS + 1) % 256 ∧ t.dev.rd F.TB_CTRL_ARMED = 0 ∧
      (host = false → t.dev.rd F.TB_INCR_INCR = clampNat incrMin incrMax (incrOf s.dev.tmb.integ)) ∧
      (∀ p ∈ [Part.hl, .ins, .drm, .mot, .srv, .pace], p.same (s.dev.shiftTimes ((acc / 2 ^ 32 : Nat) - (s.dev.tmb.acc / 2 ^ 32 : Nat))) t.dev) ∧
      t.dev.web.occ = ((s.dev.web.shift ((acc / 2 ^ 32 : Nat) - (s.dev.tmb.acc / 2 ^ 32 : Nat))).occ.filter fun o => decide (acc / 2 ^ 32 ≤ o.t)) ∧
      (t.dev.raised.getLast?.map fun x => (x.code, x.payload)) = some (0x0D03, pack [(8, s.dev.tmb.acc / 2 ^ 32), (8, acc / 2 ^ 32)]) := by
  have hnow : s.dev.now = s.dev.tmb.acc / 2 ^ 32 := rfl
  have hdo : s.dev.timeStepApply = _ := (by simp [Dev.timeStepApply, hstep, hopen, hidle] : s.dev.timeStepApply = s.dev.applyStep move host).trans
    (s.dev.applyStep_eq move host)
  rw [hacc] at hdo
  have htimes := s.dev.stepTimes_changes acc
  have hsame := s.dev.stepTimes_same acc
  have htmb : (s.dev.stepTimes acc).tmb.acc = acc ∧ (s.dev.stepTimes acc).tmb.unaligned = true ∧ (s.dev.stepTimes acc).tmb.integ = s.dev.tmb.integ := ⟨rfl, rfl, rfl⟩
  have hocc : (s.dev.stepTimes acc).web = s.dev.web.shift (((acc / 2 ^ 32 : Nat) : Int) - (s.dev.now : Int)) := rfl
  have hsteps : (s.dev.stepTimes acc).rd F.TB_STATE_STEPS = s.dev.rd F.TB_STATE_STEPS := rfl
  have hold : (s.dev.stepTimes acc).raised = s.dev.raised := rfl
  generalize s.dev.stepTimes acc = a at *
  obtain ⟨hshow, hbeat, hpend, hcount, hshown, hlate⟩ := Dev.stepShows_spec (htimes.rising hinv.regs) (new := acc / 2 ^ 32) (by omega)
  generalize a.stepShows (acc / 2 ^ 32) = b at *
  obtain ⟨hrate, harm, hincr⟩ := Dev.stepRate_spec (hshow.rising (htimes.rising hinv.regs)) host
  generalize b.stepRate host = c at *
  have hout : ∀ x ∈ [R.GL_BEAT.addr 0, R.TB_STATE.addr 0], x ∉ [R.TB_CTRL.addr 0] ++ if host then [] else [R.TB_INCR.addr 0] := by
    cases host <;> decide
  have hctmb : c.tmb = b.tmb := hrate.parts .tmb (by decide)
  have hcweb : c.web = b.web := hrate.parts .web (by decide)
  have hbtmb : b.tmb = { a.tmb with step := none, deferred := false } := hshown
  have hc : s.dev.ChangesOnly c [.tmb, .web, .raised, .hl, .ins, .drm, .mot, .srv, .pace]
      ([R.GL_BEAT.addr 0, R.TB_STATE.addr 0, R.TB_CTRL.addr 0, R.WT_CMP_STAT.addr 0] ++ if host then [] else [R.TB_INCR.addr 0]) := by
    refine ((htimes.mono (fun _ => id) (by simp)).trans (hshow.mono (by simp) ?_)).trans (hrate.mono (by simp) ?_) <;>
      cases host <;> decide
  have hlast : (c.raise .secure 0x0D03 [(8, s.dev.now), (8, acc / 2 ^ 32)]).raised = s.dev.raised ++ [c.event .secure 0x0D03 [(8, s.dev.now), (8, acc / 2 ^ 32)]] := by
    rw [Dev.raise_raised, hrate.parts .raised (by decide), hshow.parts .raised (by decide), hold]
  have hsum : ∀ {f : Fld}, f.reg.addr 0 ≠ R.SYS_FAULT_STAT.addr 0 → (c.raise .secure 0x0D03 [(8, s.dev.now), (8, acc / 2 ^ 32)]).rd f = c.rd f :=
    fun h => Dev.rd_raise_ne _ _ _ _ _ _ h
  refine ⟨_, .inOrder Dev.timeStepApply rfl hdo (Dev.orderEvents_one hlast) (hc.raise (by decide) (.inl (by decide))), ?_, ?_, ?_,
    (hsum (by decide)).trans ((hrate.rd (hout _ (by decide))).trans hbeat), (hsum (by decide)).trans ((hrate.rd (hout _ (by decide))).trans hpend),
    (hsum (by decide)).trans ((hrate.rd (hout _ (by decide))).trans (hcount.trans (by rw [hsteps]))), (hsum (by decide)).trans harm,
    fun h => (hsum (by decide)).trans ((hincr h).trans (by rw [hbtmb]; exact congrArg (fun x => clampNat incrMin incrMax (incrOf x)) htmb.2.2)), fun p hp => ?_, ?_, ?_⟩
  · show (c.raise ..).tmb.acc = acc
    rw [Dev.raise_tmb, hctmb, hbtmb]
    exact htmb.1
  · show (c.raise ..).tmb.step = none
    rw [Dev.raise_tmb, hctmb, hbtmb]
  · show (c.raise ..).tmb.unaligned = true
    rw [Dev.raise_tmb, hctmb, hbtmb]
    exact htmb.2.1
  · have hout : p ∉ [Part.tmb, .web] ∧ p ∉ [Part.raised] := by
      simp only [List.mem_cons, List.not_mem_nil, or_false] at hp
      rcases hp with rfl | rfl | rfl | rfl | rfl | rfl <;> decide
    have hpost : c.ChangesOnly (c.raise .secure 0x0D03 [(8, s.dev.now), (8, acc / 2 ^ 32)]) [.raised] [] := .raise .keep (by decide) (.inl (by decide))
    exact Part.same_trans (hsame p hp) (Part.same_trans (hshow.parts p hout.1) (Part.same_trans (hrate.parts p List.not_mem_nil) (hpost.parts p hout.2)))
  · show (c.raise ..).web.occ = _
    rw [Dev.raise_web, hcweb, hlate, hocc, hnow]
  · show (c.raise ..).raised.getLast?.map _ = _
    rw [hlast, List.getLast?_append]
    rfl

/-- With the bar not idle the step is kept waiting. -/
theorem timeStepApply_waits (move : Int) (host : Bool) (s : State) (hinv : s.Inv) (hstep : s.dev.tmb.step = some (move, host)) (hopen : s.dev.tmb.atOpen = true)
    (hbusy : s.dev.barIdle = false) (hfirst : s.dev.tmb.deferred = false) :
    (host = true →
      ∃ t, Runs .timeStepApply s t [.tmb, .raised] [R.TB_STATE.addr 0] ∧ t.dev.tmb = { s.dev.tmb with deferred := true } ∧
        t.dev.rd F.TB_STATE_STEP_PENDING = 1 ∧ t.dev.raised = s.dev.raised ++ [s.dev.event .secure 0x0D04 []]) ∧
    (host = false → s.dev.rd F.TB_STATE_STATE = 2 →
      ∃ t, Runs .timeStepApply s t [.tmb, .raised] [R.TB_STATE.addr 0, R.TB_INCR.addr 0] ∧ t.dev.tmb = { s.dev.tmb with deferred := true } ∧
        t.dev.rd F.TB_STATE_STEP_PENDING = 1 ∧ t.dev.rd F.TB_INCR_INCR = (if 0 < -move then 17171279249 else 17188459118) ∧
        t.dev.raised = s.dev.raised ++ [s.dev.event .secure 0x0D04 []]) := by
  obtain ⟨hc, hpend, htmb, hraised⟩ := Dev.deferStep_spec hinv.regs hfirst
  refine ⟨fun hh => ?_, fun hh hst => ?_⟩
  · have hdo : s.dev.timeStepApply = s.dev.deferStep := by simp [Dev.timeStepApply, hstep, hopen, hbusy, hh]
    exact ⟨_, .inOrder Dev.timeStepApply rfl hdo (Dev.orderEvents_one hraised) hc, htmb, hpend, hraised⟩
  · have hdo : s.dev.timeStepApply = s.dev.deferStep.slewLimit (-move) := by simp [Dev.timeStepApply, hstep, hopen, hbusy, hh, Dev.timeState, hst]
    have hslew : s.dev.deferStep.ChangesOnly (s.dev.deferStep.slewLimit (-move)) [] [R.TB_INCR.addr 0] := .setIncr .keep List.mem_cons_self _
    have hrate : (s.dev.deferStep.slewLimit (-move)).rd F.TB_INCR_INCR = if 0 < -move then 17171279249 else 17188459118 := by
      refine (Dev.rd_setIncr (hc.rising hinv.regs) _).trans ?_
      split <;> decide
    exact ⟨_, .inOrder Dev.timeStepApply rfl hdo (Dev.orderEvents_one hraised) ((hc.mono (fun _ => id) (by simp)).trans (hslew.mono (by simp) (by simp))), htmb,
      (hslew.rd (by decide)).trans hpend, hrate, hraised⟩

/-- Settles O17: by what a write of TB_STEP or TB_CTRL leaves, and the stages of a step at the opening boundary. -/
theorem timeControl : Obligations.TimeControl := by
  unfold Obligations.TimeControl
  refine ⟨?writes, fun m val s hinv ht => tbManualWrite_clause m val s hinv ht, fun m val s hinv ht hmode hv hst => tbResync_clause m val s hinv ht hmode hv hst, ?applies⟩
  case writes =>
    intro m bytes val s v move hinv ht hman hb hold
    exact tbStepWrite_clause m bytes val s rfl hinv ht hman hb hold
  case applies =>
    intro move host s acc hinv hstep hopen
    exact ⟨fun hidle h0 hlt => timeStepApply_idle move host s hinv hstep hopen (Dev.stepAcc_eq h0 hlt) hlt hidle,
      fun hbusy hfirst => (timeStepApply_waits move host s hinv hstep hopen hbusy hfirst).1,
      fun hbusy hfirst => (timeStepApply_waits move host s hinv hstep hopen hbusy hfirst).2⟩

/-! ### Register accesses that R31 refuses -/

theorem portOf_hostOf (p : Fin 2) : portOf (hostOf p) = some p := by
  fin_cases p <;> rfl

/-- An aligned word whose block is none is refused as unmapped, wherever it lies. -/
theorem Dev.spanCheck_unmapped {d : Dev} {m : Master} {off : Nat} (h : d.regCheck m off = .unmapped) : d.spanCheck m (regSpace + off) 4 = (.unmapped, off) := by
  have hoff : regSpace + off - regSpace = off := Nat.add_sub_cancel_left _ _
  unfold Dev.spanCheck
  dsimp only
  rw [hoff]
  split
  · rfl
  · exact if_pos (.inl h)

/-- An aligned word of a block that there is passes on what check 2 or 3 says of it. -/
theorem Dev.spanCheck_mapped {d : Dev} {m : Master} {off : Nat} (h : d.regCheck m off ≠ .unmapped) (ha : off % 4 = 0) :
    d.spanCheck m (regSpace + off) 4 = (d.regCheck m off, off) := by
  have hblock : ¬ 0x14 < blockOf off := fun hb => h (by rw [Dev.regCheck, if_pos hb])
  have hlt : off < 0x20000000 := by
    by_contra hge
    exact hblock (by unfold blockOf; omega)
  have hoff : regSpace + off - regSpace = off := Nat.add_sub_cancel_left _ _
  have hspace : regSpace % 4 = 0 := by decide
  have hin : ¬ (regSpace + off < regSpace ∨ regSpace + 0x20000000 < regSpace + off + 4 ∨ ¬ (4 = 4 ∨ 4 = 8) ∨ (regSpace + off) % 4 ≠ 0) := by omega
  unfold Dev.spanCheck
  dsimp only
  rw [hoff, if_neg hin, if_neg (show ¬ (4 : Nat) = 8 by decide), if_neg (by simp [h])]
  split
  · next hw => rw [hw]
  · rfl

section
variable {d : Dev} {p : Fin 2} {off : Nat}

/-- A refused access of a host: its answer, and WORLD_VIOLATION for a failure at check 2. -/
theorem Dev.refuse_host (d : Dev) (p : Fin 2) (write : Bool) (c : RegCheck) (off : Nat) : d.refuse (hostOf p) write c off =
    let e := if write then (d.touch (hostOf p)).logAer p (if c = .world then .ca else .ur)
      else (d.touch (hostOf p)).emit (.completion (hostOf p) (if c = .world then .ca else .ur) [])
    if c = .world then e.worldViolation (regSpace + off) (0x40 + p) else e := by
  unfold Dev.refuse
  simp only [portOf_hostOf]

end

/-- An event is posted as it stands before the access is noted. -/
theorem Dev.worldViolation_raised {d e : Dev} {ps : List Part} (h : d.ChangesOnly e ps []) (hp : Part.pat ∉ ps) (hr : Part.raised ∉ ps) (a rq : Nat) :
    (e.worldViolation a rq).raised = d.raised ++ [d.event .secure 0x0310 [(5, a), (1, rq)]] := by
  rw [Dev.worldViolation, Dev.raise_raised, h.event hp (by simp), h.parts .raised hr]

theorem Dev.ChangesOnly.worldViolation {d e : Dev} {ps : List Part} {rs : List Nat} (h : d.ChangesOnly e ps rs) (hp : Part.raised ∈ ps) (a rq : Nat) :
    d.ChangesOnly (e.worldViolation a rq) ps rs := h.raise hp (.inl (by decide))

theorem Dev.ChangesOnly.logAer {d e : Dev} {ps : List Part} {rs : List Nat} (h : d.ChangesOnly e ps rs) (ho : Part.out ∈ ps) (hh : Part.hst ∈ ps) (p : Fin 2) (a : Answer) :
    d.ChangesOnly (e.logAer p a) ps rs := .setHst (.setOut h ho) hh

theorem Dev.ChangesOnly.emit {d e : Dev} {ps : List Part} {rs : List Nat} (h : d.ChangesOnly e ps rs) (ho : Part.out ∈ ps) (o : Out) :
    d.ChangesOnly (e.emit o) ps rs := .setOut h ho

section
variable (p : Fin 2) (off val : Nat) (s : State) (hh : s.dev.hears (hostOf p) = true)
include hh

theorem Dev.regStore_refused {c : RegCheck} (hspan : s.dev.spanCheck (hostOf p) (regSpace + off) 4 = (c, off)) (hslot : slotActiveWord off 4 = none)
    (hc : c = .unmapped ∨ c = .world) : s.dev.regStore (hostOf p) (regSpace + off) 4 val = s.dev.refuse (hostOf p) true c off := by
  have hoff : regSpace + off - regSpace = off := Nat.add_sub_cancel_left _ _
  have hhear : ¬ (!s.dev.hears (hostOf p)) = true := by rw [hh]; decide
  rw [Dev.regStore, if_neg hhear, hspan, hoff, hslot]
  rcases hc with rfl | rfl <;> rfl

theorem Dev.regRead_refused {c : RegCheck} (hspan : s.dev.spanCheck (hostOf p) (regSpace + off) 4 = (c, off))
    (hc : c = .unmapped ∨ c = .world) : s.dev.regRead (hostOf p) (regSpace + off) 4 = s.dev.refuse (hostOf p) false c off := by
  have hhear : ¬ (!s.dev.hears (hostOf p)) = true := by rw [hh]; decide
  rw [Dev.regRead, if_neg hhear, hspan]
  rcases hc with rfl | rfl <;> rfl

theorem registerAccess_world (ha : off % 4 = 0) (hslot : slotActiveWord off 4 = none) (hc : s.dev.regCheck (hostOf p) off = .world) :
    (∃ t, Runs (.registerWrite (hostOf p) (regSpace + off) 4 val) s t [.bus, .out, .raised, .hst] [] ∧
      t.dev.out = s.dev.out ++ [.aer p .ca] ∧
      t.dev.raised = s.dev.raised ++ [s.dev.event .secure 0x0310 [(5, regSpace + off), (1, 0x40 + p)]]) ∧
    (∃ t, Runs (.lowWordRead (hostOf p) (regSpace + off) 4) s t [.bus, .out, .raised] [] ∧
      t.dev.out = s.dev.out ++ [.completion (hostOf p) .ca []] ∧
      t.dev.raised = s.dev.raised ++ [s.dev.event .secure 0x0310 [(5, regSpace + off), (1, 0x40 + p)]]) := by
  have hspan := Dev.spanCheck_mapped (d := s.dev) (m := hostOf p) (off := off) (by rw [hc]; decide) ha
  rw [hc] at hspan
  have hwrite := (Dev.regStore_refused p off val s hh hspan hslot (.inr rfl)).trans (s.dev.refuse_host p true .world off)
  have hread := (Dev.regRead_refused p off s hh hspan (.inr rfl)).trans (s.dev.refuse_host p false .world off)
  have hlog : s.dev.ChangesOnly ((s.dev.touch (hostOf p)).logAer p .ca) [.bus, .out, .hst] [] :=
    (Dev.ChangesOnly.touch _ _ _ (by decide)).logAer (by decide) (by decide) p .ca
  have hemit : s.dev.ChangesOnly ((s.dev.touch (hostOf p)).emit (.completion (hostOf p) .ca [])) [.bus, .out] [] :=
    (Dev.ChangesOnly.touch _ _ _ (by decide)).emit (by decide) _
  have hposted := Dev.worldViolation_raised hlog (by decide) (by decide) (regSpace + off) (0x40 + p)
  have hposted' := Dev.worldViolation_raised hemit (by decide) (by decide) (regSpace + off) (0x40 + p)
  refine ⟨⟨_, .inOrder (fun d => d.regStore (hostOf p) (regSpace + off) 4 val) rfl hwrite (Dev.orderEvents_one hposted)
    ((hlog.mono (by simp) fun _ => id).worldViolation (by decide) _ _), (Dev.raise_out ..).trans ?_, hposted⟩,
    ⟨_, .act (fun d => d.regRead (hostOf p) (regSpace + off) 4) rfl hread ((hemit.mono (by simp) fun _ => id).worldViolation (by decide) _ _),
      (Dev.raise_out ..).trans ?_, hposted'⟩⟩
  · exact congrArg (· ++ _) (Dev.touch_out ..)
  · exact congrArg (· ++ _) (Dev.touch_out ..)

theorem registerAccess_unmapped (hslot : slotActiveWord off 4 = none) (hc : s.dev.regCheck (hostOf p) off = .unmapped) :
    (∃ t, Runs (.registerWrite (hostOf p) (regSpace + off) 4 val) s t [.bus, .out, .hst] [] ∧ t.dev.out = s.dev.out ++ [.aer p .ur]) ∧
    (∃ t, Runs (.lowWordRead (hostOf p) (regSpace + off) 4) s t [.bus, .out] [] ∧
      t.dev.out = s.dev.out ++ [.completion (hostOf p) .ur []]) := by
  have hspan := Dev.spanCheck_unmapped hc
  have hwrite := (Dev.regStore_refused p off val s hh hspan hslot (.inl rfl)).trans (s.dev.refuse_host p true .unmapped off)
  have hread := (Dev.regRead_refused p off s hh hspan (.inl rfl)).trans (s.dev.refuse_host p false .unmapped off)
  have hlog : s.dev.ChangesOnly ((s.dev.touch (hostOf p)).logAer p .ur) [.bus, .out, .hst] [] :=
    (Dev.ChangesOnly.touch _ _ _ (by decide)).logAer (by decide) (by decide) p .ur
  have hemit : s.dev.ChangesOnly ((s.dev.touch (hostOf p)).emit (.completion (hostOf p) .ur [])) [.bus, .out] [] :=
    (Dev.ChangesOnly.touch _ _ _ (by decide)).emit (by decide) _
  exact ⟨⟨_, .quiet (fun d => d.regStore (hostOf p) (regSpace + off) 4 val) rfl hwrite (by decide) hlog, congrArg (· ++ _) (Dev.touch_out ..)⟩,
    ⟨_, .act (fun d => d.regRead (hostOf p) (regSpace + off) 4) rfl hread hemit, congrArg (· ++ _) (Dev.touch_out ..)⟩⟩

theorem registerAccess_empty (ha : off % 4 = 0) (hslot : slotActiveWord off 4 = none)
    (hc : s.dev.regCheck (hostOf p) off = .meaningless ∨ (s.dev.regCheck (hostOf p) off = .pass ∧ findReg off regTable = none)) :
    (∃ t, Runs (.registerWrite (hostOf p) (regSpace + off) 4 val) s t [.bus] []) ∧
    (∃ t, Runs (.lowWordRead (hostOf p) (regSpace + off) 4) s t [.bus, .out] [] ∧
      t.dev.out = s.dev.out ++ [.completion (hostOf p) .ok (leBytes 4 0)]) := by
  have hoff : regSpace + off - regSpace = off := Nat.add_sub_cancel_left _ _
  have hhear : ¬ (!s.dev.hears (hostOf p)) = true := by rw [hh]; decide
  have hspan := Dev.spanCheck_mapped (d := s.dev) (m := hostOf p) (off := off) (by rcases hc with hc | ⟨hc, -⟩ <;> rw [hc] <;> decide) ha
  have htouch : s.dev.ChangesOnly (s.dev.touch (hostOf p)) [.bus] [] := .touch _ _ _ (by decide)
  have hwrite : s.dev.regStore (hostOf p) (regSpace + off) 4 val = s.dev.touch (hostOf p) := by
    rw [Dev.regStore, if_neg hhear, hspan, hoff, hslot]
    rcases hc with hc | ⟨hc, hnone⟩ <;> rw [hc]
    dsimp only
    rw [if_neg (by decide), Dev.write32_of_none hnone]
  have hword : s.dev.readWord (hostOf p) off 4 = (0, s.dev.touch (hostOf p)) := by
    rcases hc with hc | ⟨hc, hnone⟩
    · exact if_pos hc
    · rw [Dev.readWord, if_neg (by rw [hc]; decide), if_neg (by decide), Dev.read32, hnone]
  have hread : s.dev.regRead (hostOf p) (regSpace + off) 4 = (s.dev.touch (hostOf p)).emit (.completion (hostOf p) .ok (leBytes 4 0)) := by
    rw [Dev.regRead, if_neg hhear, hspan]
    rcases hc with hc | ⟨hc, -⟩ <;> rw [hc] <;> dsimp only <;> rw [hword]
  exact ⟨⟨_, .quiet (fun d => d.regStore (hostOf p) (regSpace + off) 4 val) rfl hwrite (by decide) htouch⟩,
    ⟨_, .act (fun d => d.regRead (hostOf p) (regSpace + off) 4) rfl hread ((htouch.mono (by simp) fun _ => id).emit (by decide) _),
      congrArg (· ++ _) (Dev.touch_out ..)⟩⟩

end

/-! ### BAR2 accesses and narrow writes that R31 refuses -/

theorem Dev.dramStore_world {d : Dev} {req a : Nat} {secure : Bool} {host : Option (Fin 2)} {bs : List Byte} (h : d.checkDram secure a bs.length = .world) :
    d.dramStore req secure host a bs = (.world, d.worldViolation a req) := by rw [Dev.dramStore, h]

theorem Dev.dramWrite_world {d : Dev} {req a : Nat} {secure : Bool} {host : Option (Fin 2)} {bs : List Byte} (hreset : d.sys.reset = none)
    (h : d.checkDram secure a bs.length = .world) : d.dramWrite req secure host a bs = (.world, d.worldViolation a req) := by
  rw [Dev.dramWrite, if_neg (by rw [hreset]; decide), Dev.dramStore_world h]

theorem Dev.dramWrite_unmapped {d : Dev} {req a : Nat} {secure : Bool} {host : Option (Fin 2)} {bs : List Byte} (hreset : d.sys.reset = none)
    (h : d.checkDram secure a bs.length = .unmapped) : d.dramWrite req secure host a bs = (.unmapped, d) := by
  rw [Dev.dramWrite, if_neg (by rw [hreset]; decide), Dev.dramStore, h]

section
variable (p : Fin 2) (off : Nat) (data : List Byte) (s : State) (hh : s.dev.hears (hostOf p) = true)
  (hserve : s.dev.frontHeld = false ∨ (s.dev.pat.applied = false ∧ s.dev.sys.reset = none))
include hh hserve

omit hh in
theorem bar2_served : s.dev.sys.reset = none ∧ (s.dev.pat.applied && s.dev.frontHeld) = false := by
  rcases hserve with h | ⟨hpat, hreset⟩
  · refine ⟨?_, by rw [h, Bool.and_false]⟩
    rw [Dev.frontHeld, Bool.or_eq_false_iff] at h
    exact Option.isSome_eq_false_iff.mp h.1 |> Option.isNone_iff_eq_none.mp
  · exact ⟨hreset, by rw [hpat]; rfl⟩

theorem Dev.bar2Write_serves (hin : off + data.length ≤ 2 ^ 32) : s.dev.bar2Write p off data = s.dev.serveWrite p (s.dev.bar2Addr p off) data := by
  rw [Dev.bar2Write, if_neg (by rw [hh]; decide), if_neg (by rw [inBar2, decide_eq_true hin]; decide), if_neg (by rw [(bar2_served s hserve).2]; decide)]

theorem Dev.bar2Read_serves {len : Nat} (hin : off + len ≤ 2 ^ 32) : s.dev.bar2Read p off len = s.dev.serveRead p (s.dev.bar2Addr p off) len := by
  rw [Dev.bar2Read, if_neg (by rw [hh]; decide), if_neg (by rw [inBar2, decide_eq_true hin]; decide), if_neg (by rw [(bar2_served s hserve).2]; decide)]

theorem bar2_world (hc : s.dev.checkDram (s.dev.portSecure p) (s.dev.bar2Addr p off) data.length = .world) (hin : off + data.length ≤ 2 ^ 32) :
    (∃ t, Runs (.bar2Write p off data) s t [.out, .raised, .hst] [] ∧ t.dev.out = s.dev.out ++ [.aer p .ca] ∧
      t.dev.raised = s.dev.raised ++ [s.dev.event .secure 0x0310 [(5, s.dev.bar2Addr p off), (1, 10 + p)]]) ∧
    (∃ t, Runs (.bar2Read p off data.length) s t [.out, .raised] [] ∧
      t.dev.out = s.dev.out ++ [.completion (hostOf p) .ca []] ∧
      t.dev.raised = s.dev.raised ++ [s.dev.event .secure 0x0310 [(5, s.dev.bar2Addr p off), (1, 10 + p)]]) := by
  have hreset := (bar2_served s hserve).1
  have hwrite : s.dev.bar2Write p off data = (s.dev.worldViolation (s.dev.bar2Addr p off) (10 + p)).logAer p .ca := by
    rw [Dev.bar2Write_serves p off data s hh hserve hin, Dev.serveWrite, Dev.dramWrite_world hreset hc]
  have hread : s.dev.bar2Read p off data.length = (s.dev.worldViolation (s.dev.bar2Addr p off) (10 + p)).emit (.completion (hostOf p) .ca []) := by
    rw [Dev.bar2Read_serves p off s hh hserve hin, Dev.serveRead, Dev.dramRead, hc]
  have hpost : s.dev.ChangesOnly (s.dev.worldViolation (s.dev.bar2Addr p off) (10 + p)) [.out, .raised] [] := .worldViolation .keep (by decide) _ _
  have hraised : (s.dev.worldViolation (s.dev.bar2Addr p off) (10 + p)).raised = _ := Dev.raise_raised ..
  exact ⟨⟨_, .act (fun d => d.bar2Write p off data) rfl hwrite ((hpost.mono (by simp) fun _ => id).logAer (by decide) (by decide) _ _),
      congrArg (· ++ _) (Dev.raise_out ..), hraised⟩,
    ⟨_, .act (fun d => d.bar2Read p off data.length) rfl hread (hpost.emit (by decide) _), congrArg (· ++ _) (Dev.raise_out ..), hraised⟩⟩

theorem bar2_unmapped (hc : s.dev.checkDram (s.dev.portSecure p) (s.dev.bar2Addr p off) data.length = .unmapped ∨ 2 ^ 32 < off + data.length) :
    (∃ t, Runs (.bar2Write p off data) s t [.out, .hst] [] ∧ t.dev.out = s.dev.out ++ [.aer p .ur]) ∧
    (∃ t, Runs (.bar2Read p off data.length) s t [.out] [] ∧ t.dev.out = s.dev.out ++ [.completion (hostOf p) .ur []]) := by
  have hboth : s.dev.bar2Write p off data = s.dev.logAer p .ur ∧ s.dev.bar2Read p off data.length = s.dev.emit (.completion (hostOf p) .ur []) := by
    by_cases hin : off + data.length ≤ 2 ^ 32
    · have hc' := hc.resolve_right (by omega)
      rw [Dev.bar2Write_serves p off data s hh hserve hin, Dev.bar2Read_serves p off s hh hserve hin, Dev.serveWrite, Dev.serveRead,
        Dev.dramWrite_unmapped (bar2_served s hserve).1 hc', Dev.dramRead, hc']
      exact ⟨rfl, rfl⟩
    · have hhear : ¬ (!s.dev.hears (hostOf p)) = true := by rw [hh]; decide
      have hout : (!inBar2 off data.length) = true := by rw [inBar2, decide_eq_false hin]; rfl
      exact ⟨(if_neg hhear).trans (if_pos hout), (if_neg hhear).trans (if_pos hout)⟩
  exact ⟨⟨_, .act (fun d => d.bar2Write p off data) rfl hboth.1 (.logAer .keep (by decide) (by decide) _ _), rfl⟩,
    ⟨_, .act (fun d => d.bar2Read p off data.length) rfl hboth.2 (.emit .keep (by decide) _), rfl⟩⟩

end

/-- A narrow write that its world refuses: its requester hears of it, and one event. -/
theorem dramRmw_world (rq : Fin 20) (a : Nat) (bs : List Byte) (s : State) (hne : bs ≠ []) (hreset : s.dev.sys.reset = none)
    (hc : s.dev.checkDram (s.dev.reqSecure rq a) a bs.length = .world) :
    ∃ t, Runs (.dramRmw rq a bs) s t [.out, .raised, .hst] [] ∧
      t.dev.raised = s.dev.raised ++ [s.dev.event .secure 0x0310 [(5, a), (1, rq)]] := by
  have hpost : s.dev.ChangesOnly (s.dev.worldViolation a rq) [.out, .raised, .hst] [] := .worldViolation .keep (by decide) _ _
  have hraised : (s.dev.worldViolation a rq).raised = s.dev.raised ++ [s.dev.event .secure 0x0310 [(5, a), (1, rq)]] := Dev.raise_raised ..
  have hdo : s.dev.rmw rq a bs = if rq.val = 10 then (s.dev.worldViolation a rq).logAer 0 .ca else if rq.val = 11 then (s.dev.worldViolation a rq).logAer 1 .ca
      else (s.dev.worldViolation a rq).errorTo rq := by
    rw [Dev.rmw, if_neg (by simpa using hne), Dev.dramWrite_world hreset hc]
  refine ⟨_, .act (fun d => d.rmw rq a bs) rfl hdo (.ite (.logAer hpost (by decide) (by decide) _ _) (.ite (.logAer hpost (by decide) (by decide) _ _) ?_)), ?_⟩
  · exact .ite hpost (.emit hpost (by decide) _)
  · show (if _ then _ else _ : Dev).raised = _
    split
    · exact hraised
    · split
      · exact hraised
      · unfold Dev.errorTo
        split <;> exact hraised

/-- Settles O5: by what each check of R31 answers. -/
theorem accessRefused : Obligations.AccessRefused := by
  unfold Obligations.AccessRefused
  refine ⟨fun p off val s hh ha hslot => ⟨registerAccess_world p off val s hh ha hslot, registerAccess_unmapped p off val s hh hslot,
    registerAccess_empty p off val s hh ha hslot⟩, ?bar2, dramRmw_world, fun off s h => ?internal⟩
  case bar2 =>
    intro p off data s a hh hserve
    exact ⟨bar2_world p off data s hh hserve, bar2_unmapped p off data s hh hserve⟩
  case internal =>
    have hsecure : s.dev.secureMaster .internal = true := rfl
    unfold Dev.regCheck at h
    rw [hsecure] at h
    split at h
    · cases h
    · rw [Bool.not_true, Bool.false_and, if_neg (by decide)] at h
      split at h <;> cases h

end Sys2Proof.Machine
end

section
/-!
PROOFS. Writes to DRAM, port events and the page queue (R27, R117 to R120, R284 to R294).
-/

namespace Sys2Proof.Machine

set_option Elab.async false

/-! ### What a write to DRAM leaves -/

theorem ueAddr_mem (g : Nat) : R.DM_UE_ADDR.addr (chanOf g) ∈ dramRegs := by
  have h : ∀ k : Fin 2, R.DM_UE_ADDR.addr k ∈ dramRegs := by decide
  exact h ⟨chanOf g, Nat.mod_lt _ (by decide)⟩

section
variable {d e : Dev} {ps : List Part} {rs : List Nat}

theorem Dev.ChangesOnly.count (h : d.ChangesOnly e ps rs) (hp : Part.snapD ∈ ps) (f : Fld) (i n : Nat) : d.ChangesOnly (e.count f i n) ps rs :=
  .setSnapD h hp

theorem Dev.ChangesOnly.tally (h : d.ChangesOnly e ps rs) (hp : Part.tallies ∈ ps) (t : Dest) (code key : Nat) (l : List (Nat × Nat)) (n : Nat) :
    d.ChangesOnly (e.tally t code key l n) ps rs := by
  unfold Dev.tally
  split
  all_goals exact .setTallies h hp

theorem Dev.ChangesOnly.moveGranule (h : d.ChangesOnly e ps rs) (hp : Part.drm ∈ ps) (rq g : Nat) : d.ChangesOnly (e.moveGranule rq g) ps rs :=
  .setDrm (.setDrm h hp) hp

theorem Dev.ChangesOnly.noteUe (h : d.ChangesOnly e ps rs) (hs : Part.snapD ∈ ps) (ht : Part.tallies ∈ ps) (hr : ∀ a ∈ dramRegs, a ∈ rs) (g rq : Nat)
    (host : Option (Fin 2)) : d.ChangesOnly (e.noteUe g rq host) ps rs :=
  ((((h.count hs ..).wr (hr _ (ueAddr_mem g))).wr (hr _ (ueAddr_mem g))).wr (hr _ (by decide))).tally ht ..

theorem Dev.noteUe_fetched (d : Dev) (g rq : Nat) (host : Option (Fin 2)) : (d.noteUe g rq host).drm.fetched = d.drm.fetched := by
  simp only [Dev.noteUe, Dev.tally_drm, Dev.wr_drm, Dev.count_drm]

theorem Dev.noteUe_ue (d : Dev) (g rq : Nat) (host : Option (Fin 2)) : (d.noteUe g rq host).ue = d.ue := by
  simp only [Dev.noteUe, Dev.tally_ue, Dev.wr_ue, Dev.count_ue]

/-- The granules that a requester has read and not yet taken are all another's. -/
def Dev.NoneFetched (d : Dev) (rq : Nat) : Prop := ∀ f ∈ d.drm.fetched, f.rq ≠ rq

theorem Dev.takeGranule_changes (d : Dev) (rq : Nat) (host : Option (Fin 2)) (g : Nat) :
    d.ChangesOnly (d.takeGranule rq host g).2 [.drm, .snapD, .tallies] dramRegs := by
  unfold Dev.takeGranule
  split
  · exact .setDrm .keep (by decide)
  · dsimp only
    split
    · exact (Dev.ChangesOnly.keep.moveGranule (by decide) rq g).noteUe (by decide) (by decide) (fun _ => id) ..
    · exact Dev.ChangesOnly.keep.moveGranule (by decide) rq g

/-- Without a granule read before, taking one finds no miscorrected word and keeps what others have read. -/
theorem Dev.takeGranule_none {d : Dev} {rq : Nat} (h : d.NoneFetched rq) (host : Option (Fin 2)) (g : Nat) :
    (d.takeGranule rq host g).1 = [] ∧ (d.takeGranule rq host g).2.drm.fetched = d.drm.fetched := by
  have hnone : (d.drm.fetched.find? fun f => decide (f.rq = rq ∧ f.g = g)) = none :=
    List.find?_eq_none.mpr fun f hf => by simp [h f hf]
  unfold Dev.takeGranule
  rw [hnone]
  dsimp only
  split
  · exact ⟨rfl, Dev.noteUe_fetched ..⟩
  · exact ⟨rfl, rfl⟩

theorem Dev.storeWrong_changes (ws : List Nat) (d : Dev) : d.ChangesOnly (d.storeWrong ws) [.mem, .freeCtr] [] := by
  induction ws generalizing d with
  | nil => exact .keep
  | cons w ws ih =>
    have hset : d.ChangesOnly ((d.free (2 ^ 128)).2.setBytes (16 * w) (leBytes 16 (d.free (2 ^ 128)).1)) [.mem, .freeCtr] [] :=
      .setMem (.setFreeCtr .keep (by decide)) (by decide)
    exact hset.trans (ih _)

theorem Dev.putGranule_changes (d : Dev) (a : Nat) (bs : List Byte) (g : Nat) : d.ChangesOnly (d.putGranule a bs g) [.mem, .ue] [] :=
  .setUe (.setMem .keep (by decide)) (by decide)

/-- A granule's share of a write lies within the write. -/
theorem Dev.putGranule_byte (d : Dev) {a x : Nat} {bs : List Byte} (g : Nat) (hx : x < a ∨ a + bs.length ≤ x) : (d.putGranule a bs g).byte x = d.byte x := by
  refine Dev.byte_setBytes_out d _ x _ ?_
  rw [List.length_take, List.length_drop]
  omega

/-- The device e is what a write of requester rq within the len bytes from a may leave. -/
structure Dev.Stored (d e : Dev) (rq a len : Nat) : Prop where
  changes : d.ChangesOnly e dramParts dramRegs
  fetched : d.NoneFetched rq → e.drm.fetched = d.drm.fetched
  bytes : d.NoneFetched rq → ∀ x, x < a ∨ a + len ≤ x → e.byte x = d.byte x
  ue : d.ue = [] → e.ue = []

theorem Dev.Stored.refl (d : Dev) (rq a len : Nat) : d.Stored d rq a len := ⟨.keep, fun _ => rfl, fun _ _ _ => rfl, id⟩

theorem Dev.Stored.trans {d e u : Dev} {rq a len : Nat} (h : d.Stored e rq a len) (k : e.Stored u rq a len) : d.Stored u rq a len where
  changes := h.changes.trans k.changes
  fetched hn := (k.fetched fun f hf => hn f (h.fetched hn ▸ hf)).trans (h.fetched hn)
  bytes hn x hx := (k.bytes (fun f hf => hn f (h.fetched hn ▸ hf)) x hx).trans (h.bytes hn x hx)
  ue hu := k.ue (h.ue hu)

theorem Dev.Stored.mono {d e : Dev} {rq a len b n : Nat} (h : d.Stored e rq a len) (hin : ∀ x, x < b ∨ b + n ≤ x → x < a ∨ a + len ≤ x) : d.Stored e rq b n where
  changes := h.changes
  fetched := h.fetched
  bytes hn x hx := h.bytes hn x (hin x hx)
  ue := h.ue

theorem Dev.takeGranule_stored (d : Dev) (rq : Nat) (host : Option (Fin 2)) (g a len : Nat) : d.Stored (d.takeGranule rq host g).2 rq a len where
  changes := (d.takeGranule_changes rq host g).mono (by decide) fun _ => id
  fetched hn := (Dev.takeGranule_none hn host g).2
  bytes _ x _ := by rw [Dev.byte, Dev.byte, (d.takeGranule_spec rq host g).1]
  ue hu := ((d.takeGranule_changes rq host g).parts .ue (by decide) : _ = d.ue).trans hu

theorem Dev.moveGranule_stored (d : Dev) (rq g a len : Nat) : d.Stored (d.moveGranule rq g) rq a len :=
  ⟨Dev.ChangesOnly.keep.moveGranule (by decide) rq g, fun _ => rfl, fun _ _ _ => rfl, id⟩

theorem Dev.putGranule_stored (d : Dev) (rq a : Nat) (bs : List Byte) (g : Nat) : d.Stored (d.putGranule a bs g) rq a bs.length where
  changes := (d.putGranule_changes a bs g).mono (by decide) (by simp)
  fetched _ := rfl
  bytes _ x hx := d.putGranule_byte g hx
  ue hu := by
    change d.ue.filter _ = []
    rw [hu]
    rfl

/-- A granule is fetched, moved on and stored with what came back miscorrected. -/
theorem Dev.refetched_stored (d : Dev) (rq : Nat) (host : Option (Fin 2)) (g a len : Nat) :
    d.Stored ((((d.takeGranule rq host g).2).moveGranule rq g).storeWrong (d.takeGranule rq host g).1) rq a len := by
  have htake := (d.takeGranule_stored rq host g a len).trans (Dev.moveGranule_stored _ rq g a len)
  have hwrong := Dev.storeWrong_changes (d.takeGranule rq host g).1 ((d.takeGranule rq host g).2.moveGranule rq g)
  refine ⟨htake.changes.trans (hwrong.mono (by decide) (by simp)), fun hn => ?_, fun hn => ?_, fun hu => (hwrong.parts .ue (by decide)).trans (htake.ue hu)⟩
  · exact (congrArg Dram.fetched (hwrong.parts .drm (by decide) : _ = _)).trans (htake.fetched hn)
  · rw [(Dev.takeGranule_none hn host g).1]
    exact htake.bytes hn

/-- A granule's write, and with no uncorrectable code word it is not refused. -/
theorem Dev.writeGranule_stored (d : Dev) (rq : Nat) (host : Option (Fin 2)) (a : Nat) (bs : List Byte) (g : Nat) :
    d.Stored (d.writeGranule rq host a bs g).2 rq a bs.length ∧ (d.ue = [] → (d.writeGranule rq host a bs g).1 = true) := by
  unfold Dev.writeGranule
  split
  · exact ⟨(d.moveGranule_stored rq g ..).trans (Dev.putGranule_stored ..), fun _ => rfl⟩
  · dsimp only
    split
    · exact ⟨(d.refetched_stored rq host g ..).trans (Dev.putGranule_stored ..), fun _ => rfl⟩
    · next hun =>
      have htake := d.takeGranule_stored rq host g a bs.length
      refine ⟨htake, fun hu => absurd ?_ hun⟩
      rw [Dev.uncovered, htake.ue hu]
      rfl

/-- The answer of a write after one granule more. -/
def Mem.afterGranule (r : Mem Unit) (ok : Bool) (g : Nat) : Mem Unit :=
  if ok then r else (match r with | .bad x => .bad x | _ => .bad g)

theorem Dev.dramStore_passed {d : Dev} {rq a : Nat} {secure : Bool} {host : Option (Fin 2)} {bs : List Byte} (h : d.checkDram secure a bs.length = .pass) :
    d.dramStore rq secure host a bs = (granules a bs.length).foldl (fun r g =>
      (r.1.afterGranule (r.2.writeGranule rq host a bs g).1 g, (r.2.writeGranule rq host a bs g).2)) (.ok (), d) := by
  unfold Dev.dramStore
  rw [h]
  rfl

theorem Dev.writeGranules_stored (rq : Nat) (host : Option (Fin 2)) (a : Nat) (bs : List Byte) (gs : List Nat) (r : Mem Unit × Dev) :
    let u := gs.foldl (fun r g => (r.1.afterGranule (r.2.writeGranule rq host a bs g).1 g, (r.2.writeGranule rq host a bs g).2)) r
    r.2.Stored u.2 rq a bs.length ∧ (r.2.ue = [] → u.1 = r.1) := by
  induction gs generalizing r with
  | nil => exact ⟨.refl .., fun _ => rfl⟩
  | cons g gs ih =>
    obtain ⟨hone, hok⟩ := r.2.writeGranule_stored rq host a bs g
    obtain ⟨hrest, hans⟩ := ih (r.1.afterGranule (r.2.writeGranule rq host a bs g).1 g, (r.2.writeGranule rq host a bs g).2)
    refine ⟨hone.trans hrest, fun hu => (hans (hone.ue hu)).trans ?_⟩
    rw [hok hu]
    rfl

/-- A write to DRAM; where it is allowed and nothing is uncorrectable it is not refused. -/
theorem Dev.dramStore_stored (d : Dev) (rq : Nat) (secure : Bool) (host : Option (Fin 2)) (a : Nat) (bs : List Byte) :
    d.Stored (d.dramStore rq secure host a bs).2 rq a bs.length ∧
    (d.checkDram secure a bs.length = .pass → d.ue = [] → (d.dramStore rq secure host a bs).1 = .ok ()) := by
  have hall := Dev.writeGranules_stored rq host a bs (granules a bs.length) (.ok (), d)
  cases h : d.checkDram secure a bs.length
  case pass =>
    rw [Dev.dramStore_passed h]
    exact ⟨hall.1, fun _ => hall.2⟩
  case unmapped =>
    have he : d.dramStore rq secure host a bs = (.unmapped, d) := by rw [Dev.dramStore, h]
    rw [he]
    exact ⟨.refl .., nofun⟩
  case world =>
    rw [Dev.dramStore_world h]
    have hpost := Dev.ChangesOnly.keep.worldViolation (d := d) (ps := [.raised]) (rs := []) (by decide) a rq
    exact ⟨⟨hpost.mono (by decide) (by simp), fun _ => congrArg Dram.fetched (hpost.parts .drm (by decide)), fun _ x _ => by
      rw [Dev.byte, Dev.byte, hpost.parts .mem (by decide)], (hpost.parts .ue (by decide)).trans⟩, nofun⟩

/-! ### The check of a range -/

theorem Dev.checkDram_congr {d e : Dev} (h : e.pat = d.pat) (secure : Bool) (a len : Nat) : e.checkDram secure a len = d.checkDram secure a len := by
  have hbyte : e.byteSecure = d.byteSecure := by
    funext b
    rw [Dev.byteSecure, h, Dev.byteSecure]
  rw [Dev.checkDram, Dev.capacity, h, Dev.rangeSecure, hbyte, Dev.checkDram, Dev.capacity, Dev.rangeSecure]

/-- The world of a byte is that of its 2 MiB. -/
theorem Dev.byteSecure_congr (d : Dev) {a b : Nat} (h : a / 2 ^ 21 = b / 2 ^ 21) : d.byteSecure a = d.byteSecure b := by
  have hin : ∀ r : Region, (decide (r.base * 2 ^ 21 ≤ a) && decide (a < (r.base + r.size) * 2 ^ 21)) =
      (decide (r.base * 2 ^ 21 ≤ b) && decide (b < (r.base + r.size) * 2 ^ 21)) := fun r => by
    congr 2 <;> rw [eq_iff_iff] <;> omega
  simp only [Dev.byteSecure, hin]

/-- A range is Secure when one of its bytes is. -/
theorem Dev.rangeSecure_iff (d : Dev) {a len : Nat} (hlen : 0 < len) : d.rangeSecure a len = true ↔ ∃ x, a ≤ x ∧ x < a + len ∧ d.byteSecure x = true := by
  rw [Dev.rangeSecure, List.any_eq_true]
  constructor
  · rintro ⟨k, -, hk⟩
    exact ⟨_, by omega, by omega, hk⟩
  · rintro ⟨x, hlo, hhi, hx⟩
    refine ⟨x / 2 ^ 21 - a / 2 ^ 21, List.mem_range.mpr (by omega), ?_⟩
    rwa [d.byteSecure_congr (b := x) (by omega)]

/-- A part of a range that passes passes. -/
theorem Dev.checkDram_part {d : Dev} {secure : Bool} {a len b n : Nat} (h : d.checkDram secure a len = .pass) (hlo : a ≤ b) (hhi : b + n ≤ a + len) (hn : 0 < n) :
    d.checkDram secure b n = .pass := by
  unfold Dev.checkDram at h ⊢
  split at h
  · exact absurd h (by decide)
  next hcap =>
    split at h
    · exact absurd h (by decide)
    next hworld =>
      rw [if_neg (by omega), if_neg]
      rw [Bool.and_eq_true, not_and] at hworld ⊢
      intro hs hsec
      obtain ⟨x, hx1, hx2, hx⟩ := (d.rangeSecure_iff hn).mp hsec
      exact hworld hs ((d.rangeSecure_iff (by omega)).mpr ⟨x, by omega, by omega, hx⟩)

end

/-! ### A port's link and its reset -/

/-- The registers that a port's reset writes. -/
def portResetRegs (p : Fin 2) : List Nat := [R.HST_APBASE.addr p, R.HST_EVR_BASE.addr p, R.HST_EVR_CFG.addr p,
  R.HST_EVR_HEAD.addr p, R.HST_EVR_TAIL.addr p, R.HST_EVR_STAT.addr p, R.HST_PORT_STAT.addr p]

theorem portResetRegs_nodup (p : Fin 2) : (portResetRegs p).Nodup := by
  have h : ∀ p : Fin 2, (portResetRegs p).Nodup := by decide
  exact h p

/-- An event for one port rests on the beat, the steps and that port's ring. -/
theorem Dev.event_port {d e : Dev} (q : Fin 2) (hbeat : e.beat = d.beat) (hsteps : e.steps = d.steps) (hring : e.ringOn q = d.ringOn q) (code : Nat) (l : List (Nat × Nat)) :
    e.event (.port q) code l = d.event (.port q) code l := by
  have hto : ∀ r : Fin 2, e.addressed (.port q) r = d.addressed (.port q) r := fun r => by
    by_cases hr : r = q
    · rw [Dev.addressed, Dev.addressed, hr, hring]
    · simp only [Dev.addressed, hr, decide_false, Bool.false_and]
  simp only [Dev.event, hbeat, hsteps, hto]

theorem Dev.raise_regs_quiet {code : Nat} (h : code ∉ summaryCodes) (d : Dev) (t : Dest) (l : List (Nat × Nat)) : (d.raise t code l).regs = d.regs :=
  (Dev.raise_regs ..).trans (congrArg Dev.regs (Dev.summary_of_not_mem h d (pack l)))

/-- The link of a port changes: LINK_UP shows it, and the other port hears of it. -/
theorem Dev.setPortLink_spec {d : Dev} (hr : keysRising 0 d.regs = true) (p : Fin 2) (up : Bool) :
    let e := d.setPortLink p up
    d.ChangesOnly e [.raised] [R.HST_PORT_STAT.addr p] ∧ e.rd F.HST_PORT_STAT_LINK_UP p = (if up then 1 else 0) ∧
      (∀ g : Fld, F.HST_PORT_STAT_LINK_UP.Beside g → e.rd g p = d.rd g p) ∧
      e.raised = d.raised ++ (if d.on F.HST_PORT_STAT_LINK_UP p = up then [] else [d.event (.port (1 - p)) 0x1303 [(1, p), (1, if up then 1 else 0)]]) := by
  intro e
  by_cases hon : d.on F.HST_PORT_STAT_LINK_UP p = up
  · have he : e = d := if_pos hon
    rw [he, if_pos hon, List.append_nil]
    refine ⟨.keep, ?_, fun _ _ => rfl, rfl⟩
    have hlt : d.rd F.HST_PORT_STAT_LINK_UP p < 2 := Dev.rd_lt ..
    cases up
    · exact of_not_not (of_decide_eq_false hon)
    · have h0 := of_decide_eq_true hon
      exact (by omega : d.rd F.HST_PORT_STAT_LINK_UP p = 1)
  · have he : e = (d.wrB F.HST_PORT_STAT_LINK_UP p up).raise (.port (1 - p)) 0x1303 [(1, p), (1, if up then 1 else 0)] := if_neg hon
    have hw : d.ChangesOnly (d.wrB F.HST_PORT_STAT_LINK_UP p up) [.raised] [R.HST_PORT_STAT.addr p] := .wrB .keep List.mem_cons_self
    have hregs : (e.regs : _) = (d.wrB F.HST_PORT_STAT_LINK_UP p up).regs := by
      rw [he]
      exact Dev.raise_regs_quiet (by decide) ..
    have hapart : ∀ p : Fin 2, ∀ a ∈ eventRegs, a ∉ [R.HST_PORT_STAT.addr p] := by decide
    rw [if_neg hon]
    refine ⟨he ▸ hw.raise (by decide) (.inl (by decide)), ?_, fun g hg => ?_, ?_⟩
    · rw [Dev.rd_congr _ _ hregs, Dev.rd_wrB_self _ _ _ _ (by decide) (by decide) hr]
    · rw [Dev.rd_congr _ _ hregs]
      exact Dev.rd_wr_beside hg _ _ hr
    · rw [he, Dev.raise_raised, hw.event (by decide) (hapart p)]
      rfl

/-- A port with the state of a port just reset. -/
def Dev.emptied (d : Dev) (p : Fin 2) (perst : Bool) : Dev :=
  let d := d.setPort p fun h => { perst := h.perst && !perst }
  let d := { d with drm.held := d.drm.held.filter fun r => match r with | .read q _ _ => decide (q ≠ p) | _ => true }
  let d := (d.setReg R.HST_APBASE p 0).setReg R.HST_EVR_BASE p 0 |>.setReg R.HST_EVR_CFG p (R.HST_EVR_CFG.rst p)
  let d := ((d.setReg R.HST_EVR_HEAD p (R.HST_EVR_HEAD.rst p)).setReg R.HST_EVR_TAIL p 0).setReg R.HST_EVR_STAT p 0
  let d := (d.wr F.HST_PORT_STAT_SPEED p 0).wr F.HST_PORT_STAT_WIDTH p 0
  d.wr F.HST_PORT_STAT_RESETS p ((d.rd F.HST_PORT_STAT_RESETS p + 1) % 65536)

theorem Dev.resetPort_eq (d : Dev) (p : Fin 2) (perst : Bool) :
    d.resetPort p perst = ((if d.on F.HST_SNAP_CTRL_BUSY p then d.cutCopy p 4 else d).emptied p perst).setPortLink p false := rfl

/-- Values written to registers of one index, one after another. -/
def Dev.setRegs (d : Dev) (i : Nat) (l : List (Reg × Nat)) : Dev := l.foldl (fun d x => d.setReg x.1 i x.2) d

theorem Dev.reg_setRegs_other {r : Reg} {i : Nat} (l : List (Reg × Nat)) (d : Dev) (h : ∀ x ∈ l, r.addr i ≠ x.1.addr i) :
    (d.setRegs i l).reg r i = d.reg r i := by
  induction l generalizing d with
  | nil => rfl
  | cons x l ih =>
    exact (ih (d.setReg x.1 i x.2) fun y hy => h y (List.mem_cons_of_mem _ hy)).trans (Dev.reg_setReg_ne _ _ _ _ _ _ (h x List.mem_cons_self))

theorem Dev.setRegs_rising {i : Nat} (l : List (Reg × Nat)) {d : Dev} (hr : keysRising 0 d.regs = true) : keysRising 0 (d.setRegs i l).regs = true := by
  induction l generalizing d with
  | nil => exact hr
  | cons x l ih => exact ih (Dev.setReg_rising _ _ _ _ hr)

/-- Each of several registers apart holds what was written to it. -/
theorem Dev.reg_setRegs {i : Nat} (l : List (Reg × Nat)) {d : Dev} (hr : keysRising 0 d.regs = true) (h : (l.map fun x => x.1.addr i).Nodup) :
    ∀ x ∈ l, (d.setRegs i l).reg x.1 i = x.2 % 2 ^ 64 := by
  induction l generalizing d with
  | nil => nofun
  | cons y l ih =>
    rw [List.map_cons, List.nodup_cons] at h
    intro x hx
    rcases List.mem_cons.mp hx with rfl | hx
    · exact (Dev.reg_setRegs_other l _ fun z hz he => h.1 (List.mem_map.mpr ⟨z, hz, he.symm⟩)).trans (Dev.reg_setReg_self _ _ _ _ hr)
    · exact ih (Dev.setReg_rising _ _ _ _ hr) h.2 x hx

/-- The values of a port's ring and aperture registers after its reset. -/
def portResetValues (p : Fin 2) : List (Reg × Nat) := [(R.HST_APBASE, 0), (R.HST_EVR_BASE, 0), (R.HST_EVR_CFG, R.HST_EVR_CFG.rst p),
  (R.HST_EVR_HEAD, R.HST_EVR_HEAD.rst p), (R.HST_EVR_TAIL, 0), (R.HST_EVR_STAT, 0)]

theorem portResetValues_apart (p : Fin 2) : ((portResetValues p).map fun x => x.1.addr p).Nodup ∧ ∀ x ∈ portResetValues p, x.1.addr p ≠ R.HST_PORT_STAT.addr p := by
  have h : ∀ p : Fin 2, ((portResetValues p).map fun x => x.1.addr p).Nodup ∧ ∀ x ∈ portResetValues p, x.1.addr p ≠ R.HST_PORT_STAT.addr p := by decide
  exact h p

section
variable {d : Dev} (hr : keysRising 0 d.regs = true) (hports : d.hst.ports.length = 2) (p : Fin 2) (perst : Bool)

theorem Dev.emptied_changes : d.ChangesOnly (d.emptied p perst) [.hst, .drm] (portResetRegs p) := by
  unfold Dev.emptied portResetRegs
  refine .wr (.wr (.wr (.setReg (.setReg (.setReg (.setReg (.setReg (.setReg (.setDrm (.setHst .keep ?_) ?_) ?_) ?_) ?_) ?_) ?_) ?_) ?_) ?_) ?_
  all_goals simp [F.HST_PORT_STAT_SPEED, F.HST_PORT_STAT_WIDTH, F.HST_PORT_STAT_RESETS]

include hports in
theorem Dev.emptied_port : (d.emptied p perst).port p = { perst := (d.port p).perst && !perst } :=
  Dev.port_setPort hports p fun h => { perst := h.perst && !perst }

theorem Dev.emptied_other : (d.emptied p perst).port (1 - p.val) = d.port (1 - p.val) :=
  Dev.port_setPort_other d p _

/-- The port with its state cleared and its registers written, but for those of its link. -/
def Dev.unlinked (d : Dev) (p : Fin 2) (perst : Bool) : Dev :=
  let d := d.setPort p fun h => { perst := h.perst && !perst }
  { d with drm.held := d.drm.held.filter fun r => match r with | .read q _ _ => decide (q ≠ p) | _ => true }.setRegs p (portResetValues p)

theorem Dev.emptied_eq (d : Dev) (p : Fin 2) (perst : Bool) : d.emptied p perst =
    let e := ((d.unlinked p perst).wr F.HST_PORT_STAT_SPEED p 0).wr F.HST_PORT_STAT_WIDTH p 0
    e.wr F.HST_PORT_STAT_RESETS p ((e.rd F.HST_PORT_STAT_RESETS p + 1) % 65536) := rfl

include hr in
theorem Dev.emptied_reg {x : Reg × Nat} (hx : x ∈ portResetValues p) : (d.emptied p perst).reg x.1 p = x.2 % 2 ^ 64 := by
  obtain ⟨hnodup, hstat⟩ := portResetValues_apart p
  have hne := hstat x hx
  rw [Dev.emptied_eq]
  refine (Dev.reg_setReg_ne _ _ _ _ _ _ hne).trans ((Dev.reg_setReg_ne _ _ _ _ _ _ hne).trans ((Dev.reg_setReg_ne _ _ _ _ _ _ hne).trans ?_))
  exact Dev.reg_setRegs (d := { (d.setPort p fun h => { perst := h.perst && !perst }) with drm.held := _ }) _ hr hnodup x hx

include hr in
/-- A reset counts, and leaves LINK_UP to what follows. -/
theorem Dev.emptied_stat : (d.emptied p perst).rd F.HST_PORT_STAT_RESETS p = (d.rd F.HST_PORT_STAT_RESETS p + 1) % 65536 ∧
    (d.emptied p perst).on F.HST_PORT_STAT_LINK_UP p = d.on F.HST_PORT_STAT_LINK_UP p := by
  have hreg : (d.unlinked p perst).reg R.HST_PORT_STAT p = d.reg R.HST_PORT_STAT p :=
    Dev.reg_setRegs_other _ _ fun x hx he => (portResetValues_apart p).2 x hx he.symm
  have hrd : ∀ f : Fld, f.reg = R.HST_PORT_STAT → (d.unlinked p perst).rd f p = d.rd f p := fun f hf => by rw [Dev.rd, Dev.rd, hf, hreg]
  have hrise : keysRising 0 (d.unlinked p perst).regs = true := Dev.setRegs_rising _ hr
  have hrise1 := Dev.wr_rising _ F.HST_PORT_STAT_SPEED p 0 hrise
  have hrise2 := Dev.wr_rising _ F.HST_PORT_STAT_WIDTH p 0 hrise1
  rw [Dev.emptied_eq]
  constructor
  · refine (Dev.rd_wr_lt _ (Nat.mod_lt _ (by decide)) (by decide) hrise2).trans ?_
    rw [Dev.rd_wr_beside (f := F.HST_PORT_STAT_WIDTH) (g := F.HST_PORT_STAT_RESETS) ⟨rfl, by decide, by decide⟩ _ _ hrise1,
      Dev.rd_wr_beside (f := F.HST_PORT_STAT_SPEED) (g := F.HST_PORT_STAT_RESETS) ⟨rfl, by decide, by decide⟩ _ _ hrise, hrd _ rfl]
    rfl
  · dsimp only
    rw [Dev.on, Dev.on, Dev.rd_wr_beside (f := F.HST_PORT_STAT_RESETS) (g := F.HST_PORT_STAT_LINK_UP) ⟨rfl, by decide, by decide⟩ _ _ hrise2,
      Dev.rd_wr_beside (f := F.HST_PORT_STAT_WIDTH) (g := F.HST_PORT_STAT_LINK_UP) ⟨rfl, by decide, by decide⟩ _ _ hrise1,
      Dev.rd_wr_beside (f := F.HST_PORT_STAT_SPEED) (g := F.HST_PORT_STAT_LINK_UP) ⟨rfl, by decide, by decide⟩ _ _ hrise, hrd _ rfl]

end

/-! ### A copy that is cut short -/

theorem Dev.portSecure_of_stored {d e : Dev} {rq a len : Nat} (h : d.Stored e rq a len) (p : Fin 2) : e.portSecure p = d.portSecure p :=
  Dev.portSecure_congr p (h.changes.parts .pat (by decide))

def Mem.isOk {α : Type} : Mem α → Bool
  | .ok _ => true
  | _ => false

theorem Dev.copyDram_cons (d : Dev) (p : Fin 2) (fuel a : Nat) (bs : List Byte) : d.copyDram p (fuel + 1) a bs =
    if bs.isEmpty then (0, true, d)
    else
      let n := 128 - a % 128
      let r := d.dramStore (12 + p) (d.portSecure p) (some p) a (bs.take n)
      if r.1.isOk then
        let k := r.2.copyDram p fuel (a + n) (bs.drop n)
        (k.1 + min n bs.length, k.2.1, k.2.2)
      else (0, false, r.2) := by
  rw [Dev.copyDram]
  split
  · rfl
  · dsimp only
    split
    · next h =>
      rw [h]
      rfl
    · next ans e hno h =>
      rw [h]
      cases ans
      case ok u => exact absurd rfl (hno u)
      all_goals rfl

/-- A copy writes within its words, and where it is allowed and nothing is uncorrectable all of them. -/
theorem Dev.copyDram_stored (fuel : Nat) (d : Dev) (p : Fin 2) (a : Nat) (bs : List Byte) :
    d.Stored (d.copyDram p fuel a bs).2.2 (12 + p) a bs.length ∧
    (bs.length = 0 ∨ d.checkDram (d.portSecure p) a bs.length = .pass ∧ d.ue = [] → (d.copyDram p fuel a bs).2.1 = true) := by
  induction fuel generalizing d a bs with
  | zero => exact ⟨.refl .., fun _ => rfl⟩
  | succ fuel ih =>
    rw [Dev.copyDram_cons]
    split
    · exact ⟨.refl .., fun _ => rfl⟩
    next hempty =>
      have hlen : 0 < bs.length := List.length_pos_of_ne_nil fun h => hempty (by rw [h]; rfl)
      obtain ⟨hstored, hok⟩ := d.dramStore_stored (12 + p) (d.portSecure p) (some p) a (bs.take (128 - a % 128))
      have htake : (bs.take (128 - a % 128)).length = min (128 - a % 128) bs.length := List.length_take
      have hdrop : (bs.drop (128 - a % 128)).length = bs.length - (128 - a % 128) := List.length_drop
      dsimp only
      generalize d.dramStore (12 + p) (d.portSecure p) (some p) a (bs.take (128 - a % 128)) = r at *
      have hfirst : d.Stored r.2 (12 + p) a bs.length := hstored.mono fun x _ => by omega
      split
      next hr =>
        obtain ⟨hrest, hrestok⟩ := ih r.2 (a + (128 - a % 128)) (bs.drop (128 - a % 128))
        refine ⟨hfirst.trans (hrest.mono fun x _ => by omega), fun h => hrestok ?_⟩
        obtain ⟨hpass, hue⟩ := h.resolve_left (by omega)
        rw [hdrop, Dev.checkDram_congr (hstored.changes.parts .pat (by decide)), Dev.portSecure_of_stored hstored]
        by_cases hmore : bs.length - (128 - a % 128) = 0
        · exact .inl hmore
        · exact .inr ⟨Dev.checkDram_part hpass (by omega) (by omega) (by omega), hstored.ue hue⟩
      next hr =>
        refine ⟨hfirst, fun h => absurd ?_ hr⟩
        obtain ⟨hpass, hue⟩ := h.resolve_left (by omega)
        rw [hok (Dev.checkDram_part hpass le_rfl (by omega) (by omega)) hue]
        rfl

/-- What leaves the device, without DRAM: it changes nothing but the trace. -/
theorem Dev.emitAll_changes (l : List Out) (d : Dev) : d.ChangesOnly (l.foldl (fun d o => d.emit o) d) [.out] [] :=
  .foldl l .keep fun _ _ h => h.emit (by decide) _

/-- What a copy under way leaves when it is cut short. -/
theorem Dev.copyOut_spec (d : Dev) (p : Fin 2) (j : SnapJob) (off : Nat) (bs : List Byte) :
    let r := d.copyOut p j off bs
    d.ChangesOnly r.2.2 (.out :: dramParts) dramRegs ∧ (r.2.1 = false → j.dram = true) ∧
      (j.dram = false ∨ bs.length = 0 ∨ d.checkDram (d.portSecure p) (j.dest + off) bs.length = .pass ∧ d.ue = [] → r.2.1 = true) ∧
      (d.NoneFetched (12 + p) → ∀ x, j.dram = false ∨ (x < j.dest + off ∨ j.dest + off + bs.length ≤ x) → r.2.2.byte x = d.byte x) := by
  intro r
  cases hj : j.dram
  case false =>
    have hr : r = (bs.length, true, (pcieWrites p (d.port p).maxPayload (bs.length + 1) (j.dest + off) bs).foldl (fun d o => d.emit o) d) :=
      if_neg (by rw [hj]; decide)
    have hc := Dev.emitAll_changes (pcieWrites p (d.port p).maxPayload (bs.length + 1) (j.dest + off) bs) d
    rw [hr]
    exact ⟨hc.mono (by simp) (by simp), nofun, fun _ => rfl, fun _ x _ => by rw [Dev.byte, Dev.byte, hc.parts .mem (by decide)]⟩
  case true =>
    have hr : r = d.copyDram p (bs.length / 128 + 2) (j.dest + off) bs := if_pos hj
    obtain ⟨hstored, hok⟩ := Dev.copyDram_stored (bs.length / 128 + 2) d p (j.dest + off) bs
    rw [hr]
    exact ⟨hstored.changes.mono (fun _ => List.mem_cons_of_mem _) fun _ => id, fun _ => rfl, fun h => hok (h.resolve_left (by decide)),
      fun hn x hx => hstored.bytes hn x (hx.resolve_left (by decide))⟩

/-- A copy ends: its port is free of it, and BUSY and ERR show how it ended. -/
theorem Dev.endCopy_spec {d : Dev} (hr : keysRising 0 d.regs = true) (hports : d.hst.ports.length = 2) (p : Fin 2) (err words : Nat) :
    let e := d.endCopy p err words
    d.ChangesOnly e [.hst, .raised] [R.HST_SNAP_CTRL.addr p] ∧ e.rd F.HST_SNAP_CTRL_BUSY p = 0 ∧ e.rd F.HST_SNAP_CTRL_ERR p = err % 2 ^ F.HST_SNAP_CTRL_ERR.w ∧
      e.port p = { d.port p with snap := {} } ∧ e.hst.ports.length = 2 := by
  intro e
  have hregs : e.regs = (((d.setSnap p fun _ => {}).wrB F.HST_SNAP_CTRL_BUSY p false).wr F.HST_SNAP_CTRL_ERR p err).regs := Dev.raise_regs_quiet (by decide) ..
  have hb : d.ChangesOnly ((d.setSnap p fun _ => {}).wrB F.HST_SNAP_CTRL_BUSY p false) [.hst, .raised] [R.HST_SNAP_CTRL.addr p] :=
    .wrB (.setHst .keep (by decide)) List.mem_cons_self
  have hw := hb.wr (f := F.HST_SNAP_CTRL_ERR) (i := p) (v := err) List.mem_cons_self
  have hhst : e.hst = (d.setSnap p fun _ => {}).hst := Dev.raise_hst ..
  refine ⟨hw.raise (by decide) (.inl (by decide)), ?_, ?_, ?_, ?_⟩
  · rw [Dev.rd_congr _ _ hregs, Dev.rd_wr_beside (f := F.HST_SNAP_CTRL_ERR) (g := F.HST_SNAP_CTRL_BUSY) ⟨rfl, by decide, by decide⟩ _ _ (hb.rising hr)]
    exact Dev.rd_wrB_self _ _ _ _ (by decide) (by decide) hr
  · rw [Dev.rd_congr _ _ hregs]
    exact Dev.rd_wr_self _ _ _ _ (by decide) (hb.rising hr)
  · rw [Dev.port, hhst]
    exact Dev.port_setPort hports p fun h => { h with snap := {} }
  · rw [hhst]
    exact (Dev.setPort_length ..).trans hports

theorem copyBytes_length (ws : List Nat) : (ws.flatMap fun w => leBytes 8 w).length = 8 * ws.length := by
  simp [List.length_flatMap, Nat.mul_comm]

/-- The words that a copy under way has reached when it is cut short. -/
def Dev.cutWords (d : Dev) (p : Fin 2) (j : SnapJob) : List Nat :=
  (d.copyWords j).take (if j.dram || (d.port p).busMaster then (d.free ((d.copyWords j).length + 1)).1 else 0)

theorem Dev.cutCopy_running {d : Dev} {p : Fin 2} (h : (d.port p).snap.running = true) (err : Nat) : d.cutCopy p err =
    let r := (d.free ((d.copyWords (d.port p).snap).length + 1)).2.copyOut p (d.port p).snap 64 ((d.cutWords p (d.port p).snap).flatMap fun w => leBytes 8 w)
    r.2.2.endCopy p (if r.2.1 then err else 2) (r.1 / 8) :=
  if_neg (by rw [h]; decide)

/-- A copy cut short by its port's reset. -/
theorem Dev.cutCopy_spec {d : Dev} (hr : keysRising 0 d.regs = true) (hports : d.hst.ports.length = 2) (p : Fin 2) :
    let e := d.cutCopy p 4
    let j := (d.port p).snap
    let len := 8 * (d.copyWords j).length
    d.ChangesOnly e (.hst :: .out :: dramParts) (R.HST_SNAP_CTRL.addr p :: dramRegs) ∧ e.rd F.HST_SNAP_CTRL_BUSY p = 0 ∧
      (e.rd F.HST_SNAP_CTRL_ERR p = 4 ∨ (j.dram = true ∧ e.rd F.HST_SNAP_CTRL_ERR p = 2)) ∧
      (j.running = false ∨ j.dram = false ∨ (d.checkDram (d.portSecure p) (j.dest + 64) len = .pass ∧ d.ue = []) → e.rd F.HST_SNAP_CTRL_ERR p = 4) ∧
      (d.NoneFetched (12 + p) → ∀ x, (j.running = false ∨ j.dram = false) ∨ (x < j.dest + 64 ∨ j.dest + 64 + len ≤ x) → e.byte x = d.byte x) ∧
      (e.port p).perst = (d.port p).perst ∧ e.hst.ports.length = 2 := by
  intro e j len
  cases hrun : j.running
  case false =>
    have he : e = d.endCopy p 4 0 := if_pos (by simp [show (d.port p).snap.running = false from hrun])
    obtain ⟨hc, hbusy, herr, hport, hlen⟩ := Dev.endCopy_spec hr hports p 4 0
    rw [he]
    refine ⟨hc.mono (by decide) (by simp), hbusy, .inl herr, fun _ => herr, fun _ x _ => ?_, by rw [hport], hlen⟩
    rw [Dev.byte, Dev.byte, hc.parts .mem (by decide)]
  case true =>
    have hlen : ((d.cutWords p j).flatMap fun w => leBytes 8 w).length ≤ len := by
      rw [copyBytes_length]
      exact Nat.mul_le_mul_left 8 (List.length_take_le' ..)
    have hfree : d.ChangesOnly (d.free ((d.copyWords j).length + 1)).2 (.out :: dramParts) dramRegs := .setFreeCtr .keep (by decide)
    have hcut := Dev.copyOut_spec (d.free ((d.copyWords j).length + 1)).2 p j 64 ((d.cutWords p j).flatMap fun w => leBytes 8 w)
    have he : e = _ := Dev.cutCopy_running hrun 4
    generalize (d.cutWords p j).flatMap (fun w => leBytes 8 w) = bs at *
    change e = let r := (d.free ((d.copyWords j).length + 1)).2.copyOut p j 64 bs; r.2.2.endCopy p (if r.2.1 then 4 else 2) (r.1 / 8) at he
    dsimp only at he hcut
    generalize (d.free ((d.copyWords j).length + 1)).2.copyOut p j 64 bs = r at *
    obtain ⟨hc, hbad, hok, hbytes⟩ := hcut
    have hr2 := (hfree.trans hc)
    have hports2 : r.2.2.hst.ports.length = 2 := by rw [hr2.parts .hst (by decide)]; exact hports
    obtain ⟨hend, hbusy, herr, hport, hlen2⟩ := Dev.endCopy_spec (hr2.rising hr) hports2 p (if r.2.1 then 4 else 2) (r.1 / 8)
    rw [← he] at hend hbusy herr hport hlen2
    refine ⟨(hr2.mono (fun _ => List.mem_cons_of_mem _) fun _ => List.mem_cons_of_mem _).trans (hend.mono (by decide) (by simp)), hbusy, ?_, fun h => ?_, fun hn x hx => ?_, ?_, hlen2⟩
    · rw [herr]
      cases h : r.2.1
      · exact .inr ⟨hbad h, rfl⟩
      · exact .inl rfl
    · have hgood : r.2.1 = true := by
        refine hok ((h.resolve_left (by decide)).imp_right fun hpass => ?_)
        rcases Nat.eq_zero_or_pos bs.length with hzero | hpos
        · exact .inl hzero
        · refine .inr ⟨?_, hpass.2⟩
          exact (Dev.checkDram_congr rfl ..).trans (Dev.checkDram_part hpass.1 le_rfl (Nat.add_le_add_left hlen _) hpos)
      rw [herr, hgood]
      rfl
    · have hkept : e.byte x = r.2.2.byte x := by rw [Dev.byte, Dev.byte, hend.parts .mem (by decide)]
      exact hkept.trans (hbytes hn x (hx.imp (fun h => h.resolve_left (by decide)) (by omega)))
    · rw [hport, Dev.port, hr2.parts .hst (by decide)]
      rfl

/-! ### A port's reset, link and doorbell -/

/-- What a port reset leaves, whatever it found the copy to have left. -/
theorem Dev.emptied_linkDown {d : Dev} (hr : keysRising 0 d.regs = true) (hports : d.hst.ports.length = 2) (p : Fin 2) (perst : Bool) :
    let e := (d.emptied p perst).setPortLink p false
    d.ChangesOnly e [.hst, .drm, .raised] (portResetRegs p) ∧ e.port p = { perst := (d.port p).perst && !perst } ∧ e.port (1 - p.val) = d.port (1 - p.val) ∧
      (∀ x ∈ portResetValues p, e.reg x.1 p = x.2 % 2 ^ 64) ∧ e.rd F.HST_PORT_STAT_LINK_UP p = 0 ∧
      e.rd F.HST_PORT_STAT_RESETS p = (d.rd F.HST_PORT_STAT_RESETS p + 1) % 65536 ∧
      e.raised = d.raised ++ (if d.rd F.HST_PORT_STAT_LINK_UP p = 1 then [d.event (.port (1 - p)) 0x1303 [(1, p), (1, 0)]] else []) := by
  intro e
  have hc := d.emptied_changes p perst
  obtain ⟨hcount, hup⟩ := Dev.emptied_stat hr p perst
  have hport := Dev.emptied_port hports p perst
  have hother := d.emptied_other p perst
  have hvals := fun x hx => Dev.emptied_reg (x := x) hr p perst hx
  obtain ⟨hl, hlink, hbeside, hraised⟩ := Dev.setPortLink_spec (hc.rising hr) p false
  have hhst : e.hst = (d.emptied p perst).hst := hl.parts .hst (by decide)
  have hne := fun x hx => (portResetValues_apart p).2 x hx
  have hrange : d.rd F.HST_PORT_STAT_LINK_UP p < 2 := Dev.rd_lt ..
  have hring : (d.emptied p perst).ringOn (1 - p) = d.ringOn (1 - p) := by
    have hapart : ∀ p : Fin 2, R.HST_EVR_CFG.addr (1 - p : Fin 2) ∉ portResetRegs p := by decide
    rw [Dev.ringOn, Dev.on, Dev.ringOn, Dev.on, hc.rd (hapart p)]
  have hquiet : ∀ p : Fin 2, R.GL_BEAT.addr 0 ∉ portResetRegs p ∧ R.TB_STATE.addr 0 ∉ portResetRegs p := by decide
  refine ⟨(hc.mono (by decide) fun _ => id).trans (hl.mono (by decide) (by simp [portResetRegs])), ?_, ?_, fun x hx => ?_, hlink, ?_, ?_⟩
  · rw [Dev.port, hhst]
    exact hport
  · rw [Dev.port, hhst]
    exact hother
  · rw [Dev.reg, hl.regs _ (by rw [List.mem_singleton]; exact hne x hx)]
    exact hvals x hx
  · rw [hbeside F.HST_PORT_STAT_RESETS ⟨rfl, by decide, by decide⟩, hcount]
  · rw [hraised, hup, hc.parts .raised (by decide), Dev.event_port (1 - p) (hc.rd (hquiet p).1) (hc.rd (hquiet p).2) hring, Dev.on]
    by_cases h1 : d.rd F.HST_PORT_STAT_LINK_UP p = 1
    · rw [if_pos h1, if_neg (by rw [h1]; decide)]
      rfl
    · rw [if_neg h1, if_pos (by rw [show d.rd F.HST_PORT_STAT_LINK_UP p = 0 by omega]; rfl)]

/-- The link of a port trains at a speed and a width. -/
theorem Dev.linkUp_spec {d : Dev} (hr : keysRising 0 d.regs = true) (p : Fin 2) (speed width : Nat) :
    let e := ((d.wr F.HST_PORT_STAT_SPEED p speed).wr F.HST_PORT_STAT_WIDTH p width).setPortLink p true
    d.ChangesOnly e [.raised] [R.HST_PORT_STAT.addr p] ∧ e.rd F.HST_PORT_STAT_LINK_UP p = 1 ∧ e.rd F.HST_PORT_STAT_SPEED p = speed % 8 ∧
      e.rd F.HST_PORT_STAT_WIDTH p = width % 16 ∧ e.rd F.HST_PORT_STAT_RESETS p = d.rd F.HST_PORT_STAT_RESETS p ∧
      e.raised = d.raised ++ (if d.rd F.HST_PORT_STAT_LINK_UP p = 0 then [d.event (.port (1 - p)) 0x1303 [(1, p), (1, 1)]] else []) := by
  intro e
  have hs : d.ChangesOnly (d.wr F.HST_PORT_STAT_SPEED p speed) [.raised] [R.HST_PORT_STAT.addr p] := .wr .keep List.mem_cons_self
  have hw := hs.wr (f := F.HST_PORT_STAT_WIDTH) (i := p) (v := width) List.mem_cons_self
  have hkept : ∀ g : Fld, F.HST_PORT_STAT_WIDTH.Beside g → F.HST_PORT_STAT_SPEED.Beside g →
      ((d.wr F.HST_PORT_STAT_SPEED p speed).wr F.HST_PORT_STAT_WIDTH p width).rd g p = d.rd g p := fun g h1 h2 =>
    (Dev.rd_wr_beside h1 _ _ (hs.rising hr)).trans (Dev.rd_wr_beside h2 _ _ hr)
  have hlinkUp := hkept F.HST_PORT_STAT_LINK_UP ⟨rfl, by decide, by decide⟩ ⟨rfl, by decide, by decide⟩
  have hquiet : ∀ p : Fin 2, ∀ a ∈ eventRegs, a ∉ [R.HST_PORT_STAT.addr p] := by decide
  obtain ⟨hl, hup, hbeside, hraised⟩ := Dev.setPortLink_spec (hw.rising hr) p true
  refine ⟨hw.trans hl, hup, ?_, ?_, ?_, hraised.trans ?_⟩
  · refine (hbeside F.HST_PORT_STAT_SPEED ⟨rfl, by decide, by decide⟩).trans ?_
    exact (Dev.rd_wr_beside (f := F.HST_PORT_STAT_WIDTH) (g := F.HST_PORT_STAT_SPEED) ⟨rfl, by decide, by decide⟩ _ _ (hs.rising hr)).trans (Dev.rd_wr_self _ _ _ _ (by decide) hr)
  · exact (hbeside F.HST_PORT_STAT_WIDTH ⟨rfl, by decide, by decide⟩).trans (Dev.rd_wr_self _ _ _ _ (by decide) (hs.rising hr))
  · exact (hbeside F.HST_PORT_STAT_RESETS ⟨rfl, by decide, by decide⟩).trans (hkept _ ⟨rfl, by decide, by decide⟩ ⟨rfl, by decide, by decide⟩)
  · rw [hw.event (by decide) (hquiet p), Dev.on, hlinkUp]
    by_cases h0 : d.rd F.HST_PORT_STAT_LINK_UP p = 0
    · rw [if_pos h0, if_neg (by rw [h0]; decide)]
      rfl
    · rw [if_neg h0, if_pos (decide_eq_true h0)]
      rfl

/-- Settles O7: the port's reset by what it writes one after another, the copy by the granules it stores. -/
theorem portEvents : Obligations.PortEvents := by
  unfold Obligations.PortEvents
  refine ⟨fun p perst s hinv hbusy => ?resets, ?cuts, fun p speed width s hinv => ?held, fun p speed width s hinv hreset hstep => ?comes, fun m p val s htakes hp => ?rings⟩
  case resets =>
    obtain ⟨hc, hport, hother, hvals, hlink, hcount, hraised⟩ := Dev.emptied_linkDown hinv.regs hinv.ports p perst
    have he : s.dev.resetPort p perst = (s.dev.emptied p perst).setPortLink p false := by
      rw [Dev.resetPort_eq, if_neg (by rw [Dev.on, hbusy]; decide)]
    refine ⟨_, .inOrder (fun d => d.resetPort p perst) rfl he ?_ (hc.mono (by decide) fun _ => id), ?_⟩
    · split at hraised
      · exact Dev.orderEvents_one hraised
      · exact Dev.orderEvents_none (by rw [hraised, List.append_nil])
    generalize (s.dev.emptied p perst).setPortLink p false = e at *
    have hreg : ∀ {r : Reg} {v : Nat}, (r, v) ∈ portResetValues p → e.reg r p = v % 2 ^ 64 := fun h => hvals _ h
    have hbase := hreg (r := R.HST_APBASE) (v := 0) (by simp [portResetValues])
    have hring := hreg (r := R.HST_EVR_BASE) (v := 0) (by simp [portResetValues])
    have hcfg := hreg (r := R.HST_EVR_CFG) (v := R.HST_EVR_CFG.rst p) (by simp [portResetValues])
    have hhead := hreg (r := R.HST_EVR_HEAD) (v := R.HST_EVR_HEAD.rst p) (by simp [portResetValues])
    have htail := hreg (r := R.HST_EVR_TAIL) (v := 0) (by simp [portResetValues])
    have hstat := hreg (r := R.HST_EVR_STAT) (v := 0) (by simp [portResetValues])
    have hzero : ∀ p : Fin 2, fieldOf F.HST_EVR_CFG_ENABLE.lo F.HST_EVR_CFG_ENABLE.w (R.HST_EVR_CFG.rst p % 2 ^ 64) = 0 ∧
      fieldOf F.HST_EVR_HEAD_HEAD.lo F.HST_EVR_HEAD_HEAD.w (R.HST_EVR_HEAD.rst p % 2 ^ 64) = 0 := by decide
    refine ⟨hport, hother, ?_, hring, hcfg, ?_, ?_, ?_, ?_, ?_, hlink, hcount, hraised⟩
    · exact congrArg (fieldOf _ _) hbase
    · exact (congrArg (fieldOf F.HST_EVR_CFG_ENABLE.lo F.HST_EVR_CFG_ENABLE.w) hcfg).trans (hzero p).1
    · exact (congrArg (fieldOf F.HST_EVR_HEAD_HEAD.lo F.HST_EVR_HEAD_HEAD.w) hhead).trans (hzero p).2
    · exact congrArg (fieldOf _ _) htail
    · exact congrArg (fieldOf _ _) hstat
    · exact congrArg (fieldOf _ _) hstat
  case cuts =>
    intro p perst s j len hinv hbusy
    obtain ⟨hcut, hended, herr, hgood, hbytes, hperst, hlen⟩ := Dev.cutCopy_spec hinv.regs hinv.ports p
    have he : s.dev.resetPort p perst = ((s.dev.cutCopy p 4).emptied p perst).setPortLink p false := by
      rw [Dev.resetPort_eq, if_pos (by rw [Dev.on, hbusy]; rfl)]
    generalize s.dev.cutCopy p 4 = x at *
    obtain ⟨hc, hport, -, -, hlink, -, -⟩ := Dev.emptied_linkDown (hcut.rising hinv.regs) hlen p perst
    have hapart : ∀ p : Fin 2, R.HST_SNAP_CTRL.addr p ∉ portResetRegs p := by decide
    have hall : s.dev.ChangesOnly ((x.emptied p perst).setPortLink p false) (.hst :: .out :: dramParts) (R.HST_SNAP_CTRL.addr p :: dramRegs ++ portResetRegs p) :=
      (hcut.mono (fun _ => id) fun _ => List.mem_append_left _).trans (hc.mono (by decide) fun _ => List.mem_append_right _)
    have hparts : ∀ q ∈ .hst :: .out :: dramParts, q ∈ [Part.hst, .drm, .raised, .out, .mem, .ue, .freeCtr, .snapD, .tallies] := by decide
    have hran := Runs.ordered (c := .pciePortReset p perst) (fun d => d.resetPort p perst) rfl he (by decide) hall
    generalize (x.emptied p perst).setPortLink p false = e at *
    refine ⟨_, ⟨hran.next, hran.queue, fun q hq => hran.parts q fun h => hq (hparts q h)⟩, ?_, ?_, ?_, fun h => ?_, hlink, fun hn y hy => ?_⟩
    · rw [← hperst]
      exact hport
    · exact (hc.rd (hapart p)).trans hended
    · exact herr.imp ((hc.rd (hapart p)).trans ·) (And.imp_right ((hc.rd (hapart p)).trans ·))
    · exact (hc.rd (hapart p)).trans (hgood h)
    · have hkept : e.byte y = x.byte y := by rw [Dev.byte, Dev.byte, hc.parts .mem (by decide)]
      exact hkept.trans (hbytes hn y hy)
  case held =>
    have he : s.dev.linkComesUp p speed width false = s.dev.setPort p fun h => { h with perst := false } := by
      rw [Dev.linkComesUp]
      exact if_pos (by simp)
    exact ⟨_, .act (fun d => d.linkComesUp p speed width false) rfl he (.setHst .keep (by decide)), Dev.port_setPort hinv.ports p fun h => { h with perst := false },
      Dev.port_setPort_other s.dev p _⟩
  case comes =>
    have he : s.dev.linkComesUp p speed width true = (((s.dev.setPort p fun h => { h with perst := true }).wr F.HST_PORT_STAT_SPEED p speed).wr F.HST_PORT_STAT_WIDTH p
        width).setPortLink p true := by
      rw [Dev.linkComesUp]
      exact if_neg (by rw [show (s.dev.setPort p _).inReset = false from hreset, show (s.dev.setPort p _).stepPassed 2 = true from hstep]; decide)
    have hport := Dev.port_setPort hinv.ports p fun h => { h with perst := true }
    have hother := Dev.port_setPort_other s.dev p fun h => { h with perst := true }
    have hset : s.dev.ChangesOnly (s.dev.setPort p fun h => { h with perst := true }) [.hst, .raised] [R.HST_PORT_STAT.addr p] := .setHst .keep (by decide)
    obtain ⟨hl, hup, hspeed, hwidth, hresets, hraised⟩ := Dev.linkUp_spec (d := s.dev.setPort p fun h => { h with perst := true }) hinv.regs p speed width
    have hhst := hl.parts .hst (by decide)
    refine ⟨_, .act (fun d => d.linkComesUp p speed width true) rfl he (hset.trans (hl.mono (by decide) fun _ => id)), ?_, ?_, hup, hspeed, hwidth, hresets, hraised⟩
    · exact (congrArg (fun h : Hst => at' h.ports p) hhst).trans hport
    · exact (congrArg (fun h : Hst => at' h.ports (1 - p.val)) hhst).trans hother
  case rings =>
    have hraise : (s.dev.touch m).ChangesOnly ((s.dev.touch m).wDoorbell p val) [.raised] [] := .raise .keep (by decide) (.inl (by decide))
    refine ⟨_, .writesOwn (fun d => d.wDoorbell p val) rfl htakes hp rfl hraise, ?_⟩
    have htouch := Dev.ChangesOnly.touch (ps := [.bus]) s.dev m [] (by decide)
    exact (Dev.raise_raised ..).trans (by rw [htouch.event (by decide) (by simp), htouch.parts .raised (by decide)])

/-! ### Writing part of a word -/

/-- A write under a mask takes the written bits where the mask has them. -/
theorem merge_testBit (p v m i : Nat) : (Nat.xor p (Nat.land (Nat.xor p v) m)).testBit i = if m.testBit i then v.testBit i else p.testBit i := by
  have h : (Nat.xor p (Nat.land (Nat.xor p v) m)).testBit i = (p.testBit i ^^ ((p.testBit i ^^ v.testBit i) && m.testBit i)) := by
    rw [show Nat.xor p (Nat.land (Nat.xor p v) m) = p ^^^ ((p ^^^ v) &&& m) from rfl, Nat.testBit_xor, Nat.testBit_and, Nat.testBit_xor]
  rw [h]
  cases p.testBit i <;> cases v.testBit i <;> cases m.testBit i <;> rfl

theorem merge_mask64 {p v : Nat} (hp : p < 2 ^ 64) (hv : v < 2 ^ 64) : Nat.xor p (Nat.land (Nat.xor p v) mask64) = v := by
  refine Nat.eq_of_testBit_eq fun i => ?_
  rw [merge_testBit, show mask64 = 2 ^ 64 - 1 from rfl, Nat.testBit_two_pow_sub_one]
  by_cases hi : i < 64
  · simp [hi]
  · have hle : 2 ^ 64 ≤ 2 ^ i := Nat.pow_le_pow_right (by decide) (by omega)
    simp [hi, Nat.testBit_lt_two_pow (hp.trans_le hle), Nat.testBit_lt_two_pow (hv.trans_le hle)]

theorem merge_mask32 (p v : Nat) : Nat.xor p (Nat.land (Nat.xor p v) mask32) = p / 2 ^ 32 * 2 ^ 32 + v % 2 ^ 32 := by
  refine Nat.eq_of_testBit_eq fun i => ?_
  rw [merge_testBit, show mask32 = 2 ^ 32 - 1 from rfl, Nat.testBit_two_pow_sub_one, Nat.mul_comm, Nat.testBit_two_pow_mul_add _ (Nat.mod_lt _ (by decide))]
  by_cases hi : i < 32
  · simp [-Nat.reducePow, hi]
  · simp [-Nat.reducePow, hi, Nat.testBit_div_two_pow, Nat.sub_add_cancel (not_lt.mp hi)]

theorem merge_maskHi {p : Nat} (hp : p < 2 ^ 64) (v : Nat) : Nat.xor p (Nat.land (Nat.xor p (v % 2 ^ 32 * 2 ^ 32)) maskHi) = v % 2 ^ 32 * 2 ^ 32 + p % 2 ^ 32 := by
  refine Nat.eq_of_testBit_eq fun i => ?_
  rw [merge_testBit, show maskHi = (2 ^ 32 - 1) * 2 ^ 32 from rfl, Nat.testBit_mul_two_pow, Nat.testBit_two_pow_sub_one, Nat.testBit_mul_two_pow, Nat.mul_comm,
    Nat.testBit_two_pow_mul_add _ (Nat.mod_lt _ (by decide))]
  by_cases hi : i < 32
  · simp [-Nat.reducePow, hi, show ¬ 32 ≤ i by omega]
  · by_cases hj : i - 32 < 32
    · simp [-Nat.reducePow, hi, hj, show 32 ≤ i by omega]
    · have hle : 2 ^ 64 ≤ 2 ^ i := Nat.pow_le_pow_right (by decide) (by omega)
      simp [-Nat.reducePow, hi, hj, show 32 ≤ i by omega, Nat.testBit_lt_two_pow (hp.trans_le hle)]

/-! ### Pushing a page -/

section
variable {d : Dev} {m : Master} {val mask v : Nat} (hv : Nat.xor d.cdc.push (Nat.land (Nat.xor d.cdc.push val) mask) = v)
include hv

theorem Dev.wPush_low (hm : mask / 2 ^ 32 = 0) : d.wPush m val mask = { d with cdc.push := v } := by
  unfold Dev.wPush
  dsimp only
  rw [hv, if_pos hm]

theorem Dev.wPush_queues (hm : ¬ mask / 2 ^ 32 = 0) (h : d.queued.length + d.cdc.reading.length < 64) :
    d.wPush m val mask = { d with cdc := { d.cdc with push := v, reading := d.cdc.reading ++ [(bitsOf v 39 6 * 64, portOf m)] } } := by
  unfold Dev.wPush
  dsimp only
  rw [hv, if_neg hm]
  exact if_neg (not_le.mpr h)

theorem Dev.wPush_overflows (hm : ¬ mask / 2 ^ 32 = 0) (h : 64 ≤ d.queued.length + d.cdc.reading.length) :
    d.wPush m val mask = ({ d with cdc.push := v }.wr F.CD_QSTAT_OVERFLOW 0 1).raise (toWriter (portOf m)) 0x0701 [(5, bitsOf v 39 6 * 64)] := by
  unfold Dev.wPush
  dsimp only
  rw [hv, if_neg hm]
  exact if_pos h

end

/-! ### Reading a page's descriptor -/

/-- A DRAM read changes the memory controller's state alone where no granule it reads is uncorrectable, and gives the stored bytes where none came back
miscorrected. -/
theorem Dev.takeGranule_good {d : Dev} {rq g : Nat} (host : Option (Fin 2)) (hg : d.granuleBad g = false) (hf : ∀ f ∈ d.drm.fetched, f.rq = rq → f.wrong = []) :
    (d.takeGranule rq host g).1 = [] ∧ d.ChangesOnly (d.takeGranule rq host g).2 [.drm] [] ∧
      ∀ f ∈ (d.takeGranule rq host g).2.drm.fetched, f.rq = rq → f.wrong = [] := by
  unfold Dev.takeGranule
  split
  · next f hfind =>
    have hmem := List.mem_of_find?_eq_some hfind
    have hrq : f.rq = rq := by simpa using (of_decide_eq_true (p := f.rq = rq ∧ f.g = g) (by simpa using List.find?_some hfind)).1
    exact ⟨hf f hmem hrq, .setDrm .keep (by decide), fun x hx => hf x (List.mem_of_mem_erase hx)⟩
  · dsimp only
    rw [if_neg (by rw [show (d.moveGranule rq g).granuleBad g = d.granuleBad g from rfl, hg]; decide)]
    exact ⟨rfl, Dev.ChangesOnly.keep.moveGranule (by decide) rq g, hf⟩

/-- The granules of a range, taken one after another, with what came back miscorrected. -/
def Dev.takeAll (rq : Nat) (host : Option (Fin 2)) (gs : List Nat) (r : List Nat × Dev) : List Nat × Dev :=
  gs.foldl (fun r g => (r.1 ++ (r.2.takeGranule rq host g).1, (r.2.takeGranule rq host g).2)) r

theorem Dev.takeAll_good {rq : Nat} (host : Option (Fin 2)) (gs : List Nat) (d : Dev) (hg : ∀ g ∈ gs, d.granuleBad g = false)
    (hf : ∀ f ∈ d.drm.fetched, f.rq = rq → f.wrong = []) : (Dev.takeAll rq host gs ([], d)).1 = [] ∧ d.ChangesOnly (Dev.takeAll rq host gs ([], d)).2 [.drm] [] := by
  induction gs generalizing d with
  | nil => exact ⟨rfl, .keep⟩
  | cons g gs ih =>
    obtain ⟨hwrong, hc, hf'⟩ := Dev.takeGranule_good host (hg g List.mem_cons_self) hf
    have hstep : Dev.takeAll rq host (g :: gs) ([], d) = Dev.takeAll rq host gs ([], (d.takeGranule rq host g).2) := by
      rw [Dev.takeAll, List.foldl_cons, hwrong]
      rfl
    obtain ⟨hnone, hrest⟩ := ih (d.takeGranule rq host g).2 (fun x hx => by
      rw [Dev.granuleBad, hc.parts .ue (by decide)]
      exact hg x (List.mem_cons_of_mem _ hx)) hf'
    rw [hstep]
    exact ⟨hnone, hc.trans hrest⟩

theorem Dev.takeAll_changes {rq : Nat} (host : Option (Fin 2)) (gs : List Nat) (r : List Nat × Dev) :
    r.2.ChangesOnly (Dev.takeAll rq host gs r).2 [.drm, .snapD, .tallies] dramRegs := by
  induction gs generalizing r with
  | nil => exact .keep
  | cons g gs ih => exact (r.2.takeGranule_changes rq host g).trans (ih (r.1 ++ (r.2.takeGranule rq host g).1, (r.2.takeGranule rq host g).2))

theorem Dev.bytes_congr {d e : Dev} (h : e.mem = d.mem) (a len : Nat) : e.bytes a len = d.bytes a len := by
  rw [Dev.bytes, Dev.bytes, show e.byte = d.byte from funext fun x => by rw [Dev.byte, h, Dev.byte]]

theorem Dev.find_granuleBad {d e : Dev} (h : e.ue = d.ue) (gs : List Nat) : gs.find? e.granuleBad = gs.find? d.granuleBad := by
  have hbad : e.granuleBad = d.granuleBad := by
    funext g
    rw [Dev.granuleBad, h, Dev.granuleBad]
  rw [hbad]

section
variable {d : Dev} {rq a len : Nat} {secure : Bool} (host : Option (Fin 2)) (hpass : d.checkDram secure a len = .pass)
include hpass

theorem Dev.dramRead_good (hgood : d.ReadsGood rq a len) :
    ∃ e, d.dramRead rq secure host a len = (.ok (d.bytes a len), e) ∧ d.ChangesOnly e [.drm] [] := by
  obtain ⟨hwrong, hc⟩ := Dev.takeAll_good host (granules a len) d hgood.1 hgood.2
  have hnone : (granules a len).find? (Dev.takeAll rq host (granules a len) ([], d)).2.granuleBad = none := by
    rw [Dev.find_granuleBad (hc.parts .ue (by decide)), List.find?_eq_none]
    exact fun g hg => by simp [hgood.1 g hg]
  have hbytes : (Dev.takeAll rq host (granules a len) ([], d)).2.bytes a len = d.bytes a len :=
    Dev.bytes_congr (hc.parts .mem (by decide)) a len
  refine ⟨_, ?_, hc⟩
  unfold Dev.dramRead
  rw [hpass]
  dsimp only
  split
  · next g hfind => exact absurd (hfind.symm.trans hnone) (by simp)
  · change (Mem.ok ((Dev.takeAll rq host (granules a len) ([], d)).2.misread a len (Dev.takeAll rq host (granules a len) ([], d)).1).1,
      ((Dev.takeAll rq host (granules a len) ([], d)).2.misread a len (Dev.takeAll rq host (granules a len) ([], d)).1).2) = _
    rw [hwrong, (Dev.misread_spec _ a len []).2.2 rfl, hbytes]

theorem Dev.dramRead_bad (hbad : (granules a len).any d.granuleBad = true) :
    ∃ g e, d.dramRead rq secure host a len = (.bad g, e) ∧ d.ChangesOnly e [.drm, .snapD, .tallies] dramRegs := by
  have hc := Dev.takeAll_changes (rq := rq) host (granules a len) ([], d)
  obtain ⟨x, hx, hxbad⟩ := List.any_eq_true.mp hbad
  unfold Dev.dramRead
  rw [hpass]
  dsimp only
  split
  · exact ⟨_, _, rfl, hc⟩
  · next hfind =>
    have hnone := (Dev.find_granuleBad (hc.parts .ue (by decide)) (granules a len)).symm.trans hfind
    exact absurd hxbad (List.find?_eq_none.mp hnone x hx)

end

theorem Dev.fetch_passed {d : Dev} {rq a len : Nat} {port : Option (Fin 2)} (h : d.checkDram (d.pushWorld port) a len = .pass) :
    d.fetch rq port a len = d.dramRead rq (d.pushWorld port) port a len := by
  rw [Dev.fetch, h]

/-- What the check of a descriptor makes of what its read answers. -/
def judgedPage (port : Option (Fin 2)) (addr : Nat) (r : Mem (List Byte) × Dev) : Dev :=
  match r with
  | (.bad _, d) => d.rejectPage port addr 4
  | (.ok b, d) =>
    if sliceNat b 0x3C 4 ≠ crc32 (b.take 0x3C) then d.rejectPage port addr 1
    else if descBad b then d.rejectPage port addr 2
    else
      let p : Page := {
        uid := d.cdc.nextUid, addr := addr, pageId := sliceNat b 0 4, lines := sliceNat b 4 4, mask := sliceNat b 8 2
        check := (sliceNat b 0xA 2).testBit 0, bands := sliceNat b 0xC 4, table := sliceNat b 0x10 8
        tag := sliceNat b 0x18 8, port := port, held := d.pat.hold }
      ({ d with cdc.pages := d.cdc.pages ++ [p], cdc.nextUid := d.cdc.nextUid + 1 }.pageDecoded p.uid).showQueue
  | (_, d) => d.rejectPage port addr 3

/-- The oldest push leaves the list of those to be read. -/
def Dev.nextReading (d : Dev) (rest : List (Nat × Option (Fin 2))) : Dev := { d with cdc.reading := rest }

theorem Dev.nextReading_changes (d : Dev) (rest : List (Nat × Option (Fin 2))) : d.ChangesOnly (d.nextReading rest) [.cdc] [] := .setCdc .keep (by decide)

theorem Dev.checkDescriptor_next {d : Dev} {addr : Nat} {port : Option (Fin 2)} {rest : List (Nat × Option (Fin 2))} (h : d.cdc.reading = (addr, port) :: rest)
    (hfront : d.frontHeld = false) : d.checkDescriptor = judgedPage port addr ((d.nextReading rest).fetch 19 port addr 64) := by
  unfold Dev.checkDescriptor
  rw [h]
  dsimp only
  rw [if_neg (by rw [show ({ d with cdc.reading := rest } : Dev).frontHeld = false from hfront]; decide)]
  rfl

theorem Runs.mono {c : Instr} {s t : State} {ps qs : List Part} {rs ts : List Nat} (h : Runs c s t ps rs) (hp : ∀ p ∈ ps, p ∈ qs) (hr : ∀ a ∈ rs, a ∈ ts) : Runs c s t qs ts :=
  ⟨h.next, h.queue, fun p hn => h.parts p fun hm => hn (hp p hm), fun a hn => h.regs a fun hm => hn (hr a hm)⟩

theorem judgedPage_refused {d : Dev} {port : Option (Fin 2)} {a len rq : Nat} (h : d.checkDram (d.pushWorld port) a len ≠ .pass) (addr : Nat) :
    judgedPage port addr (d.fetch rq port a len) = d.rejectPage port addr 3 := by
  unfold Dev.fetch
  cases hc : d.checkDram (d.pushWorld port) a len
  case pass => exact absurd hc h
  all_goals rfl

/-- A page that the check finds nothing wrong with. -/
def Dev.descPage (d : Dev) (addr : Nat) (port : Option (Fin 2)) (b : List Byte) : Page :=
  { uid := d.cdc.nextUid, addr := addr, pageId := sliceNat b 0 4, lines := sliceNat b 4 4, mask := sliceNat b 8 2
    check := (sliceNat b 0xA 2).testBit 0, bands := sliceNat b 0xC 4, table := sliceNat b 0x10 8
    tag := sliceNat b 0x18 8, port := port, held := d.pat.hold }

/-- The page joins the queue. -/
def Dev.queuePage (d : Dev) (p : Page) : Dev := { d with cdc.pages := d.cdc.pages ++ [p], cdc.nextUid := d.cdc.nextUid + 1 }

theorem judgedPage_good {d : Dev} {addr : Nat} {port : Option (Fin 2)} {b : List Byte} (hcrc : sliceNat b 0x3C 4 = crc32 (b.take 0x3C)) (hgood : descBad b = false) :
    judgedPage port addr (.ok b, d) = ((d.queuePage (d.descPage addr port b)).pageDecoded d.cdc.nextUid).showQueue := by
  unfold judgedPage
  dsimp only
  rw [if_neg (not_not.mpr hcrc), if_neg (by rw [hgood]; decide)]
  rfl

theorem Dev.ChangesOnly.rejectPage {d e : Dev} {ps : List Part} {rs : List Nat} (h : d.ChangesOnly e ps rs) (hp : Part.raised ∈ ps) (port : Option (Fin 2)) (addr cause : Nat) :
    d.ChangesOnly (e.rejectPage port addr cause) ps rs := h.raise hp (.inl (by decide))

section
variable (d : Dev) (uid : Nat)

theorem Dev.pageDecoded_changes : d.ChangesOnly (d.pageDecoded uid) [.cdc, .raised] [] := by
  unfold Dev.pageDecoded
  split
  · exact .keep
  · exact .ite .keep (.raise (.setCdc .keep (by decide)) (by decide) (.inl (by decide)))

/-- Decoding a page shows in its own record alone. -/
theorem Dev.pageDecoded_map {α : Type} {φ : Page → α} (hφ : ∀ p : Page, φ { p with decoded := true } = φ p) :
    (d.pageDecoded uid).cdc.pages.map φ = d.cdc.pages.map φ ∧ (d.pageDecoded uid).cdc.reading = d.cdc.reading := by
  unfold Dev.pageDecoded
  split
  · exact ⟨rfl, rfl⟩
  · split
    · exact ⟨rfl, rfl⟩
    · rw [Dev.raise_cdc]
      refine ⟨?_, rfl⟩
      change (d.cdc.pages.map _).map φ = _
      rw [List.map_map]
      refine List.map_congr_left fun p _ => ?_
      change φ (if p.uid = uid then { p with decoded := true } else p) = φ p
      split
      · exact hφ p
      · rfl

theorem Dev.showQueue_changes : d.ChangesOnly d.showQueue [] [R.CD_QSTAT.addr 0, R.CD_HEAD.addr 0] := by
  unfold Dev.showQueue
  dsimp only
  split
  · exact .wrB (.wr (.wr (.wr .keep (by decide)) (by decide)) (by decide)) (by decide)
  · exact .setReg (.wr .keep (by decide)) (by decide)

theorem Dev.showQueue_depth (hr : keysRising 0 d.regs = true) : d.showQueue.rd F.CD_QSTAT_DEPTH = d.queued.length % 128 := by
  have hhead : ∀ f : Fld, f.reg = R.CD_HEAD → F.CD_QSTAT_DEPTH.reg.addr 0 ≠ f.reg.addr 0 := fun f hf => by rw [hf]; decide
  have hdepth := Dev.rd_wr_self d F.CD_QSTAT_DEPTH 0 d.queued.length (by decide) hr
  unfold Dev.showQueue
  dsimp only
  split
  · rw [Dev.rd_wrB_ne _ _ _ _ _ _ (hhead _ rfl), Dev.rd_wr_ne _ _ _ _ _ _ (hhead _ rfl), Dev.rd_wr_ne _ _ _ _ _ _ (hhead _ rfl)]
    exact hdepth
  · refine (congrArg (fieldOf _ _) (Dev.reg_setReg_ne _ R.CD_HEAD R.CD_QSTAT 0 0 0 (by decide))).trans hdepth

theorem Dev.queued_length : d.queued.length = (d.cdc.pages.map Page.start).countP Option.isNone := by
  rw [Dev.queued, ← List.countP_eq_length_filter, List.countP_map]
  rfl

end

theorem sliceNat_lt_pow (b : List Byte) (off n : Nat) : sliceNat b off n < 256 ^ n :=
  lt_of_lt_of_le (ofLeBytes_lt ((b.drop off).take n)) (Nat.pow_le_pow_right (by decide : 256 > 0) (List.length_take_le n (b.drop off)))

/-- A presented strip of a page that passes has a band to decode. -/
theorem descBad_bands {b : List Byte} (h : descBad b = false) : 1 ≤ sliceNat b 0xC 4 := by
  simp only [descBad, Bool.not_eq_false', Bool.and_eq_true, decide_eq_true_eq] at h
  omega

/-- A page that presents no strip is decoded as it joins the queue, and no other page is. -/
theorem Dev.queuePage_raised {d : Dev} {addr : Nat} {port : Option (Fin 2)} {b : List Byte} (hgood : descBad b = false)
    (hfresh : ∀ p ∈ d.cdc.pages, p.uid < d.cdc.nextUid) :
    ((d.queuePage (d.descPage addr port b)).pageDecoded d.cdc.nextUid).raised =
      d.raised ++ (if sliceNat b 8 2 = 0 then [d.event (toWriter port) 0x0703 [(4, sliceNat b 0 4), (8, sliceNat b 0x18 8)]] else []) := by
  have hpage : (d.queuePage (d.descPage addr port b)).page d.cdc.nextUid = some (d.descPage addr port b) := by
    have hnone : (d.cdc.pages.find? fun p => decide (p.uid = d.cdc.nextUid)) = none :=
      List.find?_eq_none.mpr fun p hp => by simpa using (hfresh p hp).ne
    rw [Dev.page, Dev.queuePage, List.find?_append, hnone]
    simp [Dev.descPage]
  have hbands := descBad_bands hgood
  have hstrips : ((d.descPage addr port b).strips.all fun k => decide ((d.descPage addr port b).bands ≤ at' (d.descPage addr port b).complete k)) = decide (sliceNat b 8 2 = 0) := by
    by_cases hmask : sliceNat b 8 2 = 0
    · rw [decide_eq_true hmask, List.all_eq_true]
      intro k hk
      have hbit : (sliceNat b 8 2).testBit k = true := (List.mem_filter.mp hk).2
      rw [hmask, Nat.zero_testBit] at hbit
      exact absurd hbit (by decide)
    · obtain ⟨k, hk⟩ := Nat.exists_testBit_of_ne_zero hmask
      have hlt : k < 16 := by
        by_contra hge
        have h16 : sliceNat b 8 2 < 2 ^ k := ((sliceNat_lt_pow b 8 2).trans_eq (by decide : 256 ^ 2 = 2 ^ 16)).trans_le (Nat.pow_le_pow_right (by decide) (not_lt.mp hge))
        rw [Nat.testBit_lt_two_pow h16] at hk
        exact absurd hk (by decide)
      rw [decide_eq_false hmask, List.all_eq_false]
      refine ⟨k, List.mem_filter.mpr ⟨List.mem_range.mpr hlt, hk⟩, ?_⟩
      have hzero : at' (d.descPage addr port b).complete k = 0 := by
        change (List.replicate 16 0).getD k default = 0
        rw [List.getD_eq_getElem?_getD, List.getElem?_replicate_of_lt hlt]
        rfl
      rw [hzero]
      have hb : 1 ≤ (d.descPage addr port b).bands := hbands
      simp; omega
  unfold Dev.pageDecoded
  rw [hpage]
  dsimp only
  rw [hstrips]
  have hdec : (d.descPage addr port b).decoded = false := rfl
  rw [hdec]
  by_cases hmask : sliceNat b 8 2 = 0
  · rw [if_neg (by simp [hmask]), if_pos hmask]
    exact Dev.raise_raised ..
  · rw [if_pos (by simp [hmask]), if_neg hmask]
    exact (List.append_nil _).symm

/-- What a page that joins the queue leaves. -/
theorem Dev.pageJoins {d : Dev} (hr : keysRising 0 d.regs = true) (addr : Nat) (port : Option (Fin 2)) {b : List Byte} (hgood : descBad b = false) :
    let e := ((d.queuePage (d.descPage addr port b)).pageDecoded d.cdc.nextUid).showQueue
    d.ChangesOnly e [.cdc, .raised] [R.CD_QSTAT.addr 0, R.CD_HEAD.addr 0] ∧ e.cdc.reading = d.cdc.reading ∧
      (∀ {α : Type} (φ : Page → α), (∀ p : Page, φ { p with decoded := true } = φ p) → e.cdc.pages.map φ = d.cdc.pages.map φ ++ [φ (d.descPage addr port b)]) ∧
      e.rd F.CD_QSTAT_DEPTH = (d.queued.length + 1) % 128 ∧
      ((∀ p ∈ d.cdc.pages, p.uid < d.cdc.nextUid) →
        e.raised = d.raised ++ (if sliceNat b 8 2 = 0 then [d.event (toWriter port) 0x0703 [(4, sliceNat b 0 4), (8, sliceNat b 0x18 8)]] else [])) := by
  intro e
  have hqueue : d.ChangesOnly (d.queuePage (d.descPage addr port b)) [.cdc, .raised] [R.CD_QSTAT.addr 0, R.CD_HEAD.addr 0] := .setCdc .keep (by decide)
  have hdecoded := hqueue.trans ((Dev.pageDecoded_changes (d.queuePage (d.descPage addr port b)) d.cdc.nextUid).mono (by simp) (by simp))
  have hshow := Dev.showQueue_changes ((d.queuePage (d.descPage addr port b)).pageDecoded d.cdc.nextUid)
  have hcdc : e.cdc = ((d.queuePage (d.descPage addr port b)).pageDecoded d.cdc.nextUid).cdc := hshow.parts .cdc (by decide)
  have hmap : ∀ {α : Type} (φ : Page → α), (∀ p : Page, φ { p with decoded := true } = φ p) →
      ((d.queuePage (d.descPage addr port b)).pageDecoded d.cdc.nextUid).cdc.pages.map φ = d.cdc.pages.map φ ++ [φ (d.descPage addr port b)] := fun φ hφ =>
    (Dev.pageDecoded_map _ _ hφ).1.trans List.map_append
  refine ⟨hdecoded.trans (hshow.mono (by simp) fun _ => id), ?_, fun φ hφ => ?_, ?_, fun hfresh => ?_⟩
  · rw [hcdc]
    exact (Dev.pageDecoded_map _ _ (φ := Page.start) fun _ => rfl).2
  · rw [hcdc]
    exact hmap φ hφ
  · rw [Dev.showQueue_depth _ (hdecoded.rising hr), Dev.queued_length, hmap Page.start fun _ => rfl, List.countP_append, ← Dev.queued_length]
    rfl
  · exact (hshow.parts .raised (by decide)).trans (Dev.queuePage_raised hgood hfresh)

/-- The bits of a push, in 8 bytes or in the upper 4. -/
def pushValue (bytes val : Nat) : Nat := if bytes = 8 then val else val % 2 ^ 32 * 2 ^ 32

/-- The mask of a push, in 8 bytes or in the upper 4. -/
def pushMask (bytes : Nat) : Nat := if bytes = 8 then mask64 else maskHi

theorem pushMask_high (bytes : Nat) : ¬ pushMask bytes / 2 ^ 32 = 0 := by
  unfold pushMask
  split <;> decide

theorem merge_push {p val bytes : Nat} (hp : p < 2 ^ 64) (hv : val < 2 ^ 64) :
    Nat.xor p (Nat.land (Nat.xor p (pushValue bytes val)) (pushMask bytes)) = if bytes = 8 then val else val % 2 ^ 32 * 2 ^ 32 + p % 2 ^ 32 := by
  unfold pushValue pushMask
  split
  · exact merge_mask64 hp hv
  · exact merge_maskHi hp val

theorem pagePush_eq (m : Master) (bytes val : Nat) (s : State) :
    exec (.pagePush m bytes val) s = s.act fun d => d.writeTo m R.CD_PAGE_PUSH 0 fun d => d.wPush m (pushValue bytes val) (pushMask bytes) := by
  have hf : ∀ d : Dev, (if bytes = 8 then d.wPush m val mask64 else d.wPush m (val % 2 ^ 32 * 2 ^ 32) maskHi) = d.wPush m (pushValue bytes val) (pushMask bytes) := fun d => by
    unfold pushValue pushMask
    split <;> rfl
  exact congrArg (fun f : Dev → Dev => s.act fun d => d.writeTo m R.CD_PAGE_PUSH 0 f) (funext hf)

/-- Settles O25: by the merge of the written half, and what the descriptor's read answers. -/
theorem pageQueue : Obligations.PageQueue := by
  unfold Obligations.PageQueue
  constructor
  · intro m bytes val s push addr hinv htakes hbytes hval hpush
    obtain ⟨bus, htouch⟩ := s.dev.touch_bus m
    have hmerge : Nat.xor (s.dev.touch m).cdc.push (Nat.land (Nat.xor (s.dev.touch m).cdc.push (pushValue bytes val)) (pushMask bytes)) = push := by
      rw [htouch]
      exact merge_push hpush hval
    refine ⟨fun hroom => ?_, fun hfull => ?_, ?_⟩
    · refine ⟨_, .writes (fun d => d.wPush m (pushValue bytes val) (pushMask bytes)) (pagePush_eq ..) htakes
        (Dev.wPush_queues hmerge (pushMask_high bytes) (by rw [htouch]; exact hroom)) (Dev.ChangesOnly.setCdc .keep (by decide)).after_touch, ?_⟩
      rw [htouch]
      rfl
    · have hc : (s.dev.touch m).ChangesOnly ({ s.dev.touch m with cdc.push := push }.wr F.CD_QSTAT_OVERFLOW 0 1) [.cdc, .raised] [R.CD_QSTAT.addr 0] :=
        .wr (.setCdc .keep (by decide)) (by decide)
      refine ⟨_, .writes (fun d => d.wPush m (pushValue bytes val) (pushMask bytes)) (pagePush_eq ..) htakes
        (Dev.wPush_overflows hmerge (pushMask_high bytes) (by rw [htouch]; exact hfull)) (hc.raise (by decide) (.inl (by decide))).after_touch, ?_, ?_, ?_⟩
      · rw [htouch, Dev.raise_cdc]
        rfl
      · refine (Dev.rd_congr _ _ (Dev.raise_regs_quiet (by decide) ..)).trans (Dev.rd_wr_lt _ (by decide) (by decide) ?_)
        rw [htouch]
        exact hinv.regs
      · have htouched := Dev.ChangesOnly.touch (ps := [.bus]) s.dev m [] (by decide)
        exact (Dev.raise_raised ..).trans (by rw [hc.event (by decide) (by decide), htouched.event (by decide) (by simp), htouch]; rfl)
    · refine ⟨_, .writes (fun d => d.wPush m val mask32) rfl htakes (Dev.wPush_low rfl (by decide)) (Dev.ChangesOnly.setCdc .keep (by decide)).after_touch, ?_⟩
      rw [htouch]
      dsimp only
      rw [merge_mask32]
  · intro addr port rest s b hinv hreading hfront
    have hnext := Dev.checkDescriptor_next hreading hfront
    have hreads := s.dev.nextReading_changes rest
    have hrejects : ∀ {e : Dev} {ps : List Part} {rs : List Nat} (cause : Nat), (s.dev.nextReading rest).ChangesOnly e ps rs → Part.raised ∉ ps → Part.cdc ∉ ps →
        (∀ a ∈ eventRegs, a ∉ rs) → Part.pat ∉ ps → s.dev.checkDescriptor = e.rejectPage port addr cause →
        ∃ u, Runs .descriptorCheck s u (.cdc :: .raised :: ps) rs ∧ u.dev.cdc = { s.dev.cdc with reading := rest } ∧
          u.dev.raised = s.dev.raised ++ [s.dev.event (toWriter port) 0x0702 [(5, addr), (1, cause)]] := by
      intro e ps rs cause hc hraised hcdc hquiet hpat he
      have hall : s.dev.ChangesOnly e (.cdc :: .raised :: ps) rs := (hreads.mono (by simp) (by simp)).trans (hc.mono (fun _ h => List.mem_cons_of_mem _ (List.mem_cons_of_mem _ h)) fun _ => id)
      have hposted : (e.rejectPage port addr cause).raised = s.dev.raised ++ [s.dev.event (toWriter port) 0x0702 [(5, addr), (1, cause)]] := by
        refine (Dev.raise_raised ..).trans ?_
        rw [hc.event hpat hquiet, hc.parts .raised hraised]
        rfl
      refine ⟨_, .inOrder Dev.checkDescriptor rfl he (Dev.orderEvents_one hposted) (hall.rejectPage (by simp) ..), ?_, hposted⟩
      rw [Dev.rejectPage, Dev.raise_cdc, hc.parts .cdc hcdc]
      rfl
    have hjudged : ∀ {r : Mem (List Byte) × Dev}, s.dev.checkDram (s.dev.pushWorld port) addr 64 = .pass →
        (s.dev.nextReading rest).dramRead 19 ((s.dev.nextReading rest).pushWorld port) port addr 64 = r → s.dev.checkDescriptor = judgedPage port addr r := fun hcheck hread =>
      hnext.trans (congrArg (judgedPage port addr) ((Dev.fetch_passed (d := s.dev.nextReading rest) hcheck).trans hread))
    refine ⟨fun hcheck => ?_, fun hcheck hbad => ?_, fun hcheck hgood hcrc hfields => ?_, fun hcheck hgood hcrc => ?_, fun hcheck hgood hcrc hfields => ?_⟩
    · exact hrejects 3 .keep (by simp) (by simp) (by simp) (by simp) (hnext.trans (judgedPage_refused (d := s.dev.nextReading rest) hcheck addr))
    · obtain ⟨g, e, hread, hc⟩ := Dev.dramRead_bad (d := s.dev.nextReading rest) (rq := 19) port hcheck hbad
      obtain ⟨u, hrun, hcdc, hraised⟩ := hrejects 4 hc (by decide) (by decide) (by decide) (by decide)
        (hjudged hcheck hread)
      exact ⟨u, hrun.mono (by decide) fun _ => id, hcdc, hraised⟩
    · obtain ⟨e, hread, hc⟩ := Dev.dramRead_good (d := s.dev.nextReading rest) (rq := 19) port hcheck hgood
      have he : s.dev.checkDescriptor = ((e.queuePage (e.descPage addr port b)).pageDecoded e.cdc.nextUid).showQueue :=
        (hjudged hcheck hread).trans (judgedPage_good hcrc hfields)
      have hcdc : e.cdc = (s.dev.nextReading rest).cdc := hc.parts .cdc (by decide)
      have hread' : s.dev.ChangesOnly e [.cdc, .drm] [] := (hreads.mono (by simp) (by simp)).trans (hc.mono (by simp) (by simp))
      obtain ⟨hjoin, hrest, hmap, hdepth, hposted⟩ := Dev.pageJoins (hread'.rising hinv.regs) addr port hfields
      generalize ((e.queuePage (e.descPage addr port b)).pageDecoded e.cdc.nextUid).showQueue = z at *
      rw [hcdc] at hmap hrest hposted
      have hqueued : e.queued = s.dev.queued := by
        rw [Dev.queued, hcdc]
        rfl
      rw [hqueued] at hdepth
      refine ⟨_, .ordered Dev.checkDescriptor rfl he (by decide) ((hread'.mono (by simp) (by simp)).trans (hjoin.mono (by simp) fun _ => id)), hrest, ?_, ?_, hdepth, fun hfresh => ?_⟩
      · exact hmap (fun p => (p.addr, p.pageId, p.lines, p.mask, p.check)) fun _ => rfl
      · exact hmap (fun p => (p.bands, p.table, p.tag, p.port)) fun _ => rfl
      · have hlist := hposted hfresh
        rw [hread'.event (by decide) (by simp), hread'.parts .raised (by decide)] at hlist
        refine (congrArg Dev.raised ?_).trans hlist
        split at hlist
        · exact Dev.orderEvents_one hlist
        · exact Dev.orderEvents_none (by rw [hlist, List.append_nil])
    · obtain ⟨e, hread, hc⟩ := Dev.dramRead_good (d := s.dev.nextReading rest) (rq := 19) port hcheck hgood
      obtain ⟨u, hrun, hcdc, hraised⟩ := hrejects 1 hc (by decide) (by decide) (by decide) (by decide)
        ((hjudged hcheck hread).trans (if_pos hcrc))
      exact ⟨u, hrun.mono (by decide) fun _ => id, hcdc, hraised⟩
    · obtain ⟨e, hread, hc⟩ := Dev.dramRead_good (d := s.dev.nextReading rest) (rq := 19) port hcheck hgood
      obtain ⟨u, hrun, hcdc, hraised⟩ := hrejects 2 hc (by decide) (by decide) (by decide) (by decide)
        ((hjudged hcheck hread).trans ((if_neg (not_not.mpr hcrc)).trans (if_pos hfields)))
      exact ⟨u, hrun.mono (by decide) fun _ => id, hcdc, hraised⟩

end Sys2Proof.Machine
end

section
/-!
PROOFS. Decoding, encode jobs and the substitution map.
-/

namespace Sys2Proof.Machine

set_option Elab.async false

/-! ### What a write to DRAM stores where nothing is uncorrectable -/

section
variable {d : Dev} {rq a g : Nat} {bs : List Byte} (host : Option (Fin 2)) (hn : d.NoneFetched rq) (hue : d.ue = []) (hm : Memory.wf d.mem = true)

/-- A granule's share of a write holds the written bytes. -/
theorem Dev.putGranule_in {d : Dev} (hm : Memory.wf d.mem = true) {k : Nat} (hk : k < bs.length) (hg : g ≤ a + k ∧ a + k < g + 128) :
    (d.putGranule a bs g).byte (a + k) = bs[k] := by
  have hlen : ((bs.drop (max a g - a)).take (min (a + bs.length) (g + 128) - max a g)).length = min (a + bs.length) (g + 128) - max a g := by
    rw [List.length_take, List.length_drop]
    omega
  have hin := Dev.byte_setBytes_in d (max a g) ((bs.drop (max a g - a)).take (min (a + bs.length) (g + 128) - max a g)) (a + k - max a g) (by rw [hlen]; omega) hm
  rw [show max a g + (a + k - max a g) = a + k by omega] at hin
  refine hin.trans ?_
  rw [List.getElem_take, List.getElem_drop]
  congr 1
  omega

/-- Bytes beside a granule's share stay. -/
theorem Dev.putGranule_beside (d : Dev) {x : Nat} (hx : x < g ∨ g + 128 ≤ x) : (d.putGranule a bs g).byte x = d.byte x := by
  refine Dev.byte_setBytes_out d _ x _ ?_
  rw [List.length_take, List.length_drop]
  omega

include hn hue in
theorem Dev.writeGranule_put : ∃ e : Dev, (d.writeGranule rq host a bs g).2 = e.putGranule a bs g ∧ e.mem = d.mem := by
  unfold Dev.writeGranule
  split
  · exact ⟨_, rfl, rfl⟩
  · have htake := d.takeGranule_stored rq host g a bs.length
    dsimp only
    rw [if_pos (by rw [Dev.uncovered, htake.ue hue]; rfl), (Dev.takeGranule_none hn host g).1]
    exact ⟨_, rfl, (d.takeGranule_spec rq host g).1⟩

include hn hue hm in
theorem Dev.writeGranule_byte (k : Nat) (hk : k < bs.length) :
    (d.writeGranule rq host a bs g).2.byte (a + k) = if g ≤ a + k ∧ a + k < g + 128 then bs[k] else d.byte (a + k) := by
  obtain ⟨e, he, hmem⟩ := Dev.writeGranule_put (a := a) (g := g) (bs := bs) host hn hue
  rw [he]
  split
  · next hg => exact Dev.putGranule_in (by rw [hmem]; exact hm) hk hg
  · next hg =>
    rw [Dev.putGranule_beside e (by omega), Dev.byte, hmem, Dev.byte]

end

theorem mem_granules {a len x : Nat} (hlo : a ≤ x) (hhi : x < a + len) : ∃ g ∈ granules a len, g ≤ x ∧ x < g + 128 := by
  refine ⟨x / 128 * 128, ?_, by omega, by omega⟩
  rw [granules, if_neg (by omega)]
  refine List.mem_map.mpr ⟨x / 128 - a / 128, List.mem_range.mpr (by omega), ?_⟩
  congr 1
  omega

/-- The bytes of a write whose granules are stored one after another. -/
theorem Dev.writeGranules_byte {rq a : Nat} {bs : List Byte} (host : Option (Fin 2)) {k : Nat} (hk : k < bs.length) (gs : List Nat) (r : Mem Unit × Dev)
    (hn : r.2.NoneFetched rq) (hue : r.2.ue = []) (hm : Memory.wf r.2.mem = true) (hr : keysRising 0 r.2.regs = true) :
    let u := gs.foldl (fun r g => (r.1.afterGranule (r.2.writeGranule rq host a bs g).1 g, (r.2.writeGranule rq host a bs g).2)) r
    ((∃ g ∈ gs, g ≤ a + k ∧ a + k < g + 128) ∨ r.2.byte (a + k) = bs[k]) → u.2.byte (a + k) = bs[k] := by
  induction gs generalizing r with
  | nil => exact fun h => h.resolve_left nofun
  | cons g gs ih =>
    intro u h
    have hone := Dev.writeGranule_byte (a := a) (g := g) host hn hue hm k hk
    obtain ⟨hstored, -⟩ := r.2.writeGranule_stored rq host a bs g
    have hwf := r.2.writeGranule_wf rq host a bs g ⟨hm, hr⟩
    refine ih (r.1.afterGranule (r.2.writeGranule rq host a bs g).1 g, (r.2.writeGranule rq host a bs g).2) (fun f hf => hn f (hstored.fetched hn ▸ hf))
      (hstored.ue hue) hwf.1 hwf.2 ?_
    dsimp only
    rw [hone]
    rcases h with ⟨g', hg', hin⟩ | hset
    · rcases List.mem_cons.mp hg' with rfl | hg'
      · exact .inr (if_pos hin)
      · exact .inl ⟨g', hg', hin⟩
    · right
      rw [hset]
      exact ite_self _

/-- A write that is allowed, with nothing uncorrectable, stores its bytes. -/
theorem Dev.dramStore_content {d : Dev} {rq a : Nat} {secure : Bool} (host : Option (Fin 2)) {bs : List Byte} (hn : d.NoneFetched rq) (hue : d.ue = [])
    (hm : Memory.wf d.mem = true) (hr : keysRising 0 d.regs = true) (hpass : d.checkDram secure a bs.length = .pass) :
    (d.dramStore rq secure host a bs).2.bytes a bs.length = bs := by
  have hbyte : ∀ k (hk : k < bs.length), (d.dramStore rq secure host a bs).2.byte (a + k) = bs[k] := fun k hk => by
    rw [Dev.dramStore_passed hpass]
    exact Dev.writeGranules_byte host hk (granules a bs.length) (.ok (), d) hn hue hm hr (.inl (mem_granules (by omega) (by omega)))
  refine List.ext_getElem (by simp [Dev.bytes]) fun k h1 h2 => ?_
  simp only [Dev.bytes, List.getElem_map, List.getElem_range]
  exact hbyte k h2

/-- Bytes that a write leaves alone. -/
theorem Dev.Stored.bytes_kept {d e : Dev} {rq a len : Nat} (h : d.Stored e rq a len) (hn : d.NoneFetched rq) {b n : Nat} (hb : b + n ≤ a ∨ a + len ≤ b) :
    e.bytes b n = d.bytes b n := by
  rw [Dev.bytes, Dev.bytes]
  refine List.map_congr_left fun k hk => h.bytes hn _ ?_
  have := List.mem_range.mp hk
  omega

theorem Dev.Stored.noneFetched {d e : Dev} {rq a len : Nat} (h : d.Stored e rq a len) (hn : d.NoneFetched rq) : e.NoneFetched rq :=
  fun f hf => hn f (h.fetched hn ▸ hf)

theorem Dev.dramWrite_stored (d : Dev) (rq : Nat) (secure : Bool) (host : Option (Fin 2)) (a : Nat) (bs : List Byte) :
    d.Stored (d.dramWrite rq secure host a bs).2 rq a bs.length := by
  unfold Dev.dramWrite
  split
  · exact .refl ..
  · exact (d.dramStore_stored rq secure host a bs).1

theorem Dev.dramWrite_content {d : Dev} {rq a : Nat} {secure : Bool} (host : Option (Fin 2)) {bs : List Byte} (hreset : d.sys.reset = none) (hn : d.NoneFetched rq) (hue : d.ue = [])
    (hm : Memory.wf d.mem = true) (hr : keysRising 0 d.regs = true) (hpass : d.checkDram secure a bs.length = .pass) :
    (d.dramWrite rq secure host a bs).2.bytes a bs.length = bs := by
  rw [Dev.dramWrite, if_neg (by rw [hreset]; decide)]
  exact Dev.dramStore_content host hn hue hm hr hpass

/-- A part of what is read. -/
theorem Dev.bytes_part (d : Dev) {a len k n : Nat} (h : k + n ≤ len) : ((d.bytes a len).drop k).take n = d.bytes (a + k) n := by
  refine List.ext_getElem (by simp [Dev.bytes]; omega) fun i h1 h2 => ?_
  rw [List.getElem_take, List.getElem_drop]
  simp only [Dev.bytes, List.getElem_map, List.getElem_range, Nat.add_assoc]

/-! ### Reads of DRAM -/

theorem Dev.misread_changes (a len : Nat) (ws : List Nat) (d : Dev) : d.ChangesOnly (d.misread a len ws).2 [.freeCtr] [] := by
  induction ws generalizing d with
  | nil => exact .keep
  | cons w ws ih =>
    have hfree : d.ChangesOnly (d.free (2 ^ 128)).2 [.freeCtr] [] := .setFreeCtr .keep (by decide)
    exact hfree.trans (ih _)

/-- A read of DRAM changes no byte of it. -/
theorem Dev.dramRead_changes (d : Dev) (rq : Nat) (secure : Bool) (host : Option (Fin 2)) (a len : Nat) :
    d.ChangesOnly (d.dramRead rq secure host a len).2 readParts dramRegs := by
  have hall : d.ChangesOnly (Dev.takeAll rq host (granules a len) ([], d)).2 readParts dramRegs := (Dev.takeAll_changes host (granules a len) ([], d)).mono (by decide) fun _ => id
  unfold Dev.dramRead
  split
  · exact .keep
  · exact Dev.ChangesOnly.keep.worldViolation (by decide) ..
  · dsimp only
    split
    · exact hall
    · exact hall.trans ((Dev.misread_changes ..).mono (by decide) (by simp))

/-- What requesters have read and not yet taken, after one takes a granule: nothing new. -/
theorem Dev.takeGranule_fetched (d : Dev) (rq : Nat) (host : Option (Fin 2)) (g : Nat) : ∀ f ∈ (d.takeGranule rq host g).2.drm.fetched, f ∈ d.drm.fetched := by
  unfold Dev.takeGranule
  split
  · exact fun _ h => List.mem_of_mem_erase h
  · dsimp only
    split
    · exact fun f h => by rwa [Dev.noteUe_fetched] at h
    · exact fun _ h => h

theorem Dev.takeAll_fetched (rq : Nat) (host : Option (Fin 2)) (gs : List Nat) (r : List Nat × Dev) : ∀ f ∈ (Dev.takeAll rq host gs r).2.drm.fetched, f ∈ r.2.drm.fetched := by
  induction gs generalizing r with
  | nil => exact fun _ h => h
  | cons g gs ih => exact fun f h => r.2.takeGranule_fetched rq host g f (ih (r.1 ++ (r.2.takeGranule rq host g).1, (r.2.takeGranule rq host g).2) f h)

theorem Dev.dramRead_fetched (d : Dev) (rq : Nat) (secure : Bool) (host : Option (Fin 2)) (a len : Nat) :
    ∀ f ∈ (d.dramRead rq secure host a len).2.drm.fetched, f ∈ d.drm.fetched := by
  have hall := Dev.takeAll_fetched rq host (granules a len) ([], d)
  unfold Dev.dramRead
  split
  · exact fun _ h => h
  · exact fun f h => by rwa [Dev.worldViolation, Dev.raise_drm] at h
  · dsimp only
    split
    · exact hall
    · intro f h
      rw [(Dev.misread_changes ..).parts .drm (by decide)] at h
      exact hall f h

/-- A good read, and what it leaves to be read. -/
theorem Dev.dramRead_ok {d : Dev} {rq a len : Nat} {secure : Bool} (host : Option (Fin 2)) (hpass : d.checkDram secure a len = .pass) (hgood : d.ReadsGood rq a len) :
    ∃ e, d.dramRead rq secure host a len = (.ok (d.bytes a len), e) ∧ d.ChangesOnly e [.drm] [] ∧ ∀ f ∈ e.drm.fetched, f ∈ d.drm.fetched := by
  obtain ⟨e, he, hc⟩ := Dev.dramRead_good host hpass hgood
  have hfetched := d.dramRead_fetched rq secure host a len
  rw [he] at hfetched
  exact ⟨e, he, hc, hfetched⟩

/-- A range that reads well still does so after another read. -/
theorem Dev.ReadsGood.after {d e : Dev} {rq a len : Nat} (h : d.ReadsGood rq a len) (hc : d.ChangesOnly e [.drm] []) (hf : ∀ f ∈ e.drm.fetched, f ∈ d.drm.fetched) :
    e.ReadsGood rq a len :=
  ⟨fun g hg => by rw [Dev.granuleBad, hc.parts .ue (by decide)]; exact h.1 g hg, fun f hm => h.2 f (hf f hm)⟩

/-- A device in which requester rq's writes store what they are given where they are allowed. -/
structure Dev.Clean (d : Dev) (rq : Nat) : Prop where
  fetched : d.NoneFetched rq
  ue : d.ue = []
  mem : Memory.wf d.mem = true
  regs : keysRising 0 d.regs = true
  reset : d.sys.reset = none

theorem Dev.Clean.dramWrite {d : Dev} {rq : Nat} (h : d.Clean rq) (secure : Bool) (host : Option (Fin 2)) (a : Nat) (bs : List Byte) :
    (d.dramWrite rq secure host a bs).2.Clean rq where
  fetched := (d.dramWrite_stored ..).noneFetched h.fetched
  ue := (d.dramWrite_stored ..).ue h.ue
  mem := (d.dramWrite_wf rq secure host a bs ⟨h.mem, h.regs⟩).1
  regs := (d.dramWrite_wf rq secure host a bs ⟨h.mem, h.regs⟩).2
  reset := (congrArg Sys.reset ((d.dramWrite_stored ..).changes.parts .sys (by decide))).trans h.reset

theorem Dev.Clean.content {d : Dev} {rq : Nat} (h : d.Clean rq) {secure : Bool} (host : Option (Fin 2)) {a : Nat} {bs : List Byte}
    (hpass : d.checkDram secure a bs.length = .pass) : (d.dramWrite rq secure host a bs).2.bytes a bs.length = bs :=
  Dev.dramWrite_content host h.reset h.fetched h.ue h.mem h.regs hpass

/-! ### The skein buffers of an encode lane -/

/-- The parts and the registers that an encode lane's reads and stalls may change. -/
def laneParts : List Part := [.cdc] ++ readParts
def laneRegs (n : Nat) : List Nat := [R.CD_ENCn_STAT.addr n] ++ dramRegs

theorem encStat_apart (n : Fin 4) : R.CD_ENCn_STAT.addr n ∉ dramRegs ∧ (∀ a ∈ eventRegs, a ∉ laneRegs n) ∧ R.CD_ENCn_CTRL.addr n ∉ laneRegs n := by
  have h : ∀ n : Fin 4, R.CD_ENCn_STAT.addr n ∉ dramRegs ∧ (∀ a ∈ eventRegs, a ∉ laneRegs n) ∧ R.CD_ENCn_CTRL.addr n ∉ laneRegs n := by decide
  exact h n

theorem Dev.enc_setEnc {d : Dev} (hlen : d.cdc.enc.length = 4) (n : Fin 4) (f : EncJob → EncJob) : (d.setEnc n f).enc n = f (d.enc n) :=
  at'_modify_self f (by rw [hlen]; exact n.isLt)

theorem Dev.setEnc_length (d : Dev) (n : Nat) (f : EncJob → EncJob) : (d.setEnc n f).cdc.enc.length = d.cdc.enc.length := List.length_modify ..

/-- From d to e lane n takes a buffer or stalls: its job keeps all but the buffer in use. -/
structure Dev.TakesBuffer (d e : Dev) (n : Fin 4) : Prop where
  changes : d.ChangesOnly e laneParts (laneRegs n)
  job : ∃ x, e.enc n = { d.enc n with desc := x }
  state : e.encState n = 1 ∨ e.encState n = 2

section
variable {d : Dev} (hr : keysRising 0 d.regs = true) (hlen : d.cdc.enc.length = 4) (n : Fin 4)
include hr hlen

/-- A lane that stalls. -/
theorem Dev.starve_takes : d.TakesBuffer (d.starve n) n := by
  by_cases hst : d.encState n = 2
  · have he : d.starve n = d := if_pos hst
    rw [he]
    exact ⟨.keep, ⟨(d.enc n).desc, rfl⟩, .inr hst⟩
  · have he : d.starve n = ((d.setEnc n fun j => { j with desc := none }).wr F.CD_ENCn_STAT_STATE n 2).raise (toWriter (d.enc n).port) 0x0707 [(1, n), (2, (d.enc n).tag)] :=
      if_neg hst
    have hc : d.ChangesOnly ((d.setEnc n fun j => { j with desc := none }).wr F.CD_ENCn_STAT_STATE n 2) laneParts (laneRegs n) :=
      .wr (.setCdc .keep (by decide)) (List.mem_append_left _ (List.mem_singleton.mpr rfl))
    rw [he]
    refine ⟨hc.raise (by decide) (.inl (by decide)), ⟨none, ?_⟩, .inr ?_⟩
    · rw [Dev.enc, Dev.raise_cdc]
      exact Dev.enc_setEnc hlen n fun j => { j with desc := none }
    · exact (Dev.rd_congr _ _ (Dev.raise_regs_quiet (by decide) ..)).trans (Dev.rd_wr_lt (f := F.CD_ENCn_STAT_STATE) _ (by decide) (by decide) hr)

/-- A lane that takes a released buffer. -/
theorem Dev.takeBuffer_takes (a : Nat) : d.TakesBuffer ((d.setEnc n fun j => { j with desc := some a }).wr F.CD_ENCn_STAT_STATE n 1) n where
  changes := .wr (.setCdc .keep (by decide)) (List.mem_append_left _ (List.mem_singleton.mpr rfl))
  job := ⟨some a, Dev.enc_setEnc hlen n fun j => { j with desc := some a }⟩
  state := .inl (Dev.rd_wr_lt (f := F.CD_ENCn_STAT_STATE) _ (by decide) (by decide) hr)

end

/-- A lane's read changes nothing of the lane. -/
theorem Dev.TakesBuffer.after_read {d e u : Dev} {n : Fin 4} (hc : d.ChangesOnly e readParts dramRegs) (h : e.TakesBuffer u n) : d.TakesBuffer u n where
  changes := (hc.mono (fun _ => List.mem_append_right _) fun _ => List.mem_append_right _).trans h.changes
  job := by
    have hcdc : e.enc n = d.enc n := by rw [Dev.enc, hc.parts .cdc (by decide), Dev.enc]
    rw [← hcdc]
    exact h.job
  state := h.state

/-- The descriptor address that a lane goes on to: CD_ENCn_SKEIN, or NEXT of the last full buffer's (R132). -/
def Dev.nextSkein (d : Dev) (n : Nat) : Option Nat × Dev :=
  match (d.enc n).last with
  | none => (some (d.rd F.CD_ENCn_SKEIN_ADDR n * 32), d)
  | some l =>
    match d.dramRead 4 (d.enc n).secure (d.enc n).port (l + 0x18) 8 with
    | (.ok b, d) => (if ofLeBytes b = 0 then none else some (ofLeBytes b), d)
    | (_, d) => (none, d)

/-- A lane takes the buffer of a descriptor if it is released. -/
def Dev.trySkein (d : Dev) (n : Nat) (j : EncJob) (a : Nat) : Dev :=
  match d.dramRead 4 j.secure j.port a 32 with
  | (.ok b, d) =>
    if (sliceNat b 0xC 4).testBit 0 ∧ 64 ≤ sliceNat b 8 4 ∧ sliceNat b 8 4 ≤ 16777216 then
      (d.setEnc n fun j => { j with desc := some a }).wr F.CD_ENCn_STAT_STATE n 1
    else d.starve n
  | (_, d) => d.starve n

/-- A lane goes on with the buffer of the descriptor that was found, or stalls. -/
def Dev.opensSkein (n : Nat) (j : EncJob) (r : Option Nat × Dev) : Dev :=
  match r.1 with
  | none => r.2.starve n
  | some a => r.2.trySkein n j a

theorem Dev.openBuffer_eq (d : Dev) (n : Nat) : d.openBuffer n = Dev.opensSkein n (d.enc n) (d.nextSkein n) := rfl

theorem Dev.nextSkein_changes (d : Dev) (n : Nat) : d.ChangesOnly (d.nextSkein n).2 readParts dramRegs := by
  unfold Dev.nextSkein
  split
  · exact .keep
  · next l h =>
    have hread := d.dramRead_changes 4 (d.enc n).secure (d.enc n).port (l + 0x18) 8
    split
    · next b e he =>
      rw [he] at hread
      exact hread
    · next he =>
      rw [he] at hread
      exact hread

section
variable {d : Dev} (hr : keysRising 0 d.regs = true) (hlen : d.cdc.enc.length = 4) (n : Fin 4)
include hr hlen

theorem Dev.trySkein_takes (j : EncJob) (a : Nat) : d.TakesBuffer (d.trySkein n j a) n := by
  have hread := d.dramRead_changes 4 j.secure j.port a 32
  unfold Dev.trySkein
  split
  all_goals
    rename_i he
    rw [he] at hread
    have hcdc := hread.parts .cdc (by decide)
    have hlen' := (congrArg (fun c : Cdc => c.enc.length) hcdc).trans hlen
  · split
    · exact .after_read hread (Dev.takeBuffer_takes (hread.rising hr) hlen' n a)
    · exact .after_read hread (Dev.starve_takes (hread.rising hr) hlen' n)
  · exact .after_read hread (Dev.starve_takes (hread.rising hr) hlen' n)

theorem Dev.openBuffer_takes : d.TakesBuffer (d.openBuffer n) n := by
  have hread := d.nextSkein_changes n
  have hlen' := (congrArg (fun c : Cdc => c.enc.length) (hread.parts .cdc (by decide))).trans hlen
  rw [Dev.openBuffer_eq, Dev.opensSkein]
  split
  · exact .after_read hread (Dev.starve_takes (hread.rising hr) hlen' n)
  · exact .after_read hread (Dev.trySkein_takes (hread.rising hr) hlen' n ..)

end

/-! ### Starting a job -/

theorem Dev.readSource_changes (d : Dev) (rq : Nat) (secure : Bool) (port : Option (Fin 2)) (a len : Nat) :
    d.ChangesOnly (d.readSource rq secure port a len).2.2 readParts dramRegs := by
  unfold Dev.readSource
  refine List.foldlRecOn (motive := fun acc : List Byte × Bool × Dev => d.ChangesOnly acc.2.2 readParts dramRegs) _ _ .keep fun acc hacc g _ => ?_
  dsimp only
  split
  · exact hacc
  · have hread := acc.2.2.dramRead_changes rq secure port (max a g) (min (a + len) (g + 128) - max a g)
    split
    all_goals
      rename_i he
      rw [he] at hread
      exact hacc.trans hread

/-- A job's GO, once its lane is free: the job as written, RUNNING. -/
def Dev.newJob (d : Dev) (m : Master) (n : Nat) : Dev :=
  ((d.setEnc n fun _ => {
    tag := d.rd F.CD_ENCn_CTRL_TAG n, port := portOf m, secure := d.secureMaster m, mode := d.on F.CD_ENCn_CTRL_MODE n
    source := some (d.rd F.CD_ENCn_SRC_ADDR n, d.rd F.CD_ENCn_SRC_LEN n) }).wr F.CD_ENCn_STAT_STATE n 1).wrB F.CD_ENCn_STAT_ERR n false

theorem Dev.encodeGo_starts {d : Dev} {m : Master} {n : Nat} (hf : d.funcOn .enc = true) (h1 : d.encState n ≠ 1) (h2 : d.encState n ≠ 2) :
    d.encodeGo m n = if (d.newJob m n).frontHeld then (d.newJob m n).hold (.encode n) else (d.newJob m n).startEncode n := by
  unfold Dev.encodeGo
  rw [if_neg (by simp [hf, h1, h2])]
  rfl

/-- From d to e lane n begins the job of a GO by master m, with what was written to its CTRL: nothing given yet, RUNNING or stalled. -/
structure Dev.Begins (d e : Dev) (m : Master) (n : Fin 4) : Prop where
  changes : d.ChangesOnly e laneParts (laneRegs n)
  tag : (e.enc n).tag = d.rd F.CD_ENCn_CTRL_TAG n
  mode : (e.enc n).mode = d.on F.CD_ENCn_CTRL_MODE n
  port : (e.enc n).port = portOf m
  secure : (e.enc n).secure = d.secureMaster m
  done : (e.enc n).done = 0
  state : e.encState n = 1 ∨ e.encState n = 2

section
variable {d : Dev} (hr : keysRising 0 d.regs = true) (hlen : d.cdc.enc.length = 4) (m : Master) (n : Fin 4)
include hr hlen

theorem Dev.newJob_begins : d.Begins (d.newJob m n) m n := by
  have hjob : (d.newJob m n).enc n = _ := Dev.enc_setEnc hlen n _
  have hc : d.ChangesOnly (d.newJob m n) laneParts (laneRegs n) :=
    .wrB (.wr (.setCdc .keep (by decide)) (List.mem_append_left _ (List.mem_singleton.mpr rfl))) (List.mem_append_left _ (List.mem_singleton.mpr rfl))
  refine ⟨hc, by rw [hjob], by rw [hjob], by rw [hjob], by rw [hjob], by rw [hjob], .inl ?_⟩
  refine (Dev.rd_wr_beside (f := F.CD_ENCn_STAT_ERR) (g := F.CD_ENCn_STAT_STATE) ⟨rfl, by decide, by decide⟩ _ _ (Dev.wr_rising _ _ _ _ hr)).trans ?_
  exact Dev.rd_wr_lt (f := F.CD_ENCn_STAT_STATE) _ (by decide) (by decide) hr

/-- A job that has begun reads its source and takes its first buffer. -/
theorem Dev.Begins.starts {x : Dev} (h : x.Begins d m n) : x.Begins (d.startEncode n) m n := by
  have hread := fun s : Nat × Nat => d.readSource_changes 4 (d.enc n).secure (d.enc n).port s.1 s.2
  unfold Dev.startEncode
  dsimp only
  split
  · exact h
  · next a len hsource =>
    have hsrc := hread (a, len)
    generalize d.readSource 4 (d.enc n).secure (d.enc n).port a len = r at hsrc ⊢
    obtain ⟨input, failed, e⟩ := r
    generalize encodeStream (d.enc n).mode input = out
    have henc : e.enc n = d.enc n := by rw [Dev.enc, hsrc.parts .cdc (by decide), Dev.enc]
    have hlen' := (congrArg (fun c : Cdc => c.enc.length) (hsrc.parts .cdc (by decide))).trans hlen
    have hjob := Dev.enc_setEnc hlen' n fun j => { j with input := input, failed := failed, source := none, stream := out.1, bits := out.2 }
    obtain ⟨hc, ⟨desc, hdesc⟩, hstate⟩ := Dev.openBuffer_takes (d := e.setEnc n fun j => { j with input := input, failed := failed, source := none, stream := out.1, bits := out.2 })
      (hsrc.rising hr) ((Dev.setEnc_length ..).trans hlen') n
    rw [hjob, henc] at hdesc
    refine ⟨h.changes.trans ((Dev.ChangesOnly.setCdc (hsrc.mono (fun _ => List.mem_append_right _) fun _ => List.mem_append_right _) (by decide)).trans hc), ?_, ?_, ?_, ?_, ?_, hstate⟩
    · rw [hdesc]; exact h.tag
    · rw [hdesc]; exact h.mode
    · rw [hdesc]; exact h.port
    · rw [hdesc]; exact h.secure
    · rw [hdesc]; exact h.done

theorem Dev.encodeGo_begins (hf : d.funcOn .enc = true) (h1 : d.encState n ≠ 1) (h2 : d.encState n ≠ 2) : d.Begins (d.encodeGo m n) m n := by
  have hnew := Dev.newJob_begins hr hlen m n
  rw [Dev.encodeGo_starts hf h1 h2]
  split
  · exact { hnew with changes := .setDrm hnew.changes (by decide) }
  · exact hnew.starts (hnew.changes.rising hr) (by rw [Dev.newJob]; exact (Dev.setEnc_length ..).trans hlen) m n

end

/-! ### GO and KICK -/

theorem findReg_CD_ENCn_CTRL (n : Fin 4) : findReg (R.CD_ENCn_CTRL.addr n) regTable =
    some ⟨⟨R.CD_ENCn_CTRL, [F.CD_ENCn_CTRL_GO, F.CD_ENCn_CTRL_KICK, F.CD_ENCn_CTRL_MODE, F.CD_ENCn_CTRL_TAG]⟩, n, false⟩ := by
  have hapart : ∀ n : Fin 4, ∀ row ∈ regTable.take 70, R.CD_ENCn_CTRL.addr n < row.reg.base ∨ row.reg.top < R.CD_ENCn_CTRL.addr n := by decide +kernel
  exact (findReg_drop 70 (hapart n)).trans (by fin_cases n <;> rfl)

section
variable {d : Dev} (hr : keysRising 0 d.regs = true) (n : Fin 4) (val : Nat)
include hr

theorem Dev.storeEncCtrl : d.ChangesOnly (d.store R.CD_ENCn_CTRL n val mask32) [] [R.CD_ENCn_CTRL.addr n] ∧
    (d.store R.CD_ENCn_CTRL n val mask32).rd F.CD_ENCn_CTRL_TAG n = val / 2 ^ 16 % 2 ^ 16 ∧
    (d.store R.CD_ENCn_CTRL n val mask32).on F.CD_ENCn_CTRL_MODE n = val.testBit 2 := by
  refine ⟨.store .keep (findReg_CD_ENCn_CTRL n) List.mem_cons_self, ?_, ?_⟩
  · exact Dev.rd_store_any (f := F.CD_ENCn_CTRL_TAG) (findReg_CD_ENCn_CTRL n) (by simp) hr rfl rfl (by decide)
  · have hmode := Dev.rd_store_any (f := F.CD_ENCn_CTRL_MODE) (v := val) (findReg_CD_ENCn_CTRL n) (by simp) hr rfl rfl (mask := mask32) (by decide)
    change (d.store R.CD_ENCn_CTRL n val mask32).rd F.CD_ENCn_CTRL_MODE n = fieldOf 2 1 val at hmode
    rw [Dev.on, hmode, fieldOf_one]
    cases val.testBit 2 <;> rfl

/-- A GO of a lane that is ON and free begins the job as written. -/
theorem Dev.wEnc_go (hlen : d.cdc.enc.length = 4) (m : Master) (hval : val % 4 = 1) (hf : d.funcOn .enc = true) (h1 : d.encState n ≠ 1) (h2 : d.encState n ≠ 2) :
    let e := d.wEnc m n val mask32
    d.ChangesOnly e laneParts (R.CD_ENCn_CTRL.addr n :: laneRegs n) ∧ (e.encState n = 1 ∨ e.encState n = 2) ∧ (e.enc n).tag = val / 2 ^ 16 % 2 ^ 16 ∧
      (e.enc n).mode = val.testBit 2 ∧ (e.enc n).port = portOf m ∧ (e.enc n).secure = d.secureMaster m ∧ (e.enc n).done = 0 := by
  intro e
  have hgo : val.testBit 0 = true := by simp [Nat.testBit_zero]; omega
  have hkick : val.testBit 1 = false := by
    rw [Nat.testBit_eq_decide_div_mod_eq]
    exact decide_eq_false (by omega)
  have he : e = (d.store R.CD_ENCn_CTRL n val mask32).encodeGo m n := by
    unfold e Dev.wEnc
    dsimp only
    rw [if_neg (by rw [land_mask32_testBit _ (by decide), hkick]; decide), if_pos (by rw [land_mask32_testBit _ (by decide), hgo])]
  obtain ⟨hc, htag, hmode⟩ := Dev.storeEncCtrl hr n val
  have hstate : (d.store R.CD_ENCn_CTRL n val mask32).encState n = d.encState n := hc.rd (by
    have h : ∀ n : Fin 4, R.CD_ENCn_STAT.addr n ∉ [R.CD_ENCn_CTRL.addr n] := by decide
    exact h n)
  have hon : (d.store R.CD_ENCn_CTRL n val mask32).funcOn .enc = true := by
    rw [Dev.funcOn, Dev.func, hc.parts .sys (by decide)]
    exact hf
  have hsecure : (d.store R.CD_ENCn_CTRL n val mask32).secureMaster m = d.secureMaster m := by
    unfold Dev.secureMaster
    split
    · exact Dev.portSecure_congr _ (hc.parts .pat (by decide))
    · rfl
  obtain ⟨hbegin, h3, h4, h5, h6, h7, h8⟩ := Dev.encodeGo_begins (hc.rising hr) ((congrArg (fun c : Cdc => c.enc.length) (hc.parts .cdc (by decide))).trans hlen) m n hon
    (by rwa [hstate]) (by rwa [hstate])
  rw [← he] at hbegin h3 h4 h5 h6 h7 h8
  exact ⟨(hc.mono (by simp) (by simp)).trans (hbegin.mono (fun _ => id) fun _ => List.mem_cons_of_mem _), h8, h3.trans htag, h4.trans hmode, h5, h6.trans hsecure, h7⟩

end

/-- Where the next buffer's descriptor can be read. -/
theorem Dev.nextSkein_reads {d : Dev} {n : Fin 4}
    (hlast : ∀ l, (d.enc n).last = some l → d.checkDram (d.enc n).secure (l + 0x18) 8 = .pass ∧ d.load (l + 0x18) 8 ≠ 0 ∧ d.ReadsGood 4 (l + 0x18) 8) {a : Nat}
    (hfirst : (d.enc n).last = none → a = d.rd F.CD_ENCn_SKEIN_ADDR n * 32) (hnext : ∀ l, (d.enc n).last = some l → a = d.load (l + 0x18) 8) :
    ∃ e, d.nextSkein n = (some a, e) ∧ d.ChangesOnly e [.drm] [] ∧ ∀ f ∈ e.drm.fetched, f ∈ d.drm.fetched := by
  unfold Dev.nextSkein
  split
  · next h =>
    rw [hfirst h]
    exact ⟨d, rfl, .keep, fun _ => id⟩
  · next l h =>
    obtain ⟨hpass, hzero, hgood⟩ := hlast l h
    obtain ⟨e, he, hc, hf⟩ := Dev.dramRead_ok (d.enc n).port hpass hgood
    refine ⟨e, ?_, hc, hf⟩
    rw [he, hnext l h]
    change (if d.load (l + 0x18) 8 = 0 then none else some (d.load (l + 0x18) 8), e) = _
    rw [if_neg hzero]

/-- A KICK whose reads find the next buffer released takes it; one that finds it not released does nothing else. -/
theorem Dev.openBuffer_reads {d : Dev} {n : Fin 4} (hst : d.encState n = 2)
    (hlast : ∀ l, (d.enc n).last = some l → d.checkDram (d.enc n).secure (l + 0x18) 8 = .pass ∧ d.load (l + 0x18) 8 ≠ 0 ∧ d.ReadsGood 4 (l + 0x18) 8) {a : Nat}
    (hfirst : (d.enc n).last = none → a = d.rd F.CD_ENCn_SKEIN_ADDR n * 32) (hnext : ∀ l, (d.enc n).last = some l → a = d.load (l + 0x18) 8)
    (hpass : d.checkDram (d.enc n).secure a 32 = .pass) (hgood : d.ReadsGood 4 a 32) :
    ∃ e, d.ChangesOnly e [.drm] [] ∧ d.openBuffer n =
      if (sliceNat (d.bytes a 32) 0xC 4).testBit 0 ∧ 64 ≤ sliceNat (d.bytes a 32) 8 4 ∧ sliceNat (d.bytes a 32) 8 4 ≤ 16777216 then
        (e.setEnc n fun j => { j with desc := some a }).wr F.CD_ENCn_STAT_STATE n 1
      else e := by
  obtain ⟨e, he, hc, hf⟩ := Dev.nextSkein_reads hlast hfirst hnext
  obtain ⟨u, hu, hcu, -⟩ := Dev.dramRead_ok (d.enc n).port ((Dev.checkDram_congr (hc.parts .pat (by decide)) ..).trans hpass) (hgood.after hc hf)
  have hstate : u.encState n = 2 := (hcu.rd (by simp)).trans ((hc.rd (by simp)).trans hst)
  refine ⟨u, hc.trans hcu, ?_⟩
  rw [Dev.openBuffer_eq, he]
  change e.trySkein n (d.enc n) a = _
  unfold Dev.trySkein
  rw [hu, Dev.bytes_congr (hc.parts .mem (by decide))]
  dsimp only
  rw [show u.starve n = u from if_pos hstate]

/-! ### Giving a buffer to the host -/

/-- The flags of a given buffer: OWNED cleared, LAST set in the final one. -/
def givenFlags (flags : Nat) (last : Bool) : Nat := if last then Nat.lor (flags - flags % 2) 2 else flags - flags % 2

theorem givenFlags_lt {flags : Nat} (h : flags < 256 ^ 4) (last : Bool) : givenFlags flags last < 256 ^ 4 := by
  unfold givenFlags
  split
  · exact Nat.or_lt_two_pow (n := 32) (by omega) (by decide)
  · omega

/-- The three stores of a given buffer: the output, VALID_BITS with TAG, and FLAGS. -/
def Dev.storeGiven (d : Dev) (j : EncJob) (a bits : Nat) (last : Bool) : Dev :=
  let e := (d.dramWrite 4 j.secure j.port (d.load a 8) (bitSlice j.stream j.done bits)).2
  let e := (e.dramWrite 4 j.secure j.port (a + 0x10) (leBytes 4 bits ++ leBytes 4 j.tag)).2
  (e.dramWrite 4 j.secure j.port (a + 0xC) (leBytes 4 (givenFlags (d.load (a + 0xC) 4) last))).2

theorem Dev.giveBuffer_eq {d : Dev} {n a : Nat} (h : (d.enc n).desc = some a) (bits : Nat) (last : Bool) :
    d.giveBuffer n bits last = (d.storeGiven (d.enc n) a bits last).setEnc n fun j => { j with done := j.done + bits, desc := none, last := some a } := by
  unfold Dev.giveBuffer
  dsimp only
  rw [h]
  rfl

theorem Dev.load_lt (d : Dev) (a len : Nat) : d.load a len < 256 ^ len :=
  (ofLeBytes_lt _).trans_eq (by simp [Dev.bytes])

/-- Two stores later the first one's bytes still stand where the others lie apart. -/
theorem Dev.load_of_bytes {e : Dev} {a k : Nat} {bs : List Byte} (h : e.bytes a bs.length = bs) (hk : k + 4 ≤ bs.length) : e.load (a + k) 4 = ofLeBytes ((bs.drop k).take 4) := by
  rw [Dev.load, ← Dev.bytes_part e hk, h]

section
variable (d : Dev) (j : EncJob) (a bits : Nat) (last : Bool)

theorem Dev.storeGiven_changes : d.ChangesOnly (d.storeGiven j a bits last) dramParts dramRegs :=
  (d.dramWrite_stored ..).changes.trans ((Dev.dramWrite_stored ..).changes.trans (Dev.dramWrite_stored ..).changes)

theorem Dev.storeGiven_beside (hn : d.NoneFetched 4) (x : Nat) (hbuf : x < d.load a 8 ∨ d.load a 8 + (bitSlice j.stream j.done bits).length ≤ x)
    (hdesc : x < a + 0xC ∨ a + 0x18 ≤ x) : (d.storeGiven j a bits last).byte x = d.byte x := by
  have h1 := d.dramWrite_stored 4 j.secure j.port (d.load a 8) (bitSlice j.stream j.done bits)
  have hn1 := h1.noneFetched hn
  unfold Dev.storeGiven
  dsimp only
  generalize (d.dramWrite 4 j.secure j.port (d.load a 8) (bitSlice j.stream j.done bits)).2 = e1 at *
  have h2 := e1.dramWrite_stored 4 j.secure j.port (a + 0x10) (leBytes 4 bits ++ leBytes 4 j.tag)
  have hn2 := h2.noneFetched hn1
  generalize (e1.dramWrite 4 j.secure j.port (a + 0x10) (leBytes 4 bits ++ leBytes 4 j.tag)).2 = e2 at *
  have h3 := e2.dramWrite_stored 4 j.secure j.port (a + 0xC) (leBytes 4 (givenFlags (d.load (a + 0xC) 4) last))
  rw [List.length_append, leBytes_length, leBytes_length] at h2
  rw [leBytes_length] at h3
  exact (h3.bytes hn2 x (by omega)).trans ((h2.bytes hn1 x (by omega)).trans (h1.bytes hn x hbuf))

/-- What the three stores leave where nothing is uncorrectable and R31 lets them pass. -/
theorem Dev.storeGiven_content (hd : d.Clean 4) (hbuf : d.checkDram j.secure (d.load a 8) (bitSlice j.stream j.done bits).length = .pass) (hdesc : d.checkDram j.secure a 32 = .pass)
    (hapart : d.load a 8 + (bitSlice j.stream j.done bits).length ≤ a ∨ a + 32 ≤ d.load a 8) :
    let e := d.storeGiven j a bits last
    e.bytes (d.load a 8) (bitSlice j.stream j.done bits).length = bitSlice j.stream j.done bits ∧ e.bytes (a + 0x10) 8 = leBytes 4 bits ++ leBytes 4 j.tag ∧
      e.bytes (a + 0xC) 4 = leBytes 4 (givenFlags (d.load (a + 0xC) 4) last) := by
  have h1 := d.dramWrite_stored 4 j.secure j.port (d.load a 8) (bitSlice j.stream j.done bits)
  have hd1 := hd.dramWrite j.secure j.port (d.load a 8) (bitSlice j.stream j.done bits)
  have hc1 := hd.content j.port hbuf
  unfold Dev.storeGiven
  dsimp only
  generalize (d.dramWrite 4 j.secure j.port (d.load a 8) (bitSlice j.stream j.done bits)).2 = e1 at *
  have h2 := e1.dramWrite_stored 4 j.secure j.port (a + 0x10) (leBytes 4 bits ++ leBytes 4 j.tag)
  have hd2 := hd1.dramWrite j.secure j.port (a + 0x10) (leBytes 4 bits ++ leBytes 4 j.tag)
  have hpass1 : ∀ b n, e1.checkDram j.secure b n = d.checkDram j.secure b n := Dev.checkDram_congr (h1.changes.parts .pat (by decide)) j.secure
  have hc2 := hd1.content (secure := j.secure) (a := a + 0x10) (bs := leBytes 4 bits ++ leBytes 4 j.tag) j.port
    ((hpass1 ..).trans (Dev.checkDram_part hdesc (by omega) (by simp) (by simp)))
  generalize (e1.dramWrite 4 j.secure j.port (a + 0x10) (leBytes 4 bits ++ leBytes 4 j.tag)).2 = e2 at *
  have h3 := e2.dramWrite_stored 4 j.secure j.port (a + 0xC) (leBytes 4 (givenFlags (d.load (a + 0xC) 4) last))
  have hpass2 : ∀ b n, e2.checkDram j.secure b n = e1.checkDram j.secure b n := Dev.checkDram_congr (h2.changes.parts .pat (by decide)) j.secure
  have hc3 := hd2.content (secure := j.secure) (a := a + 0xC) (bs := leBytes 4 (givenFlags (d.load (a + 0xC) 4) last)) j.port
    ((hpass2 ..).trans ((hpass1 ..).trans (Dev.checkDram_part hdesc (by omega) (by simp) (by simp))))
  rw [List.length_append, leBytes_length, leBytes_length] at h2 hc2
  rw [leBytes_length] at h3 hc3
  refine ⟨?_, ?_, hc3⟩
  · rw [h3.bytes_kept hd2.fetched (by omega), h2.bytes_kept hd1.fetched (by omega), hc1]
  · rw [h3.bytes_kept hd2.fetched (by omega), hc2]

end

/-- A buffer is given by the three stores, whatever follows that writes no DRAM. -/
theorem Dev.gives_of_mem {d u : Dev} {n : Fin 4} {a bits : Nat} {last : Bool} (hr : keysRising 0 d.regs = true) (hm : Memory.wf d.mem = true) (hreset : d.sys.reset = none)
    (hu : u.mem = (d.storeGiven (d.enc n) a bits last).mem) : d.GivesBuffer u n a bits last := by
  intro hn
  have hbytes := Dev.bytes_congr hu
  refine ⟨fun x hbuf hdesc => ?_, fun hue hpass hdesc hapart => ?_⟩
  · rw [Dev.byte, hu]
    exact d.storeGiven_beside (d.enc n) a bits last hn x hbuf hdesc
  · obtain ⟨h1, h2, h3⟩ := d.storeGiven_content (d.enc n) a bits last ⟨hn, hue, hm, hr, hreset⟩ hpass hdesc hapart
    rw [← hbytes] at h1 h2 h3
    have hflags : d.load (a + 0xC) 4 - d.load (a + 0xC) 4 % 2 = d.load (a + 0xC) 4 / 2 * 2 := by omega
    refine ⟨h1, ?_, ?_, ?_⟩
    · refine (Dev.load_of_bytes (k := 0) (bs := leBytes 4 bits ++ leBytes 4 (d.enc n).tag) (by simpa using h2) (by simp)).trans ?_
      rw [List.drop_zero, List.take_left' (leBytes_length ..), ofLeBytes_leBytes]
      rfl
    · refine (Dev.load_of_bytes (k := 4) (bs := leBytes 4 bits ++ leBytes 4 (d.enc n).tag) (by simpa using h2) (by simp)).trans ?_
      rw [List.drop_left' (leBytes_length ..), List.take_of_length_le (by simp), ofLeBytes_leBytes]
      rfl
    · rw [Dev.load, h3, ofLeBytes_leBytes, Nat.mod_eq_of_lt (givenFlags_lt (d.load_lt ..) last), givenFlags, hflags]

/-- What giving a buffer leaves of its lane. -/
theorem Dev.giveBuffer_spec {d : Dev} {n : Fin 4} {a : Nat} (hlen : d.cdc.enc.length = 4) (h : (d.enc n).desc = some a) (bits : Nat) (last : Bool) :
    let e := d.giveBuffer n bits last
    d.ChangesOnly e ([.cdc] ++ dramParts) dramRegs ∧ e.cdc.enc.length = 4 ∧ e.mem = (d.storeGiven (d.enc n) a bits last).mem ∧
      e.enc n = { d.enc n with done := (d.enc n).done + bits, desc := none, last := some a } := by
  intro e
  have hc := d.storeGiven_changes (d.enc n) a bits last
  have hcdc := hc.parts .cdc (by decide)
  have henc : (d.storeGiven (d.enc n) a bits last).enc n = d.enc n := by rw [Dev.enc, hcdc, Dev.enc]
  have hlen' := (congrArg (fun c : Cdc => c.enc.length) hcdc).trans hlen
  have he : e = _ := Dev.giveBuffer_eq h bits last
  rw [he]
  refine ⟨.setCdc (hc.mono (fun _ => List.mem_append_right _) fun _ => id) (by decide), (Dev.setEnc_length ..).trans hlen', rfl, ?_⟩
  rw [Dev.enc_setEnc hlen', henc]

theorem Dev.reset_of_frontHeld {d : Dev} (h : d.frontHeld = false) : d.sys.reset = none := by
  rw [Dev.frontHeld, Bool.or_eq_false_iff] at h
  exact Option.not_isSome_iff_eq_none.mp (Bool.eq_false_iff.mp h.1)

theorem Dev.encRoom_of_desc {d : Dev} {n a : Nat} (h : (d.enc n).desc = some a) : d.encRoom n = d.load (a + 8) 4 * 8 := by
  rw [Dev.encRoom, h]

section
variable {s : State} {n : Fin 4} {a : Nat} (hinv : s.Inv) (hfront : s.dev.frontHeld = false) (hst : s.dev.encState n = 1) (hdesc : (s.dev.enc n).desc = some a)
include hinv hfront hst hdesc

/-- The final buffer is given, and ENCODE_DONE follows. -/
theorem encodeEnd_runs {c : Instr} {failed : Bool} (hx : exec c s = s.act fun d => d.encodeEnd n failed)
    (hroom : (s.dev.enc n).bits - (s.dev.enc n).done ≤ s.dev.load (a + 8) 4 * 8) (hfailed : (s.dev.enc n).failed = failed) :
    ∃ u, Runs c s u ([.cdc] ++ dramParts) ([R.CD_ENCn_STAT.addr n] ++ dramRegs) ∧ u.dev.encState n = 3 ∧
      u.dev.rd F.CD_ENCn_STAT_ERR n = (if failed then 1 else 0) ∧ u.dev.raised.getLast? = some (s.dev.event (toWriter (s.dev.enc n).port) 0x0708
        [(2, (s.dev.enc n).tag), (4, (s.dev.enc n).input.length), (4, (s.dev.enc n).bits), (1, if failed then 1 else 0)]) ∧
      s.dev.GivesBuffer u.dev n a ((s.dev.enc n).bits - (s.dev.enc n).done) true := by
  obtain ⟨hgive, hlen, hmem, hjob⟩ := Dev.giveBuffer_spec (bits := (s.dev.enc n).bits - (s.dev.enc n).done) hinv.enc hdesc true
  have hend : s.dev.encodeEnd n failed = (((s.dev.giveBuffer n ((s.dev.enc n).bits - (s.dev.enc n).done) true).wr F.CD_ENCn_STAT_STATE n 3).wrB F.CD_ENCn_STAT_ERR n failed).raise
      (toWriter (s.dev.enc n).port) 0x0708 [(2, (s.dev.enc n).tag), (4, (s.dev.enc n).input.length), (4, (s.dev.enc n).bits), (1, if failed then 1 else 0)] := by
    rw [Dev.encodeEnd, Dev.encRoom_of_desc hdesc, if_pos ⟨by rw [hfront]; rfl, hst, by rw [hdesc]; rfl, hroom, hfailed⟩, Dev.endEncode,
      Dev.encRoom_of_desc hdesc, Nat.min_eq_left hroom]
  generalize s.dev.giveBuffer n ((s.dev.enc n).bits - (s.dev.enc n).done) true = e at *
  have hstate : s.dev.ChangesOnly (e.wr F.CD_ENCn_STAT_STATE n 3) ([.cdc] ++ dramParts) (laneRegs n) :=
    .wr (hgive.mono (fun _ => id) fun _ => List.mem_append_right _) (List.mem_append_left _ (List.mem_singleton.mpr rfl))
  have herr := hstate.wrB (f := F.CD_ENCn_STAT_ERR) (i := n) (b := failed) (List.mem_append_left _ (List.mem_singleton.mpr rfl))
  have hquiet : ∀ f : Fld, ∀ x : Dev, (x.raise (toWriter (s.dev.enc n).port) 0x0708
      [(2, (s.dev.enc n).tag), (4, (s.dev.enc n).input.length), (4, (s.dev.enc n).bits), (1, if failed then 1 else 0)]).rd f n = x.rd f n := fun f x =>
    Dev.rd_congr _ _ (Dev.raise_regs_quiet (by decide) ..)
  refine ⟨_, .act (fun d => d.encodeEnd n failed) hx hend (herr.raise (by decide) (.inl (by decide))), ?_, ?_, ?_, ?_⟩
  · refine (hquiet F.CD_ENCn_STAT_STATE _).trans ?_
    refine (Dev.rd_wr_beside (f := F.CD_ENCn_STAT_ERR) (g := F.CD_ENCn_STAT_STATE) ⟨rfl, by decide, by decide⟩ _ _ (hstate.rising hinv.regs)).trans ?_
    exact Dev.rd_wr_lt (f := F.CD_ENCn_STAT_STATE) _ (by decide) (by decide) (hgive.rising hinv.regs)
  · exact (hquiet F.CD_ENCn_STAT_ERR _).trans (Dev.rd_wrB_self _ _ _ _ (by decide) (by decide) (hstate.rising hinv.regs))
  · rw [Dev.raise_raised, List.getLast?_concat, herr.event (by decide) (encStat_apart n).2.1]
  · exact Dev.gives_of_mem hinv.regs hinv.mem (Dev.reset_of_frontHeld hfront) ((Dev.raise_mem ..).trans hmem)

/-- A full buffer is given, and the lane goes on to the next. -/
theorem bufferFull_runs (hroom : s.dev.load (a + 8) 4 * 8 < (s.dev.enc n).bits - (s.dev.enc n).done) :
    ∃ u, Runs (.skeinBufferFull n) s u ([.cdc] ++ dramParts) ([R.CD_ENCn_STAT.addr n] ++ dramRegs) ∧ (u.dev.encState n = 1 ∨ u.dev.encState n = 2) ∧
      (u.dev.enc n).done = (s.dev.enc n).done + s.dev.load (a + 8) 4 * 8 ∧ (u.dev.enc n).last = some a ∧
      s.dev.GivesBuffer u.dev n a (s.dev.load (a + 8) 4 * 8) false := by
  obtain ⟨hgive, hlen, hmem, hjob⟩ := Dev.giveBuffer_spec (bits := s.dev.load (a + 8) 4 * 8) hinv.enc hdesc false
  have hfull : s.dev.bufferFull n = (s.dev.giveBuffer n (s.dev.load (a + 8) 4 * 8) false).openBuffer n := by
    rw [Dev.bufferFull, Dev.encRoom_of_desc hdesc, if_pos ⟨by rw [hfront]; rfl, hst, by rw [hdesc]; rfl, hroom⟩]
  obtain ⟨hopen, ⟨x, hx⟩, hstate⟩ := Dev.openBuffer_takes (hgive.rising hinv.regs) hlen n
  rw [hjob] at hx
  refine ⟨_, .act (fun d => d.bufferFull n) rfl hfull ((hgive.mono (fun _ => id) fun _ => List.mem_append_right _).trans (hopen.mono (by decide) fun _ => id)), hstate, ?_, ?_, ?_⟩
  · exact congrArg EncJob.done hx
  · exact congrArg EncJob.last hx
  · exact Dev.gives_of_mem hinv.regs hinv.mem (Dev.reset_of_frontHeld hfront) ((hopen.parts .mem (by decide)).trans hmem)

end

/-- Settles O27: by what a lane's reads, its stalls and the three stores of a given buffer leave. -/
theorem encodeLanes : Obligations.EncodeLanes := by
  unfold Obligations.EncodeLanes
  refine ⟨fun m n val s hinv htakes hon h1 h2 hval => ?go, ?kick, ?gives⟩
  case go =>
    obtain ⟨bus, htouch⟩ := s.dev.touch_bus m
    have hc := Dev.wEnc_go (d := s.dev.touch m) (by rw [htouch]; exact hinv.regs) n val (by rw [htouch]; exact hinv.enc) m hval (by rw [htouch]; exact hon) (by rw [htouch]; exact h1)
      (by rw [htouch]; exact h2)
    obtain ⟨hc, hstate, htag, hmode, hport, hsecure, hdone⟩ := hc
    have hall : s.dev.ChangesOnly _ (.bus :: laneParts) (R.CD_ENCn_CTRL.addr n :: laneRegs n) := hc.after_touch
    refine ⟨_, .writes (fun d => d.wEnc m n val mask32) rfl htakes rfl hall, hstate, htag, hmode, hport, hsecure.trans ?_, hdone, hall.parts .mem (by decide)⟩
    rw [htouch]
    rfl
  case kick =>
    intro m n s j a b hinv htakes hst
    refine ⟨fun hfront => ?_, fun hfront hlast hpass hgood => ?_⟩
    · obtain ⟨bus, htouch⟩ := s.dev.touch_bus m
      have he : (s.dev.touch m).encodeKick n = (s.dev.touch m).hold (.encode n) := by
        rw [Dev.encodeKick, if_neg (by rw [htouch]; exact not_not.mpr hst), if_pos (by rw [htouch]; exact hfront)]
      refine ⟨_, .writes (fun d => d.encodeKick n) rfl htakes he (Dev.ChangesOnly.setDrm .keep (by decide)).after_touch, ?_⟩
      rw [htouch]
      rfl
    · obtain ⟨bus, htouch⟩ := s.dev.touch_bus m
      have hnext : ∀ l, j.last = some l → a = s.dev.load (l + 0x18) 8 := fun l hl => by
        unfold a
        rw [hl]
      have hfirst : j.last = none → a = s.dev.rd F.CD_ENCn_SKEIN_ADDR n * 32 := fun hl => by
        unfold a
        rw [hl]
      obtain ⟨e, hc, hopen⟩ := Dev.openBuffer_reads (d := { s.dev with bus := bus }) (n := n) (a := a) hst
        (fun l hl => ⟨(hlast l hl).1, hnext l hl ▸ (hlast l hl).2.1, (hlast l hl).2.2⟩) hfirst hnext hpass hgood
      have hkick : (s.dev.touch m).encodeKick n = (s.dev.touch m).openBuffer n := by
        rw [Dev.encodeKick, if_neg (by rw [htouch]; exact not_not.mpr hst), if_neg (by rw [htouch]; exact Bool.eq_false_iff.mp hfront)]
      rw [← htouch] at hc hopen
      have hopen' : (s.dev.touch m).openBuffer n = if (sliceNat b 0xC 4).testBit 0 ∧ 64 ≤ sliceNat b 8 4 ∧ sliceNat b 8 4 ≤ 16777216 then
        (e.setEnc n fun j => { j with desc := some a }).wr F.CD_ENCn_STAT_STATE n 1 else e := by
        rw [hopen, htouch]
        rfl
      have hrise : keysRising 0 e.regs = true := hc.rising (by rw [htouch]; exact hinv.regs)
      have hcdc : e.cdc = s.dev.cdc := by rw [hc.parts .cdc (by decide), htouch]
      refine ⟨fun hbit hmin hmax => ?_, fun heven => ?_⟩
      · rw [if_pos ⟨hbit, hmin, hmax⟩] at hopen'
        have hcs : (s.dev.touch m).ChangesOnly ((e.setEnc n fun j => { j with desc := some a }).wr F.CD_ENCn_STAT_STATE n 1) [.cdc, .drm] [R.CD_ENCn_STAT.addr n] :=
          .wr (.setCdc (hc.mono (by simp) (by simp)) (by decide)) List.mem_cons_self
        refine ⟨_, .writes (fun d => d.encodeKick n) rfl htakes (hkick.trans hopen') hcs.after_touch, ?_, ?_⟩
        · exact Dev.rd_wr_lt (f := F.CD_ENCn_STAT_STATE) _ (by decide) (by decide) hrise
        · have henc : e.enc n = j := by rw [Dev.enc, hcdc]; rfl
          have hset := Dev.enc_setEnc (d := e) (by rw [hcdc]; exact hinv.enc) n fun j => { j with desc := some a }
          rw [henc] at hset
          exact hset
      · have hbit : (sliceNat b 0xC 4).testBit 0 = false := by simp [Nat.testBit_zero, heven]
        rw [if_neg (by rw [hbit]; simp)] at hopen'
        refine ⟨_, .writes (fun d => d.encodeKick n) rfl htakes (hkick.trans hopen') (hc.mono (by simp) (by simp)).after_touch, ?_⟩
        refine (hc.rd (by simp)).trans ?_
        rw [htouch]
        exact hst
  case gives =>
    intro n a s j room regs hinv hfront hst hdesc
    refine ⟨fun hroom => ?_, fun hroom hfailed => ?_, fun hroom hfailed => ?_⟩
    · exact bufferFull_runs hinv hfront hst hdesc hroom
    · exact encodeEnd_runs hinv hfront hst hdesc (c := .encodeDone n) (failed := false) rfl hroom hfailed
    · exact encodeEnd_runs hinv hfront hst hdesc (c := .encodeReadFail n) (failed := true) rfl hroom hfailed

/-- A line window that begins within a granule; the window's port has read that granule and found a word miscorrected, and strip 0's band is decoded. -/
def Dev.windowMisfetched : Dev :=
  { Dev.casting with
    pat.loaded.gauge.windowBase := 64
    pat.loaded.gauge.windowLines := 16
    drm.fetched := [{ rq := 2, g := 0, wrong := [0] }]
    cdc.pages := [{ uid := 1, addr := 0, pageId := 0, lines := 1, mask := 1, start := some 0 }]
    cdc.bufs := [{ strip := 0, lane := 0, uid := 1, band := 0, done := true, data := List.replicate 1024 0 }] }

theorem Dev.windowMisfetched_inv : Dev.windowMisfetched.Inv := { Dev.casting_inv with }

/-- Refutes O26: a line's first granule, which the window holds in part alone, is stored with the word that came back miscorrected, a free value. -/
theorem not_bandDecoding : ¬ Obligations.BandDecoding := by
  unfold Obligations.BandDecoding
  intro ⟨_, _, _, writes⟩
  obtain ⟨-, stores⟩ := writes 0 { uid := 1, addr := 0, pageId := 0, lines := 1, mask := 1, start := some 0 } 0 ⟨Dev.windowMisfetched, []⟩ Dev.windowMisfetched_inv rfl
    (by decide +kernel) rfl (by decide +kernel)
  obtain ⟨u, hruns, -⟩ := stores { strip := 0, lane := 0, uid := 1, band := 0, done := true, data := List.replicate 1024 0 } 64 (by decide +kernel) (by decide +kernel)
    (by decide +kernel) (by decide +kernel) (by decide +kernel) rfl
  have hfree : u.dev.freeCtr = Dev.windowMisfetched.freeCtr := hruns.parts .freeCtr (by decide)
  exact absurd (State.eq_after hruns.next ▸ hfree) (by decide +kernel)

/-- Nozzle health has asked for a change of a nozzle that no head has: its entry's address is that of NZ_AUDIT, bits 15 to 12. -/
def Dev.strayChange : Dev :=
  { Dev.casting with
    pat.loaded.fabric := [(0x0F81, 0x0881)]
    nzh.changes := [{ nz := (R.NZ_AUDIT.base - R.LA_SUBST.base) * 2 + 3, entry := 1, source := 0, kind := 0, hit := 0, defl := 0 }] }

theorem Dev.strayChange_inv : Dev.strayChange.Inv := { Dev.casting_inv with }

/-- Refutes O45: the invariant does not bound the nozzle of a change, and one beyond the map moves the audit ring's BASE before its record is stored. -/
theorem not_substitutionMap : ¬ Obligations.SubstitutionMap := by
  unfold Obligations.SubstitutionMap
  intro ⟨applies, _⟩
  obtain ⟨⟨u, hruns, -, hstored⟩, -⟩ := applies ⟨Dev.strayChange, []⟩ Dev.strayChange_inv
  have hbyte : u.dev.byte 4104 = Dev.strayChange.byte 4104 := hstored (by decide +kernel) 4104 (by decide +kernel)
  exact absurd (State.eq_after hruns.next ▸ hbyte) (by decide +kernel)

end Sys2Proof.Machine
end

section
/-!
PROOFS. Pattern images, frames, settings and sensor I2C.
-/

namespace Sys2Proof.Machine

set_option Elab.async false

/-! ### PAT_STATUS -/

/-- STATE, ERR and SECTION of PAT_STATUS, written together. -/
def Dev.showImage (d : Dev) (state err sec : Nat) : Dev := ((d.patState state).wr F.PAT_STATUS_ERR 0 err).wr F.PAT_STATUS_SECTION 0 sec

theorem Dev.ChangesOnly.showImage {d e : Dev} {ps : List Part} {rs : List Nat} (h : d.ChangesOnly e ps rs) (hr : R.PAT_STATUS.addr 0 ∈ rs) (state err sec : Nat) :
    d.ChangesOnly (e.showImage state err sec) ps rs := .wr (.wr (.wr h hr) hr) hr

section
variable {d : Dev} (hr : keysRising 0 d.regs = true)
include hr

theorem Dev.showImage_reads {state : Nat} (hs : state < 8) (err sec : Nat) :
    (d.showImage state err sec).rd F.PAT_STATUS_STATE = state ∧ (d.showImage state err sec).rd F.PAT_STATUS_ERR = err % 256 ∧
      (d.showImage state err sec).rd F.PAT_STATUS_SECTION = sec % 64 := by
  have h1 := Dev.wr_rising d F.PAT_STATUS_STATE 0 state hr
  have h2 := Dev.wr_rising _ F.PAT_STATUS_ERR 0 err h1
  refine ⟨?_, ?_, Dev.rd_wr_self _ F.PAT_STATUS_SECTION 0 sec (by decide) h2⟩
  · exact (Dev.rd_wr_beside (f := F.PAT_STATUS_SECTION) (g := F.PAT_STATUS_STATE) ⟨rfl, by decide, by decide⟩ 0 sec h2).trans
      ((Dev.rd_wr_beside (f := F.PAT_STATUS_ERR) (g := F.PAT_STATUS_STATE) ⟨rfl, by decide, by decide⟩ 0 err h1).trans
        (Dev.rd_wr_lt (f := F.PAT_STATUS_STATE) 0 hs (by decide) hr))
  · exact (Dev.rd_wr_beside (f := F.PAT_STATUS_SECTION) (g := F.PAT_STATUS_ERR) ⟨rfl, by decide, by decide⟩ 0 sec h2).trans
      (Dev.rd_wr_self _ F.PAT_STATUS_ERR 0 err (by decide) h1)

end

/-! ### Cast-on fails in an early step -/

theorem Dev.ChangesOnly.setLog {d e : Dev} {ps : List Part} {rs : List Nat} (h : d.ChangesOnly e ps rs) (hp : Part.vlt ∈ ps)
    (hr : ∀ a ∈ castLogRegs, a ∈ rs) (l : VLog) : d.ChangesOnly (e.setLog l) ps rs := by
  have hgroup (bs : List Byte) : d.ChangesOnly (e.putGroup 0 bs) ps rs := .ite h (.setVlt h hp)
  have hstat := hr (R.SYS_CASTON_STAT.addr 0) (by decide)
  exact .wrB (.wr (.wr (.setReg (.wr (.wr (hgroup _) (hr _ (by decide))) (hr _ (by decide))) (hr _ (by decide))) hstat) hstat) hstat

theorem Dev.rd_setLog_code {d : Dev} (hr : keysRising 0 d.regs = true) {l : VLog} (hl : l.code < 256) : (d.setLog l).rd F.SYS_CASTON_STAT_CODE = l.code := by
  have hgroup (bs : List Byte) : keysRising 0 (d.putGroup 0 bs).regs = true := by
    unfold Dev.putGroup
    split <;> exact hr
  have h0 := Dev.setReg_rising _ R.SYS_CLOG_DIR 0 l.dir (Dev.wr_rising _ F.SYS_CLOG_ATTEMPTS_ATTEMPTS 0 l.attempts
    (Dev.wr_rising _ F.SYS_CLOG_COUNT_COUNT 0 l.count (hgroup (pack [(4, l.count), (8, l.attempts), (8, l.dir), (1, l.lastStep), (1, l.code), (2, 0)]))))
  have h1 := Dev.wr_rising _ F.SYS_CASTON_STAT_CODE 0 l.code h0
  have h2 := Dev.wr_rising _ F.SYS_CASTON_STAT_LAST_STEP 0 l.lastStep h1
  exact (Dev.rd_wr_beside (f := F.SYS_CASTON_STAT_DEGRADED) (g := F.SYS_CASTON_STAT_CODE) ⟨rfl, by decide, by decide⟩ 0 _ h2).trans
    ((Dev.rd_wr_beside (f := F.SYS_CASTON_STAT_LAST_STEP) (g := F.SYS_CASTON_STAT_CODE) ⟨rfl, by decide, by decide⟩ 0 _ h1).trans
      (Dev.rd_wr_lt (f := F.SYS_CASTON_STAT_CODE) 0 hl (by decide) h0))

theorem Dev.haltCastOn_spec {d : Dev} (hr : keysRising 0 d.regs = true) :
    d.ChangesOnly d.haltCastOn [.sys] [R.SYS_CASTON_STAT.addr 0] ∧ d.haltCastOn.sys.castOn = false ∧
      d.haltCastOn.rd F.SYS_CASTON_STAT_CODE = d.rd F.SYS_CASTON_STAT_CODE := by
  have hhalt : ({ d with sys.castOn := false }.wr F.SYS_CASTON_STAT_STATE 0 2).rd F.SYS_CASTON_STAT_CODE = d.rd F.SYS_CASTON_STAT_CODE :=
    Dev.rd_wr_beside (d := { d with sys.castOn := false }) (f := F.SYS_CASTON_STAT_STATE) (g := F.SYS_CASTON_STAT_CODE) ⟨rfl, by decide, by decide⟩ 0 2 hr
  have hc : d.ChangesOnly ({ d with sys.castOn := false }.wr F.SYS_CASTON_STAT_STATE 0 2) [.sys] [R.SYS_CASTON_STAT.addr 0] :=
    .wr (.setSys .keep List.mem_cons_self) List.mem_cons_self
  by_cases hb : d.sys.bindOff.isSome
  · have he : d.haltCastOn = ({ d with sys.castOn := false }.wr F.SYS_CASTON_STAT_STATE 0 2).startBindOff := if_pos hb
    rw [he]
    exact ⟨.wr (.setSys hc List.mem_cons_self) List.mem_cons_self, rfl,
      (Dev.rd_wr_beside (f := F.SYS_CASTON_STAT_STATE) (g := F.SYS_CASTON_STAT_CODE) ⟨rfl, by decide, by decide⟩ 0 3 (hc.rising hr)).trans hhalt⟩
  · have he : d.haltCastOn = { d with sys.castOn := false }.wr F.SYS_CASTON_STAT_STATE 0 2 := if_neg hb
    rw [he]
    exact ⟨hc, rfl, hhalt⟩

/-- No policy is in force before a Pattern is applied: a step up to 5 that fails stops cast-on with its code (R63). -/
theorem Dev.castFail_early (d : Dev) {step : Nat} (h : step ≤ 5) : ∃ l : VLog, l.code = 16 * step + 1 ∧ d.castFail step = (d.setLog l).haltCastOn := by
  have hstop : d.castAction step = .stop := by simp [Dev.castAction, h]
  refine ⟨{ d.log with
    attempts := fieldSet (4 * step - 4) 4 d.log.attempts (min (fieldOf (4 * step - 4) 4 d.log.attempts + 1) 15), lastStep := step, code := 16 * step + 1 }, rfl, ?_⟩
  unfold Dev.castFail
  simp only [hstop, reduceCtorEq, and_false, if_false]

theorem Dev.castFail_early_spec {d : Dev} (hr : keysRising 0 d.regs = true) {step : Nat} (h : step ≤ 5) :
    d.ChangesOnly (d.castFail step) [.sys, .vlt] castLogRegs ∧ (d.castFail step).sys.castOn = false ∧
      (d.castFail step).rd F.SYS_CASTON_STAT_CODE = 16 * step + 1 ∧ (d.castFail step).pat = d.pat := by
  obtain ⟨l, hcode, he⟩ := d.castFail_early h
  have hlog : d.ChangesOnly (d.setLog l) [.sys, .vlt] castLogRegs := .setLog .keep (by decide) (fun _ => id) l
  obtain ⟨hhalt, hoff, hsame⟩ := Dev.haltCastOn_spec (hlog.rising hr)
  have hall := hlog.trans (hhalt.mono (by decide) (by decide))
  rw [he]
  exact ⟨hall, hoff, hsame.trans ((Dev.rd_setLog_code hr (by omega)).trans hcode), hall.parts .pat (by decide)⟩

/-! ### A source that fails (R49, R50) -/

section
variable {d : Dev} (hr : keysRising 0 d.regs = true) {err sec : Nat} (herr : err < 256) (hsec : sec < 64)

/-- The source's verification ends, and ERR and SECTION show why. -/
def Dev.sourceShows (d : Dev) (err sec : Nat) : Dev := ({ d with pat.verify := none }.wr F.PAT_STATUS_ERR 0 err).wr F.PAT_STATUS_SECTION 0 sec

theorem Dev.sourceFails_eq (d : Dev) (err sec : Nat) : d.sourceFails err sec =
    if (d.sourceShows err sec).rd F.PAT_STATUS_SOURCE = 1 then ((d.sourceShows err sec).wr F.PAT_STATUS_SOURCE 0 2).patState 1
    else ((d.sourceShows err sec).patState 5).castFail 5 := rfl

include hr herr hsec in
theorem Dev.sourceShows_spec : d.ChangesOnly (d.sourceShows err sec) [.pat] [R.PAT_STATUS.addr 0] ∧
    (d.sourceShows err sec).rd F.PAT_STATUS_ERR = err ∧ (d.sourceShows err sec).rd F.PAT_STATUS_SECTION = sec ∧
      (d.sourceShows err sec).rd F.PAT_STATUS_SOURCE = d.rd F.PAT_STATUS_SOURCE := by
  have h1 := Dev.wr_rising { d with pat.verify := none } F.PAT_STATUS_ERR 0 err hr
  refine ⟨.wr (.wr (.setPat .keep List.mem_cons_self) List.mem_cons_self) List.mem_cons_self, ?_, Dev.rd_wr_lt (f := F.PAT_STATUS_SECTION) 0 hsec (by decide) h1, ?_⟩
  · exact (Dev.rd_wr_beside (f := F.PAT_STATUS_SECTION) (g := F.PAT_STATUS_ERR) ⟨rfl, by decide, by decide⟩ 0 sec h1).trans
      (Dev.rd_wr_lt (d := { d with pat.verify := none }) (f := F.PAT_STATUS_ERR) 0 herr (by decide) hr)
  · exact (Dev.rd_wr_beside (f := F.PAT_STATUS_SECTION) (g := F.PAT_STATUS_SOURCE) ⟨rfl, by decide, by decide⟩ 0 sec h1).trans
      (Dev.rd_wr_beside (d := { d with pat.verify := none }) (f := F.PAT_STATUS_ERR) (g := F.PAT_STATUS_SOURCE) ⟨rfl, by decide, by decide⟩ 0 err hr)

include hr herr hsec in
/-- Slot A fails: slot B is read. -/
theorem Dev.sourceFails_slotA (h : d.rd F.PAT_STATUS_SOURCE = 1) :
    d.ChangesOnly (d.sourceFails err sec) [.pat] [R.PAT_STATUS.addr 0] ∧ (d.sourceFails err sec).pat = { d.pat with verify := none } ∧
      (d.sourceFails err sec).rd F.PAT_STATUS_ERR = err ∧ (d.sourceFails err sec).rd F.PAT_STATUS_SECTION = sec ∧
      (d.sourceFails err sec).rd F.PAT_STATUS_SOURCE = 2 ∧ (d.sourceFails err sec).rd F.PAT_STATUS_STATE = 1 := by
  obtain ⟨hc, hshown, hsection, hsource⟩ := Dev.sourceShows_spec hr herr hsec
  have h0 := hc.rising hr
  have h1 := Dev.wr_rising _ F.PAT_STATUS_SOURCE 0 2 h0
  have hkeep (g : Fld) (hg : F.PAT_STATUS_STATE.Beside g) (hg' : F.PAT_STATUS_SOURCE.Beside g) :
      (((d.sourceShows err sec).wr F.PAT_STATUS_SOURCE 0 2).patState 1).rd g = (d.sourceShows err sec).rd g :=
    (Dev.rd_wr_beside hg 0 1 h1).trans (Dev.rd_wr_beside hg' 0 2 h0)
  rw [Dev.sourceFails_eq, if_pos (hsource.trans h)]
  exact ⟨.wr (.wr hc List.mem_cons_self) List.mem_cons_self, rfl, (hkeep F.PAT_STATUS_ERR ⟨rfl, by decide, by decide⟩ ⟨rfl, by decide, by decide⟩).trans hshown,
    (hkeep F.PAT_STATUS_SECTION ⟨rfl, by decide, by decide⟩ ⟨rfl, by decide, by decide⟩).trans hsection,
    (Dev.rd_wr_beside (f := F.PAT_STATUS_STATE) (g := F.PAT_STATUS_SOURCE) ⟨rfl, by decide, by decide⟩ 0 1 h1).trans
      (Dev.rd_wr_lt (f := F.PAT_STATUS_SOURCE) (v := 2) 0 (by decide) (by decide) h0),
    Dev.rd_wr_lt (f := F.PAT_STATUS_STATE) (v := 1) 0 (by decide) (by decide) h1⟩

include hr herr hsec in
/-- Another source fails: step 5 fails, and cast-on stops. -/
theorem Dev.sourceFails_other (h : d.rd F.PAT_STATUS_SOURCE ≠ 1) :
    d.ChangesOnly (d.sourceFails err sec) [.pat, .sys, .vlt] (R.PAT_STATUS.addr 0 :: castLogRegs) ∧ (d.sourceFails err sec).pat = { d.pat with verify := none } ∧
      (d.sourceFails err sec).rd F.PAT_STATUS_ERR = err ∧ (d.sourceFails err sec).rd F.PAT_STATUS_SECTION = sec ∧
      (d.sourceFails err sec).rd F.PAT_STATUS_STATE = 5 ∧ (d.sourceFails err sec).sys.castOn = false ∧
      (d.sourceFails err sec).rd F.SYS_CASTON_STAT_CODE = 0x51 := by
  obtain ⟨hc, hshown, hsection, hsource⟩ := Dev.sourceShows_spec hr herr hsec
  have h0 := hc.rising hr
  have hfive : d.ChangesOnly ((d.sourceShows err sec).patState 5) [.pat] [R.PAT_STATUS.addr 0] := .wr hc List.mem_cons_self
  obtain ⟨hfail, hoff, hcode, hpat⟩ := Dev.castFail_early_spec (hfive.rising hr) (step := 5) (le_refl 5)
  rw [Dev.sourceFails_eq, if_neg fun hne => h (hsource.symm.trans hne)]
  exact ⟨.trans (hfive.mono (by decide) (by decide)) (hfail.mono (by decide) fun _ => List.mem_cons_of_mem _), hpat,
    (hfail.rd (by decide)).trans ((Dev.rd_wr_beside (f := F.PAT_STATUS_STATE) (g := F.PAT_STATUS_ERR) ⟨rfl, by decide, by decide⟩ 0 5 h0).trans hshown),
    (hfail.rd (by decide)).trans ((Dev.rd_wr_beside (f := F.PAT_STATUS_STATE) (g := F.PAT_STATUS_SECTION) ⟨rfl, by decide, by decide⟩ 0 5 h0).trans hsection),
    (hfail.rd (by decide)).trans (Dev.rd_wr_lt (f := F.PAT_STATUS_STATE) (v := 5) 0 (by decide) (by decide) h0), hoff, hcode⟩

end

/-! ### An image arrives (R49 to R52) -/

/-- The device with what a flash source sent in the staging area. -/
def Dev.withImage (d : Dev) (img : List Byte) : Dev :=
  if decide (2 < d.rd F.PAT_STATUS_SOURCE) then d else { d with pat.staging := storeBytes [] 0 (img.take 4194304) }

/-- The image that a source gives: the staged one of the mailbox, or what came. -/
def Dev.sourceImage (d : Dev) (img : List Byte) : List Byte :=
  if decide (2 < d.rd F.PAT_STATUS_SOURCE) then d.stagedBytes (max 64 (d.rd F.PAT_MBOX_LEN_LENGTH)) else img

/-- What the end of verification does with a full image. -/
def Dev.judge (d : Dev) : Except (Nat × Nat) Image → Dev
  | .error (err, sec) => d.sourceFails err sec
  | .ok x => d.applyFull x.pattern

/-- The length that the mailbox states. -/
def Dev.statedLength (d : Dev) : Option Nat := if decide (2 < d.rd F.PAT_STATUS_SOURCE) then some (d.rd F.PAT_MBOX_LEN_LENGTH) else none

theorem Dev.withImage_changes (d : Dev) (img : List Byte) : d.ChangesOnly (d.withImage img) [.pat] [] ∧ (d.withImage img).pat.applied = d.pat.applied ∧
    (d.withImage img).rd F.PAT_STATUS_SOURCE = d.rd F.PAT_STATUS_SOURCE := by
  unfold Dev.withImage
  split
  · exact ⟨.keep, rfl, rfl⟩
  · exact ⟨.setPat .keep (by decide), rfl, rfl⟩

section
variable {d : Dev} {src : ImageSource} (hload : d.loading = true) (hsrc : ImageSource.is src (d.rd F.PAT_STATUS_SOURCE) = true)
  (hgo : (decide (2 < d.rd F.PAT_STATUS_SOURCE) && d.pat.verify.isNone) = false) (img : List Byte)
include hload hsrc hgo

/-- A source that is read and is not waiting for GO hands its image over. -/
theorem Dev.imageArrived_eq (complete : Bool) : d.imageArrived src complete img =
    if !complete ∨ (d.sourceImage img).length < 64 then (d.withImage img).sourceFails 0x01 0
    else (d.withImage img).judge (d.verifyImage 0 (d.sourceImage img) d.statedLength) := by
  unfold Dev.imageArrived Dev.sourceImage Dev.withImage Dev.statedLength
  rw [hload, hsrc, if_neg (by decide)]
  cases hm : decide (2 < d.rd F.PAT_STATUS_SOURCE)
  · rfl
  · rw [hm, Bool.true_and] at hgo
    rw [if_neg (by simp [hgo])]
    rfl

theorem Dev.imageArrived_judged (hlen : 64 ≤ (d.sourceImage img).length) :
    d.imageArrived src true img = (d.withImage img).judge (d.verifyImage 0 (d.sourceImage img) d.statedLength) := by
  rw [Dev.imageArrived_eq hload hsrc hgo, if_neg (by simpa using hlen)]

theorem Dev.imageArrived_incomplete : d.imageArrived src false img = (d.withImage img).sourceFails 0x01 0 := by
  rw [Dev.imageArrived_eq hload hsrc hgo, if_pos (.inl (by decide))]

end

/-- The registers of `patternRegs` but PAT_ID. -/
def patternShown : List Nat := patternRegs.filter (· ≠ R.PAT_ID.addr 0)

theorem Dev.ChangesOnly.foldl_range {d : Dev} {ps : List Part} {rs : List Nat} {f : Dev → Nat → Dev} (n : Nat)
    (hf : ∀ e i, i < n → d.ChangesOnly e ps rs → d.ChangesOnly (f e i) ps rs) {e : Dev} (h : d.ChangesOnly e ps rs) :
    d.ChangesOnly ((List.range n).foldl f e) ps rs :=
  List.foldlRecOn (motive := fun e => d.ChangesOnly e ps rs) _ _ h fun e he i hi => hf e i (List.mem_range.mp hi) he

theorem pair_mem_patternShown : ∀ i < 2, R.PE_STAT.addr i ∈ patternShown ∧ R.PE_CLAIM.addr i ∈ patternShown ∧ R.DM_STAT.addr i ∈ patternShown ∧
    R.DM_SCRUB.addr i ∈ patternShown ∧ R.DM_REBUILD.addr i ∈ patternShown ∧ R.DM_SPEED_CTRL.addr i ∈ patternShown ∧ R.HST_PORT_STAT.addr i ∈ patternShown := by
  decide

theorem head_mem_patternShown : ∀ l < 32, R.VLT_HEAD_STAT.addr l ∈ patternShown := by decide

/-- After PAT_ID has been written the other registers of the Pattern are. -/
theorem Dev.loadPattern_changes (d : Dev) : (d.wr F.PAT_ID_PATTERN_ID 0 d.pat.loaded.id).ChangesOnly d.loadPattern [] patternShown := by
  unfold Dev.loadPattern
  refine .foldl_range 32 (fun e l hl h => .wrB h (head_mem_patternShown l hl)) ?_
  refine .foldl_range 2 (fun e q hq h => .wrB h (pair_mem_patternShown q hq).2.2.2.2.2.2) ?_
  refine .foldl_range 2 (fun e ch hch h => ?_) ?_
  · obtain ⟨-, -, hstat, hscrub, hrebuild, hspeed, -⟩ := pair_mem_patternShown ch hch
    exact .wr (.wr (.wr (.wr (.wr h hstat) hstat) hscrub) hrebuild) hspeed
  refine .foldl_range 2 (fun e en hen h => ?_) ?_
  · obtain ⟨hstat, hclaim, -⟩ := pair_mem_patternShown en hen
    exact .ite (.wrB h hstat) (.wr (.wrB (.wr (.wrB h hstat) hclaim) hclaim) hclaim)
  exact .wr (.wr (.wr (.wr (.wrB (.wr .keep (by decide)) (by decide)) (by decide)) (by decide)) (by decide)) (by decide)

theorem Dev.applyFull_spec {d : Dev} (hr : keysRising 0 d.regs = true) (p : Pattern) :
    d.ChangesOnly (d.applyFull p) [.pat] patternRegs ∧ (d.applyFull p).pat = { d.pat with applied := true, loaded := p, verify := none } ∧
      (d.applyFull p).rd F.PAT_STATUS_STATE = 4 ∧ (d.applyFull p).rd F.PAT_STATUS_ERR = 0 ∧ (d.applyFull p).rd F.PAT_STATUS_SECTION = 0 ∧
      (d.applyFull p).rd F.PAT_ID_PATTERN_ID = p.id % 2 ^ 64 := by
  have he : d.applyFull p = ({ d with pat.applied := true, pat.loaded := p, pat.verify := none }.loadPattern).showImage 4 0 0 := rfl
  have hid : d.ChangesOnly ({ d with pat.applied := true, pat.loaded := p, pat.verify := none }.wr F.PAT_ID_PATTERN_ID 0 p.id) [.pat] patternRegs :=
    .wr (.setPat .keep List.mem_cons_self) (by decide)
  have hload := Dev.loadPattern_changes { d with pat.applied := true, pat.loaded := p, pat.verify := none }
  have hshow := hload.showImage (by decide) 4 0 0
  have hall := hid.trans (hshow.mono nofun fun a ha => (List.mem_filter.mp ha).1)
  obtain ⟨hstate, herr, hsec⟩ := Dev.showImage_reads (hload.rising (hid.rising hr)) (state := 4) (by decide) 0 0
  rw [he]
  exact ⟨hall, hshow.parts .pat nofun, hstate, herr, hsec, (hshow.rd (by decide)).trans
    (Dev.rd_wr_self { d with pat.applied := true, pat.loaded := p, pat.verify := none } F.PAT_ID_PATTERN_ID 0 p.id (by decide) hr)⟩

theorem Dev.not_applied_of_loading {d : Dev} (h : d.loading = true) : d.pat.applied = false := by
  simp only [Dev.loading, Bool.and_eq_true, Bool.not_eq_true'] at h
  exact h.2.2

theorem Dev.awaitsGo_iff {d : Dev} : d.awaitsGo = true ↔ d.loading = true ∧ 2 < d.rd F.PAT_STATUS_SOURCE ∧ d.pat.verify = none := by
  simp only [Dev.awaitsGo, Bool.and_eq_true, decide_eq_true_eq, Option.isNone_iff_eq_none]

section
variable {src : ImageSource} {s : State} (hinv : s.Inv) (hload : s.dev.loading = true) (hsrc : ImageSource.is src (s.dev.rd F.PAT_STATUS_SOURCE) = true)
  (hgo : (decide (2 < s.dev.rd F.PAT_STATUS_SOURCE) && s.dev.pat.verify.isNone) = false) (img : List Byte)
include hinv hload hsrc hgo

theorem image_applied (hlen : 64 ≤ (s.dev.sourceImage img).length) {x : Image} (hx : s.dev.verifyImage 0 (s.dev.sourceImage img) s.dev.statedLength = .ok x) :
    ∃ u, Runs (.patternImageArrived src true img) s u [.pat] patternRegs ∧ u.dev.pat.applied = true ∧
      u.dev.pat.loaded = x.pattern ∧ u.dev.pat.verify = none ∧ u.dev.rd F.PAT_STATUS_STATE = 4 ∧ u.dev.rd F.PAT_STATUS_ERR = 0 ∧
      u.dev.rd F.PAT_STATUS_SECTION = 0 ∧ u.dev.rd F.PAT_ID_PATTERN_ID = x.pattern.id % 2 ^ 64 := by
  have he : s.dev.imageArrived src true img = (s.dev.withImage img).applyFull x.pattern := by
    rw [Dev.imageArrived_judged hload hsrc hgo img hlen, hx, Dev.judge]
  obtain ⟨hstage, -, -⟩ := s.dev.withImage_changes img
  obtain ⟨hc, hpat, hstate, herr, hsec, hid⟩ := Dev.applyFull_spec (hstage.rising hinv.regs) x.pattern
  refine ⟨_, .act (fun d => d.imageArrived src true img) rfl he ((hstage.mono (by decide) nofun).trans hc), ?_, ?_, ?_, hstate, herr, hsec, hid⟩
  all_goals exact congrArg _ hpat

theorem image_fails_slotA (hlen : 64 ≤ (s.dev.sourceImage img).length) {err sec : Nat}
    (hx : s.dev.verifyImage 0 (s.dev.sourceImage img) s.dev.statedLength = .error (err, sec)) (herr : err < 256) (hsec : sec < 64)
    (hslot : s.dev.rd F.PAT_STATUS_SOURCE = 1) :
    ∃ u, Runs (.patternImageArrived src true img) s u [.pat] [R.PAT_STATUS.addr 0] ∧ u.dev.pat.applied = false ∧
      u.dev.rd F.PAT_STATUS_ERR = err ∧ u.dev.rd F.PAT_STATUS_SECTION = sec ∧ u.dev.rd F.PAT_STATUS_SOURCE = 2 ∧
      u.dev.rd F.PAT_STATUS_STATE = 1 := by
  have he : s.dev.imageArrived src true img = (s.dev.withImage img).sourceFails err sec := by
    rw [Dev.imageArrived_judged hload hsrc hgo img hlen, hx, Dev.judge]
  obtain ⟨hstage, happlied, hsame⟩ := s.dev.withImage_changes img
  obtain ⟨hc, hpat, h⟩ := Dev.sourceFails_slotA (hstage.rising hinv.regs) herr hsec (hsame.trans hslot)
  exact ⟨_, .act (fun d => d.imageArrived src true img) rfl he ((hstage.mono (by decide) nofun).trans hc),
    ((congrArg Pat.applied hpat).trans happlied).trans (Dev.not_applied_of_loading hload), h⟩

theorem image_fails_other (hlen : 64 ≤ (s.dev.sourceImage img).length) {err sec : Nat}
    (hx : s.dev.verifyImage 0 (s.dev.sourceImage img) s.dev.statedLength = .error (err, sec)) (herr : err < 256) (hsec : sec < 64)
    (hslot : s.dev.rd F.PAT_STATUS_SOURCE ≠ 1) :
    ∃ u, Runs (.patternImageArrived src true img) s u [.pat, .sys, .vlt] (R.PAT_STATUS.addr 0 :: castLogRegs) ∧ u.dev.pat.applied = false ∧
      u.dev.rd F.PAT_STATUS_ERR = err ∧ u.dev.rd F.PAT_STATUS_SECTION = sec ∧ u.dev.rd F.PAT_STATUS_STATE = 5 ∧
      u.dev.sys.castOn = false ∧ u.dev.rd F.SYS_CASTON_STAT_CODE = 0x51 := by
  have he : s.dev.imageArrived src true img = (s.dev.withImage img).sourceFails err sec := by
    rw [Dev.imageArrived_judged hload hsrc hgo img hlen, hx, Dev.judge]
  obtain ⟨hstage, happlied, hsame⟩ := s.dev.withImage_changes img
  obtain ⟨hc, hpat, h⟩ := Dev.sourceFails_other (hstage.rising hinv.regs) herr hsec fun h => hslot (hsame.symm.trans h)
  exact ⟨_, .act (fun d => d.imageArrived src true img) rfl he ((hstage.mono (by decide) nofun).trans hc),
    ((congrArg Pat.applied hpat).trans happlied).trans (Dev.not_applied_of_loading hload), h⟩

theorem image_incomplete_slotA (hslot : s.dev.rd F.PAT_STATUS_SOURCE = 1) :
    ∃ u, Runs (.patternImageArrived src false img) s u [.pat] [R.PAT_STATUS.addr 0] ∧ u.dev.rd F.PAT_STATUS_ERR = 1 ∧
      u.dev.rd F.PAT_STATUS_SOURCE = 2 ∧ u.dev.rd F.PAT_STATUS_STATE = 1 := by
  have he := Dev.imageArrived_incomplete hload hsrc hgo img
  obtain ⟨hstage, -, hsame⟩ := s.dev.withImage_changes img
  obtain ⟨hc, -, herr, -, h⟩ := Dev.sourceFails_slotA (hstage.rising hinv.regs) (err := 1) (sec := 0) (by decide) (by decide) (hsame.trans hslot)
  exact ⟨_, .act (fun d => d.imageArrived src false img) rfl he ((hstage.mono (by decide) nofun).trans hc), herr, h⟩

end

/-! ### The mailbox (R51, R52, R56) -/

section
variable {s : State} (hinv : s.Inv) (m : Master)
include hinv

theorem mboxTimeout_fails (hwait : s.dev.awaitsGo = true) :
    ∃ u, Runs .mboxTimeout s u [.pat, .sys, .vlt] (R.PAT_STATUS.addr 0 :: castLogRegs) ∧ u.dev.rd F.PAT_STATUS_ERR = 1 ∧
      u.dev.rd F.PAT_STATUS_STATE = 5 ∧ u.dev.sys.castOn = false ∧ u.dev.rd F.SYS_CASTON_STAT_CODE = 0x51 := by
  obtain ⟨-, hmbox, -⟩ := Dev.awaitsGo_iff.mp hwait
  obtain ⟨hc, -, herr, -, h⟩ := Dev.sourceFails_other hinv.regs (err := 1) (sec := 0) (by decide) (by decide) (by omega)
  exact ⟨_, .act Dev.mboxTimeout rfl (if_pos hwait) hc, herr, h⟩

end

/-! ### The end of a re-pattern (R57) -/

/-- To whom the end of a re-pattern is posted. -/
def Verify.who (v : Verify) : Dest := .secureAnd (if v.by0 then some 0 else if v.by1 then some 1 else none)

theorem Dev.repatterning_eq {d : Dev} {v : Verify} (h : d.pat.verify = some v) : d.repatterning = v.repattern := by rw [Dev.repatterning, h]

theorem Dev.repatterning_some {d : Dev} (h : d.repatterning = true) : ∃ v, d.pat.verify = some v ∧ v.repattern = true := by
  unfold Dev.repatterning at h
  split at h
  next v hv => exact ⟨v, hv, h⟩
  next => cases h

/-- The re-pattern is over, and held pages go on. -/
def Dev.letPages (d : Dev) (budget : Budget) : Dev :=
  { d with pat.loaded.budget := budget, pat.verify := none, pat.hold := false }.mapPages fun p => { p with held := false }

theorem Dev.letPages_changes (d : Dev) (budget : Budget) : d.ChangesOnly (d.letPages budget) [.pat, .cdc] [] := .setCdc (.setPat .keep (by decide)) (by decide)

theorem Dev.letPages_event (d : Dev) (budget : Budget) (t : Dest) (code : Nat) (l : List (Nat × Nat)) : (d.letPages budget).event t code l = d.event t code l := rfl

theorem Dev.repatternFails_eq {d : Dev} {v : Verify} (h : d.pat.verify = some v) (err sec : Nat) :
    d.repatternFails err sec = ((d.letPages d.pat.loaded.budget).showImage 4 err sec).raise v.who 0x0204 [(1, err)] := by
  unfold Dev.repatternFails
  rw [h]
  rfl

theorem Dev.repatternFails_spec {d : Dev} (hr : keysRising 0 d.regs = true) {v : Verify} (h : d.pat.verify = some v) {err : Nat} (herr : err < 256) (sec : Nat) :
    let e := d.repatternFails err sec
    d.ChangesOnly e [.pat, .cdc, .raised] [R.PAT_STATUS.addr 0] ∧ e.pat = { d.pat with verify := none, hold := false } ∧
      e.rd F.PAT_STATUS_ERR = err ∧ e.rd F.PAT_STATUS_STATE = 4 ∧ e.raised = d.raised ++ [d.event v.who 0x0204 [(1, err)]] := by
  have hlet := (d.letPages_changes d.pat.loaded.budget)
  have hshow : (d.letPages d.pat.loaded.budget).ChangesOnly ((d.letPages d.pat.loaded.budget).showImage 4 err sec) [] [R.PAT_STATUS.addr 0] :=
    .showImage .keep List.mem_cons_self 4 err sec
  obtain ⟨hstate, hshown, -⟩ := Dev.showImage_reads (hlet.rising hr) (state := 4) (by decide) err sec
  have hregs : ∀ f : Fld, (((d.letPages d.pat.loaded.budget).showImage 4 err sec).raise v.who 0x0204 [(1, err)]).rd f = ((d.letPages d.pat.loaded.budget).showImage 4 err sec).rd f :=
    fun f => Dev.rd_congr f 0 (Dev.raise_regs_quiet (by decide) ..)
  rw [Dev.repatternFails_eq h]
  refine ⟨?_, (Dev.raise_pat ..).trans rfl, (hregs _).trans (hshown.trans (Nat.mod_eq_of_lt herr)), (hregs _).trans hstate, ?_⟩
  · exact ((hlet.mono (by decide) nofun).trans (hshow.mono nofun fun _ => id)).raise (by decide) (.inl (by decide))
  · rw [Dev.raise_raised, hshow.event nofun (by decide)]
    rfl

/-! ### The mailbox's control register (R51, R52, R56) -/

section
variable {d : Dev} {m : Master} {val : Nat}

theorem Dev.wMboxCtrl_go {p : Fin 2} (h0 : setsBit val 0) (h1 : ¬ setsBit val 1) (hwait : d.awaitsGo = true) (hsrc : d.rd F.PAT_STATUS_SOURCE = p + 3)
    (hp : portOf m = some p) : d.wMboxCtrl m val = { d with pat.verify := some {} }.patState 2 := by
  obtain ⟨-, -, hnone⟩ := Dev.awaitsGo_iff.mp hwait
  have hrep : d.repatterning = false := by rw [Dev.repatterning, hnone]
  unfold Dev.wMboxCtrl
  simp [show val.testBit 0 = true from h0, show val.testBit 1 = false from by simpa using h1, hrep, hwait, hsrc, hp]

theorem Dev.wMboxCtrl_busy (h0 : setsBit val 0) (h1 : ¬ setsBit val 1) (hrep : d.repatterning = true) :
    d.wMboxCtrl m val = d.wrB F.PAT_STATUS_MBOX_BUSY 0 true := by
  unfold Dev.wMboxCtrl
  simp [show val.testBit 0 = true from h0, show val.testBit 1 = false from by simpa using h1, hrep]

theorem Dev.wMboxCtrl_abort_repattern {v : Verify} (h1 : setsBit val 1) (hv : d.pat.verify = some v) (hrep : v.repattern = true) (hck : v.checked = false) :
    d.wMboxCtrl m val = (if val.testBit 0 then d.wrB F.PAT_STATUS_MBOX_BUSY 0 true else d).repatternFails 0x0C 0 := by
  unfold Dev.wMboxCtrl
  cases h0 : val.testBit 0
  · simp [show val.testBit 1 = true from h1, hv, hrep, hck]
  · simp [show val.testBit 1 = true from h1, Dev.repatterning_eq hv, hv, hrep, hck]

theorem Dev.wMboxCtrl_abort_verify {v : Verify} (h1 : setsBit val 1) (hv : d.pat.verify = some v) (hrep : v.repattern = false) (hck : v.checked = false) :
    d.wMboxCtrl m val = d.sourceFails 0x0C 0 := by
  have hwait : d.awaitsGo = false := by simp [Dev.awaitsGo, hv]
  unfold Dev.wMboxCtrl
  simp [show val.testBit 1 = true from h1, Dev.repatterning_eq hv, hrep, hck, hwait, hv]

theorem Dev.wMboxCtrl_abort_read (h1 : setsBit val 1) (hv : d.pat.verify = none) (hload : d.loading = true) (hsrc : d.rd F.PAT_STATUS_SOURCE = 1) :
    d.wMboxCtrl m val = d.sourceFails 0x0C 0 := by
  have hwait : d.awaitsGo = false := by simp [Dev.awaitsGo, hsrc]
  have hrep : d.repatterning = false := by rw [Dev.repatterning, hv]
  unfold Dev.wMboxCtrl
  simp [show val.testBit 1 = true from h1, hrep, hwait, hv, hload, hsrc]

end

/-! ### The staging area -/

/-- An access to one word of a register lies within it. (`within` is unfolded as a function: applied to an address, the kernel would
compute the offset by counting down from the base of register space.) -/
theorem within_of_word {r : Reg} {addr off : Nat} {h : Hit} (hoff : addr - regSpace = off) (hle : regSpace ≤ addr) (hrow : h.row.reg.base = r.base)
    (hf : findReg off regTable = some h) : within r addr 4 = true := by
  have hlast : off + 4 - 1 - (4 - 1) % 4 = off := by omega
  suffices hw : ∀ w, w = within → w r addr 4 = true from hw _ rfl
  intro w hw
  delta within at hw
  subst hw
  beta_reduce
  rw [hoff, hlast, hf]
  exact decide_eq_true ⟨hle, hrow, hrow⟩

section
variable {i : Nat} (hi : i < 1048576)
include hi

theorem findReg_PAT_STAGING : findReg (R.PAT_STAGING.addr i) regTable = some ⟨⟨R.PAT_STAGING, [F.PAT_STAGING_BYTES]⟩, i, false⟩ := by
  have haddr : R.PAT_STAGING.addr i = R.PAT_STAGING.base + i * 4 := by simp [Reg.addr, R.PAT_STAGING, dimOffset]
  have hbase : R.PAT_STAGING.base = 0x2400000 := rfl
  have hbefore : ∀ row ∈ regTable.take 12, row.reg.top < 0x2400000 ∨ 0x2800000 ≤ row.reg.base := by decide +kernel
  have hdiv : i * 4 / 4 = i := by omega
  have hmod : i * 4 % 4 = 0 := by omega
  rw [findReg_drop 12 fun row hrow => by have := hbefore row hrow; omega]
  change findReg _ (⟨R.PAT_STAGING, _⟩ :: _) = _
  rw [findReg, haddr, show R.PAT_STAGING.locate (R.PAT_STAGING.base + i * 4) = some (i, false) by
    simp [Reg.locate, R.PAT_STAGING, Machine.locate, hdiv, hmod, hi]]

/-- A word of the staging area is stored there and nowhere else. -/
theorem Dev.regStore_staging {d : Dev} {m : Master} (ht : d.Takes m R.PAT_STAGING i) (val : Nat) :
    d.regStore m (regSpace + R.PAT_STAGING.addr i) 4 val = (d.touch m).wStaging (4 * i) 4 (val % 2 ^ 32) := by
  obtain ⟨hh, hpass⟩ := ht
  have haddr : R.PAT_STAGING.addr i = 0x2400000 + i * 4 := by simp [Reg.addr, R.PAT_STAGING, dimOffset]
  have hspan := Dev.spanCheck_four hpass (by rw [haddr]; omega)
  have hoff : regSpace + R.PAT_STAGING.addr i - regSpace = R.PAT_STAGING.addr i := Nat.add_sub_cancel_left ..
  have hslot : slotActiveWord (R.PAT_STAGING.addr i) 4 = none := by
    have : R.MF_SLOT_ACTIVE.base = 0x4000100 := rfl
    rw [slotActiveWord, haddr]
    exact if_neg (by omega)
  have hwrite : (d.touch m).write32 m (R.PAT_STAGING.addr i) val = (d.touch m).putReg m ⟨⟨R.PAT_STAGING, [F.PAT_STAGING_BYTES]⟩, i, false⟩ (val % 2 ^ 32) mask32 := by
    rw [Dev.write32, findReg_PAT_STAGING hi]
    rfl
  have hhear : ¬ (!d.hears m) = true := by rw [hh]; decide
  rw [Dev.regStore, if_neg hhear, hspan, hoff, hslot]
  exact hwrite

theorem within_PAT_STAGING : within R.PAT_STAGING (regSpace + R.PAT_STAGING.addr i) 4 = true :=
  within_of_word (Nat.add_sub_cancel_left ..) (Nat.le_add_right ..) rfl (findReg_PAT_STAGING hi)

end

/-- The bytes of a word stored. -/
theorem mapGet_storeWord {m : List Host.Cell} (hm : Memory.wf m = true) (a val k : Nat) : mapGet (storeBytes m a (leBytes 4 (val % 2 ^ 32))) k 0 =
    if a ≤ k ∧ k < a + 4 then BitVec.ofNat 8 (val / 2 ^ (8 * (k - a))) else mapGet m k 0 := by
  rw [leBytes_four_mod]
  split
  next hin =>
    obtain ⟨j, rfl⟩ := Nat.exists_eq_add_of_le hin.1
    rw [mapGet_storeBytes_in m a _ j (by rw [leBytes_length]; omega) hm, Nat.add_sub_cancel_left]
    simp [leBytes]
  next hout => exact mapGet_storeBytes_out m a k _ (by rw [leBytes_length]; omega)

section
variable {d : Dev} {m : Master} {val : Nat}

/-- Pages are held, and verification of a re-pattern image begins. -/
def Dev.beginRepattern (d : Dev) (m : Master) : Dev :=
  { d with pat.hold := true, pat.verify := some { repattern := true, by0 := decide (m = .p0), by1 := decide (m = .p1) } }

theorem Dev.wRepat_starts (h0 : setsBit val 0) (hrep : d.repatterning = false) (hstate : d.rd F.PAT_STATUS_STATE = 4) :
    d.wRepat m val = (d.beginRepattern m).patState 2 := by
  unfold Dev.wRepat
  rw [if_neg (by rw [h0]; decide), hrep, if_neg (by decide), if_neg (not_not_intro hstate)]
  rfl

theorem Dev.wRepat_busy (h0 : setsBit val 0) (hrep : d.repatterning = true) : d.wRepat m val = d.wrB F.PAT_STATUS_MBOX_BUSY 0 true := by
  unfold Dev.wRepat
  rw [if_neg (by rw [h0]; decide), hrep, if_pos rfl]

end

section
variable {s : State} (hinv : s.Inv) (m : Master) {val : Nat}
include hinv

/-! ### Writes of the mailbox's control register -/

theorem mboxGo_verifies (ht : s.dev.Takes m R.PAT_MBOX_CTRL 0) {p : Fin 2} (hp : portOf m = some p) (h0 : setsBit val 0) (h1 : ¬ setsBit val 1)
    (hwait : s.dev.awaitsGo = true) (hsrc : s.dev.rd F.PAT_STATUS_SOURCE = p + 3) :
    ∃ u, Runs (.mboxGo m val) s u [.bus, .pat] [R.PAT_STATUS.addr 0] ∧ u.dev.rd F.PAT_STATUS_STATE = 2 ∧
      u.dev.pat = { s.dev.pat with verify := some {} } := by
  obtain ⟨b, hb⟩ := s.dev.touch_bus m
  have he : (s.dev.touch m).wMboxCtrl m val = { s.dev with bus := b, pat.verify := some {} }.patState 2 := by
    rw [hb]
    exact Dev.wMboxCtrl_go (d := { s.dev with bus := b }) h0 h1 hwait hsrc hp
  have hbus : s.dev.ChangesOnly { s.dev with bus := b } [.bus, .pat] [R.PAT_STATUS.addr 0] := .setBus .keep (by decide)
  exact ⟨_, .writes (fun d => d.wMboxCtrl m val) rfl ht he (.wr (.setPat hbus (by decide)) List.mem_cons_self),
    Dev.rd_wr_lt (d := { s.dev with bus := b, pat.verify := some {} }) (f := F.PAT_STATUS_STATE) (v := 2) 0 (by decide) (by decide) hinv.regs, rfl⟩

theorem mboxGo_busy (ht : s.dev.Takes m R.PAT_MBOX_CTRL 0) (h0 : setsBit val 0) (h1 : ¬ setsBit val 1) (hrep : s.dev.repatterning = true) :
    ∃ u, Runs (.mboxGo m val) s u [.bus] [R.PAT_STATUS.addr 0] ∧ u.dev.rd F.PAT_STATUS_MBOX_BUSY = 1 := by
  obtain ⟨b, hb⟩ := s.dev.touch_bus m
  have he : (s.dev.touch m).wMboxCtrl m val = { s.dev with bus := b }.wrB F.PAT_STATUS_MBOX_BUSY 0 true := by
    rw [hb]
    exact Dev.wMboxCtrl_busy (d := { s.dev with bus := b }) h0 h1 hrep
  exact ⟨_, .writes (fun d => d.wMboxCtrl m val) rfl ht he (.wrB (.setBus .keep (by decide)) List.mem_cons_self),
    Dev.rd_wrB_self { s.dev with bus := b } F.PAT_STATUS_MBOX_BUSY 0 true (by decide) (by decide) hinv.regs⟩

theorem mboxAbort_repattern (ht : s.dev.Takes m R.PAT_MBOX_CTRL 0) {v : Verify} (h1 : setsBit val 1) (hv : s.dev.pat.verify = some v)
    (hrep : v.repattern = true) (hck : v.checked = false) :
    ∃ u, Runs (.mboxAbort m val) s u [.bus, .pat, .cdc, .raised] [R.PAT_STATUS.addr 0] ∧ u.dev.pat.verify = none ∧
      u.dev.pat.hold = false ∧ u.dev.rd F.PAT_STATUS_ERR = 0x0C ∧ u.dev.rd F.PAT_STATUS_STATE = 4 ∧
      u.dev.raised = s.dev.raised ++ [s.dev.event v.who 0x0204 [(1, 0x0C)]] := by
  obtain ⟨b, hb⟩ := s.dev.touch_bus m
  have he : (s.dev.touch m).wMboxCtrl m val =
      (if val.testBit 0 then { s.dev with bus := b }.wrB F.PAT_STATUS_MBOX_BUSY 0 true else { s.dev with bus := b }).repatternFails 0x0C 0 := by
    rw [hb]
    exact Dev.wMboxCtrl_abort_repattern (d := { s.dev with bus := b }) h1 hv hrep hck
  have hbusy : s.dev.ChangesOnly (if val.testBit 0 then { s.dev with bus := b }.wrB F.PAT_STATUS_MBOX_BUSY 0 true else { s.dev with bus := b })
      [.bus] [R.PAT_STATUS.addr 0] := .ite (.wrB (.setBus .keep (by decide)) List.mem_cons_self) (.setBus .keep (by decide))
  have hpat := hbusy.parts .pat (by decide)
  obtain ⟨hc, hafter, herr, hstate, hraised⟩ := Dev.repatternFails_spec (hbusy.rising hinv.regs) ((congrArg Pat.verify hpat).trans hv) (err := 0x0C) (by decide) 0
  have hevent := hbusy.event (by decide) (by decide) v.who 0x0204 [(1, 0x0C)]
  refine ⟨_, .writes (fun d => d.wMboxCtrl m val) rfl ht he ((hbusy.mono (by decide) fun _ => id).trans (hc.mono (by decide) fun _ => id)),
    congrArg Pat.verify hafter, congrArg Pat.hold hafter, herr, hstate, hraised.trans ?_⟩
  rw [hevent, show _ = s.dev.raised from hbusy.parts .raised (by decide)]

theorem mboxAbort_verify (ht : s.dev.Takes m R.PAT_MBOX_CTRL 0) {v : Verify} (h1 : setsBit val 1) (hv : s.dev.pat.verify = some v)
    (hrep : v.repattern = false) (hck : v.checked = false) (hsrc : s.dev.rd F.PAT_STATUS_SOURCE ≠ 1) :
    ∃ u, Runs (.mboxAbort m val) s u [.bus, .pat, .sys, .vlt] (R.PAT_STATUS.addr 0 :: castLogRegs) ∧ u.dev.pat.verify = none ∧
      u.dev.rd F.PAT_STATUS_ERR = 0x0C ∧ u.dev.rd F.PAT_STATUS_STATE = 5 ∧ u.dev.sys.castOn = false := by
  obtain ⟨b, hb⟩ := s.dev.touch_bus m
  have he : (s.dev.touch m).wMboxCtrl m val = { s.dev with bus := b }.sourceFails 0x0C 0 := by
    rw [hb]
    exact Dev.wMboxCtrl_abort_verify (d := { s.dev with bus := b }) h1 hv hrep hck
  have hbus : s.dev.ChangesOnly { s.dev with bus := b } [.bus, .pat, .sys, .vlt] (R.PAT_STATUS.addr 0 :: castLogRegs) := .setBus .keep (by decide)
  obtain ⟨hc, hpat, herr, -, hstate, hoff, -⟩ := Dev.sourceFails_other (hbus.rising hinv.regs) (err := 0x0C) (sec := 0) (by decide) (by decide) hsrc
  exact ⟨_, .writes (fun d => d.wMboxCtrl m val) rfl ht he (hbus.trans (hc.mono (by decide) fun _ => id)), congrArg Pat.verify hpat, herr, hstate, hoff⟩

theorem mboxAbort_read (ht : s.dev.Takes m R.PAT_MBOX_CTRL 0) (h1 : setsBit val 1) (hload : s.dev.loading = true) (hv : s.dev.pat.verify = none)
    (hsrc : s.dev.rd F.PAT_STATUS_SOURCE = 1) :
    ∃ u, Runs (.mboxAbort m val) s u [.bus, .pat] [R.PAT_STATUS.addr 0] ∧ u.dev.rd F.PAT_STATUS_ERR = 0x0C ∧
      u.dev.rd F.PAT_STATUS_SOURCE = 2 ∧ u.dev.rd F.PAT_STATUS_STATE = 1 := by
  obtain ⟨b, hb⟩ := s.dev.touch_bus m
  have he : (s.dev.touch m).wMboxCtrl m val = { s.dev with bus := b }.sourceFails 0x0C 0 := by
    rw [hb]
    exact Dev.wMboxCtrl_abort_read (d := { s.dev with bus := b }) h1 hv hload hsrc
  have hbus : s.dev.ChangesOnly { s.dev with bus := b } [.bus, .pat] [R.PAT_STATUS.addr 0] := .setBus .keep (by decide)
  obtain ⟨hc, -, herr, -, h⟩ := Dev.sourceFails_slotA (hbus.rising hinv.regs) (err := 0x0C) (sec := 0) (by decide) (by decide) hsrc
  exact ⟨_, .writes (fun d => d.wMboxCtrl m val) rfl ht he (hbus.trans (hc.mono (by decide) fun _ => id)), herr, h⟩

/-! ### Writes to the staging area -/

omit hinv in
theorem stagingWrite_runs (i : Fin 1048576) (ht : s.dev.Takes m R.PAT_STAGING i) {b : Bus} (hb : s.dev.touch m = { s.dev with bus := b }) {ps : List Part} {rs : List Nat}
    (h : s.dev.ChangesOnly ({ s.dev with bus := b }.wStaging (4 * i) 4 (val % 2 ^ 32)) ps rs) :
    Runs (.stagingWrite m (regSpace + R.PAT_STAGING.base + 4 * i) 4 val) s { s with dev := { s.dev with bus := b }.wStaging (4 * i) 4 (val % 2 ^ 32) } ps rs := by
  have haddr : regSpace + R.PAT_STAGING.base + 4 * i = regSpace + R.PAT_STAGING.addr i := by
    have : R.PAT_STAGING.addr i = R.PAT_STAGING.base + i * 4 := by simp [Reg.addr, R.PAT_STAGING, dimOffset]
    omega
  rw [haddr]
  refine .act (fun d => if within R.PAT_STAGING (regSpace + R.PAT_STAGING.addr i) 4 then d.regStore m (regSpace + R.PAT_STAGING.addr i) 4 val else d) rfl ?_ h
  rw [within_PAT_STAGING i.isLt, if_pos rfl, Dev.regStore_staging i.isLt ht, hb]

omit hinv in
theorem staging_loads (hwf : Memory.wf s.dev.pat.staging = true) (i : Fin 1048576) (ht : s.dev.Takes m R.PAT_STAGING i) (hrep : s.dev.repatterning = false) :
    ∃ u, Runs (.stagingWrite m (regSpace + R.PAT_STAGING.base + 4 * i) 4 val) s u [.bus, .pat] [] ∧
      ∀ k, mapGet u.dev.pat.staging k 0 = if 4 * i.val ≤ k ∧ k < 4 * i.val + 4 then BitVec.ofNat 8 (val / 2 ^ (8 * (k - 4 * i.val)))
        else mapGet s.dev.pat.staging k 0 := by
  obtain ⟨b, hb⟩ := s.dev.touch_bus m
  have he : { s.dev with bus := b }.wStaging (4 * i) 4 (val % 2 ^ 32) =
      { s.dev with bus := b, pat.staging := storeBytes s.dev.pat.staging (4 * i) (leBytes 4 (val % 2 ^ 32)) } :=
    if_neg (Bool.eq_false_iff.mp hrep)
  have hbus : s.dev.ChangesOnly { s.dev with bus := b } [.bus, .pat] [] := .setBus .keep (by decide)
  refine ⟨_, stagingWrite_runs m i ht hb (he ▸ .setPat hbus (by decide)), fun k => ?_⟩
  rw [he]
  exact mapGet_storeWord hwf (4 * i) val k

theorem staging_busy (i : Fin 1048576) (ht : s.dev.Takes m R.PAT_STAGING i) (hrep : s.dev.repatterning = true) :
    ∃ u, Runs (.stagingWrite m (regSpace + R.PAT_STAGING.base + 4 * i) 4 val) s u [.bus] [R.PAT_STATUS.addr 0] ∧
      u.dev.rd F.PAT_STATUS_MBOX_BUSY = 1 := by
  obtain ⟨b, hb⟩ := s.dev.touch_bus m
  have he : { s.dev with bus := b }.wStaging (4 * i) 4 (val % 2 ^ 32) = { s.dev with bus := b }.wrB F.PAT_STATUS_MBOX_BUSY 0 true := if_pos hrep
  refine ⟨_, stagingWrite_runs m i ht hb (he ▸ .wrB (.setBus .keep (by decide)) List.mem_cons_self), ?_⟩
  rw [he]
  exact Dev.rd_wrB_self { s.dev with bus := b } F.PAT_STATUS_MBOX_BUSY 0 true (by decide) (by decide) hinv.regs

/-! ### A re-pattern begins (R55, R56) -/

theorem repatternGo_starts (ht : s.dev.Takes m R.PAT_REPAT_CTRL 0) (h0 : setsBit val 0) (hrep : s.dev.repatterning = false) (hstate : s.dev.rd F.PAT_STATUS_STATE = 4) :
    ∃ u, Runs (.repatternGo m val) s u [.bus, .pat] [R.PAT_STATUS.addr 0] ∧ u.dev.rd F.PAT_STATUS_STATE = 2 ∧
      u.dev.pat = { s.dev.pat with hold := true, verify := some { repattern := true, by0 := decide (m = .p0), by1 := decide (m = .p1) } } := by
  obtain ⟨b, hb⟩ := s.dev.touch_bus m
  have he : (s.dev.touch m).wRepat m val = ({ s.dev with bus := b }.beginRepattern m).patState 2 := by
    rw [hb]
    exact Dev.wRepat_starts (d := { s.dev with bus := b }) h0 hrep hstate
  have hbus : s.dev.ChangesOnly { s.dev with bus := b } [.bus, .pat] [R.PAT_STATUS.addr 0] := .setBus .keep (by decide)
  exact ⟨_, .writes (fun d => d.wRepat m val) rfl ht he (.wr (.setPat hbus (by decide)) List.mem_cons_self),
    Dev.rd_wr_lt (d := Dev.beginRepattern { s.dev with bus := b } m) (f := F.PAT_STATUS_STATE) (v := 2) 0 (by decide) (by decide) hinv.regs, rfl⟩

theorem repatternGo_busy (ht : s.dev.Takes m R.PAT_REPAT_CTRL 0) (h0 : setsBit val 0) (hrep : s.dev.repatterning = true) :
    ∃ u, Runs (.repatternGo m val) s u [.bus] [R.PAT_STATUS.addr 0] ∧ u.dev.rd F.PAT_STATUS_MBOX_BUSY = 1 := by
  obtain ⟨b, hb⟩ := s.dev.touch_bus m
  have he : (s.dev.touch m).wRepat m val = { s.dev with bus := b }.wrB F.PAT_STATUS_MBOX_BUSY 0 true := by
    rw [hb]
    exact Dev.wRepat_busy (d := { s.dev with bus := b }) h0 hrep
  exact ⟨_, .writes (fun d => d.wRepat m val) rfl ht he (.wrB (.setBus .keep (by decide)) List.mem_cons_self),
    Dev.rd_wrB_self { s.dev with bus := b } F.PAT_STATUS_MBOX_BUSY 0 true (by decide) (by decide) hinv.regs⟩

end

/-! ### Verification of a re-pattern image ends (R52, R55) -/

/-- What the end of verification does with a re-pattern image. -/
def Dev.judgeRepattern (d : Dev) (v : Verify) : Except (Nat × Nat) Image → Dev
  | .error (err, sec) => d.repatternFails err sec
  | .ok x => if !d.repatternOk x.base x.inspect.isSome then d.repatternFails 0x0B 0
      else { d with pat.verify := some { v with
        checked := true, passed := true, gauge := x.gauge, inspect := x.inspect, budget := x.pattern.budget, beat := d.tmb.beats } }.patState 3

/-- The re-pattern image is the one staged. -/
def Dev.repatternImage (d : Dev) : List Byte := d.stagedBytes (max 64 (d.rd F.PAT_MBOX_LEN_LENGTH))

theorem Dev.repatternVerified_eq {d : Dev} {v : Verify} (hv : d.pat.verify = some v) (hrep : v.repattern = true) (hck : v.checked = false) :
    d.repatternVerified = d.judgeRepattern v (d.verifyImage 1 d.repatternImage (some (d.rd F.PAT_MBOX_LEN_LENGTH))) := by
  unfold Dev.repatternVerified
  rw [hv]
  exact (if_neg (by simp [hrep, hck])).trans rfl

section
variable {s : State} (hinv : s.Inv) {v : Verify} (hv : s.dev.pat.verify = some v)
include hinv hv

theorem repattern_fails (hrep : v.repattern = true) (hck : v.checked = false) {err sec : Nat}
    (hx : s.dev.verifyImage 1 s.dev.repatternImage (some (s.dev.rd F.PAT_MBOX_LEN_LENGTH)) = .error (err, sec)) (herr : err < 256) :
    ∃ u, Runs .repatternVerifyDone s u [.pat, .cdc, .raised] [R.PAT_STATUS.addr 0] ∧ u.dev.pat.verify = none ∧ u.dev.pat.hold = false ∧
      u.dev.rd F.PAT_STATUS_ERR = err ∧ u.dev.rd F.PAT_STATUS_STATE = 4 ∧ u.dev.pat.loaded = s.dev.pat.loaded ∧
      u.dev.raised = s.dev.raised ++ [s.dev.event v.who 0x0204 [(1, err)]] := by
  have he : s.dev.repatternVerified = s.dev.repatternFails err sec := by rw [Dev.repatternVerified_eq hv hrep hck, hx, Dev.judgeRepattern]
  obtain ⟨hc, hpat, hshown, hstate, hraised⟩ := Dev.repatternFails_spec hinv.regs hv herr sec
  exact ⟨_, .act Dev.repatternVerified rfl he hc, congrArg Pat.verify hpat, congrArg Pat.hold hpat, hshown, hstate, (congrArg Pat.loaded hpat :), hraised⟩

theorem repattern_passes (hrep : v.repattern = true) (hck : v.checked = false) {x : Image}
    (hx : s.dev.verifyImage 1 s.dev.repatternImage (some (s.dev.rd F.PAT_MBOX_LEN_LENGTH)) = .ok x) (hok : s.dev.repatternOk x.base x.inspect.isSome = true) :
    ∃ u, Runs .repatternVerifyDone s u [.pat] [R.PAT_STATUS.addr 0] ∧ u.dev.rd F.PAT_STATUS_STATE = 3 ∧
      u.dev.pat.verify = some { v with checked := true, passed := true, gauge := x.gauge, inspect := x.inspect
                                       budget := x.pattern.budget, beat := s.dev.tmb.beats } := by
  have he : s.dev.repatternVerified = { s.dev with pat.verify := some { v with
      checked := true, passed := true, gauge := x.gauge, inspect := x.inspect, budget := x.pattern.budget, beat := s.dev.tmb.beats } }.patState 3 := by
    rw [Dev.repatternVerified_eq hv hrep hck, hx, Dev.judgeRepattern, if_neg (by simp [hok])]
  have hc : s.dev.ChangesOnly s.dev.repatternVerified [.pat] [R.PAT_STATUS.addr 0] := he ▸ .wr (.setPat .keep List.mem_cons_self) List.mem_cons_self
  refine ⟨_, .act Dev.repatternVerified rfl rfl hc, ?_, ?_⟩
  · rw [he]
    exact Dev.rd_wr_lt (d := { s.dev with pat.verify := _ }) (f := F.PAT_STATUS_STATE) (v := 3) 0 (by decide) (by decide) hinv.regs
  · rw [he]
    rfl

theorem repattern_unsuited (hrep : v.repattern = true) (hck : v.checked = false) {x : Image}
    (hx : s.dev.verifyImage 1 s.dev.repatternImage (some (s.dev.rd F.PAT_MBOX_LEN_LENGTH)) = .ok x) (hok : s.dev.repatternOk x.base x.inspect.isSome = false) :
    ∃ u, Runs .repatternVerifyDone s u [.pat, .cdc, .raised] [R.PAT_STATUS.addr 0] ∧ u.dev.pat.verify = none ∧
      u.dev.rd F.PAT_STATUS_ERR = 0x0B ∧ u.dev.rd F.PAT_STATUS_STATE = 4 ∧ u.dev.pat.loaded = s.dev.pat.loaded := by
  have he : s.dev.repatternVerified = s.dev.repatternFails 0x0B 0 := by
    rw [Dev.repatternVerified_eq hv hrep hck, hx, Dev.judgeRepattern, if_pos (by simp [hok])]
  obtain ⟨hc, hpat, hshown, hstate, -⟩ := Dev.repatternFails_spec hinv.regs hv (err := 0x0B) (by decide) 0
  exact ⟨_, .act Dev.repatternVerified rfl he hc, congrArg Pat.verify hpat, hshown, hstate, (congrArg Pat.loaded hpat :)⟩

end

/-! ### A re-pattern image is applied (R57) -/

/-- An event rests on the applied Pattern's worlds and the registers of the beat, the steps and the rings. -/
theorem Dev.ChangesOnly.event_worlds {d e : Dev} {ps : List Part} {rs : List Nat} (h : d.ChangesOnly e ps rs) (happlied : e.pat.applied = d.pat.applied)
    (hworlds : e.pat.loaded.worlds = d.pat.loaded.worlds) (hr : ∀ a ∈ eventRegs, a ∉ rs) (t : Dest) (code : Nat) (p : List (Nat × Nat)) :
    e.event t code p = d.event t code p := by
  have hbeat : e.beat = d.beat := h.rd (hr _ (by decide))
  have hsteps : e.steps = d.steps := h.rd (hr _ (by decide))
  have hring (q : Fin 2) : e.ringOn q = d.ringOn q := by
    have hrd : e.rd F.HST_EVR_CFG_ENABLE q = d.rd F.HST_EVR_CFG_ENABLE q := h.rd (hr _ (by fin_cases q <;> decide))
    rw [Dev.ringOn, Dev.on, hrd, Dev.ringOn, Dev.on]
  have hsecure (q : Fin 2) : e.portSecure q = d.portSecure q := by rw [Dev.portSecure, Dev.portSecure, happlied, hworlds]
  have hto (q : Fin 2) : e.addressed t q = d.addressed t q := by cases t <;> simp only [Dev.addressed, hring, hsecure]
  simp only [Dev.event, hbeat, hsteps, hto]

/-- The parts and the registers that a new GAUGE or INSPECT changes. -/
def renewParts : List Part := [.sys, .web, .cdc, .las, .hl, .ins, .nzh]

def renewRegs : List Nat :=
  [R.PAT_GEN.addr 0, R.INS_STAT_HEAD.addr 0, R.INS_COMMIT.addr 0, R.NZ_CTRL.addr 0, R.LA_SWATCH.addr 0, R.LA_SHIFT.addr 0, R.LA_SHIFT_STAT.addr 0,
    R.LA_WINDOW.addr 0] ++ (List.range 8).flatMap fun c => [R.INS_Cc_STAT.addr c, R.INS_Cc_CFG.addr c]

theorem camera_mem_renewRegs : ∀ c : Fin 8, R.INS_Cc_STAT.addr c ∈ renewRegs ∧ R.INS_Cc_CFG.addr c ∈ renewRegs := by decide

section
variable {d e : Dev} (h : d.ChangesOnly e renewParts renewRegs)
include h

theorem Dev.ChangesOnly.leaveDisabled {f : Func} (hf : f = .nzh ∨ ∃ c, f = .cam c) :
    d.ChangesOnly ((e.setFunc f {}).wrB (Func.enable f).1 (Func.enable f).2 false) renewParts renewRegs := by
  rcases hf with rfl | ⟨c, rfl⟩
  · exact .wrB (.setSys h (by decide)) (by decide)
  · obtain ⟨hstat, hcfg⟩ := camera_mem_renewRegs c
    exact .wrB (.wr (.wr (.setSys h (by decide)) hstat) hstat) hcfg

theorem Dev.ChangesOnly.rewriteBank : d.ChangesOnly e.rewriteBank renewParts renewRegs := by
  have hselect {e : Dev} (he : d.ChangesOnly e renewParts renewRegs) (l : Nat) (c : HeadCheck) : d.ChangesOnly (e.selectBank l c) renewParts renewRegs :=
    .queueReq (.setHl he (by decide)) (by decide) ..
  unfold Dev.rewriteBank
  refine .foldl _ h fun e l he => ?_
  split
  · exact .ite (hselect he ..) he
  · exact .ite (hselect he ..) he

theorem Dev.ChangesOnly.newGauge : d.ChangesOnly e.newGauge renewParts renewRegs := by
  have hlas : d.ChangesOnly { e.emptyWindow with
      las.host := 0, las.auto := 0, las.blend := e.emptyWindow.blendNow, las.switches := [], las.armBeat := none, las.armNzh := false } renewParts renewRegs :=
    .setLas (.setCdc h (by decide)) (by decide)
  exact .setWeb (.wr (.wr (.wr (.wrB (.wr (.wr (.wrB hlas (by decide)) (by decide)) (by decide)) (by decide)) (by decide)) (by decide)) (by decide)) (by decide)

theorem Dev.ChangesOnly.advanceGen (shadows : List (Nat × Word)) : d.ChangesOnly (e.advanceGen shadows) renewParts renewRegs :=
  .wrB (.wr (.setIns h (by decide)) (by decide)) (by decide)

end

/-- A new INSPECT is applied, if the image has one. -/
def Dev.renewInspect (d : Dev) : Option InspectSec → Dev
  | some s => d.applyInspect s
  | none => d

/-- A new GAUGE is applied, if the image has one. -/
def Dev.renewGauge (d : Dev) : Option Gauge → Dev
  | some g => d.applyGauge g
  | none => d

theorem Dev.renewInspect_changes (d : Dev) (o : Option InspectSec) :
    { d with pat.loaded.inspect := o.getD d.pat.loaded.inspect }.ChangesOnly (d.renewInspect o) renewParts renewRegs := by
  cases o with
  | none => exact .keep
  | some s =>
    unfold Dev.renewInspect Dev.applyInspect
    have hhead : { d with pat.loaded.inspect := s }.ChangesOnly (({ d with pat.loaded.inspect := s }.wr F.PAT_GEN_INSPECT_GEN 0
        ({ d with pat.loaded.inspect := s }.rd F.PAT_GEN_INSPECT_GEN + 1)).wr F.INS_STAT_HEAD_HEAD 0 0) renewParts renewRegs :=
      .wr (.wr .keep (by decide)) (by decide)
    refine List.foldlRecOn (motive := fun e => { d with pat.loaded.inspect := s }.ChangesOnly e renewParts renewRegs) _ _ (hhead.advanceGen _) fun e he f hf => ?_
    exact .ite he (he.leaveDisabled ((List.mem_cons.mp hf).imp_right fun hc => (List.mem_map.mp hc).imp fun c hc => hc.2.symm))

theorem Dev.renewGauge_changes (d : Dev) (o : Option Gauge) :
    { d with pat.loaded.gauge := o.getD d.pat.loaded.gauge }.ChangesOnly (d.renewGauge o) renewParts renewRegs := by
  cases o with
  | none => exact .keep
  | some g =>
    have hacc : { d with pat.loaded.gauge := g }.ChangesOnly { d with pat.loaded.gauge := g, nzh.acc := [], nzh.sw := [], nzh.auto := 0 } renewParts renewRegs :=
      .setNzh .keep (by decide)
    have hgen := (hacc.newGauge).wr (f := F.PAT_GEN_GAUGE_GEN) (i := 0)
      (v := { d with pat.loaded.gauge := g, nzh.acc := [], nzh.sw := [], nzh.auto := 0 }.newGauge.rd F.PAT_GEN_GAUGE_GEN + 1) (by decide)
    exact .ite hgen.rewriteBank hgen

/-- The image's sections are in force and its pages go on. -/
def Dev.renewed (d : Dev) (v : Verify) : Dev := ((d.letPages v.budget).renewInspect v.inspect).renewGauge v.gauge

/-- The Pattern with the image's sections. -/
def Pat.renewed (p : Pat) (v : Verify) : Pat :=
  { p with verify := none, hold := false, loaded := { p.loaded with
      budget := v.budget, gauge := v.gauge.getD p.loaded.gauge, inspect := v.inspect.getD p.loaded.inspect } }

theorem Dev.renewed_spec (d : Dev) (v : Verify) : d.ChangesOnly (d.renewed v) (.pat :: renewParts) renewRegs ∧ (d.renewed v).pat = d.pat.renewed v := by
  have h1 := (d.letPages v.budget).renewInspect_changes v.inspect
  have h2 := ((d.letPages v.budget).renewInspect v.inspect).renewGauge_changes v.gauge
  have hlet : d.ChangesOnly (d.letPages v.budget) (.pat :: renewParts) renewRegs := (d.letPages_changes v.budget).mono (by decide) nofun
  have hpat1 : ((d.letPages v.budget).renewInspect v.inspect).pat = { (d.letPages v.budget).pat with
      loaded.inspect := v.inspect.getD (d.letPages v.budget).pat.loaded.inspect } := h1.parts .pat (by decide)
  have hpat2 : (d.renewed v).pat = _ := h2.parts .pat (by decide)
  refine ⟨?_, hpat2.trans ?_⟩
  · exact ((Dev.ChangesOnly.setPat hlet List.mem_cons_self).trans (h1.mono (fun _ => List.mem_cons_of_mem _) fun _ => id)).trans
      ((Dev.ChangesOnly.setPat .keep List.mem_cons_self).trans (h2.mono (fun _ => List.mem_cons_of_mem _) fun _ => id))
  · rw [hpat1]
    rfl

/-- The image that passed is applied at a later boundary, or refused there. -/
theorem Dev.repatternApply_eq {d : Dev} {v : Verify} (hv : d.pat.verify = some v) (hpass : v.passed = true) (hlater : v.beat < d.tmb.beats) :
    d.repatternApply = if !d.repatternOk (d.rd F.PAT_ID_PATTERN_ID) v.inspect.isSome then d.repatternFails 0x0B 0
      else ((d.renewed v).showImage 4 0 0).raise v.who 0x0203 [] := by
  unfold Dev.repatternApply
  rw [hv]
  refine (if_neg (by simp [hpass, hlater])).trans ?_
  unfold Dev.renewed
  cases v.inspect <;> cases v.gauge <;> rfl

/-- What a re-pattern image that is applied leaves. -/
theorem Dev.renewed_shown {d : Dev} (hr : keysRising 0 d.regs = true) (v : Verify) {ps : List Part} {rs : List Nat} (hc : d.ChangesOnly (d.renewed v) ps rs)
    (hps : Part.raised ∈ ps) (hrs : R.PAT_STATUS.addr 0 ∈ rs) (hev : ∀ a ∈ eventRegs, a ∉ rs) :
    let e := ((d.renewed v).showImage 4 0 0).raise v.who 0x0203 []
    d.ChangesOnly e ps rs ∧ e.pat = d.pat.renewed v ∧ e.rd F.PAT_STATUS_STATE = 4 ∧ e.rd F.PAT_STATUS_ERR = 0 ∧
      e.raised = (d.renewed v).raised ++ [d.event v.who 0x0203 []] := by
  intro e
  have hshow := hc.showImage hrs 4 0 0
  have hpat : ((d.renewed v).showImage 4 0 0).pat = d.pat.renewed v := (d.renewed_spec v).2
  obtain ⟨hstate, herr, -⟩ := Dev.showImage_reads (hc.rising hr) (state := 4) (by decide) 0 0
  have hregs : e.regs = ((d.renewed v).showImage 4 0 0).regs := Dev.raise_regs_quiet (by decide) ..
  refine ⟨hshow.raise hps (.inl (by decide)), (Dev.raise_pat ..).trans hpat, (Dev.rd_congr _ 0 hregs).trans hstate, (Dev.rd_congr _ 0 hregs).trans herr, ?_⟩
  exact (Dev.raise_raised ..).trans (congrArg (fun x => (d.renewed v).raised ++ [x])
    (hshow.event_worlds (congrArg Pat.applied hpat :) (congrArg (fun p => p.loaded.worlds) hpat :) hev v.who 0x0203 []))

section
variable {s : State} (hinv : s.Inv) {v : Verify} (hv : s.dev.pat.verify = some v) (hpass : v.passed = true) (hlater : v.beat < s.dev.tmb.beats)
include hinv hv hpass hlater

theorem repattern_budget (hok : s.dev.repatternOk (s.dev.rd F.PAT_ID_PATTERN_ID) v.inspect.isSome = true) (hg : v.gauge = none) (hi : v.inspect = none) :
    ∃ u, Runs .repatternApply s u [.pat, .cdc, .raised] [R.PAT_STATUS.addr 0] ∧ u.dev.pat.verify = none ∧ u.dev.pat.hold = false ∧
      u.dev.rd F.PAT_STATUS_STATE = 4 ∧ u.dev.rd F.PAT_STATUS_ERR = 0 ∧
      u.dev.pat.loaded = { s.dev.pat.loaded with budget := v.budget } ∧
      u.dev.raised = s.dev.raised ++ [s.dev.event v.who 0x0203 []] := by
  have he := Dev.repatternApply_eq hv hpass hlater
  rw [if_neg (by simp [hok])] at he
  have hlet : s.dev.renewed v = s.dev.letPages v.budget := by rw [Dev.renewed, hg, hi, Dev.renewInspect, Dev.renewGauge]
  have hc : s.dev.ChangesOnly (s.dev.renewed v) [.pat, .cdc, .raised] [R.PAT_STATUS.addr 0] := hlet ▸ (s.dev.letPages_changes v.budget).mono (by decide) nofun
  obtain ⟨hall, hpat, hstate, herr, hraised⟩ := Dev.renewed_shown hinv.regs v hc (by decide) (by decide) (by decide)
  have hposted := hraised.trans (congrArg (· ++ _) (congrArg Dev.raised hlet))
  have hloaded : (s.dev.pat.renewed v).loaded = { s.dev.pat.loaded with budget := v.budget } := by rw [Pat.renewed, hg, hi]; rfl
  exact ⟨_, .inOrder Dev.repatternApply rfl he (Dev.orderEvents_one hposted) hall, congrArg Pat.verify hpat, congrArg Pat.hold hpat, hstate, herr,
    (congrArg Pat.loaded hpat :).trans hloaded, hposted⟩

theorem repattern_applied (hok : s.dev.repatternOk (s.dev.rd F.PAT_ID_PATTERN_ID) v.inspect.isSome = true) :
    ∃ u, Completes .repatternApply s u [.pat, .cdc, .sys, .web, .las, .pace, .hl, .ins, .nzh, .out, .raised] ∧ u.dev.pat.verify = none ∧
      u.dev.pat.hold = false ∧ u.dev.rd F.PAT_STATUS_STATE = 4 ∧ u.dev.rd F.PAT_STATUS_ERR = 0 ∧
      u.dev.pat.loaded.budget = v.budget ∧ u.dev.pat.loaded.gauge = v.gauge.getD s.dev.pat.loaded.gauge ∧
      u.dev.pat.loaded.inspect = v.inspect.getD s.dev.pat.loaded.inspect ∧
      s.dev.event v.who 0x0203 [] ∈ u.dev.raised := by
  have he := Dev.repatternApply_eq hv hpass hlater
  rw [if_neg (by simp [hok])] at he
  have hc : s.dev.ChangesOnly (s.dev.renewed v) [.pat, .cdc, .sys, .web, .las, .pace, .hl, .ins, .nzh, .out, .raised] (R.PAT_STATUS.addr 0 :: renewRegs) :=
    (s.dev.renewed_spec v).1.mono (by decide) fun _ => List.mem_cons_of_mem _
  obtain ⟨hall, hpat, hstate, herr, hraised⟩ := Dev.renewed_shown hinv.regs v hc (by decide) List.mem_cons_self (by decide)
  have hruns := Runs.ordered (c := .repatternApply) Dev.repatternApply rfl he (by decide) hall
  refine ⟨_, ⟨hruns.next, hruns.queue, hruns.parts⟩, congrArg Pat.verify hpat, congrArg Pat.hold hpat, hstate, herr,
    (congrArg (fun p => p.loaded.budget) hpat :), (congrArg (fun p => p.loaded.gauge) hpat :), (congrArg (fun p => p.loaded.inspect) hpat :), ?_⟩
  exact Dev.mem_orderEvents.mpr (hraised ▸ List.mem_append_right _ List.mem_cons_self)

theorem repattern_refused (hok : s.dev.repatternOk (s.dev.rd F.PAT_ID_PATTERN_ID) v.inspect.isSome = false) :
    ∃ u, Runs .repatternApply s u [.pat, .cdc, .raised] [R.PAT_STATUS.addr 0] ∧ u.dev.pat.verify = none ∧
      u.dev.rd F.PAT_STATUS_ERR = 0x0B ∧ u.dev.rd F.PAT_STATUS_STATE = 4 ∧ u.dev.pat.loaded = s.dev.pat.loaded := by
  have he := Dev.repatternApply_eq hv hpass hlater
  rw [if_pos (by simp [hok])] at he
  obtain ⟨hc, hpat, hshown, hstate, hraised⟩ := Dev.repatternFails_spec hinv.regs hv (err := 0x0B) (by decide) 0
  exact ⟨_, .inOrder Dev.repatternApply rfl he (Dev.orderEvents_one hraised) hc, congrArg Pat.verify hpat, hshown, hstate, (congrArg Pat.loaded hpat :)⟩

end

/-- Settles O11: an image that arrives is judged once, the mailbox and the staging area act by whether a re-pattern runs, and a re-pattern ends by
showing its result, letting its pages go on and posting it. -/
theorem patternImages : Obligations.PatternImages := by
  unfold Obligations.PatternImages
  refine ⟨fun src img s hinv hload hsrc hgo => ⟨?_, ?_, ?_, ?_⟩, fun m p val s hinv ht hp => ⟨?_, ?_, ?_, ?_, ?_⟩,
    fun s hinv hwait => mboxTimeout_fails hinv hwait, fun m i val s hinv hwf ht => ⟨staging_loads m hwf i ht, staging_busy hinv m i ht⟩,
    fun m val s hinv ht h0 => ⟨repatternGo_starts hinv m ht h0, repatternGo_busy hinv m ht h0⟩,
    fun v s hinv hv hrep hck => ⟨?_, ?_, ?_⟩, fun v s hinv hv hpass hlater => ⟨?_, ?_, ?_⟩⟩
  · exact fun x hlen hx => image_applied hinv hload hsrc hgo img hlen hx
  · exact fun err sec hlen hx herr hsec hslot => image_fails_slotA hinv hload hsrc hgo img hlen hx herr hsec hslot
  · exact fun err sec hlen hx herr hsec hslot => image_fails_other hinv hload hsrc hgo img hlen hx herr hsec hslot
  · exact fun hslot => image_incomplete_slotA hinv hload hsrc hgo img hslot
  · exact fun h0 h1 hwait hsrc => mboxGo_verifies hinv m ht hp h0 h1 hwait hsrc
  · exact fun h0 h1 hrep => mboxGo_busy hinv m ht h0 h1 hrep
  · exact fun v h1 hv hrep hck => mboxAbort_repattern hinv m ht h1 hv hrep hck
  · exact fun v h1 _ hv hrep hck hsrc => mboxAbort_verify hinv m ht h1 hv hrep hck hsrc
  · exact fun h1 hload hv hsrc => mboxAbort_read hinv m ht h1 hload hv hsrc
  · exact fun err sec hx herr => repattern_fails hinv hv hrep hck hx herr
  · exact fun x hx hok => repattern_passes hinv hv hrep hck hx hok
  · exact fun x hx hok => repattern_unsuited hinv hv hrep hck hx hok
  · exact fun hok hg hi => repattern_budget hinv hv hpass hlater hok hg hi
  · exact fun hok => repattern_applied hinv hv hpass hlater hok
  · exact fun hok => repattern_refused hinv hv hpass hlater hok

/-! ### Lines that wait for the image pipeline -/

/-- What the image pipeline may change besides the frame: what its reads of the window do. -/
structure Dev.Looked (d e : Dev) : Prop where
  changes : d.ChangesOnly e readParts dramRegs
  fetched : ∀ f ∈ e.drm.fetched, f ∈ d.drm.fetched

theorem Dev.Looked.refl (d : Dev) : d.Looked d := ⟨.keep, fun _ => id⟩

theorem Dev.Looked.trans {d e u : Dev} (h : d.Looked e) (k : e.Looked u) : d.Looked u := ⟨h.changes.trans k.changes, fun f hf => h.fetched f (k.fetched f hf)⟩

theorem Dev.dramRead_looked (d : Dev) (rq : Nat) (secure : Bool) (host : Option (Fin 2)) (a len : Nat) : d.Looked (d.dramRead rq secure host a len).2 :=
  ⟨d.dramRead_changes rq secure host a len, d.dramRead_fetched rq secure host a len⟩

theorem Dev.readWin_looked (d : Dev) (rq lo hi : Nat) (n : Int) : d.Looked (d.readWin rq lo hi n).2 := by
  unfold Dev.readWin
  dsimp only
  refine List.foldlRecOn (motive := fun acc : List (Nat × Option (List Byte)) × Dev => d.Looked acc.2) _ _ (.refl d) fun acc hacc i _ => ?_
  split
  · exact hacc
  · exact hacc
  · have hread := hacc.trans (acc.2.dramRead_looked rq (acc.2.masterSecure rq) none (acc.2.slotAddr n + i * 1024 + (granuleSpan i (lo - d.shiftAt n) (hi - d.shiftAt n)).1)
      (granuleSpan i (lo - d.shiftAt n) (hi - d.shiftAt n)).2)
    split
    next he => rwa [he] at hread
    next he => rwa [he] at hread

theorem Dev.readLines_looked (d : Dev) (rq lo hi : Nat) (m : Int) (along : Nat) : d.Looked (d.readLines rq lo hi m along).2 :=
  List.foldlRecOn (motive := fun acc : List WinLine × Dev => d.Looked acc.2) _ _ (.refl d) fun acc hacc i _ =>
    hacc.trans (acc.2.readWin_looked rq lo hi (m + i))

theorem Dev.pipeline_looked (d : Dev) (c : Nat) (f : Frame) (l : CamLine) : d.Looked (d.pipeline c f l).2 := by
  unfold Dev.pipeline
  dsimp only
  split
  · exact .refl d
  · exact d.readLines_looked ..

/-- Lines of camera c have gone through the pipeline: the camera's frame stays open, and its next frame keeps its number. -/
structure Dev.Piped (d e : Dev) (c : Nat) : Prop where
  changes : d.ChangesOnly e ([.ins, .nzh] ++ readParts) dramRegs
  fetched : ∀ f ∈ e.drm.fetched, f ∈ d.drm.fetched
  next : (e.cam c).next = (d.cam c).next
  frame : (d.cam c).frame ≠ none → (e.cam c).frame ≠ none
  cams : e.ins.cams.length = d.ins.cams.length

theorem Dev.Piped.refl (d : Dev) (c : Nat) : d.Piped d c := ⟨.keep, fun _ => id, rfl, id, rfl⟩

theorem Dev.Piped.trans {d e u : Dev} {c : Nat} (h : d.Piped e c) (k : e.Piped u c) : d.Piped u c :=
  ⟨h.changes.trans k.changes, fun f hf => h.fetched f (k.fetched f hf), k.next.trans h.next, fun hf => k.frame (h.frame hf), k.cams.trans h.cams⟩

theorem Dev.cam_setCam {d : Dev} {c : Nat} (f : Cam → Cam) (h : c < d.ins.cams.length) : (d.setCam c f).cam c = f (d.cam c) := at'_modify_self f h

/-- The oldest waiting line is taken. -/
def Dev.shiftLine (d : Dev) (c : Nat) (rest : List CamLine) : Dev := d.setCam c fun k => { k with waiting := rest }

/-- The line goes through the pipeline and joins its frame. -/
def Dev.joinLine (d : Dev) (c : Nat) (l : CamLine) (f : Frame) : Dev := (d.pipeline c f l).2.setCam c fun k => { k with frame := some (f.add (d.pipeline c f l).1) }

theorem Dev.shiftLine_piped {d : Dev} {c : Nat} (hc : c < d.ins.cams.length) (rest : List CamLine) : d.Piped (d.shiftLine c rest) c := by
  have hcam : (d.shiftLine c rest).cam c = { d.cam c with waiting := rest } := Dev.cam_setCam _ hc
  exact ⟨.setIns .keep (by decide), fun _ => id, (congrArg Cam.next hcam :), fun hf => by rwa [hcam], List.length_modify ..⟩

theorem Dev.joinLine_piped {d : Dev} {c : Nat} (hc : c < d.ins.cams.length) (l : CamLine) (f : Frame) : d.Piped (d.joinLine c l f) c := by
  have hlook := d.pipeline_looked c f l
  have hins : (d.pipeline c f l).2.ins = d.ins := hlook.changes.parts .ins (by decide)
  have hcam : (d.joinLine c l f).cam c = { (d.pipeline c f l).2.cam c with frame := some (f.add (d.pipeline c f l).1) } :=
    Dev.cam_setCam _ (by rwa [hins])
  rw [Dev.cam, Dev.cam, hins, ← Dev.cam, ← Dev.cam] at hcam
  exact ⟨.setIns (hlook.changes.mono (by decide) fun _ => id) (by decide), hlook.fetched, (congrArg Cam.next hcam :), fun _ => by rw [hcam]; nofun,
    (List.length_modify ..).trans (congrArg (fun x => x.cams.length) hins)⟩

theorem Dev.processLine_piped {d : Dev} {c : Nat} (hc : c < d.ins.cams.length) : d.Piped (d.processLine c) c := by
  unfold Dev.processLine
  split
  next l rest f _ _ =>
    have htake := Dev.shiftLine_piped hc rest
    have hjoin := htake.trans (Dev.joinLine_piped (htake.cams ▸ hc) l f)
    dsimp only
    split
    · exact hjoin.trans ⟨.setNzh .keep (by decide), fun _ => id, rfl, id, rfl⟩
    · exact hjoin
  next => exact .refl d c

/-- The device after every line that waits has gone through the pipeline. -/
def Dev.drained (d : Dev) (c : Nat) : Dev := (d.cam c).waiting.foldl (fun (x : Dev) _ => x.processLine c) d

theorem Dev.drained_piped {d : Dev} {c : Nat} (hc : c < d.ins.cams.length) : d.Piped (d.drained c) c :=
  List.foldlRecOn (motive := fun e => d.Piped e c) _ _ (.refl d c) fun _ he _ _ => he.trans (Dev.processLine_piped (he.cams ▸ hc))

/-- A camera with no frame takes no line. -/
theorem Dev.drained_of_closed {d : Dev} {c : Nat} (h : (d.cam c).frame = none) : d.drained c = d := by
  have hstay : d.processLine c = d := by
    unfold Dev.processLine
    split
    next hf => exact absurd (h.symm.trans hf) nofun
    next => rfl
  exact List.foldlRecOn (motive := fun e => e = d) _ _ rfl fun _ he _ _ => by rw [he, hstay]

/-! ### A frame closes (R226, R227) -/

/-- The record of a frame rests on the Pattern's section of its camera. -/
theorem Dev.frameRecord_congr {d e : Dev} (h : e.pat = d.pat) (c : Nat) (f : Frame) (gen first beat : Nat) :
    e.frameFlags c f = d.frameFlags c f ∧ e.frameRecord c f gen first beat = d.frameRecord c f gen first beat := by
  have hsec : e.camSec c = d.camSec c := by rw [Dev.camSec, Dev.inspect, h, Dev.camSec, Dev.inspect]
  have hflags : e.frameFlags c f = d.frameFlags c f := by rw [Dev.frameFlags, hsec, Dev.frameFlags]
  exact ⟨hflags, by rw [Dev.frameRecord, hsec, hflags, Dev.frameRecord]⟩

theorem Dev.frameRecord_length (d : Dev) (c : Nat) (f : Frame) (gen first beat : Nat) : (d.frameRecord c f gen first beat).length = 64 := by
  rw [Dev.frameRecord, List.length_append, pack_length, leBytes_length]
  rfl

theorem Dev.frameFacts_spec (d : Dev) (f : Frame) : d.ChangesOnly (d.frameFacts f).2 [.freeCtr] [] ∧
    (f.begun = true → (d.frameFacts f).1 = (f.gen % 65536, ofSigned 64 f.first, f.startBeat % 2 ^ 32)) := by
  unfold Dev.frameFacts
  split
  · exact ⟨.keep, fun _ => rfl⟩
  next h => exact ⟨.setFreeCtr (.setFreeCtr (.setFreeCtr .keep (by decide)) (by decide)) (by decide), fun hb => absurd hb h⟩

/-- The frame's record is written at HEAD, which moves on. -/
def Dev.recordFrame (d : Dev) (c : Nat) (f : Frame) (facts : Nat × Nat × Nat) : Dev :=
  let e := (d.dramWrite 7 (d.masterSecure 7) none d.frameEntry (d.frameRecord c f facts.1 facts.2.1 facts.2.2)).2
  e.wr F.INS_STAT_HEAD_HEAD 0 ((d.rd F.INS_STAT_HEAD_HEAD + 1) % 2 ^ e.rd F.INS_STAT_RING_LOG_ENTRIES)

/-- The camera has no frame open, and its triggers start anew. -/
def Dev.shutFrame (d : Dev) (c : Nat) (f : Frame) (n : Nat) : Dev :=
  let d := d.setCam c fun k => { k with frame := none, seq := (k.trigs.filter fun t => !t.paired).length % n }
  let d := d.newStart c
  if f.swatch then d.pastSwatches c fun w => decide (f.first < w.first + w.lines ∧ w.first < f.last + 8) else d

theorem Dev.closeFrame_open {d : Dev} {c : Nat} {f : Frame} (h : ((d.drained c).cam c).frame = some f) :
    let w := d.drained c
    let x := (w.frameFacts f).2
    let facts := (w.frameFacts f).1
    d.closeFrame c = ((((x.recordFrame c f facts).shutFrame c f (max 1 (w.camSec c).frameLines)).showFrame c).raise .secure 0x0E01
      [(1, c), (4, f.number), (2, facts.1), (1, x.frameFlags c f), (2, x.rd F.INS_STAT_HEAD_HEAD)]) := by
  unfold Dev.closeFrame
  dsimp only
  rw [← Dev.drained, h]
  rfl

theorem Dev.closeFrame_closed {d : Dev} {c : Nat} (h : (d.cam c).frame = none) : d.closeFrame c = d := by
  have hsame : d.drained c = d := Dev.drained_of_closed h
  unfold Dev.closeFrame
  dsimp only
  rw [← Dev.drained, hsame, h]

section
variable {d : Dev}

theorem Dev.recordFrame_changes (c : Nat) (f : Frame) (facts : Nat × Nat × Nat) :
    d.ChangesOnly (d.recordFrame c f facts) dramParts (R.INS_STAT_HEAD.addr 0 :: dramRegs) :=
  .wr ((d.dramWrite_stored 7 (d.masterSecure 7) none d.frameEntry (d.frameRecord c f facts.1 facts.2.1 facts.2.2)).changes.mono (fun _ => id)
    fun _ => List.mem_cons_of_mem _) List.mem_cons_self

theorem Dev.recordFrame_head (hr : keysRising 0 d.regs = true) (c : Nat) (f : Frame) (facts : Nat × Nat × Nat) :
    (d.recordFrame c f facts).rd F.INS_STAT_HEAD_HEAD = (d.rd F.INS_STAT_HEAD_HEAD + 1) % 2 ^ d.rd F.INS_STAT_RING_LOG_ENTRIES := by
  have hc := (d.dramWrite_stored 7 (d.masterSecure 7) none d.frameEntry (d.frameRecord c f facts.1 facts.2.1 facts.2.2)).changes
  have hlog : d.rd F.INS_STAT_RING_LOG_ENTRIES < 16 := Dev.rd_lt ..
  have hring : 2 ^ d.rd F.INS_STAT_RING_LOG_ENTRIES ≤ 2 ^ 15 := Nat.pow_le_pow_right (by decide) (by omega)
  have hlt : (d.rd F.INS_STAT_HEAD_HEAD + 1) % 2 ^ d.rd F.INS_STAT_RING_LOG_ENTRIES < 2 ^ F.INS_STAT_HEAD_HEAD.w :=
    (Nat.mod_lt _ (Nat.two_pow_pos _)).trans_le (hring.trans (by decide))
  unfold Dev.recordFrame
  dsimp only
  rw [hc.rd (by decide)]
  exact Dev.rd_wr_lt 0 hlt (by decide) (hc.rising hr)

theorem Dev.recordFrame_beside (hn : d.NoneFetched 7) (c : Nat) (f : Frame) (facts : Nat × Nat × Nat) {x : Nat} (hx : x < d.frameEntry ∨ d.frameEntry + 64 ≤ x) :
    (d.recordFrame c f facts).byte x = d.byte x :=
  (d.dramWrite_stored 7 (d.masterSecure 7) none d.frameEntry (d.frameRecord c f facts.1 facts.2.1 facts.2.2)).bytes hn x (by rwa [Dev.frameRecord_length])

theorem Dev.recordFrame_bytes (h : d.Clean 7) (c : Nat) (f : Frame) (facts : Nat × Nat × Nat) (hpass : d.checkDram (d.masterSecure 7) d.frameEntry 64 = .pass) :
    (d.recordFrame c f facts).bytes d.frameEntry 64 = d.frameRecord c f facts.1 facts.2.1 facts.2.2 := by
  have hlen := d.frameRecord_length c f facts.1 facts.2.1 facts.2.2
  have hall := h.content none (secure := d.masterSecure 7) (a := d.frameEntry) (bs := d.frameRecord c f facts.1 facts.2.1 facts.2.2) (by rwa [hlen])
  rwa [hlen] at hall

end

/-- Camera c has its next frame's number and the other cameras are as many. -/
structure Dev.SameCamera (d e : Dev) (c : Nat) : Prop where
  next : (e.cam c).next = (d.cam c).next
  frame : (e.cam c).frame = (d.cam c).frame
  cams : e.ins.cams.length = d.ins.cams.length

section
variable {d : Dev} {c : Nat} (hc : c < d.ins.cams.length)
include hc

theorem Dev.retimeTrigs_spec (g : Nat) : d.ChangesOnly (d.retimeTrigs c g) [.ins, .snapD] [] ∧ d.SameCamera (d.retimeTrigs c g) c := by
  refine ⟨.setSnapD (.setIns .keep (by decide)) (by decide), ?_, ?_, List.length_modify ..⟩
  · exact (congrArg Cam.next (Dev.cam_setCam _ hc) :)
  · exact (congrArg Cam.frame (Dev.cam_setCam _ hc) :)

theorem Dev.newStart_spec : d.ChangesOnly (d.newStart c) [.ins, .snapD] [] ∧ d.SameCamera (d.newStart c) c := by
  have hsame : d.ChangesOnly d [.ins, .snapD] [] ∧ d.SameCamera d c := ⟨.keep, rfl, rfl, rfl⟩
  unfold Dev.newStart
  split
  · exact hsame
  · split
    · split
      · exact hsame
      · exact Dev.retimeTrigs_spec hc _
    · exact hsame

omit hc in
theorem Dev.pastSwatches_spec (p : Swatch → Bool) : d.ChangesOnly (d.pastSwatches c p) [.nzh] [] ∧ d.SameCamera (d.pastSwatches c p) c := by
  have hpast : d.ChangesOnly (d.pastSwatches c p) [.nzh] [] := .foldl _ .keep fun e w he => .setNzh he (by decide)
  have hins : (d.pastSwatches c p).ins = d.ins := hpast.parts .ins (by decide)
  exact ⟨hpast, by rw [Dev.cam, hins, Dev.cam], by rw [Dev.cam, hins, Dev.cam], by rw [hins]⟩

theorem Dev.shutFrame_spec (f : Frame) (n : Nat) : d.ChangesOnly (d.shutFrame c f n) [.ins, .nzh, .snapD] [] ∧ ((d.shutFrame c f n).cam c).frame = none ∧
    ((d.shutFrame c f n).cam c).next = (d.cam c).next ∧ (d.shutFrame c f n).ins.cams.length = d.ins.cams.length := by
  have hlen : (d.setCam c fun k => { k with frame := none, seq := (k.trigs.filter fun t => !t.paired).length % n }).ins.cams.length = d.ins.cams.length :=
    List.length_modify ..
  have hcam := Dev.cam_setCam (fun k => { k with frame := none, seq := (k.trigs.filter fun t => !t.paired).length % n }) hc
  obtain ⟨hstart, hnext, hframe, hcams⟩ := Dev.newStart_spec (hlen ▸ hc)
  have hchanges : d.ChangesOnly ((d.setCam c fun k => { k with frame := none, seq := (k.trigs.filter fun t => !t.paired).length % n }).newStart c)
      [.ins, .nzh, .snapD] [] := (Dev.ChangesOnly.setIns .keep (by decide)).trans (hstart.mono (by decide) nofun)
  obtain ⟨hpast, pnext, pframe, pcams⟩ := Dev.pastSwatches_spec (c := c) fun w => decide (f.first < w.first + w.lines ∧ w.first < f.last + 8)
  rw [hcam] at hnext hframe
  rw [hlen] at hcams
  unfold Dev.shutFrame
  dsimp only
  split
  · exact ⟨hchanges.trans (hpast.mono (by decide) nofun), pframe.trans hframe, pnext.trans hnext, pcams.trans hcams⟩
  · exact ⟨hchanges, hframe, hnext, hcams⟩

end

theorem Dev.showFrame_changes (d : Dev) (c : Nat) : d.ChangesOnly (d.showFrame c) [] [R.INS_Cc_STAT.addr c] := by
  unfold Dev.showFrame
  split
  · exact .wr (.wr (.wrB .keep List.mem_cons_self) List.mem_cons_self) List.mem_cons_self
  · exact .wr (.wrB .keep List.mem_cons_self) List.mem_cons_self

section
variable {d : Dev} {c : Nat} (hr : keysRising 0 d.regs = true)
include hr

theorem Dev.showFrame_closed (h : (d.cam c).frame = none) : (d.showFrame c).rd F.INS_Cc_STAT_OPEN c = 0 := by
  have h1 : keysRising 0 (d.wrB F.INS_Cc_STAT_OPEN c false).regs = true := Dev.wr_rising _ _ _ _ hr
  unfold Dev.showFrame
  rw [h]
  exact (Dev.rd_wr_beside (f := F.INS_Cc_STAT_LINES) (g := F.INS_Cc_STAT_OPEN) ⟨rfl, by decide, by decide⟩ c 0 h1).trans
    (Dev.rd_wrB_self d F.INS_Cc_STAT_OPEN c false (by decide) (by decide) hr)

theorem Dev.showFrame_open {f : Frame} (h : (d.cam c).frame = some f) (hlines : f.lines < 2 ^ 14) : (d.showFrame c).rd F.INS_Cc_STAT_OPEN c = 1 ∧
    (d.showFrame c).rd F.INS_Cc_STAT_LINES c = f.lines ∧ (d.showFrame c).rd F.INS_Cc_STAT_FRAME c = f.number % 2 ^ 32 := by
  have h1 : keysRising 0 (d.wrB F.INS_Cc_STAT_OPEN c true).regs = true := Dev.wr_rising _ _ _ _ hr
  have h2 := Dev.wr_rising _ F.INS_Cc_STAT_LINES c f.lines h1
  unfold Dev.showFrame
  rw [h]
  refine ⟨?_, ?_, Dev.rd_wr_self _ F.INS_Cc_STAT_FRAME c f.number (by decide) h2⟩
  · exact (Dev.rd_wr_beside (f := F.INS_Cc_STAT_FRAME) (g := F.INS_Cc_STAT_OPEN) ⟨rfl, by decide, by decide⟩ c f.number h2).trans
      ((Dev.rd_wr_beside (f := F.INS_Cc_STAT_LINES) (g := F.INS_Cc_STAT_OPEN) ⟨rfl, by decide, by decide⟩ c f.lines h1).trans
        (Dev.rd_wrB_self d F.INS_Cc_STAT_OPEN c true (by decide) (by decide) hr))
  · exact (Dev.rd_wr_beside (f := F.INS_Cc_STAT_FRAME) (g := F.INS_Cc_STAT_LINES) ⟨rfl, by decide, by decide⟩ c f.number h2).trans
      (Dev.rd_wr_lt (f := F.INS_Cc_STAT_LINES) c hlines (by decide) h1)

end

theorem camera_apart (c : Fin 8) : (∀ a ∈ R.INS_STAT_HEAD.addr 0 :: dramRegs, a ≠ R.INS_Cc_STAT.addr c) ∧
    ∀ a ∈ eventRegs, a ∉ [R.INS_Cc_STAT.addr c, R.INS_STAT_HEAD.addr 0] ++ dramRegs := by
  have h : ∀ c : Fin 8, (∀ a ∈ R.INS_STAT_HEAD.addr 0 :: dramRegs, a ≠ R.INS_Cc_STAT.addr c) ∧
    ∀ a ∈ eventRegs, a ∉ [R.INS_Cc_STAT.addr c, R.INS_STAT_HEAD.addr 0] ++ dramRegs := by decide
  exact h c

/-- A frame's record is written, its camera closed, and both are shown. -/
def Dev.endFrame (d : Dev) (c : Nat) (f : Frame) (facts : Nat × Nat × Nat) (n : Nat) : Dev := ((d.recordFrame c f facts).shutFrame c f n).showFrame c

/-- What the end of camera c's frame changes, and what it leaves of the camera. -/
structure Dev.FrameEnds (d e : Dev) (c : Fin 8) : Prop where
  changes : d.ChangesOnly e ([.ins, .nzh] ++ dramParts) ([R.INS_Cc_STAT.addr c, R.INS_STAT_HEAD.addr 0] ++ dramRegs)
  frame : (e.cam c).frame = none
  next : (e.cam c).next = (d.cam c).next
  cams : e.ins.cams.length = d.ins.cams.length
  shown : e.rd F.INS_Cc_STAT_OPEN c = 0
  head : e.rd F.INS_STAT_HEAD_HEAD = (d.rd F.INS_STAT_HEAD_HEAD + 1) % 2 ^ d.rd F.INS_STAT_RING_LOG_ENTRIES

theorem Dev.endFrame_spec {d : Dev} (hr : keysRising 0 d.regs = true) {c : Fin 8} (hc : c.val < d.ins.cams.length) (f : Frame) (facts : Nat × Nat × Nat) (n : Nat) :
    d.FrameEnds (d.endFrame c f facts n) c ∧ (d.endFrame c f facts n).mem = (d.recordFrame c f facts).mem := by
  have hrec := Dev.recordFrame_changes (d := d) c f facts
  have hins : (d.recordFrame c f facts).ins = d.ins := hrec.parts .ins (by decide)
  obtain ⟨hshut, hframe, hnext, hcams⟩ := Dev.shutFrame_spec (by rwa [hins]) f n (c := c.val) (d := d.recordFrame c f facts)
  have hshow := Dev.showFrame_changes ((d.recordFrame c f facts).shutFrame c f n) c
  have hsame : (d.endFrame c f facts n).ins = ((d.recordFrame c f facts).shutFrame c f n).ins := hshow.parts .ins nofun
  have hapart := (camera_apart c).1 _ List.mem_cons_self
  refine ⟨{
    changes := (hrec.mono (fun _ => List.mem_append_right _) fun _ ha => List.mem_cons_of_mem _ ha).trans
      ((hshut.mono (by decide) nofun).trans (hshow.mono nofun fun a ha => List.mem_singleton.mp ha ▸ List.mem_cons_self))
    frame := by rw [Dev.cam, hsame, ← Dev.cam, hframe]
    next := by rw [Dev.cam, hsame, ← Dev.cam, hnext, Dev.cam, hins, ← Dev.cam]
    cams := by rw [hsame, hcams, hins]
    shown := Dev.showFrame_closed (hshut.rising (hrec.rising hr)) hframe
    head := ?_ }, ?_⟩
  · exact (hshow.rd fun hm => hapart (List.mem_singleton.mp hm)).trans ((hshut.rd nofun).trans (Dev.recordFrame_head hr c f facts))
  · exact (hshow.parts .mem nofun : (d.endFrame c f facts n).mem = _).trans (hshut.parts .mem (by decide))

/-- After reads of the window the device is as ready for a write by requester 7 as before. -/
theorem Dev.Clean.after_reads {d e : Dev} (h : d.Clean 7) (hc : d.ChangesOnly e ([.ins, .nzh] ++ readParts) dramRegs) (hf : ∀ g ∈ e.drm.fetched, g ∈ d.drm.fetched) : e.Clean 7 where
  fetched g hg := h.fetched g (hf g hg)
  ue := (hc.parts .ue (by decide) : e.ue = _).trans h.ue
  mem := (hc.parts .mem (by decide) : e.mem = _) ▸ h.mem
  regs := hc.rising h.regs
  reset := (congrArg Sys.reset (hc.parts .sys (by decide) : e.sys = _)).trans h.reset

theorem Dev.closeFrame_spec {d : Dev} (hinv : d.Inv) {c : Fin 8} (hopen : (d.cam c).frame ≠ none) :
    d.FrameEnds (d.closeFrame c) c ∧ d.ClosesFrame (d.closeFrame c) c := by
  have hcams : c.val < d.ins.cams.length := by rw [hinv.cams]; exact c.isLt
  have hw := Dev.drained_piped hcams
  obtain ⟨f, hf⟩ := Option.ne_none_iff_exists'.mp (hw.frame hopen)
  have hclose := Dev.closeFrame_open hf
  obtain ⟨hfree, hbegun⟩ := (d.drained c).frameFacts_spec f
  obtain ⟨⟨gen, first, beat⟩, x, hx⟩ : ∃ facts x, (d.drained c).frameFacts f = (facts, x) := ⟨_, _, rfl⟩
  rw [hx] at hfree hbegun
  simp only [hx] at hclose
  generalize max 1 ((d.drained c).camSec c).frameLines = n at hclose
  have hreads : d.ChangesOnly x ([.ins, .nzh] ++ readParts) dramRegs := hw.changes.trans (hfree.mono (by decide) nofun)
  have hfetched : ∀ g ∈ x.drm.fetched, g ∈ d.drm.fetched := fun g hg => hw.fetched g ((hfree.parts .drm (by decide) : x.drm = _) ▸ hg)
  have hins : x.ins = (d.drained c).ins := hfree.parts .ins (by decide)
  have hpat : x.pat = d.pat := hreads.parts .pat (by decide)
  have hentry : x.frameEntry = d.frameEntry := by
    rw [Dev.frameEntry, hreads.rd (by decide), hreads.rd (by decide), Dev.frameEntry]
  have hmem : x.byte = d.byte := by
    funext a
    rw [Dev.byte, (hreads.parts .mem (by decide) : x.mem = _), Dev.byte]
  obtain ⟨hends, hend⟩ := Dev.endFrame_spec (hreads.rising hinv.regs) (c := c) (by rw [hins, hw.cams]; exact hcams) f (gen, first, beat) n
  have hall : d.ChangesOnly (x.endFrame c f (gen, first, beat) n) ([.ins, .nzh] ++ dramParts) ([R.INS_Cc_STAT.addr c, R.INS_STAT_HEAD.addr 0] ++ dramRegs) :=
    (hreads.mono (by decide) fun _ => List.mem_append_right _).trans hends.changes
  generalize hpl : [(1, c.val), (4, f.number), (2, gen), (1, x.frameFlags c f), (2, x.rd F.INS_STAT_HEAD_HEAD)] = payload at hclose
  have he : d.closeFrame c = (x.endFrame c f (gen, first, beat) n).raise .secure 0x0E01 payload := hclose
  have hregs : (d.closeFrame c).regs = (x.endFrame c f (gen, first, beat) n).regs := by
    rw [he]
    exact Dev.raise_regs_quiet (by decide) ..
  have hcam : (d.closeFrame c).ins = (x.endFrame c f (gen, first, beat) n).ins := by rw [he, Dev.raise_ins]
  have hbyte : (d.closeFrame c).byte = (x.recordFrame c f (gen, first, beat)).byte := by
    funext a
    rw [Dev.byte, he, Dev.raise_mem, hend, Dev.byte]
  have hhead : x.rd F.INS_STAT_HEAD_HEAD = d.rd F.INS_STAT_HEAD_HEAD := hreads.rd (by decide)
  refine ⟨{
    changes := he ▸ hall.raise (by decide) (.inl (by decide))
    frame := by rw [Dev.cam, hcam, ← Dev.cam, hends.frame]
    next := by rw [Dev.cam, hcam, ← Dev.cam, hends.next, Dev.cam, hins, ← Dev.cam, hw.next]
    cams := by rw [hcam, hends.cams, hins, hw.cams]
    shown := (Dev.rd_congr _ _ hregs).trans hends.shown
    head := ?_ }, ?_, fun hn a ha => ?_, fun f' hf' => ⟨gen, first, beat, fun hb => ?_, ?_, fun hreset hue hn hpass => ?_⟩⟩
  · exact (Dev.rd_congr _ _ hregs).trans (hends.head.trans (by rw [hhead, hreads.rd (by decide)]))
  · exact (Dev.rd_congr _ _ hregs).trans (hends.head.trans (by rw [hhead, hreads.rd (by decide)]))
  · rw [hbyte, Dev.recordFrame_beside (fun g hg => hn g (hfetched g hg)) c f (gen, first, beat) (by rwa [hentry]), hmem]
  · obtain rfl : f = f' := Option.some.inj (hf.symm.trans hf')
    exact (Prod.mk.inj (hbegun hb)).imp_right Prod.mk.inj
  · obtain rfl : f = f' := Option.some.inj (hf.symm.trans hf')
    rw [he, Dev.raise_raised, hall.event (by decide) (camera_apart c).2, ← hpl, (Dev.frameRecord_congr hpat c f 0 0 0).1, hhead]
    exact List.mem_append_right _ List.mem_cons_self
  · obtain rfl : f = f' := Option.some.inj (hf.symm.trans hf')
    have hclean : d.Clean 7 := ⟨hn, hue, hinv.mem, hinv.regs, hreset⟩
    have hwritten := Dev.recordFrame_bytes (hclean.after_reads hreads hfetched) c f (gen, first, beat)
      (by rw [hentry, Dev.masterSecure, hpat, Dev.checkDram_congr hpat]; exact hpass)
    rw [hentry, (Dev.frameRecord_congr hpat c f gen first beat).2] at hwritten
    rw [Dev.bytes, hbyte]
    exact hwritten

/-! ### A frame opens -/

/-- The camera's next frame opens and is shown. -/
def Dev.openFrame (d : Dev) (c : Nat) : Dev := (d.setCam c fun k => { k with frame := some { number := k.next }, next := (k.next + 1) % 2 ^ 32 }).showFrame c

theorem Dev.openFrame_spec {d : Dev} (hr : keysRising 0 d.regs = true) {c : Nat} (hc : c < d.ins.cams.length) :
    d.ChangesOnly (d.openFrame c) [.ins] [R.INS_Cc_STAT.addr c] ∧ ((d.openFrame c).cam c).frame = some { number := (d.cam c).next } ∧
      ((d.openFrame c).cam c).next = ((d.cam c).next + 1) % 2 ^ 32 ∧ (d.openFrame c).rd F.INS_Cc_STAT_OPEN c = 1 ∧
      (d.openFrame c).rd F.INS_Cc_STAT_LINES c = 0 ∧ (d.openFrame c).rd F.INS_Cc_STAT_FRAME c = (d.cam c).next % 2 ^ 32 := by
  have hcam := Dev.cam_setCam (fun k => { k with frame := some { number := k.next }, next := (k.next + 1) % 2 ^ 32 }) hc
  have hshow := Dev.showFrame_changes (d.setCam c fun k => { k with frame := some { number := k.next }, next := (k.next + 1) % 2 ^ 32 }) c
  have hins : (d.openFrame c).ins = (d.setCam c fun k => { k with frame := some { number := k.next }, next := (k.next + 1) % 2 ^ 32 }).ins := hshow.parts .ins nofun
  have hopened : (d.openFrame c).cam c = { d.cam c with frame := some { number := (d.cam c).next }, next := ((d.cam c).next + 1) % 2 ^ 32 } := by
    rw [Dev.cam, hins, ← Dev.cam, hcam]
  refine ⟨(Dev.ChangesOnly.setIns .keep List.mem_cons_self).trans (hshow.mono nofun fun _ => id), (congrArg Cam.frame hopened :), (congrArg Cam.next hopened :), ?_⟩
  exact Dev.showFrame_open (d := d.setCam c _) hr (congrArg Cam.frame hcam) (show (0 : Nat) < 2 ^ 14 by decide)

/-- The close of a frame is not undone by the next one's opening. -/
theorem Dev.ClosesFrame.opened {d e u : Dev} {c : Fin 8} (h : d.ClosesFrame e c) (hc : e.ChangesOnly u [.ins] [R.INS_Cc_STAT.addr c]) : d.ClosesFrame u c := by
  obtain ⟨hhead, hbeside, hrecord⟩ := h
  have hapart := (camera_apart c).1 _ List.mem_cons_self
  have hbyte : u.byte = e.byte := by
    funext a
    rw [Dev.byte, (hc.parts .mem (by decide) : u.mem = _), Dev.byte]
  refine ⟨(hc.rd fun hm => hapart (List.mem_singleton.mp hm)).trans hhead, fun hn x hx => hbyte ▸ hbeside hn x hx, fun f hf => ?_⟩
  obtain ⟨gen, first, beat, hbegun, hevent, hwritten⟩ := hrecord f hf
  refine ⟨gen, first, beat, hbegun, (hc.parts .raised (by decide) : u.raised = _) ▸ hevent, fun hreset hue hn hpass => ?_⟩
  rw [Dev.bytes, hbyte]
  exact hwritten hreset hue hn hpass

section
variable {s : State} {c : Fin 8}

theorem Dev.frameStart_eq {d : Dev} (hon : d.camOn c = true) : d.frameStart c = (d.closeFrame c).openFrame c := by
  unfold Dev.frameStart
  rw [hon]
  rfl

theorem frameStart_first (hinv : s.Inv) (hon : s.dev.camOn c = true) (hnone : (s.dev.cam c).frame = none) :
    ∃ u, Runs (.csiFrameStart c) s u [.ins] [R.INS_Cc_STAT.addr c] ∧
      (u.dev.cam c).frame = some { number := (s.dev.cam c).next } ∧ (u.dev.cam c).next = ((s.dev.cam c).next + 1) % 2 ^ 32 ∧
      u.dev.rd F.INS_Cc_STAT_OPEN c = 1 ∧ u.dev.rd F.INS_Cc_STAT_LINES c = 0 ∧ u.dev.rd F.INS_Cc_STAT_FRAME c = (s.dev.cam c).next % 2 ^ 32 := by
  have he : s.dev.frameStart c = s.dev.openFrame c := by rw [Dev.frameStart_eq hon, Dev.closeFrame_closed hnone]
  obtain ⟨hc, h⟩ := Dev.openFrame_spec hinv.regs (c := c.val) (by rw [hinv.cams]; exact c.isLt)
  exact ⟨_, .act (fun d => d.frameStart c) rfl he hc, h⟩

theorem frameStart_next (hinv : s.Inv) (hon : s.dev.camOn c = true) (hopen : (s.dev.cam c).frame ≠ none) :
    ∃ u, Runs (.csiFrameStart c) s u ([.ins, .nzh] ++ dramParts) ([R.INS_Cc_STAT.addr c, R.INS_STAT_HEAD.addr 0] ++ dramRegs) ∧
      (u.dev.cam c).frame = some { number := (s.dev.cam c).next } ∧ (u.dev.cam c).next = ((s.dev.cam c).next + 1) % 2 ^ 32 ∧
      u.dev.rd F.INS_Cc_STAT_OPEN c = 1 ∧ u.dev.rd F.INS_Cc_STAT_LINES c = 0 ∧ u.dev.rd F.INS_Cc_STAT_FRAME c = (s.dev.cam c).next % 2 ^ 32 ∧
      s.dev.ClosesFrame u.dev c := by
  obtain ⟨hends, hcloses⟩ := Dev.closeFrame_spec hinv hopen
  obtain ⟨hc, hframe, hnext, hshown, hlines, hnumber⟩ := Dev.openFrame_spec (hends.changes.rising hinv.regs) (c := c.val)
    (by rw [hends.cams, hinv.cams]; exact c.isLt)
  rw [hends.next] at hframe hnext hnumber
  exact ⟨_, .act (fun d => d.frameStart c) rfl (Dev.frameStart_eq hon)
    (hends.changes.trans (hc.mono (by decide) fun a ha => List.mem_singleton.mp ha ▸ List.mem_cons_self)), hframe, hnext, hshown, hlines, hnumber,
    hcloses.opened hc⟩

theorem frame_ignored_off (hoff : s.dev.camOn c = false) : Ignored (.csiFrameStart c) s ∧ Ignored (.csiFrameEnd c) s := by
  refine ⟨.act (fun d => d.frameStart c) rfl ?_, .act (fun d => if d.camOn c then d.closeFrame c else d) rfl ?_⟩
  · exact if_pos (by rw [hoff]; rfl)
  · exact if_neg (by rw [hoff]; decide)

theorem frame_ignored_closed (hnone : (s.dev.cam c).frame = none) : Ignored (.csiFrameEnd c) s ∧ Ignored (.frameIdleTimeout c) s := by
  have hsame := Dev.closeFrame_closed hnone
  exact ⟨.act (fun d => if d.camOn c then d.closeFrame c else d) rfl (by simp only [hsame, ite_self]), .act (fun d => d.closeFrame c) rfl hsame⟩

theorem frameEnd_closes (hinv : s.Inv) (hopen : (s.dev.cam c).frame ≠ none) :
    (s.dev.camOn c = true →
      ∃ u, Runs (.csiFrameEnd c) s u ([.ins, .nzh] ++ dramParts) ([R.INS_Cc_STAT.addr c, R.INS_STAT_HEAD.addr 0] ++ dramRegs) ∧
        (u.dev.cam c).frame = none ∧ u.dev.rd F.INS_Cc_STAT_OPEN c = 0 ∧ s.dev.ClosesFrame u.dev c) ∧
    (∃ u, Runs (.frameIdleTimeout c) s u ([.ins, .nzh] ++ dramParts) ([R.INS_Cc_STAT.addr c, R.INS_STAT_HEAD.addr 0] ++ dramRegs) ∧
      (u.dev.cam c).frame = none ∧ u.dev.rd F.INS_Cc_STAT_OPEN c = 0 ∧ s.dev.ClosesFrame u.dev c) := by
  obtain ⟨hends, hcloses⟩ := Dev.closeFrame_spec hinv hopen
  exact ⟨fun hon => ⟨_, .act (fun d => if d.camOn c then d.closeFrame c else d) rfl (if_pos hon) hends.changes, hends.frame, hends.shown, hcloses⟩,
    _, .act (fun d => d.closeFrame c) rfl rfl hends.changes, hends.frame, hends.shown, hcloses⟩

end

/-! ### COMMIT of the settings (R226) -/

theorem insCommit_copies {s : State} (hinv : s.Inv) (m : Master) (ht : s.dev.Takes m R.INS_COMMIT 0) :
    ∃ u, Runs (.insCommit m) s u [.bus, .ins] [R.INS_COMMIT.addr 0] ∧ u.dev.rd F.INS_COMMIT_PENDING = 1 ∧
      u.dev.ins = { s.dev.ins with pending := some s.dev.insShadows } := by
  obtain ⟨b, hb⟩ := s.dev.touch_bus m
  have he : (s.dev.touch m).wInsCommit 1 1 = { s.dev with bus := b, ins.pending := some s.dev.insShadows }.wrB F.INS_COMMIT_PENDING 0 true := by
    rw [hb]
    exact if_pos (by decide)
  have hbus : s.dev.ChangesOnly { s.dev with bus := b } [.bus, .ins] [R.INS_COMMIT.addr 0] := .setBus .keep (by decide)
  exact ⟨_, .writes (fun d => d.wInsCommit 1 1) rfl ht he (.wrB (.setIns hbus (by decide)) List.mem_cons_self),
    Dev.rd_wrB_self { s.dev with bus := b, ins.pending := some s.dev.insShadows } F.INS_COMMIT_PENDING 0 true (by decide) (by decide) hinv.regs, rfl⟩

/-! ### GO of an I2C master (R212) -/

/-- The fields of INS_I2Cm_CMD. -/
def i2cFlds : List Fld :=
  [F.INS_I2Cm_CMD_DEV, F.INS_I2Cm_CMD_READ, F.INS_I2Cm_CMD_REG, F.INS_I2Cm_CMD_COUNT, F.INS_I2Cm_CMD_SPEED, F.INS_I2Cm_CMD_GO]

theorem findReg_INS_I2Cm_CMD (k : Fin 2) : findReg (R.INS_I2Cm_CMD.addr k) regTable = some ⟨⟨R.INS_I2Cm_CMD, i2cFlds⟩, k, false⟩ := by
  have hapart : ∀ k : Fin 2, ∀ row ∈ regTable.take 114, R.INS_I2Cm_CMD.addr k < row.reg.base ∨ row.reg.top < R.INS_I2Cm_CMD.addr k := by decide +kernel
  exact (findReg_drop 114 (hapart k)).trans (by fin_cases k <;> rfl)

/-- The transaction that a value written to INS_I2Cm_CMD asks for. -/
def i2cAsked (val data : Nat) (held : Bool) : I2cJob :=
  { dev := val % 128, reg := val / 2 ^ 8 % 2 ^ 16, read := val.testBit 7, count := clampNat 1 4 (val / 2 ^ 24 % 8), data := data
    speed := val / 2 ^ 28 % 4, held := held }

section
variable {d : Dev} (hr : keysRising 0 d.regs = true) (k : Fin 2) (val : Nat)
include hr

theorem Dev.store_i2c : let e := d.store R.INS_I2Cm_CMD k val mask64
    d.ChangesOnly e [] [R.INS_I2Cm_CMD.addr k] ∧ e.rd F.INS_I2Cm_CMD_DEV k = val % 128 ∧ e.rd F.INS_I2Cm_CMD_REG k = val / 2 ^ 8 % 2 ^ 16 ∧
      e.on F.INS_I2Cm_CMD_READ k = val.testBit 7 ∧ e.rd F.INS_I2Cm_CMD_COUNT k = clampNat 1 4 (val / 2 ^ 24 % 8) ∧
      e.rd F.INS_I2Cm_CMD_SPEED k = val / 2 ^ 28 % 4 := by
  have hf := findReg_INS_I2Cm_CMD k
  have hwhole {lo w : Nat} (h : lo + w ≤ 64) : fieldOf lo w mask64 = 2 ^ w - 1 := fieldOf_mask64 h
  refine ⟨.store .keep hf List.mem_cons_self, ?_, ?_, ?_, ?_, ?_⟩
  · exact (Dev.rd_store_any hf (f := F.INS_I2Cm_CMD_DEV) (by simp [i2cFlds]) hr rfl rfl (hwhole (by decide))).trans (fieldOf_zero _ _)
  · exact (Dev.rd_store_any hf (f := F.INS_I2Cm_CMD_REG) (by simp [i2cFlds]) hr rfl rfl (hwhole (by decide)))
  · have hread := Dev.rd_store_any hf (f := F.INS_I2Cm_CMD_READ) (by simp [i2cFlds]) hr (v := val) rfl rfl (hwhole (by decide))
    rw [Dev.on, hread.trans (fieldOf_one 7 val)]
    cases val.testBit 7 <;> rfl
  · exact (Dev.rd_store_rw hf (f := F.INS_I2Cm_CMD_COUNT) (by simp [i2cFlds]) hr rfl (hwhole (by decide))).trans
      (Nat.mod_eq_of_lt (lt_of_le_of_lt (clampNat_le (by decide) _) (by decide)))
  · exact (Dev.rd_store_any hf (f := F.INS_I2Cm_CMD_SPEED) (by simp [i2cFlds]) hr rfl rfl (hwhole (by decide)))

end

theorem Dev.i2cJob_setI2c {d : Dev} {k : Nat} (hk : k < d.ins.i2c.length) (j : Option I2cJob) : (d.setI2c k j).i2cJob k = j := by
  simp [Dev.i2cJob, Dev.setI2c, List.getD_eq_getElem?_getD, hk]

/-- A transaction starts, and goes out unless the probe holds it. -/
theorem Dev.runI2c_spec {d : Dev} {k : Fin 2} (hk : k.val < d.ins.i2c.length) (j : I2cJob) :
    d.ChangesOnly (d.runI2c k j) [.ins, .out] [] ∧ (d.runI2c k j).i2cJob k = some { j with held := d.ins.probing } ∧
      (d.runI2c k j).out = if d.ins.probing then d.out else d.out ++ [.i2c k j.dev j.reg j.read j.count j.data j.speed] := by
  have hset : d.ChangesOnly (d.setI2c k (some { j with held := d.ins.probing })) [.ins, .out] [] := .setIns .keep (by decide)
  have hjob := Dev.i2cJob_setI2c hk (some { j with held := d.ins.probing })
  by_cases hp : d.ins.probing = true
  · have he : d.runI2c k j = d.setI2c k (some { j with held := d.ins.probing }) := if_pos hp
    rw [he, if_pos hp]
    exact ⟨hset, hjob, rfl⟩
  · have he : d.runI2c k j = (d.setI2c k (some { j with held := d.ins.probing })).emit (.i2c k j.dev j.reg j.read j.count j.data j.speed) := if_neg hp
    rw [he, if_neg hp]
    exact ⟨hset.emit (by decide) _, hjob, rfl⟩

section
variable {d : Dev} (hr : keysRising 0 d.regs = true) (k : Fin 2) {val : Nat}
include hr

theorem Dev.wI2c_starts (hjob : d.i2cJob k = none) (hgo : setsBit val 32) : d.wI2c k val mask64 =
    ((d.store R.INS_I2Cm_CMD k val mask64).wrB F.INS_I2Cm_STAT_BUSY k true).runI2c k (i2cAsked val (d.rd F.INS_I2Cm_DATA_DATA k) false) := by
  obtain ⟨hc, hdev, hreg, hread, hcount, hspeed⟩ := Dev.store_i2c hr k val
  have hdata : (d.store R.INS_I2Cm_CMD k val mask64).rd F.INS_I2Cm_DATA_DATA k = d.rd F.INS_I2Cm_DATA_DATA k :=
    hc.rd (by fin_cases k <;> decide)
  have hfree : (d.store R.INS_I2Cm_CMD k val mask64).i2cJob k = none := by
    rw [Dev.i2cJob, (hc.parts .ins nofun : _ = d.ins)]
    exact hjob
  unfold Dev.wI2c
  dsimp only
  rw [land_mask64_testBit val (by decide), hgo, hfree, hdev, hreg, hread, hcount, hspeed, hdata]
  rfl

theorem Dev.wI2c_stores (h : d.i2cJob k ≠ none ∨ val.testBit 32 = false) : d.wI2c k val mask64 = d.store R.INS_I2Cm_CMD k val mask64 := by
  have hsame : (d.store R.INS_I2Cm_CMD k val mask64).i2cJob k = d.i2cJob k := by
    rw [Dev.i2cJob, ((Dev.store_i2c hr k val).1.parts .ins nofun : _ = d.ins), Dev.i2cJob]
  unfold Dev.wI2c
  rw [land_mask64_testBit val (by decide)]
  refine if_neg fun hand => ?_
  rw [Bool.and_eq_true, hsame, Option.isNone_iff_eq_none] at hand
  rcases h with h | h
  · exact h hand.2
  · exact absurd (h.symm.trans hand.1) (by decide)

end

section
variable {s : State} (hinv : s.Inv) (m : Master) (k : Fin 2) {val : Nat} (ht : s.dev.Takes m R.INS_I2Cm_CMD k)
include hinv ht

theorem i2cGo_starts (hjob : s.dev.i2cJob k = none) (hgo : setsBit val 32) :
    ∃ u, Runs (.i2cGo m k val) s u [.bus, .ins, .out] [R.INS_I2Cm_CMD.addr k, R.INS_I2Cm_STAT.addr k] ∧
      u.dev.rd F.INS_I2Cm_STAT_BUSY k = 1 ∧ u.dev.i2cJob k = some (i2cAsked val (s.dev.rd F.INS_I2Cm_DATA_DATA k) s.dev.ins.probing) ∧
      u.dev.out = if s.dev.ins.probing then s.dev.out else s.dev.out ++ [.i2c k (val % 128) (val / 2 ^ 8 % 2 ^ 16) (val.testBit 7)
        (clampNat 1 4 (val / 2 ^ 24 % 8)) (s.dev.rd F.INS_I2Cm_DATA_DATA k) (val / 2 ^ 28 % 4)] := by
  obtain ⟨b, hb⟩ := s.dev.touch_bus m
  have hbus : s.dev.ChangesOnly { s.dev with bus := b } [.bus, .ins, .out] [R.INS_I2Cm_CMD.addr k, R.INS_I2Cm_STAT.addr k] := .setBus .keep (by decide)
  obtain ⟨hstore, -⟩ := Dev.store_i2c (d := { s.dev with bus := b }) hinv.regs k val
  generalize hst : ({ s.dev with bus := b } : Dev).store R.INS_I2Cm_CMD k val mask64 = st at hstore
  have hins : st.ins = s.dev.ins := hstore.parts .ins nofun
  have hout : st.out = s.dev.out := hstore.parts .out nofun
  have he : (s.dev.touch m).wI2c k val mask64 = (st.wrB F.INS_I2Cm_STAT_BUSY k true).runI2c k (i2cAsked val (s.dev.rd F.INS_I2Cm_DATA_DATA k) false) := by
    rw [hb, ← hst]
    exact Dev.wI2c_starts (d := { s.dev with bus := b }) hinv.regs k hjob hgo
  obtain ⟨hrun, hnow, hsent⟩ := Dev.runI2c_spec (d := st.wrB F.INS_I2Cm_STAT_BUSY k true) (k := k)
    (by rw [Dev.wrB_ins, hins, hinv.i2c]; exact k.isLt) (i2cAsked val (s.dev.rd F.INS_I2Cm_DATA_DATA k) false)
  rw [Dev.wrB_ins, hins] at hnow hsent
  rw [Dev.wrB_out, hout] at hsent
  refine ⟨_, .writes (fun d => d.wI2c k val mask64) rfl ht he ?_, ?_, hnow, hsent⟩
  · exact (hbus.trans (hstore.mono nofun (by simp))).trans (.trans (.wrB .keep (by simp [F.INS_I2Cm_STAT_BUSY])) (hrun.mono (by decide) nofun))
  · exact (hrun.rd nofun).trans (Dev.rd_wrB_self st F.INS_I2Cm_STAT_BUSY k true (by decide) (by decide) (hstore.rising hinv.regs))

theorem i2cGo_stores (h : s.dev.i2cJob k ≠ none ∨ val.testBit 32 = false) :
    ∃ u, Runs (.i2cGo m k val) s u [.bus] [R.INS_I2Cm_CMD.addr k] ∧ u.dev.rd F.INS_I2Cm_CMD_DEV k = val % 128 := by
  obtain ⟨b, hb⟩ := s.dev.touch_bus m
  have he : (s.dev.touch m).wI2c k val mask64 = ({ s.dev with bus := b } : Dev).store R.INS_I2Cm_CMD k val mask64 := by
    rw [hb]
    exact Dev.wI2c_stores (d := { s.dev with bus := b }) hinv.regs k h
  obtain ⟨hstore, hdev, -⟩ := Dev.store_i2c (d := { s.dev with bus := b }) hinv.regs k val
  have hbus : s.dev.ChangesOnly { s.dev with bus := b } [.bus] [R.INS_I2Cm_CMD.addr k] := .setBus .keep (by decide)
  exact ⟨_, .writes (fun d => d.wI2c k val mask64) rfl ht he (hbus.trans (hstore.mono nofun fun _ => id)), hdev⟩

end

/-! ### The end of an I2C transaction (R212) -/

/-- The master's transaction is over, and a good read shows what it brought. -/
def Dev.i2cBrings (d : Dev) (k : Fin 2) (j : I2cJob) (result data : Nat) : Dev :=
  if j.read ∧ result = 0 then (d.setI2c k none).wr F.INS_I2Cm_DATA_DATA k (data % 2 ^ (8 * j.count)) else d.setI2c k none

/-- The master's status shows the end, and I2C_DONE is posted. -/
def Dev.i2cEnds (d : Dev) (k : Fin 2) (result : Nat) : Dev :=
  (((d.wrB F.INS_I2Cm_STAT_BUSY k false).wrB F.INS_I2Cm_STAT_DONE k true).wr F.INS_I2Cm_STAT_RESULT k result).raise .secure 0x0E05 [(1, k), (1, result)]

theorem i2c_apart (k : Fin 2) : (∀ a ∈ eventRegs, a ∉ [R.INS_I2Cm_STAT.addr k, R.INS_I2Cm_DATA.addr k]) ∧ R.INS_I2Cm_DATA.addr k ≠ R.INS_I2Cm_STAT.addr k := by
  have h : ∀ k : Fin 2, (∀ a ∈ eventRegs, a ∉ [R.INS_I2Cm_STAT.addr k, R.INS_I2Cm_DATA.addr k]) ∧ R.INS_I2Cm_DATA.addr k ≠ R.INS_I2Cm_STAT.addr k := by decide
  exact h k

section
variable {d : Dev} (hr : keysRising 0 d.regs = true) (k : Fin 2)
include hr

theorem Dev.i2cBrings_spec (j : I2cJob) (result data : Nat) : d.ChangesOnly (d.i2cBrings k j result data) [.ins] [R.INS_I2Cm_DATA.addr k] ∧
    (d.i2cBrings k j result data).ins = { d.ins with i2c := d.ins.i2c.set k none } ∧
    (d.i2cBrings k j result data).rd F.INS_I2Cm_DATA_DATA k =
      if j.read ∧ result = 0 then data % 2 ^ (8 * j.count) % 2 ^ 32 else d.rd F.INS_I2Cm_DATA_DATA k := by
  have hset : d.ChangesOnly (d.setI2c k none) [.ins] [R.INS_I2Cm_DATA.addr k] := .setIns .keep List.mem_cons_self
  unfold Dev.i2cBrings
  split
  · exact ⟨.wr hset List.mem_cons_self, rfl, Dev.rd_wr_self (d.setI2c k none) F.INS_I2Cm_DATA_DATA k _ (by decide) hr⟩
  · exact ⟨hset, rfl, rfl⟩

theorem Dev.i2cEnds_spec {result : Nat} (h : result < 4) : d.ChangesOnly (d.i2cEnds k result) [.raised] [R.INS_I2Cm_STAT.addr k] ∧
    (d.i2cEnds k result).rd F.INS_I2Cm_STAT_BUSY k = 0 ∧ (d.i2cEnds k result).rd F.INS_I2Cm_STAT_DONE k = 1 ∧
    (d.i2cEnds k result).rd F.INS_I2Cm_STAT_RESULT k = result ∧ (d.i2cEnds k result).raised = d.raised ++ [d.event .secure 0x0E05 [(1, k), (1, result)]] := by
  have h1 : keysRising 0 (d.wrB F.INS_I2Cm_STAT_BUSY k false).regs = true := Dev.wr_rising _ _ _ _ hr
  have h2 : keysRising 0 ((d.wrB F.INS_I2Cm_STAT_BUSY k false).wrB F.INS_I2Cm_STAT_DONE k true).regs = true := Dev.wr_rising _ _ _ _ h1
  have hc : d.ChangesOnly (((d.wrB F.INS_I2Cm_STAT_BUSY k false).wrB F.INS_I2Cm_STAT_DONE k true).wr F.INS_I2Cm_STAT_RESULT k result) [.raised]
      [R.INS_I2Cm_STAT.addr k] := .wr (.wrB (.wrB .keep List.mem_cons_self) List.mem_cons_self) List.mem_cons_self
  have hregs : (d.i2cEnds k result).regs = (((d.wrB F.INS_I2Cm_STAT_BUSY k false).wrB F.INS_I2Cm_STAT_DONE k true).wr F.INS_I2Cm_STAT_RESULT k result).regs :=
    Dev.raise_regs_quiet (by decide) ..
  have hev : ∀ a ∈ eventRegs, a ∉ [R.INS_I2Cm_STAT.addr k] := fun a ha hm => (i2c_apart k).1 a ha (List.mem_cons.mpr (.inl (List.mem_singleton.mp hm)))
  refine ⟨hc.raise (by decide) (.inl (by decide)), (Dev.rd_congr _ _ hregs).trans ?_, (Dev.rd_congr _ _ hregs).trans ?_, (Dev.rd_congr _ _ hregs).trans ?_, ?_⟩
  · exact (Dev.rd_wr_beside (f := F.INS_I2Cm_STAT_RESULT) (g := F.INS_I2Cm_STAT_BUSY) ⟨rfl, by decide, by decide⟩ k result h2).trans
      ((Dev.rd_wr_beside (f := F.INS_I2Cm_STAT_DONE) (g := F.INS_I2Cm_STAT_BUSY) ⟨rfl, by decide, by decide⟩ k 1 h1).trans
        (Dev.rd_wrB_self d F.INS_I2Cm_STAT_BUSY k false (by decide) (by decide) hr))
  · exact (Dev.rd_wr_beside (f := F.INS_I2Cm_STAT_RESULT) (g := F.INS_I2Cm_STAT_DONE) ⟨rfl, by decide, by decide⟩ k result h2).trans
      (Dev.rd_wrB_self _ F.INS_I2Cm_STAT_DONE k true (by decide) (by decide) h1)
  · exact Dev.rd_wr_lt (f := F.INS_I2Cm_STAT_RESULT) k h (by decide) h2
  · rw [Dev.i2cEnds, Dev.raise_raised, hc.event (by decide) hev]
    rfl

end

/-- The next transaction of a probe goes out, and nothing else happens. -/
theorem Dev.nextProbe_changes (d : Dev) (k : Fin 2) : d.ChangesOnly (d.nextProbe k) [.out] [] := by
  unfold Dev.nextProbe
  split
  · exact .keep
  · split
    · exact .emit .keep (by decide) _
    · exact .keep

section
variable {d : Dev} {k : Fin 2} {result : Nat} (data : Nat)

theorem Dev.endI2c_own {j : I2cJob} (hj : d.i2cJob k = some j) (hheld : j.held = false) : d.endI2c k result data =
    if d.ins.probing then ((d.i2cBrings k j result data).i2cEnds k result).nextProbe k else (d.i2cBrings k j result data).i2cEnds k result := by
  have hprobing : (d.completeI2c k j result data).ins.probing = d.ins.probing := by
    unfold Dev.completeI2c
    dsimp only
    rw [Dev.raise_ins]
    split <;> rfl
  unfold Dev.endI2c
  rw [hj]
  dsimp only
  rw [hheld, hprobing]
  rfl

/-- With no transaction of a host under way the end is that of the probe's. -/
theorem Dev.endI2c_probe (h : d.i2cRuns k = false) : d.endI2c k result data = if d.ins.probing then d.probeDone k result else d := by
  unfold Dev.i2cRuns at h
  unfold Dev.endI2c
  cases hj : d.i2cJob k with
  | none => rfl
  | some j =>
    rw [hj] at h
    exact if_pos (by simpa using h)

/-- What the end of a host's transaction leaves. -/
theorem Dev.endI2c_own_spec (hr : keysRising 0 d.regs = true) {j : I2cJob} (hj : d.i2cJob k = some j) (hheld : j.held = false) (hres : result < 4) {rs : List Nat}
    (hbring : d.ChangesOnly (d.i2cBrings k j result data) [.ins] rs) (hrs : ∀ a ∈ eventRegs, a ∉ rs) (hstat : R.INS_I2Cm_STAT.addr k ∈ rs) :
    let e := d.endI2c k result data
    d.ChangesOnly e ([.ins, .raised] ++ if d.ins.probing then [.out] else []) rs ∧ e.ins = { d.ins with i2c := d.ins.i2c.set k none } ∧
      e.rd F.INS_I2Cm_STAT_BUSY k = 0 ∧ e.rd F.INS_I2Cm_STAT_DONE k = 1 ∧ e.rd F.INS_I2Cm_STAT_RESULT k = result ∧
      e.rd F.INS_I2Cm_DATA_DATA k = (if j.read ∧ result = 0 then data % 2 ^ (8 * j.count) % 2 ^ 32 else d.rd F.INS_I2Cm_DATA_DATA k) ∧
      e.raised = d.raised ++ [d.event .secure 0x0E05 [(1, k), (1, result)]] := by
  obtain ⟨-, hins, hdata⟩ := Dev.i2cBrings_spec hr k j result data
  obtain ⟨hend, hbusy, hdone, hresult, hraised⟩ := Dev.i2cEnds_spec (hbring.rising hr) k hres
  have hends : d.ChangesOnly ((d.i2cBrings k j result data).i2cEnds k result) [.ins, .raised] rs :=
    (hbring.mono (by decide) fun _ => id).trans (hend.mono (by decide) fun a ha => List.mem_singleton.mp ha ▸ hstat)
  have hkept : ((d.i2cBrings k j result data).i2cEnds k result).ins = { d.ins with i2c := d.ins.i2c.set k none } := (hend.parts .ins (by decide)).trans hins
  have hshown : ((d.i2cBrings k j result data).i2cEnds k result).rd F.INS_I2Cm_DATA_DATA k = _ :=
    (hend.rd fun hm => (i2c_apart k).2 (List.mem_singleton.mp hm)).trans hdata
  rw [hbring.event (by decide) hrs, (hbring.parts .raised (by decide) : _ = d.raised)] at hraised
  rw [Dev.endI2c_own data hj hheld]
  split
  · have hnext := ((d.i2cBrings k j result data).i2cEnds k result).nextProbe_changes k
    exact ⟨(hends.mono (by decide) fun _ => id).trans (hnext.mono (by decide) nofun), (hnext.parts .ins (by decide)).trans hkept, (hnext.rd nofun).trans hbusy,
      (hnext.rd nofun).trans hdone, (hnext.rd nofun).trans hresult, (hnext.rd nofun).trans hshown, (hnext.parts .raised (by decide)).trans hraised⟩
  · exact ⟨hends, hkept, hbusy, hdone, hresult, hshown, hraised⟩

end

section
variable {k : Fin 2} {s : State}

theorem i2cComplete_ends (hinv : s.Inv) {j : I2cJob} (hj : s.dev.i2cJob k = some j) (hheld : j.held = false) (result data : Nat) :
    ∃ u, Runs (.i2cComplete k result data) s u ([.ins, .raised] ++ if s.dev.ins.probing then [.out] else []) [R.INS_I2Cm_STAT.addr k, R.INS_I2Cm_DATA.addr k] ∧
      u.dev.ins = { s.dev.ins with i2c := s.dev.ins.i2c.set k none } ∧
      u.dev.rd F.INS_I2Cm_STAT_BUSY k = 0 ∧ u.dev.rd F.INS_I2Cm_STAT_DONE k = 1 ∧ u.dev.rd F.INS_I2Cm_STAT_RESULT k = result % 4 ∧
      u.dev.rd F.INS_I2Cm_DATA_DATA k = (if j.read ∧ result % 4 = 0 then data % 2 ^ (8 * j.count) % 2 ^ 32 else s.dev.rd F.INS_I2Cm_DATA_DATA k) ∧
      u.dev.raised = s.dev.raised ++ [s.dev.event .secure 0x0E05 [(1, k), (1, result % 4)]] := by
  have hbring := (Dev.i2cBrings_spec hinv.regs k j (result % 4) data).1
  obtain ⟨hc, h⟩ := Dev.endI2c_own_spec data hinv.regs hj hheld (Nat.mod_lt result (by decide))
    (hbring.mono (fun _ => id) fun a ha => List.mem_cons_of_mem _ ha) (i2c_apart k).1 List.mem_cons_self
  exact ⟨_, .act (fun d => d.endI2c k (result % 4) data) rfl rfl hc, h⟩

theorem i2cTimeout_ends (hinv : s.Inv) {j : I2cJob} (hj : s.dev.i2cJob k = some j) (hheld : j.held = false) :
    ∃ u, Runs (.i2cTimeout k) s u ([.ins, .raised] ++ if s.dev.ins.probing then [.out] else []) [R.INS_I2Cm_STAT.addr k] ∧
      u.dev.ins = { s.dev.ins with i2c := s.dev.ins.i2c.set k none } ∧
      u.dev.rd F.INS_I2Cm_STAT_BUSY k = 0 ∧ u.dev.rd F.INS_I2Cm_STAT_DONE k = 1 ∧ u.dev.rd F.INS_I2Cm_STAT_RESULT k = 3 ∧
      u.dev.raised = s.dev.raised ++ [s.dev.event .secure 0x0E05 [(1, k), (1, 3)]] := by
  have hnone : s.dev.i2cBrings k j 3 0 = s.dev.setI2c k none := if_neg (by simp)
  have hbring : s.dev.ChangesOnly (s.dev.i2cBrings k j 3 0) [.ins] [R.INS_I2Cm_STAT.addr k] := hnone ▸ .setIns .keep List.mem_cons_self
  have hev : ∀ a ∈ eventRegs, a ∉ [R.INS_I2Cm_STAT.addr k] := fun a ha hm => (i2c_apart k).1 a ha (List.mem_cons.mpr (.inl (List.mem_singleton.mp hm)))
  obtain ⟨hc, hins, hbusy, hdone, hresult, -, hraised⟩ := Dev.endI2c_own_spec 0 hinv.regs hj hheld (by decide) hbring hev List.mem_cons_self
  exact ⟨_, .act (fun d => d.endI2c k 3 0) rfl rfl hc, hins, hbusy, hdone, hresult, hraised⟩

theorem i2c_ignored (hruns : s.dev.i2cRuns k = false) (hidle : s.dev.ins.probing = false ∨ at' s.dev.ins.probe k = []) (result data : Nat) :
    Ignored (.i2cComplete k result data) s ∧ Ignored (.i2cTimeout k) s := by
  have hsame (res dat : Nat) : s.dev.endI2c k res dat = s.dev := by
    rw [Dev.endI2c_probe dat hruns]
    rcases hidle with h | h
    · exact if_neg (by rw [h]; decide)
    · have hdone : s.dev.probeDone k res = s.dev := by rw [Dev.probeDone, h]
      rw [hdone, ite_self]
  exact ⟨.act (fun d => d.endI2c k (result % 4) data) rfl (hsame _ _), .act (fun d => d.endI2c k 3 0) rfl (hsame _ _)⟩

/-- An answer to a probe is recorded, and the next one goes out. -/
theorem Dev.endI2c_answer {d : Dev} (hruns : d.i2cRuns k = false) (hprobing : d.ins.probing = true) {c : Nat} {rest : List Nat}
    (hprobe : at' d.ins.probe k = c :: rest) (result data : Nat) : d.ChangesOnly (d.endI2c k result data) [.ins, .out] [] ∧
      (d.endI2c k result data).ins = { d.ins with probe := d.ins.probe.set k rest, answers := (c, result) :: d.ins.answers } := by
  have he : d.endI2c k result data = { d with ins.probe := d.ins.probe.set k rest, ins.answers := (c, result) :: d.ins.answers }.nextProbe k := by
    rw [Dev.endI2c_probe data hruns, if_pos hprobing, Dev.probeDone, hprobe]
  have hnext := Dev.nextProbe_changes { d with ins.probe := d.ins.probe.set k rest, ins.answers := (c, result) :: d.ins.answers } k
  have hset : d.ChangesOnly { d with ins.probe := d.ins.probe.set k rest, ins.answers := (c, result) :: d.ins.answers } [.ins, .out] [] := .setIns .keep (by decide)
  rw [he]
  exact ⟨hset.trans (hnext.mono (by decide) nofun), hnext.parts .ins (by decide)⟩

theorem i2c_answers (hruns : s.dev.i2cRuns k = false) (hprobing : s.dev.ins.probing = true) {c : Nat} {rest : List Nat}
    (hprobe : at' s.dev.ins.probe k = c :: rest) (result data : Nat) :
    (∃ u, Runs (.i2cComplete k result data) s u [.ins, .out] [] ∧
      u.dev.ins = { s.dev.ins with probe := s.dev.ins.probe.set k rest, answers := (c, result % 4) :: s.dev.ins.answers }) ∧
    (∃ u, Runs (.i2cTimeout k) s u [.ins, .out] [] ∧
      u.dev.ins = { s.dev.ins with probe := s.dev.ins.probe.set k rest, answers := (c, 3) :: s.dev.ins.answers }) := by
  obtain ⟨hc, hins⟩ := Dev.endI2c_answer hruns hprobing hprobe (result % 4) data
  obtain ⟨hc', hins'⟩ := Dev.endI2c_answer hruns hprobing hprobe 3 0
  exact ⟨⟨_, .act (fun d => d.endI2c k (result % 4) data) rfl rfl hc, hins⟩, _, .act (fun d => d.endI2c k 3 0) rfl rfl hc', hins'⟩

end

/-- Settles O42: a frame closes by draining its lines, writing its record and moving HEAD on; the settings and the I2C masters act by one write or one end each. -/
theorem framesSettingsAndI2c : Obligations.FramesSettingsAndI2c := by
  unfold Obligations.FramesSettingsAndI2c
  refine ⟨fun c s hinv => ⟨fun hon => ?_, frame_ignored_off, frame_ignored_closed⟩, fun c s hinv hopen => frameEnd_closes hinv hopen,
    fun m s hinv ht => insCommit_copies hinv m ht, fun m k val s hinv ht => ⟨i2cGo_starts hinv m k ht, i2cGo_stores hinv m k ht⟩,
    fun k j result data s hinv hj hheld => ⟨i2cComplete_ends hinv hj hheld result data, i2cTimeout_ends hinv hj hheld⟩,
    fun k result data s hruns hidle => i2c_ignored hruns hidle result data,
    fun k c rest result data s hruns hprobing hprobe => i2c_answers hruns hprobing hprobe result data⟩
  by_cases hnone : (s.dev.cam c).frame = none
  · obtain ⟨u, hruns, hframe, hnext, hshown, hlines, hnumber⟩ := frameStart_first hinv hon hnone
    exact ⟨u, by rwa [if_pos hnone, if_pos hnone], hframe, hnext, hshown, hlines, hnumber, fun h => absurd hnone h⟩
  · obtain ⟨u, hruns, hframe, hnext, hshown, hlines, hnumber, hcloses⟩ := frameStart_next hinv hon hnone
    exact ⟨u, by rwa [if_neg hnone, if_neg hnone], hframe, hnext, hshown, hlines, hnumber, fun _ => hcloses⟩

end Sys2Proof.Machine
end
